-- ==== Sys2Proof/Word.lean ====
section
/-! DEFINITION. The plain types every file uses: bytes, words and keyed tables. The manual's registers are
32-bit words (R6, 00_scope.md); its memories and payloads are bytes. -/

namespace Sys2Proof

/-- One byte of a payload, a packet or a memory. -/
abbrev Byte := BitVec 8

/-- One register word (R6, 00_scope.md). -/
abbrev Word := BitVec 32

/-- A keyed table in canonical form: keys strictly rising. -/
abbrev Tbl (α : Type) := List (Nat × α)

end Sys2Proof
end

