-- ==== Sys2Proof/Syntax.lean ====
section
/-! DEFINITION. The commands the Skeuf takes: one constructor of `Instr` for each row of the opcode table, with
the operands a sender or the physical event supplies. `t` is the reading of the model's microsecond clock when
the command arrives (log entry 1). -/

namespace Sys2Proof

/-- A carrier of Trellis packets (R34, R59, 02_trellis_commands.md). -/
inductive Carrier where
  /-- queue pair `n` -/
  | qp (n : Nat)
  /-- on port `n`, the mailbox of the logical device whose host has identity `i`; 0x1000 + n for the fabric-manager-owned
  logical device -/
  | mailbox (n i : Nat)
  /-- the MCTP endpoint `eid` on TWI0 -/
  | mctp (eid : Nat)
  deriving DecidableEq, Repr

/-- An access path to registers (R9, 00_scope.md). -/
inductive Path where
  | cxlio (port : Nat)
  | qp (n : Nat)
  /-- the mailbox of one logical device: port and host identity (R63) -/
  | mailbox (n i : Nat)
  /-- one MCTP endpoint (R63) -/
  | mctp (eid : Nat)
  | mp
  | cfm
  deriving DecidableEq, Repr

/-- What the two-wire and MCTP headers of a message on TWI0 say of it (R48, R364, R366; DSP0236, DSP0237). -/
structure MctpHead where
  /-- two-wire target address it was written to, 7 bits -/
  addr : Nat := 0x1E
  /-- two-wire address its source address byte carries, 7 bits: where the reply goes -/
  back : Nat := 0x10
  /-- source endpoint ID -/
  src : Nat := 0
  /-- message tag, 3 bits -/
  tag : Nat := 0
  deriving DecidableEq, Repr

/-- A Trellis packet as one carrier delivers it, with its payload (Table 2.1, 02_trellis_commands.md). -/
structure TrellisCmd where
  /-- the carrier -/
  carrier : Carrier := .mctp 0
  /-- issuer the carrier establishes (R36) -/
  est : Nat := 0x2000
  /-- opcode, bytes 0–1 -/
  op : Nat := 0
  /-- flags, byte 2 -/
  flags : Nat := 0
  /-- version, byte 3 -/
  version : Nat := 1
  /-- tag, bytes 4–7 -/
  tag : Nat := 0
  /-- allotment ID, bytes 8–9 -/
  allot : Nat := 0xFFFF
  /-- issuer ID field, bytes 10–11 -/
  issuer : Nat := 0x2000
  /-- payload length, bytes 12–15 -/
  payLen : Nat := 0
  /-- payload address, bytes 16–23 -/
  payAddr : Nat := 0
  /-- parameter bytes 24–63 -/
  params : List Byte := []
  /-- payload bytes as read -/
  payload : List Byte := []
  /-- whether the payload transfer succeeds on the link (R46) -/
  payOk : Bool := true
  /-- on MCTP: the headers of the message -/
  head : MctpHead := {}
  /-- clock, µs -/
  t : Nat := 0
  deriving DecidableEq, Repr

/-- A request to the primary mailbox of one logical device or to the fabric-manager API (R47, R74, R100). -/
structure MboxReq where
  /-- port -/
  port : Nat := 0
  /-- issuer ID of the logical device's host (Table 2.2) -/
  issuer : Nat := 0
  /-- input payload -/
  input : List Byte := []
  deriving DecidableEq, Repr

/-- Who makes a direct register access, where and how wide (R6, R475). -/
structure RegAcc where
  /-- access path -/
  path : Path := .mctp 0
  /-- the requester has the full access of R475 -/
  full : Bool := true
  /-- issuer ID of the requester -/
  issuer : Nat := 0x2000
  /-- byte offset in the register space -/
  off : Nat := 0
  /-- bytes accessed -/
  size : Nat := 4
  deriving DecidableEq, Repr

/-- A reporting pair: a fault source, one of the three notice wires of R17 (0 power-fail, 1 harvest-done, 2 Fatal),
or the rail monitor of a slot (R373, R374). -/
inductive PairRef where
  | source (n : Nat)
  | wire (k : Nat)
  | rail (slot : Nat)
  deriving DecidableEq, Repr

/-- How a two-wire transaction ended on the bus (R368). -/
inductive TwiEnd where
  /-- every byte acknowledged, every PEC it carries matches, stop sent -/
  | ok
  | addrNak
  | dataNak
  | pec
  deriving DecidableEq, Repr

/-- What a cold-frame start finds (R343, R348, R349, R370, R445): the input level, which option copies verify, the
embedded-flash units read with a shifted margin or not at all, a torn learned-value record, the two-wire ports whose
line check fails. -/
structure ColdIn where
  /-- MON00 inside its window -/
  inputIn : Bool := false
  /-- option copy 0 reads with a good CRC -/
  opt0 : Bool := true
  /-- option copy 1 reads with a good CRC -/
  opt1 : Bool := true
  /-- reads corrected by ECC -/
  corrected : Nat := 0
  /-- unit addresses recovered by a margin shift -/
  margin : List Nat := []
  /-- unit addresses no shift decodes -/
  ue : List Nat := []
  /-- a learned-value record found torn: none, or sector 0 A, 1 B -/
  torn : Option Nat := none
  /-- ports whose check of R370 fails -/
  stuck : List Nat := []
  deriving DecidableEq, Repr

/-- What a retraining step finds on one lane (R120): the midpoints and width of its window, whether an edge was lost,
and the sweep in full that a lost edge asks for. -/
structure LaneProbe where
  /-- subchannel × 64 + rank × 8 + lane -/
  lane : Nat := 0
  /-- midpoint of the read window -/
  rd : Nat := 0
  /-- midpoint of the write window -/
  wr : Nat := 0
  /-- width of the narrower window -/
  width : Nat := 0
  /-- an edge was not found within ±8 steps: the values are those of a sweep in full -/
  lost : Bool := false
  deriving DecidableEq, Repr

/-- What the part and the decoder give a flash read of a granule (R208, R210); the defaults: every read succeeds at once. -/
structure FlashRead where
  /-- (level, codeword): codewords that do not decode at a level -/
  fails : List (Nat × Nat) := []
  /-- effort of the decode: 0 FAST, 1 SLOW, 2 SOFT -/
  effort : Nat := 0
  /-- whole reads that end in a mismatch before one matches; 19 or more: none does -/
  mism : Nat := 0
  deriving DecidableEq, Repr

/-- A mirrored write record as it arrives on a sublink (R251). -/
structure RecIn where
  /-- LINE, the device line address -/
  line : Nat := 0
  /-- P -/
  p : Bool := false
  data : List Byte := []
  enables : BitVec 64 := 0#64
  poison : Bool := false
  deriving DecidableEq, Repr

/-- A TABLE message (R256): the entry, or a part of the extent list. -/
structure TableMsg where
  allot : Nat := 0
  /-- 0 entry, 1 extent list -/
  part : Nat := 0
  /-- entry: the result bytes 16–31 of ALLOT_QUERY -/
  info : List Byte := []
  maxExtents : Nat := 0
  mgen : Nat := 0
  /-- bindings, host and whether RW (log entry 51) -/
  bindings : List (Nat × Bool) := []
  /-- bindings that go are forced removals (log entry 51) -/
  force : Bool := false
  /-- extent list: first list index -/
  first : Nat := 0
  extents : List Nat := []
  deriving DecidableEq, Repr

/-- A sequenced flit as it arrives (R243, R245); what its body spells, decrypted, is the command's own content. -/
structure FlitIn where
  sub : Nat := 0
  seq : Nat := 0
  /-- its body as it arrived, ciphertext where it is encrypted; bytes not given are zero -/
  body : List Byte := []
  /-- bytes 252–255: its CRC-32 as it arrived -/
  crc : BitVec 32 := 0#32
  /-- symbols corrected in the codewords that brought it (R240) -/
  fec : Nat := 0
  deriving DecidableEq, Repr

/-- A CXL.mem request of a host (R69, R83). -/
structure MemReq where
  port : Nat := 0
  /-- the host's Issuer ID (Table 2.2) -/
  issuer : Nat := 0
  /-- device physical address in the requester's region -/
  dpa : Nat := 0
  data : List Byte := []
  /-- byte enables, bit i for byte i -/
  enables : BitVec 64 := 0#64
  poison : Bool := false
  deriving DecidableEq, Repr

/-- What the DRAM and the queues show as a request is served (R95, R126, R192). -/
structure LineIn where
  /-- the line's DRAM copy is found uncorrectable -/
  ue : Bool := false
  /-- device of a corrected error -/
  ce : Option Nat := none
  /-- fill of the port's ingress queue, percent (R95) -/
  ingress : Nat := 0
  /-- fill of the requester's share of the ledger slices, percent (R95) -/
  share : Nat := 0
  /-- a warm-verified granule's CRC does not match its entry -/
  badCrc : Bool := false
  deriving DecidableEq, Repr

/-- A HELLO message (R247). -/
structure HelloMsg where
  serial : Nat := 0
  part : Nat := 0
  major : Nat := 0
  sessNext : Nat := 0
  nonce : List Byte := []
  group : Nat := 0
  deriving DecidableEq, Repr

/-- The SPD of one DIMM (R108, R109): what Table 4.1 asks of it, and its geometry as one number. -/
structure DimmSpd where
  /-- RDIMM, or 3DS RDIMM with 2 or 4 dies per stack -/
  rdimm : Bool := true
  /-- DRAM devices are x4 -/
  x4 : Bool := true
  /-- capacity, GB -/
  gb : Nat := 64
  /-- logical ranks -/
  ranks : Nat := 1
  /-- tRFCab, ns -/
  trfc : Nat := 410
  /-- highest rate, coded as SPEED_CAP -/
  speed : Nat := 4
  /-- die stacking and device density -/
  geo : Nat := 0
  deriving DecidableEq, Repr

/-- The DIMMs found on one channel (R109). -/
structure ChanSpd where
  chan : Nat := 0
  /-- every SPD of the channel was read -/
  readable : Bool := true
  dimms : List DimmSpd := []
  deriving DecidableEq, Repr

/-- What a start's training finds on one lane (R117, R119): the widest run of passing points of the read and of the write
sweep, and after a warm return which points of the verification pass pass. -/
structure LaneSweep where
  chan : Nat := 0
  /-- subchannel × 64 + rank × 8 + lane -/
  lane : Nat := 0
  /-- points of the read sweep at which 1,024 bursts return no error, bit k for step k -/
  rdPass : BitVec 128 := 0#128
  /-- the same of the write sweep -/
  wrPass : BitVec 128 := 0#128
  /-- the saved centre passes -/
  centre : Bool := true
  /-- both points ±8 steps from it pass -/
  edges : Bool := true
  deriving DecidableEq, Repr

/-- What a start reads of one NAND target (R202, R203). -/
structure FlashTgt where
  vol : Nat := 0
  uid : Nat := 0
  /-- its parameter page, or a copy of it, reads with a good CRC -/
  param : Bool := true
  /-- manufacturer and model -/
  part : Nat := 0
  /-- TLC with the pSLC mode and a page size of Table 7.2 -/
  cell : Bool := true
  planes : Nat := 4
  /-- good blocks -/
  good : Nat := 0
  /-- blocks the manufacturer marked bad, ascending -/
  bad : List Nat := []
  /-- TLC pages of a block on one plane -/
  tlcPages : Nat := 0
  /-- nominal capacity, GiB -/
  gib : Nat := 0
  /-- median pSLC program time, µs -/
  progUs : Nat := 150
  /-- median page read time, µs -/
  readUs : Nat := 30
  /-- temperature at DQ training, °C -/
  temp : Int := 25
  deriving DecidableEq, Repr

/-- What a start finds on one ONFI channel (R201–R203). -/
structure FlashChan where
  chan : Nat := 0
  /-- it trains at 1,600 MT/s or faster -/
  trains : Bool := true
  /-- highest rate it trains at, coded as RATE_CAP -/
  rate : Nat := 3
  targets : List FlashTgt := []
  deriving DecidableEq, Repr

/-- The end of a step of Table 6.8, with what the step found. Steps 5 and 6 end before step 4. -/
inductive TrainIn where
  /-- step 2: images reloaded; the fenced tines that pass item 0 (R430) -/
  | images (passed : List Nat)
  /-- step 3: SPD of every DIMM, and the CRC-64 of their geometry fields -/
  | spd (l : List ChanSpd) (geometry : BitVec 64)
  /-- step 5: the flash is read, the flash keys are derived -/
  | flash (l : List FlashChan)
  /-- step 6: which copies of the newest seal verify, and whether the HELD and the loss record do -/
  | records (sealA sealB held loss : Bool) (unread : List Nat)
  /-- step 4: the lanes of every rank -/
  | dram (l : List LaneSweep)
  /-- step 7: the granule map and the allotment tables stand -/
  | maps
  deriving DecidableEq, Repr

/-- The commands: one constructor for each row of the opcode table. -/
inductive Instr where
  /-- ECHO (R62): Trellis ECHO returns parameter bytes 24 to 39 in the result. -/
  | echo (c : TrellisCmd)
  /-- IDENTIFY (R62): Trellis IDENTIFY returns the part number, stepping, Trellis version, firmware version, device state and enterprise number. -/
  | identify (c : TrellisCmd)
  /-- REG_READ (R63): Trellis REG_READ reads 1 to 4 consecutive register words, with each carrier acting as an access path. -/
  | regRead (c : TrellisCmd)
  /-- REG_WRITE (R65): Trellis REG_WRITE performs an atomic masked read-modify-write of one register and returns the value after the write. -/
  | regWrite (c : TrellisCmd)
  /-- REG_READ_MULTI (R64): Trellis REG_READ_MULTI captures up to 256 registers of one die at one instant and writes the values over the offset list. -/
  | regReadMulti (c : TrellisCmd)
  /-- ALLOT_CREATE (R102): Creates a LOCAL or MIRRORED allotment with its extents and optional bindings, committed on every twin that holds the entry. -/
  | allotCreate (c : TrellisCmd)
  /-- ALLOT_RESIZE (R103): Grows an allotment or shrinks it after the bound hosts release the removed extents. -/
  | allotResize (c : TrellisCmd)
  /-- ALLOT_DELETE (R104): Deletes an allotment: it enters DELETING, advances the key generation, zeroes and frees the extents and frees the entry. -/
  | allotDelete (c : TrellisCmd)
  /-- ALLOT_BIND (R105): Adds, removes or force-removes bindings, or acknowledges data loss, according to ACTION. -/
  | allotBind (c : TrellisCmd)
  /-- ALLOT_QUERY (R106): Returns an allotment's state, kind, home, flags, extents, bindings and lost regions, with its binding list. -/
  | allotQuery (c : TrellisCmd)
  /-- EXPOSURE_QUERY (R158): Returns exposure, limit, stage, admission mode, flags and allotment dirty count, captured at one instant. -/
  | exposureQuery (c : TrellisCmd)
  /-- DRIP_POLICY_SET (R159): Loads a signed drip policy image, or loads host ripeness hints in host-assisted DRIP mode. -/
  | dripPolicySet (c : TrellisCmd)
  /-- FLUSH_RANGE (R160): Drips every non-CLEAN granule of a byte range at URGENT priority, optionally on the twin as well. -/
  | flushRange (c : TrellisCmd)
  /-- HARVEST_PLAN_LOAD (R197): Sets the harvest tier of allotments for the next cut, or restores the default tiers. -/
  | harvestPlanLoad (c : TrellisCmd)
  /-- FULL_SAVE (R198): Runs a full-image save of every host granule into pSLC while hosts are served. -/
  | fullSave (c : TrellisCmd)
  /-- REPLANT_ORDER_LOAD (R199): Loads the standing replant order, or queues host-assisted replant ranges. -/
  | replantOrderLoad (c : TrellisCmd)
  /-- PAIR (R236): Pairs this unit with its twin through SPDM mutual authentication and writes the pairing record. -/
  | pair (c : TrellisCmd)
  /-- UNPAIR (R237): Ends the pairing; with FORCE it converts or deletes the MIRRORED allotments and takes the link down. -/
  | unpair (c : TrellisCmd)
  /-- FAILOVER (R268): Takes over, hands over, acknowledges a claim or fences the named allotments. -/
  | failover (c : TrellisCmd)
  /-- RESYNC (R271): Starts, paces or pauses resync, or forces this unit's copy to be the source. -/
  | resync (c : TrellisCmd)
  /-- TALLY_COMPARE (R262): Compares the tallies of up to 64 regions with the peer at an agreed epoch and reports each result. -/
  | tallyCompare (c : TrellisCmd)
  /-- PACK_INFO (R317): Returns the pack identity, configuration, usability, age and learned capacity, and optionally the learned-value record. -/
  | packInfo (c : TrellisCmd)
  /-- GAUGE_READ (R317): Returns the state-of-charge estimates and energy estimates of the last gauge update. -/
  | gaugeRead (c : TrellisCmd)
  /-- GAUGE_RAW (R317): Returns raw gauge bursts from the ring of the last 4,096. -/
  | gaugeRaw (c : TrellisCmd)
  /-- REHEARSAL_RUN (R317): Runs a harvest rehearsal on pack power and reports the learned energy terms. -/
  | rehearsalRun (c : TrellisCmd)
  /-- POWER_STATE_REQ (R337): Issues an off request, an on request, or a domain switch-on or switch-off. -/
  | powerStateReq (c : TrellisCmd)
  /-- RAIL_TABLE_LOAD (R320): Checks and installs a signed rail table image or OCV and derating image. -/
  | railTableLoad (c : TrellisCmd)
  /-- SLAVE_SEQ_CMD (R338): Sends one slave sequencer command over TWI2 and returns its status. -/
  | slaveSeqCmd (c : TrellisCmd)
  /-- FAULT_STATUS (R392): Returns per-source fault state and optionally the history snapshot. -/
  | faultStatus (c : TrellisCmd)
  /-- FAULT_CLEAR (R393): Clears STICKY and COUNT of sources, or releases the history snapshot. -/
  | faultClear (c : TrellisCmd)
  /-- FAULT_INJECT (R394): Injects inverted check bits into a checker in shadow or live mode, or tests a reporting pair. -/
  | faultInject (c : TrellisCmd)
  /-- LOG_CURSOR_SET (R395): Sets the access path's log cursor and filter. -/
  | logCursorSet (c : TrellisCmd)
  /-- LOG_READ_WINDOW (R395): Returns up to 16 event records from the cursor and optionally advances the cursor. -/
  | logReadWindow (c : TrellisCmd)
  /-- LOG_CLEAR (R396): Erases every log sector and then records LOG_CLEARED. -/
  | logClear (c : TrellisCmd)
  /-- FW_STAGE_BEGIN (R402): Erases a firmware slot, or opens an SRAM buffer for a table image, for staging. -/
  | fwStageBegin (c : TrellisCmd)
  /-- FW_STAGE_DATA (R403): Writes a payload into the slot or buffer being staged. -/
  | fwStageData (c : TrellisCmd)
  /-- FW_STAGE_END (R404): Checks the staged CRC and closes the slot as STAGED, or checks and installs a table image. -/
  | fwStageEnd (c : TrellisCmd)
  /-- FW_ACTIVATE_AT (R405): Schedules activation of the STAGED slot at an epoch agreed with the peer, or cancels it. -/
  | fwActivateAt (c : TrellisCmd)
  /-- FW_CONFIRM (R409): Confirms the TENTATIVE slot and resets its failed-boot count. -/
  | fwConfirm (c : TrellisCmd)
  /-- KEY_LABEL_SET (R416): Sets the label block of a record key slot in host-assisted KEYS mode. -/
  | keyLabelSet (c : TrellisCmd)
  /-- RECORD_SEAL (R417): Encrypts a record with AES-GCM-256 under a label slot key and the next nonce. -/
  | recordSeal (c : TrellisCmd)
  /-- RECORD_OPEN (R418): Decrypts and authenticates a sealed record. -/
  | recordOpen (c : TrellisCmd)
  /-- AES_BLOCK (R419): Encrypts or decrypts one 16-byte block under a label slot key. -/
  | aesBlock (c : TrellisCmd)
  /-- TEST_SCHEDULE (R434): Runs a weeding item now, sets its period, or pauses or resumes the pass. -/
  | testSchedule (c : TrellisCmd)
  /-- TEST_RESULT (R435): Returns a weeding item's results, or telemetry summaries or samples. -/
  | testResult (c : TrellisCmd)
  /-- FUNC_MODE_SET (R66): Requests a switch of one function between hardware mode and host-assisted mode. -/
  | funcModeSet (c : TrellisCmd)
  /-- FUNC_MODE_QUERY (R68): Returns function state bytes, owner, watchdog period and the permission mask. -/
  | funcModeQuery (c : TrellisCmd)
  /-- LATE_STATUS_FETCH (R61): Reads or releases the class 2 replies of the oldest late-status group that is visible to the issuer. -/
  | lateStatusFetch (c : TrellisCmd)
  /-- MAILBOX_TRELLIS_PACKET (R47): Mailbox command 0xC710 carries one Trellis packet with inline payload and returns its class 0 reply. -/
  | mailboxTrellisPacket (op : Nat) (m : MboxReq) (t : Nat)
  /-- MAILBOX_IDENTIFY (R100): Standard mailbox Identify command. -/
  | mailboxIdentify (m : MboxReq) (t : Nat)
  /-- BACKGROUND_OPERATION_STATUS (R100): Standard mailbox Background Operation Status command. -/
  | backgroundOperationStatus (m : MboxReq) (t : Nat)
  /-- GET_EVENT_RECORDS (R100): Returns posted CXL event records, including Neraesh fault and twin records. -/
  | getEventRecords (m : MboxReq) (t : Nat)
  /-- CLEAR_EVENT_RECORDS (R100): Clears CXL event records. -/
  | clearEventRecords (m : MboxReq) (t : Nat)
  /-- GET_EVENT_INTERRUPT_POLICY (R100): Returns the event interrupt policy. -/
  | getEventInterruptPolicy (m : MboxReq) (t : Nat)
  /-- SET_EVENT_INTERRUPT_POLICY (R100): Sets the event interrupt policy. -/
  | setEventInterruptPolicy (m : MboxReq) (t : Nat)
  /-- GET_TIMESTAMP (R100): Returns the device timestamp. -/
  | getTimestamp (m : MboxReq) (t : Nat)
  /-- SET_TIMESTAMP (R100): Sets the device timestamp. -/
  | setTimestamp (m : MboxReq) (t : Nat)
  /-- GET_SUPPORTED_LOGS (R100): Returns the supported log list. -/
  | getSupportedLogs (m : MboxReq) (t : Nat)
  /-- GET_LOG (R100): Returns a log. -/
  | getLog (m : MboxReq) (t : Nat)
  /-- IDENTIFY_MEMORY_DEVICE (R100): Standard mailbox Identify Memory Device command. -/
  | identifyMemoryDevice (m : MboxReq) (t : Nat)
  /-- GET_HEALTH_INFO (R94): Returns health information, including the Dirty Shutdown Count. -/
  | getHealthInfo (m : MboxReq) (t : Nat)
  /-- GET_ALERT_CONFIGURATION (R100): Returns the alert configuration. -/
  | getAlertConfiguration (m : MboxReq) (t : Nat)
  /-- SET_ALERT_CONFIGURATION (R100): Sets the alert configuration. -/
  | setAlertConfiguration (m : MboxReq) (t : Nat)
  /-- GET_SHUTDOWN_STATE (R100): Returns the shutdown state. -/
  | getShutdownState (m : MboxReq) (t : Nat)
  /-- SET_SHUTDOWN_STATE (R100): Sets the shutdown state. -/
  | setShutdownState (m : MboxReq) (t : Nat)
  /-- GET_POISON_LIST (R94): Returns the poisoned lines and the lost-region extents in the requesting host's window. -/
  | getPoisonList (m : MboxReq) (t : Nat)
  /-- INJECT_POISON (R100): Standard mailbox Inject Poison command. -/
  | injectPoison (m : MboxReq) (t : Nat)
  /-- CLEAR_POISON (R93): Clears the poison of a line. -/
  | clearPoison (m : MboxReq) (t : Nat)
  /-- GET_DYNAMIC_CAPACITY_CONFIGURATION (R78): Returns the host's dynamic-capacity region configuration. -/
  | getDynamicCapacityConfiguration (m : MboxReq) (t : Nat)
  /-- GET_DYNAMIC_CAPACITY_EXTENT_LIST (R78): Returns the host's accepted dynamic-capacity extents. -/
  | getDynamicCapacityExtentList (m : MboxReq) (t : Nat)
  /-- ADD_DYNAMIC_CAPACITY_RESPONSE (R78): The host accepts offered extents, which then become reachable. -/
  | addDynamicCapacityResponse (m : MboxReq) (t : Nat)
  /-- RELEASE_DYNAMIC_CAPACITY (R80): The host releases extents, allowing a shrink or binding removal to proceed. -/
  | releaseDynamicCapacity (m : MboxReq) (t : Nat)
  /-- GET_LD_INFO (R74): Fabric-manager API command Get LD Info. -/
  | getLdInfo (m : MboxReq) (t : Nat)
  /-- GET_LD_ALLOCATIONS (R74): Fabric-manager API command Get LD Allocations. -/
  | getLdAllocations (m : MboxReq) (t : Nat)
  /-- SET_LD_ALLOCATIONS (R74): Fabric-manager API command Set LD Allocations, accepted only with zero static capacity. -/
  | setLdAllocations (m : MboxReq) (t : Nat)
  /-- GET_QOS_CONTROL (R74): Fabric-manager API command Get QoS Control. -/
  | getQosControl (m : MboxReq) (t : Nat)
  /-- SET_QOS_CONTROL (R74): Fabric-manager API command Set QoS Control. -/
  | setQosControl (m : MboxReq) (t : Nat)
  /-- GET_QOS_STATUS (R74): Fabric-manager API command Get QoS Status. -/
  | getQosStatus (m : MboxReq) (t : Nat)
  /-- GET_QOS_ALLOCATED_BANDWIDTH (R74): Fabric-manager API command Get QoS Allocated Bandwidth. -/
  | getQosAllocatedBandwidth (m : MboxReq) (t : Nat)
  /-- SET_QOS_ALLOCATED_BANDWIDTH (R74): Fabric-manager API command Set QoS Allocated Bandwidth. -/
  | setQosAllocatedBandwidth (m : MboxReq) (t : Nat)
  /-- GET_QOS_BANDWIDTH_LIMIT (R74): Fabric-manager API command Get QoS Bandwidth Limit. -/
  | getQosBandwidthLimit (m : MboxReq) (t : Nat)
  /-- SET_QOS_BANDWIDTH_LIMIT (R74): Fabric-manager API command Set QoS Bandwidth Limit. -/
  | setQosBandwidthLimit (m : MboxReq) (t : Nat)
  /-- SET_ENDPOINT_ID (R48): MCTP control message Set Endpoint ID on TWI0. -/
  | setEndpointId (h : MctpHead) (eid : Nat) (t : Nat)
  /-- GET_ENDPOINT_ID (R48): MCTP control message Get Endpoint ID. -/
  | getEndpointId (h : MctpHead) (t : Nat)
  /-- GET_MCTP_VERSION_SUPPORT (R48): MCTP control message Get MCTP Version Support. -/
  | getMctpVersionSupport (h : MctpHead) (typ : Nat) (t : Nat)
  /-- GET_MESSAGE_TYPE_SUPPORT (R48): MCTP control message Get Message Type Support. -/
  | getMessageTypeSupport (h : MctpHead) (t : Nat)
  /-- MCTP_TRELLIS_MESSAGE (R48): A vendor-defined IANA MCTP message carrying one Trellis packet, admitted subject to the 8-outstanding limit. -/
  | mctpTrellisMessage (h : MctpHead) (data : List Byte) (t : Nat)
  /-- GET_VERSION (R98): SPDM GET_VERSION request over DOE. -/
  | getVersion (n : Nat) (data : List Byte) (t : Nat)
  /-- GET_CAPABILITIES (R98): SPDM GET_CAPABILITIES request. -/
  | getCapabilities (n : Nat) (data : List Byte) (t : Nat)
  /-- NEGOTIATE_ALGORITHMS (R98): SPDM NEGOTIATE_ALGORITHMS request. -/
  | negotiateAlgorithms (n : Nat) (data : List Byte) (t : Nat)
  /-- GET_DIGESTS (R98): SPDM GET_DIGESTS request. -/
  | getDigests (n : Nat) (data : List Byte) (t : Nat)
  /-- GET_CERTIFICATE (R98): SPDM GET_CERTIFICATE request returning the identity chain. -/
  | getCertificate (n : Nat) (data : List Byte) (t : Nat)
  /-- CHALLENGE (R98): SPDM CHALLENGE request. -/
  | challenge (n : Nat) (data : List Byte) (t : Nat)
  /-- GET_MEASUREMENTS (R98): SPDM GET_MEASUREMENTS request reporting the four firmware image digests. -/
  | getMeasurements (n : Nat) (data : List Byte) (t : Nat)
  /-- KEY_EXCHANGE (R98): SPDM KEY_EXCHANGE request opening a secured session. -/
  | keyExchange (n : Nat) (data : List Byte) (t : Nat)
  /-- FINISH (R98): SPDM FINISH request. -/
  | finish (n : Nat) (data : List Byte) (ok : Bool) (t : Nat)
  /-- END_SESSION (R98): SPDM END_SESSION request. -/
  | endSession (n : Nat) (data : List Byte) (t : Nat)
  /-- KEY_UPDATE (R98): SPDM KEY_UPDATE request. -/
  | keyUpdate (n : Nat) (data : List Byte) (t : Nat)
  /-- IDE_KM (R98): A CXL IDE_KM message that sets up, refreshes or switches CXL.mem IDE keys within a secured session. -/
  | ideKm (n : Nat) (data : List Byte) (t : Nat)
  /-- QP_ENABLE (R41): A write of TRL_QP_BIND with ENABLE 1 from IDLE activates a queue pair, or puts it in ERROR on bad ring sizes or bases. -/
  | qpEnable (a : RegAcc) (v : Nat) (t : Nat)
  /-- QP_DISABLE (R45): A write of ENABLE 0 moves a queue pair to DISABLING, stops fetching and refuses unadmitted commands. -/
  | qpDisable (a : RegAcc) (v : Nat) (t : Nat)
  /-- SQ_TAIL_DOORBELL (R43): The host writes a new submission tail, or puts the queue pair in ERROR with an out-of-range index. -/
  | sqTailDoorbell (a : RegAcc) (v : Nat) (t : Nat)
  /-- CQ_HEAD_DOORBELL (R44): The host returns completion ring slots by writing the new completion head. -/
  | cqHeadDoorbell (a : RegAcc) (v : Nat) (t : Nat)
  /-- QP_FETCH (R43): The Skeuf fetches a submission entry once two completion slots are free and submits it for admission. -/
  | qpFetch (entry payload : List Byte) (ok payOk : Bool) (t : Nat)
  /-- QP_REPLY_WRITE (R44): A reply is written to the completion ring, then the tail is written and the MSI-X vector signalled; DISABLING ends in IDLE when no reply is owed. -/
  | qpReplyWrite (n : Nat) (ok : Bool) (t : Nat)
  /-- LOW_WORD_READ (R8): A read of the low word of a 64-bit register captures the whole value for the access path. -/
  | lowWordRead (a : RegAcc) (t : Nat)
  /-- HIGH_WORD_WRITE (R12): A write of the high word of a writable 64-bit register commits it together with the held low word. -/
  | highWordWrite (a : RegAcc) (v : Nat) (t : Nat)
  /-- RC_REGISTER_READ (R476): A read of an RC field returns its value and then clears it. -/
  | rcRegisterRead (a : RegAcc) (t : Nat)
  /-- ADC_QUEUE_READ (R361): A read of ADC_QUEUE removes and returns the oldest converter result. -/
  | adcQueueRead (a : RegAcc) (t : Nat)
  /-- REGISTER_WRITE (R476): A write to a register that has no row of its own acts on each field by its access type. -/
  | registerWrite (a : RegAcc) (v : Nat) (t : Nat)
  /-- COLD_FRAME_BRIDGE_ACCESS (R480): A bridged cold-frame register access completes once its data frames return from the cold-frame die. -/
  | coldFrameBridgeAccess (t : Nat)
  /-- DDR_LANE_DELAY (R122): The owner writes a lane delay in host-assisted TRAIN mode. -/
  | ddrLaneDelay (a : RegAcc) (v : Nat) (t : Nat)
  /-- HOST_DELAY_APPLY (R122): At the quiescent point the written delay is tested with 1,024 bursts and then applied, or rejected. -/
  | hostDelayApply (c lane : Nat) (ok : Bool) (t : Nat)
  /-- DDR_SCRUB_HOST_RATE (R131): The owner writes the scrub rate in host-assisted SCRUB mode, clamped to the permitted range. -/
  | ddrScrubHostRate (a : RegAcc) (v : Nat) (t : Nat)
  /-- FTL_STREAM (R234): The owner maps an allotment's drips to a placement stream. -/
  | ftlStream (a : RegAcc) (v : Nat) (t : Nat)
  /-- FTL_WEAR_HOST (R234): The owner writes host-assisted wear policy values, which are clamped where needed. -/
  | ftlWearHost (a : RegAcc) (v : Nat) (t : Nat)
  /-- GAU_HOST_SOC (R316): The owner writes its state of charge, which is refused above 10,000. -/
  | gauHostSoc (a : RegAcc) (v : Nat) (t : Nat)
  /-- PSQ_HOST_STEP (R336): The owner submits an enable or disable step for domain slots during a host-assisted domain switch. -/
  | psqHostStep (a : RegAcc) (v : Nat) (t : Nat)
  /-- HEARTBEAT_RECORD_IN (R264): Board management writes EXL_HB_IN3, submitting a peer heartbeat record that is validated and evaluated under Table 8.10. -/
  | heartbeatRecordIn (a : RegAcc) (v : Nat) (t : Nat)
  /-- ADC_START (R360): A write of START begins one software-triggered run of a converter sequence. -/
  | adcStart (a : RegAcc) (v : Nat) (t : Nat)
  /-- ADC_STOP (R360): Clearing ENABLE stops the converter at its next entry boundary. -/
  | adcStop (a : RegAcc) (v : Nat) (t : Nat)
  /-- TWI_UNFENCE (R370): A write of UNFENCE runs the line check of a fenced two-wire port. -/
  | twiUnfence (a : RegAcc) (v : Nat) (ok : Bool) (t : Nat)
  /-- RDP_RAISE (R350): An NVM_RDP write raising readout protection from level 0 to level 1 performs an option write. -/
  | rdpRaise (a : RegAcc) (v : Nat) (t : Nat)
  /-- RDP_LOWER (R351): An accepted NVM_RDP lowering writes the nonce floor and erases every parameter and main sector before setting level 0. -/
  | rdpLower (a : RegAcc) (v : Nat) (t : Nat)
  /-- FUSE_ADVANCE_SECURED (R423): FWU_FUSE_CMD operation 1 burns SECURED, DEBUG_LOCK and the readout floor. -/
  | fuseAdvanceSecured (a : RegAcc) (v : Nat) (t : Nat)
  /-- FUSE_ADVANCE_RETIRED (R423): FWU_FUSE_CMD operation 2 burns RETIRED and stops root-key derivation. -/
  | fuseAdvanceRetired (a : RegAcc) (v : Nat) (t : Nat)
  /-- FUSE_SET_HA_DENY (R423): FWU_FUSE_CMD operation 3 burns HA_DENY bits. -/
  | fuseSetHaDeny (a : RegAcc) (v : Nat) (t : Nat)
  /-- FUSE_RAISE_RDP_FLOOR (R423): FWU_FUSE_CMD operation 4 raises the readout protection floor. -/
  | fuseRaiseRdpFloor (a : RegAcc) (v : Nat) (t : Nat)
  /-- FUSE_SET_DEBUG_LOCK (R423): FWU_FUSE_CMD operation 5 burns DEBUG_LOCK. -/
  | fuseSetDebugLock (a : RegAcc) (v : Nat) (t : Nat)
  /-- FUSE_RAISE_SVN (R423): FWU_FUSE_CMD operation 6 raises the fused security version. -/
  | fuseRaiseSvn (a : RegAcc) (v : Nat) (t : Nat)
  /-- FUSE_REVOKE_KEY (R423): FWU_FUSE_CMD operation 7 revokes a signing key hash. -/
  | fuseRevokeKey (a : RegAcc) (v : Nat) (t : Nat)
  /-- VAON_PRESENT (R22): VAON appears: the cold-frame die starts, loads the option area and parameter records, reads fuses, and enters SHELF or WAKING. -/
  | vaonPresent (x : ColdIn) (t : Nat)
  /-- STRAP_SAMPLE (R441): 100 µs after cold-frame reset release, both strap balls are sampled. -/
  | strapSample (test : Bool) (xbyp : Bool) (t : Nat)
  /-- VAON_ABSENT (R22): VAON disappears and the device goes to OFF. -/
  | vaonAbsent (t : Nat)
  /-- VAON_LOW (R335): VAON falls below 3.00 V: every enable goes low, collapse mode is entered and a Fatal with stop action is raised. -/
  | vaonLow (t : Nat)
  /-- VAON_RESET (R335): VAON falls below 2.60 V and the cold-frame die resets. -/
  | vaonReset (t : Nat)
  /-- BROWN_OUT (R347): VAON below 2.68 V blocks new flash pulses, ends a pulse in progress cleanly and drops queued operations. -/
  | brownOut (t : Nat)
  /-- INPUT_GOOD (R328): MON00 has stayed in its window for GLITCH_US with OFF_HOLD clear, moving SHELF, HELD or a waiting state onward. -/
  | inputGood (t : Nat)
  /-- POWER_FAIL (R163): The t_PF filter expires on MON00 under-voltage, over-voltage or PF_IN, and power fail is detected with its state action. -/
  | powerFail (under : Bool) (overV : Bool) (pin : Bool) (t : Nat)
  /-- PF_GLITCH (R164): An excursion that ends before the filter expires is counted and has no other effect. -/
  | pfGlitch (us : Nat) (t : Nat)
  /-- POWER_FAIL_NOTICE (R17): The power-fail notice wire reaches the logic die. -/
  | powerFailNotice (ns : Nat) (t : Nat)
  /-- HARVEST_DONE_NOTICE (R17): The harvest-done notice wire reaches the cold-frame die, which closes the run and takes the destination of the harvest. -/
  | harvestDoneNotice (t : Nat)
  /-- FATAL_NOTICE (R17): The Fatal notice wire carries a Fatal between the dies. -/
  | fatalNotice (n : Nat) (detail : Nat) (t : Nat)
  /-- START_CHECKS (R22): The WAKING start checks pass or fail, choosing a firmware slot or LATCHED. -/
  | startChecks (temp : Int) (ecc : List Nat) (ue : Bool) (t : Nat)
  /-- COLD_TEMP_RECHECK (R458): While the start waits on temperature, the sensor is read again every second. -/
  | coldTempRecheck (temp : Int) (ecc : List Nat) (ue : Bool) (t : Nat)
  /-- SLOT_ENABLE (R322): DELAY_US after a slot's prerequisites come good, its enable rises and it starts ramping. -/
  | slotEnable (n : Nat) (t : Nat)
  /-- SLOT_GOOD (R322): A ramping slot's MON input stays in window for GLITCH_US; it becomes good, possibly forming a rail checkpoint or ending RAILS_UP. -/
  | slotGood (n : Nat) (t : Nat)
  /-- RAIL_RAMP (R322): A slot still ramping at its ramp timeout raises a Fatal with stop action. -/
  | railRamp (n : Nat) (t : Nat)
  /-- SLOT_DISABLE (R323): In power-down, a slot is disabled DELAY_US after the previous slot is off. -/
  | slotDisable (n : Nat) (t : Nat)
  /-- SLOT_OFF (R323): A disabled slot falls below UV ÷ 4, and the stage moves on or SHELF or OFF is entered. -/
  | slotOff (n : Nat) (t : Nat)
  /-- RAIL_SLOW_OFF (R323): A slot not off within its ramp timeout is counted as off. -/
  | railSlowOff (n : Nat) (t : Nat)
  /-- RAIL_FAULT (R326): A running rail stays outside its window for its filter, which drops every rail and latches, or acts under Table 11.5. -/
  | railFault (n : Nat) (overV : Bool) (code : Nat) (t : Nat)
  /-- RAIL_SCAN_PASS (R362): A converter scan pass over all MON inputs completes and judges the scan-mode slots. -/
  | railScanPass (codes : List Nat) (t : Nat)
  /-- HELD_RAIL_EXCURSION (R191): A HOLD slot's MON input leaves its window in HELD and sets RAIL_EXCURSION. -/
  | heldRailExcursion (n : Nat) (t : Nat)
  /-- DRST_SEEN (R440): A populated DDRn_DRST_N ball is read low for 1 µs and DRST_SEEN is set. -/
  | drstSeen (c : Nat) (t : Nat)
  /-- PWRBTN_PRESS (R329): PWRBTN_N has been low for 50 ms; in SHELF this is an on request. -/
  | pwrbtnPress (t : Nat)
  /-- SHORT_PRESS (R329): PWRBTN_N is released before 8 s, which is an off request outside SHELF. -/
  | shortPress (t : Nat)
  /-- LONG_PRESS (R329): PWRBTN_N is still low at 8 s: a harvest to RAILS_DOWN, an off request, or a destination change. -/
  | longPress (t : Nat)
  /-- MR_N_ASSERT (R193): MR_N low for 1 ms is a manual reset, starting a harvest into HELD. -/
  | mrNAssert (t : Nat)
  /-- MR_N_RELEASE (R193): MR_N high for 1 ms lets a HELD entered after MR_N leave for WAKING once the input is good. -/
  | mrNRelease (t : Nat)
  /-- POWER_CYCLE (R24): MON00 stays outside its window for 1 s, leaving LATCHED, clearing OFF_HOLD and advancing the power-cycle count. -/
  | powerCycle (t : Nat)
  /-- HOLD_TIME_REACHED (R25): HOLD_MAX_S elapses in a HELD that waits, and the device goes to RAILS_DOWN. -/
  | holdTimeReached (t : Nat)
  /-- ORDERLY_OFF_SEAL (R330): Exposure reaches zero in an orderly off, so the seal of KIND 1 or 2 is written and OFF_HOLD is set. -/
  | orderlyOffSeal (t : Nat)
  /-- ORDERLY_OFF_POWER_DOWN (R330): 10 ms after the orderly-off seal the device enters RAILS_DOWN. -/
  | orderlyOffPowerDown (t : Nat)
  /-- OFF_ABANDONED (R330): OFF_DRAIN_MAX_S passes without exposure reaching zero, and the orderly off is abandoned. -/
  | offAbandoned (t : Nat)
  /-- THERMAL_HIGH (R472): The hottest logic-die sensor stays at 105 °C or above for 1 s. -/
  | thermalHigh (temp : Int) (t : Nat)
  /-- THERMAL_TRIP (R472): The hottest logic-die sensor stays at 115 °C or above for 1 ms, which acts as a long press. -/
  | thermalTrip (temp : Int) (t : Nat)
  /-- XTAL_FAIL (R19): No crystal edge for 4 ms moves the always-on timebase to the fast oscillator. -/
  | xtalFail (t : Nat)
  /-- TRAINING_STEP_COMPLETE (R184): A step of Table 6.8 ends, running the SPD, population, record, map and warm checks, and at the last one choosing the service state. -/
  | trainingStepComplete (x : TrainIn) (t : Nat)
  /-- CXL_LINK_UP (R79): A CXL port link comes up and each binding's extents are offered again at the same DPA. -/
  | cxlLinkUp (n width speed : Nat) (flit : Bool) (t : Nat)
  /-- CXL_LINK_DOWN (R91): A CXL link goes down, and writes in flight are applied if positioned but never completed. -/
  | cxlLinkDown (n : Nat) (t : Nat)
  /-- PERST_N (R439): CXLn_PERST_N low holds the port's link down and in training. -/
  | perstN (n : Nat) (low : Bool) (t : Nat)
  /-- CXL_MEM_READ (R18): A host read is translated, binding-checked and served from DRAM, the ledger or a priority fetch, or returns poison. -/
  | cxlMemRead (r : MemReq) (x : LineIn) (t : Nat)
  /-- CXL_MEM_WRITE (R18): A host write is translated, gated, given a ledger position, applied and mirrored, and completed when its conditions are met. -/
  | cxlMemWrite (r : MemReq) (x : LineIn) (t : Nat)
  /-- HELD_WRITE_DISCARD (R96): A write held at the exposure gate for HOLD_MAX_US is discarded with the writes behind it. -/
  | heldWriteDiscard (n : Nat) (t : Nat)
  /-- GPF_PHASE1 (R92): Global persistent flush phase 1 is answered at once. -/
  | gpfPhase1 (n : Nat) (t : Nat)
  /-- GPF_PHASE2 (R92): Global persistent flush phase 2 waits until every earlier write is completed or discarded. -/
  | gpfPhase2 (n : Nat) (t : Nat)
  /-- GPF_DEADLINE (R92): At the phase-2 deadline, writes still uncompleted are discarded and the flush answers. -/
  | gpfDeadline (n : Nat) (t : Nat)
  /-- IDE_INTEGRITY_FAILURE (R99): An IDE integrity failure discards the flit's requests and puts the port's stream in the insecure state. -/
  | ideIntegrityFailure (n : Nat) (reqs : List (Nat × Bool)) (t : Nat)
  /-- PRIORITY_FETCH_DONE (R186): A priority fetch completes, so the waiting accesses are served and a waiting fetch takes the free place. -/
  | priorityFetchDone (g : Nat) (r : FlashRead) (t : Nat)
  /-- REPLANT_STRIPE_DONE (R187): A replant or verification cutting completes, restoring or verifying its granules. -/
  | replantStripeDone (k : Nat) (bad : List (Nat × FlashRead)) (mism : List Nat) (t : Nat)
  /-- WARM_VERIFY_END (R192): The warm verification pass ends, the region partials are recomputed and the restore is complete. -/
  | warmVerifyEnd (chans : List Nat) (t : Nat)
  /-- HARVEST_STRIPE_DONE (R173): A harvest stripe's programs all end, advancing the sealed boundary or requeuing granules. -/
  | harvestStripeDone (n : Nat) (failed : List Nat) (ues : List Nat) (t : Nat)
  /-- SEAL_WRITTEN (R169): Both seal copies are written at the harvest-complete checkpoint and the notices are sent. -/
  | sealWritten (bad : List Nat) (t : Nat)
  /-- SELF_REFRESH_ENTRY (R123): A channel drains, precharges, enters self-refresh, saves delays and stops its clocks. -/
  | selfRefreshEntry (c : Nat) (t : Nat)
  /-- SELF_REFRESH_EXIT (R123): A channel restarts its clocks, leaves self-refresh, calibrates and takes requests. -/
  | selfRefreshExit (c : Nat) (t : Nat)
  /-- REFRESH_DUE (R116): A rank's refresh interval elapses and a refresh is issued or postponed. -/
  | refreshDue (c rank : Nat) (hot : Bool) (probe : List LaneProbe) (t : Nat)
  /-- REQUEST_URGENT (R113): A DRAM request that has waited 400 ns becomes urgent. -/
  | requestUrgent (c n : Nat) (t : Nat)
  /-- RETRAIN_DUE (R120): 15 min have passed since a channel's last retraining pass, which then starts. -/
  | retrainDue (c : Nat) (t : Nat)
  /-- DIMM_TEMP_POLL (R120): Each second the DIMM sensors are read, and a 10 °C change starts a retraining pass. -/
  | dimmTempPoll (c : Nat) (temps : List Nat) (t : Nat)
  /-- SCRUB_CHUNK (R129): A patrol scrub chunk reads one granule and writes corrected lines back. -/
  | scrubChunk (c : Nat) (ces : List (Nat × Nat)) (ues : List Nat) (t : Nat)
  /-- TALLY_REBUILD_DONE (R134): A granule CRC rebuild after an uncorrectable old line ends, and the waiting writes proceed. -/
  | tallyRebuildDone (c : Nat) (ues : List Nat) (t : Nat)
  /-- GAUGE_UPDATE_FRAME (R143): The logic die receives the gauge inputs and recomputes the exposure limit. -/
  | gaugeUpdateFrame (t : Nat)
  /-- STAGE_EVAL (R145): Every 100 ms the control stage is evaluated and entered or left. -/
  | stageEval (t : Nat)
  /-- DRIP_ROUND (R152): A 1 ms drip round issues drip cuttings for ripe granules within its allowance. -/
  | dripRound (free : Nat) (t : Nat)
  /-- DRIP_COMMIT (R219): A drip commits its map entry, moving the granule to CLEAN or DIRTY and freeing room for admission. -/
  | dripCommit (g : Nat) (t : Nat)
  /-- MOVE_COMMIT (R227): A move replaces the map entry if it is unchanged, and is otherwise discarded or reissued. -/
  | moveCommit (g : Nat) (t : Nat)
  /-- RECENCY_SWEEP (R149): Every 100 s, recency entries older than 400 s are set to old. -/
  | recencySweep (t : Nat)
  /-- HINT_EXPIRY (R154): A ripeness hint's lifetime ends. -/
  | hintExpiry (t : Nat)
  /-- WEAR_BUCKET_GAIN (R155): Each second the wear bucket gains R_wear up to its capacity. -/
  | wearBucketGain (t : Nat)
  /-- ENDURANCE_FORECAST (R157): The wear forecast loop tests and raises or clears ENDURANCE_AHEAD. -/
  | enduranceForecast (t : Nat)
  /-- JOURNAL_PAGE_TIMEOUT (R218): 200 µs after its first record, a journal page is programmed. -/
  | journalPageTimeout (bad : Bool) (t : Nat)
  /-- WORDLINE_FILL_TIMEOUT (R214): A wordline whose granules have waited 10 ms is completed with filler pages. -/
  | wordlineFillTimeout (n : Nat) (t : Nat)
  /-- CHECKPOINT_WRITE (R220): The checkpoint writer rewrites a changed map segment and frees old journal. -/
  | checkpointWrite (seg : Nat) (bad : Bool) (t : Nat)
  /-- FLASH_PROGRAM_DONE (R214): A flash program ends in success, failure or a NOT_ERASED refusal. -/
  | flashProgramDone (ws : List (Nat × Nat)) (ok : Bool) (t : Nat)
  /-- FLASH_ERASE_DONE (R211): A block erase ends, setting its erase-state bits, or fails and retires the block. -/
  | flashEraseDone (k : Nat) (only : Option Nat) (failed : List Nat) (t : Nat)
  /-- FLASH_READ_DONE (R208): A flash read completes after retries and checks, and resumes any suspended operation. -/
  | flashReadDone (a : Nat) (r : FlashRead) (t : Nat)
  /-- FLASH_DQ_RETRAIN (R201): A target whose temperature has moved 10 °C is retrained. -/
  | flashDqRetrain (tgt : Nat) (temp : Int) (t : Nat)
  /-- TARGET_STATUS_POLL (R233): A 10 ms status poll of a target; three consecutive failures fail it. -/
  | targetStatusPoll (tgt : Nat) (ok : Bool) (t : Nat)
  /-- GC_VICTIM_CHOICE (R228): The garbage-collection and wear-levelling loop chooses victims. -/
  | gcVictimChoice (t : Nat)
  /-- PATROL_SCHEDULE (R229): The patrol read and retention loop schedules reads and refreshes. -/
  | patrolSchedule (a : Nat) (r : FlashRead) (t : Nat)
  /-- HARVEST_ROTATION (R229): Every 30 days the harvest superblocks are swapped with lower-count TLC superblocks. -/
  | harvestRotation (t : Nat)
  /-- HARVEST_REGION_SIZING (R223): The harvest region is resized toward its target size. -/
  | harvestRegionSizing (t : Nat)
  /-- D2D_ACK (R15): A die-to-die ACK frame acknowledges frames. -/
  | d2dAck (cold : Bool) (t : Nat)
  /-- D2D_NAK (R15): A die-to-die NAK frame triggers a resend from the first unacknowledged frame. -/
  | d2dNak (cold : Bool) (t : Nat)
  /-- REGISTER_REQUEST (R480): A register-request frame pair carries a cold-frame access. -/
  | registerRequest (t : Nat)
  /-- REGISTER_DATA (R480): A register-data frame pair carries write or read data. -/
  | registerData (cold : Bool) (t : Nat)
  /-- EVENT_FRAME (R373): An event frame carries a fault change or the sealed boundary. -/
  | eventFrame (t : Nat)
  /-- SUMMARY_UPDATE (R138): A summary-update frame sets or clears a region in the cold-frame dirty summary copy. -/
  | summaryUpdate (t : Nat)
  /-- D2D_FRAME_ERROR (R15): A frame with a CRC mismatch or an out-of-order SEQ is discarded and NAKed. -/
  | d2dFrameError (cold : Bool) (w : Word) (t : Nat)
  /-- D2D_RESEND_TIMEOUT (R15): 2 µs without an acknowledgement triggers a resend. -/
  | d2dResendTimeout (cold : Bool) (t : Nat)
  /-- D2D_RETRAIN (R16): 8 consecutive failures of a frame start a link retrain. -/
  | d2dRetrain (t : Nat)
  /-- D2D_RETRAIN_DONE (R16): The retrain ends and the held frames are resent in order. -/
  | d2dRetrainDone (t : Nat)
  /-- FAULT_REPORT (R373): A source pair shows the fault levels for 100 ns; the collector captures, classifies, reacts and records. -/
  | faultReport (n : Nat) (detail : Nat) (missed : Nat) (holds : Bool) (t : Nat)
  /-- BROKEN_PATH (R374): A pair shows equal levels for 1 µs, and its source is polled from then on. -/
  | brokenPath (p : PairRef) (t : Nat)
  /-- POLLED_SOURCE_CHECK (R374): Each 1 ms the status of a polled checker is read. -/
  | polledSourceCheck (n : Nat) (detail : Nat) (fault : Bool) (t : Nat)
  /-- LOG_RATE_PERIOD (R385): A code's rate period ends and its bin is written as a summary record. -/
  | logRatePeriod (code : Nat) (t : Nat)
  /-- NVM_PROGRAM_DONE (R340): An embedded-flash program of a unit or row completes, or is refused with NOT_ERASED. -/
  | nvmProgramDone (bank : Nat) (ok : Bool) (t : Nat)
  /-- NVM_ERASE_DONE (R340): An embedded-flash sector erase completes. -/
  | nvmEraseDone (bank : Nat) (t : Nat)
  /-- NVM_ERASE_RESUME (R345): A suspended erase resumes when the higher agent ends. -/
  | nvmEraseResume (bank : Nat) (t : Nat)
  /-- NONCE_BLOCK_RESERVE (R414): A new nonce block is reserved in pair 2, at most once per 60 s, raising the floor when due. -/
  | nonceBlockReserve (t : Nat)
  /-- MP_LOCKSTEP (R284): A lockstep mismatch resets a management processor pair. -/
  | mpLockstep (b : Bool) (t : Nat)
  /-- MP_PAIR_BOOTED (R284): A pair finishes reloading its image and runs again, and admission and function ownership resume. -/
  | mpPairBooted (k : Nat) (t : Nat)
  /-- LOAD_WINDOW_END (R286): A 10 ms load window ends and the load level may rise, changing LIMIT and AUTO functions. -/
  | loadWindowEnd (busyA : Nat) (busyB : Nat) (t : Nat)
  /-- LOAD_LEVEL_FALL (R286): The load stays below the fall threshold for 1 s and the level falls one step. -/
  | loadLevelFall (t : Nat)
  /-- AUTO_RETURN (R288): Level 0 has held AUTO_RETURN_S, so fallen AUTO functions return to host-assisted mode. -/
  | autoReturn (t : Nat)
  /-- QUIESCENT_POINT_SWITCH (R67): A pending mode switch takes effect at the function's quiescent point. -/
  | quiescentPointSwitch (f : Nat) (t : Nat)
  /-- FUNC_SWITCH_TIMEOUT (R67): A switch not reaching its quiescent point within 5 s ends with TIMEOUT. -/
  | funcSwitchTimeout (f : Nat) (t : Nat)
  /-- HA_WATCHDOG (R290): A host-assisted watchdog expires and the function enters hardware mode at once. -/
  | haWatchdog (f : Nat) (t : Nat)
  /-- BED_CLOCK_STOP (R20): An idle bed with nothing to steal stops its clock after 10 µs. -/
  | bedClockStop (b : Nat) (t : Nat)
  /-- BED_WAKE (R274): An URGENT entry waiting 1 µs wakes the lowest gated bed. -/
  | bedWake (t : Nat)
  /-- CUTTING_DONE (R276): A tine ends a cutting and takes or steals its next one. -/
  | cuttingDone (n : Nat) (ues : List Nat) (t : Nat)
  /-- TINE_FENCED (R278): A tine parity or ECC failure, or an overrun, abandons the cutting and fences the tine. -/
  | tineFenced (n : Nat) (t : Nat)
  /-- SUBLINK_SIGNAL_DETECT (R241): Signal on all 8 lanes moves a sublink from DETECT to EQ. -/
  | sublinkSignalDetect (k : Nat) (t : Nat)
  /-- SUBLINK_EQ_DONE (R241): Equalisation completes and the sublink enters ALIGN. -/
  | sublinkEqDone (k : Nat) (t : Nat)
  /-- SUBLINK_ALIGN_LOCK (R241): Alignment markers lock on every lane and the sublink enters SYNC. -/
  | sublinkAlignLock (k : Nat) (lanes : List (Nat × Nat × Bool)) (t : Nat)
  /-- SUBLINK_SYNC_DONE (R241): 1,024 good IDLE flits are received and the sublink enters AUTH. -/
  | sublinkSyncDone (k : Nat) (t : Nat)
  /-- SUBLINK_AUTH_DONE (R247): A session opens or is joined, STATE is exchanged, and the sublink enters UP. -/
  | sublinkAuthDone (k peerEpoch : Nat) (t : Nat)
  /-- SUBLINK_STATE_TIMEOUT (R241): A bounded training state passes its bound and the sublink returns to DOWN. -/
  | sublinkStateTimeout (k : Nat) (t : Nat)
  /-- SUBLINK_RETRAIN_START (R241): 100 ms after returning to DOWN, training starts again. -/
  | sublinkRetrainStart (k : Nat) (t : Nat)
  /-- SUBLINK_HOLD_END (R241): A sublink held down for 10 s returns to DOWN. -/
  | sublinkHoldEnd (k : Nat) (t : Nat)
  /-- SUBLINK_LOST (R242): 4 µs without a good flit, or 8 replays without progress, loses a sublink and triggers REHOME. -/
  | sublinkLost (n : Nat) (t : Nat)
  /-- FLIT_CRC_FAILURE (R245): A flit with a bad CRC or a SEQ gap is discarded and a LINK NAK is sent. -/
  | flitCrcFailure (k : Nat) (t : Nat)
  /-- LINK_ACK (R245): A LINK ACK frees acknowledged flits from the replay buffer. -/
  | linkAck (k seq : Nat) (t : Nat)
  /-- LINK_NAK (R245): A LINK NAK makes the sender resend from the named SEQ. -/
  | linkNak (k seq : Nat) (t : Nat)
  /-- REPLAY_TIMEOUT (R245): 5 µs with flits unacknowledged makes the sender resend from the oldest. -/
  | replayTimeout (k : Nat) (t : Nat)
  /-- MAC_FLIT (R246): A MAC flit closes an integrity group whose tag is verified before its records are released. -/
  | macFlit (f : FlitIn) (ok : Bool) (t : Nat)
  /-- RECORD (R252): A mirrored write record is accepted into the receiver's ledger and applied in order. -/
  | record (f : FlitIn) (r : RecIn) (t : Nat)
  /-- ACCEPT (R252): ACCEPT confirms records accepted and releases the sender's completions. -/
  | accept (f : FlitIn) (sub through : Nat) (t : Nat)
  /-- CREDIT (R252): CREDIT grants further records on a sublink. -/
  | credit (f : FlitIn) (sub n : Nat) (t : Nat)
  /-- ROOM (R254): ROOM reports the peer's room, stage and admission for twin admission. -/
  | room (f : FlitIn) (room : Int) (stage adm : Nat) (through : List Nat) (t : Nat)
  /-- CLEAN (R254): CLEAN clears TWIN_DIRTY bits of granules the peer made CLEAN. -/
  | clean (f : FlitIn) (gs : List Nat) (t : Nat)
  /-- EPOCH (R258): EPOCH from the leader lets the follower slew its pair epoch. -/
  | epoch (f : FlitIn) (e ns : Nat) (t : Nat)
  /-- CUT_MARK (R260): CUT_MARK(E) closes S(E) on a sublink, and capture follows once every sublink has marked. -/
  | cutMark (f : FlitIn) (e : Nat) (t : Nat)
  /-- TALLY (R261): The peer's tally for a region is compared with this unit's. -/
  | tally (f : FlitIn) (e region tally : Nat) (t : Nat)
  /-- CRC_BLOCK (R270): The target's granule CRC entries reach the source, which sends resync writes for differing granules. -/
  | crcBlock (f : FlitIn) (first : Nat) (crcs : List Nat) (t : Nat)
  /-- HARVEST (R255): The peer's harvest notice makes this unit finish its records, degrade and possibly take over. -/
  | harvest (f : FlitIn) (cause sub through : Nat) (t : Nat)
  /-- HARVEST_DONE (R167): The peer's harvest-complete notice carries its SEAL_SEQ. -/
  | harvestDone (f : FlitIn) (seq : Nat) (t : Nat)
  /-- REHOME (R242): REHOME makes the sender move a lost sublink's slices and resend its records. -/
  | rehome (f : FlitIn) (sub through : Nat) (t : Nat)
  /-- REKEY (R248): REKEY makes both units derive new keys for a new session ID. -/
  | rekey (f : FlitIn) (id : Nat) (t : Nat)
  /-- KEY_SWITCH (R248): KEY_SWITCH makes later groups use the new key. -/
  | keySwitch (f : FlitIn) (id : Nat) (t : Nat)
  /-- TABLE (R256): TABLE carries an allotment entry or extent list for a twin commit. -/
  | table (f : FlitIn) (m : TableMsg) (t : Nat)
  /-- COMMIT (R256): COMMIT carries the prepare, prepared, commit or abort phase of a twin table or activation commit. -/
  | commit (f : FlitIn) (id phase epoch status : Nat) (t : Nat)
  /-- HELLO (R247): HELLO carries the peer's identity and session proposal at AUTH. -/
  | hello (f : FlitIn) (m : HelloMsg) (t : Nat)
  /-- PROOF (R247): PROOF authenticates both HELLO messages. -/
  | proof (f : FlitIn) (mac : List Byte) (t : Nat)
  /-- SPDM (R249): An SPDM fragment travels between twins for pairing. -/
  | spdm (f : FlitIn) (flags : Nat) (data : List Byte) (t : Nat)
  /-- FLUSH (R257): FLUSH makes the peer flush a range under FLUSH_RANGE. -/
  | flush (f : FlitIn) (tag first count : Nat) (t : Nat)
  /-- FLUSHED (R257): FLUSHED returns the peer's flush status. -/
  | flushed (f : FlitIn) (tag status : Nat) (t : Nat)
  /-- STATE (R269): STATE carries allotment MGEN and flags, and chooses resync sources and pending commit outcomes. -/
  | state (f : FlitIn) (l : List (Nat × Nat × Nat)) (t : Nat)
  /-- COMPARE (R260): COMPARE announces a tally comparison's epoch and regions. -/
  | compare (f : FlitIn) (e first count : Nat) (t : Nat)
  /-- ROOM_PERIOD (R254): Every 100 µs the receiver sends ROOM on every sublink. -/
  | roomPeriod (t : Nat)
  /-- PAIR_EPOCH_TICK (R258): A 1 kHz pair epoch tick sends EPOCH, cut marks, and applies table commits, hand-overs and activations at their tick. -/
  | pairEpochTick (t : Nat)
  /-- COMPARE_CAPTURE_TIMEOUT (R260): A capture not made within 50 µs of tick E is abandoned as NOT_COMPARABLE. -/
  | compareCaptureTimeout (e : Nat) (t : Nat)
  /-- COMPARE_SCHEDULE (R261): The leader's hardware schedule announces the next comparison. -/
  | compareSchedule (t : Nat)
  /-- RESYNC_PACING (R271): The resync pacing loop sets the resync rate. -/
  | resyncPacing (busy : Bool) (t : Nat)
  /-- REKEY_DUE (R248): 24 h or 2^40 flits under a key makes the requester start a rekey. -/
  | rekeyDue (t : Nat)
  /-- REKEY_TIMEOUT (R248): A rekey not complete in 100 ms is abandoned and retried. -/
  | rekeyTimeout (t : Nat)
  /-- EXL_KEY_EXHAUSTED (R248): 2^48 flits under one key stops the link hard. -/
  | exlKeyExhausted (k : Nat) (t : Nat)
  /-- HEARTBEAT_PUBLISH (R264): Every HB_PERIOD_MS a new heartbeat record is published. -/
  | heartbeatPublish (t : Nat)
  /-- CLAIM_TIMEOUT (R265): CLAIM_MS passes with the claim unacknowledged after a peer record, so the unit fences. -/
  | claimTimeout (t : Nat)
  /-- TAKEOVER_TIMEOUT (R265): TAKEOVER_MS passes with no peer record, so the unit takes over the peer's READY allotments. -/
  | takeoverTimeout (t : Nat)
  /-- PAIR_TIMEOUT (R236): TIMEOUT_MS passes before the peer's PAIR, ending the command with TIMEOUT. -/
  | pairTimeout (t : Nat)
  /-- FLUSH_RANGE_TIMEOUT (R160): TIMEOUT_MS of a FLUSH_RANGE expires first. -/
  | flushRangeTimeout (id : Nat) (t : Nat)
  /-- RELEASE_WAIT_EXPIRY (R103): RELEASE_WAIT_MS expires before hosts release extents. -/
  | releaseWaitExpiry (id : Nat) (t : Nat)
  /-- FW_CONFIRM_TIMEOUT (R409): CONFIRM_S passes without FW_CONFIRM, so the confirmed slot is activated again. -/
  | fwConfirmTimeout (t : Nat)
  /-- GAUGE_BURST (R297): The burst timer starts a three-channel conversion burst. -/
  | gaugeBurst (xtal : Bool) (t : Nat)
  /-- CURRENT_COMPARATOR_TRIP (R297): The ±50 mA comparator trips, starting a burst and the 32 Hz rate. -/
  | currentComparatorTrip (t : Nat)
  /-- GAUGE_BURST_DONE (R296): A burst completes: the counter advances, and end of discharge, resistance and sensors are judged. -/
  | gaugeBurstDone (vsns : Nat) (isns : Int) (ts : Nat) (t : Nat)
  /-- GAUGE_UPDATE (R302): Every second the reported state of charge and energies are recomputed and sent to the logic die. -/
  | gaugeUpdate (t : Nat)
  /-- REST_POINT (R304): 30 min of rest gives a rest point, re-anchoring SoC_c and ending a learning cycle. -/
  | restPoint (t : Nat)
  /-- PACK_ID_READ (R293): Every 60 s, and on start or pack return, the pack ID record is read. -/
  | packIdRead (data : List Byte) (ok : Bool) (t : Nat)
  /-- PROTECTOR_READ (R294): Every second, BatteryStatus is read from the pack protector. -/
  | protectorRead (word : Nat) (ok : Bool) (t : Nat)
  /-- REHEARSAL_DUE (R432): A periodic rehearsal is due and starts once its preconditions hold. -/
  | rehearsalDue (t : Nat)
  /-- REHEARSAL_PHASE_END (R312): A rehearsal phase ends and the next begins, or the results are applied. -/
  | rehearsalPhaseEnd (moved : Nat) (t : Nat)
  /-- REHEARSAL_TIME_LIMIT (R314): 2,000 ms is reached before phase 5 and the rehearsal is aborted. -/
  | rehearsalTimeLimit (t : Nat)
  /-- SLAVE_STATUS_POLL (R334): Every 10 ms SEQ_STATUS is read from each slave with a running slot. -/
  | slaveStatusPoll (slave : Nat) (word : Nat) (ok : Bool) (t : Nat)
  /-- PMBUS_POLL (R372): Every second the listed PMBus regulators are read. -/
  | pmbusPoll (e : Nat) (words : List Nat) (ok : Bool) (t : Nat)
  /-- TWI_TRANSACTION_DONE (R368): A two-wire transaction ends in success, retry or failure. -/
  | twiTransactionDone (n : Nat) (r : TwiEnd) (data : List Byte) (t : Nat)
  /-- TWI_RETRY (R368): The 1 ms retry spacing of a failed transaction elapses. -/
  | twiRetry (n : Nat) (t : Nat)
  /-- ARBITRATION_LOST (R369): A controller samples SDA low while driving it high, stops and retries later. -/
  | arbitrationLost (n : Nat) (t : Nat)
  /-- CLOCK_LOW_TIMEOUT (R367): SCL held low for TIMEOUT_MS ends the transaction and resets the port. -/
  | clockLowTimeout (n : Nat) (still : Bool) (t : Nat)
  /-- BUS_CLEAR (R370): SDA stuck low with SCL high for 50 µs starts a bus clear and a stop. -/
  | busClear (n : Nat) (ok : Bool) (t : Nat)
  /-- ADC_TIMER_TRIGGER (R360): Each PERIOD ticks a timer run begins, or is skipped as OVERRUN. -/
  | adcTimerTrigger (k : Nat) (t : Nat)
  /-- ADC_CONVERSION_DONE (R359): A sequence entry's conversion ends and its result enters the queue. -/
  | adcConversionDone (k : Nat) (uv : Int) (t : Nat)
  /-- LOGIC_BIST (R427): A tine completes its at-speed scan test. -/
  | logicBist (n : Nat) (pass : Bool) (t : Nat)
  /-- FLASH_ENGINE_LOOPBACK (R427): A loopback codeword through a flash engine completes and is compared. -/
  | flashEngineLoopback (n : Nat) (pass : Bool) (t : Nat)
  /-- CONVERTER_REFERENCE (R427): A converter's reference check completes. -/
  | converterReference (k low high : Nat) (t : Nat)
  /-- COMPARATOR_TRIP (R427): A slot's comparator trip test completes. -/
  | comparatorTrip (n : Nat) (pass : Bool) (t : Nat)
  /-- FAULT_PATH_INJECTION (R427): A shadow injection and path test of one source complete. -/
  | faultPathInjection (n : Nat) (ran det path : Bool) (t : Nat)
  /-- CIPHER_KNOWN_ANSWER (R427): The cipher and KDF known-answer tests complete. -/
  | cipherKnownAnswer (n : Nat) (pass : Bool) (t : Nat)
  /-- IST_COVERAGE (R427): An item's scope is not covered within its period. -/
  | istCoverage (n : Nat) (t : Nat)
  /-- WEEDING_PAUSE_END (R434): A weeding pause expires and the pass resumes. -/
  | weedingPauseEnd (t : Nat)
  /-- TELEMETRY_SAMPLE (R433): Each second a telemetry sample is captured into the raw ring. -/
  | telemetrySample (t : Nat)
  /-- TELEMETRY_SUMMARY (R433): Pair B builds per-minute summaries from the raw samples. -/
  | telemetrySummary (t : Nat)
  /-- RESYNC_PAUSE_END (R271): A resync paused by RESYNC action 2 resumes when its pause of at most 30 min runs out. -/
  | resyncPauseEnd (t : Nat)
  /-- CONFIG_RECORD_SAVE (R479): The cold-frame die saves pending RWS values 4 h after the previous save, and pending kept RW fields within 1 s of their write, into the configuration record. -/
  | configRecordSave (t : Nat)
  /-- FAILED_BOOT (R407): A management processor pair not running within 400 ms of an activation is a failed boot and falls back under R409. -/
  | failedBoot (t : Nat)
  /-- BED_RELOAD_DONE (R281): A bed's new tine image, or a flash engine's image, finishes loading and the bed or channel rejoins service, letting the next reload start. -/
  | bedReloadDone (k : Nat) (t : Nat)
  /-- VAON_RECOVERY (R335): VAON rises again before the cold-frame reset, ending collapse mode (and brown-out blocking) while the device stays in LATCHED. -/
  | vaonRecovery (t : Nat)
  /-- DOMAIN_SWITCH_TIMEOUT (R337): POWER_STATE_REQ TIMEOUT_MS expires before a domain switch ends, and the command ends with TIMEOUT while the switch runs on. -/
  | domainSwitchTimeout (t : Nat)
  /-- INJECTION_TIMEOUT (R394): A pending FAULT_INJECT whose checker has not checked CHECKS times within 1 s is withdrawn and the command ends with TIMEOUT. -/
  | injectionTimeout (n : Nat) (t : Nat)
  deriving DecidableEq, Repr

end Sys2Proof
end

