-- ==== Sys2Proof/WellFormed.lean ====
section
/-! DEFINITION. Which commands are well formed: every operand within the width the manual gives its field, every index within
the larger part (ORR-7716). A meaning answers on every command; a term outside these bounds is one no sender can spell. -/

namespace Sys2Proof

/-- The headers of an MCTP message: 7-bit addresses, an 8-bit endpoint ID, a 3-bit tag (R48). -/
def MctpHead.wf (h : MctpHead) : Bool :=
  decide (h.addr < 128) && decide (h.back < 128) && decide (h.src < 256) && decide (h.tag < 8)

/-- A Trellis packet whose fields have their widths (Table 2.1). -/
def TrellisCmd.wf (c : TrellisCmd) : Bool :=
  decide (c.op < 2 ^ 16) && decide (c.flags < 256) && decide (c.version < 256) && decide (c.tag < 2 ^ 32)
    && decide (c.allot < 2 ^ 16) && decide (c.issuer < 2 ^ 16) && decide (c.est < 2 ^ 16) && decide (c.payLen < 2 ^ 32)
    && decide (c.payAddr < 2 ^ 64) && decide (c.params.length ≤ 40) && c.head.wf

/-- A mailbox request on a port that can exist, from a 16-bit issuer (Table 2.2). -/
def MboxReq.wf (m : MboxReq) : Bool := decide (m.port < 4) && decide (m.issuer < 2 ^ 16)

/-- A register access inside the 28-bit register space (R6, R474). -/
def RegAcc.wf (a : RegAcc) : Bool := decide (a.issuer < 2 ^ 16) && decide (a.off < 2 ^ 28) && decide (a.size ≤ 8)

/-- A CXL.mem request: port, issuer, line address and a line of data (R69). -/
def MemReq.wf (r : MemReq) : Bool :=
  decide (r.port < 4) && decide (r.issuer < 2 ^ 16) && r.dpa % 64 == 0 && decide (r.data.length ≤ 64)

/-- A sequenced flit of a sublink that can exist, with a 12-bit SEQ and at most 250 bytes of body (R243, R244). -/
def FlitIn.wf (f : FlitIn) : Bool := decide (f.sub < 4) && decide (f.seq < 4096) && decide (f.body.length ≤ 250)

/-- A mirrored record of at most a line (R251). -/
def RecIn.wf (r : RecIn) : Bool := decide (r.data.length ≤ 64)

/-- The end of a flash read: read-retry levels and effort classes that exist, codewords of a granule (R208). -/
def FlashRead.wf (r : FlashRead) : Bool := decide (r.effort < 3) && r.fails.all (fun k => decide (k.1 < 16 && k.2 < 4))

/-- The end of a line access (R95). -/
def LineIn.wf (x : LineIn) : Bool := decide (x.ingress ≤ 100) && decide (x.share ≤ 100)

/-- A HELLO message (R247). -/
def HelloMsg.wf (m : HelloMsg) : Bool := decide (m.serial < 2 ^ 64) && decide (m.group < 2 ^ 16) && decide (m.nonce.length ≤ 16)

/-- A TABLE message (R256). -/
def TableMsg.wf (m : TableMsg) : Bool := decide (m.allot < 2 ^ 16) && decide (m.part < 2)

/-- The end of a training step (Table 6.8): channels that can exist. -/
def TrainIn.wf : TrainIn → Bool
  | .images l => l.all (fun n => decide (n < 128))
  | .spd l _ => l.all (fun c => decide (c.chan < 16))
  | .flash l => l.all (fun c => decide (c.chan < 32))
  | .records _ _ _ _ _ => true
  | .dram l => l.all (fun x => decide (x.chan < 16 ∧ x.lane < 128))
  | .maps => true

/-- A well-formed command. -/
def Instr.wf : Instr → Bool
  | .echo c => c.wf
  | .identify c => c.wf
  | .regRead c => c.wf
  | .regWrite c => c.wf
  | .regReadMulti c => c.wf
  | .allotCreate c => c.wf
  | .allotResize c => c.wf
  | .allotDelete c => c.wf
  | .allotBind c => c.wf
  | .allotQuery c => c.wf
  | .exposureQuery c => c.wf
  | .dripPolicySet c => c.wf
  | .flushRange c => c.wf
  | .harvestPlanLoad c => c.wf
  | .fullSave c => c.wf
  | .replantOrderLoad c => c.wf
  | .pair c => c.wf
  | .unpair c => c.wf
  | .failover c => c.wf
  | .resync c => c.wf
  | .tallyCompare c => c.wf
  | .packInfo c => c.wf
  | .gaugeRead c => c.wf
  | .gaugeRaw c => c.wf
  | .rehearsalRun c => c.wf
  | .powerStateReq c => c.wf
  | .railTableLoad c => c.wf
  | .slaveSeqCmd c => c.wf
  | .faultStatus c => c.wf
  | .faultClear c => c.wf
  | .faultInject c => c.wf
  | .logCursorSet c => c.wf
  | .logReadWindow c => c.wf
  | .logClear c => c.wf
  | .fwStageBegin c => c.wf
  | .fwStageData c => c.wf
  | .fwStageEnd c => c.wf
  | .fwActivateAt c => c.wf
  | .fwConfirm c => c.wf
  | .keyLabelSet c => c.wf
  | .recordSeal c => c.wf
  | .recordOpen c => c.wf
  | .aesBlock c => c.wf
  | .testSchedule c => c.wf
  | .testResult c => c.wf
  | .funcModeSet c => c.wf
  | .funcModeQuery c => c.wf
  | .lateStatusFetch c => c.wf
  | .mailboxTrellisPacket op m _ => decide (op < 2 ^ 16) && m.wf
  | .mailboxIdentify m _ => m.wf
  | .backgroundOperationStatus m _ => m.wf
  | .getEventRecords m _ => m.wf
  | .clearEventRecords m _ => m.wf
  | .getEventInterruptPolicy m _ => m.wf
  | .setEventInterruptPolicy m _ => m.wf
  | .getTimestamp m _ => m.wf
  | .setTimestamp m _ => m.wf
  | .getSupportedLogs m _ => m.wf
  | .getLog m _ => m.wf
  | .identifyMemoryDevice m _ => m.wf
  | .getHealthInfo m _ => m.wf
  | .getAlertConfiguration m _ => m.wf
  | .setAlertConfiguration m _ => m.wf
  | .getShutdownState m _ => m.wf
  | .setShutdownState m _ => m.wf
  | .getPoisonList m _ => m.wf
  | .injectPoison m _ => m.wf
  | .clearPoison m _ => m.wf
  | .getDynamicCapacityConfiguration m _ => m.wf
  | .getDynamicCapacityExtentList m _ => m.wf
  | .addDynamicCapacityResponse m _ => m.wf
  | .releaseDynamicCapacity m _ => m.wf
  | .getLdInfo m _ => m.wf
  | .getLdAllocations m _ => m.wf
  | .setLdAllocations m _ => m.wf
  | .getQosControl m _ => m.wf
  | .setQosControl m _ => m.wf
  | .getQosStatus m _ => m.wf
  | .getQosAllocatedBandwidth m _ => m.wf
  | .setQosAllocatedBandwidth m _ => m.wf
  | .getQosBandwidthLimit m _ => m.wf
  | .setQosBandwidthLimit m _ => m.wf
  | .setEndpointId h eid _ => h.wf && decide (eid < 256)
  | .getEndpointId h _ => h.wf
  | .getMctpVersionSupport h typ _ => h.wf && decide (typ < 256)
  | .getMessageTypeSupport h _ => h.wf
  | .mctpTrellisMessage h _ _ => h.wf
  | .getVersion n _ _ => decide (n < 4)
  | .getCapabilities n _ _ => decide (n < 4)
  | .negotiateAlgorithms n _ _ => decide (n < 4)
  | .getDigests n _ _ => decide (n < 4)
  | .getCertificate n _ _ => decide (n < 4)
  | .challenge n _ _ => decide (n < 4)
  | .getMeasurements n _ _ => decide (n < 4)
  | .keyExchange n _ _ => decide (n < 4)
  | .finish n _ _ _ => decide (n < 4)
  | .endSession n _ _ => decide (n < 4)
  | .keyUpdate n _ _ => decide (n < 4)
  | .ideKm n _ _ => decide (n < 4)
  | .qpEnable a v _ => a.wf && decide (v < 2 ^ 32)
  | .qpDisable a v _ => a.wf && decide (v < 2 ^ 32)
  | .sqTailDoorbell a v _ => a.wf && decide (v < 2 ^ 32)
  | .cqHeadDoorbell a v _ => a.wf && decide (v < 2 ^ 32)
  | .qpFetch _ _ _ _ _ => true
  | .qpReplyWrite n _ _ => decide (n < 64)
  | .lowWordRead a _ => a.wf
  | .highWordWrite a v _ => a.wf && decide (v < 2 ^ 32)
  | .rcRegisterRead a _ => a.wf
  | .adcQueueRead a _ => a.wf
  | .registerWrite a v _ => a.wf && decide (v < 2 ^ 32)
  | .coldFrameBridgeAccess _ => true
  | .ddrLaneDelay a v _ => a.wf && decide (v < 2 ^ 32)
  | .hostDelayApply c lane _ _ => decide (c < 16) && decide (lane < 128)
  | .ddrScrubHostRate a v _ => a.wf && decide (v < 2 ^ 32)
  | .ftlStream a v _ => a.wf && decide (v < 2 ^ 32)
  | .ftlWearHost a v _ => a.wf && decide (v < 2 ^ 32)
  | .gauHostSoc a v _ => a.wf && decide (v < 2 ^ 32)
  | .psqHostStep a v _ => a.wf && decide (v < 2 ^ 32)
  | .heartbeatRecordIn a v _ => a.wf && decide (v < 2 ^ 32)
  | .adcStart a v _ => a.wf && decide (v < 2 ^ 32)
  | .adcStop a v _ => a.wf && decide (v < 2 ^ 32)
  | .twiUnfence a v _ _ => a.wf && decide (v < 2 ^ 32)
  | .rdpRaise a v _ => a.wf && decide (v < 2 ^ 32)
  | .rdpLower a v _ => a.wf && decide (v < 2 ^ 32)
  | .fuseAdvanceSecured a v _ => a.wf && decide (v < 2 ^ 32)
  | .fuseAdvanceRetired a v _ => a.wf && decide (v < 2 ^ 32)
  | .fuseSetHaDeny a v _ => a.wf && decide (v < 2 ^ 32)
  | .fuseRaiseRdpFloor a v _ => a.wf && decide (v < 2 ^ 32)
  | .fuseSetDebugLock a v _ => a.wf && decide (v < 2 ^ 32)
  | .fuseRaiseSvn a v _ => a.wf && decide (v < 2 ^ 32)
  | .fuseRevokeKey a v _ => a.wf && decide (v < 2 ^ 32)
  | .vaonPresent _ _ => true
  | .strapSample _ _ _ => true
  | .vaonAbsent _ => true
  | .vaonLow _ => true
  | .vaonReset _ => true
  | .brownOut _ => true
  | .inputGood _ => true
  | .powerFail _ _ _ _ => true
  | .pfGlitch _ _ => true
  | .powerFailNotice _ _ => true
  | .harvestDoneNotice _ => true
  | .fatalNotice n detail _ => decide (n < 512) && decide (detail < 4294967296)
  | .startChecks _ _ _ _ => true
  | .coldTempRecheck _ _ _ _ => true
  | .slotEnable n _ => decide (n < 24)
  | .slotGood n _ => decide (n < 24)
  | .railRamp n _ => decide (n < 24)
  | .slotDisable n _ => decide (n < 24)
  | .slotOff n _ => decide (n < 24)
  | .railSlowOff n _ => decide (n < 24)
  | .railFault n _ code _ => decide (n < 24) && decide (code < 4096)
  | .railScanPass _ _ => true
  | .heldRailExcursion n _ => decide (n < 24)
  | .drstSeen c _ => decide (c < 16)
  | .pwrbtnPress _ => true
  | .shortPress _ => true
  | .longPress _ => true
  | .mrNAssert _ => true
  | .mrNRelease _ => true
  | .powerCycle _ => true
  | .holdTimeReached _ => true
  | .orderlyOffSeal _ => true
  | .orderlyOffPowerDown _ => true
  | .offAbandoned _ => true
  | .thermalHigh _ _ => true
  | .thermalTrip _ _ => true
  | .xtalFail _ => true
  | .trainingStepComplete i _ => i.wf
  | .cxlLinkUp n _ _ _ _ => decide (n < 4)
  | .cxlLinkDown n _ => decide (n < 4)
  | .perstN n _ _ => decide (n < 4)
  | .cxlMemRead r x _ => r.wf && x.wf
  | .cxlMemWrite r x _ => r.wf && x.wf
  | .heldWriteDiscard _ _ => true
  | .gpfPhase1 n _ => decide (n < 4)
  | .gpfPhase2 n _ => decide (n < 4)
  | .gpfDeadline n _ => decide (n < 4)
  | .ideIntegrityFailure n _ _ => decide (n < 4)
  | .priorityFetchDone _ r _ => r.wf
  | .replantStripeDone _ _ _ _ => true
  | .warmVerifyEnd _ _ => true
  | .harvestStripeDone _ _ _ _ => true
  | .sealWritten _ _ => true
  | .selfRefreshEntry c _ => decide (c < 16)
  | .selfRefreshExit c _ => decide (c < 16)
  | .refreshDue c rank _ _ _ => decide (c < 16) && decide (rank < 8)
  | .requestUrgent c _ _ => decide (c < 16)
  | .retrainDue c _ => decide (c < 16)
  | .dimmTempPoll c _ _ => decide (c < 16)
  | .scrubChunk c _ _ _ => decide (c < 16)
  | .tallyRebuildDone c _ _ => decide (c < 16)
  | .gaugeUpdateFrame _ => true
  | .stageEval _ => true
  | .dripRound _ _ => true
  | .dripCommit _ _ => true
  | .moveCommit _ _ => true
  | .recencySweep _ => true
  | .hintExpiry _ => true
  | .wearBucketGain _ => true
  | .enduranceForecast _ => true
  | .journalPageTimeout _ _ => true
  | .wordlineFillTimeout _ _ => true
  | .checkpointWrite _ _ _ => true
  | .flashProgramDone _ _ _ => true
  | .flashEraseDone _ _ _ _ => true
  | .flashReadDone _ r _ => r.wf
  | .flashDqRetrain _ _ _ => true
  | .targetStatusPoll _ _ _ => true
  | .gcVictimChoice _ => true
  | .patrolSchedule _ r _ => r.wf
  | .harvestRotation _ => true
  | .harvestRegionSizing _ => true
  | .d2dAck _ _ => true
  | .d2dNak _ _ => true
  | .registerRequest _ => true
  | .registerData _ _ => true
  | .eventFrame _ => true
  | .summaryUpdate _ => true
  | .d2dFrameError _ _ _ => true
  | .d2dResendTimeout _ _ => true
  | .d2dRetrain _ => true
  | .d2dRetrainDone _ => true
  | .faultReport n detail _ _ _ => decide (n < 512) && decide (detail < 4294967296)
  | .brokenPath _ _ => true
  | .polledSourceCheck n detail _ _ => decide (n < 512) && decide (detail < 4294967296)
  | .logRatePeriod code _ => decide (code < 65536)
  | .nvmProgramDone bank _ _ => decide (bank < 2)
  | .nvmEraseDone bank _ => decide (bank < 2)
  | .nvmEraseResume bank _ => decide (bank < 2)
  | .nonceBlockReserve _ => true
  | .mpLockstep _ _ => true
  | .mpPairBooted k _ => decide (k < 2)
  | .loadWindowEnd busyA busyB _ => decide (busyA < 1001) && decide (busyB < 1001)
  | .loadLevelFall _ => true
  | .autoReturn _ => true
  | .quiescentPointSwitch f _ => decide (f < 11)
  | .funcSwitchTimeout f _ => decide (f < 11)
  | .haWatchdog f _ => decide (f < 11)
  | .bedClockStop b _ => decide (b < 16)
  | .bedWake _ => true
  | .cuttingDone _ _ _ => true
  | .tineFenced _ _ => true
  | .sublinkSignalDetect k _ => decide (k < 4)
  | .sublinkEqDone k _ => decide (k < 4)
  | .sublinkAlignLock k _ _ => decide (k < 4)
  | .sublinkSyncDone k _ => decide (k < 4)
  | .sublinkAuthDone k _ _ => decide (k < 4)
  | .sublinkStateTimeout k _ => decide (k < 4)
  | .sublinkRetrainStart k _ => decide (k < 4)
  | .sublinkHoldEnd k _ => decide (k < 4)
  | .sublinkLost n _ => decide (n < 4)
  | .flitCrcFailure k _ => decide (k < 4)
  | .linkAck k _ _ => decide (k < 4)
  | .linkNak k _ _ => decide (k < 4)
  | .replayTimeout k _ => decide (k < 4)
  | .macFlit f _ _ => f.wf
  | .record f r _ => f.wf && r.wf
  | .accept f sub _ _ => f.wf && decide (sub < 4)
  | .credit f sub _ _ => f.wf && decide (sub < 4)
  | .room f _ _ _ _ _ => f.wf
  | .clean f _ _ => f.wf
  | .epoch f _ _ _ => f.wf
  | .cutMark f _ _ => f.wf
  | .tally f _ _ _ _ => f.wf
  | .crcBlock f _ _ _ => f.wf
  | .harvest f _ sub _ _ => f.wf && decide (sub < 4)
  | .harvestDone f _ _ => f.wf
  | .rehome f sub _ _ => f.wf && decide (sub < 4)
  | .rekey f _ _ => f.wf
  | .keySwitch f _ _ => f.wf
  | .table f m _ => f.wf && m.wf
  | .commit f _ _ _ _ _ => f.wf
  | .hello f m _ => f.wf && m.wf
  | .proof f _ _ => f.wf
  | .spdm f _ _ _ => f.wf
  | .flush f _ _ _ _ => f.wf
  | .flushed f _ _ _ => f.wf
  | .state f _ _ => f.wf
  | .compare f _ _ count _ => f.wf && decide (count < 65)
  | .roomPeriod _ => true
  | .pairEpochTick _ => true
  | .compareCaptureTimeout _ _ => true
  | .compareSchedule _ => true
  | .resyncPacing _ _ => true
  | .rekeyDue _ => true
  | .rekeyTimeout _ => true
  | .exlKeyExhausted k _ => decide (k < 4)
  | .heartbeatPublish _ => true
  | .claimTimeout _ => true
  | .takeoverTimeout _ => true
  | .pairTimeout _ => true
  | .flushRangeTimeout _ _ => true
  | .releaseWaitExpiry _ _ => true
  | .fwConfirmTimeout _ => true
  | .gaugeBurst _ _ => true
  | .currentComparatorTrip _ => true
  | .gaugeBurstDone _ _ _ _ => true
  | .gaugeUpdate _ => true
  | .restPoint _ => true
  | .packIdRead _ _ _ => true
  | .protectorRead word _ _ => decide (word < 65536)
  | .rehearsalDue _ => true
  | .rehearsalPhaseEnd _ _ => true
  | .rehearsalTimeLimit _ => true
  | .slaveStatusPoll _ word _ _ => decide (word < 65536)
  | .pmbusPoll _ _ _ _ => true
  | .twiTransactionDone n _ _ _ => decide (n < 4)
  | .twiRetry n _ => decide (n < 4)
  | .arbitrationLost n _ => decide (n < 4)
  | .clockLowTimeout n _ _ => decide (n < 4)
  | .busClear n _ _ => decide (n < 4)
  | .adcTimerTrigger k _ => decide (k < 2)
  | .adcConversionDone k _ _ => decide (k < 2)
  | .logicBist _ _ _ => true
  | .flashEngineLoopback _ _ _ => true
  | .converterReference k low high _ => decide (k < 2) && decide (low < 4096) && decide (high < 4096)
  | .comparatorTrip _ _ _ => true
  | .faultPathInjection _ _ _ _ _ => true
  | .cipherKnownAnswer _ _ _ => true
  | .istCoverage n _ => decide (n < 6)
  | .weedingPauseEnd _ => true
  | .telemetrySample _ => true
  | .telemetrySummary _ => true
  | .resyncPauseEnd _ => true
  | .configRecordSave _ => true
  | .failedBoot _ => true
  | .bedReloadDone _ _ => true
  | .vaonRecovery _ => true
  | .domainSwitchTimeout _ => true
  | .injectionTimeout n _ => decide (n < 512)

end Sys2Proof
end

