-- ==== Sys2Proof/Decode.lean ====
section
/-! DEFINITION. The decoder of opcode-table words. The block has no instruction words: every row of the opcode table is a command
from outside and the table gives none of them bits (width 0 throughout). -/

namespace Sys2Proof

/-- The command a word spells by the table's bits: the table gives no row bits, so no word spells one. -/
def decodeTableWord (_nbits _w : Nat) : Option Instr := none

end Sys2Proof
end

