-- ==== Sys2Proof/Config.lean ====
section
/-! DEFINITION. What one part fixes and the manual leaves open: constants without a body, so that no proof can
see a value. Each is named in the assumption log. -/

namespace Sys2Proof.Config

/-- A free value, one for each number of draws made so far (`State.draws`). Log entry 30. -/
opaque freeValue : Nat → Nat

/-- The fixed XOR hash that chooses the bed of a cutting: the manual gives it no body (R273,
09_tines_and_management.md). Arguments: cutting type and identity fields. Log entry 31. -/
opaque cuttingHash : Nat → Nat → Nat → Nat → Nat

/-- The hash that maps a host granule to its recency entry (R149, 05_exposure_and_drip.md). Log entry 31. -/
opaque recencyHash : Nat → Nat

/-- Retry-after of a refusal, the Skeuf's estimate in units of 10 µs (R53, 02_trellis_commands.md), by a draw.
Log entry 32. -/
opaque retryEstimate : Nat → Nat

/-- The root key of the fuses, 32 bytes, never readable (R421, 15_firmware_keys_fuses.md). Log entry 33. -/
opaque rootKey : List Byte

/-- The fused serial number (R421). Log entry 33. -/
opaque serial : BitVec 64

/-- The fused pairing group ID (R421). Log entry 33. -/
opaque groupId : BitVec 16

/-- The fused SHA-384 hash of signing key 0 or 1 (R421). Log entry 33. -/
opaque keyHash : Nat → List Byte

/-- Length of the handling window of a C or U error in µs, at most 100 (R379), by a draw. Log entry 32. -/
opaque handlingUs : Nat → Nat

/-- The core supply set point fixed at test, in mV above 700 (R456, 18_electrical_and_timing.md). Log entry 33. -/
opaque vsetAbove700 : Nat

/-- Whether an ECDSA P-384 signature verifies: key, message, signature (R398). Log entry 34. -/
opaque ecdsaVerifies : List Byte → List Byte → List Byte → Bool

/-- Contents of an SPDM response the manual leaves to SPDM 1.2: request code, request bytes, draw
(R98, 03_host_ports_allotments.md). Log entry 35. -/
opaque spdmResponse : Nat → List Byte → Nat → List Byte

/-- Contents of a standard mailbox or fabric-manager API response that CXL 3.1 lays out: opcode, input bytes,
draw (R100, R74). Log entry 36. -/
opaque cxlResponse : Nat → List Byte → Nat → List Byte

/-- The pair secret as EXL-PAIR output for a pairing: export master secret handle (R236). Log entry 37. -/
opaque exportSecret : Nat → List Byte

/-- Serial number and pairing group ID that an identity certificate chain carries: the manual names the fields, not their
places in the chain (R236, 08_twin_mirroring.md). Log entry 121. -/
opaque certIdentity : List Byte → Nat × Nat

/-- The certificate chain of SPDM slot 0: the two Neraesh certificates of the cold-frame image, then the identity certificate
rebuilt from the template for a private key, a serial number, a part number and a pairing group ID (R412,
15_firmware_keys_fuses.md). Log entry 121. -/
opaque certChain : Nat → BitVec 64 → Nat → BitVec 16 → List Byte

/-- Reading of a die temperature sensor in a second in which no command tells it, a byte: logic die (0) or cold frame (1), second
(AON_TEMP, 18_electrical_and_timing.md). Log entry 124. -/
opaque dieTemp : Nat → Nat → Nat

/-- A fresh nonce of a HELLO (R247), by a draw. Log entry 37. -/
opaque helloNonce : Nat → List Byte

/-- The OCV tables an image body spells, whose layout the manual leaves to the Brutex table compiler (R300): number,
points (SoC in 0.01%, cell voltage in 0.1 mV). Log entry 46. -/
opaque ocvTables : List Byte → List (Nat × List (Nat × Nat))

/-- The k_temp curve (0.01 °C, 0.001) and the k_age curve (0.01 years, 0.001) an image body spells (R300). Log
entry 46. -/
opaque ocvCurves : List Byte → List (Int × Nat) × List (Int × Nat)

/-- The drip policy an image body spells, whose layout the manual leaves to the Brutex table compiler (R151): PRIORITY,
URGENT_PCT, THR1_PCT, THR2_PCT, curve points (fill in 0.01%, interval in ms). Log entry 46. -/
opaque policyImage : List Byte → Nat × Nat × Nat × Nat × List (Nat × Nat)

/-- What the read-retry table carries for one part type (R202). -/
structure PartEntry where
  /-- part type: manufacturer and model -/
  part : Nat := 0
  /-- the 16 threshold-shift levels -/
  levels : List Int := []
  /-- pSLC entry method -/
  pslc : Nat := 0
  /-- rated program/erase cycles -/
  rated : Nat := 0
  /-- read-disturb limit of a TLC block, reads since its erase -/
  disturbTlc : Nat := 0
  /-- read-disturb limit of a pSLC block -/
  disturbPslc : Nat := 0
  /-- retention limit, s -/
  retention : Nat := 0
  /-- temperature derating of the retention limit: °C and per mille -/
  derating : List (Int × Nat) := []
  deriving DecidableEq, Repr

/-- The entries a read-retry image body spells (R202). Log entry 46. -/
opaque retryParts : List Byte → List PartEntry

/-- Rank, bank group and bank (before the XOR), and row of a granule, from its channel-local index: the manual names the
input, not the bits (R111, 04_dram_channels.md). Log entry 31. -/
opaque ddrPlace : Nat → Nat × Nat × Nat

/-- Bits of a bank group and bank number, XORed with as many low row bits (R111, 04_dram_channels.md). Log entry 31. -/
opaque ddrBankBits : Nat

/-- Bank of its group that a bank number names, for same-bank refresh, and the banks of a group (R116). Log entry 31. -/
opaque ddrBankInGroup : Nat → Nat

/-- Banks of a bank group (R116). Log entry 31. -/
opaque ddrGroupBanks : Nat

/-- A logical device's share of the ledger as its QoS allocation and limit scale it: the manual names the inputs, not the
scale (R95, 03_host_ports_allotments.md). Log entry 109. -/
opaque qosShare : Byte → Byte → Nat → Nat

/-- A retention limit (s) derated by the mean target temperature (°C) with the points of the table, which names the
derating, not its law (R202, R229, 07_flash_backend.md). Log entry 115. -/
opaque retentionLimit : Nat → List (Int × Nat) → Int → Nat

/-- The 496 parity bytes of a codeword, from its data and metadata bytes: the manual gives the code's size, not its
matrix (R204, 07_flash_backend.md). Log entry 115. -/
opaque ldpcParity : List Byte → List Byte

end Sys2Proof.Config
end

