-- ==== Sys2Proof/Machine/State.lean ====
section
/-! DEFINITION. The state of the Skeuf: every piece of state the manual names, as plain data, and its value at
reset. The rule that names a field stands in its docstring; INVENTORY.md lists them all. -/

namespace Sys2Proof.Machine

open Sys2Proof

/-- The device states, with the codes of Table 1.5 (R21, 01_architecture.md). -/
inductive DevState where
  | off | shelf | waking | railsUp | training | replanting | serving | degraded | harvesting | held
  | railsDown | latched
  deriving DecidableEq, Repr

/-- The transition causes, with the codes of Table 1.7 (R22, 01_architecture.md). -/
inductive Cause where
  | none | inputGood | shortPress | longPress | mrN | powerFail | railFault | fatal | holdTime | holdFloor
  | powerReq | twinLost | twinInStep | restored | checksFailed | vaonOrCycle | progress | sealed | thermal
  deriving DecidableEq, Repr

/-- TRL_QP_STATUS.STATE (R45, 02_trellis_commands.md). -/
inductive QpState where
  | idle | active | disabling | error
  deriving DecidableEq, Repr

/-- A reply (Table 2.3) with the output payload that goes with it. -/
structure Reply where
  tag : Nat := 0
  op : Nat := 0
  status : Nat := 0
  cls : Nat := 0
  /-- retry-after in µs (classes 0 and 1), or origin (class 2) -/
  retry : Nat := 0
  detail : Nat := 0
  /-- result bytes 16–31 -/
  result : List Byte := []
  /-- output payload written back -/
  output : List Byte := []
  deriving DecidableEq, Repr

/-- A FLUSH_RANGE under way (R160). -/
structure FlushJob where
  /-- granules still to be flushed -/
  left : List Nat := []
  /-- granules flushed -/
  done : Nat := 0
  /-- granules CLEAN at admission -/
  clean : Nat := 0
  /-- granules committed with a poisoned line -/
  pois : Nat := 0
  /-- number of the first cutting issued after admission -/
  first : Nat := 0
  deadline : Nat := 0
  /-- the twin flushes too, and its part is still owed -/
  twin : Bool := false
  /-- it ends DEGRADED: the twin took no part -/
  alone : Bool := false
  /-- FLUSHED answers of the twin still owed -/
  owed : Nat := 0
  /-- the worse status the twin answered -/
  peer : Nat := 0
  deriving DecidableEq, Repr

/-- What an executing command still waits for: one constructor for each command whose end is a later event. -/
inductive Job where
  /-- nothing: not started -/
  | none
  /-- ORDERED: its predecessor (R55) -/
  | order
  /-- a management processor pair that runs (R54, R285) -/
  | mpPair
  /-- the twin commit `id` (R256); the second field is the step the command takes after it -/
  | twin (id next : Nat)
  /-- hosts to release the extents of a shrink to `n` extents, until `deadline` (R103) -/
  | shrink (allot n deadline : Nat)
  /-- hosts to release the bindings of `issuers`, until `deadline` (R105) -/
  | unbind (allot : Nat) (issuers : List Nat) (deadline : Nat)
  /-- a flush (R160) -/
  | flush (j : FlushJob)
  /-- a full-image save (R198) -/
  | fullSave
  /-- the peer's PAIR (R236) -/
  | pair (deadline : Nat)
  /-- a hand-over at an epoch, with the allotments handed over so far and their highest MGEN (R268) -/
  | handover (epoch done mgen : Nat)
  /-- a tally comparison announced for epoch `e` (R262) -/
  | compare (e : Nat)
  /-- a rehearsal (R317) -/
  | rehearsal
  /-- the end of an off path; exposure at admission (R337) -/
  | off (exposure : Nat)
  /-- a domain switch; exposure at admission (R337) -/
  | domain (d : Nat) (on : Bool) (deadline exposure : Nat)
  /-- a slave transaction on TWI2 (R338) -/
  | slave (code : Nat)
  /-- an injection on a source, until `deadline` (R394) -/
  | inject (source deadline : Nat)
  /-- the erase of the log (R396) -/
  | logClear
  /-- the erase of firmware slot `b` (R402) -/
  | fwErase (b : Bool)
  /-- a nonce block (R414) -/
  | nonce
  /-- the coverage of a weeding item (R434) -/
  | weed (item : Nat)
  /-- the quiescent point of function `f` (R67) -/
  | switch (f : Nat)
  /-- a live flash write of the option area or a pair that the command waits for -/
  | table
  /-- room on the cold-frame bridge (R480) -/
  | bridge
  /-- its accesses on the cold-frame bridge, then the reply (R480) -/
  | access (r : Reply)
  deriving DecidableEq, Repr

/-- A remembered refusal (R53). -/
structure RefusalRec where
  tag : Nat := 0
  /-- clock from which it may be submitted again, µs -/
  till : Nat := 0
  deriving DecidableEq, Repr

/-- One entry of a late-status group (R58, R61). -/
structure LateEntry where
  issuer : Nat := 0
  reply : Reply := {}
  released : Bool := false
  /-- released in SRAM only, beyond the release units of its slot (R355) -/
  soft : Bool := false
  deriving DecidableEq, Repr

/-- A pending switch of a function (R66, R67). -/
structure SwitchReq where
  assist : Bool := false
  auto : Bool := false
  watchdog : Nat := 0
  issuer : Nat := 0
  /-- in-flight number of the command, none for a fall or a return under AUTO (R288) -/
  cmd : Option Nat := none
  since : Nat := 0
  reason : Nat := 1
  /-- a fall under load: the owner stays (R288) -/
  fall : Bool := false
  deriving DecidableEq, Repr

/-- A log filter (R395): lowest severity and one code, or all. -/
structure LogFilter where
  minSev : Nat := 0
  code : Option Nat := none
  deriving DecidableEq, Repr

/-- A die-to-die frame: sequence, type and payload (Table 1.2, R15). -/
structure D2dFrame where
  seq : Nat := 0
  typ : Nat := 0
  payload : BitVec 16 := 0#16
  /-- CRC-8 over bits [31:8] (R15) -/
  crc : BitVec 8 := 0#8
  deriving DecidableEq, Repr

/-- An access held by the cold-frame bridge (R480). -/
structure BridgeAcc where
  acc : RegAcc := {}
  write : Bool := false
  value : Nat := 0
  /-- register-request frames that arrived, of two -/
  reqs : Nat := 0
  /-- register-data frames that arrived, of two -/
  datas : Nat := 0
  /-- clock at which the bridge accepted it, in µs -/
  since : Nat := 0
  /-- in-flight number of the register command it serves -/
  cmd : Option Nat := none
  deriving DecidableEq, Repr

/-- SPDM responder state of a port (R98). -/
structure SpdmState where
  version : Bool := false
  caps : Bool := false
  algs : Bool := false
  handshake : Bool := false
  session : Bool := false
  /-- number of KEY_UPDATE operations done in the session -/
  keyGen : Nat := 0
  deriving DecidableEq, Repr

/-- IDE_KM keys of a port: a programmed set waiting for its switch, and the set in use (R98). -/
structure IdeKeys where
  programmed : List Byte := []
  inUse : List Byte := []
  running : Bool := false
  deriving DecidableEq, Repr

/-- A CXL event record: log (0 informational, 1 warning, 2 failure, 4 dynamic capacity) and data (R100, R378). -/
structure CxlEvent where
  handle : Nat := 0
  log : Nat := 0
  data : List Byte := []
  deriving DecidableEq, Repr

/-- Allotment states (Table 3.4, R86). -/
inductive AllotState where
  | ready | replanting | stale | dataLost | deleting
  deriving DecidableEq, Repr

/-- Granule dirty states other than CLEAN (R137, 05_exposure_and_drip.md). -/
inductive GranState where
  | dirty | dripping | redirty
  deriving DecidableEq, Repr

/-- Block roles (Table 7.6, R216). -/
inductive BlockRole where
  | tlcFree | tlcOpen | tlcFull | harvest | folding | metadata | sealBlk | rehearsal | spare | retired
  deriving DecidableEq, Repr

/-- Why a granule goes to flash. -/
inductive ProgWhy where
  | drip | move | save | flush | recopy
  deriving DecidableEq, Repr

/-- What the end of an embedded-flash operation completes (R346, R352). -/
inductive NvmWhat where
  | other
  /-- an event record (class 5) -/
  | record
  /-- a snapshot of parameter pair `n` (class 4) -/
  | pair (n : Nat)
  /-- an option area write (class 4) -/
  | option
  /-- the erase of a freed late-status slot (class 6) -/
  | lateSlot (k : Nat)
  /-- the late-status group of slot `k`, header first (class 2; R58) -/
  | lateGroup (k : Nat)
  /-- the erase of log sector `k` (class 6) -/
  | logSector (k : Nat)
  /-- the erase of start-record area `k` (class 6) -/
  | startArea (k : Nat)
  /-- the erase of every sector of a bank when readout protection is lowered, ahead of all else (R351) -/
  | lowering
  /-- the erase of a sector of firmware slot `b`; `last` ends the command (class 7) -/
  | fwErase (b last : Bool)
  /-- staged firmware bytes of a command (class 7) -/
  | fwData (cmd : Nat) (last : Bool)
  /-- a firmware-update state record (class 7; R400) -/
  | fwState
  deriving DecidableEq, Repr

/-- Population record of the locator (R221). -/
structure FlashPop where
  channels : List Nat := []
  targets : List Nat := []
  part : Nat := 0
  deriving DecidableEq, Repr

/-- Read-retry table image (R202): an entry for each part type. -/
structure RetryTable where
  version : Nat := 0
  parts : List Config.PartEntry := []
  deriving DecidableEq, Repr

/-- A mirrored write record (R251) with the position it takes. -/
structure MirRec where
  /-- device line address -/
  line : Nat := 0
  data : List Byte := []
  enables : BitVec 64 := 0#64
  poison : Bool := false
  /-- P: the granule's TWIN_DIRTY bit was clear at admission (R254) -/
  p : Bool := false
  slice : Nat := 0
  seq : Nat := 0
  /-- number of the record on its sublink since the session opened -/
  serial : Nat := 0
  deriving DecidableEq, Repr

/-- A record or control message waiting in an integrity group (R246, Table 8.7). -/
inductive LinkItem where
  | record (r : MirRec)
  | accept (sub through : Nat)
  | credit (sub n : Nat)
  | room (room : Int) (stage adm : Nat) (through : List Nat)
  | clean (gs : List Nat)
  | epoch (e ns : Nat)
  | cutMark (e : Nat)
  | tally (e region tally : Nat)
  | crcBlock (first : Nat) (crcs : List Nat)
  | harvest (cause sub through : Nat)
  | harvestDone (seq : Nat)
  | rehome (sub through : Nat)
  | rekey (id : Nat)
  | keySwitch (id : Nat)
  | table (m : TableMsg)
  | commit (id phase epoch status : Nat)
  | spdm (flags : Nat) (data : List Byte)
  | flush (tag first count : Nat)
  | flushed (tag status : Nat)
  | state (l : List (Nat × Nat × Nat))
  | compare (e first count : Nat)
  deriving DecidableEq, Repr

/-- A mirrored write of this unit that is positioned and not completed (R18, R263). -/
structure MirWrite where
  n : Nat := 0
  port : Nat := 0
  issuer : Nat := 0
  allot : Nat := 0
  /-- sublink and serial of its record; none where the twin takes no part -/
  sent : Option (Nat × Nat) := none
  /-- the peer has accepted it, or takes no part -/
  accepted : Bool := false
  /-- it waits for the restore of its granule -/
  fetching : Bool := false
  /-- its completion is withheld since link loss (R263) -/
  withheld : Bool := false
  /-- line written (R18) -/
  line : Nat := 0
  deriving DecidableEq, Repr

/-- What a twin commit changes (R256). -/
inductive TxKind where
  | entry | delete | bind | reserve | unreserve | activate | handover
  deriving DecidableEq, Repr

/-- A PAIR waiting for the peer (R236). -/
structure PairJob where
  cmd : Nat := 0
  deadline : Nat := 0
  /-- PEER_SERIAL -/
  serial : Nat := 0
  /-- PEER_DIGEST -/
  digest : List Byte := []
  replace : Bool := false
  /-- certificate chain of the peer received so far -/
  chain : List Byte := []
  /-- the peer's chain is complete and passed its checks -/
  certOk : Bool := false
  /-- allotment IDs in use on the peer, once told -/
  ids : Option (List Nat) := none
  /-- this unit's record is written; the peer's is not known to be -/
  written : Bool := false
  deriving DecidableEq, Repr

/-- The peer's STATE entry of an allotment (R269). -/
structure PeerAllot where
  mgen : Nat := 0
  serving : Bool := false
  complete : Bool := false
  inStep : Bool := false
  deriving DecidableEq, Repr

/-- An OCV table: chemistry points of one table number (R300). -/
structure OcvTable where
  number : Nat := 0
  points : List (Nat × Nat) := []
  deriving DecidableEq, Repr

/-- The device state machine and the always-on block (chapter 1, AON). -/
structure Dev where
  /-- current device state, 4-bit code of Table 1.5 (R21) -/
  state : DevState := .off
  /-- state before the last transition, 4 bits (PREV_STATE) (R22) -/
  prev : DevState := .off
  /-- cause of the last transition, 8-bit code of Table 1.7 (R22) -/
  cause : Cause := .none
  /-- WARM flag, 1 bit: REPLANTING follows a warm return (R22) -/
  warm : Bool := false
  /-- clock at which VAON appeared, us (R482) -/
  vaonAt : Nat := 0
  /-- clock of the last device-state transition, us (R22) -/
  stateAt : Nat := 0
  /-- VAON supply present, 1 bit pin level (R22) -/
  vaon : Bool := false
  /-- operating seconds at the instant vaonAt, 40 bits: AON_OP_SECONDS adds the seconds since (R482) -/
  opSeconds : Nat := 0
  /-- operating seconds as last saved in the configuration record, 40 bits (R482) -/
  opSecondsSaved : Nat := 0
  /-- power-cycle count, 32 bits (AON_POWER_CYCLES), saved at each advance (R482) -/
  powerCycles : BitVec 32 := 0#32
  /-- crystal found at the last burst, 1 bit; false: timebase from the fast oscillator and records carry the time-quality flag (R19) -/
  xtalOk : Bool := true
  /-- clock and rank of the ranked event that took effect last: the 1 us window of R23 (R23) -/
  won : Option (Nat × Nat) := none
  deriving DecidableEq, Repr

/-- One queue pair of the 64 (chapter 2, TRL_QP registers of pair n). -/
structure QP where
  /-- TRL_QP_BIND.ENABLE, 1 bit (R41) -/
  enable : Bool := false
  /-- TRL_QP_BIND.ASSIST, 1 bit (R41) -/
  assist : Bool := false
  /-- TRL_QP_BIND.VECTOR, 11 bits (R41) -/
  vector : Nat := 0
  /-- TRL_QP_BIND.ISSUER, 16 bits (R41) -/
  issuer : BitVec 16 := 0#16
  /-- TRL_QP_SQ_BASE, 64 bits, [11:0] zero (R42) -/
  sqBase : BitVec 64 := 0#64
  /-- TRL_QP_CQ_BASE, 64 bits, [11:0] zero (R42) -/
  cqBase : BitVec 64 := 0#64
  /-- TRL_QP_CQ_TAIL_ADDR, 64 bits, [1:0] zero (R44) -/
  tailAddr : BitVec 64 := 0#64
  /-- TRL_QP_SIZE.SQ_ENTRIES_M1, 10 bits (R42) -/
  sqM1 : Nat := 0x00F
  /-- TRL_QP_SIZE.CQ_ENTRIES_M1, 10 bits (R42) -/
  cqM1 : Nat := 0x00F
  /-- TRL_QP_STATUS.STATE, 2 bits (R45) -/
  st : QpState := .idle
  /-- TRL_QP_STATUS.ERR_CODE, 6 bits (R45) -/
  err : Nat := 0
  /-- completion tail last written, 10 bits (R44) -/
  cqTail : Nat := 0
  /-- completion head the host returned, 10 bits (R44) -/
  cqHead : Nat := 0
  /-- next submission entry to fetch, 10 bits (R43) -/
  sqHead : Nat := 0
  /-- submission tail the host wrote, 10 bits (R43) -/
  sqTail : Nat := 0
  /-- TRL_QP_CREDIT.LIMIT, 10 bits, set by the load meter (R52) -/
  creditLimit : Nat := 0x40
  /-- TRL_QP_CREDIT.MAX, 10 bits, 0 treated as 1 (R52) -/
  creditMax : Nat := 0x40
  /-- replies posted and not yet written to the completion ring, oldest first (slots reserved by R43) (R44) -/
  owed : List Reply := []
  deriving DecidableEq, Repr

/-- One entry of the in-flight list: a command admitted whose class 0 reply is not delivered (chapter 2). -/
structure InFlight where
  /-- the model's own number of the command, counted at admission (R57) -/
  id : Nat := 0
  /-- the packet and its carrier (R34) -/
  cmd : TrellisCmd := {}
  /-- 0x00 admitted not started, 0x01 executing, 0x02 ended with reply not delivered (R59) -/
  phase : Nat := 0
  /-- what an executing command still waits for (one constructor per long command) (R58) -/
  job : Job := .none
  /-- clock at admission, in us (R67) -/
  since : Nat := 0
  /-- class 0 reply of an ended command not yet delivered (R58) -/
  reply : Option Reply := none
  /-- ORDERED: the in-flight number of the predecessor it waits for (R55) -/
  after : Option Nat := none
  /-- ORDERED: the reply of a refused predecessor it waits for (R55) -/
  behind : Option Reply := none
  deriving DecidableEq, Repr

/-- What a carrier remembers: refusals and its last submission (chapter 2). -/
structure CarrierLog where
  /-- the last 64 refusals by tag with the time each may be resubmitted (R53) -/
  refused : List RefusalRec := []
  /-- in-flight number of the command submitted last, if admitted (R55) -/
  lastId : Option Nat := none
  /-- retry-after of the command submitted last, if refused at admission (R55) -/
  lastRefused : Option Nat := none
  /-- reply of the command submitted last, if it was refused with a status other than BUSY_RETRY (R55) -/
  lastReply : Option Reply := none
  deriving DecidableEq, Repr

/-- One late-status group (chapter 2, placed by chapter 12). -/
structure LateGroup where
  /-- power-cycle count of the group (R58) -/
  powerCycle : BitVec 32 := 0#32
  /-- RUN_SEQ of the group (R355) -/
  run : Nat := 0
  /-- entry count of the header (R58) -/
  count : Nat := 0
  /-- class 2 replies written, with the issuer each belongs to and whether released (R58) -/
  entries : List LateEntry := []
  /-- which of the two slots holds it (R60) -/
  slot : Nat := 0
  /-- release units programmed (R355) -/
  units : Nat := 0
  deriving DecidableEq, Repr

/-- Trellis: queue pairs, admission, carriers (chapter 2). -/
structure Trl where
  /-- the 64 queue pairs, by number (R41) -/
  qps : Tbl QP := []
  /-- in-flight list, at most 2,304 entries, oldest first (R57) -/
  flight : List InFlight := []
  /-- the model's own count of admitted commands (R57) -/
  nextId : Nat := 0
  /-- per carrier memory, by carrier number (R59 coding) (R53) -/
  carriers : Tbl CarrierLog := []
  /-- queue pair fetched from last, for fetching in turn (R43) -/
  rr : Nat := 0
  /-- MCTP endpoint ID of this endpoint on TWI0, 8 bits (R48) -/
  eid : Nat := 0
  /-- late-status groups in the embedded flash, oldest first, at most two slots (R60) -/
  late : List LateGroup := []
  /-- OVERFLOW reported until every group is released (R60) -/
  lateOverflow : Bool := false
  deriving DecidableEq, Repr

/-- One of the eleven functions (chapters 1, 2 and 9). -/
structure Func where
  /-- false hardware mode, true host-assisted mode (R66) -/
  mode : Bool := false
  /-- a switch waiting for its quiescent point, with its in-flight number (R67) -/
  pend : Option SwitchReq := none
  /-- POLICY AUTO, 1 bit (R66) -/
  auto : Bool := false
  /-- REASON of the state byte, 3 bits (R68) -/
  reason : Nat := 0
  /-- owner's Issuer ID, 0x0000 when none (R68) -/
  owner : BitVec 16 := 0#16
  /-- an owner exists (R66) -/
  hasOwner : Bool := false
  /-- host-assisted watchdog period, ms (R66) -/
  watchdog : Nat := 0
  /-- clock at which the watchdog was last started, us (R289) -/
  wdAt : Nat := 0
  /-- fell to hardware mode under AUTO and may return (R288) -/
  fell : Bool := false
  /-- the owner has supplied a validated input (R67) -/
  goodTable : Bool := false
  deriving DecidableEq, Repr

/-- Per access path state: 64-bit captures, held low words, selectors (chapters 0 and 19). -/
structure Paths where
  /-- captured 64-bit values, by (path, low-word offset) (R8) -/
  captures : Tbl (BitVec 64) := []
  /-- held low words of writable 64-bit registers, by (path, low-word offset) (R12) -/
  heldLow : Tbl (BitVec 32) := []
  /-- selector registers, by (path, offset): ALT_SEL, DDRn_LANE_SEL, LDG_SEL, TIN_BED_SEL, FTL_STREAM_SEL, RMN_SEL, ADC_SEQ_SEL, FLT_SRC_SEL, IST_ITEM_SEL (R474) -/
  sels : Tbl (BitVec 32) := []
  /-- LOG_CURSOR of each path (R391) -/
  cursors : Tbl (BitVec 64) := []
  /-- record filter of each path set by LOG_CURSOR_SET (R395) -/
  filters : Tbl LogFilter := []
  /-- runs of SEQ that the log held, or could come to hold, when the path set its cursor (R391) -/
  cursorRuns : Tbl (List (Nat × Nat)) := []
  deriving DecidableEq, Repr

/-- One direction of the die-to-die link (chapter 1). -/
structure D2dSide where
  /-- next SEQ to send, 4 bits (R15) -/
  nextSeq : Nat := 0
  /-- frames sent and not acknowledged, at most 15, oldest first (R15) -/
  unacked : List D2dFrame := []
  /-- frames queued while the window is full or a retrain runs (R16) -/
  held : List D2dFrame := []
  /-- SEQ the receiver expects, 4 bits (R15) -/
  expect : Nat := 0
  /-- consecutive failures of the first unacknowledged frame (R16) -/
  fails : Nat := 0
  /-- clock from which the 2 us of the resend timeout run: the first frame sent into an empty window, the last
  acknowledgement or resend (R15) -/
  ackAt : Nat := 0
  deriving DecidableEq, Repr

/-- The die-to-die link and the cold-frame bridge (chapters 1 and 19). -/
structure D2d where
  /-- link up (down while VDD_CORE is off) (R17) -/
  up : Bool := false
  /-- direction logic die to cold-frame die (R15) -/
  toCold : D2dSide := {}
  /-- direction cold-frame die to logic die (R15) -/
  toLogic : D2dSide := {}
  /-- a link retrain runs (R16) -/
  retraining : Bool := false
  /-- times of the retrains of the last 1 s, us (R16) -/
  retrains : List Nat := []
  /-- accesses held by the cold-frame bridge, at most 64, in the order accepted (R480) -/
  bridge : List BridgeAcc := []
  /-- first frame of a sealed boundary received (R173) -/
  eventHigh : Nat := 0
  /-- clock of the last frame the cold-frame die discarded or NAKed, us (R139) -/
  badAt : Option Nat := none
  /-- the frames of a gauge update are on the way to the logic die (R15) -/
  gaugeDue : Bool := false
  deriving DecidableEq, Repr

/-- One CXL port of the four (two on the ORR-7708) (chapter 3). -/
structure Port where
  /-- LINK: 0 down, 1 training, 2 up, 3 disabled (R70) -/
  link : Nat := 0
  /-- ERR_CODE, 6 bits (R70) -/
  err : Nat := 0
  /-- MODE in force since the last link training, 2 bits (R71) -/
  mode : Nat := 0
  /-- WIDTH_NOW, 2 bits (R70) -/
  width : Nat := 0
  /-- SPEED_NOW, 1 bit (R70) -/
  speed : Nat := 0
  /-- IDE: 0 off, 1 secure, 2 insecure (R99) -/
  ide : Nat := 0
  /-- highest DevLoad sent in the last 1 ms, 2 bits (R95) -/
  devload : Nat := 0
  /-- clock at which it was sent, us (R95) -/
  devAt : Nat := 0
  /-- requesters seen, with the clock of their last request, us (R95) -/
  seen : Tbl Nat := []
  /-- SPDM responder state over DOE: connection, session, transcript position (R98) -/
  spdm : SpdmState := {}
  /-- IDE_KM keys: programmed set and set in use (R98) -/
  ideKeys : IdeKeys := {}
  /-- a GPF phase 2 request waits for its answer (R92) -/
  gpf : Bool := false
  /-- numbers of the uncompleted writes the waiting GPF phase 2 covers (R92) -/
  gpfSet : List Nat := []
  /-- PERST_N of the port asserted (R439) -/
  perst : Bool := false
  /-- time phase 2 of a flush was received, µs (R92) -/
  gpfAt : Nat := 0
  /-- link credits a held write keeps the port from returning (R96) -/
  credit : Nat := 0
  /-- fill of the ingress queue, percent, as last shown (R95) -/
  ingress : Nat := 0
  /-- bytes of Set QoS Control (R74) -/
  qosControl : List (BitVec 8) := []
  /-- allocated bandwidth by logical device (R74) -/
  qosAlloc : List (BitVec 8) := []
  /-- bandwidth limit by logical device (R74) -/
  qosLimit : List (BitVec 8) := []
  deriving DecidableEq, Repr

/-- The primary mailbox of one logical device or G-FAM function (chapter 3). -/
structure Mbox where
  /-- event records not cleared, oldest first (R100) -/
  events : List CxlEvent := []
  /-- event interrupt policy, five bytes (R100) -/
  evPolicy : BitVec 40 := 0#40
  /-- device timestamp set by the host (R100) -/
  timestamp : BitVec 64 := 0#64
  /-- clock when the timestamp was set, us (R100) -/
  tsSetAt : Nat := 0
  /-- alert configuration the host set (R100) -/
  alert : List (BitVec 8) := []
  /-- shutdown state (R100) -/
  shutdown : BitVec 8 := 0#8
  /-- in-flight number of the Trellis command that holds the mailbox (R47) -/
  busy : Option Nat := none
  deriving DecidableEq, Repr

/-- CXL ports, mailboxes, fabric-manager logical device (chapter 3). -/
structure Cxl where
  /-- ports 0-3 (R69) -/
  ports : Tbl Port := []
  /-- mailboxes by host identity (Issuer IDENT; fabric-manager LD at 0x1000 + port) (R100) -/
  mboxes : Tbl Mbox := []
  /-- Dirty Shutdown Count (R94) -/
  dirtyShutdowns : Nat := 0
  deriving DecidableEq, Repr

/-- One binding of a host to an allotment (chapter 3). -/
structure Binding where
  /-- host Issuer ID (R81) -/
  issuer : BitVec 16 := 0#16
  /-- ACCESS: false RO, true RW (R81) -/
  rw : Bool := false
  /-- DPA base of the reserved window (R79) -/
  dpa : Nat := 0
  /-- indexes of the extents the host accepted, rising (R78) -/
  accepted : List Nat := []
  /-- indexes of the extents the host released while a shrink or removal waits, rising (R103) -/
  released : List Nat := []
  /-- extents offered to the host since the start (R79) -/
  offered : Nat := 0
  deriving DecidableEq, Repr

/-- One allotment entry (chapters 3, 6, 8 and 15). -/
structure Allot where
  /-- KIND: false LOCAL, true MIRRORED (R75) -/
  mirrored : Bool := false
  /-- HOME: false this unit, true the twin (R75) -/
  homeTwin : Bool := false
  /-- this unit serves it (R89) -/
  serving : Bool := false
  /-- state of Table 3.4 (R86) -/
  st : AllotState := .ready
  /-- MAX_EXTENTS (R76) -/
  maxExtents : Nat := 0
  /-- extent numbers in the order added (R76) -/
  extents : List Nat := []
  /-- only the reservation of the peer's LOCAL allotment (R101) -/
  reservation : Bool := false
  /-- its bindings (R81) -/
  bindings : List Binding := []
  /-- in-flight number of the ALLOT command executing on it (R101) -/
  busy : Option Nat := none
  /-- lost 1 GiB device regions of it, unacknowledged (R88) -/
  lost : List Nat := []
  /-- 16-byte tags ALLOT_RESIZE supplied, newest first, each for the extents from an index on (R78) -/
  tags : List (Nat × List (BitVec 8)) := []
  /-- a change committed on this unit alone, owed to the peer at the next session (R101) -/
  peerDirty : Bool := false
  deriving DecidableEq, Repr

/-- Allotment, extent and binding tables (chapter 3). -/
structure Alt where
  /-- allotment entries by ID, 12 bits (R75) -/
  tab : Tbl Allot := []
  /-- ALT_EXT_TOTAL, 17 bits, set after TRAINING (R112) -/
  total : Nat := 0
  /-- windows withdrawn by forced removal: host, DPA, bytes (R82) -/
  withdrawn : List (Nat × Nat × Nat) := []
  /-- IDs whose peer reservation is to be freed at the next session (R101) -/
  owedFree : List Nat := []
  deriving DecidableEq, Repr

/-- One request in a DRAM queue (chapter 4). -/
structure DdrReq where
  /-- the model's number of the request (R113) -/
  n : Nat := 0
  /-- line number (device byte address / 64) (R113) -/
  line : Nat := 0
  /-- a write (R113) -/
  write : Bool := false
  /-- waited 400 ns (R113) -/
  urgent : Bool := false
  /-- place in the channel's order of arrival (R113) -/
  age : Nat := 0
  /-- subchannel, rank, bank group and bank (R111) -/
  bank : Nat := 0
  /-- row of the bank (R111) -/
  row : Nat := 0
  /-- column position (R111) -/
  col : Nat := 0
  deriving DecidableEq, Repr

/-- One byte lane's delays (chapter 4). -/
structure Lane where
  /-- READ_DELAY, 7 bits (R117) -/
  rd : Nat := 0
  /-- WRITE_DELAY, 7 bits (R117) -/
  wr : Nat := 0
  /-- last hardware-measured read centre, 7 bits (R122) -/
  hwRd : Nat := 0
  /-- last hardware-measured write centre, 7 bits (R122) -/
  hwWr : Nat := 0
  /-- MARGIN, 8 bits (R120) -/
  margin : Nat := 0
  /-- HOST_SET (R122) -/
  hostSet : Bool := false
  /-- REJECTED (RC) (R122) -/
  rejected : Bool := false
  /-- host value waiting for the quiescent point (read, write) (R122) -/
  pending : Option (Nat × Nat) := none
  deriving DecidableEq, Repr

/-- One DDR5 channel of the sixteen (eight on the ORR-7708) (chapter 4). -/
structure Ddr where
  /-- STATE: 0 unpopulated, 1 training, 2 active, 3 self-refresh, 4 entering or leaving (R123) -/
  st : Nat := 0
  /-- POP_ERR, 5 bits (R109) -/
  popErr : Nat := 0
  /-- DIMMS, 2 bits (R109) -/
  dimms : Nat := 0
  /-- RANKS, 3 bits (R109) -/
  ranks : Nat := 0
  /-- SPEED_NOW, 3 bits (R108) -/
  speed : Nat := 0
  /-- CAP_64G, 8 bits (R109) -/
  cap64 : Nat := 0
  /-- TEMP_MAX, 8 bits, deg C (R120) -/
  temp : Nat := 0
  /-- clock of the last completed pass, us (R120) -/
  lastPass : Nat := 0
  /-- a retraining pass runs (R120) -/
  retraining : Bool := false
  /-- MARGIN_MIN, 8 bits (R120) -/
  marginMin : Nat := 0
  /-- lanes by (subchannel, rank, lane) (R117) -/
  lanes : Tbl Lane := []
  /-- read queues, oldest first, 64 entries a subchannel (R113) -/
  rdq : List DdrReq := []
  /-- write queues, oldest first, 64 entries a subchannel (R113) -/
  wrq : List DdrReq := []
  /-- refresh intervals postponed (positive) by rank (R116) -/
  postponed : Tbl Nat := []
  /-- refresh intervals pulled in by rank (R116) -/
  pulledIn : Tbl Nat := []
  /-- MR4 reports the range above 85 deg C: tREFI halved (R116) -/
  hot : Bool := false
  /-- open row (granule x 2 + subchannel) by bank (R113) -/
  openRows : Tbl Nat := []
  /-- clock at which the scrub pass began, us (R129) -/
  scrubFrom : Nat := 0
  /-- next channel-local granule to scrub (R129) -/
  scrubAt : Nat := 0
  /-- BEHIND (R129) -/
  behind : Bool := false
  /-- clocks of the corrected errors of each device in the last 24 h, us (R127) -/
  ceDev : Tbl (List Nat) := []
  /-- DDRn_ECC_ADDR line address, [41:6] (R128) -/
  ueLine : Nat := 0
  /-- granule whose CRC entry is being rebuilt (R134) -/
  rebuild : Option Nat := none
  /-- requests that have arrived (R113) -/
  arrived : Nat := 0
  /-- requests the ledger holds for a full queue or a channel in self-refresh, oldest first (R115) -/
  wait : List DdrReq := []
  /-- subchannels whose write queue drains (R113) -/
  drain : List Nat := []
  /-- time of a rank's last refresh interval, µs, by rank (R116) -/
  refAt : Tbl Nat := []
  /-- bank of its group that a rank's next same-bank refresh takes, by rank (R116) -/
  nextBank : Tbl Nat := []
  /-- refresh mode taken over at training: same-bank (R116) -/
  sameBank : Bool := true
  /-- corrected error threshold taken over at training (R127) -/
  ceThresh : Nat := 64
  /-- DIMM sensor readings, °C (R120) -/
  temps : List Nat := []
  /-- DIMM sensor readings at the last pass, °C (R120) -/
  passTemps : List Nat := []
  /-- lanes the pass has probed (R120) -/
  probed : List Nat := []
  /-- lane delays in cold-frame SRAM, saved at self-refresh entry (R123) -/
  saved : Tbl Lane := []
  /-- in STATE 4: leaving self-refresh, not entering it (R123) -/
  leaving : Bool := false
  /-- time of the last scrub read, µs (R129) -/
  scrubLast : Nat := 0
  /-- the scrub chunk issued as a cutting (R272) -/
  scrubCut : Option Nat := none
  /-- patrol scrub passes ended (R272) -/
  scrubPass : Nat := 0
  /-- time of the last reading of the DIMM temperatures (R120) -/
  polledAt : Option Nat := none
  deriving DecidableEq, Repr

/-- Host DRAM content and the reserved-region tables (chapters 3, 4 and 5). -/
structure Mem where
  /-- DRAM content by device byte address (extent x 2^28 + offset), canonical; unlisted reads 0x00 (R102) -/
  cells : List Host.Cell := []
  /-- poisoned lines, rising (R93) -/
  poison : List Nat := []
  /-- lines whose DRAM copy is uncorrectable and not yet written back as poisoned, rising (R128) -/
  ueLines : List Nat := []
  /-- 1 GiB regions with a reported uncorrectable error (R128) -/
  ueRegions : List Nat := []
  /-- granule CRC table, 64 bits a granule; unlisted 0 (R132) -/
  crc : Tbl (BitVec 64) := []
  /-- granules whose later writes wait for a rebuild (R134) -/
  rebuildWaits : List Nat := []
  deriving DecidableEq, Repr

/-- A write waiting at the port for the exposure gate or a fetch (chapters 3 and 6). -/
structure HeldWrite where
  /-- the model's number of the write (R96) -/
  n : Nat := 0
  /-- port, requester, address, data, byte enables, poison (R96) -/
  req : MemReq := {}
  /-- clock at which it began to wait, us (R96) -/
  since : Nat := 0
  /-- a read (priority fetches only) (R186) -/
  read : Bool := false
  /-- device line it names (R250) -/
  line : Nat := 0
  /-- a record of the peer (held by a comparison only) (R260) -/
  twin : Bool := false
  /-- its completion is never sent: link down, or a flush deadline passed (R260) -/
  gone : Bool := false
  /-- waits at the exposure gate (R145) -/
  gate : Bool := false
  /-- what the DRAM access of its line found, as the request gave it (R133) -/
  x : LineIn := {}
  deriving DecidableEq, Repr

/-- Drip policy in force (chapter 5). -/
structure Policy where
  /-- PRIORITY: 0 exposure first, 1 wear first (R151) -/
  priority : Nat := 0
  /-- URGENT_PCT (R151) -/
  urgent : Nat := 80
  /-- THR1_PCT (R151) -/
  thr1 : Nat := 90
  /-- THR2_PCT (R151) -/
  thr2 : Nat := 95
  /-- curve points: fill in 0.01%, interval in ms (R151) -/
  curve : List (Nat × Nat) := [(0,60000),(2000,45000),(4000,20000),(6000,5000),(7000,1000),(8000,0)]
  /-- image version of the policy loaded (R159) -/
  version : Nat := 0
  deriving DecidableEq, Repr

/-- An active ripeness hint of one entry of DRIP_POLICY_SET action 1 (chapter 5). -/
structure Hint where
  /-- first granule index within the allotment (R159) -/
  first : Nat := 0
  /-- granules (R159) -/
  count : Nat := 0
  /-- allotment the hint names (R159) -/
  allot : Nat := 0
  /-- 1 ripe now, 2 defer (R159) -/
  kind : Nat := 0
  /-- lifetime, ms (R159) -/
  lifeMs : Nat := 0
  /-- clock when it was loaded, us (R159) -/
  loadedAt : Nat := 0
  deriving DecidableEq, Repr

/-- Dirty tracking, exposure limit, stages, drip, wear governor (chapter 5). -/
structure Drp where
  /-- dirty bitmap and in-flight table: granules not CLEAN, by host granule (R137) -/
  gran : Tbl GranState := []
  /-- cold-frame copy of the region summary: regions set (R138) -/
  summary : List Nat := []
  /-- L in granules, 28 bits (DRP_LIMIT.GRANULES) (R143) -/
  limit : Nat := 0
  /-- a gauge update has been computed since TRAINING (R143) -/
  limitSet : Bool := false
  /-- DRP_LIMIT.CAUSE (R141) -/
  limitCause : Nat := 0
  /-- EXPOSURE_FLOOR raised (R142) -/
  floorOn : Bool := false
  /-- DRP_ENERGY, J (R140) -/
  eAvail : Nat := 0
  /-- E_fixed in use, J (15 bits) (R140) -/
  eFixed : Nat := 650
  /-- e_byte in use, mJ/GiB (16 bits) (R140) -/
  eByte : Nat := 3400
  /-- LEARNED of DRP_EBYTE (R140) -/
  eLearned : Bool := false
  /-- harvest_cap in granules as the flash back-end reports it (R141) -/
  harvestCap : Nat := 0
  /-- control stage, 0-4 (R145) -/
  stage : Nat := 0
  /-- clock since which fill was at least THR1_PCT at every evaluation, us (R145) -/
  thr1Since : Option Nat := none
  /-- clock since which fill was at least THR2_PCT at every evaluation, us (R145) -/
  thr2Since : Option Nat := none
  /-- clock since which the present stage's condition was false at every evaluation, us (R146) -/
  falseSince : Option Nat := none
  /-- EXCESS: exposure above L (R147) -/
  excess : Bool := false
  /-- clock at which the present excess began, us (R147) -/
  excessAt : Nat := 0
  /-- drip commits since the excess began not yet used by an admission (R147) -/
  netCredit : Nat := 0
  /-- TWIN_BOUND: the twin is in EXPOSURE_BOUND (R148) -/
  twinBound : Bool := false
  /-- writes held at the ports, in arrival order (R96) -/
  held : List HeldWrite := []
  /-- a write waited at the gate since the last evaluation (R145) -/
  heldSeen : Bool := false
  /-- the model's count of host requests (R96) -/
  nextWrite : Nat := 0
  /-- requesters that dirtied a CLEAN granule, with the clock, us (R145) -/
  dirtiers : Tbl Nat := []
  /-- recency table, 16-bit stamps by hash; unlisted 0xFFFF (old) (R149) -/
  recency : Tbl Nat := []
  /-- drip policy in force (R151) -/
  policy : Policy := {}
  /-- active ripeness hints, at most 4,096 (R154) -/
  hints : List Hint := []
  /-- drip cursor: region to resume from (R152) -/
  cursor : Nat := 0
  /-- wear bucket content, bytes (may be negative) (R155) -/
  bucket : Int := 0
  /-- B_spent, 64 bits (DRP_WEAR_SPENT) (R155) -/
  spent : Nat := 0
  /-- operating seconds at image creation (R155) -/
  origin : Option Nat := none
  /-- B_total, bytes, from the fitted flash (R155) -/
  bTotal : Nat := 0
  /-- operating seconds and B_spent of the last 30 days, newest first (R157) -/
  days : List (Nat × Nat) := []
  /-- R_30, bytes per second (R157) -/
  r30 : Nat := 0
  /-- ENDURANCE_AHEAD raised (R157) -/
  ahead : Bool := false
  /-- WEAR_OVERDRAWN raised (R156) -/
  overdrawn : Bool := false
  /-- bytes of drip commits since the last second (RATE_MBS) (R152) -/
  committed : Nat := 0
  /-- DRP_DRIP.RATE_MBS, 16 bits (R152) -/
  rate : Nat := 0
  /-- orderly off: the gate applies against a limit of 0 (R148) -/
  offDrain : Bool := false
  /-- number of the drip cutting that put a granule in flight, by granule (R137) -/
  dripN : Tbl Nat := []
  /-- policy image that takes effect at the next dispatch round (R159) -/
  nextPolicy : Option Policy := none
  deriving DecidableEq, Repr

/-- A harvest stripe issued and not ended (chapter 6). -/
structure HStripe where
  /-- stripe number (R172) -/
  n : Nat := 0
  /-- harvest superblock (R172) -/
  sb : Nat := 0
  /-- granules with the flash address of each (R224) -/
  grans : List (Nat × Nat) := []
  /-- granules read before their channel entered self-refresh (R125) -/
  read : List Nat := []
  /-- targets whose program was refused with NOT_ERASED (R176) -/
  refused : List Nat := []
  /-- of a header stripe: index of its first page in the header (R172) -/
  header : Option Nat := none
  deriving DecidableEq, Repr

/-- A harvest in progress (chapter 6). -/
structure HarvestRun where
  /-- highest-ranked cause seen since the cut was accepted (R162) -/
  cause : Cause := .none
  /-- HRV_STATUS.PHASE 1-5 (R169) -/
  phase : Nat := 0
  /-- granules still to be put into a stripe, in plan order (R174) -/
  plan : List Nat := []
  /-- number of the next stripe to issue (R172) -/
  next : Nat := 0
  /-- stripes issued and not ended (R173) -/
  issued : List HStripe := []
  /-- stripes sealed above the boundary (R173) -/
  sealedOut : List Nat := []
  /-- sealed boundary as the cold-frame die last received it (R173) -/
  coldBound : Option Nat := none
  /-- sealed boundary B (R173) -/
  bound : Option Nat := none
  /-- granules programmed, with their stripe (R173) -/
  saved : List (Nat × Nat) := []
  /-- granules not saved for want of room (R176) -/
  unsaved : Nat := 0
  /-- clock of the first data stripe, us (R31) -/
  dataAt : Nat := 0
  /-- data stripes issued (R179) -/
  data : Nat := 0
  /-- power-cycle count at the cut (R179) -/
  powerCycle : BitVec 32 := 0#32
  /-- operating seconds at the cut (R179) -/
  opSeconds : Nat := 0
  /-- pair epoch at the cut, 0 unpaired (R179) -/
  epoch : Nat := 0
  /-- detection to cut, ns (R165) -/
  cutNs : Nat := 0
  /-- last sequence of each of the 64 slices (R179) -/
  cutSeq : List (BitVec 64) := []
  /-- region summary copy at the cut (R178) -/
  summary : List Nat := []
  /-- harvest set at the cut: the dirty snapshot of the header (R172) -/
  snapshot : List Nat := []
  /-- granules requeued, which stand at the end of their tier (R174) -/
  again : List Nat := []
  /-- flash address of the metadata of step 12 (R179) -/
  metaAddr : Option Nat := none
  /-- header pages put into stripes (R172) -/
  headPages : Nat := 0
  deriving DecidableEq, Repr

/-- A seal record (Table 6.6). -/
structure Seal where
  /-- KIND (R179) -/
  kind : Nat := 0
  /-- CAUSE (R179) -/
  cause : Nat := 0
  /-- SEAL_SEQ (R179) -/
  seq : Nat := 0
  /-- POWER_CYCLE (R179) -/
  powerCycle : BitVec 32 := 0#32
  /-- UNSAVED (R179) -/
  unsaved : Nat := 0
  /-- regions of the granules counted in UNSAVED (from the metadata) (R181) -/
  unsavedRegions : List Nat := []
  /-- OP_SECONDS (R179) -/
  opSeconds : Nat := 0
  /-- PAIR_EPOCH (R179) -/
  epoch : Nat := 0
  /-- GRANULES (R179) -/
  granules : Nat := 0
  /-- STRIPES (R179) -/
  stripes : Nat := 0
  /-- CUT_NS (R179) -/
  cutNs : Nat := 0
  /-- CHANNELS mask (R179) -/
  channels : Nat := 0
  /-- DIMMS (R179) -/
  dimms : Nat := 0
  /-- RANKS (R179) -/
  ranks : Nat := 0
  /-- CAP_64G (R179) -/
  cap64 : Nat := 0
  /-- GEOMETRY (R179) -/
  geometry : BitVec 64 := 0#64
  /-- META_ADDR (R179) -/
  metaAddr : Nat := 0
  /-- CUT_SEQ (R179) -/
  cutSeq : List (BitVec 64) := []
  /-- TAG: CMAC over bytes 0–4,079 (R179) -/
  tag : List (BitVec 8) := []
  /-- HRV registers as the metadata keeps them: CUT_NS, LINKDOWN_NS, LAST_GRANULES, LAST_TIME_US, the four rates
  (R200) -/
  regs : List Nat := []
  deriving DecidableEq, Repr

/-- A loss record (chapter 6). -/
structure LossRec where
  /-- B (R178) -/
  bound : Option Nat := none
  /-- header stripes (R178) -/
  header : Nat := 0
  /-- region summary copy at the cut (R178) -/
  regions : List Nat := []
  /-- RUN_SEQ of the run it closes (R356) -/
  runSeq : Nat := 0
  /-- POWER_CYCLE (R356) -/
  powerCycle : BitVec 32 := 0#32
  /-- CAUSE (R356) -/
  cause : Nat := 0
  /-- CRC-32C of bytes 0–2,079 (R178) -/
  crc : BitVec 32 := 0#32
  deriving DecidableEq, Repr

/-- The HELD record in cold-frame SRAM (chapter 6). -/
structure HeldRec where
  /-- SEAL_SEQ (R191) -/
  sealSeq : Nat := 0
  /-- cause of the harvest (R191) -/
  cause : Nat := 0
  /-- level of MR_N at entry (R191) -/
  mrHigh : Bool := false
  /-- populated channel mask (R191) -/
  channels : Nat := 0
  /-- DIMMs and ranks of each populated channel (R191) -/
  pop : List (Nat × Nat) := []
  /-- lane delays saved at self-refresh entry (R191) -/
  lanes : List (Tbl Lane) := []
  /-- mask of HOLD slots (R191) -/
  holdSlots : Nat := 0
  /-- RAIL_EXCURSION (R191) -/
  excursion : Bool := false
  /-- DRST_SEEN (R191) -/
  drst : Bool := false
  /-- CRC-32C of the fields (R191) -/
  crc : BitVec 32 := 0#32
  deriving DecidableEq, Repr

/-- A priority fetch running or waiting (chapter 6). -/
structure Fetch where
  /-- host granule (R186) -/
  gran : Nat := 0
  /-- flash channel of the copy (R186) -/
  chan : Nat := 0
  /-- false: waits for one of the 64 places (R186) -/
  running : Bool := false
  /-- a warm verification rather than a flash fetch (R192) -/
  verify : Bool := false
  /-- clock at arrival, us (R186) -/
  since : Nat := 0
  /-- accesses waiting, in arrival order (R186) -/
  waiters : List HeldWrite := []
  deriving DecidableEq, Repr

/-- A full-image save running (chapter 6). -/
structure FullSave where
  /-- granules still to copy, ascending (R194) -/
  left : List Nat := []
  /-- granules issued and not committed, ascending (R194) -/
  out : List Nat := []
  /-- COPIED (R198) -/
  copied : Nat := 0
  /-- ZERO (R198) -/
  zero : Nat := 0
  /-- POISONED (R198) -/
  poisoned : Nat := 0
  /-- clock at admission (R198) -/
  since : Nat := 0
  /-- run in place of the orderly-off drain (R195) -/
  forOff : Bool := false
  deriving DecidableEq, Repr

/-- Harvest, seal, replant (chapter 6). -/
structure Hrv where
  /-- harvest in progress (R169) -/
  run : Option HarvestRun := none
  /-- seal records in the flash, newest first (the seal in force first) (R179) -/
  seals : List Seal := []
  /-- run record OPEN in the embedded flash (R180) -/
  runOpen : Bool := false
  /-- loss record in the embedded flash (R178) -/
  loss : Option LossRec := none
  /-- HELD record (R191) -/
  heldRec : Option HeldRec := none
  /-- the HELD record as the TRAINING under way uses it, taken as that record is cleared (R191) -/
  warmRec : Option HeldRec := none
  /-- seconds spent in HELD (R25) -/
  heldSeconds : Nat := 0
  /-- a drip image exists in the flash (R181) -/
  imageDrip : Bool := false
  /-- HRV_STATUS.PHASE outside a harvest (R184) -/
  phase : Nat := 0
  /-- HRV_STATUS.REPLANT (R185) -/
  replant : Bool := false
  /-- HRV_STATUS.WARM (R192) -/
  warm : Bool := false
  /-- HRV_STATUS.SHORT (R176) -/
  short : Bool := false
  /-- granules not yet restored, or not yet verified when warm, ascending (R183) -/
  todo : List Nat := []
  /-- priority fetches, in arrival order (R186) -/
  fetches : List Fetch := []
  /-- HRV_LOSS.ROW (R182) -/
  row : Nat := 0
  /-- HRV_LOSS.REGIONS (R182) -/
  lostRegions : Nat := 0
  /-- harvest tiers loaded, by allotment (R197) -/
  plan : Tbl Nat := []
  /-- standing replant order: rank by allotment (R199) -/
  order : Tbl Nat := []
  /-- host-assisted replant ranges queued (allotment, first, count) (R199) -/
  ranges : List (Nat × Nat × Nat) := []
  /-- full-image save running (R194) -/
  save : Option FullSave := none
  /-- HRV_CUT.CUT_NS (R165) -/
  cutNs : Nat := 0
  /-- HRV_CUT.LINKDOWN_NS (R168) -/
  linkDownNs : Nat := 0
  /-- HRV_LAST_GRANULES (R200) -/
  lastGranules : Nat := 0
  /-- HRV_LAST_TIME_US (R200) -/
  lastTimeUs : Nat := 0
  /-- priority fetches in the last second (R186) -/
  fetchCount : Nat := 0
  /-- longest access wait, us (R186) -/
  fetchMax : Nat := 0
  /-- HRV_HARV_RATE, HARV_FLOOR, REPL_RATE, REPL_FLOOR, MB/s (R31) -/
  rates : List Nat := [0,0,0,0]
  /-- HRV_CFG.EARLY is read from its register; whether extents are offered now (R185) -/
  early : Bool := true
  /-- last step of Table 6.8 that ended, 0 before the first (R184) -/
  trainStep : Nat := 0
  /-- AON_PF_CFG.LAST_SOURCE (R163) -/
  pfSource : Nat := 0
  /-- destination chosen at the seal (R162) -/
  inputGoodAtSeal : Bool := false
  /-- destination of the harvest chosen at the harvest-complete checkpoint (R162) -/
  dest : DevState := .off
  /-- HOLD_MAX_S in force in HELD, in seconds: taken at the entry and at each gauge update (R25) -/
  holdMax : Nat := 0
  /-- replant and verification cuttings outstanding, in issue order: number and granules (R187) -/
  cuts : List (Nat × List Nat) := []
  /-- clock when the background restore began, us (R200) -/
  replantAt : Nat := 0
  /-- granules restored by this replant (R200) -/
  restored : Nat := 0
  /-- clock by which the CXL links are down after the cut, us (R168) -/
  downBy : Nat := 0
  /-- flash addresses of pages whose checks failed as step 6 read the unsealed harvest (R181) -/
  unread : List Nat := []
  deriving DecidableEq, Repr

/-- One flash channel engine of the thirty-two (sixteen) (chapter 7). -/
structure Fce where
  /-- STATE: 0 unpopulated, 1 training, 2 active, 3 failed (R201) -/
  st : Nat := 0
  /-- ERR_CODE, 5 bits (R203) -/
  err : Nat := 0
  /-- TARGETS, 5 bits (R203) -/
  targets : Nat := 0
  /-- RATE_NOW, 2 bits (R201) -/
  rate : Nat := 0
  /-- FAILED mask, 16 bits (R233) -/
  failed : Nat := 0
  deriving DecidableEq, Repr

/-- One NAND target (chapter 7). -/
structure Target where
  /-- unique ID (R203) -/
  uid : Nat := 0
  /-- good blocks (R217) -/
  good : Nat := 0
  /-- spare blocks left (R231) -/
  spares : Nat := 0
  /-- initial spare count (R217) -/
  spares0 : Nat := 0
  /-- status polls failed in a row (R233) -/
  polls : Nat := 0
  /-- failed target (R233) -/
  failed : Bool := false
  /-- temperature at the last DQ training, deg C (R201) -/
  trainTemp : Int := 0
  /-- blocks marked bad by the manufacturer (R216) -/
  bad : List Nat := []
  /-- its temperature as last read, °C (R229) -/
  temp : Int := 0
  deriving DecidableEq, Repr

/-- A block whose role or erase state differs from its superblock's (chapter 7). -/
structure Block where
  /-- role of its own: spare, retired, seal; none: the superblock's (R216) -/
  role : Option BlockRole := none
  /-- superblock it stands in for a retired member (R231) -/
  sb : Option Nat := none
  /-- its erase-state bits are cleared (R211) -/
  cleared : Bool := false
  /-- reads since the last erase (R229) -/
  reads : Nat := 0
  /-- sticky retry level, 4 bits (R208) -/
  sticky : Nat := 0
  /-- queued for erase after its valid copies move (R212) -/
  queued : Bool := false
  /-- to retire once its live copies are moved (R231) -/
  retireWait : Bool := false
  /-- erase count, saturating at 65,535 (R219) -/
  erases : Nat := 0
  deriving DecidableEq, Repr

/-- A superblock: one block of each target, by default of its own index (chapter 7). -/
structure Sb where
  /-- role of its members (R216) -/
  role : BlockRole := .tlcFree
  /-- in the erased list: the erase-state bits of its pages not programmed since are set (R211) -/
  clean : Bool := false
  /-- pSLC stripes, or TLC pages, programmed since its erase (R223) -/
  used : Nat := 0
  /-- targets it lacks (short superblock) (R231) -/
  missing : List Nat := []
  /-- commit sequence when it was opened (R228) -/
  born : Nat := 0
  /-- erase count, saturating at 65,535 (R219) -/
  erases : Nat := 0
  deriving DecidableEq, Repr

/-- A programmed page: metadata of Table 7.4 and the content it holds (chapter 7). -/
structure Page where
  /-- GRANULE (R205) -/
  gran : Nat := 0
  /-- ALLOT (R205) -/
  allot : Nat := 0
  /-- KIND (R205) -/
  kind : Nat := 0
  /-- GEN (R205) -/
  gen : Nat := 0
  /-- CRC (R206) -/
  crc : BitVec 32 := 0#32
  /-- SEAL_SEQ (R205) -/
  sealSeq : Nat := 0
  /-- STRIPE (R205) -/
  stripe : Nat := 0
  /-- COMMIT (R205) -/
  commit : Nat := 0
  /-- plaintext content of the granule, canonical, by offset in the granule (R204) -/
  cells : List Host.Cell := []
  /-- lines of the granule stored as poisoned (0-255) (R128) -/
  poison : List Nat := []
  /-- FORMAT (R205) -/
  format : Nat := 1
  /-- META_CRC (R205) -/
  metaCrc : BitVec 32 := 0#32
  /-- operating seconds when it was programmed (R229) -/
  born : Nat := 0
  deriving DecidableEq, Repr

/-- A granule map entry (Table 7.7). -/
structure MapEnt where
  /-- KIND: 0 no copy, 1 TLC, 2 pSLC, 3 copy lost (R218) -/
  kind : Nat := 0
  /-- GEN, 8 bits (R218) -/
  gen : Nat := 0
  /-- CHANNEL, TARGET, PLANE, BLOCK, PAGE: bits [53:18] of the entry (R218) -/
  addr : Nat := 0
  deriving DecidableEq, Repr

/-- A granule handed to the flash engines and not yet programmed or journaled (chapter 7). -/
structure Prog where
  /-- host granule (R214) -/
  gran : Nat := 0
  /-- drip, move, full save, flush, recopy (R215) -/
  why : ProgWhy := .drip
  /-- number of the cutting that read it (R160) -/
  n : Nat := 0
  /-- map entry a move was issued against (R227) -/
  src : MapEnt := {}
  /-- MOVING mark: set for a source in DRAM, cleared by any write to the granule (R227) -/
  moving : Bool := false
  /-- the move's source is in DRAM (R227) -/
  dram : Bool := false
  /-- the page to write, as read at the cutting (R214) -/
  page : Page := {}
  /-- where its program ended successfully (R214) -/
  addr : Option Nat := none
  /-- commit sequence once its journal page is programmed (R219) -/
  seq : Option Nat := none
  /-- clock when the granule was handed over, us (R214) -/
  since : Nat := 0
  /-- the flash read of a move has ended well (R227) -/
  readOk : Bool := false
  deriving DecidableEq, Repr

/-- A journal record (Table 7.8). -/
structure JRec where
  /-- SUBJECT (R218) -/
  subject : Nat := 0
  /-- VALUE (R218) -/
  value : Nat := 0
  /-- TYPE (R218) -/
  typ : Nat := 0
  /-- its sequence (R219) -/
  seq : Nat := 0
  /-- clock when it was written, us (CKPT_AGE_S) (R218) -/
  born : Nat := 0
  deriving DecidableEq, Repr

/-- A seal location: two blocks of one target, used in turn (R222). -/
structure SealLoc where
  /-- target (R222) -/
  tgt : Nat := 0
  /-- first block (R222) -/
  blkA : Nat := 0
  /-- second block (R222) -/
  blkB : Nat := 0
  /-- the second block is in use (R222) -/
  cur : Bool := false
  /-- pages programmed in the block in use (R222) -/
  used : Nat := 0
  deriving DecidableEq, Repr

/-- Flash channel engines and translation layer (chapter 7). -/
structure Ftl where
  /-- flash channel engines (R201) -/
  fces : Tbl Fce := []
  /-- targets by channel x 16 + volume (R202) -/
  targets : Tbl Target := []
  /-- blocks by channel, target, block (R216) -/
  blocks : Tbl Block := []
  /-- superblocks (R216) -/
  sbs : Tbl Sb := []
  /-- programmed pages by flash address (R205) -/
  pages : Tbl Page := []
  /-- granule map; unlisted KIND 0 (R218) -/
  map : Tbl MapEnt := []
  /-- granules between cutting and commit, oldest first (R219) -/
  progs : List Prog := []
  /-- records of the journal page being filled (R218) -/
  jbuf : List JRec := []
  /-- journal since the oldest record no segment holds, oldest first (R220) -/
  journal : List JRec := []
  /-- checkpoint segments: COMMIT of the newest copy (R220) -/
  segs : Tbl Nat := []
  /-- last commit sequence, 64 bits (R219) -/
  commitSeq : Nat := 0
  /-- filler pages the wordlines being filled take (R214) -/
  fill : Nat := 0
  /-- operating seconds at the last harvest rotation (R229) -/
  rotatedAt : Nat := 0
  /-- clock of the first record of the journal page being filled, us (R218) -/
  jbufAt : Option Nat := none
  /-- open TLC superblocks by stream (3 for moves) (R228) -/
  openDrip : Tbl Nat := []
  /-- GC_ACTIVE (R228) -/
  gc : Bool := false
  /-- superblock being emptied (R228) -/
  victim : Option Nat := none
  /-- SPARE_LOW raised (R232) -/
  spareLow : Bool := false
  /-- SPARE_OUT raised (R232) -/
  spareOut : Bool := false
  /-- FTL_RETIRED.GROWN (R231) -/
  grown : Nat := 0
  /-- FTL_RETIRED.FROM_HRV (R231) -/
  fromHrv : Nat := 0
  /-- drip stream by allotment (R234) -/
  streams : Tbl Nat := []
  /-- GC_LOW in force (R234) -/
  gcLow : Nat := 0x10
  /-- WL_DELTA in force (R234) -/
  wlDelta : Nat := 0x00C8
  /-- victim rule in force (R234) -/
  victimRule : Nat := 0
  /-- host values waiting for the quiescent point (GC_LOW, WL_DELTA, rule) (R234) -/
  hostWear : Option (Nat × Nat × Nat) := none
  /-- population record of the locator: channels, targets per channel, part type (R221) -/
  popRec : Option FlashPop := none
  /-- locator valid (R221) -/
  locatorOk : Bool := true
  /-- read-retry table image loaded (R202) -/
  retryTable : Option RetryTable := none
  /-- header_stripes fixed at creation and at each start (R172) -/
  headerStripes : Nat := 0
  /-- pSLC bytes of one full-width stripe (R223) -/
  stripeW : Nat := 0
  /-- superblocks of the population: good blocks of a target (R216) -/
  sbs0 : Nat := 0
  /-- planes of a target (R202) -/
  planes : Nat := 0
  /-- TLC pages of a block on one plane (R203) -/
  tlcPages : Nat := 0
  /-- rated program/erase cycles of the part type (R202) -/
  rated : Nat := 0
  /-- median pSLC program time, us (R226) -/
  progUs : Nat := 0
  /-- median page read time, us (R31) -/
  readUs : Nat := 0
  /-- stripes of a harvest superblock (R223) -/
  stripesPerSb : Nat := 0
  /-- FTL_WA.FREE_BW_MBS (R228) -/
  freeBw : Nat := 0
  /-- FTL_WA.WA_24H (R230) -/
  wa24 : Nat := 0x64
  /-- the two seal locations (R222) -/
  sealLocs : List SealLoc := []
  /-- map entries as the newest copy of each checkpoint segment holds them; unlisted KIND 0 (R220) -/
  segMap : Tbl MapEnt := []
  /-- superblock whose data wear levelling moves (R229) -/
  level : Option Nat := none
  deriving DecidableEq, Repr

/-- One Exsor sublink of the four (two) (chapter 8). -/
structure Sublink where
  /-- STATE of Table 8.4 (R241) -/
  st : Nat := 0
  /-- times of the trainings of the last 60 s, us (R241) -/
  trains : List Nat := []
  /-- in DOWN, waiting 100 ms before training again (R241) -/
  waitRetrain : Bool := false
  /-- next SEQ to send, 12 bits (R245) -/
  nextSeq : Nat := 0
  /-- SEQ expected, 12 bits (R245) -/
  expect : Nat := 0
  /-- SEQ values sent and unacknowledged, oldest first, at most 512 (R245) -/
  replay : List (Nat × List (BitVec 8)) := []
  /-- replays in a row of the oldest flit without progress (R242) -/
  replays : Nat := 0
  /-- good sequenced flits not yet acknowledged (ACK after 64) (R245) -/
  good : Nat := 0
  /-- discarding flits until the NAKed SEQ arrives (R245) -/
  skipping : Bool := false
  /-- records and messages of the open integrity group, held until its tag verifies (R246) -/
  group : List LinkItem := []
  /-- sequenced flits sent under the current key (R246) -/
  txCount : Nat := 0
  /-- sequenced flits received under the current key (R246) -/
  rxCount : Nat := 0
  /-- peer's groups use the rekeyed session (KEY_SWITCH received) (R248) -/
  rxNewKey : Bool := false
  /-- records this unit may still send (R252) -/
  credit : Nat := 0
  /-- the peer's first grant has arrived (R252) -/
  first : Bool := false
  /-- this unit's first grant has been sent (R252) -/
  given : Bool := false
  /-- numbers of the P = 1 records sent and not yet covered by a ROOM, rising (R252) -/
  pSent : List Nat := []
  /-- the peer's REHOME named it: its records not accepted are to be sent on other sublinks (R242) -/
  rehome : Bool := false
  /-- records sent since the session opened (R249) -/
  sent : Nat := 0
  /-- records of this unit the peer accepted (THROUGH) (R249) -/
  acked : Nat := 0
  /-- records sent and not accepted, oldest first (R242) -/
  unacc : List MirRec := []
  /-- peer records accepted since the session opened (R252) -/
  accepted : Nat := 0
  /-- records granted to the peer and not yet received (R252) -/
  granted : Nat := 0
  /-- peer records accepted and not yet applied, in order (R253) -/
  waiting : List MirRec := []
  /-- CUT_MARK epoch received on it (R260) -/
  marked : Option Nat := none
  /-- records that wait and came before that CUT_MARK (R260) -/
  ahead : Nat := 0
  /-- THROUGH of the peer's HARVEST notice (R255) -/
  through : Option Nat := none
  /-- FEC_CORR, 16 bits (R240) -/
  fec : Nat := 0
  /-- session ID under which this unit sends on it (R247) -/
  txKey : Nat := 0
  /-- flits that wait for room in the replay buffer: TYPE and body (R245) -/
  txq : List (Nat × List (BitVec 8)) := []
  /-- clock of the entry to STATE, us (R241) -/
  stAt : Nat := 0
  /-- clock of the last good flit, us (R242) -/
  goodAt : Nat := 0
  /-- clock since which flits are unacknowledged without progress, us (R245) -/
  ackAt : Nat := 0
  /-- the lane and polarity that each receive lane carries (R239) -/
  order : List (Nat × Bool) := []
  /-- the sublink number its markers name (R239) -/
  peerSub : Nat := 0
  /-- symbols corrected in the second under way (R240) -/
  fecNow : Nat := 0
  /-- clock of the start of that second, us (R240) -/
  fecAt : Nat := 0
  deriving DecidableEq, Repr

/-- A tally comparison announced (chapter 8). -/
structure Compare where
  /-- E (R260) -/
  epoch : Nat := 0
  /-- first region (R260) -/
  first : Nat := 0
  /-- regions (R260) -/
  count : Nat := 0
  /-- in-flight number of the TALLY_COMPARE that started it (R262) -/
  cmd : Option Nat := none
  /-- this unit's tick E has passed (writes are held) (R260) -/
  marked : Bool := false
  /-- tallies captured, by region (R260) -/
  mine : Tbl (BitVec 64) := []
  /-- tallies received, by region (R261) -/
  peer : Tbl (BitVec 64) := []
  /-- result by region: 0 match, 1 differ, 2 NOT_COMPARABLE, 3 not a mirror region (R262) -/
  result : Tbl Nat := []
  /-- captured or abandoned (R260) -/
  done : Bool := false
  /-- clock of its tick E, us (R260) -/
  tickAt : Nat := 0
  /-- the tally comparison cutting that has not yet ended (R272) -/
  cutN : Option Nat := none
  deriving DecidableEq, Repr

/-- A twin commit in progress (chapter 8). -/
structure TableTx where
  /-- commit ID (R256) -/
  id : Nat := 0
  /-- this unit initiates (R256) -/
  mine : Bool := false
  /-- what is committed: entry change, delete, bind, reservation, activation (R256) -/
  kind : TxKind := .entry
  /-- allotment ID (R256) -/
  allot : Nat := 0
  /-- entry as it will stand (R256) -/
  newEntry : Allot := {}
  /-- 0 prepare, 1 prepared, 2 commit, 3 abort, 4 prepared before the link was lost (R256) -/
  phase : Nat := 0
  /-- tick E of the commit (R256) -/
  epoch : Nat := 0
  /-- in-flight number of the command (R256) -/
  cmd : Option Nat := none
  /-- bindings that go are forced removals (R256) -/
  force : Bool := false
  /-- status the command ends with once the change is applied (R256) -/
  status : Nat := 0
  deriving DecidableEq, Repr

/-- Exsor link, pairing, failover, resync (chapter 8). -/
structure Exl where
  /-- a pairing record exists (R236) -/
  paired : Bool := false
  /-- peer serial number of the pairing record (R236) -/
  peerRec : Nat := 0
  /-- the sealed pair secret, as a handle for the free key material (R236) -/
  secret : Nat := 0
  /-- next session ID of the reserved block, 32 bits (R247) -/
  sessNext : Nat := 0
  /-- allotment IDs the pairing record reserves for the peer (R75) -/
  reserved : List Nat := []
  /-- EXL_STATUS.LINK (R242) -/
  link : Nat := 0
  /-- a session is open (R247) -/
  session : Bool := false
  /-- session ID in force (R247) -/
  sessionId : BitVec 32 := 0#32
  /-- clock of the last key change, us (R248) -/
  sessionAt : Nat := 0
  /-- a group tag failed: no record is sent until the link has rekeyed (R246) -/
  mustRekey : Bool := false
  /-- rekey in progress: new session ID and switches seen (R248) -/
  rekey : Option (Nat × Nat) := none
  /-- peer's HELLO of this training (R247) -/
  hello : Option HelloMsg := none
  /-- the HELLO this unit sent in this training (R247) -/
  mine : HelloMsg := {}
  /-- the peer's PROOF of this training verified (R247) -/
  proved : Bool := false
  /-- EXL_PEER_SERIAL (R247) -/
  peerSerial : BitVec 64 := 0#64
  /-- EXL_STATUS.ERR_CODE (R247) -/
  err : Nat := 0
  /-- sublinks (R239) -/
  subs : Tbl Sublink := []
  /-- EXL_PAYLOAD_TX, 64 bits (R31) -/
  txBytes : Nat := 0
  /-- EXL_PAYLOAD_RX, 64 bits (R31) -/
  rxBytes : Nat := 0
  /-- PAIR waiting for the peer (R236) -/
  pairWait : Option PairJob := none
  /-- SPDM fragments received so far (R249) -/
  spdmIn : List (BitVec 8) := []
  /-- pair epoch, 64 bits (R258) -/
  epoch : Nat := 0
  /-- follower's lead in ticks, for slewing (R258) -/
  follow : Int := 0
  /-- comparisons announced and not ended (R260) -/
  compares : List Compare := []
  /-- next region of the hardware comparison schedule (R261) -/
  cursor : Nat := 0
  /-- twin commits in progress or pending (R256) -/
  txs : List TableTx := []
  /-- next commit ID (R256) -/
  nextTx : Nat := 0
  /-- TABLE messages received since the last prepare (R256) -/
  drafts : List TableMsg := []
  /-- hand-overs agreed: allotment, epoch, in-flight number (R268) -/
  handovers : List (Nat × Nat × Nat) := []
  /-- granules whose TWIN_DIRTY bit is set, rising (R254) -/
  twinDirty : List Nat := []
  /-- room available for P = 1 writes (LDG_TWIN_ROOM) (R254) -/
  room : Int := 0
  /-- gate limit, stage and admission of the last ROOM sent (R254) -/
  roomSent : Option (Nat × Nat × Nat) := none
  /-- ROOM.STAGE of the peer (R254) -/
  peerStage : Nat := 0
  /-- CLAIM standing (R265) -/
  claim : Bool := false
  /-- ACK_CLAIM set (R265) -/
  ackClaim : Bool := false
  /-- the peer has acknowledged the standing claim (R265) -/
  claimAcked : Bool := false
  /-- TOOK_OVER (R265) -/
  tookOver : Bool := false
  /-- FENCED (R265) -/
  fenced : Bool := false
  /-- mirrored writes of this unit positioned and not completed, oldest first (R263) -/
  withheld : List MirWrite := []
  /-- completions are withheld since link loss (R263) -/
  withholding : Bool := false
  /-- clock of link loss, us (R265) -/
  lossAt : Option Nat := none
  /-- heartbeat present at link loss (R265) -/
  hbAtLoss : Bool := false
  /-- a valid peer record has arrived since link loss (R265) -/
  peerSince : Bool := false
  /-- the peer's last record shows FENCED (R268) -/
  peerFenced : Bool := false
  /-- the peer's last record shows CLAIM (R268) -/
  peerClaim : Bool := false
  /-- SEQ of the last heartbeat record published, 32 bits (R264) -/
  hbSeq : Nat := 0
  /-- EXL_HB_OUT0-3 (R264) -/
  hbOut : List (BitVec 32) := [0#32, 0#32, 0#32, 0#32]
  /-- EXL_HB_IN0-3 words written (R264) -/
  hbIn : List (BitVec 32) := [0#32, 0#32, 0#32, 0#32]
  /-- SEQ of the last valid peer record (R264) -/
  hbPeerSeq : Nat := 0
  /-- clock of the last valid peer record, us (R264) -/
  hbPeerAt : Option Nat := none
  /-- ECHO of the last valid peer record (R264) -/
  hbEcho : Nat := 0
  /-- peer's STATE entries: MGEN, serving, complete, in step (R269) -/
  peerState : Tbl PeerAllot := []
  /-- resync running (R270) -/
  resyncOn : Bool := false
  /-- paused by RESYNC action 2 (R271) -/
  resyncPaused : Bool := false
  /-- current resync rate, MB/s (R271) -/
  resyncRate : Nat := 0
  /-- owner's rate, MB/s (R271) -/
  resyncHost : Option Nat := none
  /-- granules copied (R271) -/
  resyncCopied : Nat := 0
  /-- granules that differ, to be sent as resync writes (R270) -/
  resyncQ : List Nat := []
  /-- sublink each slice sends on (R250) -/
  sliceSub : Tbl Nat := []
  /-- (allotment, region) matched in the current resync (R270) -/
  matched : List (Nat × Nat) := []
  /-- FLUSH of the peer being carried out, by tag (R257) -/
  flushes : List (Nat × FlushJob) := []
  /-- the peer has sent HARVEST (R255) -/
  peerHarvest : Bool := false
  /-- SEAL_SEQ of the peer's harvest-complete notice (R167) -/
  peerSeal : Option Nat := none
  /-- clock of the last abandoned rekey, us (R248) -/
  rekeyFailAt : Option Nat := none
  /-- clock of the last tick of the pair epoch, us (R258) -/
  epochAt : Nat := 0
  /-- clock of the last ROOM, us (R254) -/
  roomAt : Nat := 0
  /-- clock of the last heartbeat published, us (R264) -/
  hbAt : Option Nat := none
  /-- clock of the start of a resync pause, us (R271) -/
  pausedAt : Nat := 0
  /-- clock since which the present resync rate holds, us (R271) -/
  resyncFrom : Nat := 0
  /-- payload bytes of resync writes sent since then (R271) -/
  resyncSent : Nat := 0
  /-- CRC_BLOCK exchanges issued as cuttings: cutting, region (R272) -/
  crcCuts : Tbl Nat := []
  deriving DecidableEq, Repr

/-- Ledger slices (chapter 8). -/
structure Ldg where
  /-- sequence last assigned by slice, 64 bits (R250) -/
  seqs : Tbl Nat := []
  /-- first sequence not yet reserved, by slice (R250) -/
  bounds : Tbl Nat := []
  /-- last bound journaled, by slice (R250) -/
  journaled : Tbl Nat := []
  /-- slices closed by a cut (R165) -/
  closed : Bool := false
  /-- ledger writes held unapplied by a comparison, in order (R260) -/
  heldW : List HeldWrite := []
  /-- fill of a requester's share of the slices, percent, as last shown, by issuer (R95) -/
  share : Tbl Nat := []
  /-- positioned writes that wait in a channel for the rebuild of their granule's entry, oldest first (R134) -/
  rebuildW : List HeldWrite := []
  deriving DecidableEq, Repr

/-- Twin part of an allotment entry (chapter 8), by allotment ID. -/
structure AllotTwin where
  /-- MGEN, 64 bits (R269) -/
  mgen : Tbl Nat := []
  /-- copy complete (R269) -/
  complete : Tbl Bool := []
  /-- this unit served it at that MGEN (R269) -/
  servedAt : Tbl Bool := []
  /-- resync source: 0 none, 1 this unit, 2 the peer (R269) -/
  source : Tbl Nat := []
  /-- key generation of every allotment ID, 32 bits (R420) -/
  keyGen : Tbl Nat := []
  deriving DecidableEq, Repr

/-- One cutting (chapter 9). -/
structure Cutting where
  /-- the model's number of the cutting (R272) -/
  n : Nat := 0
  /-- type code of Table 9.1 (R272) -/
  typ : Nat := 0
  /-- first identity field (granule, SEAL_SEQ, channel, epoch) (R272) -/
  a : Nat := 0
  /-- second identity field (R272) -/
  b : Nat := 0
  /-- third identity field (R272) -/
  c : Nat := 0
  /-- source of a drip or move cutting (R215) -/
  why : ProgWhy := .drip
  /-- tines it failed on (R272) -/
  fails : Nat := 0
  /-- deque: URGENT or MAIN (R272) -/
  urgent : Bool := false
  deriving DecidableEq, Repr

/-- One tine bed of the sixteen (eight) (chapter 9). -/
structure Bed where
  /-- URGENT deque, near end first, 64 entries (R273) -/
  urgent : List Cutting := []
  /-- MAIN deque, near end first, 2,048 entries (R273) -/
  main : List Cutting := []
  /-- the bed's clock runs (R20) -/
  clocked : Bool := false
  /-- DRAINING: being reloaded (R281) -/
  draining : Bool := false
  /-- has the new image in an activation that reloads bed by bed (R281) -/
  reloaded : Bool := false
  deriving DecidableEq, Repr

/-- Tine beds, deques and tines (chapter 9). -/
structure Tin where
  /-- beds by number (R273) -/
  beds : Tbl Bed := []
  /-- cutting each busy tine runs, by tine number (R273) -/
  tines : Tbl Cutting := []
  /-- fenced tines (R278) -/
  fenced : List Nat := []
  /-- tines fenced in the last run, to be returned when the logic BIST passes them (R278) -/
  fencedKeep : List Nat := []
  /-- tines in service (set after TRAINING) (R279) -/
  inService : Bool := false
  /-- TINE_LOW raised (R279) -/
  low : Bool := false
  /-- the model's count of cuttings (R272) -/
  nextN : Nat := 0
  /-- cuttings held by their issuers because every deque was full (R275) -/
  heldC : List Cutting := []
  /-- TIN_DONE, 64 bits (R273) -/
  done : Nat := 0
  /-- beds (0-15) and flash engines (100 + channel) still to reload in a live activation (R281) -/
  reload : List Nat := []
  deriving DecidableEq, Repr

/-- One management processor pair (chapter 9). -/
structure MpPair where
  /-- 0 running, 1 booting, 2 held down (R285) -/
  st : Nat := 1
  /-- busy fraction of the last window, percent (R286) -/
  busy : Nat := 0
  /-- clock of the mismatches of the last hour, us (R285) -/
  mism : List Nat := []
  deriving DecidableEq, Repr

/-- Management processor, load meter, function modes (chapters 2 and 9). -/
structure Mpx where
  /-- pair A (R284) -/
  a : MpPair := {}
  /-- pair B (R284) -/
  b : MpPair := {}
  /-- load level, 2 bits (R286) -/
  level : Nat := 0
  /-- windows in a row at 95% or more (R286) -/
  satWindows : Nat := 0
  /-- clock at which level 0 was entered, us (R288) -/
  calmAt : Nat := 0
  /-- clock since which the load has stayed below the fall mark of the level, us (R286) -/
  lowSince : Option Nat := none
  /-- residence samples of the last 100 ms: clock of the end, key (server and carrier), us (R287) -/
  residence : List (Nat × Nat × Nat) := []
  /-- a firmware activation is in progress (R54) (R54) -/
  activating : Bool := false
  /-- the eleven functions by code (R66) -/
  funcs : Tbl Func := []
  /-- clock of the last load window end (R286) -/
  winAt : Nat := 0
  /-- clock at which each control loop of Table 9.4 last ran, by its row (0 telemetry to 6 resync pacing) (R287) -/
  loopAt : Tbl Nat := []
  deriving DecidableEq, Repr

/-- One gauge burst of the ring (chapter 10). -/
structure Burst where
  /-- time, ms (R317) -/
  ms : Nat := 0
  /-- V_term, uV (R317) -/
  uv : Nat := 0
  /-- I, uA, positive into the pack (R317) -/
  ua : Int := 0
  /-- temperature, 0.01 deg C (R317) -/
  temp : Int := 0
  /-- thermistor read (R317) -/
  sensor : Nat := 0
  /-- over-range (R317) -/
  overR : Bool := false
  /-- sampling gap before it (R317) -/
  gap : Bool := false
  /-- taken at 1 kHz (R317) -/
  khz : Bool := false
  /-- taken at 32 Hz or 1 kHz (R305) -/
  fast : Bool := false
  deriving DecidableEq, Repr

/-- A valid pack ID record (Table 10.2). -/
structure PackId where
  /-- SERIAL, 64 bits (R293) -/
  serial : Nat := 0
  /-- TABLE (R293) -/
  table : Nat := 0
  /-- CELLS_S (R293) -/
  cells : Nat := 0
  /-- DESIGN_10C (R293) -/
  design : Nat := 0
  /-- R_NOM, 0.1 mOhm (R293) -/
  rNom : Nat := 0
  deriving DecidableEq, Repr

/-- Learned pack values (Table 10.6). -/
structure Learned where
  /-- SEQ of the newest record, 64 bits (R307) -/
  seq : Nat := 0
  /-- PACK_SERIAL (R307) -/
  serial : Nat := 0
  /-- Q_learn, mC (R306) -/
  qmC : Nat := 0
  /-- DESIGN_10C in force (R307) -/
  design : Nat := 0
  /-- E_fixed, J (R313) -/
  eFixed : Nat := 650
  /-- e_byte, mJ/GiB (R313) -/
  eByte : Nat := 3400
  /-- OCV table in force (R307) -/
  table : Nat := 0
  /-- CELLS_S in force (R307) -/
  cells : Nat := 0
  /-- R_pack bins, 0.1 mOhm, 0 never learned (R305) -/
  bins : List Nat := [0,0,0,0,0,0,0,0]
  /-- FIT_SECONDS (R307) -/
  fit : Nat := 0
  /-- AGE_UNKNOWN (R307) -/
  ageUnknown : Bool := false
  /-- E_LEARNED (R307) -/
  eLearned : Bool := false
  /-- LEARN_COUNT (R307) -/
  count : Nat := 0
  deriving DecidableEq, Repr

/-- A rehearsal running (chapter 10). -/
structure Rehearsal where
  /-- phase of Table 10.7 (R312) -/
  phase : Nat := 0
  /-- in-flight number of the REHEARSAL_RUN (R317) -/
  cmd : Option Nat := none
  /-- QUIET_ONLY (R317) -/
  quietOnly : Bool := false
  /-- no CXL.mem request so far (R313) -/
  quiet : Bool := true
  /-- clock at start, us (R312) -/
  since : Nat := 0
  /-- clock at which the phase began, us (R312) -/
  phaseAt : Nat := 0
  /-- energy drawn from the pack in the phase, units of 1e-18 J (R312) -/
  energy : Int := 0
  /-- charge drawn in the phase, units of 1e-12 C (R312) -/
  charge : Int := 0
  /-- V_term and I of the last burst before the phase, uV and uA (R312) -/
  first : Option (Nat × Int) := none
  /-- a periodic rehearsal (R432) -/
  auto : Bool := false
  /-- P_0, mW (R312) -/
  p0 : Nat := 0
  /-- measured e_byte, mJ/GiB (R313) -/
  eByte : Nat := 0
  /-- I_h, mA (R312) -/
  ih : Int := 0
  /-- R_h, 0.1 mOhm (R312) -/
  rh : Nat := 0
  /-- floor components measured, mJ/GiB (R312) -/
  floors : List Nat := []
  /-- superblocks borrowed (R226) -/
  borrowed : List Nat := []
  deriving DecidableEq, Repr

/-- Battery gauge (chapter 10). -/
structure Gau where
  /-- a burst is under way (R296) -/
  burst : Bool := false
  /-- clock at which the last burst completed, us (R298) -/
  lastAt : Option Nat := none
  /-- clock of the last burst with I above at least 50 mA, us (R297) -/
  hotAt : Option Nat := none
  /-- USABLE (R295) -/
  usable : Bool := false
  /-- ABSENT_REASON (R295) -/
  reason : Nat := 0
  /-- valid pack ID record (R293) -/
  id : Option PackId := none
  /-- PROT_OK (R294) -/
  protOk : Bool := false
  /-- protector reads failed in a row (R294) -/
  protFails : Nat := 0
  /-- protector warns of an opening (R294) -/
  protWarn : Bool := false
  /-- PACK_EOD raised (R303) -/
  eod : Bool := false
  /-- E_charge and E_voltage are 0 until the pack charges (R303) -/
  eodHold : Bool := false
  /-- bursts in a row at end of discharge (R303) -/
  eodBursts : Nat := 0
  /-- COULOMB_DRIFT raised (R308) -/
  drift : Bool := false
  /-- RESTING (R304) -/
  resting : Bool := false
  /-- rest since it began or since the last rest point, us (R304) -/
  restUs : Nat := 0
  /-- a rest point was taken in this rest (R304) -/
  restTaken : Bool := false
  /-- SoC of the last rest point, 0.01% (R304) -/
  restSoc : Nat := 0
  /-- reported SoC, 0.01% (R302) -/
  soc : Nat := 0
  /-- fractional accumulator of the reported SoC, thirds of 0.01% (R302) -/
  socFrac : Nat := 0
  /-- the reported SoC has been set since the anchor (R301) -/
  socSet : Bool := false
  /-- SoC_c, 0.01% (R301) -/
  socC : Int := 0
  /-- SoC_v, 0.01% (R301) -/
  socV : Nat := 0
  /-- SoC anchor, 0.01% (R301) -/
  anchor : Int := 0
  /-- counter at the anchor, uC (R301) -/
  anchorUc : Int := 0
  /-- coulomb counter, uC (64 bits) (R298) -/
  coulomb : Int := 0
  /-- fraction below 1 uC carried forward, in 0.5 pC (R298) -/
  coulFrac : Int := 0
  /-- mean V_term of the last second, mV (R301) -/
  mv : Nat := 0
  /-- mean I of the last second, mA (R301) -/
  ma : Int := 0
  /-- OVR: over-range sample in the second (R297) -/
  ovr : Bool := false
  /-- bursts of the current second (R301) -/
  second : List Burst := []
  /-- last 4,096 bursts, newest first (R317) -/
  ring : List Burst := []
  /-- sequence of the next burst (R317) -/
  ringSeq : Nat := 0
  /-- last reading of each thermistor, 0.01 deg C, none excluded (R299) -/
  temps : List (Option Int) := [none, none, none, none]
  /-- consecutive valid samples of an excluded sensor (R299) -/
  tsGood : List Nat := [0, 0, 0, 0]
  /-- sensors excluded (R299) -/
  tsOut : List Nat := []
  /-- thermistor of the next burst (R296) -/
  tsNext : Nat := 0
  /-- E_charge, J (R311) -/
  eC : Nat := 0
  /-- E_voltage, J (R311) -/
  eV : Nat := 0
  /-- k_temp, 0.001 (R311) -/
  kTemp : Nat := 0
  /-- k_age, 0.001 (R311) -/
  kAge : Nat := 0
  /-- learned values in force (SRAM) (R307) -/
  learned : Learned := {}
  /-- LAST_RESULT (R306) -/
  lastRes : Nat := 0
  /-- rest point A: SoC 0.01%, counter uC (R306) -/
  restA : Option (Int × Int) := none
  /-- why the current learning cycle is void (0 not) (R306) -/
  voidWhy : Nat := 0
  /-- swap since the cold-frame start (R317) -/
  swapped : Bool := false
  /-- the first accepted R_pack measurement is to be compared (impedance signature) (R309) -/
  checkSig : Bool := false
  /-- rehearsal running (R312) -/
  reh : Option Rehearsal := none
  /-- GAU_REH_STATUS.RESULT (R314) -/
  rehResult : Nat := 0
  /-- GAU_REH_STATUS.QUIET (R313) -/
  rehQuiet : Bool := false
  /-- operating seconds at the last complete rehearsal: AGE_H counts the hours since (R312) -/
  rehAt : Option Nat := none
  /-- clock of the last record written for moved R_pack bins, us (R307) -/
  recAt : Option Nat := none
  /-- a rehearsal is due (R432) -/
  rehDue : Bool := false
  /-- last harvest floor, mJ/GiB (R313) -/
  floor : Nat := 0
  /-- owner's value in use, 0.01% (R316) -/
  hostSoc : Option Nat := none
  /-- OCV tables of a loaded image; empty list: the built-in tables (R300) -/
  ocv : List OcvTable := []
  /-- k_temp curve of a loaded image; empty: Table 10.5 (R300) -/
  kTempCurve : List (Int × Nat) := []
  /-- k_age curve of a loaded image; empty: Table 10.5 (R300) -/
  kAgeCurve : List (Int × Nat) := []
  /-- R_pack bins as last written (R307) -/
  rSaved : List Nat := [0,0,0,0,0,0,0,0]
  /-- clock of the last burst start (R297) -/
  burstAt : Option Nat := none
  /-- result bytes of GAUGE_READ as of the last gauge update; empty before the first (R317) -/
  shown : List Byte := []
  /-- clock of the last gauge update (R302) -/
  updAt : Option Nat := none
  deriving DecidableEq, Repr

/-- A slot record of the rail table (Table 11.2). -/
structure RailSlot where
  /-- PREREQ mask, 24 bits (R319) -/
  prereq : Nat := 0
  /-- CLASS, 2 bits (R319) -/
  cls : Nat := 0
  /-- KIND (R319) -/
  slave : Bool := false
  /-- HOLD (R319) -/
  hold : Bool := false
  /-- PRIV_OUT (R319) -/
  nand : Bool := false
  /-- DELAY_US (R319) -/
  delay : Nat := 0
  /-- RAMP_10US (R319) -/
  ramp : Nat := 1
  /-- UV code (R319) -/
  uv : Nat := 0
  /-- OV code (R319) -/
  ov : Nat := 0
  /-- GLITCH_US (R319) -/
  glitch : Nat := 0
  /-- LINK slave index (R319) -/
  slaveIdx : Nat := 0
  /-- LINK DOMAIN (R319) -/
  domain : Nat := 0
  /-- SLAVE_CH (R319) -/
  slaveCh : Nat := 0
  deriving DecidableEq, Repr

/-- A rail table (chapter 11). -/
structure RailTable where
  /-- table version, 16 bits (R319) -/
  version : Nat := 0
  /-- slave sequencer addresses, 0 absent (R319) -/
  slaves : List Nat := [0,0,0,0,0,0,0,0]
  /-- 24 slot records (R319) -/
  slots : List RailSlot := []
  /-- the built-in table (R321) -/
  builtin : Bool := true
  deriving DecidableEq, Repr

/-- The DRAM channels (chapter 4). -/
structure DdrTop where
  /-- channels by number (R109) -/
  ch : Tbl Ddr := []
  /-- CRC-64 of the geometry fields of the SPD of every DIMM, in channel order, as last read (R179) -/
  geometry : BitVec 64 := 0#64
  deriving DecidableEq, Repr

/-- An orderly off under way (chapter 11). -/
structure OffRun where
  /-- in-flight numbers of the POWER_STATE_REQ commands that end with it (R330) -/
  cmds : List Nat := []
  /-- clock of the request, us (R330) -/
  since : Nat := 0
  /-- exposure reached zero and the seal of KIND 1 or 2 is written (R330) -/
  sealed : Bool := false
  /-- cause code of the off request (R330) -/
  cause : Cause := .none
  /-- clock of the seal (R330) -/
  sealAt : Nat := 0
  deriving DecidableEq, Repr

/-- A domain switch under way (chapter 11). -/
structure DomSw where
  /-- domain 1-8 (R332) -/
  domain : Nat := 0
  /-- switching on (R332) -/
  on : Bool := false
  /-- in-flight numbers of the POWER_STATE_REQ commands that end with it (R337) -/
  cmds : List Nat := []
  /-- clock of the start, us (R337) -/
  since : Nat := 0
  /-- waits for the owner's step (R336) -/
  hostWait : Bool := false
  deriving DecidableEq, Repr

/-- Rail sequencer and rail monitor (chapter 11). -/
structure Psq where
  /-- rail table in force (R321) -/
  table : RailTable := {}
  /-- loaded table, its remaining fields taking effect at the next WAKING (R321) -/
  nextTable : Option RailTable := none
  /-- slots enabled, rising (PSQ_SLOT_ON) (R322) -/
  on : List Nat := []
  /-- good slots, last that came good first (PSQ_SLOT_GOOD) (R323) -/
  good : List Nat := []
  /-- slots disabled by the sequence and not yet off, rising (R323) -/
  off : List Nat := []
  /-- PSQ_STATUS.LAST_GOOD (R322) -/
  lastGood : Nat := 0x1F
  /-- clock at which each good slot came good, us (R323) -/
  goodAt : Tbl Nat := []
  /-- PSQ_STATUS.PHASE (R324) -/
  phase : Nat := 0
  /-- power-down stages still to run after the one in progress (2 M, 3 E, 4 H) (R324) -/
  stages : List Nat := []
  /-- OFF_HOLD (R328) -/
  offHold : Bool := false
  /-- off request latched or held, with its cause (OFF_PENDING) (R331) -/
  offPending : Option Cause := none
  /-- in-flight numbers of the off commands waiting with it (R337) -/
  offCmds : List Nat := []
  /-- ON_PENDING (R331) -/
  onPending : Bool := false
  /-- orderly off under way (R330) -/
  offRun : Option OffRun := none
  /-- PSQ_DOMAIN.STATE by domain: 0 off, 1 on, 2 switching off, 3 switching on (R332) -/
  domains : Tbl Nat := []
  /-- enables held while the domain switches off: domain and in-flight number (HELD_EN) (R333) -/
  heldEn : List (Nat × Nat) := []
  /-- domain switch under way (R332) -/
  sw : Option DomSw := none
  /-- domain switches waiting for the one under way: domain, on, in-flight number (R332) -/
  swQueue : List (Nat × Bool × Nat) := []
  /-- slots the owner has stepped in the domain switch under way (R336) -/
  stepped : List Nat := []
  /-- PSQ_FAULT.KIND (R326) -/
  faultKind : Nat := 0
  /-- PSQ_FAULT.SLOT (R326) -/
  faultSlot : Nat := 0
  /-- PSQ_FAULT.DEV_STATE (R326) -/
  faultState : Nat := 0
  /-- PSQ_FAULT.SCAN (R326) -/
  faultScan : Bool := false
  /-- PSQ_FAULT.CODE (R326) -/
  faultCode : Nat := 0
  /-- PACK_EN driven (false: released to its pull-down) (R318) -/
  packEn : Bool := false
  /-- NAND_PWR_EN driven (R318) -/
  nandEn : Bool := false
  /-- collapse mode (R335) -/
  collapse : Bool := false
  /-- MON00 inside its window (R328) -/
  inputIn : Bool := false
  /-- the press under way began in SHELF and has had its effect (R329) -/
  btnShelf : Bool := false
  /-- a press (50 ms) is under way (R329) -/
  btnDown : Bool := false
  /-- the press under way has passed its 8 s mark (R329) -/
  btnLong : Bool := false
  /-- manual reset in effect (MR_N low 1 ms, not yet high 1 ms) (R329) -/
  mrActive : Bool := false
  /-- failed SEQ_STATUS reads in a row by slave (R334) -/
  slaveFails : Tbl Nat := []
  /-- lost slaves (R334) -/
  slaveLost : List Nat := []
  /-- last SEQ_STATUS word by slave (R338) -/
  slaveStatus : Tbl Nat := []
  /-- slots outside their window now (RMN_SLOT.OUTSIDE) (R325) -/
  outside : List Nat := []
  /-- clock of the first of the scans in a row that found a slot outside, us (R325) -/
  outSince : Tbl Nat := []
  /-- last sampled MON code by slot (R362) -/
  codes : Tbl Nat := []
  /-- RMN_SLOT.SHORT_EXC by slot (RC) (R164) -/
  shortExc : Tbl Nat := []
  /-- slots in scan mode for a broken comparator path or a failed trip test, until the next start (R374) -/
  scanSlots : List Nat := []
  /-- clock at which each slot was enabled (R322) -/
  onAt : Tbl Nat := []
  /-- clock at which each slot was disabled (R323) -/
  disAt : Tbl Nat := []
  /-- clock at which the last slot of a power-down was off (R323) -/
  lastOffAt : Nat := 0
  /-- clock of the press under way, 50 ms after its fall (R329) -/
  btnAt : Nat := 0
  deriving DecidableEq, Repr

/-- An operation on a bank of the embedded flash (chapter 12). -/
structure NvmOp where
  /-- agent class 1-7 of R346 (R346) -/
  agent : Nat := 0
  /-- an erase, else a program (R344) -/
  erase : Bool := false
  /-- unit, row or sector address (R339) -/
  addr : Nat := 0
  /-- bytes to program, whole units (R340) -/
  data : List (BitVec 8) := []
  /-- what its end completes (R346) -/
  what : NvmWhat := .other
  deriving DecidableEq, Repr

/-- Option area record (Table 12.4). -/
structure OptRec where
  /-- SEQ (R349) -/
  seq : Nat := 0
  /-- RDP_LEVEL (R349) -/
  rdp : Nat := 0
  /-- ERASE_PENDING (R351) -/
  erasePending : Bool := false
  /-- NONCE_FLOOR (R354) -/
  nonceFloor : Nat := 0
  /-- MAGIC and CRC verify (R349) -/
  valid : Bool := true
  deriving DecidableEq, Repr

/-- The newest valid snapshots of the parameter pairs (Table 12.6): what a cold-frame start reloads. -/
structure PairStore where
  /-- pair 0: learned values (R307) -/
  learned : Learned := {}
  /-- pair 1: a pairing record exists (R236) -/
  paired : Bool := false
  /-- pair 1: peer serial number (R236) -/
  peerRec : Nat := 0
  /-- pair 1: the sealed pair secret, as a handle (R236) -/
  secret : Nat := 0
  /-- pair 1: next session ID not reserved (R247) -/
  sessNext : Nat := 0
  /-- pair 1: allotment IDs reserved for the peer (R75) -/
  reserved : List Nat := []
  /-- pair 2: start of the next unreserved block of nonces (R354) -/
  nonce : Nat := 0
  /-- pair 3: rail table (R321) -/
  table : RailTable := {}
  /-- pair 3: OCV tables (R300) -/
  ocv : List OcvTable := []
  /-- pair 3: k_temp curve (R300) -/
  kTempCurve : List (Int × Nat) := []
  /-- pair 3: k_age curve (R300) -/
  kAgeCurve : List (Int × Nat) := []
  /-- pair 4: fault reaction table image (R378) -/
  image : Option (List Nat) := none
  /-- pair 4: its version (R398) -/
  imageVersion : Nat := 0
  /-- pair 4: read-retry table image (R202) -/
  retryTable : Option RetryTable := none
  /-- pair 4: drip policy image (R151) -/
  policy : Policy := {}
  /-- pair 5: harvest plan (R197) -/
  plan : Tbl Nat := []
  /-- pair 5: standing replant order (R199) -/
  order : Tbl Nat := []
  /-- pair 5: register words of the configuration record (R479) -/
  conf : Tbl (BitVec 32) := []
  /-- pair 5: operating seconds (R482) -/
  opSeconds : Nat := 0
  /-- pair 5: label blocks of slots 0-7 (R416) -/
  labels : Tbl (List (BitVec 8)) := []
  /-- pairs 6 and 7: population record of the locator (R221) -/
  popRec : Option FlashPop := none
  /-- pairs 6 and 7: unique ID of every target (R221) -/
  locUids : Tbl Nat := []
  /-- pairs 6 and 7: addresses of the seal blocks (R221) -/
  locSeals : List Nat := []
  /-- pairs 6 and 7: list of metadata superblocks (R221) -/
  locMeta : List Nat := []
  /-- pair 5: power-cycle count (R482) -/
  powerCycles : BitVec 32 := 0#32
  deriving DecidableEq, Repr

/-- Cold-frame embedded flash (chapter 12). -/
structure Nvm where
  /-- operation of bank A (R344) -/
  opA : Option NvmOp := none
  /-- operation of bank B (R344) -/
  opB : Option NvmOp := none
  /-- erase suspended in bank A (R345) -/
  suspA : Option NvmOp := none
  /-- erase suspended in bank B (R345) -/
  suspB : Option NvmOp := none
  /-- operations waiting, by agent order then arrival (R346) -/
  queue : List NvmOp := []
  /-- brown-out blocks pulses (R347) -/
  bod : Bool := false
  /-- programmed units by address of the areas whose content is raw bytes (firmware slots); an unlisted unit is erased; the records of the other areas stand decoded in the fields that hold them (R340) -/
  units : Tbl (List (BitVec 8)) := []
  /-- units left uncorrectable or undefined by an operation cut short (R347) -/
  cutUnits : List Nat := []
  /-- option copy 0 (R349) -/
  opt0 : OptRec := {}
  /-- option copy 1 (R349) -/
  opt1 : OptRec := {}
  /-- option copy in force (OPT_COPY) (R349) -/
  optCopy : Nat := 0
  /-- OPT_LOST (R349) -/
  optLost : Bool := false
  /-- option shadow in force (R349) -/
  shadow : OptRec := {}
  /-- active start-record area (R356) -/
  startArea : Nat := 0
  /-- bytes of records in the active start-record area (R356) -/
  startUsed : Nat := 0
  /-- RUN_SEQ of the last run record (R356) -/
  runSeq : Nat := 0
  /-- LS_ERASED by slot (R355) -/
  lsErased : List Bool := [true, true]
  /-- SEQ of the newest valid snapshot of each parameter pair; unlisted: none (R353) -/
  pairs : Tbl Nat := []
  /-- register words kept in the configuration record, by offset (R353) -/
  confSaved : Tbl (BitVec 32) := []
  /-- kept words written since the last save, by offset (R479) -/
  confPending : List Nat := []
  /-- operating seconds of the last RWS save (R479) -/
  confAt : Nat := 0
  /-- newest valid snapshots of the parameter pairs (R353) -/
  store : PairStore := {}
  /-- clock of the last resume of an erase, by bank (0 A, 1 B), us (R345) -/
  resumed : Tbl Nat := []
  /-- what the snapshot before the newest of each parameter pair holds (R353) -/
  prev : PairStore := {}
  /-- sector (0 A, 1 B) of the newest valid snapshot of each pair (R353) -/
  pairSec : Tbl Nat := []
  /-- slots of each parameter sector used since its last erase, by 2 × pair + sector (R353) -/
  pairUsed : Tbl Nat := []
  /-- sectors whose erase was cut short, so that a blank check fails (R348) -/
  unsure : List Nat := []
  /-- sectors blank-checked or erased since the cold-frame start (R348) -/
  checked : List Nat := []
  /-- place of the run record in the start-record area (R356) -/
  runAt : Nat := 0
  /-- offsets of the kept values whose save is under way (R479) -/
  confSaving : List Nat := []
  deriving DecidableEq, Repr

/-- A converter result (ADC_QUEUE layout). -/
structure AdcRes where
  /-- OVR (R358) -/
  ovr : Bool := false
  /-- CONV (R361) -/
  conv : Nat := 0
  /-- INPUT (R361) -/
  input : Nat := 0
  /-- ENTRY (R361) -/
  entry : Nat := 0
  /-- RUN (R361) -/
  run : Nat := 0
  /-- GAIN (R361) -/
  gain : Nat := 0
  /-- CODE (R361) -/
  code : Nat := 0
  deriving DecidableEq, Repr

/-- One of the two converters (chapter 13). -/
structure Adc where
  /-- a run of the programmed sequence is under way (BUSY) (R360) -/
  busy : Bool := false
  /-- entry being converted (R359) -/
  entry : Nat := 0
  /-- run count modulo 8 (R361) -/
  run : Nat := 0
  /-- ENABLE cleared: stops at the next entry boundary (R360) -/
  stopping : Bool := false
  /-- failed the reference check (R428): takes no programmed sequence (R428) -/
  failed : Bool := false
  /-- sequence entries taken at the run's start (R359) -/
  entries : List (BitVec 32) := []
  /-- stopped at an entry boundary while the rail scan holds programmed sequences (R362) -/
  held : Bool := false
  /-- time the entry being converted started, in µs (R359) -/
  since : Nat := 0
  /-- time of the last timer tick, or of the timer's start (R360) -/
  timerAt : Option Nat := none
  deriving DecidableEq, Repr

/-- Converters (chapter 13). -/
structure AdcTop where
  /-- ADC0 (R357) -/
  a0 : Adc := {}
  /-- ADC1 (R357) -/
  a1 : Adc := {}
  /-- ADC_SEQ_ENTRY words by converter x 16 + entry (R359) -/
  seq : Tbl (BitVec 32) := []
  /-- result queue, 64 entries, oldest first (R361) -/
  queue : List AdcRes := []
  deriving DecidableEq, Repr

/-- A controller transaction waiting or running (chapter 13). -/
structure TwiTx where
  /-- agent 1-5 of R368 (R368) -/
  agent : Nat := 0
  /-- 7-bit address (R363) -/
  addr : Nat := 0
  /-- command code (R334) -/
  code : Nat := 0
  /-- data bytes (R364) -/
  data : List (BitVec 8) := []
  /-- retries made (R368) -/
  tries : Nat := 0
  /-- arbitration retries made (R369) -/
  arbs : Nat := 0
  /-- in-flight number of the SLAVE_SEQ_CMD it serves (R338) -/
  cmd : Option Nat := none
  /-- slot a sequencer step serves (R334) -/
  slot : Nat := 0
  deriving DecidableEq, Repr

/-- One two-wire port (chapter 13). -/
structure Twi where
  /-- STATE: 0 idle, 1 controller, 2 target, 3 fenced (R370) -/
  st : Nat := 0
  /-- SDA_NOW (R370) -/
  sda : Bool := true
  /-- SCL_NOW (R367) -/
  scl : Bool := true
  /-- LAST_OUTCOME (R368) -/
  last : Nat := 0
  /-- controller transactions in agent order (R368) -/
  queue : List TwiTx := []
  /-- transaction under way (R368) -/
  cur : Option TwiTx := none
  /-- the transaction under way waits out its 1 ms retry spacing (R368) -/
  spacing : Bool := false
  /-- time the transaction under way, or its retry spacing, began, in µs (R367) -/
  since : Nat := 0
  deriving DecidableEq, Repr

/-- Two-wire ports (chapter 13). -/
structure TwiTop where
  /-- ports TWI0-TWI3 (R364) -/
  ports : Tbl Twi := []
  /-- last STATUS_WORD, VOUT, IOUT and temperature words by regulator entry (R372) -/
  pmbus : Tbl (List Nat) := []
  /-- time of the last poll by regulator entry (R372) -/
  pollAt : Tbl Nat := []
  deriving DecidableEq, Repr

/-- An injection pending on a source (chapter 14). -/
structure Inject where
  /-- LIVE (R381) -/
  live : Bool := false
  /-- MODE 1, path test (R381) -/
  path : Bool := false
  /-- CHECKS asked for (R394) -/
  checks : Nat := 0
  /-- checks still to be made (R394) -/
  left : Nat := 0
  /-- detections captured (R394) -/
  detected : Nat := 0
  /-- in-flight number of the FAULT_INJECT (R394) -/
  cmd : Option Nat := none
  deriving DecidableEq, Repr

/-- One fault source (chapter 14). -/
structure Source where
  /-- LIVE (R376) -/
  live : Bool := false
  /-- STICKY (R393) -/
  sticky : Bool := false
  /-- POLLED (R374) -/
  polled : Bool := false
  /-- pending injection (R394) -/
  inject : Option Inject := none
  /-- COUNT, 16 bits in the register, saturating (R392) -/
  count : Nat := 0
  /-- reported untrusted (IST_INJECT_FAIL) (R428) -/
  untrusted : Bool := false
  deriving DecidableEq, Repr

/-- A history entry (Table 14.4). -/
structure HistEnt where
  /-- source number (R380) -/
  source : Nat := 0
  /-- class (R380) -/
  cls : Nat := 0
  /-- injected (R380) -/
  injected : Bool := false
  /-- polled (R380) -/
  polled : Bool := false
  /-- device state at capture (R380) -/
  state : Nat := 0
  /-- NESTED (R380) -/
  nested : Nat := 0
  /-- DETAIL (R380) -/
  detail : Nat := 0
  /-- TIME (R386) -/
  time : BitVec 64 := 0#64
  deriving DecidableEq, Repr

/-- Fault collector (chapter 14). -/
structure Flt where
  /-- sources by number (R377) -/
  src : Tbl Source := []
  /-- latched Fatal source (R375) -/
  latched : Option Nat := none
  /-- the latched Fatal's action is stop (R376) -/
  latchedStop : Bool := false
  /-- last 32 captured errors, newest first (R380) -/
  ring : List HistEnt := []
  /-- held snapshot, its first error first (R380) -/
  snapshot : Option (List HistEnt) := none
  /-- handling window open: rank of the first error and the clock at which it closes (R379) -/
  window : Option (Nat × Nat) := none
  /-- reaction table image loaded: 512 entries (R378) -/
  image : Option (List Nat) := none
  /-- its version (R398) -/
  imageVersion : Nat := 0
  /-- notice pairs of R17 found broken (0 power-fail, 1 harvest-done, 2 Fatal) (R374) -/
  brokenWires : List Nat := []
  /-- ALIVE toggles (R382) -/
  alive : Bool := false
  deriving DecidableEq, Repr

/-- An event bin (R384). -/
structure EvBin where
  /-- count, saturating at 0xFFFF_FFFF (R384) -/
  count : Nat := 0
  /-- lowest detail (R384) -/
  min : Nat := 0
  /-- highest detail (R384) -/
  max : Nat := 0
  /-- first detail (R384) -/
  first : Nat := 0
  /-- last detail (R384) -/
  last : Nat := 0
  /-- first time (R384) -/
  firstTime : BitVec 64 := 0#64
  /-- last time (R384) -/
  lastTime : BitVec 64 := 0#64
  /-- 16 histogram bins (R384) -/
  hist : List Nat := []
  /-- 8 most recent events, newest first (R384) -/
  recent : List (Nat × BitVec 64) := []
  /-- FLAGS byte of Table 14.6 (R387) -/
  flags : Nat := 0
  /-- device state at the first event (R387) -/
  state0 : Nat := 0
  /-- covers an event that is no shadow detection, so that its record may notify (R381) -/
  real : Bool := false
  deriving DecidableEq, Repr

/-- An event record (Table 14.6). -/
structure LogRec where
  /-- event code (R387) -/
  code : Nat := 0
  /-- severity (R387) -/
  sev : Nat := 0
  /-- SEQ, 48 bits (R387) -/
  seq : Nat := 0
  /-- device state at writing (R387) -/
  state : Nat := 0
  /-- POWER_CYCLE (R387) -/
  powerCycle : BitVec 32 := 0#32
  /-- the events covered (R387) -/
  bin : EvBin := {}
  /-- HISTORY part and its entries (R387) -/
  part : Option (Nat × List HistEnt) := none
  /-- log sector it lies in (R388) -/
  sector : Nat := 0
  deriving DecidableEq, Repr

/-- Event recorder (chapter 14). -/
structure Log where
  /-- open bins by code, at most 256 (R384) -/
  bins : Tbl EvBin := []
  /-- clock of each code's last record, us (R385) -/
  lastRec : Tbl Nat := []
  /-- severity-7 codes recorded in this run (R385) -/
  sev7 : List Nat := []
  /-- records in the log, oldest first (R388) -/
  recs : List LogRec := []
  /-- LOG_SEQ, 48 bits (R388) -/
  seq : Nat := 0
  /-- sector being filled, 0-127 (R388) -/
  sector : Nat := 0
  /-- records in it (R388) -/
  fill : Nat := 0
  /-- erased sectors in the order they will be used, after the one being filled (R388) -/
  freeSectors : List Nat := []
  /-- STOPPED and STOP_SEV (R389) -/
  stopped : Option Nat := none
  /-- LOG_CLEAR running: in-flight number (R396) -/
  clearing : Option Nat := none
  /-- records erased so far by the LOG_CLEAR under way (R396) -/
  erased : Nat := 0
  /-- a record program is under way (events set FLOOD) (R390) -/
  writing : Bool := false
  deriving DecidableEq, Repr

/-- Fuse array (chapter 15). -/
structure Fus where
  /-- PART, 16 bits: 0x7716 or 0x7708 (R421) -/
  part : Nat := 0x7716
  /-- LIFECYCLE bits (R421) -/
  lifecycle : BitVec 4 := 0x1#4
  /-- RDP_FLOOR (R421) -/
  rdpFloor : BitVec 2 := 0#2
  /-- DEBUG_LOCK (R421) -/
  debugLock : Bool := false
  /-- HA_DENY (R421) -/
  haDeny : BitVec 11 := 0#11
  /-- KEY_REVOKE (R421) -/
  keyRevoke : BitVec 2 := 0#2
  /-- SVN as a count of set bits, 0-64 (R421) -/
  svn : Nat := 0
  /-- shadow words loaded in RAILS_UP (R422) -/
  shadow : Bool := false
  /-- FUS_WORD0: shadow of fuse bits [31:0], loaded in RAILS_UP (R421) -/
  word0 : BitVec 32 := 0#32
  deriving DecidableEq, Repr

/-- Key and record cipher (chapter 15). -/
structure Krc where
  /-- next nonce, 64 bits (R414) -/
  nonceNext : Nat := 0
  /-- first nonce not reserved (R414) -/
  nonceEnd : Nat := 0
  /-- clock of the last reservation, us (R414) -/
  nonceAt : Option Nat := none
  /-- label blocks of slots 0-7; unlisted: NAME REC-n (R416) -/
  labels : Tbl (List (BitVec 8)) := []
  /-- in-flight numbers of commands waiting for a nonce block (R414) -/
  waiting : List Nat := []
  /-- KDF refuses the root key (RETIRED) (R422) -/
  rootRefused : Bool := false
  /-- first nonce beyond the blocks whose reservation is written to pair 2 (R414) -/
  nonceSafe : Nat := 0
  deriving DecidableEq, Repr

/-- A firmware slot (chapter 15). -/
structure FwSlot where
  /-- STATE of Table 15.3 (R400) -/
  st : Nat := 0
  /-- manifest VERSION (R400) -/
  version : Nat := 0
  /-- SVN of its container (R423) -/
  svn : Nat := 0
  /-- KEY_INDEX of its container (R423) -/
  key : Nat := 0
  /-- passed its check at its last boot (R401) -/
  passed : Bool := false
  deriving DecidableEq, Repr

/-- Firmware update (chapter 15). -/
structure Fwu where
  /-- slot A (R400) -/
  a : FwSlot := {}
  /-- slot B (R400) -/
  b : FwSlot := {}
  /-- active slot: false A, true B (R400) -/
  active : Option Bool := none
  /-- FAILED_BOOTS (R400) -/
  failedBoots : Nat := 0
  /-- ALONE (R405) -/
  alone : Bool := false
  /-- FWU_STATUS.PHASE (R406) -/
  phase : Nat := 0
  /-- FUSE_RESULT (R423) -/
  fuseResult : Nat := 0
  /-- staging open: 0 slot A, 1 slot B, 0x11 IMAGE 1 buffer, 0x12 IMAGE 2 buffer (R402) -/
  staging : Option Nat := none
  /-- in-flight number of the FW_STAGE_BEGIN whose erase runs (R402) -/
  erasing : Option Nat := none
  /-- SRAM staging buffer, 64 KiB, by offset (R402) -/
  buf : Tbl (BitVec 8) := []
  /-- epoch of a scheduled activation (R405) -/
  epoch : Option Nat := none
  /-- clock at which the confirmation window ends, us (R409) -/
  confirmBy : Option Nat := none
  /-- an activation across major versions waits for the boot out of HELD (R408) (R408) -/
  bootNew : Bool := false
  /-- REASON of the functions moved to hardware mode by an activation (R406) -/
  saved : Tbl Nat := []
  /-- waiting in WAKING with no slot that passes (R410) -/
  noImage : Bool := false
  /-- slot a live activation is about to check (false A), none once checked (R406) -/
  target : Option Bool := none
  /-- the scheduled activation is a fallback (R409) -/
  falling : Bool := false
  /-- slot A in the newest valid firmware-update state record (R400) -/
  recA : FwSlot := {}
  /-- slot B in the newest valid firmware-update state record (R400) -/
  recB : FwSlot := {}
  /-- active slot in that record (R400) -/
  recActive : Option Bool := none
  /-- FAILED_BOOTS in that record (R400) -/
  recBoots : Nat := 0
  /-- active state-record area: 0 MA227, 1 MB227 (R400) -/
  recArea : Nat := 0
  /-- rows used in the active state-record area (R400) -/
  recRows : Nat := 0
  /-- clock at which the pairs were reset by a live activation, in µs (R407) -/
  tickAt : Option Nat := none
  deriving DecidableEq, Repr

/-- A weeding item (chapter 16). -/
structure IstItem where
  /-- PERIOD_H, 5 bits (R434) -/
  period : Nat := 0x18
  /-- operating seconds at the last coverage (R427) -/
  covered : Nat := 0
  /-- covered since the part was new (AGE_H 0x7FF until then) (R427) -/
  everCovered : Bool := false
  /-- units completed since the last coverage, rising (R427) -/
  units : List Nat := []
  /-- units passed since the start (R435) -/
  passed : Nat := 0
  /-- units failed since the start (R435) -/
  failed : Nat := 0
  /-- FAILS (RC) (R435) -/
  fails : Nat := 0
  /-- LATE (R427) -/
  late : Bool := false
  /-- in-flight number of a TEST_SCHEDULE action 0 running (R434) -/
  now : Option Nat := none
  /-- first failing unit of that run (R434) -/
  nowFail : Option Nat := none
  /-- last failing unit (R435) -/
  lastFail : Option Nat := none
  deriving DecidableEq, Repr

/-- A telemetry sample: 64 bytes of Table 16.5. -/
structure Sample where
  /-- sequence of the record (R435) -/
  seq : Nat := 0
  /-- the 64 bytes (R433) -/
  bytes : List (BitVec 8) := []
  deriving DecidableEq, Repr

/-- Weeding pass and telemetry (chapter 16). -/
structure Ist where
  /-- items 0-6 (R427) -/
  items : Tbl IstItem := []
  /-- clock at which the pause ends, us (PAUSED) (R434) -/
  pausedTill : Option Nat := none
  /-- weeding step in progress: item and unit (ACTIVE 7 with none) (R426) -/
  step : Option (Nat × Nat) := none
  /-- consecutive loopback mismatches by channel (R428) -/
  loopFails : Tbl Nat := []
  /-- loopback run of an engine: next codeword of its four, and whether one of the run mismatched (R427) -/
  loopRun : Tbl (Nat × Bool) := []
  /-- raw ring of 3,600 samples, newest first (R433) -/
  raw : List Sample := []
  /-- summary ring of 1,440, newest first (R433) -/
  sums : List Sample := []
  /-- sequence of the next sample (R433) -/
  rawSeq : Nat := 0
  /-- sequence of the next summary (R433) -/
  sumSeq : Nat := 0
  /-- raw sequence from which the next summary is built (R433) -/
  sumFrom : Nat := 0
  /-- host write bytes and seconds counted, by hour of operating time, over the last 168 hours (R431) -/
  hours : Tbl (Nat × Nat) := []
  /-- aborted periodic rehearsals retried today (R432) -/
  retries : Nat := 0
  /-- clock at which a retry may start, us (R432) -/
  retryAt : Option Nat := none
  /-- day of operating time in which those retries count (R432) -/
  retryDay : Nat := 0
  /-- clock since which a periodic rehearsal is due, us (R432) -/
  dueAt : Option Nat := none
  /-- corrected DRAM errors in the second (R433) -/
  secCe : Nat := 0
  /-- RETRY-class flash reads in the second (R433) -/
  secRetry : Nat := 0
  /-- host bytes read in the second (R433) -/
  secRd : Nat := 0
  /-- host bytes written in the second (R433) -/
  secWr : Nat := 0
  /-- data-flit payload bytes sent up to the last sample (R433) -/
  txLast : Nat := 0
  /-- clock of the last telemetry sample, in µs (R433) -/
  sampledAt : Option Nat := none
  deriving DecidableEq, Repr

/-- Straps, temperature and inputs (chapters 17 and 18). -/
structure Pins where
  /-- STRAP_TEST level sampled (R441) -/
  strapTest : Bool := false
  /-- STRAP_XBYP level sampled (R441) -/
  strapXbyp : Bool := false
  /-- the straps have been sampled since the cold-frame start (R441) -/
  strapsTaken : Bool := false
  /-- highest logic-die temperature, deg C (R458) -/
  logicMax : Option Int := none
  /-- cold-frame temperature, deg C (R458) -/
  coldTemp : Option Int := none
  /-- the start waits on temperature (COLD_WAIT recorded) (R458) -/
  coldWait : Bool := false
  /-- THERMAL_HIGH recorded while hot (R458) -/
  thermHigh : Bool := false
  /-- host and Exsor pads powered (R440) -/
  padOn : Bool := false
  /-- channels whose DDRn_DRST_N is high (R124) -/
  drst : List Nat := []
  /-- clock of that reading, in µs (R458) -/
  logicAt : Nat := 0
  /-- clock of the last reading of the cold-frame sensor, in µs (R458) -/
  coldAt : Nat := 0
  deriving DecidableEq, Repr

/-- What the block sends out: completions, replies, messages, frames and notices, newest first in `State.out`.
Plain data: the model's record of what the outside observes. -/
inductive Out where
  /-- a Trellis reply on its carrier (R38) -/
  | reply (c : Carrier) (r : Reply)
  /-- a write of a completion tail: queue pair, host address, index (R44) -/
  | ringTail (qp addr tail : Nat)
  /-- an MSI-X vector (R44) -/
  | msix (qp vector : Nat)
  /-- a mailbox return: port, issuer, return code, output payload (R47, R100) -/
  | mbox (port issuer code : Nat) (data : List Byte)
  /-- an MCTP message to endpoint `eid`, written to two-wire address `back` with message tag `tag` and the tag-owner bit
  clear (R48, R364) -/
  | mctp (back eid tag : Nat) (data : List Byte)
  /-- a DOE response on a port (R98) -/
  | doe (port : Nat) (data : List Byte)
  /-- data of a register read on a path -/
  | regData (path : Path) (v : Nat)
  /-- CXL.mem read data with its DevLoad (R95) -/
  | memData (port issuer : Nat) (data : List Byte) (devload : Nat)
  /-- CXL.mem read answered with poison (R82, R93) -/
  | memPoison (port issuer devload : Nat)
  /-- CXL.mem write completion -/
  | memDone (n port issuer devload : Nat)
  /-- a CXL.mem request discarded, with its reason (Table 3.3) -/
  | memDrop (port issuer reason : Nat)
  /-- answer of a global persistent flush phase (R92) -/
  | gpf (port phase : Nat)
  /-- a CXL link goes down (R168) -/
  | linkDown (port : Nat)
  /-- a die-to-die frame; `cold` true toward the cold-frame die (R15) -/
  | frame (cold : Bool) (f : D2dFrame)
  /-- a notice wire (R17): 0 power-fail, 1 harvest-done, 2 Fatal -/
  | wire (n : Nat)
  /-- a control message handed to a sublink of the Exsor link (Table 8.7); its flit follows when it goes out -/
  | exsor (sub : Nat) (typ : Nat) (body : List Nat)
  /-- a mirrored write record handed to a sublink (R251) -/
  | mirror (sub : Nat) (r : MirRec)
  /-- a sequenced flit on a sublink, 256 bytes (R243) -/
  | flit (sub : Nat) (bytes : List Byte)
  /-- a LINK ACK (true) or NAK of a sublink with its SEQ (R245) -/
  | linkAck (sub : Nat) (ack : Bool) (seq : Nat)
  /-- a heartbeat record published (R264) -/
  | heartbeat (words : List Word)
  /-- a two-wire transaction started on a port (R368) -/
  | twi (port addr code : Nat) (data : List Byte)
  deriving DecidableEq, Repr

/-- The machine never stops with a fault: every command of the table has an effect or none, and every error the
manual describes is state (R375, R378). The type has no constructor. -/
inductive Fault where
  deriving DecidableEq, Repr

/-- A command the model gives no meaning to. -/
inductive Refusal where
  /-- raised by an arm of `exec` that has no meaning yet, with the row's mnemonic; safe: the model stops -/
  | notModelled (mnemonic : String)
  deriving DecidableEq, Repr

/-- The state of the Skeuf. The groups follow the chapters; `regs` holds the register words that no group mirrors;
`now`, `draws` and `out` are the model's own: the microsecond clock, the count of free values drawn and the record
of what was sent out. `pending` is the queue of commands that are waiting, first in, first out. -/
structure State where
  /-- The device state machine and the always-on block (chapter 1, AON) -/
  dev : Dev := {}
  /-- Trellis: queue pairs, admission, carriers (chapter 2) -/
  trl : Trl := {}
  /-- Per access path state: 64-bit captures, held low words, selectors (chapters 0 and 19) -/
  paths : Paths := {}
  /-- The die-to-die link and the cold-frame bridge (chapters 1 and 19) -/
  d2d : D2d := {}
  /-- CXL ports, mailboxes, fabric-manager logical device (chapter 3) -/
  cxl : Cxl := {}
  /-- Allotment, extent and binding tables (chapter 3) -/
  alt : Alt := {}
  /-- Host DRAM content and the reserved-region tables (chapters 3, 4 and 5) -/
  mem : Mem := {}
  /-- Dirty tracking, exposure limit, stages, drip, wear governor (chapter 5) -/
  drp : Drp := {}
  /-- Harvest, seal, replant (chapter 6) -/
  hrv : Hrv := {}
  /-- Flash channel engines and translation layer (chapter 7) -/
  ftl : Ftl := {}
  /-- Exsor link, pairing, failover, resync (chapter 8) -/
  exl : Exl := {}
  /-- Ledger slices (chapter 8) -/
  ldg : Ldg := {}
  /-- Twin part of an allotment entry (chapter 8), by allotment ID -/
  allotx : AllotTwin := {}
  /-- Tine beds, deques and tines (chapter 9) -/
  tin : Tin := {}
  /-- Management processor, load meter, function modes (chapters 2 and 9) -/
  mpx : Mpx := {}
  /-- Battery gauge (chapter 10) -/
  gau : Gau := {}
  /-- The DRAM channels (chapter 4) -/
  ddrs : DdrTop := {}
  /-- Rail sequencer and rail monitor (chapter 11) -/
  psq : Psq := {}
  /-- Cold-frame embedded flash (chapter 12) -/
  nvm : Nvm := {}
  /-- Converters (chapter 13) -/
  adc : AdcTop := {}
  /-- Two-wire ports (chapter 13) -/
  twi : TwiTop := {}
  /-- Fault collector (chapter 14) -/
  flt : Flt := {}
  /-- Event recorder (chapter 14) -/
  log : Log := {}
  /-- Fuse array (chapter 15) -/
  fus : Fus := {}
  /-- Key and record cipher (chapter 15) -/
  krc : Krc := {}
  /-- Firmware update (chapter 15) -/
  fwu : Fwu := {}
  /-- Weeding pass and telemetry (chapter 16) -/
  ist : Ist := {}
  /-- Straps, temperature and inputs (chapters 17 and 18) -/
  pin : Pins := {}
  /-- register words by absolute offset; an unlisted word holds its reset value (R476) -/
  regs : Tbl Word := []
  /-- the model's microsecond clock (log entry 1) -/
  now : Nat := 0
  /-- free values drawn so far; the model's own (log entry 30) -/
  draws : Nat := 0
  /-- what the block has sent out, newest first; the model's own (log entry 29) -/
  out : List Out := []
  /-- commands waiting, first in, first out (log entry 1) -/
  pending : List Instr := []
  deriving DecidableEq, Repr

/-- The machine right after reset: OFF, VAON absent, every register at its reset value, a blank part
(R21, R478; the values the manual does not state are those of the log entries INVENTORY.md names). -/
def State.reset : State := {}

end Sys2Proof.Machine
end

