-- ==== Sys2Proof/Machine/Ops.lean ====
section
/-! DEFINITION. The named operations over tables, sets, bytes, memory and the state's own counters. -/

namespace Sys2Proof.Machine

open Sys2Proof

/-! ### Keyed tables (keys strictly rising) -/

/-- The entry of key `k`. -/
def tget {α : Type} (t : Tbl α) (k : Nat) : Option α :=
  match t with
  | [] => none
  | (j, v) :: r => if j = k then some v else tget r k

/-- The entry of key `k`, or `d` where none is listed. -/
def tgetD {α : Type} (t : Tbl α) (k : Nat) (d : α) : α := (tget t k).getD d

/-- The table with entry `k` set to `v`. -/
def tset {α : Type} (t : Tbl α) (k : Nat) (v : α) : Tbl α :=
  match t with
  | [] => [(k, v)]
  | (j, w) :: r => if k < j then (k, v) :: (j, w) :: r else if k = j then (k, v) :: r else (j, w) :: tset r k v

/-- The table without entry `k`. -/
def tdel {α : Type} (t : Tbl α) (k : Nat) : Tbl α := t.filter (fun p => p.1 != k)

/-- The table with entry `k` changed by `f`, from `d` where none is listed. -/
def tmod {α : Type} (t : Tbl α) (k : Nat) (d : α) (f : α → α) : Tbl α := tset t k (f (tgetD t k d))

/-- The keys of a table. -/
def tkeys {α : Type} (t : Tbl α) : List Nat := t.map (·.1)

/-- Keys strictly rising: the canonical form of a table. -/
def tsorted {α : Type} : Tbl α → Bool
  | [] => true
  | [_] => true
  | a :: b :: r => decide (a.1 < b.1) && tsorted (b :: r)

/-! ### Sets of numbers, rising -/

/-- Adds `k` to a rising list. -/
def sins (l : List Nat) (k : Nat) : List Nat :=
  match l with
  | [] => [k]
  | j :: r => if k < j then k :: j :: r else if k = j then j :: r else j :: sins r k

/-- Removes `k`. -/
def sdel (l : List Nat) (k : Nat) : List Nat := l.filter (· != k)

/-- The union of a rising list and any list. -/
def sunion (l m : List Nat) : List Nat := m.foldl sins l

/-! ### Bit fields and bytes -/

/-- Bits `lo` to `lo + w - 1` of `n`. -/
def bits (n lo w : Nat) : Nat := (n >>> lo) % 2 ^ w

/-- Bit `i` of `n`. -/
def bit (n i : Nat) : Bool := n.testBit i

/-- A Bool as a bit. -/
def b2n (b : Bool) : Nat := if b then 1 else 0

/-- `v` in a field of width `w` at `lo`. -/
def fld (v lo w : Nat) : Nat := (v % 2 ^ w) <<< lo

/-- `n` with the field of width `w` at `lo` set to `v`. -/
def putBits (n lo w v : Nat) : Nat := n - fld (bits n lo w) lo w + fld v lo w

/-- The mask of a list of bit numbers. -/
def maskOf (l : List Nat) : Nat := l.foldl (fun a i => a ||| (1 <<< i)) 0

/-- The numbers below `n` whose bit is set in `m`. -/
def bitsOf (m n : Nat) : List Nat := (List.range n).filter (fun i => m.testBit i)

/-- `v` capped at `cap`: a saturating count. -/
def sat (cap v : Nat) : Nat := min cap v

/-- `v` clamped into `lo` to `hi`. -/
def clamp (lo hi v : Nat) : Nat := max lo (min hi v)

/-- Division rounded up; by zero, zero. -/
def cdiv (a b : Nat) : Nat := (a + b - 1) / b

/-- `n` as `k` bytes, least significant first. -/
def le (n k : Nat) : List Byte :=
  match k with
  | 0 => []
  | k + 1 => BitVec.ofNat 8 n :: le (n / 256) k

/-- `n` as `k` bytes, most significant first. -/
def be (n k : Nat) : List Byte := (le n k).reverse

/-- The number a list of bytes spells, least significant first. -/
def leNat : List Byte → Nat
  | [] => 0
  | b :: r => b.toNat + 256 * leNat r

/-- The number a list of bytes spells, most significant first. -/
def beNat (l : List Byte) : Nat := leNat l.reverse

/-- `len` bytes from `off`. -/
def slice (l : List Byte) (off len : Nat) : List Byte := (l.drop off).take len

/-- The little-endian number of `len` bytes at `off`; bytes past the end count as zero. -/
def rd (l : List Byte) (off len : Nat) : Nat := leNat (slice l off len)

/-- `k` zero bytes. -/
def zeros (k : Nat) : List Byte := List.replicate k 0#8

/-- `l` cut or padded with zeros to `k` bytes. -/
def padTo (l : List Byte) (k : Nat) : List Byte := l.take k ++ zeros (k - l.length)

/-- `l` with `src` written over it at `off`. -/
def overlay (l : List Byte) (off : Nat) (src : List Byte) : List Byte :=
  l.take off ++ src ++ l.drop (off + src.length)

/-- Whether every byte is zero. -/
def allZero (l : List Byte) : Bool := l.all (· == 0#8)

/-- Two's-complement code of `v` in `w` bits. -/
def twos (v : Int) (w : Nat) : Nat := (v % (2 ^ w : Nat)).toNat

/-- The value of a two's-complement code of `w` bits. -/
def ofTwos (n w : Nat) : Int := if n % 2 ^ w < 2 ^ (w - 1) then ((n % 2 ^ w : Nat) : Int) else ((n % 2 ^ w : Nat) : Int) - (2 ^ w : Nat)

/-! ### Cyclic redundancy checks -/

/-- One bit of a reflected CRC step. -/
def crcBitR (poly crc : Nat) : Nat := if crc % 2 = 1 then (crc >>> 1) ^^^ poly else crc >>> 1

/-- One byte of a reflected CRC. -/
def crcByteR (poly crc : Nat) (b : Byte) : Nat := Nat.repeat (crcBitR poly) 8 (crc ^^^ b.toNat)

/-- A reflected CRC over bytes. -/
def crcR (poly init xo : Nat) (l : List Byte) : Nat := (l.foldl (crcByteR poly) init) ^^^ xo

/-- One bit of a forward CRC step of width `w`. -/
def crcBitF (w poly crc : Nat) : Nat :=
  if crc.testBit (w - 1) then ((crc <<< 1) % 2 ^ w) ^^^ poly else (crc <<< 1) % 2 ^ w

/-- One byte of a forward CRC of width `w`, at least 8. -/
def crcByteF (w poly crc : Nat) (b : Byte) : Nat :=
  Nat.repeat (crcBitF w poly) 8 (crc ^^^ (b.toNat <<< (w - 8)))

/-- A forward CRC over bytes. -/
def crcF (w poly init xo : Nat) (l : List Byte) : Nat := (l.foldl (crcByteF w poly) init) ^^^ xo

/-- CRC-32C with the parameters of R206 (07_flash_backend.md). -/
def crc32c (l : List Byte) : Nat := crcR 0x82F63B78 0xFFFFFFFF 0xFFFFFFFF l

/-- The CRC-8 of SMBus packet error checking (R363). -/
def pec (l : List Byte) : Nat := crcF 8 0x07 0 0 l

/-! ### Byte memory: a canonical list of the bytes that are not zero -/

/-- What a byte that nothing has written reads as: zero (R102 for a new extent; log entry 9). -/
def memDefault : Byte := 0#8

/-- Reads one byte. -/
def mread (m : List Host.Cell) (a : Nat) : Byte :=
  match m with
  | [] => memDefault
  | (j, b) :: r => if j = a then b else mread r a

/-- The list with address `a` unlisted. -/
def munlist (m : List Host.Cell) (a : Nat) : List Host.Cell :=
  match m with
  | [] => []
  | (j, b) :: r => if a < j then (j, b) :: r else if a = j then r else (j, b) :: munlist r a

/-- The list with address `a` holding `v`, listed. -/
def mlist (m : List Host.Cell) (a : Nat) (v : Byte) : List Host.Cell :=
  match m with
  | [] => [(a, v)]
  | (j, b) :: r => if a < j then (a, v) :: (j, b) :: r else if a = j then (a, v) :: r else (j, b) :: mlist r a v

/-- Writes one byte, keeping the canonical form: a byte equal to the default is not listed. -/
def mwrite (m : List Host.Cell) (a : Nat) (v : Byte) : List Host.Cell :=
  if v = memDefault then munlist m a else mlist m a v

/-- Reads `k` bytes from `a`. -/
def mreadN (m : List Host.Cell) (a k : Nat) : List Byte :=
  match k with
  | 0 => []
  | k + 1 => mread m a :: mreadN m (a + 1) k

/-- Writes bytes from `a`. -/
def mwriteN (m : List Host.Cell) (a : Nat) (l : List Byte) : List Host.Cell :=
  match l with
  | [] => m
  | b :: r => mwriteN (mwrite m a b) (a + 1) r

/-- Writes those bytes of `l` whose enable bit is set, from `a`; bit `i` enables byte `i`. -/
def mwriteEn (m : List Host.Cell) (a : Nat) (l : List Byte) (en : Nat) : List Host.Cell :=
  match l with
  | [] => m
  | b :: r => mwriteEn (if en % 2 = 1 then mwrite m a b else m) (a + 1) r (en / 2)

/-- The bytes of `[a, a + k)`, as offsets from `a`. -/
def mcut (m : List Host.Cell) (a k : Nat) : List Host.Cell :=
  (m.filter (fun c => a ≤ c.1 && c.1 < a + k)).map (fun c => (c.1 - a, c.2))

/-- The memory with `[a, a + k)` read as zero. -/
def mclear (m : List Host.Cell) (a k : Nat) : List Host.Cell := m.filter (fun c => !(a ≤ c.1 && c.1 < a + k))

/-- The memory with the bytes of `src` (offsets) placed over `[a, a + k)`. -/
def mpaste (m : List Host.Cell) (a k : Nat) (src : List Host.Cell) : List Host.Cell :=
  src.foldl (fun acc c => mwrite acc (a + c.1) c.2) (mclear m a k)

/-- The canonical form: addresses strictly rising, no entry equal to the default. -/
def Memory.wf : List Host.Cell → Bool
  | [] => true
  | [(_, b)] => b != memDefault
  | (i, b) :: (j, c) :: r => decide (i < j) && b != memDefault && Memory.wf ((j, c) :: r)

/-! ### The state's own counters and what it sends out -/

/-- Records what is sent out. -/
def emit (s : State) (o : Out) : State := { s with out := o :: s.out }

/-- Advances the clock to `t`; it never goes back. -/
def tick (s : State) (t : Nat) : State := { s with now := max s.now t }

/-- The free value the next draw gives. -/
def drawn (s : State) : Nat := Config.freeValue s.draws

/-- Counts one draw. -/
def drew (s : State) : State := { s with draws := s.draws + 1 }

/-- Drawn retry-after, in µs: a multiple of 10 from 10 to 1,000,000 (R53, 02_trellis_commands.md). -/
def retryAfter (s : State) : Nat := 10 * clamp 1 100000 (Config.retryEstimate s.draws)

/-- Operating seconds: the seconds counted while VAON is present (R482, 19_register_map.md). -/
def opSecs (s : State) : Nat :=
  (if s.dev.vaon then s.dev.opSeconds + (s.now - s.dev.vaonAt) / 1000000 else s.dev.opSeconds) % 2 ^ 40

/-- The 64-bit time stamp of a record: seconds and always-on ticks within the second (R386). -/
def timeStamp (s : State) : BitVec 64 :=
  BitVec.ofNat 64 (opSecs s <<< 24 ||| (if s.dev.vaon then ((s.now - s.dev.vaonAt) % 1000000) * 32768 / 1000000 else 0))

/-! ### The variant of the part (Table 0.1) -/

/-- An ORR-7716 (R421, R474). -/
def isBig (s : State) : Bool := s.fus.part == 0x7716

/-- CXL ports present. -/
def nPorts (s : State) : Nat := if isBig s then 4 else 2

/-- DDR channels present. -/
def nDdr (s : State) : Nat := if isBig s then 16 else 8

/-- ONFI channels present. -/
def nFch (s : State) : Nat := if isBig s then 32 else 16

/-- Exsor sublinks present. -/
def nSub (s : State) : Nat := if isBig s then 4 else 2

/-- Tine beds present. -/
def nBeds (s : State) : Nat := if isBig s then 16 else 8

/-! ### Codes -/

/-- Code of a device state (Table 1.5). -/
def DevState.code : DevState → Nat
  | .off => 0x0 | .shelf => 0x1 | .waking => 0x2 | .railsUp => 0x3 | .training => 0x4 | .replanting => 0x5
  | .serving => 0x6 | .degraded => 0x7 | .harvesting => 0x8 | .held => 0x9 | .railsDown => 0xA | .latched => 0xB

/-- Code of a cause (Table 1.7). -/
def Cause.code : Cause → Nat
  | .none => 0x00 | .inputGood => 0x01 | .shortPress => 0x02 | .longPress => 0x03 | .mrN => 0x04
  | .powerFail => 0x05 | .railFault => 0x06 | .fatal => 0x07 | .holdTime => 0x08 | .holdFloor => 0x09
  | .powerReq => 0x0A | .twinLost => 0x0B | .twinInStep => 0x0C | .restored => 0x0D | .checksFailed => 0x0E
  | .vaonOrCycle => 0x0F | .progress => 0x10 | .sealed => 0x11 | .thermal => 0x12

/-- Code of an allotment state (Table 3.4). -/
def AllotState.code : AllotState → Nat
  | .ready => 0 | .replanting => 1 | .stale => 2 | .dataLost => 3 | .deleting => 4

/-- Code of TRL_QP_STATUS.STATE. -/
def QpState.code : QpState → Nat
  | .idle => 0 | .active => 1 | .disabling => 2 | .error => 3

/-- Carrier code of a class 2 reply (R59). -/
def carrierCode : Carrier → Nat
  | .qp n => n % 64 | .mailbox n _ => 0x40 + n % 4 | .mctp _ => 0x80

/-- Key of a carrier's memory: one for each queue pair, each logical device's mailbox and each MCTP endpoint. -/
def carrierKey : Carrier → Nat
  | .qp n => n % 64 | .mctp e => 0x100 + e % 256 | .mailbox n i => 0x10000 + 0x2000 * n + i % 0x2000

/-- Key of an access path (R9). -/
def pathKey : Path → Nat
  | .cxlio p => p | .qp n => 0x10 + n | .mp => 0x82 | .cfm => 0x83 | .mctp e => 0x100 + e
  | .mailbox n i => 0x10000 + 0x2000 * n + i % 0x2000

/-- The path of an MCTP endpoint on TWI0. -/
def viaMctp : Path → Bool
  | .mctp _ => true | _ => false

/-- The access path a carrier's register commands use: each carrier is one (R63). -/
def carrierPath : Carrier → Path
  | .qp n => .qp n | .mailbox n i => .mailbox n i | .mctp e => .mctp e

/-- Device in REPLANTING, SERVING or DEGRADED: hosts are served. -/
def serving (s : State) : Bool :=
  match s.dev.state with
  | .replanting | .serving | .degraded => true
  | _ => false

/-- The logic die is powered and configured: from TRAINING to HARVESTING (Table 1.5). -/
def logicOn (s : State) : Bool :=
  match s.dev.state with
  | .training | .replanting | .serving | .degraded | .harvesting => true
  | _ => false

end Sys2Proof.Machine
end

