-- ==== Sys2Proof/Machine/Crypto.lean ====
section
/-! DEFINITION. The ciphers and hashes the manual names by their standards: AES-256 (FIPS 197), CMAC (SP 800-38B),
the counter-mode KDF of R411, GCM (SP 800-38D) and SHA-384 (FIPS 180-4). Bytes are numbers below 256 here. -/

namespace Sys2Proof.Machine

open Sys2Proof

/-! ### AES-256 -/

/-- The substitution box. -/
def sbox : List Nat :=
  [0x63, 0x7c, 0x77, 0x7b, 0xf2, 0x6b, 0x6f, 0xc5, 0x30, 0x01, 0x67, 0x2b, 0xfe, 0xd7, 0xab, 0x76] ++
  [0xca, 0x82, 0xc9, 0x7d, 0xfa, 0x59, 0x47, 0xf0, 0xad, 0xd4, 0xa2, 0xaf, 0x9c, 0xa4, 0x72, 0xc0] ++
  [0xb7, 0xfd, 0x93, 0x26, 0x36, 0x3f, 0xf7, 0xcc, 0x34, 0xa5, 0xe5, 0xf1, 0x71, 0xd8, 0x31, 0x15] ++
  [0x04, 0xc7, 0x23, 0xc3, 0x18, 0x96, 0x05, 0x9a, 0x07, 0x12, 0x80, 0xe2, 0xeb, 0x27, 0xb2, 0x75] ++
  [0x09, 0x83, 0x2c, 0x1a, 0x1b, 0x6e, 0x5a, 0xa0, 0x52, 0x3b, 0xd6, 0xb3, 0x29, 0xe3, 0x2f, 0x84] ++
  [0x53, 0xd1, 0x00, 0xed, 0x20, 0xfc, 0xb1, 0x5b, 0x6a, 0xcb, 0xbe, 0x39, 0x4a, 0x4c, 0x58, 0xcf] ++
  [0xd0, 0xef, 0xaa, 0xfb, 0x43, 0x4d, 0x33, 0x85, 0x45, 0xf9, 0x02, 0x7f, 0x50, 0x3c, 0x9f, 0xa8] ++
  [0x51, 0xa3, 0x40, 0x8f, 0x92, 0x9d, 0x38, 0xf5, 0xbc, 0xb6, 0xda, 0x21, 0x10, 0xff, 0xf3, 0xd2] ++
  [0xcd, 0x0c, 0x13, 0xec, 0x5f, 0x97, 0x44, 0x17, 0xc4, 0xa7, 0x7e, 0x3d, 0x64, 0x5d, 0x19, 0x73] ++
  [0x60, 0x81, 0x4f, 0xdc, 0x22, 0x2a, 0x90, 0x88, 0x46, 0xee, 0xb8, 0x14, 0xde, 0x5e, 0x0b, 0xdb] ++
  [0xe0, 0x32, 0x3a, 0x0a, 0x49, 0x06, 0x24, 0x5c, 0xc2, 0xd3, 0xac, 0x62, 0x91, 0x95, 0xe4, 0x79] ++
  [0xe7, 0xc8, 0x37, 0x6d, 0x8d, 0xd5, 0x4e, 0xa9, 0x6c, 0x56, 0xf4, 0xea, 0x65, 0x7a, 0xae, 0x08] ++
  [0xba, 0x78, 0x25, 0x2e, 0x1c, 0xa6, 0xb4, 0xc6, 0xe8, 0xdd, 0x74, 0x1f, 0x4b, 0xbd, 0x8b, 0x8a] ++
  [0x70, 0x3e, 0xb5, 0x66, 0x48, 0x03, 0xf6, 0x0e, 0x61, 0x35, 0x57, 0xb9, 0x86, 0xc1, 0x1d, 0x9e] ++
  [0xe1, 0xf8, 0x98, 0x11, 0x69, 0xd9, 0x8e, 0x94, 0x9b, 0x1e, 0x87, 0xe9, 0xce, 0x55, 0x28, 0xdf] ++
  [0x8c, 0xa1, 0x89, 0x0d, 0xbf, 0xe6, 0x42, 0x68, 0x41, 0x99, 0x2d, 0x0f, 0xb0, 0x54, 0xbb, 0x16]

/-- The inverse substitution box. -/
def sboxInv : List Nat :=
  [0x52, 0x09, 0x6a, 0xd5, 0x30, 0x36, 0xa5, 0x38, 0xbf, 0x40, 0xa3, 0x9e, 0x81, 0xf3, 0xd7, 0xfb] ++
  [0x7c, 0xe3, 0x39, 0x82, 0x9b, 0x2f, 0xff, 0x87, 0x34, 0x8e, 0x43, 0x44, 0xc4, 0xde, 0xe9, 0xcb] ++
  [0x54, 0x7b, 0x94, 0x32, 0xa6, 0xc2, 0x23, 0x3d, 0xee, 0x4c, 0x95, 0x0b, 0x42, 0xfa, 0xc3, 0x4e] ++
  [0x08, 0x2e, 0xa1, 0x66, 0x28, 0xd9, 0x24, 0xb2, 0x76, 0x5b, 0xa2, 0x49, 0x6d, 0x8b, 0xd1, 0x25] ++
  [0x72, 0xf8, 0xf6, 0x64, 0x86, 0x68, 0x98, 0x16, 0xd4, 0xa4, 0x5c, 0xcc, 0x5d, 0x65, 0xb6, 0x92] ++
  [0x6c, 0x70, 0x48, 0x50, 0xfd, 0xed, 0xb9, 0xda, 0x5e, 0x15, 0x46, 0x57, 0xa7, 0x8d, 0x9d, 0x84] ++
  [0x90, 0xd8, 0xab, 0x00, 0x8c, 0xbc, 0xd3, 0x0a, 0xf7, 0xe4, 0x58, 0x05, 0xb8, 0xb3, 0x45, 0x06] ++
  [0xd0, 0x2c, 0x1e, 0x8f, 0xca, 0x3f, 0x0f, 0x02, 0xc1, 0xaf, 0xbd, 0x03, 0x01, 0x13, 0x8a, 0x6b] ++
  [0x3a, 0x91, 0x11, 0x41, 0x4f, 0x67, 0xdc, 0xea, 0x97, 0xf2, 0xcf, 0xce, 0xf0, 0xb4, 0xe6, 0x73] ++
  [0x96, 0xac, 0x74, 0x22, 0xe7, 0xad, 0x35, 0x85, 0xe2, 0xf9, 0x37, 0xe8, 0x1c, 0x75, 0xdf, 0x6e] ++
  [0x47, 0xf1, 0x1a, 0x71, 0x1d, 0x29, 0xc5, 0x89, 0x6f, 0xb7, 0x62, 0x0e, 0xaa, 0x18, 0xbe, 0x1b] ++
  [0xfc, 0x56, 0x3e, 0x4b, 0xc6, 0xd2, 0x79, 0x20, 0x9a, 0xdb, 0xc0, 0xfe, 0x78, 0xcd, 0x5a, 0xf4] ++
  [0x1f, 0xdd, 0xa8, 0x33, 0x88, 0x07, 0xc7, 0x31, 0xb1, 0x12, 0x10, 0x59, 0x27, 0x80, 0xec, 0x5f] ++
  [0x60, 0x51, 0x7f, 0xa9, 0x19, 0xb5, 0x4a, 0x0d, 0x2d, 0xe5, 0x7a, 0x9f, 0x93, 0xc9, 0x9c, 0xef] ++
  [0xa0, 0xe0, 0x3b, 0x4d, 0xae, 0x2a, 0xf5, 0xb0, 0xc8, 0xeb, 0xbb, 0x3c, 0x83, 0x53, 0x99, 0x61] ++
  [0x17, 0x2b, 0x04, 0x7e, 0xba, 0x77, 0xd6, 0x26, 0xe1, 0x69, 0x14, 0x63, 0x55, 0x21, 0x0c, 0x7d]

/-- Multiplication by x in GF(2^8). -/
def xtime (a : Nat) : Nat := if 128 ≤ a then (2 * a % 256) ^^^ 0x1b else 2 * a

/-- Multiplication in GF(2^8). -/
def gmul (a b : Nat) : Nat :=
  ((List.range 8).foldl (fun (p : Nat × Nat) i => (if b.testBit i then p.1 ^^^ p.2 else p.1, xtime p.2)) (0, a)).1

/-- Bytewise exclusive or. -/
def xorL (a b : List Nat) : List Nat := List.zipWith (· ^^^ ·) a b

/-- One more word of the key schedule from the words so far, newest first. -/
def keyWord (i : Nat) (ws : List (List Nat)) : List Nat :=
  let prev := ws.getD 0 []
  let base := ws.getD 7 []
  let sub := fun l => List.map (fun x => sbox.getD x 0) l
  let t := if i % 8 = 0 then
      xorL (sub (prev.drop 1 ++ prev.take 1)) [Nat.repeat xtime (i / 8 - 1) 1, 0, 0, 0]
    else if i % 8 = 4 then sub prev else prev
  xorL base t

/-- The 60 words of the key schedule, oldest first. -/
def keySchedule (key : List Nat) : List (List Nat) :=
  let init := (List.range 8).foldl (fun ws i => (key.drop (4 * i)).take 4 :: ws) []
  ((List.range 52).foldl (fun ws i => keyWord (i + 8) ws :: ws) init).reverse

/-- Round key `r`, 16 bytes. -/
def roundKey (ws : List (List Nat)) (r : Nat) : List Nat := ((ws.drop (4 * r)).take 4).flatten

/-- Row shift; `inv` for the inverse. -/
def shiftRows (inv : Bool) (b : List Nat) : List Nat :=
  (List.range 16).map (fun i =>
    let r := i % 4
    let c := i / 4
    b.getD (4 * ((if inv then c + 4 - r else c + r) % 4) + r) 0)

/-- Column mix with the coefficients of the first row. -/
def mixColumns (m : List Nat) (b : List Nat) : List Nat :=
  (List.range 16).map (fun i =>
    let r := i % 4
    let c := i / 4
    (List.range 4).foldl (fun a k => a ^^^ gmul (b.getD (4 * c + k) 0) (m.getD ((k + 4 - r) % 4) 0)) 0)

/-- AES-256 encryption of one block. -/
def aesEnc (key block : List Nat) : List Nat :=
  let ws := keySchedule key
  let sub := fun b => List.map (fun x => sbox.getD x 0) b
  let b := (List.range 13).foldl (fun b i =>
    xorL (mixColumns [2, 3, 1, 1] (shiftRows false (sub b))) (roundKey ws (i + 1))) (xorL block (roundKey ws 0))
  xorL (shiftRows false (sub b)) (roundKey ws 14)

/-- AES-256 decryption of one block. -/
def aesDec (key block : List Nat) : List Nat :=
  let ws := keySchedule key
  let sub := fun b => List.map (fun x => sboxInv.getD x 0) b
  let b := (List.range 13).foldl (fun b i =>
    mixColumns [14, 11, 13, 9] (xorL (sub (shiftRows true b)) (roundKey ws (13 - i)))) (xorL block (roundKey ws 14))
  xorL (sub (shiftRows true b)) (roundKey ws 0)

/-! ### CMAC and the KDF of R411 -/

/-- Bytes as a big-endian number. -/
def beN (l : List Nat) : Nat := l.foldl (fun n b => 256 * n + b) 0

/-- A number as `k` big-endian bytes. -/
def beB (n k : Nat) : List Nat := (List.range k).map (fun i => n / 256 ^ (k - 1 - i) % 256)

/-- Doubling of a CMAC subkey. -/
def cmacDbl (l : List Nat) : List Nat :=
  let n := 2 * beN l
  beB (if 2 ^ 128 ≤ n then (n % 2 ^ 128) ^^^ 0x87 else n) 16

/-- The 16-byte blocks of a message, `n` of them. -/
def blocks (l : List Nat) (n : Nat) : List (List Nat) := (List.range n).map (fun i => (l.drop (16 * i)).take 16)

/-- CMAC with AES-256. -/
def cmac (key msg : List Nat) : List Nat :=
  let k1 := cmacDbl (aesEnc key (List.replicate 16 0))
  let k2 := cmacDbl k1
  let n := max 1 (cdiv msg.length 16)
  let last := (msg.drop (16 * (n - 1))).take 16
  let fin := if last.length = 16 then xorL last k1
    else xorL (last ++ [0x80] ++ List.replicate (15 - last.length) 0) k2
  aesEnc key (xorL ((blocks msg (n - 1)).foldl (fun x b => aesEnc key (xorL x b)) (List.replicate 16 0)) fin)

/-- The counter-mode KDF of SP 800-108 with CMAC (R411): the first `len` bytes. -/
def kdf (key label context : List Nat) (len : Nat) : List Nat :=
  ((List.range (cdiv len 16)).flatMap (fun i =>
    cmac key (beB (i + 1) 4 ++ label ++ [0] ++ context ++ beB (8 * len) 4))).take len

/-! ### GCM -/

/-- Multiplication in GF(2^128) of GCM, on big-endian numbers. -/
def ghashMul (x y : Nat) : Nat :=
  ((List.range 128).foldl (fun (p : Nat × Nat) i =>
    (if x.testBit (127 - i) then p.1 ^^^ p.2 else p.1,
     if p.2 % 2 = 1 then (p.2 / 2) ^^^ (0xE1 <<< 120) else p.2 / 2)) (0, y)).1

/-- Zero padding to whole blocks. -/
def padBlock (l : List Nat) : List Nat := l ++ List.replicate ((16 - l.length % 16) % 16) 0

/-- GHASH of additional data and ciphertext. -/
def ghash (h : Nat) (aad ct : List Nat) : Nat :=
  let m := padBlock aad ++ padBlock ct ++ beB (8 * aad.length) 8 ++ beB (8 * ct.length) 8
  (blocks m (m.length / 16)).foldl (fun x b => ghashMul (x ^^^ beN b) h) 0

/-- Counter-mode stream of GCM over a message with a 12-byte IV, from counter 2. -/
def gctr (key iv msg : List Nat) : List Nat :=
  (List.range (cdiv msg.length 16)).flatMap (fun i =>
    xorL ((msg.drop (16 * i)).take 16) (aesEnc key (iv ++ beB (i + 2) 4)))

/-- The GCM tag. -/
def gcmTag (key iv aad ct : List Nat) : List Nat :=
  xorL (beB (ghash (beN (aesEnc key (List.replicate 16 0))) aad ct) 16) (aesEnc key (iv ++ beB 1 4))

/-! ### SHA-384 -/

/-- Round constants of SHA-512 and SHA-384. -/
def shaK : List (BitVec 64) :=
  [0x428a2f98d728ae22#64, 0x7137449123ef65cd#64, 0xb5c0fbcfec4d3b2f#64, 0xe9b5dba58189dbbc#64] ++
  [0x3956c25bf348b538#64, 0x59f111f1b605d019#64, 0x923f82a4af194f9b#64, 0xab1c5ed5da6d8118#64] ++
  [0xd807aa98a3030242#64, 0x12835b0145706fbe#64, 0x243185be4ee4b28c#64, 0x550c7dc3d5ffb4e2#64] ++
  [0x72be5d74f27b896f#64, 0x80deb1fe3b1696b1#64, 0x9bdc06a725c71235#64, 0xc19bf174cf692694#64] ++
  [0xe49b69c19ef14ad2#64, 0xefbe4786384f25e3#64, 0x0fc19dc68b8cd5b5#64, 0x240ca1cc77ac9c65#64] ++
  [0x2de92c6f592b0275#64, 0x4a7484aa6ea6e483#64, 0x5cb0a9dcbd41fbd4#64, 0x76f988da831153b5#64] ++
  [0x983e5152ee66dfab#64, 0xa831c66d2db43210#64, 0xb00327c898fb213f#64, 0xbf597fc7beef0ee4#64] ++
  [0xc6e00bf33da88fc2#64, 0xd5a79147930aa725#64, 0x06ca6351e003826f#64, 0x142929670a0e6e70#64] ++
  [0x27b70a8546d22ffc#64, 0x2e1b21385c26c926#64, 0x4d2c6dfc5ac42aed#64, 0x53380d139d95b3df#64] ++
  [0x650a73548baf63de#64, 0x766a0abb3c77b2a8#64, 0x81c2c92e47edaee6#64, 0x92722c851482353b#64] ++
  [0xa2bfe8a14cf10364#64, 0xa81a664bbc423001#64, 0xc24b8b70d0f89791#64, 0xc76c51a30654be30#64] ++
  [0xd192e819d6ef5218#64, 0xd69906245565a910#64, 0xf40e35855771202a#64, 0x106aa07032bbd1b8#64] ++
  [0x19a4c116b8d2d0c8#64, 0x1e376c085141ab53#64, 0x2748774cdf8eeb99#64, 0x34b0bcb5e19b48a8#64] ++
  [0x391c0cb3c5c95a63#64, 0x4ed8aa4ae3418acb#64, 0x5b9cca4f7763e373#64, 0x682e6ff3d6b2b8a3#64] ++
  [0x748f82ee5defb2fc#64, 0x78a5636f43172f60#64, 0x84c87814a1f0ab72#64, 0x8cc702081a6439ec#64] ++
  [0x90befffa23631e28#64, 0xa4506cebde82bde9#64, 0xbef9a3f7b2c67915#64, 0xc67178f2e372532b#64] ++
  [0xca273eceea26619c#64, 0xd186b8c721c0c207#64, 0xeada7dd6cde0eb1e#64, 0xf57d4f7fee6ed178#64] ++
  [0x06f067aa72176fba#64, 0x0a637dc5a2c898a6#64, 0x113f9804bef90dae#64, 0x1b710b35131c471b#64] ++
  [0x28db77f523047d84#64, 0x32caab7b40c72493#64, 0x3c9ebe0a15c9bebc#64, 0x431d67c49c100d4c#64] ++
  [0x4cc5d4becb3e42b6#64, 0x597f299cfc657e2a#64, 0x5fcb6fab3ad6faec#64, 0x6c44198c4a475817#64]

/-- Initial hash value of SHA-384. -/
def shaH : List (BitVec 64) :=
  [0xcbbb9d5dc1059ed8#64, 0x629a292a367cd507#64, 0x9159015a3070dd17#64, 0x152fecd8f70e5939#64] ++
  [0x67332667ffc00b31#64, 0x8eb44a8768581511#64, 0xdb0c2e0d64f98fa7#64, 0x47b5481dbefa4fa4#64]

/-- The message schedule word `t` from the words so far, newest first. -/
def shaW (ws : List (BitVec 64)) : BitVec 64 :=
  let a := ws.getD 14 0#64
  let b := ws.getD 1 0#64
  let s0 := a.rotateRight 1 ^^^ a.rotateRight 8 ^^^ (a >>> 7)
  let s1 := b.rotateRight 19 ^^^ b.rotateRight 61 ^^^ (b >>> 6)
  s1 + ws.getD 6 0#64 + s0 + ws.getD 15 0#64

/-- One round on the eight working words. -/
def shaRound (v : List (BitVec 64)) (k w : BitVec 64) : List (BitVec 64) :=
  let g := fun i => v.getD i 0#64
  let e := g 4
  let a := g 0
  let s1 := e.rotateRight 14 ^^^ e.rotateRight 18 ^^^ e.rotateRight 41
  let ch := (e &&& g 5) ^^^ (~~~e &&& g 6)
  let t1 := g 7 + s1 + ch + k + w
  let s0 := a.rotateRight 28 ^^^ a.rotateRight 34 ^^^ a.rotateRight 39
  let mj := (a &&& g 1) ^^^ (a &&& g 2) ^^^ (g 1 &&& g 2)
  [t1 + s0 + mj, a, g 1, g 2, g 3 + t1, e, g 5, g 6]

/-- One block of 128 bytes. -/
def shaBlock (h : List (BitVec 64)) (m : List Nat) : List (BitVec 64) :=
  let w0 := (List.range 16).foldl (fun ws i => BitVec.ofNat 64 (beN ((m.drop (8 * i)).take 8)) :: ws) []
  let ws := ((List.range 64).foldl (fun ws _ => shaW ws :: ws) w0).reverse
  let v := (List.zip shaK ws).foldl (fun v p => shaRound v p.1 p.2) h
  List.zipWith (· + ·) h v

/-- SHA-384 of a message: 48 bytes. -/
def sha384 (msg : List Nat) : List Nat :=
  let z := (128 + 112 - (msg.length + 1) % 128) % 128
  let m := msg ++ [0x80] ++ List.replicate z 0 ++ beB (8 * msg.length) 16
  let h := (List.range (m.length / 128)).foldl (fun h i => shaBlock h ((m.drop (128 * i)).take 128)) shaH
  (h.take 6).flatMap (fun x => beB x.toNat 8)

/-- Bytes as numbers. -/
def nats (l : List Byte) : List Nat := l.map (·.toNat)

/-- Numbers as bytes. -/
def bytes (l : List Nat) : List Byte := l.map (BitVec.ofNat 8)

/-! ### Key derivation (R411, Table 15.5) -/

/-- A 32-byte label block: NAME, ALLOT, GEN, QUALIFIER. -/
def label (name : String) (allot gen : Nat) (qual : List Byte) : List Byte :=
  padTo (name.toList.map (fun c => BitVec.ofNat 8 c.toNat)) 16 ++ le allot 2 ++ le gen 4 ++ padTo qual 10

/-- A key of `len` bytes derived from `k` (R411). -/
def derive (k lbl ctx : List Byte) (len : Nat) : List Byte := bytes (kdf (nats k) (nats lbl) (nats ctx) len)

end Sys2Proof.Machine
end

