-- ==== Sys2Proof/Machine/Flits.lean ====
section
/-! DEFINITION. Flits of the Exsor link: layout, CRC-32, control messages and records as bytes, keys and integrity groups, the
replay buffer (R243–R249, R251, 08_twin_mirroring.md). -/

namespace Sys2Proof.Machine

open Sys2Proof

/-- Sublink `k`. -/
def subl (s : State) (k : Nat) : Sublink := tgetD s.exl.subs k {}

/-- Changes sublink `k`. -/
def modSub (s : State) (k : Nat) (f : Sublink → Sublink) : State :=
  { s with exl := { s.exl with subs := tmod s.exl.subs k {} f } }

/-! ### Layout and CRC (R243, R244) -/

/-- The CRC-32 of a flit (R244). -/
def crc32 (l : List Byte) : Nat := crcR 0xEDB88320 0xFFFFFFFF 0xFFFFFFFF l

/-- Bytes 0–251 of a flit: TYPE and SEQ, then the body (Table 8.5). -/
def flitHead (typ seq : Nat) (body : List Byte) : List Byte := le (fld typ 12 4 + fld seq 0 12) 2 ++ padTo body 250

/-- The 256 bytes of a flit; its CRC follows, least significant byte first. -/
def flitBytes (typ seq : Nat) (body : List Byte) : List Byte :=
  flitHead typ seq body ++ le (crc32 (flitHead typ seq body)) 4

/-- A flit as it arrived has a good CRC. -/
def flitGood (typ : Nat) (f : FlitIn) : Bool := f.crc == BitVec.ofNat 32 (crc32 (flitHead typ f.seq f.body))

/-! ### Control messages and records as bytes (R249, R251) -/

/-- Widths in bytes of the fields of a control message with `n` of them (Table 8.7; TABLE as log entry 51 completes it). -/
def msgWidths (typ n part : Nat) : List Nat :=
  match typ with
  | 0x01 | 0x0B => [1, 8]
  | 0x02 => [1, 4]
  | 0x03 => [4, 1, 1, 8, 8, 8, 8]
  | 0x04 => 1 :: List.replicate (n - 1) 4
  | 0x05 => [8, 4]
  | 0x06 | 0x0A => [8]
  | 0x07 => [8, 4, 8]
  | 0x08 => 4 :: 1 :: List.replicate (n - 2) 8
  | 0x09 => [1, 1, 8]
  | 0x0C | 0x0D => [4]
  | 0x0E =>
    if part == 0 then [2, 1] ++ List.replicate 16 1 ++ [4, 8, 1] ++ (List.replicate ((n - 21) / 2) [2, 1]).flatten
    else [2, 1, 4, 1] ++ List.replicate (n - 4) 4
  | 0x0F => [8, 1, 8, 1]
  | 0x13 => [4, 4, 4]
  | 0x14 => [4, 1]
  | 0x15 => (List.replicate (n / 3) [2, 8, 1]).flatten
  | 0x16 => [8, 4, 1]
  | _ => List.replicate n 1

/-- A control message: type, length, content. -/
def msgBytes (typ : Nat) (body : List Nat) : List Byte :=
  let c := ((msgWidths typ body.length (body.getD 1 0)).zip body).flatMap (fun p => le p.2 p.1)
  le typ 1 ++ le c.length 1 ++ c

/-- A record: descriptor, extension where FULL is 0, line data; disabled bytes are sent as zero (R251). -/
def mirBytes (r : MirRec) : List Byte :=
  let full := r.enables == BitVec.allOnes 64 && !r.poison
  le (fld r.line 2 38 + fld (b2n r.p) 1 1 + b2n full) 5 ++ (if full then [] else le r.enables.toNat 8 ++ le (b2n r.poison) 1)
    ++ (List.range 64).map (fun i => if r.enables.getLsbD i then r.data.getD i 0#8 else 0#8)

/-- The body of a DATA flit that holds one record; an all-ones descriptor pads the rest (R251, log entry 13). -/
def mirBody (r : MirRec) : List Byte := mirBytes r ++ List.replicate 5 0xFF#8

/-! ### Keys and integrity groups (R246, R247) -/

/-- Lower serial number, then the higher, 8 bytes each. -/
def serialPair (s : State) : List Byte :=
  let a := Config.serial.toNat
  le (min a s.exl.peerRec) 8 ++ le (max a s.exl.peerRec) 8

/-- The pair secret (Table 15.5, EXL-PAIR). -/
def pairSecret (s : State) : List Byte :=
  derive ((Config.exportSecret s.exl.secret).take 32) (label "EXL-PAIR" 0xFFFF 0 []) (serialPair s) 32

/-- The key of a direction of a sublink under a session ID; direction 0 goes from the lower serial number to the higher
(R247). -/
def linkKey (s : State) (id dir k : Nat) : List Byte :=
  let mine := padTo s.exl.mine.nonce 16
  let theirs := padTo ((s.exl.hello.map (·.nonce)).getD []) 16
  let lower := decide (Config.serial.toNat < s.exl.peerRec)
  derive (pairSecret s) (label "EXL-GCM" 0xFFFF 0 (le id 4 ++ le dir 1 ++ le k 1)) (if lower then mine ++ theirs else theirs ++ mine) 32

/-- The direction in which this unit sends. -/
def sendDir (s : State) : Nat := if Config.serial.toNat < s.exl.peerRec then 0 else 1

/-- A group of one flit and the MAC flit that closes it: the body encrypted, the header authenticated (R246). -/
def groupFlits (s : State) (k typ : Nat) (body : List Byte) : List (Nat × List Byte) :=
  let x := subl s k
  let key := nats (linkKey s x.txKey (sendDir s) k)
  let iv := beB x.txKey 4 ++ beB x.txCount 8
  let ct := gctr key iv (nats (padTo body 250))
  let tag := gcmTag key iv (nats (le (fld typ 12 4 + fld x.nextSeq 0 12) 2)) ct
  let next := (x.nextSeq + 1) % 4096
  [(x.nextSeq, flitBytes typ x.nextSeq (bytes ct)), (next, flitBytes 0x3 next (bytes tag ++ [1#8]))]

/-! ### Sending and replay (R245) -/

/-- Flits of a sublink go into its replay buffer and out. -/
def putFlits (s : State) (k : Nat) (l : List (Nat × List Byte)) : State :=
  let s := modSub s k (fun x => { x with
    nextSeq := (x.nextSeq + l.length) % 4096, replay := x.replay ++ l, ackAt := if x.replay.isEmpty then s.now else x.ackAt })
  l.foldl (fun s f => emit s (.flit k f.2)) s

/-- A sequenced flit goes out on a sublink: with the MAC flit that closes its group on an open session, alone before (R246,
R249; log entry 13). -/
def flitOut (s : State) (k typ : Nat) (body : List Byte) : State :=
  if s.exl.session then modSub (putFlits s k (groupFlits s k typ body)) k (fun x => { x with txCount := x.txCount + 2 })
  else putFlits s k [((subl s k).nextSeq, flitBytes typ (subl s k).nextSeq body)]

/-- The replay buffer has room for a flit and its MAC flit: never more than 512 are unacknowledged. -/
def replayRoom (s : State) (k : Nat) : Bool := decide ((subl s k).replay.length + 2 ≤ 512)

/-- Sends a flit, or has it wait for room in the replay buffer. -/
def sendFlit (s : State) (k typ : Nat) (body : List Byte) : State :=
  if replayRoom s k && (subl s k).txq.isEmpty then flitOut s k typ body
  else modSub s k (fun x => { x with txq := x.txq ++ [(typ, body)] })

/-- Up to `n` flits that waited go out. -/
def pumpFlits (s : State) (k n : Nat) : State :=
  match n with
  | 0 => s
  | n + 1 =>
    match (subl s k).txq with
    | [] => s
    | f :: r =>
      if !replayRoom s k then s else pumpFlits (flitOut (modSub s k (fun x => { x with txq := r })) k f.1 f.2) k n

/-- Sends a control message on sublink `k` (R249); after the cut the link carries the harvest's notices and acceptances alone
(R167). -/
def sendMsg (s : State) (k typ : Nat) (body : List Nat) : State :=
  if s.ldg.closed && !(typ == 0x01 || typ == 0x09 || typ == 0x0A) then s
  else sendFlit (emit s (.exsor k typ body)) k 0x2 (msgBytes typ body)

/-- Sublinks that are UP, ascending. -/
def subsUp (s : State) : List Nat := (s.exl.subs.filter (fun p => p.2.st == 6)).map (·.1)

/-- Sends a control message on the lowest sublink that is UP. -/
def sendLow (s : State) (typ : Nat) (body : List Nat) : State :=
  match subsUp s with | k :: _ => sendMsg s k typ body | [] => s

/-- Sends a control message on every sublink that is UP. -/
def sendEvery (s : State) (typ : Nat) (body : List Nat) : State := (subsUp s).foldl (fun s k => sendMsg s k typ body) s

end Sys2Proof.Machine
end

