-- ==== Sys2Proof/Machine/RegMap.lean ====
section
/-! DEFINITION. The register map (R474, 19_register_map.md) and the field tables of every register section: bit
range, access type and reset value of each named field. Offsets of instanced blocks are those of instance 0. -/

namespace Sys2Proof.Machine

open Sys2Proof

/-- Access types of Table 19.2 (R476). -/
inductive Acc where
  | ro | rw | rws | rc | wo | w1c
  deriving DecidableEq, Repr

/-- A field: low bit, width, access type, reset value. -/
structure FieldD where
  lo : Nat
  w : Nat
  acc : Acc
  rst : Nat
  deriving DecidableEq, Repr

/-- A register: offset of instance 0, whether it is 64 bits wide, its fields. -/
structure RegD where
  addr : Nat
  wide : Bool
  fields : List FieldD
  deriving DecidableEq, Repr

/-- TOP_ID -/
abbrev rTopId : Nat := 0x00000000
/-- TOP_CAPS -/
abbrev rTopCaps : Nat := 0x00000004
/-- TOP_FW -/
abbrev rTopFw : Nat := 0x00000008
/-- TOP_STATUS -/
abbrev rTopStatus : Nat := 0x00000010

/-- The registers of block TOP. -/
def regsTop : List RegD := [
  ⟨rTopId, false, [⟨16, 16, .ro, 0x7716⟩, ⟨8, 8, .ro, 0xB1⟩, ⟨0, 8, .ro, 0x1⟩]⟩,
  ⟨rTopCaps, false, [⟨29, 3, .ro, 0x4⟩, ⟨24, 5, .ro, 0x10⟩, ⟨18, 6, .ro, 0x20⟩, ⟨15, 3, .ro, 0x4⟩, ⟨10, 5, .ro, 0x10⟩]⟩,
  ⟨rTopFw, false, [⟨0, 32, .ro, 0x0⟩]⟩,
  ⟨rTopStatus, false, [⟨28, 4, .ro, 0x4⟩, ⟨27, 1, .ro, 0x0⟩, ⟨26, 1, .ro, 0x0⟩, ⟨25, 1, .ro, 0x0⟩, ⟨24, 1, .ro, 0x0⟩, ⟨23, 1, .ro, 0x0⟩, ⟨22, 1, .ro, 0x0⟩, ⟨19, 3, .ro, 0x0⟩, ⟨17, 2, .ro, 0x0⟩, ⟨16, 1, .ro, 0x0⟩, ⟨0, 10, .ro, 0x0⟩]⟩]

/-- FUS_WORD0 -/
abbrev rFusWord0 : Nat := 0x00100000
/-- FUS_SERIAL -/
abbrev rFusSerial : Nat := 0x00100008

/-- The registers of block FUS. -/
def regsFus : List RegD := [
  ⟨rFusWord0, false, [⟨19, 2, .ro, 0x0⟩, ⟨8, 11, .ro, 0x0⟩, ⟨6, 1, .ro, 0x0⟩, ⟨4, 2, .ro, 0x0⟩, ⟨0, 4, .ro, 0x0⟩]⟩,
  ⟨rFusSerial, true, [⟨0, 64, .ro, 0x0⟩]⟩]

/-- MPX_LOAD -/
abbrev rMpxLoad : Nat := 0x00200000
/-- MPX_PAIR -/
abbrev rMpxPair : Nat := 0x00200004
/-- MPX_CFG -/
abbrev rMpxCfg : Nat := 0x00200010
/-- MPX_RESIDENCE -/
abbrev rMpxResidence : Nat := 0x00200014

/-- The registers of block MPX. -/
def regsMpx : List RegD := [
  ⟨rMpxLoad, false, [⟨30, 2, .ro, 0x0⟩, ⟨16, 8, .ro, 0x0⟩, ⟨8, 8, .ro, 0x0⟩, ⟨0, 8, .rc, 0x0⟩]⟩,
  ⟨rMpxPair, false, [⟨30, 2, .ro, 0x1⟩, ⟨28, 2, .ro, 0x1⟩, ⟨16, 8, .rc, 0x0⟩, ⟨8, 8, .rc, 0x0⟩]⟩,
  ⟨rMpxCfg, false, [⟨0, 16, .rws, 0xA⟩]⟩,
  ⟨rMpxResidence, false, [⟨16, 16, .ro, 0x0⟩, ⟨0, 16, .ro, 0x0⟩]⟩]

/-- TRL_ADMIT -/
abbrev rTrlAdmit : Nat := 0x00400010
/-- TRL_QP_BIND -/
abbrev rTrlQpBind : Nat := 0x00401000
/-- TRL_QP_SQ_BASE -/
abbrev rTrlQpSqBase : Nat := 0x00401008
/-- TRL_QP_CQ_BASE -/
abbrev rTrlQpCqBase : Nat := 0x00401010
/-- TRL_QP_CQ_TAIL_ADDR -/
abbrev rTrlQpCqTailAddr : Nat := 0x00401018
/-- TRL_QP_SIZE -/
abbrev rTrlQpSize : Nat := 0x00401020
/-- TRL_QP_SQ_TAIL_DB -/
abbrev rTrlQpSqTailDb : Nat := 0x00401024
/-- TRL_QP_CQ_HEAD_DB -/
abbrev rTrlQpCqHeadDb : Nat := 0x00401028
/-- TRL_QP_STATUS -/
abbrev rTrlQpStatus : Nat := 0x0040102C
/-- TRL_QP_CREDIT -/
abbrev rTrlQpCredit : Nat := 0x00401030

/-- The registers of block TRL. -/
def regsTrl : List RegD := [
  ⟨rTrlAdmit, false, [⟨16, 12, .ro, 0x0⟩, ⟨0, 6, .ro, 0x0⟩]⟩,
  ⟨rTrlQpBind, false, [⟨31, 1, .rw, 0x0⟩, ⟨30, 1, .rw, 0x0⟩, ⟨16, 11, .rw, 0x0⟩, ⟨0, 16, .rw, 0x0⟩]⟩,
  ⟨rTrlQpSqBase, true, [⟨12, 52, .rw, 0x0⟩]⟩,
  ⟨rTrlQpCqBase, true, [⟨12, 52, .rw, 0x0⟩]⟩,
  ⟨rTrlQpCqTailAddr, true, [⟨2, 62, .rw, 0x0⟩]⟩,
  ⟨rTrlQpSize, false, [⟨16, 10, .rw, 0xF⟩, ⟨0, 10, .rw, 0xF⟩]⟩,
  ⟨rTrlQpSqTailDb, false, [⟨0, 10, .wo, 0x0⟩]⟩,
  ⟨rTrlQpCqHeadDb, false, [⟨0, 10, .wo, 0x0⟩]⟩,
  ⟨rTrlQpStatus, false, [⟨30, 2, .ro, 0x0⟩, ⟨24, 6, .ro, 0x0⟩, ⟨10, 10, .ro, 0x0⟩, ⟨0, 10, .ro, 0x0⟩]⟩,
  ⟨rTrlQpCredit, false, [⟨20, 10, .ro, 0x0⟩, ⟨10, 10, .ro, 0x40⟩, ⟨0, 10, .rw, 0x40⟩]⟩]

/-- CXLn_CFG -/
abbrev rCxlCfg : Nat := 0x00800000
/-- CXLn_STATUS -/
abbrev rCxlStatus : Nat := 0x00800004
/-- CXLn_QOS -/
abbrev rCxlQos : Nat := 0x00800010
/-- CXLn_DROP -/
abbrev rCxlDrop : Nat := 0x00800014

/-- The registers of block CXL. -/
def regsCxl : List RegD := [
  ⟨rCxlCfg, false, [⟨31, 1, .rws, 0x1⟩, ⟨26, 2, .rws, 0x0⟩, ⟨24, 2, .rws, 0x0⟩, ⟨23, 1, .rws, 0x0⟩]⟩,
  ⟨rCxlStatus, false, [⟨30, 2, .ro, 0x0⟩, ⟨24, 6, .ro, 0x0⟩, ⟨22, 2, .ro, 0x0⟩, ⟨21, 1, .ro, 0x0⟩, ⟨19, 2, .ro, 0x0⟩, ⟨17, 2, .ro, 0x0⟩, ⟨0, 13, .ro, 0x0⟩]⟩,
  ⟨rCxlQos, false, [⟨0, 16, .rws, 0x3E8⟩]⟩,
  ⟨rCxlDrop, false, [⟨24, 8, .rc, 0x0⟩, ⟨23, 1, .rc, 0x0⟩, ⟨0, 23, .rc, 0x0⟩]⟩]

/-- ALT_EXT_TOTAL -/
abbrev rAltExtTotal : Nat := 0x01000000
/-- ALT_EXT_FREE -/
abbrev rAltExtFree : Nat := 0x01000004
/-- ALT_COUNTS -/
abbrev rAltCounts : Nat := 0x01000008
/-- ALT_SEL -/
abbrev rAltSel : Nat := 0x01000010
/-- ALT_INFO -/
abbrev rAltInfo : Nat := 0x01000014

/-- The registers of block ALT. -/
def regsAlt : List RegD := [
  ⟨rAltExtTotal, false, [⟨0, 17, .ro, 0x0⟩]⟩,
  ⟨rAltExtFree, false, [⟨0, 17, .ro, 0x0⟩]⟩,
  ⟨rAltCounts, false, [⟨16, 13, .ro, 0x0⟩, ⟨0, 15, .ro, 0x0⟩]⟩,
  ⟨rAltSel, false, [⟨0, 12, .rw, 0x0⟩]⟩,
  ⟨rAltInfo, false, [⟨31, 1, .ro, 0x0⟩, ⟨28, 3, .ro, 0x0⟩, ⟨27, 1, .ro, 0x0⟩, ⟨26, 1, .ro, 0x0⟩, ⟨25, 1, .ro, 0x0⟩, ⟨24, 1, .ro, 0x0⟩, ⟨0, 17, .ro, 0x0⟩]⟩]

/-- DDRn_CFG -/
abbrev rDdrCfg : Nat := 0x02000000
/-- DDRn_STATUS -/
abbrev rDdrStatus : Nat := 0x02000004
/-- DDRn_TRAIN -/
abbrev rDdrTrain : Nat := 0x02000010
/-- DDRn_LANE_SEL -/
abbrev rDdrLaneSel : Nat := 0x02000014
/-- DDRn_LANE_DELAY -/
abbrev rDdrLaneDelay : Nat := 0x02000018
/-- DDRn_SCRUB -/
abbrev rDdrScrub : Nat := 0x02000020
/-- DDRn_ECC -/
abbrev rDdrEcc : Nat := 0x02000030
/-- DDRn_ECC_ADDR -/
abbrev rDdrEccAddr : Nat := 0x02000038
/-- DDRn_TALLY -/
abbrev rDdrTally : Nat := 0x02000040

/-- The registers of block DDR. -/
def regsDdr : List RegD := [
  ⟨rDdrCfg, false, [⟨24, 3, .rws, 0x4⟩, ⟨16, 1, .rws, 0x1⟩, ⟨0, 16, .rws, 0x40⟩]⟩,
  ⟨rDdrStatus, false, [⟨29, 3, .ro, 0x0⟩, ⟨24, 5, .ro, 0x0⟩, ⟨22, 2, .ro, 0x0⟩, ⟨19, 3, .ro, 0x0⟩, ⟨16, 3, .ro, 0x0⟩, ⟨8, 8, .ro, 0x0⟩, ⟨0, 8, .ro, 0x0⟩]⟩,
  ⟨rDdrTrain, false, [⟨16, 16, .ro, 0x0⟩, ⟨8, 8, .ro, 0x0⟩, ⟨4, 4, .rc, 0x0⟩]⟩,
  ⟨rDdrLaneSel, false, [⟨6, 2, .rw, 0x0⟩, ⟨3, 3, .rw, 0x0⟩, ⟨0, 3, .rw, 0x0⟩]⟩,
  ⟨rDdrLaneDelay, false, [⟨31, 1, .rc, 0x0⟩, ⟨30, 1, .ro, 0x0⟩, ⟨16, 8, .ro, 0x0⟩, ⟨8, 7, .rw, 0x0⟩, ⟨0, 7, .rw, 0x0⟩]⟩,
  ⟨rDdrScrub, false, [⟨31, 1, .rc, 0x0⟩, ⟨30, 1, .ro, 0x0⟩, ⟨16, 14, .ro, 0x0⟩, ⟨0, 16, .rw, 0x0⟩]⟩,
  ⟨rDdrEcc, false, [⟨16, 16, .rc, 0x0⟩, ⟨8, 8, .rc, 0x0⟩, ⟨4, 4, .rc, 0x0⟩, ⟨3, 1, .rc, 0x0⟩]⟩,
  ⟨rDdrEccAddr, true, [⟨6, 36, .ro, 0x0⟩]⟩,
  ⟨rDdrTally, false, [⟨31, 1, .ro, 0x0⟩, ⟨30, 1, .ro, 0x0⟩, ⟨0, 16, .rc, 0x0⟩]⟩]

/-- DRP_EXPOSURE -/
abbrev rDrpExposure : Nat := 0x02800000
/-- DRP_LIMIT -/
abbrev rDrpLimit : Nat := 0x02800004
/-- DRP_STAGE -/
abbrev rDrpStage : Nat := 0x02800008
/-- DRP_EXP_CFG -/
abbrev rDrpExpCfg : Nat := 0x02800010
/-- DRP_MARGIN_CFG -/
abbrev rDrpMarginCfg : Nat := 0x02800014
/-- DRP_ENERGY -/
abbrev rDrpEnergy : Nat := 0x02800020
/-- DRP_EBYTE -/
abbrev rDrpEbyte : Nat := 0x02800024
/-- DRP_HARVEST_CAP -/
abbrev rDrpHarvestCap : Nat := 0x02800028
/-- DRP_WEAR -/
abbrev rDrpWear : Nat := 0x02800030
/-- DRP_WEAR_RATE -/
abbrev rDrpWearRate : Nat := 0x02800034
/-- DRP_WEAR_SPENT -/
abbrev rDrpWearSpent : Nat := 0x02800038
/-- DRP_DRIP -/
abbrev rDrpDrip : Nat := 0x02800040

/-- The registers of block DRP. -/
def regsDrp : List RegD := [
  ⟨rDrpExposure, false, [⟨0, 28, .ro, 0x0⟩]⟩,
  ⟨rDrpLimit, false, [⟨29, 3, .ro, 0x0⟩, ⟨0, 28, .ro, 0x0⟩]⟩,
  ⟨rDrpStage, false, [⟨24, 8, .ro, 0x0⟩, ⟨8, 2, .ro, 0x0⟩, ⟨7, 1, .ro, 0x0⟩, ⟨6, 1, .ro, 0x0⟩, ⟨5, 1, .ro, 0x0⟩, ⟨0, 3, .ro, 0x0⟩]⟩,
  ⟨rDrpExpCfg, false, [⟨16, 12, .rws, 0x200⟩, ⟨0, 5, .rws, 0x0⟩]⟩,
  ⟨rDrpMarginCfg, false, [⟨16, 8, .rws, 0xA⟩, ⟨0, 16, .rws, 0xC8⟩]⟩,
  ⟨rDrpEnergy, false, [⟨0, 32, .ro, 0x0⟩]⟩,
  ⟨rDrpEbyte, false, [⟨31, 1, .ro, 0x0⟩, ⟨16, 15, .ro, 0x28A⟩, ⟨0, 16, .ro, 0xD48⟩]⟩,
  ⟨rDrpHarvestCap, false, [⟨0, 12, .ro, 0x0⟩]⟩,
  ⟨rDrpWear, false, [⟨31, 1, .ro, 0x0⟩, ⟨30, 1, .ro, 0x0⟩, ⟨29, 1, .ro, 0x0⟩, ⟨0, 16, .ro, 0x3E8⟩]⟩,
  ⟨rDrpWearRate, false, [⟨16, 16, .ro, 0x0⟩, ⟨0, 16, .ro, 0x0⟩]⟩,
  ⟨rDrpWearSpent, true, [⟨0, 64, .ro, 0x0⟩]⟩,
  ⟨rDrpDrip, false, [⟨16, 16, .ro, 0x0⟩, ⟨0, 16, .rc, 0x0⟩]⟩]

/-- HRV_CFG -/
abbrev rHrvCfg : Nat := 0x02A00000
/-- HRV_STATUS -/
abbrev rHrvStatus : Nat := 0x02A00004
/-- HRV_CUT -/
abbrev rHrvCut : Nat := 0x02A00008
/-- HRV_LAST_GRANULES -/
abbrev rHrvLastGranules : Nat := 0x02A00010
/-- HRV_LAST_TIME_US -/
abbrev rHrvLastTimeUs : Nat := 0x02A00014
/-- HRV_LOSS -/
abbrev rHrvLoss : Nat := 0x02A00018
/-- HRV_REPLANT_LEFT -/
abbrev rHrvReplantLeft : Nat := 0x02A00020
/-- HRV_FETCH -/
abbrev rHrvFetch : Nat := 0x02A00024
/-- HRV_HARV_RATE -/
abbrev rHrvHarvRate : Nat := 0x02A00030
/-- HRV_HARV_FLOOR -/
abbrev rHrvHarvFloor : Nat := 0x02A00034
/-- HRV_REPL_RATE -/
abbrev rHrvReplRate : Nat := 0x02A00038
/-- HRV_REPL_FLOOR -/
abbrev rHrvReplFloor : Nat := 0x02A0003C
/-- HRV_SEAL_SEQ -/
abbrev rHrvSealSeq : Nat := 0x02A00040

/-- The registers of block HRV. -/
def regsHrv : List RegD := [
  ⟨rHrvCfg, false, [⟨31, 1, .rws, 0x0⟩, ⟨30, 1, .rws, 0x1⟩]⟩,
  ⟨rHrvStatus, false, [⟨28, 4, .ro, 0x0⟩, ⟨27, 1, .ro, 0x0⟩, ⟨26, 1, .ro, 0x0⟩, ⟨25, 1, .ro, 0x0⟩, ⟨24, 1, .ro, 0x0⟩]⟩,
  ⟨rHrvCut, false, [⟨16, 16, .ro, 0x0⟩, ⟨0, 16, .ro, 0x0⟩]⟩,
  ⟨rHrvLastGranules, false, [⟨0, 32, .ro, 0x0⟩]⟩,
  ⟨rHrvLastTimeUs, false, [⟨0, 32, .ro, 0x0⟩]⟩,
  ⟨rHrvLoss, false, [⟨16, 15, .ro, 0x0⟩, ⟨0, 3, .ro, 0x0⟩]⟩,
  ⟨rHrvReplantLeft, false, [⟨0, 32, .ro, 0x0⟩]⟩,
  ⟨rHrvFetch, false, [⟨16, 16, .ro, 0x0⟩, ⟨0, 16, .ro, 0x0⟩]⟩,
  ⟨rHrvHarvRate, false, [⟨0, 32, .ro, 0x0⟩]⟩,
  ⟨rHrvHarvFloor, false, [⟨0, 32, .ro, 0x0⟩]⟩,
  ⟨rHrvReplRate, false, [⟨0, 32, .ro, 0x0⟩]⟩,
  ⟨rHrvReplFloor, false, [⟨0, 32, .ro, 0x0⟩]⟩,
  ⟨rHrvSealSeq, true, [⟨0, 64, .ro, 0x0⟩]⟩]

/-- FCEn_CFG -/
abbrev rFceCfg : Nat := 0x03000000
/-- FCEn_STATUS -/
abbrev rFceStatus : Nat := 0x03000004
/-- FCEn_EFFORT -/
abbrev rFceEffort : Nat := 0x03000010
/-- FCEn_EFFORT_HI -/
abbrev rFceEffortHi : Nat := 0x03000014
/-- FCEn_RETRY_HIST -/
abbrev rFceRetryHist : Nat := 0x03000020
/-- FCEn_ERR -/
abbrev rFceErr : Nat := 0x03000040

/-- The registers of block FCE. -/
def regsFce : List RegD := [
  ⟨rFceCfg, false, [⟨31, 1, .rws, 0x1⟩, ⟨0, 2, .rws, 0x3⟩]⟩,
  ⟨rFceStatus, false, [⟨29, 3, .ro, 0x0⟩, ⟨24, 5, .ro, 0x0⟩, ⟨19, 5, .ro, 0x0⟩, ⟨17, 2, .ro, 0x0⟩, ⟨0, 16, .ro, 0x0⟩]⟩,
  ⟨rFceEffort, false, [⟨16, 16, .rc, 0x0⟩, ⟨0, 16, .rc, 0x0⟩]⟩,
  ⟨rFceEffortHi, false, [⟨16, 16, .rc, 0x0⟩, ⟨0, 16, .rc, 0x0⟩]⟩,
  ⟨rFceRetryHist + 0, false, [⟨16, 16, .rc, 0x0⟩, ⟨0, 16, .rc, 0x0⟩]⟩,
  ⟨rFceRetryHist + 4, false, [⟨16, 16, .rc, 0x0⟩, ⟨0, 16, .rc, 0x0⟩]⟩,
  ⟨rFceRetryHist + 8, false, [⟨16, 16, .rc, 0x0⟩, ⟨0, 16, .rc, 0x0⟩]⟩,
  ⟨rFceRetryHist + 12, false, [⟨16, 16, .rc, 0x0⟩, ⟨0, 16, .rc, 0x0⟩]⟩,
  ⟨rFceRetryHist + 16, false, [⟨16, 16, .rc, 0x0⟩, ⟨0, 16, .rc, 0x0⟩]⟩,
  ⟨rFceRetryHist + 20, false, [⟨16, 16, .rc, 0x0⟩, ⟨0, 16, .rc, 0x0⟩]⟩,
  ⟨rFceRetryHist + 24, false, [⟨16, 16, .rc, 0x0⟩, ⟨0, 16, .rc, 0x0⟩]⟩,
  ⟨rFceRetryHist + 28, false, [⟨16, 16, .rc, 0x0⟩, ⟨0, 16, .rc, 0x0⟩]⟩,
  ⟨rFceErr, false, [⟨24, 8, .rc, 0x0⟩, ⟨16, 8, .rc, 0x0⟩, ⟨8, 8, .rc, 0x0⟩, ⟨0, 8, .rc, 0x0⟩]⟩]

/-- FTL_CFG -/
abbrev rFtlCfg : Nat := 0x03400000
/-- FTL_WEAR_CFG -/
abbrev rFtlWearCfg : Nat := 0x03400004
/-- FTL_STATUS -/
abbrev rFtlStatus : Nat := 0x03400010
/-- FTL_SPARE -/
abbrev rFtlSpare : Nat := 0x03400014
/-- FTL_RETIRED -/
abbrev rFtlRetired : Nat := 0x03400018
/-- FTL_JOURNAL -/
abbrev rFtlJournal : Nat := 0x03400020
/-- FTL_COMMIT_SEQ -/
abbrev rFtlCommitSeq : Nat := 0x03400028
/-- FTL_WA -/
abbrev rFtlWa : Nat := 0x03400030
/-- FTL_STREAM_SEL -/
abbrev rFtlStreamSel : Nat := 0x03400040
/-- FTL_STREAM -/
abbrev rFtlStream : Nat := 0x03400044
/-- FTL_WEAR_HOST -/
abbrev rFtlWearHost : Nat := 0x03400048

/-- The registers of block FTL. -/
def regsFtl : List RegD := [
  ⟨rFtlCfg, false, [⟨24, 8, .rws, 0x2⟩, ⟨16, 8, .rws, 0x7D⟩]⟩,
  ⟨rFtlWearCfg, false, [⟨16, 16, .rws, 0xC8⟩, ⟨0, 8, .rws, 0x10⟩]⟩,
  ⟨rFtlStatus, false, [⟨20, 12, .ro, 0x0⟩, ⟨8, 12, .ro, 0x0⟩, ⟨7, 1, .ro, 0x0⟩, ⟨6, 1, .ro, 0x0⟩, ⟨5, 1, .ro, 0x0⟩, ⟨4, 1, .ro, 0x0⟩, ⟨3, 1, .ro, 0x0⟩]⟩,
  ⟨rFtlSpare, false, [⟨24, 8, .ro, 0x64⟩, ⟨8, 8, .ro, 0x0⟩, ⟨4, 4, .ro, 0x0⟩]⟩,
  ⟨rFtlRetired, false, [⟨16, 16, .ro, 0x0⟩, ⟨0, 16, .ro, 0x0⟩]⟩,
  ⟨rFtlJournal, false, [⟨16, 16, .ro, 0x0⟩, ⟨0, 16, .ro, 0x0⟩]⟩,
  ⟨rFtlCommitSeq, true, [⟨0, 64, .ro, 0x0⟩]⟩,
  ⟨rFtlWa, false, [⟨16, 16, .ro, 0x64⟩, ⟨0, 16, .ro, 0x0⟩]⟩,
  ⟨rFtlStreamSel, false, [⟨0, 12, .rw, 0x0⟩]⟩,
  ⟨rFtlStream, false, [⟨0, 2, .rw, 0x0⟩]⟩,
  ⟨rFtlWearHost, false, [⟨31, 1, .rc, 0x0⟩, ⟨16, 1, .rw, 0x0⟩, ⟨8, 8, .rw, 0x14⟩, ⟨0, 8, .rw, 0x10⟩]⟩]

/-- EXL_CFG -/
abbrev rExlCfg : Nat := 0x04000000
/-- EXL_STATUS -/
abbrev rExlStatus : Nat := 0x04000004
/-- EXL_SUBLINK0 -/
abbrev rExlSublink0 : Nat := 0x04000010
/-- EXL_SUBLINK1 -/
abbrev rExlSublink1 : Nat := 0x04000014
/-- EXL_SUBLINK2 -/
abbrev rExlSublink2 : Nat := 0x04000018
/-- EXL_SUBLINK3 -/
abbrev rExlSublink3 : Nat := 0x0400001C
/-- EXL_REPLAY -/
abbrev rExlReplay : Nat := 0x04000020
/-- EXL_SESSION -/
abbrev rExlSession : Nat := 0x04000030
/-- EXL_KEY -/
abbrev rExlKey : Nat := 0x04000034
/-- EXL_EPOCH -/
abbrev rExlEpoch : Nat := 0x04000040
/-- EXL_PAYLOAD_TX -/
abbrev rExlPayloadTx : Nat := 0x04000048
/-- EXL_PAYLOAD_RX -/
abbrev rExlPayloadRx : Nat := 0x04000050
/-- EXL_PEER_SERIAL -/
abbrev rExlPeerSerial : Nat := 0x04000058
/-- EXL_FO_CFG -/
abbrev rExlFoCfg : Nat := 0x04000060
/-- EXL_HB_OUT0 -/
abbrev rExlHbOut0 : Nat := 0x04000070
/-- EXL_HB_OUT1 -/
abbrev rExlHbOut1 : Nat := 0x04000074
/-- EXL_HB_OUT2 -/
abbrev rExlHbOut2 : Nat := 0x04000078
/-- EXL_HB_OUT3 -/
abbrev rExlHbOut3 : Nat := 0x0400007C
/-- EXL_HB_IN0 -/
abbrev rExlHbIn0 : Nat := 0x04000080
/-- EXL_HB_IN1 -/
abbrev rExlHbIn1 : Nat := 0x04000084
/-- EXL_HB_IN2 -/
abbrev rExlHbIn2 : Nat := 0x04000088
/-- EXL_HB_IN3 -/
abbrev rExlHbIn3 : Nat := 0x0400008C
/-- EXL_RESYNC -/
abbrev rExlResync : Nat := 0x04000090

/-- The registers of block EXL. -/
def regsExl : List RegD := [
  ⟨rExlCfg, false, [⟨31, 1, .rws, 0x1⟩, ⟨30, 1, .rws, 0x1⟩, ⟨16, 8, .rws, 0x19⟩, ⟨0, 4, .rws, 0xF⟩]⟩,
  ⟨rExlStatus, false, [⟨29, 3, .ro, 0x0⟩, ⟨28, 1, .ro, 0x0⟩, ⟨27, 1, .ro, 0x0⟩, ⟨26, 1, .ro, 0x0⟩, ⟨25, 1, .ro, 0x0⟩, ⟨24, 1, .ro, 0x0⟩, ⟨20, 4, .ro, 0x0⟩, ⟨8, 8, .ro, 0x0⟩]⟩,
  ⟨rExlSublink0, false, [⟨29, 3, .ro, 0x0⟩, ⟨16, 5, .rc, 0x0⟩, ⟨0, 16, .ro, 0x0⟩]⟩,
  ⟨rExlSublink1, false, [⟨29, 3, .ro, 0x0⟩, ⟨16, 5, .rc, 0x0⟩, ⟨0, 16, .ro, 0x0⟩]⟩,
  ⟨rExlSublink2, false, [⟨29, 3, .ro, 0x0⟩, ⟨16, 5, .rc, 0x0⟩, ⟨0, 16, .ro, 0x0⟩]⟩,
  ⟨rExlSublink3, false, [⟨29, 3, .ro, 0x0⟩, ⟨16, 5, .rc, 0x0⟩, ⟨0, 16, .ro, 0x0⟩]⟩,
  ⟨rExlReplay, false, [⟨16, 16, .rc, 0x0⟩, ⟨0, 16, .rc, 0x0⟩]⟩,
  ⟨rExlSession, false, [⟨0, 32, .ro, 0x0⟩]⟩,
  ⟨rExlKey, false, [⟨16, 16, .rc, 0x0⟩, ⟨0, 6, .ro, 0x0⟩]⟩,
  ⟨rExlEpoch, true, [⟨0, 64, .ro, 0x0⟩]⟩,
  ⟨rExlPayloadTx, true, [⟨0, 64, .ro, 0x0⟩]⟩,
  ⟨rExlPayloadRx, true, [⟨0, 64, .ro, 0x0⟩]⟩,
  ⟨rExlPeerSerial, true, [⟨0, 64, .ro, 0x0⟩]⟩,
  ⟨rExlFoCfg, false, [⟨31, 1, .rws, 0x0⟩, ⟨24, 6, .rws, 0x5⟩, ⟨12, 12, .rws, 0x28⟩, ⟨0, 12, .rws, 0x64⟩]⟩,
  ⟨rExlHbOut0, false, [⟨0, 32, .ro, 0x0⟩]⟩,
  ⟨rExlHbOut1, false, [⟨0, 32, .ro, 0x0⟩]⟩,
  ⟨rExlHbOut2, false, [⟨0, 32, .ro, 0x0⟩]⟩,
  ⟨rExlHbOut3, false, [⟨0, 32, .ro, 0x0⟩]⟩,
  ⟨rExlHbIn0, false, [⟨0, 32, .wo, 0x0⟩]⟩,
  ⟨rExlHbIn1, false, [⟨0, 32, .wo, 0x0⟩]⟩,
  ⟨rExlHbIn2, false, [⟨0, 32, .wo, 0x0⟩]⟩,
  ⟨rExlHbIn3, false, [⟨0, 32, .wo, 0x0⟩]⟩,
  ⟨rExlResync, false, [⟨16, 15, .ro, 0x0⟩, ⟨0, 16, .ro, 0x0⟩]⟩]

/-- LDG_SEL -/
abbrev rLdgSel : Nat := 0x04400000
/-- LDG_SEQ -/
abbrev rLdgSeq : Nat := 0x04400008
/-- LDG_TWIN_ROOM -/
abbrev rLdgTwinRoom : Nat := 0x04400010

/-- The registers of block LDG. -/
def regsLdg : List RegD := [
  ⟨rLdgSel, false, [⟨0, 6, .rw, 0x0⟩]⟩,
  ⟨rLdgSeq, true, [⟨0, 64, .ro, 0x0⟩]⟩,
  ⟨rLdgTwinRoom, false, [⟨0, 32, .ro, 0x0⟩]⟩]

/-- TIN_STATUS -/
abbrev rTinStatus : Nat := 0x04800000
/-- TIN_BED_SEL -/
abbrev rTinBedSel : Nat := 0x04800010
/-- TIN_BED -/
abbrev rTinBed : Nat := 0x04800014
/-- TIN_COUNTS -/
abbrev rTinCounts : Nat := 0x04800020
/-- TIN_FAIL -/
abbrev rTinFail : Nat := 0x04800024
/-- TIN_DONE -/
abbrev rTinDone : Nat := 0x04800030

/-- The registers of block TIN. -/
def regsTin : List RegD := [
  ⟨rTinStatus, false, [⟨24, 8, .ro, 0x0⟩, ⟨16, 8, .ro, 0x0⟩, ⟨0, 16, .ro, 0x0⟩]⟩,
  ⟨rTinBedSel, false, [⟨0, 4, .rw, 0x0⟩]⟩,
  ⟨rTinBed, false, [⟨24, 8, .ro, 0x0⟩, ⟨23, 1, .ro, 0x0⟩, ⟨22, 1, .ro, 0x0⟩, ⟨12, 7, .ro, 0x0⟩, ⟨0, 12, .ro, 0x0⟩]⟩,
  ⟨rTinCounts, false, [⟨16, 16, .rc, 0x0⟩, ⟨0, 16, .rc, 0x0⟩]⟩,
  ⟨rTinFail, false, [⟨28, 4, .rc, 0x0⟩, ⟨20, 7, .rc, 0x0⟩, ⟨8, 12, .rc, 0x0⟩, ⟨0, 8, .rc, 0x0⟩]⟩,
  ⟨rTinDone, true, [⟨0, 64, .ro, 0x0⟩]⟩]

/-- AON_OP_SECONDS -/
abbrev rAonOpSeconds : Nat := 0x05000000
/-- AON_POWER_CYCLES -/
abbrev rAonPowerCycles : Nat := 0x05000008
/-- AON_DEV_STATE -/
abbrev rAonDevState : Nat := 0x05000010
/-- AON_HOLD_CFG -/
abbrev rAonHoldCfg : Nat := 0x05000014
/-- AON_PF_CFG -/
abbrev rAonPfCfg : Nat := 0x05000018
/-- AON_AVS -/
abbrev rAonAvs : Nat := 0x05000020
/-- AON_TEMP -/
abbrev rAonTemp : Nat := 0x05000024

/-- The registers of block AON. -/
def regsAon : List RegD := [
  ⟨rAonOpSeconds, true, [⟨0, 40, .ro, 0x0⟩]⟩,
  ⟨rAonPowerCycles, false, [⟨0, 32, .ro, 0x0⟩]⟩,
  ⟨rAonDevState, false, [⟨20, 4, .ro, 0x0⟩, ⟨8, 8, .ro, 0x0⟩, ⟨4, 1, .ro, 0x0⟩, ⟨0, 4, .ro, 0x0⟩]⟩,
  ⟨rAonHoldCfg, false, [⟨16, 16, .rws, 0x258⟩, ⟨0, 7, .rws, 0x1E⟩]⟩,
  ⟨rAonPfCfg, false, [⟨31, 1, .rws, 0x0⟩, ⟨0, 2, .ro, 0x0⟩]⟩,
  ⟨rAonAvs, false, [⟨0, 10, .ro, 0x0⟩]⟩,
  ⟨rAonTemp, false, [⟨24, 8, .ro, 0x80⟩, ⟨16, 8, .ro, 0x0⟩]⟩]

/-- GAU_PACK_CFG -/
abbrev rGauPackCfg : Nat := 0x05100000
/-- GAU_SENSE_CFG -/
abbrev rGauSenseCfg : Nat := 0x05100004
/-- GAU_DESIGN -/
abbrev rGauDesign : Nat := 0x05100008
/-- GAU_TS_CFG -/
abbrev rGauTsCfg : Nat := 0x0510000C
/-- GAU_STATUS -/
abbrev rGauStatus : Nat := 0x05100010
/-- GAU_SOC -/
abbrev rGauSoc : Nat := 0x05100014
/-- GAU_VOLT -/
abbrev rGauVolt : Nat := 0x05100018
/-- GAU_CURR -/
abbrev rGauCurr : Nat := 0x0510001C
/-- GAU_ENERGY_C -/
abbrev rGauEnergyC : Nat := 0x05100020
/-- GAU_ENERGY_V -/
abbrev rGauEnergyV : Nat := 0x05100024
/-- GAU_DERATE -/
abbrev rGauDerate : Nat := 0x05100028
/-- GAU_LEARN -/
abbrev rGauLearn : Nat := 0x0510002C
/-- GAU_TEMP -/
abbrev rGauTemp : Nat := 0x05100030
/-- GAU_RPACK -/
abbrev rGauRpack : Nat := 0x05100034
/-- GAU_COULOMB -/
abbrev rGauCoulomb : Nat := 0x05100040
/-- GAU_REH_CFG -/
abbrev rGauRehCfg : Nat := 0x05100050
/-- GAU_REH_STATUS -/
abbrev rGauRehStatus : Nat := 0x05100054
/-- GAU_HOST_SOC -/
abbrev rGauHostSoc : Nat := 0x05100060

/-- The registers of block GAU. -/
def regsGau : List RegD := [
  ⟨rGauPackCfg, false, [⟨31, 1, .rw, 0x1⟩, ⟨30, 1, .rw, 0x1⟩, ⟨28, 2, .rw, 0x0⟩, ⟨24, 4, .rw, 0x3⟩, ⟨0, 5, .rw, 0x0⟩]⟩,
  ⟨rGauSenseCfg, false, [⟨16, 16, .rw, 0x3555⟩, ⟨0, 16, .rw, 0x3E8⟩]⟩,
  ⟨rGauDesign, false, [⟨16, 16, .rw, 0x0⟩, ⟨0, 16, .rw, 0x0⟩]⟩,
  ⟨rGauTsCfg, false, [⟨16, 16, .rw, 0xD6B⟩, ⟨0, 4, .rw, 0x1⟩]⟩,
  ⟨rGauStatus, false, [⟨30, 2, .ro, 0x0⟩, ⟨29, 1, .ro, 0x0⟩, ⟨28, 1, .ro, 0x0⟩, ⟨27, 1, .ro, 0x0⟩, ⟨26, 1, .ro, 0x0⟩, ⟨25, 1, .ro, 0x0⟩, ⟨24, 1, .ro, 0x0⟩, ⟨23, 1, .ro, 0x0⟩, ⟨22, 1, .ro, 0x0⟩, ⟨19, 3, .ro, 0x0⟩, ⟨0, 14, .ro, 0x0⟩]⟩,
  ⟨rGauSoc, false, [⟨16, 16, .ro, 0x0⟩, ⟨0, 16, .ro, 0x0⟩]⟩,
  ⟨rGauVolt, false, [⟨31, 1, .ro, 0x0⟩, ⟨0, 16, .ro, 0x0⟩]⟩,
  ⟨rGauCurr, false, [⟨0, 32, .ro, 0x0⟩]⟩,
  ⟨rGauEnergyC, false, [⟨0, 32, .ro, 0x0⟩]⟩,
  ⟨rGauEnergyV, false, [⟨0, 32, .ro, 0x0⟩]⟩,
  ⟨rGauDerate, false, [⟨16, 10, .ro, 0x0⟩, ⟨0, 10, .ro, 0x0⟩]⟩,
  ⟨rGauLearn, false, [⟨8, 24, .ro, 0x0⟩, ⟨7, 1, .ro, 0x0⟩, ⟨0, 4, .ro, 0x0⟩]⟩,
  ⟨rGauTemp, false, [⟨24, 8, .ro, 0x80⟩, ⟨16, 8, .ro, 0x80⟩, ⟨8, 8, .ro, 0x80⟩, ⟨0, 8, .ro, 0x80⟩]⟩,
  ⟨rGauRpack, false, [⟨16, 16, .ro, 0x0⟩, ⟨8, 8, .ro, 0x0⟩, ⟨0, 3, .ro, 0x0⟩]⟩,
  ⟨rGauCoulomb, true, [⟨0, 64, .ro, 0x0⟩]⟩,
  ⟨rGauRehCfg, false, [⟨31, 1, .rw, 0x1⟩, ⟨24, 7, .rw, 0x7⟩, ⟨16, 8, .rw, 0x32⟩, ⟨0, 5, .rw, 0x1F⟩]⟩,
  ⟨rGauRehStatus, false, [⟨28, 4, .ro, 0x0⟩, ⟨27, 1, .ro, 0x0⟩, ⟨0, 16, .ro, 0xFFFF⟩]⟩,
  ⟨rGauHostSoc, false, [⟨31, 1, .rc, 0x0⟩, ⟨0, 14, .rw, 0x0⟩]⟩]

/-- PSQ_STATUS -/
abbrev rPsqStatus : Nat := 0x05200000
/-- PSQ_SLOT_ON -/
abbrev rPsqSlotOn : Nat := 0x05200004
/-- PSQ_SLOT_GOOD -/
abbrev rPsqSlotGood : Nat := 0x05200008
/-- PSQ_DOMAIN -/
abbrev rPsqDomain : Nat := 0x0520000C
/-- PSQ_FAULT -/
abbrev rPsqFault : Nat := 0x05200010
/-- PSQ_CFG -/
abbrev rPsqCfg : Nat := 0x05200020
/-- PSQ_HOST_STEP -/
abbrev rPsqHostStep : Nat := 0x05200030

/-- The registers of block PSQ. -/
def regsPsq : List RegD := [
  ⟨rPsqStatus, false, [⟨31, 1, .ro, 0x0⟩, ⟨30, 1, .ro, 0x0⟩, ⟨29, 1, .ro, 0x0⟩, ⟨28, 1, .ro, 0x0⟩, ⟨24, 4, .ro, 0x0⟩, ⟨19, 5, .ro, 0x1F⟩]⟩,
  ⟨rPsqSlotOn, false, [⟨0, 24, .ro, 0x0⟩]⟩,
  ⟨rPsqSlotGood, false, [⟨0, 24, .ro, 0x0⟩]⟩,
  ⟨rPsqDomain, false, [⟨16, 8, .ro, 0x0⟩, ⟨0, 16, .ro, 0x0⟩]⟩,
  ⟨rPsqFault, false, [⟨28, 4, .ro, 0x0⟩, ⟨23, 5, .ro, 0x0⟩, ⟨19, 4, .ro, 0x0⟩, ⟨18, 1, .ro, 0x0⟩, ⟨8, 10, .ro, 0x0⟩]⟩,
  ⟨rPsqCfg, false, [⟨16, 16, .rws, 0x258⟩, ⟨1, 1, .rws, 0x1⟩, ⟨0, 1, .rws, 0x1⟩]⟩,
  ⟨rPsqHostStep, false, [⟨31, 1, .rc, 0x0⟩, ⟨30, 1, .rw, 0x0⟩, ⟨0, 24, .rw, 0x0⟩]⟩]

/-- RMN_SEL -/
abbrev rRmnSel : Nat := 0x05300000
/-- RMN_SLOT -/
abbrev rRmnSlot : Nat := 0x05300004

/-- The registers of block RMN. -/
def regsRmn : List RegD := [
  ⟨rRmnSel, false, [⟨0, 5, .rw, 0x0⟩]⟩,
  ⟨rRmnSlot, false, [⟨30, 2, .ro, 0x2⟩, ⟨29, 1, .ro, 0x0⟩, ⟨16, 10, .ro, 0x0⟩, ⟨8, 8, .rc, 0x0⟩]⟩]

/-- ADC_CTRL0 -/
abbrev rAdcCtrl0 : Nat := 0x05400000
/-- ADC_CTRL1 -/
abbrev rAdcCtrl1 : Nat := 0x05400004
/-- ADC_SEQ_SEL -/
abbrev rAdcSeqSel : Nat := 0x05400010
/-- ADC_SEQ_ENTRY -/
abbrev rAdcSeqEntry : Nat := 0x05400014
/-- ADC_QUEUE -/
abbrev rAdcQueue : Nat := 0x05400020
/-- ADC_STATUS -/
abbrev rAdcStatus : Nat := 0x05400024

/-- The registers of block ADC. -/
def regsAdc : List RegD := [
  ⟨rAdcCtrl0, false, [⟨31, 1, .rw, 0x0⟩, ⟨30, 1, .rw, 0x0⟩, ⟨28, 2, .rw, 0x0⟩, ⟨24, 4, .rw, 0x0⟩, ⟨23, 1, .wo, 0x0⟩, ⟨0, 20, .rw, 0x20⟩]⟩,
  ⟨rAdcCtrl1, false, [⟨31, 1, .rw, 0x0⟩, ⟨30, 1, .rw, 0x0⟩, ⟨28, 2, .rw, 0x0⟩, ⟨24, 4, .rw, 0x0⟩, ⟨23, 1, .wo, 0x0⟩, ⟨0, 20, .rw, 0x20⟩]⟩,
  ⟨rAdcSeqSel, false, [⟨4, 1, .rw, 0x0⟩, ⟨0, 4, .rw, 0x0⟩]⟩,
  ⟨rAdcSeqEntry, false, [⟨16, 10, .rw, 0x60⟩, ⟨8, 2, .rw, 0x0⟩, ⟨0, 6, .rw, 0x3F⟩]⟩,
  ⟨rAdcQueue, false, [⟨31, 1, .rc, 0x0⟩, ⟨30, 1, .rc, 0x0⟩, ⟨29, 1, .rc, 0x0⟩, ⟨23, 6, .rc, 0x0⟩, ⟨19, 4, .rc, 0x0⟩, ⟨16, 3, .rc, 0x0⟩, ⟨14, 2, .rc, 0x0⟩, ⟨0, 14, .rc, 0x0⟩]⟩,
  ⟨rAdcStatus, false, [⟨31, 1, .ro, 0x0⟩, ⟨30, 1, .ro, 0x0⟩, ⟨29, 1, .ro, 0x0⟩, ⟨16, 8, .rc, 0x0⟩, ⟨0, 7, .ro, 0x0⟩]⟩]

/-- TWIn_CFG -/
abbrev rTwiCfg : Nat := 0x05500000
/-- TWI0_TARGET -/
abbrev rTwi0Target : Nat := 0x05500004
/-- TWI2_PMB_LIST -/
abbrev rTwi2PmbList : Nat := 0x05500004
/-- TWIn_STATUS -/
abbrev rTwiStatus : Nat := 0x05500008
/-- TWIn_ERR -/
abbrev rTwiErr : Nat := 0x0550000C

/-- The registers of block TWI. -/
def regsTwi : List RegD := [
  ⟨rTwiCfg, false, [⟨31, 1, .rw, 0x1⟩, ⟨30, 1, .rw, 0x1⟩, ⟨29, 1, .rw, 0x1⟩, ⟨28, 1, .rw, 0x0⟩, ⟨24, 4, .rw, 0x3⟩, ⟨16, 8, .rw, 0x19⟩, ⟨0, 2, .rw, 0x0⟩]⟩,
  ⟨rTwi0Target, false, [⟨31, 1, .rw, 0x0⟩, ⟨24, 7, .rw, 0x0⟩, ⟨23, 1, .rw, 0x0⟩, ⟨16, 7, .rw, 0x0⟩, ⟨15, 1, .rw, 0x0⟩, ⟨8, 7, .rw, 0x0⟩, ⟨7, 1, .rw, 0x1⟩, ⟨0, 7, .rw, 0x1E⟩]⟩,
  ⟨rTwi2PmbList, false, [⟨31, 1, .rw, 0x0⟩, ⟨24, 7, .rw, 0x0⟩, ⟨23, 1, .rw, 0x0⟩, ⟨16, 7, .rw, 0x0⟩, ⟨15, 1, .rw, 0x0⟩, ⟨8, 7, .rw, 0x0⟩, ⟨7, 1, .rw, 0x1⟩, ⟨0, 7, .rw, 0x1E⟩]⟩,
  ⟨rTwiStatus, false, [⟨30, 2, .ro, 0x0⟩, ⟨29, 1, .ro, 0x1⟩, ⟨28, 1, .ro, 0x1⟩, ⟨24, 4, .ro, 0x0⟩, ⟨23, 1, .wo, 0x0⟩]⟩,
  ⟨rTwiErr, false, [⟨24, 8, .rc, 0x0⟩, ⟨16, 8, .rc, 0x0⟩, ⟨8, 8, .rc, 0x0⟩, ⟨0, 8, .rc, 0x0⟩]⟩]

/-- NVM_STATUS -/
abbrev rNvmStatus : Nat := 0x05600000
/-- NVM_ERR -/
abbrev rNvmErr : Nat := 0x05600004
/-- NVM_RDP -/
abbrev rNvmRdp : Nat := 0x05600008

/-- The registers of block NVM. -/
def regsNvm : List RegD := [
  ⟨rNvmStatus, false, [⟨30, 2, .ro, 0x0⟩, ⟨28, 2, .ro, 0x0⟩, ⟨27, 1, .ro, 0x0⟩, ⟨26, 1, .ro, 0x0⟩, ⟨25, 1, .ro, 0x0⟩, ⟨24, 1, .ro, 0x0⟩, ⟨22, 2, .ro, 0x0⟩]⟩,
  ⟨rNvmErr, false, [⟨24, 8, .rc, 0x0⟩, ⟨16, 8, .rc, 0x0⟩, ⟨8, 8, .rc, 0x0⟩, ⟨4, 4, .rc, 0x0⟩, ⟨0, 4, .rc, 0x0⟩]⟩,
  ⟨rNvmRdp, false, [⟨16, 16, .wo, 0x0⟩, ⟨8, 2, .ro, 0x0⟩, ⟨4, 2, .ro, 0x0⟩, ⟨3, 1, .ro, 0x0⟩, ⟨0, 2, .wo, 0x0⟩]⟩]

/-- FLT_STATUS -/
abbrev rFltStatus : Nat := 0x05700000
/-- FLT_SRC_SEL -/
abbrev rFltSrcSel : Nat := 0x05700010
/-- FLT_SRC -/
abbrev rFltSrc : Nat := 0x05700014
/-- FLT_ENTRY -/
abbrev rFltEntry : Nat := 0x05700018

/-- The registers of block FLT. -/
def regsFlt : List RegD := [
  ⟨rFltStatus, false, [⟨31, 1, .ro, 0x0⟩, ⟨30, 1, .ro, 0x0⟩, ⟨29, 1, .ro, 0x0⟩, ⟨20, 9, .ro, 0x1FF⟩, ⟨11, 9, .ro, 0x1FF⟩, ⟨0, 10, .ro, 0x0⟩]⟩,
  ⟨rFltSrcSel, false, [⟨0, 9, .rw, 0x0⟩]⟩,
  ⟨rFltSrc, false, [⟨31, 1, .ro, 0x0⟩, ⟨30, 1, .w1c, 0x0⟩, ⟨29, 1, .ro, 0x0⟩, ⟨28, 1, .ro, 0x0⟩, ⟨26, 2, .ro, 0x0⟩, ⟨25, 1, .ro, 0x0⟩, ⟨22, 3, .ro, 0x0⟩, ⟨0, 16, .ro, 0x0⟩]⟩,
  ⟨rFltEntry, false, [⟨0, 32, .ro, 0x0⟩]⟩]

/-- LOG_STATUS -/
abbrev rLogStatus : Nat := 0x05800000
/-- LOG_REFUSED -/
abbrev rLogRefused : Nat := 0x05800004
/-- LOG_SEQ -/
abbrev rLogSeq : Nat := 0x05800008
/-- LOG_CURSOR -/
abbrev rLogCursor : Nat := 0x05800010
/-- LOG_WINDOW -/
abbrev rLogWindow : Nat := 0x05801000

/-- The registers of block LOG. -/
def regsLog : List RegD := [
  ⟨rLogStatus, false, [⟨31, 1, .ro, 0x0⟩, ⟨28, 3, .ro, 0x0⟩, ⟨27, 1, .ro, 0x0⟩, ⟨18, 9, .ro, 0x0⟩, ⟨0, 16, .ro, 0x0⟩]⟩,
  ⟨rLogRefused, false, [⟨16, 16, .rc, 0x0⟩, ⟨0, 16, .rc, 0x0⟩]⟩,
  ⟨rLogSeq, true, [⟨0, 48, .ro, 0x0⟩]⟩,
  ⟨rLogCursor, true, [⟨0, 48, .rw, 0x0⟩]⟩,
  ⟨rLogWindow, false, [⟨0, 32, .ro, 0x0⟩]⟩]

/-- KRC_NONCE -/
abbrev rKrcNonce : Nat := 0x05900000

/-- The registers of block KRC. -/
def regsKrc : List RegD := [
  ⟨rKrcNonce, true, [⟨0, 64, .ro, 0x0⟩]⟩]

/-- FWU_STATUS -/
abbrev rFwuStatus : Nat := 0x05A00000
/-- FWU_CFG -/
abbrev rFwuCfg : Nat := 0x05A00004
/-- FWU_FUSE_CMD -/
abbrev rFwuFuseCmd : Nat := 0x05A00010

/-- The registers of block FWU. -/
def regsFwu : List RegD := [
  ⟨rFwuStatus, false, [⟨28, 4, .ro, 0x0⟩, ⟨27, 1, .ro, 0x0⟩, ⟨24, 3, .ro, 0x0⟩, ⟨21, 3, .ro, 0x0⟩, ⟨19, 2, .ro, 0x0⟩, ⟨18, 1, .ro, 0x0⟩, ⟨0, 8, .ro, 0x0⟩]⟩,
  ⟨rFwuCfg, false, [⟨16, 16, .rws, 0x258⟩]⟩,
  ⟨rFwuFuseCmd, false, [⟨16, 16, .wo, 0x0⟩, ⟨12, 4, .wo, 0x0⟩, ⟨0, 12, .wo, 0x0⟩]⟩]

/-- IST_STATUS -/
abbrev rIstStatus : Nat := 0x05B00000
/-- IST_ITEM_SEL -/
abbrev rIstItemSel : Nat := 0x05B00010
/-- IST_ITEM -/
abbrev rIstItem : Nat := 0x05B00014

/-- The registers of block IST. -/
def regsIst : List RegD := [
  ⟨rIstStatus, false, [⟨31, 1, .ro, 0x0⟩, ⟨20, 11, .ro, 0x0⟩, ⟨8, 3, .ro, 0x7⟩, ⟨0, 7, .ro, 0x0⟩]⟩,
  ⟨rIstItemSel, false, [⟨0, 3, .rw, 0x0⟩]⟩,
  ⟨rIstItem, false, [⟨27, 5, .ro, 0x18⟩, ⟨16, 11, .ro, 0x7FF⟩, ⟨8, 8, .rc, 0x0⟩]⟩]

/-- Every register of the map (Table 19.5). -/
def regTable : List RegD :=
  regsTop ++ regsFus ++ regsMpx ++ regsTrl ++ regsCxl ++ regsAlt ++ regsDdr ++ regsDrp ++ regsHrv ++ regsFce ++ regsFtl ++ regsExl ++ regsLdg ++ regsTin ++ regsAon ++ regsGau ++ regsPsq ++ regsRmn ++ regsAdc ++ regsTwi ++ regsNvm ++ regsFlt ++ regsLog ++ regsKrc ++ regsFwu ++ regsIst

/-- Whether an offset lies in some block of Table 19.1: the blocks run on from 0 without a gap (R474). -/
def inBlock (a : Nat) : Bool := a < 0x05C00000

/-- Whether an offset lies in a logic-die block; the others are cold-frame blocks (Table 19.1). -/
def onLogic (a : Nat) : Bool := a < 0x05000000

/-- The offset of instance 0 and the instance that an offset names (Table 19.1). -/
def regCanon (a : Nat) : Nat × Nat :=
  if 0x00401000 ≤ a && a < 0x00402000 then (0x00401000 + (a - 0x00401000) % 0x40, (a - 0x00401000) / 0x40)
  else if 0x00800000 ≤ a && a < 0x00900000 then (0x00800000 + (a - 0x00800000) % 0x40000, (a - 0x00800000) / 0x40000)
  else if 0x02000000 ≤ a && a < 0x02200000 then (0x02000000 + (a - 0x02000000) % 0x20000, (a - 0x02000000) / 0x20000)
  else if 0x03000000 ≤ a && a < 0x03200000 then (0x03000000 + (a - 0x03000000) % 0x10000, (a - 0x03000000) / 0x10000)
  else if 0x05500000 ≤ a && a < 0x05600000 then (0x05500000 + (a - 0x05500000) % 0x40000, (a - 0x05500000) / 0x40000)
  else (a, 0)

/-- Offset of register `r` (given for instance 0) in instance `i`. -/
def regAt (r i : Nat) : Nat :=
  if 0x00401000 ≤ r && r < 0x00402000 then r + i * 0x40
  else if 0x00800000 ≤ r && r < 0x00900000 then r + i * 0x40000
  else if 0x02000000 ≤ r && r < 0x02200000 then r + i * 0x20000
  else if 0x03000000 ≤ r && r < 0x03200000 then r + i * 0x10000
  else if 0x05500000 ≤ r && r < 0x05600000 then r + i * 0x40000
  else r

/-- Whether instance `i` of the block of canonical offset `c` is absent on this part (R4). -/
def regAbsent (s : State) (c i : Nat) : Bool :=
  if 0x00800000 ≤ c && c < 0x00900000 then nPorts s ≤ i
  else if 0x02000000 ≤ c && c < 0x02200000 then nDdr s ≤ i
  else if 0x03000000 ≤ c && c < 0x03200000 then nFch s ≤ i
  else c == rTwi0Target && (i == 1 || i == 3)

/-- The register at an offset, if one is there: its description, instance, and whether the offset is its high
word. -/
def regFind (s : State) (a : Nat) : Option (RegD × Nat × Bool) :=
  let (c, i) := regCanon a
  if regAbsent s c i then none
  else match regTable.find? (fun r => r.addr == c) with
    | some r => some (r, i, false)
    | none => (regTable.find? (fun r => r.wide && r.addr + 4 == c)).map (fun r => (r, i, true))

/-- Reset value of the fields of a register word that are not read-only. -/
def regResetOf (r : RegD) : Nat :=
  r.fields.foldl (fun n f => match f.acc with | .ro | .wo => n | _ => n + fld f.rst f.lo f.w) 0

/-- Reset value of the stored word at offset `a`, with the values that differ by instance or by part: the two-wire
ports of Table 13.1, TWI2_PMB_LIST (R372), EXP_MAX_GIB (R141) and SUBLINK_EN (R239). -/
def regReset (s : State) (a : Nat) : Nat :=
  let (c, i) := regCanon a
  if c == rTwiCfg then
    (match i with | 0 => 0xE3190000 | 1 => 0x83190000 | 2 => 0xA3190001 | _ => 0x83190002)
  else if c == rTwi0Target then (if i == 0 then 0x0000009E else 0)
  else if c == rDrpExpCfg && !isBig s then 0x01000000
  else if c == rExlCfg && !isBig s then 0xC0190003
  else match regTable.find? (fun r => r.addr == c) with
    | some r => regResetOf r % 2 ^ 32
    | none => 0

/-- The stored word at an offset. -/
def regStored (s : State) (a : Nat) : Nat :=
  match tget s.regs a with
  | some w => w.toNat
  | none => regReset s a

/-- Field of `w` bits at `lo` of the stored word at `a`. -/
def cfg (s : State) (a lo w : Nat) : Nat := bits (regStored s a) lo w

/-- Stores a word. -/
def setReg (s : State) (a n : Nat) : State := { s with regs := tset s.regs a (BitVec.ofNat 32 n) }

/-- Stores one field of a word. -/
def setFld (s : State) (a lo w v : Nat) : State := setReg s a (putBits (regStored s a) lo w v)

/-- Adds `k` to a count field, saturating (the RC counts of R476). -/
def bump (s : State) (a lo w k : Nat) : State := setFld s a lo w (min (2 ^ w - 1) (cfg s a lo w + k))

/-- Bits of a register's fields whose access type satisfies `p`. -/
def accMask (r : RegD) (p : Acc → Bool) : Nat :=
  r.fields.foldl (fun n f => if p f.acc then n ||| fld (2 ^ f.w - 1) f.lo f.w else n) 0

/-- Registers with RW fields that their home chapters keep across starts (R479). -/
def keptRw (a : Nat) : Bool :=
  let (c, i) := regCanon a
  c == rGauPackCfg || c == rGauSenseCfg || c == rGauDesign || c == rGauTsCfg || c == rGauRehCfg
    || c == rTwiCfg || (c == rTwi0Target && i == 0)

/-- The bits of the word at `a` that the configuration record keeps: RWS fields and the kept RW fields (R479). -/
def keptMask (a : Nat) : Nat :=
  match regTable.find? (fun r => r.addr == (regCanon a).1) with
  | some r => accMask r (fun x => x == .rws || (x == .rw && keptRw a))
  | none => 0

/-- A stored word with only its kept bits, the others at reset. -/
def keepBits (s : State) (a n : Nat) : Nat := (n &&& keptMask a) ||| (regReset s a &&& (0xFFFFFFFF ^^^ keptMask a))

/-- Logic-die words take their reset values at the entry to WAKING, but for RWS fields (Table 19.3, R478). -/
def resetLogicRegs (s : State) : State :=
  { s with regs := s.regs.map (fun p => if onLogic p.1 then (p.1, BitVec.ofNat 32 (keepBits s p.1 p.2.toNat)) else p) }

/-- A cold-frame start: every word takes its reset value, then the saved values are reloaded (R478, R479). -/
def reloadRegs (s : State) : State :=
  { s with regs := s.nvm.confSaved.map (fun p => (p.1, BitVec.ofNat 32 (keepBits s p.1 p.2.toNat))),
           nvm := { s.nvm with confPending := [] } }

end Sys2Proof.Machine
end

