-- ==== Sys2Proof/Machine/Nvm.lean ====
section
/-! DEFINITION. The banks of the cold-frame embedded flash: one operation at a time in each bank, suspension of an
erase by a higher agent, the queue, refusal of a program of a unit that is not erased (chapter 12). -/

namespace Sys2Proof.Machine

open Sys2Proof

/-- Address of main sector `k` of a bank (Table 12.1). -/
def mainSector (bank k : Nat) : Nat := bank * 0x01000000 + 0x00010000 + k * 0x00010000

/-- Address of log sector `k`, 0 to 127: M160–M223 of bank A, then of bank B (Table 12.5). -/
def logSectorAddr (k : Nat) : Nat := mainSector (k / 64) (160 + k % 64)

/-- Bank of an operation: 1 for bank B; the option area counts with bank A (Table 12.1). -/
def nvmBank (o : NvmOp) : Nat := if o.what == .option then 0 else (o.addr / 0x01000000) % 2

/-- The operation that a bank runs. -/
def bankOp (s : State) (b : Nat) : Option NvmOp := if b == 0 then s.nvm.opA else s.nvm.opB

/-- The erase suspended in a bank. -/
def bankSusp (s : State) (b : Nat) : Option NvmOp := if b == 0 then s.nvm.suspA else s.nvm.suspB

/-- Sets the operation a bank runs. -/
def setBankOp (s : State) (b : Nat) (o : Option NvmOp) : State :=
  if b == 0 then { s with nvm := { s.nvm with opA := o } } else { s with nvm := { s.nvm with opB := o } }

/-- Sets the erase suspended in a bank. -/
def setBankSusp (s : State) (b : Nat) (o : Option NvmOp) : State :=
  if b == 0 then { s with nvm := { s.nvm with suspA := o } } else { s with nvm := { s.nvm with suspB := o } }

/-- First byte of the erase unit of an address: 8 KiB sectors below the main sectors of a bank, 64 KiB above. -/
def sectorOf (a : Nat) : Nat :=
  if a % 0x01000000 < 0x10000 then a / 0x2000 * 0x2000 else a / 0x10000 * 0x10000

/-- A program whose sector is still to be erased, or would fail its blank check, waits (R348, R353). -/
def sectorReady (s : State) (o : NvmOp) : Bool :=
  o.erase || o.what == .option
    || !(s.nvm.unsure.contains (sectorOf o.addr) || s.nvm.queue.any (fun e => e.erase && sectorOf e.addr == sectorOf o.addr))

/-- Whether an operation may start in its bank now: the bank idle, and inside a suspended erase only a program to
another sector (R344, R345). -/
def canRun (s : State) (o : NvmOp) : Bool :=
  let b := nvmBank o
  sectorReady s o && (bankOp s b).isNone && (match bankSusp s b with
    | none => true
    | some e => !o.erase && decide (o.agent < e.agent) && sectorOf o.addr != sectorOf e.addr)

/-- Whether an operation suspends the erase its bank runs: a program of a higher agent, outside the 1 ms after a
resume (R345, R346). -/
def suspends (s : State) (o : NvmOp) : Bool :=
  let b := nvmBank o
  match bankOp s b with
  | some e => sectorReady s o && e.erase && !o.erase && decide (o.agent < e.agent) && (bankSusp s b).isNone
      && sectorOf o.addr != sectorOf e.addr && decide (tgetD s.nvm.resumed b 0 + 1000 ≤ s.now || tgetD s.nvm.resumed b 0 = 0)
  | none => false

/-- The queue with an operation placed by its agent's class, after those of its own class (R346). -/
def nvmInsert (q : List NvmOp) (o : NvmOp) : List NvmOp :=
  match q with
  | [] => [o]
  | p :: r => if o.agent < p.agent then o :: p :: r else p :: nvmInsert r o

/-- Starts an operation, suspends an erase for it, or lets it wait. Nothing starts in a brown-out (R347). -/
def nvmStart (s : State) (o : NvmOp) : State :=
  if s.nvm.bod then s
  else if canRun s o then setBankOp s (nvmBank o) (some o)
  else if suspends s o then setBankOp (setBankSusp s (nvmBank o) (bankOp s (nvmBank o))) (nvmBank o) (some o)
  else { s with nvm := { s.nvm with queue := nvmInsert s.nvm.queue o } }

/-- An erase of a sector runs, is suspended or waits. -/
def eraseWaits (s : State) (a : Nat) : Bool :=
  (s.nvm.opA.toList ++ s.nvm.opB.toList ++ s.nvm.suspA.toList ++ s.nvm.suspB.toList ++ s.nvm.queue).any (fun o =>
    o.erase && sectorOf o.addr == a)

/-- Requests an operation. A program's sector is blank-checked first after a cold-frame start; one whose erase was cut short
fails the check and is erased again before use (R348). -/
def nvmPost (s : State) (o : NvmOp) : State :=
  let a := sectorOf o.addr
  if s.nvm.bod then s
  else if o.erase || o.what == .option then nvmStart s o
  else if s.nvm.unsure.contains a then
    nvmStart (if eraseWaits s a then s else nvmStart s { agent := o.agent, erase := true, addr := a }) o
  else nvmStart { s with nvm := { s.nvm with checked := sins s.nvm.checked a } } o

/-- Starts the first waiting operation of a bank that may run. -/
def nvmKick (s : State) (b : Nat) : State :=
  match s.nvm.queue.find? (fun o => nvmBank o == b && (canRun s o || suspends s o)) with
  | none => s
  | some o => nvmStart { s with nvm := { s.nvm with queue := s.nvm.queue.erase o } } o

/-- Whether every unit of a program is erased (R340, R341). -/
def unitsErased (s : State) (a n : Nat) : Bool :=
  (List.range (cdiv n 16)).all (fun i =>
    (tget s.nvm.units (a + 16 * i)).isNone && !s.nvm.cutUnits.contains (a + 16 * i))

/-- Programs whole units from address `a` (R340). -/
def programUnits (s : State) (a : Nat) (d : List Byte) : State :=
  { s with nvm := { s.nvm with units :=
      (List.range (cdiv d.length 16)).foldl (fun u i => tset u (a + 16 * i) (slice d (16 * i) 16)) s.nvm.units } }

/-- Erases the units of `[a, a + n)`. -/
def eraseUnits (s : State) (a n : Nat) : State :=
  { s with nvm := { s.nvm with
      units := s.nvm.units.filter (fun p => !(a ≤ p.1 && p.1 < a + n)),
      cutUnits := s.nvm.cutUnits.filter (fun p => !(a ≤ p && p < a + n)) } }

/-- `n` bytes of raw content from address `a`, a multiple of 16; an erased unit reads as 0xFF bytes (R340). -/
def readUnits (s : State) (a n : Nat) : List Byte :=
  (List.range (cdiv n 16)).flatMap (fun i =>
    match tget s.nvm.units (a + 16 * i) with
    | some d => d ++ List.replicate (16 - d.length) 0xFF#8
    | none => List.replicate 16 0xFF#8)

/-- Slots of a parameter sector of pair `n`, and their size (Table 12.6). -/
def pairSlots (n : Nat) : Nat × Nat :=
  match n with | 0 => (128, 64) | 1 => (8, 1024) | 2 => (512, 16) | 3 => (2, 4096) | _ => (1, 8192)

/-- A complete snapshot of parameter pair `n`, to the first unused slot of the sector that does not hold the newest one, erased
first where it has none (R353). A write of pairs 3 to 7 that finds one waiting is combined with it. The items are the state's
own fields; the write occupies the bank until its end. -/
def pairWrite (s : State) (n : Nat) : State :=
  if s.nvm.bod || (3 ≤ n && s.nvm.queue.any (fun o => o.what == .pair n)) then s
  else
    let k := 1 - tgetD s.nvm.pairSec n 1
    let used := tgetD s.nvm.pairUsed (2 * n + k) 0
    let full := decide ((pairSlots n).1 ≤ used)
    let slot := if full then 0 else used
    let a := k * 0x01000000 + n * 0x2000
    let s := { s with nvm := { s.nvm with
      pairs := tset s.nvm.pairs n (tgetD s.nvm.pairs n 0 + 1), pairSec := tset s.nvm.pairSec n k,
      pairUsed := tset s.nvm.pairUsed (2 * n + k) (slot + 1) } }
    let s := if full && !eraseWaits s a then nvmPost s { agent := 4, erase := true, addr := a } else s
    nvmPost s { agent := 4, erase := false, addr := a + (pairSlots n).2 * slot, what := .pair n }

/-- The items of pair `n` (Table 12.6), taken from one store into another. -/
def pairCopy (n : Nat) (src dst : PairStore) : PairStore :=
  match n with
  | 0 => { dst with learned := src.learned }
  | 1 => { dst with paired := src.paired, peerRec := src.peerRec, secret := src.secret, sessNext := src.sessNext, reserved := src.reserved }
  | 2 => { dst with nonce := src.nonce }
  | 3 => { dst with table := src.table, ocv := src.ocv, kTempCurve := src.kTempCurve, kAgeCurve := src.kAgeCurve }
  | 4 => { dst with image := src.image, imageVersion := src.imageVersion, retryTable := src.retryTable, policy := src.policy }
  | 5 => { dst with plan := src.plan, order := src.order, conf := src.conf, labels := src.labels, opSeconds := src.opSeconds, powerCycles := src.powerCycles }
  | _ => { dst with popRec := src.popRec, locUids := src.locUids, locSeals := src.locSeals, locMeta := src.locMeta }

/-- The items of every pair as the state holds them now. -/
def pairItems (s : State) : PairStore :=
  { learned := s.gau.learned, paired := s.exl.paired, peerRec := s.exl.peerRec, secret := s.exl.secret,
    sessNext := (s.exl.sessNext / 256 + 1) * 256, reserved := s.exl.reserved, nonce := s.krc.nonceEnd,
    table := s.psq.nextTable.getD s.psq.table, ocv := s.gau.ocv, kTempCurve := s.gau.kTempCurve, kAgeCurve := s.gau.kAgeCurve,
    image := s.flt.image, imageVersion := s.flt.imageVersion, retryTable := s.ftl.retryTable,
    policy := s.drp.nextPolicy.getD s.drp.policy, plan := s.hrv.plan, order := s.hrv.order, conf := s.nvm.confSaved,
    labels := s.krc.labels, opSeconds := s.dev.opSecondsSaved, powerCycles := s.dev.powerCycles, popRec := s.ftl.popRec,
    locUids := s.ftl.targets.map (fun x => (x.1, x.2.uid)),
    locSeals := s.ftl.sealLocs.flatMap (fun l => [l.tgt * 8192 + l.blkA, l.tgt * 8192 + l.blkB]),
    locMeta := (s.ftl.sbs.filter (fun x => x.2.role == .metadata)).map (·.1) }

/-- The snapshot of pair `n` is complete: what a cold-frame start would reload (R353). -/
def storePair (s : State) (n : Nat) : State :=
  { s with nvm := { s.nvm with confSaving := if n == 5 then [] else s.nvm.confSaving, prev := pairCopy n s.nvm.store s.nvm.prev, store := pairCopy n (pairItems s) s.nvm.store } }

/-- The newest snapshot of pair `n` was torn, or never written: the one before it is the newest valid one, if there is one; the
slot stays used (R353). -/
def pairTorn (s : State) (n : Nat) : State :=
  match tget s.nvm.pairSec n with
  | none => s
  | some k =>
    let empty := tgetD s.nvm.pairUsed (2 * n + (1 - k)) 0 == 0
    { s with nvm := { s.nvm with pairSec := if empty then tdel s.nvm.pairSec n else tset s.nvm.pairSec n (1 - k) } }

/-- A unit that no margin shift decodes: where the newest snapshot of a pair lies, that one fails and the one before it stands
(R343, R353). -/
def pairUnread (s : State) (a : Nat) : State :=
  let n := a % 0x01000000 / 0x2000
  let k := a / 0x01000000
  let used := tgetD s.nvm.pairUsed (2 * n + k) 0
  let here := decide (a % 0x01000000 < 0x10000) && tget s.nvm.pairSec n == some k
    && decide ((used - 1) * (pairSlots n).2 ≤ a % 0x2000) && decide (a % 0x2000 < used * (pairSlots n).2)
  if !here then s
  else
    let s := pairTorn s n
    { s with nvm := { s.nvm with store := pairCopy n (if (tget s.nvm.pairSec n).isSome then s.nvm.prev else {}) s.nvm.store } }

/-- An update of the option area: the other copy takes the record with SEQ + 1 and is in force (R349). -/
def optionSet (s : State) (r : OptRec) : State :=
  let r := { r with seq := s.nvm.shadow.seq + 1, valid := true }
  let k := 1 - s.nvm.optCopy
  { s with nvm := { s.nvm with
      opt0 := if k == 0 then r else s.nvm.opt0, opt1 := if k == 0 then s.nvm.opt1 else r,
      optCopy := k, optLost := false, shadow := r } }

/-- An update of the option area, whose write occupies the bank until its end. -/
def optionWrite (s : State) (r : OptRec) : State :=
  let s := optionSet s r
  nvmPost s { agent := 4, erase := false, addr := s.nvm.optCopy * 0x800, what := .option }

/-- The fused readout protection floor: 0b00 0, 0b01 1, 0b11 2 (Table 15.6). -/
def rdpFloor (s : State) : Nat := b2n (s.fus.rdpFloor.getLsbD 0) + b2n (s.fus.rdpFloor.getLsbD 1)

/-- Lifecycle: the highest LIFECYCLE bit set: 0 BLANK, 1 PROVISIONED, 2 SECURED, 3 RETIRED (R422). -/
def lifecycle (s : State) : Nat :=
  let l := s.fus.lifecycle
  if l.getLsbD 2 then 3 else if l.getLsbD 1 then 2 else if l.getLsbD 0 then 1 else 0

/-- Pending kept values and the operating seconds are saved in the configuration record of pair 5 (R479, R482,
Table 12.6). -/
def saveConfig (s : State) : State :=
  if s.nvm.bod then s
  else pairWrite { s with
    dev := { s.dev with opSecondsSaved := opSecs s },
    nvm := { s.nvm with
      confSaved := s.nvm.confPending.foldl (fun t a => tset t a (BitVec.ofNat 32 (regStored s a))) s.nvm.confSaved,
      confSaving := s.nvm.confPending.foldl sins s.nvm.confSaving, confPending := [], confAt := opSecs s } } 5

/-- The readout protection level in force (R350). -/
def rdpLevel (s : State) : Nat :=
  let fl := rdpFloor s
  if fl == 2 then 2 else max (if s.nvm.shadow.rdp == 0 then 0 else 1) fl

end Sys2Proof.Machine
end

