-- ==== Sys2Proof/Machine/Flags.lean ====
section
/-! DEFINITION. Fault sources, the reaction table, the event recorder and CXL event notifications: what a fault or an
event sets, counts and records (chapter 14). -/

namespace Sys2Proof.Machine

open Sys2Proof

/-! ### Sources and the reaction table (R377, R378, R424, R428) -/

/-- Class of a source number of Table 14.2: 0 corrected, 1 uncorrected contained, 2 Fatal with stop action,
3 Fatal with harvest action; none for a number without a checker. -/
def srcKind (n : Nat) : Option Nat :=
  if n ≤ 0x001 then some 3
  else if n ≤ 0x00A then some (if n == 0x006 || n == 0x007 then 1 else 0)
  else if n < 0x020 then none
  else if n < 0x028 then some (n % 2)
  else if n < 0x040 then none
  else if n < 0x0C0 then
    (match n % 8 with | 0 => some 2 | 1 => some 0 | 2 => some 1 | 3 => some 0 | 4 => some 1 | 5 => some 0 | _ => none)
  else if n < 0x140 then
    (match n % 4 with | 0 => some 1 | 1 => some 0 | 2 => some 1 | _ => none)
  else if n == 0x140 then some 2
  else if n ≤ 0x144 then some 0
  else if n < 0x148 then none
  else if n ≤ 0x14B then some 0
  else if n < 0x150 then none
  else if n ≤ 0x154 then some (if n == 0x151 || n == 0x152 then 1 else 0)
  else if n < 0x160 then none
  else if n < 0x164 then some 0
  else if n ≤ 0x167 then some 1
  else if n < 0x180 then none
  else if n ≤ 0x184 then some 0
  else if n < 0x188 then none
  else if n ≤ 0x189 then some 2
  else if n ≤ 0x18D then some (if n == 0x18B then 1 else if n == 0x18D then 2 else 0)
  else if n < 0x190 then none
  else if n ≤ 0x192 then some (if n == 0x191 then 1 else 0)
  else if n < 0x198 then none
  else if n < 0x19C then some 1
  else if n < 0x1C0 then none
  else if n ≤ 0x1C1 then some 1
  else if n ≤ 0x1C3 then some 0
  else if n ≤ 0x1C5 then some 2
  else if n == 0x1C6 then some 1
  else if n == 0x1C7 then none
  else if n ≤ 0x1CB then some 1
  else if n == 0x1CC then some 3
  else if n == 0x1CD then some 0
  else if n < 0x1F0 then none
  else if n ≤ 0x1F2 then some 1
  else none

/-- Sources with a checker on this part. -/
def sources (s : State) : List Nat :=
  (List.range 0x200).filter (fun n => (srcKind n).isSome
    && !(0x020 + 2 * nPorts s ≤ n && n < 0x028) && !(0x040 + 8 * nDdr s ≤ n && n < 0x0C0)
    && !(0x0C0 + 4 * nFch s ≤ n && n < 0x140) && !(0x160 + nSub s ≤ n && n < 0x164))

/-- CLASS and ACTION bits of Table 14.3 for a source: C 0, U 1, F 2, with ACTION in bit 2. -/
def kindBits (k : Nat) : Nat := match k with | 0 => 0 | 1 => 1 | 2 => 2 | _ => 6

/-- The built-in reaction entry: severity 2, 5 or 7, NOTIFY for U and F (R378). -/
def builtinEntry (n : Nat) : Nat :=
  match srcKind n with
  | none => 0
  | some k => kindBits k + fld (match k with | 0 => 2 | 1 => 5 | _ => 7) 3 3 + fld (if k = 0 then 0 else 1) 7 1

/-- The reaction entry in force, as stored. -/
def reactEntry (s : State) (n : Nat) : Nat :=
  match s.flt.image with
  | some l => l.getD n 0
  | none => builtinEntry n

/-- The content rules of a reaction table body of 512 entries (R378). -/
def reactOk (l : List Nat) : Bool :=
  l.length == 512 && (List.range 512).all (fun n => (l.getD n 0) % 8 == ((srcKind n).map kindBits).getD 0
    && bits (l.getD n 0) 16 16 == 0)

/-- Severity of an event code: the reaction entry's for a fault, that of Table 14.5 and the chapters for the rest
(R383). -/
def evSeverity (s : State) (code : Nat) : Nat :=
  if code < 0x200 then bits (reactEntry s code) 3 3
  else match code with
    | 0x200 => (match s.flt.snapshot.bind (fun l => l.head?) with | some h => bits (reactEntry s h.source) 3 3 | none => 0)
    | 0x201 => 1 | 0x202 => 3 | 0x203 => 4 | 0x204 => 4 | 0x205 => 1 | 0x206 => 6 | 0x207 => 5 | 0x208 => 5
    | 0x209 => 1 | 0x20A => 5 | 0x210 => 5 | 0x211 => 3 | 0x212 => 4 | 0x213 => 6 | 0x214 => 6 | _ => 0

/-- Rate limit of a code in µs: RATE_MIN minutes, 0 acting as 10 (R378, R385). -/
def evRate (s : State) (code : Nat) : Nat :=
  let m := if code < 0x200 then bits (reactEntry s code) 8 8 else 0
  (if m = 0 then 10 else m) * 60000000

/-- BINS of a code: codes 0x200 and above use 0 (R384). -/
def evByLow (s : State) (code : Nat) : Bool := code < 0x200 && bit (reactEntry s code) 6

/-! ### Bins and records (R384–R390) -/

/-- Histogram bin of a detail. -/
def histBin (byLow : Bool) (detail : Nat) : Nat :=
  if byLow then detail % 16 else if detail = 0 then 0 else min 15 (Nat.log2 detail + 1)

/-- The bin that covers one event. -/
def binOne (s : State) (byLow : Bool) (detail flags : Nat) : EvBin :=
  let d := detail % 2 ^ 32
  { count := 1, min := d, max := d, first := d, last := d, firstTime := timeStamp s, lastTime := timeStamp s,
    hist := (List.replicate 16 0).set (histBin byLow d) 1, recent := [(d, timeStamp s)], flags := flags,
    state0 := s.dev.state.code, real := !bit flags 2 }

/-- A bin with one event more; counts saturate, setting SATURATED (R384). -/
def binAdd (s : State) (byLow : Bool) (b : EvBin) (detail flags : Nat) : EvBin :=
  if b.count = 0 then binOne s byLow detail (flags ||| b.flags) else
  let d := detail % 2 ^ 32
  let i := histBin byLow d
  let full := b.count == 0xFFFFFFFF || b.hist.getD i 0 == 0xFFFFFFFF
  { b with count := min 0xFFFFFFFF (b.count + 1), min := min b.min d, max := max b.max d, last := d,
           lastTime := timeStamp s, hist := b.hist.set i (min 0xFFFFFFFF (b.hist.getD i 0 + 1)),
           recent := ((d, timeStamp s) :: b.recent).take 8,
           flags := b.flags ||| flags ||| (if full then 1 else 0), real := b.real || !bit flags 2 }

/-- Highest severity among the records of a log sector. -/
def sectorSev (s : State) (k : Nat) : Nat :=
  ((s.log.recs.filter (fun r => r.sector == k)).map (·.sev)).foldl max 0

/-- Sectors that hold records, oldest first. -/
def usedSectors (s : State) : List Nat :=
  s.log.recs.foldl (fun l r => if l.contains r.sector then l else l ++ [r.sector]) []

/-- The sector whose highest severity is lowest, the oldest of equals (R389). -/
def victimSector (s : State) : Option (Nat × Nat) :=
  (usedSectors s).foldl (fun best k =>
    match best with
    | none => some (k, sectorSev s k)
    | some (j, m) => if sectorSev s k < m then some (k, sectorSev s k) else some (j, m)) none

/-- The next erased sector: in the bank that is not erasing where there is one (R388). -/
def nextSector (s : State) : Option Nat :=
  let busy := fun b => (match bankOp s b with | some o => o.erase | none => false) || (bankSusp s b).isSome
  match s.log.freeSectors.find? (fun k => !busy (k / 64)) with
  | some k => some k
  | none => s.log.freeSectors.head?

/-- The place of the next record, with the log changed to make it free: the sector being filled, the next erased
sector, or a reclaimed victim of lower severity (R388, R389). None where the record is refused, with the severity at
which recording stops. -/
def logPlace (s : State) (sev : Nat) : State × Option Nat × Nat :=
  if s.log.fill < 256 then ({ s with log := { s.log with fill := s.log.fill + 1 } }, some s.log.sector, 0)
  else match nextSector s with
    | some k => ({ s with log := { s.log with sector := k, fill := 1, freeSectors := s.log.freeSectors.erase k } }, some k, 0)
    | none =>
      match victimSector s with
      | none => (s, none, 7)
      | some (k, m) =>
        if m < sev then
          (nvmPost { s with log := { s.log with sector := k, fill := 1, stopped := none,
                                                recs := s.log.recs.filter (fun r => r.sector != k) } }
            { agent := 5, erase := true, addr := logSectorAddr k }, some k, 0)
        else (s, none, m)

/-- Whether the recorder can write now: powered, not clearing, no collapse, embedded flash not blocked (R335, R347,
R396). -/
def logReady (s : State) : Bool :=
  s.dev.state != .off && s.log.clearing.isNone && !s.psq.collapse && !s.nvm.bod

/-- Writes a record covering bin `b`, or refuses it (R387–R389). The Bool says whether it was written. -/
def logWrite (s : State) (code sev : Nat) (b : EvBin) (part : Option (Nat × List HistEnt)) : State × Bool :=
  match logPlace s sev with
  | (s', some k, _) =>
    let q := (s'.log.seq + 1) % 2 ^ 48
    let flags := b.flags ||| (if s.dev.xtalOk then 0 else 2)
    let s' := nvmPost s' { agent := 5, erase := false, addr := logSectorAddr k + 256 * (s'.log.fill - 1),
                           what := .record }
    ({ s' with log := { s'.log with
        seq := q, writing := true,
        recs := s'.log.recs ++ [{ code := code, sev := sev, seq := q, state := s.dev.state.code,
                                  powerCycle := s.dev.powerCycles, bin := { b with flags := flags }, part := part,
                                  sector := k }],
        lastRec := tset s'.log.lastRec code s.now,
        sev7 := if sev = 7 then sins s'.log.sev7 code else s'.log.sev7,
        bins := tdel s'.log.bins code } }, true)
  | (s', none, m) =>
    (bump { s' with log := { s'.log with
        stopped := some m, bins := tset s'.log.bins code { b with flags := b.flags ||| 16 },
        lastRec := tset s'.log.lastRec code s.now } } rLogRefused 16 16 1, false)

/-- A code may open a bin: the pool of 256 always holds a place for BIN_OVERFLOW (R384). -/
def binRoom (s : State) (code : Nat) : Bool := code == 0x208 || decide ((tdel s.log.bins 0x208).length < 255)

/-- Collects an event in its code's bin, or in BIN_OVERFLOW when the pool of 256 is full (R384). -/
def binEvent (s : State) (code detail flags : Nat) : State :=
  let fl := flags ||| (if s.log.writing then 8 else 0)
  if (tget s.log.bins code).isSome || binRoom s code then
    { s with log := { s.log with bins := tmod s.log.bins code {} (fun b => binAdd s (evByLow s code) b detail fl) } }
  else
    bump { s with log := { s.log with
      bins := tmod s.log.bins 0x208 {} (fun b => binAdd s false b code fl) } } rLogRefused 0 16 1

/-- Whether an event of a code is written at once: no record for RATE_MIN and no open bin, or the first event of a
severity-7 code in the run; never during a write (R385, R390). -/
def promptNow (s : State) (code sev : Nat) : Bool :=
  logReady s && (tget s.log.bins code).isNone
    && ((!s.log.writing && (match tget s.log.lastRec code with | none => true | some u => u + evRate s code ≤ s.now))
      || (sev == 7 && !(s.log.sev7.contains code)))

/-- The Neraesh vendor UUID (R378). -/
def neraeshUuid : List Byte :=
  be 0x5b2e9c4077164f3ab1d80e6c29a4f517 16

/-- Appends an event record to a mailbox, with the next handle. -/
def pushEvent (m : Mbox) (lg : Nat) (data : List Byte) : Mbox :=
  { m with events := m.events ++ [⟨((m.events.getLast?.map (·.handle)).getD 0) % 65535 + 1, lg, data⟩] }

/-- Posts an event record to the log `lg` of every logical device while a CXL link is up (R263, R378). -/
def postAll (s : State) (lg : Nat) (data : List Byte) : State :=
  if s.cxl.ports.any (fun p => p.2.link == 2) then
    { s with cxl := { s.cxl with mboxes := s.cxl.mboxes.map (fun p =>
        (p.1, pushEvent p.2 lg (neraeshUuid ++ data))) } }
  else s

/-- Record data of a fault notification (Table 14.8, kind 0x01). -/
def faultData (s : State) (src detail : Nat) : List Byte :=
  [1#8, 1#8] ++ le src 2 ++ [BitVec.ofNat 8 ((reactEntry s src) % 4), 0#8, 0#8, 0#8] ++ le detail 4 ++ zeros 8
    ++ le (timeStamp s).toNat 8 ++ zeros 52

/-- The notification of a fault's record: to the Informational, Warning or Failure log by class (R378). -/
def notifyFault (s : State) (code detail : Nat) : State :=
  if code < 0x200 && bit (reactEntry s code) 7 then postAll s ((reactEntry s code) % 4) (faultData s code detail)
  else s

/-- Records an event: prompt record, or a place in its bin (R384, R385). `flags` are those of Table 14.6. -/
def logEvent (s : State) (code detail flags : Nat) : State :=
  if s.dev.state == .off then s
  else if promptNow s code (evSeverity s code) then
    match logWrite s code (evSeverity s code) (binOne s (evByLow s code) detail flags) none with
    | (s', true) => if bit flags 2 then s' else notifyFault s' code detail
    | (s', false) => s'
  else binEvent s code detail flags

/-- Writes the open bin of a code as a summary record (R385). -/
def flushBin (s : State) (code : Nat) : State :=
  match tget s.log.bins code with
  | none => s
  | some b =>
    match logWrite s code (evSeverity s code) b none with
    | (s', true) => if b.real then notifyFault s' code b.last else s'
    | (s', false) => s'

/-- Open bins by severity, highest first. -/
def binOrder (s : State) : List Nat :=
  ((List.range 8).reverse).flatMap (fun v => (tkeys s.log.bins).filter (fun c => evSeverity s c == v))

/-- On entry to HARVESTING, RAILS_DOWN or LATCHED every open bin is written (R385). -/
def flushBins (s : State) : State :=
  if logReady s then (binOrder s).foldl flushBin s else s

/-- Three HISTORY records of a snapshot, written whatever the rate limit (R380, R385, R387); while the recorder cannot write,
they are an event in their bin (R335, R396). -/
def logHistory (s : State) (src : Nat) (snap : List HistEnt) : State :=
  let sev := evSeverity s src
  let b := binOne s false src 0
  let w := fun (s : State) (k : Nat) => (logWrite s 0x200 sev b (some (k, (snap.drop (13 * k)).take 13))).1
  if logReady s then w (w (w s 0) 1) 2 else binEvent s 0x200 src 0

/-! ### Record bytes (Table 14.6) -/

/-- A history entry as 16 bytes (Table 14.4). -/
def histBytes (h : HistEnt) : List Byte :=
  le (h.source % 512 + fld h.cls 9 2 + fld (b2n h.injected) 11 1 + fld (b2n h.polled) 12 1) 2
    ++ le h.state 1 ++ le h.nested 1 ++ le h.detail 4 ++ le h.time.toNat 8

/-- Bytes 0–251 of an event record. -/
def recBody (r : LogRec) : List Byte :=
  let h := le 0x4556 2 ++ le (r.code % 1024 + fld r.sev 10 3) 2 ++ le r.seq 6 ++ le r.bin.flags 1
    ++ le (r.state % 16 + fld r.bin.state0 4 4) 1 ++ le r.powerCycle.toNat 4
  match r.part with
  | some (k, es) => h ++ padTo (es.flatMap histBytes) 208 ++ le k 1 ++ le es.length 1 ++ zeros 26
  | none =>
    h ++ le r.bin.firstTime.toNat 8 ++ le r.bin.lastTime.toNat 8 ++ le r.bin.count 4 ++ le r.bin.min 4
      ++ le r.bin.max 4 ++ le r.bin.first 4 ++ le r.bin.last 4 ++ zeros 4
      ++ padTo (r.bin.hist.flatMap (fun n => le n 4)) 64
      ++ padTo (r.bin.recent.flatMap (fun p => le p.1 4 ++ le p.2.toNat 8)) 96 ++ zeros 36

/-- The 256 bytes of an event record. -/
def recBytes (r : LogRec) : List Byte := recBody r ++ le (crc32c (recBody r)) 4

end Sys2Proof.Machine
end

