-- ==== Sys2Proof/Machine/Wire.lean ====
section
/-! DEFINITION. The queues of the two-wire ports (R368, 13_converters_and_two_wire.md). -/

namespace Sys2Proof.Machine

open Sys2Proof

/-- A port's state. -/
def twi (s : State) (n : Nat) : Twi := tgetD s.twi.ports n {}

/-- Sets a port's state. -/
def setTwi (s : State) (n : Nat) (p : Twi) : State := { s with twi := { s.twi with ports := tset s.twi.ports n p } }

/-- A fenced port (R370). -/
def fenced (s : State) (n : Nat) : Bool := (twi s n).st == 3

/-- The port works: VAON present, no collapse mode, enabled, not fenced. -/
def twiUp (s : State) (n : Nat) : Bool :=
  s.dev.state != .off && !s.psq.collapse && cfg s (regAt rTwiCfg n) 31 1 == 1 && !fenced s n

/-- A transaction placed in agent order, after those of its own agent (R368). -/
def twiInsert (q : List TwiTx) (x : TwiTx) : List TwiTx :=
  match q with
  | [] => [x]
  | y :: r => if x.agent < y.agent then x :: y :: r else y :: twiInsert r x

/-- Starts the next waiting transaction of an idle port. -/
def twiKick (s : State) (n : Nat) : State :=
  let p := twi s n
  match p.cur, p.queue with
  | none, x :: r =>
    if twiUp s n then
      emit (setTwi s n { p with cur := some x, queue := r, st := 1, spacing := false, since := s.now }) (.twi n x.addr x.code x.data)
    else s
  | _, _ => s

/-- A sequencer step to slave `i` of the rail table: SEQ_ENABLE or SEQ_DISABLE with the slot's outputs. A failure of it
has no consequence of its own (R334), so on a fenced or disabled port the step is not queued. -/
def slaveStep (s : State) (addr code outputs slot : Nat) : State :=
  if twiUp s 2 then
    let x : TwiTx := { agent := 1, addr := addr, code := code, data := le outputs 1, slot := slot }
    twiKick (setTwi s 2 { twi s 2 with queue := twiInsert (twi s 2).queue x }) 2
  else s

end Sys2Proof.Machine
end

