-- ==== Sys2Proof/Machine/Device.lean ====
section
/-! DEFINITION. The device states and what entering one does: stopping commands into late status, the fall of
host-assisted functions, the cut, the loss record, the rails (chapters 1, 2, 6 and 11). -/

namespace Sys2Proof.Machine

open Sys2Proof

/-! ### Where a granule lives (R110, R138) -/

/-- Populated DDR channels, ascending. -/
def popChannels (s : State) : List Nat := (s.ddrs.ch.filter (fun p => p.2.dimms != 0)).map (·.1)

/-- The channel number c(g) among `n` populated channels (R110). -/
def chanHash (n g : Nat) : Nat :=
  let k := Nat.log2 n
  (bits g 0 k) ^^^ (bits g k k) ^^^ (bits g (2 * k) k) ^^^ (bits g (3 * k) k)

/-- The DDR channel that holds host granule `g`. -/
def granChan (s : State) (g : Nat) : Nat :=
  let p := popChannels s
  p.getD (chanHash p.length g) 0

/-- The region of a host granule (R138). -/
def granRegion (g : Nat) : Nat := g / 65536

/-- The extent of a host granule. -/
def granExtent (g : Nat) : Nat := g / 16384

/-- The allotment that holds an extent. -/
def extentOwner (s : State) (e : Nat) : Option Nat :=
  (s.alt.tab.find? (fun p => p.2.extents.contains e)).map (·.1)

/-- The allotment of a host granule. -/
def granAllot (s : State) (g : Nat) : Option Nat := extentOwner s (granExtent g)

/-- Exposure: the count of granules in any state other than CLEAN (R137). -/
def exposure (s : State) : Nat := s.drp.gran.length

/-- Regions that hold extents of a LOCAL allotment. -/
def localRegions (s : State) : List Nat :=
  s.alt.tab.foldl (fun l p => if p.2.mirrored then l else p.2.extents.foldl (fun m e => sins m (e / 4)) l) []

/-- Regions that hold extents of any allotment. -/
def allotRegions (s : State) : List Nat :=
  s.alt.tab.foldl (fun l p => p.2.extents.foldl (fun m e => sins m (e / 4)) l) []

/-! ### Commands at an entry to HARVESTING, RAILS_DOWN or LATCHED (R58, R59) -/

/-- The class 2 reply of an in-flight entry (R58, R59). -/
def lateReply (f : InFlight) : Reply :=
  let origin := fld f.cmd.est 16 16 + fld (carrierCode f.cmd.carrier) 8 8 + f.phase % 256
  match f.reply with
  | some r => { r with cls := 2, retry := origin, output := [] }
  | none => { tag := f.cmd.tag, op := f.cmd.op, status := 0x07, cls := 2, retry := origin, detail := f.phase % 256 }

/-- The erased late-status slot, if there is one. -/
def freeLateSlot (s : State) : Option Nat :=
  if !(s.trl.late.any (fun g => g.slot == 0)) then some 0
  else if !(s.trl.late.any (fun g => g.slot == 1)) then some 1 else none

/-- A late-status slot without a group that is not erased is erased in the background (R60, R355). -/
def eraseLate (s : State) (k : Nat) : State :=
  if s.trl.late.any (fun g => g.slot == k) || s.nvm.lsErased.getD k false || eraseWaits s (mainSector k 224) then s
  else nvmPost s { agent := 6, erase := true, addr := mainSector k 224, what := .lateSlot k }

/-- The late-status slots at a start: with two unreleased groups the older is discarded; a slot without a group is erased, so
that one slot is (R60, R355). -/
def loadLate (s : State) : State :=
  let s := match s.trl.late with
    | _ :: b :: r => { s with trl := { s.trl with late := b :: r, lateOverflow := true } }
    | _ => s
  eraseLate (eraseLate s 0) 1

/-- The program that puts a late-status group into its slot; its end leaves nothing more to do, its cut leaves the entries
that were written (R58, R60). -/
def postLate (s : State) (k : Nat) : State :=
  nvmPost s { agent := 2, erase := false, addr := mainSector k 224, what := .lateGroup k }

/-- Writes the entries as one group; a group of the same run takes them when it stands already (log entry 23). -/
def writeLate (s : State) (es : List LateEntry) : State :=
  if es.isEmpty then s
  else match s.trl.late.find? (fun g => g.powerCycle == s.dev.powerCycles && g.run == s.nvm.runSeq) with
    | some g0 =>
      postLate { s with trl := { s.trl with late := s.trl.late.map (fun g =>
          if g.slot == g0.slot then { g with count := g.count + es.length, entries := g.entries ++ es } else g) } } g0.slot
    | none =>
      match freeLateSlot s with
      | some k =>
        postLate { s with trl := { s.trl with late := s.trl.late ++ [{ powerCycle := s.dev.powerCycles, run := s.nvm.runSeq,
                                                                       count := es.length, entries := es, slot := k }] },
                          nvm := { s.nvm with lsErased := s.nvm.lsErased.set k false } } k
      | none => s

/-- Stops every command admitted before the entry but those of `keep`, and writes them to the late-status area
(R58). -/
def stopCommands (s : State) (keep : List Nat) : State :=
  let gone := s.trl.flight.filter (fun f => !(keep.contains f.id))
  let s := writeLate s (gone.map (fun f => { issuer := f.cmd.est, reply := lateReply f }))
  { s with
    trl := { s.trl with
      flight := s.trl.flight.filter (fun f => keep.contains f.id),
      qps := s.trl.qps.map (fun p => (p.1, { p.2 with owed := [] })) },
    cxl := { s.cxl with mboxes := s.cxl.mboxes.map (fun p => (p.1, { p.2 with busy := none })) },
    krc := { s.krc with waiting := [] },
    log := { s.log with clearing := none },
    alt := { s.alt with tab := s.alt.tab.map (fun p => (p.1, { p.2 with busy := none })) },
    exl := { s.exl with
      pairWait := none,
      compares := s.exl.compares.map (fun c => { c with cmd := none }),
      txs := (s.exl.txs.filter (fun x => !x.mine || x.phase == 2)).map (fun x => { x with cmd := none }) },
    fwu := { s.fwu with erasing := none },
    nvm := { s.nvm with queue := s.nvm.queue.filter (fun o => match o.what with
      | .logSector _ => false | .fwErase _ _ => false | .fwData _ _ => false | _ => true) } }

/-! ### Function modes (R32, R68) -/

/-- A function's state or its restart default. -/
def func (s : State) (f : Nat) : Func := tgetD s.mpx.funcs f {}

/-- Function `f` runs in host-assisted mode. -/
def assisted (s : State) (f : Nat) : Bool := (func s f).mode

/-- Sets function `f`. -/
def setFunc (s : State) (f : Nat) (x : Func) : State := { s with mpx := { s.mpx with funcs := tset s.mpx.funcs f x } }

/-- Function `f` leaves host-assisted mode with a reason and no owner; its last good table stands (R32). -/
def dropFunc (reason : Nat) (x : Func) : Func :=
  if x.mode then
    { x with mode := false, pend := x.pend.filter (fun p => !p.fall), reason := reason, owner := 0#16, hasOwner := false, fell := false }
  else { x with pend := none, fell := false }

/-- What a moment of R32 ends of the input of the functions `p` picks: lane delays return to their measured centres (R122),
hints and queued ranges are dropped (R154, R199), a single drip stream and the hardware wear values return (R234), the
owner's charge, rate and step are gone (R301, R271, R336). -/
def dropInputs (s : State) (p : Nat → Bool) : State :=
  let s := if p 0 then { s with drp := { s.drp with hints := [] } } else s
  let s := if p 1 then { s with ftl := { s.ftl with streams := [], hostWear := none } } else s
  let s := if p 2 then { s with gau := { s.gau with hostSoc := none } } else s
  let s := if p 3 then { s with psq := { s.psq with sw := s.psq.sw.map (fun w => { w with hostWait := false }) } } else s
  let s := if p 5 then { s with ddrs := { s.ddrs with ch := s.ddrs.ch.map (fun c => (c.1, { c.2 with
      lanes := c.2.lanes.map (fun l => (l.1, if l.2.hostSet then { l.2 with rd := l.2.hwRd, wr := l.2.hwWr, hostSet := false, pending := none }
        else { l.2 with pending := none })) })) } } else s
  let s := if p 7 then { s with hrv := { s.hrv with ranges := [] } } else s
  if p 9 then { s with exl := { s.exl with resyncHost := none } } else s

/-- Every function in host-assisted mode runs in hardware mode (R32), and pending switches end; one that an activation
moved (R406) does not return to its owner. -/
def funcsToHw (s : State) (reason : Nat) : State :=
  let moved := fun (k : Nat) => s.fwu.saved.any (fun q => q.1 == k)
  let s := dropInputs s (fun _ => true)
  { s with
    mpx := { s.mpx with funcs := s.mpx.funcs.map (fun p =>
      (p.1, { dropFunc reason { p.2 with mode := p.2.mode || moved p.1 } with pend := none })) },
    fwu := { s.fwu with saved := [] } }

/-- After a restart every function starts in hardware mode, with reason 0 (R32, R68). DESIGN CHOICE (log entry 101): the AUTO
bit of its policy stays, the watchdog period is 0. -/
def funcsRestart (s : State) : State :=
  let s := dropInputs s (fun _ => true)
  { s with mpx := { s.mpx with funcs := s.mpx.funcs.map (fun p => (p.1, { auto := p.2.auto })) } }

/-! ### Transitions -/

/-- A converter resumes the entry at whose boundary the rail scan held it (R362). -/
def adcResume (s : State) (x : Adc) : Adc := if x.held then { x with held := false, since := s.now } else x

/-- The states of a start, in which every slot is judged in scan mode (Table 11.4). -/
def starting (d : DevState) : Bool := d == .waking || d == .railsUp || d == .training

/-- The last slot leaves scan mode (R362). -/
def scanReleased (s : State) : State := { s with adc := { s.adc with a0 := adcResume s s.adc.a0, a1 := adcResume s s.adc.a1 } }

/-- Makes `d` the device state, with its cause and the state before it (R21, R22). WARM stays only into
REPLANTING. -/
def setDev (s : State) (d : DevState) (c : Cause) : State :=
  let s := if starting s.dev.state && !starting d && s.psq.scanSlots.isEmpty then scanReleased s else s
  { s with dev := { s.dev with prev := s.dev.state, state := d, cause := c, stateAt := s.now,
                               warm := s.dev.warm && d == .replanting } }

/-- An event without a row for the current state (R22): recorded under IGNORED_EVENT with its cause code. -/
def ignored (s : State) (c : Cause) : State := logEvent s 0x209 c.code 0

/-- The weeding pass and a rehearsal end on leaving SERVING and DEGRADED (R429, R314): no step is active, the
pending injections of item 4 are withdrawn; unit progress stays. A periodic rehearsal is to be retried (R432). -/
def endWeeding (s : State) : State :=
  let auto := match s.gau.reh with | some r => r.auto | none => false
  { s with ist := { s.ist with step := none, retries := if auto then s.ist.retries + 1 else s.ist.retries,
                               retryAt := if auto then some (s.now + 3600000000) else s.ist.retryAt,
                               items := s.ist.items.map (fun p => (p.1, { p.2 with now := none, nowFail := none })) },
           gau := if s.gau.reh.isSome then { s.gau with reh := none, rehResult := 2, rehQuiet := false } else s.gau,
           flt := { s.flt with src := s.flt.src.map (fun p =>
             (p.1, match p.2.inject with
                   | some j => if j.cmd.isNone then { p.2 with inject := none } else p.2
                   | none => p.2)) } }

/-- The unattended moment of R32 with R58, R385 and R479: stopped commands, hardware modes, bins written; pending
configuration values saved on entry to HARVESTING and RAILS_DOWN. -/
def unattended (s : State) (d : DevState) (c : Cause) (keep : List Nat) : State :=
  let s := stopCommands s keep
  let s := funcsToHw s 4
  let s := endWeeding (setDev s d c)
  let s := { s with psq := { s.psq with offRun := none, offPending := none, offCmds := [], sw := none, swQueue := [], heldEn := [] },
                    drp := { s.drp with offDrain := false } }
  let s := flushBins s
  match d with
  | .latched => s
  | _ => saveConfig s

/-- Every ENA output low and both privileged outputs released, with no ordering (R326, R335, R376). -/
def railsDrop (s : State) : State :=
  { s with psq := { s.psq with on := [], good := [], off := [], stages := [], phase := 6, packEn := false, nandEn := false,
                               domains := [], sw := none },
           pin := { s.pin with padOn := false } }

/-- The Exsor state that outlives the logic die's supply: the pairing record, changes the peer has prepared or both have
committed, the pair epoch, the times of the trainings. -/
def linkOff (s : State) : Exl :=
  { paired := s.exl.paired, peerRec := s.exl.peerRec, secret := s.exl.secret, sessNext := s.exl.sessNext,
    reserved := s.exl.reserved, nextTx := s.exl.nextTx, cursor := s.exl.cursor, epoch := s.exl.epoch,
    txs := s.exl.txs.map (fun x => if !x.mine && x.phase != 2 then { x with phase := 4 } else x),
    subs := s.exl.subs.map (fun p => (p.1, { trains := p.2.trains })) }

/-- The logic die loses its supply: its links, queues and volatile tables go (Table 1.5, Table 19.3). DRAM content
stays only in self-refresh; `keepDram` says so. -/
def logicOff (s : State) (keepDram : Bool) : State :=
  { s with
    d2d := { s.d2d with up := false, toCold := {}, toLogic := {}, retraining := false, bridge := [], eventHigh := 0, gaugeDue := false },
    cxl := { s.cxl with ports := s.cxl.ports.map (fun p =>
      (p.1, { p.2 with link := 0, ide := 0, spdm := {}, ideKeys := {}, gpf := false, gpfSet := [], seen := [], devload := 0, devAt := 0 })) },
    exl := linkOff s,
    ldg := { s.ldg with heldW := [], rebuildW := [], share := [] },
    mpx := { s.mpx with a := { s.mpx.a with st := if s.mpx.a.st == 2 then 2 else 1 },
                        b := { s.mpx.b with st := if s.mpx.b.st == 2 then 2 else 1 }, activating := false },
    fwu := { s.fwu with target := none, epoch := none, phase := if s.fwu.phase == 1 then 0 else s.fwu.phase },
    tin := { s.tin with beds := [], tines := [], heldC := [], inService := false },
    ftl := { s.ftl with progs := [], jbuf := [] },
    mem := if keepDram then { s.mem with rebuildWaits := [] } else { s.mem with cells := [], poison := [], ueLines := [], crc := [], rebuildWaits := [] },
    ddrs := { ch := s.ddrs.ch.map (fun p => (p.1, { p.2 with
      st := if keepDram then p.2.st else 0, rdq := [], wrq := [], wait := [], drain := [], retraining := false, rebuild := none, scrubCut := none,
      saved := if keepDram then p.2.saved else [] })) },
    fus := { s.fus with shadow := false },
    pin := { s.pin with logicMax := none, drst := if keepDram then s.pin.drst else [] } }

/-- The region summary as a running-rail or stop Fatal leaves it (R139): LOCAL regions are marked while the
die-to-die link retrains, is down, or a frame was discarded in the last 2 µs. DEDUCED (log entry 114): idle frames (TYPE 0x0)
fill a link that is up, so 1 µs without a valid frame is one of these. -/
def lossRegions (s : State) : List Nat :=
  if s.d2d.retraining || !s.d2d.up || (match s.d2d.badAt with | some t => decide (s.now ≤ t + 2) | none => false)
  then sunion s.drp.summary (localRegions s) else s.drp.summary

/-- 1 GiB regions of host granule space on this part. -/
def partRegions (s : State) : Nat := if isBig s then 8192 else 4096

/-- The summary of a loss record: bit `r` of byte `r / 8` says that region `r` is dirty (Table 12.7). -/
def regionBits (l : List Nat) : List Byte :=
  (List.range 2048).map (fun k => BitVec.ofNat 8 (maskOf ((List.range 8).filter (fun i => l.contains (8 * k + i)))))

/-- Bytes 0–2,079 of a loss record of this part (Table 12.7). -/
def lossBytes (s : State) (x : LossRec) : List Byte :=
  le 0x4C4F5353 4 ++ le x.runSeq 4 ++ le (x.bound.getD 0xFFFFFFFF) 4 ++ le x.header 4 ++ le (partRegions s) 4
    ++ le x.powerCycle.toNat 4 ++ le x.cause 1 ++ zeros 7 ++ regionBits x.regions

/-- Where the next start record goes, on a 64-byte boundary of the active area (R356). -/
def startPlace (s : State) : Nat := mainSector s.nvm.startArea 226 + s.nvm.startUsed

/-- Unit `u` of the run record is programmed: 0 OPEN, 1 CLOSE (R356). -/
def runUnit (s : State) (u : Nat) : State :=
  nvmPost s { agent := 3, erase := false, addr := mainSector s.nvm.startArea 226 + s.nvm.runAt + 16 * u }

/-- Writes a loss record of the run, with its CRC, and CLOSE (R178, R180, R356). -/
def placeLoss (s : State) (x : LossRec) : State :=
  let x := { x with runSeq := s.nvm.runSeq, powerCycle := s.dev.powerCycles }
  let a := startPlace s
  let s := { s with hrv := { s.hrv with runOpen := false, loss := some { x with crc := BitVec.ofNat 32 (crc32c (lossBytes s x)) } },
                    nvm := { s.nvm with startUsed := s.nvm.startUsed + 2112 } }
  runUnit (nvmPost s { agent := 1, erase := false, addr := a }) 1

/-- The loss of a run (R139, R178): the copy is marked; a harvest that ends without a seal leaves its boundary and the copy as
it stood at the cut, an open run the copy as it is marked. A run that its seal has closed leaves no loss record. `c` is the cause. -/
def writeLoss (s : State) (c : Cause) : State :=
  let marked := lossRegions s
  let s := { s with drp := { s.drp with summary := marked } }
  match s.hrv.run with
  | some r =>
    let s := { s with hrv := { s.hrv with run := none } }
    if r.phase == 5 then s
    else placeLoss s { cause := c.code, bound := r.coldBound, header := if r.coldBound.isSome then s.ftl.headerStripes else 0, regions := r.summary }
  | none => if s.hrv.runOpen then placeLoss s { cause := c.code, regions := marked } else s

/-- ALIVE is held low from any Fatal until the power cycle (R382). -/
def stopAlive (s : State) : State := { s with flt := { s.flt with alive := false } }

/-- Enters LATCHED: the loss record first, rails dropped, commands to late status (R178, R326, R376). -/
def enterLatched (s : State) (c : Cause) : State :=
  let s := writeLoss s c
  let s := unattended s .latched c []
  let s := logicOff (railsDrop s) false
  { (stopAlive s) with flt := { (stopAlive s).flt with window := none },
                       hrv := { s.hrv with heldRec := none, phase := 0, replant := false, warm := false, todo := [], fetches := [], save := none } }

/-- The slot record in force; the built-in table uses slot 00 alone, with UV 0x200 and OV 0x3FF (R319, R321). -/
def railSlot (s : State) (n : Nat) : RailSlot :=
  if s.psq.table.builtin then (if n == 0 then { cls := 1, hold := true, uv := 0x200, ov := 0x3FF } else {})
  else s.psq.table.slots.getD n {}

/-- Power-down stages: the good slots a stage turns off, in disable order (R323, R324). -/
def stageSlots (s : State) (k : Nat) : List Nat :=
  s.psq.good.filter (fun n =>
    let r := railSlot s n
    match k with
    | 2 => r.cls == 2
    | 3 => (r.cls == 1 || r.cls == 3) && !r.hold
    | _ => true)

/-- Releases the privileged output a slot drives (R318). -/
def releasePriv (s : State) (n : Nat) : State :=
  let r := railSlot s n
  if r.cls == 3 then
    { s with psq := { s.psq with packEn := s.psq.packEn && r.nand, nandEn := s.psq.nandEn && !r.nand } }
  else s

/-- Disables a slot: its enable goes low, a privileged output is released, a slave is told (R323, R334). It counts as
off once below UV ÷ 4; slot 00 is not waited on (R318). -/
def disableSlot (s : State) (n : Nat) : State :=
  let r := railSlot s n
  let s := releasePriv s n
  let s := { s with psq := { s.psq with on := sdel s.psq.on n, good := s.psq.good.filter (· != n),
                                        off := if n == 0 then s.psq.off else sins s.psq.off n, disAt := tset s.psq.disAt n s.now } }
  if r.slave then slaveStep s (s.psq.table.slaves.getD r.slaveIdx 0) 0xD1 r.slaveCh n else s

/-- Starts the next power-down stage that has a slot on and disables its first slot, unless a slot is still going down: then
it follows that slot (R323); with none left the sequencer is idle once every slot is off (R323, R324). -/
def nextStage (s : State) (ks : List Nat) : State :=
  match ks with
  | [] => { s with psq := { s.psq with phase := if s.dev.state == .railsDown && !s.psq.off.isEmpty then 4 else 0, stages := [] } }
  | k :: r =>
    match stageSlots s k with
    | [] => nextStage s r
    | n :: _ =>
      let s := { s with psq := { s.psq with phase := k, stages := r } }
      if s.psq.off.isEmpty then disableSlot s n else s

/-- Where RAILS_DOWN ends: SHELF with VAON present, else OFF. A latched on request clears OFF_HOLD (R331). -/
def endRails (s : State) : State :=
  let s := logicOff { s with psq := { s.psq with on := [], good := [], off := [], phase := 0, packEn := false, nandEn := false,
                                                 offHold := s.psq.offHold && !s.psq.onPending, onPending := false },
                             pin := { s.pin with padOn := false } } false
  setDev s (if s.dev.vaon then .shelf else .off) .progress

/-- Enters RAILS_DOWN: slots still ramping are disabled first, then stage M, E, H run from here (R324, Table 11.6); an empty
sequence ends at once. `keep` are the commands whose end is the entry itself (R58). -/
def enterRailsDown (s : State) (c : Cause) (keep : List Nat) : State :=
  let s := unattended s .railsDown c keep
  let s := (s.psq.on.filter (fun n => !s.psq.good.contains n)).foldl disableSlot s
  let s := { s with psq := { s.psq with on := s.psq.good.foldl sins [], domains := [] },
                    hrv := { s.hrv with run := none, heldRec := none, phase := 0, replant := false, warm := false, todo := [], fetches := [], save := none } }
  let s := nextStage s [2, 3, 4]
  if s.psq.good.isEmpty && s.psq.off.isEmpty then endRails s else s

/-- In WAKING, with fewer than 8,192 erased bytes after the last record of the active start-record area, the other area is
erased and becomes active (R356). -/
def startSwap (s : State) : State :=
  if s.nvm.startUsed ≤ 65536 - 8192 then s
  else
    let k := 1 - s.nvm.startArea
    nvmPost { s with nvm := { s.nvm with startArea := k, startUsed := 0 } }
      { agent := 6, erase := true, addr := mainSector k 226, what := .startArea k }

/-- Enters WAKING: logic-die registers at reset values but RWS fields (R478), functions in hardware mode, queue pairs
and ports as after reset; one late-status slot is erased (R60); a new rail table takes effect (R321); firmware start state
(R400). What MCTP carries goes on: its commands keep their places and the endpoint its memory (R38, R56). -/
def enterWaking (s : State) (c : Cause) : State :=
  let s := loadLate (funcsRestart (resetLogicRegs (setDev s .waking c)))
  startSwap { s with
    trl := { s.trl with qps := [], carriers := s.trl.carriers.filter (fun p => 0x100 ≤ p.1 && p.1 < 0x10000) },
    cxl := { s.cxl with ports := [], mboxes := s.cxl.mboxes.map (fun p => (p.1, { timestamp := p.2.timestamp })) },
    paths := { s.paths with
      captures := s.paths.captures.filter (fun p => !onLogic (p.1 % 2 ^ 32)),
      heldLow := s.paths.heldLow.filter (fun p => !onLogic (p.1 % 2 ^ 32)),
      sels := s.paths.sels.filter (fun p => !onLogic (p.1 % 2 ^ 32)) },
    psq := { s.psq with
      table := (s.psq.nextTable).getD s.psq.table, nextTable := none, offPending := none, offCmds := [], onPending := false,
      phase := 0, lastGood := 0x1F, domains := [], heldEn := [], sw := none, swQueue := [], scanSlots := [] },
    drp := { s.drp with gran := [], dripN := [], limit := 0, limitSet := false, limitCause := 0, stage := 0, thr1Since := none, thr2Since := none,
                        falseSince := none, excess := false, excessAt := 0, netCredit := 0, twinBound := false, held := [], heldSeen := false,
                        dirtiers := [], recency := [], hints := [], floorOn := false, offDrain := false, rate := 0, committed := 0 },
    ldg := { s.ldg with closed := false, heldW := [], rebuildW := [], share := [] },
    mpx := { s.mpx with a := {}, b := {}, level := 0, satWindows := 0, calmAt := 0, residence := [], winAt := s.now, loopAt := [], activating := false },
    tin := { s.tin with beds := [], tines := [], fencedKeep := sunion s.tin.fencedKeep s.tin.fenced, fenced := [], heldC := [], inService := false, low := false, reload := [] },
    hrv := { s.hrv with run := none, phase := 0, replant := false, warm := false, short := false, todo := [], fetches := [], trainStep := 0,
                        ranges := [], save := none, row := 0, lostRegions := 0, cuts := [], cutNs := 0, linkDownNs := 0, lastGranules := 0,
                        lastTimeUs := 0, rates := [0, 0, 0, 0] },
    exl := linkOff s,
    log := { s.log with sev7 := [] },
    flt := { s.flt with
      alive := true,
      src := s.flt.src.map (fun p => (p.1, { p.2 with polled := false })), brokenWires := [] },
    ist := { s.ist with step := none, loopRun := [], raw := [], sums := [], sumFrom := s.ist.rawSeq, hours := [] },
    pin := { s.pin with coldWait := false },
    nvm := { s.nvm with runSeq := s.nvm.runSeq + 1 } }

/-- Input good: MON00 inside its window, OFF_HOLD clear (R328). -/
def inputGood (s : State) : Bool := s.psq.inputIn && !s.psq.offHold

/-- The HELD state under way was entered after a harvest caused by MR_N (R193). -/
def heldByMr (s : State) : Bool := match s.hrv.heldRec with | some r => r.cause == 0x04 | none => false

/-- Input good is a level, evaluated again at every state entry (R23): SHELF and HELD leave for WAKING with it. -/
def settle (s : State) (c : Cause) : State :=
  match s.dev.state with
  | .shelf => if inputGood s then enterWaking s c else s
  | .held => if inputGood s && !(heldByMr s && s.psq.mrActive) then enterWaking s c else s
  | _ => s

/-! ### Events of one window (R23) -/

/-- A running rail: come good, not disabled, not the input monitor, not of a domain switching off (R318, R326). -/
def running (s : State) (n : Nat) : Bool :=
  n != 0 && s.psq.good.contains n
    && (match s.psq.sw with | some w => w.on || (railSlot s n).domain != w.domain | none => true)

/-- Slots judged in scan mode (Table 11.4); none with both converters failed (R428). -/
def scanned (s : State) (n : Nat) : Bool :=
  if s.adc.a0.failed && s.adc.a1.failed then false
  else match s.dev.state with
  | .waking | .railsUp | .training => true
  | .off => false
  | _ => s.psq.scanSlots.contains n

/-- A scanned code is outside the window of its slot. -/
def outside (s : State) (n code : Nat) : Bool :=
  (railSlot s n).cls != 0 && (code < (railSlot s n).uv || (railSlot s n).ov < code)

/-- A scan at clock `t` finds slot `n` outside its window for at least GLITCH_US (R325). -/
def scanFaults (s : State) (n code t : Nat) : Bool :=
  outside s n code && scanned s n && decide (tgetD s.psq.outSince n t + (railSlot s n).glitch ≤ t)

/-- Running slots of slave `k`. -/
def slaveSlots (s : State) (k : Nat) : List Nat :=
  s.psq.good.filter (fun n => (railSlot s n).slave && (railSlot s n).slaveIdx == k)

/-- Rank of the reaction of source `n`: 1 with stop action, 2 with harvest action (R23). -/
def srcRank (n : Nat) : Option Nat := match srcKind n with | some 2 => some 1 | some 3 => some 2 | _ => none

/-- ACTION of a POWER_STATE_REQ packet, its first parameter byte (R337). -/
def pByte0 (c : TrellisCmd) : Nat := (c.params.getD 0 0#8).toNat

/-- The retrain that would start at clock `t` is the third within 1 s (R16). -/
def thirdRetrain (s : State) (t : Nat) : Bool :=
  decide (3 ≤ (t :: s.d2d.retrains.filter (fun u => t ≤ u + 1000000)).length)

/-- Rank and clock of a ranked device-state event (R23): what a waiting command would bring in the present state. -/
def evRank (s : State) (i : Instr) : Option (Nat × Nat) :=
  match i with
  | .railFault n _ _ t => if running s n then some (1, t) else none
  | .railScanPass codes t =>
    if (List.range 24).any (fun n => running s n && (match codes[n]? with | some c => scanFaults s n c t | none => false))
    then some (1, t) else none
  | .slaveStatusPoll slave word ok t =>
    if ok && (slaveSlots s slave).any (fun n => running s n && bits word 8 8 &&& (railSlot s n).slaveCh != 0) then some (1, t)
    else none
  | .railRamp n t =>
    if s.psq.on.contains n && !s.psq.good.contains n && s.psq.sw.isNone then
      (if s.dev.state == .railsUp then some (1, t) else if serving s && (railSlot s n).domain == 0 then some (3, t) else none)
    else none
  | .vaonLow t => if s.psq.collapse then none else some (1, t)
  | .vaonReset t => if s.psq.collapse then none else some (1, t)
  | .faultReport n _ _ _ t => (srcRank n).map (fun r => (r, t))
  | .polledSourceCheck n _ f t => if f then (srcRank n).map (fun r => (r, t)) else none
  | .fatalNotice n _ t => (srcRank n).map (fun r => (r, t))
  | .brokenPath (.wire k) t => if k ≤ 2 && !s.flt.brokenWires.contains k then some (2, t) else none
  | .d2dRetrain t =>
    if s.d2d.up && !s.d2d.retraining && (8 ≤ s.d2d.toCold.fails || 8 ≤ s.d2d.toLogic.fails) && thirdRetrain s t then some (2, t)
    else none
  | .powerFail _ _ _ t => some (3, t)
  | .longPress t => some (4, t)
  | .thermalTrip _ t => some (4, t)
  | .mrNAssert t => some (5, t)
  | .shortPress t => some (6, t)
  | .powerStateReq c => if pByte0 c ≤ 1 then some (6, c.t) else none
  | .holdTimeReached t => some (7, t)
  | .sublinkLost _ t => some (8, t)
  | _ => none

/-- Whether an event of rank `k` loses to a higher one of its 1 µs window: one that took effect, or one that waits
(R23). A lower event that loses is discarded. -/
def outranked (s : State) (k : Nat) : Bool :=
  (match s.dev.won with | some (u, r) => u == s.now && decide (r < k) | none => false)
    || s.pending.any (fun i => match evRank s i with | some (r, u) => u == s.now && decide (r < k) | none => false)

/-- An event of rank `k` takes effect. -/
def noteWon (s : State) (k : Nat) : State := { s with dev := { s.dev with won := some (s.now, k) } }

/-! ### Seals (R179, R180) -/

/-- SEAL_SEQ of the seal in force; 0 on a blank device. -/
def sealSeq (s : State) : Nat := match s.hrv.seals with | a :: _ => a.seq | [] => 0

/-! ### The harvest's start (R161–R175) -/

/-- Harvest tier of an allotment (R175, Table 6.4). -/
def harvestTier (s : State) (id : Nat) : Nat :=
  match tget s.hrv.plan id with
  | some t => t
  | none =>
    match tget s.alt.tab id with
    | some a => if !a.mirrored then 2 else if a.serving then 4 else 6
    | none => 2

/-- Allotment states in DELETING have left the harvest set (R171). -/
def deleting (s : State) (id : Nat) : Bool :=
  match tget s.alt.tab id with | some a => a.st == .deleting | none => true

/-- The harvest set: granules not CLEAN, of allotments not in DELETING (R171). -/
def harvestSet (s : State) : List Nat :=
  (tkeys s.drp.gran).filter (fun g => match granAllot s g with | some id => !deleting s id | none => false)

/-- Channel group of a granule: 4 populated channels on the ORR-7716, 2 on the ORR-7708, one group with 4 populated
channels on the ORR-7716 (R174). -/
def granGroup (s : State) (g : Nat) : Nat :=
  let n := (popChannels s).length
  chanHash n g / (if isBig s then 4 else 2)

/-- Plan order of a set of granules (R174): tier, channel group, ascending channel-local index. The granules of one
index in ascending host granule number alternate across the channels. -/
def planOrder (s : State) (l : List Nat) : List Nat :=
  let n := (popChannels s).length
  (List.range 8).flatMap (fun t =>
    let lt := l.filter (fun g => harvestTier s ((granAllot s g).getD 0) == t)
    (List.range (max 1 n)).flatMap (fun k => lt.filter (fun g => granGroup s g == k)))

/-- Rank of a harvest cause (Table 6.1): lower ranks first. -/
def causeRank (c : Cause) : Nat :=
  match c with | .fatal => 2 | .powerFail => 3 | .longPress => 4 | .thermal => 4 | .mrN => 5 | _ => 9

/-- Enters HARVESTING for a cause (R161). The cut follows at the notice or within the same command. -/
def enterHarvesting (s : State) (c : Cause) (keep : List Nat) : State :=
  let s := unattended s .harvesting c keep
  { s with hrv := { s.hrv with run := some { cause := c, summary := s.drp.summary } } }

/-- A cause that arrives during HARVESTING: the destination is that of the highest-ranked cause (R162). -/
def harvestCause (s : State) (c : Cause) : State :=
  match s.hrv.run with
  | some r =>
    if causeRank c < causeRank r.cause then { s with hrv := { s.hrv with run := some { r with cause := c } } } else s
  | none => s

/-- Control messages of Table 8.7 sent on every sublink that is UP, with the sublink and its THROUGH (R255). -/
def sendHarvest (s : State) (c : Cause) : State :=
  (subsUp s).foldl (fun s k => sendMsg s k 0x09 [c.code, k, (subl s k).sent]) s

/-- Every CXL link that is still up goes down (R168). -/
def linksDown (s : State) : State :=
  let s := s.cxl.ports.foldl (fun s p => if p.2.link == 2 then emit s (.linkDown p.1) else s) s
  { s with cxl := { s.cxl with ports := s.cxl.ports.map (fun p =>
      (p.1, { p.2 with link := 0, ide := 0, spdm := {}, ideKeys := {}, gpf := false, gpfSet := [], devload := 0 })) } }

/-- A CXL link is up: queue pairs and mailboxes exist (R56). -/
def anyLink (s : State) : Bool := s.cxl.ports.any (fun p => p.2.link == 2)

/-- Waiting fetches take the places that are free: the first 64 of each channel in arrival order run (R186, R189). -/
def startWaiting (l : List Fetch) : List Fetch :=
  l.foldl (fun m f => m ++ [{ f with running := f.running || decide ((m.filter (fun k => k.chan == f.chan)).length < 64) }]) []

/-- The cut (R165, R168, steps 3–7 of Table 6.3): slices close, held writes, flushes and drip dispatch end, the harvest set is
put in plan order, the twin is told, and stage M starts. The links stay up until they go down, 40 µs after detection at the
latest; GPF and waiting reads get no answer. `ns` is the delay from detection. -/
def takeCut (s : State) (ns : Nat) : State :=
  match s.hrv.run with
  | none => s
  | some r =>
    if s.ldg.closed then s else
    let set := harvestSet s
    let run := { r with
      phase := 1, plan := planOrder s set, snapshot := set, powerCycle := s.dev.powerCycles, opSeconds := opSecs s,
      epoch := if s.exl.paired then s.exl.epoch else 0, cutNs := ns, next := 0, summary := s.drp.summary,
      cutSeq := (List.range 64).map (fun i => BitVec.ofNat 64 (tgetD s.ldg.seqs i 0)) }
    let fetches := (s.hrv.fetches.map (fun f => { f with waiters := f.waiters.filter (fun w => !w.read) })).filter
      (fun f => !f.waiters.isEmpty || s.exl.subs.any (fun p => p.2.waiting.any (fun r => r.line / 256 == f.gran)))
    let s := sendHarvest s r.cause
    let s := { s with
      ldg := { s.ldg with closed := true },
      hrv := { s.hrv with run := some run, phase := 1, cutNs := ns, linkDownNs := ns, downBy := s.now + (40000 - ns) / 1000,
                          replant := false, warm := false, fetches := startWaiting fetches, save := none, cuts := [] },
      drp := { s.drp with held := [], hints := [], offDrain := false },
      ftl := { s.ftl with progs := [] },
      cxl := { s.cxl with ports := s.cxl.ports.map (fun p => (p.1, { p.2 with gpf := false, gpfSet := [] })) },
      tin := { s.tin with
        beds := s.tin.beds.map (fun p => (p.1, { p.2 with urgent := [], main := [] })), tines := [], heldC := [] },
      exl := { s.exl with compares := [], crcCuts := [], resyncOn := false, flushes := [] },
      ddrs := { s.ddrs with ch := s.ddrs.ch.map (fun p => (p.1, { p.2 with retraining := false, probed := [], scrubCut := none })) } }
    nextStage s [2]

/-- After a cut the links still up go down (R168); when within 40 µs of detection the last does is a free value (log
entry 116). -/
def linksEnd (s : State) : State :=
  if s.ldg.closed && anyLink s then
    linksDown (drew { s with hrv := { s.hrv with linkDownNs := max s.hrv.cutNs (min 40000 (drawn s)) } })
  else s

/-- Enters HARVESTING and takes the cut, for a cause the cold-frame die accepts itself (R165). -/
def startHarvest (s : State) (c : Cause) (keep : List Nat) : State := takeCut (enterHarvesting s c keep) 0

end Sys2Proof.Machine
end

