-- ==== Sys2Proof/Machine/Frames.lean ====
section
/-! DEFINITION. The frames of the die-to-die link: their CRC, their sending, the event frames of a fault change (R15, R16,
R373, 01_architecture.md, 14_faults_and_events.md). -/

namespace Sys2Proof.Machine

open Sys2Proof

/-- A direction: true toward the cold-frame die. -/
def d2dSide (s : State) (cold : Bool) : D2dSide := if cold then s.d2d.toCold else s.d2d.toLogic

/-- Sets a direction. -/
def setSide (s : State) (cold : Bool) (x : D2dSide) : State :=
  if cold then { s with d2d := { s.d2d with toCold := x } } else { s with d2d := { s.d2d with toLogic := x } }

/-- Bits [31:8] of a frame, as three bytes, most significant first (Table 1.2). -/
def frameBytes (f : D2dFrame) : List Byte := be (fld f.typ 20 4 + fld f.seq 16 4 + f.payload.toNat) 3

/-- CRC-8 of a frame: polynomial 0x07, initial value 0x00, no inversion, over bits [31:8] (R15). -/
def frameCrc (f : D2dFrame) : Nat := crcF 8 0x07 0 0 (frameBytes f)

/-- A frame with its CRC field filled in (R15). -/
def framed (f : D2dFrame) : D2dFrame := { f with crc := BitVec.ofNat 8 (frameCrc f) }

/-- The frame a 32-bit word on the lane spells (Table 1.2). -/
def frameOf (w : Word) : D2dFrame :=
  { typ := bits w.toNat 28 4, seq := bits w.toNat 24 4, payload := BitVec.ofNat 16 (bits w.toNat 8 16),
    crc := BitVec.ofNat 8 w.toNat }

/-- A receiver takes a frame whose CRC agrees and whose SEQ is the one it expects (R15). -/
def frameOk (x : D2dSide) (f : D2dFrame) : Bool := f.crc.toNat == frameCrc f && f.seq == x.expect

/-- Sends a frame now: it takes the next SEQ and its CRC, and stays until acknowledged (R15). -/
def sendNow (s : State) (cold : Bool) (f : D2dFrame) : State :=
  let x := d2dSide s cold
  let f := framed { f with seq := x.nextSeq }
  emit (setSide s cold { x with nextSeq := (x.nextSeq + 1) % 16, unacked := x.unacked ++ [f],
                                ackAt := if x.unacked.isEmpty then s.now else x.ackAt }) (.frame cold f)

/-- Sends a frame, or holds it while 15 are unacknowledged or a retrain runs (R15, R16). -/
def sendFrame (s : State) (cold : Bool) (typ payload : Nat) : State :=
  let f : D2dFrame := { typ := typ, payload := BitVec.ofNat 16 payload }
  let x := d2dSide s cold
  if !s.d2d.up then s
  else if s.d2d.retraining || 15 ≤ x.unacked.length || !x.held.isEmpty then setSide s cold { x with held := x.held ++ [f] }
  else sendNow s cold f

/-! ### Event frames (R173, R373) -/

/-- Payload of an event frame: 0 a fault change or a notice, 1 to 3 a part of the sealed boundary (log entry 6). -/
def eventPart (tag v : Nat) : Nat := tag * 16384 + v % 16384

/-- A source of the logic die, whose changes its front end forwards (R373; log entry 123). -/
def logicSource (n : Nat) : Bool := (n != 0x002 && decide (n < 0x180)) || n == 0x1C8 || n == 0x1CC

/-- The front end on the logic die forwards a change of a source in an event frame (R373). -/
def forward (s : State) (n : Nat) (holds : Bool) : State :=
  if logicSource n then sendFrame s true 5 (eventPart 0 (fld (b2n holds) 9 1 + n % 512)) else s

/-- A notice on its pair `k`; a pair whose path is broken travels as an event frame for the rest of the run (R17, R374).
`cold` is the direction toward the cold-frame die. -/
def notice (s : State) (k : Nat) (cold : Bool) : State :=
  if s.flt.brokenWires.contains k then sendFrame s cold 5 (eventPart 0 (1024 + k)) else emit s (.wire k)

end Sys2Proof.Machine
end

