-- ==== Sys2Proof/Machine/Faults.lean ====
section
/-! DEFINITION. The fault collector: capturing, merging, history, snapshot, reaction (R373–R381). -/

namespace Sys2Proof.Machine

open Sys2Proof

/-- A source's state. -/
def source (s : State) (n : Nat) : Source := tgetD s.flt.src n {}

/-- Sets a source's state. -/
def setSource (s : State) (n : Nat) (x : Source) : State := { s with flt := { s.flt with src := tset s.flt.src n x } }

/-- The condition of a source ends; a source of the logic die forwards the change (R373). -/
def clearLive (s : State) (n : Nat) : State :=
  if (source s n).live then forward (setSource s n { source s n with live := false }) n false else s

/-- Rank of a source's reaction: C, U, F with harvest, F with stop (R379). -/
def reactRank (n : Nat) : Nat :=
  match srcKind n with | some 0 => 0 | some 1 => 1 | some 3 => 2 | some 2 => 3 | _ => 0

/-- A history entry for a source, captured now (Table 14.4). -/
def histEntry (s : State) (n detail : Nat) (injected : Bool) : HistEnt :=
  { source := n, cls := (kindBits ((srcKind n).getD 0)) % 4, injected := injected, polled := (source s n).polled,
    state := s.dev.state.code, nested := 0, detail := detail % 2 ^ 32, time := timeStamp s }

/-- Puts an entry into the ring of 32 (R380). -/
def pushHist (s : State) (h : HistEnt) : State := { s with flt := { s.flt with ring := (h :: s.flt.ring).take 32 } }

/-- The snapshot, taken at the first U or F error since it was released, and its three HISTORY records (R380). -/
def takeSnapshot (s : State) (n : Nat) : State :=
  if s.flt.snapshot.isSome || reactRank n = 0 then s
  else logHistory { s with flt := { s.flt with snapshot := some s.flt.ring } } n s.flt.ring

/-- Whether an error captured now, whose reaction has rank `k`, merges into the error being handled (R379). -/
def merges (s : State) (n k : Nat) : Bool :=
  match s.flt.window with
  | some (r, till) => decide (s.now < till) && (decide (k ≤ r) || n == 0x1F1 || n == 0x1F2)
  | none => false

/-- Opens the handling window of an error whose reaction has rank `k`: at most 100 µs for C and U, until LATCHED for F
(R379). -/
def openWindow (s : State) (k : Nat) : State :=
  let till := if k ≤ 1 then s.now + clamp 0 100 (Config.handlingUs s.draws) else s.now + 2 ^ 64
  drew { s with flt := { s.flt with window := some (k, till) } }

/-- Latches a Fatal and acts on it at its capture (R376, Table 1.6). `c` is the cause code the transition takes. -/
def fatalReact (s : State) (n : Nat) (c : Cause) : State :=
  let stop := srcKind n == some 2
  let s := { s with flt := { s.flt with
    latched := some (s.flt.latched.getD n),
    latchedStop := (if s.flt.latched.isSome then s.flt.latchedStop else false) || stop } }
  let s := notice (funcsToHw (stopAlive s) 4) 2 (logicSource n)
  let k := if stop then 1 else 2
  if outranked s k then s
  else
  let s := noteWon s k
  match s.dev.state with
  | .off | .shelf | .latched => s
  | .replanting | .serving | .degraded => if stop then enterLatched s c else startHarvest s c []
  | .harvesting => if stop then enterLatched s c else harvestCause s c
  | _ => enterLatched s c

/-- A detection of a checker, captured by the collector: source bits, merging or history, record, reaction. -/
def raiseAs (s : State) (n detail : Nat) (live : Bool) (c : Cause) : State :=
  if s.dev.state == .off || (srcKind n).isNone then s
  else
    let x := source s n
    let s := forward (setSource s n { x with live := live, sticky := true, count := min 0xFFFFFFFF (x.count + 1) }) n true
    if merges s n (reactRank n) then
      binEvent { s with flt := { s.flt with ring := match s.flt.ring with
        | h :: r => { h with nested := min 255 (h.nested + 1) } :: r
        | [] => [] } } n detail 0
    else
      let s := openWindow (pushHist s (histEntry s n detail false)) (reactRank n)
      let s := logEvent (takeSnapshot s n) n detail 0
      if 2 ≤ reactRank n then fatalReact s n c else s

/-- A fault whose condition does not persist. -/
def raise (s : State) (n detail : Nat) : State := raiseAs s n detail false .fatal

/-- A fault whose condition persists until `clearLive`. -/
def raiseLive (s : State) (n detail : Nat) : State := raiseAs s n detail true .fatal

/-- A fault whose detail the manual does not state: the detail is a free value (log entry 38). -/
def raiseOpen (s : State) (n : Nat) : State := raise (drew s) n (drawn s % 2 ^ 32)

/-- A shadow-mode detection (R381): history entry, bin and record with INJECTED, and nothing else; merged detections
take no entry of their own. Its reaction ranks as that of a Corrected fault (R379; log entry 123). -/
def captureInjected (s : State) (n detail : Nat) : State :=
  if s.dev.state == .off then s
  else if merges s n 0 then
    binEvent { s with flt := { s.flt with ring := match s.flt.ring with
      | h :: r => { h with nested := min 255 (h.nested + 1) } :: r
      | [] => [] } } n detail 4
  else logEvent (openWindow (pushHist s (histEntry s n detail true)) 0) n detail 4

/-! ### Common sources -/

/-- A register access the collector records (R6, R474, R475). -/
def regFault (s : State) (a : Nat) : State := raise s 0x003 a

/-- A request a port could not serve: its reason in CXLn_DROP and the Corrected fault CXL_DROP (R82). -/
def cxlDrop (s : State) (port reason : Nat) : State :=
  let a := regAt rCxlDrop port
  let full := cfg s a 0 23 == 0x7FFFFF
  let s := setFld (bump s a 0 23 1) a 24 8 reason
  let s := if full then setFld s a 23 1 1 else s
  raise s (0x020 + 2 * port) reason

end Sys2Proof.Machine
end

