-- ==== Sys2Proof/Machine/Trellis.lean ====
section
/-! DEFINITION. Trellis packets, replies, the checks of R40, admission, ordering and the delivery of replies
(chapter 2). -/

namespace Sys2Proof.Machine

open Sys2Proof

/-! ### Packets and replies (Tables 2.1 and 2.3) -/

/-- Byte `i` of the packet, for `i` from 24 to 63. -/
def pByte (c : TrellisCmd) (i : Nat) : Nat := (c.params.getD (i - 24) 0#8).toNat

/-- Little-endian number of `len` packet bytes at `i`, for `i` from 24. -/
def pNum (c : TrellisCmd) (i len : Nat) : Nat := rd c.params (i - 24) len

/-- Issuer class: 0 host, 1 fabric manager, 2 board management (Table 2.2). -/
def issClass (i : Nat) : Nat := i / 4096

/-- The 32 bytes of a reply. -/
def replyBytes (r : Reply) : List Byte :=
  le r.tag 4 ++ le r.op 2 ++ le r.status 1 ++ le r.cls 1 ++ le r.retry 4 ++ le r.detail 4 ++ padTo r.result 16

/-- A packet from its 64 bytes (Table 2.1). -/
def packetOf (car : Carrier) (est : Nat) (b : List Byte) (payload : List Byte) (ok : Bool) (t : Nat) : TrellisCmd :=
  { carrier := car, est := est, op := rd b 0 2, flags := rd b 2 1, version := rd b 3 1, tag := rd b 4 4,
    allot := rd b 8 2, issuer := rd b 10 2, payLen := rd b 12 4, payAddr := rd b 16 8, params := slice b 24 40,
    payload := payload, payOk := ok, t := t }

/-- The 64 bytes of a packet (Table 2.1). -/
def packetBytes (c : TrellisCmd) : List Byte :=
  le c.op 2 ++ le c.flags 1 ++ le c.version 1 ++ le c.tag 4 ++ le c.allot 2 ++ le c.issuer 2 ++ le c.payLen 4 ++ le c.payAddr 8
    ++ padTo c.params 40

/-- Flag bits (Table 2.1). -/
def isAsync (c : TrellisCmd) : Bool := match c.carrier with | .qp _ => bit c.flags 0 | _ => false

/-- ORDERED, ignored on the mailbox (R47). -/
def isOrdered (c : TrellisCmd) : Bool := match c.carrier with | .mailbox _ _ => false | _ => bit c.flags 1

/-! ### Opcodes (Table 2.6) -/

/-- Servers (R49): hardware, hardware or cold-frame, pair A, pair B, cold-frame microcontroller. -/
inductive Server where
  | hw | hwcf | ma | mb | cf
  deriving DecidableEq, Repr

/-- A row of Table 2.6: server, payload (0 none, 1 in, 2 out, 3 in/out), issuers (bit 0 H, 1 F, 2 B, 3 O, 4 A). -/
structure OpRow where
  op : Nat
  server : Server
  pay : Nat
  iss : Nat
  deriving DecidableEq, Repr

/-- Table 2.6. -/
def opTable : List OpRow := [
  ⟨0x0001, .hwcf, 0, 7⟩, ⟨0x0002, .hwcf, 0, 7⟩, ⟨0x0010, .hwcf, 0, 7⟩,
  ⟨0x0011, .hwcf, 0, 14⟩, ⟨0x0012, .hwcf, 3, 7⟩,
  ⟨0x0100, .ma, 1, 6⟩, ⟨0x0101, .ma, 1, 6⟩, ⟨0x0102, .ma, 0, 6⟩, ⟨0x0103, .ma, 1, 6⟩,
  ⟨0x0104, .ma, 2, 7⟩,
  ⟨0x0200, .hw, 0, 7⟩, ⟨0x0201, .ma, 1, 14⟩, ⟨0x0202, .ma, 0, 7⟩, ⟨0x0203, .ma, 1, 6⟩,
  ⟨0x0204, .ma, 0, 6⟩, ⟨0x0205, .ma, 1, 14⟩,
  ⟨0x0300, .ma, 1, 6⟩, ⟨0x0301, .ma, 0, 6⟩, ⟨0x0302, .ma, 0, 14⟩, ⟨0x0303, .ma, 0, 14⟩,
  ⟨0x0304, .mb, 2, 7⟩,
  ⟨0x0400, .cf, 2, 7⟩, ⟨0x0401, .cf, 0, 7⟩, ⟨0x0402, .cf, 2, 14⟩, ⟨0x0403, .ma, 0, 6⟩,
  ⟨0x0500, .cf, 0, 6⟩, ⟨0x0501, .cf, 1, 6⟩, ⟨0x0502, .cf, 0, 14⟩,
  ⟨0x0600, .cf, 2, 7⟩, ⟨0x0601, .cf, 0, 6⟩, ⟨0x0602, .cf, 0, 6⟩,
  ⟨0x0700, .cf, 0, 7⟩, ⟨0x0701, .cf, 2, 7⟩, ⟨0x0702, .cf, 0, 6⟩,
  ⟨0x0800, .cf, 0, 6⟩, ⟨0x0801, .cf, 1, 6⟩, ⟨0x0802, .cf, 0, 6⟩, ⟨0x0803, .ma, 0, 6⟩,
  ⟨0x0804, .ma, 0, 6⟩,
  ⟨0x0900, .cf, 1, 14⟩, ⟨0x0901, .cf, 3, 6⟩, ⟨0x0902, .cf, 3, 6⟩, ⟨0x0903, .cf, 0, 6⟩,
  ⟨0x0A00, .mb, 0, 6⟩, ⟨0x0A01, .mb, 2, 7⟩,
  ⟨0x0B00, .ma, 0, 30⟩, ⟨0x0B01, .hw, 0, 7⟩, ⟨0x0C00, .cf, 2, 7⟩]

/-- The row of an opcode. -/
def opRow (op : Nat) : Option OpRow := opTable.find? (fun r => r.op == op)

/-- How a command takes its allotment ID: 0 it acts on no allotment and ignores the field, 1 it acts on the one it names,
2 it may name none (R35, R158, R159, R262, R268, R271; log entry 66). -/
def namesAllot (c : TrellisCmd) : Nat :=
  match c.op with
  | 0x0100 | 0x0101 | 0x0102 | 0x0103 | 0x0104 | 0x0202 => 1
  | 0x0200 | 0x0302 => 2
  | 0x0304 => if issClass c.est == 0 then 1 else 2
  | 0x0201 => if pByte c 24 == 1 then 1 else 0
  | 0x0303 => if pByte c 24 == 3 then 1 else 0
  | _ => 0

/-- The read-only set (R56). -/
def readOnlyOps : List Nat := [0x0001, 0x0002, 0x0010, 0x0012, 0x0600, 0x0700, 0x0701, 0x0400, 0x0401, 0x0C00]

/-- The function whose host-assisted input a register carries (R122, R131, R234, R316, R336). -/
def regFunction (a : Nat) : Option Nat :=
  let c := (regCanon a).1
  if c == rDdrLaneDelay then some 5
  else if c == rDdrScrub then some 4
  else if c == rFtlStream || c == rFtlWearHost then some 1
  else if c == rGauHostSoc then some 2
  else if c == rPsqHostStep then some 3
  else none

/-- The function an O entry of Table 2.6 concerns. -/
def opFunction (c : TrellisCmd) : Option Nat :=
  match c.op with
  | 0x0011 => regFunction (pNum c 24 4)
  | 0x0201 => some 0 | 0x0205 => some 7 | 0x0302 => some 8 | 0x0303 => some 9 | 0x0402 => some 2
  | 0x0502 => some 3 | 0x0900 => some 10
  | 0x0B00 => some (pByte c 24)
  | _ => none

/-- The command carries host-assisted input (R50, R122, R131, R159, R199, R234, R271, R316, R336, R338, R416): an owner's,
and no other host's. -/
def carriesInput (c : TrellisCmd) : Bool :=
  match c.op with
  | 0x0011 => (regFunction (pNum c 24 4)).isSome
  | 0x0201 | 0x0205 | 0x0303 => pByte c 24 == 1
  | 0x0502 => pByte c 25 == 0xD0 || pByte c 25 == 0xD1
  | 0x0900 => true
  | _ => false

/-- The issuer owns function `f`, which is in host-assisted mode (R50). -/
def owns (s : State) (issuer f : Nat) : Bool :=
  (func s f).mode && (func s f).hasOwner && (func s f).owner.toNat == issuer

/-- Whether a host is bound to an allotment. -/
def bound (s : State) (issuer id : Nat) : Bool :=
  match tget s.alt.tab id with
  | some a => a.bindings.any (fun b => b.issuer.toNat == issuer)
  | none => false

/-! ### The checks before admission (R40) -/

/-- A refusal: status, detail, retry-after. -/
abbrev Refuse := Nat × Nat × Nat

/-- Check 5: issuer, class, binding, fuse mask (R36, R49, R50, R66). -/
def checkIssuer (s : State) (c : TrellisCmd) (r : OpRow) : Option Refuse :=
  if c.issuer != c.est then some (0x05, 0x01, 0)
  else
    let k := issClass c.est
    let assistQp := match c.carrier with
      | .qp n => (tgetD s.trl.qps n {}).assist
      | _ => false
    let owner := match opFunction c with | some f => owns s c.est f | none => false
    let ok :=
      if k == 0 then bit r.iss 0 || (bit r.iss 3 && owner) || (bit r.iss 4 && assistQp)
      else if k == 1 then bit r.iss 1
      else if k == 2 then bit r.iss 2 else false
    if !ok then some (0x05, if k == 0 && carriesInput c then 0x05 else 0x02, 0)
    else if k == 0 && namesAllot c != 0 && c.allot < 0x1000 && !bound s c.est c.allot then some (0x05, 0x03, 0)
    else if c.op == 0x0B00 && pByte c 25 == 1 && pByte c 24 ≤ 10 && bit s.fus.haDeny.toNat (pByte c 24) then
      some (0x05, 0x04, 0)
    else none

/-- Registers a command names lie on the cold-frame die: what HW/CF serves while the logic die is off (R56). -/
def coldRegsOnly (c : TrellisCmd) : Bool :=
  match c.op with
  | 0x0010 | 0x0011 => !onLogic (pNum c 24 4)
  | 0x0012 => (List.range (c.payload.length / 4)).all (fun i => !onLogic (rd c.payload (4 * i) 4))
  | _ => true

/-- Whether the device state serves the command (R56, Table 2.7). -/
def servedNow (s : State) (c : TrellisCmd) (r : OpRow) : Bool :=
  match s.dev.state with
  | .replanting | .serving | .degraded => true
  | .training => (match r.server with | .ma | .mb => false | _ => true)
  | .harvesting => readOnlyOps.contains c.op
  | .shelf | .waking | .railsUp | .held | .railsDown =>
    (match r.server with | .cf => true | .hwcf => coldRegsOnly c | _ => false)
  | .latched =>
    (match c.carrier with | .mctp _ => true | _ => false)
      && ((readOnlyOps.contains c.op && coldRegsOnly c) || (c.op == 0x0011 && pNum c 24 4 == rNvmRdp && issClass c.est == 2))
  | .off => false

/-- Check 6 (R56). -/
def checkState (s : State) (c : TrellisCmd) (r : OpRow) : Option Refuse :=
  if servedNow s c r then none
  else if s.dev.state == .latched then some (0x0F, 0, 0)
  else some (0x0E, 0x02 + fld s.dev.state.code 8 8, 0)

/-- Check 7: payload length and address, allotment field (R34, R35, R46, R47, R48). -/
def checkLimits (c : TrellisCmd) (r : OpRow) : Option Refuse :=
  let lim := match c.carrier with | .qp _ => 4194304 | .mailbox _ _ => 65472 | .mctp _ => 1024
  let onQp := match c.carrier with | .qp _ => true | _ => false
  if namesAllot c != 0 && 0x1000 ≤ c.allot && c.allot != 0xFFFF then some (0x04, 0x08, 0)
  else if namesAllot c == 1 && c.allot == 0xFFFF then some (0x04, 0x08, 0)
  else if r.pay == 0 && c.payLen != 0 then some (0x04, 0x0C, 0)
  else if lim < c.payLen then some (0x04, 0x0C, 0)
  else if onQp && c.payAddr % 64 != 0 then some (0x04, 0x10, 0)
  else if !onQp && c.payAddr != 0 then some (0x04, 0x10, 0)
  else none

/-- Commands in flight on a carrier. -/
def onCarrier (s : State) (c : Carrier) : List InFlight := s.trl.flight.filter (fun f => f.cmd.carrier == c)

/-- Server of an in-flight command. -/
def serverOf (f : InFlight) : Server := ((opRow f.cmd.op).map (·.server)).getD .hw

/-- Commands that hold a place of the management processor pool. -/
def mpInUse (s : State) : Nat := (s.trl.flight.filter (fun f => serverOf f == .ma || serverOf f == .mb)).length

/-- Commands that hold a place of the cold-frame pool. -/
def cfInUse (s : State) : Nat := (s.trl.flight.filter (fun f => serverOf f == .cf)).length

/-- Admitted management processor commands of a queue pair without a class 0 reply: TRL_QP_CREDIT.IN_USE. -/
def creditInUse (s : State) (n : Nat) : Nat :=
  ((onCarrier s (.qp n)).filter (fun f => serverOf f == .ma || serverOf f == .mb)).length

/-- Memory of a carrier. -/
def carrierLog (s : State) (c : Carrier) : CarrierLog := tgetD s.trl.carriers (carrierKey c) {}

/-- Key of a residence sample: the server and the carrier. -/
def resKey (sv : Server) (c : Carrier) : Nat :=
  (match sv with | .ma => 0 | .mb => 0x100000 | _ => 0x200000) + carrierKey c

/-- The residence samples of the last 100 ms whose key satisfies `p` (R287, 09_tines_and_management.md). -/
def resSamples (s : State) (p : Nat → Bool) : List Nat :=
  (s.mpx.residence.filter (fun x => s.now ≤ x.1 + 100000 && p x.2.1)).map (·.2.2)

/-- Retry-after of R287: `n × mean residence ÷ in use`, rounded up to 10 µs and clipped; the mean is 100 µs where no
command ended. -/
def waitFor (l : List Nat) (inUse limit : Nat) : Nat :=
  let sum := match l with | [] => 100 | _ => l.foldl (· + ·) 0
  10 * clamp 1 100000 (cdiv ((inUse - limit + 1) * sum) (max 1 l.length * inUse * 10))

/-- Both management processor pairs are held down (R285). -/
def bothDown (s : State) : Bool := s.mpx.a.st == 2 && s.mpx.b.st == 2

/-- The loops of Table 9.4 run at the floor rate: load level 2 or 3, or one pair serving for both (R285, R286). -/
def floorRate (s : State) : Bool := decide (2 ≤ s.mpx.level) || s.mpx.a.st == 2 || s.mpx.b.st == 2

/-- A pair runs the loops of pair `b` (A: false): that pair, or the other while it is held down; while it boots they keep
their last outputs (R282, R285). -/
def loopsRun (s : State) (b : Bool) : Bool :=
  let x := if b then s.mpx.b else s.mpx.a
  let y := if b then s.mpx.a else s.mpx.b
  x.st == 0 || (x.st == 2 && y.st == 0)

/-- Row `k` of Table 9.4, a loop of pair `b`, is due: its period in µs since it last ran, at the normal or the floor rate. -/
def loopDue (s : State) (b : Bool) (k normal floor : Nat) : Bool :=
  loopsRun s b && (match tget s.mpx.loopAt k with
    | some u => decide (u + (if floorRate s then floor else normal) ≤ s.now)
    | none => true)

/-- Loop `k` of Table 9.4 has run now. -/
def loopRan (s : State) (k : Nat) : State := { s with mpx := { s.mpx with loopAt := tset s.mpx.loopAt k s.now } }

/-- Check 8: early resubmission, MCTP outstanding limit, predecessor refused, both pairs down, activation, credits
and pools (R48, R51–R55, R285). -/
def checkAdmit (s : State) (c : TrellisCmd) (r : OpRow) : Option Refuse :=
  let log := carrierLog s c.carrier
  match log.refused.find? (fun x => x.tag == c.tag && s.now < x.till) with
  | some x => some (0x02, 0x06, 10 * clamp 1 100000 (cdiv (x.till - s.now) 10))
  | none =>
    if (match c.carrier with | .mctp _ => decide (8 ≤ (onCarrier s c.carrier).length) | _ => false) then
      some (0x02, 0x01, retryAfter s)
    else if isOrdered c && log.lastRefused.isSome then some (0x02, 0x05, log.lastRefused.getD 0)
    else match r.server with
      | .ma | .mb =>
        if bothDown s then some (0x08, 0x01, 0)
        else if s.mpx.activating then some (0x02, 0x04, min (retryAfter s) 400000)
        else match c.carrier with
          | .qp n =>
            let u := creditInUse s n
            let lim := (tgetD s.trl.qps n {}).creditLimit
            if lim ≤ u then some (0x02, 0x01, waitFor (resSamples s (fun k => k == n || k == 0x100000 + n)) u lim)
            else if 2048 ≤ mpInUse s then some (0x02, 0x02, waitFor (resSamples s (· < 0x200000)) (mpInUse s) 2048)
            else none
          | _ =>
            if 2048 ≤ mpInUse s then some (0x02, 0x02, waitFor (resSamples s (· < 0x200000)) (mpInUse s) 2048) else none
      | .cf =>
        if 32 ≤ cfInUse s then some (0x02, 0x03, waitFor (resSamples s (0x200000 ≤ ·)) (cfInUse s) 32) else none
      | _ => none

/-- Checks 1 to 8 of R40, first failure first. -/
def checkPacket (s : State) (c : TrellisCmd) : Option Refuse :=
  if c.version != 1 then some (0x04, 0x03, 0)
  else match opRow c.op with
    | none => some (0x03, 0x00, 0)
    | some r =>
      if 8 ≤ c.flags then some (0x04, 0x02, 0)
      else if (onCarrier s c.carrier).any (fun f => f.cmd.tag == c.tag) then some (0x0E, 0x01, 0)
      else ((checkIssuer s c r).or (checkState s c r)).or ((checkLimits c r).or (checkAdmit s c r))

/-! ### Delivery (R38, R44, R57) -/

/-- Posts a reply of command `c` on its carrier: into the queue pair's owed list, or sent at once on the other carriers; over
MCTP with the command's message tag, to the address it came from (R48, R364). -/
def postReply (s : State) (c : TrellisCmd) (r : Reply) : State :=
  match c.carrier with
  | .qp n => { s with trl := { s.trl with qps := tmod s.trl.qps n {} (fun q => { q with owed := q.owed ++ [r] }) } }
  | .mailbox p i => emit s (.mbox p i 0 (replyBytes r ++ r.output))
  | .mctp e =>
    emit s (.mctp c.head.back e c.head.tag ([0x7F#8, 0x71#8, 0x4A#8, 0x03#8, 0x00#8, 0x02#8] ++ replyBytes r ++ r.output))

/-- Successors waiting for command `id` under ORDERED may start (R55). -/
def releaseAfter (s : State) (id : Nat) : State :=
  { s with trl := { s.trl with flight := s.trl.flight.map (fun f =>
      if f.after == some id then { f with after := none } else f) } }

/-- Counts the residence of a command that ends now; samples older than 100 ms go (R287). -/
def sampleResidence (s : State) (f : InFlight) : State :=
  match serverOf f with
  | .hw | .hwcf => s
  | sv => { s with mpx := { s.mpx with residence :=
      (s.now, resKey sv f.cmd.carrier, s.now - f.since) :: s.mpx.residence.filter (fun x => s.now ≤ x.1 + 100000) } }

/-- The class 0 reply of command `id` is delivered: it leaves the in-flight list (R57). -/
def delivered (s : State) (id : Nat) : State :=
  releaseAfter { s with trl := { s.trl with flight := s.trl.flight.filter (fun f => f.id != id) } } id

/-- An output payload that cannot be written on the link of a queue pair ends the command with FAILED_CONTAINED
(R46). -/
def outFail (c : TrellisCmd) (r : Reply) : Reply :=
  match c.carrier with
  | .qp _ => if c.payOk || r.output.isEmpty then r else { r with status := 0x08, detail := 0, result := [], output := [] }
  | _ => r

/-- Ends command `id` with its class 0 reply: posted on a queue pair and kept in flight until written, delivered at
once on the other carriers. -/
def finish (s : State) (id : Nat) (r : Reply) : State :=
  match s.trl.flight.find? (fun f => f.id == id) with
  | none => s
  | some f =>
    let r := outFail f.cmd { r with tag := f.cmd.tag, op := f.cmd.op, cls := 0 }
    let s := sampleResidence (postReply s f.cmd r) f
    match f.cmd.carrier with
    | .qp _ => { s with trl := { s.trl with flight := s.trl.flight.map (fun g =>
        if g.id == id then { g with phase := 2, job := .none, reply := some r } else g) } }
    | .mailbox _ _ =>
      delivered { s with cxl := { s.cxl with mboxes := s.cxl.mboxes.map (fun b =>
        if b.2.busy == some id then (b.1, { b.2 with busy := none }) else b) } } id
    | .mctp _ => delivered s id

/-- Ends command `id` with its class 0 reply sent on its carrier as part of a state entry (R58, R337). -/
def finishNow (s : State) (id : Nat) (r : Reply) : State :=
  match s.trl.flight.find? (fun f => f.id == id) with
  | none => s
  | some f => delivered (emit (sampleResidence s f) (.reply f.cmd.carrier { r with tag := f.cmd.tag, op := f.cmd.op, cls := 0 })) id

/-- Ends a command with a status and detail and no result. -/
def endWith (s : State) (id status detail : Nat) : State := finish s id { status := status, detail := detail }

/-- Ends a command with OK and a result. -/
def endOk (s : State) (id : Nat) (result : List Byte) : State := finish s id { result := result }

/-- Ends a command with OK, a result and an output payload. -/
def endOut (s : State) (id : Nat) (result output : List Byte) : State := finish s id { result := result, output := output }

/-- BAD_PARAM at packet byte `off` (0x40 for the payload). -/
def badParam (s : State) (id off : Nat) : State := endWith s id 0x04 off

/-- CONFLICT with a reason. -/
def conflict (s : State) (id reason : Nat) : State := endWith s id 0x0E reason

/-- Puts command `id` into execution, waiting for `j` (phase 0x01). -/
def setJob (s : State) (id : Nat) (j : Job) : State :=
  { s with trl := { s.trl with flight := s.trl.flight.map (fun f =>
      if f.id == id then { f with phase := 1, job := j } else f) } }

/-- In-flight commands whose job satisfies `p`. -/
def jobs (s : State) (p : Job → Bool) : List InFlight := s.trl.flight.filter (fun f => f.phase == 1 && p f.job)

/-- The in-flight entry of a command. -/
def inflight (s : State) (id : Nat) : Option InFlight := s.trl.flight.find? (fun f => f.id == id)

/-- The job of a command, if it executes. -/
def jobOf (s : State) (id : Nat) : Job := match inflight s id with | some f => f.job | none => .none

/-! ### Submission -/

/-- A refused command: its reply, and for BUSY_RETRY its place among the carrier's last 64 refusals (R53, R55). A command
ordered behind it waits for that reply to be written. -/
def refuse (s : State) (c : TrellisCmd) (x : Refuse) : State :=
  let r : Reply := { tag := c.tag, op := c.op, status := x.1, cls := 0, retry := x.2.2, detail := x.2.1 }
  let s := postReply s c r
  let k := carrierKey c.carrier
  let busy := x.1 == 0x02
  let rec1 : RefusalRec := { tag := c.tag, till := s.now + x.2.2 }
  drew { s with trl := { s.trl with carriers := tmod s.trl.carriers k {} (fun g =>
    { g with lastId := none, lastRefused := if busy then some x.2.2 else none, lastReply := if busy then none else some r,
             refused := if busy && x.2.1 != 0x06 then (rec1 :: g.refused.filter (fun y => y.tag != c.tag)).take 64 else g.refused }) } }

/-- Key of the mailbox a packet comes through: its host's identity, or 0x1000 + port for the fabric-manager-owned logical
device. -/
def mboxKey (c : TrellisCmd) : Nat :=
  match c.carrier with
  | .mailbox _ i => i
  | _ => c.est

/-- Admits a command: an in-flight entry, the class 1 reply of ASYNC, ORDERED's predecessor if it is not yet
delivered; a mailbox is held until the reply (R38, R47, R55, R57). -/
def admitCmd (s : State) (c : TrellisCmd) : State × InFlight :=
  let k := carrierKey c.carrier
  let pred := if isOrdered c then (carrierLog s c.carrier).lastId else none
  let after := match pred with
    | some p => if (inflight s p).isSome then some p else none
    | none => none
  let f : InFlight := { id := s.trl.nextId, cmd := c, phase := 0, since := s.now, after := after,
                        behind := if isOrdered c then (carrierLog s c.carrier).lastReply else none }
  let s := if isAsync c then postReply s c { tag := c.tag, op := c.op, status := 0x01, cls := 1 } else s
  let s := match c.carrier with
    | .mailbox _ _ => { s with cxl := { s.cxl with mboxes := tmod s.cxl.mboxes (mboxKey c) {} (fun m => { m with busy := some f.id }) } }
    | _ => s
  ({ s with trl := { s.trl with
      nextId := s.trl.nextId + 1, flight := s.trl.flight ++ [f],
      carriers := tmod s.trl.carriers k {} (fun g =>
        { g with lastId := some f.id, lastRefused := none, lastReply := none, refused := g.refused.filter (fun y => y.tag != c.tag) }) } }, f)

/-- Parameter bytes each opcode defines, from its home chapter: (first byte, length) (R35). -/
def definedBytes (op : Nat) : List (Nat × Nat) :=
  match op with
  | 0x0001 => [(24, 16)] | 0x0010 => [(24, 5)] | 0x0011 => [(24, 12)] | 0x0012 => [(28, 2)]
  | 0x0100 => [(24, 2), (28, 8)] | 0x0101 => [(28, 8)] | 0x0102 => [(24, 1)] | 0x0103 => [(24, 1), (28, 4)]
  | 0x0104 => [(24, 8)] | 0x0600 => [(24, 5)] | 0x0601 => [(24, 3)] | 0x0602 => [(24, 5)]
  | 0x0700 => [(24, 4), (32, 8)] | 0x0701 => [(24, 1)] | 0x0800 => [(24, 2)] | 0x0801 => [(24, 4)]
  | 0x0802 => [(24, 8)] | 0x0803 => [(24, 1), (32, 8)] | 0x0900 => [(24, 1)] | 0x0901 => [(24, 1), (28, 4)]
  | 0x0902 => [(24, 1), (28, 12)] | 0x0903 => [(24, 2), (40, 16)] | 0x0A00 => [(24, 2), (28, 8)]
  | 0x0A01 => [(24, 2), (28, 4)] | 0x0500 => [(24, 2), (28, 4)] | 0x0502 => [(24, 3)]
  | 0x0B00 => [(24, 3), (28, 4)] | 0x0B01 => [(24, 1)] | 0x0C00 => [(24, 1), (28, 8)]
  | 0x0402 => [(24, 4)] | 0x0403 => [(24, 1)]
  | 0x0201 => [(24, 1)] | 0x0202 => [(24, 17), (44, 4)] | 0x0203 => [(24, 1)] | 0x0205 => [(24, 1)]
  | 0x0300 => [(24, 9), (36, 4)] | 0x0301 => [(24, 1)] | 0x0302 => [(24, 2), (32, 8)] | 0x0303 => [(24, 1), (28, 4)]
  | 0x0304 => [(24, 6), (32, 8)]
  | _ => []

/-- The first non-zero parameter byte that the opcode leaves undefined (R35). -/
def undefinedByte (c : TrellisCmd) : Option Nat :=
  let d := definedBytes c.op
  (List.range 40).findSome? (fun i =>
    if c.params.getD i 0#8 != 0#8 && !(d.any (fun r => r.1 ≤ i + 24 && i + 24 < r.1 + r.2)) then some (i + 24) else none)

/-- The byte offset at which the opcode's own checks refuse a command as BAD_PARAM, found by running its effect on a
state that is thrown away. -/
def trialFail (eff : InFlight → State → State) (f : InFlight) (s : State) : Option Nat :=
  let s' := { s with trl := { s.trl with flight := s.trl.flight.map (fun g =>
    if g.id == f.id then { g with cmd := { g.cmd with carrier := .qp 0 } } else g) } }
  match inflight (eff f s') f.id with
  | some { reply := some r, .. } => if r.status == 0x04 then some r.detail else none
  | _ => none

/-- An input payload that cannot be read on the link of its queue pair (R46). -/
def payloadLost (c : TrellisCmd) : Bool :=
  (match opRow c.op with | some r => r.pay == 1 || r.pay == 3 | none => false)
    && (match c.carrier with | .qp _ => true | _ => false) && c.payLen != 0 && !c.payOk

/-- The checks every admitted command meets when it starts, then its effect `eff`: an input payload that cannot be
read on the link (R46), an undefined parameter byte (R35). -/
def begin (eff : InFlight → State → State) (f : InFlight) (s : State) : State :=
  if payloadLost f.cmd then endWith s f.id 0x08 0
  else match undefinedByte f.cmd with
    | some i => badParam s f.id (min i ((trialFail eff f s).getD i))
    | none => eff f s

/-- The management processor pair that serves a command runs; a pair held down is covered by the other (R285). -/
def pairRuns (s : State) (sv : Server) : Bool :=
  match sv with
  | .ma => s.mpx.a.st == 0 || (s.mpx.a.st == 2 && s.mpx.b.st == 0)
  | .mb => s.mpx.b.st == 0 || (s.mpx.b.st == 2 && s.mpx.a.st == 0)
  | _ => true

/-- The reply of a refused predecessor still waits to be written to the completion ring (R55). -/
def stillOwed (s : State) (f : InFlight) : Bool :=
  match f.behind, f.cmd.carrier with
  | some r, .qp n => (tgetD s.trl.qps n {}).owed.contains r
  | _, _ => false

/-- Whether an in-flight command may start now (R55, R285). -/
def ready (s : State) (f : InFlight) : Bool :=
  f.phase == 0 && f.after.isNone && !stillOwed s f && pairRuns s (serverOf f)

/-- Completion slots reserved on a queue pair: one for each command in flight whose reply is not yet posted, and the
replies posted and not written (R43). -/
def reserved (s : State) (n : Nat) : Nat :=
  ((onCarrier s (.qp n)).filter (fun f => f.phase != 2)).length + (tgetD s.trl.qps n {}).owed.length

/-- Free slots of a completion ring, of which one always stays empty (R42). -/
def cqFree (q : QP) : Nat := q.cqM1 - (q.cqTail + (q.cqM1 + 1) - q.cqHead) % (q.cqM1 + 1)

/-- HW and HW/CF commands that execute or wait to (R51). -/
def hwRunning (s : State) : Nat :=
  (s.trl.flight.filter (fun f => f.phase != 2 && (serverOf f == .hw || serverOf f == .hwcf))).length

/-- The in-flight list has a free entry of its 2,304 (R57). -/
def flightRoom (s : State) : Bool := decide (s.trl.flight.length < 2304)

/-- A queue pair may fetch: ACTIVE, an entry submitted, two slots free beyond those reserved (R43); fetching pauses while 224
HW and HW/CF commands execute (R51). -/
def mayFetch (s : State) (n : Nat) : Bool :=
  let q := tgetD s.trl.qps n {}
  anyLink s && q.st == .active && decide (reserved s n + 2 ≤ cqFree q) && decide (hwRunning s < 224)

/-- The mailbox of the logical device with identity `i` is there on port `n`, whose link is up: by Table 3.2, or the
fabric-manager-owned logical device (R72, R74). -/
def mailboxAt (s : State) (n i : Nat) : Bool :=
  let p := tgetD s.cxl.ports n {}
  p.link == 2 &&
    (if i == 0x1000 + n then p.mode != 0
     else decide (i < 0x1000) && (match p.mode with
      | 0 => i == 16 * n
      | 1 => i / 16 == n
      | _ => true))

/-- TWI0 answers as a target: enabled, not fenced, powered (R364, R370). -/
def mctpUp (s : State) : Bool :=
  (tgetD s.twi.ports 0 {}).st != 3 && !s.psq.collapse && cfg s (regAt rTwiCfg 0) 30 2 == 3

/-- TWI0 acknowledges target address `a`: one of the valid addresses in list mode, a match under the mask in mask mode
(R366). -/
def twiAnswers (s : State) (a : Nat) : Bool :=
  if cfg s (regAt rTwiCfg 0) 28 1 == 0 then
    (List.range 4).any (fun k => cfg s rTwi0Target (8 * k + 7) 1 == 1 && cfg s rTwi0Target (8 * k) 7 == a)
  else (a ^^^ cfg s rTwi0Target 0 7) &&& (127 - cfg s rTwi0Target 8 7) == 0

/-- Whether a carrier exists and takes a packet now (R43, R47, R48, R56). A carrier holds its packet back while the in-flight
list is full (R57, log entry 102). -/
def carrierTakes (s : State) (c : Carrier) : Bool :=
  flightRoom s && (match c with
  | .qp n => decide (n < 64) && mayFetch s n
  | .mailbox p i => mailboxAt s p i
  | .mctp _ => mctpUp s)

/-- On MCTP the message was written to an address that TWI0 answers (R366). -/
def addressed (s : State) (c : TrellisCmd) : Bool :=
  match c.carrier with
  | .mctp _ => twiAnswers s c.head.addr
  | _ => true

/-- The issuer a carrier establishes (R36); the fabric-manager-owned logical device of any port has IDENT 0 (Table 2.2). -/
def established (s : State) (c : TrellisCmd) : Nat :=
  match c.carrier with
  | .qp n => (tgetD s.trl.qps n {}).issuer.toNat
  | .mailbox _ i => if issClass i == 1 then 0x1000 else i
  | .mctp e => 0x2000 + e % 256

/-- The mailbox a packet comes through still holds a command (R47). -/
def mailboxBusy (s : State) (c : TrellisCmd) : Bool :=
  match c.carrier with
  | .mailbox _ _ => (tgetD s.cxl.mboxes (mboxKey c) {}).busy.isSome
  | _ => false

/-- A packet with the opcode its row names and the issuer its carrier establishes. -/
def packetAs (op : Nat) (c : TrellisCmd) (s : State) : TrellisCmd := { c with op := op, est := established s c }

/-- A packet of opcode `op` submitted on its carrier: refused, or admitted, and started at once where it can be. In
OFF the Skeuf answers nothing (R56). -/
def submit (eff : InFlight → State → State) (op : Nat) (c : TrellisCmd) (s : State) : State :=
  let s := tick s c.t
  let c := packetAs op c s
  if s.dev.state == .off || !carrierTakes s c.carrier || !addressed s c || mailboxBusy s c then s
  else match checkPacket s c with
    | some x => refuse s c x
    | none =>
      let (s, f) := admitCmd s c
      if ready s f then begin eff f s else s

/-- The payload as read: `payLen` bytes. DESIGN CHOICE (log entry 103): over MCTP, whose packet alone names its payload's length,
a message that carries fewer or more bytes than that is padded with zeros or cut to it. -/
def payIn (c : TrellisCmd) : List Byte := padTo c.payload c.payLen

end Sys2Proof.Machine
end

