-- ==== Sys2Proof/Machine/Functions.lean ====
section
/-! DEFINITION. Function modes: FUNC_MODE_SET, FUNC_MODE_QUERY, quiescent points, the load meter and the fall and
return of AUTO functions (chapters 2 and 9). -/

namespace Sys2Proof.Machine

open Sys2Proof

/-- The function state byte (R68). -/
def stateByte (s : State) (f : Nat) : Nat :=
  let x := func s f
  b2n x.mode + fld (b2n x.pend.isSome) 1 1 + fld (b2n x.auto) 2 1 + fld (b2n (!bit s.fus.haDeny.toNat f)) 3 1
    + fld x.reason 4 3

/-- The fuse permission mask: bit n for function code n (R68). -/
def permMask (s : State) : Nat := maskOf ((List.range 11).filter (fun f => !bit s.fus.haDeny.toNat f))

/-- A validated host-assisted input of function `f`: the watchdog restarts (R50, R289). -/
def assistInput (s : State) (f : Nat) : State :=
  setFunc s f { func s f with wdAt := s.now, goodTable := true }

/-- Function `f` after the switch `p` takes effect (R67, R288, R289). -/
def switched (s : State) (x : Func) (p : SwitchReq) : Func :=
  if p.fall then { x with mode := false, pend := none, reason := 2, fell := true, goodTable := false }
  else { x with
    mode := p.assist, pend := none, auto := p.auto, reason := p.reason, watchdog := if p.assist then p.watchdog else x.watchdog,
    owner := if p.assist then BitVec.ofNat 16 p.issuer else 0#16, hasOwner := p.assist, fell := false,
    goodTable := false, wdAt := s.now }

/-- A pending switch of `f` takes effect; its command ends with both state bytes and the wait (Table 2.9). STATE_BEFORE is
the state without the wait for the switch itself (log entry 64). -/
def applySwitch (s : State) (f : Nat) : State :=
  match (func s f).pend with
  | none => s
  | some p =>
    let before := stateByte (setFunc s f { func s f with pend := none }) f
    let s' := setFunc s f (switched s (func s f) p)
    match p.cmd with
    | none => s'
    | some id => endOk s' id (le (stateByte s' f) 1 ++ le before 1 ++ zeros 2 ++ le (s.now - p.since) 4)

/-- A failover is in progress: an agreed hand-over, or completions withheld since link loss (Table 2.10). -/
def failoverRuns (s : State) : Bool := !s.exl.handovers.isEmpty || s.exl.withholding

/-- The quiescent points of Table 2.10 that the state itself shows; the others come with the event. -/
def quiescent (s : State) (f : Nat) : Bool :=
  match f with
  | 3 => s.psq.phase == 0 && s.psq.sw.isNone
  | 8 => !failoverRuns s
  | _ => true

/-- FUNC_MODE_SET (R66, R67, Table 2.9). DEDUCED (log entry 107): a switch by fabric manager or board management succeeds
whoever owns the function, and is still refused with CONFLICT 0x03 while a switch of it is pending. -/
def cmdFuncModeSet (e : InFlight) (s : State) : State :=
  let c := e.cmd
  let f := pByte c 24
  let mode := pByte c 25
  let pol := pByte c 26
  let wd := pNum c 28 4
  let x := func s f
  let mine := x.hasOwner && x.owner.toNat == c.est
  let boss := issClass c.est == 1 || issClass c.est == 2
  let want := mode == 1
  let repeated := fun (s' : State) => le (stateByte s' f) 1 ++ le (stateByte s f) 1
  let other := x.hasOwner && !mine
  if 10 < f then badParam s e.id 24
  else if 1 < mode then badParam s e.id 25
  else if 1 < pol then badParam s e.id 26
  else if want && (wd < 10 || 60000 < wd) then badParam s e.id 28
  else if other && !(mode == 0 && boss) then conflict s e.id 0x04
  else if x.pend.isSome then conflict s e.id 0x03
  else if want && x.fell && mine then
    let y := { x with auto := pol == 1, watchdog := wd,
                      pend := if pol == 1 then none
                              else some { assist := true, auto := false, watchdog := wd, issuer := c.est } }
    let s' := setFunc s f y
    endOk s' e.id (repeated s')
  else if want == x.mode && !x.fell then
    let s' := if mine then setFunc s f { x with auto := pol == 1, watchdog := wd, wdAt := s.now } else s
    endOk s' e.id (repeated s')
  else
    let p : SwitchReq := { assist := want, auto := pol == 1, watchdog := wd, issuer := c.est, cmd := some e.id,
                           since := e.since, reason := if other then 5 else 1 }
    let s := setJob (setFunc s f { x with pend := some p }) e.id (.switch f)
    if f == 7 && !s.hrv.replant then applySwitch s f else s

/-- FUNC_MODE_QUERY (R68). -/
def cmdFuncModeQuery (e : InFlight) (s : State) : State :=
  let f := pByte e.cmd 24
  if f == 0xFF then
    endOk s e.id ((List.range 11).map (fun k => BitVec.ofNat 8 (stateByte s k)) ++ zeros 1 ++ le (permMask s) 2)
  else if 10 < f then badParam s e.id 24
  else
    let x := func s f
    endOk s e.id (le (stateByte s f) 1 ++ zeros 1 ++ le (if x.hasOwner then x.owner.toNat else 0) 2 ++ le x.watchdog 4)

/-- FUNC_MODE_SET as a packet. -/
def execFuncModeSet (c : TrellisCmd) (s : State) : Host.Outcome State Fault Refusal :=
  .next (submit cmdFuncModeSet 0x0B00 c s)

/-- FUNC_MODE_QUERY as a packet. -/
def execFuncModeQuery (c : TrellisCmd) (s : State) : Host.Outcome State Fault Refusal :=
  .next (submit cmdFuncModeQuery 0x0B01 c s)

/-- QUIESCENT_POINT_SWITCH (R67, R288): function `f` reaches its quiescent point. -/
def execQuiescentPointSwitch (f t : Nat) (s : State) : Host.Outcome State Fault Refusal :=
  let s := tick s t
  .next (if quiescent s f then applySwitch s f else s)

/-- FUNC_SWITCH_TIMEOUT (R67): 5 s after admission the command ends with TIMEOUT and the mode is unchanged. -/
def execFuncSwitchTimeout (f t : Nat) (s : State) : Host.Outcome State Fault Refusal :=
  let s := tick s t
  let x := func s f
  .next (match x.pend with
    | some { cmd := some id, since := u, .. } =>
      if u + 5000000 ≤ s.now then endWith (setFunc s f { x with pend := none }) id 0x0D 0 else s
    | _ => s)

/-! ### The load meter (R286, R52) -/

/-- TRL_QP_CREDIT.LIMIT of a queue pair with `max` at a load level (Table 9.3). -/
def limitAt (level max : Nat) : Nat :=
  let m := Nat.max 1 max
  match level with | 0 => m | 1 => Nat.max 1 (cdiv m 2) | 2 => Nat.max 1 (cdiv m 8) | _ => 1

/-- LIMIT follows the level on every ACTIVE queue pair (R286). -/
def setLimits (s : State) : State :=
  { s with trl := { s.trl with qps := s.trl.qps.map (fun p =>
      (p.1, if p.2.st == .active then { p.2 with creditLimit := limitAt s.mpx.level p.2.creditMax } else p.2)) } }

/-- The load: the higher busy fraction of the pairs that run (R286). -/
def load (s : State) : Nat :=
  max (if s.mpx.a.st == 0 then s.mpx.a.busy else 0) (if s.mpx.b.st == 0 then s.mpx.b.busy else 0)

/-- The load below which level `k` falls: its threshold minus 10 points (R286). -/
def fallMark (k : Nat) : Nat := match k with | 0 => 0 | 1 => 60 | 2 => 75 | _ => 85

/-- The level a window leads to: the highest whose entry condition holds, never lower than the present (R286). -/
def riseTo (level ld sat : Nat) : Nat :=
  max level (if 10 ≤ sat then 3 else if 85 ≤ ld then 2 else if 70 ≤ ld then 1 else 0)

/-- On entry to level 3 every host-assisted AUTO function is to fall at its next quiescent point (R288). -/
def fallAuto (s : State) : State :=
  { s with mpx := { s.mpx with funcs := s.mpx.funcs.map (fun p =>
      (p.1, if p.2.mode && p.2.auto && p.2.pend.isNone then
              { p.2 with pend := some { fall := true, auto := true, since := s.now, reason := 2 } } else p.2)) } }

/-- Enters load level `k` (R286, R288). -/
def enterLevel (s : State) (k : Nat) : State :=
  let was := s.mpx.level
  let s := setLimits { s with mpx := { s.mpx with
    level := k, calmAt := if k == 0 then s.now else s.mpx.calmAt,
    lowSince := if k != 0 && load s < fallMark k then some s.now else none } }
  if k == 3 && was != 3 then fallAuto s else s

/-- LOAD_WINDOW_END (R286): the busy fractions of a window of 10 ms, in percent. -/
def execLoadWindowEnd (busyA busyB t : Nat) (s : State) : Host.Outcome State Fault Refusal :=
  let s := tick s t
  .next (if !logicOn s || s.now < s.mpx.winAt + 10000 then s else
    let s := { s with mpx := { s.mpx with
      winAt := s.now,
      a := { s.mpx.a with busy := if s.mpx.a.st == 0 then min 100 busyA else 0 },
      b := { s.mpx.b with busy := if s.mpx.b.st == 0 then min 100 busyB else 0 } } }
    let ld := load s
    let s := setFld s rMpxLoad 0 8 (max (cfg s rMpxLoad 0 8) ld)
    let sat := if 95 ≤ ld then s.mpx.satWindows + 1 else 0
    let s := { s with mpx := { s.mpx with
      satWindows := min sat 10,
      lowSince := if s.mpx.level != 0 && ld < fallMark s.mpx.level then some (s.mpx.lowSince.getD s.now) else none } }
    let k := riseTo s.mpx.level ld sat
    if k == s.mpx.level then s else enterLevel s k)

/-- LOAD_LEVEL_FALL (R286): the load has stayed below the mark for 1 s. -/
def execLoadLevelFall (t : Nat) (s : State) : Host.Outcome State Fault Refusal :=
  let s := tick s t
  .next (match s.mpx.lowSince with
    | some u => if s.mpx.level != 0 && u + 1000000 ≤ s.now then enterLevel s (s.mpx.level - 1) else s
    | none => s)

/-- AUTO_RETURN (R288): level 0 has held for AUTO_RETURN_S seconds; fallen functions return at their quiescent
points. -/
def execAutoReturn (t : Nat) (s : State) : Host.Outcome State Fault Refusal :=
  let s := tick s t
  let w := cfg s rMpxCfg 0 16
  .next (if s.mpx.level == 0 && w != 0 && s.mpx.calmAt + w * 1000000 ≤ s.now then
    { s with mpx := { s.mpx with funcs := s.mpx.funcs.map (fun p =>
        (p.1, if p.2.fell && p.2.pend.isNone then
                { p.2 with pend := some { assist := true, auto := p.2.auto, watchdog := p.2.watchdog,
                                          issuer := p.2.owner.toNat, since := s.now, reason := 1 } } else p.2)) } }
  else s)

end Sys2Proof.Machine
end

