-- ==== Sys2Proof/Machine/Bus.lean ====
section
/-! DEFINITION. The two-wire ports and the converters (chapter 13). -/

namespace Sys2Proof.Machine

open Sys2Proof

/-! ### Two-wire ports (R363–R371) -/

/-- Ends a SLAVE_SEQ_CMD with its outcome (R338). -/
def endSlaveCmd (s : State) (id outcome : Nat) (word : Nat) : State :=
  finish s id { status := if outcome == 0 then 0 else 0x0D, result := le word 2 ++ le outcome 1 }

/-- The agent of a transaction that failed with `outcome` hears of it: a sequencer step is recorded only (R334). -/
def twiFailed (s : State) (x : TwiTx) (outcome : Nat) : State :=
  match x.cmd with
  | some id => endSlaveCmd s id outcome (tgetD s.psq.slaveStatus x.slot 0)
  | none => s

/-- Requests a transaction. On a port that is fenced or does not work it fails at once with outcome BUS_STUCK (R371). -/
def twiPost (s : State) (n : Nat) (x : TwiTx) : State :=
  if !twiUp s n then twiFailed s x 3
  else twiKick (setTwi s n { twi s n with queue := twiInsert (twi s n).queue x }) n

/-- The transaction under way ends with an outcome; the port goes on with its queue. -/
def twiOver (s : State) (n outcome : Nat) : State :=
  match (twi s n).cur with
  | none => setTwi s n { twi s n with st := if fenced s n then 3 else 0, last := outcome }
  | some x =>
    twiFailed (setTwi s n { twi s n with cur := none, st := 0, spacing := false, last := outcome }) x outcome

/-- Fences a port: BUS_STUCK with the port number, its transactions fail (R370, R371). -/
def fence (s : State) (n : Nat) : State :=
  let p := twi s n
  let s := setTwi s n { p with st := 3, cur := none, queue := [], spacing := false, last := 3, sda := false }
  let s := (p.cur.toList ++ p.queue).foldl (fun s x => twiFailed s x 3) s
  raiseLive s (0x198 + n) n

/-- The port leaves its fence; where its check found SDA low with SCL high, a bus clear freed it and is counted (R370). -/
def unfence (s : State) (n : Nat) : State :=
  let p := twi s n
  let s := setTwi (clearLive s (0x198 + n)) n { p with st := 0, sda := true, scl := true }
  twiKick (if p.scl && !p.sda then bump s (regAt rTwiErr n) 8 8 1 else s) n

/-- A write of UNFENCE runs the check of R370; `ok` says whether the bus is free after it. -/
def unfenceWrite (s : State) (n : Nat) (ok : Bool) : State :=
  if !fenced s n || s.psq.collapse then s
  else if ok then unfence s n else fence s n

/-- What a successful transaction gives its agent: a slave command reads SEQ_STATUS after itself (R338). -/
def twiDone (s : State) (n : Nat) (x : TwiTx) (data : List Byte) : State :=
  match x.cmd with
  | none => s
  | some id =>
    if x.code == 0xD2 then
      let w := rd data 0 2
      endSlaveCmd { s with psq := { s.psq with slaveStatus := tset s.psq.slaveStatus x.slot w } } id 0 w
    else twiPost s n { x with code := 0xD2, data := [], tries := 0, arbs := 0 }

/-- TWI_TRANSACTION_DONE (R368, Table 13.2). A PEC mismatch exists only where the port checks PEC. -/
def execTwiTransactionDone (n : Nat) (r : TwiEnd) (data : List Byte) (t : Nat) (s : State) :
    Host.Outcome State Fault Refusal :=
  let s := tick s t
  let p := twi s n
  .next (match p.cur with
    | none => s
    | some x =>
      if p.spacing || !twiUp s n then s else
      let again := setTwi s n { p with cur := some { x with tries := x.tries + 1 }, spacing := true, since := s.now }
      match r with
      | .ok =>
        twiKick (twiDone (setTwi s n { p with cur := none, st := 0, last := 0 }) n x data) n
      | .addrNak => if x.tries < 2 then again else twiKick (twiOver s n 1) n
      | .dataNak => twiKick (twiOver s n 1) n
      | .pec =>
        if cfg s (regAt rTwiCfg n) 29 1 == 0 then
          twiKick (twiDone (setTwi s n { p with cur := none, st := 0, last := 0 }) n x data) n
        else
          bump (if x.tries < 2 then again else twiKick (twiOver s n 5) n) (regAt rTwiErr n) 0 8 1)

/-- TWI_RETRY (Table 13.2): the 1 ms spacing has passed and the transaction starts again. -/
def execTwiRetry (n t : Nat) (s : State) : Host.Outcome State Fault Refusal :=
  let s := tick s t
  let p := twi s n
  .next (match p.cur with
    | some x =>
      if p.spacing && twiUp s n && decide (p.since + 1000 ≤ s.now) then
        emit (setTwi s n { p with spacing := false, since := s.now }) (.twi n x.addr x.code x.data)
      else s
    | none => s)

/-- ARBITRATION_LOST (R369): counted, and retried from a new start up to RETRY_MAX times. -/
def execArbitrationLost (n t : Nat) (s : State) : Host.Outcome State Fault Refusal :=
  let s := tick s t
  let p := twi s n
  .next (if !(decide (n < 4) && twiUp s n) then s else
    let s := bump s (regAt rTwiErr n) 24 8 1
    match p.cur with
    | none => s
    | some x =>
      if p.spacing then s
      else if x.arbs < cfg s (regAt rTwiCfg n) 24 4 then
        emit (setTwi s n { p with cur := some { x with arbs := x.arbs + 1 }, since := s.now }) (.twi n x.addr x.code x.data)
      else twiKick (twiOver s n 2) n)

/-- TIMEOUT_MS of a port in µs, clamped to 1 to 35 ms (R367). -/
def twiTimeout (s : State) (n : Nat) : Nat := 1000 * clamp 1 35 (cfg s (regAt rTwiCfg n) 16 8)

/-- SCL was low for TIMEOUT_MS, and for as long again when `still`, within the transaction of the port's own (R367). -/
def lowLong (s : State) (n : Nat) (still : Bool) : Bool :=
  (twi s n).cur.isNone || (!(twi s n).spacing && decide ((twi s n).since + (if still then 2 else 1) * twiTimeout s n ≤ s.now))

/-- CLOCK_LOW_TIMEOUT (R367): the transaction ends, the port resets itself; SCL still low for a further TIMEOUT_MS
is BUS_STUCK. -/
def execClockLowTimeout (n : Nat) (still : Bool) (t : Nat) (s : State) : Host.Outcome State Fault Refusal :=
  let s := tick s t
  .next (if !(decide (n < 4) && twiUp s n && lowLong s n still) then s else
    let s := twiOver (bump s (regAt rTwiErr n) 16 8 1) n 4
    if still then
      let s := fence s n
      setTwi s n { twi s n with scl := false, sda := true }
    else twiKick (setTwi s n { twi s n with scl := true }) n)

/-- BUS_CLEAR (R370): SDA found low with SCL high; `ok` says whether the bus is free after the clocks and the stop. -/
def execBusClear (n : Nat) (ok : Bool) (t : Nat) (s : State) : Host.Outcome State Fault Refusal :=
  let s := tick s t
  .next (if !(decide (n < 4) && twiUp s n) then s
    else if ok then
      twiKick (setTwi (bump s (regAt rTwiErr n) 8 8 1) n { twi s n with sda := true, scl := true }) n
    else fence s n)

/-- PMBUS_POLL (R372): regulator entry `e` of TWI2_PMB_LIST is read once per second; `words` are STATUS_WORD, VOUT, IOUT and
temperature. -/
def execPmbusPoll (e : Nat) (words : List Nat) (ok : Bool) (t : Nat) (s : State) : Host.Outcome State Fault Refusal :=
  let s := tick s t
  let due := match tget s.twi.pollAt e with | some u => decide (u + 1000000 ≤ s.now) | none => true
  .next (if due && decide (e < 4) && twiUp s 2 && cfg s (regAt rTwi2PmbList 2) (8 * e + 7) 1 == 1 then
    let s := { s with twi := { s.twi with pollAt := tset s.twi.pollAt e s.now } }
    if ok then { s with twi := { s.twi with pmbus := tset s.twi.pmbus e ((words.take 4).map (· % 65536)) } } else s
  else s)

/-! ### Converters (R357–R361) -/

/-- A converter's state. -/
def adcOf (s : State) (k : Nat) : Adc := if k == 0 then s.adc.a0 else s.adc.a1

/-- Sets a converter's state. -/
def setAdc (s : State) (k : Nat) (x : Adc) : State :=
  if k == 0 then { s with adc := { s.adc with a0 := x } } else { s with adc := { s.adc with a1 := x } }

/-- ADC_CTRL of a converter. -/
def adcCtrl (k : Nat) : Nat := if k == 0 then rAdcCtrl0 else rAdcCtrl1

/-- Some slot is judged in scan mode: programmed sequences are held (R362, Table 11.4); none with both converters failed
(R428). -/
def scanHeld (s : State) : Bool :=
  if s.adc.a0.failed && s.adc.a1.failed then false
  else match s.dev.state with
  | .waking | .railsUp | .training => true
  | .off => false
  | _ => !s.psq.scanSlots.isEmpty

/-- TRIGGER in effect: 3 is treated as 0 (R360). -/
def adcTrigger (s : State) (k : Nat) : Nat := let x := cfg s (adcCtrl k) 28 2; if x == 3 then 0 else x

/-- The stored word of a sequence entry. -/
def adcEntry (s : State) (k e : Nat) : BitVec 32 := tgetD s.adc.seq (16 * k + e) 0x0060003F#32

/-- The first entry from `e` that is not skipped (R359). -/
def adcFrom (x : Adc) (last e : Nat) : Option Nat :=
  (List.range (last + 1)).find? (fun i => e ≤ i && decide ((x.entries.getD i 0#32).toNat % 64 < 48))

/-- Begins a run: the sequence is taken as it stands (R359). The first run since the start has RUN 0 (log entry 44). -/
def adcBegin (s : State) (k : Nat) : State :=
  let x := adcOf s k
  if x.busy || x.failed || cfg s (adcCtrl k) 31 1 == 0 || s.psq.collapse then s
  else
    let x := { x with entries := (List.range 16).map (adcEntry s k), stopping := false, held := scanHeld s, since := s.now }
    match adcFrom x (cfg s (adcCtrl k) 24 4) 0 with
    | some e => setAdc s k { x with busy := true, entry := e }
    | none => setAdc s k { x with run := (x.run + 1) % 8 }

/-- A converter waits at an entry boundary: for the rail scan, or for a free place in the queue (R361, R362). -/
def adcWaits (s : State) (x : Adc) : Bool := (x.held && scanHeld s) || 64 ≤ s.adc.queue.length

/-- A write of ADC_CTRL has been stored: START under software trigger, ENABLE cleared (a converter that waits at an entry
boundary stops there at once), a continuous sequence enabled, the timer's first period begun (R360; log entry 44). -/
def adcCtrlWritten (s : State) (k v : Nat) : State :=
  let x := adcOf s k
  let timed := bit v 31 && adcTrigger s k == 1
  let x := { x with timerAt := if timed then some (x.timerAt.getD s.now) else none }
  let s := setAdc s k (if x.busy && !bit v 31 && adcWaits s x then
      { x with busy := false, stopping := false, run := (x.run + 1) % 8 }
    else { x with stopping := x.busy && !bit v 31 })
  if bit v 31 && ((bit v 23 && adcTrigger s k == 0) || adcTrigger s k == 2) then adcBegin s k else s

/-- A run ends: a continuous sequence begins again. -/
def adcRunEnd (s : State) (k : Nat) : State :=
  let x := adcOf s k
  let s := setAdc s k { x with busy := false, entry := 0, run := (x.run + 1) % 8, stopping := false }
  if adcTrigger s k == 2 then adcBegin s k else s

/-- The code of a voltage in µV at gain `g` (R358). -/
def adcCode (uv : Int) (g : Nat) : Nat := min 16383 ((uv.toNat * g * 16384 * 2 + 1200000) / 2400000)

/-- The result of the entry being converted. -/
def adcResult (x : Adc) (k : Nat) (uv : Int) : AdcRes :=
  let w := (x.entries.getD x.entry 0#32).toNat
  { ovr := decide (1200000 < uv.toNat * 2 ^ bits w 8 2), conv := k, input := bits w 0 6, entry := x.entry, run := x.run,
    gain := bits w 8 2, code := adcCode uv (2 ^ bits w 8 2) }

/-- PERIOD of a converter's timer in µs: ticks of 1/32,768 s, 0 treated as 1 (R360). -/
def adcPeriod (s : State) (k : Nat) : Nat := max 1 (cfg s (adcCtrl k) 0 20) * 1000000 / 32768

/-- Time an entry takes in µs: SAMPLE, at least 6, and 18 cycles of the 48 MHz oscillator (R359). -/
def adcTime (x : Adc) : Nat := (max 6 (bits (x.entries.getD x.entry 0#32).toNat 16 10) + 18) / 48

/-- The next entry starts now; in low-power mode 20 µs after the last one started (R359). -/
def adcNext (s : State) (k : Nat) (x : Adc) (e : Nat) : Adc :=
  { x with entry := e, held := scanHeld s, since := if cfg s (adcCtrl k) 30 1 == 1 then max s.now (x.since + 20) else s.now }

/-- ADC_TIMER_TRIGGER (R360): PERIOD ticks have passed; a run begins, or the tick is skipped and counted. -/
def execAdcTimerTrigger (k t : Nat) (s : State) : Host.Outcome State Fault Refusal :=
  let s := tick s t
  .next (if 2 ≤ k || s.dev.state == .off || s.psq.collapse || adcTrigger s k != 1 || cfg s (adcCtrl k) 31 1 == 0
      || (adcOf s k).timerAt.any (fun u => decide (s.now < u + adcPeriod s k)) then s
    else
      let s := setAdc s k { adcOf s k with timerAt := some s.now }
      if (adcOf s k).busy || scanHeld s then bump s rAdcStatus 16 8 1
      else adcBegin s k)

/-- ADC_CONVERSION_DONE (R359, R361, R362): the result enters the queue; the run goes on, stops at the boundary or ends. A
full queue, or the rail scan, holds the converter before the entry. -/
def execAdcConversionDone (k : Nat) (uv : Int) (t : Nat) (s : State) : Host.Outcome State Fault Refusal :=
  let s := tick s t
  let x := adcOf s k
  .next (if 2 ≤ k || !x.busy || s.psq.collapse || adcWaits s x || decide (s.now < x.since + adcTime x) then s
    else
      let s := { s with adc := { s.adc with queue := s.adc.queue ++ [adcResult x k uv] } }
      if x.stopping then setAdc s k { x with busy := false, stopping := false, run := (x.run + 1) % 8 }
      else match adcFrom x (cfg s (adcCtrl k) 24 4) (x.entry + 1) with
        | some e => setAdc s k (adcNext s k x e)
        | none => adcRunEnd s k)

/-- A read of ADC_QUEUE: the word returned, and the queue without its oldest entry (R361). -/
def adcPop (s : State) : State × Nat :=
  match s.adc.queue with
  | [] => (s, 0)
  | r :: q =>
    ({ s with adc := { s.adc with queue := q } },
     fld 1 31 1 + fld (b2n r.ovr) 30 1 + fld r.conv 29 1 + fld r.input 23 6 + fld r.entry 19 4 + fld r.run 16 3
       + fld r.gain 14 2 + fld r.code 0 14)

/-- Converter and two-wire registers whose value the state's own fields give; `i` is the port. -/
def viewBus (s : State) (sel : Nat → Nat) (c i : Nat) : Option Nat :=
  if c == rAdcStatus then
    some (fld (b2n (scanHeld s)) 31 1 + fld (b2n s.adc.a1.busy) 30 1
      + fld (b2n s.adc.a0.busy) 29 1 + s.adc.queue.length % 128)
  else if c == rAdcSeqEntry then some (adcEntry s (bits (sel rAdcSeqSel) 4 1) (bits (sel rAdcSeqSel) 0 4)).toNat
  else if c == rTwiStatus then
    let p := twi s i
    some (fld p.st 30 2 + fld (b2n p.sda) 29 1 + fld (b2n p.scl) 28 1 + fld p.last 24 4)
  else none

end Sys2Proof.Machine
end

