-- ==== Sys2Proof/Machine/Collector.lean ====
section
/-! DEFINITION. The fault collector's events and commands and the event recorder's commands (chapter 14). -/

namespace Sys2Proof.Machine

open Sys2Proof

/-! ### Injections (R381, R394) -/

/-- The pending injection of source `n` ends; its command ends with the detections captured. A result below CHECKS
reports the source under IST_INJECT_FAIL (R394). -/
def endInject (s : State) (n : Nat) (j : Inject) : State :=
  let s := setSource s n { source s n with inject := none }
  let s := match j.cmd with
    | some id => endOk s id (le j.detected 4)
    | none => s
  if j.detected < j.checks then
    raise (setSource s n { source s n with untrusted := true }) 0x1CB n
  else s

/-- One more inverted check of source `n` flagged, after `missed` that were not: captured in shadow mode, or with the
full reaction in live mode. -/
def injectedCheck (s : State) (n detail missed : Nat) (holds : Bool) (j : Inject) : State :=
  let j' := { j with left := j.left - 1 - missed, detected := j.detected + 1 }
  let s := setSource s n { source s n with inject := some j' }
  let s := if j.live then raiseAs s n detail holds .fatal else captureInjected s n detail
  if j'.left = 0 then
    (match (source s n).inject with | some k => endInject s n k | none => s)
  else s

/-- FAULT_REPORT (R373): the pair of source `n` shows the fault levels for 100 ns, with its detail; `holds` says
whether the condition goes on. `missed` counts injected checks that were not flagged before this one. A pair whose
path is broken is ignored (R374). -/
def execFaultReport (n detail missed : Nat) (holds : Bool) (t : Nat) (s : State) : Host.Outcome State Fault Refusal :=
  let s := tick s t
  .next (if (source s n).polled || !(sources s).contains n then s
    else match (source s n).inject with
      | some j => if j.path then raiseAs s n detail holds .fatal else injectedCheck s n detail missed holds j
      | none => raiseAs s n detail holds .fatal)

/-- BROKEN_PATH (R374): a pair shows equal levels for 1 µs. -/
def execBrokenPath (p : PairRef) (t : Nat) (s : State) : Host.Outcome State Fault Refusal :=
  let s := tick s t
  .next (match p with
    | .source n =>
      match (source s n).inject with
      | some j =>
        if j.path then
          endInject (captureInjected s 0x1F0 n) n { j with detected := 1 }
        else if (source s n).polled then s
        else raise (setSource s n { source s n with polled := true }) 0x1F0 n
      | none =>
        if (source s n).polled || !(sources s).contains n then s
        else raise (setSource s n { source s n with polled := true }) 0x1F0 n
    | .wire k =>
      if 2 < k || s.flt.brokenWires.contains k then s
      else raiseOpen { s with flt := { s.flt with brokenWires := sins s.flt.brokenWires k } } 0x001
    | .rail n =>
      if 23 < n || s.psq.scanSlots.contains n then s
      else raise { s with psq := { s.psq with scanSlots := sins s.psq.scanSlots n } } 0x1F0 0x189)

/-- POLLED_SOURCE_CHECK (R374): the status a polled checker shows at its 1 ms read. -/
def execPolledSourceCheck (n detail : Nat) (fault : Bool) (t : Nat) (s : State) : Host.Outcome State Fault Refusal :=
  let s := tick s t
  .next (if !(source s n).polled then s
    else if !fault then clearLive s n
    else if (source s n).live then s
    else raiseAs s n detail true .fatal)

/-- LOG_RATE_PERIOD (R385, R389): RATE_MIN has passed since the last record of a code, and its bin is written as a
summary record. -/
def execLogRatePeriod (code t : Nat) (s : State) : Host.Outcome State Fault Refusal :=
  let s := tick s t
  .next (if logReady s && (match tget s.log.lastRec code with | some u => decide (u + evRate s code ≤ s.now) | none => true)
    then flushBin s code else s)

/-! ### FAULT commands (R392–R394) -/

/-- FLT_SRC of a source (14.2 registers). -/
def fltSrcWord (s : State) (n : Nat) : Nat :=
  let x := source s n
  let e := reactEntry s n
  fld (b2n x.live) 31 1 + fld (b2n x.sticky) 30 1 + fld (b2n x.polled) 29 1 + fld (b2n x.inject.isSome) 28 1
    + fld e 26 2 + fld (bits e 2 1) 25 1 + fld (bits e 3 3) 22 3 + min 0xFFFF x.count

/-- Sources whose condition holds now. -/
def liveCount (s : State) : Nat := (s.flt.src.filter (fun p => p.2.live)).length

/-- First error of the snapshot. -/
def firstError (s : State) : Option Nat := s.flt.snapshot.bind (fun l => l.head?.map (·.source))

/-- FAULT_STATUS (R392). -/
def cmdFaultStatus (f : InFlight) (s : State) : State :=
  let c := f.cmd
  let first := pNum c 24 2
  let n := pNum c 26 2
  let snap := bit (pByte c 28) 0
  if 0x1FF < first then badParam s f.id 24
  else if n = 0 || 512 < n || 0x200 < first + n then badParam s f.id 26
  else if c.payLen < 8 * n + (if snap then 512 else 0) then badParam s f.id 0x40
  else
    let rows := (List.range n).flatMap (fun i =>
      le (first + i) 2 ++ le (fltSrcWord s (first + i) / 2 ^ 24) 1 ++ zeros 1 ++ le (source s (first + i)).count 4)
    let tail := match s.flt.snapshot with
      | some l => if snap then padTo (l.flatMap histBytes) 512 else []
      | none => []
    endOut s f.id
      (le (s.flt.latched.getD 0xFFFF) 2 ++ le ((firstError s).getD 0xFFFF) 2
        ++ le (s.flt.src.filter (fun p => p.2.sticky)).length 4 ++ le (liveCount s) 4
        ++ le (b2n s.flt.latched.isSome + fld (b2n s.flt.snapshot.isSome) 1 1
              + fld (b2n (s.flt.src.any (fun p => p.2.polled))) 2 1) 1)
      (rows ++ tail)

/-- Clears STICKY and COUNT of a source, unless it is the latched Fatal. -/
def clearSource (s : State) (n : Nat) : State :=
  if s.flt.latched == some n then s else setSource s n { source s n with sticky := false, count := 0 }

/-- Source `n` belongs to a port, channel, sublink or bed that this part lacks (R4, R377). -/
def absentSource (s : State) (n : Nat) : Bool := (srcKind n).isSome && !(sources s).contains n

/-- FAULT_CLEAR (R393). -/
def cmdFaultClear (f : InFlight) (s : State) : State :=
  let c := f.cmd
  let n := pNum c 24 2
  let act := pByte c 26
  if (0x1FF < n && n != 0xFFFF) || absentSource s n then badParam s f.id 24
  else if 1 < act then badParam s f.id 26
  else if act == 1 then endOk { s with flt := { s.flt with snapshot := none } } f.id (le 0 4)
  else if s.flt.latched == some n then conflict s f.id 0x10
  else
    let l := (s.flt.src.filter (fun p => (n == 0xFFFF || p.1 == n) && s.flt.latched != some p.1
      && (p.2.sticky || p.2.count != 0))).map (·.1)
    endOk (l.foldl clearSource s) f.id (le l.length 4)

/-- FAULT_INJECT (R394). -/
def cmdFaultInject (f : InFlight) (s : State) : State :=
  let c := f.cmd
  let n := pNum c 24 2
  let mode := pByte c 26
  let live := bit (pByte c 27) 0
  let checks := pByte c 28
  if !(sources s).contains n then badParam s f.id 24
  else if 1 < mode then badParam s f.id 26
  else if 1 < pByte c 27 then badParam s f.id 27
  else if mode == 0 && checks == 0 then badParam s f.id 28
  else if live && 2 ≤ reactRank n && 2 ≤ lifecycle s then conflict s f.id 0x10
  else if (source s n).inject.isSome then conflict s f.id 0x11
  else
    let k := if mode == 1 then 1 else checks
    setJob (setSource s n { source s n with
      inject := some { live := live, path := mode == 1, checks := k, left := k, detected := 0, cmd := some f.id } })
      f.id (.inject n (s.now + 1000000))

/-! ### LOG commands (R391, R395, R396) -/

/-- Records that pass a filter, in SEQ order. -/
def logView (s : State) (cur : Nat) (g : LogFilter) : List LogRec :=
  s.log.recs.filter (fun r => cur ≤ r.seq && g.minSev ≤ r.sev
    && (match g.code with | none => true | some k => r.code == k))

/-- The cursor of an access path. -/
def cursorOf (s : State) (p : Path) : Nat := (tgetD s.paths.cursors (pathKey p) 0#64).toNat

/-- The filter of an access path. -/
def filterOf (s : State) (p : Path) : LogFilter := tgetD s.paths.filters (pathKey p) {}

/-- Moves a path's cursor. -/
def moveCursor (s : State) (p : Path) (n : Nat) : State :=
  { s with paths := { s.paths with cursors := tset s.paths.cursors (pathKey p) (BitVec.ofNat 64 (n % 2 ^ 48)) } }

/-- The SEQ values in the log, as runs. -/
def seqRuns (l : List Nat) : List (Nat × Nat) :=
  l.foldr (fun q r => match r with
    | (lo, hi) :: r => if q + 1 == lo then (q, hi) :: r else (q, q) :: (lo, hi) :: r
    | [] => [(q, q)]) []

/-- Sets a path's cursor: the records there now, and those to come, are those it can miss (R391). -/
def setCursor (s : State) (p : Path) (n : Nat) : State :=
  let s := moveCursor s p n
  { s with paths := { s.paths with
    cursorRuns := tset s.paths.cursorRuns (pathKey p) (seqRuns (s.log.recs.map (·.seq)) ++ [(s.log.seq + 1, 2 ^ 48 - 1)]) } }

/-- LOG_CURSOR_SET (R395). -/
def cmdLogCursorSet (f : InFlight) (s : State) : State :=
  let c := f.cmd
  let mode := pByte c 24
  let p := carrierPath c.carrier
  let g : LogFilter := { minSev := pByte c 25, code := if pNum c 26 2 == 0xFFFF then none else some (pNum c 26 2) }
  let q := pNum c 32 8 % 2 ^ 48
  if 3 < mode then badParam s f.id 24
  else
    let cur := match mode with
      | 0 => (s.log.recs.head?.map (·.seq)).getD (s.log.seq + 1)
      | 1 => (s.log.recs.getLast?.map (·.seq)).getD (s.log.seq + 1)
      | 2 => q
      | _ => q + 1
    let s := setCursor { s with paths := { s.paths with filters := tset s.paths.filters (pathKey p) g } } p cur
    endOk s f.id (le (cur % 2 ^ 48) 8 ++ le (logView s (cur % 2 ^ 48) g).length 4)

/-- Records from the cursor up to `hi` overwritten after the path's cursor was set (SKIPPED, R391). -/
def skipped (s : State) (p : Path) (cur hi : Nat) : Nat :=
  ((tgetD s.paths.cursorRuns (pathKey p) []).map (fun r => min hi r.2 + 1 - max cur r.1)).sum
    - (s.log.recs.filter (fun r => cur ≤ r.seq && r.seq ≤ hi)).length

/-- LOG_READ_WINDOW (R395). -/
def cmdLogReadWindow (f : InFlight) (s : State) : State :=
  let c := f.cmd
  let p := carrierPath c.carrier
  if c.payLen % 256 != 0 || c.payLen < 256 || 4096 < c.payLen then badParam s f.id 0x40
  else
    let cur := cursorOf s p
    let v := logView s cur (filterOf s p)
    let l := v.take (c.payLen / 256)
    let hi := (l.getLast?.map (·.seq)).getD s.log.seq
    let next := ((v.drop l.length).head?.map (·.seq)).getD (s.log.seq + 1)
    let gone := skipped s p cur hi
    let s := if bit (pByte c 24) 0 && !l.isEmpty then moveCursor s p (hi + 1) else s
    endOut s f.id (le l.length 4 ++ le gone 4 ++ le next 8) (padTo (l.flatMap recBytes) c.payLen)

/-- LOG_CLEAR (R396): the erase of all 128 sectors starts, both banks in parallel; the command ends with the last. A
second LOG_CLEAR joins the one under way. -/
def cmdLogClear (f : InFlight) (s : State) : State :=
  if s.log.clearing.isSome then setJob s f.id .logClear
  else
    let s := setJob { s with log := { s.log with clearing := some f.id, erased := 0 } } f.id .logClear
    (List.range 128).foldl (fun s k =>
      nvmPost s { agent := 6, erase := true, addr := logSectorAddr k, what := .logSector k }) s

/-- The last log sector is erased: recording resumes, LOG_CLEARED is recorded first and the commands end (R396). -/
def endLogClear (s : State) : State :=
  let ids := (jobs s (fun j => j == .logClear)).map (·.id)
  let n := s.log.erased
  let s := { s with log := { s.log with
    clearing := none, erased := 0, stopped := none, sector := 0, fill := 0, freeSectors := (List.range 127).map (· + 1) } }
  let s := (logWrite s 0x206 6 (binOne s false n 0) none).1
  ids.foldl (fun s id => endOk s id []) s

/-- FAULT_STATUS as a packet. -/
def execFaultStatus (c : TrellisCmd) (s : State) : Host.Outcome State Fault Refusal :=
  .next (submit cmdFaultStatus 0x0600 c s)

/-- FAULT_CLEAR as a packet. -/
def execFaultClear (c : TrellisCmd) (s : State) : Host.Outcome State Fault Refusal :=
  .next (submit cmdFaultClear 0x0601 c s)

/-- FAULT_INJECT as a packet. -/
def execFaultInject (c : TrellisCmd) (s : State) : Host.Outcome State Fault Refusal :=
  .next (submit cmdFaultInject 0x0602 c s)

/-- LOG_CURSOR_SET as a packet. -/
def execLogCursorSet (c : TrellisCmd) (s : State) : Host.Outcome State Fault Refusal :=
  .next (submit cmdLogCursorSet 0x0700 c s)

/-- LOG_READ_WINDOW as a packet. -/
def execLogReadWindow (c : TrellisCmd) (s : State) : Host.Outcome State Fault Refusal :=
  .next (submit cmdLogReadWindow 0x0701 c s)

/-- LOG_CLEAR as a packet. -/
def execLogClear (c : TrellisCmd) (s : State) : Host.Outcome State Fault Refusal :=
  .next (submit cmdLogClear 0x0702 c s)

/-! ### Registers -/

/-- FLT and LOG registers whose value the state's own fields give. `sel` reads a selector of the access path. -/
def viewCollector (s : State) (p : Path) (sel : Nat → Nat) (c : Nat) : Option Nat :=
  if c == rFltStatus then
    some (fld (b2n s.flt.latched.isSome) 31 1 + fld (b2n s.flt.snapshot.isSome) 30 1
      + fld (b2n (s.flt.src.any (fun q => q.2.polled))) 29 1 + fld (s.flt.latched.getD 0x1FF) 20 9
      + fld ((firstError s).getD 0x1FF) 11 9 + min 0x3FF (liveCount s))
  else if c == rFltSrc then some (fltSrcWord s (sel rFltSrcSel % 512))
  else if c == rFltEntry then some (reactEntry s (sel rFltSrcSel % 512))
  else if c == rLogStatus then
    some (fld (b2n s.log.stopped.isSome) 31 1 + fld (s.log.stopped.getD 0) 28 3 + fld (b2n s.log.clearing.isSome) 27 1
      + fld s.log.bins.length 18 9 + min 0xFFFF ((256 - s.log.fill) + 256 * s.log.freeSectors.length))
  else if c == rLogSeq then some s.log.seq
  else if c == rLogCursor then some (cursorOf s p)
  else if rLogWindow ≤ c && c < rLogWindow + 0x1000 then
    some (rd (((logView s (cursorOf s p) (filterOf s p)).take 16).flatMap recBytes) (c - rLogWindow) 4)
  else none

end Sys2Proof.Machine
end

