-- ==== Sys2Proof/Machine/Keys.lean ====
section
/-! DEFINITION. Signed containers, label keys, nonces, the record commands, fuses and firmware staging (chapter 15). -/

namespace Sys2Proof.Machine

open Sys2Proof

/-! ### The signed container (R397, R398) -/

/-- Fields of a container header (Table 15.1). -/
structure Container where
  typ : Nat
  key : Nat
  bodyLen : Nat
  version : Nat
  part : Nat
  svn : Nat
  signer : List Byte
  body : List Byte
  signature : List Byte
  deriving DecidableEq, Repr

/-- A container from its bytes. -/
def container (b : List Byte) : Container :=
  let n := rd b 8 4
  { typ := rd b 6 1, key := rd b 7 1, bodyLen := n, version := rd b 12 4, part := rd b 16 2, svn := rd b 18 1,
    signer := slice b 20 97, body := slice b 128 n, signature := slice b (128 + n) 96 }

/-- A container of type `typ` is valid on this part (R398). -/
def containerOk (s : State) (typ : Nat) (b : List Byte) : Bool :=
  let c := container b
  rd b 0 4 == 0x4E435431 && rd b 4 2 == 1 && c.typ == typ && decide (c.key ≤ 1)
    && !(s.fus.keyRevoke.getLsbD c.key) && bytes (sha384 (nats c.signer)) == Config.keyHash c.key
    && decide (128 + c.bodyLen + 96 ≤ b.length)
    && Config.ecdsaVerifies c.signer (b.take (128 + c.bodyLen)) c.signature
    && (c.part == 0xFFFF || c.part == s.fus.part) && decide (s.fus.svn ≤ c.svn)

/-! ### Key derivation (R411, Table 15.5) -/

/-- The default NAME of label slot `n` is "REC-n" (R416). -/
def defaultLabel (n : Nat) : List Byte := label ("REC-" ++ toString n) 0 0 []

/-- The label block of slot `n`. -/
def slotLabel (s : State) (n : Nat) : List Byte := (tget s.krc.labels n).getD (defaultLabel n)

/-- The key of label slot `n`. -/
def slotKey (s : State) (n : Nat) : List Byte := derive Config.rootKey (slotLabel s n) [] 32

/-- The group order of P-384. -/
def p384Order : Nat :=
  0xFFFFFFFFFFFFFFFFFFFFFFFFFFFFFFFFFFFFFFFFFFFFFFFFC7634D81F4372DDF581A0DB248B0A77AECEC196ACCC52973

/-- The identity private key d = (c mod (n − 1)) + 1 (R412). -/
def identityKey : Nat :=
  beN (nats (derive Config.rootKey (label "ID-P384" 0xFFFF 0 []) [] 56)) % (p384Order - 1) + 1

/-- The identity certificate chain of slot 0 (R412). -/
def identityChain (s : State) : List Byte := Config.certChain identityKey Config.serial s.fus.part Config.groupId

/-! ### Nonces (R354, R414) -/

/-- The counter has reached its limit. -/
def nonceSpent (s : State) : Bool := decide (2 ^ 64 - 2 ^ 16 ≤ s.krc.nonceNext)

/-- A nonce is left of a block whose reservation is written (R414). -/
def nonceReady (s : State) : Bool := decide (s.krc.nonceNext < s.krc.nonceSafe) && !nonceSpent s

/-- Takes the next nonce. -/
def takeNonce (s : State) : State := { s with krc := { s.krc with nonceNext := s.krc.nonceNext + 1 } }

/-- Reserves a block of 2^16: its end is written to pair 2 before a nonce of it is issued, and the option floor when due (R354, R414). -/
def reserveNonces (s : State) : State :=
  let v := s.krc.nonceEnd + 2 ^ 16
  let s := pairWrite { s with krc := { s.krc with nonceEnd := v, nonceAt := some s.now } } 2
  if s.nvm.shadow.nonceFloor + 2 ^ 23 ≤ v then optionWrite s { s.nvm.shadow with nonceFloor := v } else s

/-! ### Record commands (R416–R419) -/

/-- Names that only the Skeuf derives under (R416). -/
def reservedName (l : List Byte) : Bool :=
  let pre := fun (n : String) => l.take n.length == n.toList.map (fun c => BitVec.ofNat 8 c.toNat)
  pre "FLASH-" || pre "HRV-" || pre "PAIR-" || pre "ID-" || pre "EXL-"

/-- KEY_LABEL_SET (R416): host-assisted KEYS input. -/
def cmdKeyLabelSet (f : InFlight) (s : State) : State :=
  let c := f.cmd
  let n := pByte c 24
  let l := payIn c
  if !owns s c.est 10 then endWith s f.id 0x05 0x05
  else if 7 < n then badParam s f.id 24
  else if c.payLen != 32 || reservedName l then badParam s f.id 0x40
  else
    let s := assistInput { s with krc := { s.krc with labels := tset s.krc.labels n l } } 10
    endOk (pairWrite s 5) f.id []

/-- The IV of a record operation: 0, 0, 0, SLOT, nonce big-endian (R417). -/
def recordIv (slot nonce : Nat) : List Nat := [0, 0, 0, slot] ++ beB nonce 8

/-- Seals a record with the next nonce and ends its command (R417). -/
def sealNow (f : InFlight) (s : State) : State :=
  let c := f.cmd
  let slot := pByte c 24
  let aadLen := pNum c 28 4
  let p := payIn c
  let nonce := s.krc.nonceNext
  let key := nats (slotKey s slot)
  let aad := p.take aadLen
  let ct := gctr key (recordIv slot nonce) (nats (slice p aadLen (c.payLen - 16 - aadLen)))
  endOut (takeNonce s) f.id (le nonce 8 ++ le ct.length 4)
    (aad ++ bytes ct ++ bytes (gcmTag key (recordIv slot nonce) (nats aad) ct))

/-- The root key is refused (RETIRED, R422): the status of a command that needs it is not stated and is a free value
(log entry 39). -/
def noRootKey (f : InFlight) (s : State) : State := endWith (drew s) f.id (drawn s % 256) 0

/-- RECORD_SEAL after its checks: exhausted, sealed, or waiting for a nonce block (R414, R417). -/
def sealOrWait (f : InFlight) (s : State) : State :=
  if nonceSpent s then endWith (raiseOpen s 0x1C6) f.id 0x0C 0
  else if nonceReady s then sealNow f s
  else setJob { s with krc := { s.krc with waiting := s.krc.waiting ++ [f.id] } } f.id .nonce

/-- Payload limits of RECORD_SEAL and RECORD_OPEN: slot, AAD and tag room (R417, R418). -/
def recordBad (c : TrellisCmd) : Option Nat :=
  if 7 < pByte c 24 then some 24
  else if c.payLen < 16 || 65536 < c.payLen then some 0x40
  else if c.payLen < pNum c 28 4 + 16 then some 28 else none

/-- RECORD_SEAL (R417). -/
def cmdRecordSeal (f : InFlight) (s : State) : State :=
  match recordBad f.cmd with
  | some i => badParam s f.id i
  | none => if s.krc.rootRefused then noRootKey f s else sealOrWait f s

/-- RECORD_OPEN (R415, R418): the computed plaintext is written back even when authentication fails. -/
def cmdRecordOpen (f : InFlight) (s : State) : State :=
  match recordBad f.cmd with
  | some i => badParam s f.id i
  | none =>
    if s.krc.rootRefused then noRootKey f s
    else
      let c := f.cmd
      let slot := pByte c 24
      let aadLen := pNum c 28 4
      let iv := recordIv slot (pNum c 32 8)
      let key := nats (slotKey s slot)
      let p := payIn c
      let ct := nats (slice p aadLen (c.payLen - 16 - aadLen))
      let good := gcmTag key iv (nats (p.take aadLen)) ct == nats (p.drop (c.payLen - 16))
      finish s f.id { status := if good then 0 else 0x0B,
                      output := p.take aadLen ++ bytes (gctr key iv ct) ++ zeros 16 }

/-- AES_BLOCK (R419). -/
def cmdAesBlock (f : InFlight) (s : State) : State :=
  let c := f.cmd
  let op := pByte c 24
  let slot := pByte c 25
  let blk := nats (padTo (slice c.params 16 16) 16)
  if 1 < op then badParam s f.id 24
  else if 7 < slot then badParam s f.id 25
  else if s.krc.rootRefused then noRootKey f s
  else
    let k := nats (slotKey s slot)
    endOk s f.id (bytes (if op == 0 then aesEnc k blk else aesDec k blk))

/-- KEY_LABEL_SET as a packet. -/
def execKeyLabelSet (c : TrellisCmd) (s : State) : Host.Outcome State Fault Refusal :=
  .next (submit cmdKeyLabelSet 0x0900 c s)

/-- RECORD_SEAL as a packet. -/
def execRecordSeal (c : TrellisCmd) (s : State) : Host.Outcome State Fault Refusal :=
  .next (submit cmdRecordSeal 0x0901 c s)

/-- RECORD_OPEN as a packet. -/
def execRecordOpen (c : TrellisCmd) (s : State) : Host.Outcome State Fault Refusal :=
  .next (submit cmdRecordOpen 0x0902 c s)

/-- AES_BLOCK as a packet. -/
def execAesBlock (c : TrellisCmd) (s : State) : Host.Outcome State Fault Refusal :=
  .next (submit cmdAesBlock 0x0903 c s)

/-- Seals for the commands that waited, oldest first, as long as nonces last. -/
def serveWaiting (ids : List Nat) (s : State) : State :=
  match ids with
  | [] => s
  | id :: r =>
    match inflight s id with
    | some f => serveWaiting r (sealOrWait f s)
    | none => serveWaiting r s

/-- The reservation is written to pair 2: commands that waited for a nonce go on (R414). -/
def nonceStored (s : State) : State :=
  serveWaiting s.krc.waiting { s with krc := { s.krc with nonceSafe := s.krc.nonceEnd, waiting := [] } }

/-- NONCE_BLOCK_RESERVE (R354, R414): at most one block in 60 s, the first after a start apart; a command that waits
goes on once it is written. At the limit no block is reserved and NONCE_EXHAUSTED is raised. -/
def execNonceBlockReserve (t : Nat) (s : State) : Host.Outcome State Fault Refusal :=
  let s := tick s t
  let w := s.krc.waiting
  .next (if s.dev.state == .off then s
    else if nonceSpent s then serveWaiting w { s with krc := { s.krc with waiting := [] } }
    else if s.krc.nonceNext < s.krc.nonceSafe then s
    else if (match s.krc.nonceAt with | some u => decide (s.now < u + 60000000) | none => false) then s
    else reserveNonces s)

/-! ### Fuses (R421–R423) -/

/-- Fuse bits [31:0] (Table 15.6). -/
def fuseWord0 (s : State) : Nat :=
  s.fus.lifecycle.toNat + fld s.fus.rdpFloor.toNat 4 2 + fld (b2n s.fus.debugLock) 6 1 + fld s.fus.haDeny.toNat 8 11
    + fld s.fus.keyRevoke.toNat 19 2

/-- The active firmware slot. -/
def activeSlot (s : State) : Option FwSlot := s.fwu.active.map (fun b => if b then s.fwu.b else s.fwu.a)

/-- The fuses as operation `op` with argument `arg` leaves them, or the status that refuses it (R423). -/
def burn (s : State) (op arg : Nat) : Except Nat Fus :=
  let x := s.fus
  match op with
  | 1 =>
    if arg != 0 then .error 0x04
    else if x.lifecycle.getLsbD 1 then .error 0x0E
    else .ok { x with lifecycle := x.lifecycle ||| 2#4, debugLock := true, rdpFloor := x.rdpFloor ||| 1#2 }
  | 2 =>
    if arg != 0 then .error 0x04
    else if x.lifecycle.getLsbD 2 then .error 0x0E
    else .ok { x with lifecycle := x.lifecycle ||| 4#4 }
  | 3 =>
    let m := BitVec.ofNat 11 arg
    if 0x7FF < arg then .error 0x04
    else if x.haDeny ||| m == x.haDeny then .error 0x0E
    else .ok { x with haDeny := x.haDeny ||| m }
  | 4 =>
    if 2 < arg then .error 0x04
    else if arg ≤ rdpFloor s then .error 0x0E
    else .ok { x with rdpFloor := x.rdpFloor ||| (if arg == 1 then 1#2 else 3#2) }
  | 5 =>
    if arg != 0 then .error 0x04
    else if x.debugLock then .error 0x0E
    else .ok { x with debugLock := true }
  | 6 =>
    if 64 < arg then .error 0x04
    else if arg ≤ x.svn then .error 0x0E
    else match activeSlot s with
      | some a => if a.svn < arg then .error 0x05 else .ok { x with svn := arg }
      | none => .error 0x05
  | 7 =>
    if 1 < arg then .error 0x04
    else if x.keyRevoke.getLsbD arg then .error 0x0E
    else if x.keyRevoke != 0#2 then .error 0x05
    else if (match activeSlot s with | some a => a.key == arg | none => false) then .error 0x05
    else .ok { x with keyRevoke := x.keyRevoke ||| BitVec.ofNat 2 (2 ^ arg) }
  | _ => .error 0x04

/-- A write of FWU_FUSE_CMD with operation `op`: from board management over MCTP only, with CONFIRM 0xC3A5. A write
from another path is ignored and logged, as an access without effect (R423; log entry 40). -/
def fuseCmd (a : RegAcc) (v op t : Nat) (s : State) : State :=
  let s := tick s t
  if s.dev.state == .off then s
  else if !(viaMctp a.path && issClass a.issuer == 2) then regFault s rFwuFuseCmd
  else if bits v 16 16 != 0xC3A5 then s
  else match burn s op (bits v 0 12) with
    | .error e => { s with fwu := { s.fwu with fuseResult := e } }
    | .ok x => { s with fus := x, fwu := { s.fwu with fuseResult := 0 },
                        krc := { s.krc with rootRefused := s.krc.rootRefused || x.lifecycle.getLsbD 2 } }

/-- FUSE_ADVANCE_SECURED (R423). -/
def execFuseAdvanceSecured (a : RegAcc) (v t : Nat) (s : State) : Host.Outcome State Fault Refusal :=
  .next (fuseCmd a v 1 t s)

/-- FUSE_ADVANCE_RETIRED (R423). -/
def execFuseAdvanceRetired (a : RegAcc) (v t : Nat) (s : State) : Host.Outcome State Fault Refusal :=
  .next (fuseCmd a v 2 t s)

/-- FUSE_SET_HA_DENY (R423). -/
def execFuseSetHaDeny (a : RegAcc) (v t : Nat) (s : State) : Host.Outcome State Fault Refusal :=
  .next (fuseCmd a v 3 t s)

/-- FUSE_RAISE_RDP_FLOOR (R423). -/
def execFuseRaiseRdpFloor (a : RegAcc) (v t : Nat) (s : State) : Host.Outcome State Fault Refusal :=
  .next (fuseCmd a v 4 t s)

/-- FUSE_SET_DEBUG_LOCK (R423). -/
def execFuseSetDebugLock (a : RegAcc) (v t : Nat) (s : State) : Host.Outcome State Fault Refusal :=
  .next (fuseCmd a v 5 t s)

/-- FUSE_RAISE_SVN (R423). -/
def execFuseRaiseSvn (a : RegAcc) (v t : Nat) (s : State) : Host.Outcome State Fault Refusal :=
  .next (fuseCmd a v 6 t s)

/-- FUSE_REVOKE_KEY (R423). -/
def execFuseRevokeKey (a : RegAcc) (v t : Nat) (s : State) : Host.Outcome State Fault Refusal :=
  .next (fuseCmd a v 7 t s)

/-! ### Firmware slots and staging (R399–R403) -/

/-- Bytes of a firmware slot and of the SRAM buffer. -/
def slotBytes : Nat := 160 * 65536

/-- Slot `b` (false A, true B). -/
def fwSlot (s : State) (b : Bool) : FwSlot := if b then s.fwu.b else s.fwu.a

/-- Sets slot `b`. -/
def setSlot (s : State) (b : Bool) (x : FwSlot) : State :=
  if b then { s with fwu := { s.fwu with b := x } } else { s with fwu := { s.fwu with a := x } }

/-- A slot as a state record holds it. -/
def slotRec (x : FwSlot) : FwSlot := { x with passed := false }

/-- The state record would say what the newest one says. -/
def fwRecorded (s : State) : Bool :=
  s.fwu.recA == slotRec s.fwu.a && s.fwu.recB == slotRec s.fwu.b && s.fwu.recActive == s.fwu.active
    && s.fwu.recBoots == s.fwu.failedBoots

/-- Writes the firmware-update state record into the next row of the active area, MA227 or MB227; a full one gives way to the
other, erased first (R400). -/
def fwSave (s : State) : State :=
  if fwRecorded s || s.nvm.bod then s
  else
    let full := decide (1024 ≤ s.fwu.recRows)
    let k := if full then 1 - s.fwu.recArea else s.fwu.recArea
    let row := if full then 0 else s.fwu.recRows
    let a := mainSector k 227
    let s := { s with fwu := { s.fwu with recArea := k, recRows := row + 1 } }
    let s := if full && !eraseWaits s a then nvmPost s { agent := 7, erase := true, addr := a } else s
    nvmPost s { agent := 7, erase := false, addr := a + 64 * row, what := .fwState }

/-- The state record is written (R400). -/
def fwStored (s : State) : State :=
  { s with fwu := { s.fwu with recA := slotRec s.fwu.a, recB := slotRec s.fwu.b, recActive := s.fwu.active, recBoots := s.fwu.failedBoots } }

/-- The active slot is TENTATIVE. -/
def tentative (s : State) : Bool := match activeSlot s with | some a => a.st == 3 | none => false

/-- The active slot has no other fallback than the inactive one: TENTATIVE, or given up and not yet left (R402, R409). -/
def needsOther (s : State) : Bool := match activeSlot s with | some a => a.st == 3 || a.st == 5 | none => false

/-- The slot FW_STAGE_BEGIN with IMAGE 0 stages, or why not: BAD_PARAM (none), CONFLICT (true) (R402). -/
def stageTarget (s : State) (slot : Nat) : Except Bool Bool :=
  match s.fwu.active with
  | some b => if slot != 0 then .error false else if needsOther s then .error true else .ok (!b)
  | none => if 2 < slot then .error false else .ok (slot == 2)

/-- FW_STAGE_BEGIN (R402): a second one discards the staging in progress; the erase of the slot's 160 sectors runs
as agent 7. -/
def cmdFwStageBegin (f : InFlight) (s : State) : State :=
  let c := f.cmd
  let image := pByte c 24
  let slot := pByte c 25
  if 2 < image then badParam s f.id 24
  else if image != 0 then
    if slot != 0 then badParam s f.id 25
    else endOk { s with fwu := { s.fwu with staging := some (0x10 + image), buf := [] } } f.id []
  else match stageTarget s slot with
    | .error false => badParam s f.id 25
    | .error true => conflict s f.id 0x10
    | .ok b =>
      let s := { s with
        fwu := { s.fwu with staging := none, erasing := some f.id },
        nvm := { s.nvm with queue := s.nvm.queue.filter (fun o => match o.what with | .fwErase _ _ => false | _ => true) } }
      let s := setJob (fwSave (setSlot s b { fwSlot s b with st := 0 })) f.id (.fwErase b)
      (List.range 160).foldl (fun s k =>
        nvmPost s { agent := 7, erase := true, addr := mainSector (b2n b) k, what := .fwErase b (k == 159) }) s

/-- The last sector of slot `b` is erased: the slot is STAGING and the commands that waited end (R402). -/
def endSlotErase (s : State) (b : Bool) : State :=
  let ids := (jobs s (fun j => j == .fwErase b)).map (·.id)
  let s := fwSave (setSlot { s with fwu := { s.fwu with staging := some (b2n b), erasing := none } } b { st := 1 })
  ids.foldl (fun s id => endOk s id []) s

/-- Writes bytes into the SRAM staging buffer. -/
def bufWrite (s : State) (off : Nat) (l : List Byte) : State :=
  { s with fwu := { s.fwu with buf :=
      (List.range l.length).foldl (fun t i => tset t (off + i) (l.getD i 0#8)) s.fwu.buf } }

/-- FW_STAGE_DATA (R403). Without an open staging it is a clash of state: CONFLICT, reason 0x10 (log entry 41). -/
def cmdFwStageData (f : InFlight) (s : State) : State :=
  let c := f.cmd
  let off := pNum c 24 4
  let p := payIn c
  match s.fwu.staging with
  | none => conflict s f.id 0x10
  | some k =>
    let room := if k ≤ 1 then slotBytes else 65536
    if off % 64 != 0 then badParam s f.id 24
    else if c.payLen % 16 != 0 then badParam s f.id 0x40
    else if room < off + c.payLen then badParam s f.id 24
    else if 1 < k then endOk (bufWrite s off p) f.id []
    else
      let a := mainSector k 0 + off
      if !unitsErased s a c.payLen then endWith (bump s rNvmErr 4 4 1) f.id 0x06 0
      else nvmPost (setJob s f.id .table)
        { agent := 7, erase := false, addr := a, data := p, what := .fwData f.id true }

/-- Staged bytes 0 to `n - 1` of the slot or buffer being staged; an erased byte reads 0xFF, a byte of the empty
buffer zero. -/
def stagedBytes (s : State) (n : Nat) : List Byte :=
  match s.fwu.staging with
  | some k => if k ≤ 1 then (readUnits s (mainSector k 0) n).take n
              else (List.range n).map (fun i => tgetD s.fwu.buf i 0#8)
  | none => []

/-- The four manifest entries of a slot: offset, length, digest (R399). -/
def manifest (body : List Byte) : List (Nat × Nat × List Byte) :=
  (List.range 4).map (fun i => (rd body (64 * i) 4, rd body (64 * i + 4) 4, slice body (64 * i + 8) 48))

/-- Entries neither overlap each other or the container nor leave the slot; offsets are multiples of 4,096 (R399,
R404). -/
def manifestFits (body : List Byte) : Bool :=
  let m := manifest body
  m.all (fun e => decide (e.1 + e.2.1 ≤ slotBytes) && e.1 % 4096 == 0 && decide (128 + 256 + 96 ≤ e.1 || e.2.1 = 0))
    && (List.range 4).all (fun i => (List.range 4).all (fun j =>
      let a := m.getD i (0, 0, [])
      let b := m.getD j (0, 0, [])
      i == j || decide (a.1 + a.2.1 ≤ b.1) || decide (b.1 + b.2.1 ≤ a.1)))

/-- The check of slot `b` at its boot (R398, R401): the manifest container and every image's digest. -/
def slotPasses (s : State) (b : Bool) : Bool :=
  let base := mainSector (b2n b) 0
  let c := readUnits s base 480
  containerOk s 0x01 c && (manifest (container c).body).all (fun e =>
    bytes (sha384 (nats ((readUnits s (base + e.1) e.2.1).take e.2.1))) == e.2.2)

/-- FW_STAGE_BEGIN as a packet. -/
def execFwStageBegin (c : TrellisCmd) (s : State) : Host.Outcome State Fault Refusal :=
  .next (submit cmdFwStageBegin 0x0800 c s)

/-- FW_STAGE_DATA as a packet. -/
def execFwStageData (c : TrellisCmd) (s : State) : Host.Outcome State Fault Refusal :=
  .next (submit cmdFwStageData 0x0801 c s)

/-! ### Registers -/

/-- FUS, KRC and FWU registers whose value the state's own fields give. -/
def viewKeys (s : State) (c : Nat) : Option Nat :=
  if c == rFusWord0 then some (if s.fus.shadow then s.fus.word0.toNat else 0)
  else if c == rFusSerial then some Config.serial.toNat
  else if c == rKrcNonce then some s.krc.nonceNext
  else if c == rFwuStatus then
    some (fld s.fwu.phase 28 4 + fld (b2n (s.fwu.active == some true)) 27 1 + fld s.fwu.a.st 24 3 + fld s.fwu.b.st 21 3
      + fld s.fwu.failedBoots 19 2 + fld (b2n s.fwu.alone) 18 1 + s.fwu.fuseResult % 256)
  else none

end Sys2Proof.Machine
end

