-- ==== Sys2Proof/Machine/Pages.lean ====
section
/-! DEFINITION. What the flash pages hold: metadata, codewords, the page cipher (R204–R207), the seal record (R179), and the
HELD record's check (R191). -/

namespace Sys2Proof.Machine

open Sys2Proof

/-! ### Page metadata (R205, Table 7.4) -/

/-- Bytes 0–59 of the metadata of a page. -/
def metaBytes (p : Page) : List Byte :=
  le p.gran 4 ++ le p.allot 2 ++ le p.kind 1 ++ le p.format 1 ++ le p.gen 4 ++ le p.crc.toNat 4 ++ le p.sealSeq 8 ++ le p.stripe 4
    ++ le p.commit 8 ++ zeros 24

/-- META_CRC: CRC-32C of bytes 0–59. -/
def metaCrcOf (p : Page) : BitVec 32 := BitVec.ofNat 32 (crc32c (metaBytes p))

/-- All 64 metadata bytes. -/
def pageMeta (p : Page) : List Byte := metaBytes p ++ le p.metaCrc.toNat 4

/-- A page as it is handed to a program: FORMAT and META_CRC filled in, dated. -/
def stamped (s : State) (p : Page) : Page :=
  let p := { p with format := 1, born := opSecs s }
  { p with metaCrc := metaCrcOf p }

/-- A device page of a kind, its index in its item, and its content (R205). -/
def devPage (s : State) (kind idx commit stripe : Nat) (cells : List Host.Cell) : Page :=
  stamped s { gran := idx, allot := 0xFFFF, kind := kind, sealSeq := sealSeq s + 1, stripe := stripe, commit := commit,
              crc := BitVec.ofNat 32 (crc32c (mreadN cells 0 16384)), cells := cells }

/-! ### Codewords and the page cipher (R204, R207) -/

/-- The key of a page: label FLASH-XTS with the allotment ID and generation, or FLASH-META for device pages. -/
def flashKey (p : Page) : List Nat :=
  let root := derive Config.rootKey (label "FLASH-ROOT" 0xFFFF 0 []) [] 32
  nats (if p.allot == 0xFFFF then derive root (label "FLASH-META" 0xFFFF 0 []) [] 64
    else derive root (label "FLASH-XTS" p.allot p.gen []) [] 64)

/-- The tweak of the next block of an XTS data unit: multiplication by x, bytes little-endian. -/
def xtsNext (t : List Nat) : List Nat :=
  let n := 2 * beN t.reverse
  (beB (if 2 ^ 128 ≤ n then (n % 2 ^ 128) ^^^ 0x87 else n) 16).reverse

/-- XTS-AES-256 encryption of a data unit of whole blocks with a 64-byte key and its tweak value. -/
def xtsEnc (key : List Nat) (tweak : Nat) (data : List Nat) : List Nat :=
  let t0 := aesEnc (key.drop 32) (beB tweak 16).reverse
  ((blocks data (data.length / 16)).foldl (fun (a : List Nat × List Nat) b =>
    (a.1 ++ xorL (aesEnc (key.take 32) (xorL b a.2)) a.2, xtsNext a.2)) ([], t0)).1

/-- The data bytes of codeword `i` as they are stored: encrypted with the tweak granule × 4 + i. -/
def cipherUnit (p : Page) (i : Nat) : List Byte :=
  bytes (xtsEnc (flashKey p) (4 * p.gran + i) (nats (mreadN p.cells (4096 * i) 4096)))

/-- Codeword `i` of a page: 4,096 data bytes, 16 metadata bytes, 496 parity bytes (R204). -/
def codeword (p : Page) (i : Nat) : List Byte :=
  let d := cipherUnit p i ++ slice (pageMeta p) (16 * i) 16
  d ++ padTo (Config.ldpcParity d) 496

/-- A page of `n` bytes as the part holds it: four codewords, then 0xFF (R204). -/
def storedPage (p : Page) (n : Nat) : List Byte :=
  (List.range 4).flatMap (codeword p) ++ List.replicate (n - 18432) 0xFF#8

/-! ### The seal record (R179, Table 6.6) -/

/-- Bytes 58–4,079 of a seal record: the memory's geometry, META_ADDR and the cut sequence numbers. -/
def sealTail (a : Seal) : List Byte :=
  le a.dimms 1 ++ le a.ranks 1 ++ le a.cap64 2 ++ zeros 2 ++ le a.geometry.toNat 8 ++ le a.metaAddr 8 ++ zeros 16
    ++ (List.range 64).flatMap (fun i => le (a.cutSeq.getD i 0#64).toNat 8) ++ zeros 3472

/-- Bytes 0–4,079 of a seal record. -/
def sealBytes (a : Seal) : List Byte :=
  le 0x5345414C 4 ++ le 1 2 ++ le a.kind 1 ++ le a.cause 1 ++ le a.seq 8 ++ le a.powerCycle.toNat 4 ++ le a.unsaved 4
    ++ le (a.opSeconds % 2 ^ 40) 8 ++ le a.epoch 8 ++ le a.granules 8 ++ le a.stripes 4 ++ le a.cutNs 4 ++ le a.channels 2
    ++ sealTail a

/-- The CMAC tag over seal bytes, under the key of label HRV-SEAL. -/
def sealTagOf (l : List Byte) : List Byte :=
  bytes (cmac (nats (derive Config.rootKey (label "HRV-SEAL" 0xFFFF 0 []) [] 32)) (nats l))

/-- A stored seal record verifies: its tag is the CMAC over bytes 0–4,079. -/
def sealVerifies (p : Page) : Bool := sealTagOf (mreadN p.cells 0 4080) == mreadN p.cells 4080 16

/-- The HRV registers of the last harvest and replant, as the metadata keeps them (R200). -/
def hrvRegs (s : State) : List Nat :=
  [s.hrv.cutNs, s.hrv.linkDownNs, s.hrv.lastGranules, s.hrv.lastTimeUs] ++ s.hrv.rates

/-- The population part of a seal (Table 6.6). -/
def sealPop (s : State) (a : Seal) : Seal :=
  let d := (tget s.ddrs.ch ((popChannels s).headD 0)).getD {}
  { a with channels := maskOf (popChannels s), dimms := d.dimms, ranks := d.ranks, cap64 := d.cap64, geometry := s.ddrs.geometry }

/-! ### The HELD record (R191) -/

/-- The fields of the HELD record, in the order the manual lists them (log entry 117). -/
def heldBytes (r : HeldRec) : List Byte :=
  le r.sealSeq 8 ++ le r.cause 1 ++ le (b2n r.mrHigh) 1 ++ le r.channels 2 ++ r.pop.flatMap (fun p => le p.1 1 ++ le p.2 1)
    ++ r.lanes.flatMap (fun t => t.flatMap (fun p => le p.2.rd 1 ++ le p.2.wr 1)) ++ le r.holdSlots 3
    ++ le (b2n r.excursion + 2 * b2n r.drst) 1

/-- CRC-32C of the HELD record. -/
def heldCrc (r : HeldRec) : BitVec 32 := BitVec.ofNat 32 (crc32c (heldBytes r))

/-- The record with its CRC, as the cold-frame die keeps it. -/
def heldKept (r : HeldRec) : HeldRec := { r with crc := heldCrc r }

end Sys2Proof.Machine
end

