-- ==== Sys2Proof/Machine/Blocks.lean ====
section
/-! DEFINITION. Flash addresses, blocks and superblocks, the granule map, wear, the metadata pool with the journal and the
checkpoint, block roles, and the two seal locations (R179, R211, R216–R224, R230). -/

namespace Sys2Proof.Machine

open Sys2Proof

/-! ### Flash addresses (bits [53:18] of a map entry, Table 7.7) -/

/-- Channel of an address. -/
def faChan (a : Nat) : Nat := a / 2 ^ 31

/-- Target of an address, channel × 16 + volume. -/
def faTgt (a : Nat) : Nat := a / 2 ^ 27

/-- Block index of an address. -/
def faBlk (a : Nat) : Nat := a / 2 ^ 12 % 8192

/-- Address of a page. -/
def faOf (tk plane blk page : Nat) : Nat := tk * 2 ^ 27 + plane * 2 ^ 25 + blk * 2 ^ 12 + page

/-- Key of a block: target × 8,192 + index. -/
def blkKey (a : Nat) : Nat := faTgt a * 8192 + faBlk a

/-! ### Blocks and superblocks -/

/-- Block `b`. -/
def block (s : State) (b : Nat) : Block := tgetD s.ftl.blocks b {}

/-- Sets a block. -/
def setBlock (s : State) (b : Nat) (x : Block) : State := { s with ftl := { s.ftl with blocks := tset s.ftl.blocks b x } }

/-- Superblock `k`. -/
def sb (s : State) (k : Nat) : Sb := tgetD s.ftl.sbs k {}

/-- Sets a superblock. -/
def setSb (s : State) (k : Nat) (x : Sb) : State := { s with ftl := { s.ftl with sbs := tset s.ftl.sbs k x } }

/-- Index of the `k`-th block that the manufacturer did not mark bad, `bad` ascending (R216). -/
def nthGood (bad : List Nat) (k : Nat) : Nat := bad.foldl (fun i b => if b ≤ i then i + 1 else i) k

/-- Superblock of an address: of the block's place among the good ones unless it stands in for a retired member. -/
def sbOf (s : State) (a : Nat) : Nat :=
  ((block s (blkKey a)).sb).getD
    (faBlk a - ((tgetD s.ftl.targets (faTgt a) {}).bad.filter (fun b => b < faBlk a)).length)

/-- The block of a target in a superblock: one that replaced its member, else the superblock's own good block. -/
def memberBlock (s : State) (tk k : Nat) : Nat :=
  match s.ftl.blocks.find? (fun p => p.1 / 8192 == tk && p.2.sb == some k) with
  | some p => p.1 % 8192
  | none => nthGood (tgetD s.ftl.targets tk {}).bad k

/-- Targets that superblock `k` has a member on, ascending. -/
def members (s : State) (k : Nat) : List Nat := (tkeys s.ftl.targets).filter (fun tk => !(sb s k).missing.contains tk)

/-- The flash engine of channel `c` is being reloaded, one at a time: the channel's queues are held (R406). -/
def engineHeld (s : State) (c : Nat) : Bool := s.tin.reload.find? (fun k => 100 ≤ k) == some (100 + c)

/-- Superblocks of a role. -/
def sbsOf (s : State) (r : BlockRole) : List Nat := (s.ftl.sbs.filter (fun p => p.2.role == r)).map (·.1)

/-- FREE_SB: TLC free superblocks, erased or awaiting erase. -/
def freeSb (s : State) : Nat := (sbsOf s .tlcFree).length

/-- The erase-state bit of a page is set (R211). -/
def pageErased (s : State) (a : Nat) : Bool :=
  (sb s (sbOf s a)).clean && !(block s (blkKey a)).cleared && (tget s.ftl.pages a).isNone
    && !(sb s (sbOf s a)).missing.contains (faTgt a)

/-- Targets present and not failed. -/
def goodTargets (s : State) : List Nat := (s.ftl.targets.filter (fun p => !p.2.failed)).map (·.1)

/-! ### The stripe order (R224) -/

/-- Populated ONFI channels, ascending. -/
def flashChans (s : State) : List Nat :=
  s.ftl.targets.foldl (fun l p => sins l (p.1 / 16)) []

/-- Targets of each populated channel. -/
def perChan (s : State) : Nat := s.ftl.targets.length / (flashChans s).length

/-- Target at a place of the stripe order: channel first, then volume. -/
def stripeTarget (s : State) (k : Nat) : Nat :=
  let c := flashChans s
  16 * c.getD (k % c.length) 0 + k / c.length % max 1 (perChan s)

/-- Flash addresses of row `page` of superblock `k`, by position; only members it lacks are skipped (R224). -/
def stripePlaces (s : State) (k page : Nat) : List Nat :=
  let n := s.ftl.targets.length
  ((List.range (n * s.ftl.planes)).map (fun i =>
    let tk := stripeTarget s (i % n)
    (tk, faOf tk (i / n) (memberBlock s tk k) page))).filterMap (fun p =>
      if (sb s k).missing.contains p.1 then none else some p.2)

/-! ### The harvest region's size (R223) -/

/-- harvest_cap in bytes of `n` stripes of which `e` bytes are erased. -/
def capBytes (s : State) (n e : Nat) : Nat :=
  let w := s.ftl.stripeW
  e - (2 * n / 100) * w - s.ftl.headerStripes * w - (cdiv n 1024 + 8) * w

/-- pSLC bytes a stripe of a superblock can take: members it lacks, or whose block is not erased, hold none. -/
def stripeBytes (s : State) (k : Nat) : Nat :=
  ((members s k).filter (fun tk => !(block s (tk * 8192 + memberBlock s tk k)).cleared)).length * s.ftl.planes * 16384

/-- Erased pSLC bytes of the harvest superblocks. -/
def erasedBytes (s : State) : Nat :=
  (sbsOf s .harvest).foldl (fun a k =>
    a + (if (sb s k).clean then (s.ftl.stripesPerSb - (sb s k).used) * stripeBytes s k else 0)) 0

/-- harvest_cap in granules (R223). -/
def harvestCapNow (s : State) : Nat :=
  capBytes s ((sbsOf s .harvest).length * s.ftl.stripesPerSb) (erasedBytes s) / 16384

/-- The translation layer reports harvest_cap; the limit takes it at the next gauge update (R141, R223). -/
def reportCap (s : State) : State := { s with drp := { s.drp with harvestCap := harvestCapNow s } }

/-! ### The granule map (R218) -/

/-- The map entry of a granule; unlisted: KIND 0. -/
def mapEnt (s : State) (g : Nat) : MapEnt := tgetD s.ftl.map g {}

/-- A map with one entry changed. -/
def mapPut (m : Tbl MapEnt) (g : Nat) (e : MapEnt) : Tbl MapEnt := if e == {} then tdel m g else tset m g e

/-- Sets a map entry. -/
def setMap (s : State) (g : Nat) (e : MapEnt) : State := { s with ftl := { s.ftl with map := mapPut s.ftl.map g e } }

/-- An entry names a copy. -/
def hasCopy (e : MapEnt) : Bool := e.kind == 1 || e.kind == 2

/-- Granules whose current copy lies at an address that satisfies `p`. -/
def liveWhere (s : State) (p : Nat → Bool) : List Nat :=
  (s.ftl.map.filter (fun m => hasCopy m.2 && p m.2.addr)).map (·.1)

/-- Live granules of a superblock. -/
def liveOf (s : State) (k : Nat) : List Nat := liveWhere s (fun a => sbOf s a == k)

/-- The 64-bit code of a map entry (Table 7.7). -/
def entryCode (e : MapEnt) : Nat := fld e.kind 62 2 + fld e.gen 54 8 + fld e.addr 18 36

/-- The map entry a 64-bit code spells (Table 7.7). -/
def entryOf (v : Nat) : MapEnt := { kind := bits v 62 2, gen := bits v 54 8, addr := bits v 18 36 }

/-- Key generation of an allotment (R420). -/
def keyGen (s : State) (id : Nat) : Nat := tgetD s.allotx.keyGen id 0

/-! ### Wear (R155, R230) -/

/-- WEAR_OVERDRAWN stands while the bucket is negative (R156). -/
def judgeBucket (s : State) : State :=
  if s.drp.bucket < 0 && !s.drp.overdrawn then
    raiseLive (drew { s with drp := { s.drp with overdrawn := true } }) 0x14A (drawn s % 2 ^ 32)
  else if 0 ≤ s.drp.bucket && s.drp.overdrawn then clearLive { s with drp := { s.drp with overdrawn := false } } 0x14A
  else s

/-- `n` pages programmed: TLC pages count once, pSLC pages three times (R230). -/
def wear (s : State) (n : Nat) (pslc : Bool) : State :=
  let b := n * 16384 * (if pslc then 3 else 1)
  judgeBucket { s with drp := { s.drp with spent := s.drp.spent + b, bucket := s.drp.bucket - b } }

/-! ### The metadata pool (R216, R220) -/

/-- pSLC pages of a superblock. -/
def pslcPages (s : State) (k : Nat) : Nat := (members s k).length * s.ftl.planes * (s.ftl.tlcPages / 3)

/-- The next erased page of the metadata pool: its superblock and address. -/
def metaNext (s : State) : Option (Nat × Nat) :=
  match (sbsOf s .metadata).find? (fun k => (sb s k).clean && decide ((sb s k).used < pslcPages s k)) with
  | none => none
  | some k =>
    let n := (members s k).length * s.ftl.planes
    ((stripePlaces s k ((sb s k).used / n))[(sb s k).used % n]?).map (fun a => (k, a))

/-- A page of the metadata pool is programmed (R220, R230); a pool without an erased page holds it outside the model's
addresses (log entry 118). -/
def putMeta (s : State) (kind idx commit : Nat) (l : List Byte) : State :=
  match metaNext s with
  | none => wear s 1 true
  | some (k, a) =>
    wear (setSb { s with ftl := { s.ftl with pages := tset s.ftl.pages a (devPage s kind idx commit 0xFFFFFFFF (mwriteN [] 0 l)) } }
      k { sb s k with used := (sb s k).used + 1 }) 1 true

/-- Segment of a granule: 2,048 entries, by host granule (log entry 12). -/
def segOf (g : Nat) : Nat := g / 2048

/-- Records that no segment holds yet. -/
def unheld (s : State) (r : JRec) : Bool := r.typ == 1 && decide (tgetD s.ftl.segs (segOf r.subject) 0 < r.seq)

/-- The segment of the oldest record that no segment holds (R220). -/
def oldestSeg (s : State) : Option Nat := (s.ftl.journal.find? (unheld s)).map (fun r => segOf r.subject)

/-- The map as segments and journal leave it: every record newer than its segment's COMMIT applied (R220). -/
def replay (m : Tbl MapEnt) (rs : List JRec) : Tbl MapEnt := rs.foldl (fun m r => mapPut m r.subject (entryOf r.value)) m

/-- A segment is rewritten with its newest record; the journal before the oldest record no segment holds is freed (R220). -/
def writeSeg (s : State) (seg : Nat) : State :=
  let rs := s.ftl.journal.filter (fun r => unheld s r && segOf r.subject == seg)
  let newest := rs.foldl (fun m r => max m r.seq) (tgetD s.ftl.segs seg 0)
  let s := { s with ftl := { s.ftl with segMap := replay s.ftl.segMap rs, segs := tset s.ftl.segs seg newest },
                    hrv := { s.hrv with imageDrip := true } }
  let l := (List.range 2048).flatMap (fun i => le (entryCode (tgetD s.ftl.segMap (2048 * seg + i) {})) 8)
  let s := putMeta s 0x13 seg newest l
  { s with ftl := { s.ftl with journal := s.ftl.journal.dropWhile (fun r => !unheld s r) } }

/-- The journal is kept at most 256 MiB long: the checkpoint writer goes first where it would grow beyond (R220). -/
def trimJournal (s : State) (fuel : Nat) : State :=
  match fuel with
  | 0 => s
  | fuel + 1 =>
    if s.ftl.journal.length * 16 ≤ 268435456 then s
    else match oldestSeg s with
      | some g => trimJournal (writeSeg s g) fuel
      | none => { s with ftl := { s.ftl with journal := [] } }

/-- A page of the metadata pool that is still needed: the newest copy of its segment, or one that holds a record kept. -/
def metaNeeded (s : State) (p : Page) : Bool :=
  if p.kind == 0x13 then tget s.ftl.segs p.gran == some p.commit
  else p.kind == 0x12 && s.ftl.journal.any (fun r => p.commit ≤ r.seq && r.seq < p.commit + 1024)

/-! ### The journal (R218, R219) -/

/-- The 16 bytes of a journal record (Table 7.8). -/
def jrecBytes (r : JRec) : List Byte := le r.subject 4 ++ le r.value 8 ++ le r.typ 2 ++ zeros 2

/-- The journal page being filled is programmed: its records take the next sequences, and granules whose records it
holds may commit. -/
def programJournal (s : State) : State :=
  if s.ftl.jbuf.isEmpty then s
  else
    let n := s.ftl.jbuf.length
    let recs := (List.range n).map (fun i => { (s.ftl.jbuf.getD i {}) with seq := s.ftl.commitSeq + 1 + i })
    let seqOf := fun (p : Prog) => match p.addr with
      | some a => (recs.find? (fun r => r.typ == 1 && r.subject == p.gran && r.value / 2 ^ 18 % 2 ^ 36 == a)).map (·.seq)
      | none => none
    let first := s.ftl.commitSeq + 1
    let s := { s with
      ftl := { s.ftl with
        jbuf := [], jbufAt := none, journal := s.ftl.journal ++ recs, commitSeq := s.ftl.commitSeq + n,
        progs := s.ftl.progs.map (fun p => if p.seq.isSome then p else { p with seq := seqOf p }) },
      ldg := { s.ldg with
        journaled := recs.foldl (fun t r => if r.typ == 5 then tset t r.subject r.value else t) s.ldg.journaled } }
    trimJournal (putMeta s 0x12 0 first (recs.flatMap jrecBytes)) 1024

/-- A journal record; a full page of 1,024 is programmed, but in HARVESTING, where journal pages stop (R215, R218). -/
def journal (s : State) (typ subject value : Nat) : State :=
  let s := { s with ftl := { s.ftl with
    jbuf := s.ftl.jbuf ++ [{ typ := typ, subject := subject, value := value, born := s.now }],
    jbufAt := some (s.ftl.jbufAt.getD s.now) } }
  if 1024 ≤ s.ftl.jbuf.length && s.dev.state != .harvesting then programJournal s else s

/-- A change of the map with its journal record (R218). -/
def changeMap (s : State) (g : Nat) (e : MapEnt) : State := journal (setMap s g e) 1 g (entryCode e)

/-- SUBJECT of a block (Table 7.8). -/
def blkSubject (b : Nat) : Nat := fld (b / 8192 / 16) 27 5 + fld (b / 8192) 23 4 + b % 8192

/-- Code of a role in a journal record; the manual names the field, not its codes: those of Table 7.6 in order (log
entry 12). -/
def roleCode : BlockRole → Nat
  | .tlcFree => 0 | .tlcOpen => 1 | .tlcFull => 2 | .harvest => 3 | .folding => 4 | .metadata => 5 | .sealBlk => 6
  | .rehearsal => 7 | .spare => 8 | .retired => 9

/-- The role of one block is journaled (R216, Table 7.8). -/
def journalRole (s : State) (b : Nat) (r : BlockRole) : State := journal s 3 (blkSubject b) (roleCode r)

/-- A superblock changes role; the change is journaled for each member block (R216, R218). -/
def setRole (s : State) (k : Nat) (r : BlockRole) : State :=
  (members s k).foldl (fun s tk => journalRole s (tk * 8192 + memberBlock s tk k) r) (setSb s k { sb s k with role := r })

/-! ### The seal locations (R222) -/

/-- Key of the block a location uses, or of its other one. -/
def sealBlock (l : SealLoc) (other : Bool) : Nat := l.tgt * 8192 + (if l.cur != other then l.blkB else l.blkA)

/-- A location on a target: two of its spares become seal blocks (R217, R222). -/
def takeSealBlocks (s : State) (tk : Nat) : State × SealLoc :=
  let x := tgetD s.ftl.targets tk {}
  let a := nthGood x.bad (x.good - x.spares)
  let b := nthGood x.bad (x.good - x.spares + 1)
  let s := { s with ftl := { s.ftl with targets := tset s.ftl.targets tk { x with spares := x.spares - 2 } } }
  let s := setBlock (setBlock s (tk * 8192 + a) { role := some .sealBlk }) (tk * 8192 + b) { role := some .sealBlk, cleared := true }
  (journalRole (journalRole s (tk * 8192 + a) .sealBlk) (tk * 8192 + b) .sealBlk, { tgt := tk, blkA := a, blkB := b })

/-- The programmed seal pages of a location's two blocks. -/
def sealPages (s : State) (l : SealLoc) : List Page :=
  (s.ftl.pages.filter (fun p => p.2.kind == 0x14 && (blkKey p.1 == sealBlock l false || blkKey p.1 == sealBlock l true))).map (·.2)

/-- A location takes a seal copy: the next erased page of the block in use, or, when that is full, the first page of the
other one, which is erased for it (R222). -/
def sealCopy (s : State) (l : SealLoc) (p : Page) : State × SealLoc :=
  if l.used < s.ftl.tlcPages / 3 then
    ({ s with ftl := { s.ftl with pages := tset s.ftl.pages (faOf l.tgt 0 (sealBlock l false % 8192) l.used) p } },
     { l with used := l.used + 1 })
  else
    let b := sealBlock l true
    let x := block s b
    let s := setBlock s b { x with cleared := false, reads := 0, sticky := 0, erases := min 65535 (x.erases + 1) }
    (journal { s with ftl := { s.ftl with
        pages := tset (s.ftl.pages.filter (fun q => blkKey q.1 != b)) (faOf l.tgt 0 (b % 8192) 0) p } } 2 (blkSubject b) 0,
     { l with cur := !l.cur, used := 1 })

/-- The locator is rewritten: both sectors of its pairs (R221). -/
def locatorWrite (s : State) : State := pairWrite (pairWrite s 6) 7

/-- The program of a seal copy at location `i` failed: its block retires, a spare takes its place, and the location goes on
with its other block (R213, R222). -/
def sealFailed (s : State) (i : Nat) : State :=
  match s.ftl.sealLocs[i]? with
  | none => s
  | some l =>
    let b := sealBlock l false
    let x := tgetD s.ftl.targets l.tgt {}
    let s := setBlock s b { role := some .retired, cleared := true, erases := (block s b).erases }
    let s := { s with ftl := { s.ftl with grown := min 0xFFFF (s.ftl.grown + 1) } }
    let s := journal (logEvent s 0x205 (b / 8192) 0) 4 (blkSubject b) (roleCode .retired)
    let k := nthGood x.bad (x.good - x.spares)
    let (s, k) := if x.spares == 0 then (s, b % 8192) else
      (journalRole (setBlock { s with ftl := { s.ftl with targets := tset s.ftl.targets l.tgt { x with spares := x.spares - 1 } } }
        (l.tgt * 8192 + k) { role := some .sealBlk, cleared := true }) (l.tgt * 8192 + k) .sealBlk, k)
    let l := if l.cur then { l with blkB := k } else { l with blkA := k }
    locatorWrite { s with ftl := { s.ftl with sealLocs := s.ftl.sealLocs.set i { l with used := s.ftl.tlcPages / 3 } } }

/-- Both copies of a seal are written: it is in force, and it closes the run (R179, R180). META_ADDR is the address of the
metadata, a free value where the manual names no place for it (log entry 8). -/
def placeSeal (s : State) (a : Seal) (addr : Option Nat) : State :=
  let a := sealPop s { a with seq := sealSeq s + 1, metaAddr := addr.getD (drawn s) }
  let a := { a with tag := sealTagOf (sealBytes a) }
  let p := { devPage s 0x14 0 0 0xFFFFFFFF (mwriteN [] 0 (sealBytes a ++ a.tag)) with sealSeq := a.seq }
  let (s, locs) := s.ftl.sealLocs.foldl (fun (x : State × List SealLoc) l =>
    let y := sealCopy x.1 l p
    (y.1, x.2 ++ [y.2])) (drew s, [])
  { s with ftl := { s.ftl with sealLocs := locs },
           hrv := { s.hrv with seals := (a :: s.hrv.seals).take 4, runOpen := false, loss := none } }

/-- The newest seal page of a location. -/
def newestSeal (s : State) (l : SealLoc) : Option Page :=
  (sealPages s l).foldl (fun m p => match m with | some q => if q.sealSeq < p.sealSeq then some p else m | none => some p) none

/-- The seal in force at a start: of the locations whose copy was read (`ok`) and verifies, the one of higher SEAL_SEQ (R179,
R222). -/
def sealFound (s : State) (ok : List Bool) : Option Seal :=
  let good := (s.ftl.sealLocs.zip ok).filterMap (fun l =>
    if l.2 then (newestSeal s l.1).bind (fun p => if sealVerifies p then some p.sealSeq else none) else none)
  if good.isEmpty then none
  else s.hrv.seals.find? (fun a => a.seq == good.foldl max 0)

end Sys2Proof.Machine
end

