-- ==== Sys2Proof/Machine/Embedded.lean ====
section
/-! DEFINITION. The embedded flash's events, readout protection, late status, and the identity commands (chapters 2
and 12). -/

namespace Sys2Proof.Machine

open Sys2Proof

/-! ### Ends of embedded-flash operations (R340–R346) -/

/-- Operations of the banks, running, suspended or waiting. -/
def nvmOps (s : State) : List NvmOp :=
  s.nvm.opA.toList ++ s.nvm.opB.toList ++ s.nvm.suspA.toList ++ s.nvm.suspB.toList ++ s.nvm.queue

/-- A record program is under way or waits. -/
def recordOps (s : State) : Bool := (nvmOps s).any (fun o => o.what == .record)

/-- A program ended well. -/
def programOk (s : State) (o : NvmOp) : State :=
  match o.what with
  | .fwData id _ =>
    if unitsErased s o.addr o.data.length then endOk (programUnits s o.addr o.data) id []
    else endWith (bump s rNvmErr 4 4 1) id 0x06 0
  | .pair n => if n == 2 then nonceStored (storePair s n) else storePair s n
  | .fwState => fwStored s
  | _ => s

/-- A program failed: a record is written again into the next erased slot (LOG_WRITE_FAIL, R377); other records are
written again; staged firmware units are left uncorrectable and the command ends with FAILED_CONTAINED (log
entry 42). -/
def programFail (s : State) (o : NvmOp) : State :=
  match o.what with
  | .fwData id _ =>
    endWith { s with nvm := { s.nvm with cutUnits :=
      (List.range (cdiv o.data.length 16)).foldl (fun l i => sins l (o.addr + 16 * i)) s.nvm.cutUnits } } id 0x08 0
  | .record =>
    let s := match logPlace s 7 with
      | (s', some k, _) => nvmPost s' { o with addr := logSectorAddr k + 256 * (s'.log.fill - 1) }
      | (s', none, _) => s'
    raiseOpen s 0x1F2
  | _ => nvmPost s o

/-- NVM_PROGRAM_DONE (R340, R341, R344): the program a bank runs ends; the bank goes on with what waits. -/
def execNvmProgramDone (bank : Nat) (ok : Bool) (t : Nat) (s : State) : Host.Outcome State Fault Refusal :=
  let s := tick s t
  let b := bank % 2
  .next (match bankOp s b with
    | some o =>
      if o.erase then s
      else
        let s := setBankOp s b none
        let s := if ok then programOk s o else programFail s o
        let s := { s with log := { s.log with writing := recordOps s } }
        nvmKick s b
    | none => s)

/-- Everything the parameter and main sectors hold is gone (R351 steps 2 and 3). -/
def eraseAllSectors (s : State) : State :=
  { s with
    nvm := { s.nvm with
      units := [], cutUnits := [], store := {}, prev := {}, pairSec := [], pairUsed := [], unsure := [], checked := [], confSaved := [], confPending := [], confSaving := [], startArea := 0, startUsed := 0,
      lsErased := [true, true], opA := none, opB := none, suspA := none, suspB := none, queue := [] },
    gau := { s.gau with learned := {}, rSaved := List.replicate 8 0, ocv := [], kTempCurve := [], kAgeCurve := [] },
    exl := { s.exl with paired := false, peerRec := 0, secret := 0, sessNext := 0, reserved := [] },
    psq := { s.psq with nextTable := some {} },
    flt := { s.flt with image := none, imageVersion := 0 },
    drp := { s.drp with policy := {} },
    ftl := { s.ftl with retryTable := none, popRec := none, locatorOk := false },
    hrv := { s.hrv with plan := [], order := [], runOpen := false, loss := none },
    krc := { s.krc with labels := [] },
    fwu := { s.fwu with a := {}, b := {}, active := none, failedBoots := 0, phase := 0, epoch := none, staging := none,
                        recA := {}, recB := {}, recActive := none, recBoots := 0, recArea := 0, recRows := 0 },
    trl := { s.trl with late := [], lateOverflow := false },
    log := { s.log with
      recs := [], sector := 0, fill := 0, freeSectors := (List.range 127).map (· + 1), stopped := none, clearing := none } }

/-- The erase of every parameter and main sector begins, both banks in parallel, ahead of any other flash use (R351 steps 2
and 3). -/
def lowerErase (s : State) : State :=
  let op := fun (b : Nat) => ({ agent := 0, erase := true, addr := b * 0x01000000, what := .lowering } : NvmOp)
  nvmPost (nvmPost (eraseAllSectors s) (op 0)) (op 1)

/-- Both banks are erased: RDP_LEVEL 0, and no erase pending (R351 step 4). -/
def lowered (s : State) : State := optionSet s { s.nvm.shadow with rdp := 0, erasePending := false }

/-- What an erase completes. -/
def eraseEnd (s : State) (o : NvmOp) : State :=
  match o.what with
  | .lateSlot k => { s with nvm := { s.nvm with lsErased := s.nvm.lsErased.set k true } }
  | .logSector k =>
    let gone := (s.log.recs.filter (fun r => r.sector == k)).length
    let s := { s with log := { s.log with recs := s.log.recs.filter (fun r => r.sector != k) } }
    if s.log.clearing.isSome then
      let s := { s with log := { s.log with erased := s.log.erased + gone } }
      if (nvmOps s).any (fun q => match q.what with | .logSector _ => true | _ => false) then s else endLogClear s
    else { s with log := { s.log with freeSectors := s.log.freeSectors ++ [k] } }
  | .fwErase b last =>
    let s := eraseUnits s o.addr 65536
    if last then endSlotErase s b else s
  | .lowering => if (nvmOps s).any (fun q => q.what == .lowering) then s else lowered s
  | _ => s

/-- Sectors that an erase covers: both of a late-status slot, else the one of its address. -/
def erasedSectors (o : NvmOp) : List Nat :=
  match o.what with
  | .lateSlot k => [mainSector k 224, mainSector k 225]
  | _ => [sectorOf o.addr]

/-- A finished erase leaves its sectors blank (R348). -/
def sectorBlank (s : State) (o : NvmOp) : State :=
  { s with nvm := { s.nvm with
      unsure := s.nvm.unsure.filter (fun a => !(erasedSectors o).contains a), checked := (erasedSectors o).foldl sins s.nvm.checked } }

/-- NVM_ERASE_DONE (R340, R344). -/
def execNvmEraseDone (bank t : Nat) (s : State) : Host.Outcome State Fault Refusal :=
  let s := tick s t
  let b := bank % 2
  .next (match bankOp s b with
    | some o => if o.erase then nvmKick (eraseEnd (sectorBlank (setBankOp s b none) o) o) b else s
    | none => s)

/-- NVM_ERASE_RESUME (R345, R346): with no program of a higher agent left, the suspended erase runs on. -/
def execNvmEraseResume (bank t : Nat) (s : State) : Host.Outcome State Fault Refusal :=
  let s := tick s t
  let b := bank % 2
  .next (match bankSusp s b with
    | some e =>
      if (bankOp s b).isSome || s.nvm.queue.any (fun o => nvmBank o == b && canRun s o) then s
      else
        let s := setBankOp (setBankSusp s b none) b (some e)
        { s with nvm := { s.nvm with resumed := tset s.nvm.resumed b s.now } }
    | none => s)

/-! ### Readout protection (R350, R351) -/

/-- A write of NVM_RDP that does not meet the rules: ignored, and logged as RDP_REFUSED with the level asked for. -/
def rdpRefused (s : State) (target : Nat) : State := logEvent s 0x20A target 0

/-- The lowering of readout protection begins: step 1 of R351 with the floor of R354, then the erase. -/
def rdpLower (s : State) : State :=
  lowerErase (optionSet s { s.nvm.shadow with nonceFloor := s.krc.nonceEnd + 2 ^ 24, erasePending := true })

/-- A write of NVM_RDP (R350, R351): raised from 0 to 1, lowered from 1 to 0, or ignored and logged. -/
def rdpWrite (a : RegAcc) (v : Nat) (s : State) : State :=
  let target := v % 4
  let sure := bits v 16 16 == 0x5A5A
  let calm := match s.dev.state with | .shelf | .latched => true | _ => false
  if sure && target == 1 && rdpLevel s == 0 && a.full then optionWrite s { s.nvm.shadow with rdp := 1 }
  else if sure && target == 0 && rdpLevel s == 1 && rdpFloor s == 0 && calm && viaMctp a.path && issClass a.issuer == 2 then
    rdpLower s
  else rdpRefused s target

/-- RDP_RAISE (R350): a write of NVM_RDP with TARGET 1. -/
def execRdpRaise (a : RegAcc) (v t : Nat) (s : State) : Host.Outcome State Fault Refusal :=
  let s := tick s t
  .next (if s.dev.state == .off then s else rdpWrite a v s)

/-- RDP_LOWER (R351): a write of NVM_RDP with TARGET 0. -/
def execRdpLower (a : RegAcc) (v t : Nat) (s : State) : Host.Outcome State Fault Refusal :=
  let s := tick s t
  .next (if s.dev.state == .off then s else rdpWrite a v s)

/-! ### Late status (R60, R61) -/

/-- Entries of a group visible to an issuer: not released, and its own for a host (R61). -/
def lateView (issuer : Nat) (g : LateGroup) : List LateEntry :=
  g.entries.filter (fun e => !e.released && (issClass issuer != 0 || e.issuer == issuer))

/-- Marks the first `n` entries of an issuer's view released; `soft`: in SRAM only, no release unit being left (R355). -/
def releaseFirst (issuer n : Nat) (soft : Bool) (l : List LateEntry) : List LateEntry :=
  match l, n with
  | e :: r, k + 1 =>
    if !e.released && (issClass issuer != 0 || e.issuer == issuer) then
      { e with released := true, soft := soft } :: releaseFirst issuer k soft r
    else e :: releaseFirst issuer (k + 1) soft r
  | l, _ => l

/-- A release programs one of the 3,072 release units of its slot; beyond them it is kept in SRAM only (R355). -/
def releaseUnit (s : State) (g : LateGroup) : State :=
  if 3072 ≤ g.units then s
  else nvmPost s { agent := 2, erase := false, addr := mainSector g.slot 224 + 0x14000 + 16 * g.units }

/-- Frees a group whose entries are all released; its slot is erased in the background (R61, R355). -/
def freeLate (s : State) (slot : Nat) : State :=
  match s.trl.late.find? (fun g => g.slot == slot) with
  | some g =>
    if g.entries.all (·.released) then
      let late := s.trl.late.filter (fun g => g.slot != slot)
      nvmPost { s with trl := { s.trl with late := late, lateOverflow := s.trl.lateOverflow && !late.isEmpty } }
        { agent := 6, erase := true, addr := mainSector slot 224, what := .lateSlot slot }
    else s
  | none => s

/-- LATE_STATUS_FETCH (R61, Table 2.8). DESIGN CHOICE (log entry 108): the FLAGS of a release show the store as it was
before the release. -/
def cmdLateStatusFetch (f : InFlight) (s : State) : State :=
  let c := f.cmd
  let start := pNum c 28 4
  let groups := s.trl.late.filter (fun g => !(lateView c.est g).isEmpty)
  let lost := b2n s.trl.lateOverflow
  if 1 < pByte c 24 then badParam s f.id 24
  else if c.payLen % 32 != 0 || c.payLen < 32 then badParam s f.id 0x40
  else match groups with
    | [] => endOk s f.id (le 0 4 ++ le 0 4 ++ le 0 4 ++ le lost 1)
    | g :: more =>
      let v := lateView c.est g
      let flags := lost + fld (b2n (decide (g.entries.length < g.count))) 1 1 + fld (b2n (!more.isEmpty)) 2 1
      if pByte c 24 == 0 then
        let sel := (v.drop start).take (min (pNum c 32 4) (c.payLen / 32))
        endOut s f.id (le sel.length 4 ++ le (v.length - start - sel.length) 4 ++ le g.powerCycle.toNat 4 ++ le flags 1)
          (padTo (sel.flatMap (fun e => replyBytes e.reply)) c.payLen)
      else
        let s := { s with trl := { s.trl with late := s.trl.late.map (fun h =>
          if h.slot == g.slot then
            { h with entries := releaseFirst c.est start (decide (3072 ≤ g.units)) h.entries, units := min 3072 (g.units + 1) }
          else h) } }
        endOk (freeLate (releaseUnit s g) g.slot) f.id (le 0 4 ++ le (v.length - start) 4 ++ le g.powerCycle.toNat 4 ++ le flags 1)

/-- LATE_STATUS_FETCH as a packet. -/
def execLateStatusFetch (c : TrellisCmd) (s : State) : Host.Outcome State Fault Refusal :=
  .next (submit cmdLateStatusFetch 0x0C00 c s)

/-! ### Identity (R62) -/

/-- ECHO (R62). -/
def cmdEcho (f : InFlight) (s : State) : State := endOk s f.id (padTo (f.cmd.params.take 16) 16)

/-- Version of the management processor image: that of the active slot. -/
def fwVersion (s : State) : Nat := match activeSlot s with | some a => a.version | none => 0

/-- IDENTIFY (R62). -/
def cmdIdentify (f : InFlight) (s : State) : State :=
  endOk s f.id (le s.fus.part 2 ++ le 0xB1 1 ++ le 0x01 1 ++ le (fwVersion s) 4 ++ le s.dev.state.code 1 ++ zeros 3
    ++ le 0x00034A71 4)

/-- ECHO as a packet. -/
def execEcho (c : TrellisCmd) (s : State) : Host.Outcome State Fault Refusal := .next (submit cmdEcho 0x0001 c s)

/-- IDENTIFY as a packet. -/
def execIdentify (c : TrellisCmd) (s : State) : Host.Outcome State Fault Refusal := .next (submit cmdIdentify 0x0002 c s)

/-! ### Registers -/

/-- OP_A and OP_B of NVM_STATUS. -/
def opCode (s : State) (b : Nat) : Nat :=
  match bankOp s b, bankSusp s b with
  | _, some _ => 3
  | some o, none => if o.erase then 2 else 1
  | none, none => 0

/-- NVM registers whose value the state's own fields give. -/
def viewEmbedded (s : State) (c : Nat) : Option Nat :=
  if c == rNvmStatus then
    some (fld (opCode s 0) 30 2 + fld (opCode s 1) 28 2 + fld (b2n s.nvm.bod) 27 1 + fld s.nvm.optCopy 26 1
      + fld (b2n s.nvm.optLost) 25 1 + fld s.nvm.startArea 24 1
      + fld (b2n (s.nvm.lsErased.getD 0 false) + 2 * b2n (s.nvm.lsErased.getD 1 false)) 22 2)
  else if c == rNvmRdp then
    some (fld (rdpFloor s) 8 2 + fld (rdpLevel s) 4 2 + fld (b2n s.nvm.shadow.erasePending) 3 1)
  else none

end Sys2Proof.Machine
end

