-- ==== Sys2Proof/Machine/Rails.lean ====
section
/-! DEFINITION. The rail sequencer and the rail monitors: power-up, power-down, running-rail faults, domains, slave
sequencers and their commands (chapter 11). -/

namespace Sys2Proof.Machine

open Sys2Proof

/-! ### Off requests that end with the entry to RAILS_DOWN (R58, R337) -/

/-- PSQ_DOMAIN.STATE of a domain. -/
def domainState (s : State) (d : Nat) : Nat := tgetD s.psq.domains d 0

/-- Result of a POWER_STATE_REQ: exposure at admission, domain state, elapsed ms (R337). -/
def powerResult (s : State) (id : Nat) : List Byte :=
  match inflight s id with
  | some f =>
    let e := match f.job with | .off x => x | .domain _ _ _ x => x | _ => exposure s
    le e 4 ++ le (domainState s (pByte f.cmd 25)) 1 ++ zeros 3 ++ le ((s.now - f.since) / 1000) 4
  | none => []

/-- Ends a POWER_STATE_REQ with a status. -/
def endPower (s : State) (id status detail : Nat) : State :=
  finish s id { status := status, detail := detail, result := powerResult s id }

/-- The off commands that wait end with OK as part of the entry to RAILS_DOWN. -/
def endOffCmds (s : State) : State :=
  let ids := s.psq.offCmds ++ (match s.psq.offRun with | some r => r.cmds | none => [])
  ids.foldl (fun s id => finishNow s id { result := powerResult s id }) s

/-- Enters RAILS_DOWN; SHELF with the input good goes on to WAKING (R23, R324, R337). -/
def toRailsDown (s : State) (c : Cause) : State := settle (enterRailsDown (endOffCmds s) c []) .inputGood

/-! ### Power-up (R322) -/

/-- Used slots of the table in force. -/
def usedSlots (s : State) : List Nat := (List.range 24).filter (fun n => (railSlot s n).cls != 0)

/-- Every prerequisite of a slot is good. -/
def prereqGood (s : State) (n : Nat) : Bool := (bitsOf (railSlot s n).prereq 24).all (fun m => s.psq.good.contains m)

/-- DELAY_US has passed since the last of a slot's prerequisites came good (R322). -/
def delayOver (s : State) (n : Nat) : Bool :=
  (bitsOf (railSlot s n).prereq 24).all (fun m => decide (tgetD s.psq.goodAt m 0 + (railSlot s n).delay ≤ s.now))

/-- A slot may be enabled: used, off, its prerequisites good for its delay. -/
def mayEnable (s : State) (n : Nat) : Bool :=
  (railSlot s n).cls != 0 && !s.psq.on.contains n && !s.psq.off.contains n && prereqGood s n && delayOver s n

/-- No enabled slot is still ramping (R322). -/
def noneRamping (s : State) : Bool := s.psq.on.all (fun n => s.psq.good.contains n)

/-- Every harvest-essential and main slot is good, under a loaded table (R321, R322). -/
def railsUp (s : State) : Bool :=
  !s.psq.table.builtin && (usedSlots s).all (fun n =>
    (railSlot s n).cls == 3 || s.psq.good.contains n)

/-- Raises the enable of a slot: ENAn or its privileged output, and SEQ_ENABLE to its slave (R318, R334). -/
def enableSlot (s : State) (n : Nat) : State :=
  let r := railSlot s n
  let s := { s with psq := { s.psq with
    on := sins s.psq.on n, onAt := tset s.psq.onAt n s.now, packEn := s.psq.packEn || (r.cls == 3 && !r.nand), nandEn := s.psq.nandEn || (r.cls == 3 && r.nand) } }
  if r.slave then slaveStep s (s.psq.table.slaves.getD r.slaveIdx 0) 0xD0 r.slaveCh n else s

/-- A good slot placed in the order of power-down: last that came good first, slots of one instant in descending
number (R323). -/
def goodInsert (ats : Tbl Nat) (now n : Nat) (l : List Nat) : List Nat :=
  match l with
  | [] => [n]
  | m :: r => if tgetD ats m 0 == now && n < m then m :: goodInsert ats now n r else n :: m :: r

/-- Marks a slot good. -/
def markGood (s : State) (n : Nat) : State :=
  { s with psq := { s.psq with
      good := goodInsert s.psq.goodAt s.now n s.psq.good, goodAt := tset s.psq.goodAt n s.now, lastGood := n } }

/-- Enters TRAINING (Table 1.6): the die-to-die link is up, the pads are powered, the HELD record is cleared and what
it held serves the training under way (R191). -/
def enterTraining (s : State) : State :=
  let s := setDev s .training .progress
  { s with
    psq := { s.psq with phase := 0 },
    pin := { s.pin with padOn := true, drst := if s.hrv.heldRec.isSome then s.pin.drst else [] },
    d2d := { s.d2d with up := true },
    hrv := { s.hrv with warmRec := s.hrv.heldRec, heldRec := none, trainStep := 1 },
    cxl := { s.cxl with ports := (List.range (nPorts s)).foldl (fun t p =>
      tmod t p {} (fun x => if cfg s (regAt rCxlCfg p) 31 1 == 1 then { x with link := 1 } else { x with link := 3 })) s.cxl.ports } }

/-- What follows in RAILS_UP when a slot is good or the state is entered: a rail checkpoint acts on a latched off
request; all needed rails good end for TRAINING (R322, Table 11.6). -/
def railsStep (s : State) : State :=
  if s.dev.state != .railsUp then s
  else match s.psq.offPending with
    | some c => if noneRamping s then toRailsDown s c else s
    | none => if railsUp s then enterTraining s else s

/-- Enters RAILS_UP: slot 00 judged good, HOLD slots still on count as good from its start, the fuse shadow is loaded (R322,
R478). -/
def enterRailsUp (s : State) : State :=
  let s := setDev s .railsUp .progress
  let hold := (List.range 24).reverse.filter (fun n => s.psq.good.contains n && n != 0 && (railSlot s n).hold)
  railsStep { s with
    psq := { s.psq with phase := 1, on := hold.foldl sins [0], good := hold ++ [0], off := [],
                        goodAt := (hold ++ [0]).foldl (fun t n => tset t n s.now) [], lastGood := 0 },
    fus := { s.fus with shadow := true, word0 := BitVec.ofNat 32 (fuseWord0 s) } }

/-! ### Domains (R332, R333, R336) -/

/-- Slots of a domain. -/
def domainSlots (s : State) (d : Nat) : List Nat := (usedSlots s).filter (fun n => (railSlot s n).domain == d && d != 0)

/-- Good slots of a domain, in disable order. -/
def domainGood (s : State) (d : Nat) : List Nat := s.psq.good.filter (fun n => (railSlot s n).domain == d)

/-- Sets the state of a domain. -/
def setDomain (s : State) (d v : Nat) : State := { s with psq := { s.psq with domains := tset s.psq.domains d v } }

/-- The owner steps a domain switch: RAILSEQ in host-assisted mode (R336). -/
def hostSteps (s : State) : Bool := assisted s 3

/-- Starts a domain switch: 3 switching on, 2 switching off; in hardware mode a switch-off disables its first slot at
once (R323). -/
def startSwitch (s : State) (d : Nat) (on : Bool) (cmds : List Nat) : State :=
  let s := setDomain { s with psq := { s.psq with
    sw := some { domain := d, on := on, cmds := cmds, since := s.now, hostWait := hostSteps s }, stepped := [], phase := 5 } }
    d (if on then 3 else 2)
  if on || hostSteps s then s
  else match domainGood s d with
    | n :: _ => disableSlot s n
    | [] => s

/-- The switch under way has reached its end. -/
def switchDone (s : State) (w : DomSw) : Bool :=
  if w.on then (domainSlots s w.domain).all (fun n => s.psq.good.contains n)
  else (domainSlots s w.domain).all (fun n => !s.psq.on.contains n && !s.psq.off.contains n)

/-- Ends the switch under way when it is done: its commands end with OK; an enable held for the domain runs, else the
next waiting switch (R333). The pending switch of RAILSEQ finds its quiescent point (Table 2.10). -/
def switchStep (s : State) : State :=
  match s.psq.sw with
  | none => s
  | some w =>
    if !switchDone s w then s
    else
      let s := setDomain s w.domain (if w.on then 1 else 0)
      let s := w.cmds.foldl (fun s id => endPower s id 0 0) { s with psq := { s.psq with sw := none, stepped := [], phase := 0 } }
      let mine := (s.psq.heldEn.filter (fun p => p.1 == w.domain)).map (·.2)
      if !w.on && !mine.isEmpty then
        startSwitch { s with psq := { s.psq with heldEn := s.psq.heldEn.filter (fun p => p.1 != w.domain) } } w.domain true mine
      else match s.psq.swQueue with
        | (d, on, id) :: r => startSwitch { s with psq := { s.psq with swQueue := r } } d on [id]
        | [] => s

/-- Asks for a domain switch (R332, R333). -/
def askDomain (s : State) (d : Nat) (on : Bool) (id : Nat) : State :=
  match domainState s d, on with
  | 1, true => endPower s id 0 0
  | 0, false => endPower s id 0 0
  | 2, true => { s with psq := { s.psq with heldEn := s.psq.heldEn ++ [(d, id)] } }
  | 2, false =>
    let ids := (s.psq.heldEn.filter (fun p => p.1 == d)).map (·.2)
    let s := { s with psq := { s.psq with
      heldEn := s.psq.heldEn.filter (fun p => p.1 != d),
      sw := s.psq.sw.map (fun w => if w.domain == d then { w with cmds := w.cmds ++ [id] } else w) } }
    ids.foldl (fun s i => endPower s i 0x0E 0x10) s
  | 3, true => { s with psq := { s.psq with sw := s.psq.sw.map (fun w => if w.domain == d then { w with cmds := w.cmds ++ [id] } else w) } }
  | _, _ =>
    if s.psq.sw.isSome then { s with psq := { s.psq with swQueue := s.psq.swQueue ++ [(d, on, id)] } }
    else switchStep (startSwitch s d on [id])

/-- A ramp timeout in a domain switch-on: the domain is switched off again, RAIL_DOMAIN_FAIL is raised and the commands
end with FAILED_CONTAINED (R332). -/
def domainFail (s : State) (w : DomSw) : State :=
  let ramping := (domainSlots s w.domain).filter (fun n => s.psq.on.contains n && !s.psq.good.contains n)
  let s := w.cmds.foldl (fun s id => endPower s id 0x08 0) s
  let s := raiseOpen s 0x18B
  switchStep (startSwitch (ramping.foldl disableSlot s) w.domain false [])

/-! ### Steps of the sequencer -/

/-- A slot of the domain switch under way may step now: named by the owner in host-assisted mode. -/
def mayStep (s : State) (w : DomSw) (n : Nat) : Bool :=
  (railSlot s n).domain == w.domain && (!hostSteps s || s.psq.stepped.contains n)

/-- A privileged slot, which RAILS_UP does not wait for, still comes up after it (R322). -/
def lateSlot (s : State) (n : Nat) : Bool := (railSlot s n).cls == 3 && (s.dev.state == .training || serving s)

/-- SLOT_ENABLE (R322, R332). -/
def execSlotEnable (n t : Nat) (s : State) : Host.Outcome State Fault Refusal :=
  let s := tick s t
  .next (if !mayEnable s n then s
    else if s.dev.state == .railsUp || lateSlot s n then enableSlot s n
    else match s.psq.sw with
      | some w => if w.on && mayStep s w n then enableSlot s n else s
      | none => s)

/-- SLOT_GOOD (R322): a ramping slot has stayed inside its window for GLITCH_US and comes good; perhaps a rail checkpoint, the
end of RAILS_UP or of a domain switch. -/
def execSlotGood (n t : Nat) (s : State) : Host.Outcome State Fault Refusal :=
  let s := tick s t
  .next (if !s.psq.on.contains n || s.psq.good.contains n || s.now < tgetD s.psq.onAt n 0 + (railSlot s n).glitch then s
    else
      let s := markGood s n
      let d := (railSlot s n).domain
      let s := if s.psq.sw.isNone && d != 0 && (domainSlots s d).all (fun m => s.psq.good.contains m) then setDomain s d 1 else s
      if s.dev.state == .railsUp then railsStep s else switchStep s)

/-- Notes the first rail fault since the cold-frame start (PSQ_FAULT). -/
def noteFault (s : State) (kind slot code : Nat) (scan : Bool) : State :=
  if s.psq.faultKind != 0 then s
  else { s with psq := { s.psq with faultKind := kind, faultSlot := slot, faultState := s.dev.state.code, faultScan := scan, faultCode := code % 1024 } }

/-- A fault with a free detail and a cause of its own for the transition it makes (log entry 38). -/
def raiseCause (s : State) (n : Nat) (c : Cause) : State := raiseAs (drew s) n (drawn s % 2 ^ 32) false c

/-- RAIL_RAMP (R322, R332): a slot still ramping at its ramp timeout. The source slot of a rehearsal counts as a power
fail instead (R312). -/
def execRailRamp (n t : Nat) (s : State) : Host.Outcome State Fault Refusal :=
  let s := tick s t
  .next (if !s.psq.on.contains n || s.psq.good.contains n || s.now < tgetD s.psq.onAt n 0 + 10 * (railSlot s n).ramp then s
    else match s.psq.sw.filter (fun w => w.on && (railSlot s n).domain == w.domain) with
      | some w => domainFail s w
      | none =>
        if s.dev.state == .railsUp || lateSlot s n then
          raiseCause (noteFault s 3 n (tgetD s.psq.codes n 0) true) 0x188 .fatal
        else if serving s && (railSlot s n).domain == 0 then notice (enterHarvesting s .powerFail []) 0 false
        else s)

/-- What follows when a slot is off: the stage moves on, or stage H has ended (R323, R324, R331). -/
def afterOff (s : State) : State :=
  match s.psq.sw with
  | some w => if w.on then s else switchStep s
  | none =>
    if s.psq.phase < 2 || 4 < s.psq.phase then s
    else if !s.psq.off.isEmpty || !(stageSlots s s.psq.phase).isEmpty then s
    else
      let s := nextStage s s.psq.stages
      if s.dev.state == .railsDown && s.psq.good.isEmpty && s.psq.off.isEmpty then settle (endRails s) .inputGood else s

/-- The next slot the sequencer disables: of the stage, or of the domain that switches off. -/
def nextOff (s : State) : Option Nat :=
  match s.psq.sw with
  | some w =>
    if w.on then none
    else if hostSteps s then (domainGood s w.domain).find? (fun n => s.psq.stepped.contains n) else (domainGood s w.domain).head?
  | none => if 2 ≤ s.psq.phase && s.psq.phase ≤ 4 then (stageSlots s s.psq.phase).head? else none

/-- SLOT_DISABLE (R323): DELAY_US after the slot before it is off. -/
def execSlotDisable (n t : Nat) (s : State) : Host.Outcome State Fault Refusal :=
  let s := tick s t
  .next (if s.psq.off.isEmpty && nextOff s == some n && decide (s.psq.lastOffAt + (railSlot s n).delay ≤ s.now) then
    afterOff (disableSlot s n) else s)

/-- A disabled slot is off, or counts as off. -/
def slotIsOff (s : State) (n : Nat) : State := { s with psq := { s.psq with off := sdel s.psq.off n, lastOffAt := s.now } }

/-- SLOT_OFF (R323): a disabled slot has fallen below UV ÷ 4. -/
def execSlotOff (n t : Nat) (s : State) : Host.Outcome State Fault Refusal :=
  let s := tick s t
  .next (if s.psq.off.contains n then afterOff (slotIsOff s n) else s)

/-- RAIL_SLOW_OFF (R323): a disabled slot not off within its ramp timeout counts as off. -/
def execRailSlowOff (n t : Nat) (s : State) : Host.Outcome State Fault Refusal :=
  let s := tick s t
  .next (if s.psq.off.contains n && decide (tgetD s.psq.disAt n 0 + 10 * (railSlot s n).ramp ≤ s.now) then
    afterOff (raiseOpen (slotIsOff s n) 0x18A) else s)

/-! ### Running-rail faults (R326, R327) -/

/-- Slots whose prerequisites include one of `l`, with `l`, up to `k` steps. -/
def dependants (s : State) (k : Nat) (l : List Nat) : List Nat :=
  match k with
  | 0 => l
  | k + 1 => dependants s k (l ++ (usedSlots s).filter (fun n =>
      !l.contains n && (bitsOf (railSlot s n).prereq 24).any (fun m => l.contains m)))

/-- A harvest that ends without a seal, at the sealed boundary: loss record first, then RAILS_DOWN (R177, R178). -/
def harvestLost (s : State) : State :=
  toRailsDown { (writeLoss s .railFault) with hrv := { (writeLoss s .railFault).hrv with short := true } } .railFault

/-- A rail fault of slot `n` (R326, Table 11.5). `kind` is that of PSQ_FAULT. -/
def railFault (s : State) (n kind code : Nat) : State :=
  if !running s n then s
  else
    let r := railSlot s n
    let s := noteWon s 1
    match s.dev.state with
    | .harvesting =>
      if r.cls == 2 then s
      else
        let s := logEvent (noteFault s (if r.cls == 3 then 5 else kind) n code (scanned s n)) 0x214 n 0
        if r.cls == 1 then harvestLost s
        else
          let deps := (dependants s 24 [n]).filter (fun m => m == n || s.psq.good.contains m)
          let dep := deps.any (fun m => (railSlot s m).cls == 1)
          let s := (deps.filter (fun m => (railSlot s m).cls == 3)).foldl (fun s m =>
            releasePriv { s with psq := { s.psq with on := sdel s.psq.on m, good := s.psq.good.filter (· != m) } } m) s
          if dep then harvestLost s else s
    | .railsDown =>
      if r.cls == 2 then s
      else
        let s := logEvent (noteFault s (if r.cls == 3 then 5 else kind) n code (scanned s n)) 0x214 n 0
        if r.cls == 1 then
          let s := s.psq.good.foldl disableSlot s
          afterOff { s with psq := { s.psq with phase := 4, stages := [] } }
        else afterOff (releasePriv { s with psq := { s.psq with on := sdel s.psq.on n, good := s.psq.good.filter (· != n) } } n)
    | .off | .shelf | .latched => s
    | _ => raiseCause (noteFault s kind n code (scanned s n)) 0x189 .railFault

/-- RAIL_FAULT (R326, R327): slot `n` outside its window for its filter, over or under it, with the MON code. -/
def execRailFault (n : Nat) (overV : Bool) (code t : Nat) (s : State) : Host.Outcome State Fault Refusal :=
  let s := tick s t
  .next (if outranked s 1 then s else railFault (noteWon s 1) n (if overV then 2 else 1) code)

/-- A HOLD slot has left its window in HELD: the HELD record says so (R191). -/
def heldExcursion (s : State) (n : Nat) : State :=
  if s.dev.state == .held && n != 0 && (railSlot s n).hold then
    { s with hrv := { s.hrv with heldRec := s.hrv.heldRec.map (fun r => heldKept { r with excursion := true }) } } else s

/-- One slot of a scan pass: its code is shown, and a running slot outside its window in every scan of a span of at
least GLITCH_US faults (R325, R362). A code above 1,023 stands for a set over-range flag. -/
def scanSlot (s : State) (n code : Nat) : State :=
  let r := railSlot s n
  let out := outside s n code
  let hit := scanFaults s n code s.now
  let since := tgetD s.psq.outSince n s.now
  let was := s.psq.outside.contains n
  let s := { s with psq := { s.psq with
    codes := tset s.psq.codes n (min code 1023),
    outside := if out then sins s.psq.outside n else sdel s.psq.outside n,
    outSince := if out then tset s.psq.outSince n since else tdel s.psq.outSince n,
    shortExc := if was && !out then tset s.psq.shortExc n (min 255 (tgetD s.psq.shortExc n 0 + 1)) else s.psq.shortExc } }
  if hit then railFault (heldExcursion s n) n (if r.ov < code then 2 else 1) (min code 1023) else s

/-- RAIL_SCAN_PASS (R362): the codes of MON00 to MON23. -/
def execRailScanPass (codes : List Nat) (t : Nat) (s : State) : Host.Outcome State Fault Refusal :=
  let s := tick s t
  .next (if s.dev.state == .off || s.psq.collapse then s
    else (List.range 24).foldl (fun s n => match codes[n]? with | some c => scanSlot s n c | none => s) s)

/-- HELD_RAIL_EXCURSION (R191). -/
def execHeldRailExcursion (n t : Nat) (s : State) : Host.Outcome State Fault Refusal :=
  let s := tick s t
  .next (heldExcursion s n)

/-- DRST_SEEN (R191, R440): DDRn_DRST_N of channel `c` read low. -/
def execDrstSeen (c t : Nat) (s : State) : Host.Outcome State Fault Refusal :=
  let s := tick s t
  .next (if s.dev.state == .held then
    { s with hrv := { s.hrv with heldRec := s.hrv.heldRec.map (fun r => if bit r.channels c then heldKept { r with drst := true } else r) } }
  else s)

/-! ### Slave sequencers (R334, R338) -/

/-- SLAVE_STATUS_POLL (R334): SEQ_STATUS of a slave with a running slot; three failed reads lose the slave. -/
def execSlaveStatusPoll (slave word : Nat) (ok : Bool) (t : Nat) (s : State) : Host.Outcome State Fault Refusal :=
  let s := tick s t
  .next (if (slaveSlots s slave).isEmpty || s.psq.collapse || s.dev.state == .off then s
    else if ok && twiUp s 2 then
      let s := { s with psq := { s.psq with slaveFails := tdel s.psq.slaveFails slave, slaveLost := sdel s.psq.slaveLost slave,
                                            slaveStatus := tset s.psq.slaveStatus slave (word % 65536) } }
      ((slaveSlots s slave).filter (fun n => bits word 8 8 &&& (railSlot s n).slaveCh != 0)).foldl (fun s n => railFault s n 4 (tgetD s.psq.codes n 0)) s
    else
      let k := tgetD s.psq.slaveFails slave 0 + 1
      let s := { s with psq := { s.psq with slaveFails := tset s.psq.slaveFails slave (min k 3) } }
      if k == 3 then raiseOpen { s with psq := { s.psq with slaveLost := sins s.psq.slaveLost slave } } 0x18C else s)

/-- SLAVE_SEQ_CMD (R338). -/
def cmdSlaveSeqCmd (f : InFlight) (s : State) : State :=
  let k := pByte f.cmd 24
  let code := pByte f.cmd 25
  let addr := s.psq.table.slaves.getD k 0
  if 7 < k || addr == 0 then badParam s f.id 24
  else if code < 0xD0 || 0xD3 < code then badParam s f.id 25
  else if code ≤ 0xD1 && !(owns s f.cmd.est 3 && s.psq.sw.isSome) then endWith s f.id 0x05 0x05
  else
    let data := if code ≤ 0xD1 then le (pByte f.cmd 26) 1 else []
    twiPost (setJob s f.id (.slave code)) 2 { agent := 1, addr := addr, code := code, data := data, cmd := some f.id, slot := k }

/-- SLAVE_SEQ_CMD as a packet. -/
def execSlaveSeqCmd (c : TrellisCmd) (s : State) : Host.Outcome State Fault Refusal := .next (submit cmdSlaveSeqCmd 0x0502 c s)

/-! ### The owner's step (R336) -/

/-- Whether a step of the owner is in order: a domain switch under way, slots of its domain, prerequisites good or
dependants off. -/
def stepOk (s : State) (issuer : Nat) (off : Bool) (slots : List Nat) : Bool :=
  match s.psq.sw with
  | none => false
  | some w =>
    owns s issuer 3 && (w.on == !off) && slots.all (fun n =>
      (railSlot s n).domain == w.domain && (railSlot s n).cls != 0
        && (if off then (usedSlots s).all (fun m => !(bit (railSlot s m).prereq n) || !s.psq.on.contains m) else prereqGood s n))

/-- A write of PSQ_HOST_STEP has been stored: the slots step, or REJECTED is set (R336). -/
def hostStep (s : State) (issuer v : Nat) : State :=
  let slots := bitsOf (v % 2 ^ 24) 24
  if stepOk s issuer (bit v 30) slots then
    let s := setFld (assistInput s 3) rPsqHostStep 31 1 0
    { s with psq := { s.psq with stepped := slots.foldl sins s.psq.stepped, sw := s.psq.sw.map (fun w => { w with hostWait := false }) } }
  else setFld s rPsqHostStep 31 1 1

/-! ### The rail table (R319–R321) -/

/-- A slot record from its 16 bytes (Table 11.2). -/
def slotOf (b : List Byte) : RailSlot :=
  let a := rd b 3 1
  { prereq := rd b 0 3, cls := a % 4, slave := bit a 2, hold := bit a 3, nand := bit a 4, delay := rd b 4 2, ramp := rd b 6 2,
    uv := rd b 8 2, ov := rd b 10 2, glitch := rd b 12 2, slaveIdx := bits (rd b 14 1) 4 4, domain := rd b 14 1 % 16, slaveCh := rd b 15 1 }

/-- A rail table from its image body. -/
def railTableOf (b : List Byte) : RailTable :=
  { version := rd b 6 2, slaves := (List.range 8).map (fun i => rd b (8 + i) 1),
    slots := (List.range 24).map (fun i => slotOf (slice b (32 + 16 * i) 16)), builtin := false }

/-- Slots that a slot depends on, with itself, through `k` levels. -/
def prereqClosure (l : List RailSlot) (k : Nat) (set : List Nat) : List Nat :=
  match k with
  | 0 => set
  | k + 1 => prereqClosure l k (set.foldl (fun acc n => (bitsOf (l.getD n {}).prereq 24).foldl sins acc) set)

/-- Whether slot `n` of a table breaks one of the eight rules of R320, or a reserved bit or range of Table 11.2. -/
def slotBad (tb : RailTable) (raw : List Byte) (n : Nat) : Bool :=
  let l := tb.slots
  let r := l.getD n {}
  let used := fun m => (l.getD m {}).cls != 0
  let pre := bitsOf r.prereq 24
  let rules := n == 0 && !(r.cls == 1 && r.hold && !r.slave && r.prereq == 0 && r.domain == 0)
    || (used n && (
      pre.any (fun m => m == n || !used m)
      || (prereqClosure l 24 pre).contains n
      || (r.cls != 2 && pre.any (fun m => (l.getD m {}).cls == 2))
      || (r.hold && pre.any (fun m => !(l.getD m {}).hold))
      || (r.cls == 3 && !r.nand && !r.hold)
      || (r.cls == 3 && (List.range n).any (fun m => (l.getD m {}).cls == 3 && (l.getD m {}).nand == r.nand))
      || r.uv == 0 || decide (r.ov ≤ r.uv)
      || (r.domain != 0 && r.cls != 2)
      || pre.any (fun m => (l.getD m {}).domain != 0 && (l.getD m {}).domain != r.domain)
      || (r.slave && (tb.slaves.getD r.slaveIdx 0 == 0 || r.slaveCh == 0))))
  let form := bits (rd raw 3 1) 5 3 != 0 || decide (1023 < r.uv) || decide (1023 < r.ov) || decide (1023 < r.glitch) || decide (8 < r.domain)
    || (used n && r.ramp == 0)
  rules || form

/-- First slot that breaks a rule. -/
def firstBad (b : List Byte) : Option Nat :=
  let tb := railTableOf b
  (List.range 24).find? (fun n => slotBad tb (slice b (32 + 16 * n) 16) n)

/-- The header of a rail table image (R319). -/
def railHeaderOk (b : List Byte) : Bool :=
  rd b 0 4 == 0x5241494C && rd b 4 2 == 1 && allZero (slice b 16 16) && b.length == 416

/-- A table is loaded: kept in pair 3; windows and filters at once, the rest at the next WAKING; at once in full while a
blank part waits in RAILS_UP (R321). -/
def loadRailTable (s : State) (tb : RailTable) : State :=
  let s := pairWrite { s with psq := { s.psq with nextTable := some tb } } 3
  if s.psq.table.builtin && s.dev.state == .railsUp then
    railsStep { s with psq := { s.psq with table := tb, nextTable := none } }
  else { s with psq := { s.psq with table := { s.psq.table with slots := (List.range 24).map (fun n =>
    let new := tb.slots.getD n {}
    { s.psq.table.slots.getD n {} with uv := new.uv, ov := new.ov, glitch := new.glitch }) } } }

/-- RAIL_TABLE_LOAD of a rail table (R320); `k` installs an image of another type the command carries (R300). -/
def railTableLoad (k : InFlight → List Byte → State → State) (f : InFlight) (s : State) : State :=
  let b := payIn f.cmd
  let c := container b
  let version := fun (s : State) => le (match s.psq.nextTable with | some t => t.version | none => s.psq.table.version) 2
  if c.typ == 0x11 then k f b s
  else if !containerOk s 0x10 b then endWith s f.id 0x0B 0
  else if !railHeaderOk c.body then finish s f.id { status := 0x04, detail := 0x40, result := version s }
  else match firstBad c.body with
    | some n => finish s f.id { status := 0x04, detail := 0x40 + fld n 16 16, result := version s }
    | none =>
      let s := loadRailTable s (railTableOf c.body)
      endOk s f.id (version s)

/-! ### Registers -/

/-- MODE of RMN_SLOT: 0 comparator, 1 scan, 2 not judged. -/
def slotMode (s : State) (n : Nat) : Nat := if !running s n then 2 else if scanned s n then 1 else 0

/-- PSQ and RMN registers whose value the state's own fields give. -/
def viewRails (s : State) (sel : Nat → Nat) (c : Nat) : Option Nat :=
  let p := s.psq
  if c == rPsqStatus then
    some (fld (b2n p.offHold) 31 1 + fld (b2n p.offPending.isSome) 30 1 + fld (b2n p.onPending) 29 1
      + fld (b2n (match p.sw with | some w => w.hostWait && hostSteps s | none => false)) 28 1 + fld p.phase 24 4 + fld p.lastGood 19 5)
  else if c == rPsqSlotOn then some (maskOf p.on)
  else if c == rPsqSlotGood then some (maskOf p.good)
  else if c == rPsqDomain then
    some (fld (maskOf (p.heldEn.map (fun x => x.1 - 1))) 16 8
      + (List.range 8).foldl (fun a i => a + fld (domainState s (i + 1)) (2 * i) 2) 0)
  else if c == rPsqFault then
    some (fld p.faultKind 28 4 + fld p.faultSlot 23 5 + fld p.faultState 19 4 + fld (b2n p.faultScan) 18 1 + fld p.faultCode 8 10)
  else if c == rRmnSlot then
    let n := sel rRmnSel % 32
    if 24 ≤ n then some 0
    else some (fld (slotMode s n) 30 2 + fld (b2n (p.outside.contains n)) 29 1 + fld (tgetD p.codes n 0) 16 10 + fld (tgetD p.shortExc n 0) 8 8)
  else none

end Sys2Proof.Machine
end

