-- ==== Sys2Proof/Machine/Power.lean ====
section
/-! DEFINITION. Supplies, cold-frame start, start checks, input and power fail, notices, buttons, orderly off and
POWER_STATE_REQ (chapters 1, 6, 11, 17 and 18). -/

namespace Sys2Proof.Machine

open Sys2Proof

/-! ### Cold-frame start (R22, R349, R353, R482) -/

/-- An erase cut short leaves its sectors undefined: they fail their blank check, and a parameter sector has no slot left
(R348, R353). -/
def eraseCut (s : State) (o : NvmOp) : State :=
  let a := o.addr % 0x01000000
  { s with nvm := { s.nvm with
      unsure := (erasedSectors o).foldl sins s.nvm.unsure,
      pairUsed := if 0x10000 ≤ a then s.nvm.pairUsed else
        tset s.nvm.pairUsed (2 * (a / 0x2000) + o.addr / 0x01000000) (pairSlots (a / 0x2000)).1 } }

/-- An embedded-flash operation cut short by the loss of VAON (Table 12.3): an option copy becomes invalid, firmware
units uncorrectable, an erase leaves its sector undefined; a late-status group keeps its header and the entries written by
then, a free number of them (R60); a record write completes (R335, R390), and a parameter snapshot is torn, so that the one
before it stands. -/
def cutOp (s : State) (o : NvmOp) : State :=
  let units := (List.range (cdiv o.data.length 16)).map (fun i => o.addr + 16 * i)
  let s := if o.erase then eraseCut s o else s
  match o.what with
  | .pair n => pairTorn s n
  | .logSector k => { s with log := { s.log with recs := s.log.recs.filter (fun r => r.sector != k) } }
  | .option =>
    { s with nvm := { s.nvm with
        opt0 := if s.nvm.optCopy == 0 then { s.nvm.opt0 with valid := false } else s.nvm.opt0,
        opt1 := if s.nvm.optCopy == 0 then s.nvm.opt1 else { s.nvm.opt1 with valid := false } } }
  | .fwData _ _ => { s with nvm := { s.nvm with cutUnits := units.foldl sins s.nvm.cutUnits } }
  | .lateGroup k =>
    drew { s with trl := { s.trl with late := s.trl.late.map (fun g =>
      if g.slot == k then { g with entries := g.entries.take (drawn s % (g.entries.length + 1)) } else g) } }
  | .fwErase _ _ =>
    { s with nvm := { s.nvm with cutUnits :=
        ((s.nvm.units.filter (fun p => o.addr ≤ p.1 && p.1 < o.addr + 65536)).map (·.1)).foldl sins (sins s.nvm.cutUnits o.addr) } }
  | _ => s

/-- A queued operation is dropped: a late-status group whose write never began is lost whole (R58, R347). -/
def dropOp (s : State) (o : NvmOp) : State :=
  match o.what with
  | .pair n => pairTorn s n
  | .lateGroup k =>
    { s with trl := { s.trl with late := s.trl.late.filter (fun g => g.slot != k) },
             nvm := { s.nvm with lsErased := s.nvm.lsErased.set k true } }
  | _ => s

/-- Every operation that runs or is suspended is cut short; those queued are dropped (R347). -/
def cutOps (s : State) : State :=
  let s := (s.nvm.opA.toList ++ s.nvm.opB.toList ++ s.nvm.suspA.toList ++ s.nvm.suspB.toList).foldl cutOp s
  let s := s.nvm.queue.foldl dropOp s
  { s with nvm := { s.nvm with opA := none, opB := none, suspA := none, suspB := none, queue := [] } }

/-- The option copy in force at a start: the valid one of higher SEQ, or the ROM defaults (R349). -/
def loadOption (s : State) (ok0 ok1 : Bool) : State :=
  let v0 := s.nvm.opt0.valid && ok0
  let v1 := s.nvm.opt1.valid && ok1
  let n := s.nvm
  if v0 && (!v1 || decide (n.opt1.seq ≤ n.opt0.seq)) then { s with nvm := { n with shadow := n.opt0, optCopy := 0, optLost := false } }
  else if v1 then { s with nvm := { n with shadow := n.opt1, optCopy := 1, optLost := false } }
  else { s with nvm := { n with shadow := { seq := max n.opt0.seq n.opt1.seq, rdp := 1, valid := false }, optLost := true } }

/-- The nonce counter at a start (R354). -/
def loadNonce (s : State) : State :=
  let v := if (tget s.nvm.pairSec 2).isSome then max s.nvm.store.nonce s.nvm.shadow.nonceFloor else s.nvm.shadow.nonceFloor + 2 ^ 24
  { s with krc := { nonceNext := v, nonceEnd := v, nonceSafe := v, labels := s.nvm.store.labels, rootRefused := lifecycle s == 3 } }

/-- A slot found in STAGING counts as EMPTY (R400). -/
def unstage (x : FwSlot) : FwSlot := if x.st == 1 then {} else x

/-- What VAON's return leaves of the state: the embedded flash, the NAND flash with its tables, the fuses and what
chapters 7, 8, 10, 15 and 16 keep; everything in SRAM and in the logic die takes its start value. -/
def coldFrame (s : State) (inputIn : Bool) : State :=
  let p := s.nvm.store
  let ops := max p.opSeconds (match s.hrv.seals with | a :: _ => a.opSeconds | [] => 0)
  { s with
    dev := { vaonAt := s.now, stateAt := s.now, vaon := true, opSeconds := ops, opSecondsSaved := ops, powerCycles := p.powerCycles + 1 },
    trl := { late := s.trl.late.map (fun g => { g with entries := g.entries.map (fun e => if e.soft then { e with released := false, soft := false } else e) }),
             lateOverflow := s.trl.lateOverflow, nextId := s.trl.nextId },
    mpx := {}, paths := {}, d2d := {},
    cxl := { dirtyShutdowns := s.cxl.dirtyShutdowns },
    ddrs := {}, mem := {},
    drp := { limit := 0, bucket := s.drp.bucket, spent := s.drp.spent, origin := s.drp.origin, bTotal := s.drp.bTotal, policy := p.policy,
             eFixed := s.drp.eFixed, eByte := s.drp.eByte, eLearned := s.drp.eLearned, harvestCap := s.drp.harvestCap },
    hrv := { s.hrv with run := none, heldRec := none, warmRec := none, replant := false, warm := false, todo := [], fetches := [],
                        ranges := [], save := none, phase := 0, plan := p.plan, order := p.order, cuts := [] },
    ftl := { s.ftl with progs := [], jbuf := [], popRec := p.popRec, retryTable := p.retryTable, victim := none, gc := false },
    exl := { paired := p.paired, peerRec := p.peerRec, secret := p.secret, sessNext := p.sessNext, reserved := p.reserved,
             txs := (linkOff s).txs, nextTx := s.exl.nextTx },
    ldg := { s.ldg with closed := false, heldW := [], rebuildW := [], share := [] },
    tin := { fencedKeep := sunion s.tin.fencedKeep s.tin.fenced, nextN := s.tin.nextN },
    gau := { learned := p.learned, rSaved := p.learned.bins, ocv := p.ocv, kTempCurve := p.kTempCurve, kAgeCurve := p.kAgeCurve,
             checkSig := true },
    psq := { table := p.table, inputIn := inputIn },
    nvm := { s.nvm with bod := false, resumed := [], checked := [], confSaved := p.conf, confPending := [], confSaving := [] },
    adc := {}, twi := {},
    flt := { image := p.image, imageVersion := p.imageVersion, alive := true },
    log := { recs := s.log.recs, seq := s.log.seq, sector := s.log.sector, fill := s.log.fill, stopped := s.log.stopped,
             freeSectors := (List.range 128).filter (fun k => k != s.log.sector && !s.nvm.unsure.contains (logSectorAddr k)
               && !(s.log.recs.any (fun r => r.sector == k))) },
    fus := { s.fus with shadow := false },
    fwu := { a := unstage s.fwu.recA, b := unstage s.fwu.recB, active := s.fwu.recActive, failedBoots := s.fwu.recBoots,
             confirmBy := s.fwu.confirmBy, recA := s.fwu.recA, recB := s.fwu.recB, recActive := s.fwu.recActive,
             recBoots := s.fwu.recBoots, recArea := s.fwu.recArea, recRows := s.fwu.recRows },
    ist := { items := s.ist.items.map (fun p => (p.1, { p.2 with
               passed := 0, failed := 0, fails := 0, late := false, now := none, nowFail := none, lastFail := none })) },
    pin := {} }

/-- A lowering of readout protection that a start finds unfinished goes on from its erase (R351). -/
def resumeLowering (s : State) : State := if s.nvm.shadow.erasePending then lowerErase s else s

/-- Log sectors whose erase was cut short are erased again (R346, R348). -/
def eraseUnsure (s : State) : State :=
  (List.range 128).foldl (fun s k =>
    if s.nvm.unsure.contains (logSectorAddr k) && k != s.log.sector then
      nvmPost s { agent := 6, erase := true, addr := logSectorAddr k, what := .logSector k }
    else s) s

/-- A unit read at a margin shift: its owner rewrites it; a parameter pair within 60 s (R343). -/
def marginRead (s : State) (a : Nat) : State :=
  let s := bump (raise s 0x190 a) rNvmErr 16 8 1
  if a % 0x01000000 < 0x10000 then pairWrite s (a % 0x01000000 / 0x2000) else s

/-- A unit that no shift decodes (R343). -/
def unitUnread (s : State) (a : Nat) : State :=
  raiseOpen (bump { s with nvm := { s.nvm with cutUnits := sins s.nvm.cutUnits a } } rNvmErr 8 8 1) 0x191

/-- What a cold start loads from its stores: the cold-frame state, the option bytes, a lowering left over, the registers, the
late statuses, erases in doubt and the nonce block; it counts the power cycle. -/
def coldLoads (i : ColdIn) (s : State) : State :=
  let s := coldFrame (i.ue.foldl pairUnread (cutOps s)) i.inputIn
  let s := resumeLowering (loadOption s i.opt0 i.opt1)
  let s := pairWrite (loadNonce (eraseUnsure (loadLate (reloadRegs s)))) 5
  { s with dev := { s.dev with state := .shelf } }

/-- What a cold start reports of its flash: a lost option word, unreadable and corrected units, a record torn by the loss. -/
def coldReports (i : ColdIn) (s : State) : State :=
  let s := if s.nvm.optLost then raiseOpen s 0x192 else s
  let s := i.ue.foldl unitUnread (i.margin.foldl marginRead (bump s rNvmErr 24 8 i.corrected))
  match i.torn with | some k => logEvent s 0x202 k 0 | none => s

/-- The cold-frame start (R22): what was in progress is cut, the records are loaded, what they show is raised, the
two-wire ports are checked; then SHELF, or WAKING with the input good. -/
def coldStart (i : ColdIn) (s : State) : State :=
  let gap := !s.log.bins.isEmpty
  let last := s.log.seq
  let s := coldReports i (coldLoads i s)
  let s := if gap then logEvent s 0x207 last 0 else s
  let s := (i.stuck.filter (· < 4)).foldl fence s
  let s := settle { s with dev := { s.dev with prev := .off, cause := .none } } .inputGood
  { s with dev := { s.dev with prev := .off } }

/-- VAON_PRESENT (R22, R482): in OFF the cold-frame die starts; elsewhere VAON is there already. -/
def execVaonPresent (i : ColdIn) (t : Nat) (s : State) : Host.Outcome State Fault Refusal :=
  let s := tick s t
  .next (if s.dev.state == .off then coldStart i s else ignored s .none)

/-- STRAP_SAMPLE (R441): once after each release of the cold-frame reset. -/
def execStrapSample (test xbyp : Bool) (t : Nat) (s : State) : Host.Outcome State Fault Refusal :=
  let s := tick s t
  .next (if s.dev.state == .off || s.pin.strapsTaken || decide (s.now < s.dev.vaonAt + 100) then s
    else
      let s := { s with pin := { s.pin with strapTest := test, strapXbyp := xbyp, strapsTaken := true } }
      if test && lifecycle s != 0 then logEvent s 0x210 0 0 else s)

/-! ### The loss of VAON (R22, R335, R347) -/

/-- VAON falls below 3.00 V: collapse mode, every rail off with no ordering, VAON_LOW with stop action (R335). -/
def collapse (s : State) : State :=
  if s.psq.collapse || s.dev.state == .off then s
  else
    let s := railsDrop { (noteFault s 6 0 0 false) with psq := { (noteFault s 6 0 0 false).psq with collapse := true } }
    let s := { s with
      twi := { s.twi with ports := s.twi.ports.map (fun p => (p.1, { p.2 with st := if p.2.st == 3 then 3 else 0, queue := [], cur := none, spacing := false })) },
      adc := { s.adc with a0 := { s.adc.a0 with busy := false, stopping := false }, a1 := { s.adc.a1 with busy := false, stopping := false } } }
    raiseCause s 0x18D .fatal

/-- The cold-frame die loses its supply: OFF. -/
def vaonGone (s : State) : State :=
  let s := { s with dev := { s.dev with vaon := false, opSeconds := opSecs s } }
  setDev (logicOff (railsDrop s) false) .off .vaonOrCycle

/-- VAON_ABSENT (R22, R24): SHELF and LATCHED go to OFF; RAILS_DOWN ends there. -/
def execVaonAbsent (t : Nat) (s : State) : Host.Outcome State Fault Refusal :=
  let s := tick s t
  .next (match s.dev.state with
    | .off => s
    | .shelf | .latched => vaonGone s
    | .railsDown => { s with dev := { s.dev with vaon := false, opSeconds := opSecs s } }
    | _ => ignored s .vaonOrCycle)

/-- VAON_LOW (R335). -/
def execVaonLow (t : Nat) (s : State) : Host.Outcome State Fault Refusal :=
  let s := tick s t
  .next (collapse s)

/-- VAON_RESET (R335): below 2.60 V the cold-frame die resets; the next VAON_PRESENT is a cold-frame start. -/
def execVaonReset (t : Nat) (s : State) : Host.Outcome State Fault Refusal :=
  let s := tick s t
  .next (if s.dev.state == .off then s else vaonGone (collapse s))

/-- Commands that wait for a queued embedded-flash operation are told of the interruption (R347). -/
def dropWaiting (s : State) : State :=
  (jobs s (fun j => match j with | .logClear | .fwErase _ | .nonce | .table => true | _ => false)).foldl
    (fun s f => endWith s f.id 0x07 1) { s with log := { s.log with clearing := none }, krc := { s.krc with waiting := [] } }

/-- BROWN_OUT (R347): below 2.68 V no pulse is issued, pulses in progress end, the queue is dropped. -/
def execBrownOut (t : Nat) (s : State) : Host.Outcome State Fault Refusal :=
  let s := tick s t
  .next (if s.dev.state == .off then s
    else
      let s := dropWaiting (cutOps s)
      { s with nvm := { s.nvm with bod := true }, log := { s.log with writing := false } })

/-- VAON_RECOVERY (R335): collapse mode and brown-out blocking end; the state stays. -/
def execVaonRecovery (t : Nat) (s : State) : Host.Outcome State Fault Refusal :=
  let s := tick s t
  .next (if s.dev.state == .off then s
    else { s with psq := { s.psq with collapse := false }, nvm := { s.nvm with bod := false } })

/-! ### Start checks (R22, R400, R409, R410, R421, R422, R458) -/

/-- Confirms nothing: slot `b` boots as the active slot in state `st`. -/
def bootSlot (s : State) (b : Bool) (st boots : Nat) : State :=
  let x := fwSlot s b
  let s := setSlot s b { x with st := st, passed := true }
  fwSave { s with fwu := { s.fwu with active := some b, failedBoots := boots, noImage := false, bootNew := false, phase := if st == 3 then 4 else 0 } }

/-- The slot is REJECTED. -/
def rejectSlot (s : State) (b : Bool) : State := fwSave (setSlot s b { fwSlot s b with st := 5, passed := false })

/-- No slot passes: FW_NO_IMAGE, WAKING waits (R410). -/
def noImage (s : State) : State :=
  raiseOpen { s with fwu := { s.fwu with noImage := true, bootNew := false, active := none } } 0x1C2

/-- Falls back from slot `b` to the slot confirmed before (R409). -/
def fallBack (s : State) (b : Bool) : State × Bool :=
  let s := raiseOpen (rejectSlot s b) 0x1C1
  if (fwSlot s (!b)).st == 4 && slotPasses s (!b) then (bootSlot s (!b) 4 0, true) else (noImage s, false)

/-- The firmware choice of a start (R400, R401, R408–R410): the state after it, and whether a slot boots. With no slot
active, a STAGED slot that passes boots as TENTATIVE (log entry 45); an active slot given up at the end of its window is
left for the confirmed one. -/
def chooseSlot (s : State) : State × Bool :=
  match s.fwu.active with
  | none =>
    let ok := fun (b : Bool) => ((fwSlot s b).st == 2 || (fwSlot s b).st == 4) && slotPasses s b
    if ok false then (bootSlot s false (if s.fwu.a.st == 4 then 4 else 3) 0, true)
    else if ok true then (bootSlot s true (if s.fwu.b.st == 4 then 4 else 3) 0, true)
    else (noImage s, false)
  | some b =>
    let y := fwSlot s (!b)
    let go := (s.fwu.bootNew && (y.st == 2 || y.st == 4)) || ((fwSlot s b).st == 5 && y.st == 4)
    if go && slotPasses s (!b) then (bootSlot s (!b) (if y.st == 4 then 4 else 3) 0, true)
    else
      let s := if go then raiseOpen (rejectSlot s (!b)) 0x1C0 else s
      let s := { s with fwu := { s.fwu with bootNew := false } }
      let x := fwSlot s b
      if x.st == 3 then
        if 3 ≤ s.fwu.failedBoots then fallBack s b
        else
          let s := { s with fwu := { s.fwu with failedBoots := s.fwu.failedBoots + 1 } }
          if slotPasses s b then (bootSlot s b 3 s.fwu.failedBoots, true) else fallBack s b
      else if x.st == 4 && slotPasses s b then (bootSlot s b 4 0, true)
      else
        let s := if x.st == 5 then s else raiseOpen (rejectSlot s b) 0x1C0
        if (fwSlot s (!b)).st == 2 && slotPasses s (!b) then (bootSlot s (!b) 3 0, true) else (noImage s, false)

/-- The start checks fail: LATCHED (Table 1.6). -/
def checksFail (s : State) : State := enterLatched s .checksFailed

/-- The checks after the temperature: a latched Fatal, the fuse words, the lifecycle, the firmware slot. -/
def startChecks (ecc : List Nat) (ue : Bool) (s : State) : State :=
  if s.flt.latched.isSome then checksFail s
  else
    let s := ecc.foldl (fun s _ => raiseOpen s 0x1C3) s
    if ue then raiseCause s 0x1C4 .checksFailed
    else if lifecycle s == 0 || lifecycle s == 3 then raiseCause s 0x1C5 .checksFailed
    else match chooseSlot s with
      | (s, true) => enterRailsUp s
      | (s, false) => s

/-- The checks with a temperature reading: below −5 °C they neither pass nor fail, and COLD_WAIT is recorded once for
each start (R458). -/
def checksAt (temp : Int) (ecc : List Nat) (ue : Bool) (s : State) : State :=
  let s := { s with pin := { s.pin with coldTemp := some temp, coldAt := s.now } }
  if temp < -5 then
    if s.pin.coldWait then s else logEvent { s with pin := { s.pin with coldWait := true } } 0x211 (twos temp 8) 0
  else startChecks ecc ue s

/-- START_CHECKS (R22, R458): the cold-frame temperature, fuse words corrected, an uncorrectable fuse word. -/
def execStartChecks (temp : Int) (ecc : List Nat) (ue : Bool) (t : Nat) (s : State) : Host.Outcome State Fault Refusal :=
  let s := tick s t
  .next (if s.dev.state != .waking then ignored s .progress
    else if s.fwu.noImage || s.pin.coldWait then s
    else checksAt temp ecc ue s)

/-- COLD_TEMP_RECHECK (R458): each second while the start waits on temperature. -/
def execColdTempRecheck (temp : Int) (ecc : List Nat) (ue : Bool) (t : Nat) (s : State) : Host.Outcome State Fault Refusal :=
  let s := tick s t
  .next (if s.dev.state == .waking && s.pin.coldWait && !s.fwu.noImage && decide (s.pin.coldAt + 1000000 ≤ s.now) then checksAt temp ecc ue s else s)

/-! ### Input good, power fail, notices (R163–R165, R328) -/

/-- INPUT_GOOD (R328, Table 1.6, Table 11.6): MON00 has stayed in its window for its filter. -/
def execInputGood (t : Nat) (s : State) : Host.Outcome State Fault Refusal :=
  let s := tick s t
  let s := { s with psq := { s.psq with inputIn := true } }
  .next (if s.psq.offHold then s
    else match s.dev.state with
      | .off | .harvesting => s
      | .shelf | .held => settle s .inputGood
      | .railsDown => { s with psq := { s.psq with onPending := true } }
      | _ => ignored s .inputGood)

/-- POWER_FAIL (R163): MON00 under or over its window, or PF_IN, for t_PF. -/
def execPowerFail (under overV pin : Bool) (t : Nat) (s : State) : Host.Outcome State Fault Refusal :=
  let s := tick s t
  let mon := under || overV
  let pin := pin && cfg s rAonPfCfg 31 1 == 1
  .next (if !(mon || pin) || s.dev.state == .off || s.psq.collapse then s
    else
      let s := { s with
        psq := { s.psq with inputIn := s.psq.inputIn && !mon, on := if overV then sdel s.psq.on 0 else s.psq.on,
                            good := if overV then sdel s.psq.good 0 else s.psq.good },
        hrv := { s.hrv with pfSource := b2n mon + 2 * b2n pin } }
      if outranked s 3 then s
      else
        let s := noteWon s 3
        match s.dev.state with
        | .replanting | .serving | .degraded => notice (enterHarvesting s .powerFail []) 0 false
        | .harvesting => harvestCause s .powerFail
        | .waking | .railsUp | .training => toRailsDown s .powerFail
        | _ => ignored s .powerFail)

/-- PF_GLITCH (R164): an excursion that ends before the filter. -/
def execPfGlitch (us t : Nat) (s : State) : Host.Outcome State Fault Refusal :=
  let s := tick s t
  .next (logEvent s 0x201 us 0)

/-- POWER_FAIL_NOTICE (R17, R165): the notice reaches the logic die `ns` after detection; the cut follows. -/
def execPowerFailNotice (ns t : Nat) (s : State) : Host.Outcome State Fault Refusal :=
  let s := tick s t
  .next (if s.dev.state == .harvesting then takeCut s ns else s)

/-- The HELD record (R191). -/
def heldRecord (s : State) (c : Nat) : HeldRec :=
  { sealSeq := sealSeq s, cause := c, mrHigh := !s.psq.mrActive, channels := maskOf (popChannels s),
    pop := (popChannels s).map (fun k => let d := (tget s.ddrs.ch k).getD {}; (d.dimms, d.ranks)),
    lanes := (popChannels s).map (fun k => let d := (tget s.ddrs.ch k).getD {}; if d.st == 3 then d.saved else d.lanes),
    holdSlots := maskOf ((usedSlots s).filter (fun n => (railSlot s n).hold)) }

/-- Enters HELD: channels in self-refresh, HELD record written, stage E runs, the logic die is off (Table 6.3 step 14). -/
def enterHeld (s : State) (c : Nat) : State :=
  let r := heldKept (heldRecord s c)
  let s := setDev s .held .sealed
  let s := { s with
    ddrs := { s.ddrs with ch := s.ddrs.ch.map (fun p => (p.1, if p.2.dimms != 0 then { p.2 with
      st := 3, leaving := false, retraining := false, openRows := [], drain := [], saved := if p.2.st == 3 then p.2.saved else p.2.lanes }
      else p.2)) },
    hrv := { s.hrv with heldRec := some r, heldSeconds := 0, holdMax := cfg s rAonHoldCfg 16 16, phase := 0, run := none },
    pin := { s.pin with padOn := false } }
  let s := nextStage (logicOff s true) [3]
  settle s .inputGood

/-- HARVEST_DONE_NOTICE (R17, R162, R356): the run is closed and the destination chosen at the seal is entered. -/
def execHarvestDoneNotice (t : Nat) (s : State) : Host.Outcome State Fault Refusal :=
  let s := tick s t
  .next (match s.dev.state, s.hrv.run with
    | .harvesting, some r =>
      if r.phase != 5 then ignored s .sealed
      else match s.hrv.dest with
        | .held => enterHeld s r.cause.code
        | .latched => enterLatched { s with hrv := { s.hrv with run := none } } .sealed
        | _ => toRailsDown { s with hrv := { s.hrv with run := none } } .sealed
    | _, _ => ignored s .sealed)

/-- FATAL_NOTICE (R17, R373): a Fatal of source `n` crosses between the dies and is captured if it was not yet. -/
def execFatalNotice (n detail t : Nat) (s : State) : Host.Outcome State Fault Refusal :=
  let s := tick s t
  .next (if 2 ≤ reactRank n && !(source s n).live then raiseLive s n detail else s)

/-! ### Service and orderly off (R330, R331) -/

/-- Host granules a full-image save copies: those with a map entry or dirty, of allotments not in DELETING (R194). -/
def saveSet (s : State) : List Nat :=
  let l := sunion (tkeys s.drp.gran) ((s.ftl.map.filter (fun p => p.2.kind != 0)).map (·.1))
  l.filter (fun g => match granAllot s g with | some a => !deleting s a | none => false)

/-- Host granules of allotments not in DELETING. -/
def allotGranules (s : State) : Nat :=
  s.alt.tab.foldl (fun n p => if p.2.st == .deleting then n else n + 16384 * p.2.extents.length) 0

/-- A full-image save starts (R194, R195). -/
def startSave (s : State) (forOff : Bool) : State :=
  let l := saveSet s
  { s with hrv := { s.hrv with save := some { left := l, zero := allotGranules s - l.length, since := s.now, forOff := forOff } } }

/-- An orderly off starts, or the request joins the one under way (R330, R195). -/
def orderlyOff (s : State) (c : Cause) (cmds : List Nat) : State :=
  match s.psq.offRun with
  | some r => { s with psq := { s.psq with offRun := some { r with cmds := r.cmds ++ cmds } } }
  | none =>
    let s := { s with
      psq := { s.psq with offRun := some { cmds := cmds, since := s.now, cause := c }, offPending := none, offCmds := [] },
      drp := { s.drp with offDrain := true } }
    if cfg s rHrvCfg 31 1 == 0 then s
    else match s.hrv.save with
      | none => startSave s true
      | some v => { s with hrv := { s.hrv with save := some { v with forOff := true } } }

/-- Enters SERVING or DEGRADED: an off request held since TRAINING or REPLANTING starts (Table 11.6). -/
def enterService (s : State) (d : DevState) (c : Cause) : State :=
  let s := setDev s d c
  match s.psq.offPending with
  | some o => orderlyOff s o s.psq.offCmds
  | none => s

/-- An off request (R329, R331, Table 11.6). `hold`: it sets OFF_HOLD where accepted (R328, R472). -/
def offRequest (s : State) (c : Cause) (cmd : List Nat) (hold : Bool) : State :=
  let held := { s with psq := { s.psq with offHold := s.psq.offHold || hold } }
  let latch := fun (s : State) => { s with psq := { s.psq with offPending := some (s.psq.offPending.getD c), offCmds := s.psq.offCmds ++ cmd } }
  match s.dev.state with
  | .off => s
  | .shelf | .held | .railsDown => held
  | .serving | .degraded => orderlyOff s c cmd
  | .waking => latch held
  | .railsUp => railsStep (latch held)
  | .training | .replanting => latch s
  | .harvesting | .latched => ignored s c

/-- An on request (R328, R331, Table 11.6). -/
def onRequest (s : State) (c : Cause) : State :=
  match s.dev.state with
  | .off | .latched | .harvesting => s
  | .railsDown => { s with psq := { s.psq with onPending := true } }
  | _ => settle { s with psq := { s.psq with offHold := false } } c

/-- ORDERLY_OFF_SEAL (R330, R195): with exposure zero, and a save in its place ended, the seal of KIND 1 or 2 is
written, OFF_HOLD set, pending values saved, and the off commands end with OK. -/
def execOrderlyOffSeal (t : Nat) (s : State) : Host.Outcome State Fault Refusal :=
  let s := tick s t
  .next (match s.psq.offRun with
    | some r =>
      let save := match s.hrv.save with | some v => v.forOff && !(v.left.isEmpty && v.out.isEmpty) | none => false
      if r.sealed || exposure s != 0 || save then s
      else
        let kind := match s.hrv.save with | some v => if v.forOff then 2 else 1 | none => 1
        let a : Seal := { kind := kind, cause := r.cause.code, powerCycle := s.dev.powerCycles, opSeconds := opSecs s,
                          epoch := if s.exl.paired then s.exl.epoch else 0, regs := hrvRegs s,
                          cutSeq := (List.range 64).map (fun i => BitVec.ofNat 64 (tgetD s.ldg.seqs i 0)) }
        let s := placeSeal s a none
        let s := r.cmds.foldl (fun s id => endPower s id 0 0) s
        saveConfig { s with
          psq := { s.psq with offHold := true, offRun := some { r with sealed := true, sealAt := s.now, cmds := [] } },
          hrv := { s.hrv with save := match s.hrv.save with | some v => if v.forOff then none else some v | none => none } }
    | none => s)

/-- ORDERLY_OFF_POWER_DOWN (R330): 10 ms after the seal. -/
def execOrderlyOffPowerDown (t : Nat) (s : State) : Host.Outcome State Fault Refusal :=
  let s := tick s t
  .next (match s.psq.offRun, s.dev.state with
    | some r, .serving => if r.sealed && decide (r.sealAt + 10000 ≤ s.now) then toRailsDown s r.cause else s
    | some r, .degraded => if r.sealed && decide (r.sealAt + 10000 ≤ s.now) then toRailsDown s r.cause else s
    | _, _ => ignored s .progress)

/-- OFF_ABANDONED (R330): OFF_DRAIN_MAX_S seconds have passed without exposure zero. -/
def execOffAbandoned (t : Nat) (s : State) : Host.Outcome State Fault Refusal :=
  let s := tick s t
  .next (match s.psq.offRun with
    | some r =>
      if r.sealed || s.now < r.since + max 10 (cfg s rPsqCfg 16 16) * 1000000 then s
      else
        let s := r.cmds.foldl (fun s id => endPower s id 0x0D 0) (logEvent s 0x204 (exposure s) 0)
        { s with
          psq := { s.psq with offRun := none }, drp := { s.drp with offDrain := false },
          hrv := { s.hrv with save := match s.hrv.save with | some v => if v.forOff then none else some v | none => none } }
    | none => s)

/-! ### Buttons and reset (R193, R329) -/

/-- PWRBTN_PRESS (R329): PWRBTN_N low for 50 ms; in SHELF an on request. -/
def execPwrbtnPress (t : Nat) (s : State) : Host.Outcome State Fault Refusal :=
  let s := tick s t
  .next (if cfg s rPsqCfg 0 1 == 0 || s.dev.state == .off || s.psq.collapse then s
    else
      let shelf := s.dev.state == .shelf
      let s := { s with psq := { s.psq with btnDown := true, btnLong := false, btnShelf := shelf, btnAt := s.now } }
      if shelf then onRequest s .shortPress else s)

/-- SHORT_PRESS (R329): released before 8 s; an off request unless the press began in SHELF. -/
def execShortPress (t : Nat) (s : State) : Host.Outcome State Fault Refusal :=
  let s := tick s t
  .next (if !s.psq.btnDown || s.psq.btnLong || cfg s rPsqCfg 0 1 == 0 || s.psq.btnAt + 7950000 ≤ s.now then s
    else
      let s := { s with psq := { s.psq with btnDown := false } }
      if s.psq.btnShelf || outranked s 6 then s else offRequest (noteWon s 6) .shortPress [] true)

/-- What a long press does, or the thermal trip that acts like one (R329, R472). -/
def longPress (s : State) (c : Cause) (hold : Bool) : State :=
  match s.dev.state with
  | .replanting | .serving | .degraded => startHarvest s c []
  | .harvesting => harvestCause s c
  | .waking | .railsUp | .training => offRequest s c [] hold
  | _ => ignored s c

/-- LONG_PRESS (R328, R329): still low at 8 s. -/
def execLongPress (t : Nat) (s : State) : Host.Outcome State Fault Refusal :=
  let s := tick s t
  .next (if !s.psq.btnDown || s.psq.btnLong || cfg s rPsqCfg 0 1 == 0 || s.now < s.psq.btnAt + 7950000 then s
    else
      let s := { s with psq := { s.psq with btnLong := true } }
      if s.psq.btnShelf then s
      else if s.dev.state == .latched then ignored s .longPress
      else
        let s := { s with psq := { s.psq with offHold := true } }
        if outranked s 4 then s else longPress (noteWon s 4) .longPress true)

/-- MR_N_ASSERT (R193, R329): low for 1 ms. -/
def execMrNAssert (t : Nat) (s : State) : Host.Outcome State Fault Refusal :=
  let s := tick s t
  .next (if cfg s rPsqCfg 1 1 == 0 || s.dev.state == .off || s.psq.collapse then s
    else
      let s := { s with psq := { s.psq with mrActive := true } }
      if outranked s 5 then s
      else
        let s := noteWon s 5
        match s.dev.state with
        | .replanting | .serving | .degraded => startHarvest s .mrN []
        | .harvesting => harvestCause s .mrN
        | _ => ignored s .mrN)

/-- MR_N_RELEASE (R193, R329): high for 1 ms. -/
def execMrNRelease (t : Nat) (s : State) : Host.Outcome State Fault Refusal :=
  let s := tick s t
  .next (if cfg s rPsqCfg 1 1 == 0 || s.dev.state == .off || s.psq.collapse then s
    else
      let s := { s with psq := { s.psq with mrActive := false } }
      if s.dev.state == .held then settle s .mrN else ignored s .mrN)

/-- POWER_CYCLE (R24, R328): MON00 outside its window for 1 s. -/
def execPowerCycle (t : Nat) (s : State) : Host.Outcome State Fault Refusal :=
  let s := tick s t
  .next (if s.dev.state == .off then s
    else
      let s := { s with psq := { s.psq with inputIn := false, offHold := false } }
      if s.dev.state == .latched then
        let s := pairWrite { s with
          dev := { s.dev with powerCycles := s.dev.powerCycles + 1 },
          flt := { s.flt with latched := none, latchedStop := false, window := none, alive := true } } 5
        setDev s (if s.dev.vaon then .shelf else .off) .vaonOrCycle
      else ignored s .vaonOrCycle)

/-- HOLD_TIME_REACHED (R25, R193): HOLD_MAX_S seconds in HELD, as the entry or the last gauge update took it; 0 sets no limit
after MR_N. -/
def execHoldTimeReached (t : Nat) (s : State) : Host.Outcome State Fault Refusal :=
  let s := tick s t
  let m := s.hrv.holdMax
  .next (if outranked s 7 then s
    else if s.dev.state != .held then ignored s .holdTime
    else if (heldByMr s && m == 0) || s.now < s.dev.stateAt + m * 1000000 then s
    else toRailsDown (noteWon s 7) .holdTime)

/-! ### Temperature and crystal (R19, R472) -/

/-- THERMAL_HIGH (R472): 105 °C or above for 1 s. -/
def execThermalHigh (temp : Int) (t : Nat) (s : State) : Host.Outcome State Fault Refusal :=
  let s := tick s t
  .next (if !logicOn s || temp < 105 then s
    else logEvent { s with pin := { s.pin with logicMax := some temp, logicAt := s.now, thermHigh := true } } 0x212 (twos temp 8) 0)

/-- THERMAL_TRIP (R472): 115 °C or above for 1 ms acts as a long press, with OFF_HOLD left alone. -/
def execThermalTrip (temp : Int) (t : Nat) (s : State) : Host.Outcome State Fault Refusal :=
  let s := tick s t
  .next (if !(logicOn s || s.dev.state == .railsUp) || temp < 115 then s
    else
      let s := logEvent { s with pin := { s.pin with logicMax := some temp, logicAt := s.now } } 0x213 (twos temp 8) 0
      if outranked s 4 then s else longPress (noteWon s 4) .thermal false)

/-- XTAL_FAIL (R19): the check of a gauge sample burst finds no crystal edge for 4 ms; the timebase moves to the fast
oscillator, and the fault stands until a later burst finds the crystal again. -/
def execXtalFail (t : Nat) (s : State) : Host.Outcome State Fault Refusal :=
  let s := tick s t
  .next (if s.dev.state == .off || !s.gau.burst || !s.dev.xtalOk then s
    else raiseLive (drew { s with dev := { s.dev with xtalOk := false } }) 0x002 (drawn s % 2 ^ 32))

/-! ### POWER_STATE_REQ (R337) -/

/-- POWER_STATE_REQ (R331–R333, R337). An off or on request that loses its window is discarded (R23); its command ends with
INTERRUPTED (DESIGN CHOICE, log entry 104). -/
def cmdPowerStateReq (f : InFlight) (s : State) : State :=
  let c := f.cmd
  let act := pByte c 24
  let d := pByte c 25
  let e := exposure s
  let limit := if pNum c 28 4 == 0 then 10000 else pNum c 28 4
  if 3 < act then badParam s f.id 24
  else if 2 ≤ act && (d == 0 || 8 < d) then badParam s f.id 25
  else if act ≤ 1 && outranked s 6 then endWith s f.id 0x07 1
  else if act == 0 then
    let s := setJob (noteWon s 6) f.id (.off e)
    match s.dev.state with
    | .shelf | .held | .railsDown => endPower (offRequest s .powerReq [] true) f.id 0 0
    | _ => offRequest s .powerReq [f.id] true
  else if act == 1 then endPower (onRequest (setJob (noteWon s 6) f.id (.off e)) .powerReq) f.id 0 0
  else if !serving s then conflict s f.id (0x02 + fld s.dev.state.code 8 8)
  else askDomain (setJob s f.id (.domain d (act == 2) (f.since + limit * 1000) e)) d (act == 2) f.id

/-- POWER_STATE_REQ as a packet. -/
def execPowerStateReq (c : TrellisCmd) (s : State) : Host.Outcome State Fault Refusal := .next (submit cmdPowerStateReq 0x0500 c s)

/-- DOMAIN_SWITCH_TIMEOUT (R337): commands whose TIMEOUT_MS has passed end; the switch runs on. -/
def execDomainSwitchTimeout (t : Nat) (s : State) : Host.Outcome State Fault Refusal :=
  let s := tick s t
  let late := jobs s (fun j => match j with | .domain _ _ dl _ => decide (dl ≤ s.now) | _ => false)
  let s := late.foldl (fun s f => endPower s f.id 0x0D 0) s
  let keep := fun (id : Nat) => !(late.any (fun f => f.id == id))
  .next { s with psq := { s.psq with
    sw := s.psq.sw.map (fun w => { w with cmds := w.cmds.filter keep }) } }

/-! ### Registers -/

/-- A sensor's byte of AON_TEMP, updated every second: a reading that a command told, within its second; otherwise a free value
(log entry 124). -/
def sensorByte (s : State) (die : Nat) (x : Option Int) (since : Nat) : Nat :=
  match x with
  | some v => if s.now < since + 1000000 then twos v 8 else Config.dieTemp die (s.now / 1000000) % 256
  | none => Config.dieTemp die (s.now / 1000000) % 256

/-- LOGIC_MAX: 0x80 while the logic die is off. -/
def logicByte (s : State) : Nat := if s.d2d.up then sensorByte s 0 s.pin.logicMax s.pin.logicAt else 0x80

/-- COLD_FRAME: 0 until the first update after the cold-frame start. -/
def coldByte (s : State) : Nat :=
  if s.pin.coldTemp.isNone && s.now < s.dev.vaonAt + 1000000 then 0 else sensorByte s 1 s.pin.coldTemp s.pin.coldAt

/-- AON registers whose value the state's own fields give. -/
def viewPower (s : State) (c : Nat) (high : Bool) : Option Nat :=
  if c == rAonDevState then
    some (fld s.dev.prev.code 20 4 + fld s.dev.cause.code 8 8 + fld (b2n s.dev.warm) 4 1 + s.dev.state.code)
  else if c == rAonOpSeconds then some (if high then opSecs s / 2 ^ 32 else opSecs s % 2 ^ 32)
  else if c == rAonPowerCycles then some s.dev.powerCycles.toNat
  else if c == rAonPfCfg then some (s.hrv.pfSource % 4)
  else if c == rAonAvs then some (700 + min 100 Config.vsetAbove700)
  else if c == rAonTemp then
    some (fld (logicByte s) 24 8 + fld (coldByte s) 16 8)
  else none

end Sys2Proof.Machine
end

