-- ==== Sys2Proof/Machine/Gauge.lean ====
section
/-! DEFINITION. The battery gauge: bursts, the coulomb counter, state of charge, end of discharge, learning, swaps,
energies, the pack commands (chapter 10). -/

namespace Sys2Proof.Machine

open Sys2Proof

/-! ### OCV tables and curves (R300) -/

/-- The built-in OCV tables of Table 10.4: SoC in 0.01%, cell voltage in 0.1 mV. -/
def builtinOcv (n : Nat) : List (Nat × Nat) :=
  let at10 := fun (l : List Nat) => (List.range 11).map (fun i => (1000 * i, l.getD i 0))
  if n == 0 then at10 [29000, 33500, 34350, 35000, 35500, 36000, 36600, 37300, 38000, 39000, 40500]
  else if n == 1 then at10 [25000, 32000, 32500, 32800, 33000, 33100, 33200, 33300, 33400, 33500, 34000]
  else []

/-- OCV table `n` in force. -/
def ocvTable (s : State) (n : Nat) : List (Nat × Nat) :=
  if s.gau.ocv.isEmpty then builtinOcv n
  else match s.gau.ocv.find? (fun t => t.number == n) with | some t => t.points | none => []

/-- The default k_temp curve (Table 10.5): temperature in 0.01 °C, factor in 0.001. -/
def defaultKTemp : List (Int × Nat) :=
  [(-2000, 500), (-1000, 650), (0, 800), (1000, 920), (2500, 1000), (4000, 980), (5000, 940), (6000, 850)]

/-- The default k_age curve (Table 10.5): age in 0.01 years, factor in 0.001. -/
def defaultKAge : List (Int × Nat) :=
  [(0, 1000), (100, 970), (200, 940), (300, 900), (500, 840), (800, 750), (1000, 700), (2000, 700)]

/-- Linear interpolation between the points of a list ascending in its first column, held at the ends, rounded down
(log entry 15). -/
def interp : List (Int × Int) → Int → Int
  | [], _ => 0
  | [p], _ => p.2
  | p :: q :: r, x =>
    if x ≤ p.1 then p.2
    else if x < q.1 then p.2 + ((q.2 - p.2) * (x - p.1)) / (q.1 - p.1)
    else interp (q :: r) x

/-- State of charge, 0.01%, of a cell voltage in 0.1 mV, clipped to 0 to 100% (R301). -/
def socOf (tab : List (Nat × Nat)) (v : Int) : Nat :=
  (interp (tab.map (fun p => ((p.2 : Int), (p.1 : Int)))) v).toNat

/-- Cell voltage, 0.1 mV, of a state of charge in 0.01%. -/
def voltOf (tab : List (Nat × Nat)) (soc : Nat) : Int :=
  interp (tab.map (fun p => ((p.1 : Int), (p.2 : Int)))) soc

/-- Twice the integral of the table's voltage over state of charge, in 0.01% × 0.1 mV: V_avg is it over 20,000
(R311). -/
def ocvArea : List (Nat × Nat) → Nat
  | p :: q :: r => (q.1 - p.1) * (p.2 + q.2) + ocvArea (q :: r)
  | _ => 0

/-! ### Values in force (R292, R293) -/

/-- The ID record in force: ID_EN at 1 and a valid record. -/
def packId (s : State) : Option PackId := if cfg s rGauPackCfg 30 1 == 1 then s.gau.id else none

/-- OCV table selected. -/
def packTable (s : State) : Nat := match packId s with | some p => p.table | none => cfg s rGauPackCfg 28 2

/-- CELLS_S in force; 17 to 31 count as 0. -/
def packCells (s : State) : Nat :=
  let n := match packId s with | some p => p.cells | none => cfg s rGauPackCfg 0 5
  if 16 < n then 0 else n

/-- Design capacity, 10 C. -/
def packDesign (s : State) : Nat := match packId s with | some p => p.design | none => cfg s rGauDesign 16 16

/-- R_NOM, 0.1 mΩ. -/
def packRNom (s : State) : Nat := match packId s with | some p => p.rNom | none => cfg s rGauDesign 0 16

/-- The selected OCV table's points. -/
def packOcv (s : State) : List (Nat × Nat) := ocvTable s (packTable s)

/-- The cell voltage at 0%, 0.1 mV. -/
def ocvZero (s : State) : Nat := match packOcv s with | p :: _ => p.2 | [] => 0

/-- Q_learn in mC: the design capacity until a record exists (R306). -/
def qLearn (s : State) : Nat := if s.gau.learned.seq == 0 then packDesign s * 10000 else s.gau.learned.qmC

/-- Pack age in seconds, AGE_UNKNOWN_Y included (R311). -/
def packAge (s : State) : Nat :=
  opSecs s - s.gau.learned.fit
    + (if s.gau.learned.ageUnknown then cfg s rGauPackCfg 24 4 * 31557600 else 0)

/-! ### Temperature (R299) -/

/-- Enabled thermistors. -/
def sensorsOn (s : State) : List Nat := bitsOf (cfg s rGauTsCfg 0 4) 4

/-- Readings of the valid sensors, 0.01 °C. -/
def validTemps (s : State) : List Int :=
  (sensorsOn s).filterMap (fun i => if s.gau.tsOut.contains i then none else (s.gau.temps.getD i none))

/-- T_pack: the mean of the valid sensors. -/
def tPack (s : State) : Option Int :=
  match validTemps s with
  | [] => none
  | l => some (l.foldl (· + ·) 0 / l.length)

/-- Bits of a binary logarithm: `k` fractional bits of log2 of `m / 2^40`, for `m` from 2^40 to 2^41. -/
def log2Frac (k m acc : Nat) : Nat :=
  match k with
  | 0 => acc
  | k + 1 =>
    let q := (m * m) >>> 40
    if 2 ^ 41 ≤ q then log2Frac k (q >>> 1) (2 * acc + 1) else log2Frac k q (2 * acc)

/-- Natural logarithm of `n / d` in units of 2^-32. -/
def lnRatio (n d : Nat) : Int :=
  let e : Int := (Nat.log2 n : Int) - (Nat.log2 d : Int)
  let m0 := if 0 ≤ e then (n <<< 40) / (d <<< e.toNat) else ((n <<< (-e).toNat) <<< 40) / d
  let (e, m) := if m0 < 2 ^ 40 then (e - 1, 2 * m0) else (e, m0)
  ((e * (2 ^ 32 : Nat) + (log2Frac 32 m 0 : Nat)) * 2977044472) / (2 ^ 32 : Nat)

/-- The B-parameter equation with R_25 = 10 kΩ: temperature in 0.01 °C of a thermistor voltage in µV under 10 µA,
rounded down (R299, log entry 15). None where B gives no temperature. -/
def thermistor (b uv : Nat) : Option Int :=
  let ln := lnRatio uv 100000
  let den : Int := 100 * b * (2 ^ 32 : Nat) + 29815 * ln
  if den ≤ 0 then none else some ((29815 * 100 * b * (2 ^ 32 : Nat) : Int) / den - 27315)

/-! ### Pack resistance (R305) -/

/-- The temperature bin of a temperature in 0.01 °C. -/
def rBin (t : Int) : Nat := if t < 0 then 0 else if 6000 ≤ t then 7 else 1 + (t / 1000).toNat

/-- The value of bin `b`: learned, else of the nearest learned bin (the colder of two), else R_NOM. -/
def rValue (s : State) (b : Nat) : Nat :=
  let g := fun (i : Nat) => s.gau.learned.bins.getD i 0
  match (List.range 8).findSome? (fun d =>
    if d ≤ b && g (b - d) != 0 then some (g (b - d)) else if b + d < 8 && g (b + d) != 0 then some (g (b + d)) else none) with
  | some r => r
  | none => packRNom s

/-- R_pack in use, 0.1 mΩ. -/
def rPack (s : State) : Nat :=
  match tPack s with
  | some t => rValue s (rBin t)
  | none =>
    let m := s.gau.learned.bins.foldl max 0
    if m == 0 then packRNom s else m

/-! ### Learned-value record (R307, Table 10.6) -/

/-- Bytes 0–59 of the record. -/
def learnedBody (l : Learned) : List Byte :=
  le 0x47415531 4 ++ le l.seq 8 ++ le l.serial 8 ++ le l.qmC 4 ++ le l.design 2 ++ le l.eFixed 2 ++ le l.eByte 2
    ++ le l.table 1 ++ le l.cells 1 ++ padTo (l.bins.flatMap (fun r => le r 2)) 16 ++ le l.fit 5
    ++ le (b2n l.ageUnknown + 2 * b2n l.eLearned) 1 ++ le l.count 2 ++ zeros 4

/-- The 64-byte record. -/
def learnedBytes (l : Learned) : List Byte := learnedBody l ++ le (crc32c (learnedBody l)) 4

/-- Writes a record with the next SEQ. -/
def saveLearned (s : State) : State :=
  let l := { s.gau.learned with qmC := qLearn s, seq := s.gau.learned.seq + 1, serial := ((packId s).map (·.serial)).getD 0,
                                design := packDesign s, table := packTable s, cells := packCells s }
  pairWrite { s with gau := { s.gau with learned := l, rSaved := l.bins } } 0

/-- Sets the anchor of SoC_c (R301). -/
def anchorAt (s : State) (soc : Nat) : State :=
  { s with gau := { s.gau with anchor := soc, anchorUc := s.gau.coulomb } }

/-- The learning cycle is void, with the code its end reports; a swap's code stands over others (R306, R315). -/
def voidCycle (s : State) (why : Nat) : State :=
  if s.gau.restA.isSome && (s.gau.voidWhy == 0 || why == 8) then { s with gau := { s.gau with voidWhy := why } } else s

/-! ### Rehearsal results and ends (R312, R314, R317, R432) -/

/-- Result bytes of REHEARSAL_RUN. -/
def rehResultBytes (s : State) (ms : Nat) : List Byte :=
  le s.gau.learned.eByte 2 ++ le s.gau.learned.eFixed 2 ++ le s.gau.rehResult 1 ++ le (b2n s.gau.rehQuiet) 1 ++ zeros 2
    ++ le s.gau.floor 4 ++ le ms 4

/-- The rail slot that hands the load to the pack. -/
def srcSlot (s : State) : Nat := cfg s rGauRehCfg 0 5

/-- The load goes back to the input: the source slot ramps again; the borrowed superblocks are to be erased (R226,
R312, R314). -/
def rehHandBack (s : State) (r : Rehearsal) : State :=
  r.borrowed.foldl (fun s k => setRole (setSb s k { sb s k with clean := false }) k .tlcFree)
    { s with psq := { s.psq with on := sins s.psq.on (srcSlot s), onAt := tset s.psq.onAt (srcSlot s) s.now } }

/-- A rehearsal is aborted with a RESULT code (R314); a periodic one is retried after 1 h, at most 3 times a day
(R432). -/
def rehAbort (s : State) (code : Nat) : State :=
  match s.gau.reh with
  | none => s
  | some r =>
    let s := { s with gau := { s.gau with reh := none, rehResult := code, rehQuiet := r.quiet && decide (5 ≤ r.phase) } }
    let s := if r.phase < 5 then rehHandBack s r else s
    let s := if r.auto then { s with ist := { s.ist with retries := s.ist.retries + 1, retryAt := some (s.now + 3600000000) } } else s
    match r.cmd with
    | some id => finish s id { status := 0x08, detail := code, result := rehResultBytes s ((s.now - r.since) / 1000) }
    | none => s

/-! ### Pack swap (R309, R310) -/

/-- A swap: nominal values, anchors, the event with how it was seen, a new record; a rehearsal is aborted. -/
def packSwap (s : State) (how : Nat) : State :=
  let s := rehAbort s 6
  let s := voidCycle s 8
  let l := { s.gau.learned with qmC := packDesign s * 10000, bins := [0, 0, 0, 0, 0, 0, 0, 0], fit := opSecs s,
                                ageUnknown := (packId s).isNone, eFixed := 650, count := s.gau.learned.count }
  let s := { s with gau := { s.gau with learned := { l with seq := max 1 l.seq }, swapped := true, checkSig := false,
                                        socSet := false, rehDue := true } }
  saveLearned (logEvent (anchorAt s s.gau.socV) 0x203 how 0)

/-! ### Bursts (R296–R299, R303–R305) -/

/-- The burst rate (Table 10.3): 2 1 kHz, 1 32 Hz, 0 1 Hz. -/
def gaugeRate (s : State) : Nat :=
  if s.dev.state == .harvesting || s.gau.reh.isSome then 2
  else match s.gau.hotAt with
    | some u => if s.now ≤ u + 10000000 then 1 else 0
    | none => 0

/-- The time from one burst to the next at the rate in force, µs (Table 10.3). -/
def burstPeriod (s : State) : Nat := match gaugeRate s with | 2 => 1000 | 1 => 31250 | _ => 1000000

/-- GAUGE_BURST (R296, R297, R19): the burst timer's period is over and a burst starts; `xtal` says whether the crystal shows
edges. -/
def execGaugeBurst (xtal : Bool) (t : Nat) (s : State) : Host.Outcome State Fault Refusal :=
  let s := tick s t
  .next (if s.dev.state == .off || s.psq.collapse || s.gau.burstAt.any (fun u => decide (s.now < u + burstPeriod s)) then s
    else
      let s := { s with gau := { s.gau with burst := true, burstAt := some s.now } }
      if xtal && !s.dev.xtalOk then clearLive { s with dev := { s.dev with xtalOk := true } } 0x002 else s)

/-- CURRENT_COMPARATOR_TRIP (R297): a burst starts and the rate is 32 Hz. -/
def execCurrentComparatorTrip (t : Nat) (s : State) : Host.Outcome State Fault Refusal :=
  let s := tick s t
  .next (if s.dev.state == .off || s.psq.collapse || gaugeRate s != 0 then s
    else { s with gau := { s.gau with burst := true, burstAt := some s.now, hotAt := some s.now } })

/-- The thermistor a burst reads: the next enabled one, ascending, wrapping (R296). -/
def nextSensor (s : State) : Option Nat :=
  let on := sensorsOn s
  match on.find? (fun i => s.gau.tsNext ≤ i) with
  | some i => some i
  | none => on.head?

/-- A thermistor sample judged (R299). -/
def judgeSensor (s : State) (i uv : Nat) (temp : Int) : State :=
  let s := { s with gau := { s.gau with tsNext := i + 1 } }
  if 1100000 < uv || uv < 10000 then
    let fresh := !s.gau.tsOut.contains i
    let s := { s with gau := { s.gau with tsOut := sins s.gau.tsOut i, temps := s.gau.temps.set i none,
                                          tsGood := s.gau.tsGood.set i 0 } }
    if fresh then raiseLive (drew s) 0x182 (drawn s % 2 ^ 32) else s
  else if s.gau.tsOut.contains i then
    let k := s.gau.tsGood.getD i 0 + 1
    if k < 10 then { s with gau := { s.gau with tsGood := s.gau.tsGood.set i k } }
    else
      let s := { s with gau := { s.gau with tsOut := sdel s.gau.tsOut i, temps := s.gau.temps.set i (some temp),
                                            tsGood := s.gau.tsGood.set i 0 } }
      if (sensorsOn s).all (fun k => !s.gau.tsOut.contains k) then clearLive s 0x182 else s
  else { s with gau := { s.gau with temps := s.gau.temps.set i (some temp) } }

/-- End of discharge is recognised (R303). -/
def endOfDischarge (s : State) : State :=
  let s := anchorAt s 0
  let fresh := !s.gau.eod
  let s := { s with gau := { s.gau with eod := true, eodHold := true, soc := 0, socFrac := 0, socC := 0, eC := 0, eV := 0,
                                        drift := false } }
  let s := clearLive s 0x184
  if fresh then raiseLive (drew s) 0x183 (drawn s % 2 ^ 32) else s

/-- The end-of-discharge test of a burst: V_term ≤ V_eod + I × R_pack, three times in a row (R303). -/
def judgeEod (s : State) (uv : Nat) (ua : Int) : State :=
  let low := packCells s != 0 && !(packOcv s).isEmpty
    && decide ((uv : Int) ≤ packCells s * ocvZero s * 100 + ua * rPack s / 10000)
  let s := { s with gau := { s.gau with eodBursts := if low then min 3 (s.gau.eodBursts + 1) else 0 } }
  if s.gau.eodBursts == 3 && (!s.gau.eod || !s.gau.eodHold) then endOfDischarge s else s

/-- A resistance measurement in 0.1 mΩ of two bursts: the change of V_term over that of I (R305, log entry 47). -/
def rMeasure (uv0 : Nat) (ua0 : Int) (uv : Nat) (ua : Int) : Int := (((uv : Int) - uv0) * 10000) / (ua - ua0)

/-- A bin has moved by more than 5% since the last record, at most once per hour: a record is written (R307). -/
def judgeBins (s : State) : State :=
  let moved := (List.range 8).any (fun b =>
    let was := s.gau.rSaved.getD b 0
    let new := s.gau.learned.bins.getD b 0
    decide (5 * was < 100 * (max was new - min was new)))
  let free := match s.gau.recAt with | some u => decide (u + 3600000000 ≤ s.now) | none => true
  if moved && free then saveLearned { s with gau := { s.gau with recAt := some s.now } } else s

/-- An accepted measurement moves its bin; the first one since the start may show a swap (R305, R309). -/
def takeResistance (s : State) (b m : Nat) : State :=
  let old := s.gau.learned.bins.getD b 0
  let unId := (packId s).isNone && s.gau.learned.serial == 0
  if s.gau.checkSig && unId && old != 0 && decide (30 * old < 100 * (max old m - min old m)) then packSwap s 1
  else
    let cur := rValue s b
    let new := if cur ≤ m then cur + (m - cur) / 4 else cur - (cur - m) / 4
    judgeBins { s with gau := { s.gau with checkSig := false, learned := { s.gau.learned with bins := s.gau.learned.bins.set b new } } }

/-- The resistance trigger of a burst (R305). -/
def judgeResistance (s : State) (prev : Option Burst) (b : Burst) : State :=
  match prev, tPack s with
  | some p, some t =>
    if p.fast && b.fast && 1000000 ≤ (b.ua - p.ua).natAbs then
      let m := rMeasure p.uv p.ua b.uv b.ua
      let nom := packRNom s
      if (nom : Int) ≤ 5 * m && m ≤ 5 * nom && 0 < m then takeResistance s (rBin t) m.toNat else s
    else s
  | _, _ => s

/-- The coulomb counter advances by the mean of two current samples × their interval (R298). -/
def countCharge (s : State) (prev : Option Burst) (ua : Int) : State :=
  match prev, s.gau.lastAt with
  | some p, some u =>
    let x := s.gau.coulFrac + (p.ua + ua) * ((s.now - u : Nat) : Int)
    { s with gau := { s.gau with coulomb := s.gau.coulomb + x / 2000000, coulFrac := x % 2000000 } }
  | _, _ => s

/-- Rest so far, in discharge, charge or rest (R292, R304). -/
def judgeRest (s : State) (ua : Int) (gap : Bool) : State :=
  let rest := decide (ua.natAbs < 20000)
  let dt := match s.gau.lastAt with | some u => s.now - u | none => 0
  { s with gau := { s.gau with
      resting := rest, restUs := if !rest || gap then 0 else if s.gau.resting then s.gau.restUs + dt else 0,
      restTaken := s.gau.restTaken && rest && !gap,
      eodHold := s.gau.eodHold && decide (ua < 20000) } }

/-- Energy and charge of the rehearsal phase under way (R312). -/
def countPhase (s : State) (prev : Option Burst) (uv : Nat) (ua : Int) : State :=
  match s.gau.reh, prev, s.gau.lastAt with
  | some r, some p, some u =>
    let dt : Int := ((s.now - u : Nat) : Int)
    { s with gau := { s.gau with reh := some { r with
        energy := r.energy - ((p.uv : Int) * p.ua + uv * ua) / 2 * dt, charge := r.charge - (p.ua + ua) / 2 * dt,
        rh := if r.first.isSome || r.phase != 1 then r.rh else (rMeasure p.uv p.ua uv ua).toNat,
        first := match r.first with | some x => some x | none => some (p.uv, p.ua) } } }
  | _, _, _ => s

/-- The voltage margin of a rehearsal: 1.05 × (V_eod + I × R_pack) (R314). -/
def rehMargin (s : State) (uv : Nat) (ua : Int) : Bool :=
  decide ((uv : Int) * 100 ≤ 105 * (packCells s * ocvZero s * 100 + ua * rPack s / 10000))

/-- GAUGE_BURST_DONE (R296–R305): the three results of a burst of 250 µs are in: microvolts at PACK_VSNS, across the shunt and at the
thermistor ball. -/
def execGaugeBurstDone (vsns : Nat) (isns : Int) (ts t : Nat) (s : State) : Host.Outcome State Fault Refusal :=
  let s := tick s t
  .next (if s.dev.state == .off || s.psq.collapse || !s.gau.burst || s.gau.burstAt.any (fun u => decide (s.now < u + 250)) then s
    else
      let uv := vsns * cfg s rGauSenseCfg 16 16 / 256
      let ua := isns * 1000000 / (max 100 (cfg s rGauSenseCfg 0 16) : Nat)
      let vOver := decide (1200000 ≤ vsns)
      let prev := s.gau.ring.head?
      let gap := match s.gau.lastAt with | some u => decide (u + 1500000 < s.now) | none => false
      let khz := gaugeRate s == 2
      let sens := nextSensor s
      let th := thermistor (cfg s rGauTsCfg 16 16) (max 1 ts)
      let temp := match sens, th with
        | some _, some x => x
        | _, _ => ofTwos (drawn s) 16
      let s := if sens.isSome && th.isSome then s else drew s
      let b : Burst := { ms := s.now / 1000, uv := uv, ua := ua, temp := temp, sensor := sens.getD 0,
                         overR := vOver || decide (100000 ≤ isns.natAbs) || decide (1200000 ≤ ts), gap := gap, khz := khz,
                         fast := gaugeRate s != 0 }
      let s := countPhase (judgeRest (countCharge s prev ua) ua gap) prev uv ua
      let s := { s with gau := { s.gau with
        burst := false, lastAt := some s.now, ring := (b :: s.gau.ring).take 4096, ringSeq := s.gau.ringSeq + 1,
        second := b :: s.gau.second, hotAt := if 50000 ≤ ua.natAbs then some s.now else s.gau.hotAt } }
      let s := match sens with | some i => judgeSensor s i ts temp | none => s
      let s := if vOver then raiseOpen s 0x181 else s
      let s := if gap then voidCycle s 4 else s
      let s := match tPack s with
        | some x => if 1000 ≤ x && x ≤ 4500 then s else voidCycle s 5
        | none => voidCycle s 5
      let s := judgeResistance s prev b
      let s := judgeEod s uv ua
      if s.gau.reh.isSome && rehMargin s uv ua then rehAbort s 3 else s)

/-! ### Gauge update (R301, R302, R308, R311, R315, R316) -/

/-- The first condition of R295 that holds, 0 for none. -/
def absentReason (s : State) : Nat :=
  if packCells s == 0 || packDesign s == 0 || (packOcv s).isEmpty then 1
  else if s.gau.mv * 20 < packCells s * ocvZero s then 2
  else if cfg s rGauPackCfg 31 1 == 1 && (3 ≤ s.gau.protFails || fenced s 1) then 3
  else if cfg s rGauPackCfg 31 1 == 1 && s.gau.protWarn then 4
  else 0

/-- The means of the second: mV and mA over its bursts, an over-range voltage sample not used (R297, R301). -/
def takeMeans (s : State) : State :=
  let full := 1200000 * cfg s rGauSenseCfg 16 16 / 256
  let good := s.gau.second.filter (fun b => b.uv < full)
  let s := if good.isEmpty then s else
    { s with gau := { s.gau with mv := good.foldl (fun a b => a + b.uv) 0 / good.length / 1000 } }
  if s.gau.second.isEmpty then { s with gau := { s.gau with ovr := false } }
  else { s with gau := { s.gau with
    ma := s.gau.second.foldl (fun a b => a + b.ua) 0 / (s.gau.second.length : Int) / 1000,
    ovr := good.length != s.gau.second.length, second := [] } }

/-- SoC_v and SoC_c (R301). -/
def takeEstimates (s : State) : State :=
  let n := packCells s
  let ocv : Int := ((s.gau.mv : Int) * 10000 - s.gau.ma * rPack s) / (1000 * n : Nat)
  let v := if n == 0 then s.gau.socV else socOf (packOcv s) ocv
  let q := qLearn s * 1000
  let c := s.gau.anchor + (if q == 0 then 0 else 10000 * (s.gau.coulomb - s.gau.anchorUc) / (q : Int))
  { s with gau := { s.gau with socV := v, socC := c } }

/-- The estimate in use, 0.01%: SoC_c, or the owner's value (R302, R316). -/
def estimate (s : State) : Int :=
  match s.gau.hostSoc with
  | some v => if assisted s 2 then v else s.gau.socC
  | none => s.gau.socC

/-- COULOMB_DRIFT is judged (R308, R315). A rest point due at this same update governs: it re-anchors SoC_c. -/
def judgeDrift (s : State) : State :=
  if s.gau.drift || 1800000000 ≤ s.gau.restUs || s.gau.eod || s.gau.socV < 100 || 0 < estimate s then s
  else
    let s := voidCycle s 3
    raiseLive (drew { s with gau := { s.gau with drift := true } }) 0x184 (drawn s % 2 ^ 32)

/-- The next reported state of charge, in thirds of 0.01% (R302, R303, R308). -/
def nextSoc (s : State) : Nat :=
  let g := s.gau
  let est := (estimate s).toNat
  let cur := 3 * g.soc + g.socFrac
  let tgt := 3 * min 10000 est
  if g.eodHold then 0
  else if g.ma ≤ -20 then
    let v := min cur tgt
    if g.drift then max 300 v else v
  else
    let v := if cur ≤ tgt then min tgt (cur + 5) else max tgt (cur - 5)
    if g.drift then max 300 v else v

/-- Energy in J of a state of charge in 0.01%: C_E × SoC, rounded down (R311). -/
def packEnergy (s : State) (soc : Nat) : Nat :=
  qLearn s * packCells s * ocvArea (packOcv s) * soc / (1000 * 20000 * 10000 * 10000)

/-- k_temp in 0.001: at the sensor that gives the lowest value; the curve's lowest point with none valid (R311). -/
def kTempNow (s : State) : Nat :=
  let c := if s.gau.kTempCurve.isEmpty then defaultKTemp else s.gau.kTempCurve
  match validTemps s with
  | [] => c.foldl (fun a p => min a p.2) 1000
  | l => l.foldl (fun a x => min a (interp (c.map (fun p => (p.1, (p.2 : Int)))) x).toNat) 1000

/-- k_age in 0.001 (R311). -/
def kAgeNow (s : State) : Nat :=
  let c := if s.gau.kAgeCurve.isEmpty then defaultKAge else s.gau.kAgeCurve
  (interp (c.map (fun p => (p.1 * 315576, (p.2 : Int)))) (packAge s)).toNat

/-- The end of a HELD that waits on pack power, as a gauge update finds it (R25). -/
def holdCheck (s : State) : State :=
  if s.dev.state != .held then s
  else
    let m := cfg s rAonHoldCfg 16 16
    let s := { s with hrv := { s.hrv with heldSeconds := (s.now - s.dev.stateAt) / 1000000, holdMax := m } }
    if outranked s 7 then s
    else if !(heldByMr s && m == 0) && m ≤ s.hrv.heldSeconds then toRailsDown (noteWon s 7) .holdTime
    else if s.gau.soc < 100 * min 100 (cfg s rAonHoldCfg 0 7) then toRailsDown (noteWon s 7) .holdFloor
    else s

/-- PACK_ABSENT follows the conditions of R295; presence that returns asks for the signature check (R309). -/
def judgeUsable (s : State) : State :=
  let r := absentReason s
  let was := s.gau.reason
  let s := { s with gau := { s.gau with usable := r == 0, reason := r, checkSig := s.gau.checkSig || (r == 0 && was != 0) } }
  if r == 0 then clearLive s 0x180
  else
    let s := if (source s 0x180).live then s else raiseLive s 0x180 r
    rehAbort s 4

/-- GAU_STATUS, without reserved bits. -/
def gauStatus (s : State) : Nat :=
  let g := s.gau
  fld (gaugeRate s) 30 2 + fld (b2n g.usable) 29 1 + fld (b2n (packId s).isSome) 28 1 + fld (b2n g.protOk) 27 1
    + fld (b2n g.eod) 26 1 + fld (b2n g.drift) 25 1 + fld (b2n g.resting) 24 1
    + fld (b2n (assisted s 2 && g.hostSoc.isSome)) 23 1 + fld (b2n (validTemps s).isEmpty) 22 1 + fld g.reason 19 3
    + fld g.soc 0 14

/-- Result bytes of GAUGE_READ as the values stand now (R317). -/
def gaugeBytes (s : State) : List Byte :=
  let g := s.gau
  le g.soc 2 ++ le (twos g.socC 16) 2 ++ le g.socV 2 ++ le (gauStatus s / 65536) 2 ++ le g.eC 4 ++ le g.eV 4

/-- GAUGE_UPDATE (R302, R311): once per second. -/
def execGaugeUpdate (t : Nat) (s : State) : Host.Outcome State Fault Refusal :=
  let s := tick s t
  .next (if s.dev.state == .off || s.psq.collapse || s.gau.updAt.any (fun u => decide (s.now < u + 1000000)) then s
    else
      let s := takeEstimates (judgeUsable (takeMeans { s with gau := { s.gau with updAt := some s.now } }))
      let s := if assisted s 2 then s else { s with gau := { s.gau with hostSoc := none } }
      let s := if s.gau.socSet then s else
        let s := anchorAt s s.gau.socV
        { s with gau := { s.gau with socC := s.gau.socV, soc := s.gau.socV, socFrac := 0 } }
      let s := if s.gau.eod && 100 < s.gau.socV && 20 ≤ s.gau.ma then
        clearLive { s with gau := { s.gau with eod := false } } 0x183 else s
      let s := judgeDrift s
      let first := !s.gau.socSet
      let n := nextSoc s
      let s := if first && !s.gau.eodHold then { s with gau := { s.gau with socSet := true } }
        else { s with gau := { s.gau with soc := n / 3, socFrac := n % 3, socSet := true } }
      let off := !s.gau.usable || s.gau.eodHold || fenced s 1
      let s := { s with gau := { s.gau with
        eC := if off || s.gau.drift then 0 else packEnergy s (min 10000 (estimate s).toNat),
        eV := if off then 0 else packEnergy s s.gau.socV,
        kTemp := kTempNow s, kAge := kAgeNow s } }
      let s := judgeBins { s with gau := { s.gau with shown := gaugeBytes s } }
      let s := if logicOn s && s.d2d.up then { s with d2d := { s.d2d with gaugeDue := true } } else s
      holdCheck s)

/-! ### Rest points and learning (R304, R306) -/

/-- The end of a learning cycle at rest point B: what LAST_RESULT records, and Q_learn (R306). -/
def learnAt (s : State) (b : Nat) : State :=
  match s.gau.restA with
  | none => s
  | some (a, ca) =>
    let dq := (s.gau.coulomb - ca).natAbs
    let ds := ((b : Int) - a).natAbs
    let design := packDesign s * 10000
    if s.gau.voidWhy != 0 then { s with gau := { s.gau with lastRes := s.gau.voidWhy } }
    else if dq < 400 * design then { s with gau := { s.gau with lastRes := 6 } }
    else if ds == 0 then { s with gau := { s.gau with lastRes := 7 } }
    else
      let m := dq * 10 / ds
      if 2 * m < design || 11 * design < 10 * m then { s with gau := { s.gau with lastRes := 7 } }
      else
        let q := qLearn s
        let d := if q ≤ m then (m - q) / 4 else (q - m) / 4
        let lim := decide (q / 10 < d)
        let d := min d (q / 10)
        let q' := if q ≤ m then q + d else q - d
        let s := { s with gau := { s.gau with
          lastRes := if lim then 2 else 1,
          learned := { s.gau.learned with qmC := q', seq := max 1 s.gau.learned.seq,
                                          count := min 0xFFFF (s.gau.learned.count + 1) } } }
        if q' == q then s else saveLearned s

/-- REST_POINT (R304, R306, R308): 30 min of rest without a gap; a point taken again in the same rest replaces the
one before. -/
def execRestPoint (t : Nat) (s : State) : Host.Outcome State Fault Refusal :=
  let s := tick s t
  .next (if s.dev.state == .off || s.psq.collapse || s.gau.restUs < 1800000000 || packCells s == 0 || (packOcv s).isEmpty then s
    else
      let l := s.gau.ring.take 16
      let uv := l.foldl (fun a b => a + b.uv) 0 / l.length
      let b := socOf (packOcv s) (((uv / packCells s / 100 : Nat) : Int))
      let s := if s.gau.restTaken then s else learnAt s b
      let wasDrift := s.gau.drift
      let s := anchorAt s b
      let s := { s with gau := { s.gau with
        restUs := 0, restTaken := true, restSoc := b, socC := b, voidWhy := 0, drift := false,
        restA := if wasDrift then none else some ((b : Int), s.gau.coulomb) } }
      let s := if wasDrift then clearLive s 0x184 else s
      if s.gau.eod && 100 < b then clearLive { s with gau := { s.gau with eod := false } } 0x183 else s)

/-! ### Pack ID and protector (R293, R294) -/

/-- A valid pack ID record (Table 10.2). -/
def packIdOf (d : List Byte) : Option PackId :=
  if d.length == 32 && rd d 0 4 == 0x5041434B && rd d 4 8 != 0 && rd d 28 4 == crc32c (d.take 28) then
    some { serial := rd d 4 8, table := rd d 12 1, cells := rd d 13 1, design := rd d 14 2, rNom := rd d 16 2 }
  else none

/-- PACK_ID_READ (R293, R309): 32 bytes read from the pack ID memory, or a read that failed. -/
def execPackIdRead (data : List Byte) (ok : Bool) (t : Nat) (s : State) : Host.Outcome State Fault Refusal :=
  let s := tick s t
  .next (if s.dev.state == .off || s.psq.collapse || cfg s rGauPackCfg 30 1 == 0 then s
    else
      let s := { s with gau := { s.gau with id := if ok && twiUp s 1 then packIdOf data else none } }
      match s.gau.id with
      | some p => if p.serial != s.gau.learned.serial then packSwap s 0 else s
      | none => s)

/-- PROTECTOR_READ (R294): BatteryStatus, or a read that failed. -/
def execProtectorRead (word : Nat) (ok : Bool) (t : Nat) (s : State) : Host.Outcome State Fault Refusal :=
  let s := tick s t
  .next (if s.dev.state == .off || s.psq.collapse || cfg s rGauPackCfg 31 1 == 0 then s
    else if ok && twiUp s 1 then
      let warn := bit word 11 || bit word 12
      let s := { s with gau := { s.gau with protFails := 0, protWarn := warn, protOk := !warn } }
      if warn then rehAbort s 4 else s
    else
      let n := min 3 (s.gau.protFails + 1)
      { s with gau := { s.gau with protFails := n, protOk := s.gau.protOk && decide (n < 3) } })

/-! ### Commands (R317) -/

/-- The protector was read and is not lost (R294). -/
def protRead (s : State) : Bool := (s.gau.protOk || s.gau.protWarn) && decide (s.gau.protFails < 3) && !fenced s 1

/-- PACK_INFO (R317). -/
def cmdPackInfo (f : InFlight) (s : State) : State :=
  if f.cmd.payLen != 0 && f.cmd.payLen < 64 then badParam s f.id 0x40
  else
    let id := packId s
    let usable := b2n s.gau.usable + 2 * b2n id.isSome + 4 * b2n (protRead s) + 8 * b2n s.gau.swapped
    let r := le ((id.map (·.serial)).getD 0) 8 ++ le (packTable s) 1 ++ le (packCells s) 1 ++ le usable 1
      ++ le (min 255 (packAge s / 31557600)) 1 ++ le (qLearn s / 1000) 4
    endOut s f.id r (if f.cmd.payLen == 0 then [] else learnedBytes { s.gau.learned with qmC := qLearn s })

/-- GAUGE_READ (R317): every value as of the last gauge update. -/
def cmdGaugeRead (f : InFlight) (s : State) : State := endOk s f.id (if s.gau.shown.isEmpty then gaugeBytes s else s.gau.shown)

/-- A burst of GAUGE_RAW (R317). -/
def burstBytes (b : Burst) : List Byte :=
  le b.ms 4 ++ le b.uv 4 ++ le (twos b.ua 32) 4 ++ le (twos b.temp 16) 2 ++ le b.sensor 1
    ++ le (b2n b.overR + 2 * b2n b.gap + 4 * b2n b.khz) 1

/-- GAUGE_RAW (R317): bursts from FROM_SEQ on, oldest first. -/
def cmdGaugeRaw (f : InFlight) (s : State) : State :=
  let n := f.cmd.payLen
  if n < 16 || n % 16 != 0 then badParam s f.id 0x40
  else
    let from0 := pNum f.cmd 24 4
    let oldest := s.gau.ringSeq - s.gau.ring.length
    let start := min s.gau.ringSeq (max from0 oldest)
    let k := min (n / 16) (s.gau.ringSeq - start)
    let out := ((s.gau.ring.reverse.drop (start - oldest)).take k).flatMap burstBytes
    endOut s f.id (le k 4 ++ le (start + k) 4 ++ le (oldest - from0) 4 ++ zeros 4) out

/-- PACK_INFO as a packet. -/
def execPackInfo (c : TrellisCmd) (s : State) : Host.Outcome State Fault Refusal := .next (submit cmdPackInfo 0x0400 c s)

/-- GAUGE_READ as a packet. -/
def execGaugeRead (c : TrellisCmd) (s : State) : Host.Outcome State Fault Refusal := .next (submit cmdGaugeRead 0x0401 c s)

/-- GAUGE_RAW as a packet. -/
def execGaugeRaw (c : TrellisCmd) (s : State) : Host.Outcome State Fault Refusal := .next (submit cmdGaugeRaw 0x0402 c s)

/-! ### OCV and derating image (R300, R320) -/

/-- A list of points ascends strictly in its first column and in its second. -/
def risesNat : List (Nat × Nat) → Bool
  | p :: q :: r => decide (p.1 < q.1 && p.2 < q.2) && risesNat (q :: r)
  | _ => true

/-- A curve's first column ascends strictly. -/
def risesX : List (Int × Nat) → Bool
  | p :: q :: r => decide (p.1 < q.1) && risesX (q :: r)
  | _ => true

/-- The content rules of an OCV image (R300). -/
def ocvOk (tabs : List (Nat × List (Nat × Nat))) (curves : List (Int × Nat) × List (Int × Nat)) : Bool :=
  tabs.length ≤ 4 && decide ((tabs.map (·.1)).Nodup) && tabs.all (fun t =>
      decide (t.1 < 4) && decide (2 ≤ t.2.length) && decide (t.2.length ≤ 64) && risesNat t.2
      && (t.2.head?.map (·.1)) == some 0 && (t.2.getLast?.map (·.1)) == some 10000)
    && curves.1.length == 8 && curves.2.length == 8 && risesX curves.1 && risesX curves.2

/-- An OCV and derating image carried by RAIL_TABLE_LOAD (R300, R320). -/
def ocvLoad (f : InFlight) (b : List Byte) (s : State) : State :=
  let body := (container b).body
  let version := le (match s.psq.nextTable with | some t => t.version | none => s.psq.table.version) 2
  if !containerOk s 0x11 b then endWith s f.id 0x0B 0
  else if !ocvOk (Config.ocvTables body) (Config.ocvCurves body) then
    finish s f.id { status := 0x04, detail := 0x40, result := version }
  else
    let s := { s with gau := { s.gau with
      ocv := (Config.ocvTables body).map (fun t => { number := t.1, points := t.2 }),
      kTempCurve := (Config.ocvCurves body).1, kAgeCurve := (Config.ocvCurves body).2 } }
    endOk (pairWrite s 3) f.id version

/-- RAIL_TABLE_LOAD (R320, R300): a rail table, or an OCV and derating image. -/
def cmdRailTableLoad (f : InFlight) (s : State) : State := railTableLoad ocvLoad f s

/-- RAIL_TABLE_LOAD as a packet. -/
def execRailTableLoad (c : TrellisCmd) (s : State) : Host.Outcome State Fault Refusal :=
  .next (submit cmdRailTableLoad 0x0501 c s)

/-! ### Registers -/

/-- A temperature of GAU_TEMP. -/
def tempByte (s : State) (i : Nat) : Nat :=
  if !(sensorsOn s).contains i || s.gau.tsOut.contains i then 0x80
  else match s.gau.temps.getD i none with | some x => twos (x / 100) 8 | none => 0x80

/-- GAU registers whose value the state's own fields give; `high` the high word of GAU_COULOMB. -/
def viewGauge (s : State) (c : Nat) (high : Bool) : Option Nat :=
  let g := s.gau
  if c == rGauStatus then some (gauStatus s)
  else if c == rGauSoc then some (fld (twos g.socC 16) 16 16 + g.socV % 65536)
  else if c == rGauVolt then some (fld (b2n g.ovr) 31 1 + g.mv % 65536)
  else if c == rGauCurr then some (twos g.ma 32)
  else if c == rGauEnergyC then some g.eC
  else if c == rGauEnergyV then some g.eV
  else if c == rGauDerate then some (fld g.kTemp 16 10 + fld g.kAge 0 10)
  else if c == rGauLearn then some (fld (qLearn s / 1000) 8 24 + fld (b2n g.restA.isSome) 7 1 + fld g.lastRes 0 4)
  else if c == rGauTemp then some ((List.range 4).foldl (fun a i => a + fld (tempByte s i) (8 * i) 8) 0)
  else if c == rGauRpack then
    some (fld (rPack s) 16 16 + fld (maskOf ((List.range 8).filter (fun i => g.learned.bins.getD i 0 != 0))) 8 8
      + fld (match tPack s with | some x => rBin x | none => 0) 0 3)
  else if c == rGauCoulomb then some (if high then twos g.coulomb 64 / 2 ^ 32 else twos g.coulomb 64 % 2 ^ 32)
  else if c == rGauRehStatus then
    some (fld g.rehResult 28 4 + fld (b2n g.rehQuiet) 27 1
      + (match g.rehAt with | some u => min 0xFFFF ((opSecs s - u) / 3600) | none => 0xFFFF))
  else none

/-- Configuration fields that read back as a valid pack ID record holds them (R293). -/
def overGauge (s : State) (c n : Nat) : Nat :=
  match packId s with
  | none => n
  | some p =>
    if c == rGauPackCfg then putBits (putBits n 28 2 p.table) 0 5 p.cells
    else if c == rGauDesign then fld p.design 16 16 + fld p.rNom 0 16
    else n

end Sys2Proof.Machine
end

