-- ==== Sys2Proof/Machine/Dram.lean ====
section
/-! DEFINITION. The DRAM channels: lines and granules, error correction, tally units, scheduling, refresh, training in
service, scrub (chapter 4). -/

namespace Sys2Proof.Machine

open Sys2Proof

/-! ### Channels and addresses (R110, R111) -/

/-- Channel `c`. -/
def ddr (s : State) (c : Nat) : Ddr := tgetD s.ddrs.ch c {}

/-- Sets channel `c`. -/
def setDdr (s : State) (c : Nat) (x : Ddr) : State := { s with ddrs := { s.ddrs with ch := tset s.ddrs.ch c x } }

/-- log2 of the number of populated channels. -/
def chanBits (s : State) : Nat := Nat.log2 (popChannels s).length

/-- Granule of a line. -/
def lineGran (l : Nat) : Nat := l / 256

/-- DDR channel of a line. -/
def lineChan (s : State) (l : Nat) : Nat := granChan s (lineGran l)

/-- Channel-local byte address of a line (R110). -/
def localAddr (s : State) (l : Nat) : Nat := (lineGran l >>> chanBits s) * 16384 + l % 256 * 64

/-- Channel-local granule index (R110). -/
def localGran (s : State) (l : Nat) : Nat := lineGran l >>> chanBits s

/-- Rank of a line (R111). -/
def lineRank (s : State) (l : Nat) : Nat := (Config.ddrPlace (localGran s l)).1 % 8

/-- 1 GiB region of a line. -/
def lineRegion (l : Nat) : Nat := l / 16777216

/-- Host granules of the device: the extents less the reserved ones (R112, ALT_EXT_TOTAL). -/
def hostGranules (s : State) : Nat := s.alt.total * 16384

/-! ### The granule CRC (R132, R133) -/

/-- Polynomial of the granule CRC. -/
def crcPoly : Nat := 0x42F0E1EBA9EA3693

/-- The CRC-64 of R132. -/
def crc64 (l : List Byte) : Nat := crcF 64 crcPoly 0 0 l

/-- Product of two residues, taking the bits of `b` from the highest. -/
def gfTimes (a b : Nat) : Nat :=
  (List.range 64).foldl (fun acc i => (crcBitF 64 crcPoly acc) ^^^ (if b.testBit (63 - i) then a else 0)) 0

/-- `x ^ (512 × k)` modulo the polynomial, for `k` below 256. -/
def gfShift (k : Nat) : Nat :=
  let base := crcBitF 64 crcPoly (1 <<< 63)
  let sq := fun (n : Nat) (a : Nat) => Nat.repeat (fun z => gfTimes z z) n a
  let x512 := sq 3 base
  ((List.range 8).foldl (fun (acc : Nat × Nat) i =>
    (if k.testBit i then gfTimes acc.1 acc.2 else acc.1, gfTimes acc.2 acc.2)) (1, x512)).1

/-- Contribution of a line's content at place `j` to its granule's CRC. -/
def crcLine (j : Nat) (d : List Byte) : Nat := if allZero d then 0 else gfTimes (crc64 d) (gfShift (255 - j))

/-! ### Lines (R82, R126, R132) -/

/-- A line is stored poisoned. -/
def poisoned (s : State) (l : Nat) : Bool := s.mem.poison.contains l

/-- The 64 bytes of a line. -/
def lineBytes (s : State) (l : Nat) : List Byte := mreadN s.mem.cells (64 * l) 64

/-- A line as the CRC counts it: 64 bytes of 0xFF when poisoned (R132). -/
def lineCounted (s : State) (l : Nat) : List Byte := if poisoned s l then List.replicate 64 0xFF#8 else lineBytes s l

/-- The granule's entry of the CRC table. -/
def granCrc (s : State) (g : Nat) : Nat := (tgetD s.mem.crc g 0#64).toNat

/-- Sets a granule's entry; an entry of zero is not listed. -/
def setCrc (s : State) (g v : Nat) : State :=
  { s with mem := { s.mem with crc := if v % 2 ^ 64 = 0 then tdel s.mem.crc g else tset s.mem.crc g (BitVec.ofNat 64 v) } }

/-- Stores a line, poisoned or not, with no effect on the CRC table. A poisoned line keeps no content. -/
def putLine (s : State) (l : Nat) (d : List Byte) (pois : Bool) : State :=
  { s with mem := { s.mem with
      cells := mwriteN s.mem.cells (64 * l) (if pois then zeros 64 else padTo d 64),
      poison := if pois then sins s.mem.poison l else sdel s.mem.poison l,
      ueLines := sdel s.mem.ueLines l } }

/-- Stores a line and updates its granule's entry by the difference (R133). -/
def storeLine (s : State) (l : Nat) (d : List Byte) (pois : Bool) : State :=
  let old := lineCounted s l
  let s := putLine s l d pois
  let diff := List.zipWith (· ^^^ ·) old (lineCounted s l)
  if allZero diff then s
  else setCrc s (lineGran l) (granCrc s (lineGran l) ^^^ crcLine (l % 256) diff)

/-- The CRC-64 of a granule's present content. -/
def granCrcOf (s : State) (g : Nat) : Nat :=
  (List.range 256).foldl (fun a j => a ^^^ crcLine j (lineCounted s (256 * g + j))) 0

/-! ### Errors (R126–R128) -/

/-- DDRn_ECC of a channel. -/
def ecc (c : Nat) : Nat := regAt rDdrEcc c

/-- A corrected error of device `dev` on a line (R127): devices are counted by subchannel, rank and position. -/
def corrected (s : State) (l dev : Nat) : State :=
  let c := lineChan s l
  let a := ecc c
  let s := setFld (setFld (bump s a 16 16 1) a 4 4 (dev % 16)) a 3 1 (l % 2)
  let x := ddr s c
  let key := (lineRank s l * 2 + l % 2) * 16 + dev % 16
  let times := s.now :: (tgetD x.ceDev key []).filter (fun u => s.now ≤ u + 86400000000)
  let full := decide (max 1 x.ceThresh ≤ times.length)
  let s := setDdr s c { x with ceDev := tset x.ceDev key (if full then [] else times) }
  let s := { s with ist := { s.ist with secCe := min 0xFFFF (s.ist.secCe + 1) } }
  if full then raiseOpen s (0x043 + 8 * c) else s

/-- An uncorrectable error is seen on a line: counted, its address kept, its region marked (R128). -/
def noteUe (s : State) (l : Nat) : State :=
  let c := lineChan s l
  let a := ecc c
  let s := setFld (bump s a 8 8 1) a 3 1 (l % 2)
  let s := setDdr s c { ddr s c with ueLine := localAddr s l }
  { s with mem := { s.mem with ueLines := if poisoned s l then s.mem.ueLines else sins s.mem.ueLines l,
                               ueRegions := sins s.mem.ueRegions (lineRegion l) } }

/-- A granule's entry is to be rebuilt from a full read (R128, R134). -/
def beginRebuild (s : State) (g : Nat) : State :=
  let c := granChan s g
  let s := setDdr s c { ddr s c with rebuild := some ((ddr s c).rebuild.getD g) }
  { s with mem := { s.mem with rebuildWaits := sins s.mem.rebuildWaits g } }

/-- An internal reader finds a line uncorrectable: it is written back as poisoned, its granule's entry is rebuilt, and DDR_UE
is raised with the channel-local address, in lines (R128, log entry 38). -/
def internalUe (s : State) (l : Nat) : State :=
  let s := beginRebuild (putLine (noteUe s l) l [] true) (lineGran l)
  raise s (0x044 + 8 * lineChan s l) (localAddr s l / 64)

/-- Internal reads of a granule that find lines uncorrectable. -/
def internalUes (s : State) (ls : List Nat) : State := ls.foldl internalUe s

/-! ### Granules -/

/-- A granule's content as cells from its first byte. -/
def granCells (s : State) (g : Nat) : List Host.Cell := mcut s.mem.cells (16384 * g) 16384

/-- A granule's poisoned lines, 0 to 255. -/
def granPoison (s : State) (g : Nat) : List Nat :=
  (s.mem.poison.filter (fun l => lineGran l == g)).map (· % 256)

/-- Writes a whole granule as a replant does: the entry is replaced (R135). -/
def putGran (s : State) (g : Nat) (cells : List Host.Cell) (pois : List Nat) : State :=
  let s := { s with mem := { s.mem with
    cells := mpaste s.mem.cells (16384 * g) 16384 (cells.filter (fun c => !(pois.contains (c.1 / 64)))),
    poison := sunion (s.mem.poison.filter (fun l => lineGran l != g)) (pois.map (fun j => 256 * g + j)),
    ueLines := s.mem.ueLines.filter (fun l => lineGran l != g) } }
  setCrc s g (granCrcOf s g)

/-- Zeroes a granule (R102, R104). -/
def zeroGran (s : State) (g : Nat) : State := putGran s g [] []

/-! ### Queues and scheduling (R111, R113–R115) -/

/-- A request with its place: subchannel from the line's lowest bit, column from the others, rank, bank group and bank, and row
from the channel-local granule index, bank group and bank XORed with the low row bits (R111). The bank key holds
subchannel, rank and bank. -/
def placeReq (s : State) (n l : Nat) (write : Bool) : DdrReq :=
  let p := Config.ddrPlace (localGran s l)
  let b := p.2.1 ^^^ (p.2.2 % 2 ^ Config.ddrBankBits)
  { n := n, line := l, write := write, bank := b * 16 + p.1 % 8 * 2 + l % 2, row := p.2.2, col := l % 256 / 2 }

/-- A request is one of queue (`write`, `sub`). -/
def inQueue (write : Bool) (sub : Nat) (q : DdrReq) : Bool := q.write == write && q.line % 2 == sub

/-- Its queue can take a request: the channel takes requests, fewer than 64 entries stand in it, and none waits before it
(R113, R115, R123). -/
def queueTakes (x : Ddr) (q : DdrReq) : Bool :=
  let of := inQueue q.write (q.line % 2)
  x.st == 2 && ((if q.write then x.wrq else x.rdq).filter of).length < 64

/-- A request enters its queue. -/
def intoQueue (x : Ddr) (q : DdrReq) : Ddr :=
  if q.write then { x with wrq := x.wrq ++ [q] } else { x with rdq := x.rdq ++ [q] }

/-- A request joins its queue; the ledger holds it where the queue takes nothing further (R113, R115). -/
def enqueue (s : State) (n l : Nat) (write : Bool) : State :=
  let c := lineChan s l
  let x := ddr s c
  let q := { placeReq s n l write with age := x.arrived }
  let x := { x with arrived := x.arrived + 1 }
  setDdr s c (if queueTakes x q && !x.wait.any (inQueue q.write (q.line % 2)) then intoQueue x q else { x with wait := x.wait ++ [q] })

/-- Requests the ledger holds enter their queues, oldest first, as far as there are places (R115). -/
def takeWaiting (x : Ddr) : Ddr :=
  x.wait.foldl (fun x q =>
    if queueTakes x q && !x.wait.any (inQueue q.write (q.line % 2)) then intoQueue x q else { x with wait := x.wait ++ [q] })
    { x with wait := [] }

/-- Two requests name one row. -/
def sameRow (q r : DdrReq) : Bool := q.bank == r.bank && q.row == r.row

/-- A row is in in-order mode (R114): a write to it that arrived before its newest read is queued. -/
def inOrder (x : Ddr) (q : DdrReq) : Bool :=
  x.wrq.any (fun w => sameRow w q && x.rdq.any (fun r => sameRow r q && w.age < r.age))

/-- The in-order rule holds a request back, or an older write to its line does (R113, R114). -/
def blocked (x : Ddr) (q : DdrReq) : Bool :=
  (inOrder x q && (x.rdq ++ x.wrq).any (fun r => sameRow r q && r.age < q.age))
    || (q.write && x.wrq.any (fun w => w.line == q.line && w.age < q.age))

/-- An older urgent request waits for its bank (R113). -/
def barred (x : Ddr) (q : DdrReq) : Bool := (x.rdq ++ x.wrq).any (fun u => u.urgent && u.bank == q.bank && u.age < q.age)

/-- The request the scheduler takes from a class: one to an open row, then the oldest (R113). -/
def pick (x : Ddr) (l : List DdrReq) : Option DdrReq :=
  match l.find? (fun q => tget x.openRows q.bank == some q.row) with
  | some q => some q
  | none => l.head?

/-- The write queue of a subchannel drains (R113): it holds at least 48 entries, or has and still more than 16; or no
read is queued, or the in-order rule blocks one. -/
def drains (x : Ddr) (sub : Nat) : Bool :=
  let w := (x.wrq.filter (inQueue true sub)).length
  let r := x.rdq.filter (inQueue false sub)
  48 ≤ w || (x.drain.contains sub && 16 < w) || r.isEmpty || r.any (blocked x)

/-- One request of subchannel `sub` is issued on the bus: from the class that goes first, else from the other where that
has none that may (R113, R114). -/
def issueOn (x : Ddr) (sub : Nat) : Ddr :=
  let may := fun (q : DdrReq) => !blocked x q && !barred x q
  let w := x.wrq.filter (fun q => inQueue true sub q && may q)
  let r := x.rdq.filter (fun q => inQueue false sub q && may q)
  let n := (x.wrq.filter (inQueue true sub)).length
  let x := { x with drain := if 48 ≤ n || (x.drain.contains sub && 16 < n) then sins x.drain sub else sdel x.drain sub }
  match (if drains x sub then (pick x w).orElse (fun _ => pick x r) else (pick x r).orElse (fun _ => pick x w)) with
  | none => x
  | some q =>
    let x := if q.write then { x with wrq := x.wrq.erase q } else { x with rdq := x.rdq.erase q }
    { x with openRows := tset x.openRows q.bank q.row }

/-- A channel that enters self-refresh has drained both queues: its banks are precharged, every rank enters, the lane delays
are saved to cold-frame SRAM, its clocks stop; one that leaves takes requests again (R123). -/
def restStep (x : Ddr) : Ddr :=
  if x.st != 4 then x
  else if x.leaving then { x with st := 2, leaving := false }
  else if x.rdq.isEmpty && x.wrq.isEmpty then { x with st := 3, openRows := [], drain := [], saved := x.lanes }
  else x

/-- One turn of a channel: what waits enters the queues, each subchannel issues one request, and a self-refresh entry or exit
goes on (log entry 2). -/
def channelTurn (x : Ddr) : Ddr :=
  let x := takeWaiting x
  restStep (if (x.st == 2 || x.st == 4) && !(x.rdq.isEmpty && x.wrq.isEmpty) then issueOn (issueOn x 0) 1 else x)

/-- Every channel takes its turn. -/
def issueAll (s : State) : State :=
  { s with ddrs := { s.ddrs with ch := s.ddrs.ch.map (fun p => (p.1, channelTurn p.2)) } }

/-- REQUEST_URGENT (R113): a request has waited 400 ns. -/
def execRequestUrgent (c n t : Nat) (s : State) : Host.Outcome State Fault Refusal :=
  let s := tick s t
  let mark := fun (l : List DdrReq) => l.map (fun q => if q.n == n then { q with urgent := true } else q)
  .next (setDdr s c { ddr s c with rdq := mark (ddr s c).rdq, wrq := mark (ddr s c).wrq })

/-! ### Refresh and retraining (R116, R120–R122) -/

/-- A pass may start or go on: not in HARVESTING, HELD or RAILS_DOWN, channel active (R121). -/
def mayRetrain (s : State) (c : Nat) : Bool :=
  serving s && (ddr s c).st == 2

/-- A delay moved toward a midpoint by at most 2 steps (R120). -/
def moveCentre (old mid : Nat) : Nat := if old ≤ mid then old + min 2 (mid - old) else old - min 2 (old - mid)

/-- Lanes of a channel: subchannel, logical rank of either DIMM, byte lane. -/
def allLanes (x : Ddr) : List Nat :=
  [0, 1].flatMap (fun sub => (List.range (x.dimms * x.ranks)).flatMap (fun r => (List.range 5).map (fun l => sub * 64 + r * 8 + l)))

/-- A retraining step on one lane (R120, R122). -/
def probeLane (s : State) (c : Nat) (p : LaneProbe) : State :=
  let x := ddr s c
  let l := tgetD x.lanes p.lane {}
  let hr := if p.lost then p.rd else moveCentre l.hwRd p.rd
  let hw := if p.lost then p.wr else moveCentre l.hwWr p.wr
  let l := { l with hwRd := hr % 128, hwWr := hw % 128, margin := min 255 p.width,
                    rd := if l.hostSet then l.rd else hr % 128, wr := if l.hostSet then l.wr else hw % 128 }
  let s := setDdr s c { x with lanes := tset x.lanes p.lane l, marginMin := min x.marginMin (min 255 p.width),
                               probed := sins x.probed p.lane }
  let s := if p.lost then bump s (regAt rDdrTrain c) 4 4 1 else s
  if p.lost && p.width < 16 then raiseOpen s (0x042 + 8 * c)
  else if p.width < 12 then raiseOpen s (0x041 + 8 * c) else s

/-- Refresh interval of a channel, ns: tREFI, halved while MR4 reports the range above 85 °C (R116). -/
def refreshNs (x : Ddr) : Nat := if x.hot then 1950 else 3900

/-- Requests are queued to a rank. -/
def rankQueued (x : Ddr) (rank : Nat) : Bool := (x.rdq ++ x.wrq).any (fun q => q.bank / 2 % 8 == rank)

/-- A rank's refresh is issued: rows of the rank close, all of them or those of one bank of each group (R116). -/
def refreshRank (x : Ddr) (rank : Nat) (all : Bool) : Ddr :=
  let k := tgetD x.nextBank rank 0
  let shut := fun (b : Nat) => b / 2 % 8 == rank && (all || Config.ddrBankInGroup (b / 16) == k)
  { x with
    openRows := x.openRows.filter (fun p => !shut p.1),
    nextBank := if all then x.nextBank else tset x.nextBank rank (if k + 1 < Config.ddrGroupBanks then k + 1 else 0) }

/-- A rank's interval elapses with no retraining step due (R116): one pulled in covers it; while requests are queued to the
rank it is postponed, at most four times, a fifth goes before every request; while the rank is idle it is issued, and one
more, postponed or pulled in. -/
def refreshTurn (x : Ddr) (rank : Nat) : Ddr :=
  let post := tgetD x.postponed rank 0
  let ahead := tgetD x.pulledIn rank 0
  let all := !x.sameBank
  if rankQueued x rank then
    if 0 < ahead then { x with pulledIn := tset x.pulledIn rank (ahead - 1) }
    else if post < 4 then { x with postponed := tset x.postponed rank (post + 1) }
    else refreshRank x rank all
  else
    let x := refreshRank x rank all
    if 0 < post then { refreshRank x rank all with postponed := tset x.postponed rank (post - 1) }
    else if ahead < 4 then { refreshRank x rank all with pulledIn := tset x.pulledIn rank (ahead + 1) }
    else x

/-- REFRESH_DUE (R116, R120): a rank's interval has elapsed; `hot` is what MR4 reports. With a pass under way and lanes of the
rank not yet probed the refresh is an all-bank one with a retraining step in its shadow; the pass ends with its last
lane. -/
def execRefreshDue (c rank : Nat) (hot : Bool) (probe : List LaneProbe) (t : Nat) (s : State) : Host.Outcome State Fault Refusal :=
  let s := tick s t
  let x := ddr s c
  let early := match tget x.refAt rank with | some u => decide (1000 * (s.now + 1) < 1000 * u + refreshNs x) | none => false
  .next (if x.st != 2 || early then s
    else
      let x := { x with hot := hot, refAt := tset x.refAt rank s.now }
      let mine := probe.filter (fun p => p.lane / 8 % 8 == rank && (allLanes x).contains p.lane && !x.probed.contains p.lane)
      if x.retraining && mayRetrain s c && !mine.isEmpty then
        let s := mine.foldl (fun s p => if (ddr s c).probed.contains p.lane then s else probeLane s c p) (setDdr s c (refreshRank x rank true))
        if (allLanes x).all (ddr s c).probed.contains then
          setDdr s c { ddr s c with retraining := false, probed := [], lastPass := s.now, passTemps := (ddr s c).temps }
        else s
      else setDdr s c (refreshTurn x rank))

/-- Starts a pass. -/
def startPass (s : State) (c : Nat) : State :=
  if mayRetrain s c && !(ddr s c).retraining then setDdr s c { ddr s c with retraining := true, probed := [], marginMin := 255 } else s

/-- RETRAIN_DUE (R120): 15 min since the last pass. -/
def execRetrainDue (c t : Nat) (s : State) : Host.Outcome State Fault Refusal :=
  let s := tick s t
  .next (if (ddr s c).lastPass + 900000000 ≤ s.now then startPass s c else s)

/-- DIMM_TEMP_POLL (R120): the sensors of the channel's DIMMs; one that has changed by 10 °C or more starts a pass. -/
def execDimmTempPoll (c : Nat) (temps : List Nat) (t : Nat) (s : State) : Host.Outcome State Fault Refusal :=
  let s := tick s t
  let x := ddr s c
  let l := (temps.take x.dimms).map (· % 256)
  let due := match x.polledAt with | some u => decide (u + 1000000 ≤ s.now) | none => true
  .next (if x.dimms == 0 || temps.length < x.dimms || !due || !twiUp s 3 then s
    else
      let s := setDdr s c { x with polledAt := some s.now, temps := l, temp := l.foldl max 0 }
      if (l.zip x.passTemps).any (fun p => 10 ≤ max p.1 p.2 - min p.1 p.2) then startPass s c else s)

/-- The owner writes a lane's delays: kept until the quiescent point (R122). -/
def laneDelayWritten (s : State) (c lane v : Nat) : State :=
  let x := ddr s c
  setDdr s c { x with lanes := tset x.lanes lane { (tgetD x.lanes lane {}) with pending := some (bits v 0 7, bits v 8 7) } }

/-- HOST_DELAY_APPLY (R122): at the quiescent point, between two passes, 1,024 bursts at the written value; `ok` says whether
they passed. -/
def execHostDelayApply (c lane : Nat) (ok : Bool) (t : Nat) (s : State) : Host.Outcome State Fault Refusal :=
  let s := tick s t
  let x := ddr s c
  let l := tgetD x.lanes lane {}
  .next (if x.retraining then s else match l.pending with
    | none => s
    | some (r, w) =>
      let l := if !assisted s 5 then { l with pending := none }
        else if ok then { l with pending := none, rd := r, wr := w, hostSet := true } else { l with pending := none, rejected := true }
      setDdr s c { x with lanes := tset x.lanes lane l })

/-! ### Self-refresh (R123, R125) -/

/-- Channels out of self-refresh at once in the stripe phase of a harvest (R125). -/
def awakeLimit (s : State) : Nat := if isBig s then 4 else 2

/-- The harvest has read what its issued stripes take from a channel (R125). -/
def stripesRead (s : State) (c : Nat) : State :=
  match s.hrv.run with
  | none => s
  | some r => { s with hrv := { s.hrv with run := some { r with issued := r.issued.map (fun k =>
      { k with read := (k.grans.map (·.1)).foldl (fun l g => if granChan s g == c then sins l g else l) k.read }) } } }

/-- SELF_REFRESH_ENTRY (R123, R125): the harvest has read what it needs of the channel now: it takes no more requests and
drains its queues; `restStep` carries the entry to its end. -/
def execSelfRefreshEntry (c t : Nat) (s : State) : Host.Outcome State Fault Refusal :=
  let s := tick s t
  let x := ddr s c
  .next (if s.dev.state != .harvesting || x.st != 2 then s
    else stripesRead (setDdr s c (restStep { x with st := 4, leaving := false, retraining := false })) c)

/-- SELF_REFRESH_EXIT (R123, R125): the plan has reads for the channel soon, and fewer than the limit are awake: it leaves
self-refresh; `restStep` carries the exit to its end. -/
def execSelfRefreshExit (c t : Nat) (s : State) : Host.Outcome State Fault Refusal :=
  let s := tick s t
  let awake := (s.ddrs.ch.filter (fun p => p.2.st == 2 || p.2.st == 4)).length
  let soon := match s.hrv.run with
    | some r => (r.plan.take 1024).any (fun g => granChan s g == c)
        || r.issued.any (fun k => k.grans.any (fun p => granChan s p.1 == c && !k.read.contains p.1))
    | none => false
  .next (if s.dev.state != .harvesting || (ddr s c).st != 3 || awakeLimit s ≤ awake || !soon then s
    else setDdr s c { ddr s c with st := 4, leaving := true })

/-! ### Patrol scrub (R129–R131) -/

/-- Granules of a channel: its capacity in 64 GiB units. -/
def chanGranules (s : State) (c : Nat) : Nat := (ddr s c).cap64 * 4194304

/-- Scrub chunks per second in hardware mode. -/
def scrubRate (s : State) (c : Nat) : Nat := cdiv (chanGranules s c) 86400

/-- The pace in force: the owner's rate in host-assisted SCRUB mode (R131). -/
def scrubPace (s : State) (c : Nat) : Nat :=
  let v := cfg s (regAt rDdrScrub c) 0 16
  if assisted s 4 && v != 0 then v else scrubRate s c

/-- The owner writes a scrub rate: clamped so that a pass takes 12 h to 48 h (R131). -/
def scrubRateWritten (s : State) (c v : Nat) : State :=
  let n := chanGranules s c
  let v' := clamp (cdiv n 172800) (n / 43200) (v % 65536)
  let a := regAt rDdrScrub c
  let s := setFld s a 0 16 v'
  if v' != v % 65536 then setFld s a 31 1 1 else s

/-- The pass is more than 1 h behind its schedule. -/
def scrubBehind (s : State) (c : Nat) : Bool :=
  decide ((ddr s c).scrubAt + 3600 * scrubPace s c < scrubPace s c * ((s.now - (ddr s c).scrubFrom) / 1000000))

/-- A scrub read may be issued (R129): each subchannel's read queue holds fewer than 16 entries, or the pass is behind and
1 µs has passed since the last. -/
def mayScrub (s : State) (c : Nat) : Bool :=
  let x := ddr s c
  ((x.rdq.filter (inQueue false 0)).length < 16 && (x.rdq.filter (inQueue false 1)).length < 16)
    || (scrubBehind s c && x.scrubLast + 1 ≤ s.now)

/-! ### Rebuild of an entry (R134) -/

/-- The old line of a write is uncorrectable: the write proceeds, the granule's entry is to be rebuilt (R134). -/
def storeOverUe (s : State) (l : Nat) (d : List Byte) (pois : Bool) : State :=
  let c := lineChan s l
  let s := raise (noteUe s l) (0x044 + 8 * c) (localAddr s l / 64)
  beginRebuild (putLine s l d pois) (lineGran l)

/-- A line write as the channel makes it (R133, R134). -/
def writeLine (s : State) (l : Nat) (d : List Byte) (pois : Bool) : State :=
  if s.mem.ueLines.contains l then storeOverUe s l d pois else storeLine s l d pois

/-! ### Registers -/

/-- DDR registers of channel `i` whose value the state's own fields give. -/
def viewDram (s : State) (sel : Nat → Nat) (c i : Nat) (high : Bool) : Option Nat :=
  let x := ddr s i
  if c == rDdrStatus then
    some (fld x.st 29 3 + fld x.popErr 24 5 + fld x.dimms 22 2 + fld x.ranks 19 3 + fld x.speed 16 3 + fld x.cap64 8 8 + fld x.temp 0 8)
  else if c == rDdrTrain then
    some (fld (if x.st == 0 then 0 else min 0xFFFF ((s.now - x.lastPass) / 1000000)) 16 16 + fld x.marginMin 8 8)
  else if c == rDdrLaneDelay then
    let k := sel rDdrLaneSel
    let l := tgetD x.lanes k {}
    some (if 2 ≤ bits k 6 2 then 0 else
      fld (b2n l.rejected) 31 1 + fld (b2n l.hostSet) 30 1 + fld l.margin 16 8 + fld l.wr 8 7 + fld l.rd 0 7)
  else if c == rDdrScrub then
    some (fld (b2n x.behind) 30 1 + fld (if chanGranules s i == 0 then 0 else x.scrubAt * 16384 / chanGranules s i) 16 14)
  else if c == rDdrEccAddr then some (if high then x.ueLine / 2 ^ 32 else x.ueLine % 2 ^ 32)
  else if c == rDdrTally then some (fld (b2n x.rebuild.isSome) 31 1
    + fld (b2n (!s.hrv.warm && s.hrv.todo.any (fun g => granChan s g == i))) 30 1)
  else none

end Sys2Proof.Machine
end

