-- ==== Sys2Proof/Machine/Beds.lean ====
section
/-! DEFINITION. Tine beds, their deques, stealing and the pushing of cuttings (R272–R276, R280). -/

namespace Sys2Proof.Machine

open Sys2Proof

/-- Bed `b`. -/
def bed (s : State) (b : Nat) : Bed := tgetD s.tin.beds b {}

/-- Sets bed `b`. -/
def setBed (s : State) (b : Nat) (x : Bed) : State := { s with tin := { s.tin with beds := tset s.tin.beds b x } }

/-- Tines of a bed that are not fenced. -/
def goodTines (s : State) (b : Nat) : List Nat :=
  ((List.range 8).map (fun i => 8 * b + i)).filter (fun n => !s.tin.fenced.contains n)

/-- Beds in service, ascending: some tine not fenced, not being reloaded (R278, R281). -/
def bedsOn (s : State) : List Nat :=
  (List.range (nBeds s)).filter (fun b => !(goodTines s b).isEmpty && !(bed s b).draining)

/-- Tines in service; none before TRAINING has ended. -/
def tinesOn (s : State) : Nat :=
  if s.tin.inService then ((List.range (nBeds s)).map (fun b => (goodTines s b).length)).foldl (· + ·) 0 else 0

/-- TINE_LOW below 32 tines, 16 on the ORR-7708 (R279). -/
def judgeTines (s : State) : State :=
  let low := s.tin.inService && decide (tinesOn s < (if isBig s then 32 else 16))
  if low && !s.tin.low then raiseLive (drew { s with tin := { s.tin with low := true } }) 0x00A (drawn s % 2 ^ 32)
  else if !low && s.tin.low then clearLive { s with tin := { s.tin with low := false } } 0x00A
  else s

/-! ### Pushing (R273, R275) -/

/-- Home bed of a cutting: the hash of its identity modulo the beds in service (R273). -/
def homeBed (s : State) (c : Cutting) : Nat :=
  let l := bedsOn s
  l.getD (Config.cuttingHash c.typ c.a c.b c.c % l.length) 0

/-- Whether a bed's deque of the cutting's kind has room. -/
def hasRoom (s : State) (b : Nat) (urgent : Bool) : Bool :=
  if urgent then decide ((bed s b).urgent.length < 64) else decide ((bed s b).main.length < 2048)

/-- Beds in the order a push tries them: the home bed, then ascending, wrapping (R275). -/
def bedsFrom (s : State) (b : Nat) : List Nat :=
  let l := bedsOn s
  l.filter (b ≤ ·) ++ l.filter (· < b)

/-- Places a cutting on the near end of a bed's deque; its clock restarts (R20). -/
def place (s : State) (b : Nat) (c : Cutting) : State :=
  let x := bed s b
  setBed s b (if c.urgent then { x with urgent := c :: x.urgent, clocked := true } else { x with main := c :: x.main, clocked := true })

/-- Pushes a cutting, or has its issuer hold it (R275). -/
def push (s : State) (c : Cutting) : State :=
  match (bedsFrom s (homeBed s c)).find? (fun b => hasRoom s b c.urgent) with
  | some b => place s b c
  | none => bump { s with tin := { s.tin with heldC := s.tin.heldC ++ [c] } } rTinCounts 0 16 1

/-- A new cutting. -/
def newCutting (s : State) (typ a b c : Nat) (why : ProgWhy) (urgent : Bool) : State :=
  push { s with tin := { s.tin with nextN := s.tin.nextN + 1 } }
    { n := s.tin.nextN, typ := typ, a := a, b := b, c := c, why := why, urgent := urgent }

/-- Held cuttings are pushed again while there is room. -/
def repush (s : State) : State :=
  s.tin.heldC.foldl (fun s c =>
    match (bedsFrom s (homeBed s c)).find? (fun b => hasRoom s b c.urgent) with
    | some b => place { s with tin := { s.tin with heldC := s.tin.heldC.filter (fun d => d.n != c.n) } } b c
    | none => s) s

/-! ### Taking and stealing (R273, R274) -/

/-- Beds that may run in HARVESTING: those with the most tines first, until 64 tines (32) run (R280). -/
def harvestBeds (s : State) : List Nat :=
  let lim := if isBig s then 64 else 32
  let order := ((List.range 9).reverse).flatMap (fun k => (bedsOn s).filter (fun b => (goodTines s b).length == k))
  (order.foldl (fun (acc : List Nat × Nat) b =>
    if acc.2 < lim then (acc.1 ++ [b], acc.2 + (goodTines s b).length) else acc) ([], 0)).1

/-- Beds that run now. -/
def runBeds (s : State) : List Nat :=
  if s.dev.state == .harvesting then harvestBeds s else bedsOn s

/-- Tine `n` runs a cutting. -/
def onTine (s : State) (n : Nat) (c : Cutting) : State := { s with tin := { s.tin with tines := tset s.tin.tines n c } }

/-- Takes the near cutting of a bed's own deques. -/
def takeOwn (s : State) (b n : Nat) : Option State :=
  let x := bed s b
  match x.urgent, x.main with
  | c :: r, _ => some (onTine (setBed s b { x with urgent := r }) n c)
  | [], c :: r => some (onTine (setBed s b { x with main := r }) n c)
  | [], [] => none

/-- Moves `min 8 (ceil (n / 2))` entries from the far end of a victim's deque to the thief's (R274). -/
def stealFrom (s : State) (thief v : Nat) (urgent : Bool) : State :=
  let x := bed s v
  let l := if urgent then x.urgent else x.main
  let k := min 8 (cdiv l.length 2)
  let keep := l.take (l.length - k)
  let got := l.drop (l.length - k)
  let s := setBed s v (if urgent then { x with urgent := keep } else { x with main := keep })
  let y := bed s thief
  bump (setBed s thief (if urgent then { y with urgent := y.urgent ++ got } else { y with main := y.main ++ got })) rTinCounts 16 16 1

/-- An idle bed may take from the MAIN deque of bed `v`: at least 2 entries, or one of a bed that drains (R274, R281). -/
def mainStealable (s : State) (v : Nat) : Bool :=
  decide (2 ≤ (bed s v).main.length) || ((bed s v).draining && !(bed s v).main.isEmpty)

/-- An idle bed steals: URGENT deques before MAIN deques, victims ascending from its own number (R274). A bed that
drains gives its MAIN entries whatever their count (R281). -/
def steal (s : State) (b : Nat) : State :=
  let all := (List.range (nBeds s)).filter (fun v => !(goodTines s v).isEmpty && v != b)
  let order := all.filter (b < ·) ++ all.filter (· < b)
  match order.find? (fun v => !(bed s v).urgent.isEmpty) with
  | some v => stealFrom s b v true
  | none =>
    match order.find? (mainStealable s) with
    | some v => stealFrom s b v false
    | none => s

/-- Tine `n` without a cutting takes one, or its bed steals and then it takes. A tine under BIST takes none (R427). -/
def feedTine (s : State) (n : Nat) : State :=
  let b := n / 8
  if (tget s.tin.tines n).isSome || s.tin.fenced.contains n || s.ist.step == some (0, n) then s
  else match takeOwn s b n with
    | some s' => s'
    | none => let s := steal s b; (takeOwn s b n).getD s

/-- Every idle tine of the clocked beds takes what it can; held cuttings follow. -/
def feed (s : State) : State :=
  if !s.tin.inService then s
  else
    let s := ((runBeds s).filter (fun b => (bed s b).clocked)).foldl (fun s b => (goodTines s b).foldl feedTine s) s
    repush s

/-- A cutting of the kind `p` waits in a deque, at its issuer, or runs on a tine. -/
def cuttingOut (s : State) (p : Cutting → Bool) : Bool :=
  s.tin.tines.any (fun q => p q.2) || s.tin.heldC.any p || s.tin.beds.any (fun q => q.2.urgent.any p || q.2.main.any p)

/-- A bed idle, with nothing in another bed's deque that it may steal (R20). -/
def bedIdle (s : State) (b : Nat) : Bool :=
  (bed s b).urgent.isEmpty && (bed s b).main.isEmpty && (goodTines s b).all (fun n => (tget s.tin.tines n).isNone)
    && (List.range (nBeds s)).all (fun v => v == b || ((bed s v).urgent.isEmpty && !mainStealable s v))

/-- BED_CLOCK_STOP (R20): an idle bed with nothing to steal stops its clock. -/
def execBedClockStop (b t : Nat) (s : State) : Host.Outcome State Fault Refusal :=
  let s := tick s t
  .next (if bedIdle s b then setBed s b { bed s b with clocked := false } else s)

/-- BED_WAKE (R20, R274, R281): an URGENT entry waiting 1 µs, a MAIN deque of 16, or an entry of a bed that drains, wakes the
lowest gated bed. -/
def execBedWake (t : Nat) (s : State) : Host.Outcome State Fault Refusal :=
  let s := tick s t
  let need := (List.range (nBeds s)).any (fun b => !(bed s b).urgent.isEmpty || decide (16 ≤ (bed s b).main.length)
    || ((bed s b).draining && !(bed s b).main.isEmpty))
  .next (if !need then s
    else match (runBeds s).find? (fun b => !(bed s b).clocked) with
      | some b => feed (setBed s b { bed s b with clocked := true })
      | none => s)

/-! ### Patrol scrub (R129, Table 9.1) -/

/-- The pacer of channel `c` issues its next chunk: the channel is ready and has no chunk out, the pace has reached it, and the
queues let it (R129). -/
def scrubDue (s : State) (c : Nat) : Bool :=
  let x := ddr s c
  x.st == 2 && x.scrubCut.isNone && mayScrub s c
    && decide (x.scrubFrom + x.scrubAt * 1000000 / max 1 (scrubPace s c) ≤ s.now)

/-- The scrub pacers push the chunks that are due as cuttings: channel, channel-local granule, pass (R272). -/
def scrubWork (s : State) : State :=
  if !serving s || s.ldg.closed then s
  else (List.range (nDdr s)).foldl (fun s c =>
    if !scrubDue s c then s
    else
      let x := ddr s c
      newCutting (setDdr s c { x with scrubCut := some s.tin.nextN, scrubLast := s.now }) 4 c x.scrubAt x.scrubPass .drip false) s

/-- The chunk of channel `c` is behind the pass: the next granule follows, after the last one the next pass (R129). -/
def scrubNext (s : State) (c : Nat) : State :=
  let x := ddr s c
  let wrap := decide (chanGranules s c ≤ x.scrubAt + 1)
  let s := setDdr s c { x with
    scrubCut := none, scrubAt := if wrap then 0 else x.scrubAt + 1, scrubFrom := if wrap then s.now else x.scrubFrom,
    scrubPass := if wrap then x.scrubPass + 1 else x.scrubPass }
  setDdr s c { ddr s c with behind := scrubBehind s c }

/-- SCRUB_CHUNK (R129): the chunk of channel `c`, whose cutting has run, has read its granule: `ces` and `ues` are the lines and
devices of that granule it found corrected and uncorrectable. -/
def execScrubChunk (c : Nat) (ces : List (Nat × Nat)) (ues : List Nat) (t : Nat) (s : State) :
    Host.Outcome State Fault Refusal :=
  let s := tick s t
  let here := fun (l : Nat) => lineChan s l == c && localGran s l == (ddr s c).scrubAt
  .next (match (ddr s c).scrubCut with
    | none => s
    | some n =>
      if !serving s || (ddr s c).st != 2 || cuttingOut s (fun x => x.n == n) then s
      else scrubNext (internalUes ((ces.filter (fun p => here p.1)).foldl (fun s p => corrected s p.1 p.2) s) (ues.filter here)) c)

/-! ### Registers -/

/-- TIN registers whose value the state's own fields give. -/
def viewTin (s : State) (sel : Nat → Nat) (c : Nat) (high : Bool) : Option Nat :=
  if c == rTinStatus then
    some (fld s.tin.fenced.length 24 8 + fld (tinesOn s) 16 8 + maskOf ((List.range (nBeds s)).filter (fun b => (bed s b).clocked)))
  else if c == rTinBed then
    let b := sel rTinBedSel % 16
    some (if nBeds s ≤ b then 0 else
      fld (maskOf (((List.range 8).filter (fun i => s.tin.fenced.contains (8 * b + i))))) 24 8 + fld (b2n (bed s b).clocked) 23 1
        + fld (b2n (bed s b).draining) 22 1 + fld (bed s b).urgent.length 12 7 + fld (bed s b).main.length 0 12)
  else if c == rTinDone then some (if high then s.tin.done / 2 ^ 32 else s.tin.done % 2 ^ 32)
  else none

end Sys2Proof.Machine
end

