-- ==== Sys2Proof/Machine/Link.lean ====
section
/-! DEFINITION. The die-to-die link: frames, acknowledgement, resending, retraining, and what the cold-frame die does
with the frames it receives (R15–R17, R138, R173, R480). -/

namespace Sys2Proof.Machine

open Sys2Proof

/-- Held frames go out, in order, while the window has room (R16). -/
def sendHeld (s : State) (cold : Bool) : State :=
  (d2dSide s cold).held.foldl (fun s f =>
    let x := d2dSide s cold
    if s.d2d.retraining || 15 ≤ x.unacked.length then s else sendNow (setSide s cold { x with held := x.held.drop 1 }) cold f) s

/-- The next frame of a direction arrives in order, if it is of type `typ`: it is acknowledged (R15). -/
def arrive (s : State) (cold : Bool) (typ : Nat) : Option (D2dFrame × State) :=
  let x := d2dSide s cold
  if !s.d2d.up || s.d2d.retraining then none
  else match x.unacked.find? (frameOk x) with
    | none => none
    | some f =>
      if f.typ != typ then none
      else some (f, emit (setSide s cold { x with expect := (x.expect + 1) % 16 }) (.frame (!cold) (framed { seq := f.seq, typ := 1 })))

/-- D2D_ACK (R15): every frame the receiver took is acknowledged; the window opens. -/
def execD2dAck (cold : Bool) (t : Nat) (s : State) : Host.Outcome State Fault Refusal :=
  let s := tick s t
  let x := d2dSide s cold
  let rest := x.unacked.dropWhile (fun f => f.seq != x.expect)
  .next (if !s.d2d.up then s else sendHeld (setSide s cold { x with unacked := rest, fails := 0, ackAt := s.now }) cold)

/-- Resends from the first unacknowledged frame; its failures in a row are counted (R15, R16). -/
def resend (s : State) (cold : Bool) : State :=
  let x := d2dSide s cold
  if !s.d2d.up || s.d2d.retraining || x.unacked.isEmpty then s
  else x.unacked.foldl (fun s f => emit s (.frame cold f)) (setSide s cold { x with fails := x.fails + 1, ackAt := s.now })

/-- D2D_NAK (R15). -/
def execD2dNak (cold : Bool) (t : Nat) (s : State) : Host.Outcome State Fault Refusal := .next (resend (tick s t) cold)

/-- D2D_RESEND_TIMEOUT (R15): 2 µs without an acknowledgement; nothing before they have passed. -/
def execD2dResendTimeout (cold : Bool) (t : Nat) (s : State) : Host.Outcome State Fault Refusal :=
  let s := tick s t
  .next (if s.now < (d2dSide s cold).ackAt + 2 then s else resend s cold)

/-- D2D_FRAME_ERROR (R15, R139): the receiver judges the word `w` it received by its CRC and its SEQ; a mismatch discards
the frame and returns a NAK. A word that passes both is no error, and the row does nothing. -/
def execD2dFrameError (cold : Bool) (w : Word) (t : Nat) (s : State) : Host.Outcome State Fault Refusal :=
  let s := tick s t
  .next (if !s.d2d.up || frameOk (d2dSide s cold) (frameOf w) then s
    else
      let s := emit s (.frame (!cold) (framed { seq := (d2dSide s cold).expect, typ := 2 }))
      if cold then { s with d2d := { s.d2d with badAt := some s.now } } else s)

/-- D2D_RETRAIN (R16): a frame that failed 8 times in a row; a third retrain within 1 s is Fatal. -/
def execD2dRetrain (t : Nat) (s : State) : Host.Outcome State Fault Refusal :=
  let s := tick s t
  .next (if !s.d2d.up || s.d2d.retraining || (s.d2d.toCold.fails < 8 && s.d2d.toLogic.fails < 8) then s
    else
      let l := s.now :: s.d2d.retrains.filter (fun u => s.now ≤ u + 1000000)
      let s := { s with d2d := { s.d2d with retraining := true, retrains := l } }
      if 3 ≤ l.length then raiseOpen s 0x000 else s)

/-- D2D_RETRAIN_DONE (R16): unacknowledged frames are resent in order, then the held ones go out. -/
def execD2dRetrainDone (t : Nat) (s : State) : Host.Outcome State Fault Refusal :=
  let s := tick s t
  .next (if !s.d2d.retraining then s
    else
      let s := { s with d2d := { s.d2d with retraining := false, toCold := { s.d2d.toCold with fails := 0 },
                                            toLogic := { s.d2d.toLogic with fails := 0 } } }
      let again := fun (s : State) (cold : Bool) => (d2dSide s cold).unacked.foldl (fun s f => emit s (.frame cold f)) s
      sendHeld (sendHeld (again (again s true) false) true) false)

/-! ### Summary updates and the sealed boundary (R138, R173) -/

/-- The logic die tells the cold-frame die that region `r` became dirty, or has no dirty granule left. The frame's
payload holds the region with bit 15 for set (log entry 6). -/
def sendSummary (s : State) (r : Nat) (set : Bool) : State := sendFrame s true 6 (fld r 0 15 + fld (b2n set) 15 1)

/-- SUMMARY_UPDATE (R138): the frame sets or clears a region in the cold-frame copy. -/
def execSummaryUpdate (t : Nat) (s : State) : Host.Outcome State Fault Refusal :=
  let s := tick s t
  .next (match arrive s true 6 with
    | none => s
    | some (f, s) =>
      let r := f.payload.toNat % 32768
      { s with drp := { s.drp with summary := if f.payload.getLsbD 15 then sins s.drp.summary r else sdel s.drp.summary r } })

/-- Sends the sealed boundary in three event frames of 14 bits, the high part first (R173, log entry 6). -/
def sendBound (s : State) (b : Nat) : State :=
  sendFrame (sendFrame (sendFrame s true 5 (eventPart 1 (b / 268435456))) true 5 (eventPart 2 (b / 16384))) true 5 (eventPart 3 b)

/-- EVENT_FRAME (R173, R373): a part of the sealed boundary reaches the cold-frame die; a fault change was captured at its
report (log entry 6). -/
def execEventFrame (t : Nat) (s : State) : Host.Outcome State Fault Refusal :=
  let s := tick s t
  .next (match arrive s true 5 with
    | none => s
    | some (f, s) =>
      let v := f.payload.toNat % 16384
      match f.payload.toNat / 16384 with
      | 1 => { s with d2d := { s.d2d with eventHigh := v } }
      | 2 => { s with d2d := { s.d2d with eventHigh := s.d2d.eventHigh * 16384 + v } }
      | 3 =>
        match s.hrv.run with
        | some r => { s with hrv := { s.hrv with run := some { r with coldBound := some (s.d2d.eventHigh * 16384 + v) } } }
        | none => s
      | _ => s)

/-! ### The cold-frame bridge (R480) -/

/-- An access to a cold-frame block is accepted by the bridge: two register-request frames, and two register-data
frames of a write, go out. A 65th access waits for link credit outside. `cmd` is the register command it serves. -/
def bridgeTake (s : State) (a : RegAcc) (write : Bool) (v : Nat) (cmd : Option Nat) : State :=
  if !s.d2d.up || 64 ≤ s.d2d.bridge.length then s
  else
    let s := { s with d2d := { s.d2d with bridge := s.d2d.bridge ++ [{ acc := a, write := write, value := v, since := s.now, cmd := cmd }] } }
    let s := sendFrame (sendFrame s true 3 (a.off / 256)) true 3 (a.off % 256 * 256 + fld (b2n write) 7 1 + pathKey a.path % 128)
    if write then sendFrame (sendFrame s true 4 (v / 65536)) true 4 (v % 65536) else s

/-- Changes the first held access that satisfies `p`. -/
def bridgeMod (l : List BridgeAcc) (p : BridgeAcc → Bool) (f : BridgeAcc → BridgeAcc) : List BridgeAcc :=
  match l with
  | [] => []
  | b :: r => if p b then f b :: r else b :: bridgeMod r p f

/-- REGISTER_REQUEST (R480): a register-request frame arrives; after the second one the data of a read is sent back. -/
def execRegisterRequest (t : Nat) (s : State) : Host.Outcome State Fault Refusal :=
  let s := tick s t
  .next (match arrive s true 3 with
    | none => s
    | some (_, s) =>
      let ask := s.d2d.bridge.find? (fun b => b.reqs == 1)
      let s := { s with d2d := { s.d2d with
        bridge := bridgeMod s.d2d.bridge (fun b => b.reqs < 2) (fun b => { b with reqs := b.reqs + 1 }) } }
      match ask with
      | some b => if b.write then s else sendFrame (sendFrame s false 4 (b.value / 65536)) false 4 (b.value % 65536)
      | none => s)

/-- REGISTER_DATA (R480): a register-data frame arrives, of a write on the cold-frame die or of a read on the logic
die. -/
def execRegisterData (cold : Bool) (t : Nat) (s : State) : Host.Outcome State Fault Refusal :=
  let s := tick s t
  .next (match arrive s cold 4 with
    | none => s
    | some (_, s) =>
      { s with d2d := { s.d2d with
        bridge := bridgeMod s.d2d.bridge (fun b => b.write == cold && b.datas < 2) (fun b => { b with datas := b.datas + 1 }) } })

end Sys2Proof.Machine
end

