-- ==== Sys2Proof/Machine/Flash.lean ====
section
/-! DEFINITION. The flash back-end: moves, spares, retirement, failed targets, programs, erases, reads, upkeep, the harvest
region, the checkpoint and the start of the pools (chapter 7). -/

namespace Sys2Proof.Machine

open Sys2Proof

/-! ### Moves (R227) -/

/-- A granule is CLEAN and restored, and verified after a warm return: a move may read it from DRAM. -/
def cleanRestored (s : State) (g : Nat) : Bool := (tget s.drp.gran g).isNone && !s.hrv.todo.contains g

/-- A block holds a granule not yet restored: it is no source of a move (R227). -/
def unrestoredBlock (s : State) (b : Nat) : Bool := s.hrv.todo.any (fun g => hasCopy (mapEnt s g) && blkKey (mapEnt s g).addr == b)

/-- A move of a granule is under way. -/
def moveOut (s : State) (g : Nat) : Bool :=
  s.ftl.progs.any (fun p => p.gran == g && p.why == .move) || cuttingOut s (fun c => c.typ == 6 && c.a == g)

/-- Issues a move of a granule: its cutting goes to MAIN, with the map entry it is issued against. The translation layer issues
none while it holds one that found no room (R275). -/
def issueMove (s : State) (g : Nat) : State :=
  if unrestoredBlock s (blkKey (mapEnt s g).addr) || moveOut s g || s.tin.heldC.any (fun c => c.typ == 6) then s
  else newCutting s 6 g (entryCode (mapEnt s g)) 0 .move false

/-- Issues moves of every live copy at addresses that satisfy `p`. -/
def moveAll (s : State) (p : Nat → Bool) : State := (liveWhere s p).foldl issueMove s

/-- Live copies leave a block or superblock: it folds, is a victim, is levelled, refreshes or retires (R225, R228, R229, R231). -/
def leaving (s : State) (a : Nat) : Bool :=
  let k := sbOf s a
  (sb s k).role == .folding || s.ftl.victim == some k || s.ftl.level == some k
    || (block s (blkKey a)).retireWait || (block s (blkKey a)).queued

/-- The translation layer issues the moves that are due, those discarded before among them (R225, Table 9.1). -/
def moveWork (s : State) : State := if serving s && !s.ldg.closed then moveAll s (leaving s) else s

/-- The metadata and content of a copy of a granule made now from DRAM (Table 7.4). -/
def pageOf (s : State) (g kind : Nat) : Page :=
  let id := (granAllot s g).getD 0xFFFF
  { gran := g, allot := id, kind := kind, gen := keyGen s id, sealSeq := sealSeq s + 1, stripe := 0xFFFFFFFF,
    crc := BitVec.ofNat 32 (crc32c (mreadN s.mem.cells (16384 * g) 16384)),
    cells := granCells s g, poison := granPoison s g }

/-- A copy's GEN is not the current key generation of its allotment: it counts as absent (R207). -/
def oldGen (s : State) (p : Page) : Bool := p.gen != keyGen s p.allot

/-! ### Spares, retirement, failed targets (R231–R233) -/

/-- Remaining spares of a target in percent of its initial count. -/
def sparePct (x : Target) : Nat := if x.spares0 == 0 then 100 else x.spares * 100 / x.spares0

/-- The worst target: key and percent. -/
def worstTarget (s : State) : Nat × Nat :=
  (s.ftl.targets.filter (fun p => !p.2.failed)).foldl (fun w p => if sparePct p.2 < w.2 then (p.1, sparePct p.2) else w) (0, 100)

/-- SPARE_LOW stays raised from 20% on (R232). -/
def judgeSpares (s : State) : State :=
  if !s.ftl.spareLow && (worstTarget s).2 ≤ 20 && s.ftl.targets.any (fun p => p.2.spares0 != 0) then
    raiseLive (drew { s with ftl := { s.ftl with spareLow := true } }) 0x143 (drawn s % 2 ^ 32)
  else s

/-- Replaces a retired block of a target in superblock `k` (R231): a spare, which is erased before use, else a block of the
harvest region. The new role is journaled, and harvest_cap reported. -/
def replaceBlock (s : State) (tk k : Nat) : State :=
  let x := tgetD s.ftl.targets tk {}
  let role := (sb s k).role
  if 0 < x.spares then
    let b := tk * 8192 + nthGood x.bad (x.good - x.spares)
    reportCap (journalRole (setBlock { s with ftl := { s.ftl with targets := tset s.ftl.targets tk { x with spares := x.spares - 1 } } }
      b { block s b with sb := some k, cleared := true, queued := true }) b role)
  else
    let s := if s.ftl.spareOut then s
      else raiseLive (drew { s with ftl := { s.ftl with spareOut := true } }) 0x144 (drawn s % 2 ^ 32)
    match (sbsOf s .harvest).find? (fun h => h != k && (sb s h).used == 0 && !(sb s h).missing.contains tk) with
    | some h =>
      let b := tk * 8192 + memberBlock s tk h
      let erased := (sb s h).clean && !(block s b).cleared
      let s := setSb s h { sb s h with missing := sins (sb s h).missing tk }
      let s := { s with ftl := { s.ftl with fromHrv := min 0xFFFF (s.ftl.fromHrv + 1) } }
      reportCap (journalRole (setBlock s b { block s b with sb := some k, cleared := !erased, queued := !erased }) b role)
    | none => reportCap (setSb s k { sb s k with missing := sins (sb s k).missing tk })

/-- A block without live copies retires: recorded, counted, replaced (R231). No page of it is erased any more. -/
def doRetire (s : State) (b : Nat) : State :=
  let k := sbOf s (faOf (b / 8192) 0 (b % 8192) 0)
  let s := setBlock s b { role := some .retired, cleared := true, erases := (block s b).erases }
  let s := { s with ftl := { s.ftl with grown := min 0xFFFF (s.ftl.grown + 1) } }
  let s := journal (logEvent s 0x205 (b / 8192) 0) 4 (blkSubject b) (roleCode .retired)
  judgeSpares (replaceBlock s (b / 8192) k)

/-- A block retires; its live copies are moved first (R231). -/
def retireBlock (s : State) (b : Nat) : State :=
  if (block s b).role == some .retired then s
  else if (liveWhere s (fun a => blkKey a == b)).isEmpty then doRetire s b
  else moveAll (setBlock s b { block s b with retireWait := true, cleared := true }) (fun a => blkKey a == b)

/-- A seal location on a failed target moves to target 1 of its channel, and the locator follows (R221, R222). -/
def moveSeals (s : State) (tk : Nat) : State :=
  if !s.ftl.sealLocs.any (fun l => l.tgt == tk) then s
  else
    let y := takeSealBlocks s (tk / 16 * 16 + 1)
    let s := y.1
    locatorWrite { s with ftl := { s.ftl with sealLocs := s.ftl.sealLocs.map (fun l => if l.tgt == tk then y.2 else l) } }

/-- A target is failed (R233): its blocks leave every superblock; clean granules are copied again, other entries
become KIND 3. -/
def failTarget (s : State) (tk : Nat) : State :=
  let x := tgetD s.ftl.targets tk {}
  if x.failed then s
  else
    let s := { s with ftl := { s.ftl with
      targets := tset s.ftl.targets tk { x with failed := true },
      sbs := s.ftl.sbs.map (fun p => (p.1, { p.2 with missing := sins p.2.missing tk })),
      fces := tmod s.ftl.fces (tk / 16) {} (fun f => { f with failed := f.failed ||| (1 <<< (tk % 16)) }) } }
    let s := raiseOpen (reportCap s) (0x0C2 + 4 * (tk / 16))
    let lost := liveWhere s (fun a => faTgt a == tk)
    let again := lost.filter (cleanRestored s)
    let s := moveSeals (lost.foldl (fun s g => changeMap s g { mapEnt s g with kind := 3 }) s) tk
    let copies := again.map (fun g => { gran := g, why := .recopy, page := pageOf s g 1, since := s.now })
    { s with ftl := { s.ftl with progs := s.ftl.progs ++ copies } }

/-- TARGET_STATUS_POLL (R233): three failures in a row fail the target. -/
def execTargetStatusPoll (tgt : Nat) (ok : Bool) (t : Nat) (s : State) : Host.Outcome State Fault Refusal :=
  let s := tick s t
  .next (match tget s.ftl.targets tgt with
    | none => s
    | some x =>
      if x.failed then s
      else
        let n := if ok then 0 else x.polls + 1
        let s := { s with ftl := { s.ftl with targets := tset s.ftl.targets tgt { x with polls := n } } }
        if 3 ≤ n then failTarget s tgt else s)

/-- FLASH_DQ_RETRAIN (R201, R229): the target's temperature is read; it is trained again where it has moved 10 °C. -/
def execFlashDqRetrain (tgt : Nat) (temp : Int) (t : Nat) (s : State) : Host.Outcome State Fault Refusal :=
  let s := tick s t
  .next (match tget s.ftl.targets tgt with
    | none => s
    | some x =>
      let x := { x with temp := temp }
      let x := if x.failed || (temp - x.trainTemp).natAbs < 10 then x else { x with trainTemp := temp }
      { s with ftl := { s.ftl with targets := tset s.ftl.targets tgt x } })

/-! ### Programs (R211–R214) -/

/-- Drip cutting `n` of a granule ends without a commit: the granule it had in flight returns to DIRTY (Table 5.1). -/
def dripFail (s : State) (g n : Nat) : State :=
  let s := { s with ftl := { s.ftl with progs := s.ftl.progs.filter (fun p => p.gran != g || p.why == .move || p.n != n) } }
  if tget s.drp.dripN g != some n then s
  else match tget s.drp.gran g with
    | some GranState.dripping | some GranState.redirty =>
      bump { s with drp := { s.drp with gran := tset s.drp.gran g .dirty, dripN := tdel s.drp.dripN g } } rDrpDrip 0 16 1
    | _ => s

/-- A full-image save takes a granule up again. -/
def saveAgain (s : State) (g : Nat) : State :=
  { s with hrv := { s.hrv with save := s.hrv.save.map (fun v => { v with left := sins v.left g, out := sdel v.out g }) } }

/-- A granule whose program failed or was refused: a drip returns to DIRTY, a move or a failed-target copy is issued
again (R212, R213). A full-image save takes its granule up again. -/
def flashProgFail (s : State) (g : Nat) : State :=
  match s.ftl.progs.find? (fun p => p.gran == g && p.addr.isNone) with
  | none => s
  | some p =>
    match p.why with
    | .drip | .flush => dripFail s g p.n
    | .save =>
      saveAgain (dripFail s g p.n) g
    | .move | .recopy => s

/-- Stream of a granule's copies: 3 for moves, else its allotment's in host-assisted WEAR mode (R228, R234). -/
def streamOf (s : State) (g : Nat) (why : ProgWhy) : Nat :=
  if why == .move then 3 else if assisted s 1 then tgetD s.ftl.streams ((granAllot s g).getD 0xFFFF) 0 else 0

/-- Opens the superblock a page is programmed to: a TLC free one becomes the open one of its stream, or folding for a
full-image save. -/
def openFor (s : State) (k g : Nat) (why : ProgWhy) : State :=
  let x := sb s k
  if x.role != .tlcFree then s
  else
    let s := setRole (setSb s k { x with born := s.ftl.commitSeq }) k (if why == .save then .folding else .tlcOpen)
    if why == .save then s
    else { s with ftl := { s.ftl with openDrip := tset s.ftl.openDrip (streamOf s g why) k } }

/-- Superblock `k` has the lowest erase count of the erased TLC free ones: new drips take it (Table 7.9). -/
def leastWorn (s : State) (k : Nat) : Bool :=
  ((sbsOf s .tlcFree).filter (fun j => (sb s j).clean)).all (fun j => (sb s k).erases ≤ (sb s j).erases)

/-- Superblock `k` has the highest erase count of the erased TLC free ones: the data that wear levelling moves goes there
(Table 7.9). -/
def mostWorn (s : State) (k : Nat) : Bool :=
  ((sbsOf s .tlcFree).filter (fun j => (sb s j).clean)).all (fun j => (sb s j).erases ≤ (sb s k).erases)

/-- A granule's copy lies in the superblock that wear levelling moves. -/
def levelled (s : State) (g : Nat) : Bool := hasCopy (mapEnt s g) && s.ftl.level == some (sbOf s (mapEnt s g).addr)

/-- Role of an address's superblock fits what is written: the open one of the stream, or a free one where the stream has
none open (R228). -/
def fitsRole (s : State) (a g : Nat) (why : ProgWhy) : Bool :=
  let k := sbOf s a
  match (sb s k).role, why with
  | .tlcFree, .save => true
  | .tlcFree, w => (tget s.ftl.openDrip (streamOf s g w)).isNone
      && (!(sb s k).clean || (if w == .move then !levelled s g || mostWorn s k else leastWorn s k))
  | .folding, .save => true
  | .tlcOpen, .save => false
  | .tlcOpen, w => tget s.ftl.openDrip (streamOf s g w) == some k
  | _, _ => false

/-- A superblock that no more pages go to is full: the drip or move that filled it opens another. -/
def closeSuper (s : State) (k : Nat) : State :=
  if (sb s k).role == .tlcOpen then
    let s := setRole s k .tlcFull
    { s with ftl := { s.ftl with openDrip := s.ftl.openDrip.filter (fun p => p.2 != k) } }
  else s

/-- `n` pages of superblock `k` are programmed; it is closed once all its TLC pages are. -/
def takePages (s : State) (k n : Nat) : State :=
  let x := sb s k
  let u := x.used + n
  let s := setSb s k { x with used := u }
  if (s.ftl.targets.length - x.missing.length) * s.ftl.planes * s.ftl.tlcPages ≤ u then closeSuper s k else s

/-- One page programmed successfully: it holds its granule, and a journal record is written (R214, R218). -/
def pageDone (s : State) (g a : Nat) : State :=
  match s.ftl.progs.find? (fun p => p.gran == g && p.addr.isNone) with
  | none => s
  | some p =>
    let s := openFor s (sbOf s a) g p.why
    let pslc := (sb s (sbOf s a)).role == .folding
    let s := { s with ftl := { s.ftl with
      pages := tset s.ftl.pages a (stamped s { p.page with commit := s.ftl.commitSeq + s.ftl.jbuf.length + 1 }),
      progs := s.ftl.progs.map (fun q => if q.gran == g && q.why == p.why && q.addr.isNone then { q with addr := some a } else q) } }
    journal (wear s 1 pslc) 1 g (entryCode { kind := if pslc then 2 else 1, gen := p.page.gen % 256, addr := a })

/-- A filler page of KIND 0x20 is programmed: it carries no data and counts as wear (R214). -/
def fillerDone (s : State) (a : Nat) : State :=
  wear { s with ftl := { s.ftl with pages := tset s.ftl.pages a (devPage s 0x20 0 0 0xFFFFFFFF []) } } 1 false

/-- The pages of one program: a pSLC page on every plane for a full-image save, else the wordline's three TLC pages on every
plane (R203, R214, log entry 119). -/
def programUnit (s : State) (a : Nat) (why : ProgWhy) : List Nat :=
  let at_ := fun (page : Nat) => (List.range s.ftl.planes).map (fun p => faOf (faTgt a) p (faBlk a) page)
  if why == .save then at_ (a % 4096) else (List.range 3).flatMap (fun i => at_ (a % 4096 / 3 * 3 + i))

/-- The granules of a program that wait for one, at a page of the unit of the first; a move from flash once its read has ended
well. -/
def programWork (s : State) (ws : List (Nat × Nat)) : List (Nat × Nat) :=
  let ok := fun (w : Nat × Nat) => match s.ftl.progs.find? (fun p => p.gran == w.1 && p.addr.isNone) with
    | some p => fitsRole s w.2 w.1 p.why && (p.why != .move || p.dram || p.readOk)
    | none => false
  match ws.filter ok with
  | [] => []
  | w :: r =>
    let why := ((s.ftl.progs.find? (fun p => p.gran == w.1 && p.addr.isNone)).map (·.why)).getD .drip
    let u := programUnit s w.2 why
    (w :: r).filter (fun x => u.contains x.2)

/-- A program of one unit, granule and address each: not issued before it is whole or its wait lets filler pages complete it;
refused where a page is not erased, failed, or ended (R212–R214). -/
def programPages (s : State) (ws : List (Nat × Nat)) (ok : Bool) : State :=
  match programWork s ws with
  | [] => s
  | (g, a) :: r =>
    let ws := (g, a) :: r
    let why := ((s.ftl.progs.find? (fun p => p.gran == g && p.addr.isNone)).map (·.why)).getD .drip
    let unit := programUnit s a why
    let fill := unit.filter (fun x => !ws.any (fun w => w.2 == x))
    let b := blkKey a
    if s.ftl.fill < fill.length then s
    else if !(unit.all (pageErased s)) then
      let s := bump (raiseOpen s (0x0C1 + 4 * faChan a)) (regAt rFceErr (faChan a)) 8 8 1
      let s := moveAll (setBlock s b { block s b with cleared := true, queued := true }) (fun x => blkKey x == b)
      ws.foldl (fun s w => flashProgFail s w.1) s
    else if !ok then
      let s := bump s (regAt rFceErr (faChan a)) 24 8 1
      let s := wear s unit.length (why == .save)
      ws.foldl (fun s w => flashProgFail s w.1) (retireBlock s b)
    else
      let s := fill.foldl fillerDone (ws.foldl (fun s w => pageDone s w.1 w.2) s)
      let s := { s with ftl := { s.ftl with fill := if fill.isEmpty then s.ftl.fill else 0 } }
      takePages s (sbOf s a) unit.length

/-- FLASH_PROGRAM_DONE (R212–R214): a program ends, with the pages of the granules given; the rest of its unit are filler
pages. In HARVESTING every class but the harvest's is stopped (R215). -/
def execFlashProgramDone (ws : List (Nat × Nat)) (ok : Bool) (t : Nat) (s : State) : Host.Outcome State Fault Refusal :=
  let s := tick s t
  .next (if s.dev.state == .harvesting || !logicOn s || ws.any (fun w => engineHeld s (faChan w.2)) then s else programPages s ws ok)

/-- WORDLINE_FILL_TIMEOUT (R214): a wordline whose granules have waited 10 ms is completed with `n` filler pages. -/
def execWordlineFillTimeout (n t : Nat) (s : State) : Host.Outcome State Fault Refusal :=
  let s := tick s t
  .next (if s.ftl.progs.any (fun p => p.addr.isNone && p.since + 10000 ≤ s.now) then
      { s with ftl := { s.ftl with fill := max s.ftl.fill (min n 11) } }
    else s)

/-- The program of a page of the metadata pool failed: its block retires, the page is programmed again (R213). -/
def metaFailed (s : State) : State :=
  match metaNext s with
  | none => wear s 1 true
  | some (k, a) =>
    retireBlock (bump (wear (setSb s k { sb s k with used := (sb s k).used + 1 }) 1 true) (regAt rFceErr (faChan a)) 24 8 1) (blkKey a)

/-- JOURNAL_PAGE_TIMEOUT (R218): 200 µs after its first record the page is programmed; `bad`: a first program of it reports
fail. In HARVESTING journal pages stop (R215). -/
def execJournalPageTimeout (bad : Bool) (t : Nat) (s : State) : Host.Outcome State Fault Refusal :=
  let s := tick s t
  .next (if s.dev.state == .harvesting || !logicOn s || s.ftl.jbuf.isEmpty || s.now < s.ftl.jbufAt.getD s.now + 200 then s
    else programJournal (if bad then metaFailed s else s))

/-! ### Erases -/

/-- A superblock without live copies goes back to TLC free, awaiting erase. -/
def freeSuper (s : State) (k : Nat) : State :=
  let s := setRole (setSb s k { sb s k with clean := false, used := 0 }) k .tlcFree
  { s with ftl := { s.ftl with victim := if s.ftl.victim == some k then none else s.ftl.victim,
                               level := if s.ftl.level == some k then none else s.ftl.level,
                               openDrip := s.ftl.openDrip.filter (fun p => p.2 != k) } }

/-- Blocks and superblocks that a move has emptied: retired or freed (R227, R231). -/
def afterMove (s : State) (a : Nat) : State :=
  let b := blkKey a
  let s := if (block s b).retireWait && (liveWhere s (fun x => blkKey x == b)).isEmpty then doRetire s b else s
  let k := sbOf s a
  let full := match (sb s k).role with | .tlcFull | .folding => true | _ => false
  if full && (liveOf s k).isEmpty && !(s.ftl.progs.any (fun p => p.addr.any (fun x => sbOf s x == k))) then freeSuper s k else s

/-- The cutting of a move ends: its copy waits for a program (R227). A copy of an old generation is freed instead (R207). -/
def moveCut (s : State) (n g : Nat) : State :=
  let e := mapEnt s g
  if !hasCopy e then s
  else if oldGen s (tgetD s.ftl.pages e.addr {}) && (tget s.ftl.pages e.addr).isSome then
    afterMove (changeMap s g {}) e.addr
  else
    let dram := cleanRestored s g
    let pg := if dram then pageOf s g 4 else { (tgetD s.ftl.pages e.addr {}) with kind := 4 }
    { s with ftl := { s.ftl with progs := s.ftl.progs ++
        [{ gran := g, why := .move, n := n, src := e, moving := dram, dram := dram, page := pg, since := s.now }] } }

/-- A block is erased: its pages go, its bits are set, its counters start again, its erase is journaled (R208, R211, R218,
R219). -/
def blockErased (s : State) (b : Nat) : State :=
  let x := block s b
  journal (setBlock { s with ftl := { s.ftl with pages := s.ftl.pages.filter (fun p => blkKey p.1 != b) } } b
    { x with cleared := false, queued := false, reads := 0, sticky := 0, erases := min 65535 (x.erases + 1) }) 2 (blkSubject b) 0

/-- The erase of a block of target `tk` in superblock `k` ends: it reports fail, and the block retires, or it succeeds, and
a block that reaches 65,535 erases retires (R213, R219). -/
def memberErased (s : State) (k : Nat) (failed : List Nat) (tk : Nat) : State :=
  let b := tk * 8192 + memberBlock s tk k
  if failed.contains tk then retireBlock (bump s (regAt rFceErr (tk / 16)) 16 8 1) b
  else
    let s := blockErased s b
    if (block s b).erases == 65535 then retireBlock s b else s

/-- A superblock may be erased as a whole: one that awaits its erase, or a full one of the metadata pool that holds no page
still needed. -/
def mayErase (s : State) (k : Nat) : Bool :=
  let x := sb s k
  (tget s.ftl.sbs k).isSome && (liveOf s k).isEmpty && (match x.role with
    | .tlcFree | .harvest => !x.clean
    | .metadata => !x.clean || (pslcPages s k ≤ x.used && !(s.ftl.pages.any (fun p => sbOf s p.1 == k && metaNeeded s p.2)))
    | _ => false)

/-- A block queued for erase may be erased by itself: no valid copy lies on it, none is being programmed (R212). -/
def mayEraseBlock (s : State) (b : Nat) : Bool :=
  (block s b).queued && (block s b).role.isNone && (liveWhere s (fun a => blkKey a == b)).isEmpty
    && !s.ftl.progs.any (fun p => p.addr.any (fun a => blkKey a == b))

/-- FLASH_ERASE_DONE (R211–R213): superblock `k`, or only its member on target `only` that is queued for erase, is erased
but for members whose erase failed, which retire. -/
def execFlashEraseDone (k : Nat) (only : Option Nat) (failed : List Nat) (t : Nat) (s : State) : Host.Outcome State Fault Refusal :=
  let s := tick s t
  .next (match only with
    | some tk => if mayEraseBlock s (tk * 8192 + memberBlock s tk k) && !engineHeld s (tk / 16) then reportCap (memberErased s k failed tk) else s
    | none =>
      if !mayErase s k || (members s k).any (fun tk => engineHeld s (tk / 16)) then s
      else
        let s := setSb s k { sb s k with clean := true, used := 0, erases := min 65535 ((sb s k).erases + 1) }
        reportCap ((members s k).foldl (fun s tk => memberErased s k failed tk) s))

/-! ### Reads (R208–R210) -/

/-- How the read procedure of R208 ended. -/
structure ReadEnd where
  /-- codewords that decode at no level -/
  bad : List Nat := []
  /-- a mismatch at every read: no codeword can be named -/
  whole : Bool := false
  /-- level that succeeded -/
  level : Nat := 0
  /-- whole reads repeated at the sticky level -/
  rereads : Nat := 0
  deriving DecidableEq, Repr

/-- The levels in the order a codeword tries them: the sticky one, then 1 to 15 without it. -/
def readLevels (sticky : Nat) : List Nat := sticky :: ((List.range 16).drop 1).filter (· != sticky)

/-- The level at which codeword `c` decodes. -/
def wordLevel (sticky : Nat) (r : FlashRead) (c : Nat) : Option Nat :=
  (readLevels sticky).find? (fun l => !r.fails.contains (l, c))

/-- The read procedure (R208): codewords first, then the checks of the whole; `good` says that the metadata agree with the
map. The level kept is that of the last codeword that needed another, or of the read that matched (log entry 119). -/
def readEnd (sticky : Nat) (good : Bool) (r : FlashRead) : ReadEnd :=
  let bad := (List.range 4).filter (fun c => (wordLevel sticky r c).isNone)
  if !bad.isEmpty then { bad := bad, level := sticky }
  else
    let lv := (List.range 4).foldl (fun m c => match wordLevel sticky r c with
      | some l => if l == sticky then m else l
      | none => m) sticky
    let m := if good then r.mism else 19
    if m == 0 then { level := lv }
    else if m ≤ 3 then { level := sticky, rereads := m }
    else if m ≤ 18 then { level := m - 3, rereads := 3 }
    else { whole := true, level := sticky, rereads := 3 }

/-- Metadata checks of a page against the map (R205, R208): META_CRC, and for a granule its index, allotment and
generation. -/
def pageGood (s : State) (a : Nat) : Bool :=
  match tget s.ftl.pages a with
  | none => false
  | some p => p.metaCrc == metaCrcOf p && (p.allot == 0xFFFF
      || ((mapEnt s p.gran).addr != a || (granAllot s p.gran == some p.allot && p.gen % 256 == (mapEnt s p.gran).gen)))

/-- A read at an address ends. -/
def readAt (s : State) (a : Nat) (r : FlashRead) : ReadEnd := readEnd (block s (blkKey a)).sticky (pageGood s a) r

/-- A read ended uncorrectable. -/
def readFailed (e : ReadEnd) : Bool := !e.bad.isEmpty || e.whole

/-- Counts a read in its effort class and level (R210), and keeps its level as sticky (R208). -/
def countRead (s : State) (a : Nat) (effort : Nat) (e : ReadEnd) : State :=
  let c := faChan a
  let b := block s (blkKey a)
  let s := bump s (regAt rFceErr c) 0 8 e.rereads
  let s := if readFailed e then bump s (regAt rFceEffortHi c) 16 16 1
    else if e.level != b.sticky then
      let s := { s with ist := { s.ist with secRetry := min 0xFFFF (s.ist.secRetry + 1) } }
      bump s (regAt rFceRetryHist (8 * c + e.level / 2)) (16 * (e.level % 2)) 16 1
    else match effort with
      | 0 => bump s (regAt rFceEffort c) 0 16 1
      | 1 => bump s (regAt rFceEffort c) 16 16 1
      | _ => bump s (regAt rFceEffortHi c) 0 16 1
  setBlock s (blkKey a) { b with reads := b.reads + 1, sticky := if readFailed e then b.sticky else e.level % 16 }

/-- Lines of a granule that an uncorrectable read poisons: 64 of each failed codeword, or all 256 (R208, R209). -/
def readPoison (e : ReadEnd) : List Nat :=
  if e.whole then List.range 256 else (List.range 256).filter (fun j => e.bad.contains (j / 64))

/-- Detail of FLASH_UE: target, block and page; its source names the channel (R209, log entry 119). -/
def ueDetail (a : Nat) : Nat := faTgt a % 16 * 2 ^ 25 + faBlk a * 2 ^ 12 + a % 4096

/-- The entry of the read-retry table for the part fitted (R202). -/
def partEntry (s : State) : Config.PartEntry :=
  ((s.ftl.retryTable.getD {}).parts.find? (fun p => some p.part == s.ftl.popRec.map (·.part))).getD {}

/-- Block `b` refreshes: every live copy moves, and then it is erased (Table 7.9); at a sticky level of 15 it retires (R231). -/
def refreshBlock (s : State) (b : Nat) : State :=
  if (block s b).sticky == 15 then retireBlock s b
  else moveAll (setBlock s b { block s b with queued := true }) (fun a => blkKey a == b)

/-- Reads of a block since its erase reach the table's limit for its mode: it refreshes (Table 7.9). -/
def judgeDisturb (s : State) (a : Nat) : State :=
  let pslc := match (sb s (sbOf s a)).role with | .tlcOpen | .tlcFull => false | _ => true
  let lim := if pslc then (partEntry s).disturbPslc else (partEntry s).disturbTlc
  if lim != 0 && (block s (blkKey a)).reads == lim then refreshBlock s (blkKey a) else s

/-- FLASH_READ_DONE (R208, R209): a read for a move, a patrol or another reader that is no restore. -/
def execFlashReadDone (a : Nat) (r : FlashRead) (t : Nat) (s : State) : Host.Outcome State Fault Refusal :=
  let s := tick s t
  .next (if (tget s.ftl.pages a).isNone || engineHeld s (faChan a) then s
    else
      let e := readAt s a r
      let s := judgeDisturb (countRead s a r.effort e) a
      if !readFailed e then { s with ftl := { s.ftl with progs := s.ftl.progs.map (fun p =>
        if p.why == .move && p.addr.isNone && !p.dram && p.src.addr == a then { p with readOk := true } else p) } }
      else
        let s := raise s (0x0C0 + 4 * faChan a) (ueDetail a)
        match s.ftl.progs.find? (fun p => p.why == .move && p.addr.isNone && !p.dram && p.src.addr == a) with
        | some p =>
          let s := changeMap s p.gran { mapEnt s p.gran with kind := 3 }
          afterMove { s with ftl := { s.ftl with progs := s.ftl.progs.filter (fun q => !(q.gran == p.gran && q.why == .move)) } } a
        | none => retireBlock s (blkKey a))

/-! ### Moves commit (R227) -/

/-- MOVE_COMMIT (R227): the entry is replaced if it is still the one the move was issued against. A move discarded after
its record was written is followed by a record of the entry that stands (log entry 118). -/
def execMoveCommit (g t : Nat) (s : State) : Host.Outcome State Fault Refusal :=
  let s := tick s t
  .next (match s.ftl.progs.find? (fun p => p.gran == g && p.why == .move && p.seq.isSome) with
    | none => s
    | some p =>
      let rest := s.ftl.progs.filter (fun q => !(q.gran == g && q.why == .move && q.seq.isSome))
      let s := { s with ftl := { s.ftl with progs := rest } }
      let a := p.addr.getD 0
      let stands := fun (s : State) => journal s 1 g (entryCode (mapEnt s g))
      if mapEnt s g != p.src then stands s
      else if p.dram && !p.moving then issueMove (stands s) g
      else
        let kind := if (sb s (sbOf s a)).role == .folding then 2 else 1
        afterMove (setMap s g { kind := kind, gen := p.page.gen % 256, addr := a }) p.src.addr)

/-! ### Garbage collection, levelling, patrol, rotation (R228, R229) -/

/-- GC_LOW in force: the owner's value in host-assisted WEAR mode (R234). -/
def gcLow (s : State) : Nat := clamp 4 64 (if assisted s 1 then s.ftl.gcLow else cfg s rFtlWearCfg 0 8)

/-- WL_DELTA in force. -/
def wlDelta (s : State) : Nat := clamp 50 1000 (if assisted s 1 then s.ftl.wlDelta else cfg s rFtlWearCfg 16 16)

/-- A measure of a victim: live granules, or live granules less the age under the owner's second rule (R234). -/
def victimCost (s : State) (k : Nat) : Int :=
  let l : Int := (liveOf s k).length
  if assisted s 1 && s.ftl.victimRule == 1 && !bothDown s then l - ((s.ftl.commitSeq - (sb s k).born : Nat) : Int) / 1000000 else l

/-- The victim: the full superblock with the lowest measure, the oldest of equals. -/
def gcVictim (s : State) : Option Nat :=
  (sbsOf s .tlcFull).foldl (fun best k =>
    match best with
    | none => some k
    | some j =>
      if victimCost s k < victimCost s j || (victimCost s k == victimCost s j && (sb s k).born < (sb s j).born) then some k
      else some j) none

/-- Wear levelling (Table 7.9): the superblock with the oldest data moves when the spread of erase counts is above
WL_DELTA, one at a time. -/
def levelWear (s : State) : State :=
  let tlc := sbsOf s .tlcFree ++ sbsOf s .tlcFull
  let hi := tlc.foldl (fun a k => max a (sb s k).erases) 0
  let lo := tlc.foldl (fun a k => min a (sb s k).erases) 65535
  if hi - lo ≤ wlDelta s || tlc.isEmpty || s.ftl.level.isSome then s
  else match (sbsOf s .tlcFull).foldl (fun b k => match b with
      | none => some k
      | some j => if (sb s k).born < (sb s j).born then some k else some j) none with
    | some k => { s with ftl := { s.ftl with level := some k } }
    | none => s

/-- GC_VICTIM_CHOICE (R228, R229): garbage collection starts and stops, takes a victim, and moves its live copies. -/
def execGcVictimChoice (t : Nat) (s : State) : Host.Outcome State Fault Refusal :=
  let s := tick s t
  .next (if !serving s then s
    else
      let run := if s.ftl.gc then decide (freeSb s < gcLow s + 8) else decide (freeSb s < gcLow s)
      let due := loopDue s true 2 10000 (if 2 * freeSb s < gcLow s then 10000 else 100000)
      let s := { s with ftl := { s.ftl with gc := run } }
      let s := if due then loopRan s 2 else s
      let s := if run && s.ftl.victim.isNone && (due || bothDown s) then
          match gcVictim s with
          | some k =>
            let s := { s with ftl := { s.ftl with victim := some k } }
            if (liveOf s k).isEmpty then freeSuper s k else s
          | none => s
        else s
      let s := moveWork (if due then levelWear s else s)
      if freeSb s == 0 && !s.ftl.sbs.isEmpty then
        let gs := (s.ftl.progs.filter (fun p => p.addr.isNone && (p.why == .drip || p.why == .flush))).map (fun p => (p.gran, p.n))
        gs.foldl (fun s p => dripFail s p.1 p.2) (raiseOpen s 0x141)
      else s)

/-- Mean target temperature, °C. -/
def meanTemp (s : State) : Int := (s.ftl.targets.foldl (fun a p => a + p.2.temp) 0) / (max 1 s.ftl.targets.length : Nat)

/-- The data of a page is older than the table's retention limit, derated by the mean target temperature (Table 7.9). -/
def tooOld (s : State) (a : Nat) : Bool :=
  (partEntry s).retention != 0 && decide ((tgetD s.ftl.pages a {}).born
    + Config.retentionLimit (partEntry s).retention (partEntry s).derating (meanTemp s) < opSecs s)

/-- PATROL_SCHEDULE (R229): a patrol read of the page at `a` is sorted. SOFT or worse, a sticky level of 3 or more, or age
refreshes the block; level 15 retires it. -/
def execPatrolSchedule (a : Nat) (r : FlashRead) (t : Nat) (s : State) : Host.Outcome State Fault Refusal :=
  let s := tick s t
  .next (if !serving s || (tget s.ftl.pages a).isNone || !loopsRun s true then s
    else
      let e := readAt s a r
      let s := judgeDisturb (countRead s a r.effort e) a
      if readFailed e then retireBlock (raise s (0x0C0 + 4 * faChan a) (ueDetail a)) (blkKey a)
      else if (block s (blkKey a)).sticky == 15 then retireBlock s (blkKey a)
      else if 2 ≤ r.effort || 3 ≤ (block s (blkKey a)).sticky || tooOld s a then refreshBlock s (blkKey a)
      else s)

/-- HARVEST_ROTATION (R229): every 30 days erased harvest superblocks change roles with erased TLC free ones of lower
erase count. -/
def execHarvestRotation (t : Nat) (s : State) : Host.Outcome State Fault Refusal :=
  let s := tick s t
  .next (if !serving s || opSecs s < s.ftl.rotatedAt + 2592000 then s
    else
      let s := { s with ftl := { s.ftl with rotatedAt := opSecs s } }
      reportCap <| (sbsOf s .harvest).foldl (fun s h =>
        if !(sb s h).clean || (sb s h).used != 0 then s
        else match ((sbsOf s .tlcFree).filter (fun k => (sb s k).clean && (sb s k).missing.isEmpty)).foldl
            (fun b k => match b with | none => some k | some j => if (sb s k).erases < (sb s j).erases then some k else some j) none with
          | some k => if (sb s k).erases < (sb s h).erases then setRole (setRole s k .harvest) h .tlcFree else s
          | none => s) s)

/-! ### The harvest region (R223) -/

/-- EXP_MAX in force, GiB (R140). -/
def expMax (s : State) : Nat := min (if isBig s then 2048 else 1024) (cfg s rDrpExpCfg 16 12)

/-- Target size of the region in superblocks (R223). -/
def hrvTarget (s : State) : Nat :=
  let want := expMax s * clamp 100 200 (cfg s rFtlCfg 16 8) * 2 ^ 30 / 100
  let n := s.ftl.stripesPerSb
  ((List.range (s.ftl.sbs.length + 1)).find? (fun k => want ≤ capBytes s (k * n) (k * n * s.ftl.stripeW))).getD s.ftl.sbs.length

/-- The region grows from erased TLC free superblocks, or gives back erased surplus ones (R223). -/
def sizeRegion (s : State) : State :=
  let h := sbsOf s .harvest
  let want := hrvTarget s
  let s := if h.length < want then
      (((sbsOf s .tlcFree).filter (fun k => (sb s k).clean)).take (want - h.length)).foldl (fun s k => setRole s k .harvest) s
    else ((h.filter (fun k => (sb s k).clean && (sb s k).used == 0)).take (h.length - want)).foldl (fun s k => setRole s k .tlcFree) s
  reportCap s

/-- HARVEST_REGION_SIZING (R223). -/
def execHarvestRegionSizing (t : Nat) (s : State) : Host.Outcome State Fault Refusal :=
  let s := tick s t
  .next (if !serving s || s.ftl.sbs.isEmpty || !loopDue s false 5 1000000 10000000 then s else sizeRegion (loopRan s 5))

/-! ### Checkpoint (R220) -/

/-- CHECKPOINT_WRITE (R220): the segment is rewritten in its turn, that of the oldest record no segment holds; `bad`: a
first program of its page reports fail (R213). -/
def execCheckpointWrite (seg : Nat) (bad : Bool) (t : Nat) (s : State) : Host.Outcome State Fault Refusal :=
  let s := tick s t
  .next (if !serving s || oldestSeg s != some seg then s else writeSeg (if bad then metaFailed s else s) seg)

/-! ### Host-assisted WEAR (R234) -/

/-- FTL_WEAR_HOST written by the owner: clamped values wait for the quiescent point. -/
def wearHostWritten (s : State) (v : Nat) : State :=
  let gc := clamp 4 64 (bits v 0 8)
  let d := clamp 5 100 (bits v 8 8)
  let cl := gc != bits v 0 8 || d != bits v 8 8
  let s := setFld (setFld (setFld s rFtlWearHost 0 8 gc) rFtlWearHost 8 8 d) rFtlWearHost 16 1 (bits v 16 1)
  let s := if cl then setFld s rFtlWearHost 31 1 1 else s
  { s with ftl := { s.ftl with hostWear := some (gc, 10 * d, bits v 16 1) } }

/-- FTL_STREAM written by the owner for the selected allotment: 3 is clamped to 2. -/
def streamWritten (s : State) (id v : Nat) : State :=
  { s with ftl := { s.ftl with streams := tset s.ftl.streams id (min 2 (v % 4)) } }

/-! ### Registers -/

/-- FCE registers of channel `i` and FTL registers whose value the state's own fields give. -/
def viewFlash (s : State) (sel : Nat → Nat) (c i : Nat) (high : Bool) : Option Nat :=
  if c == rFceStatus then
    let f := tgetD s.ftl.fces i {}
    some (fld f.st 29 3 + fld f.err 24 5 + fld f.targets 19 5 + fld f.rate 17 2 + fld f.failed 0 16)
  else if c == rFtlStatus then
    some (fld (freeSb s) 20 12 + fld ((sbsOf s .harvest).filter (fun k => (sb s k).clean && (sb s k).used == 0)).length 8 12
      + fld (b2n s.ftl.spareLow) 7 1 + fld (b2n s.ftl.spareOut) 6 1 + fld (b2n s.ftl.gc) 5 1
      + fld (b2n (!(sbsOf s .folding).isEmpty)) 4 1 + fld (b2n (s.ftl.targets.any (fun p => p.2.failed))) 3 1)
  else if c == rFtlSpare then
    let w := worstTarget s
    some (fld w.2 24 8 + fld (w.1 / 16) 8 8 + fld (w.1 % 16) 4 4)
  else if c == rFtlRetired then some (fld s.ftl.grown 16 16 + fld s.ftl.fromHrv 0 16)
  else if c == rFtlJournal then 
    some (fld (min 256 (s.ftl.journal.length * 16 / 1048576)) 16 16 + fld (min 0xFFFF (match s.ftl.journal with
      | [] => 0
      | r :: _ => (s.now - r.born) / 1000000)) 0 16)
  else if c == rFtlCommitSeq then some (if high then s.ftl.commitSeq / 2 ^ 32 else s.ftl.commitSeq % 2 ^ 32)
  else if c == rFtlWa then some (fld s.ftl.wa24 16 16 + fld s.ftl.freeBw 0 16)
  else if c == rFtlStream then some (tgetD s.ftl.streams (sel rFtlStreamSel % 4096) 0)
  else none

end Sys2Proof.Machine
end

