-- ==== Sys2Proof/Machine/Drip.lean ====
section
/-! DEFINITION. Exposure and the drip: dirty tracking, the exposure limit, the control stages, ripeness, the rounds, the
drip policy, the wear governor (chapter 5). -/

namespace Sys2Proof.Machine

open Sys2Proof

/-- A fault whose condition persists and whose detail the manual does not state (log entry 38). -/
def raiseLiveOpen (s : State) (n : Nat) : State := raiseLive (drew s) n (drawn s % 2 ^ 32)

/-! ### The exposure limit (R140–R143) -/

/-- EXP_MIN in force, GiB. -/
def expMin (s : State) : Nat := min 16 (cfg s rDrpExpCfg 0 5)

/-- E_avail in µJ. -/
def eAvailUj (s : State) : Nat := min s.gau.eC s.gau.eV * s.gau.kTemp * s.gau.kAge

/-- Hundredths of µJ left for the harvest: E_avail less E_fixed less the margin; negative counts as 0. -/
def rawNum (s : State) : Nat :=
  let a := eAvailUj s
  let pct := min 50 (cfg s rDrpMarginCfg 16 8)
  100 * a - (100 * s.drp.eFixed * 1000000 + max (100 * cfg s rDrpMarginCfg 0 16 * 1000000) (pct * a))

/-- Hundredths of µJ for one GiB. -/
def rawDen (s : State) : Nat := 100 * s.drp.eByte * 1000

/-- The formula of R140: L in granules and its cause. -/
def limitFormula (s : State) : Nat × Nat :=
  let num := rawNum s
  let den := rawDen s
  let lo := expMin s
  let hi := expMax s
  let l := min (max (65536 * num / den) (65536 * lo)) (65536 * hi)
  let cause := if hi * den < num || hi < lo then 1 else if num < lo * den then 2 else 0
  if s.drp.harvestCap < l then (s.drp.harvestCap, 3) else (l, cause)

/-- The limit the gate applies: 0 in an orderly off (R148). -/
def gateLimit (s : State) : Nat := if s.drp.offDrain then 0 else s.drp.limit

/-! ### Stages (R145–R147) -/

/-- Fill is at least `pct` percent; 100% with L 0 and exposure not zero, 0% with both 0. -/
def fillAtLeast (s : State) (pct : Nat) : Bool :=
  if s.drp.limit == 0 then decide (pct ≤ (if exposure s == 0 then 0 else 100)) else decide (pct * s.drp.limit ≤ 100 * exposure s)

/-- The present excess has lasted `us`. -/
def excessFor (s : State) (us : Nat) : Bool := s.drp.excess && decide (s.drp.excessAt + us ≤ s.now)

/-- A condition watched since a clock has held for 100 ms. -/
def heldFor (since : Option Nat) (now us : Nat) : Bool := match since with | some u => decide (u + us ≤ now) | none => false

/-- A write waits at the exposure gate (R144, R145); one that waits for the twin does not. -/
def gateHeld (s : State) : Bool := s.drp.held.any (·.gate)

/-- The entry condition of stage `k` (Table 5.3). -/
def stageEnter (s : State) (k : Nat) : Bool :=
  match k with
  | 0 => true
  | 1 => fillAtLeast s s.drp.policy.urgent || s.drp.excess
  | 2 => heldFor s.drp.thr1Since s.now 100000 || excessFor s 100000
  | 3 => heldFor s.drp.thr2Since s.now 100000 || excessFor s 1000000
  | _ => s.drp.heldSeen || gateHeld s || excessFor s 10000000

/-- The condition of stage `k` as it is tested for leaving it: thresholds 5 points lower (R146). -/
def stageStay (s : State) (k : Nat) : Bool :=
  match k with
  | 0 => true
  | 1 => fillAtLeast s (s.drp.policy.urgent - 5) || s.drp.excess
  | 2 => fillAtLeast s (s.drp.policy.thr1 - 5) || s.drp.excess
  | 3 => fillAtLeast s (s.drp.policy.thr2 - 5) || s.drp.excess
  | _ => s.drp.heldSeen || gateHeld s || fillAtLeast s (s.drp.policy.thr2 - 5)

/-- The highest stage at most `k` that satisfies `p`. -/
def topStage (k : Nat) (p : Nat → Bool) : Nat :=
  match k with
  | 0 => 0
  | j + 1 => if p (j + 1) then j + 1 else topStage j p

/-- One evaluation of the stage (R145, R146). -/
def evalStage (s : State) : State :=
  let w := fun (old : Option Nat) (c : Bool) => if c then some (old.getD s.now) else none
  let s := { s with drp := { s.drp with
    thr1Since := w s.drp.thr1Since (fillAtLeast s s.drp.policy.thr1),
    thr2Since := w s.drp.thr2Since (fillAtLeast s s.drp.policy.thr2) } }
  let e := topStage 4 (stageEnter s)
  if s.drp.stage < e then { s with drp := { s.drp with stage := e, falseSince := none, heldSeen := gateHeld s } }
  else
    let since := w s.drp.falseSince (!stageStay s s.drp.stage)
    let s' := { s with drp := { s.drp with falseSince := since, heldSeen := gateHeld s } }
    if heldFor since s.now 1000000 then
      { s' with drp := { s'.drp with stage := topStage (s.drp.stage - 1) (stageStay s), falseSince := none } }
    else s'

/-- An excess begins or ends as exposure or L changes (R147). -/
def judgeExcess (s : State) : State :=
  if s.drp.limitSet && s.drp.limit < exposure s then
    if s.drp.excess then s
    else
      raiseLiveOpen { s with drp := { s.drp with excess := true, excessAt := s.now, netCredit := 0, stage := max 1 s.drp.stage } } 0x149
  else if s.drp.excess then
    clearLive { s with drp := { s.drp with excess := false, netCredit := 0 } } 0x149
  else s

/-- STAGE_EVAL (R145). -/
def execStageEval (t : Nat) (s : State) : Host.Outcome State Fault Refusal :=
  let s := tick s t
  .next (if serving s then evalStage s else s)

/-- EXPOSURE_FLOOR stays raised while raw is below EXP_MIN (R142). -/
def judgeFloor (s : State) : State :=
  if rawNum s < expMin s * rawDen s then
    if s.drp.floorOn then s else raiseLiveOpen { s with drp := { s.drp with floorOn := true } } 0x148
  else if s.drp.floorOn then clearLive { s with drp := { s.drp with floorOn := false } } 0x148
  else s

/-- The most the limit rises in one setting: 2 percent of EXP_MAX, in granules (R143). -/
def limitStep (s : State) : Nat := expMax s * 65536 / 50

/-- L takes its new value: a fall at once, a rise by at most 2% of EXP_MAX, the first one in full (R143). DESIGN CHOICE (log
entry 114): while the rise is held back, CAUSE names the term of the formula. -/
def setLimit (s : State) : State :=
  { s with drp := { s.drp with
    limit := if s.drp.limitSet then min (limitFormula s).1 (s.drp.limit + limitStep s) else (limitFormula s).1,
    limitSet := true, limitCause := (limitFormula s).2, eAvail := eAvailUj s / 1000000 } }

/-- GAUGE_UPDATE_FRAME (R143): the gauge inputs arrive, L is computed again; frozen from the cut on. -/
def execGaugeUpdateFrame (t : Nat) (s : State) : Host.Outcome State Fault Refusal :=
  let s := tick s t
  .next (if !s.d2d.gaugeDue || !s.d2d.up then s
    else
      let s := { s with
        d2d := { s.d2d with gaugeDue := false },
        drp := { s.drp with eFixed := s.gau.learned.eFixed, eByte := s.gau.learned.eByte, eLearned := s.gau.learned.eLearned } }
      if serving s then evalStage (judgeExcess (judgeFloor (setLimit s))) else s)

/-! ### Admission (R144, R147, Table 5.1) -/

/-- Net-zero admission is in force: the first 10 s of an excess (R147). -/
def netZero (s : State) : Bool := s.drp.excess && !excessFor s 10000000 && !s.drp.offDrain

/-- A granule may move from CLEAN to DIRTY now. -/
def gateOpen (s : State) : Bool :=
  if netZero s then decide (0 < s.drp.netCredit) else decide (exposure s + 1 ≤ gateLimit s)

/-- The gate admits a write to granule `g`: one not CLEAN is never gated. -/
def gateAdmits (s : State) (g : Nat) : Bool := (tget s.drp.gran g).isSome || gateOpen s

/-- Granules of a region that are not CLEAN (R138). -/
def regionDirty (s : State) (r : Nat) : Nat := (s.drp.gran.filter (fun p => granRegion p.1 == r)).length

/-- The stamp of now, in units of 10 ms; 0xFFFF is never issued (R149). -/
def stampNow (s : State) : Nat := s.now / 10000 % 65535

/-- A write to a granule clears MOVING, and a copy of the granule taken while it was CLEAN is stale: it is dropped, and a
full-image save takes the granule up again (R194, R227). -/
def dropStale (s : State) (g : Nat) : State :=
  let mine := fun (p : Prog) => p.gran == g && tget s.drp.dripN g != some p.n
  let saves := s.ftl.progs.any (fun p => mine p && p.why == .save)
  let progs := (s.ftl.progs.filter (fun p => !(mine p && (p.why == .save || p.why == .recopy)))).map (fun p =>
    if p.gran == g then { p with moving := false } else p)
  let s := { s with ftl := { s.ftl with progs := progs } }
  if saves then saveAgain s g else s

/-- A write to a granule that the gate admits takes effect on its state, its age and the moves of it (R136, R137, R149,
R227). `issuer` is none for a write the twin sends. -/
def touchGran (s : State) (g : Nat) (issuer : Option Nat) : State :=
  let s := { s with drp := { s.drp with recency := tset s.drp.recency (Config.recencyHash g % 2097152) (stampNow s) } }
  let s := dropStale s g
  match tget s.drp.gran g with
  | none =>
    let fresh := regionDirty s (granRegion g) == 0
    let s := { s with drp := { s.drp with
      gran := tset s.drp.gran g .dirty,
      netCredit := if netZero s then s.drp.netCredit - 1 else s.drp.netCredit,
      dirtiers := match issuer with | some i => tset s.drp.dirtiers i s.now | none => s.drp.dirtiers } }
    if fresh then sendSummary s (granRegion g) true else s
  | some GranState.dripping => { s with drp := { s.drp with gran := tset s.drp.gran g .redirty } }
  | some _ => s

/-- Granules leave exposure without a drip: zeroed or removed extents (R136). DESIGN CHOICE (log entry 114): a region whose
count falls to 0 this way is cleared in the copy too, though no commit made it so (R138). -/
def dropGrans (s : State) (p : Nat → Bool) : State :=
  let gone := s.drp.gran.filter (fun x => p x.1)
  let s := { s with
    drp := { s.drp with gran := s.drp.gran.filter (fun x => !p x.1), dripN := s.drp.dripN.filter (fun x => !p x.1) },
    ftl := { s.ftl with progs := s.ftl.progs.filter (fun q => q.why == .move || !p q.gran) } }
  let s := (gone.foldl (fun l x => sins l (granRegion x.1)) []).foldl (fun s r =>
    if regionDirty s r == 0 then sendSummary s r false else s) s
  judgeExcess s

/-! ### Ripeness (R149, R150, R154) -/

/-- Age of a granule in ms, none for old. -/
def granAge (s : State) (g : Nat) : Option Nat :=
  (tget s.drp.recency (Config.recencyHash g % 2097152)).map (fun e => (stampNow s + 65535 - e) % 65535 * 10)

/-- A granule is at least `num ÷ den` ms old. -/
def aged (s : State) (g num den : Nat) : Bool := match granAge s g with | some a => decide (num ≤ a * den) | none => true

/-- A curve at the present fill, exactly: numerator and denominator of the interval in ms (R150). -/
def curveAt (e l : Nat) : List (Nat × Nat) → Nat × Nat
  | [] => (0, 1)
  | [p] => (p.2, 1)
  | p :: q :: r =>
    if q.1 * l ≤ e * 10000 then curveAt e l (q :: r)
    else if e * 10000 ≤ p.1 * l then (p.2, 1)
    else (p.2 * ((q.1 - p.1) * l) - (p.2 - q.2) * (e * 10000 - p.1 * l), (q.1 - p.1) * l)

/-- R_wear, bytes per second (R155). -/
def rWear (s : State) : Nat :=
  let left := 631152000 - (opSecs s - s.drp.origin.getD (opSecs s))
  (s.drp.bTotal - s.drp.spent) / left

/-- Capacity of the wear bucket. -/
def bucketCap (s : State) : Nat := 86400 * rWear s

/-- The ripeness interval in NORMAL: doubled, up to 300 s, while the bucket holds less than 25%. -/
def ripeInterval (s : State) : Nat × Nat :=
  let e := exposure s
  let (n, d) := if s.drp.limit == 0 then curveAt (if e == 0 then 0 else 1) 1 s.drp.policy.curve else curveAt e s.drp.limit s.drp.policy.curve
  if 4 * s.drp.bucket < (bucketCap s : Int) then (min (2 * n) (300000 * d), d) else (n, d)

/-- Drip runs at full rate: URGENT and above, or an orderly off. -/
def fullRate (s : State) : Bool := decide (1 ≤ s.drp.stage) || s.drp.offDrain

/-- Index of a host granule within its allotment. -/
def granWithin (s : State) (g : Nat) : Option (Nat × Nat) :=
  match s.alt.tab.find? (fun p => p.2.extents.contains (granExtent g)) with
  | some (id, a) => some (id, (a.extents.findIdx (· == granExtent g)) * 16384 + g % 16384)
  | none => none

/-- The hint in force on a granule: 0 none, 1 ripe now, 2 defer. -/
def hintOf (s : State) (g : Nat) : Nat :=
  if s.drp.hints.isEmpty then 0
  else match granWithin s g with
    | none => 0
    | some (id, k) =>
      match s.drp.hints.find? (fun h => h.allot == id && h.first ≤ k && k < h.first + h.count) with
      | some h => h.kind
      | none => 0

/-- A DIRTY granule is ripe. -/
def ripe (s : State) (g : Nat) : Bool :=
  if fullRate s then true
  else match hintOf s g with
    | 1 => true
    | 2 => aged s g 300000 1
    | _ => let (n, d) := ripeInterval s; aged s g n d

/-! ### Dispatch (R137, R152, R160) -/

/-- Entries of the in-flight table in use. -/
def inFlightTable (s : State) : Nat := (s.drp.gran.filter (fun p => p.2 != .dirty)).length

/-- Issues the drip cutting of a DIRTY granule while the in-flight table has room. -/
def issueDrip (s : State) (g : Nat) (why : ProgWhy) : State :=
  if tget s.drp.gran g != some .dirty || 65536 ≤ inFlightTable s || s.tin.heldC.any (fun c => c.typ == 1) then s
  else newCutting { s with drp := { s.drp with gran := tset s.drp.gran g .dripping, dripN := tset s.drp.dripN g s.tin.nextN } } 1 g
    (keyGen s ((granAllot s g).getD 0xFFFF)) 0 why false

/-- The granules that commands, or the peer's FLUSH messages, flush get a cutting where they are DIRTY (R160, R257). -/
def flushWork (s : State) : State :=
  let s := s.trl.flight.foldl (fun s f => match f.phase == 1, f.job with
    | true, .flush j => j.left.foldl (fun s g => issueDrip s g .flush) s
    | _, _ => s) s
  s.exl.flushes.foldl (fun s p => p.2.left.foldl (fun s g => issueDrip s g .flush) s) s

/-- Save cuttings outstanding at once: the in-flight table's 65,536 entries bound them too (log entry 49). -/
def saveDepth : Nat := 65536

/-- A full-image save issues its next granules, ascending: a DIRTY one passes through DRIPPING, a CLEAN one is read as it
is, one already in flight waits for that drip to end (R194). -/
def saveWork (s : State) : State :=
  match s.hrv.save with
  | none => s
  | some v =>
    let go := v.left.filter (fun g => match tget s.drp.gran g with | none => true | some .dirty => true | some _ => false)
    let go := if s.tin.heldC.any (fun c => c.typ == 1) then [] else go.take (saveDepth - v.out.length)
    go.foldl (fun s g =>
      let s := if (tget s.drp.gran g).isSome then issueDrip s g .save
        else newCutting s 1 g (keyGen s ((granAllot s g).getD 0xFFFF)) 0 .save false
      { s with hrv := { s.hrv with save := s.hrv.save.map (fun v => { v with left := sdel v.left g, out := sins v.out g }) } }) s

/-- A drip cutting ends: the granule as read through the ledger waits for its program (R137, R128). -/
def dripCut (s : State) (n g : Nat) (why : ProgWhy) : State :=
  if (tget s.drp.gran g).isNone && why != .save then s
  else if why == .save && (tget s.drp.gran g).isSome && tget s.drp.dripN g != some n then saveAgain s g
  else { s with ftl := { s.ftl with progs := s.ftl.progs ++
    [{ gran := g, why := why, n := n, page := pageOf s g (if why == .save then 3 else 1), since := s.now }] } }

/-- DIRTY granules in the order of a round: from the cursor's region upward, then from the first region. -/
def roundOrder (s : State) : List Nat :=
  let l := (s.drp.gran.filter (fun p => p.2 == .dirty)).map (·.1)
  l.filter (fun g => s.drp.cursor ≤ granRegion g) ++ l.filter (fun g => granRegion g < s.drp.cursor)

/-- Bytes of drips issued whose pages are not programmed yet: the bucket still owes them (R156). -/
def wearOwed (s : State) : Nat :=
  16384 * (s.drp.dripN.filter (fun x => !s.ftl.progs.any (fun p => p.gran == x.1 && p.n == x.2 && p.addr.isSome))).length

/-- The wear allowance of the drip in bytes (R155, R156); none where it has no limit. -/
def wearAllowance (s : State) : Option Nat :=
  if fullRate s && s.drp.policy.priority == 0 then none else some (s.drp.bucket - (wearOwed s : Int)).toNat

/-- A policy image loaded since the last round is in force (R159). -/
def takePolicy (s : State) : State :=
  { s with drp := { s.drp with policy := s.drp.nextPolicy.getD s.drp.policy, nextPolicy := none } }

/-- DRIP_ROUND (R152, R159): a new policy comes into force; `free` is the TLC program bandwidth the flash has free, in MB/s;
below 2 free superblocks it is 0 (R228). -/
def execDripRound (free t : Nat) (s : State) : Host.Outcome State Fault Refusal :=
  let s := tick s t
  .next (if !serving s then s
    else
      let s := takePolicy s
      let bw := if freeSb s < 2 then 0 else min 0xFFFF free
      let s := flushWork { s with ftl := { s.ftl with freeBw := bw } }
      let bytes := min (bw * 1000) ((wearAllowance s).getD (bw * 1000))
      let picks := ((roundOrder s).filter (ripe s)).take (min (bytes / 16384) (65536 - inFlightTable s))
      let s := picks.foldl (fun s g => issueDrip s g .drip) s
      let s := match picks.getLast? with
        | some g => { s with drp := { s.drp with cursor := granRegion g } }
        | none => s
      feed s)

/-- A flush after the commit of cutting `n` of granule `g` (R160): a cutting issued after the admission has flushed it,
or an earlier one that made it CLEAN. -/
def flushOne (j : FlushJob) (g n : Nat) (clean pois : Bool) : FlushJob :=
  if j.left.contains g && (decide (j.first ≤ n) || clean) then
    { j with left := sdel j.left g, done := j.done + 1, pois := j.pois + b2n pois }
  else j

/-- A commit's effect on the flushes that wait on granule `g` (R160, R257). -/
def flushCommitted (s : State) (g n : Nat) (clean pois : Bool) : State :=
  { s with
    trl := { s.trl with flight := s.trl.flight.map (fun f => match f.job with
      | .flush j => { f with job := .flush (flushOne j g n clean pois) }
      | _ => f) },
    exl := { s.exl with flushes := s.exl.flushes.map (fun p => (p.1, flushOne p.2 g n clean pois)) } }

/-- A commit's effect on the full-image save (R194, R198). -/
def saveCommitted (s : State) (g : Nat) (why : ProgWhy) (pois : Bool) : State :=
  { s with hrv := { s.hrv with save := s.hrv.save.map (fun v =>
    if why == .save && v.out.contains g then
      { v with out := sdel v.out g, copied := v.copied + 1, poisoned := v.poisoned + b2n pois } else v) } }

/-- A drip or copy of granule `g` commits (R219, Table 5.1): the entry is replaced. Where it is the copy of the drip in flight,
the granule becomes CLEAN or DIRTY, and a region without a dirty granule is cleared; an older copy leaves it as it is. -/
def commitDrip (s : State) (p : Prog) : State :=
  let g := p.gran
  let old := mapEnt s g
  let a := p.addr.getD 0
  let kind := match (sb s (sbOf s a)).role with | .folding => 2 | _ => 1
  let s := { s with ftl := { s.ftl with progs := s.ftl.progs.filter (fun q => !(q.gran == g && q.why == p.why && q.seq.isSome)) } }
  let s := setMap s g { kind := kind, gen := p.page.gen % 256, addr := a }
  let s := if hasCopy old then afterMove s old.addr else s
  let was := if tget s.drp.dripN g == some p.n then tget s.drp.gran g else none
  let s := { s with drp := { s.drp with committed := s.drp.committed + 16384 }, hrv := { s.hrv with imageDrip := true } }
  let s := match was with
    | some .dripping =>
      let s := { s with drp := { s.drp with gran := tdel s.drp.gran g, dripN := tdel s.drp.dripN g, netCredit := if s.drp.excess then s.drp.netCredit + 1 else s.drp.netCredit } }
      judgeExcess (if regionDirty s (granRegion g) == 0 then sendSummary s (granRegion g) false else s)
    | some .redirty => { s with drp := { s.drp with gran := tset s.drp.gran g .dirty, dripN := tdel s.drp.dripN g } }
    | _ => s
  let s := saveCommitted s g p.why (!p.page.poison.isEmpty)
  flushCommitted s g p.n (was == some .dripping) (!p.page.poison.isEmpty)

/-- The oldest copy of granule `g`, no move, whose journal page is programmed. -/
def committable (s : State) (g : Nat) : Option Prog :=
  s.ftl.progs.find? (fun p => p.gran == g && p.why != .move && p.seq.isSome)

/-- RECENCY_SWEEP (R149): entries older than 400 s become old. -/
def execRecencySweep (t : Nat) (s : State) : Host.Outcome State Fault Refusal :=
  let s := tick s t
  .next { s with drp := { s.drp with
    recency := s.drp.recency.filter (fun p => (stampNow s + 65535 - p.2) % 65535 ≤ 40000) } }

/-- HINT_EXPIRY (R154): hints whose lifetime has ended go. -/
def execHintExpiry (t : Nat) (s : State) : Host.Outcome State Fault Refusal :=
  let s := tick s t
  .next { s with drp := { s.drp with hints := s.drp.hints.filter (fun h => s.now < h.loadedAt + 1000 * h.lifeMs) } }

/-! ### The wear governor (R155–R157) -/

/-- WEAR_BUCKET_GAIN (R155): each second the bucket gains R_wear up to its capacity; the commit rate of the second is
shown. -/
def execWearBucketGain (t : Nat) (s : State) : Host.Outcome State Fault Refusal :=
  let s := tick s t
  .next (if !logicOn s then s
    else judgeBucket { s with drp := { s.drp with
      bucket := min (s.drp.bucket + (rWear s : Int)) (bucketCap s : Int),
      rate := min 0xFFFF (s.drp.committed / 1000000), committed := 0 } })

/-- Mean program rate of the samples, bytes per second. -/
def meanRate (s : State) (l : List (Nat × Nat)) : Nat :=
  match l.getLast? with
  | some (u, b) => (s.drp.spent - b) / (opSecs s - u)
  | none => 0

/-- ENDURANCE_FORECAST (R157): R_30 over the last 30 days, and the two tests of the fault. -/
def execEnduranceForecast (t : Nat) (s : State) : Host.Outcome State Fault Refusal :=
  let s := tick s t
  .next (match s.drp.origin, loopDue s true 1 60000000 600000000 with
    | none, _ | some _, false => s
    | some o, true =>
      let s := loopRan s 1
      let l := (opSecs s, s.drp.spent) :: s.drp.days.filter (fun p => opSecs s ≤ p.1 + 2592000)
      let r := meanRate s l
      let need := r * (631152000 - (opSecs s - o))
      let s := { s with drp := { s.drp with days := l, r30 := r } }
      if !s.drp.ahead && s.drp.bTotal < s.drp.spent + need then raiseLiveOpen { s with drp := { s.drp with ahead := true } } 0x14B
      else if s.drp.ahead && 100 * need < 95 * (s.drp.bTotal - s.drp.spent) then
        clearLive { s with drp := { s.drp with ahead := false } } 0x14B
      else s)

/-! ### Commands (R158, R159) -/

/-- ADMISSION of Table 5.7 and DRP_STAGE. -/
def admission (s : State) : Nat := if netZero s then 1 else if gateHeld s then 2 else 0

/-- Why a command may not name an allotment, as status and detail: no entry, only a reservation, DELETING, STALE
(Table 3.4, R101). -/
def allotBad (s : State) (id : Nat) : Option (Nat × Nat) :=
  match tget s.alt.tab id with
  | none => some (0x04, 0x08)
  | some a =>
    if a.reservation then some (0x0E, 0x15)
    else if a.st == .deleting then some (0x0E, 0x11)
    else if a.st == .stale then some (0x09, 0)
    else none

/-- EXPOSURE_QUERY (R158); what a host may name is check 5. -/
def cmdExposureQuery (f : InFlight) (s : State) : State :=
  let id := f.cmd.allot
  match (if id == 0xFFFF then none else allotBad s id) with
  | some (st, d) => endWith s f.id st d
  | none =>
    let mine := if id == 0xFFFF then 0xFFFFFFFF else (s.drp.gran.filter (fun p => granAllot s p.1 == some id)).length
    let flags := b2n s.drp.excess + fld (b2n s.drp.floorOn) 1 1 + fld (b2n s.drp.ahead) 2 1 + fld (b2n s.drp.twinBound) 3 1
      + fld (b2n s.drp.overdrawn) 4 1
    endOk s f.id (le (exposure s) 4 ++ le s.drp.limit 4 ++ le s.drp.stage 1 ++ le (admission s) 1 ++ le flags 1
      ++ le s.drp.limitCause 1 ++ le mine 4)

/-- EXPOSURE_QUERY as a packet. -/
def execExposureQuery (c : TrellisCmd) (s : State) : Host.Outcome State Fault Refusal := .next (submit cmdExposureQuery 0x0200 c s)

/-- The fields of a policy image keep to Table 5.5. -/
def policyOk (p : Nat × Nat × Nat × Nat × List (Nat × Nat)) : Bool :=
  let (pr, u, a, b, l) := p
  decide (pr ≤ 1) && decide (50 ≤ u && u ≤ 97) && decide (u < a && a ≤ 98) && decide (a < b && b ≤ 99)
    && decide (l.length ≤ 16) && !l.isEmpty && l.all (fun x => decide (x.1 ≤ 10000 && x.2 ≤ 300000))
    && (List.range (l.length - 1)).all (fun i => decide ((l.getD i (0, 0)).1 ≤ (l.getD (i + 1) (0, 0)).1)
        && decide ((l.getD (i + 1) (0, 0)).2 ≤ (l.getD i (0, 0)).2))

/-- A hint less the range `[a, b)` of its allotment. -/
def hintMinus (h : Hint) (a b : Nat) : List Hint :=
  let e := h.first + h.count
  if b ≤ h.first || e ≤ a then [h]
  else (if h.first < a then [{ h with count := a - h.first }] else []) ++ (if b < e then [{ h with first := b, count := e - b }] else [])

/-- One hint entry of 16 bytes applied to the hints of an allotment (R159). -/
def hintEntry (now id : Nat) (l : List Hint) (e : List Byte) : List Hint :=
  let a := rd e 0 4
  let n := rd e 4 4
  let rest := l.flatMap (fun h => if h.allot == id then hintMinus h a (a + n) else [h])
  if rd e 8 1 == 0 then rest
  else { first := a, count := n, allot := id, kind := rd e 8 1, lifeMs := rd e 12 4, loadedAt := now } :: rest

/-- A hint entry keeps to R159. -/
def hintOk (size : Nat) (e : List Byte) : Bool :=
  decide (rd e 8 1 ≤ 2) && rd e 9 3 == 0 && decide (1 ≤ rd e 4 4) && decide (rd e 0 4 + rd e 4 4 ≤ size)
    && decide (1 ≤ rd e 12 4 && rd e 12 4 ≤ 600000)

/-- The 16-byte entries of a payload. -/
def entries16 (l : List Byte) : List (List Byte) := (List.range (l.length / 16)).map (fun i => slice l (16 * i) 16)

/-- DRIP_POLICY_SET (R159). -/
def cmdDripPolicySet (f : InFlight) (s : State) : State :=
  let c := f.cmd
  let b := payIn c
  if pByte c 24 == 0 then
    if issClass c.est == 0 then endWith s f.id 0x05 0x02
    else if !containerOk s 0x14 b then endWith s f.id 0x0B 0
    else
      let p := Config.policyImage (container b).body
      if !policyOk p then badParam s f.id 0x40
      else
        let (pr, u, x, y, l) := p
        let q : Policy := { priority := pr, urgent := u, thr1 := x, thr2 := y, curve := l, version := (container b).version }
        let s := { s with drp := { s.drp with nextPolicy := some q } }
        endOk (pairWrite s 4) f.id (le (container b).version 4)
  else if pByte c 24 == 1 then
    if !owns s c.est 0 then endWith s f.id 0x05 0x05
    else match allotBad s c.allot, tget s.alt.tab c.allot with
      | some (st, d), _ => endWith s f.id st d
      | none, none => badParam s f.id 8
      | none, some a =>
        let es := entries16 b
        if b.length % 16 != 0 || !(es.all (hintOk (16384 * a.extents.length))) then badParam s f.id 0x40
        else
          let l := es.foldl (hintEntry s.now c.allot) s.drp.hints
          if 4096 < l.length then endWith s f.id 0x0C 0
          else
            let s := assistInput { s with drp := { s.drp with hints := l } } 0
            endOk s f.id (le l.length 4)
  else badParam s f.id 24

/-- DRIP_POLICY_SET as a packet. -/
def execDripPolicySet (c : TrellisCmd) (s : State) : Host.Outcome State Fault Refusal := .next (submit cmdDripPolicySet 0x0201 c s)

/-! ### Registers -/

/-- BUCKET_PM of DRP_WEAR: 0.1% of capacity, full while there is none. -/
def bucketPm (s : State) : Nat :=
  if bucketCap s == 0 then 0x03E8
  else twos (max (-32768) (min 1000 (s.drp.bucket * 1000 / (bucketCap s : Int)))) 16

/-- DRP registers whose value the state's own fields give. -/
def viewDrip (s : State) (c : Nat) (high : Bool) : Option Nat :=
  if c == rDrpExposure then some (fld (exposure s) 0 28)
  else if c == rDrpLimit then some (fld s.drp.limitCause 29 3 + fld s.drp.limit 0 28)
  else if c == rDrpStage then
    some (fld (if s.drp.excess then min 255 ((s.now - s.drp.excessAt) / 1000000) else 0) 24 8 + fld (admission s) 8 2
      + fld (b2n s.drp.twinBound) 7 1 + fld (b2n s.drp.floorOn) 6 1 + fld (b2n s.drp.excess) 5 1 + fld s.drp.stage 0 3)
  else if c == rDrpEnergy then some (min 0xFFFFFFFF s.drp.eAvail)
  else if c == rDrpEbyte then some (fld (b2n s.drp.eLearned) 31 1 + fld s.drp.eFixed 16 15 + fld s.drp.eByte 0 16)
  else if c == rDrpHarvestCap then some (min 2048 (s.drp.harvestCap / 65536))
  else if c == rDrpWear then
    some (fld (b2n s.drp.ahead) 31 1 + fld (b2n s.drp.overdrawn) 30 1 + fld s.drp.policy.priority 29 1 + fld (bucketPm s) 0 16)
  else if c == rDrpWearRate then some (fld (min 0xFFFF (s.drp.r30 / 1000000)) 16 16 + fld (min 0xFFFF (rWear s / 1000000)) 0 16)
  else if c == rDrpWearSpent then some (if high then s.drp.spent / 2 ^ 32 else s.drp.spent % 2 ^ 32)
  else if c == rDrpDrip then some (fld s.drp.rate 16 16)
  else none

end Sys2Proof.Machine
end

