-- ==== Sys2Proof/Machine/Harvest.lean ====
section
/-! DEFINITION. The harvest from the cut to the seal: stripes, their places, requeued granules, the sealed boundary,
the metadata and the seal (chapter 6). -/

namespace Sys2Proof.Machine

open Sys2Proof

/-! ### Superblocks of a harvest (R176, R223) -/

/-- Stripes the metadata of step 12 takes (R223). -/
def metaStripes (s : State) : Nat := cdiv ((sbsOf s .harvest).length * s.ftl.stripesPerSb) 1024 + 8

/-- Erased stripes of the harvest superblocks. -/
def erasedStripes (s : State) : Nat :=
  (sbsOf s .harvest).foldl (fun a k => if (sb s k).clean then a + (s.ftl.stripesPerSb - (sb s k).used) else a) 0

/-- The superblock the next stripe goes to: the harvest region but for what the metadata needs, and after it erased
blocks of the TLC pool (R176). `all`: the metadata's part may be used. -/
def nextSb (s : State) (all : Bool) : Option Nat :=
  let open1 := (sbsOf s .harvest).find? (fun k => (sb s k).clean && decide ((sb s k).used < s.ftl.stripesPerSb))
  if all || metaStripes s < erasedStripes s then open1
  else (sbsOf s .tlcFree).find? (fun k => (sb s k).clean)

/-- Takes the next stripe of superblock `k`; one of the TLC pool takes the harvest role, journaled (R216). -/
def useStripe (s : State) (k : Nat) : State :=
  let s := setSb s k { sb s k with used := (sb s k).used + 1 }
  if (sb s k).role == .harvest then s else setRole s k .harvest

/-! ### Plan order of a requeue (R174, R176) -/

/-- Tier of a granule. -/
def granTier (s : State) (g : Nat) : Nat := harvestTier s ((granAllot s g).getD 0)

/-- Puts a granule at the end of its own tier, ahead of every later tier. -/
def requeue (s : State) (plan : List Nat) (g : Nat) : List Nat :=
  let k := granTier s g
  plan.takeWhile (fun h => granTier s h ≤ k) ++ [g] ++ plan.dropWhile (fun h => granTier s h ≤ k)

/-- In a harvest's plan, granule `h` stands before `g`: an earlier tier, or in the same tier an earlier channel group or place
of the group; requeued ones stand last (R174). -/
def planBefore (s : State) (again : List Nat) (h g : Nat) : Bool :=
  decide (granTier s h < granTier s g) || (granTier s h == granTier s g && !again.contains h
    && (decide (granGroup s h < granGroup s g) || (granGroup s h == granGroup s g && decide (h ≤ g))))

/-- A granule made DIRTY after the cut by a write positioned before it joins the harvest set at its place (R174, R189). -/
def joinHarvest (s : State) (g : Nat) : State :=
  match s.hrv.run with
  | some r =>
    if r.snapshot.contains g then s
    else { s with hrv := { s.hrv with run := some { r with
      snapshot := sins r.snapshot g,
      plan := r.plan.takeWhile (fun h => planBefore s r.again h g) ++ [g] ++ r.plan.dropWhile (fun h => planBefore s r.again h g) } } }
  | none => s

/-! ### The harvest header (R172) -/

/-- The 4,096-byte descriptor: the cut sequences and the harvest's identity (log entry 117). -/
def descriptor (s : State) (r : HarvestRun) : List Byte :=
  padTo (r.cutSeq.flatMap (fun x => le x.toNat 8) ++ le (sealSeq s + 1) 8 ++ le r.cause.code 1 ++ le r.powerCycle.toNat 4
    ++ le r.opSeconds 8 ++ le r.epoch 8) 4096

/-- Content of page `i` of the header: the descriptor, then the dirty snapshot at 1 bit per host granule. -/
def headerCells (s : State) (r : HarvestRun) (i : Nat) : List Host.Cell :=
  (r.snapshot.filter (fun g => (4096 + g / 8) / 16384 == i)).foldl (fun m g =>
    let a := (4096 + g / 8) % 16384
    mwrite m a (mread m a ||| BitVec.ofNat 8 (2 ^ (g % 8)))) (if i == 0 then mwriteN [] 0 (descriptor s r) else [])

/-- The granules that header pages of a harvest mark (R181). -/
def headerGrans (s : State) (seq : Nat) : List Nat :=
  (s.ftl.pages.filter (fun p => p.2.kind == 0x10 && p.2.sealSeq == seq)).foldl (fun l p =>
    p.2.cells.foldl (fun l c =>
      let o := 16384 * p.2.gran + c.1
      if o < 4096 then l else ((List.range 8).filter (fun i => c.2.getLsbD i)).foldl (fun l i => sins l (8 * (o - 4096) + i)) l) l) []

/-! ### Issuing stripes (Table 6.3 steps 8–12) -/

/-- Sets the harvest in progress. -/
def setRun (s : State) (r : HarvestRun) (phase : Nat) : State :=
  { s with hrv := { s.hrv with run := some { r with phase := phase }, phase := phase } }

/-- Stripes issued at once: one for each tine that may run in HARVESTING (R170, R280). -/
def stripeDepth (s : State) : Nat := if isBig s then 64 else 32

/-- As the stripe phase begins, channels beyond the limit, and those its first stripe reads nothing from, enter self-refresh
(R125). -/
def rotateIn (s : State) (gs : List Nat) : State :=
  let need := (gs.map (granChan s)).foldl sins []
  let keep := need.take (awakeLimit s)
  { s with ddrs := { s.ddrs with ch := s.ddrs.ch.map (fun p =>
      if p.2.st == 2 && !keep.contains p.1 then (p.1, restStep { p.2 with st := 4, leaving := false, retraining := false }) else p) } }

/-- Every granule of a data stripe has been read: before its channel entered self-refresh, or from a channel that is awake (R125). -/
def stripeRead (s : State) (st : HStripe) : Bool :=
  st.header.isSome || st.grans.all (fun p => st.read.contains p.1 || ((ddr s (granChan s p.1)).st != 3 && (ddr s (granChan s p.1)).st != 4))

/-- Issues the next stripe with the granules that fit it: none for a header stripe. A target whose page is not erased refuses
its program (R176, R212). -/
def issueStripe (s : State) (r : HarvestRun) (k : Nat) (header : Bool) : State :=
  let places := stripePlaces s k (sb s k).used
  let gs := if header then [] else r.plan.take places.length
  let st : HStripe := { n := r.next, sb := k, grans := if header then (List.range places.length).zip places else gs.zip places,
                        header := if header then some r.headPages else none,
                        refused := (places.filter (fun a => !pageErased s a)).foldl (fun l a => sins l (faTgt a)) [] }
  let s := wear (useStripe s k) (s.ftl.targets.length * s.ftl.planes) true
  let r := { r with next := r.next + 1, plan := r.plan.drop gs.length, issued := r.issued ++ [st],
                    headPages := if header then r.headPages + places.length else r.headPages,
                    data := if header then 0 else r.data + 1, dataAt := if r.data == 0 && !header then s.now else r.dataAt }
  let s := if r.data == 1 && !header then rotateIn s gs else s
  newCutting (setRun s r (if header then 1 else 3)) 2 (sealSeq s + 1) st.n 0 .drip true

/-- Issues up to `fuel` data stripes; granules beyond every erased block are not saved (R176). -/
def issueData (s : State) (fuel : Nat) : State :=
  match fuel with
  | 0 => s
  | fuel + 1 =>
    match s.hrv.run with
    | some r =>
      if r.plan.isEmpty || stripeDepth s ≤ r.issued.length then s
      else match nextSb s false with
        | some k =>
          if (stripePlaces s k (sb s k).used).isEmpty then issueData (useStripe s k) fuel
          else issueData (issueStripe s r k false) fuel
        | none => setRun s { r with plan := [], unsaved := r.unsaved + r.plan.length } r.phase
    | none => s

/-- Issues up to `fuel` header stripes (R172). -/
def issueHeader (s : State) (fuel : Nat) : State :=
  match fuel with
  | 0 => s
  | fuel + 1 =>
    match s.hrv.run, nextSb s true with
    | some r, some k => if r.next < s.ftl.headerStripes then issueHeader (issueStripe s r k true) fuel else s
    | _, _ => s

/-- Aggregate pSLC program bandwidth in MB/s (Table 1.8). -/
def pslcBw (s : State) : Nat :=
  (flashChans s).foldl (fun a c =>
    a + min (perChan s * s.ftl.planes * 16384 / s.ftl.progUs) ([1600, 2400, 3200, 3600].getD (tgetD s.ftl.fces c {}).rate 0)) 0

/-- Writes up to `n` stripes of metadata, pages of KIND 0x11, the first at `idx` (step 12); their content stands in the state's
own tables (log entry 118). -/
def metaPages (s : State) (n idx stripe : Nat) (first : Option Nat) : State × Option Nat :=
  match n with
  | 0 => (s, first)
  | n + 1 =>
    match nextSb s true with
    | none => (s, first)
    | some k =>
      let places := stripePlaces s k (sb s k).used
      let s := { s with ftl := { s.ftl with pages := ((List.range places.length).zip places).foldl (fun m p =>
        tset m p.2 (devPage s 0x11 (idx + p.1) 0 stripe [])) s.ftl.pages } }
      metaPages (useStripe s k) n (idx + places.length) (stripe + 1) (first.orElse (fun _ => places.head?))

/-- The last data stripe is sealed: the metadata is written, and the stripe phase is measured (Table 6.3 step 12). -/
def writeMeta (s : State) (r : HarvestRun) : State :=
  let us := if r.data == 0 then 0 else s.now - r.dataAt
  let s := wear s (metaStripes s * s.ftl.targets.length * s.ftl.planes) true
  let (s, a) := metaPages s (metaStripes s) 0 r.next none
  let s := setRun s { r with metaAddr := a.map (fun x => fld x 18 36) } 4
  { s with hrv := { s.hrv with lastTimeUs := us % 2 ^ 32,
                               rates := (s.hrv.rates.set 0 (if us == 0 then 0 else r.saved.length * 16384 / us)).set 1 (pslcBw s) } }

/-- Writes positioned before the cut wait on a fetch, or are not applied yet (R189). -/
def writesWait (s : State) : Bool :=
  s.hrv.fetches.any (fun f => !f.waiters.isEmpty) || s.exl.subs.any (fun p => !p.2.waiting.isEmpty) || !s.ldg.heldW.isEmpty || !s.ldg.rebuildW.isEmpty

/-- The harvest goes on as far as it can, once the links are down (Table 6.3): header, data stripes once the writes that wait on
a fetch are applied (R189), metadata. -/
def harvestAdvance (s : State) : State :=
  match s.dev.state, s.hrv.run with
  | .harvesting, some r =>
    if r.phase == 1 && anyLink s && s.now < s.hrv.downBy then s else
    let s := linksEnd s
    let s := if r.phase == 1 && r.next < s.ftl.headerStripes then issueHeader s s.ftl.headerStripes else s
    let r := s.hrv.run.getD r
    let s := if r.phase == 1 && r.issued.isEmpty && s.ftl.headerStripes ≤ r.next then setRun s r 2 else s
    let r := s.hrv.run.getD r
    let s := if 2 ≤ r.phase && r.phase ≤ 3 && !writesWait s then issueData s (stripeDepth s + 2 * s.ftl.stripesPerSb) else s
    let r := s.hrv.run.getD r
    let s := if 2 ≤ r.phase && r.phase ≤ 3 && !writesWait s && r.plan.isEmpty && r.issued.isEmpty then writeMeta s r else s
    feed s
  | _, _ => s

/-! ### A stripe ends (R173, R176) -/

/-- The highest stripe up to which all are sealed, given the sealed ones above the boundary. -/
def advanceBound (b : Option Nat) (out : List Nat) (fuel : Nat) : Option Nat × List Nat :=
  match fuel with
  | 0 => (b, out)
  | fuel + 1 =>
    let n := match b with | some k => k + 1 | none => 0
    if out.contains n then advanceBound (some n) (sdel out n) fuel else (b, out)

/-- A pSLC program of target `tk` in superblock `k` failed or was refused in a harvest: its block retires, or leaves
harvest_cap, and takes no more (R176). -/
def stripeFailed (s : State) (k tk : Nat) (refused : Bool) : State :=
  let b := tk * 8192 + memberBlock s tk k
  let a := regAt rFceErr (tk / 16)
  let s := setSb s k { sb s k with missing := sins (sb s k).missing tk }
  if refused then
    let s := bump (raiseOpen s (0x0C1 + 4 * (tk / 16))) a 8 8 1
    raiseOpen (reportCap (setBlock s b { block s b with cleared := true, queued := true })) 0x150
  else
    let s := bump s a 24 8 1
    reportCap (if s.ftl.pages.any (fun p => blkKey p.1 == b) then setBlock s b { block s b with retireWait := true, cleared := true }
      else doRetire s b)

/-- The cutting of stripe `n` waits or runs. -/
def stripeReading (s : State) (n : Nat) : Bool := cuttingOut s (fun c => c.typ == 2 && c.b == n)

/-- The pages of a stripe that were programmed: granules with the commit values that follow (R205), or header pages. -/
def stripePages (s : State) (r : HarvestRun) (st : HStripe) (good : List (Nat × Nat)) : State :=
  match st.header with
  | some i => { s with ftl := { s.ftl with pages := good.foldl (fun m p =>
      tset m p.2 (devPage s 0x10 (i + p.1) 0 st.n (headerCells s r (i + p.1)))) s.ftl.pages } }
  | none => good.foldl (fun s p => { s with ftl := { s.ftl with
      pages := tset s.ftl.pages p.2 (stamped s { pageOf s p.1 2 with stripe := st.n, commit := s.ftl.commitSeq + 1 }),
      commitSeq := s.ftl.commitSeq + 1 } }) s

/-- HARVEST_STRIPE_DONE (R173, R176): every program of stripe `n` has ended; `failed` lists targets whose program failed;
those refused with NOT_ERASED are known since the issue; `ues` lists lines its reads found uncorrectable. -/
def execHarvestStripeDone (n : Nat) (failed : List Nat) (ues : List Nat) (t : Nat) (s : State) :
    Host.Outcome State Fault Refusal :=
  let s := tick s t
  .next (match s.dev.state, s.hrv.run with
    | .harvesting, some r =>
      match r.issued.find? (fun x => x.n == n) with
      | none => s
      | some st =>
        if stripeReading s n || !stripeRead s st then s
        else
          let s := internalUes s (ues.filter (fun l => st.header.isNone && st.grans.any (fun p => p.1 == lineGran l)))
          let failed := failed.filter (fun tk => !st.refused.contains tk && (members s st.sb).contains tk)
          let s := st.refused.foldl (fun s tk => stripeFailed s st.sb tk true) (failed.foldl (fun s tk => stripeFailed s st.sb tk false) s)
          let bad := fun (a : Nat) => failed.contains (faTgt a) || st.refused.contains (faTgt a)
          let good := st.grans.filter (fun p => !bad p.2)
          let s := stripePages s r st good
          let back := if st.header.isSome then [] else (st.grans.filter (fun p => bad p.2)).map (·.1)
          let plan := back.foldl (fun l g => requeue s l g) r.plan
          let (b, out) := advanceBound r.bound (sins r.sealedOut n) (r.next + 1)
          let r' := { r with issued := r.issued.filter (fun x => x.n != n), plan := plan, again := sunion r.again back,
                             bound := b, sealedOut := out,
                             saved := if st.header.isSome then r.saved else r.saved ++ good.map (fun p => (p.1, n)) }
          let s := setRun s r' r.phase
          let s := if b != r.bound then sendBound s (b.getD 0) else s
          harvestAdvance s
    | _, _ => s)

/-! ### The seal (Table 6.3 step 13) -/

/-- R25's conditions to hold on pack power. -/
def mayHold (s : State) : Bool :=
  cfg s rAonHoldCfg 16 16 != 0 && decide (100 * min 100 (cfg s rAonHoldCfg 0 7) ≤ s.gau.soc)

/-- The destination of a harvest, chosen at the seal (Table 6.1, R162, R25). -/
def destination (s : State) (c : Cause) : DevState :=
  match c with
  | .fatal => .latched
  | .mrN => .held
  | .powerFail => if inputGood s || mayHold s then .held else .railsDown
  | _ => .railsDown

/-- The seal record of a harvest (Table 6.6). -/
def harvestSeal (r : HarvestRun) : Seal :=
  { kind := 0, cause := r.cause.code, powerCycle := r.powerCycle, unsaved := r.unsaved,
    unsavedRegions := (r.snapshot.filter (fun g => !(r.saved.any (fun p => p.1 == g)))).foldl (fun l g => sins l (granRegion g)) [],
    opSeconds := r.opSeconds, epoch := r.epoch, granules := r.saved.length, stripes := r.data, cutNs := r.cutNs, cutSeq := r.cutSeq }

/-- SEAL_WRITTEN (R169, R162, R167): both copies are written, at a location of `bad` after a program that failed (R213); the
destination is chosen, the notices go out, a shortage is reported. -/
def execSealWritten (bad : List Nat) (t : Nat) (s : State) : Host.Outcome State Fault Refusal :=
  let s := tick s t
  .next (match s.dev.state, s.hrv.run with
    | .harvesting, some r =>
      if r.phase != 4 then s
      else
        let s := bad.foldl sealFailed (wear { s with hrv := { s.hrv with lastGranules := r.saved.length } } (2 + bad.length) true)
        let s := placeSeal s { harvestSeal r with regs := hrvRegs s } r.metaAddr
        let s := setRun s r 5
        let s := { s with hrv := { s.hrv with
          dest := destination s r.cause, inputGoodAtSeal := inputGood s,
          short := decide (0 < r.unsaved), imageDrip := true } }
        let s := notice s 1 true
        let s := sendEvery s 0x0A [sealSeq s]
        if 0 < r.unsaved then raiseOpen s 0x151 else s
    | _, _ => s)

/-! ### HARVEST_PLAN_LOAD (R197) -/

/-- The 4-byte entries of a payload. -/
def entries4 (l : List Byte) : List (List Byte) := (List.range (l.length / 4)).map (fun i => slice l (4 * i) 4)

/-- HARVEST_PLAN_LOAD (R197). -/
def cmdHarvestPlanLoad (f : InFlight) (s : State) : State :=
  let b := payIn f.cmd
  let es := entries4 b
  match pByte f.cmd 24 with
  | 0 =>
    if b.length % 4 != 0 || 4096 < es.length || es.any (fun e => 0x0FFF < rd e 0 2 || 7 < rd e 2 1 || rd e 3 1 != 0) then
      badParam s f.id 0x40
    else
      let p := es.foldl (fun m e => tset m (rd e 0 2) (rd e 2 1)) []
      endOk (pairWrite { s with hrv := { s.hrv with plan := p } } 5) f.id (le p.length 4)
  | 1 =>
    if b.length != 0 then badParam s f.id 0x40
    else endOk (pairWrite { s with hrv := { s.hrv with plan := [] } } 5) f.id (le 0 4)
  | _ => badParam s f.id 24

/-- HARVEST_PLAN_LOAD as a packet. -/
def execHarvestPlanLoad (c : TrellisCmd) (s : State) : Host.Outcome State Fault Refusal :=
  .next (submit cmdHarvestPlanLoad 0x0203 c s)

/-! ### Registers -/

/-- HRV registers whose value the state's own fields give. -/
def viewHrv (s : State) (c : Nat) (high : Bool) : Option Nat :=
  if c == rHrvStatus then
    some (fld s.hrv.phase 28 4 + fld (b2n s.hrv.replant) 27 1 + fld (b2n s.hrv.warm) 26 1 + fld (b2n (s.hrv.save.any (fun v => !(v.left.isEmpty && v.out.isEmpty)))) 25 1
      + fld (b2n s.hrv.short) 24 1)
  else if c == rHrvCut then some (fld (min 0xFFFF s.hrv.cutNs) 16 16 + fld (min 0xFFFF s.hrv.linkDownNs) 0 16)
  else if c == rHrvLastGranules then some (s.hrv.lastGranules % 2 ^ 32)
  else if c == rHrvLastTimeUs then some (s.hrv.lastTimeUs % 2 ^ 32)
  else if c == rHrvLoss then some (fld s.hrv.lostRegions 16 15 + fld s.hrv.row 0 3)
  else if c == rHrvReplantLeft then some s.hrv.todo.length
  else if c == rHrvFetch then some (fld (min 0xFFFF s.hrv.fetchCount) 16 16 + fld (min 0xFFFF s.hrv.fetchMax) 0 16)
  else if c == rHrvHarvRate then some (s.hrv.rates.getD 0 0)
  else if c == rHrvHarvFloor then some (s.hrv.rates.getD 1 0)
  else if c == rHrvReplRate then some (s.hrv.rates.getD 2 0)
  else if c == rHrvReplFloor then some (s.hrv.rates.getD 3 0)
  else if c == rHrvSealSeq then some (if high then sealSeq s / 2 ^ 32 else sealSeq s % 2 ^ 32)
  else none

end Sys2Proof.Machine
end

