-- ==== Sys2Proof/Machine/Ledger.lean ====
section
/-! DEFINITION. Allotments as the ports and the twin see them, the ledger's positions, the merging of writes, lines
held by a comparison, priority fetches, mirrored records, and the end of a restore (chapters 3, 6 and 8). -/

namespace Sys2Proof.Machine

open Sys2Proof

/-! ### Allotments, bindings, offers (R75–R80) -/

/-- Allotment entry `id`. -/
def allotOf (s : State) (id : Nat) : Option Allot := tget s.alt.tab id

/-- Sets an entry. -/
def setAllot (s : State) (id : Nat) (a : Allot) : State := { s with alt := { s.alt with tab := tset s.alt.tab id a } }

/-- Changes an entry that exists. -/
def modAllot (s : State) (id : Nat) (f : Allot → Allot) : State :=
  match allotOf s id with | some a => setAllot s id (f a) | none => s

/-- The line at a device physical address of a window of an allotment: extents in the order added (R76, R79). -/
def windowLine (a : Allot) (b : Binding) (dpa : Nat) : Option Nat :=
  let o := dpa - b.dpa
  let k := o / 2 ^ 28
  if dpa < b.dpa || a.extents.length ≤ k || !b.accepted.contains k then none
  else some (a.extents.getD k 0 * 2 ^ 22 + o % 2 ^ 28 / 64)

/-- A host's binding, its allotment and the line it names with an address. -/
def resolve (s : State) (issuer dpa : Nat) : Option (Nat × Allot × Binding × Nat) :=
  s.alt.tab.findSome? (fun p =>
    (p.2.bindings.find? (fun b => b.issuer.toNat == issuer)).bind (fun b =>
      (windowLine p.2 b dpa).map (fun l => (p.1, p.2, b, l))))

/-- A host can be reached: its port, or in G-FAM mode any port, is up (R72, R73). -/
def hostUp (s : State) (i : Nat) : Bool :=
  s.cxl.ports.any (fun p => p.2.link == 2 && (p.2.mode == 2 || i % 4096 / 16 == p.1))

/-- UUID of a CXL dynamic capacity event record (log entry 36). -/
def dcUuid : List Byte := be 0xca95afa7f18340188c2f95268e101a2a 16

/-- Tag of extent `k` of an allotment: the ID in bytes 0–1, or the tag ALLOT_RESIZE supplied for it (R78, R103). -/
def extentTag (id : Nat) (a : Allot) (k : Nat) : List Byte :=
  match a.tags.find? (fun p => p.1 ≤ k) with
  | some p => p.2
  | none => padTo (le id 2) 16

/-- Runs of consecutive indexes with one tag: first index and count. -/
def tagRuns (id : Nat) (a : Allot) : List Nat → List (Nat × Nat)
  | [] => []
  | k :: l => match tagRuns id a l with
    | (h, n) :: r => if h == k + 1 && extentTag id a h == extentTag id a k then (k, n + 1) :: r else (k, 1) :: (h, n) :: r
    | [] => [(k, 1)]

/-- Posts dynamic capacity events to a host for extents of its window: 0 add, 1 release, 2 forced release, one for each run
(R78, log entry 36). -/
def postDc (s : State) (ty id : Nat) (a : Allot) (b : Binding) (ks : List Nat) : State :=
  (tagRuns id a ks).foldl (fun s r =>
    let data := dcUuid ++ le ty 1 ++ zeros 1 ++ le b.issuer.toNat 2 ++ zeros 4 ++ le (b.dpa + r.1 * 2 ^ 28) 8 ++ le (r.2 * 2 ^ 28) 8
      ++ extentTag id a r.1 ++ zeros 8
    { s with cxl := { s.cxl with mboxes := tmod s.cxl.mboxes b.issuer.toNat {} (fun m => pushEvent m 4 data) } }) s

/-- Extents are on offer: hosts are served, and early service is open or the restore is complete (R185, R89). -/
def offering (s : State) (a : Allot) : Bool :=
  serving s && a.serving && a.st != .deleting && (!s.hrv.replant || cfg s rHrvCfg 30 1 == 1)

/-- Changes a host's binding of an allotment. -/
def modBinding (s : State) (id issuer : Nat) (f : Binding → Binding) : State :=
  modAllot s id (fun a => { a with bindings := a.bindings.map (fun b => if b.issuer.toNat == issuer then f b else b) })

/-- Offers every extent of a binding again: the host accepts them anew (R79). -/
def offerTo (s : State) (id : Nat) (issuer : BitVec 16) : State :=
  match allotOf s id with
  | none => s
  | some a =>
    if !offering s a || !hostUp s issuer.toNat then s
    else match a.bindings.find? (fun b => b.issuer == issuer) with
      | none => s
      | some b =>
        let s := modBinding s id issuer.toNat (fun c => { c with accepted := [], released := [], offered := a.extents.length })
        postDc s 0 id a b (List.range a.extents.length)

/-- Offers the extents of a binding that the host has not been offered since the start; what it holds it keeps (R79,
R80). -/
def offerRest (s : State) (id : Nat) (issuer : BitVec 16) : State :=
  match allotOf s id with
  | none => s
  | some a => match a.bindings.find? (fun b => b.issuer == issuer) with
    | none => s
    | some b =>
      if b.offered == 0 then offerTo s id issuer
      else if !offering s a || !hostUp s issuer.toNat then s
      else
        postDc (modBinding s id issuer.toNat (fun c => { c with offered := a.extents.length })) 0 id a b
          ((List.range a.extents.length).filter (fun k => b.offered ≤ k))

/-- Offers an allotment to every host bound to it. -/
def offerAllot (s : State) (id : Nat) : State :=
  match allotOf s id with
  | none => s
  | some a => a.bindings.foldl (fun s b => offerTo s id b.issuer) s

/-- Offers every allotment served here. -/
def offerAll (s : State) : State := (tkeys s.alt.tab).foldl offerAllot s

/-! ### Notices to hosts (R263) -/

/-- Record data of a twin notice (Table 14.8, kind 0x02): allotment, reason, serving unit, DETAIL zero, MGEN, TIME. -/
def twinData (s : State) (id unit reason mgen : Nat) : List Byte :=
  [2#8, 1#8] ++ le id 2 ++ le reason 1 ++ le unit 1 ++ zeros 6 ++ le mgen 8 ++ le (timeStamp s).toNat 8 ++ zeros 52

/-- MGEN of an allotment. -/
def mgenOf (s : State) (id : Nat) : Nat := tgetD s.allotx.mgen id 0

/-- Posts the notice to every host bound to the allotment and to the fabric manager (R263, Table 14.8). -/
def tellHosts (s : State) (id reason : Nat) : State :=
  match allotOf s id with
  | none => s
  | some a =>
    let data := neraeshUuid ++ twinData s id (if a.serving then 0 else 1) reason (mgenOf s id)
    let add := fun (s : State) (k : Nat) => { s with cxl := { s.cxl with mboxes := tmod s.cxl.mboxes k {} (fun m => pushEvent m 1 data) } }
    let s := a.bindings.foldl (fun s b => add s b.issuer.toNat) s
    s.cxl.ports.foldl (fun s p => if p.2.link == 2 && p.2.mode != 0 then add s (0x1000 + p.1) else s) s

/-- An allotment becomes STALE here (R87), and its hosts are told. -/
def makeStale (s : State) (id : Nat) : State :=
  match allotOf s id with
  | some a =>
    if a.st == .ready || a.st == .replanting then tellHosts (setAllot s id { a with st := .stale }) id 5 else s
  | none => s

/-! ### The pair (R269) -/

/-- MIRRORED allotments held here. -/
def mirroredIds (s : State) : List Nat := (s.alt.tab.filter (fun p => p.2.mirrored)).map (·.1)

/-- In step: a session is open and no MIRRORED allotment is STALE on either unit. -/
def inStep (s : State) : Bool :=
  s.exl.session && (mirroredIds s).all (fun id =>
    (match allotOf s id with | some a => a.st != .stale | none => true)
      && (match tget s.exl.peerState id with | some p => p.inStep | none => false))

/-- The service state the present conditions give (Table 1.6). -/
def serviceState (s : State) : DevState :=
  if s.exl.paired && !s.exl.peerHarvest && inStep s && s.alt.tab.all (fun p => p.2.st != .stale) then .serving else .degraded

/-- SERVING falls to DEGRADED, and DEGRADED returns to SERVING, as the pair changes (Table 1.6). -/
def judgeService (s : State) : State :=
  match s.dev.state with
  | .serving => if serviceState s == .serving then s else setDev s .degraded .twinLost
  | .degraded => if serviceState s == .serving then enterService s .serving .twinInStep else s
  | _ => s

/-! ### Ledger positions (R250) -/

/-- Slice of a device line (R250). -/
def sliceOf (l : Nat) : Nat :=
  (bits l 0 6) ^^^ (bits l 6 6) ^^^ (bits l 12 6) ^^^ (bits l 18 6) ^^^ (bits l 24 6) ^^^ (bits l 30 6) ^^^ (bits l 36 2)

/-- A position for a line: the slice's next sequence; a new bound is journaled from half of a block on. -/
def position (s : State) (l : Nat) : State × Nat :=
  let k := sliceOf l
  let n := tgetD s.ldg.seqs k 0 + 1
  let b := tgetD s.ldg.bounds k 1
  let s := if b ≤ n + 2 ^ 39 then
      journal { s with ldg := { s.ldg with bounds := tset s.ldg.bounds k (b + 2 ^ 40) } } 5 k (b + 2 ^ 40)
    else s
  let s := if b ≤ n then programJournal s else s
  ({ s with ldg := { s.ldg with seqs := tset s.ldg.seqs k n } }, n)

/-! ### Merging a write into a line (R83, R93) -/

/-- All 64 byte enables. -/
def allEnabled (en : BitVec 64) : Bool := en == BitVec.allOnes 64

/-- Bytes of `new` where enabled, of `old` elsewhere. -/
def mergeBytes (old new : List Byte) (en : Nat) : List Byte :=
  (List.range 64).map (fun i => if en.testBit i then new.getD i 0#8 else old.getD i 0#8)

/-- A line's content and poison after a write. -/
def mergeLine (v : List Byte × Bool) (data : List Byte) (en : BitVec 64) (pois : Bool) : List Byte × Bool :=
  if pois || (v.2 && !allEnabled en) then (zeros 64, true)
  else (mergeBytes v.1 data en.toNat, false)

/-- Applies a write to DRAM: the line, its CRC entry, a place in the write queue (R113, R133). -/
def applyLine (s : State) (n l : Nat) (data : List Byte) (en : BitVec 64) (pois : Bool) : State :=
  let v := mergeLine (lineBytes s l, poisoned s l || s.mem.ueLines.contains l) data en pois
  enqueue (writeLine s l v.1 v.2) n l true

/-- A positioned write reaches its channel: where its granule's entry is being rebuilt, it waits there (R134). -/
def applyWrite (s : State) (h : HeldWrite) : State :=
  if s.mem.rebuildWaits.contains (lineGran h.line) then { s with ldg := { s.ldg with rebuildW := s.ldg.rebuildW ++ [h] } }
  else applyLine s h.n h.line h.req.data h.req.enables h.req.poison

/-- The writes that waited for rebuilds now over are applied, in order (R134). -/
def releaseRebuilt (s : State) : State :=
  s.ldg.rebuildW.foldl applyWrite { s with ldg := { s.ldg with rebuildW := [] } }

/-- TALLY_REBUILD_DONE (R134): the full read of the granule ends; `ues` are lines it found uncorrectable. -/
def execTallyRebuildDone (c : Nat) (ues : List Nat) (t : Nat) (s : State) : Host.Outcome State Fault Refusal :=
  let s := tick s t
  .next (match (ddr s c).rebuild with
    | none => s
    | some g =>
      let s := internalUes s (ues.filter (fun l => lineGran l == g))
      let s := setCrc s g (granCrcOf s g)
      let s := { s with mem := { s.mem with rebuildWaits := sdel s.mem.rebuildWaits g } }
      let s := setDdr s c { ddr s c with rebuild := s.mem.rebuildWaits.find? (fun h => granChan s h == c) }
      releaseRebuilt (raiseOpen (bump s (regAt rDdrTally c) 0 16 1) (0x045 + 8 * c)))

/-- A region is a mirror region: each of its extents MIRRORED, or free (R238). -/
def mirrorRegion (s : State) (r : Nat) : Bool :=
  (List.range 4).all (fun i => match extentOwner s (4 * r + i) with
    | some id => (match allotOf s id with | some a => a.mirrored | none => true)
    | none => true)

/-- A comparison holds this unit's writes to a region (R260): its tick has passed and it is not captured. -/
def heldByCompare (s : State) (r : Nat) : Bool :=
  s.exl.compares.any (fun c => c.marked && !c.done && c.first ≤ r && r < c.first + c.count && mirrorRegion s r)

/-- A comparison holds the peer's records of sublink `k` to a region: CUT_MARK has arrived there (R260). -/
def twinHeldByCompare (s : State) (k r : Nat) : Bool :=
  s.exl.compares.any (fun c => !c.done && c.first ≤ r && r < c.first + c.count && mirrorRegion s r
    && (tgetD s.exl.subs k {}).marked == some c.epoch && (tgetD s.exl.subs k {}).ahead == 0)

/-- Applies a positioned write, or holds it in the ledger for a comparison. -/
def applyOrHold (s : State) (h : HeldWrite) (hold : Bool) : State :=
  if hold then { s with ldg := { s.ldg with heldW := s.ldg.heldW ++ [h] } }
  else applyWrite s h

/-- A line as a reader sees it: DRAM, overlaid by positioned writes not yet applied (R18, R134, R260). -/
def readLine (s : State) (l : Nat) : List Byte × Bool :=
  let v := (lineBytes s l, poisoned s l || s.mem.ueLines.contains l)
  let v := (s.ldg.rebuildW ++ s.ldg.heldW).foldl (fun v h => if h.line == l then mergeLine v h.req.data h.req.enables h.req.poison else v) v
  s.exl.subs.foldl (fun v p => p.2.waiting.foldl (fun v r =>
    if r.line == l then mergeLine v r.data r.enables r.poison else v) v) v

/-! ### Restore of granules (R183–R192) -/

/-- Aggregate flash read bandwidth in MB/s (Table 1.8). -/
def flashReadBw (s : State) : Nat :=
  (flashChans s).foldl (fun a c =>
    a + min (perChan s * s.ftl.planes * 16384 / s.ftl.readUs) ([1600, 2400, 3200, 3600].getD (tgetD s.ftl.fces c {}).rate 0)) 0

/-- HRV_REPL_RATE and HRV_REPL_FLOOR of the restore that ends (Table 1.8). -/
def replantRates (s : State) : State :=
  let us := s.now - s.hrv.replantAt
  { s with hrv := { s.hrv with rates := (s.hrv.rates.set 2 (if us == 0 then 0 else s.hrv.restored * 16384 / us)).set 3 (flashReadBw s) } }

/-- The restore is complete: the replant flag clears and the service state is entered (Table 1.6, R185). -/
def restoreComplete (s : State) : State :=
  if !s.hrv.replant then s
  else
    let early := cfg s rHrvCfg 30 1 == 1
    let s := replantRates s
    let s := { s with hrv := { s.hrv with replant := false, warm := false, phase := 0, ranges := [], cuts := [] } }
    let s := if s.dev.state == .replanting then enterService s (serviceState s) .restored else s
    if early then s else offerAll s

/-- A granule of `a` still waits for restore or verification. -/
def unrestored (s : State) (a : Allot) : Bool := s.hrv.todo.any (fun g => a.extents.contains (granExtent g))

/-- A granule is restored or verified (R87): its allotment becomes READY with its last one. -/
def granRestored (s : State) (g : Nat) : State :=
  let s := { s with hrv := { s.hrv with todo := sdel s.hrv.todo g } }
  let s := match granAllot s g with
    | none => s
    | some id => match allotOf s id with
      | some a => if a.st == .replanting && !unrestored s a then setAllot s id { a with st := .ready } else s
      | none => s
  if s.hrv.todo.isEmpty && !s.hrv.warm then restoreComplete s else s

/-- Priority fetches running on flash channel `c`. -/
def fetchesOn (s : State) (c : Nat) : Nat := (s.hrv.fetches.filter (fun f => f.running && f.chan == c)).length

/-- A fetch that runs is a cutting of one granule (Table 9.1). -/
def fetchCutting (s : State) (g : Nat) : State := newCutting s 3 (sealSeq s) g 1 .drip true

/-- Starts the fetch of a granule, or waits for one of the 64 places of its flash channel (R186). -/
def startFetch (s : State) (g : Nat) : State :=
  if s.hrv.fetches.any (fun f => f.gran == g) then s
  else
    let c := faChan (mapEnt s g).addr
    let run := decide (fetchesOn s c < 64)
    let s := { s with hrv := { s.hrv with
      fetches := s.hrv.fetches ++ [{ gran := g, chan := c, running := run, since := s.now }],
      fetchCount := s.hrv.fetchCount + 1 } }
    if run then fetchCutting s g else s

/-- An access waits for the fetch of its granule. -/
def waitFetch (s : State) (g : Nat) (h : HeldWrite) : State :=
  { s with hrv := { s.hrv with fetches := s.hrv.fetches.map (fun f =>
      if f.gran == g then { f with waiters := f.waiters ++ [h] } else f) } }

/-- Makes a granule ready for an access: verified after a warm return, written as zeros or poisoned where it has no
copy, or fetched (R183, R186, R192). The Bool says that the access need not wait. -/
def granReady (s : State) (g : Nat) (badCrc : Bool) : State × Bool :=
  if !s.hrv.todo.contains g then (s, true)
  else if s.hrv.fetches.any (fun f => f.gran == g) then (s, false)
  else
    let bad := s.hrv.warm && badCrc
    let s := if bad then raiseOpen s 0x154 else s
    if s.hrv.warm && !bad then (granRestored s g, true)
    else match (mapEnt s g).kind with
      | 0 => (granRestored (zeroGran s g) g, true)
      | 3 => (granRestored (putGran s g [] (List.range 256)) g, true)
      | _ => (startFetch s g, false)

/-- A granule is made ready for a record of the peer: what its verification finds is a free value (R192). -/
def granReadyFree (s : State) (g : Nat) : State × Bool :=
  if s.hrv.warm && s.hrv.todo.contains g && !s.hrv.fetches.any (fun f => f.gran == g) then
    granReady (drew s) g (drawn s % 2 == 1)
  else granReady s g false

/-! ### What a comparison held, and the peer's records (R253, R260) -/

/-- Writes of this unit that no comparison holds any more are applied, in order. -/
def releaseHeld (s : State) : State :=
  let held := fun (h : HeldWrite) => heldByCompare s (lineRegion h.line)
  let go := s.ldg.heldW.filter (fun h => !held h)
  let s := { s with ldg := { s.ldg with heldW := s.ldg.heldW.filter held } }
  go.foldl applyWrite s

/-- The peer's accepted records of sublink `k` are applied in order, as far as a comparison, a restore and this unit's
own gate let them (R253, R254); after a cut the gate no longer holds them (R189). -/
def drainSub (s : State) (k fuel : Nat) : State :=
  match fuel with
  | 0 => s
  | fuel + 1 =>
    match (tgetD s.exl.subs k {}).waiting with
    | [] => s
    | r :: rest =>
      let g := lineGran r.line
      if twinHeldByCompare s k (granRegion g) then s
      else
        let (s, ok) := granReadyFree s g
        if !ok || !(gateAdmits s g || s.ldg.closed) then s
        else
          let s := applyWrite (touchGran s g none) { line := r.line, twin := true,
                                                     req := { data := r.data, enables := r.enables, poison := r.poison } }
          let s := if s.ldg.closed then joinHarvest s g else s
          let s := modSub s k (fun x => { x with waiting := rest, ahead := x.ahead - 1 })
          let s := if s.exl.session && !s.ldg.closed && (tgetD s.exl.subs k {}).given then
              sendMsg (modSub s k (fun x => { x with granted := x.granted + 1 })) k 0x02 [k, 1] else s
          drainSub s k fuel

/-- Every sublink's records. -/
def drainSubs (s : State) : State :=
  (s.exl.subs.map (fun p => (p.1, p.2.waiting.length))).foldl (fun s p => drainSub s p.1 p.2) s

/-- A comparison is abandoned: its regions are NOT_COMPARABLE, and what it held is applied at once (R260). -/
def abandonCompare (s : State) (e : Nat) : State :=
  let s := { s with exl := { s.exl with compares := s.exl.compares.map (fun c =>
    if c.epoch == e && !c.done then
      { c with done := true, cutN := none, result := (List.range c.count).foldl (fun m i =>
          tset m (c.first + i) (if mirrorRegion s (c.first + i) then 2 else 3)) [] }
    else c) } }
  drainSubs (releaseHeld s)

/-- More than 65,536 lines held end a comparison (R260). -/
def judgeHeld (s : State) : State :=
  let n := s.ldg.heldW.length + s.exl.subs.foldl (fun a p => a + p.2.waiting.length) 0
  if 65536 < n then
    match s.exl.compares.find? (fun c => c.marked && !c.done) with
    | some c => abandonCompare s c.epoch
    | none => s
  else s

/-! ### Mirrored records (R250–R254) -/

/-- Mirrored writes carry the twin: the session is open, the peer has granted its first credit, and it has not sent
HARVEST (R252, R255). -/
def mirrorOn (s : State) : Bool :=
  s.exl.session && !s.exl.peerHarvest && !(subsUp s).isEmpty && s.exl.subs.any (fun p => p.2.first)

/-- Records of a slice wait to be sent again on another sublink, or for the peer to say which it accepted (R242). -/
def sliceWaits (s : State) (slice : Nat) : Bool :=
  s.exl.subs.any (fun p => (p.2.st != 6 || p.2.rehome) && p.2.unacc.any (fun r => r.slice == slice))

/-- The sublink of a slice: slice modulo the number UP; it moves only once its records on the old one are accepted
(R250). -/
def subOf (s : State) (slice : Nat) : Nat :=
  let up := subsUp s
  let want := up.getD (slice % up.length) 0
  match tget s.exl.sliceSub slice with
  | some k => if up.contains k && (tgetD s.exl.subs k {}).unacc.any (fun r => r.slice == slice) then k else want
  | none => want

/-- Sends a record on a sublink (R251). -/
def sendRecord (s : State) (k : Nat) (r : MirRec) : State :=
  let x := tgetD s.exl.subs k {}
  let r := { r with serial := x.sent + 1 }
  let s := modSub s k (fun x => { x with sent := x.sent + 1, credit := x.credit - 1, unacc := x.unacc ++ [r] })
  let s := modSub s k (fun x => { x with pSent := if r.p then x.pSent ++ [r.serial] else x.pSent })
  let s := { s with exl := { s.exl with
    txBytes := (s.exl.txBytes + 250) % 2 ^ 64, sliceSub := tset s.exl.sliceSub r.slice k,
    room := if r.p then s.exl.room - 1 else s.exl.room, twinDirty := sins s.exl.twinDirty (lineGran r.line) } }
  sendFlit (emit s (.mirror k r)) k 0x1 (mirBody r)

/-- The twin admits a mirrored write of a line: credit on its sublink, and, but in DEGRADED, room for a P = 1 write (R148,
R252, R254). -/
def twinAdmits (s : State) (l : Nat) : Bool :=
  let k := subOf s (sliceOf l)
  !s.exl.mustRekey && decide (0 < (tgetD s.exl.subs k {}).credit) && !sliceWaits s (sliceOf l)
    && (s.dev.state == .degraded || s.exl.twinDirty.contains (lineGran l) || decide (1 ≤ s.exl.room))

/-! ### Completions (R18, R92, R95, R263) -/

/-- The ingress queue and the requester's share are as full as a request shows (R95). -/
def noteFill (s : State) (r : MemReq) (x : LineIn) : State :=
  { s with cxl := { s.cxl with ports := tmod s.cxl.ports r.port {} (fun p => { p with ingress := x.ingress }) },
           ldg := { s.ldg with share := tset s.ldg.share r.issuer x.share } }

/-- A requester's share of the ledger slices: in multi-logical-device mode, the allocation and the limit that the
fabric-manager API has set scale it (R95, log entry 109). -/
def shareFill (s : State) (port issuer : Nat) : Nat :=
  let p := tgetD s.cxl.ports port {}
  let f := tgetD s.ldg.share issuer 0
  if p.mode != 1 || 0x1000 ≤ issuer || (p.qosAlloc.isEmpty && p.qosLimit.isEmpty) then f
  else Config.qosShare (p.qosAlloc.getD (issuer % 16) 0#8) (p.qosLimit.getD (issuer % 16) 0#8) f

/-- Fill of the DRAM queues of a line's channel, percent of 64 entries: the fullest queue, with what the ledger holds for
it (R95, R115, log entry 109). -/
def dramFill (s : State) (l : Nat) : Nat :=
  let x := ddr s (lineChan s l)
  let n := fun (w : Bool) (sub : Nat) =>
    ((x.rdq ++ x.wrq ++ x.wait).filter (fun q => q.write == w && q.line % 2 == sub)).length
  100 * max (max (n false 0) (n false 1)) (max (n true 0) (n true 1)) / 64

/-- Fill of the Exsor transmit credit of a line's sublink, percent of the first grant (R95, R252). -/
def creditFill (s : State) (l : Nat) : Nat :=
  100 * (8192 - (tgetD s.exl.subs (subOf s (sliceOf l)) {}).credit) / 8192

/-- Occupancy of R95, the highest of the four fills; `line` is none where a request names no line. -/
def occupancy (s : State) (port issuer : Nat) (line : Option Nat) (mirrored : Bool) : Nat :=
  let f := max (tgetD s.cxl.ports port {}).ingress (shareFill s port issuer)
  match line with
  | some l => max f (max (dramFill s l) (if mirrored && mirrorOn s then creditFill s l else 0))
  | none => f

/-- DevLoad of a response (Table 3.6, R145, R148, R186). -/
def devLoad (s : State) (port issuer : Nat) (line : Option Nat) (mirrored : Bool) : Nat :=
  let fill := occupancy s port issuer line mirrored
  let byFill := if fill < 25 then 0 else if fill ≤ 60 then 1 else if fill ≤ 85 then 2 else 3
  let stage := if mirrored && s.dev.state == .serving then max s.drp.stage s.exl.peerStage else s.drp.stage
  let dirtier := match tget s.drp.dirtiers issuer with | some u => decide (s.now ≤ u + 100000) | none => false
  let byStage := if !dirtier then 0 else if stage == 2 then 2 else if 3 ≤ stage then 3 else 0
  let byFetch := if s.hrv.fetches.any (fun f => !f.running && f.waiters.any (fun h => h.req.port == port)) then 3 else 0
  max byFill (max byStage byFetch)

/-- Notes the DevLoad of a response and the requester on a port. -/
def noteLoad (s : State) (port issuer d : Nat) : State :=
  let x := tgetD s.cxl.ports port {}
  let x := if x.devload ≤ d || x.devAt + 1000 < s.now then { x with devload := d, devAt := s.now } else x
  { s with cxl := { s.cxl with ports := tset s.cxl.ports port { x with seen := tset x.seen issuer s.now } } }

/-- A GPF phase 2 that waits answers once every write it covers has left (R92). -/
def judgeGpf (s : State) (port : Nat) : State :=
  let x := tgetD s.cxl.ports port {}
  if x.gpf && x.gpfSet.isEmpty then
    emit { s with cxl := { s.cxl with ports := tset s.cxl.ports port { x with gpf := false } } } (.gpf port 2)
  else s

/-- Write `n` of a port is completed or discarded: a GPF that waits for it goes on. -/
def writeLeft (s : State) (port n : Nat) : State :=
  judgeGpf { s with cxl := { s.cxl with ports := s.cxl.ports.map (fun p =>
    if p.1 == port then (p.1, { p.2 with gpfSet := sdel p.2.gpfSet n }) else p) } } port

/-- A port's link carries a response: it is up, and after a cut the time to take the links down has not passed (R168). -/
def linkCarries (s : State) (port : Nat) : Bool :=
  (tgetD s.cxl.ports port {}).link == 2 && !(s.ldg.closed && s.hrv.downBy < s.now)

/-- Sends the completion of a write while its port's link carries it; its port and requester are noted. -/
def completeWrite (s : State) (n port issuer line : Nat) (mirrored : Bool) : State :=
  let d := devLoad s port issuer (some line) mirrored
  let s := noteLoad s port issuer d
  let s := if linkCarries s port then emit s (.memDone n port issuer d) else s
  writeLeft s port n

/-- Completes every mirrored write whose conditions are met, oldest first (R18). -/
def completeReady (s : State) : State :=
  let ok := fun (w : MirWrite) => w.accepted && !w.fetching && !w.withheld
  let go := s.exl.withheld.filter ok
  let s := { s with exl := { s.exl with withheld := s.exl.withheld.filter (fun w => !ok w) } }
  go.foldl (fun s w => completeWrite s w.n w.port w.issuer w.line true) s

/-- A request that cannot be served: counted, and answered with poison or discarded (R82). -/
def dropRequest (s : State) (port issuer reason : Nat) (read : Bool) : State :=
  let s := cxlDrop s port reason
  let d := devLoad s port issuer none false
  if read && reason != 1 then emit s (.memPoison port issuer d) else emit s (.memDrop port issuer reason)

end Sys2Proof.Machine
end

