-- ==== Sys2Proof/Machine/Cxl.lean ====
section
/-! DEFINITION. The CXL.mem path: reads and writes of hosts, held writes, global persistent flush, IDE failures, and the
ports' links (chapter 3). -/

namespace Sys2Proof.Machine

open Sys2Proof

/-- Port `n`. -/
def port (s : State) (n : Nat) : Port := tgetD s.cxl.ports n {}

/-- Sets port `n`. -/
def setPort (s : State) (n : Nat) (x : Port) : State := { s with cxl := { s.cxl with ports := tset s.cxl.ports n x } }

/-- HOLD_MAX_US of a port, clamped. -/
def holdMax (s : State) (n : Nat) : Nat := clamp 100 50000 (cfg s (regAt rCxlQos n) 0 16)

/-! ### Requests that cannot be served (R82, Table 3.3) -/

/-- An address lies in a window that a forced removal withdrew from this host (R80). -/
def wasWithdrawn (s : State) (r : MemReq) : Bool :=
  s.alt.withdrawn.any (fun w => w.1 == r.issuer && w.2.1 ≤ r.dpa && r.dpa < w.2.1 + w.2.2)

/-- Identity of a requester on a port (Table 3.2): the port's host, the port's logical device, or the routing ID. -/
def hostOf (s : State) (r : MemReq) : MemReq :=
  { r with issuer := match (port s r.port).mode with
    | 0 => 16 * r.port
    | 1 => 16 * r.port + r.issuer % 16
    | _ => r.issuer % 4096 }

/-- The reason a request cannot be served, or the line it names. A read ignores case 0x03. -/
def classify (s : State) (r : MemReq) (read : Bool) : Except Nat (Nat × Allot) :=
  if (port s r.port).ide == 2 then .error 1
  else match resolve s r.issuer r.dpa with
    | none => .error (if wasWithdrawn s r then 6 else 2)
    | some (_, a, b, l) =>
      if a.st == .deleting then .error 6
      else if a.st == .stale then .error 4
      else if !a.serving then .error 2
      else if !read && !b.rw then .error 3
      else .ok (l, a)

/-! ### Reads (R18, R83, R93) -/

/-- Answers a read with the line as of one ledger position; a poisoned, uncorrectable or lost line answers poison. -/
def answerRead (s : State) (h : HeldWrite) : State :=
  let v := readLine s h.line
  let a := (granAllot s (lineGran h.line)).bind (allotOf s)
  let lost := match a with | some a => a.lost.contains (lineRegion h.line) | none => false
  let d := devLoad s h.req.port h.req.issuer (some h.line) (match a with | some a => a.mirrored | none => false)
  let s := noteLoad { s with ist := { s.ist with secRd := s.ist.secRd + 64 } } h.req.port h.req.issuer d
  if h.gone || !linkCarries s h.req.port then s
  else if v.2 || lost then emit s (.memPoison h.req.port h.req.issuer d)
  else emit s (.memData h.req.port h.req.issuer v.1 d)

/-- The next number of a host request. -/
def numbered (s : State) : State := { s with drp := { s.drp with nextWrite := s.drp.nextWrite + 1 } }

/-- What the DRAM read of a line finds: a corrected error, or an uncorrectable one (R127, R128). -/
def lineFound (s : State) (l : Nat) (x : LineIn) : State :=
  let s := match x.ce with | some d => corrected s l d | none => s
  if x.ue then noteUe s l else s

/-- What the old-line read of a write finds (R133): an uncorrectable line is counted as the write is made over it (R134). -/
def oldLineFound (s : State) (l : Nat) (x : LineIn) : State :=
  let s := match x.ce with | some d => corrected s l d | none => s
  if x.ue && !poisoned s l then { s with mem := { s.mem with ueLines := sins s.mem.ueLines l } } else s

/-- A rehearsal during whose phases 0 to 4 a CXL.mem request comes is not quiet (R313). -/
def noteRequest (s : State) : State :=
  match s.gau.reh with
  | some r => if r.phase < 5 then { s with gau := { s.gau with reh := some { r with quiet := false } } } else s
  | none => s

/-- A read of a granule that is ready: it takes its place in the read queue and is answered. -/
def readServed (s : State) (h : HeldWrite) : State := answerRead (enqueue (lineFound s h.line h.x) h.n h.line false) h

/-- Serves a read: at once, or after the fetch of its granule (R186). -/
def serveRead (s : State) (r : MemReq) (x : LineIn) : State :=
  match classify s r true with
  | .error k => dropRequest s r.port r.issuer k true
  | .ok (l, _) =>
    let h : HeldWrite := { n := s.drp.nextWrite, req := r, since := s.now, read := true, line := l, x := x }
    let (s, ok) := granReady (numbered s) (lineGran l) x.badCrc
    if ok then readServed s h
    else waitFetch s (lineGran l) h

/-- Writes held on a port. -/
def heldOn (s : State) (n : Nat) : Nat := (s.drp.held.filter (fun h => h.req.port == n)).length

/-- Link credit not returned (R96): a request that came on port `p` while a write is held there keeps its credit; each
held write that has left since `b` returns one, the last returns all. -/
def creditKept (b s : State) (p : Option Nat) : State :=
  { s with cxl := { s.cxl with ports := s.cxl.ports.map (fun q => (q.1, { q.2 with
      credit := if heldOn s q.1 == 0 then 0 else q.2.credit + b2n (p == some q.1) - (heldOn b q.1 - heldOn s q.1) })) } }

/-- CXL_MEM_READ (R18, R82, R86): a host read on a port whose link is up. -/
def execCxlMemRead (r : MemReq) (x : LineIn) (t : Nat) (s : State) : Host.Outcome State Fault Refusal :=
  let s := tick s t
  let r := hostOf s r
  .next (if (port s r.port).link != 2 || s.ldg.closed then s
    else creditKept s (serveRead (noteRequest (noteFill s r x)) r x) (some r.port))

/-! ### Writes (R18, R83, R90, R96) -/

/-- A write waits at the port, at the exposure gate or for something else. -/
def holdWrite (s : State) (h : HeldWrite) : State :=
  { s with drp := { s.drp with held := s.drp.held ++ [h], heldSeen := s.drp.heldSeen || h.gate } }

/-- What follows once a write is applied or held by a comparison: its completion, where it is due. -/
def writeApplied (s : State) (h : HeldWrite) : State :=
  if s.exl.withheld.any (fun w => w.n == h.n) then
    completeReady { s with exl := { s.exl with withheld := s.exl.withheld.map (fun w =>
      if w.n == h.n then { w with fetching := false } else w) } }
  else if h.gone then s
  else completeWrite s h.n h.req.port h.req.issuer h.line false

/-- A write that the gates admit takes its ledger position; it is mirrored, as poisoned where the line is then poisoned (R93),
applied where its granule is ready, and completed when its conditions are met. -/
def placeWrite (s : State) (h : HeldWrite) (id : Nat) (a : Allot) : State :=
  let g := lineGran h.line
  let (s, seq) := position s h.line
  let mirror := a.mirrored && mirrorOn s
  let p := !s.exl.twinDirty.contains g
  let s := judgeExcess (touchGran s g (some h.req.issuer))
  let s := { s with ist := { s.ist with secWr := s.ist.secWr + 64 } }
  let slice := sliceOf h.line
  let k := subOf s slice
  let (s, ok) := granReady s g h.x.badCrc
  let s := if ok then oldLineFound s h.line h.x else s
  let pois := if ok then (mergeLine (readLine s h.line) h.req.data h.req.enables h.req.poison).2 else h.req.poison
  let s := if mirror then sendRecord s k { line := h.line, data := h.req.data, enables := h.req.enables, poison := pois,
                                           p := p, slice := slice, seq := seq } else s
  let sent := if mirror then some (k, (tgetD s.exl.subs k {}).sent) else none
  let w : MirWrite := { n := h.n, port := h.req.port, issuer := h.req.issuer, allot := id, sent := sent, accepted := !mirror,
                        fetching := !ok, withheld := s.exl.withholding, line := h.line }
  let s := if a.mirrored && !h.gone then { s with exl := { s.exl with withheld := s.exl.withheld ++ [w] } } else s
  if ok then writeApplied (judgeHeld (applyOrHold s h (heldByCompare s (lineRegion h.line)))) h
  else waitFetch s g h

/-- A write tries to pass: refused, held behind an older held write of its requester to its line, held by a gate, or
placed (R82, R96, R144, R254). -/
def tryWrite (s : State) (h : HeldWrite) : State :=
  match classify s h.req false with
  | .error k => writeLeft (dropRequest s h.req.port h.req.issuer k false) h.req.port h.n
  | .ok (l, a) =>
    let behind := s.drp.held.any (fun k => k.line == l && k.req.issuer == h.req.issuer)
    if !gateAdmits s (lineGran l) then holdWrite s { h with line := l, gate := true }
    else if behind || (a.mirrored && mirrorOn s && !twinAdmits s l) then holdWrite s { h with line := l, gate := false }
    else placeWrite s { h with line := l, gate := false } ((granAllot s (lineGran l)).getD 0) a

/-- CXL_MEM_WRITE (R18, R82, R90, R96): a host write on a port whose link is up. -/
def execCxlMemWrite (r : MemReq) (x : LineIn) (t : Nat) (s : State) : Host.Outcome State Fault Refusal :=
  let s := tick s t
  let r := hostOf s r
  .next (if (port s r.port).link != 2 || s.ldg.closed then s
    else creditKept s (tryWrite (numbered (noteRequest (noteFill s r x))) { n := s.drp.nextWrite, req := r, since := s.now, x := x })
      (some r.port))

/-- Held writes try again, in arrival order, after something that may admit them. -/
def retryHeld (s : State) : State :=
  creditKept s (s.drp.held.foldl tryWrite { s with drp := { s.drp with held := [] } }) none

/-- HELD_WRITE_DISCARD (R96): held write `n` has waited HOLD_MAX_US; it is discarded with those behind it. -/
def execHeldWriteDiscard (n t : Nat) (s : State) : Host.Outcome State Fault Refusal :=
  let s := tick s t
  .next (match s.drp.held.find? (fun h => h.n == n) with
    | none => s
    | some h =>
      if s.now < h.since + holdMax s h.req.port then s
      else
        let gone := fun (k : HeldWrite) => h.n ≤ k.n && k.line == h.line && k.req.issuer == h.req.issuer
        let go := s.drp.held.filter gone
        let b := s
        let s := { s with drp := { s.drp with held := s.drp.held.filter (fun k => !gone k) } }
        creditKept b (go.foldl (fun s k => writeLeft (dropRequest s k.req.port k.req.issuer 5 false) k.req.port k.n) s) none)

/-! ### Global persistent flush (R92) -/

/-- Numbers of the writes of a port that are neither completed nor discarded. -/
def openWrites (s : State) (n : Nat) : List Nat :=
  (s.drp.held.filter (fun h => h.req.port == n)).map (·.n)
    ++ s.hrv.fetches.flatMap (fun f => (f.waiters.filter (fun h => !h.read && !h.gone && h.req.port == n)).map (·.n))
    ++ (s.exl.withheld.filter (fun w => w.port == n)).map (·.n)

/-- GPF_PHASE1 (R92): answered at once. -/
def execGpfPhase1 (n t : Nat) (s : State) : Host.Outcome State Fault Refusal :=
  let s := tick s t
  .next (if (port s n).link == 2 && !s.ldg.closed then emit s (.gpf n 1) else s)

/-- GPF_PHASE2 (R92): answered when every write received on the port before it is completed or discarded. -/
def execGpfPhase2 (n t : Nat) (s : State) : Host.Outcome State Fault Refusal :=
  let s := tick s t
  .next (if (port s n).link == 2 && !s.ldg.closed then
      judgeGpf (setPort s n { port s n with gpf := true, gpfSet := openWrites s n, gpfAt := s.now }) n else s)

/-- The phase-2 duration that the GPF DVSEC reports, µs (R92). -/
def gpfDuration (s : State) (n : Nat) : Nat := holdMax s n + 20

/-- The completions of positioned writes that satisfy `p` are never sent; their effect stays (R91, R92). -/
def neverComplete (s : State) (p : Nat → Nat → Bool) : State :=
  { s with
    hrv := { s.hrv with fetches := s.hrv.fetches.map (fun f =>
      { f with waiters := f.waiters.map (fun h => if p h.req.port h.n then { h with gone := true } else h) }) },
    exl := { s.exl with withheld := s.exl.withheld.filter (fun w => !p w.port w.n) } }

/-- GPF_DEADLINE (R92): the reported duration has passed since phase 2; writes of the flush still uncompleted are discarded under reason 0x07, those with a ledger
position keeping their effect; the flush answers. -/
def execGpfDeadline (n t : Nat) (s : State) : Host.Outcome State Fault Refusal :=
  let s := tick s t
  .next (if !(port s n).gpf || s.now < (port s n).gpfAt + gpfDuration s n then s
    else
      let set := (port s n).gpfSet
      let out := fun (q k : Nat) => q == n && set.contains k
      let waits := s.hrv.fetches.flatMap (fun f => (f.waiters.filter (fun h => out h.req.port h.n)).map (fun h => (h.n, h.req.issuer)))
        ++ (s.exl.withheld.filter (fun w => out w.port w.n)).map (fun w => (w.n, w.issuer))
      let go := (s.drp.held.filter (fun h => out h.req.port h.n)).map (fun h => (h.n, h.req.issuer))
        ++ waits.foldl (fun l w => if l.any (fun v => v.1 == w.1) then l else l ++ [w]) []
      let b := s
      let s := neverComplete { s with drp := { s.drp with held := s.drp.held.filter (fun h => !out h.req.port h.n) } } out
      let s := go.foldl (fun s w => dropRequest s n w.2 7 false) s
      retryHeld (judgeGpf (setPort (creditKept b s none) n { port (creditKept b s none) n with gpfSet := [] }) n))

/-! ### IDE (R99) -/

/-- IDE_INTEGRITY_FAILURE (R99): every request of the flit is discarded, issuer and whether a read each; the stream is
insecure until IDE_KM sets up new keys. -/
def execIdeIntegrityFailure (n : Nat) (reqs : List (Nat × Bool)) (t : Nat) (s : State) : Host.Outcome State Fault Refusal :=
  let s := tick s t
  .next (if (port s n).link != 2 || (port s n).ide == 0 then s
    else
      let s := setPort s n { port s n with ide := 2, ideKeys := { (port s n).ideKeys with programmed := [], running := false } }
      let s := reqs.foldl (fun s r => dropRequest s n r.1 1 r.2) s
      raiseOpen s (0x021 + 2 * n))

/-! ### Links (R70–R73, R79, R91, R439) -/

/-- MODE and WIDTH of CXLn_CFG; the reserved code 3 acts as 0 (log entry 48). -/
def cfgCode (s : State) (n lo : Nat) : Nat := cfg s (regAt rCxlCfg n) lo 2 % 3

/-- The mode that port `n`'s is compared with (R71, R72): CXL0's in force while its link is up, else the one it will train
in. -/
def modeOfAll (s : State) : Nat := if (port s 0).link == 2 then (port s 0).mode else cfgCode s 0 26

/-- CXL_LINK_UP (R69–R72, R79): training ends on port `n`; `width` is the widest width the lanes train at (0 x16, 1 x8,
2 x4, 3 none), `speed` the partner's limit (0 64 GT/s, 1 32 GT/s, above: lower than that, which does not link), `flit`
whether it has 256-byte flits. A port refused for its mode, its width, its speed or want of flits stays in training, LINK 1
(log entry 110). Bindings are offered what they have not been offered since the start. -/
def execCxlLinkUp (n width speed : Nat) (flit : Bool) (t : Nat) (s : State) : Host.Outcome State Fault Refusal :=
  let s := tick s t
  let x := port s n
  .next (if nPorts s ≤ n || !s.pin.padOn || !logicOn s || s.dev.state == .harvesting || x.perst || x.link == 2 then s
    else if cfg s (regAt rCxlCfg n) 31 1 == 0 then setPort s n { x with link := 3 }
    else if n != 0 && cfgCode s n 26 != modeOfAll s then setPort s n { x with link := 1, err := 1 }
    else if !flit then setPort s n { x with link := 1, err := 3 }
    else if 1 < speed then setPort s n { x with link := 1, err := 0 }
    else
      let w := max (cfgCode s n 24) width
      if 2 < w then setPort s n { x with link := 1, err := 2 }
      else
        let mode := cfgCode s n 26
        let first := !(mode == 2 && s.cxl.ports.any (fun p => p.2.link == 2))
        let s := setPort s n { x with link := 2, err := 0, mode := mode, width := w, speed := min 1 (max speed (cfg s (regAt rCxlCfg n) 23 1)) }
        let hosts : List Nat := match mode with
          | 0 => [16 * n]
          | 1 => (0x1000 + n) :: (List.range 16).map (fun i => 16 * n + i)
          | _ => (0x1000 + n) :: s.alt.tab.flatMap (fun p => p.2.bindings.map (fun b => b.issuer.toNat))
        let s := { s with cxl := { s.cxl with mboxes := hosts.foldl (fun m k => tmod m k {} (fun x => x)) s.cxl.mboxes } }
        let mine := fun (b : Binding) => (mode == 2 && first) || (mode != 2 && b.issuer.toNat / 16 == n)
        s.alt.tab.foldl (fun s p => p.2.bindings.foldl (fun s b => if mine b then offerRest s p.1 b.issuer else s) s) s)

/-- The link of a port goes down: what holds no ledger position is gone, what holds one is applied and never completed
(R91); after a cut the last one fixes LINKDOWN_NS. An insecure IDE stream stays insecure until IDE_KM sets up new keys (R99). -/
def linkFalls (s : State) (n : Nat) : State :=
  if (port s n).link != 2 then s
  else
    let s := neverComplete s (fun q _ => q == n)
    let s := { s with
      drp := { s.drp with held := s.drp.held.filter (fun h => h.req.port != n) },
      hrv := { s.hrv with fetches := s.hrv.fetches.map (fun f =>
        { f with waiters := f.waiters.filter (fun h => !(h.read && h.req.port == n)) }) } }
    let s := setPort s n { port s n with link := if cfg s (regAt rCxlCfg n) 31 1 == 1 then 1 else 3, ide := if (port s n).ide == 2 then 2 else 0,
                                         spdm := {}, ideKeys := {}, gpf := false, gpfSet := [], credit := 0 }
    let s := if s.ldg.closed then
        { s with hrv := { s.hrv with linkDownNs := max s.hrv.cutNs (min 40000 (1000 * (s.now - s.dev.stateAt))) } } else s
    emit s (.linkDown n)

/-- CXL_LINK_DOWN (R91). -/
def execCxlLinkDown (n t : Nat) (s : State) : Host.Outcome State Fault Refusal :=
  let s := tick s t
  .next (linkFalls s n)

/-- PERST_N (R439): low holds the port's link down and in training; it changes nothing else of the Skeuf. -/
def execPerstN (n : Nat) (low : Bool) (t : Nat) (s : State) : Host.Outcome State Fault Refusal :=
  let s := tick s t
  .next (if nPorts s ≤ n || !s.pin.padOn then s
    else if low then setPort (linkFalls s n) n { port (linkFalls s n) n with perst := true }
    else setPort s n { port s n with perst := false })

/-! ### Registers -/

/-- CXL registers of port `i` whose value the state's own fields give (chapter 3). -/
def viewCxl (s : State) (c i : Nat) : Option Nat :=
  let x := port s i
  if c == rCxlStatus then
    some (fld x.link 30 2 + fld x.err 24 6 + fld x.width 22 2 + fld x.speed 21 1 + fld x.ide 19 2
      + fld (if s.now ≤ x.devAt + 1000 then x.devload else 0) 17 2
      + fld (min 4096 (x.seen.filter (fun p => s.now ≤ p.2 + 1000000)).length) 0 13)
  else none

end Sys2Proof.Machine
end

