-- ==== Sys2Proof/Machine/Replant.lean ====
section
/-! DEFINITION. Restoring granules after a start, drip commits, flushes, full-image saves and the replant order
(chapters 5 and 6). -/

namespace Sys2Proof.Machine

open Sys2Proof

/-! ### A granule is restored (R183, R186, R188, R192) -/

/-- A block whose copy failed a restore retires once no granule on it still awaits restore (R188, R231). -/
def condemn (s : State) (b : Nat) (now : Bool) : State :=
  if !(now || (block s b).retireWait) then s
  else if s.hrv.todo.any (fun g => hasCopy (mapEnt s g) && blkKey (mapEnt s g).addr == b) then
    setBlock s b { block s b with retireWait := true, cleared := true }
  else retireBlock s b

/-- HRV_RESTORE_UE: the region has a reported uncorrectable error (R188, R28). -/
def restoreUe (s : State) (g : Nat) : State :=
  raise { s with mem := { s.mem with ueRegions := sins s.mem.ueRegions (granRegion g) } } 0x152 g

/-- Restores a granule from its copy, as its flash read ended: failed codewords poison 64 lines each, a mismatch that has
no codeword poisons all 256 (R188). A copy under an older key generation counts as none (R207). -/
def restoreGran (s : State) (g : Nat) (r : FlashRead) : State :=
  let e := mapEnt s g
  let p := tgetD s.ftl.pages e.addr {}
  let s := { s with hrv := { s.hrv with restored := s.hrv.restored + 1 } }
  if e.kind == 0 || (hasCopy e && oldGen s p) then granRestored (zeroGran s g) g
  else if e.kind == 3 then granRestored (putGran s g [] (List.range 256)) g
  else
    let x := readAt s e.addr r
    let bad := readFailed x
    let s := countRead s e.addr r.effort x
    let s := putGran s g (if x.whole then [] else p.cells) (if bad then sunion p.poison (readPoison x) else p.poison)
    let s := if bad then restoreUe s g else s
    let s := { s with hrv := { s.hrv with todo := sdel s.hrv.todo g } }
    granRestored (condemn s (blkKey e.addr) bad) g

/-- A granule whose cutting failed on three tines is restored as poisoned (Table 9.1). -/
def restorePoisoned (s : State) (g : Nat) : State :=
  if !s.hrv.todo.contains g then s else granRestored (restoreUe (putGran s g [] (List.range 256)) g) g

/-- The accesses that waited for a granule are served in arrival order (R186). -/
def serveWaiters (s : State) (l : List HeldWrite) : State :=
  l.foldl (fun s h =>
    if h.read then readServed s h
    else
      let s := oldLineFound s h.line h.x
      writeApplied (judgeHeld (applyOrHold s h (heldByCompare s (lineRegion h.line)))) h) s

/-- A waiting fetch of channel `c` takes the free place. -/
def nextFetch (s : State) (c : Nat) : State :=
  match s.hrv.fetches.find? (fun f => !f.running && f.chan == c) with
  | some f =>
    let s := { s with hrv := { s.hrv with fetches := s.hrv.fetches.map (fun k =>
      if k.gran == f.gran then { k with running := true } else k) } }
    if s.ldg.closed then s else fetchCutting s f.gran
  | none => s

/-- A fetch leaves: a waiting one takes its place, what waited for it is served, and the peer's records go on. -/
def fetchEnds (s : State) (f : Fetch) : State :=
  let s := { s with hrv := { s.hrv with
    fetches := s.hrv.fetches.filter (fun k => k.gran != f.gran), fetchMax := max s.hrv.fetchMax (s.now - f.since) } }
  let s := serveWaiters (nextFetch s f.chan) f.waiters
  let s := if s.ldg.closed && (tget s.drp.gran f.gran).isSome then joinHarvest s f.gran else s
  harvestAdvance (drainSubs s)

/-- PRIORITY_FETCH_DONE (R186, R188, R189): the fetch of granule `g`, whose cutting has run, ends as `r` says. -/
def execPriorityFetchDone (g : Nat) (r : FlashRead) (t : Nat) (s : State) : Host.Outcome State Fault Refusal :=
  let s := tick s t
  .next (match s.hrv.fetches.find? (fun f => f.gran == g && f.running) with
    | none => s
    | some f => if cuttingOut s (fun c => c.typ == 3 && c.b == g && c.c == 1) then s else fetchEnds (restoreGran s g r) f)

/-! ### Background restore (R187, R192) -/

/-- Host granules of an allotment's extents, by index within it. -/
def allotGrans (a : Allot) (first count : Nat) : List Nat :=
  (List.range count).map (fun i =>
    let k := first + i
    a.extents.getD (k / 16384) 0 * 16384 + k % 16384)

/-- Standing rank of an allotment: 128 unlisted. -/
def replantRank (s : State) (id : Nat) : Nat := tgetD s.hrv.order id 128

/-- Allotments in ascending rank, equal ranks in ascending ID. -/
def rankedAllots (s : State) : List Nat :=
  (List.range 256).flatMap (fun r => (tkeys s.alt.tab).filter (fun id => replantRank s id == r))

/-- Granules still to restore, in the order of R187. -/
def replantOrder (s : State) : List Nat :=
  let first := s.hrv.ranges.flatMap (fun x =>
    match allotOf s x.1 with | some a => allotGrans a x.2.1 x.2.2 | none => [])
  let first := (first.filter (fun g => s.hrv.todo.contains g)).foldl (fun l g => if l.contains g then l else l ++ [g]) []
  let rest := (rankedAllots s).flatMap (fun id =>
    match allotOf s id with
    | some a => s.hrv.todo.filter (fun g => a.extents.contains (granExtent g) && !first.contains g)
    | none => [])
  first ++ rest

/-- One granule of a verification cutting: trusted, or restored from flash where its CRC does not match (R192). -/
def verifyGran (s : State) (g : Nat) (mism : List Nat) : State :=
  if s.hrv.fetches.any (fun f => f.gran == g) then s else (granReady s g (mism.contains g)).1

/-- Granules of a cutting of the background restore: 64, of the verification 1 (Table 9.1). -/
def replantUnit (s : State) : Nat := if s.hrv.warm then 1 else 64

/-- Issues up to `n` cuttings over the granules listed. -/
def issueReplant (s : State) (gs : List Nat) (n : Nat) : State :=
  match n with
  | 0 => s
  | n + 1 =>
    match gs.take (replantUnit s) with
    | [] => s
    | g :: l =>
      let s := { s with hrv := { s.hrv with cuts := s.hrv.cuts ++ [(s.tin.nextN, g :: l)] } }
      issueReplant (newCutting s 3 (sealSeq s) g (l.length + 1) .drip s.hrv.warm) (gs.drop (replantUnit s)) n

/-- The replant sequencer keeps its cuttings outstanding, one for each tine that a harvest may run (R187; log entry 120). -/
def replantWork (s : State) : State :=
  if !s.hrv.replant || !serving s || s.ldg.closed || stripeDepth s ≤ s.hrv.cuts.length then s
  else
    let out := s.hrv.cuts.flatMap (·.2)
    issueReplant s ((replantOrder s).filter (fun g => !out.contains g && !s.hrv.fetches.any (fun f => f.gran == g)))
      (stripeDepth s - s.hrv.cuts.length)

/-- A priority fetch runs or waits on a flash channel that holds a copy of the granules: it goes first (R186). -/
def behindFetch (s : State) (gs : List Nat) : Bool :=
  s.hrv.fetches.any (fun f => gs.any (fun g => hasCopy (mapEnt s g) && faChan (mapEnt s g).addr == f.chan))

/-- REPLANT_STRIPE_DONE (R187, R188, R192): the `k`-th outstanding cutting, in the order issued, ends once it has run and no
priority fetch holds a flash channel of it. `bad` gives the reads that did not end at once, by granule; `mism` the granules of
a verification whose CRC does not match. -/
def execReplantStripeDone (k : Nat) (bad : List (Nat × FlashRead)) (mism : List Nat) (t : Nat) (s : State) :
    Host.Outcome State Fault Refusal :=
  let s := tick s t
  .next (match s.hrv.cuts[k]? with
    | none => s
    | some (n, gs) =>
      if !s.hrv.replant || !serving s || cuttingOut s (fun c => c.n == n) || (!s.hrv.warm && behindFetch s gs) then s
      else
        let s := { s with hrv := { s.hrv with cuts := s.hrv.cuts.filter (fun p => p.1 != n) } }
        let gs := gs.filter s.hrv.todo.contains
        replantWork (if s.hrv.warm then gs.foldl (fun s g => verifyGran s g mism) s
          else drainSubs (gs.foldl (fun s g =>
            if s.hrv.fetches.any (fun f => f.gran == g) then s
            else restoreGran s g (((bad.find? (fun p => p.1 == g)).map (·.2)).getD {})) s)))

/-- WARM_VERIFY_END (R192): every granule is verified; the partials that `chans` hold and that differ are replaced, with
DDR_TALLY_REBUILD, and the restore is complete. -/
def execWarmVerifyEnd (chans : List Nat) (t : Nat) (s : State) : Host.Outcome State Fault Refusal :=
  let s := tick s t
  .next (if !s.hrv.warm || !s.hrv.replant || !s.hrv.todo.isEmpty then s
    else
      let s := chans.foldl (fun s c => if (popChannels s).contains c then raiseOpen s (0x045 + 8 * c) else s) s
      restoreComplete s)

/-! ### Drip commits, flushes and saves (R160, R194, R198, R219, R254) -/

/-- Status and result with which a flush ends (R160, R257). -/
def endFlush (s : State) (f : InFlight) (j : FlushJob) (status : Nat) : State :=
  finish s f.id { tag := f.cmd.tag, op := f.cmd.op, status := status, cls := 0,
                  result := le j.done 4 ++ le j.clean 4 ++ le j.pois 4 ++ le ((s.now - f.since) / 1000) 4 }

/-- The worse of two statuses: OK, then DEGRADED, then any other (R257). -/
def worse (a b : Nat) : Nat := if a == 0 then b else if b == 0 then a else if a == 0x0A then b else a

/-- Granules that are CLEAN now count as flushed: zeroed or removed extents leave no work. -/
def flushTrim (s : State) (j : FlushJob) : FlushJob :=
  let left := j.left.filter (fun g => (tget s.drp.gran g).isSome)
  { j with left := left, done := j.done + (j.left.length - left.length) }

/-- Flushes that have nothing left end: a command with its result, the peer's FLUSH with FLUSHED. -/
def judgeFlushes (s : State) : State :=
  let s := s.trl.flight.foldl (fun s f => match f.phase == 1, f.job with
    | true, .flush j =>
      let j := flushTrim s j
      if j.left.isEmpty && !j.twin then endFlush s f j (worse (if j.alone then 0x0A else 0) j.peer) else setJob s f.id (.flush j)
    | _, _ => s) s
  let fl := s.exl.flushes.map (fun p => (p.1, flushTrim s p.2))
  let s := { s with exl := { s.exl with flushes := fl.filter (fun p => !p.2.left.isEmpty) } }
  (fl.filter (fun p => p.2.left.isEmpty)).foldl (fun s p => sendLow s 0x14 [p.1, 0]) s

/-- A full-image save that has copied every granule ends; its command ends with the counts (R194, R198). One that runs for
an orderly off stands until the seal. -/
def judgeSave (s : State) : State :=
  match s.hrv.save with
  | none => s
  | some v =>
    if !v.left.isEmpty || !v.out.isEmpty then s
    else
      let s := (jobs s (fun j => j == .fullSave)).foldl (fun s f =>
        endOk s f.id (le v.copied 4 ++ le v.zero 4 ++ le v.poisoned 4 ++ le ((s.now - f.since) / 1000) 4)) s
      if v.forOff then s else { s with hrv := { s.hrv with save := none } }

/-- DRIP_COMMIT (R219, R254): the copy of granule `g` commits. Room it makes admits held writes and the peer's records;
the peer is told of a MIRRORED granule made CLEAN; flushes and saves go on. -/
def execDripCommit (g t : Nat) (s : State) : Host.Outcome State Fault Refusal :=
  let s := tick s t
  .next (if s.ldg.closed then s
    else match committable s g with
    | none => s
    | some p =>
      let was := (tget s.drp.gran g).isSome
      let s := commitDrip s p
      let mirrored := match (granAllot s g).bind (allotOf s) with | some a => a.mirrored | none => false
      let s := if was && (tget s.drp.gran g).isNone && mirrored && s.exl.session then sendLow s 0x04 [1, g] else s
      let s := judgeSave (judgeFlushes (saveWork (flushWork s)))
      feed (drainSubs (retryHeld s)))

/-- Host granules of `[off, off + len)` bytes of an allotment. -/
def rangeGrans (a : Allot) (off len : Nat) : List Nat :=
  let first := off / 16384
  allotGrans a first ((off + len + 16383) / 16384 - first)

/-- A flush of granules, as admitted now. -/
def newFlush (s : State) (gs : List Nat) : FlushJob :=
  let dirty := (gs.filter (fun g => (tget s.drp.gran g).isSome)).foldl sins []
  { left := dirty, clean := gs.length - dirty.length, first := s.tin.nextN }

/-- Runs of consecutive host granules, as FLUSH names them. -/
def granRuns : List Nat → List (Nat × Nat)
  | [] => []
  | g :: l => match granRuns l with
    | (h, n) :: r => if h == g + 1 then (g, n + 1) :: r else (g, 1) :: (h, n) :: r
    | [] => [(g, 1)]

/-- FLUSH_RANGE (R160, R257). The in-flight number is the FLUSH tag; a range that is no single run of host granules goes
to the peer as one FLUSH for each run (log entry 50). -/
def cmdFlushRange (f : InFlight) (s : State) : State :=
  let c := f.cmd
  let off := pNum c 24 8
  let len := pNum c 32 8
  let ms := pNum c 44 4
  match allotBad s c.allot, allotOf s c.allot with
  | some (st, d), _ => endWith s f.id st d
  | none, none => badParam s f.id 8
  | none, some a =>
    let size := 2 ^ 28 * a.extents.length
    if size ≤ off then badParam s f.id 24
    else if len == 0 || size < off + len then badParam s f.id 32
    else if 1 < pByte c 40 then badParam s f.id 40
    else if 600000 < ms then badParam s f.id 44
    else
      let gs := rangeGrans a off len
      let both := pByte c 40 == 1 && a.mirrored
      let twin := both && inStep s
      let runs := granRuns (gs.foldl sins [])
      let s := if twin then runs.foldl (fun s r => sendLow s 0x13 [f.id, r.1, r.2]) s else s
      let j := { newFlush s gs with
        deadline := s.now + 1000 * (if ms == 0 then 60000 else ms), alone := both && !twin, twin := twin, owed := runs.length }
      feed (judgeFlushes (flushWork (setJob s f.id (.flush j))))

/-- FLUSH_RANGE as a packet. -/
def execFlushRange (c : TrellisCmd) (s : State) : Host.Outcome State Fault Refusal := .next (submit cmdFlushRange 0x0202 c s)

/-- FLUSH_RANGE_TIMEOUT (R160): the time of command `id` is over. -/
def execFlushRangeTimeout (id t : Nat) (s : State) : Host.Outcome State Fault Refusal :=
  let s := tick s t
  .next (match inflight s id with
    | some f => (match f.job with
      | .flush j => if j.deadline ≤ s.now then endFlush s f j 0x0D else s
      | _ => s)
    | none => s)

/-- Erased pSLC granules a full-image save may take: those of erased TLC free superblocks, three TLC pages to one pSLC
page (R194, R198). -/
def saveRoom (s : State) : Nat :=
  ((sbsOf s .tlcFree).filter (fun k => (sb s k).clean)).foldl (fun n k =>
    n + (s.ftl.targets.length - (sb s k).missing.length) * s.ftl.planes * (s.ftl.tlcPages / 3)) 0

/-- FULL_SAVE (R198). -/
def cmdFullSave (f : InFlight) (s : State) : State :=
  if s.dev.state != .serving && s.dev.state != .degraded then conflict s f.id (0x02 + fld s.dev.state.code 8 8)
  else if s.hrv.save.isSome then conflict s f.id 0x10
  else if saveRoom s < (saveSet s).length then endWith s f.id 0x0C 0
  else feed (judgeSave (saveWork (setJob (startSave s false) f.id .fullSave)))

/-- FULL_SAVE as a packet. -/
def execFullSave (c : TrellisCmd) (s : State) : Host.Outcome State Fault Refusal := .next (submit cmdFullSave 0x0204 c s)

/-! ### REPLANT_ORDER_LOAD (R199) -/

/-- A range entry of action 1 keeps to its layout and its allotment. -/
def rangeOk (s : State) (e : List Byte) : Bool :=
  rd e 2 2 == 0 && rd e 12 4 == 0 &&
    (match allotOf s (rd e 0 2) with
     | some a => decide (rd e 4 4 + rd e 8 4 ≤ 16384 * a.extents.length)
     | none => false)

/-- A queued range still names a granule to restore; one that does not has left the queue. -/
def rangeLeft (s : State) (x : Nat × Nat × Nat) : Bool :=
  match allotOf s x.1 with
  | some a => (allotGrans a x.2.1 x.2.2).any s.hrv.todo.contains
  | none => false

/-- REPLANT_ORDER_LOAD (R199). -/
def cmdReplantOrderLoad (f : InFlight) (s : State) : State :=
  let c := f.cmd
  let b := payIn c
  match pByte c 24 with
  | 0 =>
    let es := entries4 b
    if issClass c.est == 0 then endWith s f.id 0x05 0x02
    else if b.length % 4 != 0 || 4096 < es.length || es.any (fun e => 0x0FFF < rd e 0 2 || rd e 3 1 != 0) then badParam s f.id 0x40
    else
      let o := es.foldl (fun m e => tset m (rd e 0 2) (rd e 2 1)) []
      endOk (pairWrite { s with hrv := { s.hrv with order := o } } 5) f.id (le o.length 4)
  | 1 =>
    let es := entries16 b
    if !owns s c.est 7 then endWith s f.id 0x05 0x05
    else if !s.hrv.replant then conflict s f.id 0x10
    else if b.length % 16 != 0 || 1024 < es.length || !(es.all (rangeOk s)) then badParam s f.id 0x40
    else if 4096 < (s.hrv.ranges.filter (rangeLeft s)).length + es.length then endWith s f.id 0x0C 0
    else
      let s := { s with hrv := { s.hrv with ranges := s.hrv.ranges.filter (rangeLeft s) } }
      let s := { s with hrv := { s.hrv with ranges := s.hrv.ranges ++ es.map (fun e => (rd e 0 2, rd e 4 4, rd e 8 4)) } }
      endOk (assistInput s 7) f.id (le s.hrv.ranges.length 4)
  | _ => badParam s f.id 24

/-- REPLANT_ORDER_LOAD as a packet. -/
def execReplantOrderLoad (c : TrellisCmd) (s : State) : Host.Outcome State Fault Refusal :=
  .next (submit cmdReplantOrderLoad 0x0205 c s)

end Sys2Proof.Machine
end

