-- ==== Sys2Proof/Machine/Allots.lean ====
section
/-! DEFINITION. The ALLOT_* commands, the placing of extents and windows, and the exchange that commits a change on both
twins (R101–R106, R238, R256). -/

namespace Sys2Proof.Machine

open Sys2Proof

/-! ### Extents (R76, R112, R238) -/

/-- Extents any allotment holds. -/
def usedExtents (s : State) : List Nat := s.alt.tab.flatMap (fun p => p.2.extents)

/-- ALT_EXT_FREE. -/
def freeExtents (s : State) : Nat := s.alt.total - (usedExtents s).length

/-- The entries of the table, and those that exchanges under way will put into it (R102, R256). -/
def promised (s : State) : List (Nat × Allot) := s.alt.tab ++ s.exl.txs.map (fun t => (t.allot, t.newEntry))

/-- An extent may take data of a kind: in range, neither held nor promised to an exchange, in a region without an extent of
the other kind (R238). -/
def extentFits (s : State) (mirrored : Bool) (e : Nat) : Bool :=
  decide (e < s.alt.total) && !(promised s).any (fun p => p.2.extents.any (fun x =>
    x == e || (x / 4 == e / 4 && p.2.mirrored != mirrored)))

/-- The `n` lowest extents that fit, or none where too few do (log entry 52). -/
def pickExtents (s : State) (mirrored : Bool) (n : Nat) : Option (List Nat) :=
  let l := ((List.range s.alt.total).filter (extentFits s mirrored)).take n
  if l.length == n then some l else none

/-- Frees extents: their granules leave exposure, read as zero and have no copy (R102, R104, R218). -/
def wipeExtents (s : State) (es : List Nat) : State :=
  let mine := fun (g : Nat) => es.contains (granExtent g)
  let s := dropGrans s mine
  let gone := s.ftl.map.filter (fun p => mine p.1)
  let mem := { s.mem with
    cells := s.mem.cells.filter (fun c => !es.contains (c.1 / 2 ^ 28)),
    poison := s.mem.poison.filter (fun l => !mine (lineGran l)),
    ueLines := s.mem.ueLines.filter (fun l => !mine (lineGran l)),
    crc := s.mem.crc.filter (fun p => !mine p.1) }
  let s := { s with
    mem := mem,
    hrv := { s.hrv with
      todo := s.hrv.todo.filter (fun g => !mine g),
      save := s.hrv.save.map (fun (v : FullSave) =>
        { v with left := v.left.filter (fun g => !mine g), out := v.out.filter (fun g => !mine g) }) } }
  let cut := s.hrv.fetches.filter (fun f => mine f.gran)
  let s := { s with hrv := { s.hrv with fetches := s.hrv.fetches.filter (fun f => !mine f.gran) } }
  let s := cut.foldl (fun s f => f.waiters.foldl (fun s h =>
    if h.read then dropRequest s h.req.port h.req.issuer 6 true else writeApplied s h) s) s
  gone.foldl (fun s p => afterMove (journal (setMap s p.1 {}) 1 p.1 0) p.2.addr) s

/-! ### Windows and bindings (R79, R81) -/

/-- Windows a host holds or an exchange has promised it: base and bytes. -/
def windowsOf (s : State) (issuer : Nat) : List (Nat × Nat) :=
  (promised s).flatMap (fun p => (p.2.bindings.filter (fun b => b.issuer.toNat == issuer)).map (fun b =>
    (b.dpa, p.2.maxExtents * 2 ^ 28)))

/-- The lowest free window of a size in a host's 64 TiB region (R79). -/
def freeWindow (s : State) (issuer size : Nat) : Option Nat :=
  let ws := windowsOf s issuer
  let fits := fun (d : Nat) => decide (d + size ≤ 2 ^ 46) && ws.all (fun w => d + size ≤ w.1 || w.1 + w.2 ≤ d)
  ((0 :: ws.map (fun w => w.1 + w.2)).filter fits).foldl (fun m d => match m with | some e => some (min d e) | none => some d) none

/-- A binding list with one more, ascending by issuer. -/
def bindInsert (b : Binding) : List Binding → List Binding
  | [] => [b]
  | c :: l => if b.issuer.toNat < c.issuer.toNat then b :: c :: l else c :: bindInsert b l

/-- Bindings in use on the device. -/
def bindingCount (s : State) : Nat := s.alt.tab.foldl (fun n p => n + p.2.bindings.length) 0

/-- Bindings in use, with those that exchanges under way add. -/
def bindingsTaken (s : State) : Nat :=
  bindingCount s + s.exl.txs.foldl (fun n t =>
    n + (t.newEntry.bindings.length - ((tget s.alt.tab t.allot).getD {}).bindings.length)) 0

/-- The bindings of an allotment with entries added or changed (R81, R105), host and whether RW each; none where a window
or a place in the tables is wanting. -/
def addBindings (s : State) (maxExtents : Nat) (old : List Binding) (es : List (Nat × Bool)) : Option (List Binding) :=
  es.foldl (fun r e => r.bind (fun l =>
    if l.any (fun b => b.issuer.toNat == e.1) then
      some (l.map (fun b => if b.issuer.toNat == e.1 then { b with rw := e.2 } else b))
    else if 4096 ≤ l.length || 16384 ≤ bindingsTaken s - old.length + l.length then none
    else (freeWindow s e.1 (maxExtents * 2 ^ 28)).map (fun d =>
      bindInsert { issuer := BitVec.ofNat 16 e.1, rw := e.2, dpa := d } l))) (some old)

/-- The 8-byte binding entries of a payload; none where one breaks its layout (R101). -/
def bindEntries (b : List Byte) : Option (List (Nat × Bool)) :=
  if b.length % 8 != 0 then none
  else
    let es := (List.range (b.length / 8)).map (fun i => slice b (8 * i) 8)
    if es.any (fun e => 0x0FFF < rd e 0 2 || 1 < rd e 2 1 || rd e 3 5 != 0) then none
    else some (es.map (fun e => (rd e 0 2, rd e 2 1 == 1)))

/-! ### Committing a change (R77, R256) -/

/-- A binding goes by forced removal: its window is withdrawn (R80). -/
def withdraw (s : State) (id : Nat) (a : Allot) (b : Binding) : State :=
  let s := if a.serving then postDc s 2 id a b b.accepted else s
  { s with alt := { s.alt with withdrawn := s.alt.withdrawn ++ [(b.issuer.toNat, b.dpa, a.maxExtents * 2 ^ 28)] } }

/-- An entry takes its new content at one instant: removed extents are freed, removed bindings go, added extents and
bindings are offered. -/
def applyEntry (s : State) (id : Nat) (a : Allot) (force : Bool) : State :=
  let old := (allotOf s id).getD {}
  let fresh := (allotOf s id).isNone
  let lost := old.bindings.filter (fun b => !a.bindings.any (fun c => c.issuer == b.issuer))
  let s := if force then lost.foldl (fun s b => withdraw s id old b) s else s
  let came := a.bindings.filter (fun b => !old.bindings.any (fun c => c.issuer == b.issuer))
  let s := { s with alt := { s.alt with withdrawn := s.alt.withdrawn.filter (fun w =>
    !came.any (fun b => b.issuer.toNat == w.1 && decide (b.dpa < w.2.1 + w.2.2) && decide (w.2.1 < b.dpa + a.maxExtents * 2 ^ 28))) } }
  let bs := a.bindings.map (fun b => match old.bindings.find? (fun c => c.issuer == b.issuer) with
    | some c => { b with accepted := c.accepted.filter (fun k => k < a.extents.length), released := [],
                         offered := min c.offered a.extents.length }
    | none => { b with accepted := [], released := [], offered := 0 })
  let s := setAllot s id { a with bindings := bs, busy := none }
  let s := if fresh then
      let s := { s with allotx := { s.allotx with
        keyGen := tset s.allotx.keyGen id (max 1 (keyGen s id)),
        mgen := tset s.allotx.mgen id (mgenOf s id), complete := tset s.allotx.complete id true,
        servedAt := tset s.allotx.servedAt id a.serving, source := tset s.allotx.source id 0 } }
      if a.mirrored && s.exl.session && (tget s.exl.peerState id).isNone then
        let ps : PeerAllot := { mgen := mgenOf s id, serving := !a.serving, complete := true, inStep := true }
        { s with exl := { s.exl with peerState := tset s.exl.peerState id ps } }
      else s
    else s
  let s := wipeExtents s (old.extents.filter (fun e => !a.extents.contains e))
  let s := came.foldl (fun s b => offerTo s id b.issuer) s
  let kept := bs.filter (fun b => b.offered != 0 && !came.any (fun c => c.issuer == b.issuer))
  kept.foldl (fun s b => offerRest s id b.issuer) s

/-- A delete takes effect: the bindings are withdrawn, the key generation advances, the entry is DELETING (R104, R420). -/
def enterDeleting (s : State) (id : Nat) : State :=
  match allotOf s id with
  | none => s
  | some a =>
    let s := a.bindings.foldl (fun s b => withdraw s id a b) s
    let s := setAllot s id { a with st := .deleting, bindings := [] }
    { s with allotx := { s.allotx with keyGen := tset s.allotx.keyGen id (min 0xFFFFFFFF (keyGen s id + 1)) } }

/-- The pairing record's reserved IDs follow the reservations held (R75, R236). -/
def saveReserved (s : State) : State :=
  let l := (s.alt.tab.filter (fun p => p.2.reservation)).map (·.1)
  pairWrite { s with exl := { s.exl with reserved := l } } 1

/-- The entry as TABLE part 0 carries it: ALLOT_QUERY's result bytes 16–31 as the sender has them once the change is made. -/
def infoBytes (st : Nat) (a : Allot) (active : Bool) : List Byte :=
  le st 1 ++ le (b2n a.mirrored) 1 ++ le (b2n a.homeTwin) 1
    ++ le (b2n active + 2 * b2n a.serving + 4 * b2n (decide (1 < a.bindings.length))) 1
    ++ le a.extents.length 4 ++ le a.bindings.length 4 ++ le a.lost.length 4

/-- The unit with the lower serial number leads (R258). -/
def leads (s : State) : Bool := decide (Config.serial.toNat < s.exl.peerRec)

/-- The TABLE messages of an entry and COMMIT with phase prepare under commit ID `n` (R256). -/
def tellEntry (s : State) (n id st : Nat) (e : Allot) (force : Bool) : State :=
  let s := sendLow s 0x0E ([id, 0] ++ (infoBytes st e false).map (·.toNat) ++ [e.maxExtents, mgenOf s id, b2n force]
    ++ e.bindings.flatMap (fun b => [b.issuer.toNat, b2n b.rw]))
  let s := (List.range (cdiv e.extents.length 58)).foldl (fun s i =>
    let l := (e.extents.drop (58 * i)).take 58
    sendLow s 0x0E ([id, 1, 58 * i, l.length] ++ l)) s
  sendLow s 0x0F [n, 0, 0, 0]

/-- A command waits for an exchange (R256); its allotment is busy meanwhile. -/
def waitTx (s : State) (cmd : Option Nat) (n id : Nat) : State :=
  match cmd with
  | some c => modAllot (setJob s c (.twin n 0)) id (fun a => { a with busy := some c })
  | none => s

/-- The state code an exchange tells for its entry: DELETING where it deletes it. -/
def txCode (kind : TxKind) (a : Allot) : Nat := match kind with | .delete => 4 | _ => a.st.code

/-- The entry an exchange tells: without extents where it ends a reservation. -/
def txEntry (kind : TxKind) (a : Allot) : Allot := match kind with | .unreserve => { a with extents := [] } | _ => a

/-- Starts the exchange of R256: TABLE messages, then COMMIT with phase prepare. Commit IDs of the leader are even, those of
the follower odd (log entry 51). The command, if any, waits for it. -/
def startTx (s : State) (kind : TxKind) (id : Nat) (a : Allot) (cmd : Option Nat) (force : Bool) (status : Nat) : State :=
  let n := 2 * s.exl.nextTx + b2n (!leads s)
  let s := tellEntry s n id (txCode kind a) (txEntry kind a) force
  let tx : TableTx := { id := n, mine := true, kind := kind, allot := id, newEntry := a, cmd := cmd, force := force, status := status }
  waitTx { s with exl := { s.exl with nextTx := s.exl.nextTx + 1, txs := s.exl.txs ++ [tx] } } cmd n id

/-- A change of an allotment waits for the twin. -/
def txPending (s : State) (id : Nat) : Bool := s.exl.txs.any (fun t => t.allot == id)

/-- Result of an ALLOT_* command that ends. -/
def allotResult (s : State) (f : InFlight) : List Byte :=
  match f.cmd.op with
  | 0x0100 => le (freeExtents s) 4
  | 0x0103 => le ((allotOf s f.cmd.allot).getD {}).bindings.length 4
  | _ => []

/-- Ends an ALLOT_* command with its result. -/
def endAllot (s : State) (id status detail : Nat) : State :=
  match inflight s id with
  | some f =>
    let s := modAllot s f.cmd.allot (fun a => if a.busy == some id then { a with busy := none } else a)
    finish s id { tag := f.cmd.tag, op := f.cmd.op, status := status, detail := detail, cls := 0,
                  result := if status == 0 || status == 0x0A || status == 0x0D then allotResult s f else [] }
  | none => s

/-- A hand-over agreed or sought for an allotment is over. -/
def dropHandover (s : State) (id : Nat) : State :=
  { s with exl := { s.exl with handovers := s.exl.handovers.filter (fun h => h.1 != id) } }

/-- A FAILOVER action 1 ends once none of its hand-overs is left: OK with what was handed over, or CONFLICT, reason 0x13,
where the peer took none (R268). -/
def judgeHandover (s : State) (cmd : Nat) : State :=
  match jobOf s cmd with
  | .handover _ done mg =>
    if s.exl.handovers.any (fun h => h.2.2 == cmd) then s
    else if done == 0 then endWith s cmd 0x0E 0x13
    else endOk s cmd (le done 4 ++ le mg 8)
  | _ => s

/-- The change of an exchange is made on this unit, at its tick. -/
def applyTx (s : State) (t : TableTx) : State :=
  let s := { s with exl := { s.exl with txs := s.exl.txs.filter (fun u => !(u.id == t.id && u.mine == t.mine)) } }
  match t.kind with
  | .entry | .bind =>
    let s := applyEntry s t.allot { t.newEntry with peerDirty := t.mine && !s.exl.session } t.force
    (match t.cmd with | some c => endAllot s c t.status 0 | none => s)
  | .delete =>
    let s := enterDeleting s t.allot
    (match t.cmd with | some c => setJob s c .table | none => s)
  | .reserve =>
    if t.mine then
      let s := applyEntry s t.allot t.newEntry false
      (match t.cmd with | some c => endAllot s c 0 0 | none => s)
    else saveReserved (setAllot s t.allot { reservation := true, homeTwin := true })
  | .unreserve =>
    if t.mine then { s with alt := { s.alt with owedFree := sdel s.alt.owedFree t.allot } }
    else saveReserved { s with alt := { s.alt with tab := tdel s.alt.tab t.allot } }
  | .handover | .activate => s

/-- An exchange of this unit ends without effect: the peer aborted with `status`, or the link was lost before the commit
was sent (R101, R104). -/
def abortTx (s : State) (t : TableTx) (status : Nat) : State :=
  let s := { s with exl := { s.exl with txs := s.exl.txs.filter (fun u => !(u.id == t.id && u.mine == t.mine)) } }
  match t.cmd with
  | none => s
  | some c =>
    let fresh := (allotOf s t.allot).isNone
    if t.kind == .activate then endWith s c 0x0E (if status == 0 then 0x13 else 0x12)
    else if t.kind == .handover then judgeHandover (dropHandover s t.allot) c
    else if status == 0 || t.kind == .delete then endAllot s c 0x0E 0x13
    else endAllot s c status (if status == 0x0E then (if fresh then 0x10 else 0x13) else 0)

/-! ### ALLOT_CREATE, ALLOT_RESIZE, ALLOT_DELETE (R102–R104) -/

/-- Why an ALLOT_* command may not act now on the entry it names: reservation, busy or DELETING, STALE (R101). -/
def allotBusy (s : State) (a : Allot) (id : Nat) (stale : Bool) : Option (Nat × Nat) :=
  if a.reservation then some (0x0E, 0x15)
  else if a.st == .deleting || a.busy.isSome || txPending s id then some (0x0E, 0x11)
  else if stale && a.st == .stale then some (0x09, 0)
  else none

/-- ALLOT_CREATE (R102). -/
def cmdAllotCreate (f : InFlight) (s : State) : State :=
  let c := f.cmd
  let id := c.allot
  let mirrored := pByte c 24 == 1
  let n := pNum c 28 4
  let m := pNum c 32 4
  let limit := if isBig s then 65536 else 32768
  if 1 < pByte c 24 then badParam s f.id 24
  else if 1 < pByte c 25 || (pByte c 25 == 1 && !mirrored) then badParam s f.id 25
  else if n == 0 || m < n then badParam s f.id 28
  else if limit < m then badParam s f.id 32
  else match bindEntries (payIn c) with
    | none => badParam s f.id 0x40
    | some es =>
      if txPending s id then conflict s f.id 0x11
      else match allotOf s id with
        | some a => conflict s f.id (if a.reservation then 0x15 else if a.st == .deleting then 0x11 else 0x10)
        | none =>
          if mirrored && !inStep s then conflict s f.id 0x13
          else if !mirrored && s.exl.paired && !s.exl.session then conflict s f.id 0x13
          else if keyGen s id == 0xFFFFFFFF then endWith s f.id 0x0C 0
          else match pickExtents s mirrored n, addBindings s m [] es with
            | some xs, some bs =>
              let a : Allot := { mirrored := mirrored, homeTwin := pByte c 25 == 1, serving := pByte c 25 == 0, maxExtents := m,
                                 extents := xs, bindings := bs }
              if mirrored then startTx s .entry id a (some f.id) false 0
              else if s.exl.paired then startTx s .reserve id a (some f.id) false 0
              else endAllot (applyEntry s id a false) f.id 0 0
            | _, _ => endWith s f.id 0x0C 0

/-- Commits a new content of an entry for a command: with the twin where it is MIRRORED and a session is open, alone
otherwise; bindings changed alone on a paired unit are owed to the peer and the command ends DEGRADED, and a size is not
changed alone: CONFLICT, reason 0x13 (R77, R101). -/
def commitEntry (s : State) (id : Nat) (a : Allot) (kind : TxKind) (cmd : Nat) (force : Bool) (status : Nat) : State :=
  if a.mirrored && s.exl.session then startTx s kind id a (some cmd) force status
  else if a.mirrored && kind == .entry then endAllot s cmd 0x0E 0x13
  else if a.mirrored then endAllot (applyEntry s id { a with peerDirty := true } force) cmd (if status == 0 then 0x0A else status) 0
  else endAllot (applyEntry s id a force) cmd status 0

/-- No bound host holds an extent from index `n` on. -/
def releasedFrom (a : Allot) (n : Nat) : Bool := a.bindings.all (fun b => b.accepted.all (fun k => k < n))

/-- ALLOT_RESIZE (R103). -/
def cmdAllotResize (f : InFlight) (s : State) : State :=
  let c := f.cmd
  let id := c.allot
  let n := pNum c 28 4
  let ms := pNum c 32 4
  match allotOf s id with
  | none => badParam s f.id 8
  | some a =>
    match allotBusy s a id true with
    | some (st, d) => endWith s f.id st d
    | none =>
      if n == 0 || a.maxExtents < n then badParam s f.id 28
      else if 60000 < ms || (n < a.extents.length && ms == 0) then badParam s f.id 32
      else if c.payLen != 0 && c.payLen != 16 then badParam s f.id 0x40
      else if a.st == .dataLost then conflict s f.id 0x14
      else if a.mirrored && !inStep s then conflict s f.id 0x13
      else
        let old := a.extents.length
        if old ≤ n then
          let tags := if old < n then (old, if c.payLen == 16 then payIn c else padTo (le id 2) 16) :: a.tags else a.tags
          match pickExtents s a.mirrored (n - old) with
          | some xs => commitEntry s id { a with extents := a.extents ++ xs, tags := tags } .entry f.id false 0
          | none => endWith s f.id 0x0C 0
        else
          let cut := { a with extents := a.extents.take n, tags := a.tags.filter (fun p => p.1 < n) }
          if releasedFrom a n then commitEntry s id cut .entry f.id false 0
          else
            let s := a.bindings.foldl (fun s b => postDc s 1 id a b (b.accepted.filter (fun k => n ≤ k))) s
            modAllot (setJob s f.id (.shrink id n (s.now + 1000 * ms))) id (fun a => { a with busy := some f.id })

/-- ALLOT_DELETE (R104). -/
def cmdAllotDelete (f : InFlight) (s : State) : State :=
  let id := f.cmd.allot
  match allotOf s id with
  | none => badParam s f.id 8
  | some a =>
    if 1 < pByte f.cmd 24 then badParam s f.id 24
    else match allotBusy s a id false with
    | some (st, d) => endWith s f.id st d
    | none =>
      if pByte f.cmd 24 == 0 && !a.bindings.isEmpty then conflict s f.id 0x12
      else if a.mirrored && !inStep s then conflict s f.id 0x13
      else if a.mirrored then startTx s .delete id a (some f.id) true 0
      else modAllot (setJob (enterDeleting s id) f.id .table) id (fun a => { a with busy := some f.id })

/-- Deletes under way are carried to their end: extents zeroed and freed, the entry freed, the command ended, the peer's
reservation of a LOCAL allotment freed now or at the next session (R101, R104). -/
def deleteAdvance (s : State) : State :=
  let go := s.alt.tab.filter (fun p => p.2.st == .deleting)
  go.foldl (fun s p =>
    let id := p.1
    let s := wipeExtents s p.2.extents
    let s := { s with
      alt := { s.alt with tab := tdel s.alt.tab id },
      exl := { s.exl with peerState := tdel s.exl.peerState id, matched := s.exl.matched.filter (fun m => m.1 != id) },
      allotx := { s.allotx with mgen := tdel s.allotx.mgen id, complete := tdel s.allotx.complete id,
                                servedAt := tdel s.allotx.servedAt id, source := tdel s.allotx.source id },
      ftl := { s.ftl with streams := tdel s.ftl.streams id },
      drp := { s.drp with hints := s.drp.hints.filter (fun h => h.allot != id) } }
    let s := if p.2.mirrored || !s.exl.paired then s
      else
        let s := { s with alt := { s.alt with owedFree := sins s.alt.owedFree id } }
        if s.exl.session then startTx s .unreserve id p.2 none false 0 else s
    let s := (jobs s (fun j => j == .table)).foldl (fun s f => if f.cmd.op == 0x0102 && f.cmd.allot == id then endOk s f.id [] else s) s
    judgeFlushes s) s

/-! ### ALLOT_BIND, ALLOT_QUERY (R105, R106) -/

/-- The removal part of a binding removal: the listed bindings that hold nothing go. -/
def unbindEntry (a : Allot) (issuers : List Nat) : Allot :=
  { a with bindings := a.bindings.filter (fun b => !(issuers.contains b.issuer.toNat && b.accepted.isEmpty)) }

/-- ALLOT_BIND (R105). -/
def cmdAllotBind (f : InFlight) (s : State) : State :=
  let c := f.cmd
  let id := c.allot
  match allotOf s id with
  | none => badParam s f.id 8
  | some a =>
    if 3 < pByte c 24 then badParam s f.id 24
    else if pByte c 24 == 1 && (pNum c 28 4 == 0 || 60000 < pNum c 28 4) then badParam s f.id 28
    else if pByte c 24 == 3 && c.payLen != 0 then badParam s f.id 0x40
    else match bindEntries (payIn c), allotBusy s a id true with
    | none, _ => badParam s f.id 0x40
    | _, some (st, d) => endWith s f.id st d
    | some es, none =>
      let ids := es.map (·.1)
      match pByte c 24 with
      | 0 => (match addBindings s a.maxExtents a.bindings es with
        | some bs => commitEntry s id { a with bindings := bs } .bind f.id false 0
        | none => endWith s f.id 0x0C 0)
      | 1 =>
        let wait := a.bindings.filter (fun b => ids.contains b.issuer.toNat && !b.accepted.isEmpty)
        if wait.isEmpty then commitEntry s id (unbindEntry a ids) .bind f.id false 0
        else
          let s := wait.foldl (fun s b => postDc s 1 id a b b.accepted) s
          modAllot (setJob s f.id (.unbind id ids (s.now + 1000 * pNum c 28 4))) id (fun a => { a with busy := some f.id })
      | 2 => commitEntry s id { a with bindings := a.bindings.filter (fun b => !ids.contains b.issuer.toNat) } .bind f.id true 0
      | _ =>
        let s := if a.st == .dataLost then
            setAllot s id { a with lost := [], st := if s.hrv.replant && unrestored s a then .replanting else .ready }
          else s
        endAllot s f.id 0 0

/-- A shrink ends without effect: what was released is offered back (R103). -/
def endShrink (s : State) (cmd al : Nat) (a : Allot) (status detail : Nat) : State :=
  let s := if offering s a then a.bindings.foldl (fun s b => postDc s 0 al a b b.released) s else s
  endAllot (setAllot s al { a with bindings := a.bindings.map (fun b => { b with released := [] }) }) cmd status detail

/-- What a release by a host lets end: a shrink whose extents every host has released, a removal whose bindings hold
nothing (R103, R105). A shrink of a MIRRORED allotment whose session ended while it waited has no twin to commit with:
it ends with CONFLICT, reason 0x13 (R77, R101). -/
def judgeRelease (s : State) : State :=
  s.trl.flight.foldl (fun s f => match f.phase == 1, f.job with
    | true, .shrink id n _ => (match allotOf s id with
      | some a => if a.mirrored && !s.exl.session then endShrink s f.id id a 0x0E 0x13
          else if releasedFrom a n then
            commitEntry s id { a with extents := a.extents.take n, tags := a.tags.filter (fun p => p.1 < n) } .entry f.id false 0 else s
      | none => endWith s f.id 0x0E 0x11)
    | true, .unbind id is _ => (match allotOf s id with
      | some a => if a.bindings.all (fun b => !is.contains b.issuer.toNat || b.accepted.isEmpty) then
            commitEntry s id (unbindEntry a is) .bind f.id false 0 else s
      | none => endWith s f.id 0x0E 0x11)
    | _, _ => s) s

/-- RELEASE_WAIT_EXPIRY (R103, R105): a shrink ends with TIMEOUT, its size unchanged and what was released offered back; a
removal ends with TIMEOUT, the bindings not released remaining. Extents that a remaining binding released before the expiry
are neither offered back nor restored (log entry 111). -/
def execReleaseWaitExpiry (id t : Nat) (s : State) : Host.Outcome State Fault Refusal :=
  let s := tick s t
  .next (match jobOf s id with
    | .shrink al _ dl =>
      if s.now < dl then s
      else match allotOf s al with
        | some a => endShrink s id al a 0x0D 0
        | none => endAllot s id 0x0D 0
    | .unbind al is dl =>
      if s.now < dl then s
      else match allotOf s al with
        | some a =>
          let b := unbindEntry a is
          let b := { b with bindings := b.bindings.map (fun x => { x with released := [] }) }
          if b.bindings.length == a.bindings.length then endAllot (setAllot s al b) id 0x0D 0
          else commitEntry s al b .bind id false 0x0D
        | none => endAllot s id 0x0D 0
    | _ => s)

/-- ALLOT_QUERY (R106). Bytes of the output payload past the last binding are zero (log entry 53). BINDINGS and SHARED count
every binding for a host-class issuer too, which sees no other binding's entry (log entry 112). -/
def cmdAllotQuery (f : InFlight) (s : State) : State :=
  let c := f.cmd
  let id := c.allot
  match allotOf s id with
  | none => badParam s f.id 8
  | some a =>
    if c.payLen % 16 != 0 then badParam s f.id 0x40
    else if a.st != .deleting && (a.busy.isSome || txPending s id) then conflict s f.id 0x11
    else
      let bs := if issClass c.est == 0 then a.bindings.filter (fun b => b.issuer.toNat == c.est) else a.bindings
      let bs := ((bs.drop (pNum c 24 4)).take (pNum c 28 4)).take (c.payLen / 16)
      let out := bs.flatMap (fun b => le b.issuer.toNat 2 ++ le (b2n b.rw) 1 ++ le (b2n (!b.accepted.isEmpty)) 1 ++ zeros 4 ++ le b.dpa 8)
      let a := if a.reservation then { a with homeTwin := true, extents := [], bindings := [] } else a
      endOut s f.id (infoBytes a.st.code a (s.hrv.replant && unrestored s a)) (padTo out c.payLen)

/-- ALLOT_CREATE as a packet. -/
def execAllotCreate (c : TrellisCmd) (s : State) : Host.Outcome State Fault Refusal := .next (submit cmdAllotCreate 0x0100 c s)

/-- ALLOT_RESIZE as a packet. -/
def execAllotResize (c : TrellisCmd) (s : State) : Host.Outcome State Fault Refusal := .next (submit cmdAllotResize 0x0101 c s)

/-- ALLOT_DELETE as a packet. -/
def execAllotDelete (c : TrellisCmd) (s : State) : Host.Outcome State Fault Refusal := .next (submit cmdAllotDelete 0x0102 c s)

/-- ALLOT_BIND as a packet. -/
def execAllotBind (c : TrellisCmd) (s : State) : Host.Outcome State Fault Refusal := .next (submit cmdAllotBind 0x0103 c s)

/-- ALLOT_QUERY as a packet. -/
def execAllotQuery (c : TrellisCmd) (s : State) : Host.Outcome State Fault Refusal := .next (submit cmdAllotQuery 0x0104 c s)

/-! ### Registers -/

/-- ALT registers whose value the state's own fields give; `sel` reads a selector of the access path (chapter 3). -/
def viewAlt (s : State) (sel : Nat → Nat) (c : Nat) : Option Nat :=
  if c == rAltExtTotal then some s.alt.total
  else if c == rAltExtFree then some (freeExtents s)
  else if c == rAltCounts then some (fld s.alt.tab.length 16 13 + fld (bindingCount s) 0 15)
  else if c == rAltInfo then some (match allotOf s (sel rAltSel % 4096) with
    | none => 0
    | some a => fld 1 31 1 + fld a.st.code 28 3 + fld (b2n a.mirrored) 27 1 + fld (b2n a.homeTwin) 26 1 + fld (b2n a.serving) 25 1
        + fld (b2n (s.hrv.replant && unrestored s a)) 24 1 + fld a.extents.length 0 17)
  else none

end Sys2Proof.Machine
end

