-- ==== Sys2Proof/Machine/Firmware.lean ====
section
/-! DEFINITION. The end of staging, activation live and through HELD, confirmation and fallback, and the boot of the
management processor pairs (R281, R284, R402–R410). -/

namespace Sys2Proof.Machine

open Sys2Proof

/-! ### FW_STAGE_END (R404) -/

/-- The 512 entries of a fault reaction table body (R378). -/
def reactEntries (b : List Byte) : List Nat := (entries4 b).map leNat

/-- A table image staged in SRAM, checked and installed at one instant (R398, R404, Table 15.2). -/
def endTableImage (f : InFlight) (image n : Nat) (s : State) : State :=
  let b := stagedBytes s n
  let c := container b
  let done := fun (s : State) =>
    endOk (pairWrite { s with fwu := { s.fwu with staging := none, buf := [] } } 4) f.id (le c.version 4)
  if !containerOk s (if image == 1 then 0x12 else 0x13) b then endWith s f.id 0x0B 0
  else if image == 1 then
    if c.body.length != 2048 || !reactOk (reactEntries c.body) then badParam s f.id 0x40
    else done { s with flt := { s.flt with image := some (reactEntries c.body), imageVersion := c.version } }
  else
    let t : RetryTable := { version := c.version, parts := Config.retryParts c.body }
    match s.ftl.popRec with
    | some p => if t.parts.any (fun q => q.1 == p.part) then done { s with ftl := { s.ftl with retryTable := some t } }
                else badParam s f.id 0x40
    | none => done { s with ftl := { s.ftl with retryTable := some t } }

/-- A firmware slot is closed: it is STAGED, and with no slot to boot this is its next boot (R404, R410). -/
def endFirmwareSlot (f : InFlight) (b : Bool) (n : Nat) (s : State) : State :=
  let c := container ((readUnits s (mainSector (b2n b) 0) 480).take (min n 480))
  let s := fwSave (setSlot { s with fwu := { s.fwu with staging := none } } b
    { st := 2, version := c.version, svn := c.svn, key := c.key })
  let s := endOk s f.id (le c.version 4)
  if s.fwu.noImage && s.dev.state == .waking then
    if slotPasses s b then enterRailsUp (bootSlot s b 3 0) else raiseOpen (rejectSlot s b) 0x1C0
  else s

/-- FW_STAGE_END (R404). -/
def cmdFwStageEnd (f : InFlight) (s : State) : State :=
  let n := pNum f.cmd 24 4
  match s.fwu.staging with
  | none => conflict s f.id 0x10
  | some k =>
    let room := if k ≤ 1 then slotBytes else 65536
    if room < n then badParam s f.id 24
    else
      let b := stagedBytes s n
      if crc32c b != pNum f.cmd 28 4 then badParam s f.id 0x40
      else if 1 < k then endTableImage f (k - 0x10) n s
      else if !manifestFits (container b).body then badParam s f.id 0x40
      else endFirmwareSlot f (k == 1) n s

/-- FW_STAGE_END as a packet. -/
def execFwStageEnd (c : TrellisCmd) (s : State) : Host.Outcome State Fault Refusal := .next (submit cmdFwStageEnd 0x0802 c s)

/-! ### Scheduling an activation (R405) -/

/-- Firmware major version of a packed VERSION (Table 15.1). -/
def majorOf (v : Nat) : Nat := v / 2 ^ 24 % 256

/-- The slot that is not active, when it is STAGED. -/
def stagedSlot (s : State) : Option Bool :=
  match s.fwu.active with
  | some b => if (fwSlot s (!b)).st == 2 then some (!b) else none
  | none => none

/-- An activation is scheduled, or its exchange with the peer runs. -/
def activationDue (s : State) : Bool := s.fwu.epoch.isSome || s.exl.txs.any (fun t => t.kind == .activate)

/-- Schedules an activation at an epoch; `alone`: not agreed with the peer. -/
def scheduleActivation (s : State) (e : Nat) (alone : Bool) : State :=
  { s with fwu := { s.fwu with epoch := some e, phase := 1, alone := alone, falling := false } }

/-- The commit ID of an activation: 0xF1 in [63:56], the manifest VERSION in [31:0] (R405). -/
def activationId (version : Nat) : Nat := 0xF1 * 2 ^ 56 + version

/-- FW_ACTIVATE_AT (R405). CANCEL withdraws what is scheduled and, with nothing scheduled, changes nothing (log
entry 57). -/
def cmdFwActivateAt (f : InFlight) (s : State) : State :=
  let c := f.cmd
  let flags := pByte c 24
  let e := if pNum c 32 8 == 0 then s.exl.epoch + 1000 else pNum c 32 8
  if 3 < flags then badParam s f.id 24
  else if s.dev.state != .serving && s.dev.state != .degraded then conflict s f.id 0x02
  else if flags.testBit 1 then
    if s.fwu.falling || s.exl.txs.any (fun t => t.kind == .activate) then conflict s f.id 0x11
    else
      endOk (if s.fwu.epoch.isSome then { s with fwu := { s.fwu with epoch := none, phase := 0, alone := false } } else s) f.id []
  else match stagedSlot s with
    | none => conflict s f.id 0x10
    | some b =>
      if activationDue s || tentative s then conflict s f.id 0x11
      else if e < s.exl.epoch + 100 then badParam s f.id 32
      else if s.exl.session then
        let n := activationId (fwSlot s b).version
        let s := sendLow s 0x0F [n, 0, e, 0]
        let tx : TableTx := { id := n, mine := true, kind := .activate, epoch := e, cmd := some f.id }
        setJob { s with exl := { s.exl with txs := s.exl.txs ++ [tx] } } f.id (.twin n 0)
      else if !flags.testBit 0 then conflict s f.id 0x13
      else endWith (scheduleActivation s e true) f.id 0x0A 0

/-- FW_ACTIVATE_AT as a packet. -/
def execFwActivateAt (c : TrellisCmd) (s : State) : Host.Outcome State Fault Refusal := .next (submit cmdFwActivateAt 0x0803 c s)

/-- The peer's part of R405: it can activate at `e` when it holds a STAGED slot of the same major version, nothing is
scheduled or tentative, and it serves. -/
def canActivate (s : State) (id e : Nat) : Bool :=
  (match stagedSlot s with | some b => majorOf (fwSlot s b).version == majorOf (id % 2 ^ 32) | none => false)
    && !activationDue s && !tentative s && (s.dev.state == .serving || s.dev.state == .degraded) && decide (s.exl.epoch < e)

/-! ### Commands a reboot of a pair touches (R54, R284) -/

/-- An executing command of a pair lets go of what it holds: a twin exchange not yet committed is aborted, an allotment is
no longer busy. -/
def dropJob (s : State) (f : InFlight) : State :=
  let mine := fun (t : TableTx) => t.mine && t.cmd == some f.id
  let open_ := s.exl.txs.filter (fun t => mine t && t.phase < 2)
  let s := open_.foldl (fun s t => sendLow s 0x0F [t.id, 3, 0, 0x0F]) s
  { s with
    exl := { s.exl with
      txs := (s.exl.txs.filter (fun t => !(mine t && t.phase < 2))).map (fun t => if t.cmd == some f.id then { t with cmd := none } else t),
      compares := s.exl.compares.map (fun c => if c.cmd == some f.id then { c with cmd := none } else c),
      pairWait := match s.exl.pairWait with | some p => if p.cmd == f.id then none else some p | none => none },
    alt := { s.alt with tab := s.alt.tab.map (fun p =>
      (p.1, if p.2.busy == some f.id then { p.2 with busy := none } else p.2)) },
    hrv := { s.hrv with save := match f.job with | .fullSave => none | _ => s.hrv.save },
    ist := { s.ist with items := s.ist.items.map (fun p => (p.1, if p.2.now == some f.id then { p.2 with now := none, nowFail := none } else p.2)) },
    mpx := { s.mpx with funcs := s.mpx.funcs.map (fun p => (p.1, match p.2.pend with
      | some q => if q.cmd == some f.id then { p.2 with pend := none } else p.2
      | none => p.2)) } }

/-- Commands of the pairs in `svs` at a reboot: with IDEMPOTENT run again from the start, otherwise ended with INTERRUPTED
and their phase. `all`: those not yet started too. -/
def interruptPairs (s : State) (svs : Server → Bool) (all : Bool) : State :=
  (s.trl.flight.filter (fun f => svs (serverOf f) && (f.phase == 1 || (all && f.phase == 0)))).foldl (fun s f =>
    let s := dropJob s f
    if f.cmd.flags.testBit 2 then
      { s with trl := { s.trl with flight := s.trl.flight.map (fun g =>
        if g.id == f.id then { g with phase := 0, job := if g.phase == 1 then .none else g.job } else g) } }
    else endWith s f.id 0x07 f.phase) s

/-! ### Activation (R406–R408) -/

/-- CONFIRM_S in force: lower values are treated as 60. -/
def confirmS (s : State) : Nat := max 60 (cfg s rFwuCfg 16 16)

/-- The next bed and the next flash engine on the list of a live activation begin their reload: one bed and one channel at a
time, none in HARVESTING (R281, R406). -/
def nextReload (s : State) : State :=
  if s.dev.state == .harvesting then s
  else match s.tin.reload.find? (fun k => k < 100) with
    | some b => if (List.range (nBeds s)).any (fun v => (bed s v).draining) then s else setBed s b { bed s b with draining := true }
    | none => s

/-- Functions that an activation moved return to their owners, their watchdogs restarted and their REASON restored
(R406). -/
def giveBack (s : State) : State :=
  { s with
    mpx := { s.mpx with funcs := s.mpx.funcs.map (fun p => match tget s.fwu.saved p.1 with
      | some r => (p.1, { p.2 with mode := true, reason := r, wdAt := s.now })
      | none => p) },
    fwu := { s.fwu with saved := [] } }

/-- Pairs that run again or are held down until the next start. -/
def pairsUp (s : State) : Bool := s.mpx.a.st != 1 && s.mpx.b.st != 1

/-- What follows when the last step of an activation is over: PHASE 4, or 0 after a fallback or a failed check. -/
def activationSettles (s : State) : State :=
  if s.fwu.target.isNone && s.tin.reload.isEmpty && !s.mpx.activating && (s.fwu.phase == 2 || s.fwu.phase == 3 || s.fwu.phase == 5)
      && s.fwu.epoch.isNone then
    { s with fwu := { s.fwu with phase := if tentative s then 4 else 0, falling := false } }
  else s

/-- Steps 2 and 3 of Table 15.4: the slot is checked; when it passes it becomes active, and the beds and flash engines are
reloaded. A slot that fails is REJECTED (R407). -/
def activationCheck (s : State) : State :=
  match s.fwu.target with
  | none => s
  | some b =>
    let s := { s with fwu := { s.fwu with target := none } }
    if slotPasses s b then
      let keep := (fwSlot s b).st == 4
      let ph := s.fwu.phase
      let s := bootSlot s b (if keep then 4 else 3) 0
      let chans := (List.range (nFch s)).filter (fun c => (tgetD s.ftl.fces c {}).st == 2)
      nextReload { s with
        fwu := { s.fwu with phase := if ph == 5 then 5 else 3 },
        tin := { s.tin with reload := List.range (nBeds s) ++ chans.map (100 + ·) } }
    else activationSettles (raiseOpen (rejectSlot s b) 0x1C0)

/-- Live activation, step 1 of Table 15.4: the pairs are reset, their admission stops, functions run in hardware mode with
REASON 6. -/
def activateLive (s : State) (b : Bool) : State :=
  let boot := fun (x : MpPair) => { x with st := if x.st == 2 then 2 else 1 }
  let s := { s with mpx := { s.mpx with activating := true, a := boot s.mpx.a, b := boot s.mpx.b } }
  let s := interruptPairs s (fun v => v == .ma || v == .mb) true
  let moved := s.mpx.funcs.filter (fun p => p.2.mode)
  { s with
    mpx := { s.mpx with funcs := s.mpx.funcs.map (fun p => (p.1, if p.2.mode then { p.2 with mode := false, reason := 6, pend := none } else p.2)) },
    fwu := { s.fwu with saved := moved.foldl (fun l p => tset l p.1 p.2.reason) s.fwu.saved, target := some b, tickAt := some s.now,
                        phase := if s.fwu.falling then 5 else 2 } }

/-- The activation epoch is reached: live within one major version, through HELD across major versions (R406, R408). A
device no longer in service drops the activation. -/
def activationTick (s : State) : State :=
  match s.fwu.epoch, s.fwu.active with
  | some e, some b =>
    if s.exl.epoch < e then s
    else if s.dev.state != .serving && s.dev.state != .degraded then { s with fwu := { s.fwu with epoch := none, phase := 0 } }
    else
      let y := fwSlot s (!b)
      let s := { s with fwu := { s.fwu with epoch := none, confirmBy := if s.fwu.falling then none else some (s.now + 1000000 * confirmS s) } }
      if !(y.st == 2 || y.st == 4) then { s with fwu := { s.fwu with phase := 0 } }
      else if majorOf y.version == majorOf (fwSlot s b).version then activateLive s (!b)
      else startHarvest { s with fwu := { s.fwu with bootNew := true, phase := if s.fwu.falling then 5 else 3 } } .mrN []
  | _, _ => s

/-- MP_PAIR_BOOTED (R284, R406): pair `k` (0 A, 1 B) runs again. Once both do, admission resumes and functions return to
their owners. -/
def execMpPairBooted (k t : Nat) (s : State) : Host.Outcome State Fault Refusal :=
  let s := tick s t
  let x := if k == 0 then s.mpx.a else s.mpx.b
  .next (if x.st != 1 || !logicOn s then s
    else
      let s := activationCheck s
      let s := if k == 0 then { s with mpx := { s.mpx with a := { s.mpx.a with st := 0 } } }
               else { s with mpx := { s.mpx with b := { s.mpx.b with st := 0 } } }
      if s.mpx.activating && pairsUp s then activationSettles (giveBack { s with mpx := { s.mpx with activating := false } }) else s)

/-- BED_RELOAD_DONE (R281, R406): bed `k`, or the flash engine of channel `k` − 100, has its new image and rejoins. -/
def execBedReloadDone (k t : Nat) (s : State) : Host.Outcome State Fault Refusal :=
  let s := tick s t
  .next (if !s.tin.reload.contains k || (k < 100 && !(bed s k).draining) || (100 ≤ k && !engineHeld s (k - 100)) then s
    else
      let s := { s with tin := { s.tin with reload := s.tin.reload.filter (· != k) } }
      let s := if k < 100 then setBed s k { bed s k with draining := false, reloaded := true, clocked := true } else s
      feed (activationSettles (nextReload s)))

/-! ### Confirmation and fallback (R409) -/

/-- FW_CONFIRM (R409). -/
def cmdFwConfirm (f : InFlight) (s : State) : State :=
  match s.fwu.active with
  | none => conflict s f.id 0x10
  | some b =>
    if !tentative s then conflict s f.id 0x10
    else
      let s := setSlot s b { fwSlot s b with st := 4 }
      let s := if (fwSlot s (!b)).st == 4 then setSlot s (!b) { fwSlot s (!b) with st := 2 } else s
      endOk (fwSave { s with fwu := { s.fwu with failedBoots := 0, confirmBy := none, phase := 0, alone := false } }) f.id []

/-- FW_CONFIRM as a packet. -/
def execFwConfirm (c : TrellisCmd) (s : State) : Host.Outcome State Fault Refusal := .next (submit cmdFwConfirm 0x0804 c s)

/-- The TENTATIVE slot is given up: REJECTED, FW_FALLBACK, and the confirmed slot is activated alone 100 ticks from now
(R409). -/
def giveUp (s : State) : State :=
  match s.fwu.active with
  | none => s
  | some b =>
    let s := raiseOpen (rejectSlot s b) 0x1C1
    { s with fwu := { s.fwu with epoch := some (s.exl.epoch + 100), falling := true, alone := true, phase := 5, confirmBy := none } }

/-- FW_CONFIRM_TIMEOUT (R409): the confirmation window ends without FW_CONFIRM. -/
def execFwConfirmTimeout (t : Nat) (s : State) : Host.Outcome State Fault Refusal :=
  let s := tick s t
  .next (match s.fwu.confirmBy with
    | some u => if u ≤ s.now && tentative s then giveUp s else s
    | none => s)

/-- FAILED_BOOT (R407): a pair does not run within 400 ms of an activation: a failed boot, and a TENTATIVE slot is given
up. -/
def execFailedBoot (t : Nat) (s : State) : Host.Outcome State Fault Refusal :=
  let s := tick s t
  .next (if !s.mpx.activating || pairsUp s || s.fwu.tickAt.any (fun u => decide (s.now < u + 400000)) then s
    else
      let s := activationCheck s
      if tentative s then giveUp { s with fwu := { s.fwu with failedBoots := min 3 (s.fwu.failedBoots + 1) } } else s)

end Sys2Proof.Machine
end

