-- ==== Sys2Proof/Machine/Twin.lean ====
section
/-! DEFINITION. The twin: heartbeat and failover, STATE and the resync source, tally comparison, resync, hand-over and
the pair epoch (R255, R258–R271). -/

namespace Sys2Proof.Machine

open Sys2Proof

/-! ### Timing of EXL_FO_CFG -/

/-- HB_EN. -/
def hbEn (s : State) : Bool := cfg s rExlFoCfg 31 1 == 1

/-- HB_PERIOD_MS in µs. -/
def hbPeriod (s : State) : Nat := 1000 * cfg s rExlFoCfg 24 6

/-- CLAIM_MS in µs. -/
def claimUs (s : State) : Nat := 1000 * cfg s rExlFoCfg 12 12

/-- TAKEOVER_MS in µs. -/
def takeoverUs (s : State) : Nat := 1000 * cfg s rExlFoCfg 0 12

/-- A value of EXL_FO_CFG keeps to R265 and to its ranges. -/
def foCfgOk (v : Nat) : Bool :=
  let p := bits v 24 6
  let c := bits v 12 12
  let k := bits v 0 12
  1 ≤ p && p ≤ 50 && 10 ≤ c && c ≤ 2000 && 20 ≤ k && c + 3 * p ≤ k

/-- The heartbeat is present: a valid record arrived within three periods (R264). -/
def hbPresent (s : State) : Bool :=
  hbEn s && (match s.exl.hbPeerAt with | some u => decide (s.now ≤ u + 3 * hbPeriod s) | none => false)

/-! ### Keys of the pair (R236, R411) -/

/-- TAG of a heartbeat record: the first 32 bits of the CMAC of words 0 to 2 under the EXL-HB key. -/
def hbTag (s : State) (w : List Nat) : Nat :=
  let k := derive (pairSecret s) (label "EXL-HB" 0xFFFF 0 []) [] 32
  rd (bytes (cmac (nats k) (nats ((w.take 3).flatMap (fun x => le x 4))))) 0 4

/-! ### Withheld completions, takeover, fence (R263–R268) -/

/-- Releases every withheld completion: the peer takes no part in those writes any more. -/
def releaseWithheld (s : State) : State :=
  completeReady { s with exl := { s.exl with
    withholding := false, withheld := s.exl.withheld.map (fun w => { w with accepted := true, withheld := false }) } }

/-- This unit takes over an allotment: MGEN advances, it serves, its hosts are offered the extents and told (R265). -/
def takeOne (s : State) (id : Nat) : State :=
  match allotOf s id with
  | none => s
  | some a =>
    if !a.mirrored || a.serving || a.st == .deleting then s
    else
      let left := a.st == .stale
      let a := { a with serving := true, st := if left then (if unrestored s a && s.hrv.replant then .replanting else .ready) else a.st }
      let s := setAllot s id a
      let s := { s with allotx := { s.allotx with
        mgen := tset s.allotx.mgen id (mgenOf s id + 1), servedAt := tset s.allotx.servedAt id true,
        complete := tset s.allotx.complete id true, source := tset s.allotx.source id 0 } }
      let s := if left then tellHosts s id 6 else s
      tellHosts (offerAllot s id) id 2

/-- This unit takes over allotments. -/
def takeOver (s : State) (ids : List Nat) : State :=
  let s := ids.foldl takeOne s
  releaseWithheld { s with exl := { s.exl with tookOver := true } }

/-- Allotments of the peer that are READY here. -/
def peerReady (s : State) : List Nat :=
  (s.alt.tab.filter (fun p => p.2.mirrored && !p.2.serving && p.2.st == .ready)).map (·.1)

/-- MIRRORED allotments served here. -/
def servedHere (s : State) : List Nat :=
  (s.alt.tab.filter (fun p => p.2.mirrored && p.2.serving && p.2.st != .deleting)).map (·.1)

/-- Fences an allotment: it is no longer served, is STALE here, and its withheld completions are never sent (R265). -/
def fenceOne (s : State) (id : Nat) : State :=
  match allotOf s id with
  | none => s
  | some a =>
    if !a.mirrored || !a.serving || a.st == .deleting then s
    else
      let mine := s.exl.withheld.filter (fun w => w.allot == id)
      let s := neverComplete s (fun p n => mine.any (fun w => w.port == p && w.n == n))
      let s := setAllot s id { a with
        serving := false, st := .stale, bindings := a.bindings.map (fun b => { b with accepted := [], released := [], offered := 0 }) }
      tellHosts (tellHosts s id 3) id 5

/-- Fences allotments. -/
def fenceAllots (s : State) (ids : List Nat) : State :=
  ids.foldl fenceOne { s with exl := { s.exl with fenced := true } }

/-- The third row of Table 8.10: ACK_CLAIM is set, and what the peer serves is STALE here. -/
def ackPeer (s : State) (ids : List Nat) : State :=
  ids.foldl makeStale { s with exl := { s.exl with ackClaim := true } }

/-- MIRRORED allotments the peer serves. -/
def servedThere (s : State) : List Nat :=
  (s.alt.tab.filter (fun p => p.2.mirrored && !p.2.serving && p.2.st != .deleting)).map (·.1)

/-- Table 8.10 is evaluated: the link was lost with the heartbeat present, and no session has opened since. -/
def failoverOn (s : State) : Bool := s.exl.lossAt.isSome && s.exl.hbAtLoss && !s.exl.session && !s.exl.fenced

/-- The unit decides by itself: FAILOVER is in hardware mode. -/
def failoverHw (s : State) : Bool := !assisted s 8

/-- Evaluates Table 8.10 on a valid peer record with word 2 `w` (R265, R266). The first three rows concern the record, the
fourth and fifth the instants of their timers (log entry 58). -/
def decideOnRecord (s : State) (w : Nat) : State :=
  if !failoverOn s then s
  else if bit w 21 then (if failoverHw s then fenceAllots s (servedHere s) else s)
  else
    let s := if bit w 22 then releaseWithheld { s with exl := { s.exl with claimAcked := true } } else s
    if bit w 23 && !s.exl.tookOver && failoverHw s && !s.exl.ackClaim then ackPeer s (servedThere s) else s

/-- HEARTBEAT_RECORD_IN (R264): board management writes EXL_HB_IN3 with `v`; the record is taken when its TAG verifies and its
SEQ rises. -/
def takeHeartbeat (s : State) (v : Nat) : State :=
  let w := (s.exl.hbIn.take 3).map (·.toNat)
  let seq := w.getD 0 0
  let fresh := match s.exl.hbPeerAt with | some _ => decide (s.exl.hbPeerSeq < seq) | none => true
  if !s.exl.paired || hbTag s w != v || !fresh then s
  else
    let f := w.getD 2 0
    let s := { s with exl := { s.exl with
      hbPeerSeq := seq, hbPeerAt := some s.now, hbEcho := bits f 0 16, peerFenced := bit f 20, peerClaim := bit f 23,
      peerSince := s.exl.peerSince || s.exl.lossAt.isSome } }
    decideOnRecord s f

/-- HEARTBEAT_RECORD_IN as a register write: EXL_HB_IN words are written by board management alone. -/
def execHeartbeatRecordIn (a : RegAcc) (v t : Nat) (s : State) : Host.Outcome State Fault Refusal :=
  let s := tick s t
  .next (if !logicOn s then s
    else if !(viaMctp a.path && issClass a.issuer == 2) then regFault s rExlHbIn3
    else takeHeartbeat { s with exl := { s.exl with hbIn := s.exl.hbIn.take 3 ++ [BitVec.ofNat 32 v] } } (v % 2 ^ 32))

/-- HEARTBEAT_PUBLISH (R264). -/
def execHeartbeatPublish (t : Nat) (s : State) : Host.Outcome State Fault Refusal :=
  let s := tick s t
  .next (if !hbEn s || !s.exl.paired || !logicOn s || s.exl.hbAt.any (fun u => decide (s.now < u + hbPeriod s)) then s
    else
      let seq := (s.exl.hbSeq + 1) % 2 ^ 32
      let f := fld (b2n s.exl.claim) 23 1 + fld (b2n s.exl.ackClaim) 22 1 + fld (b2n s.exl.tookOver) 21 1 + fld (b2n s.exl.fenced) 20 1
        + fld (b2n (!(subsUp s).isEmpty)) 19 1 + fld s.exl.hbPeerSeq 0 16
      let w := [seq, s.exl.epoch % 2 ^ 32, f]
      let w := (w ++ [hbTag s w]).map (BitVec.ofNat 32)
      emit { s with exl := { s.exl with hbSeq := seq, hbOut := w, hbAt := some s.now } } (.heartbeat w))

/-- CLAIM_TIMEOUT (R265): the fourth row of Table 8.10. -/
def execClaimTimeout (t : Nat) (s : State) : Host.Outcome State Fault Refusal :=
  let s := tick s t
  .next (match s.exl.lossAt with
    | some u =>
      if failoverOn s && failoverHw s && u + claimUs s ≤ s.now && !s.exl.claimAcked && s.exl.peerSince && !s.exl.tookOver then
        fenceAllots s (servedHere s) else s
    | none => s)

/-- TAKEOVER_TIMEOUT (R265): the fifth row of Table 8.10. -/
def execTakeoverTimeout (t : Nat) (s : State) : Host.Outcome State Fault Refusal :=
  let s := tick s t
  .next (match s.exl.lossAt with
    | some u =>
      if failoverOn s && failoverHw s && u + takeoverUs s ≤ s.now && !s.exl.peerSince && !s.exl.ackClaim then takeOver s (peerReady s) else s
    | none => s)

/-! ### The peer's harvest (R255) -/

/-- The harvesting peer's allotments are taken over once its last records are accepted. -/
def judgeTake (s : State) : State :=
  let all := (subsUp s).all (fun k => match (tgetD s.exl.subs k {}).through with
    | some n => decide (n ≤ (tgetD s.exl.subs k {}).accepted)
    | none => false)
  if s.exl.peerHarvest && all && cfg s rExlCfg 30 1 == 1 && !s.ldg.closed && serving s && !(peerReady s).isEmpty then takeOver s (peerReady s)
  else s

/-- The peer has taken a cut: it takes no part in this unit's writes any more. -/
def peerCut (s : State) (sub through : Nat) : State :=
  if s.ldg.closed then s
  else
    let s := modSub s sub (fun x => { x with through := some through })
    let s := releaseWithheld { s with exl := { s.exl with peerHarvest := true } }
    retryHeld (judgeTake (judgeService s))

/-! ### Link loss (R263) -/

/-- The link of an open session is lost: the session ends, hosts are told, completions are withheld where a heartbeat is
present, and changes under way end as R101 and R256 state. -/
def linkLost (s : State) : State :=
  if !s.exl.session then s
  else
    let hold := hbPresent s && !s.exl.peerHarvest
    let hb := hbPresent s
    let mine := s.exl.txs.filter (fun x => x.mine && x.phase < 2)
    let cmps := s.exl.compares.map (·.epoch)
    let s := { s with exl := { s.exl with
      session := false, claim := true, ackClaim := false, claimAcked := false, lossAt := some s.now, hbAtLoss := hb, peerSince := false,
      peerFenced := false, peerClaim := false, withholding := hold,
      withheld := s.exl.withheld.map (fun w => if w.accepted then w else { w with withheld := true }),
      txs := s.exl.txs.map (fun x => if !x.mine && x.phase < 2 then { x with phase := 4 } else x), drafts := [],
      rekey := none, resyncOn := false, resyncQ := [], crcCuts := [], matched := [], flushes := [], room := 0, roomSent := none,
      peerStage := 0 }, drp := { s.drp with twinBound := false } }
    let s := mine.foldl (fun s x => abortTx s x 0) s
    let s := cmps.foldl abandonCompare s
    let s := (mirroredIds s).foldl (fun s id => tellHosts s id 1) s
    let s := if hold then s else releaseWithheld s
    let s := if s.exl.peerHarvest && cfg s rExlCfg 30 1 == 1 && !s.ldg.closed && serving s then takeOver s (peerReady s) else s
    retryHeld (judgeService s)

/-! ### STATE and the resync source (R269, Table 8.12) -/

/-- The copy here is STALE. -/
def staleHere (s : State) (id : Nat) : Bool := match allotOf s id with | some a => a.st == .stale | none => false

/-- STATE entries of allotments: ID, MGEN, flags. -/
def stateEntries (s : State) (ids : List Nat) : List (Nat × Nat × Nat) :=
  ids.map (fun id =>
    (id, mgenOf s id, b2n (match allotOf s id with | some a => a.serving | none => false) + 2 * b2n (tgetD s.allotx.complete id false)
      + 4 * b2n (!staleHere s id)))

/-- Sends STATE for allotments, at most 22 entries a message; an empty list is one empty message. -/
def sendState (s : State) (ids : List Nat) : State :=
  let l := stateEntries s ids
  (List.range (max 1 (cdiv l.length 22))).foldl (fun s i =>
    sendLow s 0x15 (((l.drop (22 * i)).take 22).flatMap (fun e => [e.1, e.2.1, e.2.2]))) s

/-- Data-flit payload of the sublinks that are UP, MB/s (R249). -/
def payloadRate (s : State) : Nat := 102535 * (subsUp s).length

/-- RESYNC_MAX_PCT in force. -/
def resyncPct (s : State) : Nat := clamp 5 100 (cfg s rExlCfg 16 8)

/-- The resync rate: the owner's, or the share under contention with mirrored host writes, or all free payload (R271). -/
def paceResync (s : State) (busy : Bool) : State :=
  let r := match s.exl.resyncHost with
    | some x => x
    | none => if busy then payloadRate s * resyncPct s / 100 else payloadRate s
  { s with exl := { s.exl with resyncRate := if s.exl.resyncOn && !s.exl.resyncPaused then r else 0, resyncFrom := s.now, resyncSent := 0 } }

/-- Sets the resync source of an allotment: 0 none, 1 this unit, 2 the peer. -/
def setResyncSource (s : State) (id k : Nat) : State :=
  let on := fun (s : State) => s.allotx.source.any (fun p => p.2 != 0)
  let s := { s with allotx := { s.allotx with source := tset s.allotx.source id k },
                    exl := { s.exl with matched := s.exl.matched.filter (fun m => m.1 != id) } }
  let was := s.exl.resyncOn
  let s := { s with exl := { s.exl with resyncOn := on s } }
  if was == on s then s else paceResync s false

/-- Resync source of an allotment. -/
def sourceOf (s : State) (id : Nat) : Nat := tgetD s.allotx.source id 0

/-- An allotment leaves STALE here (R270, Table 3.5). -/
def exitStale (s : State) (id : Nat) : State :=
  match allotOf s id with
  | none => s
  | some a =>
    if a.st != .stale then s
    else
      let s := setAllot s id { a with st := if s.hrv.replant && unrestored s a then .replanting else .ready }
      let s := { s with allotx := { s.allotx with complete := tset s.allotx.complete id true } }
      tellHosts s id 6

/-- The first row of Table 8.12 that applies: 0 none, 1 this unit, 2 the peer; 3 where both copies stand. -/
def chooseSource (mineStale mineComplete mineServed : Bool) (mineGen : Nat) (p : PeerAllot) : Nat :=
  if !mineStale && p.inStep then 3
  else if !mineStale then 1
  else if p.inStep then 2
  else if mineComplete && p.complete then
    if mineGen == p.mgen then (if mineServed then 1 else 2) else if p.mgen < mineGen then 1 else 2
  else if mineComplete then 1
  else if p.complete then 2
  else 0

/-- Chooses the source of an allotment by Table 8.12. A source that neither unit serves leaves STALE and begins serving. -/
def takeSource (s : State) (id : Nat) (p : PeerAllot) : State :=
  match allotOf s id with
  | none => s
  | some a =>
    if !a.mirrored then s
    else match chooseSource (a.st == .stale) (tgetD s.allotx.complete id false) (tgetD s.allotx.servedAt id false) (mgenOf s id) p with
    | 1 =>
      let s := if a.st == .stale then exitStale s id else s
      let s := if !a.serving && !p.serving then
          let s := modAllot s id (fun a => { a with serving := true })
          offerAllot { s with allotx := { s.allotx with servedAt := tset s.allotx.servedAt id true } } id
        else s
      setResyncSource s id 1
    | 2 =>
      let s := modAllot s id (fun a => { a with serving := false })
      let x := { s.allotx with mgen := tset s.allotx.mgen id (max (mgenOf s id) p.mgen) }
      setResyncSource { s with allotx := { x with servedAt := tset x.servedAt id false } } id 2
    | 0 => setResyncSource s id 0
    | _ => setResyncSource s id 0

/-- A hand-over takes effect at its tick: this unit stops serving the allotment, or begins to (R268). -/
def applyHandover (s : State) (t : TableTx) : State :=
  let s := { s with exl := { s.exl with txs := s.exl.txs.filter (fun u => !(u.id == t.id && u.mine == t.mine)) } }
  let id := t.allot
  let m := mgenOf s id + 1
  let s := { s with allotx := { s.allotx with mgen := tset s.allotx.mgen id m, servedAt := tset s.allotx.servedAt id (!t.mine) } }
  let p := tgetD s.exl.peerState id {}
  let s := { s with exl := { s.exl with peerState := tset s.exl.peerState id { p with mgen := m, serving := t.mine } } }
  let s := modAllot s id (fun a => { a with serving := !t.mine, bindings := a.bindings.map (fun b => { b with accepted := [], released := [], offered := 0 }) })
  if t.mine then
    let s := tellHosts (dropHandover s id) id 4
    match t.cmd with
    | some c => (match jobOf s c with
      | .handover e n mg => judgeHandover (setJob s c (.handover e (n + 1) (max mg m))) c
      | _ => s)
    | none => s
  else tellHosts (offerAllot s id) id 4

/-- The change of an exchange at its tick. An entry the peer's STATE of this session lists and this unit lacked is STALE here
and resyncs from the peer (R236, R269). -/
def applyAt (s : State) (t : TableTx) : State :=
  match t.kind with
  | .handover => applyHandover s t
  | .entry =>
    (match (allotOf s t.allot).isNone && !t.mine, tget s.exl.peerState t.allot with
    | true, some p =>
      let s := modAllot (applyTx s t) t.allot (fun a => { a with st := .stale, serving := false })
      let x := { s.allotx with complete := tset s.allotx.complete t.allot false }
      let x := { x with servedAt := tset x.servedAt t.allot false, mgen := tset x.mgen t.allot p.mgen }
      setResyncSource { s with allotx := x } t.allot 2
    | _, _ =>
      let old := (allotOf s t.allot).isSome
      let s := applyTx s t
      if t.mine && old && (tget s.exl.peerState t.allot).isNone then
        let ps : PeerAllot := { mgen := mgenOf s t.allot }
        setResyncSource { s with exl := { s.exl with peerState := tset s.exl.peerState t.allot ps } } t.allot 1
      else s)
  | _ => applyTx s t

/-- Changes of the peer that were prepared when the link was lost learn their outcome from its STATE (R256; log entry
51). `last`: the message ends the list. -/
def resolvePending (s : State) (l : List (Nat × Nat × Nat)) (last : Bool) : State :=
  (s.exl.txs.filter (fun t => !t.mine && t.phase == 4)).foldl (fun s t =>
    let listed := l.any (fun e => e.1 == t.allot)
    let drop := { s with exl := { s.exl with txs := s.exl.txs.filter (fun u => !(u.id == t.id && !u.mine)) } }
    if !listed && !last then s
    else match t.kind with
      | .delete => if listed then drop else applyTx s t
      | .entry => if listed && (allotOf s t.allot).isNone then applyAt s t else drop
      | .reserve | .unreserve => applyTx s t
      | _ => drop) s

/-- What this unit owes the peer from times without a session: changes made alone, entries the peer lacks, reservations to
free (R101, R236). -/
def payOwed (s : State) : State :=
  let s := (s.alt.tab.filter (fun p => p.2.mirrored && p.2.st != .deleting
      && (p.2.peerDirty || (p.2.serving && (tget s.exl.peerState p.1).isNone)))).foldl (fun s p =>
    if txPending s p.1 then s else startTx s .entry p.1 p.2 none true 0) s
  s.alt.owedFree.foldl (fun s id => if txPending s id then s else startTx s .unreserve id {} none false 0) s

/-- STATE arrives: the peer's entries are noted and the sources chosen (R269). -/
def onState (s : State) (l : List (Nat × Nat × Nat)) : State :=
  let last := decide (l.length < 22)
  let s := l.foldl (fun s e =>
    let p : PeerAllot := { mgen := e.2.1, serving := bit e.2.2 0, complete := bit e.2.2 1, inStep := bit e.2.2 2 }
    { s with exl := { s.exl with peerState := tset s.exl.peerState e.1 p } }) s
  let s := resolvePending s l last
  let s := l.foldl (fun s e => takeSource s e.1 (tgetD s.exl.peerState e.1 {})) s
  let s := if last then payOwed s else s
  judgeService s

/-! ### Tallies and comparison (R259–R262) -/

/-- The mixing function of R259. -/
def mix (x : Nat) : Nat :=
  let m := 2 ^ 64
  let x := x ^^^ (x / 2 ^ 30)
  let x := x * 0xBF58476D1CE4E5B9 % m
  let x := x ^^^ (x / 2 ^ 27)
  let x := x * 0x94D049BB133111EB % m
  x ^^^ (x / 2 ^ 31)

/-- h(g, c). -/
def tallyTerm (g c : Nat) : Nat := mix (c ^^^ mix g)

/-- The tally of a region: the sum over its granules, modulo 2^64 (R259). -/
def regionTally (s : State) (r : Nat) : BitVec 64 :=
  BitVec.ofNat 64 ((List.range 65536).foldl (fun a i => (a + tallyTerm (65536 * r + i) (granCrc s (65536 * r + i))) % 2 ^ 64) 0)

/-- A region whose partials are complete: nothing of it waits for a restore or a rebuild (R135). -/
def comparable (s : State) (r : Nat) : Bool :=
  !s.hrv.todo.any (fun g => granRegion g == r) && !s.mem.rebuildWaits.any (fun g => granRegion g == r)
    && s.ddrs.ch.all (fun p => match p.2.rebuild with | some g => granRegion g != r | none => true)

/-- The lowest epoch at or above the current one + 4 that no announced comparison holds (Table 8.8). -/
def nextEpoch (s : State) : Nat :=
  let held := fun (e : Nat) => s.exl.compares.any (fun c => c.epoch == e)
  ((List.range (s.exl.compares.length + 1)).map (fun i => s.exl.epoch + 4 + i)).find? (fun e => !held e) |>.getD (s.exl.epoch + 4)

/-- Announces a comparison (R260). -/
def announce (s : State) (e first count : Nat) (cmd : Option Nat) : State :=
  let c : Compare := { epoch := e, first := first, count := count, cmd := cmd }
  sendLow { s with exl := { s.exl with compares := s.exl.compares ++ [c] } } 0x16 [e, first, count]

/-- Result of a region of a comparison, once known. -/
def compareResult (c : Compare) (r : Nat) : Option Nat :=
  match tget c.result r, tget c.mine r, tget c.peer r with
  | some x, _, _ => some x
  | none, some a, some b => some (if a == b then 0 else 1)
  | none, _, _ => none

/-- Regions of an allotment. -/
def regionsOf (a : Allot) : List Nat := (a.extents.map (· / 4)).foldl sins []

/-- Regions of an allotment not yet matched in the resync under way. -/
def unmatched (s : State) (id : Nat) : List Nat :=
  match allotOf s id with
  | some a => (regionsOf a).filter (fun r => !s.exl.matched.contains (id, r))
  | none => []

/-- Allotments held MIRRORED with an extent in a region. -/
def allotsIn (s : State) (r : Nat) : List Nat :=
  (s.alt.tab.filter (fun p => p.2.mirrored && p.2.extents.any (fun e => e / 4 == r))).map (·.1)

/-- A region matched: the resync of its allotments goes on, and ends with their last region (R270). -/
def regionMatched (s : State) (r : Nat) : State :=
  (allotsIn s r).foldl (fun s id =>
    if sourceOf s id == 0 then s
    else
      let s := { s with exl := { s.exl with matched := if s.exl.matched.contains (id, r) then s.exl.matched else (id, r) :: s.exl.matched } }
      if !(unmatched s id).isEmpty then s
      else
        let s := if sourceOf s id == 2 then exitStale s id else s
        let p := tgetD s.exl.peerState id {}
        let s := { s with exl := { s.exl with peerState := tset s.exl.peerState id { p with inStep := true, complete := true } } }
        judgeService (setResyncSource s id 0)) s

/-- The target of a resync sends the CRC entries of a region (R270). -/
def sendCrcs (s : State) (r : Nat) : State :=
  (List.range (cdiv 65536 30)).foldl (fun s i =>
    let g := 65536 * r + 30 * i
    let m := min 30 (65536 - 30 * i)
    sendLow s 0x08 ([g, m] ++ (List.range m).map (fun j => granCrc s (g + j)))) s

/-- The target of a resync issues a region's CRC exchange as a cutting: the epoch of its comparison, the region, 1 (R270, R272). -/
def issueCrcs (s : State) (e r : Nat) : State :=
  newCutting { s with exl := { s.exl with crcCuts := tset s.exl.crcCuts s.tin.nextN r } } 5 e r 1 .drip true

/-- A region differed: during a resync the target sends its CRC entries; between copies in step it is TALLY_MISMATCH, and the
copy not served becomes STALE (R261). -/
def regionDiffers (s : State) (e r : Nat) : State :=
  let ids := allotsIn s r
  let s := if ids.any (fun id => sourceOf s id == 2) then issueCrcs s e r else s
  let bad := ids.filter (fun id => sourceOf s id == 0)
  if bad.isEmpty then s
  else
    let s := raise s 0x167 r
    judgeService (bad.foldl (fun s id =>
      match allotOf s id with
      | some a =>
        if a.serving then
          let p := tgetD s.exl.peerState id {}
          setResyncSource { s with exl := { s.exl with peerState := tset s.exl.peerState id { p with inStep := false } } } id 1
        else setResyncSource (makeStale s id) id 2
      | none => s) s)

/-- The 24 bytes of a region in the output of TALLY_COMPARE (R262). Regions without an extent of a named allotment read 3. -/
def regionBytes (s : State) (c : Compare) (id r : Nat) : List Byte :=
  let named := if id == 0xFFFF then true else
    match allotOf s id with | some a => a.extents.any (fun e => e / 4 == r) | none => false
  let k := if named then (compareResult c r).getD 2 else 3
  le r 4 ++ le k 1 ++ zeros 3 ++ le (tgetD c.mine r 0#64).toNat 8 ++ le (tgetD c.peer r 0#64).toNat 8

/-- A comparison whose every region has its result ends: its command with the results, and the copies are judged. -/
def endCompare (s : State) (c : Compare) : State :=
  let rs := (List.range c.count).map (c.first + ·)
  let s := { s with exl := { s.exl with compares := s.exl.compares.filter (fun d => d.epoch != c.epoch) } }
  let s := match c.cmd.bind (inflight s) with
    | some f =>
      let out := rs.flatMap (regionBytes s c f.cmd.allot)
      let n := fun (k : Nat) => (rs.filter (fun r => rd (regionBytes s c f.cmd.allot r) 4 1 == k)).length
      endOut s f.id (le (n 0) 4 ++ le (n 1) 4 ++ le c.epoch 8) (padTo out f.cmd.payLen)
    | none => s
  rs.foldl (fun s r => match compareResult c r with
    | some 0 => regionMatched s r
    | some 1 => regionDiffers s c.epoch r
    | _ => s) s

/-- Comparisons with every result known end. -/
def judgeCompares (s : State) : State :=
  s.exl.compares.foldl (fun s c =>
    if c.done && c.cutN.isNone && (List.range c.count).all (fun i => (compareResult c (c.first + i)).isSome) then endCompare s c else s) s

/-- Captures the tallies of a comparison once its tick has passed, CUT_MARK has arrived on every sublink that is UP, and every
earlier record is applied; what it held is then applied, and its cutting is issued (R260, R272). -/
def capture (s : State) : State :=
  match s.exl.compares.find? (fun c => c.marked && !c.done) with
  | none => s
  | some c =>
    let ready := !(subsUp s).isEmpty && (subsUp s).all (fun k =>
      (tgetD s.exl.subs k {}).marked == some c.epoch && (tgetD s.exl.subs k {}).ahead == 0)
    if !ready then s
    else
      let rs := (List.range c.count).map (c.first + ·)
      let take := rs.filter (fun r => mirrorRegion s r && comparable s r)
      let mine := take.map (fun r => (r, regionTally s r))
      let res := rs.foldl (fun m r => if take.contains r then m else tset m r (if mirrorRegion s r then 2 else 3)) []
      let c' := { c with done := true, mine := mine, result := res, cutN := some s.tin.nextN }
      let s := { s with exl := { s.exl with compares := s.exl.compares.map (fun d => if d.epoch == c.epoch then c' else d) } }
      drainSubs (releaseHeld (newCutting s 5 c.epoch c.first c.count .drip true))

/-- Changes the comparison whose cutting is `n`. -/
def modCompare (s : State) (n : Nat) (f : Compare → Compare) : State :=
  { s with exl := { s.exl with compares := s.exl.compares.map (fun c => if c.cutN == some n then f c else c) } }

/-- A comparison cutting has run: the tallies of its captured regions go to the peer, or the CRC entries of its region
(R261, R270). -/
def comparisonEnds (s : State) (n : Nat) : State :=
  match tget s.exl.crcCuts n with
  | some r => sendCrcs { s with exl := { s.exl with crcCuts := tdel s.exl.crcCuts n } } r
  | none =>
    match s.exl.compares.find? (fun c => c.cutN == some n) with
    | none => s
    | some c =>
      judgeCompares (c.mine.foldl (fun s p => sendLow s 0x07 [c.epoch, p.1, p.2.toNat]) (modCompare s n (fun c => { c with cutN := none })))

/-- A comparison cutting that failed on three tines: its regions are NOT_COMPARABLE (Table 9.1). -/
def comparisonFails (s : State) (n : Nat) : State :=
  judgeCompares (modCompare { s with exl := { s.exl with crcCuts := tdel s.exl.crcCuts n } } n (fun c =>
    { c with cutN := none, result := (List.range c.count).foldl (fun m i =>
        if (tget m (c.first + i)).isSome then m else tset m (c.first + i) 2) c.result }))

/-- COMPARE_CAPTURE_TIMEOUT (R260): a comparison not captured within 50 µs of tick `e` is abandoned; regions whose tally the
peer never sent are NOT_COMPARABLE too (log entry 58). -/
def execCompareCaptureTimeout (e t : Nat) (s : State) : Host.Outcome State Fault Refusal :=
  let s := tick s t
  .next (match s.exl.compares.find? (fun c => c.epoch == e && c.marked && decide (c.tickAt + 50 ≤ s.now)) with
    | none => s
    | some c =>
      let s := if c.done then s else abandonCompare s e
      let s := { s with exl := { s.exl with compares := s.exl.compares.map (fun (d : Compare) =>
        if d.epoch == e then
          { d with result := (List.range d.count).foldl (fun m i =>
              if (compareResult d (d.first + i)).isSome then m else tset m (d.first + i) 2) d.result }
        else d) } }
      judgeCompares s)

/-- COMPARE_SCHEDULE (R261): in step, at most once a second, the leader announces the next run of at most 64 regions that begins with a mirror region
holding a MIRRORED extent. -/
def execCompareSchedule (t : Nat) (s : State) : Host.Outcome State Fault Refusal :=
  let s := tick s t
  .next (if !inStep s || !leads s || !loopDue s true 4 1000000 10000000 then s
    else
      let rs := ((s.alt.tab.filter (fun p => p.2.mirrored)).flatMap (fun p => regionsOf p.2)).foldl sins []
      let rs := rs.filter (mirrorRegion s)
      match (rs.filter (s.exl.cursor ≤ ·) ++ rs).head? with
      | none => s
      | some r =>
        let lastR := (rs.filter (fun x => r ≤ x && x < r + 64)).foldl max r
        announce (loopRan { s with exl := { s.exl with cursor := lastR + 1 } } 4) (nextEpoch s) r (lastR + 1 - r) none)

/-- TALLY_COMPARE (R262). -/
def cmdTallyCompare (f : InFlight) (s : State) : State :=
  let c := f.cmd
  let n := pNum c 28 2
  let e := if pNum c 32 8 == 0 then nextEpoch s else pNum c 32 8
  if n == 0 || 64 < n then badParam s f.id 28
  else if c.payLen < 24 * n then badParam s f.id 0x40
  else if c.allot != 0xFFFF && (allotOf s c.allot).isNone then badParam s f.id 8
  else if !s.exl.session || s.exl.peerHarvest || s.ldg.closed then conflict s f.id 0x13
  else if e < s.exl.epoch + 4 then badParam s f.id 32
  else if s.exl.compares.any (fun d => d.epoch == e) then conflict s f.id 0x13
  else setJob (announce s e (pNum c 24 4) n (some f.id)) f.id (.compare e)

/-- TALLY_COMPARE as a packet. -/
def execTallyCompare (c : TrellisCmd) (s : State) : Host.Outcome State Fault Refusal := .next (submit cmdTallyCompare 0x0304 c s)

/-! ### Resync (R270, R271) -/

/-- Allotments that resync here as the target, in the order of R187. -/
def targets (s : State) : List Nat := (rankedAllots s).filter (fun id => sourceOf s id == 2 && staleHere s id)

/-- Unmatched regions of an allotment in the order of R270: the owner's ranges first. -/
def regionOrder (s : State) (id : Nat) : List Nat :=
  let first := s.hrv.ranges.flatMap (fun x => if x.1 == id then
    (match allotOf s id with | some a => (allotGrans a x.2.1 x.2.2).map granRegion | none => []) else [])
  let un := unmatched s id
  let first := first.foldl (fun l r => if l.contains r || !un.contains r then l else l ++ [r]) []
  first ++ un.filter (fun r => !first.contains r)

/-- The target announces the comparison of its next region, once restored, with no other of its comparisons under way. -/
def resyncAnnounce (s : State) : State :=
  let busy := s.exl.compares.any (fun c => c.count == 1 && c.cmd.isNone) || !s.exl.crcCuts.isEmpty
  let granted := (subsUp s).all (fun k => (tgetD s.exl.subs k {}).given)
  if !s.exl.session || s.exl.resyncPaused || busy || !granted || s.ldg.closed then s
  else match (targets s).findSome? (fun id => ((regionOrder s id).find? (comparable s))) with
    | some r => announce s (nextEpoch s) r 1 none
    | none => s

/-- Payload of a granule's 256 full-line records, bytes (R251). -/
def resyncGranBytes : Nat := 17664

/-- The resync rate lets another granule go out (R271). -/
def resyncDue (s : State) : Bool := decide (s.exl.resyncSent ≤ s.exl.resyncRate * (s.now - s.exl.resyncFrom))

/-- The next granule of a resync may go out: there is credit and room (R252, R254), and the rate allows it. -/
def resyncReady (s : State) (g : Nat) : Bool :=
  mirrorOn s && !s.exl.resyncPaused && !s.ldg.closed && (s.exl.twinDirty.contains g || decide (1 ≤ s.exl.room))
    && (subsUp s).all (fun k => decide (256 ≤ (subl s k).credit)) && !s.hrv.todo.contains g && resyncDue s

/-- Up to `n` granules of a resync go out, as 256 records each at ledger positions of their lines; the source does not apply
them (R270). -/
def resyncPump (s : State) (n : Nat) : State :=
  match n, s.exl.resyncQ with
  | n + 1, g :: rest =>
    if !resyncReady s g then s
    else
      let s := { s with exl := { s.exl with
        resyncQ := rest, resyncCopied := s.exl.resyncCopied + 1, resyncSent := s.exl.resyncSent + resyncGranBytes } }
      resyncPump ((List.range 256).foldl (fun s i =>
        let l := 256 * g + i
        let v := readLine s l
        let (s, seq) := position s l
        let slice := sliceOf l
        sendRecord s (subOf s slice) { line := l, data := v.1, enables := BitVec.allOnes 64, poison := v.2,
                                       p := !s.exl.twinDirty.contains g, slice := slice, seq := seq }) s) n
  | _, _ => s

/-- RESYNC_PACING (R271, Table 9.4): `busy`: mirrored host writes contend. With both pairs down the hardware keeps the rate at
RESYNC_MAX_PCT. -/
def execResyncPacing (busy : Bool) (t : Nat) (s : State) : Host.Outcome State Fault Refusal :=
  let s := tick s t
  .next (if bothDown s then paceResync s true
    else if loopDue s false 6 1000 10000 then paceResync (loopRan s 6) busy
    else s)

/-- RESYNC_PAUSE_END (R271): 30 min after the pause began. -/
def execResyncPauseEnd (t : Nat) (s : State) : Host.Outcome State Fault Refusal :=
  let s := tick s t
  .next (if !s.exl.resyncPaused || s.now < s.exl.pausedAt + 1800000000 then s
    else paceResync { s with exl := { s.exl with resyncPaused := false } } false)

/-- Regions not yet matched. -/
def regionsLeft (s : State) : Nat :=
  (mirroredIds s).foldl (fun n id => if sourceOf s id == 0 then n else n + (unmatched s id).length) 0

/-- Result of RESYNC. -/
def resyncResult (s : State) : List Byte := le (regionsLeft s) 4 ++ le s.exl.resyncCopied 4 ++ le s.exl.resyncRate 4

/-- RESYNC (R271). -/
def cmdResync (f : InFlight) (s : State) : State :=
  let c := f.cmd
  let go := fun (s : State) => endOk s f.id (resyncResult s)
  match pByte c 24 with
  | 0 =>
    if !s.exl.session then conflict s f.id 0x13
    else if !s.exl.resyncOn then conflict s f.id 0x16
    else go (paceResync { s with exl := { s.exl with resyncPaused := false, resyncHost := none } } false)
  | 1 =>
    if !owns s c.est 9 then endWith s f.id 0x05 0x05
    else
      let s := assistInput { s with exl := { s.exl with resyncHost := some (clamp 100 400000 (pNum c 28 4)) } } 9
      go (paceResync s false)
  | 2 =>
    if issClass c.est == 0 then endWith s f.id 0x05 0x02
    else go (paceResync { s with exl := { s.exl with resyncPaused := true, pausedAt := s.now } } false)
  | 3 =>
    (match allotOf s c.allot with
    | none => badParam s f.id 8
    | some a =>
      if a.st == .deleting then conflict s f.id 0x11
      else if !s.exl.session then conflict s f.id 0x13
      else if !a.mirrored || a.st != .stale || sourceOf s c.allot != 0 || (tgetD s.exl.peerState c.allot {}).inStep then conflict s f.id 0x16
      else
        let id := c.allot
        let s := { s with allotx := { s.allotx with mgen := tset s.allotx.mgen id (mgenOf s id + 1),
                                                    servedAt := tset s.allotx.servedAt id true } }
        let s := modAllot (exitStale s id) id (fun a => { a with serving := true })
        go (sendState (setResyncSource (offerAllot s id) id 1) [id]))
  | _ => badParam s f.id 24

/-- RESYNC as a packet. -/
def execResync (c : TrellisCmd) (s : State) : Host.Outcome State Fault Refusal := .next (submit cmdResync 0x0303 c s)

/-! ### FAILOVER (R268) -/

/-- Allotments a FAILOVER names that satisfy `p`. -/
def named (s : State) (id : Nat) (p : Allot → Bool) : List Nat :=
  (s.alt.tab.filter (fun q => (id == 0xFFFF || q.1 == id) && q.2.mirrored && q.2.st != .deleting && p q.2)).map (·.1)

/-- Result of FAILOVER for the allotments changed. -/
def failoverResult (s : State) (id : Nat) (ids : List Nat) : List Byte :=
  le ids.length 4 ++ le (if id == 0xFFFF then (ids.map (mgenOf s)).foldl max 0 else mgenOf s id) 8

/-- FAILOVER (R268). -/
def cmdFailover (f : InFlight) (s : State) : State :=
  let c := f.cmd
  let id := c.allot
  let force := pByte c 25 == 1
  let lost := (subsUp s).isEmpty && !s.exl.session
  let quiet := match s.exl.hbPeerAt with | some u => decide (u + takeoverUs s ≤ s.now) | none => true
  let bad := id != 0xFFFF && (match allotOf s id with | some a => !a.mirrored | none => true)
  let is := fun (p : Allot → Bool) => id != 0xFFFF && (match allotOf s id with | some a => p a | none => false)
  let go := fun (s : State) (ids : List Nat) => endOk s f.id (failoverResult s id ids)
  if 3 < pByte c 24 then badParam s f.id 24
  else if 1 < pByte c 25 then badParam s f.id 25
  else if is (fun a => a.reservation) then conflict s f.id 0x15
  else if is (fun a => a.st == .deleting) then conflict s f.id 0x11
  else if bad then badParam s f.id 8
  else match pByte c 24 with
  | 0 =>
    let ids := named s id (fun a => !a.serving && (force || a.st != .stale))
    if !lost || (id != 0xFFFF && ids.isEmpty && staleHere s id) then conflict s f.id 0x15
    else if !force && !(s.exl.peerFenced || (quiet && !s.exl.ackClaim)) then conflict s f.id 0x15
    else go (retryHeld (takeOver s ids)) ids
  | 1 =>
    let e := if pNum c 32 8 == 0 then s.exl.epoch + 100 else pNum c 32 8
    let ids := (named s id (fun a => a.serving)).filter (fun i => !txPending s i)
    if !inStep s then conflict s f.id 0x13
    else if e < s.exl.epoch + 2 then badParam s f.id 32
    else if ids.isEmpty then go s []
    else
      let s := setJob s f.id (.handover e 0 0)
      ids.foldl (fun s i =>
        match allotOf s i with
        | none => s
        | some a =>
          let s := startTx s .handover i { a with serving := false } none false 0
          { s with exl := { s.exl with
            handovers := s.exl.handovers ++ [(i, e, f.id)],
            txs := s.exl.txs.map (fun t => if t.mine && t.allot == i then { t with epoch := e, cmd := some f.id } else t) } }) s
  | 2 =>
    if !s.exl.peerClaim || s.exl.tookOver then conflict s f.id 0x15
    else
      let ids := named s id (fun a => !a.serving && a.st != .stale)
      go (ackPeer s ids) ids
  | _ =>
    let ids := named s id (fun a => a.serving)
    go (retryHeld (judgeService (fenceAllots s ids))) ids

/-- FAILOVER as a packet. -/
def execFailover (c : TrellisCmd) (s : State) : Host.Outcome State Fault Refusal := .next (submit cmdFailover 0x0302 c s)

/-! ### The pair epoch (R258) -/

/-- Comparisons whose tick has come: CUT_MARK goes out, and writes to their regions are held (R260). -/
def markCompares (s : State) : State :=
  s.exl.compares.foldl (fun s c =>
    if c.marked || s.exl.epoch < c.epoch then s
    else
      let s := sendEvery s 0x06 [c.epoch]
      { s with exl := { s.exl with compares := s.exl.compares.map (fun d => if d.epoch == c.epoch then { d with marked := true, tickAt := s.now } else d) } }) s

/-- PAIR_EPOCH_TICK (R258): 1 ms after the last tick, less the 0.1% of a slew, the count rises by one; the leader sends EPOCH; cut marks, commits, hand-overs and activations of
this tick take effect; the resync goes on. -/
def execPairEpochTick (t : Nat) (s : State) : Host.Outcome State Fault Refusal :=
  let s := tick s t
  .next (if !logicOn s || s.now < s.exl.epochAt + 999 then s
    else
      let s := { s with exl := { s.exl with epoch := (s.exl.epoch + 1) % 2 ^ 64, epochAt := s.now } }
      let s := if s.exl.session && leads s then sendLow s 0x05 [s.exl.epoch, 0] else s
      let s := capture (markCompares s)
      let s := (s.exl.txs.filter (fun x => x.phase == 2 && x.epoch ≤ s.exl.epoch)).foldl applyAt s
      let s := retryHeld (judgeService s)
      resyncAnnounce (activationTick s))

/-! ### UNPAIR (R237) -/

/-- UNPAIR (R237). -/
def cmdUnpair (f : InFlight) (s : State) : State :=
  let force := pByte f.cmd 24
  let ids := mirroredIds s
  if 1 < force then badParam s f.id 24
  else if !s.exl.paired then conflict s f.id 0x14
  else if force == 0 && !ids.isEmpty then conflict s f.id 0x12
  else
    let keep := ids.filter (fun id => match allotOf s id with | some a => a.serving | none => false)
    let gone := ids.filter (fun id => !keep.contains id)
    let open_ := s.exl.session
    let s := (s.exl.txs.filter (fun x => x.mine)).foldl (fun s x => abortTx s x 0) s
    let s := s.exl.compares.foldl (fun s c => abandonCompare s c.epoch) s
    let s := keep.foldl (fun s id => modAllot s id (fun a => { a with mirrored := false, homeTwin := false, peerDirty := false })) s
    let s := gone.foldl enterDeleting s
    let subs := if open_ then s.exl.subs.map (fun p => (p.1, ({ trains := p.2.trains, waitRetrain := true } : Sublink))) else s.exl.subs
    let s := { s with
      alt := { s.alt with tab := s.alt.tab.filter (fun p => !p.2.reservation), owedFree := [] },
      exl := { s.exl with
        paired := false, peerRec := 0, secret := 0, reserved := [], session := false, txs := [], subs := subs,
        link := if open_ then 0 else s.exl.link, peerState := [], resyncOn := false, resyncQ := [], matched := [], flushes := [],
        peerHarvest := false, twinDirty := [], room := 0, lossAt := none, claim := false, rekey := none, hello := none } }
    let s := pairWrite s 1
    let s := judgeCompares s
    let s := endOk (releaseWithheld s) f.id (le keep.length 4 ++ le gone.length 4)
    retryHeld (judgeService s)

/-- UNPAIR as a packet. -/
def execUnpair (c : TrellisCmd) (s : State) : Host.Outcome State Fault Refusal := .next (submit cmdUnpair 0x0301 c s)

end Sys2Proof.Machine
end

