-- ==== Sys2Proof/Machine/Exsor.lean ====
section
/-! DEFINITION. The Exsor link: sublink training, flits and their replay, integrity groups, keys, the control messages as
they arrive, and pairing (R235–R257). -/

namespace Sys2Proof.Machine

open Sys2Proof

/-! ### Sublinks (R241, R242) -/

/-- EXL_STATUS.LINK follows the sublinks and the session. -/
def judgeLink (s : State) : State :=
  let l := if s.exl.session then 3
    else if s.exl.subs.any (fun p => p.2.st == 6) then 2
    else if s.exl.subs.any (fun p => 1 ≤ p.2.st && p.2.st ≤ 5) then (if s.exl.link == 4 then 4 else 1)
    else if s.exl.link == 4 then 4 else 0
  { s with exl := { s.exl with link := l } }

/-- A sublink may train: present, enabled, the logic die configured. -/
def mayTrain (s : State) (k : Nat) : Bool :=
  decide (k < nSub s) && logicOn s && cfg s rExlCfg 31 1 == 1 && bit (cfg s rExlCfg 0 4) k

/-- A sublink begins to train; with more than 3 trainings in 60 s it is held down (R241). What a training starts from: SEQ at
0 and nothing in replay (log entry 13). -/
def trainSub (s : State) (k : Nat) : State :=
  let x := subl s k
  let recent := x.trains.filter (fun u => s.now < u + 60000000)
  let x := { x with waitRetrain := false, nextSeq := 0, expect := 0, replay := [], txq := [], replays := 0, good := 0, skipping := false, group := [] }
  if 3 ≤ recent.length then judgeLink (modSub s k (fun _ => { x with st := 7, stAt := s.now, trains := recent }))
  else
    judgeLink (bump (modSub s k (fun _ => { x with st := 1, stAt := s.now, trains := recent ++ [s.now] })) (rExlSublink0 + 4 * k) 16 5 1)

/-- DOWN sublinks that may train do so (Table 8.4). -/
def startTrainings (s : State) : State :=
  (List.range (nSub s)).foldl (fun s k => if (subl s k).st == 0 && !(subl s k).waitRetrain && mayTrain s k then trainSub s k else s) s

/-- A sublink's state moves on from `a` to `b`. -/
def advanceSub (s : State) (k a b : Nat) : State :=
  if (subl s k).st == a && k < nSub s then judgeLink (modSub s k (fun x => { x with st := b, stAt := s.now, goodAt := s.now })) else s

/-- A sublink returns to DOWN; training starts again 100 ms later. -/
def downSub (s : State) (k : Nat) : State :=
  judgeLink (modSub s k (fun x => { x with st := 0, stAt := s.now, waitRetrain := true, group := [], nextSeq := 0, expect := 0, replay := [], txq := [], replays := 0,
                                           good := 0, skipping := false }))

/-- Every sublink goes DOWN and the link is lost. -/
def linkDown (s : State) : State :=
  let s := (tkeys s.exl.subs).foldl downSub s
  judgeLink (linkLost s)

/-- A sublink in service is lost: it retrains, REHOME names it on a sublink still UP, and the link is lost with the last one
(R242). -/
def loseSub (s : State) (k : Nat) : State :=
  if (subl s k).st != 6 then s
  else
    let s := modSub s k (fun x => { x with st := 0, group := [] })
    let s := trainSub s k
    if (subsUp s).isEmpty then judgeLink (linkLost s)
    else if s.exl.session then sendLow s 0x0B [k, (subl s k).accepted] else s

/-- SUBLINK_SIGNAL_DETECT (R241). -/
def execSublinkSignalDetect (k t : Nat) (s : State) : Host.Outcome State Fault Refusal :=
  .next (advanceSub (startTrainings (tick s t)) k 1 2)

/-- SUBLINK_EQ_DONE (R241). -/
def execSublinkEqDone (k t : Nat) (s : State) : Host.Outcome State Fault Refusal := .next (advanceSub (tick s t) k 2 3)

/-- The markers of a sublink's 8 receive lanes name each lane of one sublink once, in any order (R239). -/
def lanesLock (lanes : List (Nat × Nat × Bool)) : Bool :=
  lanes.length == 8 && lanes.all (fun p => p.1 == (lanes.headD (0, 0, false)).1 && p.1 < 4)
    && (List.range 8).all (fun i => lanes.any (fun p => p.2.1 == i))

/-- SUBLINK_ALIGN_LOCK (R239, R241): the markers lock on every lane; `lanes` gives for each the sublink and lane its marker
names and whether its polarity is inverted. -/
def execSublinkAlignLock (k : Nat) (lanes : List (Nat × Nat × Bool)) (t : Nat) (s : State) : Host.Outcome State Fault Refusal :=
  let s := tick s t
  .next (if (subl s k).st != 3 || nSub s ≤ k || !lanesLock lanes then s
    else advanceSub (modSub s k (fun x => { x with order := lanes.map (·.2), peerSub := (lanes.headD (0, 0, false)).1 })) k 3 4)

/-- Firmware major version this unit presents. -/
def myMajor (s : State) : Nat := majorOf (fwVersion s)

/-- The content of a HELLO as numbers, and its 33 bytes (Table 8.7). -/
def helloBytes (m : HelloMsg) : List Byte :=
  le m.serial 8 ++ le m.group 2 ++ le m.part 2 ++ le m.major 1 ++ le m.sessNext 4 ++ padTo m.nonce 16

/-- The unit that acts as requester: the lower serial number (R236, R247). -/
def requester (s : State) : Bool :=
  match s.exl.hello with | some m => decide (Config.serial.toNat < m.serial) | none => leads s

/-- The session ID proposed: the higher of the two units' next values (R247). -/
def proposedId (s : State) : Nat := max s.exl.mine.sessNext (match s.exl.hello with | some m => m.sessNext | none => 0)

/-- PROOF: the CMAC of both HELLO messages, requester first, under the EXL-AUTH key of the proposed session (R247). -/
def proofMac (s : State) : List Byte :=
  match s.exl.hello with
  | none => []
  | some m =>
    let key := derive (pairSecret s) (label "EXL-AUTH" 0xFFFF 0 (le (proposedId s) 4)) [] 32
    let a := helloBytes s.exl.mine
    let b := helloBytes m
    bytes (cmac (nats key) (nats (if requester s then a ++ b else b ++ a)))

/-- At AUTH a sublink of a link without a session sends this unit's HELLO (R247). -/
def sendHello (s : State) (k : Nat) : State :=
  if s.exl.session then s
  else
    let m : HelloMsg := { serial := Config.serial.toNat, group := Config.groupId.toNat, part := s.fus.part, major := myMajor s,
                          sessNext := s.exl.sessNext, nonce := padTo (Config.helloNonce (drawn s)) 16 }
    let s := { drew s with exl := { s.exl with mine := m, proved := false } }
    sendMsg s k 0x10 ((helloBytes m).map (·.toNat))

/-- SUBLINK_SYNC_DONE (R241): the sublink enters AUTH. -/
def execSublinkSyncDone (k t : Nat) (s : State) : Host.Outcome State Fault Refusal :=
  let s := tick s t
  .next (if (subl s k).st == 4 && k < nSub s then sendHello (advanceSub s k 4 5) k else s)

/-! ### Opening a session (R247, R252, R258, R269) -/

/-- The first grants of a session: 8,192 records on each sublink, once this unit serves (R252). -/
def grantCredits (s : State) : State :=
  if !s.exl.session || !serving s || s.ldg.closed then s
  else
    (subsUp s).foldl (fun s k =>
      if (subl s k).given then s
      else sendMsg (modSub s k (fun x => { x with given := true, granted := 8192 })) k 0x02 [k, 8192]) s

/-- ROOM on every sublink that is UP (R254). -/
def sendRoom (s : State) : State :=
  if !s.exl.session || s.ldg.closed then s
  else
    let room : Int := (gateLimit s : Int) - (exposure s : Int)
    let th := (List.range 4).map (fun k => (subl s k).accepted)
    let s := { s with exl := { s.exl with roomSent := some (gateLimit s, s.drp.stage, admission s), roomAt := s.now } }
    sendEvery s 0x03 ([twos room 32, s.drp.stage, admission s] ++ th)

/-- ROOM goes out at once when the limit the gate applies, the stage or the admission mode has changed (R254). -/
def roomIfChanged (s : State) : State :=
  if s.exl.session && s.exl.roomSent != some (gateLimit s, s.drp.stage, admission s) then sendRoom s else s

/-- A session opens: counters start afresh, what the loss of the link left standing ends, allotments the peer served are STALE
here after an outage, and STATE goes out (R247, R254, R258, R269; log entry 55). -/
def openSession (s : State) : State :=
  let id := proposedId s
  let fresh := fun (x : Sublink) => ({ x with
    credit := 0, first := false, given := false, sent := 0, acked := 0, unacc := [], accepted := 0, granted := 0, pSent := [], marked := none,
    ahead := 0, through := none, txCount := 0, rxCount := 0, txKey := id, rxNewKey := false, rehome := false, group := [] } : Sublink)
  let peerEpoch := ((s.exl.epoch : Int) - s.exl.follow).toNat
  let outage := s.exl.lossAt.isSome
  let s := { s with exl := { s.exl with
    session := true, sessionId := BitVec.ofNat 32 id, sessNext := id + 1, sessionAt := s.now, rekey := none, rekeyFailAt := none, mustRekey := false,
    epoch := max s.exl.epoch peerEpoch + 1, subs := s.exl.subs.map (fun (p : Nat × Sublink) => (p.1, fresh p.2)), twinDirty := [], room := 0, roomSent := none,
    claim := false, ackClaim := false, claimAcked := false, tookOver := false, fenced := false, lossAt := none, hbAtLoss := false,
    peerSince := false, peerState := [], peerHarvest := false, peerSeal := none, drafts := [], sliceSub := [], err := 0, proved := false,
    resyncPaused := false, resyncQ := [], matched := [], compares := [], peerStage := 0 } }
  let s := { s with drp := { s.drp with twinBound := false }, allotx := { s.allotx with source := [] } }
  let s := if s.nvm.store.sessNext ≤ id then pairWrite s 1 else s
  let s := releaseWithheld s
  let s := if outage then (servedThere s).foldl makeStale s else s
  let s := sendState (judgeLink s) (mirroredIds s)
  retryHeld (judgeService (sendRoom (grantCredits s)))

/-- The checks of R235 and R247 on the peer's HELLO: 0, or the ERR_CODE. -/
def helloError (s : State) (m : HelloMsg) : Nat :=
  if m.group != Config.groupId.toNat then 1
  else if m.part != s.fus.part then 2
  else if m.major != myMajor s then 3
  else if s.exl.paired && s.exl.pairWait.isNone && m.serial != s.exl.peerRec then 8
  else if s.exl.paired && s.exl.pairWait.isNone && 2 ^ 32 ≤ max s.exl.mine.sessNext m.sessNext then 5
  else 0

/-- The session ID of the key this unit sends under (R248). -/
def keyNow (s : State) : Nat := match s.exl.rekey with | some (id, _) => id | none => s.exl.sessionId.toNat

/-- SUBLINK_AUTH_DONE (R247): the sublink joins the open session, opens it, or on an unpaired link comes UP alone. -/
def execSublinkAuthDone (k peerEpoch t : Nat) (s : State) : Host.Outcome State Fault Refusal :=
  let s := tick s t
  .next (if (subl s k).st != 5 || nSub s ≤ k then s
    else if s.exl.session then
      grantCredits (advanceSub (modSub s k (fun x => { x with credit := 0, granted := 0, given := false, rxNewKey := false, txCount := 0,
                                                              rxCount := 0, txKey := keyNow s })) k 5 6)
    else
      let s := { s with exl := { s.exl with follow := (s.exl.epoch : Int) - (peerEpoch : Int) } }
      match s.exl.hello with
      | none => s
      | some m =>
        let e := helloError s m
        if !s.exl.paired || s.exl.pairWait.isSome then advanceSub s k 5 6
        else if e == 0 && s.exl.proved then openSession (advanceSub s k 5 6)
        else { s with exl := { s.exl with err := if e == 0 then 4 else e } })

/-- Bound of a training state, µs (Table 8.4). -/
def stateBound : Nat → Nat
  | 2 => 200000 | 3 => 10000 | 4 => 1000 | _ => 100000

/-- SUBLINK_STATE_TIMEOUT (R241): a bounded state passes its bound. A paired peer that proved nothing is ERR_CODE 0x04; with
the session IDs exhausted the link stays in AUTH (R237, R247). -/
def execSublinkStateTimeout (k t : Nat) (s : State) : Host.Outcome State Fault Refusal :=
  let s := tick s t
  let x := subl s k
  .next (if x.st < 2 || 5 < x.st || nSub s ≤ k || s.now < x.stAt + stateBound x.st || (x.st == 5 && s.exl.err == 5) then s
    else
      let s := if x.st == 5 && s.exl.paired && !s.exl.session && !s.exl.proved && s.exl.hello.isSome && s.exl.err == 0 then
          { s with exl := { s.exl with err := 4 } } else s
      downSub s k)

/-- SUBLINK_RETRAIN_START (R241): 100 ms after the return to DOWN. -/
def execSublinkRetrainStart (k t : Nat) (s : State) : Host.Outcome State Fault Refusal :=
  let s := tick s t
  .next (if (subl s k).st == 0 && (subl s k).waitRetrain && decide ((subl s k).stAt + 100000 ≤ s.now) then
      (if mayTrain s k then trainSub s k else modSub s k (fun x => { x with waitRetrain := false })) else s)

/-- SUBLINK_HOLD_END (R241): a sublink held down for 10 s returns to DOWN. -/
def execSublinkHoldEnd (k t : Nat) (s : State) : Host.Outcome State Fault Refusal :=
  let s := tick s t
  .next (if (subl s k).st == 7 && decide ((subl s k).stAt + 10000000 ≤ s.now) then
      judgeLink (modSub s k (fun x => { x with st := 0, stAt := s.now, waitRetrain := false })) else s)

/-- SUBLINK_LOST (R242): 4 µs without a good flit on a sublink in service. -/
def execSublinkLost (n t : Nat) (s : State) : Host.Outcome State Fault Refusal :=
  let s := tick s t
  .next (if (subl s n).st != 6 || s.now < (subl s n).goodAt + 4 then s else loseSub (raiseOpen s (0x160 + n)) n)

/-! ### Replay (R245) -/

/-- A LINK NAK names the expected SEQ; flits are discarded until it arrives. -/
def nak (s : State) (k : Nat) : State :=
  emit (modSub s k (fun x => { x with skipping := true })) (.linkAck k false (subl s k).expect)

/-- A LINK ACK covers everything accepted. -/
def ack (s : State) (k : Nat) : State :=
  emit (modSub s k (fun x => { x with good := 0 })) (.linkAck k true (((subl s k).expect + 4095) % 4096))

/-- Symbols corrected in a sublink's codewords, counted by the second (R240). -/
def countFec (s : State) (k n : Nat) : State :=
  modSub s k (fun x =>
    if s.now < x.fecAt + 1000000 then { x with fecNow := x.fecNow + n }
    else { x with fec := if s.now < x.fecAt + 2000000 then min 0xFFFF (x.fecNow / 1024) else 0, fecNow := n, fecAt := s.now })

/-- A sequenced flit arrives: with a bad CRC it is answered with NAK; it is taken only in order; a duplicate is discarded
silently, a gap answered with NAK (R243–R245). The Bool says that it is taken. -/
def takeSeq (s : State) (typ : Nat) (f : FlitIn) : State × Bool :=
  if nSub s ≤ f.sub || !((subl s f.sub).st == 5 || (subl s f.sub).st == 6) || !logicOn s then (s, false)
  else
    let s := countFec s f.sub f.fec
    let x := subl s f.sub
    if !flitGood typ f then (nak s f.sub, false)
    else
      let s := modSub s f.sub (fun x => { x with goodAt := s.now })
      if f.seq == x.expect then
        let s := modSub s f.sub (fun x => { x with expect := (x.expect + 1) % 4096, rxCount := x.rxCount + 1, good := x.good + 1, skipping := false })
        (if 64 ≤ (subl s f.sub).good then ack s f.sub else s, true)
      else if x.skipping || (x.expect + 4096 - f.seq % 4096) % 4096 ≤ 2048 then (s, false)
      else (nak s f.sub, false)

/-- FLIT_CRC_FAILURE (R243, R245): a flit of a reserved type, or one whose CRC fails, arrives with no content of its own. -/
def execFlitCrcFailure (k t : Nat) (s : State) : Host.Outcome State Fault Refusal :=
  let s := tick s t
  .next (if nSub s ≤ k || !((subl s k).st == 5 || (subl s k).st == 6) then s else nak s k)

/-- The flits of the replay buffer go out once more, byte by byte the same; eight times without progress lose the sublink
(R242, R245). -/
def resendSub (s : State) (k : Nat) : State :=
  let l := (subl s k).replay
  let s := bump s rExlReplay 0 16 l.length
  let s := l.foldl (fun s f => emit s (.flit k f.2)) (modSub s k (fun x => { x with replays := x.replays + 1, ackAt := s.now }))
  if 8 ≤ (subl s k).replays then loseSub (raiseOpen s (0x160 + k)) k else s

/-- Flits of the replay buffer before a SEQ are acknowledged. -/
def ackedTo (l : List (Nat × List Byte)) (seq : Nat) : List (Nat × List Byte) := l.dropWhile (fun f => f.1 != seq)

/-- A SEQ is in the replay buffer. -/
def inReplay (s : State) (k seq : Nat) : Bool := (subl s k).replay.any (fun f => f.1 == seq)

/-- LINK_ACK (R245). -/
def execLinkAck (k seq t : Nat) (s : State) : Host.Outcome State Fault Refusal :=
  let s := tick s t
  .next (if !inReplay s k seq then s
    else pumpFlits (modSub s k (fun x => { x with replay := (ackedTo x.replay seq).drop 1, replays := 0, ackAt := s.now })) k
      (subl s k).txq.length)

/-- LINK_NAK (R245). -/
def execLinkNak (k seq t : Nat) (s : State) : Host.Outcome State Fault Refusal :=
  let s := tick s t
  .next (if nSub s ≤ k then s
    else
      let s := bump s rExlReplay 16 16 1
      if !inReplay s k seq then s
      else
        let l := ackedTo (subl s k).replay seq
        let s := modSub s k (fun x => { x with replay := l, replays := if l.length == x.replay.length then x.replays else 0 })
        let s := resendSub s k
        pumpFlits s k (subl s k).txq.length)

/-- REPLAY_TIMEOUT (R245): 5 µs have passed with flits unacknowledged. -/
def execReplayTimeout (k t : Nat) (s : State) : Host.Outcome State Fault Refusal :=
  let s := tick s t
  .next (if (subl s k).replay.isEmpty || nSub s ≤ k || s.now < (subl s k).ackAt + 5 then s else resendSub s k)

/-! ### Protocol errors and keys (R246, R248, R253) -/

/-- A protocol error: EXL_PROTOCOL, ERR_CODE 0x07, the link goes down (R253). -/
def protocolError (s : State) : State :=
  let s := raiseOpen s 0x166
  linkDown { s with exl := { s.exl with err := 7 } }

/-- The key switch of this unit's directions: each sender closes a group with KEY_SWITCH; the counter starts at 0 (R248). -/
def switchKeys (s : State) (id : Nat) : State :=
  let s := sendEvery s 0x0D [id]
  { s with exl := { s.exl with subs := s.exl.subs.map (fun p => (p.1, { p.2 with txCount := 0, txKey := id })) } }

/-- The requester starts a rekey under a new session ID (R248). -/
def startRekey (s : State) : State :=
  let id := s.exl.sessNext
  if !s.exl.session || s.exl.rekey.isSome || 2 ^ 32 ≤ id then s
  else
    let s := { s with exl := { s.exl with rekey := some (id, s.now), sessNext := id + 1 } }
    let s := if s.nvm.store.sessNext ≤ id then pairWrite s 1 else s
    switchKeys (sendLow s 0x0C [id]) id

/-- Both directions of every sublink that is UP use the new keys. -/
def judgeRekey (s : State) : State :=
  match s.exl.rekey with
  | none => s
  | some (id, _) =>
    if !(subsUp s).all (fun k => (subl s k).rxNewKey) then s
    else retryHeld { s with exl := { s.exl with
      rekey := none, rekeyFailAt := none, mustRekey := false, sessionId := BitVec.ofNat 32 id, sessionAt := s.now,
      subs := s.exl.subs.map (fun p => (p.1, { p.2 with rxNewKey := false })) } }

/-- REKEY arrives (R248). -/
def onRekey (s : State) (id : Nat) : State :=
  if s.exl.rekey.isSome then s
  else switchKeys { s with exl := { s.exl with rekey := some (id, s.now), sessNext := max s.exl.sessNext (id + 1) } } id

/-- KEY_SWITCH arrives on a sublink (R248). -/
def onKeySwitch (s : State) (k id : Nat) : State :=
  let s := if s.exl.rekey.isNone then onRekey s id else s
  judgeRekey (modSub s k (fun x => { x with rxNewKey := true, rxCount := 0 }))

/-- REKEY_DUE (R248): 24 h or 2^40 flits under a key, or a failed group tag; after an abandoned rekey 1 s later. -/
def execRekeyDue (t : Nat) (s : State) : Host.Outcome State Fault Refusal :=
  let s := tick s t
  let due := s.exl.mustRekey || decide (s.exl.sessionAt + 86400000000 ≤ s.now)
    || s.exl.subs.any (fun p => decide (2 ^ 40 ≤ p.2.txCount) || decide (2 ^ 40 ≤ p.2.rxCount))
  .next (if due && leads s && s.exl.rekeyFailAt.all (fun u => decide (u + 1000000 ≤ s.now)) then startRekey s else s)

/-- REKEY_TIMEOUT (R248): a rekey not complete in 100 ms is abandoned and counted. -/
def execRekeyTimeout (t : Nat) (s : State) : Host.Outcome State Fault Refusal :=
  let s := tick s t
  .next (if !s.exl.rekey.any (fun r => decide (r.2 + 100000 ≤ s.now)) then s
    else bump { s with exl := { s.exl with rekey := none, rekeyFailAt := some s.now, subs := s.exl.subs.map (fun p => (p.1, { p.2 with rxNewKey := false })) } }
      rExlKey 16 16 1)

/-- EXL_KEY_EXHAUSTED (R248): 2^48 flits under one key on a direction of sublink `k`: the link stops hard. -/
def execExlKeyExhausted (k t : Nat) (s : State) : Host.Outcome State Fault Refusal :=
  let s := tick s t
  .next (if nSub s ≤ k || !s.exl.session || ((subl s k).txCount < 2 ^ 48 && (subl s k).rxCount < 2 ^ 48) then s
    else
      let s := raiseOpen s 0x165
      let s := linkDown { s with exl := { s.exl with err := 6 } }
      { s with exl := { s.exl with link := 4 } })

/-- A group whose tag fails: EXL_AUTH, the group is discarded, the sublink retrains, and the link rekeys before it carries
records again (R246). -/
def authFail (s : State) (k : Nat) : State :=
  let s := raiseOpen s 0x164
  let s := modSub { s with exl := { s.exl with mustRekey := true } } k (fun x => { x with group := [] })
  let s := loseSub s k
  if leads s then startRekey s else s

/-! ### Records and their acceptance (R251–R255) -/

/-- An accepted record's allotment is one the peer serves, or is the resync source of (R253). -/
def recordInside (s : State) (r : MirRec) : Bool :=
  match granAllot s (lineGran r.line) with
  | none => false
  | some id => match allotOf s id with
    | none => false
    | some a => a.mirrored && (!a.serving || sourceOf s id == 2)

/-- A record of sublink `k` is accepted into the ledger and applied in order (R252, R253). -/
def onRecord (s : State) (k : Nat) (r : MirRec) : State :=
  if s.ldg.closed then s
  else if (subl s k).granted == 0 || !recordInside s r then protocolError s
  else
    let s := modSub s k (fun x => { x with accepted := x.accepted + 1, granted := x.granted - 1, waiting := x.waiting ++ [r] })
    let s := { s with exl := { s.exl with rxBytes := (s.exl.rxBytes + 250) % 2 ^ 64 } }
    let s := sendMsg s k 0x01 [k, (subl s k).accepted]
    judgeTake (capture (judgeHeld (drainSub s k (subl s k).waiting.length)))

/-- ACCEPT: records of sublink `k` through `n` are accepted, and their writes may complete (R18, R252). -/
def onAccept (s : State) (k n : Nat) : State :=
  if nSub s ≤ k || (subl s k).sent < n then protocolError s
  else
    let s := modSub s k (fun x => { x with acked := max x.acked n, unacc := x.unacc.filter (fun r => n < r.serial) })
    completeReady { s with exl := { s.exl with withheld := s.exl.withheld.map (fun w => match w.sent with
      | some (j, m) => if j == k && m ≤ n then { w with accepted := true } else w
      | none => w) } }

/-- Records named by REHOME go out on other sublinks as credit allows, ahead of any later record of their slices (R242). -/
def rehomePump (s : State) (fuel : Nat) : State :=
  match fuel with
  | 0 => s
  | fuel + 1 =>
    match s.exl.subs.find? (fun p => p.2.rehome && !p.2.unacc.isEmpty) with
    | none => { s with exl := { s.exl with subs := s.exl.subs.map (fun p => (p.1, { p.2 with rehome := false })) } }
    | some (k, x) =>
      match x.unacc with
      | [] => s
      | r :: rest =>
        let up := subsUp s
        let j := up.getD (r.slice % up.length) 0
        if up.isEmpty || (subl s j).credit == 0 || !s.exl.session then s
        else
          let s := modSub s k (fun y => { y with unacc := rest })
          let s := sendRecord s j r
          let m := (subl s j).sent
          let s := { s with exl := { s.exl with withheld := s.exl.withheld.map (fun w =>
            if w.sent == some (k, r.serial) then { w with sent := some (j, m) } else w) } }
          rehomePump s fuel

/-- REHOME: the peer accepted the lost sublink's records through `n`; the others are sent again (R242). -/
def onRehome (s : State) (k n : Nat) : State :=
  if nSub s ≤ k || (subl s k).sent < n then protocolError s
  else
    let s := onAccept s k n
    let s := modSub s k (fun x => { x with rehome := true, sent := n, credit := 0, pSent := x.pSent.filter (· ≤ n) })
    retryHeld (rehomePump s (subl s k).unacc.length)

/-- CREDIT (R252). -/
def onCredit (s : State) (k n : Nat) : State :=
  if nSub s ≤ k then protocolError s
  else
    let s := modSub s k (fun x => { x with credit := x.credit + n, first := true })
    retryHeld (rehomePump s (s.exl.subs.foldl (fun m p => m + p.2.unacc.length) 0))

/-- ROOM: room available is the report less the P = 1 records sent after its THROUGH points (R254). -/
def onRoom (s : State) (room : Int) (stage : Nat) (through : List Nat) : State :=
  let s := { s with exl := { s.exl with subs := s.exl.subs.map (fun (p : Nat × Sublink) =>
    (p.1, { p.2 with pSent := p.2.pSent.filter (fun m => through.getD p.1 0 < m) })) } }
  let n := s.exl.subs.foldl (fun m p => m + p.2.pSent.length) 0
  retryHeld { s with
    exl := { s.exl with room := room - (n : Int), peerStage := stage },
    drp := { s.drp with twinBound := stage == 4 } }

/-- CLEAN (R254). -/
def onClean (s : State) (gs : List Nat) : State :=
  if gs.isEmpty || 60 < gs.length then protocolError s
  else { s with exl := { s.exl with twinDirty := gs.foldl sdel s.exl.twinDirty } }

/-- EPOCH: the follower notes how far ahead of the leader it is and slews (R258). -/
def onEpoch (s : State) (e : Nat) : State :=
  if leads s then s else { s with exl := { s.exl with follow := (s.exl.epoch : Int) - (e : Int) } }

/-- CUT_MARK(E) on a sublink (R260). -/
def onCutMark (s : State) (k e : Nat) : State :=
  capture (modSub s k (fun x => { x with marked := some e, ahead := x.waiting.length }))

/-- TALLY (R261). -/
def onTally (s : State) (e r v : Nat) : State :=
  judgeCompares { s with exl := { s.exl with compares := s.exl.compares.map (fun c =>
    if c.epoch == e then { c with peer := tset c.peer r (BitVec.ofNat 64 v) } else c) } }

/-- CRC_BLOCK: the source queues the granules that differ (R270). -/
def onCrcBlock (s : State) (first : Nat) (crcs : List Nat) : State :=
  if crcs.isEmpty || 30 < crcs.length then protocolError s
  else
    let gs := ((List.range crcs.length).map (first + ·)).filter (fun g =>
      crcs.getD (g - first) 0 != granCrc s g && (match granAllot s g with | some id => sourceOf s id == 1 | none => false))
    let s := { s with exl := { s.exl with resyncQ := gs.foldl sins s.exl.resyncQ } }
    resyncPump s s.exl.resyncQ.length

/-- COMPARE announces a comparison (R260). An epoch already held is not announced twice. -/
def onCompare (s : State) (e first count : Nat) : State :=
  if count == 0 || 64 < count then protocolError s
  else if s.exl.compares.any (fun c => c.epoch == e) || e ≤ s.exl.epoch then s
  else
    let c : Compare := { epoch := e, first := first, count := count }
    { s with exl := { s.exl with compares := s.exl.compares ++ [c] } }

/-- FLUSH: the peer's range is flushed under R160 (R257). -/
def onFlush (s : State) (tag first count : Nat) : State :=
  let gs := ((List.range count).map (first + ·)).filter (fun g => (granAllot s g).isSome)
  if s.ldg.closed then s else judgeFlushes (flushWork { s with exl := { s.exl with flushes := s.exl.flushes ++ [(tag, newFlush s gs)] } })

/-- FLUSHED: the peer's part of a flush is over (R257). -/
def onFlushed (s : State) (tag status : Nat) : State :=
  match jobOf s tag with
  | .flush j =>
    let j := { j with owed := j.owed - 1, twin := decide (1 < j.owed), peer := worse j.peer status }
    judgeFlushes (setJob s tag (.flush j))
  | _ => s

/-! ### TABLE and COMMIT (R256, R405) -/

/-- TABLE (R256). -/
def onTable (s : State) (m : TableMsg) : State :=
  if 1 < m.part || (m.part == 1 && 58 < m.extents.length) then protocolError s
  else { s with exl := { s.exl with drafts := s.exl.drafts ++ [m] } }

/-- The extent list of an allotment as the drafts give it. -/
def draftExtents (s : State) (id : Nat) : List Nat :=
  ((s.exl.drafts.filter (fun m => m.allot == id && m.part == 1)).foldl (fun l m =>
    l.take m.first ++ m.extents) [])

/-- The peer's change, as its TABLE messages spell it, checked: the kind and the entry as it will stand here, or the status it is
refused with (R238, R256; log entry 51). -/
def draftChange (s : State) (m : TableMsg) : Except Nat (TxKind × Allot) :=
  let id := m.allot
  let xs := draftExtents s id
  let mirrored := rd m.info 1 1 == 1
  let theirs := bit (rd m.info 3 1) 1
  match allotOf s id, mirrored with
  | some a, false =>
    if rd m.info 4 4 == 0 && a.reservation then .ok (.unreserve, a) else .error 0x0E
  | none, false =>
    if rd m.info 4 4 == 0 then .ok (.unreserve, {})
    else .ok (.reserve, { reservation := true, homeTwin := true })
  | some a, true =>
    if a.reservation || !a.mirrored || a.busy.isSome || a.st == .deleting || txPending s id then .error 0x0E
    else if rd m.info 0 1 == 4 then .ok (.delete, a)
    else if !a.serving && !theirs then .ok (.handover, a)
    else
      let more := xs.filter (fun e => !a.extents.contains e)
      let keep := a.bindings.filter (fun b => m.bindings.any (fun e => e.1 == b.issuer.toNat))
      if !(more.all (extentFits s true)) then .error 0x0C
      else match addBindings s m.maxExtents keep m.bindings with
        | some bs => .ok (.entry, { a with maxExtents := m.maxExtents, extents := xs, bindings := bs,
                                           tags := a.tags.filter (fun p => p.1 < xs.length) })
        | none => .error 0x0C
  | none, true =>
    if txPending s id || rd m.info 0 1 == 4 then .error 0x0E
    else if keyGen s id == 0xFFFFFFFF || !(xs.all (extentFits s true)) then .error 0x0C
    else match addBindings s m.maxExtents [] m.bindings with
      | some bs => .ok (.entry, { mirrored := true, homeTwin := rd m.info 2 1 == 0, serving := !theirs, maxExtents := m.maxExtents,
                                  extents := xs, bindings := bs })
      | none => .error 0x0C

/-- COMMIT with phase prepare: the peer's change is checked and answered prepared, or abort with a status. -/
def onPrepare (s : State) (id : Nat) (epoch : Nat) : State :=
  if id / 2 ^ 56 == 0xF1 then
    if canActivate s id epoch then
      let tx : TableTx := { id := id, kind := .activate, phase := 1, epoch := epoch }
      sendLow { s with exl := { s.exl with txs := s.exl.txs ++ [tx] } } 0x0F [id, 1, epoch, 0]
    else sendLow s 0x0F [id, 3, epoch, 0x0E]
  else match s.exl.drafts.find? (fun m => m.part == 0) with
    | none => sendLow s 0x0F [id, 3, 0, 0x0E]
    | some m =>
      let r := draftChange s m
      let s := { s with exl := { s.exl with drafts := s.exl.drafts.filter (fun d => d.allot != m.allot) } }
      match r with
      | .error st => sendLow s 0x0F [id, 3, 0, st]
      | .ok (k, a) =>
        let tx : TableTx := { id := id, kind := k, allot := m.allot, newEntry := a, phase := 1, force := m.force }
        sendLow { s with exl := { s.exl with txs := s.exl.txs ++ [tx] } } 0x0F [id, 1, 0, 0]

/-- COMMIT (R256, R405). -/
def onCommit (s : State) (id phase epoch status : Nat) : State :=
  let mine := s.exl.txs.find? (fun t => t.mine && t.id == id && t.phase < 2)
  let theirs := s.exl.txs.find? (fun t => !t.mine && t.id == id && t.phase == 1)
  let set := fun (s : State) (t : TableTx) (u : TableTx) =>
    { s with exl := { s.exl with txs := s.exl.txs.map (fun x => if x.id == t.id && x.mine == t.mine then u else x) } }
  let drop := fun (s : State) (t : TableTx) =>
    { s with exl := { s.exl with txs := s.exl.txs.filter (fun x => !(x.id == t.id && x.mine == t.mine)) } }
  if 3 < phase then protocolError s
  else match phase, mine, theirs with
  | 0, _, _ => onPrepare s id epoch
  | 1, some t, _ =>
    let e := max t.epoch (s.exl.epoch + 2)
    let s := sendLow s 0x0F [id, 2, e, 0]
    if t.kind == .activate then
      let s := scheduleActivation (drop s t) e false
      (match t.cmd with | some c => endOk s c [] | none => s)
    else
      let s := set s t { t with phase := 2, epoch := e }
      (match t.cmd, t.kind with
      | some c, .handover => (match jobOf s c with
        | .handover _ n m => setJob s c (.handover e n m)
        | _ => s)
      | some c, _ => setJob s c (.twin id 1)
      | none, _ => s)
  | 2, _, some t =>
    if t.kind == .activate then scheduleActivation (drop s t) epoch false else set s t { t with phase := 2, epoch := epoch }
  | 3, some t, _ => abortTx s t (if status == 0 then 0x0E else status)
  | 3, none, some t => drop s t
  | _, _, _ => s

/-! ### Pairing (R235, R236) -/

/-- Allotment IDs in use here, as the vendor message of the pairing lists them: bit 15 set for MIRRORED (log entry 37). -/
def idsInUse (s : State) : List Nat := (s.alt.tab.filter (fun p => !p.2.reservation)).map (fun p => p.1 + (if p.2.mirrored then 2 ^ 15 else 0))

/-- Sends an SPDM message in fragments of at most 241 bytes (Table 8.7). -/
def sendSpdm (s : State) (m : List Byte) : State :=
  let n := max 1 (cdiv m.length 241)
  (List.range n).foldl (fun s i =>
    sendLow s 0x12 ((b2n (i == 0) + 2 * b2n (i + 1 == n)) :: ((m.drop (241 * i)).take 241).map (·.toNat))) s

/-- An SPDM message of the pairing: version 1.2, code, contents that SPDM lays out. -/
def spdmMsg (s : State) (code : Nat) (body : List Byte) : List Byte :=
  [0x12#8, BitVec.ofNat 8 code] ++ (if body.isEmpty then (Config.spdmResponse code [] (drawn s)).take 1024 else body)

/-- Ends the PAIR that waits. -/
def endPair (s : State) (status detail : Nat) : State :=
  match s.exl.pairWait with
  | none => s
  | some p =>
    let s := { s with exl := { s.exl with pairWait := none } }
    if status == 0 then endOk s p.cmd (le s.exl.sessionId.toNat 4 ++ le (mirroredIds s).length 4)
    else endWith s p.cmd status detail

/-- The paired state this unit must have for PAIR (Table 8.1, second row). -/
def pairStateOk (s : State) (p : PairJob) : Bool := !s.exl.paired || s.exl.peerRec == p.serial || (p.replace && !s.exl.session)

/-- Table 8.1 as far as the peer's HELLO shows it. -/
def judgePairHello (s : State) : State :=
  match s.exl.pairWait, s.exl.hello with
  | some p, some m =>
    if m.serial != p.serial then endPair s 0x04 24
    else if m.group != Config.groupId.toNat || m.part != s.fus.part || m.major != myMajor s then endPair s 0x0E 0x11
    else s
  | _, _ => s

/-- The exchange begins: the requester asks for the version, the responder says that it waits (R236). -/
def beginPair (s : State) : State :=
  match s.exl.pairWait with
  | none => s
  | some _ =>
    if (subsUp s).isEmpty || s.exl.hello.isNone then s
    else if requester s then sendSpdm s (spdmMsg s 0x84 [0#8, 0#8])
    else sendSpdm s (spdmMsg s 0x7E [0#8])

/-- Both certificates and the peer's IDs are known: the pairing record is written and PROOF goes out under the new secret
(R236; log entry 37). -/
def writePairing (s : State) : State :=
  match s.exl.pairWait with
  | none => s
  | some p =>
    let theirs := p.ids.getD []
    let again := s.exl.paired && s.exl.peerRec == p.serial
    let mine := (idsInUse s).filter (fun k => !(again && 2 ^ 15 ≤ k))
    let both := (mine.map (· % 4096)).filter (fun i => theirs.any (fun k => k % 4096 == i && !(again && 2 ^ 15 ≤ k)))
    match both with
    | i :: l => endPair s 0x0E (0x10 + fld (l.foldl min i) 16 16)
    | [] =>
      let res := (theirs.filter (fun k => k < 2 ^ 15)).map (· % 4096)
      let tab := s.alt.tab.filter (fun q => !q.2.reservation)
      let tab := res.foldl (fun t i => if (tget t i).isSome then t else tset t i { reservation := true, homeTwin := true }) tab
      let secret := drawn s
      let s := drew s
      let s := { s with
        alt := { s.alt with tab := tab },
        exl := { s.exl with paired := true, peerRec := p.serial, secret := secret, reserved := res.foldl sins [],
                            sessNext := if again then s.exl.sessNext else 0, pairWait := some { p with written := true } } }
      let s := pairWrite s 1
      sendLow s 0x11 ((proofMac s).map (·.toNat))

/-- A complete SPDM message of the peer during pairing (R236; log entry 37). -/
def onSpdmMsg (s : State) (m : List Byte) : State :=
  match s.exl.pairWait with
  | none => s
  | some p =>
    let body := m.drop 2
    let put := fun (s : State) (q : PairJob) => { s with exl := { s.exl with pairWait := some q } }
    let ids := idsInUse s
    let vendor := [1#8] ++ ids.flatMap (fun k => le k 2)
    let theirIds := (List.range ((body.length - 1) / 2)).map (fun i => rd body (1 + 2 * i) 2)
    let certs := fun (s : State) =>
      let chain := body.drop 6
      let digest := bytes (sha384 (nats chain))
      let q := { p with chain := chain, certOk := (allZero p.digest || digest == p.digest)
        && Config.certIdentity chain == (p.serial, Config.groupId.toNat) }
      if q.certOk then put s q else endPair s 0x0B 0
    match rd m 1 1 with
    | 0x84 => drew (sendSpdm s (spdmMsg s 0x04 []))
    | 0xE1 => drew (sendSpdm s (spdmMsg s 0x61 []))
    | 0xE3 => drew (sendSpdm s (spdmMsg s 0x63 []))
    | 0x82 =>
      let c := identityChain s
      drew (sendSpdm s (spdmMsg s 0x02 ([0#8, 0#8] ++ le c.length 2 ++ le 0 2 ++ c)))
    | 0xE4 => drew (sendSpdm s (spdmMsg s 0x64 []))
    | 0xE5 =>
      if p.certOk && p.ids.isSome then writePairing (drew (sendSpdm s (spdmMsg s 0x65 []))) else s
    | 0x04 => drew (sendSpdm s (spdmMsg s 0xE1 []))
    | 0x61 => drew (sendSpdm s (spdmMsg s 0xE3 []))
    | 0x63 => drew (sendSpdm s (spdmMsg s 0x82 []))
    | 0x02 =>
      let s := certs s
      if s.exl.pairWait.isNone || !requester s then s else drew (sendSpdm s (spdmMsg s 0xE4 []))
    | 0x64 =>
      let s := drew (sendSpdm s (spdmMsg s 0x02 []))
      sendSpdm s (spdmMsg s 0xFE vendor)
    | 0xFE => sendSpdm (put s { p with ids := some theirIds }) (spdmMsg s 0x7E vendor)
    | 0x7E =>
      if rd body 0 1 == 0 then (if requester s then beginPair s else s)
      else drew (sendSpdm (put s { p with ids := some theirIds }) (spdmMsg s 0xE5 []))
    | 0x65 => if p.certOk && p.ids.isSome then writePairing s else s
    | _ => s

/-- An SPDM fragment (R249). -/
def onSpdm (s : State) (flags : Nat) (data : List Byte) : State :=
  if 3 < flags || data.isEmpty || 241 < data.length then protocolError s
  else
    let l := if bit flags 0 then data else s.exl.spdmIn ++ data
    if bit flags 1 then onSpdmMsg { s with exl := { s.exl with spdmIn := [] } } l
    else { s with exl := { s.exl with spdmIn := l } }

/-- HELLO (R247): the peer's values are noted and checked; between paired units PROOF answers it. -/
def onHello (s : State) (k : Nat) (m : HelloMsg) : State :=
  let s := { s with exl := { s.exl with hello := some m, peerSerial := BitVec.ofNat 64 m.serial, proved := false } }
  let e := helloError s m
  let s := { s with exl := { s.exl with err := e } }
  let s := beginPair (judgePairHello s)
  if s.exl.paired && s.exl.pairWait.isNone && e == 0 && !s.exl.session then sendMsg s k 0x11 ((proofMac s).map (·.toNat)) else s

/-- PROOF (R247): the peer's CMAC of both HELLO messages. During pairing it shows that the peer's record is written. -/
def onProof (s : State) (mac : List Byte) : State :=
  if s.exl.session || !s.exl.paired then s
  else if mac != proofMac s then { s with exl := { s.exl with err := 4 } }
  else
    let s := { s with exl := { s.exl with proved := true } }
    match s.exl.pairWait with
    | some p => if p.written && !(subsUp s).isEmpty then endPair (openSession s) 0 0 else s
    | none => s

/-- PAIR (R235, R236). -/
def cmdPair (f : InFlight) (s : State) : State :=
  let c := f.cmd
  let ms := if pNum c 36 4 == 0 then 60000 else pNum c 36 4
  let p : PairJob := { cmd := f.id, deadline := s.now + 1000 * ms, serial := pNum c 24 8, digest := payIn c, replace := pByte c 32 == 1 }
  if 1 < pByte c 32 then badParam s f.id 32
  else if 600000 < ms then badParam s f.id 36
  else if c.payLen != 48 then badParam s f.id 0x40
  else if s.exl.pairWait.isSome || !pairStateOk s p then conflict s f.id 0x14
  else
    let s := setJob s f.id (.pair p.deadline)
    beginPair (judgePairHello { s with exl := { s.exl with pairWait := some p, spdmIn := [] } })

/-- PAIR as a packet. -/
def execPair (c : TrellisCmd) (s : State) : Host.Outcome State Fault Refusal := .next (submit cmdPair 0x0300 c s)

/-- PAIR_TIMEOUT (R236): no change, or this unit's record already written. -/
def execPairTimeout (t : Nat) (s : State) : Host.Outcome State Fault Refusal :=
  let s := tick s t
  .next (match s.exl.pairWait with
    | some p => if p.deadline ≤ s.now then endPair s 0x0D 0 else s
    | none => s)

/-! ### Integrity groups (R246) -/

/-- What an item of a verified group does. -/
def onItem (s : State) (k : Nat) (i : LinkItem) : State :=
  match i with
  | .record r => onRecord s k r
  | .accept j n => onAccept s j n
  | .credit j n => onCredit s j n
  | .room v st _ th => onRoom s v st th
  | .clean gs => onClean s gs
  | .epoch e _ => onEpoch s e
  | .cutMark e => onCutMark s k e
  | .tally e r v => onTally s e r v
  | .crcBlock g l => onCrcBlock s g l
  | .harvest _ j n => if nSub s ≤ j then protocolError s else peerCut s j n
  | .harvestDone n => { s with exl := { s.exl with peerSeal := some n } }
  | .rehome j n => onRehome s j n
  | .rekey id => onRekey s id
  | .keySwitch id => onKeySwitch s k id
  | .table m => onTable s m
  | .commit id p e st => onCommit s id p e st
  | .spdm fl d => onSpdm s fl d
  | .flush tag g n => onFlush s tag g n
  | .flushed tag st => onFlushed s tag st
  | .state l => if 22 < l.length then protocolError s else onState s l
  | .compare e r n => onCompare s e r n

/-- The flit type that carries an item (Table 8.5). -/
def flitTyp (i : LinkItem) : Nat := match i with | .record _ => 1 | _ => 2

/-- An item without a session: SPDM alone acts (R249). -/
def bareItem (s : State) (k : Nat) (i : LinkItem) : State := match i with | .spdm _ _ => onItem s k i | _ => s

/-- A record or message arrives in a sequenced flit: held in its group while a session is open, until the MAC flit (R246).
Without a session only HELLO, PROOF and SPDM are carried (R249). -/
def arriveFlit (s : State) (f : FlitIn) (i : LinkItem) : State :=
  let r := takeSeq s (flitTyp i) f
  let s := r.1
  if !r.2 then s
  else if s.exl.session then modSub s f.sub (fun x => { x with group := x.group ++ [i] })
  else bareItem s f.sub i

/-- MAC_FLIT (R246): `ok`: the tag verifies. A verified group's records and messages take effect in order. -/
def execMacFlit (f : FlitIn) (ok : Bool) (t : Nat) (s : State) : Host.Outcome State Fault Refusal :=
  let r := takeSeq (tick s t) 3 f
  let s := r.1
  .next (if !r.2 || !s.exl.session then s
    else if !ok then authFail s f.sub
    else
      let g := (subl s f.sub).group
      let s := ack (modSub s f.sub (fun x => { x with group := [] })) f.sub
      g.foldl (fun s i => if (subl s f.sub).st == 6 && s.exl.session then onItem s f.sub i else s) s)

/-- RECORD (R251, R252). -/
def execRecord (f : FlitIn) (r : RecIn) (t : Nat) (s : State) : Host.Outcome State Fault Refusal :=
  let m : MirRec := { line := r.line, data := r.data, enables := r.enables, poison := r.poison, p := r.p, slice := sliceOf r.line }
  .next (arriveFlit (tick s t) f (.record m))

/-- ACCEPT (R252). -/
def execAccept (f : FlitIn) (sub through t : Nat) (s : State) : Host.Outcome State Fault Refusal := .next (arriveFlit (tick s t) f (.accept sub through))

/-- CREDIT (R252). -/
def execCredit (f : FlitIn) (sub n t : Nat) (s : State) : Host.Outcome State Fault Refusal := .next (arriveFlit (tick s t) f (.credit sub n))

/-- ROOM (R254). -/
def execRoom (f : FlitIn) (room : Int) (stage adm : Nat) (through : List Nat) (t : Nat) (s : State) : Host.Outcome State Fault Refusal :=
  .next (arriveFlit (tick s t) f (.room room stage adm through))

/-- CLEAN (R254). -/
def execClean (f : FlitIn) (gs : List Nat) (t : Nat) (s : State) : Host.Outcome State Fault Refusal := .next (arriveFlit (tick s t) f (.clean gs))

/-- EPOCH (R258). -/
def execEpoch (f : FlitIn) (e ns t : Nat) (s : State) : Host.Outcome State Fault Refusal := .next (arriveFlit (tick s t) f (.epoch e ns))

/-- CUT_MARK (R260). -/
def execCutMark (f : FlitIn) (e t : Nat) (s : State) : Host.Outcome State Fault Refusal := .next (arriveFlit (tick s t) f (.cutMark e))

/-- TALLY (R261). -/
def execTally (f : FlitIn) (e region tally t : Nat) (s : State) : Host.Outcome State Fault Refusal :=
  .next (arriveFlit (tick s t) f (.tally e region tally))

/-- CRC_BLOCK (R270). -/
def execCrcBlock (f : FlitIn) (first : Nat) (crcs : List Nat) (t : Nat) (s : State) : Host.Outcome State Fault Refusal :=
  .next (arriveFlit (tick s t) f (.crcBlock first crcs))

/-- HARVEST (R255). -/
def execHarvest (f : FlitIn) (cause sub through t : Nat) (s : State) : Host.Outcome State Fault Refusal :=
  .next (arriveFlit (tick s t) f (.harvest cause sub through))

/-- HARVEST_DONE (R167). -/
def execHarvestDone (f : FlitIn) (seq t : Nat) (s : State) : Host.Outcome State Fault Refusal := .next (arriveFlit (tick s t) f (.harvestDone seq))

/-- REHOME (R242). -/
def execRehome (f : FlitIn) (sub through t : Nat) (s : State) : Host.Outcome State Fault Refusal := .next (arriveFlit (tick s t) f (.rehome sub through))

/-- REKEY (R248). -/
def execRekey (f : FlitIn) (id t : Nat) (s : State) : Host.Outcome State Fault Refusal := .next (arriveFlit (tick s t) f (.rekey id))

/-- KEY_SWITCH (R248). -/
def execKeySwitch (f : FlitIn) (id t : Nat) (s : State) : Host.Outcome State Fault Refusal := .next (arriveFlit (tick s t) f (.keySwitch id))

/-- TABLE (R256). -/
def execTable (f : FlitIn) (m : TableMsg) (t : Nat) (s : State) : Host.Outcome State Fault Refusal := .next (arriveFlit (tick s t) f (.table m))

/-- COMMIT (R256). -/
def execCommit (f : FlitIn) (id phase epoch status t : Nat) (s : State) : Host.Outcome State Fault Refusal :=
  .next (arriveFlit (tick s t) f (.commit id phase epoch status))

/-- HELLO (R247). -/
def execHello (f : FlitIn) (m : HelloMsg) (t : Nat) (s : State) : Host.Outcome State Fault Refusal :=
  let r := takeSeq (tick s t) 2 f
  let s := r.1
  .next (if r.2 && !s.exl.session then onHello s f.sub m else s)

/-- PROOF (R247). -/
def execProof (f : FlitIn) (mac : List Byte) (t : Nat) (s : State) : Host.Outcome State Fault Refusal :=
  let r := takeSeq (tick s t) 2 f
  let s := r.1
  .next (if r.2 then onProof s mac else s)

/-- SPDM (R249). -/
def execSpdm (f : FlitIn) (flags : Nat) (data : List Byte) (t : Nat) (s : State) : Host.Outcome State Fault Refusal :=
  .next (arriveFlit (tick s t) f (.spdm flags data))

/-- FLUSH (R257). -/
def execFlush (f : FlitIn) (tag first count t : Nat) (s : State) : Host.Outcome State Fault Refusal :=
  .next (arriveFlit (tick s t) f (.flush tag first count))

/-- FLUSHED (R257). -/
def execFlushed (f : FlitIn) (tag status t : Nat) (s : State) : Host.Outcome State Fault Refusal :=
  .next (arriveFlit (tick s t) f (.flushed tag status))

/-- STATE (R269). -/
def execState (f : FlitIn) (l : List (Nat × Nat × Nat)) (t : Nat) (s : State) : Host.Outcome State Fault Refusal :=
  .next (arriveFlit (tick s t) f (.state l))

/-- COMPARE (R260). -/
def execCompare (f : FlitIn) (e first count t : Nat) (s : State) : Host.Outcome State Fault Refusal :=
  .next (arriveFlit (tick s t) f (.compare e first count))

/-- ROOM_PERIOD (R254): every 100 µs. -/
def execRoomPeriod (t : Nat) (s : State) : Host.Outcome State Fault Refusal := .next (if (tick s t).now < s.exl.roomAt + 100 then tick s t else sendRoom (tick s t))

/-! ### Registers -/

/-- FEC_CORR: the last full second, in units of 1,024 symbols. -/
def fecShown (s : State) (x : Sublink) : Nat :=
  if s.now < x.fecAt + 1000000 then x.fec else if s.now < x.fecAt + 2000000 then min 0xFFFF (x.fecNow / 1024) else 0

/-- EXL and LDG registers whose value the state's own fields give; `sel` reads a selector of the access path (chapter 8). -/
def viewExl (s : State) (sel : Nat → Nat) (c : Nat) (high : Bool) : Option Nat :=
  let half := fun (v : Nat) => if high then v / 2 ^ 32 % 2 ^ 32 else v % 2 ^ 32
  if c == rExlStatus then
    some (fld s.exl.link 29 3 + fld (b2n s.exl.paired) 28 1 + fld (b2n (inStep s)) 27 1 + fld (b2n s.exl.resyncOn) 26 1
      + fld (b2n s.exl.fenced) 25 1 + fld (b2n s.exl.claim) 24 1 + fld (maskOf (subsUp s)) 20 4 + fld s.exl.err 8 8)
  else if c == rExlSublink0 || c == rExlSublink1 || c == rExlSublink2 || c == rExlSublink3 then
    let x := subl s ((c - rExlSublink0) / 4)
    some (fld x.st 29 3 + fld (fecShown s x) 0 16)
  else if c == rExlSession then some (if s.exl.session then s.exl.sessionId.toNat else 0)
  else if c == rExlKey then
    some (Nat.log2 (s.exl.subs.foldl (fun m p => max m (max p.2.txCount p.2.rxCount)) 0))
  else if c == rExlEpoch then some (half s.exl.epoch)
  else if c == rExlPayloadTx then some (half s.exl.txBytes)
  else if c == rExlPayloadRx then some (half s.exl.rxBytes)
  else if c == rExlPeerSerial then some (half s.exl.peerSerial.toNat)
  else if c == rExlHbOut0 then some (s.exl.hbOut.getD 0 0#32).toNat
  else if c == rExlHbOut1 then some (s.exl.hbOut.getD 1 0#32).toNat
  else if c == rExlHbOut2 then some (s.exl.hbOut.getD 2 0#32).toNat
  else if c == rExlHbOut3 then some (s.exl.hbOut.getD 3 0#32).toNat
  else if c == rExlResync then some (fld (regionsLeft s) 16 15 + fld (min 0xFFFF (s.exl.resyncRate / 100)) 0 16)
  else if c == rLdgSeq then some (half (tgetD s.ldg.seqs (sel rLdgSel % 64) 0))
  else if c == rLdgTwinRoom then some (if s.exl.session then twos s.exl.room 32 else 0)
  else none

end Sys2Proof.Machine
end

