-- ==== Sys2Proof/Machine/Mailbox.lean ====
section
/-! DEFINITION. The primary mailbox of a logical device, the fabric-manager API, the MCTP control messages and the SPDM
responder with IDE_KM (chapters 2 and 3; rows 49–85 and 87–98 of the table). Return codes and payload layouts the manual
leaves to CXL 3.1 are those of log entry 36, DSP0236's of log entry 59, SPDM's and IDE_KM's of log entry 35. -/

namespace Sys2Proof.Machine

open Sys2Proof

/-! ### The mailbox (R47, R72, R74, R100) -/

/-- The mailbox of a logical device is there and free: its port's link is up, and no Trellis packet holds it (R47). -/
def mboxHere (s : State) (m : MboxReq) : Bool :=
  mailboxAt s m.port m.issuer && ((tgetD s.cxl.mboxes m.issuer {}).busy).isNone

/-- The mailbox's own state. -/
def mboxOf (s : State) (m : MboxReq) : Mbox := tgetD s.cxl.mboxes m.issuer {}

/-- Changes the mailbox's own state. -/
def setMbox (s : State) (m : MboxReq) (x : Mbox) : State :=
  { s with cxl := { s.cxl with mboxes := tset s.cxl.mboxes m.issuer x } }

/-- A mailbox command with effect `f`, which gives the return code and the output payload; where the mailbox is not there
nothing answers. -/
def mboxRun (m : MboxReq) (t : Nat) (f : State → State × Nat × List Byte) (s : State) : State :=
  let s := tick s t
  if mboxHere s m then
    let r := f s
    emit r.1 (.mbox m.port m.issuer r.2.1 r.2.2)
  else s

/-- Success with an output payload. -/
def mbOk (s : State) (l : List Byte) : State × Nat × List Byte := (s, 0, l)

/-- A return code other than Success: 2 Invalid Input, 3 Unsupported, 0x0E Invalid Handle, 0x0F Invalid Physical
Address, 0x16 Invalid Payload Length. -/
def mbErr (s : State) (code : Nat) : State × Nat × List Byte := (s, code, [])

/-- An answer whose contents CXL 3.1 lays out and the manual does not state, for at least `n` bytes. -/
def mbFree (s : State) (op : Nat) (m : MboxReq) : State × Nat × List Byte :=
  mbOk (drew s) (Config.cxlResponse op m.input s.draws)

/-- The same, with `l` put at byte `off`. -/
def mbOver (s : State) (op n : Nat) (m : MboxReq) (off : Nat) (l : List Byte) : State × Nat × List Byte :=
  mbOk (drew s) (overlay (padTo (Config.cxlResponse op m.input s.draws) n) off l)

/-- MAILBOX_IDENTIFY (R100). -/
def execMailboxIdentify (m : MboxReq) (t : Nat) (s : State) : Host.Outcome State Fault Refusal :=
  .next (mboxRun m t (fun s => mbFree s 0x0001 m) s)

/-- BACKGROUND_OPERATION_STATUS (R100). -/
def execBackgroundOperationStatus (m : MboxReq) (t : Nat) (s : State) : Host.Outcome State Fault Refusal :=
  .next (mboxRun m t (fun s => mbFree s 0x0002 m) s)

/-! ### Events (R100, R263, R378) -/

/-- Records of an event log that are not cleared, oldest first. -/
def eventsIn (x : Mbox) (lg : Nat) : List CxlEvent := x.events.filter (fun e => e.log == lg)

/-- An event record of 128 bytes: the record's UUID, length and handle, what CXL 3.1 puts into its header besides, and
its data. -/
def eventBytes (s : State) (e : CxlEvent) : List Byte :=
  let head := padTo (Config.cxlResponse 0x0100 e.data s.draws) 48
  overlay (overlay (overlay head 0 (e.data.take 16)) 16 [128#8]) 20 (le e.handle 2) ++ padTo (e.data.drop 16) 80

/-- GET_EVENT_RECORDS (R100): the records of the log that input byte 0 names, as many as the mailbox holds; flag bit 1 says
that more are left. -/
def getEvents (m : MboxReq) (s : State) : State × Nat × List Byte :=
  if m.input.length != 1 then mbErr s 0x16
  else
    let lg := rd m.input 0 1
    if 4 < lg then mbErr s 2
    else
      let l := eventsIn (mboxOf s m) lg
      let l' := l.take 511
      let head := overlay (overlay (zeros 32) 0 [if 511 < l.length then 2#8 else 0#8]) 20 (le l'.length 2)
      mbOk (drew s) (head ++ l'.flatMap (eventBytes s))

/-- GET_EVENT_RECORDS. -/
def execGetEventRecords (m : MboxReq) (t : Nat) (s : State) : Host.Outcome State Fault Refusal :=
  .next (mboxRun m t (getEvents m) s)

/-- CLEAR_EVENT_RECORDS (R100): input byte 0 the log, byte 1 bit 0 all of it, byte 2 the count, the handles from byte 6.
Handles must be those of the oldest records. -/
def clearEvents (m : MboxReq) (s : State) : State × Nat × List Byte :=
  let lg := rd m.input 0 1
  let n := rd m.input 2 1
  let x := mboxOf s m
  if m.input.length < 6 || (rd m.input 1 1 % 2 == 0 && m.input.length != 6 + 2 * n) then mbErr s 0x16
  else if 4 < lg then mbErr s 2
  else if rd m.input 1 1 % 2 == 1 then mbOk (setMbox s m { x with events := x.events.filter (fun e => e.log != lg) }) []
  else
    let hs := (List.range n).map (fun i => rd m.input (6 + 2 * i) 2)
    let old := ((eventsIn x lg).take n).map (·.handle)
    if hs.all old.contains && old.all hs.contains && old.length == n then
      mbOk (setMbox s m { x with events := x.events.filter (fun e => !(e.log == lg && hs.contains e.handle)) }) []
    else mbErr s 0x0E

/-- CLEAR_EVENT_RECORDS. -/
def execClearEventRecords (m : MboxReq) (t : Nat) (s : State) : Host.Outcome State Fault Refusal :=
  .next (mboxRun m t (clearEvents m) s)

/-- GET_EVENT_INTERRUPT_POLICY (R100). -/
def execGetEventInterruptPolicy (m : MboxReq) (t : Nat) (s : State) : Host.Outcome State Fault Refusal :=
  .next (mboxRun m t (fun s => mbOk s (le (mboxOf s m).evPolicy.toNat 5)) s)

/-- SET_EVENT_INTERRUPT_POLICY (R100): four bytes, or five with dynamic capacity. -/
def execSetEventInterruptPolicy (m : MboxReq) (t : Nat) (s : State) : Host.Outcome State Fault Refusal :=
  .next (mboxRun m t (fun s =>
    if m.input.length == 4 || m.input.length == 5 then
      mbOk (setMbox s m { mboxOf s m with evPolicy := BitVec.ofNat 40 (leNat m.input) }) []
    else mbErr s 0x16) s)

/-! ### Timestamp, logs, identity, health (R94, R100) -/

/-- The device timestamp now, in ns: zero until a host sets it. -/
def mboxTime (s : State) (m : MboxReq) : Nat :=
  let x := mboxOf s m
  if x.timestamp == 0#64 then 0 else (x.timestamp.toNat + 1000 * (s.now - x.tsSetAt)) % 2 ^ 64

/-- GET_TIMESTAMP (R100). -/
def execGetTimestamp (m : MboxReq) (t : Nat) (s : State) : Host.Outcome State Fault Refusal :=
  .next (mboxRun m t (fun s => mbOk s (le (mboxTime s m) 8)) s)

/-- SET_TIMESTAMP (R100). -/
def execSetTimestamp (m : MboxReq) (t : Nat) (s : State) : Host.Outcome State Fault Refusal :=
  .next (mboxRun m t (fun s =>
    if m.input.length == 8 then
      mbOk (setMbox s m { mboxOf s m with timestamp := BitVec.ofNat 64 (leNat m.input), tsSetAt := s.now }) []
    else mbErr s 0x16) s)

/-- GET_SUPPORTED_LOGS (R100). -/
def execGetSupportedLogs (m : MboxReq) (t : Nat) (s : State) : Host.Outcome State Fault Refusal :=
  .next (mboxRun m t (fun s => mbFree s 0x0400 m) s)

/-- GET_LOG (R100). -/
def execGetLog (m : MboxReq) (t : Nat) (s : State) : Host.Outcome State Fault Refusal :=
  .next (mboxRun m t (fun s => mbFree s 0x0401 m) s)

/-- IDENTIFY_MEMORY_DEVICE (R100). -/
def execIdentifyMemoryDevice (m : MboxReq) (t : Nat) (s : State) : Host.Outcome State Fault Refusal :=
  .next (mboxRun m t (fun s => mbFree s 0x4000 m) s)

/-- GET_HEALTH_INFO (R94): 18 bytes, the Dirty Shutdown Count in bytes 6–9. -/
def execGetHealthInfo (m : MboxReq) (t : Nat) (s : State) : Host.Outcome State Fault Refusal :=
  .next (mboxRun m t (fun s => mbOver s 0x4200 18 m 6 (le s.cxl.dirtyShutdowns 4)) s)

/-- GET_ALERT_CONFIGURATION (R100): 16 bytes; what a host set stands from byte 0. -/
def execGetAlertConfiguration (m : MboxReq) (t : Nat) (s : State) : Host.Outcome State Fault Refusal :=
  .next (mboxRun m t (fun s => mbOver s 0x4201 16 m 0 (mboxOf s m).alert) s)

/-- SET_ALERT_CONFIGURATION (R100): 12 bytes. -/
def execSetAlertConfiguration (m : MboxReq) (t : Nat) (s : State) : Host.Outcome State Fault Refusal :=
  .next (mboxRun m t (fun s =>
    if m.input.length == 12 then mbOk (setMbox s m { mboxOf s m with alert := m.input }) [] else mbErr s 0x16) s)

/-- GET_SHUTDOWN_STATE (R100). -/
def execGetShutdownState (m : MboxReq) (t : Nat) (s : State) : Host.Outcome State Fault Refusal :=
  .next (mboxRun m t (fun s => mbOk s [(mboxOf s m).shutdown]) s)

/-- SET_SHUTDOWN_STATE (R100): one byte. -/
def execSetShutdownState (m : MboxReq) (t : Nat) (s : State) : Host.Outcome State Fault Refusal :=
  .next (mboxRun m t (fun s =>
    if m.input.length == 1 then mbOk (setMbox s m { mboxOf s m with shutdown := m.input.headD 0#8 }) [] else mbErr s 0x16) s)

/-! ### Poison (R93, R94) -/

/-- Runs of extents of an allotment whose indexes follow each other and which lie in region `r`: first index, count. -/
def lostRuns (a : Allot) (r : Nat) : List (Nat × Nat) :=
  ((List.range a.extents.length).filter (fun k => a.extents.getD k 0 / 4 == r)).foldr (fun k l => match l with
    | (h, n) :: rest => if h == k + 1 then (k, n + 1) :: rest else (k, 1) :: l
    | [] => [(k, 1)]) []

/-- What Get Poison List reports for one binding: address in the host's window and length in lines (R94). -/
def poisonIn (s : State) (a : Allot) (b : Binding) : List (Nat × Nat) :=
  let bad := sunion s.mem.poison s.mem.ueLines
  let lines := (List.range a.extents.length).flatMap (fun k =>
    let e := a.extents.getD k 0
    (bad.filter (fun l => l / 2 ^ 22 == e)).map (fun l => (b.dpa + k * 2 ^ 28 + l % 2 ^ 22 * 64, 1)))
  lines ++ a.lost.flatMap (fun r => (lostRuns a r).map (fun x => (b.dpa + x.1 * 2 ^ 28, x.2 * 2 ^ 22)))

/-- Every entry for a host, whose windows the serving unit offers (R89, R94). -/
def poisonOf (s : State) (issuer : Nat) : List (Nat × Nat) :=
  s.alt.tab.flatMap (fun p => if p.2.serving then
    (p.2.bindings.filter (fun b => b.issuer.toNat == issuer)).flatMap (poisonIn s p.2) else [])

/-- GET_POISON_LIST (R94): the entries in the range asked for, at most 4,096, flag bit 1 past that. -/
def getPoison (m : MboxReq) (s : State) : State × Nat × List Byte :=
  if m.input.length != 16 then mbErr s 0x16
  else
    let lo := rd m.input 0 8
    let hi := lo + 64 * rd m.input 8 8
    let all := poisonOf s m.issuer
    let l := (all.take 4096).filter (fun e => lo < e.1 + 64 * e.2 && e.1 < hi)
    let head := overlay (zeros 32) 0 [if 4096 < all.length then 2#8 else 0#8]
    mbOk s (overlay head 10 (le l.length 2) ++ l.flatMap (fun e => le e.1 8 ++ le e.2 4 ++ zeros 4))

/-- GET_POISON_LIST. -/
def execGetPoisonList (m : MboxReq) (t : Nat) (s : State) : Host.Outcome State Fault Refusal :=
  .next (mboxRun m t (getPoison m) s)

/-- A write the device makes for a mailbox command, by the path of a host write: it takes a ledger position, and no
completion is sent (R93). -/
def mboxWrite (m : MboxReq) (data : List Byte) (poison : Bool) (s : State) : State × Nat × List Byte :=
  let r : MemReq := { port := m.port, issuer := m.issuer, dpa := rd m.input 0 8, data := data,
                      enables := BitVec.ofNat 64 (2 ^ 64 - 1), poison := poison }
  match classify s r false with
  | .error _ => mbErr s 0x0F
  | .ok _ => mbOk (tryWrite (numbered s) { n := s.drp.nextWrite, req := r, since := s.now, gone := true }) []

/-- INJECT_POISON (R93, R100): the line is stored as poisoned, as a write that carries poison stores it. -/
def execInjectPoison (m : MboxReq) (t : Nat) (s : State) : Host.Outcome State Fault Refusal :=
  .next (mboxRun m t (fun s => if m.input.length == 8 then mboxWrite m (zeros 64) true s else mbErr s 0x16) s)

/-- CLEAR_POISON (R93): address and 64 bytes of data, written as a write with all byte enables set. -/
def execClearPoison (m : MboxReq) (t : Nat) (s : State) : Host.Outcome State Fault Refusal :=
  .next (mboxRun m t (fun s => if m.input.length == 72 then mboxWrite m (m.input.drop 8) false s else mbErr s 0x16) s)

/-! ### Dynamic capacity (R78–R80) -/

/-- GET_DYNAMIC_CAPACITY_CONFIGURATION (R78): one region of 64 TiB with blocks of 256 MiB. -/
def getDcConfig (m : MboxReq) (s : State) : State × Nat × List Byte :=
  if m.input.length != 2 then mbErr s 0x16
  else if rd m.input 1 1 != 0 then mbErr s 2
  else
    let n := min 1 (rd m.input 0 1)
    let free := padTo (Config.cxlResponse 0x4800 m.input s.draws) 64
    let region := le 0 8 ++ le (2 ^ 18) 8 ++ le (2 ^ 46) 8 ++ le (2 ^ 28) 8 ++ slice free 0 8
    mbOk (drew s) (le 1 1 ++ le n 1 ++ zeros 6 ++ (if n == 1 then region else []) ++ slice free 8 16)

/-- GET_DYNAMIC_CAPACITY_CONFIGURATION. -/
def execGetDynamicCapacityConfiguration (m : MboxReq) (t : Nat) (s : State) : Host.Outcome State Fault Refusal :=
  .next (mboxRun m t (getDcConfig m) s)

/-- Extents a host has accepted: address, length in bytes and tag, in window order (R78, R79). -/
def acceptedOf (s : State) (issuer : Nat) : List (Nat × Nat × List Byte) :=
  s.alt.tab.flatMap (fun p => (p.2.bindings.filter (fun b => b.issuer.toNat == issuer)).flatMap (fun b =>
    (tagRuns p.1 p.2 b.accepted).map (fun r => (b.dpa + r.1 * 2 ^ 28, r.2 * 2 ^ 28, extentTag p.1 p.2 r.1))))

/-- GET_DYNAMIC_CAPACITY_EXTENT_LIST (R78): input count and start; the generation number is not the manual's. -/
def getDcExtents (m : MboxReq) (s : State) : State × Nat × List Byte :=
  if m.input.length != 8 then mbErr s 0x16
  else
    let all := acceptedOf s m.issuer
    let l := (all.drop (rd m.input 4 4)).take (min (rd m.input 0 4) 1638)
    let gen := padTo (Config.cxlResponse 0x4801 m.input s.draws) 4
    mbOk (drew s) (le l.length 4 ++ le all.length 4 ++ gen ++ zeros 4
      ++ l.flatMap (fun e => le e.1 8 ++ le e.2.1 8 ++ e.2.2 ++ zeros 8))

/-- GET_DYNAMIC_CAPACITY_EXTENT_LIST. -/
def execGetDynamicCapacityExtentList (m : MboxReq) (t : Nat) (s : State) : Host.Outcome State Fault Refusal :=
  .next (mboxRun m t (getDcExtents m) s)

/-- The extents an input payload lists from byte 8, 24 bytes each: address and length. -/
def dcList (b : List Byte) : Option (List (Nat × Nat)) :=
  let n := rd b 0 4
  if b.length == 8 + 24 * n then some ((List.range n).map (fun i => (rd b (8 + 24 * i) 8, rd b (16 + 24 * i) 8))) else none

/-- Which extents of one allotment a listed range names in a host's window: ID and indexes; none where the range is not whole
extents of one window. -/
def dcNames (s : State) (issuer : Nat) (x : Nat × Nat) : Option (Nat × List Nat) :=
  s.alt.tab.findSome? (fun p => (p.2.bindings.find? (fun b => b.issuer.toNat == issuer)).bind (fun b =>
    let k := (x.1 - b.dpa) / 2 ^ 28
    let n := x.2 / 2 ^ 28
    if b.dpa ≤ x.1 && (x.1 - b.dpa) % 2 ^ 28 == 0 && x.2 % 2 ^ 28 == 0 && 0 < n && k + n ≤ p.2.extents.length
    then some (p.1, (List.range n).map (k + ·)) else none))

/-- ADD_DYNAMIC_CAPACITY_RESPONSE (R78): the host accepts extents offered to it; they become reachable. An empty list
accepts none. -/
def addDc (m : MboxReq) (s : State) : State × Nat × List Byte :=
  match dcList m.input with
  | none => mbErr s 0x16
  | some l =>
    let named := l.map (dcNames s m.issuer)
    let ok := named.all (fun x => match x with
      | some (id, _) => ((allotOf s id).map (offering s)).getD false
      | none => false)
    if ok then
      mbOk (named.foldl (fun s x => match x with
        | some (id, ks) => modBinding s id m.issuer (fun b => { b with accepted := ks.foldl sins b.accepted,
                                                                       released := ks.foldl sdel b.released })
        | none => s) s) []
    else mbErr s 0x0F

/-- ADD_DYNAMIC_CAPACITY_RESPONSE. -/
def execAddDynamicCapacityResponse (m : MboxReq) (t : Nat) (s : State) : Host.Outcome State Fault Refusal :=
  .next (mboxRun m t (addDc m) s)

/-- Extents a host holds of an allotment, or held in a window since withdrawn. -/
def holdsAll (s : State) (issuer id : Nat) (ks : List Nat) : Bool :=
  match allotOf s id with
  | some a => a.bindings.any (fun b => b.issuer.toNat == issuer && ks.all b.accepted.contains)
  | none => false

/-- RELEASE_DYNAMIC_CAPACITY (R80, R103, R105): the host gives extents back; a shrink or a removal that waited for them goes
on. -/
def releaseDc (m : MboxReq) (s : State) : State × Nat × List Byte :=
  match dcList m.input with
  | none => mbErr s 0x16
  | some l =>
    let named := l.map (dcNames s m.issuer)
    let ok := named.all (fun x => match x with | some (id, ks) => holdsAll s m.issuer id ks | none => false)
    if ok then
      mbOk (judgeRelease (named.foldl (fun s x => match x with
        | some (id, ks) => modBinding s id m.issuer (fun b => { b with accepted := ks.foldl sdel b.accepted,
                                                                       released := ks.foldl sins b.released })
        | none => s) s)) []
    else mbErr s 0x0F

/-- RELEASE_DYNAMIC_CAPACITY. -/
def execReleaseDynamicCapacity (m : MboxReq) (t : Nat) (s : State) : Host.Outcome State Fault Refusal :=
  .next (mboxRun m t (releaseDc m) s)

/-! ### Fabric-manager API (R74) -/

/-- A fabric-manager API command: served on the fabric-manager-owned logical device; every other one answers Unsupported
(R100). -/
def fmRun (m : MboxReq) (t : Nat) (f : State → State × Nat × List Byte) (s : State) : State :=
  mboxRun m t (fun s => if m.issuer == 0x1000 + m.port then f s else mbErr s 3) s

/-- Logical devices reported: sixteen in multi-logical-device mode; in G-FAM mode only the fabric-manager-owned one
(R72, R74). -/
def ldCount (s : State) (m : MboxReq) : Nat := if (port s m.port).mode == 1 then 16 else 1

/-- GET_LD_INFO (R74): 11 bytes, the count of logical devices in bytes 8–9. -/
def execGetLdInfo (m : MboxReq) (t : Nat) (s : State) : Host.Outcome State Fault Refusal :=
  .next (fmRun m t (fun s => mbOver s 0x5400 11 m 8 (le (ldCount s m) 2)) s)

/-- GET_LD_ALLOCATIONS (R74): from logical device byte 0, at most byte 1 of them; no static capacity. -/
def execGetLdAllocations (m : MboxReq) (t : Nat) (s : State) : Host.Outcome State Fault Refusal :=
  .next (fmRun m t (fun s =>
    if m.input.length != 2 then mbErr s 0x16
    else if ldCount s m ≤ rd m.input 0 1 then mbErr s 2
    else
      let n := min (rd m.input 1 1) (ldCount s m - rd m.input 0 1)
      mbOk s (le (ldCount s m) 1 ++ zeros 1 ++ le (rd m.input 0 1) 1 ++ le n 1 ++ zeros (16 * n))) s)

/-- SET_LD_ALLOCATIONS (R74): accepted only with zero static capacity for every logical device. -/
def execSetLdAllocations (m : MboxReq) (t : Nat) (s : State) : Host.Outcome State Fault Refusal :=
  .next (fmRun m t (fun s =>
    if m.input.length != 4 + 16 * rd m.input 0 1 then mbErr s 0x16
    else if ldCount s m < rd m.input 1 1 + rd m.input 0 1 || !allZero (m.input.drop 4) then mbErr s 2
    else mbOk s m.input) s)

/-- GET_QOS_CONTROL (R74): seven bytes. -/
def execGetQosControl (m : MboxReq) (t : Nat) (s : State) : Host.Outcome State Fault Refusal :=
  .next (fmRun m t (fun s => mbOk s (padTo (port s m.port).qosControl 7)) s)

/-- SET_QOS_CONTROL (R74): seven bytes. -/
def execSetQosControl (m : MboxReq) (t : Nat) (s : State) : Host.Outcome State Fault Refusal :=
  .next (fmRun m t (fun s =>
    if m.input.length == 7 then mbOk (setPort s m.port { port s m.port with qosControl := m.input }) m.input else mbErr s 0x16) s)

/-- GET_QOS_STATUS (R74). -/
def execGetQosStatus (m : MboxReq) (t : Nat) (s : State) : Host.Outcome State Fault Refusal :=
  .next (fmRun m t (fun s => mbFree s 0x5405 m) s)

/-- The answer of a Get of one byte per logical device: count and start, then the bytes. -/
def ldGet (s : State) (m : MboxReq) (l : List Byte) : State × Nat × List Byte :=
  if m.input.length != 2 then mbErr s 0x16
  else if ldCount s m < rd m.input 1 1 + rd m.input 0 1 then mbErr s 2
  else mbOk s (m.input ++ slice (padTo l 16) (rd m.input 1 1) (rd m.input 0 1))

/-- The bytes a Set of one byte per logical device leaves, or its return code. -/
def ldSet (s : State) (m : MboxReq) (l : List Byte) : Except Nat (List Byte) :=
  if m.input.length != 2 + rd m.input 0 1 then .error 0x16
  else if ldCount s m < rd m.input 1 1 + rd m.input 0 1 then .error 2
  else .ok (overlay (padTo l 16) (rd m.input 1 1) (m.input.drop 2))

/-- GET_QOS_ALLOCATED_BANDWIDTH (R74). -/
def execGetQosAllocatedBandwidth (m : MboxReq) (t : Nat) (s : State) : Host.Outcome State Fault Refusal :=
  .next (fmRun m t (fun s => ldGet s m (port s m.port).qosAlloc) s)

/-- SET_QOS_ALLOCATED_BANDWIDTH (R74). -/
def execSetQosAllocatedBandwidth (m : MboxReq) (t : Nat) (s : State) : Host.Outcome State Fault Refusal :=
  .next (fmRun m t (fun s => match ldSet s m (port s m.port).qosAlloc with
    | .ok l => mbOk (setPort s m.port { port s m.port with qosAlloc := l }) m.input
    | .error e => mbErr s e) s)

/-- GET_QOS_BANDWIDTH_LIMIT (R74). -/
def execGetQosBandwidthLimit (m : MboxReq) (t : Nat) (s : State) : Host.Outcome State Fault Refusal :=
  .next (fmRun m t (fun s => ldGet s m (port s m.port).qosLimit) s)

/-- SET_QOS_BANDWIDTH_LIMIT (R74). -/
def execSetQosBandwidthLimit (m : MboxReq) (t : Nat) (s : State) : Host.Outcome State Fault Refusal :=
  .next (fmRun m t (fun s => match ldSet s m (port s m.port).qosLimit with
    | .ok l => mbOk (setPort s m.port { port s m.port with qosLimit := l }) m.input
    | .error e => mbErr s e) s)

/-! ### MCTP control messages (R48) -/

/-- An MCTP control message and its answer, with the request's message tag: message type 0x00, command code, completion code,
data. Nothing answers in OFF, where TWI0 does not carry MCTP, or at an address it does not acknowledge (R366). -/
def mctpRun (h : MctpHead) (cmd t : Nat) (f : State → State × Nat × List Byte) (s : State) : State :=
  let s := tick s t
  if s.dev.state != .off && mctpUp s && twiAnswers s h.addr then
    let r := f s
    emit r.1 (.mctp h.back h.src h.tag ([0x00#8, 0x00#8] ++ le cmd 1 ++ le r.2.1 1 ++ r.2.2))
  else s

/-- SET_ENDPOINT_ID (R48): the null and the broadcast ID are no endpoint's. -/
def execSetEndpointId (h : MctpHead) (eid t : Nat) (s : State) : Host.Outcome State Fault Refusal :=
  .next (mctpRun h 1 t (fun s =>
    if eid % 256 == 0 || eid % 256 == 255 then (s, 2, [])
    else ({ s with trl := { s.trl with eid := eid % 256 } }, 0, [0#8] ++ le eid 1 ++ [0#8])) s)

/-- GET_ENDPOINT_ID (R48). -/
def execGetEndpointId (h : MctpHead) (t : Nat) (s : State) : Host.Outcome State Fault Refusal :=
  .next (mctpRun h 2 t (fun s => (s, 0, le s.trl.eid 1 ++ [0#8, 0#8])) s)

/-- GET_MCTP_VERSION_SUPPORT (R48): DSP0236 version 1.3 for the base specification, control messages and type 0x7F; a type
not supported answers 0x80. -/
def execGetMctpVersionSupport (h : MctpHead) (typ t : Nat) (s : State) : Host.Outcome State Fault Refusal :=
  .next (mctpRun h 4 t (fun s =>
    if typ == 0xFF || typ == 0x00 || typ == 0x7F then (s, 0, [1#8, 0xF1#8, 0xF3#8, 0xFF#8, 0x00#8]) else (s, 0x80, [])) s)

/-- GET_MESSAGE_TYPE_SUPPORT (R48): vendor-defined IANA messages and no other type. -/
def execGetMessageTypeSupport (h : MctpHead) (t : Nat) (s : State) : Host.Outcome State Fault Refusal :=
  .next (mctpRun h 5 t (fun s => (s, 0, [1#8, 0x7F#8])) s)

/-! ### SPDM over DOE and IDE_KM (R98, R99) -/

/-- An SPDM request on a port whose link is up: where `ok` of the port's responder state holds, the state changes by `f` and
the response follows; otherwise an ERROR response, UnexpectedRequest. What SPDM 1.2 puts into a response is free. -/
def spdmRun (n code t : Nat) (data : List Byte) (ok : SpdmState → Bool) (f : SpdmState → SpdmState)
    (body : State → List Byte → List Byte) (s : State) : State :=
  let s := tick s t
  let p := port s n
  if p.link != 2 then s
  else if ok p.spdm then
    emit (drew (setPort s n { p with spdm := f p.spdm }))
      (.doe n ([0x12#8] ++ le (code - 0x80) 1 ++ body s (Config.spdmResponse code data s.draws)))
  else emit s (.doe n [0x12#8, 0x7F#8, 0x04#8, 0x00#8])

/-- A body that SPDM lays out and the manual leaves free. -/
def freeBody (_ : State) (l : List Byte) : List Byte := l

/-- The body of ALGORITHMS as SPDM 1.2 lays it out (log entry 35), with what R98 fixes: ECDSA over P-384 and SHA-384 for the
base algorithms, ECDH over secp384r1 and AES-256-GCM for sessions; the measurement fields are free. -/
def algorithmsBody (_ : State) (l : List Byte) : List Byte :=
  [2#8, 0#8] ++ le 44 2 ++ padTo l 6 ++ le 0x80 4 ++ le 2 4 ++ zeros 16 ++ ([2#8, 0x20#8] ++ le 0x10 2) ++ ([3#8, 0x20#8] ++ le 2 2)

/-- GET_VERSION: the connection begins anew. -/
def execGetVersion (n : Nat) (data : List Byte) (t : Nat) (s : State) : Host.Outcome State Fault Refusal :=
  .next (spdmRun n 0x84 t data (fun _ => true) (fun _ => { version := true }) freeBody s)

/-- GET_CAPABILITIES. -/
def execGetCapabilities (n : Nat) (data : List Byte) (t : Nat) (s : State) : Host.Outcome State Fault Refusal :=
  .next (spdmRun n 0xE1 t data (fun x => x.version && !x.algs) (fun x => { x with caps := true }) freeBody s)

/-- NEGOTIATE_ALGORITHMS: ECDSA P-384 with SHA-384, ECDH secp384r1, AES-256-GCM. -/
def execNegotiateAlgorithms (n : Nat) (data : List Byte) (t : Nat) (s : State) : Host.Outcome State Fault Refusal :=
  .next (spdmRun n 0xE3 t data (fun x => x.caps) (fun x => { x with algs := true }) algorithmsBody s)

/-- The body of DIGESTS as SPDM 1.2 lays it out: slot 0 alone, the digest of its chain (R98, R412). -/
def digestsBody (s : State) (_ : List Byte) : List Byte := [0#8, 1#8] ++ bytes (sha384 (nats (identityChain s)))

/-- The body of CERTIFICATE as SPDM 1.2 lays it out: the portion of the chain of slot 0 that the request asks for by its offset
and length (R98, R412). -/
def certificateBody (req : List Byte) (s : State) (_ : List Byte) : List Byte :=
  let c := identityChain s
  let part := (c.drop (rd req 2 2)).take (rd req 4 2)
  [0#8, 0#8] ++ le part.length 2 ++ le (c.length - rd req 2 2 - part.length) 2 ++ part

/-- GET_DIGESTS. -/
def execGetDigests (n : Nat) (data : List Byte) (t : Nat) (s : State) : Host.Outcome State Fault Refusal :=
  .next (spdmRun n 0x81 t data (fun x => x.algs) id digestsBody s)

/-- GET_CERTIFICATE: the identity chain. -/
def execGetCertificate (n : Nat) (data : List Byte) (t : Nat) (s : State) : Host.Outcome State Fault Refusal :=
  .next (spdmRun n 0x82 t data (fun x => x.algs) id (certificateBody data) s)

/-- CHALLENGE. -/
def execChallenge (n : Nat) (data : List Byte) (t : Nat) (s : State) : Host.Outcome State Fault Refusal :=
  .next (spdmRun n 0x83 t data (fun x => x.algs) id freeBody s)

/-- The digests of the four images of the active slot, as its manifest gives them (R98, R399). -/
def imageDigests (s : State) : List Byte :=
  match s.fwu.active with
  | some b => (manifest (container (readUnits s (mainSector (b2n b) 0) 480)).body).flatMap (fun e => e.2.2)
  | none => []

/-- GET_MEASUREMENTS: the digests of the four firmware images. -/
def execGetMeasurements (n : Nat) (data : List Byte) (t : Nat) (s : State) : Host.Outcome State Fault Refusal :=
  .next (spdmRun n 0xE0 t data (fun x => x.algs) id (fun s l => imageDigests s ++ l) s)

/-- KEY_EXCHANGE: a handshake begins. -/
def execKeyExchange (n : Nat) (data : List Byte) (t : Nat) (s : State) : Host.Outcome State Fault Refusal :=
  .next (spdmRun n 0xE4 t data (fun x => x.algs) (fun x => { x with handshake := true, session := false, keyGen := 0 }) freeBody s)

/-- FINISH: `ok` says whether the requester's proof verifies; the session is open. -/
def execFinish (n : Nat) (data : List Byte) (ok : Bool) (t : Nat) (s : State) : Host.Outcome State Fault Refusal :=
  .next (spdmRun n 0xE5 t data (fun x => x.handshake && ok) (fun x => { x with handshake := false, session := true }) freeBody s)

/-- END_SESSION. -/
def execEndSession (n : Nat) (data : List Byte) (t : Nat) (s : State) : Host.Outcome State Fault Refusal :=
  .next (spdmRun n 0xEC t data (fun x => x.session) (fun x => { x with session := false, keyGen := 0 }) freeBody s)

/-- KEY_UPDATE: within a session. -/
def execKeyUpdate (n : Nat) (data : List Byte) (t : Nat) (s : State) : Host.Outcome State Fault Refusal :=
  .next (spdmRun n 0xE9 t data (fun x => x.session) (fun x => { x with keyGen := x.keyGen + 1 }) freeBody s)

/-- What an IDE_KM message does to a port: object 2 programs a key set, 4 switches to the set programmed, which leaves the
insecure state, 5 stops (R98, R99). -/
def ideKm (p : Port) (data : List Byte) : Port :=
  match rd data 1 1 with
  | 2 => { p with ideKeys := { p.ideKeys with programmed := data.drop 2 } }
  | 4 =>
    if p.ideKeys.programmed.isEmpty then p
    else { p with ide := 1, ideKeys := { programmed := [], inUse := p.ideKeys.programmed, running := true } }
  | 5 => { p with ide := if p.ide == 2 then 2 else 0, ideKeys := { p.ideKeys with running := false } }
  | _ => p

/-- IDE_KM: within a secured session; outside one it is not taken. -/
def execIdeKm (n : Nat) (data : List Byte) (t : Nat) (s : State) : Host.Outcome State Fault Refusal :=
  let s := tick s t
  let p := port s n
  .next (if p.link != 2 || !p.spdm.session then s
    else emit (drew (setPort s n (ideKm p data))) (.doe n (Config.spdmResponse 0xFE data s.draws)))

end Sys2Proof.Machine
end

