-- ==== Sys2Proof/Machine/Training.lean ====
section
/-! DEFINITION. TRAINING: the steps of Table 6.8, the population checks, the start case, the restore's beginning and the
entry into service (chapters 4, 6, 7, 8 and 9; row 168 of the table). -/

namespace Sys2Proof.Machine

open Sys2Proof

/-! ### Step 3: the DRAM population (R108, R109, R112) -/

/-- Reason of POP_ERR for one channel, given the first populated one; 0 where it is supported. -/
def popCode (first x : ChanSpd) : Nat :=
  let d := x.dimms
  if !x.readable then 8
  else if d.any (fun y => !y.rdimm) then 1
  else if d.any (fun y => !y.x4) then 2
  else if d.any (fun y => !([64, 128, 256, 512].contains y.gb) || !([1, 2, 4].contains y.ranks)) then 3
  else if d.any (fun y => 410 < y.trfc) then 4
  else if d.isEmpty || 2 < d.length || d.any (fun y => some y != d.head?) then 5
  else if first.readable && (d.length != first.dimms.length || d.head?.map (fun y => (y.gb, y.ranks, y.trfc, y.geo))
    != first.dimms.head?.map (fun y => (y.gb, y.ranks, y.trfc, y.geo))) then 5
  else 0

/-- Capacity of a channel in units of 64 GiB. -/
def chanCap (x : ChanSpd) : Nat := (x.dimms.map (·.gb)).foldl (· + ·) 0 / 64

/-- The first offending channel and its reason, of a population that breaks Table 4.1. -/
def popError (s : State) (l : List ChanSpd) : Option (Nat × Nat) :=
  let first := l.headD {}
  match l.find? (fun x => popCode first x != 0) with
  | some x => some (x.chan, popCode first x)
  | none =>
    let n := l.length
    let tib := n * chanCap first
    if !((if isBig s then [4, 8, 16] else [4, 8]).contains n) || l.any (fun x => nDdr s ≤ x.chan) then some (first.chan, 9)
    else if tib < 16 || (if isBig s then 256 else 128) < tib then some (first.chan, 3)
    else none

/-- DDR_POP: the start ends (R109). -/
def ddrPop (s : State) (c reason : Nat) : State :=
  raise (setDdr s c { ddr s c with popErr := reason }) (0x040 + 8 * c) reason

/-- The rate of every channel: the lowest its DIMMs and SPEED_CAP of the channels allow (R108). -/
def popSpeed (s : State) (l : List ChanSpd) : Nat :=
  l.foldl (fun m x => min (min m (cfg s (regAt rDdrCfg x.chan) 24 3)) (x.dimms.foldl (fun m y => min m y.speed) m)) 4

/-- Step 3 ends: the SPD of every DIMM is read and the population checked. -/
def trainSpd (s : State) (l : List ChanSpd) (geo : BitVec 64) : State :=
  if (tgetD s.twi.ports 3 {}).st == 3 then ddrPop s ((l.headD {}).chan) 8
  else match popError s l with
    | some (c, e) => ddrPop s c e
    | none =>
      let v := popSpeed s l
      let s := l.foldl (fun s x => setDdr s x.chan { ddr s x.chan with
        st := if (ddr s x.chan).st == 3 then 3 else 1, popErr := 0, dimms := x.dimms.length, ranks := (x.dimms.headD {}).ranks,
        speed := v, cap64 := chanCap x }) s
      { s with ddrs := { s.ddrs with geometry := geo, ch := s.ddrs.ch.map (fun p =>
        if l.any (fun x => x.chan == p.1) then p else (p.1, {})) } }

/-- Capacity of the fitted DRAM in bytes. -/
def dramBytes (s : State) : Nat := (popChannels s).foldl (fun a c => a + (ddr s c).cap64 * 2 ^ 36) 0

/-- ALT_EXT_TOTAL: the capacity in extents less the reserved ones (R112, Table 4.2). -/
def extTotal (s : State) : Nat :=
  let b := dramBytes s
  let n := (popChannels s).length
  let reserved := b / 2 ^ 17 + 2 * (b / 2 ^ 11) + n * (b / 2 ^ 27) + n * 4 * 2 ^ 20 + 2 ^ 31
  b / 2 ^ 28 - cdiv reserved (2 ^ 28)

/-! ### Step 5: the flash population (R201–R203, R291) -/

/-- ERR_CODE of a channel that breaks R202, by the first target of the population; 0 where it is supported. -/
def flashCode (s : State) (first : FlashTgt) (n : Nat) (x : FlashChan) : Nat :=
  if x.targets.any (fun y => !y.param) then 5
  else if x.targets.any (fun y => y.part != first.part || !y.cell || !([2, 4].contains y.planes)) then 2
  else if x.targets.length != n || 16 < n then 3
  else if !((s.ftl.retryTable.getD {}).parts.any (fun p => p.part == first.part)) then 4
  else 0

/-- Channels of a population that break R202 or, where the device has one, its population record: channel and ERR_CODE.
A recorded target that does not answer is no difference (R203). -/
def flashErrors (s : State) (l : List FlashChan) : List (Nat × Nat) :=
  let first := ((l.headD {}).targets).headD {}
  match s.ftl.popRec with
  | none =>
    let bad := (l.map (fun x => (x.chan, flashCode s first (l.headD {}).targets.length x))).filter (fun p => p.2 != 0)
    if bad.isEmpty && (!((if isBig s then [8, 16, 32] else [8, 16]).contains l.length) || (l.headD {}).targets.isEmpty
      || l.any (fun x => nFch s ≤ x.chan)) then [((l.headD {}).chan, 3)] else bad
  | some r =>
    let n := r.targets.headD 0
    (l.map (fun x =>
      if !r.channels.contains x.chan then (x.chan, 3)
      else if x.targets.any (fun y => !y.param) then (x.chan, 5)
      else if x.targets.any (fun y => y.part != r.part) then (x.chan, 2)
      else if n < x.targets.length then (x.chan, 3)
      else if !((s.ftl.retryTable.getD {}).parts.any (fun p => p.part == r.part)) then (x.chan, 4)
      else (x.chan, 0))).filter (fun p => p.2 != 0)

/-- Bytes the items of Table 9.6 take of the device scratch besides working memory. -/
def scratchUsed (s : State) : Nat :=
  let blocks := (s.ftl.targets.map (fun p => p.2.good)).foldl (· + ·) 0
  let grans := extTotal s * 16384
  blocks * s.ftl.planes * s.ftl.tlcPages / 8 + 8 * blocks + 2 * (grans / 8) + 8 * nBeds s * 4 * 2 ^ 20

/-- The spares a target keeps (R217). -/
def spareCount (s : State) (good : Nat) : Nat := good * clamp 1 10 (cfg s rFtlCfg 24 8) / 100

/-- Targets of the two seal locations: target 0, or 1 where it has failed, of the first channel and of the one half-way (R222). -/
def sealPlaces (s : State) : List Nat :=
  let cs := flashChans s
  let on := fun (c : Nat) => if (tgetD s.ftl.targets (16 * c) {}).failed then 16 * c + 1 else 16 * c
  [on (cs.headD 0), on (cs.getD (cs.length / 2) 0)]

/-- A target as it is first recorded, with its spares (R216, R217). -/
def newTarget (s : State) (y : FlashTgt) : Target :=
  let sp := spareCount s y.good
  { uid := y.uid, good := y.good, spares := sp, spares0 := sp, trainTemp := y.temp, temp := y.temp, bad := y.bad }

/-- A replaced target joins the superblocks that lacked it, erased (R233); the locator names it (R221). -/
def joinTarget (s : State) (k : Nat) (y : FlashTgt) : State :=
  locatorWrite { s with ftl := { s.ftl with
    targets := tset s.ftl.targets k (newTarget s y),
    sbs := s.ftl.sbs.map (fun p => (p.1, { p.2 with missing := sdel p.2.missing k })),
    blocks := s.ftl.blocks.filter (fun p => p.1 / 8192 != k),
    pages := s.ftl.pages.filter (fun p => faTgt p.1 != k),
    fces := tmod s.ftl.fces (k / 16) {} (fun f => { f with failed := if bit f.failed (k % 16) then f.failed - 2 ^ (k % 16) else f.failed }) } }

/-- A channel engine as its training leaves it; one that is not enabled or cannot train has failed (R201). -/
def trainFce (s : State) (x : FlashChan) (failed : Nat) : Fce :=
  let ok := x.trains && cfg s (regAt rFceCfg x.chan) 31 1 == 1
  { st := if ok then 2 else 3, err := if ok then 0 else 1, targets := x.targets.length,
    rate := min x.rate (cfg s (regAt rFceCfg x.chan) 0 2), failed := failed }

/-- Step 5 ends: the population is checked, recorded on a blank device, and the targets that miss are failed; the flash keys
stand. -/
def trainFlash (s : State) (l : List FlashChan) : State :=
  let s := if s.ftl.locatorOk then s else raiseOpen { s with ftl := { s.ftl with locatorOk := true, popRec := none } } 0x142
  match flashErrors s l with
  | (c, e) :: more =>
    raiseOpen { s with ftl := { s.ftl with
      fces := ((c, e) :: more).foldl (fun t p => tset t p.1 { st := 3, err := p.2 }) s.ftl.fces } } 0x140
  | [] =>
    let y := ((l.headD {}).targets).headD {}
    let fresh := s.ftl.popRec.isNone
    let n := match s.ftl.popRec with | some r => r.targets.headD 0 | none => (l.headD {}).targets.length
    let s := { s with ftl := { s.ftl with
      popRec := some (s.ftl.popRec.getD { channels := l.map (·.chan), targets := l.map (fun _ => n), part := y.part }),
      planes := y.planes, tlcPages := y.tlcPages, progUs := y.progUs, readUs := y.readUs,
      stripesPerSb := y.tlcPages / 3,
      rated := (((s.ftl.retryTable.getD {}).parts.find? (fun p => p.part == y.part)).map (·.rated)).getD 0,
      fces := l.foldl (fun t x => tset t x.chan (trainFce s x (tgetD t x.chan {}).failed)) s.ftl.fces } }
    let s := if fresh && s.ftl.targets.isEmpty then
        { s with ftl := { s.ftl with targets := l.foldl (fun t x => x.targets.foldl (fun t y =>
          tset t (16 * x.chan + y.vol) (newTarget s y)) t) s.ftl.targets } }
      else s
    let s := if fresh then locatorWrite s else s
    let found := fun (k : Nat) => (l.find? (fun x => x.chan == k / 16)).bind (fun x => x.targets.find? (fun y => y.vol == k % 16))
    let todo := s.hrv.todo
    let all := (tkeys s.ftl.map)
    let s := { s with hrv := { s.hrv with todo := all } }
    let s := (tkeys s.ftl.targets).foldl (fun s k =>
      let dead := (tgetD s.ftl.fces (k / 16) {}).st != 2
      match found k with
      | none => failTarget s k
      | some y =>
        if dead then failTarget s k
        else if y.uid != (tgetD s.ftl.targets k {}).uid then joinTarget (failTarget s k) k y
        else { s with ftl := { s.ftl with targets := tmod s.ftl.targets k {} (fun x => { x with polls := 0, trainTemp := y.temp, temp := y.temp }) } }) s
    let w := s.ftl.targets.length * y.planes * 16384
    let s := { s with
      hrv := { s.hrv with todo := todo, phase := 6 },
      ftl := { s.ftl with stripeW := w, headerStripes := cdiv (4096 + cdiv (extTotal s * 16384) 8) w,
                          sbs0 := s.ftl.targets.foldl (fun m p => min m (p.2.good - spareCount s p.2.good)) 8192 },
      drp := { s.drp with bTotal := s.ftl.targets.length * y.gib * 2 ^ 30 * s.ftl.rated * 9 / 10 } }
    if decide (0x60000000 < scratchUsed s) then raiseOpen s 0x140 else s

/-! ### Step 6: the records and the start case (R109, R181, R190) -/

/-- The last run closed with the seal in force, or there was none (R180). -/
def sealStands (s : State) : Bool := !s.hrv.runOpen && s.hrv.loss.isNone

/-- The seal found is the last one written; an older one leaves the run after it open (R179, R180). -/
def sealLast (s : State) (a : Option Seal) : Bool := match a with | some x => x.seq == sealSeq s | none => false

/-- The image is clear (R196). -/
def imageClear (s : State) (valid : Bool) : Bool :=
  valid && sealStands s && (match s.hrv.seals with | x :: _ => x.kind != 0 | [] => false) && s.alt.tab.isEmpty && !s.exl.paired

/-- An image exists: created, with a commit, a checkpoint or a harvest since. -/
def imageIs (s : State) : Bool := s.drp.origin.isSome || s.hrv.imageDrip || s.ftl.map.any (fun p => p.2.kind != 0)

/-- A blank device: no image and no seal, or a clear image (R181, R196). -/
def blankDevice (s : State) : Bool := (!imageIs s && s.hrv.seals.isEmpty) || imageClear s true

/-- The population the seal records is the one fitted: the first channel that differs otherwise. -/
def sealDiffers (s : State) (a : Seal) : Option Nat :=
  let p := sealPop s a
  if p.channels == a.channels && p.dimms == a.dimms && p.ranks == a.ranks && p.cap64 == a.cap64 && p.geometry == a.geometry then none
  else
    let all := List.range 16
    some (((all.find? (fun c => bit p.channels c != bit a.channels c)).orElse (fun _ => all.find? (bit p.channels))).getD 0)

/-- The conditions of a warm return (R190); `held`: the record's CRC was read as it was written. -/
def warmOk (s : State) (valid held : Bool) : Bool :=
  match s.hrv.warmRec with
  | some r => valid && held && r.crc == heldCrc r && sealStands s && r.sealSeq == sealSeq s && !r.excursion && !r.drst && r.channels == maskOf (popChannels s)
      && r.pop == (popChannels s).map (fun c => ((ddr s c).dimms, (ddr s c).ranks))
  | none => false

/-- The row of Table 6.7 that applies, 1 to 6; `valid`: the last seal verifies, `loss`: the loss record does. -/
def startRow (s : State) (valid warm loss : Bool) : Nat :=
  if (s.hrv.seals.isEmpty && !imageIs s) || imageClear s valid then 1
  else if warm then 2
  else if valid && sealStands s then 3
  else match loss, s.hrv.loss with
    | true, some x => if x.bound.any (fun b => decide (x.header ≤ b + 1)) then 4 else 5
    | _, _ => 6

/-- A page of the unsealed harvest passes its checks: read, its META_CRC right, in a stripe up to B (R181). -/
def savedPage (s : State) (p : Nat × Page) : Bool :=
  p.2.kind == 2 && p.2.sealSeq == sealSeq s + 1 && !s.hrv.unread.contains p.1 && p.2.metaCrc == metaCrcOf p.2
    && (s.hrv.loss.bind (·.bound)).any (fun b => decide (p.2.stripe ≤ b))

/-- A granule of the snapshot was saved (R181). -/
def savedTo (s : State) (g : Nat) : Bool := s.ftl.pages.any (fun p => p.2.gran == g && savedPage s p)

/-- The lost 1 GiB regions of a row of Table 6.7. -/
def lostRegions (s : State) (row : Nat) : List Nat :=
  match row with
  | 3 => (s.hrv.seals.head?.map (·.unsavedRegions)).getD []
  | 4 => ((headerGrans s (sealSeq s + 1)).filter (fun g => !savedTo s g)).foldl (fun l g => sins l (granRegion g)) []
  | 5 => (s.hrv.loss.map (·.regions)).getD []
  | 6 => allotRegions s
  | _ => []

/-- The HRV registers as the seal's metadata keeps them, and SHORT: the last harvest was cut off, or left granules unsaved
(R200). -/
def restoreRegs (s : State) (found : Option Seal) (stands loss : Bool) : State :=
  let v := fun (a : Seal) (i : Nat) => a.regs.getD i 0
  let s := match found with
    | some a => { s with hrv := { s.hrv with cutNs := v a 0, linkDownNs := v a 1, lastGranules := v a 2, lastTimeUs := v a 3,
                                             rates := [v a 4, v a 5, v a 6, v a 7] } }
    | none => s
  { s with hrv := { s.hrv with short := (loss && (s.hrv.loss.bind (·.bound)).isSome)
                                        || (stands && (match found with | some a => a.kind == 0 && a.unsaved != 0 | none => false)) } }

/-- Step 6 ends: the records are read, the population is compared with the seal, the start case is chosen; a start out of
HELD that fails a condition becomes cold (R190). -/
def trainRecords (s : State) (a b held loss : Bool) (unread : List Nat) : State :=
  let found := sealFound s [a, b]
  let valid := sealLast s found
  let loss := loss && (match s.hrv.loss with | some x => x.crc == BitVec.ofNat 32 (crc32c (lossBytes s x)) | none => false)
  let s := { s with hrv := { s.hrv with unread := unread } }
  let differs := if imageClear s valid then none else found.bind (sealDiffers s)
  match differs with
  | some c => ddrPop s c 7
  | none =>
    let warm := warmOk s valid held
    let refused := s.hrv.warmRec.isSome && !warm
    let s := if refused then
        raiseOpen { s with
          hrv := { s.hrv with warmRec := none },
          pin := { s.pin with drst := [] },
          mem := { s.mem with cells := [], poison := [], ueLines := [], crc := [] },
          ddrs := { s.ddrs with ch := s.ddrs.ch.map (fun p => (p.1, if p.2.st == 3 then { p.2 with st := 1 } else p.2)) } } 0x153
      else s
    let row := startRow s valid warm loss
    let ep := (found.map (fun x => x.epoch + 1)).getD 0
    let s := restoreRegs s found (valid && sealStands s) loss
    { s with
      hrv := { s.hrv with row := row, lostRegions := (lostRegions s row).length },
      exl := { s.exl with epoch := max s.exl.epoch ep } }

/-! ### Step 4: DRAM training (R117–R119) -/

/-- The widest contiguous run of passing points of a sweep of 128 steps, its first step and its length; of two as wide, the
one lower down (R117, log entry 113). -/
def widestRun (p : BitVec 128) : Nat × Nat :=
  let r := (List.range 128).foldl (fun (m : (Nat × Nat) × Nat) i =>
    if p.toNat.testBit i then ((if m.1.2 ≤ m.2 then (i - m.2, m.2 + 1) else m.1), m.2 + 1) else (m.1, 0)) ((0, 0), 0)
  r.1

/-- The midpoint of a run of passing points: the lower of two. -/
def runMid (r : Nat × Nat) : Nat := r.1 + (r.2 - 1) / 2

/-- Training of one lane: a sweep, or after a warm return the verification of its saved centre, swept where that fails. -/
def trainLane (s : State) (warm : Bool) (x : LaneSweep) : State :=
  if s.dev.state != .training || (ddr s x.chan).dimms == 0 then s
  else
    let d := ddr s x.chan
    let old := tgetD d.lanes x.lane {}
    if warm && x.centre then
      let s := setDdr s x.chan { d with lanes := tset d.lanes x.lane { old with hostSet := false } }
      if x.edges then s else raiseOpen s (0x041 + 8 * x.chan)
    else if (widestRun x.rdPass).2 < 16 || (widestRun x.wrPass).2 < 16 then ddrPop s x.chan 6
    else
      let r := runMid (widestRun x.rdPass)
      let w := runMid (widestRun x.wrPass)
      let m := min (widestRun x.rdPass).2 (widestRun x.wrPass).2
      setDdr s x.chan { d with lanes := tset d.lanes x.lane { rd := r, wr := w, hwRd := r, hwWr := w, margin := m } }

/-- The channels take the lane delays saved at self-refresh entry (R119, R123). -/
def savedLanes (s : State) (r : HeldRec) : State :=
  ((popChannels s).zip r.lanes).foldl (fun s p => setDdr s p.1 { ddr s p.1 with lanes := p.2 }) s

/-- Every lane of every populated channel has been swept or verified (R117, R119). -/
def lanesCovered (s : State) (l : List LaneSweep) : Bool :=
  (popChannels s).all (fun c => (allLanes (ddr s c)).all (fun k => l.any (fun x => x.chan == c && x.lane == k)))

/-- Step 4 ends: every channel is trained and active, its DIMM reset is high, and the RWS fields of its registers are in
force (R117, R124). -/
def trainDram (s : State) (l : List LaneSweep) : State :=
  let warm := s.hrv.warmRec.isSome
  let s := match s.hrv.warmRec with | some r => savedLanes s r | none => s
  let s := l.foldl (fun s x => trainLane s warm x) s
  if s.dev.state != .training then s
  else (popChannels s).foldl (fun s c =>
    let s := { s with pin := { s.pin with drst := sins s.pin.drst c } }
    let d := ddr s c
    let lanes := d.lanes
    setDdr s c { d with st := 2, retraining := false, probed := [], lastPass := s.now, passTemps := d.temps, scrubFrom := s.now, scrubAt := 0,
                        ceThresh := cfg s (regAt rDdrCfg c) 0 16, sameBank := cfg s (regAt rDdrCfg c) 16 1 == 1,
                        refAt := [], postponed := [], pulledIn := [],
                        marginMin := lanes.foldl (fun m p => min m p.2.margin) (if lanes.isEmpty then 0 else 255) }) s

/-! ### Step 7 and the end of TRAINING (R181–R185, R192, R196, R217, R250, R269) -/

/-- The slices resume at the higher of the seal's cut sequence plus 1 and the bound last journaled (R250). -/
def resumeSlices (s : State) : State :=
  let cut := (s.hrv.seals.head?.map (·.cutSeq)).getD []
  (List.range 64).foldl (fun s k =>
    let b := tgetD s.ldg.journaled k 1
    let n := max b (match cut[k]? with | some x => x.toNat + 1 | none => 1)
    { s with ldg := { s.ldg with seqs := tset s.ldg.seqs k (n - 1), bounds := tset s.ldg.bounds k b } }) s

/-- The harvest copies of a start case: those of the sealed harvest, or in the fourth row those up to B; each by the key
generation of its allotment (R181, R183, R220). -/
def mergeHarvest (s : State) (row : Nat) : State :=
  let seq := if row == 4 then sealSeq s + 1 else sealSeq s
  if row < 2 || 4 < row then s
  else s.ftl.pages.foldl (fun s p =>
    let g := p.2
    let mine := g.kind == 2 && g.sealSeq == seq && (sb s (sbOf s p.1)).role == .harvest && g.gen == keyGen s g.allot
      && granAllot s g.gran == some g.allot && (row != 4 || savedPage s p)
    let e : MapEnt := { kind := 2, gen := g.gen % 256, addr := p.1 }
    if mine && mapEnt s g.gran != e then changeMap s g.gran e else s) s

/-- At a cold start the map is rebuilt from the newest segments and the journal; records of a page never programmed are gone
(R220). A copy whose page no target holds any more is KIND 3 (R233). -/
def loadMap (s : State) : State :=
  let s := { s with ftl := { s.ftl with map := replay s.ftl.segMap (s.ftl.journal.filter (unheld s)), jbuf := [], jbufAt := none, progs := [] } }
  (liveWhere s (fun a => (tget s.ftl.pages a).isNone || (tgetD s.ftl.targets (faTgt a) {}).failed)).foldl
    (fun s g => changeMap s g { mapEnt s g with kind := 3 }) s

/-- At every start each page not in the erased list counts as not erased: a superblock or seal block that was left open is
closed, one that a rehearsal borrowed awaits its erase (R211). -/
def closeOpen (s : State) : State :=
  let s := (tkeys s.ftl.sbs).foldl (fun s k =>
    let x := sb s k
    let s := setSb s k { x with clean := x.clean && x.used == 0 && x.role != .rehearsal }
    match x.role with
    | .tlcOpen => setRole s k .tlcFull
    | .rehearsal => setRole s k .tlcFree
    | _ => s) s
  let locs := s.ftl.sealLocs.map (fun l => if l.used == 0 then l else { l with used := s.ftl.tlcPages / 3 })
  { s with ftl := { s.ftl with openDrip := [], victim := none, level := none, sealLocs := locs } }

/-- Harvest superblocks that hold a written stripe fold (R225). -/
def foldWritten (s : State) : State :=
  ((sbsOf s .harvest).filter (fun k => 0 < (sb s k).used)).foldl (fun s k => setRole s k .folding) s

/-- The spares a target begins with, beside its seal blocks (R217, R222). -/
def countSpares (s : State) (k : Nat) : State :=
  { s with ftl := { s.ftl with targets := tmod s.ftl.targets k {} (fun t => { t with spares0 := t.spares }) } }

/-- The two seal locations take their blocks from the spares; the count that is left is the initial one (R217, R222). -/
def makeSeals (s : State) : State :=
  let (s, l) := (sealPlaces s).foldl (fun (x : State × List SealLoc) k =>
    let (s, y) := takeSealBlocks x.1 k
    (countSpares s k, x.2 ++ [y])) (s, [])
  locatorWrite { s with ftl := { s.ftl with sealLocs := l } }

/-- Pools of a blank or cleared device (R217, R196): spares, seal blocks, four metadata superblocks, the harvest region, TLC
free; every superblock awaits its erase. A cleared device keeps its spares, retired blocks, seal blocks and metadata. -/
def makePools (s : State) : State :=
  let blank := s.ftl.sbs.isEmpty
  let s := { s with ftl := { s.ftl with map := [], segMap := [], journal := [], jbuf := [], jbufAt := none, segs := [], progs := [],
                                        openDrip := [], victim := none, level := none, gc := false } }
  let s := if blank then
      let s := makeSeals { s with ftl := { s.ftl with sbs := (List.range s.ftl.sbs0).map (fun k => (k, {})) } }
      locatorWrite ((List.range (min 4 s.ftl.sbs0)).foldl (fun s k => setRole s k .metadata) s)
    else (tkeys s.ftl.sbs).foldl (fun s k =>
      if (sb s k).role == .metadata then s else setRole (setSb s k { sb s k with clean := false, used := 0 }) k .tlcFree) s
  ((sbsOf s .tlcFree).take (hrvTarget s)).foldl (fun s k => setRole s k .harvest) s

/-- The flash image is created at the first start that finds no pools: its time origin, a full wear bucket (R155). -/
def createImage (s : State) : State :=
  let first := s.drp.origin.isNone
  let s := if first then { s with drp := { s.drp with origin := some (opSecs s), spent := 0 } } else s
  if first then { s with drp := { s.drp with bucket := (bucketCap s : Int) } } else s

/-- Extents of regions of a list. -/
def extentsIn (l : List Nat) (es : List Nat) : List Nat := es.filter (fun e => l.contains (e / 4))

/-- The state an allotment starts in (R182, R269, Table 3.5). -/
def startAllot (lost : List Nat) (a : Allot) : Allot :=
  let mine := (extentsIn lost a.extents).foldl (fun l e => sins l (e / 4)) []
  let a := { a with busy := none, bindings := a.bindings.map (fun b => { b with accepted := [], released := [], offered := 0 }) }
  if a.reservation || a.st == .deleting then a
  else if a.mirrored then { a with st := .stale, serving := false }
  else
    let gone := sunion a.lost mine
    { a with lost := gone, st := if gone.isEmpty then .replanting else .dataLost }

/-- A region of extents of an allotment is lost. -/
def losesIn (lost : List Nat) (a : Allot) : Bool := !(extentsIn lost a.extents).isEmpty

/-- The allotment tables as a start leaves them: DATA_LOST, STALE, completeness of mirrored copies, the Dirty Shutdown Count
(R94, R182, R269). -/
def startAllots (s : State) (lost : List Nat) : State :=
  let dirty := s.alt.tab.any (fun p => !p.2.mirrored && !p.2.reservation && p.2.st != .deleting && losesIn lost p.2)
  let whole := s.alt.tab.foldl (fun t p =>
    if p.2.mirrored then tset t p.1 (p.2.st != .stale && !losesIn lost p.2) else t) s.allotx.complete
  { s with
    alt := { s.alt with tab := s.alt.tab.map (fun p => (p.1, startAllot lost p.2)) },
    allotx := { s.allotx with complete := whole, source := [] },
    cxl := { s.cxl with dirtyShutdowns := if dirty then s.cxl.dirtyShutdowns + 1 else s.cxl.dirtyShutdowns } }

/-- Host granules of every allotment not in DELETING, ascending: what a replant restores or a warm return verifies (R183,
R192). -/
def toRestore (s : State) : List Nat :=
  let es := s.alt.tab.foldl (fun l p => if p.2.st == .deleting || p.2.reservation then l else p.2.extents.foldl sins l) []
  es.flatMap (fun e => (List.range 16384).map (fun i => e * 16384 + i))

/-- The run opens: the run record OPEN is written at the first service state after a start (R180, R356). -/
def openRun (s : State) : State :=
  runUnit { s with
    hrv := { s.hrv with runOpen := true, loss := none, warmRec := none, trainStep := 8 },
    tin := { s.tin with inService := true },
    nvm := { s.nvm with runAt := s.nvm.startUsed, startUsed := s.nvm.startUsed + 64 } } 0

/-- The end of training with no harvested image to restore: empty pools, a new image, and service (Table 6.10). -/
def endsFresh (s : State) : State :=
  let s := { s with alt := { s.alt with tab := s.alt.tab.filter (fun p => p.2.reservation) } }
  let s := sizeRegion (createImage (makePools s))
  let s := openRun { s with hrv := { s.hrv with phase := 0, imageDrip := false } }
  offerAll (judgeTines (enterService s (serviceState s) .progress))

/-- The replant begins with its order and its phase, cold or warm. -/
def beginReplant (s : State) (warm : Bool) : State :=
  let s := openRun { s with hrv := { s.hrv with todo := toRestore s, replant := true, warm := warm, cuts := [], restored := 0, replantAt := s.now, phase := if warm then 8 else 7 } }
  let s := setDev s .replanting .progress
  judgeTines { s with dev := { s.dev with warm := warm } }

/-- Allotments are offered in REPLANTING where HRV_CFG says so; a cold replant with nothing to restore is complete. -/
def offerInReplant (s : State) (warm : Bool) : State :=
  let s := if cfg s rHrvCfg 30 1 == 1 then offerAll s else s
  if s.hrv.todo.isEmpty && !warm then restoreComplete s else s

/-- The end of training with an image: the harvest merged, the allotments as they were, and the replant (Table 6.10). -/
def endsReplant (s : State) (row : Nat) (lost : List Nat) : State :=
  let s := sizeRegion (foldWritten (mergeHarvest s row))
  offerInReplant (beginReplant (startAllots s lost) (row == 2)) (row == 2)

/-- SPARE_LOW and SPARE_OUT stay raised over a start of the cold-frame die (R232). -/
def standSpares (s : State) : State :=
  let on := fun (s : State) (b : Bool) (n : Nat) => if b && !(source s n).live then raiseLive (drew s) n (drawn s % 2 ^ 32) else s
  on (on s s.ftl.spareLow 0x143) s.ftl.spareOut 0x144

/-- TRAINING ends (R181, R184, R192, Table 1.6): the slices resume, the maps and tables stand, and the device enters
REPLANTING, or the service state where there is nothing to restore from. -/
def trainingEnds (s : State) : State :=
  let row := s.hrv.row
  let lost := lostRegions s row
  let s := closeOpen (standSpares <| if row < 3 then resumeSlices s else loadMap (resumeSlices s))
  let s := { s with alt := { s.alt with total := extTotal s } }
  if row == 1 then endsFresh s else endsReplant s row lost

/-- Step 2 ends: images are reloaded; a fenced tine that passes item 0 returns, another stays fenced and is reported (R278,
R430). -/
def trainImages (s : State) (passed : List Nat) : State :=
  let still := s.tin.fencedKeep.filter (fun n => !passed.contains n)
  let s := still.foldl (fun s n => raise s 0x009 n) { s with tin := { s.tin with fenced := still, fencedKeep := still } }
  s

/-- The step of Table 6.8 that may end next: 2, 3, 5, 6, 4, 7, in the order of their times. -/
def nextStep : Nat → Nat
  | 1 => 2 | 2 => 3 | 3 => 5 | 5 => 6 | 6 => 4 | 4 => 7 | _ => 0

/-- The step an input ends. -/
def stepOf : TrainIn → Nat
  | .images _ => 2 | .spd _ _ => 3 | .dram _ => 4 | .flash _ => 5 | .records _ _ _ _ _ => 6 | .maps => 7

/-- What a step does as it ends. -/
def trainDo (s : State) (i : TrainIn) : State :=
  match i with
  | .images l => trainImages s l
  | .spd l g => trainSpd s l g
  | .flash l => trainFlash s l
  | .records a b h x l => trainRecords s a b h x l
  | .dram l => trainDram s l
  | .maps => s

/-- TRAINING_STEP_COMPLETE (R184): a step of Table 6.8 ends in its turn, step 4 once every lane is swept. After a warm return training ends with the
verification of the lanes: the map in DRAM stands (R190). -/
def execTrainingStepComplete (i : TrainIn) (t : Nat) (s : State) : Host.Outcome State Fault Refusal :=
  let s := tick s t
  let unswept := match i with | .dram l => !lanesCovered s l | _ => false
  .next (if s.dev.state != .training || nextStep s.hrv.trainStep != stepOf i || unswept then s
    else
      let s := trainDo { s with hrv := { s.hrv with trainStep := stepOf i } } i
      if s.dev.state == .training && (stepOf i == 7 || (stepOf i == 4 && s.hrv.row == 2)) then trainingEnds s else s)

end Sys2Proof.Machine
end

