-- ==== Sys2Proof/Machine/Tines.lean ====
section
/-! DEFINITION. The end of a cutting and the fencing of a tine, lockstep and watchdogs of the management processor, the
save of the configuration record and the end of an injection (chapters 9, 14 and 19). -/

namespace Sys2Proof.Machine

open Sys2Proof

/-! ### Cuttings and tines (R272, R276, R278, R279) -/

/-- What a cutting that has run to its end leaves (Table 9.1): a drip or a save copy has read its granule, a move has, a comparison has;
stripes and scrub chunks end by commands of their own. `ues`: lines of the granule its read found uncorrectable (R128). -/
def cuttingEnds (s : State) (c : Cutting) (ues : List Nat) : State :=
  match c.typ with
  | 1 => dripCut (internalUes s (ues.filter (fun l => lineGran l == c.a))) c.n c.a c.why
  | 5 => comparisonEnds s c.n
  | 6 => moveCut s c.n c.a
  | _ => s

/-- CUTTING_DONE (R273, R276): tine `n` ends its cutting and takes or steals the next one. -/
def execCuttingDone (n : Nat) (ues : List Nat) (t : Nat) (s : State) : Host.Outcome State Fault Refusal :=
  let s := tick s t
  .next (match tget s.tin.tines n with
    | none => s
    | some c =>
      let s := { s with tin := { s.tin with tines := tdel s.tin.tines n, done := (s.tin.done + 1) % 2 ^ 64 } }
      feed (cuttingEnds s c ues))

/-- A cutting that failed on three tines (last column of Table 9.1). -/
def cuttingFails (s : State) (c : Cutting) : State :=
  match c.typ with
  | 1 => dripFail s c.a c.n
  | 3 =>
    let gs := ((s.hrv.cuts.find? (fun p => p.1 == c.n)).map (·.2)).getD []
    let s := { s with hrv := { s.hrv with cuts := s.hrv.cuts.filter (fun p => p.1 != c.n) } }
    (match s.hrv.fetches.find? (fun f => f.gran == c.b && c.c == 1) with
    | some f => fetchEnds (restorePoisoned s c.b) f
    | none => gs.foldl (fun s g =>
        if s.hrv.fetches.any (fun f => f.gran == g) then s else restorePoisoned s g) s)
  | 2 => (match s.hrv.run with
    | none => s
    | some r =>
      let gs := (r.issued.filter (fun x => x.n == c.b && x.header.isNone)).flatMap (fun x => x.grans.map (·.1))
      let plan := gs.foldl (fun l g => requeue s l g) r.plan
      setRun s { r with plan := plan, again := sunion r.again gs, issued := r.issued.map (fun x => if x.n == c.b then { x with grans := [] } else x) } r.phase)
  | 4 => if (ddr s c.a).scrubCut == some c.n then scrubNext s c.a else s
  | 5 => comparisonFails s c.n
  | _ => s

/-- The cuttings of a bed that has left service are pushed again over the beds that remain (R275, R278). -/
def leaveBed (s : State) (b : Nat) : State :=
  if !(goodTines s b).isEmpty then s
  else
    let x := bed s b
    (x.urgent ++ x.main).foldl push (setBed s b { x with urgent := [], main := [], clocked := false })

/-- TINE_FENCED (R278, R279): tine `n` abandons its cutting, which goes back to the near end of its bed's URGENT deque, and is
fenced. -/
def execTineFenced (n t : Nat) (s : State) : Host.Outcome State Fault Refusal :=
  let s := tick s t
  .next (if !logicOn s || s.tin.fenced.contains n || 8 * nBeds s ≤ n then s
    else
      let run := tget s.tin.tines n
      let s := { s with tin := { s.tin with tines := tdel s.tin.tines n, fenced := sins s.tin.fenced n } }
      let s := match run with
        | none => s
        | some c =>
          let s := setFld (setFld s rTinFail 28 4 c.typ) rTinFail 20 7 n
          if 3 ≤ c.fails + 1 then cuttingFails (bump s rTinFail 0 8 1) c
          else place (bump s rTinFail 8 12 1) (n / 8) { c with fails := c.fails + 1, urgent := true }
      let s := judgeTines (raise s 0x009 n)
      feed (leaveBed s (n / 8)))

/-! ### Management processor (R284, R285) -/

/-- Pair A (false) or B. -/
def mpPair (s : State) (b : Bool) : MpPair := if b then s.mpx.b else s.mpx.a

/-- Sets a pair. -/
def setPair (s : State) (b : Bool) (x : MpPair) : State :=
  if b then { s with mpx := { s.mpx with b := x } } else { s with mpx := { s.mpx with a := x } }

/-- Commands of the pairs that wait when both are held down are refused as later ones are (R285). -/
def refuseWaiting (s : State) : State :=
  if !bothDown s then s
  else (s.trl.flight.filter (fun f => f.phase == 0 && (serverOf f == .ma || serverOf f == .mb))).foldl (fun s f =>
    endWith s f.id 0x08 0x01) s

/-- MP_LOCKSTEP (R284, R285): a mismatch of a running pair resets it; the third within 1 h holds it down until the next
start. -/
def execMpLockstep (b : Bool) (t : Nat) (s : State) : Host.Outcome State Fault Refusal :=
  let s := tick s t
  let x := mpPair s b
  .next (if !logicOn s || x.st != 0 then s
    else
      let m := s.now :: x.mism.filter (fun u => s.now < u + 3600000000)
      let down := decide (3 ≤ m.length)
      let s := raiseOpen s 0x005
      let s := bump (setPair s b { x with st := if down then 2 else 1, mism := m, busy := 0 }) rMpxPair (if b then 8 else 16) 8 1
      let s := interruptPairs s (fun sv => sv == (if b then Server.mb else Server.ma)) false
      let s := if down then raiseOpen s 0x006 else s
      if bothDown s then refuseWaiting (raiseOpen s 0x007) else s)

/-- HA_WATCHDOG (R32, R290): the watchdog of a host-assisted function has run out; it enters hardware mode at once, its owner
is cleared and its input is gone. -/
def execHaWatchdog (f t : Nat) (s : State) : Host.Outcome State Fault Refusal :=
  let s := tick s t
  let x := func s f
  .next (if !assisted s f || s.now < x.wdAt + 1000 * x.watchdog then s
    else
      let s := setFunc s f (dropFunc 3 x)
      raise (dropInputs s (fun k => k == f)) 0x008 f)

/-! ### The configuration record and injections (R394, R479) -/

/-- CONFIG_RECORD_SAVE (R479): pending values are saved 4 h after the previous save, kept RW fields within 1 s. -/
def execConfigRecordSave (t : Nat) (s : State) : Host.Outcome State Fault Refusal :=
  let s := tick s t
  .next (if s.dev.state == .off || s.nvm.confPending.isEmpty then s
    else if s.nvm.confPending.any keptRw || s.nvm.confAt + 14400 ≤ opSecs s then saveConfig s else s)

/-- INJECTION_TIMEOUT (R394): a pending injection whose checker has not checked often enough within 1 s is withdrawn. -/
def execInjectionTimeout (n t : Nat) (s : State) : Host.Outcome State Fault Refusal :=
  let s := tick s t
  .next (match (source s n).inject with
    | none => s
    | some j => match j.cmd.map (jobOf s) with
      | some (.inject _ d) =>
        if s.now < d then s
        else
          let s := setSource s n { source s n with inject := none }
          (match j.cmd with | some id => endWith s id 0x0D 0 | none => s)
      | _ => s)

end Sys2Proof.Machine
end

