-- ==== Sys2Proof/Machine/Weeding.lean ====
section
/-! DEFINITION. The harvest rehearsal, the weeding pass and telemetry (chapters 10 and 16). -/

namespace Sys2Proof.Machine

open Sys2Proof

/-! ### Items of the pass (R426, R427) -/

/-- Item `n` of Table 16.2. -/
def istItem (s : State) (n : Nat) : IstItem := tgetD s.ist.items n {}

/-- Sets item `n`. -/
def setItem (s : State) (n : Nat) (x : IstItem) : State := { s with ist := { s.ist with items := tset s.ist.items n x } }

/-- The device states of the weeding pass. -/
def inService (s : State) : Bool := s.dev.state == .serving || s.dev.state == .degraded

/-- PERIOD_D, clamped to 1 to 90. -/
def rehPeriod (s : State) : Nat := clamp 1 90 (cfg s rGauRehCfg 24 7)

/-- Period of an item in hours; that of item 6 is PERIOD_D days. -/
def itemPeriod (s : State) (n : Nat) : Nat := if n == 6 then 24 * rehPeriod s else (istItem s n).period

/-- The units of an item's scope: tines, codewords of the engines (four for each), converters, comparators (24 is the
second one of MON00), sources, the cipher and the KDF. -/
def scopeOf (s : State) (n : Nat) : List Nat :=
  match n with
  | 0 => (bedsOn s).flatMap (goodTines s)
  | 1 => ((flashChans s).filter (fun c => (tgetD s.ftl.fces c {}).st == 2)).flatMap (fun c => (List.range 4).map (fun i => 4 * c + i))
  | 2 => [0, 1]
  | 3 => List.range 25
  | 4 => sources s
  | 5 => [0, 1]
  | _ => []

/-- The idle test of the resource a unit needs (R426). -/
def idleFor (s : State) (n u : Nat) : Bool :=
  match n with
  | 0 => (tget s.tin.tines u).isNone && (bed s (u / 8)).urgent.isEmpty && (goodTines s (u / 8)).contains u
      && decide (1 < (goodTines s (u / 8)).length)
  | 1 => fetchesOn s (u / 4) == 0 && s.ftl.progs.isEmpty
  | 2 => !(adcOf s u).busy && !scanHeld s
  | 4 => (source s u).inject.isNone
  | 5 => s.krc.waiting.isEmpty
  | _ => true

/-- The pass may issue units: in SERVING or DEGRADED and not paused (R426, R434). -/
def passRuns (s : State) : Bool := inService s && s.ist.pausedTill.isNone

/-- A unit of an item may end now: it is the step in progress, or the pass runs, no step is and its resource is idle (log
entry 62). -/
def unitEnds (s : State) (n u : Nat) : Bool :=
  inService s && (scopeOf s n).contains u
    && (s.ist.step == some (n, u) || (s.ist.step.isNone && s.ist.pausedTill.isNone && idleFor s n u))

/-- The commands that wait for item `n` (R434): they end once no other item of theirs is still to be covered. -/
def endRunNow (s : State) (id : Nat) : State :=
  if s.ist.items.any (fun p => p.2.now == some id) then s
  else
    let bad := s.ist.items.findSome? (fun p => if p.2.now.isNone then p.2.nowFail else none)
    let s := { s with ist := { s.ist with items := s.ist.items.map (fun p => (p.1, if p.2.now.isNone then { p.2 with nowFail := none } else p.2)) } }
    match bad with
    | some u => endWith s id 0x08 (u % 256)
    | none => endOk s id []

/-- An item is covered (R427): it is late no more, and IST_COVERAGE ends with the last late one. -/
def itemCovered (s : State) (n : Nat) : State :=
  let x := istItem s n
  let s := setItem s n { x with units := [], covered := opSecs s, everCovered := true, late := false, now := none }
  let s := if s.ist.items.any (fun p => p.2.late) then s else clearLive s 0x1CD
  match x.now with
  | some id => endRunNow s id
  | none => s

/-- A unit of item `n` completes: counted, and the scope may be covered. `u` is the unit as R435 names it, `k` its place in
the scope. -/
def unitDone (s : State) (n k u : Nat) (pass : Bool) : State :=
  let x := istItem s n
  let x := { x with units := sins x.units k, passed := x.passed + b2n pass, failed := x.failed + b2n (!pass) }
  let x := if pass then x else
    { x with fails := min 0xFF (x.fails + 1), lastFail := some u,
             nowFail := if x.now.isSome && x.nowFail.isNone then some u else x.nowFail }
  let s := { s with ist := { (setItem s n x).ist with step := none } }
  if (scopeOf s n).all (fun j => x.units.contains j) then itemCovered s n else s

/-- The next step of the pass: the lowest item with a unit left whose resource is idle, its first such unit (log entry
62). -/
def startWeeding (s : State) : State :=
  if !passRuns s || s.ist.step.isSome then s
  else match (List.range 6).findSome? (fun n =>
      ((scopeOf s n).find? (fun u => !(istItem s n).units.contains u && idleFor s n u)).map (fun u => (n, u))) with
    | none => s
    | some x => { s with ist := { s.ist with step := some x } }

/-! ### Units (Tables 16.2 and 16.3) -/

/-- LOGIC_BIST (R427, R428): tine `n` completes its scan test; a mismatch fences it. -/
def execLogicBist (n : Nat) (pass : Bool) (t : Nat) (s : State) : Host.Outcome State Fault Refusal :=
  let s := tick s t
  .next (if !unitEnds s 0 n then s
    else
      let s := unitDone s 0 n n pass
      if pass then feed s
      else feed (leaveBed (judgeTines (raise { s with tin := { s.tin with fenced := sins s.tin.fenced n } } 0x009 n)) (n / 8)))

/-- A flash channel fails (R201, R428): its engine is failed and so are its targets (R233). -/
def failChannel (s : State) (c : Nat) : State :=
  let s := { s with ftl := { s.ftl with fces := tmod s.ftl.fces c {} (fun f => { f with st := 3, err := 1 }) } }
  ((tkeys s.ftl.targets).filter (fun k => k / 16 == c)).foldl failTarget s

/-- FLASH_ENGINE_LOOPBACK (R427, R428): the next codeword of the run of engine `n` is compared. Two runs in a row with a
mismatch fail the channel. -/
def execFlashEngineLoopback (n : Nat) (pass : Bool) (t : Nat) (s : State) : Host.Outcome State Fault Refusal :=
  let s := tick s t
  let r := tgetD s.ist.loopRun n (0, false)
  let u := 4 * n + r.1
  .next (if !unitEnds s 1 u then s
    else
      let bad := r.2 || !pass
      let s := unitDone s 1 u n pass
      if r.1 < 3 then { s with ist := { s.ist with loopRun := tset s.ist.loopRun n (r.1 + 1, bad) } }
      else
        let k := if bad then tgetD s.ist.loopFails n 0 + 1 else 0
        let s := { s with ist := { s.ist with loopRun := tdel s.ist.loopRun n, loopFails := tset s.ist.loopFails n k } }
        if 2 ≤ k then failChannel (raiseOpen s 0x1C8) n else s)

/-- CONVERTER_REFERENCE (R427, R428): the codes of converter `k` on the 0.300 V reference at gains 1 and 2. -/
def execConverterReference (k low high : Nat) (t : Nat) (s : State) : Host.Outcome State Fault Refusal :=
  let s := tick s t
  let near := fun (v c : Nat) => decide (200 * ((v : Int) - c).natAbs ≤ c)
  let pass := near low 4096 && near high 8192
  .next (if !unitEnds s 2 k then s
    else
      let s := unitDone s 2 k k pass
      if pass then s else setAdc (raiseOpen s 0x1C9) k { adcOf s k with failed := true })

/-- COMPARATOR_TRIP (R427, R428): the trip test of a slot's comparator; a slot that did not trip stays in scan mode. -/
def execComparatorTrip (n : Nat) (pass : Bool) (t : Nat) (s : State) : Host.Outcome State Fault Refusal :=
  let s := tick s t
  .next (if !unitEnds s 3 n then s
    else
      let slot := if n == 24 then 0 else n
      let s := unitDone s 3 n slot pass
      if pass then s else raiseOpen { s with psq := { s.psq with scanSlots := sins s.psq.scanSlots slot } } 0x1CA)

/-- FAULT_PATH_INJECTION (R427, R381): a shadow injection of one check and a path test of source `n`; a source whose
checker did not check is retried later. -/
def execFaultPathInjection (n : Nat) (ran det path : Bool) (t : Nat) (s : State) : Host.Outcome State Fault Refusal :=
  let s := tick s t
  .next (if !unitEnds s 4 n then s
    else if !ran then { s with ist := { s.ist with step := none } }
    else
      let s := if det then captureInjected (drew s) n (drawn s % 2 ^ 32) else s
      let s := if path then captureInjected s 0x1F0 n else s
      let s := unitDone s 4 n n (det && path)
      if det && path then s else raise (setSource s n { source s n with untrusted := true }) 0x1CB n)

/-- CIPHER_KNOWN_ANSWER (R427, R428): the known-answer tests of the cipher (0) or the KDF (1). -/
def execCipherKnownAnswer (n : Nat) (pass : Bool) (t : Nat) (s : State) : Host.Outcome State Fault Refusal :=
  let s := tick s t
  .next (if !unitEnds s 5 n then s
    else
      let s := unitDone s 5 n n pass
      if pass then s else raiseOpen s 0x1CC)

/-- IST_COVERAGE (R427, R434): item `n` has not been covered within its period since its last coverage; a run-now command
whose item's period has passed ends with TIMEOUT. -/
def execIstCoverage (n : Nat) (t : Nat) (s : State) : Host.Outcome State Fault Refusal :=
  let s := tick s t
  .next (if !logicOn s || 6 < n then s
    else
      let x := istItem s n
      let overdue := match x.now with
        | some id => (match inflight s id with
          | some f => if f.since + itemPeriod s n * 3600000000 ≤ s.now then some id else none
          | none => none)
        | none => none
      let s := match overdue with
        | some id =>
          let s := { s with ist := { s.ist with items := s.ist.items.map (fun p =>
            (p.1, if p.2.now == some id then { p.2 with now := none, nowFail := none } else p.2)) } }
          endWith s id 0x0D 0
        | none => s
      let x := istItem s n
      if x.late || opSecs s < x.covered + itemPeriod s n * 3600 then s
      else
        let s := setItem s n { x with late := true }
        if (source s 0x1CD).live then s else raiseLiveOpen s 0x1CD)

/-- WEEDING_PAUSE_END (R434). -/
def execWeedingPauseEnd (t : Nat) (s : State) : Host.Outcome State Fault Refusal :=
  let s := tick s t
  .next (match s.ist.pausedTill with
    | none => s
    | some u => if u ≤ s.now then { s with ist := { s.ist with pausedTill := none } } else s)

/-! ### Rehearsal (R226, R310, R312–R314, R317, R431, R432) -/

/-- Superblocks a rehearsal borrows (R226). -/
def rehBorrow (s : State) : Nat := cdiv (pslcBw s * 1100000) (s.ftl.stripesPerSb * s.ftl.stripeW)

/-- SRC_SLOT meets R312: class 2, HOLD 0, DOMAIN 0, slot 00 its only prerequisite, listed by no slot. -/
def srcSlotOk (s : State) : Bool :=
  let n := srcSlot s
  let r := railSlot s n
  n < 24 && r.cls == 2 && !r.hold && r.domain == 0 && r.prereq == 1
    && (List.range 24).all (fun m => (railSlot s m).cls == 0 || !bit (railSlot s m).prereq n)

/-- The preconditions of a rehearsal (R317), as the refusal of the first that does not hold. -/
def rehRefusal (s : State) : Option (Nat × Nat) :=
  let cold := match tPack s with | some x => x < 0 || 5000 < x | none => true
  if !inService s then some (0x0E, 0x02 + fld s.dev.state.code 8 8)
  else if s.gau.reh.isSome then some (0x0E, 0x10)
  else if !s.gau.usable || s.gau.drift || s.gau.soc < 100 * cfg s rGauRehCfg 16 8 || cold then some (0x0E, 0x11)
  else if !srcSlotOk s then some (0x0E, 0x12)
  else if freeSb s < rehBorrow s then some (0x0C, 0)
  else none

/-- A rehearsal starts: the load goes to the pack, the superblocks are borrowed, erased ones first. -/
def startRehearsal (s : State) (auto quietOnly : Bool) (cmd : Option Nat) : State :=
  let free := sbsOf s .tlcFree
  let take := (free.filter (fun k => (sb s k).clean) ++ free.filter (fun k => !(sb s k).clean)).take (rehBorrow s)
  let n := srcSlot s
  let s := take.foldl (fun s k => setRole s k .rehearsal) s
  { s with
    psq := { s.psq with on := sdel s.psq.on n, good := s.psq.good.filter (· != n) },
    gau := { s.gau with reh := some { cmd := cmd, quietOnly := quietOnly, auto := auto, since := s.now, phaseAt := s.now, borrowed := take } } }

/-- REHEARSAL_RUN (R317). -/
def cmdRehearsalRun (f : InFlight) (s : State) : State :=
  match rehRefusal s with
  | some (st, d) => endWith s f.id st d
  | none => startRehearsal (setJob s f.id .rehearsal) false (bit (pByte f.cmd 24) 0) (some f.id)

/-- REHEARSAL_RUN as a packet. -/
def execRehearsalRun (c : TrellisCmd) (s : State) : Host.Outcome State Fault Refusal := .next (submit cmdRehearsalRun 0x0403 c s)

/-- Mean host write rate of an hour of the day over the last 7 days, bytes and seconds (R431). -/
def hourMean (s : State) (h : Nat) : Nat × Nat :=
  (s.ist.hours.filter (fun p => p.1 % 24 == h)).foldl (fun a p => (a.1 + p.2.1, a.2 + p.2.2)) (0, 0)

/-- The quiet hour: the measured hour with the lowest mean, the earliest of equals (log entry 63). -/
def quietHour (s : State) : Option Nat :=
  (List.range 24).foldl (fun best h =>
    if (hourMean s h).2 == 0 then best
    else match best with
      | none => some h
      | some b => if (hourMean s h).1 * (hourMean s b).2 < (hourMean s b).1 * (hourMean s h).2 then some h else some b) none

/-- A periodic rehearsal is due: by its age, or after a swap (R310, R432). -/
def rehIsDue (s : State) : Bool :=
  cfg s rGauRehCfg 31 1 == 1
    && (s.gau.rehDue || (match s.gau.rehAt with
      | some u => decide (24 * rehPeriod s ≤ (opSecs s - u) / 3600)
      | none => true))

/-- REHEARSAL_DUE (R432): a due rehearsal starts in the quiet hour, after 24 h in any hour, or as a retry. -/
def execRehearsalDue (t : Nat) (s : State) : Host.Outcome State Fault Refusal :=
  let s := tick s t
  .next (if !rehIsDue s then { s with ist := { s.ist with dueAt := none } }
    else
      let day := opSecs s / 86400
      let s := { s with ist := { s.ist with
        dueAt := some (s.ist.dueAt.getD s.now), retryDay := day,
        retries := if s.ist.retryDay == day then s.ist.retries else 0 } }
      let time := match s.ist.retryAt with
        | some u => decide (u ≤ s.now) && decide (s.ist.retries ≤ 3)
        | none => quietHour s == some (opSecs s / 3600 % 24) || decide (s.ist.dueAt.getD s.now + 86400000000 ≤ s.now)
      if s.ist.pausedTill.isNone && time && (rehRefusal s).isNone then
        startRehearsal { s with ist := { s.ist with retryAt := none } } true false none
      else s)

/-- A measured value takes effect (R313): a rise in full, a fall by a quarter. -/
def rehApply (old new : Nat) : Nat := if old ≤ new then new else old - (old - new) / 4

/-- E_fixed as measured, J: what the cut-off voltage under the mean current leaves, and 0.2 s of baseline power (R313). -/
def rehFixed (s : State) (r : Rehearsal) : Nat :=
  let cell := (ocvZero s : Int) + r.ih.natAbs * r.rh / (1000 * packCells s : Nat)
  packEnergy s (socOf (packOcv s) cell) + r.p0 / 5000

/-- A rehearsal has completed every phase (R313). -/
def rehComplete (s : State) (r : Rehearsal) : State :=
  let was := s.gau.learned
  let l := was
  let eF := rehFixed s r
  let okB := decide (850 ≤ r.eByte) && decide (r.eByte ≤ 13600)
  let okF := decide (650 ≤ 4 * eF) && decide (eF ≤ 2600)
  let keep := !r.quietOnly || r.quiet
  let l := if keep && okB then { l with eByte := rehApply l.eByte r.eByte, eLearned := true } else l
  let l := if keep && okF then { l with eFixed := rehApply l.eFixed eF, eLearned := true } else l
  let sum := r.floors.foldl (· + ·) 0
  let s := { s with
    gau := { s.gau with learned := l, reh := none, rehResult := if okB && okF then 1 else 7, rehQuiet := r.quiet,
                        rehAt := some (opSecs s), rehDue := false, floor := if keep then sum else s.gau.floor },
    hrv := { s.hrv with rates := if keep then s.hrv.rates.set 1 sum else s.hrv.rates },
    ist := { s.ist with dueAt := none, retryAt := none } }
  let s := itemCovered (if l == was then s else saveLearned s) 6
  match r.cmd with
  | some id => endOk s id (rehResultBytes s ((s.now - r.since) / 1000))
  | none => s

/-- A phase of Table 10.7 has run its time. -/
def phaseOver (s : State) (r : Rehearsal) : Bool :=
  decide (r.phaseAt + ([100, 800, 300, 200, 200].getD r.phase 0) * 1000 ≤ s.now)

/-- A floor component: (phase energy − P_0 × phase time) ÷ GiB moved, mJ/GiB (R312). -/
def rehComponent (s : State) (r : Rehearsal) (moved : Nat) : Nat :=
  ((r.energy - r.p0 * (s.now - r.phaseAt : Nat) * 1000000000) * 2 ^ 30 / (moved * 10 ^ 15 : Nat)).toNat

/-- REHEARSAL_PHASE_END (R312, R313): the phase under way ends, having moved `moved` bytes. Phase 5 ends once the source
slot is good again. -/
def execRehearsalPhaseEnd (moved : Nat) (t : Nat) (s : State) : Host.Outcome State Fault Refusal :=
  let s := tick s t
  .next (match s.gau.reh with
    | none => s
    | some r =>
      if !phaseOver s r || (r.phase == 5 && !s.psq.good.contains (srcSlot s)) then s
      else
        let us := s.now - r.phaseAt
        let s := if r.phase == 1 || r.phase == 2 then wear s (moved / 16384) true else s
        let next := { r with phase := r.phase + 1, phaseAt := s.now, energy := 0, charge := 0, first := none }
        let go := fun (s : State) (r : Rehearsal) => { s with gau := { s.gau with reh := some r } }
        match r.phase with
        | 0 => go s { next with p0 := (r.energy / (us * 1000000000 : Nat)).toNat }
        | 1 => go s { next with eByte := (r.energy * 2 ^ 30 / (moved * 10 ^ 15 : Nat)).toNat, ih := r.charge / (us * 1000 : Nat) }
        | 2 => go s { next with floors := r.floors ++ [rehComponent s r moved] }
        | 3 => go s { next with floors := r.floors ++ [rehComponent s r moved] }
        | 4 => rehHandBack (go s { next with floors := r.floors ++ [rehComponent s r moved] }) r
        | _ => rehComplete s r)

/-- REHEARSAL_TIME_LIMIT (R314): 2,000 ms reached before phase 5. -/
def execRehearsalTimeLimit (t : Nat) (s : State) : Host.Outcome State Fault Refusal :=
  let s := tick s t
  .next (match s.gau.reh with
    | none => s
    | some r => if r.phase < 5 && decide (r.since + 2000000 ≤ s.now) then rehAbort s 5 else s)

/-! ### Telemetry (R433) -/

/-- Highest of a list of numbers. -/
def highest (l : List Nat) : Nat := l.foldl max 0

/-- A temperature in degrees C from 0.01 °C, in eight bits; 0x80 undefined. -/
def packByte (s : State) : Nat :=
  match tPack s with
  | some x => twos (max (-127) (min 127 (x / 100))) 8
  | none => 0x80

/-- The second half of a sample: the link's, the medium's and the buses' figures. -/
def sampleTail (s : State) : List Byte :=
  le (min 0xFFFF (s.exl.subs.foldl (fun a p => a + p.2.fec) 0)) 2 ++ le (min 0xFFFF (freeSb s)) 2
    ++ le (highest (s.ddrs.ch.map (fun p => p.2.temp))) 1 ++ le (packByte s) 1 ++ le (min 0xFFFF s.hrv.fetchCount) 2
    ++ le (min 0xFFFF s.ist.secCe) 2 ++ le (min 0xFFFF s.ist.secRetry) 2
    ++ le (maskOf ((List.range 4).filter (fun e => (tgetD s.twi.pmbus e []).headD 0 != 0))) 1 ++ zeros 17

/-- A sample in the layout of Table 16.5. -/
def sampleBytes (s : State) : List Byte :=
  let loads := (List.range (nPorts s)).map (fun n => let p := port s n; if s.now ≤ p.devAt + 1000 then p.devload else 0)
  le (timeStamp s).toNat 8 ++ le (exposure s) 4 ++ le s.drp.limit 4 ++ le s.drp.stage 1 ++ le s.mpx.level 1
    ++ le s.dev.state.code 1 ++ le (highest loads) 1 ++ le s.gau.soc 2 ++ le s.drp.rate 2 ++ le (min 0xFFFFFFFF s.drp.eAvail) 4
    ++ le (s.ist.secRd / 100000000) 2 ++ le (s.ist.secWr / 100000000) 2 ++ le ((s.exl.txBytes - s.ist.txLast) / 100000000) 2
    ++ sampleTail s

/-- Host writes of the second counted in the hour of operating time, over the last 168 hours (R431). -/
def countHour (s : State) : List (Nat × Nat × Nat) :=
  let h := opSecs s / 3600
  (tmod s.ist.hours h (0, 0) (fun p => (p.1 + s.ist.secWr, p.2 + 1))).filter (fun p => decide (h < p.1 + 168))

/-- TELEMETRY_SAMPLE (R433): one sample each second into the raw ring; the counts of the second start again. -/
def execTelemetrySample (t : Nat) (s : State) : Host.Outcome State Fault Refusal :=
  let s := tick s t
  .next (if !logicOn s || s.ist.sampledAt.any (fun u => decide (s.now < u + 1000000)) then s
    else
      let x : Sample := { seq := s.ist.rawSeq, bytes := sampleBytes s }
      { s with
        ist := { s.ist with sampledAt := some s.now, raw := (x :: s.ist.raw).take 3600, rawSeq := s.ist.rawSeq + 1, hours := countHour s, txLast := s.exl.txBytes,
                            secCe := 0, secRetry := 0, secRd := 0, secWr := 0 },
        hrv := { s.hrv with fetchCount := 0, fetchMax := 0 } })

/-- Offset, length and signedness of the fields of a sample after TIME. -/
def sampleFields : List (Nat × Nat × Bool) :=
  [(8, 4, false), (12, 4, false), (16, 1, false), (17, 1, false), (18, 1, false), (19, 1, false), (20, 2, false), (22, 2, false),
   (24, 4, false), (28, 2, false), (30, 2, false), (32, 2, false), (34, 2, false), (36, 2, false), (38, 1, false), (39, 1, true),
   (40, 2, false), (42, 2, false), (44, 2, false), (46, 1, false)]

/-- A summary of samples, oldest first: the first one's TIME, and the maximum of each other field. -/
def summaryBytes (l : List (List Byte)) : List Byte :=
  slice (l.headD []) 0 8 ++ sampleFields.flatMap (fun f =>
    if f.2.2 then le (twos (l.foldl (fun m b => max m (ofTwos (rd b f.1 f.2.1) 8)) (-128)) 8) f.2.1
    else le (highest (l.map (fun b => rd b f.1 f.2.1))) f.2.1) ++ zeros 17

/-- Builds up to `fuel` summaries, each from the next 60 samples. -/
def buildSums (s : State) (fuel : Nat) : State :=
  match fuel with
  | 0 => s
  | fuel + 1 =>
    if s.ist.rawSeq < s.ist.sumFrom + 60 then s
    else
      let l := (s.ist.raw.filter (fun x => decide (s.ist.sumFrom ≤ x.seq) && decide (x.seq < s.ist.sumFrom + 60))).reverse
      let x : Sample := { seq := s.ist.sumSeq, bytes := summaryBytes (l.map (·.bytes)) }
      buildSums { s with ist := { s.ist with sums := (x :: s.ist.sums).take 1440, sumSeq := s.ist.sumSeq + 1, sumFrom := s.ist.sumFrom + 60 } } fuel

/-- TELEMETRY_SUMMARY (R433): each minute a summary; at the floor rate ten in a batch; none in host-assisted mode or with
both pairs down. -/
def execTelemetrySummary (t : Nat) (s : State) : Host.Outcome State Fault Refusal :=
  let s := tick s t
  .next (if !logicOn s then s
    else if assisted s 6 || bothDown s then { s with ist := { s.ist with sumFrom := s.ist.rawSeq } }
    else if !loopsRun s true then s
    else if floorRate s && decide (s.ist.rawSeq < s.ist.sumFrom + 600) then s
    else buildSums s 60)

/-! ### Commands (R434, R435) -/

/-- Items that ITEM names: one, or all but the rehearsal. -/
def itemsOf (item : Nat) : List Nat := if item == 0xFF then List.range 6 else [item]

/-- TEST_SCHEDULE (R434). -/
def cmdTestSchedule (f : InFlight) (s : State) : State :=
  let action := pByte f.cmd 24
  let item := pByte f.cmd 25
  let hours := pNum f.cmd 28 4
  let mins := pNum f.cmd 32 4
  if 3 < action then badParam s f.id 24
  else if (6 < item && item != 0xFF) || (action < 2 && item == 6) then badParam s f.id 25
  else match action with
  | 0 =>
    if (itemsOf item).any (fun n => (istItem s n).now.isSome) then conflict s f.id 0x10
    else (itemsOf item).foldl (fun s n => setItem s n { istItem s n with units := [], now := some f.id, nowFail := none })
      (setJob s f.id (.weed item))
  | 1 =>
    if hours < 1 || 24 < hours then badParam s f.id 28
    else endOk (saveConfig ((itemsOf item).foldl (fun s n => setItem s n { istItem s n with period := hours }) s)) f.id []
  | 2 =>
    if mins < 1 || 1440 < mins then badParam s f.id 32
    else endOk { s with ist := { s.ist with pausedTill := some (s.now + mins * 60000000) } } f.id []
  | _ => endOk { s with ist := { s.ist with pausedTill := none } } f.id []

/-- Records of a ring from FROM_SEQ, oldest first: result and output (R435). -/
def ringOut (f : InFlight) (ring : List Sample) (next : Nat) (s : State) : State :=
  let from0 := pNum f.cmd 28 4
  let oldest := next - ring.length
  let start := min next (max from0 oldest)
  let k := min (f.cmd.payLen / 64) (next - start)
  let out := ((ring.reverse.drop (start - oldest)).take k).flatMap (fun x => x.bytes)
  endOut s f.id (le k 4 ++ le (start + k) 4 ++ le (oldest - from0) 4 ++ zeros 4) out

/-- Hours since an item was last covered, 2,047 at most and where it never was. -/
def itemAge (s : State) (n : Nat) : Nat :=
  let x := istItem s n
  if x.everCovered then min 2047 ((opSecs s - x.covered) / 3600) else 2047

/-- TEST_RESULT (R435). -/
def cmdTestResult (f : InFlight) (s : State) : State :=
  let item := pByte f.cmd 24
  let kind := pByte f.cmd 25
  let own := owns s f.cmd.est 6
  if kind == 2 && issClass f.cmd.est == 0 && !own then endWith s f.id 0x05 0x05
  else if 2 < kind then badParam s f.id 25
  else if kind == 0 then
    if 6 < item then badParam s f.id 24
    else
      let x := istItem s item
      endOk s f.id (le x.passed 4 ++ le x.failed 4 ++ le (itemAge s item) 2 ++ le (b2n x.late + fld (b2n s.ist.pausedTill.isSome) 1 1) 1
        ++ zeros 1 ++ le (x.lastFail.getD 0xFFFFFFFF) 4)
  else if f.cmd.payLen < 64 || f.cmd.payLen % 64 != 0 then badParam s f.id 0x40
  else if kind == 1 then ringOut f s.ist.sums s.ist.sumSeq s
  else
    let s := if own then assistInput s 6 else s
    ringOut f s.ist.raw s.ist.rawSeq s

/-- TEST_SCHEDULE as a packet. -/
def execTestSchedule (c : TrellisCmd) (s : State) : Host.Outcome State Fault Refusal := .next (submit cmdTestSchedule 0x0A00 c s)

/-- TEST_RESULT as a packet. -/
def execTestResult (c : TrellisCmd) (s : State) : Host.Outcome State Fault Refusal := .next (submit cmdTestResult 0x0A01 c s)

/-- The item with a step in progress: that of the pass, else item 6 while a periodic rehearsal runs, 7 none (R432). -/
def activeItem (s : State) : Nat :=
  match s.ist.step with
  | some p => p.1
  | none => if s.gau.reh.any (·.auto) then 6 else 7

/-- IST registers whose value the state's own fields give. `sel` reads a selector of the access path. -/
def viewIst (s : State) (sel : Nat → Nat) (c : Nat) : Option Nat :=
  if c == rIstStatus then
    let left := match s.ist.pausedTill with | some u => cdiv (u - s.now) 60000000 | none => 0
    some (fld (b2n s.ist.pausedTill.isSome) 31 1 + fld left 20 11 + fld (activeItem s) 8 3
      + maskOf ((List.range 7).filter (fun n => (istItem s n).late)))
  else if c == rIstItem then
    let n := sel rIstItemSel
    if n == 7 then some (fld 0x7FF 16 11)
    else some (fld (if n == 6 then 0 else (istItem s n).period) 27 5 + fld (itemAge s n) 16 11 + fld (istItem s n).fails 8 8)
  else none

end Sys2Proof.Machine
end

