-- ==== Sys2Proof/Machine/Regs.lean ====
section
/-! DEFINITION. Accesses to the register space: values, captures, selectors, what a read clears and what a write does
(R4, R6–R12, R41–R45, R474–R481), and the commands REG_READ, REG_WRITE and REG_READ_MULTI (R63–R65). -/

namespace Sys2Proof.Machine

open Sys2Proof

/-! ### Values -/

/-- Key of what a path holds about the register at an offset. -/
def pathReg (p : Path) (a : Nat) : Nat := pathKey p * 2 ^ 32 + a

/-- The selector registers (19_register_map.md): each path holds its own selection. -/
def isSel (c : Nat) : Bool :=
  c == rAltSel || c == rDdrLaneSel || c == rLdgSel || c == rTinBedSel || c == rFtlStreamSel || c == rRmnSel || c == rAdcSeqSel
    || c == rFltSrcSel || c == rIstItemSel

/-- A path's selection in selector register `r` of instance `i`. -/
def selOf (s : State) (p : Path) (i r : Nat) : Nat := (tgetD s.paths.sels (pathReg p (regAt r i)) 0#32).toNat

/-- A queue pair's registers. -/
def isQpReg (c : Nat) : Bool := rTrlQpBind ≤ c && c < rTrlQpBind + 0x40

/-- Mean residence of the commands of one pair over the last 100 ms, in units of 10 µs (R287). -/
def meanResidence (s : State) (lo : Nat) : Nat :=
  match resSamples s (fun k => lo ≤ k && k < lo + 0x100000) with
  | [] => 0
  | l => min 0xFFFF (l.foldl (· + ·) 0 / l.length / 10)

/-- TOP and MPX registers whose value the state's own fields give. -/
def viewTop (s : State) (c : Nat) : Option Nat :=
  if c == rTopId then some (fld s.fus.part 16 16 + fld 0xB1 8 8 + 0x01)
  else if c == rTopCaps then some (fld (nPorts s) 29 3 + fld (nDdr s) 24 5 + fld (nFch s) 18 6 + fld (nSub s) 15 3 + fld (nBeds s) 10 5)
  else if c == rTopFw then some (fwVersion s)
  else if c == rTopStatus then
    some (fld s.dev.state.code 28 4 + fld (b2n s.dev.warm) 27 1 + fld (b2n (inStep s)) 26 1 + fld (b2n s.hrv.replant) 25 1
      + fld (b2n (!(s.nvm.confPending.isEmpty && s.nvm.confSaving.isEmpty))) 24 1 + fld (b2n s.flt.snapshot.isSome) 23 1 + fld (b2n (tentative s)) 22 1
      + fld s.drp.stage 19 3 + fld s.mpx.level 17 2 + fld (b2n s.drp.excess) 16 1 + min 0x3FF (liveCount s))
  else if c == rMpxLoad then some (fld s.mpx.level 30 2 + fld s.mpx.b.busy 16 8 + fld s.mpx.a.busy 8 8)
  else if c == rMpxPair then some (fld s.mpx.a.st 30 2 + fld s.mpx.b.st 28 2)
  else if c == rMpxResidence then some (fld (meanResidence s 0x100000) 16 16 + meanResidence s 0)
  else none

/-- TRL registers of pair `n` (chapter 2). -/
def viewTrl (s : State) (c n : Nat) (high : Bool) : Option Nat :=
  let q := tgetD s.trl.qps n {}
  let half := fun (v : BitVec 64) => if high then v.toNat / 2 ^ 32 else v.toNat % 2 ^ 32
  if c == rTrlAdmit then some (fld (mpInUse s) 16 12 + fld (cfInUse s) 0 6)
  else if c == rTrlQpBind then some (fld (b2n q.enable) 31 1 + fld (b2n q.assist) 30 1 + fld q.vector 16 11 + q.issuer.toNat)
  else if c == rTrlQpSqBase then some (half q.sqBase)
  else if c == rTrlQpCqBase then some (half q.cqBase)
  else if c == rTrlQpCqTailAddr then some (half q.tailAddr)
  else if c == rTrlQpSize then some (fld q.cqM1 16 10 + fld q.sqM1 0 10)
  else if c == rTrlQpStatus then some (fld q.st.code 30 2 + fld q.err 24 6 + fld q.cqTail 10 10 + fld q.sqHead 0 10)
  else if c == rTrlQpCredit then some (fld (creditInUse s n) 20 10 + fld q.creditLimit 10 10 + fld q.creditMax 0 10)
  else none

/-- The value that the state's own fields give a register word; `full` views return both halves of a wide register. -/
def viewReg (s : State) (p : Path) (c i : Nat) (high : Bool) : Option Nat :=
  let sel := selOf s p i
  let half := fun (v : Nat) => if high then v / 2 ^ 32 else v % 2 ^ 32
  (viewTop s c) <|> (viewTrl s c i high) <|> (viewCxl s c i) <|> (viewAlt s sel c) <|> (viewDram s sel c i high)
    <|> (viewDrip s c high) <|> (viewHrv s c high) <|> (viewFlash s sel c i high) <|> (viewExl s sel c high) <|> (viewTin s sel c high)
    <|> (viewPower s c high) <|> (viewGauge s c high) <|> (viewRails s sel c) <|> (viewBus s sel c i)
    <|> ((viewEmbedded s c).map half) <|> ((viewCollector s p sel c).map half) <|> ((viewKeys s c).map half) <|> (viewIst s sel c)

/-- Registers whose whole value the state's own fields give; of the others, fields that nothing else mirrors stand in the
stored word. -/
def viewOnly (c : Nat) : Bool := isQpReg c || c == rAdcSeqEntry || c == rFtlStream || c == rDdrLaneDelay || c == rLogCursor

/-- The value of the word at an offset, as path `p` reads it: zero where no register is (R4, R474). -/
def regValue (s : State) (p : Path) (a : Nat) : Nat :=
  match regFind s a with
  | none => if rLogWindow ≤ a && a < rLogWindow + 0x1000 then ((viewReg s p a 0 false).getD 0) % 2 ^ 32 else 0
  | some (r, i, high) =>
    if isSel r.addr then selOf s p i r.addr
    else
      let own := if viewOnly r.addr || high then 0 else regStored s a
      overGauge s r.addr (own ||| (viewReg s p r.addr i high).getD 0) % 2 ^ 32

/-! ### Reads (R8–R12, R476) -/

/-- A read clears the RC fields of the word. -/
def clearRc (s : State) (p : Path) (r : RegD) (i a : Nat) : State :=
  let m := accMask r (fun x => x == .rc)
  let s := if regStored s a &&& m == 0 then s else setReg s a (regStored s a &&& (0xFFFFFFFF ^^^ m))
  if r.addr == rRmnSlot then { s with psq := { s.psq with shortExc := tdel s.psq.shortExc (selOf s p i rRmnSel % 32) } }
  else if r.addr == rIstItem then
    let n := selOf s p i rIstItemSel
    if n == 7 then s else setItem s n { istItem s n with fails := 0 }
  else if r.addr == rDdrLaneDelay then
    let k := selOf s p i rDdrLaneSel
    let x := ddr s i
    match tget x.lanes k with
    | some l => setDdr s i { x with lanes := tset x.lanes k { l with rejected := false } }
    | none => s
  else s

/-- A read of a word on a path: the value, and the state after what the read captures, clears or removes. -/
def regRead (s : State) (p : Path) (a : Nat) : State × Nat :=
  match regFind s a with
  | none => (s, regValue s p a)
  | some (r, i, high) =>
    if r.addr == rAdcQueue then adcPop s
    else if r.wide then
      if high then
        (s, match tget s.paths.captures (pathReg p (a - 4)) with
          | some v => v.toNat / 2 ^ 32
          | none => regValue s p a)
      else
        let lo := regValue s p a
        let v := regValue s p (a + 4) * 2 ^ 32 + lo
        ({ s with paths := { s.paths with captures := tset s.paths.captures (pathReg p a) (BitVec.ofNat 64 v) } }, lo)
    else (clearRc s p r i a, regValue s p a)

/-! ### Queue-pair registers (R41–R45) -/

/-- Queue pair `n`. -/
def qp (s : State) (n : Nat) : QP := tgetD s.trl.qps n {}

/-- Sets queue pair `n`. -/
def setQp (s : State) (n : Nat) (q : QP) : State := { s with trl := { s.trl with qps := tset s.trl.qps n q } }

/-- A queue pair in DISABLING enters IDLE when no reply is owed (R45). -/
def judgeIdle (s : State) (n : Nat) : State :=
  if (qp s n).st == .disabling && (qp s n).owed.isEmpty && (onCarrier s (.qp n)).isEmpty then setQp s n { qp s n with st := .idle } else s

/-- Entries of a ring: a power of two from 16 to 1,024 (R42). -/
def ringOk (m1 : Nat) : Bool := [16, 32, 64, 128, 256, 512, 1024].contains (m1 + 1)

/-- A write of TRL_QP_BIND (R41, R42, R45). -/
def bindWritten (s : State) (n v : Nat) : State :=
  let q := qp s n
  let on := bit v 31
  if q.st != .idle then
    if on || !q.enable then s
    else judgeIdle (setQp s n { q with enable := false, st := .disabling }) n
  else
    let q := { q with enable := on, assist := bit v 30, vector := bits v 16 11, issuer := BitVec.ofNat 16 v }
    if !on then setQp s n q
    else if !ringOk q.sqM1 || !ringOk q.cqM1 || q.cqM1 < q.sqM1 then setQp s n { q with st := .error, err := 0x01 }
    else if q.sqBase.toNat % 4096 != 0 || q.cqBase.toNat % 4096 != 0 then setQp s n { q with st := .error, err := 0x02 }
    else setLimits (setQp s n { q with st := .active, err := 0 })

/-- A doorbell from the bound issuer (R43–R45): a tail outside the ring puts the pair in ERROR. -/
def doorbell (s : State) (c n v : Nat) : State :=
  let q := qp s n
  let k := v % 1024
  if c == rTrlQpSqTailDb then
    if q.st != .active then s
    else if q.sqM1 < k then setQp s n { q with st := .error, err := 0x03 }
    else setQp s n { q with sqTail := k }
  else if q.cqM1 < k then s
  else setQp s n { q with cqHead := k }

/-- A write of a register of pair `n` other than its doorbells by a requester of issuer `iss`: fabric manager or board
management only; sizes and addresses only in IDLE. -/
def qpWritten (s : State) (iss c n v : Nat) (wide : Option Nat) : State :=
  let q := qp s n
  let full := fun (m : Nat) => BitVec.ofNat 64 ((v % 2 ^ 32) * 2 ^ 32 + (wide.getD 0) / m * m)
  if issClass iss != 1 && issClass iss != 2 then s
  else if c == rTrlQpBind then bindWritten s n v
  else if c == rTrlQpCredit then setLimits (setQp s n { q with creditMax := v % 1024 })
  else if q.st != .idle then s
  else if c == rTrlQpSize then setQp s n { q with cqM1 := bits v 16 10, sqM1 := bits v 0 10 }
  else if c == rTrlQpSqBase then setQp s n { q with sqBase := full 4096 }
  else if c == rTrlQpCqBase then setQp s n { q with cqBase := full 4096 }
  else if c == rTrlQpCqTailAddr then setQp s n { q with tailAddr := full 4 }
  else s

/-! ### Writes (R12, R41, R50, R476, R479) -/

/-- Stores the writable fields of a word; RWS and kept fields are pending until saved (R479). -/
def storeWord (s : State) (r : RegD) (a v drop : Nat) : State :=
  let m := accMask r (fun x => x == .rw || x == .rws) &&& (0xFFFFFFFF ^^^ drop)
  if m == 0 then s
  else
    let s := setReg s a ((regStored s a &&& (0xFFFFFFFF ^^^ m)) ||| (v &&& m))
    if keptMask a == 0 then s
    else { s with nvm := { s.nvm with confPending := sins s.nvm.confPending a } }

/-- Bits of a register that a write leaves as they are now: ENABLE of a failed converter (R428), SPARE_PCT once the device is
not blank (R217), the sublinks an ORR-7708 lacks, TARGET_EN of TWI1 to TWI3 (R364). -/
def heldBits (s : State) (c i : Nat) : Nat :=
  if (c == rAdcCtrl0 && s.adc.a0.failed) || (c == rAdcCtrl1 && s.adc.a1.failed) then 0x80000000
  else if c == rFtlCfg && !blankDevice s then 0xFF000000
  else if c == rExlCfg && !isBig s then 0x0000000C
  else if c == rTwiCfg && i != 0 then 0x40000000
  else 0

/-- What follows a stored word: a converter starts or stops (R360), sublinks train or go down (Table 8.4). -/
def afterStore (s : State) (c v : Nat) : State :=
  if c == rAdcCtrl0 then adcCtrlWritten s 0 (putBits v 31 1 (cfg s rAdcCtrl0 31 1))
  else if c == rAdcCtrl1 then adcCtrlWritten s 1 (putBits v 31 1 (cfg s rAdcCtrl1 31 1))
  else if c == rExlCfg then
    startTrainings ((List.range (nSub s)).foldl (fun s k =>
      if !mayTrain s k && (subl s k).st != 0 && (subl s k).st != 7 then downSub s k else s) s)
  else s

/-- A written host-assisted input (R50): only from the owner of its function; another write is dropped and recorded. -/
def inputWritten (s : State) (a : RegAcc) (f c i v : Nat) : State :=
  if !owns s a.issuer f then regFault s a.off
  else if c == rDdrLaneDelay then assistInput (laneDelayWritten s i (selOf s a.path i rDdrLaneSel) v) 5
  else if c == rDdrScrub then assistInput (scrubRateWritten s i v) 4
  else if c == rFtlStream then assistInput (streamWritten s (selOf s a.path i rFtlStreamSel) v) 1
  else if c == rFtlWearHost then assistInput (wearHostWritten s v) 1
  else if c == rPsqHostStep then hostStep s a.issuer v
  else
    let x := v % 16384
    if 10000 < x then setFld s rGauHostSoc 31 1 1
    else
      let s := setFld s rGauHostSoc 0 14 x
      assistInput { s with gau := { s.gau with hostSoc := some x } } 2

/-- The low word a path holds for a wide register, or the present one (R12). DESIGN CHOICE (log entry 105): with no low word held it is the low half the register has now. -/
def heldLow (s : State) (p : Path) (a : Nat) : Nat :=
  match tget s.paths.heldLow (pathReg p a) with | some w => w.toNat | none => regValue s p a

/-- A write to a wide register: a low word is held, a high word commits with it (R12). DESIGN CHOICE (log entry 105): the held low word belongs to
the access path and the offset. -/
def wideWritten (s : State) (a : RegAcc) (r : RegD) (i v : Nat) (high : Bool) : State :=
  if !high then { s with paths := { s.paths with heldLow := tset s.paths.heldLow (pathReg a.path a.off) (BitVec.ofNat 32 v) } }
  else
    let lo := heldLow s a.path (a.off - 4)
    let s := { s with paths := { s.paths with heldLow := tdel s.paths.heldLow (pathReg a.path (a.off - 4)) } }
    if r.addr == rLogCursor then setCursor s a.path (v % 2 ^ 32 * 2 ^ 32 + lo)
    else if isQpReg r.addr then qpWritten s a.issuer r.addr i v (some lo)
    else s

/-- A heartbeat word written by board management; the last one submits the record (R264). -/
def hbWritten (s : State) (a : RegAcc) (c v : Nat) : State :=
  if !(viaMctp a.path && issClass a.issuer == 2) then regFault s a.off
  else
    let s := { s with exl := { s.exl with hbIn := s.exl.hbIn.set ((c - rExlHbIn0) / 4) (BitVec.ofNat 32 v) } }
    if c == rExlHbIn3 then takeHeartbeat s (v % 2 ^ 32) else s

/-- A write of word `v` that its path may make; `ok` is the result of a bus check it may start (R370). -/
def regWrite (s : State) (a : RegAcc) (v : Nat) (ok : Bool) : State :=
  match regFind s a.off with
  | none => s
  | some (r, i, high) =>
    let c := r.addr
    if c == rTrlQpSqTailDb || c == rTrlQpCqHeadDb then
      if (qp s i).issuer.toNat == a.issuer then doorbell s c i v else raiseOpen s 0x004
    else if isSel c then
      let w := BitVec.ofNat 32 (v &&& accMask r (fun x => x == .rw))
      { s with paths := { s.paths with sels := tset s.paths.sels (pathReg a.path a.off) w } }
    else if r.wide then wideWritten s a r i v high
    else if isQpReg c then qpWritten s a.issuer c i v none
    else if c == rFwuFuseCmd then fuseCmd a v (bits v 12 4) s.now s
    else if c == rNvmRdp then rdpWrite a v s
    else if rExlHbIn0 ≤ c && c ≤ rExlHbIn3 then hbWritten s a c v
    else if c == rTwiStatus then (if bit v 23 then unfenceWrite s i ok else s)
    else if c == rFltSrc then
      let n := selOf s a.path i rFltSrcSel % 512
      if bit v 30 && s.flt.latched != some n then setSource s n { source s n with sticky := false } else s
    else if c == rAdcSeqEntry then
      let k := selOf s a.path i rAdcSeqSel
      let w := BitVec.ofNat 32 (v &&& accMask r (fun x => x == .rw))
      { s with adc := { s.adc with seq := tset s.adc.seq (16 * bits k 4 1 + bits k 0 4) w } }
    else match regFunction a.off with
      | some f => inputWritten s a f c i v
      | none =>
        if c == rExlFoCfg && !foCfgOk v then s
        else afterStore (storeWord s r a.off v (heldBits s c i)) c v

/-! ### Direct accesses (R6, R474, R475, R480, R481) -/

/-- The access can reach the register space: its path exists, and the logic die is on for its own blocks and paths. -/
def reachable (s : State) (a : RegAcc) : Bool :=
  s.dev.state != .off && (!(onLogic a.off || !viaMctp a.path && a.path != .cfm) || logicOn s)
    && (match a.path with
      | .cxlio n => (port s n).link == 2
      | .qp _ => anyLink s
      | .mailbox n i => mailboxAt s n i
      | .mctp _ => mctpUp s
      | _ => true)

/-- A malformed access: narrow, misaligned, or outside every block (R6, R474). DESIGN CHOICE (log entry 106): every size but
four bytes, a wider one too. -/
def malformed (a : RegAcc) : Bool := a.size != 4 || a.off % 4 != 0 || !inBlock a.off

/-- Blocks a host function may not read (R475). -/
def hidden (off : Nat) : Bool := off / 0x100000 == 0x001 || off / 0x100000 == 0x059 || off / 0x100000 == 0x05A

/-- The access crosses the cold-frame bridge (R480). -/
def bridged (a : RegAcc) : Bool :=
  !onLogic a.off && (match a.path with | .mctp _ => false | .cfm => false | _ => true)

/-- The bridge can take an access now; one more waits outside. -/
def bridgeFree (s : State) : Bool := s.d2d.up && decide (s.d2d.bridge.length < 64)

/-- A direct read. -/
def directRead (a : RegAcc) (s : State) : State :=
  if !reachable s a then s
  else if malformed a then emit (regFault s a.off) (.regData a.path 0xFFFFFFFF)
  else if !a.full && hidden a.off then emit s (.regData a.path 0)
  else if bridged a then
    if !bridgeFree s then s
    else
      let (s, v) := regRead s a.path a.off
      bridgeTake s a false v none
  else
    let (s, v) := regRead s a.path a.off
    emit s (.regData a.path v)

/-- A direct write. A host function may write only the doorbells of queue pairs bound to it (R475). -/
def directWrite (a : RegAcc) (v : Nat) (ok : Bool) (s : State) : State :=
  let c := (regCanon a.off).1
  if !reachable s a then s
  else if malformed a then regFault s a.off
  else if !a.full && !(c == rTrlQpSqTailDb || c == rTrlQpCqHeadDb) then regFault s a.off
  else if bridged a then (if !bridgeFree s then s else bridgeTake (regWrite s a v ok) a true v none)
  else regWrite s a v ok

/-- LOW_WORD_READ (R8): a direct read; of the low word of a 64-bit register it captures the whole value. -/
def execLowWordRead (a : RegAcc) (t : Nat) (s : State) : Host.Outcome State Fault Refusal := .next (directRead a (tick s t))

/-- RC_REGISTER_READ (R476): a direct read; it clears the RC fields it returns. -/
def execRcRegisterRead (a : RegAcc) (t : Nat) (s : State) : Host.Outcome State Fault Refusal := .next (directRead a (tick s t))

/-- ADC_QUEUE_READ (R361): a direct read of ADC_QUEUE removes the oldest result. -/
def execAdcQueueRead (a : RegAcc) (t : Nat) (s : State) : Host.Outcome State Fault Refusal := .next (directRead a (tick s t))

/-- HIGH_WORD_WRITE (R12): a direct write; of the high word of a 64-bit register it commits the whole value. -/
def execHighWordWrite (a : RegAcc) (v t : Nat) (s : State) : Host.Outcome State Fault Refusal := .next (directWrite a v true (tick s t))

/-- REGISTER_WRITE (R476): a direct write; each field acts by its access type. -/
def execRegisterWrite (a : RegAcc) (v t : Nat) (s : State) : Host.Outcome State Fault Refusal := .next (directWrite a v true (tick s t))

/-- QP_ENABLE (R41, R42): a write of TRL_QP_BIND with ENABLE 1. -/
def execQpEnable (a : RegAcc) (v t : Nat) (s : State) : Host.Outcome State Fault Refusal := .next (directWrite a v true (tick s t))

/-- QP_DISABLE (R45): a write of TRL_QP_BIND with ENABLE 0. -/
def execQpDisable (a : RegAcc) (v t : Nat) (s : State) : Host.Outcome State Fault Refusal := .next (directWrite a v true (tick s t))

/-- SQ_TAIL_DOORBELL (R43). -/
def execSqTailDoorbell (a : RegAcc) (v t : Nat) (s : State) : Host.Outcome State Fault Refusal := .next (directWrite a v true (tick s t))

/-- CQ_HEAD_DOORBELL (R44). -/
def execCqHeadDoorbell (a : RegAcc) (v t : Nat) (s : State) : Host.Outcome State Fault Refusal := .next (directWrite a v true (tick s t))

/-- DDR_LANE_DELAY (R122). -/
def execDdrLaneDelay (a : RegAcc) (v t : Nat) (s : State) : Host.Outcome State Fault Refusal := .next (directWrite a v true (tick s t))

/-- DDR_SCRUB_HOST_RATE (R131). -/
def execDdrScrubHostRate (a : RegAcc) (v t : Nat) (s : State) : Host.Outcome State Fault Refusal := .next (directWrite a v true (tick s t))

/-- FTL_STREAM (R234). -/
def execFtlStream (a : RegAcc) (v t : Nat) (s : State) : Host.Outcome State Fault Refusal := .next (directWrite a v true (tick s t))

/-- FTL_WEAR_HOST (R234). -/
def execFtlWearHost (a : RegAcc) (v t : Nat) (s : State) : Host.Outcome State Fault Refusal := .next (directWrite a v true (tick s t))

/-- GAU_HOST_SOC (R316). -/
def execGauHostSoc (a : RegAcc) (v t : Nat) (s : State) : Host.Outcome State Fault Refusal := .next (directWrite a v true (tick s t))

/-- PSQ_HOST_STEP (R336). -/
def execPsqHostStep (a : RegAcc) (v t : Nat) (s : State) : Host.Outcome State Fault Refusal := .next (directWrite a v true (tick s t))

/-- ADC_START (R360): a write of ADC_CTRL with START. -/
def execAdcStart (a : RegAcc) (v t : Nat) (s : State) : Host.Outcome State Fault Refusal := .next (directWrite a v true (tick s t))

/-- ADC_STOP (R360): a write of ADC_CTRL with ENABLE 0. -/
def execAdcStop (a : RegAcc) (v t : Nat) (s : State) : Host.Outcome State Fault Refusal := .next (directWrite a v true (tick s t))

/-- TWI_UNFENCE (R370): a write of UNFENCE; `ok` says whether the check finds the bus free. -/
def execTwiUnfence (a : RegAcc) (v : Nat) (ok : Bool) (t : Nat) (s : State) : Host.Outcome State Fault Refusal :=
  .next (directWrite a v ok (tick s t))

/-! ### Register commands (R63–R65) -/

/-- An offset a register command may name: aligned, below 2^28, in a block of the map. -/
def offsetOk (a : Nat) : Bool := a % 4 == 0 && inBlock a

/-- A host-class issuer may not read the word: FUS, KRC, FWU, or another issuer's queue pair (R63). -/
def readDenied (s : State) (issuer a : Nat) : Bool :=
  let (c, i) := regCanon a
  issClass issuer == 0 && (hidden a || (isQpReg c && (qp s i).issuer.toNat != issuer))

/-- The cold-frame words that a register command reaches over the bridge: MCTP reaches them directly (R480, R481). -/
def coldWords (f : InFlight) (words : List Nat) : List Nat :=
  if viaMctp (carrierPath f.cmd.carrier) then [] else words.filter (fun w => !onLogic w)

/-- The bridge has room for the accesses of a register command, which otherwise waits (R480). -/
def bridgeRoom (s : State) (cold : List Nat) : Bool :=
  cold.isEmpty || (s.d2d.up && decide (s.d2d.bridge.length + cold.length ≤ 64))

/-- A register command ends with a reply: at once, or when its accesses have crossed the bridge (R480). -/
def accessEnds (s : State) (f : InFlight) (write : Bool) (cold : List (Nat × Nat)) (r : Reply) : State :=
  if cold.isEmpty then finish s f.id r
  else cold.foldl (fun s w =>
    let acc : RegAcc := { path := carrierPath f.cmd.carrier, full := true, issuer := f.cmd.est, off := w.1 }
    bridgeTake s acc write w.2 (some f.id)) (setJob s f.id (.access r))

/-- REG_READ (R63): 1 to 4 consecutive words, read in ascending order. -/
def cmdRegRead (f : InFlight) (s : State) : State :=
  let a := pNum f.cmd 24 4
  let n := pByte f.cmd 28
  let words := (List.range n).map (fun k => a + 4 * k)
  if n < 1 || 4 < n then badParam s f.id (if offsetOk a then 28 else 24)
  else if !words.all offsetOk then badParam s f.id 24
  else if words.any (readDenied s f.cmd.est) then endWith s f.id 0x05 0x06
  else if !bridgeRoom s (coldWords f words) then setJob s f.id .bridge
  else
    let p := carrierPath f.cmd.carrier
    let x := words.foldl (fun (x : State × List (Nat × Nat)) w => let y := regRead x.1 p w; (y.1, x.2 ++ [(w, y.2)])) (s, [])
    accessEnds x.1 f false (x.2.filter (fun w => (coldWords f words).contains w.1)) { result := padTo (x.2.flatMap (fun w => le w.2 4)) 16 }

/-- REG_READ_MULTI (R11, R64): every value as of one instant; then what the reads capture and clear. DESIGN CHOICE (log entry
125): over the bridge the list is one access, so that its values have one instant. -/
def cmdRegReadMulti (f : InFlight) (s : State) : State :=
  let n := pNum f.cmd 28 2
  let l := payIn f.cmd
  let words := (List.range n).map (fun k => rd l (4 * k) 4)
  if n < 1 || 256 < n then badParam s f.id 28
  else if f.cmd.payLen != 4 * n then badParam s f.id 0x40
  else if !words.all offsetOk || (words.any onLogic && !words.all onLogic) then badParam s f.id 0x40
  else if words.any (readDenied s f.cmd.est) then endWith s f.id 0x05 0x06
  else
    let p := carrierPath f.cmd.carrier
    let cold := (coldWords f words).take 1
    let out := words.flatMap (fun w => le (if w == rAdcQueue then (adcPop s).2 else regValue s p w) 4)
    if !bridgeRoom s cold then setJob s f.id .bridge
    else accessEnds (words.foldl (fun s w => (regRead s p w).1) s) f false (cold.map (fun w => (w, leNat out))) { output := out }

/-- REG_WRITE (R50, R65): one masked read-modify-write; the result is the register after it. A host-assisted input is taken
from its function's owner alone. -/
def cmdRegWrite (f : InFlight) (s : State) : State :=
  let a := pNum f.cmd 24 4
  let v := pNum f.cmd 28 4
  let m := pNum f.cmd 32 4
  if !offsetOk a then badParam s f.id 24
  else if m == 0 then badParam s f.id 32
  else if (match regFunction a with | some k => !owns s f.cmd.est k | none => false) then endWith s f.id 0x05 0x05
  else if !bridgeRoom s (coldWords f [a]) then setJob s f.id .bridge
  else
    let p := carrierPath f.cmd.carrier
    let acc : RegAcc := { path := p, full := true, issuer := f.cmd.est, off := a }
    let keep := match regFind s a with
      | some (r, _, high) => if r.wide then (if high then regValue s p a else heldLow s p a) else regValue s p a &&& accMask r (fun x => x == .rw || x == .rws)
      | none => 0
    let port := (regCanon a).2
    let s := regWrite s acc ((keep &&& (0xFFFFFFFF ^^^ m)) ||| (v &&& m)) ((twi s port).sda && (twi s port).scl)
    accessEnds s f true ((coldWords f [a]).map (fun w => (w, v))) { result := le (regValue s p a) 4 }

/-- Register commands that wait for room on the bridge are carried out, oldest first (R480). -/
def retryBridge (s : State) : State :=
  (jobs s (fun j => j == .bridge)).foldl (fun s f => match f.cmd.op with
    | 0x0010 => cmdRegRead f s
    | 0x0011 => cmdRegWrite f s
    | _ => cmdRegReadMulti f s) s

/-- COLD_FRAME_BRIDGE_ACCESS (R480): the oldest access completes once its data frames have arrived, 1 µs after it was accepted
at the earliest; a read returns its value, a register command ends with its last one. -/
def execColdFrameBridgeAccess (t : Nat) (s : State) : Host.Outcome State Fault Refusal :=
  let s := tick s t
  .next (match s.d2d.bridge with
    | [] => s
    | b :: r =>
      if b.reqs < 2 || b.datas < 2 || s.now < b.since + 1 then s
      else
        let s := { s with d2d := { s.d2d with bridge := r } }
        retryBridge (match b.cmd with
          | none => if b.write then s else emit s (.regData b.acc.path b.value)
          | some id =>
            if r.any (fun x => x.cmd == some id) then s
            else match jobOf s id with
              | .access rep => finish s id rep
              | _ => s))

/-- REG_READ as a packet. -/
def execRegRead (c : TrellisCmd) (s : State) : Host.Outcome State Fault Refusal := .next (submit cmdRegRead 0x0010 c s)

/-- REG_WRITE as a packet. -/
def execRegWrite (c : TrellisCmd) (s : State) : Host.Outcome State Fault Refusal := .next (submit cmdRegWrite 0x0011 c s)

/-- REG_READ_MULTI as a packet. -/
def execRegReadMulti (c : TrellisCmd) (s : State) : Host.Outcome State Fault Refusal := .next (submit cmdRegReadMulti 0x0012 c s)

end Sys2Proof.Machine
end

