-- ==== Sys2Proof/Machine/Commands.lean ====
section
/-! DEFINITION. The effect of every Trellis opcode, by its code, and what an admitted command does when it is started after
its admission (Table 2.6). -/

namespace Sys2Proof.Machine

open Sys2Proof

/-- The effect of an opcode of Table 2.6 on a command in flight. -/
def effectOf (op : Nat) : InFlight → State → State :=
  match op with
  | 0x0001 => cmdEcho
  | 0x0002 => cmdIdentify
  | 0x0010 => cmdRegRead
  | 0x0011 => cmdRegWrite
  | 0x0012 => cmdRegReadMulti
  | 0x0100 => cmdAllotCreate
  | 0x0101 => cmdAllotResize
  | 0x0102 => cmdAllotDelete
  | 0x0103 => cmdAllotBind
  | 0x0104 => cmdAllotQuery
  | 0x0200 => cmdExposureQuery
  | 0x0201 => cmdDripPolicySet
  | 0x0202 => cmdFlushRange
  | 0x0203 => cmdHarvestPlanLoad
  | 0x0204 => cmdFullSave
  | 0x0205 => cmdReplantOrderLoad
  | 0x0300 => cmdPair
  | 0x0301 => cmdUnpair
  | 0x0302 => cmdFailover
  | 0x0303 => cmdResync
  | 0x0304 => cmdTallyCompare
  | 0x0400 => cmdPackInfo
  | 0x0401 => cmdGaugeRead
  | 0x0402 => cmdGaugeRaw
  | 0x0403 => cmdRehearsalRun
  | 0x0500 => cmdPowerStateReq
  | 0x0501 => cmdRailTableLoad
  | 0x0502 => cmdSlaveSeqCmd
  | 0x0600 => cmdFaultStatus
  | 0x0601 => cmdFaultClear
  | 0x0602 => cmdFaultInject
  | 0x0700 => cmdLogCursorSet
  | 0x0701 => cmdLogReadWindow
  | 0x0702 => cmdLogClear
  | 0x0800 => cmdFwStageBegin
  | 0x0801 => cmdFwStageData
  | 0x0802 => cmdFwStageEnd
  | 0x0803 => cmdFwActivateAt
  | 0x0804 => cmdFwConfirm
  | 0x0900 => cmdKeyLabelSet
  | 0x0901 => cmdRecordSeal
  | 0x0902 => cmdRecordOpen
  | 0x0903 => cmdAesBlock
  | 0x0A00 => cmdTestSchedule
  | 0x0A01 => cmdTestResult
  | 0x0B00 => cmdFuncModeSet
  | 0x0B01 => cmdFuncModeQuery
  | 0x0C00 => cmdLateStatusFetch
  | _ => fun _ s => s

/-- A packet as a carrier delivers it, with the opcode its bytes name. -/
def submitPacket (c : TrellisCmd) (s : State) : State := submit (effectOf c.op) c.op c s

/-- Starts an admitted command. -/
def startCommand (f : InFlight) (s : State) : State := begin (effectOf f.cmd.op) f s

/-- Commands that may start now, oldest first (R55, R285). -/
def startReady (s : State) : State :=
  s.trl.flight.foldl (fun s f =>
    match inflight s f.id with
    | some g => if ready s g then startCommand g s else s
    | none => s) s

end Sys2Proof.Machine
end

