-- ==== Sys2Proof/Machine/Carriers.lean ====
section
/-! DEFINITION. The carriers of Trellis packets: the rings of a queue pair, the mailbox and MCTP (R43–R48). -/

namespace Sys2Proof.Machine

open Sys2Proof

/-- Queue pairs with an entry to fetch and room for its replies. -/
def fetchable (s : State) : List Nat :=
  (List.range 64).filter (fun n => mayFetch s n && (qp s n).sqHead != (qp s n).sqTail)

/-- The queue pair fetched from next: the first after the last one, in turn (R43). -/
def nextRing (s : State) : Option Nat :=
  match (fetchable s).find? (fun n => s.trl.rr < n) with
  | some n => some n
  | none => (fetchable s).head?

/-- QP_FETCH (R43): the entry read from the submission ring in host memory, and its input payload; `ok` and `payOk` say
whether the link carried them. A failed ring read puts the pair in ERROR (R45). -/
def execQpFetch (entry payload : List Byte) (ok payOk : Bool) (t : Nat) (s : State) : Host.Outcome State Fault Refusal :=
  let s := tick s t
  .next (match nextRing s with
    | none => s
    | some n =>
      let q := qp s n
      let s := { s with trl := { s.trl with rr := n } }
      if !ok then setQp s n { q with st := .error, err := 0x04 }
      else submitPacket (packetOf (.qp n) q.issuer.toNat entry payload payOk t) (setQp s n { q with sqHead := (q.sqHead + 1) % (q.sqM1 + 1) }))

/-- The command whose class 0 reply has been written leaves the in-flight list. -/
def replyWritten (s : State) (n : Nat) (r : Reply) : State :=
  match s.trl.flight.find? (fun f => f.cmd.carrier == .qp n && f.phase == 2 && f.reply == some r) with
  | some f => delivered s f.id
  | none => s

/-- QP_REPLY_WRITE (R44, R45): the oldest reply owed goes into the completion ring, then the tail is written, then the vector
is signalled. `ok`: the ring access succeeded. -/
def execQpReplyWrite (n : Nat) (ok : Bool) (t : Nat) (s : State) : Host.Outcome State Fault Refusal :=
  let s := tick s t
  let q := qp s n
  .next (match q.owed with
    | [] => judgeIdle s n
    | r :: rest =>
      if q.st != .active && q.st != .disabling then s
      else if !ok then setQp s n { q with st := .error, err := 0x05 }
      else
        let tail := (q.cqTail + 1) % (q.cqM1 + 1)
        let s := emit (setQp s n { q with owed := rest, cqTail := tail }) (.reply (.qp n) r)
        let s := emit (emit s (.ringTail n q.tailAddr.toNat tail)) (.msix n q.vector)
        judgeIdle (if r.cls == 0 then replyWritten s n r else s) n)

/-- The mailbox opcodes of Table 3.7 and of the fabric-manager API (R74), which have rows of their own. -/
def mailboxOps : List Nat := [0x0001, 0x0002, 0x0100, 0x0101, 0x0102, 0x0103, 0x0300, 0x0301, 0x0400, 0x0401, 0x4000,
  0x4200, 0x4201, 0x4202, 0x4203, 0x4204, 0x4300, 0x4301, 0x4302, 0x4800, 0x4801, 0x4802, 0x4803,
  0x5400, 0x5401, 0x5402, 0x5403, 0x5404, 0x5405, 0x5406, 0x5407, 0x5408, 0x5409]

/-- MAILBOX_TRELLIS_PACKET (R47, R100): a vendor-specific mailbox command. Opcode 0xC710 carries a Trellis packet; an opcode
that has no row of its own returns Unsupported. -/
def execMailboxTrellisPacket (op : Nat) (m : MboxReq) (t : Nat) (s : State) : Host.Outcome State Fault Refusal :=
  let s := tick s t
  .next (if !mboxHere s m || mailboxOps.contains op then s
    else if op != 0xC710 then emit s (.mbox m.port m.issuer 3 [])
    else if m.input.length < 64 || m.input.length != 64 + rd m.input 12 4 then emit s (.mbox m.port m.issuer 2 [])
    else submitPacket (packetOf (.mailbox m.port m.issuer) m.issuer m.input (m.input.drop 64) true t) s)

/-- MCTP_TRELLIS_MESSAGE (R34, R48): a message of another type, enterprise or length is no Trellis packet and is not
answered. -/
def execMctpTrellisMessage (h : MctpHead) (data : List Byte) (t : Nat) (s : State) : Host.Outcome State Fault Refusal :=
  let s := tick s t
  let head := [0x7F#8, 0x71#8, 0x4A#8, 0x03#8, 0x00#8, 0x01#8]
  .next (if data.take 6 != head || data.length < 70 || 70 + 1024 < data.length then s
    else submitPacket { packetOf (.mctp h.src) (0x2000 + h.src % 256) (data.drop 6) (data.drop 70) true t with head := h } s)

end Sys2Proof.Machine
end

