-- ==== Sys2Proof/Machine/Dispatch.lean ====
section
/-! DEFINITION. One arm for each command: its meaning, called directly. -/

namespace Sys2Proof.Machine

open Sys2Proof

def exec (i : Instr) (s : State) : Host.Outcome State Fault Refusal :=
  match i with
  | .echo c => Sys2Proof.Machine.execEcho c s
  | .identify c => Sys2Proof.Machine.execIdentify c s
  | .regRead c => Sys2Proof.Machine.execRegRead c s
  | .regWrite c => Sys2Proof.Machine.execRegWrite c s
  | .regReadMulti c => Sys2Proof.Machine.execRegReadMulti c s
  | .allotCreate c => Sys2Proof.Machine.execAllotCreate c s
  | .allotResize c => Sys2Proof.Machine.execAllotResize c s
  | .allotDelete c => Sys2Proof.Machine.execAllotDelete c s
  | .allotBind c => Sys2Proof.Machine.execAllotBind c s
  | .allotQuery c => Sys2Proof.Machine.execAllotQuery c s
  | .exposureQuery c => Sys2Proof.Machine.execExposureQuery c s
  | .dripPolicySet c => Sys2Proof.Machine.execDripPolicySet c s
  | .flushRange c => Sys2Proof.Machine.execFlushRange c s
  | .harvestPlanLoad c => Sys2Proof.Machine.execHarvestPlanLoad c s
  | .fullSave c => Sys2Proof.Machine.execFullSave c s
  | .replantOrderLoad c => Sys2Proof.Machine.execReplantOrderLoad c s
  | .pair c => Sys2Proof.Machine.execPair c s
  | .unpair c => Sys2Proof.Machine.execUnpair c s
  | .failover c => Sys2Proof.Machine.execFailover c s
  | .resync c => Sys2Proof.Machine.execResync c s
  | .tallyCompare c => Sys2Proof.Machine.execTallyCompare c s
  | .packInfo c => Sys2Proof.Machine.execPackInfo c s
  | .gaugeRead c => Sys2Proof.Machine.execGaugeRead c s
  | .gaugeRaw c => Sys2Proof.Machine.execGaugeRaw c s
  | .rehearsalRun c => Sys2Proof.Machine.execRehearsalRun c s
  | .powerStateReq c => Sys2Proof.Machine.execPowerStateReq c s
  | .railTableLoad c => Sys2Proof.Machine.execRailTableLoad c s
  | .slaveSeqCmd c => Sys2Proof.Machine.execSlaveSeqCmd c s
  | .faultStatus c => Sys2Proof.Machine.execFaultStatus c s
  | .faultClear c => Sys2Proof.Machine.execFaultClear c s
  | .faultInject c => Sys2Proof.Machine.execFaultInject c s
  | .logCursorSet c => Sys2Proof.Machine.execLogCursorSet c s
  | .logReadWindow c => Sys2Proof.Machine.execLogReadWindow c s
  | .logClear c => Sys2Proof.Machine.execLogClear c s
  | .fwStageBegin c => Sys2Proof.Machine.execFwStageBegin c s
  | .fwStageData c => Sys2Proof.Machine.execFwStageData c s
  | .fwStageEnd c => Sys2Proof.Machine.execFwStageEnd c s
  | .fwActivateAt c => Sys2Proof.Machine.execFwActivateAt c s
  | .fwConfirm c => Sys2Proof.Machine.execFwConfirm c s
  | .keyLabelSet c => Sys2Proof.Machine.execKeyLabelSet c s
  | .recordSeal c => Sys2Proof.Machine.execRecordSeal c s
  | .recordOpen c => Sys2Proof.Machine.execRecordOpen c s
  | .aesBlock c => Sys2Proof.Machine.execAesBlock c s
  | .testSchedule c => Sys2Proof.Machine.execTestSchedule c s
  | .testResult c => Sys2Proof.Machine.execTestResult c s
  | .funcModeSet c => Sys2Proof.Machine.execFuncModeSet c s
  | .funcModeQuery c => Sys2Proof.Machine.execFuncModeQuery c s
  | .lateStatusFetch c => Sys2Proof.Machine.execLateStatusFetch c s
  | .mailboxTrellisPacket op m t => Sys2Proof.Machine.execMailboxTrellisPacket op m t s
  | .mailboxIdentify m t => Sys2Proof.Machine.execMailboxIdentify m t s
  | .backgroundOperationStatus m t => Sys2Proof.Machine.execBackgroundOperationStatus m t s
  | .getEventRecords m t => Sys2Proof.Machine.execGetEventRecords m t s
  | .clearEventRecords m t => Sys2Proof.Machine.execClearEventRecords m t s
  | .getEventInterruptPolicy m t => Sys2Proof.Machine.execGetEventInterruptPolicy m t s
  | .setEventInterruptPolicy m t => Sys2Proof.Machine.execSetEventInterruptPolicy m t s
  | .getTimestamp m t => Sys2Proof.Machine.execGetTimestamp m t s
  | .setTimestamp m t => Sys2Proof.Machine.execSetTimestamp m t s
  | .getSupportedLogs m t => Sys2Proof.Machine.execGetSupportedLogs m t s
  | .getLog m t => Sys2Proof.Machine.execGetLog m t s
  | .identifyMemoryDevice m t => Sys2Proof.Machine.execIdentifyMemoryDevice m t s
  | .getHealthInfo m t => Sys2Proof.Machine.execGetHealthInfo m t s
  | .getAlertConfiguration m t => Sys2Proof.Machine.execGetAlertConfiguration m t s
  | .setAlertConfiguration m t => Sys2Proof.Machine.execSetAlertConfiguration m t s
  | .getShutdownState m t => Sys2Proof.Machine.execGetShutdownState m t s
  | .setShutdownState m t => Sys2Proof.Machine.execSetShutdownState m t s
  | .getPoisonList m t => Sys2Proof.Machine.execGetPoisonList m t s
  | .injectPoison m t => Sys2Proof.Machine.execInjectPoison m t s
  | .clearPoison m t => Sys2Proof.Machine.execClearPoison m t s
  | .getDynamicCapacityConfiguration m t => Sys2Proof.Machine.execGetDynamicCapacityConfiguration m t s
  | .getDynamicCapacityExtentList m t => Sys2Proof.Machine.execGetDynamicCapacityExtentList m t s
  | .addDynamicCapacityResponse m t => Sys2Proof.Machine.execAddDynamicCapacityResponse m t s
  | .releaseDynamicCapacity m t => Sys2Proof.Machine.execReleaseDynamicCapacity m t s
  | .getLdInfo m t => Sys2Proof.Machine.execGetLdInfo m t s
  | .getLdAllocations m t => Sys2Proof.Machine.execGetLdAllocations m t s
  | .setLdAllocations m t => Sys2Proof.Machine.execSetLdAllocations m t s
  | .getQosControl m t => Sys2Proof.Machine.execGetQosControl m t s
  | .setQosControl m t => Sys2Proof.Machine.execSetQosControl m t s
  | .getQosStatus m t => Sys2Proof.Machine.execGetQosStatus m t s
  | .getQosAllocatedBandwidth m t => Sys2Proof.Machine.execGetQosAllocatedBandwidth m t s
  | .setQosAllocatedBandwidth m t => Sys2Proof.Machine.execSetQosAllocatedBandwidth m t s
  | .getQosBandwidthLimit m t => Sys2Proof.Machine.execGetQosBandwidthLimit m t s
  | .setQosBandwidthLimit m t => Sys2Proof.Machine.execSetQosBandwidthLimit m t s
  | .setEndpointId h eid t => Sys2Proof.Machine.execSetEndpointId h eid t s
  | .getEndpointId h t => Sys2Proof.Machine.execGetEndpointId h t s
  | .getMctpVersionSupport h typ t => Sys2Proof.Machine.execGetMctpVersionSupport h typ t s
  | .getMessageTypeSupport h t => Sys2Proof.Machine.execGetMessageTypeSupport h t s
  | .mctpTrellisMessage h data t => Sys2Proof.Machine.execMctpTrellisMessage h data t s
  | .getVersion n data t => Sys2Proof.Machine.execGetVersion n data t s
  | .getCapabilities n data t => Sys2Proof.Machine.execGetCapabilities n data t s
  | .negotiateAlgorithms n data t => Sys2Proof.Machine.execNegotiateAlgorithms n data t s
  | .getDigests n data t => Sys2Proof.Machine.execGetDigests n data t s
  | .getCertificate n data t => Sys2Proof.Machine.execGetCertificate n data t s
  | .challenge n data t => Sys2Proof.Machine.execChallenge n data t s
  | .getMeasurements n data t => Sys2Proof.Machine.execGetMeasurements n data t s
  | .keyExchange n data t => Sys2Proof.Machine.execKeyExchange n data t s
  | .finish n data ok t => Sys2Proof.Machine.execFinish n data ok t s
  | .endSession n data t => Sys2Proof.Machine.execEndSession n data t s
  | .keyUpdate n data t => Sys2Proof.Machine.execKeyUpdate n data t s
  | .ideKm n data t => Sys2Proof.Machine.execIdeKm n data t s
  | .qpEnable a v t => Sys2Proof.Machine.execQpEnable a v t s
  | .qpDisable a v t => Sys2Proof.Machine.execQpDisable a v t s
  | .sqTailDoorbell a v t => Sys2Proof.Machine.execSqTailDoorbell a v t s
  | .cqHeadDoorbell a v t => Sys2Proof.Machine.execCqHeadDoorbell a v t s
  | .qpFetch entry payload ok payOk t => Sys2Proof.Machine.execQpFetch entry payload ok payOk t s
  | .qpReplyWrite n ok t => Sys2Proof.Machine.execQpReplyWrite n ok t s
  | .lowWordRead a t => Sys2Proof.Machine.execLowWordRead a t s
  | .highWordWrite a v t => Sys2Proof.Machine.execHighWordWrite a v t s
  | .rcRegisterRead a t => Sys2Proof.Machine.execRcRegisterRead a t s
  | .adcQueueRead a t => Sys2Proof.Machine.execAdcQueueRead a t s
  | .registerWrite a v t => Sys2Proof.Machine.execRegisterWrite a v t s
  | .coldFrameBridgeAccess t => Sys2Proof.Machine.execColdFrameBridgeAccess t s
  | .ddrLaneDelay a v t => Sys2Proof.Machine.execDdrLaneDelay a v t s
  | .hostDelayApply c lane ok t => Sys2Proof.Machine.execHostDelayApply c lane ok t s
  | .ddrScrubHostRate a v t => Sys2Proof.Machine.execDdrScrubHostRate a v t s
  | .ftlStream a v t => Sys2Proof.Machine.execFtlStream a v t s
  | .ftlWearHost a v t => Sys2Proof.Machine.execFtlWearHost a v t s
  | .gauHostSoc a v t => Sys2Proof.Machine.execGauHostSoc a v t s
  | .psqHostStep a v t => Sys2Proof.Machine.execPsqHostStep a v t s
  | .heartbeatRecordIn a v t => Sys2Proof.Machine.execHeartbeatRecordIn a v t s
  | .adcStart a v t => Sys2Proof.Machine.execAdcStart a v t s
  | .adcStop a v t => Sys2Proof.Machine.execAdcStop a v t s
  | .twiUnfence a v ok t => Sys2Proof.Machine.execTwiUnfence a v ok t s
  | .rdpRaise a v t => Sys2Proof.Machine.execRdpRaise a v t s
  | .rdpLower a v t => Sys2Proof.Machine.execRdpLower a v t s
  | .fuseAdvanceSecured a v t => Sys2Proof.Machine.execFuseAdvanceSecured a v t s
  | .fuseAdvanceRetired a v t => Sys2Proof.Machine.execFuseAdvanceRetired a v t s
  | .fuseSetHaDeny a v t => Sys2Proof.Machine.execFuseSetHaDeny a v t s
  | .fuseRaiseRdpFloor a v t => Sys2Proof.Machine.execFuseRaiseRdpFloor a v t s
  | .fuseSetDebugLock a v t => Sys2Proof.Machine.execFuseSetDebugLock a v t s
  | .fuseRaiseSvn a v t => Sys2Proof.Machine.execFuseRaiseSvn a v t s
  | .fuseRevokeKey a v t => Sys2Proof.Machine.execFuseRevokeKey a v t s
  | .vaonPresent x t => Sys2Proof.Machine.execVaonPresent x t s
  | .strapSample test xbyp t => Sys2Proof.Machine.execStrapSample test xbyp t s
  | .vaonAbsent t => Sys2Proof.Machine.execVaonAbsent t s
  | .vaonLow t => Sys2Proof.Machine.execVaonLow t s
  | .vaonReset t => Sys2Proof.Machine.execVaonReset t s
  | .brownOut t => Sys2Proof.Machine.execBrownOut t s
  | .inputGood t => Sys2Proof.Machine.execInputGood t s
  | .powerFail under overV pin t => Sys2Proof.Machine.execPowerFail under overV pin t s
  | .pfGlitch us t => Sys2Proof.Machine.execPfGlitch us t s
  | .powerFailNotice ns t => Sys2Proof.Machine.execPowerFailNotice ns t s
  | .harvestDoneNotice t => Sys2Proof.Machine.execHarvestDoneNotice t s
  | .fatalNotice n detail t => Sys2Proof.Machine.execFatalNotice n detail t s
  | .startChecks temp ecc ue t => Sys2Proof.Machine.execStartChecks temp ecc ue t s
  | .coldTempRecheck temp ecc ue t => Sys2Proof.Machine.execColdTempRecheck temp ecc ue t s
  | .slotEnable n t => Sys2Proof.Machine.execSlotEnable n t s
  | .slotGood n t => Sys2Proof.Machine.execSlotGood n t s
  | .railRamp n t => Sys2Proof.Machine.execRailRamp n t s
  | .slotDisable n t => Sys2Proof.Machine.execSlotDisable n t s
  | .slotOff n t => Sys2Proof.Machine.execSlotOff n t s
  | .railSlowOff n t => Sys2Proof.Machine.execRailSlowOff n t s
  | .railFault n overV code t => Sys2Proof.Machine.execRailFault n overV code t s
  | .railScanPass codes t => Sys2Proof.Machine.execRailScanPass codes t s
  | .heldRailExcursion n t => Sys2Proof.Machine.execHeldRailExcursion n t s
  | .drstSeen c t => Sys2Proof.Machine.execDrstSeen c t s
  | .pwrbtnPress t => Sys2Proof.Machine.execPwrbtnPress t s
  | .shortPress t => Sys2Proof.Machine.execShortPress t s
  | .longPress t => Sys2Proof.Machine.execLongPress t s
  | .mrNAssert t => Sys2Proof.Machine.execMrNAssert t s
  | .mrNRelease t => Sys2Proof.Machine.execMrNRelease t s
  | .powerCycle t => Sys2Proof.Machine.execPowerCycle t s
  | .holdTimeReached t => Sys2Proof.Machine.execHoldTimeReached t s
  | .orderlyOffSeal t => Sys2Proof.Machine.execOrderlyOffSeal t s
  | .orderlyOffPowerDown t => Sys2Proof.Machine.execOrderlyOffPowerDown t s
  | .offAbandoned t => Sys2Proof.Machine.execOffAbandoned t s
  | .thermalHigh temp t => Sys2Proof.Machine.execThermalHigh temp t s
  | .thermalTrip temp t => Sys2Proof.Machine.execThermalTrip temp t s
  | .xtalFail t => Sys2Proof.Machine.execXtalFail t s
  | .trainingStepComplete x t => Sys2Proof.Machine.execTrainingStepComplete x t s
  | .cxlLinkUp n width speed flit t => Sys2Proof.Machine.execCxlLinkUp n width speed flit t s
  | .cxlLinkDown n t => Sys2Proof.Machine.execCxlLinkDown n t s
  | .perstN n low t => Sys2Proof.Machine.execPerstN n low t s
  | .cxlMemRead r x t => Sys2Proof.Machine.execCxlMemRead r x t s
  | .cxlMemWrite r x t => Sys2Proof.Machine.execCxlMemWrite r x t s
  | .heldWriteDiscard n t => Sys2Proof.Machine.execHeldWriteDiscard n t s
  | .gpfPhase1 n t => Sys2Proof.Machine.execGpfPhase1 n t s
  | .gpfPhase2 n t => Sys2Proof.Machine.execGpfPhase2 n t s
  | .gpfDeadline n t => Sys2Proof.Machine.execGpfDeadline n t s
  | .ideIntegrityFailure n reqs t => Sys2Proof.Machine.execIdeIntegrityFailure n reqs t s
  | .priorityFetchDone g r t => Sys2Proof.Machine.execPriorityFetchDone g r t s
  | .replantStripeDone k bad mism t => Sys2Proof.Machine.execReplantStripeDone k bad mism t s
  | .warmVerifyEnd chans t => Sys2Proof.Machine.execWarmVerifyEnd chans t s
  | .harvestStripeDone n failed ues t => Sys2Proof.Machine.execHarvestStripeDone n failed ues t s
  | .sealWritten bad t => Sys2Proof.Machine.execSealWritten bad t s
  | .selfRefreshEntry c t => Sys2Proof.Machine.execSelfRefreshEntry c t s
  | .selfRefreshExit c t => Sys2Proof.Machine.execSelfRefreshExit c t s
  | .refreshDue c rank hot probe t => Sys2Proof.Machine.execRefreshDue c rank hot probe t s
  | .requestUrgent c n t => Sys2Proof.Machine.execRequestUrgent c n t s
  | .retrainDue c t => Sys2Proof.Machine.execRetrainDue c t s
  | .dimmTempPoll c temps t => Sys2Proof.Machine.execDimmTempPoll c temps t s
  | .scrubChunk c ces ues t => Sys2Proof.Machine.execScrubChunk c ces ues t s
  | .tallyRebuildDone c ues t => Sys2Proof.Machine.execTallyRebuildDone c ues t s
  | .gaugeUpdateFrame t => Sys2Proof.Machine.execGaugeUpdateFrame t s
  | .stageEval t => Sys2Proof.Machine.execStageEval t s
  | .dripRound free t => Sys2Proof.Machine.execDripRound free t s
  | .dripCommit g t => Sys2Proof.Machine.execDripCommit g t s
  | .moveCommit g t => Sys2Proof.Machine.execMoveCommit g t s
  | .recencySweep t => Sys2Proof.Machine.execRecencySweep t s
  | .hintExpiry t => Sys2Proof.Machine.execHintExpiry t s
  | .wearBucketGain t => Sys2Proof.Machine.execWearBucketGain t s
  | .enduranceForecast t => Sys2Proof.Machine.execEnduranceForecast t s
  | .journalPageTimeout bad t => Sys2Proof.Machine.execJournalPageTimeout bad t s
  | .wordlineFillTimeout n t => Sys2Proof.Machine.execWordlineFillTimeout n t s
  | .checkpointWrite seg bad t => Sys2Proof.Machine.execCheckpointWrite seg bad t s
  | .flashProgramDone ws ok t => Sys2Proof.Machine.execFlashProgramDone ws ok t s
  | .flashEraseDone k only failed t => Sys2Proof.Machine.execFlashEraseDone k only failed t s
  | .flashReadDone a r t => Sys2Proof.Machine.execFlashReadDone a r t s
  | .flashDqRetrain tgt temp t => Sys2Proof.Machine.execFlashDqRetrain tgt temp t s
  | .targetStatusPoll tgt ok t => Sys2Proof.Machine.execTargetStatusPoll tgt ok t s
  | .gcVictimChoice t => Sys2Proof.Machine.execGcVictimChoice t s
  | .patrolSchedule a r t => Sys2Proof.Machine.execPatrolSchedule a r t s
  | .harvestRotation t => Sys2Proof.Machine.execHarvestRotation t s
  | .harvestRegionSizing t => Sys2Proof.Machine.execHarvestRegionSizing t s
  | .d2dAck cold t => Sys2Proof.Machine.execD2dAck cold t s
  | .d2dNak cold t => Sys2Proof.Machine.execD2dNak cold t s
  | .registerRequest t => Sys2Proof.Machine.execRegisterRequest t s
  | .registerData cold t => Sys2Proof.Machine.execRegisterData cold t s
  | .eventFrame t => Sys2Proof.Machine.execEventFrame t s
  | .summaryUpdate t => Sys2Proof.Machine.execSummaryUpdate t s
  | .d2dFrameError cold w t => Sys2Proof.Machine.execD2dFrameError cold w t s
  | .d2dResendTimeout cold t => Sys2Proof.Machine.execD2dResendTimeout cold t s
  | .d2dRetrain t => Sys2Proof.Machine.execD2dRetrain t s
  | .d2dRetrainDone t => Sys2Proof.Machine.execD2dRetrainDone t s
  | .faultReport n detail missed holds t => Sys2Proof.Machine.execFaultReport n detail missed holds t s
  | .brokenPath p t => Sys2Proof.Machine.execBrokenPath p t s
  | .polledSourceCheck n detail fault t => Sys2Proof.Machine.execPolledSourceCheck n detail fault t s
  | .logRatePeriod code t => Sys2Proof.Machine.execLogRatePeriod code t s
  | .nvmProgramDone bank ok t => Sys2Proof.Machine.execNvmProgramDone bank ok t s
  | .nvmEraseDone bank t => Sys2Proof.Machine.execNvmEraseDone bank t s
  | .nvmEraseResume bank t => Sys2Proof.Machine.execNvmEraseResume bank t s
  | .nonceBlockReserve t => Sys2Proof.Machine.execNonceBlockReserve t s
  | .mpLockstep b t => Sys2Proof.Machine.execMpLockstep b t s
  | .mpPairBooted k t => Sys2Proof.Machine.execMpPairBooted k t s
  | .loadWindowEnd busyA busyB t => Sys2Proof.Machine.execLoadWindowEnd busyA busyB t s
  | .loadLevelFall t => Sys2Proof.Machine.execLoadLevelFall t s
  | .autoReturn t => Sys2Proof.Machine.execAutoReturn t s
  | .quiescentPointSwitch f t => Sys2Proof.Machine.execQuiescentPointSwitch f t s
  | .funcSwitchTimeout f t => Sys2Proof.Machine.execFuncSwitchTimeout f t s
  | .haWatchdog f t => Sys2Proof.Machine.execHaWatchdog f t s
  | .bedClockStop b t => Sys2Proof.Machine.execBedClockStop b t s
  | .bedWake t => Sys2Proof.Machine.execBedWake t s
  | .cuttingDone n ues t => Sys2Proof.Machine.execCuttingDone n ues t s
  | .tineFenced n t => Sys2Proof.Machine.execTineFenced n t s
  | .sublinkSignalDetect k t => Sys2Proof.Machine.execSublinkSignalDetect k t s
  | .sublinkEqDone k t => Sys2Proof.Machine.execSublinkEqDone k t s
  | .sublinkAlignLock k lanes t => Sys2Proof.Machine.execSublinkAlignLock k lanes t s
  | .sublinkSyncDone k t => Sys2Proof.Machine.execSublinkSyncDone k t s
  | .sublinkAuthDone k peerEpoch t => Sys2Proof.Machine.execSublinkAuthDone k peerEpoch t s
  | .sublinkStateTimeout k t => Sys2Proof.Machine.execSublinkStateTimeout k t s
  | .sublinkRetrainStart k t => Sys2Proof.Machine.execSublinkRetrainStart k t s
  | .sublinkHoldEnd k t => Sys2Proof.Machine.execSublinkHoldEnd k t s
  | .sublinkLost n t => Sys2Proof.Machine.execSublinkLost n t s
  | .flitCrcFailure k t => Sys2Proof.Machine.execFlitCrcFailure k t s
  | .linkAck k seq t => Sys2Proof.Machine.execLinkAck k seq t s
  | .linkNak k seq t => Sys2Proof.Machine.execLinkNak k seq t s
  | .replayTimeout k t => Sys2Proof.Machine.execReplayTimeout k t s
  | .macFlit f ok t => Sys2Proof.Machine.execMacFlit f ok t s
  | .record f r t => Sys2Proof.Machine.execRecord f r t s
  | .accept f sub through t => Sys2Proof.Machine.execAccept f sub through t s
  | .credit f sub n t => Sys2Proof.Machine.execCredit f sub n t s
  | .room f room stage adm through t => Sys2Proof.Machine.execRoom f room stage adm through t s
  | .clean f gs t => Sys2Proof.Machine.execClean f gs t s
  | .epoch f e ns t => Sys2Proof.Machine.execEpoch f e ns t s
  | .cutMark f e t => Sys2Proof.Machine.execCutMark f e t s
  | .tally f e region tally t => Sys2Proof.Machine.execTally f e region tally t s
  | .crcBlock f first crcs t => Sys2Proof.Machine.execCrcBlock f first crcs t s
  | .harvest f cause sub through t => Sys2Proof.Machine.execHarvest f cause sub through t s
  | .harvestDone f seq t => Sys2Proof.Machine.execHarvestDone f seq t s
  | .rehome f sub through t => Sys2Proof.Machine.execRehome f sub through t s
  | .rekey f id t => Sys2Proof.Machine.execRekey f id t s
  | .keySwitch f id t => Sys2Proof.Machine.execKeySwitch f id t s
  | .table f m t => Sys2Proof.Machine.execTable f m t s
  | .commit f id phase epoch status t => Sys2Proof.Machine.execCommit f id phase epoch status t s
  | .hello f m t => Sys2Proof.Machine.execHello f m t s
  | .proof f mac t => Sys2Proof.Machine.execProof f mac t s
  | .spdm f flags data t => Sys2Proof.Machine.execSpdm f flags data t s
  | .flush f tag first count t => Sys2Proof.Machine.execFlush f tag first count t s
  | .flushed f tag status t => Sys2Proof.Machine.execFlushed f tag status t s
  | .state f l t => Sys2Proof.Machine.execState f l t s
  | .compare f e first count t => Sys2Proof.Machine.execCompare f e first count t s
  | .roomPeriod t => Sys2Proof.Machine.execRoomPeriod t s
  | .pairEpochTick t => Sys2Proof.Machine.execPairEpochTick t s
  | .compareCaptureTimeout e t => Sys2Proof.Machine.execCompareCaptureTimeout e t s
  | .compareSchedule t => Sys2Proof.Machine.execCompareSchedule t s
  | .resyncPacing busy t => Sys2Proof.Machine.execResyncPacing busy t s
  | .rekeyDue t => Sys2Proof.Machine.execRekeyDue t s
  | .rekeyTimeout t => Sys2Proof.Machine.execRekeyTimeout t s
  | .exlKeyExhausted k t => Sys2Proof.Machine.execExlKeyExhausted k t s
  | .heartbeatPublish t => Sys2Proof.Machine.execHeartbeatPublish t s
  | .claimTimeout t => Sys2Proof.Machine.execClaimTimeout t s
  | .takeoverTimeout t => Sys2Proof.Machine.execTakeoverTimeout t s
  | .pairTimeout t => Sys2Proof.Machine.execPairTimeout t s
  | .flushRangeTimeout id t => Sys2Proof.Machine.execFlushRangeTimeout id t s
  | .releaseWaitExpiry id t => Sys2Proof.Machine.execReleaseWaitExpiry id t s
  | .fwConfirmTimeout t => Sys2Proof.Machine.execFwConfirmTimeout t s
  | .gaugeBurst xtal t => Sys2Proof.Machine.execGaugeBurst xtal t s
  | .currentComparatorTrip t => Sys2Proof.Machine.execCurrentComparatorTrip t s
  | .gaugeBurstDone vsns isns ts t => Sys2Proof.Machine.execGaugeBurstDone vsns isns ts t s
  | .gaugeUpdate t => Sys2Proof.Machine.execGaugeUpdate t s
  | .restPoint t => Sys2Proof.Machine.execRestPoint t s
  | .packIdRead data ok t => Sys2Proof.Machine.execPackIdRead data ok t s
  | .protectorRead word ok t => Sys2Proof.Machine.execProtectorRead word ok t s
  | .rehearsalDue t => Sys2Proof.Machine.execRehearsalDue t s
  | .rehearsalPhaseEnd moved t => Sys2Proof.Machine.execRehearsalPhaseEnd moved t s
  | .rehearsalTimeLimit t => Sys2Proof.Machine.execRehearsalTimeLimit t s
  | .slaveStatusPoll slave word ok t => Sys2Proof.Machine.execSlaveStatusPoll slave word ok t s
  | .pmbusPoll e words ok t => Sys2Proof.Machine.execPmbusPoll e words ok t s
  | .twiTransactionDone n r data t => Sys2Proof.Machine.execTwiTransactionDone n r data t s
  | .twiRetry n t => Sys2Proof.Machine.execTwiRetry n t s
  | .arbitrationLost n t => Sys2Proof.Machine.execArbitrationLost n t s
  | .clockLowTimeout n still t => Sys2Proof.Machine.execClockLowTimeout n still t s
  | .busClear n ok t => Sys2Proof.Machine.execBusClear n ok t s
  | .adcTimerTrigger k t => Sys2Proof.Machine.execAdcTimerTrigger k t s
  | .adcConversionDone k uv t => Sys2Proof.Machine.execAdcConversionDone k uv t s
  | .logicBist n pass t => Sys2Proof.Machine.execLogicBist n pass t s
  | .flashEngineLoopback n pass t => Sys2Proof.Machine.execFlashEngineLoopback n pass t s
  | .converterReference k low high t => Sys2Proof.Machine.execConverterReference k low high t s
  | .comparatorTrip n pass t => Sys2Proof.Machine.execComparatorTrip n pass t s
  | .faultPathInjection n ran det path t => Sys2Proof.Machine.execFaultPathInjection n ran det path t s
  | .cipherKnownAnswer n pass t => Sys2Proof.Machine.execCipherKnownAnswer n pass t s
  | .istCoverage n t => Sys2Proof.Machine.execIstCoverage n t s
  | .weedingPauseEnd t => Sys2Proof.Machine.execWeedingPauseEnd t s
  | .telemetrySample t => Sys2Proof.Machine.execTelemetrySample t s
  | .telemetrySummary t => Sys2Proof.Machine.execTelemetrySummary t s
  | .resyncPauseEnd t => Sys2Proof.Machine.execResyncPauseEnd t s
  | .configRecordSave t => Sys2Proof.Machine.execConfigRecordSave t s
  | .failedBoot t => Sys2Proof.Machine.execFailedBoot t s
  | .bedReloadDone k t => Sys2Proof.Machine.execBedReloadDone k t s
  | .vaonRecovery t => Sys2Proof.Machine.execVaonRecovery t s
  | .domainSwitchTimeout t => Sys2Proof.Machine.execDomainSwitchTimeout t s
  | .injectionTimeout n t => Sys2Proof.Machine.execInjectionTimeout n t s

end Sys2Proof.Machine
end

