-- ==== Sys2Proof/Machine/Step.lean ====
section
/-! DEFINITION. The step: the command at the front of the queue is executed with the queue's rest; on an empty queue the block
carries its own work on (log entry 2). -/

namespace Sys2Proof.Machine

open Sys2Proof

/-- What the logic die carries on by itself between commands: requests issue, harvests, flushes, saves, resync, comparisons,
grants and training go as far as their inputs allow (log entry 2). -/
def selfWork (s : State) : State :=
  let s := issueAll (harvestAdvance s)
  let s := scrubWork (moveWork (judgeSave (saveWork (flushWork s))))
  let s := completeReady (releaseHeld (drainSubs (retryHeld (feed s))))
  let s := replantWork (if serving s then judgeRelease (deleteAdvance s) else s)
  let s := grantCredits (startTrainings s)
  let s := rehomePump s (s.exl.subs.foldl (fun m p => m + p.2.unacc.length) 0)
  let s := resyncPump (roomIfChanged s) s.exl.resyncQ.length
  judgeFlushes (judgeCompares (activationCheck s))

/-- One step on an empty queue: admitted commands start, waiting embedded-flash operations start where they may, the logic die works while it is powered, and a weeding pass takes
its next unit (R55, R429; log entry 2). -/
def idle (s : State) : State :=
  let s := nvmKick (nvmKick (startReady s) 0) 1
  startWeeding (if logicOn s then selfWork s else s)

/-- One step: the command at the front of the queue, with the queue's rest; `idle` on an empty queue. -/
def step (s : State) : Host.Outcome State Fault Refusal :=
  match s.pending with
  | c :: rest => exec c { s with pending := rest }
  | [] => .next (idle s)

/-- `s` with the command a word spells at the front of its queue; the table gives no row bits, so no word spells one. -/
def State.withFetchWord (s : State) (nbits w : Nat) : State :=
  match decodeTableWord nbits w with
  | some c => { s with pending := c :: s.pending }
  | none => s

end Sys2Proof.Machine
end

