-- ==== Sys2Proof/Safety.lean ====
section
/-! DEFINITION. What a sound run keeps, and when a Trellis packet runs, in the terms the claims use. -/

namespace Sys2Proof.Machine

open Sys2Proof

/-- The host memory has its canonical form (log entry 9). -/
def State.memWf (s : State) : Bool := Memory.wf s.mem.cells

/-- Every waiting command is well formed. -/
def State.queueWf (s : State) : Bool := s.pending.all Instr.wf

/-- What every step keeps. -/
def State.sound (s : State) : Bool := s.memWf && s.queueWf

/-- Every bit burnt in `x` is burnt in `y`, the part is the same and the security version is no lower: the fuses are
one-time (R421, R423). -/
def Fus.keeps (x y : Fus) : Prop :=
  y.part = x.part ∧ x.lifecycle ||| y.lifecycle = y.lifecycle ∧ x.rdpFloor ||| y.rdpFloor = y.rdpFloor
    ∧ (x.debugLock → y.debugLock) ∧ x.haDeny ||| y.haDeny = y.haDeny ∧ x.keyRevoke ||| y.keyRevoke = y.keyRevoke ∧ x.svn ≤ y.svn

/-- What every command keeps of the state before it: the queue as it is, a clock that does not go back, the canonical form of
the host memory, the burnt fuses, the free values drawn (none is drawn twice), and what was sent out. -/
structure Kept (s s' : State) : Prop where
  queue : s'.pending = s.pending
  clock : s.now ≤ s'.now
  form : Memory.wf s.mem.cells = true → Memory.wf s'.mem.cells = true
  fuses : Fus.keeps s.fus s'.fus
  draws : s.draws ≤ s'.draws
  out : s.out <:+ s'.out

/-- A packet of opcode `op` that runs as it arrives: its carrier takes it, it passes the checks of R40, its server runs and no
predecessor holds it (R55), its payload is read (R46) and it sets no undefined parameter byte (R35). The state with the
command admitted, and its entry; none for any other packet. -/
def started (op : Nat) (c : TrellisCmd) (s : State) : Option (State × InFlight) :=
  let s := tick s c.t
  let c := packetAs op c s
  if s.dev.state == .off || !carrierTakes s c.carrier || !addressed s c || mailboxBusy s c || (checkPacket s c).isSome then none
  else
    let r := admitCmd s c
    if ready r.1 r.2 && !payloadLost c && (undefinedByte c).isNone then some r else none

/-- Every Trellis opcode with the row that submits its packet (Table 2.6). -/
def trellisRows : List (Nat × (TrellisCmd → Instr)) := [
  (0x0001, .echo), (0x0002, .identify), (0x0010, .regRead), (0x0011, .regWrite), (0x0012, .regReadMulti),
  (0x0100, .allotCreate), (0x0101, .allotResize), (0x0102, .allotDelete), (0x0103, .allotBind), (0x0104, .allotQuery),
  (0x0200, .exposureQuery), (0x0201, .dripPolicySet), (0x0202, .flushRange), (0x0203, .harvestPlanLoad),
  (0x0204, .fullSave), (0x0205, .replantOrderLoad), (0x0300, .pair), (0x0301, .unpair), (0x0302, .failover),
  (0x0303, .resync), (0x0304, .tallyCompare), (0x0400, .packInfo), (0x0401, .gaugeRead), (0x0402, .gaugeRaw),
  (0x0403, .rehearsalRun), (0x0500, .powerStateReq), (0x0501, .railTableLoad), (0x0502, .slaveSeqCmd),
  (0x0600, .faultStatus), (0x0601, .faultClear), (0x0602, .faultInject), (0x0700, .logCursorSet),
  (0x0701, .logReadWindow), (0x0702, .logClear), (0x0800, .fwStageBegin), (0x0801, .fwStageData),
  (0x0802, .fwStageEnd), (0x0803, .fwActivateAt), (0x0804, .fwConfirm), (0x0900, .keyLabelSet), (0x0901, .recordSeal),
  (0x0902, .recordOpen), (0x0903, .aesBlock), (0x0A00, .testSchedule), (0x0A01, .testResult), (0x0B00, .funcModeSet),
  (0x0B01, .funcModeQuery), (0x0C00, .lateStatusFetch)]

/-- The rows that read a register directly (R475). -/
def directReads : List (RegAcc → Nat → Instr) := [.lowWordRead, .rcRegisterRead, .adcQueueRead]

/-- The rows that write a register directly (R475); TWI_UNFENCE takes the result of its bus check as well. -/
def directWrites : List (RegAcc → Nat → Nat → Instr) := [
  .qpEnable, .qpDisable, .sqTailDoorbell, .cqHeadDoorbell, .highWordWrite, .registerWrite, .ddrLaneDelay, .ddrScrubHostRate,
  .ftlStream, .ftlWearHost, .gauHostSoc, .psqHostStep, .adcStart, .adcStop, fun a v t => .twiUnfence a v true t,
  fun a v t => .twiUnfence a v false t]

/-- A well-formed direct write that reaches a register it may write: the register's canonical offset, its instance, and
whether the offset is its high word. None for any other write (R6, R474, R475, R480). -/
def lands (s : State) (a : RegAcc) : Option (Nat × Nat × Bool) :=
  let c := (regCanon a.off).1
  if reachable s a && !malformed a && (a.full || c == rTrlQpSqTailDb || c == rTrlQpCqHeadDb) && (!bridged a || bridgeFree s) then
    (regFind s a.off).map (fun x => (x.1.addr, x.2.1, x.2.2))
  else none

/-- A 32-bit register whose write does no more than set its writable fields. -/
def plainReg (c : Nat) : Bool :=
  !isSel c && !isQpReg c && !(regTable.any (fun r => r.addr == c && r.wide)) && c != rFwuFuseCmd && c != rNvmRdp
    && !(rExlHbIn0 ≤ c && c ≤ rExlHbIn3) && c != rTwiStatus && c != rFltSrc && c != rAdcSeqEntry && c != rExlFoCfg
    && c != rExlCfg && c != rAdcCtrl0 && c != rAdcCtrl1 && c != rDdrLaneDelay && c != rDdrScrub && c != rFtlStream
    && c != rFtlWearHost && c != rGauHostSoc && c != rPsqHostStep

/-- The state after an access that changed it to `s`: an access that crosses the cold-frame bridge takes a place there
(R480). -/
def landed (a : RegAcc) (w : Bool) (v : Nat) (s : State) : State := if bridged a then bridgeTake s a w v none else s

end Sys2Proof.Machine
end

