-- ==== Sys2Proof/Certificates/Slice0/Obligations.lean ====
section
/-! DEFINITION. The statements for the provers. Each is true of every state; `u` names the state at the command's time, `tick s t`,
and `started` (Safety) the packets that run as they arrive. -/

open Sys2Proof Sys2Proof.Machine

/-- With a command c at the front of the queue, a step is exec of c on the state with the queue's rest. On an empty queue a step
answers next with the work the block carries on by itself (a design choice of the model, log entry 2). Rests on 00_scope.md,
02_trellis_commands.md R55, log entries 1 and 2. -/
def Obligations.StepRunsTheFrontCommand : Prop :=
  (∀ (c : Instr) (rest : List Instr) (s : State), s.pending = c :: rest → step s = exec c { s with pending := rest })
  ∧ (∀ s : State, s.pending = [] → step s = .next (idle s))

/-- The manual gives every one of the 331 commands an effect in every state (a command that finds nothing to act on has none), so
none faults and none is refused, whatever its operands; and a step always answers a next state. Rests on 00_scope.md,
02_trellis_commands.md, 19_register_map.md. -/
def Obligations.NoCommandStops : Prop :=
  (∀ (c : Instr) (s : State), ∃ w, exec c s = .next w) ∧ (∀ s : State, ∃ w, step s = .next w)

/-- From every state and for every command at the front of the queue, a step that answers next leaves the queue's rest as it is
(no command puts one into the queue), never sets the clock back, keeps the canonical form of the host memory, keeps every
burnt fuse bit burnt with the part number unchanged and the security version no lower (R421, R423), counts the free values
drawn upward only so that none is drawn twice, and keeps what was sent out as a suffix of what it has sent out after. A sound
state, whose memory has its form and whose waiting commands are all well formed, stays sound. Rests on
15_firmware_keys_fuses.md R421, 15_firmware_keys_fuses.md R423, 03_host_ports_allotments.md R102, log entries 1, 9, 20, 29 and
30. -/
def Obligations.EveryStepKeepsTheInvariant : Prop :=
  ∀ (s w : State), step s = .next w →
    Kept { s with pending := s.pending.tail } w ∧ (s.sound = true → w.sound = true)

/-- State.reset has the canonical memory form, an empty queue, the device in OFF with VAON absent, no fault latched, no fuse burnt
but those the model names, nothing drawn and nothing sent. It is the state before the always-on supply first appears (the
model's choice, log entry 1). Rests on 01_architecture.md R14, 19_register_map.md R478, log entries 1, 9 and 20. -/
def Obligations.ResetIsSoundAndOff : Prop :=
  State.reset.sound = true ∧ State.reset.pending = [] ∧ State.reset.dev.state = .off ∧ State.reset.dev.vaon = false
  ∧ State.reset.flt.latched = none ∧ State.reset.mem.cells = [] ∧ State.reset.draws = 0 ∧ State.reset.out = []
  ∧ State.reset.now = 0

/-- The checks before admission answer as R40 orders them: a version other than 0x01 is BAD_PARAM at byte 3 whatever else is
wrong; then an opcode outside Table 2.6 is BAD_OPCODE at byte 0; then flags bits [7:3] are BAD_PARAM at byte 2; then a tag
still in flight on the carrier is CONFLICT 0x01; then an issuer other than the one the carrier establishes is NOT_PERMITTED
0x01; then class, binding and fuse mask; then the device state (CONFLICT 0x02 with the state, or FATAL in LATCHED); then the
limits; then admission. Where an opcode acts on an allotment, a host naming one it is not bound to is refused with
NOT_PERMITTED 0x03, and an ID outside 0x0000 to 0x0FFF, or 0xFFFF where one must be named, with BAD_PARAM at byte 8. A packet
passes all of them only if each of them passes. Rests on 02_trellis_commands.md R40, 02_trellis_commands.md R36,
02_trellis_commands.md R49, 02_trellis_commands.md R35, 02_trellis_commands.md R56, 02_trellis_commands.md R53, log entry 66. -/
def Obligations.PacketChecksInOrder : Prop :=
  ∀ (s : State) (c : TrellisCmd),
    (c.version ≠ 1 → checkPacket s c = some (0x04, 3, 0))
    ∧ (c.version = 1 → opRow c.op = none → checkPacket s c = some (0x03, 0, 0))
    ∧ (∀ r, c.version = 1 → opRow c.op = some r → 8 ≤ c.flags → checkPacket s c = some (0x04, 2, 0))
    ∧ (∀ r, c.version = 1 → opRow c.op = some r → c.flags < 8 → (onCarrier s c.carrier).any (fun f => f.cmd.tag == c.tag) = true →
        checkPacket s c = some (0x0E, 0x01, 0))
    ∧ (∀ r, c.version = 1 → opRow c.op = some r → c.flags < 8 → (onCarrier s c.carrier).any (fun f => f.cmd.tag == c.tag) = false →
        (c.issuer ≠ c.est → checkPacket s c = some (0x05, 0x01, 0))
        ∧ (∀ x, checkIssuer s c r = some x → checkPacket s c = some x)
        ∧ (checkIssuer s c r = none → servedNow s c r = false → s.dev.state ≠ .latched →
            checkPacket s c = some (0x0E, 0x02 + 256 * s.dev.state.code, 0))
        ∧ (checkIssuer s c r = none → servedNow s c r = false → s.dev.state = .latched → checkPacket s c = some (0x0F, 0, 0))
        ∧ (∀ x, checkIssuer s c r = none → servedNow s c r = true → checkLimits c r = some x → checkPacket s c = some x)
        ∧ (checkIssuer s c r = none → servedNow s c r = true → checkLimits c r = none → checkPacket s c = checkAdmit s c r))
    ∧ (∀ r, opRow c.op = some r → namesAllot c ≠ 0 →
        (c.issuer = c.est → issClass c.est = 0 → bit r.iss 0 = true → c.allot < 0x1000 → bound s c.est c.allot = false →
          checkIssuer s c r = some (0x05, 0x03, 0))
        ∧ ((0x1000 ≤ c.allot ∧ c.allot ≠ 0xFFFF) ∨ (namesAllot c = 1 ∧ c.allot = 0xFFFF) → checkLimits c r = some (0x04, 0x08, 0)))
    ∧ (checkPacket s c = none → c.version = 1 ∧ c.flags < 8 ∧ c.issuer = c.est ∧ ∃ r, opRow c.op = some r ∧ servedNow s c r = true
        ∧ checkLimits c r = none ∧ checkAdmit s c r = none)

/-- The 48 rows of Table 2.6 submit exactly its 48 opcodes, in order. For every one of them: in OFF, on a carrier that takes no
packet now, to a two-wire address the port does not answer, or through a mailbox that still holds a command, the packet has no
effect and no answer; a packet that fails a check of R40 gets its refusal and changes nothing else; and a packet that passes
them and runs as it arrives has its opcode's effect on the state that admitted it. Rests on 02_trellis_commands.md R38,
02_trellis_commands.md R39, 02_trellis_commands.md R40, 02_trellis_commands.md R47, 02_trellis_commands.md R56. -/
def Obligations.EveryTrellisRowRefusesOrRuns : Prop :=
  trellisRows.map (·.1) = opTable.map (·.op)
  ∧ (∀ row ∈ trellisRows, ∀ (c : TrellisCmd) (s u : State), u = tick s c.t →
      (u.dev.state = .off ∨ carrierTakes u c.carrier = false ∨ addressed u c = false ∨ mailboxBusy u (packetAs row.1 c u) = true → exec (row.2 c) s = .next u)
      ∧ (∀ x, u.dev.state ≠ .off → carrierTakes u c.carrier = true → addressed u c = true → mailboxBusy u (packetAs row.1 c u) = false →
          checkPacket u (packetAs row.1 c u) = some x → exec (row.2 c) s = .next (refuse u (packetAs row.1 c u) x))
      ∧ (∀ v f, started row.1 c s = some (v, f) → exec (row.2 c) s = .next (effectOf row.1 f v)))

/-- For every packet whose fields have the widths of Table 2.1 and whose 40 parameter bytes are given, packetOf of its 64 bytes is
the packet, with every field at every value; its bytes are 64; and for every 64 bytes, the bytes of the packet they decode to
are those bytes. So no bit of a packet is dropped and no two packets share their bytes. Rests on 02_trellis_commands.md R34,
Table 2.1. -/
def Obligations.PacketBytesRoundTrip : Prop :=
  (∀ c : TrellisCmd, c.wf = true → c.params.length = 40 →
    (packetBytes c).length = 64 ∧ { packetOf c.carrier c.est (packetBytes c) c.payload c.payOk c.t with head := c.head } = c)
  ∧ (∀ (car : Carrier) (est : Nat) (b payload : List Byte) (ok : Bool) (t : Nat), b.length = 64 →
      packetBytes (packetOf car est b payload ok t) = b ∧ (packetOf car est b payload ok t).params.length = 40)

/-- The bytes of a reply are 32: the tag in bytes 0 to 3, the opcode in 4 and 5, the status in 6, the class in 7, retry-after or
origin in 8 to 11, the detail in 12 to 15, each little-endian, and the result in 16 to 31, with zeros where the result has no
byte. Rests on 02_trellis_commands.md R37, Table 2.3. -/
def Obligations.ReplyLayout : Prop :=
  ∀ r : Reply, (replyBytes r).length = 32
    ∧ rd (replyBytes r) 0 4 = r.tag % 2 ^ 32 ∧ rd (replyBytes r) 4 2 = r.op % 2 ^ 16 ∧ rd (replyBytes r) 6 1 = r.status % 256
    ∧ rd (replyBytes r) 7 1 = r.cls % 256 ∧ rd (replyBytes r) 8 4 = r.retry % 2 ^ 32 ∧ rd (replyBytes r) 12 4 = r.detail % 2 ^ 32
    ∧ ∀ i, i < 16 → (replyBytes r).getD (16 + i) 0#8 = r.result.getD i 0#8

/-- After bytes are written from an address, each of those addresses reads the byte written and every other address reads as
before; with byte enables, only the enabled bytes change; both keep the canonical form, and a cleared range reads as zero with
every other address as before. An address nothing has written reads as zero (R102 for a new extent; else the model's choice,
log entry 9). Rests on 03_host_ports_allotments.md R69, 03_host_ports_allotments.md R102, log entry 9. -/
def Obligations.HostMemoryReadAfterWrite : Prop :=
  (∀ (m : List Host.Cell) (a : Nat) (l : List Byte), Memory.wf m = true →
    Memory.wf (mwriteN m a l) = true
    ∧ ∀ b, mread (mwriteN m a l) b = if a ≤ b ∧ b < a + l.length then l.getD (b - a) 0#8 else mread m b)
  ∧ (∀ (m : List Host.Cell) (a en : Nat) (l : List Byte), Memory.wf m = true →
    Memory.wf (mwriteEn m a l en) = true
    ∧ ∀ b, mread (mwriteEn m a l en) b
        = if a ≤ b ∧ b < a + l.length ∧ en.testBit (b - a) = true then l.getD (b - a) 0#8 else mread m b)
  ∧ (∀ (m : List Host.Cell) (a k : Nat), Memory.wf m = true →
    Memory.wf (mclear m a k) = true ∧ ∀ b, mread (mclear m a k) b = if a ≤ b ∧ b < a + k then 0#8 else mread m b)
  ∧ (∀ b, mread State.reset.mem.cells b = 0#8)

/-- For every message of bytes, the CRC-8 of SMBus packet error checking over the message and its own check byte is zero, so a
receiver that runs the check over all of it accepts exactly that byte: with any other last byte the check is not zero. Rests
on 13_converters_and_two_wire.md R363. -/
def Obligations.PacketErrorCheckResidue : Prop :=
  ∀ (l : List Byte), pec l < 256 ∧ ∀ b : Byte, pec (l ++ [b]) = 0 ↔ b = BitVec.ofNat 8 (pec l)

/-- For each of the three direct read rows and the sixteen direct write rows: a reachable access that is not four bytes wide or
whose offset is not a multiple of four changes nothing on a write, answers 0xFFFF_FFFF on a read, and in both cases enters the
fault collector as source 0x003 with the offset as its detail. Source 0x003 is of the Corrected kind. The same holds of an
offset outside every block (R474). Formalises R6. -/
def Obligations.MalformedAccessReadsOnesAndIsRecorded : Prop :=
  (∀ row ∈ directReads, ∀ (a : RegAcc) (t : Nat) (s u : State), u = tick s t → reachable u a = true →
    (a.size ≠ 4 ∨ a.off % 4 ≠ 0 ∨ inBlock a.off = false) →
    exec (row a t) s = .next (emit (regFault u a.off) (.regData a.path 0xFFFFFFFF)))
  ∧ (∀ row ∈ directWrites, ∀ (a : RegAcc) (v t : Nat) (s u : State), u = tick s t → reachable u a = true →
    (a.size ≠ 4 ∨ a.off % 4 ≠ 0 ∨ inBlock a.off = false) → exec (row a v t) s = .next (regFault u a.off))
  ∧ (∀ (s : State) (off : Nat), regFault s off = raise s 0x003 off) ∧ srcKind 0x003 = some 0

/-- Each of the rows LOW_WORD_READ, RC_REGISTER_READ and ADC_QUEUE_READ (they are one access, named by what the register does) has
no effect while its path or block cannot be reached; reads as zero in a block a host function may not read; else answers the
value of the register on its path. An access to a cold-frame block from a path of the logic die takes a place in the bridge
with that value, and waits outside while the bridge is full or down. An offset without a register reads as zero; ADC_QUEUE
removes its oldest result. Rests on 19_register_map.md R474, 19_register_map.md R475, 19_register_map.md R480,
13_converters_and_two_wire.md R361, 00_scope.md R4. -/
def Obligations.DirectReadsAnswerTheRegister : Prop :=
  (∀ row ∈ directReads, ∀ (a : RegAcc) (t : Nat) (s u : State), u = tick s t →
    (reachable u a = false → exec (row a t) s = .next u)
    ∧ (reachable u a = true → malformed a = false →
        (a.full = false → hidden a.off = true → exec (row a t) s = .next (emit u (.regData a.path 0)))
        ∧ ((a.full = true ∨ hidden a.off = false) →
            (bridged a = false →
              exec (row a t) s = .next (emit (regRead u a.path a.off).1 (.regData a.path (regRead u a.path a.off).2)))
            ∧ (bridged a = true → bridgeFree u = true →
              exec (row a t) s = .next (bridgeTake (regRead u a.path a.off).1 a false (regRead u a.path a.off).2 none))
            ∧ (bridged a = true → bridgeFree u = false → exec (row a t) s = .next u))))
  ∧ (∀ (s : State) (p : Path) (off : Nat), regFind s off = none → (off < rLogWindow ∨ rLogWindow + 0x1000 ≤ off) →
      regRead s p off = (s, 0))
  ∧ (∀ (s : State) (p : Path) (i : Nat) (r : RegD) (off : Nat), regFind s off = some (r, i, false) → r.addr = rAdcQueue →
      (s.adc.queue = [] → regRead s p off = (s, 0))
      ∧ (∀ x q, s.adc.queue = x :: q → (regRead s p off).1 = { s with adc := { s.adc with queue := q } }
          ∧ bit (regRead s p off).2 31 = true ∧ bits (regRead s p off).2 0 14 = x.code % 2 ^ 14
          ∧ bits (regRead s p off).2 23 6 = x.input % 64 ∧ bits (regRead s p off).2 29 1 = x.conv % 2))

/-- For every 64-bit register and every path: a read of its low word returns the low half and sets the path's capture to the value
both words have at that instant, over any older capture, and leaves every other capture as it is; in whatever state holds that
capture later, a read of the high word on that path returns the captured high half and changes nothing; and on a path with no
capture it returns the live high half. Formalises R8, R10. -/
def Obligations.WideRegistersAreCapturedAtTheLowWord : Prop :=
  ∀ (s : State) (p : Path) (i off : Nat) (r : RegD), regFind s off = some (r, i, false) → r.wide = true →
    (regRead s p off).2 = regValue s p off
    ∧ tget (regRead s p off).1.paths.captures (pathReg p off)
        = some (BitVec.ofNat 64 (regValue s p (off + 4) * 2 ^ 32 + regValue s p off))
    ∧ (∀ k, k ≠ pathReg p off → tget (regRead s p off).1.paths.captures k = tget s.paths.captures k)
    ∧ (regRead s p off).1 = { s with paths := { s.paths with captures := (regRead s p off).1.paths.captures } }
    ∧ (∀ (w : State), regFind w (off + 4) = some (r, i, true) →
        (∀ v, tget w.paths.captures (pathReg p off) = some v → regRead w p (off + 4) = (w, v.toNat / 2 ^ 32))
        ∧ (tget w.paths.captures (pathReg p off) = none → regRead w p (off + 4) = (w, regValue w p (off + 4))))

/-- Through a direct write: a low word of a 64-bit register is only held, for its path, over any low word held before.
HIGH_WORD_WRITE to the log cursor commits the held low word with the written high word as the path's cursor (48 bits), and to
a base or tail address of an idle queue pair, from the fabric manager or board management, the whole address with its low bits
clear; the held word is gone then. No other 64-bit register can be written. Formalises R12. -/
def Obligations.WideRegistersCommitAtTheHighWord : Prop :=
  (∀ (a : RegAcc) (v t i : Nat) (r : RegD) (s u : State), u = tick s t → (lands u a).isSome = true →
    regFind u a.off = some (r, i, false) → r.wide = true →
    exec (.registerWrite a v t) s = .next (landed a true v
      { u with paths := { u.paths with heldLow := tset u.paths.heldLow (pathReg a.path a.off) (BitVec.ofNat 32 v) } }))
  ∧ (∀ (a : RegAcc) (v t i : Nat) (s u : State), u = tick s t → lands u a = some (rLogCursor, i, true) →
    exec (.highWordWrite a v t) s = .next (landed a true v { u with paths := { u.paths with
      heldLow := tdel u.paths.heldLow (pathReg a.path (a.off - 4)),
      cursors := tset u.paths.cursors (pathKey a.path)
        (BitVec.ofNat 64 ((v % 2 ^ 32 * 2 ^ 32 + heldLow u a.path (a.off - 4)) % 2 ^ 48)) } }))
  ∧ (∀ (a : RegAcc) (v t n c : Nat) (s u : State), u = tick s t → lands u a = some (c, n, true) →
    (issClass a.issuer = 1 ∨ issClass a.issuer = 2) → (qp u n).st = .idle →
    let w := { u with paths := { u.paths with heldLow := tdel u.paths.heldLow (pathReg a.path (a.off - 4)) } }
    let full := fun m : Nat => BitVec.ofNat 64 ((v % 2 ^ 32) * 2 ^ 32 + heldLow u a.path (a.off - 4) / m * m)
    (c = rTrlQpSqBase → exec (.highWordWrite a v t) s = .next (landed a true v (setQp w n { qp u n with sqBase := full 4096 })))
    ∧ (c = rTrlQpCqBase → exec (.highWordWrite a v t) s = .next (landed a true v (setQp w n { qp u n with cqBase := full 4096 })))
    ∧ (c = rTrlQpCqTailAddr →
        exec (.highWordWrite a v t) s = .next (landed a true v (setQp w n { qp u n with tailAddr := full 4 }))))
  ∧ (∀ r ∈ regTable, r.wide = true → accMask r (fun x => x == .rw || x == .rws) ≠ 0 →
      r.addr = rLogCursor ∨ r.addr = rTrlQpSqBase ∨ r.addr = rTrlQpCqBase ∨ r.addr = rTrlQpCqTailAddr)

/-- A direct write has no effect where its path or block cannot be reached; a host function's write to anything but a doorbell is
dropped and recorded. A write of a selector sets the selection of its own path alone. A write of a register that stores plain
fields sets exactly its RW and RWS bits, each to the written bit, and leaves every other bit and every other register as it
was; fields kept across starts become pending for the configuration record. A write to an offset without a register has no
effect. While the bridge is full, a write that crosses it waits. Rests on 19_register_map.md R476, 19_register_map.md R475,
19_register_map.md R479, 00_scope.md R9, 19_register_map.md R480. -/
def Obligations.RegisterWriteSetsWritableFields : Prop :=
  (∀ row ∈ directWrites, ∀ (a : RegAcc) (v t : Nat) (s u : State), u = tick s t →
    (reachable u a = false → exec (row a v t) s = .next u)
    ∧ (reachable u a = true → malformed a = false → a.full = false → (regCanon a.off).1 ≠ rTrlQpSqTailDb →
        (regCanon a.off).1 ≠ rTrlQpCqHeadDb → exec (row a v t) s = .next (regFault u a.off))
    ∧ (reachable u a = true → malformed a = false → a.full = true → bridged a = true → bridgeFree u = false →
        exec (row a v t) s = .next u)
    ∧ (reachable u a = true → malformed a = false → a.full = true → bridged a = false → regFind u a.off = none →
        exec (row a v t) s = .next u))
  ∧ (∀ (a : RegAcc) (v t i c : Nat) (r : RegD) (s u : State), u = tick s t → lands u a = some (c, i, false) →
      regFind u a.off = some (r, i, false) → isSel c = true →
      exec (.registerWrite a v t) s = .next (landed a true v { u with paths := { u.paths with
        sels := tset u.paths.sels (pathReg a.path a.off) (BitVec.ofNat 32 (v &&& accMask r (fun x => x == .rw))) } }))
  ∧ (∀ (a : RegAcc) (v t i c : Nat) (r : RegD) (s u : State), u = tick s t → lands u a = some (c, i, false) →
      regFind u a.off = some (r, i, false) → plainReg c = true →
      exec (.registerWrite a v t) s = .next (landed a true v (storeWord u r a.off v (heldBits u c i))))
  ∧ (∀ (s : State) (r : RegD) (off v drop : Nat), regStored s off < 2 ^ 32 → drop < 2 ^ 32 →
      let m := accMask r (fun x => x == .rw || x == .rws) &&& (0xFFFFFFFF ^^^ drop)
      (∀ k, k < 32 → (regStored (storeWord s r off v drop) off).testBit k
          = if m.testBit k then v.testBit k else (regStored s off).testBit k)
      ∧ (∀ b, b ≠ off → regStored (storeWord s r off v drop) b = regStored s b)
      ∧ (m ≠ 0 → keptMask off ≠ 0 → off ∈ (storeWord s r off v drop).nvm.confPending))

/-- A read of a 32-bit register returns its value and clears its RC fields: after it the stored word has zero in each of them and
its other bits as before. No other register's stored word changes. ADC_QUEUE is not such a register: its read removes a
result. Rests on 19_register_map.md R476, 00_scope.md R6. -/
def Obligations.ReadClearsOnlyReadClearFields : Prop :=
  ∀ (s : State) (p : Path) (i off : Nat) (r : RegD), regFind s off = some (r, i, false) → r.wide = false → r.addr ≠ rAdcQueue →
    (regRead s p off).2 = regValue s p off
    ∧ (∀ k, k < 32 → (regStored (regRead s p off).1 off).testBit k
        = if (accMask r (fun x => x == .rc)).testBit k then false else (regStored s off).testBit k)
    ∧ (∀ b, b ≠ off → regStored (regRead s p off).1 b = regStored s b)

/-- QP_ENABLE and QP_DISABLE are each a write of TRL_QP_BIND, and for every written word both answer: from an issuer that is
neither the fabric manager nor board management, the state as it was. From those, on an idle pair, the pair takes the word's
ENABLE, assist bit, vector and issuer; with ENABLE 1 it becomes ACTIVE and the admission limits are set again, or it enters
ERROR 0x01 where a ring's size is no power of two from 16 to 1,024 entries or the completion ring is smaller than the
submission ring, or else ERROR 0x02 where a ring's base is not 4 KiB aligned. Outside IDLE a word with ENABLE 1 changes
nothing, and one with ENABLE 0 clears ENABLE of an enabled pair and puts it in DISABLING, and in IDLE at once where no reply
is owed and no command of it is in flight. From the same issuers the size is written in IDLE only and the credit maximum in
every state. Rests on 02_trellis_commands.md R41, 02_trellis_commands.md R42, 02_trellis_commands.md R45,
02_trellis_commands.md R51. -/
def Obligations.QueuePairEnableAndDisable : Prop :=
  (∀ (a : RegAcc) (v t n : Nat) (s u w : State), u = tick s t → lands u a = some (rTrlQpBind, n, false) →
    let p := qp u n
    let q := { p with enable := bit v 31, assist := bit v 30, vector := bits v 16 11, issuer := BitVec.ofNat 16 v }
    let boss := issClass a.issuer = 1 ∨ issClass a.issuer = 2
    let rings := ringOk q.sqM1 = true ∧ ringOk q.cqM1 = true ∧ q.sqM1 ≤ q.cqM1
    let bases := q.sqBase.toNat % 4096 = 0 ∧ q.cqBase.toNat % 4096 = 0
    ((¬ boss ∧ w = u)
      ∨ (boss ∧ p.st = .idle ∧ bit v 31 = false ∧ w = setQp u n q)
      ∨ (boss ∧ p.st = .idle ∧ bit v 31 = true ∧ ¬ rings ∧ w = setQp u n { q with st := .error, err := 0x01 })
      ∨ (boss ∧ p.st = .idle ∧ bit v 31 = true ∧ rings ∧ ¬ bases ∧ w = setQp u n { q with st := .error, err := 0x02 })
      ∨ (boss ∧ p.st = .idle ∧ bit v 31 = true ∧ rings ∧ bases ∧ w = setLimits (setQp u n { q with st := .active, err := 0 }))
      ∨ (boss ∧ p.st ≠ .idle ∧ (bit v 31 = true ∨ p.enable = false) ∧ w = u)
      ∨ (boss ∧ p.st ≠ .idle ∧ bit v 31 = false ∧ p.enable = true ∧ p.owed = [] ∧ onCarrier u (.qp n) = []
          ∧ w = setQp u n { p with enable := false, st := .idle })
      ∨ (boss ∧ p.st ≠ .idle ∧ bit v 31 = false ∧ p.enable = true ∧ (p.owed ≠ [] ∨ onCarrier u (.qp n) ≠ [])
          ∧ w = setQp u n { p with enable := false, st := .disabling })) →
    exec (.qpEnable a v t) s = .next (landed a true v w) ∧ exec (.qpDisable a v t) s = .next (landed a true v w))
  ∧ (∀ (a : RegAcc) (v t n : Nat) (s u : State), u = tick s t → (issClass a.issuer = 1 ∨ issClass a.issuer = 2) →
      (lands u a = some (rTrlQpSize, n, false) → exec (.registerWrite a v t) s = .next (landed a true v
        (if (qp u n).st = .idle then setQp u n { qp u n with cqM1 := bits v 16 10, sqM1 := bits v 0 10 } else u)))
      ∧ (lands u a = some (rTrlQpCredit, n, false) → exec (.registerWrite a v t) s = .next (landed a true v
          (setLimits (setQp u n { qp u n with creditMax := v % 1024 })))))

/-- From the bound issuer, SQ_TAIL_DOORBELL on an active pair sets the submission tail to its 10-bit index, or enters ERROR 0x03
when the index is at or above the ring's size, and does nothing on a pair that is not active; CQ_HEAD_DOORBELL sets the
completion head when the index lies in the ring. From any other requester a doorbell is dropped and recorded as the Corrected
fault 0x004, whose detail the manual leaves free. Rests on 02_trellis_commands.md R41, 02_trellis_commands.md R44,
02_trellis_commands.md R45, 19_register_map.md R475. -/
def Obligations.DoorbellsActFromTheBoundIssuer : Prop :=
  (∀ (a : RegAcc) (v t n : Nat) (s u : State), u = tick s t → lands u a = some (rTrlQpSqTailDb, n, false) →
    ((qp u n).issuer.toNat ≠ a.issuer → exec (.sqTailDoorbell a v t) s = .next (landed a true v (raiseOpen u 0x004)))
    ∧ ((qp u n).issuer.toNat = a.issuer →
      ((qp u n).st = .active → v % 1024 ≤ (qp u n).sqM1 →
        exec (.sqTailDoorbell a v t) s = .next (landed a true v (setQp u n { qp u n with sqTail := v % 1024 })))
      ∧ ((qp u n).st = .active → (qp u n).sqM1 < v % 1024 →
        exec (.sqTailDoorbell a v t) s = .next (landed a true v (setQp u n { qp u n with st := .error, err := 0x03 })))
      ∧ ((qp u n).st ≠ .active → exec (.sqTailDoorbell a v t) s = .next (landed a true v u))))
  ∧ (∀ (a : RegAcc) (v t n : Nat) (s u : State), u = tick s t → lands u a = some (rTrlQpCqHeadDb, n, false) →
    ((qp u n).issuer.toNat ≠ a.issuer → exec (.cqHeadDoorbell a v t) s = .next (landed a true v (raiseOpen u 0x004)))
    ∧ ((qp u n).issuer.toNat = a.issuer → v % 1024 ≤ (qp u n).cqM1 →
      exec (.cqHeadDoorbell a v t) s = .next (landed a true v (setQp u n { qp u n with cqHead := v % 1024 })))
    ∧ ((qp u n).issuer.toNat = a.issuer → (qp u n).cqM1 < v % 1024 →
      exec (.cqHeadDoorbell a v t) s = .next (landed a true v u)))

/-- For DDR_LANE_DELAY, DDR_SCRUB_HOST_RATE, FTL_STREAM, FTL_WEAR_HOST, GAU_HOST_SOC and PSQ_HOST_STEP: a write from an issuer
that does not own the function, or while it is not host-assisted, is dropped and recorded. From the owner: a lane's two delays
become pending; the scrub rate is clamped to a pass of 12 h to 48 h with CLAMPED set when it was outside; an allotment's
stream is at most 2; WEAR values are clamped to their ranges; a state of charge up to 10,000 is taken and a larger one sets
REJECTED alone; a step naming permitted slots of the switch's domain is taken and any other sets REJECTED. Each value taken
restarts the function's watchdog. Rests on 02_trellis_commands.md R50, 04_dram_channels.md R122, 04_dram_channels.md R131,
07_flash_backend.md R234, 10_energy_pack.md R316, 11_rail_sequencing.md R336. -/
def Obligations.HostAssistedInputs : Prop :=
  (∀ (a : RegAcc) (v t i : Nat) (s u : State), u = tick s t →
    (lands u a = some (rDdrLaneDelay, i, false) →
      (owns u a.issuer 5 = false → exec (.ddrLaneDelay a v t) s = .next (landed a true v (regFault u a.off)))
      ∧ (owns u a.issuer 5 = true →
          let lane := selOf u a.path i rDdrLaneSel
          exec (.ddrLaneDelay a v t) s = .next (landed a true v (assistInput (setDdr u i { ddr u i with
            lanes := tset (ddr u i).lanes lane { (tgetD (ddr u i).lanes lane {}) with pending := some (bits v 0 7, bits v 8 7) } }) 5))))
    ∧ (lands u a = some (rDdrScrub, i, false) →
      (owns u a.issuer 4 = false → exec (.ddrScrubHostRate a v t) s = .next (landed a true v (regFault u a.off)))
      ∧ (owns u a.issuer 4 = true →
          let rate := clamp (cdiv (chanGranules u i) 172800) (chanGranules u i / 43200) (v % 65536)
          let w := setFld u (regAt rDdrScrub i) 0 16 rate
          exec (.ddrScrubHostRate a v t) s = .next (landed a true v (assistInput
            (if rate = v % 65536 then w else setFld w (regAt rDdrScrub i) 31 1 1) 4))))
    ∧ (lands u a = some (rFtlStream, i, false) →
      (owns u a.issuer 1 = false → exec (.ftlStream a v t) s = .next (landed a true v (regFault u a.off)))
      ∧ (owns u a.issuer 1 = true → exec (.ftlStream a v t) s = .next (landed a true v (assistInput { u with ftl := { u.ftl with
          streams := tset u.ftl.streams (selOf u a.path i rFtlStreamSel) (min 2 (v % 4)) } } 1))))
    ∧ (lands u a = some (rFtlWearHost, i, false) →
      (owns u a.issuer 1 = false → exec (.ftlWearHost a v t) s = .next (landed a true v (regFault u a.off)))
      ∧ (owns u a.issuer 1 = true → ∃ w, exec (.ftlWearHost a v t) s = .next (landed a true v (assistInput w 1))
          ∧ w.ftl = { u.ftl with hostWear := some (clamp 4 64 (bits v 0 8), 10 * clamp 5 100 (bits v 8 8), bits v 16 1) }
          ∧ cfg w rFtlWearHost 0 8 = clamp 4 64 (bits v 0 8) ∧ cfg w rFtlWearHost 8 8 = clamp 5 100 (bits v 8 8)
          ∧ (∀ b, b ≠ rFtlWearHost → regStored w b = regStored u b)))
    ∧ (lands u a = some (rGauHostSoc, i, false) →
      (owns u a.issuer 2 = false → exec (.gauHostSoc a v t) s = .next (landed a true v (regFault u a.off)))
      ∧ (owns u a.issuer 2 = true → v % 16384 ≤ 10000 →
          let w := setFld u rGauHostSoc 0 14 (v % 16384)
          exec (.gauHostSoc a v t) s
            = .next (landed a true v (assistInput { w with gau := { w.gau with hostSoc := some (v % 16384) } } 2)))
      ∧ (owns u a.issuer 2 = true → 10000 < v % 16384 →
          exec (.gauHostSoc a v t) s = .next (landed a true v (setFld u rGauHostSoc 31 1 1))))
    ∧ (lands u a = some (rPsqHostStep, i, false) →
      let slots := bitsOf (v % 2 ^ 24) 24
      (owns u a.issuer 3 = false → exec (.psqHostStep a v t) s = .next (landed a true v (regFault u a.off)))
      ∧ (owns u a.issuer 3 = true → stepOk u a.issuer (bit v 30) slots = false →
          exec (.psqHostStep a v t) s = .next (landed a true v (setFld u rPsqHostStep 31 1 1)))
      ∧ (owns u a.issuer 3 = true → stepOk u a.issuer (bit v 30) slots = true →
          let w := setFld (assistInput u 3) rPsqHostStep 31 1 0
          exec (.psqHostStep a v t) s = .next (landed a true v { w with psq := { w.psq with
            stepped := slots.foldl sins w.psq.stepped, sw := w.psq.sw.map (fun x => { x with hostWait := false }) } }))))

/-- A cold-frame word named over a carrier other than MCTP is reached over the bridge: the command waits while the bridge has no
room for its accesses, and with room its reply comes when they have crossed; without such words it comes at once. REG_READ
refuses a count outside 1 to 4 and an offset in no block with BAD_PARAM, and a word the issuer may not read with NOT_PERMITTED
0x06; else it reads its words in order on the carrier's path and returns them in 16 result bytes. REG_READ_MULTI refuses a
count outside 1 to 256, a payload of another length, a bad offset or a list across both dies, and a forbidden word; else its
output holds every word's value at one instant. REG_WRITE refuses a bad offset, a zero mask and an input of a function the
issuer does not own; else it writes the register with only the bits of MASK changed and returns it as read after the write.
Rests on 02_trellis_commands.md R63, 02_trellis_commands.md R64, 02_trellis_commands.md R65, 02_trellis_commands.md R50,
00_scope.md R11, 19_register_map.md R480, log entry 125. -/
def Obligations.RegisterCommandsOfTrellis : Prop :=
  (∀ (c : TrellisCmd) (s v : State) (f : InFlight), started 0x0010 c s = some (v, f) →
    let off := pNum f.cmd 24 4
    let n := pByte f.cmd 28
    let words := (List.range n).map (fun k => off + 4 * k)
    ((n < 1 ∨ 4 < n) → exec (.regRead c) s = .next (badParam v f.id (if offsetOk off then 28 else 24)))
    ∧ (1 ≤ n → n ≤ 4 → words.all offsetOk = false → exec (.regRead c) s = .next (badParam v f.id 24))
    ∧ (1 ≤ n → n ≤ 4 → words.all offsetOk = true → words.any (readDenied v f.cmd.est) = true →
        exec (.regRead c) s = .next (endWith v f.id 0x05 0x06))
    ∧ (1 ≤ n → n ≤ 4 → words.all offsetOk = true → words.any (readDenied v f.cmd.est) = false →
        (bridgeRoom v (coldWords f words) = false → exec (.regRead c) s = .next (setJob v f.id .bridge))
        ∧ (bridgeRoom v (coldWords f words) = true →
          let x := words.foldl (fun (x : State × List (Nat × Nat)) w =>
            ((regRead x.1 (carrierPath f.cmd.carrier) w).1, x.2 ++ [(w, (regRead x.1 (carrierPath f.cmd.carrier) w).2)])) (v, [])
          exec (.regRead c) s = .next (accessEnds x.1 f false (x.2.filter (fun w => (coldWords f words).contains w.1))
            { result := padTo (x.2.flatMap (fun w => le w.2 4)) 16 }))))
  ∧ (∀ (w : State) (f : InFlight) (write : Bool) (x : Reply), accessEnds w f write [] x = finish w f.id x)
  ∧ (∀ (c : TrellisCmd) (s v : State) (f : InFlight), started 0x0012 c s = some (v, f) →
    let n := pNum f.cmd 28 2
    let words := (List.range n).map (fun k => rd (payIn f.cmd) (4 * k) 4)
    let p := carrierPath f.cmd.carrier
    ((n < 1 ∨ 256 < n) → exec (.regReadMulti c) s = .next (badParam v f.id 28))
    ∧ (1 ≤ n → n ≤ 256 → (f.cmd.payLen ≠ 4 * n ∨ words.all offsetOk = false ∨ (words.any onLogic = true ∧ words.all onLogic = false)) →
        exec (.regReadMulti c) s = .next (badParam v f.id 0x40))
    ∧ (1 ≤ n → n ≤ 256 → f.cmd.payLen = 4 * n → words.all offsetOk = true → (words.any onLogic = true → words.all onLogic = true) →
        (words.any (readDenied v f.cmd.est) = true → exec (.regReadMulti c) s = .next (endWith v f.id 0x05 0x06))
        ∧ (words.any (readDenied v f.cmd.est) = false →
            let cold := (coldWords f words).take 1
            let out := words.flatMap (fun w => le (if w = rAdcQueue then (adcPop v).2 else regValue v p w) 4)
            (bridgeRoom v cold = false → exec (.regReadMulti c) s = .next (setJob v f.id .bridge))
            ∧ (bridgeRoom v cold = true → exec (.regReadMulti c) s = .next (accessEnds (words.foldl (fun s w => (regRead s p w).1) v)
                f false (cold.map (fun w => (w, leNat out))) { output := out })))))
  ∧ (∀ (c : TrellisCmd) (s v : State) (f : InFlight), started 0x0011 c s = some (v, f) →
    let off := pNum f.cmd 24 4
    let value := pNum f.cmd 28 4
    let mask := pNum f.cmd 32 4
    let p := carrierPath f.cmd.carrier
    (offsetOk off = false → exec (.regWrite c) s = .next (badParam v f.id 24))
    ∧ (offsetOk off = true → mask = 0 → exec (.regWrite c) s = .next (badParam v f.id 32))
    ∧ (offsetOk off = true → mask ≠ 0 →
        (∀ k, regFunction off = some k → owns v f.cmd.est k = false → exec (.regWrite c) s = .next (endWith v f.id 0x05 0x05))
        ∧ ((∀ k, regFunction off = some k → owns v f.cmd.est k = true) →
            let cold := coldWords f [off]
            let acc : RegAcc := { path := p, full := true, issuer := f.cmd.est, off := off }
            let free := (twi v (regCanon off).2).sda && (twi v (regCanon off).2).scl
            let ends := fun w : State => accessEnds w f true (cold.map (fun x => (x, value))) { result := le (regValue w p off) 4 }
            (bridgeRoom v cold = false → exec (.regWrite c) s = .next (setJob v f.id .bridge))
            ∧ (bridgeRoom v cold = true →
              (regFind v off = none → exec (.regWrite c) s = .next (ends v))
              ∧ (∀ r i, regFind v off = some (r, i, false) → r.wide = false →
                  let kept := regValue v p off &&& accMask r (fun x => x == .rw || x == .rws)
                  exec (.regWrite c) s = .next (ends (regWrite v acc ((kept &&& (0xFFFFFFFF ^^^ mask)) ||| (value &&& mask)) free)))
              ∧ (∀ r i high, regFind v off = some (r, i, high) → r.wide = true →
                  let kept := if high then regValue v p off else heldLow v p off
                  exec (.regWrite c) s = .next (ends (regWrite v acc ((kept &&& (0xFFFFFFFF ^^^ mask)) ||| (value &&& mask)) free)))))))

/-- ECHO returns parameter bytes 24 to 39 in result bytes 16 to 31. IDENTIFY returns the fused part number, stepping 0xB1, Trellis
version 0x01, the image version of the active slot, the device state and the enterprise number 0x0003_4A71. LATE_STATUS_FETCH
refuses an action above 1 and a payload that is no positive multiple of 32 bytes; with no group visible to the issuer it
returns zeros and OVERFLOW; a read returns the visible entries of the oldest group from START, at most MAX and as many as the
payload holds; a release marks those below START with one unit of the group's sector while it has one left (R355; else in SRAM
only), and frees the group once all its entries are released; its flags are those from before it (the model's choice, log
entry 108). Rests on 02_trellis_commands.md R61, 02_trellis_commands.md R62, 12_cold_frame_flash.md R355, Table 2.8, log entry
108. -/
def Obligations.IdentityAndLateStatus : Prop :=
  (∀ (c : TrellisCmd) (s v : State) (f : InFlight), started 0x0001 c s = some (v, f) →
    exec (.echo c) s = .next (endOk v f.id ((f.cmd.params.take 16) ++ zeros (16 - (f.cmd.params.take 16).length))))
  ∧ (∀ (c : TrellisCmd) (s v : State) (f : InFlight), started 0x0002 c s = some (v, f) →
    exec (.identify c) s = .next (endOk v f.id
      (le v.fus.part 2 ++ [0xB1#8, 0x01#8] ++ le (fwVersion v) 4 ++ [BitVec.ofNat 8 v.dev.state.code, 0#8, 0#8, 0#8]
        ++ [0x71#8, 0x4A#8, 0x03#8, 0x00#8])))
  ∧ (∀ (c : TrellisCmd) (s v : State) (f : InFlight), started 0x0C00 c s = some (v, f) →
    let act := pByte f.cmd 24
    let start := pNum f.cmd 28 4
    let seen := v.trl.late.filter (fun g => !(lateView f.cmd.est g).isEmpty)
    let lost := if v.trl.lateOverflow then 1 else 0
    (1 < act → exec (.lateStatusFetch c) s = .next (badParam v f.id 24))
    ∧ (act ≤ 1 → (f.cmd.payLen % 32 ≠ 0 ∨ f.cmd.payLen < 32) → exec (.lateStatusFetch c) s = .next (badParam v f.id 0x40))
    ∧ (act ≤ 1 → f.cmd.payLen % 32 = 0 → 32 ≤ f.cmd.payLen →
        (seen = [] → exec (.lateStatusFetch c) s = .next (endOk v f.id (zeros 12 ++ [BitVec.ofNat 8 lost])))
        ∧ (∀ g more, seen = g :: more →
            let view := lateView f.cmd.est g
            let flags := lost + (if g.entries.length < g.count then 2 else 0) + (if more.isEmpty then 0 else 4)
            (act = 0 →
              let sel := (view.drop start).take (min (pNum f.cmd 32 4) (f.cmd.payLen / 32))
              exec (.lateStatusFetch c) s = .next (endOut v f.id
                (le sel.length 4 ++ le (view.length - start - sel.length) 4 ++ le g.powerCycle.toNat 4 ++ le flags 1)
                (padTo (sel.flatMap (fun e => replyBytes e.reply)) f.cmd.payLen)))
            ∧ (act = 1 →
              let w := { v with trl := { v.trl with late := v.trl.late.map (fun h =>
                if h.slot == g.slot then { h with
                  entries := releaseFirst f.cmd.est start (decide (3072 ≤ g.units)) h.entries, units := min 3072 (g.units + 1) }
                else h) } }
              exec (.lateStatusFetch c) s = .next (endOk (freeLate (releaseUnit w g) g.slot) f.id
                (zeros 4 ++ le (view.length - start) 4 ++ le g.powerCycle.toNat 4 ++ le flags 1))))))

/-- With well-formed parameters and binding entries, on an ID not in use and with extents and windows to be had, ALLOT_CREATE
makes a LOCAL allotment at once on an unpaired unit and answers OK with the free extents; on a paired unit it starts the
reservation exchange with the twin, and for a MIRRORED allotment the exchange that commits on both. The extents are the lowest
free ones that fit (a choice of the model, log entry 52), distinct, held by no allotment and promised to no exchange under
way. Refusals: KIND, HOME, EXTENTS, MAX_EXTENTS and the payload as BAD_PARAM at their bytes; an ID in use CONFLICT 0x10, a
reservation 0x15, a DELETING entry 0x11; no session or not in step 0x13; too few extents or windows NO_SPACE. Rests on
03_host_ports_allotments.md R101, 03_host_ports_allotments.md R102, 03_host_ports_allotments.md R76,
03_host_ports_allotments.md R81, log entries 51 and 52. -/
def Obligations.AllotCreateMakesOrRefuses : Prop :=
  (∀ (c : TrellisCmd) (s v : State) (f : InFlight), started 0x0100 c s = some (v, f) →
    let id := f.cmd.allot
    let kind := pByte f.cmd 24
    let home := pByte f.cmd 25
    let n := pNum f.cmd 28 4
    let m := pNum f.cmd 32 4
    let limit := if isBig v then 65536 else 32768
    (1 < kind → exec (.allotCreate c) s = .next (badParam v f.id 24))
    ∧ (kind ≤ 1 → (1 < home ∨ (home = 1 ∧ kind = 0)) → exec (.allotCreate c) s = .next (badParam v f.id 25))
    ∧ (kind ≤ 1 → home ≤ kind →
        ((n = 0 ∨ m < n) → exec (.allotCreate c) s = .next (badParam v f.id 28))
        ∧ (0 < n → n ≤ m → limit < m → exec (.allotCreate c) s = .next (badParam v f.id 32))
        ∧ (0 < n → n ≤ m → m ≤ limit →
            (bindEntries (payIn f.cmd) = none → exec (.allotCreate c) s = .next (badParam v f.id 0x40))
            ∧ (∀ es, bindEntries (payIn f.cmd) = some es → txPending v id = false →
                (∀ a, allotOf v id = some a → exec (.allotCreate c) s
                  = .next (conflict v f.id (if a.reservation then 0x15 else if a.st = .deleting then 0x11 else 0x10)))
                ∧ (allotOf v id = none →
                    ((kind = 1 ∧ inStep v = false) ∨ (kind = 0 ∧ v.exl.paired = true ∧ v.exl.session = false) →
                      exec (.allotCreate c) s = .next (conflict v f.id 0x13))
                    ∧ ((kind = 1 → inStep v = true) → (kind = 0 → v.exl.paired = true → v.exl.session = true) →
                        keyGen v id ≠ 0xFFFFFFFF →
                        ((pickExtents v (kind == 1) n = none ∨ addBindings v m [] es = none) →
                          exec (.allotCreate c) s = .next (endWith v f.id 0x0C 0))
                        ∧ (∀ xs bs, pickExtents v (kind == 1) n = some xs → addBindings v m [] es = some bs →
                            let a : Allot := { mirrored := kind == 1, homeTwin := home == 1, serving := home == 0, maxExtents := m,
                                               extents := xs, bindings := bs }
                            (kind = 1 → exec (.allotCreate c) s = .next (startTx v .entry id a (some f.id) false 0))
                            ∧ (kind = 0 → v.exl.paired = true →
                                exec (.allotCreate c) s = .next (startTx v .reserve id a (some f.id) false 0))
                            ∧ (kind = 0 → v.exl.paired = false →
                                exec (.allotCreate c) s = .next (endAllot (applyEntry v id a false) f.id 0 0))))))))
    ∧ (kind ≤ 1 → home ≤ kind → 0 < n → n ≤ m → m ≤ limit → bindEntries (payIn f.cmd) ≠ none → txPending v id = true →
        exec (.allotCreate c) s = .next (conflict v f.id 0x11)))
  ∧ (∀ (s : State) (mirrored : Bool) (n : Nat) (xs : List Nat), pickExtents s mirrored n = some xs →
      xs.length = n ∧ xs.Nodup ∧ (∀ x ∈ xs, x < s.alt.total)
      ∧ (∀ x ∈ xs, ∀ p ∈ promised s, ∀ y ∈ p.2.extents, y ≠ x ∧ (y / 4 = x / 4 → p.2.mirrored = mirrored))
      ∧ (∀ y, extentFits s mirrored y = true → y ∉ xs → ∀ x ∈ xs, x < y))

/-- On an allotment that is not a reservation, busy, DELETING or STALE, and in step where it is MIRRORED: ALLOT_RESIZE to at least
its size commits the entry with the lowest fitting extents added (NO_SPACE where too few), to a smaller size commits at once
when no host holds a removed extent and else offers their release and waits at most WAIT_MS. ALLOT_DELETE without FORCE
refuses a bound allotment with CONFLICT 0x12; else a MIRRORED one is deleted with the twin and a LOCAL one enters DELETING.
Unknown IDs, sizes, waits and payloads out of range are BAD_PARAM; a reservation is CONFLICT 0x15, a busy one 0x11, DATA_LOST
0x14, out of step 0x13, and STALE ends a resize with STALE. Rests on 03_host_ports_allotments.md R101,
03_host_ports_allotments.md R103, 03_host_ports_allotments.md R104, log entry 52. -/
def Obligations.AllotResizeAndDelete : Prop :=
  (∀ (c : TrellisCmd) (s v : State) (f : InFlight), started 0x0101 c s = some (v, f) →
    let id := f.cmd.allot
    let n := pNum f.cmd 28 4
    let ms := pNum f.cmd 32 4
    (allotOf v id = none → exec (.allotResize c) s = .next (badParam v f.id 8))
    ∧ (∀ a, allotOf v id = some a →
      (∀ st d, allotBusy v a id true = some (st, d) → exec (.allotResize c) s = .next (endWith v f.id st d))
      ∧ (allotBusy v a id true = none →
        ((n = 0 ∨ a.maxExtents < n) → exec (.allotResize c) s = .next (badParam v f.id 28))
        ∧ (0 < n → n ≤ a.maxExtents → (60000 < ms ∨ (n < a.extents.length ∧ ms = 0)) →
            exec (.allotResize c) s = .next (badParam v f.id 32))
        ∧ (0 < n → n ≤ a.maxExtents → ms ≤ 60000 → (n < a.extents.length → 0 < ms) →
            (f.cmd.payLen ≠ 0 → f.cmd.payLen ≠ 16 → exec (.allotResize c) s = .next (badParam v f.id 0x40))
            ∧ ((f.cmd.payLen = 0 ∨ f.cmd.payLen = 16) →
              (a.st = .dataLost → exec (.allotResize c) s = .next (conflict v f.id 0x14))
              ∧ (a.st ≠ .dataLost → a.mirrored = true → inStep v = false → exec (.allotResize c) s = .next (conflict v f.id 0x13))
              ∧ (a.st ≠ .dataLost → (a.mirrored = true → inStep v = true) →
                (a.extents.length ≤ n →
                  (pickExtents v a.mirrored (n - a.extents.length) = none → exec (.allotResize c) s = .next (endWith v f.id 0x0C 0))
                  ∧ (∀ xs, pickExtents v a.mirrored (n - a.extents.length) = some xs →
                      exec (.allotResize c) s = .next (commitEntry v id { a with
                        extents := a.extents ++ xs,
                        tags := if a.extents.length < n then
                          (a.extents.length, if f.cmd.payLen = 16 then payIn f.cmd else padTo (le id 2) 16) :: a.tags else a.tags }
                        .entry f.id false 0)))
                ∧ (n < a.extents.length →
                  (releasedFrom a n = true → exec (.allotResize c) s = .next (commitEntry v id { a with
                      extents := a.extents.take n, tags := a.tags.filter (fun p => p.1 < n) } .entry f.id false 0))
                  ∧ (releasedFrom a n = false →
                    let w := a.bindings.foldl (fun w b => postDc w 1 id a b (b.accepted.filter (fun k => n ≤ k))) v
                    exec (.allotResize c) s = .next (modAllot (setJob w f.id (.shrink id n (w.now + 1000 * ms))) id
                      (fun a => { a with busy := some f.id }))))))))))
  ∧ (∀ (c : TrellisCmd) (s v : State) (f : InFlight), started 0x0102 c s = some (v, f) →
    let id := f.cmd.allot
    let force := pByte f.cmd 24
    (allotOf v id = none → exec (.allotDelete c) s = .next (badParam v f.id 8))
    ∧ (∀ a, allotOf v id = some a →
      (1 < force → exec (.allotDelete c) s = .next (badParam v f.id 24))
      ∧ (∀ st d, force ≤ 1 → allotBusy v a id false = some (st, d) → exec (.allotDelete c) s = .next (endWith v f.id st d))
      ∧ (force ≤ 1 → allotBusy v a id false = none →
        (force = 0 → a.bindings ≠ [] → exec (.allotDelete c) s = .next (conflict v f.id 0x12))
        ∧ ((force = 1 ∨ a.bindings = []) →
          (a.mirrored = true → inStep v = false → exec (.allotDelete c) s = .next (conflict v f.id 0x13))
          ∧ (a.mirrored = true → inStep v = true → exec (.allotDelete c) s = .next (startTx v .delete id a (some f.id) true 0))
          ∧ (a.mirrored = false → exec (.allotDelete c) s = .next (modAllot (setJob (enterDeleting v id) f.id .table) id
              (fun a => { a with busy := some f.id })))))))
  ∧ (∀ (s : State) (a : Allot) (id : Nat),
      (a.reservation = true → allotBusy s a id false = some (0x0E, 0x15) ∧ allotBusy s a id true = some (0x0E, 0x15))
      ∧ (a.reservation = false → (a.st = .deleting ∨ a.busy ≠ none ∨ txPending s id = true) →
          allotBusy s a id false = some (0x0E, 0x11) ∧ allotBusy s a id true = some (0x0E, 0x11))
      ∧ (a.reservation = false → a.st ≠ .deleting → a.busy = none → txPending s id = false →
          allotBusy s a id false = none ∧ allotBusy s a id true = if a.st = .stale then some (0x09, 0) else none))

/-- On an allotment that is free to change: action 0 commits the bindings with the entries added (NO_SPACE where a window or a
place is wanting), action 1 commits the removal when the hosts hold nothing and else asks for releases and waits, action 2
removes them at once by force, action 3 clears DATA_LOST and its list of lost granules. ALLOT_QUERY returns the entry's result
bytes and, from INDEX on, at most COUNT bindings, a host its own alone. When the wait of a shrink or of a removal passes its
deadline the command ends with TIMEOUT: a shrink leaves the size and offers back what was released, a removal leaves the
bindings not released; before the deadline nothing happens. Rests on 03_host_ports_allotments.md R105,
03_host_ports_allotments.md R106, 03_host_ports_allotments.md R103, 03_host_ports_allotments.md R80, log entry 53. -/
def Obligations.AllotBindQueryAndReleaseWait : Prop :=
  (∀ (c : TrellisCmd) (s v : State) (f : InFlight), started 0x0103 c s = some (v, f) →
    let id := f.cmd.allot
    let act := pByte f.cmd 24
    let ms := pNum f.cmd 28 4
    (allotOf v id = none → exec (.allotBind c) s = .next (badParam v f.id 8))
    ∧ (∀ a, allotOf v id = some a →
      (3 < act → exec (.allotBind c) s = .next (badParam v f.id 24))
      ∧ (act = 1 → (ms = 0 ∨ 60000 < ms) → exec (.allotBind c) s = .next (badParam v f.id 28))
      ∧ (act = 3 → f.cmd.payLen ≠ 0 → exec (.allotBind c) s = .next (badParam v f.id 0x40))
      ∧ (act ≤ 3 → (act = 1 → 0 < ms ∧ ms ≤ 60000) → (act = 3 → f.cmd.payLen = 0) →
        (bindEntries (payIn f.cmd) = none → exec (.allotBind c) s = .next (badParam v f.id 0x40))
        ∧ (∀ es st d, bindEntries (payIn f.cmd) = some es → allotBusy v a id true = some (st, d) →
            exec (.allotBind c) s = .next (endWith v f.id st d))
        ∧ (∀ es, bindEntries (payIn f.cmd) = some es → allotBusy v a id true = none →
          let ids := es.map (·.1)
          (act = 0 →
            (addBindings v a.maxExtents a.bindings es = none → exec (.allotBind c) s = .next (endWith v f.id 0x0C 0))
            ∧ (∀ bs, addBindings v a.maxExtents a.bindings es = some bs →
                exec (.allotBind c) s = .next (commitEntry v id { a with bindings := bs } .bind f.id false 0)))
          ∧ (act = 1 →
            let held := a.bindings.filter (fun b => ids.contains b.issuer.toNat && !b.accepted.isEmpty)
            (held = [] → exec (.allotBind c) s = .next (commitEntry v id (unbindEntry a ids) .bind f.id false 0))
            ∧ (held ≠ [] →
              let w := held.foldl (fun w b => postDc w 1 id a b b.accepted) v
              exec (.allotBind c) s = .next (modAllot (setJob w f.id (.unbind id ids (w.now + 1000 * ms))) id
                (fun a => { a with busy := some f.id }))))
          ∧ (act = 2 → exec (.allotBind c) s = .next
              (commitEntry v id { a with bindings := a.bindings.filter (fun b => !ids.contains b.issuer.toNat) } .bind f.id true 0))
          ∧ (act = 3 → a.st ≠ .dataLost → exec (.allotBind c) s = .next (endAllot v f.id 0 0))
          ∧ (act = 3 → a.st = .dataLost → exec (.allotBind c) s = .next (endAllot (setAllot v id { a with
              lost := [], st := if v.hrv.replant && unrestored v a then .replanting else .ready }) f.id 0 0))))))
  ∧ (∀ (c : TrellisCmd) (s v : State) (f : InFlight), started 0x0104 c s = some (v, f) →
    let id := f.cmd.allot
    (allotOf v id = none → exec (.allotQuery c) s = .next (badParam v f.id 8))
    ∧ (∀ a, allotOf v id = some a →
      (f.cmd.payLen % 16 ≠ 0 → exec (.allotQuery c) s = .next (badParam v f.id 0x40))
      ∧ (f.cmd.payLen % 16 = 0 → a.st ≠ .deleting → (a.busy ≠ none ∨ txPending v id = true) →
          exec (.allotQuery c) s = .next (conflict v f.id 0x11))
      ∧ (f.cmd.payLen % 16 = 0 → (a.st = .deleting ∨ (a.busy = none ∧ txPending v id = false)) → a.reservation = false →
          let mine := a.bindings.filter (fun b => issClass f.cmd.est != 0 || b.issuer.toNat == f.cmd.est)
          let shown := ((mine.drop (pNum f.cmd 24 4)).take (pNum f.cmd 28 4)).take (f.cmd.payLen / 16)
          exec (.allotQuery c) s = .next (endOut v f.id (infoBytes a.st.code a (v.hrv.replant && unrestored v a))
            (padTo (shown.flatMap (fun b => le b.issuer.toNat 2 ++ le (b2n b.rw) 1 ++ le (b2n (!b.accepted.isEmpty)) 1 ++ zeros 4
              ++ le b.dpa 8)) f.cmd.payLen)))))
  ∧ (∀ (id t al dl : Nat) (s u : State), u = tick s t →
      (∀ n, jobOf u id = .shrink al n dl →
        (u.now < dl → exec (.releaseWaitExpiry id t) s = .next u)
        ∧ (dl ≤ u.now → allotOf u al = none → exec (.releaseWaitExpiry id t) s = .next (endAllot u id 0x0D 0))
        ∧ (∀ a, dl ≤ u.now → allotOf u al = some a →
            let w := if offering u a then a.bindings.foldl (fun w b => postDc w 0 al a b b.released) u else u
            exec (.releaseWaitExpiry id t) s = .next (endAllot (setAllot w al { a with
              bindings := a.bindings.map (fun b => { b with released := [] }) }) id 0x0D 0)))
      ∧ (∀ is, jobOf u id = .unbind al is dl →
        (u.now < dl → exec (.releaseWaitExpiry id t) s = .next u)
        ∧ (dl ≤ u.now → allotOf u al = none → exec (.releaseWaitExpiry id t) s = .next (endAllot u id 0x0D 0))
        ∧ (∀ a, dl ≤ u.now → allotOf u al = some a →
            let b := { unbindEntry a is with bindings := (unbindEntry a is).bindings.map (fun x => { x with released := [] }) }
            (b.bindings.length = a.bindings.length →
              exec (.releaseWaitExpiry id t) s = .next (endAllot (setAllot u al b) id 0x0D 0))
            ∧ (b.bindings.length ≠ a.bindings.length →
              exec (.releaseWaitExpiry id t) s = .next (commitEntry u al b .bind id false 0x0D)))))

/-- EXPOSURE_QUERY returns exposure, limit, stage, admission, flags, cause and the named allotment's dirty granules (all ones
where none is named). DRIP_POLICY_SET action 0 takes a signed policy image that keeps its ranges for the next dispatch round
and saves it with parameter pair 4, refuses a host, a bad container (AUTH_FAIL) and a policy out of range; action 1 takes the
owner's hints, at most 4,096, over the ranges they name. FLUSH_RANGE waits for the dirty granules of its range, with the
twin's when asked and in step; its timeout ends it with TIMEOUT and its counts, not before its deadline. Rests on
05_exposure_and_drip.md R154, 05_exposure_and_drip.md R158, 05_exposure_and_drip.md R159, 05_exposure_and_drip.md R160,
02_trellis_commands.md R50, log entries 46 and 10. -/
def Obligations.DripCommands : Prop :=
  (∀ (c : TrellisCmd) (s v : State) (f : InFlight), started 0x0200 c s = some (v, f) →
    let id := f.cmd.allot
    (∀ st d, id ≠ 0xFFFF → allotBad v id = some (st, d) → exec (.exposureQuery c) s = .next (endWith v f.id st d))
    ∧ ((id = 0xFFFF ∨ allotBad v id = none) →
        exec (.exposureQuery c) s = .next (endOk v f.id (le (exposure v) 4 ++ le v.drp.limit 4 ++ le v.drp.stage 1 ++ le (admission v) 1
          ++ le (b2n v.drp.excess + fld (b2n v.drp.floorOn) 1 1 + fld (b2n v.drp.ahead) 2 1 + fld (b2n v.drp.twinBound) 3 1
            + fld (b2n v.drp.overdrawn) 4 1) 1
          ++ le v.drp.limitCause 1
          ++ le (if id = 0xFFFF then 0xFFFFFFFF else (v.drp.gran.filter (fun p => granAllot v p.1 == some id)).length) 4))))
  ∧ (∀ (c : TrellisCmd) (s v : State) (f : InFlight), started 0x0201 c s = some (v, f) →
    let b := payIn f.cmd
    let act := pByte f.cmd 24
    (1 < act → exec (.dripPolicySet c) s = .next (badParam v f.id 24))
    ∧ (act = 0 → issClass f.cmd.est = 0 → exec (.dripPolicySet c) s = .next (endWith v f.id 0x05 0x02))
    ∧ (act = 0 → issClass f.cmd.est ≠ 0 → containerOk v 0x14 b = false → exec (.dripPolicySet c) s = .next (endWith v f.id 0x0B 0))
    ∧ (∀ pr u x y l, act = 0 → issClass f.cmd.est ≠ 0 → containerOk v 0x14 b = true →
        Config.policyImage (container b).body = (pr, u, x, y, l) →
        (policyOk (pr, u, x, y, l) = false → exec (.dripPolicySet c) s = .next (badParam v f.id 0x40))
        ∧ (policyOk (pr, u, x, y, l) = true → exec (.dripPolicySet c) s = .next (endOk (pairWrite { v with drp := { v.drp with
            nextPolicy := some { priority := pr, urgent := u, thr1 := x, thr2 := y, curve := l, version := (container b).version } } } 4)
            f.id (le (container b).version 4))))
    ∧ (act = 1 → owns v f.cmd.est 0 = false → exec (.dripPolicySet c) s = .next (endWith v f.id 0x05 0x05))
    ∧ (∀ st d, act = 1 → owns v f.cmd.est 0 = true → allotBad v f.cmd.allot = some (st, d) →
        exec (.dripPolicySet c) s = .next (endWith v f.id st d))
    ∧ (∀ a, act = 1 → owns v f.cmd.est 0 = true → allotBad v f.cmd.allot = none → tget v.alt.tab f.cmd.allot = some a →
        ((b.length % 16 ≠ 0 ∨ (entries16 b).all (hintOk (16384 * a.extents.length)) = false) →
          exec (.dripPolicySet c) s = .next (badParam v f.id 0x40))
        ∧ (b.length % 16 = 0 → (entries16 b).all (hintOk (16384 * a.extents.length)) = true →
          let l := (entries16 b).foldl (hintEntry v.now f.cmd.allot) v.drp.hints
          (4096 < l.length → exec (.dripPolicySet c) s = .next (endWith v f.id 0x0C 0))
          ∧ (l.length ≤ 4096 → exec (.dripPolicySet c) s
              = .next (endOk (assistInput { v with drp := { v.drp with hints := l } } 0) f.id (le l.length 4))))))
  ∧ (∀ (c : TrellisCmd) (s v : State) (f : InFlight), started 0x0202 c s = some (v, f) →
    let off := pNum f.cmd 24 8
    let len := pNum f.cmd 32 8
    let ms := pNum f.cmd 44 4
    (∀ st d, allotBad v f.cmd.allot = some (st, d) → exec (.flushRange c) s = .next (endWith v f.id st d))
    ∧ (∀ a, allotBad v f.cmd.allot = none → allotOf v f.cmd.allot = some a →
      let size := 2 ^ 28 * a.extents.length
      (size ≤ off → exec (.flushRange c) s = .next (badParam v f.id 24))
      ∧ (off < size → (len = 0 ∨ size < off + len) → exec (.flushRange c) s = .next (badParam v f.id 32))
      ∧ (off < size → 0 < len → off + len ≤ size →
        (1 < pByte f.cmd 40 → exec (.flushRange c) s = .next (badParam v f.id 40))
        ∧ (pByte f.cmd 40 ≤ 1 → 600000 < ms → exec (.flushRange c) s = .next (badParam v f.id 44))
        ∧ (pByte f.cmd 40 ≤ 1 → ms ≤ 600000 →
          let gs := rangeGrans a off len
          let runs := granRuns (gs.foldl sins [])
          let due := v.now + 1000 * (if ms = 0 then 60000 else ms)
          ((pByte f.cmd 40 = 0 ∨ a.mirrored = false) → exec (.flushRange c) s
            = .next (feed (judgeFlushes (flushWork (setJob v f.id (.flush { newFlush v gs with deadline := due, owed := runs.length }))))))
          ∧ (pByte f.cmd 40 = 1 → a.mirrored = true → inStep v = false → exec (.flushRange c) s = .next (feed (judgeFlushes
              (flushWork (setJob v f.id (.flush { newFlush v gs with deadline := due, alone := true, owed := runs.length }))))))
          ∧ (pByte f.cmd 40 = 1 → a.mirrored = true → inStep v = true →
              let w := runs.foldl (fun w r => sendLow w 0x13 [f.id, r.1, r.2]) v
              exec (.flushRange c) s = .next (feed (judgeFlushes (flushWork (setJob w f.id (.flush { newFlush w gs with
                deadline := w.now + 1000 * (if ms = 0 then 60000 else ms), twin := true, owed := runs.length }))))))))))
  ∧ (∀ (id t : Nat) (s u : State) (f : InFlight) (j : FlushJob), u = tick s t → inflight u id = some f → f.job = .flush j →
      (u.now < j.deadline → exec (.flushRangeTimeout id t) s = .next u)
      ∧ (j.deadline ≤ u.now → exec (.flushRangeTimeout id t) s = .next (finish u f.id {
          tag := f.cmd.tag, op := f.cmd.op, status := 0x0D, cls := 0,
          result := le j.done 4 ++ le j.clean 4 ++ le j.pois 4 ++ le ((u.now - f.since) / 1000) 4 })))

/-- GAUGE_UPDATE_FRAME, with a gauge frame due and the die-to-die link up, takes the learned energies, and while hosts are served
sets the limit: never above the limit formula, never above the limit before plus a fiftieth of EXP_MAX once a limit was set,
down to the formula at once where it is lower, and never above what the harvest region can hold. Nothing but the limit, its
cause and the energy figures changes in setting it. Without a frame due, or with the link down, it has no effect. Rests on
05_exposure_and_drip.md R140, 05_exposure_and_drip.md R141, 05_exposure_and_drip.md R142, 05_exposure_and_drip.md R143. -/
def Obligations.LimitRisesSlowlyAndFallsAtOnce : Prop :=
  (∀ (t : Nat) (s u : State), u = tick s t →
    ((u.d2d.gaugeDue = false ∨ u.d2d.up = false) → exec (.gaugeUpdateFrame t) s = .next u)
    ∧ (u.d2d.gaugeDue = true → u.d2d.up = true →
        let w := { u with
          d2d := { u.d2d with gaugeDue := false },
          drp := { u.drp with eFixed := u.gau.learned.eFixed, eByte := u.gau.learned.eByte, eLearned := u.gau.learned.eLearned } }
        (serving u = false → exec (.gaugeUpdateFrame t) s = .next w)
        ∧ (serving u = true → exec (.gaugeUpdateFrame t) s = .next (evalStage (judgeExcess (judgeFloor (setLimit w)))))))
  ∧ (∀ s : State,
      (setLimit s).drp.limit ≤ (limitFormula s).1
      ∧ (setLimit s).drp.limit ≤ s.drp.harvestCap
      ∧ (s.drp.limitSet = true → (setLimit s).drp.limit ≤ s.drp.limit + expMax s * 65536 / 50)
      ∧ (s.drp.limitSet = true → (limitFormula s).1 ≤ s.drp.limit → (setLimit s).drp.limit = (limitFormula s).1)
      ∧ (s.drp.limitSet = false → (setLimit s).drp.limit = (limitFormula s).1)
      ∧ (s.drp.harvestCap < min (max (65536 * rawNum s / rawDen s) (65536 * expMin s)) (65536 * expMax s) →
          (setLimit s).drp.limitCause = 3 ∧ (limitFormula s).1 = s.drp.harvestCap)
      ∧ setLimit s = { s with drp := { s.drp with
          limit := (setLimit s).drp.limit, limitSet := true, limitCause := (setLimit s).drp.limitCause,
          eAvail := (setLimit s).drp.eAvail } })

/-- While hosts are served, STAGE_EVAL evaluates the stage: if the entry condition of a stage above the present one stands, the
stage is at least that one after; the stage never falls unless the condition to stay in it has stood false for one second, and
then to a lower stage whose condition to stay holds, or NORMAL. It changes nothing but the stage and its timers. While hosts
are not served it has no effect. Rests on 05_exposure_and_drip.md R145, 05_exposure_and_drip.md R146, Table 5.3. -/
def Obligations.StagesRiseAtOnceAndFallSlowly : Prop :=
  (∀ (t : Nat) (s u : State), u = tick s t →
    (serving u = false → exec (.stageEval t) s = .next u) ∧ (serving u = true → exec (.stageEval t) s = .next (evalStage u)))
  ∧ (∀ s : State,
      let w := { s with drp := { s.drp with
        thr1Since := if fillAtLeast s s.drp.policy.thr1 then some (s.drp.thr1Since.getD s.now) else none,
        thr2Since := if fillAtLeast s s.drp.policy.thr2 then some (s.drp.thr2Since.getD s.now) else none } }
      (∀ k, k ≤ 4 → s.drp.stage < k → stageEnter w k = true → k ≤ (evalStage s).drp.stage)
      ∧ ((evalStage s).drp.stage < s.drp.stage → stageStay w s.drp.stage = false ∧ ∃ since, w.drp.falseSince = some since
          ∧ since + 1000000 ≤ s.now)
      ∧ (s.drp.stage < (evalStage s).drp.stage → (evalStage s).drp.stage ≤ 4 ∧ stageEnter w (evalStage s).drp.stage = true)
      ∧ evalStage s = { s with drp := { s.drp with
          thr1Since := w.drp.thr1Since, thr2Since := w.drp.thr2Since, stage := (evalStage s).drp.stage,
          falseSince := (evalStage s).drp.falseSince, heldSeen := gateHeld w } })

/-- While hosts are served DRIP_ROUND takes a policy loaded since the last round and issues ripe dirty granules in cursor order,
as many as the free bandwidth, the wear allowance and the in-flight table allow, and moves the cursor to the last one; it
issues nothing else. DRIP_COMMIT commits a programmed granule's map entry unless the ledger is closed or none waits, tells the
twin when a mirrored granule became clean, and carries on what waited. RECENCY_SWEEP drops stamps older than 400 s,
HINT_EXPIRY the hints whose lifetime has ended. WEAR_BUCKET_GAIN adds R_wear up to the capacity and takes the second's
committed bytes as the rate; ENDURANCE_FORECAST, where its loop is due and the wear is counted from an origin, keeps 30 days
of samples and raises or clears ENDURANCE_AHEAD at its two thresholds. Rests on 05_exposure_and_drip.md R149,
05_exposure_and_drip.md R150, 05_exposure_and_drip.md R152, 05_exposure_and_drip.md R154, 05_exposure_and_drip.md R155,
05_exposure_and_drip.md R157, 07_flash_backend.md R219, log entry 11. -/
def Obligations.DripClocks : Prop :=
  (∀ (free t : Nat) (s u : State), u = tick s t →
    (serving u = false → exec (.dripRound free t) s = .next u)
    ∧ (serving u = true →
        let p := takePolicy u
        let bw := if freeSb p < 2 then 0 else min 0xFFFF free
        let w := flushWork { p with ftl := { p.ftl with freeBw := bw } }
        let bytes := min (bw * 1000) ((wearAllowance w).getD (bw * 1000))
        let picks := ((roundOrder w).filter (ripe w)).take (min (bytes / 16384) (65536 - inFlightTable w))
        let x := picks.foldl (fun x g => issueDrip x g .drip) w
        (picks = [] → exec (.dripRound free t) s = .next (feed w))
        ∧ (∀ g, picks.getLast? = some g →
            exec (.dripRound free t) s = .next (feed { x with drp := { x.drp with cursor := granRegion g } }))))
  ∧ (∀ (g t : Nat) (s u : State), u = tick s t →
    ((u.ldg.closed = true ∨ committable u g = none) → exec (.dripCommit g t) s = .next u)
    ∧ (∀ p, u.ldg.closed = false → committable u g = some p →
        let w := commitDrip u p
        let told := (tget u.drp.gran g).isSome && (tget w.drp.gran g).isNone
          && (match (granAllot w g).bind (allotOf w) with | some a => a.mirrored | none => false) && w.exl.session
        let x := if told then sendLow w 0x04 [1, g] else w
        exec (.dripCommit g t) s = .next (feed (drainSubs (retryHeld (judgeSave (judgeFlushes (saveWork (flushWork x)))))))))
  ∧ (∀ (t : Nat) (s u : State), u = tick s t →
    exec (.recencySweep t) s = .next { u with drp := { u.drp with
      recency := u.drp.recency.filter (fun p => (stampNow u + 65535 - p.2) % 65535 ≤ 40000) } }
    ∧ exec (.hintExpiry t) s = .next { u with drp := { u.drp with
      hints := u.drp.hints.filter (fun h => u.now < h.loadedAt + 1000 * h.lifeMs) } }
    ∧ (logicOn u = false → exec (.wearBucketGain t) s = .next u)
    ∧ (logicOn u = true → exec (.wearBucketGain t) s = .next (judgeBucket { u with drp := { u.drp with
        bucket := min (u.drp.bucket + (rWear u : Int)) ((86400 * rWear u : Nat) : Int),
        rate := min 0xFFFF (u.drp.committed / 1000000), committed := 0 } }))
    ∧ ((u.drp.origin = none ∨ loopDue u true 1 60000000 600000000 = false) → exec (.enduranceForecast t) s = .next u)
    ∧ (∀ o, u.drp.origin = some o → loopDue u true 1 60000000 600000000 = true →
        let v := loopRan u 1
        let days := (opSecs v, v.drp.spent) :: v.drp.days.filter (fun p => opSecs v ≤ p.1 + 2592000)
        let need := meanRate v days * (631152000 - (opSecs v - o))
        let w := { v with drp := { v.drp with days := days, r30 := meanRate v days } }
        (u.drp.ahead = false → u.drp.bTotal < u.drp.spent + need →
          exec (.enduranceForecast t) s = .next (raiseLiveOpen { w with drp := { w.drp with ahead := true } } 0x14B))
        ∧ (u.drp.ahead = true → 100 * need < 95 * (u.drp.bTotal - u.drp.spent) →
          exec (.enduranceForecast t) s = .next (clearLive { w with drp := { w.drp with ahead := false } } 0x14B))
        ∧ ((u.drp.ahead = true → 95 * (u.drp.bTotal - u.drp.spent) ≤ 100 * need) →
            (u.drp.ahead = false → u.drp.spent + need ≤ u.drp.bTotal) → exec (.enduranceForecast t) s = .next w)))
  ∧ (∀ s : State,
      (s.drp.bucket < 0 → s.drp.overdrawn = false → judgeBucket s
        = raiseLive (drew { s with drp := { s.drp with overdrawn := true } }) 0x14A (drawn s % 2 ^ 32))
      ∧ (0 ≤ s.drp.bucket → s.drp.overdrawn = true → judgeBucket s
        = clearLive { s with drp := { s.drp with overdrawn := false } } 0x14A)
      ∧ ((s.drp.bucket < 0 ↔ s.drp.overdrawn = true) → judgeBucket s = s))

/-- HARVEST_PLAN_LOAD action 0 takes well-formed entries (allotments at most 0x0FFF, classes at most 7, at most 4,096) as the plan
and saves it, action 1 clears it; REPLANT_ORDER_LOAD action 0 takes the order from the fabric manager or board management,
action 1 the owner's ranges while a replant runs. FULL_SAVE starts in SERVING or DEGRADED when none runs and there is room,
else refuses. A priority fetch that ends, its cutting done, restores its granule and answers what waited for it; one that is
not running does nothing. A replant cutting that is done, behind no priority fetch of its channel, restores or verifies its
granules; a warm verification that has nothing left completes the restore. A harvest stripe whose reads are done records what
it saved and what is to be saved again; the seal is placed only in phase 4, then phase 5 follows, the notice goes out and
unsaved granules raise fault 0x151. A placed seal takes the next sequence number. Rests on 06_harvest_and_replant.md R169,
06_harvest_and_replant.md R173, 06_harvest_and_replant.md R186, 06_harvest_and_replant.md R187, 06_harvest_and_replant.md
R192, 06_harvest_and_replant.md R197, 06_harvest_and_replant.md R198, 06_harvest_and_replant.md R199. -/
def Obligations.HarvestAndReplantRuns : Prop :=
  (∀ (c : TrellisCmd) (s v : State) (f : InFlight), started 0x0203 c s = some (v, f) →
    let b := payIn f.cmd
    let bad := b.length % 4 ≠ 0 ∨ 4096 < (entries4 b).length
      ∨ (entries4 b).any (fun e => 0x0FFF < rd e 0 2 || 7 < rd e 2 1 || rd e 3 1 != 0) = true
    (1 < pByte f.cmd 24 → exec (.harvestPlanLoad c) s = .next (badParam v f.id 24))
    ∧ (pByte f.cmd 24 = 0 → bad → exec (.harvestPlanLoad c) s = .next (badParam v f.id 0x40))
    ∧ (pByte f.cmd 24 = 0 → ¬bad →
        let p := (entries4 b).foldl (fun m e => tset m (rd e 0 2) (rd e 2 1)) []
        exec (.harvestPlanLoad c) s = .next (endOk (pairWrite { v with hrv := { v.hrv with plan := p } } 5) f.id (le p.length 4)))
    ∧ (pByte f.cmd 24 = 1 → b ≠ [] → exec (.harvestPlanLoad c) s = .next (badParam v f.id 0x40))
    ∧ (pByte f.cmd 24 = 1 → b = [] →
        exec (.harvestPlanLoad c) s = .next (endOk (pairWrite { v with hrv := { v.hrv with plan := [] } } 5) f.id (le 0 4))))
  ∧ (∀ (c : TrellisCmd) (s v : State) (f : InFlight), started 0x0205 c s = some (v, f) →
    let b := payIn f.cmd
    let act := pByte f.cmd 24
    let bad := b.length % 4 ≠ 0 ∨ 4096 < (entries4 b).length
      ∨ (entries4 b).any (fun e => 0x0FFF < rd e 0 2 || rd e 3 1 != 0) = true
    let badR := b.length % 16 ≠ 0 ∨ 1024 < (entries16 b).length ∨ (entries16 b).all (rangeOk v) = false
    (1 < act → exec (.replantOrderLoad c) s = .next (badParam v f.id 24))
    ∧ (act = 0 → issClass f.cmd.est = 0 → exec (.replantOrderLoad c) s = .next (endWith v f.id 0x05 0x02))
    ∧ (act = 0 → issClass f.cmd.est ≠ 0 → bad → exec (.replantOrderLoad c) s = .next (badParam v f.id 0x40))
    ∧ (act = 0 → issClass f.cmd.est ≠ 0 → ¬bad →
        let o := (entries4 b).foldl (fun m e => tset m (rd e 0 2) (rd e 2 1)) []
        exec (.replantOrderLoad c) s = .next (endOk (pairWrite { v with hrv := { v.hrv with order := o } } 5) f.id (le o.length 4)))
    ∧ (act = 1 → owns v f.cmd.est 7 = false → exec (.replantOrderLoad c) s = .next (endWith v f.id 0x05 0x05))
    ∧ (act = 1 → owns v f.cmd.est 7 = true → v.hrv.replant = false → exec (.replantOrderLoad c) s = .next (conflict v f.id 0x10))
    ∧ (act = 1 → owns v f.cmd.est 7 = true → v.hrv.replant = true → badR → exec (.replantOrderLoad c) s = .next (badParam v f.id 0x40))
    ∧ (act = 1 → owns v f.cmd.est 7 = true → v.hrv.replant = true → ¬badR →
        let left := v.hrv.ranges.filter (rangeLeft v)
        (4096 < left.length + (entries16 b).length → exec (.replantOrderLoad c) s = .next (endWith v f.id 0x0C 0))
        ∧ (left.length + (entries16 b).length ≤ 4096 →
            let w := { v with hrv := { v.hrv with
              ranges := left ++ (entries16 b).map (fun e => (rd e 0 2, rd e 4 4, rd e 8 4)) } }
            exec (.replantOrderLoad c) s = .next (endOk (assistInput w 7) f.id (le w.hrv.ranges.length 4)))))
  ∧ (∀ (c : TrellisCmd) (s v : State) (f : InFlight), started 0x0204 c s = some (v, f) →
    (v.dev.state ≠ .serving → v.dev.state ≠ .degraded →
      exec (.fullSave c) s = .next (conflict v f.id (0x02 + fld v.dev.state.code 8 8)))
    ∧ ((v.dev.state = .serving ∨ v.dev.state = .degraded) →
      (v.hrv.save ≠ none → exec (.fullSave c) s = .next (conflict v f.id 0x10))
      ∧ (v.hrv.save = none → saveRoom v < (saveSet v).length → exec (.fullSave c) s = .next (endWith v f.id 0x0C 0))
      ∧ (v.hrv.save = none → (saveSet v).length ≤ saveRoom v →
          exec (.fullSave c) s = .next (feed (judgeSave (saveWork (setJob (startSave v false) f.id .fullSave)))))))
  ∧ (∀ (g : Nat) (r : FlashRead) (t : Nat) (s u : State), u = tick s t →
    (u.hrv.fetches.find? (fun f => f.gran == g && f.running) = none → exec (.priorityFetchDone g r t) s = .next u)
    ∧ (∀ f, u.hrv.fetches.find? (fun f => f.gran == g && f.running) = some f →
        (cuttingOut u (fun c => c.typ == 3 && c.b == g && c.c == 1) = true → exec (.priorityFetchDone g r t) s = .next u)
        ∧ (cuttingOut u (fun c => c.typ == 3 && c.b == g && c.c == 1) = false →
          let v := restoreGran u g r
          let w := { v with hrv := { v.hrv with
            fetches := v.hrv.fetches.filter (fun k => k.gran != f.gran), fetchMax := max v.hrv.fetchMax (v.now - f.since) } }
          let x := serveWaiters (nextFetch w f.chan) f.waiters
          exec (.priorityFetchDone g r t) s = .next (harvestAdvance (drainSubs
            (if x.ldg.closed && (tget x.drp.gran f.gran).isSome then joinHarvest x f.gran else x))))))
  ∧ (∀ (k : Nat) (bad : List (Nat × FlashRead)) (mism : List Nat) (t : Nat) (s u : State), u = tick s t →
    (u.hrv.cuts[k]? = none → exec (.replantStripeDone k bad mism t) s = .next u)
    ∧ (∀ n cut, u.hrv.cuts[k]? = some (n, cut) →
      ((u.hrv.replant = false ∨ serving u = false ∨ cuttingOut u (fun c => c.n == n) = true
          ∨ (u.hrv.warm = false ∧ behindFetch u cut = true)) → exec (.replantStripeDone k bad mism t) s = .next u)
      ∧ (u.hrv.replant = true → serving u = true → cuttingOut u (fun c => c.n == n) = false →
        let v := { u with hrv := { u.hrv with cuts := u.hrv.cuts.filter (fun p => p.1 != n) } }
        let gs := cut.filter v.hrv.todo.contains
        (u.hrv.warm = true →
          exec (.replantStripeDone k bad mism t) s = .next (replantWork (gs.foldl (fun w g => verifyGran w g mism) v)))
        ∧ (u.hrv.warm = false → behindFetch u cut = false →
          exec (.replantStripeDone k bad mism t) s = .next (replantWork (drainSubs (gs.foldl (fun w g =>
            if w.hrv.fetches.any (fun f => f.gran == g) then w
            else restoreGran w g (((bad.find? (fun p => p.1 == g)).map (·.2)).getD {})) v)))))))
  ∧ (∀ (chans : List Nat) (t : Nat) (s u : State), u = tick s t →
    ((u.hrv.warm = false ∨ u.hrv.replant = false ∨ u.hrv.todo ≠ []) → exec (.warmVerifyEnd chans t) s = .next u)
    ∧ (u.hrv.warm = true → u.hrv.replant = true → u.hrv.todo = [] → exec (.warmVerifyEnd chans t) s = .next (restoreComplete
        (chans.foldl (fun w c => if (popChannels w).contains c then raiseOpen w (0x045 + 8 * c) else w) u))))
  ∧ (∀ (n : Nat) (failed ues : List Nat) (t : Nat) (s u : State), u = tick s t →
    ((u.dev.state ≠ .harvesting ∨ u.hrv.run = none) → exec (.harvestStripeDone n failed ues t) s = .next u)
    ∧ (∀ r, u.dev.state = .harvesting → u.hrv.run = some r →
        (r.issued.find? (fun x => x.n == n) = none → exec (.harvestStripeDone n failed ues t) s = .next u)
        ∧ (∀ st, r.issued.find? (fun x => x.n == n) = some st →
          ((stripeReading u n = true ∨ stripeRead u st = false) → exec (.harvestStripeDone n failed ues t) s = .next u)
          ∧ (stripeReading u n = false → stripeRead u st = true →
            let v := internalUes u (ues.filter (fun l => st.header.isNone && st.grans.any (fun p => p.1 == lineGran l)))
            let lost := fun a : Nat =>
              (failed.contains (faTgt a) && (members v st.sb).contains (faTgt a)) || st.refused.contains (faTgt a)
            ∃ w r', exec (.harvestStripeDone n failed ues t) s = .next (harvestAdvance w) ∧ w.hrv.run = some r'
              ∧ w.hrv.phase = r.phase ∧ r'.issued = r.issued.filter (fun x => x.n != n)
              ∧ (st.header ≠ none → r'.saved = r.saved ∧ r'.plan = r.plan)
              ∧ (st.header = none → r'.saved = r.saved ++ (st.grans.filter (fun p => !lost p.2)).map (fun p => (p.1, n))
                  ∧ r'.again = sunion r.again ((st.grans.filter (fun p => lost p.2)).map (·.1)))))))
  ∧ (∀ (bad : List Nat) (t : Nat) (s u : State), u = tick s t →
    ((u.dev.state ≠ .harvesting ∨ u.hrv.run = none) → exec (.sealWritten bad t) s = .next u)
    ∧ (∀ r, u.dev.state = .harvesting → u.hrv.run = some r →
        (r.phase ≠ 4 → exec (.sealWritten bad t) s = .next u)
        ∧ (r.phase = 4 →
          let v := bad.foldl sealFailed (wear { u with hrv := { u.hrv with lastGranules := r.saved.length } } (2 + bad.length) true)
          let w := setRun (placeSeal v { harvestSeal r with regs := hrvRegs v } r.metaAddr) r 5
          let x := notice { w with hrv := { w.hrv with
            dest := destination w r.cause, inputGoodAtSeal := inputGood w, short := decide (0 < r.unsaved), imageDrip := true } } 1 true
          let y := sendEvery x 0x0A [sealSeq x]
          exec (.sealWritten bad t) s = .next (if 0 < r.unsaved then raiseOpen y 0x151 else y))))
  ∧ (∀ (s : State) (a : Seal) (addr : Option Nat),
      (placeSeal s a addr).hrv.seals.length ≤ 4 ∧ (placeSeal s a addr).hrv.runOpen = false ∧ (placeSeal s a addr).hrv.loss = none
      ∧ ∀ x, (placeSeal s a addr).hrv.seals.head? = some x →
          x.seq = sealSeq s + 1 ∧ x.unsaved = a.unsaved ∧ x.granules = a.granules ∧ x.metaAddr = addr.getD (drawn s))

/-- For every one of the thirty-three mailbox rows that carry no Trellis packet: where the port's link is down, the logical device
is not the port's, or a Trellis packet holds the mailbox, the command has no effect and no answer. The ten fabric-manager rows
answer Unsupported and change nothing on any other device than the fabric-manager-owned one. The rows whose contents CXL 3.1
lays out and the manual does not state answer Success with contents that are free values, and count one draw. Rests on
02_trellis_commands.md R47, 03_host_ports_allotments.md R72, 03_host_ports_allotments.md R74, 03_host_ports_allotments.md
R100, log entry 36. -/
def Obligations.MailboxCommandsActWhereTheMailboxIs : Prop :=
  let fm : List (MboxReq → Nat → Instr) := [.getLdInfo, .getLdAllocations, .setLdAllocations, .getQosControl, .setQosControl,
    .getQosStatus, .getQosAllocatedBandwidth, .setQosAllocatedBandwidth, .getQosBandwidthLimit, .setQosBandwidthLimit]
  let free : List (Nat × (MboxReq → Nat → Instr)) := [(0x0001, .mailboxIdentify), (0x0002, .backgroundOperationStatus),
    (0x0400, .getSupportedLogs), (0x0401, .getLog), (0x4000, .identifyMemoryDevice)]
  let rest : List (MboxReq → Nat → Instr) := [.getEventRecords, .clearEventRecords, .getEventInterruptPolicy,
    .setEventInterruptPolicy, .getTimestamp, .setTimestamp, .getHealthInfo, .getAlertConfiguration, .setAlertConfiguration,
    .getShutdownState, .setShutdownState, .getPoisonList, .injectPoison, .clearPoison, .getDynamicCapacityConfiguration,
    .getDynamicCapacityExtentList, .addDynamicCapacityResponse, .releaseDynamicCapacity]
  (∀ row ∈ fm ++ free.map (·.2) ++ rest, ∀ (m : MboxReq) (t : Nat) (s u : State), u = tick s t → mboxHere u m = false →
      exec (row m t) s = .next u)
  ∧ (∀ row ∈ fm, ∀ (m : MboxReq) (t : Nat) (s u : State), u = tick s t → mboxHere u m = true → m.issuer ≠ 0x1000 + m.port →
      exec (row m t) s = .next (emit u (.mbox m.port m.issuer 3 [])))
  ∧ (∀ row ∈ free, ∀ (m : MboxReq) (t : Nat) (s u : State), u = tick s t → mboxHere u m = true →
      exec (row.2 m t) s = .next (emit (drew u) (.mbox m.port m.issuer 0 (Config.cxlResponse row.1 m.input u.draws))))

/-- Where its mailbox is: each Set with its payload length keeps what it carries in that mailbox alone and answers Success; with
another length it answers Invalid Payload Length (0x16) and keeps nothing. Each Get answers what is kept: the event interrupt
policy in five bytes, the shutdown state in one, the timestamp advanced by the time since it was set (zero until it is set),
the alert configuration over the contents CXL 3.1 lays out, and GET_HEALTH_INFO the dirty shutdown count in bytes 6 to 9 of
18. Rests on 03_host_ports_allotments.md R94, 03_host_ports_allotments.md R100, log entry 36. -/
def Obligations.MailboxKeepsWhatIsSet : Prop :=
  ∀ (m : MboxReq) (t : Nat) (s u : State), u = tick s t → mboxHere u m = true →
    exec (.getEventInterruptPolicy m t) s = .next (emit u (.mbox m.port m.issuer 0 (le (mboxOf u m).evPolicy.toNat 5)))
    ∧ ((m.input.length = 4 ∨ m.input.length = 5) → exec (.setEventInterruptPolicy m t) s = .next
        (emit (setMbox u m { mboxOf u m with evPolicy := BitVec.ofNat 40 (leNat m.input) }) (.mbox m.port m.issuer 0 [])))
    ∧ (m.input.length ≠ 4 → m.input.length ≠ 5 →
        exec (.setEventInterruptPolicy m t) s = .next (emit u (.mbox m.port m.issuer 0x16 [])))
    ∧ ((mboxOf u m).timestamp = 0#64 → exec (.getTimestamp m t) s = .next (emit u (.mbox m.port m.issuer 0 (le 0 8))))
    ∧ ((mboxOf u m).timestamp ≠ 0#64 → exec (.getTimestamp m t) s = .next (emit u (.mbox m.port m.issuer 0
        (le (((mboxOf u m).timestamp.toNat + 1000 * (u.now - (mboxOf u m).tsSetAt)) % 2 ^ 64) 8))))
    ∧ (m.input.length = 8 → exec (.setTimestamp m t) s = .next (emit
        (setMbox u m { mboxOf u m with timestamp := BitVec.ofNat 64 (leNat m.input), tsSetAt := u.now }) (.mbox m.port m.issuer 0 [])))
    ∧ (m.input.length ≠ 8 → exec (.setTimestamp m t) s = .next (emit u (.mbox m.port m.issuer 0x16 [])))
    ∧ exec (.getHealthInfo m t) s = .next (emit (drew u) (.mbox m.port m.issuer 0
        (overlay (padTo (Config.cxlResponse 0x4200 m.input u.draws) 18) 6 (le u.cxl.dirtyShutdowns 4))))
    ∧ exec (.getAlertConfiguration m t) s = .next (emit (drew u) (.mbox m.port m.issuer 0
        (overlay (padTo (Config.cxlResponse 0x4201 m.input u.draws) 16) 0 (mboxOf u m).alert)))
    ∧ (m.input.length = 12 → exec (.setAlertConfiguration m t) s
        = .next (emit (setMbox u m { mboxOf u m with alert := m.input }) (.mbox m.port m.issuer 0 [])))
    ∧ (m.input.length ≠ 12 → exec (.setAlertConfiguration m t) s = .next (emit u (.mbox m.port m.issuer 0x16 [])))
    ∧ exec (.getShutdownState m t) s = .next (emit u (.mbox m.port m.issuer 0 [(mboxOf u m).shutdown]))
    ∧ (∀ b, m.input = [b] → exec (.setShutdownState m t) s
        = .next (emit (setMbox u m { mboxOf u m with shutdown := b }) (.mbox m.port m.issuer 0 [])))
    ∧ (m.input.length ≠ 1 → exec (.setShutdownState m t) s = .next (emit u (.mbox m.port m.issuer 0x16 [])))
    ∧ mboxOf (setMbox u m { mboxOf u m with shutdown := 0#8 }) m = { mboxOf u m with shutdown := 0#8 }

/-- Where its mailbox is: GET_EVENT_RECORDS returns the uncleared records of the log its byte names, oldest first, at most 511
with flag bit 1 past that; CLEAR_EVENT_RECORDS clears a whole log, or exactly the oldest records its handles name, and answers
Invalid Handle otherwise. GET_POISON_LIST returns the entries of the host's windows in the range asked for, from at most
4,096, with flag bit 1 past that. INJECT_POISON writes its line as poisoned and CLEAR_POISON its 64 bytes, by the path of a
host write with every byte enabled and no completion; an address that is not writable there is Invalid Physical Address. Wrong
lengths are Invalid Payload Length. Rests on 03_host_ports_allotments.md R93, 03_host_ports_allotments.md R94,
03_host_ports_allotments.md R100, log entry 36. -/
def Obligations.EventRecordsAndPoison : Prop :=
  ∀ (m : MboxReq) (t : Nat) (s u : State), u = tick s t → mboxHere u m = true →
    let say := fun (w : State) (code : Nat) (l : List Byte) => emit w (.mbox m.port m.issuer code l)
    let lg := rd m.input 0 1
    let logged := (mboxOf u m).events.filter (fun e => e.log == lg)
    (m.input.length ≠ 1 → exec (.getEventRecords m t) s = .next (say u 0x16 []))
    ∧ (m.input.length = 1 → 4 < lg → exec (.getEventRecords m t) s = .next (say u 2 []))
    ∧ (m.input.length = 1 → lg ≤ 4 → exec (.getEventRecords m t) s = .next (say (drew u) 0
        (overlay (overlay (zeros 32) 0 [if 511 < logged.length then 2#8 else 0#8]) 20 (le (logged.take 511).length 2)
          ++ (logged.take 511).flatMap (eventBytes u))))
    ∧ ((m.input.length < 6 ∨ (rd m.input 1 1 % 2 = 0 ∧ m.input.length ≠ 6 + 2 * rd m.input 2 1)) →
        exec (.clearEventRecords m t) s = .next (say u 0x16 []))
    ∧ (6 ≤ m.input.length → (rd m.input 1 1 % 2 = 0 → m.input.length = 6 + 2 * rd m.input 2 1) →
        (4 < lg → exec (.clearEventRecords m t) s = .next (say u 2 []))
        ∧ (lg ≤ 4 → rd m.input 1 1 % 2 = 1 → exec (.clearEventRecords m t) s = .next
            (say (setMbox u m { mboxOf u m with events := (mboxOf u m).events.filter (fun e => e.log != lg) }) 0 []))
        ∧ (lg ≤ 4 → rd m.input 1 1 % 2 = 0 →
            let hs := (List.range (rd m.input 2 1)).map (fun i => rd m.input (6 + 2 * i) 2)
            let old := (logged.take (rd m.input 2 1)).map (·.handle)
            ((hs.all old.contains && old.all hs.contains && old.length == rd m.input 2 1) = true →
              exec (.clearEventRecords m t) s = .next (say (setMbox u m { mboxOf u m with
                events := (mboxOf u m).events.filter (fun e => !(e.log == lg && hs.contains e.handle)) }) 0 []))
            ∧ ((hs.all old.contains && old.all hs.contains && old.length == rd m.input 2 1) = false →
              exec (.clearEventRecords m t) s = .next (say u 0x0E []))))
    ∧ (m.input.length ≠ 16 → exec (.getPoisonList m t) s = .next (say u 0x16 []))
    ∧ (m.input.length = 16 →
        let lo := rd m.input 0 8
        let hi := lo + 64 * rd m.input 8 8
        let all := poisonOf u m.issuer
        let l := (all.take 4096).filter (fun e => lo < e.1 + 64 * e.2 && e.1 < hi)
        exec (.getPoisonList m t) s = .next (say u 0 (overlay (overlay (zeros 32) 0 [if 4096 < all.length then 2#8 else 0#8])
          10 (le l.length 2) ++ l.flatMap (fun e => le e.1 8 ++ le e.2 4 ++ zeros 4))))
    ∧ (m.input.length ≠ 8 → exec (.injectPoison m t) s = .next (say u 0x16 []))
    ∧ (m.input.length ≠ 72 → exec (.clearPoison m t) s = .next (say u 0x16 []))
    ∧ (let inj : MemReq := {
          port := m.port, issuer := m.issuer, dpa := rd m.input 0 8, data := zeros 64, enables := BitVec.ofNat 64 (2 ^ 64 - 1),
          poison := true }
        let clr : MemReq := { inj with data := m.input.drop 8, poison := false }
        (∀ k, m.input.length = 8 → classify u inj false = .error k → exec (.injectPoison m t) s = .next (say u 0x0F []))
        ∧ (∀ x, m.input.length = 8 → classify u inj false = .ok x → exec (.injectPoison m t) s = .next
            (say (tryWrite (numbered u) { n := u.drp.nextWrite, req := inj, since := u.now, gone := true }) 0 []))
        ∧ (∀ k, m.input.length = 72 → classify u clr false = .error k → exec (.clearPoison m t) s = .next (say u 0x0F []))
        ∧ (∀ x, m.input.length = 72 → classify u clr false = .ok x → exec (.clearPoison m t) s = .next
            (say (tryWrite (numbered u) { n := u.drp.nextWrite, req := clr, since := u.now, gone := true }) 0 [])))

/-- Where its mailbox is: GET_DYNAMIC_CAPACITY_CONFIGURATION reports one region of 64 TiB with blocks of 256 MiB;
GET_DYNAMIC_CAPACITY_EXTENT_LIST the extents the host has accepted, from the start asked for, and their total.
ADD_DYNAMIC_CAPACITY_RESPONSE takes every listed extent for the host when all of them are whole extents of its windows on
offer, else none and Invalid Physical Address; RELEASE_DYNAMIC_CAPACITY gives them back when the host holds all of them, and
then lets a shrink or a removal go on. Wrong lengths are Invalid Payload Length. Rests on 03_host_ports_allotments.md R78,
03_host_ports_allotments.md R79, 03_host_ports_allotments.md R80, 03_host_ports_allotments.md R103, log entry 36. -/
def Obligations.DynamicCapacityCommands : Prop :=
  ∀ (m : MboxReq) (t : Nat) (s u : State), u = tick s t → mboxHere u m = true →
    let say := fun (w : State) (code : Nat) (l : List Byte) => emit w (.mbox m.port m.issuer code l)
    (m.input.length ≠ 2 → exec (.getDynamicCapacityConfiguration m t) s = .next (say u 0x16 []))
    ∧ (m.input.length = 2 → rd m.input 1 1 ≠ 0 → exec (.getDynamicCapacityConfiguration m t) s = .next (say u 2 []))
    ∧ (m.input.length = 2 → rd m.input 1 1 = 0 →
        let free := padTo (Config.cxlResponse 0x4800 m.input u.draws) 64
        (rd m.input 0 1 = 0 → exec (.getDynamicCapacityConfiguration m t) s
          = .next (say (drew u) 0 ([1#8, 0#8] ++ zeros 6 ++ slice free 8 16)))
        ∧ (0 < rd m.input 0 1 → exec (.getDynamicCapacityConfiguration m t) s = .next (say (drew u) 0 ([1#8, 1#8] ++ zeros 6
            ++ (le 0 8 ++ le 0x40000 8 ++ le 0x400000000000 8 ++ le 0x10000000 8 ++ slice free 0 8) ++ slice free 8 16))))
    ∧ (m.input.length ≠ 8 → exec (.getDynamicCapacityExtentList m t) s = .next (say u 0x16 []))
    ∧ (m.input.length = 8 →
        let all := acceptedOf u m.issuer
        let l := (all.drop (rd m.input 4 4)).take (min (rd m.input 0 4) 1638)
        exec (.getDynamicCapacityExtentList m t) s = .next (say (drew u) 0 (le l.length 4 ++ le all.length 4
          ++ padTo (Config.cxlResponse 0x4801 m.input u.draws) 4 ++ zeros 4
          ++ l.flatMap (fun e => le e.1 8 ++ le e.2.1 8 ++ e.2.2 ++ zeros 8))))
    ∧ (dcList m.input = none → exec (.addDynamicCapacityResponse m t) s = .next (say u 0x16 [])
        ∧ exec (.releaseDynamicCapacity m t) s = .next (say u 0x16 []))
    ∧ (∀ l, dcList m.input = some l →
        let named := l.map (dcNames u m.issuer)
        let offered := named.all (fun x => match x with
          | some (id, _) => ((allotOf u id).map (offering u)).getD false
          | none => false)
        let holds := named.all (fun x => match x with | some (id, ks) => holdsAll u m.issuer id ks | none => false)
        let take := named.foldl (fun w x => match x with
          | some (id, ks) => modBinding w id m.issuer (fun b => { b with
              accepted := ks.foldl sins b.accepted, released := ks.foldl sdel b.released })
          | none => w) u
        let give := named.foldl (fun w x => match x with
          | some (id, ks) => modBinding w id m.issuer (fun b => { b with
              accepted := ks.foldl sdel b.accepted, released := ks.foldl sins b.released })
          | none => w) u
        (offered = true → exec (.addDynamicCapacityResponse m t) s = .next (say take 0 []))
        ∧ (offered = false → exec (.addDynamicCapacityResponse m t) s = .next (say u 0x0F []))
        ∧ (holds = true → exec (.releaseDynamicCapacity m t) s = .next (say (judgeRelease give) 0 []))
        ∧ (holds = false → exec (.releaseDynamicCapacity m t) s = .next (say u 0x0F [])))

/-- On the fabric-manager-owned logical device: GET_LD_INFO reports 16 logical devices in multi-logical-device mode and 1
otherwise; allocations are all zero and SET_LD_ALLOCATIONS is taken only with zeros. QoS control takes and returns seven bytes
of that port; its allocated bandwidth and bandwidth limit take and return one byte for each logical device in the range asked
for, which must lie within the count. Wrong lengths are Invalid Payload Length, a range beyond the count Invalid Input, and
neither changes anything. Rests on 03_host_ports_allotments.md R72, 03_host_ports_allotments.md R74, log entry 36. -/
def Obligations.FabricManagerCommands : Prop :=
  ∀ (m : MboxReq) (t : Nat) (s u : State), u = tick s t → mboxHere u m = true → m.issuer = 0x1000 + m.port →
    let say := fun (w : State) (code : Nat) (l : List Byte) => emit w (.mbox m.port m.issuer code l)
    let n := if (port u m.port).mode = 1 then 16 else 1
    let p := port u m.port
    exec (.getLdInfo m t) s = .next (say (drew u) 0 (overlay (padTo (Config.cxlResponse 0x5400 m.input u.draws) 11) 8 (le n 2)))
    ∧ (m.input.length ≠ 2 → exec (.getLdAllocations m t) s = .next (say u 0x16 []))
    ∧ (m.input.length = 2 → n ≤ rd m.input 0 1 → exec (.getLdAllocations m t) s = .next (say u 2 []))
    ∧ (m.input.length = 2 → rd m.input 0 1 < n →
        let k := min (rd m.input 1 1) (n - rd m.input 0 1)
        exec (.getLdAllocations m t) s = .next (say u 0 (le n 1 ++ zeros 1 ++ le (rd m.input 0 1) 1 ++ le k 1 ++ zeros (16 * k))))
    ∧ (m.input.length ≠ 4 + 16 * rd m.input 0 1 → exec (.setLdAllocations m t) s = .next (say u 0x16 []))
    ∧ (m.input.length = 4 + 16 * rd m.input 0 1 → (n < rd m.input 1 1 + rd m.input 0 1 ∨ allZero (m.input.drop 4) = false) →
        exec (.setLdAllocations m t) s = .next (say u 2 []))
    ∧ (m.input.length = 4 + 16 * rd m.input 0 1 → rd m.input 1 1 + rd m.input 0 1 ≤ n → allZero (m.input.drop 4) = true →
        exec (.setLdAllocations m t) s = .next (say u 0 m.input))
    ∧ exec (.getQosControl m t) s = .next (say u 0 (padTo p.qosControl 7))
    ∧ (m.input.length = 7 → exec (.setQosControl m t) s
        = .next (say (setPort u m.port { p with qosControl := m.input }) 0 m.input))
    ∧ (m.input.length ≠ 7 → exec (.setQosControl m t) s = .next (say u 0x16 []))
    ∧ exec (.getQosStatus m t) s = .next (say (drew u) 0 (Config.cxlResponse 0x5405 m.input u.draws))
    ∧ (m.input.length ≠ 2 → exec (.getQosAllocatedBandwidth m t) s = .next (say u 0x16 [])
        ∧ exec (.getQosBandwidthLimit m t) s = .next (say u 0x16 []))
    ∧ (m.input.length = 2 → n < rd m.input 1 1 + rd m.input 0 1 → exec (.getQosAllocatedBandwidth m t) s = .next (say u 2 [])
        ∧ exec (.getQosBandwidthLimit m t) s = .next (say u 2 []))
    ∧ (m.input.length = 2 → rd m.input 1 1 + rd m.input 0 1 ≤ n →
        exec (.getQosAllocatedBandwidth m t) s
          = .next (say u 0 (m.input ++ slice (padTo p.qosAlloc 16) (rd m.input 1 1) (rd m.input 0 1)))
        ∧ exec (.getQosBandwidthLimit m t) s
          = .next (say u 0 (m.input ++ slice (padTo p.qosLimit 16) (rd m.input 1 1) (rd m.input 0 1))))
    ∧ (m.input.length ≠ 2 + rd m.input 0 1 → exec (.setQosAllocatedBandwidth m t) s = .next (say u 0x16 [])
        ∧ exec (.setQosBandwidthLimit m t) s = .next (say u 0x16 []))
    ∧ (m.input.length = 2 + rd m.input 0 1 → n < rd m.input 1 1 + rd m.input 0 1 →
        exec (.setQosAllocatedBandwidth m t) s = .next (say u 2 []) ∧ exec (.setQosBandwidthLimit m t) s = .next (say u 2 []))
    ∧ (m.input.length = 2 + rd m.input 0 1 → rd m.input 1 1 + rd m.input 0 1 ≤ n →
        exec (.setQosAllocatedBandwidth m t) s = .next (say (setPort u m.port { p with
          qosAlloc := overlay (padTo p.qosAlloc 16) (rd m.input 1 1) (m.input.drop 2) }) 0 m.input)
        ∧ exec (.setQosBandwidthLimit m t) s = .next (say (setPort u m.port { p with
          qosLimit := overlay (padTo p.qosLimit 16) (rd m.input 1 1) (m.input.drop 2) }) 0 m.input))

/-- Where TWI0 carries MCTP and is addressed and the device is not in OFF, the four control messages answer, to the address,
endpoint and tag they came with: the endpoint ID is set to any but 0x00 and 0xFF and returned as set, version and message type
support list type 0x7F; elsewhere nothing answers. MCTP_TRELLIS_MESSAGE and MAILBOX_TRELLIS_PACKET submit the packet their
bytes spell and drop or reject any other form; a mailbox opcode that is neither a row of Table 3.7 nor 0xC710 is Unsupported.
QP_FETCH takes the next pair in turn that may fetch, enters ERROR 0x04 on a failed ring read, else advances the head and
submits the entry. QP_REPLY_WRITE writes the oldest reply owed, then the tail, then signals the vector; a failed ring write
enters ERROR 0x05. Rests on 02_trellis_commands.md R34, 02_trellis_commands.md R43, 02_trellis_commands.md R44,
02_trellis_commands.md R45, 02_trellis_commands.md R47, 02_trellis_commands.md R48, 03_host_ports_allotments.md R100,
13_converters_and_two_wire.md R366, log entry 59. -/
def Obligations.CarriersAndMctpControl : Prop :=
  (∀ (h : MctpHead) (eid typ t : Nat) (s u : State), u = tick s t →
    let say := fun (w : State) (l : List Byte) => emit w (.mctp h.back h.src h.tag l)
    ((u.dev.state = .off ∨ mctpUp u = false ∨ twiAnswers u h.addr = false) →
      exec (.setEndpointId h eid t) s = .next u ∧ exec (.getEndpointId h t) s = .next u
      ∧ exec (.getMctpVersionSupport h typ t) s = .next u ∧ exec (.getMessageTypeSupport h t) s = .next u)
    ∧ (u.dev.state ≠ .off → mctpUp u = true → twiAnswers u h.addr = true →
      ((eid % 256 = 0 ∨ eid % 256 = 255) →
        exec (.setEndpointId h eid t) s = .next (say u [0#8, 0#8, 1#8, 2#8]))
      ∧ (eid % 256 ≠ 0 → eid % 256 ≠ 255 → exec (.setEndpointId h eid t) s = .next (say
          { u with trl := { u.trl with eid := eid % 256 } } ([0#8, 0#8, 1#8, 0#8, 0#8] ++ le eid 1 ++ [0#8])))
      ∧ exec (.getEndpointId h t) s = .next (say u ([0#8, 0#8, 2#8, 0#8] ++ le u.trl.eid 1 ++ [0#8, 0#8]))
      ∧ ((typ = 0xFF ∨ typ = 0x00 ∨ typ = 0x7F) → exec (.getMctpVersionSupport h typ t) s
          = .next (say u [0#8, 0#8, 4#8, 0#8, 1#8, 0xF1#8, 0xF3#8, 0xFF#8, 0x00#8]))
      ∧ (typ ≠ 0xFF → typ ≠ 0x00 → typ ≠ 0x7F →
          exec (.getMctpVersionSupport h typ t) s = .next (say u [0#8, 0#8, 4#8, 0x80#8]))
      ∧ exec (.getMessageTypeSupport h t) s = .next (say u [0#8, 0#8, 5#8, 0#8, 1#8, 0x7F#8])))
  ∧ (∀ (h : MctpHead) (data : List Byte) (t : Nat) (s u : State), u = tick s t →
    ((data.take 6 ≠ [0x7F#8, 0x71#8, 0x4A#8, 0x03#8, 0x00#8, 0x01#8] ∨ data.length < 70 ∨ 70 + 1024 < data.length) →
      exec (.mctpTrellisMessage h data t) s = .next u)
    ∧ (data.take 6 = [0x7F#8, 0x71#8, 0x4A#8, 0x03#8, 0x00#8, 0x01#8] → 70 ≤ data.length → data.length ≤ 70 + 1024 →
      exec (.mctpTrellisMessage h data t) s
        = .next (submitPacket { packetOf (.mctp h.src) (0x2000 + h.src % 256) (data.drop 6) (data.drop 70) true t with head := h } u)))
  ∧ (∀ (op : Nat) (m : MboxReq) (t : Nat) (s u : State), u = tick s t →
    ((mboxHere u m = false ∨ op ∈ mailboxOps) → exec (.mailboxTrellisPacket op m t) s = .next u)
    ∧ (mboxHere u m = true → op ∉ mailboxOps → op ≠ 0xC710 →
        exec (.mailboxTrellisPacket op m t) s = .next (emit u (.mbox m.port m.issuer 3 [])))
    ∧ (mboxHere u m = true → (m.input.length < 64 ∨ m.input.length ≠ 64 + rd m.input 12 4) →
        exec (.mailboxTrellisPacket 0xC710 m t) s = .next (emit u (.mbox m.port m.issuer 2 [])))
    ∧ (mboxHere u m = true → 64 ≤ m.input.length → m.input.length = 64 + rd m.input 12 4 →
        exec (.mailboxTrellisPacket 0xC710 m t) s
          = .next (submitPacket (packetOf (.mailbox m.port m.issuer) m.issuer m.input (m.input.drop 64) true t) u)))
  ∧ (∀ (entry payload : List Byte) (ok payOk : Bool) (t : Nat) (s u : State), u = tick s t →
    (nextRing u = none → exec (.qpFetch entry payload ok payOk t) s = .next u)
    ∧ (∀ n, nextRing u = some n →
        let w := { u with trl := { u.trl with rr := n } }
        (ok = false → exec (.qpFetch entry payload ok payOk t) s = .next (setQp w n { qp u n with st := .error, err := 0x04 }))
        ∧ (ok = true → exec (.qpFetch entry payload ok payOk t) s = .next (submitPacket
            (packetOf (.qp n) (qp u n).issuer.toNat entry payload payOk t)
            (setQp w n { qp u n with sqHead := ((qp u n).sqHead + 1) % ((qp u n).sqM1 + 1) })))))
  ∧ (∀ (n : Nat) (ok : Bool) (t : Nat) (s u : State), u = tick s t →
    ((qp u n).owed = [] → exec (.qpReplyWrite n ok t) s = .next (judgeIdle u n))
    ∧ (∀ r rest, (qp u n).owed = r :: rest →
        ((qp u n).st ≠ .active → (qp u n).st ≠ .disabling → exec (.qpReplyWrite n ok t) s = .next u)
        ∧ (((qp u n).st = .active ∨ (qp u n).st = .disabling) →
          (ok = false → exec (.qpReplyWrite n ok t) s = .next (setQp u n { qp u n with st := .error, err := 0x05 }))
          ∧ (ok = true →
            let tail := ((qp u n).cqTail + 1) % ((qp u n).cqM1 + 1)
            let w := emit (emit (emit (setQp u n { qp u n with owed := rest, cqTail := tail }) (.reply (.qp n) r))
              (.ringTail n (qp u n).tailAddr.toNat tail)) (.msix n (qp u n).vector)
            exec (.qpReplyWrite n ok t) s = .next (judgeIdle (if r.cls = 0 then replyWritten w n r else w) n)))))
  ∧ (∀ row ∈ trellisRows, ∀ (p : TrellisCmd) (s : State), p.op = row.1 → exec (row.2 p) s = .next (submitPacket p s))

/-- On a port whose link is down none of the twelve rows has an effect. On a port whose link is up, each of the eleven SPDM
requests is answered by its response code, request code minus 0x80, where its step has been reached (version, then
capabilities, then algorithms, then digests, certificates, challenge, measurements and key exchange, then finish with a proof
that verifies, then session requests), and moves the responder's state as its step says; the algorithms are ECDSA P-384,
SHA-384, secp384r1 and AES-256-GCM, the digest and the certificate portion are those of the chain, the measurements begin with
the image digests, and every other content is free; out of order it is answered with ERROR UnexpectedRequest and moves
nothing. IDE_KM acts in a session alone: a key program keeps the set, a go switches to a programmed set and leaves the
insecure state, a stop stops it. Rests on 03_host_ports_allotments.md R98, 03_host_ports_allotments.md R99, log entry 35. -/
def Obligations.SpdmStepsAndIdeKeys : Prop :=
  (∀ (n : Nat) (data : List Byte) (ok : Bool) (t : Nat) (s u : State), u = tick s t →
    let p := port u n
    let x := p.spdm
    let chain := identityChain u
    let part := (chain.drop (rd data 2 2)).take (rd data 4 2)
    let free := fun code => Config.spdmResponse code data u.draws
    let rows : List (Instr × Nat × Bool × SpdmState × List Byte) := [
      (.getVersion n data t, 0x84, true, { version := true }, free 0x84),
      (.getCapabilities n data t, 0xE1, x.version && !x.algs, { x with caps := true }, free 0xE1),
      (.negotiateAlgorithms n data t, 0xE3, x.caps, { x with algs := true }, [2#8, 0#8] ++ le 44 2 ++ padTo (free 0xE3) 6
        ++ le 0x80 4 ++ le 2 4 ++ zeros 16 ++ [2#8, 0x20#8, 0x10#8, 0#8] ++ [3#8, 0x20#8, 2#8, 0#8]),
      (.getDigests n data t, 0x81, x.algs, x, [0#8, 1#8] ++ bytes (sha384 (nats chain))),
      (.getCertificate n data t, 0x82, x.algs, x,
        [0#8, 0#8] ++ le part.length 2 ++ le (chain.length - rd data 2 2 - part.length) 2 ++ part),
      (.challenge n data t, 0x83, x.algs, x, free 0x83),
      (.getMeasurements n data t, 0xE0, x.algs, x, imageDigests u ++ free 0xE0),
      (.keyExchange n data t, 0xE4, x.algs, { x with handshake := true, session := false, keyGen := 0 }, free 0xE4),
      (.finish n data ok t, 0xE5, x.handshake && ok, { x with handshake := false, session := true }, free 0xE5),
      (.endSession n data t, 0xEC, x.session, { x with session := false, keyGen := 0 }, free 0xEC),
      (.keyUpdate n data t, 0xE9, x.session, { x with keyGen := x.keyGen + 1 }, free 0xE9)]
    (∀ row ∈ rows,
      (p.link ≠ 2 → exec row.1 s = .next u)
      ∧ (p.link = 2 → row.2.2.1 = true → exec row.1 s = .next (emit (drew (setPort u n { p with spdm := row.2.2.2.1 }))
          (.doe n ([0x12#8, BitVec.ofNat 8 (row.2.1 - 0x80)] ++ row.2.2.2.2))))
      ∧ (p.link = 2 → row.2.2.1 = false → exec row.1 s = .next (emit u (.doe n [0x12#8, 0x7F#8, 0x04#8, 0x00#8]))))
    ∧ ((p.link ≠ 2 ∨ x.session = false) → exec (.ideKm n data t) s = .next u)
    ∧ (p.link = 2 → x.session = true → exec (.ideKm n data t) s
        = .next (emit (drew (setPort u n (ideKm p data))) (.doe n (Config.spdmResponse 0xFE data u.draws)))))
  ∧ (∀ (p : Port) (data : List Byte),
      (rd data 1 1 = 2 → ideKm p data = { p with ideKeys := { p.ideKeys with programmed := data.drop 2 } })
      ∧ (rd data 1 1 = 4 → p.ideKeys.programmed = [] → ideKm p data = p)
      ∧ (rd data 1 1 = 4 → p.ideKeys.programmed ≠ [] →
          ideKm p data = { p with ide := 1, ideKeys := { programmed := [], inUse := p.ideKeys.programmed, running := true } })
      ∧ (rd data 1 1 = 5 →
          ideKm p data = { p with ide := if p.ide = 2 then 2 else 0, ideKeys := { p.ideKeys with running := false } })
      ∧ (rd data 1 1 ≠ 2 → rd data 1 1 ≠ 4 → rd data 1 1 ≠ 5 → ideKm p data = p))

/-- On a port whose link is down, or after the cut, a CXL.mem read has no effect. The host of a request is the identity its port's
mode gives it (Table 3.2). Else a read outside every accepted window is dropped with reason 0x02 (0x06 in a withdrawn window),
of a DELETING allotment 0x06, of a STALE one 0x04, of one this unit does not serve 0x02, and on a port whose IDE failed 0x01;
a dropped read returns poison, but for reason 0x01, which sends nothing. A read that is served answers the line's bytes, or
poison where the line is poisoned, uncorrectable or lost, and a read of a granule that is not restored yet waits for its
fetch. Answering a read changes no byte of memory. Rests on 03_host_ports_allotments.md R72, 03_host_ports_allotments.md R79,
03_host_ports_allotments.md R82, 03_host_ports_allotments.md R93, 06_harvest_and_replant.md R167, 06_harvest_and_replant.md
R186, Table 3.3. -/
def Obligations.MemoryReadsAnswerWaitOrDrop : Prop :=
  (∀ (r : MemReq) (x : LineIn) (t : Nat) (s u : State), u = tick s t →
    (((port u r.port).link ≠ 2 ∨ u.ldg.closed = true) → exec (.cxlMemRead r x t) s = .next u)
    ∧ ((port u r.port).link = 2 → u.ldg.closed = false →
        let q := hostOf u r
        let v := noteRequest (noteFill u q x)
        (∀ k, classify v q true = .error k →
          exec (.cxlMemRead r x t) s = .next (creditKept u (dropRequest v r.port q.issuer k true) (some r.port)))
        ∧ (∀ l a, classify v q true = .ok (l, a) →
            let h : HeldWrite := { n := v.drp.nextWrite, req := q, since := v.now, read := true, line := l, x := x }
            let g := granReady (numbered v) (lineGran l) x.badCrc
            (g.2 = true → exec (.cxlMemRead r x t) s
              = .next (creditKept u (answerRead (enqueue (lineFound g.1 l x) h.n l false) h) (some r.port)))
            ∧ (g.2 = false → exec (.cxlMemRead r x t) s = .next (creditKept u (waitFetch g.1 (lineGran l) h) (some r.port))))))
  ∧ (∀ (s : State) (r : MemReq), (hostOf s r).port = r.port ∧ (hostOf s r).dpa = r.dpa
      ∧ ((port s r.port).mode = 0 → (hostOf s r).issuer = 16 * r.port)
      ∧ ((port s r.port).mode = 1 → (hostOf s r).issuer = 16 * r.port + r.issuer % 16)
      ∧ (1 < (port s r.port).mode → (hostOf s r).issuer = r.issuer % 4096))
  ∧ (∀ (s : State) (r : MemReq) (read : Bool),
      ((port s r.port).ide = 2 → classify s r read = .error 1)
      ∧ ((port s r.port).ide ≠ 2 → resolve s r.issuer r.dpa = none →
          classify s r read = .error (if wasWithdrawn s r then 6 else 2))
      ∧ (∀ id a b l, (port s r.port).ide ≠ 2 → resolve s r.issuer r.dpa = some (id, a, b, l) →
          (a.st = .deleting → classify s r read = .error 6)
          ∧ (a.st = .stale → classify s r read = .error 4)
          ∧ (a.st ≠ .deleting → a.st ≠ .stale →
              (a.serving = false → classify s r read = .error 2)
              ∧ (a.serving = true → read = false → b.rw = false → classify s r read = .error 3)
              ∧ (a.serving = true → (read = true ∨ b.rw = true) → classify s r read = .ok (l, a)))))
  ∧ (∀ (s : State) (h : HeldWrite),
      (answerRead s h).mem = s.mem
      ∧ (h.gone = false → linkCarries s h.req.port = true →
          ((readLine s h.line).2 = true → ∃ d, (answerRead s h).out.head? = some (.memPoison h.req.port h.req.issuer d))
          ∧ ((readLine s h.line).2 = false →
              (∀ a, (granAllot s (lineGran h.line)).bind (allotOf s) = some a → a.lost.contains (lineRegion h.line) = false) →
              ∃ d, (answerRead s h).out.head? = some (.memData h.req.port h.req.issuer (readLine s h.line).1 d))))

/-- On a port whose link is down, or after the cut, a CXL.mem write has no effect. Else a write that the port cannot accept (Table
3.3; reason 0x03 through a read-only binding) is dropped; a write behind a held one of its requester to its line, one the
exposure gate does not admit, or a mirrored one the twin does not admit is held in order; every other is placed: it takes its
ledger position, and is applied or waits for its granule. A held write that has waited HOLD_MAX_US (clamped to 100 to 50,000)
is discarded under reason 0x05 with those waiting behind it, and not before. While a port holds a write its link credit
returns only as held writes leave. Rests on 03_host_ports_allotments.md R82, 03_host_ports_allotments.md R96,
05_exposure_and_drip.md R144, 08_twin_mirroring.md R252, Table 3.3. -/
def Obligations.MemoryWritesArePlacedHeldOrDropped : Prop :=
  (∀ (r : MemReq) (x : LineIn) (t : Nat) (s u : State), u = tick s t →
    (((port u r.port).link ≠ 2 ∨ u.ldg.closed = true) → exec (.cxlMemWrite r x t) s = .next u)
    ∧ ((port u r.port).link = 2 → u.ldg.closed = false →
        let q := hostOf u r
        let v := numbered (noteRequest (noteFill u q x))
        let h : HeldWrite := { n := u.drp.nextWrite, req := q, since := u.now, x := x }
        (∀ k, classify v q false = .error k → exec (.cxlMemWrite r x t) s
          = .next (creditKept u (writeLeft (dropRequest v r.port q.issuer k false) r.port h.n) (some r.port)))
        ∧ (∀ l a, classify v q false = .ok (l, a) →
            let behind := v.drp.held.any (fun k => k.line == l && k.req.issuer == q.issuer)
            (gateAdmits v (lineGran l) = false →
              exec (.cxlMemWrite r x t) s = .next (creditKept u (holdWrite v { h with line := l, gate := true }) (some r.port)))
            ∧ (gateAdmits v (lineGran l) = true →
                (behind = true ∨ (a.mirrored = true ∧ mirrorOn v = true ∧ twinAdmits v l = false)) →
                exec (.cxlMemWrite r x t) s = .next (creditKept u (holdWrite v { h with line := l, gate := false }) (some r.port)))
            ∧ (behind = false → gateAdmits v (lineGran l) = true → (a.mirrored = true → mirrorOn v = true → twinAdmits v l = true) →
                exec (.cxlMemWrite r x t) s = .next (creditKept u
                  (placeWrite v { h with line := l, gate := false } ((granAllot v (lineGran l)).getD 0) a) (some r.port))))))
  ∧ (∀ (n t : Nat) (s u : State), u = tick s t →
    (u.drp.held.find? (fun h => h.n == n) = none → exec (.heldWriteDiscard n t) s = .next u)
    ∧ (∀ h, u.drp.held.find? (fun h => h.n == n) = some h →
        (u.now < h.since + clamp 100 50000 (cfg u (regAt rCxlQos h.req.port) 0 16) → exec (.heldWriteDiscard n t) s = .next u)
        ∧ (h.since + clamp 100 50000 (cfg u (regAt rCxlQos h.req.port) 0 16) ≤ u.now →
            let gone := fun (k : HeldWrite) => h.n ≤ k.n && k.line == h.line && k.req.issuer == h.req.issuer
            exec (.heldWriteDiscard n t) s = .next (creditKept u ((u.drp.held.filter gone).foldl
              (fun w k => writeLeft (dropRequest w k.req.port k.req.issuer 5 false) k.req.port k.n)
              { u with drp := { u.drp with held := u.drp.held.filter (fun k => !gone k) } }) none))))
  ∧ (∀ s : State, ∀ h : HeldWrite, (holdWrite s h).drp.held = s.drp.held ++ [h] ∧ (holdWrite s h).mem = s.mem
      ∧ (holdWrite s h).ldg = s.ldg ∧ (holdWrite s h).out = s.out)
  ∧ (∀ (b s : State) (p : Option Nat) (n : Nat) (x : Port), tget s.cxl.ports n = some x →
      tget (creditKept b s p).cxl.ports n = some { x with
        credit := if heldOn s n = 0 then 0 else x.credit + (if p = some n then 1 else 0) - (heldOn b n - heldOn s n) })

/-- Applying a write to a line of canonical memory whose old content is not uncorrectable: with no poison, and every byte enabled
or the line not poisoned, each enabled byte of the line reads as written, every other byte of memory reads as before and the
line is not poisoned; a write that carries poison, or a partial write to a poisoned line, leaves the line poisoned and every
byte outside it as before. Memory keeps its canonical form. Rests on 03_host_ports_allotments.md R93,
03_host_ports_allotments.md R91. -/
def Obligations.AppliedWriteChangesItsLineOnly : Prop :=
  ∀ (s : State) (n l : Nat) (data : List Byte) (en : BitVec 64) (pois : Bool),
    Memory.wf s.mem.cells = true → s.mem.ueLines.contains l = false → data.length = 64 →
    let w := applyLine s n l data en pois
    Memory.wf w.mem.cells = true
    ∧ (∀ b, (b < 64 * l ∨ 64 * l + 64 ≤ b) → mread w.mem.cells b = mread s.mem.cells b)
    ∧ (pois = false → (allEnabled en = true ∨ poisoned s l = false) →
        poisoned w l = false
        ∧ ∀ k, k < 64 → mread w.mem.cells (64 * l + k) = if en.getLsbD k then data.getD k 0#8 else mread s.mem.cells (64 * l + k))
    ∧ ((pois = true ∨ (poisoned s l = true ∧ allEnabled en = false)) → poisoned w l = true)

/-- On a port whose link is up GPF phase 1 is answered at once, phase 2 when every write received before it has left; HOLD_MAX_US
and 20 microseconds after phase 2 those left are discarded under reason 0x07 and the flush answers. An integrity failure on a
port with IDE on makes it insecure, drops its requests with reason 0x01 and raises IDE_INTEGRITY of the port. A link comes up
where the port exists, is enabled and powered and agrees with port 0 in mode, with flit mode, 32 GT/s and a width of x4 or
more; each failed condition leaves its error code (0 for the speed, the model's choice of log entry 110). A falling link
leaves its writes uncompleted, ends the SPDM and IDE state (an insecure port stays so) and is told; PERST# low takes the link
down and holds it, PERST# high lets it train. On a port whose link is down, or not present, none of these has another effect.
Rests on 03_host_ports_allotments.md R70, 03_host_ports_allotments.md R79, 03_host_ports_allotments.md R91,
03_host_ports_allotments.md R92, 03_host_ports_allotments.md R99, 17_balls_and_package.md R439, 03_host_ports_allotments.md
R71, 03_host_ports_allotments.md R72, 06_harvest_and_replant.md R167, log entries 48 and 110. -/
def Obligations.PortEvents : Prop :=
  (∀ (n t : Nat) (s u : State), u = tick s t →
    ((port u n).link ≠ 2 → exec (.cxlLinkDown n t) s = .next u)
    ∧ (((port u n).link ≠ 2 ∨ u.ldg.closed = true) → exec (.gpfPhase1 n t) s = .next u ∧ exec (.gpfPhase2 n t) s = .next u)
    ∧ ((port u n).link = 2 → exec (.cxlLinkDown n t) s = .next (linkFalls u n))
    ∧ ((port u n).link = 2 → u.ldg.closed = false → exec (.gpfPhase1 n t) s = .next (emit u (.gpf n 1))
      ∧ exec (.gpfPhase2 n t) s = .next (judgeGpf (setPort u n { port u n with gpf := true, gpfSet := openWrites u n, gpfAt := u.now }) n))
    ∧ (((port u n).gpf = false ∨ u.now < (port u n).gpfAt + clamp 100 50000 (cfg u (regAt rCxlQos n) 0 16) + 20) →
        exec (.gpfDeadline n t) s = .next u)
    ∧ (n < 4 → (port u n).gpf = true → (port u n).gpfAt + clamp 100 50000 (cfg u (regAt rCxlQos n) 0 16) + 20 ≤ u.now → ∃ w, exec (.gpfDeadline n t) s = .next (retryHeld (judgeGpf (setPort w n { port w n with gpfSet := [] }) n))
        ∧ w.mem.cells = u.mem.cells ∧ w.ldg = u.ldg
        ∧ w.drp.held = u.drp.held.filter (fun h => !(h.req.port == n && (port u n).gpfSet.contains h.n)))
    ∧ (∀ s : State, (port s n).gpf = true → (port s n).gpfSet = [] → Out.gpf n 2 ∈ (judgeGpf s n).out))
  ∧ (∀ (n : Nat) (reqs : List (Nat × Bool)) (t : Nat) (s u : State), u = tick s t →
    (((port u n).link ≠ 2 ∨ (port u n).ide = 0) → exec (.ideIntegrityFailure n reqs t) s = .next u)
    ∧ ((port u n).link = 2 → (port u n).ide ≠ 0 → exec (.ideIntegrityFailure n reqs t) s = .next (raiseOpen
        (reqs.foldl (fun w r => dropRequest w n r.1 1 r.2)
          (setPort u n { port u n with ide := 2, ideKeys := { (port u n).ideKeys with programmed := [], running := false } })) (0x021 + 2 * n))))
  ∧ (∀ (n width speed : Nat) (flit : Bool) (t : Nat) (s u : State), u = tick s t →
    let x := port u n
    let may := n < nPorts u ∧ u.pin.padOn = true ∧ logicOn u = true ∧ u.dev.state ≠ .harvesting ∧ x.perst = false ∧ x.link ≠ 2
    let w := max (cfgCode u n 24) width
    (¬may → exec (.cxlLinkUp n width speed flit t) s = .next u)
    ∧ (may → cfg u (regAt rCxlCfg n) 31 1 = 0 → exec (.cxlLinkUp n width speed flit t) s = .next (setPort u n { x with link := 3 }))
    ∧ (may → cfg u (regAt rCxlCfg n) 31 1 ≠ 0 →
        (n ≠ 0 → cfgCode u n 26 ≠ modeOfAll u → exec (.cxlLinkUp n width speed flit t) s = .next (setPort u n { x with link := 1, err := 1 }))
        ∧ ((n = 0 ∨ cfgCode u n 26 = modeOfAll u) → flit = false →
            exec (.cxlLinkUp n width speed flit t) s = .next (setPort u n { x with link := 1, err := 3 }))
        ∧ ((n = 0 ∨ cfgCode u n 26 = modeOfAll u) → flit = true → 1 < speed →
            exec (.cxlLinkUp n width speed flit t) s = .next (setPort u n { x with link := 1, err := 0 }))
        ∧ ((n = 0 ∨ cfgCode u n 26 = modeOfAll u) → flit = true → speed ≤ 1 → 2 < w →
            exec (.cxlLinkUp n width speed flit t) s = .next (setPort u n { x with link := 1, err := 2 }))
        ∧ ((n = 0 ∨ cfgCode u n 26 = modeOfAll u) → flit = true → speed ≤ 1 → w ≤ 2 → ∃ v, exec (.cxlLinkUp n width speed flit t) s = .next v
            ∧ (port v n).link = 2 ∧ (port v n).err = 0 ∧ (port v n).width = w ∧ (port v n).mode = cfgCode u n 26
            ∧ v.mem = u.mem ∧ (∀ k, k ≠ n → port v k = port u k))))
  ∧ (∀ (n : Nat) (low : Bool) (t : Nat) (s u : State), u = tick s t →
    ((nPorts u ≤ n ∨ u.pin.padOn = false) → exec (.perstN n low t) s = .next u)
    ∧ (n < nPorts u → u.pin.padOn = true →
        exec (.perstN n false t) s = .next (setPort u n { port u n with perst := false })
        ∧ exec (.perstN n true t) s = .next (setPort (linkFalls u n) n { port (linkFalls u n) n with perst := true })))
  ∧ (∀ (s : State) (n : Nat), (port s n).link = 2 →
      (port (linkFalls s n) n).link = (if cfg s (regAt rCxlCfg n) 31 1 = 1 then 1 else 3) ∧ (port (linkFalls s n) n).ide = (if (port s n).ide = 2 then 2 else 0)
      ∧ (port (linkFalls s n) n).spdm = {} ∧ (linkFalls s n).mem = s.mem ∧ (linkFalls s n).ldg = s.ldg
      ∧ (linkFalls s n).out = .linkDown n :: s.out
      ∧ (∀ h ∈ (linkFalls s n).drp.held, h.req.port ≠ n) ∧ (∀ w ∈ (linkFalls s n).exl.withheld, w.port ≠ n))

/-- REQUEST_URGENT marks the request it names and no other. A refresh comes no sooner than one interval after the last (3.9
microseconds, 1.95 while hot); with requests of its rank queued it is postponed at most four times and then made; with none
queued postponed ones are made up and up to four pulled in. While a retraining pass runs the refresh carries the probes of the
lanes of its rank not probed yet, and the pass ends when all lanes are. A pass starts 15 minutes after the last or when a
module's temperature has moved by 10, and only on a running channel while hosts are served. Outside a pass, a pending host
delay is applied where its test passed, refused and marked REJECTED where it failed, and dropped where the function is in
hardware. Self-refresh is entered in HARVESTING alone from a running channel, at once with empty queues and else through the
draining state, and left while fewer channels than the limit are awake and the plan is about to read the channel. A scrub
chunk whose cutting has ended counts its corrections, notes its uncorrectable lines and advances; a finished tally rebuild
sets the granule's tally, counts it and lets the waiting writes go. On a channel in another state none of these has an effect.
Rests on 04_dram_channels.md R113, 04_dram_channels.md R116, 04_dram_channels.md R120, 04_dram_channels.md R122,
04_dram_channels.md R123, 04_dram_channels.md R125, 04_dram_channels.md R129, 04_dram_channels.md R134, log entries 8 and 120. -/
def Obligations.DramChannelEvents : Prop :=
  (∀ (c n t : Nat) (s u : State), u = tick s t →
    let mark := fun (l : List DdrReq) => l.map (fun q => if q.n == n then { q with urgent := true } else q)
    exec (.requestUrgent c n t) s = .next (setDdr u c { ddr u c with rdq := mark (ddr u c).rdq, wrq := mark (ddr u c).wrq }))
  ∧ (∀ (c rank t : Nat) (hot : Bool) (probe : List LaneProbe) (s u : State), u = tick s t →
    let x := ddr u c
    let early := ∃ f, tget x.refAt rank = some f ∧ 1000 * (u.now + 1) < 1000 * f + (if x.hot then 1950 else 3900)
    ((x.st ≠ 2 ∨ early) → exec (.refreshDue c rank hot probe t) s = .next u)
    ∧ (x.st = 2 → ¬early →
        let y := { x with hot := hot, refAt := tset x.refAt rank u.now }
        let mine := probe.filter (fun p => p.lane / 8 % 8 == rank && (allLanes x).contains p.lane && !x.probed.contains p.lane)
        ((x.retraining = false ∨ mayRetrain u c = false ∨ mine = []) →
          exec (.refreshDue c rank hot probe t) s = .next (setDdr u c (refreshTurn y rank)))
        ∧ (x.retraining = true → mayRetrain u c = true → mine ≠ [] →
          let w := mine.foldl (fun v p => if (ddr v c).probed.contains p.lane then v else probeLane v c p)
            (setDdr u c (refreshRank y rank true))
          ((allLanes x).all (ddr w c).probed.contains = false → exec (.refreshDue c rank hot probe t) s = .next w)
          ∧ ((allLanes x).all (ddr w c).probed.contains = true → exec (.refreshDue c rank hot probe t) s = .next (setDdr w c
              { ddr w c with retraining := false, probed := [], lastPass := w.now, passTemps := (ddr w c).temps })))))
  ∧ (∀ (x : Ddr) (rank : Nat),
    let post := tgetD x.postponed rank 0
    let ahead := tgetD x.pulledIn rank 0
    let made := refreshRank x rank (!x.sameBank)
    (rankQueued x rank = true → 0 < ahead → refreshTurn x rank = { x with pulledIn := tset x.pulledIn rank (ahead - 1) })
    ∧ (rankQueued x rank = true → ahead = 0 → post < 4 → refreshTurn x rank = { x with postponed := tset x.postponed rank (post + 1) })
    ∧ (rankQueued x rank = true → ahead = 0 → 4 ≤ post → refreshTurn x rank = made)
    ∧ (rankQueued x rank = false → 0 < post →
        refreshTurn x rank = { refreshRank made rank (!x.sameBank) with postponed := tset x.postponed rank (post - 1) })
    ∧ (rankQueued x rank = false → post = 0 → ahead < 4 →
        refreshTurn x rank = { refreshRank made rank (!x.sameBank) with pulledIn := tset x.pulledIn rank (ahead + 1) })
    ∧ (rankQueued x rank = false → post = 0 → 4 ≤ ahead → refreshTurn x rank = made))
  ∧ (∀ (c t : Nat) (temps : List Nat) (s u : State), u = tick s t →
    let x := ddr u c
    (u.now < x.lastPass + 900000000 → exec (.retrainDue c t) s = .next u)
    ∧ (x.lastPass + 900000000 ≤ u.now → exec (.retrainDue c t) s = .next (startPass u c))
    ∧ ((x.dimms = 0 ∨ temps.length < x.dimms ∨ twiUp u 3 = false ∨ (∃ f, x.polledAt = some f ∧ u.now < f + 1000000)) →
        exec (.dimmTempPoll c temps t) s = .next u)
    ∧ (x.dimms ≠ 0 → x.dimms ≤ temps.length → twiUp u 3 = true → (∀ f, x.polledAt = some f → f + 1000000 ≤ u.now) →
        let l := (temps.take x.dimms).map (· % 256)
        let w := setDdr u c { x with polledAt := some u.now, temps := l, temp := l.foldl max 0 }
        exec (.dimmTempPoll c temps t) s
          = .next (if (l.zip x.passTemps).any (fun p => 10 ≤ max p.1 p.2 - min p.1 p.2) then startPass w c else w))
    ∧ ((u.dev.state ≠ .harvesting ∨ x.st ≠ 2) → exec (.selfRefreshEntry c t) s = .next u)
    ∧ (u.dev.state = .harvesting → x.st = 2 →
        ((x.rdq = [] ∧ x.wrq = []) → exec (.selfRefreshEntry c t) s = .next (stripesRead (setDdr u c
          { x with st := 3, leaving := false, retraining := false, openRows := [], drain := [], saved := x.lanes }) c))
        ∧ (¬(x.rdq = [] ∧ x.wrq = []) → exec (.selfRefreshEntry c t) s = .next (stripesRead (setDdr u c
          { x with st := 4, leaving := false, retraining := false }) c)))
    ∧ (let awake := (u.ddrs.ch.filter (fun p => p.2.st == 2 || p.2.st == 4)).length
       let limit := if isBig u then 4 else 2
       let soon := match u.hrv.run with
         | some r => (r.plan.take 1024).any (fun g => granChan u g == c)
             || r.issued.any (fun k => k.grans.any (fun p => granChan u p.1 == c && !k.read.contains p.1))
         | none => false
       ((u.dev.state ≠ .harvesting ∨ x.st ≠ 3 ∨ limit ≤ awake ∨ soon = false) → exec (.selfRefreshExit c t) s = .next u)
       ∧ (u.dev.state = .harvesting → x.st = 3 → awake < limit → soon = true →
          exec (.selfRefreshExit c t) s = .next (setDdr u c { x with st := 4, leaving := true }))))
  ∧ (∀ (c lane t : Nat) (ok : Bool) (s u : State), u = tick s t →
    let l := tgetD (ddr u c).lanes lane {}
    let put := fun (k : Lane) => setDdr u c { ddr u c with lanes := tset (ddr u c).lanes lane k }
    (((ddr u c).retraining = true ∨ l.pending = none) → exec (.hostDelayApply c lane ok t) s = .next u)
    ∧ (∀ r w, (ddr u c).retraining = false → l.pending = some (r, w) →
        (assisted u 5 = false → exec (.hostDelayApply c lane ok t) s = .next (put { l with pending := none }))
        ∧ (assisted u 5 = true → exec (.hostDelayApply c lane true t) s
            = .next (put { l with pending := none, rd := r, wr := w, hostSet := true }))
        ∧ (assisted u 5 = true → exec (.hostDelayApply c lane false t) s
            = .next (put { l with pending := none, rejected := true }))))
  ∧ (∀ (c t : Nat) (ces : List (Nat × Nat)) (ues : List Nat) (s u : State), u = tick s t →
    let out := fun n => cuttingOut u (fun x => x.n == n)
    (((ddr u c).scrubCut = none ∨ serving u = false ∨ (ddr u c).st ≠ 2 ∨ (∃ n, (ddr u c).scrubCut = some n ∧ out n = true)) →
        exec (.scrubChunk c ces ues t) s = .next u)
    ∧ (∀ n, (ddr u c).scrubCut = some n → serving u = true → (ddr u c).st = 2 → out n = false →
        let here := fun (l : Nat) => lineChan u l == c && localGran u l == (ddr u c).scrubAt
        let w := internalUes ((ces.filter (fun p => here p.1)).foldl (fun w p => corrected w p.1 p.2) u) (ues.filter here)
        ∃ v, exec (.scrubChunk c ces ues t) s = .next v ∧ v.mem = w.mem ∧ v.flt = w.flt ∧ (ddr v c).scrubCut = none
          ∧ (ddr v c).scrubAt = (if chanGranules w c ≤ (ddr w c).scrubAt + 1 then 0 else (ddr w c).scrubAt + 1)
          ∧ (∀ k, k ≠ c → ddr v k = ddr w k)))
  ∧ (∀ (c t : Nat) (ues : List Nat) (s u : State), u = tick s t →
    ((ddr u c).rebuild = none → exec (.tallyRebuildDone c ues t) s = .next u)
    ∧ (∀ g, (ddr u c).rebuild = some g →
        let v := internalUes u (ues.filter (fun l => lineGran l == g))
        let w := setCrc v g (granCrcOf v g)
        let w := { w with mem := { w.mem with rebuildWaits := sdel w.mem.rebuildWaits g } }
        exec (.tallyRebuildDone c ues t) s = .next (releaseRebuilt (raiseOpen (bump (setDdr w c { ddr w c with
          rebuild := w.mem.rebuildWaits.find? (fun h => granChan w h == c) }) (regAt rDdrTally c) 0 16 1) (0x045 + 8 * c)))))

/-- On a link that is up, an acknowledgement releases every frame before the expected one and clears the failure count, a NAK or a
timeout of 2 microseconds resends all that is unacknowledged and counts a failure, a frame whose CRC-8 or sequence number is
wrong is answered with a NAK. Eight failures in a row in one direction start a retrain, three within a second raise the link's
fault; a finished retrain clears the counts and sends again what was unacknowledged. A frame arrives only as the next expected
one of its type and is acknowledged: a summary frame sets or clears its region, an event frame carries a third of the harvest
bound (the layout is the model's, log entry 6), a register request or data frame counts towards the oldest access of the
bridge it belongs to, and that access ends, 1 microsecond after it began or later, once it has two of each, first in first
out; a Trellis command replies with its last access. While the link is down or retraining no frame arrives. Rests on
01_architecture.md R15, 01_architecture.md R16, 05_exposure_and_drip.md R138, 14_faults_and_events.md R373, 19_register_map.md
R480, log entries 6 and 125. -/
def Obligations.DieToDieLink : Prop :=
  (∀ (cold : Bool) (f : Word) (t : Nat) (s u : State), u = tick s t →
    let x := d2dSide u cold
    (u.d2d.up = false → exec (.d2dAck cold t) s = .next u ∧ exec (.d2dNak cold t) s = .next u
      ∧ exec (.d2dResendTimeout cold t) s = .next u ∧ exec (.d2dFrameError cold f t) s = .next u ∧ exec (.d2dRetrain t) s = .next u)
    ∧ (u.d2d.up = true →
        exec (.d2dAck cold t) s = .next (sendHeld (setSide u cold { x with
          unacked := x.unacked.dropWhile (fun f => f.seq != x.expect), fails := 0, ackAt := u.now }) cold)
        ∧ ((u.d2d.retraining = true ∨ x.unacked = []) →
            exec (.d2dNak cold t) s = .next u ∧ exec (.d2dResendTimeout cold t) s = .next u)
        ∧ (u.d2d.retraining = false → x.unacked ≠ [] →
            let w := x.unacked.foldl (fun w f => emit w (.frame cold f)) (setSide u cold { x with fails := x.fails + 1, ackAt := u.now })
            exec (.d2dNak cold t) s = .next w ∧ (x.ackAt + 2 ≤ u.now → exec (.d2dResendTimeout cold t) s = .next w))
        ∧ (u.now < x.ackAt + 2 → exec (.d2dResendTimeout cold t) s = .next u)
        ∧ (frameOk x (frameOf f) = true → exec (.d2dFrameError cold f t) s = .next u)
        ∧ (frameOk x (frameOf f) = false →
           let w := emit u (.frame (!cold) (framed { seq := x.expect, typ := 2 }))
           exec (.d2dFrameError cold f t) s = .next (if cold then { w with d2d := { w.d2d with badAt := some w.now } } else w))))
  ∧ (∀ (t : Nat) (s u : State), u = tick s t →
    let l := u.now :: u.d2d.retrains.filter (fun k => u.now ≤ k + 1000000)
    let w := { u with d2d := { u.d2d with retraining := true, retrains := l } }
    ((u.d2d.retraining = true ∨ (u.d2d.toCold.fails < 8 ∧ u.d2d.toLogic.fails < 8)) → exec (.d2dRetrain t) s = .next u)
    ∧ (u.d2d.up = true → u.d2d.retraining = false → (8 ≤ u.d2d.toCold.fails ∨ 8 ≤ u.d2d.toLogic.fails) →
        (l.length < 3 → exec (.d2dRetrain t) s = .next w) ∧ (3 ≤ l.length → exec (.d2dRetrain t) s = .next (raiseOpen w 0x000)))
    ∧ (u.d2d.retraining = false → exec (.d2dRetrainDone t) s = .next u)
    ∧ (u.d2d.retraining = true →
        let v := { u with d2d := { u.d2d with
          retraining := false, toCold := { u.d2d.toCold with fails := 0 }, toLogic := { u.d2d.toLogic with fails := 0 } } }
        let c := u.d2d.toCold.unacked.foldl (fun v f => emit v (.frame true f)) v
        exec (.d2dRetrainDone t) s
          = .next (sendHeld (sendHeld (u.d2d.toLogic.unacked.foldl (fun v f => emit v (.frame false f)) c) true) false)))
  ∧ (∀ (s : State) (cold : Bool) (typ : Nat) (f : D2dFrame) (w : State), arrive s cold typ = some (f, w) →
      s.d2d.up = true ∧ s.d2d.retraining = false ∧ f.typ = typ ∧ f.seq = (d2dSide s cold).expect ∧ f.crc.toNat = frameCrc f
      ∧ (d2dSide w cold).expect = ((d2dSide s cold).expect + 1) % 16 ∧ Out.frame (!cold) (framed { seq := f.seq, typ := 1 }) ∈ w.out)
  ∧ (∀ f : D2dFrame, frameOk { expect := (framed f).seq } (framed f) = true)
  ∧ (∀ (cold : Bool) (t : Nat) (s u : State), u = tick s t →
    (arrive u true 6 = none → exec (.summaryUpdate t) s = .next u)
    ∧ (∀ f w, arrive u true 6 = some (f, w) → exec (.summaryUpdate t) s = .next { w with drp := { w.drp with
        summary := if f.payload.getLsbD 15 then sins w.drp.summary (f.payload.toNat % 32768)
          else sdel w.drp.summary (f.payload.toNat % 32768) } })
    ∧ (arrive u true 5 = none → exec (.eventFrame t) s = .next u)
    ∧ (∀ f w, arrive u true 5 = some (f, w) →
        let v := f.payload.toNat % 16384
        (f.payload.toNat / 16384 = 0 → exec (.eventFrame t) s = .next w)
        ∧ (f.payload.toNat / 16384 = 1 → exec (.eventFrame t) s = .next { w with d2d := { w.d2d with eventHigh := v } })
        ∧ (f.payload.toNat / 16384 = 2 →
            exec (.eventFrame t) s = .next { w with d2d := { w.d2d with eventHigh := w.d2d.eventHigh * 16384 + v } })
        ∧ (f.payload.toNat / 16384 = 3 → w.hrv.run = none → exec (.eventFrame t) s = .next w)
        ∧ (∀ r, f.payload.toNat / 16384 = 3 → w.hrv.run = some r → exec (.eventFrame t) s = .next { w with hrv := { w.hrv with
            run := some { r with coldBound := some (w.d2d.eventHigh * 16384 + v) } } }))
    ∧ (arrive u true 3 = none → exec (.registerRequest t) s = .next u)
    ∧ (∀ f w, arrive u true 3 = some (f, w) →
        let v := { w with d2d := { w.d2d with
          bridge := bridgeMod w.d2d.bridge (fun b => b.reqs < 2) (fun b => { b with reqs := b.reqs + 1 }) } }
        (∀ b, w.d2d.bridge.find? (fun b => b.reqs == 1) = some b → b.write = false → exec (.registerRequest t) s
          = .next (sendFrame (sendFrame v false 4 (b.value / 65536)) false 4 (b.value % 65536)))
        ∧ ((∀ b, w.d2d.bridge.find? (fun b => b.reqs == 1) = some b → b.write = true) → exec (.registerRequest t) s = .next v))
    ∧ (arrive u cold 4 = none → exec (.registerData cold t) s = .next u)
    ∧ (∀ f w, arrive u cold 4 = some (f, w) → exec (.registerData cold t) s = .next { w with d2d := { w.d2d with
        bridge := bridgeMod w.d2d.bridge (fun b => b.write == cold && b.datas < 2) (fun b => { b with datas := b.datas + 1 }) } })
    ∧ (u.d2d.bridge = [] → exec (.coldFrameBridgeAccess t) s = .next u)
    ∧ (∀ b r, u.d2d.bridge = b :: r →
        ((b.reqs < 2 ∨ b.datas < 2 ∨ u.now < b.since + 1) → exec (.coldFrameBridgeAccess t) s = .next u)
        ∧ (2 ≤ b.reqs → 2 ≤ b.datas → b.since + 1 ≤ u.now →
            let w := { u with d2d := { u.d2d with bridge := r } }
            (b.cmd = none → b.write = true → exec (.coldFrameBridgeAccess t) s = .next (retryBridge w))
            ∧ (b.cmd = none → b.write = false →
                exec (.coldFrameBridgeAccess t) s = .next (retryBridge (emit w (.regData b.acc.path b.value))))
            ∧ (∀ id, b.cmd = some id → r.any (fun x => x.cmd == some id) = true →
                exec (.coldFrameBridgeAccess t) s = .next (retryBridge w))
            ∧ (∀ id rep, b.cmd = some id → r.any (fun x => x.cmd == some id) = false → jobOf w id = .access rep →
                exec (.coldFrameBridgeAccess t) s = .next (retryBridge (finish w id rep))))))

/-- An idle bed's clock stops and another bed's does not; a bed wakes when urgent work waits, a queue holds 16, or a draining bed
has work to steal. A finished cutting leaves its tine, counts and has its effect; a fenced tine leaves service, its cutting is
placed again as urgent or fails at its third failure, and the fault names the tine. A pair that loses lockstep is counted and
reboots, and is held down at the third mismatch within an hour; its commands are interrupted, and with both pairs down waiting
ones are refused. A host-assisted function whose watchdog has run out returns to hardware with its inputs dropped and
HA_WATCHDOG raised, and not before. The configuration record is saved when kept RW fields wait or four hours have passed. An
injection that waits past its time ends with TIMEOUT. Otherwise none of these has an effect. Rests on 01_architecture.md R20,
09_tines_and_management.md R274, 09_tines_and_management.md R276, 09_tines_and_management.md R278, 09_tines_and_management.md
R284, 09_tines_and_management.md R290, 19_register_map.md R479, 14_faults_and_events.md R394. -/
def Obligations.TinesPairsAndWatchdogs : Prop :=
  (∀ (b n t : Nat) (ues : List Nat) (s u : State), u = tick s t →
    (bedIdle u b = true → exec (.bedClockStop b t) s = .next (setBed u b { bed u b with clocked := false }))
    ∧ (bedIdle u b = false → exec (.bedClockStop b t) s = .next u)
    ∧ (let need := (List.range (nBeds u)).any (fun b => !(bed u b).urgent.isEmpty || decide (16 ≤ (bed u b).main.length)
         || ((bed u b).draining && !(bed u b).main.isEmpty))
       (need = false → exec (.bedWake t) s = .next u)
       ∧ (need = true → (runBeds u).find? (fun b => !(bed u b).clocked) = none → exec (.bedWake t) s = .next u)
       ∧ (∀ k, need = true → (runBeds u).find? (fun b => !(bed u b).clocked) = some k →
            exec (.bedWake t) s = .next (feed (setBed u k { bed u k with clocked := true }))))
    ∧ (tget u.tin.tines n = none → exec (.cuttingDone n ues t) s = .next u)
    ∧ (∀ c, tget u.tin.tines n = some c → exec (.cuttingDone n ues t) s = .next (feed (cuttingEnds { u with tin := { u.tin with
        tines := tdel u.tin.tines n, done := (u.tin.done + 1) % 2 ^ 64 } } c ues)))
    ∧ ((logicOn u = false ∨ u.tin.fenced.contains n = true ∨ 8 * nBeds u ≤ n) → exec (.tineFenced n t) s = .next u)
    ∧ (logicOn u = true → u.tin.fenced.contains n = false → n < 8 * nBeds u →
        let w := { u with tin := { u.tin with tines := tdel u.tin.tines n, fenced := sins u.tin.fenced n } }
        (tget u.tin.tines n = none → exec (.tineFenced n t) s = .next (feed (leaveBed (judgeTines (raise w 0x009 n)) (n / 8))))
        ∧ (∀ c, tget u.tin.tines n = some c →
            let v := setFld (setFld w rTinFail 28 4 c.typ) rTinFail 20 7 n
            (c.fails < 2 → exec (.tineFenced n t) s = .next (feed (leaveBed (judgeTines (raise
              (place (bump v rTinFail 8 12 1) (n / 8) { c with fails := c.fails + 1, urgent := true }) 0x009 n)) (n / 8))))
            ∧ (2 ≤ c.fails → exec (.tineFenced n t) s
                = .next (feed (leaveBed (judgeTines (raise (cuttingFails (bump v rTinFail 0 8 1) c) 0x009 n)) (n / 8)))))))
  ∧ (∀ (b : Bool) (t : Nat) (s u : State), u = tick s t →
    let x := mpPair u b
    let m := u.now :: x.mism.filter (fun k => u.now < k + 3600000000)
    ((logicOn u = false ∨ x.st ≠ 0) → exec (.mpLockstep b t) s = .next u)
    ∧ (logicOn u = true → x.st = 0 → m.length < 3 →
        let w := interruptPairs (bump (setPair (raiseOpen u 0x005) b { x with st := 1, mism := m, busy := 0 }) rMpxPair (if b then 8 else 16) 8 1)
          (fun sv => sv == (if b then Server.mb else Server.ma)) false
        exec (.mpLockstep b t) s = .next (if bothDown w then refuseWaiting (raiseOpen w 0x007) else w))
    ∧ (logicOn u = true → x.st = 0 → 3 ≤ m.length →
        let w := raiseOpen (interruptPairs (bump (setPair (raiseOpen u 0x005) b { x with st := 2, mism := m, busy := 0 })
            rMpxPair (if b then 8 else 16) 8 1)
          (fun sv => sv == (if b then Server.mb else Server.ma)) false) 0x006
        exec (.mpLockstep b t) s = .next (if bothDown w then refuseWaiting (raiseOpen w 0x007) else w)))
  ∧ (∀ (f n t : Nat) (s u : State), u = tick s t →
    ((assisted u f = false ∨ u.now < (func u f).wdAt + 1000 * (func u f).watchdog) → exec (.haWatchdog f t) s = .next u)
    ∧ (assisted u f = true → (func u f).wdAt + 1000 * (func u f).watchdog ≤ u.now → exec (.haWatchdog f t) s
        = .next (raise (dropInputs (setFunc u f { func u f with
            mode := false, pend := (func u f).pend.filter (fun p => !p.fall), reason := 3, owner := 0#16, hasOwner := false,
            fell := false }) (fun k => k == f)) 0x008 f))
    ∧ ((u.dev.state = .off ∨ u.nvm.confPending = []) → exec (.configRecordSave t) s = .next u)
    ∧ (u.dev.state ≠ .off → u.nvm.confPending ≠ [] →
        ((u.nvm.confPending.any keptRw = true ∨ u.nvm.confAt + 14400 ≤ opSecs u) →
          exec (.configRecordSave t) s = .next (saveConfig u))
        ∧ (u.nvm.confPending.any keptRw = false → opSecs u < u.nvm.confAt + 14400 → exec (.configRecordSave t) s = .next u))
    ∧ ((source u n).inject = none → exec (.injectionTimeout n t) s = .next u)
    ∧ (∀ j id sh d, (source u n).inject = some j → j.cmd = some id → jobOf u id = .inject sh d →
        (u.now < d → exec (.injectionTimeout n t) s = .next u)
        ∧ (d ≤ u.now → exec (.injectionTimeout n t) s
            = .next (endWith (setSource u n { source u n with inject := none }) id 0x0D 0))))

/-- A target that fails three polls in a row is failed, and its timing is retrained when the temperature has moved by 10. A
program acts unless the device harvests, the logic die is off or a channel's engine is held; pages missing from its unit are
fillers of a wordline that has waited 10 ms, at most 11; pages not erased raise NOT_ERASED and leave the block; else its pages
are placed. A journal page is programmed once its first record has waited 200 microseconds. An erase applies only to a free,
harvest or metadata superblock, or one queued block, that holds nothing live; blocks that failed, or have 65,535 erases, are
retired. A failed read of a placed page is raised with its place, and its granule's move source becomes poison or its block is
retired. A move commits only if the map still names its source, and begins again if its granule was written meanwhile. The
patrol retires, moves or leaves a block by what its read showed. Rotation runs every 30 days; region sizing, victim choice and
checkpoints (oldest segment first) while hosts are served, by their loops. Rests on 07_flash_backend.md R201,
07_flash_backend.md R208, 07_flash_backend.md R212, 07_flash_backend.md R214, 07_flash_backend.md R218, 07_flash_backend.md
R220, 07_flash_backend.md R223, 07_flash_backend.md R227, 07_flash_backend.md R228, 07_flash_backend.md R229,
07_flash_backend.md R233, log entry 12. -/
def Obligations.FlashEvents : Prop :=
  (∀ (tgt t : Nat) (ok : Bool) (temp : Int) (s u : State), u = tick s t →
    (tget u.ftl.targets tgt = none → exec (.targetStatusPoll tgt ok t) s = .next u ∧ exec (.flashDqRetrain tgt temp t) s = .next u)
    ∧ (∀ x, tget u.ftl.targets tgt = some x →
        (x.failed = true → exec (.targetStatusPoll tgt ok t) s = .next u
          ∧ exec (.flashDqRetrain tgt temp t) s = .next { u with ftl := { u.ftl with targets := tset u.ftl.targets tgt { x with temp := temp } } })
        ∧ (x.failed = false →
          exec (.targetStatusPoll tgt true t) s = .next { u with ftl := { u.ftl with targets := tset u.ftl.targets tgt { x with polls := 0 } } }
          ∧ (let w := { u with ftl := { u.ftl with targets := tset u.ftl.targets tgt { x with polls := x.polls + 1 } } }
             (x.polls < 2 → exec (.targetStatusPoll tgt false t) s = .next w)
             ∧ (2 ≤ x.polls → exec (.targetStatusPoll tgt false t) s = .next (failTarget w tgt)))
          ∧ ((temp - x.trainTemp).natAbs < 10 → exec (.flashDqRetrain tgt temp t) s
              = .next { u with ftl := { u.ftl with targets := tset u.ftl.targets tgt { x with temp := temp } } })
          ∧ (10 ≤ (temp - x.trainTemp).natAbs → exec (.flashDqRetrain tgt temp t) s
              = .next { u with ftl := { u.ftl with targets := tset u.ftl.targets tgt { x with temp := temp, trainTemp := temp } } }))))
  ∧ (∀ (ws : List (Nat × Nat)) (ok bad : Bool) (n t : Nat) (s u : State), u = tick s t →
    ((u.dev.state = .harvesting ∨ logicOn u = false ∨ ws.any (fun w => engineHeld u (faChan w.2)) = true) →
      exec (.flashProgramDone ws ok t) s = .next u)
    ∧ (u.dev.state ≠ .harvesting → logicOn u = true → ws.any (fun w => engineHeld u (faChan w.2)) = false →
        exec (.flashProgramDone ws ok t) s = .next (programPages u ws ok))
    ∧ (u.ftl.progs.any (fun p => p.addr.isNone && decide (p.since + 10000 ≤ u.now)) = false →
        exec (.wordlineFillTimeout n t) s = .next u)
    ∧ (u.ftl.progs.any (fun p => p.addr.isNone && decide (p.since + 10000 ≤ u.now)) = true →
        exec (.wordlineFillTimeout n t) s = .next { u with ftl := { u.ftl with fill := max u.ftl.fill (min n 11) } })
    ∧ ((u.dev.state = .harvesting ∨ logicOn u = false ∨ u.ftl.jbuf = [] ∨ (∃ a, u.ftl.jbufAt = some a ∧ u.now < a + 200)
        ∨ u.ftl.jbufAt = none) → exec (.journalPageTimeout bad t) s = .next u)
    ∧ (∀ a, u.dev.state ≠ .harvesting → logicOn u = true → u.ftl.jbuf ≠ [] → u.ftl.jbufAt = some a → a + 200 ≤ u.now →
        exec (.journalPageTimeout false t) s = .next (programJournal u)
        ∧ exec (.journalPageTimeout true t) s = .next (programJournal (metaFailed u))))
  ∧ (∀ (s : State) (ws : List (Nat × Nat)) (ok : Bool),
    (programWork s ws = [] → programPages s ws ok = s)
    ∧ (∀ g a r, programWork s ws = (g, a) :: r →
        let pages := programUnit s a (((s.ftl.progs.find? (fun p => p.gran == g && p.addr.isNone)).map (·.why)).getD .drip)
        let fill := pages.filter (fun x => !((g, a) :: r).any (fun w => w.2 == x))
        (s.ftl.fill < fill.length → programPages s ws ok = s)
        ∧ (fill.length ≤ s.ftl.fill → pages.all (pageErased s) = false → programPages s ws ok
          = ((g, a) :: r).foldl (fun w p => flashProgFail w p.1) (moveAll
              (let w := bump (raiseOpen s (0x0C1 + 4 * faChan a)) (regAt rFceErr (faChan a)) 8 8 1
               setBlock w (blkKey a) { block w (blkKey a) with cleared := true, queued := true }) (fun x => blkKey x == blkKey a)))
        ∧ (fill.length ≤ s.ftl.fill → pages.all (pageErased s) = true → ok = true → programPages s ws ok
          = (let w := fill.foldl fillerDone (((g, a) :: r).foldl (fun w p => pageDone w p.1 p.2) s)
             let w := { w with ftl := { w.ftl with fill := if fill = [] then w.ftl.fill else 0 } }
             takePages w (sbOf w a) pages.length))))
  ∧ (∀ (k t : Nat) (failed : List Nat) (s u : State), u = tick s t →
    let x := sb u k
    ((mayErase u k = false ∨ (members u k).any (fun tk => engineHeld u (tk / 16)) = true) →
      exec (.flashEraseDone k none failed t) s = .next u)
    ∧ (mayErase u k = true → (members u k).any (fun tk => engineHeld u (tk / 16)) = false →
        exec (.flashEraseDone k none failed t) s = .next (reportCap ((members u k).foldl (fun w tk => memberErased w k failed tk)
          (setSb u k { x with clean := true, used := 0, erases := min 65535 (x.erases + 1) }))))
    ∧ (mayErase u k = true → tget u.ftl.sbs k ≠ none ∧ liveOf u k = []
        ∧ (x.role = .tlcFree ∨ x.role = .harvest ∨ x.role = .metadata) ∧ (x.role ≠ .metadata → x.clean = false))
    ∧ (∀ tk, (mayEraseBlock u (tk * 8192 + memberBlock u tk k) = false ∨ engineHeld u (tk / 16) = true) →
        exec (.flashEraseDone k (some tk) failed t) s = .next u)
    ∧ (∀ tk, mayEraseBlock u (tk * 8192 + memberBlock u tk k) = true → engineHeld u (tk / 16) = false →
        exec (.flashEraseDone k (some tk) failed t) s = .next (reportCap (memberErased u k failed tk)))
    ∧ (∀ tk, let b := tk * 8192 + memberBlock u tk k
        (failed.contains tk = true → memberErased u k failed tk = retireBlock (bump u (regAt rFceErr (tk / 16)) 16 8 1) b)
        ∧ (failed.contains tk = false → (block (blockErased u b) b).erases ≠ 65535 → memberErased u k failed tk = blockErased u b)
        ∧ (failed.contains tk = false → (block (blockErased u b) b).erases = 65535 →
            memberErased u k failed tk = retireBlock (blockErased u b) b)))
  ∧ (∀ (a t : Nat) (r : FlashRead) (s u : State), u = tick s t →
    let e := readAt u a r
    let w := judgeDisturb (countRead u a r.effort e) a
    let held := engineHeld u (faChan a)
    ((tget u.ftl.pages a = none ∨ held = true) → exec (.flashReadDone a r t) s = .next u)
    ∧ (tget u.ftl.pages a ≠ none → held = false → readFailed e = false → exec (.flashReadDone a r t) s
        = .next { w with ftl := { w.ftl with progs := w.ftl.progs.map (fun p =>
            if p.why == .move && p.addr.isNone && !p.dram && p.src.addr == a then { p with readOk := true } else p) } })
    ∧ (tget u.ftl.pages a ≠ none → held = false → readFailed e = true →
        let w := raise w (0x0C0 + 4 * faChan a) (ueDetail a)
        let waits := w.ftl.progs.find? (fun p => p.why == .move && p.addr.isNone && !p.dram && p.src.addr == a)
        (waits = none → exec (.flashReadDone a r t) s = .next (retireBlock w (blkKey a)))
        ∧ (∀ p, waits = some p →
            let v := changeMap w p.gran { mapEnt w p.gran with kind := 3 }
            exec (.flashReadDone a r t) s = .next (afterMove { v with ftl := { v.ftl with
              progs := v.ftl.progs.filter (fun q => !(q.gran == p.gran && q.why == .move)) } } a)))
    ∧ ((serving u = false ∨ tget u.ftl.pages a = none ∨ loopsRun u true = false) → exec (.patrolSchedule a r t) s = .next u)
    ∧ (serving u = true → tget u.ftl.pages a ≠ none → loopsRun u true = true →
        let sticky := (block w (blkKey a)).sticky
        (readFailed e = true → exec (.patrolSchedule a r t) s
            = .next (retireBlock (raise w (0x0C0 + 4 * faChan a) (ueDetail a)) (blkKey a)))
        ∧ (readFailed e = false → sticky = 15 → exec (.patrolSchedule a r t) s = .next (retireBlock w (blkKey a)))
        ∧ (readFailed e = false → sticky ≠ 15 → (2 ≤ r.effort ∨ 3 ≤ sticky ∨ tooOld w a = true) → exec (.patrolSchedule a r t) s
            = .next (moveAll (setBlock w (blkKey a) { block w (blkKey a) with queued := true }) (fun x => blkKey x == blkKey a)))
        ∧ (readFailed e = false → r.effort < 2 → sticky < 3 → tooOld w a = false → exec (.patrolSchedule a r t) s = .next w)))
  ∧ (∀ (g t : Nat) (s u : State), u = tick s t →
    let ready := u.ftl.progs.find? (fun p => p.gran == g && p.why == .move && p.seq.isSome)
    (ready = none → exec (.moveCommit g t) s = .next u)
    ∧ (∀ p, ready = some p →
        let w := { u with ftl := { u.ftl with
          progs := u.ftl.progs.filter (fun q => !(q.gran == g && q.why == .move && q.seq.isSome)) } }
        let stands := journal w 1 g (entryCode (mapEnt u g))
        (mapEnt u g ≠ p.src → exec (.moveCommit g t) s = .next stands)
        ∧ (mapEnt u g = p.src → p.dram = true → p.moving = false → exec (.moveCommit g t) s = .next (issueMove stands g))
        ∧ (mapEnt u g = p.src → (p.dram = false ∨ p.moving = true) →
            let a := p.addr.getD 0
            exec (.moveCommit g t) s = .next (afterMove (setMap w g {
              kind := if (sb u (sbOf u a)).role = .folding then 2 else 1, gen := p.page.gen % 256, addr := a }) p.src.addr))))
  ∧ (∀ (seg t : Nat) (bad : Bool) (s u : State), u = tick s t →
    (serving u = false → exec (.gcVictimChoice t) s = .next u ∧ exec (.harvestRotation t) s = .next u
      ∧ exec (.harvestRegionSizing t) s = .next u ∧ exec (.checkpointWrite seg bad t) s = .next u)
    ∧ (opSecs u < u.ftl.rotatedAt + 2592000 → exec (.harvestRotation t) s = .next u)
    ∧ ((u.ftl.sbs = [] ∨ loopDue u false 5 1000000 10000000 = false) → exec (.harvestRegionSizing t) s = .next u)
    ∧ (serving u = true → u.ftl.sbs ≠ [] → loopDue u false 5 1000000 10000000 = true →
        exec (.harvestRegionSizing t) s = .next (sizeRegion (loopRan u 5)))
    ∧ (serving u = true → u.ftl.rotatedAt + 2592000 ≤ opSecs u → ∃ w, exec (.harvestRotation t) s = .next w
        ∧ w.ftl.rotatedAt = opSecs u ∧ w.ftl.map = u.ftl.map ∧ w.mem = u.mem)
    ∧ (oldestSeg u ≠ some seg → exec (.checkpointWrite seg bad t) s = .next u)
    ∧ (serving u = true → oldestSeg u = some seg → exec (.checkpointWrite seg false t) s = .next (writeSeg u seg)
        ∧ exec (.checkpointWrite seg true t) s = .next (writeSeg (metaFailed u) seg))
    ∧ (serving u = true →
        let run := if u.ftl.gc then decide (freeSb u < gcLow u + 8) else decide (freeSb u < gcLow u)
        let due := loopDue u true 2 10000 (if 2 * freeSb u < gcLow u then 10000 else 100000)
        let v := { u with ftl := { u.ftl with gc := run } }
        let v := if due then loopRan v 2 else v
        let w := if run && v.ftl.victim.isNone && (due || bothDown v) then (match gcVictim v with
            | some k =>
              let x := { v with ftl := { v.ftl with victim := some k } }
              if (liveOf x k).isEmpty then freeSuper x k else x
            | none => v) else v
        let y := moveWork (if due then levelWear w else w)
        ((freeSb y ≠ 0 ∨ y.ftl.sbs = []) → exec (.gcVictimChoice t) s = .next y)
        ∧ (freeSb y = 0 → y.ftl.sbs ≠ [] → exec (.gcVictimChoice t) s = .next
            (((y.ftl.progs.filter (fun p => p.addr.isNone && (p.why == .drip || p.why == .flush))).map (fun p => (p.gran, p.n))).foldl
              (fun z p => dripFail z p.1 p.2) (raiseOpen y 0x141)))))

/-- Sublinks that may train start when a signal is looked for. Each finished stage moves a sublink of the device from its state to
the next, and no sublink from another; lanes lock where the eight of one peer sublink are all there, and their order is kept.
At AUTH a link without a session sends HELLO with this unit's serial, group, part, major version, next session ID and a fresh
nonce. A finished AUTH joins the open session with its counters and credit at zero; without one it comes UP alone on an
unpaired link, opens the session after the peer's proof, and otherwise notes why not (0x04 where no check failed). A stage
that passes its bound (200, 10, 1 and 100 ms) returns to DOWN; 100 ms later the sublink trains again if it may; a held one
returns to DOWN after 10 s. A sublink in service without a good flit for 4 microseconds raises 0x160 + its number and
retrains. Rests on 08_twin_mirroring.md R241, 08_twin_mirroring.md R242, 08_twin_mirroring.md R247, 08_twin_mirroring.md R252,
log entries 13 and 54. -/
def Obligations.SublinksTrainAndAreLost : Prop :=
  ∀ (k pe t : Nat) (s u : State), u = tick s t →
    let x := subl u k
    let v := startTrainings u
    let go := fun (w : State) (n : Nat) => judgeLink (modSub w k (fun y => { y with st := n, stAt := w.now, goodAt := w.now }))
    ((subl v k).st = 1 → k < nSub v → exec (.sublinkSignalDetect k t) s = .next (go v 2))
    ∧ ((¬ (subl v k).st = 1 ∨ nSub v ≤ k) → exec (.sublinkSignalDetect k t) s = .next v)
    ∧ (x.st = 2 → k < nSub u → exec (.sublinkEqDone k t) s = .next (go u 3))
    ∧ ((¬ x.st = 2 ∨ nSub u ≤ k) → exec (.sublinkEqDone k t) s = .next u)
    ∧ (∀ lanes : List (Nat × Nat × Bool),
        let lock := lanes.length = 8 ∧ (∀ p ∈ lanes, p.1 = (lanes.headD (0, 0, false)).1 ∧ p.1 < 4) ∧ ∀ i < 8, ∃ p ∈ lanes, p.2.1 = i
        (x.st = 3 → k < nSub u → lock → exec (.sublinkAlignLock k lanes t) s = .next (go (modSub u k (fun y =>
            { y with order := lanes.map (·.2), peerSub := (lanes.headD (0, 0, false)).1 })) 4))
        ∧ ((¬ x.st = 3 ∨ nSub u ≤ k ∨ ¬lock) → exec (.sublinkAlignLock k lanes t) s = .next u))
    ∧ ((¬ x.st = 4 ∨ nSub u ≤ k) → exec (.sublinkSyncDone k t) s = .next u)
    ∧ (x.st = 4 → k < nSub u →
        let w := go u 5
        let m : HelloMsg := { serial := Config.serial.toNat, group := Config.groupId.toNat, part := w.fus.part, major := myMajor w,
                              sessNext := w.exl.sessNext, nonce := padTo (Config.helloNonce (drawn w)) 16 }
        (w.exl.session = true → exec (.sublinkSyncDone k t) s = .next w)
        ∧ (w.exl.session = false → exec (.sublinkSyncDone k t) s = .next
            (sendMsg { drew w with exl := { w.exl with mine := m, proved := false } } k 0x10 ((helloBytes m).map (·.toNat)))))
    ∧ ((¬ x.st = 5 ∨ nSub u ≤ k) → exec (.sublinkAuthDone k pe t) s = .next u)
    ∧ (x.st = 5 → k < nSub u → u.exl.session = true → exec (.sublinkAuthDone k pe t) s = .next (grantCredits (advanceSub
        (modSub u k (fun y => { y with
          credit := 0, granted := 0, given := false, rxNewKey := false, txCount := 0, rxCount := 0,
          txKey := (match u.exl.rekey with | some (id, _) => id | none => u.exl.sessionId.toNat) })) k 5 6)))
    ∧ (x.st = 5 → k < nSub u → u.exl.session = false →
        let w := { u with exl := { u.exl with follow := (u.exl.epoch : Int) - (pe : Int) } }
        (u.exl.hello = none → exec (.sublinkAuthDone k pe t) s = .next w)
        ∧ (∀ m, u.exl.hello = some m →
            ((u.exl.paired = false ∨ u.exl.pairWait.isSome = true) → exec (.sublinkAuthDone k pe t) s = .next (advanceSub w k 5 6))
            ∧ (u.exl.paired = true → u.exl.pairWait = none →
              (helloError w m = 0 → u.exl.proved = true →
                exec (.sublinkAuthDone k pe t) s = .next (openSession (advanceSub w k 5 6)))
              ∧ (helloError w m = 0 → u.exl.proved = false →
                exec (.sublinkAuthDone k pe t) s = .next { w with exl := { w.exl with err := 4 } })
              ∧ (helloError w m ≠ 0 →
                exec (.sublinkAuthDone k pe t) s = .next { w with exl := { w.exl with err := helloError w m } }))))
    ∧ (let bound := match x.st with | 2 => 200000 | 3 => 10000 | 4 => 1000 | _ => 100000
       ((x.st < 2 ∨ 5 < x.st ∨ nSub u ≤ k ∨ u.now < x.stAt + bound ∨ (x.st = 5 ∧ u.exl.err = 5)) →
          exec (.sublinkStateTimeout k t) s = .next u)
       ∧ (2 ≤ x.st → x.st < 5 → k < nSub u → x.stAt + bound ≤ u.now → exec (.sublinkStateTimeout k t) s = .next (downSub u k))
       ∧ (x.st = 5 → k < nSub u → x.stAt + bound ≤ u.now → u.exl.err ≠ 5 →
          (u.exl.paired = true ∧ u.exl.session = false ∧ u.exl.proved = false ∧ u.exl.hello.isSome = true ∧ u.exl.err = 0 →
            exec (.sublinkStateTimeout k t) s = .next (downSub { u with exl := { u.exl with err := 4 } } k))
          ∧ ((u.exl.paired = false ∨ u.exl.session = true ∨ u.exl.proved = true ∨ u.exl.hello = none ∨ u.exl.err ≠ 0) →
            exec (.sublinkStateTimeout k t) s = .next (downSub u k))))
    ∧ ((x.st ≠ 0 ∨ x.waitRetrain = false ∨ u.now < x.stAt + 100000) → exec (.sublinkRetrainStart k t) s = .next u)
    ∧ (x.st = 0 → x.waitRetrain = true → x.stAt + 100000 ≤ u.now →
        (mayTrain u k = true → exec (.sublinkRetrainStart k t) s = .next (trainSub u k))
        ∧ (mayTrain u k = false →
            exec (.sublinkRetrainStart k t) s = .next (modSub u k (fun y => { y with waitRetrain := false }))))
    ∧ ((x.st ≠ 7 ∨ u.now < x.stAt + 10000000) → exec (.sublinkHoldEnd k t) s = .next u)
    ∧ (x.st = 7 → x.stAt + 10000000 ≤ u.now → exec (.sublinkHoldEnd k t) s
        = .next (judgeLink (modSub u k (fun y => { y with st := 0, stAt := u.now, waitRetrain := false }))))
    ∧ ((x.st ≠ 6 ∨ u.now < x.goodAt + 4) → exec (.sublinkLost k t) s = .next u)
    ∧ (x.st = 6 → x.goodAt + 4 ≤ u.now → exec (.sublinkLost k t) s = .next (loseSub (raiseOpen u (0x160 + k)) k))

/-- A flit is taken only on a configured unit, on a sublink in AUTH or UP, with its CRC-32 good and the SEQ expected; a flit whose
CRC fails is answered with NAK; the next SEQ follows modulo 4,096 and 64 good flits are acknowledged; a gap is answered with
NAK and a duplicate silently dropped. Of the messages, all but HELLO and PROOF are held in the sublink's group while a session
is open; without a session only SPDM acts. A MAC flit whose tag verifies empties the group, acknowledges it and lets its items
act in order; one whose tag fails discards the group. An ACK frees the flits through its SEQ and lets waiting ones go, a NAK
those before it and resends the rest, a timeout of 5 microseconds resends all, and the eighth replay without progress loses
the sublink. Rests on 08_twin_mirroring.md R242, 08_twin_mirroring.md R243, 08_twin_mirroring.md R244, 08_twin_mirroring.md
R245, 08_twin_mirroring.md R246, 08_twin_mirroring.md R247, 08_twin_mirroring.md R249, log entry 13. -/
def Obligations.FlitsAreReplayedAndGroupsVerified : Prop :=
  (∀ (typ seq : Nat) (body : List Byte) (f : FlitIn),
    let head := le (fld typ 12 4 + fld seq 0 12) 2 ++ padTo body 250
    flitBytes typ seq body = head ++ le (crc32 head) 4
    ∧ (flitGood typ { f with seq := seq, body := body } = true ↔ f.crc = BitVec.ofNat 32 (crc32 head)))
  ∧ (∀ (s : State) (typ : Nat) (f : FlitIn), let x := subl s f.sub
    let open_ := f.sub < nSub s ∧ (x.st = 5 ∨ x.st = 6) ∧ logicOn s = true
    let c := countFec s f.sub f.fec
    let v := modSub c f.sub (fun x => { x with goodAt := s.now })
    let w := modSub v f.sub (fun x => { x with expect := (x.expect + 1) % 4096, rxCount := x.rxCount + 1, good := x.good + 1, skipping := false })
    (¬ open_ → takeSeq s typ f = (s, false))
    ∧ (open_ → flitGood typ f = false → takeSeq s typ f = (nak c f.sub, false))
    ∧ (open_ → flitGood typ f = true → f.seq = x.expect → x.good < 63 → takeSeq s typ f = (w, true))
    ∧ (open_ → flitGood typ f = true → f.seq = x.expect → 63 ≤ x.good → takeSeq s typ f = (ack w f.sub, true))
    ∧ (open_ → flitGood typ f = true → f.seq ≠ x.expect →
        ((x.skipping = true ∨ (x.expect + 4096 - f.seq % 4096) % 4096 ≤ 2048) → takeSeq s typ f = (v, false))
        ∧ (x.skipping = false → 2048 < (x.expect + 4096 - f.seq % 4096) % 4096 → takeSeq s typ f = (nak v f.sub, false))))
  ∧ (∀ (r : RecIn) (a b c d : Nat) (i : Int) (l : List Nat) (q : List (Nat × Nat × Nat)) (y : List Byte) (m : TableMsg) (h : HelloMsg),
    let rec_ : MirRec := { line := r.line, data := r.data, enables := r.enables, poison := r.poison, p := r.p, slice := sliceOf r.line }
    let held : List ((FlitIn → Nat → Instr) × LinkItem) := [
      (fun f t => .record f r t, .record rec_), (fun f t => .accept f a b t, .accept a b), (fun f t => .credit f a b t, .credit a b),
      (fun f t => .room f i a b l t, .room i a b l), (fun f t => .clean f l t, .clean l), (fun f t => .epoch f a b t, .epoch a b),
      (fun f t => .cutMark f a t, .cutMark a), (fun f t => .tally f a b c t, .tally a b c), (fun f t => .crcBlock f a l t, .crcBlock a l),
      (fun f t => .harvest f a b c t, .harvest a b c), (fun f t => .harvestDone f a t, .harvestDone a),
      (fun f t => .rehome f a b t, .rehome a b), (fun f t => .rekey f a t, .rekey a), (fun f t => .keySwitch f a t, .keySwitch a),
      (fun f t => .table f m t, .table m), (fun f t => .commit f a b c d t, .commit a b c d), (fun f t => .spdm f a y t, .spdm a y),
      (fun f t => .flush f a b c t, .flush a b c), (fun f t => .flushed f a b t, .flushed a b), (fun f t => .state f q t, .state q),
      (fun f t => .compare f a b c t, .compare a b c)]
    ∀ (f : FlitIn) (t : Nat) (s w : State) (ok : Bool),
      (∀ p ∈ held, takeSeq (tick s t) (flitTyp p.2) f = (w, ok) →
        (ok = false → exec (p.1 f t) s = .next w)
        ∧ (ok = true → w.exl.session = true → exec (p.1 f t) s = .next (modSub w f.sub (fun x => { x with group := x.group ++ [p.2] })))
        ∧ (ok = true → w.exl.session = false → (∀ g z, p.2 ≠ .spdm g z) → exec (p.1 f t) s = .next w))
      ∧ (takeSeq (tick s t) 2 f = (w, ok) →
        (ok = true → w.exl.session = false → exec (.spdm f a y t) s = .next (onSpdm w a y))
        ∧ ((ok = false ∨ w.exl.session = true) → exec (.hello f h t) s = .next w)
        ∧ (ok = true → w.exl.session = false → exec (.hello f h t) s = .next (onHello w f.sub h))
        ∧ (ok = false → exec (.proof f y t) s = .next w)
        ∧ (ok = true → exec (.proof f y t) s = .next (onProof w y)))
      ∧ (takeSeq (tick s t) 3 f = (w, ok) →
        (∀ good, (ok = false ∨ w.exl.session = false) → exec (.macFlit f good t) s = .next w)
        ∧ (ok = true → w.exl.session = true → exec (.macFlit f false t) s = .next (authFail w f.sub)
          ∧ exec (.macFlit f true t) s = .next ((subl w f.sub).group.foldl
              (fun v j => if (subl v f.sub).st == 6 && v.exl.session then onItem v f.sub j else v)
              (ack (modSub w f.sub (fun x => { x with group := [] })) f.sub)))))
  ∧ (∀ (k seq t : Nat) (s u : State), u = tick s t →
    let x := subl u k
    let has := x.replay.any (fun f => f.1 == seq)
    let pump := fun (w : State) => pumpFlits w k (subl w k).txq.length
    ((nSub u ≤ k ∨ ¬ (x.st = 5 ∨ x.st = 6)) → exec (.flitCrcFailure k t) s = .next u)
    ∧ (k < nSub u → (x.st = 5 ∨ x.st = 6) → exec (.flitCrcFailure k t) s = .next
        (emit (modSub u k (fun x => { x with skipping := true })) (.linkAck k false x.expect)))
    ∧ (has = false → exec (.linkAck k seq t) s = .next u)
    ∧ (has = true → exec (.linkAck k seq t) s = .next (pumpFlits (modSub u k (fun x => { x with
        replay := (x.replay.dropWhile (fun f => f.1 != seq)).drop 1, replays := 0, ackAt := u.now })) k x.txq.length))
    ∧ (nSub u ≤ k → exec (.linkNak k seq t) s = .next u)
    ∧ (k < nSub u →
        let v := bump u rExlReplay 16 16 1
        let l := x.replay.dropWhile (fun f => f.1 != seq)
        (has = false → exec (.linkNak k seq t) s = .next v)
        ∧ (has = true → exec (.linkNak k seq t) s = .next (pump (resendSub
            (modSub v k (fun x => { x with replay := l, replays := if l.length == x.replay.length then x.replays else 0 })) k))))
    ∧ ((x.replay = [] ∨ nSub u ≤ k ∨ u.now < x.ackAt + 5) → exec (.replayTimeout k t) s = .next u)
    ∧ (x.replay ≠ [] → k < nSub u → x.ackAt + 5 ≤ u.now → exec (.replayTimeout k t) s = .next (resendSub u k)))
  ∧ (∀ (s : State) (k : Nat),
    let l := (subl s k).replay
    let w := l.foldl (fun v f => emit v (.flit k f.2))
      (modSub (bump s rExlReplay 0 16 l.length) k (fun x => { x with replays := x.replays + 1, ackAt := s.now }))
    ((subl s k).replays < 7 → resendSub s k = w) ∧ (7 ≤ (subl s k).replays → resendSub s k = loseSub (raiseOpen w (0x160 + k)) k))

/-- Taken in a session, each of the twenty messages completes by joining its sublink's group, and acts (onItem) at the MAC flit
that verifies the group. A record after the cut has no effect, one without credit or outside the mirrored allotments the peer
serves is a protocol error; another is taken from the credit, queued and answered with ACCEPT. ACCEPT or REHOME of records
never sent, an index or list outside its range, an unknown commit phase are protocol errors: the link goes down with ERR_CODE
0x07 and its fault. ACCEPT frees the records through its number; CREDIT adds credit; REHOME begins the records again; ROOM
sets the peer's room and stage; CLEAN clears granules; the follower alone slews to EPOCH; CUT_MARK marks the records before
it; TALLY fills its comparison; CRC_BLOCK queues granules that differ for resync; COMPARE is kept once and only for an epoch
to come; HARVEST notes the peer's cut; HARVEST_DONE its seal; REKEY is taken unless one runs; KEY_SWITCH marks the peer's
direction; TABLE drafts are kept; COMMIT phase 0 is prepared, phase 3 aborts this unit's open exchange of that ID; FLUSH
starts the drips asked for and FLUSHED counts towards its command; STATE within 22 entries is taken in. Rests on
06_harvest_and_replant.md R167, 08_twin_mirroring.md R248, 08_twin_mirroring.md R252, 08_twin_mirroring.md R253,
08_twin_mirroring.md R254, 08_twin_mirroring.md R255, 08_twin_mirroring.md R256, 08_twin_mirroring.md R257,
08_twin_mirroring.md R258, 08_twin_mirroring.md R260, 08_twin_mirroring.md R261, log entries 50 and 51. -/
def Obligations.LinkMessagesAct : Prop :=
  ∀ (s : State) (k : Nat),
    (∀ (f : FlitIn) (i : Int) (a b c d : Nat) (l : List Nat) (q : List (Nat × Nat × Nat)) (r : RecIn) (m : TableMsg) (t : Nat) (w : State),
      let hold := fun (x : LinkItem) => Host.Outcome.next (modSub w f.sub (fun y => { y with group := y.group ++ [x] }))
      let rec_ : MirRec := { line := r.line, data := r.data, enables := r.enables, poison := r.poison, p := r.p, slice := sliceOf r.line }
      w.exl.session = true →
      (takeSeq (tick s t) 1 f = (w, true) → exec (.record f r t) s = hold (.record rec_))
      ∧ (takeSeq (tick s t) 2 f = (w, true) →
          exec (.accept f a b t) s = hold (.accept a b) ∧ exec (.credit f a b t) s = hold (.credit a b)
          ∧ exec (.room f i a b l t) s = hold (.room i a b l) ∧ exec (.clean f l t) s = hold (.clean l)
          ∧ exec (.epoch f a b t) s = hold (.epoch a b) ∧ exec (.cutMark f a t) s = hold (.cutMark a)
          ∧ exec (.tally f a b c t) s = hold (.tally a b c) ∧ exec (.crcBlock f a l t) s = hold (.crcBlock a l)
          ∧ exec (.harvest f a b c t) s = hold (.harvest a b c) ∧ exec (.harvestDone f a t) s = hold (.harvestDone a)
          ∧ exec (.rehome f a b t) s = hold (.rehome a b) ∧ exec (.rekey f a t) s = hold (.rekey a)
          ∧ exec (.keySwitch f a t) s = hold (.keySwitch a) ∧ exec (.table f m t) s = hold (.table m)
          ∧ exec (.commit f a b c d t) s = hold (.commit a b c d) ∧ exec (.flush f a b c t) s = hold (.flush a b c)
          ∧ exec (.flushed f a b t) s = hold (.flushed a b) ∧ exec (.state f q t) s = hold (.state q)
          ∧ exec (.compare f a b c t) s = hold (.compare a b c)))
    ∧ (∀ (f : FlitIn) (i : LinkItem) (t : Nat) (w v : State), takeSeq (tick s t) 3 f = (w, true) → w.exl.session = true →
        (subl w f.sub).group = [i] → v = ack (modSub w f.sub (fun y => { y with group := [] })) f.sub → (subl v f.sub).st = 6 →
        v.exl.session = true → exec (.macFlit f true t) s = .next (onItem v f.sub i))
    ∧ protocolError s = linkDown { raiseOpen s 0x166 with exl := { (raiseOpen s 0x166).exl with err := 7 } }
    ∧ (∀ r : MirRec,
        (s.ldg.closed = true → onItem s k (.record r) = s)
        ∧ (s.ldg.closed = false → ((subl s k).granted = 0 ∨ recordInside s r = false) → onItem s k (.record r) = protocolError s)
        ∧ (s.ldg.closed = false → (subl s k).granted ≠ 0 → recordInside s r = true →
            let v := modSub s k (fun x => { x with accepted := x.accepted + 1, granted := x.granted - 1, waiting := x.waiting ++ [r] })
            let w := sendMsg { v with exl := { v.exl with rxBytes := (v.exl.rxBytes + 250) % 2 ^ 64 } } k 0x01 [k, (subl v k).accepted]
            onItem s k (.record r) = judgeTake (capture (judgeHeld (drainSub w k (subl w k).waiting.length)))))
    ∧ (∀ j n, ((nSub s ≤ j ∨ (subl s j).sent < n) → onItem s k (.accept j n) = protocolError s ∧ onItem s k (.rehome j n) = protocolError s)
        ∧ (j < nSub s → n ≤ (subl s j).sent →
            let v := modSub s j (fun x => { x with acked := max x.acked n, unacc := x.unacc.filter (fun r => n < r.serial) })
            onItem s k (.accept j n) = completeReady { v with exl := { v.exl with withheld := v.exl.withheld.map (fun w => match w.sent with
              | some (i, m) => if i == j && m ≤ n then { w with accepted := true } else w
              | none => w) } })
        ∧ (j < nSub s → n ≤ (subl s j).sent →
            let v := modSub (onItem s k (.accept j n)) j (fun x => { x with rehome := true, sent := n, credit := 0, pSent := x.pSent.filter (· ≤ n) })
            onItem s k (.rehome j n) = retryHeld (rehomePump v (subl v j).unacc.length)))
    ∧ (∀ j n, (nSub s ≤ j → onItem s k (.credit j n) = protocolError s)
        ∧ (j < nSub s →
            let v := modSub s j (fun x => { x with credit := x.credit + n, first := true })
            onItem s k (.credit j n) = retryHeld (rehomePump v (v.exl.subs.foldl (fun m p => m + p.2.unacc.length) 0))))
    ∧ (∀ (room : Int) (st adm : Nat) (th : List Nat),
        let subs := s.exl.subs.map (fun (p : Nat × Sublink) => (p.1, { p.2 with pSent := p.2.pSent.filter (fun m => th.getD p.1 0 < m) }))
        onItem s k (.room room st adm th) = retryHeld { s with
          exl := { s.exl with subs := subs, room := room - (subs.foldl (fun m p => m + p.2.pSent.length) 0 : Nat), peerStage := st },
          drp := { s.drp with twinBound := st == 4 } })
    ∧ (∀ gs, ((gs = [] ∨ 60 < gs.length) → onItem s k (.clean gs) = protocolError s)
        ∧ (gs ≠ [] → gs.length ≤ 60 → onItem s k (.clean gs) = { s with exl := { s.exl with twinDirty := gs.foldl sdel s.exl.twinDirty } }))
    ∧ (∀ e ns, (leads s = true → onItem s k (.epoch e ns) = s)
        ∧ (leads s = false → onItem s k (.epoch e ns) = { s with exl := { s.exl with follow := (s.exl.epoch : Int) - (e : Int) } }))
    ∧ (∀ e, onItem s k (.cutMark e) = capture (modSub s k (fun x => { x with marked := some e, ahead := x.waiting.length })))
    ∧ (∀ e r v, onItem s k (.tally e r v) = judgeCompares { s with exl := { s.exl with compares := s.exl.compares.map (fun c =>
        if c.epoch == e then { c with peer := tset c.peer r (BitVec.ofNat 64 v) } else c) } })
    ∧ (∀ g l, ((l = [] ∨ 30 < l.length) → onItem s k (.crcBlock g l) = protocolError s)
        ∧ (l ≠ [] → l.length ≤ 30 →
            let gs := ((List.range l.length).map (g + ·)).filter (fun x =>
              l.getD (x - g) 0 != granCrc s x && (match granAllot s x with | some id => sourceOf s id == 1 | none => false))
            onItem s k (.crcBlock g l) = resyncPump { s with exl := { s.exl with resyncQ := gs.foldl sins s.exl.resyncQ } }
              (gs.foldl sins s.exl.resyncQ).length))
    ∧ (∀ c j n, (nSub s ≤ j → onItem s k (.harvest c j n) = protocolError s)
        ∧ (j < nSub s → s.ldg.closed = true → onItem s k (.harvest c j n) = s)
        ∧ (j < nSub s → s.ldg.closed = false →
            let v := modSub s j (fun x => { x with through := some n })
            onItem s k (.harvest c j n)
              = retryHeld (judgeTake (judgeService (releaseWithheld { v with exl := { v.exl with peerHarvest := true } })))))
    ∧ (∀ n, onItem s k (.harvestDone n) = { s with exl := { s.exl with peerSeal := some n } })
    ∧ (∀ id, (s.exl.rekey ≠ none → onItem s k (.rekey id) = s)
        ∧ (s.exl.rekey = none → onItem s k (.rekey id)
            = switchKeys { s with exl := { s.exl with rekey := some (id, s.now), sessNext := max s.exl.sessNext (id + 1) } } id))
    ∧ (∀ id, onItem s k (.keySwitch id) = judgeRekey (modSub (if s.exl.rekey.isNone then onItem s k (.rekey id) else s) k
        (fun x => { x with rxNewKey := true, rxCount := 0 })))
    ∧ (∀ m : TableMsg, ((1 < m.part ∨ (m.part = 1 ∧ 58 < m.extents.length)) → onItem s k (.table m) = protocolError s)
        ∧ ((m.part = 0 ∨ (m.part = 1 ∧ m.extents.length ≤ 58)) →
            onItem s k (.table m) = { s with exl := { s.exl with drafts := s.exl.drafts ++ [m] } }))
    ∧ (∀ id p e st, (3 < p → onItem s k (.commit id p e st) = protocolError s)
        ∧ (p = 0 → onItem s k (.commit id p e st) = onPrepare s id e)
        ∧ (∀ x, p = 3 → s.exl.txs.find? (fun t => t.mine && t.id == id && t.phase < 2) = some x →
            onItem s k (.commit id p e st) = abortTx s x (if st == 0 then 0x0E else st)))
    ∧ (∀ tag g n, (s.ldg.closed = true → onItem s k (.flush tag g n) = s)
        ∧ (s.ldg.closed = false →
            let gs := ((List.range n).map (g + ·)).filter (fun x => (granAllot s x).isSome)
            onItem s k (.flush tag g n)
              = judgeFlushes (flushWork { s with exl := { s.exl with flushes := s.exl.flushes ++ [(tag, newFlush s gs)] } })))
    ∧ (∀ tag st j, jobOf s tag = .flush j → onItem s k (.flushed tag st) = judgeFlushes (setJob s tag
        (.flush { j with owed := j.owed - 1, twin := decide (1 < j.owed), peer := worse j.peer st })))
    ∧ (∀ l, (22 < l.length → onItem s k (.state l) = protocolError s) ∧ (l.length ≤ 22 → onItem s k (.state l) = onState s l))
    ∧ (∀ e r n, ((n = 0 ∨ 64 < n) → onItem s k (.compare e r n) = protocolError s)
        ∧ (0 < n → n ≤ 64 → (s.exl.compares.any (fun c => c.epoch == e) = true ∨ e ≤ s.exl.epoch) → onItem s k (.compare e r n) = s)
        ∧ (0 < n → n ≤ 64 → s.exl.compares.any (fun c => c.epoch == e) = false → s.exl.epoch < e → onItem s k (.compare e r n)
            = { s with exl := { s.exl with compares := s.exl.compares ++ [{ epoch := e, first := r, count := n }] } }))

/-- In a session, before a cut, every 100 microseconds or more send ROOM with the room, stage and admission on every sublink UP.
After 24 hours or 2^40 flits under a key, or a failed tag, the leading unit starts a rekey; one not complete in 100 ms is
dropped and counted, and none starts within a second of that; at 2^48 flits the link stops hard with ERR_CODE 0x06 and
EXL_KEY_EXHAUSTED. PAIR refuses a REPLACE above 1, a time above 600 s, a payload other than 48 bytes, and a state it cannot
pair from (0x14), and otherwise waits with its serial, digest and deadline; its timeout ends it with TIMEOUT. UNPAIR refuses
FORCE above 1, an unpaired unit (0x14) and mirrored allotments without FORCE (0x12); it keeps the allotments served here,
deletes the others, and clears the pairing and saves that. Rests on 08_twin_mirroring.md R235, 08_twin_mirroring.md R236,
08_twin_mirroring.md R237, 08_twin_mirroring.md R246, 08_twin_mirroring.md R248, 08_twin_mirroring.md R254, log entries 37 and
13. -/
def Obligations.LinkKeysAndPairing : Prop :=
  (∀ (k t : Nat) (s u : State), u = tick s t →
    ((u.exl.session = false ∨ u.ldg.closed = true ∨ u.now < u.exl.roomAt + 100) → exec (.roomPeriod t) s = .next u)
    ∧ (u.exl.session = true → u.ldg.closed = false → u.exl.roomAt + 100 ≤ u.now → exec (.roomPeriod t) s = .next (sendEvery
        { u with exl := { u.exl with roomSent := some (gateLimit u, u.drp.stage, admission u), roomAt := u.now } } 0x03
        ([twos ((gateLimit u : Int) - (exposure u : Int)) 32, u.drp.stage, admission u]
          ++ (List.range 4).map (fun k => (subl u k).accepted))))
    ∧ (let due := u.exl.mustRekey = true ∨ u.exl.sessionAt + 86400000000 ≤ u.now
          ∨ ∃ p ∈ u.exl.subs, 2 ^ 40 ≤ p.2.txCount ∨ 2 ^ 40 ≤ p.2.rxCount
       let soon := ∃ f, u.exl.rekeyFailAt = some f ∧ u.now < f + 1000000
       ((¬ due ∨ leads u = false ∨ soon) → exec (.rekeyDue t) s = .next u)
       ∧ (due → leads u = true → ¬ soon → exec (.rekeyDue t) s = .next (startRekey u)))
    ∧ ((∀ r, u.exl.rekey = some r → u.now < r.2 + 100000) → exec (.rekeyTimeout t) s = .next u)
    ∧ (∀ r, u.exl.rekey = some r → r.2 + 100000 ≤ u.now → exec (.rekeyTimeout t) s = .next (bump { u with exl := { u.exl with
        rekey := none, rekeyFailAt := some u.now, subs := u.exl.subs.map (fun p => (p.1, { p.2 with rxNewKey := false })) } }
        rExlKey 16 16 1))
    ∧ ((nSub u ≤ k ∨ u.exl.session = false ∨ ((subl u k).txCount < 2 ^ 48 ∧ (subl u k).rxCount < 2 ^ 48)) → exec (.exlKeyExhausted k t) s = .next u)
    ∧ (k < nSub u → u.exl.session = true → (2 ^ 48 ≤ (subl u k).txCount ∨ 2 ^ 48 ≤ (subl u k).rxCount) →
        let w := linkDown { raiseOpen u 0x165 with exl := { (raiseOpen u 0x165).exl with err := 6 } }
        exec (.exlKeyExhausted k t) s = .next { w with exl := { w.exl with link := 4 } })
    ∧ (u.exl.pairWait = none → exec (.pairTimeout t) s = .next u)
    ∧ (∀ p, u.exl.pairWait = some p →
        (u.now < p.deadline → exec (.pairTimeout t) s = .next u)
        ∧ (p.deadline ≤ u.now → exec (.pairTimeout t) s
            = .next (endWith { u with exl := { u.exl with pairWait := none } } p.cmd 0x0D 0))))
  ∧ (∀ s : State,
      let w := { s with exl := { s.exl with rekey := some (s.exl.sessNext, s.now), sessNext := s.exl.sessNext + 1 } }
      ((s.exl.session = false ∨ s.exl.rekey ≠ none ∨ 2 ^ 32 ≤ s.exl.sessNext) → startRekey s = s)
      ∧ (s.exl.session = true → s.exl.rekey = none → s.exl.sessNext < 2 ^ 32 → startRekey s = switchKeys (sendLow
          (if s.nvm.store.sessNext ≤ s.exl.sessNext then pairWrite w 1 else w) 0x0C [s.exl.sessNext]) s.exl.sessNext))
  ∧ (∀ (c : TrellisCmd) (s v : State) (f : InFlight), started 0x0300 c s = some (v, f) →
    let ms := pNum f.cmd 36 4
    let due := v.now + 1000 * (if ms = 0 then 60000 else ms)
    let p : PairJob := { cmd := f.id, deadline := due, serial := pNum f.cmd 24 8, digest := payIn f.cmd, replace := pByte f.cmd 32 == 1 }
    let mayPair := v.exl.paired = false ∨ v.exl.peerRec = pNum f.cmd 24 8 ∨ (pByte f.cmd 32 = 1 ∧ v.exl.session = false)
    (1 < pByte f.cmd 32 → exec (.pair c) s = .next (badParam v f.id 32))
    ∧ (pByte f.cmd 32 ≤ 1 → 600000 < ms → exec (.pair c) s = .next (badParam v f.id 36))
    ∧ (pByte f.cmd 32 ≤ 1 → ms ≤ 600000 → f.cmd.payLen ≠ 48 → exec (.pair c) s = .next (badParam v f.id 0x40))
    ∧ (pByte f.cmd 32 ≤ 1 → ms ≤ 600000 → f.cmd.payLen = 48 → (v.exl.pairWait ≠ none ∨ ¬ mayPair) →
        exec (.pair c) s = .next (conflict v f.id 0x14))
    ∧ (pByte f.cmd 32 ≤ 1 → ms ≤ 600000 → f.cmd.payLen = 48 → v.exl.pairWait = none → mayPair →
        let w := setJob v f.id (.pair due)
        exec (.pair c) s = .next (beginPair (judgePairHello { w with exl := { w.exl with pairWait := some p, spdmIn := [] } }))))
  ∧ (∀ (c : TrellisCmd) (s v : State) (f : InFlight), started 0x0301 c s = some (v, f) →
    (1 < pByte f.cmd 24 → exec (.unpair c) s = .next (badParam v f.id 24))
    ∧ (pByte f.cmd 24 ≤ 1 → v.exl.paired = false → exec (.unpair c) s = .next (conflict v f.id 0x14))
    ∧ (pByte f.cmd 24 = 0 → v.exl.paired = true → mirroredIds v ≠ [] → exec (.unpair c) s = .next (conflict v f.id 0x12))
    ∧ (v.exl.paired = true → (pByte f.cmd 24 = 1 ∨ (pByte f.cmd 24 = 0 ∧ mirroredIds v = [])) →
        let serves := fun (i : Nat) => match allotOf v i with | some a => a.serving | none => false
        let keep := (mirroredIds v).filter serves
        let gone := (mirroredIds v).filter (fun i => !keep.contains i)
        let w := (v.exl.txs.filter (fun x => x.mine)).foldl (fun s x => abortTx s x 0) v
        let w := w.exl.compares.foldl (fun s c => abandonCompare s c.epoch) w
        let w := keep.foldl (fun s i => modAllot s i (fun a => { a with mirrored := false, homeTwin := false, peerDirty := false })) w
        let w := gone.foldl enterDeleting w
        let w := pairWrite { w with
          alt := { w.alt with tab := w.alt.tab.filter (fun p => !p.2.reservation), owedFree := [] },
          exl := { w.exl with
            paired := false, peerRec := 0, secret := 0, reserved := [], session := false, txs := [], peerState := [], resyncOn := false,
            resyncQ := [], matched := [], flushes := [], peerHarvest := false, twinDirty := [], room := 0, lossAt := none, claim := false,
            rekey := none, hello := none, link := if v.exl.session then 0 else w.exl.link,
            subs := if v.exl.session then w.exl.subs.map (fun p => (p.1, ({ trains := p.2.trains, waitRetrain := true } : Sublink)))
              else w.exl.subs } } 1
        exec (.unpair c) s = .next (retryHeld (judgeService
          (endOk (releaseWithheld (judgeCompares w)) f.id (le keep.length 4 ++ le gone.length 4))))))

/-- TALLY_COMPARE takes 1 to 64 regions with 24 bytes of payload each, an allotment that exists, an epoch at least four ahead (0
names the next) not already compared, in a session without a harvest (0x13); it is announced and waits. RESYNC resumes, sets a
rate of 100 to 400,000 (the owner of function 9 alone), pauses (not a host), or picks the data of a stale copy here; each
answers what is left, copied and the rate, a DELETING allotment is CONFLICT 0x11, and another action is BAD_PARAM 24. FAILOVER
refuses a reservation (0x15) and a DELETING allotment (0x11), takes over on a lost link, hands over in step (an epoch at least
two ahead), acknowledges the peer's claim, or releases; each answers the allotments changed and a generation, or CONFLICT.
Rests on 08_twin_mirroring.md R260, 08_twin_mirroring.md R262, 08_twin_mirroring.md R263, 08_twin_mirroring.md R265,
08_twin_mirroring.md R268, 08_twin_mirroring.md R269, 08_twin_mirroring.md R270, 08_twin_mirroring.md R271,
02_trellis_commands.md R50, log entries 50, 56 and 86. -/
def Obligations.TwinCommands : Prop :=
  (∀ (c : TrellisCmd) (s v : State) (f : InFlight), started 0x0304 c s = some (v, f) →
    let n := pNum f.cmd 28 2
    let e := if pNum f.cmd 32 8 = 0 then nextEpoch v else pNum f.cmd 32 8
    ((n = 0 ∨ 64 < n) → exec (.tallyCompare c) s = .next (badParam v f.id 28))
    ∧ (0 < n → n ≤ 64 → f.cmd.payLen < 24 * n → exec (.tallyCompare c) s = .next (badParam v f.id 0x40))
    ∧ (0 < n → n ≤ 64 → 24 * n ≤ f.cmd.payLen →
      (f.cmd.allot ≠ 0xFFFF → allotOf v f.cmd.allot = none → exec (.tallyCompare c) s = .next (badParam v f.id 8))
      ∧ ((f.cmd.allot = 0xFFFF ∨ (allotOf v f.cmd.allot).isSome = true) →
        ((v.exl.session = false ∨ v.exl.peerHarvest = true ∨ v.ldg.closed = true) →
          exec (.tallyCompare c) s = .next (conflict v f.id 0x13))
        ∧ (v.exl.session = true → v.exl.peerHarvest = false → v.ldg.closed = false →
          (e < v.exl.epoch + 4 → exec (.tallyCompare c) s = .next (badParam v f.id 32))
          ∧ (v.exl.epoch + 4 ≤ e → v.exl.compares.any (fun d => d.epoch == e) = true →
              exec (.tallyCompare c) s = .next (conflict v f.id 0x13))
          ∧ (v.exl.epoch + 4 ≤ e → v.exl.compares.any (fun d => d.epoch == e) = false →
              exec (.tallyCompare c) s = .next (setJob (sendLow { v with exl := { v.exl with
                compares := v.exl.compares ++ [{ epoch := e, first := pNum f.cmd 24 4, count := n, cmd := some f.id }] } }
                0x16 [e, pNum f.cmd 24 4, n]) f.id (.compare e)))))))
  ∧ (∀ (c : TrellisCmd) (s v : State) (f : InFlight), started 0x0303 c s = some (v, f) →
    let act := pByte f.cmd 24
    let answer := fun (w : State) => endOk w f.id (le (regionsLeft w) 4 ++ le w.exl.resyncCopied 4 ++ le w.exl.resyncRate 4)
    (3 < act → exec (.resync c) s = .next (badParam v f.id 24))
    ∧ (act = 0 → v.exl.session = false → exec (.resync c) s = .next (conflict v f.id 0x13))
    ∧ (act = 0 → v.exl.session = true → v.exl.resyncOn = false → exec (.resync c) s = .next (conflict v f.id 0x16))
    ∧ (act = 0 → v.exl.session = true → v.exl.resyncOn = true → exec (.resync c) s = .next (answer
        { v with exl := { v.exl with resyncPaused := false, resyncHost := none, resyncRate := payloadRate v, resyncFrom := v.now, resyncSent := 0 } }))
    ∧ (act = 1 → owns v f.cmd.est 9 = false → exec (.resync c) s = .next (endWith v f.id 0x05 0x05))
    ∧ (act = 1 → owns v f.cmd.est 9 = true → exec (.resync c) s = .next (answer (paceResync (assistInput { v with exl := { v.exl with
        resyncHost := some (clamp 100 400000 (pNum f.cmd 28 4)) } } 9) false)))
    ∧ (act = 2 → issClass f.cmd.est = 0 → exec (.resync c) s = .next (endWith v f.id 0x05 0x02))
    ∧ (act = 2 → issClass f.cmd.est ≠ 0 → exec (.resync c) s = .next (answer
        { v with exl := { v.exl with resyncPaused := true, pausedAt := v.now, resyncRate := 0, resyncFrom := v.now, resyncSent := 0 } }))
    ∧ (act = 3 → allotOf v f.cmd.allot = none → exec (.resync c) s = .next (badParam v f.id 8))
    ∧ (∀ a, act = 3 → allotOf v f.cmd.allot = some a →
        let id := f.cmd.allot
        (a.st = .deleting → exec (.resync c) s = .next (conflict v f.id 0x11))
        ∧ (a.st ≠ .deleting → v.exl.session = false → exec (.resync c) s = .next (conflict v f.id 0x13))
        ∧ (a.st ≠ .deleting → v.exl.session = true →
            (a.mirrored = false ∨ a.st ≠ .stale ∨ sourceOf v id ≠ 0 ∨ (tgetD v.exl.peerState id {}).inStep = true) →
            exec (.resync c) s = .next (conflict v f.id 0x16))
        ∧ (v.exl.session = true → a.mirrored = true → a.st = .stale → sourceOf v id = 0 →
            (tgetD v.exl.peerState id {}).inStep = false →
            exec (.resync c) s = .next (answer (sendState (setResyncSource (offerAllot (modAllot (exitStale { v with
              allotx := { v.allotx with mgen := tset v.allotx.mgen id (mgenOf v id + 1), servedAt := tset v.allotx.servedAt id true } } id)
              id (fun a => { a with serving := true })) id) id 1) [id])))))
  ∧ (∀ (c : TrellisCmd) (s v : State) (f : InFlight), started 0x0302 c s = some (v, f) →
    let act := pByte f.cmd 24
    let id := f.cmd.allot
    let held := id ≠ 0xFFFF ∧ ∃ a, allotOf v id = some a ∧ a.reservation = true
    let going := id ≠ 0xFFFF ∧ ∃ a, allotOf v id = some a ∧ a.reservation = false ∧ a.st = .deleting
    let valid := id = 0xFFFF ∨ ∃ a, allotOf v id = some a ∧ a.mirrored = true ∧ a.reservation = false ∧ a.st ≠ .deleting
    let ok := act ≤ 3 ∧ pByte f.cmd 25 ≤ 1 ∧ valid
    let force := pByte f.cmd 25 == 1
    let quiet := ∀ u, v.exl.hbPeerAt = some u → u + takeoverUs v ≤ v.now
    let answer := fun (w : State) (ids : List Nat) => endOk w f.id (le ids.length 4
      ++ le (if id = 0xFFFF then (ids.map (mgenOf w)).foldl max 0 else mgenOf w id) 8)
    (3 < act → exec (.failover c) s = .next (badParam v f.id 24))
    ∧ (act ≤ 3 → 1 < pByte f.cmd 25 → exec (.failover c) s = .next (badParam v f.id 25))
    ∧ (act ≤ 3 → pByte f.cmd 25 ≤ 1 → held → exec (.failover c) s = .next (conflict v f.id 0x15))
    ∧ (act ≤ 3 → pByte f.cmd 25 ≤ 1 → going → exec (.failover c) s = .next (conflict v f.id 0x11))
    ∧ (act ≤ 3 → pByte f.cmd 25 ≤ 1 → ¬ held → ¬ going → ¬ valid → exec (.failover c) s = .next (badParam v f.id 8))
    ∧ (ok → act = 0 →
        let ids := named v id (fun a => !a.serving && (force || a.st != .stale))
        ((subsUp v ≠ [] ∨ v.exl.session = true ∨ (id ≠ 0xFFFF ∧ ids = [] ∧ staleHere v id = true)) →
          exec (.failover c) s = .next (conflict v f.id 0x15))
        ∧ (subsUp v = [] → v.exl.session = false → (id = 0xFFFF ∨ ids ≠ [] ∨ staleHere v id = false) →
          (force = false → v.exl.peerFenced = false → (¬ quiet ∨ v.exl.ackClaim = true) →
            exec (.failover c) s = .next (conflict v f.id 0x15))
          ∧ ((force = true ∨ v.exl.peerFenced = true ∨ (quiet ∧ v.exl.ackClaim = false)) →
            exec (.failover c) s = .next (answer (retryHeld (takeOver v ids)) ids))))
    ∧ (ok → act = 1 →
        let e := if pNum f.cmd 32 8 = 0 then v.exl.epoch + 100 else pNum f.cmd 32 8
        let ids := (named v id (fun a => a.serving)).filter (fun i => !txPending v i)
        (inStep v = false → exec (.failover c) s = .next (conflict v f.id 0x13))
        ∧ (inStep v = true → e < v.exl.epoch + 2 → exec (.failover c) s = .next (badParam v f.id 32))
        ∧ (inStep v = true → v.exl.epoch + 2 ≤ e → ids = [] → exec (.failover c) s = .next (answer v []))
        ∧ (inStep v = true → v.exl.epoch + 2 ≤ e → ids ≠ [] → exec (.failover c) s
          = .next (ids.foldl (fun s i =>
            match allotOf s i with
            | none => s
            | some a =>
              let s := startTx s .handover i { a with serving := false } none false 0
              { s with exl := { s.exl with
                handovers := s.exl.handovers ++ [(i, e, f.id)],
                txs := s.exl.txs.map (fun t => if t.mine && t.allot == i then { t with epoch := e, cmd := some f.id } else t) } })
            (setJob v f.id (.handover e 0 0)))))
    ∧ (ok → act = 2 →
        let ids := named v id (fun a => !a.serving && a.st != .stale)
        ((v.exl.peerClaim = false ∨ v.exl.tookOver = true) → exec (.failover c) s = .next (conflict v f.id 0x15))
        ∧ (v.exl.peerClaim = true → v.exl.tookOver = false → exec (.failover c) s
            = .next (answer (ids.foldl makeStale { v with exl := { v.exl with ackClaim := true } }) ids)))
    ∧ (ok → act = 3 →
        let ids := named v id (fun a => a.serving)
        exec (.failover c) s = .next (answer (retryHeld (judgeService
          (ids.foldl fenceOne { v with exl := { v.exl with fenced := true } }))) ids)))

/-- A heartbeat record is taken only from the BMC's MCTP path and only with a good tag and a later sequence; any other writer
raises REG_ACCESS. A published record carries the next sequence, the epoch's low half, the flags and a tag. On a lost link
with failover on, a unit whose claim stays unacknowledged past its time fences what it serves if the peer was heard since, and
a unit that heard nothing takes over what it may. The pair epoch advances by one modulo 2^64 on a configured unit; the leader
sends it. A marked comparison 50 microseconds after its tick ends its open regions as not comparable. The leader announces the
next mirrored regions in step. The resynchronisation rate is the host's, or the payload rate less the share of a busy link,
and zero while paused or off; a pause ends after 30 minutes. Rests on 08_twin_mirroring.md R255, 08_twin_mirroring.md R258,
08_twin_mirroring.md R259, 08_twin_mirroring.md R260, 08_twin_mirroring.md R264, 08_twin_mirroring.md R265,
08_twin_mirroring.md R266, 08_twin_mirroring.md R270, 08_twin_mirroring.md R271, log entry 58. -/
def Obligations.TwinTimers : Prop :=
  (∀ (a : RegAcc) (v e : Nat) (busy : Bool) (t : Nat) (s u : State), u = tick s t →
    (logicOn u = false → exec (.heartbeatRecordIn a v t) s = .next u ∧ exec (.heartbeatPublish t) s = .next u
      ∧ exec (.pairEpochTick t) s = .next u)
    ∧ (logicOn u = true → ((∀ n, a.path ≠ .mctp n) ∨ issClass a.issuer ≠ 2) →
        exec (.heartbeatRecordIn a v t) s = .next (raise u 0x003 rExlHbIn3))
    ∧ (∀ n, logicOn u = true → a.path = .mctp n → issClass a.issuer = 2 →
        let w := { u with exl := { u.exl with hbIn := u.exl.hbIn.take 3 ++ [BitVec.ofNat 32 v] } }
        let b := (w.exl.hbIn.take 3).map (·.toNat)
        let fresh := u.exl.hbPeerAt = none ∨ u.exl.hbPeerSeq < b.getD 0 0
        ((u.exl.paired = false ∨ hbTag w b ≠ v % 2 ^ 32 ∨ ¬ fresh) → exec (.heartbeatRecordIn a v t) s = .next w)
        ∧ (u.exl.paired = true → hbTag w b = v % 2 ^ 32 → fresh → exec (.heartbeatRecordIn a v t) s
            = .next (decideOnRecord { w with exl := { w.exl with
                hbPeerSeq := b.getD 0 0, hbPeerAt := some w.now, hbEcho := bits (b.getD 2 0) 0 16, peerFenced := bit (b.getD 2 0) 20,
                peerClaim := bit (b.getD 2 0) 23, peerSince := w.exl.peerSince || w.exl.lossAt.isSome } } (b.getD 2 0))))
    ∧ ((hbEn u = false ∨ u.exl.paired = false ∨ (∃ a, u.exl.hbAt = some a ∧ u.now < a + hbPeriod u)) →
        exec (.heartbeatPublish t) s = .next u)
    ∧ (hbEn u = true → u.exl.paired = true → logicOn u = true → (∀ a, u.exl.hbAt = some a → a + hbPeriod u ≤ u.now) →
        let seq := (u.exl.hbSeq + 1) % 2 ^ 32
        let f := fld (b2n u.exl.claim) 23 1 + fld (b2n u.exl.ackClaim) 22 1 + fld (b2n u.exl.tookOver) 21 1
          + fld (b2n u.exl.fenced) 20 1 + fld (b2n (!(subsUp u).isEmpty)) 19 1 + fld u.exl.hbPeerSeq 0 16
        let w := ([seq, u.exl.epoch % 2 ^ 32, f] ++ [hbTag u [seq, u.exl.epoch % 2 ^ 32, f]]).map (BitVec.ofNat 32)
        exec (.heartbeatPublish t) s = .next (emit { u with exl := { u.exl with hbSeq := seq, hbOut := w, hbAt := some u.now } } (.heartbeat w)))
    ∧ (u.exl.lossAt = none → exec (.claimTimeout t) s = .next u ∧ exec (.takeoverTimeout t) s = .next u)
    ∧ (∀ x, u.exl.lossAt = some x →
        (failoverOn u = true → failoverHw u = true → x + claimUs u ≤ u.now → u.exl.claimAcked = false → u.exl.peerSince = true →
          u.exl.tookOver = false → exec (.claimTimeout t) s
            = .next ((servedHere u).foldl fenceOne { u with exl := { u.exl with fenced := true } }))
        ∧ ((failoverOn u = false ∨ failoverHw u = false ∨ u.now < x + claimUs u ∨ u.exl.claimAcked = true ∨ u.exl.peerSince = false
            ∨ u.exl.tookOver = true) → exec (.claimTimeout t) s = .next u)
        ∧ (failoverOn u = true → failoverHw u = true → x + takeoverUs u ≤ u.now → u.exl.peerSince = false → u.exl.ackClaim = false →
            let w := (peerReady u).foldl takeOne u
            exec (.takeoverTimeout t) s = .next (releaseWithheld { w with exl := { w.exl with tookOver := true } }))
        ∧ ((failoverOn u = false ∨ failoverHw u = false ∨ u.now < x + takeoverUs u ∨ u.exl.peerSince = true ∨ u.exl.ackClaim = true) →
            exec (.takeoverTimeout t) s = .next u))
    ∧ (u.now < u.exl.epochAt + 999 → exec (.pairEpochTick t) s = .next u)
    ∧ (logicOn u = true → u.exl.epochAt + 999 ≤ u.now →
        let w := { u with exl := { u.exl with epoch := (u.exl.epoch + 1) % 2 ^ 64, epochAt := u.now } }
        let w := capture (markCompares (if u.exl.session && leads u then sendLow w 0x05 [w.exl.epoch, 0] else w))
        let w := (w.exl.txs.filter (fun x => x.phase == 2 && x.epoch ≤ w.exl.epoch)).foldl applyAt w
        exec (.pairEpochTick t) s = .next (resyncAnnounce (activationTick (retryHeld (judgeService w)))))
    ∧ (let it := u.exl.compares.find? (fun c => c.epoch == e && c.marked && decide (c.tickAt + 50 ≤ u.now))
       (it = none → exec (.compareCaptureTimeout e t) s = .next u)
       ∧ (∀ c, it = some c → c.done = true → exec (.compareCaptureTimeout e t) s = .next (judgeCompares { u with exl := { u.exl with
            compares := u.exl.compares.map (fun (d : Compare) => if d.epoch == e then
              { d with result := (List.range d.count).foldl (fun m i =>
                if (compareResult d (d.first + i)).isSome then m else tset m (d.first + i) 2) d.result } else d) } }))
       ∧ (∀ c, it = some c → c.done = false →
            let v := abandonCompare u e
            exec (.compareCaptureTimeout e t) s = .next (judgeCompares { v with exl := { v.exl with
              compares := v.exl.compares.map (fun (d : Compare) => if d.epoch == e then
                { d with result := (List.range d.count).foldl (fun m i =>
                  if (compareResult d (d.first + i)).isSome then m else tset m (d.first + i) 2) d.result } else d) } })))
    ∧ (let rs := (((u.alt.tab.filter (fun p => p.2.mirrored)).flatMap (fun p => regionsOf p.2)).foldl sins []).filter (mirrorRegion u)
       ((inStep u = false ∨ leads u = false ∨ loopDue u true 4 1000000 10000000 = false ∨ rs = []) → exec (.compareSchedule t) s = .next u)
       ∧ (∀ r, inStep u = true → leads u = true → loopDue u true 4 1000000 10000000 = true → (rs.filter (u.exl.cursor ≤ ·) ++ rs).head? = some r →
            let last := (rs.filter (fun x => r ≤ x && x < r + 64)).foldl max r
            exec (.compareSchedule t) s
              = .next (announce (loopRan { u with exl := { u.exl with cursor := last + 1 } } 4) (nextEpoch u) r (last + 1 - r) none)))
    ∧ (let paced := fun (w : State) (b : Bool) =>
          let share := match w.exl.resyncHost with
            | some x => x
            | none => if b then payloadRate w * resyncPct w / 100 else payloadRate w
          { w with exl := { w.exl with resyncRate := if w.exl.resyncOn && !w.exl.resyncPaused then share else 0, resyncFrom := w.now, resyncSent := 0 } }
       (bothDown u = true → exec (.resyncPacing busy t) s = .next (paced u true))
       ∧ (bothDown u = false → loopDue u false 6 1000 10000 = true →
          exec (.resyncPacing busy t) s = .next (paced (loopRan u 6) busy))
       ∧ (bothDown u = false → loopDue u false 6 1000 10000 = false → exec (.resyncPacing busy t) s = .next u)
       ∧ ((u.exl.resyncPaused = false ∨ u.now < u.exl.pausedAt + 1800000000) → exec (.resyncPauseEnd t) s = .next u)
       ∧ (u.exl.resyncPaused = true → u.exl.pausedAt + 1800000000 ≤ u.now →
          exec (.resyncPauseEnd t) s = .next (paced { u with exl := { u.exl with resyncPaused := false } } false))))

/-- With the device off, or its supply collapsed, none has an effect. A burst starts when its period has passed, and one the
crystal times clears its fault; the comparator starts one at 1 Hz only. A finished burst enters the ring of 4,096 with scaled
voltage and current, counts the mean charge with its fraction, and notes over-range and gaps; the temperature of a sensor it
cannot compute is a free value. It ends no sooner than 250 microseconds after its start. An update, one a second, takes the
second's means, sets the state of charge to SoC_v the first time and by R302 after, and both energies to 0 while unusable, at
end of discharge or with the pack's bus fenced. A rest point needs 30 minutes of rest and re-anchors SoC_c at the last 16
bursts' voltage. An ID read keeps a record with good magic, serial and CRC only; the protector is lost after three failed
reads. Rests on 10_energy_pack.md R294, 10_energy_pack.md R295, 10_energy_pack.md R297, 10_energy_pack.md R298,
10_energy_pack.md R299, 10_energy_pack.md R301, 10_energy_pack.md R302, 10_energy_pack.md R304, 10_energy_pack.md R306, log
entries 15 and 30. -/
def Obligations.GaugeEvents : Prop :=
  (∀ (x : Bool) (w : Nat) (isns : Int) (ts t : Nat) (d : List Byte) (s u : State), u = tick s t → (u.dev.state = .off ∨ u.psq.collapse = true) →
    exec (.gaugeBurst x t) s = .next u ∧ exec (.currentComparatorTrip t) s = .next u ∧ exec (.gaugeBurstDone w isns ts t) s = .next u
    ∧ exec (.gaugeUpdate t) s = .next u ∧ exec (.restPoint t) s = .next u ∧ exec (.packIdRead d x t) s = .next u
    ∧ exec (.protectorRead w x t) s = .next u)
  ∧ (∀ (t : Nat) (s u : State), u = tick s t → u.dev.state ≠ .off → u.psq.collapse = false →
    let b := { u with gau := { u.gau with burst := true, burstAt := some u.now } }
    let period := match gaugeRate u with | 2 => 1000 | 1 => 31250 | _ => 1000000
    let due := ∀ a, u.gau.burstAt = some a → a + period ≤ u.now
    (¬ due → exec (.gaugeBurst false t) s = .next u ∧ exec (.gaugeBurst true t) s = .next u)
    ∧ (due → exec (.gaugeBurst false t) s = .next b)
    ∧ (due → u.dev.xtalOk = true → exec (.gaugeBurst true t) s = .next b)
    ∧ (due → u.dev.xtalOk = false → exec (.gaugeBurst true t) s = .next (clearLive { b with dev := { b.dev with xtalOk := true } } 0x002))
    ∧ (gaugeRate u = 0 → exec (.currentComparatorTrip t) s
        = .next { u with gau := { u.gau with burst := true, burstAt := some u.now, hotAt := some u.now } })
    ∧ (gaugeRate u ≠ 0 → exec (.currentComparatorTrip t) s = .next u))
  ∧ (∀ (vsns : Nat) (isns : Int) (ts t : Nat) (s u : State), u = tick s t → u.dev.state ≠ .off → u.psq.collapse = false →
    let uv := vsns * cfg u rGauSenseCfg 16 16 / 256
    let ua := isns * 1000000 / (max 100 (cfg u rGauSenseCfg 0 16) : Nat)
    let vOver := decide (1200000 ≤ vsns)
    let prev := u.gau.ring.head?
    let gap := match u.gau.lastAt with | some x => decide (x + 1500000 < u.now) | none => false
    let sens := nextSensor u
    let th := thermistor (cfg u rGauTsCfg 16 16) (max 1 ts)
    let known := sens.isSome && th.isSome
    let temp := if known then th.getD 0 else ofTwos (drawn u) 16
    let b : Burst := { ms := u.now / 1000, uv := uv, ua := ua, temp := temp, sensor := sens.getD 0,
                       overR := vOver || decide (100000 ≤ isns.natAbs) || decide (1200000 ≤ ts), gap := gap, khz := gaugeRate u == 2, fast := gaugeRate u != 0 }
    let x := countPhase (judgeRest (countCharge (if known then u else drew u) prev ua) ua gap) prev uv ua
    let v := { x with gau := { x.gau with
      burst := false, lastAt := some x.now, ring := (b :: x.gau.ring).take 4096, ringSeq := x.gau.ringSeq + 1,
      second := b :: x.gau.second, hotAt := if 50000 ≤ ua.natAbs then some x.now else x.gau.hotAt } }
    let w := match sens with | some i => judgeSensor v i ts temp | none => v
    let w := if vOver then raiseOpen w 0x181 else w
    let w := if gap then voidCycle w 4 else w
    let w := match tPack w with
      | some y => if 1000 ≤ y && y ≤ 4500 then w else voidCycle w 5
      | none => voidCycle w 5
    let w := judgeEod (judgeResistance w prev b) uv ua
    let early := ∃ a, u.gau.burstAt = some a ∧ u.now < a + 250
    ((u.gau.burst = false ∨ early) → exec (.gaugeBurstDone vsns isns ts t) s = .next u)
    ∧ (u.gau.burst = true → ¬ early → exec (.gaugeBurstDone vsns isns ts t) s
        = .next (if w.gau.reh.isSome && rehMargin w uv ua then rehAbort w 3 else w)))
  ∧ (∀ (s : State) (p : Burst) (ua : Int) (x : Nat), s.gau.lastAt = some x →
      2000000 * (countCharge s (some p) ua).gau.coulomb + (countCharge s (some p) ua).gau.coulFrac
        = 2000000 * s.gau.coulomb + s.gau.coulFrac + (p.ua + ua) * ((s.now - x : Nat) : Int))
  ∧ (∀ (t : Nat) (s u : State), u = tick s t → u.dev.state ≠ .off → u.psq.collapse = false → 
    ((∃ a, u.gau.updAt = some a ∧ u.now < a + 1000000) → exec (.gaugeUpdate t) s = .next u)
    ∧ ((∀ a, u.gau.updAt = some a → a + 1000000 ≤ u.now) → ∃ w, exec (.gaugeUpdate t) s = .next (holdCheck w)
      ∧ (w.gau.usable = false ∨ w.gau.eodHold = true ∨ fenced w 1 = true → w.gau.eC = 0 ∧ w.gau.eV = 0) ∧ (w.gau.drift = true → w.gau.eC = 0)
      ∧ w.gau.socSet = true))
  ∧ (∀ s : State, (s.gau.eodHold = true → nextSoc s = 0)
      ∧ (s.gau.eodHold = false → s.gau.drift = false → s.gau.ma ≤ -20 → nextSoc s ≤ 3 * s.gau.soc + s.gau.socFrac
          ∧ nextSoc s = min (3 * s.gau.soc + s.gau.socFrac) (3 * min 10000 (estimate s).toNat))
      ∧ (s.gau.eodHold = false → s.gau.drift = false → -20 < s.gau.ma →
          nextSoc s ≤ 3 * s.gau.soc + s.gau.socFrac + 5 ∧ 3 * s.gau.soc + s.gau.socFrac ≤ nextSoc s + 5))
  ∧ (∀ (t : Nat) (s u : State), u = tick s t → u.dev.state ≠ .off → u.psq.collapse = false →
    ((u.gau.restUs < 1800000000 ∨ packCells u = 0 ∨ packOcv u = []) → exec (.restPoint t) s = .next u)
    ∧ (1800000000 ≤ u.gau.restUs → packCells u ≠ 0 → packOcv u ≠ [] →
        let l := u.gau.ring.take 16
        let b := socOf (packOcv u) (((l.foldl (fun a b => a + b.uv) 0 / l.length / packCells u / 100 : Nat) : Int))
        let v := anchorAt (if u.gau.restTaken then u else learnAt u b) b
        let w := { v with gau := { v.gau with
          restUs := 0, restTaken := true, restSoc := b, socC := b, voidWhy := 0, drift := false,
          restA := if v.gau.drift then none else some ((b : Int), v.gau.coulomb) } }
        let y := if v.gau.drift then clearLive w 0x184 else w
        exec (.restPoint t) s = .next (if y.gau.eod && 100 < b then clearLive { y with gau := { y.gau with eod := false } } 0x183 else y)))
  ∧ (∀ (d : List Byte) (word t : Nat) (ok : Bool) (s u : State), u = tick s t → u.dev.state ≠ .off → u.psq.collapse = false →
    (cfg u rGauPackCfg 30 1 = 0 → exec (.packIdRead d ok t) s = .next u)
    ∧ (cfg u rGauPackCfg 30 1 ≠ 0 →
        let id := if ok && twiUp u 1 then packIdOf d else none
        let w := { u with gau := { u.gau with id := id } }
        (id = none → exec (.packIdRead d ok t) s = .next w)
        ∧ (∀ p, id = some p → (p.serial = u.gau.learned.serial → exec (.packIdRead d ok t) s = .next w)
            ∧ (p.serial ≠ u.gau.learned.serial → exec (.packIdRead d ok t) s = .next (packSwap w 0))))
    ∧ (cfg u rGauPackCfg 31 1 = 0 → exec (.protectorRead word ok t) s = .next u)
    ∧ (cfg u rGauPackCfg 31 1 ≠ 0 → (ok = false ∨ twiUp u 1 = false) →
        let n := min 3 (u.gau.protFails + 1)
        exec (.protectorRead word ok t) s = .next { u with gau := { u.gau with
          protFails := n, protOk := u.gau.protOk && decide (n < 3) } })
    ∧ (cfg u rGauPackCfg 31 1 ≠ 0 → ok = true → twiUp u 1 = true →
        let warn := bit word 11 || bit word 12
        let w := { u with gau := { u.gau with protFails := 0, protWarn := warn, protOk := !warn } }
        exec (.protectorRead word ok t) s = .next (if warn then rehAbort w 4 else w)))

/-- PACK_INFO answers serial, table, cells, flags, age in years and learned capacity, with the learned record as payload when one
of at least 64 bytes is given, and refuses a shorter one. GAUGE_READ answers the three states of charge, the status and both
energies as the last update left them (as they stand before the first). GAUGE_RAW answers up to a whole number of 16-byte
samples from the ring, oldest first from the requested number, with the count, the next number and how many are lost, and
refuses any other length. RAIL_TABLE_LOAD takes a signed OCV image into the gauge and a signed rail image into the sequencer,
answers AUTH_FAIL to a bad container and BAD_PARAM 0x40 with the first bad slot to a bad body, and always answers the version
in force. Rests on 10_energy_pack.md R294, 10_energy_pack.md R300, 10_energy_pack.md R309, 10_energy_pack.md R310,
10_energy_pack.md R311, 10_energy_pack.md R317, 11_rail_sequencing.md R320, 11_rail_sequencing.md R321,
15_firmware_keys_fuses.md R404, log entries 16 and 46. -/
def Obligations.GaugeCommands : Prop :=
  (∀ (c : TrellisCmd) (s v : State) (f : InFlight), started 0x0400 c s = some (v, f) →
    let id := packId v
    let reads := (v.gau.protOk || v.gau.protWarn) && decide (v.gau.protFails < 3) && !fenced v 1
    let r := le ((id.map (·.serial)).getD 0) 8 ++ le (packTable v) 1 ++ le (packCells v) 1
      ++ le (b2n v.gau.usable + 2 * b2n id.isSome + 4 * b2n reads + 8 * b2n v.gau.swapped) 1
      ++ le (min 255 (packAge v / 31557600)) 1 ++ le (qLearn v / 1000) 4
    (0 < f.cmd.payLen → f.cmd.payLen < 64 → exec (.packInfo c) s = .next (badParam v f.id 0x40))
    ∧ (f.cmd.payLen = 0 → exec (.packInfo c) s = .next (endOut v f.id r []))
    ∧ (64 ≤ f.cmd.payLen → exec (.packInfo c) s
        = .next (endOut v f.id r (learnedBytes { v.gau.learned with qmC := qLearn v }))))
  ∧ (∀ (c : TrellisCmd) (s v : State) (f : InFlight), started 0x0401 c s = some (v, f) →
    (v.gau.shown ≠ [] → exec (.gaugeRead c) s = .next (endOk v f.id v.gau.shown))
    ∧ (v.gau.shown = [] → exec (.gaugeRead c) s = .next (endOk v f.id (le v.gau.soc 2 ++ le (twos v.gau.socC 16) 2 ++ le v.gau.socV 2
      ++ le (gauStatus v / 65536) 2 ++ le v.gau.eC 4 ++ le v.gau.eV 4))))
  ∧ (∀ (c : TrellisCmd) (s v : State) (f : InFlight), started 0x0402 c s = some (v, f) →
    let n := f.cmd.payLen
    ((n < 16 ∨ n % 16 ≠ 0) → exec (.gaugeRaw c) s = .next (badParam v f.id 0x40))
    ∧ (16 ≤ n → n % 16 = 0 →
        let oldest := v.gau.ringSeq - v.gau.ring.length
        let start := min v.gau.ringSeq (max (pNum f.cmd 24 4) oldest)
        let k := min (n / 16) (v.gau.ringSeq - start)
        exec (.gaugeRaw c) s = .next (endOut v f.id (le k 4 ++ le (start + k) 4 ++ le (oldest - pNum f.cmd 24 4) 4 ++ zeros 4)
          (((v.gau.ring.reverse.drop (start - oldest)).take k).flatMap burstBytes))))
  ∧ (∀ (c : TrellisCmd) (s v : State) (f : InFlight), started 0x0501 c s = some (v, f) →
    let b := payIn f.cmd
    let body := (container b).body
    let version := fun (w : State) => le (match w.psq.nextTable with | some t => t.version | none => w.psq.table.version) 2
    let ocv := Config.ocvTables body
    let k := Config.ocvCurves body
    ((container b).typ = 0x11 →
      (containerOk v 0x11 b = false → exec (.railTableLoad c) s = .next (endWith v f.id 0x0B 0))
      ∧ (containerOk v 0x11 b = true → ocvOk ocv k = false →
          exec (.railTableLoad c) s = .next (finish v f.id { status := 0x04, detail := 0x40, result := version v }))
      ∧ (containerOk v 0x11 b = true → ocvOk ocv k = true → exec (.railTableLoad c) s = .next (endOk (pairWrite { v with
          gau := { v.gau with ocv := ocv.map (fun t => { number := t.1, points := t.2 }), kTempCurve := k.1, kAgeCurve := k.2 } } 3)
          f.id (version v))))
    ∧ ((container b).typ ≠ 0x11 →
      (containerOk v 0x10 b = false → exec (.railTableLoad c) s = .next (endWith v f.id 0x0B 0))
      ∧ (containerOk v 0x10 b = true → railHeaderOk body = false →
          exec (.railTableLoad c) s = .next (finish v f.id { status := 0x04, detail := 0x40, result := version v }))
      ∧ (∀ n, containerOk v 0x10 b = true → railHeaderOk body = true → firstBad body = some n → exec (.railTableLoad c) s
          = .next (finish v f.id { status := 0x04, detail := 0x40 + fld n 16 16, result := version v }))
      ∧ (containerOk v 0x10 b = true → railHeaderOk body = true → firstBad body = none →
          let w := loadRailTable v (railTableOf body)
          exec (.railTableLoad c) s = .next (endOk w f.id (version w)))))

/-- A unit that is not due or not running ends nothing. A failing tine is fenced, a flash channel whose four ways fail twice
running raises its fault, a converter off by more than 0.5% of its reference or a dead comparator raises its fault and leaves
use, an injection that does not come through marks its source untrusted, a cipher answer that differs raises its fault; an
injection that did not run leaves the item as it was. A run overdue by its item's period ends with TIMEOUT; an item not
covered in its period is late and raises COVERAGE once. A pause ends at its time. On a configured unit a sample, one a second,
enters the ring of 3,600 with its hour counted, and summaries are built from 60 samples. Rests on
16_background_and_self_test.md R426, 16_background_and_self_test.md R427, 16_background_and_self_test.md R428,
16_background_and_self_test.md R429, 16_background_and_self_test.md R433, 14_faults_and_events.md R394,
14_faults_and_events.md R381, log entries 21, 62 and 70. -/
def Obligations.WeedingAndTelemetry : Prop :=
  (∀ (n low high t : Nat) (p d a : Bool) (s u : State), u = tick s t →
    (unitEnds u 0 n = false → exec (.logicBist n p t) s = .next u)
    ∧ (unitEnds u 0 n = true → exec (.logicBist n true t) s = .next (feed (unitDone u 0 n n true)))
    ∧ (unitEnds u 0 n = true →
        let v := unitDone u 0 n n false
        exec (.logicBist n false t) s = .next (feed (leaveBed (judgeTines (raise
          { v with tin := { v.tin with fenced := sins v.tin.fenced n } } 0x009 n)) (n / 8))))
    ∧ (let r := tgetD u.ist.loopRun n (0, false)
       let k := 4 * n + r.1
       (unitEnds u 1 k = false → exec (.flashEngineLoopback n p t) s = .next u)
       ∧ (unitEnds u 1 k = true → r.1 < 3 →
           let v := unitDone u 1 k n p
           exec (.flashEngineLoopback n p t) s
             = .next { v with ist := { v.ist with loopRun := tset v.ist.loopRun n (r.1 + 1, r.2 || !p) } })
       ∧ (unitEnds u 1 k = true → 3 ≤ r.1 →
           let v := unitDone u 1 k n p
           let m := if r.2 || !p then tgetD v.ist.loopFails n 0 + 1 else 0
           let w := { v with ist := { v.ist with loopRun := tdel v.ist.loopRun n, loopFails := tset v.ist.loopFails n m } }
           exec (.flashEngineLoopback n p t) s = .next (if 2 ≤ m then failChannel (raiseOpen w 0x1C8) n else w)))
    ∧ (let near := fun (v c : Nat) => 200 * ((v : Int) - c).natAbs ≤ c
       (unitEnds u 2 n = false → exec (.converterReference n low high t) s = .next u)
       ∧ (unitEnds u 2 n = true → near low 4096 → near high 8192 →
           exec (.converterReference n low high t) s = .next (unitDone u 2 n n true))
       ∧ (unitEnds u 2 n = true → (¬ near low 4096 ∨ ¬ near high 8192) →
           let w := unitDone u 2 n n false
           exec (.converterReference n low high t) s = .next (setAdc (raiseOpen w 0x1C9) n { adcOf w n with failed := true })))
    ∧ (let slot := if n = 24 then 0 else n
       (unitEnds u 3 n = false → exec (.comparatorTrip n p t) s = .next u)
       ∧ (unitEnds u 3 n = true → exec (.comparatorTrip n true t) s = .next (unitDone u 3 n slot true))
       ∧ (unitEnds u 3 n = true →
           let w := unitDone u 3 n slot false
           exec (.comparatorTrip n false t) s
             = .next (raiseOpen { w with psq := { w.psq with scanSlots := sins w.psq.scanSlots slot } } 0x1CA)))
    ∧ ((unitEnds u 4 n = false) → exec (.faultPathInjection n p d a t) s = .next u)
    ∧ (unitEnds u 4 n = true →
        exec (.faultPathInjection n false d a t) s = .next { u with ist := { u.ist with step := none } }
        ∧ (let v := captureInjected (captureInjected (drew u) n (drawn u % 2 ^ 32)) 0x1F0 n
           exec (.faultPathInjection n true true true t) s = .next (unitDone v 4 n n true))
        ∧ (let v := unitDone u 4 n n false
           exec (.faultPathInjection n true false false t) s
             = .next (raise (setSource v n { source v n with untrusted := true }) 0x1CB n))
        ∧ (let v := unitDone (captureInjected (drew u) n (drawn u % 2 ^ 32)) 4 n n false
           exec (.faultPathInjection n true true false t) s
             = .next (raise (setSource v n { source v n with untrusted := true }) 0x1CB n))
        ∧ (let v := unitDone (captureInjected u 0x1F0 n) 4 n n false
           exec (.faultPathInjection n true false true t) s
             = .next (raise (setSource v n { source v n with untrusted := true }) 0x1CB n)))
    ∧ (unitEnds u 5 n = false → exec (.cipherKnownAnswer n p t) s = .next u)
    ∧ (unitEnds u 5 n = true → exec (.cipherKnownAnswer n true t) s = .next (unitDone u 5 n n true)
        ∧ exec (.cipherKnownAnswer n false t) s = .next (raiseOpen (unitDone u 5 n n false) 0x1CC)))
  ∧ (∀ (n t : Nat) (s u : State), u = tick s t →
    ((logicOn u = false ∨ 6 < n) → exec (.istCoverage n t) s = .next u)
    ∧ (logicOn u = true → n ≤ 6 →
        let overdue := fun (id : Nat) (f : InFlight) => (istItem u n).now = some id ∧ inflight u id = some f
          ∧ f.since + itemPeriod u n * 3600000000 ≤ u.now
        let judged := fun (v : State) =>
          if (istItem v n).late || opSecs v < (istItem v n).covered + itemPeriod v n * 3600 then v
          else
            let w := setItem v n { istItem v n with late := true }
            if (source w 0x1CD).live then w else raiseLiveOpen w 0x1CD
        (¬ (∃ id f, overdue id f) → exec (.istCoverage n t) s = .next (judged u))
        ∧ (∀ id f, overdue id f → exec (.istCoverage n t) s = .next (judged (endWith { u with ist := { u.ist with
            items := u.ist.items.map (fun p =>
              (p.1, if p.2.now == some id then { p.2 with now := none, nowFail := none } else p.2)) } } id 0x0D 0))))
    ∧ ((∀ x, u.ist.pausedTill = some x → u.now < x) → exec (.weedingPauseEnd t) s = .next u)
    ∧ (∀ x, u.ist.pausedTill = some x → x ≤ u.now →
        exec (.weedingPauseEnd t) s = .next { u with ist := { u.ist with pausedTill := none } })
    ∧ (logicOn u = false → exec (.telemetrySample t) s = .next u ∧ exec (.telemetrySummary t) s = .next u)
    ∧ ((∃ a, u.ist.sampledAt = some a ∧ u.now < a + 1000000) → exec (.telemetrySample t) s = .next u)
    ∧ (logicOn u = true → (∀ a, u.ist.sampledAt = some a → a + 1000000 ≤ u.now) →
        exec (.telemetrySample t) s = .next { u with
          ist := { u.ist with
            sampledAt := some u.now, raw := ({ seq := u.ist.rawSeq, bytes := sampleBytes u } :: u.ist.raw).take 3600, rawSeq := u.ist.rawSeq + 1,
            hours := countHour u, txLast := u.exl.txBytes, secCe := 0, secRetry := 0, secRd := 0, secWr := 0 },
          hrv := { u.hrv with fetchCount := 0, fetchMax := 0 } })
    ∧ (logicOn u = true →
        ((assisted u 6 = true ∨ bothDown u = true) →
            exec (.telemetrySummary t) s = .next { u with ist := { u.ist with sumFrom := u.ist.rawSeq } })
        ∧ (assisted u 6 = false → bothDown u = false → loopsRun u true = false → exec (.telemetrySummary t) s = .next u)
        ∧ (assisted u 6 = false → bothDown u = false → loopsRun u true = true →
            (floorRate u = true → u.ist.rawSeq < u.ist.sumFrom + 600 → exec (.telemetrySummary t) s = .next u)
            ∧ ((floorRate u = false ∨ u.ist.sumFrom + 600 ≤ u.ist.rawSeq) →
                exec (.telemetrySummary t) s = .next (buildSums u 60)))))

/-- REHEARSAL_RUN answers the refusal that applies or starts a rehearsal on the source slot, which borrows superblocks; one that
is due starts on its own in the quiet hour, or a day late, never in a pause. A phase ends only when its time has passed (the
last also needs the source slot good) and records its figure; before its last phase two seconds abort it with code 5.
TEST_SCHEDULE runs items, sets a period of 1 to 24 hours and keeps it, pauses for 1 to 1,440 minutes or ends the pause, and
refuses other actions, items and values by their byte, and a run that is already running. TEST_RESULT answers an item's counts
or reads the rings, and refuses a host that does not own function 6 the raw ring. Rests on 10_energy_pack.md R312,
10_energy_pack.md R313, 10_energy_pack.md R314, 10_energy_pack.md R317, 16_background_and_self_test.md R431,
16_background_and_self_test.md R432, 16_background_and_self_test.md R434, 16_background_and_self_test.md R435,
02_trellis_commands.md R50, log entries 62, 63, 67 and 68. -/
def Obligations.RehearsalsAndTests : Prop :=
  (∀ (c : TrellisCmd) (s v : State) (f : InFlight), started 0x0403 c s = some (v, f) →
    (∀ st d, rehRefusal v = some (st, d) → exec (.rehearsalRun c) s = .next (endWith v f.id st d))
    ∧ (rehRefusal v = none →
        exec (.rehearsalRun c) s = .next (startRehearsal (setJob v f.id .rehearsal) false (bit (pByte f.cmd 24) 0) (some f.id))))
  ∧ (∀ (moved t : Nat) (s u : State), u = tick s t →
    (rehIsDue u = false → exec (.rehearsalDue t) s = .next { u with ist := { u.ist with dueAt := none } })
    ∧ (rehIsDue u = true →
        let day := opSecs u / 86400
        let w := { u with ist := { u.ist with
          dueAt := some (u.ist.dueAt.getD u.now), retryDay := day,
          retries := if u.ist.retryDay == day then u.ist.retries else 0 } }
        let time := match w.ist.retryAt with
          | some x => x ≤ w.now ∧ w.ist.retries ≤ 3
          | none => quietHour w = some (opSecs w / 3600 % 24) ∨ w.ist.dueAt.getD w.now + 86400000000 ≤ w.now
        (w.ist.pausedTill = none → time → rehRefusal w = none → exec (.rehearsalDue t) s
          = .next (startRehearsal { w with ist := { w.ist with retryAt := none } } true false none))
        ∧ ((w.ist.pausedTill ≠ none ∨ ¬ time ∨ rehRefusal w ≠ none) → exec (.rehearsalDue t) s = .next w))
    ∧ (u.gau.reh = none → exec (.rehearsalPhaseEnd moved t) s = .next u ∧ exec (.rehearsalTimeLimit t) s = .next u)
    ∧ (∀ r, u.gau.reh = some r →
        let us := u.now - r.phaseAt
        let v := if r.phase == 1 || r.phase == 2 then wear u (moved / 16384) true else u
        let next := { r with phase := r.phase + 1, phaseAt := v.now, energy := 0, charge := 0, first := none }
        let go := fun (x : Rehearsal) => ({ v with gau := { v.gau with reh := some x } } : State)
        (r.phase < 5 → r.since + 2000000 ≤ u.now → exec (.rehearsalTimeLimit t) s = .next (rehAbort u 5))
        ∧ ((5 ≤ r.phase ∨ u.now < r.since + 2000000) → exec (.rehearsalTimeLimit t) s = .next u)
        ∧ ((phaseOver u r = false ∨ (r.phase = 5 ∧ u.psq.good.contains (srcSlot u) = false)) →
            exec (.rehearsalPhaseEnd moved t) s = .next u)
        ∧ (phaseOver u r = true → (r.phase = 5 → u.psq.good.contains (srcSlot u) = true) →
            (r.phase = 0 → exec (.rehearsalPhaseEnd moved t) s
              = .next (go { next with p0 := (r.energy / (us * 1000000000 : Nat)).toNat }))
            ∧ (r.phase = 1 → exec (.rehearsalPhaseEnd moved t) s = .next (go { next with
                eByte := (r.energy * 2 ^ 30 / (moved * 10 ^ 15 : Nat)).toNat, ih := r.charge / (us * 1000 : Nat) }))
            ∧ ((r.phase = 2 ∨ r.phase = 3) → exec (.rehearsalPhaseEnd moved t) s
                = .next (go { next with floors := r.floors ++ [rehComponent v r moved] }))
            ∧ (r.phase = 4 → exec (.rehearsalPhaseEnd moved t) s
                = .next (rehHandBack (go { next with floors := r.floors ++ [rehComponent v r moved] }) r))
            ∧ (5 ≤ r.phase → exec (.rehearsalPhaseEnd moved t) s = .next (rehComplete v r)))))
  ∧ (∀ (c : TrellisCmd) (s v : State) (f : InFlight), started 0x0A00 c s = some (v, f) →
    let act := pByte f.cmd 24
    let item := pByte f.cmd 25
    let hours := pNum f.cmd 28 4
    let mins := pNum f.cmd 32 4
    let named := (item ≤ 6 ∨ item = 0xFF) ∧ (act < 2 → item ≠ 6)
    (3 < act → exec (.testSchedule c) s = .next (badParam v f.id 24))
    ∧ (act ≤ 3 → ¬ named → exec (.testSchedule c) s = .next (badParam v f.id 25))
    ∧ (named → act = 0 → (itemsOf item).any (fun n => (istItem v n).now.isSome) = true →
        exec (.testSchedule c) s = .next (conflict v f.id 0x10))
    ∧ (named → act = 0 → (itemsOf item).any (fun n => (istItem v n).now.isSome) = false → exec (.testSchedule c) s
        = .next ((itemsOf item).foldl (fun s n => setItem s n { istItem s n with units := [], now := some f.id, nowFail := none })
          (setJob v f.id (.weed item))))
    ∧ (named → act = 1 → (hours < 1 ∨ 24 < hours) → exec (.testSchedule c) s = .next (badParam v f.id 28))
    ∧ (named → act = 1 → 1 ≤ hours → hours ≤ 24 → exec (.testSchedule c) s = .next (endOk (saveConfig
        ((itemsOf item).foldl (fun s n => setItem s n { istItem s n with period := hours }) v)) f.id []))
    ∧ (named → act = 2 → (mins < 1 ∨ 1440 < mins) → exec (.testSchedule c) s = .next (badParam v f.id 32))
    ∧ (named → act = 2 → 1 ≤ mins → mins ≤ 1440 → exec (.testSchedule c) s
        = .next (endOk { v with ist := { v.ist with pausedTill := some (v.now + mins * 60000000) } } f.id []))
    ∧ (named → act = 3 → exec (.testSchedule c) s = .next (endOk { v with ist := { v.ist with pausedTill := none } } f.id [])))
  ∧ (∀ (c : TrellisCmd) (s v : State) (f : InFlight), started 0x0A01 c s = some (v, f) →
    let item := pByte f.cmd 24
    let kind := pByte f.cmd 25
    let n := f.cmd.payLen
    let ring := fun (w : State) (ring : List Sample) (next : Nat) =>
      let oldest := next - ring.length
      let start := min next (max (pNum f.cmd 28 4) oldest)
      let k := min (n / 64) (next - start)
      endOut w f.id (le k 4 ++ le (start + k) 4 ++ le (oldest - pNum f.cmd 28 4) 4 ++ zeros 4)
        (((ring.reverse.drop (start - oldest)).take k).flatMap (fun x => x.bytes))
    (2 < kind → exec (.testResult c) s = .next (badParam v f.id 25))
    ∧ (kind = 2 → issClass f.cmd.est = 0 → owns v f.cmd.est 6 = false → exec (.testResult c) s = .next (endWith v f.id 0x05 0x05))
    ∧ (kind = 0 → 6 < item → exec (.testResult c) s = .next (badParam v f.id 24))
    ∧ (kind = 0 → item ≤ 6 → exec (.testResult c) s = .next (endOk v f.id (le (istItem v item).passed 4 ++ le (istItem v item).failed 4
        ++ le (itemAge v item) 2 ++ le (b2n (istItem v item).late + fld (b2n v.ist.pausedTill.isSome) 1 1) 1 ++ zeros 1
        ++ le ((istItem v item).lastFail.getD 0xFFFFFFFF) 4)))
    ∧ (kind = 1 → (n < 64 ∨ n % 64 ≠ 0) → exec (.testResult c) s = .next (badParam v f.id 0x40))
    ∧ (kind = 1 → 64 ≤ n → n % 64 = 0 → exec (.testResult c) s = .next (ring v v.ist.sums v.ist.sumSeq))
    ∧ (kind = 2 → (issClass f.cmd.est ≠ 0 ∨ owns v f.cmd.est 6 = true) →
        ((n < 64 ∨ n % 64 ≠ 0) → exec (.testResult c) s = .next (badParam v f.id 0x40))
        ∧ (64 ≤ n → n % 64 = 0 →
            let w := if owns v f.cmd.est 6 then assistInput v 6 else v
            exec (.testResult c) s = .next (ring w w.ist.raw w.ist.rawSeq))))

/-- VAON starts the cold frame from OFF alone; its loss, a reset and a brown-out act on what is on; straps are sampled once. Good
input starts or resumes from SHELF and HELD, waits in RAILS_DOWN and is held off after an off. A power failure harvests from a
serving state, joins a harvest, and takes the rails down in a start; one that two earlier causes outrank only notes its
source. The button acts on press from SHELF, a press shorter than 7.95 s asks for off, a longer one forces it; MR_N harvests
while asserted; a power cycle leaves LATCHED for SHELF. Off is sealed when nothing is exposed and abandoned at its limit. Hold
ends at its maximum. 105 °C is logged, 115 °C forces off. POWER_STATE_REQ asks for off, on or a domain switch, refuses other
values, and ends INTERRUPTED where a cause of a higher rank has won (the model's choice, log entry 104); a late switch ends
with TIMEOUT. Where a state takes no part, the event is ignored. Rests on 01_architecture.md R22, 01_architecture.md R23,
06_harvest_and_replant.md R163, 06_harvest_and_replant.md R193, 11_rail_sequencing.md R328, 11_rail_sequencing.md R329,
11_rail_sequencing.md R330, 11_rail_sequencing.md R331, 11_rail_sequencing.md R337, 17_balls_and_package.md R441,
18_electrical_and_timing.md R472, log entries 1, 3, 22, 91 and 104. -/
def Obligations.PowerEvents : Prop :=
  (∀ (i : ColdIn) (x y : Bool) (temp : Int) (ecc : List Nat) (us n t : Nat) (s u : State), u = tick s t →
    let st := u.dev.state
    (st = .off → exec (.vaonPresent i t) s = .next (coldStart i u))
    ∧ (st ≠ .off → exec (.vaonPresent i t) s = .next (ignored u .none))
    ∧ ((st = .off ∨ u.pin.strapsTaken = true ∨ u.now < u.dev.vaonAt + 100) → exec (.strapSample x y t) s = .next u)
    ∧ (st ≠ .off → u.pin.strapsTaken = false → u.dev.vaonAt + 100 ≤ u.now →
        let w := { u with pin := { u.pin with strapTest := x, strapXbyp := y, strapsTaken := true } }
        exec (.strapSample x y t) s = .next (if x && lifecycle w != 0 then logEvent w 0x210 0 0 else w))
    ∧ (st = .off → exec (.vaonAbsent t) s = .next u ∧ exec (.vaonReset t) s = .next u ∧ exec (.brownOut t) s = .next u
        ∧ exec (.vaonRecovery t) s = .next u)
    ∧ ((st = .shelf ∨ st = .latched) → exec (.vaonAbsent t) s = .next (vaonGone u))
    ∧ (st = .railsDown → exec (.vaonAbsent t) s = .next { u with dev := { u.dev with vaon := false, opSeconds := opSecs u } })
    ∧ (st ≠ .off → st ≠ .shelf → st ≠ .latched → st ≠ .railsDown → exec (.vaonAbsent t) s = .next (ignored u .vaonOrCycle))
    ∧ exec (.vaonLow t) s = .next (collapse u)
    ∧ (st ≠ .off →
        let v := dropWaiting (cutOps u)
        exec (.vaonReset t) s = .next (vaonGone (collapse u))
        ∧ exec (.brownOut t) s = .next { v with nvm := { v.nvm with bod := true }, log := { v.log with writing := false } }
        ∧ exec (.vaonRecovery t) s
            = .next { u with psq := { u.psq with collapse := false }, nvm := { u.nvm with bod := false } })
    ∧ (st ≠ .waking → exec (.startChecks temp ecc x t) s = .next (ignored u .progress) ∧ exec (.coldTempRecheck temp ecc x t) s = .next u)
    ∧ (st = .waking → u.fwu.noImage = true → exec (.startChecks temp ecc x t) s = .next u ∧ exec (.coldTempRecheck temp ecc x t) s = .next u)
    ∧ (st = .waking → u.fwu.noImage = false →
        (u.pin.coldWait = false → exec (.startChecks temp ecc x t) s = .next (checksAt temp ecc x u)
          ∧ exec (.coldTempRecheck temp ecc x t) s = .next u)
        ∧ (u.pin.coldWait = true → exec (.startChecks temp ecc x t) s = .next u
          ∧ (u.pin.coldAt + 1000000 ≤ u.now → exec (.coldTempRecheck temp ecc x t) s = .next (checksAt temp ecc x u))
          ∧ (u.now < u.pin.coldAt + 1000000 → exec (.coldTempRecheck temp ecc x t) s = .next u)))
    ∧ (let w := { u with psq := { u.psq with inputIn := true } }
       ((u.psq.offHold = true ∨ st = .off ∨ st = .harvesting) → exec (.inputGood t) s = .next w)
       ∧ (u.psq.offHold = false → (st = .shelf ∨ st = .held) → exec (.inputGood t) s = .next (settle w .inputGood))
       ∧ (u.psq.offHold = false → st = .railsDown →
           exec (.inputGood t) s = .next { u with psq := { u.psq with inputIn := true, onPending := true } })
       ∧ (u.psq.offHold = false → (st = .waking ∨ st = .railsUp ∨ st = .training ∨ st = .replanting ∨ st = .serving ∨ st = .degraded ∨ st = .latched) →
           exec (.inputGood t) s = .next (ignored w .inputGood)))
    ∧ exec (.pfGlitch us t) s = .next (logEvent u 0x201 us 0)
    ∧ (st = .harvesting → exec (.powerFailNotice us t) s = .next (takeCut u us))
    ∧ (st ≠ .harvesting → exec (.powerFailNotice us t) s = .next u)
    ∧ ((st ≠ .harvesting ∨ u.hrv.run = none ∨ ∃ r, u.hrv.run = some r ∧ r.phase ≠ 5) → exec (.harvestDoneNotice t) s = .next (ignored u .sealed))
    ∧ (∀ r, st = .harvesting → u.hrv.run = some r → r.phase = 5 →
        let w := { u with hrv := { u.hrv with run := none } }
        (u.hrv.dest = .held → exec (.harvestDoneNotice t) s = .next (enterHeld u r.cause.code))
        ∧ (u.hrv.dest = .latched → exec (.harvestDoneNotice t) s = .next (enterLatched w .sealed))
        ∧ (u.hrv.dest ≠ .held → u.hrv.dest ≠ .latched → exec (.harvestDoneNotice t) s = .next (toRailsDown w .sealed)))
    ∧ ((reactRank n < 2 ∨ (source u n).live = true) → exec (.fatalNotice n us t) s = .next u)
    ∧ (2 ≤ reactRank n → (source u n).live = false → exec (.fatalNotice n us t) s = .next (raiseLive u n us)))
  ∧ (∀ (under overV pin : Bool) (t : Nat) (s u : State), u = tick s t →
    let mon := under || overV
    let p := pin && cfg u rAonPfCfg 31 1 == 1
    let w := { u with
      psq := { u.psq with
              inputIn := u.psq.inputIn && !mon, on := if overV then sdel u.psq.on 0 else u.psq.on,
              good := if overV then sdel u.psq.good 0 else u.psq.good },
      hrv := { u.hrv with pfSource := b2n mon + 2 * b2n p } }
    let v := noteWon w 3
    ((mon || p) = false ∨ u.dev.state = .off ∨ u.psq.collapse = true → exec (.powerFail under overV pin t) s = .next u)
    ∧ ((mon || p) = true → u.dev.state ≠ .off → u.psq.collapse = false →
        (outranked w 3 = true → exec (.powerFail under overV pin t) s = .next w)
        ∧ (outranked w 3 = false →
          ((v.dev.state = .replanting ∨ v.dev.state = .serving ∨ v.dev.state = .degraded) →
            exec (.powerFail under overV pin t) s = .next (notice (enterHarvesting v .powerFail []) 0 false))
          ∧ (v.dev.state = .harvesting → exec (.powerFail under overV pin t) s = .next (harvestCause v .powerFail))
          ∧ ((v.dev.state = .waking ∨ v.dev.state = .railsUp ∨ v.dev.state = .training) →
            exec (.powerFail under overV pin t) s = .next (toRailsDown v .powerFail))
          ∧ ((v.dev.state = .shelf ∨ v.dev.state = .held ∨ v.dev.state = .railsDown ∨ v.dev.state = .latched) →
            exec (.powerFail under overV pin t) s = .next (ignored v .powerFail)))))
  ∧ (∀ (t : Nat) (temp : Int) (s u : State), u = tick s t →
    let st := u.dev.state
    (u.psq.offRun = none → exec (.orderlyOffSeal t) s = .next u ∧ exec (.offAbandoned t) s = .next u
      ∧ exec (.orderlyOffPowerDown t) s = .next (ignored u .progress))
    ∧ (∀ r, u.psq.offRun = some r →
        let busy := ∃ v, u.hrv.save = some v ∧ v.forOff = true ∧ (v.left ≠ [] ∨ v.out ≠ [])
        let ended := fun (w : State) => match w.hrv.save with | some v => if v.forOff then none else some v | none => none
        let kind := match u.hrv.save with | some v => if v.forOff then 2 else 1 | none => 1
        let w := r.cmds.foldl (fun s id => endPower s id 0 0) (placeSeal u {
          kind := kind, cause := r.cause.code,
          powerCycle := u.dev.powerCycles, opSeconds := opSecs u, epoch := if u.exl.paired then u.exl.epoch else 0,
          regs := [u.hrv.cutNs, u.hrv.linkDownNs, u.hrv.lastGranules, u.hrv.lastTimeUs] ++ u.hrv.rates,
          cutSeq := (List.range 64).map (fun i => BitVec.ofNat 64 (tgetD u.ldg.seqs i 0)) } none)
        ((r.sealed = true ∨ exposure u ≠ 0 ∨ busy) → exec (.orderlyOffSeal t) s = .next u)
        ∧ (r.sealed = false → exposure u = 0 → ¬ busy → exec (.orderlyOffSeal t) s = .next (saveConfig { w with
            psq := { w.psq with offHold := true, offRun := some { r with sealed := true, sealAt := w.now, cmds := [] } },
            hrv := { w.hrv with save := ended w } }))
        ∧ (r.sealed = true → r.sealAt + 10000 ≤ u.now → (st = .serving ∨ st = .degraded) →
            exec (.orderlyOffPowerDown t) s = .next (toRailsDown u r.cause))
        ∧ ((r.sealed = false ∨ u.now < r.sealAt + 10000) → (st = .serving ∨ st = .degraded) → exec (.orderlyOffPowerDown t) s = .next u)
        ∧ ((r.sealed = true ∨ u.now < r.since + max 10 (cfg u rPsqCfg 16 16) * 1000000) → exec (.offAbandoned t) s = .next u)
        ∧ (r.sealed = false → r.since + max 10 (cfg u rPsqCfg 16 16) * 1000000 ≤ u.now →
            let a := r.cmds.foldl (fun s id => endPower s id 0x0D 0) (logEvent u 0x204 (exposure u) 0)
            exec (.offAbandoned t) s = .next { a with
              psq := { a.psq with offRun := none }, drp := { a.drp with offDrain := false },
              hrv := { a.hrv with save := ended a } }))
    ∧ (let quiet := st = .off ∨ u.psq.collapse = true
       ((cfg u rPsqCfg 0 1 = 0 ∨ quiet) → exec (.pwrbtnPress t) s = .next u)
       ∧ (cfg u rPsqCfg 0 1 ≠ 0 → ¬ quiet →
           let w := { u with psq := { u.psq with btnDown := true, btnLong := false, btnShelf := st == .shelf, btnAt := u.now } }
           exec (.pwrbtnPress t) s = .next (if st == .shelf then onRequest w .shortPress else w))
       ∧ ((u.psq.btnDown = false ∨ u.psq.btnLong = true ∨ cfg u rPsqCfg 0 1 = 0) →
           exec (.shortPress t) s = .next u ∧ exec (.longPress t) s = .next u)
       ∧ (u.psq.btnDown = true → u.psq.btnLong = false → cfg u rPsqCfg 0 1 ≠ 0 →
           let w := { u with psq := { u.psq with btnDown := false } }
           let l := { u with psq := { u.psq with btnLong := true } }
           let h := { u with psq := { u.psq with btnLong := true, offHold := true } }
           (u.psq.btnAt + 7950000 ≤ u.now → exec (.shortPress t) s = .next u)
           ∧ (u.now < u.psq.btnAt + 7950000 → exec (.longPress t) s = .next u)
           ∧ (u.now < u.psq.btnAt + 7950000 → (u.psq.btnShelf = true ∨ outranked w 6 = true) → exec (.shortPress t) s = .next w)
           ∧ (u.now < u.psq.btnAt + 7950000 → u.psq.btnShelf = false → outranked w 6 = false →
               exec (.shortPress t) s = .next (offRequest (noteWon w 6) .shortPress [] true))
           ∧ (u.psq.btnAt + 7950000 ≤ u.now → u.psq.btnShelf = true → exec (.longPress t) s = .next l)
           ∧ (u.psq.btnAt + 7950000 ≤ u.now → u.psq.btnShelf = false → st = .latched →
               exec (.longPress t) s = .next (ignored l .longPress))
           ∧ (u.psq.btnAt + 7950000 ≤ u.now → u.psq.btnShelf = false → st ≠ .latched →
               exec (.longPress t) s = .next (if outranked h 4 then h else longPress (noteWon h 4) .longPress true)))
       ∧ ((cfg u rPsqCfg 1 1 = 0 ∨ quiet) → exec (.mrNAssert t) s = .next u ∧ exec (.mrNRelease t) s = .next u)
       ∧ (cfg u rPsqCfg 1 1 ≠ 0 → ¬ quiet →
           let w := { u with psq := { u.psq with mrActive := true } }
           let r := { u with psq := { u.psq with mrActive := false } }
           let v := noteWon w 5
           (outranked w 5 = true → exec (.mrNAssert t) s = .next w)
           ∧ (outranked w 5 = false → serving v = true → exec (.mrNAssert t) s = .next (startHarvest v .mrN []))
           ∧ (outranked w 5 = false → v.dev.state = .harvesting → exec (.mrNAssert t) s = .next (harvestCause v .mrN))
           ∧ (outranked w 5 = false → serving v = false → v.dev.state ≠ .harvesting → exec (.mrNAssert t) s = .next (ignored v .mrN))
           ∧ exec (.mrNRelease t) s = .next (if st == .held then settle r .mrN else ignored r .mrN)))
    ∧ (st = .off → exec (.powerCycle t) s = .next u)
    ∧ (st ≠ .off →
        let w := { u with psq := { u.psq with inputIn := false, offHold := false } }
        let v := pairWrite { w with
          dev := { w.dev with powerCycles := w.dev.powerCycles + 1 },
          flt := { w.flt with latched := none, latchedStop := false, window := none, alive := true } } 5
        (st ≠ .latched → exec (.powerCycle t) s = .next (ignored w .vaonOrCycle))
        ∧ (st = .latched → exec (.powerCycle t) s = .next (setDev v (if v.dev.vaon then .shelf else .off) .vaonOrCycle)))
    ∧ (let m := u.hrv.holdMax
       (outranked u 7 = true → exec (.holdTimeReached t) s = .next u)
       ∧ (outranked u 7 = false → st ≠ .held → exec (.holdTimeReached t) s = .next (ignored u .holdTime))
       ∧ (outranked u 7 = false → st = .held → ((heldByMr u = true ∧ m = 0) ∨ u.now < u.dev.stateAt + m * 1000000) →
           exec (.holdTimeReached t) s = .next u)
       ∧ (outranked u 7 = false → st = .held → (heldByMr u = false ∨ m ≠ 0) → u.dev.stateAt + m * 1000000 ≤ u.now →
           exec (.holdTimeReached t) s = .next (toRailsDown (noteWon u 7) .holdTime)))
    ∧ ((logicOn u = false ∨ temp < 105) → exec (.thermalHigh temp t) s = .next u)
    ∧ (logicOn u = true → 105 ≤ temp → exec (.thermalHigh temp t) s
        = .next (logEvent { u with pin := { u.pin with logicMax := some temp, logicAt := u.now, thermHigh := true } } 0x212 (twos temp 8) 0))
    ∧ ((temp < 115 ∨ (logicOn u = false ∧ st ≠ .railsUp)) → exec (.thermalTrip temp t) s = .next u)
    ∧ (115 ≤ temp → (logicOn u = true ∨ st = .railsUp) →
        let w := logEvent { u with pin := { u.pin with logicMax := some temp, logicAt := u.now } } 0x213 (twos temp 8) 0
        exec (.thermalTrip temp t) s = .next (if outranked w 4 then w else longPress (noteWon w 4) .thermal false))
    ∧ ((st = .off ∨ u.gau.burst = false ∨ u.dev.xtalOk = false) → exec (.xtalFail t) s = .next u)
    ∧ (st ≠ .off → u.gau.burst = true → u.dev.xtalOk = true → exec (.xtalFail t) s
        = .next (raiseLive (drew { u with dev := { u.dev with xtalOk := false } }) 0x002 (drawn u % 2 ^ 32)))
    ∧ (let late := jobs u (fun j => match j with | .domain _ _ dl _ => decide (dl ≤ u.now) | _ => false)
       let w := late.foldl (fun s f => endPower s f.id 0x0D 0) u
       exec (.domainSwitchTimeout t) s = .next { w with psq := { w.psq with
         sw := w.psq.sw.map (fun z => { z with cmds := z.cmds.filter (fun id => !(late.any (fun f => f.id == id))) }) } }))
  ∧ (∀ (c : TrellisCmd) (s v : State) (f : InFlight), started 0x0500 c s = some (v, f) →
    let act := pByte f.cmd 24
    let d := pByte f.cmd 25
    let st := v.dev.state
    let off := setJob (noteWon v 6) f.id (.off (exposure v))
    let dom := fun (on : Bool) => setJob v f.id (.domain d on
      (f.since + (if pNum f.cmd 28 4 = 0 then 10000 else pNum f.cmd 28 4) * 1000) (exposure v))
    (3 < act → exec (.powerStateReq c) s = .next (badParam v f.id 24))
    ∧ ((act = 2 ∨ act = 3) → (d = 0 ∨ 8 < d) → exec (.powerStateReq c) s = .next (badParam v f.id 25))
    ∧ (act ≤ 1 → outranked v 6 = true → exec (.powerStateReq c) s = .next (endWith v f.id 0x07 1))
    ∧ (act = 0 → outranked v 6 = false → (st = .shelf ∨ st = .held ∨ st = .railsDown) →
        exec (.powerStateReq c) s = .next (endPower (offRequest off .powerReq [] true) f.id 0 0))
    ∧ (act = 0 → outranked v 6 = false → st ≠ .shelf → st ≠ .held → st ≠ .railsDown →
        exec (.powerStateReq c) s = .next (offRequest off .powerReq [f.id] true))
    ∧ (act = 1 → outranked v 6 = false → exec (.powerStateReq c) s = .next (endPower (onRequest off .powerReq) f.id 0 0))
    ∧ ((act = 2 ∨ act = 3) → 0 < d → d ≤ 8 → serving v = false →
        exec (.powerStateReq c) s = .next (conflict v f.id (0x02 + fld st.code 8 8)))
    ∧ (act = 2 → 0 < d → d ≤ 8 → serving v = true → exec (.powerStateReq c) s = .next (askDomain (dom true) d true f.id))
    ∧ (act = 3 → 0 < d → d ≤ 8 → serving v = true → exec (.powerStateReq c) s = .next (askDomain (dom false) d false f.id)))

/-- A slot is enabled when its prerequisites are good, in a start, as a privileged slot late, or as the step of a switch on;
enabling it is enableSlot. A good slot, no sooner than its glitch time after its enable, is noted with its time and the start
or switch goes on. A slot that is not good within its ramp time fails its switch, is RAIL_RAMP in a start, or harvests. A slot
goes off in its turn after its delay; one that is slow counts as off with RAIL_SLOW_OFF. A comparator fault stops the rail
unless a greater cause came at the same time; a scan keeps each slot's code and faults a scanned slot outside its limits for
its glitch time. In HELD an excursion of a held rail and a DRST are noted in the held record, with its CRC. A slave's answer
is kept, its alarms fault their slots; three failed polls lose it. SLAVE_SEQ_CMD checks slave, code and ownership and goes out
on bus 2. Rests on 11_rail_sequencing.md R322, 11_rail_sequencing.md R323, 11_rail_sequencing.md R325, 11_rail_sequencing.md
R326, 11_rail_sequencing.md R327, 11_rail_sequencing.md R332, 11_rail_sequencing.md R333, 11_rail_sequencing.md R334,
11_rail_sequencing.md R336, 11_rail_sequencing.md R338, 06_harvest_and_replant.md R191, log entries 17, 18 and 92. -/
def Obligations.RailEvents : Prop :=
  (∀ (n code slave word t : Nat) (ok : Bool) (codes : List Nat) (s u : State), u = tick s t →
    let st := u.dev.state
    let late := (railSlot u n).cls = 3 ∧ (st = .training ∨ serving u = true)
    let may := mayEnable u n = true ∧ (st = .railsUp ∨ late ∨ ∃ w, u.psq.sw = some w ∧ w.on = true ∧ mayStep u w n = true)
    (may → exec (.slotEnable n t) s = .next (enableSlot u n))
    ∧ (¬ may → exec (.slotEnable n t) s = .next u)
    ∧ ((u.psq.on.contains n = false ∨ u.psq.good.contains n = true) →
        exec (.slotGood n t) s = .next u ∧ exec (.railRamp n t) s = .next u)
    ∧ (u.now < tgetD u.psq.onAt n 0 + (railSlot u n).glitch → exec (.slotGood n t) s = .next u)
    ∧ (u.now < tgetD u.psq.onAt n 0 + 10 * (railSlot u n).ramp → exec (.railRamp n t) s = .next u)
    ∧ (u.psq.on.contains n = true → u.psq.good.contains n = false → tgetD u.psq.onAt n 0 + (railSlot u n).glitch ≤ u.now →
        let v := { u with psq := { u.psq with
          good := goodInsert u.psq.goodAt u.now n u.psq.good, goodAt := tset u.psq.goodAt n u.now, lastGood := n } }
        let d := (railSlot u n).domain
        let whole := u.psq.sw = none ∧ d ≠ 0 ∧ (domainSlots v d).all (fun m => v.psq.good.contains m) = true
        (¬ whole → exec (.slotGood n t) s = .next (if st == .railsUp then railsStep v else switchStep v))
        ∧ (whole → st = .railsUp → exec (.slotGood n t) s = .next (railsStep (setDomain v d 1)))
        ∧ (whole → st ≠ .railsUp → exec (.slotGood n t) s = .next (switchStep (setDomain v d 1))))
    ∧ (u.psq.on.contains n = true → u.psq.good.contains n = false → tgetD u.psq.onAt n 0 + 10 * (railSlot u n).ramp ≤ u.now →
        let d := (railSlot u n).domain
        let switching := ∃ w, u.psq.sw = some w ∧ w.on = true ∧ d = w.domain
        (∀ w, u.psq.sw = some w → w.on = true → d = w.domain → exec (.railRamp n t) s = .next (domainFail u w))
        ∧ (¬ switching →
            ((st = .railsUp ∨ late) → exec (.railRamp n t) s
              = .next (raiseCause (noteFault u 3 n (tgetD u.psq.codes n 0) true) 0x188 .fatal))
            ∧ (¬ late → serving u = true → d = 0 → exec (.railRamp n t) s = .next (notice (enterHarvesting u .powerFail []) 0 false))
            ∧ (¬ late → st ≠ .railsUp → (serving u = false ∨ d ≠ 0) → exec (.railRamp n t) s = .next u)))
    ∧ (u.psq.off = [] → nextOff u = some n → u.psq.lastOffAt + (railSlot u n).delay ≤ u.now → exec (.slotDisable n t) s = .next (afterOff (disableSlot u n)))
    ∧ ((u.psq.off ≠ [] ∨ nextOff u ≠ some n ∨ u.now < u.psq.lastOffAt + (railSlot u n).delay) → exec (.slotDisable n t) s = .next u)
    ∧ (u.psq.off.contains n = false → exec (.slotOff n t) s = .next u ∧ exec (.railSlowOff n t) s = .next u)
    ∧ (u.psq.off.contains n = true →
        let v := { u with psq := { u.psq with off := sdel u.psq.off n, lastOffAt := u.now } }
        let slow := tgetD u.psq.disAt n 0 + 10 * (railSlot u n).ramp ≤ u.now
        exec (.slotOff n t) s = .next (afterOff v)
        ∧ (slow → exec (.railSlowOff n t) s = .next (afterOff (raiseOpen v 0x18A)))
        ∧ (¬ slow → exec (.railSlowOff n t) s = .next u))
    ∧ (outranked u 1 = true → exec (.railFault n ok code t) s = .next u)
    ∧ (outranked u 1 = false → exec (.railFault n ok code t) s = .next (railFault (noteWon u 1) n (if ok then 2 else 1) code))
    ∧ ((st = .off ∨ u.psq.collapse = true) → exec (.railScanPass codes t) s = .next u)
    ∧ (st ≠ .off → u.psq.collapse = false → exec (.railScanPass codes t) s = .next ((List.range 24).foldl
        (fun s m => match codes[m]? with | some c => scanSlot s m c | none => s) u))
    ∧ ((st ≠ .held ∨ n = 0 ∨ (railSlot u n).hold = false) → exec (.heldRailExcursion n t) s = .next u)
    ∧ (st = .held → n ≠ 0 → (railSlot u n).hold = true → exec (.heldRailExcursion n t) s = .next { u with
        hrv := { u.hrv with heldRec := u.hrv.heldRec.map (fun r => heldKept { r with excursion := true }) } })
    ∧ (st ≠ .held → exec (.drstSeen n t) s = .next u)
    ∧ (st = .held → exec (.drstSeen n t) s = .next { u with hrv := { u.hrv with
        heldRec := u.hrv.heldRec.map (fun r => if bit r.channels n then heldKept { r with drst := true } else r) } })
    ∧ (∀ r : HeldRec, heldKept r = { r with crc := BitVec.ofNat 32 (crc32c (heldBytes r)) })
    ∧ ((slaveSlots u slave = [] ∨ u.psq.collapse = true ∨ st = .off) → exec (.slaveStatusPoll slave word ok t) s = .next u)
    ∧ (slaveSlots u slave ≠ [] → u.psq.collapse = false → st ≠ .off →
        (ok = true → twiUp u 2 = true →
          let v := { u with psq := { u.psq with
            slaveFails := tdel u.psq.slaveFails slave, slaveLost := sdel u.psq.slaveLost slave,
            slaveStatus := tset u.psq.slaveStatus slave (word % 65536) } }
          exec (.slaveStatusPoll slave word ok t) s = .next (((slaveSlots v slave).filter (fun m =>
            bits word 8 8 &&& (railSlot v m).slaveCh != 0)).foldl (fun s m => railFault s m 4 (tgetD s.psq.codes m 0)) v))
        ∧ ((ok = false ∨ twiUp u 2 = false) →
          let k := tgetD u.psq.slaveFails slave 0 + 1
          let v := { u with psq := { u.psq with slaveFails := tset u.psq.slaveFails slave (min k 3) } }
          (k ≠ 3 → exec (.slaveStatusPoll slave word ok t) s = .next v)
          ∧ (k = 3 → exec (.slaveStatusPoll slave word ok t) s
              = .next (raiseOpen { v with psq := { v.psq with slaveLost := sins v.psq.slaveLost slave } } 0x18C)))))
  ∧ (∀ (s : State) (n code : Nat), code ≤ 1023 → (railSlot s n).cls ≠ 0 → (railSlot s n).uv ≤ code → code ≤ (railSlot s n).ov →
      (scanSlot s n code).psq.outside = sdel s.psq.outside n ∧ (scanSlot s n code).psq.codes = tset s.psq.codes n code)
  ∧ (∀ (s : State) (n code : Nat),
      let r := railSlot s n
      r.cls ≠ 0 → (code < r.uv ∨ r.ov < code) → scanned s n = true → tgetD s.psq.outSince n s.now + r.glitch ≤ s.now →
      ∃ w, scanSlot s n code = railFault w n (if r.ov < code then 2 else 1) (min code 1023)
        ∧ w.psq.outside = sins s.psq.outside n ∧ w.psq.codes = tset s.psq.codes n (min code 1023))
  ∧ (∀ (c : TrellisCmd) (s v : State) (f : InFlight), started 0x0502 c s = some (v, f) →
    let k := pByte f.cmd 24
    let code := pByte f.cmd 25
    let addr := v.psq.table.slaves.getD k 0
    ((7 < k ∨ addr = 0) → exec (.slaveSeqCmd c) s = .next (badParam v f.id 24))
    ∧ (k ≤ 7 → addr ≠ 0 → (code < 0xD0 ∨ 0xD3 < code) → exec (.slaveSeqCmd c) s = .next (badParam v f.id 25))
    ∧ (k ≤ 7 → addr ≠ 0 → 0xD0 ≤ code → code ≤ 0xD1 → (owns v f.cmd.est 3 = false ∨ v.psq.sw = none) →
        exec (.slaveSeqCmd c) s = .next (endWith v f.id 0x05 0x05))
    ∧ (k ≤ 7 → addr ≠ 0 → 0xD0 ≤ code → code ≤ 0xD3 → (0xD2 ≤ code ∨ (owns v f.cmd.est 3 = true ∧ v.psq.sw.isSome = true)) →
        exec (.slaveSeqCmd c) s = .next (twiPost (setJob v f.id (.slave code)) 2 {
          agent := 1, addr := addr, code := code,
          data := if code ≤ 0xD1 then le (pByte f.cmd 26) 1 else [], cmd := some f.id, slot := k })))

/-- A report is taken from a source the device has and does not poll; under an injection it counts as its check. A broken path
makes its source polled and raises 0x1F0, and a broken wire or rail slot is noted once. A poll clears a fault that is gone and
raises one that is new. FAULT_STATUS answers rows and, asked, the snapshot; FAULT_CLEAR refuses a source this unit does not
have and clears what is sticky or counted but the latched source; FAULT_INJECT arms one source for a second. LOG_CURSOR_SET
sets the path's filter and cursor by mode, LOG_READ_WINDOW reads whole records of 256 bytes, up to 16, with skipped and next,
and LOG_CLEAR erases the 128 sectors once however many ask. Each refuses what its text refuses, by byte or reason. Rests on
14_faults_and_events.md R373, 14_faults_and_events.md R374, 14_faults_and_events.md R375, 14_faults_and_events.md R377,
14_faults_and_events.md R381, 14_faults_and_events.md R391, 14_faults_and_events.md R392, 14_faults_and_events.md R393,
14_faults_and_events.md R394, 14_faults_and_events.md R395, 14_faults_and_events.md R396, log entries 19, 38 and 89. -/
def Obligations.CollectorCommands : Prop :=
  (∀ (n detail missed k t : Nat) (holds fault : Bool) (s u : State), u = tick s t →
    let x := source u n
    ((x.polled = true ∨ (sources u).contains n = false) → exec (.faultReport n detail missed holds t) s = .next u)
    ∧ (x.polled = false → (sources u).contains n = true →
        (x.inject = none → exec (.faultReport n detail missed holds t) s = .next (raiseAs u n detail holds .fatal))
        ∧ (∀ j, x.inject = some j → j.path = true →
            exec (.faultReport n detail missed holds t) s = .next (raiseAs u n detail holds .fatal))
        ∧ (∀ j, x.inject = some j → j.path = false →
            exec (.faultReport n detail missed holds t) s = .next (injectedCheck u n detail missed holds j)))
    ∧ (∀ j, x.inject = some j → j.path = true →
        exec (.brokenPath (.source n) t) s = .next (endInject (captureInjected u 0x1F0 n) n { j with detected := 1 }))
    ∧ (let whole := x.polled = true ∨ (x.inject = none ∧ (sources u).contains n = false)
       ((∀ j, x.inject = some j → j.path = false) →
         (whole → exec (.brokenPath (.source n) t) s = .next u)
         ∧ (¬ whole → exec (.brokenPath (.source n) t) s = .next (raise (setSource u n { x with polled := true }) 0x1F0 n))))
    ∧ ((2 < k ∨ u.flt.brokenWires.contains k = true) → exec (.brokenPath (.wire k) t) s = .next u)
    ∧ (k ≤ 2 → u.flt.brokenWires.contains k = false → exec (.brokenPath (.wire k) t) s
        = .next (raiseOpen { u with flt := { u.flt with brokenWires := sins u.flt.brokenWires k } } 0x001))
    ∧ ((23 < k ∨ u.psq.scanSlots.contains k = true) → exec (.brokenPath (.rail k) t) s = .next u)
    ∧ (k ≤ 23 → u.psq.scanSlots.contains k = false → exec (.brokenPath (.rail k) t) s
        = .next (raise { u with psq := { u.psq with scanSlots := sins u.psq.scanSlots k } } 0x1F0 0x189))
    ∧ (x.polled = false → exec (.polledSourceCheck n detail fault t) s = .next u)
    ∧ (x.polled = true → exec (.polledSourceCheck n detail false t) s = .next (clearLive u n)
        ∧ exec (.polledSourceCheck n detail true t) s = .next (if x.live then u else raiseAs u n detail true .fatal))
    ∧ ((logReady u = false ∨ ∃ y, tget u.log.lastRec n = some y ∧ u.now < y + evRate u n) → exec (.logRatePeriod n t) s = .next u)
    ∧ (logReady u = true → (∀ y, tget u.log.lastRec n = some y → y + evRate u n ≤ u.now) →
        exec (.logRatePeriod n t) s = .next (flushBin u n)))
  ∧ (∀ (c : TrellisCmd) (s v : State) (f : InFlight), started 0x0600 c s = some (v, f) →
    let a := pNum f.cmd 24 2
    let n := pNum f.cmd 26 2
    let snap := bit (pByte f.cmd 28) 0
    let rows := (List.range n).flatMap (fun i =>
      le (a + i) 2 ++ le (fltSrcWord v (a + i) / 2 ^ 24) 1 ++ zeros 1 ++ le (source v (a + i)).count 4)
    let kept := match v.flt.snapshot with
      | some l => if snap then padTo (l.flatMap histBytes) 512 else []
      | none => []
    (0x1FF < a → exec (.faultStatus c) s = .next (badParam v f.id 24))
    ∧ (a ≤ 0x1FF → (n = 0 ∨ 512 < n ∨ 0x200 < a + n) → exec (.faultStatus c) s = .next (badParam v f.id 26))
    ∧ (a ≤ 0x1FF → 0 < n → a + n ≤ 0x200 → f.cmd.payLen < 8 * n + (if snap then 512 else 0) →
        exec (.faultStatus c) s = .next (badParam v f.id 0x40))
    ∧ (a ≤ 0x1FF → 0 < n → a + n ≤ 0x200 → 8 * n + (if snap then 512 else 0) ≤ f.cmd.payLen → exec (.faultStatus c) s
        = .next (endOut v f.id (le (v.flt.latched.getD 0xFFFF) 2 ++ le ((firstError v).getD 0xFFFF) 2
          ++ le (v.flt.src.filter (fun p => p.2.sticky)).length 4 ++ le (liveCount v) 4
          ++ le (b2n v.flt.latched.isSome + fld (b2n v.flt.snapshot.isSome) 1 1 + fld (b2n (v.flt.src.any (fun p => p.2.polled))) 2 1) 1)
          (rows ++ kept))))
  ∧ (∀ (c : TrellisCmd) (s v : State) (f : InFlight), started 0x0601 c s = some (v, f) →
    let n := pNum f.cmd 24 2
    let act := pByte f.cmd 26
    let valid := (n ≤ 0x1FF ∨ n = 0xFFFF) ∧ ¬ ((srcKind n).isSome = true ∧ (sources v).contains n = false)
    (¬ valid → exec (.faultClear c) s = .next (badParam v f.id 24))
    ∧ (valid → 1 < act → exec (.faultClear c) s = .next (badParam v f.id 26))
    ∧ (valid → act = 1 → exec (.faultClear c) s = .next (endOk { v with flt := { v.flt with snapshot := none } } f.id (le 0 4)))
    ∧ (valid → act = 0 → v.flt.latched = some n → exec (.faultClear c) s = .next (conflict v f.id 0x10))
    ∧ (valid → act = 0 → v.flt.latched ≠ some n →
        let l := (v.flt.src.filter (fun p => (n == 0xFFFF || p.1 == n) && v.flt.latched != some p.1
          && (p.2.sticky || p.2.count != 0))).map (·.1)
        exec (.faultClear c) s = .next (endOk (l.foldl clearSource v) f.id (le l.length 4))))
  ∧ (∀ (c : TrellisCmd) (s v : State) (f : InFlight), started 0x0602 c s = some (v, f) →
    let n := pNum f.cmd 24 2
    let mode := pByte f.cmd 26
    let live := bit (pByte f.cmd 27) 0
    let checks := pByte f.cmd 28
    let formed := (sources v).contains n = true ∧ mode ≤ 1 ∧ pByte f.cmd 27 ≤ 1 ∧ (mode = 0 → checks ≠ 0)
    let barred := live = true ∧ 2 ≤ reactRank n ∧ 2 ≤ lifecycle v
    let k := if mode = 1 then 1 else checks
    ((sources v).contains n = false → exec (.faultInject c) s = .next (badParam v f.id 24))
    ∧ ((sources v).contains n = true → 1 < mode → exec (.faultInject c) s = .next (badParam v f.id 26))
    ∧ ((sources v).contains n = true → mode ≤ 1 → 1 < pByte f.cmd 27 → exec (.faultInject c) s = .next (badParam v f.id 27))
    ∧ ((sources v).contains n = true → mode = 0 → pByte f.cmd 27 ≤ 1 → checks = 0 → exec (.faultInject c) s = .next (badParam v f.id 28))
    ∧ (formed → barred → exec (.faultInject c) s = .next (conflict v f.id 0x10))
    ∧ (formed → ¬ barred → (source v n).inject.isSome = true → exec (.faultInject c) s = .next (conflict v f.id 0x11))
    ∧ (formed → ¬ barred → (source v n).inject = none → exec (.faultInject c) s = .next (setJob (setSource v n { source v n with
        inject := some { live := live, path := mode == 1, checks := k, left := k, detected := 0, cmd := some f.id } })
        f.id (.inject n (v.now + 1000000)))))
  ∧ (∀ (c : TrellisCmd) (s v : State) (f : InFlight), started 0x0700 c s = some (v, f) →
    let mode := pByte f.cmd 24
    let p := carrierPath f.cmd.carrier
    let g : LogFilter := { minSev := pByte f.cmd 25, code := if pNum f.cmd 26 2 = 0xFFFF then none else some (pNum f.cmd 26 2) }
    let q := pNum f.cmd 32 8 % 2 ^ 48
    let sets := fun (cur : Nat) =>
      let w := setCursor { v with paths := { v.paths with filters := tset v.paths.filters (pathKey p) g } } p cur
      exec (.logCursorSet c) s = .next (endOk w f.id (le (cur % 2 ^ 48) 8 ++ le (logView w (cur % 2 ^ 48) g).length 4))
    (3 < mode → exec (.logCursorSet c) s = .next (badParam v f.id 24))
    ∧ (mode = 0 → sets ((v.log.recs.head?.map (·.seq)).getD (v.log.seq + 1)))
    ∧ (mode = 1 → sets ((v.log.recs.getLast?.map (·.seq)).getD (v.log.seq + 1)))
    ∧ (mode = 2 → sets q) ∧ (mode = 3 → sets (q + 1)))
  ∧ (∀ (c : TrellisCmd) (s v : State) (f : InFlight), started 0x0701 c s = some (v, f) →
    let n := f.cmd.payLen
    let p := carrierPath f.cmd.carrier
    let all := logView v (cursorOf v p) (filterOf v p)
    let l := all.take (n / 256)
    let hi := (l.getLast?.map (·.seq)).getD v.log.seq
    let next := ((all.drop l.length).head?.map (·.seq)).getD (v.log.seq + 1)
    let w := if bit (pByte f.cmd 24) 0 && !l.isEmpty then
        { v with paths := { v.paths with cursors := tset v.paths.cursors (pathKey p) (BitVec.ofNat 64 ((hi + 1) % 2 ^ 48)) } }
      else v
    ((n % 256 ≠ 0 ∨ n < 256 ∨ 4096 < n) → exec (.logReadWindow c) s = .next (badParam v f.id 0x40))
    ∧ (n % 256 = 0 → 256 ≤ n → n ≤ 4096 → exec (.logReadWindow c) s = .next (endOut w f.id
        (le l.length 4 ++ le (skipped v p (cursorOf v p) hi) 4 ++ le next 8) (padTo (l.flatMap recBytes) n))))
  ∧ (∀ (c : TrellisCmd) (s v : State) (f : InFlight), started 0x0702 c s = some (v, f) →
    let w := setJob { v with log := { v.log with clearing := some f.id, erased := 0 } } f.id .logClear
    (v.log.clearing.isSome = true → exec (.logClear c) s = .next (setJob v f.id .logClear))
    ∧ (v.log.clearing = none → exec (.logClear c) s = .next ((List.range 128).foldl (fun s k =>
        nvmPost s { agent := 6, erase := true, addr := logSectorAddr k, what := .logSector k }) w)))

/-- KEY_LABEL_SET is the owner's of function 10, takes 32 bytes for slot 0 to 7 and no reserved name, and saves the label.
RECORD_SEAL encrypts under the slot key and the next nonce, or waits for a reserve. RECORD_OPEN writes the AAD, the computed
plaintext and 16 zero bytes whatever the tag, and answers AUTH_FAIL when the tag differs. AES_BLOCK encrypts or decrypts one
block. With the root key retired the status is a free value. A fuse word from board management with its key burns what its row
burns, or answers 0x04, 0x0E or 0x05; another path raises REG_ACCESS. Read protection rises from 0 to 1 with its key, falls
from board management in SHELF or LATCHED alone, else the write is logged. A finished program takes effect or is done again
elsewhere, and a finished or resumed erase goes on. Rests on 15_firmware_keys_fuses.md R414, 15_firmware_keys_fuses.md R415,
15_firmware_keys_fuses.md R416, 15_firmware_keys_fuses.md R417, 15_firmware_keys_fuses.md R418, 15_firmware_keys_fuses.md
R419, 15_firmware_keys_fuses.md R422, 15_firmware_keys_fuses.md R423, 12_cold_frame_flash.md R350, 12_cold_frame_flash.md
R351, 12_cold_frame_flash.md R346, log entries 33, 39, 40 and 42. -/
def Obligations.KeysFusesAndFlashOperations : Prop :=
  (∀ (c : TrellisCmd) (s v : State) (f : InFlight), started 0x0900 c s = some (v, f) →
    let n := pByte f.cmd 24
    let l := payIn f.cmd
    (owns v f.cmd.est 10 = false → exec (.keyLabelSet c) s = .next (endWith v f.id 0x05 0x05))
    ∧ (owns v f.cmd.est 10 = true → 7 < n → exec (.keyLabelSet c) s = .next (badParam v f.id 24))
    ∧ (owns v f.cmd.est 10 = true → n ≤ 7 → (f.cmd.payLen ≠ 32 ∨ reservedName l = true) →
        exec (.keyLabelSet c) s = .next (badParam v f.id 0x40))
    ∧ (owns v f.cmd.est 10 = true → n ≤ 7 → f.cmd.payLen = 32 → reservedName l = false → exec (.keyLabelSet c) s
        = .next (endOk (pairWrite (assistInput { v with krc := { v.krc with labels := tset v.krc.labels n l } } 10) 5) f.id [])))
  ∧ (∀ (c : TrellisCmd) (s v : State) (f : InFlight), started 0x0901 c s = some (v, f) →
    let slot := pByte f.cmd 24
    let a := pNum f.cmd 28 4
    let n := f.cmd.payLen
    let p := payIn f.cmd
    let key := nats (slotKey v slot)
    let iv := recordIv slot v.krc.nonceNext
    let ct := gctr key iv (nats (slice p a (n - 16 - a)))
    let formed := slot ≤ 7 ∧ 16 ≤ n ∧ n ≤ 65536 ∧ a + 16 ≤ n
    (7 < slot → exec (.recordSeal c) s = .next (badParam v f.id 24))
    ∧ (slot ≤ 7 → (n < 16 ∨ 65536 < n) → exec (.recordSeal c) s = .next (badParam v f.id 0x40))
    ∧ (slot ≤ 7 → 16 ≤ n → n ≤ 65536 → n < a + 16 → exec (.recordSeal c) s = .next (badParam v f.id 28))
    ∧ (formed → v.krc.rootRefused = true → exec (.recordSeal c) s = .next (endWith (drew v) f.id (drawn v % 256) 0))
    ∧ (formed → v.krc.rootRefused = false → 2 ^ 64 - 2 ^ 16 ≤ v.krc.nonceNext →
        exec (.recordSeal c) s = .next (endWith (raiseOpen v 0x1C6) f.id 0x0C 0))
    ∧ (formed → v.krc.rootRefused = false → v.krc.nonceNext < 2 ^ 64 - 2 ^ 16 → v.krc.nonceNext < v.krc.nonceSafe →
        exec (.recordSeal c) s = .next (endOut (takeNonce v) f.id (le v.krc.nonceNext 8 ++ le ct.length 4)
          (p.take a ++ bytes ct ++ bytes (gcmTag key iv (nats (p.take a)) ct))))
    ∧ (formed → v.krc.rootRefused = false → v.krc.nonceNext < 2 ^ 64 - 2 ^ 16 → v.krc.nonceSafe ≤ v.krc.nonceNext →
        exec (.recordSeal c) s = .next (setJob { v with krc := { v.krc with waiting := v.krc.waiting ++ [f.id] } } f.id .nonce)))
  ∧ (∀ (c : TrellisCmd) (s v : State) (f : InFlight), started 0x0902 c s = some (v, f) →
    let slot := pByte f.cmd 24
    let a := pNum f.cmd 28 4
    let n := f.cmd.payLen
    let p := payIn f.cmd
    let key := nats (slotKey v slot)
    let iv := recordIv slot (pNum f.cmd 32 8)
    let ct := nats (slice p a (n - 16 - a))
    let good := gcmTag key iv (nats (p.take a)) ct = nats (p.drop (n - 16))
    let out := p.take a ++ bytes (gctr key iv ct) ++ zeros 16
    let formed := slot ≤ 7 ∧ 16 ≤ n ∧ n ≤ 65536 ∧ a + 16 ≤ n
    (7 < slot → exec (.recordOpen c) s = .next (badParam v f.id 24))
    ∧ (slot ≤ 7 → (n < 16 ∨ 65536 < n) → exec (.recordOpen c) s = .next (badParam v f.id 0x40))
    ∧ (slot ≤ 7 → 16 ≤ n → n ≤ 65536 → n < a + 16 → exec (.recordOpen c) s = .next (badParam v f.id 28))
    ∧ (formed → v.krc.rootRefused = true → exec (.recordOpen c) s = .next (endWith (drew v) f.id (drawn v % 256) 0))
    ∧ (formed → v.krc.rootRefused = false → good → exec (.recordOpen c) s = .next (endOut v f.id [] out))
    ∧ (formed → v.krc.rootRefused = false → ¬ good → exec (.recordOpen c) s = .next (finish v f.id { status := 0x0B, output := out })))
  ∧ (∀ (c : TrellisCmd) (s v : State) (f : InFlight), started 0x0903 c s = some (v, f) →
    let op := pByte f.cmd 24
    let slot := pByte f.cmd 25
    let blk := nats (padTo (slice f.cmd.params 16 16) 16)
    (1 < op → exec (.aesBlock c) s = .next (badParam v f.id 24))
    ∧ (op ≤ 1 → 7 < slot → exec (.aesBlock c) s = .next (badParam v f.id 25))
    ∧ (op ≤ 1 → slot ≤ 7 → v.krc.rootRefused = true → exec (.aesBlock c) s = .next (endWith (drew v) f.id (drawn v % 256) 0))
    ∧ (op = 0 → slot ≤ 7 → v.krc.rootRefused = false →
        exec (.aesBlock c) s = .next (endOk v f.id (bytes (aesEnc (nats (slotKey v slot)) blk))))
    ∧ (op = 1 → slot ≤ 7 → v.krc.rootRefused = false →
        exec (.aesBlock c) s = .next (endOk v f.id (bytes (aesDec (nats (slotKey v slot)) blk)))))
  ∧ (∀ (t : Nat) (s u : State), u = tick s t →
    let w := { u with krc := { u.krc with waiting := [] } }
    let spent := 2 ^ 64 - 2 ^ 16 ≤ u.krc.nonceNext
    let early := ∃ x, u.krc.nonceAt = some x ∧ u.now < x + 60000000
    ((u.dev.state = .off ∨ (¬ spent ∧ (u.krc.nonceNext < u.krc.nonceSafe ∨ early))) → exec (.nonceBlockReserve t) s = .next u)
    ∧ (u.dev.state ≠ .off → spent → exec (.nonceBlockReserve t) s = .next (serveWaiting u.krc.waiting w))
    ∧ (u.dev.state ≠ .off → ¬ spent → u.krc.nonceSafe ≤ u.krc.nonceNext → ¬ early →
        exec (.nonceBlockReserve t) s = .next (reserveNonces u)))
  ∧ (∀ (a : RegAcc) (v t : Nat) (s u : State), u = tick s t →
    let arg := bits v 0 12
    let x := u.fus
    let ours := (∃ n, a.path = .mctp n) ∧ issClass a.issuer = 2
    let go := u.dev.state ≠ .off ∧ ours ∧ bits v 16 16 = 0xC3A5
    let set := fun (y : Fus) => (.next { u with
      fus := y, fwu := { u.fwu with fuseResult := 0 },
      krc := { u.krc with rootRefused := u.krc.rootRefused || y.lifecycle.getLsbD 2 } } : Host.Outcome State Fault Refusal)
    let fail := fun (e : Nat) => (.next { u with fwu := { u.fwu with fuseResult := e } } : Host.Outcome State Fault Refusal)
    let rows : List (RegAcc → Nat → Nat → Instr) := [.fuseAdvanceSecured, .fuseAdvanceRetired, .fuseSetHaDeny, .fuseRaiseRdpFloor,
      .fuseSetDebugLock, .fuseRaiseSvn, .fuseRevokeKey]
    (∀ row ∈ rows, (u.dev.state = .off → exec (row a v t) s = .next u)
      ∧ (u.dev.state ≠ .off → ¬ ours → exec (row a v t) s = .next (raise u 0x003 rFwuFuseCmd))
      ∧ (u.dev.state ≠ .off → ours → bits v 16 16 ≠ 0xC3A5 → exec (row a v t) s = .next u))
    ∧ (go →
      (arg ≠ 0 → exec (.fuseAdvanceSecured a v t) s = fail 0x04 ∧ exec (.fuseAdvanceRetired a v t) s = fail 0x04
        ∧ exec (.fuseSetDebugLock a v t) s = fail 0x04)
      ∧ (arg = 0 → exec (.fuseAdvanceSecured a v t) s = (if x.lifecycle.getLsbD 1 then fail 0x0E else
          set { x with lifecycle := x.lifecycle ||| 2#4, debugLock := true, rdpFloor := x.rdpFloor ||| 1#2 }))
      ∧ (arg = 0 → exec (.fuseAdvanceRetired a v t) s
          = (if x.lifecycle.getLsbD 2 then fail 0x0E else set { x with lifecycle := x.lifecycle ||| 4#4 }))
      ∧ (arg = 0 → exec (.fuseSetDebugLock a v t) s = (if x.debugLock then fail 0x0E else set { x with debugLock := true }))
      ∧ (let m := BitVec.ofNat 11 arg
         exec (.fuseSetHaDeny a v t) s = (if 0x7FF < arg then fail 0x04 else if x.haDeny ||| m = x.haDeny then fail 0x0E
           else set { x with haDeny := x.haDeny ||| m }))
      ∧ exec (.fuseRaiseRdpFloor a v t) s = (if 2 < arg then fail 0x04 else if arg ≤ rdpFloor u then fail 0x0E
          else set { x with rdpFloor := x.rdpFloor ||| (if arg = 1 then 1#2 else 3#2) })
      ∧ (64 < arg → exec (.fuseRaiseSvn a v t) s = fail 0x04)
      ∧ (arg ≤ 64 → arg ≤ x.svn → exec (.fuseRaiseSvn a v t) s = fail 0x0E)
      ∧ (arg ≤ 64 → x.svn < arg → (activeSlot u = none ∨ ∃ y, activeSlot u = some y ∧ y.svn < arg) → exec (.fuseRaiseSvn a v t) s = fail 0x05)
      ∧ (∀ y, arg ≤ 64 → x.svn < arg → activeSlot u = some y → arg ≤ y.svn → exec (.fuseRaiseSvn a v t) s = set { x with svn := arg })
      ∧ (1 < arg → exec (.fuseRevokeKey a v t) s = fail 0x04)
      ∧ (arg ≤ 1 → x.keyRevoke.getLsbD arg = true → exec (.fuseRevokeKey a v t) s = fail 0x0E)
      ∧ (arg ≤ 1 → x.keyRevoke.getLsbD arg = false → (x.keyRevoke ≠ 0#2 ∨ ∃ y, activeSlot u = some y ∧ y.key = arg) →
          exec (.fuseRevokeKey a v t) s = fail 0x05)
      ∧ (arg ≤ 1 → x.keyRevoke = 0#2 → (∀ y, activeSlot u = some y → y.key ≠ arg) → exec (.fuseRevokeKey a v t) s
          = set { x with keyRevoke := x.keyRevoke ||| BitVec.ofNat 2 (2 ^ arg) })))
  ∧ (∀ (a : RegAcc) (v t : Nat) (s u : State), u = tick s t →
    let sure := bits v 16 16 = 0x5A5A
    let up := sure ∧ v % 4 = 1 ∧ rdpLevel u = 0 ∧ a.full = true
    let down := sure ∧ v % 4 = 0 ∧ rdpLevel u = 1 ∧ rdpFloor u = 0 ∧ (u.dev.state = .shelf ∨ u.dev.state = .latched)
      ∧ (∃ n, a.path = .mctp n) ∧ issClass a.issuer = 2
    (u.dev.state = .off → exec (.rdpRaise a v t) s = .next u ∧ exec (.rdpLower a v t) s = .next u)
    ∧ (u.dev.state ≠ .off → up → exec (.rdpRaise a v t) s = .next (optionWrite u { u.nvm.shadow with rdp := 1 }))
    ∧ (u.dev.state ≠ .off → down → exec (.rdpLower a v t) s
        = .next (lowerErase (optionSet u { u.nvm.shadow with nonceFloor := u.krc.nonceEnd + 2 ^ 24, erasePending := true })))
    ∧ (u.dev.state ≠ .off → ¬ up → ¬ down → exec (.rdpRaise a v t) s = .next (logEvent u 0x20A (v % 4) 0)
        ∧ exec (.rdpLower a v t) s = .next (logEvent u 0x20A (v % 4) 0)))
  ∧ (∀ (bank t : Nat) (ok : Bool) (s u : State), u = tick s t →
    let b := bank % 2
    (bankOp u b = none → exec (.nvmProgramDone bank ok t) s = .next u ∧ exec (.nvmEraseDone bank t) s = .next u)
    ∧ (∀ o, bankOp u b = some o → o.erase = true → exec (.nvmProgramDone bank ok t) s = .next u
        ∧ exec (.nvmEraseDone bank t) s = .next (nvmKick (eraseEnd (sectorBlank (setBankOp u b none) o) o) b))
    ∧ (∀ o, bankOp u b = some o → o.erase = false →
        let w := if ok then programOk (setBankOp u b none) o else programFail (setBankOp u b none) o
        exec (.nvmEraseDone bank t) s = .next u
        ∧ exec (.nvmProgramDone bank ok t) s = .next (nvmKick { w with log := { w.log with writing := recordOps w } } b))
    ∧ (let due := bankOp u b = none ∧ u.nvm.queue.any (fun o => nvmBank o == b && canRun u o) = false
       ((bankSusp u b = none ∨ ¬ due) → exec (.nvmEraseResume bank t) s = .next u)
       ∧ (∀ e, bankSusp u b = some e → due →
           let w := setBankOp (setBankSusp u b none) b (some e)
           exec (.nvmEraseResume bank t) s
             = .next { w with nvm := { w.nvm with resumed := tset w.nvm.resumed b w.now } })))

/-- FW_CONFIRM_TIMEOUT gives up a tentative slot whose time has passed, and has no effect otherwise. FAILED_BOOT counts a boot
that leaves a pair down 400 ms after activation and gives a tentative slot up. MP_PAIR_BOOTED puts a booting pair in service;
with both up an activation settles. BED_RELOAD_DONE takes a drained bed or held engine off the reload list, starts the next
and feeds work. TRAINING_STEP_COMPLETE takes its own step in its order alone (the DRAM step with every populated lane swept),
does it, and the last one ends training. FW_STAGE_BEGIN opens an image's staging, for a firmware slot by erasing its 160
sectors and saving the slot's record, and refuses other images, slots and a slot still needed. FW_STAGE_DATA takes 64-byte
aligned offsets and 16-byte multiples inside the image, programs erased units only (else DATA_LOSS), and needs a staging.
FW_STAGE_END checks length and CRC-32C, then the image. FW_ACTIVATE_AT schedules the staged slot at an epoch at least 100
ahead, jointly with a paired peer or alone, and cancels. FW_CONFIRM makes a tentative slot the confirmed one. Each of the five
events answers a next state from every state. Rests on 06_harvest_and_replant.md R184, 09_tines_and_management.md R281,
09_tines_and_management.md R284, 15_firmware_keys_fuses.md R402, 15_firmware_keys_fuses.md R403, 15_firmware_keys_fuses.md
R404, 15_firmware_keys_fuses.md R405, 15_firmware_keys_fuses.md R406, 15_firmware_keys_fuses.md R407,
15_firmware_keys_fuses.md R409, 15_firmware_keys_fuses.md R410, log entries 41, 57 and 61. -/
def Obligations.FirmwareAndTraining : Prop :=
  (∀ (t : Nat) (s u : State), u = tick s t →
    let late := ∃ x, u.fwu.confirmBy = some x ∧ x ≤ u.now
    (late → tentative u = true → exec (.fwConfirmTimeout t) s = .next (giveUp u))
    ∧ ((¬ late ∨ tentative u = false) → exec (.fwConfirmTimeout t) s = .next u))
  ∧ (∀ (t : Nat) (s u : State), u = tick s t →
    let fails := u.mpx.activating = true ∧ pairsUp u = false ∧ ∀ a, u.fwu.tickAt = some a → a + 400000 ≤ u.now
    let w := activationCheck u
    (¬ fails → exec (.failedBoot t) s = .next u)
    ∧ (fails → tentative w = false → exec (.failedBoot t) s = .next w)
    ∧ (fails → tentative w = true → exec (.failedBoot t) s
        = .next (giveUp { w with fwu := { w.fwu with failedBoots := min 3 (w.fwu.failedBoots + 1) } })))
  ∧ (∀ (k t : Nat) (s u : State), u = tick s t →
    let x := if k = 0 then u.mpx.a else u.mpx.b
    let w := activationCheck u
    let y := if k = 0 then { w with mpx := { w.mpx with a := { w.mpx.a with st := 0 } } }
             else { w with mpx := { w.mpx with b := { w.mpx.b with st := 0 } } }
    ((x.st ≠ 1 ∨ logicOn u = false) → exec (.mpPairBooted k t) s = .next u)
    ∧ (x.st = 1 → logicOn u = true → (y.mpx.activating = false ∨ pairsUp y = false) → exec (.mpPairBooted k t) s = .next y)
    ∧ (x.st = 1 → logicOn u = true → y.mpx.activating = true → pairsUp y = true → exec (.mpPairBooted k t) s
        = .next (activationSettles (giveBack { y with mpx := { y.mpx with activating := false } }))))
  ∧ (∀ (k t : Nat) (s u : State), u = tick s t →
    let ready := u.tin.reload.contains k = true ∧ (k < 100 → (bed u k).draining = true) ∧ (100 ≤ k → engineHeld u (k - 100) = true)
    let w := { u with tin := { u.tin with reload := u.tin.reload.filter (· != k) } }
    (¬ ready → exec (.bedReloadDone k t) s = .next u)
    ∧ (ready → 100 ≤ k → exec (.bedReloadDone k t) s = .next (feed (activationSettles (nextReload w))))
    ∧ (ready → k < 100 → exec (.bedReloadDone k t) s = .next (feed (activationSettles (nextReload
        (setBed w k { bed w k with draining := false, reloaded := true, clocked := true }))))))
  ∧ (∀ (i : TrainIn) (t : Nat) (s u : State), u = tick s t →
    let next := nextStep u.hrv.trainStep
    let takes := u.dev.state = .training ∧ match i with
      | .images _ => next = 2
      | .spd _ _ => next = 3
      | .flash _ => next = 5
      | .records _ _ _ _ _ => next = 6
      | .dram l => next = 4 ∧ ∀ c ∈ popChannels u, ∀ x ∈ allLanes (ddr u c), ∃ y ∈ l, y.chan = c ∧ y.lane = x
      | .maps => next = 7
    let v := { u with hrv := { u.hrv with trainStep := stepOf i } }
    let w := match i with
      | .images l => trainImages v l
      | .spd l g => trainSpd v l g
      | .flash l => trainFlash v l
      | .records a b h x l => trainRecords v a b h x l
      | .dram l => trainDram v l
      | .maps => v
    let ends := w.dev.state = .training ∧ (i = .maps ∨ (next = 4 ∧ w.hrv.row = 2))
    (¬ takes → exec (.trainingStepComplete i t) s = .next u)
    ∧ (takes → ends → exec (.trainingStepComplete i t) s = .next (trainingEnds w))
    ∧ (takes → ¬ ends → exec (.trainingStepComplete i t) s = .next w))
  ∧ (∀ (c : TrellisCmd) (s v : State) (f : InFlight), started 0x0800 c s = some (v, f) →
    let image := pByte f.cmd 24
    let slot := pByte f.cmd 25
    (2 < image → exec (.fwStageBegin c) s = .next (badParam v f.id 24))
    ∧ ((image = 1 ∨ image = 2) → slot ≠ 0 → exec (.fwStageBegin c) s = .next (badParam v f.id 25))
    ∧ ((image = 1 ∨ image = 2) → slot = 0 → exec (.fwStageBegin c) s
        = .next (endOk { v with fwu := { v.fwu with staging := some (0x10 + image), buf := [] } } f.id []))
    ∧ (image = 0 → stageTarget v slot = .error false → exec (.fwStageBegin c) s = .next (badParam v f.id 25))
    ∧ (image = 0 → stageTarget v slot = .error true → exec (.fwStageBegin c) s = .next (conflict v f.id 0x10))
    ∧ (∀ b, image = 0 → stageTarget v slot = .ok b →
        let w := { v with
          fwu := { v.fwu with staging := none, erasing := some f.id },
          nvm := { v.nvm with queue := v.nvm.queue.filter (fun o => match o.what with | .fwErase _ _ => false | _ => true) } }
        exec (.fwStageBegin c) s = .next ((List.range 160).foldl (fun s k =>
          nvmPost s { agent := 7, erase := true, addr := mainSector (b2n b) k, what := .fwErase b (k == 159) })
          (setJob (fwSave (setSlot w b { fwSlot w b with st := 0 })) f.id (.fwErase b)))))
  ∧ (∀ (s : State) (slot : Nat) (b : Bool), s.fwu.active = some b →
      (slot ≠ 0 → stageTarget s slot = .error false)
      ∧ (slot = 0 → needsOther s = true → stageTarget s slot = .error true)
      ∧ (slot = 0 → needsOther s = false → stageTarget s slot = .ok (!b)))
  ∧ (∀ (c : TrellisCmd) (s v : State) (f : InFlight), started 0x0801 c s = some (v, f) →
    let off := pNum f.cmd 24 4
    let n := f.cmd.payLen
    (v.fwu.staging = none → exec (.fwStageData c) s = .next (conflict v f.id 0x10))
    ∧ (∀ k, v.fwu.staging = some k →
      let room := if k ≤ 1 then slotBytes else 65536
      (off % 64 ≠ 0 → exec (.fwStageData c) s = .next (badParam v f.id 24))
      ∧ (off % 64 = 0 → n % 16 ≠ 0 → exec (.fwStageData c) s = .next (badParam v f.id 0x40))
      ∧ (off % 64 = 0 → n % 16 = 0 → room < off + n → exec (.fwStageData c) s = .next (badParam v f.id 24))
      ∧ (off % 64 = 0 → n % 16 = 0 → off + n ≤ room → 1 < k →
          exec (.fwStageData c) s = .next (endOk (bufWrite v off (payIn f.cmd)) f.id []))
      ∧ (off % 64 = 0 → n % 16 = 0 → off + n ≤ room → k ≤ 1 → unitsErased v (mainSector k 0 + off) n = false →
          exec (.fwStageData c) s = .next (endWith (bump v rNvmErr 4 4 1) f.id 0x06 0))
      ∧ (off % 64 = 0 → n % 16 = 0 → off + n ≤ room → k ≤ 1 → unitsErased v (mainSector k 0 + off) n = true →
          exec (.fwStageData c) s = .next (nvmPost (setJob v f.id .table)
            { agent := 7, erase := false, addr := mainSector k 0 + off, data := payIn f.cmd, what := .fwData f.id true }))))
  ∧ (∀ (c : TrellisCmd) (s v : State) (f : InFlight), started 0x0802 c s = some (v, f) →
    let n := pNum f.cmd 24 4
    (v.fwu.staging = none → exec (.fwStageEnd c) s = .next (conflict v f.id 0x10))
    ∧ (∀ k, v.fwu.staging = some k →
      let room := if k ≤ 1 then slotBytes else 65536
      let b := stagedBytes v n
      (room < n → exec (.fwStageEnd c) s = .next (badParam v f.id 24))
      ∧ (n ≤ room → crc32c b ≠ pNum f.cmd 28 4 → exec (.fwStageEnd c) s = .next (badParam v f.id 0x40))
      ∧ (n ≤ room → crc32c b = pNum f.cmd 28 4 →
        (1 < k → exec (.fwStageEnd c) s = .next (endTableImage f (k - 0x10) n v))
        ∧ (k ≤ 1 → manifestFits (container b).body = false → exec (.fwStageEnd c) s = .next (badParam v f.id 0x40))
        ∧ (k ≤ 1 → manifestFits (container b).body = true → exec (.fwStageEnd c) s = .next (endFirmwareSlot f (k == 1) n v)))))
  ∧ (∀ (c : TrellisCmd) (s v : State) (f : InFlight), started 0x0803 c s = some (v, f) →
    let flags := pByte f.cmd 24
    let e := if pNum f.cmd 32 8 = 0 then v.exl.epoch + 1000 else pNum f.cmd 32 8
    let formed := flags ≤ 3 ∧ (v.dev.state = .serving ∨ v.dev.state = .degraded)
    let joint := v.exl.txs.any (fun x => x.kind == .activate)
    (3 < flags → exec (.fwActivateAt c) s = .next (badParam v f.id 24))
    ∧ (flags ≤ 3 → v.dev.state ≠ .serving → v.dev.state ≠ .degraded → exec (.fwActivateAt c) s = .next (conflict v f.id 0x02))
    ∧ (formed → flags.testBit 1 = true → (v.fwu.falling = true ∨ joint = true) → exec (.fwActivateAt c) s = .next (conflict v f.id 0x11))
    ∧ (formed → flags.testBit 1 = true → v.fwu.falling = false → joint = false → exec (.fwActivateAt c) s = .next (endOk
        (if v.fwu.epoch.isSome then { v with fwu := { v.fwu with epoch := none, phase := 0, alone := false } } else v) f.id []))
    ∧ (formed → flags.testBit 1 = false → stagedSlot v = none → exec (.fwActivateAt c) s = .next (conflict v f.id 0x10))
    ∧ (∀ b, formed → flags.testBit 1 = false → stagedSlot v = some b →
      ((activationDue v = true ∨ tentative v = true) → exec (.fwActivateAt c) s = .next (conflict v f.id 0x11))
      ∧ (activationDue v = false → tentative v = false →
        (e < v.exl.epoch + 100 → exec (.fwActivateAt c) s = .next (badParam v f.id 32))
        ∧ (v.exl.epoch + 100 ≤ e → v.exl.session = true →
            let n := activationId (fwSlot v b).version
            let w := sendLow v 0x0F [n, 0, e, 0]
            exec (.fwActivateAt c) s = .next (setJob { w with exl := { w.exl with
              txs := w.exl.txs ++ [{ id := n, mine := true, kind := .activate, epoch := e, cmd := some f.id }] } } f.id (.twin n 0)))
        ∧ (v.exl.epoch + 100 ≤ e → v.exl.session = false → flags.testBit 0 = false →
            exec (.fwActivateAt c) s = .next (conflict v f.id 0x13))
        ∧ (v.exl.epoch + 100 ≤ e → v.exl.session = false → flags.testBit 0 = true → exec (.fwActivateAt c) s = .next (endWith
            { v with fwu := { v.fwu with epoch := some e, phase := 1, alone := true, falling := false } } f.id 0x0A 0)))))
  ∧ (∀ (c : TrellisCmd) (s v : State) (f : InFlight), started 0x0804 c s = some (v, f) →
    ((v.fwu.active = none ∨ tentative v = false) → exec (.fwConfirm c) s = .next (conflict v f.id 0x10))
    ∧ (∀ b, v.fwu.active = some b → tentative v = true →
        let w := setSlot v b { fwSlot v b with st := 4 }
        let y := if (fwSlot w (!b)).st == 4 then setSlot w (!b) { fwSlot w (!b) with st := 2 } else w
        exec (.fwConfirm c) s
          = .next (endOk (fwSave { y with fwu := { y.fwu with failedBoots := 0, confirmBy := none, phase := 0, alone := false } }) f.id [])))

/-- Each command named completes in every state. QUIESCENT_POINT_SWITCH switches a function at its quiescent point;
FUNC_SWITCH_TIMEOUT ends a switch pending 5 s with TIMEOUT. LOAD_WINDOW_END, 10 ms after the last, sets busy shares, peak and
level; LOAD_LEVEL_FALL lowers the level after 1 s below its mark; AUTO_RETURN asks the fallen functions back.
TWI_TRANSACTION_DONE ends a transaction, tries a missing address or a bad PEC three times, ends on a missing data acknowledge;
TWI_RETRY sends again 1 ms later; ARBITRATION_LOST counts and tries up to its limit; CLOCK_LOW_TIMEOUT ends the transfer at
the port's bound, fencing it at twice that; BUS_CLEAR frees or fences the port; PMBUS_POLL keeps a listed entry's words once a
second. ADC_TIMER_TRIGGER starts an idle converter each period, else counts an overrun; ADC_CONVERSION_DONE queues a result
(not while held, with 64 queued or before its time) and goes to the next entry or the run's end. ADC_START and ADC_STOP are
each a write of ADCn_CTRL: for every word, enabled with a software start or the continuous trigger it begins a run, without
ENABLE it stops after the conversion, at once where that waits. TWI_UNFENCE with the unfence bit, on a fenced port, frees it
where its check passes and fences it again where not; any other word changes nothing. FUNC_MODE_SET checks function, mode,
policy and watchdog (10 to 60,000 ms), owner (0x04) and pending switch (0x03), then makes a switch pend, or answers at once
where the mode stands. FUNC_MODE_QUERY answers one function or all eleven. Rests on 02_trellis_commands.md R66,
02_trellis_commands.md R67, 09_tines_and_management.md R286, 09_tines_and_management.md R288, 13_converters_and_two_wire.md
R359, 13_converters_and_two_wire.md R360, 13_converters_and_two_wire.md R367, 13_converters_and_two_wire.md R368,
13_converters_and_two_wire.md R369, 13_converters_and_two_wire.md R370, 13_converters_and_two_wire.md R372, log entries 5, 14
and 44. -/
def Obligations.FunctionsBusesAndConverters : Prop :=
  (∀ (f t : Nat) (s u : State), u = tick s t →
    exec (.quiescentPointSwitch f t) s = .next (if quiescent u f then applySwitch u f else u)
    ∧ (((func u f).pend = none ∨ ∃ p, (func u f).pend = some p ∧ (p.cmd = none ∨ u.now < p.since + 5000000)) →
        exec (.funcSwitchTimeout f t) s = .next u)
    ∧ (∀ p id, (func u f).pend = some p → p.cmd = some id → p.since + 5000000 ≤ u.now →
        exec (.funcSwitchTimeout f t) s = .next (endWith (setFunc u f { func u f with pend := none }) id 0x0D 0)))
  ∧ (∀ (x y t : Nat) (s u : State), u = tick s t →
    ((logicOn u = false ∨ u.now < u.mpx.winAt + 10000) → exec (.loadWindowEnd x y t) s = .next u)
    ∧ (logicOn u = true → u.mpx.winAt + 10000 ≤ u.now →
        let v := { u with mpx := { u.mpx with
          winAt := u.now,
          a := { u.mpx.a with busy := if u.mpx.a.st == 0 then min 100 x else 0 },
          b := { u.mpx.b with busy := if u.mpx.b.st == 0 then min 100 y else 0 } } }
        let ld := load v
        let sat := if 95 ≤ ld then u.mpx.satWindows + 1 else 0
        let w := setFld v rMpxLoad 0 8 (max (cfg v rMpxLoad 0 8) ld)
        let w := { w with mpx := { w.mpx with
          satWindows := min sat 10,
          lowSince := if w.mpx.level != 0 && ld < fallMark w.mpx.level then some (w.mpx.lowSince.getD w.now) else none } }
        let k := riseTo w.mpx.level ld sat
        exec (.loadWindowEnd x y t) s = .next (if k = w.mpx.level then w else enterLevel w k)))
  ∧ (∀ (t : Nat) (s u : State), u = tick s t →
    let due := ∃ z, u.mpx.lowSince = some z ∧ z + 1000000 ≤ u.now
    (due → u.mpx.level ≠ 0 → exec (.loadLevelFall t) s = .next (enterLevel u (u.mpx.level - 1)))
    ∧ ((¬ due ∨ u.mpx.level = 0) → exec (.loadLevelFall t) s = .next u))
  ∧ (∀ (t : Nat) (s u : State), u = tick s t →
    let w := cfg u rMpxCfg 0 16
    ((u.mpx.level ≠ 0 ∨ w = 0 ∨ u.now < u.mpx.calmAt + w * 1000000) → exec (.autoReturn t) s = .next u)
    ∧ (u.mpx.level = 0 → w ≠ 0 → u.mpx.calmAt + w * 1000000 ≤ u.now → exec (.autoReturn t) s = .next { u with mpx := { u.mpx with
        funcs := u.mpx.funcs.map (fun p => (p.1, if p.2.fell && p.2.pend.isNone then { p.2 with
          pend := some { assist := true, auto := p.2.auto, watchdog := p.2.watchdog, issuer := p.2.owner.toNat, since := u.now,
                         reason := 1 } } else p.2)) } }))
  ∧ (∀ (n t : Nat) (r : TwiEnd) (d : List Byte) (s u : State), u = tick s t →
    let p := twi u n
    let done := fun (x : TwiTx) => twiKick (twiDone (setTwi u n { p with cur := none, st := 0, last := 0 }) n x d) n
    let again := fun (x : TwiTx) => setTwi u n { p with cur := some { x with tries := x.tries + 1 }, spacing := true, since := u.now }
    ((p.cur = none ∨ p.spacing = true ∨ twiUp u n = false) → exec (.twiTransactionDone n r d t) s = .next u)
    ∧ (∀ x, p.cur = some x → twiUp u n = true → p.spacing = false →
        exec (.twiTransactionDone n .ok d t) s = .next (done x)
        ∧ exec (.twiTransactionDone n .addrNak d t) s = .next (if x.tries < 2 then again x else twiKick (twiOver u n 1) n)
        ∧ exec (.twiTransactionDone n .dataNak d t) s = .next (twiKick (twiOver u n 1) n)
        ∧ (cfg u (regAt rTwiCfg n) 29 1 = 0 → exec (.twiTransactionDone n .pec d t) s = .next (done x))
        ∧ (cfg u (regAt rTwiCfg n) 29 1 ≠ 0 → exec (.twiTransactionDone n .pec d t) s
            = .next (bump (if x.tries < 2 then again x else twiKick (twiOver u n 5) n) (regAt rTwiErr n) 0 8 1)))
    ∧ ((p.cur = none ∨ p.spacing = false ∨ twiUp u n = false ∨ u.now < p.since + 1000) → exec (.twiRetry n t) s = .next u)
    ∧ (∀ x, p.cur = some x → twiUp u n = true → p.spacing = true → p.since + 1000 ≤ u.now →
        exec (.twiRetry n t) s = .next (emit (setTwi u n { p with spacing := false, since := u.now }) (.twi n x.addr x.code x.data))))
  ∧ (∀ (n t : Nat) (s u : State), u = tick s t →
    let p := twi u n
    let live := n < 4 ∧ twiUp u n = true
    let lost := bump u (regAt rTwiErr n) 24 8 1
    (¬ live → exec (.arbitrationLost n t) s = .next u)
    ∧ (live → (p.cur = none ∨ p.spacing = true) → exec (.arbitrationLost n t) s = .next lost)
    ∧ (∀ x, live → p.cur = some x → p.spacing = false →
        (x.arbs < cfg lost (regAt rTwiCfg n) 24 4 → exec (.arbitrationLost n t) s
          = .next (emit (setTwi lost n { p with cur := some { x with arbs := x.arbs + 1 }, since := u.now }) (.twi n x.addr x.code x.data)))
        ∧ (cfg lost (regAt rTwiCfg n) 24 4 ≤ x.arbs → exec (.arbitrationLost n t) s = .next (twiKick (twiOver lost n 2) n))))
  ∧ (∀ (n t : Nat) (still : Bool) (s u : State), u = tick s t →
    let p := twi u n
    let live := n < 4 ∧ twiUp u n = true
    let bound := 1000 * clamp 1 35 (cfg u (regAt rTwiCfg n) 16 8)
    let low := live ∧ (p.cur = none ∨ (p.spacing = false ∧ p.since + (if still then 2 else 1) * bound ≤ u.now))
    let v := twiOver (bump u (regAt rTwiErr n) 16 8 1) n 4
    (¬ low → exec (.clockLowTimeout n still t) s = .next u)
    ∧ (low → still = true →
        exec (.clockLowTimeout n still t) s = .next (setTwi (fence v n) n { twi (fence v n) n with scl := false, sda := true }))
    ∧ (low → still = false → exec (.clockLowTimeout n still t) s = .next (twiKick (setTwi v n { twi v n with scl := true }) n))
    ∧ (¬ live → exec (.busClear n still t) s = .next u)
    ∧ (live → still = false → exec (.busClear n still t) s = .next (fence u n))
    ∧ (live → still = true → exec (.busClear n still t) s
        = .next (twiKick (setTwi (bump u (regAt rTwiErr n) 8 8 1) n { p with sda := true, scl := true }) n)))
  ∧ (∀ (e t : Nat) (words : List Nat) (ok : Bool) (s u : State), u = tick s t →
    let on := e < 4 ∧ twiUp u 2 = true ∧ cfg u (regAt rTwi2PmbList 2) (8 * e + 7) 1 = 1
        ∧ ∀ z, tget u.twi.pollAt e = some z → z + 1000000 ≤ u.now
    let v := { u with twi := { u.twi with pollAt := tset u.twi.pollAt e u.now } }
    (¬ on → exec (.pmbusPoll e words ok t) s = .next u)
    ∧ (on → ok = false → exec (.pmbusPoll e words ok t) s = .next v)
    ∧ (on → ok = true → exec (.pmbusPoll e words ok t) s = .next { v with twi := { v.twi with
        pmbus := tset v.twi.pmbus e ((words.take 4).map (· % 65536)) } }))
  ∧ (∀ (k t : Nat) (s u : State), u = tick s t →
    let armed := k < 2 ∧ u.dev.state ≠ .off ∧ u.psq.collapse = false ∧ adcTrigger u k = 1 ∧ cfg u (adcCtrl k) 31 1 ≠ 0
        ∧ ∀ z, (adcOf u k).timerAt = some z → z + adcPeriod u k ≤ u.now
    let v := setAdc u k { adcOf u k with timerAt := some u.now }
    (¬ armed → exec (.adcTimerTrigger k t) s = .next u)
    ∧ (armed → ((adcOf u k).busy = true ∨ scanHeld v = true) → exec (.adcTimerTrigger k t) s = .next (bump v rAdcStatus 16 8 1))
    ∧ (armed → (adcOf u k).busy = false → scanHeld v = false → exec (.adcTimerTrigger k t) s = .next (adcBegin v k)))
  ∧ (∀ (k t : Nat) (uv : Int) (s u : State), u = tick s t →
    let x := adcOf u k
    let takes := k < 2 ∧ x.busy = true ∧ u.psq.collapse = false ∧ (x.held = false ∨ scanHeld u = false) ∧ u.adc.queue.length < 64
        ∧ x.since + adcTime x ≤ u.now
    let v := { u with adc := { u.adc with queue := u.adc.queue ++ [adcResult x k uv] } }
    let next := adcFrom x (cfg v (adcCtrl k) 24 4) (x.entry + 1)
    (¬ takes → exec (.adcConversionDone k uv t) s = .next u)
    ∧ (takes → x.stopping = true →
        exec (.adcConversionDone k uv t) s = .next (setAdc v k { x with busy := false, stopping := false, run := (x.run + 1) % 8 }))
    ∧ (∀ e, takes → x.stopping = false → next = some e →
        exec (.adcConversionDone k uv t) s = .next (setAdc v k (adcNext v k x e)))
    ∧ (takes → x.stopping = false → next = none → exec (.adcConversionDone k uv t) s = .next (adcRunEnd v k)))
  ∧ (∀ (a : RegAcc) (w t k n c : Nat) (r : RegD) (s u : State), u = tick s t →
    ((c = rAdcCtrl0 ∧ k = 0) ∨ (c = rAdcCtrl1 ∧ k = 1)) → lands u a = some (c, n, false) → regFind u a.off = some (r, n, false) →
    let v := storeWord u r a.off w (heldBits u c n)
    let on := cfg v c 31 1 = 1
    let x := adcOf v k
    let x := { x with timerAt := if cfg v c 31 1 = 1 ∧ adcTrigger v k = 1 then some (x.timerAt.getD u.now) else none }
    let y := setAdc v k (if x.busy = true ∧ ¬ on ∧ adcWaits v x = true then { x with busy := false, stopping := false, run := (x.run + 1) % 8 }
      else { x with stopping := x.busy && !decide (cfg v c 31 1 = 1) })
    let begins := on ∧ ((bit w 23 = true ∧ adcTrigger y k = 0) ∨ adcTrigger y k = 2)
    (begins → exec (.adcStart a w t) s = .next (landed a true w (adcBegin y k))
      ∧ exec (.adcStop a w t) s = .next (landed a true w (adcBegin y k)))
    ∧ (¬ begins → exec (.adcStart a w t) s = .next (landed a true w y) ∧ exec (.adcStop a w t) s = .next (landed a true w y)))
  ∧ (∀ (a : RegAcc) (w t n : Nat) (ok : Bool) (s u : State), u = tick s t → lands u a = some (rTwiStatus, n, false) →
    let free := bit w 23 = true ∧ fenced u n = true ∧ u.psq.collapse = false
    (¬ free → exec (.twiUnfence a w ok t) s = .next (landed a true w u))
    ∧ (free → ok = true → exec (.twiUnfence a w ok t) s = .next (landed a true w (unfence u n)))
    ∧ (free → ok = false → exec (.twiUnfence a w ok t) s = .next (landed a true w (fence u n))))
  ∧ (∀ (c : TrellisCmd) (s v : State) (e : InFlight), started 0x0B00 c s = some (v, e) →
    let f := pByte e.cmd 24
    let mode := pByte e.cmd 25
    let pol := pByte e.cmd 26
    let wd := pNum e.cmd 28 4
    let x := func v f
    let mine := x.hasOwner = true ∧ x.owner.toNat = e.cmd.est
    let boss := issClass e.cmd.est = 1 ∨ issClass e.cmd.est = 2
    let formed := f ≤ 10 ∧ mode ≤ 1 ∧ pol ≤ 1 ∧ (mode = 1 → 10 ≤ wd ∧ wd ≤ 60000)
    let other := x.hasOwner = true ∧ ¬ mine
    let allowed := formed ∧ (other → mode = 0 ∧ boss) ∧ x.pend = none
    let same := fun (w : State) => endOk w e.id (le (stateByte w f) 1 ++ le (stateByte v f) 1)
    let again := mode = 1 ∧ x.fell = true ∧ mine
    let noop := (x.mode = true ↔ mode = 1) ∧ x.fell = false
    (10 < f → exec (.funcModeSet c) s = .next (badParam v e.id 24))
    ∧ (f ≤ 10 → 1 < mode → exec (.funcModeSet c) s = .next (badParam v e.id 25))
    ∧ (f ≤ 10 → mode ≤ 1 → 1 < pol → exec (.funcModeSet c) s = .next (badParam v e.id 26))
    ∧ (f ≤ 10 → mode = 1 → pol ≤ 1 → (wd < 10 ∨ 60000 < wd) → exec (.funcModeSet c) s = .next (badParam v e.id 28))
    ∧ (formed → other → (mode = 1 ∨ ¬ boss) → exec (.funcModeSet c) s = .next (conflict v e.id 0x04))
    ∧ (formed → (other → mode = 0 ∧ boss) → x.pend.isSome = true → exec (.funcModeSet c) s = .next (conflict v e.id 0x03))
    ∧ (allowed → again → exec (.funcModeSet c) s = .next (same (setFunc v f { x with
        auto := pol == 1, watchdog := wd,
        pend := if pol = 1 then none else some { assist := true, auto := false, watchdog := wd, issuer := e.cmd.est } })))
    ∧ (allowed → ¬ again → noop → mine →
        exec (.funcModeSet c) s = .next (same (setFunc v f { x with auto := pol == 1, watchdog := wd, wdAt := v.now })))
    ∧ (allowed → ¬ again → noop → ¬ mine → exec (.funcModeSet c) s = .next (same v))
    ∧ (allowed → ¬ again → ¬ noop →
        let p : SwitchReq := { assist := mode == 1, auto := pol == 1, watchdog := wd, issuer := e.cmd.est, cmd := some e.id, since := e.since,
                               reason := if x.hasOwner = true ∧ x.owner.toNat ≠ e.cmd.est then 5 else 1 }
        let w := setJob (setFunc v f { x with pend := some p }) e.id (.switch f)
        (f = 7 → w.hrv.replant = false → exec (.funcModeSet c) s = .next (applySwitch w f))
        ∧ ((f ≠ 7 ∨ w.hrv.replant = true) → exec (.funcModeSet c) s = .next w)))
  ∧ (∀ (c : TrellisCmd) (s v : State) (e : InFlight), started 0x0B01 c s = some (v, e) →
    let f := pByte e.cmd 24
    (f = 0xFF → exec (.funcModeQuery c) s = .next (endOk v e.id
      ((List.range 11).map (fun k => BitVec.ofNat 8 (stateByte v k)) ++ zeros 1 ++ le (permMask v) 2)))
    ∧ (10 < f → f ≠ 0xFF → exec (.funcModeQuery c) s = .next (badParam v e.id 24))
    ∧ (f ≤ 10 → exec (.funcModeQuery c) s = .next (endOk v e.id (le (stateByte v f) 1 ++ zeros 1
        ++ le (if (func v f).hasOwner then (func v f).owner.toNat else 0) 2 ++ le (func v f).watchdog 4))))
end

