-- ==== Sys2Proof/Laws/Memory.lean ====
section
/-! SUPPORT. The laws of the byte memory: every operation keeps the canonical form, a read after a write gives what was
written, and a write leaves every other byte alone. -/

namespace Sys2Proof.Machine

open Sys2Proof

/-- The canonical form in the terms of lists: addresses strictly rising, no entry equal to the default. -/
theorem memWf_iff (m : List Host.Cell) :
    Memory.wf m = true ↔ m.Pairwise (fun x y => x.1 < y.1) ∧ ∀ c ∈ m, c.2 ≠ memDefault := by
  induction m with
  | nil => simp [Memory.wf]
  | cons c r ih =>
    cases r with
    | nil => simp [Memory.wf]
    | cons d r =>
      simp only [Memory.wf, Bool.and_eq_true, decide_eq_true_eq, ih, List.pairwise_cons, List.mem_cons, forall_eq_or_imp,
        bne_iff_ne, ne_eq]
      constructor
      · rintro ⟨⟨h1, h2⟩, ⟨h3, h4⟩, h5, h6⟩
        exact ⟨⟨⟨h1, fun x hx => Nat.lt_trans h1 (h3 x hx)⟩, h3, h4⟩, h2, h5, h6⟩
      · rintro ⟨⟨⟨h1, -⟩, h3, h4⟩, h2, h5, h6⟩
        exact ⟨⟨h1, h2⟩, ⟨h3, h4⟩, h5, h6⟩

/-- A part of a canonical list is canonical. -/
theorem memWf_filter {m : List Host.Cell} (p : Host.Cell → Bool) (h : Memory.wf m = true) : Memory.wf (m.filter p) = true := by
  rw [memWf_iff] at h ⊢
  exact ⟨h.1.filter p, fun c hc => h.2 c (List.mem_of_mem_filter hc)⟩

/-- Clearing a range keeps the canonical form. -/
theorem memWf_mclear {m : List Host.Cell} (a k : Nat) (h : Memory.wf m = true) : Memory.wf (mclear m a k) = true :=
  memWf_filter _ h

theorem mem_munlist {m : List Host.Cell} {a : Nat} {c : Host.Cell} (h : c ∈ munlist m a) : c ∈ m := by
  induction m with
  | nil => exact h
  | cons d r ih =>
    simp only [munlist] at h
    split at h
    · exact h
    · split at h
      · exact List.mem_cons_of_mem _ h
      · rcases List.mem_cons.1 h with h | h
        · exact h ▸ List.mem_cons_self
        · exact List.mem_cons_of_mem _ (ih h)

theorem memWf_munlist {m : List Host.Cell} (a : Nat) (h : Memory.wf m = true) : Memory.wf (munlist m a) = true := by
  induction m with
  | nil => exact h
  | cons d r ih =>
    have hr : Memory.wf r = true := by
      rw [memWf_iff] at h ⊢
      exact ⟨(List.pairwise_cons.1 h.1).2, fun c hc => h.2 c (List.mem_cons_of_mem _ hc)⟩
    simp only [munlist]
    split
    · exact h
    · split
      · exact hr
      · have h' := ih hr
        rw [memWf_iff] at h h' ⊢
        refine ⟨List.pairwise_cons.2 ⟨fun c hc => (List.pairwise_cons.1 h.1).1 c (mem_munlist hc), h'.1⟩, ?_⟩
        intro c hc
        rcases List.mem_cons.1 hc with rfl | hc
        · exact h.2 _ List.mem_cons_self
        · exact h'.2 c hc

theorem mem_mlist {m : List Host.Cell} {a : Nat} {v : Byte} {c : Host.Cell} (h : c ∈ mlist m a v) : c = (a, v) ∨ c ∈ m := by
  induction m with
  | nil => simpa [mlist] using h
  | cons d r ih =>
    simp only [mlist] at h
    split at h
    · rcases List.mem_cons.1 h with h | h
      · exact Or.inl h
      · exact Or.inr h
    · split at h
      · rcases List.mem_cons.1 h with h | h
        · exact Or.inl h
        · exact Or.inr (List.mem_cons_of_mem _ h)
      · rcases List.mem_cons.1 h with h | h
        · exact Or.inr (h ▸ List.mem_cons_self)
        · exact (ih h).imp id (List.mem_cons_of_mem _)

theorem memWf_mlist {m : List Host.Cell} (a : Nat) {v : Byte} (hv : v ≠ memDefault) (h : Memory.wf m = true) :
    Memory.wf (mlist m a v) = true := by
  induction m with
  | nil => simpa [mlist, Memory.wf] using hv
  | cons d r ih =>
    obtain ⟨j, b⟩ := d
    have hr : Memory.wf r = true := by
      rw [memWf_iff] at h ⊢
      exact ⟨(List.pairwise_cons.1 h.1).2, fun c hc => h.2 c (List.mem_cons_of_mem _ hc)⟩
    have h' := ih hr
    rw [memWf_iff] at h h' ⊢
    have hp := List.pairwise_cons.1 h.1
    have low : ∀ c ∈ r, j < c.1 := hp.1
    have keep : ∀ c ∈ r, c.2 ≠ memDefault := fun c hc => h.2 c (List.mem_cons_of_mem _ hc)
    have hb : b ≠ memDefault := h.2 (j, b) List.mem_cons_self
    simp only [mlist]
    split
    · rename_i hlt
      refine ⟨List.pairwise_cons.2 ⟨?_, h.1⟩, ?_⟩
      · intro c hc
        rcases List.mem_cons.1 hc with rfl | hc
        · exact hlt
        · exact Nat.lt_trans hlt (low c hc)
      · intro c hc
        rcases List.mem_cons.1 hc with rfl | hc
        · exact hv
        · exact h.2 c hc
    · split
      · rename_i he
        subst he
        refine ⟨List.pairwise_cons.2 ⟨low, hp.2⟩, ?_⟩
        intro c hc
        rcases List.mem_cons.1 hc with rfl | hc
        · exact hv
        · exact keep c hc
      · rename_i h1 h2
        refine ⟨List.pairwise_cons.2 ⟨?_, h'.1⟩, ?_⟩
        · intro c hc
          rcases mem_mlist hc with rfl | hc
          · show j < a
            omega
          · exact low c hc
        · intro c hc
          rcases List.mem_cons.1 hc with rfl | hc
          · exact hb
          · exact h'.2 c hc

/-- A write of one byte keeps the canonical form. -/
theorem memWf_mwrite {m : List Host.Cell} (a : Nat) (v : Byte) (h : Memory.wf m = true) : Memory.wf (mwrite m a v) = true := by
  unfold mwrite
  split
  · exact memWf_munlist a h
  · exact memWf_mlist a ‹_› h

/-- A write of several bytes keeps the canonical form. -/
theorem memWf_mwriteN {m : List Host.Cell} (a : Nat) (l : List Byte) (h : Memory.wf m = true) :
    Memory.wf (mwriteN m a l) = true := by
  induction l generalizing m a with
  | nil => exact h
  | cons b r ih => exact ih (a + 1) (memWf_mwrite a b h)

/-- A write of enabled bytes keeps the canonical form. -/
theorem memWf_mwriteEn {m : List Host.Cell} (a : Nat) (l : List Byte) (en : Nat) (h : Memory.wf m = true) :
    Memory.wf (mwriteEn m a l en) = true := by
  induction l generalizing m a en with
  | nil => exact h
  | cons b r ih =>
    unfold mwriteEn
    split
    · exact ih (a + 1) _ (memWf_mwrite a b h)
    · exact ih (a + 1) _ h

/-- Placing cells over a range keeps the canonical form. -/
theorem memWf_mpaste {m : List Host.Cell} (a k : Nat) (src : List Host.Cell) (h : Memory.wf m = true) :
    Memory.wf (mpaste m a k src) = true := by
  unfold mpaste
  have h0 := memWf_mclear a k h
  generalize mclear m a k = x at h0
  induction src generalizing x with
  | nil => exact h0
  | cons c r ih => exact ih _ (memWf_mwrite _ _ h0)

theorem mread_of_lt {m : List Host.Cell} {a : Nat} (h : ∀ c ∈ m, a < c.1) : mread m a = memDefault := by
  induction m with
  | nil => rfl
  | cons c r ih =>
    have h1 := h c List.mem_cons_self
    simp only [mread]
    rw [if_neg (by omega)]
    exact ih (fun d hd => h d (List.mem_cons_of_mem _ hd))

theorem mread_munlist {m : List Host.Cell} (h : Memory.wf m = true) (a x : Nat) :
    mread (munlist m a) x = if x = a then memDefault else mread m x := by
  induction m with
  | nil => simp [munlist, mread]
  | cons d r ih =>
    obtain ⟨j, b⟩ := d
    rw [memWf_iff] at h
    have hp := List.pairwise_cons.1 h.1
    have hr : Memory.wf r = true := (memWf_iff r).2 ⟨hp.2, fun c hc => h.2 c (List.mem_cons_of_mem _ hc)⟩
    have low : ∀ c ∈ r, j < c.1 := hp.1
    simp only [munlist]
    split
    · rename_i hlt
      by_cases hx : x = a
      · subst hx
        rw [if_pos rfl]
        exact mread_of_lt (fun c hc => by
          rcases List.mem_cons.1 hc with rfl | hc
          · exact hlt
          · exact Nat.lt_trans hlt (low c hc))
      · rw [if_neg hx]
    · split
      · rename_i he
        subst he
        by_cases hx : x = a
        · subst hx
          rw [if_pos rfl, mread_of_lt low]
        · rw [if_neg hx]
          simp only [mread]
          rw [if_neg (fun e => hx e.symm)]
      · simp only [mread]
        rw [ih hr]
        by_cases hj : j = x
        · rw [if_pos hj, if_neg (by omega)]
          simp [hj]
        · simp [hj]

theorem mread_mlist (m : List Host.Cell) (a x : Nat) (v : Byte) : mread (mlist m a v) x = if x = a then v else mread m x := by
  induction m with
  | nil => simp [mlist, mread, eq_comm]
  | cons d r ih =>
    obtain ⟨j, b⟩ := d
    simp only [mlist]
    split
    · simp only [mread, eq_comm (a := x)]
    · split
      · rename_i he
        subst he
        by_cases hx : x = a
        · simp [mread, hx]
        · have hx' : ¬a = x := fun e => hx e.symm
          simp [mread, hx, hx']
      · simp only [mread]
        rw [ih]
        by_cases hj : j = x
        · rw [if_pos hj, if_neg (by omega)]
          simp [hj]
        · simp [hj]

/-- A byte reads as written; every other byte reads as before. -/
theorem mread_mwrite {m : List Host.Cell} (h : Memory.wf m = true) (a x : Nat) (v : Byte) :
    mread (mwrite m a v) x = if x = a then v else mread m x := by
  unfold mwrite
  split
  · rename_i hv
    rw [mread_munlist h, hv]
  · exact mread_mlist m a x v

end Sys2Proof.Machine
end

