-- ==== Sys2Proof/Laws/Kept.lean ====
section
/-! SUPPORT. What `Kept` follows from: the shapes of a state function, and the clock. The files Laws/Kept<part>.lean hold one
lemma for each function of the model: that what it answers is kept from what it was given. -/

namespace Sys2Proof.Machine

open Sys2Proof

/-- Nothing changes. -/
theorem Kept.refl (s : State) : Kept s s :=
  ⟨rfl, Nat.le_refl _, fun h => h,
    ⟨rfl, BitVec.or_self, BitVec.or_self, fun h => h, BitVec.or_self, BitVec.or_self, Nat.le_refl _⟩, Nat.le_refl _, List.suffix_refl _⟩

/-- The fuses hold the same bits. -/
def Fus.same (x y : Fus) : Prop :=
  y.part = x.part ∧ y.lifecycle = x.lifecycle ∧ y.rdpFloor = x.rdpFloor ∧ y.debugLock = x.debugLock ∧ y.haDeny = x.haDeny
    ∧ y.keyRevoke = x.keyRevoke ∧ y.svn = x.svn

/-- A change of nothing that `Kept` speaks of. -/
theorem Kept.upd {z s s' : State} (h : Kept z s) (e1 : s'.pending = s.pending) (e2 : s'.now = s.now)
    (e3 : s'.mem.cells = s.mem.cells) (e4 : s'.fus = s.fus) (e5 : s'.draws = s.draws)
    (e6 : s'.out = s.out) : Kept z s' :=
  ⟨e1 ▸ h.queue, e2 ▸ h.clock, e3 ▸ h.form, e4 ▸ h.fuses, e5 ▸ h.draws, e6 ▸ h.out⟩

/-- A state written out that leaves the queue, the clock, the draws, what was sent, the bytes and the fuses. -/
theorem Kept.lit {z s : State} {v_dev : Dev} {v_trl : Trl} {v_paths : Paths} {v_d2d : D2d} {v_cxl : Cxl} {v_alt : Alt} {v_mem : Mem}
    {v_drp : Drp} {v_hrv : Hrv} {v_ftl : Ftl} {v_exl : Exl} {v_ldg : Ldg} {v_allotx : AllotTwin} {v_tin : Tin} {v_mpx : Mpx}
    {v_gau : Gau} {v_ddrs : DdrTop} {v_psq : Psq} {v_nvm : Nvm} {v_adc : AdcTop} {v_twi : TwiTop} {v_flt : Flt} {v_log : Log}
    {v_fus : Fus} {v_krc : Krc} {v_fwu : Fwu} {v_ist : Ist} {v_pin : Pins} {v_regs : Tbl Word} (h : Kept z s)
    (e3 : v_mem.cells = s.mem.cells) (e4 : Fus.same s.fus v_fus) : Kept z (State.mk v_dev v_trl v_paths v_d2d v_cxl v_alt v_mem v_drp v_hrv
    v_ftl v_exl v_ldg v_allotx v_tin v_mpx v_gau v_ddrs v_psq v_nvm v_adc v_twi v_flt v_log v_fus v_krc v_fwu v_ist v_pin v_regs s.now
    s.draws s.out s.pending) :=
  ⟨h.queue, h.clock, e3 ▸ h.form, by
    obtain ⟨a1, a2, a3, a4, a5, a6, a7⟩ := e4
    have := h.fuses
    unfold Fus.keeps at this ⊢
    rw [a1, a2, a3, a4, a5, a6, a7]
    exact this, h.draws, h.out⟩

/-- The same with a memory that lists nothing. -/
theorem Kept.litNil {z s : State} {v_dev : Dev} {v_trl : Trl} {v_paths : Paths} {v_d2d : D2d} {v_cxl : Cxl} {v_alt : Alt} {v_mem : Mem}
    {v_drp : Drp} {v_hrv : Hrv} {v_ftl : Ftl} {v_exl : Exl} {v_ldg : Ldg} {v_allotx : AllotTwin} {v_tin : Tin} {v_mpx : Mpx}
    {v_gau : Gau} {v_ddrs : DdrTop} {v_psq : Psq} {v_nvm : Nvm} {v_adc : AdcTop} {v_twi : TwiTop} {v_flt : Flt} {v_log : Log}
    {v_fus : Fus} {v_krc : Krc} {v_fwu : Fwu} {v_ist : Ist} {v_pin : Pins} {v_regs : Tbl Word} (h : Kept z s)
    (e3 : v_mem.cells = []) (e4 : Fus.same s.fus v_fus) : Kept z (State.mk v_dev v_trl v_paths v_d2d v_cxl v_alt v_mem v_drp v_hrv v_ftl
    v_exl v_ldg v_allotx v_tin v_mpx v_gau v_ddrs v_psq v_nvm v_adc v_twi v_flt v_log v_fus v_krc v_fwu v_ist v_pin v_regs s.now s.draws
    s.out s.pending) :=
  ⟨h.queue, h.clock, fun _ => e3 ▸ rfl, by
    obtain ⟨a1, a2, a3, a4, a5, a6, a7⟩ := e4
    have := h.fuses
    unfold Fus.keeps at this ⊢
    rw [a1, a2, a3, a4, a5, a6, a7]
    exact this, h.draws, h.out⟩

/-- Both branches. -/
theorem Kept.ite {z a b : State} {c : Prop} [Decidable c] (h1 : Kept z a) (h2 : Kept z b) :
    Kept z (if c then a else b) := by split <;> assumption

/-- A fold of functions that keep. -/
theorem Kept.foldl {z s : State} {α : Type} {f : State → α → State} {l : List α}
    (hf : ∀ x a, Kept z x → Kept z (f x a)) (h : Kept z s) : Kept z (l.foldl f s) := by
  induction l generalizing s with
  | nil => exact h
  | cons a l ih => exact ih (hf _ _ h)

/-- The same for a fold that carries a value beside the state. -/
theorem Kept.foldlFst {z : State} {α β : Type} {f : State × β → α → State × β} {l : List α} {x : State × β}
    (hf : ∀ y a, Kept z y.1 → Kept z (f y a).1) (h : Kept z x.1) : Kept z (l.foldl f x).1 := by
  induction l generalizing x with
  | nil => exact h
  | cons a l ih => exact ih (hf _ _ h)

/-- The state an outcome answers. -/
theorem Kept.of_next {z a x : State} (e : (Host.Outcome.next a : Host.Outcome State Fault Refusal) = .next x) (h : Kept z a) :
    Kept z x := by
  injection e with e
  exact e ▸ h

/-- The clock does not go back. -/
theorem tick_kept {z : State} (s : State) (t : Nat) (h : Kept z s) : Kept z (tick s t) :=
  ⟨h.queue, Nat.le_trans h.clock (Nat.le_max_left _ _), h.form, h.fuses, h.draws, h.out⟩

end Sys2Proof.Machine
end

