-- ==== Sys2Proof/Laws/KeptBase.lean ====
section
/-! SUPPORT. What the functions of Ops, RegMap, Nvm, Flags, Wire, Crypto, Flits, Device, Frames, Faults, Trellis, Functions keep (Laws/Kept.lean). -/

namespace Sys2Proof.Machine

open Sys2Proof

set_option linter.unusedTactic false
set_option linter.unreachableTactic false

/-! ### Ops -/

theorem emit_kept {z : State} (s : State) (o : Out) (hK : Kept z s) : Kept z (emit s o) :=
  ⟨hK.queue, hK.clock, hK.form, hK.fuses, hK.draws, hK.out.trans (List.suffix_cons o s.out)⟩

theorem drew_kept {z : State} (s : State) (hK : Kept z s) : Kept z (drew s) :=
  ⟨hK.queue, hK.clock, hK.form, hK.fuses, Nat.le_succ_of_le hK.draws, hK.out⟩

/-! ### RegMap -/

theorem setReg_kept {z : State} (s : State) (a n : Nat) (hK : Kept z s) : Kept z (setReg s a n) := by
  unfold setReg
  try dsimp only
  repeat' (first
    | with_reducible assumption
    | ((conv => arg 2; arg 33); with_reducible refine Kept.lit ?_ ?_ ?_) <;> [skip; rfl; exact ⟨rfl, rfl, rfl, rfl, rfl, rfl, rfl⟩])

theorem setFld_kept {z : State} (s : State) (a lo w v : Nat) (hK : Kept z s) : Kept z (setFld s a lo w v) := by
  unfold setFld
  try dsimp only
  repeat' (first
    | with_reducible assumption
    | with_reducible apply setReg_kept)

theorem bump_kept {z : State} (s : State) (a lo w k : Nat) (hK : Kept z s) : Kept z (bump s a lo w k) := by
  unfold bump
  try dsimp only
  repeat' (first
    | with_reducible assumption
    | with_reducible apply setFld_kept)

theorem resetLogicRegs_kept {z : State} (s : State) (hK : Kept z s) : Kept z (resetLogicRegs s) := by
  unfold resetLogicRegs
  try dsimp only
  repeat' (first
    | intro _ _ _
    | intro _ _
    | intro _
    | with_reducible assumption
    | ((conv => arg 2; arg 33); with_reducible refine Kept.lit ?_ ?_ ?_) <;> [skip; rfl; exact ⟨rfl, rfl, rfl, rfl, rfl, rfl, rfl⟩]
    | with_reducible apply Kept.ite
    | dsimp only
    | split)

theorem reloadRegs_kept {z : State} (s : State) (hK : Kept z s) : Kept z (reloadRegs s) := by
  unfold reloadRegs
  try dsimp only
  repeat' (first
    | intro _ _ _
    | intro _ _
    | intro _
    | with_reducible assumption
    | ((conv => arg 2; arg 33); with_reducible refine Kept.lit ?_ ?_ ?_) <;> [skip; rfl; exact ⟨rfl, rfl, rfl, rfl, rfl, rfl, rfl⟩])

/-! ### Nvm -/

theorem setBankOp_kept {z : State} (s : State) (b : Nat) (o : Option NvmOp) (hK : Kept z s) : Kept z (setBankOp s b o) := by
  unfold setBankOp
  try dsimp only
  repeat' (first
    | with_reducible assumption
    | ((conv => arg 2; arg 33); with_reducible refine Kept.lit ?_ ?_ ?_) <;> [skip; rfl; exact ⟨rfl, rfl, rfl, rfl, rfl, rfl, rfl⟩]
    | with_reducible apply Kept.ite
    | dsimp only
    | split)

theorem setBankSusp_kept {z : State} (s : State) (b : Nat) (o : Option NvmOp) (hK : Kept z s) : Kept z (setBankSusp s b o) := by
  unfold setBankSusp
  try dsimp only
  repeat' (first
    | with_reducible assumption
    | ((conv => arg 2; arg 33); with_reducible refine Kept.lit ?_ ?_ ?_) <;> [skip; rfl; exact ⟨rfl, rfl, rfl, rfl, rfl, rfl, rfl⟩]
    | with_reducible apply Kept.ite
    | dsimp only
    | split)

theorem nvmStart_kept {z : State} (s : State) (o : NvmOp) (hK : Kept z s) : Kept z (nvmStart s o) := by
  unfold nvmStart
  try dsimp only
  repeat' (first
    | with_reducible assumption
    | ((conv => arg 2; arg 33); with_reducible refine Kept.lit ?_ ?_ ?_) <;> [skip; rfl; exact ⟨rfl, rfl, rfl, rfl, rfl, rfl, rfl⟩]
    | with_reducible apply setBankOp_kept
    | with_reducible apply setBankSusp_kept
    | with_reducible apply Kept.ite
    | dsimp only
    | split)

theorem nvmPost_kept {z : State} (s : State) (o : NvmOp) (hK : Kept z s) : Kept z (nvmPost s o) := by
  unfold nvmPost
  try dsimp only
  repeat' (first
    | with_reducible assumption
    | ((conv => arg 2; arg 33); with_reducible refine Kept.lit ?_ ?_ ?_) <;> [skip; rfl; exact ⟨rfl, rfl, rfl, rfl, rfl, rfl, rfl⟩]
    | with_reducible apply nvmStart_kept
    | with_reducible apply Kept.ite
    | dsimp only
    | split)

theorem nvmKick_kept {z : State} (s : State) (b : Nat) (hK : Kept z s) : Kept z (nvmKick s b) := by
  unfold nvmKick
  try dsimp only
  repeat' (first
    | intro _ _ _
    | intro _ _
    | intro _
    | with_reducible assumption
    | ((conv => arg 2; arg 33); with_reducible refine Kept.lit ?_ ?_ ?_) <;> [skip; rfl; exact ⟨rfl, rfl, rfl, rfl, rfl, rfl, rfl⟩]
    | with_reducible apply nvmStart_kept
    | dsimp only
    | split)

theorem programUnits_kept {z : State} (s : State) (a : Nat) (d : List Byte) (hK : Kept z s) : Kept z (programUnits s a d) := by
  unfold programUnits
  try dsimp only
  repeat' (first
    | intro _ _ _
    | intro _ _
    | intro _
    | with_reducible assumption
    | ((conv => arg 2; arg 33); with_reducible refine Kept.lit ?_ ?_ ?_) <;> [skip; rfl; exact ⟨rfl, rfl, rfl, rfl, rfl, rfl, rfl⟩]
    | with_reducible apply Kept.foldl)

theorem eraseUnits_kept {z : State} (s : State) (a n : Nat) (hK : Kept z s) : Kept z (eraseUnits s a n) := by
  unfold eraseUnits
  try dsimp only
  repeat' (first
    | intro _ _ _
    | intro _ _
    | intro _
    | with_reducible assumption
    | ((conv => arg 2; arg 33); with_reducible refine Kept.lit ?_ ?_ ?_) <;> [skip; rfl; exact ⟨rfl, rfl, rfl, rfl, rfl, rfl, rfl⟩])

theorem pairWrite_kept {z : State} (s : State) (n : Nat) (hK : Kept z s) : Kept z (pairWrite s n) := by
  unfold pairWrite
  try dsimp only
  repeat' (first
    | intro _ _ _
    | intro _ _
    | intro _
    | with_reducible assumption
    | ((conv => arg 2; arg 33); with_reducible refine Kept.lit ?_ ?_ ?_) <;> [skip; rfl; exact ⟨rfl, rfl, rfl, rfl, rfl, rfl, rfl⟩]
    | with_reducible apply nvmPost_kept
    | with_reducible apply Kept.ite
    | dsimp only
    | split)

theorem storePair_kept {z : State} (s : State) (n : Nat) (hK : Kept z s) : Kept z (storePair s n) := by
  unfold storePair
  try dsimp only
  repeat' (first
    | with_reducible assumption
    | ((conv => arg 2; arg 33); with_reducible refine Kept.lit ?_ ?_ ?_) <;> [skip; rfl; exact ⟨rfl, rfl, rfl, rfl, rfl, rfl, rfl⟩]
    | with_reducible apply Kept.ite
    | dsimp only
    | split)

theorem pairTorn_kept {z : State} (s : State) (n : Nat) (hK : Kept z s) : Kept z (pairTorn s n) := by
  unfold pairTorn
  try dsimp only
  repeat' (first
    | with_reducible assumption
    | ((conv => arg 2; arg 33); with_reducible refine Kept.lit ?_ ?_ ?_) <;> [skip; rfl; exact ⟨rfl, rfl, rfl, rfl, rfl, rfl, rfl⟩]
    | with_reducible apply Kept.ite
    | dsimp only
    | split)

theorem pairUnread_kept {z : State} (s : State) (a : Nat) (hK : Kept z s) : Kept z (pairUnread s a) := by
  unfold pairUnread
  try dsimp only
  repeat' (first
    | with_reducible assumption
    | ((conv => arg 2; arg 33); with_reducible refine Kept.lit ?_ ?_ ?_) <;> [skip; rfl; exact ⟨rfl, rfl, rfl, rfl, rfl, rfl, rfl⟩]
    | with_reducible apply pairTorn_kept
    | with_reducible apply Kept.ite
    | dsimp only
    | split)

theorem optionSet_kept {z : State} (s : State) (r : OptRec) (hK : Kept z s) : Kept z (optionSet s r) := by
  unfold optionSet
  try dsimp only
  repeat' (first
    | with_reducible assumption
    | ((conv => arg 2; arg 33); with_reducible refine Kept.lit ?_ ?_ ?_) <;> [skip; rfl; exact ⟨rfl, rfl, rfl, rfl, rfl, rfl, rfl⟩]
    | with_reducible apply Kept.ite
    | dsimp only
    | split)

theorem optionWrite_kept {z : State} (s : State) (r : OptRec) (hK : Kept z s) : Kept z (optionWrite s r) := by
  unfold optionWrite
  try dsimp only
  repeat' (first
    | with_reducible assumption
    | with_reducible apply nvmPost_kept
    | with_reducible apply optionSet_kept)

theorem saveConfig_kept {z : State} (s : State) (hK : Kept z s) : Kept z (saveConfig s) := by
  unfold saveConfig
  try dsimp only
  repeat' (first
    | intro _ _ _
    | intro _ _
    | intro _
    | with_reducible assumption
    | ((conv => arg 2; arg 33); with_reducible refine Kept.lit ?_ ?_ ?_) <;> [skip; rfl; exact ⟨rfl, rfl, rfl, rfl, rfl, rfl, rfl⟩]
    | with_reducible apply pairWrite_kept
    | with_reducible apply Kept.ite
    | with_reducible apply Kept.foldl
    | dsimp only
    | split)

/-! ### Flags -/

theorem logPlace_kept {z : State} (s : State) (sev : Nat) (hK : Kept z s) : Kept z (logPlace s sev).1 := by
  unfold logPlace
  try dsimp only
  repeat' (first
    | intro _ _ _
    | intro _ _
    | intro _
    | with_reducible assumption
    | ((conv => arg 2; arg 33); with_reducible refine Kept.lit ?_ ?_ ?_) <;> [skip; rfl; exact ⟨rfl, rfl, rfl, rfl, rfl, rfl, rfl⟩]
    | with_reducible apply nvmPost_kept
    | with_reducible apply Kept.ite
    | dsimp only
    | split)
theorem logPlace_kept_eq {z : State} {s : State} {sev : Nat} {x : State} {r : _} (e : (logPlace s sev) = (x, r)) (hK : Kept z s) : Kept z x := by
  have := logPlace_kept s sev hK
  rw [e] at this
  exact this

theorem logWrite_kept {z : State} (s : State) (code sev : Nat) (b : EvBin) (part : Option (Nat × List HistEnt)) (hK : Kept z s) : Kept z (logWrite s code sev b part).1 := by
  unfold logWrite
  try dsimp only
  repeat' (first
    | with_reducible assumption
    | ((conv => arg 2; arg 33); with_reducible refine Kept.lit ?_ ?_ ?_) <;> [skip; rfl; exact ⟨rfl, rfl, rfl, rfl, rfl, rfl, rfl⟩]
    | with_reducible apply bump_kept
    | with_reducible apply nvmPost_kept
    | with_reducible apply logPlace_kept
    | with_reducible refine logPlace_kept_eq (by assumption) ?_
    | with_reducible apply Kept.ite
    | dsimp only
    | split)
theorem logWrite_kept_eq {z : State} {s : State} {code sev : Nat} {b : EvBin} {part : Option (Nat × List HistEnt)} {x : State} {r : _} (e : (logWrite s code sev b part) = (x, r)) (hK : Kept z s) : Kept z x := by
  have := logWrite_kept s code sev b part hK
  rw [e] at this
  exact this

theorem binEvent_kept {z : State} (s : State) (code detail flags : Nat) (hK : Kept z s) : Kept z (binEvent s code detail flags) := by
  unfold binEvent
  try dsimp only
  repeat' (first
    | intro _ _ _
    | intro _ _
    | intro _
    | with_reducible assumption
    | ((conv => arg 2; arg 33); with_reducible refine Kept.lit ?_ ?_ ?_) <;> [skip; rfl; exact ⟨rfl, rfl, rfl, rfl, rfl, rfl, rfl⟩]
    | with_reducible apply bump_kept
    | with_reducible apply Kept.ite
    | dsimp only
    | split)

theorem postAll_kept {z : State} (s : State) (lg : Nat) (data : List Byte) (hK : Kept z s) : Kept z (postAll s lg data) := by
  unfold postAll
  try dsimp only
  repeat' (first
    | intro _ _ _
    | intro _ _
    | intro _
    | with_reducible assumption
    | ((conv => arg 2; arg 33); with_reducible refine Kept.lit ?_ ?_ ?_) <;> [skip; rfl; exact ⟨rfl, rfl, rfl, rfl, rfl, rfl, rfl⟩]
    | with_reducible apply Kept.ite
    | dsimp only
    | split)

theorem notifyFault_kept {z : State} (s : State) (code detail : Nat) (hK : Kept z s) : Kept z (notifyFault s code detail) := by
  unfold notifyFault
  try dsimp only
  repeat' (first
    | with_reducible assumption
    | with_reducible apply postAll_kept
    | with_reducible apply Kept.ite
    | dsimp only
    | split)

theorem logEvent_kept {z : State} (s : State) (code detail flags : Nat) (hK : Kept z s) : Kept z (logEvent s code detail flags) := by
  unfold logEvent
  try dsimp only
  repeat' (first
    | with_reducible assumption
    | ((conv => arg 2; arg 33); with_reducible refine Kept.lit ?_ ?_ ?_) <;> [skip; rfl; exact ⟨rfl, rfl, rfl, rfl, rfl, rfl, rfl⟩]
    | with_reducible apply logWrite_kept
    | with_reducible refine logWrite_kept_eq (by assumption) ?_
    | with_reducible apply binEvent_kept
    | with_reducible apply notifyFault_kept
    | with_reducible apply Kept.ite
    | dsimp only
    | split)

theorem flushBin_kept {z : State} (s : State) (code : Nat) (hK : Kept z s) : Kept z (flushBin s code) := by
  unfold flushBin
  try dsimp only
  repeat' (first
    | with_reducible assumption
    | ((conv => arg 2; arg 33); with_reducible refine Kept.lit ?_ ?_ ?_) <;> [skip; rfl; exact ⟨rfl, rfl, rfl, rfl, rfl, rfl, rfl⟩]
    | with_reducible apply logWrite_kept
    | with_reducible refine logWrite_kept_eq (by assumption) ?_
    | with_reducible apply notifyFault_kept
    | with_reducible apply Kept.ite
    | dsimp only
    | split)

theorem flushBins_kept {z : State} (s : State) (hK : Kept z s) : Kept z (flushBins s) := by
  unfold flushBins
  try dsimp only
  repeat' (first
    | intro _ _ _
    | intro _ _
    | intro _
    | with_reducible assumption
    | with_reducible apply flushBin_kept
    | with_reducible apply Kept.ite
    | with_reducible apply Kept.foldl
    | dsimp only
    | split)

theorem logHistory_kept {z : State} (s : State) (src : Nat) (snap : List HistEnt) (hK : Kept z s) : Kept z (logHistory s src snap) := by
  unfold logHistory
  try dsimp only
  repeat' (first
    | intro _ _ _
    | intro _ _
    | intro _
    | with_reducible assumption
    | with_reducible apply logWrite_kept
    | with_reducible refine logWrite_kept_eq (by assumption) ?_
    | with_reducible apply binEvent_kept
    | with_reducible apply Kept.ite
    | dsimp only
    | split)

/-! ### Wire -/

theorem setTwi_kept {z : State} (s : State) (n : Nat) (p : Twi) (hK : Kept z s) : Kept z (setTwi s n p) := by
  unfold setTwi
  try dsimp only
  repeat' (first
    | with_reducible assumption
    | ((conv => arg 2; arg 33); with_reducible refine Kept.lit ?_ ?_ ?_) <;> [skip; rfl; exact ⟨rfl, rfl, rfl, rfl, rfl, rfl, rfl⟩])

theorem twiKick_kept {z : State} (s : State) (n : Nat) (hK : Kept z s) : Kept z (twiKick s n) := by
  unfold twiKick
  try dsimp only
  repeat' (first
    | with_reducible assumption
    | ((conv => arg 2; arg 33); with_reducible refine Kept.lit ?_ ?_ ?_) <;> [skip; rfl; exact ⟨rfl, rfl, rfl, rfl, rfl, rfl, rfl⟩]
    | with_reducible apply emit_kept
    | with_reducible apply setTwi_kept
    | with_reducible apply Kept.ite
    | dsimp only
    | split)

theorem slaveStep_kept {z : State} (s : State) (addr code outputs slot : Nat) (hK : Kept z s) : Kept z (slaveStep s addr code outputs slot) := by
  unfold slaveStep
  try dsimp only
  repeat' (first
    | with_reducible assumption
    | ((conv => arg 2; arg 33); with_reducible refine Kept.lit ?_ ?_ ?_) <;> [skip; rfl; exact ⟨rfl, rfl, rfl, rfl, rfl, rfl, rfl⟩]
    | with_reducible apply setTwi_kept
    | with_reducible apply twiKick_kept
    | with_reducible apply Kept.ite
    | dsimp only
    | split)

/-! ### Flits -/

theorem modSub_kept {z : State} (s : State) (k : Nat) (f : Sublink → Sublink) (hK : Kept z s) : Kept z (modSub s k f) := by
  unfold modSub
  try dsimp only
  repeat' (first
    | intro _ _ _
    | intro _ _
    | intro _
    | with_reducible assumption
    | ((conv => arg 2; arg 33); with_reducible refine Kept.lit ?_ ?_ ?_) <;> [skip; rfl; exact ⟨rfl, rfl, rfl, rfl, rfl, rfl, rfl⟩])

theorem putFlits_kept {z : State} (s : State) (k : Nat) (l : List (Nat × List Byte)) (hK : Kept z s) : Kept z (putFlits s k l) := by
  unfold putFlits
  try dsimp only
  repeat' (first
    | intro _ _ _
    | intro _ _
    | intro _
    | with_reducible assumption
    | ((conv => arg 2; arg 33); with_reducible refine Kept.lit ?_ ?_ ?_) <;> [skip; rfl; exact ⟨rfl, rfl, rfl, rfl, rfl, rfl, rfl⟩]
    | with_reducible apply emit_kept
    | with_reducible apply modSub_kept
    | with_reducible apply Kept.ite
    | with_reducible apply Kept.foldl
    | dsimp only
    | split)

theorem flitOut_kept {z : State} (s : State) (k typ : Nat) (body : List Byte) (hK : Kept z s) : Kept z (flitOut s k typ body) := by
  unfold flitOut
  try dsimp only
  repeat' (first
    | intro _ _ _
    | intro _ _
    | intro _
    | with_reducible assumption
    | ((conv => arg 2; arg 33); with_reducible refine Kept.lit ?_ ?_ ?_) <;> [skip; rfl; exact ⟨rfl, rfl, rfl, rfl, rfl, rfl, rfl⟩]
    | with_reducible apply modSub_kept
    | with_reducible apply putFlits_kept
    | with_reducible apply Kept.ite
    | dsimp only
    | split)

theorem sendFlit_kept {z : State} (s : State) (k typ : Nat) (body : List Byte) (hK : Kept z s) : Kept z (sendFlit s k typ body) := by
  unfold sendFlit
  try dsimp only
  repeat' (first
    | intro _ _ _
    | intro _ _
    | intro _
    | with_reducible assumption
    | ((conv => arg 2; arg 33); with_reducible refine Kept.lit ?_ ?_ ?_) <;> [skip; rfl; exact ⟨rfl, rfl, rfl, rfl, rfl, rfl, rfl⟩]
    | with_reducible apply modSub_kept
    | with_reducible apply flitOut_kept
    | with_reducible apply Kept.ite
    | dsimp only
    | split)

theorem pumpFlits_kept {z : State} (s : State) (k n : Nat) (hK : Kept z s) : Kept z (pumpFlits s k n) := by
  induction n generalizing s with
  | zero => exact hK
  | succ n ih =>
    unfold pumpFlits
    split
    · exact hK
    · exact Kept.ite hK (ih _ (flitOut_kept _ _ _ _ (modSub_kept _ _ _ hK)))

theorem sendMsg_kept {z : State} (s : State) (k typ : Nat) (body : List Nat) (hK : Kept z s) : Kept z (sendMsg s k typ body) := by
  unfold sendMsg
  try dsimp only
  repeat' (first
    | with_reducible assumption
    | with_reducible apply emit_kept
    | with_reducible apply sendFlit_kept
    | with_reducible apply Kept.ite
    | dsimp only
    | split)

theorem sendLow_kept {z : State} (s : State) (typ : Nat) (body : List Nat) (hK : Kept z s) : Kept z (sendLow s typ body) := by
  unfold sendLow
  try dsimp only
  repeat' (first
    | with_reducible assumption
    | ((conv => arg 2; arg 33); with_reducible refine Kept.lit ?_ ?_ ?_) <;> [skip; rfl; exact ⟨rfl, rfl, rfl, rfl, rfl, rfl, rfl⟩]
    | with_reducible apply sendMsg_kept
    | dsimp only
    | split)

theorem sendEvery_kept {z : State} (s : State) (typ : Nat) (body : List Nat) (hK : Kept z s) : Kept z (sendEvery s typ body) := by
  unfold sendEvery
  try dsimp only
  repeat' (first
    | intro _ _ _
    | intro _ _
    | intro _
    | with_reducible assumption
    | with_reducible apply sendMsg_kept
    | with_reducible apply Kept.foldl)

/-! ### Device -/

theorem eraseLate_kept {z : State} (s : State) (k : Nat) (hK : Kept z s) : Kept z (eraseLate s k) := by
  unfold eraseLate
  try dsimp only
  repeat' (first
    | intro _ _ _
    | intro _ _
    | intro _
    | with_reducible assumption
    | with_reducible apply nvmPost_kept
    | with_reducible apply Kept.ite
    | dsimp only
    | split)

theorem loadLate_kept {z : State} (s : State) (hK : Kept z s) : Kept z (loadLate s) := by
  unfold loadLate
  try dsimp only
  repeat' (first
    | with_reducible assumption
    | ((conv => arg 2; arg 33); with_reducible refine Kept.lit ?_ ?_ ?_) <;> [skip; rfl; exact ⟨rfl, rfl, rfl, rfl, rfl, rfl, rfl⟩]
    | with_reducible apply eraseLate_kept
    | dsimp only
    | split)

theorem postLate_kept {z : State} (s : State) (k : Nat) (hK : Kept z s) : Kept z (postLate s k) := by
  unfold postLate
  try dsimp only
  repeat' (first
    | with_reducible assumption
    | with_reducible apply nvmPost_kept)

theorem writeLate_kept {z : State} (s : State) (es : List LateEntry) (hK : Kept z s) : Kept z (writeLate s es) := by
  unfold writeLate
  try dsimp only
  repeat' (first
    | intro _ _ _
    | intro _ _
    | intro _
    | with_reducible assumption
    | ((conv => arg 2; arg 33); with_reducible refine Kept.lit ?_ ?_ ?_) <;> [skip; rfl; exact ⟨rfl, rfl, rfl, rfl, rfl, rfl, rfl⟩]
    | with_reducible apply postLate_kept
    | with_reducible apply Kept.ite
    | dsimp only
    | split)

theorem stopCommands_kept {z : State} (s : State) (keep : List Nat) (hK : Kept z s) : Kept z (stopCommands s keep) := by
  unfold stopCommands
  try dsimp only
  repeat' (first
    | intro _ _ _
    | intro _ _
    | intro _
    | with_reducible assumption
    | ((conv => arg 2; arg 33); with_reducible refine Kept.lit ?_ ?_ ?_) <;> [skip; rfl; exact ⟨rfl, rfl, rfl, rfl, rfl, rfl, rfl⟩]
    | with_reducible apply writeLate_kept
    | dsimp only
    | split)

theorem setFunc_kept {z : State} (s : State) (f : Nat) (x : Func) (hK : Kept z s) : Kept z (setFunc s f x) := by
  unfold setFunc
  try dsimp only
  repeat' (first
    | with_reducible assumption
    | ((conv => arg 2; arg 33); with_reducible refine Kept.lit ?_ ?_ ?_) <;> [skip; rfl; exact ⟨rfl, rfl, rfl, rfl, rfl, rfl, rfl⟩])

theorem dropInputs_kept {z : State} (s : State) (p : Nat → Bool) (hK : Kept z s) : Kept z (dropInputs s p) := by
  unfold dropInputs
  try dsimp only
  repeat' (first
    | intro _ _ _
    | intro _ _
    | intro _
    | with_reducible assumption
    | ((conv => arg 2; arg 33); with_reducible refine Kept.lit ?_ ?_ ?_) <;> [skip; rfl; exact ⟨rfl, rfl, rfl, rfl, rfl, rfl, rfl⟩]
    | with_reducible apply Kept.ite
    | dsimp only
    | split)

theorem funcsToHw_kept {z : State} (s : State) (reason : Nat) (hK : Kept z s) : Kept z (funcsToHw s reason) := by
  unfold funcsToHw
  try dsimp only
  repeat' (first
    | intro _ _ _
    | intro _ _
    | intro _
    | with_reducible assumption
    | ((conv => arg 2; arg 33); with_reducible refine Kept.lit ?_ ?_ ?_) <;> [skip; rfl; exact ⟨rfl, rfl, rfl, rfl, rfl, rfl, rfl⟩]
    | with_reducible apply dropInputs_kept)

theorem funcsRestart_kept {z : State} (s : State) (hK : Kept z s) : Kept z (funcsRestart s) := by
  unfold funcsRestart
  try dsimp only
  repeat' (first
    | intro _ _ _
    | intro _ _
    | intro _
    | with_reducible assumption
    | ((conv => arg 2; arg 33); with_reducible refine Kept.lit ?_ ?_ ?_) <;> [skip; rfl; exact ⟨rfl, rfl, rfl, rfl, rfl, rfl, rfl⟩]
    | with_reducible apply dropInputs_kept)

theorem scanReleased_kept {z : State} (s : State) (hK : Kept z s) : Kept z (scanReleased s) := by
  unfold scanReleased
  try dsimp only
  repeat' (first
    | with_reducible assumption
    | ((conv => arg 2; arg 33); with_reducible refine Kept.lit ?_ ?_ ?_) <;> [skip; rfl; exact ⟨rfl, rfl, rfl, rfl, rfl, rfl, rfl⟩])

theorem setDev_kept {z : State} (s : State) (d : DevState) (c : Cause) (hK : Kept z s) : Kept z (setDev s d c) := by
  unfold setDev
  try dsimp only
  repeat' (first
    | with_reducible assumption
    | ((conv => arg 2; arg 33); with_reducible refine Kept.lit ?_ ?_ ?_) <;> [skip; rfl; exact ⟨rfl, rfl, rfl, rfl, rfl, rfl, rfl⟩]
    | with_reducible apply scanReleased_kept
    | with_reducible apply Kept.ite
    | dsimp only
    | split)

theorem ignored_kept {z : State} (s : State) (c : Cause) (hK : Kept z s) : Kept z (ignored s c) := by
  unfold ignored
  try dsimp only
  repeat' (first
    | with_reducible assumption
    | with_reducible apply logEvent_kept)

theorem endWeeding_kept {z : State} (s : State) (hK : Kept z s) : Kept z (endWeeding s) := by
  unfold endWeeding
  try dsimp only
  repeat' (first
    | intro _ _ _
    | intro _ _
    | intro _
    | with_reducible assumption
    | ((conv => arg 2; arg 33); with_reducible refine Kept.lit ?_ ?_ ?_) <;> [skip; rfl; exact ⟨rfl, rfl, rfl, rfl, rfl, rfl, rfl⟩]
    | with_reducible apply Kept.ite
    | dsimp only
    | split)

theorem unattended_kept {z : State} (s : State) (d : DevState) (c : Cause) (keep : List Nat) (hK : Kept z s) : Kept z (unattended s d c keep) := by
  unfold unattended
  try dsimp only
  repeat' (first
    | with_reducible assumption
    | ((conv => arg 2; arg 33); with_reducible refine Kept.lit ?_ ?_ ?_) <;> [skip; rfl; exact ⟨rfl, rfl, rfl, rfl, rfl, rfl, rfl⟩]
    | with_reducible apply saveConfig_kept
    | with_reducible apply flushBins_kept
    | with_reducible apply stopCommands_kept
    | with_reducible apply funcsToHw_kept
    | with_reducible apply setDev_kept
    | with_reducible apply endWeeding_kept
    | dsimp only
    | split)

theorem railsDrop_kept {z : State} (s : State) (hK : Kept z s) : Kept z (railsDrop s) := by
  unfold railsDrop
  try dsimp only
  repeat' (first
    | with_reducible assumption
    | ((conv => arg 2; arg 33); with_reducible refine Kept.lit ?_ ?_ ?_) <;> [skip; rfl; exact ⟨rfl, rfl, rfl, rfl, rfl, rfl, rfl⟩])

theorem logicOff_kept {z : State} (s : State) (keepDram : Bool) (hK : Kept z s) : Kept z (logicOff s keepDram) := by
  unfold logicOff
  cases keepDram
  · exact ⟨hK.queue, hK.clock, fun _ => rfl, hK.fuses, hK.draws, hK.out⟩
  · exact ⟨hK.queue, hK.clock, hK.form, hK.fuses, hK.draws, hK.out⟩

theorem runUnit_kept {z : State} (s : State) (u : Nat) (hK : Kept z s) : Kept z (runUnit s u) := by
  unfold runUnit
  try dsimp only
  repeat' (first
    | with_reducible assumption
    | with_reducible apply nvmPost_kept)

theorem placeLoss_kept {z : State} (s : State) (x : LossRec) (hK : Kept z s) : Kept z (placeLoss s x) := by
  unfold placeLoss
  try dsimp only
  repeat' (first
    | with_reducible assumption
    | ((conv => arg 2; arg 33); with_reducible refine Kept.lit ?_ ?_ ?_) <;> [skip; rfl; exact ⟨rfl, rfl, rfl, rfl, rfl, rfl, rfl⟩]
    | with_reducible apply nvmPost_kept
    | with_reducible apply runUnit_kept)

theorem writeLoss_kept {z : State} (s : State) (c : Cause) (hK : Kept z s) : Kept z (writeLoss s c) := by
  unfold writeLoss
  try dsimp only
  repeat' (first
    | with_reducible assumption
    | ((conv => arg 2; arg 33); with_reducible refine Kept.lit ?_ ?_ ?_) <;> [skip; rfl; exact ⟨rfl, rfl, rfl, rfl, rfl, rfl, rfl⟩]
    | with_reducible apply placeLoss_kept
    | with_reducible apply Kept.ite
    | dsimp only
    | split)

theorem stopAlive_kept {z : State} (s : State) (hK : Kept z s) : Kept z (stopAlive s) := by
  unfold stopAlive
  try dsimp only
  repeat' (first
    | with_reducible assumption
    | ((conv => arg 2; arg 33); with_reducible refine Kept.lit ?_ ?_ ?_) <;> [skip; rfl; exact ⟨rfl, rfl, rfl, rfl, rfl, rfl, rfl⟩])

theorem enterLatched_kept {z : State} (s : State) (c : Cause) (hK : Kept z s) : Kept z (enterLatched s c) := by
  unfold enterLatched
  try dsimp only
  repeat' (first
    | with_reducible assumption
    | ((conv => arg 2; arg 33); with_reducible refine Kept.lit ?_ ?_ ?_) <;> [skip; rfl; exact ⟨rfl, rfl, rfl, rfl, rfl, rfl, rfl⟩]
    | with_reducible apply unattended_kept
    | with_reducible apply railsDrop_kept
    | with_reducible apply logicOff_kept
    | with_reducible apply writeLoss_kept
    | with_reducible apply stopAlive_kept)

theorem releasePriv_kept {z : State} (s : State) (n : Nat) (hK : Kept z s) : Kept z (releasePriv s n) := by
  unfold releasePriv
  try dsimp only
  repeat' (first
    | with_reducible assumption
    | ((conv => arg 2; arg 33); with_reducible refine Kept.lit ?_ ?_ ?_) <;> [skip; rfl; exact ⟨rfl, rfl, rfl, rfl, rfl, rfl, rfl⟩]
    | with_reducible apply Kept.ite
    | dsimp only
    | split)

theorem disableSlot_kept {z : State} (s : State) (n : Nat) (hK : Kept z s) : Kept z (disableSlot s n) := by
  unfold disableSlot
  try dsimp only
  repeat' (first
    | with_reducible assumption
    | ((conv => arg 2; arg 33); with_reducible refine Kept.lit ?_ ?_ ?_) <;> [skip; rfl; exact ⟨rfl, rfl, rfl, rfl, rfl, rfl, rfl⟩]
    | with_reducible apply slaveStep_kept
    | with_reducible apply releasePriv_kept
    | with_reducible apply Kept.ite
    | dsimp only
    | split)

theorem nextStage_kept {z : State} (s : State) (ks : List Nat) (hK : Kept z s) : Kept z (nextStage s ks) := by
  induction ks generalizing s with
  | nil => exact Kept.upd hK rfl rfl rfl rfl rfl rfl
  | cons k r ih =>
    unfold nextStage
    split
    · exact ih s hK
    · have h1 : ∀ ph st, Kept z { s with psq := { s.psq with phase := ph, stages := st } } :=
        fun _ _ => Kept.upd hK rfl rfl rfl rfl rfl rfl
      dsimp only
      split
      · exact disableSlot_kept _ _ (h1 _ _)
      · exact h1 _ _

theorem endRails_kept {z : State} (s : State) (hK : Kept z s) : Kept z (endRails s) := by
  unfold endRails
  try dsimp only
  repeat' (first
    | with_reducible assumption
    | ((conv => arg 2; arg 33); with_reducible refine Kept.lit ?_ ?_ ?_) <;> [skip; rfl; exact ⟨rfl, rfl, rfl, rfl, rfl, rfl, rfl⟩]
    | with_reducible apply setDev_kept
    | with_reducible apply logicOff_kept
    | with_reducible apply Kept.ite
    | dsimp only
    | split)

theorem enterRailsDown_kept {z : State} (s : State) (c : Cause) (keep : List Nat) (hK : Kept z s) : Kept z (enterRailsDown s c keep) := by
  unfold enterRailsDown
  try dsimp only
  repeat' (first
    | intro _ _ _
    | intro _ _
    | intro _
    | with_reducible assumption
    | ((conv => arg 2; arg 33); with_reducible refine Kept.lit ?_ ?_ ?_) <;> [skip; rfl; exact ⟨rfl, rfl, rfl, rfl, rfl, rfl, rfl⟩]
    | with_reducible apply unattended_kept
    | with_reducible apply disableSlot_kept
    | with_reducible apply nextStage_kept
    | with_reducible apply endRails_kept
    | with_reducible apply Kept.ite
    | with_reducible apply Kept.foldl
    | dsimp only
    | split)

theorem startSwap_kept {z : State} (s : State) (hK : Kept z s) : Kept z (startSwap s) := by
  unfold startSwap
  try dsimp only
  repeat' (first
    | with_reducible assumption
    | ((conv => arg 2; arg 33); with_reducible refine Kept.lit ?_ ?_ ?_) <;> [skip; rfl; exact ⟨rfl, rfl, rfl, rfl, rfl, rfl, rfl⟩]
    | with_reducible apply nvmPost_kept
    | with_reducible apply Kept.ite
    | dsimp only
    | split)

theorem enterWaking_kept {z : State} (s : State) (c : Cause) (hK : Kept z s) : Kept z (enterWaking s c) := by
  unfold enterWaking
  try dsimp only
  repeat' (first
    | intro _ _ _
    | intro _ _
    | intro _
    | with_reducible assumption
    | ((conv => arg 2; arg 33); with_reducible refine Kept.lit ?_ ?_ ?_) <;> [skip; rfl; exact ⟨rfl, rfl, rfl, rfl, rfl, rfl, rfl⟩]
    | with_reducible apply resetLogicRegs_kept
    | with_reducible apply loadLate_kept
    | with_reducible apply funcsRestart_kept
    | with_reducible apply setDev_kept
    | with_reducible apply startSwap_kept)

theorem settle_kept {z : State} (s : State) (c : Cause) (hK : Kept z s) : Kept z (settle s c) := by
  unfold settle
  try dsimp only
  repeat' (first
    | with_reducible assumption
    | ((conv => arg 2; arg 33); with_reducible refine Kept.lit ?_ ?_ ?_) <;> [skip; rfl; exact ⟨rfl, rfl, rfl, rfl, rfl, rfl, rfl⟩]
    | with_reducible apply enterWaking_kept
    | with_reducible apply Kept.ite
    | dsimp only
    | split)

theorem noteWon_kept {z : State} (s : State) (k : Nat) (hK : Kept z s) : Kept z (noteWon s k) := by
  unfold noteWon
  try dsimp only
  repeat' (first
    | with_reducible assumption
    | ((conv => arg 2; arg 33); with_reducible refine Kept.lit ?_ ?_ ?_) <;> [skip; rfl; exact ⟨rfl, rfl, rfl, rfl, rfl, rfl, rfl⟩])

theorem enterHarvesting_kept {z : State} (s : State) (c : Cause) (keep : List Nat) (hK : Kept z s) : Kept z (enterHarvesting s c keep) := by
  unfold enterHarvesting
  try dsimp only
  repeat' (first
    | with_reducible assumption
    | ((conv => arg 2; arg 33); with_reducible refine Kept.lit ?_ ?_ ?_) <;> [skip; rfl; exact ⟨rfl, rfl, rfl, rfl, rfl, rfl, rfl⟩]
    | with_reducible apply unattended_kept)

theorem harvestCause_kept {z : State} (s : State) (c : Cause) (hK : Kept z s) : Kept z (harvestCause s c) := by
  unfold harvestCause
  try dsimp only
  repeat' (first
    | with_reducible assumption
    | ((conv => arg 2; arg 33); with_reducible refine Kept.lit ?_ ?_ ?_) <;> [skip; rfl; exact ⟨rfl, rfl, rfl, rfl, rfl, rfl, rfl⟩]
    | with_reducible apply Kept.ite
    | dsimp only
    | split)

theorem sendHarvest_kept {z : State} (s : State) (c : Cause) (hK : Kept z s) : Kept z (sendHarvest s c) := by
  unfold sendHarvest
  try dsimp only
  repeat' (first
    | intro _ _ _
    | intro _ _
    | intro _
    | with_reducible assumption
    | with_reducible apply sendMsg_kept
    | with_reducible apply Kept.foldl)

theorem linksDown_kept {z : State} (s : State) (hK : Kept z s) : Kept z (linksDown s) := by
  unfold linksDown
  try dsimp only
  repeat' (first
    | intro _ _ _
    | intro _ _
    | intro _
    | with_reducible assumption
    | ((conv => arg 2; arg 33); with_reducible refine Kept.lit ?_ ?_ ?_) <;> [skip; rfl; exact ⟨rfl, rfl, rfl, rfl, rfl, rfl, rfl⟩]
    | with_reducible apply emit_kept
    | with_reducible apply Kept.ite
    | with_reducible apply Kept.foldl
    | dsimp only
    | split)

theorem takeCut_kept {z : State} (s : State) (ns : Nat) (hK : Kept z s) : Kept z (takeCut s ns) := by
  unfold takeCut
  try dsimp only
  repeat' (first
    | intro _ _ _
    | intro _ _
    | intro _
    | with_reducible assumption
    | ((conv => arg 2; arg 33); with_reducible refine Kept.lit ?_ ?_ ?_) <;> [skip; rfl; exact ⟨rfl, rfl, rfl, rfl, rfl, rfl, rfl⟩]
    | with_reducible apply nextStage_kept
    | with_reducible apply sendHarvest_kept
    | with_reducible apply Kept.ite
    | dsimp only
    | split)

theorem linksEnd_kept {z : State} (s : State) (hK : Kept z s) : Kept z (linksEnd s) := by
  unfold linksEnd
  try dsimp only
  repeat' (first
    | with_reducible assumption
    | ((conv => arg 2; arg 33); with_reducible refine Kept.lit ?_ ?_ ?_) <;> [skip; rfl; exact ⟨rfl, rfl, rfl, rfl, rfl, rfl, rfl⟩]
    | with_reducible apply drew_kept
    | with_reducible apply linksDown_kept
    | with_reducible apply Kept.ite
    | dsimp only
    | split)

theorem startHarvest_kept {z : State} (s : State) (c : Cause) (keep : List Nat) (hK : Kept z s) : Kept z (startHarvest s c keep) := by
  unfold startHarvest
  try dsimp only
  repeat' (first
    | with_reducible assumption
    | with_reducible apply enterHarvesting_kept
    | with_reducible apply takeCut_kept)

/-! ### Frames -/

theorem setSide_kept {z : State} (s : State) (cold : Bool) (x : D2dSide) (hK : Kept z s) : Kept z (setSide s cold x) := by
  unfold setSide
  try dsimp only
  repeat' (first
    | with_reducible assumption
    | ((conv => arg 2; arg 33); with_reducible refine Kept.lit ?_ ?_ ?_) <;> [skip; rfl; exact ⟨rfl, rfl, rfl, rfl, rfl, rfl, rfl⟩]
    | with_reducible apply Kept.ite
    | dsimp only
    | split)

theorem sendNow_kept {z : State} (s : State) (cold : Bool) (f : D2dFrame) (hK : Kept z s) : Kept z (sendNow s cold f) := by
  unfold sendNow
  try dsimp only
  repeat' (first
    | with_reducible assumption
    | ((conv => arg 2; arg 33); with_reducible refine Kept.lit ?_ ?_ ?_) <;> [skip; rfl; exact ⟨rfl, rfl, rfl, rfl, rfl, rfl, rfl⟩]
    | with_reducible apply emit_kept
    | with_reducible apply setSide_kept
    | with_reducible apply Kept.ite
    | dsimp only
    | split)

theorem sendFrame_kept {z : State} (s : State) (cold : Bool) (typ payload : Nat) (hK : Kept z s) : Kept z (sendFrame s cold typ payload) := by
  unfold sendFrame
  try dsimp only
  repeat' (first
    | with_reducible assumption
    | ((conv => arg 2; arg 33); with_reducible refine Kept.lit ?_ ?_ ?_) <;> [skip; rfl; exact ⟨rfl, rfl, rfl, rfl, rfl, rfl, rfl⟩]
    | with_reducible apply setSide_kept
    | with_reducible apply sendNow_kept
    | with_reducible apply Kept.ite
    | dsimp only
    | split)

theorem forward_kept {z : State} (s : State) (n : Nat) (holds : Bool) (hK : Kept z s) : Kept z (forward s n holds) := by
  unfold forward
  try dsimp only
  repeat' (first
    | with_reducible assumption
    | with_reducible apply sendFrame_kept
    | with_reducible apply Kept.ite
    | dsimp only
    | split)

theorem notice_kept {z : State} (s : State) (k : Nat) (cold : Bool) (hK : Kept z s) : Kept z (notice s k cold) := by
  unfold notice
  try dsimp only
  repeat' (first
    | with_reducible assumption
    | with_reducible apply emit_kept
    | with_reducible apply sendFrame_kept
    | with_reducible apply Kept.ite
    | dsimp only
    | split)

/-! ### Faults -/

theorem setSource_kept {z : State} (s : State) (n : Nat) (x : Source) (hK : Kept z s) : Kept z (setSource s n x) := by
  unfold setSource
  try dsimp only
  repeat' (first
    | with_reducible assumption
    | ((conv => arg 2; arg 33); with_reducible refine Kept.lit ?_ ?_ ?_) <;> [skip; rfl; exact ⟨rfl, rfl, rfl, rfl, rfl, rfl, rfl⟩])

theorem clearLive_kept {z : State} (s : State) (n : Nat) (hK : Kept z s) : Kept z (clearLive s n) := by
  unfold clearLive
  try dsimp only
  repeat' (first
    | with_reducible assumption
    | ((conv => arg 2; arg 33); with_reducible refine Kept.lit ?_ ?_ ?_) <;> [skip; rfl; exact ⟨rfl, rfl, rfl, rfl, rfl, rfl, rfl⟩]
    | with_reducible apply forward_kept
    | with_reducible apply setSource_kept
    | with_reducible apply Kept.ite
    | dsimp only
    | split)

theorem pushHist_kept {z : State} (s : State) (h : HistEnt) (hK : Kept z s) : Kept z (pushHist s h) := by
  unfold pushHist
  try dsimp only
  repeat' (first
    | with_reducible assumption
    | ((conv => arg 2; arg 33); with_reducible refine Kept.lit ?_ ?_ ?_) <;> [skip; rfl; exact ⟨rfl, rfl, rfl, rfl, rfl, rfl, rfl⟩])

theorem takeSnapshot_kept {z : State} (s : State) (n : Nat) (hK : Kept z s) : Kept z (takeSnapshot s n) := by
  unfold takeSnapshot
  try dsimp only
  repeat' (first
    | with_reducible assumption
    | ((conv => arg 2; arg 33); with_reducible refine Kept.lit ?_ ?_ ?_) <;> [skip; rfl; exact ⟨rfl, rfl, rfl, rfl, rfl, rfl, rfl⟩]
    | with_reducible apply logHistory_kept
    | with_reducible apply Kept.ite
    | dsimp only
    | split)

theorem openWindow_kept {z : State} (s : State) (k : Nat) (hK : Kept z s) : Kept z (openWindow s k) := by
  unfold openWindow
  try dsimp only
  repeat' (first
    | with_reducible assumption
    | ((conv => arg 2; arg 33); with_reducible refine Kept.lit ?_ ?_ ?_) <;> [skip; rfl; exact ⟨rfl, rfl, rfl, rfl, rfl, rfl, rfl⟩]
    | with_reducible apply drew_kept
    | with_reducible apply Kept.ite
    | dsimp only
    | split)

theorem fatalReact_kept {z : State} (s : State) (n : Nat) (c : Cause) (hK : Kept z s) : Kept z (fatalReact s n c) := by
  unfold fatalReact
  try dsimp only
  repeat' (first
    | with_reducible assumption
    | ((conv => arg 2; arg 33); with_reducible refine Kept.lit ?_ ?_ ?_) <;> [skip; rfl; exact ⟨rfl, rfl, rfl, rfl, rfl, rfl, rfl⟩]
    | with_reducible apply funcsToHw_kept
    | with_reducible apply stopAlive_kept
    | with_reducible apply enterLatched_kept
    | with_reducible apply noteWon_kept
    | with_reducible apply harvestCause_kept
    | with_reducible apply startHarvest_kept
    | with_reducible apply notice_kept
    | with_reducible apply Kept.ite
    | dsimp only
    | split)

theorem raiseAs_kept {z : State} (s : State) (n detail : Nat) (live : Bool) (c : Cause) (hK : Kept z s) : Kept z (raiseAs s n detail live c) := by
  unfold raiseAs
  try dsimp only
  repeat' (first
    | with_reducible assumption
    | ((conv => arg 2; arg 33); with_reducible refine Kept.lit ?_ ?_ ?_) <;> [skip; rfl; exact ⟨rfl, rfl, rfl, rfl, rfl, rfl, rfl⟩]
    | with_reducible apply binEvent_kept
    | with_reducible apply logEvent_kept
    | with_reducible apply forward_kept
    | with_reducible apply setSource_kept
    | with_reducible apply pushHist_kept
    | with_reducible apply takeSnapshot_kept
    | with_reducible apply openWindow_kept
    | with_reducible apply fatalReact_kept
    | with_reducible apply Kept.ite
    | dsimp only
    | split)

theorem raise_kept {z : State} (s : State) (n detail : Nat) (hK : Kept z s) : Kept z (raise s n detail) := by
  unfold raise
  try dsimp only
  repeat' (first
    | with_reducible assumption
    | with_reducible apply raiseAs_kept)

theorem raiseLive_kept {z : State} (s : State) (n detail : Nat) (hK : Kept z s) : Kept z (raiseLive s n detail) := by
  unfold raiseLive
  try dsimp only
  repeat' (first
    | with_reducible assumption
    | with_reducible apply raiseAs_kept)

theorem raiseOpen_kept {z : State} (s : State) (n : Nat) (hK : Kept z s) : Kept z (raiseOpen s n) := by
  unfold raiseOpen
  try dsimp only
  repeat' (first
    | with_reducible assumption
    | with_reducible apply drew_kept
    | with_reducible apply raise_kept)

theorem captureInjected_kept {z : State} (s : State) (n detail : Nat) (hK : Kept z s) : Kept z (captureInjected s n detail) := by
  unfold captureInjected
  try dsimp only
  repeat' (first
    | with_reducible assumption
    | ((conv => arg 2; arg 33); with_reducible refine Kept.lit ?_ ?_ ?_) <;> [skip; rfl; exact ⟨rfl, rfl, rfl, rfl, rfl, rfl, rfl⟩]
    | with_reducible apply binEvent_kept
    | with_reducible apply logEvent_kept
    | with_reducible apply pushHist_kept
    | with_reducible apply openWindow_kept
    | with_reducible apply Kept.ite
    | dsimp only
    | split)

theorem regFault_kept {z : State} (s : State) (a : Nat) (hK : Kept z s) : Kept z (regFault s a) := by
  unfold regFault
  try dsimp only
  repeat' (first
    | with_reducible assumption
    | with_reducible apply raise_kept)

theorem cxlDrop_kept {z : State} (s : State) (port reason : Nat) (hK : Kept z s) : Kept z (cxlDrop s port reason) := by
  unfold cxlDrop
  try dsimp only
  repeat' (first
    | with_reducible assumption
    | with_reducible apply setFld_kept
    | with_reducible apply bump_kept
    | with_reducible apply raise_kept
    | with_reducible apply Kept.ite
    | dsimp only
    | split)

/-! ### Trellis -/

theorem loopRan_kept {z : State} (s : State) (k : Nat) (hK : Kept z s) : Kept z (loopRan s k) := by
  unfold loopRan
  try dsimp only
  repeat' (first
    | with_reducible assumption
    | ((conv => arg 2; arg 33); with_reducible refine Kept.lit ?_ ?_ ?_) <;> [skip; rfl; exact ⟨rfl, rfl, rfl, rfl, rfl, rfl, rfl⟩])

theorem postReply_kept {z : State} (s : State) (c : TrellisCmd) (r : Reply) (hK : Kept z s) : Kept z (postReply s c r) := by
  unfold postReply
  try dsimp only
  repeat' (first
    | intro _ _ _
    | intro _ _
    | intro _
    | with_reducible assumption
    | ((conv => arg 2; arg 33); with_reducible refine Kept.lit ?_ ?_ ?_) <;> [skip; rfl; exact ⟨rfl, rfl, rfl, rfl, rfl, rfl, rfl⟩]
    | with_reducible apply emit_kept
    | dsimp only
    | split)

theorem releaseAfter_kept {z : State} (s : State) (id : Nat) (hK : Kept z s) : Kept z (releaseAfter s id) := by
  unfold releaseAfter
  try dsimp only
  repeat' (first
    | intro _ _ _
    | intro _ _
    | intro _
    | with_reducible assumption
    | ((conv => arg 2; arg 33); with_reducible refine Kept.lit ?_ ?_ ?_) <;> [skip; rfl; exact ⟨rfl, rfl, rfl, rfl, rfl, rfl, rfl⟩]
    | with_reducible apply Kept.ite
    | dsimp only
    | split)

theorem sampleResidence_kept {z : State} (s : State) (f : InFlight) (hK : Kept z s) : Kept z (sampleResidence s f) := by
  unfold sampleResidence
  try dsimp only
  repeat' (first
    | intro _ _ _
    | intro _ _
    | intro _
    | with_reducible assumption
    | ((conv => arg 2; arg 33); with_reducible refine Kept.lit ?_ ?_ ?_) <;> [skip; rfl; exact ⟨rfl, rfl, rfl, rfl, rfl, rfl, rfl⟩]
    | dsimp only
    | split)

theorem delivered_kept {z : State} (s : State) (id : Nat) (hK : Kept z s) : Kept z (delivered s id) := by
  unfold delivered
  try dsimp only
  repeat' (first
    | intro _ _ _
    | intro _ _
    | intro _
    | with_reducible assumption
    | ((conv => arg 2; arg 33); with_reducible refine Kept.lit ?_ ?_ ?_) <;> [skip; rfl; exact ⟨rfl, rfl, rfl, rfl, rfl, rfl, rfl⟩]
    | with_reducible apply releaseAfter_kept)

theorem finish_kept {z : State} (s : State) (id : Nat) (r : Reply) (hK : Kept z s) : Kept z (finish s id r) := by
  unfold finish
  try dsimp only
  repeat' (first
    | intro _ _ _
    | intro _ _
    | intro _
    | with_reducible assumption
    | ((conv => arg 2; arg 33); with_reducible refine Kept.lit ?_ ?_ ?_) <;> [skip; rfl; exact ⟨rfl, rfl, rfl, rfl, rfl, rfl, rfl⟩]
    | with_reducible apply postReply_kept
    | with_reducible apply sampleResidence_kept
    | with_reducible apply delivered_kept
    | with_reducible apply Kept.ite
    | dsimp only
    | split)

theorem finishNow_kept {z : State} (s : State) (id : Nat) (r : Reply) (hK : Kept z s) : Kept z (finishNow s id r) := by
  unfold finishNow
  try dsimp only
  repeat' (first
    | intro _ _ _
    | intro _ _
    | intro _
    | with_reducible assumption
    | ((conv => arg 2; arg 33); with_reducible refine Kept.lit ?_ ?_ ?_) <;> [skip; rfl; exact ⟨rfl, rfl, rfl, rfl, rfl, rfl, rfl⟩]
    | with_reducible apply emit_kept
    | with_reducible apply sampleResidence_kept
    | with_reducible apply delivered_kept
    | dsimp only
    | split)

theorem endWith_kept {z : State} (s : State) (id status detail : Nat) (hK : Kept z s) : Kept z (endWith s id status detail) := by
  unfold endWith
  try dsimp only
  repeat' (first
    | with_reducible assumption
    | with_reducible apply finish_kept)

theorem endOk_kept {z : State} (s : State) (id : Nat) (result : List Byte) (hK : Kept z s) : Kept z (endOk s id result) := by
  unfold endOk
  try dsimp only
  repeat' (first
    | with_reducible assumption
    | with_reducible apply finish_kept)

theorem endOut_kept {z : State} (s : State) (id : Nat) (result output : List Byte) (hK : Kept z s) : Kept z (endOut s id result output) := by
  unfold endOut
  try dsimp only
  repeat' (first
    | with_reducible assumption
    | with_reducible apply finish_kept)

theorem badParam_kept {z : State} (s : State) (id off : Nat) (hK : Kept z s) : Kept z (badParam s id off) := by
  unfold badParam
  try dsimp only
  repeat' (first
    | with_reducible assumption
    | with_reducible apply endWith_kept)

theorem conflict_kept {z : State} (s : State) (id reason : Nat) (hK : Kept z s) : Kept z (conflict s id reason) := by
  unfold conflict
  try dsimp only
  repeat' (first
    | with_reducible assumption
    | with_reducible apply endWith_kept)

theorem setJob_kept {z : State} (s : State) (id : Nat) (j : Job) (hK : Kept z s) : Kept z (setJob s id j) := by
  unfold setJob
  try dsimp only
  repeat' (first
    | intro _ _ _
    | intro _ _
    | intro _
    | with_reducible assumption
    | ((conv => arg 2; arg 33); with_reducible refine Kept.lit ?_ ?_ ?_) <;> [skip; rfl; exact ⟨rfl, rfl, rfl, rfl, rfl, rfl, rfl⟩]
    | with_reducible apply Kept.ite
    | dsimp only
    | split)

theorem refuse_kept {z : State} (s : State) (c : TrellisCmd) (x : Refuse) (hK : Kept z s) : Kept z (refuse s c x) := by
  unfold refuse
  try dsimp only
  repeat' (first
    | intro _ _ _
    | intro _ _
    | intro _
    | with_reducible assumption
    | ((conv => arg 2; arg 33); with_reducible refine Kept.lit ?_ ?_ ?_) <;> [skip; rfl; exact ⟨rfl, rfl, rfl, rfl, rfl, rfl, rfl⟩]
    | with_reducible apply drew_kept
    | with_reducible apply postReply_kept
    | with_reducible apply Kept.ite
    | dsimp only
    | split)

theorem admitCmd_kept {z : State} (s : State) (c : TrellisCmd) (hK : Kept z s) : Kept z (admitCmd s c).1 := by
  unfold admitCmd
  try dsimp only
  repeat' (first
    | intro _ _ _
    | intro _ _
    | intro _
    | with_reducible assumption
    | ((conv => arg 2; arg 33); with_reducible refine Kept.lit ?_ ?_ ?_) <;> [skip; rfl; exact ⟨rfl, rfl, rfl, rfl, rfl, rfl, rfl⟩]
    | with_reducible apply postReply_kept
    | with_reducible apply Kept.ite
    | dsimp only
    | split)
theorem admitCmd_kept_eq {z : State} {s : State} {c : TrellisCmd} {x : State} {r : _} (e : (admitCmd s c) = (x, r)) (hK : Kept z s) : Kept z x := by
  have := admitCmd_kept s c hK
  rw [e] at this
  exact this

theorem begin_kept {z : State} (eff : InFlight → State → State) (f : InFlight) (s : State) (hE : ∀ a0 x, Kept z x → Kept z (eff a0 x)) (hK : Kept z s) : Kept z (begin eff f s) := by
  unfold begin
  try dsimp only
  repeat' (first
    | with_reducible apply hE
    | intro _ _ _
    | intro _ _
    | intro _
    | with_reducible assumption
    | ((conv => arg 2; arg 33); with_reducible refine Kept.lit ?_ ?_ ?_) <;> [skip; rfl; exact ⟨rfl, rfl, rfl, rfl, rfl, rfl, rfl⟩]
    | with_reducible apply endWith_kept
    | with_reducible apply badParam_kept
    | with_reducible apply Kept.ite
    | dsimp only
    | split)

theorem submit_kept {z : State} (eff : InFlight → State → State) (op : Nat) (c : TrellisCmd) (s : State) (hE : ∀ a0 x, Kept z x → Kept z (eff a0 x)) (hK : Kept z s) : Kept z (submit eff op c s) := by
  unfold submit
  try dsimp only
  repeat' (first
    | with_reducible apply hE
    | intro _ _ _
    | intro _ _
    | intro _
    | with_reducible assumption
    | ((conv => arg 2; arg 33); with_reducible refine Kept.lit ?_ ?_ ?_) <;> [skip; rfl; exact ⟨rfl, rfl, rfl, rfl, rfl, rfl, rfl⟩]
    | with_reducible apply tick_kept
    | with_reducible apply refuse_kept
    | with_reducible apply admitCmd_kept
    | with_reducible refine admitCmd_kept_eq (by assumption) ?_
    | with_reducible apply begin_kept
    | with_reducible apply Kept.ite
    | dsimp only
    | split)

/-! ### Functions -/

theorem assistInput_kept {z : State} (s : State) (f : Nat) (hK : Kept z s) : Kept z (assistInput s f) := by
  unfold assistInput
  try dsimp only
  repeat' (first
    | with_reducible assumption
    | ((conv => arg 2; arg 33); with_reducible refine Kept.lit ?_ ?_ ?_) <;> [skip; rfl; exact ⟨rfl, rfl, rfl, rfl, rfl, rfl, rfl⟩]
    | with_reducible apply setFunc_kept)

theorem applySwitch_kept {z : State} (s : State) (f : Nat) (hK : Kept z s) : Kept z (applySwitch s f) := by
  unfold applySwitch
  try dsimp only
  repeat' (first
    | with_reducible assumption
    | ((conv => arg 2; arg 33); with_reducible refine Kept.lit ?_ ?_ ?_) <;> [skip; rfl; exact ⟨rfl, rfl, rfl, rfl, rfl, rfl, rfl⟩]
    | with_reducible apply setFunc_kept
    | with_reducible apply endOk_kept
    | dsimp only
    | split)

theorem cmdFuncModeSet_kept {z : State} (e : InFlight) (s : State) (hK : Kept z s) : Kept z (cmdFuncModeSet e s) := by
  unfold cmdFuncModeSet
  try dsimp only
  repeat' (first
    | intro _ _ _
    | intro _ _
    | intro _
    | with_reducible assumption
    | ((conv => arg 2; arg 33); with_reducible refine Kept.lit ?_ ?_ ?_) <;> [skip; rfl; exact ⟨rfl, rfl, rfl, rfl, rfl, rfl, rfl⟩]
    | with_reducible apply setFunc_kept
    | with_reducible apply endOk_kept
    | with_reducible apply badParam_kept
    | with_reducible apply conflict_kept
    | with_reducible apply setJob_kept
    | with_reducible apply applySwitch_kept
    | with_reducible apply Kept.ite
    | dsimp only
    | split)

theorem cmdFuncModeQuery_kept {z : State} (e : InFlight) (s : State) (hK : Kept z s) : Kept z (cmdFuncModeQuery e s) := by
  unfold cmdFuncModeQuery
  try dsimp only
  repeat' (first
    | intro _ _ _
    | intro _ _
    | intro _
    | with_reducible assumption
    | with_reducible apply endOk_kept
    | with_reducible apply badParam_kept
    | with_reducible apply Kept.ite
    | dsimp only
    | split)

theorem setLimits_kept {z : State} (s : State) (hK : Kept z s) : Kept z (setLimits s) := by
  unfold setLimits
  try dsimp only
  repeat' (first
    | intro _ _ _
    | intro _ _
    | intro _
    | with_reducible assumption
    | ((conv => arg 2; arg 33); with_reducible refine Kept.lit ?_ ?_ ?_) <;> [skip; rfl; exact ⟨rfl, rfl, rfl, rfl, rfl, rfl, rfl⟩]
    | with_reducible apply Kept.ite
    | dsimp only
    | split)

theorem fallAuto_kept {z : State} (s : State) (hK : Kept z s) : Kept z (fallAuto s) := by
  unfold fallAuto
  try dsimp only
  repeat' (first
    | intro _ _ _
    | intro _ _
    | intro _
    | with_reducible assumption
    | ((conv => arg 2; arg 33); with_reducible refine Kept.lit ?_ ?_ ?_) <;> [skip; rfl; exact ⟨rfl, rfl, rfl, rfl, rfl, rfl, rfl⟩]
    | with_reducible apply Kept.ite
    | dsimp only
    | split)

theorem enterLevel_kept {z : State} (s : State) (k : Nat) (hK : Kept z s) : Kept z (enterLevel s k) := by
  unfold enterLevel
  try dsimp only
  repeat' (first
    | with_reducible assumption
    | ((conv => arg 2; arg 33); with_reducible refine Kept.lit ?_ ?_ ?_) <;> [skip; rfl; exact ⟨rfl, rfl, rfl, rfl, rfl, rfl, rfl⟩]
    | with_reducible apply setLimits_kept
    | with_reducible apply fallAuto_kept
    | with_reducible apply Kept.ite
    | dsimp only
    | split)

theorem execFuncModeSet_kept {z : State} (c : TrellisCmd) (s : State) (hK : Kept z s) {w0 : State} (eq0 : execFuncModeSet c s = .next w0) : Kept z w0 := by
  unfold execFuncModeSet at eq0
  try dsimp only at eq0
  refine Kept.of_next eq0 ?_
  repeat' (first
    | intro _ _ _
    | intro _ _
    | intro _
    | with_reducible assumption
    | with_reducible apply submit_kept
    | with_reducible apply cmdFuncModeSet_kept)

theorem execFuncModeQuery_kept {z : State} (c : TrellisCmd) (s : State) (hK : Kept z s) {w0 : State} (eq0 : execFuncModeQuery c s = .next w0) : Kept z w0 := by
  unfold execFuncModeQuery at eq0
  try dsimp only at eq0
  refine Kept.of_next eq0 ?_
  repeat' (first
    | intro _ _ _
    | intro _ _
    | intro _
    | with_reducible assumption
    | with_reducible apply submit_kept
    | with_reducible apply cmdFuncModeQuery_kept)

theorem execQuiescentPointSwitch_kept {z : State} (f t : Nat) (s : State) (hK : Kept z s) {w0 : State} (eq0 : execQuiescentPointSwitch f t s = .next w0) : Kept z w0 := by
  unfold execQuiescentPointSwitch at eq0
  try dsimp only at eq0
  refine Kept.of_next eq0 ?_
  repeat' (first
    | with_reducible assumption
    | with_reducible apply tick_kept
    | with_reducible apply applySwitch_kept
    | with_reducible apply Kept.ite
    | dsimp only
    | split)

theorem execFuncSwitchTimeout_kept {z : State} (f t : Nat) (s : State) (hK : Kept z s) {w0 : State} (eq0 : execFuncSwitchTimeout f t s = .next w0) : Kept z w0 := by
  unfold execFuncSwitchTimeout at eq0
  try dsimp only at eq0
  refine Kept.of_next eq0 ?_
  repeat' (first
    | with_reducible assumption
    | ((conv => arg 2; arg 33); with_reducible refine Kept.lit ?_ ?_ ?_) <;> [skip; rfl; exact ⟨rfl, rfl, rfl, rfl, rfl, rfl, rfl⟩]
    | with_reducible apply tick_kept
    | with_reducible apply setFunc_kept
    | with_reducible apply endWith_kept
    | with_reducible apply Kept.ite
    | dsimp only
    | split)

theorem execLoadWindowEnd_kept {z : State} (busyA busyB t : Nat) (s : State) (hK : Kept z s) {w0 : State} (eq0 : execLoadWindowEnd busyA busyB t s = .next w0) : Kept z w0 := by
  unfold execLoadWindowEnd at eq0
  try dsimp only at eq0
  refine Kept.of_next eq0 ?_
  repeat' (first
    | with_reducible assumption
    | ((conv => arg 2; arg 33); with_reducible refine Kept.lit ?_ ?_ ?_) <;> [skip; rfl; exact ⟨rfl, rfl, rfl, rfl, rfl, rfl, rfl⟩]
    | with_reducible apply tick_kept
    | with_reducible apply setFld_kept
    | with_reducible apply enterLevel_kept
    | with_reducible apply Kept.ite
    | dsimp only
    | split)

theorem execLoadLevelFall_kept {z : State} (t : Nat) (s : State) (hK : Kept z s) {w0 : State} (eq0 : execLoadLevelFall t s = .next w0) : Kept z w0 := by
  unfold execLoadLevelFall at eq0
  try dsimp only at eq0
  refine Kept.of_next eq0 ?_
  repeat' (first
    | with_reducible assumption
    | ((conv => arg 2; arg 33); with_reducible refine Kept.lit ?_ ?_ ?_) <;> [skip; rfl; exact ⟨rfl, rfl, rfl, rfl, rfl, rfl, rfl⟩]
    | with_reducible apply tick_kept
    | with_reducible apply enterLevel_kept
    | with_reducible apply Kept.ite
    | dsimp only
    | split)

theorem execAutoReturn_kept {z : State} (t : Nat) (s : State) (hK : Kept z s) {w0 : State} (eq0 : execAutoReturn t s = .next w0) : Kept z w0 := by
  unfold execAutoReturn at eq0
  try dsimp only at eq0
  refine Kept.of_next eq0 ?_
  repeat' (first
    | intro _ _ _
    | intro _ _
    | intro _
    | with_reducible assumption
    | ((conv => arg 2; arg 33); with_reducible refine Kept.lit ?_ ?_ ?_) <;> [skip; rfl; exact ⟨rfl, rfl, rfl, rfl, rfl, rfl, rfl⟩]
    | with_reducible apply tick_kept
    | with_reducible apply Kept.ite
    | dsimp only
    | split)

end Sys2Proof.Machine
end

