-- ==== Sys2Proof/Laws/KeptCold.lean ====
section
/-! SUPPORT. What the functions of Collector, Keys, Pages, Blocks, Embedded, Bus, Rails, Power, Gauge keep (Laws/Kept.lean). -/

namespace Sys2Proof.Machine

open Sys2Proof

set_option linter.unusedTactic false
set_option linter.unreachableTactic false

/-! ### Collector -/

theorem endInject_kept {z : State} (s : State) (n : Nat) (j : Inject) (hK : Kept z s) : Kept z (endInject s n j) := by
  unfold endInject
  try dsimp only
  repeat' (first
    | with_reducible assumption
    | ((conv => arg 2; arg 33); with_reducible refine Kept.lit ?_ ?_ ?_) <;> [skip; rfl; exact ⟨rfl, rfl, rfl, rfl, rfl, rfl, rfl⟩]
    | with_reducible apply setSource_kept
    | with_reducible apply raise_kept
    | with_reducible apply endOk_kept
    | with_reducible apply Kept.ite
    | dsimp only
    | split)

theorem injectedCheck_kept {z : State} (s : State) (n detail missed : Nat) (holds : Bool) (j : Inject) (hK : Kept z s) : Kept z (injectedCheck s n detail missed holds j) := by
  unfold injectedCheck
  try dsimp only
  repeat' (first
    | with_reducible assumption
    | ((conv => arg 2; arg 33); with_reducible refine Kept.lit ?_ ?_ ?_) <;> [skip; rfl; exact ⟨rfl, rfl, rfl, rfl, rfl, rfl, rfl⟩]
    | with_reducible apply setSource_kept
    | with_reducible apply raiseAs_kept
    | with_reducible apply captureInjected_kept
    | with_reducible apply endInject_kept
    | with_reducible apply Kept.ite
    | dsimp only
    | split)

theorem cmdFaultStatus_kept {z : State} (f : InFlight) (s : State) (hK : Kept z s) : Kept z (cmdFaultStatus f s) := by
  unfold cmdFaultStatus
  try dsimp only
  repeat' (first
    | intro _ _ _
    | intro _ _
    | intro _
    | with_reducible assumption
    | ((conv => arg 2; arg 33); with_reducible refine Kept.lit ?_ ?_ ?_) <;> [skip; rfl; exact ⟨rfl, rfl, rfl, rfl, rfl, rfl, rfl⟩]
    | with_reducible apply endOut_kept
    | with_reducible apply badParam_kept
    | with_reducible apply Kept.ite
    | dsimp only
    | split)

theorem clearSource_kept {z : State} (s : State) (n : Nat) (hK : Kept z s) : Kept z (clearSource s n) := by
  unfold clearSource
  try dsimp only
  repeat' (first
    | with_reducible assumption
    | ((conv => arg 2; arg 33); with_reducible refine Kept.lit ?_ ?_ ?_) <;> [skip; rfl; exact ⟨rfl, rfl, rfl, rfl, rfl, rfl, rfl⟩]
    | with_reducible apply setSource_kept
    | with_reducible apply Kept.ite
    | dsimp only
    | split)

theorem cmdFaultClear_kept {z : State} (f : InFlight) (s : State) (hK : Kept z s) : Kept z (cmdFaultClear f s) := by
  unfold cmdFaultClear
  try dsimp only
  repeat' (first
    | intro _ _ _
    | intro _ _
    | intro _
    | with_reducible assumption
    | ((conv => arg 2; arg 33); with_reducible refine Kept.lit ?_ ?_ ?_) <;> [skip; rfl; exact ⟨rfl, rfl, rfl, rfl, rfl, rfl, rfl⟩]
    | with_reducible apply endOk_kept
    | with_reducible apply badParam_kept
    | with_reducible apply conflict_kept
    | with_reducible apply clearSource_kept
    | with_reducible apply Kept.ite
    | with_reducible apply Kept.foldl
    | dsimp only
    | split)

theorem cmdFaultInject_kept {z : State} (f : InFlight) (s : State) (hK : Kept z s) : Kept z (cmdFaultInject f s) := by
  unfold cmdFaultInject
  try dsimp only
  repeat' (first
    | with_reducible assumption
    | ((conv => arg 2; arg 33); with_reducible refine Kept.lit ?_ ?_ ?_) <;> [skip; rfl; exact ⟨rfl, rfl, rfl, rfl, rfl, rfl, rfl⟩]
    | with_reducible apply setSource_kept
    | with_reducible apply badParam_kept
    | with_reducible apply conflict_kept
    | with_reducible apply setJob_kept
    | with_reducible apply Kept.ite
    | dsimp only
    | split)

theorem moveCursor_kept {z : State} (s : State) (p : Path) (n : Nat) (hK : Kept z s) : Kept z (moveCursor s p n) := by
  unfold moveCursor
  try dsimp only
  repeat' (first
    | with_reducible assumption
    | ((conv => arg 2; arg 33); with_reducible refine Kept.lit ?_ ?_ ?_) <;> [skip; rfl; exact ⟨rfl, rfl, rfl, rfl, rfl, rfl, rfl⟩])

theorem setCursor_kept {z : State} (s : State) (p : Path) (n : Nat) (hK : Kept z s) : Kept z (setCursor s p n) := by
  unfold setCursor
  try dsimp only
  repeat' (first
    | with_reducible assumption
    | ((conv => arg 2; arg 33); with_reducible refine Kept.lit ?_ ?_ ?_) <;> [skip; rfl; exact ⟨rfl, rfl, rfl, rfl, rfl, rfl, rfl⟩]
    | with_reducible apply moveCursor_kept)

theorem cmdLogCursorSet_kept {z : State} (f : InFlight) (s : State) (hK : Kept z s) : Kept z (cmdLogCursorSet f s) := by
  unfold cmdLogCursorSet
  try dsimp only
  repeat' (first
    | with_reducible assumption
    | ((conv => arg 2; arg 33); with_reducible refine Kept.lit ?_ ?_ ?_) <;> [skip; rfl; exact ⟨rfl, rfl, rfl, rfl, rfl, rfl, rfl⟩]
    | with_reducible apply endOk_kept
    | with_reducible apply badParam_kept
    | with_reducible apply setCursor_kept
    | with_reducible apply Kept.ite
    | dsimp only
    | split)

theorem cmdLogReadWindow_kept {z : State} (f : InFlight) (s : State) (hK : Kept z s) : Kept z (cmdLogReadWindow f s) := by
  unfold cmdLogReadWindow
  try dsimp only
  repeat' (first
    | with_reducible assumption
    | with_reducible apply endOut_kept
    | with_reducible apply badParam_kept
    | with_reducible apply moveCursor_kept
    | with_reducible apply Kept.ite
    | dsimp only
    | split)

theorem cmdLogClear_kept {z : State} (f : InFlight) (s : State) (hK : Kept z s) : Kept z (cmdLogClear f s) := by
  unfold cmdLogClear
  try dsimp only
  repeat' (first
    | intro _ _ _
    | intro _ _
    | intro _
    | with_reducible assumption
    | ((conv => arg 2; arg 33); with_reducible refine Kept.lit ?_ ?_ ?_) <;> [skip; rfl; exact ⟨rfl, rfl, rfl, rfl, rfl, rfl, rfl⟩]
    | with_reducible apply nvmPost_kept
    | with_reducible apply setJob_kept
    | with_reducible apply Kept.ite
    | with_reducible apply Kept.foldl
    | dsimp only
    | split)

theorem endLogClear_kept {z : State} (s : State) (hK : Kept z s) : Kept z (endLogClear s) := by
  unfold endLogClear
  try dsimp only
  repeat' (first
    | intro _ _ _
    | intro _ _
    | intro _
    | with_reducible assumption
    | ((conv => arg 2; arg 33); with_reducible refine Kept.lit ?_ ?_ ?_) <;> [skip; rfl; exact ⟨rfl, rfl, rfl, rfl, rfl, rfl, rfl⟩]
    | with_reducible apply logWrite_kept
    | with_reducible refine logWrite_kept_eq (by assumption) ?_
    | with_reducible apply endOk_kept
    | with_reducible apply Kept.foldl)

theorem execFaultReport_kept {z : State} (n detail missed : Nat) (holds : Bool) (t : Nat) (s : State) (hK : Kept z s) {w0 : State} (eq0 : execFaultReport n detail missed holds t s = .next w0) : Kept z w0 := by
  unfold execFaultReport at eq0
  try dsimp only at eq0
  refine Kept.of_next eq0 ?_
  repeat' (first
    | with_reducible assumption
    | ((conv => arg 2; arg 33); with_reducible refine Kept.lit ?_ ?_ ?_) <;> [skip; rfl; exact ⟨rfl, rfl, rfl, rfl, rfl, rfl, rfl⟩]
    | with_reducible apply tick_kept
    | with_reducible apply raiseAs_kept
    | with_reducible apply injectedCheck_kept
    | with_reducible apply Kept.ite
    | dsimp only
    | split)

theorem execBrokenPath_kept {z : State} (p : PairRef) (t : Nat) (s : State) (hK : Kept z s) {w0 : State} (eq0 : execBrokenPath p t s = .next w0) : Kept z w0 := by
  unfold execBrokenPath at eq0
  try dsimp only at eq0
  refine Kept.of_next eq0 ?_
  repeat' (first
    | with_reducible assumption
    | ((conv => arg 2; arg 33); with_reducible refine Kept.lit ?_ ?_ ?_) <;> [skip; rfl; exact ⟨rfl, rfl, rfl, rfl, rfl, rfl, rfl⟩]
    | with_reducible apply tick_kept
    | with_reducible apply setSource_kept
    | with_reducible apply raise_kept
    | with_reducible apply raiseOpen_kept
    | with_reducible apply captureInjected_kept
    | with_reducible apply endInject_kept
    | with_reducible apply Kept.ite
    | dsimp only
    | split)

theorem execPolledSourceCheck_kept {z : State} (n detail : Nat) (fault : Bool) (t : Nat) (s : State) (hK : Kept z s) {w0 : State} (eq0 : execPolledSourceCheck n detail fault t s = .next w0) : Kept z w0 := by
  unfold execPolledSourceCheck at eq0
  try dsimp only at eq0
  refine Kept.of_next eq0 ?_
  repeat' (first
    | with_reducible assumption
    | with_reducible apply tick_kept
    | with_reducible apply clearLive_kept
    | with_reducible apply raiseAs_kept
    | with_reducible apply Kept.ite
    | dsimp only
    | split)

theorem execLogRatePeriod_kept {z : State} (code t : Nat) (s : State) (hK : Kept z s) {w0 : State} (eq0 : execLogRatePeriod code t s = .next w0) : Kept z w0 := by
  unfold execLogRatePeriod at eq0
  try dsimp only at eq0
  refine Kept.of_next eq0 ?_
  repeat' (first
    | with_reducible assumption
    | ((conv => arg 2; arg 33); with_reducible refine Kept.lit ?_ ?_ ?_) <;> [skip; rfl; exact ⟨rfl, rfl, rfl, rfl, rfl, rfl, rfl⟩]
    | with_reducible apply tick_kept
    | with_reducible apply flushBin_kept
    | with_reducible apply Kept.ite
    | dsimp only
    | split)

theorem execFaultStatus_kept {z : State} (c : TrellisCmd) (s : State) (hK : Kept z s) {w0 : State} (eq0 : execFaultStatus c s = .next w0) : Kept z w0 := by
  unfold execFaultStatus at eq0
  try dsimp only at eq0
  refine Kept.of_next eq0 ?_
  repeat' (first
    | intro _ _ _
    | intro _ _
    | intro _
    | with_reducible assumption
    | with_reducible apply submit_kept
    | with_reducible apply cmdFaultStatus_kept)

theorem execFaultClear_kept {z : State} (c : TrellisCmd) (s : State) (hK : Kept z s) {w0 : State} (eq0 : execFaultClear c s = .next w0) : Kept z w0 := by
  unfold execFaultClear at eq0
  try dsimp only at eq0
  refine Kept.of_next eq0 ?_
  repeat' (first
    | intro _ _ _
    | intro _ _
    | intro _
    | with_reducible assumption
    | with_reducible apply submit_kept
    | with_reducible apply cmdFaultClear_kept)

theorem execFaultInject_kept {z : State} (c : TrellisCmd) (s : State) (hK : Kept z s) {w0 : State} (eq0 : execFaultInject c s = .next w0) : Kept z w0 := by
  unfold execFaultInject at eq0
  try dsimp only at eq0
  refine Kept.of_next eq0 ?_
  repeat' (first
    | intro _ _ _
    | intro _ _
    | intro _
    | with_reducible assumption
    | with_reducible apply submit_kept
    | with_reducible apply cmdFaultInject_kept)

theorem execLogCursorSet_kept {z : State} (c : TrellisCmd) (s : State) (hK : Kept z s) {w0 : State} (eq0 : execLogCursorSet c s = .next w0) : Kept z w0 := by
  unfold execLogCursorSet at eq0
  try dsimp only at eq0
  refine Kept.of_next eq0 ?_
  repeat' (first
    | intro _ _ _
    | intro _ _
    | intro _
    | with_reducible assumption
    | with_reducible apply submit_kept
    | with_reducible apply cmdLogCursorSet_kept)

theorem execLogReadWindow_kept {z : State} (c : TrellisCmd) (s : State) (hK : Kept z s) {w0 : State} (eq0 : execLogReadWindow c s = .next w0) : Kept z w0 := by
  unfold execLogReadWindow at eq0
  try dsimp only at eq0
  refine Kept.of_next eq0 ?_
  repeat' (first
    | intro _ _ _
    | intro _ _
    | intro _
    | with_reducible assumption
    | with_reducible apply submit_kept
    | with_reducible apply cmdLogReadWindow_kept)

theorem execLogClear_kept {z : State} (c : TrellisCmd) (s : State) (hK : Kept z s) {w0 : State} (eq0 : execLogClear c s = .next w0) : Kept z w0 := by
  unfold execLogClear at eq0
  try dsimp only at eq0
  refine Kept.of_next eq0 ?_
  repeat' (first
    | intro _ _ _
    | intro _ _
    | intro _
    | with_reducible assumption
    | with_reducible apply submit_kept
    | with_reducible apply cmdLogClear_kept)

/-! ### Keys -/

theorem takeNonce_kept {z : State} (s : State) (hK : Kept z s) : Kept z (takeNonce s) := by
  unfold takeNonce
  try dsimp only
  repeat' (first
    | with_reducible assumption
    | ((conv => arg 2; arg 33); with_reducible refine Kept.lit ?_ ?_ ?_) <;> [skip; rfl; exact ⟨rfl, rfl, rfl, rfl, rfl, rfl, rfl⟩])

theorem reserveNonces_kept {z : State} (s : State) (hK : Kept z s) : Kept z (reserveNonces s) := by
  unfold reserveNonces
  try dsimp only
  repeat' (first
    | with_reducible assumption
    | ((conv => arg 2; arg 33); with_reducible refine Kept.lit ?_ ?_ ?_) <;> [skip; rfl; exact ⟨rfl, rfl, rfl, rfl, rfl, rfl, rfl⟩]
    | with_reducible apply pairWrite_kept
    | with_reducible apply optionWrite_kept
    | with_reducible apply Kept.ite
    | dsimp only
    | split)

theorem cmdKeyLabelSet_kept {z : State} (f : InFlight) (s : State) (hK : Kept z s) : Kept z (cmdKeyLabelSet f s) := by
  unfold cmdKeyLabelSet
  try dsimp only
  repeat' (first
    | with_reducible assumption
    | ((conv => arg 2; arg 33); with_reducible refine Kept.lit ?_ ?_ ?_) <;> [skip; rfl; exact ⟨rfl, rfl, rfl, rfl, rfl, rfl, rfl⟩]
    | with_reducible apply pairWrite_kept
    | with_reducible apply endWith_kept
    | with_reducible apply endOk_kept
    | with_reducible apply badParam_kept
    | with_reducible apply assistInput_kept
    | with_reducible apply Kept.ite
    | dsimp only
    | split)

theorem sealNow_kept {z : State} (f : InFlight) (s : State) (hK : Kept z s) : Kept z (sealNow f s) := by
  unfold sealNow
  try dsimp only
  repeat' (first
    | with_reducible assumption
    | with_reducible apply endOut_kept
    | with_reducible apply takeNonce_kept)

theorem noRootKey_kept {z : State} (f : InFlight) (s : State) (hK : Kept z s) : Kept z (noRootKey f s) := by
  unfold noRootKey
  try dsimp only
  repeat' (first
    | with_reducible assumption
    | with_reducible apply drew_kept
    | with_reducible apply endWith_kept)

theorem sealOrWait_kept {z : State} (f : InFlight) (s : State) (hK : Kept z s) : Kept z (sealOrWait f s) := by
  unfold sealOrWait
  try dsimp only
  repeat' (first
    | with_reducible assumption
    | ((conv => arg 2; arg 33); with_reducible refine Kept.lit ?_ ?_ ?_) <;> [skip; rfl; exact ⟨rfl, rfl, rfl, rfl, rfl, rfl, rfl⟩]
    | with_reducible apply raiseOpen_kept
    | with_reducible apply endWith_kept
    | with_reducible apply setJob_kept
    | with_reducible apply sealNow_kept
    | with_reducible apply Kept.ite
    | dsimp only
    | split)

theorem cmdRecordSeal_kept {z : State} (f : InFlight) (s : State) (hK : Kept z s) : Kept z (cmdRecordSeal f s) := by
  unfold cmdRecordSeal
  try dsimp only
  repeat' (first
    | with_reducible assumption
    | ((conv => arg 2; arg 33); with_reducible refine Kept.lit ?_ ?_ ?_) <;> [skip; rfl; exact ⟨rfl, rfl, rfl, rfl, rfl, rfl, rfl⟩]
    | with_reducible apply badParam_kept
    | with_reducible apply noRootKey_kept
    | with_reducible apply sealOrWait_kept
    | with_reducible apply Kept.ite
    | dsimp only
    | split)

theorem cmdRecordOpen_kept {z : State} (f : InFlight) (s : State) (hK : Kept z s) : Kept z (cmdRecordOpen f s) := by
  unfold cmdRecordOpen
  try dsimp only
  repeat' (first
    | with_reducible assumption
    | ((conv => arg 2; arg 33); with_reducible refine Kept.lit ?_ ?_ ?_) <;> [skip; rfl; exact ⟨rfl, rfl, rfl, rfl, rfl, rfl, rfl⟩]
    | with_reducible apply finish_kept
    | with_reducible apply badParam_kept
    | with_reducible apply noRootKey_kept
    | with_reducible apply Kept.ite
    | dsimp only
    | split)

theorem cmdAesBlock_kept {z : State} (f : InFlight) (s : State) (hK : Kept z s) : Kept z (cmdAesBlock f s) := by
  unfold cmdAesBlock
  try dsimp only
  repeat' (first
    | with_reducible assumption
    | with_reducible apply endOk_kept
    | with_reducible apply badParam_kept
    | with_reducible apply noRootKey_kept
    | with_reducible apply Kept.ite
    | dsimp only
    | split)

theorem serveWaiting_kept {z : State} (ids : List Nat) (s : State) (hK : Kept z s) : Kept z (serveWaiting ids s) := by
  induction ids generalizing s with
  | nil => exact hK
  | cons id r ih =>
    unfold serveWaiting
    split
    · exact ih _ (sealOrWait_kept _ _ hK)
    · exact ih _ hK

theorem nonceStored_kept {z : State} (s : State) (hK : Kept z s) : Kept z (nonceStored s) := by
  unfold nonceStored
  try dsimp only
  repeat' (first
    | with_reducible assumption
    | ((conv => arg 2; arg 33); with_reducible refine Kept.lit ?_ ?_ ?_) <;> [skip; rfl; exact ⟨rfl, rfl, rfl, rfl, rfl, rfl, rfl⟩]
    | with_reducible apply serveWaiting_kept)

theorem burn_keeps {s : State} {op arg : Nat} {x : Fus} (h : burn s op arg = .ok x) : Fus.keeps s.fus x := by
  have self4 : ∀ a b : BitVec 4, a ||| (a ||| b) = a ||| b := by intro a b; rw [← BitVec.or_assoc, BitVec.or_self]
  have self2 : ∀ a b : BitVec 2, a ||| (a ||| b) = a ||| b := by intro a b; rw [← BitVec.or_assoc, BitVec.or_self]
  have self11 : ∀ a b : BitVec 11, a ||| (a ||| b) = a ||| b := by intro a b; rw [← BitVec.or_assoc, BitVec.or_self]
  unfold burn at h
  dsimp only at h
  unfold Fus.keeps
  split at h
  all_goals
    repeat' (split at h)
  all_goals first
    | (cases h; done)
    | (injection h with h
       subst h
       simp only [BitVec.or_self, self4, self2, self11, implies_true, and_self, Nat.le_refl, true_and, imp_self]
       try omega)
theorem fuseCmd_kept {z : State} (a : RegAcc) (v op t : Nat) (s : State) (hK : Kept z s) : Kept z (fuseCmd a v op t s) := by
  unfold fuseCmd
  have h1 := tick_kept s t hK
  dsimp only
  split
  · exact h1
  · split
    · exact regFault_kept _ _ h1
    · split
      · exact h1
      · split
        · exact Kept.upd h1 rfl rfl rfl rfl rfl rfl
        · rename_i x hx
          have h2 := burn_keeps hx
          have h3 := h1.fuses
          refine ⟨h1.queue, h1.clock, h1.form, ?_, h1.draws, h1.out⟩
          unfold Fus.keeps at h2 h3 ⊢
          obtain ⟨a1, a2, a3, a4, a5, a6, a7⟩ := h2
          obtain ⟨b1, b2, b3, b4, b5, b6, b7⟩ := h3
          refine ⟨a1.trans b1, ?_, ?_, fun h => a4 (b4 h), ?_, ?_, Nat.le_trans b7 a7⟩
          · rw [← a2, ← b2, ← BitVec.or_assoc, ← BitVec.or_assoc, BitVec.or_self]
          · rw [← a3, ← b3, ← BitVec.or_assoc, ← BitVec.or_assoc, BitVec.or_self]
          · rw [← a5, ← b5, ← BitVec.or_assoc, ← BitVec.or_assoc, BitVec.or_self]
          · rw [← a6, ← b6, ← BitVec.or_assoc, ← BitVec.or_assoc, BitVec.or_self]

theorem setSlot_kept {z : State} (s : State) (b : Bool) (x : FwSlot) (hK : Kept z s) : Kept z (setSlot s b x) := by
  unfold setSlot
  try dsimp only
  repeat' (first
    | with_reducible assumption
    | ((conv => arg 2; arg 33); with_reducible refine Kept.lit ?_ ?_ ?_) <;> [skip; rfl; exact ⟨rfl, rfl, rfl, rfl, rfl, rfl, rfl⟩]
    | with_reducible apply Kept.ite
    | dsimp only
    | split)

theorem fwSave_kept {z : State} (s : State) (hK : Kept z s) : Kept z (fwSave s) := by
  unfold fwSave
  try dsimp only
  repeat' (first
    | with_reducible assumption
    | ((conv => arg 2; arg 33); with_reducible refine Kept.lit ?_ ?_ ?_) <;> [skip; rfl; exact ⟨rfl, rfl, rfl, rfl, rfl, rfl, rfl⟩]
    | with_reducible apply nvmPost_kept
    | with_reducible apply Kept.ite
    | dsimp only
    | split)

theorem fwStored_kept {z : State} (s : State) (hK : Kept z s) : Kept z (fwStored s) := by
  unfold fwStored
  try dsimp only
  repeat' (first
    | with_reducible assumption
    | ((conv => arg 2; arg 33); with_reducible refine Kept.lit ?_ ?_ ?_) <;> [skip; rfl; exact ⟨rfl, rfl, rfl, rfl, rfl, rfl, rfl⟩])

theorem cmdFwStageBegin_kept {z : State} (f : InFlight) (s : State) (hK : Kept z s) : Kept z (cmdFwStageBegin f s) := by
  unfold cmdFwStageBegin
  try dsimp only
  repeat' (first
    | intro _ _ _
    | intro _ _
    | intro _
    | with_reducible assumption
    | ((conv => arg 2; arg 33); with_reducible refine Kept.lit ?_ ?_ ?_) <;> [skip; rfl; exact ⟨rfl, rfl, rfl, rfl, rfl, rfl, rfl⟩]
    | with_reducible apply nvmPost_kept
    | with_reducible apply endOk_kept
    | with_reducible apply badParam_kept
    | with_reducible apply conflict_kept
    | with_reducible apply setJob_kept
    | with_reducible apply setSlot_kept
    | with_reducible apply fwSave_kept
    | with_reducible apply Kept.ite
    | with_reducible apply Kept.foldl
    | dsimp only
    | split)

theorem endSlotErase_kept {z : State} (s : State) (b : Bool) (hK : Kept z s) : Kept z (endSlotErase s b) := by
  unfold endSlotErase
  try dsimp only
  repeat' (first
    | intro _ _ _
    | intro _ _
    | intro _
    | with_reducible assumption
    | ((conv => arg 2; arg 33); with_reducible refine Kept.lit ?_ ?_ ?_) <;> [skip; rfl; exact ⟨rfl, rfl, rfl, rfl, rfl, rfl, rfl⟩]
    | with_reducible apply endOk_kept
    | with_reducible apply setSlot_kept
    | with_reducible apply fwSave_kept
    | with_reducible apply Kept.foldl)

theorem bufWrite_kept {z : State} (s : State) (off : Nat) (l : List Byte) (hK : Kept z s) : Kept z (bufWrite s off l) := by
  unfold bufWrite
  try dsimp only
  repeat' (first
    | intro _ _ _
    | intro _ _
    | intro _
    | with_reducible assumption
    | ((conv => arg 2; arg 33); with_reducible refine Kept.lit ?_ ?_ ?_) <;> [skip; rfl; exact ⟨rfl, rfl, rfl, rfl, rfl, rfl, rfl⟩]
    | with_reducible apply Kept.foldl)

theorem cmdFwStageData_kept {z : State} (f : InFlight) (s : State) (hK : Kept z s) : Kept z (cmdFwStageData f s) := by
  unfold cmdFwStageData
  try dsimp only
  repeat' (first
    | with_reducible assumption
    | ((conv => arg 2; arg 33); with_reducible refine Kept.lit ?_ ?_ ?_) <;> [skip; rfl; exact ⟨rfl, rfl, rfl, rfl, rfl, rfl, rfl⟩]
    | with_reducible apply bump_kept
    | with_reducible apply nvmPost_kept
    | with_reducible apply endWith_kept
    | with_reducible apply endOk_kept
    | with_reducible apply badParam_kept
    | with_reducible apply conflict_kept
    | with_reducible apply setJob_kept
    | with_reducible apply bufWrite_kept
    | with_reducible apply Kept.ite
    | dsimp only
    | split)

theorem execKeyLabelSet_kept {z : State} (c : TrellisCmd) (s : State) (hK : Kept z s) {w0 : State} (eq0 : execKeyLabelSet c s = .next w0) : Kept z w0 := by
  unfold execKeyLabelSet at eq0
  try dsimp only at eq0
  refine Kept.of_next eq0 ?_
  repeat' (first
    | intro _ _ _
    | intro _ _
    | intro _
    | with_reducible assumption
    | with_reducible apply submit_kept
    | with_reducible apply cmdKeyLabelSet_kept)

theorem execRecordSeal_kept {z : State} (c : TrellisCmd) (s : State) (hK : Kept z s) {w0 : State} (eq0 : execRecordSeal c s = .next w0) : Kept z w0 := by
  unfold execRecordSeal at eq0
  try dsimp only at eq0
  refine Kept.of_next eq0 ?_
  repeat' (first
    | intro _ _ _
    | intro _ _
    | intro _
    | with_reducible assumption
    | with_reducible apply submit_kept
    | with_reducible apply cmdRecordSeal_kept)

theorem execRecordOpen_kept {z : State} (c : TrellisCmd) (s : State) (hK : Kept z s) {w0 : State} (eq0 : execRecordOpen c s = .next w0) : Kept z w0 := by
  unfold execRecordOpen at eq0
  try dsimp only at eq0
  refine Kept.of_next eq0 ?_
  repeat' (first
    | intro _ _ _
    | intro _ _
    | intro _
    | with_reducible assumption
    | with_reducible apply submit_kept
    | with_reducible apply cmdRecordOpen_kept)

theorem execAesBlock_kept {z : State} (c : TrellisCmd) (s : State) (hK : Kept z s) {w0 : State} (eq0 : execAesBlock c s = .next w0) : Kept z w0 := by
  unfold execAesBlock at eq0
  try dsimp only at eq0
  refine Kept.of_next eq0 ?_
  repeat' (first
    | intro _ _ _
    | intro _ _
    | intro _
    | with_reducible assumption
    | with_reducible apply submit_kept
    | with_reducible apply cmdAesBlock_kept)

theorem execNonceBlockReserve_kept {z : State} (t : Nat) (s : State) (hK : Kept z s) {w0 : State} (eq0 : execNonceBlockReserve t s = .next w0) : Kept z w0 := by
  unfold execNonceBlockReserve at eq0
  try dsimp only at eq0
  refine Kept.of_next eq0 ?_
  repeat' (first
    | with_reducible assumption
    | ((conv => arg 2; arg 33); with_reducible refine Kept.lit ?_ ?_ ?_) <;> [skip; rfl; exact ⟨rfl, rfl, rfl, rfl, rfl, rfl, rfl⟩]
    | with_reducible apply tick_kept
    | with_reducible apply reserveNonces_kept
    | with_reducible apply serveWaiting_kept
    | with_reducible apply Kept.ite
    | dsimp only
    | split)

theorem execFuseAdvanceSecured_kept {z : State} (a : RegAcc) (v t : Nat) (s : State) (hK : Kept z s) {w0 : State} (eq0 : execFuseAdvanceSecured a v t s = .next w0) : Kept z w0 := by
  unfold execFuseAdvanceSecured at eq0
  try dsimp only at eq0
  refine Kept.of_next eq0 ?_
  repeat' (first
    | with_reducible assumption
    | with_reducible apply fuseCmd_kept)

theorem execFuseAdvanceRetired_kept {z : State} (a : RegAcc) (v t : Nat) (s : State) (hK : Kept z s) {w0 : State} (eq0 : execFuseAdvanceRetired a v t s = .next w0) : Kept z w0 := by
  unfold execFuseAdvanceRetired at eq0
  try dsimp only at eq0
  refine Kept.of_next eq0 ?_
  repeat' (first
    | with_reducible assumption
    | with_reducible apply fuseCmd_kept)

theorem execFuseSetHaDeny_kept {z : State} (a : RegAcc) (v t : Nat) (s : State) (hK : Kept z s) {w0 : State} (eq0 : execFuseSetHaDeny a v t s = .next w0) : Kept z w0 := by
  unfold execFuseSetHaDeny at eq0
  try dsimp only at eq0
  refine Kept.of_next eq0 ?_
  repeat' (first
    | with_reducible assumption
    | with_reducible apply fuseCmd_kept)

theorem execFuseRaiseRdpFloor_kept {z : State} (a : RegAcc) (v t : Nat) (s : State) (hK : Kept z s) {w0 : State} (eq0 : execFuseRaiseRdpFloor a v t s = .next w0) : Kept z w0 := by
  unfold execFuseRaiseRdpFloor at eq0
  try dsimp only at eq0
  refine Kept.of_next eq0 ?_
  repeat' (first
    | with_reducible assumption
    | with_reducible apply fuseCmd_kept)

theorem execFuseSetDebugLock_kept {z : State} (a : RegAcc) (v t : Nat) (s : State) (hK : Kept z s) {w0 : State} (eq0 : execFuseSetDebugLock a v t s = .next w0) : Kept z w0 := by
  unfold execFuseSetDebugLock at eq0
  try dsimp only at eq0
  refine Kept.of_next eq0 ?_
  repeat' (first
    | with_reducible assumption
    | with_reducible apply fuseCmd_kept)

theorem execFuseRaiseSvn_kept {z : State} (a : RegAcc) (v t : Nat) (s : State) (hK : Kept z s) {w0 : State} (eq0 : execFuseRaiseSvn a v t s = .next w0) : Kept z w0 := by
  unfold execFuseRaiseSvn at eq0
  try dsimp only at eq0
  refine Kept.of_next eq0 ?_
  repeat' (first
    | with_reducible assumption
    | with_reducible apply fuseCmd_kept)

theorem execFuseRevokeKey_kept {z : State} (a : RegAcc) (v t : Nat) (s : State) (hK : Kept z s) {w0 : State} (eq0 : execFuseRevokeKey a v t s = .next w0) : Kept z w0 := by
  unfold execFuseRevokeKey at eq0
  try dsimp only at eq0
  refine Kept.of_next eq0 ?_
  repeat' (first
    | with_reducible assumption
    | with_reducible apply fuseCmd_kept)

theorem execFwStageBegin_kept {z : State} (c : TrellisCmd) (s : State) (hK : Kept z s) {w0 : State} (eq0 : execFwStageBegin c s = .next w0) : Kept z w0 := by
  unfold execFwStageBegin at eq0
  try dsimp only at eq0
  refine Kept.of_next eq0 ?_
  repeat' (first
    | intro _ _ _
    | intro _ _
    | intro _
    | with_reducible assumption
    | with_reducible apply submit_kept
    | with_reducible apply cmdFwStageBegin_kept)

theorem execFwStageData_kept {z : State} (c : TrellisCmd) (s : State) (hK : Kept z s) {w0 : State} (eq0 : execFwStageData c s = .next w0) : Kept z w0 := by
  unfold execFwStageData at eq0
  try dsimp only at eq0
  refine Kept.of_next eq0 ?_
  repeat' (first
    | intro _ _ _
    | intro _ _
    | intro _
    | with_reducible assumption
    | with_reducible apply submit_kept
    | with_reducible apply cmdFwStageData_kept)

/-! ### Blocks -/

theorem setBlock_kept {z : State} (s : State) (b : Nat) (x : Block) (hK : Kept z s) : Kept z (setBlock s b x) := by
  unfold setBlock
  try dsimp only
  repeat' (first
    | with_reducible assumption
    | ((conv => arg 2; arg 33); with_reducible refine Kept.lit ?_ ?_ ?_) <;> [skip; rfl; exact ⟨rfl, rfl, rfl, rfl, rfl, rfl, rfl⟩])

theorem setSb_kept {z : State} (s : State) (k : Nat) (x : Sb) (hK : Kept z s) : Kept z (setSb s k x) := by
  unfold setSb
  try dsimp only
  repeat' (first
    | with_reducible assumption
    | ((conv => arg 2; arg 33); with_reducible refine Kept.lit ?_ ?_ ?_) <;> [skip; rfl; exact ⟨rfl, rfl, rfl, rfl, rfl, rfl, rfl⟩])

theorem reportCap_kept {z : State} (s : State) (hK : Kept z s) : Kept z (reportCap s) := by
  unfold reportCap
  try dsimp only
  repeat' (first
    | with_reducible assumption
    | ((conv => arg 2; arg 33); with_reducible refine Kept.lit ?_ ?_ ?_) <;> [skip; rfl; exact ⟨rfl, rfl, rfl, rfl, rfl, rfl, rfl⟩])

theorem setMap_kept {z : State} (s : State) (g : Nat) (e : MapEnt) (hK : Kept z s) : Kept z (setMap s g e) := by
  unfold setMap
  try dsimp only
  repeat' (first
    | with_reducible assumption
    | ((conv => arg 2; arg 33); with_reducible refine Kept.lit ?_ ?_ ?_) <;> [skip; rfl; exact ⟨rfl, rfl, rfl, rfl, rfl, rfl, rfl⟩])

theorem judgeBucket_kept {z : State} (s : State) (hK : Kept z s) : Kept z (judgeBucket s) := by
  unfold judgeBucket
  try dsimp only
  repeat' (first
    | with_reducible assumption
    | ((conv => arg 2; arg 33); with_reducible refine Kept.lit ?_ ?_ ?_) <;> [skip; rfl; exact ⟨rfl, rfl, rfl, rfl, rfl, rfl, rfl⟩]
    | with_reducible apply drew_kept
    | with_reducible apply clearLive_kept
    | with_reducible apply raiseLive_kept
    | with_reducible apply Kept.ite
    | dsimp only
    | split)

theorem wear_kept {z : State} (s : State) (n : Nat) (pslc : Bool) (hK : Kept z s) : Kept z (wear s n pslc) := by
  unfold wear
  try dsimp only
  repeat' (first
    | with_reducible assumption
    | ((conv => arg 2; arg 33); with_reducible refine Kept.lit ?_ ?_ ?_) <;> [skip; rfl; exact ⟨rfl, rfl, rfl, rfl, rfl, rfl, rfl⟩]
    | with_reducible apply judgeBucket_kept
    | with_reducible apply Kept.ite
    | dsimp only
    | split)

theorem putMeta_kept {z : State} (s : State) (kind idx commit : Nat) (l : List Byte) (hK : Kept z s) : Kept z (putMeta s kind idx commit l) := by
  unfold putMeta
  try dsimp only
  repeat' (first
    | with_reducible assumption
    | ((conv => arg 2; arg 33); with_reducible refine Kept.lit ?_ ?_ ?_) <;> [skip; rfl; exact ⟨rfl, rfl, rfl, rfl, rfl, rfl, rfl⟩]
    | with_reducible apply setSb_kept
    | with_reducible apply wear_kept
    | dsimp only
    | split)

theorem writeSeg_kept {z : State} (s : State) (seg : Nat) (hK : Kept z s) : Kept z (writeSeg s seg) := by
  unfold writeSeg
  try dsimp only
  repeat' (first
    | intro _ _ _
    | intro _ _
    | intro _
    | with_reducible assumption
    | ((conv => arg 2; arg 33); with_reducible refine Kept.lit ?_ ?_ ?_) <;> [skip; rfl; exact ⟨rfl, rfl, rfl, rfl, rfl, rfl, rfl⟩]
    | with_reducible apply putMeta_kept
    | with_reducible apply journal_kept
    | with_reducible apply Kept.foldl)

theorem trimJournal_kept {z : State} (s : State) (fuel : Nat) (hK : Kept z s) : Kept z (trimJournal s fuel) := by
  induction fuel generalizing  s with
  | zero => first | exact hK | (unfold trimJournal; exact hK)
  | succ fuel ih =>
  unfold trimJournal
  try dsimp only
  repeat' (first
    | with_reducible apply ih
    | with_reducible assumption
    | ((conv => arg 2; arg 33); with_reducible refine Kept.lit ?_ ?_ ?_) <;> [skip; rfl; exact ⟨rfl, rfl, rfl, rfl, rfl, rfl, rfl⟩]
    | with_reducible apply writeSeg_kept
    | with_reducible apply journal_kept
    | with_reducible apply Kept.ite
    | dsimp only
    | split)

theorem programJournal_kept {z : State} (s : State) (hK : Kept z s) : Kept z (programJournal s) := by
  unfold programJournal
  try dsimp only
  repeat' (first
    | intro _ _ _
    | intro _ _
    | intro _
    | with_reducible assumption
    | ((conv => arg 2; arg 33); with_reducible refine Kept.lit ?_ ?_ ?_) <;> [skip; rfl; exact ⟨rfl, rfl, rfl, rfl, rfl, rfl, rfl⟩]
    | with_reducible apply putMeta_kept
    | with_reducible apply trimJournal_kept
    | with_reducible apply journal_kept
    | with_reducible apply Kept.ite
    | with_reducible apply Kept.foldl
    | dsimp only
    | split)

theorem journal_kept {z : State} (s : State) (typ subject value : Nat) (hK : Kept z s) : Kept z (journal s typ subject value) := by
  unfold journal
  try dsimp only
  repeat' (first
    | with_reducible assumption
    | ((conv => arg 2; arg 33); with_reducible refine Kept.lit ?_ ?_ ?_) <;> [skip; rfl; exact ⟨rfl, rfl, rfl, rfl, rfl, rfl, rfl⟩]
    | with_reducible apply programJournal_kept
    | with_reducible apply Kept.ite
    | dsimp only
    | split)

theorem changeMap_kept {z : State} (s : State) (g : Nat) (e : MapEnt) (hK : Kept z s) : Kept z (changeMap s g e) := by
  unfold changeMap
  try dsimp only
  repeat' (first
    | with_reducible assumption
    | with_reducible apply setMap_kept
    | with_reducible apply journal_kept)

theorem journalRole_kept {z : State} (s : State) (b : Nat) (r : BlockRole) (hK : Kept z s) : Kept z (journalRole s b r) := by
  unfold journalRole
  try dsimp only
  repeat' (first
    | with_reducible assumption
    | with_reducible apply journal_kept)

theorem setRole_kept {z : State} (s : State) (k : Nat) (r : BlockRole) (hK : Kept z s) : Kept z (setRole s k r) := by
  unfold setRole
  try dsimp only
  repeat' (first
    | intro _ _ _
    | intro _ _
    | intro _
    | with_reducible assumption
    | ((conv => arg 2; arg 33); with_reducible refine Kept.lit ?_ ?_ ?_) <;> [skip; rfl; exact ⟨rfl, rfl, rfl, rfl, rfl, rfl, rfl⟩]
    | with_reducible apply setSb_kept
    | with_reducible apply journalRole_kept
    | with_reducible apply Kept.foldl)

theorem takeSealBlocks_kept {z : State} (s : State) (tk : Nat) (hK : Kept z s) : Kept z (takeSealBlocks s tk).1 := by
  unfold takeSealBlocks
  try dsimp only
  repeat' (first
    | with_reducible assumption
    | ((conv => arg 2; arg 33); with_reducible refine Kept.lit ?_ ?_ ?_) <;> [skip; rfl; exact ⟨rfl, rfl, rfl, rfl, rfl, rfl, rfl⟩]
    | with_reducible apply setBlock_kept
    | with_reducible apply journalRole_kept)
theorem takeSealBlocks_kept_eq {z : State} {s : State} {tk : Nat} {x : State} {r : _} (e : (takeSealBlocks s tk) = (x, r)) (hK : Kept z s) : Kept z x := by
  have := takeSealBlocks_kept s tk hK
  rw [e] at this
  exact this

theorem sealCopy_kept {z : State} (s : State) (l : SealLoc) (p : Page) (hK : Kept z s) : Kept z (sealCopy s l p).1 := by
  unfold sealCopy
  try dsimp only
  repeat' (first
    | intro _ _ _
    | intro _ _
    | intro _
    | with_reducible assumption
    | ((conv => arg 2; arg 33); with_reducible refine Kept.lit ?_ ?_ ?_) <;> [skip; rfl; exact ⟨rfl, rfl, rfl, rfl, rfl, rfl, rfl⟩]
    | with_reducible apply setBlock_kept
    | with_reducible apply journal_kept
    | with_reducible apply Kept.ite
    | dsimp only
    | split)
theorem sealCopy_kept_eq {z : State} {s : State} {l : SealLoc} {p : Page} {x : State} {r : _} (e : (sealCopy s l p) = (x, r)) (hK : Kept z s) : Kept z x := by
  have := sealCopy_kept s l p hK
  rw [e] at this
  exact this

theorem locatorWrite_kept {z : State} (s : State) (hK : Kept z s) : Kept z (locatorWrite s) := by
  unfold locatorWrite
  try dsimp only
  repeat' (first
    | with_reducible assumption
    | with_reducible apply pairWrite_kept)

theorem sealFailed_kept {z : State} (s : State) (i : Nat) (hK : Kept z s) : Kept z (sealFailed s i) := by
  unfold sealFailed
  try dsimp only
  repeat' (first
    | with_reducible assumption
    | ((conv => arg 2; arg 33); with_reducible refine Kept.lit ?_ ?_ ?_) <;> [skip; rfl; exact ⟨rfl, rfl, rfl, rfl, rfl, rfl, rfl⟩]
    | with_reducible apply logEvent_kept
    | with_reducible apply setBlock_kept
    | with_reducible apply journal_kept
    | with_reducible apply journalRole_kept
    | with_reducible apply locatorWrite_kept
    | with_reducible apply Kept.ite
    | dsimp only
    | split)

theorem placeSeal_kept {z : State} (s : State) (a : Seal) (addr : Option Nat) (hK : Kept z s) : Kept z (placeSeal s a addr) := by
  have h : ∀ p, Kept z (s.ftl.sealLocs.foldl (fun (x : State × List SealLoc) l =>
      ((sealCopy x.1 l p).1, x.2 ++ [(sealCopy x.1 l p).2])) (drew s, [])).1 :=
    fun p => Kept.foldlFst (fun y a hy => sealCopy_kept _ _ _ hy) (drew_kept _ hK)
  exact Kept.upd (h _) rfl rfl rfl rfl rfl rfl

/-! ### Embedded -/

theorem programOk_kept {z : State} (s : State) (o : NvmOp) (hK : Kept z s) : Kept z (programOk s o) := by
  unfold programOk
  try dsimp only
  repeat' (first
    | with_reducible assumption
    | ((conv => arg 2; arg 33); with_reducible refine Kept.lit ?_ ?_ ?_) <;> [skip; rfl; exact ⟨rfl, rfl, rfl, rfl, rfl, rfl, rfl⟩]
    | with_reducible apply bump_kept
    | with_reducible apply programUnits_kept
    | with_reducible apply storePair_kept
    | with_reducible apply endWith_kept
    | with_reducible apply endOk_kept
    | with_reducible apply nonceStored_kept
    | with_reducible apply fwStored_kept
    | with_reducible apply Kept.ite
    | dsimp only
    | split)

theorem programFail_kept {z : State} (s : State) (o : NvmOp) (hK : Kept z s) : Kept z (programFail s o) := by
  unfold programFail
  try dsimp only
  repeat' (first
    | intro _ _ _
    | intro _ _
    | intro _
    | with_reducible assumption
    | ((conv => arg 2; arg 33); with_reducible refine Kept.lit ?_ ?_ ?_) <;> [skip; rfl; exact ⟨rfl, rfl, rfl, rfl, rfl, rfl, rfl⟩]
    | with_reducible apply nvmPost_kept
    | with_reducible apply logPlace_kept
    | with_reducible refine logPlace_kept_eq (by assumption) ?_
    | with_reducible apply raiseOpen_kept
    | with_reducible apply endWith_kept
    | with_reducible apply Kept.foldl
    | dsimp only
    | split)

theorem eraseAllSectors_kept {z : State} (s : State) (hK : Kept z s) : Kept z (eraseAllSectors s) := by
  unfold eraseAllSectors
  try dsimp only
  repeat' (first
    | with_reducible assumption
    | ((conv => arg 2; arg 33); with_reducible refine Kept.lit ?_ ?_ ?_) <;> [skip; rfl; exact ⟨rfl, rfl, rfl, rfl, rfl, rfl, rfl⟩])

theorem lowerErase_kept {z : State} (s : State) (hK : Kept z s) : Kept z (lowerErase s) := by
  unfold lowerErase
  try dsimp only
  repeat' (first
    | intro _ _ _
    | intro _ _
    | intro _
    | with_reducible assumption
    | with_reducible apply nvmPost_kept
    | with_reducible apply eraseAllSectors_kept)

theorem lowered_kept {z : State} (s : State) (hK : Kept z s) : Kept z (lowered s) := by
  unfold lowered
  try dsimp only
  repeat' (first
    | with_reducible assumption
    | ((conv => arg 2; arg 33); with_reducible refine Kept.lit ?_ ?_ ?_) <;> [skip; rfl; exact ⟨rfl, rfl, rfl, rfl, rfl, rfl, rfl⟩]
    | with_reducible apply optionSet_kept)

theorem eraseEnd_kept {z : State} (s : State) (o : NvmOp) (hK : Kept z s) : Kept z (eraseEnd s o) := by
  unfold eraseEnd
  try dsimp only
  repeat' (first
    | intro _ _ _
    | intro _ _
    | intro _
    | with_reducible assumption
    | ((conv => arg 2; arg 33); with_reducible refine Kept.lit ?_ ?_ ?_) <;> [skip; rfl; exact ⟨rfl, rfl, rfl, rfl, rfl, rfl, rfl⟩]
    | with_reducible apply eraseUnits_kept
    | with_reducible apply endLogClear_kept
    | with_reducible apply endSlotErase_kept
    | with_reducible apply lowered_kept
    | with_reducible apply Kept.ite
    | dsimp only
    | split)

theorem sectorBlank_kept {z : State} (s : State) (o : NvmOp) (hK : Kept z s) : Kept z (sectorBlank s o) := by
  unfold sectorBlank
  try dsimp only
  repeat' (first
    | intro _ _ _
    | intro _ _
    | intro _
    | with_reducible assumption
    | ((conv => arg 2; arg 33); with_reducible refine Kept.lit ?_ ?_ ?_) <;> [skip; rfl; exact ⟨rfl, rfl, rfl, rfl, rfl, rfl, rfl⟩]
    | with_reducible apply Kept.foldl)

theorem rdpRefused_kept {z : State} (s : State) (target : Nat) (hK : Kept z s) : Kept z (rdpRefused s target) := by
  unfold rdpRefused
  try dsimp only
  repeat' (first
    | with_reducible assumption
    | with_reducible apply logEvent_kept)

theorem rdpLower_kept {z : State} (s : State) (hK : Kept z s) : Kept z (rdpLower s) := by
  unfold rdpLower
  try dsimp only
  repeat' (first
    | with_reducible assumption
    | ((conv => arg 2; arg 33); with_reducible refine Kept.lit ?_ ?_ ?_) <;> [skip; rfl; exact ⟨rfl, rfl, rfl, rfl, rfl, rfl, rfl⟩]
    | with_reducible apply optionSet_kept
    | with_reducible apply lowerErase_kept)

theorem rdpWrite_kept {z : State} (a : RegAcc) (v : Nat) (s : State) (hK : Kept z s) : Kept z (rdpWrite a v s) := by
  unfold rdpWrite
  try dsimp only
  repeat' (first
    | with_reducible assumption
    | ((conv => arg 2; arg 33); with_reducible refine Kept.lit ?_ ?_ ?_) <;> [skip; rfl; exact ⟨rfl, rfl, rfl, rfl, rfl, rfl, rfl⟩]
    | with_reducible apply optionWrite_kept
    | with_reducible apply rdpRefused_kept
    | with_reducible apply rdpLower_kept
    | with_reducible apply Kept.ite
    | dsimp only
    | split)

theorem releaseUnit_kept {z : State} (s : State) (g : LateGroup) (hK : Kept z s) : Kept z (releaseUnit s g) := by
  unfold releaseUnit
  try dsimp only
  repeat' (first
    | with_reducible assumption
    | with_reducible apply nvmPost_kept
    | with_reducible apply Kept.ite
    | dsimp only
    | split)

theorem freeLate_kept {z : State} (s : State) (slot : Nat) (hK : Kept z s) : Kept z (freeLate s slot) := by
  unfold freeLate
  try dsimp only
  repeat' (first
    | intro _ _ _
    | intro _ _
    | intro _
    | with_reducible assumption
    | ((conv => arg 2; arg 33); with_reducible refine Kept.lit ?_ ?_ ?_) <;> [skip; rfl; exact ⟨rfl, rfl, rfl, rfl, rfl, rfl, rfl⟩]
    | with_reducible apply nvmPost_kept
    | with_reducible apply Kept.ite
    | dsimp only
    | split)

theorem cmdLateStatusFetch_kept {z : State} (f : InFlight) (s : State) (hK : Kept z s) : Kept z (cmdLateStatusFetch f s) := by
  unfold cmdLateStatusFetch
  try dsimp only
  repeat' (first
    | intro _ _ _
    | intro _ _
    | intro _
    | with_reducible assumption
    | ((conv => arg 2; arg 33); with_reducible refine Kept.lit ?_ ?_ ?_) <;> [skip; rfl; exact ⟨rfl, rfl, rfl, rfl, rfl, rfl, rfl⟩]
    | with_reducible apply endOk_kept
    | with_reducible apply endOut_kept
    | with_reducible apply badParam_kept
    | with_reducible apply releaseUnit_kept
    | with_reducible apply freeLate_kept
    | with_reducible apply Kept.ite
    | dsimp only
    | split)

theorem cmdEcho_kept {z : State} (f : InFlight) (s : State) (hK : Kept z s) : Kept z (cmdEcho f s) := by
  unfold cmdEcho
  try dsimp only
  repeat' (first
    | with_reducible assumption
    | with_reducible apply endOk_kept)

theorem cmdIdentify_kept {z : State} (f : InFlight) (s : State) (hK : Kept z s) : Kept z (cmdIdentify f s) := by
  unfold cmdIdentify
  try dsimp only
  repeat' (first
    | with_reducible assumption
    | with_reducible apply endOk_kept)

theorem execNvmProgramDone_kept {z : State} (bank : Nat) (ok : Bool) (t : Nat) (s : State) (hK : Kept z s) {w0 : State} (eq0 : execNvmProgramDone bank ok t s = .next w0) : Kept z w0 := by
  unfold execNvmProgramDone at eq0
  try dsimp only at eq0
  refine Kept.of_next eq0 ?_
  repeat' (first
    | with_reducible assumption
    | ((conv => arg 2; arg 33); with_reducible refine Kept.lit ?_ ?_ ?_) <;> [skip; rfl; exact ⟨rfl, rfl, rfl, rfl, rfl, rfl, rfl⟩]
    | with_reducible apply tick_kept
    | with_reducible apply setBankOp_kept
    | with_reducible apply nvmKick_kept
    | with_reducible apply programOk_kept
    | with_reducible apply programFail_kept
    | with_reducible apply Kept.ite
    | dsimp only
    | split)

theorem execNvmEraseDone_kept {z : State} (bank t : Nat) (s : State) (hK : Kept z s) {w0 : State} (eq0 : execNvmEraseDone bank t s = .next w0) : Kept z w0 := by
  unfold execNvmEraseDone at eq0
  try dsimp only at eq0
  refine Kept.of_next eq0 ?_
  repeat' (first
    | with_reducible assumption
    | ((conv => arg 2; arg 33); with_reducible refine Kept.lit ?_ ?_ ?_) <;> [skip; rfl; exact ⟨rfl, rfl, rfl, rfl, rfl, rfl, rfl⟩]
    | with_reducible apply tick_kept
    | with_reducible apply setBankOp_kept
    | with_reducible apply nvmKick_kept
    | with_reducible apply eraseEnd_kept
    | with_reducible apply sectorBlank_kept
    | with_reducible apply Kept.ite
    | dsimp only
    | split)

theorem execNvmEraseResume_kept {z : State} (bank t : Nat) (s : State) (hK : Kept z s) {w0 : State} (eq0 : execNvmEraseResume bank t s = .next w0) : Kept z w0 := by
  unfold execNvmEraseResume at eq0
  try dsimp only at eq0
  refine Kept.of_next eq0 ?_
  repeat' (first
    | intro _ _ _
    | intro _ _
    | intro _
    | with_reducible assumption
    | ((conv => arg 2; arg 33); with_reducible refine Kept.lit ?_ ?_ ?_) <;> [skip; rfl; exact ⟨rfl, rfl, rfl, rfl, rfl, rfl, rfl⟩]
    | with_reducible apply tick_kept
    | with_reducible apply setBankOp_kept
    | with_reducible apply setBankSusp_kept
    | with_reducible apply Kept.ite
    | dsimp only
    | split)

theorem execRdpRaise_kept {z : State} (a : RegAcc) (v t : Nat) (s : State) (hK : Kept z s) {w0 : State} (eq0 : execRdpRaise a v t s = .next w0) : Kept z w0 := by
  unfold execRdpRaise at eq0
  try dsimp only at eq0
  refine Kept.of_next eq0 ?_
  repeat' (first
    | with_reducible assumption
    | with_reducible apply tick_kept
    | with_reducible apply rdpWrite_kept
    | with_reducible apply Kept.ite
    | dsimp only
    | split)

theorem execRdpLower_kept {z : State} (a : RegAcc) (v t : Nat) (s : State) (hK : Kept z s) {w0 : State} (eq0 : execRdpLower a v t s = .next w0) : Kept z w0 := by
  unfold execRdpLower at eq0
  try dsimp only at eq0
  refine Kept.of_next eq0 ?_
  repeat' (first
    | with_reducible assumption
    | with_reducible apply tick_kept
    | with_reducible apply rdpWrite_kept
    | with_reducible apply Kept.ite
    | dsimp only
    | split)

theorem execLateStatusFetch_kept {z : State} (c : TrellisCmd) (s : State) (hK : Kept z s) {w0 : State} (eq0 : execLateStatusFetch c s = .next w0) : Kept z w0 := by
  unfold execLateStatusFetch at eq0
  try dsimp only at eq0
  refine Kept.of_next eq0 ?_
  repeat' (first
    | intro _ _ _
    | intro _ _
    | intro _
    | with_reducible assumption
    | with_reducible apply submit_kept
    | with_reducible apply cmdLateStatusFetch_kept)

theorem execEcho_kept {z : State} (c : TrellisCmd) (s : State) (hK : Kept z s) {w0 : State} (eq0 : execEcho c s = .next w0) : Kept z w0 := by
  unfold execEcho at eq0
  try dsimp only at eq0
  refine Kept.of_next eq0 ?_
  repeat' (first
    | intro _ _ _
    | intro _ _
    | intro _
    | with_reducible assumption
    | with_reducible apply submit_kept
    | with_reducible apply cmdEcho_kept)

theorem execIdentify_kept {z : State} (c : TrellisCmd) (s : State) (hK : Kept z s) {w0 : State} (eq0 : execIdentify c s = .next w0) : Kept z w0 := by
  unfold execIdentify at eq0
  try dsimp only at eq0
  refine Kept.of_next eq0 ?_
  repeat' (first
    | intro _ _ _
    | intro _ _
    | intro _
    | with_reducible assumption
    | with_reducible apply submit_kept
    | with_reducible apply cmdIdentify_kept)

/-! ### Bus -/

theorem endSlaveCmd_kept {z : State} (s : State) (id outcome : Nat) (word : Nat) (hK : Kept z s) : Kept z (endSlaveCmd s id outcome word) := by
  unfold endSlaveCmd
  try dsimp only
  repeat' (first
    | with_reducible assumption
    | with_reducible apply finish_kept
    | with_reducible apply Kept.ite
    | dsimp only
    | split)

theorem twiFailed_kept {z : State} (s : State) (x : TwiTx) (outcome : Nat) (hK : Kept z s) : Kept z (twiFailed s x outcome) := by
  unfold twiFailed
  try dsimp only
  repeat' (first
    | with_reducible assumption
    | ((conv => arg 2; arg 33); with_reducible refine Kept.lit ?_ ?_ ?_) <;> [skip; rfl; exact ⟨rfl, rfl, rfl, rfl, rfl, rfl, rfl⟩]
    | with_reducible apply endSlaveCmd_kept
    | dsimp only
    | split)

theorem twiPost_kept {z : State} (s : State) (n : Nat) (x : TwiTx) (hK : Kept z s) : Kept z (twiPost s n x) := by
  unfold twiPost
  try dsimp only
  repeat' (first
    | with_reducible assumption
    | ((conv => arg 2; arg 33); with_reducible refine Kept.lit ?_ ?_ ?_) <;> [skip; rfl; exact ⟨rfl, rfl, rfl, rfl, rfl, rfl, rfl⟩]
    | with_reducible apply setTwi_kept
    | with_reducible apply twiKick_kept
    | with_reducible apply twiFailed_kept
    | with_reducible apply Kept.ite
    | dsimp only
    | split)

theorem twiOver_kept {z : State} (s : State) (n outcome : Nat) (hK : Kept z s) : Kept z (twiOver s n outcome) := by
  unfold twiOver
  try dsimp only
  repeat' (first
    | with_reducible assumption
    | ((conv => arg 2; arg 33); with_reducible refine Kept.lit ?_ ?_ ?_) <;> [skip; rfl; exact ⟨rfl, rfl, rfl, rfl, rfl, rfl, rfl⟩]
    | with_reducible apply setTwi_kept
    | with_reducible apply twiFailed_kept
    | with_reducible apply Kept.ite
    | dsimp only
    | split)

theorem fence_kept {z : State} (s : State) (n : Nat) (hK : Kept z s) : Kept z (fence s n) := by
  unfold fence
  try dsimp only
  repeat' (first
    | intro _ _ _
    | intro _ _
    | intro _
    | with_reducible assumption
    | ((conv => arg 2; arg 33); with_reducible refine Kept.lit ?_ ?_ ?_) <;> [skip; rfl; exact ⟨rfl, rfl, rfl, rfl, rfl, rfl, rfl⟩]
    | with_reducible apply setTwi_kept
    | with_reducible apply raiseLive_kept
    | with_reducible apply twiFailed_kept
    | with_reducible apply Kept.foldl)

theorem unfence_kept {z : State} (s : State) (n : Nat) (hK : Kept z s) : Kept z (unfence s n) := by
  unfold unfence
  try dsimp only
  repeat' (first
    | with_reducible assumption
    | ((conv => arg 2; arg 33); with_reducible refine Kept.lit ?_ ?_ ?_) <;> [skip; rfl; exact ⟨rfl, rfl, rfl, rfl, rfl, rfl, rfl⟩]
    | with_reducible apply bump_kept
    | with_reducible apply setTwi_kept
    | with_reducible apply twiKick_kept
    | with_reducible apply clearLive_kept
    | with_reducible apply Kept.ite
    | dsimp only
    | split)

theorem unfenceWrite_kept {z : State} (s : State) (n : Nat) (ok : Bool) (hK : Kept z s) : Kept z (unfenceWrite s n ok) := by
  unfold unfenceWrite
  try dsimp only
  repeat' (first
    | with_reducible assumption
    | with_reducible apply fence_kept
    | with_reducible apply unfence_kept
    | with_reducible apply Kept.ite
    | dsimp only
    | split)

theorem twiDone_kept {z : State} (s : State) (n : Nat) (x : TwiTx) (data : List Byte) (hK : Kept z s) : Kept z (twiDone s n x data) := by
  unfold twiDone
  try dsimp only
  repeat' (first
    | with_reducible assumption
    | ((conv => arg 2; arg 33); with_reducible refine Kept.lit ?_ ?_ ?_) <;> [skip; rfl; exact ⟨rfl, rfl, rfl, rfl, rfl, rfl, rfl⟩]
    | with_reducible apply endSlaveCmd_kept
    | with_reducible apply twiPost_kept
    | with_reducible apply Kept.ite
    | dsimp only
    | split)

theorem setAdc_kept {z : State} (s : State) (k : Nat) (x : Adc) (hK : Kept z s) : Kept z (setAdc s k x) := by
  unfold setAdc
  try dsimp only
  repeat' (first
    | with_reducible assumption
    | ((conv => arg 2; arg 33); with_reducible refine Kept.lit ?_ ?_ ?_) <;> [skip; rfl; exact ⟨rfl, rfl, rfl, rfl, rfl, rfl, rfl⟩]
    | with_reducible apply Kept.ite
    | dsimp only
    | split)

theorem adcBegin_kept {z : State} (s : State) (k : Nat) (hK : Kept z s) : Kept z (adcBegin s k) := by
  unfold adcBegin
  try dsimp only
  repeat' (first
    | with_reducible assumption
    | ((conv => arg 2; arg 33); with_reducible refine Kept.lit ?_ ?_ ?_) <;> [skip; rfl; exact ⟨rfl, rfl, rfl, rfl, rfl, rfl, rfl⟩]
    | with_reducible apply setAdc_kept
    | with_reducible apply Kept.ite
    | dsimp only
    | split)

theorem adcCtrlWritten_kept {z : State} (s : State) (k v : Nat) (hK : Kept z s) : Kept z (adcCtrlWritten s k v) := by
  unfold adcCtrlWritten
  try dsimp only
  repeat' (first
    | with_reducible assumption
    | ((conv => arg 2; arg 33); with_reducible refine Kept.lit ?_ ?_ ?_) <;> [skip; rfl; exact ⟨rfl, rfl, rfl, rfl, rfl, rfl, rfl⟩]
    | with_reducible apply setAdc_kept
    | with_reducible apply adcBegin_kept
    | with_reducible apply Kept.ite
    | dsimp only
    | split)

theorem adcRunEnd_kept {z : State} (s : State) (k : Nat) (hK : Kept z s) : Kept z (adcRunEnd s k) := by
  unfold adcRunEnd
  try dsimp only
  repeat' (first
    | with_reducible assumption
    | ((conv => arg 2; arg 33); with_reducible refine Kept.lit ?_ ?_ ?_) <;> [skip; rfl; exact ⟨rfl, rfl, rfl, rfl, rfl, rfl, rfl⟩]
    | with_reducible apply setAdc_kept
    | with_reducible apply adcBegin_kept
    | with_reducible apply Kept.ite
    | dsimp only
    | split)

theorem adcPop_kept {z : State} (s : State) (hK : Kept z s) : Kept z (adcPop s).1 := by
  unfold adcPop
  try dsimp only
  repeat' (first
    | with_reducible assumption
    | ((conv => arg 2; arg 33); with_reducible refine Kept.lit ?_ ?_ ?_) <;> [skip; rfl; exact ⟨rfl, rfl, rfl, rfl, rfl, rfl, rfl⟩]
    | dsimp only
    | split)
theorem adcPop_kept_eq {z : State} {s : State} {x : State} {r : _} (e : (adcPop s) = (x, r)) (hK : Kept z s) : Kept z x := by
  have := adcPop_kept s hK
  rw [e] at this
  exact this

theorem execTwiTransactionDone_kept {z : State} (n : Nat) (r : TwiEnd) (data : List Byte) (t : Nat) (s : State) (hK : Kept z s) {w0 : State} (eq0 : execTwiTransactionDone n r data t s = .next w0) : Kept z w0 := by
  unfold execTwiTransactionDone at eq0
  try dsimp only at eq0
  refine Kept.of_next eq0 ?_
  repeat' (first
    | with_reducible assumption
    | ((conv => arg 2; arg 33); with_reducible refine Kept.lit ?_ ?_ ?_) <;> [skip; rfl; exact ⟨rfl, rfl, rfl, rfl, rfl, rfl, rfl⟩]
    | with_reducible apply tick_kept
    | with_reducible apply bump_kept
    | with_reducible apply setTwi_kept
    | with_reducible apply twiKick_kept
    | with_reducible apply twiOver_kept
    | with_reducible apply twiDone_kept
    | with_reducible apply Kept.ite
    | dsimp only
    | split)

theorem execTwiRetry_kept {z : State} (n t : Nat) (s : State) (hK : Kept z s) {w0 : State} (eq0 : execTwiRetry n t s = .next w0) : Kept z w0 := by
  unfold execTwiRetry at eq0
  try dsimp only at eq0
  refine Kept.of_next eq0 ?_
  repeat' (first
    | with_reducible assumption
    | ((conv => arg 2; arg 33); with_reducible refine Kept.lit ?_ ?_ ?_) <;> [skip; rfl; exact ⟨rfl, rfl, rfl, rfl, rfl, rfl, rfl⟩]
    | with_reducible apply emit_kept
    | with_reducible apply tick_kept
    | with_reducible apply setTwi_kept
    | with_reducible apply Kept.ite
    | dsimp only
    | split)

theorem execArbitrationLost_kept {z : State} (n t : Nat) (s : State) (hK : Kept z s) {w0 : State} (eq0 : execArbitrationLost n t s = .next w0) : Kept z w0 := by
  unfold execArbitrationLost at eq0
  try dsimp only at eq0
  refine Kept.of_next eq0 ?_
  repeat' (first
    | with_reducible assumption
    | ((conv => arg 2; arg 33); with_reducible refine Kept.lit ?_ ?_ ?_) <;> [skip; rfl; exact ⟨rfl, rfl, rfl, rfl, rfl, rfl, rfl⟩]
    | with_reducible apply emit_kept
    | with_reducible apply tick_kept
    | with_reducible apply bump_kept
    | with_reducible apply setTwi_kept
    | with_reducible apply twiKick_kept
    | with_reducible apply twiOver_kept
    | with_reducible apply Kept.ite
    | dsimp only
    | split)

theorem execClockLowTimeout_kept {z : State} (n : Nat) (still : Bool) (t : Nat) (s : State) (hK : Kept z s) {w0 : State} (eq0 : execClockLowTimeout n still t s = .next w0) : Kept z w0 := by
  unfold execClockLowTimeout at eq0
  try dsimp only at eq0
  refine Kept.of_next eq0 ?_
  repeat' (first
    | with_reducible assumption
    | ((conv => arg 2; arg 33); with_reducible refine Kept.lit ?_ ?_ ?_) <;> [skip; rfl; exact ⟨rfl, rfl, rfl, rfl, rfl, rfl, rfl⟩]
    | with_reducible apply tick_kept
    | with_reducible apply bump_kept
    | with_reducible apply setTwi_kept
    | with_reducible apply twiKick_kept
    | with_reducible apply twiOver_kept
    | with_reducible apply fence_kept
    | with_reducible apply Kept.ite
    | dsimp only
    | split)

theorem execBusClear_kept {z : State} (n : Nat) (ok : Bool) (t : Nat) (s : State) (hK : Kept z s) {w0 : State} (eq0 : execBusClear n ok t s = .next w0) : Kept z w0 := by
  unfold execBusClear at eq0
  try dsimp only at eq0
  refine Kept.of_next eq0 ?_
  repeat' (first
    | with_reducible assumption
    | ((conv => arg 2; arg 33); with_reducible refine Kept.lit ?_ ?_ ?_) <;> [skip; rfl; exact ⟨rfl, rfl, rfl, rfl, rfl, rfl, rfl⟩]
    | with_reducible apply tick_kept
    | with_reducible apply bump_kept
    | with_reducible apply setTwi_kept
    | with_reducible apply twiKick_kept
    | with_reducible apply fence_kept
    | with_reducible apply Kept.ite
    | dsimp only
    | split)

theorem execPmbusPoll_kept {z : State} (e : Nat) (words : List Nat) (ok : Bool) (t : Nat) (s : State) (hK : Kept z s) {w0 : State} (eq0 : execPmbusPoll e words ok t s = .next w0) : Kept z w0 := by
  unfold execPmbusPoll at eq0
  try dsimp only at eq0
  refine Kept.of_next eq0 ?_
  repeat' (first
    | with_reducible assumption
    | ((conv => arg 2; arg 33); with_reducible refine Kept.lit ?_ ?_ ?_) <;> [skip; rfl; exact ⟨rfl, rfl, rfl, rfl, rfl, rfl, rfl⟩]
    | with_reducible apply tick_kept
    | with_reducible apply Kept.ite
    | dsimp only
    | split)

theorem execAdcTimerTrigger_kept {z : State} (k t : Nat) (s : State) (hK : Kept z s) {w0 : State} (eq0 : execAdcTimerTrigger k t s = .next w0) : Kept z w0 := by
  unfold execAdcTimerTrigger at eq0
  try dsimp only at eq0
  refine Kept.of_next eq0 ?_
  repeat' (first
    | intro _ _ _
    | intro _ _
    | intro _
    | with_reducible assumption
    | ((conv => arg 2; arg 33); with_reducible refine Kept.lit ?_ ?_ ?_) <;> [skip; rfl; exact ⟨rfl, rfl, rfl, rfl, rfl, rfl, rfl⟩]
    | with_reducible apply tick_kept
    | with_reducible apply bump_kept
    | with_reducible apply setAdc_kept
    | with_reducible apply adcBegin_kept
    | with_reducible apply Kept.ite
    | dsimp only
    | split)

theorem execAdcConversionDone_kept {z : State} (k : Nat) (uv : Int) (t : Nat) (s : State) (hK : Kept z s) {w0 : State} (eq0 : execAdcConversionDone k uv t s = .next w0) : Kept z w0 := by
  unfold execAdcConversionDone at eq0
  try dsimp only at eq0
  refine Kept.of_next eq0 ?_
  repeat' (first
    | with_reducible assumption
    | ((conv => arg 2; arg 33); with_reducible refine Kept.lit ?_ ?_ ?_) <;> [skip; rfl; exact ⟨rfl, rfl, rfl, rfl, rfl, rfl, rfl⟩]
    | with_reducible apply tick_kept
    | with_reducible apply setAdc_kept
    | with_reducible apply adcRunEnd_kept
    | with_reducible apply Kept.ite
    | dsimp only
    | split)

/-! ### Rails -/

theorem endPower_kept {z : State} (s : State) (id status detail : Nat) (hK : Kept z s) : Kept z (endPower s id status detail) := by
  unfold endPower
  try dsimp only
  repeat' (first
    | with_reducible assumption
    | with_reducible apply finish_kept)

theorem endOffCmds_kept {z : State} (s : State) (hK : Kept z s) : Kept z (endOffCmds s) := by
  unfold endOffCmds
  try dsimp only
  repeat' (first
    | intro _ _ _
    | intro _ _
    | intro _
    | with_reducible assumption
    | ((conv => arg 2; arg 33); with_reducible refine Kept.lit ?_ ?_ ?_) <;> [skip; rfl; exact ⟨rfl, rfl, rfl, rfl, rfl, rfl, rfl⟩]
    | with_reducible apply finishNow_kept
    | with_reducible apply Kept.foldl
    | dsimp only
    | split)

theorem toRailsDown_kept {z : State} (s : State) (c : Cause) (hK : Kept z s) : Kept z (toRailsDown s c) := by
  unfold toRailsDown
  try dsimp only
  repeat' (first
    | with_reducible assumption
    | with_reducible apply enterRailsDown_kept
    | with_reducible apply settle_kept
    | with_reducible apply endOffCmds_kept)

theorem enableSlot_kept {z : State} (s : State) (n : Nat) (hK : Kept z s) : Kept z (enableSlot s n) := by
  unfold enableSlot
  try dsimp only
  repeat' (first
    | with_reducible assumption
    | ((conv => arg 2; arg 33); with_reducible refine Kept.lit ?_ ?_ ?_) <;> [skip; rfl; exact ⟨rfl, rfl, rfl, rfl, rfl, rfl, rfl⟩]
    | with_reducible apply slaveStep_kept
    | with_reducible apply Kept.ite
    | dsimp only
    | split)

theorem markGood_kept {z : State} (s : State) (n : Nat) (hK : Kept z s) : Kept z (markGood s n) := by
  unfold markGood
  try dsimp only
  repeat' (first
    | with_reducible assumption
    | ((conv => arg 2; arg 33); with_reducible refine Kept.lit ?_ ?_ ?_) <;> [skip; rfl; exact ⟨rfl, rfl, rfl, rfl, rfl, rfl, rfl⟩])

theorem enterTraining_kept {z : State} (s : State) (hK : Kept z s) : Kept z (enterTraining s) := by
  unfold enterTraining
  try dsimp only
  repeat' (first
    | intro _ _ _
    | intro _ _
    | intro _
    | with_reducible assumption
    | ((conv => arg 2; arg 33); with_reducible refine Kept.lit ?_ ?_ ?_) <;> [skip; rfl; exact ⟨rfl, rfl, rfl, rfl, rfl, rfl, rfl⟩]
    | with_reducible apply setDev_kept
    | with_reducible apply Kept.ite
    | with_reducible apply Kept.foldl
    | dsimp only
    | split)

theorem railsStep_kept {z : State} (s : State) (hK : Kept z s) : Kept z (railsStep s) := by
  unfold railsStep
  try dsimp only
  repeat' (first
    | with_reducible assumption
    | ((conv => arg 2; arg 33); with_reducible refine Kept.lit ?_ ?_ ?_) <;> [skip; rfl; exact ⟨rfl, rfl, rfl, rfl, rfl, rfl, rfl⟩]
    | with_reducible apply toRailsDown_kept
    | with_reducible apply enterTraining_kept
    | with_reducible apply Kept.ite
    | dsimp only
    | split)

theorem enterRailsUp_kept {z : State} (s : State) (hK : Kept z s) : Kept z (enterRailsUp s) := by
  unfold enterRailsUp
  try dsimp only
  repeat' (first
    | intro _ _ _
    | intro _ _
    | intro _
    | with_reducible assumption
    | ((conv => arg 2; arg 33); with_reducible refine Kept.lit ?_ ?_ ?_) <;> [skip; rfl; exact ⟨rfl, rfl, rfl, rfl, rfl, rfl, rfl⟩]
    | with_reducible apply setDev_kept
    | with_reducible apply railsStep_kept
    | with_reducible apply Kept.foldl)

theorem setDomain_kept {z : State} (s : State) (d v : Nat) (hK : Kept z s) : Kept z (setDomain s d v) := by
  unfold setDomain
  try dsimp only
  repeat' (first
    | with_reducible assumption
    | ((conv => arg 2; arg 33); with_reducible refine Kept.lit ?_ ?_ ?_) <;> [skip; rfl; exact ⟨rfl, rfl, rfl, rfl, rfl, rfl, rfl⟩])

theorem startSwitch_kept {z : State} (s : State) (d : Nat) (on : Bool) (cmds : List Nat) (hK : Kept z s) : Kept z (startSwitch s d on cmds) := by
  unfold startSwitch
  try dsimp only
  repeat' (first
    | with_reducible assumption
    | ((conv => arg 2; arg 33); with_reducible refine Kept.lit ?_ ?_ ?_) <;> [skip; rfl; exact ⟨rfl, rfl, rfl, rfl, rfl, rfl, rfl⟩]
    | with_reducible apply disableSlot_kept
    | with_reducible apply setDomain_kept
    | with_reducible apply Kept.ite
    | dsimp only
    | split)

theorem switchStep_kept {z : State} (s : State) (hK : Kept z s) : Kept z (switchStep s) := by
  unfold switchStep
  try dsimp only
  repeat' (first
    | intro _ _ _
    | intro _ _
    | intro _
    | with_reducible assumption
    | ((conv => arg 2; arg 33); with_reducible refine Kept.lit ?_ ?_ ?_) <;> [skip; rfl; exact ⟨rfl, rfl, rfl, rfl, rfl, rfl, rfl⟩]
    | with_reducible apply endPower_kept
    | with_reducible apply setDomain_kept
    | with_reducible apply startSwitch_kept
    | with_reducible apply Kept.ite
    | with_reducible apply Kept.foldl
    | dsimp only
    | split)

theorem askDomain_kept {z : State} (s : State) (d : Nat) (on : Bool) (id : Nat) (hK : Kept z s) : Kept z (askDomain s d on id) := by
  unfold askDomain
  try dsimp only
  repeat' (first
    | intro _ _ _
    | intro _ _
    | intro _
    | with_reducible assumption
    | ((conv => arg 2; arg 33); with_reducible refine Kept.lit ?_ ?_ ?_) <;> [skip; rfl; exact ⟨rfl, rfl, rfl, rfl, rfl, rfl, rfl⟩]
    | with_reducible apply endPower_kept
    | with_reducible apply startSwitch_kept
    | with_reducible apply switchStep_kept
    | with_reducible apply Kept.ite
    | with_reducible apply Kept.foldl
    | dsimp only
    | split)

theorem domainFail_kept {z : State} (s : State) (w : DomSw) (hK : Kept z s) : Kept z (domainFail s w) := by
  unfold domainFail
  try dsimp only
  repeat' (first
    | intro _ _ _
    | intro _ _
    | intro _
    | with_reducible assumption
    | with_reducible apply disableSlot_kept
    | with_reducible apply raiseOpen_kept
    | with_reducible apply endPower_kept
    | with_reducible apply startSwitch_kept
    | with_reducible apply switchStep_kept
    | with_reducible apply Kept.foldl)

theorem noteFault_kept {z : State} (s : State) (kind slot code : Nat) (scan : Bool) (hK : Kept z s) : Kept z (noteFault s kind slot code scan) := by
  unfold noteFault
  try dsimp only
  repeat' (first
    | with_reducible assumption
    | ((conv => arg 2; arg 33); with_reducible refine Kept.lit ?_ ?_ ?_) <;> [skip; rfl; exact ⟨rfl, rfl, rfl, rfl, rfl, rfl, rfl⟩]
    | with_reducible apply Kept.ite
    | dsimp only
    | split)

theorem raiseCause_kept {z : State} (s : State) (n : Nat) (c : Cause) (hK : Kept z s) : Kept z (raiseCause s n c) := by
  unfold raiseCause
  try dsimp only
  repeat' (first
    | with_reducible assumption
    | with_reducible apply drew_kept
    | with_reducible apply raiseAs_kept)

theorem afterOff_kept {z : State} (s : State) (hK : Kept z s) : Kept z (afterOff s) := by
  unfold afterOff
  try dsimp only
  repeat' (first
    | with_reducible assumption
    | ((conv => arg 2; arg 33); with_reducible refine Kept.lit ?_ ?_ ?_) <;> [skip; rfl; exact ⟨rfl, rfl, rfl, rfl, rfl, rfl, rfl⟩]
    | with_reducible apply nextStage_kept
    | with_reducible apply endRails_kept
    | with_reducible apply settle_kept
    | with_reducible apply switchStep_kept
    | with_reducible apply Kept.ite
    | dsimp only
    | split)

theorem slotIsOff_kept {z : State} (s : State) (n : Nat) (hK : Kept z s) : Kept z (slotIsOff s n) := by
  unfold slotIsOff
  try dsimp only
  repeat' (first
    | with_reducible assumption
    | ((conv => arg 2; arg 33); with_reducible refine Kept.lit ?_ ?_ ?_) <;> [skip; rfl; exact ⟨rfl, rfl, rfl, rfl, rfl, rfl, rfl⟩])

theorem harvestLost_kept {z : State} (s : State) (hK : Kept z s) : Kept z (harvestLost s) := by
  unfold harvestLost
  try dsimp only
  repeat' (first
    | with_reducible assumption
    | ((conv => arg 2; arg 33); with_reducible refine Kept.lit ?_ ?_ ?_) <;> [skip; rfl; exact ⟨rfl, rfl, rfl, rfl, rfl, rfl, rfl⟩]
    | with_reducible apply writeLoss_kept
    | with_reducible apply toRailsDown_kept)

theorem railFault_kept {z : State} (s : State) (n kind code : Nat) (hK : Kept z s) : Kept z (railFault s n kind code) := by
  unfold railFault
  try dsimp only
  repeat' (first
    | intro _ _ _
    | intro _ _
    | intro _
    | with_reducible assumption
    | ((conv => arg 2; arg 33); with_reducible refine Kept.lit ?_ ?_ ?_) <;> [skip; rfl; exact ⟨rfl, rfl, rfl, rfl, rfl, rfl, rfl⟩]
    | with_reducible apply logEvent_kept
    | with_reducible apply releasePriv_kept
    | with_reducible apply disableSlot_kept
    | with_reducible apply noteWon_kept
    | with_reducible apply noteFault_kept
    | with_reducible apply raiseCause_kept
    | with_reducible apply afterOff_kept
    | with_reducible apply harvestLost_kept
    | with_reducible apply Kept.ite
    | with_reducible apply Kept.foldl
    | dsimp only
    | split)

theorem heldExcursion_kept {z : State} (s : State) (n : Nat) (hK : Kept z s) : Kept z (heldExcursion s n) := by
  unfold heldExcursion
  try dsimp only
  repeat' (first
    | intro _ _ _
    | intro _ _
    | intro _
    | with_reducible assumption
    | ((conv => arg 2; arg 33); with_reducible refine Kept.lit ?_ ?_ ?_) <;> [skip; rfl; exact ⟨rfl, rfl, rfl, rfl, rfl, rfl, rfl⟩]
    | with_reducible apply Kept.ite
    | dsimp only
    | split)

theorem scanSlot_kept {z : State} (s : State) (n code : Nat) (hK : Kept z s) : Kept z (scanSlot s n code) := by
  unfold scanSlot
  try dsimp only
  repeat' (first
    | with_reducible assumption
    | ((conv => arg 2; arg 33); with_reducible refine Kept.lit ?_ ?_ ?_) <;> [skip; rfl; exact ⟨rfl, rfl, rfl, rfl, rfl, rfl, rfl⟩]
    | with_reducible apply railFault_kept
    | with_reducible apply heldExcursion_kept
    | with_reducible apply Kept.ite
    | dsimp only
    | split)

theorem cmdSlaveSeqCmd_kept {z : State} (f : InFlight) (s : State) (hK : Kept z s) : Kept z (cmdSlaveSeqCmd f s) := by
  unfold cmdSlaveSeqCmd
  try dsimp only
  repeat' (first
    | with_reducible assumption
    | with_reducible apply endWith_kept
    | with_reducible apply badParam_kept
    | with_reducible apply setJob_kept
    | with_reducible apply twiPost_kept
    | with_reducible apply Kept.ite
    | dsimp only
    | split)

theorem hostStep_kept {z : State} (s : State) (issuer v : Nat) (hK : Kept z s) : Kept z (hostStep s issuer v) := by
  unfold hostStep
  try dsimp only
  repeat' (first
    | intro _ _ _
    | intro _ _
    | intro _
    | with_reducible assumption
    | ((conv => arg 2; arg 33); with_reducible refine Kept.lit ?_ ?_ ?_) <;> [skip; rfl; exact ⟨rfl, rfl, rfl, rfl, rfl, rfl, rfl⟩]
    | with_reducible apply setFld_kept
    | with_reducible apply assistInput_kept
    | with_reducible apply Kept.ite
    | with_reducible apply Kept.foldl
    | dsimp only
    | split)

theorem loadRailTable_kept {z : State} (s : State) (tb : RailTable) (hK : Kept z s) : Kept z (loadRailTable s tb) := by
  unfold loadRailTable
  try dsimp only
  repeat' (first
    | intro _ _ _
    | intro _ _
    | intro _
    | with_reducible assumption
    | ((conv => arg 2; arg 33); with_reducible refine Kept.lit ?_ ?_ ?_) <;> [skip; rfl; exact ⟨rfl, rfl, rfl, rfl, rfl, rfl, rfl⟩]
    | with_reducible apply pairWrite_kept
    | with_reducible apply railsStep_kept
    | with_reducible apply Kept.ite
    | dsimp only
    | split)

theorem railTableLoad_kept {z : State} (k : InFlight → List Byte → State → State) (f : InFlight) (s : State) (hE : ∀ a0 a1 x, Kept z x → Kept z (k a0 a1 x)) (hK : Kept z s) : Kept z (railTableLoad k f s) := by
  unfold railTableLoad
  try dsimp only
  repeat' (first
    | with_reducible apply hE
    | intro _ _ _
    | intro _ _
    | intro _
    | with_reducible assumption
    | ((conv => arg 2; arg 33); with_reducible refine Kept.lit ?_ ?_ ?_) <;> [skip; rfl; exact ⟨rfl, rfl, rfl, rfl, rfl, rfl, rfl⟩]
    | with_reducible apply finish_kept
    | with_reducible apply endWith_kept
    | with_reducible apply endOk_kept
    | with_reducible apply loadRailTable_kept
    | with_reducible apply Kept.ite
    | dsimp only
    | split)

theorem execSlotEnable_kept {z : State} (n t : Nat) (s : State) (hK : Kept z s) {w0 : State} (eq0 : execSlotEnable n t s = .next w0) : Kept z w0 := by
  unfold execSlotEnable at eq0
  try dsimp only at eq0
  refine Kept.of_next eq0 ?_
  repeat' (first
    | with_reducible assumption
    | ((conv => arg 2; arg 33); with_reducible refine Kept.lit ?_ ?_ ?_) <;> [skip; rfl; exact ⟨rfl, rfl, rfl, rfl, rfl, rfl, rfl⟩]
    | with_reducible apply tick_kept
    | with_reducible apply enableSlot_kept
    | with_reducible apply Kept.ite
    | dsimp only
    | split)

theorem execSlotGood_kept {z : State} (n t : Nat) (s : State) (hK : Kept z s) {w0 : State} (eq0 : execSlotGood n t s = .next w0) : Kept z w0 := by
  unfold execSlotGood at eq0
  try dsimp only at eq0
  refine Kept.of_next eq0 ?_
  repeat' (first
    | intro _ _ _
    | intro _ _
    | intro _
    | with_reducible assumption
    | with_reducible apply tick_kept
    | with_reducible apply markGood_kept
    | with_reducible apply railsStep_kept
    | with_reducible apply setDomain_kept
    | with_reducible apply switchStep_kept
    | with_reducible apply Kept.ite
    | dsimp only
    | split)

theorem execRailRamp_kept {z : State} (n t : Nat) (s : State) (hK : Kept z s) {w0 : State} (eq0 : execRailRamp n t s = .next w0) : Kept z w0 := by
  unfold execRailRamp at eq0
  try dsimp only at eq0
  refine Kept.of_next eq0 ?_
  repeat' (first
    | intro _ _ _
    | intro _ _
    | intro _
    | with_reducible assumption
    | ((conv => arg 2; arg 33); with_reducible refine Kept.lit ?_ ?_ ?_) <;> [skip; rfl; exact ⟨rfl, rfl, rfl, rfl, rfl, rfl, rfl⟩]
    | with_reducible apply tick_kept
    | with_reducible apply enterHarvesting_kept
    | with_reducible apply notice_kept
    | with_reducible apply domainFail_kept
    | with_reducible apply noteFault_kept
    | with_reducible apply raiseCause_kept
    | with_reducible apply Kept.ite
    | dsimp only
    | split)

theorem execSlotDisable_kept {z : State} (n t : Nat) (s : State) (hK : Kept z s) {w0 : State} (eq0 : execSlotDisable n t s = .next w0) : Kept z w0 := by
  unfold execSlotDisable at eq0
  try dsimp only at eq0
  refine Kept.of_next eq0 ?_
  repeat' (first
    | with_reducible assumption
    | with_reducible apply tick_kept
    | with_reducible apply disableSlot_kept
    | with_reducible apply afterOff_kept
    | with_reducible apply Kept.ite
    | dsimp only
    | split)

theorem execSlotOff_kept {z : State} (n t : Nat) (s : State) (hK : Kept z s) {w0 : State} (eq0 : execSlotOff n t s = .next w0) : Kept z w0 := by
  unfold execSlotOff at eq0
  try dsimp only at eq0
  refine Kept.of_next eq0 ?_
  repeat' (first
    | with_reducible assumption
    | with_reducible apply tick_kept
    | with_reducible apply afterOff_kept
    | with_reducible apply slotIsOff_kept
    | with_reducible apply Kept.ite
    | dsimp only
    | split)

theorem execRailSlowOff_kept {z : State} (n t : Nat) (s : State) (hK : Kept z s) {w0 : State} (eq0 : execRailSlowOff n t s = .next w0) : Kept z w0 := by
  unfold execRailSlowOff at eq0
  try dsimp only at eq0
  refine Kept.of_next eq0 ?_
  repeat' (first
    | with_reducible assumption
    | with_reducible apply tick_kept
    | with_reducible apply raiseOpen_kept
    | with_reducible apply afterOff_kept
    | with_reducible apply slotIsOff_kept
    | with_reducible apply Kept.ite
    | dsimp only
    | split)

theorem execRailFault_kept {z : State} (n : Nat) (overV : Bool) (code t : Nat) (s : State) (hK : Kept z s) {w0 : State} (eq0 : execRailFault n overV code t s = .next w0) : Kept z w0 := by
  unfold execRailFault at eq0
  try dsimp only at eq0
  refine Kept.of_next eq0 ?_
  repeat' (first
    | with_reducible assumption
    | with_reducible apply tick_kept
    | with_reducible apply noteWon_kept
    | with_reducible apply railFault_kept
    | with_reducible apply Kept.ite
    | dsimp only
    | split)

theorem execRailScanPass_kept {z : State} (codes : List Nat) (t : Nat) (s : State) (hK : Kept z s) {w0 : State} (eq0 : execRailScanPass codes t s = .next w0) : Kept z w0 := by
  unfold execRailScanPass at eq0
  try dsimp only at eq0
  refine Kept.of_next eq0 ?_
  repeat' (first
    | intro _ _ _
    | intro _ _
    | intro _
    | with_reducible assumption
    | ((conv => arg 2; arg 33); with_reducible refine Kept.lit ?_ ?_ ?_) <;> [skip; rfl; exact ⟨rfl, rfl, rfl, rfl, rfl, rfl, rfl⟩]
    | with_reducible apply tick_kept
    | with_reducible apply scanSlot_kept
    | with_reducible apply Kept.ite
    | with_reducible apply Kept.foldl
    | dsimp only
    | split)

theorem execHeldRailExcursion_kept {z : State} (n t : Nat) (s : State) (hK : Kept z s) {w0 : State} (eq0 : execHeldRailExcursion n t s = .next w0) : Kept z w0 := by
  unfold execHeldRailExcursion at eq0
  try dsimp only at eq0
  refine Kept.of_next eq0 ?_
  repeat' (first
    | with_reducible assumption
    | with_reducible apply tick_kept
    | with_reducible apply heldExcursion_kept)

theorem execDrstSeen_kept {z : State} (c t : Nat) (s : State) (hK : Kept z s) {w0 : State} (eq0 : execDrstSeen c t s = .next w0) : Kept z w0 := by
  unfold execDrstSeen at eq0
  try dsimp only at eq0
  refine Kept.of_next eq0 ?_
  repeat' (first
    | intro _ _ _
    | intro _ _
    | intro _
    | with_reducible assumption
    | ((conv => arg 2; arg 33); with_reducible refine Kept.lit ?_ ?_ ?_) <;> [skip; rfl; exact ⟨rfl, rfl, rfl, rfl, rfl, rfl, rfl⟩]
    | with_reducible apply tick_kept
    | with_reducible apply Kept.ite
    | dsimp only
    | split)

theorem execSlaveStatusPoll_kept {z : State} (slave word : Nat) (ok : Bool) (t : Nat) (s : State) (hK : Kept z s) {w0 : State} (eq0 : execSlaveStatusPoll slave word ok t s = .next w0) : Kept z w0 := by
  unfold execSlaveStatusPoll at eq0
  try dsimp only at eq0
  refine Kept.of_next eq0 ?_
  repeat' (first
    | intro _ _ _
    | intro _ _
    | intro _
    | with_reducible assumption
    | ((conv => arg 2; arg 33); with_reducible refine Kept.lit ?_ ?_ ?_) <;> [skip; rfl; exact ⟨rfl, rfl, rfl, rfl, rfl, rfl, rfl⟩]
    | with_reducible apply tick_kept
    | with_reducible apply raiseOpen_kept
    | with_reducible apply railFault_kept
    | with_reducible apply Kept.ite
    | with_reducible apply Kept.foldl
    | dsimp only
    | split)

theorem execSlaveSeqCmd_kept {z : State} (c : TrellisCmd) (s : State) (hK : Kept z s) {w0 : State} (eq0 : execSlaveSeqCmd c s = .next w0) : Kept z w0 := by
  unfold execSlaveSeqCmd at eq0
  try dsimp only at eq0
  refine Kept.of_next eq0 ?_
  repeat' (first
    | intro _ _ _
    | intro _ _
    | intro _
    | with_reducible assumption
    | with_reducible apply submit_kept
    | with_reducible apply cmdSlaveSeqCmd_kept)

/-! ### Power -/

theorem eraseCut_kept {z : State} (s : State) (o : NvmOp) (hK : Kept z s) : Kept z (eraseCut s o) := by
  unfold eraseCut
  try dsimp only
  repeat' (first
    | intro _ _ _
    | intro _ _
    | intro _
    | with_reducible assumption
    | ((conv => arg 2; arg 33); with_reducible refine Kept.lit ?_ ?_ ?_) <;> [skip; rfl; exact ⟨rfl, rfl, rfl, rfl, rfl, rfl, rfl⟩]
    | with_reducible apply Kept.ite
    | with_reducible apply Kept.foldl
    | dsimp only
    | split)

theorem cutOp_kept {z : State} (s : State) (o : NvmOp) (hK : Kept z s) : Kept z (cutOp s o) := by
  unfold cutOp
  try dsimp only
  repeat' (first
    | intro _ _ _
    | intro _ _
    | intro _
    | with_reducible assumption
    | ((conv => arg 2; arg 33); with_reducible refine Kept.lit ?_ ?_ ?_) <;> [skip; rfl; exact ⟨rfl, rfl, rfl, rfl, rfl, rfl, rfl⟩]
    | with_reducible apply drew_kept
    | with_reducible apply pairTorn_kept
    | with_reducible apply eraseCut_kept
    | with_reducible apply Kept.ite
    | with_reducible apply Kept.foldl
    | dsimp only
    | split)

theorem dropOp_kept {z : State} (s : State) (o : NvmOp) (hK : Kept z s) : Kept z (dropOp s o) := by
  unfold dropOp
  try dsimp only
  repeat' (first
    | intro _ _ _
    | intro _ _
    | intro _
    | with_reducible assumption
    | ((conv => arg 2; arg 33); with_reducible refine Kept.lit ?_ ?_ ?_) <;> [skip; rfl; exact ⟨rfl, rfl, rfl, rfl, rfl, rfl, rfl⟩]
    | with_reducible apply pairTorn_kept
    | dsimp only
    | split)

theorem cutOps_kept {z : State} (s : State) (hK : Kept z s) : Kept z (cutOps s) := by
  unfold cutOps
  try dsimp only
  repeat' (first
    | intro _ _ _
    | intro _ _
    | intro _
    | with_reducible assumption
    | ((conv => arg 2; arg 33); with_reducible refine Kept.lit ?_ ?_ ?_) <;> [skip; rfl; exact ⟨rfl, rfl, rfl, rfl, rfl, rfl, rfl⟩]
    | with_reducible apply cutOp_kept
    | with_reducible apply dropOp_kept
    | with_reducible apply Kept.foldl)

theorem loadOption_kept {z : State} (s : State) (ok0 ok1 : Bool) (hK : Kept z s) : Kept z (loadOption s ok0 ok1) := by
  unfold loadOption
  try dsimp only
  repeat' (first
    | with_reducible assumption
    | ((conv => arg 2; arg 33); with_reducible refine Kept.lit ?_ ?_ ?_) <;> [skip; rfl; exact ⟨rfl, rfl, rfl, rfl, rfl, rfl, rfl⟩]
    | with_reducible apply Kept.ite
    | dsimp only
    | split)

theorem loadNonce_kept {z : State} (s : State) (hK : Kept z s) : Kept z (loadNonce s) := by
  unfold loadNonce
  try dsimp only
  repeat' (first
    | with_reducible assumption
    | ((conv => arg 2; arg 33); with_reducible refine Kept.lit ?_ ?_ ?_) <;> [skip; rfl; exact ⟨rfl, rfl, rfl, rfl, rfl, rfl, rfl⟩]
    | with_reducible apply Kept.ite
    | dsimp only
    | split)

theorem coldFrame_kept {z : State} (s : State) (inputIn : Bool) (hK : Kept z s) : Kept z (coldFrame s inputIn) :=
  ⟨hK.queue, hK.clock, fun _ => rfl, hK.fuses, hK.draws, hK.out⟩

theorem resumeLowering_kept {z : State} (s : State) (hK : Kept z s) : Kept z (resumeLowering s) := by
  unfold resumeLowering
  try dsimp only
  repeat' (first
    | with_reducible assumption
    | with_reducible apply lowerErase_kept
    | with_reducible apply Kept.ite
    | dsimp only
    | split)

theorem eraseUnsure_kept {z : State} (s : State) (hK : Kept z s) : Kept z (eraseUnsure s) := by
  unfold eraseUnsure
  try dsimp only
  repeat' (first
    | intro _ _ _
    | intro _ _
    | intro _
    | with_reducible assumption
    | with_reducible apply nvmPost_kept
    | with_reducible apply Kept.ite
    | with_reducible apply Kept.foldl
    | dsimp only
    | split)

theorem marginRead_kept {z : State} (s : State) (a : Nat) (hK : Kept z s) : Kept z (marginRead s a) := by
  unfold marginRead
  try dsimp only
  repeat' (first
    | with_reducible assumption
    | with_reducible apply bump_kept
    | with_reducible apply pairWrite_kept
    | with_reducible apply raise_kept
    | with_reducible apply Kept.ite
    | dsimp only
    | split)

theorem unitUnread_kept {z : State} (s : State) (a : Nat) (hK : Kept z s) : Kept z (unitUnread s a) := by
  unfold unitUnread
  try dsimp only
  repeat' (first
    | with_reducible assumption
    | ((conv => arg 2; arg 33); with_reducible refine Kept.lit ?_ ?_ ?_) <;> [skip; rfl; exact ⟨rfl, rfl, rfl, rfl, rfl, rfl, rfl⟩]
    | with_reducible apply bump_kept
    | with_reducible apply raiseOpen_kept)

theorem coldLoads_kept {z : State} (i : ColdIn) (s : State) (hK : Kept z s) : Kept z (coldLoads i s) := by
  have h1 : Kept z (i.ue.foldl pairUnread (cutOps s)) := Kept.foldl (fun x a hx => pairUnread_kept x a hx) (cutOps_kept _ hK)
  have h2 := pairWrite_kept _ 5 (loadNonce_kept _ (eraseUnsure_kept _ (loadLate_kept _ (reloadRegs_kept _ (resumeLowering_kept _
    (loadOption_kept _ i.opt0 i.opt1 (coldFrame_kept _ i.inputIn h1)))))))
  unfold coldLoads
  dsimp only
  generalize pairWrite _ 5 = w at h2 ⊢
  exact Kept.upd h2 rfl rfl rfl rfl rfl rfl

theorem coldReports_kept {z : State} (i : ColdIn) (s : State) (hK : Kept z s) : Kept z (coldReports i s) := by
  have h1 : Kept z (if s.nvm.optLost then raiseOpen s 0x192 else s) := Kept.ite (raiseOpen_kept _ _ hK) hK
  unfold coldReports
  dsimp only
  generalize (if s.nvm.optLost then raiseOpen s 0x192 else s) = u at h1 ⊢
  have h2 : Kept z (i.margin.foldl marginRead (bump u rNvmErr 24 8 i.corrected)) :=
    Kept.foldl (fun x a hx => marginRead_kept x a hx) (bump_kept u rNvmErr 24 8 i.corrected h1)
  have h3 : Kept z (i.ue.foldl unitUnread (i.margin.foldl marginRead (bump u rNvmErr 24 8 i.corrected))) :=
    Kept.foldl (fun x a hx => unitUnread_kept x a hx) h2
  split
  · exact logEvent_kept _ _ _ _ h3
  · exact h3

theorem coldStart_kept {z : State} (i : ColdIn) (s : State) (hK : Kept z s) : Kept z (coldStart i s) := by
  have h1 := coldReports_kept i _ (coldLoads_kept i _ hK)
  unfold coldStart
  dsimp only
  generalize coldReports i (coldLoads i s) = v at h1 ⊢
  have h2 : Kept z (if !s.log.bins.isEmpty then logEvent v 0x207 s.log.seq 0 else v) := Kept.ite (logEvent_kept _ _ _ _ h1) h1
  have h3 : Kept z ((i.stuck.filter (· < 4)).foldl fence (if !s.log.bins.isEmpty then logEvent v 0x207 s.log.seq 0 else v)) :=
    Kept.foldl (fun x a hx => fence_kept x a hx) h2
  generalize (i.stuck.filter (· < 4)).foldl fence _ = w at h3 ⊢
  have h4 : Kept z (settle { w with dev := { w.dev with prev := .off, cause := .none } } .inputGood) :=
    settle_kept _ _ (Kept.upd h3 rfl rfl rfl rfl rfl rfl)
  generalize settle _ _ = y at h4 ⊢
  exact Kept.upd h4 rfl rfl rfl rfl rfl rfl

theorem collapse_kept {z : State} (s : State) (hK : Kept z s) : Kept z (collapse s) := by
  unfold collapse
  try dsimp only
  repeat' (first
    | intro _ _ _
    | intro _ _
    | intro _
    | with_reducible assumption
    | ((conv => arg 2; arg 33); with_reducible refine Kept.lit ?_ ?_ ?_) <;> [skip; rfl; exact ⟨rfl, rfl, rfl, rfl, rfl, rfl, rfl⟩]
    | with_reducible apply railsDrop_kept
    | with_reducible apply noteFault_kept
    | with_reducible apply raiseCause_kept
    | with_reducible apply Kept.ite
    | dsimp only
    | split)

theorem vaonGone_kept {z : State} (s : State) (hK : Kept z s) : Kept z (vaonGone s) := by
  unfold vaonGone
  try dsimp only
  repeat' (first
    | with_reducible assumption
    | ((conv => arg 2; arg 33); with_reducible refine Kept.lit ?_ ?_ ?_) <;> [skip; rfl; exact ⟨rfl, rfl, rfl, rfl, rfl, rfl, rfl⟩]
    | with_reducible apply setDev_kept
    | with_reducible apply railsDrop_kept
    | with_reducible apply logicOff_kept)

theorem dropWaiting_kept {z : State} (s : State) (hK : Kept z s) : Kept z (dropWaiting s) := by
  unfold dropWaiting
  try dsimp only
  repeat' (first
    | intro _ _ _
    | intro _ _
    | intro _
    | with_reducible assumption
    | ((conv => arg 2; arg 33); with_reducible refine Kept.lit ?_ ?_ ?_) <;> [skip; rfl; exact ⟨rfl, rfl, rfl, rfl, rfl, rfl, rfl⟩]
    | with_reducible apply endWith_kept
    | with_reducible apply Kept.foldl
    | dsimp only
    | split)

theorem bootSlot_kept {z : State} (s : State) (b : Bool) (st boots : Nat) (hK : Kept z s) : Kept z (bootSlot s b st boots) := by
  unfold bootSlot
  try dsimp only
  repeat' (first
    | with_reducible assumption
    | ((conv => arg 2; arg 33); with_reducible refine Kept.lit ?_ ?_ ?_) <;> [skip; rfl; exact ⟨rfl, rfl, rfl, rfl, rfl, rfl, rfl⟩]
    | with_reducible apply setSlot_kept
    | with_reducible apply fwSave_kept
    | with_reducible apply noImage_kept
    | with_reducible apply Kept.ite
    | dsimp only
    | split)

theorem rejectSlot_kept {z : State} (s : State) (b : Bool) (hK : Kept z s) : Kept z (rejectSlot s b) := by
  unfold rejectSlot
  try dsimp only
  repeat' (first
    | with_reducible assumption
    | ((conv => arg 2; arg 33); with_reducible refine Kept.lit ?_ ?_ ?_) <;> [skip; rfl; exact ⟨rfl, rfl, rfl, rfl, rfl, rfl, rfl⟩]
    | with_reducible apply setSlot_kept
    | with_reducible apply fwSave_kept)

theorem noImage_kept {z : State} (s : State) (hK : Kept z s) : Kept z (noImage s) := by
  unfold noImage
  try dsimp only
  repeat' (first
    | with_reducible assumption
    | ((conv => arg 2; arg 33); with_reducible refine Kept.lit ?_ ?_ ?_) <;> [skip; rfl; exact ⟨rfl, rfl, rfl, rfl, rfl, rfl, rfl⟩]
    | with_reducible apply raiseOpen_kept)

theorem fallBack_kept {z : State} (s : State) (b : Bool) (hK : Kept z s) : Kept z (fallBack s b).1 := by
  unfold fallBack
  try dsimp only
  repeat' (first
    | with_reducible assumption
    | with_reducible apply raiseOpen_kept
    | with_reducible apply bootSlot_kept
    | with_reducible apply rejectSlot_kept
    | with_reducible apply noImage_kept
    | with_reducible apply Kept.ite
    | dsimp only
    | split)
theorem fallBack_kept_eq {z : State} {s : State} {b : Bool} {x : State} {r : _} (e : (fallBack s b) = (x, r)) (hK : Kept z s) : Kept z x := by
  have := fallBack_kept s b hK
  rw [e] at this
  exact this

theorem chooseSlot_kept {z : State} (s : State) (hK : Kept z s) : Kept z (chooseSlot s).1 := by
  unfold chooseSlot
  try dsimp only
  repeat' (first
    | intro _ _ _
    | intro _ _
    | intro _
    | with_reducible assumption
    | ((conv => arg 2; arg 33); with_reducible refine Kept.lit ?_ ?_ ?_) <;> [skip; rfl; exact ⟨rfl, rfl, rfl, rfl, rfl, rfl, rfl⟩]
    | with_reducible apply raiseOpen_kept
    | with_reducible apply bootSlot_kept
    | with_reducible apply rejectSlot_kept
    | with_reducible apply noImage_kept
    | with_reducible apply fallBack_kept
    | with_reducible refine fallBack_kept_eq (by assumption) ?_
    | with_reducible apply Kept.ite
    | dsimp only
    | split)
theorem chooseSlot_kept_eq {z : State} {s : State} {x : State} {r : _} (e : (chooseSlot s) = (x, r)) (hK : Kept z s) : Kept z x := by
  have := chooseSlot_kept s hK
  rw [e] at this
  exact this

theorem checksFail_kept {z : State} (s : State) (hK : Kept z s) : Kept z (checksFail s) := by
  unfold checksFail
  try dsimp only
  repeat' (first
    | with_reducible assumption
    | with_reducible apply enterLatched_kept)

theorem startChecks_kept {z : State} (ecc : List Nat) (ue : Bool) (s : State) (hK : Kept z s) : Kept z (startChecks ecc ue s) := by
  unfold startChecks
  try dsimp only
  repeat' (first
    | intro _ _ _
    | intro _ _
    | intro _
    | with_reducible assumption
    | ((conv => arg 2; arg 33); with_reducible refine Kept.lit ?_ ?_ ?_) <;> [skip; rfl; exact ⟨rfl, rfl, rfl, rfl, rfl, rfl, rfl⟩]
    | with_reducible apply raiseOpen_kept
    | with_reducible apply enterRailsUp_kept
    | with_reducible apply raiseCause_kept
    | with_reducible apply chooseSlot_kept
    | with_reducible refine chooseSlot_kept_eq (by assumption) ?_
    | with_reducible apply checksFail_kept
    | with_reducible apply Kept.ite
    | with_reducible apply Kept.foldl
    | dsimp only
    | split)

theorem checksAt_kept {z : State} (temp : Int) (ecc : List Nat) (ue : Bool) (s : State) (hK : Kept z s) : Kept z (checksAt temp ecc ue s) := by
  unfold checksAt
  try dsimp only
  repeat' (first
    | with_reducible assumption
    | ((conv => arg 2; arg 33); with_reducible refine Kept.lit ?_ ?_ ?_) <;> [skip; rfl; exact ⟨rfl, rfl, rfl, rfl, rfl, rfl, rfl⟩]
    | with_reducible apply logEvent_kept
    | with_reducible apply startChecks_kept
    | with_reducible apply Kept.ite
    | dsimp only
    | split)

theorem enterHeld_kept {z : State} (s : State) (c : Nat) (hK : Kept z s) : Kept z (enterHeld s c) := by
  unfold enterHeld
  try dsimp only
  repeat' (first
    | intro _ _ _
    | intro _ _
    | intro _
    | with_reducible assumption
    | ((conv => arg 2; arg 33); with_reducible refine Kept.lit ?_ ?_ ?_) <;> [skip; rfl; exact ⟨rfl, rfl, rfl, rfl, rfl, rfl, rfl⟩]
    | with_reducible apply setDev_kept
    | with_reducible apply logicOff_kept
    | with_reducible apply nextStage_kept
    | with_reducible apply settle_kept
    | with_reducible apply Kept.ite
    | dsimp only
    | split)

theorem startSave_kept {z : State} (s : State) (forOff : Bool) (hK : Kept z s) : Kept z (startSave s forOff) := by
  unfold startSave
  try dsimp only
  repeat' (first
    | with_reducible assumption
    | ((conv => arg 2; arg 33); with_reducible refine Kept.lit ?_ ?_ ?_) <;> [skip; rfl; exact ⟨rfl, rfl, rfl, rfl, rfl, rfl, rfl⟩])

theorem orderlyOff_kept {z : State} (s : State) (c : Cause) (cmds : List Nat) (hK : Kept z s) : Kept z (orderlyOff s c cmds) := by
  unfold orderlyOff
  try dsimp only
  repeat' (first
    | with_reducible assumption
    | ((conv => arg 2; arg 33); with_reducible refine Kept.lit ?_ ?_ ?_) <;> [skip; rfl; exact ⟨rfl, rfl, rfl, rfl, rfl, rfl, rfl⟩]
    | with_reducible apply startSave_kept
    | with_reducible apply Kept.ite
    | dsimp only
    | split)

theorem enterService_kept {z : State} (s : State) (d : DevState) (c : Cause) (hK : Kept z s) : Kept z (enterService s d c) := by
  unfold enterService
  try dsimp only
  repeat' (first
    | with_reducible assumption
    | ((conv => arg 2; arg 33); with_reducible refine Kept.lit ?_ ?_ ?_) <;> [skip; rfl; exact ⟨rfl, rfl, rfl, rfl, rfl, rfl, rfl⟩]
    | with_reducible apply setDev_kept
    | with_reducible apply orderlyOff_kept
    | dsimp only
    | split)

theorem offRequest_kept {z : State} (s : State) (c : Cause) (cmd : List Nat) (hold : Bool) (hK : Kept z s) : Kept z (offRequest s c cmd hold) := by
  unfold offRequest
  try dsimp only
  repeat' (first
    | intro _ _ _
    | intro _ _
    | intro _
    | with_reducible assumption
    | ((conv => arg 2; arg 33); with_reducible refine Kept.lit ?_ ?_ ?_) <;> [skip; rfl; exact ⟨rfl, rfl, rfl, rfl, rfl, rfl, rfl⟩]
    | with_reducible apply ignored_kept
    | with_reducible apply railsStep_kept
    | with_reducible apply orderlyOff_kept
    | dsimp only
    | split)

theorem onRequest_kept {z : State} (s : State) (c : Cause) (hK : Kept z s) : Kept z (onRequest s c) := by
  unfold onRequest
  try dsimp only
  repeat' (first
    | with_reducible assumption
    | ((conv => arg 2; arg 33); with_reducible refine Kept.lit ?_ ?_ ?_) <;> [skip; rfl; exact ⟨rfl, rfl, rfl, rfl, rfl, rfl, rfl⟩]
    | with_reducible apply settle_kept
    | dsimp only
    | split)

theorem longPress_kept {z : State} (s : State) (c : Cause) (hold : Bool) (hK : Kept z s) : Kept z (longPress s c hold) := by
  unfold longPress
  try dsimp only
  repeat' (first
    | with_reducible assumption
    | ((conv => arg 2; arg 33); with_reducible refine Kept.lit ?_ ?_ ?_) <;> [skip; rfl; exact ⟨rfl, rfl, rfl, rfl, rfl, rfl, rfl⟩]
    | with_reducible apply ignored_kept
    | with_reducible apply harvestCause_kept
    | with_reducible apply startHarvest_kept
    | with_reducible apply offRequest_kept
    | dsimp only
    | split)

theorem cmdPowerStateReq_kept {z : State} (f : InFlight) (s : State) (hK : Kept z s) : Kept z (cmdPowerStateReq f s) := by
  unfold cmdPowerStateReq
  try dsimp only
  repeat' (first
    | with_reducible assumption
    | ((conv => arg 2; arg 33); with_reducible refine Kept.lit ?_ ?_ ?_) <;> [skip; rfl; exact ⟨rfl, rfl, rfl, rfl, rfl, rfl, rfl⟩]
    | with_reducible apply noteWon_kept
    | with_reducible apply endWith_kept
    | with_reducible apply badParam_kept
    | with_reducible apply conflict_kept
    | with_reducible apply setJob_kept
    | with_reducible apply endPower_kept
    | with_reducible apply askDomain_kept
    | with_reducible apply offRequest_kept
    | with_reducible apply onRequest_kept
    | with_reducible apply Kept.ite
    | dsimp only
    | split)

theorem execVaonPresent_kept {z : State} (i : ColdIn) (t : Nat) (s : State) (hK : Kept z s) {w0 : State} (eq0 : execVaonPresent i t s = .next w0) : Kept z w0 := by
  unfold execVaonPresent at eq0
  try dsimp only at eq0
  refine Kept.of_next eq0 ?_
  repeat' (first
    | with_reducible assumption
    | with_reducible apply tick_kept
    | with_reducible apply ignored_kept
    | with_reducible apply coldStart_kept
    | with_reducible apply Kept.ite
    | dsimp only
    | split)

theorem execStrapSample_kept {z : State} (test xbyp : Bool) (t : Nat) (s : State) (hK : Kept z s) {w0 : State} (eq0 : execStrapSample test xbyp t s = .next w0) : Kept z w0 := by
  unfold execStrapSample at eq0
  try dsimp only at eq0
  refine Kept.of_next eq0 ?_
  repeat' (first
    | with_reducible assumption
    | ((conv => arg 2; arg 33); with_reducible refine Kept.lit ?_ ?_ ?_) <;> [skip; rfl; exact ⟨rfl, rfl, rfl, rfl, rfl, rfl, rfl⟩]
    | with_reducible apply tick_kept
    | with_reducible apply logEvent_kept
    | with_reducible apply Kept.ite
    | dsimp only
    | split)

theorem execVaonAbsent_kept {z : State} (t : Nat) (s : State) (hK : Kept z s) {w0 : State} (eq0 : execVaonAbsent t s = .next w0) : Kept z w0 := by
  unfold execVaonAbsent at eq0
  try dsimp only at eq0
  refine Kept.of_next eq0 ?_
  repeat' (first
    | with_reducible assumption
    | ((conv => arg 2; arg 33); with_reducible refine Kept.lit ?_ ?_ ?_) <;> [skip; rfl; exact ⟨rfl, rfl, rfl, rfl, rfl, rfl, rfl⟩]
    | with_reducible apply tick_kept
    | with_reducible apply ignored_kept
    | with_reducible apply vaonGone_kept
    | dsimp only
    | split)

theorem execVaonLow_kept {z : State} (t : Nat) (s : State) (hK : Kept z s) {w0 : State} (eq0 : execVaonLow t s = .next w0) : Kept z w0 := by
  unfold execVaonLow at eq0
  try dsimp only at eq0
  refine Kept.of_next eq0 ?_
  repeat' (first
    | with_reducible assumption
    | with_reducible apply tick_kept
    | with_reducible apply collapse_kept)

theorem execVaonReset_kept {z : State} (t : Nat) (s : State) (hK : Kept z s) {w0 : State} (eq0 : execVaonReset t s = .next w0) : Kept z w0 := by
  unfold execVaonReset at eq0
  try dsimp only at eq0
  refine Kept.of_next eq0 ?_
  repeat' (first
    | with_reducible assumption
    | with_reducible apply tick_kept
    | with_reducible apply collapse_kept
    | with_reducible apply vaonGone_kept
    | with_reducible apply Kept.ite
    | dsimp only
    | split)

theorem execBrownOut_kept {z : State} (t : Nat) (s : State) (hK : Kept z s) {w0 : State} (eq0 : execBrownOut t s = .next w0) : Kept z w0 := by
  unfold execBrownOut at eq0
  try dsimp only at eq0
  refine Kept.of_next eq0 ?_
  repeat' (first
    | with_reducible assumption
    | ((conv => arg 2; arg 33); with_reducible refine Kept.lit ?_ ?_ ?_) <;> [skip; rfl; exact ⟨rfl, rfl, rfl, rfl, rfl, rfl, rfl⟩]
    | with_reducible apply tick_kept
    | with_reducible apply cutOps_kept
    | with_reducible apply dropWaiting_kept
    | with_reducible apply Kept.ite
    | dsimp only
    | split)

theorem execVaonRecovery_kept {z : State} (t : Nat) (s : State) (hK : Kept z s) {w0 : State} (eq0 : execVaonRecovery t s = .next w0) : Kept z w0 := by
  unfold execVaonRecovery at eq0
  try dsimp only at eq0
  refine Kept.of_next eq0 ?_
  repeat' (first
    | with_reducible assumption
    | ((conv => arg 2; arg 33); with_reducible refine Kept.lit ?_ ?_ ?_) <;> [skip; rfl; exact ⟨rfl, rfl, rfl, rfl, rfl, rfl, rfl⟩]
    | with_reducible apply tick_kept
    | with_reducible apply collapse_kept
    | with_reducible apply Kept.ite
    | dsimp only
    | split)

theorem execStartChecks_kept {z : State} (temp : Int) (ecc : List Nat) (ue : Bool) (t : Nat) (s : State) (hK : Kept z s) {w0 : State} (eq0 : execStartChecks temp ecc ue t s = .next w0) : Kept z w0 := by
  unfold execStartChecks at eq0
  try dsimp only at eq0
  refine Kept.of_next eq0 ?_
  repeat' (first
    | with_reducible assumption
    | with_reducible apply tick_kept
    | with_reducible apply ignored_kept
    | with_reducible apply checksAt_kept
    | with_reducible apply Kept.ite
    | dsimp only
    | split)

theorem execColdTempRecheck_kept {z : State} (temp : Int) (ecc : List Nat) (ue : Bool) (t : Nat) (s : State) (hK : Kept z s) {w0 : State} (eq0 : execColdTempRecheck temp ecc ue t s = .next w0) : Kept z w0 := by
  unfold execColdTempRecheck at eq0
  try dsimp only at eq0
  refine Kept.of_next eq0 ?_
  repeat' (first
    | with_reducible assumption
    | with_reducible apply tick_kept
    | with_reducible apply checksAt_kept
    | with_reducible apply Kept.ite
    | dsimp only
    | split)

theorem execInputGood_kept {z : State} (t : Nat) (s : State) (hK : Kept z s) {w0 : State} (eq0 : execInputGood t s = .next w0) : Kept z w0 := by
  unfold execInputGood at eq0
  try dsimp only at eq0
  refine Kept.of_next eq0 ?_
  repeat' (first
    | with_reducible assumption
    | ((conv => arg 2; arg 33); with_reducible refine Kept.lit ?_ ?_ ?_) <;> [skip; rfl; exact ⟨rfl, rfl, rfl, rfl, rfl, rfl, rfl⟩]
    | with_reducible apply tick_kept
    | with_reducible apply ignored_kept
    | with_reducible apply settle_kept
    | with_reducible apply Kept.ite
    | dsimp only
    | split)

theorem execPowerFail_kept {z : State} (under overV pin : Bool) (t : Nat) (s : State) (hK : Kept z s) {w0 : State} (eq0 : execPowerFail under overV pin t s = .next w0) : Kept z w0 := by
  unfold execPowerFail at eq0
  try dsimp only at eq0
  refine Kept.of_next eq0 ?_
  repeat' (first
    | with_reducible assumption
    | ((conv => arg 2; arg 33); with_reducible refine Kept.lit ?_ ?_ ?_) <;> [skip; rfl; exact ⟨rfl, rfl, rfl, rfl, rfl, rfl, rfl⟩]
    | with_reducible apply tick_kept
    | with_reducible apply ignored_kept
    | with_reducible apply noteWon_kept
    | with_reducible apply enterHarvesting_kept
    | with_reducible apply harvestCause_kept
    | with_reducible apply notice_kept
    | with_reducible apply toRailsDown_kept
    | with_reducible apply Kept.ite
    | dsimp only
    | split)

theorem execPfGlitch_kept {z : State} (us t : Nat) (s : State) (hK : Kept z s) {w0 : State} (eq0 : execPfGlitch us t s = .next w0) : Kept z w0 := by
  unfold execPfGlitch at eq0
  try dsimp only at eq0
  refine Kept.of_next eq0 ?_
  repeat' (first
    | with_reducible assumption
    | with_reducible apply tick_kept
    | with_reducible apply logEvent_kept)

theorem execPowerFailNotice_kept {z : State} (ns t : Nat) (s : State) (hK : Kept z s) {w0 : State} (eq0 : execPowerFailNotice ns t s = .next w0) : Kept z w0 := by
  unfold execPowerFailNotice at eq0
  try dsimp only at eq0
  refine Kept.of_next eq0 ?_
  repeat' (first
    | with_reducible assumption
    | with_reducible apply tick_kept
    | with_reducible apply takeCut_kept
    | with_reducible apply Kept.ite
    | dsimp only
    | split)

theorem execHarvestDoneNotice_kept {z : State} (t : Nat) (s : State) (hK : Kept z s) {w0 : State} (eq0 : execHarvestDoneNotice t s = .next w0) : Kept z w0 := by
  unfold execHarvestDoneNotice at eq0
  try dsimp only at eq0
  refine Kept.of_next eq0 ?_
  repeat' (first
    | with_reducible assumption
    | ((conv => arg 2; arg 33); with_reducible refine Kept.lit ?_ ?_ ?_) <;> [skip; rfl; exact ⟨rfl, rfl, rfl, rfl, rfl, rfl, rfl⟩]
    | with_reducible apply tick_kept
    | with_reducible apply ignored_kept
    | with_reducible apply enterLatched_kept
    | with_reducible apply toRailsDown_kept
    | with_reducible apply enterHeld_kept
    | with_reducible apply Kept.ite
    | dsimp only
    | split)

theorem execFatalNotice_kept {z : State} (n detail t : Nat) (s : State) (hK : Kept z s) {w0 : State} (eq0 : execFatalNotice n detail t s = .next w0) : Kept z w0 := by
  unfold execFatalNotice at eq0
  try dsimp only at eq0
  refine Kept.of_next eq0 ?_
  repeat' (first
    | with_reducible assumption
    | with_reducible apply tick_kept
    | with_reducible apply raiseLive_kept
    | with_reducible apply Kept.ite
    | dsimp only
    | split)

theorem execOrderlyOffSeal_kept {z : State} (t : Nat) (s : State) (hK : Kept z s) {w0 : State} (eq0 : execOrderlyOffSeal t s = .next w0) : Kept z w0 := by
  unfold execOrderlyOffSeal at eq0
  try dsimp only at eq0
  refine Kept.of_next eq0 ?_
  repeat' (first
    | intro _ _ _
    | intro _ _
    | intro _
    | with_reducible assumption
    | ((conv => arg 2; arg 33); with_reducible refine Kept.lit ?_ ?_ ?_) <;> [skip; rfl; exact ⟨rfl, rfl, rfl, rfl, rfl, rfl, rfl⟩]
    | with_reducible apply tick_kept
    | with_reducible apply saveConfig_kept
    | with_reducible apply placeSeal_kept
    | with_reducible apply endPower_kept
    | with_reducible apply Kept.ite
    | with_reducible apply Kept.foldl
    | dsimp only
    | split)

theorem execOrderlyOffPowerDown_kept {z : State} (t : Nat) (s : State) (hK : Kept z s) {w0 : State} (eq0 : execOrderlyOffPowerDown t s = .next w0) : Kept z w0 := by
  unfold execOrderlyOffPowerDown at eq0
  try dsimp only at eq0
  refine Kept.of_next eq0 ?_
  repeat' (first
    | with_reducible assumption
    | ((conv => arg 2; arg 33); with_reducible refine Kept.lit ?_ ?_ ?_) <;> [skip; rfl; exact ⟨rfl, rfl, rfl, rfl, rfl, rfl, rfl⟩]
    | with_reducible apply tick_kept
    | with_reducible apply ignored_kept
    | with_reducible apply toRailsDown_kept
    | with_reducible apply Kept.ite
    | dsimp only
    | split)

theorem execOffAbandoned_kept {z : State} (t : Nat) (s : State) (hK : Kept z s) {w0 : State} (eq0 : execOffAbandoned t s = .next w0) : Kept z w0 := by
  unfold execOffAbandoned at eq0
  try dsimp only at eq0
  refine Kept.of_next eq0 ?_
  repeat' (first
    | intro _ _ _
    | intro _ _
    | intro _
    | with_reducible assumption
    | ((conv => arg 2; arg 33); with_reducible refine Kept.lit ?_ ?_ ?_) <;> [skip; rfl; exact ⟨rfl, rfl, rfl, rfl, rfl, rfl, rfl⟩]
    | with_reducible apply tick_kept
    | with_reducible apply logEvent_kept
    | with_reducible apply endPower_kept
    | with_reducible apply Kept.ite
    | with_reducible apply Kept.foldl
    | dsimp only
    | split)

theorem execPwrbtnPress_kept {z : State} (t : Nat) (s : State) (hK : Kept z s) {w0 : State} (eq0 : execPwrbtnPress t s = .next w0) : Kept z w0 := by
  unfold execPwrbtnPress at eq0
  try dsimp only at eq0
  refine Kept.of_next eq0 ?_
  repeat' (first
    | with_reducible assumption
    | ((conv => arg 2; arg 33); with_reducible refine Kept.lit ?_ ?_ ?_) <;> [skip; rfl; exact ⟨rfl, rfl, rfl, rfl, rfl, rfl, rfl⟩]
    | with_reducible apply tick_kept
    | with_reducible apply onRequest_kept
    | with_reducible apply Kept.ite
    | dsimp only
    | split)

theorem execShortPress_kept {z : State} (t : Nat) (s : State) (hK : Kept z s) {w0 : State} (eq0 : execShortPress t s = .next w0) : Kept z w0 := by
  unfold execShortPress at eq0
  try dsimp only at eq0
  refine Kept.of_next eq0 ?_
  repeat' (first
    | with_reducible assumption
    | ((conv => arg 2; arg 33); with_reducible refine Kept.lit ?_ ?_ ?_) <;> [skip; rfl; exact ⟨rfl, rfl, rfl, rfl, rfl, rfl, rfl⟩]
    | with_reducible apply tick_kept
    | with_reducible apply noteWon_kept
    | with_reducible apply offRequest_kept
    | with_reducible apply Kept.ite
    | dsimp only
    | split)

theorem execLongPress_kept {z : State} (t : Nat) (s : State) (hK : Kept z s) {w0 : State} (eq0 : execLongPress t s = .next w0) : Kept z w0 := by
  unfold execLongPress at eq0
  try dsimp only at eq0
  refine Kept.of_next eq0 ?_
  repeat' (first
    | with_reducible assumption
    | ((conv => arg 2; arg 33); with_reducible refine Kept.lit ?_ ?_ ?_) <;> [skip; rfl; exact ⟨rfl, rfl, rfl, rfl, rfl, rfl, rfl⟩]
    | with_reducible apply tick_kept
    | with_reducible apply ignored_kept
    | with_reducible apply noteWon_kept
    | with_reducible apply longPress_kept
    | with_reducible apply Kept.ite
    | dsimp only
    | split)

theorem execMrNAssert_kept {z : State} (t : Nat) (s : State) (hK : Kept z s) {w0 : State} (eq0 : execMrNAssert t s = .next w0) : Kept z w0 := by
  unfold execMrNAssert at eq0
  try dsimp only at eq0
  refine Kept.of_next eq0 ?_
  repeat' (first
    | with_reducible assumption
    | ((conv => arg 2; arg 33); with_reducible refine Kept.lit ?_ ?_ ?_) <;> [skip; rfl; exact ⟨rfl, rfl, rfl, rfl, rfl, rfl, rfl⟩]
    | with_reducible apply tick_kept
    | with_reducible apply ignored_kept
    | with_reducible apply noteWon_kept
    | with_reducible apply harvestCause_kept
    | with_reducible apply startHarvest_kept
    | with_reducible apply Kept.ite
    | dsimp only
    | split)

theorem execMrNRelease_kept {z : State} (t : Nat) (s : State) (hK : Kept z s) {w0 : State} (eq0 : execMrNRelease t s = .next w0) : Kept z w0 := by
  unfold execMrNRelease at eq0
  try dsimp only at eq0
  refine Kept.of_next eq0 ?_
  repeat' (first
    | with_reducible assumption
    | ((conv => arg 2; arg 33); with_reducible refine Kept.lit ?_ ?_ ?_) <;> [skip; rfl; exact ⟨rfl, rfl, rfl, rfl, rfl, rfl, rfl⟩]
    | with_reducible apply tick_kept
    | with_reducible apply ignored_kept
    | with_reducible apply settle_kept
    | with_reducible apply Kept.ite
    | dsimp only
    | split)

theorem execPowerCycle_kept {z : State} (t : Nat) (s : State) (hK : Kept z s) {w0 : State} (eq0 : execPowerCycle t s = .next w0) : Kept z w0 := by
  unfold execPowerCycle at eq0
  try dsimp only at eq0
  refine Kept.of_next eq0 ?_
  repeat' (first
    | with_reducible assumption
    | ((conv => arg 2; arg 33); with_reducible refine Kept.lit ?_ ?_ ?_) <;> [skip; rfl; exact ⟨rfl, rfl, rfl, rfl, rfl, rfl, rfl⟩]
    | with_reducible apply tick_kept
    | with_reducible apply pairWrite_kept
    | with_reducible apply setDev_kept
    | with_reducible apply ignored_kept
    | with_reducible apply Kept.ite
    | dsimp only
    | split)

theorem execHoldTimeReached_kept {z : State} (t : Nat) (s : State) (hK : Kept z s) {w0 : State} (eq0 : execHoldTimeReached t s = .next w0) : Kept z w0 := by
  unfold execHoldTimeReached at eq0
  try dsimp only at eq0
  refine Kept.of_next eq0 ?_
  repeat' (first
    | with_reducible assumption
    | with_reducible apply tick_kept
    | with_reducible apply ignored_kept
    | with_reducible apply noteWon_kept
    | with_reducible apply toRailsDown_kept
    | with_reducible apply Kept.ite
    | dsimp only
    | split)

theorem execThermalHigh_kept {z : State} (temp : Int) (t : Nat) (s : State) (hK : Kept z s) {w0 : State} (eq0 : execThermalHigh temp t s = .next w0) : Kept z w0 := by
  unfold execThermalHigh at eq0
  try dsimp only at eq0
  refine Kept.of_next eq0 ?_
  repeat' (first
    | with_reducible assumption
    | ((conv => arg 2; arg 33); with_reducible refine Kept.lit ?_ ?_ ?_) <;> [skip; rfl; exact ⟨rfl, rfl, rfl, rfl, rfl, rfl, rfl⟩]
    | with_reducible apply tick_kept
    | with_reducible apply logEvent_kept
    | with_reducible apply Kept.ite
    | dsimp only
    | split)

theorem execThermalTrip_kept {z : State} (temp : Int) (t : Nat) (s : State) (hK : Kept z s) {w0 : State} (eq0 : execThermalTrip temp t s = .next w0) : Kept z w0 := by
  unfold execThermalTrip at eq0
  try dsimp only at eq0
  refine Kept.of_next eq0 ?_
  repeat' (first
    | with_reducible assumption
    | ((conv => arg 2; arg 33); with_reducible refine Kept.lit ?_ ?_ ?_) <;> [skip; rfl; exact ⟨rfl, rfl, rfl, rfl, rfl, rfl, rfl⟩]
    | with_reducible apply tick_kept
    | with_reducible apply logEvent_kept
    | with_reducible apply noteWon_kept
    | with_reducible apply longPress_kept
    | with_reducible apply Kept.ite
    | dsimp only
    | split)

theorem execXtalFail_kept {z : State} (t : Nat) (s : State) (hK : Kept z s) {w0 : State} (eq0 : execXtalFail t s = .next w0) : Kept z w0 := by
  unfold execXtalFail at eq0
  try dsimp only at eq0
  refine Kept.of_next eq0 ?_
  repeat' (first
    | with_reducible assumption
    | ((conv => arg 2; arg 33); with_reducible refine Kept.lit ?_ ?_ ?_) <;> [skip; rfl; exact ⟨rfl, rfl, rfl, rfl, rfl, rfl, rfl⟩]
    | with_reducible apply tick_kept
    | with_reducible apply drew_kept
    | with_reducible apply raiseLive_kept
    | with_reducible apply Kept.ite
    | dsimp only
    | split)

theorem execPowerStateReq_kept {z : State} (c : TrellisCmd) (s : State) (hK : Kept z s) {w0 : State} (eq0 : execPowerStateReq c s = .next w0) : Kept z w0 := by
  unfold execPowerStateReq at eq0
  try dsimp only at eq0
  refine Kept.of_next eq0 ?_
  repeat' (first
    | intro _ _ _
    | intro _ _
    | intro _
    | with_reducible assumption
    | with_reducible apply submit_kept
    | with_reducible apply cmdPowerStateReq_kept)

theorem execDomainSwitchTimeout_kept {z : State} (t : Nat) (s : State) (hK : Kept z s) {w0 : State} (eq0 : execDomainSwitchTimeout t s = .next w0) : Kept z w0 := by
  unfold execDomainSwitchTimeout at eq0
  try dsimp only at eq0
  refine Kept.of_next eq0 ?_
  repeat' (first
    | intro _ _ _
    | intro _ _
    | intro _
    | with_reducible assumption
    | ((conv => arg 2; arg 33); with_reducible refine Kept.lit ?_ ?_ ?_) <;> [skip; rfl; exact ⟨rfl, rfl, rfl, rfl, rfl, rfl, rfl⟩]
    | with_reducible apply tick_kept
    | with_reducible apply endPower_kept
    | with_reducible apply Kept.foldl
    | dsimp only
    | split)

/-! ### Gauge -/

theorem saveLearned_kept {z : State} (s : State) (hK : Kept z s) : Kept z (saveLearned s) := by
  unfold saveLearned
  try dsimp only
  repeat' (first
    | with_reducible assumption
    | ((conv => arg 2; arg 33); with_reducible refine Kept.lit ?_ ?_ ?_) <;> [skip; rfl; exact ⟨rfl, rfl, rfl, rfl, rfl, rfl, rfl⟩]
    | with_reducible apply pairWrite_kept)

theorem anchorAt_kept {z : State} (s : State) (soc : Nat) (hK : Kept z s) : Kept z (anchorAt s soc) := by
  unfold anchorAt
  try dsimp only
  repeat' (first
    | with_reducible assumption
    | ((conv => arg 2; arg 33); with_reducible refine Kept.lit ?_ ?_ ?_) <;> [skip; rfl; exact ⟨rfl, rfl, rfl, rfl, rfl, rfl, rfl⟩])

theorem voidCycle_kept {z : State} (s : State) (why : Nat) (hK : Kept z s) : Kept z (voidCycle s why) := by
  unfold voidCycle
  try dsimp only
  repeat' (first
    | with_reducible assumption
    | ((conv => arg 2; arg 33); with_reducible refine Kept.lit ?_ ?_ ?_) <;> [skip; rfl; exact ⟨rfl, rfl, rfl, rfl, rfl, rfl, rfl⟩]
    | with_reducible apply Kept.ite
    | dsimp only
    | split)

theorem rehHandBack_kept {z : State} (s : State) (r : Rehearsal) (hK : Kept z s) : Kept z (rehHandBack s r) := by
  unfold rehHandBack
  try dsimp only
  repeat' (first
    | intro _ _ _
    | intro _ _
    | intro _
    | with_reducible assumption
    | ((conv => arg 2; arg 33); with_reducible refine Kept.lit ?_ ?_ ?_) <;> [skip; rfl; exact ⟨rfl, rfl, rfl, rfl, rfl, rfl, rfl⟩]
    | with_reducible apply setSb_kept
    | with_reducible apply setRole_kept
    | with_reducible apply Kept.foldl)

theorem rehAbort_kept {z : State} (s : State) (code : Nat) (hK : Kept z s) : Kept z (rehAbort s code) := by
  unfold rehAbort
  try dsimp only
  repeat' (first
    | with_reducible assumption
    | ((conv => arg 2; arg 33); with_reducible refine Kept.lit ?_ ?_ ?_) <;> [skip; rfl; exact ⟨rfl, rfl, rfl, rfl, rfl, rfl, rfl⟩]
    | with_reducible apply finish_kept
    | with_reducible apply rehHandBack_kept
    | with_reducible apply Kept.ite
    | dsimp only
    | split)

theorem packSwap_kept {z : State} (s : State) (how : Nat) (hK : Kept z s) : Kept z (packSwap s how) := by
  unfold packSwap
  try dsimp only
  repeat' (first
    | with_reducible assumption
    | ((conv => arg 2; arg 33); with_reducible refine Kept.lit ?_ ?_ ?_) <;> [skip; rfl; exact ⟨rfl, rfl, rfl, rfl, rfl, rfl, rfl⟩]
    | with_reducible apply logEvent_kept
    | with_reducible apply saveLearned_kept
    | with_reducible apply anchorAt_kept
    | with_reducible apply voidCycle_kept
    | with_reducible apply rehAbort_kept)

theorem judgeSensor_kept {z : State} (s : State) (i uv : Nat) (temp : Int) (hK : Kept z s) : Kept z (judgeSensor s i uv temp) := by
  unfold judgeSensor
  try dsimp only
  repeat' (first
    | intro _ _ _
    | intro _ _
    | intro _
    | with_reducible assumption
    | ((conv => arg 2; arg 33); with_reducible refine Kept.lit ?_ ?_ ?_) <;> [skip; rfl; exact ⟨rfl, rfl, rfl, rfl, rfl, rfl, rfl⟩]
    | with_reducible apply drew_kept
    | with_reducible apply clearLive_kept
    | with_reducible apply raiseLive_kept
    | with_reducible apply Kept.ite
    | dsimp only
    | split)

theorem endOfDischarge_kept {z : State} (s : State) (hK : Kept z s) : Kept z (endOfDischarge s) := by
  unfold endOfDischarge
  try dsimp only
  repeat' (first
    | with_reducible assumption
    | ((conv => arg 2; arg 33); with_reducible refine Kept.lit ?_ ?_ ?_) <;> [skip; rfl; exact ⟨rfl, rfl, rfl, rfl, rfl, rfl, rfl⟩]
    | with_reducible apply drew_kept
    | with_reducible apply clearLive_kept
    | with_reducible apply raiseLive_kept
    | with_reducible apply anchorAt_kept
    | with_reducible apply Kept.ite
    | dsimp only
    | split)

theorem judgeEod_kept {z : State} (s : State) (uv : Nat) (ua : Int) (hK : Kept z s) : Kept z (judgeEod s uv ua) := by
  unfold judgeEod
  try dsimp only
  repeat' (first
    | with_reducible assumption
    | ((conv => arg 2; arg 33); with_reducible refine Kept.lit ?_ ?_ ?_) <;> [skip; rfl; exact ⟨rfl, rfl, rfl, rfl, rfl, rfl, rfl⟩]
    | with_reducible apply endOfDischarge_kept
    | with_reducible apply Kept.ite
    | dsimp only
    | split)

theorem judgeBins_kept {z : State} (s : State) (hK : Kept z s) : Kept z (judgeBins s) := by
  unfold judgeBins
  try dsimp only
  repeat' (first
    | intro _ _ _
    | intro _ _
    | intro _
    | with_reducible assumption
    | ((conv => arg 2; arg 33); with_reducible refine Kept.lit ?_ ?_ ?_) <;> [skip; rfl; exact ⟨rfl, rfl, rfl, rfl, rfl, rfl, rfl⟩]
    | with_reducible apply saveLearned_kept
    | with_reducible apply Kept.ite
    | dsimp only
    | split)

theorem takeResistance_kept {z : State} (s : State) (b m : Nat) (hK : Kept z s) : Kept z (takeResistance s b m) := by
  unfold takeResistance
  try dsimp only
  repeat' (first
    | with_reducible assumption
    | ((conv => arg 2; arg 33); with_reducible refine Kept.lit ?_ ?_ ?_) <;> [skip; rfl; exact ⟨rfl, rfl, rfl, rfl, rfl, rfl, rfl⟩]
    | with_reducible apply packSwap_kept
    | with_reducible apply judgeBins_kept
    | with_reducible apply Kept.ite
    | dsimp only
    | split)

theorem judgeResistance_kept {z : State} (s : State) (prev : Option Burst) (b : Burst) (hK : Kept z s) : Kept z (judgeResistance s prev b) := by
  unfold judgeResistance
  try dsimp only
  repeat' (first
    | with_reducible assumption
    | ((conv => arg 2; arg 33); with_reducible refine Kept.lit ?_ ?_ ?_) <;> [skip; rfl; exact ⟨rfl, rfl, rfl, rfl, rfl, rfl, rfl⟩]
    | with_reducible apply takeResistance_kept
    | with_reducible apply Kept.ite
    | dsimp only
    | split)

theorem countCharge_kept {z : State} (s : State) (prev : Option Burst) (ua : Int) (hK : Kept z s) : Kept z (countCharge s prev ua) := by
  unfold countCharge
  try dsimp only
  repeat' (first
    | with_reducible assumption
    | ((conv => arg 2; arg 33); with_reducible refine Kept.lit ?_ ?_ ?_) <;> [skip; rfl; exact ⟨rfl, rfl, rfl, rfl, rfl, rfl, rfl⟩]
    | dsimp only
    | split)

theorem judgeRest_kept {z : State} (s : State) (ua : Int) (gap : Bool) (hK : Kept z s) : Kept z (judgeRest s ua gap) := by
  unfold judgeRest
  try dsimp only
  repeat' (first
    | with_reducible assumption
    | ((conv => arg 2; arg 33); with_reducible refine Kept.lit ?_ ?_ ?_) <;> [skip; rfl; exact ⟨rfl, rfl, rfl, rfl, rfl, rfl, rfl⟩]
    | with_reducible apply Kept.ite
    | dsimp only
    | split)

theorem countPhase_kept {z : State} (s : State) (prev : Option Burst) (uv : Nat) (ua : Int) (hK : Kept z s) : Kept z (countPhase s prev uv ua) := by
  unfold countPhase
  try dsimp only
  repeat' (first
    | with_reducible assumption
    | ((conv => arg 2; arg 33); with_reducible refine Kept.lit ?_ ?_ ?_) <;> [skip; rfl; exact ⟨rfl, rfl, rfl, rfl, rfl, rfl, rfl⟩]
    | with_reducible apply Kept.ite
    | dsimp only
    | split)

theorem takeMeans_kept {z : State} (s : State) (hK : Kept z s) : Kept z (takeMeans s) := by
  unfold takeMeans
  try dsimp only
  repeat' (first
    | intro _ _ _
    | intro _ _
    | intro _
    | with_reducible assumption
    | ((conv => arg 2; arg 33); with_reducible refine Kept.lit ?_ ?_ ?_) <;> [skip; rfl; exact ⟨rfl, rfl, rfl, rfl, rfl, rfl, rfl⟩]
    | with_reducible apply Kept.ite
    | with_reducible apply Kept.foldl
    | dsimp only
    | split)

theorem takeEstimates_kept {z : State} (s : State) (hK : Kept z s) : Kept z (takeEstimates s) := by
  unfold takeEstimates
  try dsimp only
  repeat' (first
    | with_reducible assumption
    | ((conv => arg 2; arg 33); with_reducible refine Kept.lit ?_ ?_ ?_) <;> [skip; rfl; exact ⟨rfl, rfl, rfl, rfl, rfl, rfl, rfl⟩]
    | with_reducible apply Kept.ite
    | dsimp only
    | split)

theorem judgeDrift_kept {z : State} (s : State) (hK : Kept z s) : Kept z (judgeDrift s) := by
  unfold judgeDrift
  try dsimp only
  repeat' (first
    | with_reducible assumption
    | ((conv => arg 2; arg 33); with_reducible refine Kept.lit ?_ ?_ ?_) <;> [skip; rfl; exact ⟨rfl, rfl, rfl, rfl, rfl, rfl, rfl⟩]
    | with_reducible apply drew_kept
    | with_reducible apply raiseLive_kept
    | with_reducible apply voidCycle_kept
    | with_reducible apply Kept.ite
    | dsimp only
    | split)

theorem holdCheck_kept {z : State} (s : State) (hK : Kept z s) : Kept z (holdCheck s) := by
  unfold holdCheck
  try dsimp only
  repeat' (first
    | with_reducible assumption
    | ((conv => arg 2; arg 33); with_reducible refine Kept.lit ?_ ?_ ?_) <;> [skip; rfl; exact ⟨rfl, rfl, rfl, rfl, rfl, rfl, rfl⟩]
    | with_reducible apply noteWon_kept
    | with_reducible apply toRailsDown_kept
    | with_reducible apply Kept.ite
    | dsimp only
    | split)

theorem judgeUsable_kept {z : State} (s : State) (hK : Kept z s) : Kept z (judgeUsable s) := by
  unfold judgeUsable
  try dsimp only
  repeat' (first
    | with_reducible assumption
    | ((conv => arg 2; arg 33); with_reducible refine Kept.lit ?_ ?_ ?_) <;> [skip; rfl; exact ⟨rfl, rfl, rfl, rfl, rfl, rfl, rfl⟩]
    | with_reducible apply clearLive_kept
    | with_reducible apply raiseLive_kept
    | with_reducible apply rehAbort_kept
    | with_reducible apply Kept.ite
    | dsimp only
    | split)

theorem learnAt_kept {z : State} (s : State) (b : Nat) (hK : Kept z s) : Kept z (learnAt s b) := by
  unfold learnAt
  try dsimp only
  repeat' (first
    | with_reducible assumption
    | ((conv => arg 2; arg 33); with_reducible refine Kept.lit ?_ ?_ ?_) <;> [skip; rfl; exact ⟨rfl, rfl, rfl, rfl, rfl, rfl, rfl⟩]
    | with_reducible apply saveLearned_kept
    | with_reducible apply Kept.ite
    | dsimp only
    | split)

theorem cmdPackInfo_kept {z : State} (f : InFlight) (s : State) (hK : Kept z s) : Kept z (cmdPackInfo f s) := by
  unfold cmdPackInfo
  try dsimp only
  repeat' (first
    | with_reducible assumption
    | ((conv => arg 2; arg 33); with_reducible refine Kept.lit ?_ ?_ ?_) <;> [skip; rfl; exact ⟨rfl, rfl, rfl, rfl, rfl, rfl, rfl⟩]
    | with_reducible apply endOut_kept
    | with_reducible apply badParam_kept
    | with_reducible apply Kept.ite
    | dsimp only
    | split)

theorem cmdGaugeRead_kept {z : State} (f : InFlight) (s : State) (hK : Kept z s) : Kept z (cmdGaugeRead f s) := by
  unfold cmdGaugeRead
  try dsimp only
  repeat' (first
    | with_reducible assumption
    | with_reducible apply endOk_kept
    | with_reducible apply Kept.ite
    | dsimp only
    | split)

theorem cmdGaugeRaw_kept {z : State} (f : InFlight) (s : State) (hK : Kept z s) : Kept z (cmdGaugeRaw f s) := by
  unfold cmdGaugeRaw
  try dsimp only
  repeat' (first
    | with_reducible assumption
    | with_reducible apply endOut_kept
    | with_reducible apply badParam_kept
    | with_reducible apply Kept.ite
    | dsimp only
    | split)

theorem ocvLoad_kept {z : State} (f : InFlight) (b : List Byte) (s : State) (hK : Kept z s) : Kept z (ocvLoad f b s) := by
  unfold ocvLoad
  try dsimp only
  repeat' (first
    | intro _ _ _
    | intro _ _
    | intro _
    | with_reducible assumption
    | ((conv => arg 2; arg 33); with_reducible refine Kept.lit ?_ ?_ ?_) <;> [skip; rfl; exact ⟨rfl, rfl, rfl, rfl, rfl, rfl, rfl⟩]
    | with_reducible apply pairWrite_kept
    | with_reducible apply finish_kept
    | with_reducible apply endWith_kept
    | with_reducible apply endOk_kept
    | with_reducible apply Kept.ite
    | dsimp only
    | split)

theorem cmdRailTableLoad_kept {z : State} (f : InFlight) (s : State) (hK : Kept z s) : Kept z (cmdRailTableLoad f s) := by
  unfold cmdRailTableLoad
  try dsimp only
  repeat' (first
    | with_reducible assumption
    | with_reducible apply railTableLoad_kept
    | with_reducible apply ocvLoad_kept)

theorem execGaugeBurst_kept {z : State} (xtal : Bool) (t : Nat) (s : State) (hK : Kept z s) {w0 : State} (eq0 : execGaugeBurst xtal t s = .next w0) : Kept z w0 := by
  unfold execGaugeBurst at eq0
  try dsimp only at eq0
  refine Kept.of_next eq0 ?_
  repeat' (first
    | intro _ _ _
    | intro _ _
    | intro _
    | with_reducible assumption
    | ((conv => arg 2; arg 33); with_reducible refine Kept.lit ?_ ?_ ?_) <;> [skip; rfl; exact ⟨rfl, rfl, rfl, rfl, rfl, rfl, rfl⟩]
    | with_reducible apply tick_kept
    | with_reducible apply clearLive_kept
    | with_reducible apply Kept.ite
    | dsimp only
    | split)

theorem execCurrentComparatorTrip_kept {z : State} (t : Nat) (s : State) (hK : Kept z s) {w0 : State} (eq0 : execCurrentComparatorTrip t s = .next w0) : Kept z w0 := by
  unfold execCurrentComparatorTrip at eq0
  try dsimp only at eq0
  refine Kept.of_next eq0 ?_
  repeat' (first
    | with_reducible assumption
    | ((conv => arg 2; arg 33); with_reducible refine Kept.lit ?_ ?_ ?_) <;> [skip; rfl; exact ⟨rfl, rfl, rfl, rfl, rfl, rfl, rfl⟩]
    | with_reducible apply tick_kept
    | with_reducible apply Kept.ite
    | dsimp only
    | split)

theorem execGaugeBurstDone_kept {z : State} (vsns : Nat) (isns : Int) (ts t : Nat) (s : State) (hK : Kept z s) {w0 : State} (eq0 : execGaugeBurstDone vsns isns ts t s = .next w0) : Kept z w0 := by
  unfold execGaugeBurstDone at eq0
  try dsimp only at eq0
  refine Kept.of_next eq0 ?_
  repeat' (first
    | intro _ _ _
    | intro _ _
    | intro _
    | with_reducible assumption
    | ((conv => arg 2; arg 33); with_reducible refine Kept.lit ?_ ?_ ?_) <;> [skip; rfl; exact ⟨rfl, rfl, rfl, rfl, rfl, rfl, rfl⟩]
    | with_reducible apply tick_kept
    | with_reducible apply drew_kept
    | with_reducible apply raiseOpen_kept
    | with_reducible apply voidCycle_kept
    | with_reducible apply rehAbort_kept
    | with_reducible apply judgeSensor_kept
    | with_reducible apply judgeEod_kept
    | with_reducible apply judgeResistance_kept
    | with_reducible apply countCharge_kept
    | with_reducible apply judgeRest_kept
    | with_reducible apply countPhase_kept
    | with_reducible apply Kept.ite
    | dsimp only
    | split)

theorem execGaugeUpdate_kept {z : State} (t : Nat) (s : State) (hK : Kept z s) {w0 : State} (eq0 : execGaugeUpdate t s = .next w0) : Kept z w0 := by
  unfold execGaugeUpdate at eq0
  try dsimp only at eq0
  refine Kept.of_next eq0 ?_
  repeat' (first
    | intro _ _ _
    | intro _ _
    | intro _
    | with_reducible assumption
    | ((conv => arg 2; arg 33); with_reducible refine Kept.lit ?_ ?_ ?_) <;> [skip; rfl; exact ⟨rfl, rfl, rfl, rfl, rfl, rfl, rfl⟩]
    | with_reducible apply tick_kept
    | with_reducible apply clearLive_kept
    | with_reducible apply anchorAt_kept
    | with_reducible apply judgeBins_kept
    | with_reducible apply takeMeans_kept
    | with_reducible apply takeEstimates_kept
    | with_reducible apply judgeDrift_kept
    | with_reducible apply holdCheck_kept
    | with_reducible apply judgeUsable_kept
    | with_reducible apply Kept.ite
    | dsimp only
    | split)

theorem execRestPoint_kept {z : State} (t : Nat) (s : State) (hK : Kept z s) {w0 : State} (eq0 : execRestPoint t s = .next w0) : Kept z w0 := by
  unfold execRestPoint at eq0
  try dsimp only at eq0
  refine Kept.of_next eq0 ?_
  repeat' (first
    | intro _ _ _
    | intro _ _
    | intro _
    | with_reducible assumption
    | ((conv => arg 2; arg 33); with_reducible refine Kept.lit ?_ ?_ ?_) <;> [skip; rfl; exact ⟨rfl, rfl, rfl, rfl, rfl, rfl, rfl⟩]
    | with_reducible apply tick_kept
    | with_reducible apply clearLive_kept
    | with_reducible apply anchorAt_kept
    | with_reducible apply learnAt_kept
    | with_reducible apply Kept.ite
    | with_reducible apply Kept.foldl
    | dsimp only
    | split)

theorem execPackIdRead_kept {z : State} (data : List Byte) (ok : Bool) (t : Nat) (s : State) (hK : Kept z s) {w0 : State} (eq0 : execPackIdRead data ok t s = .next w0) : Kept z w0 := by
  unfold execPackIdRead at eq0
  try dsimp only at eq0
  refine Kept.of_next eq0 ?_
  repeat' (first
    | with_reducible assumption
    | ((conv => arg 2; arg 33); with_reducible refine Kept.lit ?_ ?_ ?_) <;> [skip; rfl; exact ⟨rfl, rfl, rfl, rfl, rfl, rfl, rfl⟩]
    | with_reducible apply tick_kept
    | with_reducible apply packSwap_kept
    | with_reducible apply Kept.ite
    | dsimp only
    | split)

theorem execProtectorRead_kept {z : State} (word : Nat) (ok : Bool) (t : Nat) (s : State) (hK : Kept z s) {w0 : State} (eq0 : execProtectorRead word ok t s = .next w0) : Kept z w0 := by
  unfold execProtectorRead at eq0
  try dsimp only at eq0
  refine Kept.of_next eq0 ?_
  repeat' (first
    | with_reducible assumption
    | ((conv => arg 2; arg 33); with_reducible refine Kept.lit ?_ ?_ ?_) <;> [skip; rfl; exact ⟨rfl, rfl, rfl, rfl, rfl, rfl, rfl⟩]
    | with_reducible apply tick_kept
    | with_reducible apply rehAbort_kept
    | with_reducible apply Kept.ite
    | dsimp only
    | split)

theorem execPackInfo_kept {z : State} (c : TrellisCmd) (s : State) (hK : Kept z s) {w0 : State} (eq0 : execPackInfo c s = .next w0) : Kept z w0 := by
  unfold execPackInfo at eq0
  try dsimp only at eq0
  refine Kept.of_next eq0 ?_
  repeat' (first
    | intro _ _ _
    | intro _ _
    | intro _
    | with_reducible assumption
    | with_reducible apply submit_kept
    | with_reducible apply cmdPackInfo_kept)

theorem execGaugeRead_kept {z : State} (c : TrellisCmd) (s : State) (hK : Kept z s) {w0 : State} (eq0 : execGaugeRead c s = .next w0) : Kept z w0 := by
  unfold execGaugeRead at eq0
  try dsimp only at eq0
  refine Kept.of_next eq0 ?_
  repeat' (first
    | intro _ _ _
    | intro _ _
    | intro _
    | with_reducible assumption
    | with_reducible apply submit_kept
    | with_reducible apply cmdGaugeRead_kept)

theorem execGaugeRaw_kept {z : State} (c : TrellisCmd) (s : State) (hK : Kept z s) {w0 : State} (eq0 : execGaugeRaw c s = .next w0) : Kept z w0 := by
  unfold execGaugeRaw at eq0
  try dsimp only at eq0
  refine Kept.of_next eq0 ?_
  repeat' (first
    | intro _ _ _
    | intro _ _
    | intro _
    | with_reducible assumption
    | with_reducible apply submit_kept
    | with_reducible apply cmdGaugeRaw_kept)

theorem execRailTableLoad_kept {z : State} (c : TrellisCmd) (s : State) (hK : Kept z s) {w0 : State} (eq0 : execRailTableLoad c s = .next w0) : Kept z w0 := by
  unfold execRailTableLoad at eq0
  try dsimp only at eq0
  refine Kept.of_next eq0 ?_
  repeat' (first
    | intro _ _ _
    | intro _ _
    | intro _
    | with_reducible assumption
    | with_reducible apply submit_kept
    | with_reducible apply cmdRailTableLoad_kept)

end Sys2Proof.Machine
end

