-- ==== Sys2Proof/Laws/KeptData.lean ====
section
/-! SUPPORT. What the functions of Dram, Beds, Link, Flash, Drip, Harvest keep (Laws/Kept.lean). -/

namespace Sys2Proof.Machine

open Sys2Proof

set_option linter.unusedTactic false
set_option linter.unreachableTactic false

/-! ### Dram -/

theorem setDdr_kept {z : State} (s : State) (c : Nat) (x : Ddr) (hK : Kept z s) : Kept z (setDdr s c x) := by
  unfold setDdr
  try dsimp only
  repeat' (first
    | with_reducible assumption
    | ((conv => arg 2; arg 33); with_reducible refine Kept.lit ?_ ?_ ?_) <;> [skip; rfl; exact ⟨rfl, rfl, rfl, rfl, rfl, rfl, rfl⟩])

theorem setCrc_kept {z : State} (s : State) (g v : Nat) (hK : Kept z s) : Kept z (setCrc s g v) := by
  unfold setCrc
  try dsimp only
  repeat' (first
    | with_reducible assumption
    | ((conv => arg 2; arg 33); with_reducible refine Kept.lit ?_ ?_ ?_) <;> [skip; rfl; exact ⟨rfl, rfl, rfl, rfl, rfl, rfl, rfl⟩]
    | ((conv => arg 2; arg 33); with_reducible refine Kept.litNil ?_ ?_ ?_) <;> [skip; rfl; exact ⟨rfl, rfl, rfl, rfl, rfl, rfl, rfl⟩]
    | with_reducible apply Kept.ite
    | dsimp only
    | split)

theorem putLine_kept {z : State} (s : State) (l : Nat) (d : List Byte) (pois : Bool) (hK : Kept z s) :
    Kept z (putLine s l d pois) :=
  ⟨hK.queue, hK.clock, fun h => memWf_mwriteN _ _ (hK.form h), hK.fuses, hK.draws, hK.out⟩

theorem storeLine_kept {z : State} (s : State) (l : Nat) (d : List Byte) (pois : Bool) (hK : Kept z s) : Kept z (storeLine s l d pois) := by
  unfold storeLine
  try dsimp only
  repeat' (first
    | with_reducible assumption
    | with_reducible apply setCrc_kept
    | with_reducible apply putLine_kept
    | with_reducible apply Kept.ite
    | dsimp only
    | split)

theorem corrected_kept {z : State} (s : State) (l dev : Nat) (hK : Kept z s) : Kept z (corrected s l dev) := by
  unfold corrected
  try dsimp only
  repeat' (first
    | intro _ _ _
    | intro _ _
    | intro _
    | with_reducible assumption
    | ((conv => arg 2; arg 33); with_reducible refine Kept.lit ?_ ?_ ?_) <;> [skip; rfl; exact ⟨rfl, rfl, rfl, rfl, rfl, rfl, rfl⟩]
    | with_reducible apply setFld_kept
    | with_reducible apply bump_kept
    | with_reducible apply raiseOpen_kept
    | with_reducible apply setDdr_kept
    | with_reducible apply Kept.ite
    | dsimp only
    | split)

theorem noteUe_kept {z : State} (s : State) (l : Nat) (hK : Kept z s) : Kept z (noteUe s l) := by
  unfold noteUe
  try dsimp only
  repeat' (first
    | with_reducible assumption
    | ((conv => arg 2; arg 33); with_reducible refine Kept.lit ?_ ?_ ?_) <;> [skip; rfl; exact ⟨rfl, rfl, rfl, rfl, rfl, rfl, rfl⟩]
    | with_reducible apply setFld_kept
    | with_reducible apply bump_kept
    | with_reducible apply setDdr_kept
    | ((conv => arg 2; arg 33); with_reducible refine Kept.litNil ?_ ?_ ?_) <;> [skip; rfl; exact ⟨rfl, rfl, rfl, rfl, rfl, rfl, rfl⟩]
    | with_reducible apply Kept.ite
    | dsimp only
    | split)

theorem beginRebuild_kept {z : State} (s : State) (g : Nat) (hK : Kept z s) : Kept z (beginRebuild s g) := by
  unfold beginRebuild
  try dsimp only
  repeat' (first
    | with_reducible assumption
    | ((conv => arg 2; arg 33); with_reducible refine Kept.lit ?_ ?_ ?_) <;> [skip; rfl; exact ⟨rfl, rfl, rfl, rfl, rfl, rfl, rfl⟩]
    | with_reducible apply setDdr_kept
    | ((conv => arg 2; arg 33); with_reducible refine Kept.litNil ?_ ?_ ?_) <;> [skip; rfl; exact ⟨rfl, rfl, rfl, rfl, rfl, rfl, rfl⟩])

theorem internalUe_kept {z : State} (s : State) (l : Nat) (hK : Kept z s) : Kept z (internalUe s l) := by
  unfold internalUe
  try dsimp only
  repeat' (first
    | with_reducible assumption
    | with_reducible apply raise_kept
    | with_reducible apply putLine_kept
    | with_reducible apply noteUe_kept
    | with_reducible apply beginRebuild_kept)

theorem internalUes_kept {z : State} (s : State) (ls : List Nat) (hK : Kept z s) : Kept z (internalUes s ls) := by
  unfold internalUes
  try dsimp only
  repeat' (first
    | intro _ _ _
    | intro _ _
    | intro _
    | with_reducible assumption
    | with_reducible apply internalUe_kept
    | with_reducible apply Kept.foldl)

theorem putGran_kept {z : State} (s : State) (g : Nat) (cells : List Host.Cell) (pois : List Nat) (hK : Kept z s) :
    Kept z (putGran s g cells pois) :=
  setCrc_kept _ _ _ ⟨hK.queue, hK.clock, fun h => memWf_mpaste _ _ _ (hK.form h), hK.fuses, hK.draws, hK.out⟩

theorem zeroGran_kept {z : State} (s : State) (g : Nat) (hK : Kept z s) : Kept z (zeroGran s g) := by
  unfold zeroGran
  try dsimp only
  repeat' (first
    | with_reducible assumption
    | with_reducible apply putGran_kept)

theorem enqueue_kept {z : State} (s : State) (n l : Nat) (write : Bool) (hK : Kept z s) : Kept z (enqueue s n l write) := by
  unfold enqueue
  try dsimp only
  repeat' (first
    | with_reducible assumption
    | ((conv => arg 2; arg 33); with_reducible refine Kept.lit ?_ ?_ ?_) <;> [skip; rfl; exact ⟨rfl, rfl, rfl, rfl, rfl, rfl, rfl⟩]
    | with_reducible apply setDdr_kept
    | with_reducible apply Kept.ite
    | dsimp only
    | split)

theorem issueAll_kept {z : State} (s : State) (hK : Kept z s) : Kept z (issueAll s) := by
  unfold issueAll
  try dsimp only
  repeat' (first
    | intro _ _ _
    | intro _ _
    | intro _
    | with_reducible assumption
    | ((conv => arg 2; arg 33); with_reducible refine Kept.lit ?_ ?_ ?_) <;> [skip; rfl; exact ⟨rfl, rfl, rfl, rfl, rfl, rfl, rfl⟩])

theorem probeLane_kept {z : State} (s : State) (c : Nat) (p : LaneProbe) (hK : Kept z s) : Kept z (probeLane s c p) := by
  unfold probeLane
  try dsimp only
  repeat' (first
    | with_reducible assumption
    | ((conv => arg 2; arg 33); with_reducible refine Kept.lit ?_ ?_ ?_) <;> [skip; rfl; exact ⟨rfl, rfl, rfl, rfl, rfl, rfl, rfl⟩]
    | with_reducible apply bump_kept
    | with_reducible apply raiseOpen_kept
    | with_reducible apply setDdr_kept
    | with_reducible apply Kept.ite
    | dsimp only
    | split)

theorem startPass_kept {z : State} (s : State) (c : Nat) (hK : Kept z s) : Kept z (startPass s c) := by
  unfold startPass
  try dsimp only
  repeat' (first
    | with_reducible assumption
    | ((conv => arg 2; arg 33); with_reducible refine Kept.lit ?_ ?_ ?_) <;> [skip; rfl; exact ⟨rfl, rfl, rfl, rfl, rfl, rfl, rfl⟩]
    | with_reducible apply setDdr_kept
    | with_reducible apply Kept.ite
    | dsimp only
    | split)

theorem laneDelayWritten_kept {z : State} (s : State) (c lane v : Nat) (hK : Kept z s) : Kept z (laneDelayWritten s c lane v) := by
  unfold laneDelayWritten
  try dsimp only
  repeat' (first
    | with_reducible assumption
    | ((conv => arg 2; arg 33); with_reducible refine Kept.lit ?_ ?_ ?_) <;> [skip; rfl; exact ⟨rfl, rfl, rfl, rfl, rfl, rfl, rfl⟩]
    | with_reducible apply setDdr_kept)

theorem stripesRead_kept {z : State} (s : State) (c : Nat) (hK : Kept z s) : Kept z (stripesRead s c) := by
  unfold stripesRead
  try dsimp only
  repeat' (first
    | intro _ _ _
    | intro _ _
    | intro _
    | with_reducible assumption
    | ((conv => arg 2; arg 33); with_reducible refine Kept.lit ?_ ?_ ?_) <;> [skip; rfl; exact ⟨rfl, rfl, rfl, rfl, rfl, rfl, rfl⟩]
    | with_reducible apply Kept.ite
    | with_reducible apply Kept.foldl
    | dsimp only
    | split)

theorem scrubRateWritten_kept {z : State} (s : State) (c v : Nat) (hK : Kept z s) : Kept z (scrubRateWritten s c v) := by
  unfold scrubRateWritten
  try dsimp only
  repeat' (first
    | with_reducible assumption
    | with_reducible apply setFld_kept
    | with_reducible apply Kept.ite
    | dsimp only
    | split)

theorem storeOverUe_kept {z : State} (s : State) (l : Nat) (d : List Byte) (pois : Bool) (hK : Kept z s) : Kept z (storeOverUe s l d pois) := by
  unfold storeOverUe
  try dsimp only
  repeat' (first
    | with_reducible assumption
    | with_reducible apply raise_kept
    | with_reducible apply putLine_kept
    | with_reducible apply noteUe_kept
    | with_reducible apply beginRebuild_kept)

theorem writeLine_kept {z : State} (s : State) (l : Nat) (d : List Byte) (pois : Bool) (hK : Kept z s) : Kept z (writeLine s l d pois) := by
  unfold writeLine
  try dsimp only
  repeat' (first
    | with_reducible assumption
    | with_reducible apply storeLine_kept
    | with_reducible apply storeOverUe_kept
    | with_reducible apply Kept.ite
    | dsimp only
    | split)

theorem execRequestUrgent_kept {z : State} (c n t : Nat) (s : State) (hK : Kept z s) {w0 : State} (eq0 : execRequestUrgent c n t s = .next w0) : Kept z w0 := by
  unfold execRequestUrgent at eq0
  try dsimp only at eq0
  refine Kept.of_next eq0 ?_
  repeat' (first
    | intro _ _ _
    | intro _ _
    | intro _
    | with_reducible assumption
    | ((conv => arg 2; arg 33); with_reducible refine Kept.lit ?_ ?_ ?_) <;> [skip; rfl; exact ⟨rfl, rfl, rfl, rfl, rfl, rfl, rfl⟩]
    | with_reducible apply tick_kept
    | with_reducible apply setDdr_kept
    | with_reducible apply Kept.ite
    | dsimp only
    | split)

theorem execRefreshDue_kept {z : State} (c rank : Nat) (hot : Bool) (probe : List LaneProbe) (t : Nat) (s : State) (hK : Kept z s) {w0 : State} (eq0 : execRefreshDue c rank hot probe t s = .next w0) : Kept z w0 := by
  unfold execRefreshDue at eq0
  try dsimp only at eq0
  refine Kept.of_next eq0 ?_
  repeat' (first
    | intro _ _ _
    | intro _ _
    | intro _
    | with_reducible assumption
    | ((conv => arg 2; arg 33); with_reducible refine Kept.lit ?_ ?_ ?_) <;> [skip; rfl; exact ⟨rfl, rfl, rfl, rfl, rfl, rfl, rfl⟩]
    | with_reducible apply tick_kept
    | with_reducible apply setDdr_kept
    | with_reducible apply probeLane_kept
    | with_reducible apply Kept.ite
    | with_reducible apply Kept.foldl
    | dsimp only
    | split)

theorem execRetrainDue_kept {z : State} (c t : Nat) (s : State) (hK : Kept z s) {w0 : State} (eq0 : execRetrainDue c t s = .next w0) : Kept z w0 := by
  unfold execRetrainDue at eq0
  try dsimp only at eq0
  refine Kept.of_next eq0 ?_
  repeat' (first
    | with_reducible assumption
    | with_reducible apply tick_kept
    | with_reducible apply startPass_kept
    | with_reducible apply Kept.ite
    | dsimp only
    | split)

theorem execDimmTempPoll_kept {z : State} (c : Nat) (temps : List Nat) (t : Nat) (s : State) (hK : Kept z s) {w0 : State} (eq0 : execDimmTempPoll c temps t s = .next w0) : Kept z w0 := by
  unfold execDimmTempPoll at eq0
  try dsimp only at eq0
  refine Kept.of_next eq0 ?_
  repeat' (first
    | intro _ _ _
    | intro _ _
    | intro _
    | with_reducible assumption
    | ((conv => arg 2; arg 33); with_reducible refine Kept.lit ?_ ?_ ?_) <;> [skip; rfl; exact ⟨rfl, rfl, rfl, rfl, rfl, rfl, rfl⟩]
    | with_reducible apply tick_kept
    | with_reducible apply setDdr_kept
    | with_reducible apply startPass_kept
    | with_reducible apply Kept.ite
    | with_reducible apply Kept.foldl
    | dsimp only
    | split)

theorem execHostDelayApply_kept {z : State} (c lane : Nat) (ok : Bool) (t : Nat) (s : State) (hK : Kept z s) {w0 : State} (eq0 : execHostDelayApply c lane ok t s = .next w0) : Kept z w0 := by
  unfold execHostDelayApply at eq0
  try dsimp only at eq0
  refine Kept.of_next eq0 ?_
  repeat' (first
    | with_reducible assumption
    | ((conv => arg 2; arg 33); with_reducible refine Kept.lit ?_ ?_ ?_) <;> [skip; rfl; exact ⟨rfl, rfl, rfl, rfl, rfl, rfl, rfl⟩]
    | with_reducible apply tick_kept
    | with_reducible apply setDdr_kept
    | with_reducible apply Kept.ite
    | dsimp only
    | split)

theorem execSelfRefreshEntry_kept {z : State} (c t : Nat) (s : State) (hK : Kept z s) {w0 : State} (eq0 : execSelfRefreshEntry c t s = .next w0) : Kept z w0 := by
  unfold execSelfRefreshEntry at eq0
  try dsimp only at eq0
  refine Kept.of_next eq0 ?_
  repeat' (first
    | with_reducible assumption
    | ((conv => arg 2; arg 33); with_reducible refine Kept.lit ?_ ?_ ?_) <;> [skip; rfl; exact ⟨rfl, rfl, rfl, rfl, rfl, rfl, rfl⟩]
    | with_reducible apply tick_kept
    | with_reducible apply setDdr_kept
    | with_reducible apply stripesRead_kept
    | with_reducible apply Kept.ite
    | dsimp only
    | split)

theorem execSelfRefreshExit_kept {z : State} (c t : Nat) (s : State) (hK : Kept z s) {w0 : State} (eq0 : execSelfRefreshExit c t s = .next w0) : Kept z w0 := by
  unfold execSelfRefreshExit at eq0
  try dsimp only at eq0
  refine Kept.of_next eq0 ?_
  repeat' (first
    | intro _ _ _
    | intro _ _
    | intro _
    | with_reducible assumption
    | ((conv => arg 2; arg 33); with_reducible refine Kept.lit ?_ ?_ ?_) <;> [skip; rfl; exact ⟨rfl, rfl, rfl, rfl, rfl, rfl, rfl⟩]
    | with_reducible apply tick_kept
    | with_reducible apply setDdr_kept
    | with_reducible apply Kept.ite
    | dsimp only
    | split)

/-! ### Beds -/

theorem setBed_kept {z : State} (s : State) (b : Nat) (x : Bed) (hK : Kept z s) : Kept z (setBed s b x) := by
  unfold setBed
  try dsimp only
  repeat' (first
    | with_reducible assumption
    | ((conv => arg 2; arg 33); with_reducible refine Kept.lit ?_ ?_ ?_) <;> [skip; rfl; exact ⟨rfl, rfl, rfl, rfl, rfl, rfl, rfl⟩])

theorem judgeTines_kept {z : State} (s : State) (hK : Kept z s) : Kept z (judgeTines s) := by
  unfold judgeTines
  try dsimp only
  repeat' (first
    | with_reducible assumption
    | ((conv => arg 2; arg 33); with_reducible refine Kept.lit ?_ ?_ ?_) <;> [skip; rfl; exact ⟨rfl, rfl, rfl, rfl, rfl, rfl, rfl⟩]
    | with_reducible apply drew_kept
    | with_reducible apply clearLive_kept
    | with_reducible apply raiseLive_kept
    | with_reducible apply Kept.ite
    | dsimp only
    | split)

theorem place_kept {z : State} (s : State) (b : Nat) (c : Cutting) (hK : Kept z s) : Kept z (place s b c) := by
  unfold place
  try dsimp only
  repeat' (first
    | with_reducible assumption
    | ((conv => arg 2; arg 33); with_reducible refine Kept.lit ?_ ?_ ?_) <;> [skip; rfl; exact ⟨rfl, rfl, rfl, rfl, rfl, rfl, rfl⟩]
    | with_reducible apply setBed_kept
    | with_reducible apply Kept.ite
    | dsimp only
    | split)

theorem push_kept {z : State} (s : State) (c : Cutting) (hK : Kept z s) : Kept z (push s c) := by
  unfold push
  try dsimp only
  repeat' (first
    | intro _ _ _
    | intro _ _
    | intro _
    | with_reducible assumption
    | ((conv => arg 2; arg 33); with_reducible refine Kept.lit ?_ ?_ ?_) <;> [skip; rfl; exact ⟨rfl, rfl, rfl, rfl, rfl, rfl, rfl⟩]
    | with_reducible apply bump_kept
    | with_reducible apply place_kept
    | dsimp only
    | split)

theorem newCutting_kept {z : State} (s : State) (typ a b c : Nat) (why : ProgWhy) (urgent : Bool) (hK : Kept z s) : Kept z (newCutting s typ a b c why urgent) := by
  unfold newCutting
  try dsimp only
  repeat' (first
    | with_reducible assumption
    | ((conv => arg 2; arg 33); with_reducible refine Kept.lit ?_ ?_ ?_) <;> [skip; rfl; exact ⟨rfl, rfl, rfl, rfl, rfl, rfl, rfl⟩]
    | with_reducible apply push_kept)

theorem repush_kept {z : State} (s : State) (hK : Kept z s) : Kept z (repush s) := by
  unfold repush
  try dsimp only
  repeat' (first
    | intro _ _ _
    | intro _ _
    | intro _
    | with_reducible assumption
    | ((conv => arg 2; arg 33); with_reducible refine Kept.lit ?_ ?_ ?_) <;> [skip; rfl; exact ⟨rfl, rfl, rfl, rfl, rfl, rfl, rfl⟩]
    | with_reducible apply place_kept
    | with_reducible apply Kept.foldl
    | dsimp only
    | split)

theorem onTine_kept {z : State} (s : State) (n : Nat) (c : Cutting) (hK : Kept z s) : Kept z (onTine s n c) := by
  unfold onTine
  try dsimp only
  repeat' (first
    | with_reducible assumption
    | ((conv => arg 2; arg 33); with_reducible refine Kept.lit ?_ ?_ ?_) <;> [skip; rfl; exact ⟨rfl, rfl, rfl, rfl, rfl, rfl, rfl⟩])

theorem stealFrom_kept {z : State} (s : State) (thief v : Nat) (urgent : Bool) (hK : Kept z s) : Kept z (stealFrom s thief v urgent) := by
  unfold stealFrom
  try dsimp only
  repeat' (first
    | with_reducible assumption
    | ((conv => arg 2; arg 33); with_reducible refine Kept.lit ?_ ?_ ?_) <;> [skip; rfl; exact ⟨rfl, rfl, rfl, rfl, rfl, rfl, rfl⟩]
    | with_reducible apply bump_kept
    | with_reducible apply setBed_kept
    | with_reducible apply Kept.ite
    | dsimp only
    | split)

theorem steal_kept {z : State} (s : State) (b : Nat) (hK : Kept z s) : Kept z (steal s b) := by
  unfold steal
  try dsimp only
  repeat' (first
    | intro _ _ _
    | intro _ _
    | intro _
    | with_reducible assumption
    | ((conv => arg 2; arg 33); with_reducible refine Kept.lit ?_ ?_ ?_) <;> [skip; rfl; exact ⟨rfl, rfl, rfl, rfl, rfl, rfl, rfl⟩]
    | with_reducible apply stealFrom_kept
    | dsimp only
    | split)

theorem takeOwn_kept {z s x : State} {b n : Nat} (e : takeOwn s b n = some x) (hK : Kept z s) : Kept z x := by
  unfold takeOwn at e
  dsimp only at e
  split at e
  · injection e with e
    exact e ▸ onTine_kept _ _ _ (setBed_kept _ _ _ hK)
  · injection e with e
    exact e ▸ onTine_kept _ _ _ (setBed_kept _ _ _ hK)
  · cases e
theorem feedTine_kept {z : State} (s : State) (n : Nat) (hK : Kept z s) : Kept z (feedTine s n) := by
  unfold feedTine
  dsimp only
  split
  · exact hK
  · split
    · exact takeOwn_kept ‹_› hK
    · have h1 := steal_kept s (n / 8) hK
      cases h : takeOwn (steal s (n / 8)) (n / 8) n with
      | none => exact h1
      | some x => exact takeOwn_kept h h1

theorem feed_kept {z : State} (s : State) (hK : Kept z s) : Kept z (feed s) := by
  unfold feed
  try dsimp only
  repeat' (first
    | intro _ _ _
    | intro _ _
    | intro _
    | with_reducible assumption
    | with_reducible apply repush_kept
    | with_reducible apply feedTine_kept
    | with_reducible apply Kept.ite
    | with_reducible apply Kept.foldl
    | dsimp only
    | split)

theorem scrubWork_kept {z : State} (s : State) (hK : Kept z s) : Kept z (scrubWork s) := by
  unfold scrubWork
  try dsimp only
  repeat' (first
    | intro _ _ _
    | intro _ _
    | intro _
    | with_reducible assumption
    | ((conv => arg 2; arg 33); with_reducible refine Kept.lit ?_ ?_ ?_) <;> [skip; rfl; exact ⟨rfl, rfl, rfl, rfl, rfl, rfl, rfl⟩]
    | with_reducible apply setDdr_kept
    | with_reducible apply newCutting_kept
    | with_reducible apply Kept.ite
    | with_reducible apply Kept.foldl
    | dsimp only
    | split)

theorem scrubNext_kept {z : State} (s : State) (c : Nat) (hK : Kept z s) : Kept z (scrubNext s c) := by
  unfold scrubNext
  try dsimp only
  repeat' (first
    | with_reducible assumption
    | ((conv => arg 2; arg 33); with_reducible refine Kept.lit ?_ ?_ ?_) <;> [skip; rfl; exact ⟨rfl, rfl, rfl, rfl, rfl, rfl, rfl⟩]
    | with_reducible apply setDdr_kept
    | with_reducible apply Kept.ite
    | dsimp only
    | split)

theorem execBedClockStop_kept {z : State} (b t : Nat) (s : State) (hK : Kept z s) {w0 : State} (eq0 : execBedClockStop b t s = .next w0) : Kept z w0 := by
  unfold execBedClockStop at eq0
  try dsimp only at eq0
  refine Kept.of_next eq0 ?_
  repeat' (first
    | with_reducible assumption
    | ((conv => arg 2; arg 33); with_reducible refine Kept.lit ?_ ?_ ?_) <;> [skip; rfl; exact ⟨rfl, rfl, rfl, rfl, rfl, rfl, rfl⟩]
    | with_reducible apply tick_kept
    | with_reducible apply setBed_kept
    | with_reducible apply Kept.ite
    | dsimp only
    | split)

theorem execBedWake_kept {z : State} (t : Nat) (s : State) (hK : Kept z s) {w0 : State} (eq0 : execBedWake t s = .next w0) : Kept z w0 := by
  unfold execBedWake at eq0
  try dsimp only at eq0
  refine Kept.of_next eq0 ?_
  repeat' (first
    | intro _ _ _
    | intro _ _
    | intro _
    | with_reducible assumption
    | ((conv => arg 2; arg 33); with_reducible refine Kept.lit ?_ ?_ ?_) <;> [skip; rfl; exact ⟨rfl, rfl, rfl, rfl, rfl, rfl, rfl⟩]
    | with_reducible apply tick_kept
    | with_reducible apply setBed_kept
    | with_reducible apply feed_kept
    | with_reducible apply Kept.ite
    | dsimp only
    | split)

theorem execScrubChunk_kept {z : State} (c : Nat) (ces : List (Nat × Nat)) (ues : List Nat) (t : Nat) (s : State) (hK : Kept z s) {w0 : State} (eq0 : execScrubChunk c ces ues t s = .next w0) : Kept z w0 := by
  unfold execScrubChunk at eq0
  try dsimp only at eq0
  refine Kept.of_next eq0 ?_
  repeat' (first
    | intro _ _ _
    | intro _ _
    | intro _
    | with_reducible assumption
    | ((conv => arg 2; arg 33); with_reducible refine Kept.lit ?_ ?_ ?_) <;> [skip; rfl; exact ⟨rfl, rfl, rfl, rfl, rfl, rfl, rfl⟩]
    | with_reducible apply tick_kept
    | with_reducible apply corrected_kept
    | with_reducible apply internalUes_kept
    | with_reducible apply scrubNext_kept
    | with_reducible apply Kept.ite
    | with_reducible apply Kept.foldl
    | dsimp only
    | split)

/-! ### Link -/

theorem sendHeld_kept {z : State} (s : State) (cold : Bool) (hK : Kept z s) : Kept z (sendHeld s cold) := by
  unfold sendHeld
  try dsimp only
  repeat' (first
    | intro _ _ _
    | intro _ _
    | intro _
    | with_reducible assumption
    | ((conv => arg 2; arg 33); with_reducible refine Kept.lit ?_ ?_ ?_) <;> [skip; rfl; exact ⟨rfl, rfl, rfl, rfl, rfl, rfl, rfl⟩]
    | with_reducible apply setSide_kept
    | with_reducible apply sendNow_kept
    | with_reducible apply Kept.ite
    | with_reducible apply Kept.foldl
    | dsimp only
    | split)

theorem resend_kept {z : State} (s : State) (cold : Bool) (hK : Kept z s) : Kept z (resend s cold) := by
  unfold resend
  try dsimp only
  repeat' (first
    | intro _ _ _
    | intro _ _
    | intro _
    | with_reducible assumption
    | ((conv => arg 2; arg 33); with_reducible refine Kept.lit ?_ ?_ ?_) <;> [skip; rfl; exact ⟨rfl, rfl, rfl, rfl, rfl, rfl, rfl⟩]
    | with_reducible apply emit_kept
    | with_reducible apply setSide_kept
    | with_reducible apply Kept.ite
    | with_reducible apply Kept.foldl
    | dsimp only
    | split)

theorem sendSummary_kept {z : State} (s : State) (r : Nat) (set : Bool) (hK : Kept z s) : Kept z (sendSummary s r set) := by
  unfold sendSummary
  try dsimp only
  repeat' (first
    | with_reducible assumption
    | with_reducible apply sendFrame_kept)

theorem sendBound_kept {z : State} (s : State) (b : Nat) (hK : Kept z s) : Kept z (sendBound s b) := by
  unfold sendBound
  try dsimp only
  repeat' (first
    | with_reducible assumption
    | with_reducible apply sendFrame_kept)

theorem bridgeTake_kept {z : State} (s : State) (a : RegAcc) (write : Bool) (v : Nat) (cmd : Option Nat) (hK : Kept z s) : Kept z (bridgeTake s a write v cmd) := by
  unfold bridgeTake
  try dsimp only
  repeat' (first
    | with_reducible assumption
    | ((conv => arg 2; arg 33); with_reducible refine Kept.lit ?_ ?_ ?_) <;> [skip; rfl; exact ⟨rfl, rfl, rfl, rfl, rfl, rfl, rfl⟩]
    | with_reducible apply sendFrame_kept
    | with_reducible apply Kept.ite
    | dsimp only
    | split)

theorem arrive_kept {z s x : State} {cold : Bool} {typ : Nat} {f : D2dFrame} (e : arrive s cold typ = some (f, x))
   (hK : Kept z s) : Kept z x := by
  unfold arrive at e
  dsimp only at e
  split at e
  · cases e
  · split at e
    · cases e
    · split at e
      · cases e
      · injection e with e
        injection e with e1 e2
        exact e2 ▸ emit_kept _ _ (setSide_kept _ _ _ hK)

theorem execD2dAck_kept {z : State} (cold : Bool) (t : Nat) (s : State) (hK : Kept z s) {w0 : State} (eq0 : execD2dAck cold t s = .next w0) : Kept z w0 := by
  unfold execD2dAck at eq0
  try dsimp only at eq0
  refine Kept.of_next eq0 ?_
  repeat' (first
    | intro _ _ _
    | intro _ _
    | intro _
    | with_reducible assumption
    | ((conv => arg 2; arg 33); with_reducible refine Kept.lit ?_ ?_ ?_) <;> [skip; rfl; exact ⟨rfl, rfl, rfl, rfl, rfl, rfl, rfl⟩]
    | with_reducible apply tick_kept
    | with_reducible apply setSide_kept
    | with_reducible apply sendHeld_kept
    | with_reducible apply Kept.ite
    | dsimp only
    | split)

theorem execD2dNak_kept {z : State} (cold : Bool) (t : Nat) (s : State) (hK : Kept z s) {w0 : State} (eq0 : execD2dNak cold t s = .next w0) : Kept z w0 := by
  unfold execD2dNak at eq0
  try dsimp only at eq0
  refine Kept.of_next eq0 ?_
  repeat' (first
    | with_reducible assumption
    | with_reducible apply tick_kept
    | with_reducible apply resend_kept)

theorem execD2dResendTimeout_kept {z : State} (cold : Bool) (t : Nat) (s : State) (hK : Kept z s) {w0 : State} (eq0 : execD2dResendTimeout cold t s = .next w0) : Kept z w0 := by
  unfold execD2dResendTimeout at eq0
  try dsimp only at eq0
  refine Kept.of_next eq0 ?_
  repeat' (first
    | with_reducible assumption
    | with_reducible apply tick_kept
    | with_reducible apply resend_kept
    | with_reducible apply Kept.ite
    | dsimp only
    | split)

theorem execD2dFrameError_kept {z : State} (cold : Bool) (w : Word) (t : Nat) (s : State) (hK : Kept z s) {w0 : State} (eq0 : execD2dFrameError cold w t s = .next w0) : Kept z w0 := by
  unfold execD2dFrameError at eq0
  try dsimp only at eq0
  refine Kept.of_next eq0 ?_
  repeat' (first
    | with_reducible assumption
    | ((conv => arg 2; arg 33); with_reducible refine Kept.lit ?_ ?_ ?_) <;> [skip; rfl; exact ⟨rfl, rfl, rfl, rfl, rfl, rfl, rfl⟩]
    | with_reducible apply emit_kept
    | with_reducible apply tick_kept
    | with_reducible apply Kept.ite
    | dsimp only
    | split)

theorem execD2dRetrain_kept {z : State} (t : Nat) (s : State) (hK : Kept z s) {w0 : State} (eq0 : execD2dRetrain t s = .next w0) : Kept z w0 := by
  unfold execD2dRetrain at eq0
  try dsimp only at eq0
  refine Kept.of_next eq0 ?_
  repeat' (first
    | intro _ _ _
    | intro _ _
    | intro _
    | with_reducible assumption
    | ((conv => arg 2; arg 33); with_reducible refine Kept.lit ?_ ?_ ?_) <;> [skip; rfl; exact ⟨rfl, rfl, rfl, rfl, rfl, rfl, rfl⟩]
    | with_reducible apply tick_kept
    | with_reducible apply raiseOpen_kept
    | with_reducible apply Kept.ite
    | dsimp only
    | split)

theorem execD2dRetrainDone_kept {z : State} (t : Nat) (s : State) (hK : Kept z s) {w0 : State} (eq0 : execD2dRetrainDone t s = .next w0) : Kept z w0 := by
  unfold execD2dRetrainDone at eq0
  try dsimp only at eq0
  refine Kept.of_next eq0 ?_
  repeat' (first
    | intro _ _ _
    | intro _ _
    | intro _
    | with_reducible assumption
    | ((conv => arg 2; arg 33); with_reducible refine Kept.lit ?_ ?_ ?_) <;> [skip; rfl; exact ⟨rfl, rfl, rfl, rfl, rfl, rfl, rfl⟩]
    | with_reducible apply emit_kept
    | with_reducible apply tick_kept
    | with_reducible apply sendHeld_kept
    | with_reducible apply Kept.ite
    | with_reducible apply Kept.foldl
    | dsimp only
    | split)

theorem execSummaryUpdate_kept {z : State} (t : Nat) (s : State) (hK : Kept z s) {w0 : State} (eq0 : execSummaryUpdate t s = .next w0) : Kept z w0 := by
  unfold execSummaryUpdate at eq0
  try dsimp only at eq0
  refine Kept.of_next eq0 ?_
  repeat' (first
    | with_reducible assumption
    | ((conv => arg 2; arg 33); with_reducible refine Kept.lit ?_ ?_ ?_) <;> [skip; rfl; exact ⟨rfl, rfl, rfl, rfl, rfl, rfl, rfl⟩]
    | with_reducible refine arrive_kept (by assumption) ?_
    | with_reducible apply tick_kept
    | with_reducible apply Kept.ite
    | dsimp only
    | split)

theorem execEventFrame_kept {z : State} (t : Nat) (s : State) (hK : Kept z s) {w0 : State} (eq0 : execEventFrame t s = .next w0) : Kept z w0 := by
  unfold execEventFrame at eq0
  try dsimp only at eq0
  refine Kept.of_next eq0 ?_
  repeat' (first
    | with_reducible assumption
    | ((conv => arg 2; arg 33); with_reducible refine Kept.lit ?_ ?_ ?_) <;> [skip; rfl; exact ⟨rfl, rfl, rfl, rfl, rfl, rfl, rfl⟩]
    | with_reducible refine arrive_kept (by assumption) ?_
    | with_reducible apply tick_kept
    | dsimp only
    | split)

theorem execRegisterRequest_kept {z : State} (t : Nat) (s : State) (hK : Kept z s) {w0 : State} (eq0 : execRegisterRequest t s = .next w0) : Kept z w0 := by
  unfold execRegisterRequest at eq0
  try dsimp only at eq0
  refine Kept.of_next eq0 ?_
  repeat' (first
    | intro _ _ _
    | intro _ _
    | intro _
    | with_reducible assumption
    | ((conv => arg 2; arg 33); with_reducible refine Kept.lit ?_ ?_ ?_) <;> [skip; rfl; exact ⟨rfl, rfl, rfl, rfl, rfl, rfl, rfl⟩]
    | with_reducible refine arrive_kept (by assumption) ?_
    | with_reducible apply tick_kept
    | with_reducible apply sendFrame_kept
    | with_reducible apply Kept.ite
    | dsimp only
    | split)

theorem execRegisterData_kept {z : State} (cold : Bool) (t : Nat) (s : State) (hK : Kept z s) {w0 : State} (eq0 : execRegisterData cold t s = .next w0) : Kept z w0 := by
  unfold execRegisterData at eq0
  try dsimp only at eq0
  refine Kept.of_next eq0 ?_
  repeat' (first
    | intro _ _ _
    | intro _ _
    | intro _
    | with_reducible assumption
    | ((conv => arg 2; arg 33); with_reducible refine Kept.lit ?_ ?_ ?_) <;> [skip; rfl; exact ⟨rfl, rfl, rfl, rfl, rfl, rfl, rfl⟩]
    | with_reducible refine arrive_kept (by assumption) ?_
    | with_reducible apply tick_kept
    | dsimp only
    | split)

/-! ### Flash -/

theorem issueMove_kept {z : State} (s : State) (g : Nat) (hK : Kept z s) : Kept z (issueMove s g) := by
  unfold issueMove
  try dsimp only
  repeat' (first
    | intro _ _ _
    | intro _ _
    | intro _
    | with_reducible assumption
    | with_reducible apply newCutting_kept
    | with_reducible apply Kept.ite
    | dsimp only
    | split)

theorem moveAll_kept {z : State} (s : State) (p : Nat → Bool) (hK : Kept z s) : Kept z (moveAll s p) := by
  unfold moveAll
  try dsimp only
  repeat' (first
    | intro _ _ _
    | intro _ _
    | intro _
    | with_reducible assumption
    | with_reducible apply issueMove_kept
    | with_reducible apply Kept.foldl)

theorem moveWork_kept {z : State} (s : State) (hK : Kept z s) : Kept z (moveWork s) := by
  unfold moveWork
  try dsimp only
  repeat' (first
    | with_reducible assumption
    | with_reducible apply moveAll_kept
    | with_reducible apply Kept.ite
    | dsimp only
    | split)

theorem judgeSpares_kept {z : State} (s : State) (hK : Kept z s) : Kept z (judgeSpares s) := by
  unfold judgeSpares
  try dsimp only
  repeat' (first
    | intro _ _ _
    | intro _ _
    | intro _
    | with_reducible assumption
    | ((conv => arg 2; arg 33); with_reducible refine Kept.lit ?_ ?_ ?_) <;> [skip; rfl; exact ⟨rfl, rfl, rfl, rfl, rfl, rfl, rfl⟩]
    | with_reducible apply drew_kept
    | with_reducible apply raiseLive_kept
    | with_reducible apply Kept.ite
    | dsimp only
    | split)

theorem replaceBlock_kept {z : State} (s : State) (tk k : Nat) (hK : Kept z s) : Kept z (replaceBlock s tk k) := by
  unfold replaceBlock
  try dsimp only
  repeat' (first
    | intro _ _ _
    | intro _ _
    | intro _
    | with_reducible assumption
    | ((conv => arg 2; arg 33); with_reducible refine Kept.lit ?_ ?_ ?_) <;> [skip; rfl; exact ⟨rfl, rfl, rfl, rfl, rfl, rfl, rfl⟩]
    | with_reducible apply drew_kept
    | with_reducible apply raiseLive_kept
    | with_reducible apply setBlock_kept
    | with_reducible apply setSb_kept
    | with_reducible apply reportCap_kept
    | with_reducible apply journalRole_kept
    | with_reducible apply Kept.ite
    | dsimp only
    | split)

theorem doRetire_kept {z : State} (s : State) (b : Nat) (hK : Kept z s) : Kept z (doRetire s b) := by
  unfold doRetire
  try dsimp only
  repeat' (first
    | with_reducible assumption
    | ((conv => arg 2; arg 33); with_reducible refine Kept.lit ?_ ?_ ?_) <;> [skip; rfl; exact ⟨rfl, rfl, rfl, rfl, rfl, rfl, rfl⟩]
    | with_reducible apply logEvent_kept
    | with_reducible apply setBlock_kept
    | with_reducible apply journal_kept
    | with_reducible apply judgeSpares_kept
    | with_reducible apply replaceBlock_kept)

theorem retireBlock_kept {z : State} (s : State) (b : Nat) (hK : Kept z s) : Kept z (retireBlock s b) := by
  unfold retireBlock
  try dsimp only
  repeat' (first
    | intro _ _ _
    | intro _ _
    | intro _
    | with_reducible assumption
    | ((conv => arg 2; arg 33); with_reducible refine Kept.lit ?_ ?_ ?_) <;> [skip; rfl; exact ⟨rfl, rfl, rfl, rfl, rfl, rfl, rfl⟩]
    | with_reducible apply setBlock_kept
    | with_reducible apply moveAll_kept
    | with_reducible apply doRetire_kept
    | with_reducible apply Kept.ite
    | dsimp only
    | split)

theorem moveSeals_kept {z : State} (s : State) (tk : Nat) (hK : Kept z s) : Kept z (moveSeals s tk) := by
  unfold moveSeals
  try dsimp only
  repeat' (first
    | intro _ _ _
    | intro _ _
    | intro _
    | with_reducible assumption
    | ((conv => arg 2; arg 33); with_reducible refine Kept.lit ?_ ?_ ?_) <;> [skip; rfl; exact ⟨rfl, rfl, rfl, rfl, rfl, rfl, rfl⟩]
    | with_reducible apply takeSealBlocks_kept
    | with_reducible refine takeSealBlocks_kept_eq (by assumption) ?_
    | with_reducible apply locatorWrite_kept
    | with_reducible apply Kept.ite
    | dsimp only
    | split)

theorem failTarget_kept {z : State} (s : State) (tk : Nat) (hK : Kept z s) : Kept z (failTarget s tk) := by
  unfold failTarget
  try dsimp only
  repeat' (first
    | intro _ _ _
    | intro _ _
    | intro _
    | with_reducible assumption
    | ((conv => arg 2; arg 33); with_reducible refine Kept.lit ?_ ?_ ?_) <;> [skip; rfl; exact ⟨rfl, rfl, rfl, rfl, rfl, rfl, rfl⟩]
    | with_reducible apply raiseOpen_kept
    | with_reducible apply reportCap_kept
    | with_reducible apply changeMap_kept
    | with_reducible apply moveSeals_kept
    | with_reducible apply Kept.ite
    | with_reducible apply Kept.foldl
    | dsimp only
    | split)

theorem dripFail_kept {z : State} (s : State) (g n : Nat) (hK : Kept z s) : Kept z (dripFail s g n) := by
  unfold dripFail
  try dsimp only
  repeat' (first
    | intro _ _ _
    | intro _ _
    | intro _
    | with_reducible assumption
    | ((conv => arg 2; arg 33); with_reducible refine Kept.lit ?_ ?_ ?_) <;> [skip; rfl; exact ⟨rfl, rfl, rfl, rfl, rfl, rfl, rfl⟩]
    | with_reducible apply bump_kept
    | with_reducible apply Kept.ite
    | dsimp only
    | split)

theorem saveAgain_kept {z : State} (s : State) (g : Nat) (hK : Kept z s) : Kept z (saveAgain s g) := by
  unfold saveAgain
  try dsimp only
  repeat' (first
    | intro _ _ _
    | intro _ _
    | intro _
    | with_reducible assumption
    | ((conv => arg 2; arg 33); with_reducible refine Kept.lit ?_ ?_ ?_) <;> [skip; rfl; exact ⟨rfl, rfl, rfl, rfl, rfl, rfl, rfl⟩])

theorem flashProgFail_kept {z : State} (s : State) (g : Nat) (hK : Kept z s) : Kept z (flashProgFail s g) := by
  unfold flashProgFail
  try dsimp only
  repeat' (first
    | intro _ _ _
    | intro _ _
    | intro _
    | with_reducible assumption
    | ((conv => arg 2; arg 33); with_reducible refine Kept.lit ?_ ?_ ?_) <;> [skip; rfl; exact ⟨rfl, rfl, rfl, rfl, rfl, rfl, rfl⟩]
    | with_reducible apply dripFail_kept
    | with_reducible apply saveAgain_kept
    | dsimp only
    | split)

theorem openFor_kept {z : State} (s : State) (k g : Nat) (why : ProgWhy) (hK : Kept z s) : Kept z (openFor s k g why) := by
  unfold openFor
  try dsimp only
  repeat' (first
    | intro _ _ _
    | intro _ _
    | intro _
    | with_reducible assumption
    | ((conv => arg 2; arg 33); with_reducible refine Kept.lit ?_ ?_ ?_) <;> [skip; rfl; exact ⟨rfl, rfl, rfl, rfl, rfl, rfl, rfl⟩]
    | with_reducible apply setSb_kept
    | with_reducible apply setRole_kept
    | with_reducible apply Kept.ite
    | dsimp only
    | split)

theorem closeSuper_kept {z : State} (s : State) (k : Nat) (hK : Kept z s) : Kept z (closeSuper s k) := by
  unfold closeSuper
  try dsimp only
  repeat' (first
    | intro _ _ _
    | intro _ _
    | intro _
    | with_reducible assumption
    | ((conv => arg 2; arg 33); with_reducible refine Kept.lit ?_ ?_ ?_) <;> [skip; rfl; exact ⟨rfl, rfl, rfl, rfl, rfl, rfl, rfl⟩]
    | with_reducible apply setRole_kept
    | with_reducible apply Kept.ite
    | dsimp only
    | split)

theorem takePages_kept {z : State} (s : State) (k n : Nat) (hK : Kept z s) : Kept z (takePages s k n) := by
  unfold takePages
  try dsimp only
  repeat' (first
    | with_reducible assumption
    | ((conv => arg 2; arg 33); with_reducible refine Kept.lit ?_ ?_ ?_) <;> [skip; rfl; exact ⟨rfl, rfl, rfl, rfl, rfl, rfl, rfl⟩]
    | with_reducible apply setSb_kept
    | with_reducible apply closeSuper_kept
    | with_reducible apply Kept.ite
    | dsimp only
    | split)

theorem pageDone_kept {z : State} (s : State) (g a : Nat) (hK : Kept z s) : Kept z (pageDone s g a) := by
  unfold pageDone
  try dsimp only
  repeat' (first
    | intro _ _ _
    | intro _ _
    | intro _
    | with_reducible assumption
    | ((conv => arg 2; arg 33); with_reducible refine Kept.lit ?_ ?_ ?_) <;> [skip; rfl; exact ⟨rfl, rfl, rfl, rfl, rfl, rfl, rfl⟩]
    | with_reducible apply wear_kept
    | with_reducible apply journal_kept
    | with_reducible apply openFor_kept
    | with_reducible apply Kept.ite
    | dsimp only
    | split)

theorem fillerDone_kept {z : State} (s : State) (a : Nat) (hK : Kept z s) : Kept z (fillerDone s a) := by
  unfold fillerDone
  try dsimp only
  repeat' (first
    | with_reducible assumption
    | ((conv => arg 2; arg 33); with_reducible refine Kept.lit ?_ ?_ ?_) <;> [skip; rfl; exact ⟨rfl, rfl, rfl, rfl, rfl, rfl, rfl⟩]
    | with_reducible apply wear_kept)

theorem programPages_kept {z : State} (s : State) (ws : List (Nat × Nat)) (ok : Bool) (hK : Kept z s) : Kept z (programPages s ws ok) := by
  unfold programPages
  try dsimp only
  repeat' (first
    | intro _ _ _
    | intro _ _
    | intro _
    | with_reducible assumption
    | ((conv => arg 2; arg 33); with_reducible refine Kept.lit ?_ ?_ ?_) <;> [skip; rfl; exact ⟨rfl, rfl, rfl, rfl, rfl, rfl, rfl⟩]
    | with_reducible apply bump_kept
    | with_reducible apply raiseOpen_kept
    | with_reducible apply setBlock_kept
    | with_reducible apply wear_kept
    | with_reducible apply moveAll_kept
    | with_reducible apply retireBlock_kept
    | with_reducible apply flashProgFail_kept
    | with_reducible apply takePages_kept
    | with_reducible apply pageDone_kept
    | with_reducible apply fillerDone_kept
    | with_reducible apply Kept.ite
    | with_reducible apply Kept.foldl
    | dsimp only
    | split)

theorem metaFailed_kept {z : State} (s : State) (hK : Kept z s) : Kept z (metaFailed s) := by
  unfold metaFailed
  try dsimp only
  repeat' (first
    | with_reducible assumption
    | ((conv => arg 2; arg 33); with_reducible refine Kept.lit ?_ ?_ ?_) <;> [skip; rfl; exact ⟨rfl, rfl, rfl, rfl, rfl, rfl, rfl⟩]
    | with_reducible apply bump_kept
    | with_reducible apply setSb_kept
    | with_reducible apply wear_kept
    | with_reducible apply retireBlock_kept
    | dsimp only
    | split)

theorem freeSuper_kept {z : State} (s : State) (k : Nat) (hK : Kept z s) : Kept z (freeSuper s k) := by
  unfold freeSuper
  try dsimp only
  repeat' (first
    | intro _ _ _
    | intro _ _
    | intro _
    | with_reducible assumption
    | ((conv => arg 2; arg 33); with_reducible refine Kept.lit ?_ ?_ ?_) <;> [skip; rfl; exact ⟨rfl, rfl, rfl, rfl, rfl, rfl, rfl⟩]
    | with_reducible apply setSb_kept
    | with_reducible apply setRole_kept
    | with_reducible apply Kept.ite
    | dsimp only
    | split)

theorem afterMove_kept {z : State} (s : State) (a : Nat) (hK : Kept z s) : Kept z (afterMove s a) := by
  unfold afterMove
  try dsimp only
  repeat' (first
    | intro _ _ _
    | intro _ _
    | intro _
    | with_reducible assumption
    | ((conv => arg 2; arg 33); with_reducible refine Kept.lit ?_ ?_ ?_) <;> [skip; rfl; exact ⟨rfl, rfl, rfl, rfl, rfl, rfl, rfl⟩]
    | with_reducible apply doRetire_kept
    | with_reducible apply freeSuper_kept
    | with_reducible apply Kept.ite
    | dsimp only
    | split)

theorem moveCut_kept {z : State} (s : State) (n g : Nat) (hK : Kept z s) : Kept z (moveCut s n g) := by
  unfold moveCut
  try dsimp only
  repeat' (first
    | with_reducible assumption
    | ((conv => arg 2; arg 33); with_reducible refine Kept.lit ?_ ?_ ?_) <;> [skip; rfl; exact ⟨rfl, rfl, rfl, rfl, rfl, rfl, rfl⟩]
    | with_reducible apply changeMap_kept
    | with_reducible apply afterMove_kept
    | with_reducible apply Kept.ite
    | dsimp only
    | split)

theorem blockErased_kept {z : State} (s : State) (b : Nat) (hK : Kept z s) : Kept z (blockErased s b) := by
  unfold blockErased
  try dsimp only
  repeat' (first
    | intro _ _ _
    | intro _ _
    | intro _
    | with_reducible assumption
    | ((conv => arg 2; arg 33); with_reducible refine Kept.lit ?_ ?_ ?_) <;> [skip; rfl; exact ⟨rfl, rfl, rfl, rfl, rfl, rfl, rfl⟩]
    | with_reducible apply setBlock_kept
    | with_reducible apply journal_kept)

theorem memberErased_kept {z : State} (s : State) (k : Nat) (failed : List Nat) (tk : Nat) (hK : Kept z s) : Kept z (memberErased s k failed tk) := by
  unfold memberErased
  try dsimp only
  repeat' (first
    | with_reducible assumption
    | with_reducible apply bump_kept
    | with_reducible apply retireBlock_kept
    | with_reducible apply blockErased_kept
    | with_reducible apply Kept.ite
    | dsimp only
    | split)

theorem countRead_kept {z : State} (s : State) (a : Nat) (effort : Nat) (e : ReadEnd) (hK : Kept z s) : Kept z (countRead s a effort e) := by
  unfold countRead
  try dsimp only
  repeat' (first
    | with_reducible assumption
    | ((conv => arg 2; arg 33); with_reducible refine Kept.lit ?_ ?_ ?_) <;> [skip; rfl; exact ⟨rfl, rfl, rfl, rfl, rfl, rfl, rfl⟩]
    | with_reducible apply bump_kept
    | with_reducible apply setBlock_kept
    | with_reducible apply Kept.ite
    | dsimp only
    | split)

theorem refreshBlock_kept {z : State} (s : State) (b : Nat) (hK : Kept z s) : Kept z (refreshBlock s b) := by
  unfold refreshBlock
  try dsimp only
  repeat' (first
    | intro _ _ _
    | intro _ _
    | intro _
    | with_reducible assumption
    | ((conv => arg 2; arg 33); with_reducible refine Kept.lit ?_ ?_ ?_) <;> [skip; rfl; exact ⟨rfl, rfl, rfl, rfl, rfl, rfl, rfl⟩]
    | with_reducible apply setBlock_kept
    | with_reducible apply moveAll_kept
    | with_reducible apply retireBlock_kept
    | with_reducible apply Kept.ite
    | dsimp only
    | split)

theorem judgeDisturb_kept {z : State} (s : State) (a : Nat) (hK : Kept z s) : Kept z (judgeDisturb s a) := by
  unfold judgeDisturb
  try dsimp only
  repeat' (first
    | with_reducible assumption
    | ((conv => arg 2; arg 33); with_reducible refine Kept.lit ?_ ?_ ?_) <;> [skip; rfl; exact ⟨rfl, rfl, rfl, rfl, rfl, rfl, rfl⟩]
    | with_reducible apply refreshBlock_kept
    | with_reducible apply Kept.ite
    | dsimp only
    | split)

theorem levelWear_kept {z : State} (s : State) (hK : Kept z s) : Kept z (levelWear s) := by
  unfold levelWear
  try dsimp only
  repeat' (first
    | intro _ _ _
    | intro _ _
    | intro _
    | with_reducible assumption
    | ((conv => arg 2; arg 33); with_reducible refine Kept.lit ?_ ?_ ?_) <;> [skip; rfl; exact ⟨rfl, rfl, rfl, rfl, rfl, rfl, rfl⟩]
    | with_reducible apply Kept.ite
    | with_reducible apply Kept.foldl
    | dsimp only
    | split)

theorem sizeRegion_kept {z : State} (s : State) (hK : Kept z s) : Kept z (sizeRegion s) := by
  unfold sizeRegion
  try dsimp only
  repeat' (first
    | intro _ _ _
    | intro _ _
    | intro _
    | with_reducible assumption
    | with_reducible apply reportCap_kept
    | with_reducible apply setRole_kept
    | with_reducible apply Kept.ite
    | with_reducible apply Kept.foldl
    | dsimp only
    | split)

theorem wearHostWritten_kept {z : State} (s : State) (v : Nat) (hK : Kept z s) : Kept z (wearHostWritten s v) := by
  unfold wearHostWritten
  try dsimp only
  repeat' (first
    | with_reducible assumption
    | ((conv => arg 2; arg 33); with_reducible refine Kept.lit ?_ ?_ ?_) <;> [skip; rfl; exact ⟨rfl, rfl, rfl, rfl, rfl, rfl, rfl⟩]
    | with_reducible apply setFld_kept
    | with_reducible apply Kept.ite
    | dsimp only
    | split)

theorem streamWritten_kept {z : State} (s : State) (id v : Nat) (hK : Kept z s) : Kept z (streamWritten s id v) := by
  unfold streamWritten
  try dsimp only
  repeat' (first
    | with_reducible assumption
    | ((conv => arg 2; arg 33); with_reducible refine Kept.lit ?_ ?_ ?_) <;> [skip; rfl; exact ⟨rfl, rfl, rfl, rfl, rfl, rfl, rfl⟩])

theorem execTargetStatusPoll_kept {z : State} (tgt : Nat) (ok : Bool) (t : Nat) (s : State) (hK : Kept z s) {w0 : State} (eq0 : execTargetStatusPoll tgt ok t s = .next w0) : Kept z w0 := by
  unfold execTargetStatusPoll at eq0
  try dsimp only at eq0
  refine Kept.of_next eq0 ?_
  repeat' (first
    | with_reducible assumption
    | ((conv => arg 2; arg 33); with_reducible refine Kept.lit ?_ ?_ ?_) <;> [skip; rfl; exact ⟨rfl, rfl, rfl, rfl, rfl, rfl, rfl⟩]
    | with_reducible apply tick_kept
    | with_reducible apply failTarget_kept
    | with_reducible apply Kept.ite
    | dsimp only
    | split)

theorem execFlashDqRetrain_kept {z : State} (tgt : Nat) (temp : Int) (t : Nat) (s : State) (hK : Kept z s) {w0 : State} (eq0 : execFlashDqRetrain tgt temp t s = .next w0) : Kept z w0 := by
  unfold execFlashDqRetrain at eq0
  try dsimp only at eq0
  refine Kept.of_next eq0 ?_
  repeat' (first
    | with_reducible assumption
    | ((conv => arg 2; arg 33); with_reducible refine Kept.lit ?_ ?_ ?_) <;> [skip; rfl; exact ⟨rfl, rfl, rfl, rfl, rfl, rfl, rfl⟩]
    | with_reducible apply tick_kept
    | with_reducible apply Kept.ite
    | dsimp only
    | split)

theorem execFlashProgramDone_kept {z : State} (ws : List (Nat × Nat)) (ok : Bool) (t : Nat) (s : State) (hK : Kept z s) {w0 : State} (eq0 : execFlashProgramDone ws ok t s = .next w0) : Kept z w0 := by
  unfold execFlashProgramDone at eq0
  try dsimp only at eq0
  refine Kept.of_next eq0 ?_
  repeat' (first
    | intro _ _ _
    | intro _ _
    | intro _
    | with_reducible assumption
    | with_reducible apply tick_kept
    | with_reducible apply programPages_kept
    | with_reducible apply Kept.ite
    | dsimp only
    | split)

theorem execWordlineFillTimeout_kept {z : State} (n t : Nat) (s : State) (hK : Kept z s) {w0 : State} (eq0 : execWordlineFillTimeout n t s = .next w0) : Kept z w0 := by
  unfold execWordlineFillTimeout at eq0
  try dsimp only at eq0
  refine Kept.of_next eq0 ?_
  repeat' (first
    | intro _ _ _
    | intro _ _
    | intro _
    | with_reducible assumption
    | ((conv => arg 2; arg 33); with_reducible refine Kept.lit ?_ ?_ ?_) <;> [skip; rfl; exact ⟨rfl, rfl, rfl, rfl, rfl, rfl, rfl⟩]
    | with_reducible apply tick_kept
    | with_reducible apply Kept.ite
    | dsimp only
    | split)

theorem execJournalPageTimeout_kept {z : State} (bad : Bool) (t : Nat) (s : State) (hK : Kept z s) {w0 : State} (eq0 : execJournalPageTimeout bad t s = .next w0) : Kept z w0 := by
  unfold execJournalPageTimeout at eq0
  try dsimp only at eq0
  refine Kept.of_next eq0 ?_
  repeat' (first
    | with_reducible assumption
    | with_reducible apply tick_kept
    | with_reducible apply programJournal_kept
    | with_reducible apply metaFailed_kept
    | with_reducible apply Kept.ite
    | dsimp only
    | split)

theorem execFlashEraseDone_kept {z : State} (k : Nat) (only : Option Nat) (failed : List Nat) (t : Nat) (s : State) (hK : Kept z s) {w0 : State} (eq0 : execFlashEraseDone k only failed t s = .next w0) : Kept z w0 := by
  unfold execFlashEraseDone at eq0
  try dsimp only at eq0
  refine Kept.of_next eq0 ?_
  repeat' (first
    | intro _ _ _
    | intro _ _
    | intro _
    | with_reducible assumption
    | ((conv => arg 2; arg 33); with_reducible refine Kept.lit ?_ ?_ ?_) <;> [skip; rfl; exact ⟨rfl, rfl, rfl, rfl, rfl, rfl, rfl⟩]
    | with_reducible apply tick_kept
    | with_reducible apply setSb_kept
    | with_reducible apply reportCap_kept
    | with_reducible apply memberErased_kept
    | with_reducible apply Kept.ite
    | with_reducible apply Kept.foldl
    | dsimp only
    | split)

theorem execFlashReadDone_kept {z : State} (a : Nat) (r : FlashRead) (t : Nat) (s : State) (hK : Kept z s) {w0 : State} (eq0 : execFlashReadDone a r t s = .next w0) : Kept z w0 := by
  unfold execFlashReadDone at eq0
  try dsimp only at eq0
  refine Kept.of_next eq0 ?_
  repeat' (first
    | intro _ _ _
    | intro _ _
    | intro _
    | with_reducible assumption
    | ((conv => arg 2; arg 33); with_reducible refine Kept.lit ?_ ?_ ?_) <;> [skip; rfl; exact ⟨rfl, rfl, rfl, rfl, rfl, rfl, rfl⟩]
    | with_reducible apply tick_kept
    | with_reducible apply raise_kept
    | with_reducible apply changeMap_kept
    | with_reducible apply retireBlock_kept
    | with_reducible apply afterMove_kept
    | with_reducible apply countRead_kept
    | with_reducible apply judgeDisturb_kept
    | with_reducible apply Kept.ite
    | dsimp only
    | split)

theorem execMoveCommit_kept {z : State} (g t : Nat) (s : State) (hK : Kept z s) {w0 : State} (eq0 : execMoveCommit g t s = .next w0) : Kept z w0 := by
  unfold execMoveCommit at eq0
  try dsimp only at eq0
  refine Kept.of_next eq0 ?_
  repeat' (first
    | intro _ _ _
    | intro _ _
    | intro _
    | with_reducible assumption
    | ((conv => arg 2; arg 33); with_reducible refine Kept.lit ?_ ?_ ?_) <;> [skip; rfl; exact ⟨rfl, rfl, rfl, rfl, rfl, rfl, rfl⟩]
    | with_reducible apply tick_kept
    | with_reducible apply setMap_kept
    | with_reducible apply journal_kept
    | with_reducible apply issueMove_kept
    | with_reducible apply afterMove_kept
    | with_reducible apply Kept.ite
    | dsimp only
    | split)

theorem execGcVictimChoice_kept {z : State} (t : Nat) (s : State) (hK : Kept z s) {w0 : State} (eq0 : execGcVictimChoice t s = .next w0) : Kept z w0 := by
  unfold execGcVictimChoice at eq0
  try dsimp only at eq0
  refine Kept.of_next eq0 ?_
  repeat' (first
    | intro _ _ _
    | intro _ _
    | intro _
    | with_reducible assumption
    | ((conv => arg 2; arg 33); with_reducible refine Kept.lit ?_ ?_ ?_) <;> [skip; rfl; exact ⟨rfl, rfl, rfl, rfl, rfl, rfl, rfl⟩]
    | with_reducible apply tick_kept
    | with_reducible apply raiseOpen_kept
    | with_reducible apply loopRan_kept
    | with_reducible apply moveWork_kept
    | with_reducible apply dripFail_kept
    | with_reducible apply freeSuper_kept
    | with_reducible apply levelWear_kept
    | with_reducible apply Kept.ite
    | with_reducible apply Kept.foldl
    | dsimp only
    | split)

theorem execPatrolSchedule_kept {z : State} (a : Nat) (r : FlashRead) (t : Nat) (s : State) (hK : Kept z s) {w0 : State} (eq0 : execPatrolSchedule a r t s = .next w0) : Kept z w0 := by
  unfold execPatrolSchedule at eq0
  try dsimp only at eq0
  refine Kept.of_next eq0 ?_
  repeat' (first
    | with_reducible assumption
    | with_reducible apply tick_kept
    | with_reducible apply raise_kept
    | with_reducible apply retireBlock_kept
    | with_reducible apply countRead_kept
    | with_reducible apply refreshBlock_kept
    | with_reducible apply judgeDisturb_kept
    | with_reducible apply Kept.ite
    | dsimp only
    | split)

theorem execHarvestRotation_kept {z : State} (t : Nat) (s : State) (hK : Kept z s) {w0 : State} (eq0 : execHarvestRotation t s = .next w0) : Kept z w0 := by
  unfold execHarvestRotation at eq0
  try dsimp only at eq0
  refine Kept.of_next eq0 ?_
  repeat' (first
    | intro _ _ _
    | intro _ _
    | intro _
    | with_reducible assumption
    | ((conv => arg 2; arg 33); with_reducible refine Kept.lit ?_ ?_ ?_) <;> [skip; rfl; exact ⟨rfl, rfl, rfl, rfl, rfl, rfl, rfl⟩]
    | with_reducible apply tick_kept
    | with_reducible apply reportCap_kept
    | with_reducible apply setRole_kept
    | with_reducible apply Kept.ite
    | with_reducible apply Kept.foldl
    | dsimp only
    | split)

theorem execHarvestRegionSizing_kept {z : State} (t : Nat) (s : State) (hK : Kept z s) {w0 : State} (eq0 : execHarvestRegionSizing t s = .next w0) : Kept z w0 := by
  unfold execHarvestRegionSizing at eq0
  try dsimp only at eq0
  refine Kept.of_next eq0 ?_
  repeat' (first
    | with_reducible assumption
    | with_reducible apply tick_kept
    | with_reducible apply loopRan_kept
    | with_reducible apply sizeRegion_kept
    | with_reducible apply Kept.ite
    | dsimp only
    | split)

theorem execCheckpointWrite_kept {z : State} (seg : Nat) (bad : Bool) (t : Nat) (s : State) (hK : Kept z s) {w0 : State} (eq0 : execCheckpointWrite seg bad t s = .next w0) : Kept z w0 := by
  unfold execCheckpointWrite at eq0
  try dsimp only at eq0
  refine Kept.of_next eq0 ?_
  repeat' (first
    | with_reducible assumption
    | with_reducible apply tick_kept
    | with_reducible apply writeSeg_kept
    | with_reducible apply metaFailed_kept
    | with_reducible apply Kept.ite
    | dsimp only
    | split)

/-! ### Drip -/

theorem raiseLiveOpen_kept {z : State} (s : State) (n : Nat) (hK : Kept z s) : Kept z (raiseLiveOpen s n) := by
  unfold raiseLiveOpen
  try dsimp only
  repeat' (first
    | with_reducible assumption
    | with_reducible apply drew_kept
    | with_reducible apply raiseLive_kept)

theorem evalStage_kept {z : State} (s : State) (hK : Kept z s) : Kept z (evalStage s) := by
  unfold evalStage
  try dsimp only
  repeat' (first
    | intro _ _ _
    | intro _ _
    | intro _
    | with_reducible assumption
    | ((conv => arg 2; arg 33); with_reducible refine Kept.lit ?_ ?_ ?_) <;> [skip; rfl; exact ⟨rfl, rfl, rfl, rfl, rfl, rfl, rfl⟩]
    | with_reducible apply Kept.ite
    | dsimp only
    | split)

theorem judgeExcess_kept {z : State} (s : State) (hK : Kept z s) : Kept z (judgeExcess s) := by
  unfold judgeExcess
  try dsimp only
  repeat' (first
    | with_reducible assumption
    | ((conv => arg 2; arg 33); with_reducible refine Kept.lit ?_ ?_ ?_) <;> [skip; rfl; exact ⟨rfl, rfl, rfl, rfl, rfl, rfl, rfl⟩]
    | with_reducible apply clearLive_kept
    | with_reducible apply raiseLiveOpen_kept
    | with_reducible apply Kept.ite
    | dsimp only
    | split)

theorem judgeFloor_kept {z : State} (s : State) (hK : Kept z s) : Kept z (judgeFloor s) := by
  unfold judgeFloor
  try dsimp only
  repeat' (first
    | with_reducible assumption
    | ((conv => arg 2; arg 33); with_reducible refine Kept.lit ?_ ?_ ?_) <;> [skip; rfl; exact ⟨rfl, rfl, rfl, rfl, rfl, rfl, rfl⟩]
    | with_reducible apply clearLive_kept
    | with_reducible apply raiseLiveOpen_kept
    | with_reducible apply Kept.ite
    | dsimp only
    | split)

theorem setLimit_kept {z : State} (s : State) (hK : Kept z s) : Kept z (setLimit s) := by
  unfold setLimit
  try dsimp only
  repeat' (first
    | with_reducible assumption
    | ((conv => arg 2; arg 33); with_reducible refine Kept.lit ?_ ?_ ?_) <;> [skip; rfl; exact ⟨rfl, rfl, rfl, rfl, rfl, rfl, rfl⟩]
    | with_reducible apply Kept.ite
    | dsimp only
    | split)

theorem dropStale_kept {z : State} (s : State) (g : Nat) (hK : Kept z s) : Kept z (dropStale s g) := by
  unfold dropStale
  try dsimp only
  repeat' (first
    | intro _ _ _
    | intro _ _
    | intro _
    | with_reducible assumption
    | ((conv => arg 2; arg 33); with_reducible refine Kept.lit ?_ ?_ ?_) <;> [skip; rfl; exact ⟨rfl, rfl, rfl, rfl, rfl, rfl, rfl⟩]
    | with_reducible apply saveAgain_kept
    | with_reducible apply Kept.ite
    | dsimp only
    | split)

theorem touchGran_kept {z : State} (s : State) (g : Nat) (issuer : Option Nat) (hK : Kept z s) : Kept z (touchGran s g issuer) := by
  unfold touchGran
  try dsimp only
  repeat' (first
    | with_reducible assumption
    | ((conv => arg 2; arg 33); with_reducible refine Kept.lit ?_ ?_ ?_) <;> [skip; rfl; exact ⟨rfl, rfl, rfl, rfl, rfl, rfl, rfl⟩]
    | with_reducible apply sendSummary_kept
    | with_reducible apply dropStale_kept
    | with_reducible apply Kept.ite
    | dsimp only
    | split)

theorem dropGrans_kept {z : State} (s : State) (p : Nat → Bool) (hK : Kept z s) : Kept z (dropGrans s p) := by
  unfold dropGrans
  try dsimp only
  repeat' (first
    | intro _ _ _
    | intro _ _
    | intro _
    | with_reducible assumption
    | ((conv => arg 2; arg 33); with_reducible refine Kept.lit ?_ ?_ ?_) <;> [skip; rfl; exact ⟨rfl, rfl, rfl, rfl, rfl, rfl, rfl⟩]
    | with_reducible apply sendSummary_kept
    | with_reducible apply judgeExcess_kept
    | with_reducible apply Kept.ite
    | with_reducible apply Kept.foldl
    | dsimp only
    | split)

theorem issueDrip_kept {z : State} (s : State) (g : Nat) (why : ProgWhy) (hK : Kept z s) : Kept z (issueDrip s g why) := by
  unfold issueDrip
  try dsimp only
  repeat' (first
    | intro _ _ _
    | intro _ _
    | intro _
    | with_reducible assumption
    | ((conv => arg 2; arg 33); with_reducible refine Kept.lit ?_ ?_ ?_) <;> [skip; rfl; exact ⟨rfl, rfl, rfl, rfl, rfl, rfl, rfl⟩]
    | with_reducible apply newCutting_kept
    | with_reducible apply Kept.ite
    | dsimp only
    | split)

theorem flushWork_kept {z : State} (s : State) (hK : Kept z s) : Kept z (flushWork s) := by
  unfold flushWork
  try dsimp only
  repeat' (first
    | intro _ _ _
    | intro _ _
    | intro _
    | with_reducible assumption
    | ((conv => arg 2; arg 33); with_reducible refine Kept.lit ?_ ?_ ?_) <;> [skip; rfl; exact ⟨rfl, rfl, rfl, rfl, rfl, rfl, rfl⟩]
    | with_reducible apply issueDrip_kept
    | with_reducible apply Kept.foldl
    | dsimp only
    | split)

theorem saveWork_kept {z : State} (s : State) (hK : Kept z s) : Kept z (saveWork s) := by
  unfold saveWork
  try dsimp only
  repeat' (first
    | intro _ _ _
    | intro _ _
    | intro _
    | with_reducible assumption
    | ((conv => arg 2; arg 33); with_reducible refine Kept.lit ?_ ?_ ?_) <;> [skip; rfl; exact ⟨rfl, rfl, rfl, rfl, rfl, rfl, rfl⟩]
    | with_reducible apply newCutting_kept
    | with_reducible apply issueDrip_kept
    | with_reducible apply Kept.ite
    | with_reducible apply Kept.foldl
    | dsimp only
    | split)

theorem dripCut_kept {z : State} (s : State) (n g : Nat) (why : ProgWhy) (hK : Kept z s) : Kept z (dripCut s n g why) := by
  unfold dripCut
  try dsimp only
  repeat' (first
    | with_reducible assumption
    | ((conv => arg 2; arg 33); with_reducible refine Kept.lit ?_ ?_ ?_) <;> [skip; rfl; exact ⟨rfl, rfl, rfl, rfl, rfl, rfl, rfl⟩]
    | with_reducible apply saveAgain_kept
    | with_reducible apply Kept.ite
    | dsimp only
    | split)

theorem takePolicy_kept {z : State} (s : State) (hK : Kept z s) : Kept z (takePolicy s) := by
  unfold takePolicy
  try dsimp only
  repeat' (first
    | with_reducible assumption
    | ((conv => arg 2; arg 33); with_reducible refine Kept.lit ?_ ?_ ?_) <;> [skip; rfl; exact ⟨rfl, rfl, rfl, rfl, rfl, rfl, rfl⟩])

theorem flushCommitted_kept {z : State} (s : State) (g n : Nat) (clean pois : Bool) (hK : Kept z s) : Kept z (flushCommitted s g n clean pois) := by
  unfold flushCommitted
  try dsimp only
  repeat' (first
    | intro _ _ _
    | intro _ _
    | intro _
    | with_reducible assumption
    | ((conv => arg 2; arg 33); with_reducible refine Kept.lit ?_ ?_ ?_) <;> [skip; rfl; exact ⟨rfl, rfl, rfl, rfl, rfl, rfl, rfl⟩]
    | dsimp only
    | split)

theorem saveCommitted_kept {z : State} (s : State) (g : Nat) (why : ProgWhy) (pois : Bool) (hK : Kept z s) : Kept z (saveCommitted s g why pois) := by
  unfold saveCommitted
  try dsimp only
  repeat' (first
    | intro _ _ _
    | intro _ _
    | intro _
    | with_reducible assumption
    | ((conv => arg 2; arg 33); with_reducible refine Kept.lit ?_ ?_ ?_) <;> [skip; rfl; exact ⟨rfl, rfl, rfl, rfl, rfl, rfl, rfl⟩]
    | with_reducible apply Kept.ite
    | dsimp only
    | split)

theorem commitDrip_kept {z : State} (s : State) (p : Prog) (hK : Kept z s) : Kept z (commitDrip s p) := by
  unfold commitDrip
  try dsimp only
  repeat' (first
    | intro _ _ _
    | intro _ _
    | intro _
    | with_reducible assumption
    | ((conv => arg 2; arg 33); with_reducible refine Kept.lit ?_ ?_ ?_) <;> [skip; rfl; exact ⟨rfl, rfl, rfl, rfl, rfl, rfl, rfl⟩]
    | with_reducible apply setMap_kept
    | with_reducible apply sendSummary_kept
    | with_reducible apply afterMove_kept
    | with_reducible apply judgeExcess_kept
    | with_reducible apply flushCommitted_kept
    | with_reducible apply saveCommitted_kept
    | with_reducible apply Kept.ite
    | dsimp only
    | split)

theorem cmdExposureQuery_kept {z : State} (f : InFlight) (s : State) (hK : Kept z s) : Kept z (cmdExposureQuery f s) := by
  unfold cmdExposureQuery
  try dsimp only
  repeat' (first
    | intro _ _ _
    | intro _ _
    | intro _
    | with_reducible assumption
    | ((conv => arg 2; arg 33); with_reducible refine Kept.lit ?_ ?_ ?_) <;> [skip; rfl; exact ⟨rfl, rfl, rfl, rfl, rfl, rfl, rfl⟩]
    | with_reducible apply endWith_kept
    | with_reducible apply endOk_kept
    | with_reducible apply Kept.ite
    | dsimp only
    | split)

theorem cmdDripPolicySet_kept {z : State} (f : InFlight) (s : State) (hK : Kept z s) : Kept z (cmdDripPolicySet f s) := by
  unfold cmdDripPolicySet
  try dsimp only
  repeat' (first
    | intro _ _ _
    | intro _ _
    | intro _
    | with_reducible assumption
    | ((conv => arg 2; arg 33); with_reducible refine Kept.lit ?_ ?_ ?_) <;> [skip; rfl; exact ⟨rfl, rfl, rfl, rfl, rfl, rfl, rfl⟩]
    | with_reducible apply pairWrite_kept
    | with_reducible apply endWith_kept
    | with_reducible apply endOk_kept
    | with_reducible apply badParam_kept
    | with_reducible apply assistInput_kept
    | with_reducible apply Kept.ite
    | with_reducible apply Kept.foldl
    | dsimp only
    | split)

theorem execStageEval_kept {z : State} (t : Nat) (s : State) (hK : Kept z s) {w0 : State} (eq0 : execStageEval t s = .next w0) : Kept z w0 := by
  unfold execStageEval at eq0
  try dsimp only at eq0
  refine Kept.of_next eq0 ?_
  repeat' (first
    | with_reducible assumption
    | with_reducible apply tick_kept
    | with_reducible apply evalStage_kept
    | with_reducible apply Kept.ite
    | dsimp only
    | split)

theorem execGaugeUpdateFrame_kept {z : State} (t : Nat) (s : State) (hK : Kept z s) {w0 : State} (eq0 : execGaugeUpdateFrame t s = .next w0) : Kept z w0 := by
  unfold execGaugeUpdateFrame at eq0
  try dsimp only at eq0
  refine Kept.of_next eq0 ?_
  repeat' (first
    | with_reducible assumption
    | ((conv => arg 2; arg 33); with_reducible refine Kept.lit ?_ ?_ ?_) <;> [skip; rfl; exact ⟨rfl, rfl, rfl, rfl, rfl, rfl, rfl⟩]
    | with_reducible apply tick_kept
    | with_reducible apply evalStage_kept
    | with_reducible apply judgeExcess_kept
    | with_reducible apply judgeFloor_kept
    | with_reducible apply setLimit_kept
    | with_reducible apply Kept.ite
    | dsimp only
    | split)

theorem execDripRound_kept {z : State} (free t : Nat) (s : State) (hK : Kept z s) {w0 : State} (eq0 : execDripRound free t s = .next w0) : Kept z w0 := by
  unfold execDripRound at eq0
  try dsimp only at eq0
  refine Kept.of_next eq0 ?_
  repeat' (first
    | intro _ _ _
    | intro _ _
    | intro _
    | with_reducible assumption
    | ((conv => arg 2; arg 33); with_reducible refine Kept.lit ?_ ?_ ?_) <;> [skip; rfl; exact ⟨rfl, rfl, rfl, rfl, rfl, rfl, rfl⟩]
    | with_reducible apply tick_kept
    | with_reducible apply feed_kept
    | with_reducible apply issueDrip_kept
    | with_reducible apply flushWork_kept
    | with_reducible apply takePolicy_kept
    | with_reducible apply Kept.ite
    | with_reducible apply Kept.foldl
    | dsimp only
    | split)

theorem execRecencySweep_kept {z : State} (t : Nat) (s : State) (hK : Kept z s) {w0 : State} (eq0 : execRecencySweep t s = .next w0) : Kept z w0 := by
  unfold execRecencySweep at eq0
  try dsimp only at eq0
  refine Kept.of_next eq0 ?_
  repeat' (first
    | intro _ _ _
    | intro _ _
    | intro _
    | with_reducible assumption
    | ((conv => arg 2; arg 33); with_reducible refine Kept.lit ?_ ?_ ?_) <;> [skip; rfl; exact ⟨rfl, rfl, rfl, rfl, rfl, rfl, rfl⟩]
    | with_reducible apply tick_kept)

theorem execHintExpiry_kept {z : State} (t : Nat) (s : State) (hK : Kept z s) {w0 : State} (eq0 : execHintExpiry t s = .next w0) : Kept z w0 := by
  unfold execHintExpiry at eq0
  try dsimp only at eq0
  refine Kept.of_next eq0 ?_
  repeat' (first
    | intro _ _ _
    | intro _ _
    | intro _
    | with_reducible assumption
    | ((conv => arg 2; arg 33); with_reducible refine Kept.lit ?_ ?_ ?_) <;> [skip; rfl; exact ⟨rfl, rfl, rfl, rfl, rfl, rfl, rfl⟩]
    | with_reducible apply tick_kept)

theorem execWearBucketGain_kept {z : State} (t : Nat) (s : State) (hK : Kept z s) {w0 : State} (eq0 : execWearBucketGain t s = .next w0) : Kept z w0 := by
  unfold execWearBucketGain at eq0
  try dsimp only at eq0
  refine Kept.of_next eq0 ?_
  repeat' (first
    | with_reducible assumption
    | ((conv => arg 2; arg 33); with_reducible refine Kept.lit ?_ ?_ ?_) <;> [skip; rfl; exact ⟨rfl, rfl, rfl, rfl, rfl, rfl, rfl⟩]
    | with_reducible apply tick_kept
    | with_reducible apply judgeBucket_kept
    | with_reducible apply Kept.ite
    | dsimp only
    | split)

theorem execEnduranceForecast_kept {z : State} (t : Nat) (s : State) (hK : Kept z s) {w0 : State} (eq0 : execEnduranceForecast t s = .next w0) : Kept z w0 := by
  unfold execEnduranceForecast at eq0
  try dsimp only at eq0
  refine Kept.of_next eq0 ?_
  repeat' (first
    | intro _ _ _
    | intro _ _
    | intro _
    | with_reducible assumption
    | ((conv => arg 2; arg 33); with_reducible refine Kept.lit ?_ ?_ ?_) <;> [skip; rfl; exact ⟨rfl, rfl, rfl, rfl, rfl, rfl, rfl⟩]
    | with_reducible apply tick_kept
    | with_reducible apply clearLive_kept
    | with_reducible apply loopRan_kept
    | with_reducible apply raiseLiveOpen_kept
    | with_reducible apply Kept.ite
    | dsimp only
    | split)

theorem execExposureQuery_kept {z : State} (c : TrellisCmd) (s : State) (hK : Kept z s) {w0 : State} (eq0 : execExposureQuery c s = .next w0) : Kept z w0 := by
  unfold execExposureQuery at eq0
  try dsimp only at eq0
  refine Kept.of_next eq0 ?_
  repeat' (first
    | intro _ _ _
    | intro _ _
    | intro _
    | with_reducible assumption
    | with_reducible apply submit_kept
    | with_reducible apply cmdExposureQuery_kept)

theorem execDripPolicySet_kept {z : State} (c : TrellisCmd) (s : State) (hK : Kept z s) {w0 : State} (eq0 : execDripPolicySet c s = .next w0) : Kept z w0 := by
  unfold execDripPolicySet at eq0
  try dsimp only at eq0
  refine Kept.of_next eq0 ?_
  repeat' (first
    | intro _ _ _
    | intro _ _
    | intro _
    | with_reducible assumption
    | with_reducible apply submit_kept
    | with_reducible apply cmdDripPolicySet_kept)

/-! ### Harvest -/

theorem useStripe_kept {z : State} (s : State) (k : Nat) (hK : Kept z s) : Kept z (useStripe s k) := by
  unfold useStripe
  try dsimp only
  repeat' (first
    | with_reducible assumption
    | ((conv => arg 2; arg 33); with_reducible refine Kept.lit ?_ ?_ ?_) <;> [skip; rfl; exact ⟨rfl, rfl, rfl, rfl, rfl, rfl, rfl⟩]
    | with_reducible apply setSb_kept
    | with_reducible apply setRole_kept
    | with_reducible apply Kept.ite
    | dsimp only
    | split)

theorem joinHarvest_kept {z : State} (s : State) (g : Nat) (hK : Kept z s) : Kept z (joinHarvest s g) := by
  unfold joinHarvest
  try dsimp only
  repeat' (first
    | intro _ _ _
    | intro _ _
    | intro _
    | with_reducible assumption
    | ((conv => arg 2; arg 33); with_reducible refine Kept.lit ?_ ?_ ?_) <;> [skip; rfl; exact ⟨rfl, rfl, rfl, rfl, rfl, rfl, rfl⟩]
    | with_reducible apply Kept.ite
    | dsimp only
    | split)

theorem setRun_kept {z : State} (s : State) (r : HarvestRun) (phase : Nat) (hK : Kept z s) : Kept z (setRun s r phase) := by
  unfold setRun
  try dsimp only
  repeat' (first
    | with_reducible assumption
    | ((conv => arg 2; arg 33); with_reducible refine Kept.lit ?_ ?_ ?_) <;> [skip; rfl; exact ⟨rfl, rfl, rfl, rfl, rfl, rfl, rfl⟩])

theorem rotateIn_kept {z : State} (s : State) (gs : List Nat) (hK : Kept z s) : Kept z (rotateIn s gs) := by
  unfold rotateIn
  try dsimp only
  repeat' (first
    | intro _ _ _
    | intro _ _
    | intro _
    | with_reducible assumption
    | ((conv => arg 2; arg 33); with_reducible refine Kept.lit ?_ ?_ ?_) <;> [skip; rfl; exact ⟨rfl, rfl, rfl, rfl, rfl, rfl, rfl⟩]
    | with_reducible apply Kept.ite
    | with_reducible apply Kept.foldl
    | dsimp only
    | split)

theorem issueStripe_kept {z : State} (s : State) (r : HarvestRun) (k : Nat) (header : Bool) (hK : Kept z s) : Kept z (issueStripe s r k header) := by
  unfold issueStripe
  try dsimp only
  repeat' (first
    | intro _ _ _
    | intro _ _
    | intro _
    | with_reducible assumption
    | ((conv => arg 2; arg 33); with_reducible refine Kept.lit ?_ ?_ ?_) <;> [skip; rfl; exact ⟨rfl, rfl, rfl, rfl, rfl, rfl, rfl⟩]
    | with_reducible apply wear_kept
    | with_reducible apply newCutting_kept
    | with_reducible apply useStripe_kept
    | with_reducible apply setRun_kept
    | with_reducible apply rotateIn_kept
    | with_reducible apply Kept.ite
    | with_reducible apply Kept.foldl
    | dsimp only
    | split)

theorem issueData_kept {z : State} (s : State) (fuel : Nat) (hK : Kept z s) : Kept z (issueData s fuel) := by
  induction fuel generalizing  s with
  | zero => first | exact hK | (unfold issueData; exact hK)
  | succ fuel ih =>
  unfold issueData
  try dsimp only
  repeat' (first
    | with_reducible apply ih
    | with_reducible assumption
    | ((conv => arg 2; arg 33); with_reducible refine Kept.lit ?_ ?_ ?_) <;> [skip; rfl; exact ⟨rfl, rfl, rfl, rfl, rfl, rfl, rfl⟩]
    | with_reducible apply useStripe_kept
    | with_reducible apply setRun_kept
    | with_reducible apply issueStripe_kept
    | with_reducible apply Kept.ite
    | dsimp only
    | split)

theorem issueHeader_kept {z : State} (s : State) (fuel : Nat) (hK : Kept z s) : Kept z (issueHeader s fuel) := by
  induction fuel generalizing  s with
  | zero => first | exact hK | (unfold issueHeader; exact hK)
  | succ fuel ih =>
  unfold issueHeader
  try dsimp only
  repeat' (first
    | with_reducible apply ih
    | with_reducible assumption
    | ((conv => arg 2; arg 33); with_reducible refine Kept.lit ?_ ?_ ?_) <;> [skip; rfl; exact ⟨rfl, rfl, rfl, rfl, rfl, rfl, rfl⟩]
    | with_reducible apply issueStripe_kept
    | with_reducible apply Kept.ite
    | dsimp only
    | split)

theorem metaPages_kept {z : State} (s : State) (n idx stripe : Nat) (first : Option Nat) (hK : Kept z s) : Kept z (metaPages s n idx stripe first).1 := by
  induction n generalizing idx stripe first s with
  | zero => first | exact hK | (unfold metaPages; exact hK)
  | succ n ih =>
  unfold metaPages
  try dsimp only
  repeat' (first
    | with_reducible apply ih
    | intro _ _ _
    | intro _ _
    | intro _
    | with_reducible assumption
    | ((conv => arg 2; arg 33); with_reducible refine Kept.lit ?_ ?_ ?_) <;> [skip; rfl; exact ⟨rfl, rfl, rfl, rfl, rfl, rfl, rfl⟩]
    | with_reducible apply useStripe_kept
    | with_reducible apply Kept.foldl
    | dsimp only
    | split)
theorem metaPages_kept_eq {z : State} {s : State} {n idx stripe : Nat} {first : Option Nat} {x : State} {r : _} (e : (metaPages s n idx stripe first) = (x, r)) (hK : Kept z s) : Kept z x := by
  have := metaPages_kept s n idx stripe first hK
  rw [e] at this
  exact this

theorem writeMeta_kept {z : State} (s : State) (r : HarvestRun) (hK : Kept z s) : Kept z (writeMeta s r) := by
  unfold writeMeta
  try dsimp only
  repeat' (first
    | intro _ _ _
    | intro _ _
    | intro _
    | with_reducible assumption
    | ((conv => arg 2; arg 33); with_reducible refine Kept.lit ?_ ?_ ?_) <;> [skip; rfl; exact ⟨rfl, rfl, rfl, rfl, rfl, rfl, rfl⟩]
    | with_reducible apply wear_kept
    | with_reducible apply setRun_kept
    | with_reducible apply metaPages_kept
    | with_reducible refine metaPages_kept_eq (by assumption) ?_
    | with_reducible apply Kept.ite
    | dsimp only
    | split)

theorem harvestAdvance_kept {z : State} (s : State) (hK : Kept z s) : Kept z (harvestAdvance s) := by
  unfold harvestAdvance
  try dsimp only
  repeat' (first
    | with_reducible assumption
    | ((conv => arg 2; arg 33); with_reducible refine Kept.lit ?_ ?_ ?_) <;> [skip; rfl; exact ⟨rfl, rfl, rfl, rfl, rfl, rfl, rfl⟩]
    | with_reducible apply linksEnd_kept
    | with_reducible apply feed_kept
    | with_reducible apply setRun_kept
    | with_reducible apply issueData_kept
    | with_reducible apply issueHeader_kept
    | with_reducible apply writeMeta_kept
    | with_reducible apply Kept.ite
    | dsimp only
    | split)

theorem stripeFailed_kept {z : State} (s : State) (k tk : Nat) (refused : Bool) (hK : Kept z s) : Kept z (stripeFailed s k tk refused) := by
  unfold stripeFailed
  try dsimp only
  repeat' (first
    | intro _ _ _
    | intro _ _
    | intro _
    | with_reducible assumption
    | ((conv => arg 2; arg 33); with_reducible refine Kept.lit ?_ ?_ ?_) <;> [skip; rfl; exact ⟨rfl, rfl, rfl, rfl, rfl, rfl, rfl⟩]
    | with_reducible apply bump_kept
    | with_reducible apply raiseOpen_kept
    | with_reducible apply setBlock_kept
    | with_reducible apply setSb_kept
    | with_reducible apply reportCap_kept
    | with_reducible apply doRetire_kept
    | with_reducible apply Kept.ite
    | dsimp only
    | split)

theorem stripePages_kept {z : State} (s : State) (r : HarvestRun) (st : HStripe) (good : List (Nat × Nat)) (hK : Kept z s) : Kept z (stripePages s r st good) := by
  unfold stripePages
  try dsimp only
  repeat' (first
    | intro _ _ _
    | intro _ _
    | intro _
    | with_reducible assumption
    | ((conv => arg 2; arg 33); with_reducible refine Kept.lit ?_ ?_ ?_) <;> [skip; rfl; exact ⟨rfl, rfl, rfl, rfl, rfl, rfl, rfl⟩]
    | with_reducible apply Kept.foldl
    | dsimp only
    | split)

theorem cmdHarvestPlanLoad_kept {z : State} (f : InFlight) (s : State) (hK : Kept z s) : Kept z (cmdHarvestPlanLoad f s) := by
  unfold cmdHarvestPlanLoad
  try dsimp only
  repeat' (first
    | intro _ _ _
    | intro _ _
    | intro _
    | with_reducible assumption
    | ((conv => arg 2; arg 33); with_reducible refine Kept.lit ?_ ?_ ?_) <;> [skip; rfl; exact ⟨rfl, rfl, rfl, rfl, rfl, rfl, rfl⟩]
    | with_reducible apply pairWrite_kept
    | with_reducible apply endOk_kept
    | with_reducible apply badParam_kept
    | with_reducible apply Kept.ite
    | with_reducible apply Kept.foldl
    | dsimp only
    | split)

theorem execHarvestStripeDone_kept {z : State} (n : Nat) (failed : List Nat) (ues : List Nat) (t : Nat) (s : State) (hK : Kept z s) {w0 : State} (eq0 : execHarvestStripeDone n failed ues t s = .next w0) : Kept z w0 := by
  unfold execHarvestStripeDone at eq0
  try dsimp only at eq0
  try split at eq0
  all_goals refine Kept.of_next eq0 ?_
  all_goals try dsimp only
  repeat' (first
    | intro _ _ _
    | intro _ _
    | intro _
    | with_reducible assumption
    | ((conv => arg 2; arg 33); with_reducible refine Kept.lit ?_ ?_ ?_) <;> [skip; rfl; exact ⟨rfl, rfl, rfl, rfl, rfl, rfl, rfl⟩]
    | with_reducible apply tick_kept
    | with_reducible apply internalUes_kept
    | with_reducible apply sendBound_kept
    | with_reducible apply setRun_kept
    | with_reducible apply harvestAdvance_kept
    | with_reducible apply stripeFailed_kept
    | with_reducible apply stripePages_kept
    | with_reducible apply Kept.ite
    | with_reducible apply Kept.foldl
    | dsimp only
    | split)

theorem execSealWritten_kept {z : State} (bad : List Nat) (t : Nat) (s : State) (hK : Kept z s) {w0 : State} (eq0 : execSealWritten bad t s = .next w0) : Kept z w0 := by
  unfold execSealWritten at eq0
  try dsimp only at eq0
  refine Kept.of_next eq0 ?_
  repeat' (first
    | intro _ _ _
    | intro _ _
    | intro _
    | with_reducible assumption
    | ((conv => arg 2; arg 33); with_reducible refine Kept.lit ?_ ?_ ?_) <;> [skip; rfl; exact ⟨rfl, rfl, rfl, rfl, rfl, rfl, rfl⟩]
    | with_reducible apply tick_kept
    | with_reducible apply sendEvery_kept
    | with_reducible apply notice_kept
    | with_reducible apply raiseOpen_kept
    | with_reducible apply wear_kept
    | with_reducible apply sealFailed_kept
    | with_reducible apply placeSeal_kept
    | with_reducible apply setRun_kept
    | with_reducible apply Kept.ite
    | with_reducible apply Kept.foldl
    | dsimp only
    | split)

theorem execHarvestPlanLoad_kept {z : State} (c : TrellisCmd) (s : State) (hK : Kept z s) {w0 : State} (eq0 : execHarvestPlanLoad c s = .next w0) : Kept z w0 := by
  unfold execHarvestPlanLoad at eq0
  try dsimp only at eq0
  refine Kept.of_next eq0 ?_
  repeat' (first
    | intro _ _ _
    | intro _ _
    | intro _
    | with_reducible assumption
    | with_reducible apply submit_kept
    | with_reducible apply cmdHarvestPlanLoad_kept)

end Sys2Proof.Machine
end

