-- ==== Sys2Proof/Laws/KeptHost.lean ====
section
/-! SUPPORT. What the functions of Ledger, Cxl, Replant, Allots, Firmware keep (Laws/Kept.lean). -/

namespace Sys2Proof.Machine

open Sys2Proof

set_option linter.unusedTactic false
set_option linter.unreachableTactic false

/-! ### Ledger -/

theorem setAllot_kept {z : State} (s : State) (id : Nat) (a : Allot) (hK : Kept z s) : Kept z (setAllot s id a) := by
  unfold setAllot
  try dsimp only
  repeat' (first
    | with_reducible assumption
    | ((conv => arg 2; arg 33); with_reducible refine Kept.lit ?_ ?_ ?_) <;> [skip; rfl; exact ⟨rfl, rfl, rfl, rfl, rfl, rfl, rfl⟩])

theorem modAllot_kept {z : State} (s : State) (id : Nat) (f : Allot → Allot) (hK : Kept z s) : Kept z (modAllot s id f) := by
  unfold modAllot
  try dsimp only
  repeat' (first
    | intro _ _ _
    | intro _ _
    | intro _
    | with_reducible assumption
    | ((conv => arg 2; arg 33); with_reducible refine Kept.lit ?_ ?_ ?_) <;> [skip; rfl; exact ⟨rfl, rfl, rfl, rfl, rfl, rfl, rfl⟩]
    | with_reducible apply setAllot_kept
    | dsimp only
    | split)

theorem postDc_kept {z : State} (s : State) (ty id : Nat) (a : Allot) (b : Binding) (ks : List Nat) (hK : Kept z s) : Kept z (postDc s ty id a b ks) := by
  unfold postDc
  try dsimp only
  repeat' (first
    | intro _ _ _
    | intro _ _
    | intro _
    | with_reducible assumption
    | ((conv => arg 2; arg 33); with_reducible refine Kept.lit ?_ ?_ ?_) <;> [skip; rfl; exact ⟨rfl, rfl, rfl, rfl, rfl, rfl, rfl⟩]
    | with_reducible apply Kept.foldl)

theorem modBinding_kept {z : State} (s : State) (id issuer : Nat) (f : Binding → Binding) (hK : Kept z s) : Kept z (modBinding s id issuer f) := by
  unfold modBinding
  try dsimp only
  repeat' (first
    | intro _ _ _
    | intro _ _
    | intro _
    | with_reducible assumption
    | ((conv => arg 2; arg 33); with_reducible refine Kept.lit ?_ ?_ ?_) <;> [skip; rfl; exact ⟨rfl, rfl, rfl, rfl, rfl, rfl, rfl⟩]
    | with_reducible apply modAllot_kept
    | with_reducible apply Kept.ite
    | dsimp only
    | split)

theorem offerTo_kept {z : State} (s : State) (id : Nat) (issuer : BitVec 16) (hK : Kept z s) : Kept z (offerTo s id issuer) := by
  unfold offerTo
  try dsimp only
  repeat' (first
    | intro _ _ _
    | intro _ _
    | intro _
    | with_reducible assumption
    | ((conv => arg 2; arg 33); with_reducible refine Kept.lit ?_ ?_ ?_) <;> [skip; rfl; exact ⟨rfl, rfl, rfl, rfl, rfl, rfl, rfl⟩]
    | with_reducible apply postDc_kept
    | with_reducible apply modBinding_kept
    | with_reducible apply Kept.ite
    | dsimp only
    | split)

theorem offerRest_kept {z : State} (s : State) (id : Nat) (issuer : BitVec 16) (hK : Kept z s) : Kept z (offerRest s id issuer) := by
  unfold offerRest
  try dsimp only
  repeat' (first
    | intro _ _ _
    | intro _ _
    | intro _
    | with_reducible assumption
    | ((conv => arg 2; arg 33); with_reducible refine Kept.lit ?_ ?_ ?_) <;> [skip; rfl; exact ⟨rfl, rfl, rfl, rfl, rfl, rfl, rfl⟩]
    | with_reducible apply postDc_kept
    | with_reducible apply modBinding_kept
    | with_reducible apply offerTo_kept
    | with_reducible apply Kept.ite
    | dsimp only
    | split)

theorem offerAllot_kept {z : State} (s : State) (id : Nat) (hK : Kept z s) : Kept z (offerAllot s id) := by
  unfold offerAllot
  try dsimp only
  repeat' (first
    | intro _ _ _
    | intro _ _
    | intro _
    | with_reducible assumption
    | ((conv => arg 2; arg 33); with_reducible refine Kept.lit ?_ ?_ ?_) <;> [skip; rfl; exact ⟨rfl, rfl, rfl, rfl, rfl, rfl, rfl⟩]
    | with_reducible apply offerTo_kept
    | with_reducible apply Kept.foldl
    | dsimp only
    | split)

theorem offerAll_kept {z : State} (s : State) (hK : Kept z s) : Kept z (offerAll s) := by
  unfold offerAll
  try dsimp only
  repeat' (first
    | intro _ _ _
    | intro _ _
    | intro _
    | with_reducible assumption
    | with_reducible apply offerAllot_kept
    | with_reducible apply Kept.foldl)

theorem tellHosts_kept {z : State} (s : State) (id reason : Nat) (hK : Kept z s) : Kept z (tellHosts s id reason) := by
  unfold tellHosts
  try dsimp only
  repeat' (first
    | intro _ _ _
    | intro _ _
    | intro _
    | with_reducible assumption
    | ((conv => arg 2; arg 33); with_reducible refine Kept.lit ?_ ?_ ?_) <;> [skip; rfl; exact ⟨rfl, rfl, rfl, rfl, rfl, rfl, rfl⟩]
    | with_reducible apply Kept.ite
    | with_reducible apply Kept.foldl
    | dsimp only
    | split)

theorem makeStale_kept {z : State} (s : State) (id : Nat) (hK : Kept z s) : Kept z (makeStale s id) := by
  unfold makeStale
  try dsimp only
  repeat' (first
    | with_reducible assumption
    | ((conv => arg 2; arg 33); with_reducible refine Kept.lit ?_ ?_ ?_) <;> [skip; rfl; exact ⟨rfl, rfl, rfl, rfl, rfl, rfl, rfl⟩]
    | with_reducible apply setAllot_kept
    | with_reducible apply tellHosts_kept
    | with_reducible apply Kept.ite
    | dsimp only
    | split)

theorem judgeService_kept {z : State} (s : State) (hK : Kept z s) : Kept z (judgeService s) := by
  unfold judgeService
  try dsimp only
  repeat' (first
    | with_reducible assumption
    | ((conv => arg 2; arg 33); with_reducible refine Kept.lit ?_ ?_ ?_) <;> [skip; rfl; exact ⟨rfl, rfl, rfl, rfl, rfl, rfl, rfl⟩]
    | with_reducible apply setDev_kept
    | with_reducible apply enterService_kept
    | with_reducible apply Kept.ite
    | dsimp only
    | split)

theorem position_kept {z : State} (s : State) (l : Nat) (hK : Kept z s) : Kept z (position s l).1 := by
  unfold position
  try dsimp only
  repeat' (first
    | with_reducible assumption
    | ((conv => arg 2; arg 33); with_reducible refine Kept.lit ?_ ?_ ?_) <;> [skip; rfl; exact ⟨rfl, rfl, rfl, rfl, rfl, rfl, rfl⟩]
    | with_reducible apply programJournal_kept
    | with_reducible apply journal_kept
    | with_reducible apply Kept.ite
    | dsimp only
    | split)
theorem position_kept_eq {z : State} {s : State} {l : Nat} {x : State} {r : _} (e : (position s l) = (x, r)) (hK : Kept z s) : Kept z x := by
  have := position_kept s l hK
  rw [e] at this
  exact this

theorem applyLine_kept {z : State} (s : State) (n l : Nat) (data : List Byte) (en : BitVec 64) (pois : Bool) (hK : Kept z s) : Kept z (applyLine s n l data en pois) := by
  unfold applyLine
  try dsimp only
  repeat' (first
    | with_reducible assumption
    | with_reducible apply enqueue_kept
    | with_reducible apply writeLine_kept)

theorem applyWrite_kept {z : State} (s : State) (h : HeldWrite) (hK : Kept z s) : Kept z (applyWrite s h) := by
  unfold applyWrite
  try dsimp only
  repeat' (first
    | with_reducible assumption
    | ((conv => arg 2; arg 33); with_reducible refine Kept.lit ?_ ?_ ?_) <;> [skip; rfl; exact ⟨rfl, rfl, rfl, rfl, rfl, rfl, rfl⟩]
    | with_reducible apply applyLine_kept
    | with_reducible apply Kept.ite
    | dsimp only
    | split)

theorem releaseRebuilt_kept {z : State} (s : State) (hK : Kept z s) : Kept z (releaseRebuilt s) := by
  unfold releaseRebuilt
  try dsimp only
  repeat' (first
    | intro _ _ _
    | intro _ _
    | intro _
    | with_reducible assumption
    | ((conv => arg 2; arg 33); with_reducible refine Kept.lit ?_ ?_ ?_) <;> [skip; rfl; exact ⟨rfl, rfl, rfl, rfl, rfl, rfl, rfl⟩]
    | with_reducible apply applyWrite_kept
    | with_reducible apply Kept.foldl)

theorem applyOrHold_kept {z : State} (s : State) (h : HeldWrite) (hold : Bool) (hK : Kept z s) : Kept z (applyOrHold s h hold) := by
  unfold applyOrHold
  try dsimp only
  repeat' (first
    | with_reducible assumption
    | ((conv => arg 2; arg 33); with_reducible refine Kept.lit ?_ ?_ ?_) <;> [skip; rfl; exact ⟨rfl, rfl, rfl, rfl, rfl, rfl, rfl⟩]
    | with_reducible apply applyWrite_kept
    | with_reducible apply Kept.ite
    | dsimp only
    | split)

theorem replantRates_kept {z : State} (s : State) (hK : Kept z s) : Kept z (replantRates s) := by
  unfold replantRates
  try dsimp only
  repeat' (first
    | with_reducible assumption
    | ((conv => arg 2; arg 33); with_reducible refine Kept.lit ?_ ?_ ?_) <;> [skip; rfl; exact ⟨rfl, rfl, rfl, rfl, rfl, rfl, rfl⟩]
    | with_reducible apply Kept.ite
    | dsimp only
    | split)

theorem restoreComplete_kept {z : State} (s : State) (hK : Kept z s) : Kept z (restoreComplete s) := by
  unfold restoreComplete
  try dsimp only
  repeat' (first
    | with_reducible assumption
    | ((conv => arg 2; arg 33); with_reducible refine Kept.lit ?_ ?_ ?_) <;> [skip; rfl; exact ⟨rfl, rfl, rfl, rfl, rfl, rfl, rfl⟩]
    | with_reducible apply enterService_kept
    | with_reducible apply offerAll_kept
    | with_reducible apply replantRates_kept
    | with_reducible apply Kept.ite
    | dsimp only
    | split)

theorem granRestored_kept {z : State} (s : State) (g : Nat) (hK : Kept z s) : Kept z (granRestored s g) := by
  unfold granRestored
  try dsimp only
  repeat' (first
    | with_reducible assumption
    | ((conv => arg 2; arg 33); with_reducible refine Kept.lit ?_ ?_ ?_) <;> [skip; rfl; exact ⟨rfl, rfl, rfl, rfl, rfl, rfl, rfl⟩]
    | with_reducible apply setAllot_kept
    | with_reducible apply restoreComplete_kept
    | with_reducible apply Kept.ite
    | dsimp only
    | split)

theorem fetchCutting_kept {z : State} (s : State) (g : Nat) (hK : Kept z s) : Kept z (fetchCutting s g) := by
  unfold fetchCutting
  try dsimp only
  repeat' (first
    | with_reducible assumption
    | with_reducible apply newCutting_kept)

theorem startFetch_kept {z : State} (s : State) (g : Nat) (hK : Kept z s) : Kept z (startFetch s g) := by
  unfold startFetch
  try dsimp only
  repeat' (first
    | intro _ _ _
    | intro _ _
    | intro _
    | with_reducible assumption
    | ((conv => arg 2; arg 33); with_reducible refine Kept.lit ?_ ?_ ?_) <;> [skip; rfl; exact ⟨rfl, rfl, rfl, rfl, rfl, rfl, rfl⟩]
    | with_reducible apply fetchCutting_kept
    | with_reducible apply Kept.ite
    | dsimp only
    | split)

theorem waitFetch_kept {z : State} (s : State) (g : Nat) (h : HeldWrite) (hK : Kept z s) : Kept z (waitFetch s g h) := by
  unfold waitFetch
  try dsimp only
  repeat' (first
    | intro _ _ _
    | intro _ _
    | intro _
    | with_reducible assumption
    | ((conv => arg 2; arg 33); with_reducible refine Kept.lit ?_ ?_ ?_) <;> [skip; rfl; exact ⟨rfl, rfl, rfl, rfl, rfl, rfl, rfl⟩]
    | with_reducible apply Kept.ite
    | dsimp only
    | split)

theorem granReady_kept {z : State} (s : State) (g : Nat) (badCrc : Bool) (hK : Kept z s) : Kept z (granReady s g badCrc).1 := by
  unfold granReady
  try dsimp only
  repeat' (first
    | intro _ _ _
    | intro _ _
    | intro _
    | with_reducible assumption
    | ((conv => arg 2; arg 33); with_reducible refine Kept.lit ?_ ?_ ?_) <;> [skip; rfl; exact ⟨rfl, rfl, rfl, rfl, rfl, rfl, rfl⟩]
    | with_reducible apply raiseOpen_kept
    | with_reducible apply putGran_kept
    | with_reducible apply zeroGran_kept
    | with_reducible apply granRestored_kept
    | with_reducible apply startFetch_kept
    | with_reducible apply Kept.ite
    | dsimp only
    | split)
theorem granReady_kept_eq {z : State} {s : State} {g : Nat} {badCrc : Bool} {x : State} {r : _} (e : (granReady s g badCrc) = (x, r)) (hK : Kept z s) : Kept z x := by
  have := granReady_kept s g badCrc hK
  rw [e] at this
  exact this

theorem granReadyFree_kept {z : State} (s : State) (g : Nat) (hK : Kept z s) : Kept z (granReadyFree s g).1 := by
  unfold granReadyFree
  try dsimp only
  repeat' (first
    | intro _ _ _
    | intro _ _
    | intro _
    | with_reducible assumption
    | with_reducible apply drew_kept
    | with_reducible apply granReady_kept
    | with_reducible refine granReady_kept_eq (by assumption) ?_
    | with_reducible apply Kept.ite
    | dsimp only
    | split)
theorem granReadyFree_kept_eq {z : State} {s : State} {g : Nat} {x : State} {r : _} (e : (granReadyFree s g) = (x, r)) (hK : Kept z s) : Kept z x := by
  have := granReadyFree_kept s g hK
  rw [e] at this
  exact this

theorem releaseHeld_kept {z : State} (s : State) (hK : Kept z s) : Kept z (releaseHeld s) := by
  unfold releaseHeld
  try dsimp only
  repeat' (first
    | intro _ _ _
    | intro _ _
    | intro _
    | with_reducible assumption
    | ((conv => arg 2; arg 33); with_reducible refine Kept.lit ?_ ?_ ?_) <;> [skip; rfl; exact ⟨rfl, rfl, rfl, rfl, rfl, rfl, rfl⟩]
    | with_reducible apply applyWrite_kept
    | with_reducible apply Kept.foldl)

theorem drainSub_kept {z : State} (s : State) (k fuel : Nat) (hK : Kept z s) : Kept z (drainSub s k fuel) := by
  induction fuel generalizing k s with
  | zero => first | exact hK | (unfold drainSub; exact hK)
  | succ fuel ih =>
  unfold drainSub
  try dsimp only
  repeat' (first
    | with_reducible apply ih
    | intro _ _ _
    | intro _ _
    | intro _
    | with_reducible assumption
    | ((conv => arg 2; arg 33); with_reducible refine Kept.lit ?_ ?_ ?_) <;> [skip; rfl; exact ⟨rfl, rfl, rfl, rfl, rfl, rfl, rfl⟩]
    | with_reducible apply modSub_kept
    | with_reducible apply sendMsg_kept
    | with_reducible apply touchGran_kept
    | with_reducible apply joinHarvest_kept
    | with_reducible apply applyWrite_kept
    | with_reducible apply granReadyFree_kept
    | with_reducible refine granReadyFree_kept_eq (by assumption) ?_
    | with_reducible apply Kept.ite
    | dsimp only
    | split)

theorem drainSubs_kept {z : State} (s : State) (hK : Kept z s) : Kept z (drainSubs s) := by
  unfold drainSubs
  try dsimp only
  repeat' (first
    | intro _ _ _
    | intro _ _
    | intro _
    | with_reducible assumption
    | with_reducible apply drainSub_kept
    | with_reducible apply Kept.foldl)

theorem abandonCompare_kept {z : State} (s : State) (e : Nat) (hK : Kept z s) : Kept z (abandonCompare s e) := by
  unfold abandonCompare
  try dsimp only
  repeat' (first
    | intro _ _ _
    | intro _ _
    | intro _
    | with_reducible assumption
    | ((conv => arg 2; arg 33); with_reducible refine Kept.lit ?_ ?_ ?_) <;> [skip; rfl; exact ⟨rfl, rfl, rfl, rfl, rfl, rfl, rfl⟩]
    | with_reducible apply releaseHeld_kept
    | with_reducible apply drainSubs_kept
    | with_reducible apply Kept.ite
    | with_reducible apply Kept.foldl
    | dsimp only
    | split)

theorem judgeHeld_kept {z : State} (s : State) (hK : Kept z s) : Kept z (judgeHeld s) := by
  unfold judgeHeld
  try dsimp only
  repeat' (first
    | intro _ _ _
    | intro _ _
    | intro _
    | with_reducible assumption
    | ((conv => arg 2; arg 33); with_reducible refine Kept.lit ?_ ?_ ?_) <;> [skip; rfl; exact ⟨rfl, rfl, rfl, rfl, rfl, rfl, rfl⟩]
    | with_reducible apply abandonCompare_kept
    | with_reducible apply Kept.ite
    | with_reducible apply Kept.foldl
    | dsimp only
    | split)

theorem sendRecord_kept {z : State} (s : State) (k : Nat) (r : MirRec) (hK : Kept z s) : Kept z (sendRecord s k r) := by
  unfold sendRecord
  try dsimp only
  repeat' (first
    | intro _ _ _
    | intro _ _
    | intro _
    | with_reducible assumption
    | ((conv => arg 2; arg 33); with_reducible refine Kept.lit ?_ ?_ ?_) <;> [skip; rfl; exact ⟨rfl, rfl, rfl, rfl, rfl, rfl, rfl⟩]
    | with_reducible apply emit_kept
    | with_reducible apply modSub_kept
    | with_reducible apply sendFlit_kept
    | with_reducible apply Kept.ite
    | dsimp only
    | split)

theorem noteFill_kept {z : State} (s : State) (r : MemReq) (x : LineIn) (hK : Kept z s) : Kept z (noteFill s r x) := by
  unfold noteFill
  try dsimp only
  repeat' (first
    | intro _ _ _
    | intro _ _
    | intro _
    | with_reducible assumption
    | ((conv => arg 2; arg 33); with_reducible refine Kept.lit ?_ ?_ ?_) <;> [skip; rfl; exact ⟨rfl, rfl, rfl, rfl, rfl, rfl, rfl⟩])

theorem noteLoad_kept {z : State} (s : State) (port issuer d : Nat) (hK : Kept z s) : Kept z (noteLoad s port issuer d) := by
  unfold noteLoad
  try dsimp only
  repeat' (first
    | with_reducible assumption
    | ((conv => arg 2; arg 33); with_reducible refine Kept.lit ?_ ?_ ?_) <;> [skip; rfl; exact ⟨rfl, rfl, rfl, rfl, rfl, rfl, rfl⟩]
    | with_reducible apply Kept.ite
    | dsimp only
    | split)

theorem judgeGpf_kept {z : State} (s : State) (port : Nat) (hK : Kept z s) : Kept z (judgeGpf s port) := by
  unfold judgeGpf
  try dsimp only
  repeat' (first
    | with_reducible assumption
    | ((conv => arg 2; arg 33); with_reducible refine Kept.lit ?_ ?_ ?_) <;> [skip; rfl; exact ⟨rfl, rfl, rfl, rfl, rfl, rfl, rfl⟩]
    | with_reducible apply emit_kept
    | with_reducible apply Kept.ite
    | dsimp only
    | split)

theorem writeLeft_kept {z : State} (s : State) (port n : Nat) (hK : Kept z s) : Kept z (writeLeft s port n) := by
  unfold writeLeft
  try dsimp only
  repeat' (first
    | intro _ _ _
    | intro _ _
    | intro _
    | with_reducible assumption
    | ((conv => arg 2; arg 33); with_reducible refine Kept.lit ?_ ?_ ?_) <;> [skip; rfl; exact ⟨rfl, rfl, rfl, rfl, rfl, rfl, rfl⟩]
    | with_reducible apply judgeGpf_kept
    | with_reducible apply Kept.ite
    | dsimp only
    | split)

theorem completeWrite_kept {z : State} (s : State) (n port issuer line : Nat) (mirrored : Bool) (hK : Kept z s) : Kept z (completeWrite s n port issuer line mirrored) := by
  unfold completeWrite
  try dsimp only
  repeat' (first
    | with_reducible assumption
    | with_reducible apply emit_kept
    | with_reducible apply noteLoad_kept
    | with_reducible apply writeLeft_kept
    | with_reducible apply Kept.ite
    | dsimp only
    | split)

theorem completeReady_kept {z : State} (s : State) (hK : Kept z s) : Kept z (completeReady s) := by
  unfold completeReady
  try dsimp only
  repeat' (first
    | intro _ _ _
    | intro _ _
    | intro _
    | with_reducible assumption
    | ((conv => arg 2; arg 33); with_reducible refine Kept.lit ?_ ?_ ?_) <;> [skip; rfl; exact ⟨rfl, rfl, rfl, rfl, rfl, rfl, rfl⟩]
    | with_reducible apply completeWrite_kept
    | with_reducible apply Kept.foldl)

theorem dropRequest_kept {z : State} (s : State) (port issuer reason : Nat) (read : Bool) (hK : Kept z s) : Kept z (dropRequest s port issuer reason read) := by
  unfold dropRequest
  try dsimp only
  repeat' (first
    | with_reducible assumption
    | with_reducible apply emit_kept
    | with_reducible apply cxlDrop_kept
    | with_reducible apply Kept.ite
    | dsimp only
    | split)

theorem execTallyRebuildDone_kept {z : State} (c : Nat) (ues : List Nat) (t : Nat) (s : State) (hK : Kept z s) {w0 : State} (eq0 : execTallyRebuildDone c ues t s = .next w0) : Kept z w0 := by
  unfold execTallyRebuildDone at eq0
  try dsimp only at eq0
  refine Kept.of_next eq0 ?_
  repeat' (first
    | intro _ _ _
    | intro _ _
    | intro _
    | with_reducible assumption
    | ((conv => arg 2; arg 33); with_reducible refine Kept.lit ?_ ?_ ?_) <;> [skip; rfl; exact ⟨rfl, rfl, rfl, rfl, rfl, rfl, rfl⟩]
    | with_reducible apply tick_kept
    | with_reducible apply bump_kept
    | with_reducible apply raiseOpen_kept
    | with_reducible apply setDdr_kept
    | with_reducible apply setCrc_kept
    | with_reducible apply internalUes_kept
    | with_reducible apply releaseRebuilt_kept
    | ((conv => arg 2; arg 33); with_reducible refine Kept.litNil ?_ ?_ ?_) <;> [skip; rfl; exact ⟨rfl, rfl, rfl, rfl, rfl, rfl, rfl⟩]
    | dsimp only
    | split)

/-! ### Cxl -/

theorem setPort_kept {z : State} (s : State) (n : Nat) (x : Port) (hK : Kept z s) : Kept z (setPort s n x) := by
  unfold setPort
  try dsimp only
  repeat' (first
    | with_reducible assumption
    | ((conv => arg 2; arg 33); with_reducible refine Kept.lit ?_ ?_ ?_) <;> [skip; rfl; exact ⟨rfl, rfl, rfl, rfl, rfl, rfl, rfl⟩])

theorem answerRead_kept {z : State} (s : State) (h : HeldWrite) (hK : Kept z s) : Kept z (answerRead s h) := by
  unfold answerRead
  try dsimp only
  repeat' (first
    | with_reducible assumption
    | ((conv => arg 2; arg 33); with_reducible refine Kept.lit ?_ ?_ ?_) <;> [skip; rfl; exact ⟨rfl, rfl, rfl, rfl, rfl, rfl, rfl⟩]
    | with_reducible apply emit_kept
    | with_reducible apply noteLoad_kept
    | with_reducible apply Kept.ite
    | dsimp only
    | split)

theorem numbered_kept {z : State} (s : State) (hK : Kept z s) : Kept z (numbered s) := by
  unfold numbered
  try dsimp only
  repeat' (first
    | with_reducible assumption
    | ((conv => arg 2; arg 33); with_reducible refine Kept.lit ?_ ?_ ?_) <;> [skip; rfl; exact ⟨rfl, rfl, rfl, rfl, rfl, rfl, rfl⟩])

theorem lineFound_kept {z : State} (s : State) (l : Nat) (x : LineIn) (hK : Kept z s) : Kept z (lineFound s l x) := by
  unfold lineFound
  try dsimp only
  repeat' (first
    | with_reducible assumption
    | ((conv => arg 2; arg 33); with_reducible refine Kept.lit ?_ ?_ ?_) <;> [skip; rfl; exact ⟨rfl, rfl, rfl, rfl, rfl, rfl, rfl⟩]
    | with_reducible apply corrected_kept
    | with_reducible apply noteUe_kept
    | with_reducible apply Kept.ite
    | dsimp only
    | split)

theorem oldLineFound_kept {z : State} (s : State) (l : Nat) (x : LineIn) (hK : Kept z s) : Kept z (oldLineFound s l x) := by
  unfold oldLineFound
  try dsimp only
  repeat' (first
    | with_reducible assumption
    | ((conv => arg 2; arg 33); with_reducible refine Kept.lit ?_ ?_ ?_) <;> [skip; rfl; exact ⟨rfl, rfl, rfl, rfl, rfl, rfl, rfl⟩]
    | with_reducible apply corrected_kept
    | ((conv => arg 2; arg 33); with_reducible refine Kept.litNil ?_ ?_ ?_) <;> [skip; rfl; exact ⟨rfl, rfl, rfl, rfl, rfl, rfl, rfl⟩]
    | with_reducible apply Kept.ite
    | dsimp only
    | split)

theorem noteRequest_kept {z : State} (s : State) (hK : Kept z s) : Kept z (noteRequest s) := by
  unfold noteRequest
  try dsimp only
  repeat' (first
    | with_reducible assumption
    | ((conv => arg 2; arg 33); with_reducible refine Kept.lit ?_ ?_ ?_) <;> [skip; rfl; exact ⟨rfl, rfl, rfl, rfl, rfl, rfl, rfl⟩]
    | with_reducible apply Kept.ite
    | dsimp only
    | split)

theorem readServed_kept {z : State} (s : State) (h : HeldWrite) (hK : Kept z s) : Kept z (readServed s h) := by
  unfold readServed
  try dsimp only
  repeat' (first
    | with_reducible assumption
    | with_reducible apply enqueue_kept
    | with_reducible apply answerRead_kept
    | with_reducible apply lineFound_kept)

theorem serveRead_kept {z : State} (s : State) (r : MemReq) (x : LineIn) (hK : Kept z s) : Kept z (serveRead s r x) := by
  unfold serveRead
  try dsimp only
  repeat' (first
    | with_reducible assumption
    | ((conv => arg 2; arg 33); with_reducible refine Kept.lit ?_ ?_ ?_) <;> [skip; rfl; exact ⟨rfl, rfl, rfl, rfl, rfl, rfl, rfl⟩]
    | with_reducible apply waitFetch_kept
    | with_reducible apply granReady_kept
    | with_reducible refine granReady_kept_eq (by assumption) ?_
    | with_reducible apply dropRequest_kept
    | with_reducible apply numbered_kept
    | with_reducible apply readServed_kept
    | with_reducible apply Kept.ite
    | dsimp only
    | split)

theorem creditKept_kept {z : State} (b s : State) (p : Option Nat) (hK : Kept z s) : Kept z (creditKept b s p) := by
  unfold creditKept
  try dsimp only
  repeat' (first
    | intro _ _ _
    | intro _ _
    | intro _
    | with_reducible assumption
    | ((conv => arg 2; arg 33); with_reducible refine Kept.lit ?_ ?_ ?_) <;> [skip; rfl; exact ⟨rfl, rfl, rfl, rfl, rfl, rfl, rfl⟩]
    | with_reducible apply Kept.ite
    | dsimp only
    | split)

theorem holdWrite_kept {z : State} (s : State) (h : HeldWrite) (hK : Kept z s) : Kept z (holdWrite s h) := by
  unfold holdWrite
  try dsimp only
  repeat' (first
    | with_reducible assumption
    | ((conv => arg 2; arg 33); with_reducible refine Kept.lit ?_ ?_ ?_) <;> [skip; rfl; exact ⟨rfl, rfl, rfl, rfl, rfl, rfl, rfl⟩])

theorem writeApplied_kept {z : State} (s : State) (h : HeldWrite) (hK : Kept z s) : Kept z (writeApplied s h) := by
  unfold writeApplied
  try dsimp only
  repeat' (first
    | intro _ _ _
    | intro _ _
    | intro _
    | with_reducible assumption
    | ((conv => arg 2; arg 33); with_reducible refine Kept.lit ?_ ?_ ?_) <;> [skip; rfl; exact ⟨rfl, rfl, rfl, rfl, rfl, rfl, rfl⟩]
    | with_reducible apply completeWrite_kept
    | with_reducible apply completeReady_kept
    | with_reducible apply Kept.ite
    | dsimp only
    | split)

theorem placeWrite_kept {z : State} (s : State) (h : HeldWrite) (id : Nat) (a : Allot) (hK : Kept z s) : Kept z (placeWrite s h id a) := by
  unfold placeWrite
  try dsimp only
  repeat' (first
    | with_reducible assumption
    | ((conv => arg 2; arg 33); with_reducible refine Kept.lit ?_ ?_ ?_) <;> [skip; rfl; exact ⟨rfl, rfl, rfl, rfl, rfl, rfl, rfl⟩]
    | with_reducible apply judgeExcess_kept
    | with_reducible apply touchGran_kept
    | with_reducible apply position_kept
    | with_reducible refine position_kept_eq (by assumption) ?_
    | with_reducible apply applyOrHold_kept
    | with_reducible apply waitFetch_kept
    | with_reducible apply granReady_kept
    | with_reducible refine granReady_kept_eq (by assumption) ?_
    | with_reducible apply judgeHeld_kept
    | with_reducible apply sendRecord_kept
    | with_reducible apply oldLineFound_kept
    | with_reducible apply writeApplied_kept
    | with_reducible apply Kept.ite
    | dsimp only
    | split)

theorem tryWrite_kept {z : State} (s : State) (h : HeldWrite) (hK : Kept z s) : Kept z (tryWrite s h) := by
  unfold tryWrite
  try dsimp only
  repeat' (first
    | intro _ _ _
    | intro _ _
    | intro _
    | with_reducible assumption
    | ((conv => arg 2; arg 33); with_reducible refine Kept.lit ?_ ?_ ?_) <;> [skip; rfl; exact ⟨rfl, rfl, rfl, rfl, rfl, rfl, rfl⟩]
    | with_reducible apply writeLeft_kept
    | with_reducible apply dropRequest_kept
    | with_reducible apply holdWrite_kept
    | with_reducible apply placeWrite_kept
    | with_reducible apply Kept.ite
    | dsimp only
    | split)

theorem retryHeld_kept {z : State} (s : State) (hK : Kept z s) : Kept z (retryHeld s) := by
  unfold retryHeld
  try dsimp only
  repeat' (first
    | intro _ _ _
    | intro _ _
    | intro _
    | with_reducible assumption
    | ((conv => arg 2; arg 33); with_reducible refine Kept.lit ?_ ?_ ?_) <;> [skip; rfl; exact ⟨rfl, rfl, rfl, rfl, rfl, rfl, rfl⟩]
    | with_reducible apply creditKept_kept
    | with_reducible apply tryWrite_kept
    | with_reducible apply Kept.foldl)

theorem neverComplete_kept {z : State} (s : State) (p : Nat → Nat → Bool) (hK : Kept z s) : Kept z (neverComplete s p) := by
  unfold neverComplete
  try dsimp only
  repeat' (first
    | intro _ _ _
    | intro _ _
    | intro _
    | with_reducible assumption
    | ((conv => arg 2; arg 33); with_reducible refine Kept.lit ?_ ?_ ?_) <;> [skip; rfl; exact ⟨rfl, rfl, rfl, rfl, rfl, rfl, rfl⟩]
    | with_reducible apply Kept.ite
    | dsimp only
    | split)

theorem linkFalls_kept {z : State} (s : State) (n : Nat) (hK : Kept z s) : Kept z (linkFalls s n) := by
  unfold linkFalls
  try dsimp only
  repeat' (first
    | intro _ _ _
    | intro _ _
    | intro _
    | with_reducible assumption
    | ((conv => arg 2; arg 33); with_reducible refine Kept.lit ?_ ?_ ?_) <;> [skip; rfl; exact ⟨rfl, rfl, rfl, rfl, rfl, rfl, rfl⟩]
    | with_reducible apply emit_kept
    | with_reducible apply setPort_kept
    | with_reducible apply neverComplete_kept
    | with_reducible apply Kept.ite
    | dsimp only
    | split)

theorem execCxlMemRead_kept {z : State} (r : MemReq) (x : LineIn) (t : Nat) (s : State) (hK : Kept z s) {w0 : State} (eq0 : execCxlMemRead r x t s = .next w0) : Kept z w0 := by
  unfold execCxlMemRead at eq0
  try dsimp only at eq0
  refine Kept.of_next eq0 ?_
  repeat' (first
    | with_reducible assumption
    | with_reducible apply tick_kept
    | with_reducible apply noteFill_kept
    | with_reducible apply noteRequest_kept
    | with_reducible apply serveRead_kept
    | with_reducible apply creditKept_kept
    | with_reducible apply Kept.ite
    | dsimp only
    | split)

theorem execCxlMemWrite_kept {z : State} (r : MemReq) (x : LineIn) (t : Nat) (s : State) (hK : Kept z s) {w0 : State} (eq0 : execCxlMemWrite r x t s = .next w0) : Kept z w0 := by
  unfold execCxlMemWrite at eq0
  try dsimp only at eq0
  refine Kept.of_next eq0 ?_
  repeat' (first
    | with_reducible assumption
    | with_reducible apply tick_kept
    | with_reducible apply noteFill_kept
    | with_reducible apply numbered_kept
    | with_reducible apply noteRequest_kept
    | with_reducible apply creditKept_kept
    | with_reducible apply tryWrite_kept
    | with_reducible apply Kept.ite
    | dsimp only
    | split)

theorem execHeldWriteDiscard_kept {z : State} (n t : Nat) (s : State) (hK : Kept z s) {w0 : State} (eq0 : execHeldWriteDiscard n t s = .next w0) : Kept z w0 := by
  unfold execHeldWriteDiscard at eq0
  try dsimp only at eq0
  refine Kept.of_next eq0 ?_
  repeat' (first
    | intro _ _ _
    | intro _ _
    | intro _
    | with_reducible assumption
    | ((conv => arg 2; arg 33); with_reducible refine Kept.lit ?_ ?_ ?_) <;> [skip; rfl; exact ⟨rfl, rfl, rfl, rfl, rfl, rfl, rfl⟩]
    | with_reducible apply tick_kept
    | with_reducible apply writeLeft_kept
    | with_reducible apply dropRequest_kept
    | with_reducible apply creditKept_kept
    | with_reducible apply Kept.ite
    | with_reducible apply Kept.foldl
    | dsimp only
    | split)

theorem execGpfPhase1_kept {z : State} (n t : Nat) (s : State) (hK : Kept z s) {w0 : State} (eq0 : execGpfPhase1 n t s = .next w0) : Kept z w0 := by
  unfold execGpfPhase1 at eq0
  try dsimp only at eq0
  refine Kept.of_next eq0 ?_
  repeat' (first
    | with_reducible assumption
    | with_reducible apply emit_kept
    | with_reducible apply tick_kept
    | with_reducible apply Kept.ite
    | dsimp only
    | split)

theorem execGpfPhase2_kept {z : State} (n t : Nat) (s : State) (hK : Kept z s) {w0 : State} (eq0 : execGpfPhase2 n t s = .next w0) : Kept z w0 := by
  unfold execGpfPhase2 at eq0
  try dsimp only at eq0
  refine Kept.of_next eq0 ?_
  repeat' (first
    | with_reducible assumption
    | ((conv => arg 2; arg 33); with_reducible refine Kept.lit ?_ ?_ ?_) <;> [skip; rfl; exact ⟨rfl, rfl, rfl, rfl, rfl, rfl, rfl⟩]
    | with_reducible apply tick_kept
    | with_reducible apply judgeGpf_kept
    | with_reducible apply setPort_kept
    | with_reducible apply Kept.ite
    | dsimp only
    | split)

theorem execGpfDeadline_kept {z : State} (n t : Nat) (s : State) (hK : Kept z s) {w0 : State} (eq0 : execGpfDeadline n t s = .next w0) : Kept z w0 := by
  unfold execGpfDeadline at eq0
  try dsimp only at eq0
  refine Kept.of_next eq0 ?_
  repeat' (first
    | intro _ _ _
    | intro _ _
    | intro _
    | with_reducible assumption
    | ((conv => arg 2; arg 33); with_reducible refine Kept.lit ?_ ?_ ?_) <;> [skip; rfl; exact ⟨rfl, rfl, rfl, rfl, rfl, rfl, rfl⟩]
    | with_reducible apply tick_kept
    | with_reducible apply judgeGpf_kept
    | with_reducible apply dropRequest_kept
    | with_reducible apply setPort_kept
    | with_reducible apply creditKept_kept
    | with_reducible apply retryHeld_kept
    | with_reducible apply neverComplete_kept
    | with_reducible apply Kept.ite
    | with_reducible apply Kept.foldl
    | dsimp only
    | split)

theorem execIdeIntegrityFailure_kept {z : State} (n : Nat) (reqs : List (Nat × Bool)) (t : Nat) (s : State) (hK : Kept z s) {w0 : State} (eq0 : execIdeIntegrityFailure n reqs t s = .next w0) : Kept z w0 := by
  unfold execIdeIntegrityFailure at eq0
  try dsimp only at eq0
  refine Kept.of_next eq0 ?_
  repeat' (first
    | intro _ _ _
    | intro _ _
    | intro _
    | with_reducible assumption
    | ((conv => arg 2; arg 33); with_reducible refine Kept.lit ?_ ?_ ?_) <;> [skip; rfl; exact ⟨rfl, rfl, rfl, rfl, rfl, rfl, rfl⟩]
    | with_reducible apply tick_kept
    | with_reducible apply raiseOpen_kept
    | with_reducible apply dropRequest_kept
    | with_reducible apply setPort_kept
    | with_reducible apply Kept.ite
    | with_reducible apply Kept.foldl
    | dsimp only
    | split)

theorem execCxlLinkUp_kept {z : State} (n width speed : Nat) (flit : Bool) (t : Nat) (s : State) (hK : Kept z s) {w0 : State} (eq0 : execCxlLinkUp n width speed flit t s = .next w0) : Kept z w0 := by
  unfold execCxlLinkUp at eq0
  try dsimp only at eq0
  refine Kept.of_next eq0 ?_
  repeat' (first
    | intro _ _ _
    | intro _ _
    | intro _
    | with_reducible assumption
    | ((conv => arg 2; arg 33); with_reducible refine Kept.lit ?_ ?_ ?_) <;> [skip; rfl; exact ⟨rfl, rfl, rfl, rfl, rfl, rfl, rfl⟩]
    | with_reducible apply tick_kept
    | with_reducible apply offerRest_kept
    | with_reducible apply setPort_kept
    | with_reducible apply Kept.ite
    | with_reducible apply Kept.foldl
    | dsimp only
    | split)

theorem execCxlLinkDown_kept {z : State} (n t : Nat) (s : State) (hK : Kept z s) {w0 : State} (eq0 : execCxlLinkDown n t s = .next w0) : Kept z w0 := by
  unfold execCxlLinkDown at eq0
  try dsimp only at eq0
  refine Kept.of_next eq0 ?_
  repeat' (first
    | with_reducible assumption
    | with_reducible apply tick_kept
    | with_reducible apply linkFalls_kept)

theorem execPerstN_kept {z : State} (n : Nat) (low : Bool) (t : Nat) (s : State) (hK : Kept z s) {w0 : State} (eq0 : execPerstN n low t s = .next w0) : Kept z w0 := by
  unfold execPerstN at eq0
  try dsimp only at eq0
  refine Kept.of_next eq0 ?_
  repeat' (first
    | with_reducible assumption
    | ((conv => arg 2; arg 33); with_reducible refine Kept.lit ?_ ?_ ?_) <;> [skip; rfl; exact ⟨rfl, rfl, rfl, rfl, rfl, rfl, rfl⟩]
    | with_reducible apply tick_kept
    | with_reducible apply setPort_kept
    | with_reducible apply linkFalls_kept
    | with_reducible apply Kept.ite
    | dsimp only
    | split)

/-! ### Replant -/

theorem condemn_kept {z : State} (s : State) (b : Nat) (now : Bool) (hK : Kept z s) : Kept z (condemn s b now) := by
  unfold condemn
  try dsimp only
  repeat' (first
    | intro _ _ _
    | intro _ _
    | intro _
    | with_reducible assumption
    | ((conv => arg 2; arg 33); with_reducible refine Kept.lit ?_ ?_ ?_) <;> [skip; rfl; exact ⟨rfl, rfl, rfl, rfl, rfl, rfl, rfl⟩]
    | with_reducible apply setBlock_kept
    | with_reducible apply retireBlock_kept
    | with_reducible apply Kept.ite
    | dsimp only
    | split)

theorem restoreUe_kept {z : State} (s : State) (g : Nat) (hK : Kept z s) : Kept z (restoreUe s g) := by
  unfold restoreUe
  try dsimp only
  repeat' (first
    | with_reducible assumption
    | ((conv => arg 2; arg 33); with_reducible refine Kept.lit ?_ ?_ ?_) <;> [skip; rfl; exact ⟨rfl, rfl, rfl, rfl, rfl, rfl, rfl⟩]
    | with_reducible apply raise_kept
    | ((conv => arg 2; arg 33); with_reducible refine Kept.litNil ?_ ?_ ?_) <;> [skip; rfl; exact ⟨rfl, rfl, rfl, rfl, rfl, rfl, rfl⟩])

theorem restoreGran_kept {z : State} (s : State) (g : Nat) (r : FlashRead) (hK : Kept z s) : Kept z (restoreGran s g r) := by
  unfold restoreGran
  try dsimp only
  repeat' (first
    | with_reducible assumption
    | ((conv => arg 2; arg 33); with_reducible refine Kept.lit ?_ ?_ ?_) <;> [skip; rfl; exact ⟨rfl, rfl, rfl, rfl, rfl, rfl, rfl⟩]
    | with_reducible apply putGran_kept
    | with_reducible apply zeroGran_kept
    | with_reducible apply countRead_kept
    | with_reducible apply granRestored_kept
    | with_reducible apply condemn_kept
    | with_reducible apply restoreUe_kept
    | with_reducible apply Kept.ite
    | dsimp only
    | split)

theorem restorePoisoned_kept {z : State} (s : State) (g : Nat) (hK : Kept z s) : Kept z (restorePoisoned s g) := by
  unfold restorePoisoned
  try dsimp only
  repeat' (first
    | with_reducible assumption
    | with_reducible apply putGran_kept
    | with_reducible apply granRestored_kept
    | with_reducible apply restoreUe_kept
    | with_reducible apply Kept.ite
    | dsimp only
    | split)

theorem serveWaiters_kept {z : State} (s : State) (l : List HeldWrite) (hK : Kept z s) : Kept z (serveWaiters s l) := by
  unfold serveWaiters
  try dsimp only
  repeat' (first
    | intro _ _ _
    | intro _ _
    | intro _
    | with_reducible assumption
    | with_reducible apply applyOrHold_kept
    | with_reducible apply judgeHeld_kept
    | with_reducible apply oldLineFound_kept
    | with_reducible apply readServed_kept
    | with_reducible apply writeApplied_kept
    | with_reducible apply Kept.ite
    | with_reducible apply Kept.foldl
    | dsimp only
    | split)

theorem nextFetch_kept {z : State} (s : State) (c : Nat) (hK : Kept z s) : Kept z (nextFetch s c) := by
  unfold nextFetch
  try dsimp only
  repeat' (first
    | intro _ _ _
    | intro _ _
    | intro _
    | with_reducible assumption
    | ((conv => arg 2; arg 33); with_reducible refine Kept.lit ?_ ?_ ?_) <;> [skip; rfl; exact ⟨rfl, rfl, rfl, rfl, rfl, rfl, rfl⟩]
    | with_reducible apply fetchCutting_kept
    | with_reducible apply Kept.ite
    | dsimp only
    | split)

theorem fetchEnds_kept {z : State} (s : State) (f : Fetch) (hK : Kept z s) : Kept z (fetchEnds s f) := by
  unfold fetchEnds
  try dsimp only
  repeat' (first
    | intro _ _ _
    | intro _ _
    | intro _
    | with_reducible assumption
    | ((conv => arg 2; arg 33); with_reducible refine Kept.lit ?_ ?_ ?_) <;> [skip; rfl; exact ⟨rfl, rfl, rfl, rfl, rfl, rfl, rfl⟩]
    | with_reducible apply joinHarvest_kept
    | with_reducible apply harvestAdvance_kept
    | with_reducible apply drainSubs_kept
    | with_reducible apply serveWaiters_kept
    | with_reducible apply nextFetch_kept
    | with_reducible apply Kept.ite
    | dsimp only
    | split)

theorem verifyGran_kept {z : State} (s : State) (g : Nat) (mism : List Nat) (hK : Kept z s) : Kept z (verifyGran s g mism) := by
  unfold verifyGran
  try dsimp only
  repeat' (first
    | intro _ _ _
    | intro _ _
    | intro _
    | with_reducible assumption
    | with_reducible apply granReady_kept
    | with_reducible refine granReady_kept_eq (by assumption) ?_
    | with_reducible apply Kept.ite
    | dsimp only
    | split)

theorem issueReplant_kept {z : State} (s : State) (gs : List Nat) (n : Nat) (hK : Kept z s) : Kept z (issueReplant s gs n) := by
  induction n generalizing gs s with
  | zero => first | exact hK | (unfold issueReplant; exact hK)
  | succ n ih =>
  unfold issueReplant
  try dsimp only
  repeat' (first
    | with_reducible apply ih
    | with_reducible assumption
    | ((conv => arg 2; arg 33); with_reducible refine Kept.lit ?_ ?_ ?_) <;> [skip; rfl; exact ⟨rfl, rfl, rfl, rfl, rfl, rfl, rfl⟩]
    | with_reducible apply newCutting_kept
    | dsimp only
    | split)

theorem replantWork_kept {z : State} (s : State) (hK : Kept z s) : Kept z (replantWork s) := by
  unfold replantWork
  try dsimp only
  repeat' (first
    | intro _ _ _
    | intro _ _
    | intro _
    | with_reducible assumption
    | with_reducible apply issueReplant_kept
    | with_reducible apply Kept.ite
    | dsimp only
    | split)

theorem endFlush_kept {z : State} (s : State) (f : InFlight) (j : FlushJob) (status : Nat) (hK : Kept z s) : Kept z (endFlush s f j status) := by
  unfold endFlush
  try dsimp only
  repeat' (first
    | with_reducible assumption
    | with_reducible apply finish_kept)

theorem judgeFlushes_kept {z : State} (s : State) (hK : Kept z s) : Kept z (judgeFlushes s) := by
  unfold judgeFlushes
  try dsimp only
  repeat' (first
    | intro _ _ _
    | intro _ _
    | intro _
    | with_reducible assumption
    | ((conv => arg 2; arg 33); with_reducible refine Kept.lit ?_ ?_ ?_) <;> [skip; rfl; exact ⟨rfl, rfl, rfl, rfl, rfl, rfl, rfl⟩]
    | with_reducible apply sendLow_kept
    | with_reducible apply setJob_kept
    | with_reducible apply endFlush_kept
    | with_reducible apply Kept.ite
    | with_reducible apply Kept.foldl
    | dsimp only
    | split)

theorem judgeSave_kept {z : State} (s : State) (hK : Kept z s) : Kept z (judgeSave s) := by
  unfold judgeSave
  try dsimp only
  repeat' (first
    | intro _ _ _
    | intro _ _
    | intro _
    | with_reducible assumption
    | ((conv => arg 2; arg 33); with_reducible refine Kept.lit ?_ ?_ ?_) <;> [skip; rfl; exact ⟨rfl, rfl, rfl, rfl, rfl, rfl, rfl⟩]
    | with_reducible apply endOk_kept
    | with_reducible apply Kept.ite
    | with_reducible apply Kept.foldl
    | dsimp only
    | split)

theorem cmdFlushRange_kept {z : State} (f : InFlight) (s : State) (hK : Kept z s) : Kept z (cmdFlushRange f s) := by
  unfold cmdFlushRange
  try dsimp only
  repeat' (first
    | intro _ _ _
    | intro _ _
    | intro _
    | with_reducible assumption
    | ((conv => arg 2; arg 33); with_reducible refine Kept.lit ?_ ?_ ?_) <;> [skip; rfl; exact ⟨rfl, rfl, rfl, rfl, rfl, rfl, rfl⟩]
    | with_reducible apply sendLow_kept
    | with_reducible apply endWith_kept
    | with_reducible apply badParam_kept
    | with_reducible apply setJob_kept
    | with_reducible apply feed_kept
    | with_reducible apply flushWork_kept
    | with_reducible apply judgeFlushes_kept
    | with_reducible apply Kept.ite
    | with_reducible apply Kept.foldl
    | dsimp only
    | split)

theorem cmdFullSave_kept {z : State} (f : InFlight) (s : State) (hK : Kept z s) : Kept z (cmdFullSave f s) := by
  unfold cmdFullSave
  try dsimp only
  repeat' (first
    | with_reducible assumption
    | with_reducible apply endWith_kept
    | with_reducible apply conflict_kept
    | with_reducible apply setJob_kept
    | with_reducible apply startSave_kept
    | with_reducible apply feed_kept
    | with_reducible apply saveWork_kept
    | with_reducible apply judgeSave_kept
    | with_reducible apply Kept.ite
    | dsimp only
    | split)

theorem cmdReplantOrderLoad_kept {z : State} (f : InFlight) (s : State) (hK : Kept z s) : Kept z (cmdReplantOrderLoad f s) := by
  unfold cmdReplantOrderLoad
  try dsimp only
  repeat' (first
    | intro _ _ _
    | intro _ _
    | intro _
    | with_reducible assumption
    | ((conv => arg 2; arg 33); with_reducible refine Kept.lit ?_ ?_ ?_) <;> [skip; rfl; exact ⟨rfl, rfl, rfl, rfl, rfl, rfl, rfl⟩]
    | with_reducible apply pairWrite_kept
    | with_reducible apply endWith_kept
    | with_reducible apply endOk_kept
    | with_reducible apply badParam_kept
    | with_reducible apply conflict_kept
    | with_reducible apply assistInput_kept
    | with_reducible apply Kept.ite
    | with_reducible apply Kept.foldl
    | dsimp only
    | split)

theorem execPriorityFetchDone_kept {z : State} (g : Nat) (r : FlashRead) (t : Nat) (s : State) (hK : Kept z s) {w0 : State} (eq0 : execPriorityFetchDone g r t s = .next w0) : Kept z w0 := by
  unfold execPriorityFetchDone at eq0
  try dsimp only at eq0
  refine Kept.of_next eq0 ?_
  repeat' (first
    | intro _ _ _
    | intro _ _
    | intro _
    | with_reducible assumption
    | ((conv => arg 2; arg 33); with_reducible refine Kept.lit ?_ ?_ ?_) <;> [skip; rfl; exact ⟨rfl, rfl, rfl, rfl, rfl, rfl, rfl⟩]
    | with_reducible apply tick_kept
    | with_reducible apply restoreGran_kept
    | with_reducible apply fetchEnds_kept
    | with_reducible apply Kept.ite
    | dsimp only
    | split)

theorem execReplantStripeDone_kept {z : State} (k : Nat) (bad : List (Nat × FlashRead)) (mism : List Nat) (t : Nat) (s : State) (hK : Kept z s) {w0 : State} (eq0 : execReplantStripeDone k bad mism t s = .next w0) : Kept z w0 := by
  unfold execReplantStripeDone at eq0
  try dsimp only at eq0
  refine Kept.of_next eq0 ?_
  repeat' (first
    | intro _ _ _
    | intro _ _
    | intro _
    | with_reducible assumption
    | ((conv => arg 2; arg 33); with_reducible refine Kept.lit ?_ ?_ ?_) <;> [skip; rfl; exact ⟨rfl, rfl, rfl, rfl, rfl, rfl, rfl⟩]
    | with_reducible apply tick_kept
    | with_reducible apply drainSubs_kept
    | with_reducible apply restoreGran_kept
    | with_reducible apply verifyGran_kept
    | with_reducible apply replantWork_kept
    | with_reducible apply Kept.ite
    | with_reducible apply Kept.foldl
    | dsimp only
    | split)

theorem execWarmVerifyEnd_kept {z : State} (chans : List Nat) (t : Nat) (s : State) (hK : Kept z s) {w0 : State} (eq0 : execWarmVerifyEnd chans t s = .next w0) : Kept z w0 := by
  unfold execWarmVerifyEnd at eq0
  try dsimp only at eq0
  refine Kept.of_next eq0 ?_
  repeat' (first
    | intro _ _ _
    | intro _ _
    | intro _
    | with_reducible assumption
    | with_reducible apply tick_kept
    | with_reducible apply raiseOpen_kept
    | with_reducible apply restoreComplete_kept
    | with_reducible apply Kept.ite
    | with_reducible apply Kept.foldl
    | dsimp only
    | split)

theorem execDripCommit_kept {z : State} (g t : Nat) (s : State) (hK : Kept z s) {w0 : State} (eq0 : execDripCommit g t s = .next w0) : Kept z w0 := by
  unfold execDripCommit at eq0
  try dsimp only at eq0
  refine Kept.of_next eq0 ?_
  repeat' (first
    | with_reducible assumption
    | ((conv => arg 2; arg 33); with_reducible refine Kept.lit ?_ ?_ ?_) <;> [skip; rfl; exact ⟨rfl, rfl, rfl, rfl, rfl, rfl, rfl⟩]
    | with_reducible apply tick_kept
    | with_reducible apply sendLow_kept
    | with_reducible apply feed_kept
    | with_reducible apply flushWork_kept
    | with_reducible apply saveWork_kept
    | with_reducible apply commitDrip_kept
    | with_reducible apply drainSubs_kept
    | with_reducible apply retryHeld_kept
    | with_reducible apply judgeFlushes_kept
    | with_reducible apply judgeSave_kept
    | with_reducible apply Kept.ite
    | dsimp only
    | split)

theorem execFlushRange_kept {z : State} (c : TrellisCmd) (s : State) (hK : Kept z s) {w0 : State} (eq0 : execFlushRange c s = .next w0) : Kept z w0 := by
  unfold execFlushRange at eq0
  try dsimp only at eq0
  refine Kept.of_next eq0 ?_
  repeat' (first
    | intro _ _ _
    | intro _ _
    | intro _
    | with_reducible assumption
    | with_reducible apply submit_kept
    | with_reducible apply cmdFlushRange_kept)

theorem execFlushRangeTimeout_kept {z : State} (id t : Nat) (s : State) (hK : Kept z s) {w0 : State} (eq0 : execFlushRangeTimeout id t s = .next w0) : Kept z w0 := by
  unfold execFlushRangeTimeout at eq0
  try dsimp only at eq0
  refine Kept.of_next eq0 ?_
  repeat' (first
    | with_reducible assumption
    | ((conv => arg 2; arg 33); with_reducible refine Kept.lit ?_ ?_ ?_) <;> [skip; rfl; exact ⟨rfl, rfl, rfl, rfl, rfl, rfl, rfl⟩]
    | with_reducible apply tick_kept
    | with_reducible apply endFlush_kept
    | with_reducible apply Kept.ite
    | dsimp only
    | split)

theorem execFullSave_kept {z : State} (c : TrellisCmd) (s : State) (hK : Kept z s) {w0 : State} (eq0 : execFullSave c s = .next w0) : Kept z w0 := by
  unfold execFullSave at eq0
  try dsimp only at eq0
  refine Kept.of_next eq0 ?_
  repeat' (first
    | intro _ _ _
    | intro _ _
    | intro _
    | with_reducible assumption
    | with_reducible apply submit_kept
    | with_reducible apply cmdFullSave_kept)

theorem execReplantOrderLoad_kept {z : State} (c : TrellisCmd) (s : State) (hK : Kept z s) {w0 : State} (eq0 : execReplantOrderLoad c s = .next w0) : Kept z w0 := by
  unfold execReplantOrderLoad at eq0
  try dsimp only at eq0
  refine Kept.of_next eq0 ?_
  repeat' (first
    | intro _ _ _
    | intro _ _
    | intro _
    | with_reducible assumption
    | with_reducible apply submit_kept
    | with_reducible apply cmdReplantOrderLoad_kept)

/-! ### Allots -/

theorem wipeExtents_kept {z : State} (s : State) (es : List Nat) (hK : Kept z s) : Kept z (wipeExtents s es) := by
  unfold wipeExtents
  have h0 := dropGrans_kept s (fun g => es.contains (granExtent g)) hK
  dsimp only
  generalize dropGrans s (fun g => es.contains (granExtent g)) = u at h0 ⊢
  refine Kept.foldl (fun x p hx => afterMove_kept _ _ (journal_kept _ _ _ _ (setMap_kept _ _ _ hx))) ?_
  refine Kept.foldl (fun x f hx => Kept.foldl (fun x h hx => ?_) hx) ?_
  · exact Kept.ite (dropRequest_kept _ _ _ _ _ hx) (writeApplied_kept _ _ hx)
  · exact ⟨h0.queue, h0.clock, fun h => memWf_filter _ (h0.form h), h0.fuses, h0.draws, h0.out⟩

theorem withdraw_kept {z : State} (s : State) (id : Nat) (a : Allot) (b : Binding) (hK : Kept z s) : Kept z (withdraw s id a b) := by
  unfold withdraw
  try dsimp only
  repeat' (first
    | with_reducible assumption
    | ((conv => arg 2; arg 33); with_reducible refine Kept.lit ?_ ?_ ?_) <;> [skip; rfl; exact ⟨rfl, rfl, rfl, rfl, rfl, rfl, rfl⟩]
    | with_reducible apply postDc_kept
    | with_reducible apply Kept.ite
    | dsimp only
    | split)

theorem applyEntry_kept {z : State} (s : State) (id : Nat) (a : Allot) (force : Bool) (hK : Kept z s) : Kept z (applyEntry s id a force) := by
  unfold applyEntry
  try dsimp only
  repeat' (first
    | intro _ _ _
    | intro _ _
    | intro _
    | with_reducible assumption
    | ((conv => arg 2; arg 33); with_reducible refine Kept.lit ?_ ?_ ?_) <;> [skip; rfl; exact ⟨rfl, rfl, rfl, rfl, rfl, rfl, rfl⟩]
    | with_reducible apply setAllot_kept
    | with_reducible apply offerTo_kept
    | with_reducible apply offerRest_kept
    | with_reducible apply wipeExtents_kept
    | with_reducible apply withdraw_kept
    | with_reducible apply Kept.ite
    | with_reducible apply Kept.foldl
    | dsimp only
    | split)

theorem enterDeleting_kept {z : State} (s : State) (id : Nat) (hK : Kept z s) : Kept z (enterDeleting s id) := by
  unfold enterDeleting
  try dsimp only
  repeat' (first
    | intro _ _ _
    | intro _ _
    | intro _
    | with_reducible assumption
    | ((conv => arg 2; arg 33); with_reducible refine Kept.lit ?_ ?_ ?_) <;> [skip; rfl; exact ⟨rfl, rfl, rfl, rfl, rfl, rfl, rfl⟩]
    | with_reducible apply setAllot_kept
    | with_reducible apply withdraw_kept
    | with_reducible apply Kept.foldl
    | dsimp only
    | split)

theorem saveReserved_kept {z : State} (s : State) (hK : Kept z s) : Kept z (saveReserved s) := by
  unfold saveReserved
  try dsimp only
  repeat' (first
    | intro _ _ _
    | intro _ _
    | intro _
    | with_reducible assumption
    | ((conv => arg 2; arg 33); with_reducible refine Kept.lit ?_ ?_ ?_) <;> [skip; rfl; exact ⟨rfl, rfl, rfl, rfl, rfl, rfl, rfl⟩]
    | with_reducible apply pairWrite_kept)

theorem tellEntry_kept {z : State} (s : State) (n id st : Nat) (e : Allot) (force : Bool) (hK : Kept z s) : Kept z (tellEntry s n id st e force) := by
  unfold tellEntry
  try dsimp only
  repeat' (first
    | intro _ _ _
    | intro _ _
    | intro _
    | with_reducible assumption
    | with_reducible apply sendLow_kept
    | with_reducible apply Kept.foldl)

theorem waitTx_kept {z : State} (s : State) (cmd : Option Nat) (n id : Nat) (hK : Kept z s) : Kept z (waitTx s cmd n id) := by
  unfold waitTx
  try dsimp only
  repeat' (first
    | intro _ _ _
    | intro _ _
    | intro _
    | with_reducible assumption
    | ((conv => arg 2; arg 33); with_reducible refine Kept.lit ?_ ?_ ?_) <;> [skip; rfl; exact ⟨rfl, rfl, rfl, rfl, rfl, rfl, rfl⟩]
    | with_reducible apply setJob_kept
    | with_reducible apply modAllot_kept
    | dsimp only
    | split)

theorem startTx_kept {z : State} (s : State) (kind : TxKind) (id : Nat) (a : Allot) (cmd : Option Nat) (force : Bool) (status : Nat) (hK : Kept z s) : Kept z (startTx s kind id a cmd force status) := by
  unfold startTx
  try dsimp only
  repeat' (first
    | with_reducible assumption
    | ((conv => arg 2; arg 33); with_reducible refine Kept.lit ?_ ?_ ?_) <;> [skip; rfl; exact ⟨rfl, rfl, rfl, rfl, rfl, rfl, rfl⟩]
    | with_reducible apply tellEntry_kept
    | with_reducible apply waitTx_kept)

theorem endAllot_kept {z : State} (s : State) (id status detail : Nat) (hK : Kept z s) : Kept z (endAllot s id status detail) := by
  unfold endAllot
  try dsimp only
  repeat' (first
    | intro _ _ _
    | intro _ _
    | intro _
    | with_reducible assumption
    | ((conv => arg 2; arg 33); with_reducible refine Kept.lit ?_ ?_ ?_) <;> [skip; rfl; exact ⟨rfl, rfl, rfl, rfl, rfl, rfl, rfl⟩]
    | with_reducible apply finish_kept
    | with_reducible apply modAllot_kept
    | with_reducible apply Kept.ite
    | dsimp only
    | split)

theorem dropHandover_kept {z : State} (s : State) (id : Nat) (hK : Kept z s) : Kept z (dropHandover s id) := by
  unfold dropHandover
  try dsimp only
  repeat' (first
    | intro _ _ _
    | intro _ _
    | intro _
    | with_reducible assumption
    | ((conv => arg 2; arg 33); with_reducible refine Kept.lit ?_ ?_ ?_) <;> [skip; rfl; exact ⟨rfl, rfl, rfl, rfl, rfl, rfl, rfl⟩])

theorem judgeHandover_kept {z : State} (s : State) (cmd : Nat) (hK : Kept z s) : Kept z (judgeHandover s cmd) := by
  unfold judgeHandover
  try dsimp only
  repeat' (first
    | intro _ _ _
    | intro _ _
    | intro _
    | with_reducible assumption
    | ((conv => arg 2; arg 33); with_reducible refine Kept.lit ?_ ?_ ?_) <;> [skip; rfl; exact ⟨rfl, rfl, rfl, rfl, rfl, rfl, rfl⟩]
    | with_reducible apply endWith_kept
    | with_reducible apply endOk_kept
    | with_reducible apply Kept.ite
    | dsimp only
    | split)

theorem applyTx_kept {z : State} (s : State) (t : TableTx) (hK : Kept z s) : Kept z (applyTx s t) := by
  unfold applyTx
  try dsimp only
  repeat' (first
    | intro _ _ _
    | intro _ _
    | intro _
    | with_reducible assumption
    | ((conv => arg 2; arg 33); with_reducible refine Kept.lit ?_ ?_ ?_) <;> [skip; rfl; exact ⟨rfl, rfl, rfl, rfl, rfl, rfl, rfl⟩]
    | with_reducible apply setJob_kept
    | with_reducible apply setAllot_kept
    | with_reducible apply applyEntry_kept
    | with_reducible apply enterDeleting_kept
    | with_reducible apply saveReserved_kept
    | with_reducible apply endAllot_kept
    | with_reducible apply Kept.ite
    | dsimp only
    | split)

theorem abortTx_kept {z : State} (s : State) (t : TableTx) (status : Nat) (hK : Kept z s) : Kept z (abortTx s t status) := by
  unfold abortTx
  try dsimp only
  repeat' (first
    | intro _ _ _
    | intro _ _
    | intro _
    | with_reducible assumption
    | ((conv => arg 2; arg 33); with_reducible refine Kept.lit ?_ ?_ ?_) <;> [skip; rfl; exact ⟨rfl, rfl, rfl, rfl, rfl, rfl, rfl⟩]
    | with_reducible apply endWith_kept
    | with_reducible apply endAllot_kept
    | with_reducible apply dropHandover_kept
    | with_reducible apply judgeHandover_kept
    | with_reducible apply Kept.ite
    | dsimp only
    | split)

theorem cmdAllotCreate_kept {z : State} (f : InFlight) (s : State) (hK : Kept z s) : Kept z (cmdAllotCreate f s) := by
  unfold cmdAllotCreate
  try dsimp only
  repeat' (first
    | with_reducible assumption
    | ((conv => arg 2; arg 33); with_reducible refine Kept.lit ?_ ?_ ?_) <;> [skip; rfl; exact ⟨rfl, rfl, rfl, rfl, rfl, rfl, rfl⟩]
    | with_reducible apply endWith_kept
    | with_reducible apply badParam_kept
    | with_reducible apply conflict_kept
    | with_reducible apply applyEntry_kept
    | with_reducible apply startTx_kept
    | with_reducible apply endAllot_kept
    | with_reducible apply Kept.ite
    | dsimp only
    | split)

theorem commitEntry_kept {z : State} (s : State) (id : Nat) (a : Allot) (kind : TxKind) (cmd : Nat) (force : Bool) (status : Nat) (hK : Kept z s) : Kept z (commitEntry s id a kind cmd force status) := by
  unfold commitEntry
  try dsimp only
  repeat' (first
    | with_reducible assumption
    | ((conv => arg 2; arg 33); with_reducible refine Kept.lit ?_ ?_ ?_) <;> [skip; rfl; exact ⟨rfl, rfl, rfl, rfl, rfl, rfl, rfl⟩]
    | with_reducible apply applyEntry_kept
    | with_reducible apply startTx_kept
    | with_reducible apply endAllot_kept
    | with_reducible apply Kept.ite
    | dsimp only
    | split)

theorem cmdAllotResize_kept {z : State} (f : InFlight) (s : State) (hK : Kept z s) : Kept z (cmdAllotResize f s) := by
  unfold cmdAllotResize
  try dsimp only
  repeat' (first
    | intro _ _ _
    | intro _ _
    | intro _
    | with_reducible assumption
    | ((conv => arg 2; arg 33); with_reducible refine Kept.lit ?_ ?_ ?_) <;> [skip; rfl; exact ⟨rfl, rfl, rfl, rfl, rfl, rfl, rfl⟩]
    | with_reducible apply endWith_kept
    | with_reducible apply badParam_kept
    | with_reducible apply conflict_kept
    | with_reducible apply setJob_kept
    | with_reducible apply modAllot_kept
    | with_reducible apply postDc_kept
    | with_reducible apply commitEntry_kept
    | with_reducible apply Kept.ite
    | with_reducible apply Kept.foldl
    | dsimp only
    | split)

theorem cmdAllotDelete_kept {z : State} (f : InFlight) (s : State) (hK : Kept z s) : Kept z (cmdAllotDelete f s) := by
  unfold cmdAllotDelete
  try dsimp only
  repeat' (first
    | intro _ _ _
    | intro _ _
    | intro _
    | with_reducible assumption
    | ((conv => arg 2; arg 33); with_reducible refine Kept.lit ?_ ?_ ?_) <;> [skip; rfl; exact ⟨rfl, rfl, rfl, rfl, rfl, rfl, rfl⟩]
    | with_reducible apply endWith_kept
    | with_reducible apply badParam_kept
    | with_reducible apply conflict_kept
    | with_reducible apply setJob_kept
    | with_reducible apply modAllot_kept
    | with_reducible apply enterDeleting_kept
    | with_reducible apply startTx_kept
    | with_reducible apply Kept.ite
    | dsimp only
    | split)

theorem deleteAdvance_kept {z : State} (s : State) (hK : Kept z s) : Kept z (deleteAdvance s) := by
  unfold deleteAdvance
  try dsimp only
  repeat' (first
    | intro _ _ _
    | intro _ _
    | intro _
    | with_reducible assumption
    | ((conv => arg 2; arg 33); with_reducible refine Kept.lit ?_ ?_ ?_) <;> [skip; rfl; exact ⟨rfl, rfl, rfl, rfl, rfl, rfl, rfl⟩]
    | with_reducible apply endOk_kept
    | with_reducible apply judgeFlushes_kept
    | with_reducible apply wipeExtents_kept
    | with_reducible apply startTx_kept
    | with_reducible apply Kept.ite
    | with_reducible apply Kept.foldl
    | dsimp only
    | split)

theorem cmdAllotBind_kept {z : State} (f : InFlight) (s : State) (hK : Kept z s) : Kept z (cmdAllotBind f s) := by
  unfold cmdAllotBind
  try dsimp only
  repeat' (first
    | intro _ _ _
    | intro _ _
    | intro _
    | with_reducible assumption
    | ((conv => arg 2; arg 33); with_reducible refine Kept.lit ?_ ?_ ?_) <;> [skip; rfl; exact ⟨rfl, rfl, rfl, rfl, rfl, rfl, rfl⟩]
    | with_reducible apply endWith_kept
    | with_reducible apply badParam_kept
    | with_reducible apply setJob_kept
    | with_reducible apply setAllot_kept
    | with_reducible apply modAllot_kept
    | with_reducible apply postDc_kept
    | with_reducible apply endAllot_kept
    | with_reducible apply commitEntry_kept
    | with_reducible apply Kept.ite
    | with_reducible apply Kept.foldl
    | dsimp only
    | split)

theorem endShrink_kept {z : State} (s : State) (cmd al : Nat) (a : Allot) (status detail : Nat) (hK : Kept z s) : Kept z (endShrink s cmd al a status detail) := by
  unfold endShrink
  try dsimp only
  repeat' (first
    | intro _ _ _
    | intro _ _
    | intro _
    | with_reducible assumption
    | ((conv => arg 2; arg 33); with_reducible refine Kept.lit ?_ ?_ ?_) <;> [skip; rfl; exact ⟨rfl, rfl, rfl, rfl, rfl, rfl, rfl⟩]
    | with_reducible apply setAllot_kept
    | with_reducible apply postDc_kept
    | with_reducible apply endAllot_kept
    | with_reducible apply Kept.ite
    | with_reducible apply Kept.foldl
    | dsimp only
    | split)

theorem judgeRelease_kept {z : State} (s : State) (hK : Kept z s) : Kept z (judgeRelease s) := by
  unfold judgeRelease
  try dsimp only
  repeat' (first
    | intro _ _ _
    | intro _ _
    | intro _
    | with_reducible assumption
    | ((conv => arg 2; arg 33); with_reducible refine Kept.lit ?_ ?_ ?_) <;> [skip; rfl; exact ⟨rfl, rfl, rfl, rfl, rfl, rfl, rfl⟩]
    | with_reducible apply endWith_kept
    | with_reducible apply commitEntry_kept
    | with_reducible apply endShrink_kept
    | with_reducible apply Kept.ite
    | with_reducible apply Kept.foldl
    | dsimp only
    | split)

theorem cmdAllotQuery_kept {z : State} (f : InFlight) (s : State) (hK : Kept z s) : Kept z (cmdAllotQuery f s) := by
  unfold cmdAllotQuery
  try dsimp only
  repeat' (first
    | intro _ _ _
    | intro _ _
    | intro _
    | with_reducible assumption
    | ((conv => arg 2; arg 33); with_reducible refine Kept.lit ?_ ?_ ?_) <;> [skip; rfl; exact ⟨rfl, rfl, rfl, rfl, rfl, rfl, rfl⟩]
    | with_reducible apply endOut_kept
    | with_reducible apply badParam_kept
    | with_reducible apply conflict_kept
    | with_reducible apply Kept.ite
    | dsimp only
    | split)

theorem execReleaseWaitExpiry_kept {z : State} (id t : Nat) (s : State) (hK : Kept z s) {w0 : State} (eq0 : execReleaseWaitExpiry id t s = .next w0) : Kept z w0 := by
  unfold execReleaseWaitExpiry at eq0
  try dsimp only at eq0
  refine Kept.of_next eq0 ?_
  repeat' (first
    | intro _ _ _
    | intro _ _
    | intro _
    | with_reducible assumption
    | ((conv => arg 2; arg 33); with_reducible refine Kept.lit ?_ ?_ ?_) <;> [skip; rfl; exact ⟨rfl, rfl, rfl, rfl, rfl, rfl, rfl⟩]
    | with_reducible apply tick_kept
    | with_reducible apply setAllot_kept
    | with_reducible apply endAllot_kept
    | with_reducible apply commitEntry_kept
    | with_reducible apply endShrink_kept
    | with_reducible apply Kept.ite
    | dsimp only
    | split)

theorem execAllotCreate_kept {z : State} (c : TrellisCmd) (s : State) (hK : Kept z s) {w0 : State} (eq0 : execAllotCreate c s = .next w0) : Kept z w0 := by
  unfold execAllotCreate at eq0
  try dsimp only at eq0
  refine Kept.of_next eq0 ?_
  repeat' (first
    | intro _ _ _
    | intro _ _
    | intro _
    | with_reducible assumption
    | with_reducible apply submit_kept
    | with_reducible apply cmdAllotCreate_kept)

theorem execAllotResize_kept {z : State} (c : TrellisCmd) (s : State) (hK : Kept z s) {w0 : State} (eq0 : execAllotResize c s = .next w0) : Kept z w0 := by
  unfold execAllotResize at eq0
  try dsimp only at eq0
  refine Kept.of_next eq0 ?_
  repeat' (first
    | intro _ _ _
    | intro _ _
    | intro _
    | with_reducible assumption
    | with_reducible apply submit_kept
    | with_reducible apply cmdAllotResize_kept)

theorem execAllotDelete_kept {z : State} (c : TrellisCmd) (s : State) (hK : Kept z s) {w0 : State} (eq0 : execAllotDelete c s = .next w0) : Kept z w0 := by
  unfold execAllotDelete at eq0
  try dsimp only at eq0
  refine Kept.of_next eq0 ?_
  repeat' (first
    | intro _ _ _
    | intro _ _
    | intro _
    | with_reducible assumption
    | with_reducible apply submit_kept
    | with_reducible apply cmdAllotDelete_kept)

theorem execAllotBind_kept {z : State} (c : TrellisCmd) (s : State) (hK : Kept z s) {w0 : State} (eq0 : execAllotBind c s = .next w0) : Kept z w0 := by
  unfold execAllotBind at eq0
  try dsimp only at eq0
  refine Kept.of_next eq0 ?_
  repeat' (first
    | intro _ _ _
    | intro _ _
    | intro _
    | with_reducible assumption
    | with_reducible apply submit_kept
    | with_reducible apply cmdAllotBind_kept)

theorem execAllotQuery_kept {z : State} (c : TrellisCmd) (s : State) (hK : Kept z s) {w0 : State} (eq0 : execAllotQuery c s = .next w0) : Kept z w0 := by
  unfold execAllotQuery at eq0
  try dsimp only at eq0
  refine Kept.of_next eq0 ?_
  repeat' (first
    | intro _ _ _
    | intro _ _
    | intro _
    | with_reducible assumption
    | with_reducible apply submit_kept
    | with_reducible apply cmdAllotQuery_kept)

/-! ### Firmware -/

theorem endTableImage_kept {z : State} (f : InFlight) (image n : Nat) (s : State) (hK : Kept z s) : Kept z (endTableImage f image n s) := by
  unfold endTableImage
  try dsimp only
  repeat' (first
    | intro _ _ _
    | intro _ _
    | intro _
    | with_reducible assumption
    | ((conv => arg 2; arg 33); with_reducible refine Kept.lit ?_ ?_ ?_) <;> [skip; rfl; exact ⟨rfl, rfl, rfl, rfl, rfl, rfl, rfl⟩]
    | with_reducible apply pairWrite_kept
    | with_reducible apply endWith_kept
    | with_reducible apply endOk_kept
    | with_reducible apply badParam_kept
    | with_reducible apply Kept.ite
    | dsimp only
    | split)

theorem endFirmwareSlot_kept {z : State} (f : InFlight) (b : Bool) (n : Nat) (s : State) (hK : Kept z s) : Kept z (endFirmwareSlot f b n s) := by
  unfold endFirmwareSlot
  try dsimp only
  repeat' (first
    | with_reducible assumption
    | ((conv => arg 2; arg 33); with_reducible refine Kept.lit ?_ ?_ ?_) <;> [skip; rfl; exact ⟨rfl, rfl, rfl, rfl, rfl, rfl, rfl⟩]
    | with_reducible apply raiseOpen_kept
    | with_reducible apply endOk_kept
    | with_reducible apply setSlot_kept
    | with_reducible apply fwSave_kept
    | with_reducible apply enterRailsUp_kept
    | with_reducible apply bootSlot_kept
    | with_reducible apply rejectSlot_kept
    | with_reducible apply Kept.ite
    | dsimp only
    | split)

theorem cmdFwStageEnd_kept {z : State} (f : InFlight) (s : State) (hK : Kept z s) : Kept z (cmdFwStageEnd f s) := by
  unfold cmdFwStageEnd
  try dsimp only
  repeat' (first
    | with_reducible assumption
    | ((conv => arg 2; arg 33); with_reducible refine Kept.lit ?_ ?_ ?_) <;> [skip; rfl; exact ⟨rfl, rfl, rfl, rfl, rfl, rfl, rfl⟩]
    | with_reducible apply badParam_kept
    | with_reducible apply conflict_kept
    | with_reducible apply endTableImage_kept
    | with_reducible apply endFirmwareSlot_kept
    | with_reducible apply Kept.ite
    | dsimp only
    | split)

theorem scheduleActivation_kept {z : State} (s : State) (e : Nat) (alone : Bool) (hK : Kept z s) : Kept z (scheduleActivation s e alone) := by
  unfold scheduleActivation
  try dsimp only
  repeat' (first
    | with_reducible assumption
    | ((conv => arg 2; arg 33); with_reducible refine Kept.lit ?_ ?_ ?_) <;> [skip; rfl; exact ⟨rfl, rfl, rfl, rfl, rfl, rfl, rfl⟩])

theorem cmdFwActivateAt_kept {z : State} (f : InFlight) (s : State) (hK : Kept z s) : Kept z (cmdFwActivateAt f s) := by
  unfold cmdFwActivateAt
  try dsimp only
  repeat' (first
    | intro _ _ _
    | intro _ _
    | intro _
    | with_reducible assumption
    | ((conv => arg 2; arg 33); with_reducible refine Kept.lit ?_ ?_ ?_) <;> [skip; rfl; exact ⟨rfl, rfl, rfl, rfl, rfl, rfl, rfl⟩]
    | with_reducible apply sendLow_kept
    | with_reducible apply endWith_kept
    | with_reducible apply endOk_kept
    | with_reducible apply badParam_kept
    | with_reducible apply conflict_kept
    | with_reducible apply setJob_kept
    | with_reducible apply scheduleActivation_kept
    | with_reducible apply Kept.ite
    | dsimp only
    | split)

theorem dropJob_kept {z : State} (s : State) (f : InFlight) (hK : Kept z s) : Kept z (dropJob s f) := by
  unfold dropJob
  try dsimp only
  repeat' (first
    | intro _ _ _
    | intro _ _
    | intro _
    | with_reducible assumption
    | ((conv => arg 2; arg 33); with_reducible refine Kept.lit ?_ ?_ ?_) <;> [skip; rfl; exact ⟨rfl, rfl, rfl, rfl, rfl, rfl, rfl⟩]
    | with_reducible apply sendLow_kept
    | with_reducible apply Kept.ite
    | with_reducible apply Kept.foldl
    | dsimp only
    | split)

theorem interruptPairs_kept {z : State} (s : State) (svs : Server → Bool) (all : Bool) (hK : Kept z s) : Kept z (interruptPairs s svs all) := by
  unfold interruptPairs
  try dsimp only
  repeat' (first
    | intro _ _ _
    | intro _ _
    | intro _
    | with_reducible assumption
    | ((conv => arg 2; arg 33); with_reducible refine Kept.lit ?_ ?_ ?_) <;> [skip; rfl; exact ⟨rfl, rfl, rfl, rfl, rfl, rfl, rfl⟩]
    | with_reducible apply endWith_kept
    | with_reducible apply dropJob_kept
    | with_reducible apply Kept.ite
    | with_reducible apply Kept.foldl
    | dsimp only
    | split)

theorem nextReload_kept {z : State} (s : State) (hK : Kept z s) : Kept z (nextReload s) := by
  unfold nextReload
  try dsimp only
  repeat' (first
    | intro _ _ _
    | intro _ _
    | intro _
    | with_reducible assumption
    | ((conv => arg 2; arg 33); with_reducible refine Kept.lit ?_ ?_ ?_) <;> [skip; rfl; exact ⟨rfl, rfl, rfl, rfl, rfl, rfl, rfl⟩]
    | with_reducible apply setBed_kept
    | with_reducible apply Kept.ite
    | dsimp only
    | split)

theorem giveBack_kept {z : State} (s : State) (hK : Kept z s) : Kept z (giveBack s) := by
  unfold giveBack
  try dsimp only
  repeat' (first
    | intro _ _ _
    | intro _ _
    | intro _
    | with_reducible assumption
    | ((conv => arg 2; arg 33); with_reducible refine Kept.lit ?_ ?_ ?_) <;> [skip; rfl; exact ⟨rfl, rfl, rfl, rfl, rfl, rfl, rfl⟩]
    | dsimp only
    | split)

theorem activationSettles_kept {z : State} (s : State) (hK : Kept z s) : Kept z (activationSettles s) := by
  unfold activationSettles
  try dsimp only
  repeat' (first
    | with_reducible assumption
    | ((conv => arg 2; arg 33); with_reducible refine Kept.lit ?_ ?_ ?_) <;> [skip; rfl; exact ⟨rfl, rfl, rfl, rfl, rfl, rfl, rfl⟩]
    | with_reducible apply Kept.ite
    | dsimp only
    | split)

theorem activationCheck_kept {z : State} (s : State) (hK : Kept z s) : Kept z (activationCheck s) := by
  unfold activationCheck
  try dsimp only
  repeat' (first
    | intro _ _ _
    | intro _ _
    | intro _
    | with_reducible assumption
    | ((conv => arg 2; arg 33); with_reducible refine Kept.lit ?_ ?_ ?_) <;> [skip; rfl; exact ⟨rfl, rfl, rfl, rfl, rfl, rfl, rfl⟩]
    | with_reducible apply raiseOpen_kept
    | with_reducible apply bootSlot_kept
    | with_reducible apply rejectSlot_kept
    | with_reducible apply nextReload_kept
    | with_reducible apply activationSettles_kept
    | with_reducible apply Kept.ite
    | dsimp only
    | split)

theorem activateLive_kept {z : State} (s : State) (b : Bool) (hK : Kept z s) : Kept z (activateLive s b) := by
  unfold activateLive
  try dsimp only
  repeat' (first
    | intro _ _ _
    | intro _ _
    | intro _
    | with_reducible assumption
    | ((conv => arg 2; arg 33); with_reducible refine Kept.lit ?_ ?_ ?_) <;> [skip; rfl; exact ⟨rfl, rfl, rfl, rfl, rfl, rfl, rfl⟩]
    | with_reducible apply interruptPairs_kept
    | with_reducible apply Kept.ite
    | with_reducible apply Kept.foldl
    | dsimp only
    | split)

theorem activationTick_kept {z : State} (s : State) (hK : Kept z s) : Kept z (activationTick s) := by
  unfold activationTick
  try dsimp only
  repeat' (first
    | with_reducible assumption
    | ((conv => arg 2; arg 33); with_reducible refine Kept.lit ?_ ?_ ?_) <;> [skip; rfl; exact ⟨rfl, rfl, rfl, rfl, rfl, rfl, rfl⟩]
    | with_reducible apply startHarvest_kept
    | with_reducible apply activateLive_kept
    | with_reducible apply Kept.ite
    | dsimp only
    | split)

theorem cmdFwConfirm_kept {z : State} (f : InFlight) (s : State) (hK : Kept z s) : Kept z (cmdFwConfirm f s) := by
  unfold cmdFwConfirm
  try dsimp only
  repeat' (first
    | with_reducible assumption
    | ((conv => arg 2; arg 33); with_reducible refine Kept.lit ?_ ?_ ?_) <;> [skip; rfl; exact ⟨rfl, rfl, rfl, rfl, rfl, rfl, rfl⟩]
    | with_reducible apply endOk_kept
    | with_reducible apply conflict_kept
    | with_reducible apply setSlot_kept
    | with_reducible apply fwSave_kept
    | with_reducible apply Kept.ite
    | dsimp only
    | split)

theorem giveUp_kept {z : State} (s : State) (hK : Kept z s) : Kept z (giveUp s) := by
  unfold giveUp
  try dsimp only
  repeat' (first
    | with_reducible assumption
    | ((conv => arg 2; arg 33); with_reducible refine Kept.lit ?_ ?_ ?_) <;> [skip; rfl; exact ⟨rfl, rfl, rfl, rfl, rfl, rfl, rfl⟩]
    | with_reducible apply raiseOpen_kept
    | with_reducible apply rejectSlot_kept
    | dsimp only
    | split)

theorem execFwStageEnd_kept {z : State} (c : TrellisCmd) (s : State) (hK : Kept z s) {w0 : State} (eq0 : execFwStageEnd c s = .next w0) : Kept z w0 := by
  unfold execFwStageEnd at eq0
  try dsimp only at eq0
  refine Kept.of_next eq0 ?_
  repeat' (first
    | intro _ _ _
    | intro _ _
    | intro _
    | with_reducible assumption
    | with_reducible apply submit_kept
    | with_reducible apply cmdFwStageEnd_kept)

theorem execFwActivateAt_kept {z : State} (c : TrellisCmd) (s : State) (hK : Kept z s) {w0 : State} (eq0 : execFwActivateAt c s = .next w0) : Kept z w0 := by
  unfold execFwActivateAt at eq0
  try dsimp only at eq0
  refine Kept.of_next eq0 ?_
  repeat' (first
    | intro _ _ _
    | intro _ _
    | intro _
    | with_reducible assumption
    | with_reducible apply submit_kept
    | with_reducible apply cmdFwActivateAt_kept)

theorem execMpPairBooted_kept {z : State} (k t : Nat) (s : State) (hK : Kept z s) {w0 : State} (eq0 : execMpPairBooted k t s = .next w0) : Kept z w0 := by
  unfold execMpPairBooted at eq0
  try dsimp only at eq0
  refine Kept.of_next eq0 ?_
  repeat' (first
    | with_reducible assumption
    | ((conv => arg 2; arg 33); with_reducible refine Kept.lit ?_ ?_ ?_) <;> [skip; rfl; exact ⟨rfl, rfl, rfl, rfl, rfl, rfl, rfl⟩]
    | with_reducible apply tick_kept
    | with_reducible apply giveBack_kept
    | with_reducible apply activationSettles_kept
    | with_reducible apply activationCheck_kept
    | with_reducible apply Kept.ite
    | dsimp only
    | split)

theorem execBedReloadDone_kept {z : State} (k t : Nat) (s : State) (hK : Kept z s) {w0 : State} (eq0 : execBedReloadDone k t s = .next w0) : Kept z w0 := by
  unfold execBedReloadDone at eq0
  try dsimp only at eq0
  refine Kept.of_next eq0 ?_
  repeat' (first
    | with_reducible assumption
    | ((conv => arg 2; arg 33); with_reducible refine Kept.lit ?_ ?_ ?_) <;> [skip; rfl; exact ⟨rfl, rfl, rfl, rfl, rfl, rfl, rfl⟩]
    | with_reducible apply tick_kept
    | with_reducible apply setBed_kept
    | with_reducible apply feed_kept
    | with_reducible apply nextReload_kept
    | with_reducible apply activationSettles_kept
    | with_reducible apply Kept.ite
    | dsimp only
    | split)

theorem execFwConfirm_kept {z : State} (c : TrellisCmd) (s : State) (hK : Kept z s) {w0 : State} (eq0 : execFwConfirm c s = .next w0) : Kept z w0 := by
  unfold execFwConfirm at eq0
  try dsimp only at eq0
  refine Kept.of_next eq0 ?_
  repeat' (first
    | intro _ _ _
    | intro _ _
    | intro _
    | with_reducible assumption
    | with_reducible apply submit_kept
    | with_reducible apply cmdFwConfirm_kept)

theorem execFwConfirmTimeout_kept {z : State} (t : Nat) (s : State) (hK : Kept z s) {w0 : State} (eq0 : execFwConfirmTimeout t s = .next w0) : Kept z w0 := by
  unfold execFwConfirmTimeout at eq0
  try dsimp only at eq0
  refine Kept.of_next eq0 ?_
  repeat' (first
    | with_reducible assumption
    | ((conv => arg 2; arg 33); with_reducible refine Kept.lit ?_ ?_ ?_) <;> [skip; rfl; exact ⟨rfl, rfl, rfl, rfl, rfl, rfl, rfl⟩]
    | with_reducible apply tick_kept
    | with_reducible apply giveUp_kept
    | with_reducible apply Kept.ite
    | dsimp only
    | split)

theorem execFailedBoot_kept {z : State} (t : Nat) (s : State) (hK : Kept z s) {w0 : State} (eq0 : execFailedBoot t s = .next w0) : Kept z w0 := by
  unfold execFailedBoot at eq0
  try dsimp only at eq0
  refine Kept.of_next eq0 ?_
  repeat' (first
    | intro _ _ _
    | intro _ _
    | intro _
    | with_reducible assumption
    | ((conv => arg 2; arg 33); with_reducible refine Kept.lit ?_ ?_ ?_) <;> [skip; rfl; exact ⟨rfl, rfl, rfl, rfl, rfl, rfl, rfl⟩]
    | with_reducible apply tick_kept
    | with_reducible apply activationCheck_kept
    | with_reducible apply giveUp_kept
    | with_reducible apply Kept.ite
    | dsimp only
    | split)

end Sys2Proof.Machine
end

