-- ==== Sys2Proof/Laws/KeptTwin.lean ====
section
/-! SUPPORT. What the functions of Twin, Exsor keep (Laws/Kept.lean). -/

namespace Sys2Proof.Machine

open Sys2Proof

set_option linter.unusedTactic false
set_option linter.unreachableTactic false

/-! ### Twin -/

theorem releaseWithheld_kept {z : State} (s : State) (hK : Kept z s) : Kept z (releaseWithheld s) := by
  unfold releaseWithheld
  try dsimp only
  repeat' (first
    | intro _ _ _
    | intro _ _
    | intro _
    | with_reducible assumption
    | ((conv => arg 2; arg 33); with_reducible refine Kept.lit ?_ ?_ ?_) <;> [skip; rfl; exact ⟨rfl, rfl, rfl, rfl, rfl, rfl, rfl⟩]
    | with_reducible apply completeReady_kept)

theorem takeOne_kept {z : State} (s : State) (id : Nat) (hK : Kept z s) : Kept z (takeOne s id) := by
  unfold takeOne
  try dsimp only
  repeat' (first
    | with_reducible assumption
    | ((conv => arg 2; arg 33); with_reducible refine Kept.lit ?_ ?_ ?_) <;> [skip; rfl; exact ⟨rfl, rfl, rfl, rfl, rfl, rfl, rfl⟩]
    | with_reducible apply setAllot_kept
    | with_reducible apply offerAllot_kept
    | with_reducible apply tellHosts_kept
    | with_reducible apply Kept.ite
    | dsimp only
    | split)

theorem takeOver_kept {z : State} (s : State) (ids : List Nat) (hK : Kept z s) : Kept z (takeOver s ids) := by
  unfold takeOver
  try dsimp only
  repeat' (first
    | intro _ _ _
    | intro _ _
    | intro _
    | with_reducible assumption
    | ((conv => arg 2; arg 33); with_reducible refine Kept.lit ?_ ?_ ?_) <;> [skip; rfl; exact ⟨rfl, rfl, rfl, rfl, rfl, rfl, rfl⟩]
    | with_reducible apply releaseWithheld_kept
    | with_reducible apply takeOne_kept
    | with_reducible apply Kept.foldl)

theorem fenceOne_kept {z : State} (s : State) (id : Nat) (hK : Kept z s) : Kept z (fenceOne s id) := by
  unfold fenceOne
  try dsimp only
  repeat' (first
    | intro _ _ _
    | intro _ _
    | intro _
    | with_reducible assumption
    | ((conv => arg 2; arg 33); with_reducible refine Kept.lit ?_ ?_ ?_) <;> [skip; rfl; exact ⟨rfl, rfl, rfl, rfl, rfl, rfl, rfl⟩]
    | with_reducible apply setAllot_kept
    | with_reducible apply tellHosts_kept
    | with_reducible apply neverComplete_kept
    | with_reducible apply Kept.ite
    | dsimp only
    | split)

theorem fenceAllots_kept {z : State} (s : State) (ids : List Nat) (hK : Kept z s) : Kept z (fenceAllots s ids) := by
  unfold fenceAllots
  try dsimp only
  repeat' (first
    | intro _ _ _
    | intro _ _
    | intro _
    | with_reducible assumption
    | ((conv => arg 2; arg 33); with_reducible refine Kept.lit ?_ ?_ ?_) <;> [skip; rfl; exact ⟨rfl, rfl, rfl, rfl, rfl, rfl, rfl⟩]
    | with_reducible apply fenceOne_kept
    | with_reducible apply Kept.foldl)

theorem ackPeer_kept {z : State} (s : State) (ids : List Nat) (hK : Kept z s) : Kept z (ackPeer s ids) := by
  unfold ackPeer
  try dsimp only
  repeat' (first
    | intro _ _ _
    | intro _ _
    | intro _
    | with_reducible assumption
    | ((conv => arg 2; arg 33); with_reducible refine Kept.lit ?_ ?_ ?_) <;> [skip; rfl; exact ⟨rfl, rfl, rfl, rfl, rfl, rfl, rfl⟩]
    | with_reducible apply makeStale_kept
    | with_reducible apply Kept.foldl)

theorem decideOnRecord_kept {z : State} (s : State) (w : Nat) (hK : Kept z s) : Kept z (decideOnRecord s w) := by
  unfold decideOnRecord
  try dsimp only
  repeat' (first
    | with_reducible assumption
    | ((conv => arg 2; arg 33); with_reducible refine Kept.lit ?_ ?_ ?_) <;> [skip; rfl; exact ⟨rfl, rfl, rfl, rfl, rfl, rfl, rfl⟩]
    | with_reducible apply releaseWithheld_kept
    | with_reducible apply fenceAllots_kept
    | with_reducible apply ackPeer_kept
    | with_reducible apply Kept.ite
    | dsimp only
    | split)

theorem takeHeartbeat_kept {z : State} (s : State) (v : Nat) (hK : Kept z s) : Kept z (takeHeartbeat s v) := by
  unfold takeHeartbeat
  try dsimp only
  repeat' (first
    | with_reducible assumption
    | ((conv => arg 2; arg 33); with_reducible refine Kept.lit ?_ ?_ ?_) <;> [skip; rfl; exact ⟨rfl, rfl, rfl, rfl, rfl, rfl, rfl⟩]
    | with_reducible apply decideOnRecord_kept
    | with_reducible apply Kept.ite
    | dsimp only
    | split)

theorem judgeTake_kept {z : State} (s : State) (hK : Kept z s) : Kept z (judgeTake s) := by
  unfold judgeTake
  try dsimp only
  repeat' (first
    | intro _ _ _
    | intro _ _
    | intro _
    | with_reducible assumption
    | ((conv => arg 2; arg 33); with_reducible refine Kept.lit ?_ ?_ ?_) <;> [skip; rfl; exact ⟨rfl, rfl, rfl, rfl, rfl, rfl, rfl⟩]
    | with_reducible apply takeOver_kept
    | with_reducible apply Kept.ite
    | dsimp only
    | split)

theorem peerCut_kept {z : State} (s : State) (sub through : Nat) (hK : Kept z s) : Kept z (peerCut s sub through) := by
  unfold peerCut
  try dsimp only
  repeat' (first
    | intro _ _ _
    | intro _ _
    | intro _
    | with_reducible assumption
    | ((conv => arg 2; arg 33); with_reducible refine Kept.lit ?_ ?_ ?_) <;> [skip; rfl; exact ⟨rfl, rfl, rfl, rfl, rfl, rfl, rfl⟩]
    | with_reducible apply modSub_kept
    | with_reducible apply judgeService_kept
    | with_reducible apply retryHeld_kept
    | with_reducible apply releaseWithheld_kept
    | with_reducible apply judgeTake_kept
    | with_reducible apply Kept.ite
    | dsimp only
    | split)

theorem linkLost_kept {z : State} (s : State) (hK : Kept z s) : Kept z (linkLost s) := by
  unfold linkLost
  try dsimp only
  repeat' (first
    | intro _ _ _
    | intro _ _
    | intro _
    | with_reducible assumption
    | ((conv => arg 2; arg 33); with_reducible refine Kept.lit ?_ ?_ ?_) <;> [skip; rfl; exact ⟨rfl, rfl, rfl, rfl, rfl, rfl, rfl⟩]
    | with_reducible apply tellHosts_kept
    | with_reducible apply judgeService_kept
    | with_reducible apply abandonCompare_kept
    | with_reducible apply retryHeld_kept
    | with_reducible apply abortTx_kept
    | with_reducible apply releaseWithheld_kept
    | with_reducible apply takeOver_kept
    | with_reducible apply Kept.ite
    | with_reducible apply Kept.foldl
    | dsimp only
    | split)

theorem sendState_kept {z : State} (s : State) (ids : List Nat) (hK : Kept z s) : Kept z (sendState s ids) := by
  unfold sendState
  try dsimp only
  repeat' (first
    | intro _ _ _
    | intro _ _
    | intro _
    | with_reducible assumption
    | with_reducible apply sendLow_kept
    | with_reducible apply Kept.foldl)

theorem paceResync_kept {z : State} (s : State) (busy : Bool) (hK : Kept z s) : Kept z (paceResync s busy) := by
  unfold paceResync
  try dsimp only
  repeat' (first
    | with_reducible assumption
    | ((conv => arg 2; arg 33); with_reducible refine Kept.lit ?_ ?_ ?_) <;> [skip; rfl; exact ⟨rfl, rfl, rfl, rfl, rfl, rfl, rfl⟩]
    | with_reducible apply Kept.ite
    | dsimp only
    | split)

theorem setResyncSource_kept {z : State} (s : State) (id k : Nat) (hK : Kept z s) : Kept z (setResyncSource s id k) := by
  unfold setResyncSource
  try dsimp only
  repeat' (first
    | intro _ _ _
    | intro _ _
    | intro _
    | with_reducible assumption
    | ((conv => arg 2; arg 33); with_reducible refine Kept.lit ?_ ?_ ?_) <;> [skip; rfl; exact ⟨rfl, rfl, rfl, rfl, rfl, rfl, rfl⟩]
    | with_reducible apply paceResync_kept
    | with_reducible apply Kept.ite
    | dsimp only
    | split)

theorem exitStale_kept {z : State} (s : State) (id : Nat) (hK : Kept z s) : Kept z (exitStale s id) := by
  unfold exitStale
  try dsimp only
  repeat' (first
    | with_reducible assumption
    | ((conv => arg 2; arg 33); with_reducible refine Kept.lit ?_ ?_ ?_) <;> [skip; rfl; exact ⟨rfl, rfl, rfl, rfl, rfl, rfl, rfl⟩]
    | with_reducible apply setAllot_kept
    | with_reducible apply tellHosts_kept
    | with_reducible apply Kept.ite
    | dsimp only
    | split)

theorem takeSource_kept {z : State} (s : State) (id : Nat) (p : PeerAllot) (hK : Kept z s) : Kept z (takeSource s id p) := by
  unfold takeSource
  try dsimp only
  repeat' (first
    | intro _ _ _
    | intro _ _
    | intro _
    | with_reducible assumption
    | ((conv => arg 2; arg 33); with_reducible refine Kept.lit ?_ ?_ ?_) <;> [skip; rfl; exact ⟨rfl, rfl, rfl, rfl, rfl, rfl, rfl⟩]
    | with_reducible apply modAllot_kept
    | with_reducible apply offerAllot_kept
    | with_reducible apply setResyncSource_kept
    | with_reducible apply exitStale_kept
    | with_reducible apply Kept.ite
    | dsimp only
    | split)

theorem applyHandover_kept {z : State} (s : State) (t : TableTx) (hK : Kept z s) : Kept z (applyHandover s t) := by
  unfold applyHandover
  try dsimp only
  repeat' (first
    | intro _ _ _
    | intro _ _
    | intro _
    | with_reducible assumption
    | ((conv => arg 2; arg 33); with_reducible refine Kept.lit ?_ ?_ ?_) <;> [skip; rfl; exact ⟨rfl, rfl, rfl, rfl, rfl, rfl, rfl⟩]
    | with_reducible apply setJob_kept
    | with_reducible apply modAllot_kept
    | with_reducible apply offerAllot_kept
    | with_reducible apply tellHosts_kept
    | with_reducible apply dropHandover_kept
    | with_reducible apply judgeHandover_kept
    | with_reducible apply Kept.ite
    | dsimp only
    | split)

theorem applyAt_kept {z : State} (s : State) (t : TableTx) (hK : Kept z s) : Kept z (applyAt s t) := by
  unfold applyAt
  try dsimp only
  repeat' (first
    | intro _ _ _
    | intro _ _
    | intro _
    | with_reducible assumption
    | ((conv => arg 2; arg 33); with_reducible refine Kept.lit ?_ ?_ ?_) <;> [skip; rfl; exact ⟨rfl, rfl, rfl, rfl, rfl, rfl, rfl⟩]
    | with_reducible apply modAllot_kept
    | with_reducible apply applyTx_kept
    | with_reducible apply setResyncSource_kept
    | with_reducible apply applyHandover_kept
    | with_reducible apply Kept.ite
    | dsimp only
    | split)

theorem resolvePending_kept {z : State} (s : State) (l : List (Nat × Nat × Nat)) (last : Bool) (hK : Kept z s) : Kept z (resolvePending s l last) := by
  unfold resolvePending
  try dsimp only
  repeat' (first
    | intro _ _ _
    | intro _ _
    | intro _
    | with_reducible assumption
    | ((conv => arg 2; arg 33); with_reducible refine Kept.lit ?_ ?_ ?_) <;> [skip; rfl; exact ⟨rfl, rfl, rfl, rfl, rfl, rfl, rfl⟩]
    | with_reducible apply applyTx_kept
    | with_reducible apply applyAt_kept
    | with_reducible apply Kept.ite
    | with_reducible apply Kept.foldl
    | dsimp only
    | split)

theorem payOwed_kept {z : State} (s : State) (hK : Kept z s) : Kept z (payOwed s) := by
  unfold payOwed
  try dsimp only
  repeat' (first
    | intro _ _ _
    | intro _ _
    | intro _
    | with_reducible assumption
    | with_reducible apply startTx_kept
    | with_reducible apply Kept.ite
    | with_reducible apply Kept.foldl
    | dsimp only
    | split)

theorem onState_kept {z : State} (s : State) (l : List (Nat × Nat × Nat)) (hK : Kept z s) : Kept z (onState s l) := by
  unfold onState
  try dsimp only
  repeat' (first
    | intro _ _ _
    | intro _ _
    | intro _
    | with_reducible assumption
    | ((conv => arg 2; arg 33); with_reducible refine Kept.lit ?_ ?_ ?_) <;> [skip; rfl; exact ⟨rfl, rfl, rfl, rfl, rfl, rfl, rfl⟩]
    | with_reducible apply judgeService_kept
    | with_reducible apply takeSource_kept
    | with_reducible apply resolvePending_kept
    | with_reducible apply payOwed_kept
    | with_reducible apply Kept.ite
    | with_reducible apply Kept.foldl
    | dsimp only
    | split)

theorem announce_kept {z : State} (s : State) (e first count : Nat) (cmd : Option Nat) (hK : Kept z s) : Kept z (announce s e first count cmd) := by
  unfold announce
  try dsimp only
  repeat' (first
    | with_reducible assumption
    | ((conv => arg 2; arg 33); with_reducible refine Kept.lit ?_ ?_ ?_) <;> [skip; rfl; exact ⟨rfl, rfl, rfl, rfl, rfl, rfl, rfl⟩]
    | with_reducible apply sendLow_kept)

theorem regionMatched_kept {z : State} (s : State) (r : Nat) (hK : Kept z s) : Kept z (regionMatched s r) := by
  unfold regionMatched
  try dsimp only
  repeat' (first
    | intro _ _ _
    | intro _ _
    | intro _
    | with_reducible assumption
    | ((conv => arg 2; arg 33); with_reducible refine Kept.lit ?_ ?_ ?_) <;> [skip; rfl; exact ⟨rfl, rfl, rfl, rfl, rfl, rfl, rfl⟩]
    | with_reducible apply judgeService_kept
    | with_reducible apply setResyncSource_kept
    | with_reducible apply exitStale_kept
    | with_reducible apply Kept.ite
    | with_reducible apply Kept.foldl
    | dsimp only
    | split)

theorem sendCrcs_kept {z : State} (s : State) (r : Nat) (hK : Kept z s) : Kept z (sendCrcs s r) := by
  unfold sendCrcs
  try dsimp only
  repeat' (first
    | intro _ _ _
    | intro _ _
    | intro _
    | with_reducible assumption
    | with_reducible apply sendLow_kept
    | with_reducible apply Kept.foldl)

theorem issueCrcs_kept {z : State} (s : State) (e r : Nat) (hK : Kept z s) : Kept z (issueCrcs s e r) := by
  unfold issueCrcs
  try dsimp only
  repeat' (first
    | with_reducible assumption
    | ((conv => arg 2; arg 33); with_reducible refine Kept.lit ?_ ?_ ?_) <;> [skip; rfl; exact ⟨rfl, rfl, rfl, rfl, rfl, rfl, rfl⟩]
    | with_reducible apply newCutting_kept)

theorem regionDiffers_kept {z : State} (s : State) (e r : Nat) (hK : Kept z s) : Kept z (regionDiffers s e r) := by
  unfold regionDiffers
  try dsimp only
  repeat' (first
    | intro _ _ _
    | intro _ _
    | intro _
    | with_reducible assumption
    | ((conv => arg 2; arg 33); with_reducible refine Kept.lit ?_ ?_ ?_) <;> [skip; rfl; exact ⟨rfl, rfl, rfl, rfl, rfl, rfl, rfl⟩]
    | with_reducible apply raise_kept
    | with_reducible apply makeStale_kept
    | with_reducible apply judgeService_kept
    | with_reducible apply setResyncSource_kept
    | with_reducible apply issueCrcs_kept
    | with_reducible apply Kept.ite
    | with_reducible apply Kept.foldl
    | dsimp only
    | split)

theorem endCompare_kept {z : State} (s : State) (c : Compare) (hK : Kept z s) : Kept z (endCompare s c) := by
  unfold endCompare
  try dsimp only
  repeat' (first
    | intro _ _ _
    | intro _ _
    | intro _
    | with_reducible assumption
    | ((conv => arg 2; arg 33); with_reducible refine Kept.lit ?_ ?_ ?_) <;> [skip; rfl; exact ⟨rfl, rfl, rfl, rfl, rfl, rfl, rfl⟩]
    | with_reducible apply endOut_kept
    | with_reducible apply regionMatched_kept
    | with_reducible apply regionDiffers_kept
    | with_reducible apply Kept.foldl
    | dsimp only
    | split)

theorem judgeCompares_kept {z : State} (s : State) (hK : Kept z s) : Kept z (judgeCompares s) := by
  unfold judgeCompares
  try dsimp only
  repeat' (first
    | intro _ _ _
    | intro _ _
    | intro _
    | with_reducible assumption
    | with_reducible apply endCompare_kept
    | with_reducible apply Kept.ite
    | with_reducible apply Kept.foldl
    | dsimp only
    | split)

theorem capture_kept {z : State} (s : State) (hK : Kept z s) : Kept z (capture s) := by
  unfold capture
  try dsimp only
  repeat' (first
    | intro _ _ _
    | intro _ _
    | intro _
    | with_reducible assumption
    | ((conv => arg 2; arg 33); with_reducible refine Kept.lit ?_ ?_ ?_) <;> [skip; rfl; exact ⟨rfl, rfl, rfl, rfl, rfl, rfl, rfl⟩]
    | with_reducible apply newCutting_kept
    | with_reducible apply releaseHeld_kept
    | with_reducible apply drainSubs_kept
    | with_reducible apply Kept.ite
    | with_reducible apply Kept.foldl
    | dsimp only
    | split)

theorem modCompare_kept {z : State} (s : State) (n : Nat) (f : Compare → Compare) (hK : Kept z s) : Kept z (modCompare s n f) := by
  unfold modCompare
  try dsimp only
  repeat' (first
    | intro _ _ _
    | intro _ _
    | intro _
    | with_reducible assumption
    | ((conv => arg 2; arg 33); with_reducible refine Kept.lit ?_ ?_ ?_) <;> [skip; rfl; exact ⟨rfl, rfl, rfl, rfl, rfl, rfl, rfl⟩]
    | with_reducible apply Kept.ite
    | dsimp only
    | split)

theorem comparisonEnds_kept {z : State} (s : State) (n : Nat) (hK : Kept z s) : Kept z (comparisonEnds s n) := by
  unfold comparisonEnds
  try dsimp only
  repeat' (first
    | intro _ _ _
    | intro _ _
    | intro _
    | with_reducible assumption
    | ((conv => arg 2; arg 33); with_reducible refine Kept.lit ?_ ?_ ?_) <;> [skip; rfl; exact ⟨rfl, rfl, rfl, rfl, rfl, rfl, rfl⟩]
    | with_reducible apply sendLow_kept
    | with_reducible apply sendCrcs_kept
    | with_reducible apply judgeCompares_kept
    | with_reducible apply modCompare_kept
    | with_reducible apply Kept.foldl
    | dsimp only
    | split)

theorem comparisonFails_kept {z : State} (s : State) (n : Nat) (hK : Kept z s) : Kept z (comparisonFails s n) := by
  unfold comparisonFails
  try dsimp only
  repeat' (first
    | intro _ _ _
    | intro _ _
    | intro _
    | with_reducible assumption
    | ((conv => arg 2; arg 33); with_reducible refine Kept.lit ?_ ?_ ?_) <;> [skip; rfl; exact ⟨rfl, rfl, rfl, rfl, rfl, rfl, rfl⟩]
    | with_reducible apply judgeCompares_kept
    | with_reducible apply modCompare_kept
    | with_reducible apply Kept.ite
    | with_reducible apply Kept.foldl
    | dsimp only
    | split)

theorem cmdTallyCompare_kept {z : State} (f : InFlight) (s : State) (hK : Kept z s) : Kept z (cmdTallyCompare f s) := by
  unfold cmdTallyCompare
  try dsimp only
  repeat' (first
    | intro _ _ _
    | intro _ _
    | intro _
    | with_reducible assumption
    | with_reducible apply badParam_kept
    | with_reducible apply conflict_kept
    | with_reducible apply setJob_kept
    | with_reducible apply announce_kept
    | with_reducible apply Kept.ite
    | dsimp only
    | split)

theorem resyncAnnounce_kept {z : State} (s : State) (hK : Kept z s) : Kept z (resyncAnnounce s) := by
  unfold resyncAnnounce
  try dsimp only
  repeat' (first
    | intro _ _ _
    | intro _ _
    | intro _
    | with_reducible assumption
    | ((conv => arg 2; arg 33); with_reducible refine Kept.lit ?_ ?_ ?_) <;> [skip; rfl; exact ⟨rfl, rfl, rfl, rfl, rfl, rfl, rfl⟩]
    | with_reducible apply announce_kept
    | with_reducible apply Kept.ite
    | dsimp only
    | split)

theorem resyncPump_kept {z : State} (s : State) (n : Nat) (hK : Kept z s) : Kept z (resyncPump s n) := by
  induction n generalizing s with
  | zero => unfold resyncPump; exact hK
  | succ n ih =>
    unfold resyncPump
    cases hq : s.exl.resyncQ with
    | nil => exact hK
    | cons g rest =>
      refine Kept.ite hK (ih _ ?_)
      refine Kept.foldl (fun x i hx => sendRecord_kept _ _ _ (position_kept _ _ hx)) ?_
      exact Kept.upd hK rfl rfl rfl rfl rfl rfl

theorem cmdResync_kept {z : State} (f : InFlight) (s : State) (hK : Kept z s) : Kept z (cmdResync f s) := by
  unfold cmdResync
  try dsimp only
  repeat' (first
    | intro _ _ _
    | intro _ _
    | intro _
    | with_reducible assumption
    | ((conv => arg 2; arg 33); with_reducible refine Kept.lit ?_ ?_ ?_) <;> [skip; rfl; exact ⟨rfl, rfl, rfl, rfl, rfl, rfl, rfl⟩]
    | with_reducible apply endWith_kept
    | with_reducible apply endOk_kept
    | with_reducible apply badParam_kept
    | with_reducible apply conflict_kept
    | with_reducible apply assistInput_kept
    | with_reducible apply modAllot_kept
    | with_reducible apply offerAllot_kept
    | with_reducible apply sendState_kept
    | with_reducible apply paceResync_kept
    | with_reducible apply setResyncSource_kept
    | with_reducible apply exitStale_kept
    | with_reducible apply Kept.ite
    | dsimp only
    | split)

theorem cmdFailover_kept {z : State} (f : InFlight) (s : State) (hK : Kept z s) : Kept z (cmdFailover f s) := by
  unfold cmdFailover
  try dsimp only
  repeat' (first
    | intro _ _ _
    | intro _ _
    | intro _
    | with_reducible assumption
    | ((conv => arg 2; arg 33); with_reducible refine Kept.lit ?_ ?_ ?_) <;> [skip; rfl; exact ⟨rfl, rfl, rfl, rfl, rfl, rfl, rfl⟩]
    | with_reducible apply endOk_kept
    | with_reducible apply badParam_kept
    | with_reducible apply conflict_kept
    | with_reducible apply setJob_kept
    | with_reducible apply judgeService_kept
    | with_reducible apply retryHeld_kept
    | with_reducible apply startTx_kept
    | with_reducible apply takeOver_kept
    | with_reducible apply fenceAllots_kept
    | with_reducible apply ackPeer_kept
    | with_reducible apply Kept.ite
    | with_reducible apply Kept.foldl
    | dsimp only
    | split)

theorem markCompares_kept {z : State} (s : State) (hK : Kept z s) : Kept z (markCompares s) := by
  unfold markCompares
  try dsimp only
  repeat' (first
    | intro _ _ _
    | intro _ _
    | intro _
    | with_reducible assumption
    | ((conv => arg 2; arg 33); with_reducible refine Kept.lit ?_ ?_ ?_) <;> [skip; rfl; exact ⟨rfl, rfl, rfl, rfl, rfl, rfl, rfl⟩]
    | with_reducible apply sendEvery_kept
    | with_reducible apply Kept.ite
    | with_reducible apply Kept.foldl
    | dsimp only
    | split)

theorem cmdUnpair_kept {z : State} (f : InFlight) (s : State) (hK : Kept z s) : Kept z (cmdUnpair f s) := by
  unfold cmdUnpair
  try dsimp only
  repeat' (first
    | intro _ _ _
    | intro _ _
    | intro _
    | with_reducible assumption
    | ((conv => arg 2; arg 33); with_reducible refine Kept.lit ?_ ?_ ?_) <;> [skip; rfl; exact ⟨rfl, rfl, rfl, rfl, rfl, rfl, rfl⟩]
    | with_reducible apply pairWrite_kept
    | with_reducible apply endOk_kept
    | with_reducible apply badParam_kept
    | with_reducible apply conflict_kept
    | with_reducible apply modAllot_kept
    | with_reducible apply judgeService_kept
    | with_reducible apply abandonCompare_kept
    | with_reducible apply retryHeld_kept
    | with_reducible apply enterDeleting_kept
    | with_reducible apply abortTx_kept
    | with_reducible apply releaseWithheld_kept
    | with_reducible apply judgeCompares_kept
    | with_reducible apply Kept.ite
    | with_reducible apply Kept.foldl
    | dsimp only
    | split)

theorem execHeartbeatRecordIn_kept {z : State} (a : RegAcc) (v t : Nat) (s : State) (hK : Kept z s) {w0 : State} (eq0 : execHeartbeatRecordIn a v t s = .next w0) : Kept z w0 := by
  unfold execHeartbeatRecordIn at eq0
  try dsimp only at eq0
  refine Kept.of_next eq0 ?_
  repeat' (first
    | with_reducible assumption
    | ((conv => arg 2; arg 33); with_reducible refine Kept.lit ?_ ?_ ?_) <;> [skip; rfl; exact ⟨rfl, rfl, rfl, rfl, rfl, rfl, rfl⟩]
    | with_reducible apply tick_kept
    | with_reducible apply regFault_kept
    | with_reducible apply takeHeartbeat_kept
    | with_reducible apply Kept.ite
    | dsimp only
    | split)

theorem execHeartbeatPublish_kept {z : State} (t : Nat) (s : State) (hK : Kept z s) {w0 : State} (eq0 : execHeartbeatPublish t s = .next w0) : Kept z w0 := by
  unfold execHeartbeatPublish at eq0
  try dsimp only at eq0
  refine Kept.of_next eq0 ?_
  repeat' (first
    | intro _ _ _
    | intro _ _
    | intro _
    | with_reducible assumption
    | ((conv => arg 2; arg 33); with_reducible refine Kept.lit ?_ ?_ ?_) <;> [skip; rfl; exact ⟨rfl, rfl, rfl, rfl, rfl, rfl, rfl⟩]
    | with_reducible apply emit_kept
    | with_reducible apply tick_kept
    | with_reducible apply Kept.ite
    | dsimp only
    | split)

theorem execClaimTimeout_kept {z : State} (t : Nat) (s : State) (hK : Kept z s) {w0 : State} (eq0 : execClaimTimeout t s = .next w0) : Kept z w0 := by
  unfold execClaimTimeout at eq0
  try dsimp only at eq0
  refine Kept.of_next eq0 ?_
  repeat' (first
    | with_reducible assumption
    | ((conv => arg 2; arg 33); with_reducible refine Kept.lit ?_ ?_ ?_) <;> [skip; rfl; exact ⟨rfl, rfl, rfl, rfl, rfl, rfl, rfl⟩]
    | with_reducible apply tick_kept
    | with_reducible apply fenceAllots_kept
    | with_reducible apply Kept.ite
    | dsimp only
    | split)

theorem execTakeoverTimeout_kept {z : State} (t : Nat) (s : State) (hK : Kept z s) {w0 : State} (eq0 : execTakeoverTimeout t s = .next w0) : Kept z w0 := by
  unfold execTakeoverTimeout at eq0
  try dsimp only at eq0
  refine Kept.of_next eq0 ?_
  repeat' (first
    | with_reducible assumption
    | ((conv => arg 2; arg 33); with_reducible refine Kept.lit ?_ ?_ ?_) <;> [skip; rfl; exact ⟨rfl, rfl, rfl, rfl, rfl, rfl, rfl⟩]
    | with_reducible apply tick_kept
    | with_reducible apply takeOver_kept
    | with_reducible apply Kept.ite
    | dsimp only
    | split)

theorem execCompareCaptureTimeout_kept {z : State} (e t : Nat) (s : State) (hK : Kept z s) {w0 : State} (eq0 : execCompareCaptureTimeout e t s = .next w0) : Kept z w0 := by
  unfold execCompareCaptureTimeout at eq0
  try dsimp only at eq0
  refine Kept.of_next eq0 ?_
  repeat' (first
    | intro _ _ _
    | intro _ _
    | intro _
    | with_reducible assumption
    | ((conv => arg 2; arg 33); with_reducible refine Kept.lit ?_ ?_ ?_) <;> [skip; rfl; exact ⟨rfl, rfl, rfl, rfl, rfl, rfl, rfl⟩]
    | with_reducible apply tick_kept
    | with_reducible apply abandonCompare_kept
    | with_reducible apply judgeCompares_kept
    | with_reducible apply Kept.ite
    | with_reducible apply Kept.foldl
    | dsimp only
    | split)

theorem execCompareSchedule_kept {z : State} (t : Nat) (s : State) (hK : Kept z s) {w0 : State} (eq0 : execCompareSchedule t s = .next w0) : Kept z w0 := by
  unfold execCompareSchedule at eq0
  try dsimp only at eq0
  refine Kept.of_next eq0 ?_
  repeat' (first
    | intro _ _ _
    | intro _ _
    | intro _
    | with_reducible assumption
    | ((conv => arg 2; arg 33); with_reducible refine Kept.lit ?_ ?_ ?_) <;> [skip; rfl; exact ⟨rfl, rfl, rfl, rfl, rfl, rfl, rfl⟩]
    | with_reducible apply tick_kept
    | with_reducible apply loopRan_kept
    | with_reducible apply announce_kept
    | with_reducible apply Kept.ite
    | with_reducible apply Kept.foldl
    | dsimp only
    | split)

theorem execTallyCompare_kept {z : State} (c : TrellisCmd) (s : State) (hK : Kept z s) {w0 : State} (eq0 : execTallyCompare c s = .next w0) : Kept z w0 := by
  unfold execTallyCompare at eq0
  try dsimp only at eq0
  refine Kept.of_next eq0 ?_
  repeat' (first
    | intro _ _ _
    | intro _ _
    | intro _
    | with_reducible assumption
    | with_reducible apply submit_kept
    | with_reducible apply cmdTallyCompare_kept)

theorem execResyncPacing_kept {z : State} (busy : Bool) (t : Nat) (s : State) (hK : Kept z s) {w0 : State} (eq0 : execResyncPacing busy t s = .next w0) : Kept z w0 := by
  unfold execResyncPacing at eq0
  try dsimp only at eq0
  refine Kept.of_next eq0 ?_
  repeat' (first
    | with_reducible assumption
    | with_reducible apply tick_kept
    | with_reducible apply loopRan_kept
    | with_reducible apply paceResync_kept
    | with_reducible apply Kept.ite
    | dsimp only
    | split)

theorem execResyncPauseEnd_kept {z : State} (t : Nat) (s : State) (hK : Kept z s) {w0 : State} (eq0 : execResyncPauseEnd t s = .next w0) : Kept z w0 := by
  unfold execResyncPauseEnd at eq0
  try dsimp only at eq0
  refine Kept.of_next eq0 ?_
  repeat' (first
    | with_reducible assumption
    | ((conv => arg 2; arg 33); with_reducible refine Kept.lit ?_ ?_ ?_) <;> [skip; rfl; exact ⟨rfl, rfl, rfl, rfl, rfl, rfl, rfl⟩]
    | with_reducible apply tick_kept
    | with_reducible apply paceResync_kept
    | with_reducible apply Kept.ite
    | dsimp only
    | split)

theorem execResync_kept {z : State} (c : TrellisCmd) (s : State) (hK : Kept z s) {w0 : State} (eq0 : execResync c s = .next w0) : Kept z w0 := by
  unfold execResync at eq0
  try dsimp only at eq0
  refine Kept.of_next eq0 ?_
  repeat' (first
    | intro _ _ _
    | intro _ _
    | intro _
    | with_reducible assumption
    | with_reducible apply submit_kept
    | with_reducible apply cmdResync_kept)

theorem execFailover_kept {z : State} (c : TrellisCmd) (s : State) (hK : Kept z s) {w0 : State} (eq0 : execFailover c s = .next w0) : Kept z w0 := by
  unfold execFailover at eq0
  try dsimp only at eq0
  refine Kept.of_next eq0 ?_
  repeat' (first
    | intro _ _ _
    | intro _ _
    | intro _
    | with_reducible assumption
    | with_reducible apply submit_kept
    | with_reducible apply cmdFailover_kept)

theorem execPairEpochTick_kept {z : State} (t : Nat) (s : State) (hK : Kept z s) {w0 : State} (eq0 : execPairEpochTick t s = .next w0) : Kept z w0 := by
  unfold execPairEpochTick at eq0
  try dsimp only at eq0
  refine Kept.of_next eq0 ?_
  repeat' (first
    | intro _ _ _
    | intro _ _
    | intro _
    | with_reducible assumption
    | ((conv => arg 2; arg 33); with_reducible refine Kept.lit ?_ ?_ ?_) <;> [skip; rfl; exact ⟨rfl, rfl, rfl, rfl, rfl, rfl, rfl⟩]
    | with_reducible apply tick_kept
    | with_reducible apply sendLow_kept
    | with_reducible apply judgeService_kept
    | with_reducible apply retryHeld_kept
    | with_reducible apply activationTick_kept
    | with_reducible apply applyAt_kept
    | with_reducible apply capture_kept
    | with_reducible apply resyncAnnounce_kept
    | with_reducible apply markCompares_kept
    | with_reducible apply Kept.ite
    | with_reducible apply Kept.foldl
    | dsimp only
    | split)

theorem execUnpair_kept {z : State} (c : TrellisCmd) (s : State) (hK : Kept z s) {w0 : State} (eq0 : execUnpair c s = .next w0) : Kept z w0 := by
  unfold execUnpair at eq0
  try dsimp only at eq0
  refine Kept.of_next eq0 ?_
  repeat' (first
    | intro _ _ _
    | intro _ _
    | intro _
    | with_reducible assumption
    | with_reducible apply submit_kept
    | with_reducible apply cmdUnpair_kept)

/-! ### Exsor -/

theorem judgeLink_kept {z : State} (s : State) (hK : Kept z s) : Kept z (judgeLink s) := by
  unfold judgeLink
  try dsimp only
  repeat' (first
    | intro _ _ _
    | intro _ _
    | intro _
    | with_reducible assumption
    | ((conv => arg 2; arg 33); with_reducible refine Kept.lit ?_ ?_ ?_) <;> [skip; rfl; exact ⟨rfl, rfl, rfl, rfl, rfl, rfl, rfl⟩]
    | with_reducible apply Kept.ite
    | dsimp only
    | split)

theorem trainSub_kept {z : State} (s : State) (k : Nat) (hK : Kept z s) : Kept z (trainSub s k) := by
  unfold trainSub
  try dsimp only
  repeat' (first
    | intro _ _ _
    | intro _ _
    | intro _
    | with_reducible assumption
    | ((conv => arg 2; arg 33); with_reducible refine Kept.lit ?_ ?_ ?_) <;> [skip; rfl; exact ⟨rfl, rfl, rfl, rfl, rfl, rfl, rfl⟩]
    | with_reducible apply bump_kept
    | with_reducible apply modSub_kept
    | with_reducible apply judgeLink_kept
    | with_reducible apply Kept.ite
    | dsimp only
    | split)

theorem startTrainings_kept {z : State} (s : State) (hK : Kept z s) : Kept z (startTrainings s) := by
  unfold startTrainings
  try dsimp only
  repeat' (first
    | intro _ _ _
    | intro _ _
    | intro _
    | with_reducible assumption
    | with_reducible apply trainSub_kept
    | with_reducible apply Kept.ite
    | with_reducible apply Kept.foldl
    | dsimp only
    | split)

theorem advanceSub_kept {z : State} (s : State) (k a b : Nat) (hK : Kept z s) : Kept z (advanceSub s k a b) := by
  unfold advanceSub
  try dsimp only
  repeat' (first
    | intro _ _ _
    | intro _ _
    | intro _
    | with_reducible assumption
    | ((conv => arg 2; arg 33); with_reducible refine Kept.lit ?_ ?_ ?_) <;> [skip; rfl; exact ⟨rfl, rfl, rfl, rfl, rfl, rfl, rfl⟩]
    | with_reducible apply modSub_kept
    | with_reducible apply judgeLink_kept
    | with_reducible apply Kept.ite
    | dsimp only
    | split)

theorem downSub_kept {z : State} (s : State) (k : Nat) (hK : Kept z s) : Kept z (downSub s k) := by
  unfold downSub
  try dsimp only
  repeat' (first
    | intro _ _ _
    | intro _ _
    | intro _
    | with_reducible assumption
    | ((conv => arg 2; arg 33); with_reducible refine Kept.lit ?_ ?_ ?_) <;> [skip; rfl; exact ⟨rfl, rfl, rfl, rfl, rfl, rfl, rfl⟩]
    | with_reducible apply modSub_kept
    | with_reducible apply judgeLink_kept)

theorem linkDown_kept {z : State} (s : State) (hK : Kept z s) : Kept z (linkDown s) := by
  unfold linkDown
  try dsimp only
  repeat' (first
    | intro _ _ _
    | intro _ _
    | intro _
    | with_reducible assumption
    | with_reducible apply linkLost_kept
    | with_reducible apply judgeLink_kept
    | with_reducible apply downSub_kept
    | with_reducible apply Kept.foldl)

theorem loseSub_kept {z : State} (s : State) (k : Nat) (hK : Kept z s) : Kept z (loseSub s k) := by
  unfold loseSub
  try dsimp only
  repeat' (first
    | intro _ _ _
    | intro _ _
    | intro _
    | with_reducible assumption
    | ((conv => arg 2; arg 33); with_reducible refine Kept.lit ?_ ?_ ?_) <;> [skip; rfl; exact ⟨rfl, rfl, rfl, rfl, rfl, rfl, rfl⟩]
    | with_reducible apply modSub_kept
    | with_reducible apply sendLow_kept
    | with_reducible apply linkLost_kept
    | with_reducible apply judgeLink_kept
    | with_reducible apply trainSub_kept
    | with_reducible apply Kept.ite
    | dsimp only
    | split)

theorem sendHello_kept {z : State} (s : State) (k : Nat) (hK : Kept z s) : Kept z (sendHello s k) := by
  unfold sendHello
  try dsimp only
  repeat' (first
    | with_reducible assumption
    | ((conv => arg 2; arg 33); with_reducible refine Kept.lit ?_ ?_ ?_) <;> [skip; rfl; exact ⟨rfl, rfl, rfl, rfl, rfl, rfl, rfl⟩]
    | with_reducible apply drew_kept
    | with_reducible apply sendMsg_kept
    | with_reducible apply Kept.ite
    | dsimp only
    | split)

theorem grantCredits_kept {z : State} (s : State) (hK : Kept z s) : Kept z (grantCredits s) := by
  unfold grantCredits
  try dsimp only
  repeat' (first
    | intro _ _ _
    | intro _ _
    | intro _
    | with_reducible assumption
    | ((conv => arg 2; arg 33); with_reducible refine Kept.lit ?_ ?_ ?_) <;> [skip; rfl; exact ⟨rfl, rfl, rfl, rfl, rfl, rfl, rfl⟩]
    | with_reducible apply modSub_kept
    | with_reducible apply sendMsg_kept
    | with_reducible apply Kept.ite
    | with_reducible apply Kept.foldl
    | dsimp only
    | split)

theorem sendRoom_kept {z : State} (s : State) (hK : Kept z s) : Kept z (sendRoom s) := by
  unfold sendRoom
  try dsimp only
  repeat' (first
    | intro _ _ _
    | intro _ _
    | intro _
    | with_reducible assumption
    | ((conv => arg 2; arg 33); with_reducible refine Kept.lit ?_ ?_ ?_) <;> [skip; rfl; exact ⟨rfl, rfl, rfl, rfl, rfl, rfl, rfl⟩]
    | with_reducible apply sendEvery_kept
    | with_reducible apply Kept.ite
    | dsimp only
    | split)

theorem roomIfChanged_kept {z : State} (s : State) (hK : Kept z s) : Kept z (roomIfChanged s) := by
  unfold roomIfChanged
  try dsimp only
  repeat' (first
    | with_reducible assumption
    | with_reducible apply sendRoom_kept
    | with_reducible apply Kept.ite
    | dsimp only
    | split)

theorem openSession_kept {z : State} (s : State) (hK : Kept z s) : Kept z (openSession s) := by
  unfold openSession
  try dsimp only
  repeat' (first
    | intro _ _ _
    | intro _ _
    | intro _
    | with_reducible assumption
    | ((conv => arg 2; arg 33); with_reducible refine Kept.lit ?_ ?_ ?_) <;> [skip; rfl; exact ⟨rfl, rfl, rfl, rfl, rfl, rfl, rfl⟩]
    | with_reducible apply pairWrite_kept
    | with_reducible apply makeStale_kept
    | with_reducible apply judgeService_kept
    | with_reducible apply retryHeld_kept
    | with_reducible apply releaseWithheld_kept
    | with_reducible apply sendState_kept
    | with_reducible apply judgeLink_kept
    | with_reducible apply grantCredits_kept
    | with_reducible apply sendRoom_kept
    | with_reducible apply Kept.ite
    | with_reducible apply Kept.foldl
    | dsimp only
    | split)

theorem nak_kept {z : State} (s : State) (k : Nat) (hK : Kept z s) : Kept z (nak s k) := by
  unfold nak
  try dsimp only
  repeat' (first
    | intro _ _ _
    | intro _ _
    | intro _
    | with_reducible assumption
    | ((conv => arg 2; arg 33); with_reducible refine Kept.lit ?_ ?_ ?_) <;> [skip; rfl; exact ⟨rfl, rfl, rfl, rfl, rfl, rfl, rfl⟩]
    | with_reducible apply emit_kept
    | with_reducible apply modSub_kept)

theorem ack_kept {z : State} (s : State) (k : Nat) (hK : Kept z s) : Kept z (ack s k) := by
  unfold ack
  try dsimp only
  repeat' (first
    | intro _ _ _
    | intro _ _
    | intro _
    | with_reducible assumption
    | ((conv => arg 2; arg 33); with_reducible refine Kept.lit ?_ ?_ ?_) <;> [skip; rfl; exact ⟨rfl, rfl, rfl, rfl, rfl, rfl, rfl⟩]
    | with_reducible apply emit_kept
    | with_reducible apply modSub_kept)

theorem countFec_kept {z : State} (s : State) (k n : Nat) (hK : Kept z s) : Kept z (countFec s k n) := by
  unfold countFec
  try dsimp only
  repeat' (first
    | intro _ _ _
    | intro _ _
    | intro _
    | with_reducible assumption
    | ((conv => arg 2; arg 33); with_reducible refine Kept.lit ?_ ?_ ?_) <;> [skip; rfl; exact ⟨rfl, rfl, rfl, rfl, rfl, rfl, rfl⟩]
    | with_reducible apply modSub_kept
    | with_reducible apply Kept.ite
    | dsimp only
    | split)

theorem takeSeq_kept {z : State} (s : State) (typ : Nat) (f : FlitIn) (hK : Kept z s) : Kept z (takeSeq s typ f).1 := by
  unfold takeSeq
  try dsimp only
  repeat' (first
    | intro _ _ _
    | intro _ _
    | intro _
    | with_reducible assumption
    | ((conv => arg 2; arg 33); with_reducible refine Kept.lit ?_ ?_ ?_) <;> [skip; rfl; exact ⟨rfl, rfl, rfl, rfl, rfl, rfl, rfl⟩]
    | with_reducible apply modSub_kept
    | with_reducible apply nak_kept
    | with_reducible apply ack_kept
    | with_reducible apply countFec_kept
    | with_reducible apply Kept.ite
    | dsimp only
    | split)
theorem takeSeq_kept_eq {z : State} {s : State} {typ : Nat} {f : FlitIn} {x : State} {r : _} (e : (takeSeq s typ f) = (x, r)) (hK : Kept z s) : Kept z x := by
  have := takeSeq_kept s typ f hK
  rw [e] at this
  exact this

theorem resendSub_kept {z : State} (s : State) (k : Nat) (hK : Kept z s) : Kept z (resendSub s k) := by
  unfold resendSub
  try dsimp only
  repeat' (first
    | intro _ _ _
    | intro _ _
    | intro _
    | with_reducible assumption
    | ((conv => arg 2; arg 33); with_reducible refine Kept.lit ?_ ?_ ?_) <;> [skip; rfl; exact ⟨rfl, rfl, rfl, rfl, rfl, rfl, rfl⟩]
    | with_reducible apply emit_kept
    | with_reducible apply bump_kept
    | with_reducible apply modSub_kept
    | with_reducible apply raiseOpen_kept
    | with_reducible apply loseSub_kept
    | with_reducible apply Kept.ite
    | with_reducible apply Kept.foldl
    | dsimp only
    | split)

theorem protocolError_kept {z : State} (s : State) (hK : Kept z s) : Kept z (protocolError s) := by
  unfold protocolError
  try dsimp only
  repeat' (first
    | with_reducible assumption
    | ((conv => arg 2; arg 33); with_reducible refine Kept.lit ?_ ?_ ?_) <;> [skip; rfl; exact ⟨rfl, rfl, rfl, rfl, rfl, rfl, rfl⟩]
    | with_reducible apply raiseOpen_kept
    | with_reducible apply linkDown_kept)

theorem switchKeys_kept {z : State} (s : State) (id : Nat) (hK : Kept z s) : Kept z (switchKeys s id) := by
  unfold switchKeys
  try dsimp only
  repeat' (first
    | intro _ _ _
    | intro _ _
    | intro _
    | with_reducible assumption
    | ((conv => arg 2; arg 33); with_reducible refine Kept.lit ?_ ?_ ?_) <;> [skip; rfl; exact ⟨rfl, rfl, rfl, rfl, rfl, rfl, rfl⟩]
    | with_reducible apply sendEvery_kept)

theorem startRekey_kept {z : State} (s : State) (hK : Kept z s) : Kept z (startRekey s) := by
  unfold startRekey
  try dsimp only
  repeat' (first
    | with_reducible assumption
    | ((conv => arg 2; arg 33); with_reducible refine Kept.lit ?_ ?_ ?_) <;> [skip; rfl; exact ⟨rfl, rfl, rfl, rfl, rfl, rfl, rfl⟩]
    | with_reducible apply pairWrite_kept
    | with_reducible apply sendLow_kept
    | with_reducible apply switchKeys_kept
    | with_reducible apply Kept.ite
    | dsimp only
    | split)

theorem judgeRekey_kept {z : State} (s : State) (hK : Kept z s) : Kept z (judgeRekey s) := by
  unfold judgeRekey
  try dsimp only
  repeat' (first
    | intro _ _ _
    | intro _ _
    | intro _
    | with_reducible assumption
    | ((conv => arg 2; arg 33); with_reducible refine Kept.lit ?_ ?_ ?_) <;> [skip; rfl; exact ⟨rfl, rfl, rfl, rfl, rfl, rfl, rfl⟩]
    | with_reducible apply retryHeld_kept
    | with_reducible apply Kept.ite
    | dsimp only
    | split)

theorem onRekey_kept {z : State} (s : State) (id : Nat) (hK : Kept z s) : Kept z (onRekey s id) := by
  unfold onRekey
  try dsimp only
  repeat' (first
    | with_reducible assumption
    | ((conv => arg 2; arg 33); with_reducible refine Kept.lit ?_ ?_ ?_) <;> [skip; rfl; exact ⟨rfl, rfl, rfl, rfl, rfl, rfl, rfl⟩]
    | with_reducible apply switchKeys_kept
    | with_reducible apply Kept.ite
    | dsimp only
    | split)

theorem onKeySwitch_kept {z : State} (s : State) (k id : Nat) (hK : Kept z s) : Kept z (onKeySwitch s k id) := by
  unfold onKeySwitch
  try dsimp only
  repeat' (first
    | intro _ _ _
    | intro _ _
    | intro _
    | with_reducible assumption
    | ((conv => arg 2; arg 33); with_reducible refine Kept.lit ?_ ?_ ?_) <;> [skip; rfl; exact ⟨rfl, rfl, rfl, rfl, rfl, rfl, rfl⟩]
    | with_reducible apply modSub_kept
    | with_reducible apply judgeRekey_kept
    | with_reducible apply onRekey_kept
    | with_reducible apply Kept.ite
    | dsimp only
    | split)

theorem authFail_kept {z : State} (s : State) (k : Nat) (hK : Kept z s) : Kept z (authFail s k) := by
  unfold authFail
  try dsimp only
  repeat' (first
    | intro _ _ _
    | intro _ _
    | intro _
    | with_reducible assumption
    | ((conv => arg 2; arg 33); with_reducible refine Kept.lit ?_ ?_ ?_) <;> [skip; rfl; exact ⟨rfl, rfl, rfl, rfl, rfl, rfl, rfl⟩]
    | with_reducible apply modSub_kept
    | with_reducible apply raiseOpen_kept
    | with_reducible apply loseSub_kept
    | with_reducible apply startRekey_kept
    | with_reducible apply Kept.ite
    | dsimp only
    | split)

theorem onRecord_kept {z : State} (s : State) (k : Nat) (r : MirRec) (hK : Kept z s) : Kept z (onRecord s k r) := by
  unfold onRecord
  try dsimp only
  repeat' (first
    | intro _ _ _
    | intro _ _
    | intro _
    | with_reducible assumption
    | ((conv => arg 2; arg 33); with_reducible refine Kept.lit ?_ ?_ ?_) <;> [skip; rfl; exact ⟨rfl, rfl, rfl, rfl, rfl, rfl, rfl⟩]
    | with_reducible apply modSub_kept
    | with_reducible apply sendMsg_kept
    | with_reducible apply drainSub_kept
    | with_reducible apply judgeHeld_kept
    | with_reducible apply judgeTake_kept
    | with_reducible apply capture_kept
    | with_reducible apply protocolError_kept
    | with_reducible apply Kept.ite
    | dsimp only
    | split)

theorem onAccept_kept {z : State} (s : State) (k n : Nat) (hK : Kept z s) : Kept z (onAccept s k n) := by
  unfold onAccept
  try dsimp only
  repeat' (first
    | intro _ _ _
    | intro _ _
    | intro _
    | with_reducible assumption
    | ((conv => arg 2; arg 33); with_reducible refine Kept.lit ?_ ?_ ?_) <;> [skip; rfl; exact ⟨rfl, rfl, rfl, rfl, rfl, rfl, rfl⟩]
    | with_reducible apply modSub_kept
    | with_reducible apply completeReady_kept
    | with_reducible apply protocolError_kept
    | with_reducible apply Kept.ite
    | dsimp only
    | split)

theorem rehomePump_kept {z : State} (s : State) (fuel : Nat) (hK : Kept z s) : Kept z (rehomePump s fuel) := by
  induction fuel generalizing  s with
  | zero => first | exact hK | (unfold rehomePump; exact hK)
  | succ fuel ih =>
  unfold rehomePump
  try dsimp only
  repeat' (first
    | with_reducible apply ih
    | intro _ _ _
    | intro _ _
    | intro _
    | with_reducible assumption
    | ((conv => arg 2; arg 33); with_reducible refine Kept.lit ?_ ?_ ?_) <;> [skip; rfl; exact ⟨rfl, rfl, rfl, rfl, rfl, rfl, rfl⟩]
    | with_reducible apply modSub_kept
    | with_reducible apply sendRecord_kept
    | with_reducible apply Kept.ite
    | dsimp only
    | split)

theorem onRehome_kept {z : State} (s : State) (k n : Nat) (hK : Kept z s) : Kept z (onRehome s k n) := by
  unfold onRehome
  try dsimp only
  repeat' (first
    | intro _ _ _
    | intro _ _
    | intro _
    | with_reducible assumption
    | ((conv => arg 2; arg 33); with_reducible refine Kept.lit ?_ ?_ ?_) <;> [skip; rfl; exact ⟨rfl, rfl, rfl, rfl, rfl, rfl, rfl⟩]
    | with_reducible apply modSub_kept
    | with_reducible apply retryHeld_kept
    | with_reducible apply protocolError_kept
    | with_reducible apply onAccept_kept
    | with_reducible apply rehomePump_kept
    | with_reducible apply Kept.ite
    | dsimp only
    | split)

theorem onCredit_kept {z : State} (s : State) (k n : Nat) (hK : Kept z s) : Kept z (onCredit s k n) := by
  unfold onCredit
  try dsimp only
  repeat' (first
    | intro _ _ _
    | intro _ _
    | intro _
    | with_reducible assumption
    | ((conv => arg 2; arg 33); with_reducible refine Kept.lit ?_ ?_ ?_) <;> [skip; rfl; exact ⟨rfl, rfl, rfl, rfl, rfl, rfl, rfl⟩]
    | with_reducible apply modSub_kept
    | with_reducible apply retryHeld_kept
    | with_reducible apply protocolError_kept
    | with_reducible apply rehomePump_kept
    | with_reducible apply Kept.ite
    | with_reducible apply Kept.foldl
    | dsimp only
    | split)

theorem onRoom_kept {z : State} (s : State) (room : Int) (stage : Nat) (through : List Nat) (hK : Kept z s) : Kept z (onRoom s room stage through) := by
  unfold onRoom
  try dsimp only
  repeat' (first
    | intro _ _ _
    | intro _ _
    | intro _
    | with_reducible assumption
    | ((conv => arg 2; arg 33); with_reducible refine Kept.lit ?_ ?_ ?_) <;> [skip; rfl; exact ⟨rfl, rfl, rfl, rfl, rfl, rfl, rfl⟩]
    | with_reducible apply retryHeld_kept
    | with_reducible apply Kept.foldl)

theorem onClean_kept {z : State} (s : State) (gs : List Nat) (hK : Kept z s) : Kept z (onClean s gs) := by
  unfold onClean
  try dsimp only
  repeat' (first
    | intro _ _ _
    | intro _ _
    | intro _
    | with_reducible assumption
    | ((conv => arg 2; arg 33); with_reducible refine Kept.lit ?_ ?_ ?_) <;> [skip; rfl; exact ⟨rfl, rfl, rfl, rfl, rfl, rfl, rfl⟩]
    | with_reducible apply protocolError_kept
    | with_reducible apply Kept.ite
    | with_reducible apply Kept.foldl
    | dsimp only
    | split)

theorem onEpoch_kept {z : State} (s : State) (e : Nat) (hK : Kept z s) : Kept z (onEpoch s e) := by
  unfold onEpoch
  try dsimp only
  repeat' (first
    | with_reducible assumption
    | ((conv => arg 2; arg 33); with_reducible refine Kept.lit ?_ ?_ ?_) <;> [skip; rfl; exact ⟨rfl, rfl, rfl, rfl, rfl, rfl, rfl⟩]
    | with_reducible apply Kept.ite
    | dsimp only
    | split)

theorem onCutMark_kept {z : State} (s : State) (k e : Nat) (hK : Kept z s) : Kept z (onCutMark s k e) := by
  unfold onCutMark
  try dsimp only
  repeat' (first
    | intro _ _ _
    | intro _ _
    | intro _
    | with_reducible assumption
    | ((conv => arg 2; arg 33); with_reducible refine Kept.lit ?_ ?_ ?_) <;> [skip; rfl; exact ⟨rfl, rfl, rfl, rfl, rfl, rfl, rfl⟩]
    | with_reducible apply modSub_kept
    | with_reducible apply capture_kept)

theorem onTally_kept {z : State} (s : State) (e r v : Nat) (hK : Kept z s) : Kept z (onTally s e r v) := by
  unfold onTally
  try dsimp only
  repeat' (first
    | intro _ _ _
    | intro _ _
    | intro _
    | with_reducible assumption
    | ((conv => arg 2; arg 33); with_reducible refine Kept.lit ?_ ?_ ?_) <;> [skip; rfl; exact ⟨rfl, rfl, rfl, rfl, rfl, rfl, rfl⟩]
    | with_reducible apply judgeCompares_kept
    | with_reducible apply Kept.ite
    | dsimp only
    | split)

theorem onCrcBlock_kept {z : State} (s : State) (first : Nat) (crcs : List Nat) (hK : Kept z s) : Kept z (onCrcBlock s first crcs) := by
  unfold onCrcBlock
  try dsimp only
  repeat' (first
    | intro _ _ _
    | intro _ _
    | intro _
    | with_reducible assumption
    | ((conv => arg 2; arg 33); with_reducible refine Kept.lit ?_ ?_ ?_) <;> [skip; rfl; exact ⟨rfl, rfl, rfl, rfl, rfl, rfl, rfl⟩]
    | with_reducible apply resyncPump_kept
    | with_reducible apply protocolError_kept
    | with_reducible apply Kept.ite
    | with_reducible apply Kept.foldl
    | dsimp only
    | split)

theorem onCompare_kept {z : State} (s : State) (e first count : Nat) (hK : Kept z s) : Kept z (onCompare s e first count) := by
  unfold onCompare
  try dsimp only
  repeat' (first
    | intro _ _ _
    | intro _ _
    | intro _
    | with_reducible assumption
    | ((conv => arg 2; arg 33); with_reducible refine Kept.lit ?_ ?_ ?_) <;> [skip; rfl; exact ⟨rfl, rfl, rfl, rfl, rfl, rfl, rfl⟩]
    | with_reducible apply protocolError_kept
    | with_reducible apply Kept.ite
    | dsimp only
    | split)

theorem onFlush_kept {z : State} (s : State) (tag first count : Nat) (hK : Kept z s) : Kept z (onFlush s tag first count) := by
  unfold onFlush
  try dsimp only
  repeat' (first
    | intro _ _ _
    | intro _ _
    | intro _
    | with_reducible assumption
    | ((conv => arg 2; arg 33); with_reducible refine Kept.lit ?_ ?_ ?_) <;> [skip; rfl; exact ⟨rfl, rfl, rfl, rfl, rfl, rfl, rfl⟩]
    | with_reducible apply flushWork_kept
    | with_reducible apply judgeFlushes_kept
    | with_reducible apply Kept.ite
    | dsimp only
    | split)

theorem onFlushed_kept {z : State} (s : State) (tag status : Nat) (hK : Kept z s) : Kept z (onFlushed s tag status) := by
  unfold onFlushed
  try dsimp only
  repeat' (first
    | with_reducible assumption
    | ((conv => arg 2; arg 33); with_reducible refine Kept.lit ?_ ?_ ?_) <;> [skip; rfl; exact ⟨rfl, rfl, rfl, rfl, rfl, rfl, rfl⟩]
    | with_reducible apply setJob_kept
    | with_reducible apply judgeFlushes_kept
    | dsimp only
    | split)

theorem onTable_kept {z : State} (s : State) (m : TableMsg) (hK : Kept z s) : Kept z (onTable s m) := by
  unfold onTable
  try dsimp only
  repeat' (first
    | with_reducible assumption
    | ((conv => arg 2; arg 33); with_reducible refine Kept.lit ?_ ?_ ?_) <;> [skip; rfl; exact ⟨rfl, rfl, rfl, rfl, rfl, rfl, rfl⟩]
    | with_reducible apply protocolError_kept
    | with_reducible apply Kept.ite
    | dsimp only
    | split)

theorem onPrepare_kept {z : State} (s : State) (id : Nat) (epoch : Nat) (hK : Kept z s) : Kept z (onPrepare s id epoch) := by
  unfold onPrepare
  try dsimp only
  repeat' (first
    | intro _ _ _
    | intro _ _
    | intro _
    | with_reducible assumption
    | ((conv => arg 2; arg 33); with_reducible refine Kept.lit ?_ ?_ ?_) <;> [skip; rfl; exact ⟨rfl, rfl, rfl, rfl, rfl, rfl, rfl⟩]
    | with_reducible apply sendLow_kept
    | with_reducible apply Kept.ite
    | dsimp only
    | split)

theorem onCommit_kept {z : State} (s : State) (id phase epoch status : Nat) (hK : Kept z s) : Kept z (onCommit s id phase epoch status) := by
  unfold onCommit
  try dsimp only
  repeat' (first
    | intro _ _ _
    | intro _ _
    | intro _
    | with_reducible assumption
    | ((conv => arg 2; arg 33); with_reducible refine Kept.lit ?_ ?_ ?_) <;> [skip; rfl; exact ⟨rfl, rfl, rfl, rfl, rfl, rfl, rfl⟩]
    | with_reducible apply sendLow_kept
    | with_reducible apply endOk_kept
    | with_reducible apply setJob_kept
    | with_reducible apply abortTx_kept
    | with_reducible apply scheduleActivation_kept
    | with_reducible apply protocolError_kept
    | with_reducible apply onPrepare_kept
    | with_reducible apply Kept.ite
    | dsimp only
    | split)

theorem sendSpdm_kept {z : State} (s : State) (m : List Byte) (hK : Kept z s) : Kept z (sendSpdm s m) := by
  unfold sendSpdm
  try dsimp only
  repeat' (first
    | intro _ _ _
    | intro _ _
    | intro _
    | with_reducible assumption
    | with_reducible apply sendLow_kept
    | with_reducible apply Kept.foldl)

theorem endPair_kept {z : State} (s : State) (status detail : Nat) (hK : Kept z s) : Kept z (endPair s status detail) := by
  unfold endPair
  try dsimp only
  repeat' (first
    | with_reducible assumption
    | ((conv => arg 2; arg 33); with_reducible refine Kept.lit ?_ ?_ ?_) <;> [skip; rfl; exact ⟨rfl, rfl, rfl, rfl, rfl, rfl, rfl⟩]
    | with_reducible apply endWith_kept
    | with_reducible apply endOk_kept
    | with_reducible apply Kept.ite
    | dsimp only
    | split)

theorem judgePairHello_kept {z : State} (s : State) (hK : Kept z s) : Kept z (judgePairHello s) := by
  unfold judgePairHello
  try dsimp only
  repeat' (first
    | with_reducible assumption
    | ((conv => arg 2; arg 33); with_reducible refine Kept.lit ?_ ?_ ?_) <;> [skip; rfl; exact ⟨rfl, rfl, rfl, rfl, rfl, rfl, rfl⟩]
    | with_reducible apply endPair_kept
    | with_reducible apply Kept.ite
    | dsimp only
    | split)

theorem beginPair_kept {z : State} (s : State) (hK : Kept z s) : Kept z (beginPair s) := by
  unfold beginPair
  try dsimp only
  repeat' (first
    | with_reducible assumption
    | ((conv => arg 2; arg 33); with_reducible refine Kept.lit ?_ ?_ ?_) <;> [skip; rfl; exact ⟨rfl, rfl, rfl, rfl, rfl, rfl, rfl⟩]
    | with_reducible apply sendSpdm_kept
    | with_reducible apply Kept.ite
    | dsimp only
    | split)

theorem writePairing_kept {z : State} (s : State) (hK : Kept z s) : Kept z (writePairing s) := by
  unfold writePairing
  try dsimp only
  repeat' (first
    | intro _ _ _
    | intro _ _
    | intro _
    | with_reducible assumption
    | ((conv => arg 2; arg 33); with_reducible refine Kept.lit ?_ ?_ ?_) <;> [skip; rfl; exact ⟨rfl, rfl, rfl, rfl, rfl, rfl, rfl⟩]
    | with_reducible apply drew_kept
    | with_reducible apply pairWrite_kept
    | with_reducible apply sendLow_kept
    | with_reducible apply endPair_kept
    | with_reducible apply Kept.ite
    | with_reducible apply Kept.foldl
    | dsimp only
    | split)

theorem onSpdmMsg_kept {z : State} (s : State) (m : List Byte) (hK : Kept z s) : Kept z (onSpdmMsg s m) := by
  unfold onSpdmMsg
  try dsimp only
  repeat' (first
    | intro _ _ _
    | intro _ _
    | intro _
    | with_reducible assumption
    | ((conv => arg 2; arg 33); with_reducible refine Kept.lit ?_ ?_ ?_) <;> [skip; rfl; exact ⟨rfl, rfl, rfl, rfl, rfl, rfl, rfl⟩]
    | with_reducible apply drew_kept
    | with_reducible apply sendSpdm_kept
    | with_reducible apply endPair_kept
    | with_reducible apply beginPair_kept
    | with_reducible apply writePairing_kept
    | with_reducible apply Kept.ite
    | dsimp only
    | split)

theorem onSpdm_kept {z : State} (s : State) (flags : Nat) (data : List Byte) (hK : Kept z s) : Kept z (onSpdm s flags data) := by
  unfold onSpdm
  try dsimp only
  repeat' (first
    | with_reducible assumption
    | ((conv => arg 2; arg 33); with_reducible refine Kept.lit ?_ ?_ ?_) <;> [skip; rfl; exact ⟨rfl, rfl, rfl, rfl, rfl, rfl, rfl⟩]
    | with_reducible apply protocolError_kept
    | with_reducible apply onSpdmMsg_kept
    | with_reducible apply Kept.ite
    | dsimp only
    | split)

theorem onHello_kept {z : State} (s : State) (k : Nat) (m : HelloMsg) (hK : Kept z s) : Kept z (onHello s k m) := by
  unfold onHello
  try dsimp only
  repeat' (first
    | with_reducible assumption
    | ((conv => arg 2; arg 33); with_reducible refine Kept.lit ?_ ?_ ?_) <;> [skip; rfl; exact ⟨rfl, rfl, rfl, rfl, rfl, rfl, rfl⟩]
    | with_reducible apply sendMsg_kept
    | with_reducible apply judgePairHello_kept
    | with_reducible apply beginPair_kept
    | with_reducible apply Kept.ite
    | dsimp only
    | split)

theorem onProof_kept {z : State} (s : State) (mac : List Byte) (hK : Kept z s) : Kept z (onProof s mac) := by
  unfold onProof
  try dsimp only
  repeat' (first
    | with_reducible assumption
    | ((conv => arg 2; arg 33); with_reducible refine Kept.lit ?_ ?_ ?_) <;> [skip; rfl; exact ⟨rfl, rfl, rfl, rfl, rfl, rfl, rfl⟩]
    | with_reducible apply openSession_kept
    | with_reducible apply endPair_kept
    | with_reducible apply Kept.ite
    | dsimp only
    | split)

theorem cmdPair_kept {z : State} (f : InFlight) (s : State) (hK : Kept z s) : Kept z (cmdPair f s) := by
  unfold cmdPair
  try dsimp only
  repeat' (first
    | with_reducible assumption
    | ((conv => arg 2; arg 33); with_reducible refine Kept.lit ?_ ?_ ?_) <;> [skip; rfl; exact ⟨rfl, rfl, rfl, rfl, rfl, rfl, rfl⟩]
    | with_reducible apply badParam_kept
    | with_reducible apply conflict_kept
    | with_reducible apply setJob_kept
    | with_reducible apply judgePairHello_kept
    | with_reducible apply beginPair_kept
    | with_reducible apply Kept.ite
    | dsimp only
    | split)

theorem onItem_kept {z : State} (s : State) (k : Nat) (i : LinkItem) (hK : Kept z s) : Kept z (onItem s k i) := by
  unfold onItem
  try dsimp only
  repeat' (first
    | with_reducible assumption
    | ((conv => arg 2; arg 33); with_reducible refine Kept.lit ?_ ?_ ?_) <;> [skip; rfl; exact ⟨rfl, rfl, rfl, rfl, rfl, rfl, rfl⟩]
    | with_reducible apply peerCut_kept
    | with_reducible apply onState_kept
    | with_reducible apply protocolError_kept
    | with_reducible apply onRekey_kept
    | with_reducible apply onKeySwitch_kept
    | with_reducible apply onRecord_kept
    | with_reducible apply onAccept_kept
    | with_reducible apply onRehome_kept
    | with_reducible apply onCredit_kept
    | with_reducible apply onRoom_kept
    | with_reducible apply onClean_kept
    | with_reducible apply onEpoch_kept
    | with_reducible apply onCutMark_kept
    | with_reducible apply onTally_kept
    | with_reducible apply onCrcBlock_kept
    | with_reducible apply onCompare_kept
    | with_reducible apply onFlush_kept
    | with_reducible apply onFlushed_kept
    | with_reducible apply onTable_kept
    | with_reducible apply onCommit_kept
    | with_reducible apply onSpdm_kept
    | with_reducible apply Kept.ite
    | dsimp only
    | split)

theorem bareItem_kept {z : State} (s : State) (k : Nat) (i : LinkItem) (hK : Kept z s) : Kept z (bareItem s k i) := by
  unfold bareItem
  try dsimp only
  repeat' (first
    | with_reducible assumption
    | ((conv => arg 2; arg 33); with_reducible refine Kept.lit ?_ ?_ ?_) <;> [skip; rfl; exact ⟨rfl, rfl, rfl, rfl, rfl, rfl, rfl⟩]
    | with_reducible apply onItem_kept
    | dsimp only
    | split)

theorem arriveFlit_kept {z : State} (s : State) (f : FlitIn) (i : LinkItem) (hK : Kept z s) : Kept z (arriveFlit s f i) := by
  unfold arriveFlit
  try dsimp only
  repeat' (first
    | intro _ _ _
    | intro _ _
    | intro _
    | with_reducible assumption
    | ((conv => arg 2; arg 33); with_reducible refine Kept.lit ?_ ?_ ?_) <;> [skip; rfl; exact ⟨rfl, rfl, rfl, rfl, rfl, rfl, rfl⟩]
    | with_reducible apply modSub_kept
    | with_reducible apply takeSeq_kept
    | with_reducible refine takeSeq_kept_eq (by assumption) ?_
    | with_reducible apply bareItem_kept
    | with_reducible apply Kept.ite
    | dsimp only
    | split)

theorem execSublinkSignalDetect_kept {z : State} (k t : Nat) (s : State) (hK : Kept z s) {w0 : State} (eq0 : execSublinkSignalDetect k t s = .next w0) : Kept z w0 := by
  unfold execSublinkSignalDetect at eq0
  try dsimp only at eq0
  refine Kept.of_next eq0 ?_
  repeat' (first
    | with_reducible assumption
    | with_reducible apply tick_kept
    | with_reducible apply startTrainings_kept
    | with_reducible apply advanceSub_kept)

theorem execSublinkEqDone_kept {z : State} (k t : Nat) (s : State) (hK : Kept z s) {w0 : State} (eq0 : execSublinkEqDone k t s = .next w0) : Kept z w0 := by
  unfold execSublinkEqDone at eq0
  try dsimp only at eq0
  refine Kept.of_next eq0 ?_
  repeat' (first
    | with_reducible assumption
    | with_reducible apply tick_kept
    | with_reducible apply advanceSub_kept)

theorem execSublinkAlignLock_kept {z : State} (k : Nat) (lanes : List (Nat × Nat × Bool)) (t : Nat) (s : State) (hK : Kept z s) {w0 : State} (eq0 : execSublinkAlignLock k lanes t s = .next w0) : Kept z w0 := by
  unfold execSublinkAlignLock at eq0
  try dsimp only at eq0
  refine Kept.of_next eq0 ?_
  repeat' (first
    | intro _ _ _
    | intro _ _
    | intro _
    | with_reducible assumption
    | ((conv => arg 2; arg 33); with_reducible refine Kept.lit ?_ ?_ ?_) <;> [skip; rfl; exact ⟨rfl, rfl, rfl, rfl, rfl, rfl, rfl⟩]
    | with_reducible apply tick_kept
    | with_reducible apply modSub_kept
    | with_reducible apply advanceSub_kept
    | with_reducible apply Kept.ite
    | dsimp only
    | split)

theorem execSublinkSyncDone_kept {z : State} (k t : Nat) (s : State) (hK : Kept z s) {w0 : State} (eq0 : execSublinkSyncDone k t s = .next w0) : Kept z w0 := by
  unfold execSublinkSyncDone at eq0
  try dsimp only at eq0
  refine Kept.of_next eq0 ?_
  repeat' (first
    | with_reducible assumption
    | with_reducible apply tick_kept
    | with_reducible apply advanceSub_kept
    | with_reducible apply sendHello_kept
    | with_reducible apply Kept.ite
    | dsimp only
    | split)

theorem execSublinkAuthDone_kept {z : State} (k peerEpoch t : Nat) (s : State) (hK : Kept z s) {w0 : State} (eq0 : execSublinkAuthDone k peerEpoch t s = .next w0) : Kept z w0 := by
  unfold execSublinkAuthDone at eq0
  try dsimp only at eq0
  refine Kept.of_next eq0 ?_
  repeat' (first
    | intro _ _ _
    | intro _ _
    | intro _
    | with_reducible assumption
    | ((conv => arg 2; arg 33); with_reducible refine Kept.lit ?_ ?_ ?_) <;> [skip; rfl; exact ⟨rfl, rfl, rfl, rfl, rfl, rfl, rfl⟩]
    | with_reducible apply tick_kept
    | with_reducible apply modSub_kept
    | with_reducible apply advanceSub_kept
    | with_reducible apply grantCredits_kept
    | with_reducible apply openSession_kept
    | with_reducible apply Kept.ite
    | dsimp only
    | split)

theorem execSublinkStateTimeout_kept {z : State} (k t : Nat) (s : State) (hK : Kept z s) {w0 : State} (eq0 : execSublinkStateTimeout k t s = .next w0) : Kept z w0 := by
  unfold execSublinkStateTimeout at eq0
  try dsimp only at eq0
  refine Kept.of_next eq0 ?_
  repeat' (first
    | with_reducible assumption
    | ((conv => arg 2; arg 33); with_reducible refine Kept.lit ?_ ?_ ?_) <;> [skip; rfl; exact ⟨rfl, rfl, rfl, rfl, rfl, rfl, rfl⟩]
    | with_reducible apply tick_kept
    | with_reducible apply downSub_kept
    | with_reducible apply Kept.ite
    | dsimp only
    | split)

theorem execSublinkRetrainStart_kept {z : State} (k t : Nat) (s : State) (hK : Kept z s) {w0 : State} (eq0 : execSublinkRetrainStart k t s = .next w0) : Kept z w0 := by
  unfold execSublinkRetrainStart at eq0
  try dsimp only at eq0
  refine Kept.of_next eq0 ?_
  repeat' (first
    | intro _ _ _
    | intro _ _
    | intro _
    | with_reducible assumption
    | ((conv => arg 2; arg 33); with_reducible refine Kept.lit ?_ ?_ ?_) <;> [skip; rfl; exact ⟨rfl, rfl, rfl, rfl, rfl, rfl, rfl⟩]
    | with_reducible apply tick_kept
    | with_reducible apply modSub_kept
    | with_reducible apply trainSub_kept
    | with_reducible apply Kept.ite
    | dsimp only
    | split)

theorem execSublinkHoldEnd_kept {z : State} (k t : Nat) (s : State) (hK : Kept z s) {w0 : State} (eq0 : execSublinkHoldEnd k t s = .next w0) : Kept z w0 := by
  unfold execSublinkHoldEnd at eq0
  try dsimp only at eq0
  refine Kept.of_next eq0 ?_
  repeat' (first
    | intro _ _ _
    | intro _ _
    | intro _
    | with_reducible assumption
    | ((conv => arg 2; arg 33); with_reducible refine Kept.lit ?_ ?_ ?_) <;> [skip; rfl; exact ⟨rfl, rfl, rfl, rfl, rfl, rfl, rfl⟩]
    | with_reducible apply tick_kept
    | with_reducible apply modSub_kept
    | with_reducible apply judgeLink_kept
    | with_reducible apply Kept.ite
    | dsimp only
    | split)

theorem execSublinkLost_kept {z : State} (n t : Nat) (s : State) (hK : Kept z s) {w0 : State} (eq0 : execSublinkLost n t s = .next w0) : Kept z w0 := by
  unfold execSublinkLost at eq0
  try dsimp only at eq0
  refine Kept.of_next eq0 ?_
  repeat' (first
    | with_reducible assumption
    | with_reducible apply tick_kept
    | with_reducible apply raiseOpen_kept
    | with_reducible apply loseSub_kept
    | with_reducible apply Kept.ite
    | dsimp only
    | split)

theorem execFlitCrcFailure_kept {z : State} (k t : Nat) (s : State) (hK : Kept z s) {w0 : State} (eq0 : execFlitCrcFailure k t s = .next w0) : Kept z w0 := by
  unfold execFlitCrcFailure at eq0
  try dsimp only at eq0
  refine Kept.of_next eq0 ?_
  repeat' (first
    | with_reducible assumption
    | with_reducible apply tick_kept
    | with_reducible apply nak_kept
    | with_reducible apply Kept.ite
    | dsimp only
    | split)

theorem execLinkAck_kept {z : State} (k seq t : Nat) (s : State) (hK : Kept z s) {w0 : State} (eq0 : execLinkAck k seq t s = .next w0) : Kept z w0 := by
  unfold execLinkAck at eq0
  try dsimp only at eq0
  refine Kept.of_next eq0 ?_
  repeat' (first
    | intro _ _ _
    | intro _ _
    | intro _
    | with_reducible assumption
    | ((conv => arg 2; arg 33); with_reducible refine Kept.lit ?_ ?_ ?_) <;> [skip; rfl; exact ⟨rfl, rfl, rfl, rfl, rfl, rfl, rfl⟩]
    | with_reducible apply tick_kept
    | with_reducible apply modSub_kept
    | with_reducible apply pumpFlits_kept
    | with_reducible apply Kept.ite
    | dsimp only
    | split)

theorem execLinkNak_kept {z : State} (k seq t : Nat) (s : State) (hK : Kept z s) {w0 : State} (eq0 : execLinkNak k seq t s = .next w0) : Kept z w0 := by
  unfold execLinkNak at eq0
  try dsimp only at eq0
  refine Kept.of_next eq0 ?_
  repeat' (first
    | intro _ _ _
    | intro _ _
    | intro _
    | with_reducible assumption
    | ((conv => arg 2; arg 33); with_reducible refine Kept.lit ?_ ?_ ?_) <;> [skip; rfl; exact ⟨rfl, rfl, rfl, rfl, rfl, rfl, rfl⟩]
    | with_reducible apply tick_kept
    | with_reducible apply bump_kept
    | with_reducible apply modSub_kept
    | with_reducible apply pumpFlits_kept
    | with_reducible apply resendSub_kept
    | with_reducible apply Kept.ite
    | dsimp only
    | split)

theorem execReplayTimeout_kept {z : State} (k t : Nat) (s : State) (hK : Kept z s) {w0 : State} (eq0 : execReplayTimeout k t s = .next w0) : Kept z w0 := by
  unfold execReplayTimeout at eq0
  try dsimp only at eq0
  refine Kept.of_next eq0 ?_
  repeat' (first
    | with_reducible assumption
    | with_reducible apply tick_kept
    | with_reducible apply resendSub_kept
    | with_reducible apply Kept.ite
    | dsimp only
    | split)

theorem execRekeyDue_kept {z : State} (t : Nat) (s : State) (hK : Kept z s) {w0 : State} (eq0 : execRekeyDue t s = .next w0) : Kept z w0 := by
  unfold execRekeyDue at eq0
  try dsimp only at eq0
  refine Kept.of_next eq0 ?_
  repeat' (first
    | intro _ _ _
    | intro _ _
    | intro _
    | with_reducible assumption
    | with_reducible apply tick_kept
    | with_reducible apply startRekey_kept
    | with_reducible apply Kept.ite
    | dsimp only
    | split)

theorem execRekeyTimeout_kept {z : State} (t : Nat) (s : State) (hK : Kept z s) {w0 : State} (eq0 : execRekeyTimeout t s = .next w0) : Kept z w0 := by
  unfold execRekeyTimeout at eq0
  try dsimp only at eq0
  refine Kept.of_next eq0 ?_
  repeat' (first
    | intro _ _ _
    | intro _ _
    | intro _
    | with_reducible assumption
    | ((conv => arg 2; arg 33); with_reducible refine Kept.lit ?_ ?_ ?_) <;> [skip; rfl; exact ⟨rfl, rfl, rfl, rfl, rfl, rfl, rfl⟩]
    | with_reducible apply tick_kept
    | with_reducible apply bump_kept
    | with_reducible apply Kept.ite
    | dsimp only
    | split)

theorem execExlKeyExhausted_kept {z : State} (k t : Nat) (s : State) (hK : Kept z s) {w0 : State} (eq0 : execExlKeyExhausted k t s = .next w0) : Kept z w0 := by
  unfold execExlKeyExhausted at eq0
  try dsimp only at eq0
  refine Kept.of_next eq0 ?_
  repeat' (first
    | with_reducible assumption
    | ((conv => arg 2; arg 33); with_reducible refine Kept.lit ?_ ?_ ?_) <;> [skip; rfl; exact ⟨rfl, rfl, rfl, rfl, rfl, rfl, rfl⟩]
    | with_reducible apply tick_kept
    | with_reducible apply raiseOpen_kept
    | with_reducible apply linkDown_kept
    | with_reducible apply Kept.ite
    | dsimp only
    | split)

theorem execPair_kept {z : State} (c : TrellisCmd) (s : State) (hK : Kept z s) {w0 : State} (eq0 : execPair c s = .next w0) : Kept z w0 := by
  unfold execPair at eq0
  try dsimp only at eq0
  refine Kept.of_next eq0 ?_
  repeat' (first
    | intro _ _ _
    | intro _ _
    | intro _
    | with_reducible assumption
    | with_reducible apply submit_kept
    | with_reducible apply cmdPair_kept)

theorem execPairTimeout_kept {z : State} (t : Nat) (s : State) (hK : Kept z s) {w0 : State} (eq0 : execPairTimeout t s = .next w0) : Kept z w0 := by
  unfold execPairTimeout at eq0
  try dsimp only at eq0
  refine Kept.of_next eq0 ?_
  repeat' (first
    | with_reducible assumption
    | ((conv => arg 2; arg 33); with_reducible refine Kept.lit ?_ ?_ ?_) <;> [skip; rfl; exact ⟨rfl, rfl, rfl, rfl, rfl, rfl, rfl⟩]
    | with_reducible apply tick_kept
    | with_reducible apply endPair_kept
    | with_reducible apply Kept.ite
    | dsimp only
    | split)

theorem execMacFlit_kept {z : State} (f : FlitIn) (ok : Bool) (t : Nat) (s : State) (hK : Kept z s) {w0 : State} (eq0 : execMacFlit f ok t s = .next w0) : Kept z w0 := by
  unfold execMacFlit at eq0
  try dsimp only at eq0
  refine Kept.of_next eq0 ?_
  repeat' (first
    | intro _ _ _
    | intro _ _
    | intro _
    | with_reducible assumption
    | ((conv => arg 2; arg 33); with_reducible refine Kept.lit ?_ ?_ ?_) <;> [skip; rfl; exact ⟨rfl, rfl, rfl, rfl, rfl, rfl, rfl⟩]
    | with_reducible apply tick_kept
    | with_reducible apply modSub_kept
    | with_reducible apply ack_kept
    | with_reducible apply takeSeq_kept
    | with_reducible refine takeSeq_kept_eq (by assumption) ?_
    | with_reducible apply authFail_kept
    | with_reducible apply onItem_kept
    | with_reducible apply Kept.ite
    | with_reducible apply Kept.foldl
    | dsimp only
    | split)

theorem execRecord_kept {z : State} (f : FlitIn) (r : RecIn) (t : Nat) (s : State) (hK : Kept z s) {w0 : State} (eq0 : execRecord f r t s = .next w0) : Kept z w0 := by
  unfold execRecord at eq0
  try dsimp only at eq0
  refine Kept.of_next eq0 ?_
  repeat' (first
    | with_reducible assumption
    | with_reducible apply tick_kept
    | with_reducible apply arriveFlit_kept)

theorem execAccept_kept {z : State} (f : FlitIn) (sub through t : Nat) (s : State) (hK : Kept z s) {w0 : State} (eq0 : execAccept f sub through t s = .next w0) : Kept z w0 := by
  unfold execAccept at eq0
  try dsimp only at eq0
  refine Kept.of_next eq0 ?_
  repeat' (first
    | with_reducible assumption
    | with_reducible apply tick_kept
    | with_reducible apply arriveFlit_kept)

theorem execCredit_kept {z : State} (f : FlitIn) (sub n t : Nat) (s : State) (hK : Kept z s) {w0 : State} (eq0 : execCredit f sub n t s = .next w0) : Kept z w0 := by
  unfold execCredit at eq0
  try dsimp only at eq0
  refine Kept.of_next eq0 ?_
  repeat' (first
    | with_reducible assumption
    | with_reducible apply tick_kept
    | with_reducible apply arriveFlit_kept)

theorem execRoom_kept {z : State} (f : FlitIn) (room : Int) (stage adm : Nat) (through : List Nat) (t : Nat) (s : State) (hK : Kept z s) {w0 : State} (eq0 : execRoom f room stage adm through t s = .next w0) : Kept z w0 := by
  unfold execRoom at eq0
  try dsimp only at eq0
  refine Kept.of_next eq0 ?_
  repeat' (first
    | with_reducible assumption
    | with_reducible apply tick_kept
    | with_reducible apply arriveFlit_kept)

theorem execClean_kept {z : State} (f : FlitIn) (gs : List Nat) (t : Nat) (s : State) (hK : Kept z s) {w0 : State} (eq0 : execClean f gs t s = .next w0) : Kept z w0 := by
  unfold execClean at eq0
  try dsimp only at eq0
  refine Kept.of_next eq0 ?_
  repeat' (first
    | with_reducible assumption
    | with_reducible apply tick_kept
    | with_reducible apply arriveFlit_kept)

theorem execEpoch_kept {z : State} (f : FlitIn) (e ns t : Nat) (s : State) (hK : Kept z s) {w0 : State} (eq0 : execEpoch f e ns t s = .next w0) : Kept z w0 := by
  unfold execEpoch at eq0
  try dsimp only at eq0
  refine Kept.of_next eq0 ?_
  repeat' (first
    | with_reducible assumption
    | with_reducible apply tick_kept
    | with_reducible apply arriveFlit_kept)

theorem execCutMark_kept {z : State} (f : FlitIn) (e t : Nat) (s : State) (hK : Kept z s) {w0 : State} (eq0 : execCutMark f e t s = .next w0) : Kept z w0 := by
  unfold execCutMark at eq0
  try dsimp only at eq0
  refine Kept.of_next eq0 ?_
  repeat' (first
    | with_reducible assumption
    | with_reducible apply tick_kept
    | with_reducible apply arriveFlit_kept)

theorem execTally_kept {z : State} (f : FlitIn) (e region tally t : Nat) (s : State) (hK : Kept z s) {w0 : State} (eq0 : execTally f e region tally t s = .next w0) : Kept z w0 := by
  unfold execTally at eq0
  try dsimp only at eq0
  refine Kept.of_next eq0 ?_
  repeat' (first
    | with_reducible assumption
    | with_reducible apply tick_kept
    | with_reducible apply arriveFlit_kept)

theorem execCrcBlock_kept {z : State} (f : FlitIn) (first : Nat) (crcs : List Nat) (t : Nat) (s : State) (hK : Kept z s) {w0 : State} (eq0 : execCrcBlock f first crcs t s = .next w0) : Kept z w0 := by
  unfold execCrcBlock at eq0
  try dsimp only at eq0
  refine Kept.of_next eq0 ?_
  repeat' (first
    | with_reducible assumption
    | with_reducible apply tick_kept
    | with_reducible apply arriveFlit_kept)

theorem execHarvest_kept {z : State} (f : FlitIn) (cause sub through t : Nat) (s : State) (hK : Kept z s) {w0 : State} (eq0 : execHarvest f cause sub through t s = .next w0) : Kept z w0 := by
  unfold execHarvest at eq0
  try dsimp only at eq0
  refine Kept.of_next eq0 ?_
  repeat' (first
    | with_reducible assumption
    | with_reducible apply tick_kept
    | with_reducible apply arriveFlit_kept)

theorem execHarvestDone_kept {z : State} (f : FlitIn) (seq t : Nat) (s : State) (hK : Kept z s) {w0 : State} (eq0 : execHarvestDone f seq t s = .next w0) : Kept z w0 := by
  unfold execHarvestDone at eq0
  try dsimp only at eq0
  refine Kept.of_next eq0 ?_
  repeat' (first
    | with_reducible assumption
    | with_reducible apply tick_kept
    | with_reducible apply arriveFlit_kept)

theorem execRehome_kept {z : State} (f : FlitIn) (sub through t : Nat) (s : State) (hK : Kept z s) {w0 : State} (eq0 : execRehome f sub through t s = .next w0) : Kept z w0 := by
  unfold execRehome at eq0
  try dsimp only at eq0
  refine Kept.of_next eq0 ?_
  repeat' (first
    | with_reducible assumption
    | with_reducible apply tick_kept
    | with_reducible apply arriveFlit_kept)

theorem execRekey_kept {z : State} (f : FlitIn) (id t : Nat) (s : State) (hK : Kept z s) {w0 : State} (eq0 : execRekey f id t s = .next w0) : Kept z w0 := by
  unfold execRekey at eq0
  try dsimp only at eq0
  refine Kept.of_next eq0 ?_
  repeat' (first
    | with_reducible assumption
    | with_reducible apply tick_kept
    | with_reducible apply arriveFlit_kept)

theorem execKeySwitch_kept {z : State} (f : FlitIn) (id t : Nat) (s : State) (hK : Kept z s) {w0 : State} (eq0 : execKeySwitch f id t s = .next w0) : Kept z w0 := by
  unfold execKeySwitch at eq0
  try dsimp only at eq0
  refine Kept.of_next eq0 ?_
  repeat' (first
    | with_reducible assumption
    | with_reducible apply tick_kept
    | with_reducible apply arriveFlit_kept)

theorem execTable_kept {z : State} (f : FlitIn) (m : TableMsg) (t : Nat) (s : State) (hK : Kept z s) {w0 : State} (eq0 : execTable f m t s = .next w0) : Kept z w0 := by
  unfold execTable at eq0
  try dsimp only at eq0
  refine Kept.of_next eq0 ?_
  repeat' (first
    | with_reducible assumption
    | with_reducible apply tick_kept
    | with_reducible apply arriveFlit_kept)

theorem execCommit_kept {z : State} (f : FlitIn) (id phase epoch status t : Nat) (s : State) (hK : Kept z s) {w0 : State} (eq0 : execCommit f id phase epoch status t s = .next w0) : Kept z w0 := by
  unfold execCommit at eq0
  try dsimp only at eq0
  refine Kept.of_next eq0 ?_
  repeat' (first
    | with_reducible assumption
    | with_reducible apply tick_kept
    | with_reducible apply arriveFlit_kept)

theorem execHello_kept {z : State} (f : FlitIn) (m : HelloMsg) (t : Nat) (s : State) (hK : Kept z s) {w0 : State} (eq0 : execHello f m t s = .next w0) : Kept z w0 := by
  unfold execHello at eq0
  try dsimp only at eq0
  refine Kept.of_next eq0 ?_
  repeat' (first
    | with_reducible assumption
    | with_reducible apply tick_kept
    | with_reducible apply takeSeq_kept
    | with_reducible refine takeSeq_kept_eq (by assumption) ?_
    | with_reducible apply onHello_kept
    | with_reducible apply Kept.ite
    | dsimp only
    | split)

theorem execProof_kept {z : State} (f : FlitIn) (mac : List Byte) (t : Nat) (s : State) (hK : Kept z s) {w0 : State} (eq0 : execProof f mac t s = .next w0) : Kept z w0 := by
  unfold execProof at eq0
  try dsimp only at eq0
  refine Kept.of_next eq0 ?_
  repeat' (first
    | with_reducible assumption
    | with_reducible apply tick_kept
    | with_reducible apply takeSeq_kept
    | with_reducible refine takeSeq_kept_eq (by assumption) ?_
    | with_reducible apply onProof_kept
    | with_reducible apply Kept.ite
    | dsimp only
    | split)

theorem execSpdm_kept {z : State} (f : FlitIn) (flags : Nat) (data : List Byte) (t : Nat) (s : State) (hK : Kept z s) {w0 : State} (eq0 : execSpdm f flags data t s = .next w0) : Kept z w0 := by
  unfold execSpdm at eq0
  try dsimp only at eq0
  refine Kept.of_next eq0 ?_
  repeat' (first
    | with_reducible assumption
    | with_reducible apply tick_kept
    | with_reducible apply arriveFlit_kept)

theorem execFlush_kept {z : State} (f : FlitIn) (tag first count t : Nat) (s : State) (hK : Kept z s) {w0 : State} (eq0 : execFlush f tag first count t s = .next w0) : Kept z w0 := by
  unfold execFlush at eq0
  try dsimp only at eq0
  refine Kept.of_next eq0 ?_
  repeat' (first
    | with_reducible assumption
    | with_reducible apply tick_kept
    | with_reducible apply arriveFlit_kept)

theorem execFlushed_kept {z : State} (f : FlitIn) (tag status t : Nat) (s : State) (hK : Kept z s) {w0 : State} (eq0 : execFlushed f tag status t s = .next w0) : Kept z w0 := by
  unfold execFlushed at eq0
  try dsimp only at eq0
  refine Kept.of_next eq0 ?_
  repeat' (first
    | with_reducible assumption
    | with_reducible apply tick_kept
    | with_reducible apply arriveFlit_kept)

theorem execState_kept {z : State} (f : FlitIn) (l : List (Nat × Nat × Nat)) (t : Nat) (s : State) (hK : Kept z s) {w0 : State} (eq0 : execState f l t s = .next w0) : Kept z w0 := by
  unfold execState at eq0
  try dsimp only at eq0
  refine Kept.of_next eq0 ?_
  repeat' (first
    | with_reducible assumption
    | with_reducible apply tick_kept
    | with_reducible apply arriveFlit_kept)

theorem execCompare_kept {z : State} (f : FlitIn) (e first count t : Nat) (s : State) (hK : Kept z s) {w0 : State} (eq0 : execCompare f e first count t s = .next w0) : Kept z w0 := by
  unfold execCompare at eq0
  try dsimp only at eq0
  refine Kept.of_next eq0 ?_
  repeat' (first
    | with_reducible assumption
    | with_reducible apply tick_kept
    | with_reducible apply arriveFlit_kept)

theorem execRoomPeriod_kept {z : State} (t : Nat) (s : State) (hK : Kept z s) {w0 : State} (eq0 : execRoomPeriod t s = .next w0) : Kept z w0 := by
  unfold execRoomPeriod at eq0
  try dsimp only at eq0
  refine Kept.of_next eq0 ?_
  repeat' (first
    | with_reducible assumption
    | with_reducible apply tick_kept
    | with_reducible apply sendRoom_kept
    | with_reducible apply Kept.ite
    | dsimp only
    | split)

end Sys2Proof.Machine
end

