-- ==== Sys2Proof/Laws/KeptRest.lean ====
section
/-! SUPPORT. What the functions of Mailbox, Training, Tines, Weeding, Regs, Commands, Carriers keep (Laws/Kept.lean). -/

namespace Sys2Proof.Machine

open Sys2Proof

set_option linter.unusedTactic false
set_option linter.unreachableTactic false

/-! ### Mailbox -/

theorem setMbox_kept {z : State} (s : State) (m : MboxReq) (x : Mbox) (hK : Kept z s) : Kept z (setMbox s m x) := by
  unfold setMbox
  try dsimp only
  repeat' (first
    | with_reducible assumption
    | ((conv => arg 2; arg 33); with_reducible refine Kept.lit ?_ ?_ ?_) <;> [skip; rfl; exact ⟨rfl, rfl, rfl, rfl, rfl, rfl, rfl⟩])

theorem mboxRun_kept {z : State} (m : MboxReq) (t : Nat) (f : State → State × Nat × List Byte) (s : State) (hE : ∀ x, Kept z x → Kept z (f x).1) (hK : Kept z s) : Kept z (mboxRun m t f s) := by
  unfold mboxRun
  try dsimp only
  repeat' (first
    | with_reducible apply hE
    | intro _ _ _
    | intro _ _
    | intro _
    | with_reducible assumption
    | with_reducible apply emit_kept
    | with_reducible apply tick_kept
    | with_reducible apply Kept.ite
    | dsimp only
    | split)

theorem mbOk_kept {z : State} (s : State) (l : List Byte) (hK : Kept z s) : Kept z (mbOk s l).1 := by
  unfold mbOk
  try dsimp only
  repeat' (first
    | with_reducible assumption)
theorem mbOk_kept_eq {z : State} {s : State} {l : List Byte} {x : State} {r : _} (e : (mbOk s l) = (x, r)) (hK : Kept z s) : Kept z x := by
  have := mbOk_kept s l hK
  rw [e] at this
  exact this

theorem mbErr_kept {z : State} (s : State) (code : Nat) (hK : Kept z s) : Kept z (mbErr s code).1 := by
  unfold mbErr
  try dsimp only
  repeat' (first
    | with_reducible assumption)
theorem mbErr_kept_eq {z : State} {s : State} {code : Nat} {x : State} {r : _} (e : (mbErr s code) = (x, r)) (hK : Kept z s) : Kept z x := by
  have := mbErr_kept s code hK
  rw [e] at this
  exact this

theorem mbFree_kept {z : State} (s : State) (op : Nat) (m : MboxReq) (hK : Kept z s) : Kept z (mbFree s op m).1 := by
  unfold mbFree
  try dsimp only
  repeat' (first
    | with_reducible assumption
    | with_reducible apply drew_kept
    | with_reducible apply mbOk_kept
    | with_reducible refine mbOk_kept_eq (by assumption) ?_)
theorem mbFree_kept_eq {z : State} {s : State} {op : Nat} {m : MboxReq} {x : State} {r : _} (e : (mbFree s op m) = (x, r)) (hK : Kept z s) : Kept z x := by
  have := mbFree_kept s op m hK
  rw [e] at this
  exact this

theorem mbOver_kept {z : State} (s : State) (op n : Nat) (m : MboxReq) (off : Nat) (l : List Byte) (hK : Kept z s) : Kept z (mbOver s op n m off l).1 := by
  unfold mbOver
  try dsimp only
  repeat' (first
    | with_reducible assumption
    | with_reducible apply drew_kept
    | with_reducible apply mbOk_kept
    | with_reducible refine mbOk_kept_eq (by assumption) ?_)
theorem mbOver_kept_eq {z : State} {s : State} {op n : Nat} {m : MboxReq} {off : Nat} {l : List Byte} {x : State} {r : _} (e : (mbOver s op n m off l) = (x, r)) (hK : Kept z s) : Kept z x := by
  have := mbOver_kept s op n m off l hK
  rw [e] at this
  exact this

theorem getEvents_kept {z : State} (m : MboxReq) (s : State) (hK : Kept z s) : Kept z (getEvents m s).1 := by
  unfold getEvents
  try dsimp only
  repeat' (first
    | with_reducible assumption
    | with_reducible apply drew_kept
    | with_reducible apply mbOk_kept
    | with_reducible refine mbOk_kept_eq (by assumption) ?_
    | with_reducible apply mbErr_kept
    | with_reducible refine mbErr_kept_eq (by assumption) ?_
    | with_reducible apply Kept.ite
    | dsimp only
    | split)
theorem getEvents_kept_eq {z : State} {m : MboxReq} {s : State} {x : State} {r : _} (e : (getEvents m s) = (x, r)) (hK : Kept z s) : Kept z x := by
  have := getEvents_kept m s hK
  rw [e] at this
  exact this

theorem clearEvents_kept {z : State} (m : MboxReq) (s : State) (hK : Kept z s) : Kept z (clearEvents m s).1 := by
  unfold clearEvents
  try dsimp only
  repeat' (first
    | intro _ _ _
    | intro _ _
    | intro _
    | with_reducible assumption
    | ((conv => arg 2; arg 33); with_reducible refine Kept.lit ?_ ?_ ?_) <;> [skip; rfl; exact ⟨rfl, rfl, rfl, rfl, rfl, rfl, rfl⟩]
    | with_reducible apply setMbox_kept
    | with_reducible apply mbOk_kept
    | with_reducible refine mbOk_kept_eq (by assumption) ?_
    | with_reducible apply mbErr_kept
    | with_reducible refine mbErr_kept_eq (by assumption) ?_
    | with_reducible apply Kept.ite
    | dsimp only
    | split)
theorem clearEvents_kept_eq {z : State} {m : MboxReq} {s : State} {x : State} {r : _} (e : (clearEvents m s) = (x, r)) (hK : Kept z s) : Kept z x := by
  have := clearEvents_kept m s hK
  rw [e] at this
  exact this

theorem getPoison_kept {z : State} (m : MboxReq) (s : State) (hK : Kept z s) : Kept z (getPoison m s).1 := by
  unfold getPoison
  try dsimp only
  repeat' (first
    | intro _ _ _
    | intro _ _
    | intro _
    | with_reducible assumption
    | with_reducible apply mbOk_kept
    | with_reducible refine mbOk_kept_eq (by assumption) ?_
    | with_reducible apply mbErr_kept
    | with_reducible refine mbErr_kept_eq (by assumption) ?_
    | with_reducible apply Kept.ite
    | dsimp only
    | split)
theorem getPoison_kept_eq {z : State} {m : MboxReq} {s : State} {x : State} {r : _} (e : (getPoison m s) = (x, r)) (hK : Kept z s) : Kept z x := by
  have := getPoison_kept m s hK
  rw [e] at this
  exact this

theorem mboxWrite_kept {z : State} (m : MboxReq) (data : List Byte) (poison : Bool) (s : State) (hK : Kept z s) : Kept z (mboxWrite m data poison s).1 := by
  unfold mboxWrite
  try dsimp only
  repeat' (first
    | with_reducible assumption
    | ((conv => arg 2; arg 33); with_reducible refine Kept.lit ?_ ?_ ?_) <;> [skip; rfl; exact ⟨rfl, rfl, rfl, rfl, rfl, rfl, rfl⟩]
    | with_reducible apply numbered_kept
    | with_reducible apply tryWrite_kept
    | with_reducible apply mbOk_kept
    | with_reducible refine mbOk_kept_eq (by assumption) ?_
    | with_reducible apply mbErr_kept
    | with_reducible refine mbErr_kept_eq (by assumption) ?_
    | dsimp only
    | split)
theorem mboxWrite_kept_eq {z : State} {m : MboxReq} {data : List Byte} {poison : Bool} {s : State} {x : State} {r : _} (e : (mboxWrite m data poison s) = (x, r)) (hK : Kept z s) : Kept z x := by
  have := mboxWrite_kept m data poison s hK
  rw [e] at this
  exact this

theorem getDcConfig_kept {z : State} (m : MboxReq) (s : State) (hK : Kept z s) : Kept z (getDcConfig m s).1 := by
  unfold getDcConfig
  try dsimp only
  repeat' (first
    | with_reducible assumption
    | with_reducible apply drew_kept
    | with_reducible apply mbOk_kept
    | with_reducible refine mbOk_kept_eq (by assumption) ?_
    | with_reducible apply mbErr_kept
    | with_reducible refine mbErr_kept_eq (by assumption) ?_
    | with_reducible apply Kept.ite
    | dsimp only
    | split)
theorem getDcConfig_kept_eq {z : State} {m : MboxReq} {s : State} {x : State} {r : _} (e : (getDcConfig m s) = (x, r)) (hK : Kept z s) : Kept z x := by
  have := getDcConfig_kept m s hK
  rw [e] at this
  exact this

theorem getDcExtents_kept {z : State} (m : MboxReq) (s : State) (hK : Kept z s) : Kept z (getDcExtents m s).1 := by
  unfold getDcExtents
  try dsimp only
  repeat' (first
    | intro _ _ _
    | intro _ _
    | intro _
    | with_reducible assumption
    | with_reducible apply drew_kept
    | with_reducible apply mbOk_kept
    | with_reducible refine mbOk_kept_eq (by assumption) ?_
    | with_reducible apply mbErr_kept
    | with_reducible refine mbErr_kept_eq (by assumption) ?_
    | with_reducible apply Kept.ite
    | dsimp only
    | split)
theorem getDcExtents_kept_eq {z : State} {m : MboxReq} {s : State} {x : State} {r : _} (e : (getDcExtents m s) = (x, r)) (hK : Kept z s) : Kept z x := by
  have := getDcExtents_kept m s hK
  rw [e] at this
  exact this

theorem addDc_kept {z : State} (m : MboxReq) (s : State) (hK : Kept z s) : Kept z (addDc m s).1 := by
  unfold addDc
  try dsimp only
  repeat' (first
    | intro _ _ _
    | intro _ _
    | intro _
    | with_reducible assumption
    | ((conv => arg 2; arg 33); with_reducible refine Kept.lit ?_ ?_ ?_) <;> [skip; rfl; exact ⟨rfl, rfl, rfl, rfl, rfl, rfl, rfl⟩]
    | with_reducible apply modBinding_kept
    | with_reducible apply mbOk_kept
    | with_reducible refine mbOk_kept_eq (by assumption) ?_
    | with_reducible apply mbErr_kept
    | with_reducible refine mbErr_kept_eq (by assumption) ?_
    | with_reducible apply Kept.ite
    | with_reducible apply Kept.foldl
    | dsimp only
    | split)
theorem addDc_kept_eq {z : State} {m : MboxReq} {s : State} {x : State} {r : _} (e : (addDc m s) = (x, r)) (hK : Kept z s) : Kept z x := by
  have := addDc_kept m s hK
  rw [e] at this
  exact this

theorem releaseDc_kept {z : State} (m : MboxReq) (s : State) (hK : Kept z s) : Kept z (releaseDc m s).1 := by
  unfold releaseDc
  try dsimp only
  repeat' (first
    | intro _ _ _
    | intro _ _
    | intro _
    | with_reducible assumption
    | ((conv => arg 2; arg 33); with_reducible refine Kept.lit ?_ ?_ ?_) <;> [skip; rfl; exact ⟨rfl, rfl, rfl, rfl, rfl, rfl, rfl⟩]
    | with_reducible apply modBinding_kept
    | with_reducible apply judgeRelease_kept
    | with_reducible apply mbOk_kept
    | with_reducible refine mbOk_kept_eq (by assumption) ?_
    | with_reducible apply mbErr_kept
    | with_reducible refine mbErr_kept_eq (by assumption) ?_
    | with_reducible apply Kept.ite
    | with_reducible apply Kept.foldl
    | dsimp only
    | split)
theorem releaseDc_kept_eq {z : State} {m : MboxReq} {s : State} {x : State} {r : _} (e : (releaseDc m s) = (x, r)) (hK : Kept z s) : Kept z x := by
  have := releaseDc_kept m s hK
  rw [e] at this
  exact this

theorem fmRun_kept {z : State} (m : MboxReq) (t : Nat) (f : State → State × Nat × List Byte) (s : State) (hE : ∀ x, Kept z x → Kept z (f x).1) (hK : Kept z s) : Kept z (fmRun m t f s) := by
  unfold fmRun
  try dsimp only
  repeat' (first
    | with_reducible apply hE
    | intro _ _ _
    | intro _ _
    | intro _
    | with_reducible assumption
    | with_reducible apply mboxRun_kept
    | with_reducible apply mbErr_kept
    | with_reducible refine mbErr_kept_eq (by assumption) ?_
    | with_reducible apply Kept.ite
    | dsimp only
    | split)

theorem ldGet_kept {z : State} (s : State) (m : MboxReq) (l : List Byte) (hK : Kept z s) : Kept z (ldGet s m l).1 := by
  unfold ldGet
  try dsimp only
  repeat' (first
    | with_reducible assumption
    | with_reducible apply mbOk_kept
    | with_reducible refine mbOk_kept_eq (by assumption) ?_
    | with_reducible apply mbErr_kept
    | with_reducible refine mbErr_kept_eq (by assumption) ?_
    | with_reducible apply Kept.ite
    | dsimp only
    | split)
theorem ldGet_kept_eq {z : State} {s : State} {m : MboxReq} {l : List Byte} {x : State} {r : _} (e : (ldGet s m l) = (x, r)) (hK : Kept z s) : Kept z x := by
  have := ldGet_kept s m l hK
  rw [e] at this
  exact this

theorem mctpRun_kept {z : State} (h : MctpHead) (cmd t : Nat) (f : State → State × Nat × List Byte) (s : State) (hE : ∀ x, Kept z x → Kept z (f x).1) (hK : Kept z s) : Kept z (mctpRun h cmd t f s) := by
  unfold mctpRun
  try dsimp only
  repeat' (first
    | with_reducible apply hE
    | intro _ _ _
    | intro _ _
    | intro _
    | with_reducible assumption
    | with_reducible apply emit_kept
    | with_reducible apply tick_kept
    | with_reducible apply Kept.ite
    | dsimp only
    | split)

theorem spdmRun_kept {z : State} (n code t : Nat) (data : List Byte) (ok : SpdmState → Bool) (f : SpdmState → SpdmState) (body : State → List Byte → List Byte) (s : State) (hK : Kept z s) : Kept z (spdmRun n code t data ok f body s) := by
  unfold spdmRun
  try dsimp only
  repeat' (first
    | intro _ _ _
    | intro _ _
    | intro _
    | with_reducible assumption
    | ((conv => arg 2; arg 33); with_reducible refine Kept.lit ?_ ?_ ?_) <;> [skip; rfl; exact ⟨rfl, rfl, rfl, rfl, rfl, rfl, rfl⟩]
    | with_reducible apply emit_kept
    | with_reducible apply tick_kept
    | with_reducible apply drew_kept
    | with_reducible apply setPort_kept
    | with_reducible apply Kept.ite
    | dsimp only
    | split)

theorem execMailboxIdentify_kept {z : State} (m : MboxReq) (t : Nat) (s : State) (hK : Kept z s) {w0 : State} (eq0 : execMailboxIdentify m t s = .next w0) : Kept z w0 := by
  unfold execMailboxIdentify at eq0
  try dsimp only at eq0
  refine Kept.of_next eq0 ?_
  repeat' (first
    | intro _ _ _
    | intro _ _
    | intro _
    | with_reducible assumption
    | with_reducible apply mboxRun_kept
    | with_reducible apply mbFree_kept
    | with_reducible refine mbFree_kept_eq (by assumption) ?_)

theorem execBackgroundOperationStatus_kept {z : State} (m : MboxReq) (t : Nat) (s : State) (hK : Kept z s) {w0 : State} (eq0 : execBackgroundOperationStatus m t s = .next w0) : Kept z w0 := by
  unfold execBackgroundOperationStatus at eq0
  try dsimp only at eq0
  refine Kept.of_next eq0 ?_
  repeat' (first
    | intro _ _ _
    | intro _ _
    | intro _
    | with_reducible assumption
    | with_reducible apply mboxRun_kept
    | with_reducible apply mbFree_kept
    | with_reducible refine mbFree_kept_eq (by assumption) ?_)

theorem execGetEventRecords_kept {z : State} (m : MboxReq) (t : Nat) (s : State) (hK : Kept z s) {w0 : State} (eq0 : execGetEventRecords m t s = .next w0) : Kept z w0 := by
  unfold execGetEventRecords at eq0
  try dsimp only at eq0
  refine Kept.of_next eq0 ?_
  repeat' (first
    | with_reducible assumption
    | with_reducible apply mboxRun_kept
    | with_reducible apply getEvents_kept
    | with_reducible refine getEvents_kept_eq (by assumption) ?_)

theorem execClearEventRecords_kept {z : State} (m : MboxReq) (t : Nat) (s : State) (hK : Kept z s) {w0 : State} (eq0 : execClearEventRecords m t s = .next w0) : Kept z w0 := by
  unfold execClearEventRecords at eq0
  try dsimp only at eq0
  refine Kept.of_next eq0 ?_
  repeat' (first
    | with_reducible assumption
    | with_reducible apply mboxRun_kept
    | with_reducible apply clearEvents_kept
    | with_reducible refine clearEvents_kept_eq (by assumption) ?_)

theorem execGetEventInterruptPolicy_kept {z : State} (m : MboxReq) (t : Nat) (s : State) (hK : Kept z s) {w0 : State} (eq0 : execGetEventInterruptPolicy m t s = .next w0) : Kept z w0 := by
  unfold execGetEventInterruptPolicy at eq0
  try dsimp only at eq0
  refine Kept.of_next eq0 ?_
  repeat' (first
    | intro _ _ _
    | intro _ _
    | intro _
    | with_reducible assumption
    | with_reducible apply mboxRun_kept
    | with_reducible apply mbOk_kept
    | with_reducible refine mbOk_kept_eq (by assumption) ?_)

theorem execSetEventInterruptPolicy_kept {z : State} (m : MboxReq) (t : Nat) (s : State) (hK : Kept z s) {w0 : State} (eq0 : execSetEventInterruptPolicy m t s = .next w0) : Kept z w0 := by
  unfold execSetEventInterruptPolicy at eq0
  try dsimp only at eq0
  refine Kept.of_next eq0 ?_
  repeat' (first
    | intro _ _ _
    | intro _ _
    | intro _
    | with_reducible assumption
    | ((conv => arg 2; arg 33); with_reducible refine Kept.lit ?_ ?_ ?_) <;> [skip; rfl; exact ⟨rfl, rfl, rfl, rfl, rfl, rfl, rfl⟩]
    | with_reducible apply setMbox_kept
    | with_reducible apply mboxRun_kept
    | with_reducible apply mbOk_kept
    | with_reducible refine mbOk_kept_eq (by assumption) ?_
    | with_reducible apply mbErr_kept
    | with_reducible refine mbErr_kept_eq (by assumption) ?_
    | with_reducible apply Kept.ite
    | dsimp only
    | split)

theorem execGetTimestamp_kept {z : State} (m : MboxReq) (t : Nat) (s : State) (hK : Kept z s) {w0 : State} (eq0 : execGetTimestamp m t s = .next w0) : Kept z w0 := by
  unfold execGetTimestamp at eq0
  try dsimp only at eq0
  refine Kept.of_next eq0 ?_
  repeat' (first
    | intro _ _ _
    | intro _ _
    | intro _
    | with_reducible assumption
    | with_reducible apply mboxRun_kept
    | with_reducible apply mbOk_kept
    | with_reducible refine mbOk_kept_eq (by assumption) ?_)

theorem execSetTimestamp_kept {z : State} (m : MboxReq) (t : Nat) (s : State) (hK : Kept z s) {w0 : State} (eq0 : execSetTimestamp m t s = .next w0) : Kept z w0 := by
  unfold execSetTimestamp at eq0
  try dsimp only at eq0
  refine Kept.of_next eq0 ?_
  repeat' (first
    | intro _ _ _
    | intro _ _
    | intro _
    | with_reducible assumption
    | ((conv => arg 2; arg 33); with_reducible refine Kept.lit ?_ ?_ ?_) <;> [skip; rfl; exact ⟨rfl, rfl, rfl, rfl, rfl, rfl, rfl⟩]
    | with_reducible apply setMbox_kept
    | with_reducible apply mboxRun_kept
    | with_reducible apply mbOk_kept
    | with_reducible refine mbOk_kept_eq (by assumption) ?_
    | with_reducible apply mbErr_kept
    | with_reducible refine mbErr_kept_eq (by assumption) ?_
    | with_reducible apply Kept.ite
    | dsimp only
    | split)

theorem execGetSupportedLogs_kept {z : State} (m : MboxReq) (t : Nat) (s : State) (hK : Kept z s) {w0 : State} (eq0 : execGetSupportedLogs m t s = .next w0) : Kept z w0 := by
  unfold execGetSupportedLogs at eq0
  try dsimp only at eq0
  refine Kept.of_next eq0 ?_
  repeat' (first
    | intro _ _ _
    | intro _ _
    | intro _
    | with_reducible assumption
    | with_reducible apply mboxRun_kept
    | with_reducible apply mbFree_kept
    | with_reducible refine mbFree_kept_eq (by assumption) ?_)

theorem execGetLog_kept {z : State} (m : MboxReq) (t : Nat) (s : State) (hK : Kept z s) {w0 : State} (eq0 : execGetLog m t s = .next w0) : Kept z w0 := by
  unfold execGetLog at eq0
  try dsimp only at eq0
  refine Kept.of_next eq0 ?_
  repeat' (first
    | intro _ _ _
    | intro _ _
    | intro _
    | with_reducible assumption
    | with_reducible apply mboxRun_kept
    | with_reducible apply mbFree_kept
    | with_reducible refine mbFree_kept_eq (by assumption) ?_)

theorem execIdentifyMemoryDevice_kept {z : State} (m : MboxReq) (t : Nat) (s : State) (hK : Kept z s) {w0 : State} (eq0 : execIdentifyMemoryDevice m t s = .next w0) : Kept z w0 := by
  unfold execIdentifyMemoryDevice at eq0
  try dsimp only at eq0
  refine Kept.of_next eq0 ?_
  repeat' (first
    | intro _ _ _
    | intro _ _
    | intro _
    | with_reducible assumption
    | with_reducible apply mboxRun_kept
    | with_reducible apply mbFree_kept
    | with_reducible refine mbFree_kept_eq (by assumption) ?_)

theorem execGetHealthInfo_kept {z : State} (m : MboxReq) (t : Nat) (s : State) (hK : Kept z s) {w0 : State} (eq0 : execGetHealthInfo m t s = .next w0) : Kept z w0 := by
  unfold execGetHealthInfo at eq0
  try dsimp only at eq0
  refine Kept.of_next eq0 ?_
  repeat' (first
    | intro _ _ _
    | intro _ _
    | intro _
    | with_reducible assumption
    | with_reducible apply mboxRun_kept
    | with_reducible apply mbOver_kept
    | with_reducible refine mbOver_kept_eq (by assumption) ?_)

theorem execGetAlertConfiguration_kept {z : State} (m : MboxReq) (t : Nat) (s : State) (hK : Kept z s) {w0 : State} (eq0 : execGetAlertConfiguration m t s = .next w0) : Kept z w0 := by
  unfold execGetAlertConfiguration at eq0
  try dsimp only at eq0
  refine Kept.of_next eq0 ?_
  repeat' (first
    | intro _ _ _
    | intro _ _
    | intro _
    | with_reducible assumption
    | with_reducible apply mboxRun_kept
    | with_reducible apply mbOver_kept
    | with_reducible refine mbOver_kept_eq (by assumption) ?_)

theorem execSetAlertConfiguration_kept {z : State} (m : MboxReq) (t : Nat) (s : State) (hK : Kept z s) {w0 : State} (eq0 : execSetAlertConfiguration m t s = .next w0) : Kept z w0 := by
  unfold execSetAlertConfiguration at eq0
  try dsimp only at eq0
  refine Kept.of_next eq0 ?_
  repeat' (first
    | intro _ _ _
    | intro _ _
    | intro _
    | with_reducible assumption
    | ((conv => arg 2; arg 33); with_reducible refine Kept.lit ?_ ?_ ?_) <;> [skip; rfl; exact ⟨rfl, rfl, rfl, rfl, rfl, rfl, rfl⟩]
    | with_reducible apply setMbox_kept
    | with_reducible apply mboxRun_kept
    | with_reducible apply mbOk_kept
    | with_reducible refine mbOk_kept_eq (by assumption) ?_
    | with_reducible apply mbErr_kept
    | with_reducible refine mbErr_kept_eq (by assumption) ?_
    | with_reducible apply Kept.ite
    | dsimp only
    | split)

theorem execGetShutdownState_kept {z : State} (m : MboxReq) (t : Nat) (s : State) (hK : Kept z s) {w0 : State} (eq0 : execGetShutdownState m t s = .next w0) : Kept z w0 := by
  unfold execGetShutdownState at eq0
  try dsimp only at eq0
  refine Kept.of_next eq0 ?_
  repeat' (first
    | intro _ _ _
    | intro _ _
    | intro _
    | with_reducible assumption
    | with_reducible apply mboxRun_kept
    | with_reducible apply mbOk_kept
    | with_reducible refine mbOk_kept_eq (by assumption) ?_)

theorem execSetShutdownState_kept {z : State} (m : MboxReq) (t : Nat) (s : State) (hK : Kept z s) {w0 : State} (eq0 : execSetShutdownState m t s = .next w0) : Kept z w0 := by
  unfold execSetShutdownState at eq0
  try dsimp only at eq0
  refine Kept.of_next eq0 ?_
  repeat' (first
    | intro _ _ _
    | intro _ _
    | intro _
    | with_reducible assumption
    | ((conv => arg 2; arg 33); with_reducible refine Kept.lit ?_ ?_ ?_) <;> [skip; rfl; exact ⟨rfl, rfl, rfl, rfl, rfl, rfl, rfl⟩]
    | with_reducible apply setMbox_kept
    | with_reducible apply mboxRun_kept
    | with_reducible apply mbOk_kept
    | with_reducible refine mbOk_kept_eq (by assumption) ?_
    | with_reducible apply mbErr_kept
    | with_reducible refine mbErr_kept_eq (by assumption) ?_
    | with_reducible apply Kept.ite
    | dsimp only
    | split)

theorem execGetPoisonList_kept {z : State} (m : MboxReq) (t : Nat) (s : State) (hK : Kept z s) {w0 : State} (eq0 : execGetPoisonList m t s = .next w0) : Kept z w0 := by
  unfold execGetPoisonList at eq0
  try dsimp only at eq0
  refine Kept.of_next eq0 ?_
  repeat' (first
    | with_reducible assumption
    | with_reducible apply mboxRun_kept
    | with_reducible apply getPoison_kept
    | with_reducible refine getPoison_kept_eq (by assumption) ?_)

theorem execInjectPoison_kept {z : State} (m : MboxReq) (t : Nat) (s : State) (hK : Kept z s) {w0 : State} (eq0 : execInjectPoison m t s = .next w0) : Kept z w0 := by
  unfold execInjectPoison at eq0
  try dsimp only at eq0
  refine Kept.of_next eq0 ?_
  repeat' (first
    | intro _ _ _
    | intro _ _
    | intro _
    | with_reducible assumption
    | with_reducible apply mboxRun_kept
    | with_reducible apply mbErr_kept
    | with_reducible refine mbErr_kept_eq (by assumption) ?_
    | with_reducible apply mboxWrite_kept
    | with_reducible refine mboxWrite_kept_eq (by assumption) ?_
    | with_reducible apply Kept.ite
    | dsimp only
    | split)

theorem execClearPoison_kept {z : State} (m : MboxReq) (t : Nat) (s : State) (hK : Kept z s) {w0 : State} (eq0 : execClearPoison m t s = .next w0) : Kept z w0 := by
  unfold execClearPoison at eq0
  try dsimp only at eq0
  refine Kept.of_next eq0 ?_
  repeat' (first
    | intro _ _ _
    | intro _ _
    | intro _
    | with_reducible assumption
    | with_reducible apply mboxRun_kept
    | with_reducible apply mbErr_kept
    | with_reducible refine mbErr_kept_eq (by assumption) ?_
    | with_reducible apply mboxWrite_kept
    | with_reducible refine mboxWrite_kept_eq (by assumption) ?_
    | with_reducible apply Kept.ite
    | dsimp only
    | split)

theorem execGetDynamicCapacityConfiguration_kept {z : State} (m : MboxReq) (t : Nat) (s : State) (hK : Kept z s) {w0 : State} (eq0 : execGetDynamicCapacityConfiguration m t s = .next w0) : Kept z w0 := by
  unfold execGetDynamicCapacityConfiguration at eq0
  try dsimp only at eq0
  refine Kept.of_next eq0 ?_
  repeat' (first
    | with_reducible assumption
    | with_reducible apply mboxRun_kept
    | with_reducible apply getDcConfig_kept
    | with_reducible refine getDcConfig_kept_eq (by assumption) ?_)

theorem execGetDynamicCapacityExtentList_kept {z : State} (m : MboxReq) (t : Nat) (s : State) (hK : Kept z s) {w0 : State} (eq0 : execGetDynamicCapacityExtentList m t s = .next w0) : Kept z w0 := by
  unfold execGetDynamicCapacityExtentList at eq0
  try dsimp only at eq0
  refine Kept.of_next eq0 ?_
  repeat' (first
    | with_reducible assumption
    | with_reducible apply mboxRun_kept
    | with_reducible apply getDcExtents_kept
    | with_reducible refine getDcExtents_kept_eq (by assumption) ?_)

theorem execAddDynamicCapacityResponse_kept {z : State} (m : MboxReq) (t : Nat) (s : State) (hK : Kept z s) {w0 : State} (eq0 : execAddDynamicCapacityResponse m t s = .next w0) : Kept z w0 := by
  unfold execAddDynamicCapacityResponse at eq0
  try dsimp only at eq0
  refine Kept.of_next eq0 ?_
  repeat' (first
    | with_reducible assumption
    | with_reducible apply mboxRun_kept
    | with_reducible apply addDc_kept
    | with_reducible refine addDc_kept_eq (by assumption) ?_)

theorem execReleaseDynamicCapacity_kept {z : State} (m : MboxReq) (t : Nat) (s : State) (hK : Kept z s) {w0 : State} (eq0 : execReleaseDynamicCapacity m t s = .next w0) : Kept z w0 := by
  unfold execReleaseDynamicCapacity at eq0
  try dsimp only at eq0
  refine Kept.of_next eq0 ?_
  repeat' (first
    | with_reducible assumption
    | with_reducible apply mboxRun_kept
    | with_reducible apply releaseDc_kept
    | with_reducible refine releaseDc_kept_eq (by assumption) ?_)

theorem execGetLdInfo_kept {z : State} (m : MboxReq) (t : Nat) (s : State) (hK : Kept z s) {w0 : State} (eq0 : execGetLdInfo m t s = .next w0) : Kept z w0 := by
  unfold execGetLdInfo at eq0
  try dsimp only at eq0
  refine Kept.of_next eq0 ?_
  repeat' (first
    | intro _ _ _
    | intro _ _
    | intro _
    | with_reducible assumption
    | with_reducible apply mbOver_kept
    | with_reducible refine mbOver_kept_eq (by assumption) ?_
    | with_reducible apply fmRun_kept)

theorem execGetLdAllocations_kept {z : State} (m : MboxReq) (t : Nat) (s : State) (hK : Kept z s) {w0 : State} (eq0 : execGetLdAllocations m t s = .next w0) : Kept z w0 := by
  unfold execGetLdAllocations at eq0
  try dsimp only at eq0
  refine Kept.of_next eq0 ?_
  repeat' (first
    | intro _ _ _
    | intro _ _
    | intro _
    | with_reducible assumption
    | with_reducible apply mbOk_kept
    | with_reducible refine mbOk_kept_eq (by assumption) ?_
    | with_reducible apply mbErr_kept
    | with_reducible refine mbErr_kept_eq (by assumption) ?_
    | with_reducible apply fmRun_kept
    | with_reducible apply Kept.ite
    | dsimp only
    | split)

theorem execSetLdAllocations_kept {z : State} (m : MboxReq) (t : Nat) (s : State) (hK : Kept z s) {w0 : State} (eq0 : execSetLdAllocations m t s = .next w0) : Kept z w0 := by
  unfold execSetLdAllocations at eq0
  try dsimp only at eq0
  refine Kept.of_next eq0 ?_
  repeat' (first
    | intro _ _ _
    | intro _ _
    | intro _
    | with_reducible assumption
    | with_reducible apply mbOk_kept
    | with_reducible refine mbOk_kept_eq (by assumption) ?_
    | with_reducible apply mbErr_kept
    | with_reducible refine mbErr_kept_eq (by assumption) ?_
    | with_reducible apply fmRun_kept
    | with_reducible apply Kept.ite
    | dsimp only
    | split)

theorem execGetQosControl_kept {z : State} (m : MboxReq) (t : Nat) (s : State) (hK : Kept z s) {w0 : State} (eq0 : execGetQosControl m t s = .next w0) : Kept z w0 := by
  unfold execGetQosControl at eq0
  try dsimp only at eq0
  refine Kept.of_next eq0 ?_
  repeat' (first
    | intro _ _ _
    | intro _ _
    | intro _
    | with_reducible assumption
    | with_reducible apply mbOk_kept
    | with_reducible refine mbOk_kept_eq (by assumption) ?_
    | with_reducible apply fmRun_kept)

theorem execSetQosControl_kept {z : State} (m : MboxReq) (t : Nat) (s : State) (hK : Kept z s) {w0 : State} (eq0 : execSetQosControl m t s = .next w0) : Kept z w0 := by
  unfold execSetQosControl at eq0
  try dsimp only at eq0
  refine Kept.of_next eq0 ?_
  repeat' (first
    | intro _ _ _
    | intro _ _
    | intro _
    | with_reducible assumption
    | ((conv => arg 2; arg 33); with_reducible refine Kept.lit ?_ ?_ ?_) <;> [skip; rfl; exact ⟨rfl, rfl, rfl, rfl, rfl, rfl, rfl⟩]
    | with_reducible apply setPort_kept
    | with_reducible apply mbOk_kept
    | with_reducible refine mbOk_kept_eq (by assumption) ?_
    | with_reducible apply mbErr_kept
    | with_reducible refine mbErr_kept_eq (by assumption) ?_
    | with_reducible apply fmRun_kept
    | with_reducible apply Kept.ite
    | dsimp only
    | split)

theorem execGetQosStatus_kept {z : State} (m : MboxReq) (t : Nat) (s : State) (hK : Kept z s) {w0 : State} (eq0 : execGetQosStatus m t s = .next w0) : Kept z w0 := by
  unfold execGetQosStatus at eq0
  try dsimp only at eq0
  refine Kept.of_next eq0 ?_
  repeat' (first
    | intro _ _ _
    | intro _ _
    | intro _
    | with_reducible assumption
    | with_reducible apply mbFree_kept
    | with_reducible refine mbFree_kept_eq (by assumption) ?_
    | with_reducible apply fmRun_kept)

theorem execGetQosAllocatedBandwidth_kept {z : State} (m : MboxReq) (t : Nat) (s : State) (hK : Kept z s) {w0 : State} (eq0 : execGetQosAllocatedBandwidth m t s = .next w0) : Kept z w0 := by
  unfold execGetQosAllocatedBandwidth at eq0
  try dsimp only at eq0
  refine Kept.of_next eq0 ?_
  repeat' (first
    | intro _ _ _
    | intro _ _
    | intro _
    | with_reducible assumption
    | with_reducible apply fmRun_kept
    | with_reducible apply ldGet_kept
    | with_reducible refine ldGet_kept_eq (by assumption) ?_)

theorem execSetQosAllocatedBandwidth_kept {z : State} (m : MboxReq) (t : Nat) (s : State) (hK : Kept z s) {w0 : State} (eq0 : execSetQosAllocatedBandwidth m t s = .next w0) : Kept z w0 := by
  unfold execSetQosAllocatedBandwidth at eq0
  try dsimp only at eq0
  refine Kept.of_next eq0 ?_
  repeat' (first
    | intro _ _ _
    | intro _ _
    | intro _
    | with_reducible assumption
    | ((conv => arg 2; arg 33); with_reducible refine Kept.lit ?_ ?_ ?_) <;> [skip; rfl; exact ⟨rfl, rfl, rfl, rfl, rfl, rfl, rfl⟩]
    | with_reducible apply setPort_kept
    | with_reducible apply mbOk_kept
    | with_reducible refine mbOk_kept_eq (by assumption) ?_
    | with_reducible apply mbErr_kept
    | with_reducible refine mbErr_kept_eq (by assumption) ?_
    | with_reducible apply fmRun_kept
    | dsimp only
    | split)

theorem execGetQosBandwidthLimit_kept {z : State} (m : MboxReq) (t : Nat) (s : State) (hK : Kept z s) {w0 : State} (eq0 : execGetQosBandwidthLimit m t s = .next w0) : Kept z w0 := by
  unfold execGetQosBandwidthLimit at eq0
  try dsimp only at eq0
  refine Kept.of_next eq0 ?_
  repeat' (first
    | intro _ _ _
    | intro _ _
    | intro _
    | with_reducible assumption
    | with_reducible apply fmRun_kept
    | with_reducible apply ldGet_kept
    | with_reducible refine ldGet_kept_eq (by assumption) ?_)

theorem execSetQosBandwidthLimit_kept {z : State} (m : MboxReq) (t : Nat) (s : State) (hK : Kept z s) {w0 : State} (eq0 : execSetQosBandwidthLimit m t s = .next w0) : Kept z w0 := by
  unfold execSetQosBandwidthLimit at eq0
  try dsimp only at eq0
  refine Kept.of_next eq0 ?_
  repeat' (first
    | intro _ _ _
    | intro _ _
    | intro _
    | with_reducible assumption
    | ((conv => arg 2; arg 33); with_reducible refine Kept.lit ?_ ?_ ?_) <;> [skip; rfl; exact ⟨rfl, rfl, rfl, rfl, rfl, rfl, rfl⟩]
    | with_reducible apply setPort_kept
    | with_reducible apply mbOk_kept
    | with_reducible refine mbOk_kept_eq (by assumption) ?_
    | with_reducible apply mbErr_kept
    | with_reducible refine mbErr_kept_eq (by assumption) ?_
    | with_reducible apply fmRun_kept
    | dsimp only
    | split)

theorem execSetEndpointId_kept {z : State} (h : MctpHead) (eid t : Nat) (s : State) (hK : Kept z s) {w0 : State} (eq0 : execSetEndpointId h eid t s = .next w0) : Kept z w0 := by
  unfold execSetEndpointId at eq0
  try dsimp only at eq0
  refine Kept.of_next eq0 ?_
  repeat' (first
    | intro _ _ _
    | intro _ _
    | intro _
    | with_reducible assumption
    | ((conv => arg 2; arg 33); with_reducible refine Kept.lit ?_ ?_ ?_) <;> [skip; rfl; exact ⟨rfl, rfl, rfl, rfl, rfl, rfl, rfl⟩]
    | with_reducible apply mctpRun_kept
    | with_reducible apply Kept.ite
    | dsimp only
    | split)

theorem execGetEndpointId_kept {z : State} (h : MctpHead) (t : Nat) (s : State) (hK : Kept z s) {w0 : State} (eq0 : execGetEndpointId h t s = .next w0) : Kept z w0 := by
  unfold execGetEndpointId at eq0
  try dsimp only at eq0
  refine Kept.of_next eq0 ?_
  repeat' (first
    | intro _ _ _
    | intro _ _
    | intro _
    | with_reducible assumption
    | with_reducible apply mctpRun_kept)

theorem execGetMctpVersionSupport_kept {z : State} (h : MctpHead) (typ t : Nat) (s : State) (hK : Kept z s) {w0 : State} (eq0 : execGetMctpVersionSupport h typ t s = .next w0) : Kept z w0 := by
  unfold execGetMctpVersionSupport at eq0
  try dsimp only at eq0
  refine Kept.of_next eq0 ?_
  repeat' (first
    | intro _ _ _
    | intro _ _
    | intro _
    | with_reducible assumption
    | with_reducible apply mctpRun_kept
    | with_reducible apply Kept.ite
    | dsimp only
    | split)

theorem execGetMessageTypeSupport_kept {z : State} (h : MctpHead) (t : Nat) (s : State) (hK : Kept z s) {w0 : State} (eq0 : execGetMessageTypeSupport h t s = .next w0) : Kept z w0 := by
  unfold execGetMessageTypeSupport at eq0
  try dsimp only at eq0
  refine Kept.of_next eq0 ?_
  repeat' (first
    | intro _ _ _
    | intro _ _
    | intro _
    | with_reducible assumption
    | with_reducible apply mctpRun_kept)

theorem execGetVersion_kept {z : State} (n : Nat) (data : List Byte) (t : Nat) (s : State) (hK : Kept z s) {w0 : State} (eq0 : execGetVersion n data t s = .next w0) : Kept z w0 := by
  unfold execGetVersion at eq0
  try dsimp only at eq0
  refine Kept.of_next eq0 ?_
  repeat' (first
    | intro _ _ _
    | intro _ _
    | intro _
    | with_reducible assumption
    | with_reducible apply spdmRun_kept)

theorem execGetCapabilities_kept {z : State} (n : Nat) (data : List Byte) (t : Nat) (s : State) (hK : Kept z s) {w0 : State} (eq0 : execGetCapabilities n data t s = .next w0) : Kept z w0 := by
  unfold execGetCapabilities at eq0
  try dsimp only at eq0
  refine Kept.of_next eq0 ?_
  repeat' (first
    | intro _ _ _
    | intro _ _
    | intro _
    | with_reducible assumption
    | ((conv => arg 2; arg 33); with_reducible refine Kept.lit ?_ ?_ ?_) <;> [skip; rfl; exact ⟨rfl, rfl, rfl, rfl, rfl, rfl, rfl⟩]
    | with_reducible apply spdmRun_kept)

theorem execNegotiateAlgorithms_kept {z : State} (n : Nat) (data : List Byte) (t : Nat) (s : State) (hK : Kept z s) {w0 : State} (eq0 : execNegotiateAlgorithms n data t s = .next w0) : Kept z w0 := by
  unfold execNegotiateAlgorithms at eq0
  try dsimp only at eq0
  refine Kept.of_next eq0 ?_
  repeat' (first
    | intro _ _ _
    | intro _ _
    | intro _
    | with_reducible assumption
    | ((conv => arg 2; arg 33); with_reducible refine Kept.lit ?_ ?_ ?_) <;> [skip; rfl; exact ⟨rfl, rfl, rfl, rfl, rfl, rfl, rfl⟩]
    | with_reducible apply spdmRun_kept)

theorem execGetDigests_kept {z : State} (n : Nat) (data : List Byte) (t : Nat) (s : State) (hK : Kept z s) {w0 : State} (eq0 : execGetDigests n data t s = .next w0) : Kept z w0 := by
  unfold execGetDigests at eq0
  try dsimp only at eq0
  refine Kept.of_next eq0 ?_
  repeat' (first
    | intro _ _ _
    | intro _ _
    | intro _
    | with_reducible assumption
    | with_reducible apply spdmRun_kept)

theorem execGetCertificate_kept {z : State} (n : Nat) (data : List Byte) (t : Nat) (s : State) (hK : Kept z s) {w0 : State} (eq0 : execGetCertificate n data t s = .next w0) : Kept z w0 := by
  unfold execGetCertificate at eq0
  try dsimp only at eq0
  refine Kept.of_next eq0 ?_
  repeat' (first
    | intro _ _ _
    | intro _ _
    | intro _
    | with_reducible assumption
    | with_reducible apply spdmRun_kept)

theorem execChallenge_kept {z : State} (n : Nat) (data : List Byte) (t : Nat) (s : State) (hK : Kept z s) {w0 : State} (eq0 : execChallenge n data t s = .next w0) : Kept z w0 := by
  unfold execChallenge at eq0
  try dsimp only at eq0
  refine Kept.of_next eq0 ?_
  repeat' (first
    | intro _ _ _
    | intro _ _
    | intro _
    | with_reducible assumption
    | with_reducible apply spdmRun_kept)

theorem execGetMeasurements_kept {z : State} (n : Nat) (data : List Byte) (t : Nat) (s : State) (hK : Kept z s) {w0 : State} (eq0 : execGetMeasurements n data t s = .next w0) : Kept z w0 := by
  unfold execGetMeasurements at eq0
  try dsimp only at eq0
  refine Kept.of_next eq0 ?_
  repeat' (first
    | intro _ _ _
    | intro _ _
    | intro _
    | with_reducible assumption
    | with_reducible apply spdmRun_kept)

theorem execKeyExchange_kept {z : State} (n : Nat) (data : List Byte) (t : Nat) (s : State) (hK : Kept z s) {w0 : State} (eq0 : execKeyExchange n data t s = .next w0) : Kept z w0 := by
  unfold execKeyExchange at eq0
  try dsimp only at eq0
  refine Kept.of_next eq0 ?_
  repeat' (first
    | intro _ _ _
    | intro _ _
    | intro _
    | with_reducible assumption
    | ((conv => arg 2; arg 33); with_reducible refine Kept.lit ?_ ?_ ?_) <;> [skip; rfl; exact ⟨rfl, rfl, rfl, rfl, rfl, rfl, rfl⟩]
    | with_reducible apply spdmRun_kept)

theorem execFinish_kept {z : State} (n : Nat) (data : List Byte) (ok : Bool) (t : Nat) (s : State) (hK : Kept z s) {w0 : State} (eq0 : execFinish n data ok t s = .next w0) : Kept z w0 := by
  unfold execFinish at eq0
  try dsimp only at eq0
  refine Kept.of_next eq0 ?_
  repeat' (first
    | intro _ _ _
    | intro _ _
    | intro _
    | with_reducible assumption
    | ((conv => arg 2; arg 33); with_reducible refine Kept.lit ?_ ?_ ?_) <;> [skip; rfl; exact ⟨rfl, rfl, rfl, rfl, rfl, rfl, rfl⟩]
    | with_reducible apply spdmRun_kept)

theorem execEndSession_kept {z : State} (n : Nat) (data : List Byte) (t : Nat) (s : State) (hK : Kept z s) {w0 : State} (eq0 : execEndSession n data t s = .next w0) : Kept z w0 := by
  unfold execEndSession at eq0
  try dsimp only at eq0
  refine Kept.of_next eq0 ?_
  repeat' (first
    | intro _ _ _
    | intro _ _
    | intro _
    | with_reducible assumption
    | ((conv => arg 2; arg 33); with_reducible refine Kept.lit ?_ ?_ ?_) <;> [skip; rfl; exact ⟨rfl, rfl, rfl, rfl, rfl, rfl, rfl⟩]
    | with_reducible apply spdmRun_kept)

theorem execKeyUpdate_kept {z : State} (n : Nat) (data : List Byte) (t : Nat) (s : State) (hK : Kept z s) {w0 : State} (eq0 : execKeyUpdate n data t s = .next w0) : Kept z w0 := by
  unfold execKeyUpdate at eq0
  try dsimp only at eq0
  refine Kept.of_next eq0 ?_
  repeat' (first
    | intro _ _ _
    | intro _ _
    | intro _
    | with_reducible assumption
    | ((conv => arg 2; arg 33); with_reducible refine Kept.lit ?_ ?_ ?_) <;> [skip; rfl; exact ⟨rfl, rfl, rfl, rfl, rfl, rfl, rfl⟩]
    | with_reducible apply spdmRun_kept)

theorem execIdeKm_kept {z : State} (n : Nat) (data : List Byte) (t : Nat) (s : State) (hK : Kept z s) {w0 : State} (eq0 : execIdeKm n data t s = .next w0) : Kept z w0 := by
  unfold execIdeKm at eq0
  try dsimp only at eq0
  refine Kept.of_next eq0 ?_
  repeat' (first
    | with_reducible assumption
    | with_reducible apply emit_kept
    | with_reducible apply tick_kept
    | with_reducible apply drew_kept
    | with_reducible apply setPort_kept
    | with_reducible apply Kept.ite
    | dsimp only
    | split)

/-! ### Training -/

theorem ddrPop_kept {z : State} (s : State) (c reason : Nat) (hK : Kept z s) : Kept z (ddrPop s c reason) := by
  unfold ddrPop
  try dsimp only
  repeat' (first
    | with_reducible assumption
    | ((conv => arg 2; arg 33); with_reducible refine Kept.lit ?_ ?_ ?_) <;> [skip; rfl; exact ⟨rfl, rfl, rfl, rfl, rfl, rfl, rfl⟩]
    | with_reducible apply raise_kept
    | with_reducible apply setDdr_kept)

theorem trainSpd_kept {z : State} (s : State) (l : List ChanSpd) (geo : BitVec 64) (hK : Kept z s) : Kept z (trainSpd s l geo) := by
  unfold trainSpd
  try dsimp only
  repeat' (first
    | intro _ _ _
    | intro _ _
    | intro _
    | with_reducible assumption
    | ((conv => arg 2; arg 33); with_reducible refine Kept.lit ?_ ?_ ?_) <;> [skip; rfl; exact ⟨rfl, rfl, rfl, rfl, rfl, rfl, rfl⟩]
    | with_reducible apply setDdr_kept
    | with_reducible apply ddrPop_kept
    | with_reducible apply Kept.ite
    | with_reducible apply Kept.foldl
    | dsimp only
    | split)

theorem joinTarget_kept {z : State} (s : State) (k : Nat) (y : FlashTgt) (hK : Kept z s) : Kept z (joinTarget s k y) := by
  unfold joinTarget
  try dsimp only
  repeat' (first
    | intro _ _ _
    | intro _ _
    | intro _
    | with_reducible assumption
    | ((conv => arg 2; arg 33); with_reducible refine Kept.lit ?_ ?_ ?_) <;> [skip; rfl; exact ⟨rfl, rfl, rfl, rfl, rfl, rfl, rfl⟩]
    | with_reducible apply locatorWrite_kept
    | with_reducible apply Kept.ite
    | dsimp only
    | split)

theorem trainFlash_kept {z : State} (s : State) (l : List FlashChan) (hK : Kept z s) : Kept z (trainFlash s l) := by
  unfold trainFlash
  try dsimp only
  repeat' (first
    | intro _ _ _
    | intro _ _
    | intro _
    | with_reducible assumption
    | ((conv => arg 2; arg 33); with_reducible refine Kept.lit ?_ ?_ ?_) <;> [skip; rfl; exact ⟨rfl, rfl, rfl, rfl, rfl, rfl, rfl⟩]
    | with_reducible apply raiseOpen_kept
    | with_reducible apply locatorWrite_kept
    | with_reducible apply failTarget_kept
    | with_reducible apply joinTarget_kept
    | with_reducible apply Kept.ite
    | with_reducible apply Kept.foldl
    | dsimp only
    | split)

theorem restoreRegs_kept {z : State} (s : State) (found : Option Seal) (stands loss : Bool) (hK : Kept z s) : Kept z (restoreRegs s found stands loss) := by
  unfold restoreRegs
  try dsimp only
  repeat' (first
    | intro _ _ _
    | intro _ _
    | intro _
    | with_reducible assumption
    | ((conv => arg 2; arg 33); with_reducible refine Kept.lit ?_ ?_ ?_) <;> [skip; rfl; exact ⟨rfl, rfl, rfl, rfl, rfl, rfl, rfl⟩]
    | dsimp only
    | split)

theorem trainRecords_kept {z : State} (s : State) (a b held loss : Bool) (unread : List Nat) (hK : Kept z s) : Kept z (trainRecords s a b held loss unread) := by
  unfold trainRecords
  try dsimp only
  repeat' (first
    | intro _ _ _
    | intro _ _
    | intro _
    | with_reducible assumption
    | ((conv => arg 2; arg 33); with_reducible refine Kept.lit ?_ ?_ ?_) <;> [skip; rfl; exact ⟨rfl, rfl, rfl, rfl, rfl, rfl, rfl⟩]
    | with_reducible apply raiseOpen_kept
    | with_reducible apply ddrPop_kept
    | with_reducible apply restoreRegs_kept
    | ((conv => arg 2; arg 33); with_reducible refine Kept.litNil ?_ ?_ ?_) <;> [skip; rfl; exact ⟨rfl, rfl, rfl, rfl, rfl, rfl, rfl⟩]
    | with_reducible apply Kept.ite
    | dsimp only
    | split)

theorem trainLane_kept {z : State} (s : State) (warm : Bool) (x : LaneSweep) (hK : Kept z s) : Kept z (trainLane s warm x) := by
  unfold trainLane
  try dsimp only
  repeat' (first
    | with_reducible assumption
    | ((conv => arg 2; arg 33); with_reducible refine Kept.lit ?_ ?_ ?_) <;> [skip; rfl; exact ⟨rfl, rfl, rfl, rfl, rfl, rfl, rfl⟩]
    | with_reducible apply raiseOpen_kept
    | with_reducible apply setDdr_kept
    | with_reducible apply ddrPop_kept
    | with_reducible apply Kept.ite
    | dsimp only
    | split)

theorem savedLanes_kept {z : State} (s : State) (r : HeldRec) (hK : Kept z s) : Kept z (savedLanes s r) := by
  unfold savedLanes
  try dsimp only
  repeat' (first
    | intro _ _ _
    | intro _ _
    | intro _
    | with_reducible assumption
    | ((conv => arg 2; arg 33); with_reducible refine Kept.lit ?_ ?_ ?_) <;> [skip; rfl; exact ⟨rfl, rfl, rfl, rfl, rfl, rfl, rfl⟩]
    | with_reducible apply setDdr_kept
    | with_reducible apply Kept.foldl)

theorem trainDram_kept {z : State} (s : State) (l : List LaneSweep) (hK : Kept z s) : Kept z (trainDram s l) := by
  unfold trainDram
  try dsimp only
  repeat' (first
    | intro _ _ _
    | intro _ _
    | intro _
    | with_reducible assumption
    | ((conv => arg 2; arg 33); with_reducible refine Kept.lit ?_ ?_ ?_) <;> [skip; rfl; exact ⟨rfl, rfl, rfl, rfl, rfl, rfl, rfl⟩]
    | with_reducible apply setDdr_kept
    | with_reducible apply trainLane_kept
    | with_reducible apply savedLanes_kept
    | with_reducible apply Kept.ite
    | with_reducible apply Kept.foldl
    | dsimp only
    | split)

theorem resumeSlices_kept {z : State} (s : State) (hK : Kept z s) : Kept z (resumeSlices s) := by
  unfold resumeSlices
  try dsimp only
  repeat' (first
    | intro _ _ _
    | intro _ _
    | intro _
    | with_reducible assumption
    | ((conv => arg 2; arg 33); with_reducible refine Kept.lit ?_ ?_ ?_) <;> [skip; rfl; exact ⟨rfl, rfl, rfl, rfl, rfl, rfl, rfl⟩]
    | with_reducible apply Kept.foldl
    | dsimp only
    | split)

theorem mergeHarvest_kept {z : State} (s : State) (row : Nat) (hK : Kept z s) : Kept z (mergeHarvest s row) := by
  unfold mergeHarvest
  try dsimp only
  repeat' (first
    | intro _ _ _
    | intro _ _
    | intro _
    | with_reducible assumption
    | with_reducible apply changeMap_kept
    | with_reducible apply Kept.ite
    | with_reducible apply Kept.foldl
    | dsimp only
    | split)

theorem loadMap_kept {z : State} (s : State) (hK : Kept z s) : Kept z (loadMap s) := by
  unfold loadMap
  try dsimp only
  repeat' (first
    | intro _ _ _
    | intro _ _
    | intro _
    | with_reducible assumption
    | ((conv => arg 2; arg 33); with_reducible refine Kept.lit ?_ ?_ ?_) <;> [skip; rfl; exact ⟨rfl, rfl, rfl, rfl, rfl, rfl, rfl⟩]
    | with_reducible apply changeMap_kept
    | with_reducible apply Kept.foldl)

theorem closeOpen_kept {z : State} (s : State) (hK : Kept z s) : Kept z (closeOpen s) := by
  unfold closeOpen
  try dsimp only
  repeat' (first
    | intro _ _ _
    | intro _ _
    | intro _
    | with_reducible assumption
    | ((conv => arg 2; arg 33); with_reducible refine Kept.lit ?_ ?_ ?_) <;> [skip; rfl; exact ⟨rfl, rfl, rfl, rfl, rfl, rfl, rfl⟩]
    | with_reducible apply setSb_kept
    | with_reducible apply setRole_kept
    | with_reducible apply Kept.ite
    | with_reducible apply Kept.foldl
    | dsimp only
    | split)

theorem foldWritten_kept {z : State} (s : State) (hK : Kept z s) : Kept z (foldWritten s) := by
  unfold foldWritten
  try dsimp only
  repeat' (first
    | intro _ _ _
    | intro _ _
    | intro _
    | with_reducible assumption
    | with_reducible apply setRole_kept
    | with_reducible apply Kept.foldl)

theorem countSpares_kept {z : State} (s : State) (k : Nat) (hK : Kept z s) : Kept z (countSpares s k) := by
  unfold countSpares
  try dsimp only
  repeat' (first
    | intro _ _ _
    | intro _ _
    | intro _
    | with_reducible assumption
    | ((conv => arg 2; arg 33); with_reducible refine Kept.lit ?_ ?_ ?_) <;> [skip; rfl; exact ⟨rfl, rfl, rfl, rfl, rfl, rfl, rfl⟩])

theorem makeSeals_kept {z : State} (s : State) (hK : Kept z s) : Kept z (makeSeals s) := by
  have h : Kept z ((sealPlaces s).foldl (fun (x : State × List SealLoc) k =>
      (countSpares (takeSealBlocks x.1 k).1 k, x.2 ++ [(takeSealBlocks x.1 k).2])) (s, [])).1 :=
    Kept.foldlFst (fun y a hy => countSpares_kept _ a (takeSealBlocks_kept y.1 a hy)) hK
  unfold makeSeals
  dsimp only
  generalize (sealPlaces s).foldl _ _ = x at h ⊢
  exact locatorWrite_kept _ (Kept.upd h rfl rfl rfl rfl rfl rfl)

theorem makePools_kept {z : State} (s : State) (hK : Kept z s) : Kept z (makePools s) := by
  unfold makePools
  try dsimp only
  repeat' (first
    | intro _ _ _
    | intro _ _
    | intro _
    | with_reducible assumption
    | ((conv => arg 2; arg 33); with_reducible refine Kept.lit ?_ ?_ ?_) <;> [skip; rfl; exact ⟨rfl, rfl, rfl, rfl, rfl, rfl, rfl⟩]
    | with_reducible apply setSb_kept
    | with_reducible apply journal_kept
    | with_reducible apply setRole_kept
    | with_reducible apply locatorWrite_kept
    | with_reducible apply makeSeals_kept
    | with_reducible apply Kept.ite
    | with_reducible apply Kept.foldl
    | dsimp only
    | split)

theorem createImage_kept {z : State} (s : State) (hK : Kept z s) : Kept z (createImage s) := by
  unfold createImage
  try dsimp only
  repeat' (first
    | with_reducible assumption
    | ((conv => arg 2; arg 33); with_reducible refine Kept.lit ?_ ?_ ?_) <;> [skip; rfl; exact ⟨rfl, rfl, rfl, rfl, rfl, rfl, rfl⟩]
    | with_reducible apply Kept.ite
    | dsimp only
    | split)

theorem startAllots_kept {z : State} (s : State) (lost : List Nat) (hK : Kept z s) : Kept z (startAllots s lost) := by
  unfold startAllots
  try dsimp only
  repeat' (first
    | intro _ _ _
    | intro _ _
    | intro _
    | with_reducible assumption
    | ((conv => arg 2; arg 33); with_reducible refine Kept.lit ?_ ?_ ?_) <;> [skip; rfl; exact ⟨rfl, rfl, rfl, rfl, rfl, rfl, rfl⟩]
    | with_reducible apply Kept.ite
    | with_reducible apply Kept.foldl
    | dsimp only
    | split)

theorem openRun_kept {z : State} (s : State) (hK : Kept z s) : Kept z (openRun s) := by
  unfold openRun
  try dsimp only
  repeat' (first
    | with_reducible assumption
    | ((conv => arg 2; arg 33); with_reducible refine Kept.lit ?_ ?_ ?_) <;> [skip; rfl; exact ⟨rfl, rfl, rfl, rfl, rfl, rfl, rfl⟩]
    | with_reducible apply runUnit_kept)

theorem endsFresh_kept {z : State} (s : State) (hK : Kept z s) : Kept z (endsFresh s) := by
  unfold endsFresh
  try dsimp only
  repeat' (first
    | intro _ _ _
    | intro _ _
    | intro _
    | with_reducible assumption
    | ((conv => arg 2; arg 33); with_reducible refine Kept.lit ?_ ?_ ?_) <;> [skip; rfl; exact ⟨rfl, rfl, rfl, rfl, rfl, rfl, rfl⟩]
    | with_reducible apply enterService_kept
    | with_reducible apply judgeTines_kept
    | with_reducible apply sizeRegion_kept
    | with_reducible apply offerAll_kept
    | with_reducible apply makePools_kept
    | with_reducible apply createImage_kept
    | with_reducible apply openRun_kept)

theorem beginReplant_kept {z : State} (s : State) (warm : Bool) (hK : Kept z s) : Kept z (beginReplant s warm) := by
  unfold beginReplant
  try dsimp only
  repeat' (first
    | with_reducible assumption
    | ((conv => arg 2; arg 33); with_reducible refine Kept.lit ?_ ?_ ?_) <;> [skip; rfl; exact ⟨rfl, rfl, rfl, rfl, rfl, rfl, rfl⟩]
    | with_reducible apply setDev_kept
    | with_reducible apply judgeTines_kept
    | with_reducible apply openRun_kept
    | with_reducible apply Kept.ite
    | dsimp only
    | split)

theorem offerInReplant_kept {z : State} (s : State) (warm : Bool) (hK : Kept z s) : Kept z (offerInReplant s warm) := by
  unfold offerInReplant
  try dsimp only
  repeat' (first
    | with_reducible assumption
    | with_reducible apply offerAll_kept
    | with_reducible apply restoreComplete_kept
    | with_reducible apply Kept.ite
    | dsimp only
    | split)

theorem endsReplant_kept {z : State} (s : State) (row : Nat) (lost : List Nat) (hK : Kept z s) : Kept z (endsReplant s row lost) := by
  unfold endsReplant
  try dsimp only
  repeat' (first
    | intro _ _ _
    | intro _ _
    | intro _
    | with_reducible assumption
    | with_reducible apply sizeRegion_kept
    | with_reducible apply mergeHarvest_kept
    | with_reducible apply foldWritten_kept
    | with_reducible apply startAllots_kept
    | with_reducible apply beginReplant_kept
    | with_reducible apply offerInReplant_kept)

theorem standSpares_kept {z : State} (s : State) (hK : Kept z s) : Kept z (standSpares s) := by
  unfold standSpares
  try dsimp only
  repeat' (first
    | intro _ _ _
    | intro _ _
    | intro _
    | with_reducible assumption
    | with_reducible apply drew_kept
    | with_reducible apply raiseLive_kept
    | with_reducible apply Kept.ite
    | dsimp only
    | split)

theorem trainingEnds_kept {z : State} (s : State) (hK : Kept z s) : Kept z (trainingEnds s) := by
  unfold trainingEnds
  try dsimp only
  repeat' (first
    | with_reducible assumption
    | ((conv => arg 2; arg 33); with_reducible refine Kept.lit ?_ ?_ ?_) <;> [skip; rfl; exact ⟨rfl, rfl, rfl, rfl, rfl, rfl, rfl⟩]
    | with_reducible apply resumeSlices_kept
    | with_reducible apply loadMap_kept
    | with_reducible apply closeOpen_kept
    | with_reducible apply endsFresh_kept
    | with_reducible apply endsReplant_kept
    | with_reducible apply standSpares_kept
    | with_reducible apply Kept.ite
    | dsimp only
    | split)

theorem trainImages_kept {z : State} (s : State) (passed : List Nat) (hK : Kept z s) : Kept z (trainImages s passed) := by
  unfold trainImages
  try dsimp only
  repeat' (first
    | intro _ _ _
    | intro _ _
    | intro _
    | with_reducible assumption
    | ((conv => arg 2; arg 33); with_reducible refine Kept.lit ?_ ?_ ?_) <;> [skip; rfl; exact ⟨rfl, rfl, rfl, rfl, rfl, rfl, rfl⟩]
    | with_reducible apply raise_kept
    | with_reducible apply Kept.foldl)

theorem trainDo_kept {z : State} (s : State) (i : TrainIn) (hK : Kept z s) : Kept z (trainDo s i) := by
  unfold trainDo
  try dsimp only
  repeat' (first
    | with_reducible assumption
    | ((conv => arg 2; arg 33); with_reducible refine Kept.lit ?_ ?_ ?_) <;> [skip; rfl; exact ⟨rfl, rfl, rfl, rfl, rfl, rfl, rfl⟩]
    | with_reducible apply trainSpd_kept
    | with_reducible apply trainFlash_kept
    | with_reducible apply trainRecords_kept
    | with_reducible apply trainDram_kept
    | with_reducible apply trainImages_kept
    | dsimp only
    | split)

theorem execTrainingStepComplete_kept {z : State} (i : TrainIn) (t : Nat) (s : State) (hK : Kept z s) {w0 : State} (eq0 : execTrainingStepComplete i t s = .next w0) : Kept z w0 := by
  unfold execTrainingStepComplete at eq0
  try dsimp only at eq0
  refine Kept.of_next eq0 ?_
  repeat' (first
    | with_reducible assumption
    | ((conv => arg 2; arg 33); with_reducible refine Kept.lit ?_ ?_ ?_) <;> [skip; rfl; exact ⟨rfl, rfl, rfl, rfl, rfl, rfl, rfl⟩]
    | with_reducible apply tick_kept
    | with_reducible apply trainingEnds_kept
    | with_reducible apply trainDo_kept
    | with_reducible apply Kept.ite
    | dsimp only
    | split)

/-! ### Tines -/

theorem cuttingEnds_kept {z : State} (s : State) (c : Cutting) (ues : List Nat) (hK : Kept z s) : Kept z (cuttingEnds s c ues) := by
  unfold cuttingEnds
  try dsimp only
  repeat' (first
    | intro _ _ _
    | intro _ _
    | intro _
    | with_reducible assumption
    | ((conv => arg 2; arg 33); with_reducible refine Kept.lit ?_ ?_ ?_) <;> [skip; rfl; exact ⟨rfl, rfl, rfl, rfl, rfl, rfl, rfl⟩]
    | with_reducible apply internalUes_kept
    | with_reducible apply moveCut_kept
    | with_reducible apply dripCut_kept
    | with_reducible apply comparisonEnds_kept
    | dsimp only
    | split)

theorem cuttingFails_kept {z : State} (s : State) (c : Cutting) (hK : Kept z s) : Kept z (cuttingFails s c) := by
  unfold cuttingFails
  try dsimp only
  repeat' (first
    | intro _ _ _
    | intro _ _
    | intro _
    | with_reducible assumption
    | ((conv => arg 2; arg 33); with_reducible refine Kept.lit ?_ ?_ ?_) <;> [skip; rfl; exact ⟨rfl, rfl, rfl, rfl, rfl, rfl, rfl⟩]
    | with_reducible apply scrubNext_kept
    | with_reducible apply dripFail_kept
    | with_reducible apply setRun_kept
    | with_reducible apply restorePoisoned_kept
    | with_reducible apply fetchEnds_kept
    | with_reducible apply comparisonFails_kept
    | with_reducible apply Kept.ite
    | with_reducible apply Kept.foldl
    | dsimp only
    | split)

theorem leaveBed_kept {z : State} (s : State) (b : Nat) (hK : Kept z s) : Kept z (leaveBed s b) := by
  unfold leaveBed
  try dsimp only
  repeat' (first
    | intro _ _ _
    | intro _ _
    | intro _
    | with_reducible assumption
    | ((conv => arg 2; arg 33); with_reducible refine Kept.lit ?_ ?_ ?_) <;> [skip; rfl; exact ⟨rfl, rfl, rfl, rfl, rfl, rfl, rfl⟩]
    | with_reducible apply setBed_kept
    | with_reducible apply push_kept
    | with_reducible apply Kept.ite
    | with_reducible apply Kept.foldl
    | dsimp only
    | split)

theorem setPair_kept {z : State} (s : State) (b : Bool) (x : MpPair) (hK : Kept z s) : Kept z (setPair s b x) := by
  unfold setPair
  try dsimp only
  repeat' (first
    | with_reducible assumption
    | ((conv => arg 2; arg 33); with_reducible refine Kept.lit ?_ ?_ ?_) <;> [skip; rfl; exact ⟨rfl, rfl, rfl, rfl, rfl, rfl, rfl⟩]
    | with_reducible apply Kept.ite
    | dsimp only
    | split)

theorem refuseWaiting_kept {z : State} (s : State) (hK : Kept z s) : Kept z (refuseWaiting s) := by
  unfold refuseWaiting
  try dsimp only
  repeat' (first
    | intro _ _ _
    | intro _ _
    | intro _
    | with_reducible assumption
    | with_reducible apply endWith_kept
    | with_reducible apply Kept.ite
    | with_reducible apply Kept.foldl
    | dsimp only
    | split)

theorem execCuttingDone_kept {z : State} (n : Nat) (ues : List Nat) (t : Nat) (s : State) (hK : Kept z s) {w0 : State} (eq0 : execCuttingDone n ues t s = .next w0) : Kept z w0 := by
  unfold execCuttingDone at eq0
  try dsimp only at eq0
  refine Kept.of_next eq0 ?_
  repeat' (first
    | with_reducible assumption
    | ((conv => arg 2; arg 33); with_reducible refine Kept.lit ?_ ?_ ?_) <;> [skip; rfl; exact ⟨rfl, rfl, rfl, rfl, rfl, rfl, rfl⟩]
    | with_reducible apply tick_kept
    | with_reducible apply feed_kept
    | with_reducible apply cuttingEnds_kept
    | dsimp only
    | split)

theorem execTineFenced_kept {z : State} (n t : Nat) (s : State) (hK : Kept z s) {w0 : State} (eq0 : execTineFenced n t s = .next w0) : Kept z w0 := by
  unfold execTineFenced at eq0
  try dsimp only at eq0
  refine Kept.of_next eq0 ?_
  repeat' (first
    | with_reducible assumption
    | ((conv => arg 2; arg 33); with_reducible refine Kept.lit ?_ ?_ ?_) <;> [skip; rfl; exact ⟨rfl, rfl, rfl, rfl, rfl, rfl, rfl⟩]
    | with_reducible apply tick_kept
    | with_reducible apply setFld_kept
    | with_reducible apply bump_kept
    | with_reducible apply raise_kept
    | with_reducible apply judgeTines_kept
    | with_reducible apply place_kept
    | with_reducible apply feed_kept
    | with_reducible apply cuttingFails_kept
    | with_reducible apply leaveBed_kept
    | with_reducible apply Kept.ite
    | dsimp only
    | split)

theorem execMpLockstep_kept {z : State} (b : Bool) (t : Nat) (s : State) (hK : Kept z s) {w0 : State} (eq0 : execMpLockstep b t s = .next w0) : Kept z w0 := by
  unfold execMpLockstep at eq0
  try dsimp only at eq0
  refine Kept.of_next eq0 ?_
  repeat' (first
    | intro _ _ _
    | intro _ _
    | intro _
    | with_reducible assumption
    | ((conv => arg 2; arg 33); with_reducible refine Kept.lit ?_ ?_ ?_) <;> [skip; rfl; exact ⟨rfl, rfl, rfl, rfl, rfl, rfl, rfl⟩]
    | with_reducible apply tick_kept
    | with_reducible apply bump_kept
    | with_reducible apply raiseOpen_kept
    | with_reducible apply interruptPairs_kept
    | with_reducible apply setPair_kept
    | with_reducible apply refuseWaiting_kept
    | with_reducible apply Kept.ite
    | dsimp only
    | split)

theorem execHaWatchdog_kept {z : State} (f t : Nat) (s : State) (hK : Kept z s) {w0 : State} (eq0 : execHaWatchdog f t s = .next w0) : Kept z w0 := by
  unfold execHaWatchdog at eq0
  try dsimp only at eq0
  refine Kept.of_next eq0 ?_
  repeat' (first
    | intro _ _ _
    | intro _ _
    | intro _
    | with_reducible assumption
    | with_reducible apply tick_kept
    | with_reducible apply setFunc_kept
    | with_reducible apply dropInputs_kept
    | with_reducible apply raise_kept
    | with_reducible apply Kept.ite
    | dsimp only
    | split)

theorem execConfigRecordSave_kept {z : State} (t : Nat) (s : State) (hK : Kept z s) {w0 : State} (eq0 : execConfigRecordSave t s = .next w0) : Kept z w0 := by
  unfold execConfigRecordSave at eq0
  try dsimp only at eq0
  refine Kept.of_next eq0 ?_
  repeat' (first
    | with_reducible assumption
    | with_reducible apply tick_kept
    | with_reducible apply saveConfig_kept
    | with_reducible apply Kept.ite
    | dsimp only
    | split)

theorem execInjectionTimeout_kept {z : State} (n t : Nat) (s : State) (hK : Kept z s) {w0 : State} (eq0 : execInjectionTimeout n t s = .next w0) : Kept z w0 := by
  unfold execInjectionTimeout at eq0
  try dsimp only at eq0
  refine Kept.of_next eq0 ?_
  repeat' (first
    | with_reducible assumption
    | ((conv => arg 2; arg 33); with_reducible refine Kept.lit ?_ ?_ ?_) <;> [skip; rfl; exact ⟨rfl, rfl, rfl, rfl, rfl, rfl, rfl⟩]
    | with_reducible apply tick_kept
    | with_reducible apply setSource_kept
    | with_reducible apply endWith_kept
    | with_reducible apply Kept.ite
    | dsimp only
    | split)

/-! ### Weeding -/

theorem setItem_kept {z : State} (s : State) (n : Nat) (x : IstItem) (hK : Kept z s) : Kept z (setItem s n x) := by
  unfold setItem
  try dsimp only
  repeat' (first
    | with_reducible assumption
    | ((conv => arg 2; arg 33); with_reducible refine Kept.lit ?_ ?_ ?_) <;> [skip; rfl; exact ⟨rfl, rfl, rfl, rfl, rfl, rfl, rfl⟩])

theorem endRunNow_kept {z : State} (s : State) (id : Nat) (hK : Kept z s) : Kept z (endRunNow s id) := by
  unfold endRunNow
  try dsimp only
  repeat' (first
    | intro _ _ _
    | intro _ _
    | intro _
    | with_reducible assumption
    | ((conv => arg 2; arg 33); with_reducible refine Kept.lit ?_ ?_ ?_) <;> [skip; rfl; exact ⟨rfl, rfl, rfl, rfl, rfl, rfl, rfl⟩]
    | with_reducible apply endWith_kept
    | with_reducible apply endOk_kept
    | with_reducible apply Kept.ite
    | dsimp only
    | split)

theorem itemCovered_kept {z : State} (s : State) (n : Nat) (hK : Kept z s) : Kept z (itemCovered s n) := by
  unfold itemCovered
  try dsimp only
  repeat' (first
    | intro _ _ _
    | intro _ _
    | intro _
    | with_reducible assumption
    | ((conv => arg 2; arg 33); with_reducible refine Kept.lit ?_ ?_ ?_) <;> [skip; rfl; exact ⟨rfl, rfl, rfl, rfl, rfl, rfl, rfl⟩]
    | with_reducible apply clearLive_kept
    | with_reducible apply setItem_kept
    | with_reducible apply endRunNow_kept
    | with_reducible apply Kept.ite
    | dsimp only
    | split)

theorem unitDone_kept {z : State} (s : State) (n k u : Nat) (pass : Bool) (hK : Kept z s) : Kept z (unitDone s n k u pass) := by
  unfold unitDone
  try dsimp only
  repeat' (first
    | intro _ _ _
    | intro _ _
    | intro _
    | with_reducible assumption
    | ((conv => arg 2; arg 33); with_reducible refine Kept.lit ?_ ?_ ?_) <;> [skip; rfl; exact ⟨rfl, rfl, rfl, rfl, rfl, rfl, rfl⟩]
    | with_reducible apply setItem_kept
    | with_reducible apply itemCovered_kept
    | with_reducible apply Kept.ite
    | dsimp only
    | split)

theorem startWeeding_kept {z : State} (s : State) (hK : Kept z s) : Kept z (startWeeding s) := by
  unfold startWeeding
  try dsimp only
  repeat' (first
    | intro _ _ _
    | intro _ _
    | intro _
    | with_reducible assumption
    | ((conv => arg 2; arg 33); with_reducible refine Kept.lit ?_ ?_ ?_) <;> [skip; rfl; exact ⟨rfl, rfl, rfl, rfl, rfl, rfl, rfl⟩]
    | with_reducible apply Kept.ite
    | dsimp only
    | split)

theorem failChannel_kept {z : State} (s : State) (c : Nat) (hK : Kept z s) : Kept z (failChannel s c) := by
  unfold failChannel
  try dsimp only
  repeat' (first
    | intro _ _ _
    | intro _ _
    | intro _
    | with_reducible assumption
    | ((conv => arg 2; arg 33); with_reducible refine Kept.lit ?_ ?_ ?_) <;> [skip; rfl; exact ⟨rfl, rfl, rfl, rfl, rfl, rfl, rfl⟩]
    | with_reducible apply failTarget_kept
    | with_reducible apply Kept.foldl)

theorem startRehearsal_kept {z : State} (s : State) (auto quietOnly : Bool) (cmd : Option Nat) (hK : Kept z s) : Kept z (startRehearsal s auto quietOnly cmd) := by
  unfold startRehearsal
  try dsimp only
  repeat' (first
    | intro _ _ _
    | intro _ _
    | intro _
    | with_reducible assumption
    | ((conv => arg 2; arg 33); with_reducible refine Kept.lit ?_ ?_ ?_) <;> [skip; rfl; exact ⟨rfl, rfl, rfl, rfl, rfl, rfl, rfl⟩]
    | with_reducible apply setRole_kept
    | with_reducible apply Kept.foldl)

theorem cmdRehearsalRun_kept {z : State} (f : InFlight) (s : State) (hK : Kept z s) : Kept z (cmdRehearsalRun f s) := by
  unfold cmdRehearsalRun
  try dsimp only
  repeat' (first
    | with_reducible assumption
    | ((conv => arg 2; arg 33); with_reducible refine Kept.lit ?_ ?_ ?_) <;> [skip; rfl; exact ⟨rfl, rfl, rfl, rfl, rfl, rfl, rfl⟩]
    | with_reducible apply endWith_kept
    | with_reducible apply setJob_kept
    | with_reducible apply startRehearsal_kept
    | dsimp only
    | split)

theorem rehComplete_kept {z : State} (s : State) (r : Rehearsal) (hK : Kept z s) : Kept z (rehComplete s r) := by
  unfold rehComplete
  try dsimp only
  repeat' (first
    | intro _ _ _
    | intro _ _
    | intro _
    | with_reducible assumption
    | ((conv => arg 2; arg 33); with_reducible refine Kept.lit ?_ ?_ ?_) <;> [skip; rfl; exact ⟨rfl, rfl, rfl, rfl, rfl, rfl, rfl⟩]
    | with_reducible apply endOk_kept
    | with_reducible apply saveLearned_kept
    | with_reducible apply itemCovered_kept
    | with_reducible apply Kept.ite
    | with_reducible apply Kept.foldl
    | dsimp only
    | split)

theorem buildSums_kept {z : State} (s : State) (fuel : Nat) (hK : Kept z s) : Kept z (buildSums s fuel) := by
  induction fuel generalizing  s with
  | zero => first | exact hK | (unfold buildSums; exact hK)
  | succ fuel ih =>
  unfold buildSums
  try dsimp only
  repeat' (first
    | with_reducible apply ih
    | intro _ _ _
    | intro _ _
    | intro _
    | with_reducible assumption
    | ((conv => arg 2; arg 33); with_reducible refine Kept.lit ?_ ?_ ?_) <;> [skip; rfl; exact ⟨rfl, rfl, rfl, rfl, rfl, rfl, rfl⟩]
    | with_reducible apply Kept.ite
    | dsimp only
    | split)

theorem cmdTestSchedule_kept {z : State} (f : InFlight) (s : State) (hK : Kept z s) : Kept z (cmdTestSchedule f s) := by
  unfold cmdTestSchedule
  try dsimp only
  repeat' (first
    | intro _ _ _
    | intro _ _
    | intro _
    | with_reducible assumption
    | ((conv => arg 2; arg 33); with_reducible refine Kept.lit ?_ ?_ ?_) <;> [skip; rfl; exact ⟨rfl, rfl, rfl, rfl, rfl, rfl, rfl⟩]
    | with_reducible apply saveConfig_kept
    | with_reducible apply endOk_kept
    | with_reducible apply badParam_kept
    | with_reducible apply conflict_kept
    | with_reducible apply setJob_kept
    | with_reducible apply setItem_kept
    | with_reducible apply Kept.ite
    | with_reducible apply Kept.foldl
    | dsimp only
    | split)

theorem ringOut_kept {z : State} (f : InFlight) (ring : List Sample) (next : Nat) (s : State) (hK : Kept z s) : Kept z (ringOut f ring next s) := by
  unfold ringOut
  try dsimp only
  repeat' (first
    | intro _ _ _
    | intro _ _
    | intro _
    | with_reducible assumption
    | with_reducible apply endOut_kept)

theorem cmdTestResult_kept {z : State} (f : InFlight) (s : State) (hK : Kept z s) : Kept z (cmdTestResult f s) := by
  unfold cmdTestResult
  try dsimp only
  repeat' (first
    | with_reducible assumption
    | with_reducible apply endWith_kept
    | with_reducible apply endOk_kept
    | with_reducible apply badParam_kept
    | with_reducible apply assistInput_kept
    | with_reducible apply ringOut_kept
    | with_reducible apply Kept.ite
    | dsimp only
    | split)

theorem execLogicBist_kept {z : State} (n : Nat) (pass : Bool) (t : Nat) (s : State) (hK : Kept z s) {w0 : State} (eq0 : execLogicBist n pass t s = .next w0) : Kept z w0 := by
  unfold execLogicBist at eq0
  try dsimp only at eq0
  refine Kept.of_next eq0 ?_
  repeat' (first
    | with_reducible assumption
    | ((conv => arg 2; arg 33); with_reducible refine Kept.lit ?_ ?_ ?_) <;> [skip; rfl; exact ⟨rfl, rfl, rfl, rfl, rfl, rfl, rfl⟩]
    | with_reducible apply tick_kept
    | with_reducible apply raise_kept
    | with_reducible apply judgeTines_kept
    | with_reducible apply feed_kept
    | with_reducible apply leaveBed_kept
    | with_reducible apply unitDone_kept
    | with_reducible apply Kept.ite
    | dsimp only
    | split)

theorem execFlashEngineLoopback_kept {z : State} (n : Nat) (pass : Bool) (t : Nat) (s : State) (hK : Kept z s) {w0 : State} (eq0 : execFlashEngineLoopback n pass t s = .next w0) : Kept z w0 := by
  unfold execFlashEngineLoopback at eq0
  try dsimp only at eq0
  refine Kept.of_next eq0 ?_
  repeat' (first
    | with_reducible assumption
    | ((conv => arg 2; arg 33); with_reducible refine Kept.lit ?_ ?_ ?_) <;> [skip; rfl; exact ⟨rfl, rfl, rfl, rfl, rfl, rfl, rfl⟩]
    | with_reducible apply tick_kept
    | with_reducible apply raiseOpen_kept
    | with_reducible apply unitDone_kept
    | with_reducible apply failChannel_kept
    | with_reducible apply Kept.ite
    | dsimp only
    | split)

theorem execConverterReference_kept {z : State} (k low high : Nat) (t : Nat) (s : State) (hK : Kept z s) {w0 : State} (eq0 : execConverterReference k low high t s = .next w0) : Kept z w0 := by
  unfold execConverterReference at eq0
  try dsimp only at eq0
  refine Kept.of_next eq0 ?_
  repeat' (first
    | intro _ _ _
    | intro _ _
    | intro _
    | with_reducible assumption
    | ((conv => arg 2; arg 33); with_reducible refine Kept.lit ?_ ?_ ?_) <;> [skip; rfl; exact ⟨rfl, rfl, rfl, rfl, rfl, rfl, rfl⟩]
    | with_reducible apply tick_kept
    | with_reducible apply raiseOpen_kept
    | with_reducible apply setAdc_kept
    | with_reducible apply unitDone_kept
    | with_reducible apply Kept.ite
    | dsimp only
    | split)

theorem execComparatorTrip_kept {z : State} (n : Nat) (pass : Bool) (t : Nat) (s : State) (hK : Kept z s) {w0 : State} (eq0 : execComparatorTrip n pass t s = .next w0) : Kept z w0 := by
  unfold execComparatorTrip at eq0
  try dsimp only at eq0
  refine Kept.of_next eq0 ?_
  repeat' (first
    | with_reducible assumption
    | ((conv => arg 2; arg 33); with_reducible refine Kept.lit ?_ ?_ ?_) <;> [skip; rfl; exact ⟨rfl, rfl, rfl, rfl, rfl, rfl, rfl⟩]
    | with_reducible apply tick_kept
    | with_reducible apply raiseOpen_kept
    | with_reducible apply unitDone_kept
    | with_reducible apply Kept.ite
    | dsimp only
    | split)

theorem execFaultPathInjection_kept {z : State} (n : Nat) (ran det path : Bool) (t : Nat) (s : State) (hK : Kept z s) {w0 : State} (eq0 : execFaultPathInjection n ran det path t s = .next w0) : Kept z w0 := by
  unfold execFaultPathInjection at eq0
  try dsimp only at eq0
  refine Kept.of_next eq0 ?_
  repeat' (first
    | with_reducible assumption
    | ((conv => arg 2; arg 33); with_reducible refine Kept.lit ?_ ?_ ?_) <;> [skip; rfl; exact ⟨rfl, rfl, rfl, rfl, rfl, rfl, rfl⟩]
    | with_reducible apply tick_kept
    | with_reducible apply drew_kept
    | with_reducible apply setSource_kept
    | with_reducible apply raise_kept
    | with_reducible apply captureInjected_kept
    | with_reducible apply unitDone_kept
    | with_reducible apply Kept.ite
    | dsimp only
    | split)

theorem execCipherKnownAnswer_kept {z : State} (n : Nat) (pass : Bool) (t : Nat) (s : State) (hK : Kept z s) {w0 : State} (eq0 : execCipherKnownAnswer n pass t s = .next w0) : Kept z w0 := by
  unfold execCipherKnownAnswer at eq0
  try dsimp only at eq0
  refine Kept.of_next eq0 ?_
  repeat' (first
    | with_reducible assumption
    | with_reducible apply tick_kept
    | with_reducible apply raiseOpen_kept
    | with_reducible apply unitDone_kept
    | with_reducible apply Kept.ite
    | dsimp only
    | split)

theorem execIstCoverage_kept {z : State} (n : Nat) (t : Nat) (s : State) (hK : Kept z s) {w0 : State} (eq0 : execIstCoverage n t s = .next w0) : Kept z w0 := by
  unfold execIstCoverage at eq0
  try dsimp only at eq0
  refine Kept.of_next eq0 ?_
  repeat' (first
    | intro _ _ _
    | intro _ _
    | intro _
    | with_reducible assumption
    | ((conv => arg 2; arg 33); with_reducible refine Kept.lit ?_ ?_ ?_) <;> [skip; rfl; exact ⟨rfl, rfl, rfl, rfl, rfl, rfl, rfl⟩]
    | with_reducible apply tick_kept
    | with_reducible apply endWith_kept
    | with_reducible apply raiseLiveOpen_kept
    | with_reducible apply setItem_kept
    | with_reducible apply Kept.ite
    | dsimp only
    | split)

theorem execWeedingPauseEnd_kept {z : State} (t : Nat) (s : State) (hK : Kept z s) {w0 : State} (eq0 : execWeedingPauseEnd t s = .next w0) : Kept z w0 := by
  unfold execWeedingPauseEnd at eq0
  try dsimp only at eq0
  refine Kept.of_next eq0 ?_
  repeat' (first
    | with_reducible assumption
    | ((conv => arg 2; arg 33); with_reducible refine Kept.lit ?_ ?_ ?_) <;> [skip; rfl; exact ⟨rfl, rfl, rfl, rfl, rfl, rfl, rfl⟩]
    | with_reducible apply tick_kept
    | with_reducible apply Kept.ite
    | dsimp only
    | split)

theorem execRehearsalRun_kept {z : State} (c : TrellisCmd) (s : State) (hK : Kept z s) {w0 : State} (eq0 : execRehearsalRun c s = .next w0) : Kept z w0 := by
  unfold execRehearsalRun at eq0
  try dsimp only at eq0
  refine Kept.of_next eq0 ?_
  repeat' (first
    | intro _ _ _
    | intro _ _
    | intro _
    | with_reducible assumption
    | with_reducible apply submit_kept
    | with_reducible apply cmdRehearsalRun_kept)

theorem execRehearsalDue_kept {z : State} (t : Nat) (s : State) (hK : Kept z s) {w0 : State} (eq0 : execRehearsalDue t s = .next w0) : Kept z w0 := by
  unfold execRehearsalDue at eq0
  try dsimp only at eq0
  refine Kept.of_next eq0 ?_
  repeat' (first
    | with_reducible assumption
    | ((conv => arg 2; arg 33); with_reducible refine Kept.lit ?_ ?_ ?_) <;> [skip; rfl; exact ⟨rfl, rfl, rfl, rfl, rfl, rfl, rfl⟩]
    | with_reducible apply tick_kept
    | with_reducible apply startRehearsal_kept
    | with_reducible apply Kept.ite
    | dsimp only
    | split)

theorem execRehearsalPhaseEnd_kept {z : State} (moved : Nat) (t : Nat) (s : State) (hK : Kept z s) {w0 : State} (eq0 : execRehearsalPhaseEnd moved t s = .next w0) : Kept z w0 := by
  unfold execRehearsalPhaseEnd at eq0
  try dsimp only at eq0
  refine Kept.of_next eq0 ?_
  repeat' (first
    | intro _ _ _
    | intro _ _
    | intro _
    | with_reducible assumption
    | ((conv => arg 2; arg 33); with_reducible refine Kept.lit ?_ ?_ ?_) <;> [skip; rfl; exact ⟨rfl, rfl, rfl, rfl, rfl, rfl, rfl⟩]
    | with_reducible apply tick_kept
    | with_reducible apply wear_kept
    | with_reducible apply rehHandBack_kept
    | with_reducible apply rehComplete_kept
    | with_reducible apply Kept.ite
    | dsimp only
    | split)

theorem execRehearsalTimeLimit_kept {z : State} (t : Nat) (s : State) (hK : Kept z s) {w0 : State} (eq0 : execRehearsalTimeLimit t s = .next w0) : Kept z w0 := by
  unfold execRehearsalTimeLimit at eq0
  try dsimp only at eq0
  refine Kept.of_next eq0 ?_
  repeat' (first
    | with_reducible assumption
    | ((conv => arg 2; arg 33); with_reducible refine Kept.lit ?_ ?_ ?_) <;> [skip; rfl; exact ⟨rfl, rfl, rfl, rfl, rfl, rfl, rfl⟩]
    | with_reducible apply tick_kept
    | with_reducible apply rehAbort_kept
    | with_reducible apply Kept.ite
    | dsimp only
    | split)

theorem execTelemetrySample_kept {z : State} (t : Nat) (s : State) (hK : Kept z s) {w0 : State} (eq0 : execTelemetrySample t s = .next w0) : Kept z w0 := by
  unfold execTelemetrySample at eq0
  try dsimp only at eq0
  refine Kept.of_next eq0 ?_
  repeat' (first
    | intro _ _ _
    | intro _ _
    | intro _
    | with_reducible assumption
    | ((conv => arg 2; arg 33); with_reducible refine Kept.lit ?_ ?_ ?_) <;> [skip; rfl; exact ⟨rfl, rfl, rfl, rfl, rfl, rfl, rfl⟩]
    | with_reducible apply tick_kept
    | with_reducible apply Kept.ite
    | dsimp only
    | split)

theorem execTelemetrySummary_kept {z : State} (t : Nat) (s : State) (hK : Kept z s) {w0 : State} (eq0 : execTelemetrySummary t s = .next w0) : Kept z w0 := by
  unfold execTelemetrySummary at eq0
  try dsimp only at eq0
  refine Kept.of_next eq0 ?_
  repeat' (first
    | with_reducible assumption
    | ((conv => arg 2; arg 33); with_reducible refine Kept.lit ?_ ?_ ?_) <;> [skip; rfl; exact ⟨rfl, rfl, rfl, rfl, rfl, rfl, rfl⟩]
    | with_reducible apply tick_kept
    | with_reducible apply buildSums_kept
    | with_reducible apply Kept.ite
    | dsimp only
    | split)

theorem execTestSchedule_kept {z : State} (c : TrellisCmd) (s : State) (hK : Kept z s) {w0 : State} (eq0 : execTestSchedule c s = .next w0) : Kept z w0 := by
  unfold execTestSchedule at eq0
  try dsimp only at eq0
  refine Kept.of_next eq0 ?_
  repeat' (first
    | intro _ _ _
    | intro _ _
    | intro _
    | with_reducible assumption
    | with_reducible apply submit_kept
    | with_reducible apply cmdTestSchedule_kept)

theorem execTestResult_kept {z : State} (c : TrellisCmd) (s : State) (hK : Kept z s) {w0 : State} (eq0 : execTestResult c s = .next w0) : Kept z w0 := by
  unfold execTestResult at eq0
  try dsimp only at eq0
  refine Kept.of_next eq0 ?_
  repeat' (first
    | intro _ _ _
    | intro _ _
    | intro _
    | with_reducible assumption
    | with_reducible apply submit_kept
    | with_reducible apply cmdTestResult_kept)

/-! ### Regs -/

theorem clearRc_kept {z : State} (s : State) (p : Path) (r : RegD) (i a : Nat) (hK : Kept z s) : Kept z (clearRc s p r i a) := by
  unfold clearRc
  try dsimp only
  repeat' (first
    | intro _ _ _
    | intro _ _
    | intro _
    | with_reducible assumption
    | ((conv => arg 2; arg 33); with_reducible refine Kept.lit ?_ ?_ ?_) <;> [skip; rfl; exact ⟨rfl, rfl, rfl, rfl, rfl, rfl, rfl⟩]
    | with_reducible apply setReg_kept
    | with_reducible apply setDdr_kept
    | with_reducible apply setItem_kept
    | with_reducible apply Kept.ite
    | dsimp only
    | split)

theorem regRead_kept {z : State} (s : State) (p : Path) (a : Nat) (hK : Kept z s) : Kept z (regRead s p a).1 := by
  unfold regRead
  try dsimp only
  repeat' (first
    | with_reducible assumption
    | ((conv => arg 2; arg 33); with_reducible refine Kept.lit ?_ ?_ ?_) <;> [skip; rfl; exact ⟨rfl, rfl, rfl, rfl, rfl, rfl, rfl⟩]
    | with_reducible apply adcPop_kept
    | with_reducible refine adcPop_kept_eq (by assumption) ?_
    | with_reducible apply clearRc_kept
    | with_reducible apply Kept.ite
    | dsimp only
    | split)
theorem regRead_kept_eq {z : State} {s : State} {p : Path} {a : Nat} {x : State} {r : _} (e : (regRead s p a) = (x, r)) (hK : Kept z s) : Kept z x := by
  have := regRead_kept s p a hK
  rw [e] at this
  exact this

theorem setQp_kept {z : State} (s : State) (n : Nat) (q : QP) (hK : Kept z s) : Kept z (setQp s n q) := by
  unfold setQp
  try dsimp only
  repeat' (first
    | with_reducible assumption
    | ((conv => arg 2; arg 33); with_reducible refine Kept.lit ?_ ?_ ?_) <;> [skip; rfl; exact ⟨rfl, rfl, rfl, rfl, rfl, rfl, rfl⟩])

theorem judgeIdle_kept {z : State} (s : State) (n : Nat) (hK : Kept z s) : Kept z (judgeIdle s n) := by
  unfold judgeIdle
  try dsimp only
  repeat' (first
    | with_reducible assumption
    | ((conv => arg 2; arg 33); with_reducible refine Kept.lit ?_ ?_ ?_) <;> [skip; rfl; exact ⟨rfl, rfl, rfl, rfl, rfl, rfl, rfl⟩]
    | with_reducible apply setQp_kept
    | with_reducible apply Kept.ite
    | dsimp only
    | split)

theorem bindWritten_kept {z : State} (s : State) (n v : Nat) (hK : Kept z s) : Kept z (bindWritten s n v) := by
  unfold bindWritten
  try dsimp only
  repeat' (first
    | with_reducible assumption
    | ((conv => arg 2; arg 33); with_reducible refine Kept.lit ?_ ?_ ?_) <;> [skip; rfl; exact ⟨rfl, rfl, rfl, rfl, rfl, rfl, rfl⟩]
    | with_reducible apply setLimits_kept
    | with_reducible apply setQp_kept
    | with_reducible apply judgeIdle_kept
    | with_reducible apply Kept.ite
    | dsimp only
    | split)

theorem doorbell_kept {z : State} (s : State) (c n v : Nat) (hK : Kept z s) : Kept z (doorbell s c n v) := by
  unfold doorbell
  try dsimp only
  repeat' (first
    | with_reducible assumption
    | ((conv => arg 2; arg 33); with_reducible refine Kept.lit ?_ ?_ ?_) <;> [skip; rfl; exact ⟨rfl, rfl, rfl, rfl, rfl, rfl, rfl⟩]
    | with_reducible apply setQp_kept
    | with_reducible apply Kept.ite
    | dsimp only
    | split)

theorem qpWritten_kept {z : State} (s : State) (iss c n v : Nat) (wide : Option Nat) (hK : Kept z s) : Kept z (qpWritten s iss c n v wide) := by
  unfold qpWritten
  try dsimp only
  repeat' (first
    | intro _ _ _
    | intro _ _
    | intro _
    | with_reducible assumption
    | ((conv => arg 2; arg 33); with_reducible refine Kept.lit ?_ ?_ ?_) <;> [skip; rfl; exact ⟨rfl, rfl, rfl, rfl, rfl, rfl, rfl⟩]
    | with_reducible apply setLimits_kept
    | with_reducible apply setQp_kept
    | with_reducible apply bindWritten_kept
    | with_reducible apply Kept.ite
    | dsimp only
    | split)

theorem storeWord_kept {z : State} (s : State) (r : RegD) (a v drop : Nat) (hK : Kept z s) : Kept z (storeWord s r a v drop) := by
  unfold storeWord
  try dsimp only
  repeat' (first
    | intro _ _ _
    | intro _ _
    | intro _
    | with_reducible assumption
    | ((conv => arg 2; arg 33); with_reducible refine Kept.lit ?_ ?_ ?_) <;> [skip; rfl; exact ⟨rfl, rfl, rfl, rfl, rfl, rfl, rfl⟩]
    | with_reducible apply setReg_kept
    | with_reducible apply Kept.ite
    | dsimp only
    | split)

theorem afterStore_kept {z : State} (s : State) (c v : Nat) (hK : Kept z s) : Kept z (afterStore s c v) := by
  unfold afterStore
  try dsimp only
  repeat' (first
    | intro _ _ _
    | intro _ _
    | intro _
    | with_reducible assumption
    | with_reducible apply adcCtrlWritten_kept
    | with_reducible apply startTrainings_kept
    | with_reducible apply downSub_kept
    | with_reducible apply Kept.ite
    | with_reducible apply Kept.foldl
    | dsimp only
    | split)

theorem inputWritten_kept {z : State} (s : State) (a : RegAcc) (f c i v : Nat) (hK : Kept z s) : Kept z (inputWritten s a f c i v) := by
  unfold inputWritten
  try dsimp only
  repeat' (first
    | with_reducible assumption
    | ((conv => arg 2; arg 33); with_reducible refine Kept.lit ?_ ?_ ?_) <;> [skip; rfl; exact ⟨rfl, rfl, rfl, rfl, rfl, rfl, rfl⟩]
    | with_reducible apply setFld_kept
    | with_reducible apply regFault_kept
    | with_reducible apply assistInput_kept
    | with_reducible apply hostStep_kept
    | with_reducible apply laneDelayWritten_kept
    | with_reducible apply scrubRateWritten_kept
    | with_reducible apply wearHostWritten_kept
    | with_reducible apply streamWritten_kept
    | with_reducible apply Kept.ite
    | dsimp only
    | split)

theorem wideWritten_kept {z : State} (s : State) (a : RegAcc) (r : RegD) (i v : Nat) (high : Bool) (hK : Kept z s) : Kept z (wideWritten s a r i v high) := by
  unfold wideWritten
  try dsimp only
  repeat' (first
    | with_reducible assumption
    | ((conv => arg 2; arg 33); with_reducible refine Kept.lit ?_ ?_ ?_) <;> [skip; rfl; exact ⟨rfl, rfl, rfl, rfl, rfl, rfl, rfl⟩]
    | with_reducible apply setCursor_kept
    | with_reducible apply qpWritten_kept
    | with_reducible apply Kept.ite
    | dsimp only
    | split)

theorem hbWritten_kept {z : State} (s : State) (a : RegAcc) (c v : Nat) (hK : Kept z s) : Kept z (hbWritten s a c v) := by
  unfold hbWritten
  try dsimp only
  repeat' (first
    | with_reducible assumption
    | ((conv => arg 2; arg 33); with_reducible refine Kept.lit ?_ ?_ ?_) <;> [skip; rfl; exact ⟨rfl, rfl, rfl, rfl, rfl, rfl, rfl⟩]
    | with_reducible apply regFault_kept
    | with_reducible apply takeHeartbeat_kept
    | with_reducible apply Kept.ite
    | dsimp only
    | split)

theorem regWrite_kept {z : State} (s : State) (a : RegAcc) (v : Nat) (ok : Bool) (hK : Kept z s) : Kept z (regWrite s a v ok) := by
  unfold regWrite
  try dsimp only
  repeat' (first
    | intro _ _ _
    | intro _ _
    | intro _
    | with_reducible assumption
    | ((conv => arg 2; arg 33); with_reducible refine Kept.lit ?_ ?_ ?_) <;> [skip; rfl; exact ⟨rfl, rfl, rfl, rfl, rfl, rfl, rfl⟩]
    | with_reducible apply setSource_kept
    | with_reducible apply raiseOpen_kept
    | with_reducible apply fuseCmd_kept
    | with_reducible apply rdpWrite_kept
    | with_reducible apply unfenceWrite_kept
    | with_reducible apply doorbell_kept
    | with_reducible apply qpWritten_kept
    | with_reducible apply storeWord_kept
    | with_reducible apply afterStore_kept
    | with_reducible apply inputWritten_kept
    | with_reducible apply wideWritten_kept
    | with_reducible apply hbWritten_kept
    | with_reducible apply Kept.ite
    | dsimp only
    | split)

theorem directRead_kept {z : State} (a : RegAcc) (s : State) (hK : Kept z s) : Kept z (directRead a s) := by
  unfold directRead
  try dsimp only
  repeat' (first
    | with_reducible assumption
    | with_reducible apply emit_kept
    | with_reducible apply regFault_kept
    | with_reducible apply bridgeTake_kept
    | with_reducible apply regRead_kept
    | with_reducible refine regRead_kept_eq (by assumption) ?_
    | with_reducible apply Kept.ite
    | dsimp only
    | split)

theorem directWrite_kept {z : State} (a : RegAcc) (v : Nat) (ok : Bool) (s : State) (hK : Kept z s) : Kept z (directWrite a v ok s) := by
  unfold directWrite
  try dsimp only
  repeat' (first
    | with_reducible assumption
    | with_reducible apply regFault_kept
    | with_reducible apply bridgeTake_kept
    | with_reducible apply regWrite_kept
    | with_reducible apply Kept.ite
    | dsimp only
    | split)

theorem accessEnds_kept {z : State} (s : State) (f : InFlight) (write : Bool) (cold : List (Nat × Nat)) (r : Reply) (hK : Kept z s) : Kept z (accessEnds s f write cold r) := by
  unfold accessEnds
  try dsimp only
  repeat' (first
    | intro _ _ _
    | intro _ _
    | intro _
    | with_reducible assumption
    | with_reducible apply finish_kept
    | with_reducible apply setJob_kept
    | with_reducible apply bridgeTake_kept
    | with_reducible apply Kept.ite
    | with_reducible apply Kept.foldl
    | dsimp only
    | split)

theorem regReads_kept {z : State} (p : Path) (ws : List Nat) (s : State) (l : List (Nat × Nat)) (hK : Kept z s) :
    Kept z (ws.foldl (fun (x : State × List (Nat × Nat)) w => ((regRead x.1 p w).1, x.2 ++ [(w, (regRead x.1 p w).2)])) (s, l)).1 :=
  Kept.foldlFst (fun _ a hy => regRead_kept _ p a hy) hK
theorem cmdRegRead_kept {z : State} (f : InFlight) (s : State) (hK : Kept z s) : Kept z (cmdRegRead f s) := by
  unfold cmdRegRead
  dsimp only
  refine Kept.ite (badParam_kept _ _ _ hK) (Kept.ite (badParam_kept _ _ _ hK) (Kept.ite (endWith_kept _ _ _ _ hK)
    (Kept.ite (setJob_kept _ _ _ hK) ?_)))
  exact accessEnds_kept _ _ _ _ _ (regReads_kept _ _ _ _ hK)

theorem cmdRegReadMulti_kept {z : State} (f : InFlight) (s : State) (hK : Kept z s) : Kept z (cmdRegReadMulti f s) := by
  unfold cmdRegReadMulti
  try dsimp only
  repeat' (first
    | intro _ _ _
    | intro _ _
    | intro _
    | with_reducible assumption
    | with_reducible apply endWith_kept
    | with_reducible apply badParam_kept
    | with_reducible apply setJob_kept
    | with_reducible apply adcPop_kept
    | with_reducible refine adcPop_kept_eq (by assumption) ?_
    | with_reducible apply regRead_kept
    | with_reducible refine regRead_kept_eq (by assumption) ?_
    | with_reducible apply accessEnds_kept
    | with_reducible apply Kept.ite
    | with_reducible apply Kept.foldl
    | dsimp only
    | split)

theorem cmdRegWrite_kept {z : State} (f : InFlight) (s : State) (hK : Kept z s) : Kept z (cmdRegWrite f s) := by
  unfold cmdRegWrite
  try dsimp only
  repeat' (first
    | intro _ _ _
    | intro _ _
    | intro _
    | with_reducible assumption
    | ((conv => arg 2; arg 33); with_reducible refine Kept.lit ?_ ?_ ?_) <;> [skip; rfl; exact ⟨rfl, rfl, rfl, rfl, rfl, rfl, rfl⟩]
    | with_reducible apply endWith_kept
    | with_reducible apply badParam_kept
    | with_reducible apply setJob_kept
    | with_reducible apply regWrite_kept
    | with_reducible apply accessEnds_kept
    | with_reducible apply Kept.ite
    | dsimp only
    | split)

theorem retryBridge_kept {z : State} (s : State) (hK : Kept z s) : Kept z (retryBridge s) := by
  unfold retryBridge
  try dsimp only
  repeat' (first
    | intro _ _ _
    | intro _ _
    | intro _
    | with_reducible assumption
    | ((conv => arg 2; arg 33); with_reducible refine Kept.lit ?_ ?_ ?_) <;> [skip; rfl; exact ⟨rfl, rfl, rfl, rfl, rfl, rfl, rfl⟩]
    | with_reducible apply cmdRegRead_kept
    | with_reducible apply cmdRegReadMulti_kept
    | with_reducible apply cmdRegWrite_kept
    | with_reducible apply Kept.foldl
    | dsimp only
    | split)

theorem execLowWordRead_kept {z : State} (a : RegAcc) (t : Nat) (s : State) (hK : Kept z s) {w0 : State} (eq0 : execLowWordRead a t s = .next w0) : Kept z w0 := by
  unfold execLowWordRead at eq0
  try dsimp only at eq0
  refine Kept.of_next eq0 ?_
  repeat' (first
    | with_reducible assumption
    | with_reducible apply tick_kept
    | with_reducible apply directRead_kept)

theorem execRcRegisterRead_kept {z : State} (a : RegAcc) (t : Nat) (s : State) (hK : Kept z s) {w0 : State} (eq0 : execRcRegisterRead a t s = .next w0) : Kept z w0 := by
  unfold execRcRegisterRead at eq0
  try dsimp only at eq0
  refine Kept.of_next eq0 ?_
  repeat' (first
    | with_reducible assumption
    | with_reducible apply tick_kept
    | with_reducible apply directRead_kept)

theorem execAdcQueueRead_kept {z : State} (a : RegAcc) (t : Nat) (s : State) (hK : Kept z s) {w0 : State} (eq0 : execAdcQueueRead a t s = .next w0) : Kept z w0 := by
  unfold execAdcQueueRead at eq0
  try dsimp only at eq0
  refine Kept.of_next eq0 ?_
  repeat' (first
    | with_reducible assumption
    | with_reducible apply tick_kept
    | with_reducible apply directRead_kept)

theorem execHighWordWrite_kept {z : State} (a : RegAcc) (v t : Nat) (s : State) (hK : Kept z s) {w0 : State} (eq0 : execHighWordWrite a v t s = .next w0) : Kept z w0 := by
  unfold execHighWordWrite at eq0
  try dsimp only at eq0
  refine Kept.of_next eq0 ?_
  repeat' (first
    | with_reducible assumption
    | with_reducible apply tick_kept
    | with_reducible apply directWrite_kept)

theorem execRegisterWrite_kept {z : State} (a : RegAcc) (v t : Nat) (s : State) (hK : Kept z s) {w0 : State} (eq0 : execRegisterWrite a v t s = .next w0) : Kept z w0 := by
  unfold execRegisterWrite at eq0
  try dsimp only at eq0
  refine Kept.of_next eq0 ?_
  repeat' (first
    | with_reducible assumption
    | with_reducible apply tick_kept
    | with_reducible apply directWrite_kept)

theorem execQpEnable_kept {z : State} (a : RegAcc) (v t : Nat) (s : State) (hK : Kept z s) {w0 : State} (eq0 : execQpEnable a v t s = .next w0) : Kept z w0 := by
  unfold execQpEnable at eq0
  try dsimp only at eq0
  refine Kept.of_next eq0 ?_
  repeat' (first
    | with_reducible assumption
    | with_reducible apply tick_kept
    | with_reducible apply directWrite_kept)

theorem execQpDisable_kept {z : State} (a : RegAcc) (v t : Nat) (s : State) (hK : Kept z s) {w0 : State} (eq0 : execQpDisable a v t s = .next w0) : Kept z w0 := by
  unfold execQpDisable at eq0
  try dsimp only at eq0
  refine Kept.of_next eq0 ?_
  repeat' (first
    | with_reducible assumption
    | with_reducible apply tick_kept
    | with_reducible apply directWrite_kept)

theorem execSqTailDoorbell_kept {z : State} (a : RegAcc) (v t : Nat) (s : State) (hK : Kept z s) {w0 : State} (eq0 : execSqTailDoorbell a v t s = .next w0) : Kept z w0 := by
  unfold execSqTailDoorbell at eq0
  try dsimp only at eq0
  refine Kept.of_next eq0 ?_
  repeat' (first
    | with_reducible assumption
    | with_reducible apply tick_kept
    | with_reducible apply directWrite_kept)

theorem execCqHeadDoorbell_kept {z : State} (a : RegAcc) (v t : Nat) (s : State) (hK : Kept z s) {w0 : State} (eq0 : execCqHeadDoorbell a v t s = .next w0) : Kept z w0 := by
  unfold execCqHeadDoorbell at eq0
  try dsimp only at eq0
  refine Kept.of_next eq0 ?_
  repeat' (first
    | with_reducible assumption
    | with_reducible apply tick_kept
    | with_reducible apply directWrite_kept)

theorem execDdrLaneDelay_kept {z : State} (a : RegAcc) (v t : Nat) (s : State) (hK : Kept z s) {w0 : State} (eq0 : execDdrLaneDelay a v t s = .next w0) : Kept z w0 := by
  unfold execDdrLaneDelay at eq0
  try dsimp only at eq0
  refine Kept.of_next eq0 ?_
  repeat' (first
    | with_reducible assumption
    | with_reducible apply tick_kept
    | with_reducible apply directWrite_kept)

theorem execDdrScrubHostRate_kept {z : State} (a : RegAcc) (v t : Nat) (s : State) (hK : Kept z s) {w0 : State} (eq0 : execDdrScrubHostRate a v t s = .next w0) : Kept z w0 := by
  unfold execDdrScrubHostRate at eq0
  try dsimp only at eq0
  refine Kept.of_next eq0 ?_
  repeat' (first
    | with_reducible assumption
    | with_reducible apply tick_kept
    | with_reducible apply directWrite_kept)

theorem execFtlStream_kept {z : State} (a : RegAcc) (v t : Nat) (s : State) (hK : Kept z s) {w0 : State} (eq0 : execFtlStream a v t s = .next w0) : Kept z w0 := by
  unfold execFtlStream at eq0
  try dsimp only at eq0
  refine Kept.of_next eq0 ?_
  repeat' (first
    | with_reducible assumption
    | with_reducible apply tick_kept
    | with_reducible apply directWrite_kept)

theorem execFtlWearHost_kept {z : State} (a : RegAcc) (v t : Nat) (s : State) (hK : Kept z s) {w0 : State} (eq0 : execFtlWearHost a v t s = .next w0) : Kept z w0 := by
  unfold execFtlWearHost at eq0
  try dsimp only at eq0
  refine Kept.of_next eq0 ?_
  repeat' (first
    | with_reducible assumption
    | with_reducible apply tick_kept
    | with_reducible apply directWrite_kept)

theorem execGauHostSoc_kept {z : State} (a : RegAcc) (v t : Nat) (s : State) (hK : Kept z s) {w0 : State} (eq0 : execGauHostSoc a v t s = .next w0) : Kept z w0 := by
  unfold execGauHostSoc at eq0
  try dsimp only at eq0
  refine Kept.of_next eq0 ?_
  repeat' (first
    | with_reducible assumption
    | with_reducible apply tick_kept
    | with_reducible apply directWrite_kept)

theorem execPsqHostStep_kept {z : State} (a : RegAcc) (v t : Nat) (s : State) (hK : Kept z s) {w0 : State} (eq0 : execPsqHostStep a v t s = .next w0) : Kept z w0 := by
  unfold execPsqHostStep at eq0
  try dsimp only at eq0
  refine Kept.of_next eq0 ?_
  repeat' (first
    | with_reducible assumption
    | with_reducible apply tick_kept
    | with_reducible apply directWrite_kept)

theorem execAdcStart_kept {z : State} (a : RegAcc) (v t : Nat) (s : State) (hK : Kept z s) {w0 : State} (eq0 : execAdcStart a v t s = .next w0) : Kept z w0 := by
  unfold execAdcStart at eq0
  try dsimp only at eq0
  refine Kept.of_next eq0 ?_
  repeat' (first
    | with_reducible assumption
    | with_reducible apply tick_kept
    | with_reducible apply directWrite_kept)

theorem execAdcStop_kept {z : State} (a : RegAcc) (v t : Nat) (s : State) (hK : Kept z s) {w0 : State} (eq0 : execAdcStop a v t s = .next w0) : Kept z w0 := by
  unfold execAdcStop at eq0
  try dsimp only at eq0
  refine Kept.of_next eq0 ?_
  repeat' (first
    | with_reducible assumption
    | with_reducible apply tick_kept
    | with_reducible apply directWrite_kept)

theorem execTwiUnfence_kept {z : State} (a : RegAcc) (v : Nat) (ok : Bool) (t : Nat) (s : State) (hK : Kept z s) {w0 : State} (eq0 : execTwiUnfence a v ok t s = .next w0) : Kept z w0 := by
  unfold execTwiUnfence at eq0
  try dsimp only at eq0
  refine Kept.of_next eq0 ?_
  repeat' (first
    | with_reducible assumption
    | with_reducible apply tick_kept
    | with_reducible apply directWrite_kept)

theorem execColdFrameBridgeAccess_kept {z : State} (t : Nat) (s : State) (hK : Kept z s) {w0 : State} (eq0 : execColdFrameBridgeAccess t s = .next w0) : Kept z w0 := by
  unfold execColdFrameBridgeAccess at eq0
  try dsimp only at eq0
  refine Kept.of_next eq0 ?_
  repeat' (first
    | intro _ _ _
    | intro _ _
    | intro _
    | with_reducible assumption
    | ((conv => arg 2; arg 33); with_reducible refine Kept.lit ?_ ?_ ?_) <;> [skip; rfl; exact ⟨rfl, rfl, rfl, rfl, rfl, rfl, rfl⟩]
    | with_reducible apply emit_kept
    | with_reducible apply tick_kept
    | with_reducible apply finish_kept
    | with_reducible apply retryBridge_kept
    | with_reducible apply Kept.ite
    | dsimp only
    | split)

theorem execRegRead_kept {z : State} (c : TrellisCmd) (s : State) (hK : Kept z s) {w0 : State} (eq0 : execRegRead c s = .next w0) : Kept z w0 := by
  unfold execRegRead at eq0
  try dsimp only at eq0
  refine Kept.of_next eq0 ?_
  repeat' (first
    | intro _ _ _
    | intro _ _
    | intro _
    | with_reducible assumption
    | with_reducible apply submit_kept
    | with_reducible apply cmdRegRead_kept)

theorem execRegWrite_kept {z : State} (c : TrellisCmd) (s : State) (hK : Kept z s) {w0 : State} (eq0 : execRegWrite c s = .next w0) : Kept z w0 := by
  unfold execRegWrite at eq0
  try dsimp only at eq0
  refine Kept.of_next eq0 ?_
  repeat' (first
    | intro _ _ _
    | intro _ _
    | intro _
    | with_reducible assumption
    | with_reducible apply submit_kept
    | with_reducible apply cmdRegWrite_kept)

theorem execRegReadMulti_kept {z : State} (c : TrellisCmd) (s : State) (hK : Kept z s) {w0 : State} (eq0 : execRegReadMulti c s = .next w0) : Kept z w0 := by
  unfold execRegReadMulti at eq0
  try dsimp only at eq0
  refine Kept.of_next eq0 ?_
  repeat' (first
    | intro _ _ _
    | intro _ _
    | intro _
    | with_reducible assumption
    | with_reducible apply submit_kept
    | with_reducible apply cmdRegReadMulti_kept)

/-! ### Commands -/

theorem effectOf_kept {z : State} (op : Nat) (f : InFlight) (s : State) (hK : Kept z s) : Kept z (effectOf op f s) := by
  unfold effectOf
  split
  · exact cmdEcho_kept _ _ hK
  · exact cmdIdentify_kept _ _ hK
  · exact cmdRegRead_kept _ _ hK
  · exact cmdRegWrite_kept _ _ hK
  · exact cmdRegReadMulti_kept _ _ hK
  · exact cmdAllotCreate_kept _ _ hK
  · exact cmdAllotResize_kept _ _ hK
  · exact cmdAllotDelete_kept _ _ hK
  · exact cmdAllotBind_kept _ _ hK
  · exact cmdAllotQuery_kept _ _ hK
  · exact cmdExposureQuery_kept _ _ hK
  · exact cmdDripPolicySet_kept _ _ hK
  · exact cmdFlushRange_kept _ _ hK
  · exact cmdHarvestPlanLoad_kept _ _ hK
  · exact cmdFullSave_kept _ _ hK
  · exact cmdReplantOrderLoad_kept _ _ hK
  · exact cmdPair_kept _ _ hK
  · exact cmdUnpair_kept _ _ hK
  · exact cmdFailover_kept _ _ hK
  · exact cmdResync_kept _ _ hK
  · exact cmdTallyCompare_kept _ _ hK
  · exact cmdPackInfo_kept _ _ hK
  · exact cmdGaugeRead_kept _ _ hK
  · exact cmdGaugeRaw_kept _ _ hK
  · exact cmdRehearsalRun_kept _ _ hK
  · exact cmdPowerStateReq_kept _ _ hK
  · exact cmdRailTableLoad_kept _ _ hK
  · exact cmdSlaveSeqCmd_kept _ _ hK
  · exact cmdFaultStatus_kept _ _ hK
  · exact cmdFaultClear_kept _ _ hK
  · exact cmdFaultInject_kept _ _ hK
  · exact cmdLogCursorSet_kept _ _ hK
  · exact cmdLogReadWindow_kept _ _ hK
  · exact cmdLogClear_kept _ _ hK
  · exact cmdFwStageBegin_kept _ _ hK
  · exact cmdFwStageData_kept _ _ hK
  · exact cmdFwStageEnd_kept _ _ hK
  · exact cmdFwActivateAt_kept _ _ hK
  · exact cmdFwConfirm_kept _ _ hK
  · exact cmdKeyLabelSet_kept _ _ hK
  · exact cmdRecordSeal_kept _ _ hK
  · exact cmdRecordOpen_kept _ _ hK
  · exact cmdAesBlock_kept _ _ hK
  · exact cmdTestSchedule_kept _ _ hK
  · exact cmdTestResult_kept _ _ hK
  · exact cmdFuncModeSet_kept _ _ hK
  · exact cmdFuncModeQuery_kept _ _ hK
  · exact cmdLateStatusFetch_kept _ _ hK
  · exact hK
theorem submitPacket_kept {z : State} (c : TrellisCmd) (s : State) (hK : Kept z s) : Kept z (submitPacket c s) :=
  submit_kept _ _ _ _ (fun f x h => effectOf_kept _ f x h) hK

theorem startCommand_kept {z : State} (f : InFlight) (s : State) (hK : Kept z s) : Kept z (startCommand f s) := by
  unfold startCommand
  try dsimp only
  repeat' (first
    | intro _ _ _
    | intro _ _
    | intro _
    | with_reducible assumption
    | with_reducible apply effectOf_kept
    | with_reducible apply begin_kept)

theorem startReady_kept {z : State} (s : State) (hK : Kept z s) : Kept z (startReady s) := by
  unfold startReady
  try dsimp only
  repeat' (first
    | intro _ _ _
    | intro _ _
    | intro _
    | with_reducible assumption
    | ((conv => arg 2; arg 33); with_reducible refine Kept.lit ?_ ?_ ?_) <;> [skip; rfl; exact ⟨rfl, rfl, rfl, rfl, rfl, rfl, rfl⟩]
    | with_reducible apply startCommand_kept
    | with_reducible apply Kept.ite
    | with_reducible apply Kept.foldl
    | dsimp only
    | split)

/-! ### Carriers -/

theorem replyWritten_kept {z : State} (s : State) (n : Nat) (r : Reply) (hK : Kept z s) : Kept z (replyWritten s n r) := by
  unfold replyWritten
  try dsimp only
  repeat' (first
    | intro _ _ _
    | intro _ _
    | intro _
    | with_reducible assumption
    | ((conv => arg 2; arg 33); with_reducible refine Kept.lit ?_ ?_ ?_) <;> [skip; rfl; exact ⟨rfl, rfl, rfl, rfl, rfl, rfl, rfl⟩]
    | with_reducible apply delivered_kept
    | dsimp only
    | split)

theorem execQpFetch_kept {z : State} (entry payload : List Byte) (ok payOk : Bool) (t : Nat) (s : State) (hK : Kept z s) {w0 : State} (eq0 : execQpFetch entry payload ok payOk t s = .next w0) : Kept z w0 := by
  unfold execQpFetch at eq0
  try dsimp only at eq0
  refine Kept.of_next eq0 ?_
  repeat' (first
    | intro _ _ _
    | intro _ _
    | intro _
    | with_reducible assumption
    | ((conv => arg 2; arg 33); with_reducible refine Kept.lit ?_ ?_ ?_) <;> [skip; rfl; exact ⟨rfl, rfl, rfl, rfl, rfl, rfl, rfl⟩]
    | with_reducible apply tick_kept
    | with_reducible apply setQp_kept
    | with_reducible apply submitPacket_kept
    | with_reducible apply Kept.ite
    | dsimp only
    | split)

theorem execQpReplyWrite_kept {z : State} (n : Nat) (ok : Bool) (t : Nat) (s : State) (hK : Kept z s) {w0 : State} (eq0 : execQpReplyWrite n ok t s = .next w0) : Kept z w0 := by
  unfold execQpReplyWrite at eq0
  try dsimp only at eq0
  refine Kept.of_next eq0 ?_
  repeat' (first
    | with_reducible assumption
    | ((conv => arg 2; arg 33); with_reducible refine Kept.lit ?_ ?_ ?_) <;> [skip; rfl; exact ⟨rfl, rfl, rfl, rfl, rfl, rfl, rfl⟩]
    | with_reducible apply emit_kept
    | with_reducible apply tick_kept
    | with_reducible apply setQp_kept
    | with_reducible apply judgeIdle_kept
    | with_reducible apply replyWritten_kept
    | with_reducible apply Kept.ite
    | dsimp only
    | split)

theorem execMailboxTrellisPacket_kept {z : State} (op : Nat) (m : MboxReq) (t : Nat) (s : State) (hK : Kept z s) {w0 : State} (eq0 : execMailboxTrellisPacket op m t s = .next w0) : Kept z w0 := by
  unfold execMailboxTrellisPacket at eq0
  try dsimp only at eq0
  refine Kept.of_next eq0 ?_
  repeat' (first
    | intro _ _ _
    | intro _ _
    | intro _
    | with_reducible assumption
    | with_reducible apply emit_kept
    | with_reducible apply tick_kept
    | with_reducible apply submitPacket_kept
    | with_reducible apply Kept.ite
    | dsimp only
    | split)

theorem execMctpTrellisMessage_kept {z : State} (h : MctpHead) (data : List Byte) (t : Nat) (s : State) (hK : Kept z s) {w0 : State} (eq0 : execMctpTrellisMessage h data t s = .next w0) : Kept z w0 := by
  unfold execMctpTrellisMessage at eq0
  try dsimp only at eq0
  refine Kept.of_next eq0 ?_
  repeat' (first
    | intro _ _ _
    | intro _ _
    | intro _
    | with_reducible assumption
    | ((conv => arg 2; arg 33); with_reducible refine Kept.lit ?_ ?_ ?_) <;> [skip; rfl; exact ⟨rfl, rfl, rfl, rfl, rfl, rfl, rfl⟩]
    | with_reducible apply tick_kept
    | with_reducible apply submitPacket_kept
    | with_reducible apply Kept.ite
    | dsimp only
    | split)

end Sys2Proof.Machine
end

