-- ==== Sys2Proof/Laws/Registers.lean ====
section
/-! SUPPORT. What a look-up in the register map gives, and what a direct access does that reaches its register. -/

namespace Sys2Proof.Machine

open Sys2Proof

/-- What `regFind` answers: a register of the table at the offset, or one whose high word lies there. -/
theorem regFind_some {s : State} {a i : Nat} {r : RegD} {high : Bool} (h : regFind s a = some (r, i, high)) :
    r ∈ regTable ∧ i = (regCanon a).2 ∧ (high = false → r.addr = (regCanon a).1)
      ∧ (high = true → r.wide = true ∧ r.addr + 4 = (regCanon a).1) := by
  unfold regFind at h
  rcases hc : regCanon a with ⟨c, j⟩
  rw [hc] at h
  simp only at h
  split at h
  · cases h
  · split at h
    · rename_i r' hf
      simp only [Option.some.injEq, Prod.mk.injEq] at h
      obtain ⟨rfl, rfl, rfl⟩ := h
      have := List.find?_some hf
      exact ⟨List.mem_of_find?_eq_some hf, rfl, fun _ => by simpa using this, nofun⟩
    · simp only [Option.map_eq_some_iff] at h
      obtain ⟨r', hf, h⟩ := h
      simp only [Prod.mk.injEq] at h
      obtain ⟨rfl, rfl, rfl⟩ := h
      have := List.find?_some hf
      exact ⟨List.mem_of_find?_eq_some hf, rfl, nofun, fun _ => by simpa using this⟩

/-- What `lands` says of a direct write that reaches a register. -/
theorem lands_some {s : State} {a : RegAcc} {c i : Nat} {high : Bool} (h : lands s a = some (c, i, high)) :
    ∃ r, regFind s a.off = some (r, i, high) ∧ r.addr = c ∧ reachable s a = true ∧ malformed a = false
      ∧ (bridged a = true → bridgeFree s = true)
      ∧ (a.full = true ∨ (regCanon a.off).1 = rTrlQpSqTailDb ∨ (regCanon a.off).1 = rTrlQpCqHeadDb) := by
  simp only [lands] at h
  split at h
  · rename_i hg
    simp only [Option.map_eq_some_iff, Prod.mk.injEq] at h
    obtain ⟨⟨r, j, b⟩, hf, rfl, rfl, rfl⟩ := h
    simp only [Bool.and_eq_true, Bool.not_eq_true', Bool.or_eq_true, beq_iff_eq] at hg
    obtain ⟨⟨⟨h1, h2⟩, h3⟩, h4⟩ := hg
    refine ⟨r, hf, rfl, h1, h2, fun hb => ?_, ?_⟩
    · rcases h4 with h4 | h4
      · rw [hb] at h4; cases h4
      · exact h4
    · rcases h3 with (h3 | h3) | h3
      · exact .inl h3
      · exact .inr (.inl h3)
      · exact .inr (.inr h3)
  · cases h

/-- A direct write that reaches its register writes it, and takes a place in the bridge where it crosses it. -/
theorem directWrite_lands {s : State} {a : RegAcc} (v : Nat) (ok : Bool) (h : (lands s a).isSome = true) :
    directWrite a v ok s = landed a true v (regWrite s a v ok) := by
  obtain ⟨⟨c, i, high⟩, h⟩ := Option.isSome_iff_exists.mp h
  obtain ⟨r, hf, hr, h1, h2, h3, h4⟩ := lands_some h
  have hg : (!a.full && !((regCanon a.off).1 == rTrlQpSqTailDb || (regCanon a.off).1 == rTrlQpCqHeadDb)) = false := by
    rcases h4 with h4 | h4 | h4 <;> simp [h4]
  simp only [directWrite, h1, h2, hg, landed, Bool.not_true, Bool.false_eq_true, if_false]
  by_cases hb : bridged a = true
  · simp only [hb, h3 hb, if_true, Bool.not_true, Bool.false_eq_true, if_false]
  · simp only [hb, Bool.false_eq_true, if_false]

end Sys2Proof.Machine
end

