-- ==== Sys2Proof/Laws/State.lean ====
section
/-! SUPPORT. Look-ups in a table after an update, and for each update of one part of the state one lemma per field: the other
fields stay. -/

namespace Sys2Proof.Machine

open Sys2Proof

/-- The entry just set is found. -/
@[simp] theorem tget_tset_same {α : Type} (t : Tbl α) (k : Nat) (v : α) : tget (tset t k v) k = some v := by
  induction t with
  | nil => simp [tset, tget]
  | cons p r ih =>
    obtain ⟨j, w⟩ := p
    simp only [tset]
    split
    · simp [tget]
    · split
      · simp [tget]
      · rename_i h
        simp [tget, Ne.symm h, ih]

/-- Every other entry stays. -/
theorem tget_tset_other {α : Type} (t : Tbl α) {j k : Nat} (v : α) (h : j ≠ k) : tget (tset t k v) j = tget t j := by
  induction t with
  | nil => simp [tset, tget, Ne.symm h]
  | cons p r ih =>
    obtain ⟨i, w⟩ := p
    simp only [tset]
    split
    · simp [tget, Ne.symm h]
    · split
      · rename_i e
        subst e
        simp [tget, Ne.symm h]
      · simp only [tget, ih]

/-- The later of two updates of one entry stands. -/
@[simp] theorem tset_tset_same {α : Type} (t : Tbl α) (k : Nat) (v w : α) : tset (tset t k v) k w = tset t k w := by
  induction t with
  | nil => simp [tset]
  | cons p r ih =>
    obtain ⟨j, x⟩ := p
    simp only [tset]
    split
    · simp [tset]
    · split
      · simp [tset]
      · simp only [tset, *, if_false]

/-- A deleted entry is not found. -/
@[simp] theorem tget_tdel_same {α : Type} (t : Tbl α) (k : Nat) : tget (tdel t k) k = none := by
  induction t with
  | nil => rfl
  | cons p r ih =>
    obtain ⟨j, w⟩ := p
    simp only [tdel, List.filter_cons] at ih ⊢
    split
    · rename_i h
      have : j ≠ k := by simpa using h
      simp [tget, this, ih]
    · exact ih

/-- The sublink just changed. -/
@[simp] theorem subl_modSub_same (s : State) (k : Nat) (f : Sublink → Sublink) : subl (modSub s k f) k = f (subl s k) := by
  simp [subl, modSub, tmod, tgetD]

/-- The function just set. -/
@[simp] theorem func_setFunc_same (s : State) (f : Nat) (x : Func) : func (setFunc s f x) f = x := by
  simp [func, setFunc, tgetD]

/-- The source just set. -/
@[simp] theorem source_setSource_same (s : State) (n : Nat) (x : Source) : source (setSource s n x) n = x := by
  simp [source, setSource, tgetD]

/-- The queue pair just set. -/
@[simp] theorem qp_setQp_same (s : State) (n : Nat) (q : QP) : qp (setQp s n q) n = q := by
  simp [qp, setQp, tgetD]

/-- The bed just set. -/
@[simp] theorem bed_setBed_same (s : State) (b : Nat) (x : Bed) : bed (setBed s b x) b = x := by
  simp [bed, setBed, tgetD]

@[simp] theorem tick_now (s : State) (t : Nat) : (tick s t).now = max s.now t := rfl
@[simp] theorem emit_out (s : State) (o : Out) : (emit s o).out = o :: s.out := rfl
@[simp] theorem drew_draws (s : State) : (drew s).draws = s.draws + 1 := rfl
@[simp] theorem setDev_state (s : State) (d : DevState) (c : Cause) : (setDev s d c).dev.state = d := rfl

@[simp] theorem tick_dev (s : State) (t : Nat) : (tick s t).dev = s.dev := rfl
@[simp] theorem tick_trl (s : State) (t : Nat) : (tick s t).trl = s.trl := rfl
@[simp] theorem tick_paths (s : State) (t : Nat) : (tick s t).paths = s.paths := rfl
@[simp] theorem tick_d2d (s : State) (t : Nat) : (tick s t).d2d = s.d2d := rfl
@[simp] theorem tick_cxl (s : State) (t : Nat) : (tick s t).cxl = s.cxl := rfl
@[simp] theorem tick_alt (s : State) (t : Nat) : (tick s t).alt = s.alt := rfl
@[simp] theorem tick_mem (s : State) (t : Nat) : (tick s t).mem = s.mem := rfl
@[simp] theorem tick_drp (s : State) (t : Nat) : (tick s t).drp = s.drp := rfl
@[simp] theorem tick_hrv (s : State) (t : Nat) : (tick s t).hrv = s.hrv := rfl
@[simp] theorem tick_ftl (s : State) (t : Nat) : (tick s t).ftl = s.ftl := rfl
@[simp] theorem tick_exl (s : State) (t : Nat) : (tick s t).exl = s.exl := rfl
@[simp] theorem tick_ldg (s : State) (t : Nat) : (tick s t).ldg = s.ldg := rfl
@[simp] theorem tick_allotx (s : State) (t : Nat) : (tick s t).allotx = s.allotx := rfl
@[simp] theorem tick_tin (s : State) (t : Nat) : (tick s t).tin = s.tin := rfl
@[simp] theorem tick_mpx (s : State) (t : Nat) : (tick s t).mpx = s.mpx := rfl
@[simp] theorem tick_gau (s : State) (t : Nat) : (tick s t).gau = s.gau := rfl
@[simp] theorem tick_ddrs (s : State) (t : Nat) : (tick s t).ddrs = s.ddrs := rfl
@[simp] theorem tick_psq (s : State) (t : Nat) : (tick s t).psq = s.psq := rfl
@[simp] theorem tick_nvm (s : State) (t : Nat) : (tick s t).nvm = s.nvm := rfl
@[simp] theorem tick_adc (s : State) (t : Nat) : (tick s t).adc = s.adc := rfl
@[simp] theorem tick_twi (s : State) (t : Nat) : (tick s t).twi = s.twi := rfl
@[simp] theorem tick_flt (s : State) (t : Nat) : (tick s t).flt = s.flt := rfl
@[simp] theorem tick_log (s : State) (t : Nat) : (tick s t).log = s.log := rfl
@[simp] theorem tick_fus (s : State) (t : Nat) : (tick s t).fus = s.fus := rfl
@[simp] theorem tick_krc (s : State) (t : Nat) : (tick s t).krc = s.krc := rfl
@[simp] theorem tick_fwu (s : State) (t : Nat) : (tick s t).fwu = s.fwu := rfl
@[simp] theorem tick_ist (s : State) (t : Nat) : (tick s t).ist = s.ist := rfl
@[simp] theorem tick_pin (s : State) (t : Nat) : (tick s t).pin = s.pin := rfl
@[simp] theorem tick_regs (s : State) (t : Nat) : (tick s t).regs = s.regs := rfl
@[simp] theorem tick_draws (s : State) (t : Nat) : (tick s t).draws = s.draws := rfl
@[simp] theorem tick_out (s : State) (t : Nat) : (tick s t).out = s.out := rfl
@[simp] theorem tick_pending (s : State) (t : Nat) : (tick s t).pending = s.pending := rfl

@[simp] theorem emit_dev (s : State) (o : Out) : (emit s o).dev = s.dev := rfl
@[simp] theorem emit_trl (s : State) (o : Out) : (emit s o).trl = s.trl := rfl
@[simp] theorem emit_paths (s : State) (o : Out) : (emit s o).paths = s.paths := rfl
@[simp] theorem emit_d2d (s : State) (o : Out) : (emit s o).d2d = s.d2d := rfl
@[simp] theorem emit_cxl (s : State) (o : Out) : (emit s o).cxl = s.cxl := rfl
@[simp] theorem emit_alt (s : State) (o : Out) : (emit s o).alt = s.alt := rfl
@[simp] theorem emit_mem (s : State) (o : Out) : (emit s o).mem = s.mem := rfl
@[simp] theorem emit_drp (s : State) (o : Out) : (emit s o).drp = s.drp := rfl
@[simp] theorem emit_hrv (s : State) (o : Out) : (emit s o).hrv = s.hrv := rfl
@[simp] theorem emit_ftl (s : State) (o : Out) : (emit s o).ftl = s.ftl := rfl
@[simp] theorem emit_exl (s : State) (o : Out) : (emit s o).exl = s.exl := rfl
@[simp] theorem emit_ldg (s : State) (o : Out) : (emit s o).ldg = s.ldg := rfl
@[simp] theorem emit_allotx (s : State) (o : Out) : (emit s o).allotx = s.allotx := rfl
@[simp] theorem emit_tin (s : State) (o : Out) : (emit s o).tin = s.tin := rfl
@[simp] theorem emit_mpx (s : State) (o : Out) : (emit s o).mpx = s.mpx := rfl
@[simp] theorem emit_gau (s : State) (o : Out) : (emit s o).gau = s.gau := rfl
@[simp] theorem emit_ddrs (s : State) (o : Out) : (emit s o).ddrs = s.ddrs := rfl
@[simp] theorem emit_psq (s : State) (o : Out) : (emit s o).psq = s.psq := rfl
@[simp] theorem emit_nvm (s : State) (o : Out) : (emit s o).nvm = s.nvm := rfl
@[simp] theorem emit_adc (s : State) (o : Out) : (emit s o).adc = s.adc := rfl
@[simp] theorem emit_twi (s : State) (o : Out) : (emit s o).twi = s.twi := rfl
@[simp] theorem emit_flt (s : State) (o : Out) : (emit s o).flt = s.flt := rfl
@[simp] theorem emit_log (s : State) (o : Out) : (emit s o).log = s.log := rfl
@[simp] theorem emit_fus (s : State) (o : Out) : (emit s o).fus = s.fus := rfl
@[simp] theorem emit_krc (s : State) (o : Out) : (emit s o).krc = s.krc := rfl
@[simp] theorem emit_fwu (s : State) (o : Out) : (emit s o).fwu = s.fwu := rfl
@[simp] theorem emit_ist (s : State) (o : Out) : (emit s o).ist = s.ist := rfl
@[simp] theorem emit_pin (s : State) (o : Out) : (emit s o).pin = s.pin := rfl
@[simp] theorem emit_regs (s : State) (o : Out) : (emit s o).regs = s.regs := rfl
@[simp] theorem emit_now (s : State) (o : Out) : (emit s o).now = s.now := rfl
@[simp] theorem emit_draws (s : State) (o : Out) : (emit s o).draws = s.draws := rfl
@[simp] theorem emit_pending (s : State) (o : Out) : (emit s o).pending = s.pending := rfl

@[simp] theorem drew_dev (s : State) : (drew s).dev = s.dev := rfl
@[simp] theorem drew_trl (s : State) : (drew s).trl = s.trl := rfl
@[simp] theorem drew_paths (s : State) : (drew s).paths = s.paths := rfl
@[simp] theorem drew_d2d (s : State) : (drew s).d2d = s.d2d := rfl
@[simp] theorem drew_cxl (s : State) : (drew s).cxl = s.cxl := rfl
@[simp] theorem drew_alt (s : State) : (drew s).alt = s.alt := rfl
@[simp] theorem drew_mem (s : State) : (drew s).mem = s.mem := rfl
@[simp] theorem drew_drp (s : State) : (drew s).drp = s.drp := rfl
@[simp] theorem drew_hrv (s : State) : (drew s).hrv = s.hrv := rfl
@[simp] theorem drew_ftl (s : State) : (drew s).ftl = s.ftl := rfl
@[simp] theorem drew_exl (s : State) : (drew s).exl = s.exl := rfl
@[simp] theorem drew_ldg (s : State) : (drew s).ldg = s.ldg := rfl
@[simp] theorem drew_allotx (s : State) : (drew s).allotx = s.allotx := rfl
@[simp] theorem drew_tin (s : State) : (drew s).tin = s.tin := rfl
@[simp] theorem drew_mpx (s : State) : (drew s).mpx = s.mpx := rfl
@[simp] theorem drew_gau (s : State) : (drew s).gau = s.gau := rfl
@[simp] theorem drew_ddrs (s : State) : (drew s).ddrs = s.ddrs := rfl
@[simp] theorem drew_psq (s : State) : (drew s).psq = s.psq := rfl
@[simp] theorem drew_nvm (s : State) : (drew s).nvm = s.nvm := rfl
@[simp] theorem drew_adc (s : State) : (drew s).adc = s.adc := rfl
@[simp] theorem drew_twi (s : State) : (drew s).twi = s.twi := rfl
@[simp] theorem drew_flt (s : State) : (drew s).flt = s.flt := rfl
@[simp] theorem drew_log (s : State) : (drew s).log = s.log := rfl
@[simp] theorem drew_fus (s : State) : (drew s).fus = s.fus := rfl
@[simp] theorem drew_krc (s : State) : (drew s).krc = s.krc := rfl
@[simp] theorem drew_fwu (s : State) : (drew s).fwu = s.fwu := rfl
@[simp] theorem drew_ist (s : State) : (drew s).ist = s.ist := rfl
@[simp] theorem drew_pin (s : State) : (drew s).pin = s.pin := rfl
@[simp] theorem drew_regs (s : State) : (drew s).regs = s.regs := rfl
@[simp] theorem drew_now (s : State) : (drew s).now = s.now := rfl
@[simp] theorem drew_out (s : State) : (drew s).out = s.out := rfl
@[simp] theorem drew_pending (s : State) : (drew s).pending = s.pending := rfl

@[simp] theorem setReg_dev (s : State) (a n : Nat) : (setReg s a n).dev = s.dev := rfl
@[simp] theorem setReg_trl (s : State) (a n : Nat) : (setReg s a n).trl = s.trl := rfl
@[simp] theorem setReg_paths (s : State) (a n : Nat) : (setReg s a n).paths = s.paths := rfl
@[simp] theorem setReg_d2d (s : State) (a n : Nat) : (setReg s a n).d2d = s.d2d := rfl
@[simp] theorem setReg_cxl (s : State) (a n : Nat) : (setReg s a n).cxl = s.cxl := rfl
@[simp] theorem setReg_alt (s : State) (a n : Nat) : (setReg s a n).alt = s.alt := rfl
@[simp] theorem setReg_mem (s : State) (a n : Nat) : (setReg s a n).mem = s.mem := rfl
@[simp] theorem setReg_drp (s : State) (a n : Nat) : (setReg s a n).drp = s.drp := rfl
@[simp] theorem setReg_hrv (s : State) (a n : Nat) : (setReg s a n).hrv = s.hrv := rfl
@[simp] theorem setReg_ftl (s : State) (a n : Nat) : (setReg s a n).ftl = s.ftl := rfl
@[simp] theorem setReg_exl (s : State) (a n : Nat) : (setReg s a n).exl = s.exl := rfl
@[simp] theorem setReg_ldg (s : State) (a n : Nat) : (setReg s a n).ldg = s.ldg := rfl
@[simp] theorem setReg_allotx (s : State) (a n : Nat) : (setReg s a n).allotx = s.allotx := rfl
@[simp] theorem setReg_tin (s : State) (a n : Nat) : (setReg s a n).tin = s.tin := rfl
@[simp] theorem setReg_mpx (s : State) (a n : Nat) : (setReg s a n).mpx = s.mpx := rfl
@[simp] theorem setReg_gau (s : State) (a n : Nat) : (setReg s a n).gau = s.gau := rfl
@[simp] theorem setReg_ddrs (s : State) (a n : Nat) : (setReg s a n).ddrs = s.ddrs := rfl
@[simp] theorem setReg_psq (s : State) (a n : Nat) : (setReg s a n).psq = s.psq := rfl
@[simp] theorem setReg_nvm (s : State) (a n : Nat) : (setReg s a n).nvm = s.nvm := rfl
@[simp] theorem setReg_adc (s : State) (a n : Nat) : (setReg s a n).adc = s.adc := rfl
@[simp] theorem setReg_twi (s : State) (a n : Nat) : (setReg s a n).twi = s.twi := rfl
@[simp] theorem setReg_flt (s : State) (a n : Nat) : (setReg s a n).flt = s.flt := rfl
@[simp] theorem setReg_log (s : State) (a n : Nat) : (setReg s a n).log = s.log := rfl
@[simp] theorem setReg_fus (s : State) (a n : Nat) : (setReg s a n).fus = s.fus := rfl
@[simp] theorem setReg_krc (s : State) (a n : Nat) : (setReg s a n).krc = s.krc := rfl
@[simp] theorem setReg_fwu (s : State) (a n : Nat) : (setReg s a n).fwu = s.fwu := rfl
@[simp] theorem setReg_ist (s : State) (a n : Nat) : (setReg s a n).ist = s.ist := rfl
@[simp] theorem setReg_pin (s : State) (a n : Nat) : (setReg s a n).pin = s.pin := rfl
@[simp] theorem setReg_now (s : State) (a n : Nat) : (setReg s a n).now = s.now := rfl
@[simp] theorem setReg_draws (s : State) (a n : Nat) : (setReg s a n).draws = s.draws := rfl
@[simp] theorem setReg_out (s : State) (a n : Nat) : (setReg s a n).out = s.out := rfl
@[simp] theorem setReg_pending (s : State) (a n : Nat) : (setReg s a n).pending = s.pending := rfl

@[simp] theorem setFld_dev (s : State) (a lo w v : Nat) : (setFld s a lo w v).dev = s.dev := rfl
@[simp] theorem setFld_trl (s : State) (a lo w v : Nat) : (setFld s a lo w v).trl = s.trl := rfl
@[simp] theorem setFld_paths (s : State) (a lo w v : Nat) : (setFld s a lo w v).paths = s.paths := rfl
@[simp] theorem setFld_d2d (s : State) (a lo w v : Nat) : (setFld s a lo w v).d2d = s.d2d := rfl
@[simp] theorem setFld_cxl (s : State) (a lo w v : Nat) : (setFld s a lo w v).cxl = s.cxl := rfl
@[simp] theorem setFld_alt (s : State) (a lo w v : Nat) : (setFld s a lo w v).alt = s.alt := rfl
@[simp] theorem setFld_mem (s : State) (a lo w v : Nat) : (setFld s a lo w v).mem = s.mem := rfl
@[simp] theorem setFld_drp (s : State) (a lo w v : Nat) : (setFld s a lo w v).drp = s.drp := rfl
@[simp] theorem setFld_hrv (s : State) (a lo w v : Nat) : (setFld s a lo w v).hrv = s.hrv := rfl
@[simp] theorem setFld_ftl (s : State) (a lo w v : Nat) : (setFld s a lo w v).ftl = s.ftl := rfl
@[simp] theorem setFld_exl (s : State) (a lo w v : Nat) : (setFld s a lo w v).exl = s.exl := rfl
@[simp] theorem setFld_ldg (s : State) (a lo w v : Nat) : (setFld s a lo w v).ldg = s.ldg := rfl
@[simp] theorem setFld_allotx (s : State) (a lo w v : Nat) : (setFld s a lo w v).allotx = s.allotx := rfl
@[simp] theorem setFld_tin (s : State) (a lo w v : Nat) : (setFld s a lo w v).tin = s.tin := rfl
@[simp] theorem setFld_mpx (s : State) (a lo w v : Nat) : (setFld s a lo w v).mpx = s.mpx := rfl
@[simp] theorem setFld_gau (s : State) (a lo w v : Nat) : (setFld s a lo w v).gau = s.gau := rfl
@[simp] theorem setFld_ddrs (s : State) (a lo w v : Nat) : (setFld s a lo w v).ddrs = s.ddrs := rfl
@[simp] theorem setFld_psq (s : State) (a lo w v : Nat) : (setFld s a lo w v).psq = s.psq := rfl
@[simp] theorem setFld_nvm (s : State) (a lo w v : Nat) : (setFld s a lo w v).nvm = s.nvm := rfl
@[simp] theorem setFld_adc (s : State) (a lo w v : Nat) : (setFld s a lo w v).adc = s.adc := rfl
@[simp] theorem setFld_twi (s : State) (a lo w v : Nat) : (setFld s a lo w v).twi = s.twi := rfl
@[simp] theorem setFld_flt (s : State) (a lo w v : Nat) : (setFld s a lo w v).flt = s.flt := rfl
@[simp] theorem setFld_log (s : State) (a lo w v : Nat) : (setFld s a lo w v).log = s.log := rfl
@[simp] theorem setFld_fus (s : State) (a lo w v : Nat) : (setFld s a lo w v).fus = s.fus := rfl
@[simp] theorem setFld_krc (s : State) (a lo w v : Nat) : (setFld s a lo w v).krc = s.krc := rfl
@[simp] theorem setFld_fwu (s : State) (a lo w v : Nat) : (setFld s a lo w v).fwu = s.fwu := rfl
@[simp] theorem setFld_ist (s : State) (a lo w v : Nat) : (setFld s a lo w v).ist = s.ist := rfl
@[simp] theorem setFld_pin (s : State) (a lo w v : Nat) : (setFld s a lo w v).pin = s.pin := rfl
@[simp] theorem setFld_now (s : State) (a lo w v : Nat) : (setFld s a lo w v).now = s.now := rfl
@[simp] theorem setFld_draws (s : State) (a lo w v : Nat) : (setFld s a lo w v).draws = s.draws := rfl
@[simp] theorem setFld_out (s : State) (a lo w v : Nat) : (setFld s a lo w v).out = s.out := rfl
@[simp] theorem setFld_pending (s : State) (a lo w v : Nat) : (setFld s a lo w v).pending = s.pending := rfl

@[simp] theorem bump_dev (s : State) (a lo w k : Nat) : (bump s a lo w k).dev = s.dev := rfl
@[simp] theorem bump_trl (s : State) (a lo w k : Nat) : (bump s a lo w k).trl = s.trl := rfl
@[simp] theorem bump_paths (s : State) (a lo w k : Nat) : (bump s a lo w k).paths = s.paths := rfl
@[simp] theorem bump_d2d (s : State) (a lo w k : Nat) : (bump s a lo w k).d2d = s.d2d := rfl
@[simp] theorem bump_cxl (s : State) (a lo w k : Nat) : (bump s a lo w k).cxl = s.cxl := rfl
@[simp] theorem bump_alt (s : State) (a lo w k : Nat) : (bump s a lo w k).alt = s.alt := rfl
@[simp] theorem bump_mem (s : State) (a lo w k : Nat) : (bump s a lo w k).mem = s.mem := rfl
@[simp] theorem bump_drp (s : State) (a lo w k : Nat) : (bump s a lo w k).drp = s.drp := rfl
@[simp] theorem bump_hrv (s : State) (a lo w k : Nat) : (bump s a lo w k).hrv = s.hrv := rfl
@[simp] theorem bump_ftl (s : State) (a lo w k : Nat) : (bump s a lo w k).ftl = s.ftl := rfl
@[simp] theorem bump_exl (s : State) (a lo w k : Nat) : (bump s a lo w k).exl = s.exl := rfl
@[simp] theorem bump_ldg (s : State) (a lo w k : Nat) : (bump s a lo w k).ldg = s.ldg := rfl
@[simp] theorem bump_allotx (s : State) (a lo w k : Nat) : (bump s a lo w k).allotx = s.allotx := rfl
@[simp] theorem bump_tin (s : State) (a lo w k : Nat) : (bump s a lo w k).tin = s.tin := rfl
@[simp] theorem bump_mpx (s : State) (a lo w k : Nat) : (bump s a lo w k).mpx = s.mpx := rfl
@[simp] theorem bump_gau (s : State) (a lo w k : Nat) : (bump s a lo w k).gau = s.gau := rfl
@[simp] theorem bump_ddrs (s : State) (a lo w k : Nat) : (bump s a lo w k).ddrs = s.ddrs := rfl
@[simp] theorem bump_psq (s : State) (a lo w k : Nat) : (bump s a lo w k).psq = s.psq := rfl
@[simp] theorem bump_nvm (s : State) (a lo w k : Nat) : (bump s a lo w k).nvm = s.nvm := rfl
@[simp] theorem bump_adc (s : State) (a lo w k : Nat) : (bump s a lo w k).adc = s.adc := rfl
@[simp] theorem bump_twi (s : State) (a lo w k : Nat) : (bump s a lo w k).twi = s.twi := rfl
@[simp] theorem bump_flt (s : State) (a lo w k : Nat) : (bump s a lo w k).flt = s.flt := rfl
@[simp] theorem bump_log (s : State) (a lo w k : Nat) : (bump s a lo w k).log = s.log := rfl
@[simp] theorem bump_fus (s : State) (a lo w k : Nat) : (bump s a lo w k).fus = s.fus := rfl
@[simp] theorem bump_krc (s : State) (a lo w k : Nat) : (bump s a lo w k).krc = s.krc := rfl
@[simp] theorem bump_fwu (s : State) (a lo w k : Nat) : (bump s a lo w k).fwu = s.fwu := rfl
@[simp] theorem bump_ist (s : State) (a lo w k : Nat) : (bump s a lo w k).ist = s.ist := rfl
@[simp] theorem bump_pin (s : State) (a lo w k : Nat) : (bump s a lo w k).pin = s.pin := rfl
@[simp] theorem bump_now (s : State) (a lo w k : Nat) : (bump s a lo w k).now = s.now := rfl
@[simp] theorem bump_draws (s : State) (a lo w k : Nat) : (bump s a lo w k).draws = s.draws := rfl
@[simp] theorem bump_out (s : State) (a lo w k : Nat) : (bump s a lo w k).out = s.out := rfl
@[simp] theorem bump_pending (s : State) (a lo w k : Nat) : (bump s a lo w k).pending = s.pending := rfl

@[simp] theorem setFunc_dev (s : State) (f : Nat) (x : Func) : (setFunc s f x).dev = s.dev := rfl
@[simp] theorem setFunc_trl (s : State) (f : Nat) (x : Func) : (setFunc s f x).trl = s.trl := rfl
@[simp] theorem setFunc_paths (s : State) (f : Nat) (x : Func) : (setFunc s f x).paths = s.paths := rfl
@[simp] theorem setFunc_d2d (s : State) (f : Nat) (x : Func) : (setFunc s f x).d2d = s.d2d := rfl
@[simp] theorem setFunc_cxl (s : State) (f : Nat) (x : Func) : (setFunc s f x).cxl = s.cxl := rfl
@[simp] theorem setFunc_alt (s : State) (f : Nat) (x : Func) : (setFunc s f x).alt = s.alt := rfl
@[simp] theorem setFunc_mem (s : State) (f : Nat) (x : Func) : (setFunc s f x).mem = s.mem := rfl
@[simp] theorem setFunc_drp (s : State) (f : Nat) (x : Func) : (setFunc s f x).drp = s.drp := rfl
@[simp] theorem setFunc_hrv (s : State) (f : Nat) (x : Func) : (setFunc s f x).hrv = s.hrv := rfl
@[simp] theorem setFunc_ftl (s : State) (f : Nat) (x : Func) : (setFunc s f x).ftl = s.ftl := rfl
@[simp] theorem setFunc_exl (s : State) (f : Nat) (x : Func) : (setFunc s f x).exl = s.exl := rfl
@[simp] theorem setFunc_ldg (s : State) (f : Nat) (x : Func) : (setFunc s f x).ldg = s.ldg := rfl
@[simp] theorem setFunc_allotx (s : State) (f : Nat) (x : Func) : (setFunc s f x).allotx = s.allotx := rfl
@[simp] theorem setFunc_tin (s : State) (f : Nat) (x : Func) : (setFunc s f x).tin = s.tin := rfl
@[simp] theorem setFunc_gau (s : State) (f : Nat) (x : Func) : (setFunc s f x).gau = s.gau := rfl
@[simp] theorem setFunc_ddrs (s : State) (f : Nat) (x : Func) : (setFunc s f x).ddrs = s.ddrs := rfl
@[simp] theorem setFunc_psq (s : State) (f : Nat) (x : Func) : (setFunc s f x).psq = s.psq := rfl
@[simp] theorem setFunc_nvm (s : State) (f : Nat) (x : Func) : (setFunc s f x).nvm = s.nvm := rfl
@[simp] theorem setFunc_adc (s : State) (f : Nat) (x : Func) : (setFunc s f x).adc = s.adc := rfl
@[simp] theorem setFunc_twi (s : State) (f : Nat) (x : Func) : (setFunc s f x).twi = s.twi := rfl
@[simp] theorem setFunc_flt (s : State) (f : Nat) (x : Func) : (setFunc s f x).flt = s.flt := rfl
@[simp] theorem setFunc_log (s : State) (f : Nat) (x : Func) : (setFunc s f x).log = s.log := rfl
@[simp] theorem setFunc_fus (s : State) (f : Nat) (x : Func) : (setFunc s f x).fus = s.fus := rfl
@[simp] theorem setFunc_krc (s : State) (f : Nat) (x : Func) : (setFunc s f x).krc = s.krc := rfl
@[simp] theorem setFunc_fwu (s : State) (f : Nat) (x : Func) : (setFunc s f x).fwu = s.fwu := rfl
@[simp] theorem setFunc_ist (s : State) (f : Nat) (x : Func) : (setFunc s f x).ist = s.ist := rfl
@[simp] theorem setFunc_pin (s : State) (f : Nat) (x : Func) : (setFunc s f x).pin = s.pin := rfl
@[simp] theorem setFunc_regs (s : State) (f : Nat) (x : Func) : (setFunc s f x).regs = s.regs := rfl
@[simp] theorem setFunc_now (s : State) (f : Nat) (x : Func) : (setFunc s f x).now = s.now := rfl
@[simp] theorem setFunc_draws (s : State) (f : Nat) (x : Func) : (setFunc s f x).draws = s.draws := rfl
@[simp] theorem setFunc_out (s : State) (f : Nat) (x : Func) : (setFunc s f x).out = s.out := rfl
@[simp] theorem setFunc_pending (s : State) (f : Nat) (x : Func) : (setFunc s f x).pending = s.pending := rfl

@[simp] theorem setSource_dev (s : State) (n : Nat) (x : Source) : (setSource s n x).dev = s.dev := rfl
@[simp] theorem setSource_trl (s : State) (n : Nat) (x : Source) : (setSource s n x).trl = s.trl := rfl
@[simp] theorem setSource_paths (s : State) (n : Nat) (x : Source) : (setSource s n x).paths = s.paths := rfl
@[simp] theorem setSource_d2d (s : State) (n : Nat) (x : Source) : (setSource s n x).d2d = s.d2d := rfl
@[simp] theorem setSource_cxl (s : State) (n : Nat) (x : Source) : (setSource s n x).cxl = s.cxl := rfl
@[simp] theorem setSource_alt (s : State) (n : Nat) (x : Source) : (setSource s n x).alt = s.alt := rfl
@[simp] theorem setSource_mem (s : State) (n : Nat) (x : Source) : (setSource s n x).mem = s.mem := rfl
@[simp] theorem setSource_drp (s : State) (n : Nat) (x : Source) : (setSource s n x).drp = s.drp := rfl
@[simp] theorem setSource_hrv (s : State) (n : Nat) (x : Source) : (setSource s n x).hrv = s.hrv := rfl
@[simp] theorem setSource_ftl (s : State) (n : Nat) (x : Source) : (setSource s n x).ftl = s.ftl := rfl
@[simp] theorem setSource_exl (s : State) (n : Nat) (x : Source) : (setSource s n x).exl = s.exl := rfl
@[simp] theorem setSource_ldg (s : State) (n : Nat) (x : Source) : (setSource s n x).ldg = s.ldg := rfl
@[simp] theorem setSource_allotx (s : State) (n : Nat) (x : Source) : (setSource s n x).allotx = s.allotx := rfl
@[simp] theorem setSource_tin (s : State) (n : Nat) (x : Source) : (setSource s n x).tin = s.tin := rfl
@[simp] theorem setSource_mpx (s : State) (n : Nat) (x : Source) : (setSource s n x).mpx = s.mpx := rfl
@[simp] theorem setSource_gau (s : State) (n : Nat) (x : Source) : (setSource s n x).gau = s.gau := rfl
@[simp] theorem setSource_ddrs (s : State) (n : Nat) (x : Source) : (setSource s n x).ddrs = s.ddrs := rfl
@[simp] theorem setSource_psq (s : State) (n : Nat) (x : Source) : (setSource s n x).psq = s.psq := rfl
@[simp] theorem setSource_nvm (s : State) (n : Nat) (x : Source) : (setSource s n x).nvm = s.nvm := rfl
@[simp] theorem setSource_adc (s : State) (n : Nat) (x : Source) : (setSource s n x).adc = s.adc := rfl
@[simp] theorem setSource_twi (s : State) (n : Nat) (x : Source) : (setSource s n x).twi = s.twi := rfl
@[simp] theorem setSource_log (s : State) (n : Nat) (x : Source) : (setSource s n x).log = s.log := rfl
@[simp] theorem setSource_fus (s : State) (n : Nat) (x : Source) : (setSource s n x).fus = s.fus := rfl
@[simp] theorem setSource_krc (s : State) (n : Nat) (x : Source) : (setSource s n x).krc = s.krc := rfl
@[simp] theorem setSource_fwu (s : State) (n : Nat) (x : Source) : (setSource s n x).fwu = s.fwu := rfl
@[simp] theorem setSource_ist (s : State) (n : Nat) (x : Source) : (setSource s n x).ist = s.ist := rfl
@[simp] theorem setSource_pin (s : State) (n : Nat) (x : Source) : (setSource s n x).pin = s.pin := rfl
@[simp] theorem setSource_regs (s : State) (n : Nat) (x : Source) : (setSource s n x).regs = s.regs := rfl
@[simp] theorem setSource_now (s : State) (n : Nat) (x : Source) : (setSource s n x).now = s.now := rfl
@[simp] theorem setSource_draws (s : State) (n : Nat) (x : Source) : (setSource s n x).draws = s.draws := rfl
@[simp] theorem setSource_out (s : State) (n : Nat) (x : Source) : (setSource s n x).out = s.out := rfl
@[simp] theorem setSource_pending (s : State) (n : Nat) (x : Source) : (setSource s n x).pending = s.pending := rfl

@[simp] theorem setBed_dev (s : State) (b : Nat) (x : Bed) : (setBed s b x).dev = s.dev := rfl
@[simp] theorem setBed_trl (s : State) (b : Nat) (x : Bed) : (setBed s b x).trl = s.trl := rfl
@[simp] theorem setBed_paths (s : State) (b : Nat) (x : Bed) : (setBed s b x).paths = s.paths := rfl
@[simp] theorem setBed_d2d (s : State) (b : Nat) (x : Bed) : (setBed s b x).d2d = s.d2d := rfl
@[simp] theorem setBed_cxl (s : State) (b : Nat) (x : Bed) : (setBed s b x).cxl = s.cxl := rfl
@[simp] theorem setBed_alt (s : State) (b : Nat) (x : Bed) : (setBed s b x).alt = s.alt := rfl
@[simp] theorem setBed_mem (s : State) (b : Nat) (x : Bed) : (setBed s b x).mem = s.mem := rfl
@[simp] theorem setBed_drp (s : State) (b : Nat) (x : Bed) : (setBed s b x).drp = s.drp := rfl
@[simp] theorem setBed_hrv (s : State) (b : Nat) (x : Bed) : (setBed s b x).hrv = s.hrv := rfl
@[simp] theorem setBed_ftl (s : State) (b : Nat) (x : Bed) : (setBed s b x).ftl = s.ftl := rfl
@[simp] theorem setBed_exl (s : State) (b : Nat) (x : Bed) : (setBed s b x).exl = s.exl := rfl
@[simp] theorem setBed_ldg (s : State) (b : Nat) (x : Bed) : (setBed s b x).ldg = s.ldg := rfl
@[simp] theorem setBed_allotx (s : State) (b : Nat) (x : Bed) : (setBed s b x).allotx = s.allotx := rfl
@[simp] theorem setBed_mpx (s : State) (b : Nat) (x : Bed) : (setBed s b x).mpx = s.mpx := rfl
@[simp] theorem setBed_gau (s : State) (b : Nat) (x : Bed) : (setBed s b x).gau = s.gau := rfl
@[simp] theorem setBed_ddrs (s : State) (b : Nat) (x : Bed) : (setBed s b x).ddrs = s.ddrs := rfl
@[simp] theorem setBed_psq (s : State) (b : Nat) (x : Bed) : (setBed s b x).psq = s.psq := rfl
@[simp] theorem setBed_nvm (s : State) (b : Nat) (x : Bed) : (setBed s b x).nvm = s.nvm := rfl
@[simp] theorem setBed_adc (s : State) (b : Nat) (x : Bed) : (setBed s b x).adc = s.adc := rfl
@[simp] theorem setBed_twi (s : State) (b : Nat) (x : Bed) : (setBed s b x).twi = s.twi := rfl
@[simp] theorem setBed_flt (s : State) (b : Nat) (x : Bed) : (setBed s b x).flt = s.flt := rfl
@[simp] theorem setBed_log (s : State) (b : Nat) (x : Bed) : (setBed s b x).log = s.log := rfl
@[simp] theorem setBed_fus (s : State) (b : Nat) (x : Bed) : (setBed s b x).fus = s.fus := rfl
@[simp] theorem setBed_krc (s : State) (b : Nat) (x : Bed) : (setBed s b x).krc = s.krc := rfl
@[simp] theorem setBed_fwu (s : State) (b : Nat) (x : Bed) : (setBed s b x).fwu = s.fwu := rfl
@[simp] theorem setBed_ist (s : State) (b : Nat) (x : Bed) : (setBed s b x).ist = s.ist := rfl
@[simp] theorem setBed_pin (s : State) (b : Nat) (x : Bed) : (setBed s b x).pin = s.pin := rfl
@[simp] theorem setBed_regs (s : State) (b : Nat) (x : Bed) : (setBed s b x).regs = s.regs := rfl
@[simp] theorem setBed_now (s : State) (b : Nat) (x : Bed) : (setBed s b x).now = s.now := rfl
@[simp] theorem setBed_draws (s : State) (b : Nat) (x : Bed) : (setBed s b x).draws = s.draws := rfl
@[simp] theorem setBed_out (s : State) (b : Nat) (x : Bed) : (setBed s b x).out = s.out := rfl
@[simp] theorem setBed_pending (s : State) (b : Nat) (x : Bed) : (setBed s b x).pending = s.pending := rfl

@[simp] theorem modSub_dev (s : State) (k : Nat) (f : Sublink → Sublink) : (modSub s k f).dev = s.dev := rfl
@[simp] theorem modSub_trl (s : State) (k : Nat) (f : Sublink → Sublink) : (modSub s k f).trl = s.trl := rfl
@[simp] theorem modSub_paths (s : State) (k : Nat) (f : Sublink → Sublink) : (modSub s k f).paths = s.paths := rfl
@[simp] theorem modSub_d2d (s : State) (k : Nat) (f : Sublink → Sublink) : (modSub s k f).d2d = s.d2d := rfl
@[simp] theorem modSub_cxl (s : State) (k : Nat) (f : Sublink → Sublink) : (modSub s k f).cxl = s.cxl := rfl
@[simp] theorem modSub_alt (s : State) (k : Nat) (f : Sublink → Sublink) : (modSub s k f).alt = s.alt := rfl
@[simp] theorem modSub_mem (s : State) (k : Nat) (f : Sublink → Sublink) : (modSub s k f).mem = s.mem := rfl
@[simp] theorem modSub_drp (s : State) (k : Nat) (f : Sublink → Sublink) : (modSub s k f).drp = s.drp := rfl
@[simp] theorem modSub_hrv (s : State) (k : Nat) (f : Sublink → Sublink) : (modSub s k f).hrv = s.hrv := rfl
@[simp] theorem modSub_ftl (s : State) (k : Nat) (f : Sublink → Sublink) : (modSub s k f).ftl = s.ftl := rfl
@[simp] theorem modSub_ldg (s : State) (k : Nat) (f : Sublink → Sublink) : (modSub s k f).ldg = s.ldg := rfl
@[simp] theorem modSub_allotx (s : State) (k : Nat) (f : Sublink → Sublink) : (modSub s k f).allotx = s.allotx := rfl
@[simp] theorem modSub_tin (s : State) (k : Nat) (f : Sublink → Sublink) : (modSub s k f).tin = s.tin := rfl
@[simp] theorem modSub_mpx (s : State) (k : Nat) (f : Sublink → Sublink) : (modSub s k f).mpx = s.mpx := rfl
@[simp] theorem modSub_gau (s : State) (k : Nat) (f : Sublink → Sublink) : (modSub s k f).gau = s.gau := rfl
@[simp] theorem modSub_ddrs (s : State) (k : Nat) (f : Sublink → Sublink) : (modSub s k f).ddrs = s.ddrs := rfl
@[simp] theorem modSub_psq (s : State) (k : Nat) (f : Sublink → Sublink) : (modSub s k f).psq = s.psq := rfl
@[simp] theorem modSub_nvm (s : State) (k : Nat) (f : Sublink → Sublink) : (modSub s k f).nvm = s.nvm := rfl
@[simp] theorem modSub_adc (s : State) (k : Nat) (f : Sublink → Sublink) : (modSub s k f).adc = s.adc := rfl
@[simp] theorem modSub_twi (s : State) (k : Nat) (f : Sublink → Sublink) : (modSub s k f).twi = s.twi := rfl
@[simp] theorem modSub_flt (s : State) (k : Nat) (f : Sublink → Sublink) : (modSub s k f).flt = s.flt := rfl
@[simp] theorem modSub_log (s : State) (k : Nat) (f : Sublink → Sublink) : (modSub s k f).log = s.log := rfl
@[simp] theorem modSub_fus (s : State) (k : Nat) (f : Sublink → Sublink) : (modSub s k f).fus = s.fus := rfl
@[simp] theorem modSub_krc (s : State) (k : Nat) (f : Sublink → Sublink) : (modSub s k f).krc = s.krc := rfl
@[simp] theorem modSub_fwu (s : State) (k : Nat) (f : Sublink → Sublink) : (modSub s k f).fwu = s.fwu := rfl
@[simp] theorem modSub_ist (s : State) (k : Nat) (f : Sublink → Sublink) : (modSub s k f).ist = s.ist := rfl
@[simp] theorem modSub_pin (s : State) (k : Nat) (f : Sublink → Sublink) : (modSub s k f).pin = s.pin := rfl
@[simp] theorem modSub_regs (s : State) (k : Nat) (f : Sublink → Sublink) : (modSub s k f).regs = s.regs := rfl
@[simp] theorem modSub_now (s : State) (k : Nat) (f : Sublink → Sublink) : (modSub s k f).now = s.now := rfl
@[simp] theorem modSub_draws (s : State) (k : Nat) (f : Sublink → Sublink) : (modSub s k f).draws = s.draws := rfl
@[simp] theorem modSub_out (s : State) (k : Nat) (f : Sublink → Sublink) : (modSub s k f).out = s.out := rfl
@[simp] theorem modSub_pending (s : State) (k : Nat) (f : Sublink → Sublink) : (modSub s k f).pending = s.pending := rfl

@[simp] theorem setPort_dev (s : State) (n : Nat) (x : Port) : (setPort s n x).dev = s.dev := rfl
@[simp] theorem setPort_trl (s : State) (n : Nat) (x : Port) : (setPort s n x).trl = s.trl := rfl
@[simp] theorem setPort_paths (s : State) (n : Nat) (x : Port) : (setPort s n x).paths = s.paths := rfl
@[simp] theorem setPort_d2d (s : State) (n : Nat) (x : Port) : (setPort s n x).d2d = s.d2d := rfl
@[simp] theorem setPort_alt (s : State) (n : Nat) (x : Port) : (setPort s n x).alt = s.alt := rfl
@[simp] theorem setPort_mem (s : State) (n : Nat) (x : Port) : (setPort s n x).mem = s.mem := rfl
@[simp] theorem setPort_drp (s : State) (n : Nat) (x : Port) : (setPort s n x).drp = s.drp := rfl
@[simp] theorem setPort_hrv (s : State) (n : Nat) (x : Port) : (setPort s n x).hrv = s.hrv := rfl
@[simp] theorem setPort_ftl (s : State) (n : Nat) (x : Port) : (setPort s n x).ftl = s.ftl := rfl
@[simp] theorem setPort_exl (s : State) (n : Nat) (x : Port) : (setPort s n x).exl = s.exl := rfl
@[simp] theorem setPort_ldg (s : State) (n : Nat) (x : Port) : (setPort s n x).ldg = s.ldg := rfl
@[simp] theorem setPort_allotx (s : State) (n : Nat) (x : Port) : (setPort s n x).allotx = s.allotx := rfl
@[simp] theorem setPort_tin (s : State) (n : Nat) (x : Port) : (setPort s n x).tin = s.tin := rfl
@[simp] theorem setPort_mpx (s : State) (n : Nat) (x : Port) : (setPort s n x).mpx = s.mpx := rfl
@[simp] theorem setPort_gau (s : State) (n : Nat) (x : Port) : (setPort s n x).gau = s.gau := rfl
@[simp] theorem setPort_ddrs (s : State) (n : Nat) (x : Port) : (setPort s n x).ddrs = s.ddrs := rfl
@[simp] theorem setPort_psq (s : State) (n : Nat) (x : Port) : (setPort s n x).psq = s.psq := rfl
@[simp] theorem setPort_nvm (s : State) (n : Nat) (x : Port) : (setPort s n x).nvm = s.nvm := rfl
@[simp] theorem setPort_adc (s : State) (n : Nat) (x : Port) : (setPort s n x).adc = s.adc := rfl
@[simp] theorem setPort_twi (s : State) (n : Nat) (x : Port) : (setPort s n x).twi = s.twi := rfl
@[simp] theorem setPort_flt (s : State) (n : Nat) (x : Port) : (setPort s n x).flt = s.flt := rfl
@[simp] theorem setPort_log (s : State) (n : Nat) (x : Port) : (setPort s n x).log = s.log := rfl
@[simp] theorem setPort_fus (s : State) (n : Nat) (x : Port) : (setPort s n x).fus = s.fus := rfl
@[simp] theorem setPort_krc (s : State) (n : Nat) (x : Port) : (setPort s n x).krc = s.krc := rfl
@[simp] theorem setPort_fwu (s : State) (n : Nat) (x : Port) : (setPort s n x).fwu = s.fwu := rfl
@[simp] theorem setPort_ist (s : State) (n : Nat) (x : Port) : (setPort s n x).ist = s.ist := rfl
@[simp] theorem setPort_pin (s : State) (n : Nat) (x : Port) : (setPort s n x).pin = s.pin := rfl
@[simp] theorem setPort_regs (s : State) (n : Nat) (x : Port) : (setPort s n x).regs = s.regs := rfl
@[simp] theorem setPort_now (s : State) (n : Nat) (x : Port) : (setPort s n x).now = s.now := rfl
@[simp] theorem setPort_draws (s : State) (n : Nat) (x : Port) : (setPort s n x).draws = s.draws := rfl
@[simp] theorem setPort_out (s : State) (n : Nat) (x : Port) : (setPort s n x).out = s.out := rfl
@[simp] theorem setPort_pending (s : State) (n : Nat) (x : Port) : (setPort s n x).pending = s.pending := rfl

@[simp] theorem setQp_dev (s : State) (n : Nat) (q : QP) : (setQp s n q).dev = s.dev := rfl
@[simp] theorem setQp_paths (s : State) (n : Nat) (q : QP) : (setQp s n q).paths = s.paths := rfl
@[simp] theorem setQp_d2d (s : State) (n : Nat) (q : QP) : (setQp s n q).d2d = s.d2d := rfl
@[simp] theorem setQp_cxl (s : State) (n : Nat) (q : QP) : (setQp s n q).cxl = s.cxl := rfl
@[simp] theorem setQp_alt (s : State) (n : Nat) (q : QP) : (setQp s n q).alt = s.alt := rfl
@[simp] theorem setQp_mem (s : State) (n : Nat) (q : QP) : (setQp s n q).mem = s.mem := rfl
@[simp] theorem setQp_drp (s : State) (n : Nat) (q : QP) : (setQp s n q).drp = s.drp := rfl
@[simp] theorem setQp_hrv (s : State) (n : Nat) (q : QP) : (setQp s n q).hrv = s.hrv := rfl
@[simp] theorem setQp_ftl (s : State) (n : Nat) (q : QP) : (setQp s n q).ftl = s.ftl := rfl
@[simp] theorem setQp_exl (s : State) (n : Nat) (q : QP) : (setQp s n q).exl = s.exl := rfl
@[simp] theorem setQp_ldg (s : State) (n : Nat) (q : QP) : (setQp s n q).ldg = s.ldg := rfl
@[simp] theorem setQp_allotx (s : State) (n : Nat) (q : QP) : (setQp s n q).allotx = s.allotx := rfl
@[simp] theorem setQp_tin (s : State) (n : Nat) (q : QP) : (setQp s n q).tin = s.tin := rfl
@[simp] theorem setQp_mpx (s : State) (n : Nat) (q : QP) : (setQp s n q).mpx = s.mpx := rfl
@[simp] theorem setQp_gau (s : State) (n : Nat) (q : QP) : (setQp s n q).gau = s.gau := rfl
@[simp] theorem setQp_ddrs (s : State) (n : Nat) (q : QP) : (setQp s n q).ddrs = s.ddrs := rfl
@[simp] theorem setQp_psq (s : State) (n : Nat) (q : QP) : (setQp s n q).psq = s.psq := rfl
@[simp] theorem setQp_nvm (s : State) (n : Nat) (q : QP) : (setQp s n q).nvm = s.nvm := rfl
@[simp] theorem setQp_adc (s : State) (n : Nat) (q : QP) : (setQp s n q).adc = s.adc := rfl
@[simp] theorem setQp_twi (s : State) (n : Nat) (q : QP) : (setQp s n q).twi = s.twi := rfl
@[simp] theorem setQp_flt (s : State) (n : Nat) (q : QP) : (setQp s n q).flt = s.flt := rfl
@[simp] theorem setQp_log (s : State) (n : Nat) (q : QP) : (setQp s n q).log = s.log := rfl
@[simp] theorem setQp_fus (s : State) (n : Nat) (q : QP) : (setQp s n q).fus = s.fus := rfl
@[simp] theorem setQp_krc (s : State) (n : Nat) (q : QP) : (setQp s n q).krc = s.krc := rfl
@[simp] theorem setQp_fwu (s : State) (n : Nat) (q : QP) : (setQp s n q).fwu = s.fwu := rfl
@[simp] theorem setQp_ist (s : State) (n : Nat) (q : QP) : (setQp s n q).ist = s.ist := rfl
@[simp] theorem setQp_pin (s : State) (n : Nat) (q : QP) : (setQp s n q).pin = s.pin := rfl
@[simp] theorem setQp_regs (s : State) (n : Nat) (q : QP) : (setQp s n q).regs = s.regs := rfl
@[simp] theorem setQp_now (s : State) (n : Nat) (q : QP) : (setQp s n q).now = s.now := rfl
@[simp] theorem setQp_draws (s : State) (n : Nat) (q : QP) : (setQp s n q).draws = s.draws := rfl
@[simp] theorem setQp_out (s : State) (n : Nat) (q : QP) : (setQp s n q).out = s.out := rfl
@[simp] theorem setQp_pending (s : State) (n : Nat) (q : QP) : (setQp s n q).pending = s.pending := rfl

@[simp] theorem setTwi_dev (s : State) (n : Nat) (p : Twi) : (setTwi s n p).dev = s.dev := rfl
@[simp] theorem setTwi_trl (s : State) (n : Nat) (p : Twi) : (setTwi s n p).trl = s.trl := rfl
@[simp] theorem setTwi_paths (s : State) (n : Nat) (p : Twi) : (setTwi s n p).paths = s.paths := rfl
@[simp] theorem setTwi_d2d (s : State) (n : Nat) (p : Twi) : (setTwi s n p).d2d = s.d2d := rfl
@[simp] theorem setTwi_cxl (s : State) (n : Nat) (p : Twi) : (setTwi s n p).cxl = s.cxl := rfl
@[simp] theorem setTwi_alt (s : State) (n : Nat) (p : Twi) : (setTwi s n p).alt = s.alt := rfl
@[simp] theorem setTwi_mem (s : State) (n : Nat) (p : Twi) : (setTwi s n p).mem = s.mem := rfl
@[simp] theorem setTwi_drp (s : State) (n : Nat) (p : Twi) : (setTwi s n p).drp = s.drp := rfl
@[simp] theorem setTwi_hrv (s : State) (n : Nat) (p : Twi) : (setTwi s n p).hrv = s.hrv := rfl
@[simp] theorem setTwi_ftl (s : State) (n : Nat) (p : Twi) : (setTwi s n p).ftl = s.ftl := rfl
@[simp] theorem setTwi_exl (s : State) (n : Nat) (p : Twi) : (setTwi s n p).exl = s.exl := rfl
@[simp] theorem setTwi_ldg (s : State) (n : Nat) (p : Twi) : (setTwi s n p).ldg = s.ldg := rfl
@[simp] theorem setTwi_allotx (s : State) (n : Nat) (p : Twi) : (setTwi s n p).allotx = s.allotx := rfl
@[simp] theorem setTwi_tin (s : State) (n : Nat) (p : Twi) : (setTwi s n p).tin = s.tin := rfl
@[simp] theorem setTwi_mpx (s : State) (n : Nat) (p : Twi) : (setTwi s n p).mpx = s.mpx := rfl
@[simp] theorem setTwi_gau (s : State) (n : Nat) (p : Twi) : (setTwi s n p).gau = s.gau := rfl
@[simp] theorem setTwi_ddrs (s : State) (n : Nat) (p : Twi) : (setTwi s n p).ddrs = s.ddrs := rfl
@[simp] theorem setTwi_psq (s : State) (n : Nat) (p : Twi) : (setTwi s n p).psq = s.psq := rfl
@[simp] theorem setTwi_nvm (s : State) (n : Nat) (p : Twi) : (setTwi s n p).nvm = s.nvm := rfl
@[simp] theorem setTwi_adc (s : State) (n : Nat) (p : Twi) : (setTwi s n p).adc = s.adc := rfl
@[simp] theorem setTwi_flt (s : State) (n : Nat) (p : Twi) : (setTwi s n p).flt = s.flt := rfl
@[simp] theorem setTwi_log (s : State) (n : Nat) (p : Twi) : (setTwi s n p).log = s.log := rfl
@[simp] theorem setTwi_fus (s : State) (n : Nat) (p : Twi) : (setTwi s n p).fus = s.fus := rfl
@[simp] theorem setTwi_krc (s : State) (n : Nat) (p : Twi) : (setTwi s n p).krc = s.krc := rfl
@[simp] theorem setTwi_fwu (s : State) (n : Nat) (p : Twi) : (setTwi s n p).fwu = s.fwu := rfl
@[simp] theorem setTwi_ist (s : State) (n : Nat) (p : Twi) : (setTwi s n p).ist = s.ist := rfl
@[simp] theorem setTwi_pin (s : State) (n : Nat) (p : Twi) : (setTwi s n p).pin = s.pin := rfl
@[simp] theorem setTwi_regs (s : State) (n : Nat) (p : Twi) : (setTwi s n p).regs = s.regs := rfl
@[simp] theorem setTwi_now (s : State) (n : Nat) (p : Twi) : (setTwi s n p).now = s.now := rfl
@[simp] theorem setTwi_draws (s : State) (n : Nat) (p : Twi) : (setTwi s n p).draws = s.draws := rfl
@[simp] theorem setTwi_out (s : State) (n : Nat) (p : Twi) : (setTwi s n p).out = s.out := rfl
@[simp] theorem setTwi_pending (s : State) (n : Nat) (p : Twi) : (setTwi s n p).pending = s.pending := rfl

@[simp] theorem setSb_dev (s : State) (k : Nat) (x : Sb) : (setSb s k x).dev = s.dev := rfl
@[simp] theorem setSb_trl (s : State) (k : Nat) (x : Sb) : (setSb s k x).trl = s.trl := rfl
@[simp] theorem setSb_paths (s : State) (k : Nat) (x : Sb) : (setSb s k x).paths = s.paths := rfl
@[simp] theorem setSb_d2d (s : State) (k : Nat) (x : Sb) : (setSb s k x).d2d = s.d2d := rfl
@[simp] theorem setSb_cxl (s : State) (k : Nat) (x : Sb) : (setSb s k x).cxl = s.cxl := rfl
@[simp] theorem setSb_alt (s : State) (k : Nat) (x : Sb) : (setSb s k x).alt = s.alt := rfl
@[simp] theorem setSb_mem (s : State) (k : Nat) (x : Sb) : (setSb s k x).mem = s.mem := rfl
@[simp] theorem setSb_drp (s : State) (k : Nat) (x : Sb) : (setSb s k x).drp = s.drp := rfl
@[simp] theorem setSb_hrv (s : State) (k : Nat) (x : Sb) : (setSb s k x).hrv = s.hrv := rfl
@[simp] theorem setSb_exl (s : State) (k : Nat) (x : Sb) : (setSb s k x).exl = s.exl := rfl
@[simp] theorem setSb_ldg (s : State) (k : Nat) (x : Sb) : (setSb s k x).ldg = s.ldg := rfl
@[simp] theorem setSb_allotx (s : State) (k : Nat) (x : Sb) : (setSb s k x).allotx = s.allotx := rfl
@[simp] theorem setSb_tin (s : State) (k : Nat) (x : Sb) : (setSb s k x).tin = s.tin := rfl
@[simp] theorem setSb_mpx (s : State) (k : Nat) (x : Sb) : (setSb s k x).mpx = s.mpx := rfl
@[simp] theorem setSb_gau (s : State) (k : Nat) (x : Sb) : (setSb s k x).gau = s.gau := rfl
@[simp] theorem setSb_ddrs (s : State) (k : Nat) (x : Sb) : (setSb s k x).ddrs = s.ddrs := rfl
@[simp] theorem setSb_psq (s : State) (k : Nat) (x : Sb) : (setSb s k x).psq = s.psq := rfl
@[simp] theorem setSb_nvm (s : State) (k : Nat) (x : Sb) : (setSb s k x).nvm = s.nvm := rfl
@[simp] theorem setSb_adc (s : State) (k : Nat) (x : Sb) : (setSb s k x).adc = s.adc := rfl
@[simp] theorem setSb_twi (s : State) (k : Nat) (x : Sb) : (setSb s k x).twi = s.twi := rfl
@[simp] theorem setSb_flt (s : State) (k : Nat) (x : Sb) : (setSb s k x).flt = s.flt := rfl
@[simp] theorem setSb_log (s : State) (k : Nat) (x : Sb) : (setSb s k x).log = s.log := rfl
@[simp] theorem setSb_fus (s : State) (k : Nat) (x : Sb) : (setSb s k x).fus = s.fus := rfl
@[simp] theorem setSb_krc (s : State) (k : Nat) (x : Sb) : (setSb s k x).krc = s.krc := rfl
@[simp] theorem setSb_fwu (s : State) (k : Nat) (x : Sb) : (setSb s k x).fwu = s.fwu := rfl
@[simp] theorem setSb_ist (s : State) (k : Nat) (x : Sb) : (setSb s k x).ist = s.ist := rfl
@[simp] theorem setSb_pin (s : State) (k : Nat) (x : Sb) : (setSb s k x).pin = s.pin := rfl
@[simp] theorem setSb_regs (s : State) (k : Nat) (x : Sb) : (setSb s k x).regs = s.regs := rfl
@[simp] theorem setSb_now (s : State) (k : Nat) (x : Sb) : (setSb s k x).now = s.now := rfl
@[simp] theorem setSb_draws (s : State) (k : Nat) (x : Sb) : (setSb s k x).draws = s.draws := rfl
@[simp] theorem setSb_out (s : State) (k : Nat) (x : Sb) : (setSb s k x).out = s.out := rfl
@[simp] theorem setSb_pending (s : State) (k : Nat) (x : Sb) : (setSb s k x).pending = s.pending := rfl

@[simp] theorem setJob_dev (s : State) (id : Nat) (j : Job) : (setJob s id j).dev = s.dev := rfl
@[simp] theorem setJob_paths (s : State) (id : Nat) (j : Job) : (setJob s id j).paths = s.paths := rfl
@[simp] theorem setJob_d2d (s : State) (id : Nat) (j : Job) : (setJob s id j).d2d = s.d2d := rfl
@[simp] theorem setJob_cxl (s : State) (id : Nat) (j : Job) : (setJob s id j).cxl = s.cxl := rfl
@[simp] theorem setJob_alt (s : State) (id : Nat) (j : Job) : (setJob s id j).alt = s.alt := rfl
@[simp] theorem setJob_mem (s : State) (id : Nat) (j : Job) : (setJob s id j).mem = s.mem := rfl
@[simp] theorem setJob_drp (s : State) (id : Nat) (j : Job) : (setJob s id j).drp = s.drp := rfl
@[simp] theorem setJob_hrv (s : State) (id : Nat) (j : Job) : (setJob s id j).hrv = s.hrv := rfl
@[simp] theorem setJob_ftl (s : State) (id : Nat) (j : Job) : (setJob s id j).ftl = s.ftl := rfl
@[simp] theorem setJob_exl (s : State) (id : Nat) (j : Job) : (setJob s id j).exl = s.exl := rfl
@[simp] theorem setJob_ldg (s : State) (id : Nat) (j : Job) : (setJob s id j).ldg = s.ldg := rfl
@[simp] theorem setJob_allotx (s : State) (id : Nat) (j : Job) : (setJob s id j).allotx = s.allotx := rfl
@[simp] theorem setJob_tin (s : State) (id : Nat) (j : Job) : (setJob s id j).tin = s.tin := rfl
@[simp] theorem setJob_mpx (s : State) (id : Nat) (j : Job) : (setJob s id j).mpx = s.mpx := rfl
@[simp] theorem setJob_gau (s : State) (id : Nat) (j : Job) : (setJob s id j).gau = s.gau := rfl
@[simp] theorem setJob_ddrs (s : State) (id : Nat) (j : Job) : (setJob s id j).ddrs = s.ddrs := rfl
@[simp] theorem setJob_psq (s : State) (id : Nat) (j : Job) : (setJob s id j).psq = s.psq := rfl
@[simp] theorem setJob_nvm (s : State) (id : Nat) (j : Job) : (setJob s id j).nvm = s.nvm := rfl
@[simp] theorem setJob_adc (s : State) (id : Nat) (j : Job) : (setJob s id j).adc = s.adc := rfl
@[simp] theorem setJob_twi (s : State) (id : Nat) (j : Job) : (setJob s id j).twi = s.twi := rfl
@[simp] theorem setJob_flt (s : State) (id : Nat) (j : Job) : (setJob s id j).flt = s.flt := rfl
@[simp] theorem setJob_log (s : State) (id : Nat) (j : Job) : (setJob s id j).log = s.log := rfl
@[simp] theorem setJob_fus (s : State) (id : Nat) (j : Job) : (setJob s id j).fus = s.fus := rfl
@[simp] theorem setJob_krc (s : State) (id : Nat) (j : Job) : (setJob s id j).krc = s.krc := rfl
@[simp] theorem setJob_fwu (s : State) (id : Nat) (j : Job) : (setJob s id j).fwu = s.fwu := rfl
@[simp] theorem setJob_ist (s : State) (id : Nat) (j : Job) : (setJob s id j).ist = s.ist := rfl
@[simp] theorem setJob_pin (s : State) (id : Nat) (j : Job) : (setJob s id j).pin = s.pin := rfl
@[simp] theorem setJob_regs (s : State) (id : Nat) (j : Job) : (setJob s id j).regs = s.regs := rfl
@[simp] theorem setJob_now (s : State) (id : Nat) (j : Job) : (setJob s id j).now = s.now := rfl
@[simp] theorem setJob_draws (s : State) (id : Nat) (j : Job) : (setJob s id j).draws = s.draws := rfl
@[simp] theorem setJob_out (s : State) (id : Nat) (j : Job) : (setJob s id j).out = s.out := rfl
@[simp] theorem setJob_pending (s : State) (id : Nat) (j : Job) : (setJob s id j).pending = s.pending := rfl

@[simp] theorem setItem_dev (s : State) (n : Nat) (x : IstItem) : (setItem s n x).dev = s.dev := rfl
@[simp] theorem setItem_trl (s : State) (n : Nat) (x : IstItem) : (setItem s n x).trl = s.trl := rfl
@[simp] theorem setItem_paths (s : State) (n : Nat) (x : IstItem) : (setItem s n x).paths = s.paths := rfl
@[simp] theorem setItem_d2d (s : State) (n : Nat) (x : IstItem) : (setItem s n x).d2d = s.d2d := rfl
@[simp] theorem setItem_cxl (s : State) (n : Nat) (x : IstItem) : (setItem s n x).cxl = s.cxl := rfl
@[simp] theorem setItem_alt (s : State) (n : Nat) (x : IstItem) : (setItem s n x).alt = s.alt := rfl
@[simp] theorem setItem_mem (s : State) (n : Nat) (x : IstItem) : (setItem s n x).mem = s.mem := rfl
@[simp] theorem setItem_drp (s : State) (n : Nat) (x : IstItem) : (setItem s n x).drp = s.drp := rfl
@[simp] theorem setItem_hrv (s : State) (n : Nat) (x : IstItem) : (setItem s n x).hrv = s.hrv := rfl
@[simp] theorem setItem_ftl (s : State) (n : Nat) (x : IstItem) : (setItem s n x).ftl = s.ftl := rfl
@[simp] theorem setItem_exl (s : State) (n : Nat) (x : IstItem) : (setItem s n x).exl = s.exl := rfl
@[simp] theorem setItem_ldg (s : State) (n : Nat) (x : IstItem) : (setItem s n x).ldg = s.ldg := rfl
@[simp] theorem setItem_allotx (s : State) (n : Nat) (x : IstItem) : (setItem s n x).allotx = s.allotx := rfl
@[simp] theorem setItem_tin (s : State) (n : Nat) (x : IstItem) : (setItem s n x).tin = s.tin := rfl
@[simp] theorem setItem_mpx (s : State) (n : Nat) (x : IstItem) : (setItem s n x).mpx = s.mpx := rfl
@[simp] theorem setItem_gau (s : State) (n : Nat) (x : IstItem) : (setItem s n x).gau = s.gau := rfl
@[simp] theorem setItem_ddrs (s : State) (n : Nat) (x : IstItem) : (setItem s n x).ddrs = s.ddrs := rfl
@[simp] theorem setItem_psq (s : State) (n : Nat) (x : IstItem) : (setItem s n x).psq = s.psq := rfl
@[simp] theorem setItem_nvm (s : State) (n : Nat) (x : IstItem) : (setItem s n x).nvm = s.nvm := rfl
@[simp] theorem setItem_adc (s : State) (n : Nat) (x : IstItem) : (setItem s n x).adc = s.adc := rfl
@[simp] theorem setItem_twi (s : State) (n : Nat) (x : IstItem) : (setItem s n x).twi = s.twi := rfl
@[simp] theorem setItem_flt (s : State) (n : Nat) (x : IstItem) : (setItem s n x).flt = s.flt := rfl
@[simp] theorem setItem_log (s : State) (n : Nat) (x : IstItem) : (setItem s n x).log = s.log := rfl
@[simp] theorem setItem_fus (s : State) (n : Nat) (x : IstItem) : (setItem s n x).fus = s.fus := rfl
@[simp] theorem setItem_krc (s : State) (n : Nat) (x : IstItem) : (setItem s n x).krc = s.krc := rfl
@[simp] theorem setItem_fwu (s : State) (n : Nat) (x : IstItem) : (setItem s n x).fwu = s.fwu := rfl
@[simp] theorem setItem_pin (s : State) (n : Nat) (x : IstItem) : (setItem s n x).pin = s.pin := rfl
@[simp] theorem setItem_regs (s : State) (n : Nat) (x : IstItem) : (setItem s n x).regs = s.regs := rfl
@[simp] theorem setItem_now (s : State) (n : Nat) (x : IstItem) : (setItem s n x).now = s.now := rfl
@[simp] theorem setItem_draws (s : State) (n : Nat) (x : IstItem) : (setItem s n x).draws = s.draws := rfl
@[simp] theorem setItem_out (s : State) (n : Nat) (x : IstItem) : (setItem s n x).out = s.out := rfl
@[simp] theorem setItem_pending (s : State) (n : Nat) (x : IstItem) : (setItem s n x).pending = s.pending := rfl

@[simp] theorem setDomain_dev (s : State) (d v : Nat) : (setDomain s d v).dev = s.dev := rfl
@[simp] theorem setDomain_trl (s : State) (d v : Nat) : (setDomain s d v).trl = s.trl := rfl
@[simp] theorem setDomain_paths (s : State) (d v : Nat) : (setDomain s d v).paths = s.paths := rfl
@[simp] theorem setDomain_d2d (s : State) (d v : Nat) : (setDomain s d v).d2d = s.d2d := rfl
@[simp] theorem setDomain_cxl (s : State) (d v : Nat) : (setDomain s d v).cxl = s.cxl := rfl
@[simp] theorem setDomain_alt (s : State) (d v : Nat) : (setDomain s d v).alt = s.alt := rfl
@[simp] theorem setDomain_mem (s : State) (d v : Nat) : (setDomain s d v).mem = s.mem := rfl
@[simp] theorem setDomain_drp (s : State) (d v : Nat) : (setDomain s d v).drp = s.drp := rfl
@[simp] theorem setDomain_hrv (s : State) (d v : Nat) : (setDomain s d v).hrv = s.hrv := rfl
@[simp] theorem setDomain_ftl (s : State) (d v : Nat) : (setDomain s d v).ftl = s.ftl := rfl
@[simp] theorem setDomain_exl (s : State) (d v : Nat) : (setDomain s d v).exl = s.exl := rfl
@[simp] theorem setDomain_ldg (s : State) (d v : Nat) : (setDomain s d v).ldg = s.ldg := rfl
@[simp] theorem setDomain_allotx (s : State) (d v : Nat) : (setDomain s d v).allotx = s.allotx := rfl
@[simp] theorem setDomain_tin (s : State) (d v : Nat) : (setDomain s d v).tin = s.tin := rfl
@[simp] theorem setDomain_mpx (s : State) (d v : Nat) : (setDomain s d v).mpx = s.mpx := rfl
@[simp] theorem setDomain_gau (s : State) (d v : Nat) : (setDomain s d v).gau = s.gau := rfl
@[simp] theorem setDomain_ddrs (s : State) (d v : Nat) : (setDomain s d v).ddrs = s.ddrs := rfl
@[simp] theorem setDomain_nvm (s : State) (d v : Nat) : (setDomain s d v).nvm = s.nvm := rfl
@[simp] theorem setDomain_adc (s : State) (d v : Nat) : (setDomain s d v).adc = s.adc := rfl
@[simp] theorem setDomain_twi (s : State) (d v : Nat) : (setDomain s d v).twi = s.twi := rfl
@[simp] theorem setDomain_flt (s : State) (d v : Nat) : (setDomain s d v).flt = s.flt := rfl
@[simp] theorem setDomain_log (s : State) (d v : Nat) : (setDomain s d v).log = s.log := rfl
@[simp] theorem setDomain_fus (s : State) (d v : Nat) : (setDomain s d v).fus = s.fus := rfl
@[simp] theorem setDomain_krc (s : State) (d v : Nat) : (setDomain s d v).krc = s.krc := rfl
@[simp] theorem setDomain_fwu (s : State) (d v : Nat) : (setDomain s d v).fwu = s.fwu := rfl
@[simp] theorem setDomain_ist (s : State) (d v : Nat) : (setDomain s d v).ist = s.ist := rfl
@[simp] theorem setDomain_pin (s : State) (d v : Nat) : (setDomain s d v).pin = s.pin := rfl
@[simp] theorem setDomain_regs (s : State) (d v : Nat) : (setDomain s d v).regs = s.regs := rfl
@[simp] theorem setDomain_now (s : State) (d v : Nat) : (setDomain s d v).now = s.now := rfl
@[simp] theorem setDomain_draws (s : State) (d v : Nat) : (setDomain s d v).draws = s.draws := rfl
@[simp] theorem setDomain_out (s : State) (d v : Nat) : (setDomain s d v).out = s.out := rfl
@[simp] theorem setDomain_pending (s : State) (d v : Nat) : (setDomain s d v).pending = s.pending := rfl

@[simp] theorem setDev_trl (s : State) (d : DevState) (c : Cause) : (setDev s d c).trl = s.trl := by unfold setDev scanReleased; split <;> rfl
@[simp] theorem setDev_paths (s : State) (d : DevState) (c : Cause) : (setDev s d c).paths = s.paths := by unfold setDev scanReleased; split <;> rfl
@[simp] theorem setDev_d2d (s : State) (d : DevState) (c : Cause) : (setDev s d c).d2d = s.d2d := by unfold setDev scanReleased; split <;> rfl
@[simp] theorem setDev_cxl (s : State) (d : DevState) (c : Cause) : (setDev s d c).cxl = s.cxl := by unfold setDev scanReleased; split <;> rfl
@[simp] theorem setDev_alt (s : State) (d : DevState) (c : Cause) : (setDev s d c).alt = s.alt := by unfold setDev scanReleased; split <;> rfl
@[simp] theorem setDev_mem (s : State) (d : DevState) (c : Cause) : (setDev s d c).mem = s.mem := by unfold setDev scanReleased; split <;> rfl
@[simp] theorem setDev_drp (s : State) (d : DevState) (c : Cause) : (setDev s d c).drp = s.drp := by unfold setDev scanReleased; split <;> rfl
@[simp] theorem setDev_hrv (s : State) (d : DevState) (c : Cause) : (setDev s d c).hrv = s.hrv := by unfold setDev scanReleased; split <;> rfl
@[simp] theorem setDev_ftl (s : State) (d : DevState) (c : Cause) : (setDev s d c).ftl = s.ftl := by unfold setDev scanReleased; split <;> rfl
@[simp] theorem setDev_exl (s : State) (d : DevState) (c : Cause) : (setDev s d c).exl = s.exl := by unfold setDev scanReleased; split <;> rfl
@[simp] theorem setDev_ldg (s : State) (d : DevState) (c : Cause) : (setDev s d c).ldg = s.ldg := by unfold setDev scanReleased; split <;> rfl
@[simp] theorem setDev_allotx (s : State) (d : DevState) (c : Cause) : (setDev s d c).allotx = s.allotx := by unfold setDev scanReleased; split <;> rfl
@[simp] theorem setDev_tin (s : State) (d : DevState) (c : Cause) : (setDev s d c).tin = s.tin := by unfold setDev scanReleased; split <;> rfl
@[simp] theorem setDev_mpx (s : State) (d : DevState) (c : Cause) : (setDev s d c).mpx = s.mpx := by unfold setDev scanReleased; split <;> rfl
@[simp] theorem setDev_gau (s : State) (d : DevState) (c : Cause) : (setDev s d c).gau = s.gau := by unfold setDev scanReleased; split <;> rfl
@[simp] theorem setDev_ddrs (s : State) (d : DevState) (c : Cause) : (setDev s d c).ddrs = s.ddrs := by unfold setDev scanReleased; split <;> rfl
@[simp] theorem setDev_psq (s : State) (d : DevState) (c : Cause) : (setDev s d c).psq = s.psq := by unfold setDev scanReleased; split <;> rfl
@[simp] theorem setDev_nvm (s : State) (d : DevState) (c : Cause) : (setDev s d c).nvm = s.nvm := by unfold setDev scanReleased; split <;> rfl
@[simp] theorem setDev_twi (s : State) (d : DevState) (c : Cause) : (setDev s d c).twi = s.twi := by unfold setDev scanReleased; split <;> rfl
@[simp] theorem setDev_flt (s : State) (d : DevState) (c : Cause) : (setDev s d c).flt = s.flt := by unfold setDev scanReleased; split <;> rfl
@[simp] theorem setDev_log (s : State) (d : DevState) (c : Cause) : (setDev s d c).log = s.log := by unfold setDev scanReleased; split <;> rfl
@[simp] theorem setDev_fus (s : State) (d : DevState) (c : Cause) : (setDev s d c).fus = s.fus := by unfold setDev scanReleased; split <;> rfl
@[simp] theorem setDev_krc (s : State) (d : DevState) (c : Cause) : (setDev s d c).krc = s.krc := by unfold setDev scanReleased; split <;> rfl
@[simp] theorem setDev_fwu (s : State) (d : DevState) (c : Cause) : (setDev s d c).fwu = s.fwu := by unfold setDev scanReleased; split <;> rfl
@[simp] theorem setDev_ist (s : State) (d : DevState) (c : Cause) : (setDev s d c).ist = s.ist := by unfold setDev scanReleased; split <;> rfl
@[simp] theorem setDev_pin (s : State) (d : DevState) (c : Cause) : (setDev s d c).pin = s.pin := by unfold setDev scanReleased; split <;> rfl
@[simp] theorem setDev_regs (s : State) (d : DevState) (c : Cause) : (setDev s d c).regs = s.regs := by unfold setDev scanReleased; split <;> rfl
@[simp] theorem setDev_now (s : State) (d : DevState) (c : Cause) : (setDev s d c).now = s.now := by unfold setDev scanReleased; split <;> rfl
@[simp] theorem setDev_draws (s : State) (d : DevState) (c : Cause) : (setDev s d c).draws = s.draws := by unfold setDev scanReleased; split <;> rfl
@[simp] theorem setDev_out (s : State) (d : DevState) (c : Cause) : (setDev s d c).out = s.out := by unfold setDev scanReleased; split <;> rfl
@[simp] theorem setDev_pending (s : State) (d : DevState) (c : Cause) : (setDev s d c).pending = s.pending := by unfold setDev scanReleased; split <;> rfl

end Sys2Proof.Machine
end

