-- ==== Sys2Proof/Laws/Trellis.lean ====
section
/-! SUPPORT. What a Trellis packet does that runs as it arrives. -/

namespace Sys2Proof.Machine

open Sys2Proof

/-- The entry of an admitted command holds the packet itself. -/
theorem admitted_cmd (s : State) (c : TrellisCmd) : (admitCmd s c).2.cmd = c := rfl

/-- The checks that every command meets as it starts pass. -/
theorem begin_passes (eff : InFlight → State → State) (f : InFlight) (s : State)
    (hp : payloadLost f.cmd = false) (hu : undefinedByte f.cmd = none) : begin eff f s = eff f s := by
  simp only [begin, hp, hu, Bool.false_eq_true, if_false]

/-- What `started` says of a packet that runs at once. -/
theorem started_iff {op : Nat} {c : TrellisCmd} {s s1 : State} {f : InFlight} (h : started op c s = some (s1, f)) :
    ((tick s c.t).dev.state == .off || !carrierTakes (tick s c.t) (packetAs op c (tick s c.t)).carrier
        || !addressed (tick s c.t) (packetAs op c (tick s c.t)) || mailboxBusy (tick s c.t) (packetAs op c (tick s c.t))) = false
      ∧ checkPacket (tick s c.t) (packetAs op c (tick s c.t)) = none
      ∧ admitCmd (tick s c.t) (packetAs op c (tick s c.t)) = (s1, f)
      ∧ ready s1 f = true ∧ payloadLost f.cmd = false ∧ undefinedByte f.cmd = none := by
  have hcmd := admitted_cmd (tick s c.t) (packetAs op c (tick s c.t))
  simp only [started] at h
  generalize packetAs op c (tick s c.t) = p at h hcmd ⊢
  generalize tick s c.t = u at h hcmd ⊢
  split at h
  · cases h
  · rename_i hg
    split at h
    · rename_i hr
      injection h with h
      rw [h] at hr hcmd
      simp only [Bool.or_eq_true, not_or, Bool.not_eq_true] at hg
      simp only [Bool.and_eq_true, Bool.not_eq_true', Option.isNone_iff_eq_none] at hr
      simp only [← hcmd] at hr
      obtain ⟨⟨⟨⟨h1, h2⟩, h3⟩, h4⟩, h5⟩ := hg
      exact ⟨by simp only [h1, h2, h3, h4, Bool.or_self], by simpa using h5, h, hr.1.1, hr.1.2, hr.2⟩
    · cases h

/-- The packet of a command that runs at once. -/
theorem started_cmd {op : Nat} {c : TrellisCmd} {s s1 : State} {f : InFlight} (h : started op c s = some (s1, f)) :
    f.cmd = packetAs op c (tick s c.t) := by
  have hcmd := admitted_cmd (tick s c.t) (packetAs op c (tick s c.t))
  rwa [(started_iff h).2.2.1] at hcmd

/-- A packet that runs at once has its opcode's effect, on the state that admitted it. -/
theorem submit_of_started {op : Nat} {c : TrellisCmd} {s s1 : State} {f : InFlight} (eff : InFlight → State → State)
    (h : started op c s = some (s1, f)) : submit eff op c s = eff f s1 := by
  obtain ⟨h1, h2, h3, h4, h5, h6⟩ := started_iff h
  simp only [submit, h1, h2, h3, h4, Bool.false_eq_true, if_false, if_true]
  exact begin_passes eff f s1 h5 h6

end Sys2Proof.Machine
end

