-- ==== Sys2Proof/Tests/Slice0.lean ====
section
/-! SUPPORT. Tests: an ill-formed command for each check of `Instr.wf`; worked values of the manual; and for every statement of
the obligations that has hypotheses concrete states and operands that meet them, clause by clause. A hypothesis on an opaque
value of Config (a record tag, a container signature) is left out of its clause: nothing in Lean can evaluate it. -/

namespace Sys2Proof.Tests

open Sys2Proof Sys2Proof.Machine

/-! The theorems are checked one after the other. -/

set_option Elab.async false

/-- A unit in service with one host link up. -/
def on : State := { State.reset with
  dev := { State.reset.dev with state := .serving, vaon := true }
  d2d := { State.reset.d2d with up := true }
  cxl := { State.reset.cxl with ports := [(0, { link := 2 })] }
  mpx := { State.reset.mpx with a := { st := 0 }, b := { st := 0 } } }

/-- The same unit in another device state. -/
def at_ (d : DevState) : State := { on with dev := { on.dev with state := d } }

/-- Parameter bytes 24 to 63 with the listed (byte, size, value) set. -/
def pars (l : List (Nat × Nat × Nat)) : List Byte := l.foldl (fun b p => overlay b (p.1 - 24) (le p.2.2 p.2.1)) (zeros 40)

/-- A packet of board management with these parameters and payload. -/
def pk (l : List (Nat × Nat × Nat)) (pay : List Byte := []) (id : Nat := 0xFFFF) : TrellisCmd :=
  { params := pars l, allot := id, payLen := pay.length, payload := pay }

/-- A packet of the host bound to queue pair 0. -/
def hk (l : List (Nat × Nat × Nat)) (pay : List Byte := []) (id : Nat := 0xFFFF) : TrellisCmd :=
  { pk l pay id with carrier := .qp 0, est := 1, issuer := 1 }

/-- Queue pair 0 active and bound to host 1. -/
def host (s : State) : State := setQp s 0 { enable := true, st := .active, issuer := 1#16 }

/-- Function `f` in host-assisted mode, owned by issuer `i`. -/
def own (s : State) (f i : Nat) : State := setFunc s f { mode := true, hasOwner := true, owner := BitVec.ofNat 16 i, watchdog := 1000 }


/-- Allotment `id` in a table of eight extents. -/
def alT (s : State) (id : Nat) (a : Allot) : State := { s with alt := { s.alt with total := 8, tab := tset s.alt.tab id a } }

/-- Command 7 in flight and executing job `j`. -/
def fl (s : State) (j : Job) (c : TrellisCmd := pk []) : State :=
  { s with trl := { s.trl with flight := [{ id := 7, cmd := c, phase := 1, job := j }] } }

/-- The unit paired, its session open or not. -/
def pr (s : State) (session : Bool) : State := { s with exl := { s.exl with paired := true, session := session } }

/-- Host 1's binding with these accepted extents. -/
def bnd (acc : List Nat := []) : Binding := { issuer := 1#16, accepted := acc }

/-- A unit whose pack and rails allow a rehearsal. -/
def rdy : State := { on with
  gau := { on.gau with usable := true, soc := 10000, temps := [some 2500, none, none, none], tsGood := [8, 8, 8, 8] }
  psq := { on.psq with table := { builtin := false, slots := [{ cls := 1 }, { cls := 2, prereq := 1 }] }, good := [0, 1] }
  regs := tset on.regs rGauRehCfg (BitVec.ofNat 32 (2 ^ 31 + 50 * 2 ^ 16 + 1)) }

/-- A rehearsal under way in this phase, at time `n`. -/
def reh (ph n : Nat) : State := { rdy with now := n, gau := { rdy.gau with reh := some { phase := ph } } }

/-- A flit of type `typ` with its CRC-32 (R244). -/
def flit (typ : Nat) (f : FlitIn) : FlitIn := { f with crc := BitVec.ofNat 32 (crc32 (flitHead typ f.seq f.body)) }


/-- One ill-formed term for every check of `Instr.wf`; each is refused. -/
theorem test_wf_refuses_1 : ([
    .echo { op := 65536 }, .echo { flags := 256 }, .echo { version := 256 }, .echo { tag := 2 ^ 32 },
    .echo { allot := 65536 }, .echo { issuer := 65536 }, .echo { est := 65536 }, .echo { payLen := 2 ^ 32 },
    .echo { payAddr := 2 ^ 64 }, .echo { params := List.replicate 41 0 }, .echo { head := { addr := 128 } },
    .identify { op := 65536 }, .regRead { op := 65536 }, .regWrite { op := 65536 }, .regReadMulti { op := 65536 },
    .allotCreate { op := 65536 }, .allotResize { op := 65536 }, .allotDelete { op := 65536 },
    .allotBind { op := 65536 }, .allotQuery { op := 65536 }, .exposureQuery { op := 65536 },
    .dripPolicySet { op := 65536 }, .flushRange { op := 65536 }, .harvestPlanLoad { op := 65536 },
    .fullSave { op := 65536 }, .replantOrderLoad { op := 65536 }, .pair { op := 65536 }, .unpair { op := 65536 },
    .failover { op := 65536 }, .resync { op := 65536 }, .tallyCompare { op := 65536 }, .packInfo { op := 65536 },
    .gaugeRead { op := 65536 }, .gaugeRaw { op := 65536 }, .rehearsalRun { op := 65536 },
    .powerStateReq { op := 65536 }, .railTableLoad { op := 65536 }, .slaveSeqCmd { op := 65536 },
    .faultStatus { op := 65536 }, .faultClear { op := 65536 }, .faultInject { op := 65536 },
    .logCursorSet { op := 65536 }, .logReadWindow { op := 65536 }, .logClear { op := 65536 },
    .fwStageBegin { op := 65536 }, .fwStageData { op := 65536 }, .fwStageEnd { op := 65536 },
    .fwActivateAt { op := 65536 }, .fwConfirm { op := 65536 }, .keyLabelSet { op := 65536 },
    .recordSeal { op := 65536 }, .recordOpen { op := 65536 }, .aesBlock { op := 65536 }, .testSchedule { op := 65536 },
    .testResult { op := 65536 }, .funcModeSet { op := 65536 }, .funcModeQuery { op := 65536 },
    .lateStatusFetch { op := 65536 }, .mailboxTrellisPacket (2 ^ 16) {} 0, .mailboxTrellisPacket 0 { port := 4 } 0,
    .mailboxTrellisPacket 0 { issuer := 65536 } 0, .mailboxIdentify { port := 4 } 0,
    .backgroundOperationStatus { port := 4 } 0, .getEventRecords { port := 4 } 0, .clearEventRecords { port := 4 } 0,
    .getEventInterruptPolicy { port := 4 } 0, .setEventInterruptPolicy { port := 4 } 0, .getTimestamp { port := 4 } 0,
    .setTimestamp { port := 4 } 0, .getSupportedLogs { port := 4 } 0] : List Instr).any Instr.wf = false := by decide +kernel

/-- Further ill-formed terms. -/
theorem test_wf_refuses_2 : ([
    .getLog { port := 4 } 0, .identifyMemoryDevice { port := 4 } 0, .getHealthInfo { port := 4 } 0,
    .getAlertConfiguration { port := 4 } 0, .setAlertConfiguration { port := 4 } 0, .getShutdownState { port := 4 } 0,
    .setShutdownState { port := 4 } 0, .getPoisonList { port := 4 } 0, .injectPoison { port := 4 } 0,
    .clearPoison { port := 4 } 0, .getDynamicCapacityConfiguration { port := 4 } 0,
    .getDynamicCapacityExtentList { port := 4 } 0, .addDynamicCapacityResponse { port := 4 } 0,
    .releaseDynamicCapacity { port := 4 } 0, .getLdInfo { port := 4 } 0, .getLdAllocations { port := 4 } 0,
    .setLdAllocations { port := 4 } 0, .getQosControl { port := 4 } 0, .setQosControl { port := 4 } 0,
    .getQosStatus { port := 4 } 0, .getQosAllocatedBandwidth { port := 4 } 0, .setQosAllocatedBandwidth { port := 4 } 0,
    .getQosBandwidthLimit { port := 4 } 0, .setQosBandwidthLimit { port := 4 } 0, .setEndpointId { addr := 128 } 0 0,
    .setEndpointId { back := 128 } 0 0, .setEndpointId { src := 256 } 0 0, .setEndpointId { tag := 8 } 0 0,
    .setEndpointId {} 256 0, .getEndpointId { addr := 128 } 0, .getMctpVersionSupport { addr := 128 } 0 0,
    .getMctpVersionSupport {} 256 0, .getMessageTypeSupport { addr := 128 } 0, .mctpTrellisMessage { addr := 128 } [] 0,
    .getVersion 4 [] 0, .getCapabilities 4 [] 0, .negotiateAlgorithms 4 [] 0, .getDigests 4 [] 0,
    .getCertificate 4 [] 0, .challenge 4 [] 0, .getMeasurements 4 [] 0, .keyExchange 4 [] 0, .finish 4 [] false 0,
    .endSession 4 [] 0, .keyUpdate 4 [] 0, .ideKm 4 [] 0, .qpEnable { issuer := 65536 } 0 0,
    .qpEnable { off := 2 ^ 28 } 0 0, .qpEnable { size := 9 } 0 0, .qpEnable {} (2 ^ 32) 0,
    .qpDisable { issuer := 65536 } 0 0, .qpDisable {} (2 ^ 32) 0, .sqTailDoorbell { issuer := 65536 } 0 0,
    .sqTailDoorbell {} (2 ^ 32) 0, .cqHeadDoorbell { issuer := 65536 } 0 0, .cqHeadDoorbell {} (2 ^ 32) 0,
    .qpReplyWrite 64 false 0, .lowWordRead { issuer := 65536 } 0, .highWordWrite { issuer := 65536 } 0 0,
    .highWordWrite {} (2 ^ 32) 0, .rcRegisterRead { issuer := 65536 } 0, .adcQueueRead { issuer := 65536 } 0,
    .registerWrite { issuer := 65536 } 0 0, .registerWrite {} (2 ^ 32) 0, .ddrLaneDelay { issuer := 65536 } 0 0,
    .ddrLaneDelay {} (2 ^ 32) 0, .hostDelayApply 16 0 false 0, .hostDelayApply 0 128 false 0,
    .ddrScrubHostRate { issuer := 65536 } 0 0, .ddrScrubHostRate {} (2 ^ 32) 0] : List Instr).any Instr.wf = false := by decide +kernel

/-- Further ill-formed terms. -/
theorem test_wf_refuses_3 : ([
    .ftlStream { issuer := 65536 } 0 0, .ftlStream {} (2 ^ 32) 0, .ftlWearHost { issuer := 65536 } 0 0,
    .ftlWearHost {} (2 ^ 32) 0, .gauHostSoc { issuer := 65536 } 0 0, .gauHostSoc {} (2 ^ 32) 0,
    .psqHostStep { issuer := 65536 } 0 0, .psqHostStep {} (2 ^ 32) 0, .heartbeatRecordIn { issuer := 65536 } 0 0,
    .heartbeatRecordIn {} (2 ^ 32) 0, .adcStart { issuer := 65536 } 0 0, .adcStart {} (2 ^ 32) 0,
    .adcStop { issuer := 65536 } 0 0, .adcStop {} (2 ^ 32) 0, .twiUnfence { issuer := 65536 } 0 false 0,
    .twiUnfence {} (2 ^ 32) false 0, .rdpRaise { issuer := 65536 } 0 0, .rdpRaise {} (2 ^ 32) 0,
    .rdpLower { issuer := 65536 } 0 0, .rdpLower {} (2 ^ 32) 0, .fuseAdvanceSecured { issuer := 65536 } 0 0,
    .fuseAdvanceSecured {} (2 ^ 32) 0, .fuseAdvanceRetired { issuer := 65536 } 0 0, .fuseAdvanceRetired {} (2 ^ 32) 0,
    .fuseSetHaDeny { issuer := 65536 } 0 0, .fuseSetHaDeny {} (2 ^ 32) 0, .fuseRaiseRdpFloor { issuer := 65536 } 0 0,
    .fuseRaiseRdpFloor {} (2 ^ 32) 0, .fuseSetDebugLock { issuer := 65536 } 0 0, .fuseSetDebugLock {} (2 ^ 32) 0,
    .fuseRaiseSvn { issuer := 65536 } 0 0, .fuseRaiseSvn {} (2 ^ 32) 0, .fuseRevokeKey { issuer := 65536 } 0 0,
    .fuseRevokeKey {} (2 ^ 32) 0, .fatalNotice 512 0 0, .fatalNotice 0 4294967296 0, .slotEnable 24 0, .slotGood 24 0,
    .railRamp 24 0, .slotDisable 24 0, .slotOff 24 0, .railSlowOff 24 0, .railFault 24 false 0 0,
    .railFault 0 false 4096 0, .heldRailExcursion 24 0, .drstSeen 16 0, .trainingStepComplete (.images [128]) 0,
    .trainingStepComplete (.spd [{ chan := 16 }] 0) 0, .trainingStepComplete (.flash [{ chan := 32 }]) 0,
    .trainingStepComplete (.dram [{ chan := 16 }]) 0, .trainingStepComplete (.dram [{ lane := 128 }]) 0,
    .cxlLinkUp 4 0 0 false 0, .cxlLinkDown 4 0, .perstN 4 false 0, .cxlMemRead { port := 4 } {} 0,
    .cxlMemRead { issuer := 65536 } {} 0, .cxlMemRead { dpa := 63 } {} 0,
    .cxlMemRead { data := List.replicate 65 0 } {} 0, .cxlMemRead {} { ingress := 101 } 0,
    .cxlMemRead {} { share := 101 } 0, .cxlMemWrite { port := 4 } {} 0, .cxlMemWrite {} { ingress := 101 } 0,
    .gpfPhase1 4 0, .gpfPhase2 4 0, .gpfDeadline 4 0, .ideIntegrityFailure 4 [] 0,
    .priorityFetchDone 0 { effort := 3 } 0, .priorityFetchDone 0 { fails := [(16, 0)] } 0,
    .priorityFetchDone 0 { fails := [(0, 4)] } 0, .selfRefreshEntry 16 0] : List Instr).any Instr.wf = false := by decide +kernel

/-- Further ill-formed terms. -/
theorem test_wf_refuses_4 : ([
    .selfRefreshExit 16 0, .refreshDue 16 0 false [] 0, .refreshDue 0 8 false [] 0, .requestUrgent 16 0 0,
    .retrainDue 16 0, .dimmTempPoll 16 [] 0, .scrubChunk 16 [] [] 0, .tallyRebuildDone 16 [] 0,
    .flashReadDone 0 { effort := 3 } 0, .patrolSchedule 0 { effort := 3 } 0, .faultReport 512 0 0 false 0,
    .faultReport 0 4294967296 0 false 0, .polledSourceCheck 512 0 false 0, .polledSourceCheck 0 4294967296 false 0,
    .logRatePeriod 65536 0, .nvmProgramDone 2 false 0, .nvmEraseDone 2 0, .nvmEraseResume 2 0, .mpPairBooted 2 0,
    .loadWindowEnd 1001 0 0, .loadWindowEnd 0 1001 0, .quiescentPointSwitch 11 0, .funcSwitchTimeout 11 0,
    .haWatchdog 11 0, .bedClockStop 16 0, .sublinkSignalDetect 4 0, .sublinkEqDone 4 0, .sublinkAlignLock 4 [] 0,
    .sublinkSyncDone 4 0, .sublinkAuthDone 4 0 0, .sublinkStateTimeout 4 0, .sublinkRetrainStart 4 0,
    .sublinkHoldEnd 4 0, .sublinkLost 4 0, .flitCrcFailure 4 0, .linkAck 4 0 0, .linkNak 4 0 0, .replayTimeout 4 0,
    .macFlit { sub := 4 } false 0, .macFlit { seq := 4096 } false 0, .macFlit { body := List.replicate 251 0 } false 0,
    .record { sub := 4 } {} 0, .record {} { data := List.replicate 65 0 } 0, .accept { sub := 4 } 0 0 0,
    .accept {} 4 0 0, .credit { sub := 4 } 0 0 0, .credit {} 4 0 0, .room { sub := 4 } 0 0 0 [] 0,
    .clean { sub := 4 } [] 0, .epoch { sub := 4 } 0 0 0, .cutMark { sub := 4 } 0 0, .tally { sub := 4 } 0 0 0 0,
    .crcBlock { sub := 4 } 0 [] 0, .harvest { sub := 4 } 0 0 0 0, .harvest {} 0 4 0 0, .harvestDone { sub := 4 } 0 0,
    .rehome { sub := 4 } 0 0 0, .rehome {} 4 0 0, .rekey { sub := 4 } 0 0, .keySwitch { sub := 4 } 0 0,
    .table { sub := 4 } {} 0, .table {} { allot := 65536 } 0, .table {} { part := 2 } 0, .commit { sub := 4 } 0 0 0 0 0,
    .hello { sub := 4 } {} 0, .hello {} { serial := 2 ^ 64 } 0, .hello {} { group := 65536 } 0,
    .hello {} { nonce := List.replicate 17 0 } 0, .proof { sub := 4 } [] 0, .spdm { sub := 4 } 0 [] 0] : List Instr).any Instr.wf = false := by decide +kernel

/-- Further ill-formed terms. -/
theorem test_wf_refuses_5 : ([
    .flush { sub := 4 } 0 0 0 0, .flushed { sub := 4 } 0 0 0, .state { sub := 4 } [] 0, .compare { sub := 4 } 0 0 0 0,
    .compare {} 0 0 65 0, .exlKeyExhausted 4 0, .protectorRead 65536 false 0, .slaveStatusPoll 0 65536 false 0,
    .twiTransactionDone 4 .ok [] 0, .twiRetry 4 0, .arbitrationLost 4 0, .clockLowTimeout 4 false 0,
    .busClear 4 false 0, .adcTimerTrigger 2 0, .adcConversionDone 2 0 0, .converterReference 2 0 0 0,
    .converterReference 0 4096 0 0, .converterReference 0 0 4096 0, .istCoverage 6 0, .injectionTimeout 512 0] : List Instr).any Instr.wf = false := by decide +kernel

/-- Terms at the edge of their bounds are accepted. -/
theorem test_wf_accepts : ([.echo { op := 65535, allot := 65535, tag := 2 ^ 32 - 1, params := List.replicate 40 0 },
    .sublinkEqDone 3 0, .rehearsalDue 0] : List Instr).all Instr.wf = true := by decide +kernel

/-- The nine ASCII bytes "123456789". -/
def digits : List Byte := [0x31, 0x32, 0x33, 0x34, 0x35, 0x36, 0x37, 0x38, 0x39]

/-- The check value of R206. -/
theorem test_crc32c : crc32c digits = 0xE3069283 := by decide +kernel

/-- The check value of R132. -/
theorem test_crc64 : crc64 digits = 0x6C40DF5F0B497347 := by decide +kernel

/-- The check value of R244, the flit CRC. -/
theorem test_crc32 : crc32 digits = 0xCBF43926 := by decide +kernel

/-- FIPS 197, appendix C.3. -/
theorem test_aes256 : beN (aesEnc (List.range 32) ((List.range 16).map (17 * ·))) = 0x8EA2B7CA516745BFEAFC49904B496089 := by
  decide +kernel

/-- FIPS 197, appendix C.3, the other way. -/
theorem test_aes256_back : aesDec (List.range 32) (aesEnc (List.range 32) ((List.range 16).map (17 * ·)))
    = (List.range 16).map (17 * ·) := by decide +kernel

/-- FIPS 180-4: SHA-384 of "abc". -/
theorem test_sha384 : beN (sha384 [0x61, 0x62, 0x63])
    = 0xCB00753F45A35E8BB5A03D699AC65007272C32AB0EDED1631A8B605A43FF5BED8086072BA1E7CC2358BAECA134C825A7 := by decide +kernel

/-- The table gives no row bits, so no word spells a command. -/
theorem test_no_word : decodeTableWord 16 1 = none := by decide

/-- The 32-byte replies (Table 2.3) that a step on a unit in service sends to board management. -/
def answers (i : Instr) : List (List Byte) := match step { on with pending := [i] } with
  | .next s => s.out.filterMap (fun o => match o with | .mctp _ _ _ d => some (d.drop 6) | _ => none)
  | _ => []

/-- ECHO ends OK and returns parameter bytes 24 to 39 as result bytes 16 to 31 (R62). -/
theorem test_echo : ((answers (.echo (pk [(24, 4, 0x44332211)]))).map (fun d => (rd d 6 1, rd d 16 16))) = [(0, 0x44332211)] := by
  decide +kernel

/-- A version other than 0x01 is the first failure R40 names: BAD_PARAM, 0x04, with the byte's offset in the packet. -/
theorem test_version : ((answers (.echo { version := 2 })).map (fun d => (rd d 6 1, rd d 12 1))) = [(4, 3)] := by decide +kernel

/-- Clause by clause, states and operands that meet the hypotheses of `Obligations.StepRunsTheFrontCommand`. -/
theorem witness_StepRunsTheFrontCommand : ([
    let c : Instr := (.bedWake 3 : Instr); let rest : List Instr := ([] : List Instr);
      let s : State := { on with pending := [.bedWake 3] }; decide (s.pending = c :: rest),
    let s : State := on; decide (s.pending = [])] : List Bool).all id = true := by decide +kernel

/-- Clause by clause, states and operands that meet the hypotheses of `Obligations.EveryStepKeepsTheInvariant`. -/
theorem witness_EveryStepKeepsTheInvariant : ([
    (match step { on with pending := [.bedWake 3] } with | .next _ => true | _ => false),
    (match step on with | .next _ => on.sound | _ => false)] : List Bool).all id = true := by decide +kernel

/-- Clause by clause, states and operands that meet the hypotheses of `Obligations.PacketChecksInOrder`. -/
theorem witness_PacketChecksInOrder : ([
    let c : TrellisCmd := ({ op := 1, version := 2 } : TrellisCmd); decide (c.version ≠ 1),
    let c : TrellisCmd := ({ op := 3 } : TrellisCmd); decide (c.version = 1 ∧ opRow c.op = none),
    let c : TrellisCmd := ({ op := 1, flags := 8 } : TrellisCmd); decide (c.version = 1) && ((match opRow c.op with | some _ => decide (8 ≤ c.flags) | _ => false)),
    let s : State := (admitCmd on { op := 1 }).1;
      let c : TrellisCmd := ({ op := 1, flags := 7 } : TrellisCmd); decide (c.version = 1) && ((match opRow c.op with | some _ => decide (c.flags < 8 ∧ (onCarrier s c.carrier).any (fun f => f.cmd.tag == c.tag) = true) | _ => false)),
    let s : State := on;
      let c : TrellisCmd := ({ op := 1, issuer := 0x2001 } : TrellisCmd); decide (c.version = 1) && ((match opRow c.op with | some _ => decide (c.flags < 8 ∧ (onCarrier s c.carrier).any (fun f => f.cmd.tag == c.tag) = false ∧ c.issuer ≠ c.est) | _ => false)),
    let s : State := on;
      let c : TrellisCmd := ({ op := 0x0100, est := 1, issuer := 1 } : TrellisCmd); decide (c.version = 1) && ((match opRow c.op with | some r => decide (c.flags < 8 ∧ (onCarrier s c.carrier).any (fun f => f.cmd.tag == c.tag) = false) && ((checkIssuer s c r).isSome) | _ => false)),
    let s : State := at_ .held;
      let c : TrellisCmd := ({ op := 0x0100, allot := 1 } : TrellisCmd); decide (c.version = 1) && ((match opRow c.op with | some r => decide (c.flags < 8 ∧ (onCarrier s c.carrier).any (fun f => f.cmd.tag == c.tag) = false ∧ checkIssuer s c r = none ∧ servedNow s c r = false ∧ s.dev.state ≠ .latched) | _ => false)),
    let s : State := at_ .latched;
      let c : TrellisCmd := ({ op := 0x0100, allot := 1 } : TrellisCmd); decide (c.version = 1) && ((match opRow c.op with | some r => decide (c.flags < 8 ∧ (onCarrier s c.carrier).any (fun f => f.cmd.tag == c.tag) = false ∧ checkIssuer s c r = none ∧ servedNow s c r = false ∧ s.dev.state = .latched) | _ => false)),
    let s : State := on;
      let c : TrellisCmd := ({ op := 0x0100, allot := 0x1000 } : TrellisCmd); decide (c.version = 1) && ((match opRow c.op with | some r => decide (c.flags < 8 ∧ (onCarrier s c.carrier).any (fun f => f.cmd.tag == c.tag) = false ∧ checkIssuer s c r = none ∧ servedNow s c r = true) && ((checkLimits c r).isSome) | _ => false)),
    let s : State := on;
      let c : TrellisCmd := ({ op := 1 } : TrellisCmd); decide (c.version = 1) && ((match opRow c.op with | some r => decide (c.flags < 8 ∧ (onCarrier s c.carrier).any (fun f => f.cmd.tag == c.tag) = false ∧ checkIssuer s c r = none ∧ servedNow s c r = true ∧ checkLimits c r = none) | _ => false)),
    let s : State := host on;
      let c : TrellisCmd := { hk [] [] 5 with op := 0x0200 }; (match opRow c.op with | some r => decide (namesAllot c ≠ 0 ∧ c.issuer = c.est ∧ issClass c.est = 0 ∧ bit r.iss 0 = true ∧ c.allot < 0x1000 ∧ bound s c.est c.allot = false) | _ => false),
    let c : TrellisCmd := ({ op := 0x0304, allot := 0x1000 } : TrellisCmd); (match opRow c.op with | some _ => decide (namesAllot c ≠ 0 ∧ ((0x1000 ≤ c.allot ∧ c.allot ≠ 0xFFFF) ∨ (namesAllot c = 1 ∧ c.allot = 0xFFFF))) | _ => false),
    let s : State := on; let c : TrellisCmd := ({ op := 1 } : TrellisCmd); decide (checkPacket s c = none)] : List Bool).all id = true := by decide +kernel

/-- Clause by clause, states and operands that meet the hypotheses of `Obligations.EveryTrellisRowRefusesOrRuns`. -/
theorem witness_EveryTrellisRowRefusesOrRuns : ([
    (trellisRows.all (fun row => let u := tick (at_ .off) 0; decide (u.dev.state = .off ∨ carrierTakes u (.mctp 0) = false ∨ mailboxBusy u (packetAs row.1 (pk []) u) = true))),
    (trellisRows.all (fun row => let u := tick on 0; decide (u.dev.state ≠ .off ∧ carrierTakes u (.mctp 0) = true ∧ mailboxBusy u (packetAs row.1 { pk [] with version := 0 } u) = false) && (checkPacket u (packetAs row.1 { pk [] with version := 0 } u)).isSome)),
    (trellisRows.all (fun row => (started row.1 { pk [] with allot := if namesAllot (packetAs row.1 (pk []) on) == 1 then 1 else 0xFFFF } on).isSome))] : List Bool).all id = true := by decide +kernel

/-- Clause by clause, states and operands that meet the hypotheses of `Obligations.PacketBytesRoundTrip`. -/
theorem witness_PacketBytesRoundTrip : ([
    let c : TrellisCmd := { pk [(24, 8, 2 ^ 64 - 1)] with op := 0xFFFF, tag := 2 ^ 32 - 1 }; decide (c.wf = true ∧ c.params.length = 40),
    let b : List Byte := zeros 64; decide (b.length = 64)] : List Bool).all id = true := by decide +kernel

/-- Clause by clause, states and operands that meet the hypotheses of `Obligations.ReplyLayout`. -/
theorem witness_ReplyLayout : ([
    decide (15 < 16)] : List Bool).all id = true := by decide +kernel

/-- Clause by clause, states and operands that meet the hypotheses of `Obligations.HostMemoryReadAfterWrite`. -/
theorem witness_HostMemoryReadAfterWrite : ([
    let m : List Host.Cell := ([(2, 1#8)] : List Host.Cell); decide (Memory.wf m = true),
    let m : List Host.Cell := ([(2, 1#8)] : List Host.Cell); decide (Memory.wf m = true) && (true),
    let m : List Host.Cell := ([(2, 1#8)] : List Host.Cell); decide (Memory.wf m = true),
    let m : List Host.Cell := ([(2, 1#8)] : List Host.Cell); decide (Memory.wf m = true) && (true),
    let m : List Host.Cell := ([(2, 1#8)] : List Host.Cell); decide (Memory.wf m = true),
    let m : List Host.Cell := ([(2, 1#8)] : List Host.Cell); decide (Memory.wf m = true) && (true)] : List Bool).all id = true := by decide +kernel

/-- Clause by clause, states and operands that meet the hypotheses of `Obligations.MalformedAccessReadsOnesAndIsRecorded`. -/
theorem witness_MalformedAccessReadsOnesAndIsRecorded : ([
    let a : RegAcc := ({ off := 2 } : RegAcc); let t : Nat := 0; let s : State := on;
      let u := tick s t; decide (reachable u a = true ∧ (a.size ≠ 4 ∨ a.off % 4 ≠ 0 ∨ inBlock a.off = false)),
    let a : RegAcc := ({ off := 0x05C00000 } : RegAcc); let t : Nat := 0; let s : State := on;
      let u := tick s t; decide (reachable u a = true ∧ (a.size ≠ 4 ∨ a.off % 4 ≠ 0 ∨ inBlock a.off = false))] : List Bool).all id = true := by decide +kernel

/-- Clause by clause, states and operands that meet the hypotheses of `Obligations.DirectReadsAnswerTheRegister`. -/
theorem witness_DirectReadsAnswerTheRegister : ([
    let a : RegAcc := ({ off := 0 } : RegAcc); let t : Nat := 0; let s : State := at_ .off; let u := tick s t; decide (reachable u a = false),
    let a : RegAcc := ({ path := .cxlio 0, off := 0x00100000, full := false } : RegAcc); let t : Nat := 0; let s : State := on;
      let u := tick s t; decide (reachable u a = true ∧ malformed a = false ∧ a.full = false ∧ hidden a.off = true),
    let a : RegAcc := ({ off := 0x05000000 } : RegAcc); let t : Nat := 0; let s : State := on;
      let u := tick s t; decide (reachable u a = true ∧ malformed a = false ∧ (a.full = true ∨ hidden a.off = false) ∧ bridged a = false),
    let a : RegAcc := ({ path := .cxlio 0, off := 0x05000000 } : RegAcc); let t : Nat := 0; let s : State := on;
      let u := tick s t; decide (reachable u a = true ∧ malformed a = false ∧ (a.full = true ∨ hidden a.off = false) ∧ bridged a = true ∧ bridgeFree u = true),
    let a : RegAcc := ({ path := .cxlio 0, off := 0x05000000 } : RegAcc); let t : Nat := 0;
      let s : State := { on with d2d := { on.d2d with up := false } };
      let u := tick s t; decide (reachable u a = true ∧ malformed a = false ∧ (a.full = true ∨ hidden a.off = false) ∧ bridged a = true ∧ bridgeFree u = false),
    let s : State := on; let off : Nat := 0x05BFFFFC; decide (regFind s off = none ∧ (off < rLogWindow ∨ rLogWindow + 0x1000 ≤ off)),
    let s : State := on;
      let off : Nat := rAdcQueue; (match regFind s off with | some (r, _, z2) => decide (z2 = false ∧ r.addr = rAdcQueue ∧ s.adc.queue = []) | _ => false),
    let s : State := { on with adc := { on.adc with queue := [{}] } };
      let off : Nat := rAdcQueue; (match regFind s off with | some (r, _, z2) => decide (z2 = false ∧ r.addr = rAdcQueue) && ((match s.adc.queue with | _ :: _ => true | _ => false)) | _ => false)] : List Bool).all id = true := by decide +kernel

/-- Clause by clause, states and operands that meet the hypotheses of `Obligations.WideRegistersAreCapturedAtTheLowWord`. -/
theorem witness_WideRegistersAreCapturedAtTheLowWord : ([
    let s : State := on; let off : Nat := rExlEpoch; (match regFind s off with | some (r, _, z2) => decide (z2 = false ∧ r.wide = true) | _ => false),
    let s : State := on; let p : Path := (.mctp 0);
      let off : Nat := rExlEpoch; (match regFind s off with | some (r, _, z2) => decide (z2 = false ∧ r.wide = true) && (let k := 0; decide (k ≠ pathReg p off)) | _ => false),
    let s : State := on; let p : Path := (.mctp 0);
      let off : Nat := rExlEpoch; (match regFind s off with | some (r, i, z2) => decide (z2 = false ∧ r.wide = true) && (let w : State := { on with paths := { on.paths with captures := [(pathReg (.mctp 0) rExlEpoch, 1#64)] } }; decide (regFind w (off + 4) = some (r, i, true)) && ((tget w.paths.captures (pathReg p off)).isSome)) | _ => false),
    let s : State := on; let p : Path := (.mctp 0);
      let off : Nat := rExlEpoch; (match regFind s off with | some (r, i, z2) => decide (z2 = false ∧ r.wide = true) && (let w : State := on; decide (regFind w (off + 4) = some (r, i, true) ∧ tget w.paths.captures (pathReg p off) = none)) | _ => false)] : List Bool).all id = true := by decide +kernel

/-- Clause by clause, states and operands that meet the hypotheses of `Obligations.WideRegistersCommitAtTheHighWord`. -/
theorem witness_WideRegistersCommitAtTheHighWord : ([
    let a : RegAcc := ({ off := rLogCursor } : RegAcc); let t : Nat := 0; let s : State := on;
      let u := tick s t; decide ((lands u a).isSome = true) && ((match regFind u a.off with | some (r, _, z2) => decide (z2 = false ∧ r.wide = true) | _ => false)),
    let a : RegAcc := ({ off := (rLogCursor + 4) } : RegAcc); let t : Nat := 0; let i : Nat := 0; let s : State := on;
      let u := tick s t; decide (lands u a = some (rLogCursor, i, true)),
    let a : RegAcc := ({ off := (rTrlQpSqBase + 4) } : RegAcc); let t : Nat := 0; let s : State := on;
      let u := tick s t; (match lands u a with | some (c, n, z2) => decide (z2 = true ∧ (issClass a.issuer = 1 ∨ issClass a.issuer = 2) ∧ (qp u n).st = .idle ∧ c = rTrlQpSqBase) | _ => false),
    let a : RegAcc := ({ off := (rTrlQpCqBase + 4) } : RegAcc); let t : Nat := 0; let s : State := on;
      let u := tick s t; (match lands u a with | some (c, n, z2) => decide (z2 = true ∧ (issClass a.issuer = 1 ∨ issClass a.issuer = 2) ∧ (qp u n).st = .idle ∧ c = rTrlQpCqBase) | _ => false),
    let a : RegAcc := ({ off := (rTrlQpCqTailAddr + 4) } : RegAcc); let t : Nat := 0; let s : State := on;
      let u := tick s t; (match lands u a with | some (c, n, z2) => decide (z2 = true ∧ (issClass a.issuer = 1 ∨ issClass a.issuer = 2) ∧ (qp u n).st = .idle ∧ c = rTrlQpCqTailAddr) | _ => false),
    regTable.any (fun r => r.wide && accMask r (fun x => x == .rw || x == .rws) != 0)] : List Bool).all id = true := by decide +kernel

/-- Clause by clause, states and operands that meet the hypotheses of `Obligations.RegisterWriteSetsWritableFields`. -/
theorem witness_RegisterWriteSetsWritableFields : ([
    let a : RegAcc := ({ off := 0 } : RegAcc); let t : Nat := 0; let s : State := at_ .off; let u := tick s t; decide (reachable u a = false),
    let a : RegAcc := ({ path := .cxlio 0, full := false } : RegAcc); let t : Nat := 0; let s : State := on;
      let u := tick s t; decide (reachable u a = true ∧ malformed a = false ∧ a.full = false ∧ (regCanon a.off).1 ≠ rTrlQpSqTailDb ∧ (regCanon a.off).1 ≠ rTrlQpCqHeadDb),
    let a : RegAcc := ({ path := .cxlio 0, off := 0x05000000 } : RegAcc); let t : Nat := 0;
      let s : State := { on with d2d := { on.d2d with up := false } };
      let u := tick s t; decide (reachable u a = true ∧ malformed a = false ∧ a.full = true ∧ bridged a = true ∧ bridgeFree u = false),
    let a : RegAcc := ({ off := 0x05BFFFFC } : RegAcc); let t : Nat := 0; let s : State := on;
      let u := tick s t; decide (reachable u a = true ∧ malformed a = false ∧ a.full = true ∧ bridged a = false ∧ regFind u a.off = none),
    let a : RegAcc := ({ off := rFltSrcSel } : RegAcc); let t : Nat := 0; let s : State := on;
      let u := tick s t; (match lands u a with | some (c, i, z2) => decide (z2 = false) && ((match regFind u a.off with | some (_, z1, z2) => decide (z1 = i ∧ z2 = false ∧ isSel c = true) | _ => false)) | _ => false),
    let a : RegAcc := ({ off := rGauPackCfg } : RegAcc); let t : Nat := 0; let s : State := on;
      let u := tick s t; (match lands u a with | some (c, i, z2) => decide (z2 = false) && ((match regFind u a.off with | some (_, z1, z2) => decide (z1 = i ∧ z2 = false ∧ plainReg c = true) | _ => false)) | _ => false),
    let s : State := on; let off : Nat := rExlFoCfg;
      let drop : Nat := 0; decide (regStored s off < 2 ^ 32 ∧ drop < 2 ^ 32) && (let k := 31; decide (k < 32)),
    let s : State := on; let off : Nat := rExlFoCfg;
      let drop : Nat := 0; decide (regStored s off < 2 ^ 32 ∧ drop < 2 ^ 32) && (let b := 0; decide (b ≠ off)),
    (match regFind on rGauPackCfg with | some (r, _, _) => decide (accMask r (fun x => x == .rw || x == .rws) ≠ 0 ∧ keptMask rGauPackCfg ≠ 0 ∧ regStored on rGauPackCfg < 2 ^ 32) | none => false)] : List Bool).all id = true := by decide +kernel

/-- Clause by clause, states and operands that meet the hypotheses of `Obligations.ReadClearsOnlyReadClearFields`. -/
theorem witness_ReadClearsOnlyReadClearFields : ([
    let s : State := on;
      let off : Nat := rTwiErr; (match regFind s off with | some (r, _, z2) => decide (z2 = false ∧ r.wide = false ∧ r.addr ≠ rAdcQueue) | _ => false),
    let s : State := on;
      let off : Nat := rTwiErr; (match regFind s off with | some (r, _, z2) => decide (z2 = false ∧ r.wide = false ∧ r.addr ≠ rAdcQueue) && (let k := 31; decide (k < 32)) | _ => false),
    let s : State := on;
      let off : Nat := rTwiErr; (match regFind s off with | some (r, _, z2) => decide (z2 = false ∧ r.wide = false ∧ r.addr ≠ rAdcQueue) && (let b := 0; decide (b ≠ off)) | _ => false)] : List Bool).all id = true := by decide +kernel

/-- Clause by clause, states and operands that meet the hypotheses of `Obligations.QueuePairEnableAndDisable`. -/
theorem witness_QueuePairEnableAndDisable : ([
    let a : RegAcc := ({ off := rTrlQpBind, issuer := 1 } : RegAcc); let v : Nat := 0x80000001; let t : Nat := 0; let n : Nat := 0;
      let s : State := on; let w : State := tick s 0;
      let u := tick s t; decide (lands u a = some (rTrlQpBind, n, false)) && (let p := qp u n; let q : QP := { p with enable := bit v 31, assist := bit v 30, vector := bits v 16 11, issuer := BitVec.ofNat 16 v }; decide ((((¬ (issClass a.issuer = 1 ∨ issClass a.issuer = 2)) ∧ w = u) ∨ ((issClass a.issuer = 1 ∨ issClass a.issuer = 2) ∧ p.st = .idle ∧ bit v 31 = false ∧ w = setQp u n q) ∨ ((issClass a.issuer = 1 ∨ issClass a.issuer = 2) ∧ p.st = .idle ∧ bit v 31 = true ∧ (¬ (ringOk q.sqM1 = true ∧ ringOk q.cqM1 = true ∧ q.sqM1 ≤ q.cqM1)) ∧ w = setQp u n { q with st := .error, err := 0x01 }) ∨ ((issClass a.issuer = 1 ∨ issClass a.issuer = 2) ∧ p.st = .idle ∧ bit v 31 = true ∧ (ringOk q.sqM1 = true ∧ ringOk q.cqM1 = true ∧ q.sqM1 ≤ q.cqM1) ∧ (¬ (q.sqBase.toNat % 4096 = 0 ∧ q.cqBase.toNat % 4096 = 0)) ∧ w = setQp u n { q with st := .error, err := 0x02 }) ∨ ((issClass a.issuer = 1 ∨ issClass a.issuer = 2) ∧ p.st = .idle ∧ bit v 31 = true ∧ (ringOk q.sqM1 = true ∧ ringOk q.cqM1 = true ∧ q.sqM1 ≤ q.cqM1) ∧ (q.sqBase.toNat % 4096 = 0 ∧ q.cqBase.toNat % 4096 = 0) ∧ w = setLimits (setQp u n { q with st := .active, err := 0 })) ∨ ((issClass a.issuer = 1 ∨ issClass a.issuer = 2) ∧ p.st ≠ .idle ∧ (bit v 31 = true ∨ p.enable = false) ∧ w = u) ∨ ((issClass a.issuer = 1 ∨ issClass a.issuer = 2) ∧ p.st ≠ .idle ∧ bit v 31 = false ∧ p.enable = true ∧ p.owed = [] ∧ onCarrier u (.qp n) = [] ∧ w = setQp u n { p with enable := false, st := .idle }) ∨ ((issClass a.issuer = 1 ∨ issClass a.issuer = 2) ∧ p.st ≠ .idle ∧ bit v 31 = false ∧ p.enable = true ∧ (p.owed ≠ [] ∨ onCarrier u (.qp n) ≠ []) ∧ w = setQp u n { p with enable := false, st := .disabling })))),
    let a : RegAcc := ({ off := rTrlQpBind, issuer := 0x2000 } : RegAcc); let v : Nat := 1; let t : Nat := 0; let n : Nat := 0; let s : State := on;
      let w : State := (setQp (tick s 0) 0 { qp (tick s 0) 0 with enable := bit v 31, assist := bit v 30, vector := bits v 16 11, issuer := BitVec.ofNat 16 v });
      let u := tick s t; decide (lands u a = some (rTrlQpBind, n, false)) && (let p := qp u n; let q : QP := { p with enable := bit v 31, assist := bit v 30, vector := bits v 16 11, issuer := BitVec.ofNat 16 v }; decide ((((¬ (issClass a.issuer = 1 ∨ issClass a.issuer = 2)) ∧ w = u) ∨ ((issClass a.issuer = 1 ∨ issClass a.issuer = 2) ∧ p.st = .idle ∧ bit v 31 = false ∧ w = setQp u n q) ∨ ((issClass a.issuer = 1 ∨ issClass a.issuer = 2) ∧ p.st = .idle ∧ bit v 31 = true ∧ (¬ (ringOk q.sqM1 = true ∧ ringOk q.cqM1 = true ∧ q.sqM1 ≤ q.cqM1)) ∧ w = setQp u n { q with st := .error, err := 0x01 }) ∨ ((issClass a.issuer = 1 ∨ issClass a.issuer = 2) ∧ p.st = .idle ∧ bit v 31 = true ∧ (ringOk q.sqM1 = true ∧ ringOk q.cqM1 = true ∧ q.sqM1 ≤ q.cqM1) ∧ (¬ (q.sqBase.toNat % 4096 = 0 ∧ q.cqBase.toNat % 4096 = 0)) ∧ w = setQp u n { q with st := .error, err := 0x02 }) ∨ ((issClass a.issuer = 1 ∨ issClass a.issuer = 2) ∧ p.st = .idle ∧ bit v 31 = true ∧ (ringOk q.sqM1 = true ∧ ringOk q.cqM1 = true ∧ q.sqM1 ≤ q.cqM1) ∧ (q.sqBase.toNat % 4096 = 0 ∧ q.cqBase.toNat % 4096 = 0) ∧ w = setLimits (setQp u n { q with st := .active, err := 0 })) ∨ ((issClass a.issuer = 1 ∨ issClass a.issuer = 2) ∧ p.st ≠ .idle ∧ (bit v 31 = true ∨ p.enable = false) ∧ w = u) ∨ ((issClass a.issuer = 1 ∨ issClass a.issuer = 2) ∧ p.st ≠ .idle ∧ bit v 31 = false ∧ p.enable = true ∧ p.owed = [] ∧ onCarrier u (.qp n) = [] ∧ w = setQp u n { p with enable := false, st := .idle }) ∨ ((issClass a.issuer = 1 ∨ issClass a.issuer = 2) ∧ p.st ≠ .idle ∧ bit v 31 = false ∧ p.enable = true ∧ (p.owed ≠ [] ∨ onCarrier u (.qp n) ≠ []) ∧ w = setQp u n { p with enable := false, st := .disabling })))),
    let a : RegAcc := ({ off := rTrlQpBind, issuer := 0x2000 } : RegAcc); let v : Nat := 0x80000001; let t : Nat := 0; let n : Nat := 0;
      let s : State := (setQp on 0 { sqM1 := 16 });
      let w : State := (setQp (tick s 0) 0 { qp (tick s 0) 0 with enable := bit v 31, assist := bit v 30, vector := bits v 16 11, issuer := BitVec.ofNat 16 v, st := .error, err := 0x01 });
      let u := tick s t; decide (lands u a = some (rTrlQpBind, n, false)) && (let p := qp u n; let q : QP := { p with enable := bit v 31, assist := bit v 30, vector := bits v 16 11, issuer := BitVec.ofNat 16 v }; decide ((((¬ (issClass a.issuer = 1 ∨ issClass a.issuer = 2)) ∧ w = u) ∨ ((issClass a.issuer = 1 ∨ issClass a.issuer = 2) ∧ p.st = .idle ∧ bit v 31 = false ∧ w = setQp u n q) ∨ ((issClass a.issuer = 1 ∨ issClass a.issuer = 2) ∧ p.st = .idle ∧ bit v 31 = true ∧ (¬ (ringOk q.sqM1 = true ∧ ringOk q.cqM1 = true ∧ q.sqM1 ≤ q.cqM1)) ∧ w = setQp u n { q with st := .error, err := 0x01 }) ∨ ((issClass a.issuer = 1 ∨ issClass a.issuer = 2) ∧ p.st = .idle ∧ bit v 31 = true ∧ (ringOk q.sqM1 = true ∧ ringOk q.cqM1 = true ∧ q.sqM1 ≤ q.cqM1) ∧ (¬ (q.sqBase.toNat % 4096 = 0 ∧ q.cqBase.toNat % 4096 = 0)) ∧ w = setQp u n { q with st := .error, err := 0x02 }) ∨ ((issClass a.issuer = 1 ∨ issClass a.issuer = 2) ∧ p.st = .idle ∧ bit v 31 = true ∧ (ringOk q.sqM1 = true ∧ ringOk q.cqM1 = true ∧ q.sqM1 ≤ q.cqM1) ∧ (q.sqBase.toNat % 4096 = 0 ∧ q.cqBase.toNat % 4096 = 0) ∧ w = setLimits (setQp u n { q with st := .active, err := 0 })) ∨ ((issClass a.issuer = 1 ∨ issClass a.issuer = 2) ∧ p.st ≠ .idle ∧ (bit v 31 = true ∨ p.enable = false) ∧ w = u) ∨ ((issClass a.issuer = 1 ∨ issClass a.issuer = 2) ∧ p.st ≠ .idle ∧ bit v 31 = false ∧ p.enable = true ∧ p.owed = [] ∧ onCarrier u (.qp n) = [] ∧ w = setQp u n { p with enable := false, st := .idle }) ∨ ((issClass a.issuer = 1 ∨ issClass a.issuer = 2) ∧ p.st ≠ .idle ∧ bit v 31 = false ∧ p.enable = true ∧ (p.owed ≠ [] ∨ onCarrier u (.qp n) ≠ []) ∧ w = setQp u n { p with enable := false, st := .disabling })))),
    let a : RegAcc := ({ off := rTrlQpBind, issuer := 0x2000 } : RegAcc); let v : Nat := 0x80000001; let t : Nat := 0; let n : Nat := 0;
      let s : State := (setQp on 0 { sqBase := 1#64 });
      let w : State := (setQp (tick s 0) 0 { qp (tick s 0) 0 with enable := bit v 31, assist := bit v 30, vector := bits v 16 11, issuer := BitVec.ofNat 16 v, st := .error, err := 0x02 });
      let u := tick s t; decide (lands u a = some (rTrlQpBind, n, false)) && (let p := qp u n; let q : QP := { p with enable := bit v 31, assist := bit v 30, vector := bits v 16 11, issuer := BitVec.ofNat 16 v }; decide ((((¬ (issClass a.issuer = 1 ∨ issClass a.issuer = 2)) ∧ w = u) ∨ ((issClass a.issuer = 1 ∨ issClass a.issuer = 2) ∧ p.st = .idle ∧ bit v 31 = false ∧ w = setQp u n q) ∨ ((issClass a.issuer = 1 ∨ issClass a.issuer = 2) ∧ p.st = .idle ∧ bit v 31 = true ∧ (¬ (ringOk q.sqM1 = true ∧ ringOk q.cqM1 = true ∧ q.sqM1 ≤ q.cqM1)) ∧ w = setQp u n { q with st := .error, err := 0x01 }) ∨ ((issClass a.issuer = 1 ∨ issClass a.issuer = 2) ∧ p.st = .idle ∧ bit v 31 = true ∧ (ringOk q.sqM1 = true ∧ ringOk q.cqM1 = true ∧ q.sqM1 ≤ q.cqM1) ∧ (¬ (q.sqBase.toNat % 4096 = 0 ∧ q.cqBase.toNat % 4096 = 0)) ∧ w = setQp u n { q with st := .error, err := 0x02 }) ∨ ((issClass a.issuer = 1 ∨ issClass a.issuer = 2) ∧ p.st = .idle ∧ bit v 31 = true ∧ (ringOk q.sqM1 = true ∧ ringOk q.cqM1 = true ∧ q.sqM1 ≤ q.cqM1) ∧ (q.sqBase.toNat % 4096 = 0 ∧ q.cqBase.toNat % 4096 = 0) ∧ w = setLimits (setQp u n { q with st := .active, err := 0 })) ∨ ((issClass a.issuer = 1 ∨ issClass a.issuer = 2) ∧ p.st ≠ .idle ∧ (bit v 31 = true ∨ p.enable = false) ∧ w = u) ∨ ((issClass a.issuer = 1 ∨ issClass a.issuer = 2) ∧ p.st ≠ .idle ∧ bit v 31 = false ∧ p.enable = true ∧ p.owed = [] ∧ onCarrier u (.qp n) = [] ∧ w = setQp u n { p with enable := false, st := .idle }) ∨ ((issClass a.issuer = 1 ∨ issClass a.issuer = 2) ∧ p.st ≠ .idle ∧ bit v 31 = false ∧ p.enable = true ∧ (p.owed ≠ [] ∨ onCarrier u (.qp n) ≠ []) ∧ w = setQp u n { p with enable := false, st := .disabling })))),
    let a : RegAcc := ({ off := rTrlQpBind, issuer := 0x2000 } : RegAcc); let v : Nat := 0x80000001; let t : Nat := 0; let n : Nat := 0;
      let s : State := on;
      let w : State := setLimits (setQp (tick s 0) 0 { qp (tick s 0) 0 with enable := bit v 31, assist := bit v 30, vector := bits v 16 11, issuer := BitVec.ofNat 16 v, st := .active, err := 0 });
      let u := tick s t; decide (lands u a = some (rTrlQpBind, n, false)) && (let p := qp u n; let q : QP := { p with enable := bit v 31, assist := bit v 30, vector := bits v 16 11, issuer := BitVec.ofNat 16 v }; decide ((((¬ (issClass a.issuer = 1 ∨ issClass a.issuer = 2)) ∧ w = u) ∨ ((issClass a.issuer = 1 ∨ issClass a.issuer = 2) ∧ p.st = .idle ∧ bit v 31 = false ∧ w = setQp u n q) ∨ ((issClass a.issuer = 1 ∨ issClass a.issuer = 2) ∧ p.st = .idle ∧ bit v 31 = true ∧ (¬ (ringOk q.sqM1 = true ∧ ringOk q.cqM1 = true ∧ q.sqM1 ≤ q.cqM1)) ∧ w = setQp u n { q with st := .error, err := 0x01 }) ∨ ((issClass a.issuer = 1 ∨ issClass a.issuer = 2) ∧ p.st = .idle ∧ bit v 31 = true ∧ (ringOk q.sqM1 = true ∧ ringOk q.cqM1 = true ∧ q.sqM1 ≤ q.cqM1) ∧ (¬ (q.sqBase.toNat % 4096 = 0 ∧ q.cqBase.toNat % 4096 = 0)) ∧ w = setQp u n { q with st := .error, err := 0x02 }) ∨ ((issClass a.issuer = 1 ∨ issClass a.issuer = 2) ∧ p.st = .idle ∧ bit v 31 = true ∧ (ringOk q.sqM1 = true ∧ ringOk q.cqM1 = true ∧ q.sqM1 ≤ q.cqM1) ∧ (q.sqBase.toNat % 4096 = 0 ∧ q.cqBase.toNat % 4096 = 0) ∧ w = setLimits (setQp u n { q with st := .active, err := 0 })) ∨ ((issClass a.issuer = 1 ∨ issClass a.issuer = 2) ∧ p.st ≠ .idle ∧ (bit v 31 = true ∨ p.enable = false) ∧ w = u) ∨ ((issClass a.issuer = 1 ∨ issClass a.issuer = 2) ∧ p.st ≠ .idle ∧ bit v 31 = false ∧ p.enable = true ∧ p.owed = [] ∧ onCarrier u (.qp n) = [] ∧ w = setQp u n { p with enable := false, st := .idle }) ∨ ((issClass a.issuer = 1 ∨ issClass a.issuer = 2) ∧ p.st ≠ .idle ∧ bit v 31 = false ∧ p.enable = true ∧ (p.owed ≠ [] ∨ onCarrier u (.qp n) ≠ []) ∧ w = setQp u n { p with enable := false, st := .disabling })))),
    let a : RegAcc := ({ off := rTrlQpBind, issuer := 0x2000 } : RegAcc); let v : Nat := 1; let t : Nat := 0; let n : Nat := 0;
      let s : State := (setQp on 0 { st := .error }); let w : State := tick s 0;
      let u := tick s t; decide (lands u a = some (rTrlQpBind, n, false)) && (let p := qp u n; let q : QP := { p with enable := bit v 31, assist := bit v 30, vector := bits v 16 11, issuer := BitVec.ofNat 16 v }; decide ((((¬ (issClass a.issuer = 1 ∨ issClass a.issuer = 2)) ∧ w = u) ∨ ((issClass a.issuer = 1 ∨ issClass a.issuer = 2) ∧ p.st = .idle ∧ bit v 31 = false ∧ w = setQp u n q) ∨ ((issClass a.issuer = 1 ∨ issClass a.issuer = 2) ∧ p.st = .idle ∧ bit v 31 = true ∧ (¬ (ringOk q.sqM1 = true ∧ ringOk q.cqM1 = true ∧ q.sqM1 ≤ q.cqM1)) ∧ w = setQp u n { q with st := .error, err := 0x01 }) ∨ ((issClass a.issuer = 1 ∨ issClass a.issuer = 2) ∧ p.st = .idle ∧ bit v 31 = true ∧ (ringOk q.sqM1 = true ∧ ringOk q.cqM1 = true ∧ q.sqM1 ≤ q.cqM1) ∧ (¬ (q.sqBase.toNat % 4096 = 0 ∧ q.cqBase.toNat % 4096 = 0)) ∧ w = setQp u n { q with st := .error, err := 0x02 }) ∨ ((issClass a.issuer = 1 ∨ issClass a.issuer = 2) ∧ p.st = .idle ∧ bit v 31 = true ∧ (ringOk q.sqM1 = true ∧ ringOk q.cqM1 = true ∧ q.sqM1 ≤ q.cqM1) ∧ (q.sqBase.toNat % 4096 = 0 ∧ q.cqBase.toNat % 4096 = 0) ∧ w = setLimits (setQp u n { q with st := .active, err := 0 })) ∨ ((issClass a.issuer = 1 ∨ issClass a.issuer = 2) ∧ p.st ≠ .idle ∧ (bit v 31 = true ∨ p.enable = false) ∧ w = u) ∨ ((issClass a.issuer = 1 ∨ issClass a.issuer = 2) ∧ p.st ≠ .idle ∧ bit v 31 = false ∧ p.enable = true ∧ p.owed = [] ∧ onCarrier u (.qp n) = [] ∧ w = setQp u n { p with enable := false, st := .idle }) ∨ ((issClass a.issuer = 1 ∨ issClass a.issuer = 2) ∧ p.st ≠ .idle ∧ bit v 31 = false ∧ p.enable = true ∧ (p.owed ≠ [] ∨ onCarrier u (.qp n) ≠ []) ∧ w = setQp u n { p with enable := false, st := .disabling })))),
    let a : RegAcc := ({ off := rTrlQpBind, issuer := 0x2000 } : RegAcc); let v : Nat := 1; let t : Nat := 0; let n : Nat := 0;
      let s : State := (setQp on 0 { st := .active, enable := true });
      let w : State := (setQp (tick s 0) 0 { qp (tick s 0) 0 with enable := false, st := .idle });
      let u := tick s t; decide (lands u a = some (rTrlQpBind, n, false)) && (let p := qp u n; let q : QP := { p with enable := bit v 31, assist := bit v 30, vector := bits v 16 11, issuer := BitVec.ofNat 16 v }; decide ((((¬ (issClass a.issuer = 1 ∨ issClass a.issuer = 2)) ∧ w = u) ∨ ((issClass a.issuer = 1 ∨ issClass a.issuer = 2) ∧ p.st = .idle ∧ bit v 31 = false ∧ w = setQp u n q) ∨ ((issClass a.issuer = 1 ∨ issClass a.issuer = 2) ∧ p.st = .idle ∧ bit v 31 = true ∧ (¬ (ringOk q.sqM1 = true ∧ ringOk q.cqM1 = true ∧ q.sqM1 ≤ q.cqM1)) ∧ w = setQp u n { q with st := .error, err := 0x01 }) ∨ ((issClass a.issuer = 1 ∨ issClass a.issuer = 2) ∧ p.st = .idle ∧ bit v 31 = true ∧ (ringOk q.sqM1 = true ∧ ringOk q.cqM1 = true ∧ q.sqM1 ≤ q.cqM1) ∧ (¬ (q.sqBase.toNat % 4096 = 0 ∧ q.cqBase.toNat % 4096 = 0)) ∧ w = setQp u n { q with st := .error, err := 0x02 }) ∨ ((issClass a.issuer = 1 ∨ issClass a.issuer = 2) ∧ p.st = .idle ∧ bit v 31 = true ∧ (ringOk q.sqM1 = true ∧ ringOk q.cqM1 = true ∧ q.sqM1 ≤ q.cqM1) ∧ (q.sqBase.toNat % 4096 = 0 ∧ q.cqBase.toNat % 4096 = 0) ∧ w = setLimits (setQp u n { q with st := .active, err := 0 })) ∨ ((issClass a.issuer = 1 ∨ issClass a.issuer = 2) ∧ p.st ≠ .idle ∧ (bit v 31 = true ∨ p.enable = false) ∧ w = u) ∨ ((issClass a.issuer = 1 ∨ issClass a.issuer = 2) ∧ p.st ≠ .idle ∧ bit v 31 = false ∧ p.enable = true ∧ p.owed = [] ∧ onCarrier u (.qp n) = [] ∧ w = setQp u n { p with enable := false, st := .idle }) ∨ ((issClass a.issuer = 1 ∨ issClass a.issuer = 2) ∧ p.st ≠ .idle ∧ bit v 31 = false ∧ p.enable = true ∧ (p.owed ≠ [] ∨ onCarrier u (.qp n) ≠ []) ∧ w = setQp u n { p with enable := false, st := .disabling })))),
    let a : RegAcc := ({ off := rTrlQpBind, issuer := 0x2000 } : RegAcc); let v : Nat := 1; let t : Nat := 0; let n : Nat := 0;
      let s : State := (setQp on 0 { st := .active, enable := true, owed := [{}] });
      let w : State := (setQp (tick s 0) 0 { qp (tick s 0) 0 with enable := false, st := .disabling });
      let u := tick s t; decide (lands u a = some (rTrlQpBind, n, false)) && (let p := qp u n; let q : QP := { p with enable := bit v 31, assist := bit v 30, vector := bits v 16 11, issuer := BitVec.ofNat 16 v }; decide ((((¬ (issClass a.issuer = 1 ∨ issClass a.issuer = 2)) ∧ w = u) ∨ ((issClass a.issuer = 1 ∨ issClass a.issuer = 2) ∧ p.st = .idle ∧ bit v 31 = false ∧ w = setQp u n q) ∨ ((issClass a.issuer = 1 ∨ issClass a.issuer = 2) ∧ p.st = .idle ∧ bit v 31 = true ∧ (¬ (ringOk q.sqM1 = true ∧ ringOk q.cqM1 = true ∧ q.sqM1 ≤ q.cqM1)) ∧ w = setQp u n { q with st := .error, err := 0x01 }) ∨ ((issClass a.issuer = 1 ∨ issClass a.issuer = 2) ∧ p.st = .idle ∧ bit v 31 = true ∧ (ringOk q.sqM1 = true ∧ ringOk q.cqM1 = true ∧ q.sqM1 ≤ q.cqM1) ∧ (¬ (q.sqBase.toNat % 4096 = 0 ∧ q.cqBase.toNat % 4096 = 0)) ∧ w = setQp u n { q with st := .error, err := 0x02 }) ∨ ((issClass a.issuer = 1 ∨ issClass a.issuer = 2) ∧ p.st = .idle ∧ bit v 31 = true ∧ (ringOk q.sqM1 = true ∧ ringOk q.cqM1 = true ∧ q.sqM1 ≤ q.cqM1) ∧ (q.sqBase.toNat % 4096 = 0 ∧ q.cqBase.toNat % 4096 = 0) ∧ w = setLimits (setQp u n { q with st := .active, err := 0 })) ∨ ((issClass a.issuer = 1 ∨ issClass a.issuer = 2) ∧ p.st ≠ .idle ∧ (bit v 31 = true ∨ p.enable = false) ∧ w = u) ∨ ((issClass a.issuer = 1 ∨ issClass a.issuer = 2) ∧ p.st ≠ .idle ∧ bit v 31 = false ∧ p.enable = true ∧ p.owed = [] ∧ onCarrier u (.qp n) = [] ∧ w = setQp u n { p with enable := false, st := .idle }) ∨ ((issClass a.issuer = 1 ∨ issClass a.issuer = 2) ∧ p.st ≠ .idle ∧ bit v 31 = false ∧ p.enable = true ∧ (p.owed ≠ [] ∨ onCarrier u (.qp n) ≠ []) ∧ w = setQp u n { p with enable := false, st := .disabling })))),
    let a : RegAcc := ({ off := rTrlQpSize, issuer := 0x1000 } : RegAcc); let t : Nat := 0; let n : Nat := 0; let s : State := on;
      let u := tick s t; decide ((issClass a.issuer = 1 ∨ issClass a.issuer = 2) ∧ lands u a = some (rTrlQpSize, n, false)),
    let a : RegAcc := ({ off := rTrlQpCredit, issuer := 0x1000 } : RegAcc); let t : Nat := 0; let n : Nat := 0; let s : State := on;
      let u := tick s t; decide ((issClass a.issuer = 1 ∨ issClass a.issuer = 2) ∧ lands u a = some (rTrlQpCredit, n, false))] : List Bool).all id = true := by decide +kernel

/-- Clause by clause, states and operands that meet the hypotheses of `Obligations.DoorbellsActFromTheBoundIssuer`. -/
theorem witness_DoorbellsActFromTheBoundIssuer : ([
    let a : RegAcc := ({ off := rTrlQpSqTailDb, issuer := 1, full := false, path := .cxlio 0 } : RegAcc); let t : Nat := 0; let n : Nat := 0;
      let s : State := on; let u := tick s t; decide (lands u a = some (rTrlQpSqTailDb, n, false) ∧ (qp u n).issuer.toNat ≠ a.issuer),
    let a : RegAcc := ({ off := rTrlQpSqTailDb, issuer := 1, full := false, path := .cxlio 0 } : RegAcc); let v : Nat := 15; let t : Nat := 0;
      let n : Nat := 0; let s : State := (setQp on 0 { st := .active, issuer := 1#16 });
      let u := tick s t; decide (lands u a = some (rTrlQpSqTailDb, n, false) ∧ (qp u n).issuer.toNat = a.issuer ∧ (qp u n).st = .active ∧ v % 1024 ≤ (qp u n).sqM1),
    let a : RegAcc := ({ off := rTrlQpSqTailDb, issuer := 1, full := false, path := .cxlio 0 } : RegAcc); let v : Nat := 16; let t : Nat := 0;
      let n : Nat := 0; let s : State := (setQp on 0 { st := .active, issuer := 1#16 });
      let u := tick s t; decide (lands u a = some (rTrlQpSqTailDb, n, false) ∧ (qp u n).issuer.toNat = a.issuer ∧ (qp u n).st = .active ∧ (qp u n).sqM1 < v % 1024),
    let a : RegAcc := ({ off := rTrlQpSqTailDb, issuer := 1, full := false, path := .cxlio 0 } : RegAcc); let t : Nat := 0; let n : Nat := 0;
      let s : State := (setQp on 0 { st := .idle, issuer := 1#16 });
      let u := tick s t; decide (lands u a = some (rTrlQpSqTailDb, n, false) ∧ (qp u n).issuer.toNat = a.issuer ∧ (qp u n).st ≠ .active),
    let a : RegAcc := ({ off := rTrlQpCqHeadDb, issuer := 1, full := false, path := .cxlio 0 } : RegAcc); let t : Nat := 0; let n : Nat := 0;
      let s : State := on; let u := tick s t; decide (lands u a = some (rTrlQpCqHeadDb, n, false) ∧ (qp u n).issuer.toNat ≠ a.issuer),
    let a : RegAcc := ({ off := rTrlQpCqHeadDb, issuer := 1, full := false, path := .cxlio 0 } : RegAcc); let v : Nat := 15; let t : Nat := 0;
      let n : Nat := 0; let s : State := (setQp on 0 { st := .active, issuer := 1#16 });
      let u := tick s t; decide (lands u a = some (rTrlQpCqHeadDb, n, false) ∧ (qp u n).issuer.toNat = a.issuer ∧ v % 1024 ≤ (qp u n).cqM1),
    let a : RegAcc := ({ off := rTrlQpCqHeadDb, issuer := 1, full := false, path := .cxlio 0 } : RegAcc); let v : Nat := 16; let t : Nat := 0;
      let n : Nat := 0; let s : State := (setQp on 0 { st := .active, issuer := 1#16 });
      let u := tick s t; decide (lands u a = some (rTrlQpCqHeadDb, n, false) ∧ (qp u n).issuer.toNat = a.issuer ∧ (qp u n).cqM1 < v % 1024)] : List Bool).all id = true := by decide +kernel

/-- Clause by clause, states and operands that meet the hypotheses of `Obligations.HostAssistedInputs`. -/
theorem witness_HostAssistedInputs : ([
    let a : RegAcc := ({ off := rDdrLaneDelay } : RegAcc); let t : Nat := 0; let i : Nat := 0; let s : State := on;
      let u := tick s t; decide (lands u a = some (rDdrLaneDelay, i, false) ∧ owns u a.issuer 5 = false),
    let a : RegAcc := ({ off := rDdrLaneDelay } : RegAcc); let t : Nat := 0; let i : Nat := 0; let s : State := own on 5 0x2000;
      let u := tick s t; decide (lands u a = some (rDdrLaneDelay, i, false) ∧ owns u a.issuer 5 = true),
    let a : RegAcc := ({ off := rDdrScrub } : RegAcc); let t : Nat := 0; let i : Nat := 0; let s : State := on;
      let u := tick s t; decide (lands u a = some (rDdrScrub, i, false) ∧ owns u a.issuer 4 = false),
    let a : RegAcc := ({ off := rDdrScrub } : RegAcc); let t : Nat := 0; let i : Nat := 0; let s : State := own on 4 0x2000;
      let u := tick s t; decide (lands u a = some (rDdrScrub, i, false) ∧ owns u a.issuer 4 = true),
    let a : RegAcc := ({ off := rFtlStream } : RegAcc); let t : Nat := 0; let i : Nat := 0; let s : State := on;
      let u := tick s t; decide (lands u a = some (rFtlStream, i, false) ∧ owns u a.issuer 1 = false),
    let a : RegAcc := ({ off := rFtlStream } : RegAcc); let t : Nat := 0; let i : Nat := 0; let s : State := own on 1 0x2000;
      let u := tick s t; decide (lands u a = some (rFtlStream, i, false) ∧ owns u a.issuer 1 = true),
    let a : RegAcc := ({ off := rFtlWearHost } : RegAcc); let t : Nat := 0; let i : Nat := 0; let s : State := on;
      let u := tick s t; decide (lands u a = some (rFtlWearHost, i, false) ∧ owns u a.issuer 1 = false),
    let a : RegAcc := ({ off := rFtlWearHost } : RegAcc); let t : Nat := 0; let i : Nat := 0; let s : State := own on 1 0x2000;
      let u := tick s t; decide (lands u a = some (rFtlWearHost, i, false) ∧ owns u a.issuer 1 = true),
    let a : RegAcc := ({ off := rGauHostSoc } : RegAcc); let t : Nat := 0; let i : Nat := 0; let s : State := on;
      let u := tick s t; decide (lands u a = some (rGauHostSoc, i, false) ∧ owns u a.issuer 2 = false),
    let a : RegAcc := ({ off := rGauHostSoc } : RegAcc); let v : Nat := 10000; let t : Nat := 0; let i : Nat := 0; let s : State := own on 2 0x2000;
      let u := tick s t; decide (lands u a = some (rGauHostSoc, i, false) ∧ owns u a.issuer 2 = true ∧ v % 16384 ≤ 10000),
    let a : RegAcc := ({ off := rGauHostSoc } : RegAcc); let v : Nat := 10001; let t : Nat := 0; let i : Nat := 0; let s : State := own on 2 0x2000;
      let u := tick s t; decide (lands u a = some (rGauHostSoc, i, false) ∧ owns u a.issuer 2 = true ∧ 10000 < v % 16384),
    let a : RegAcc := ({ off := rPsqHostStep } : RegAcc); let t : Nat := 0; let i : Nat := 0; let s : State := on;
      let u := tick s t; decide (lands u a = some (rPsqHostStep, i, false) ∧ owns u a.issuer 3 = false),
    let a : RegAcc := ({ off := rPsqHostStep } : RegAcc); let v : Nat := 0; let t : Nat := 0; let i : Nat := 0; let s : State := own on 3 0x2000;
      let u := tick s t; decide (lands u a = some (rPsqHostStep, i, false)) && (let slots := bitsOf (v % 2 ^ 24) 24; decide (owns u a.issuer 3 = true ∧ stepOk u a.issuer (bit v 30) slots = false)),
    let a : RegAcc := ({ off := rPsqHostStep } : RegAcc); let v : Nat := 0; let t : Nat := 0; let i : Nat := 0;
      let s : State := own { on with psq := { on.psq with sw := some { domain := 1, on := true } } } 3 0x2000;
      let u := tick s t; decide (lands u a = some (rPsqHostStep, i, false)) && (let slots := bitsOf (v % 2 ^ 24) 24; decide (owns u a.issuer 3 = true ∧ stepOk u a.issuer (bit v 30) slots = true))] : List Bool).all id = true := by decide +kernel

/-- Clause by clause, states and operands that meet the hypotheses of `Obligations.RegisterCommandsOfTrellis`. -/
theorem witness_RegisterCommandsOfTrellis : ([
    let c : TrellisCmd := pk [(28, 1, 5)];
      let s : State := on; (match started 0x0010 c s with | some (_, f) => let n := pByte f.cmd 28; decide ((n < 1 ∨ 4 < n)) | _ => false),
    let c : TrellisCmd := pk [(24, 4, 2), (28, 1, 4)];
      let s : State := on; (match started 0x0010 c s with | some (_, f) => let off := pNum f.cmd 24 4; let n := pByte f.cmd 28; let words := (List.range n).map (fun k => off + 4 * k); decide (1 ≤ n ∧ n ≤ 4 ∧ words.all offsetOk = false) | _ => false),
    let c : TrellisCmd := hk [(24, 4, 0x00100000), (28, 1, 1)];
      let s : State := host on; (match started 0x0010 c s with | some (v, f) => let off := pNum f.cmd 24 4; let n := pByte f.cmd 28; let words := (List.range n).map (fun k => off + 4 * k); decide (1 ≤ n ∧ n ≤ 4 ∧ words.all offsetOk = true ∧ words.any (readDenied v f.cmd.est) = true) | _ => false),
    let c : TrellisCmd := ({ pk [(24, 4, 0x05000000), (28, 1, 4)] ([]) with carrier := .qp 0, est := 0x1000, issuer := 0x1000 } : TrellisCmd);
      let s : State := (setQp { on with d2d := { on.d2d with bridge := List.replicate 64 {} } } 0 { enable := true, st := .active, issuer := 0x1000#16 }); (match started 0x0010 c s with | some (v, f) => let off := pNum f.cmd 24 4; let n := pByte f.cmd 28; let words := (List.range n).map (fun k => off + 4 * k); decide (1 ≤ n ∧ n ≤ 4 ∧ words.all offsetOk = true ∧ words.any (readDenied v f.cmd.est) = false ∧ bridgeRoom v (coldWords f words) = false) | _ => false),
    let c : TrellisCmd := pk [(24, 4, 0), (28, 1, 4)];
      let s : State := on; (match started 0x0010 c s with | some (v, f) => let off := pNum f.cmd 24 4; let n := pByte f.cmd 28; let words := (List.range n).map (fun k => off + 4 * k); decide (1 ≤ n ∧ n ≤ 4 ∧ words.all offsetOk = true ∧ words.any (readDenied v f.cmd.est) = false ∧ bridgeRoom v (coldWords f words) = true) | _ => false),
    let c : TrellisCmd := pk [];
      let s : State := on; (match started 0x0012 c s with | some (_, f) => let n := pNum f.cmd 28 2; decide ((n < 1 ∨ 256 < n)) | _ => false),
    let c : TrellisCmd := pk [(28, 2, 1)] (le 2 4);
      let s : State := on; (match started 0x0012 c s with | some (_, f) => let n := pNum f.cmd 28 2; let words := (List.range n).map (fun k => rd (payIn f.cmd) (4 * k) 4); decide (1 ≤ n ∧ n ≤ 256 ∧ (f.cmd.payLen ≠ 4 * n ∨ words.all offsetOk = false ∨ (words.any onLogic = true ∧ words.all onLogic = false))) | _ => false),
    let c : TrellisCmd := hk [(28, 2, 1)] (le 0x00100000 4);
      let s : State := host on; (match started 0x0012 c s with | some (v, f) => let n := pNum f.cmd 28 2; let words := (List.range n).map (fun k => rd (payIn f.cmd) (4 * k) 4); decide (1 ≤ n ∧ n ≤ 256 ∧ f.cmd.payLen = 4 * n ∧ words.all offsetOk = true ∧ ((words.any onLogic = true → words.all onLogic = true)) ∧ words.any (readDenied v f.cmd.est) = true) | _ => false),
    let c : TrellisCmd := ({ pk [(28, 2, 1)] (le 0x05000000 4) with carrier := .qp 0, est := 0x1000, issuer := 0x1000 } : TrellisCmd);
      let s : State := (setQp { on with d2d := { on.d2d with bridge := List.replicate 64 {} } } 0 { enable := true, st := .active, issuer := 0x1000#16 }); (match started 0x0012 c s with | some (v, f) => let n := pNum f.cmd 28 2; let words := (List.range n).map (fun k => rd (payIn f.cmd) (4 * k) 4); decide (1 ≤ n ∧ n ≤ 256 ∧ f.cmd.payLen = 4 * n ∧ words.all offsetOk = true ∧ ((words.any onLogic = true → words.all onLogic = true)) ∧ words.any (readDenied v f.cmd.est) = false) && (let cold := (coldWords f words).take 1; decide (bridgeRoom v cold = false)) | _ => false),
    let c : TrellisCmd := pk [(28, 2, 1)] (le 0 4);
      let s : State := on; (match started 0x0012 c s with | some (v, f) => let n := pNum f.cmd 28 2; let words := (List.range n).map (fun k => rd (payIn f.cmd) (4 * k) 4); decide (1 ≤ n ∧ n ≤ 256 ∧ f.cmd.payLen = 4 * n ∧ words.all offsetOk = true ∧ ((words.any onLogic = true → words.all onLogic = true)) ∧ words.any (readDenied v f.cmd.est) = false) && (let cold := (coldWords f words).take 1; decide (bridgeRoom v cold = true)) | _ => false),
    let c : TrellisCmd := pk [(24, 4, 2)];
      let s : State := on; (match started 0x0011 c s with | some (_, f) => let off := pNum f.cmd 24 4; decide (offsetOk off = false) | _ => false),
    let c : TrellisCmd := pk [(24, 4, 4)];
      let s : State := on; (match started 0x0011 c s with | some (_, f) => let off := pNum f.cmd 24 4; let mask := pNum f.cmd 32 4; decide (offsetOk off = true ∧ mask = 0) | _ => false),
    let c : TrellisCmd := pk [(24, 4, rGauHostSoc), (32, 4, 1)];
      let s : State := on; (match started 0x0011 c s with | some (v, f) => let off := pNum f.cmd 24 4; let mask := pNum f.cmd 32 4; decide (offsetOk off = true ∧ mask ≠ 0) && ((match regFunction off with | some k => decide (owns v f.cmd.est k = false) | _ => false)) | _ => false),
    let c : TrellisCmd := ({ pk [(24, 4, rGauPackCfg), (32, 4, 1)] ([]) with carrier := .qp 0, est := 0x1000, issuer := 0x1000 } : TrellisCmd);
      let s : State := (setQp { on with d2d := { on.d2d with bridge := List.replicate 64 {} } } 0 { enable := true, st := .active, issuer := 0x1000#16 }); (match started 0x0011 c s with | some (v, f) => let off := pNum f.cmd 24 4; let mask := pNum f.cmd 32 4; decide (offsetOk off = true ∧ mask ≠ 0 ∧ ((match regFunction off with | some k => decide (owns v f.cmd.est k = true) | none => true) = true)) && (let cold := coldWords f [off]; decide (bridgeRoom v cold = false)) | _ => false),
    let c : TrellisCmd := pk [(24, 4, 0x05BFFFFC), (32, 4, 1)];
      let s : State := on; (match started 0x0011 c s with | some (v, f) => let off := pNum f.cmd 24 4; let mask := pNum f.cmd 32 4; decide (offsetOk off = true ∧ mask ≠ 0 ∧ ((match regFunction off with | some k => decide (owns v f.cmd.est k = true) | none => true) = true)) && (let cold := coldWords f [off]; decide (bridgeRoom v cold = true ∧ regFind v off = none)) | _ => false),
    let c : TrellisCmd := pk [(24, 4, rGauPackCfg), (32, 4, 1)];
      let s : State := on; (match started 0x0011 c s with | some (v, f) => let off := pNum f.cmd 24 4; let mask := pNum f.cmd 32 4; decide (offsetOk off = true ∧ mask ≠ 0 ∧ ((match regFunction off with | some k => decide (owns v f.cmd.est k = true) | none => true) = true)) && (let cold := coldWords f [off]; decide (bridgeRoom v cold = true) && ((match regFind v off with | some (r, _, z2) => decide (z2 = false ∧ r.wide = false) | _ => false))) | _ => false),
    let c : TrellisCmd := pk [(24, 4, rLogCursor), (32, 4, 1)];
      let s : State := on; (match started 0x0011 c s with | some (v, f) => let off := pNum f.cmd 24 4; let mask := pNum f.cmd 32 4; decide (offsetOk off = true ∧ mask ≠ 0 ∧ ((match regFunction off with | some k => decide (owns v f.cmd.est k = true) | none => true) = true)) && (let cold := coldWords f [off]; decide (bridgeRoom v cold = true) && ((match regFind v off with | some (r, _, _) => decide (r.wide = true) | _ => false))) | _ => false)] : List Bool).all id = true := by decide +kernel

/-- Clause by clause, states and operands that meet the hypotheses of `Obligations.IdentityAndLateStatus`. -/
theorem witness_IdentityAndLateStatus : ([
    let c : TrellisCmd := pk []; let s : State := on; (started 0x0001 c s).isSome,
    let c : TrellisCmd := pk []; let s : State := on; (started 0x0002 c s).isSome,
    let c : TrellisCmd := pk [(24, 1, 2)];
      let s : State := on; (match started 0x0C00 c s with | some (_, f) => let act := pByte f.cmd 24; decide (1 < act) | _ => false),
    let c : TrellisCmd := pk [] (zeros 31);
      let s : State := on; (match started 0x0C00 c s with | some (_, f) => let act := pByte f.cmd 24; decide (act ≤ 1 ∧ (f.cmd.payLen % 32 ≠ 0 ∨ f.cmd.payLen < 32)) | _ => false),
    let c : TrellisCmd := pk [] (zeros 32);
      let s : State := on; (match started 0x0C00 c s with | some (v, f) => let act := pByte f.cmd 24; let seen := v.trl.late.filter (fun g => !(lateView f.cmd.est g).isEmpty); decide (act ≤ 1 ∧ f.cmd.payLen % 32 = 0 ∧ 32 ≤ f.cmd.payLen ∧ seen = []) | _ => false),
    let c : TrellisCmd := pk [] (zeros 32);
      let s : State := { on with trl := { on.trl with late := [{ entries := [{ issuer := 0x2000 }], count := 1 }] } }; (match started 0x0C00 c s with | some (v, f) => let act := pByte f.cmd 24; let seen := v.trl.late.filter (fun g => !(lateView f.cmd.est g).isEmpty); decide (act ≤ 1 ∧ f.cmd.payLen % 32 = 0 ∧ 32 ≤ f.cmd.payLen) && ((match seen with | _ :: _ => decide (act = 0) | _ => false)) | _ => false),
    let c : TrellisCmd := pk [(24, 1, 1)] (zeros 32);
      let s : State := { on with trl := { on.trl with late := [{ entries := [{ issuer := 0x2000 }], count := 1 }] } }; (match started 0x0C00 c s with | some (v, f) => let act := pByte f.cmd 24; let seen := v.trl.late.filter (fun g => !(lateView f.cmd.est g).isEmpty); decide (act ≤ 1 ∧ f.cmd.payLen % 32 = 0 ∧ 32 ≤ f.cmd.payLen) && ((match seen with | _ :: _ => decide (act = 1) | _ => false)) | _ => false)] : List Bool).all id = true := by decide +kernel

/-- Clause by clause, states and operands that meet the hypotheses of `Obligations.AllotCreateMakesOrRefuses`. -/
theorem witness_AllotCreateMakesOrRefuses : ([
    let c : TrellisCmd := pk [(24, 1, 2), (28, 4, 1), (32, 4, 4)] [] 1;
      let s : State := ({ on with alt := { on.alt with total := 8 } }); (match started 0x0100 c s with | some (_, f) => let kind := pByte f.cmd 24; decide (1 < kind) | _ => false),
    let c : TrellisCmd := pk [(25, 1, 1), (28, 4, 1), (32, 4, 4)] [] 1;
      let s : State := ({ on with alt := { on.alt with total := 8 } }); (match started 0x0100 c s with | some (_, f) => let kind := pByte f.cmd 24; let home := pByte f.cmd 25; decide (kind ≤ 1 ∧ (1 < home ∨ (home = 1 ∧ kind = 0))) | _ => false),
    let c : TrellisCmd := pk [(28, 4, 5), (32, 4, 4)] [] 1;
      let s : State := ({ on with alt := { on.alt with total := 8 } }); (match started 0x0100 c s with | some (_, f) => let kind := pByte f.cmd 24; let home := pByte f.cmd 25; let n := pNum f.cmd 28 4; let m := pNum f.cmd 32 4; decide (kind ≤ 1 ∧ home ≤ kind ∧ (n = 0 ∨ m < n)) | _ => false),
    let c : TrellisCmd := pk [(28, 4, 1), (32, 4, 65537)] [] 1;
      let s : State := ({ on with alt := { on.alt with total := 8 } }); (match started 0x0100 c s with | some (v, f) => let kind := pByte f.cmd 24; let home := pByte f.cmd 25; let n := pNum f.cmd 28 4; let m := pNum f.cmd 32 4; let limit := if isBig v then 65536 else 32768; decide (kind ≤ 1 ∧ home ≤ kind ∧ 0 < n ∧ n ≤ m ∧ limit < m) | _ => false),
    let c : TrellisCmd := pk [(28, 4, 1), (32, 4, 4)] (zeros 7) 1;
      let s : State := ({ on with alt := { on.alt with total := 8 } }); (match started 0x0100 c s with | some (v, f) => let kind := pByte f.cmd 24; let home := pByte f.cmd 25; let n := pNum f.cmd 28 4; let m := pNum f.cmd 32 4; let limit := if isBig v then 65536 else 32768; decide (kind ≤ 1 ∧ home ≤ kind ∧ 0 < n ∧ n ≤ m ∧ m ≤ limit ∧ bindEntries (payIn f.cmd) = none) | _ => false),
    let c : TrellisCmd := pk [(28, 4, 1), (32, 4, 4)] [] 1;
      let s : State := (alT on 1 { extents := [0, 1], maxExtents := 4 }); (match started 0x0100 c s with | some (v, f) => let id := f.cmd.allot; let kind := pByte f.cmd 24; let home := pByte f.cmd 25; let n := pNum f.cmd 28 4; let m := pNum f.cmd 32 4; let limit := if isBig v then 65536 else 32768; decide (kind ≤ 1 ∧ home ≤ kind ∧ 0 < n ∧ n ≤ m ∧ m ≤ limit) && ((match bindEntries (payIn f.cmd) with | some _ => decide (txPending v id = false) && ((allotOf v id).isSome) | _ => false)) | _ => false),
    let c : TrellisCmd := pk [(28, 4, 1), (32, 4, 4)] [] 1;
      let s : State := pr on false; (match started 0x0100 c s with | some (v, f) => let id := f.cmd.allot; let kind := pByte f.cmd 24; let home := pByte f.cmd 25; let n := pNum f.cmd 28 4; let m := pNum f.cmd 32 4; let limit := if isBig v then 65536 else 32768; decide (kind ≤ 1 ∧ home ≤ kind ∧ 0 < n ∧ n ≤ m ∧ m ≤ limit) && ((match bindEntries (payIn f.cmd) with | some _ => decide (txPending v id = false ∧ allotOf v id = none ∧ ((kind = 1 ∧ inStep v = false) ∨ (kind = 0 ∧ v.exl.paired = true ∧ v.exl.session = false))) | _ => false)) | _ => false),
    let c : TrellisCmd := pk [(28, 4, 1), (32, 4, 4)] [] 1;
      let s : State := on; (match started 0x0100 c s with | some (v, f) => let id := f.cmd.allot; let kind := pByte f.cmd 24; let home := pByte f.cmd 25; let n := pNum f.cmd 28 4; let m := pNum f.cmd 32 4; let limit := if isBig v then 65536 else 32768; decide (kind ≤ 1 ∧ home ≤ kind ∧ 0 < n ∧ n ≤ m ∧ m ≤ limit) && ((match bindEntries (payIn f.cmd) with | some es => decide (txPending v id = false ∧ allotOf v id = none ∧ ((kind = 1 → inStep v = true)) ∧ ((kind = 0 → v.exl.paired = true → v.exl.session = true)) ∧ keyGen v id ≠ 0xFFFFFFFF ∧ (pickExtents v (kind == 1) n = none ∨ addBindings v m [] es = none)) | _ => false)) | _ => false),
    let c : TrellisCmd := pk [(24, 1, 1), (28, 4, 1), (32, 4, 4)] [] 1;
      let s : State := pr ({ on with alt := { on.alt with total := 8 } }) true; (match started 0x0100 c s with | some (v, f) => let id := f.cmd.allot; let kind := pByte f.cmd 24; let home := pByte f.cmd 25; let n := pNum f.cmd 28 4; let m := pNum f.cmd 32 4; let limit := if isBig v then 65536 else 32768; decide (kind ≤ 1 ∧ home ≤ kind ∧ 0 < n ∧ n ≤ m ∧ m ≤ limit) && ((match bindEntries (payIn f.cmd) with | some es => decide (txPending v id = false ∧ allotOf v id = none ∧ ((kind = 1 → inStep v = true)) ∧ ((kind = 0 → v.exl.paired = true → v.exl.session = true)) ∧ keyGen v id ≠ 0xFFFFFFFF) && ((match pickExtents v (kind == 1) n with | some _ => (match addBindings v m [] es with | some _ => decide (kind = 1) | _ => false) | _ => false)) | _ => false)) | _ => false),
    let c : TrellisCmd := pk [(28, 4, 1), (32, 4, 4)] [] 1;
      let s : State := pr ({ on with alt := { on.alt with total := 8 } }) true; (match started 0x0100 c s with | some (v, f) => let id := f.cmd.allot; let kind := pByte f.cmd 24; let home := pByte f.cmd 25; let n := pNum f.cmd 28 4; let m := pNum f.cmd 32 4; let limit := if isBig v then 65536 else 32768; decide (kind ≤ 1 ∧ home ≤ kind ∧ 0 < n ∧ n ≤ m ∧ m ≤ limit) && ((match bindEntries (payIn f.cmd) with | some es => decide (txPending v id = false ∧ allotOf v id = none ∧ ((kind = 1 → inStep v = true)) ∧ ((kind = 0 → v.exl.paired = true → v.exl.session = true)) ∧ keyGen v id ≠ 0xFFFFFFFF) && ((match pickExtents v (kind == 1) n with | some _ => (match addBindings v m [] es with | some _ => decide (kind = 0 ∧ v.exl.paired = true) | _ => false) | _ => false)) | _ => false)) | _ => false),
    let c : TrellisCmd := pk [(28, 4, 1), (32, 4, 4)] [] 1;
      let s : State := ({ on with alt := { on.alt with total := 8 } }); (match started 0x0100 c s with | some (v, f) => let id := f.cmd.allot; let kind := pByte f.cmd 24; let home := pByte f.cmd 25; let n := pNum f.cmd 28 4; let m := pNum f.cmd 32 4; let limit := if isBig v then 65536 else 32768; decide (kind ≤ 1 ∧ home ≤ kind ∧ 0 < n ∧ n ≤ m ∧ m ≤ limit) && ((match bindEntries (payIn f.cmd) with | some es => decide (txPending v id = false ∧ allotOf v id = none ∧ ((kind = 1 → inStep v = true)) ∧ ((kind = 0 → v.exl.paired = true → v.exl.session = true)) ∧ keyGen v id ≠ 0xFFFFFFFF) && ((match pickExtents v (kind == 1) n with | some _ => (match addBindings v m [] es with | some _ => decide (kind = 0 ∧ v.exl.paired = false) | _ => false) | _ => false)) | _ => false)) | _ => false),
    let c : TrellisCmd := pk [(28, 4, 1), (32, 4, 4)] [] 1;
      let s : State := { on with exl := { on.exl with txs := [{ allot := 1 }] } }; (match started 0x0100 c s with | some (v, f) => let id := f.cmd.allot; let kind := pByte f.cmd 24; let home := pByte f.cmd 25; let n := pNum f.cmd 28 4; let m := pNum f.cmd 32 4; let limit := if isBig v then 65536 else 32768; decide (kind ≤ 1 ∧ home ≤ kind ∧ 0 < n ∧ n ≤ m ∧ m ≤ limit ∧ bindEntries (payIn f.cmd) ≠ none ∧ txPending v id = true) | _ => false),
    let s : State := ({ on with alt := { on.alt with total := 8 } }); let mirrored : Bool := false;
      let n : Nat := 2; (pickExtents s mirrored n).isSome,
    let s : State := ({ on with alt := { on.alt with total := 8 } }); let mirrored : Bool := false;
      let n : Nat := 2; (pickExtents s mirrored n).isSome,
    let s : State := ({ on with alt := { on.alt with total := 8 } }); let mirrored : Bool := false;
      let n : Nat := 2; (pickExtents s mirrored n).isSome,
    (let s := (alT on 1 { extents := [0, 1], maxExtents := 4 }); (pickExtents s false 2).isSome && s.alt.tab.any (fun p => p.2.extents.any (fun y => y / 4 == 0))),
    (let s := (alT on 1 { extents := [0, 1], maxExtents := 4 }); match pickExtents s false 2 with | some xs => extentFits s false 7 && !xs.contains 7 | none => false)] : List Bool).all id = true := by decide +kernel

/-- Clause by clause, states and operands that meet the hypotheses of `Obligations.AllotResizeAndDelete`. -/
theorem witness_AllotResizeAndDelete_1 : ([
    let c : TrellisCmd := pk [(28, 4, 3)] [] 1;
      let s : State := on; (match started 0x0101 c s with | some (v, f) => let id := f.cmd.allot; decide (allotOf v id = none) | _ => false),
    let c : TrellisCmd := pk [(28, 4, 3)] [] 1;
      let s : State := (alT on 1 { extents := [0, 1], maxExtents := 4, st := .stale }); (match started 0x0101 c s with | some (v, f) => let id := f.cmd.allot; (match allotOf v id with | some a => (allotBusy v a id true).isSome | _ => false) | _ => false),
    let c : TrellisCmd := pk [(28, 4, 5)] [] 1;
      let s : State := (alT on 1 { extents := [0, 1], maxExtents := 4 }); (match started 0x0101 c s with | some (v, f) => let id := f.cmd.allot; let n := pNum f.cmd 28 4; (match allotOf v id with | some a => decide (allotBusy v a id true = none ∧ (n = 0 ∨ a.maxExtents < n)) | _ => false) | _ => false),
    let c : TrellisCmd := pk [(28, 4, 1)] [] 1;
      let s : State := (alT on 1 { extents := [0, 1], maxExtents := 4 }); (match started 0x0101 c s with | some (v, f) => let id := f.cmd.allot; let n := pNum f.cmd 28 4; let ms := pNum f.cmd 32 4; (match allotOf v id with | some a => decide (allotBusy v a id true = none ∧ 0 < n ∧ n ≤ a.maxExtents ∧ (60000 < ms ∨ (n < a.extents.length ∧ ms = 0))) | _ => false) | _ => false),
    let c : TrellisCmd := pk [(28, 4, 3)] (zeros 8) 1;
      let s : State := (alT on 1 { extents := [0, 1], maxExtents := 4 }); (match started 0x0101 c s with | some (v, f) => let id := f.cmd.allot; let n := pNum f.cmd 28 4; let ms := pNum f.cmd 32 4; (match allotOf v id with | some a => decide (allotBusy v a id true = none ∧ 0 < n ∧ n ≤ a.maxExtents ∧ ms ≤ 60000 ∧ ((n < a.extents.length → 0 < ms)) ∧ f.cmd.payLen ≠ 0 ∧ f.cmd.payLen ≠ 16) | _ => false) | _ => false),
    let c : TrellisCmd := pk [(28, 4, 3)] [] 1;
      let s : State := (alT on 1 { extents := [0, 1], maxExtents := 4, st := .dataLost }); (match started 0x0101 c s with | some (v, f) => let id := f.cmd.allot; let n := pNum f.cmd 28 4; let ms := pNum f.cmd 32 4; (match allotOf v id with | some a => decide (allotBusy v a id true = none ∧ 0 < n ∧ n ≤ a.maxExtents ∧ ms ≤ 60000 ∧ ((n < a.extents.length → 0 < ms)) ∧ (f.cmd.payLen = 0 ∨ f.cmd.payLen = 16) ∧ a.st = .dataLost) | _ => false) | _ => false),
    let c : TrellisCmd := pk [(28, 4, 3)] [] 1;
      let s : State := (pr (alT on 1 { extents := [0, 1], maxExtents := 4, mirrored := true }) false); (match started 0x0101 c s with | some (v, f) => let id := f.cmd.allot; let n := pNum f.cmd 28 4; let ms := pNum f.cmd 32 4; (match allotOf v id with | some a => decide (allotBusy v a id true = none ∧ 0 < n ∧ n ≤ a.maxExtents ∧ ms ≤ 60000 ∧ ((n < a.extents.length → 0 < ms)) ∧ (f.cmd.payLen = 0 ∨ f.cmd.payLen = 16) ∧ a.st ≠ .dataLost ∧ a.mirrored = true ∧ inStep v = false) | _ => false) | _ => false),
    let c : TrellisCmd := pk [(28, 4, 9)] [] 1;
      let s : State := (alT on 1 { extents := [0], maxExtents := 9 }); (match started 0x0101 c s with | some (v, f) => let id := f.cmd.allot; let n := pNum f.cmd 28 4; let ms := pNum f.cmd 32 4; (match allotOf v id with | some a => decide (allotBusy v a id true = none ∧ 0 < n ∧ n ≤ a.maxExtents ∧ ms ≤ 60000 ∧ ((n < a.extents.length → 0 < ms)) ∧ (f.cmd.payLen = 0 ∨ f.cmd.payLen = 16) ∧ a.st ≠ .dataLost ∧ ((a.mirrored = true → inStep v = true)) ∧ a.extents.length ≤ n ∧ pickExtents v a.mirrored (n - a.extents.length) = none) | _ => false) | _ => false),
    let c : TrellisCmd := pk [(28, 4, 3)] [] 1;
      let s : State := (alT on 1 { extents := [0, 1], maxExtents := 4 }); (match started 0x0101 c s with | some (v, f) => let id := f.cmd.allot; let n := pNum f.cmd 28 4; let ms := pNum f.cmd 32 4; (match allotOf v id with | some a => decide (allotBusy v a id true = none ∧ 0 < n ∧ n ≤ a.maxExtents ∧ ms ≤ 60000 ∧ ((n < a.extents.length → 0 < ms)) ∧ (f.cmd.payLen = 0 ∨ f.cmd.payLen = 16) ∧ a.st ≠ .dataLost ∧ ((a.mirrored = true → inStep v = true)) ∧ a.extents.length ≤ n) && ((pickExtents v a.mirrored (n - a.extents.length)).isSome) | _ => false) | _ => false),
    let c : TrellisCmd := pk [(28, 4, 1), (32, 4, 60000)] [] 1;
      let s : State := (alT on 1 { extents := [0, 1], maxExtents := 4 }); (match started 0x0101 c s with | some (v, f) => let id := f.cmd.allot; let n := pNum f.cmd 28 4; let ms := pNum f.cmd 32 4; (match allotOf v id with | some a => decide (allotBusy v a id true = none ∧ 0 < n ∧ n ≤ a.maxExtents ∧ ms ≤ 60000 ∧ ((n < a.extents.length → 0 < ms)) ∧ (f.cmd.payLen = 0 ∨ f.cmd.payLen = 16) ∧ a.st ≠ .dataLost ∧ ((a.mirrored = true → inStep v = true)) ∧ n < a.extents.length ∧ releasedFrom a n = true) | _ => false) | _ => false),
    let c : TrellisCmd := pk [(28, 4, 1), (32, 4, 1)] [] 1;
      let s : State := (alT on 1 { extents := [0, 1], maxExtents := 4, bindings := [bnd [1]] }); (match started 0x0101 c s with | some (v, f) => let id := f.cmd.allot; let n := pNum f.cmd 28 4; let ms := pNum f.cmd 32 4; (match allotOf v id with | some a => decide (allotBusy v a id true = none ∧ 0 < n ∧ n ≤ a.maxExtents ∧ ms ≤ 60000 ∧ ((n < a.extents.length → 0 < ms)) ∧ (f.cmd.payLen = 0 ∨ f.cmd.payLen = 16) ∧ a.st ≠ .dataLost ∧ ((a.mirrored = true → inStep v = true)) ∧ n < a.extents.length ∧ releasedFrom a n = false) | _ => false) | _ => false),
    let c : TrellisCmd := pk [] [] 1;
      let s : State := on; (match started 0x0102 c s with | some (v, f) => let id := f.cmd.allot; decide (allotOf v id = none) | _ => false),
    let c : TrellisCmd := pk [(24, 1, 2)] [] 1;
      let s : State := (alT on 1 { extents := [0, 1], maxExtents := 4 }); (match started 0x0102 c s with | some (v, f) => let id := f.cmd.allot; let force := pByte f.cmd 24; (match allotOf v id with | some _ => decide (1 < force) | _ => false) | _ => false),
    let c : TrellisCmd := pk [] [] 1;
      let s : State := (alT on 1 { extents := [0, 1], maxExtents := 4, st := .deleting }); (match started 0x0102 c s with | some (v, f) => let id := f.cmd.allot; let force := pByte f.cmd 24; (match allotOf v id with | some a => decide (force ≤ 1) && ((allotBusy v a id false).isSome) | _ => false) | _ => false),
    let c : TrellisCmd := pk [] [] 1;
      let s : State := (alT on 1 { extents := [0, 1], maxExtents := 4, bindings := [bnd] }); (match started 0x0102 c s with | some (v, f) => let id := f.cmd.allot; let force := pByte f.cmd 24; (match allotOf v id with | some a => decide (force ≤ 1 ∧ allotBusy v a id false = none ∧ force = 0 ∧ a.bindings ≠ []) | _ => false) | _ => false),
    let c : TrellisCmd := pk [(24, 1, 1)] [] 1;
      let s : State := (pr (alT on 1 { extents := [0, 1], maxExtents := 4, mirrored := true }) false); (match started 0x0102 c s with | some (v, f) => let id := f.cmd.allot; let force := pByte f.cmd 24; (match allotOf v id with | some a => decide (force ≤ 1 ∧ allotBusy v a id false = none ∧ (force = 1 ∨ a.bindings = []) ∧ a.mirrored = true ∧ inStep v = false) | _ => false) | _ => false),
    let c : TrellisCmd := pk [] [] 1;
      let s : State := (pr (alT { on with exl := { on.exl with peerState := [(1, { inStep := true })] } } 1 { mirrored := true, extents := [0] }) true); (match started 0x0102 c s with | some (v, f) => let id := f.cmd.allot; let force := pByte f.cmd 24; (match allotOf v id with | some a => decide (force ≤ 1 ∧ allotBusy v a id false = none ∧ (force = 1 ∨ a.bindings = []) ∧ a.mirrored = true ∧ inStep v = true) | _ => false) | _ => false),
    let c : TrellisCmd := pk [(24, 1, 1)] [] 1;
      let s : State := (alT on 1 { extents := [0, 1], maxExtents := 4 }); (match started 0x0102 c s with | some (v, f) => let id := f.cmd.allot; let force := pByte f.cmd 24; (match allotOf v id with | some a => decide (force ≤ 1 ∧ allotBusy v a id false = none ∧ (force = 1 ∨ a.bindings = []) ∧ a.mirrored = false) | _ => false) | _ => false),
    let a : Allot := ({ reservation := true } : Allot); decide (a.reservation = true),
    let s : State := on; let a : Allot := ({ st := .deleting } : Allot);
      let id : Nat := 1; decide (a.reservation = false ∧ (a.st = .deleting ∨ a.busy ≠ none ∨ txPending s id = true))] : List Bool).all id = true := by decide +kernel

theorem witness_AllotResizeAndDelete_2 : ([
    let s : State := on; let a : Allot := ({ st := .stale } : Allot);
      let id : Nat := 1; decide (a.reservation = false ∧ a.st ≠ .deleting ∧ a.busy = none ∧ txPending s id = false)] : List Bool).all id = true := by decide +kernel

/-- Clause by clause, states and operands that meet the hypotheses of `Obligations.AllotBindQueryAndReleaseWait`. -/
theorem witness_AllotBindQueryAndReleaseWait_1 : ([
    let c : TrellisCmd := pk [(24, 1, 0)] [] 1;
      let s : State := on; (match started 0x0103 c s with | some (v, f) => let id := f.cmd.allot; decide (allotOf v id = none) | _ => false),
    let c : TrellisCmd := pk [(24, 1, 4)] [] 1;
      let s : State := (alT on 1 { extents := [0, 1], maxExtents := 4 }); (match started 0x0103 c s with | some (v, f) => let id := f.cmd.allot; let act := pByte f.cmd 24; (match allotOf v id with | some _ => decide (3 < act) | _ => false) | _ => false),
    let c : TrellisCmd := pk [(24, 1, 1), (28, 4, 60001)] [] 1;
      let s : State := (alT on 1 { extents := [0, 1], maxExtents := 4 }); (match started 0x0103 c s with | some (v, f) => let id := f.cmd.allot; let act := pByte f.cmd 24; let ms := pNum f.cmd 28 4; (match allotOf v id with | some _ => decide (act = 1 ∧ (ms = 0 ∨ 60000 < ms)) | _ => false) | _ => false),
    let c : TrellisCmd := pk [(24, 1, 3)] (le 1 8) 1;
      let s : State := (alT on 1 { extents := [0, 1], maxExtents := 4 }); (match started 0x0103 c s with | some (v, f) => let id := f.cmd.allot; let act := pByte f.cmd 24; (match allotOf v id with | some _ => decide (act = 3 ∧ f.cmd.payLen ≠ 0) | _ => false) | _ => false),
    let c : TrellisCmd := pk [] (le 0x1000 8) 1;
      let s : State := (alT on 1 { extents := [0, 1], maxExtents := 4 }); (match started 0x0103 c s with | some (v, f) => let id := f.cmd.allot; let act := pByte f.cmd 24; let ms := pNum f.cmd 28 4; (match allotOf v id with | some _ => decide (act ≤ 3 ∧ ((act = 1 → (0 < ms ∧ ms ≤ 60000))) ∧ ((act = 3 → f.cmd.payLen = 0)) ∧ bindEntries (payIn f.cmd) = none) | _ => false) | _ => false),
    let c : TrellisCmd := pk [(24, 1, 0)] [] 1;
      let s : State := (alT on 1 { extents := [0, 1], maxExtents := 4, st := .deleting }); (match started 0x0103 c s with | some (v, f) => let id := f.cmd.allot; let act := pByte f.cmd 24; let ms := pNum f.cmd 28 4; (match allotOf v id with | some a => decide (act ≤ 3 ∧ ((act = 1 → (0 < ms ∧ ms ≤ 60000))) ∧ ((act = 3 → f.cmd.payLen = 0))) && ((match bindEntries (payIn f.cmd) with | some _ => (allotBusy v a id true).isSome | _ => false)) | _ => false) | _ => false),
    let c : TrellisCmd := pk [] (le 1 8) 1;
      let s : State := (alT on 1 { maxExtents := 2 ^ 23 }); (match started 0x0103 c s with | some (v, f) => let id := f.cmd.allot; let act := pByte f.cmd 24; let ms := pNum f.cmd 28 4; (match allotOf v id with | some a => decide (act ≤ 3 ∧ ((act = 1 → (0 < ms ∧ ms ≤ 60000))) ∧ ((act = 3 → f.cmd.payLen = 0))) && ((match bindEntries (payIn f.cmd) with | some es => decide (allotBusy v a id true = none ∧ act = 0 ∧ addBindings v a.maxExtents a.bindings es = none) | _ => false)) | _ => false) | _ => false),
    let c : TrellisCmd := pk [] (le 1 8) 1;
      let s : State := (alT on 1 { extents := [0, 1], maxExtents := 4 }); (match started 0x0103 c s with | some (v, f) => let id := f.cmd.allot; let act := pByte f.cmd 24; let ms := pNum f.cmd 28 4; (match allotOf v id with | some a => decide (act ≤ 3 ∧ ((act = 1 → (0 < ms ∧ ms ≤ 60000))) ∧ ((act = 3 → f.cmd.payLen = 0))) && ((match bindEntries (payIn f.cmd) with | some es => decide (allotBusy v a id true = none ∧ act = 0) && ((addBindings v a.maxExtents a.bindings es).isSome) | _ => false)) | _ => false) | _ => false),
    let c : TrellisCmd := pk [(24, 1, 1), (28, 4, 60000)] (le 1 8) 1;
      let s : State := (alT on 1 { extents := [0, 1], maxExtents := 4 }); (match started 0x0103 c s with | some (v, f) => let id := f.cmd.allot; let act := pByte f.cmd 24; let ms := pNum f.cmd 28 4; (match allotOf v id with | some a => decide (act ≤ 3 ∧ ((act = 1 → (0 < ms ∧ ms ≤ 60000))) ∧ ((act = 3 → f.cmd.payLen = 0))) && ((match bindEntries (payIn f.cmd) with | some es => decide (allotBusy v a id true = none) && (let ids := es.map (·.1); decide (act = 1) && (let held := a.bindings.filter (fun b => ids.contains b.issuer.toNat && !b.accepted.isEmpty); decide (held = []))) | _ => false)) | _ => false) | _ => false),
    let c : TrellisCmd := pk [(24, 1, 1), (28, 4, 1)] (le 1 8) 1;
      let s : State := (alT on 1 { extents := [0, 1], maxExtents := 4, bindings := [bnd [1]] }); (match started 0x0103 c s with | some (v, f) => let id := f.cmd.allot; let act := pByte f.cmd 24; let ms := pNum f.cmd 28 4; (match allotOf v id with | some a => decide (act ≤ 3 ∧ ((act = 1 → (0 < ms ∧ ms ≤ 60000))) ∧ ((act = 3 → f.cmd.payLen = 0))) && ((match bindEntries (payIn f.cmd) with | some es => decide (allotBusy v a id true = none) && (let ids := es.map (·.1); decide (act = 1) && (let held := a.bindings.filter (fun b => ids.contains b.issuer.toNat && !b.accepted.isEmpty); decide (held ≠ []))) | _ => false)) | _ => false) | _ => false),
    let c : TrellisCmd := pk [(24, 1, 2)] (le 1 8) 1;
      let s : State := (alT on 1 { extents := [0, 1], maxExtents := 4 }); (match started 0x0103 c s with | some (v, f) => let id := f.cmd.allot; let act := pByte f.cmd 24; let ms := pNum f.cmd 28 4; (match allotOf v id with | some a => decide (act ≤ 3 ∧ ((act = 1 → (0 < ms ∧ ms ≤ 60000))) ∧ ((act = 3 → f.cmd.payLen = 0))) && ((match bindEntries (payIn f.cmd) with | some _ => decide (allotBusy v a id true = none ∧ act = 2) | _ => false)) | _ => false) | _ => false),
    let c : TrellisCmd := pk [(24, 1, 3)] [] 1;
      let s : State := (alT on 1 { extents := [0, 1], maxExtents := 4 }); (match started 0x0103 c s with | some (v, f) => let id := f.cmd.allot; let act := pByte f.cmd 24; let ms := pNum f.cmd 28 4; (match allotOf v id with | some a => decide (act ≤ 3 ∧ ((act = 1 → (0 < ms ∧ ms ≤ 60000))) ∧ ((act = 3 → f.cmd.payLen = 0))) && ((match bindEntries (payIn f.cmd) with | some _ => decide (allotBusy v a id true = none ∧ act = 3 ∧ a.st ≠ .dataLost) | _ => false)) | _ => false) | _ => false),
    let c : TrellisCmd := pk [(24, 1, 3)] [] 1;
      let s : State := (alT on 1 { extents := [0, 1], maxExtents := 4, st := .dataLost }); (match started 0x0103 c s with | some (v, f) => let id := f.cmd.allot; let act := pByte f.cmd 24; let ms := pNum f.cmd 28 4; (match allotOf v id with | some a => decide (act ≤ 3 ∧ ((act = 1 → (0 < ms ∧ ms ≤ 60000))) ∧ ((act = 3 → f.cmd.payLen = 0))) && ((match bindEntries (payIn f.cmd) with | some _ => decide (allotBusy v a id true = none ∧ act = 3 ∧ a.st = .dataLost) | _ => false)) | _ => false) | _ => false),
    let c : TrellisCmd := pk [] [] 1;
      let s : State := on; (match started 0x0104 c s with | some (v, f) => let id := f.cmd.allot; decide (allotOf v id = none) | _ => false),
    let c : TrellisCmd := pk [] (zeros 8) 1;
      let s : State := (alT on 1 { extents := [0, 1], maxExtents := 4 }); (match started 0x0104 c s with | some (v, f) => let id := f.cmd.allot; (match allotOf v id with | some _ => decide (f.cmd.payLen % 16 ≠ 0) | _ => false) | _ => false),
    let c : TrellisCmd := pk [(24, 1, 0)] [] 1;
      let s : State := (alT on 1 { extents := [0, 1], maxExtents := 4, busy := some 7 }); (match started 0x0104 c s with | some (v, f) => let id := f.cmd.allot; (match allotOf v id with | some a => decide (f.cmd.payLen % 16 = 0 ∧ a.st ≠ .deleting ∧ (a.busy ≠ none ∨ txPending v id = true)) | _ => false) | _ => false),
    let c : TrellisCmd := pk [(28, 4, 1)] (zeros 16) 1;
      let s : State := (alT on 1 { extents := [0, 1], maxExtents := 4, bindings := [bnd [1]] }); (match started 0x0104 c s with | some (v, f) => let id := f.cmd.allot; (match allotOf v id with | some a => decide (f.cmd.payLen % 16 = 0 ∧ (a.st = .deleting ∨ (a.busy = none ∧ txPending v id = false)) ∧ a.reservation = false) | _ => false) | _ => false),
    let id : Nat := 7; let t : Nat := 0; let al : Nat := 1; let dl : Nat := 10; let s : State := fl on (.shrink 1 1 10); let u := tick s t;
      let n := 1; decide (jobOf u id = .shrink al n dl ∧ u.now < dl),
    let id : Nat := 7; let t : Nat := 0; let al : Nat := 1; let dl : Nat := 0; let s : State := fl on (.shrink 1 1 0); let u := tick s t;
      let n := 1; decide (jobOf u id = .shrink al n dl ∧ dl ≤ u.now ∧ allotOf u al = none),
    let id : Nat := 7; let t : Nat := 0; let al : Nat := 1; let dl : Nat := 0;
      let s : State := fl (alT on 1 { extents := [0, 1], maxExtents := 4 }) (.shrink 1 1 0); let u := tick s t;
      let n := 1; decide (jobOf u id = .shrink al n dl ∧ dl ≤ u.now) && ((allotOf u al).isSome)] : List Bool).all id = true := by decide +kernel

theorem witness_AllotBindQueryAndReleaseWait_2 : ([
    let id : Nat := 7; let t : Nat := 0; let al : Nat := 1; let dl : Nat := 10; let s : State := fl on (.unbind 1 [1] 10); let u := tick s t;
      let is : List Nat := [1]; decide (jobOf u id = .unbind al is dl ∧ u.now < dl),
    let id : Nat := 7; let t : Nat := 0; let al : Nat := 1; let dl : Nat := 0; let s : State := fl on (.unbind 1 [1] 0); let u := tick s t;
      let is : List Nat := [1]; decide (jobOf u id = .unbind al is dl ∧ dl ≤ u.now ∧ allotOf u al = none),
    let id : Nat := 7; let t : Nat := 0; let al : Nat := 1; let dl : Nat := 0;
      let s : State := fl (alT on 1 { extents := [0, 1], maxExtents := 4, bindings := [bnd [1]] }) (.unbind 1 [1] 0); let u := tick s t;
      let is : List Nat := [1]; decide (jobOf u id = .unbind al is dl ∧ dl ≤ u.now) && ((match allotOf u al with | some a => let b : Allot := { unbindEntry a is with bindings := (unbindEntry a is).bindings.map (fun x => { x with released := [] }) }; decide (b.bindings.length = a.bindings.length) | _ => false)),
    let id : Nat := 7; let t : Nat := 0; let al : Nat := 1; let dl : Nat := 0;
      let s : State := fl (alT on 1 { extents := [0, 1], maxExtents := 4, bindings := [bnd] }) (.unbind 1 [1] 0); let u := tick s t;
      let is : List Nat := [1]; decide (jobOf u id = .unbind al is dl ∧ dl ≤ u.now) && ((match allotOf u al with | some a => let b : Allot := { unbindEntry a is with bindings := (unbindEntry a is).bindings.map (fun x => { x with released := [] }) }; decide (b.bindings.length ≠ a.bindings.length) | _ => false))] : List Bool).all id = true := by decide +kernel

/-- Clause by clause, states and operands that meet the hypotheses of `Obligations.DripCommands`. -/
theorem witness_DripCommands_1 : ([
    let c : TrellisCmd := pk [] [] 1;
      let s : State := on; (match started 0x0200 c s with | some (v, f) => let id := f.cmd.allot; decide (id ≠ 0xFFFF) && ((allotBad v id).isSome) | _ => false),
    let c : TrellisCmd := pk [];
      let s : State := (alT on 1 { extents := [0, 1], maxExtents := 4 }); (match started 0x0200 c s with | some (v, f) => let id := f.cmd.allot; decide ((id = 0xFFFF ∨ allotBad v id = none)) | _ => false),
    let c : TrellisCmd := pk [(24, 1, 2)] [] 1;
      let s : State := (alT on 1 { extents := [0, 1], maxExtents := 4 }); (match started 0x0201 c s with | some (_, f) => let act := pByte f.cmd 24; decide (1 < act) | _ => false),
    let c : TrellisCmd := hk [] [] 1;
      let s : State := own (host (alT on 1 { extents := [0, 1], maxExtents := 4 })) 0 1; (match started 0x0201 c s with | some (_, f) => let act := pByte f.cmd 24; decide (act = 0 ∧ issClass f.cmd.est = 0) | _ => false),
    let c : TrellisCmd := pk [] [] 1;
      let s : State := (alT on 1 { extents := [0, 1], maxExtents := 4 }); (match started 0x0201 c s with | some (_, f) => let act := pByte f.cmd 24; decide (act = 0 ∧ issClass f.cmd.est ≠ 0) | _ => false),
    ((started 0x0201 (pk [] [] 1) (alT on 1 { extents := [0, 1], maxExtents := 4 })).isSome && (started 0x0201 (pk [] (zeros 512) 1) (alT on 1 { extents := [0, 1], maxExtents := 4 })).isSome),
    let c : TrellisCmd := pk [(24, 1, 1)] [] 1;
      let s : State := (alT on 1 { extents := [0, 1], maxExtents := 4 }); (match started 0x0201 c s with | some (v, f) => let act := pByte f.cmd 24; decide (act = 1 ∧ owns v f.cmd.est 0 = false) | _ => false),
    let c : TrellisCmd := pk [(24, 1, 1)] [] 1;
      let s : State := (own on 0 0x2000); (match started 0x0201 c s with | some (v, f) => let act := pByte f.cmd 24; decide (act = 1 ∧ owns v f.cmd.est 0 = true) && ((allotBad v f.cmd.allot).isSome) | _ => false),
    let c : TrellisCmd := pk [(24, 1, 1)] (zeros 16) 1;
      let s : State := (own (alT on 1 { extents := [0, 1], maxExtents := 4 }) 0 0x2000); (match started 0x0201 c s with | some (v, f) => let b := payIn f.cmd; let act := pByte f.cmd 24; decide (act = 1 ∧ owns v f.cmd.est 0 = true ∧ allotBad v f.cmd.allot = none) && ((match tget v.alt.tab f.cmd.allot with | some a => decide ((b.length % 16 ≠ 0 ∨ (entries16 b).all (hintOk (16384 * a.extents.length)) = false)) | _ => false)) | _ => false),
    let c : TrellisCmd := pk [(24, 1, 1)] (le 16384 4 ++ le 16384 4 ++ le 2 4 ++ le 600000 4) 1;
      let s : State := (own { (alT on 1 { extents := [0, 1], maxExtents := 4 }) with drp := { on.drp with hints := List.replicate 4096 { allot := 2 } } } 0 0x2000); (match started 0x0201 c s with | some (v, f) => let b := payIn f.cmd; let act := pByte f.cmd 24; decide (act = 1 ∧ owns v f.cmd.est 0 = true ∧ allotBad v f.cmd.allot = none) && ((match tget v.alt.tab f.cmd.allot with | some a => decide (b.length % 16 = 0 ∧ (entries16 b).all (hintOk (16384 * a.extents.length)) = true) && (let l := (entries16 b).foldl (hintEntry v.now f.cmd.allot) v.drp.hints; decide (4096 < l.length)) | _ => false)) | _ => false),
    let c : TrellisCmd := pk [(24, 1, 1)] (le 16384 4 ++ le 16384 4 ++ le 2 4 ++ le 600000 4) 1;
      let s : State := (own (alT on 1 { extents := [0, 1], maxExtents := 4 }) 0 0x2000); (match started 0x0201 c s with | some (v, f) => let b := payIn f.cmd; let act := pByte f.cmd 24; decide (act = 1 ∧ owns v f.cmd.est 0 = true ∧ allotBad v f.cmd.allot = none) && ((match tget v.alt.tab f.cmd.allot with | some a => decide (b.length % 16 = 0 ∧ (entries16 b).all (hintOk (16384 * a.extents.length)) = true) && (let l := (entries16 b).foldl (hintEntry v.now f.cmd.allot) v.drp.hints; decide (l.length ≤ 4096)) | _ => false)) | _ => false),
    let c : TrellisCmd := pk [] [] 1;
      let s : State := on; (match started 0x0202 c s with | some (v, f) => (allotBad v f.cmd.allot).isSome | _ => false),
    let c : TrellisCmd := pk [(24, 8, 536870912), (32, 8, 1)] [] 1;
      let s : State := (alT on 1 { extents := [0, 1], maxExtents := 4 }); (match started 0x0202 c s with | some (v, f) => let off := pNum f.cmd 24 8; decide (allotBad v f.cmd.allot = none) && ((match allotOf v f.cmd.allot with | some a => let size := 2 ^ 28 * a.extents.length; decide (size ≤ off) | _ => false)) | _ => false),
    let c : TrellisCmd := pk [(24, 8, 536870911), (32, 8, 2)] [] 1;
      let s : State := (alT on 1 { extents := [0, 1], maxExtents := 4 }); (match started 0x0202 c s with | some (v, f) => let off := pNum f.cmd 24 8; let len := pNum f.cmd 32 8; decide (allotBad v f.cmd.allot = none) && ((match allotOf v f.cmd.allot with | some a => let size := 2 ^ 28 * a.extents.length; decide (off < size ∧ (len = 0 ∨ size < off + len)) | _ => false)) | _ => false),
    let c : TrellisCmd := pk [(24, 8, 536870911), (32, 8, 1), (40, 1, 2)] [] 1;
      let s : State := (alT on 1 { extents := [0, 1], maxExtents := 4 }); (match started 0x0202 c s with | some (v, f) => let off := pNum f.cmd 24 8; let len := pNum f.cmd 32 8; decide (allotBad v f.cmd.allot = none) && ((match allotOf v f.cmd.allot with | some a => let size := 2 ^ 28 * a.extents.length; decide (off < size ∧ 0 < len ∧ off + len ≤ size ∧ 1 < pByte f.cmd 40) | _ => false)) | _ => false),
    let c : TrellisCmd := pk [(24, 8, 536870911), (32, 8, 1), (44, 4, 600001)] [] 1;
      let s : State := (alT on 1 { extents := [0, 1], maxExtents := 4 }); (match started 0x0202 c s with | some (v, f) => let off := pNum f.cmd 24 8; let len := pNum f.cmd 32 8; let ms := pNum f.cmd 44 4; decide (allotBad v f.cmd.allot = none) && ((match allotOf v f.cmd.allot with | some a => let size := 2 ^ 28 * a.extents.length; decide (off < size ∧ 0 < len ∧ off + len ≤ size ∧ pByte f.cmd 40 ≤ 1 ∧ 600000 < ms) | _ => false)) | _ => false),
    let c : TrellisCmd := pk [(24, 8, 536870911), (32, 8, 1), (44, 4, 600000)] [] 1;
      let s : State := (alT on 1 { extents := [0, 1], maxExtents := 4 }); (match started 0x0202 c s with | some (v, f) => let off := pNum f.cmd 24 8; let len := pNum f.cmd 32 8; let ms := pNum f.cmd 44 4; decide (allotBad v f.cmd.allot = none) && ((match allotOf v f.cmd.allot with | some a => let size := 2 ^ 28 * a.extents.length; decide (off < size ∧ 0 < len ∧ off + len ≤ size ∧ pByte f.cmd 40 ≤ 1 ∧ ms ≤ 600000 ∧ (pByte f.cmd 40 = 0 ∨ a.mirrored = false)) | _ => false)) | _ => false),
    let c : TrellisCmd := pk [(32, 8, 536870912), (40, 1, 1)] [] 1;
      let s : State := (alT on 1 { extents := [0, 1], maxExtents := 4, mirrored := true }); (match started 0x0202 c s with | some (v, f) => let off := pNum f.cmd 24 8; let len := pNum f.cmd 32 8; let ms := pNum f.cmd 44 4; decide (allotBad v f.cmd.allot = none) && ((match allotOf v f.cmd.allot with | some a => let size := 2 ^ 28 * a.extents.length; decide (off < size ∧ 0 < len ∧ off + len ≤ size ∧ pByte f.cmd 40 ≤ 1 ∧ ms ≤ 600000 ∧ pByte f.cmd 40 = 1 ∧ a.mirrored = true ∧ inStep v = false) | _ => false)) | _ => false),
    let c : TrellisCmd := pk [(32, 8, 268435456), (40, 1, 1)] [] 1;
      let s : State := (pr (alT { on with exl := { on.exl with peerState := [(1, { inStep := true })] } } 1 { mirrored := true, extents := [0] }) true); (match started 0x0202 c s with | some (v, f) => let off := pNum f.cmd 24 8; let len := pNum f.cmd 32 8; let ms := pNum f.cmd 44 4; decide (allotBad v f.cmd.allot = none) && ((match allotOf v f.cmd.allot with | some a => let size := 2 ^ 28 * a.extents.length; decide (off < size ∧ 0 < len ∧ off + len ≤ size ∧ pByte f.cmd 40 ≤ 1 ∧ ms ≤ 600000 ∧ pByte f.cmd 40 = 1 ∧ a.mirrored = true ∧ inStep v = true) | _ => false)) | _ => false),
    let id : Nat := 7; let t : Nat := 0; let s : State := fl on (.flush { deadline := 1 });
      let u := tick s t; (match inflight u id with | some f => (match f.job with | .flush j => decide (u.now < j.deadline) | _ => false) | _ => false)] : List Bool).all id = true := by decide +kernel

theorem witness_DripCommands_2 : ([
    let id : Nat := 7; let t : Nat := 0; let s : State := fl on (.flush { deadline := 0 });
      let u := tick s t; (match inflight u id with | some f => (match f.job with | .flush j => decide (j.deadline ≤ u.now) | _ => false) | _ => false)] : List Bool).all id = true := by decide +kernel

/-- Clause by clause, states and operands that meet the hypotheses of `Obligations.LimitRisesSlowlyAndFallsAtOnce`. -/
theorem witness_LimitRisesSlowlyAndFallsAtOnce : ([
    let t : Nat := 0; let s : State := on; let u := tick s t; decide ((u.d2d.gaugeDue = false ∨ u.d2d.up = false)),
    let t : Nat := 0; let s : State := { at_ .held with d2d := { on.d2d with gaugeDue := true } };
      let u := tick s t; decide (u.d2d.gaugeDue = true ∧ u.d2d.up = true ∧ serving u = false),
    let t : Nat := 0; let s : State := { on with d2d := { on.d2d with gaugeDue := true } };
      let u := tick s t; decide (u.d2d.gaugeDue = true ∧ u.d2d.up = true ∧ serving u = true),
    let s : State := { on with drp := { on.drp with limitSet := true } }; decide (s.drp.limitSet = true),
    let s : State := { on with drp := { on.drp with limitSet := true, limit := 2 ^ 40 } }; decide (s.drp.limitSet = true ∧ (limitFormula s).1 ≤ s.drp.limit),
    let s : State := on; decide (s.drp.limitSet = false),
    let s : State := { on with gau := { on.gau with eC := 10 ^ 6, eV := 10 ^ 6, kTemp := 100, kAge := 100 } }; decide (s.drp.harvestCap < min (max (65536 * rawNum s / rawDen s) (65536 * expMin s)) (65536 * expMax s))] : List Bool).all id = true := by decide +kernel

/-- Clause by clause, states and operands that meet the hypotheses of `Obligations.StagesRiseAtOnceAndFallSlowly`. -/
theorem witness_StagesRiseAtOnceAndFallSlowly : ([
    let t : Nat := 0; let s : State := at_ .off; let u := tick s t; decide (serving u = false),
    let t : Nat := 0; let s : State := on; let u := tick s t; decide (serving u = true),
    let s : State := { on with drp := { on.drp with held := [{ gate := true }] } };
      let w := { s with drp := { s.drp with thr1Since := if fillAtLeast s s.drp.policy.thr1 then some (s.drp.thr1Since.getD s.now) else none, thr2Since := if fillAtLeast s s.drp.policy.thr2 then some (s.drp.thr2Since.getD s.now) else none } };
      let k := 4; decide (k ≤ 4 ∧ s.drp.stage < k ∧ stageEnter w k = true),
    let s : State := { { on with drp := { on.drp with stage := 4, falseSince := some 0 } } with now := 1000000 }; decide ((evalStage s).drp.stage < s.drp.stage),
    let s : State := { on with drp := { on.drp with held := [{ gate := true }] } }; decide (s.drp.stage < (evalStage s).drp.stage)] : List Bool).all id = true := by decide +kernel

/-- Clause by clause, states and operands that meet the hypotheses of `Obligations.DripClocks`. -/
theorem witness_DripClocks : ([
    let t : Nat := 0; let s : State := at_ .off; let u := tick s t; decide (serving u = false),
    let free : Nat := 17; let t : Nat := 0; let s : State := on;
      let u := tick s t; decide (serving u = true) && (let p := takePolicy u; let bw := if freeSb p < 2 then 0 else min 0xFFFF free; let w := flushWork { p with ftl := { p.ftl with freeBw := bw } }; let bytes := min (bw * 1000) ((wearAllowance w).getD (bw * 1000)); let picks := ((roundOrder w).filter (ripe w)).take (min (bytes / 16384) (65536 - inFlightTable w)); decide (picks = [])),
    let free : Nat := 17; let t : Nat := 0;
      let s : State := { on with ftl := { on.ftl with sbs := [(0, {}), (1, {})] }, drp := { on.drp with gran := [(0, .dirty)], stage := 4, bucket := 20000 } };
      let u := tick s t; decide (serving u = true) && (let p := takePolicy u; let bw := if freeSb p < 2 then 0 else min 0xFFFF free; let w := flushWork { p with ftl := { p.ftl with freeBw := bw } }; let bytes := min (bw * 1000) ((wearAllowance w).getD (bw * 1000)); let picks := ((roundOrder w).filter (ripe w)).take (min (bytes / 16384) (65536 - inFlightTable w)); let g := 0; decide (picks.getLast? = some g)),
    let g : Nat := 0; let t : Nat := 0; let s : State := on; let u := tick s t; decide ((u.ldg.closed = true ∨ committable u g = none)),
    let g : Nat := 0; let t : Nat := 0; let s : State := { on with ftl := { on.ftl with progs := [{ gran := 0, seq := some 1 }] } };
      let u := tick s t; decide (u.ldg.closed = false) && ((committable u g).isSome),
    (tick on 0).now == 0,
    let t : Nat := 0; let s : State := at_ .off; let u := tick s t; decide (logicOn u = false),
    let t : Nat := 0; let s : State := on; let u := tick s t; decide (logicOn u = true),
    let t : Nat := 0; let s : State := on; let u := tick s t; decide ((u.drp.origin = none ∨ loopDue u true 1 60000000 600000000 = false)),
    let t : Nat := 0; let s : State := { on with drp := { on.drp with origin := some 0, bTotal := 0, spent := 1 } };
      let u := tick s t; (match u.drp.origin with | some o => decide (loopDue u true 1 60000000 600000000 = true) && (let v := loopRan u 1; let days := (opSecs v, v.drp.spent) :: v.drp.days.filter (fun p => opSecs v ≤ p.1 + 2592000); let need := meanRate v days * (631152000 - (opSecs v - o)); decide (u.drp.ahead = false ∧ u.drp.bTotal < u.drp.spent + need)) | _ => false),
    let t : Nat := 0; let s : State := { on with drp := { on.drp with origin := some 0, bTotal := 1, ahead := true } };
      let u := tick s t; (match u.drp.origin with | some o => decide (loopDue u true 1 60000000 600000000 = true) && (let v := loopRan u 1; let days := (opSecs v, v.drp.spent) :: v.drp.days.filter (fun p => opSecs v ≤ p.1 + 2592000); let need := meanRate v days * (631152000 - (opSecs v - o)); decide (u.drp.ahead = true ∧ 100 * need < 95 * (u.drp.bTotal - u.drp.spent))) | _ => false),
    let t : Nat := 0; let s : State := { on with drp := { on.drp with origin := some 0 } };
      let u := tick s t; (match u.drp.origin with | some o => decide (loopDue u true 1 60000000 600000000 = true) && (let v := loopRan u 1; let days := (opSecs v, v.drp.spent) :: v.drp.days.filter (fun p => opSecs v ≤ p.1 + 2592000); let need := meanRate v days * (631152000 - (opSecs v - o)); decide (((u.drp.ahead = true → 95 * (u.drp.bTotal - u.drp.spent) ≤ 100 * need)) ∧ ((u.drp.ahead = false → u.drp.spent + need ≤ u.drp.bTotal)))) | _ => false),
    let s : State := { on with drp := { on.drp with bucket := -1 } }; decide (s.drp.bucket < 0 ∧ s.drp.overdrawn = false),
    let s : State := { on with drp := { on.drp with overdrawn := true } }; decide (0 ≤ s.drp.bucket ∧ s.drp.overdrawn = true),
    let s : State := on; decide (s.drp.bucket < 0 ↔ s.drp.overdrawn = true)] : List Bool).all id = true := by decide +kernel

/-- Clause by clause, states and operands that meet the hypotheses of `Obligations.HarvestAndReplantRuns`. -/
theorem witness_HarvestAndReplantRuns_1 : ([
    let c : TrellisCmd := pk [(24, 1, 2)] [];
      let s : State := on; (match started 0x0203 c s with | some (_, f) => decide (1 < pByte f.cmd 24) | _ => false),
    let c : TrellisCmd := pk [] (le 0x1000 4);
      let s : State := on; (match started 0x0203 c s with | some (_, f) => let b := payIn f.cmd; decide (pByte f.cmd 24 = 0 ∧ (b.length % 4 ≠ 0 ∨ 4096 < (entries4 b).length ∨ (entries4 b).any (fun e => 0x0FFF < rd e 0 2 || 7 < rd e 2 1 || rd e 3 1 != 0) = true)) | _ => false),
    let c : TrellisCmd := pk [] (le 0x70FFF 4);
      let s : State := on; (match started 0x0203 c s with | some (_, f) => let b := payIn f.cmd; decide (pByte f.cmd 24 = 0 ∧ (¬ (b.length % 4 ≠ 0 ∨ 4096 < (entries4 b).length ∨ (entries4 b).any (fun e => 0x0FFF < rd e 0 2 || 7 < rd e 2 1 || rd e 3 1 != 0) = true))) | _ => false),
    let c : TrellisCmd := pk [(24, 1, 1)] (zeros 4);
      let s : State := on; (match started 0x0203 c s with | some (_, f) => let b := payIn f.cmd; decide (pByte f.cmd 24 = 1 ∧ b ≠ []) | _ => false),
    let c : TrellisCmd := pk [(24, 1, 1)] [];
      let s : State := on; (match started 0x0203 c s with | some (_, f) => let b := payIn f.cmd; decide (pByte f.cmd 24 = 1 ∧ b = []) | _ => false),
    let c : TrellisCmd := pk [(24, 1, 2)] [];
      let s : State := on; (match started 0x0205 c s with | some (_, f) => let act := pByte f.cmd 24; decide (1 < act) | _ => false),
    let c : TrellisCmd := hk [];
      let s : State := own (host on) 7 1; (match started 0x0205 c s with | some (_, f) => let act := pByte f.cmd 24; decide (act = 0 ∧ issClass f.cmd.est = 0) | _ => false),
    let c : TrellisCmd := pk [] (le 0x1000 4);
      let s : State := on; (match started 0x0205 c s with | some (_, f) => let b := payIn f.cmd; let act := pByte f.cmd 24; decide (act = 0 ∧ issClass f.cmd.est ≠ 0 ∧ (b.length % 4 ≠ 0 ∨ 4096 < (entries4 b).length ∨ (entries4 b).any (fun e => 0x0FFF < rd e 0 2 || rd e 3 1 != 0) = true)) | _ => false),
    let c : TrellisCmd := pk [] (le 0x0FFF 4);
      let s : State := on; (match started 0x0205 c s with | some (_, f) => let b := payIn f.cmd; let act := pByte f.cmd 24; decide (act = 0 ∧ issClass f.cmd.est ≠ 0 ∧ (¬ (b.length % 4 ≠ 0 ∨ 4096 < (entries4 b).length ∨ (entries4 b).any (fun e => 0x0FFF < rd e 0 2 || rd e 3 1 != 0) = true))) | _ => false),
    let c : TrellisCmd := pk [(24, 1, 1)] [];
      let s : State := on; (match started 0x0205 c s with | some (v, f) => let act := pByte f.cmd 24; decide (act = 1 ∧ owns v f.cmd.est 7 = false) | _ => false),
    let c : TrellisCmd := pk [(24, 1, 1)] [];
      let s : State := own on 7 0x2000; (match started 0x0205 c s with | some (v, f) => let act := pByte f.cmd 24; decide (act = 1 ∧ owns v f.cmd.est 7 = true ∧ v.hrv.replant = false) | _ => false),
    let c : TrellisCmd := pk [(24, 1, 1)] (le 1 4 ++ le 16383 4 ++ le 2 8);
      let s : State := (own (alT { on with hrv := { on.hrv with replant := true } } 1 { extents := [0] }) 7 0x2000); (match started 0x0205 c s with | some (v, f) => let b := payIn f.cmd; let act := pByte f.cmd 24; decide (act = 1 ∧ owns v f.cmd.est 7 = true ∧ v.hrv.replant = true ∧ (b.length % 16 ≠ 0 ∨ 1024 < (entries16 b).length ∨ (entries16 b).all (rangeOk v) = false)) | _ => false),
    let c : TrellisCmd := pk [(24, 1, 1)] (le 1 4 ++ le 16383 4 ++ le 1 8);
      let s : State := (own (alT { on with hrv := { on.hrv with replant := true, todo := [0], ranges := List.replicate 4096 (1, 0, 1) } } 1 { extents := [0] }) 7 0x2000); (match started 0x0205 c s with | some (v, f) => let b := payIn f.cmd; let act := pByte f.cmd 24; decide (act = 1 ∧ owns v f.cmd.est 7 = true ∧ v.hrv.replant = true ∧ (¬ (b.length % 16 ≠ 0 ∨ 1024 < (entries16 b).length ∨ (entries16 b).all (rangeOk v) = false))) && (let left := v.hrv.ranges.filter (rangeLeft v); decide (4096 < left.length + (entries16 b).length)) | _ => false),
    let c : TrellisCmd := pk [(24, 1, 1)] (le 1 4 ++ le 16383 4 ++ le 1 8);
      let s : State := (own (alT { on with hrv := { on.hrv with replant := true } } 1 { extents := [0] }) 7 0x2000); (match started 0x0205 c s with | some (v, f) => let b := payIn f.cmd; let act := pByte f.cmd 24; decide (act = 1 ∧ owns v f.cmd.est 7 = true ∧ v.hrv.replant = true ∧ (¬ (b.length % 16 ≠ 0 ∨ 1024 < (entries16 b).length ∨ (entries16 b).all (rangeOk v) = false))) && (let left := v.hrv.ranges.filter (rangeLeft v); decide (left.length + (entries16 b).length ≤ 4096)) | _ => false),
    let c : TrellisCmd := pk [] [];
      let s : State := at_ .replanting; (match started 0x0204 c s with | some (v, _) => decide (v.dev.state ≠ .serving ∧ v.dev.state ≠ .degraded) | _ => false),
    let c : TrellisCmd := pk [] [];
      let s : State := { on with hrv := { on.hrv with save := some {} } }; (match started 0x0204 c s with | some (v, _) => decide ((v.dev.state = .serving ∨ v.dev.state = .degraded) ∧ v.hrv.save ≠ none) | _ => false),
    let c : TrellisCmd := pk [] [];
      let s : State := { (alT on 1 { extents := [0, 1], maxExtents := 4 }) with drp := { on.drp with gran := [(0, .dirty)] } }; (match started 0x0204 c s with | some (v, _) => decide ((v.dev.state = .serving ∨ v.dev.state = .degraded) ∧ v.hrv.save = none ∧ saveRoom v < (saveSet v).length) | _ => false),
    let c : TrellisCmd := pk [] [];
      let s : State := on; (match started 0x0204 c s with | some (v, _) => decide ((v.dev.state = .serving ∨ v.dev.state = .degraded) ∧ v.hrv.save = none ∧ (saveSet v).length ≤ saveRoom v) | _ => false),
    let g : Nat := 0; let t : Nat := 0; let s : State := on;
      let u := tick s t; decide (u.hrv.fetches.find? (fun f => f.gran == g && f.running) = none),
    let g : Nat := 0; let t : Nat := 0;
      let s : State := { on with hrv := { on.hrv with fetches := [{ running := true }] }, tin := { on.tin with heldC := [{ typ := 3, c := 1 }] } };
      let u := tick s t; (match u.hrv.fetches.find? (fun f => f.gran == g && f.running) with | some _ => decide (cuttingOut u (fun c => c.typ == 3 && c.b == g && c.c == 1) = true) | _ => false)] : List Bool).all id = true := by decide +kernel

theorem witness_HarvestAndReplantRuns_2 : ([
    let g : Nat := 0; let t : Nat := 0; let s : State := { on with hrv := { on.hrv with fetches := [{ running := true }] } };
      let u := tick s t; (match u.hrv.fetches.find? (fun f => f.gran == g && f.running) with | some _ => decide (cuttingOut u (fun c => c.typ == 3 && c.b == g && c.c == 1) = false) | _ => false),
    let k : Nat := 0; let t : Nat := 0; let s : State := on; let u := tick s t; decide (u.hrv.cuts[k]? = none),
    let k : Nat := 0; let t : Nat := 0; let s : State := { on with hrv := { on.hrv with cuts := [(1, [])] } }; let u := tick s t;
      let n := 1; (match u.hrv.cuts[k]? with | some (z0, cut) => decide (z0 = n ∧ (u.hrv.replant = false ∨ serving u = false ∨ cuttingOut u (fun c => c.n == n) = true ∨ (u.hrv.warm = false ∧ behindFetch u cut = true))) | _ => false),
    let k : Nat := 0; let t : Nat := 0; let s : State := { on with hrv := { on.hrv with cuts := [(1, [])], replant := true, warm := true } };
      let u := tick s t;
      let n := 1; (match u.hrv.cuts[k]? with | some (z0, _) => decide (z0 = n ∧ u.hrv.replant = true ∧ serving u = true ∧ cuttingOut u (fun c => c.n == n) = false ∧ u.hrv.warm = true) | _ => false),
    let k : Nat := 0; let t : Nat := 0; let s : State := { on with hrv := { on.hrv with cuts := [(1, [])], replant := true } }; let u := tick s t;
      let n := 1; (match u.hrv.cuts[k]? with | some (z0, cut) => decide (z0 = n ∧ u.hrv.replant = true ∧ serving u = true ∧ cuttingOut u (fun c => c.n == n) = false ∧ u.hrv.warm = false ∧ behindFetch u cut = false) | _ => false),
    let t : Nat := 0; let s : State := on; let u := tick s t; decide ((u.hrv.warm = false ∨ u.hrv.replant = false ∨ u.hrv.todo ≠ [])),
    let t : Nat := 0; let s : State := { on with hrv := { on.hrv with replant := true, warm := true } };
      let u := tick s t; decide (u.hrv.warm = true ∧ u.hrv.replant = true ∧ u.hrv.todo = []),
    let t : Nat := 0; let s : State := on; let u := tick s t; decide ((u.dev.state ≠ .harvesting ∨ u.hrv.run = none)),
    let n : Nat := 1; let t : Nat := 0; let s : State := { at_ .harvesting with hrv := { on.hrv with run := some { } } };
      let u := tick s t; decide (u.dev.state = .harvesting) && ((match u.hrv.run with | some r => decide (r.issued.find? (fun x => x.n == n) = none) | _ => false)),
    let n : Nat := 1; let t : Nat := 0;
      let s : State := { at_ .harvesting with hrv := { on.hrv with run := some { issued := [{ n := 1 }] } }, tin := { on.tin with heldC := [{ typ := 2, b := 1 }] } };
      let u := tick s t; decide (u.dev.state = .harvesting) && ((match u.hrv.run with | some r => (match r.issued.find? (fun x => x.n == n) with | some st => decide ((stripeReading u n = true ∨ stripeRead u st = false)) | _ => false) | _ => false)),
    let n : Nat := 1; let t : Nat := 0; let s : State := { at_ .harvesting with hrv := { on.hrv with run := some { issued := [{ n := 1 }] } } };
      let u := tick s t; decide (u.dev.state = .harvesting) && ((match u.hrv.run with | some r => (match r.issued.find? (fun x => x.n == n) with | some st => decide (stripeReading u n = false ∧ stripeRead u st = true) | _ => false) | _ => false)),
    let t : Nat := 0; let s : State := on; let u := tick s t; decide ((u.dev.state ≠ .harvesting ∨ u.hrv.run = none)),
    let t : Nat := 0; let s : State := { at_ .harvesting with hrv := { on.hrv with run := some { phase := 3 } } };
      let u := tick s t; decide (u.dev.state = .harvesting) && ((match u.hrv.run with | some r => decide (r.phase ≠ 4) | _ => false)),
    let t : Nat := 0; let s : State := { at_ .harvesting with hrv := { on.hrv with run := some { phase := 4 } } };
      let u := tick s t; decide (u.dev.state = .harvesting) && ((match u.hrv.run with | some r => decide (r.phase = 4) | _ => false)),
    ((placeSeal on {} none).hrv.seals.head?.isSome)] : List Bool).all id = true := by decide +kernel

/-- Clause by clause, states and operands that meet the hypotheses of `Obligations.MailboxCommandsActWhereTheMailboxIs`. -/
theorem witness_MailboxCommandsActWhereTheMailboxIs : ([
    let m : MboxReq := ({ port := 1 } : MboxReq); let t : Nat := 0; let s : State := on; let u := tick s t; decide (mboxHere u m = false),
    let m : MboxReq := ({} : MboxReq); let t : Nat := 0; let s : State := on;
      let u := tick s t; decide (mboxHere u m = true ∧ m.issuer ≠ 0x1000 + m.port),
    let m : MboxReq := ({} : MboxReq); let t : Nat := 0; let s : State := on; let u := tick s t; decide (mboxHere u m = true)] : List Bool).all id = true := by decide +kernel

/-- Clause by clause, states and operands that meet the hypotheses of `Obligations.MailboxKeepsWhatIsSet`. -/
theorem witness_MailboxKeepsWhatIsSet : ([
    let m : MboxReq := ({} : MboxReq); let t : Nat := 0; let s : State := on; let u := tick s t; decide (mboxHere u m = true),
    let m : MboxReq := ({ input := zeros 4 } : MboxReq); let t : Nat := 0; let s : State := on;
      let u := tick s t; decide (mboxHere u m = true ∧ (m.input.length = 4 ∨ m.input.length = 5)),
    let m : MboxReq := ({} : MboxReq); let t : Nat := 0; let s : State := on;
      let u := tick s t; decide (mboxHere u m = true ∧ m.input.length ≠ 4 ∧ m.input.length ≠ 5),
    let m : MboxReq := ({} : MboxReq); let t : Nat := 0; let s : State := on;
      let u := tick s t; decide (mboxHere u m = true ∧ (mboxOf u m).timestamp = 0#64),
    let m : MboxReq := ({} : MboxReq); let t : Nat := 0; let s : State := { on with cxl := { on.cxl with mboxes := [(0, { timestamp := 1#64 })] } };
      let u := tick s t; decide (mboxHere u m = true ∧ (mboxOf u m).timestamp ≠ 0#64),
    let m : MboxReq := ({ input := zeros 8 } : MboxReq); let t : Nat := 0; let s : State := on;
      let u := tick s t; decide (mboxHere u m = true ∧ m.input.length = 8),
    let m : MboxReq := ({ input := zeros 7 } : MboxReq); let t : Nat := 0; let s : State := on;
      let u := tick s t; decide (mboxHere u m = true ∧ m.input.length ≠ 8),
    let m : MboxReq := ({ input := zeros 12 } : MboxReq); let t : Nat := 0; let s : State := on;
      let u := tick s t; decide (mboxHere u m = true ∧ m.input.length = 12),
    let m : MboxReq := ({ input := zeros 11 } : MboxReq); let t : Nat := 0; let s : State := on;
      let u := tick s t; decide (mboxHere u m = true ∧ m.input.length ≠ 12),
    let m : MboxReq := ({ input := [5#8] } : MboxReq); let t : Nat := 0; let s : State := on;
      let u := tick s t; decide (mboxHere u m = true) && (let b := 5#8; decide (m.input = [b])),
    let m : MboxReq := ({} : MboxReq); let t : Nat := 0; let s : State := on; let u := tick s t; decide (mboxHere u m = true ∧ m.input.length ≠ 1)] : List Bool).all id = true := by decide +kernel

/-- Clause by clause, states and operands that meet the hypotheses of `Obligations.EventRecordsAndPoison`. -/
theorem witness_EventRecordsAndPoison : ([
    let m : MboxReq := ({} : MboxReq); let t : Nat := 0; let s : State := on; let u := tick s t; decide (mboxHere u m = true ∧ m.input.length ≠ 1),
    let m : MboxReq := ({ input := [5#8] } : MboxReq); let t : Nat := 0; let s : State := on;
      let u := tick s t; decide (mboxHere u m = true) && (let lg := rd m.input 0 1; decide (m.input.length = 1 ∧ 4 < lg)),
    let m : MboxReq := ({ input := [4#8] } : MboxReq); let t : Nat := 0; let s : State := on;
      let u := tick s t; decide (mboxHere u m = true) && (let lg := rd m.input 0 1; decide (m.input.length = 1 ∧ lg ≤ 4)),
    let m : MboxReq := ({ input := zeros 5 } : MboxReq); let t : Nat := 0; let s : State := on;
      let u := tick s t; decide (mboxHere u m = true ∧ (m.input.length < 6 ∨ (rd m.input 1 1 % 2 = 0 ∧ m.input.length ≠ 6 + 2 * rd m.input 2 1))),
    let m : MboxReq := ({ input := [5#8, 0#8, 0#8, 0#8, 0#8, 0#8] } : MboxReq); let t : Nat := 0; let s : State := on;
      let u := tick s t; decide (mboxHere u m = true) && (let lg := rd m.input 0 1; decide (6 ≤ m.input.length ∧ ((rd m.input 1 1 % 2 = 0 → m.input.length = 6 + 2 * rd m.input 2 1)) ∧ 4 < lg)),
    let m : MboxReq := ({ input := [4#8, 1#8, 0#8, 0#8, 0#8, 0#8] } : MboxReq); let t : Nat := 0; let s : State := on;
      let u := tick s t; decide (mboxHere u m = true) && (let lg := rd m.input 0 1; decide (6 ≤ m.input.length ∧ ((rd m.input 1 1 % 2 = 0 → m.input.length = 6 + 2 * rd m.input 2 1)) ∧ lg ≤ 4 ∧ rd m.input 1 1 % 2 = 1)),
    let m : MboxReq := ({ input := [4#8, 0#8, 1#8, 0#8, 0#8, 0#8, 1#8, 0#8] } : MboxReq); let t : Nat := 0;
      let s : State := { on with cxl := { on.cxl with mboxes := [(0, { events := [{ handle := 1, log := 4 }] })] } };
      let u := tick s t; decide (mboxHere u m = true) && (let lg := rd m.input 0 1; let logged := (mboxOf u m).events.filter (fun e => e.log == lg); decide (6 ≤ m.input.length ∧ ((rd m.input 1 1 % 2 = 0 → m.input.length = 6 + 2 * rd m.input 2 1)) ∧ lg ≤ 4 ∧ rd m.input 1 1 % 2 = 0) && (let hs := (List.range (rd m.input 2 1)).map (fun i => rd m.input (6 + 2 * i) 2); let old := (logged.take (rd m.input 2 1)).map (·.handle); decide ((hs.all old.contains && old.all hs.contains && old.length == rd m.input 2 1) = true))),
    let m : MboxReq := ({ input := [4#8, 0#8, 1#8, 0#8, 0#8, 0#8, 2#8, 0#8] } : MboxReq); let t : Nat := 0;
      let s : State := { on with cxl := { on.cxl with mboxes := [(0, { events := [{ handle := 1, log := 4 }] })] } };
      let u := tick s t; decide (mboxHere u m = true) && (let lg := rd m.input 0 1; let logged := (mboxOf u m).events.filter (fun e => e.log == lg); decide (6 ≤ m.input.length ∧ ((rd m.input 1 1 % 2 = 0 → m.input.length = 6 + 2 * rd m.input 2 1)) ∧ lg ≤ 4 ∧ rd m.input 1 1 % 2 = 0) && (let hs := (List.range (rd m.input 2 1)).map (fun i => rd m.input (6 + 2 * i) 2); let old := (logged.take (rd m.input 2 1)).map (·.handle); decide ((hs.all old.contains && old.all hs.contains && old.length == rd m.input 2 1) = false))),
    let m : MboxReq := ({} : MboxReq); let t : Nat := 0; let s : State := on; let u := tick s t; decide (mboxHere u m = true ∧ m.input.length ≠ 16),
    let m : MboxReq := ({ input := zeros 16 } : MboxReq); let t : Nat := 0; let s : State := on;
      let u := tick s t; decide (mboxHere u m = true ∧ m.input.length = 16),
    let m : MboxReq := ({} : MboxReq); let t : Nat := 0; let s : State := on; let u := tick s t; decide (mboxHere u m = true ∧ m.input.length ≠ 8),
    let m : MboxReq := ({} : MboxReq); let t : Nat := 0; let s : State := on; let u := tick s t; decide (mboxHere u m = true ∧ m.input.length ≠ 72),
    let m : MboxReq := ({ input := zeros 8 } : MboxReq); let t : Nat := 0; let s : State := on;
      let u := tick s t; decide (mboxHere u m = true) && (let inj : MemReq := { port := m.port, issuer := m.issuer, dpa := rd m.input 0 8, data := zeros 64, enables := BitVec.ofNat 64 (2 ^ 64 - 1), poison := true }; decide (m.input.length = 8) && ((match classify u inj false with | .error _ => true | _ => false))),
    let m : MboxReq := ({ input := zeros 8 } : MboxReq); let t : Nat := 0;
      let s : State := (alT on 1 { extents := [0], serving := true, bindings := [{ issuer := 0#16, rw := true, accepted := [0] }] });
      let u := tick s t; decide (mboxHere u m = true) && (let inj : MemReq := { port := m.port, issuer := m.issuer, dpa := rd m.input 0 8, data := zeros 64, enables := BitVec.ofNat 64 (2 ^ 64 - 1), poison := true }; decide (m.input.length = 8) && ((match classify u inj false with | .ok _ => true | _ => false))),
    let m : MboxReq := ({ input := zeros 72 } : MboxReq); let t : Nat := 0; let s : State := on;
      let u := tick s t; decide (mboxHere u m = true) && (let inj : MemReq := { port := m.port, issuer := m.issuer, dpa := rd m.input 0 8, data := zeros 64, enables := BitVec.ofNat 64 (2 ^ 64 - 1), poison := true }; let clr : MemReq := { inj with data := m.input.drop 8, poison := false }; decide (m.input.length = 72) && ((match classify u clr false with | .error _ => true | _ => false))),
    let m : MboxReq := ({ input := zeros 72 } : MboxReq); let t : Nat := 0;
      let s : State := (alT on 1 { extents := [0], serving := true, bindings := [{ issuer := 0#16, rw := true, accepted := [0] }] });
      let u := tick s t; decide (mboxHere u m = true) && (let inj : MemReq := { port := m.port, issuer := m.issuer, dpa := rd m.input 0 8, data := zeros 64, enables := BitVec.ofNat 64 (2 ^ 64 - 1), poison := true }; let clr : MemReq := { inj with data := m.input.drop 8, poison := false }; decide (m.input.length = 72) && ((match classify u clr false with | .ok _ => true | _ => false)))] : List Bool).all id = true := by decide +kernel

/-- Clause by clause, states and operands that meet the hypotheses of `Obligations.DynamicCapacityCommands`. -/
theorem witness_DynamicCapacityCommands : ([
    let m : MboxReq := ({} : MboxReq); let t : Nat := 0; let s : State := on; let u := tick s t; decide (mboxHere u m = true ∧ m.input.length ≠ 2),
    let m : MboxReq := ({ input := [0#8, 1#8] } : MboxReq); let t : Nat := 0; let s : State := on;
      let u := tick s t; decide (mboxHere u m = true ∧ m.input.length = 2 ∧ rd m.input 1 1 ≠ 0),
    let m : MboxReq := ({ input := [0#8, 0#8] } : MboxReq); let t : Nat := 0; let s : State := on;
      let u := tick s t; decide (mboxHere u m = true ∧ m.input.length = 2 ∧ rd m.input 1 1 = 0 ∧ rd m.input 0 1 = 0),
    let m : MboxReq := ({ input := [1#8, 0#8] } : MboxReq); let t : Nat := 0; let s : State := on;
      let u := tick s t; decide (mboxHere u m = true ∧ m.input.length = 2 ∧ rd m.input 1 1 = 0 ∧ 0 < rd m.input 0 1),
    let m : MboxReq := ({} : MboxReq); let t : Nat := 0; let s : State := on; let u := tick s t; decide (mboxHere u m = true ∧ m.input.length ≠ 8),
    let m : MboxReq := ({ input := zeros 8 } : MboxReq); let t : Nat := 0; let s : State := on;
      let u := tick s t; decide (mboxHere u m = true ∧ m.input.length = 8),
    let m : MboxReq := ({} : MboxReq); let t : Nat := 0; let s : State := on; let u := tick s t; decide (mboxHere u m = true ∧ dcList m.input = none),
    let m : MboxReq := ({ input := (le 1 8 ++ le 0 8 ++ le (2 ^ 28) 16) } : MboxReq); let t : Nat := 0;
      let s : State := (alT on 1 { extents := [0], serving := true, bindings := [{ issuer := 0#16, rw := true, accepted := [0] }] });
      let u := tick s t; decide (mboxHere u m = true) && ((match dcList m.input with | some l => let named := l.map (dcNames u m.issuer); let offered := named.all (fun x => match x with | some (id, _) => ((allotOf u id).map (offering u)).getD false | none => false); decide (offered = true) | _ => false)),
    let m : MboxReq := ({ input := (le 1 8 ++ le 0 8 ++ le (2 ^ 28) 16) } : MboxReq); let t : Nat := 0; let s : State := on;
      let u := tick s t; decide (mboxHere u m = true) && ((match dcList m.input with | some l => let named := l.map (dcNames u m.issuer); let offered := named.all (fun x => match x with | some (id, _) => ((allotOf u id).map (offering u)).getD false | none => false); decide (offered = false) | _ => false)),
    let m : MboxReq := ({ input := (le 1 8 ++ le 0 8 ++ le (2 ^ 28) 16) } : MboxReq); let t : Nat := 0;
      let s : State := (alT on 1 { extents := [0], serving := true, bindings := [{ issuer := 0#16, rw := true, accepted := [0] }] });
      let u := tick s t; decide (mboxHere u m = true) && ((match dcList m.input with | some l => let named := l.map (dcNames u m.issuer); let holds := named.all (fun x => match x with | some (id, ks) => holdsAll u m.issuer id ks | none => false); decide (holds = true) | _ => false)),
    let m : MboxReq := ({ input := (le 1 8 ++ le 0 8 ++ le (2 ^ 28) 16) } : MboxReq); let t : Nat := 0; let s : State := on;
      let u := tick s t; decide (mboxHere u m = true) && ((match dcList m.input with | some l => let named := l.map (dcNames u m.issuer); let holds := named.all (fun x => match x with | some (id, ks) => holdsAll u m.issuer id ks | none => false); decide (holds = false) | _ => false))] : List Bool).all id = true := by decide +kernel

/-- Clause by clause, states and operands that meet the hypotheses of `Obligations.FabricManagerCommands`. -/
theorem witness_FabricManagerCommands : ([
    let m : MboxReq := ({ issuer := 0x1000, input := [] } : MboxReq); let t : Nat := 0;
      let s : State := { on with cxl := { on.cxl with ports := [(0, { link := 2, mode := 2 })] } };
      let u := tick s t; decide (mboxHere u m = true ∧ m.issuer = 0x1000 + m.port),
    let m : MboxReq := ({ issuer := 0x1000, input := [] } : MboxReq); let t : Nat := 0;
      let s : State := { on with cxl := { on.cxl with ports := [(0, { link := 2, mode := 2 })] } };
      let u := tick s t; decide (mboxHere u m = true ∧ m.issuer = 0x1000 + m.port ∧ m.input.length ≠ 2),
    let m : MboxReq := ({ issuer := 0x1000, input := [1#8, 0#8] } : MboxReq); let t : Nat := 0;
      let s : State := { on with cxl := { on.cxl with ports := [(0, { link := 2, mode := 2 })] } };
      let u := tick s t; decide (mboxHere u m = true ∧ m.issuer = 0x1000 + m.port) && (let n := if (port u m.port).mode = 1 then 16 else 1; decide (m.input.length = 2 ∧ n ≤ rd m.input 0 1)),
    let m : MboxReq := ({ issuer := 0x1000, input := [15#8, 1#8] } : MboxReq); let t : Nat := 0;
      let s : State := { on with cxl := { on.cxl with ports := [(0, { link := 2, mode := 1 })] } };
      let u := tick s t; decide (mboxHere u m = true ∧ m.issuer = 0x1000 + m.port) && (let n := if (port u m.port).mode = 1 then 16 else 1; decide (m.input.length = 2 ∧ rd m.input 0 1 < n)),
    let m : MboxReq := ({ issuer := 0x1000, input := zeros 5 } : MboxReq); let t : Nat := 0;
      let s : State := { on with cxl := { on.cxl with ports := [(0, { link := 2, mode := 2 })] } };
      let u := tick s t; decide (mboxHere u m = true ∧ m.issuer = 0x1000 + m.port ∧ m.input.length ≠ 4 + 16 * rd m.input 0 1),
    let m : MboxReq := ({ issuer := 0x1000, input := [0#8, 2#8, 0#8, 0#8] } : MboxReq); let t : Nat := 0;
      let s : State := { on with cxl := { on.cxl with ports := [(0, { link := 2, mode := 2 })] } };
      let u := tick s t; decide (mboxHere u m = true ∧ m.issuer = 0x1000 + m.port) && (let n := if (port u m.port).mode = 1 then 16 else 1; decide (m.input.length = 4 + 16 * rd m.input 0 1 ∧ (n < rd m.input 1 1 + rd m.input 0 1 ∨ allZero (m.input.drop 4) = false))),
    let m : MboxReq := ({ issuer := 0x1000, input := [1#8, 0#8, 0#8, 0#8] ++ zeros 16 } : MboxReq); let t : Nat := 0;
      let s : State := { on with cxl := { on.cxl with ports := [(0, { link := 2, mode := 2 })] } };
      let u := tick s t; decide (mboxHere u m = true ∧ m.issuer = 0x1000 + m.port) && (let n := if (port u m.port).mode = 1 then 16 else 1; decide (m.input.length = 4 + 16 * rd m.input 0 1 ∧ rd m.input 1 1 + rd m.input 0 1 ≤ n ∧ allZero (m.input.drop 4) = true)),
    let m : MboxReq := ({ issuer := 0x1000, input := zeros 7 } : MboxReq); let t : Nat := 0;
      let s : State := { on with cxl := { on.cxl with ports := [(0, { link := 2, mode := 2 })] } };
      let u := tick s t; decide (mboxHere u m = true ∧ m.issuer = 0x1000 + m.port ∧ m.input.length = 7),
    let m : MboxReq := ({ issuer := 0x1000, input := zeros 6 } : MboxReq); let t : Nat := 0;
      let s : State := { on with cxl := { on.cxl with ports := [(0, { link := 2, mode := 2 })] } };
      let u := tick s t; decide (mboxHere u m = true ∧ m.issuer = 0x1000 + m.port ∧ m.input.length ≠ 7),
    let m : MboxReq := ({ issuer := 0x1000, input := [1#8, 1#8] } : MboxReq); let t : Nat := 0;
      let s : State := { on with cxl := { on.cxl with ports := [(0, { link := 2, mode := 2 })] } };
      let u := tick s t; decide (mboxHere u m = true ∧ m.issuer = 0x1000 + m.port) && (let n := if (port u m.port).mode = 1 then 16 else 1; decide (m.input.length = 2 ∧ n < rd m.input 1 1 + rd m.input 0 1)),
    let m : MboxReq := ({ issuer := 0x1000, input := [1#8, 0#8] } : MboxReq); let t : Nat := 0;
      let s : State := { on with cxl := { on.cxl with ports := [(0, { link := 2, mode := 2 })] } };
      let u := tick s t; decide (mboxHere u m = true ∧ m.issuer = 0x1000 + m.port) && (let n := if (port u m.port).mode = 1 then 16 else 1; decide (m.input.length = 2 ∧ rd m.input 1 1 + rd m.input 0 1 ≤ n)),
    let m : MboxReq := ({ issuer := 0x1000, input := [1#8, 0#8] } : MboxReq); let t : Nat := 0;
      let s : State := { on with cxl := { on.cxl with ports := [(0, { link := 2, mode := 2 })] } };
      let u := tick s t; decide (mboxHere u m = true ∧ m.issuer = 0x1000 + m.port ∧ m.input.length ≠ 2 + rd m.input 0 1),
    let m : MboxReq := ({ issuer := 0x1000, input := [1#8, 1#8, 5#8] } : MboxReq); let t : Nat := 0;
      let s : State := { on with cxl := { on.cxl with ports := [(0, { link := 2, mode := 2 })] } };
      let u := tick s t; decide (mboxHere u m = true ∧ m.issuer = 0x1000 + m.port) && (let n := if (port u m.port).mode = 1 then 16 else 1; decide (m.input.length = 2 + rd m.input 0 1 ∧ n < rd m.input 1 1 + rd m.input 0 1)),
    let m : MboxReq := ({ issuer := 0x1000, input := [1#8, 0#8, 5#8] } : MboxReq); let t : Nat := 0;
      let s : State := { on with cxl := { on.cxl with ports := [(0, { link := 2, mode := 2 })] } };
      let u := tick s t; decide (mboxHere u m = true ∧ m.issuer = 0x1000 + m.port) && (let n := if (port u m.port).mode = 1 then 16 else 1; decide (m.input.length = 2 + rd m.input 0 1 ∧ rd m.input 1 1 + rd m.input 0 1 ≤ n))] : List Bool).all id = true := by decide +kernel

/-- Clause by clause, states and operands that meet the hypotheses of `Obligations.CarriersAndMctpControl`. -/
theorem witness_CarriersAndMctpControl : ([
    let h : MctpHead := ({} : MctpHead); let t : Nat := 0; let s : State := at_ .off;
      let u := tick s t; decide ((u.dev.state = .off ∨ mctpUp u = false ∨ twiAnswers u h.addr = false)),
    let h : MctpHead := ({} : MctpHead); let eid : Nat := 255; let t : Nat := 0; let s : State := on;
      let u := tick s t; decide (u.dev.state ≠ .off ∧ mctpUp u = true ∧ twiAnswers u h.addr = true ∧ (eid % 256 = 0 ∨ eid % 256 = 255)),
    let h : MctpHead := ({} : MctpHead); let eid : Nat := 254; let t : Nat := 0; let s : State := on;
      let u := tick s t; decide (u.dev.state ≠ .off ∧ mctpUp u = true ∧ twiAnswers u h.addr = true ∧ eid % 256 ≠ 0 ∧ eid % 256 ≠ 255),
    let h : MctpHead := ({} : MctpHead); let t : Nat := 0; let s : State := on;
      let u := tick s t; decide (u.dev.state ≠ .off ∧ mctpUp u = true ∧ twiAnswers u h.addr = true),
    let h : MctpHead := ({} : MctpHead); let typ : Nat := 0x7F; let t : Nat := 0; let s : State := on;
      let u := tick s t; decide (u.dev.state ≠ .off ∧ mctpUp u = true ∧ twiAnswers u h.addr = true ∧ (typ = 0xFF ∨ typ = 0x00 ∨ typ = 0x7F)),
    let h : MctpHead := ({} : MctpHead); let typ : Nat := 1; let t : Nat := 0; let s : State := on;
      let u := tick s t; decide (u.dev.state ≠ .off ∧ mctpUp u = true ∧ twiAnswers u h.addr = true ∧ typ ≠ 0xFF ∧ typ ≠ 0x00 ∧ typ ≠ 0x7F),
    let data : List Byte := [0x7F#8, 0x71#8, 0x4A#8, 0x03#8, 0x00#8, 0x01#8] ++ zeros 63; decide ((data.take 6 ≠ [0x7F#8, 0x71#8, 0x4A#8, 0x03#8, 0x00#8, 0x01#8] ∨ data.length < 70 ∨ 70 + 1024 < data.length)),
    let data : List Byte := [0x7F#8, 0x71#8, 0x4A#8, 0x03#8, 0x00#8, 0x01#8] ++ zeros 64; decide (data.take 6 = [0x7F#8, 0x71#8, 0x4A#8, 0x03#8, 0x00#8, 0x01#8] ∧ 70 ≤ data.length ∧ data.length ≤ 70 + 1024),
    let op : Nat := 0; let m : MboxReq := ({ port := 1 } : MboxReq); let t : Nat := 0; let s : State := on;
      let u := tick s t; decide ((mboxHere u m = false ∨ op ∈ mailboxOps)),
    let op : Nat := 0; let m : MboxReq := ({} : MboxReq); let t : Nat := 0; let s : State := on;
      let u := tick s t; decide (mboxHere u m = true ∧ op ∉ mailboxOps ∧ op ≠ 0xC710),
    let m : MboxReq := ({} : MboxReq); let t : Nat := 0; let s : State := on;
      let u := tick s t; decide (mboxHere u m = true ∧ (m.input.length < 64 ∨ m.input.length ≠ 64 + rd m.input 12 4)),
    let m : MboxReq := ({ input := zeros 64 } : MboxReq); let t : Nat := 0; let s : State := on;
      let u := tick s t; decide (mboxHere u m = true ∧ 64 ≤ m.input.length ∧ m.input.length = 64 + rd m.input 12 4),
    let t : Nat := 0; let s : State := on; let u := tick s t; decide (nextRing u = none),
    (let s := (setQp on 0 { st := .active, enable := true, sqTail := 1 }); (nextRing (tick s 0)).isSome),
    (let s := (setQp on 0 { st := .active, enable := true, sqTail := 1 }); (nextRing (tick s 0)).isSome),
    let n : Nat := 0; let t : Nat := 0; let s : State := on; let u := tick s t; decide ((qp u n).owed = []),
    let n : Nat := 0; let t : Nat := 0; let s : State := (setQp on 0 { owed := [{}] });
      let u := tick s t; (match (qp u n).owed with | _ :: _ => decide ((qp u n).st ≠ .active ∧ (qp u n).st ≠ .disabling) | _ => false),
    let n : Nat := 0; let ok : Bool := false; let t : Nat := 0; let s : State := (setQp on 0 { owed := [{}], st := .active });
      let u := tick s t; (match (qp u n).owed with | _ :: _ => decide (((qp u n).st = .active ∨ (qp u n).st = .disabling) ∧ ok = false) | _ => false),
    let n : Nat := 0; let ok : Bool := true; let t : Nat := 0; let s : State := (setQp on 0 { owed := [{}], st := .disabling });
      let u := tick s t; (match (qp u n).owed with | _ :: _ => decide (((qp u n).st = .active ∨ (qp u n).st = .disabling) ∧ ok = true) | _ => false),
    (decide (({ op := 0x0001 } : TrellisCmd).op = 0x0001))] : List Bool).all id = true := by decide +kernel

/-- Clause by clause, states and operands that meet the hypotheses of `Obligations.SpdmStepsAndIdeKeys`. -/
theorem witness_SpdmStepsAndIdeKeys : ([
    let n : Nat := 1; let t : Nat := 0; let s : State := ({ on with cxl := { on.cxl with ports := [(0, { link := 2, spdm := { } })] } });
      let u := tick s t; let p : Port := port u n; decide (p.link ≠ 2),
    (let x := (port (tick ({ on with cxl := { on.cxl with ports := [(0, { link := 2, spdm := { version := true, caps := true } })] } }) 0) 0).spdm; let y := (port (tick ({ on with cxl := { on.cxl with ports := [(0, { link := 2, spdm := { algs := true, handshake := true, session := true } })] } }) 0) 0).spdm; decide ((port (tick ({ on with cxl := { on.cxl with ports := [(0, { link := 2, spdm := { } })] } }) 0) 0).link = 2) && x.version && !x.algs && x.caps && y.algs && y.handshake && y.session),
    (let x := (port (tick ({ on with cxl := { on.cxl with ports := [(0, { link := 2, spdm := { } })] } }) 0) 0).spdm; decide ((port (tick ({ on with cxl := { on.cxl with ports := [(0, { link := 2, spdm := { } })] } }) 0) 0).link = 2) && !x.version && !x.caps && !x.algs && !x.handshake && !x.session),
    let n : Nat := 0; let t : Nat := 0; let s : State := ({ on with cxl := { on.cxl with ports := [(0, { link := 2, spdm := { } })] } });
      let u := tick s t; let p : Port := port u n; let x := p.spdm; decide ((p.link ≠ 2 ∨ x.session = false)),
    let n : Nat := 0; let t : Nat := 0;
      let s : State := ({ on with cxl := { on.cxl with ports := [(0, { link := 2, spdm := { session := true } })] } }); let u := tick s t;
      let p : Port := port u n; let x := p.spdm; decide (p.link = 2 ∧ x.session = true),
    let data : List Byte := [0#8, 2#8]; decide (rd data 1 1 = 2),
    let p : Port := {}; let data : List Byte := [0#8, 4#8]; decide (rd data 1 1 = 4 ∧ p.ideKeys.programmed = []),
    let p : Port := { ideKeys := { programmed := [1#8] } }; let data : List Byte := [0#8, 4#8]; decide (rd data 1 1 = 4 ∧ p.ideKeys.programmed ≠ []),
    let data : List Byte := [0#8, 5#8]; decide (rd data 1 1 = 5),
    let data : List Byte := [0#8, 3#8]; decide (rd data 1 1 ≠ 2 ∧ rd data 1 1 ≠ 4 ∧ rd data 1 1 ≠ 5)] : List Bool).all id = true := by decide +kernel

/-- Clause by clause, states and operands that meet the hypotheses of `Obligations.MemoryReadsAnswerWaitOrDrop`. -/
theorem witness_MemoryReadsAnswerWaitOrDrop : ([
    let r : MemReq := ({ port := 1 } : MemReq); let t : Nat := 0; let s : State := on;
      let u := tick s t; decide (((port u r.port).link ≠ 2 ∨ u.ldg.closed = true)),
    let r : MemReq := ({} : MemReq); let x : LineIn := ({} : LineIn); let t : Nat := 0; let s : State := on;
      let u := tick s t; decide ((port u r.port).link = 2 ∧ u.ldg.closed = false) && (let q := hostOf u r; let v := noteRequest (noteFill u q x); (match classify v q true with | .error _ => true | _ => false)),
    let r : MemReq := ({} : MemReq); let x : LineIn := ({} : LineIn); let t : Nat := 0;
      let s : State := (alT on 1 { extents := [0], bindings := [{ issuer := 0#16, rw := true, accepted := [0] }], serving := true });
      let u := tick s t; decide ((port u r.port).link = 2 ∧ u.ldg.closed = false) && (let q := hostOf u r; let v := noteRequest (noteFill u q x); (match classify v q true with | .ok (l, _) => let g := granReady (numbered v) (lineGran l) x.badCrc; decide (g.2 = true) | _ => false)),
    let r : MemReq := ({} : MemReq); let x : LineIn := ({} : LineIn); let t : Nat := 0;
      let s : State := (alT { on with hrv := { on.hrv with replant := true, todo := [0] }, ftl := { on.ftl with map := [(0, { kind := 1 })] } } 1 { extents := [0], bindings := [{ issuer := 0#16, rw := true, accepted := [0] }], serving := true });
      let u := tick s t; decide ((port u r.port).link = 2 ∧ u.ldg.closed = false) && (let q := hostOf u r; let v := noteRequest (noteFill u q x); (match classify v q true with | .ok (l, _) => let g := granReady (numbered v) (lineGran l) x.badCrc; decide (g.2 = false) | _ => false)),
    let s : State := on; let r : MemReq := ({} : MemReq); decide ((port s r.port).mode = 0),
    let s : State := { on with cxl := { on.cxl with ports := [(0, { link := 2, mode := 1 })] } };
      let r : MemReq := ({ issuer := 35 } : MemReq); decide ((port s r.port).mode = 1),
    let s : State := { on with cxl := { on.cxl with ports := [(0, { link := 2, mode := 2 })] } };
      let r : MemReq := ({ issuer := 4097 } : MemReq); decide (1 < (port s r.port).mode),
    let s : State := { on with cxl := { on.cxl with ports := [(0, { link := 2, ide := 2 })] } };
      let r : MemReq := ({} : MemReq); decide ((port s r.port).ide = 2),
    let s : State := on; let r : MemReq := ({} : MemReq); decide ((port s r.port).ide ≠ 2 ∧ resolve s r.issuer r.dpa = none),
    let s : State := (alT on 1 { extents := [0], bindings := [{ issuer := 0#16, rw := true, accepted := [0] }], st := .deleting });
      let r : MemReq := ({} : MemReq); decide ((port s r.port).ide ≠ 2) && ((match resolve s r.issuer r.dpa with | some (_, a, _, _) => decide (a.st = .deleting) | _ => false)),
    let s : State := (alT on 1 { extents := [0], bindings := [{ issuer := 0#16, rw := true, accepted := [0] }], st := .stale });
      let r : MemReq := ({} : MemReq); decide ((port s r.port).ide ≠ 2) && ((match resolve s r.issuer r.dpa with | some (_, a, _, _) => decide (a.st = .stale) | _ => false)),
    let s : State := (alT on 1 { extents := [0], bindings := [{ issuer := 0#16, rw := true, accepted := [0] }], serving := false });
      let r : MemReq := ({} : MemReq); decide ((port s r.port).ide ≠ 2) && ((match resolve s r.issuer r.dpa with | some (_, a, _, _) => decide (a.st ≠ .deleting ∧ a.st ≠ .stale ∧ a.serving = false) | _ => false)),
    let s : State := (alT on 1 { extents := [0], serving := true, bindings := [{ issuer := 0#16, accepted := [0] }] });
      let r : MemReq := ({} : MemReq);
      let read : Bool := false; decide ((port s r.port).ide ≠ 2) && ((match resolve s r.issuer r.dpa with | some (_, a, b, _) => decide (a.st ≠ .deleting ∧ a.st ≠ .stale ∧ a.serving = true ∧ read = false ∧ b.rw = false) | _ => false)),
    let s : State := (alT on 1 { extents := [0], bindings := [{ issuer := 0#16, rw := true, accepted := [0] }], serving := true });
      let r : MemReq := ({} : MemReq);
      let read : Bool := true; decide ((port s r.port).ide ≠ 2) && ((match resolve s r.issuer r.dpa with | some (_, a, b, _) => decide (a.st ≠ .deleting ∧ a.st ≠ .stale ∧ a.serving = true ∧ (read = true ∨ b.rw = true)) | _ => false)),
    let s : State := { on with mem := { on.mem with poison := [0] } };
      let h : HeldWrite := ({} : HeldWrite); decide (h.gone = false ∧ linkCarries s h.req.port = true ∧ (readLine s h.line).2 = true),
    (let s := on; let h : HeldWrite := {}; decide (h.gone = false ∧ (port s h.req.port).link = 2 ∧ (readLine s h.line).2 = false ∧ granAllot s (lineGran h.line) = none))] : List Bool).all id = true := by decide +kernel

/-- Clause by clause, states and operands that meet the hypotheses of `Obligations.MemoryWritesArePlacedHeldOrDropped`. -/
theorem witness_MemoryWritesArePlacedHeldOrDropped : ([
    let r : MemReq := ({ port := 1 } : MemReq); let t : Nat := 0; let s : State := on;
      let u := tick s t; decide (((port u r.port).link ≠ 2 ∨ u.ldg.closed = true)),
    let r : MemReq := ({} : MemReq); let x : LineIn := ({} : LineIn); let t : Nat := 0; let s : State := on;
      let u := tick s t; decide ((port u r.port).link = 2 ∧ u.ldg.closed = false) && (let q := hostOf u r; let v := numbered (noteRequest (noteFill u q x)); (match classify v q false with | .error _ => true | _ => false)),
    let r : MemReq := ({} : MemReq); let x : LineIn := ({} : LineIn); let t : Nat := 0;
      let s : State := (alT { on with drp := { on.drp with limit := 0 } } 1 { extents := [0], bindings := [{ issuer := 0#16, rw := true, accepted := [0] }], serving := true });
      let u := tick s t; decide ((port u r.port).link = 2 ∧ u.ldg.closed = false) && (let q := hostOf u r; let v := numbered (noteRequest (noteFill u q x)); (match classify v q false with | .ok (l, _) => decide (gateAdmits v (lineGran l) = false) | _ => false)),
    let r : MemReq := ({} : MemReq); let x : LineIn := ({} : LineIn); let t : Nat := 0;
      let s : State := (alT { on with drp := { on.drp with limit := 2 ^ 30, held := [{ n := 9 }] } } 1 { extents := [0], bindings := [{ issuer := 0#16, rw := true, accepted := [0] }], serving := true });
      let u := tick s t; decide ((port u r.port).link = 2 ∧ u.ldg.closed = false) && (let q := hostOf u r; let v := numbered (noteRequest (noteFill u q x)); (match classify v q false with | .ok (l, a) => let behind := v.drp.held.any (fun k => k.line == l && k.req.issuer == q.issuer); decide (gateAdmits v (lineGran l) = true ∧ (behind = true ∨ (a.mirrored = true ∧ mirrorOn v = true ∧ twinAdmits v l = false))) | _ => false)),
    let r : MemReq := ({} : MemReq); let x : LineIn := ({} : LineIn); let t : Nat := 0;
      let s : State := (alT { on with drp := { on.drp with limit := 2 ^ 30 } } 1 { extents := [0], bindings := [{ issuer := 0#16, rw := true, accepted := [0] }], serving := true });
      let u := tick s t; decide ((port u r.port).link = 2 ∧ u.ldg.closed = false) && (let q := hostOf u r; let v := numbered (noteRequest (noteFill u q x)); (match classify v q false with | .ok (l, a) => let behind := v.drp.held.any (fun k => k.line == l && k.req.issuer == q.issuer); decide (behind = false ∧ gateAdmits v (lineGran l) = true ∧ ((a.mirrored = true → mirrorOn v = true → twinAdmits v l = true))) | _ => false)),
    let n : Nat := 0; let t : Nat := 0; let s : State := on; let u := tick s t; decide (u.drp.held.find? (fun h => h.n == n) = none),
    let n : Nat := 0; let t : Nat := 0; let s : State := { on with now := 99, drp := { on.drp with held := [{}] } };
      let u := tick s t; (match u.drp.held.find? (fun h => h.n == n) with | some h => decide (u.now < h.since + clamp 100 50000 (cfg u (regAt rCxlQos h.req.port) 0 16)) | _ => false),
    let n : Nat := 0; let t : Nat := 0; let s : State := { on with now := 50000, drp := { on.drp with held := [{}] } };
      let u := tick s t; (match u.drp.held.find? (fun h => h.n == n) with | some h => decide (h.since + clamp 100 50000 (cfg u (regAt rCxlQos h.req.port) 0 16) ≤ u.now) | _ => false),
    let s : State := on; let n : Nat := 0; let x : Port := (port on 0); decide (tget s.cxl.ports n = some x)] : List Bool).all id = true := by decide +kernel

/-- Clause by clause, states and operands that meet the hypotheses of `Obligations.AppliedWriteChangesItsLineOnly`. -/
theorem witness_AppliedWriteChangesItsLineOnly : ([
    let s : State := on; let l : Nat := 0;
      let data : List Byte := zeros 64; decide (Memory.wf s.mem.cells = true ∧ s.mem.ueLines.contains l = false ∧ data.length = 64),
    let s : State := on; let l : Nat := 0;
      let data : List Byte := zeros 64; decide (Memory.wf s.mem.cells = true ∧ s.mem.ueLines.contains l = false ∧ data.length = 64) && (let b := 64; decide ((b < 64 * l ∨ 64 * l + 64 ≤ b))),
    (decide (Memory.wf on.mem.cells = true ∧ on.mem.ueLines.contains 0 = false ∧ (zeros 64).length = 64 ∧ poisoned on 0 = false)),
    let s : State := on; let l : Nat := 0; let data : List Byte := zeros 64; let en : BitVec 64 := 1#64;
      let pois : Bool := true; decide (Memory.wf s.mem.cells = true ∧ s.mem.ueLines.contains l = false ∧ data.length = 64 ∧ (pois = true ∨ (poisoned s l = true ∧ allEnabled en = false)))] : List Bool).all id = true := by decide +kernel

/-- Clause by clause, states and operands that meet the hypotheses of `Obligations.PortEvents`. -/
theorem witness_PortEvents_1 : ([
    let n : Nat := 1; let t : Nat := 0; let s : State := on; let u := tick s t; decide ((port u n).link ≠ 2),
    let n : Nat := 1; let t : Nat := 0; let s : State := on; let u := tick s t; decide (((port u n).link ≠ 2 ∨ u.ldg.closed = true)),
    let n : Nat := 0; let t : Nat := 0; let s : State := on; let u := tick s t; decide ((port u n).link = 2),
    let n : Nat := 0; let t : Nat := 0; let s : State := on; let u := tick s t; decide ((port u n).link = 2 ∧ u.ldg.closed = false),
    let n : Nat := 0; let t : Nat := 0; let s : State := on;
      let u := tick s t; decide (((port u n).gpf = false ∨ u.now < (port u n).gpfAt + clamp 100 50000 (cfg u (regAt rCxlQos n) 0 16) + 20)),
    let n : Nat := 0; let t : Nat := 0; let s : State := { on with now := 10 ^ 6, cxl := { on.cxl with ports := [(0, { link := 2, gpf := true })] } };
      let u := tick s t; decide (n < 4 ∧ (port u n).gpf = true ∧ (port u n).gpfAt + clamp 100 50000 (cfg u (regAt rCxlQos n) 0 16) + 20 ≤ u.now),
    let n : Nat := 0;
      let s : State := { on with cxl := { on.cxl with ports := [(0, { link := 2, gpf := true })] } }; decide ((port s n).gpf = true ∧ (port s n).gpfSet = []),
    let n : Nat := 0; let t : Nat := 0; let s : State := on; let u := tick s t; decide (((port u n).link ≠ 2 ∨ (port u n).ide = 0)),
    let n : Nat := 0; let t : Nat := 0; let s : State := { on with cxl := { on.cxl with ports := [(0, { link := 2, ide := 1 })] } };
      let u := tick s t; decide ((port u n).link = 2 ∧ (port u n).ide ≠ 0),
    let n : Nat := 0; let t : Nat := 0; let s : State := at_ .off; let u := tick s t;
      let x := port u n; decide ((¬ (n < nPorts u ∧ u.pin.padOn = true ∧ logicOn u = true ∧ u.dev.state ≠ .harvesting ∧ x.perst = false ∧ x.link ≠ 2))),
    let n : Nat := 1; let t : Nat := 0;
      let s : State := { on with pin := { on.pin with padOn := true }, regs := tset on.regs (regAt rCxlCfg 1) 0#32 }; let u := tick s t;
      let x := port u n; decide ((n < nPorts u ∧ u.pin.padOn = true ∧ logicOn u = true ∧ u.dev.state ≠ .harvesting ∧ x.perst = false ∧ x.link ≠ 2) ∧ cfg u (regAt rCxlCfg n) 31 1 = 0),
    let n : Nat := 1; let t : Nat := 0;
      let s : State := { on with pin := { on.pin with padOn := true }, regs := tset on.regs (regAt rCxlCfg 1) (BitVec.ofNat 32 (2 ^ 31 + 2 ^ 26)) };
      let u := tick s t;
      let x := port u n; decide ((n < nPorts u ∧ u.pin.padOn = true ∧ logicOn u = true ∧ u.dev.state ≠ .harvesting ∧ x.perst = false ∧ x.link ≠ 2) ∧ cfg u (regAt rCxlCfg n) 31 1 ≠ 0 ∧ n ≠ 0 ∧ cfgCode u n 26 ≠ modeOfAll u),
    let n : Nat := 1; let flit : Bool := false; let t : Nat := 0;
      let s : State := { on with pin := { on.pin with padOn := true }, regs := tset on.regs (regAt rCxlCfg 1) (BitVec.ofNat 32 (2 ^ 31)) };
      let u := tick s t;
      let x := port u n; decide ((n < nPorts u ∧ u.pin.padOn = true ∧ logicOn u = true ∧ u.dev.state ≠ .harvesting ∧ x.perst = false ∧ x.link ≠ 2) ∧ cfg u (regAt rCxlCfg n) 31 1 ≠ 0 ∧ (n = 0 ∨ cfgCode u n 26 = modeOfAll u) ∧ flit = false),
    let n : Nat := 1; let speed : Nat := 2; let flit : Bool := true; let t : Nat := 0;
      let s : State := { on with pin := { on.pin with padOn := true }, regs := tset on.regs (regAt rCxlCfg 1) (BitVec.ofNat 32 (2 ^ 31)) };
      let u := tick s t;
      let x := port u n; decide ((n < nPorts u ∧ u.pin.padOn = true ∧ logicOn u = true ∧ u.dev.state ≠ .harvesting ∧ x.perst = false ∧ x.link ≠ 2) ∧ cfg u (regAt rCxlCfg n) 31 1 ≠ 0 ∧ (n = 0 ∨ cfgCode u n 26 = modeOfAll u) ∧ flit = true ∧ 1 < speed),
    let n : Nat := 1; let width : Nat := 3; let speed : Nat := 0; let flit : Bool := true; let t : Nat := 0;
      let s : State := { on with pin := { on.pin with padOn := true }, regs := tset on.regs (regAt rCxlCfg 1) (BitVec.ofNat 32 (2 ^ 31)) };
      let u := tick s t; let x := port u n;
      let w := max (cfgCode u n 24) width; decide ((n < nPorts u ∧ u.pin.padOn = true ∧ logicOn u = true ∧ u.dev.state ≠ .harvesting ∧ x.perst = false ∧ x.link ≠ 2) ∧ cfg u (regAt rCxlCfg n) 31 1 ≠ 0 ∧ (n = 0 ∨ cfgCode u n 26 = modeOfAll u) ∧ flit = true ∧ speed ≤ 1 ∧ 2 < w),
    let n : Nat := 1; let width : Nat := 2; let speed : Nat := 0; let flit : Bool := true; let t : Nat := 0;
      let s : State := { on with pin := { on.pin with padOn := true }, regs := tset on.regs (regAt rCxlCfg 1) (BitVec.ofNat 32 (2 ^ 31)) };
      let u := tick s t; let x := port u n;
      let w := max (cfgCode u n 24) width; decide ((n < nPorts u ∧ u.pin.padOn = true ∧ logicOn u = true ∧ u.dev.state ≠ .harvesting ∧ x.perst = false ∧ x.link ≠ 2) ∧ cfg u (regAt rCxlCfg n) 31 1 ≠ 0 ∧ (n = 0 ∨ cfgCode u n 26 = modeOfAll u) ∧ flit = true ∧ speed ≤ 1 ∧ w ≤ 2),
    let n : Nat := 0; let t : Nat := 0; let s : State := on; let u := tick s t; decide ((nPorts u ≤ n ∨ u.pin.padOn = false)),
    let n : Nat := 3; let t : Nat := 0;
      let s : State := { on with pin := { on.pin with padOn := true }, regs := tset on.regs (regAt rCxlCfg 1) 0#32 };
      let u := tick s t; decide (n < nPorts u ∧ u.pin.padOn = true),
    let s : State := on; let n : Nat := 0; decide ((port s n).link = 2),
    let s : State := on; let n : Nat := 0; decide ((port s n).link = 2)] : List Bool).all id = true := by decide +kernel

theorem witness_PortEvents_2 : ([
    let s : State := on; let n : Nat := 0; decide ((port s n).link = 2)] : List Bool).all id = true := by decide +kernel

/-- Clause by clause, states and operands that meet the hypotheses of `Obligations.DramChannelEvents`. -/
theorem witness_DramChannelEvents_1 : ([
    (tick on 0).now == 0,
    let c : Nat := 0; let rank : Nat := 0; let t : Nat := 0; let s : State := on; let u := tick s t;
      let x := ddr u c; decide ((x.st ≠ 2 ∨ ((match tget x.refAt rank with | some f => decide (1000 * (u.now + 1) < 1000 * f + (if x.hot then 1950 else 3900)) | none => false) = true))),
    let c : Nat := 0; let rank : Nat := 0; let t : Nat := 0; let probe : List LaneProbe := ([] : List LaneProbe);
      let s : State := { on with ddrs := { on.ddrs with ch := [(0, { st := 2, postponed := [(0, 4)] })] } }; let u := tick s t;
      let x := ddr u c; decide (x.st = 2 ∧ (¬ ((match tget x.refAt rank with | some f => decide (1000 * (u.now + 1) < 1000 * f + (if x.hot then 1950 else 3900)) | none => false) = true))) && (let mine := probe.filter (fun p => p.lane / 8 % 8 == rank && (allLanes x).contains p.lane && !x.probed.contains p.lane); decide ((x.retraining = false ∨ mayRetrain u c = false ∨ mine = []))),
    let c : Nat := 0; let rank : Nat := 0; let t : Nat := 0; let hot : Bool := false;
      let probe : List LaneProbe := ([{ rd := 60, wr := 60, width := 40 }] : List LaneProbe);
      let s : State := (let z := on; { z with now := 0, ddrs := { z.ddrs with ch := [(0, { st := 2, retraining := true, dimms := 1, ranks := 1 })] } });
      let u := tick s t;
      let x := ddr u c; decide (x.st = 2 ∧ (¬ ((match tget x.refAt rank with | some f => decide (1000 * (u.now + 1) < 1000 * f + (if x.hot then 1950 else 3900)) | none => false) = true))) && (let y := { x with hot := hot, refAt := tset x.refAt rank u.now }; let mine := probe.filter (fun p => p.lane / 8 % 8 == rank && (allLanes x).contains p.lane && !x.probed.contains p.lane); decide (x.retraining = true ∧ mayRetrain u c = true ∧ mine ≠ []) && (let w := mine.foldl (fun v p => if (ddr v c).probed.contains p.lane then v else probeLane v c p) (setDdr u c (refreshRank y rank true)); decide ((allLanes x).all (ddr w c).probed.contains = false))),
    let c : Nat := 0; let rank : Nat := 0; let t : Nat := 0; let hot : Bool := false;
      let probe : List LaneProbe := ([{ rd := 60, wr := 60, width := 40 }] : List LaneProbe);
      let s : State := (let z := on; { z with now := 0, ddrs := { z.ddrs with ch := [(0, { st := 2, retraining := true, dimms := 1, ranks := 1, probed := [1, 2, 3, 4, 64, 65, 66, 67, 68] })] } });
      let u := tick s t;
      let x := ddr u c; decide (x.st = 2 ∧ (¬ ((match tget x.refAt rank with | some f => decide (1000 * (u.now + 1) < 1000 * f + (if x.hot then 1950 else 3900)) | none => false) = true))) && (let y := { x with hot := hot, refAt := tset x.refAt rank u.now }; let mine := probe.filter (fun p => p.lane / 8 % 8 == rank && (allLanes x).contains p.lane && !x.probed.contains p.lane); decide (x.retraining = true ∧ mayRetrain u c = true ∧ mine ≠ []) && (let w := mine.foldl (fun v p => if (ddr v c).probed.contains p.lane then v else probeLane v c p) (setDdr u c (refreshRank y rank true)); decide ((allLanes x).all (ddr w c).probed.contains = true))),
    let x : Ddr := ({ rdq := [{}], pulledIn := [(0, 1)] } : Ddr); let rank : Nat := 0;
      let ahead := tgetD x.pulledIn rank 0; decide (rankQueued x rank = true ∧ 0 < ahead),
    let x : Ddr := ({ rdq := [{}], postponed := [(0, 3)] } : Ddr); let rank : Nat := 0; let post := tgetD x.postponed rank 0;
      let ahead := tgetD x.pulledIn rank 0; decide (rankQueued x rank = true ∧ ahead = 0 ∧ post < 4),
    let x : Ddr := ({ rdq := [{}], postponed := [(0, 4)] } : Ddr); let rank : Nat := 0; let post := tgetD x.postponed rank 0;
      let ahead := tgetD x.pulledIn rank 0; decide (rankQueued x rank = true ∧ ahead = 0 ∧ 4 ≤ post),
    let x : Ddr := ({ postponed := [(0, 1)] } : Ddr); let rank : Nat := 0;
      let post := tgetD x.postponed rank 0; decide (rankQueued x rank = false ∧ 0 < post),
    let x : Ddr := ({ pulledIn := [(0, 3)] } : Ddr); let rank : Nat := 0; let post := tgetD x.postponed rank 0;
      let ahead := tgetD x.pulledIn rank 0; decide (rankQueued x rank = false ∧ post = 0 ∧ ahead < 4),
    let x : Ddr := ({ pulledIn := [(0, 4)] } : Ddr); let rank : Nat := 0; let post := tgetD x.postponed rank 0;
      let ahead := tgetD x.pulledIn rank 0; decide (rankQueued x rank = false ∧ post = 0 ∧ 4 ≤ ahead),
    let c : Nat := 0; let t : Nat := 0; let s : State := { on with now := 899999999 }; let u := tick s t;
      let x := ddr u c; decide (u.now < x.lastPass + 900000000),
    let c : Nat := 0; let t : Nat := 0; let s : State := { on with now := 900000000 }; let u := tick s t;
      let x := ddr u c; decide (x.lastPass + 900000000 ≤ u.now),
    let c : Nat := 0; let t : Nat := 0; let temps : List Nat := ([] : List Nat); let s : State := on; let u := tick s t;
      let x := ddr u c; decide ((x.dimms = 0 ∨ temps.length < x.dimms ∨ twiUp u 3 = false ∨ ((match x.polledAt with | some f => decide (u.now < f + 1000000) | none => false) = true))),
    let c : Nat := 0; let t : Nat := 0; let temps : List Nat := [25];
      let s : State := (let z := on; { z with now := 1000000, ddrs := { z.ddrs with ch := [(0, { dimms := 1 })] } }); let u := tick s t;
      let x := ddr u c; decide (x.dimms ≠ 0 ∧ x.dimms ≤ temps.length ∧ twiUp u 3 = true ∧ ((match x.polledAt with | some f => decide (f + 1000000 ≤ u.now) | none => true) = true)),
    let c : Nat := 0; let t : Nat := 0; let s : State := on; let u := tick s t; let x := ddr u c; decide ((u.dev.state ≠ .harvesting ∨ x.st ≠ 2)),
    let c : Nat := 0; let t : Nat := 0; let s : State := { at_ .harvesting with ddrs := { on.ddrs with ch := [(0, { st := 2 })] } };
      let u := tick s t; let x := ddr u c; decide (u.dev.state = .harvesting ∧ x.st = 2 ∧ (x.rdq = [] ∧ x.wrq = [])),
    let c : Nat := 0; let t : Nat := 0;
      let s : State := (let z := at_ .harvesting; { z with now := 0, ddrs := { z.ddrs with ch := [(0, { st := 2, wrq := [{}] })] } });
      let u := tick s t; let x := ddr u c; decide (u.dev.state = .harvesting ∧ x.st = 2 ∧ (¬ (x.rdq = [] ∧ x.wrq = []))),
    let c : Nat := 0; let t : Nat := 0; let s : State := on; let u := tick s t; let x := ddr u c;
      let awake := (u.ddrs.ch.filter (fun p => p.2.st == 2 || p.2.st == 4)).length; let limit := if isBig u then 4 else 2;
      let soon := match u.hrv.run with | some r => (r.plan.take 1024).any (fun g => granChan u g == c) || r.issued.any (fun k => k.grans.any (fun p => granChan u p.1 == c && !k.read.contains p.1)) | none => false; decide ((u.dev.state ≠ .harvesting ∨ x.st ≠ 3 ∨ limit ≤ awake ∨ soon = false)),
    (let s : State := { (let z := at_ .harvesting; { z with now := 0, ddrs := { z.ddrs with ch := [(0, { st := 3 })] } }) with hrv := { on.hrv with run := some { plan := [0] } } }; let u := tick s 0; let x := ddr u 0; decide (u.dev.state = .harvesting ∧ x.st = 3 ∧ (u.ddrs.ch.filter (fun p => p.2.st == 2 || p.2.st == 4)).length < (if isBig u then 4 else 2)) && (u.hrv.run.any (fun r => (r.plan.take 1024).any (fun g => granChan u g == 0))))] : List Bool).all id = true := by decide +kernel

theorem witness_DramChannelEvents_2 : ([
    let c : Nat := 0; let lane : Nat := 0; let t : Nat := 0; let s : State := on; let u := tick s t;
      let l := tgetD (ddr u c).lanes lane {}; decide (((ddr u c).retraining = true ∨ l.pending = none)),
    let c : Nat := 0; let lane : Nat := 0; let t : Nat := 0;
      let s : State := (let x := on; { x with ddrs := { x.ddrs with ch := [(0, { lanes := [(0, { pending := some (1, 2) })] })] } });
      let u := tick s t;
      let l := tgetD (ddr u c).lanes lane {}; decide ((ddr u c).retraining = false) && ((match l.pending with | some (_, _) => decide (assisted u 5 = false) | _ => false)),
    let c : Nat := 0; let lane : Nat := 0; let t : Nat := 0;
      let s : State := (let x := own on 5 0x2000; { x with ddrs := { x.ddrs with ch := [(0, { lanes := [(0, { pending := some (1, 2) })] })] } });
      let u := tick s t;
      let l := tgetD (ddr u c).lanes lane {}; decide ((ddr u c).retraining = false) && ((match l.pending with | some (_, _) => decide (assisted u 5 = true) | _ => false)),
    let c : Nat := 0; let t : Nat := 0; let s : State := on; let u := tick s t;
      let out := fun n => cuttingOut u (fun x => x.n == n); decide (((ddr u c).scrubCut = none ∨ serving u = false ∨ (ddr u c).st ≠ 2 ∨ ((match (ddr u c).scrubCut with | some n => decide (out n = true) | none => false) = true))),
    let c : Nat := 0; let t : Nat := 0;
      let s : State := (let z := on; { z with now := 0, ddrs := { z.ddrs with ch := [(0, { st := 2, scrubCut := some 0 })] } }); let u := tick s t;
      let out := fun n => cuttingOut u (fun x => x.n == n);
      let n := 0; decide ((ddr u c).scrubCut = some n ∧ serving u = true ∧ (ddr u c).st = 2 ∧ out n = false),
    let c : Nat := 0; let t : Nat := 0; let s : State := on; let u := tick s t; decide ((ddr u c).rebuild = none),
    let c : Nat := 0; let t : Nat := 0; let s : State := { on with ddrs := { on.ddrs with ch := [(0, { rebuild := some 0 })] } };
      let u := tick s t; ((ddr u c).rebuild).isSome] : List Bool).all id = true := by decide +kernel

/-- Clause by clause, states and operands that meet the hypotheses of `Obligations.DieToDieLink`. -/
theorem witness_DieToDieLink_1 : ([
    let t : Nat := 0; let s : State := at_ .off |> fun x => { x with d2d := { x.d2d with up := false } }; let u := tick s t; decide (u.d2d.up = false),
    let t : Nat := 0; let s : State := on; let u := tick s t; decide (u.d2d.up = true),
    let cold : Bool := true; let t : Nat := 0; let s : State := on; let u := tick s t;
      let x := d2dSide u cold; decide (u.d2d.up = true ∧ (u.d2d.retraining = true ∨ x.unacked = [])),
    let cold : Bool := true; let t : Nat := 0;
      let s : State := { on with d2d := { on.d2d with up := true, toCold := { unacked := [{ typ := 6, payload := 0#16 }] } } }; let u := tick s t;
      let x := d2dSide u cold; decide (u.d2d.up = true ∧ u.d2d.retraining = false ∧ x.unacked ≠ []),
    let cold : Bool := true; let t : Nat := 0; let s : State := { (sendFrame { on with d2d := { on.d2d with up := true } } true 6 0) with now := 2 };
      let u := tick s t; let x := d2dSide u cold; decide (u.d2d.up = true ∧ u.d2d.retraining = false ∧ x.unacked ≠ [] ∧ x.ackAt + 2 ≤ u.now),
    let cold : Bool := true; let t : Nat := 0; let s : State := on; let u := tick s t;
      let x := d2dSide u cold; decide (u.d2d.up = true ∧ u.now < x.ackAt + 2),
    let cold : Bool := true; let f : Word := 0x100000A2#32; let t : Nat := 0; let s : State := on; let u := tick s t;
      let x := d2dSide u cold; decide (u.d2d.up = true ∧ frameOk x (frameOf f) = true),
    let cold : Bool := true; let f : Word := 0x10000014#32; let t : Nat := 0; let s : State := on; let u := tick s t;
      let x := d2dSide u cold; decide (u.d2d.up = true ∧ frameOk x (frameOf f) = false),
    let t : Nat := 0; let s : State := { on with d2d := { on.d2d with up := true, toCold := { fails := 7 } } };
      let u := tick s t; decide ((u.d2d.retraining = true ∨ (u.d2d.toCold.fails < 8 ∧ u.d2d.toLogic.fails < 8))),
    let t : Nat := 0; let s : State := { on with d2d := { on.d2d with up := true, toCold := { fails := 8 }, retrains := [0] } }; let u := tick s t;
      let l := u.now :: u.d2d.retrains.filter (fun k => u.now ≤ k + 1000000); decide (u.d2d.up = true ∧ u.d2d.retraining = false ∧ (8 ≤ u.d2d.toCold.fails ∨ 8 ≤ u.d2d.toLogic.fails) ∧ l.length < 3),
    let t : Nat := 0; let s : State := { on with d2d := { on.d2d with up := true, toLogic := { fails := 8 }, retrains := [0, 0] } };
      let u := tick s t;
      let l := u.now :: u.d2d.retrains.filter (fun k => u.now ≤ k + 1000000); decide (u.d2d.up = true ∧ u.d2d.retraining = false ∧ (8 ≤ u.d2d.toCold.fails ∨ 8 ≤ u.d2d.toLogic.fails) ∧ 3 ≤ l.length),
    let t : Nat := 0; let s : State := on; let u := tick s t; decide (u.d2d.retraining = false),
    let t : Nat := 0; let s : State := { on with d2d := { on.d2d with up := true, retraining := true } };
      let u := tick s t; decide (u.d2d.retraining = true),
    let s : State := (sendFrame { on with d2d := { on.d2d with up := true } } true 6 0); let cold : Bool := true;
      let typ : Nat := 6; (arrive s cold typ).isSome,
    let t : Nat := 0; let s : State := on; let u := tick s t; decide (arrive u true 6 = none),
    let t : Nat := 0; let s : State := (sendFrame { on with d2d := { on.d2d with up := true } } true 6 0); let u := tick s t; (arrive u true 6).isSome,
    let t : Nat := 0; let s : State := on; let u := tick s t; decide (arrive u true 5 = none),
    let t : Nat := 0; let s : State := (sendFrame { on with d2d := { on.d2d with up := true } } true 5 0);
      let u := tick s t; (match arrive u true 5 with | some (f, _) => decide (f.payload.toNat / 16384 = 0) | _ => false),
    let t : Nat := 0; let s : State := (sendFrame { on with d2d := { on.d2d with up := true } } true 5 0x4000);
      let u := tick s t; (match arrive u true 5 with | some (f, _) => decide (f.payload.toNat / 16384 = 1) | _ => false),
    let t : Nat := 0; let s : State := (sendFrame { on with d2d := { on.d2d with up := true } } true 5 0x8000);
      let u := tick s t; (match arrive u true 5 with | some (f, _) => decide (f.payload.toNat / 16384 = 2) | _ => false)] : List Bool).all id = true := by decide +kernel

theorem witness_DieToDieLink_2 : ([
    let t : Nat := 0; let s : State := (sendFrame { on with d2d := { on.d2d with up := true } } true 5 0xFFFF);
      let u := tick s t; (match arrive u true 5 with | some (f, w) => decide (f.payload.toNat / 16384 = 3 ∧ w.hrv.run = none) | _ => false),
    let t : Nat := 0;
      let s : State := (sendFrame { { on with hrv := { on.hrv with run := some {} } } with d2d := { on.d2d with up := true } } true 5 0xFFFF);
      let u := tick s t; (match arrive u true 5 with | some (f, w) => decide (f.payload.toNat / 16384 = 3) && ((w.hrv.run).isSome) | _ => false),
    let t : Nat := 0; let s : State := on; let u := tick s t; decide (arrive u true 3 = none),
    let t : Nat := 0; let s : State := (sendFrame { on with d2d := { on.d2d with up := true, bridge := [{ reqs := 1 }] } } true 3 0);
      let u := tick s t; (match arrive u true 3 with | some (_, w) => (match w.d2d.bridge.find? (fun b => b.reqs == 1) with | some b => decide (b.write = false) | _ => false) | _ => false),
    ((arrive (tick (sendFrame { on with d2d := { on.d2d with up := true, bridge := [{ reqs := 1, write := true }] } } true 3 0) 0) true 3).isSome),
    let cold : Bool := true; let t : Nat := 0; let s : State := on; let u := tick s t; decide (arrive u cold 4 = none),
    let cold : Bool := true; let t : Nat := 0; let s : State := (sendFrame { on with d2d := { on.d2d with up := true } } true 4 0);
      let u := tick s t; (arrive u cold 4).isSome,
    let t : Nat := 0; let s : State := on; let u := tick s t; decide (u.d2d.bridge = []),
    let t : Nat := 0; let s : State := { on with d2d := { on.d2d with up := true, bridge := [{ reqs := 1 }] } };
      let u := tick s t; (match u.d2d.bridge with | b :: _ => decide ((b.reqs < 2 ∨ b.datas < 2 ∨ u.now < b.since + 1)) | _ => false),
    let t : Nat := 0; let s : State := { on with now := 1, d2d := { on.d2d with up := true, bridge := [{ reqs := 2, datas := 2, write := true }] } };
      let u := tick s t; (match u.d2d.bridge with | b :: _ => decide (2 ≤ b.reqs ∧ 2 ≤ b.datas ∧ b.since + 1 ≤ u.now ∧ b.cmd = none ∧ b.write = true) | _ => false),
    let t : Nat := 0; let s : State := { on with now := 1, d2d := { on.d2d with up := true, bridge := [{ reqs := 2, datas := 2 }] } };
      let u := tick s t; (match u.d2d.bridge with | b :: _ => decide (2 ≤ b.reqs ∧ 2 ≤ b.datas ∧ b.since + 1 ≤ u.now ∧ b.cmd = none ∧ b.write = false) | _ => false),
    let t : Nat := 0;
      let s : State := { on with now := 1, d2d := { on.d2d with up := true, bridge := [{ reqs := 2, datas := 2, cmd := some 7 }, { cmd := some 7 }] } };
      let u := tick s t; (match u.d2d.bridge with | b :: r => decide (2 ≤ b.reqs ∧ 2 ≤ b.datas ∧ b.since + 1 ≤ u.now) && ((match b.cmd with | some id => decide (r.any (fun x => x.cmd == some id) = true) | _ => false)) | _ => false),
    let t : Nat := 0;
      let s : State := { fl { on with now := 1, d2d := { on.d2d with up := true, bridge := [{ reqs := 2, datas := 2, cmd := some 7 }] } } (.access {}) with now := 1 };
      let u := tick s t; (match u.d2d.bridge with | b :: r => decide (2 ≤ b.reqs ∧ 2 ≤ b.datas ∧ b.since + 1 ≤ u.now) && (let w := { u with d2d := { u.d2d with bridge := r } }; (match b.cmd with | some id => decide (r.any (fun x => x.cmd == some id) = false) && ((match jobOf w id with | .access _ => true | _ => false)) | _ => false)) | _ => false)] : List Bool).all id = true := by decide +kernel

/-- Clause by clause, states and operands that meet the hypotheses of `Obligations.TinesPairsAndWatchdogs`. -/
theorem witness_TinesPairsAndWatchdogs_1 : ([
    let b : Nat := 0; let t : Nat := 0; let s : State := on; let u := tick s t; decide (bedIdle u b = true),
    let b : Nat := 0; let t : Nat := 0; let s : State := { on with tin := { on.tin with beds := [(0, { main := [{}] })] } };
      let u := tick s t; decide (bedIdle u b = false),
    let t : Nat := 0; let s : State := on; let u := tick s t;
      let need := (List.range (nBeds u)).any (fun b => !(bed u b).urgent.isEmpty || decide (16 ≤ (bed u b).main.length) || ((bed u b).draining && !(bed u b).main.isEmpty)); decide (need = false),
    let t : Nat := 0;
      let s : State := { on with tin := { on.tin with beds := (List.range 16).map (fun k => (k, { clocked := true, urgent := [{}] })) } };
      let u := tick s t;
      let need := (List.range (nBeds u)).any (fun b => !(bed u b).urgent.isEmpty || decide (16 ≤ (bed u b).main.length) || ((bed u b).draining && !(bed u b).main.isEmpty)); decide (need = true ∧ (runBeds u).find? (fun b => !(bed u b).clocked) = none),
    let t : Nat := 0; let s : State := { on with tin := { on.tin with beds := [(0, { main := List.replicate 16 {} })], inService := true } };
      let u := tick s t;
      let need := (List.range (nBeds u)).any (fun b => !(bed u b).urgent.isEmpty || decide (16 ≤ (bed u b).main.length) || ((bed u b).draining && !(bed u b).main.isEmpty)); decide (need = true) && (((runBeds u).find? (fun b => !(bed u b).clocked)).isSome),
    let n : Nat := 0; let t : Nat := 0; let s : State := on; let u := tick s t; decide (tget u.tin.tines n = none),
    let n : Nat := 0; let t : Nat := 0; let s : State := { on with tin := { on.tin with tines := [(0, {})] } };
      let u := tick s t; (tget u.tin.tines n).isSome,
    let n : Nat := 128; let t : Nat := 0; let s : State := on;
      let u := tick s t; decide ((logicOn u = false ∨ u.tin.fenced.contains n = true ∨ 8 * nBeds u ≤ n)),
    let n : Nat := 127; let t : Nat := 0; let s : State := on;
      let u := tick s t; decide (logicOn u = true ∧ u.tin.fenced.contains n = false ∧ n < 8 * nBeds u ∧ tget u.tin.tines n = none),
    let n : Nat := 0; let t : Nat := 0; let s : State := { on with tin := { on.tin with tines := [(0, { fails := 1 })] } };
      let u := tick s t; decide (logicOn u = true ∧ u.tin.fenced.contains n = false ∧ n < 8 * nBeds u) && ((match tget u.tin.tines n with | some c => decide (c.fails < 2) | _ => false)),
    let n : Nat := 0; let t : Nat := 0; let s : State := { on with tin := { on.tin with tines := [(0, { fails := 2 })] } };
      let u := tick s t; decide (logicOn u = true ∧ u.tin.fenced.contains n = false ∧ n < 8 * nBeds u) && ((match tget u.tin.tines n with | some c => decide (2 ≤ c.fails) | _ => false)),
    let b : Bool := false; let t : Nat := 0; let s : State := { on with mpx := { on.mpx with a := { st := 1 } } }; let u := tick s t;
      let x := mpPair u b; decide ((logicOn u = false ∨ x.st ≠ 0)),
    let b : Bool := false; let t : Nat := 0; let s : State := { on with mpx := { on.mpx with a := { st := 0, mism := [0] } } }; let u := tick s t;
      let x := mpPair u b;
      let m : List Nat := u.now :: x.mism.filter (fun k => u.now < k + 3600000000); decide (logicOn u = true ∧ x.st = 0 ∧ m.length < 3),
    let b : Bool := false; let t : Nat := 0; let s : State := { on with mpx := { on.mpx with a := { st := 0, mism := [0, 0] } } }; let u := tick s t;
      let x := mpPair u b;
      let m : List Nat := u.now :: x.mism.filter (fun k => u.now < k + 3600000000); decide (logicOn u = true ∧ x.st = 0 ∧ 3 ≤ m.length),
    let f : Nat := 0; let t : Nat := 0; let s : State := { own on 0 0x2000 with now := 999999 };
      let u := tick s t; decide ((assisted u f = false ∨ u.now < (func u f).wdAt + 1000 * (func u f).watchdog)),
    let f : Nat := 0; let t : Nat := 0; let s : State := { own on 0 0x2000 with now := 1000000 };
      let u := tick s t; decide (assisted u f = true ∧ (func u f).wdAt + 1000 * (func u f).watchdog ≤ u.now),
    let t : Nat := 0; let s : State := on; let u := tick s t; decide ((u.dev.state = .off ∨ u.nvm.confPending = [])),
    let t : Nat := 0; let s : State := { on with now := 0, nvm := { on.nvm with confPending := [rGauPackCfg] } };
      let u := tick s t; decide (u.dev.state ≠ .off ∧ u.nvm.confPending ≠ [] ∧ (u.nvm.confPending.any keptRw = true ∨ u.nvm.confAt + 14400 ≤ opSecs u)),
    let t : Nat := 0; let s : State := { on with now := 14399000000, nvm := { on.nvm with confPending := [rExlFoCfg], confAt := 0 } };
      let u := tick s t; decide (u.dev.state ≠ .off ∧ u.nvm.confPending ≠ [] ∧ u.nvm.confPending.any keptRw = false ∧ opSecs u < u.nvm.confAt + 14400),
    let n : Nat := 0; let t : Nat := 0; let s : State := on; let u := tick s t; decide ((source u n).inject = none)] : List Bool).all id = true := by decide +kernel

theorem witness_TinesPairsAndWatchdogs_2 : ([
    let n : Nat := 0; let t : Nat := 0;
      let s : State := { fl on (.inject 0 1) with flt := { on.flt with src := [(0, { inject := some { cmd := some 7 } })] } };
      let u := tick s t; (match (source u n).inject with | some j => (match j.cmd with | some id => (match jobOf u id with | .inject _ d => decide (u.now < d) | _ => false) | _ => false) | _ => false),
    let n : Nat := 0; let t : Nat := 0;
      let s : State := { fl on (.inject 0 0) with flt := { on.flt with src := [(0, { inject := some { cmd := some 7 } })] } };
      let u := tick s t; (match (source u n).inject with | some j => (match j.cmd with | some id => (match jobOf u id with | .inject _ d => decide (d ≤ u.now) | _ => false) | _ => false) | _ => false)] : List Bool).all id = true := by decide +kernel

/-- Clause by clause, states and operands that meet the hypotheses of `Obligations.FlashEvents`. -/
theorem witness_FlashEvents_1 : ([
    let tgt : Nat := 0; let t : Nat := 0; let s : State := on; let u := tick s t; decide (tget u.ftl.targets tgt = none),
    let tgt : Nat := 0; let t : Nat := 0; let s : State := { on with now := 0, ftl := { on.ftl with targets := [(0, { failed := true })] } };
      let u := tick s t; (match tget u.ftl.targets tgt with | some x => decide (x.failed = true) | _ => false),
    let tgt : Nat := 0; let t : Nat := 0; let s : State := { on with now := 0, ftl := { on.ftl with targets := [(0, {})] } };
      let u := tick s t; (match tget u.ftl.targets tgt with | some x => decide (x.failed = false) | _ => false),
    let tgt : Nat := 0; let t : Nat := 0; let s : State := { on with now := 0, ftl := { on.ftl with targets := [(0, { polls := 1 })] } };
      let u := tick s t; (match tget u.ftl.targets tgt with | some x => decide (x.failed = false ∧ x.polls < 2) | _ => false),
    let tgt : Nat := 0; let t : Nat := 0; let s : State := { on with now := 0, ftl := { on.ftl with targets := [(0, { polls := 2 })] } };
      let u := tick s t; (match tget u.ftl.targets tgt with | some x => decide (x.failed = false ∧ 2 ≤ x.polls) | _ => false),
    let tgt : Nat := 0; let t : Nat := 0; let temp : Int := 9; let s : State := { on with now := 0, ftl := { on.ftl with targets := [(0, {})] } };
      let u := tick s t; (match tget u.ftl.targets tgt with | some x => decide (x.failed = false ∧ (temp - x.trainTemp).natAbs < 10) | _ => false),
    let tgt : Nat := 0; let t : Nat := 0; let temp : Int := -10; let s : State := { on with now := 0, ftl := { on.ftl with targets := [(0, {})] } };
      let u := tick s t; (match tget u.ftl.targets tgt with | some x => decide (x.failed = false ∧ 10 ≤ (temp - x.trainTemp).natAbs) | _ => false),
    let ws : List (Nat × Nat) := ([] : List (Nat × Nat)); let t : Nat := 0; let s : State := at_ .harvesting;
      let u := tick s t; decide ((u.dev.state = .harvesting ∨ logicOn u = false ∨ ws.any (fun w => engineHeld u (faChan w.2)) = true)),
    let ws : List (Nat × Nat) := ([] : List (Nat × Nat)); let t : Nat := 0; let s : State := on;
      let u := tick s t; decide (u.dev.state ≠ .harvesting ∧ logicOn u = true ∧ ws.any (fun w => engineHeld u (faChan w.2)) = false),
    let t : Nat := 0; let s : State := on;
      let u := tick s t; decide (u.ftl.progs.any (fun p => p.addr.isNone && decide (p.since + 10000 ≤ u.now)) = false),
    let t : Nat := 0; let s : State := (let z := on; { z with now := 10000, ftl := { z.ftl with progs := [{}] } });
      let u := tick s t; decide (u.ftl.progs.any (fun p => p.addr.isNone && decide (p.since + 10000 ≤ u.now)) = true),
    let t : Nat := 0; let s : State := on;
      let u := tick s t; decide ((u.dev.state = .harvesting ∨ logicOn u = false ∨ u.ftl.jbuf = [] ∨ ((match u.ftl.jbufAt with | some a => decide (u.now < a + 200) | none => false) = true) ∨ u.ftl.jbufAt = none)),
    let t : Nat := 0; let s : State := (let z := on; { z with now := 200, ftl := { z.ftl with jbuf := [{}], jbufAt := some 0 } }); let u := tick s t;
      let a := 0; decide (u.dev.state ≠ .harvesting ∧ logicOn u = true ∧ u.ftl.jbuf ≠ [] ∧ u.ftl.jbufAt = some a ∧ a + 200 ≤ u.now),
    let s : State := on; let ws : List (Nat × Nat) := ([] : List (Nat × Nat)); decide (programWork s ws = []),
    let s : State := (let z := on; { z with now := 0, ftl := { z.ftl with planes := 2, progs := [{ why := .save }] } });
      let ws : List (Nat × Nat) := [(0, 0)]; (match programWork s ws with | (g, a) :: r => let pages := programUnit s a (((s.ftl.progs.find? (fun p => p.gran == g && p.addr.isNone)).map (·.why)).getD .drip); let fill := pages.filter (fun x => !((g, a) :: r).any (fun w => w.2 == x)); decide (s.ftl.fill < fill.length) | _ => false),
    let s : State := (let z := on; { z with now := 0, ftl := { z.ftl with planes := 1, progs := [{ why := .save }] } });
      let ws : List (Nat × Nat) := [(0, 0)]; (match programWork s ws with | (g, a) :: r => let pages := programUnit s a (((s.ftl.progs.find? (fun p => p.gran == g && p.addr.isNone)).map (·.why)).getD .drip); let fill := pages.filter (fun x => !((g, a) :: r).any (fun w => w.2 == x)); decide (fill.length ≤ s.ftl.fill ∧ pages.all (pageErased s) = false) | _ => false),
    let s : State := (let z := on; { z with now := 0, ftl := { z.ftl with planes := 1, sbs := [(0, { clean := true })], progs := [{ why := .save }] } });
      let ws : List (Nat × Nat) := [(0, 0)];
      let ok : Bool := true; (match programWork s ws with | (g, a) :: r => let pages := programUnit s a (((s.ftl.progs.find? (fun p => p.gran == g && p.addr.isNone)).map (·.why)).getD .drip); let fill := pages.filter (fun x => !((g, a) :: r).any (fun w => w.2 == x)); decide (fill.length ≤ s.ftl.fill ∧ pages.all (pageErased s) = true ∧ ok = true) | _ => false),
    let k : Nat := 0; let t : Nat := 0; let s : State := on;
      let u := tick s t; decide ((mayErase u k = false ∨ (members u k).any (fun tk => engineHeld u (tk / 16)) = true)),
    let k : Nat := 0; let t : Nat := 0; let s : State := (let z := on; { z with now := 0, ftl := { z.ftl with sbs := [(0, {})] } });
      let u := tick s t; decide (mayErase u k = true ∧ (members u k).any (fun tk => engineHeld u (tk / 16)) = false),
    let k : Nat := 0; let t : Nat := 0; let s : State := (let z := on; { z with now := 0, ftl := { z.ftl with sbs := [(0, {})] } });
      let u := tick s t; decide (mayErase u k = true)] : List Bool).all id = true := by decide +kernel

theorem witness_FlashEvents_2 : ([
    let k : Nat := 0; let t : Nat := 0; let s : State := (let z := on; { z with now := 0, ftl := { z.ftl with sbs := [(0, {})] } });
      let u := tick s t; let x := sb u k; decide (mayErase u k = true ∧ x.role ≠ .metadata),
    let k : Nat := 0; let t : Nat := 0; let s : State := on; let u := tick s t;
      let tk := 0; decide ((mayEraseBlock u (tk * 8192 + memberBlock u tk k) = false ∨ engineHeld u (tk / 16) = true)),
    let k : Nat := 0; let t : Nat := 0;
      let s : State := (let z := on; { z with now := 0, ftl := { z.ftl with blocks := [(0, { queued := true })] } }); let u := tick s t;
      let tk := 0; decide (mayEraseBlock u (tk * 8192 + memberBlock u tk k) = true ∧ engineHeld u (tk / 16) = false),
    let failed : List Nat := [0]; let tk := 0; decide (failed.contains tk = true),
    let k : Nat := 0; let t : Nat := 0; let failed : List Nat := ([] : List Nat); let s : State := on; let u := tick s t; let tk := 0;
      let b := tk * 8192 + memberBlock u tk k; decide (failed.contains tk = false ∧ (block (blockErased u b) b).erases ≠ 65535),
    let k : Nat := 0; let t : Nat := 0; let failed : List Nat := ([] : List Nat);
      let s : State := (let z := on; { z with now := 0, ftl := { z.ftl with blocks := [(0, { erases := 65535 })] } }); let u := tick s t; let tk := 0;
      let b := tk * 8192 + memberBlock u tk k; decide (failed.contains tk = false ∧ (block (blockErased u b) b).erases = 65535),
    let a : Nat := 0; let t : Nat := 0; let s : State := on; let u := tick s t;
      let held := engineHeld u (faChan a); decide ((tget u.ftl.pages a = none ∨ held = true)),
    let a : Nat := 0; let t : Nat := 0; let r : FlashRead := ({} : FlashRead);
      let s : State := (let z := on; { z with now := 0, ftl := { z.ftl with pages := [(0, stamped on { allot := 0xFFFF })] } }); let u := tick s t;
      let e := readAt u a r; let held := engineHeld u (faChan a); decide (tget u.ftl.pages a ≠ none ∧ held = false ∧ readFailed e = false),
    let a : Nat := 0; let t : Nat := 0; let r : FlashRead := ({ mism := 19 } : FlashRead);
      let s : State := (let z := on; { z with now := 0, ftl := { z.ftl with pages := [(0, stamped on { allot := 0xFFFF })] } }); let u := tick s t;
      let e := readAt u a r; let w := judgeDisturb (countRead u a r.effort e) a;
      let held := engineHeld u (faChan a); decide (tget u.ftl.pages a ≠ none ∧ held = false ∧ readFailed e = true) && (let w := raise w (0x0C0 + 4 * faChan a) (ueDetail a); let waits := w.ftl.progs.find? (fun p => p.why == .move && p.addr.isNone && !p.dram && p.src.addr == a); decide (waits = none)),
    let a : Nat := 0; let t : Nat := 0; let r : FlashRead := ({ mism := 19 } : FlashRead);
      let s : State := (let z := on; { z with now := 0, ftl := { z.ftl with pages := [(0, stamped on { allot := 0xFFFF })], progs := [{ why := .move }] } });
      let u := tick s t; let e := readAt u a r; let w := judgeDisturb (countRead u a r.effort e) a;
      let held := engineHeld u (faChan a); decide (tget u.ftl.pages a ≠ none ∧ held = false ∧ readFailed e = true) && (let w := raise w (0x0C0 + 4 * faChan a) (ueDetail a); let waits := w.ftl.progs.find? (fun p => p.why == .move && p.addr.isNone && !p.dram && p.src.addr == a); (waits).isSome),
    let a : Nat := 0; let t : Nat := 0; let s : State := at_ .off;
      let u := tick s t; decide ((serving u = false ∨ tget u.ftl.pages a = none ∨ loopsRun u true = false)),
    let a : Nat := 0; let t : Nat := 0; let r : FlashRead := ({ mism := 19 } : FlashRead);
      let s : State := (let z := on; { z with now := 0, ftl := { z.ftl with pages := [(0, stamped on { allot := 0xFFFF })] } }); let u := tick s t;
      let e := readAt u a r; decide (serving u = true ∧ tget u.ftl.pages a ≠ none ∧ loopsRun u true = true ∧ readFailed e = true),
    let a : Nat := 0; let t : Nat := 0; let r : FlashRead := ({ mism := 18 } : FlashRead);
      let s : State := (let z := on; { z with now := 0, ftl := { z.ftl with pages := [(0, stamped on { allot := 0xFFFF })] } }); let u := tick s t;
      let e := readAt u a r;
      let w := judgeDisturb (countRead u a r.effort e) a; decide (serving u = true ∧ tget u.ftl.pages a ≠ none ∧ loopsRun u true = true) && (let sticky := (block w (blkKey a)).sticky; decide (readFailed e = false ∧ sticky = 15)),
    let a : Nat := 0; let t : Nat := 0; let r : FlashRead := ({ mism := 6 } : FlashRead);
      let s : State := (let z := on; { z with now := 0, ftl := { z.ftl with pages := [(0, stamped on { allot := 0xFFFF })] } }); let u := tick s t;
      let e := readAt u a r;
      let w := judgeDisturb (countRead u a r.effort e) a; decide (serving u = true ∧ tget u.ftl.pages a ≠ none ∧ loopsRun u true = true) && (let sticky := (block w (blkKey a)).sticky; decide (readFailed e = false ∧ sticky ≠ 15 ∧ (2 ≤ r.effort ∨ 3 ≤ sticky ∨ tooOld w a = true))),
    let a : Nat := 0; let t : Nat := 0; let r : FlashRead := ({ mism := 5 } : FlashRead);
      let s : State := (let z := on; { z with now := 0, ftl := { z.ftl with pages := [(0, stamped on { allot := 0xFFFF })] } }); let u := tick s t;
      let e := readAt u a r;
      let w := judgeDisturb (countRead u a r.effort e) a; decide (serving u = true ∧ tget u.ftl.pages a ≠ none ∧ loopsRun u true = true) && (let sticky := (block w (blkKey a)).sticky; decide (readFailed e = false ∧ r.effort < 2 ∧ sticky < 3 ∧ tooOld w a = false)),
    let g : Nat := 0; let t : Nat := 0; let s : State := on; let u := tick s t;
      let ready := u.ftl.progs.find? (fun p => p.gran == g && p.why == .move && p.seq.isSome); decide (ready = none),
    let g : Nat := 0; let t : Nat := 0;
      let s : State := { on with now := 0, ftl := { on.ftl with progs := [{ why := .move, seq := some 1 }], map := [(0, { gen := 1 })] } };
      let u := tick s t;
      let ready := u.ftl.progs.find? (fun p => p.gran == g && p.why == .move && p.seq.isSome); (match ready with | some p => decide (mapEnt u g ≠ p.src) | _ => false),
    let g : Nat := 0; let t : Nat := 0;
      let s : State := { on with now := 0, ftl := { on.ftl with progs := [{ why := .move, seq := some 1, dram := true }] } }; let u := tick s t;
      let ready := u.ftl.progs.find? (fun p => p.gran == g && p.why == .move && p.seq.isSome); (match ready with | some p => decide (mapEnt u g = p.src ∧ p.dram = true ∧ p.moving = false) | _ => false),
    let g : Nat := 0; let t : Nat := 0; let s : State := { on with now := 0, ftl := { on.ftl with progs := [{ why := .move, seq := some 1 }] } };
      let u := tick s t;
      let ready := u.ftl.progs.find? (fun p => p.gran == g && p.why == .move && p.seq.isSome); (match ready with | some p => decide (mapEnt u g = p.src ∧ (p.dram = false ∨ p.moving = true)) | _ => false),
    let t : Nat := 0; let s : State := at_ .off; let u := tick s t; decide (serving u = false)] : List Bool).all id = true := by decide +kernel

theorem witness_FlashEvents_3 : ([
    let t : Nat := 0; let s : State := on; let u := tick s t; decide (opSecs u < u.ftl.rotatedAt + 2592000),
    let t : Nat := 0; let s : State := on; let u := tick s t; decide ((u.ftl.sbs = [] ∨ loopDue u false 5 1000000 10000000 = false)),
    let t : Nat := 0; let s : State := { on with now := 0, ftl := { on.ftl with sbs := [(0, {})] } };
      let u := tick s t; decide (serving u = true ∧ u.ftl.sbs ≠ [] ∧ loopDue u false 5 1000000 10000000 = true),
    let t : Nat := 0; let s : State := { on with now := 2592000000000, ftl := { on.ftl with rotatedAt := 0 } };
      let u := tick s t; decide (serving u = true ∧ u.ftl.rotatedAt + 2592000 ≤ opSecs u),
    let seg : Nat := 0; let t : Nat := 0; let s : State := on; let u := tick s t; decide (oldestSeg u ≠ some seg),
    let seg : Nat := 0; let t : Nat := 0;
      let s : State := (let z := on; { z with now := 0, ftl := { z.ftl with journal := [{ typ := 1, seq := 1 }] } });
      let u := tick s t; decide (serving u = true ∧ oldestSeg u = some seg),
    (let s := (let z := on; { z with now := 0, ftl := { z.ftl with sbs := [(0, {})] } }); decide (serving (tick s 0) = true) && (match exec (.gcVictimChoice 0) s with | .next y => decide (freeSb y ≠ 0) | _ => false)),
    (let s := (let z := on; { z with now := 0, ftl := { z.ftl with sbs := [(0, { role := .harvest })] } }); decide (serving (tick s 0) = true) && (match exec (.gcVictimChoice 0) s with | .next y => decide (freeSb y = 0 ∧ y.ftl.sbs ≠ []) | _ => false))] : List Bool).all id = true := by decide +kernel

/-- Clause by clause, states and operands that meet the hypotheses of `Obligations.SublinksTrainAndAreLost`. -/
theorem witness_SublinksTrainAndAreLost_1 : ([
    let k : Nat := 0; let t : Nat := 0; let s : State := { on with exl := { on.exl with subs := [(0, { st := 1 })] } }; let u := tick s t;
      let v := startTrainings u; decide ((subl v k).st = 1 ∧ k < nSub v),
    let k : Nat := 4; let t : Nat := 0; let s : State := on; let u := tick s t;
      let v := startTrainings u; decide (((¬ (subl v k).st = 1) ∨ nSub v ≤ k)),
    let k : Nat := 0; let t : Nat := 0; let s : State := { on with exl := { on.exl with subs := [(0, { st := 2 })] } }; let u := tick s t;
      let x := subl u k; decide (x.st = 2 ∧ k < nSub u),
    let k : Nat := 0; let t : Nat := 0; let s : State := on; let u := tick s t; let x := subl u k; decide (((¬ x.st = 2) ∨ nSub u ≤ k)),
    (let lanes : List (Nat × Nat × Bool) := (List.range 8).map (fun i => (0, i, false)); let u := tick (let z := on; { z with now := 0, exl := { z.exl with subs := [(0, { st := 3 })] } }) 0; decide ((subl u 0).st = 3 ∧ 0 < nSub u ∧ lanes.length = 8 ∧ lanes.all (fun p => p.1 == (lanes.headD (0, 0, false)).1 && decide (p.1 < 4)) = true ∧ (List.range 8).all (fun i => lanes.any (fun p => p.2.1 == i)) = true)),
    (let lanes : List (Nat × Nat × Bool) := (List.range 8).map (fun i => (i, 0, false)); let u := tick (let z := on; { z with now := 0, exl := { z.exl with subs := [(0, { st := 3 })] } }) 0; decide ((subl u 0).st = 3 ∧ 0 < nSub u ∧ ¬(lanes.length = 8 ∧ lanes.all (fun p => p.1 == (lanes.headD (0, 0, false)).1 && decide (p.1 < 4)) = true ∧ (List.range 8).all (fun i => lanes.any (fun p => p.2.1 == i)) = true))),
    let k : Nat := 0; let t : Nat := 0; let s : State := on; let u := tick s t; let x := subl u k; decide (((¬ x.st = 4) ∨ nSub u ≤ k)),
    let k : Nat := 0; let t : Nat := 0; let s : State := { on with exl := { on.exl with subs := [(0, { st := 4 })], session := true } };
      let u := tick s t; let x := subl u k;
      let go := fun (w : State) (n : Nat) => judgeLink (modSub w k (fun y => { y with st := n, stAt := w.now, goodAt := w.now })); decide (x.st = 4 ∧ k < nSub u) && (let w := go u 5; decide (w.exl.session = true)),
    let k : Nat := 0; let t : Nat := 0; let s : State := { on with exl := { on.exl with subs := [(0, { st := 4 })] } }; let u := tick s t;
      let x := subl u k;
      let go := fun (w : State) (n : Nat) => judgeLink (modSub w k (fun y => { y with st := n, stAt := w.now, goodAt := w.now })); decide (x.st = 4 ∧ k < nSub u) && (let w := go u 5; decide (w.exl.session = false)),
    let k : Nat := 0; let t : Nat := 0; let s : State := on; let u := tick s t; let x := subl u k; decide (((¬ x.st = 5) ∨ nSub u ≤ k)),
    let k : Nat := 0; let t : Nat := 0; let s : State := { on with exl := { on.exl with subs := [(0, { st := 5 })], session := true } };
      let u := tick s t; let x := subl u k; decide (x.st = 5 ∧ k < nSub u ∧ u.exl.session = true),
    let k : Nat := 0; let t : Nat := 0; let s : State := { on with exl := { on.exl with subs := [(0, { st := 5 })] } }; let u := tick s t;
      let x := subl u k; decide (x.st = 5 ∧ k < nSub u ∧ u.exl.session = false ∧ u.exl.hello = none),
    let k : Nat := 0; let t : Nat := 0; let s : State := { on with exl := { on.exl with subs := [(0, { st := 5 })], hello := some {} } };
      let u := tick s t;
      let x := subl u k; decide (x.st = 5 ∧ k < nSub u ∧ u.exl.session = false) && ((match u.exl.hello with | some _ => decide ((u.exl.paired = false ∨ u.exl.pairWait.isSome = true)) | _ => false)),
    let k : Nat := 0; let t : Nat := 0;
      let s : State := { on with exl := { on.exl with subs := [(0, { st := 5 })], hello := some {}, paired := true, proved := true } };
      let u := tick s t;
      let x := subl u k; decide (x.st = 5 ∧ k < nSub u ∧ u.exl.session = false) && ((match u.exl.hello with | some _ => decide (u.exl.paired = true ∧ u.exl.pairWait = none ∧ u.exl.proved = true) | _ => false)),
    let k : Nat := 0; let t : Nat := 0;
      let s : State := { on with exl := { on.exl with subs := [(0, { st := 5 })], hello := some {}, paired := true } }; let u := tick s t;
      let x := subl u k; decide (x.st = 5 ∧ k < nSub u ∧ u.exl.session = false) && ((match u.exl.hello with | some _ => decide (u.exl.paired = true ∧ u.exl.pairWait = none ∧ u.exl.proved = false) | _ => false)),
    let k : Nat := 0; let t : Nat := 0;
      let s : State := { on with exl := { on.exl with subs := [(0, { st := 5 })], hello := some {}, paired := true } }; let u := tick s t;
      let x := subl u k; decide (x.st = 5 ∧ k < nSub u ∧ u.exl.session = false) && ((match u.exl.hello with | some _ => decide (u.exl.paired = true ∧ u.exl.pairWait = none) | _ => false)),
    let k : Nat := 0; let t : Nat := 0; let s : State := { on with exl := { on.exl with subs := [(0, { st := 5 })], err := 5 } }; let u := tick s t;
      let x := subl u k;
      let bound := match x.st with | 2 => 200000 | 3 => 10000 | 4 => 1000 | _ => 100000; decide ((x.st < 2 ∨ 5 < x.st ∨ nSub u ≤ k ∨ u.now < x.stAt + bound ∨ (x.st = 5 ∧ u.exl.err = 5))),
    let k : Nat := 0; let t : Nat := 0; let s : State := (let z := on; { z with now := 200000, exl := { z.exl with subs := [(0, { st := 2 })] } });
      let u := tick s t; let x := subl u k;
      let bound := match x.st with | 2 => 200000 | 3 => 10000 | 4 => 1000 | _ => 100000; decide (2 ≤ x.st ∧ x.st < 5 ∧ k < nSub u ∧ x.stAt + bound ≤ u.now),
    let k : Nat := 0; let t : Nat := 0;
      let s : State := (let z := on; { z with now := 100000, exl := { z.exl with subs := [(0, { st := 5 })], hello := some {}, paired := true } });
      let u := tick s t; let x := subl u k;
      let bound := match x.st with | 2 => 200000 | 3 => 10000 | 4 => 1000 | _ => 100000; decide (x.st = 5 ∧ k < nSub u ∧ x.stAt + bound ≤ u.now ∧ u.exl.err ≠ 5 ∧ (u.exl.paired = true ∧ u.exl.session = false ∧ u.exl.proved = false ∧ u.exl.hello.isSome = true ∧ u.exl.err = 0)),
    let k : Nat := 0; let t : Nat := 0; let s : State := (let z := on; { z with now := 100000, exl := { z.exl with subs := [(0, { st := 5 })] } });
      let u := tick s t; let x := subl u k;
      let bound := match x.st with | 2 => 200000 | 3 => 10000 | 4 => 1000 | _ => 100000; decide (x.st = 5 ∧ k < nSub u ∧ x.stAt + bound ≤ u.now ∧ u.exl.err ≠ 5 ∧ (u.exl.paired = false ∨ u.exl.session = true ∨ u.exl.proved = true ∨ u.exl.hello = none ∨ u.exl.err ≠ 0))] : List Bool).all id = true := by decide +kernel

theorem witness_SublinksTrainAndAreLost_2 : ([
    let k : Nat := 0; let t : Nat := 0; let s : State := on; let u := tick s t;
      let x := subl u k; decide ((x.st ≠ 0 ∨ x.waitRetrain = false ∨ u.now < x.stAt + 100000)),
    let k : Nat := 0; let t : Nat := 0;
      let s : State := (let z := on; { z with now := 100000, exl := { z.exl with subs := [(0, { waitRetrain := true })] } }); let u := tick s t;
      let x := subl u k; decide (x.st = 0 ∧ x.waitRetrain = true ∧ x.stAt + 100000 ≤ u.now ∧ mayTrain u k = true),
    let k : Nat := 0; let t : Nat := 0;
      let s : State := (let z := at_ .off; { z with now := 100000, exl := { z.exl with subs := [(0, { waitRetrain := true })] } }); let u := tick s t;
      let x := subl u k; decide (x.st = 0 ∧ x.waitRetrain = true ∧ x.stAt + 100000 ≤ u.now ∧ mayTrain u k = false),
    let k : Nat := 0; let t : Nat := 0; let s : State := on; let u := tick s t; let x := subl u k; decide ((x.st ≠ 7 ∨ u.now < x.stAt + 10000000)),
    let k : Nat := 0; let t : Nat := 0; let s : State := (let z := on; { z with now := 10000000, exl := { z.exl with subs := [(0, { st := 7 })] } });
      let u := tick s t; let x := subl u k; decide (x.st = 7 ∧ x.stAt + 10000000 ≤ u.now),
    let k : Nat := 0; let t : Nat := 0; let s : State := on; let u := tick s t; let x := subl u k; decide ((x.st ≠ 6 ∨ u.now < x.goodAt + 4)),
    let k : Nat := 0; let t : Nat := 0; let s : State := (let z := on; { z with now := 4, exl := { z.exl with subs := [(0, { st := 6 })] } });
      let u := tick s t; let x := subl u k; decide (x.st = 6 ∧ x.goodAt + 4 ≤ u.now)] : List Bool).all id = true := by decide +kernel

/-- Clause by clause, states and operands that meet the hypotheses of `Obligations.FlitsAreReplayedAndGroupsVerified`. -/
theorem witness_FlitsAreReplayedAndGroupsVerified : ([
    let s : State := on; let f : FlitIn := ({} : FlitIn);
      let x := subl s f.sub; decide ((¬ (f.sub < nSub s ∧ (x.st = 5 ∨ x.st = 6) ∧ logicOn s = true))),
    let s : State := (let z := on; { z with now := 0, exl := { z.exl with subs := [(0, { st := 6 })] } }); let typ : Nat := 2;
      let f : FlitIn := ({} : FlitIn);
      let x := subl s f.sub; decide ((f.sub < nSub s ∧ (x.st = 5 ∨ x.st = 6) ∧ logicOn s = true) ∧ flitGood typ f = false),
    let s : State := (let z := on; { z with now := 0, exl := { z.exl with subs := [(0, { st := 6, good := 62 })] } }); let typ : Nat := 2;
      let f : FlitIn := flit 2 {};
      let x := subl s f.sub; decide ((f.sub < nSub s ∧ (x.st = 5 ∨ x.st = 6) ∧ logicOn s = true) ∧ flitGood typ f = true ∧ f.seq = x.expect ∧ x.good < 63),
    let s : State := (let z := on; { z with now := 0, exl := { z.exl with subs := [(0, { st := 5, good := 63 })] } }); let typ : Nat := 2;
      let f : FlitIn := flit 2 {};
      let x := subl s f.sub; decide ((f.sub < nSub s ∧ (x.st = 5 ∨ x.st = 6) ∧ logicOn s = true) ∧ flitGood typ f = true ∧ f.seq = x.expect ∧ 63 ≤ x.good),
    let s : State := (let z := on; { z with now := 0, exl := { z.exl with subs := [(0, { st := 6 })] } }); let typ : Nat := 2;
      let f : FlitIn := flit 2 { seq := 2048 };
      let x := subl s f.sub; decide ((f.sub < nSub s ∧ (x.st = 5 ∨ x.st = 6) ∧ logicOn s = true) ∧ flitGood typ f = true ∧ f.seq ≠ x.expect ∧ (x.skipping = true ∨ (x.expect + 4096 - f.seq % 4096) % 4096 ≤ 2048)),
    let s : State := (let z := on; { z with now := 0, exl := { z.exl with subs := [(0, { st := 6 })] } }); let typ : Nat := 2;
      let f : FlitIn := flit 2 { seq := 2047 };
      let x := subl s f.sub; decide ((f.sub < nSub s ∧ (x.st = 5 ∨ x.st = 6) ∧ logicOn s = true) ∧ flitGood typ f = true ∧ f.seq ≠ x.expect ∧ x.skipping = false ∧ 2048 < (x.expect + 4096 - f.seq % 4096) % 4096),
    ([1, 2].all (fun k => let r := takeSeq (tick (let z := on; { z with now := 0, exl := { z.exl with subs := [(0, { st := 6 })] } }) 0) k (flit k { seq := 1 }); !r.2)),
    ([1, 2].all (fun k => let r := takeSeq (tick (let z := on; { z with now := 0, exl := { z.exl with subs := [(0, { st := 6 })], session := true } }) 0) k (flit k {}); r.2 && r.1.exl.session)),
    ([1, 2].all (fun k => let r := takeSeq (tick (let z := on; { z with now := 0, exl := { z.exl with subs := [(0, { st := 6 })] } }) 0) k (flit k {}); r.2 && !r.1.exl.session)),
    let k : Nat := 4; let t : Nat := 0; let s : State := (let z := on; { z with now := 0, exl := { z.exl with subs := [(0, { st := 6 })] } });
      let u := tick s t; let x := subl u k; decide ((nSub u ≤ k ∨ (¬ (x.st = 5 ∨ x.st = 6)))),
    let k : Nat := 0; let t : Nat := 0; let s : State := (let z := on; { z with now := 0, exl := { z.exl with subs := [(0, { st := 6 })] } });
      let u := tick s t; let x := subl u k; decide (k < nSub u ∧ (x.st = 5 ∨ x.st = 6)),
    let k : Nat := 0; let seq : Nat := 0; let t : Nat := 0;
      let s : State := (let z := on; { z with now := 0, exl := { z.exl with subs := [(0, { st := 6 })] } }); let u := tick s t; let x := subl u k;
      let has := x.replay.any (fun f => f.1 == seq); decide (has = false),
    let k : Nat := 0; let seq : Nat := 0; let t : Nat := 0;
      let s : State := (let z := on; { z with now := 0, exl := { z.exl with subs := [(0, { replay := [(0, [])] })] } }); let u := tick s t;
      let x := subl u k; let has := x.replay.any (fun f => f.1 == seq); decide (has = true),
    let k : Nat := 4; let t : Nat := 0; let s : State := (let z := on; { z with now := 0, exl := { z.exl with subs := [(0, { st := 6 })] } });
      let u := tick s t; decide (nSub u ≤ k),
    let k : Nat := 0; let seq : Nat := 0; let t : Nat := 0;
      let s : State := (let z := on; { z with now := 0, exl := { z.exl with subs := [(0, { st := 6 })] } }); let u := tick s t; let x := subl u k;
      let has := x.replay.any (fun f => f.1 == seq); decide (k < nSub u ∧ has = false),
    let k : Nat := 0; let seq : Nat := 0; let t : Nat := 0;
      let s : State := (let z := on; { z with now := 0, exl := { z.exl with subs := [(0, { replay := [(0, [])] })] } }); let u := tick s t;
      let x := subl u k; let has := x.replay.any (fun f => f.1 == seq); decide (k < nSub u ∧ has = true),
    let k : Nat := 0; let t : Nat := 0; let s : State := (let z := on; { z with now := 0, exl := { z.exl with subs := [(0, { st := 6 })] } });
      let u := tick s t; let x := subl u k; decide ((x.replay = [] ∨ nSub u ≤ k ∨ u.now < x.ackAt + 5)),
    let k : Nat := 0; let t : Nat := 0;
      let s : State := (let z := on; { z with now := 5, exl := { z.exl with subs := [(0, { replay := [(0, [])] })] } }); let u := tick s t;
      let x := subl u k; decide (x.replay ≠ [] ∧ k < nSub u ∧ x.ackAt + 5 ≤ u.now),
    let s : State := { on with exl := { on.exl with subs := [(0, { replays := 6 })] } }; let k : Nat := 0; decide ((subl s k).replays < 7),
    let s : State := { on with exl := { on.exl with subs := [(0, { replays := 7 })] } }; let k : Nat := 0; decide (7 ≤ (subl s k).replays)] : List Bool).all id = true := by decide +kernel

/-- Clause by clause, states and operands that meet the hypotheses of `Obligations.LinkMessagesAct`. -/
theorem witness_LinkMessagesAct_1 : ([
    (let r := takeSeq (tick (let z := on; { z with now := 0, exl := { z.exl with subs := [(0, { st := 6 })], session := true } }) 0) 1 (flit 1 {}); r.2 && r.1.exl.session),
    (let r := takeSeq (tick (let z := on; { z with now := 0, exl := { z.exl with subs := [(0, { st := 6 })], session := true } }) 0) 2 (flit 2 {}); r.2 && r.1.exl.session),
    (let r := takeSeq (tick (let z := on; { z with now := 0, exl := { z.exl with subs := [(0, { st := 6, group := [.credit 0 0] })], session := true } }) 0) 3 (flit 3 {}); let w := r.1; let v := ack (modSub w 0 (fun y => { y with group := [] })) 0; r.2 && decide (w.exl.session = true ∧ (subl w 0).group = [.credit 0 0] ∧ (subl v 0).st = 6 ∧ v.exl.session = true)),
    let s : State := { on with ldg := { on.ldg with closed := true } }; decide (s.ldg.closed = true),
    let s : State := on; let k : Nat := 0;
      let r : MirRec := ({} : MirRec); decide (s.ldg.closed = false ∧ ((subl s k).granted = 0 ∨ recordInside s r = false)),
    let s : State := (alT { on with exl := { on.exl with subs := [(0, { granted := 1 })] } } 1 { extents := [0], mirrored := true });
      let k : Nat := 0; let r : MirRec := ({} : MirRec); decide (s.ldg.closed = false ∧ (subl s k).granted ≠ 0 ∧ recordInside s r = true),
    let s : State := on; let j := 0; let n := 1; decide ((nSub s ≤ j ∨ (subl s j).sent < n)),
    let s : State := on; let j := 0; let n := 0; decide (j < nSub s ∧ n ≤ (subl s j).sent),
    let s : State := on; let j := 0; let n := 0; decide (j < nSub s ∧ n ≤ (subl s j).sent),
    let s : State := on; let j := 4; decide (nSub s ≤ j),
    let s : State := on; let j := 3; decide (j < nSub s),
    let gs := List.replicate 61 0; decide ((gs = [] ∨ 60 < gs.length)),
    let gs := List.replicate 60 0; decide (gs ≠ [] ∧ gs.length ≤ 60),
    let l := List.replicate 31 0; decide ((l = [] ∨ 30 < l.length)),
    let l := List.replicate 30 0; decide (l ≠ [] ∧ l.length ≤ 30),
    let s : State := on; let j := 4; decide (nSub s ≤ j),
    let s : State := { on with ldg := { on.ldg with closed := true } }; let j := 3; decide (j < nSub s ∧ s.ldg.closed = true),
    let s : State := on; let j := 3; decide (j < nSub s ∧ s.ldg.closed = false),
    let s : State := { on with exl := { on.exl with rekey := some (0, 0) } }; decide (s.exl.rekey ≠ none),
    let s : State := on; decide (s.exl.rekey = none)] : List Bool).all id = true := by decide +kernel

theorem witness_LinkMessagesAct_2 : ([
    let m : TableMsg := ({ part := 1, extents := List.replicate 59 0 } : TableMsg); decide ((1 < m.part ∨ (m.part = 1 ∧ 58 < m.extents.length))),
    let m : TableMsg := ({ part := 1, extents := List.replicate 58 0 } : TableMsg); decide ((m.part = 0 ∨ (m.part = 1 ∧ m.extents.length ≤ 58))),
    let p := 4; decide (3 < p),
    let p := 0; decide (p = 0),
    let s : State := { on with exl := { on.exl with txs := [{ mine := true, phase := 1 }] } }; let id := 0;
      let p := 3; decide (p = 3) && ((s.exl.txs.find? (fun t => t.mine && t.id == id && t.phase < 2)).isSome),
    let s : State := { on with ldg := { on.ldg with closed := true } }; decide (s.ldg.closed = true),
    let s : State := on; decide (s.ldg.closed = false),
    let s : State := fl on (.flush {}); let tag := 7; let j := ({} : FlushJob); decide (jobOf s tag = .flush j),
    let l := List.replicate 23 (0, 0, 0); decide (22 < l.length),
    let l := List.replicate 22 (0, 0, 0); decide (l.length ≤ 22),
    let n := 65; decide ((n = 0 ∨ 64 < n)),
    let s : State := on; let e := 0; let n := 64; decide (0 < n ∧ n ≤ 64 ∧ (s.exl.compares.any (fun c => c.epoch == e) = true ∨ e ≤ s.exl.epoch)),
    let s : State := on; let e := 1; let n := 64; decide (0 < n ∧ n ≤ 64 ∧ s.exl.compares.any (fun c => c.epoch == e) = false ∧ s.exl.epoch < e)] : List Bool).all id = true := by decide +kernel

/-- Clause by clause, states and operands that meet the hypotheses of `Obligations.LinkKeysAndPairing`. -/
theorem witness_LinkKeysAndPairing_1 : ([
    let t : Nat := 0; let s : State := on; let u := tick s t; decide ((u.exl.session = false ∨ u.ldg.closed = true ∨ u.now < u.exl.roomAt + 100)),
    let t : Nat := 0; let s : State := (let z := on; { z with now := 100, exl := { z.exl with session := true } });
      let u := tick s t; decide (u.exl.session = true ∧ u.ldg.closed = false ∧ u.exl.roomAt + 100 ≤ u.now),
    (let u := tick on 0; u.exl.mustRekey == false && decide (u.now < u.exl.sessionAt + 86400000000) && u.exl.subs.isEmpty),
    (let u := tick ({ on with now := 86400000000, exl := { on.exl with session := true } }) 0; decide (u.exl.sessionAt + 86400000000 ≤ u.now)),
    let t : Nat := 0; let s : State := on;
      let u := tick s t; decide (((match u.exl.rekey with | some r => decide (u.now < r.2 + 100000) | none => true) = true)),
    let t : Nat := 0; let s : State := (let z := on; { z with now := 100000, exl := { z.exl with rekey := some (0, 0) } });
      let u := tick s t; (match u.exl.rekey with | some r => decide (r.2 + 100000 ≤ u.now) | _ => false),
    let k : Nat := 4; let t : Nat := 0; let s : State := on;
      let u := tick s t; decide ((nSub u ≤ k ∨ u.exl.session = false ∨ ((subl u k).txCount < 2 ^ 48 ∧ (subl u k).rxCount < 2 ^ 48))),
    let k : Nat := 3; let t : Nat := 0;
      let s : State := (let z := on; { z with now := 0, exl := { z.exl with session := true, subs := [(3, { txCount := 2 ^ 48 })] } });
      let u := tick s t; decide (k < nSub u ∧ u.exl.session = true ∧ (2 ^ 48 ≤ (subl u k).txCount ∨ 2 ^ 48 ≤ (subl u k).rxCount)),
    let t : Nat := 0; let s : State := on; let u := tick s t; decide (u.exl.pairWait = none),
    let t : Nat := 0; let s : State := { on with now := 0, exl := { on.exl with pairWait := some { deadline := 1 } } };
      let u := tick s t; (match u.exl.pairWait with | some p => decide (u.now < p.deadline) | _ => false),
    let t : Nat := 0; let s : State := { on with now := 0, exl := { on.exl with pairWait := some {} } };
      let u := tick s t; (match u.exl.pairWait with | some p => decide (p.deadline ≤ u.now) | _ => false),
    let s : State := on; decide ((s.exl.session = false ∨ s.exl.rekey ≠ none ∨ 2 ^ 32 ≤ s.exl.sessNext)),
    let s : State := { on with now := 0, exl := { on.exl with session := true, sessNext := 2 ^ 32 - 1 } }; decide (s.exl.session = true ∧ s.exl.rekey = none ∧ s.exl.sessNext < 2 ^ 32),
    let c : TrellisCmd := pk [(32, 1, 2)] [] 0xFFFF;
      let s : State := on; (match started 0x0300 c s with | some (_, f) => decide (1 < pByte f.cmd 32) | _ => false),
    let c : TrellisCmd := pk [(36, 4, 600001)] [] 0xFFFF;
      let s : State := on; (match started 0x0300 c s with | some (_, f) => let ms := pNum f.cmd 36 4; decide (pByte f.cmd 32 ≤ 1 ∧ 600000 < ms) | _ => false),
    let c : TrellisCmd := pk [(36, 4, 600000)] (zeros 47) 0xFFFF;
      let s : State := on; (match started 0x0300 c s with | some (_, f) => let ms := pNum f.cmd 36 4; decide (pByte f.cmd 32 ≤ 1 ∧ ms ≤ 600000 ∧ f.cmd.payLen ≠ 48) | _ => false),
    let c : TrellisCmd := pk [] (zeros 48) 0xFFFF;
      let s : State := { on with now := 0, exl := { on.exl with pairWait := some {} } }; (match started 0x0300 c s with | some (v, f) => let ms := pNum f.cmd 36 4; decide (pByte f.cmd 32 ≤ 1 ∧ ms ≤ 600000 ∧ f.cmd.payLen = 48 ∧ (v.exl.pairWait ≠ none ∨ (¬ (v.exl.paired = false ∨ v.exl.peerRec = pNum f.cmd 24 8 ∨ (pByte f.cmd 32 = 1 ∧ v.exl.session = false))))) | _ => false),
    let c : TrellisCmd := pk [] (zeros 48) 0xFFFF;
      let s : State := on; (match started 0x0300 c s with | some (v, f) => let ms := pNum f.cmd 36 4; decide (pByte f.cmd 32 ≤ 1 ∧ ms ≤ 600000 ∧ f.cmd.payLen = 48 ∧ v.exl.pairWait = none ∧ (v.exl.paired = false ∨ v.exl.peerRec = pNum f.cmd 24 8 ∨ (pByte f.cmd 32 = 1 ∧ v.exl.session = false))) | _ => false),
    let c : TrellisCmd := pk [(24, 1, 2)] [] 0xFFFF;
      let s : State := on; (match started 0x0301 c s with | some (_, f) => decide (1 < pByte f.cmd 24) | _ => false),
    let c : TrellisCmd := pk [] [] 0xFFFF;
      let s : State := on; (match started 0x0301 c s with | some (v, f) => decide (pByte f.cmd 24 ≤ 1 ∧ v.exl.paired = false) | _ => false)] : List Bool).all id = true := by decide +kernel

theorem witness_LinkKeysAndPairing_2 : ([
    let c : TrellisCmd := pk [] [] 0xFFFF;
      let s : State := (alT (pr on false) 1 { mirrored := true }); (match started 0x0301 c s with | some (v, f) => decide (pByte f.cmd 24 = 0 ∧ v.exl.paired = true ∧ mirroredIds v ≠ []) | _ => false),
    let c : TrellisCmd := pk [] [] 0xFFFF;
      let s : State := pr on false; (match started 0x0301 c s with | some (v, f) => decide (v.exl.paired = true ∧ (pByte f.cmd 24 = 1 ∨ (pByte f.cmd 24 = 0 ∧ mirroredIds v = []))) | _ => false)] : List Bool).all id = true := by decide +kernel

/-- Clause by clause, states and operands that meet the hypotheses of `Obligations.TwinCommands`. -/
theorem witness_TwinCommands_1 : ([
    let c : TrellisCmd := pk [(28, 2, 65), (32, 8, 0)] (zeros 24) 0xFFFF;
      let s : State := on; (match started 0x0304 c s with | some (_, f) => let n := pNum f.cmd 28 2; decide ((n = 0 ∨ 64 < n)) | _ => false),
    let c : TrellisCmd := pk [(28, 2, 1), (32, 8, 0)] (zeros 23) 0xFFFF;
      let s : State := on; (match started 0x0304 c s with | some (_, f) => let n := pNum f.cmd 28 2; decide (0 < n ∧ n ≤ 64 ∧ f.cmd.payLen < 24 * n) | _ => false),
    let c : TrellisCmd := pk [(28, 2, 1), (32, 8, 0)] (zeros 24) 1;
      let s : State := on; (match started 0x0304 c s with | some (v, f) => let n := pNum f.cmd 28 2; decide (0 < n ∧ n ≤ 64 ∧ 24 * n ≤ f.cmd.payLen ∧ f.cmd.allot ≠ 0xFFFF ∧ allotOf v f.cmd.allot = none) | _ => false),
    let c : TrellisCmd := pk [(28, 2, 1), (32, 8, 0)] (zeros 24) 0xFFFF;
      let s : State := on; (match started 0x0304 c s with | some (v, f) => let n := pNum f.cmd 28 2; decide (0 < n ∧ n ≤ 64 ∧ 24 * n ≤ f.cmd.payLen ∧ (f.cmd.allot = 0xFFFF ∨ (allotOf v f.cmd.allot).isSome = true) ∧ (v.exl.session = false ∨ v.exl.peerHarvest = true ∨ v.ldg.closed = true)) | _ => false),
    let c : TrellisCmd := pk [(28, 2, 1), (32, 8, 3)] (zeros 24) 0xFFFF;
      let s : State := { on with now := 0, exl := { on.exl with session := true } }; (match started 0x0304 c s with | some (v, f) => let n := pNum f.cmd 28 2; let e := if pNum f.cmd 32 8 = 0 then nextEpoch v else pNum f.cmd 32 8; decide (0 < n ∧ n ≤ 64 ∧ 24 * n ≤ f.cmd.payLen ∧ (f.cmd.allot = 0xFFFF ∨ (allotOf v f.cmd.allot).isSome = true) ∧ v.exl.session = true ∧ v.exl.peerHarvest = false ∧ v.ldg.closed = false ∧ e < v.exl.epoch + 4) | _ => false),
    let c : TrellisCmd := pk [(28, 2, 1), (32, 8, 4)] (zeros 24) 0xFFFF;
      let s : State := { on with now := 0, exl := { on.exl with session := true, compares := [{ epoch := 4 }] } }; (match started 0x0304 c s with | some (v, f) => let n := pNum f.cmd 28 2; let e := if pNum f.cmd 32 8 = 0 then nextEpoch v else pNum f.cmd 32 8; decide (0 < n ∧ n ≤ 64 ∧ 24 * n ≤ f.cmd.payLen ∧ (f.cmd.allot = 0xFFFF ∨ (allotOf v f.cmd.allot).isSome = true) ∧ v.exl.session = true ∧ v.exl.peerHarvest = false ∧ v.ldg.closed = false ∧ v.exl.epoch + 4 ≤ e ∧ v.exl.compares.any (fun d => d.epoch == e) = true) | _ => false),
    let c : TrellisCmd := pk [(28, 2, 1), (32, 8, 4)] (zeros 24) 0xFFFF;
      let s : State := { on with now := 0, exl := { on.exl with session := true } }; (match started 0x0304 c s with | some (v, f) => let n := pNum f.cmd 28 2; let e := if pNum f.cmd 32 8 = 0 then nextEpoch v else pNum f.cmd 32 8; decide (0 < n ∧ n ≤ 64 ∧ 24 * n ≤ f.cmd.payLen ∧ (f.cmd.allot = 0xFFFF ∨ (allotOf v f.cmd.allot).isSome = true) ∧ v.exl.session = true ∧ v.exl.peerHarvest = false ∧ v.ldg.closed = false ∧ v.exl.epoch + 4 ≤ e ∧ v.exl.compares.any (fun d => d.epoch == e) = false) | _ => false),
    let c : TrellisCmd := pk [(24, 1, 4)] [] 0xFFFF;
      let s : State := on; (match started 0x0303 c s with | some (_, f) => let act := pByte f.cmd 24; decide (3 < act) | _ => false),
    let c : TrellisCmd := pk [(24, 1, 0)] [] 0xFFFF;
      let s : State := on; (match started 0x0303 c s with | some (v, f) => let act := pByte f.cmd 24; decide (act = 0 ∧ v.exl.session = false) | _ => false),
    let c : TrellisCmd := pk [(24, 1, 0)] [] 0xFFFF;
      let s : State := { on with now := 0, exl := { on.exl with session := true } }; (match started 0x0303 c s with | some (v, f) => let act := pByte f.cmd 24; decide (act = 0 ∧ v.exl.session = true ∧ v.exl.resyncOn = false) | _ => false),
    let c : TrellisCmd := pk [(24, 1, 0)] [] 0xFFFF;
      let s : State := { on with now := 0, exl := { on.exl with session := true, resyncOn := true } }; (match started 0x0303 c s with | some (v, f) => let act := pByte f.cmd 24; decide (act = 0 ∧ v.exl.session = true ∧ v.exl.resyncOn = true) | _ => false),
    let c : TrellisCmd := pk [(24, 1, 1)] [] 0xFFFF;
      let s : State := on; (match started 0x0303 c s with | some (v, f) => let act := pByte f.cmd 24; decide (act = 1 ∧ owns v f.cmd.est 9 = false) | _ => false),
    let c : TrellisCmd := pk [(24, 1, 1), (28, 4, 99)] [] 0xFFFF;
      let s : State := own on 9 0x2000; (match started 0x0303 c s with | some (v, f) => let act := pByte f.cmd 24; decide (act = 1 ∧ owns v f.cmd.est 9 = true) | _ => false),
    let c : TrellisCmd := hk [(24, 1, 2)];
      let s : State := own (host on) 9 1; (match started 0x0303 c s with | some (_, f) => let act := pByte f.cmd 24; decide (act = 2 ∧ issClass f.cmd.est = 0) | _ => false),
    let c : TrellisCmd := pk [(24, 1, 2)] [] 0xFFFF;
      let s : State := on; (match started 0x0303 c s with | some (_, f) => let act := pByte f.cmd 24; decide (act = 2 ∧ issClass f.cmd.est ≠ 0) | _ => false),
    let c : TrellisCmd := pk [(24, 1, 3)] [] 1;
      let s : State := on; (match started 0x0303 c s with | some (v, f) => let act := pByte f.cmd 24; decide (act = 3 ∧ allotOf v f.cmd.allot = none) | _ => false),
    let c : TrellisCmd := pk [(24, 1, 3)] [] 1;
      let s : State := (alT on 1 { extents := [0], st := .deleting }); (match started 0x0303 c s with | some (v, f) => let act := pByte f.cmd 24; decide (act = 3) && ((match allotOf v f.cmd.allot with | some a => decide (a.st = .deleting) | _ => false)) | _ => false),
    let c : TrellisCmd := pk [(24, 1, 3)] [] 1;
      let s : State := (alT on 1 { extents := [0] }); (match started 0x0303 c s with | some (v, f) => let act := pByte f.cmd 24; decide (act = 3) && ((match allotOf v f.cmd.allot with | some a => decide (a.st ≠ .deleting ∧ v.exl.session = false) | _ => false)) | _ => false),
    let c : TrellisCmd := pk [(24, 1, 3)] [] 1;
      let s : State := (alT { on with now := 0, exl := { on.exl with session := true } } 1 {}); (match started 0x0303 c s with | some (v, f) => let act := pByte f.cmd 24; decide (act = 3) && ((match allotOf v f.cmd.allot with | some a => let id := f.cmd.allot; decide (a.st ≠ .deleting ∧ v.exl.session = true ∧ (a.mirrored = false ∨ a.st ≠ .stale ∨ sourceOf v id ≠ 0 ∨ (tgetD v.exl.peerState id {}).inStep = true)) | _ => false)) | _ => false),
    let c : TrellisCmd := pk [(24, 1, 3)] [] 1;
      let s : State := (alT { on with now := 0, exl := { on.exl with session := true } } 1 { mirrored := true, st := .stale }); (match started 0x0303 c s with | some (v, f) => let act := pByte f.cmd 24; decide (act = 3) && ((match allotOf v f.cmd.allot with | some a => let id := f.cmd.allot; decide (v.exl.session = true ∧ a.mirrored = true ∧ a.st = .stale ∧ sourceOf v id = 0 ∧ (tgetD v.exl.peerState id {}).inStep = false) | _ => false)) | _ => false)] : List Bool).all id = true := by decide +kernel

theorem witness_TwinCommands_2 : ([
    let c : TrellisCmd := pk [(24, 1, 4)] [] 0xFFFF;
      let s : State := on; (match started 0x0302 c s with | some (_, f) => let act := pByte f.cmd 24; decide (3 < act) | _ => false),
    let c : TrellisCmd := pk [(24, 1, 0), (25, 1, 2)] [] 0xFFFF;
      let s : State := on; (match started 0x0302 c s with | some (_, f) => let act := pByte f.cmd 24; decide (act ≤ 3 ∧ 1 < pByte f.cmd 25) | _ => false),
    let c : TrellisCmd := pk [] [] 1;
      let s : State := (alT on 1 { extents := [0], reservation := true }); (match started 0x0302 c s with | some (v, f) => let act := pByte f.cmd 24; let id := f.cmd.allot; decide (act ≤ 3 ∧ pByte f.cmd 25 ≤ 1 ∧ (id ≠ 0xFFFF ∧ ((match allotOf v id with | some a => decide (a.reservation = true) | none => false) = true))) | _ => false),
    let c : TrellisCmd := pk [] [] 1;
      let s : State := (alT on 1 { extents := [0], st := .deleting }); (match started 0x0302 c s with | some (v, f) => let act := pByte f.cmd 24; let id := f.cmd.allot; decide (act ≤ 3 ∧ pByte f.cmd 25 ≤ 1 ∧ (id ≠ 0xFFFF ∧ ((match allotOf v id with | some a => decide (a.reservation = false ∧ a.st = .deleting) | none => false) = true))) | _ => false),
    let c : TrellisCmd := pk [] [] 1;
      let s : State := (alT on 1 { extents := [0], st := .ready }); (match started 0x0302 c s with | some (v, f) => let act := pByte f.cmd 24; let id := f.cmd.allot; decide (act ≤ 3 ∧ pByte f.cmd 25 ≤ 1 ∧ (¬ (id ≠ 0xFFFF ∧ ((match allotOf v id with | some a => decide (a.reservation = true) | none => false) = true))) ∧ (¬ (id ≠ 0xFFFF ∧ ((match allotOf v id with | some a => decide (a.reservation = false ∧ a.st = .deleting) | none => false) = true))) ∧ (¬ (id = 0xFFFF ∨ ((match allotOf v id with | some a => decide (a.mirrored = true ∧ a.reservation = false ∧ a.st ≠ .deleting) | none => false) = true)))) | _ => false),
    let c : TrellisCmd := pk [(24, 1, 0)] [] 0xFFFF;
      let s : State := { on with now := 0, exl := { on.exl with session := true } }; (match started 0x0302 c s with | some (v, f) => let act := pByte f.cmd 24; let id := f.cmd.allot; let force := pByte f.cmd 25 == 1; decide ((act ≤ 3 ∧ pByte f.cmd 25 ≤ 1 ∧ (id = 0xFFFF ∨ ((match allotOf v id with | some a => decide (a.mirrored = true ∧ a.reservation = false ∧ a.st ≠ .deleting) | none => false) = true))) ∧ act = 0) && (let ids := named v id (fun a => !a.serving && (force || a.st != .stale)); decide ((subsUp v ≠ [] ∨ v.exl.session = true ∨ (id ≠ 0xFFFF ∧ ids = [] ∧ staleHere v id = true)))) | _ => false),
    let c : TrellisCmd := pk [(24, 1, 0)] [] 0xFFFF;
      let s : State := { on with now := 0, exl := { on.exl with ackClaim := true } }; (match started 0x0302 c s with | some (v, f) => let act := pByte f.cmd 24; let id := f.cmd.allot; let force := pByte f.cmd 25 == 1; decide ((act ≤ 3 ∧ pByte f.cmd 25 ≤ 1 ∧ (id = 0xFFFF ∨ ((match allotOf v id with | some a => decide (a.mirrored = true ∧ a.reservation = false ∧ a.st ≠ .deleting) | none => false) = true))) ∧ act = 0) && (let ids := named v id (fun a => !a.serving && (force || a.st != .stale)); decide (subsUp v = [] ∧ v.exl.session = false ∧ (id = 0xFFFF ∨ ids ≠ [] ∨ staleHere v id = false) ∧ force = false ∧ v.exl.peerFenced = false ∧ ((¬ ((match v.exl.hbPeerAt with | some u => decide (u + takeoverUs v ≤ v.now) | none => true) = true)) ∨ v.exl.ackClaim = true))) | _ => false),
    let c : TrellisCmd := pk [(24, 1, 0), (25, 1, 1)] [] 0xFFFF;
      let s : State := on; (match started 0x0302 c s with | some (v, f) => let act := pByte f.cmd 24; let id := f.cmd.allot; let force := pByte f.cmd 25 == 1; decide ((act ≤ 3 ∧ pByte f.cmd 25 ≤ 1 ∧ (id = 0xFFFF ∨ ((match allotOf v id with | some a => decide (a.mirrored = true ∧ a.reservation = false ∧ a.st ≠ .deleting) | none => false) = true))) ∧ act = 0) && (let ids := named v id (fun a => !a.serving && (force || a.st != .stale)); decide (subsUp v = [] ∧ v.exl.session = false ∧ (id = 0xFFFF ∨ ids ≠ [] ∨ staleHere v id = false) ∧ (force = true ∨ v.exl.peerFenced = true ∨ (((match v.exl.hbPeerAt with | some u => decide (u + takeoverUs v ≤ v.now) | none => true) = true) ∧ v.exl.ackClaim = false)))) | _ => false),
    let c : TrellisCmd := pk [(24, 1, 1)] [] 0xFFFF;
      let s : State := on; (match started 0x0302 c s with | some (v, f) => let act := pByte f.cmd 24; let id := f.cmd.allot; decide ((act ≤ 3 ∧ pByte f.cmd 25 ≤ 1 ∧ (id = 0xFFFF ∨ ((match allotOf v id with | some a => decide (a.mirrored = true ∧ a.reservation = false ∧ a.st ≠ .deleting) | none => false) = true))) ∧ act = 1 ∧ inStep v = false) | _ => false),
    let c : TrellisCmd := pk [(24, 1, 1), (32, 8, 1)] [] 0xFFFF;
      let s : State := (alT { on with now := 0, exl := { on.exl with session := true, peerState := [(1, { inStep := true })] } } 1 { extents := [0], mirrored := true, serving := true }); (match started 0x0302 c s with | some (v, f) => let act := pByte f.cmd 24; let id := f.cmd.allot; decide ((act ≤ 3 ∧ pByte f.cmd 25 ≤ 1 ∧ (id = 0xFFFF ∨ ((match allotOf v id with | some a => decide (a.mirrored = true ∧ a.reservation = false ∧ a.st ≠ .deleting) | none => false) = true))) ∧ act = 1) && (let e := if pNum f.cmd 32 8 = 0 then v.exl.epoch + 100 else pNum f.cmd 32 8; decide (inStep v = true ∧ e < v.exl.epoch + 2)) | _ => false),
    let c : TrellisCmd := pk [(24, 1, 1), (32, 8, 2)] [] 0xFFFF;
      let s : State := (alT { on with now := 0, exl := { on.exl with session := true, peerState := [(1, { inStep := true })] } } 1 { extents := [0], mirrored := true, serving := false }); (match started 0x0302 c s with | some (v, f) => let act := pByte f.cmd 24; let id := f.cmd.allot; decide ((act ≤ 3 ∧ pByte f.cmd 25 ≤ 1 ∧ (id = 0xFFFF ∨ ((match allotOf v id with | some a => decide (a.mirrored = true ∧ a.reservation = false ∧ a.st ≠ .deleting) | none => false) = true))) ∧ act = 1) && (let e := if pNum f.cmd 32 8 = 0 then v.exl.epoch + 100 else pNum f.cmd 32 8; let ids := (named v id (fun a => a.serving)).filter (fun i => !txPending v i); decide (inStep v = true ∧ v.exl.epoch + 2 ≤ e ∧ ids = [])) | _ => false),
    let c : TrellisCmd := pk [(24, 1, 1), (32, 8, 2)] [] 0xFFFF;
      let s : State := (alT { on with now := 0, exl := { on.exl with session := true, peerState := [(1, { inStep := true })] } } 1 { extents := [0], mirrored := true, serving := true }); (match started 0x0302 c s with | some (v, f) => let act := pByte f.cmd 24; let id := f.cmd.allot; decide ((act ≤ 3 ∧ pByte f.cmd 25 ≤ 1 ∧ (id = 0xFFFF ∨ ((match allotOf v id with | some a => decide (a.mirrored = true ∧ a.reservation = false ∧ a.st ≠ .deleting) | none => false) = true))) ∧ act = 1) && (let e := if pNum f.cmd 32 8 = 0 then v.exl.epoch + 100 else pNum f.cmd 32 8; let ids := (named v id (fun a => a.serving)).filter (fun i => !txPending v i); decide (inStep v = true ∧ v.exl.epoch + 2 ≤ e ∧ ids ≠ [])) | _ => false),
    let c : TrellisCmd := pk [(24, 1, 2)] [] 0xFFFF;
      let s : State := on; (match started 0x0302 c s with | some (v, f) => let act := pByte f.cmd 24; let id := f.cmd.allot; decide ((act ≤ 3 ∧ pByte f.cmd 25 ≤ 1 ∧ (id = 0xFFFF ∨ ((match allotOf v id with | some a => decide (a.mirrored = true ∧ a.reservation = false ∧ a.st ≠ .deleting) | none => false) = true))) ∧ act = 2 ∧ (v.exl.peerClaim = false ∨ v.exl.tookOver = true)) | _ => false),
    let c : TrellisCmd := pk [(24, 1, 2)] [] 0xFFFF;
      let s : State := { on with now := 0, exl := { on.exl with peerClaim := true } }; (match started 0x0302 c s with | some (v, f) => let act := pByte f.cmd 24; let id := f.cmd.allot; decide ((act ≤ 3 ∧ pByte f.cmd 25 ≤ 1 ∧ (id = 0xFFFF ∨ ((match allotOf v id with | some a => decide (a.mirrored = true ∧ a.reservation = false ∧ a.st ≠ .deleting) | none => false) = true))) ∧ act = 2 ∧ v.exl.peerClaim = true ∧ v.exl.tookOver = false) | _ => false),
    let c : TrellisCmd := pk [(24, 1, 3)] [] 0xFFFF;
      let s : State := on; (match started 0x0302 c s with | some (v, f) => let act := pByte f.cmd 24; let id := f.cmd.allot; decide ((act ≤ 3 ∧ pByte f.cmd 25 ≤ 1 ∧ (id = 0xFFFF ∨ ((match allotOf v id with | some a => decide (a.mirrored = true ∧ a.reservation = false ∧ a.st ≠ .deleting) | none => false) = true))) ∧ act = 3) | _ => false)] : List Bool).all id = true := by decide +kernel

/-- Clause by clause, states and operands that meet the hypotheses of `Obligations.TwinTimers`. -/
theorem witness_TwinTimers_1 : ([
    let t : Nat := 0; let s : State := at_ .off; let u := tick s t; decide (logicOn u = false),
    let a : RegAcc := ({ issuer := 1 } : RegAcc); let t : Nat := 0; let s : State := on;
      let u := tick s t; decide (logicOn u = true ∧ (((match a.path with | .mctp _ => false | _ => true) = true) ∨ issClass a.issuer ≠ 2)),
    (let u := tick on 0; logicOn u && decide (issClass 0x2000 = 2 ∧ u.exl.paired = false)),
    (let u := tick (pr on false) 0; logicOn u && u.exl.paired && u.exl.hbPeerAt.isNone),
    let a : RegAcc := ({ issuer := 0x2000 } : RegAcc); let t : Nat := 0; let s : State := on;
      let u := tick s t; decide ((hbEn u = false ∨ u.exl.paired = false ∨ ((match u.exl.hbAt with | some a => decide (u.now < a + hbPeriod u) | none => false) = true))),
    let a : RegAcc := ({ issuer := 0x2000 } : RegAcc); let t : Nat := 0;
      let s : State := { pr on false with regs := tset on.regs rExlFoCfg (BitVec.ofNat 32 (2 ^ 31)) };
      let u := tick s t; decide (hbEn u = true ∧ u.exl.paired = true ∧ logicOn u = true ∧ ((match u.exl.hbAt with | some a => decide (a + hbPeriod u ≤ u.now) | none => true) = true)),
    let t : Nat := 0; let s : State := on; let u := tick s t; decide (u.exl.lossAt = none),
    let t : Nat := 0;
      let s : State := { on with regs := tset on.regs rExlFoCfg (BitVec.ofNat 32 (2 ^ 31 + 2 * 2 ^ 12 + 1)), now := 2000, exl := { on.exl with lossAt := some 0, hbAtLoss := true, peerSince := true } };
      let u := tick s t; (match u.exl.lossAt with | some x => decide (failoverOn u = true ∧ failoverHw u = true ∧ x + claimUs u ≤ u.now ∧ u.exl.claimAcked = false ∧ u.exl.peerSince = true ∧ u.exl.tookOver = false) | _ => false),
    let t : Nat := 0;
      let s : State := { on with regs := tset on.regs rExlFoCfg (BitVec.ofNat 32 (2 ^ 31 + 2 * 2 ^ 12 + 1)), now := 1999, exl := { on.exl with lossAt := some 0, hbAtLoss := true, peerSince := true } };
      let u := tick s t; (match u.exl.lossAt with | some x => decide ((failoverOn u = false ∨ failoverHw u = false ∨ u.now < x + claimUs u ∨ u.exl.claimAcked = true ∨ u.exl.peerSince = false ∨ u.exl.tookOver = true)) | _ => false),
    let t : Nat := 0;
      let s : State := { on with regs := tset on.regs rExlFoCfg (BitVec.ofNat 32 (2 ^ 31 + 2 * 2 ^ 12 + 1)), now := 1000, exl := { on.exl with lossAt := some 0, hbAtLoss := true, } };
      let u := tick s t; (match u.exl.lossAt with | some x => decide (failoverOn u = true ∧ failoverHw u = true ∧ x + takeoverUs u ≤ u.now ∧ u.exl.peerSince = false ∧ u.exl.ackClaim = false) | _ => false),
    let t : Nat := 0;
      let s : State := { on with regs := tset on.regs rExlFoCfg (BitVec.ofNat 32 (2 ^ 31 + 2 * 2 ^ 12 + 1)), now := 999, exl := { on.exl with lossAt := some 0, hbAtLoss := true, } };
      let u := tick s t; (match u.exl.lossAt with | some x => decide ((failoverOn u = false ∨ failoverHw u = false ∨ u.now < x + takeoverUs u ∨ u.exl.peerSince = true ∨ u.exl.ackClaim = true)) | _ => false),
    let t : Nat := 0; let s : State := on; let u := tick s t; decide (u.now < u.exl.epochAt + 999),
    let t : Nat := 0; let s : State := (let z := on; { z with now := 999, exl := { z.exl with epochAt := 0 } });
      let u := tick s t; decide (logicOn u = true ∧ u.exl.epochAt + 999 ≤ u.now),
    let e : Nat := 0; let t : Nat := 0; let s : State := on; let u := tick s t;
      let it := u.exl.compares.find? (fun c => c.epoch == e && c.marked && decide (c.tickAt + 50 ≤ u.now)); decide (it = none),
    let e : Nat := 0; let t : Nat := 0;
      let s : State := (let z := on; { z with now := 50, exl := { z.exl with compares := [{ done := true, marked := true }] } }); let u := tick s t;
      let it := u.exl.compares.find? (fun c => c.epoch == e && c.marked && decide (c.tickAt + 50 ≤ u.now)); (match it with | some c => decide (c.done = true) | _ => false),
    let e : Nat := 0; let t : Nat := 0; let s : State := (let z := on; { z with now := 50, exl := { z.exl with compares := [{ marked := true }] } });
      let u := tick s t;
      let it := u.exl.compares.find? (fun c => c.epoch == e && c.marked && decide (c.tickAt + 50 ≤ u.now)); (match it with | some c => decide (c.done = false) | _ => false),
    let t : Nat := 0; let s : State := on; let u := tick s t;
      let rs := (((u.alt.tab.filter (fun p => p.2.mirrored)).flatMap (fun p => regionsOf p.2)).foldl sins []).filter (mirrorRegion u); decide ((inStep u = false ∨ leads u = false ∨ loopDue u true 4 1000000 10000000 = false ∨ rs = [])),
    (let u := tick (alT { on with now := 0, exl := { on.exl with session := true, peerState := [(1, { inStep := true })] } } 1 { extents := [0], mirrored := true, serving := true }) 0; inStep u && u.mpx.b.st != 1 && mirrorRegion u 0),
    let a : RegAcc := ({ issuer := 0x2000 } : RegAcc); let t : Nat := 0;
      let s : State := { on with mpx := { on.mpx with a := { st := 2 }, b := { st := 2 } } }; let u := tick s t; decide (bothDown u = true),
    let t : Nat := 0; let s : State := on; let u := tick s t; decide (bothDown u = false ∧ loopDue u false 6 1000 10000 = true)] : List Bool).all id = true := by decide +kernel

theorem witness_TwinTimers_2 : ([
    let t : Nat := 0; let s : State := { on with now := 999, mpx := { on.mpx with loopAt := [(6, 0)] } };
      let u := tick s t; decide (bothDown u = false ∧ loopDue u false 6 1000 10000 = false),
    let t : Nat := 0; let s : State := on; let u := tick s t; decide ((u.exl.resyncPaused = false ∨ u.now < u.exl.pausedAt + 1800000000)),
    let t : Nat := 0; let s : State := (let z := on; { z with now := 1800000000, exl := { z.exl with resyncPaused := true } });
      let u := tick s t; decide (u.exl.resyncPaused = true ∧ u.exl.pausedAt + 1800000000 ≤ u.now)] : List Bool).all id = true := by decide +kernel

/-- Clause by clause, states and operands that meet the hypotheses of `Obligations.GaugeEvents`. -/
theorem witness_GaugeEvents_1 : ([
    let t : Nat := 0; let s : State := at_ .off; let u := tick s t; decide ((u.dev.state = .off ∨ u.psq.collapse = true)),
    let t : Nat := 0; let s : State := (let z := on; { z with now := 0, gau := { z.gau with burstAt := some 0 } });
      let u := tick s t; decide (u.dev.state ≠ .off ∧ u.psq.collapse = false) && (let period := match gaugeRate u with | 2 => 1000 | 1 => 31250 | _ => 1000000; decide ((¬ ((match u.gau.burstAt with | some a => decide (a + period ≤ u.now) | none => true) = true)))),
    let t : Nat := 0; let s : State := on;
      let u := tick s t; decide (u.dev.state ≠ .off ∧ u.psq.collapse = false) && (let period := match gaugeRate u with | 2 => 1000 | 1 => 31250 | _ => 1000000; decide (((match u.gau.burstAt with | some a => decide (a + period ≤ u.now) | none => true) = true))),
    let t : Nat := 0; let s : State := on;
      let u := tick s t; decide (u.dev.state ≠ .off ∧ u.psq.collapse = false) && (let period := match gaugeRate u with | 2 => 1000 | 1 => 31250 | _ => 1000000; decide (((match u.gau.burstAt with | some a => decide (a + period ≤ u.now) | none => true) = true) ∧ u.dev.xtalOk = true)),
    let t : Nat := 0; let s : State := { on with dev := { on.dev with xtalOk := false } };
      let u := tick s t; decide (u.dev.state ≠ .off ∧ u.psq.collapse = false) && (let period := match gaugeRate u with | 2 => 1000 | 1 => 31250 | _ => 1000000; decide (((match u.gau.burstAt with | some a => decide (a + period ≤ u.now) | none => true) = true) ∧ u.dev.xtalOk = false)),
    let t : Nat := 0; let s : State := on; let u := tick s t; decide (u.dev.state ≠ .off ∧ u.psq.collapse = false ∧ gaugeRate u = 0),
    let t : Nat := 0; let s : State := { on with gau := { on.gau with hotAt := some 0 } };
      let u := tick s t; decide (u.dev.state ≠ .off ∧ u.psq.collapse = false ∧ gaugeRate u ≠ 0),
    let t : Nat := 0; let s : State := on;
      let u := tick s t; decide (u.dev.state ≠ .off ∧ u.psq.collapse = false ∧ (u.gau.burst = false ∨ ((match u.gau.burstAt with | some a => decide (u.now < a + 250) | none => false) = true))),
    let t : Nat := 0; let s : State := { on with gau := { on.gau with burst := true } };
      let u := tick s t; decide (u.dev.state ≠ .off ∧ u.psq.collapse = false ∧ u.gau.burst = true ∧ (¬ ((match u.gau.burstAt with | some a => decide (u.now < a + 250) | none => false) = true))),
    ({ on with gau := { on.gau with lastAt := some 0 } }).gau.lastAt.isSome,
    let t : Nat := 0; let s : State := (let z := on; { z with now := 0, gau := { z.gau with updAt := some 0 } });
      let u := tick s t; decide (u.dev.state ≠ .off ∧ u.psq.collapse = false ∧ ((match u.gau.updAt with | some a => decide (u.now < a + 1000000) | none => false) = true)),
    let t : Nat := 0; let s : State := on;
      let u := tick s t; decide (u.dev.state ≠ .off ∧ u.psq.collapse = false ∧ ((match u.gau.updAt with | some a => decide (a + 1000000 ≤ u.now) | none => true) = true)),
    let s : State := { on with gau := { on.gau with eodHold := true } }; decide (s.gau.eodHold = true),
    let s : State := { on with gau := { on.gau with ma := -20 } }; decide (s.gau.eodHold = false ∧ s.gau.drift = false ∧ s.gau.ma ≤ -20),
    let s : State := { on with gau := { on.gau with ma := -19 } }; decide (s.gau.eodHold = false ∧ s.gau.drift = false ∧ -20 < s.gau.ma),
    let t : Nat := 0; let s : State := on;
      let u := tick s t; decide (u.dev.state ≠ .off ∧ u.psq.collapse = false ∧ (u.gau.restUs < 1800000000 ∨ packCells u = 0 ∨ packOcv u = [])),
    let t : Nat := 0;
      let s : State := { on with gau := { on.gau with restUs := 1800000000, ocv := [{ number := 0, points := [(30000, 0)] }] }, regs := tset on.regs rGauPackCfg (BitVec.ofNat 32 (4)) };
      let u := tick s t; decide (u.dev.state ≠ .off ∧ u.psq.collapse = false ∧ 1800000000 ≤ u.gau.restUs ∧ packCells u ≠ 0 ∧ packOcv u ≠ []),
    let t : Nat := 0; let s : State := { on with gau := on.gau, regs := tset on.regs rGauPackCfg (BitVec.ofNat 32 (0)) };
      let u := tick s t; decide (u.dev.state ≠ .off ∧ u.psq.collapse = false ∧ cfg u rGauPackCfg 30 1 = 0),
    let d : List Byte := ([] : List Byte); let t : Nat := 0; let ok : Bool := true;
      let s : State := { on with gau := { on.gau with burst := false }, regs := tset on.regs rGauPackCfg (BitVec.ofNat 32 (2 ^ 30)) };
      let u := tick s t; decide (u.dev.state ≠ .off ∧ u.psq.collapse = false ∧ cfg u rGauPackCfg 30 1 ≠ 0) && (let id := if ok && twiUp u 1 then packIdOf d else none; decide (id = none)),
    let d : List Byte := (let b := le 0x5041434B 4 ++ le 1 8 ++ zeros 16; b ++ le (crc32c b) 4); let t : Nat := 0; let ok : Bool := true;
      let s : State := { on with gau := { on.gau with learned := { serial := 1 } }, regs := tset on.regs rGauPackCfg (BitVec.ofNat 32 (2 ^ 30)) };
      let u := tick s t; decide (u.dev.state ≠ .off ∧ u.psq.collapse = false ∧ cfg u rGauPackCfg 30 1 ≠ 0) && (let id := if ok && twiUp u 1 then packIdOf d else none; (match id with | some p => decide (p.serial = u.gau.learned.serial) | _ => false))] : List Bool).all id = true := by decide +kernel

theorem witness_GaugeEvents_2 : ([
    let d : List Byte := (let b := le 0x5041434B 4 ++ le 1 8 ++ zeros 16; b ++ le (crc32c b) 4); let t : Nat := 0; let ok : Bool := true;
      let s : State := { on with gau := { on.gau with burst := false }, regs := tset on.regs rGauPackCfg (BitVec.ofNat 32 (2 ^ 30)) };
      let u := tick s t; decide (u.dev.state ≠ .off ∧ u.psq.collapse = false ∧ cfg u rGauPackCfg 30 1 ≠ 0) && (let id := if ok && twiUp u 1 then packIdOf d else none; (match id with | some p => decide (p.serial ≠ u.gau.learned.serial) | _ => false)),
    let t : Nat := 0; let s : State := { on with gau := { on.gau with burst := false }, regs := tset on.regs rGauPackCfg (BitVec.ofNat 32 (0)) };
      let u := tick s t; decide (u.dev.state ≠ .off ∧ u.psq.collapse = false ∧ cfg u rGauPackCfg 31 1 = 0),
    let t : Nat := 0; let ok : Bool := false;
      let s : State := { on with gau := { on.gau with burst := false }, regs := tset on.regs rGauPackCfg (BitVec.ofNat 32 (2 ^ 31)) };
      let u := tick s t; decide (u.dev.state ≠ .off ∧ u.psq.collapse = false ∧ cfg u rGauPackCfg 31 1 ≠ 0 ∧ (ok = false ∨ twiUp u 1 = false)),
    let t : Nat := 0; let ok : Bool := true;
      let s : State := { on with gau := { on.gau with burst := false }, regs := tset on.regs rGauPackCfg (BitVec.ofNat 32 (2 ^ 31)) };
      let u := tick s t; decide (u.dev.state ≠ .off ∧ u.psq.collapse = false ∧ cfg u rGauPackCfg 31 1 ≠ 0 ∧ ok = true ∧ twiUp u 1 = true)] : List Bool).all id = true := by decide +kernel

/-- Clause by clause, states and operands that meet the hypotheses of `Obligations.GaugeCommands`. -/
theorem witness_GaugeCommands : ([
    let c : TrellisCmd := pk [] (zeros 63) 0xFFFF;
      let s : State := on; (match started 0x0400 c s with | some (_, f) => decide (0 < f.cmd.payLen ∧ f.cmd.payLen < 64) | _ => false),
    let c : TrellisCmd := pk [] [] 0xFFFF;
      let s : State := on; (match started 0x0400 c s with | some (_, f) => decide (f.cmd.payLen = 0) | _ => false),
    let c : TrellisCmd := pk [] (zeros 64) 0xFFFF;
      let s : State := on; (match started 0x0400 c s with | some (_, f) => decide (64 ≤ f.cmd.payLen) | _ => false),
    let c : TrellisCmd := pk [] [] 0xFFFF;
      let s : State := (let z := on; { z with now := 0, gau := { z.gau with shown := [1#8] } }); (match started 0x0401 c s with | some (v, _) => decide (v.gau.shown ≠ []) | _ => false),
    let c : TrellisCmd := pk [] [] 0xFFFF;
      let s : State := on; (match started 0x0401 c s with | some (v, _) => decide (v.gau.shown = []) | _ => false),
    let c : TrellisCmd := pk [] (zeros 17) 0xFFFF;
      let s : State := on; (match started 0x0402 c s with | some (_, f) => let n := f.cmd.payLen; decide ((n < 16 ∨ n % 16 ≠ 0)) | _ => false),
    let c : TrellisCmd := pk [] (zeros 16) 0xFFFF;
      let s : State := on; (match started 0x0402 c s with | some (_, f) => let n := f.cmd.payLen; decide (16 ≤ n ∧ n % 16 = 0) | _ => false),
    let c : TrellisCmd := pk [] (zeros 6 ++ [17#8] ++ zeros 500) 0xFFFF;
      let s : State := on; (match started 0x0501 c s with | some (_, f) => let b := payIn f.cmd; decide ((container b).typ = 0x11) | _ => false),
    let c : TrellisCmd := pk [] (zeros 6 ++ [17#8] ++ zeros 500) 0xFFFF;
      let s : State := on; (match started 0x0501 c s with | some (_, f) => let b := payIn f.cmd; decide ((container b).typ = 0x11) | _ => false),
    let c : TrellisCmd := pk [] (zeros 6 ++ [16#8] ++ zeros 500) 0xFFFF;
      let s : State := on; (match started 0x0501 c s with | some (_, f) => let b := payIn f.cmd; decide ((container b).typ ≠ 0x11) | _ => false),
    let c : TrellisCmd := pk [] (zeros 6 ++ [16#8] ++ zeros 500) 0xFFFF;
      let s : State := on; (match started 0x0501 c s with | some (_, f) => let b := payIn f.cmd; let body := (container b).body; decide ((container b).typ ≠ 0x11 ∧ railHeaderOk body = false) | _ => false),
    let c : TrellisCmd := pk [] (zeros 4 ++ [0#8, 0#8, 0x10#8, 0#8] ++ le 416 4 ++ zeros 116 ++ le 0x5241494C 4 ++ le 1 2 ++ zeros 26 ++ [3#8] ++ zeros 383 ++ zeros 96) 0xFFFF;
      let s : State := on; (match started 0x0501 c s with | some (_, f) => let b := payIn f.cmd; let body := (container b).body; decide ((container b).typ ≠ 0x11 ∧ railHeaderOk body = true) && ((firstBad body).isSome) | _ => false),
    let c : TrellisCmd := pk [] (zeros 4 ++ [0#8, 0#8, 0x10#8, 0#8] ++ le 416 4 ++ zeros 116 ++ le 0x5241494C 4 ++ le 1 2 ++ zeros 26 ++ [0#8, 0#8, 0#8, 9#8, 0#8, 0#8, 1#8, 0#8, 1#8, 0#8, 2#8, 0#8] ++ zeros 372 ++ zeros 96) 0xFFFF;
      let s : State := on; (match started 0x0501 c s with | some (_, f) => let b := payIn f.cmd; let body := (container b).body; decide ((container b).typ ≠ 0x11 ∧ railHeaderOk body = true ∧ firstBad body = none) | _ => false)] : List Bool).all id = true := by decide +kernel

/-- Clause by clause, states and operands that meet the hypotheses of `Obligations.WeedingAndTelemetry`. -/
theorem witness_WeedingAndTelemetry_1 : ([
    let n : Nat := 0; let t : Nat := 0; let s : State := at_ .off; let u := tick s t; decide (unitEnds u 0 n = false),
    let n : Nat := 0; let t : Nat := 0; let s : State := on; let u := tick s t; decide (unitEnds u 0 n = true),
    let n : Nat := 0; let t : Nat := 0; let s : State := on; let u := tick s t; decide (unitEnds u 0 n = true),
    let n : Nat := 0; let t : Nat := 0; let s : State := on; let u := tick s t; let r := tgetD u.ist.loopRun n (0, false);
      let k := 4 * n + r.1; decide (unitEnds u 1 k = false),
    let n : Nat := 0; let t : Nat := 0;
      let s : State := { on with ftl := { on.ftl with fces := [(0, { st := 2 })], targets := [(0, {})] }, ist := { on.ist with loopRun := [(0, (2, false))] } };
      let u := tick s t; let r := tgetD u.ist.loopRun n (0, false); let k := 4 * n + r.1; decide (unitEnds u 1 k = true ∧ r.1 < 3),
    let n : Nat := 0; let t : Nat := 0;
      let s : State := { on with ftl := { on.ftl with fces := [(0, { st := 2 })], targets := [(0, {})] }, ist := { on.ist with loopRun := [(0, (3, false))] } };
      let u := tick s t; let r := tgetD u.ist.loopRun n (0, false); let k := 4 * n + r.1; decide (unitEnds u 1 k = true ∧ 3 ≤ r.1),
    let n : Nat := 0; let t : Nat := 0; let s : State := at_ .off; let u := tick s t; decide (unitEnds u 2 n = false),
    let n : Nat := 0; let low : Nat := 4116; let high : Nat := 8152; let t : Nat := 0; let s : State := on; let u := tick s t;
      let near := fun (v c : Nat) => 200 * ((v : Int) - c).natAbs ≤ c; decide (unitEnds u 2 n = true ∧ near low 4096 ∧ near high 8192),
    let n : Nat := 0; let low : Nat := 4117; let high : Nat := 8192; let t : Nat := 0; let s : State := on; let u := tick s t;
      let near := fun (v c : Nat) => 200 * ((v : Int) - c).natAbs ≤ c; decide (unitEnds u 2 n = true ∧ ((¬ near low 4096) ∨ (¬ near high 8192))),
    let n : Nat := 0; let t : Nat := 0; let s : State := at_ .off; let u := tick s t; decide (unitEnds u 3 n = false),
    let n : Nat := 24; let t : Nat := 0; let s : State := on; let u := tick s t; decide (unitEnds u 3 n = true),
    let n : Nat := 24; let t : Nat := 0; let s : State := on; let u := tick s t; decide (unitEnds u 3 n = true),
    let n : Nat := 0; let t : Nat := 0; let s : State := at_ .off; let u := tick s t; decide (unitEnds u 4 n = false),
    let n : Nat := 0; let t : Nat := 0; let s : State := on; let u := tick s t; decide (unitEnds u 4 n = true),
    let n : Nat := 0; let t : Nat := 0; let s : State := on; let u := tick s t; decide (unitEnds u 4 n = true),
    let n : Nat := 0; let t : Nat := 0; let s : State := on; let u := tick s t; decide (unitEnds u 4 n = true),
    let n : Nat := 0; let t : Nat := 0; let s : State := on; let u := tick s t; decide (unitEnds u 4 n = true),
    let n : Nat := 0; let t : Nat := 0; let s : State := on; let u := tick s t; decide (unitEnds u 4 n = true),
    let n : Nat := 0; let t : Nat := 0; let s : State := at_ .off; let u := tick s t; decide (unitEnds u 5 n = false),
    let n : Nat := 0; let t : Nat := 0; let s : State := on; let u := tick s t; decide (unitEnds u 5 n = true)] : List Bool).all id = true := by decide +kernel

theorem witness_WeedingAndTelemetry_2 : ([
    let n : Nat := 7; let t : Nat := 0; let s : State := on; let u := tick s t; decide ((logicOn u = false ∨ 6 < n)),
    (let u := tick on 0; logicOn u && (istItem u 6).now.isNone),
    (let u := tick { fl on (.weed 0) with now := 24 * 3600000000, ist := { on.ist with items := [(0, { now := some 7 })] } } 0; logicOn u && (istItem u 0).now == some 7 && (match inflight u 7 with | some f => decide (f.since + itemPeriod u 0 * 3600000000 ≤ u.now) | none => false)),
    ((tick on 0).ist.pausedTill.isNone),
    let t : Nat := 0; let s : State := { on with now := 0, ist := { on.ist with pausedTill := some 0 } }; let u := tick s t;
      let x := 0; decide (u.ist.pausedTill = some x ∧ x ≤ u.now),
    let t : Nat := 0; let s : State := at_ .off; let u := tick s t; decide (logicOn u = false),
    let t : Nat := 0; let s : State := { on with ist := { on.ist with sampledAt := some 0 } };
      let u := tick s t; decide (((match u.ist.sampledAt with | some a => decide (u.now < a + 1000000) | none => false) = true)),
    let t : Nat := 0; let s : State := on;
      let u := tick s t; decide (logicOn u = true ∧ ((match u.ist.sampledAt with | some a => decide (a + 1000000 ≤ u.now) | none => true) = true)),
    let t : Nat := 0; let s : State := own on 6 0x2000; let u := tick s t; decide (logicOn u = true ∧ (assisted u 6 = true ∨ bothDown u = true)),
    let t : Nat := 0; let s : State := { on with mpx := { on.mpx with a := { st := 0 }, b := { st := 1 } } };
      let u := tick s t; decide (logicOn u = true ∧ assisted u 6 = false ∧ bothDown u = false ∧ loopsRun u true = false),
    let t : Nat := 0; let s : State := { on with mpx := { on.mpx with level := 2 }, ist := { on.ist with rawSeq := 599 } };
      let u := tick s t; decide (logicOn u = true ∧ assisted u 6 = false ∧ bothDown u = false ∧ loopsRun u true = true ∧ floorRate u = true ∧ u.ist.rawSeq < u.ist.sumFrom + 600),
    let t : Nat := 0; let s : State := { on with mpx := { on.mpx with level := 2 }, ist := { on.ist with rawSeq := 600 } };
      let u := tick s t; decide (logicOn u = true ∧ assisted u 6 = false ∧ bothDown u = false ∧ loopsRun u true = true ∧ (floorRate u = false ∨ u.ist.sumFrom + 600 ≤ u.ist.rawSeq))] : List Bool).all id = true := by decide +kernel

/-- Clause by clause, states and operands that meet the hypotheses of `Obligations.RehearsalsAndTests`. -/
theorem witness_RehearsalsAndTests_1 : ([
    let c : TrellisCmd := pk [] [] 0xFFFF; let s : State := on; (match started 0x0403 c s with | some (v, _) => (rehRefusal v).isSome | _ => false),
    let c : TrellisCmd := pk [] [] 0xFFFF;
      let s : State := rdy; (match started 0x0403 c s with | some (v, _) => decide (rehRefusal v = none) | _ => false),
    let t : Nat := 0; let s : State := { on with regs := tset on.regs rGauRehCfg 0#32 }; let u := tick s t; decide (rehIsDue u = false),
    (let u := tick { rdy with ist := { on.ist with retryAt := some 0 } } 0; let w := { u with ist := { u.ist with dueAt := some 0 } }; rehIsDue u && u.ist.pausedTill.isNone && u.ist.retryDay == opSecs u / 86400 && (rehRefusal w).isNone),
    (let u := tick on 0; rehIsDue u && (rehRefusal u).isSome),
    let t : Nat := 0; let s : State := on; let u := tick s t; decide (u.gau.reh = none),
    let t : Nat := 0; let s : State := reh 4 2000000;
      let u := tick s t; (match u.gau.reh with | some r => decide (r.phase < 5 ∧ r.since + 2000000 ≤ u.now) | _ => false),
    let t : Nat := 0; let s : State := reh 4 1999999;
      let u := tick s t; (match u.gau.reh with | some r => decide ((5 ≤ r.phase ∨ u.now < r.since + 2000000)) | _ => false),
    let t : Nat := 0; let s : State := reh 0 99999;
      let u := tick s t; (match u.gau.reh with | some r => decide ((phaseOver u r = false ∨ (r.phase = 5 ∧ u.psq.good.contains (srcSlot u) = false))) | _ => false),
    let t : Nat := 0; let s : State := reh 0 100000;
      let u := tick s t; (match u.gau.reh with | some r => decide (phaseOver u r = true ∧ ((r.phase = 5 → u.psq.good.contains (srcSlot u) = true)) ∧ r.phase = 0) | _ => false),
    let t : Nat := 0; let s : State := reh 1 800000;
      let u := tick s t; (match u.gau.reh with | some r => decide (phaseOver u r = true ∧ ((r.phase = 5 → u.psq.good.contains (srcSlot u) = true)) ∧ r.phase = 1) | _ => false),
    let t : Nat := 0; let s : State := reh 2 300000;
      let u := tick s t; (match u.gau.reh with | some r => decide (phaseOver u r = true ∧ ((r.phase = 5 → u.psq.good.contains (srcSlot u) = true)) ∧ (r.phase = 2 ∨ r.phase = 3)) | _ => false),
    let t : Nat := 0; let s : State := reh 4 200000;
      let u := tick s t; (match u.gau.reh with | some r => decide (phaseOver u r = true ∧ ((r.phase = 5 → u.psq.good.contains (srcSlot u) = true)) ∧ r.phase = 4) | _ => false),
    let t : Nat := 0; let s : State := reh 5 0;
      let u := tick s t; (match u.gau.reh with | some r => decide (phaseOver u r = true ∧ ((r.phase = 5 → u.psq.good.contains (srcSlot u) = true)) ∧ 5 ≤ r.phase) | _ => false),
    let c : TrellisCmd := pk [(24, 1, 4), (25, 1, 0)] [] 0xFFFF;
      let s : State := on; (match started 0x0A00 c s with | some (_, f) => let act := pByte f.cmd 24; decide (3 < act) | _ => false),
    let c : TrellisCmd := pk [(24, 1, 0), (25, 1, 6)] [] 0xFFFF;
      let s : State := on; (match started 0x0A00 c s with | some (_, f) => let act := pByte f.cmd 24; let item := pByte f.cmd 25; decide (act ≤ 3 ∧ (¬ ((item ≤ 6 ∨ item = 0xFF) ∧ (act < 2 → item ≠ 6)))) | _ => false),
    let c : TrellisCmd := pk [(24, 1, 0), (25, 1, 255)] [] 0xFFFF;
      let s : State := { on with now := 0, ist := { on.ist with items := [(5, { now := some 7 })] } }; (match started 0x0A00 c s with | some (v, f) => let act := pByte f.cmd 24; let item := pByte f.cmd 25; decide (((item ≤ 6 ∨ item = 0xFF) ∧ (act < 2 → item ≠ 6)) ∧ act = 0 ∧ (itemsOf item).any (fun n => (istItem v n).now.isSome) = true) | _ => false),
    let c : TrellisCmd := pk [(24, 1, 0), (25, 1, 255)] [] 0xFFFF;
      let s : State := on; (match started 0x0A00 c s with | some (v, f) => let act := pByte f.cmd 24; let item := pByte f.cmd 25; decide (((item ≤ 6 ∨ item = 0xFF) ∧ (act < 2 → item ≠ 6)) ∧ act = 0 ∧ (itemsOf item).any (fun n => (istItem v n).now.isSome) = false) | _ => false),
    let c : TrellisCmd := pk [(24, 1, 1), (25, 1, 5), (28, 4, 25)] [] 0xFFFF;
      let s : State := on; (match started 0x0A00 c s with | some (_, f) => let act := pByte f.cmd 24; let item := pByte f.cmd 25; let hours := pNum f.cmd 28 4; decide (((item ≤ 6 ∨ item = 0xFF) ∧ (act < 2 → item ≠ 6)) ∧ act = 1 ∧ (hours < 1 ∨ 24 < hours)) | _ => false),
    let c : TrellisCmd := pk [(24, 1, 1), (25, 1, 5), (28, 4, 24)] [] 0xFFFF;
      let s : State := on; (match started 0x0A00 c s with | some (_, f) => let act := pByte f.cmd 24; let item := pByte f.cmd 25; let hours := pNum f.cmd 28 4; decide (((item ≤ 6 ∨ item = 0xFF) ∧ (act < 2 → item ≠ 6)) ∧ act = 1 ∧ 1 ≤ hours ∧ hours ≤ 24) | _ => false)] : List Bool).all id = true := by decide +kernel

theorem witness_RehearsalsAndTests_2 : ([
    let c : TrellisCmd := pk [(24, 1, 2), (25, 1, 6), (32, 4, 1441)] [] 0xFFFF;
      let s : State := on; (match started 0x0A00 c s with | some (_, f) => let act := pByte f.cmd 24; let item := pByte f.cmd 25; let mins := pNum f.cmd 32 4; decide (((item ≤ 6 ∨ item = 0xFF) ∧ (act < 2 → item ≠ 6)) ∧ act = 2 ∧ (mins < 1 ∨ 1440 < mins)) | _ => false),
    let c : TrellisCmd := pk [(24, 1, 2), (25, 1, 6), (32, 4, 1440)] [] 0xFFFF;
      let s : State := on; (match started 0x0A00 c s with | some (_, f) => let act := pByte f.cmd 24; let item := pByte f.cmd 25; let mins := pNum f.cmd 32 4; decide (((item ≤ 6 ∨ item = 0xFF) ∧ (act < 2 → item ≠ 6)) ∧ act = 2 ∧ 1 ≤ mins ∧ mins ≤ 1440) | _ => false),
    let c : TrellisCmd := pk [(24, 1, 3), (25, 1, 6)] [] 0xFFFF;
      let s : State := on; (match started 0x0A00 c s with | some (_, f) => let act := pByte f.cmd 24; let item := pByte f.cmd 25; decide (((item ≤ 6 ∨ item = 0xFF) ∧ (act < 2 → item ≠ 6)) ∧ act = 3) | _ => false),
    let c : TrellisCmd := pk [(24, 1, 0), (25, 1, 3)] [] 0xFFFF;
      let s : State := on; (match started 0x0A01 c s with | some (_, f) => let kind := pByte f.cmd 25; decide (2 < kind) | _ => false),
    let c : TrellisCmd := hk [(25, 1, 2)];
      let s : State := host on; (match started 0x0A01 c s with | some (v, f) => let kind := pByte f.cmd 25; decide (kind = 2 ∧ issClass f.cmd.est = 0 ∧ owns v f.cmd.est 6 = false) | _ => false),
    let c : TrellisCmd := pk [(24, 1, 7), (25, 1, 0)] [] 0xFFFF;
      let s : State := on; (match started 0x0A01 c s with | some (_, f) => let item := pByte f.cmd 24; let kind := pByte f.cmd 25; decide (kind = 0 ∧ 6 < item) | _ => false),
    let c : TrellisCmd := pk [(24, 1, 6), (25, 1, 0)] [] 0xFFFF;
      let s : State := on; (match started 0x0A01 c s with | some (_, f) => let item := pByte f.cmd 24; let kind := pByte f.cmd 25; decide (kind = 0 ∧ item ≤ 6) | _ => false),
    let c : TrellisCmd := pk [(24, 1, 0), (25, 1, 1)] (zeros 63) 0xFFFF;
      let s : State := on; (match started 0x0A01 c s with | some (_, f) => let kind := pByte f.cmd 25; let n := f.cmd.payLen; decide (kind = 1 ∧ (n < 64 ∨ n % 64 ≠ 0)) | _ => false),
    let c : TrellisCmd := pk [(24, 1, 0), (25, 1, 1)] (zeros 64) 0xFFFF;
      let s : State := on; (match started 0x0A01 c s with | some (_, f) => let kind := pByte f.cmd 25; let n := f.cmd.payLen; decide (kind = 1 ∧ 64 ≤ n ∧ n % 64 = 0) | _ => false),
    let c : TrellisCmd := pk [(24, 1, 0), (25, 1, 2)] (zeros 65) 0xFFFF;
      let s : State := on; (match started 0x0A01 c s with | some (v, f) => let kind := pByte f.cmd 25; let n := f.cmd.payLen; decide (kind = 2 ∧ (issClass f.cmd.est ≠ 0 ∨ owns v f.cmd.est 6 = true) ∧ (n < 64 ∨ n % 64 ≠ 0)) | _ => false),
    let c : TrellisCmd := pk [(24, 1, 0), (25, 1, 2)] (zeros 64) 0xFFFF;
      let s : State := on; (match started 0x0A01 c s with | some (v, f) => let kind := pByte f.cmd 25; let n := f.cmd.payLen; decide (kind = 2 ∧ (issClass f.cmd.est ≠ 0 ∨ owns v f.cmd.est 6 = true) ∧ 64 ≤ n ∧ n % 64 = 0) | _ => false)] : List Bool).all id = true := by decide +kernel

/-- Clause by clause, states and operands that meet the hypotheses of `Obligations.PowerEvents`. -/
theorem witness_PowerEvents_1 : ([
    let t : Nat := 0; let s : State := at_ .off; let u := tick s t; let st : DevState := u.dev.state; decide (st = .off),
    let t : Nat := 0; let s : State := on; let u := tick s t; let st : DevState := u.dev.state; decide (st ≠ .off),
    let t : Nat := 0; let s : State := at_ .off; let u := tick s t;
      let st : DevState := u.dev.state; decide ((st = .off ∨ u.pin.strapsTaken = true ∨ u.now < u.dev.vaonAt + 100)),
    let t : Nat := 0; let s : State := (let z := on; { z with now := 100, pin := { z.pin with strapsTaken := false } }); let u := tick s t;
      let st : DevState := u.dev.state; decide (st ≠ .off ∧ u.pin.strapsTaken = false ∧ u.dev.vaonAt + 100 ≤ u.now),
    let t : Nat := 0; let s : State := at_ .shelf; let u := tick s t; let st : DevState := u.dev.state; decide ((st = .shelf ∨ st = .latched)),
    let t : Nat := 0; let s : State := at_ .railsDown; let u := tick s t; let st : DevState := u.dev.state; decide (st = .railsDown),
    let t : Nat := 0; let s : State := on; let u := tick s t;
      let st : DevState := u.dev.state; decide (st ≠ .off ∧ st ≠ .shelf ∧ st ≠ .latched ∧ st ≠ .railsDown),
    (tick on 0).now == 0,
    let t : Nat := 0; let s : State := on; let u := tick s t; let st : DevState := u.dev.state; decide (st ≠ .off),
    let t : Nat := 0; let s : State := on; let u := tick s t; let st : DevState := u.dev.state; decide (st ≠ .waking),
    (let u := tick { at_ .waking with fwu := { on.fwu with noImage := true } } 0; u.dev.state == .waking && u.fwu.noImage),
    let t : Nat := 0; let s : State := (let z := at_ .waking; { z with now := 0, fwu := { z.fwu with noImage := false } }); let u := tick s t;
      let st : DevState := u.dev.state; decide (st = .waking ∧ u.fwu.noImage = false ∧ u.pin.coldWait = false),
    let t : Nat := 0; let s : State := (let z := at_ .waking; { z with now := 0, pin := { z.pin with coldWait := true } }); let u := tick s t;
      let st : DevState := u.dev.state; decide (st = .waking ∧ u.fwu.noImage = false ∧ u.pin.coldWait = true),
    let t : Nat := 0; let s : State := (let z := at_ .waking; { z with now := 1000000, pin := { z.pin with coldWait := true } }); let u := tick s t;
      let st : DevState := u.dev.state; decide (st = .waking ∧ u.fwu.noImage = false ∧ u.pin.coldWait = true ∧ u.pin.coldAt + 1000000 ≤ u.now),
    let t : Nat := 0; let s : State := (let z := at_ .waking; { z with now := 999999, pin := { z.pin with coldWait := true } }); let u := tick s t;
      let st : DevState := u.dev.state; decide (st = .waking ∧ u.fwu.noImage = false ∧ u.pin.coldWait = true ∧ u.now < u.pin.coldAt + 1000000),
    let t : Nat := 0; let s : State := at_ .off; let u := tick s t;
      let st : DevState := u.dev.state; decide ((u.psq.offHold = true ∨ st = .off ∨ st = .harvesting)),
    let t : Nat := 0; let s : State := at_ .shelf; let u := tick s t;
      let st : DevState := u.dev.state; decide (u.psq.offHold = false ∧ (st = .shelf ∨ st = .held)),
    let t : Nat := 0; let s : State := at_ .railsDown; let u := tick s t;
      let st : DevState := u.dev.state; decide (u.psq.offHold = false ∧ st = .railsDown),
    let t : Nat := 0; let s : State := on; let u := tick s t;
      let st : DevState := u.dev.state; decide (u.psq.offHold = false ∧ (st = .waking ∨ st = .railsUp ∨ st = .training ∨ st = .replanting ∨ st = .serving ∨ st = .degraded ∨ st = .latched)),
    let t : Nat := 0; let s : State := at_ .harvesting; let u := tick s t; let st : DevState := u.dev.state; decide (st = .harvesting)] : List Bool).all id = true := by decide +kernel

theorem witness_PowerEvents_2 : ([
    let t : Nat := 0; let s : State := on; let u := tick s t; let st : DevState := u.dev.state; decide (st ≠ .harvesting),
    (let u := tick on 0; decide (u.dev.state ≠ .harvesting)),
    let t : Nat := 0; let s : State := (let z := at_ .harvesting; { z with hrv := { z.hrv with run := some { phase := 5 }, dest := .held } });
      let u := tick s t;
      let st : DevState := u.dev.state; decide (st = .harvesting) && ((match u.hrv.run with | some r => decide (r.phase = 5 ∧ u.hrv.dest = .held) | _ => false)),
    let t : Nat := 0; let s : State := (let z := at_ .harvesting; { z with hrv := { z.hrv with run := some { phase := 5 }, dest := .latched } });
      let u := tick s t;
      let st : DevState := u.dev.state; decide (st = .harvesting) && ((match u.hrv.run with | some r => decide (r.phase = 5 ∧ u.hrv.dest = .latched) | _ => false)),
    let t : Nat := 0; let s : State := (let z := at_ .harvesting; { z with hrv := { z.hrv with run := some { phase := 5 }, dest := .off } });
      let u := tick s t;
      let st : DevState := u.dev.state; decide (st = .harvesting) && ((match u.hrv.run with | some r => decide (r.phase = 5 ∧ u.hrv.dest ≠ .held ∧ u.hrv.dest ≠ .latched) | _ => false)),
    let n : Nat := 0x181; let t : Nat := 0; let s : State := on; let u := tick s t; decide ((reactRank n < 2 ∨ (source u n).live = true)),
    let n : Nat := 0; let t : Nat := 0; let s : State := on; let u := tick s t; decide (2 ≤ reactRank n ∧ (source u n).live = false),
    let under : Bool := true; let overV : Bool := false; let pin : Bool := false; let t : Nat := 0; let s : State := at_ .off; let u := tick s t;
      let mon := under || overV; let p := pin && cfg u rAonPfCfg 31 1 == 1; decide (((mon || p) = false ∨ u.dev.state = .off ∨ u.psq.collapse = true)),
    let under : Bool := true; let overV : Bool := false; let pin : Bool := false; let t : Nat := 0;
      let s : State := (let z := on; { z with dev := { z.dev with won := some (0, 1) } }); let u := tick s t; let mon := under || overV;
      let p := pin && cfg u rAonPfCfg 31 1 == 1;
      let w : State := { u with psq := { u.psq with inputIn := u.psq.inputIn && !mon, on := if overV then sdel u.psq.on 0 else u.psq.on, good := if overV then sdel u.psq.good 0 else u.psq.good }, hrv := { u.hrv with pfSource := b2n mon + 2 * b2n p } }; decide ((mon || p) = true ∧ u.dev.state ≠ .off ∧ u.psq.collapse = false ∧ outranked w 3 = true),
    let under : Bool := true; let overV : Bool := false; let pin : Bool := false; let t : Nat := 0; let s : State := on; let u := tick s t;
      let mon := under || overV; let p := pin && cfg u rAonPfCfg 31 1 == 1;
      let w : State := { u with psq := { u.psq with inputIn := u.psq.inputIn && !mon, on := if overV then sdel u.psq.on 0 else u.psq.on, good := if overV then sdel u.psq.good 0 else u.psq.good }, hrv := { u.hrv with pfSource := b2n mon + 2 * b2n p } };
      let v : State := noteWon w 3; decide ((mon || p) = true ∧ u.dev.state ≠ .off ∧ u.psq.collapse = false ∧ outranked w 3 = false ∧ (v.dev.state = .replanting ∨ v.dev.state = .serving ∨ v.dev.state = .degraded)),
    let under : Bool := true; let overV : Bool := false; let pin : Bool := false; let t : Nat := 0; let s : State := at_ .harvesting;
      let u := tick s t; let mon := under || overV; let p := pin && cfg u rAonPfCfg 31 1 == 1;
      let w : State := { u with psq := { u.psq with inputIn := u.psq.inputIn && !mon, on := if overV then sdel u.psq.on 0 else u.psq.on, good := if overV then sdel u.psq.good 0 else u.psq.good }, hrv := { u.hrv with pfSource := b2n mon + 2 * b2n p } };
      let v : State := noteWon w 3; decide ((mon || p) = true ∧ u.dev.state ≠ .off ∧ u.psq.collapse = false ∧ outranked w 3 = false ∧ v.dev.state = .harvesting),
    let under : Bool := true; let overV : Bool := false; let pin : Bool := false; let t : Nat := 0; let s : State := at_ .training; let u := tick s t;
      let mon := under || overV; let p := pin && cfg u rAonPfCfg 31 1 == 1;
      let w : State := { u with psq := { u.psq with inputIn := u.psq.inputIn && !mon, on := if overV then sdel u.psq.on 0 else u.psq.on, good := if overV then sdel u.psq.good 0 else u.psq.good }, hrv := { u.hrv with pfSource := b2n mon + 2 * b2n p } };
      let v : State := noteWon w 3; decide ((mon || p) = true ∧ u.dev.state ≠ .off ∧ u.psq.collapse = false ∧ outranked w 3 = false ∧ (v.dev.state = .waking ∨ v.dev.state = .railsUp ∨ v.dev.state = .training)),
    let under : Bool := true; let overV : Bool := false; let pin : Bool := false; let t : Nat := 0; let s : State := at_ .held; let u := tick s t;
      let mon := under || overV; let p := pin && cfg u rAonPfCfg 31 1 == 1;
      let w : State := { u with psq := { u.psq with inputIn := u.psq.inputIn && !mon, on := if overV then sdel u.psq.on 0 else u.psq.on, good := if overV then sdel u.psq.good 0 else u.psq.good }, hrv := { u.hrv with pfSource := b2n mon + 2 * b2n p } };
      let v : State := noteWon w 3; decide ((mon || p) = true ∧ u.dev.state ≠ .off ∧ u.psq.collapse = false ∧ outranked w 3 = false ∧ (v.dev.state = .shelf ∨ v.dev.state = .held ∨ v.dev.state = .railsDown ∨ v.dev.state = .latched)),
    let t : Nat := 0; let s : State := on; let u := tick s t; decide (u.psq.offRun = none),
    let t : Nat := 0; let s : State := (let z := on; { z with now := 0, psq := { z.psq with offRun := some { sealed := true } } });
      let u := tick s t; (match u.psq.offRun with | some r => decide ((r.sealed = true ∨ exposure u ≠ 0 ∨ ((match u.hrv.save with | some v => decide (v.forOff = true ∧ (v.left ≠ [] ∨ v.out ≠ [])) | none => false) = true))) | _ => false),
    let t : Nat := 0; let s : State := (let z := on; { z with now := 0, psq := { z.psq with offRun := some { } } });
      let u := tick s t; (match u.psq.offRun with | some r => decide (r.sealed = false ∧ exposure u = 0 ∧ (¬ ((match u.hrv.save with | some v => decide (v.forOff = true ∧ (v.left ≠ [] ∨ v.out ≠ [])) | none => false) = true))) | _ => false),
    let t : Nat := 0; let s : State := (let z := on; { z with now := 10000, psq := { z.psq with offRun := some { sealed := true } } });
      let u := tick s t;
      let st : DevState := u.dev.state; (match u.psq.offRun with | some r => decide (r.sealed = true ∧ r.sealAt + 10000 ≤ u.now ∧ (st = .serving ∨ st = .degraded)) | _ => false),
    let t : Nat := 0; let s : State := (let z := on; { z with now := 0, psq := { z.psq with offRun := some { } } }); let u := tick s t;
      let st : DevState := u.dev.state; (match u.psq.offRun with | some r => decide ((r.sealed = false ∨ u.now < r.sealAt + 10000) ∧ (st = .serving ∨ st = .degraded)) | _ => false),
    let t : Nat := 0;
      let s : State := (let z := (let z := on; { z with regs := tset z.regs rPsqCfg (BitVec.ofNat 32 (10 * 2 ^ 16)) }); { z with now := 9999999, psq := { z.psq with offRun := some { } } });
      let u := tick s t; (match u.psq.offRun with | some r => decide ((r.sealed = true ∨ u.now < r.since + max 10 (cfg u rPsqCfg 16 16) * 1000000)) | _ => false),
    let t : Nat := 0;
      let s : State := (let z := (let z := on; { z with regs := tset z.regs rPsqCfg (BitVec.ofNat 32 (10 * 2 ^ 16)) }); { z with now := 10000000, psq := { z.psq with offRun := some { } } });
      let u := tick s t; (match u.psq.offRun with | some r => decide (r.sealed = false ∧ r.since + max 10 (cfg u rPsqCfg 16 16) * 1000000 ≤ u.now) | _ => false)] : List Bool).all id = true := by decide +kernel

theorem witness_PowerEvents_3 : ([
    let t : Nat := 0; let s : State := at_ .off; let u := tick s t;
      let st : DevState := u.dev.state; decide ((cfg u rPsqCfg 0 1 = 0 ∨ (st = .off ∨ u.psq.collapse = true))),
    let t : Nat := 0; let s : State := (let z := on; { z with regs := tset z.regs rPsqCfg (BitVec.ofNat 32 (1)) }); let u := tick s t;
      let st : DevState := u.dev.state; decide (cfg u rPsqCfg 0 1 ≠ 0 ∧ (¬ (st = .off ∨ u.psq.collapse = true))),
    let t : Nat := 0; let s : State := (let z := on; { z with regs := tset z.regs rPsqCfg (BitVec.ofNat 32 (1)) });
      let u := tick s t; decide ((u.psq.btnDown = false ∨ u.psq.btnLong = true ∨ cfg u rPsqCfg 0 1 = 0)),
    let t : Nat := 0;
      let s : State := (let z := (let z := on; { z with regs := tset z.regs rPsqCfg (BitVec.ofNat 32 (1)) }); { z with now := 7950000, psq := { z.psq with btnDown := true } });
      let u := tick s t; decide (u.psq.btnDown = true ∧ u.psq.btnLong = false ∧ cfg u rPsqCfg 0 1 ≠ 0 ∧ u.psq.btnAt + 7950000 ≤ u.now),
    let t : Nat := 0;
      let s : State := (let z := (let z := on; { z with regs := tset z.regs rPsqCfg (BitVec.ofNat 32 (1)) }); { z with now := 7949999, psq := { z.psq with btnDown := true } });
      let u := tick s t; decide (u.psq.btnDown = true ∧ u.psq.btnLong = false ∧ cfg u rPsqCfg 0 1 ≠ 0 ∧ u.now < u.psq.btnAt + 7950000),
    let t : Nat := 0;
      let s : State := (let z := (let z := on; { z with regs := tset z.regs rPsqCfg (BitVec.ofNat 32 (1)) }); { z with now := 0, psq := { z.psq with btnDown := true, btnShelf := true } });
      let u := tick s t; decide (u.psq.btnDown = true ∧ u.psq.btnLong = false ∧ cfg u rPsqCfg 0 1 ≠ 0) && (let w : State := { u with psq := { u.psq with btnDown := false } }; decide (u.now < u.psq.btnAt + 7950000 ∧ (u.psq.btnShelf = true ∨ outranked w 6 = true))),
    let t : Nat := 0;
      let s : State := (let z := (let z := on; { z with regs := tset z.regs rPsqCfg (BitVec.ofNat 32 (1)) }); { z with now := 0, psq := { z.psq with btnDown := true } });
      let u := tick s t; decide (u.psq.btnDown = true ∧ u.psq.btnLong = false ∧ cfg u rPsqCfg 0 1 ≠ 0) && (let w : State := { u with psq := { u.psq with btnDown := false } }; decide (u.now < u.psq.btnAt + 7950000 ∧ u.psq.btnShelf = false ∧ outranked w 6 = false)),
    let t : Nat := 0;
      let s : State := (let z := (let z := on; { z with regs := tset z.regs rPsqCfg (BitVec.ofNat 32 (1)) }); { z with now := 7950000, psq := { z.psq with btnDown := true, btnShelf := true } });
      let u := tick s t; decide (u.psq.btnDown = true ∧ u.psq.btnLong = false ∧ cfg u rPsqCfg 0 1 ≠ 0 ∧ u.psq.btnAt + 7950000 ≤ u.now ∧ u.psq.btnShelf = true),
    let t : Nat := 0;
      let s : State := (let z := (let z := at_ .latched; { z with regs := tset z.regs rPsqCfg (BitVec.ofNat 32 (1)) }); { z with now := 7950000, psq := { z.psq with btnDown := true } });
      let u := tick s t;
      let st : DevState := u.dev.state; decide (u.psq.btnDown = true ∧ u.psq.btnLong = false ∧ cfg u rPsqCfg 0 1 ≠ 0 ∧ u.psq.btnAt + 7950000 ≤ u.now ∧ u.psq.btnShelf = false ∧ st = .latched),
    let t : Nat := 0;
      let s : State := (let z := (let z := on; { z with regs := tset z.regs rPsqCfg (BitVec.ofNat 32 (1)) }); { z with now := 7950000, psq := { z.psq with btnDown := true } });
      let u := tick s t;
      let st : DevState := u.dev.state; decide (u.psq.btnDown = true ∧ u.psq.btnLong = false ∧ cfg u rPsqCfg 0 1 ≠ 0 ∧ u.psq.btnAt + 7950000 ≤ u.now ∧ u.psq.btnShelf = false ∧ st ≠ .latched),
    let t : Nat := 0; let s : State := at_ .off; let u := tick s t;
      let st : DevState := u.dev.state; decide ((cfg u rPsqCfg 1 1 = 0 ∨ (st = .off ∨ u.psq.collapse = true))),
    let t : Nat := 0;
      let s : State := (let z := (let z := on; { z with regs := tset z.regs rPsqCfg (BitVec.ofNat 32 (2)) }); { z with dev := { z.dev with won := some (0, 1) } });
      let u := tick s t;
      let st : DevState := u.dev.state; decide (cfg u rPsqCfg 1 1 ≠ 0 ∧ (¬ (st = .off ∨ u.psq.collapse = true))) && (let w : State := { u with psq := { u.psq with mrActive := true } }; decide (outranked w 5 = true)),
    let t : Nat := 0; let s : State := (let z := on; { z with regs := tset z.regs rPsqCfg (BitVec.ofNat 32 (2)) }); let u := tick s t;
      let st : DevState := u.dev.state; decide (cfg u rPsqCfg 1 1 ≠ 0 ∧ (¬ (st = .off ∨ u.psq.collapse = true))) && (let w : State := { u with psq := { u.psq with mrActive := true } }; let v : State := noteWon w 5; decide (outranked w 5 = false ∧ serving v = true)),
    let t : Nat := 0; let s : State := (let z := at_ .harvesting; { z with regs := tset z.regs rPsqCfg (BitVec.ofNat 32 (2)) }); let u := tick s t;
      let st : DevState := u.dev.state; decide (cfg u rPsqCfg 1 1 ≠ 0 ∧ (¬ (st = .off ∨ u.psq.collapse = true))) && (let w : State := { u with psq := { u.psq with mrActive := true } }; let v : State := noteWon w 5; decide (outranked w 5 = false ∧ v.dev.state = .harvesting)),
    let t : Nat := 0; let s : State := (let z := at_ .held; { z with regs := tset z.regs rPsqCfg (BitVec.ofNat 32 (2)) }); let u := tick s t;
      let st : DevState := u.dev.state; decide (cfg u rPsqCfg 1 1 ≠ 0 ∧ (¬ (st = .off ∨ u.psq.collapse = true))) && (let w : State := { u with psq := { u.psq with mrActive := true } }; let v : State := noteWon w 5; decide (outranked w 5 = false ∧ serving v = false ∧ v.dev.state ≠ .harvesting)),
    let t : Nat := 0; let s : State := (let z := on; { z with regs := tset z.regs rPsqCfg (BitVec.ofNat 32 (2)) }); let u := tick s t;
      let st : DevState := u.dev.state; decide (cfg u rPsqCfg 1 1 ≠ 0 ∧ (¬ (st = .off ∨ u.psq.collapse = true))),
    let t : Nat := 0; let s : State := at_ .off; let u := tick s t; let st : DevState := u.dev.state; decide (st = .off),
    let t : Nat := 0; let s : State := on; let u := tick s t; let st : DevState := u.dev.state; decide (st ≠ .off ∧ st ≠ .latched),
    let t : Nat := 0; let s : State := at_ .latched; let u := tick s t; let st : DevState := u.dev.state; decide (st ≠ .off ∧ st = .latched),
    let t : Nat := 0; let s : State := (let z := on; { z with dev := { z.dev with won := some (0, 1) } });
      let u := tick s t; decide (outranked u 7 = true)] : List Bool).all id = true := by decide +kernel

theorem witness_PowerEvents_4 : ([
    let t : Nat := 0; let s : State := on; let u := tick s t; let st : DevState := u.dev.state; decide (outranked u 7 = false ∧ st ≠ .held),
    let t : Nat := 0; let s : State := { at_ .held with now := 4999999, hrv := { on.hrv with holdMax := 5 } }; let u := tick s t;
      let st : DevState := u.dev.state;
      let m := u.hrv.holdMax; decide (outranked u 7 = false ∧ st = .held ∧ ((heldByMr u = true ∧ m = 0) ∨ u.now < u.dev.stateAt + m * 1000000)),
    let t : Nat := 0;
      let s : State := { (let z := at_ .held; { z with regs := tset z.regs rAonHoldCfg (BitVec.ofNat 32 (5 * 2 ^ 16)) }) with now := 5000000 };
      let u := tick s t; let st : DevState := u.dev.state;
      let m := u.hrv.holdMax; decide (outranked u 7 = false ∧ st = .held ∧ (heldByMr u = false ∨ m ≠ 0) ∧ u.dev.stateAt + m * 1000000 ≤ u.now),
    let t : Nat := 0; let temp : Int := 104; let s : State := on; let u := tick s t; decide ((logicOn u = false ∨ temp < 105)),
    let t : Nat := 0; let temp : Int := 105; let s : State := on; let u := tick s t; decide (logicOn u = true ∧ 105 ≤ temp),
    let t : Nat := 0; let temp : Int := 114; let s : State := on; let u := tick s t;
      let st : DevState := u.dev.state; decide ((temp < 115 ∨ (logicOn u = false ∧ st ≠ .railsUp))),
    let t : Nat := 0; let temp : Int := 115; let s : State := on; let u := tick s t;
      let st : DevState := u.dev.state; decide (115 ≤ temp ∧ (logicOn u = true ∨ st = .railsUp)),
    let t : Nat := 0; let s : State := at_ .off; let u := tick s t;
      let st : DevState := u.dev.state; decide ((st = .off ∨ u.gau.burst = false ∨ u.dev.xtalOk = false)),
    let t : Nat := 0; let s : State := { on with gau := { on.gau with burst := true } }; let u := tick s t;
      let st : DevState := u.dev.state; decide (st ≠ .off ∧ u.gau.burst = true ∧ u.dev.xtalOk = true),
    (tick on 0).now == 0,
    let c : TrellisCmd := pk [(24, 1, 4), (25, 1, 0)] [] 0xFFFF;
      let s : State := on; (match started 0x0500 c s with | some (_, f) => let act := pByte f.cmd 24; decide (3 < act) | _ => false),
    let c : TrellisCmd := pk [(24, 1, 2), (25, 1, 9)] [] 0xFFFF;
      let s : State := on; (match started 0x0500 c s with | some (_, f) => let act := pByte f.cmd 24; let d := pByte f.cmd 25; decide ((act = 2 ∨ act = 3) ∧ (d = 0 ∨ 8 < d)) | _ => false),
    let c : TrellisCmd := pk [] [] 0xFFFF;
      let s : State := { on with dev := { on.dev with won := some (0, 3) } }; (match started 0x0500 c s with | some (v, f) => let act := pByte f.cmd 24; decide (act ≤ 1 ∧ outranked v 6 = true) | _ => false),
    let c : TrellisCmd := pk [(24, 1, 0), (25, 1, 0)] [] 0xFFFF;
      let s : State := at_ .shelf; (match started 0x0500 c s with | some (v, f) => let act := pByte f.cmd 24; let st : DevState := v.dev.state; decide (act = 0 ∧ outranked v 6 = false ∧ (st = .shelf ∨ st = .held ∨ st = .railsDown)) | _ => false),
    let c : TrellisCmd := pk [(24, 1, 0), (25, 1, 0)] [] 0xFFFF;
      let s : State := on; (match started 0x0500 c s with | some (v, f) => let act := pByte f.cmd 24; let st : DevState := v.dev.state; decide (act = 0 ∧ outranked v 6 = false ∧ st ≠ .shelf ∧ st ≠ .held ∧ st ≠ .railsDown) | _ => false),
    let c : TrellisCmd := pk [(24, 1, 1), (25, 1, 0)] [] 0xFFFF;
      let s : State := on; (match started 0x0500 c s with | some (v, f) => let act := pByte f.cmd 24; decide (act = 1 ∧ outranked v 6 = false) | _ => false),
    let c : TrellisCmd := pk [(24, 1, 2), (25, 1, 8)] [] 0xFFFF;
      let s : State := at_ .shelf; (match started 0x0500 c s with | some (v, f) => let act := pByte f.cmd 24; let d := pByte f.cmd 25; decide ((act = 2 ∨ act = 3) ∧ 0 < d ∧ d ≤ 8 ∧ serving v = false) | _ => false),
    let c : TrellisCmd := pk [(24, 1, 2), (25, 1, 8)] [] 0xFFFF;
      let s : State := on; (match started 0x0500 c s with | some (v, f) => let act := pByte f.cmd 24; let d := pByte f.cmd 25; decide (act = 2 ∧ 0 < d ∧ d ≤ 8 ∧ serving v = true) | _ => false),
    let c : TrellisCmd := pk [(24, 1, 3), (25, 1, 1)] [] 0xFFFF;
      let s : State := on; (match started 0x0500 c s with | some (v, f) => let act := pByte f.cmd 24; let d := pByte f.cmd 25; decide (act = 3 ∧ 0 < d ∧ d ≤ 8 ∧ serving v = true) | _ => false)] : List Bool).all id = true := by decide +kernel

/-- Clause by clause, states and operands that meet the hypotheses of `Obligations.RailEvents`. -/
theorem witness_RailEvents_1 : ([
    let n : Nat := 1; let t : Nat := 0;
      let s : State := (let z := at_ .railsUp; { z with now := 0, psq := { z.psq with table := { builtin := false, slots := [{ cls := 1 }, { cls := 2, prereq := 1 }], slaves := [5, 0, 0, 0, 0, 0, 0, 0] }, on := [0], good := [0] } });
      let u := tick s t;
      let st := u.dev.state; decide ((mayEnable u n = true ∧ (st = .railsUp ∨ ((railSlot u n).cls = 3 ∧ (st = .training ∨ serving u = true)) ∨ ((match u.psq.sw with | some w => decide (w.on = true ∧ mayStep u w n = true) | none => false) = true)))),
    let n : Nat := 1; let t : Nat := 0; let s : State := on; let u := tick s t;
      let st := u.dev.state; decide ((¬ (mayEnable u n = true ∧ (st = .railsUp ∨ ((railSlot u n).cls = 3 ∧ (st = .training ∨ serving u = true)) ∨ ((match u.psq.sw with | some w => decide (w.on = true ∧ mayStep u w n = true) | none => false) = true))))),
    let n : Nat := 1; let t : Nat := 0; let s : State := on; let u := tick s t; decide ((u.psq.on.contains n = false ∨ u.psq.good.contains n = true)),
    let n : Nat := 1; let t : Nat := 0;
      let s : State := (let z := on; { z with now := 0, psq := { z.psq with table := { builtin := false, slots := [{ cls := 1 }, { cls := 2, prereq := 1, glitch := 5 }], slaves := [5, 0, 0, 0, 0, 0, 0, 0] } } });
      let u := tick s t; decide (u.now < tgetD u.psq.onAt n 0 + (railSlot u n).glitch),
    let n : Nat := 1; let t : Nat := 0; let s : State := on; let u := tick s t; decide (u.now < tgetD u.psq.onAt n 0 + 10 * (railSlot u n).ramp),
    let n : Nat := 1; let t : Nat := 0;
      let s : State := (let z := at_ .railsUp; { z with now := 0, psq := { z.psq with table := { builtin := false, slots := [{ cls := 1 }, { cls := 2, prereq := 1 }], slaves := [5, 0, 0, 0, 0, 0, 0, 0] }, on := [0, 1], good := [0] } });
      let u := tick s t; decide (u.psq.on.contains n = true ∧ u.psq.good.contains n = false ∧ tgetD u.psq.onAt n 0 + (railSlot u n).glitch ≤ u.now) && (let v := { u with psq := { u.psq with good := goodInsert u.psq.goodAt u.now n u.psq.good, goodAt := tset u.psq.goodAt n u.now, lastGood := n } }; let d := (railSlot u n).domain; decide ((¬ (u.psq.sw = none ∧ d ≠ 0 ∧ (domainSlots v d).all (fun m => v.psq.good.contains m) = true)))),
    let n : Nat := 1; let t : Nat := 0;
      let s : State := (let z := at_ .railsUp; { z with now := 0, psq := { z.psq with table := { builtin := false, slots := [{ cls := 1 }, { cls := 2, prereq := 1, domain := 1 }], slaves := [5, 0, 0, 0, 0, 0, 0, 0] }, on := [0, 1], good := [0] } });
      let u := tick s t;
      let st := u.dev.state; decide (u.psq.on.contains n = true ∧ u.psq.good.contains n = false ∧ tgetD u.psq.onAt n 0 + (railSlot u n).glitch ≤ u.now) && (let v := { u with psq := { u.psq with good := goodInsert u.psq.goodAt u.now n u.psq.good, goodAt := tset u.psq.goodAt n u.now, lastGood := n } }; let d := (railSlot u n).domain; decide ((u.psq.sw = none ∧ d ≠ 0 ∧ (domainSlots v d).all (fun m => v.psq.good.contains m) = true) ∧ st = .railsUp)),
    let n : Nat := 1; let t : Nat := 0;
      let s : State := (let z := on; { z with now := 0, psq := { z.psq with table := { builtin := false, slots := [{ cls := 1 }, { cls := 2, prereq := 1, domain := 1 }], slaves := [5, 0, 0, 0, 0, 0, 0, 0] }, on := [0, 1], good := [0] } });
      let u := tick s t;
      let st := u.dev.state; decide (u.psq.on.contains n = true ∧ u.psq.good.contains n = false ∧ tgetD u.psq.onAt n 0 + (railSlot u n).glitch ≤ u.now) && (let v := { u with psq := { u.psq with good := goodInsert u.psq.goodAt u.now n u.psq.good, goodAt := tset u.psq.goodAt n u.now, lastGood := n } }; let d := (railSlot u n).domain; decide ((u.psq.sw = none ∧ d ≠ 0 ∧ (domainSlots v d).all (fun m => v.psq.good.contains m) = true) ∧ st ≠ .railsUp)),
    let n : Nat := 1; let t : Nat := 0;
      let s : State := (let z := on; { z with now := 10000000, psq := { z.psq with table := { builtin := false, slots := [{ cls := 1 }, { cls := 2, prereq := 1, domain := 1 }], slaves := [5, 0, 0, 0, 0, 0, 0, 0] }, on := [0, 1], good := [0], sw := some { domain := 1, on := true } } });
      let u := tick s t; decide (u.psq.on.contains n = true ∧ u.psq.good.contains n = false ∧ tgetD u.psq.onAt n 0 + 10 * (railSlot u n).ramp ≤ u.now) && (let d := (railSlot u n).domain; let w := ({ domain := 1, on := true } : DomSw); decide (u.psq.sw = some w ∧ w.on = true ∧ d = w.domain)),
    let n : Nat := 1; let t : Nat := 0;
      let s : State := (let z := at_ .railsUp; { z with now := 10000000, psq := { z.psq with table := { builtin := false, slots := [{ cls := 1 }, { cls := 2, prereq := 1 }], slaves := [5, 0, 0, 0, 0, 0, 0, 0] }, on := [0, 1] } });
      let u := tick s t;
      let st := u.dev.state; decide (u.psq.on.contains n = true ∧ u.psq.good.contains n = false ∧ tgetD u.psq.onAt n 0 + 10 * (railSlot u n).ramp ≤ u.now) && (let d := (railSlot u n).domain; decide ((¬ ((match u.psq.sw with | some w => decide (w.on = true ∧ d = w.domain) | none => false) = true)) ∧ (st = .railsUp ∨ ((railSlot u n).cls = 3 ∧ (st = .training ∨ serving u = true))))),
    let n : Nat := 1; let t : Nat := 0;
      let s : State := (let z := on; { z with now := 10000000, psq := { z.psq with table := { builtin := false, slots := [{ cls := 1 }, { cls := 2, prereq := 1 }], slaves := [5, 0, 0, 0, 0, 0, 0, 0] }, on := [0, 1] } });
      let u := tick s t;
      let st := u.dev.state; decide (u.psq.on.contains n = true ∧ u.psq.good.contains n = false ∧ tgetD u.psq.onAt n 0 + 10 * (railSlot u n).ramp ≤ u.now) && (let d := (railSlot u n).domain; decide ((¬ ((match u.psq.sw with | some w => decide (w.on = true ∧ d = w.domain) | none => false) = true)) ∧ (¬ ((railSlot u n).cls = 3 ∧ (st = .training ∨ serving u = true))) ∧ serving u = true ∧ d = 0)),
    let n : Nat := 1; let t : Nat := 0;
      let s : State := (let z := on; { z with now := 10000000, psq := { z.psq with table := { builtin := false, slots := [{ cls := 1 }, { cls := 2, prereq := 1, domain := 1 }], slaves := [5, 0, 0, 0, 0, 0, 0, 0] }, on := [0, 1] } });
      let u := tick s t;
      let st := u.dev.state; decide (u.psq.on.contains n = true ∧ u.psq.good.contains n = false ∧ tgetD u.psq.onAt n 0 + 10 * (railSlot u n).ramp ≤ u.now) && (let d := (railSlot u n).domain; decide ((¬ ((match u.psq.sw with | some w => decide (w.on = true ∧ d = w.domain) | none => false) = true)) ∧ (¬ ((railSlot u n).cls = 3 ∧ (st = .training ∨ serving u = true))) ∧ st ≠ .railsUp ∧ (serving u = false ∨ d ≠ 0))),
    let n : Nat := 1; let t : Nat := 0;
      let s : State := (let z := at_ .railsDown; { z with now := 0, psq := { z.psq with table := { builtin := false, slots := [{ cls := 1 }, { cls := 2, prereq := 1 }], slaves := [5, 0, 0, 0, 0, 0, 0, 0] }, on := [0, 1], good := [0, 1], phase := 2 } });
      let u := tick s t; decide (u.psq.off = [] ∧ nextOff u = some n ∧ u.psq.lastOffAt + (railSlot u n).delay ≤ u.now),
    let n : Nat := 1; let t : Nat := 0; let s : State := on;
      let u := tick s t; decide ((u.psq.off ≠ [] ∨ nextOff u ≠ some n ∨ u.now < u.psq.lastOffAt + (railSlot u n).delay)),
    let n : Nat := 1; let t : Nat := 0; let s : State := on; let u := tick s t; decide (u.psq.off.contains n = false),
    let n : Nat := 1; let t : Nat := 0;
      let s : State := (let z := on; { z with now := 0, psq := { z.psq with table := { builtin := false, slots := [{ cls := 1 }, { cls := 2, prereq := 1 }], slaves := [5, 0, 0, 0, 0, 0, 0, 0] }, off := [1] } });
      let u := tick s t; decide (u.psq.off.contains n = true),
    let n : Nat := 1; let t : Nat := 0;
      let s : State := (let z := on; { z with now := 10000000, psq := { z.psq with table := { builtin := false, slots := [{ cls := 1 }, { cls := 2, prereq := 1 }], slaves := [5, 0, 0, 0, 0, 0, 0, 0] }, off := [1] } });
      let u := tick s t; decide (u.psq.off.contains n = true ∧ tgetD u.psq.disAt n 0 + 10 * (railSlot u n).ramp ≤ u.now),
    let n : Nat := 1; let t : Nat := 0;
      let s : State := (let z := on; { z with now := 0, psq := { z.psq with table := { builtin := false, slots := [{ cls := 1 }, { cls := 2, prereq := 1, ramp := 5 }], slaves := [5, 0, 0, 0, 0, 0, 0, 0] }, off := [1] } });
      let u := tick s t; decide (u.psq.off.contains n = true ∧ (¬ tgetD u.psq.disAt n 0 + 10 * (railSlot u n).ramp ≤ u.now)),
    let t : Nat := 0; let s : State := { on with dev := { on.dev with won := some (0, 0) } }; let u := tick s t; decide (outranked u 1 = true),
    let t : Nat := 0; let s : State := on; let u := tick s t; decide (outranked u 1 = false)] : List Bool).all id = true := by decide +kernel

theorem witness_RailEvents_2 : ([
    let t : Nat := 0; let s : State := at_ .off; let u := tick s t; let st := u.dev.state; decide ((st = .off ∨ u.psq.collapse = true)),
    let t : Nat := 0; let s : State := on; let u := tick s t; let st := u.dev.state; decide (st ≠ .off ∧ u.psq.collapse = false),
    let n : Nat := 1; let t : Nat := 0; let s : State := on; let u := tick s t;
      let st := u.dev.state; decide ((st ≠ .held ∨ n = 0 ∨ (railSlot u n).hold = false)),
    let n : Nat := 1; let t : Nat := 0;
      let s : State := (let z := at_ .held; { z with now := 0, psq := { z.psq with table := { builtin := false, slots := [{ cls := 1 }, { cls := 2, hold := true }] } } });
      let u := tick s t; let st := u.dev.state; decide (st = .held ∧ n ≠ 0 ∧ (railSlot u n).hold = true),
    let t : Nat := 0; let s : State := on; let u := tick s t; let st := u.dev.state; decide (st ≠ .held),
    let t : Nat := 0; let s : State := at_ .held; let u := tick s t; let st := u.dev.state; decide (st = .held),
    true,
    let slave : Nat := 1; let t : Nat := 0; let s : State := on; let u := tick s t;
      let st := u.dev.state; decide ((slaveSlots u slave = [] ∨ u.psq.collapse = true ∨ st = .off)),
    let slave : Nat := 1; let t : Nat := 0; let ok : Bool := true;
      let s : State := (let z := (let z := on; { z with now := 0, psq := { z.psq with table := { builtin := false, slots := [{ cls := 1 }, { cls := 2, slave := true, slaveIdx := 1 }] }, good := [1] } }); { z with regs := tset z.regs (regAt rTwiCfg 2) (BitVec.ofNat 32 (2 ^ 31)) });
      let u := tick s t; let st := u.dev.state; decide (slaveSlots u slave ≠ [] ∧ u.psq.collapse = false ∧ st ≠ .off ∧ ok = true ∧ twiUp u 2 = true),
    let slave : Nat := 1; let t : Nat := 0; let ok : Bool := false;
      let s : State := (let z := on; { z with now := 0, psq := { z.psq with table := { builtin := false, slots := [{ cls := 1 }, { cls := 2, slave := true, slaveIdx := 1 }] }, good := [1], slaveFails := [(1, 1)] } });
      let u := tick s t;
      let st := u.dev.state; decide (slaveSlots u slave ≠ [] ∧ u.psq.collapse = false ∧ st ≠ .off ∧ (ok = false ∨ twiUp u 2 = false)) && (let k := tgetD u.psq.slaveFails slave 0 + 1; decide (k ≠ 3)),
    let slave : Nat := 1; let t : Nat := 0; let ok : Bool := false;
      let s : State := (let z := on; { z with now := 0, psq := { z.psq with table := { builtin := false, slots := [{ cls := 1 }, { cls := 2, slave := true, slaveIdx := 1 }] }, good := [1], slaveFails := [(1, 2)] } });
      let u := tick s t;
      let st := u.dev.state; decide (slaveSlots u slave ≠ [] ∧ u.psq.collapse = false ∧ st ≠ .off ∧ (ok = false ∨ twiUp u 2 = false)) && (let k := tgetD u.psq.slaveFails slave 0 + 1; decide (k = 3)),
    let s : State := (let z := on; { z with now := 0, psq := { z.psq with table := { builtin := false, slots := [{ cls := 1 }, { cls := 2, uv := 5, ov := 9 }] } } });
      let n : Nat := 1; let code : Nat := 9; decide (code ≤ 1023 ∧ (railSlot s n).cls ≠ 0 ∧ (railSlot s n).uv ≤ code ∧ code ≤ (railSlot s n).ov),
    let s : State := (let z := on; { z with now := 0, psq := { z.psq with table := { builtin := false, slots := [{ cls := 1 }, { cls := 2, prereq := 1, uv := 9, glitch := 0 }], slaves := [5, 0, 0, 0, 0, 0, 0, 0] }, scanSlots := [1] } });
      let n : Nat := 1; let code : Nat := 0;
      let r := railSlot s n; decide (r.cls ≠ 0 ∧ (code < r.uv ∨ r.ov < code) ∧ scanned s n = true ∧ tgetD s.psq.outSince n s.now + r.glitch ≤ s.now),
    let c : TrellisCmd := pk [(24, 1, 8), (25, 1, 208)] [] 0xFFFF;
      let s : State := on; (match started 0x0502 c s with | some (v, f) => let k := pByte f.cmd 24; let addr := v.psq.table.slaves.getD k 0; decide ((7 < k ∨ addr = 0)) | _ => false),
    let c : TrellisCmd := pk [(24, 1, 0), (25, 1, 212)] [] 0xFFFF;
      let s : State := (let z := on; { z with now := 0, psq := { z.psq with table := { builtin := false, slots := [{ cls := 1 }, { cls := 2, prereq := 1 }], slaves := [5, 0, 0, 0, 0, 0, 0, 0] } } }); (match started 0x0502 c s with | some (v, f) => let k := pByte f.cmd 24; let code := pByte f.cmd 25; let addr := v.psq.table.slaves.getD k 0; decide (k ≤ 7 ∧ addr ≠ 0 ∧ (code < 0xD0 ∨ 0xD3 < code)) | _ => false),
    let c : TrellisCmd := pk [(24, 1, 0), (25, 1, 209)] [] 0xFFFF;
      let s : State := (let z := on; { z with now := 0, psq := { z.psq with table := { builtin := false, slots := [{ cls := 1 }, { cls := 2, prereq := 1 }], slaves := [5, 0, 0, 0, 0, 0, 0, 0] } } }); (match started 0x0502 c s with | some (v, f) => let k := pByte f.cmd 24; let code := pByte f.cmd 25; let addr := v.psq.table.slaves.getD k 0; decide (k ≤ 7 ∧ addr ≠ 0 ∧ 0xD0 ≤ code ∧ code ≤ 0xD1 ∧ (owns v f.cmd.est 3 = false ∨ v.psq.sw = none)) | _ => false),
    let c : TrellisCmd := pk [(24, 1, 0), (25, 1, 211)] [] 0xFFFF;
      let s : State := (let z := on; { z with now := 0, psq := { z.psq with table := { builtin := false, slots := [{ cls := 1 }, { cls := 2, prereq := 1 }], slaves := [5, 0, 0, 0, 0, 0, 0, 0] } } }); (match started 0x0502 c s with | some (v, f) => let k := pByte f.cmd 24; let code := pByte f.cmd 25; let addr := v.psq.table.slaves.getD k 0; decide (k ≤ 7 ∧ addr ≠ 0 ∧ 0xD0 ≤ code ∧ code ≤ 0xD3 ∧ (0xD2 ≤ code ∨ (owns v f.cmd.est 3 = true ∧ v.psq.sw.isSome = true))) | _ => false)] : List Bool).all id = true := by decide +kernel

/-- Clause by clause, states and operands that meet the hypotheses of `Obligations.CollectorCommands`. -/
theorem witness_CollectorCommands_1 : ([
    let n : Nat := 0x1FF; let t : Nat := 0; let s : State := on; let u := tick s t;
      let x := source u n; decide ((x.polled = true ∨ (sources u).contains n = false)),
    let n : Nat := 1; let t : Nat := 0; let s : State := on; let u := tick s t;
      let x := source u n; decide (x.polled = false ∧ (sources u).contains n = true ∧ x.inject = none),
    let n : Nat := 1; let t : Nat := 0;
      let s : State := (let z := on; { z with flt := { z.flt with src := [(1, { inject := some { path := true } })] } }); let u := tick s t;
      let x := source u n; decide (x.polled = false ∧ (sources u).contains n = true) && ((match x.inject with | some j => decide (j.path = true) | _ => false)),
    let n : Nat := 1; let t : Nat := 0; let s : State := (let z := on; { z with flt := { z.flt with src := [(1, { inject := some {} })] } });
      let u := tick s t;
      let x := source u n; decide (x.polled = false ∧ (sources u).contains n = true) && ((match x.inject with | some j => decide (j.path = false) | _ => false)),
    let n : Nat := 1; let t : Nat := 0;
      let s : State := (let z := on; { z with flt := { z.flt with src := [(1, { inject := some { path := true } })] } }); let u := tick s t;
      let x := source u n; (match x.inject with | some j => decide (j.path = true) | _ => false),
    ((tick on 0).flt.src.isEmpty && !(sources (tick on 0)).contains 0x1FF),
    ((tick on 0).flt.src.isEmpty && (sources (tick on 0)).contains 1),
    let k : Nat := 3; let t : Nat := 0; let s : State := on; let u := tick s t; decide ((2 < k ∨ u.flt.brokenWires.contains k = true)),
    let k : Nat := 2; let t : Nat := 0; let s : State := on; let u := tick s t; decide (k ≤ 2 ∧ u.flt.brokenWires.contains k = false),
    let k : Nat := 24; let t : Nat := 0; let s : State := on; let u := tick s t; decide ((23 < k ∨ u.psq.scanSlots.contains k = true)),
    let k : Nat := 23; let t : Nat := 0; let s : State := on; let u := tick s t; decide (k ≤ 23 ∧ u.psq.scanSlots.contains k = false),
    let n : Nat := 1; let t : Nat := 0; let s : State := on; let u := tick s t; let x := source u n; decide (x.polled = false),
    let n : Nat := 1; let t : Nat := 0; let s : State := (let z := on; { z with flt := { z.flt with src := [(1, { polled := true })] } });
      let u := tick s t; let x := source u n; decide (x.polled = true),
    (!logReady (tick (at_ .off) 0)),
    (logReady (tick on 0) && (tget (tick on 0).log.lastRec 0x200).isNone),
    let c : TrellisCmd := pk [(24, 2, 512), (26, 2, 1)] (zeros 0) 0xFFFF;
      let s : State := on; (match started 0x0600 c s with | some (_, f) => let a := pNum f.cmd 24 2; decide (0x1FF < a) | _ => false),
    let c : TrellisCmd := pk [(24, 2, 511), (26, 2, 2)] (zeros 0) 0xFFFF;
      let s : State := on; (match started 0x0600 c s with | some (_, f) => let a := pNum f.cmd 24 2; let n := pNum f.cmd 26 2; decide (a ≤ 0x1FF ∧ (n = 0 ∨ 512 < n ∨ 0x200 < a + n)) | _ => false),
    let c : TrellisCmd := pk [(24, 2, 511), (26, 2, 1)] (zeros 7) 0xFFFF;
      let s : State := on; (match started 0x0600 c s with | some (_, f) => let a := pNum f.cmd 24 2; let n := pNum f.cmd 26 2; let snap := bit (pByte f.cmd 28) 0; decide (a ≤ 0x1FF ∧ 0 < n ∧ a + n ≤ 0x200 ∧ f.cmd.payLen < 8 * n + (if snap then 512 else 0)) | _ => false),
    let c : TrellisCmd := pk [(24, 2, 511), (26, 2, 1)] (zeros 8) 0xFFFF;
      let s : State := on; (match started 0x0600 c s with | some (_, f) => let a := pNum f.cmd 24 2; let n := pNum f.cmd 26 2; let snap := bit (pByte f.cmd 28) 0; decide (a ≤ 0x1FF ∧ 0 < n ∧ a + n ≤ 0x200 ∧ 8 * n + (if snap then 512 else 0) ≤ f.cmd.payLen) | _ => false),
    let c : TrellisCmd := pk [(24, 2, 512), (26, 1, 0)] [] 0xFFFF;
      let s : State := on; (match started 0x0601 c s with | some (v, f) => let n := pNum f.cmd 24 2; decide ((¬ ((n ≤ 0x1FF ∨ n = 0xFFFF) ∧ (¬ ((srcKind n).isSome = true ∧ (sources v).contains n = false))))) | _ => false)] : List Bool).all id = true := by decide +kernel

theorem witness_CollectorCommands_2 : ([
    let c : TrellisCmd := pk [(24, 2, 511), (26, 1, 2)] [] 0xFFFF;
      let s : State := on; (match started 0x0601 c s with | some (v, f) => let n := pNum f.cmd 24 2; let act := pByte f.cmd 26; decide (((n ≤ 0x1FF ∨ n = 0xFFFF) ∧ (¬ ((srcKind n).isSome = true ∧ (sources v).contains n = false))) ∧ 1 < act) | _ => false),
    let c : TrellisCmd := pk [(24, 2, 65535), (26, 1, 1)] [] 0xFFFF;
      let s : State := on; (match started 0x0601 c s with | some (v, f) => let n := pNum f.cmd 24 2; let act := pByte f.cmd 26; decide (((n ≤ 0x1FF ∨ n = 0xFFFF) ∧ (¬ ((srcKind n).isSome = true ∧ (sources v).contains n = false))) ∧ act = 1) | _ => false),
    let c : TrellisCmd := pk [(24, 2, 0), (26, 1, 0)] [] 0xFFFF;
      let s : State := (let z := on; { z with flt := { z.flt with latched := some 0 } }); (match started 0x0601 c s with | some (v, f) => let n := pNum f.cmd 24 2; let act := pByte f.cmd 26; decide (((n ≤ 0x1FF ∨ n = 0xFFFF) ∧ (¬ ((srcKind n).isSome = true ∧ (sources v).contains n = false))) ∧ act = 0 ∧ v.flt.latched = some n) | _ => false),
    let c : TrellisCmd := pk [(24, 2, 65535), (26, 1, 0)] [] 0xFFFF;
      let s : State := on; (match started 0x0601 c s with | some (v, f) => let n := pNum f.cmd 24 2; let act := pByte f.cmd 26; decide (((n ≤ 0x1FF ∨ n = 0xFFFF) ∧ (¬ ((srcKind n).isSome = true ∧ (sources v).contains n = false))) ∧ act = 0 ∧ v.flt.latched ≠ some n) | _ => false),
    let c : TrellisCmd := pk [(24, 2, 511), (26, 1, 0), (27, 1, 0), (28, 1, 1)] [] 0xFFFF;
      let s : State := on; (match started 0x0602 c s with | some (v, f) => let n := pNum f.cmd 24 2; decide ((sources v).contains n = false) | _ => false),
    let c : TrellisCmd := pk [(24, 2, 1), (26, 1, 2), (27, 1, 0), (28, 1, 1)] [] 0xFFFF;
      let s : State := on; (match started 0x0602 c s with | some (v, f) => let n := pNum f.cmd 24 2; let mode := pByte f.cmd 26; decide ((sources v).contains n = true ∧ 1 < mode) | _ => false),
    let c : TrellisCmd := pk [(24, 2, 1), (26, 1, 1), (27, 1, 2), (28, 1, 0)] [] 0xFFFF;
      let s : State := on; (match started 0x0602 c s with | some (v, f) => let n := pNum f.cmd 24 2; let mode := pByte f.cmd 26; decide ((sources v).contains n = true ∧ mode ≤ 1 ∧ 1 < pByte f.cmd 27) | _ => false),
    let c : TrellisCmd := pk [(24, 2, 1), (26, 1, 0), (27, 1, 0), (28, 1, 0)] [] 0xFFFF;
      let s : State := on; (match started 0x0602 c s with | some (v, f) => let n := pNum f.cmd 24 2; let mode := pByte f.cmd 26; let checks := pByte f.cmd 28; decide ((sources v).contains n = true ∧ mode = 0 ∧ pByte f.cmd 27 ≤ 1 ∧ checks = 0) | _ => false),
    let c : TrellisCmd := pk [(24, 2, 0), (26, 1, 1), (27, 1, 1), (28, 1, 0)] [] 0xFFFF;
      let s : State := { on with fus := { on.fus with lifecycle := 7#4 } }; (match started 0x0602 c s with | some (v, f) => let n := pNum f.cmd 24 2; let mode := pByte f.cmd 26; let live := bit (pByte f.cmd 27) 0; let checks := pByte f.cmd 28; decide (((sources v).contains n = true ∧ mode ≤ 1 ∧ pByte f.cmd 27 ≤ 1 ∧ (mode = 0 → checks ≠ 0)) ∧ (live = true ∧ 2 ≤ reactRank n ∧ 2 ≤ lifecycle v)) | _ => false),
    let c : TrellisCmd := pk [(24, 2, 1), (26, 1, 0), (27, 1, 0), (28, 1, 1)] [] 0xFFFF;
      let s : State := (let z := on; { z with flt := { z.flt with src := [(1, { inject := some {} })] } }); (match started 0x0602 c s with | some (v, f) => let n := pNum f.cmd 24 2; let mode := pByte f.cmd 26; let live := bit (pByte f.cmd 27) 0; let checks := pByte f.cmd 28; decide (((sources v).contains n = true ∧ mode ≤ 1 ∧ pByte f.cmd 27 ≤ 1 ∧ (mode = 0 → checks ≠ 0)) ∧ (¬ (live = true ∧ 2 ≤ reactRank n ∧ 2 ≤ lifecycle v)) ∧ (source v n).inject.isSome = true) | _ => false),
    let c : TrellisCmd := pk [(24, 2, 1), (26, 1, 0), (27, 1, 0), (28, 1, 255)] [] 0xFFFF;
      let s : State := on; (match started 0x0602 c s with | some (v, f) => let n := pNum f.cmd 24 2; let mode := pByte f.cmd 26; let live := bit (pByte f.cmd 27) 0; let checks := pByte f.cmd 28; decide (((sources v).contains n = true ∧ mode ≤ 1 ∧ pByte f.cmd 27 ≤ 1 ∧ (mode = 0 → checks ≠ 0)) ∧ (¬ (live = true ∧ 2 ≤ reactRank n ∧ 2 ≤ lifecycle v)) ∧ (source v n).inject = none) | _ => false),
    let c : TrellisCmd := pk [(24, 1, 4)] [] 0xFFFF;
      let s : State := on; (match started 0x0700 c s with | some (_, f) => let mode := pByte f.cmd 24; decide (3 < mode) | _ => false),
    let c : TrellisCmd := pk [(24, 1, 0)] [] 0xFFFF;
      let s : State := on; (match started 0x0700 c s with | some (_, f) => let mode := pByte f.cmd 24; decide (mode = 0) | _ => false),
    let c : TrellisCmd := pk [(24, 1, 1)] [] 0xFFFF;
      let s : State := on; (match started 0x0700 c s with | some (_, f) => let mode := pByte f.cmd 24; decide (mode = 1) | _ => false),
    let c : TrellisCmd := pk [(24, 1, 2)] [] 0xFFFF;
      let s : State := on; (match started 0x0700 c s with | some (_, f) => let mode := pByte f.cmd 24; decide (mode = 2) | _ => false),
    let c : TrellisCmd := pk [(24, 1, 3)] [] 0xFFFF;
      let s : State := on; (match started 0x0700 c s with | some (_, f) => let mode := pByte f.cmd 24; decide (mode = 3) | _ => false),
    let c : TrellisCmd := pk [] (zeros 255) 0xFFFF;
      let s : State := on; (match started 0x0701 c s with | some (_, f) => let n := f.cmd.payLen; decide ((n % 256 ≠ 0 ∨ n < 256 ∨ 4096 < n)) | _ => false),
    let c : TrellisCmd := pk [] (zeros 256) 0xFFFF;
      let s : State := on; (match started 0x0701 c s with | some (_, f) => let n := f.cmd.payLen; decide (n % 256 = 0 ∧ 256 ≤ n ∧ n ≤ 4096) | _ => false),
    let c : TrellisCmd := pk [] [] 0xFFFF;
      let s : State := { on with log := { on.log with clearing := some 9 } }; (match started 0x0702 c s with | some (v, _) => decide (v.log.clearing.isSome = true) | _ => false),
    let c : TrellisCmd := pk [] [] 0xFFFF;
      let s : State := on; (match started 0x0702 c s with | some (v, _) => decide (v.log.clearing = none) | _ => false)] : List Bool).all id = true := by decide +kernel

/-- Clause by clause, states and operands that meet the hypotheses of `Obligations.KeysFusesAndFlashOperations`. -/
theorem witness_KeysFusesAndFlashOperations_1 : ([
    let c : TrellisCmd := pk [] [] 0xFFFF;
      let s : State := on; (match started 0x0900 c s with | some (v, f) => decide (owns v f.cmd.est 10 = false) | _ => false),
    let c : TrellisCmd := pk [(24, 1, 8)] [] 0xFFFF;
      let s : State := (own on 10 0x2000); (match started 0x0900 c s with | some (v, f) => let n := pByte f.cmd 24; decide (owns v f.cmd.est 10 = true ∧ 7 < n) | _ => false),
    let c : TrellisCmd := pk [(24, 1, 7)] (zeros 31) 0xFFFF;
      let s : State := (own on 10 0x2000); (match started 0x0900 c s with | some (v, f) => let n := pByte f.cmd 24; let l := payIn f.cmd; decide (owns v f.cmd.est 10 = true ∧ n ≤ 7 ∧ (f.cmd.payLen ≠ 32 ∨ reservedName l = true)) | _ => false),
    let c : TrellisCmd := pk [(24, 1, 7)] (0x41#8 :: zeros 31) 0xFFFF;
      let s : State := (own on 10 0x2000); (match started 0x0900 c s with | some (v, f) => let n := pByte f.cmd 24; let l := payIn f.cmd; decide (owns v f.cmd.est 10 = true ∧ n ≤ 7 ∧ f.cmd.payLen = 32 ∧ reservedName l = false) | _ => false),
    let c : TrellisCmd := pk [(24, 1, 8), (28, 4, 0)] (zeros 16) 0xFFFF;
      let s : State := on; (match started 0x0901 c s with | some (_, f) => let slot := pByte f.cmd 24; decide (7 < slot) | _ => false),
    let c : TrellisCmd := pk [(24, 1, 7), (28, 4, 0)] (zeros 15) 0xFFFF;
      let s : State := on; (match started 0x0901 c s with | some (_, f) => let slot := pByte f.cmd 24; let n := f.cmd.payLen; decide (slot ≤ 7 ∧ (n < 16 ∨ 65536 < n)) | _ => false),
    let c : TrellisCmd := pk [(24, 1, 7), (28, 4, 1)] (zeros 16) 0xFFFF;
      let s : State := on; (match started 0x0901 c s with | some (_, f) => let slot := pByte f.cmd 24; let a := pNum f.cmd 28 4; let n := f.cmd.payLen; decide (slot ≤ 7 ∧ 16 ≤ n ∧ n ≤ 65536 ∧ n < a + 16) | _ => false),
    let c : TrellisCmd := pk [(24, 1, 7), (28, 4, 0)] (zeros 16) 0xFFFF;
      let s : State := (let z := on; { z with now := 0, krc := { z.krc with rootRefused := true } }); (match started 0x0901 c s with | some (v, f) => let slot := pByte f.cmd 24; let a := pNum f.cmd 28 4; let n := f.cmd.payLen; decide ((slot ≤ 7 ∧ 16 ≤ n ∧ n ≤ 65536 ∧ a + 16 ≤ n) ∧ v.krc.rootRefused = true) | _ => false),
    let c : TrellisCmd := pk [(24, 1, 7), (28, 4, 0)] (zeros 16) 0xFFFF;
      let s : State := (let z := on; { z with now := 0, krc := { z.krc with nonceNext := 2 ^ 64 - 2 ^ 16 } }); (match started 0x0901 c s with | some (v, f) => let slot := pByte f.cmd 24; let a := pNum f.cmd 28 4; let n := f.cmd.payLen; decide ((slot ≤ 7 ∧ 16 ≤ n ∧ n ≤ 65536 ∧ a + 16 ≤ n) ∧ v.krc.rootRefused = false ∧ 2 ^ 64 - 2 ^ 16 ≤ v.krc.nonceNext) | _ => false),
    let c : TrellisCmd := pk [(24, 1, 7), (28, 4, 0)] (zeros 16) 0xFFFF;
      let s : State := (let z := on; { z with now := 0, krc := { z.krc with nonceSafe := 1, nonceEnd := 1 } }); (match started 0x0901 c s with | some (v, f) => let slot := pByte f.cmd 24; let a := pNum f.cmd 28 4; let n := f.cmd.payLen; decide ((slot ≤ 7 ∧ 16 ≤ n ∧ n ≤ 65536 ∧ a + 16 ≤ n) ∧ v.krc.rootRefused = false ∧ v.krc.nonceNext < 2 ^ 64 - 2 ^ 16 ∧ v.krc.nonceNext < v.krc.nonceSafe) | _ => false),
    let c : TrellisCmd := pk [(24, 1, 7), (28, 4, 0)] (zeros 16) 0xFFFF;
      let s : State := on; (match started 0x0901 c s with | some (v, f) => let slot := pByte f.cmd 24; let a := pNum f.cmd 28 4; let n := f.cmd.payLen; decide ((slot ≤ 7 ∧ 16 ≤ n ∧ n ≤ 65536 ∧ a + 16 ≤ n) ∧ v.krc.rootRefused = false ∧ v.krc.nonceNext < 2 ^ 64 - 2 ^ 16 ∧ v.krc.nonceSafe ≤ v.krc.nonceNext) | _ => false),
    let c : TrellisCmd := pk [(24, 1, 8), (28, 4, 0)] (zeros 16) 0xFFFF;
      let s : State := on; (match started 0x0902 c s with | some (_, f) => let slot := pByte f.cmd 24; decide (7 < slot) | _ => false),
    let c : TrellisCmd := pk [(24, 1, 7), (28, 4, 0)] (zeros 15) 0xFFFF;
      let s : State := on; (match started 0x0902 c s with | some (_, f) => let slot := pByte f.cmd 24; let n := f.cmd.payLen; decide (slot ≤ 7 ∧ (n < 16 ∨ 65536 < n)) | _ => false),
    let c : TrellisCmd := pk [(24, 1, 7), (28, 4, 1)] (zeros 16) 0xFFFF;
      let s : State := on; (match started 0x0902 c s with | some (_, f) => let slot := pByte f.cmd 24; let a := pNum f.cmd 28 4; let n := f.cmd.payLen; decide (slot ≤ 7 ∧ 16 ≤ n ∧ n ≤ 65536 ∧ n < a + 16) | _ => false),
    let c : TrellisCmd := pk [(24, 1, 7), (28, 4, 0)] (zeros 16) 0xFFFF;
      let s : State := (let z := on; { z with now := 0, krc := { z.krc with rootRefused := true } }); (match started 0x0902 c s with | some (v, f) => let slot := pByte f.cmd 24; let a := pNum f.cmd 28 4; let n := f.cmd.payLen; decide ((slot ≤ 7 ∧ 16 ≤ n ∧ n ≤ 65536 ∧ a + 16 ≤ n) ∧ v.krc.rootRefused = true) | _ => false),
    let c : TrellisCmd := pk [(24, 1, 7), (28, 4, 0)] (zeros 16) 0xFFFF;
      let s : State := on; (match started 0x0902 c s with | some (v, f) => let slot := pByte f.cmd 24; let a := pNum f.cmd 28 4; let n := f.cmd.payLen; decide ((slot ≤ 7 ∧ 16 ≤ n ∧ n ≤ 65536 ∧ a + 16 ≤ n) ∧ v.krc.rootRefused = false) | _ => false),
    let c : TrellisCmd := pk [(24, 1, 2), (25, 1, 0)] [] 0xFFFF;
      let s : State := on; (match started 0x0903 c s with | some (_, f) => let op := pByte f.cmd 24; decide (1 < op) | _ => false),
    let c : TrellisCmd := pk [(24, 1, 1), (25, 1, 8)] [] 0xFFFF;
      let s : State := on; (match started 0x0903 c s with | some (_, f) => let op := pByte f.cmd 24; let slot := pByte f.cmd 25; decide (op ≤ 1 ∧ 7 < slot) | _ => false),
    let c : TrellisCmd := pk [(24, 1, 1), (25, 1, 7)] [] 0xFFFF;
      let s : State := (let z := on; { z with now := 0, krc := { z.krc with rootRefused := true } }); (match started 0x0903 c s with | some (v, f) => let op := pByte f.cmd 24; let slot := pByte f.cmd 25; decide (op ≤ 1 ∧ slot ≤ 7 ∧ v.krc.rootRefused = true) | _ => false),
    let c : TrellisCmd := pk [(24, 1, 0), (25, 1, 7)] [] 0xFFFF;
      let s : State := on; (match started 0x0903 c s with | some (v, f) => let op := pByte f.cmd 24; let slot := pByte f.cmd 25; decide (op = 0 ∧ slot ≤ 7 ∧ v.krc.rootRefused = false) | _ => false)] : List Bool).all id = true := by decide +kernel

theorem witness_KeysFusesAndFlashOperations_2 : ([
    let c : TrellisCmd := pk [(24, 1, 1), (25, 1, 7)] [] 0xFFFF;
      let s : State := on; (match started 0x0903 c s with | some (v, f) => let op := pByte f.cmd 24; let slot := pByte f.cmd 25; decide (op = 1 ∧ slot ≤ 7 ∧ v.krc.rootRefused = false) | _ => false),
    (let u := tick (at_ .off) 0; u.dev.state == .off),
    (let u := tick (let z := on; { z with now := 0, krc := { z.krc with nonceNext := 2 ^ 64 - 2 ^ 16 } }) 0; u.dev.state != .off && decide (2 ^ 64 - 2 ^ 16 ≤ u.krc.nonceNext)),
    (let u := tick on 0; u.dev.state != .off && decide (u.krc.nonceNext < 2 ^ 64 - 2 ^ 16 ∧ u.krc.nonceEnd ≤ u.krc.nonceNext) && u.krc.nonceAt.isNone),
    let t : Nat := 0; let s : State := at_ .off; let u := tick s t; decide (u.dev.state = .off),
    let a : RegAcc := ({ issuer := 1 } : RegAcc); let t : Nat := 0; let s : State := on;
      let u := tick s t; decide (u.dev.state ≠ .off ∧ (¬ (((match a.path with | .mctp _ => true | _ => false) = true) ∧ issClass a.issuer = 2))),
    let a : RegAcc := ({ issuer := 0x2000 } : RegAcc); let v : Nat := 0xC3A40000; let t : Nat := 0; let s : State := on;
      let u := tick s t; decide (u.dev.state ≠ .off ∧ (((match a.path with | .mctp _ => true | _ => false) = true) ∧ issClass a.issuer = 2) ∧ bits v 16 16 ≠ 0xC3A5),
    let a : RegAcc := ({ issuer := 0x2000 } : RegAcc); let v : Nat := 0xC3A50000 + 1; let t : Nat := 0; let s : State := on; let u := tick s t;
      let arg := bits v 0 12; decide ((u.dev.state ≠ .off ∧ (((match a.path with | .mctp _ => true | _ => false) = true) ∧ issClass a.issuer = 2) ∧ bits v 16 16 = 0xC3A5) ∧ arg ≠ 0),
    let a : RegAcc := ({ issuer := 0x2000 } : RegAcc); let v : Nat := 0xC3A50000 + 0; let t : Nat := 0; let s : State := on; let u := tick s t;
      let arg := bits v 0 12; decide ((u.dev.state ≠ .off ∧ (((match a.path with | .mctp _ => true | _ => false) = true) ∧ issClass a.issuer = 2) ∧ bits v 16 16 = 0xC3A5) ∧ arg = 0),
    let a : RegAcc := ({ issuer := 0x2000 } : RegAcc); let v : Nat := 0xC3A50000 + 0; let t : Nat := 0; let s : State := on;
      let u := tick s t; decide ((u.dev.state ≠ .off ∧ (((match a.path with | .mctp _ => true | _ => false) = true) ∧ issClass a.issuer = 2) ∧ bits v 16 16 = 0xC3A5)),
    let a : RegAcc := ({ issuer := 0x2000 } : RegAcc); let v : Nat := 0xC3A50000 + 0; let t : Nat := 0; let s : State := on;
      let u := tick s t; decide ((u.dev.state ≠ .off ∧ (((match a.path with | .mctp _ => true | _ => false) = true) ∧ issClass a.issuer = 2) ∧ bits v 16 16 = 0xC3A5)),
    let a : RegAcc := ({ issuer := 0x2000 } : RegAcc); let v : Nat := 0xC3A50000 + 65; let t : Nat := 0; let s : State := on; let u := tick s t;
      let arg := bits v 0 12; decide ((u.dev.state ≠ .off ∧ (((match a.path with | .mctp _ => true | _ => false) = true) ∧ issClass a.issuer = 2) ∧ bits v 16 16 = 0xC3A5) ∧ 64 < arg),
    let a : RegAcc := ({ issuer := 0x2000 } : RegAcc); let v : Nat := 0xC3A50000 + 0; let t : Nat := 0; let s : State := on; let u := tick s t;
      let arg := bits v 0 12;
      let x := u.fus; decide ((u.dev.state ≠ .off ∧ (((match a.path with | .mctp _ => true | _ => false) = true) ∧ issClass a.issuer = 2) ∧ bits v 16 16 = 0xC3A5) ∧ arg ≤ 64 ∧ arg ≤ x.svn),
    let a : RegAcc := ({ issuer := 0x2000 } : RegAcc); let v : Nat := 0xC3A50000 + 64; let t : Nat := 0; let s : State := on; let u := tick s t;
      let arg := bits v 0 12;
      let x := u.fus; decide ((u.dev.state ≠ .off ∧ (((match a.path with | .mctp _ => true | _ => false) = true) ∧ issClass a.issuer = 2) ∧ bits v 16 16 = 0xC3A5) ∧ arg ≤ 64 ∧ x.svn < arg ∧ (activeSlot u = none ∨ ((match activeSlot u with | some y => decide (y.svn < arg) | none => false) = true))),
    let a : RegAcc := ({ issuer := 0x2000 } : RegAcc); let v : Nat := 0xC3A50000 + 64; let t : Nat := 0;
      let s : State := (let z := on; { z with now := 0, fwu := { z.fwu with active := some false, a := { svn := 64, key := 1 } } });
      let u := tick s t; let arg := bits v 0 12;
      let x := u.fus; decide ((u.dev.state ≠ .off ∧ (((match a.path with | .mctp _ => true | _ => false) = true) ∧ issClass a.issuer = 2) ∧ bits v 16 16 = 0xC3A5) ∧ arg ≤ 64 ∧ x.svn < arg) && ((match activeSlot u with | some y => decide (arg ≤ y.svn) | _ => false)),
    let a : RegAcc := ({ issuer := 0x2000 } : RegAcc); let v : Nat := 0xC3A50000 + 2; let t : Nat := 0; let s : State := on; let u := tick s t;
      let arg := bits v 0 12; decide ((u.dev.state ≠ .off ∧ (((match a.path with | .mctp _ => true | _ => false) = true) ∧ issClass a.issuer = 2) ∧ bits v 16 16 = 0xC3A5) ∧ 1 < arg),
    let a : RegAcc := ({ issuer := 0x2000 } : RegAcc); let v : Nat := 0xC3A50000 + 1; let t : Nat := 0;
      let s : State := (let z := on; { z with now := 0, fus := { z.fus with keyRevoke := 2#2 } }); let u := tick s t; let arg := bits v 0 12;
      let x := u.fus; decide ((u.dev.state ≠ .off ∧ (((match a.path with | .mctp _ => true | _ => false) = true) ∧ issClass a.issuer = 2) ∧ bits v 16 16 = 0xC3A5) ∧ arg ≤ 1 ∧ x.keyRevoke.getLsbD arg = true),
    let a : RegAcc := ({ issuer := 0x2000 } : RegAcc); let v : Nat := 0xC3A50000 + 1; let t : Nat := 0;
      let s : State := (let z := on; { z with now := 0, fwu := { z.fwu with active := some false, a := { svn := 64, key := 1 } } });
      let u := tick s t; let arg := bits v 0 12;
      let x := u.fus; decide ((u.dev.state ≠ .off ∧ (((match a.path with | .mctp _ => true | _ => false) = true) ∧ issClass a.issuer = 2) ∧ bits v 16 16 = 0xC3A5) ∧ arg ≤ 1 ∧ x.keyRevoke.getLsbD arg = false ∧ (x.keyRevoke ≠ 0#2 ∨ ((match activeSlot u with | some y => decide (y.key = arg) | none => false) = true))),
    (let u := tick (let z := on; { z with now := 0, fwu := { z.fwu with active := some false, a := { svn := 64, key := 1 } } }) 0; u.dev.state != .off && u.fus.keyRevoke == 0#2 && (match activeSlot u with | some y => y.key != 0 | none => true)),
    let t : Nat := 0; let s : State := at_ .off; let u := tick s t; decide (u.dev.state = .off)] : List Bool).all id = true := by decide +kernel

theorem witness_KeysFusesAndFlashOperations_3 : ([
    let a : RegAcc := ({ issuer := 0x2000 } : RegAcc); let v : Nat := 0x5A5A0001; let t : Nat := 0; let s : State := on;
      let u := tick s t; decide (u.dev.state ≠ .off ∧ (bits v 16 16 = 0x5A5A ∧ v % 4 = 1 ∧ rdpLevel u = 0 ∧ a.full = true)),
    let a : RegAcc := ({ issuer := 0x2000 } : RegAcc); let v : Nat := 0x5A5A0000; let t : Nat := 0;
      let s : State := (let z := at_ .latched; { z with now := 0, nvm := { z.nvm with shadow := { on.nvm.shadow with rdp := 1 } } });
      let u := tick s t; decide (u.dev.state ≠ .off ∧ (bits v 16 16 = 0x5A5A ∧ v % 4 = 0 ∧ rdpLevel u = 1 ∧ rdpFloor u = 0 ∧ (u.dev.state = .shelf ∨ u.dev.state = .latched) ∧ ((match a.path with | .mctp _ => true | _ => false) = true) ∧ issClass a.issuer = 2)),
    let a : RegAcc := ({ issuer := 0x2000 } : RegAcc); let v : Nat := 0; let t : Nat := 0; let s : State := on;
      let u := tick s t; decide (u.dev.state ≠ .off ∧ (¬ (bits v 16 16 = 0x5A5A ∧ v % 4 = 1 ∧ rdpLevel u = 0 ∧ a.full = true)) ∧ (¬ (bits v 16 16 = 0x5A5A ∧ v % 4 = 0 ∧ rdpLevel u = 1 ∧ rdpFloor u = 0 ∧ (u.dev.state = .shelf ∨ u.dev.state = .latched) ∧ ((match a.path with | .mctp _ => true | _ => false) = true) ∧ issClass a.issuer = 2))),
    let bank : Nat := 0; let t : Nat := 0; let s : State := on; let u := tick s t; let b := bank % 2; decide (bankOp u b = none),
    let bank : Nat := 0; let t : Nat := 0;
      let s : State := (let z := on; { z with now := 0, nvm := { z.nvm with opA := some { agent := 4, erase := true, addr := 0, data := [] } } });
      let u := tick s t; let b := bank % 2; (match bankOp u b with | some o => decide (o.erase = true) | _ => false),
    let bank : Nat := 0; let t : Nat := 0;
      let s : State := (let z := on; { z with now := 0, nvm := { z.nvm with opA := some { agent := 4, erase := false, addr := 0, data := [] } } });
      let u := tick s t; let b := bank % 2; (match bankOp u b with | some o => decide (o.erase = false) | _ => false),
    ((bankSusp (tick on 0) 0).isNone),
    let bank : Nat := 0; let t : Nat := 0;
      let s : State := (let z := on; { z with now := 0, nvm := { z.nvm with suspA := some { agent := 4, erase := true, addr := 0, data := [] } } });
      let u := tick s t;
      let b := bank % 2; (match bankSusp u b with | some _ => decide ((bankOp u b = none ∧ u.nvm.queue.any (fun o => nvmBank o == b && canRun u o) = false)) | _ => false)] : List Bool).all id = true := by decide +kernel

/-- Clause by clause, states and operands that meet the hypotheses of `Obligations.FirmwareAndTraining`. -/
theorem witness_FirmwareAndTraining_1 : ([
    let t : Nat := 0;
      let s : State := (let z := on; { z with now := 9, fwu := { z.fwu with active := some false, a := { st := 3 }, confirmBy := some 9 } });
      let u := tick s t; decide (((match u.fwu.confirmBy with | some x => decide (x ≤ u.now) | none => false) = true) ∧ tentative u = true),
    let t : Nat := 0;
      let s : State := (let z := on; { z with now := 8, fwu := { z.fwu with active := some false, a := { st := 3 }, confirmBy := some 9 } });
      let u := tick s t; decide (((¬ ((match u.fwu.confirmBy with | some x => decide (x ≤ u.now) | none => false) = true)) ∨ tentative u = false)),
    let t : Nat := 0;
      let s : State := (let z := (let z := on; { z with now := 399999, fwu := { z.fwu with tickAt := some 0 } }); { z with mpx := { z.mpx with activating := true, a := { st := 1 } } });
      let u := tick s t; decide ((¬ (u.mpx.activating = true ∧ pairsUp u = false ∧ ((match u.fwu.tickAt with | some a => decide (a + 400000 ≤ u.now) | none => true) = true)))),
    let t : Nat := 0; let s : State := (let z := on; { z with now := 0, mpx := { z.mpx with activating := true, a := { st := 1 } } });
      let u := tick s t;
      let w := activationCheck u; decide ((u.mpx.activating = true ∧ pairsUp u = false ∧ ((match u.fwu.tickAt with | some a => decide (a + 400000 ≤ u.now) | none => true) = true)) ∧ tentative w = false),
    let t : Nat := 0;
      let s : State := (let z := (let z := on; { z with now := 0, fwu := { z.fwu with active := some false, a := { st := 3 } } }); { z with now := 0, mpx := { z.mpx with activating := true, a := { st := 1 } } });
      let u := tick s t;
      let w := activationCheck u; decide ((u.mpx.activating = true ∧ pairsUp u = false ∧ ((match u.fwu.tickAt with | some a => decide (a + 400000 ≤ u.now) | none => true) = true)) ∧ tentative w = true),
    let k : Nat := 0; let t : Nat := 0; let s : State := on; let u := tick s t;
      let x := if k = 0 then u.mpx.a else u.mpx.b; decide ((x.st ≠ 1 ∨ logicOn u = false)),
    let k : Nat := 0; let t : Nat := 0; let s : State := (let z := on; { z with now := 0, mpx := { z.mpx with a := { st := 1 } } });
      let u := tick s t; let x := if k = 0 then u.mpx.a else u.mpx.b; let w := activationCheck u;
      let y := if k = 0 then { w with mpx := { w.mpx with a := { w.mpx.a with st := 0 } } } else { w with mpx := { w.mpx with b := { w.mpx.b with st := 0 } } }; decide (x.st = 1 ∧ logicOn u = true ∧ (y.mpx.activating = false ∨ pairsUp y = false)),
    let k : Nat := 0; let t : Nat := 0;
      let s : State := (let z := on; { z with now := 0, mpx := { z.mpx with activating := true, a := { st := 1 } } }); let u := tick s t;
      let x := if k = 0 then u.mpx.a else u.mpx.b; let w := activationCheck u;
      let y := if k = 0 then { w with mpx := { w.mpx with a := { w.mpx.a with st := 0 } } } else { w with mpx := { w.mpx with b := { w.mpx.b with st := 0 } } }; decide (x.st = 1 ∧ logicOn u = true ∧ y.mpx.activating = true ∧ pairsUp y = true),
    let k : Nat := 0; let t : Nat := 0; let s : State := on;
      let u := tick s t; decide ((¬ (u.tin.reload.contains k = true ∧ (k < 100 → (bed u k).draining = true) ∧ (100 ≤ k → engineHeld u (k - 100) = true)))),
    let k : Nat := 100; let t : Nat := 0; let s : State := (let z := on; { z with now := 0, tin := { z.tin with reload := [100] } });
      let u := tick s t; decide ((u.tin.reload.contains k = true ∧ (k < 100 → (bed u k).draining = true) ∧ (100 ≤ k → engineHeld u (k - 100) = true)) ∧ 100 ≤ k),
    let k : Nat := 15; let t : Nat := 0;
      let s : State := (let z := on; { z with now := 0, tin := { z.tin with reload := [15], beds := [(15, { draining := true })] } });
      let u := tick s t; decide ((u.tin.reload.contains k = true ∧ (k < 100 → (bed u k).draining = true) ∧ (100 ≤ k → engineHeld u (k - 100) = true)) ∧ k < 100),
    (let u := tick on 0; decide (u.dev.state ≠ .training)),
    (let u := tick (let z := at_ .training; { z with now := 0, hrv := { z.hrv with trainStep := 3 } }) 0; decide (nextStep u.hrv.trainStep ≠ 2)),
    (let u := tick (let z := (let z := at_ .training; { z with now := 0, hrv := { z.hrv with trainStep := 6 } }); { z with now := 0, ddrs := { z.ddrs with ch := [(0, { st := 1, dimms := 1, ranks := 1 })] } }) 0; decide (u.dev.state = .training ∧ nextStep u.hrv.trainStep = 4 ∧ ((popChannels u).all (fun c => (allLanes (ddr u c)).isEmpty)) = false)),
    (let u := tick (let z := at_ .training; { z with now := 0, hrv := { z.hrv with trainStep := 4 } }) 0; decide (u.dev.state = .training ∧ nextStep u.hrv.trainStep = 7)),
    (let u := tick (let z := at_ .training; { z with now := 0, hrv := { z.hrv with trainStep := 1 } }) 0; decide (u.dev.state = .training ∧ nextStep u.hrv.trainStep = 2)),
    (let u := tick (let z := at_ .training; { z with now := 0, hrv := { z.hrv with trainStep := 2 } }) 0; decide (u.dev.state = .training ∧ nextStep u.hrv.trainStep = 3)),
    (let u := tick (let z := at_ .training; { z with now := 0, hrv := { z.hrv with trainStep := 3 } }) 0; decide (u.dev.state = .training ∧ nextStep u.hrv.trainStep = 5)),
    (let u := tick (let z := at_ .training; { z with now := 0, hrv := { z.hrv with trainStep := 5 } }) 0; decide (u.dev.state = .training ∧ nextStep u.hrv.trainStep = 6)),
    (let u := tick (let z := at_ .training; { z with now := 0, hrv := { z.hrv with trainStep := 6 } }) 0; decide (u.dev.state = .training ∧ nextStep u.hrv.trainStep = 4 ∧ popChannels u = []))] : List Bool).all id = true := by decide +kernel

theorem witness_FirmwareAndTraining_2 : ([
    let c : TrellisCmd := pk [(24, 1, 3), (25, 1, 0)] [] 0xFFFF;
      let s : State := on; (match started 0x0800 c s with | some (_, f) => let image := pByte f.cmd 24; decide (2 < image) | _ => false),
    let c : TrellisCmd := pk [(24, 1, 2), (25, 1, 1)] [] 0xFFFF;
      let s : State := on; (match started 0x0800 c s with | some (_, f) => let image := pByte f.cmd 24; let slot := pByte f.cmd 25; decide ((image = 1 ∨ image = 2) ∧ slot ≠ 0) | _ => false),
    let c : TrellisCmd := pk [(24, 1, 2), (25, 1, 0)] [] 0xFFFF;
      let s : State := on; (match started 0x0800 c s with | some (_, f) => let image := pByte f.cmd 24; let slot := pByte f.cmd 25; decide ((image = 1 ∨ image = 2) ∧ slot = 0) | _ => false),
    let c : TrellisCmd := pk [(24, 1, 0), (25, 1, 3)] [] 0xFFFF;
      let s : State := on; (match started 0x0800 c s with | some (v, f) => let image := pByte f.cmd 24; let slot := pByte f.cmd 25; decide (image = 0 ∧ stageTarget v slot = .error false) | _ => false),
    let c : TrellisCmd := pk [(24, 1, 0), (25, 1, 0)] [] 0xFFFF;
      let s : State := (let z := on; { z with now := 0, fwu := { z.fwu with active := some false, a := { st := 3 } } }); (match started 0x0800 c s with | some (v, f) => let image := pByte f.cmd 24; let slot := pByte f.cmd 25; decide (image = 0 ∧ stageTarget v slot = .error true) | _ => false),
    let c : TrellisCmd := pk [(24, 1, 0), (25, 1, 2)] [] 0xFFFF;
      let s : State := on; (match started 0x0800 c s with | some (v, f) => let image := pByte f.cmd 24; let slot := pByte f.cmd 25; decide (image = 0) && ((match stageTarget v slot with | .ok _ => true | _ => false)) | _ => false),
    let s : State := (let z := on; { z with now := 0, fwu := { z.fwu with active := some false, a := { st := 4 } } });
      let slot : Nat := 1; (match s.fwu.active with | some _ => decide (slot ≠ 0) | _ => false),
    let s : State := (let z := on; { z with now := 0, fwu := { z.fwu with active := some false, a := { st := 5 } } });
      let slot : Nat := 0; (match s.fwu.active with | some _ => decide (slot = 0 ∧ needsOther s = true) | _ => false),
    let s : State := (let z := on; { z with now := 0, fwu := { z.fwu with active := some false, a := { st := 4 } } });
      let slot : Nat := 0; (match s.fwu.active with | some _ => decide (slot = 0 ∧ needsOther s = false) | _ => false),
    let c : TrellisCmd := pk [(24, 4, 0)] (zeros 16) 0xFFFF;
      let s : State := on; (match started 0x0801 c s with | some (v, _) => decide (v.fwu.staging = none) | _ => false),
    let c : TrellisCmd := pk [(24, 4, 63)] (zeros 16) 0xFFFF;
      let s : State := (let z := on; { z with now := 0, fwu := { z.fwu with staging := some 0 } }); (match started 0x0801 c s with | some (v, f) => let off := pNum f.cmd 24 4; (match v.fwu.staging with | some _ => decide (off % 64 ≠ 0) | _ => false) | _ => false),
    let c : TrellisCmd := pk [(24, 4, 64)] (zeros 15) 0xFFFF;
      let s : State := (let z := on; { z with now := 0, fwu := { z.fwu with staging := some 0 } }); (match started 0x0801 c s with | some (v, f) => let off := pNum f.cmd 24 4; let n := f.cmd.payLen; (match v.fwu.staging with | some _ => decide (off % 64 = 0 ∧ n % 16 ≠ 0) | _ => false) | _ => false),
    let c : TrellisCmd := pk [(24, 4, 65536)] (zeros 16) 0xFFFF;
      let s : State := (let z := on; { z with now := 0, fwu := { z.fwu with staging := some 17 } }); (match started 0x0801 c s with | some (v, f) => let off := pNum f.cmd 24 4; let n := f.cmd.payLen; (match v.fwu.staging with | some k => let room := if k ≤ 1 then slotBytes else 65536; decide (off % 64 = 0 ∧ n % 16 = 0 ∧ room < off + n) | _ => false) | _ => false),
    let c : TrellisCmd := pk [(24, 4, 65472)] (zeros 64) 0xFFFF;
      let s : State := (let z := on; { z with now := 0, fwu := { z.fwu with staging := some 18 } }); (match started 0x0801 c s with | some (v, f) => let off := pNum f.cmd 24 4; let n := f.cmd.payLen; (match v.fwu.staging with | some k => let room := if k ≤ 1 then slotBytes else 65536; decide (off % 64 = 0 ∧ n % 16 = 0 ∧ off + n ≤ room ∧ 1 < k) | _ => false) | _ => false),
    let c : TrellisCmd := pk [(24, 4, 0)] (zeros 16) 0xFFFF;
      let s : State := (let z := (let z := on; { z with now := 0, fwu := { z.fwu with staging := some 1 } }); { z with now := 0, nvm := { z.nvm with cutUnits := [mainSector 1 0] } }); (match started 0x0801 c s with | some (v, f) => let off := pNum f.cmd 24 4; let n := f.cmd.payLen; (match v.fwu.staging with | some k => let room := if k ≤ 1 then slotBytes else 65536; decide (off % 64 = 0 ∧ n % 16 = 0 ∧ off + n ≤ room ∧ k ≤ 1 ∧ unitsErased v (mainSector k 0 + off) n = false) | _ => false) | _ => false),
    let c : TrellisCmd := pk [(24, 4, 0)] (zeros 16) 0xFFFF;
      let s : State := (let z := on; { z with now := 0, fwu := { z.fwu with staging := some 1 } }); (match started 0x0801 c s with | some (v, f) => let off := pNum f.cmd 24 4; let n := f.cmd.payLen; (match v.fwu.staging with | some k => let room := if k ≤ 1 then slotBytes else 65536; decide (off % 64 = 0 ∧ n % 16 = 0 ∧ off + n ≤ room ∧ k ≤ 1 ∧ unitsErased v (mainSector k 0 + off) n = true) | _ => false) | _ => false),
    let c : TrellisCmd := pk [(24, 4, 0), (28, 4, 0)] [] 0xFFFF;
      let s : State := on; (match started 0x0802 c s with | some (v, _) => decide (v.fwu.staging = none) | _ => false),
    let c : TrellisCmd := pk [(24, 4, 65537), (28, 4, 0)] [] 0xFFFF;
      let s : State := (let z := on; { z with now := 0, fwu := { z.fwu with staging := some 17 } }); (match started 0x0802 c s with | some (v, f) => let n := pNum f.cmd 24 4; (match v.fwu.staging with | some k => let room := if k ≤ 1 then slotBytes else 65536; decide (room < n) | _ => false) | _ => false),
    let c : TrellisCmd := pk [(24, 4, 0), (28, 4, 1)] [] 0xFFFF;
      let s : State := (let z := on; { z with now := 0, fwu := { z.fwu with staging := some 0 } }); (match started 0x0802 c s with | some (v, f) => let n := pNum f.cmd 24 4; (match v.fwu.staging with | some k => let room := if k ≤ 1 then slotBytes else 65536; let b := stagedBytes v n; decide (n ≤ room ∧ crc32c b ≠ pNum f.cmd 28 4) | _ => false) | _ => false),
    let c : TrellisCmd := pk [(24, 4, 0), (28, 4, 0)] [] 0xFFFF;
      let s : State := (let z := on; { z with now := 0, fwu := { z.fwu with staging := some 17 } }); (match started 0x0802 c s with | some (v, f) => let n := pNum f.cmd 24 4; (match v.fwu.staging with | some k => let room := if k ≤ 1 then slotBytes else 65536; let b := stagedBytes v n; decide (n ≤ room ∧ crc32c b = pNum f.cmd 28 4 ∧ 1 < k) | _ => false) | _ => false)] : List Bool).all id = true := by decide +kernel

theorem witness_FirmwareAndTraining_3 : ([
    let c : TrellisCmd := pk [(24, 4, 132), (28, 4, crc32c (List.replicate 132 0xFF#8))] [] 0xFFFF;
      let s : State := (let z := on; { z with now := 0, fwu := { z.fwu with staging := some 0 } }); (match started 0x0802 c s with | some (v, f) => let n := pNum f.cmd 24 4; (match v.fwu.staging with | some k => let room := if k ≤ 1 then slotBytes else 65536; let b := stagedBytes v n; decide (n ≤ room ∧ crc32c b = pNum f.cmd 28 4 ∧ k ≤ 1 ∧ manifestFits (container b).body = false) | _ => false) | _ => false),
    let c : TrellisCmd := pk [(24, 4, 0), (28, 4, 0)] [] 0xFFFF;
      let s : State := (let z := on; { z with now := 0, fwu := { z.fwu with staging := some 1 } }); (match started 0x0802 c s with | some (v, f) => let n := pNum f.cmd 24 4; (match v.fwu.staging with | some k => let room := if k ≤ 1 then slotBytes else 65536; let b := stagedBytes v n; decide (n ≤ room ∧ crc32c b = pNum f.cmd 28 4 ∧ k ≤ 1 ∧ manifestFits (container b).body = true) | _ => false) | _ => false),
    let c : TrellisCmd := pk [(24, 1, 4), (32, 8, 0)] [] 0xFFFF;
      let s : State := on; (match started 0x0803 c s with | some (_, f) => let flags := pByte f.cmd 24; decide (3 < flags) | _ => false),
    let c : TrellisCmd := pk [(24, 1, 3), (32, 8, 0)] [] 0xFFFF;
      let s : State := at_ .replanting; (match started 0x0803 c s with | some (v, f) => let flags := pByte f.cmd 24; decide (flags ≤ 3 ∧ v.dev.state ≠ .serving ∧ v.dev.state ≠ .degraded) | _ => false),
    let c : TrellisCmd := pk [(24, 1, 3), (32, 8, 0)] [] 0xFFFF;
      let s : State := (let z := on; { z with now := 0, fwu := { z.fwu with falling := true } }); (match started 0x0803 c s with | some (v, f) => let flags := pByte f.cmd 24; let joint := v.exl.txs.any (fun x => x.kind == .activate); decide ((flags ≤ 3 ∧ (v.dev.state = .serving ∨ v.dev.state = .degraded)) ∧ flags.testBit 1 = true ∧ (v.fwu.falling = true ∨ joint = true)) | _ => false),
    let c : TrellisCmd := pk [(24, 1, 2), (32, 8, 0)] [] 0xFFFF;
      let s : State := on; (match started 0x0803 c s with | some (v, f) => let flags := pByte f.cmd 24; let joint := v.exl.txs.any (fun x => x.kind == .activate); decide ((flags ≤ 3 ∧ (v.dev.state = .serving ∨ v.dev.state = .degraded)) ∧ flags.testBit 1 = true ∧ v.fwu.falling = false ∧ joint = false) | _ => false),
    let c : TrellisCmd := pk [(24, 1, 1), (32, 8, 0)] [] 0xFFFF;
      let s : State := on; (match started 0x0803 c s with | some (v, f) => let flags := pByte f.cmd 24; decide ((flags ≤ 3 ∧ (v.dev.state = .serving ∨ v.dev.state = .degraded)) ∧ flags.testBit 1 = false ∧ stagedSlot v = none) | _ => false),
    let c : TrellisCmd := pk [(24, 1, 0), (32, 8, 0)] [] 0xFFFF;
      let s : State := (let z := on; { z with now := 0, fwu := { z.fwu with active := some false, a := { st := 4 }, b := { st := 2 }, epoch := some 5 } }); (match started 0x0803 c s with | some (v, f) => let flags := pByte f.cmd 24; decide ((flags ≤ 3 ∧ (v.dev.state = .serving ∨ v.dev.state = .degraded)) ∧ flags.testBit 1 = false) && ((match stagedSlot v with | some _ => decide ((activationDue v = true ∨ tentative v = true)) | _ => false)) | _ => false),
    let c : TrellisCmd := pk [(24, 1, 0), (32, 8, 99)] [] 0xFFFF;
      let s : State := (let z := on; { z with now := 0, fwu := { z.fwu with active := some false, a := { st := 4 }, b := { st := 2 } } }); (match started 0x0803 c s with | some (v, f) => let flags := pByte f.cmd 24; let e := if pNum f.cmd 32 8 = 0 then v.exl.epoch + 1000 else pNum f.cmd 32 8; decide ((flags ≤ 3 ∧ (v.dev.state = .serving ∨ v.dev.state = .degraded)) ∧ flags.testBit 1 = false) && ((match stagedSlot v with | some _ => decide (activationDue v = false ∧ tentative v = false ∧ e < v.exl.epoch + 100) | _ => false)) | _ => false),
    let c : TrellisCmd := pk [(24, 1, 0), (32, 8, 100)] [] 0xFFFF;
      let s : State := (let z := (let z := on; { z with now := 0, fwu := { z.fwu with active := some false, a := { st := 4 }, b := { st := 2 } } }); { z with now := 0, exl := { z.exl with session := true } }); (match started 0x0803 c s with | some (v, f) => let flags := pByte f.cmd 24; let e := if pNum f.cmd 32 8 = 0 then v.exl.epoch + 1000 else pNum f.cmd 32 8; decide ((flags ≤ 3 ∧ (v.dev.state = .serving ∨ v.dev.state = .degraded)) ∧ flags.testBit 1 = false) && ((match stagedSlot v with | some _ => decide (activationDue v = false ∧ tentative v = false ∧ v.exl.epoch + 100 ≤ e ∧ v.exl.session = true) | _ => false)) | _ => false),
    let c : TrellisCmd := pk [(24, 1, 0), (32, 8, 100)] [] 0xFFFF;
      let s : State := (let z := on; { z with now := 0, fwu := { z.fwu with active := some false, a := { st := 4 }, b := { st := 2 } } }); (match started 0x0803 c s with | some (v, f) => let flags := pByte f.cmd 24; let e := if pNum f.cmd 32 8 = 0 then v.exl.epoch + 1000 else pNum f.cmd 32 8; decide ((flags ≤ 3 ∧ (v.dev.state = .serving ∨ v.dev.state = .degraded)) ∧ flags.testBit 1 = false) && ((match stagedSlot v with | some _ => decide (activationDue v = false ∧ tentative v = false ∧ v.exl.epoch + 100 ≤ e ∧ v.exl.session = false ∧ flags.testBit 0 = false) | _ => false)) | _ => false),
    let c : TrellisCmd := pk [(24, 1, 1), (32, 8, 0)] [] 0xFFFF;
      let s : State := (let z := on; { z with now := 0, fwu := { z.fwu with active := some false, a := { st := 4 }, b := { st := 2 } } }); (match started 0x0803 c s with | some (v, f) => let flags := pByte f.cmd 24; let e := if pNum f.cmd 32 8 = 0 then v.exl.epoch + 1000 else pNum f.cmd 32 8; decide ((flags ≤ 3 ∧ (v.dev.state = .serving ∨ v.dev.state = .degraded)) ∧ flags.testBit 1 = false) && ((match stagedSlot v with | some _ => decide (activationDue v = false ∧ tentative v = false ∧ v.exl.epoch + 100 ≤ e ∧ v.exl.session = false ∧ flags.testBit 0 = true) | _ => false)) | _ => false),
    let c : TrellisCmd := pk [] [] 0xFFFF;
      let s : State := on; (match started 0x0804 c s with | some (v, _) => decide ((v.fwu.active = none ∨ tentative v = false)) | _ => false),
    let c : TrellisCmd := pk [] [] 0xFFFF;
      let s : State := (let z := on; { z with now := 0, fwu := { z.fwu with active := some false, a := { st := 3 } } }); (match started 0x0804 c s with | some (v, _) => (match v.fwu.active with | some _ => decide (tentative v = true) | _ => false) | _ => false)] : List Bool).all id = true := by decide +kernel

/-- Clause by clause, states and operands that meet the hypotheses of `Obligations.FunctionsBusesAndConverters`. -/
theorem witness_FunctionsBusesAndConverters_1 : ([
    true,
    let f : Nat := 0; let t : Nat := 0; let s : State := on;
      let u := tick s t; decide (((func u f).pend = none ∨ ((match (func u f).pend with | some p => decide ((p.cmd = none ∨ u.now < p.since + 5000000)) | none => false) = true))),
    let f : Nat := 10; let t : Nat := 0;
      let s : State := (let z := (let z := on; { z with now := 0, mpx := { z.mpx with funcs := [(10, { mode := false, pend := some { cmd := some 7, since := 0 } })] } }); { z with now := 5000000 });
      let u := tick s t; (match (func u f).pend with | some p => (match p.cmd with | some _ => decide (p.since + 5000000 ≤ u.now) | _ => false) | _ => false),
    let t : Nat := 0; let s : State := at_ .off; let u := tick s t; decide ((logicOn u = false ∨ u.now < u.mpx.winAt + 10000)),
    let t : Nat := 0; let s : State := { on with now := 10000 }; let u := tick s t; decide (logicOn u = true ∧ u.mpx.winAt + 10000 ≤ u.now),
    let t : Nat := 0; let s : State := (let z := on; { z with now := 1000000, mpx := { z.mpx with level := 1, lowSince := some 0 } });
      let u := tick s t; decide (((match u.mpx.lowSince with | some z => decide (z + 1000000 ≤ u.now) | none => false) = true) ∧ u.mpx.level ≠ 0),
    let t : Nat := 0; let s : State := (let z := on; { z with now := 999999, mpx := { z.mpx with level := 1, lowSince := some 0 } });
      let u := tick s t; decide (((¬ ((match u.mpx.lowSince with | some z => decide (z + 1000000 ≤ u.now) | none => false) = true)) ∨ u.mpx.level = 0)),
    let t : Nat := 0; let s : State := (let z := on; { z with now := 9999999 }); let u := tick s t;
      let w := cfg u rMpxCfg 0 16; decide ((u.mpx.level ≠ 0 ∨ w = 0 ∨ u.now < u.mpx.calmAt + w * 1000000)),
    let t : Nat := 0; let s : State := (let z := on; { z with now := 10000000 }); let u := tick s t;
      let w := cfg u rMpxCfg 0 16; decide (u.mpx.level = 0 ∧ w ≠ 0 ∧ u.mpx.calmAt + w * 1000000 ≤ u.now),
    let n : Nat := 0; let t : Nat := 0; let s : State := on; let u := tick s t;
      let p := twi u n; decide ((p.cur = none ∨ p.spacing = true ∨ twiUp u n = false)),
    let n : Nat := 0; let t : Nat := 0;
      let s : State := (let z := on; { z with now := 0, twi := { z.twi with ports := [(0, { cur := some { addr := 0x1E }, spacing := false })] } });
      let u := tick s t; let p := twi u n; (match p.cur with | some _ => decide (twiUp u n = true ∧ p.spacing = false) | _ => false),
    let n : Nat := 0; let t : Nat := 0;
      let s : State := (let z := (let z := on; { z with now := 0, twi := { z.twi with ports := [(0, { cur := some { addr := 0x1E }, spacing := false })] } }); { z with regs := tset z.regs (regAt rTwiCfg 0) 0xC3190000#32 });
      let u := tick s t;
      let p := twi u n; (match p.cur with | some _ => decide (twiUp u n = true ∧ p.spacing = false ∧ cfg u (regAt rTwiCfg n) 29 1 = 0) | _ => false),
    let n : Nat := 0; let t : Nat := 0;
      let s : State := (let z := on; { z with now := 0, twi := { z.twi with ports := [(0, { cur := some { addr := 0x1E }, spacing := false })] } });
      let u := tick s t;
      let p := twi u n; (match p.cur with | some _ => decide (twiUp u n = true ∧ p.spacing = false ∧ cfg u (regAt rTwiCfg n) 29 1 ≠ 0) | _ => false),
    let n : Nat := 0; let t : Nat := 0; let s : State := on; let u := tick s t;
      let p := twi u n; decide ((p.cur = none ∨ p.spacing = false ∨ twiUp u n = false ∨ u.now < p.since + 1000)),
    let n : Nat := 0; let t : Nat := 0;
      let s : State := (let z := on; { z with now := 1000, twi := { z.twi with ports := [(0, { cur := some { addr := 0x1E }, spacing := true })] } });
      let u := tick s t;
      let p := twi u n; (match p.cur with | some _ => decide (twiUp u n = true ∧ p.spacing = true ∧ p.since + 1000 ≤ u.now) | _ => false),
    let n : Nat := 4; let t : Nat := 0; let s : State := on; let u := tick s t; decide ((¬ (n < 4 ∧ twiUp u n = true))),
    let n : Nat := 3; let t : Nat := 0; let s : State := on; let u := tick s t;
      let p := twi u n; decide ((n < 4 ∧ twiUp u n = true) ∧ (p.cur = none ∨ p.spacing = true)),
    let n : Nat := 0; let t : Nat := 0;
      let s : State := (let z := on; { z with now := 0, twi := { z.twi with ports := [(0, { cur := some { addr := 0x1E, arbs := 2 }, spacing := false })] } });
      let u := tick s t; let p := twi u n;
      let lost := bump u (regAt rTwiErr n) 24 8 1; decide ((n < 4 ∧ twiUp u n = true)) && ((match p.cur with | some x => decide (p.spacing = false ∧ x.arbs < cfg lost (regAt rTwiCfg n) 24 4) | _ => false)),
    let n : Nat := 0; let t : Nat := 0;
      let s : State := (let z := on; { z with now := 0, twi := { z.twi with ports := [(0, { cur := some { addr := 0x1E, arbs := 3 }, spacing := false })] } });
      let u := tick s t; let p := twi u n;
      let lost := bump u (regAt rTwiErr n) 24 8 1; decide ((n < 4 ∧ twiUp u n = true)) && ((match p.cur with | some x => decide (p.spacing = false ∧ cfg lost (regAt rTwiCfg n) 24 4 ≤ x.arbs) | _ => false)),
    let n : Nat := 3; let t : Nat := 0; let still : Bool := false;
      let s : State := (let z := on; { z with now := 24999, twi := { z.twi with ports := [(3, { cur := some { addr := 0x1E } })] } });
      let u := tick s t; let p := twi u n;
      let bound := 1000 * clamp 1 35 (cfg u (regAt rTwiCfg n) 16 8); decide ((¬ ((n < 4 ∧ twiUp u n = true) ∧ (p.cur = none ∨ (p.spacing = false ∧ p.since + (if still then 2 else 1) * bound ≤ u.now)))))] : List Bool).all id = true := by decide +kernel

theorem witness_FunctionsBusesAndConverters_2 : ([
    let n : Nat := 3; let t : Nat := 0; let still : Bool := true;
      let s : State := (let z := on; { z with now := 50000, twi := { z.twi with ports := [(3, { cur := some { addr := 0x1E } })] } });
      let u := tick s t; let p := twi u n;
      let bound := 1000 * clamp 1 35 (cfg u (regAt rTwiCfg n) 16 8); decide (((n < 4 ∧ twiUp u n = true) ∧ (p.cur = none ∨ (p.spacing = false ∧ p.since + (if still then 2 else 1) * bound ≤ u.now))) ∧ still = true),
    let n : Nat := 3; let t : Nat := 0; let still : Bool := false;
      let s : State := (let z := on; { z with now := 25000, twi := { z.twi with ports := [(3, { cur := some { addr := 0x1E } })] } });
      let u := tick s t; let p := twi u n;
      let bound := 1000 * clamp 1 35 (cfg u (regAt rTwiCfg n) 16 8); decide (((n < 4 ∧ twiUp u n = true) ∧ (p.cur = none ∨ (p.spacing = false ∧ p.since + (if still then 2 else 1) * bound ≤ u.now))) ∧ still = false),
    let n : Nat := 4; let t : Nat := 0; let s : State := on; let u := tick s t; decide ((¬ (n < 4 ∧ twiUp u n = true))),
    let n : Nat := 3; let t : Nat := 0; let still : Bool := false; let s : State := on;
      let u := tick s t; decide ((n < 4 ∧ twiUp u n = true) ∧ still = false),
    let n : Nat := 0; let t : Nat := 0; let still : Bool := true; let s : State := on;
      let u := tick s t; decide ((n < 4 ∧ twiUp u n = true) ∧ still = true),
    let e : Nat := 4; let t : Nat := 0; let s : State := on;
      let u := tick s t; decide ((¬ (e < 4 ∧ twiUp u 2 = true ∧ cfg u (regAt rTwi2PmbList 2) (8 * e + 7) 1 = 1 ∧ ((match tget u.twi.pollAt e with | some z => decide (z + 1000000 ≤ u.now) | none => true) = true)))),
    let e : Nat := 3; let t : Nat := 0; let ok : Bool := false;
      let s : State := { on with regs := tset on.regs (regAt rTwi2PmbList 2) 0x80000000#32 };
      let u := tick s t; decide ((e < 4 ∧ twiUp u 2 = true ∧ cfg u (regAt rTwi2PmbList 2) (8 * e + 7) 1 = 1 ∧ ((match tget u.twi.pollAt e with | some z => decide (z + 1000000 ≤ u.now) | none => true) = true)) ∧ ok = false),
    let e : Nat := 3; let t : Nat := 0; let ok : Bool := true;
      let s : State := { on with now := 10 ^ 6, regs := tset on.regs (regAt rTwi2PmbList 2) 0x80000000#32, twi := { on.twi with pollAt := [(3, 0)] } };
      let u := tick s t; decide ((e < 4 ∧ twiUp u 2 = true ∧ cfg u (regAt rTwi2PmbList 2) (8 * e + 7) 1 = 1 ∧ ((match tget u.twi.pollAt e with | some z => decide (z + 1000000 ≤ u.now) | none => true) = true)) ∧ ok = true),
    let k : Nat := 2; let t : Nat := 0; let s : State := on;
      let u := tick s t; decide ((¬ (k < 2 ∧ u.dev.state ≠ .off ∧ u.psq.collapse = false ∧ adcTrigger u k = 1 ∧ cfg u (adcCtrl k) 31 1 ≠ 0 ∧ ((match (adcOf u k).timerAt with | some z => decide (z + adcPeriod u k ≤ u.now) | none => true) = true)))),
    let k : Nat := 1; let t : Nat := 0;
      let s : State := (let z := (let z := on; { z with now := 0, adc := { z.adc with a1 := { busy := true } } }); { z with regs := tset z.regs rAdcCtrl1 0x90000020#32 });
      let u := tick s t;
      let v := setAdc u k { adcOf u k with timerAt := some u.now }; decide ((k < 2 ∧ u.dev.state ≠ .off ∧ u.psq.collapse = false ∧ adcTrigger u k = 1 ∧ cfg u (adcCtrl k) 31 1 ≠ 0 ∧ ((match (adcOf u k).timerAt with | some z => decide (z + adcPeriod u k ≤ u.now) | none => true) = true)) ∧ ((adcOf u k).busy = true ∨ scanHeld v = true)),
    let k : Nat := 0; let t : Nat := 0; let s : State := (let z := on; { z with regs := tset z.regs rAdcCtrl0 0x90000020#32 }); let u := tick s t;
      let v := setAdc u k { adcOf u k with timerAt := some u.now }; decide ((k < 2 ∧ u.dev.state ≠ .off ∧ u.psq.collapse = false ∧ adcTrigger u k = 1 ∧ cfg u (adcCtrl k) 31 1 ≠ 0 ∧ ((match (adcOf u k).timerAt with | some z => decide (z + adcPeriod u k ≤ u.now) | none => true) = true)) ∧ (adcOf u k).busy = false ∧ scanHeld v = false),
    let k : Nat := 1; let t : Nat := 0; let s : State := on; let u := tick s t;
      let x := adcOf u k; decide ((¬ (k < 2 ∧ x.busy = true ∧ u.psq.collapse = false ∧ (x.held = false ∨ scanHeld u = false) ∧ u.adc.queue.length < 64 ∧ x.since + adcTime x ≤ u.now))),
    let k : Nat := 1; let t : Nat := 0;
      let s : State := (let z := on; { z with now := 0, adc := { z.adc with a1 := { busy := true, stopping := true } } }); let u := tick s t;
      let x := adcOf u k; decide ((k < 2 ∧ x.busy = true ∧ u.psq.collapse = false ∧ (x.held = false ∨ scanHeld u = false) ∧ u.adc.queue.length < 64 ∧ x.since + adcTime x ≤ u.now) ∧ x.stopping = true),
    let k : Nat := 1; let t : Nat := 0; let uv : Int := 0;
      let s : State := (let z := (let z := on; { z with now := 0, adc := { z.adc with a1 := { busy := true, entries := [0#32, 0#32] } } }); { z with regs := tset z.regs rAdcCtrl1 0x91000020#32 });
      let u := tick s t; let x := adcOf u k; let v := { u with adc := { u.adc with queue := u.adc.queue ++ [adcResult x k uv] } };
      let next := adcFrom x (cfg v (adcCtrl k) 24 4) (x.entry + 1); decide ((k < 2 ∧ x.busy = true ∧ u.psq.collapse = false ∧ (x.held = false ∨ scanHeld u = false) ∧ u.adc.queue.length < 64 ∧ x.since + adcTime x ≤ u.now) ∧ x.stopping = false) && ((next).isSome),
    let k : Nat := 1; let t : Nat := 0; let uv : Int := 0;
      let s : State := (let z := (let z := on; { z with now := 0, adc := { z.adc with a1 := { busy := true, entries := [0#32, 0#32] } } }); { z with regs := tset z.regs rAdcCtrl1 0x90000020#32 });
      let u := tick s t; let x := adcOf u k; let v := { u with adc := { u.adc with queue := u.adc.queue ++ [adcResult x k uv] } };
      let next := adcFrom x (cfg v (adcCtrl k) 24 4) (x.entry + 1); decide ((k < 2 ∧ x.busy = true ∧ u.psq.collapse = false ∧ (x.held = false ∨ scanHeld u = false) ∧ u.adc.queue.length < 64 ∧ x.since + adcTime x ≤ u.now) ∧ x.stopping = false ∧ next = none),
    (let s := on; let u := tick s 0; let a := ({ off := rAdcCtrl0, issuer := 0x2000 } : RegAcc); match regFind u a.off with | some (r, 0, false) => let v := storeWord u r a.off 0x80800020 (heldBits u rAdcCtrl0 0); decide (lands u a = some (rAdcCtrl0, 0, false)) && (cfg v rAdcCtrl0 31 1 == 1 && adcTrigger v 0 == 0) | _ => false),
    (let s := on; let u := tick s 0; let a := ({ off := rAdcCtrl1, issuer := 0x2000 } : RegAcc); match regFind u a.off with | some (r, 0, false) => let v := storeWord u r a.off 0xA0000020 (heldBits u rAdcCtrl1 0); decide (lands u a = some (rAdcCtrl1, 0, false)) && (cfg v rAdcCtrl1 31 1 == 1 && adcTrigger v 1 == 2) | _ => false),
    (let s := on; let u := tick s 0; let a := ({ off := rAdcCtrl1, issuer := 0x2000 } : RegAcc); match regFind u a.off with | some (r, 0, false) => let v := storeWord u r a.off 0x00000020 (heldBits u rAdcCtrl1 0); decide (lands u a = some (rAdcCtrl1, 0, false)) && (cfg v rAdcCtrl1 31 1 == 0) | _ => false),
    (let s := on; let u := tick s 0; let a := ({ off := rAdcCtrl0, issuer := 0x2000 } : RegAcc); match regFind u a.off with | some (r, 0, false) => let v := storeWord u r a.off 0x80000020 (heldBits u rAdcCtrl0 0); decide (lands u a = some (rAdcCtrl0, 0, false)) && (cfg v rAdcCtrl0 31 1 == 1 && adcTrigger v 0 == 0) | _ => false),
    let a : RegAcc := ({ off := (regAt rTwiStatus 1), issuer := 0x2000 } : RegAcc); let w : Nat := 0; let t : Nat := 0; let n : Nat := 1;
      let s : State := (let z := on; { z with now := 0, twi := { z.twi with ports := [(1, { st := 3 })] } });
      let u := tick s t; decide (lands u a = some (rTwiStatus, n, false) ∧ (¬ (bit w 23 = true ∧ fenced u n = true ∧ u.psq.collapse = false)))] : List Bool).all id = true := by decide +kernel

theorem witness_FunctionsBusesAndConverters_3 : ([
    let a : RegAcc := ({ off := (regAt rTwiStatus 1), issuer := 0x2000 } : RegAcc); let w : Nat := 2 ^ 23; let t : Nat := 0; let n : Nat := 1;
      let ok : Bool := true; let s : State := (let z := on; { z with now := 0, twi := { z.twi with ports := [(1, { st := 3 })] } });
      let u := tick s t; decide (lands u a = some (rTwiStatus, n, false) ∧ (bit w 23 = true ∧ fenced u n = true ∧ u.psq.collapse = false) ∧ ok = true),
    let a : RegAcc := ({ off := (regAt rTwiStatus 1), issuer := 0x2000 } : RegAcc); let w : Nat := 2 ^ 23; let t : Nat := 0; let n : Nat := 1;
      let ok : Bool := false; let s : State := (let z := on; { z with now := 0, twi := { z.twi with ports := [(1, { st := 3 })] } });
      let u := tick s t; decide (lands u a = some (rTwiStatus, n, false) ∧ (bit w 23 = true ∧ fenced u n = true ∧ u.psq.collapse = false) ∧ ok = false),
    let c : TrellisCmd := pk [(24, 1, 11), (25, 1, 0), (26, 1, 0), (28, 4, 0)] [] 0xFFFF;
      let s : State := on; (match started 0x0B00 c s with | some (_, e) => let f := pByte e.cmd 24; decide (10 < f) | _ => false),
    let c : TrellisCmd := pk [(24, 1, 10), (25, 1, 2), (26, 1, 0), (28, 4, 0)] [] 0xFFFF;
      let s : State := on; (match started 0x0B00 c s with | some (_, e) => let f := pByte e.cmd 24; let mode := pByte e.cmd 25; decide (f ≤ 10 ∧ 1 < mode) | _ => false),
    let c : TrellisCmd := pk [(24, 1, 10), (25, 1, 1), (26, 1, 2), (28, 4, 10)] [] 0xFFFF;
      let s : State := on; (match started 0x0B00 c s with | some (_, e) => let f := pByte e.cmd 24; let mode := pByte e.cmd 25; let pol := pByte e.cmd 26; decide (f ≤ 10 ∧ mode ≤ 1 ∧ 1 < pol) | _ => false),
    let c : TrellisCmd := pk [(24, 1, 10), (25, 1, 1), (26, 1, 1), (28, 4, 60001)] [] 0xFFFF;
      let s : State := on; (match started 0x0B00 c s with | some (_, e) => let f := pByte e.cmd 24; let mode := pByte e.cmd 25; let pol := pByte e.cmd 26; let wd := pNum e.cmd 28 4; decide (f ≤ 10 ∧ mode = 1 ∧ pol ≤ 1 ∧ (wd < 10 ∨ 60000 < wd)) | _ => false),
    let c : TrellisCmd := pk [(24, 1, 10), (25, 1, 1), (26, 1, 1), (28, 4, 60000)] [] 0xFFFF;
      let s : State := (let z := on; { z with now := 0, mpx := { z.mpx with funcs := [(10, { mode := true, hasOwner := true, owner := 0x1000#16 })] } }); (match started 0x0B00 c s with | some (v, e) => let f := pByte e.cmd 24; let mode := pByte e.cmd 25; let pol := pByte e.cmd 26; let wd := pNum e.cmd 28 4; let x := func v f; decide ((f ≤ 10 ∧ mode ≤ 1 ∧ pol ≤ 1 ∧ (mode = 1 → (10 ≤ wd ∧ wd ≤ 60000))) ∧ (x.hasOwner = true ∧ (¬ (x.hasOwner = true ∧ x.owner.toNat = e.cmd.est))) ∧ (mode = 1 ∨ (¬ (issClass e.cmd.est = 1 ∨ issClass e.cmd.est = 2)))) | _ => false),
    let c : TrellisCmd := pk [(24, 1, 10), (25, 1, 0), (26, 1, 1), (28, 4, 0)] [] 0xFFFF;
      let s : State := (let z := on; { z with now := 0, mpx := { z.mpx with funcs := [(10, { mode := true, hasOwner := true, owner := 0x1000#16, pend := some { cmd := some 3 } })] } }); (match started 0x0B00 c s with | some (v, e) => let f := pByte e.cmd 24; let mode := pByte e.cmd 25; let pol := pByte e.cmd 26; let wd := pNum e.cmd 28 4; let x := func v f; decide ((f ≤ 10 ∧ mode ≤ 1 ∧ pol ≤ 1 ∧ (mode = 1 → (10 ≤ wd ∧ wd ≤ 60000))) ∧ (((x.hasOwner = true ∧ (¬ (x.hasOwner = true ∧ x.owner.toNat = e.cmd.est))) → (mode = 0 ∧ (issClass e.cmd.est = 1 ∨ issClass e.cmd.est = 2)))) ∧ x.pend.isSome = true) | _ => false),
    let c : TrellisCmd := pk [(24, 1, 10), (25, 1, 1), (26, 1, 1), (28, 4, 10)] [] 0xFFFF;
      let s : State := (let z := on; { z with now := 0, mpx := { z.mpx with funcs := [(10, { hasOwner := true, owner := 0x2000#16, fell := true })] } }); (match started 0x0B00 c s with | some (v, e) => let f := pByte e.cmd 24; let mode := pByte e.cmd 25; let pol := pByte e.cmd 26; let wd := pNum e.cmd 28 4; let x := func v f; decide (((f ≤ 10 ∧ mode ≤ 1 ∧ pol ≤ 1 ∧ (mode = 1 → (10 ≤ wd ∧ wd ≤ 60000))) ∧ ((x.hasOwner = true ∧ (¬ (x.hasOwner = true ∧ x.owner.toNat = e.cmd.est))) → (mode = 0 ∧ (issClass e.cmd.est = 1 ∨ issClass e.cmd.est = 2))) ∧ x.pend = none) ∧ (mode = 1 ∧ x.fell = true ∧ (x.hasOwner = true ∧ x.owner.toNat = e.cmd.est))) | _ => false),
    let c : TrellisCmd := pk [(24, 1, 10), (25, 1, 1), (26, 1, 1), (28, 4, 10)] [] 0xFFFF;
      let s : State := (let z := on; { z with now := 0, mpx := { z.mpx with funcs := [(10, { mode := true, hasOwner := true, owner := 0x2000#16 })] } }); (match started 0x0B00 c s with | some (v, e) => let f := pByte e.cmd 24; let mode := pByte e.cmd 25; let pol := pByte e.cmd 26; let wd := pNum e.cmd 28 4; let x := func v f; decide (((f ≤ 10 ∧ mode ≤ 1 ∧ pol ≤ 1 ∧ (mode = 1 → (10 ≤ wd ∧ wd ≤ 60000))) ∧ ((x.hasOwner = true ∧ (¬ (x.hasOwner = true ∧ x.owner.toNat = e.cmd.est))) → (mode = 0 ∧ (issClass e.cmd.est = 1 ∨ issClass e.cmd.est = 2))) ∧ x.pend = none) ∧ (¬ (mode = 1 ∧ x.fell = true ∧ (x.hasOwner = true ∧ x.owner.toNat = e.cmd.est))) ∧ (x.mode = true ↔ mode = 1 ∧ x.fell = false) ∧ (x.hasOwner = true ∧ x.owner.toNat = e.cmd.est)) | _ => false),
    let c : TrellisCmd := pk [(24, 1, 10), (25, 1, 0), (26, 1, 1), (28, 4, 10)] [] 0xFFFF;
      let s : State := on; (match started 0x0B00 c s with | some (v, e) => let f := pByte e.cmd 24; let mode := pByte e.cmd 25; let pol := pByte e.cmd 26; let wd := pNum e.cmd 28 4; let x := func v f; decide (((f ≤ 10 ∧ mode ≤ 1 ∧ pol ≤ 1 ∧ (mode = 1 → (10 ≤ wd ∧ wd ≤ 60000))) ∧ ((x.hasOwner = true ∧ (¬ (x.hasOwner = true ∧ x.owner.toNat = e.cmd.est))) → (mode = 0 ∧ (issClass e.cmd.est = 1 ∨ issClass e.cmd.est = 2))) ∧ x.pend = none) ∧ (¬ (mode = 1 ∧ x.fell = true ∧ (x.hasOwner = true ∧ x.owner.toNat = e.cmd.est))) ∧ (x.mode = true ↔ mode = 1 ∧ x.fell = false) ∧ (¬ (x.hasOwner = true ∧ x.owner.toNat = e.cmd.est))) | _ => false),
    let c : TrellisCmd := pk [(24, 1, 7), (25, 1, 1), (26, 1, 1), (28, 4, 10)];
      let s : State := on; (match started 0x0B00 c s with | some (v, e) => let f := pByte e.cmd 24; let mode := pByte e.cmd 25; let pol := pByte e.cmd 26; let wd := pNum e.cmd 28 4; let x := func v f; decide (((f ≤ 10 ∧ mode ≤ 1 ∧ pol ≤ 1 ∧ (mode = 1 → (10 ≤ wd ∧ wd ≤ 60000))) ∧ ((x.hasOwner = true ∧ (¬ (x.hasOwner = true ∧ x.owner.toNat = e.cmd.est))) → (mode = 0 ∧ (issClass e.cmd.est = 1 ∨ issClass e.cmd.est = 2))) ∧ x.pend = none) ∧ (¬ (mode = 1 ∧ x.fell = true ∧ (x.hasOwner = true ∧ x.owner.toNat = e.cmd.est))) ∧ (¬ (x.mode = true ↔ mode = 1 ∧ x.fell = false))) && (let p : SwitchReq := { assist := mode == 1, auto := pol == 1, watchdog := wd, issuer := e.cmd.est, cmd := some e.id, since := e.since, reason := if x.hasOwner = true ∧ x.owner.toNat ≠ e.cmd.est then 5 else 1 }; let w := setJob (setFunc v f { x with pend := some p }) e.id (.switch f); decide (f = 7 ∧ w.hrv.replant = false)) | _ => false),
    let c : TrellisCmd := pk [(24, 1, 10), (25, 1, 1), (26, 1, 1), (28, 4, 60000)];
      let s : State := on; (match started 0x0B00 c s with | some (v, e) => let f := pByte e.cmd 24; let mode := pByte e.cmd 25; let pol := pByte e.cmd 26; let wd := pNum e.cmd 28 4; let x := func v f; decide (((f ≤ 10 ∧ mode ≤ 1 ∧ pol ≤ 1 ∧ (mode = 1 → (10 ≤ wd ∧ wd ≤ 60000))) ∧ ((x.hasOwner = true ∧ (¬ (x.hasOwner = true ∧ x.owner.toNat = e.cmd.est))) → (mode = 0 ∧ (issClass e.cmd.est = 1 ∨ issClass e.cmd.est = 2))) ∧ x.pend = none) ∧ (¬ (mode = 1 ∧ x.fell = true ∧ (x.hasOwner = true ∧ x.owner.toNat = e.cmd.est))) ∧ (¬ (x.mode = true ↔ mode = 1 ∧ x.fell = false))) && (let p : SwitchReq := { assist := mode == 1, auto := pol == 1, watchdog := wd, issuer := e.cmd.est, cmd := some e.id, since := e.since, reason := if x.hasOwner = true ∧ x.owner.toNat ≠ e.cmd.est then 5 else 1 }; let w := setJob (setFunc v f { x with pend := some p }) e.id (.switch f); decide ((f ≠ 7 ∨ w.hrv.replant = true))) | _ => false),
    let c : TrellisCmd := pk [(24, 1, 255)] [] 0xFFFF;
      let s : State := on; (match started 0x0B01 c s with | some (_, e) => let f := pByte e.cmd 24; decide (f = 0xFF) | _ => false),
    let c : TrellisCmd := pk [(24, 1, 254)] [] 0xFFFF;
      let s : State := on; (match started 0x0B01 c s with | some (_, e) => let f := pByte e.cmd 24; decide (10 < f ∧ f ≠ 0xFF) | _ => false),
    let c : TrellisCmd := pk [(24, 1, 10)] [] 0xFFFF;
      let s : State := on; (match started 0x0B01 c s with | some (_, e) => let f := pByte e.cmd 24; decide (f ≤ 10) | _ => false)] : List Bool).all id = true := by decide +kernel

end Sys2Proof.Tests
end

/-! The register space of 00_scope.md: malformed accesses (R6), captured reads (R8, R10) and committed writes (R12) of 64-bit
registers. -/

namespace Sys2Proof.Machine

open Sys2Proof

/-! ### Malformed accesses (R6, R474) -/

/-- The three ways in which an access is malformed. -/
theorem malformed_iff (a : RegAcc) : malformed a = true ↔ a.size ≠ 4 ∨ a.off % 4 ≠ 0 ∨ inBlock a.off = false := by
  simp [malformed, or_assoc]

/-- A malformed read that reaches the device answers all ones and is recorded. -/
theorem directRead_malformed {s : State} {a : RegAcc} (hr : reachable s a = true) (hm : malformed a = true) :
    directRead a s = emit (regFault s a.off) (.regData a.path 0xFFFFFFFF) := by
  simp [directRead, hr, hm]

/-- A malformed write that reaches the device is recorded and has no other effect. -/
theorem directWrite_malformed {s : State} {a : RegAcc} (v : Nat) (ok : Bool) (hr : reachable s a = true)
    (hm : malformed a = true) : directWrite a v ok s = regFault s a.off := by
  simp [directWrite, hr, hm]

/-- Each direct read row is `directRead` at the time of its command. -/
theorem exec_directReads {row : RegAcc → Nat → Instr} (hrow : row ∈ directReads) (a : RegAcc) (t : Nat) (s : State) :
    exec (row a t) s = .next (directRead a (tick s t)) := by
  simp only [directReads, List.mem_cons, List.not_mem_nil, or_false] at hrow
  obtain rfl | rfl | rfl := hrow <;> rfl

/-- Each direct write row is `directWrite` at the time of its command, with some result of the bus check it may start. -/
theorem exec_directWrites {row : RegAcc → Nat → Nat → Instr} (hrow : row ∈ directWrites) (a : RegAcc) (v t : Nat) (s : State) :
    ∃ ok, exec (row a v t) s = .next (directWrite a v ok (tick s t)) := by
  simp only [directWrites, List.mem_cons, List.not_mem_nil, or_false] at hrow
  obtain rfl | rfl | rfl | rfl | rfl | rfl | rfl | rfl | rfl | rfl | rfl | rfl | rfl | rfl | rfl | rfl := hrow
  on_goal 16 => exact ⟨false, rfl⟩
  all_goals exact ⟨true, rfl⟩

/-- Settles O11: every direct row is one `directRead` or `directWrite`, and both test for a malformed access before they look at
the register. -/
theorem malformedAccessReadsOnesAndIsRecorded : Obligations.MalformedAccessReadsOnesAndIsRecorded := by
  refine ⟨?_, ?_, fun _ _ => rfl, rfl⟩
  · rintro row hrow a t s _ rfl hr hm
    rw [exec_directReads hrow, directRead_malformed hr ((malformed_iff a).mpr hm)]
  · rintro row hrow a v t s _ rfl hr hm
    obtain ⟨ok, he⟩ := exec_directWrites hrow a v t s
    rw [he, directWrite_malformed v ok hr ((malformed_iff a).mpr hm)]

/-! ### 64-bit registers -/

/-- No 64-bit register of the map is a result queue, a doorbell or a selector, which an access treats before it looks at the
width. -/
theorem wide_addr_not_special {r : RegD} (hr : r ∈ regTable) (hw : r.wide = true) :
    r.addr ≠ rAdcQueue ∧ r.addr ≠ rTrlQpSqTailDb ∧ r.addr ≠ rTrlQpCqHeadDb ∧ isSel r.addr = false :=
  (by decide +kernel : ∀ r ∈ regTable, r.wide = true →
    r.addr ≠ rAdcQueue ∧ r.addr ≠ rTrlQpSqTailDb ∧ r.addr ≠ rTrlQpCqHeadDb ∧ isSel r.addr = false) r hr hw

/-- A read of the low word of a 64-bit register captures both words for its path (R8). -/
theorem regRead_wide_low {s : State} {off i : Nat} {r : RegD} (p : Path) (hf : regFind s off = some (r, i, false))
    (hw : r.wide = true) :
    regRead s p off = ({ s with paths := { s.paths with
      captures := tset s.paths.captures (pathReg p off)
        (BitVec.ofNat 64 (regValue s p (off + 4) * 2 ^ 32 + regValue s p off)) } }, regValue s p off) := by
  obtain ⟨hmem, -⟩ := regFind_some hf
  simp [regRead, hf, hw, wide_addr_not_special hmem hw]

/-- A read of the high word of a 64-bit register returns the captured half, or the live one with no capture (R10). -/
theorem regRead_wide_high {s : State} {off i : Nat} {r : RegD} (p : Path) (hf : regFind s (off + 4) = some (r, i, true)) :
    regRead s p (off + 4) = (s, (tget s.paths.captures (pathReg p off)).elim (regValue s p (off + 4))
      (fun v => v.toNat / 2 ^ 32)) := by
  obtain ⟨hmem, -, -, hwide⟩ := regFind_some hf
  obtain ⟨hw, -⟩ := hwide rfl
  cases hc : tget s.paths.captures (pathReg p off) with
  | none => simp [regRead, hf, hw, wide_addr_not_special hmem hw, hc]
  | some v => simp [regRead, hf, hw, wide_addr_not_special hmem hw, hc]

/-- Settles O13: the low word's read sets the capture of its path and register, and the high word's read looks it up. -/
theorem wideRegistersAreCapturedAtTheLowWord : Obligations.WideRegistersAreCapturedAtTheLowWord := by
  intro s p i off r hf hw
  rw [regRead_wide_low p hf hw]
  refine ⟨rfl, tget_tset_same _ _ _, fun k hk => tget_tset_other _ _ hk, rfl, fun w hfw => ⟨fun v hv => ?_, fun hn => ?_⟩⟩
  · rw [regRead_wide_high p hfw, hv, Option.elim_some]
  · rw [regRead_wide_high p hfw, hn, Option.elim_none]

/-- A write to a 64-bit register goes to `wideWritten`. -/
theorem regWrite_wide {s : State} {a : RegAcc} {i : Nat} {r : RegD} {high : Bool} (v : Nat) (ok : Bool)
    (hf : regFind s a.off = some (r, i, high)) (hw : r.wide = true) : regWrite s a v ok = wideWritten s a r i v high := by
  obtain ⟨hmem, -⟩ := regFind_some hf
  simp [regWrite, hf, hw, wide_addr_not_special hmem hw]

/-- A write to the high word of LOG_CURSOR sets the path's cursor as LOG_CURSOR_SET does, with the records it can miss (R391). -/
theorem exec_highWordWrite_logCursor {a : RegAcc} {i : Nat} {s : State} (v t : Nat)
    (hl : lands (tick s t) a = some (rLogCursor, i, true)) :
    exec (.highWordWrite a v t) s = .next (landed a true v (setCursor
      { tick s t with paths := { (tick s t).paths with
        heldLow := tdel (tick s t).paths.heldLow (pathReg a.path (a.off - 4)) } }
      a.path (v % 2 ^ 32 * 2 ^ 32 + heldLow (tick s t) a.path (a.off - 4)))) := by
  obtain ⟨r, hf, hr, -⟩ := lands_some hl
  obtain ⟨-, -, -, hwide⟩ := regFind_some hf
  obtain ⟨hw, -⟩ := hwide rfl
  calc exec (.highWordWrite a v t) s = .next (directWrite a v true (tick s t)) := rfl
    _ = .next (landed a true v (wideWritten (tick s t) a r i v true)) := by
      rw [directWrite_lands v true (by rw [hl]; rfl), regWrite_wide v true hf hw]
    _ = _ := by simp [wideWritten, hr]

/-- A blank device after its first cold start, in SHELF. -/
def coldStarted : State := coldStart {} State.reset

/-- VAON_PRESENT brings the device from reset to `coldStarted`. -/
theorem exec_vaonPresent_reset : exec (.vaonPresent {} 0) State.reset = .next coldStarted :=
  congrArg Host.Outcome.next (if_pos rfl)

/-- An access of the cold-frame management processor to the high word of LOG_CURSOR. -/
def cursorHigh : RegAcc := { path := .cfm, off := rLogCursor + 4 }

/-- The access reaches the high word of LOG_CURSOR. -/
theorem lands_cursorHigh : lands (tick coldStarted 0) cursorHigh = some (rLogCursor, 0, true) := by decide +kernel

/-- Refutes O14: beside the cursor, the write of the high word of LOG_CURSOR starts the path's account of the records it can
miss (`cursorRuns`, R391), which the second clause says stays as it was. After a cold start that account is empty; the write
gives it a run. -/
theorem not_wideRegistersCommitAtTheHighWord : ¬ Obligations.WideRegistersCommitAtTheHighWord := by
  rintro ⟨-, hcursor, -⟩
  have h := hcursor cursorHigh 0 0 0 coldStarted _ rfl lands_cursorHigh
  rw [exec_highWordWrite_logCursor 0 0 lands_cursorHigh] at h
  have hruns := congrArg (fun w => w.paths.cursorRuns) (Host.Outcome.next.inj h)
  exact absurd hruns (by decide +kernel)

end Sys2Proof.Machine

/-! The die-to-die link of 01_architecture.md (R15, R16): frames and their CRC-8, acknowledgement, resending, retraining, and what
the frames that arrive do to the cold-frame bridge, the summary and the harvest bound. -/

namespace Sys2Proof.Machine

open Sys2Proof

/-! ### The CRC of a frame (R15) -/

/-- A step of a forward CRC stays within its width. -/
theorem crcBitF_lt {w poly : Nat} (hp : poly < 2 ^ w) (c : Nat) : crcBitF w poly c < 2 ^ w := by
  have hshift : (c <<< 1) % 2 ^ w < 2 ^ w := Nat.mod_lt _ (Nat.two_pow_pos w)
  unfold crcBitF
  split
  · exact Nat.xor_lt_two_pow hshift hp
  · exact hshift

/-- A forward CRC that starts within its width stays within it. -/
theorem crcByteF_foldl_lt {w poly : Nat} (hp : poly < 2 ^ w) (l : List Byte) {c : Nat} (hc : c < 2 ^ w) :
    l.foldl (crcByteF w poly) c < 2 ^ w := by
  induction l generalizing c with
  | nil => exact hc
  | cons b r ih => exact ih (crcBitF_lt hp _)

/-- The CRC-8 of a frame fits its field. -/
theorem frameCrc_lt (f : D2dFrame) : frameCrc f < 2 ^ 8 :=
  Nat.xor_lt_two_pow (crcByteF_foldl_lt (by decide) (frameBytes f) (by decide)) (by decide)

/-- A receiver that expects the SEQ of a framed frame takes it. -/
theorem frameOk_framed (f : D2dFrame) : frameOk { expect := (framed f).seq } (framed f) = true := by
  have hcrc : (framed f).crc.toNat = frameCrc (framed f) := Nat.mod_eq_of_lt (frameCrc_lt f)
  simp [frameOk, hcrc]

/-! ### The directions of the link -/

/-- The direction just set. -/
@[simp] theorem d2dSide_setSide_same (s : State) (cold : Bool) (x : D2dSide) : d2dSide (setSide s cold x) cold = x := by
  cases cold <;> rfl

@[simp] theorem d2dSide_emit (s : State) (cold : Bool) (o : Out) : d2dSide (emit s o) cold = d2dSide s cold := rfl

/-- Sending frames again leaves the link's own state. -/
@[simp] theorem foldl_emit_frame_d2d (cold : Bool) (l : List D2dFrame) (s : State) :
    (l.foldl (fun w f => emit w (.frame cold f)) s).d2d = s.d2d := by
  induction l generalizing s with
  | nil => rfl
  | cons f r ih => exact ih _

/-- With the link down, a retrain under way or nothing unacknowledged, nothing is resent. -/
theorem resend_nothing {s : State} {cold : Bool}
    (h : s.d2d.up = false ∨ s.d2d.retraining = true ∨ (d2dSide s cold).unacked = []) : resend s cold = s :=
  if_pos (by simpa [or_assoc] using h)

/-- Resending counts a failure and sends every unacknowledged frame in order. -/
theorem resend_all {s : State} {cold : Bool} (hup : s.d2d.up = true) (hre : s.d2d.retraining = false)
    (hun : (d2dSide s cold).unacked ≠ []) :
    resend s cold = (d2dSide s cold).unacked.foldl (fun w f => emit w (.frame cold f))
      (setSide s cold { d2dSide s cold with fails := (d2dSide s cold).fails + 1, ackAt := s.now }) :=
  if_neg (by simpa [hup, hre] using hun)

/-- What a frame that arrives is, and what its arrival leaves: it is the next expected one of its type, and is acknowledged. -/
theorem arrive_some {s w : State} {cold : Bool} {typ : Nat} {f : D2dFrame} (h : arrive s cold typ = some (f, w)) :
    s.d2d.up = true ∧ s.d2d.retraining = false ∧ frameOk (d2dSide s cold) f = true ∧ f.typ = typ
      ∧ w = emit (setSide s cold { d2dSide s cold with expect := ((d2dSide s cold).expect + 1) % 16 })
        (.frame (!cold) (framed { seq := f.seq, typ := 1 })) := by
  simp only [arrive] at h
  split at h
  · cases h
  · rename_i hlink
    split at h
    · cases h
    · rename_i g hfind
      split at h
      · cases h
      · rename_i htyp
        cases h
        simp only [Bool.or_eq_true, Bool.not_eq_true', not_or, Bool.not_eq_false, Bool.not_eq_true] at hlink
        exact ⟨hlink.1, hlink.2, List.find?_some hfind, by simpa using htyp, rfl⟩

/-- What the end of the oldest access `b` does, with the accesses `r` left behind it: a direct read gives its value, and a
Trellis command replies with its last access. -/
def bridgeEnds (b : BridgeAcc) (r : List BridgeAcc) (w : State) : State :=
  match b.cmd with
  | none => if b.write then w else emit w (.regData b.acc.path b.value)
  | some id =>
    if r.any (fun x => x.cmd == some id) then w
    else match jobOf w id with
      | .access rep => finish w id rep
      | _ => w

/-! ### Acknowledgement, resending and errors (R15, R16) -/

section
variable {s u : State} {t : Nat} (hu : u = tick s t)
include hu

/-- With the link down, no acknowledgement, no resending, no error and no retrain has an effect. -/
theorem exec_d2d_of_down (cold : Bool) (f : Word) (h : u.d2d.up = false) :
    exec (.d2dAck cold t) s = .next u ∧ exec (.d2dNak cold t) s = .next u
      ∧ exec (.d2dResendTimeout cold t) s = .next u ∧ exec (.d2dFrameError cold f t) s = .next u
      ∧ exec (.d2dRetrain t) s = .next u := by
  have hresend : resend u cold = u := resend_nothing (.inl h)
  refine ⟨?_, ?_, ?_, ?_, ?_⟩
  · show execD2dAck cold t s = _
    simp [execD2dAck, ← hu, h]
  · show execD2dNak cold t s = _
    rw [execD2dNak, ← hu, hresend]
  · show execD2dResendTimeout cold t s = _
    simp [execD2dResendTimeout, ← hu, hresend]
  · show execD2dFrameError cold f t s = _
    simp [execD2dFrameError, ← hu, h]
  · show execD2dRetrain t s = _
    simp [execD2dRetrain, ← hu, h]

/-- An acknowledgement releases every frame before the expected one, clears the failure count and opens the window. -/
theorem exec_d2dAck_of_up (cold : Bool) (h : u.d2d.up = true) :
    exec (.d2dAck cold t) s = .next (sendHeld (setSide u cold { d2dSide u cold with
      unacked := (d2dSide u cold).unacked.dropWhile (fun f => f.seq != (d2dSide u cold).expect), fails := 0, ackAt := u.now })
      cold) := by
  show execD2dAck cold t s = _
  simp [execD2dAck, ← hu, h]

theorem exec_d2dNak (cold : Bool) : exec (.d2dNak cold t) s = .next (resend u cold) := by
  subst hu
  rfl

/-- A resend timeout before its 2 µs has no effect. -/
theorem exec_d2dResendTimeout_early (cold : Bool) (h : u.now < (d2dSide u cold).ackAt + 2) :
    exec (.d2dResendTimeout cold t) s = .next u := by
  subst hu
  exact congrArg Host.Outcome.next (if_pos h)

/-- A resend timeout after its 2 µs resends. -/
theorem exec_d2dResendTimeout_due (cold : Bool) (h : (d2dSide u cold).ackAt + 2 ≤ u.now) :
    exec (.d2dResendTimeout cold t) s = .next (resend u cold) := by
  subst hu
  exact congrArg Host.Outcome.next (if_neg (Nat.not_lt.mpr h))

/-- With nothing to resend, a resend timeout has no effect at any time. -/
theorem exec_d2dResendTimeout_nothing (cold : Bool) (h : resend u cold = u) :
    exec (.d2dResendTimeout cold t) s = .next u := by
  rcases Nat.lt_or_ge u.now ((d2dSide u cold).ackAt + 2) with hearly | hdue
  · exact exec_d2dResendTimeout_early hu cold hearly
  · rw [exec_d2dResendTimeout_due hu cold hdue, h]

theorem exec_d2dFrameError_of_ok (cold : Bool) (f : Word) (h : frameOk (d2dSide u cold) (frameOf f) = true) :
    exec (.d2dFrameError cold f t) s = .next u := by
  show execD2dFrameError cold f t s = _
  simp [execD2dFrameError, ← hu, h]

/-- A wrong frame is answered with a NAK; the cold-frame die notes when it took one. -/
theorem exec_d2dFrameError_of_bad (cold : Bool) (f : Word) (hup : u.d2d.up = true)
    (h : frameOk (d2dSide u cold) (frameOf f) = false) :
    let w := emit u (.frame (!cold) (framed { seq := (d2dSide u cold).expect, typ := 2 }))
    exec (.d2dFrameError cold f t) s = .next (if cold then { w with d2d := { w.d2d with badAt := some w.now } } else w) := by
  show execD2dFrameError cold f t s = _
  simp [execD2dFrameError, ← hu, hup, h]

/-! ### Retraining (R16) -/

/-- No retrain starts while one runs or before eight failures in a row. -/
theorem exec_d2dRetrain_not_needed
    (h : u.d2d.retraining = true ∨ (u.d2d.toCold.fails < 8 ∧ u.d2d.toLogic.fails < 8)) :
    exec (.d2dRetrain t) s = .next u := by
  subst hu
  exact congrArg Host.Outcome.next (if_pos (by rcases h with h | ⟨hc, hl⟩ <;> simp_all))

/-- The retrain that starts, and the fault of the third within a second. -/
theorem exec_d2dRetrain_needed (hup : u.d2d.up = true) (hre : u.d2d.retraining = false)
    (h : 8 ≤ u.d2d.toCold.fails ∨ 8 ≤ u.d2d.toLogic.fails) :
    let l := u.now :: u.d2d.retrains.filter (fun k => u.now ≤ k + 1000000)
    let w := { u with d2d := { u.d2d with retraining := true, retrains := l } }
    exec (.d2dRetrain t) s = .next (if 3 ≤ l.length then raiseOpen w 0x000 else w) := by
  have hfails : ¬(u.d2d.toCold.fails < 8 ∧ u.d2d.toLogic.fails < 8) := by omega
  show execD2dRetrain t s = _
  simp only [execD2dRetrain, ← hu]
  exact congrArg Host.Outcome.next (if_neg (by simpa [hup, hre] using hfails))

theorem exec_d2dRetrainDone_of_none (h : u.d2d.retraining = false) : exec (.d2dRetrainDone t) s = .next u := by
  show execD2dRetrainDone t s = _
  simp [execD2dRetrainDone, ← hu, h]

/-- A finished retrain clears both failure counts, sends again what was unacknowledged and lets the held frames go. -/
theorem exec_d2dRetrainDone (h : u.d2d.retraining = true) :
    let v := { u with d2d := { u.d2d with
      retraining := false, toCold := { u.d2d.toCold with fails := 0 }, toLogic := { u.d2d.toLogic with fails := 0 } } }
    let c := u.d2d.toCold.unacked.foldl (fun v f => emit v (.frame true f)) v
    exec (.d2dRetrainDone t) s
      = .next (sendHeld (sendHeld (u.d2d.toLogic.unacked.foldl (fun v f => emit v (.frame false f)) c) true) false) := by
  show execD2dRetrainDone t s = _
  simp [execD2dRetrainDone, ← hu, h, d2dSide]

/-! ### Frames that arrive (R138, R173, R480) -/

/-- Without a frame of its type, no row of an arrival has an effect. -/
theorem exec_summaryUpdate_of_none (h : arrive u true 6 = none) : exec (.summaryUpdate t) s = .next u := by
  show execSummaryUpdate t s = _
  simp only [execSummaryUpdate, ← hu, h]

/-- A summary frame sets or clears its region. -/
theorem exec_summaryUpdate {f : D2dFrame} {w : State} (h : arrive u true 6 = some (f, w)) :
    exec (.summaryUpdate t) s = .next { w with drp := { w.drp with
      summary := if f.payload.getLsbD 15 then sins w.drp.summary (f.payload.toNat % 32768)
        else sdel w.drp.summary (f.payload.toNat % 32768) } } := by
  show execSummaryUpdate t s = _
  simp only [execSummaryUpdate, ← hu, h]

theorem exec_eventFrame_of_none (h : arrive u true 5 = none) : exec (.eventFrame t) s = .next u := by
  show execEventFrame t s = _
  simp only [execEventFrame, ← hu, h]

/-- An event frame with tag 0 carries a fault change or a notice and leaves the harvest bound. -/
theorem exec_eventFrame_notice {f : D2dFrame} {w : State} (h : arrive u true 5 = some (f, w))
    (htag : f.payload.toNat / 16384 = 0) : exec (.eventFrame t) s = .next w := by
  show execEventFrame t s = _
  simp only [execEventFrame, ← hu, h, htag]

theorem exec_eventFrame_high {f : D2dFrame} {w : State} (h : arrive u true 5 = some (f, w))
    (htag : f.payload.toNat / 16384 = 1) :
    exec (.eventFrame t) s = .next { w with d2d := { w.d2d with eventHigh := f.payload.toNat % 16384 } } := by
  show execEventFrame t s = _
  simp only [execEventFrame, ← hu, h, htag]

theorem exec_eventFrame_middle {f : D2dFrame} {w : State} (h : arrive u true 5 = some (f, w))
    (htag : f.payload.toNat / 16384 = 2) :
    exec (.eventFrame t) s
      = .next { w with d2d := { w.d2d with eventHigh := w.d2d.eventHigh * 16384 + f.payload.toNat % 16384 } } := by
  show execEventFrame t s = _
  simp only [execEventFrame, ← hu, h, htag]

theorem exec_eventFrame_low_of_no_run {f : D2dFrame} {w : State} (h : arrive u true 5 = some (f, w))
    (htag : f.payload.toNat / 16384 = 3) (hrun : w.hrv.run = none) : exec (.eventFrame t) s = .next w := by
  show execEventFrame t s = _
  simp only [execEventFrame, ← hu, h, htag, hrun]

/-- The last third completes the bound of the run under way. -/
theorem exec_eventFrame_low {f : D2dFrame} {w : State} {r : HarvestRun} (h : arrive u true 5 = some (f, w))
    (htag : f.payload.toNat / 16384 = 3) (hrun : w.hrv.run = some r) :
    exec (.eventFrame t) s = .next { w with hrv := { w.hrv with
      run := some { r with coldBound := some (w.d2d.eventHigh * 16384 + f.payload.toNat % 16384) } } } := by
  show execEventFrame t s = _
  simp only [execEventFrame, ← hu, h, htag, hrun]

theorem exec_registerRequest_of_none (h : arrive u true 3 = none) : exec (.registerRequest t) s = .next u := by
  show execRegisterRequest t s = _
  simp only [execRegisterRequest, ← hu, h]

/-- A second request frame that completes a read is answered with the value in two data frames. -/
theorem exec_registerRequest_read {f : D2dFrame} {w : State} {b : BridgeAcc} (h : arrive u true 3 = some (f, w))
    (hfind : w.d2d.bridge.find? (fun b => b.reqs == 1) = some b) (hb : b.write = false) :
    let v := { w with d2d := { w.d2d with
      bridge := bridgeMod w.d2d.bridge (fun b => b.reqs < 2) (fun b => { b with reqs := b.reqs + 1 }) } }
    exec (.registerRequest t) s = .next (sendFrame (sendFrame v false 4 (b.value / 65536)) false 4 (b.value % 65536)) := by
  show execRegisterRequest t s = _
  simp [execRegisterRequest, ← hu, h, hfind, hb]

/-- Any other request frame only counts towards the oldest access that still lacks one. -/
theorem exec_registerRequest_counts {f : D2dFrame} {w : State} (h : arrive u true 3 = some (f, w))
    (hfind : ∀ b, w.d2d.bridge.find? (fun b => b.reqs == 1) = some b → b.write = true) :
    exec (.registerRequest t) s = .next { w with d2d := { w.d2d with
      bridge := bridgeMod w.d2d.bridge (fun b => b.reqs < 2) (fun b => { b with reqs := b.reqs + 1 }) } } := by
  show execRegisterRequest t s = _
  cases hb : w.d2d.bridge.find? (fun b => b.reqs == 1) with
  | none => simp only [execRegisterRequest, ← hu, h, hb]
  | some b => simp [execRegisterRequest, ← hu, h, hb, hfind b hb]

theorem exec_registerData_of_none (cold : Bool) (h : arrive u cold 4 = none) : exec (.registerData cold t) s = .next u := by
  show execRegisterData cold t s = _
  simp only [execRegisterData, ← hu, h]

/-- A data frame counts towards the oldest access of its direction that still lacks one. -/
theorem exec_registerData {cold : Bool} {f : D2dFrame} {w : State} (h : arrive u cold 4 = some (f, w)) :
    exec (.registerData cold t) s = .next { w with d2d := { w.d2d with
      bridge := bridgeMod w.d2d.bridge (fun b => b.write == cold && b.datas < 2) (fun b => { b with datas := b.datas + 1 }) } } := by
  show execRegisterData cold t s = _
  simp only [execRegisterData, ← hu, h]

/-! ### The end of an access of the cold-frame bridge (R480) -/

theorem exec_coldFrameBridgeAccess_of_empty (h : u.d2d.bridge = []) : exec (.coldFrameBridgeAccess t) s = .next u := by
  show execColdFrameBridgeAccess t s = _
  simp only [execColdFrameBridgeAccess, ← hu, h]

/-- The oldest access waits for two request frames, two data frames and its microsecond. -/
theorem exec_coldFrameBridgeAccess_waits {b : BridgeAcc} {r : List BridgeAcc} (h : u.d2d.bridge = b :: r)
    (hw : b.reqs < 2 ∨ b.datas < 2 ∨ u.now < b.since + 1) : exec (.coldFrameBridgeAccess t) s = .next u := by
  show execColdFrameBridgeAccess t s = _
  simp only [execColdFrameBridgeAccess, ← hu, h]
  exact congrArg Host.Outcome.next (if_pos (by simpa [or_assoc] using hw))

/-- A complete access leaves the bridge, has its end, and lets waiting commands try again. -/
theorem exec_coldFrameBridgeAccess_ends {b : BridgeAcc} {r : List BridgeAcc} (h : u.d2d.bridge = b :: r)
    (hreqs : 2 ≤ b.reqs) (hdatas : 2 ≤ b.datas) (hsince : b.since + 1 ≤ u.now) :
    exec (.coldFrameBridgeAccess t) s = .next (retryBridge (bridgeEnds b r { u with d2d := { u.d2d with bridge := r } })) := by
  have hdone : ¬(b.reqs < 2 ∨ b.datas < 2 ∨ u.now < b.since + 1) := by omega
  show execColdFrameBridgeAccess t s = _
  simp only [execColdFrameBridgeAccess, ← hu, h]
  exact congrArg Host.Outcome.next (if_neg (by simpa [or_assoc] using hdone))

end

/-! ### The obligation -/

/-- Settles O42, from the rules above: resending and the retrain act on one direction's state, and every row of an arrival goes
through `arrive`. -/
theorem dieToDieLink : Obligations.DieToDieLink := by
  refine ⟨fun cold f t s u hu => ⟨exec_d2d_of_down hu cold f, fun hup => ?_⟩, fun t s u hu => ?_, fun s cold typ f w h => ?_,
    frameOk_framed, fun cold t s u hu => ?_⟩
  · refine ⟨exec_d2dAck_of_up hu cold hup, fun h => ?_, fun hre hun => ?_, exec_d2dResendTimeout_early hu cold,
      exec_d2dFrameError_of_ok hu cold f, exec_d2dFrameError_of_bad hu cold f hup⟩
    · have hresend : resend u cold = u := resend_nothing (.inr h)
      exact ⟨by rw [exec_d2dNak hu, hresend], exec_d2dResendTimeout_nothing hu cold hresend⟩
    · rw [exec_d2dNak hu]
      exact ⟨by rw [resend_all hup hre hun],
        fun hdue => by rw [exec_d2dResendTimeout_due hu cold hdue, resend_all hup hre hun]⟩
  · refine ⟨exec_d2dRetrain_not_needed hu, fun hup hre hfails => ⟨fun hfew => ?_, fun hmany => ?_⟩,
      exec_d2dRetrainDone_of_none hu, exec_d2dRetrainDone hu⟩
    · exact (exec_d2dRetrain_needed hu hup hre hfails).trans (congrArg Host.Outcome.next (if_neg (Nat.not_le.mpr hfew)))
    · exact (exec_d2dRetrain_needed hu hup hre hfails).trans (congrArg Host.Outcome.next (if_pos hmany))
  · obtain ⟨hup, hre, hok, htyp, rfl⟩ := arrive_some h
    simp only [frameOk, Bool.and_eq_true, beq_iff_eq] at hok
    exact ⟨hup, hre, htyp, hok.2, hok.1, by simp, by simp⟩
  · refine ⟨exec_summaryUpdate_of_none hu, fun _ _ h => exec_summaryUpdate hu h, exec_eventFrame_of_none hu, fun f w h =>
      ⟨exec_eventFrame_notice hu h, exec_eventFrame_high hu h, exec_eventFrame_middle hu h,
        exec_eventFrame_low_of_no_run hu h, fun _ => exec_eventFrame_low hu h⟩,
      exec_registerRequest_of_none hu, fun f w h => ⟨fun _ => exec_registerRequest_read hu h, exec_registerRequest_counts hu h⟩,
      exec_registerData_of_none hu cold, fun _ _ h => exec_registerData hu h, exec_coldFrameBridgeAccess_of_empty hu,
      fun b r h => ⟨exec_coldFrameBridgeAccess_waits hu h, fun hreqs hdatas hsince => ?_⟩⟩
    rw [exec_coldFrameBridgeAccess_ends hu h hreqs hdatas hsince]
    refine ⟨fun hcmd hb => ?_, fun hcmd hb => ?_, fun id hcmd hmore => ?_, fun id rep hcmd hlast hjob => ?_⟩
    · simp [bridgeEnds, hcmd, hb]
    · simp [bridgeEnds, hcmd, hb]
    · simp [bridgeEnds, hcmd, hmore]
    · simp [bridgeEnds, hcmd, hlast, hjob]

end Sys2Proof.Machine

/-! Tine beds and fenced tines (R20, R274–R279), lockstep of the management processor pairs (R284, R285), watchdogs of
host-assisted functions (R290), the save of the configuration record (R479) and injections that wait too long (R394). -/

namespace Sys2Proof.Machine

open Sys2Proof

/-- Some bed holds urgent work, a full queue or work of a bed that drains. -/
def workWaits (s : State) : Bool :=
  (List.range (nBeds s)).any (fun b => !(bed s b).urgent.isEmpty || decide (16 ≤ (bed s b).main.length)
    || ((bed s b).draining && !(bed s b).main.isEmpty))

/-- Tine `n` out of service: its cutting, if it ran one, is placed again as urgent at its bed, or fails at its third failure
(R276, R278). -/
def tineLeaves (s : State) (n : Nat) : State :=
  let v := { s with tin := { s.tin with tines := tdel s.tin.tines n, fenced := sins s.tin.fenced n } }
  match tget s.tin.tines n with
  | none => v
  | some c =>
    let w := setFld (setFld v rTinFail 28 4 c.typ) rTinFail 20 7 n
    if c.fails < 2 then place (bump w rTinFail 8 12 1) (n / 8) { c with fails := c.fails + 1, urgent := true }
    else cuttingFails (bump w rTinFail 0 8 1) c

/-- Pair `b` after a mismatch, in state `st` with the mismatches `m` of its last hour: counted, its commands interrupted (R284). -/
def lockstepLost (s : State) (b : Bool) (st : Nat) (m : List Nat) : State :=
  interruptPairs (bump (setPair (raiseOpen s 0x005) b { mpPair s b with st := st, mism := m, busy := 0 })
    rMpxPair (if b then 8 else 16) 8 1) (fun sv => sv == (if b then Server.mb else Server.ma)) false

/-- With both pairs down, MP_DOWN is raised and the commands that wait for one are refused (R285). -/
def judgePairs (s : State) : State := if bothDown s then refuseWaiting (raiseOpen s 0x007) else s

/-- A function that leaves host-assisted mode loses its owner; a change that waits stays unless it is its fall. -/
theorem dropFunc_of_assisted {x : Func} (reason : Nat) (h : x.mode = true) :
    dropFunc reason x = { x with
      mode := false, pend := x.pend.filter (fun p => !p.fall), reason := reason, owner := 0#16, hasOwner := false, fell := false } :=
  if_pos h

section
variable {s u : State} {t : Nat} (hu : u = tick s t)
include hu

/-! ### Beds and tines -/

/-- An idle bed stops its clock. -/
theorem exec_bedClockStop_of_idle {b : Nat} (h : bedIdle u b = true) :
    exec (.bedClockStop b t) s = .next (setBed u b { bed u b with clocked := false }) := by
  subst hu
  exact congrArg Host.Outcome.next (if_pos h)

theorem exec_bedClockStop_of_busy {b : Nat} (h : bedIdle u b = false) : exec (.bedClockStop b t) s = .next u := by
  subst hu
  exact congrArg Host.Outcome.next (if_neg (Bool.not_eq_true _ ▸ h))

theorem exec_bedWake_of_no_work (h : workWaits u = false) : exec (.bedWake t) s = .next u := by
  subst hu
  exact congrArg Host.Outcome.next (if_pos (congrArg not h))

theorem exec_bedWake_of_all_clocked (h : workWaits u = true) (hall : (runBeds u).find? (fun b => !(bed u b).clocked) = none) :
    exec (.bedWake t) s = .next u := by
  show execBedWake t s = _
  simp only [execBedWake, ← hu, hall]
  exact congrArg Host.Outcome.next (if_neg (ne_of_eq_of_ne (congrArg not h) Bool.false_ne_true))

/-- Work that waits wakes the lowest gated bed. -/
theorem exec_bedWake {k : Nat} (h : workWaits u = true) (hk : (runBeds u).find? (fun b => !(bed u b).clocked) = some k) :
    exec (.bedWake t) s = .next (feed (setBed u k { bed u k with clocked := true })) := by
  show execBedWake t s = _
  simp only [execBedWake, ← hu, hk]
  exact congrArg Host.Outcome.next (if_neg (ne_of_eq_of_ne (congrArg not h) Bool.false_ne_true))

theorem exec_cuttingDone_of_no_cutting {n : Nat} (ues : List Nat) (h : tget u.tin.tines n = none) :
    exec (.cuttingDone n ues t) s = .next u := by
  show execCuttingDone n ues t s = _
  simp only [execCuttingDone, ← hu, h]

/-- A finished cutting leaves its tine, is counted, has its effect, and its tine takes the next one. -/
theorem exec_cuttingDone {n : Nat} {c : Cutting} (ues : List Nat) (h : tget u.tin.tines n = some c) :
    exec (.cuttingDone n ues t) s = .next (feed (cuttingEnds { u with tin := { u.tin with
      tines := tdel u.tin.tines n, done := (u.tin.done + 1) % 2 ^ 64 } } c ues)) := by
  show execCuttingDone n ues t s = _
  simp only [execCuttingDone, ← hu, h]

/-- Fencing has no effect with the logic die off, on a tine already fenced, or on one the part does not have. -/
theorem exec_tineFenced_ignored {n : Nat} (h : logicOn u = false ∨ u.tin.fenced.contains n = true ∨ 8 * nBeds u ≤ n) :
    exec (.tineFenced n t) s = .next u := by
  subst hu
  exact congrArg Host.Outcome.next (if_pos (by simpa [or_assoc] using h))

/-- A fenced tine leaves service, the fault names it, and its bed is judged and fed again. -/
theorem exec_tineFenced {n : Nat} (hon : logicOn u = true) (hf : u.tin.fenced.contains n = false) (hn : n < 8 * nBeds u) :
    exec (.tineFenced n t) s = .next (feed (leaveBed (judgeTines (raise (tineLeaves u n) 0x009 n)) (n / 8))) := by
  have hserves : ¬(!logicOn u || u.tin.fenced.contains n || decide (8 * nBeds u ≤ n)) = true := by
    simp only [hon, hf, decide_eq_false (Nat.not_le.mpr hn)]
    decide
  show execTineFenced n t s = _
  simp only [execTineFenced, ← hu, if_neg hserves, tineLeaves]
  cases hc : tget u.tin.tines n with
  | none => rfl
  | some c =>
    by_cases hfails : c.fails < 2
    · simp only [if_pos hfails, if_neg (show ¬3 ≤ c.fails + 1 by omega)]
    · simp only [if_neg hfails, if_pos (show 3 ≤ c.fails + 1 by omega)]

/-! ### Pairs of the management processor -/

/-- A mismatch has no effect with the logic die off or on a pair that does not run. -/
theorem exec_mpLockstep_ignored {b : Bool} (h : logicOn u = false ∨ (mpPair u b).st ≠ 0) :
    exec (.mpLockstep b t) s = .next u := by
  subst hu
  exact congrArg Host.Outcome.next (if_pos (by simpa using h))

/-- The first two mismatches within an hour reboot the pair; the third holds it down and raises MP_PAIR_DOWN. -/
theorem exec_mpLockstep {b : Bool} {m : List Nat} (hon : logicOn u = true) (hst : (mpPair u b).st = 0)
    (hm : m = u.now :: (mpPair u b).mism.filter (fun k => u.now < k + 3600000000)) :
    exec (.mpLockstep b t) s
      = .next (judgePairs (if 3 ≤ m.length then raiseOpen (lockstepLost u b 2 m) 0x006 else lockstepLost u b 1 m)) := by
  have hruns : ¬(!logicOn u || (mpPair u b).st != 0) = true := by simp [hon, hst]
  show execMpLockstep b t s = _
  simp only [execMpLockstep, ← hu, if_neg hruns, ← hm]
  by_cases hthird : 3 ≤ m.length
  · simp only [hthird, decide_true, if_true]
    rfl
  · simp only [hthird, decide_false, if_false]
    rfl

/-! ### Watchdogs, the configuration record and injections -/

/-- A watchdog acts on a host-assisted function only, and not before its time. -/
theorem exec_haWatchdog_early {f : Nat} (h : assisted u f = false ∨ u.now < (func u f).wdAt + 1000 * (func u f).watchdog) :
    exec (.haWatchdog f t) s = .next u := by
  subst hu
  exact congrArg Host.Outcome.next (if_pos (by simpa using h))

theorem exec_haWatchdog {f : Nat} (ha : assisted u f = true) (h : (func u f).wdAt + 1000 * (func u f).watchdog ≤ u.now) :
    exec (.haWatchdog f t) s
      = .next (raise (dropInputs (setFunc u f (dropFunc 3 (func u f))) (fun k => k == f)) 0x008 f) := by
  show execHaWatchdog f t s = _
  simp only [execHaWatchdog, ← hu]
  exact congrArg Host.Outcome.next (if_neg (by simpa [ha] using h))

theorem exec_configRecordSave_nothing (h : u.dev.state = .off ∨ u.nvm.confPending = []) :
    exec (.configRecordSave t) s = .next u := by
  subst hu
  exact congrArg Host.Outcome.next (if_pos (by simpa using h))

theorem exec_configRecordSave (hoff : u.dev.state ≠ .off) (hp : u.nvm.confPending ≠ []) :
    exec (.configRecordSave t) s
      = .next (if u.nvm.confPending.any keptRw || u.nvm.confAt + 14400 ≤ opSecs u then saveConfig u else u) := by
  subst hu
  exact congrArg Host.Outcome.next (if_neg (by simpa using And.intro hoff hp))

theorem exec_injectionTimeout_of_none {n : Nat} (h : (source u n).inject = none) :
    exec (.injectionTimeout n t) s = .next u := by
  show execInjectionTimeout n t s = _
  simp only [execInjectionTimeout, ← hu, h]

/-- An injection is withdrawn, and its command ends with TIMEOUT, once its time has passed. -/
theorem exec_injectionTimeout {n id sh d : Nat} {j : Inject} (hj : (source u n).inject = some j) (hc : j.cmd = some id)
    (hd : jobOf u id = .inject sh d) :
    exec (.injectionTimeout n t) s
      = .next (if u.now < d then u else endWith (setSource u n { source u n with inject := none }) id 0x0D 0) := by
  show execInjectionTimeout n t s = _
  simp only [execInjectionTimeout, ← hu, hj, hc, Option.map_some, hd]

end

/-! ### The obligation -/

/-- Settles O43: each row by its rule above. -/
theorem tinesPairsAndWatchdogs : Obligations.TinesPairsAndWatchdogs := by
  refine ⟨fun b n t ues s u hu => ?_, fun b t s u hu => ?_, fun f n t s u hu => ?_⟩
  · refine ⟨exec_bedClockStop_of_idle hu, exec_bedClockStop_of_busy hu,
      ⟨exec_bedWake_of_no_work hu, exec_bedWake_of_all_clocked hu, fun _ => exec_bedWake hu⟩,
      exec_cuttingDone_of_no_cutting hu ues, fun _ => exec_cuttingDone hu ues, exec_tineFenced_ignored hu,
      fun hon hf hn => ?_⟩
    rw [exec_tineFenced hu hon hf hn]
    refine ⟨fun hc => ?_, fun c hc => ⟨fun hfew => ?_, fun hthird => ?_⟩⟩
    · simp only [tineLeaves, hc]
    · simp only [tineLeaves, hc, if_pos hfew]
    · simp only [tineLeaves, hc, if_neg (Nat.not_lt.mpr hthird)]
  · refine ⟨exec_mpLockstep_ignored hu, fun hon hst hfew => ?_, fun hon hst hthird => ?_⟩
    · rw [exec_mpLockstep hu hon hst rfl, if_neg (Nat.not_le.mpr hfew)]
      rfl
    · rw [exec_mpLockstep hu hon hst rfl, if_pos hthird]
      rfl
  · refine ⟨exec_haWatchdog_early hu, fun ha hdue => ?_, exec_configRecordSave_nothing hu, fun hoff hp => ?_,
      exec_injectionTimeout_of_none hu, fun j id sh d hj hc hd => ?_⟩
    · rw [exec_haWatchdog hu ha hdue, dropFunc_of_assisted 3 ha]
    · rw [exec_configRecordSave hu hoff hp]
      refine ⟨fun hdue => ?_, fun hkept hearly => ?_⟩
      · rw [if_pos (by simpa using hdue)]
      · rw [if_neg (by simpa [hkept] using hearly)]
    · rw [exec_injectionTimeout hu hj hc hd]
      exact ⟨fun hearly => by rw [if_pos hearly], fun hdue => by rw [if_neg (Nat.not_lt.mpr hdue)]⟩

end Sys2Proof.Machine

/-! Supplies, start checks, input, power fail, buttons, orderly off, temperature and POWER_STATE_REQ (R22, R23, 01_architecture.md;
R163, R193, 06_harvest_and_replant.md; R328–R337, 11_rail_sequencing.md; R441, R472). -/

namespace Sys2Proof.Machine

open Sys2Proof

/-- An event of rank `k` that takes effect leaves the device state. -/
@[simp] theorem noteWon_state (s : State) (k : Nat) : (noteWon s k).dev.state = s.dev.state := rfl

theorem serving_iff {s : State} :
    serving s = true ↔ s.dev.state = .replanting ∨ s.dev.state = .serving ∨ s.dev.state = .degraded := by
  cases h : s.dev.state <;> simp [serving, h]

/-! ### Effects of rows, named -/

/-- The destination of a harvest, chosen at its seal, is entered (R162). -/
def harvestDone (s : State) (r : HarvestRun) : State :=
  let w := { s with hrv := { s.hrv with run := none } }
  match s.hrv.dest with
  | .held => enterHeld s r.cause.code
  | .latched => enterLatched w .sealed
  | _ => toRailsDown w .sealed

/-- A power failure seen on the monitor, over voltage or not, or on the pin: its source and what it takes from the input (R163). -/
def powerFailSeen (s : State) (mon overV pin : Bool) : State :=
  { s with
    psq := { s.psq with
            inputIn := s.psq.inputIn && !mon, on := if overV then sdel s.psq.on 0 else s.psq.on,
            good := if overV then sdel s.psq.good 0 else s.psq.good },
    hrv := { s.hrv with pfSource := b2n mon + 2 * b2n pin } }

/-- What a power failure that takes effect does in each device state (Table 1.6). -/
def powerFails (s : State) : State :=
  match s.dev.state with
  | .replanting | .serving | .degraded => notice (enterHarvesting s .powerFail []) 0 false
  | .harvesting => harvestCause s .powerFail
  | .waking | .railsUp | .training => toRailsDown s .powerFail
  | _ => ignored s .powerFail

theorem powerFails_of_serving {s : State} (h : s.dev.state = .replanting ∨ s.dev.state = .serving ∨ s.dev.state = .degraded) :
    powerFails s = notice (enterHarvesting s .powerFail []) 0 false := by
  rcases h with h | h | h <;> simp only [powerFails, h]

theorem powerFails_of_harvesting {s : State} (h : s.dev.state = .harvesting) : powerFails s = harvestCause s .powerFail := by
  simp only [powerFails, h]

theorem powerFails_of_start {s : State} (h : s.dev.state = .waking ∨ s.dev.state = .railsUp ∨ s.dev.state = .training) :
    powerFails s = toRailsDown s .powerFail := by
  rcases h with h | h | h <;> simp only [powerFails, h]

theorem powerFails_of_rest {s : State}
    (h : s.dev.state = .shelf ∨ s.dev.state = .held ∨ s.dev.state = .railsDown ∨ s.dev.state = .latched) :
    powerFails s = ignored s .powerFail := by
  rcases h with h | h | h | h <;> simp only [powerFails, h]

/-- What MR_N does in each device state when it takes effect (R193). -/
def mrPressed (s : State) : State :=
  match s.dev.state with
  | .replanting | .serving | .degraded => startHarvest s .mrN []
  | .harvesting => harvestCause s .mrN
  | _ => ignored s .mrN

theorem mrPressed_of_serving {s : State} (h : serving s = true) : mrPressed s = startHarvest s .mrN [] := by
  rcases serving_iff.mp h with h | h | h <;> simp only [mrPressed, h]

theorem mrPressed_of_harvesting {s : State} (h : s.dev.state = .harvesting) : mrPressed s = harvestCause s .mrN := by
  simp only [mrPressed, h]

theorem mrPressed_ignored {s : State} (hserv : serving s = false) (h : s.dev.state ≠ .harvesting) :
    mrPressed s = ignored s .mrN := by
  have hstates := mt serving_iff.mpr (Bool.eq_false_iff.mp hserv)
  simp only [not_or] at hstates
  obtain ⟨hrep, hser, hdeg⟩ := hstates
  simp only [mrPressed]

/-- A full-image save in place of an orderly off's drain still has granules to copy (R195). -/
def offSaveRuns (s : State) : Bool :=
  match s.hrv.save with | some v => v.forOff && !(v.left.isEmpty && v.out.isEmpty) | none => false

theorem offSaveRuns_iff {s : State} :
    offSaveRuns s = true ↔ ∃ v, s.hrv.save = some v ∧ v.forOff = true ∧ (v.left ≠ [] ∨ v.out ≠ []) := by
  cases h : s.hrv.save with
  | none => simp [offSaveRuns, h]
  | some v => simp [offSaveRuns, h]

/-- A full-image save once the orderly off it stands in for has ended. -/
def saveEnded (s : State) : Option FullSave :=
  match s.hrv.save with | some v => if v.forOff then none else some v | none => none

/-- The seal of an orderly off: KIND 2 where a save stood in for the drain, else 1 (R330). -/
def offSeal (s : State) (r : OffRun) : Seal :=
  { kind := (match s.hrv.save with | some v => if v.forOff then 2 else 1 | none => 1), cause := r.cause.code,
    powerCycle := s.dev.powerCycles, opSeconds := opSecs s, epoch := if s.exl.paired then s.exl.epoch else 0,
    regs := hrvRegs s, cutSeq := (List.range 64).map (fun i => BitVec.ofNat 64 (tgetD s.ldg.seqs i 0)) }

/-- A button or MR_N row is masked: its enable bit `k` of PSQ_CFG is clear, or the cold frame is off or in collapse (R329). -/
theorem inputMasked_iff {s : State} {k : Nat} :
    (cfg s rPsqCfg k 1 == 0 || s.dev.state == .off || s.psq.collapse) = true
      ↔ cfg s rPsqCfg k 1 = 0 ∨ s.dev.state = .off ∨ s.psq.collapse = true := by
  simp [or_assoc]

/-- A press under way that is released in time passes the guard of the row. -/
theorem shortPress_in_time {u : State} (hdown : u.psq.btnDown = true) (hlong : u.psq.btnLong = false)
    (hcfg : cfg u rPsqCfg 0 1 ≠ 0) (h : u.now < u.psq.btnAt + 7950000) :
    ¬(!u.psq.btnDown || u.psq.btnLong || cfg u rPsqCfg 0 1 == 0 || decide (u.psq.btnAt + 7950000 ≤ u.now)) = true := by
  simp [hdown, hlong, hcfg, h]

section
variable {s u : State} {t : Nat} (hu : u = tick s t)
include hu

/-! ### VAON (R22, R335) -/

theorem exec_vaonPresent_of_off {i : ColdIn} (h : u.dev.state = .off) : exec (.vaonPresent i t) s = .next (coldStart i u) := by
  show execVaonPresent i t s = _
  simp [execVaonPresent, ← hu, h]

theorem exec_vaonPresent_of_on {i : ColdIn} (h : u.dev.state ≠ .off) : exec (.vaonPresent i t) s = .next (ignored u .none) := by
  show execVaonPresent i t s = _
  simp [execVaonPresent, ← hu, h]

/-- In OFF nothing is left for the loss, the reset, a brown-out or the recovery of VAON to act on. -/
theorem exec_vaon_of_off (h : u.dev.state = .off) :
    exec (.vaonAbsent t) s = .next u ∧ exec (.vaonReset t) s = .next u ∧ exec (.brownOut t) s = .next u
      ∧ exec (.vaonRecovery t) s = .next u := by
  refine ⟨?_, ?_, ?_, ?_⟩
  · show execVaonAbsent t s = _
    simp only [execVaonAbsent, ← hu, h]
  · show execVaonReset t s = _
    simp [execVaonReset, ← hu, h]
  · show execBrownOut t s = _
    simp [execBrownOut, ← hu, h]
  · show execVaonRecovery t s = _
    simp [execVaonRecovery, ← hu, h]

theorem exec_vaonAbsent_of_rest (h : u.dev.state = .shelf ∨ u.dev.state = .latched) :
    exec (.vaonAbsent t) s = .next (vaonGone u) := by
  show execVaonAbsent t s = _
  rcases h with h | h <;> simp only [execVaonAbsent, ← hu, h]

theorem exec_vaonAbsent_of_railsDown (h : u.dev.state = .railsDown) :
    exec (.vaonAbsent t) s = .next { u with dev := { u.dev with vaon := false, opSeconds := opSecs u } } := by
  show execVaonAbsent t s = _
  simp only [execVaonAbsent, ← hu, h]

theorem exec_vaonAbsent_ignored (h0 : u.dev.state ≠ .off) (h1 : u.dev.state ≠ .shelf) (h2 : u.dev.state ≠ .latched)
    (h3 : u.dev.state ≠ .railsDown) : exec (.vaonAbsent t) s = .next (ignored u .vaonOrCycle) := by
  show execVaonAbsent t s = _
  simp only [execVaonAbsent, ← hu]

theorem exec_vaonLow : exec (.vaonLow t) s = .next (collapse u) := by
  subst hu
  rfl

theorem exec_vaonReset (h : u.dev.state ≠ .off) : exec (.vaonReset t) s = .next (vaonGone (collapse u)) := by
  show execVaonReset t s = _
  simp [execVaonReset, ← hu, h]

/-- A brown-out cuts the operations of the embedded flash, tells the commands that waited for one, and stops records. -/
theorem exec_brownOut (h : u.dev.state ≠ .off) :
    let v := dropWaiting (cutOps u)
    exec (.brownOut t) s = .next { v with nvm := { v.nvm with bod := true }, log := { v.log with writing := false } } := by
  show execBrownOut t s = _
  simp [execBrownOut, ← hu, h]

theorem exec_vaonRecovery (h : u.dev.state ≠ .off) :
    exec (.vaonRecovery t) s = .next { u with psq := { u.psq with collapse := false }, nvm := { u.nvm with bod := false } } := by
  show execVaonRecovery t s = _
  simp [execVaonRecovery, ← hu, h]

/-! ### Straps and start checks (R22, R441, R458) -/

theorem exec_strapSample_nothing {x y : Bool}
    (h : u.dev.state = .off ∨ u.pin.strapsTaken = true ∨ u.now < u.dev.vaonAt + 100) : exec (.strapSample x y t) s = .next u := by
  subst hu
  exact congrArg Host.Outcome.next (if_pos (by simpa [or_assoc] using h))

/-- Straps are sampled once, 100 µs after VAON; a test strap on a part past lifecycle 0 is recorded. -/
theorem exec_strapSample {x y : Bool} (hoff : u.dev.state ≠ .off) (htaken : u.pin.strapsTaken = false)
    (hdue : u.dev.vaonAt + 100 ≤ u.now) :
    let w := { u with pin := { u.pin with strapTest := x, strapXbyp := y, strapsTaken := true } }
    exec (.strapSample x y t) s = .next (if x && lifecycle w != 0 then logEvent w 0x210 0 0 else w) := by
  show execStrapSample x y t s = _
  simp only [execStrapSample, ← hu]
  exact congrArg Host.Outcome.next (if_neg (by simp [hoff, htaken, hdue]))

theorem exec_startChecks_of_not_waking {temp : Int} {ecc : List Nat} {x : Bool} (h : u.dev.state ≠ .waking) :
    exec (.startChecks temp ecc x t) s = .next (ignored u .progress) ∧ exec (.coldTempRecheck temp ecc x t) s = .next u := by
  refine ⟨?_, ?_⟩
  · show execStartChecks temp ecc x t s = _
    simp [execStartChecks, ← hu, h]
  · show execColdTempRecheck temp ecc x t s = _
    simp [execColdTempRecheck, ← hu, h]

theorem exec_startChecks_of_waking {temp : Int} {ecc : List Nat} {x : Bool} (h : u.dev.state = .waking) :
    exec (.startChecks temp ecc x t) s
      = .next (if u.fwu.noImage || u.pin.coldWait then u else checksAt temp ecc x u) := by
  show execStartChecks temp ecc x t s = _
  simp [execStartChecks, ← hu, h]

theorem exec_coldTempRecheck_of_waking {temp : Int} {ecc : List Nat} {x : Bool} (h : u.dev.state = .waking) :
    exec (.coldTempRecheck temp ecc x t) s
      = .next (if u.pin.coldWait && !u.fwu.noImage && decide (u.pin.coldAt + 1000000 ≤ u.now) then checksAt temp ecc x u else u) := by
  show execColdTempRecheck temp ecc x t s = _
  simp [execColdTempRecheck, ← hu, h]

/-! ### Input good (R328) -/

/-- Input that turns good is noted and no more after an off, in OFF and in HARVESTING. -/
theorem exec_inputGood_held_off (h : u.psq.offHold = true ∨ u.dev.state = .off ∨ u.dev.state = .harvesting) :
    exec (.inputGood t) s = .next { u with psq := { u.psq with inputIn := true } } := by
  show execInputGood t s = _
  rcases h with h | h | h <;> simp [execInputGood, ← hu, h]

theorem exec_inputGood_settles (hhold : u.psq.offHold = false) (h : u.dev.state = .shelf ∨ u.dev.state = .held) :
    exec (.inputGood t) s = .next (settle { u with psq := { u.psq with inputIn := true } } .inputGood) := by
  show execInputGood t s = _
  rcases h with h | h <;> simp [execInputGood, ← hu, hhold, h]

theorem exec_inputGood_of_railsDown (hhold : u.psq.offHold = false) (h : u.dev.state = .railsDown) :
    exec (.inputGood t) s = .next { u with psq := { u.psq with inputIn := true, onPending := true } } := by
  show execInputGood t s = _
  simp [execInputGood, ← hu, hhold, h]

theorem exec_inputGood_ignored (hhold : u.psq.offHold = false)
    (h : u.dev.state = .waking ∨ u.dev.state = .railsUp ∨ u.dev.state = .training ∨ u.dev.state = .replanting
      ∨ u.dev.state = .serving ∨ u.dev.state = .degraded ∨ u.dev.state = .latched) :
    exec (.inputGood t) s = .next (ignored { u with psq := { u.psq with inputIn := true } } .inputGood) := by
  show execInputGood t s = _
  rcases h with h | h | h | h | h | h | h <;> simp [execInputGood, ← hu, hhold, h]

/-! ### Notices (R17, R162–R165, R373) -/

theorem exec_pfGlitch {us : Nat} : exec (.pfGlitch us t) s = .next (logEvent u 0x201 us 0) := by
  subst hu
  rfl

theorem exec_powerFailNotice {us : Nat} :
    exec (.powerFailNotice us t) s = .next (if u.dev.state = .harvesting then takeCut u us else u) := by
  show execPowerFailNotice us t s = _
  simp [execPowerFailNotice, ← hu]

/-- The done notice is ignored outside a harvest whose run has been sealed. -/
theorem exec_harvestDoneNotice_ignored
    (h : u.dev.state ≠ .harvesting ∨ u.hrv.run = none ∨ ∃ r, u.hrv.run = some r ∧ r.phase ≠ 5) :
    exec (.harvestDoneNotice t) s = .next (ignored u .sealed) := by
  show execHarvestDoneNotice t s = _
  simp only [execHarvestDoneNotice, ← hu]
  split
  · next r hst hrun =>
    rcases h with h | h | ⟨q, hq, hphase⟩
    · exact absurd hst h
    · cases hrun.symm.trans h
    · cases hrun.symm.trans hq
      exact congrArg Host.Outcome.next (if_pos (by simpa using hphase))
  · rfl

theorem exec_harvestDoneNotice {r : HarvestRun} (hst : u.dev.state = .harvesting) (hrun : u.hrv.run = some r)
    (hphase : r.phase = 5) : exec (.harvestDoneNotice t) s = .next (harvestDone u r) := by
  show execHarvestDoneNotice t s = _
  simp only [execHarvestDoneNotice, ← hu, hst, hrun]
  exact congrArg Host.Outcome.next (if_neg (by simp [hphase]))

theorem exec_fatalNotice_nothing {n us : Nat} (h : reactRank n < 2 ∨ (source u n).live = true) :
    exec (.fatalNotice n us t) s = .next u := by
  have hno : ¬(decide (2 ≤ reactRank n) && !(source u n).live) = true := by
    rcases h with h | h <;> simp [h]
  show execFatalNotice n us t s = _
  simp only [execFatalNotice, ← hu, if_neg hno]

theorem exec_fatalNotice {n us : Nat} (hrank : 2 ≤ reactRank n) (hlive : (source u n).live = false) :
    exec (.fatalNotice n us t) s = .next (raiseLive u n us) := by
  show execFatalNotice n us t s = _
  simp [execFatalNotice, ← hu, hrank, hlive]

/-! ### Power fail (R163) -/

theorem exec_powerFail_nothing {under overV pin : Bool}
    (h : (under || overV || pin && cfg u rAonPfCfg 31 1 == 1) = false ∨ u.dev.state = .off ∨ u.psq.collapse = true) :
    exec (.powerFail under overV pin t) s = .next u := by
  show execPowerFail under overV pin t s = _
  simp only [execPowerFail, ← hu]
  exact congrArg Host.Outcome.next (if_pos (by rcases h with h | h | h <;> simp [h]))

section
variable {under overV pin : Bool} (hseen : (under || overV || pin && cfg u rAonPfCfg 31 1 == 1) = true)
  (hoff : u.dev.state ≠ .off) (hcol : u.psq.collapse = false)
include hseen hoff hcol

/-- A power failure is noted, and acts unless a higher cause of its microsecond has won (R23). -/
theorem exec_powerFail_noted :
    let w := powerFailSeen u (under || overV) overV (pin && cfg u rAonPfCfg 31 1 == 1)
    exec (.powerFail under overV pin t) s = .next (if outranked w 3 then w else powerFails (noteWon w 3)) := by
  show execPowerFail under overV pin t s = _
  simp only [execPowerFail, ← hu]
  exact congrArg Host.Outcome.next (if_neg (by simp only [hseen, hcol]; simpa using hoff))

theorem exec_powerFail_outranked
    (h : outranked (powerFailSeen u (under || overV) overV (pin && cfg u rAonPfCfg 31 1 == 1)) 3 = true) :
    exec (.powerFail under overV pin t) s
      = .next (powerFailSeen u (under || overV) overV (pin && cfg u rAonPfCfg 31 1 == 1)) :=
  (exec_powerFail_noted hu hseen hoff hcol).trans (congrArg Host.Outcome.next (if_pos h))

theorem exec_powerFail (h : outranked (powerFailSeen u (under || overV) overV (pin && cfg u rAonPfCfg 31 1 == 1)) 3 = false) :
    exec (.powerFail under overV pin t) s = .next (powerFails (noteWon
      (powerFailSeen u (under || overV) overV (pin && cfg u rAonPfCfg 31 1 == 1)) 3)) :=
  (exec_powerFail_noted hu hseen hoff hcol).trans (congrArg Host.Outcome.next (if_neg (Bool.eq_false_iff.mp h)))

end

/-! ### Orderly off (R195, R330) -/

theorem exec_off_of_no_run (h : u.psq.offRun = none) :
    exec (.orderlyOffSeal t) s = .next u ∧ exec (.offAbandoned t) s = .next u
      ∧ exec (.orderlyOffPowerDown t) s = .next (ignored u .progress) := by
  refine ⟨?_, ?_, ?_⟩
  · show execOrderlyOffSeal t s = _
    simp only [execOrderlyOffSeal, ← hu, h]
  · show execOffAbandoned t s = _
    simp only [execOffAbandoned, ← hu, h]
  · show execOrderlyOffPowerDown t s = _
    simp only [execOrderlyOffPowerDown, ← hu, h]

/-- The seal of an orderly off waits for exposure zero and for the save in its place, and is written once. -/
theorem exec_orderlyOffSeal_waits {r : OffRun} (hr : u.psq.offRun = some r)
    (h : r.sealed = true ∨ exposure u ≠ 0 ∨ offSaveRuns u = true) : exec (.orderlyOffSeal t) s = .next u := by
  have hwait : (r.sealed || exposure u != 0 || offSaveRuns u) = true := by simpa [or_assoc] using h
  show execOrderlyOffSeal t s = _
  simp only [execOrderlyOffSeal, ← hu, hr]
  exact congrArg Host.Outcome.next (if_pos hwait)

/-- With the seal, OFF_HOLD is set, pending values are saved and the off commands end with OK. -/
theorem exec_orderlyOffSeal {r : OffRun} (hr : u.psq.offRun = some r) (hsealed : r.sealed = false) (hexp : exposure u = 0)
    (hsave : offSaveRuns u = false) :
    let w := r.cmds.foldl (fun s id => endPower s id 0 0) (placeSeal u (offSeal u r) none)
    exec (.orderlyOffSeal t) s = .next (saveConfig { w with
      psq := { w.psq with offHold := true, offRun := some { r with sealed := true, sealAt := w.now, cmds := [] } },
      hrv := { w.hrv with save := saveEnded w } }) := by
  have hgo : ¬(r.sealed || exposure u != 0 || offSaveRuns u) = true := by simp [hsealed, hexp, hsave]
  show execOrderlyOffSeal t s = _
  simp only [execOrderlyOffSeal, ← hu, hr]
  exact congrArg Host.Outcome.next (if_neg hgo)

theorem exec_orderlyOffPowerDown {r : OffRun} (hr : u.psq.offRun = some r)
    (hst : u.dev.state = .serving ∨ u.dev.state = .degraded) :
    exec (.orderlyOffPowerDown t) s
      = .next (if r.sealed && decide (r.sealAt + 10000 ≤ u.now) then toRailsDown u r.cause else u) := by
  show execOrderlyOffPowerDown t s = _
  rcases hst with hst | hst <;> simp only [execOrderlyOffPowerDown, ← hu, hr, hst]

theorem exec_offAbandoned_early {r : OffRun} (hr : u.psq.offRun = some r)
    (h : r.sealed = true ∨ u.now < r.since + max 10 (cfg u rPsqCfg 16 16) * 1000000) :
    exec (.offAbandoned t) s = .next u := by
  show execOffAbandoned t s = _
  simp only [execOffAbandoned, ← hu, hr]
  exact congrArg Host.Outcome.next (if_pos (by simpa using h))

/-- An orderly off not sealed at its limit is abandoned: its commands end with TIMEOUT, and the drain it asked for ends. -/
theorem exec_offAbandoned {r : OffRun} (hr : u.psq.offRun = some r) (hsealed : r.sealed = false)
    (h : r.since + max 10 (cfg u rPsqCfg 16 16) * 1000000 ≤ u.now) :
    let a := r.cmds.foldl (fun s id => endPower s id 0x0D 0) (logEvent u 0x204 (exposure u) 0)
    exec (.offAbandoned t) s = .next { a with
      psq := { a.psq with offRun := none }, drp := { a.drp with offDrain := false },
      hrv := { a.hrv with save := saveEnded a } } := by
  have hgo : ¬(r.sealed || decide (u.now < r.since + max 10 (cfg u rPsqCfg 16 16) * 1000000)) = true := by
    simpa [hsealed] using h
  show execOffAbandoned t s = _
  simp only [execOffAbandoned, ← hu, hr]
  exact congrArg Host.Outcome.next (if_neg hgo)

/-! ### Button and MR_N (R193, R329) -/

theorem exec_pwrbtnPress_masked (h : cfg u rPsqCfg 0 1 = 0 ∨ u.dev.state = .off ∨ u.psq.collapse = true) :
    exec (.pwrbtnPress t) s = .next u := by
  subst hu
  exact congrArg Host.Outcome.next (if_pos (inputMasked_iff.mpr h))

/-- A press is timed from here, with where it began; in SHELF it asks for on. -/
theorem exec_pwrbtnPress (h : ¬(cfg u rPsqCfg 0 1 = 0 ∨ u.dev.state = .off ∨ u.psq.collapse = true)) :
    let w := { u with psq := { u.psq with btnDown := true, btnLong := false, btnShelf := u.dev.state == .shelf, btnAt := u.now } }
    exec (.pwrbtnPress t) s = .next (if u.dev.state == .shelf then onRequest w .shortPress else w) := by
  subst hu
  exact congrArg Host.Outcome.next (if_neg (mt inputMasked_iff.mp h))

/-- With no press under way, or one already long, a release or a long press has no effect. -/
theorem exec_press_of_not_down (h : u.psq.btnDown = false ∨ u.psq.btnLong = true ∨ cfg u rPsqCfg 0 1 = 0) :
    exec (.shortPress t) s = .next u ∧ exec (.longPress t) s = .next u := by
  refine ⟨?_, ?_⟩
  · show execShortPress t s = _
    rcases h with h | h | h <;> simp [execShortPress, ← hu, h]
  · show execLongPress t s = _
    rcases h with h | h | h <;> simp [execLongPress, ← hu, h]

/-- A release at 7.95 s or later is no short press. -/
theorem exec_shortPress_late (h : u.psq.btnAt + 7950000 ≤ u.now) : exec (.shortPress t) s = .next u := by
  show execShortPress t s = _
  simp [execShortPress, ← hu, h]

theorem exec_longPress_early (h : u.now < u.psq.btnAt + 7950000) : exec (.longPress t) s = .next u := by
  show execLongPress t s = _
  simp [execLongPress, ← hu, h]

section
variable (hdown : u.psq.btnDown = true) (hlong : u.psq.btnLong = false) (hcfg : cfg u rPsqCfg 0 1 ≠ 0)
include hdown hlong hcfg

/-- A short press that began in SHELF, or that a higher cause outranks, only ends. -/
theorem exec_shortPress_no_request (h : u.now < u.psq.btnAt + 7950000)
    (hno : u.psq.btnShelf = true ∨ outranked { u with psq := { u.psq with btnDown := false } } 6 = true) :
    exec (.shortPress t) s = .next { u with psq := { u.psq with btnDown := false } } := by
  have hgo := shortPress_in_time hdown hlong hcfg h
  subst hu
  exact congrArg Host.Outcome.next ((if_neg hgo).trans (if_pos (Bool.or_eq_true_iff.mpr hno)))

theorem exec_shortPress (h : u.now < u.psq.btnAt + 7950000) (hshelf : u.psq.btnShelf = false)
    (hwon : outranked { u with psq := { u.psq with btnDown := false } } 6 = false) :
    exec (.shortPress t) s
      = .next (offRequest (noteWon { u with psq := { u.psq with btnDown := false } } 6) .shortPress [] true) := by
  have hgo := shortPress_in_time hdown hlong hcfg h
  subst hu
  exact congrArg Host.Outcome.next
    ((if_neg hgo).trans (if_neg (Bool.eq_false_iff.mp (Bool.or_eq_false_iff.mpr ⟨hshelf, hwon⟩))))

/-- A long press that began in SHELF is only noted. -/
theorem exec_longPress_from_shelf (h : u.psq.btnAt + 7950000 ≤ u.now) (hshelf : u.psq.btnShelf = true) :
    exec (.longPress t) s = .next { u with psq := { u.psq with btnLong := true } } := by
  show execLongPress t s = _
  simp [execLongPress, ← hu, hdown, hlong, hcfg, Nat.not_lt.mpr h, hshelf]

theorem exec_longPress_of_latched (h : u.psq.btnAt + 7950000 ≤ u.now) (hshelf : u.psq.btnShelf = false)
    (hst : u.dev.state = .latched) :
    exec (.longPress t) s = .next (ignored { u with psq := { u.psq with btnLong := true } } .longPress) := by
  show execLongPress t s = _
  simp [execLongPress, ← hu, hdown, hlong, hcfg, Nat.not_lt.mpr h, hshelf, hst]

/-- Elsewhere a long press sets OFF_HOLD and forces off. -/
theorem exec_longPress (h : u.psq.btnAt + 7950000 ≤ u.now) (hshelf : u.psq.btnShelf = false) (hst : u.dev.state ≠ .latched) :
    let w := { u with psq := { u.psq with btnLong := true, offHold := true } }
    exec (.longPress t) s = .next (if outranked w 4 then w else longPress (noteWon w 4) .longPress true) := by
  show execLongPress t s = _
  simp [execLongPress, ← hu, hdown, hlong, hcfg, Nat.not_lt.mpr h, hshelf, hst]

end

theorem exec_mrN_masked (h : cfg u rPsqCfg 1 1 = 0 ∨ u.dev.state = .off ∨ u.psq.collapse = true) :
    exec (.mrNAssert t) s = .next u ∧ exec (.mrNRelease t) s = .next u := by
  subst hu
  exact ⟨congrArg Host.Outcome.next (if_pos (inputMasked_iff.mpr h)),
    congrArg Host.Outcome.next (if_pos (inputMasked_iff.mpr h))⟩

section
variable (hlive : ¬(cfg u rPsqCfg 1 1 = 0 ∨ u.dev.state = .off ∨ u.psq.collapse = true))
include hlive

theorem exec_mrNAssert_outranked (h : outranked { u with psq := { u.psq with mrActive := true } } 5 = true) :
    exec (.mrNAssert t) s = .next { u with psq := { u.psq with mrActive := true } } := by
  subst hu
  exact congrArg Host.Outcome.next ((if_neg (mt inputMasked_iff.mp hlive)).trans (if_pos h))

theorem exec_mrNAssert (h : outranked { u with psq := { u.psq with mrActive := true } } 5 = false) :
    exec (.mrNAssert t) s = .next (mrPressed (noteWon { u with psq := { u.psq with mrActive := true } } 5)) := by
  subst hu
  exact congrArg Host.Outcome.next
    ((if_neg (mt inputMasked_iff.mp hlive)).trans (if_neg (Bool.eq_false_iff.mp h)))

theorem exec_mrNRelease :
    let r := { u with psq := { u.psq with mrActive := false } }
    exec (.mrNRelease t) s = .next (if u.dev.state == .held then settle r .mrN else ignored r .mrN) := by
  subst hu
  exact congrArg Host.Outcome.next (if_neg (mt inputMasked_iff.mp hlive))

end

/-! ### Power cycle and hold time (R24, R25, R193, R328) -/

theorem exec_powerCycle_of_off (h : u.dev.state = .off) : exec (.powerCycle t) s = .next u := by
  show execPowerCycle t s = _
  simp [execPowerCycle, ← hu, h]

theorem exec_powerCycle_ignored (hoff : u.dev.state ≠ .off) (h : u.dev.state ≠ .latched) :
    exec (.powerCycle t) s = .next (ignored { u with psq := { u.psq with inputIn := false, offHold := false } } .vaonOrCycle) := by
  show execPowerCycle t s = _
  simp [execPowerCycle, ← hu, hoff, h]

/-- A power cycle leaves LATCHED: it is counted, the latched Fatal is gone, and VAON decides between SHELF and OFF. -/
theorem exec_powerCycle_of_latched (h : u.dev.state = .latched) :
    let v := pairWrite { u with
      psq := { u.psq with inputIn := false, offHold := false },
      dev := { u.dev with powerCycles := u.dev.powerCycles + 1 },
      flt := { u.flt with latched := none, latchedStop := false, window := none, alive := true } } 5
    exec (.powerCycle t) s = .next (setDev v (if v.dev.vaon then .shelf else .off) .vaonOrCycle) := by
  show execPowerCycle t s = _
  simp [execPowerCycle, ← hu, h]

theorem exec_holdTimeReached_of_outranked (h : outranked u 7 = true) : exec (.holdTimeReached t) s = .next u := by
  subst hu
  exact congrArg Host.Outcome.next (if_pos h)

theorem exec_holdTimeReached_ignored (hrank : outranked u 7 = false) (h : u.dev.state ≠ .held) :
    exec (.holdTimeReached t) s = .next (ignored u .holdTime) := by
  show execHoldTimeReached t s = _
  simp [execHoldTimeReached, ← hu, hrank, h]

/-- Before its maximum, or after MR_N with none, hold goes on. -/
theorem exec_holdTimeReached_stays (hrank : outranked u 7 = false) (h : u.dev.state = .held)
    (hstays : (heldByMr u = true ∧ u.hrv.holdMax = 0) ∨ u.now < u.dev.stateAt + u.hrv.holdMax * 1000000) :
    exec (.holdTimeReached t) s = .next u := by
  show execHoldTimeReached t s = _
  simp [execHoldTimeReached, ← hu, hrank, h, hstays]

theorem exec_holdTimeReached (hrank : outranked u 7 = false) (h : u.dev.state = .held)
    (hlimit : heldByMr u = false ∨ u.hrv.holdMax ≠ 0) (hdue : u.dev.stateAt + u.hrv.holdMax * 1000000 ≤ u.now) :
    exec (.holdTimeReached t) s = .next (toRailsDown (noteWon u 7) .holdTime) := by
  have hends : ¬(heldByMr u && u.hrv.holdMax == 0 || decide (u.now < u.dev.stateAt + u.hrv.holdMax * 1000000)) = true := by
    rcases hlimit with hlimit | hlimit <;> simp [hlimit, hdue]
  show execHoldTimeReached t s = _
  simp only [execHoldTimeReached, ← hu, hrank, h, if_neg hends]
  rfl

/-! ### Temperature and crystal (R19, R472) -/

theorem exec_thermalHigh_nothing {temp : Int} (h : logicOn u = false ∨ temp < 105) :
    exec (.thermalHigh temp t) s = .next u := by
  subst hu
  exact congrArg Host.Outcome.next (if_pos (by simpa using h))

theorem exec_thermalHigh {temp : Int} (hon : logicOn u = true) (h : 105 ≤ temp) :
    exec (.thermalHigh temp t) s
      = .next (logEvent { u with pin := { u.pin with logicMax := some temp, logicAt := u.now, thermHigh := true } }
        0x212 (twos temp 8) 0) := by
  show execThermalHigh temp t s = _
  simp only [execThermalHigh, ← hu]
  exact congrArg Host.Outcome.next (if_neg (by simpa [hon] using h))

theorem exec_thermalTrip_nothing {temp : Int} (h : temp < 115 ∨ (logicOn u = false ∧ u.dev.state ≠ .railsUp)) :
    exec (.thermalTrip temp t) s = .next u := by
  subst hu
  exact congrArg Host.Outcome.next (if_pos (by simpa using h.symm))

/-- A trip is recorded and acts as a long press that leaves OFF_HOLD. -/
theorem exec_thermalTrip {temp : Int} (h : 115 ≤ temp) (hon : logicOn u = true ∨ u.dev.state = .railsUp) :
    let w := logEvent { u with pin := { u.pin with logicMax := some temp, logicAt := u.now } } 0x213 (twos temp 8) 0
    exec (.thermalTrip temp t) s = .next (if outranked w 4 then w else longPress (noteWon w 4) .thermal false) := by
  have hgo : ¬(!(logicOn u || u.dev.state == .railsUp) || decide (temp < 115)) = true := by
    rcases hon with hon | hon <;> simpa [hon] using h
  show execThermalTrip temp t s = _
  simp only [execThermalTrip, ← hu]
  exact congrArg Host.Outcome.next (if_neg hgo)

theorem exec_xtalFail_nothing (h : u.dev.state = .off ∨ u.gau.burst = false ∨ u.dev.xtalOk = false) :
    exec (.xtalFail t) s = .next u := by
  subst hu
  exact congrArg Host.Outcome.next (if_pos (by simpa [or_assoc] using h))

theorem exec_xtalFail (hoff : u.dev.state ≠ .off) (hb : u.gau.burst = true) (hx : u.dev.xtalOk = true) :
    exec (.xtalFail t) s
      = .next (raiseLive (drew { u with dev := { u.dev with xtalOk := false } }) 0x002 (drawn u % 2 ^ 32)) := by
  show execXtalFail t s = _
  simp only [execXtalFail, ← hu]
  exact congrArg Host.Outcome.next (if_neg (by simp [hoff, hb, hx]))

/-- Commands of a domain switch whose time has passed end with TIMEOUT, and the switch runs on without them. -/
theorem exec_domainSwitchTimeout :
    let late := jobs u (fun j => match j with | .domain _ _ dl _ => decide (dl ≤ u.now) | _ => false)
    let w := late.foldl (fun s f => endPower s f.id 0x0D 0) u
    exec (.domainSwitchTimeout t) s = .next { w with psq := { w.psq with
      sw := w.psq.sw.map (fun z => { z with cmds := z.cmds.filter (fun id => !(late.any (fun f => f.id == id))) }) } } := by
  subst hu
  rfl

end

/-! ### POWER_STATE_REQ (R331–R333, R337) -/

/-- A POWER_STATE_REQ that runs as it arrives has the effect of `cmdPowerStateReq`. -/
theorem exec_powerStateReq {c : TrellisCmd} {s v : State} {f : InFlight} (h : started 0x0500 c s = some (v, f)) :
    exec (.powerStateReq c) s = .next (cmdPowerStateReq f v) :=
  congrArg Host.Outcome.next (submit_of_started cmdPowerStateReq h)

section
variable {v : State} {f : InFlight}

theorem cmdPowerStateReq_badAction (h : 3 < pByte f.cmd 24) : cmdPowerStateReq f v = badParam v f.id 24 :=
  if_pos h

theorem cmdPowerStateReq_badDomain (hact : pByte f.cmd 24 = 2 ∨ pByte f.cmd 24 = 3)
    (hd : pByte f.cmd 25 = 0 ∨ 8 < pByte f.cmd 25) : cmdPowerStateReq f v = badParam v f.id 25 := by
  rcases hact with hact | hact <;> simp [cmdPowerStateReq, hact, hd]

/-- An off or on request that loses its window to a higher cause is discarded, and its command interrupted (R23). -/
theorem cmdPowerStateReq_outranked (hact : pByte f.cmd 24 ≤ 1) (h : outranked v 6 = true) :
    cmdPowerStateReq f v = endWith v f.id 0x07 1 := by
  simp [cmdPowerStateReq, hact, h, show ¬3 < pByte f.cmd 24 by omega, show ¬2 ≤ pByte f.cmd 24 by omega]

/-- The state of an off or on request that takes effect, with the exposure at its start kept for its result. -/
def powerAsked (v : State) (f : InFlight) : State := setJob (noteWon v 6) f.id (.off (exposure v))

/-- An off request with the rails down already ends at once. -/
theorem cmdPowerStateReq_off_at_rest (hact : pByte f.cmd 24 = 0) (h : outranked v 6 = false)
    (hst : v.dev.state = .shelf ∨ v.dev.state = .held ∨ v.dev.state = .railsDown) :
    cmdPowerStateReq f v = endPower (offRequest (powerAsked v f) .powerReq [] true) f.id 0 0 := by
  rcases hst with hst | hst | hst <;> simp [cmdPowerStateReq, powerAsked, hact, h, hst]

/-- Elsewhere it waits for the off to run. -/
theorem cmdPowerStateReq_off (hact : pByte f.cmd 24 = 0) (h : outranked v 6 = false)
    (h0 : v.dev.state ≠ .shelf) (h1 : v.dev.state ≠ .held) (h2 : v.dev.state ≠ .railsDown) :
    cmdPowerStateReq f v = offRequest (powerAsked v f) .powerReq [f.id] true := by
  simp [cmdPowerStateReq, powerAsked, hact, h]

theorem cmdPowerStateReq_on (hact : pByte f.cmd 24 = 1) (h : outranked v 6 = false) :
    cmdPowerStateReq f v = endPower (onRequest (powerAsked v f) .powerReq) f.id 0 0 := by
  simp [cmdPowerStateReq, powerAsked, hact, h]

section
variable (hact : pByte f.cmd 24 = 2 ∨ pByte f.cmd 24 = 3) (hlow : 0 < pByte f.cmd 25) (hhigh : pByte f.cmd 25 ≤ 8)
include hact hlow hhigh

/-- A domain is switched only while hosts are served. -/
theorem cmdPowerStateReq_domain_of_not_serving (h : serving v = false) :
    cmdPowerStateReq f v = conflict v f.id (0x02 + fld v.dev.state.code 8 8) := by
  rcases hact with hact | hact <;>
    simp [cmdPowerStateReq, hact, h, Nat.pos_iff_ne_zero.mp hlow, Nat.not_lt.mpr hhigh]

/-- A domain switch is asked for with its time limit, 10 s where the packet gives none. -/
theorem cmdPowerStateReq_domain (h : serving v = true) :
    cmdPowerStateReq f v = askDomain (setJob v f.id (.domain (pByte f.cmd 25) (pByte f.cmd 24 == 2)
      (f.since + (if pNum f.cmd 28 4 = 0 then 10000 else pNum f.cmd 28 4) * 1000) (exposure v)))
        (pByte f.cmd 25) (pByte f.cmd 24 == 2) f.id := by
  rcases hact with hact | hact <;>
    simp [cmdPowerStateReq, hact, h, Nat.pos_iff_ne_zero.mp hlow, Nat.not_lt.mpr hhigh]

end

end

/-! ### The obligation -/

/-- Settles O55: each row and each form of POWER_STATE_REQ by its rule above. -/
theorem powerEvents : Obligations.PowerEvents := by
  refine ⟨fun i x y temp ecc us n t s u hu => ?_, fun under overV pin t s u hu => ?_, fun t temp s u hu => ?_,
    fun c s v f h => ?_⟩
  · refine ⟨exec_vaonPresent_of_off hu, exec_vaonPresent_of_on hu, exec_strapSample_nothing hu, exec_strapSample hu,
      exec_vaon_of_off hu, exec_vaonAbsent_of_rest hu, exec_vaonAbsent_of_railsDown hu, exec_vaonAbsent_ignored hu,
      exec_vaonLow hu, fun hoff => ⟨exec_vaonReset hu hoff, exec_brownOut hu hoff, exec_vaonRecovery hu hoff⟩,
      exec_startChecks_of_not_waking hu, fun hst himg => ?_, fun hst himg => ?_,
      ⟨exec_inputGood_held_off hu, exec_inputGood_settles hu, exec_inputGood_of_railsDown hu, exec_inputGood_ignored hu⟩,
      exec_pfGlitch hu, fun hst => ?_, fun hst => ?_, exec_harvestDoneNotice_ignored hu, fun r hst hrun hphase => ?_,
      exec_fatalNotice_nothing hu, exec_fatalNotice hu⟩
    · simp [exec_startChecks_of_waking hu hst, exec_coldTempRecheck_of_waking hu hst, himg]
    · rw [exec_startChecks_of_waking hu hst, exec_coldTempRecheck_of_waking hu hst]
      refine ⟨fun hcold => ?_, fun hcold => ⟨?_, fun hdue => ?_, fun hearly => ?_⟩⟩
      · simp [himg, hcold]
      · simp [hcold]
      · simp [himg, hcold, hdue]
      · simp [Nat.not_le.mpr hearly]
    · rw [exec_powerFailNotice hu, if_pos hst]
    · rw [exec_powerFailNotice hu, if_neg hst]
    · rw [exec_harvestDoneNotice hu hst hrun hphase]
      refine ⟨fun hd => ?_, fun hd => ?_, fun hheld hlatched => ?_⟩
      · simp only [harvestDone, hd]
      · simp only [harvestDone, hd]
      · simp only [harvestDone]
  · refine ⟨exec_powerFail_nothing hu, fun hseen hoff hcol => ⟨exec_powerFail_outranked hu hseen hoff hcol, fun hwon => ?_⟩⟩
    rw [exec_powerFail hu hseen hoff hcol hwon]
    exact ⟨fun hst => congrArg Host.Outcome.next (powerFails_of_serving hst),
      fun hst => congrArg Host.Outcome.next (powerFails_of_harvesting hst),
      fun hst => congrArg Host.Outcome.next (powerFails_of_start hst),
      fun hst => congrArg Host.Outcome.next (powerFails_of_rest hst)⟩
  · refine ⟨exec_off_of_no_run hu, fun r hr => ?_, ?_, exec_powerCycle_of_off hu,
      fun hoff => ⟨exec_powerCycle_ignored hu hoff, exec_powerCycle_of_latched hu⟩,
      ⟨exec_holdTimeReached_of_outranked hu, exec_holdTimeReached_ignored hu, exec_holdTimeReached_stays hu,
        exec_holdTimeReached hu⟩,
      exec_thermalHigh_nothing hu, exec_thermalHigh hu, exec_thermalTrip_nothing hu, exec_thermalTrip hu,
      exec_xtalFail_nothing hu, exec_xtalFail hu, exec_domainSwitchTimeout hu⟩
    · refine ⟨fun hwait => ?_, fun hs he hsave => ?_, fun hs hdue hst => ?_, fun hwait hst => ?_,
        exec_offAbandoned_early hu hr, exec_offAbandoned hu hr⟩
      · exact exec_orderlyOffSeal_waits hu hr (hwait.imp_right (Or.imp_right offSaveRuns_iff.mpr))
      · exact exec_orderlyOffSeal hu hr hs he (Bool.eq_false_iff.mpr (mt offSaveRuns_iff.mp hsave))
      · rw [exec_orderlyOffPowerDown hu hr hst, if_pos (by simpa [hs] using hdue)]
      · rw [exec_orderlyOffPowerDown hu hr hst, if_neg (by rcases hwait with hw | hw <;> simp [hw])]
    · refine ⟨exec_pwrbtnPress_masked hu, fun hcfg hquiet => exec_pwrbtnPress hu (not_or.mpr ⟨hcfg, hquiet⟩),
        exec_press_of_not_down hu, fun hdown hlong hcfg => ⟨exec_shortPress_late hu,
          exec_longPress_early hu, exec_shortPress_no_request hu hdown hlong hcfg,
          exec_shortPress hu hdown hlong hcfg, exec_longPress_from_shelf hu hdown hlong hcfg,
          exec_longPress_of_latched hu hdown hlong hcfg, exec_longPress hu hdown hlong hcfg⟩,
        exec_mrN_masked hu, fun hcfg hquiet => ?_⟩
      have hlive := not_or.mpr ⟨hcfg, hquiet⟩
      refine ⟨exec_mrNAssert_outranked hu hlive, fun hwon hserv => ?_, fun hwon hst => ?_, fun hwon hserv hst => ?_,
        exec_mrNRelease hu hlive⟩
      · exact (exec_mrNAssert hu hlive hwon).trans (congrArg Host.Outcome.next (mrPressed_of_serving hserv))
      · exact (exec_mrNAssert hu hlive hwon).trans (congrArg Host.Outcome.next (mrPressed_of_harvesting hst))
      · exact (exec_mrNAssert hu hlive hwon).trans (congrArg Host.Outcome.next (mrPressed_ignored hserv hst))
  · rw [exec_powerStateReq h]
    refine ⟨fun hact => congrArg Host.Outcome.next (cmdPowerStateReq_badAction hact),
      fun hact hd => congrArg Host.Outcome.next (cmdPowerStateReq_badDomain hact hd),
      fun hact hlost => congrArg Host.Outcome.next (cmdPowerStateReq_outranked hact hlost),
      fun hact hwon hst => congrArg Host.Outcome.next (cmdPowerStateReq_off_at_rest hact hwon hst),
      fun hact hwon h0 h1 h2 => congrArg Host.Outcome.next (cmdPowerStateReq_off hact hwon h0 h1 h2),
      fun hact hwon => congrArg Host.Outcome.next (cmdPowerStateReq_on hact hwon),
      fun hact hlow hhigh hserv => congrArg Host.Outcome.next (cmdPowerStateReq_domain_of_not_serving hact hlow hhigh hserv),
      fun hact hlow hhigh hserv => ?_, fun hact hlow hhigh hserv => ?_⟩
    · rw [cmdPowerStateReq_domain (.inl hact) hlow hhigh hserv, hact]
      rfl
    · rw [cmdPowerStateReq_domain (.inr hact) hlow hhigh hserv, hact]
      rfl

end Sys2Proof.Machine

/-! Trellis packets of 02_trellis_commands.md: their bytes and those of replies (R34, R37), their checks (R40), the rows and
carriers that bring them (R43–R48), the other mailbox rows (R74, R100), identity and late status (R61, R62). -/

namespace Sys2Proof.Machine

open Sys2Proof

/-! ### Byte strings -/

@[simp] theorem length_le_bytes (n k : Nat) : (le n k).length = k := by
  induction k generalizing n with
  | zero => rfl
  | succ k ih => simp [le, ih]

/-- The bytes of a number spell it, cut to their width. -/
theorem leNat_le (n k : Nat) : leNat (le n k) = n % 256 ^ k := by
  induction k generalizing n with
  | zero => simp [le, leNat, Nat.mod_one]
  | succ k ih => simp [le, leNat, ih, Nat.pow_succ', Nat.mod_mul]

/-- The number some bytes spell has those bytes. -/
theorem le_leNat (l : List Byte) : le (leNat l) l.length = l := by
  induction l with
  | nil => rfl
  | cons b r ih =>
    have hdiv : (b.toNat + 256 * leNat r) / 256 = leNat r := by
      rw [Nat.add_mul_div_left _ _ (by decide), Nat.div_eq_of_lt b.isLt, Nat.zero_add]
    have hmod : BitVec.ofNat 8 (b.toNat + 256 * leNat r) = b :=
      BitVec.eq_of_toNat_eq (by simp [Nat.add_mul_mod_self_left, Nat.mod_eq_of_lt b.isLt])
    simp only [leNat, List.length_cons, le, hdiv, hmod, ih]

@[simp] theorem length_padTo (l : List Byte) (k : Nat) : (padTo l k).length = k := by
  simp only [padTo, zeros, List.length_append, List.length_take, List.length_replicate]
  omega

/-- Bytes that already have the length are padded with none and cut by none. -/
theorem padTo_of_length {l : List Byte} {k : Nat} (h : l.length = k) : padTo l k = l := by
  simp [padTo, zeros, h]

theorem getD_padTo {l : List Byte} {i k : Nat} (h : i < k) : (padTo l k).getD i 0#8 = l.getD i 0#8 := by
  rcases Nat.lt_or_ge i l.length with hi | hi
  · simp [padTo, List.getD_eq_getElem?_getD, List.getElem?_append_left, List.length_take, h, hi]
  · simp [padTo, zeros, List.getD_eq_getElem?_getD, List.getElem?_append_right, List.length_take, hi]

/-! ### Fields of a byte string -/

/-- Two neighbouring slices make one. -/
theorem slice_append_slice (l : List Byte) (off m n : Nat) : slice l off m ++ slice l (off + m) n = slice l off (m + n) := by
  simp only [slice, ← List.drop_drop, List.take_add]

theorem length_slice {l : List Byte} {off len : Nat} (h : off + len ≤ l.length) : (slice l off len).length = len := by
  simp only [slice, List.length_take, List.length_drop]
  omega

/-- A slice past a first part lies in the rest. -/
theorem slice_append_skip {a l : List Byte} {off len : Nat} (h : a.length ≤ off) :
    slice (a ++ l) off len = slice l (off - a.length) len := by
  simp [slice, List.drop_append, List.drop_of_length_le h]

/-- A number past a field lies in the rest. -/
theorem rd_le_skip {n k off len : Nat} {l : List Byte} (h : k ≤ off) : rd (le n k ++ l) off len = rd l (off - k) len := by
  have hk : (le n k).length ≤ off := by rwa [length_le_bytes]
  simp only [rd, slice_append_skip hk, length_le_bytes]

/-- The field at the front. -/
theorem rd_le_front (n k : Nat) (l : List Byte) : rd (le n k ++ l) 0 k = n % 256 ^ k := by
  rw [rd, slice, List.drop_zero, List.take_left' (length_le_bytes n k), leNat_le]

/-- The bytes of a number read from a byte string are those bytes. -/
theorem le_rd {l : List Byte} {off len : Nat} (h : off + len ≤ l.length) : le (rd l off len) len = slice l off len := by
  conv => lhs; arg 2; rw [← length_slice h]
  exact le_leNat _

/-! ### Packets and replies -/

theorem length_packetBytes (c : TrellisCmd) : (packetBytes c).length = 64 := by
  simp [packetBytes]

/-- Decoding the bytes of a packet gives back each of its fields, cut to its width. -/
theorem packetOf_packetBytes {c : TrellisCmd} (hw : c.wf = true) (hp : c.params.length = 40) :
    { packetOf c.carrier c.est (packetBytes c) c.payload c.payOk c.t with head := c.head } = c := by
  simp only [TrellisCmd.wf, Bool.and_eq_true, decide_eq_true_eq, Nat.reducePow] at hw
  obtain ⟨⟨⟨⟨⟨⟨⟨⟨⟨⟨hop, hflags⟩, hversion⟩, htag⟩, hallot⟩, hissuer⟩, -⟩, hlen⟩, haddr⟩, -⟩, -⟩ := hw
  have hparams : slice c.params 0 40 = c.params := by simp [slice, ← hp]
  simp [packetOf, packetBytes, padTo_of_length hp, rd_le_front, rd_le_skip, slice_append_skip, Nat.mod_eq_of_lt, *]

/-- The packet some 64 bytes decode to has those bytes. -/
theorem packetBytes_packetOf (car : Carrier) (est : Nat) {b : List Byte} (payload : List Byte) (ok : Bool) (t : Nat)
    (hb : b.length = 64) : packetBytes (packetOf car est b payload ok t) = b := by
  have hparams : (slice b 24 40).length = 40 := length_slice (by omega)
  have hall : slice b 0 64 = b := by simp [slice, ← hb]
  calc packetBytes (packetOf car est b payload ok t)
      = slice b 0 2 ++ slice b 2 1 ++ slice b 3 1 ++ slice b 4 4 ++ slice b 8 2 ++ slice b 10 2 ++ slice b 12 4 ++ slice b 16 8
          ++ slice b 24 40 := by
        simp only [packetBytes, packetOf, padTo_of_length hparams, le_rd, hb, Nat.reduceAdd, Nat.reduceLeDiff]
    _ = slice b 0 64 := by simp only [slice_append_slice b 0, Nat.reduceAdd]
    _ = b := hall

/-- Settles O7, from the two directions of the coding of one little-endian field. -/
theorem packetBytesRoundTrip : Obligations.PacketBytesRoundTrip :=
  ⟨fun c hw hp => ⟨length_packetBytes c, packetOf_packetBytes hw hp⟩,
    fun car est b payload ok t hb => ⟨packetBytes_packetOf car est payload ok t hb, length_slice (by omega)⟩⟩

/-- Settles O8: each field of a reply lies behind the fields before it. -/
theorem replyLayout : Obligations.ReplyLayout := by
  intro r
  refine ⟨by simp [replyBytes], ?_, ?_, ?_, ?_, ?_, ?_, fun i hi => ?_⟩
  iterate 6 simp [replyBytes, List.append_assoc, rd_le_front, rd_le_skip]
  rw [replyBytes, List.getD_append_right _ _ _ _ (by simp)]
  simpa using getD_padTo (l := r.result) hi

/-! ### The step -/

/-- Settles O1: `step` looks at the queue and nothing else. -/
theorem stepRunsTheFrontCommand : Obligations.StepRunsTheFrontCommand := by
  refine ⟨fun c rest s h => ?_, fun s h => ?_⟩
  · rw [step, h]
  · rw [step, h]

/-! ### The checks of a packet, in order (R40) -/

section
variable {s : State} {c : TrellisCmd}

theorem checkPacket_of_bad_version (h : c.version ≠ 1) : checkPacket s c = some (0x04, 3, 0) := by
  simp [checkPacket, h]

theorem checkPacket_of_bad_opcode (hv : c.version = 1) (ho : opRow c.op = none) : checkPacket s c = some (0x03, 0, 0) := by
  simp [checkPacket, hv, ho]

variable {r : OpRow}

theorem checkPacket_of_bad_flags (hv : c.version = 1) (ho : opRow c.op = some r) (hf : 8 ≤ c.flags) :
    checkPacket s c = some (0x04, 2, 0) := by
  simp [checkPacket, hv, ho, hf]

theorem checkPacket_of_tag_in_flight (hv : c.version = 1) (ho : opRow c.op = some r) (hf : c.flags < 8)
    (ht : (onCarrier s c.carrier).any (fun f => f.cmd.tag == c.tag) = true) : checkPacket s c = some (0x0E, 0x01, 0) := by
  simp only [checkPacket, hv, ho, ht]
  simp [Nat.not_le.mpr hf]

/-- A packet of a known form with a fresh tag meets checks 5 to 8, in order. -/
theorem checkPacket_of_formed (hv : c.version = 1) (ho : opRow c.op = some r) (hf : c.flags < 8)
    (ht : (onCarrier s c.carrier).any (fun f => f.cmd.tag == c.tag) = false) :
    checkPacket s c = ((checkIssuer s c r).or (checkState s c r)).or ((checkLimits c r).or (checkAdmit s c r)) := by
  simp only [checkPacket, hv, ho, ht]
  simp [Nat.not_le.mpr hf]

/-- A packet that passes is of a known form with a fresh tag. -/
theorem formed_of_checkPacket_none (h : checkPacket s c = none) :
    c.version = 1 ∧ c.flags < 8 ∧ (onCarrier s c.carrier).any (fun f => f.cmd.tag == c.tag) = false
      ∧ ∃ r, opRow c.op = some r := by
  by_cases hv : c.version = 1
  · cases ho : opRow c.op with
    | none => cases h.symm.trans (checkPacket_of_bad_opcode hv ho)
    | some r =>
      by_cases hf : c.flags < 8
      · by_cases ht : (onCarrier s c.carrier).any (fun f => f.cmd.tag == c.tag) = true
        · cases h.symm.trans (checkPacket_of_tag_in_flight hv ho hf ht)
        · exact ⟨hv, hf, Bool.eq_false_iff.mpr ht, r, rfl⟩
      · cases h.symm.trans (checkPacket_of_bad_flags hv ho (Nat.not_lt.mp hf))
  · cases h.symm.trans (checkPacket_of_bad_version hv)

/-! Checks 5 to 7, each by itself. -/

theorem checkIssuer_of_other_issuer (h : c.issuer ≠ c.est) : checkIssuer s c r = some (0x05, 0x01, 0) := by
  simp [checkIssuer, h]

/-- A host whose class may send the opcode, naming an allotment it is not bound to. -/
theorem checkIssuer_of_not_bound (hi : c.issuer = c.est) (hk : issClass c.est = 0) (hr : bit r.iss 0 = true)
    (hn : namesAllot c ≠ 0) (ha : c.allot < 0x1000) (hb : bound s c.est c.allot = false) :
    checkIssuer s c r = some (0x05, 0x03, 0) := by
  simp [checkIssuer, hi, hk, hr, hn, ha, hb]

theorem checkState_of_served (h : servedNow s c r = true) : checkState s c r = none := by
  simp [checkState, h]

theorem checkState_of_latched (h : servedNow s c r = false) (hl : s.dev.state = .latched) :
    checkState s c r = some (0x0F, 0, 0) := by
  simp [checkState, h, hl]

/-- The state of the device stands in bits [15:8] of the detail. -/
theorem checkState_of_other_state (h : servedNow s c r = false) (hl : s.dev.state ≠ .latched) :
    checkState s c r = some (0x0E, 0x02 + 256 * s.dev.state.code, 0) := by
  have hcode : fld s.dev.state.code 8 8 = 256 * s.dev.state.code := by cases s.dev.state <;> rfl
  simp [checkState, h, hl, hcode]

theorem served_of_checkState_none (h : checkState s c r = none) : servedNow s c r = true := by
  by_contra hs
  rw [Bool.not_eq_true] at hs
  by_cases hl : s.dev.state = .latched
  · cases h.symm.trans (checkState_of_latched hs hl)
  · cases h.symm.trans (checkState_of_other_state hs hl)

/-- An allotment ID that names none, where the opcode acts on one. -/
theorem checkLimits_of_bad_allot (hn : namesAllot c ≠ 0)
    (h : (0x1000 ≤ c.allot ∧ c.allot ≠ 0xFFFF) ∨ (namesAllot c = 1 ∧ c.allot = 0xFFFF)) :
    checkLimits c r = some (0x04, 0x08, 0) := by
  rcases h with ⟨hlow, hfree⟩ | ⟨hone, hfree⟩
  · simp [checkLimits, hn, hlow, hfree]
  · simp [checkLimits, hone, hfree]

end

/-- Settles O5: the checks before the issuer's in their order, and the rest as a chain of `Option.or`. -/
theorem packetChecksInOrder : Obligations.PacketChecksInOrder := by
  refine fun s c => ⟨checkPacket_of_bad_version, checkPacket_of_bad_opcode, fun _ => checkPacket_of_bad_flags,
    fun _ => checkPacket_of_tag_in_flight, fun r hv ho hf ht => ?_,
    fun r _ hn => ⟨fun hi hk hr => checkIssuer_of_not_bound hi hk hr hn, checkLimits_of_bad_allot hn⟩, fun h => ?_⟩
  · rw [checkPacket_of_formed hv ho hf ht]
    refine ⟨fun hi => ?_, fun x hx => ?_, fun hi hs hl => ?_, fun hi hs hl => ?_, fun x hi hs hx => ?_, fun hi hs hx => ?_⟩
    · simp [checkIssuer_of_other_issuer hi]
    · simp [hx]
    · simp [hi, checkState_of_other_state hs hl]
    · simp [hi, checkState_of_latched hs hl]
    · simp [hi, checkState_of_served hs, hx]
    · simp [hi, checkState_of_served hs, hx]
  · obtain ⟨hv, hf, ht, r, ho⟩ := formed_of_checkPacket_none h
    rw [checkPacket_of_formed hv ho hf ht] at h
    simp only [Option.or_eq_none_iff] at h
    obtain ⟨⟨hissuer, hstate⟩, hlimits, hadmit⟩ := h
    have hest : c.issuer = c.est := by
      by_contra hi
      cases hissuer.symm.trans (checkIssuer_of_other_issuer hi)
    exact ⟨hv, hf, hest, r, ho, served_of_checkState_none hstate, hlimits, hadmit⟩

/-! ### The rows that carry a packet (R38, R56) -/

/-- Each Trellis row submits its packet with its opcode's effect. -/
theorem exec_trellisRows : ∀ row ∈ trellisRows, ∀ (c : TrellisCmd) (s : State),
    exec (row.2 c) s = .next (submit (effectOf row.1) row.1 c s) := by
  iterate 48 refine List.forall_mem_cons.mpr ⟨fun _ _ => rfl, ?_⟩
  exact List.forall_mem_nil _

section
variable {op : Nat} {c : TrellisCmd} {s u : State} (eff : InFlight → State → State) (hu : u = tick s c.t)
include hu

/-- A packet that the device does not take leaves only the clock moved. -/
theorem submit_of_not_taken (h : u.dev.state = .off ∨ carrierTakes u c.carrier = false ∨ addressed u c = false
    ∨ mailboxBusy u (packetAs op c u) = true) : submit eff op c s = u := by
  have haddr : addressed u (packetAs op c u) = addressed u c := rfl
  have hguard : (u.dev.state == .off || !carrierTakes u (packetAs op c u).carrier || !addressed u (packetAs op c u)
      || mailboxBusy u (packetAs op c u)) = true := by
    rw [haddr]
    simpa [packetAs, or_assoc] using h
  simp only [submit, ← hu, hguard, if_true]

/-- A packet that is taken and fails a check gets its refusal. -/
theorem submit_of_refused {x : Refuse} (hoff : u.dev.state ≠ .off) (ht : carrierTakes u c.carrier = true)
    (ha : addressed u c = true) (hm : mailboxBusy u (packetAs op c u) = false) (hx : checkPacket u (packetAs op c u) = some x) :
    submit eff op c s = refuse u (packetAs op c u) x := by
  have hcarrier : carrierTakes u (packetAs op c u).carrier = true := ht
  have haddr : addressed u (packetAs op c u) = true := ha
  simp [submit, ← hu, hoff, hcarrier, haddr, hm, hx]

end

/-- Settles O6: every row is `submit` with its opcode and its effect. -/
theorem everyTrellisRowRefusesOrRuns : Obligations.EveryTrellisRowRefusesOrRuns := by
  refine ⟨rfl, fun row hrow c s u hu => ?_⟩
  rw [exec_trellisRows row hrow]
  exact ⟨fun h => congrArg _ (submit_of_not_taken _ hu h),
    fun x hoff ht ha hm hx => congrArg _ (submit_of_refused _ hu hoff ht ha hm hx),
    fun v f h => congrArg _ (submit_of_started _ h)⟩

/-! ### Identity (R62) -/

section
variable {c : TrellisCmd} {s v : State} {f : InFlight}

theorem exec_echo (h : started 0x0001 c s = some (v, f)) :
    exec (.echo c) s = .next (endOk v f.id (f.cmd.params.take 16 ++ zeros (16 - (f.cmd.params.take 16).length))) :=
  calc exec (.echo c) s = .next (cmdEcho f v) := congrArg _ (submit_of_started cmdEcho h)
    _ = _ := by rw [cmdEcho, padTo, List.take_take, Nat.min_self]

theorem exec_identify (h : started 0x0002 c s = some (v, f)) :
    exec (.identify c) s = .next (endOk v f.id
      (le v.fus.part 2 ++ [0xB1#8, 0x01#8] ++ le (fwVersion v) 4 ++ [BitVec.ofNat 8 v.dev.state.code, 0#8, 0#8, 0#8]
        ++ [0x71#8, 0x4A#8, 0x03#8, 0x00#8])) :=
  calc exec (.identify c) s = .next (cmdIdentify f v) := congrArg _ (submit_of_started cmdIdentify h)
    _ = _ := by simp [cmdIdentify, le, zeros]

/-! ### Late status (R61, R355) -/

theorem exec_lateStatusFetch (h : started 0x0C00 c s = some (v, f)) :
    exec (.lateStatusFetch c) s = .next (cmdLateStatusFetch f v) :=
  congrArg _ (submit_of_started cmdLateStatusFetch h)

/-- The groups of late status that an issuer sees, oldest first. -/
def lateSeen (v : State) (issuer : Nat) : List LateGroup := v.trl.late.filter (fun g => !(lateView issuer g).isEmpty)

/-- FLAGS of an answer from group `g` with `more` behind it: entries lost, entries missing in the group, more groups. -/
def lateFlags (v : State) (g : LateGroup) (more : List LateGroup) : Nat :=
  (if v.trl.lateOverflow then 1 else 0) + (if g.entries.length < g.count then 2 else 0) + (if more.isEmpty then 0 else 4)

theorem lateFlags_eq (v : State) (g : LateGroup) (more : List LateGroup) :
    lateFlags v g more = b2n v.trl.lateOverflow + fld (b2n (decide (g.entries.length < g.count))) 1 1
      + fld (b2n (!more.isEmpty)) 2 1 := by
  by_cases hg : g.entries.length < g.count
  · cases hm : more.isEmpty <;> simp [lateFlags, b2n, fld, hg, hm]
  · cases hm : more.isEmpty <;> simp [lateFlags, b2n, fld, hg, hm]

/-- The groups after a release from `g` of the entries an issuer sees below `start`. -/
def lateReleased (v : State) (issuer start : Nat) (g : LateGroup) : State :=
  { v with trl := { v.trl with late := v.trl.late.map (fun h =>
    if h.slot == g.slot then { h with
      entries := releaseFirst issuer start (decide (3072 ≤ g.units)) h.entries, units := min 3072 (g.units + 1) }
    else h) } }

theorem cmdLateStatusFetch_bad_action (ha : 1 < pByte f.cmd 24) : cmdLateStatusFetch f v = badParam v f.id 24 :=
  if_pos ha

theorem cmdLateStatusFetch_bad_payload (ha : pByte f.cmd 24 ≤ 1) (hp : f.cmd.payLen % 32 ≠ 0 ∨ f.cmd.payLen < 32) :
    cmdLateStatusFetch f v = badParam v f.id 0x40 := by
  simp [cmdLateStatusFetch, Nat.not_lt.mpr ha, hp]

section
variable (hp : f.cmd.payLen % 32 = 0) (hlen : 32 ≤ f.cmd.payLen)
include hp hlen

theorem cmdLateStatusFetch_nothing_seen (ha : pByte f.cmd 24 ≤ 1) (hs : lateSeen v f.cmd.est = []) :
    cmdLateStatusFetch f v
      = endOk v f.id (zeros 12 ++ [BitVec.ofNat 8 (if v.trl.lateOverflow then 1 else 0)]) := by
  rw [lateSeen] at hs
  simp [cmdLateStatusFetch, Nat.not_lt.mpr ha, hp, Nat.not_lt.mpr hlen, hs, le, zeros, b2n]

variable {g : LateGroup} {more : List LateGroup} (hs : lateSeen v f.cmd.est = g :: more)
include hs

/-- A read returns the visible entries of the oldest group from START. -/
theorem cmdLateStatusFetch_read (hread : pByte f.cmd 24 = 0) :
    let view := lateView f.cmd.est g
    let start := pNum f.cmd 28 4
    let sel := (view.drop start).take (min (pNum f.cmd 32 4) (f.cmd.payLen / 32))
    cmdLateStatusFetch f v = endOut v f.id
      (le sel.length 4 ++ le (view.length - start - sel.length) 4 ++ le g.powerCycle.toNat 4 ++ le (lateFlags v g more) 1)
      (padTo (sel.flatMap (fun e => replyBytes e.reply)) f.cmd.payLen) := by
  rw [lateSeen] at hs
  simp [cmdLateStatusFetch, hread, hp, Nat.not_lt.mpr hlen, hs, lateFlags_eq]

/-- A release marks the entries below START and frees the group once all of its entries are released. -/
theorem cmdLateStatusFetch_release (hrel : pByte f.cmd 24 = 1) :
    let start := pNum f.cmd 28 4
    cmdLateStatusFetch f v = endOk (freeLate (releaseUnit (lateReleased v f.cmd.est start g) g) g.slot) f.id
      (zeros 4 ++ le ((lateView f.cmd.est g).length - start) 4 ++ le g.powerCycle.toNat 4 ++ le (lateFlags v g more) 1) := by
  have hzero : le 0 4 = zeros 4 := rfl
  rw [lateSeen] at hs
  simp [cmdLateStatusFetch, hrel, hp, Nat.not_lt.mpr hlen, hs, lateFlags_eq, lateReleased, hzero]

end

end

/-- Settles O21: each opcode's effect, and for LATE_STATUS_FETCH its cases above. -/
theorem identityAndLateStatus : Obligations.IdentityAndLateStatus := by
  refine ⟨fun c s v f => exec_echo, fun c s v f => exec_identify, fun c s v f h => ?_⟩
  rw [exec_lateStatusFetch h]
  exact ⟨fun ha => congrArg _ (cmdLateStatusFetch_bad_action ha), fun ha hp => congrArg _ (cmdLateStatusFetch_bad_payload ha hp),
    fun ha hp hlen => ⟨fun hs => congrArg _ (cmdLateStatusFetch_nothing_seen hp hlen ha hs),
      fun g more hs => ⟨fun hread => congrArg _ (cmdLateStatusFetch_read hp hlen hs hread),
        fun hrel => congrArg _ (cmdLateStatusFetch_release hp hlen hs hrel)⟩⟩⟩

/-! ### Mailbox rows that carry no packet (R47, R74, R100) -/

/-- The rows of the fabric-manager API (R74). -/
def fmRows : List (MboxReq → Nat → Instr) :=
  [.getLdInfo, .getLdAllocations, .setLdAllocations, .getQosControl, .setQosControl, .getQosStatus, .getQosAllocatedBandwidth,
    .setQosAllocatedBandwidth, .getQosBandwidthLimit, .setQosBandwidthLimit]

/-- The rows whose answer CXL 3.1 lays out, with their mailbox opcodes. -/
def freeAnswerRows : List (Nat × (MboxReq → Nat → Instr)) :=
  [(0x0001, .mailboxIdentify), (0x0002, .backgroundOperationStatus), (0x0400, .getSupportedLogs), (0x0401, .getLog),
    (0x4000, .identifyMemoryDevice)]

/-- The other rows of Table 3.7. -/
def memoryDeviceRows : List (MboxReq → Nat → Instr) :=
  [.getEventRecords, .clearEventRecords, .getEventInterruptPolicy, .setEventInterruptPolicy, .getTimestamp, .setTimestamp,
    .getHealthInfo, .getAlertConfiguration, .setAlertConfiguration, .getShutdownState, .setShutdownState, .getPoisonList,
    .injectPoison, .clearPoison, .getDynamicCapacityConfiguration, .getDynamicCapacityExtentList, .addDynamicCapacityResponse,
    .releaseDynamicCapacity]

/-- Each row of the fabric-manager API is `fmRun` of some effect. -/
theorem exec_fmRows : ∀ row ∈ fmRows, ∀ (m : MboxReq) (t : Nat) (s : State),
    ∃ f, exec (row m t) s = .next (fmRun m t f s) := by
  iterate 10 refine List.forall_mem_cons.mpr ⟨fun _ _ _ => ⟨_, rfl⟩, ?_⟩
  exact List.forall_mem_nil _

theorem exec_freeAnswerRows : ∀ row ∈ freeAnswerRows, ∀ (m : MboxReq) (t : Nat) (s : State),
    exec (row.2 m t) s = .next (mboxRun m t (fun s => mbFree s row.1 m) s) := by
  iterate 5 refine List.forall_mem_cons.mpr ⟨fun _ _ _ => rfl, ?_⟩
  exact List.forall_mem_nil _

/-- Each other row is `mboxRun` of some effect. -/
theorem exec_memoryDeviceRows : ∀ row ∈ memoryDeviceRows, ∀ (m : MboxReq) (t : Nat) (s : State),
    ∃ f, exec (row m t) s = .next (mboxRun m t f s) := by
  iterate 18 refine List.forall_mem_cons.mpr ⟨fun _ _ _ => ⟨_, rfl⟩, ?_⟩
  exact List.forall_mem_nil _

section
variable {m : MboxReq} {t : Nat} {s u : State} (f : State → State × Nat × List Byte) (hu : u = tick s t)
include hu

/-- Where the mailbox is not there, or holds a packet, nothing answers. -/
theorem mboxRun_of_not_here (h : mboxHere u m = false) : mboxRun m t f s = u := by
  simp [mboxRun, ← hu, h]

theorem mboxRun_of_here (h : mboxHere u m = true) :
    mboxRun m t f s = emit (f u).1 (.mbox m.port m.issuer (f u).2.1 (f u).2.2) := by
  simp [mboxRun, ← hu, h]

/-- A fabric-manager command on another device than the fabric-manager-owned one is Unsupported. -/
theorem fmRun_of_other_device (h : mboxHere u m = true) (hi : m.issuer ≠ 0x1000 + m.port) :
    fmRun m t f s = emit u (.mbox m.port m.issuer 3 []) := by
  simp [fmRun, mboxRun_of_here _ hu h, hi, mbErr]

end

/-- Every mailbox row that carries no packet is `mboxRun` of some effect. -/
theorem exec_mailboxRows {row : MboxReq → Nat → Instr} (hrow : row ∈ fmRows ++ freeAnswerRows.map (·.2) ++ memoryDeviceRows)
    (m : MboxReq) (t : Nat) (s : State) : ∃ f, exec (row m t) s = .next (mboxRun m t f s) := by
  rw [List.mem_append, List.mem_append, List.mem_map] at hrow
  obtain (hfm | ⟨free, hfree, rfl⟩) | hother := hrow
  · obtain ⟨f, he⟩ := exec_fmRows row hfm m t s
    exact ⟨_, he⟩
  · exact ⟨_, exec_freeAnswerRows free hfree m t s⟩
  · exact exec_memoryDeviceRows row hother m t s

/-- Settles O30: every row is one `mboxRun`, which looks for the mailbox before its effect. -/
theorem mailboxCommandsActWhereTheMailboxIs : Obligations.MailboxCommandsActWhereTheMailboxIs := by
  refine ⟨fun row hrow m t s u hu h => ?_, fun row hrow m t s u hu h hi => ?_, fun row hrow m t s u hu h => ?_⟩
  · obtain ⟨f, he⟩ := exec_mailboxRows hrow m t s
    rw [he, mboxRun_of_not_here f hu h]
  · obtain ⟨f, he⟩ := exec_fmRows row hrow m t s
    rw [he, fmRun_of_other_device f hu h hi]
  · rw [exec_freeAnswerRows row hrow, mboxRun_of_here _ hu h]
    rfl

/-! ### MCTP control messages (R48) -/

section
variable {h : MctpHead} {cmd t : Nat} {s u : State} (f : State → State × Nat × List Byte) (hu : u = tick s t)
include hu

/-- Nothing answers in OFF, where TWI0 does not carry MCTP, or at another address. -/
theorem mctpRun_of_silent (hs : u.dev.state = .off ∨ mctpUp u = false ∨ twiAnswers u h.addr = false) :
    mctpRun h cmd t f s = u := by
  simp only [mctpRun, ← hu]
  exact if_neg (by rcases hs with hs | hs | hs <;> simp [hs])

theorem mctpRun_of_addressed (hoff : u.dev.state ≠ .off) (hup : mctpUp u = true) (ha : twiAnswers u h.addr = true) :
    mctpRun h cmd t f s
      = emit (f u).1 (.mctp h.back h.src h.tag ([0x00#8, 0x00#8] ++ le cmd 1 ++ le (f u).2.1 1 ++ (f u).2.2)) := by
  simp [mctpRun, ← hu, hoff, hup, ha]

end

section
variable {h : MctpHead} {t : Nat} {s u : State} (hu : u = tick s t)
include hu

/-- The four control messages where TWI0 does not answer. -/
theorem exec_mctpControl_of_silent (eid typ : Nat)
    (hs : u.dev.state = .off ∨ mctpUp u = false ∨ twiAnswers u h.addr = false) :
    exec (.setEndpointId h eid t) s = .next u ∧ exec (.getEndpointId h t) s = .next u
      ∧ exec (.getMctpVersionSupport h typ t) s = .next u ∧ exec (.getMessageTypeSupport h t) s = .next u :=
  ⟨congrArg _ (mctpRun_of_silent _ hu hs), congrArg _ (mctpRun_of_silent _ hu hs), congrArg _ (mctpRun_of_silent _ hu hs),
    congrArg _ (mctpRun_of_silent _ hu hs)⟩

section
variable (hoff : u.dev.state ≠ .off) (hup : mctpUp u = true) (ha : twiAnswers u h.addr = true)
include hoff hup ha

/-- The null and the broadcast ID are refused. -/
theorem exec_setEndpointId_of_reserved {eid : Nat} (he : eid % 256 = 0 ∨ eid % 256 = 255) :
    exec (.setEndpointId h eid t) s = .next (emit u (.mctp h.back h.src h.tag [0#8, 0#8, 1#8, 2#8])) := by
  show execSetEndpointId h eid t s = _
  rw [execSetEndpointId, mctpRun_of_addressed _ hu hoff hup ha, if_pos (by simpa using he)]
  rfl

theorem exec_setEndpointId {eid : Nat} (h0 : eid % 256 ≠ 0) (h255 : eid % 256 ≠ 255) :
    exec (.setEndpointId h eid t) s = .next (emit { u with trl := { u.trl with eid := eid % 256 } }
      (.mctp h.back h.src h.tag ([0#8, 0#8, 1#8, 0#8, 0#8] ++ le eid 1 ++ [0#8]))) := by
  show execSetEndpointId h eid t s = _
  rw [execSetEndpointId, mctpRun_of_addressed _ hu hoff hup ha, if_neg (by simp [h0, h255])]
  rfl

theorem exec_getEndpointId : exec (.getEndpointId h t) s
    = .next (emit u (.mctp h.back h.src h.tag ([0#8, 0#8, 2#8, 0#8] ++ le u.trl.eid 1 ++ [0#8, 0#8]))) :=
  congrArg _ (mctpRun_of_addressed _ hu hoff hup ha)

theorem exec_getMctpVersionSupport {typ : Nat} (ht : typ = 0xFF ∨ typ = 0x00 ∨ typ = 0x7F) :
    exec (.getMctpVersionSupport h typ t) s
      = .next (emit u (.mctp h.back h.src h.tag [0#8, 0#8, 4#8, 0#8, 1#8, 0xF1#8, 0xF3#8, 0xFF#8, 0x00#8])) := by
  show execGetMctpVersionSupport h typ t s = _
  rw [execGetMctpVersionSupport, mctpRun_of_addressed _ hu hoff hup ha, if_pos (by simpa [or_assoc] using ht)]
  rfl

theorem exec_getMctpVersionSupport_of_other {typ : Nat} (hff : typ ≠ 0xFF) (h0 : typ ≠ 0x00) (h7f : typ ≠ 0x7F) :
    exec (.getMctpVersionSupport h typ t) s = .next (emit u (.mctp h.back h.src h.tag [0#8, 0#8, 4#8, 0x80#8])) := by
  show execGetMctpVersionSupport h typ t s = _
  rw [execGetMctpVersionSupport, mctpRun_of_addressed _ hu hoff hup ha, if_neg (by simp [hff, h0, h7f])]
  rfl

theorem exec_getMessageTypeSupport : exec (.getMessageTypeSupport h t) s
    = .next (emit u (.mctp h.back h.src h.tag [0#8, 0#8, 5#8, 0#8, 1#8, 0x7F#8])) :=
  congrArg _ (mctpRun_of_addressed _ hu hoff hup ha)

end

/-! ### Packets by MCTP and by mailbox (R34, R47, R48) -/

/-- A message of another type, enterprise or length is no packet. -/
theorem exec_mctpTrellisMessage_dropped {data : List Byte} (hd : data.take 6 ≠ [0x7F#8, 0x71#8, 0x4A#8, 0x03#8, 0x00#8, 0x01#8]
    ∨ data.length < 70 ∨ 70 + 1024 < data.length) : exec (.mctpTrellisMessage h data t) s = .next u := by
  subst hu
  exact congrArg Host.Outcome.next (if_pos (by simpa [or_assoc] using hd))

theorem exec_mctpTrellisMessage {data : List Byte} (hd : data.take 6 = [0x7F#8, 0x71#8, 0x4A#8, 0x03#8, 0x00#8, 0x01#8])
    (hlow : 70 ≤ data.length) (hhigh : data.length ≤ 70 + 1024) :
    exec (.mctpTrellisMessage h data t) s = .next (submitPacket
      { packetOf (.mctp h.src) (0x2000 + h.src % 256) (data.drop 6) (data.drop 70) true t with head := h } u) := by
  subst hu
  exact congrArg Host.Outcome.next (if_neg (by simp [hd, hlow, hhigh]))

variable {m : MboxReq}

theorem exec_mailboxTrellisPacket_ignored {op : Nat} (h : mboxHere u m = false ∨ op ∈ mailboxOps) :
    exec (.mailboxTrellisPacket op m t) s = .next u := by
  subst hu
  exact congrArg Host.Outcome.next (if_pos (by simpa using h))

/-- A vendor-specific opcode other than 0xC710 is Unsupported. -/
theorem exec_mailboxTrellisPacket_of_other_opcode {op : Nat} (hm : mboxHere u m = true) (hop : op ∉ mailboxOps)
    (hne : op ≠ 0xC710) : exec (.mailboxTrellisPacket op m t) s = .next (emit u (.mbox m.port m.issuer 3 [])) := by
  show execMailboxTrellisPacket op m t s = _
  simp [execMailboxTrellisPacket, ← hu, hm, hop, hne]

/-- An input that is not 64 bytes and the payload its packet names is invalid. -/
theorem exec_mailboxTrellisPacket_of_bad_length (hm : mboxHere u m = true)
    (hl : m.input.length < 64 ∨ m.input.length ≠ 64 + rd m.input 12 4) :
    exec (.mailboxTrellisPacket 0xC710 m t) s = .next (emit u (.mbox m.port m.issuer 2 [])) := by
  have hop : 0xC710 ∉ mailboxOps := by decide
  show execMailboxTrellisPacket 0xC710 m t s = _
  simp [execMailboxTrellisPacket, ← hu, hm, hop, hl]

theorem exec_mailboxTrellisPacket (hm : mboxHere u m = true) (hlow : 64 ≤ m.input.length)
    (hl : m.input.length = 64 + rd m.input 12 4) :
    exec (.mailboxTrellisPacket 0xC710 m t) s
      = .next (submitPacket (packetOf (.mailbox m.port m.issuer) m.issuer m.input (m.input.drop 64) true t) u) := by
  have hop : 0xC710 ∉ mailboxOps := by decide
  show execMailboxTrellisPacket 0xC710 m t s = _
  simp [execMailboxTrellisPacket, ← hu, hm, hop, ← hl, Nat.not_lt.mpr hlow]

/-! ### The rings of a queue pair (R43–R45) -/

section
variable {entry payload : List Byte} {payOk : Bool}

theorem exec_qpFetch_of_none {ok : Bool} (h : nextRing u = none) : exec (.qpFetch entry payload ok payOk t) s = .next u := by
  show execQpFetch entry payload ok payOk t s = _
  simp only [execQpFetch, ← hu, h]

variable {n : Nat} (hn : nextRing u = some n)
include hn

theorem exec_qpFetch_failed : exec (.qpFetch entry payload false payOk t) s
    = .next (setQp { u with trl := { u.trl with rr := n } } n { qp u n with st := .error, err := 0x04 }) := by
  show execQpFetch entry payload false payOk t s = _
  simp only [execQpFetch, ← hu, hn]
  rfl

theorem exec_qpFetch : exec (.qpFetch entry payload true payOk t) s
    = .next (submitPacket (packetOf (.qp n) (qp u n).issuer.toNat entry payload payOk t)
        (setQp { u with trl := { u.trl with rr := n } } n
          { qp u n with sqHead := ((qp u n).sqHead + 1) % ((qp u n).sqM1 + 1) })) := by
  show execQpFetch entry payload true payOk t s = _
  simp only [execQpFetch, ← hu, hn]
  rfl

end

section
variable {n : Nat}

theorem exec_qpReplyWrite_of_none {ok : Bool} (h : (qp u n).owed = []) :
    exec (.qpReplyWrite n ok t) s = .next (judgeIdle u n) := by
  show execQpReplyWrite n ok t s = _
  simp only [execQpReplyWrite, ← hu, h]

variable {r : Reply} {rest : List Reply} (ho : (qp u n).owed = r :: rest)
include ho

/-- A pair that is neither active nor draining writes nothing. -/
theorem exec_qpReplyWrite_of_stopped {ok : Bool} (ha : (qp u n).st ≠ .active) (hd : (qp u n).st ≠ .disabling) :
    exec (.qpReplyWrite n ok t) s = .next u := by
  show execQpReplyWrite n ok t s = _
  simp [execQpReplyWrite, ← hu, ho, ha, hd]

variable (hst : (qp u n).st = .active ∨ (qp u n).st = .disabling)
include hst

theorem exec_qpReplyWrite_failed :
    exec (.qpReplyWrite n false t) s = .next (setQp u n { qp u n with st := .error, err := 0x05 }) := by
  have hruns : ((qp u n).st != .active && (qp u n).st != .disabling) = false := by rcases hst with h | h <;> rw [h] <;> rfl
  show execQpReplyWrite n false t s = _
  simp [execQpReplyWrite, ← hu, ho, hruns]

/-- The reply, then the tail, then the vector. -/
theorem exec_qpReplyWrite :
    let tail := ((qp u n).cqTail + 1) % ((qp u n).cqM1 + 1)
    let w := emit (emit (emit (setQp u n { qp u n with owed := rest, cqTail := tail }) (.reply (.qp n) r))
      (.ringTail n (qp u n).tailAddr.toNat tail)) (.msix n (qp u n).vector)
    exec (.qpReplyWrite n true t) s = .next (judgeIdle (if r.cls = 0 then replyWritten w n r else w) n) := by
  have hruns : ((qp u n).st != .active && (qp u n).st != .disabling) = false := by rcases hst with h | h <;> rw [h] <;> rfl
  show execQpReplyWrite n true t s = _
  simp [execQpReplyWrite, ← hu, ho, hruns]

end

end

/-- Settles O35: each carrier's row by its rules above. -/
theorem carriersAndMctpControl : Obligations.CarriersAndMctpControl := by
  refine ⟨fun h eid typ t s u hu => ?_, fun h data t s u hu => ?_, fun op m t s u hu => ?_,
    fun entry payload ok payOk t s u hu => ?_, fun n ok t s u hu => ?_, fun row hrow p s hp => ?_⟩
  · exact ⟨exec_mctpControl_of_silent hu eid typ, fun hoff hup ha => ⟨exec_setEndpointId_of_reserved hu hoff hup ha,
      exec_setEndpointId hu hoff hup ha, exec_getEndpointId hu hoff hup ha, exec_getMctpVersionSupport hu hoff hup ha,
      exec_getMctpVersionSupport_of_other hu hoff hup ha, exec_getMessageTypeSupport hu hoff hup ha⟩⟩
  · exact ⟨exec_mctpTrellisMessage_dropped hu, exec_mctpTrellisMessage hu⟩
  · exact ⟨exec_mailboxTrellisPacket_ignored hu, exec_mailboxTrellisPacket_of_other_opcode hu,
      exec_mailboxTrellisPacket_of_bad_length hu, exec_mailboxTrellisPacket hu⟩
  · refine ⟨exec_qpFetch_of_none hu, fun n hn => ⟨?_, ?_⟩⟩
    · rintro rfl
      exact exec_qpFetch_failed hu hn
    · rintro rfl
      exact exec_qpFetch hu hn
  · refine ⟨exec_qpReplyWrite_of_none hu, fun r rest ho => ⟨exec_qpReplyWrite_of_stopped hu ho, fun hst => ⟨?_, ?_⟩⟩⟩
    · rintro rfl
      exact exec_qpReplyWrite_failed hu ho hst
    · rintro rfl
      exact exec_qpReplyWrite hu ho hst
  · rw [exec_trellisRows row hrow, submitPacket, hp]

end Sys2Proof.Machine

/-! Direct writes of the queue-pair registers (R41–R45) and of the host-assisted inputs (R50), and the register commands
(R63–R65). -/

namespace Sys2Proof.Machine

open Sys2Proof

/-! ### A direct write that reaches a 32-bit register -/

/-- Registers of 32 bits whose write has a meaning of its own. -/
def actingRegs : List Nat := [rTrlQpBind, rTrlQpSize, rTrlQpCredit, rTrlQpSqTailDb, rTrlQpCqHeadDb, rDdrLaneDelay, rDdrScrub,
  rFtlStream, rFtlWearHost, rGauHostSoc, rPsqHostStep, rAdcCtrl0, rAdcCtrl1, rTwiStatus]

theorem actingRegs_not_wide {r : RegD} (hr : r ∈ regTable) (h : r.addr ∈ actingRegs) : r.wide = false :=
  (by decide +kernel : ∀ r ∈ regTable, r.addr ∈ actingRegs → r.wide = false) r hr h

/-- The register that a write of an acting register reaches, and the function its offset carries input of. -/
theorem regFind_of_lands {s : State} {a : RegAcc} {c i : Nat} (hl : lands s a = some (c, i, false)) (hc : c ∈ actingRegs) :
    ∃ r, regFind s a.off = some (r, i, false) ∧ r.addr = c ∧ r.wide = false ∧ (regCanon a.off).1 = c := by
  obtain ⟨r, hf, hr, -⟩ := lands_some hl
  obtain ⟨hmem, -, hcanon, -⟩ := regFind_some hf
  exact ⟨r, hf, hr, actingRegs_not_wide hmem (hr ▸ hc), (hcanon rfl).symm.trans hr⟩

/-- Queue-pair registers that only the fabric manager and board management write. -/
theorem regWrite_qpReg {s : State} {a : RegAcc} {c n : Nat} (v : Nat) (ok : Bool) (hl : lands s a = some (c, n, false))
    (hc : c = rTrlQpBind ∨ c = rTrlQpSize ∨ c = rTrlQpCredit) : regWrite s a v ok = qpWritten s a.issuer c n v none := by
  obtain ⟨r, hf, hr, hw, -⟩ := regFind_of_lands hl (by rcases hc with rfl | rfl | rfl <;> decide)
  rcases hc with rfl | rfl | rfl <;> simp +decide [regWrite, hf, hr, hw]

/-- A doorbell acts from the bound issuer; from another it is recorded (R475). -/
theorem regWrite_doorbell {s : State} {a : RegAcc} {c n : Nat} (v : Nat) (ok : Bool) (hl : lands s a = some (c, n, false))
    (hc : c = rTrlQpSqTailDb ∨ c = rTrlQpCqHeadDb) :
    regWrite s a v ok = if (qp s n).issuer.toNat = a.issuer then doorbell s c n v else raiseOpen s 0x004 := by
  obtain ⟨r, hf, hr, -⟩ := regFind_of_lands hl (by rcases hc with rfl | rfl <;> decide)
  rcases hc with rfl | rfl <;> simp [regWrite, hf, hr]

/-- The registers of host-assisted inputs, with their functions (R50). -/
def inputRegs : List (Nat × Nat) :=
  [(rDdrLaneDelay, 5), (rDdrScrub, 4), (rFtlStream, 1), (rFtlWearHost, 1), (rGauHostSoc, 2), (rPsqHostStep, 3)]

theorem regWrite_input {s : State} {a : RegAcc} {c f i : Nat} (v : Nat) (ok : Bool) (hl : lands s a = some (c, i, false))
    (hc : (c, f) ∈ inputRegs) : regWrite s a v ok = inputWritten s a f c i v := by
  have hacting : c ∈ actingRegs := (by decide : ∀ p ∈ inputRegs, p.1 ∈ actingRegs) (c, f) hc
  obtain ⟨r, hf, hr, hw, hcanon⟩ := regFind_of_lands hl hacting
  simp only [inputRegs, List.mem_cons, Prod.mk.injEq, List.not_mem_nil, or_false] at hc
  obtain ⟨rfl, rfl⟩ | ⟨rfl, rfl⟩ | ⟨rfl, rfl⟩ | ⟨rfl, rfl⟩ | ⟨rfl, rfl⟩ | ⟨rfl, rfl⟩ := hc <;>
    simp +decide [regWrite, hf, hr, hw, regFunction, hcanon]

/-- What a landed write of its row leaves, where the register's write leaves `w`. -/
theorem directWrite_of_lands {s u w : State} {a : RegAcc} {v t : Nat} {ok : Bool} {x : Nat × Nat × Bool} (hu : u = tick s t)
    (hl : lands u a = some x) (hw : regWrite u a v ok = w) : directWrite a v ok (tick s t) = landed a true v w := by
  rw [← hu, directWrite_lands v ok (by rw [hl]; rfl), hw]

/-! ### TRL_QP_BIND (R41, R42, R45) -/

/-- The fabric manager or board management. -/
theorem qpWritten_of_other_issuer {s : State} {iss c n v : Nat} {wide : Option Nat}
    (h : ¬(issClass iss = 1 ∨ issClass iss = 2)) : qpWritten s iss c n v wide = s :=
  if_pos (by simpa [not_or] using h)

section
variable {s : State} {iss n v : Nat} {wide : Option Nat} (hb : issClass iss = 1 ∨ issClass iss = 2)
include hb

theorem qpWritten_bind : qpWritten s iss rTrlQpBind n v wide = bindWritten s n v := by
  rcases hb with h | h <;> simp [qpWritten, h]

theorem qpWritten_credit :
    qpWritten s iss rTrlQpCredit n v wide = setLimits (setQp s n { qp s n with creditMax := v % 1024 }) := by
  rcases hb with h | h <;> simp [qpWritten, h]

theorem qpWritten_size : qpWritten s iss rTrlQpSize n v wide
    = if (qp s n).st = .idle then setQp s n { qp s n with cqM1 := bits v 16 10, sqM1 := bits v 0 10 } else s := by
  by_cases hst : (qp s n).st = .idle
  · rcases hb with h | h <;> simp [qpWritten, h, hst]
  · rcases hb with h | h <;> simp [qpWritten, h, hst]

end

/-- The pair `p` with what word `v` of TRL_QP_BIND sets. -/
def bindWord (p : QP) (v : Nat) : QP :=
  { p with enable := bit v 31, assist := bit v 30, vector := bits v 16 11, issuer := BitVec.ofNat 16 v }

/-- The rings of a pair have sizes it may be enabled with (R42). -/
def ringsFit (q : QP) : Prop := ringOk q.sqM1 = true ∧ ringOk q.cqM1 = true ∧ q.sqM1 ≤ q.cqM1

/-- The later of two settings of a pair stands. -/
@[simp] theorem setQp_setQp_same (s : State) (n : Nat) (p q : QP) : setQp (setQp s n p) n q = setQp s n q := by
  simp [setQp]

/-- A pair just put in DISABLING goes on to IDLE unless a reply is owed or a command of it is in flight. -/
theorem judgeIdle_setQp_disabling {s : State} {n : Nat} {p : QP} (hp : p.st = .disabling) :
    judgeIdle (setQp s n p) n
      = if p.owed = [] ∧ onCarrier s (.qp n) = [] then setQp s n { p with st := .idle } else setQp s n p := by
  have hcarrier : onCarrier (setQp s n p) (.qp n) = onCarrier s (.qp n) := rfl
  simp [judgeIdle, hp, hcarrier]

section
variable {s : State} {n v : Nat}

theorem bindWritten_off_of_idle (hst : (qp s n).st = .idle) (hv : bit v 31 = false) :
    bindWritten s n v = setQp s n (bindWord (qp s n) v) := by
  simp [bindWritten, bindWord, hst, hv]

section
variable (hst : (qp s n).st = .idle) (hv : bit v 31 = true)
include hst hv

theorem bindWritten_bad_rings (hr : ¬ringsFit (bindWord (qp s n) v)) :
    bindWritten s n v = setQp s n { bindWord (qp s n) v with st := .error, err := 0x01 } := by
  have hbad : (!ringOk (qp s n).sqM1 || !ringOk (qp s n).cqM1 || decide ((qp s n).cqM1 < (qp s n).sqM1)) = true := by
    rw [← Bool.not_eq_false]
    simpa [ringsFit, bindWord, and_assoc] using hr
  simp [bindWritten, bindWord, hst, hv, hbad]

theorem bindWritten_of_rings (hr : ringsFit (bindWord (qp s n) v)) :
    bindWritten s n v
      = if (qp s n).sqBase.toNat % 4096 = 0 ∧ (qp s n).cqBase.toNat % 4096 = 0
        then setLimits (setQp s n { bindWord (qp s n) v with st := .active, err := 0 })
        else setQp s n { bindWord (qp s n) v with st := .error, err := 0x02 } := by
  obtain ⟨hsq, hcq, hle⟩ : ringOk (qp s n).sqM1 = true ∧ ringOk (qp s n).cqM1 = true ∧ (qp s n).sqM1 ≤ (qp s n).cqM1 := hr
  by_cases hb : (qp s n).sqBase.toNat % 4096 = 0 ∧ (qp s n).cqBase.toNat % 4096 = 0
  · simp [bindWritten, hst, hv, hsq, hcq, Nat.not_lt.mpr hle, bindWord, hb]
  · have hbad : ((qp s n).sqBase.toNat % 4096 != 0 || (qp s n).cqBase.toNat % 4096 != 0) = true := by
      rw [← Bool.not_eq_false]
      simpa using hb
    simp only [bindWritten, hst, hv, hsq, hcq, Nat.not_lt.mpr hle, bindWord, if_neg hb, if_pos hbad]
    simp

end

section
variable (hst : (qp s n).st ≠ .idle)
include hst

theorem bindWritten_ignored (h : bit v 31 = true ∨ (qp s n).enable = false) : bindWritten s n v = s := by
  rcases h with h | h <;> simp [bindWritten, hst, h]

theorem bindWritten_disables (hv : bit v 31 = false) (he : (qp s n).enable = true) :
    bindWritten s n v = if (qp s n).owed = [] ∧ onCarrier s (.qp n) = []
      then setQp s n { qp s n with enable := false, st := .idle }
      else setQp s n { qp s n with enable := false, st := .disabling } := by
  have hjudge := judgeIdle_setQp_disabling (s := s) (n := n) (p := { qp s n with enable := false, st := .disabling }) rfl
  simpa [bindWritten, hst, hv, he] using hjudge

end

end

/-- Settles O17: a write of the register is `qpWritten`, and for TRL_QP_BIND `bindWritten`, by its cases above. -/
theorem queuePairEnableAndDisable : Obligations.QueuePairEnableAndDisable := by
  refine ⟨fun a v t n s u w hu hl h => ?_, fun a v t n s u hu hb => ⟨fun hl => ?_, fun hl => ?_⟩⟩
  · have hbind : ∀ ok, regWrite u a v ok = qpWritten u a.issuer rTrlQpBind n v none := fun ok =>
      regWrite_qpReg v ok hl (.inl rfl)
    have hw : qpWritten u a.issuer rTrlQpBind n v none = w := by
      obtain ⟨hb, rfl⟩ | ⟨hb, hst, hv, rfl⟩ | ⟨hb, hst, hv, hr, rfl⟩ | ⟨hb, hst, hv, hr, hbase, rfl⟩ | ⟨hb, hst, hv, hr, hbase, rfl⟩
        | ⟨hb, hst, hv, rfl⟩ | ⟨hb, hst, hv, he, ho, hc, rfl⟩ | ⟨hb, hst, hv, he, ho, rfl⟩ := h
      · exact qpWritten_of_other_issuer hb
      · rw [qpWritten_bind hb, bindWritten_off_of_idle hst hv]
        rfl
      · rw [qpWritten_bind hb, bindWritten_bad_rings hst hv hr]
        rfl
      · rw [qpWritten_bind hb, bindWritten_of_rings hst hv hr]
        exact if_neg hbase
      · rw [qpWritten_bind hb, bindWritten_of_rings hst hv hr]
        exact if_pos hbase
      · rw [qpWritten_bind hb, bindWritten_ignored hst hv]
      · rw [qpWritten_bind hb, bindWritten_disables hst hv he, if_pos ⟨ho, hc⟩]
      · rw [qpWritten_bind hb, bindWritten_disables hst hv he, if_neg (not_and_or.mpr ho)]
    have hrow := directWrite_of_lands hu hl ((hbind true).trans hw)
    exact ⟨congrArg _ hrow, congrArg _ hrow⟩
  · exact congrArg _ (directWrite_of_lands hu hl ((regWrite_qpReg v true hl (.inr (.inl rfl))).trans (qpWritten_size hb)))
  · exact congrArg _ (directWrite_of_lands hu hl ((regWrite_qpReg v true hl (.inr (.inr rfl))).trans (qpWritten_credit hb)))

/-! ### Doorbells (R43–R45) -/

section
variable {s : State} {n v : Nat}

theorem doorbell_tail (hst : (qp s n).st = .active) (hk : v % 1024 ≤ (qp s n).sqM1) :
    doorbell s rTrlQpSqTailDb n v = setQp s n { qp s n with sqTail := v % 1024 } := by
  simp [doorbell, hst, Nat.not_lt.mpr hk]

theorem doorbell_tail_outside (hst : (qp s n).st = .active) (hk : (qp s n).sqM1 < v % 1024) :
    doorbell s rTrlQpSqTailDb n v = setQp s n { qp s n with st := .error, err := 0x03 } := by
  simp [doorbell, hst, hk]

theorem doorbell_tail_of_not_active (hst : (qp s n).st ≠ .active) : doorbell s rTrlQpSqTailDb n v = s := by
  simp [doorbell, hst]

theorem doorbell_head (hk : v % 1024 ≤ (qp s n).cqM1) :
    doorbell s rTrlQpCqHeadDb n v = setQp s n { qp s n with cqHead := v % 1024 } := by
  simp [doorbell, Nat.not_lt.mpr hk]

theorem doorbell_head_outside (hk : (qp s n).cqM1 < v % 1024) : doorbell s rTrlQpCqHeadDb n v = s := by
  simp [doorbell, hk]

end

section
variable {s u : State} {a : RegAcc} {c n v t : Nat} (hu : u = tick s t) (hl : lands u a = some (c, n, false))
  (hc : c = rTrlQpSqTailDb ∨ c = rTrlQpCqHeadDb)
include hu hl hc

theorem directWrite_doorbell {w : State} (hi : (qp u n).issuer.toNat = a.issuer) (hw : doorbell u c n v = w) :
    directWrite a v true (tick s t) = landed a true v w :=
  directWrite_of_lands hu hl ((regWrite_doorbell v true hl hc).trans ((if_pos hi).trans hw))

/-- A doorbell from another requester is dropped and recorded (R475). -/
theorem directWrite_doorbell_of_other (hi : (qp u n).issuer.toNat ≠ a.issuer) :
    directWrite a v true (tick s t) = landed a true v (raiseOpen u 0x004) :=
  directWrite_of_lands hu hl ((regWrite_doorbell v true hl hc).trans (if_neg hi))

end

/-- Settles O18: a doorbell's write looks at the issuer first, then at the pair and the ring. -/
theorem doorbellsActFromTheBoundIssuer : Obligations.DoorbellsActFromTheBoundIssuer := by
  refine ⟨fun a v t n s u hu hl => ⟨fun hi => ?_, fun hi => ⟨fun hst hk => ?_, fun hst hk => ?_, fun hst => ?_⟩⟩,
    fun a v t n s u hu hl => ⟨fun hi => ?_, fun hi hk => ?_, fun hi hk => ?_⟩⟩
  · exact congrArg _ (directWrite_doorbell_of_other hu hl (.inl rfl) hi)
  · exact congrArg _ (directWrite_doorbell hu hl (.inl rfl) hi (doorbell_tail hst hk))
  · exact congrArg _ (directWrite_doorbell hu hl (.inl rfl) hi (doorbell_tail_outside hst hk))
  · exact congrArg _ (directWrite_doorbell hu hl (.inl rfl) hi (doorbell_tail_of_not_active hst))
  · exact congrArg _ (directWrite_doorbell_of_other hu hl (.inr rfl) hi)
  · exact congrArg _ (directWrite_doorbell hu hl (.inr rfl) hi (doorbell_head hk))
  · exact congrArg _ (directWrite_doorbell hu hl (.inr rfl) hi (doorbell_head_outside hk))

/-! ### Fields of a stored word -/

/-- A field below bit `k` does not see the bits from there on. -/
theorem bits_mod_two_pow {lo w k : Nat} (n : Nat) (h : lo + w ≤ k) : bits (n % 2 ^ k) lo w = bits n lo w := by
  refine Nat.eq_of_testBit_eq fun i => ?_
  simp only [bits, Nat.testBit_mod_two_pow, Nat.testBit_shiftRight]
  by_cases hi : i < w
  · simp [hi, show lo + i < k by omega]
  · simp [hi]

/-- A word with a field set, in its three parts. -/
theorem putBits_eq (n lo w v : Nat) :
    putBits n lo w v = n / 2 ^ (lo + w) * 2 ^ (lo + w) + v % 2 ^ w * 2 ^ lo + n % 2 ^ lo := by
  have hparts : n = n / 2 ^ (lo + w) * 2 ^ (lo + w) + bits n lo w * 2 ^ lo + n % 2 ^ lo := by
    have hlow := Nat.div_add_mod n (2 ^ lo)
    have hmid := Nat.div_add_mod (n / 2 ^ lo) (2 ^ w)
    rw [bits, Nat.shiftRight_eq_div_pow, pow_add, ← Nat.div_div_eq_div_mul]
    calc n = 2 ^ lo * (2 ^ w * (n / 2 ^ lo / 2 ^ w) + n / 2 ^ lo % 2 ^ w) + n % 2 ^ lo := by rw [hmid, hlow]
      _ = _ := by ring
  have hbits : bits n lo w % 2 ^ w = bits n lo w := Nat.mod_eq_of_lt (Nat.mod_lt _ (Nat.two_pow_pos w))
  simp only [putBits, fld, Nat.shiftLeft_eq, hbits]
  omega

theorem bits_putBits_same (n lo w v : Nat) : bits (putBits n lo w v) lo w = v % 2 ^ w := by
  have hlow : n % 2 ^ lo < 2 ^ lo := Nat.mod_lt _ (Nat.two_pow_pos lo)
  have hdiv : putBits n lo w v / 2 ^ lo = n / 2 ^ (lo + w) * 2 ^ w + v % 2 ^ w := by
    rw [putBits_eq, pow_add, ← mul_assoc, mul_right_comm, ← add_mul, Nat.add_comm, Nat.add_mul_div_right _ _ (Nat.two_pow_pos lo),
      Nat.div_eq_of_lt hlow, Nat.zero_add]
  rw [bits, Nat.shiftRight_eq_div_pow, hdiv, Nat.mul_add_mod_self_right, Nat.mod_mod]

/-- Setting a field leaves the fields below it. -/
theorem bits_putBits_above {n lo w lo' w' v : Nat} (h : lo + w ≤ lo') : bits (putBits n lo' w' v) lo w = bits n lo w := by
  have hmod : putBits n lo' w' v % 2 ^ lo' = n % 2 ^ lo' := by
    rw [putBits_eq, pow_add, ← mul_assoc, mul_right_comm, ← add_mul, Nat.mul_add_mod_self_right, Nat.mod_mod]
  rw [← bits_mod_two_pow _ h, hmod, bits_mod_two_pow _ h]

section
variable {s : State} {a lo w v : Nat}

theorem regStored_setReg_same (s : State) (a n : Nat) : regStored (setReg s a n) a = n % 2 ^ 32 := by
  simp [regStored, setReg]

theorem regStored_setReg_other {a b : Nat} (s : State) (n : Nat) (h : b ≠ a) : regStored (setReg s a n) b = regStored s b := by
  have hreset : regReset (setReg s a n) b = regReset s b := rfl
  simp only [regStored, hreset]
  simp only [setReg, tget_tset_other _ _ h]

theorem regStored_setFld_other {b : Nat} (h : b ≠ a) : regStored (setFld s a lo w v) b = regStored s b :=
  regStored_setReg_other _ _ h

theorem cfg_setFld_same (h : lo + w ≤ 32) : cfg (setFld s a lo w v) a lo w = v % 2 ^ w := by
  rw [cfg, setFld, regStored_setReg_same, bits_mod_two_pow _ h, bits_putBits_same]

theorem cfg_setFld_above {lo' w' : Nat} (h : lo + w ≤ lo') (h32 : lo + w ≤ 32) :
    cfg (setFld s a lo' w' v) a lo w = cfg s a lo w := by
  rw [cfg, setFld, regStored_setReg_same, bits_mod_two_pow _ h32, bits_putBits_above h, cfg]

end

/-! ### Host-assisted inputs (R50) -/

/-- A write from an issuer that does not own the function is dropped and recorded. -/
theorem inputWritten_of_not_owner {s : State} {a : RegAcc} {f c i v : Nat} (h : owns s a.issuer f = false) :
    inputWritten s a f c i v = regFault s a.off := by
  simp [inputWritten, h]

section
variable {s : State} {a : RegAcc} {i v : Nat}

theorem inputWritten_laneDelay (h : owns s a.issuer 5 = true) : inputWritten s a 5 rDdrLaneDelay i v
    = assistInput (laneDelayWritten s i (selOf s a.path i rDdrLaneSel) v) 5 := by
  simp [inputWritten, h]

theorem inputWritten_scrub (h : owns s a.issuer 4 = true) :
    inputWritten s a 4 rDdrScrub i v = assistInput (scrubRateWritten s i v) 4 := by
  simp [inputWritten, h]

theorem inputWritten_stream (h : owns s a.issuer 1 = true) : inputWritten s a 1 rFtlStream i v
    = assistInput (streamWritten s (selOf s a.path i rFtlStreamSel) v) 1 := by
  simp [inputWritten, h]

theorem inputWritten_wear (h : owns s a.issuer 1 = true) :
    inputWritten s a 1 rFtlWearHost i v = assistInput (wearHostWritten s v) 1 := by
  simp [inputWritten, h]

theorem inputWritten_soc (h : owns s a.issuer 2 = true) (hv : v % 16384 ≤ 10000) :
    let w := setFld s rGauHostSoc 0 14 (v % 16384)
    inputWritten s a 2 rGauHostSoc i v = assistInput { w with gau := { w.gau with hostSoc := some (v % 16384) } } 2 := by
  simp [inputWritten, h, Nat.not_lt.mpr hv]

theorem inputWritten_soc_rejected (h : owns s a.issuer 2 = true) (hv : 10000 < v % 16384) :
    inputWritten s a 2 rGauHostSoc i v = setFld s rGauHostSoc 31 1 1 := by
  simp [inputWritten, h, hv]

theorem inputWritten_step (h : owns s a.issuer 3 = true) : inputWritten s a 3 rPsqHostStep i v = hostStep s a.issuer v := by
  simp [inputWritten, h]

end

/-- A scrub rate is clamped to a pass of 12 h to 48 h, with CLAMPED set where it was outside (R131). -/
theorem scrubRateWritten_eq (s : State) (c v : Nat) :
    let rate := clamp (cdiv (chanGranules s c) 172800) (chanGranules s c / 43200) (v % 65536)
    let w := setFld s (regAt rDdrScrub c) 0 16 rate
    scrubRateWritten s c v = if rate = v % 65536 then w else setFld w (regAt rDdrScrub c) 31 1 1 := by
  simp [scrubRateWritten]

theorem clamp_le {lo hi : Nat} (v : Nat) (h : lo ≤ hi) : clamp lo hi v ≤ hi := max_le h (min_le_left hi v)

/-- The word of FTL_WEAR_HOST after its owner's write. -/
def wearWord (s : State) (v : Nat) : State :=
  let w := setFld (setFld (setFld s rFtlWearHost 0 8 (clamp 4 64 (bits v 0 8))) rFtlWearHost 8 8 (clamp 5 100 (bits v 8 8)))
    rFtlWearHost 16 1 (bits v 16 1)
  if clamp 4 64 (bits v 0 8) ≠ bits v 0 8 ∨ clamp 5 100 (bits v 8 8) ≠ bits v 8 8 then setFld w rFtlWearHost 31 1 1 else w

theorem wearHostWritten_eq (s : State) (v : Nat) : wearHostWritten s v = { wearWord s v with ftl := { s.ftl with
    hostWear := some (clamp 4 64 (bits v 0 8), 10 * clamp 5 100 (bits v 8 8), bits v 16 1) } } := by
  unfold wearHostWritten wearWord
  by_cases h : clamp 4 64 (bits v 0 8) ≠ bits v 0 8 ∨ clamp 5 100 (bits v 8 8) ≠ bits v 8 8
  · simp only [if_pos h, Bool.or_eq_true, bne_iff_ne]
    rfl
  · simp only [if_neg h, Bool.or_eq_true, bne_iff_ne]
    rfl

/-- WEAR values are clamped to their ranges, and no other register changes (R234). -/
theorem wearWord_fields (s : State) (v : Nat) :
    cfg (wearWord s v) rFtlWearHost 0 8 = clamp 4 64 (bits v 0 8) ∧ cfg (wearWord s v) rFtlWearHost 8 8 = clamp 5 100 (bits v 8 8)
      ∧ ∀ b, b ≠ rFtlWearHost → regStored (wearWord s v) b = regStored s b := by
  have hgc : clamp 4 64 (bits v 0 8) % 2 ^ 8 = clamp 4 64 (bits v 0 8) :=
    Nat.mod_eq_of_lt (lt_of_le_of_lt (clamp_le _ (by decide)) (by decide))
  have hd : clamp 5 100 (bits v 8 8) % 2 ^ 8 = clamp 5 100 (bits v 8 8) :=
    Nat.mod_eq_of_lt (lt_of_le_of_lt (clamp_le _ (by decide)) (by decide))
  unfold wearWord
  split
  · refine ⟨?_, ?_, fun b hb => by simp only [regStored_setFld_other hb]⟩
    · rw [cfg_setFld_above, cfg_setFld_above, cfg_setFld_above, cfg_setFld_same, hgc] <;> decide
    · rw [cfg_setFld_above, cfg_setFld_above, cfg_setFld_same, hd] <;> decide
  · refine ⟨?_, ?_, fun b hb => by simp only [regStored_setFld_other hb]⟩
    · rw [cfg_setFld_above, cfg_setFld_above, cfg_setFld_same, hgc] <;> decide
    · rw [cfg_setFld_above, cfg_setFld_same, hd] <;> decide

/-- The direct write of an input register, where its value leaves `w`. -/
theorem directWrite_input {s u w : State} {a : RegAcc} {c f i v t : Nat} (hu : u = tick s t)
    (hl : lands u a = some (c, i, false)) (hc : (c, f) ∈ inputRegs) (hw : inputWritten u a f c i v = w) :
    directWrite a v true (tick s t) = landed a true v w :=
  directWrite_of_lands hu hl ((regWrite_input v true hl hc).trans hw)

/-- A write from an issuer that does not own the function of its register. -/
theorem directWrite_input_of_not_owner {s u : State} {a : RegAcc} {c f i v t : Nat} (hu : u = tick s t)
    (hl : lands u a = some (c, i, false)) (hc : (c, f) ∈ inputRegs) (ho : owns u a.issuer f = false) :
    directWrite a v true (tick s t) = landed a true v (regFault u a.off) :=
  directWrite_input hu hl hc (inputWritten_of_not_owner ho)

/-- Settles O19: the write of an input register is `inputWritten` of its function, which looks at the owner first. -/
theorem hostAssistedInputs : Obligations.HostAssistedInputs := by
  intro a v t i s u hu
  refine ⟨fun hl => ⟨fun ho => ?_, fun ho => ?_⟩, fun hl => ⟨fun ho => ?_, fun ho => ?_⟩, fun hl => ⟨fun ho => ?_, fun ho => ?_⟩,
    fun hl => ⟨fun ho => ?_, fun ho => ?_⟩, fun hl => ⟨fun ho => ?_, fun ho hv => ?_, fun ho hv => ?_⟩,
    fun hl => ⟨fun ho => ?_, fun ho hstep => ?_, fun ho hstep => ?_⟩⟩
  · exact congrArg _ (directWrite_input_of_not_owner hu hl (by decide) ho)
  · exact congrArg _ (directWrite_input hu hl (by decide) (inputWritten_laneDelay ho))
  · exact congrArg _ (directWrite_input_of_not_owner hu hl (by decide) ho)
  · exact congrArg _ (directWrite_input hu hl (by decide)
      ((inputWritten_scrub ho).trans (congrArg (assistInput · 4) (scrubRateWritten_eq u i v))))
  · exact congrArg _ (directWrite_input_of_not_owner hu hl (by decide) ho)
  · exact congrArg _ (directWrite_input hu hl (by decide) (inputWritten_stream ho))
  · exact congrArg _ (directWrite_input_of_not_owner hu hl (by decide) ho)
  · exact ⟨_, congrArg _ (directWrite_input hu hl (by decide)
      ((inputWritten_wear ho).trans (congrArg (assistInput · 1) (wearHostWritten_eq u v)))), rfl, wearWord_fields u v⟩
  · exact congrArg _ (directWrite_input_of_not_owner hu hl (by decide) ho)
  · exact congrArg _ (directWrite_input hu hl (by decide) (inputWritten_soc ho hv))
  · exact congrArg _ (directWrite_input hu hl (by decide) (inputWritten_soc_rejected ho hv))
  · exact congrArg _ (directWrite_input_of_not_owner hu hl (by decide) ho)
  · exact congrArg _ (directWrite_input hu hl (by decide) ((inputWritten_step ho).trans (if_neg (Bool.not_eq_true _ ▸ hstep))))
  · exact congrArg _ (directWrite_input hu hl (by decide) ((inputWritten_step ho).trans (if_pos hstep)))

/-! ### Register commands (R63–R65) -/

section
variable {c : TrellisCmd} {s v : State} {f : InFlight}

theorem exec_regRead (h : started 0x0010 c s = some (v, f)) : exec (.regRead c) s = .next (cmdRegRead f v) :=
  congrArg _ (submit_of_started cmdRegRead h)

theorem exec_regReadMulti (h : started 0x0012 c s = some (v, f)) : exec (.regReadMulti c) s = .next (cmdRegReadMulti f v) :=
  congrArg _ (submit_of_started cmdRegReadMulti h)

theorem exec_regWrite (h : started 0x0011 c s = some (v, f)) : exec (.regWrite c) s = .next (cmdRegWrite f v) :=
  congrArg _ (submit_of_started cmdRegWrite h)

end

/-- A register command without words behind the bridge ends at once. -/
theorem accessEnds_nil (s : State) (f : InFlight) (write : Bool) (r : Reply) : accessEnds s f write [] r = finish s f.id r := rfl

/-! #### REG_READ (R63) -/

/-- The words a REG_READ names. -/
def regReadWords (f : InFlight) : List Nat := (List.range (pByte f.cmd 28)).map (fun k => pNum f.cmd 24 4 + 4 * k)

/-- Reading words in order on a path: the state after, and each word with its value. -/
def readInOrder (v : State) (p : Path) (words : List Nat) : State × List (Nat × Nat) :=
  words.foldl (fun (x : State × List (Nat × Nat)) w => ((regRead x.1 p w).1, x.2 ++ [(w, (regRead x.1 p w).2)])) (v, [])

section
variable {v : State} {f : InFlight}

theorem cmdRegRead_bad_count (hn : pByte f.cmd 28 < 1 ∨ 4 < pByte f.cmd 28) :
    cmdRegRead f v = badParam v f.id (if offsetOk (pNum f.cmd 24 4) then 28 else 24) :=
  if_pos (by simpa using hn)

section
variable (hlow : 1 ≤ pByte f.cmd 28) (hhigh : pByte f.cmd 28 ≤ 4)
include hlow hhigh

/-- With a count from 1 to 4 the words are checked, then the bridge. -/
theorem cmdRegRead_of_count : cmdRegRead f v =
    if !(regReadWords f).all offsetOk then badParam v f.id 24
    else if (regReadWords f).any (readDenied v f.cmd.est) then endWith v f.id 0x05 0x06
    else if !bridgeRoom v (coldWords f (regReadWords f)) then setJob v f.id .bridge
    else
      let x := readInOrder v (carrierPath f.cmd.carrier) (regReadWords f)
      accessEnds x.1 f false (x.2.filter (fun w => (coldWords f (regReadWords f)).contains w.1))
        { result := padTo (x.2.flatMap (fun w => le w.2 4)) 16 } :=
  if_neg (by simp; omega)

theorem cmdRegRead_bad_offset (ho : (regReadWords f).all offsetOk = false) : cmdRegRead f v = badParam v f.id 24 := by
  rw [cmdRegRead_of_count hlow hhigh, ho]
  rfl

variable (ho : (regReadWords f).all offsetOk = true)
include ho

theorem cmdRegRead_denied (hd : (regReadWords f).any (readDenied v f.cmd.est) = true) :
    cmdRegRead f v = endWith v f.id 0x05 0x06 := by
  rw [cmdRegRead_of_count hlow hhigh, ho, hd]
  rfl

variable (hd : (regReadWords f).any (readDenied v f.cmd.est) = false)
include hd

theorem cmdRegRead_waits (hr : bridgeRoom v (coldWords f (regReadWords f)) = false) :
    cmdRegRead f v = setJob v f.id .bridge := by
  rw [cmdRegRead_of_count hlow hhigh, ho, hd, hr]
  rfl

theorem cmdRegRead_reads (hr : bridgeRoom v (coldWords f (regReadWords f)) = true) :
    let x := readInOrder v (carrierPath f.cmd.carrier) (regReadWords f)
    cmdRegRead f v = accessEnds x.1 f false (x.2.filter (fun w => (coldWords f (regReadWords f)).contains w.1))
      { result := padTo (x.2.flatMap (fun w => le w.2 4)) 16 } := by
  rw [cmdRegRead_of_count hlow hhigh, ho, hd, hr]
  rfl

end

/-! #### REG_READ_MULTI (R11, R64) -/

/-- The words a REG_READ_MULTI lists. -/
def multiWords (f : InFlight) : List Nat := (List.range (pNum f.cmd 28 2)).map (fun k => rd (payIn f.cmd) (4 * k) 4)

/-- The values of all listed words at one instant. -/
def multiValues (v : State) (f : InFlight) : List Byte :=
  (multiWords f).flatMap (fun w => le (if w = rAdcQueue then (adcPop v).2 else regValue v (carrierPath f.cmd.carrier) w) 4)

theorem cmdRegReadMulti_bad_count (hn : pNum f.cmd 28 2 < 1 ∨ 256 < pNum f.cmd 28 2) :
    cmdRegReadMulti f v = badParam v f.id 28 :=
  if_pos (by simpa using hn)

section
variable (hlow : 1 ≤ pNum f.cmd 28 2) (hhigh : pNum f.cmd 28 2 ≤ 256)
include hlow hhigh

/-- With a count from 1 to 256 the payload's length and words are checked, then the bridge. -/
theorem cmdRegReadMulti_of_count : cmdRegReadMulti f v =
    if f.cmd.payLen != 4 * pNum f.cmd 28 2 then badParam v f.id 0x40
    else if !(multiWords f).all offsetOk || ((multiWords f).any onLogic && !(multiWords f).all onLogic) then badParam v f.id 0x40
    else if (multiWords f).any (readDenied v f.cmd.est) then endWith v f.id 0x05 0x06
    else if !bridgeRoom v ((coldWords f (multiWords f)).take 1) then setJob v f.id .bridge
    else accessEnds ((multiWords f).foldl (fun s w => (regRead s (carrierPath f.cmd.carrier) w).1) v) f false
      (((coldWords f (multiWords f)).take 1).map (fun w => (w, leNat (multiValues v f)))) { output := multiValues v f } := by
  have hcount : ¬(decide (pNum f.cmd 28 2 < 1) || decide (256 < pNum f.cmd 28 2)) = true := by simp; omega
  simp only [cmdRegReadMulti, if_neg hcount, multiValues, multiWords, beq_iff_eq]
  rfl

theorem cmdRegReadMulti_bad_payload (hp : f.cmd.payLen ≠ 4 * pNum f.cmd 28 2 ∨ (multiWords f).all offsetOk = false
    ∨ ((multiWords f).any onLogic = true ∧ (multiWords f).all onLogic = false)) :
    cmdRegReadMulti f v = badParam v f.id 0x40 := by
  rw [cmdRegReadMulti_of_count hlow hhigh]
  by_cases hlen : f.cmd.payLen = 4 * pNum f.cmd 28 2
  · have hbad : (!(multiWords f).all offsetOk || ((multiWords f).any onLogic && !(multiWords f).all onLogic)) = true := by
      rcases hp with hp | hp | ⟨hany, hall⟩
      · exact absurd hlen hp
      · rw [hp]
        rfl
      · rw [hany, hall, Bool.not_false, Bool.and_self, Bool.or_true]
    rw [if_pos hbad, ite_self]
  · exact if_pos (by simpa using hlen)

section
variable (hp : f.cmd.payLen = 4 * pNum f.cmd 28 2) (ho : (multiWords f).all offsetOk = true)
  (hdie : (multiWords f).any onLogic = true → (multiWords f).all onLogic = true)
include hp ho hdie

/-- A well-formed list is read where the issuer may read it and the bridge has room. -/
theorem cmdRegReadMulti_of_formed : cmdRegReadMulti f v =
    if (multiWords f).any (readDenied v f.cmd.est) then endWith v f.id 0x05 0x06
    else if !bridgeRoom v ((coldWords f (multiWords f)).take 1) then setJob v f.id .bridge
    else accessEnds ((multiWords f).foldl (fun s w => (regRead s (carrierPath f.cmd.carrier) w).1) v) f false
      (((coldWords f (multiWords f)).take 1).map (fun w => (w, leNat (multiValues v f)))) { output := multiValues v f } := by
  have hlen : ¬(f.cmd.payLen != 4 * pNum f.cmd 28 2) = true := by simpa using hp
  have hgood : ¬(!(multiWords f).all offsetOk || ((multiWords f).any onLogic && !(multiWords f).all onLogic)) = true := by
    rw [ho]
    cases hany : (multiWords f).any onLogic with
    | false => simp
    | true => simp [hdie hany]
  rw [cmdRegReadMulti_of_count hlow hhigh, if_neg hlen, if_neg hgood]

theorem cmdRegReadMulti_denied (hd : (multiWords f).any (readDenied v f.cmd.est) = true) :
    cmdRegReadMulti f v = endWith v f.id 0x05 0x06 := by
  rw [cmdRegReadMulti_of_formed hlow hhigh hp ho hdie, if_pos hd]

variable (hd : (multiWords f).any (readDenied v f.cmd.est) = false)
include hd

theorem cmdRegReadMulti_waits (hr : bridgeRoom v ((coldWords f (multiWords f)).take 1) = false) :
    cmdRegReadMulti f v = setJob v f.id .bridge := by
  rw [cmdRegReadMulti_of_formed hlow hhigh hp ho hdie, hd, hr]
  rfl

theorem cmdRegReadMulti_reads (hr : bridgeRoom v ((coldWords f (multiWords f)).take 1) = true) :
    cmdRegReadMulti f v = accessEnds ((multiWords f).foldl (fun s w => (regRead s (carrierPath f.cmd.carrier) w).1) v) f false
      (((coldWords f (multiWords f)).take 1).map (fun w => (w, leNat (multiValues v f)))) { output := multiValues v f } := by
  rw [cmdRegReadMulti_of_formed hlow hhigh hp ho hdie, hd, hr]
  rfl

end

end

/-! #### REG_WRITE (R50, R65) -/

/-- The bits of the register at `a` that a write with no mask would keep. -/
def keptWord (v : State) (p : Path) (a : Nat) : Nat :=
  match regFind v a with
  | some (r, _, high) =>
    if r.wide then (if high then regValue v p a else heldLow v p a)
    else regValue v p a &&& accMask r (fun x => x == .rw || x == .rws)
  | none => 0

/-- The state after the masked write of a REG_WRITE. -/
def regWriteDone (f : InFlight) (v : State) : State :=
  let a := pNum f.cmd 24 4
  let m := pNum f.cmd 32 4
  let p := carrierPath f.cmd.carrier
  regWrite v { path := p, full := true, issuer := f.cmd.est, off := a }
    ((keptWord v p a &&& (0xFFFFFFFF ^^^ m)) ||| (pNum f.cmd 28 4 &&& m))
    ((twi v (regCanon a).2).sda && (twi v (regCanon a).2).scl)

/-- A REG_WRITE that left `w` ends with the register as it reads then. -/
def regWriteEnds (f : InFlight) (w : State) : State :=
  accessEnds w f true ((coldWords f [pNum f.cmd 24 4]).map (fun x => (x, pNum f.cmd 28 4)))
    { result := le (regValue w (carrierPath f.cmd.carrier) (pNum f.cmd 24 4)) 4 }

/-- The register carries input of a function that the issuer does not own. -/
def inputDenied (v : State) (issuer a : Nat) : Bool :=
  match regFunction a with | some k => !owns v issuer k | none => false

theorem inputDenied_eq_false {issuer a : Nat} (h : ∀ k, regFunction a = some k → owns v issuer k = true) :
    inputDenied v issuer a = false := by
  cases hk : regFunction a with
  | none => simp [inputDenied, hk]
  | some k => simp [inputDenied, hk, h k hk]

/-- The offset, the mask and the owner are checked in order, then the bridge. -/
theorem cmdRegWrite_eq (f : InFlight) (v : State) : cmdRegWrite f v =
    if !offsetOk (pNum f.cmd 24 4) then badParam v f.id 24
    else if pNum f.cmd 32 4 == 0 then badParam v f.id 32
    else if inputDenied v f.cmd.est (pNum f.cmd 24 4) then endWith v f.id 0x05 0x05
    else if !bridgeRoom v (coldWords f [pNum f.cmd 24 4]) then setJob v f.id .bridge
    else regWriteEnds f (regWriteDone f v) := rfl

theorem cmdRegWrite_bad_offset (ho : offsetOk (pNum f.cmd 24 4) = false) : cmdRegWrite f v = badParam v f.id 24 := by
  simp [cmdRegWrite_eq, ho]

section
variable (ho : offsetOk (pNum f.cmd 24 4) = true)
include ho

theorem cmdRegWrite_no_mask (hm : pNum f.cmd 32 4 = 0) : cmdRegWrite f v = badParam v f.id 32 := by
  simp [cmdRegWrite_eq, ho, hm]

variable (hm : pNum f.cmd 32 4 ≠ 0)
include hm

theorem cmdRegWrite_not_owner {k : Nat} (hk : regFunction (pNum f.cmd 24 4) = some k) (hown : owns v f.cmd.est k = false) :
    cmdRegWrite f v = endWith v f.id 0x05 0x05 := by
  have hdenied : inputDenied v f.cmd.est (pNum f.cmd 24 4) = true := by simp [inputDenied, hk, hown]
  simp [cmdRegWrite_eq, ho, hm, hdenied]

variable (hown : ∀ k, regFunction (pNum f.cmd 24 4) = some k → owns v f.cmd.est k = true)
include hown

theorem cmdRegWrite_waits (hr : bridgeRoom v (coldWords f [pNum f.cmd 24 4]) = false) :
    cmdRegWrite f v = setJob v f.id .bridge := by
  simp [cmdRegWrite_eq, ho, hm, inputDenied_eq_false hown, hr]

theorem cmdRegWrite_writes (hr : bridgeRoom v (coldWords f [pNum f.cmd 24 4]) = true) :
    cmdRegWrite f v = regWriteEnds f (regWriteDone f v) := by
  simp [cmdRegWrite_eq, ho, hm, inputDenied_eq_false hown, hr]

end

theorem regWrite_absent {a : RegAcc} (n : Nat) (ok : Bool) (hf : regFind v a.off = none) : regWrite v a n ok = v := by
  simp [regWrite, hf]

end

/-- Settles O20: each register command by its checks in order, then by the words the bridge has room for. -/
theorem registerCommandsOfTrellis : Obligations.RegisterCommandsOfTrellis := by
  refine ⟨fun c s v f h => ?_, accessEnds_nil, fun c s v f h => ?_, fun c s v f h => ?_⟩
  · rw [exec_regRead h]
    exact ⟨fun hn => congrArg _ (cmdRegRead_bad_count hn),
      fun hlow hhigh ho => congrArg _ (cmdRegRead_bad_offset hlow hhigh ho),
      fun hlow hhigh ho hd => congrArg _ (cmdRegRead_denied hlow hhigh ho hd),
      fun hlow hhigh ho hd => ⟨fun hr => congrArg _ (cmdRegRead_waits hlow hhigh ho hd hr),
        fun hr => congrArg _ (cmdRegRead_reads hlow hhigh ho hd hr)⟩⟩
  · rw [exec_regReadMulti h]
    exact ⟨fun hn => congrArg _ (cmdRegReadMulti_bad_count hn),
      fun hlow hhigh hp => congrArg _ (cmdRegReadMulti_bad_payload hlow hhigh hp),
      fun hlow hhigh hp ho hdie => ⟨fun hd => congrArg _ (cmdRegReadMulti_denied hlow hhigh hp ho hdie hd),
        fun hd => ⟨fun hr => congrArg _ (cmdRegReadMulti_waits hlow hhigh hp ho hdie hd hr),
          fun hr => congrArg _ (cmdRegReadMulti_reads hlow hhigh hp ho hdie hd hr)⟩⟩⟩
  · rw [exec_regWrite h]
    refine ⟨fun ho => congrArg _ (cmdRegWrite_bad_offset ho), fun ho hm => congrArg _ (cmdRegWrite_no_mask ho hm),
      fun ho hm => ⟨fun k hk hown => congrArg _ (cmdRegWrite_not_owner ho hm hk hown), fun hown => ?_⟩⟩
    refine ⟨fun hr => congrArg _ (cmdRegWrite_waits ho hm hown hr), fun hr => ?_⟩
    rw [cmdRegWrite_writes ho hm hown hr]
    refine ⟨fun hf => ?_, fun r i hf hw => ?_, fun r i high hf hw => ?_⟩
    · rw [regWriteDone, regWrite_absent _ _ hf]
      rfl
    · simp only [regWriteDone, keptWord, hf, hw]
      rfl
    · simp only [regWriteDone, keptWord, hf, hw]
      rfl

end Sys2Proof.Machine

/-! Function modes (R66–R68, R288), the load meter (R286), the two-wire ports (R367–R372) and the converters (R359–R361). -/

namespace Sys2Proof.Machine

open Sys2Proof

/-- A port that exists and works passes the guard of a row of its bus. -/
theorem bus_guard_of_live {u : State} {n : Nat} (h : n < 4 ∧ twiUp u n = true) : ¬(!(decide (n < 4) && twiUp u n)) = true := by
  simp [h.1, h.2]

section
variable {s u : State} {t : Nat} (hu : u = tick s t)
include hu

/-! ### Quiescent points (R67, R288) -/

theorem exec_quiescentPointSwitch (f : Nat) :
    exec (.quiescentPointSwitch f t) s = .next (if quiescent u f then applySwitch u f else u) := by
  subst hu
  rfl

/-- Only a pending switch with a command, 5 s after its admission, times out. -/
theorem exec_funcSwitchTimeout_nothing {f : Nat}
    (h : (func u f).pend = none ∨ ∃ p, (func u f).pend = some p ∧ (p.cmd = none ∨ u.now < p.since + 5000000)) :
    exec (.funcSwitchTimeout f t) s = .next u := by
  show execFuncSwitchTimeout f t s = _
  obtain h | ⟨⟨assist, auto, wd, issuer, cmd, since, reason, fall⟩, hp, hcmd⟩ := h
  · simp only [execFuncSwitchTimeout, ← hu, h]
  · cases cmd with
    | none => simp only [execFuncSwitchTimeout, ← hu, hp]
    | some id =>
      have hearly : ¬since + 5000000 ≤ u.now := Nat.not_le.mpr (hcmd.resolve_left nofun)
      simp only [execFuncSwitchTimeout, ← hu, hp, if_neg hearly]

theorem exec_funcSwitchTimeout {f id : Nat} {p : SwitchReq} (hp : (func u f).pend = some p) (hcmd : p.cmd = some id)
    (hdue : p.since + 5000000 ≤ u.now) : exec (.funcSwitchTimeout f t) s
      = .next (endWith (setFunc u f { func u f with pend := none }) id 0x0D 0) := by
  show execFuncSwitchTimeout f t s = _
  obtain ⟨assist, auto, wd, issuer, cmd, since, reason, fall⟩ := p
  cases hcmd
  simp only [execFuncSwitchTimeout, ← hu, hp]
  exact congrArg _ (if_pos hdue)

/-! ### The load meter (R286, R288) -/

theorem exec_loadWindowEnd_nothing {x y : Nat} (h : logicOn u = false ∨ u.now < u.mpx.winAt + 10000) :
    exec (.loadWindowEnd x y t) s = .next u := by
  subst hu
  exact congrArg Host.Outcome.next (if_pos (by simpa using h))

/-- A window's end sets the busy shares, the peak and the saturated windows, and the level the load leads to. -/
theorem exec_loadWindowEnd {x y : Nat} (hon : logicOn u = true) (hdue : u.mpx.winAt + 10000 ≤ u.now) :
    let v := { u with mpx := { u.mpx with
      winAt := u.now,
      a := { u.mpx.a with busy := if u.mpx.a.st == 0 then min 100 x else 0 },
      b := { u.mpx.b with busy := if u.mpx.b.st == 0 then min 100 y else 0 } } }
    let ld := load v
    let sat := if 95 ≤ ld then u.mpx.satWindows + 1 else 0
    let w := setFld v rMpxLoad 0 8 (max (cfg v rMpxLoad 0 8) ld)
    let w := { w with mpx := { w.mpx with
      satWindows := min sat 10,
      lowSince := if w.mpx.level != 0 && ld < fallMark w.mpx.level then some (w.mpx.lowSince.getD w.now) else none } }
    let k := riseTo w.mpx.level ld sat
    exec (.loadWindowEnd x y t) s = .next (if k = w.mpx.level then w else enterLevel w k) := by
  intro v ld sat w w' k
  have hopen : ¬(!logicOn u || decide (u.now < u.mpx.winAt + 10000)) = true := by simp [hon, hdue]
  have hbeq : (if k = w'.mpx.level then w' else enterLevel w' k) = if (k == w'.mpx.level) = true then w' else enterLevel w' k := by
    simp only [beq_iff_eq]
  subst hu
  rw [hbeq]
  exact congrArg Host.Outcome.next (if_neg hopen)

theorem exec_loadLevelFall (hdue : ∃ z, u.mpx.lowSince = some z ∧ z + 1000000 ≤ u.now) (hl : u.mpx.level ≠ 0) :
    exec (.loadLevelFall t) s = .next (enterLevel u (u.mpx.level - 1)) := by
  obtain ⟨z, hz, hz1⟩ := hdue
  show execLoadLevelFall t s = _
  simp only [execLoadLevelFall, ← hu, hz]
  exact congrArg _ (if_pos (by simp [hl, hz1]))

theorem exec_loadLevelFall_nothing
    (h : ¬(∃ z, u.mpx.lowSince = some z ∧ z + 1000000 ≤ u.now) ∨ u.mpx.level = 0) : exec (.loadLevelFall t) s = .next u := by
  show execLoadLevelFall t s = _
  cases hz : u.mpx.lowSince with
  | none => simp only [execLoadLevelFall, ← hu, hz]
  | some z =>
    have hearly : u.mpx.level = 0 ∨ ¬z + 1000000 ≤ u.now := h.symm.imp_right fun hno hle => hno ⟨z, hz, hle⟩
    simp only [execLoadLevelFall, ← hu, hz]
    exact congrArg _ (if_neg (by simpa [imp_iff_not_or] using hearly))

theorem exec_autoReturn_nothing
    (h : u.mpx.level ≠ 0 ∨ cfg u rMpxCfg 0 16 = 0 ∨ u.now < u.mpx.calmAt + cfg u rMpxCfg 0 16 * 1000000) :
    exec (.autoReturn t) s = .next u := by
  subst hu
  refine congrArg Host.Outcome.next (if_neg ?_)
  simp only [Bool.and_eq_true, beq_iff_eq, bne_iff_ne, decide_eq_true_eq]
  rintro ⟨⟨hl, hw⟩, hcalm⟩
  rcases h with h | h | h
  · exact h hl
  · exact hw h
  · exact Nat.not_lt.mpr hcalm h

/-- After AUTO_RETURN_S at level 0 every fallen function is asked back. -/
theorem exec_autoReturn (hl : u.mpx.level = 0) (hw : cfg u rMpxCfg 0 16 ≠ 0)
    (hcalm : u.mpx.calmAt + cfg u rMpxCfg 0 16 * 1000000 ≤ u.now) :
    exec (.autoReturn t) s = .next { u with mpx := { u.mpx with
      funcs := u.mpx.funcs.map (fun p => (p.1, if p.2.fell && p.2.pend.isNone then { p.2 with
        pend := some { assist := true, auto := p.2.auto, watchdog := p.2.watchdog, issuer := p.2.owner.toNat, since := u.now,
                       reason := 1 } } else p.2)) } } := by
  have hdue : (u.mpx.level == 0 && cfg u rMpxCfg 0 16 != 0 && decide (u.mpx.calmAt + cfg u rMpxCfg 0 16 * 1000000 ≤ u.now)) = true := by
    simp [hl, hw, hcalm]
  subst hu
  exact congrArg Host.Outcome.next (if_pos hdue)

/-! ### Two-wire transactions (R368, Table 13.2) -/

section
variable {n : Nat}

/-- A port without a transaction on its bus has none to end. -/
theorem exec_twiTransactionDone_nothing {r : TwiEnd} {d : List Byte}
    (h : (twi u n).cur = none ∨ (twi u n).spacing = true ∨ twiUp u n = false) :
    exec (.twiTransactionDone n r d t) s = .next u := by
  show execTwiTransactionDone n r d t s = _
  cases hc : (twi u n).cur with
  | none => simp only [execTwiTransactionDone, ← hu, hc]
  | some x =>
    have hidle : ((twi u n).spacing || !twiUp u n) = true := by simpa [hc] using h
    simp only [execTwiTransactionDone, ← hu, hc, if_pos hidle]

theorem exec_twiRetry_nothing
    (h : (twi u n).cur = none ∨ (twi u n).spacing = false ∨ twiUp u n = false ∨ u.now < (twi u n).since + 1000) :
    exec (.twiRetry n t) s = .next u := by
  show execTwiRetry n t s = _
  cases hc : (twi u n).cur with
  | none => simp only [execTwiRetry, ← hu, hc]
  | some x =>
    have hwait : ¬((twi u n).spacing && twiUp u n && decide ((twi u n).since + 1000 ≤ u.now)) = true := by
      rcases h with h | h | h | h
      · cases hc.symm.trans h
      · simp [h]
      · simp [h]
      · simp [h]
    simp only [execTwiRetry, ← hu, hc, if_neg hwait]

variable {x : TwiTx} (hc : (twi u n).cur = some x)
include hc

/-- The end of transaction `x` on port `n` with result `d`. -/
theorem exec_twiTransactionDone {r : TwiEnd} {d : List Byte} (hup : twiUp u n = true) (hsp : (twi u n).spacing = false) :
    let done := twiKick (twiDone (setTwi u n { twi u n with cur := none, st := 0, last := 0 }) n x d) n
    let again := setTwi u n { twi u n with cur := some { x with tries := x.tries + 1 }, spacing := true, since := u.now }
    exec (.twiTransactionDone n r d t) s = .next (match r with
      | .ok => done
      | .addrNak => if x.tries < 2 then again else twiKick (twiOver u n 1) n
      | .dataNak => twiKick (twiOver u n 1) n
      | .pec => if cfg u (regAt rTwiCfg n) 29 1 = 0 then done
        else bump (if x.tries < 2 then again else twiKick (twiOver u n 5) n) (regAt rTwiErr n) 0 8 1) := by
  intro done again
  have hruns : ¬((twi u n).spacing || !twiUp u n) = true := by simp [hup, hsp]
  show execTwiTransactionDone n r d t s = _
  simp only [execTwiTransactionDone, ← hu, hc, if_neg hruns, beq_iff_eq]
  cases r <;> rfl

theorem exec_twiRetry (hup : twiUp u n = true) (hsp : (twi u n).spacing = true) (hdue : (twi u n).since + 1000 ≤ u.now) :
    exec (.twiRetry n t) s
      = .next (emit (setTwi u n { twi u n with spacing := false, since := u.now }) (.twi n x.addr x.code x.data)) := by
  show execTwiRetry n t s = _
  simp only [execTwiRetry, ← hu, hc]
  exact congrArg _ (if_pos (by simp [hup, hsp, hdue]))

end

/-! ### Arbitration, clock low and bus clear (R367, R369, R370) -/

section
variable {n : Nat}

/-- A port that does not exist or does not work loses no arbitration and clears no bus. -/
theorem exec_bus_of_not_live (still : Bool) (h : ¬(n < 4 ∧ twiUp u n = true)) :
    exec (.arbitrationLost n t) s = .next u ∧ exec (.busClear n still t) s = .next u := by
  subst hu
  have hdead : (!(decide (n < 4) && twiUp (tick s t) n)) = true := by simpa [imp_iff_not_or] using h
  exact ⟨congrArg Host.Outcome.next (if_pos hdead), congrArg Host.Outcome.next (if_pos hdead)⟩

/-- A shared clock low, or no transaction of the port's own, is not its time-out. -/
theorem exec_clockLowTimeout_nothing {still : Bool}
    (h : ¬((n < 4 ∧ twiUp u n = true) ∧ ((twi u n).cur = none ∨ ((twi u n).spacing = false
      ∧ (twi u n).since + (if still then 2 else 1) * (1000 * clamp 1 35 (cfg u (regAt rTwiCfg n) 16 8)) ≤ u.now)))) :
    exec (.clockLowTimeout n still t) s = .next u := by
  subst hu
  refine congrArg Host.Outcome.next (if_pos ?_)
  rw [Bool.not_eq_true', ← Bool.not_eq_true]
  exact fun hlow => h (by simpa [lowLong, twiTimeout] using hlow)

section
variable (hlive : n < 4 ∧ twiUp u n = true)
include hlive

/-- Without a transaction on the bus a lost arbitration is counted. -/
theorem exec_arbitrationLost_counts (h : (twi u n).cur = none ∨ (twi u n).spacing = true) :
    exec (.arbitrationLost n t) s = .next (bump u (regAt rTwiErr n) 24 8 1) := by
  show execArbitrationLost n t s = _
  cases hc : (twi u n).cur with
  | none => simp only [execArbitrationLost, ← hu, if_neg (bus_guard_of_live hlive), hc]
  | some x =>
    have hsp : (twi u n).spacing = true := h.resolve_left (by simp [hc])
    simp only [execArbitrationLost, ← hu, if_neg (bus_guard_of_live hlive), hc, if_pos hsp]

/-- A transaction that loses arbitration starts again up to RETRY_MAX times, then ends. -/
theorem exec_arbitrationLost {x : TwiTx} (hc : (twi u n).cur = some x) (hsp : (twi u n).spacing = false) :
    let lost := bump u (regAt rTwiErr n) 24 8 1
    exec (.arbitrationLost n t) s = .next (if x.arbs < cfg lost (regAt rTwiCfg n) 24 4 then
        emit (setTwi lost n { twi u n with cur := some { x with arbs := x.arbs + 1 }, since := u.now }) (.twi n x.addr x.code x.data)
      else twiKick (twiOver lost n 2) n) := by
  show execArbitrationLost n t s = _
  simp only [execArbitrationLost, ← hu, if_neg (bus_guard_of_live hlive), hc, hsp]
  rfl

theorem exec_busClear_fails : exec (.busClear n false t) s = .next (fence u n) := by
  show execBusClear n false t s = _
  simp only [execBusClear, ← hu, if_neg (bus_guard_of_live hlive)]
  rfl

theorem exec_busClear : exec (.busClear n true t) s
    = .next (twiKick (setTwi (bump u (regAt rTwiErr n) 8 8 1) n { twi u n with sda := true, scl := true }) n) := by
  show execBusClear n true t s = _
  simp only [execBusClear, ← hu, if_neg (bus_guard_of_live hlive)]
  rfl

/-- A clock held low past the bound ends the transaction; held low for as long again it fences the port. -/
theorem exec_clockLowTimeout {still : Bool} (hlow : (twi u n).cur = none ∨ ((twi u n).spacing = false
      ∧ (twi u n).since + (if still then 2 else 1) * (1000 * clamp 1 35 (cfg u (regAt rTwiCfg n) 16 8)) ≤ u.now)) :
    let v := twiOver (bump u (regAt rTwiErr n) 16 8 1) n 4
    exec (.clockLowTimeout n still t) s = .next (if still then
        setTwi (fence v n) n { twi (fence v n) n with scl := false, sda := true }
      else twiKick (setTwi v n { twi v n with scl := true }) n) := by
  have hlong : lowLong u n still = true := by simpa [lowLong, twiTimeout] using hlow
  have hguard : ¬(!(decide (n < 4) && twiUp u n && lowLong u n still)) = true := by simp [hlive.1, hlive.2, hlong]
  show execClockLowTimeout n still t s = _
  simp only [execClockLowTimeout, ← hu, if_neg hguard]

end

end

/-! ### Regulator polls (R372) -/

/-- A listed regulator entry of a working port is due once a second. -/
def pollDue (u : State) (e : Nat) : Prop :=
  e < 4 ∧ twiUp u 2 = true ∧ cfg u (regAt rTwi2PmbList 2) (8 * e + 7) 1 = 1
    ∧ ∀ z, tget u.twi.pollAt e = some z → z + 1000000 ≤ u.now

theorem exec_pmbusPoll {e : Nat} (words : List Nat) (ok : Bool) (h : pollDue u e) :
    let v := { u with twi := { u.twi with pollAt := tset u.twi.pollAt e u.now } }
    exec (.pmbusPoll e words ok t) s = .next (if ok then
      { v with twi := { v.twi with pmbus := tset v.twi.pmbus e ((words.take 4).map (· % 65536)) } } else v) := by
  obtain ⟨he, hup, hlist, hz⟩ := h
  show execPmbusPoll e words ok t s = _
  cases hp : tget u.twi.pollAt e with
  | none => simp [execPmbusPoll, ← hu, hp, he, hup, hlist]
  | some z => simp [execPmbusPoll, ← hu, hp, he, hup, hlist, hz z hp]

theorem exec_pmbusPoll_nothing {e : Nat} (words : List Nat) (ok : Bool) (h : ¬pollDue u e) :
    exec (.pmbusPoll e words ok t) s = .next u := by
  show execPmbusPoll e words ok t s = _
  simp only [execPmbusPoll, ← hu]
  refine congrArg _ (if_neg fun hg => h ?_)
  simp only [Bool.and_eq_true, decide_eq_true_eq, beq_iff_eq] at hg
  obtain ⟨⟨⟨hdue, he⟩, hup⟩, hlist⟩ := hg
  refine ⟨he, hup, hlist, fun z hz => ?_⟩
  simpa [hz] using hdue

end

/-! ### Converters (R359–R361) -/

/-- The converter just set. -/
@[simp] theorem adcOf_setAdc_same (s : State) (k : Nat) (x : Adc) : adcOf (setAdc s k x) k = x := by
  by_cases hk : k = 0 <;> simp [adcOf, setAdc, hk]

/-- A converter's timer has run its period. -/
def adcTimerDue (u : State) (k : Nat) : Prop :=
  k < 2 ∧ u.dev.state ≠ .off ∧ u.psq.collapse = false ∧ adcTrigger u k = 1 ∧ cfg u (adcCtrl k) 31 1 ≠ 0
    ∧ ∀ z, (adcOf u k).timerAt = some z → z + adcPeriod u k ≤ u.now

/-- A converter's conversion has ended and its result has a place. -/
def adcTakes (u : State) (k : Nat) : Prop :=
  k < 2 ∧ (adcOf u k).busy = true ∧ u.psq.collapse = false ∧ ((adcOf u k).held = false ∨ scanHeld u = false)
    ∧ u.adc.queue.length < 64 ∧ (adcOf u k).since + adcTime (adcOf u k) ≤ u.now

/-- The guard of ADC_TIMER_TRIGGER as a condition, for any trigger, enable, period and time of the last tick. -/
theorem timerGuard_iff {u : State} {k trigger enable period : Nat} (last : Option Nat) :
    (k < 2 ∧ u.dev.state ≠ .off ∧ u.psq.collapse = false ∧ trigger = 1 ∧ enable ≠ 0 ∧ ∀ z, last = some z → z + period ≤ u.now) ↔
      ¬(decide (2 ≤ k) || u.dev.state == .off || u.psq.collapse || trigger != 1 || enable == 0
        || last.any (fun z => decide (u.now < z + period))) = true := by
  cases last with
  | none => simp [and_assoc]
  | some z => simp [and_assoc]

/-- The guard of ADC_TIMER_TRIGGER. -/
theorem adcTimerDue_iff {u : State} {k : Nat} : adcTimerDue u k ↔
    ¬(decide (2 ≤ k) || u.dev.state == .off || u.psq.collapse || adcTrigger u k != 1 || cfg u (adcCtrl k) 31 1 == 0
      || (adcOf u k).timerAt.any (fun z => decide (u.now < z + adcPeriod u k))) = true :=
  timerGuard_iff (adcOf u k).timerAt

/-- The guard of ADC_CONVERSION_DONE. -/
theorem adcTakes_iff {u : State} {k : Nat} : adcTakes u k ↔
    ¬(decide (2 ≤ k) || !(adcOf u k).busy || u.psq.collapse || adcWaits u (adcOf u k)
      || decide (u.now < (adcOf u k).since + adcTime (adcOf u k))) = true := by
  simp [adcTakes, adcWaits, and_assoc, imp_iff_not_or]

section
variable {s u : State} {t : Nat} (hu : u = tick s t) {k : Nat}
include hu

theorem exec_adcTimerTrigger_nothing (h : ¬adcTimerDue u k) : exec (.adcTimerTrigger k t) s = .next u := by
  rw [adcTimerDue_iff, not_not] at h
  subst hu
  exact congrArg Host.Outcome.next (if_pos h)

/-- A due timer starts an idle converter, else counts an overrun. -/
theorem exec_adcTimerTrigger (h : adcTimerDue u k) :
    let v := setAdc u k { adcOf u k with timerAt := some u.now }
    exec (.adcTimerTrigger k t) s
      = .next (if (adcOf u k).busy || scanHeld v then bump v rAdcStatus 16 8 1 else adcBegin v k) := by
  rw [adcTimerDue_iff] at h
  show execAdcTimerTrigger k t s = _
  simp only [execAdcTimerTrigger, ← hu, if_neg h, adcOf_setAdc_same]

theorem exec_adcConversionDone_nothing {uv : Int} (h : ¬adcTakes u k) : exec (.adcConversionDone k uv t) s = .next u := by
  rw [adcTakes_iff, not_not] at h
  subst hu
  exact congrArg Host.Outcome.next (if_pos h)

section
variable {uv : Int} (h : adcTakes u k)
include h

theorem exec_adcConversionDone_stops (hs : (adcOf u k).stopping = true) :
    exec (.adcConversionDone k uv t) s
      = .next (setAdc { u with adc := { u.adc with queue := u.adc.queue ++ [adcResult (adcOf u k) k uv] } } k
          { adcOf u k with busy := false, stopping := false, run := ((adcOf u k).run + 1) % 8 }) := by
  rw [adcTakes_iff] at h
  show execAdcConversionDone k uv t s = _
  simp only [execAdcConversionDone, ← hu, if_neg h, if_pos hs]

variable (hs : (adcOf u k).stopping = false)
include hs

theorem exec_adcConversionDone_goes_on {e : Nat} :
    let v := { u with adc := { u.adc with queue := u.adc.queue ++ [adcResult (adcOf u k) k uv] } }
    adcFrom (adcOf u k) (cfg v (adcCtrl k) 24 4) ((adcOf u k).entry + 1) = some e →
    exec (.adcConversionDone k uv t) s = .next (setAdc v k (adcNext v k (adcOf u k) e)) := by
  intro v hnext
  rw [adcTakes_iff] at h
  show execAdcConversionDone k uv t s = _
  simp only [execAdcConversionDone, ← hu, if_neg h, hs]
  rw [if_neg Bool.false_ne_true, hnext]

theorem exec_adcConversionDone_ends :
    let v := { u with adc := { u.adc with queue := u.adc.queue ++ [adcResult (adcOf u k) k uv] } }
    adcFrom (adcOf u k) (cfg v (adcCtrl k) 24 4) ((adcOf u k).entry + 1) = none →
    exec (.adcConversionDone k uv t) s = .next (adcRunEnd v k) := by
  intro v hnext
  rw [adcTakes_iff] at h
  show execAdcConversionDone k uv t s = _
  simp only [execAdcConversionDone, ← hu, if_neg h, hs]
  rw [if_neg Bool.false_ne_true, hnext]

end

end

/-! #### Writes of ADC_CTRL (R360) -/

/-- Storing a word leaves the clock. -/
@[simp] theorem storeWord_now (s : State) (r : RegD) (a v drop : Nat) : (storeWord s r a v drop).now = s.now := by
  unfold storeWord
  dsimp only
  split
  · rfl
  · split <;> rfl

/-- A bit as a field of one bit. -/
theorem bit_eq_true_iff (n i : Nat) : bit n i = true ↔ bits n i 1 = 1 := by
  simp [bit, bits, Nat.testBit, Nat.shiftRight_eq_div_pow, Nat.and_comm 1, Nat.and_one_is_mod]

/-- Converter `k` once the stored word of its ADC_CTRL enables it or not, in state `v` at time `now`. -/
def adcStored (v : State) (now k c : Nat) : State :=
  let x := adcOf v k
  let x := { x with timerAt := if cfg v c 31 1 = 1 ∧ adcTrigger v k = 1 then some (x.timerAt.getD now) else none }
  setAdc v k (if x.busy = true ∧ ¬cfg v c 31 1 = 1 ∧ adcWaits v x = true then
      { x with busy := false, stopping := false, run := (x.run + 1) % 8 }
    else { x with stopping := x.busy && !decide (cfg v c 31 1 = 1) })

/-- The write begins a run: with START under software trigger, or a continuous sequence. -/
def adcBegins (v : State) (now k c w : Nat) : Prop :=
  cfg v c 31 1 = 1 ∧ ((bit w 23 = true ∧ adcTrigger (adcStored v now k c) k = 0) ∨ adcTrigger (adcStored v now k c) k = 2)

/-- What follows a stored ADC_CTRL, by its stored ENABLE. -/
theorem adcCtrlWritten_stored {v : State} {now : Nat} (k c w : Nat) (hnow : v.now = now) :
    (adcBegins v now k c w → adcCtrlWritten v k (putBits w 31 1 (cfg v c 31 1)) = adcBegin (adcStored v now k c) k)
      ∧ (¬adcBegins v now k c w → adcCtrlWritten v k (putBits w 31 1 (cfg v c 31 1)) = adcStored v now k c) := by
  have hcfg : cfg v c 31 1 % 2 ^ 1 = cfg v c 31 1 := Nat.mod_eq_of_lt (Nat.mod_lt _ (by decide))
  have hon : bit (putBits w 31 1 (cfg v c 31 1)) 31 = decide (cfg v c 31 1 = 1) := by
    rw [Bool.eq_iff_iff, bit_eq_true_iff, bits_putBits_same, hcfg, decide_eq_true_iff]
  have hstart : bit (putBits w 31 1 (cfg v c 31 1)) 23 = bit w 23 := by
    rw [Bool.eq_iff_iff, bit_eq_true_iff, bit_eq_true_iff, bits_putBits_above (by decide)]
  have hwritten : adcCtrlWritten v k (putBits w 31 1 (cfg v c 31 1))
      = if decide (cfg v c 31 1 = 1) && ((bit w 23 && adcTrigger (adcStored v now k c) k == 0) || adcTrigger (adcStored v now k c) k == 2)
        then adcBegin (adcStored v now k c) k else adcStored v now k c := by
    simp only [adcCtrlWritten, hon, hstart, hnow, adcStored, Bool.and_eq_true, decide_eq_true_eq, beq_iff_eq, Bool.not_eq_true',
      decide_eq_false_iff_not, and_assoc]
  rw [hwritten]
  refine ⟨fun hb => if_pos (by simpa [adcBegins] using hb), fun hb => if_neg fun hg => hb (by simpa [adcBegins] using hg)⟩

/-- A write of ADC_CTRL stores the word, then its converter follows it. -/
theorem regWrite_adcCtrl {s : State} {a : RegAcc} {r : RegD} {k n c : Nat} (w : Nat) (ok : Bool)
    (hc : (c = rAdcCtrl0 ∧ k = 0) ∨ (c = rAdcCtrl1 ∧ k = 1)) (hl : lands s a = some (c, n, false))
    (hf : regFind s a.off = some (r, n, false)) :
    regWrite s a w ok = adcCtrlWritten (storeWord s r a.off w (heldBits s c n)) k
      (putBits w 31 1 (cfg (storeWord s r a.off w (heldBits s c n)) c 31 1)) := by
  obtain ⟨r', hf', hr, hw, hcanon⟩ := regFind_of_lands hl (by rcases hc with ⟨rfl, -⟩ | ⟨rfl, -⟩ <;> decide)
  obtain rfl : r' = r := congrArg Prod.fst (Option.some.inj (hf'.symm.trans hf))
  obtain ⟨rfl, rfl⟩ | ⟨rfl, rfl⟩ := hc <;> simp +decide [regWrite, hf, hr, hw, regFunction, hcanon, afterStore]

/-! #### TWI_UNFENCE (R370) -/

theorem regWrite_twiStatus {s : State} {a : RegAcc} {n : Nat} (w : Nat) (ok : Bool)
    (hl : lands s a = some (rTwiStatus, n, false)) : regWrite s a w ok = if bit w 23 then unfenceWrite s n ok else s := by
  obtain ⟨r, hf, hr, hw, -⟩ := regFind_of_lands hl (by decide)
  simp +decide [regWrite, hf, hr, hw]

/-- Only the unfence bit, on a fenced port out of collapse, runs the check. -/
theorem unfence_nothing {s : State} {n w : Nat} (ok : Bool)
    (h : ¬(bit w 23 = true ∧ fenced s n = true ∧ s.psq.collapse = false)) :
    (if bit w 23 then unfenceWrite s n ok else s) = s := by
  cases hb : bit w 23 with
  | false => rfl
  | true =>
    refine (if_pos rfl).trans (if_pos ?_)
    simpa [hb, imp_iff_not_or] using h

theorem unfence_checks {s : State} {n w : Nat} (ok : Bool)
    (h : bit w 23 = true ∧ fenced s n = true ∧ s.psq.collapse = false) :
    (if bit w 23 then unfenceWrite s n ok else s) = if ok then unfence s n else fence s n := by
  obtain ⟨hb, hf, hcol⟩ := h
  simp [hb, unfenceWrite, hf, hcol]

/-! ### FUNC_MODE_SET and FUNC_MODE_QUERY (R66–R68) -/

theorem exec_funcModeSet {c : TrellisCmd} {s v : State} {e : InFlight} (h : started 0x0B00 c s = some (v, e)) :
    exec (.funcModeSet c) s = .next (cmdFuncModeSet e v) := congrArg _ (submit_of_started cmdFuncModeSet h)

theorem exec_funcModeQuery {c : TrellisCmd} {s v : State} {e : InFlight} (h : started 0x0B01 c s = some (v, e)) :
    exec (.funcModeQuery c) s = .next (cmdFuncModeQuery e v) := congrArg _ (submit_of_started cmdFuncModeQuery h)

/-- The issuer of a command owns the function it names. -/
abbrev ownsNamed (v : State) (e : InFlight) : Prop :=
  (func v (pByte e.cmd 24)).hasOwner = true ∧ (func v (pByte e.cmd 24)).owner.toNat = e.cmd.est

/-- The parameters of a FUNC_MODE_SET lie in their ranges. -/
def modeFormed (e : InFlight) : Prop :=
  pByte e.cmd 24 ≤ 10 ∧ pByte e.cmd 25 ≤ 1 ∧ pByte e.cmd 26 ≤ 1
    ∧ (pByte e.cmd 25 = 1 → 10 ≤ pNum e.cmd 28 4 ∧ pNum e.cmd 28 4 ≤ 60000)

/-- Another issuer owns the function a command names. -/
abbrev otherOwns (v : State) (e : InFlight) : Prop := (func v (pByte e.cmd 24)).hasOwner = true ∧ ¬ownsNamed v e

/-- A switch to hardware mode by the fabric manager or board management. -/
abbrev bossReturns (e : InFlight) : Prop := pByte e.cmd 25 = 0 ∧ (issClass e.cmd.est = 1 ∨ issClass e.cmd.est = 2)

/-- The owner sets a fallen function to host-assisted mode again. -/
abbrev asksAgain (v : State) (e : InFlight) : Prop :=
  pByte e.cmd 25 = 1 ∧ (func v (pByte e.cmd 24)).fell = true ∧ ownsNamed v e

/-- The function stands in the mode asked for. -/
abbrev modeStands (v : State) (e : InFlight) : Prop :=
  ((func v (pByte e.cmd 24)).mode = true ↔ pByte e.cmd 25 = 1) ∧ (func v (pByte e.cmd 24)).fell = false

section
variable {v : State} {e : InFlight}

theorem cmdFuncModeSet_bad_function (hf : 10 < pByte e.cmd 24) : cmdFuncModeSet e v = badParam v e.id 24 :=
  if_pos hf

theorem cmdFuncModeSet_bad_mode (hf : pByte e.cmd 24 ≤ 10) (hm : 1 < pByte e.cmd 25) :
    cmdFuncModeSet e v = badParam v e.id 25 := by
  simp [cmdFuncModeSet, Nat.not_lt.mpr hf, hm]

theorem cmdFuncModeSet_bad_policy (hf : pByte e.cmd 24 ≤ 10) (hm : pByte e.cmd 25 ≤ 1) (hp : 1 < pByte e.cmd 26) :
    cmdFuncModeSet e v = badParam v e.id 26 := by
  simp [cmdFuncModeSet, Nat.not_lt.mpr hf, Nat.not_lt.mpr hm, hp]

theorem cmdFuncModeSet_bad_watchdog (hf : pByte e.cmd 24 ≤ 10) (hm : pByte e.cmd 25 = 1) (hp : pByte e.cmd 26 ≤ 1)
    (hw : pNum e.cmd 28 4 < 10 ∨ 60000 < pNum e.cmd 28 4) : cmdFuncModeSet e v = badParam v e.id 28 := by
  simp [cmdFuncModeSet, Nat.not_lt.mpr hf, hm, Nat.not_lt.mpr hp, hw]

/-- The result of a command that left function `f` of `v` as `w` has it: both state bytes. -/
def modeResult (v : State) (e : InFlight) (w : State) : State :=
  endOk w e.id (le (stateByte w (pByte e.cmd 24)) 1 ++ le (stateByte v (pByte e.cmd 24)) 1)

/-- The switch that a FUNC_MODE_SET asks for. -/
def modeSwitch (v : State) (e : InFlight) : SwitchReq :=
  { assist := pByte e.cmd 25 == 1, auto := pByte e.cmd 26 == 1, watchdog := pNum e.cmd 28 4, issuer := e.cmd.est, cmd := some e.id,
    since := e.since,
    reason := if (func v (pByte e.cmd 24)).hasOwner = true ∧ (func v (pByte e.cmd 24)).owner.toNat ≠ e.cmd.est then 5 else 1 }

/-- The state in which the switch of a FUNC_MODE_SET pends. -/
def modePends (v : State) (e : InFlight) : State :=
  setJob (setFunc v (pByte e.cmd 24) { func v (pByte e.cmd 24) with pend := some (modeSwitch v e) }) e.id (.switch (pByte e.cmd 24))

section
variable (hformed : modeFormed e)
include hformed

/-- With its parameters in range a FUNC_MODE_SET meets the owner, then the pending switch, then the function's mode. -/
theorem cmdFuncModeSet_of_formed :
    let f := pByte e.cmd 24
    let x := func v f
    cmdFuncModeSet e v =
      if otherOwns v e ∧ ¬bossReturns e then conflict v e.id 0x04
      else if x.pend.isSome = true then conflict v e.id 0x03
      else if asksAgain v e then modeResult v e (setFunc v f { x with
        auto := pByte e.cmd 26 == 1, watchdog := pNum e.cmd 28 4,
        pend := if pByte e.cmd 26 = 1 then none
                else some { assist := true, auto := false, watchdog := pNum e.cmd 28 4, issuer := e.cmd.est } })
      else if modeStands v e then modeResult v e (if ownsNamed v e then setFunc v f { x with
        auto := pByte e.cmd 26 == 1, watchdog := pNum e.cmd 28 4, wdAt := v.now } else v)
      else if f = 7 ∧ v.hrv.replant = false then applySwitch (modePends v e) f else modePends v e := by
  obtain ⟨hf, hm, hp, hw⟩ := hformed
  have hwd : ¬(pByte e.cmd 25 == 1 && (decide (pNum e.cmd 28 4 < 10) || decide (60000 < pNum e.cmd 28 4))) = true := by
    simpa using hw
  have hmine : ((func v (pByte e.cmd 24)).hasOwner && (func v (pByte e.cmd 24)).owner.toNat == e.cmd.est) = true ↔ ownsNamed v e := by
    simp
  have hstands : ((pByte e.cmd 25 == 1) == (func v (pByte e.cmd 24)).mode && !(func v (pByte e.cmd 24)).fell) = true
      ↔ modeStands v e := by
    cases h : (func v (pByte e.cmd 24)).mode <;> simp [h]
  have hreason : (if (func v (pByte e.cmd 24)).hasOwner && !((func v (pByte e.cmd 24)).hasOwner
      && (func v (pByte e.cmd 24)).owner.toNat == e.cmd.est) then 5 else 1) = (modeSwitch v e).reason := by
    cases h : (func v (pByte e.cmd 24)).hasOwner <;> simp [modeSwitch, h]
  intro f x
  simp only [cmdFuncModeSet, if_neg (Nat.not_lt.mpr hf), if_neg (Nat.not_lt.mpr hm), if_neg (Nat.not_lt.mpr hp), if_neg hwd, hreason]
  refine if_congr ?_ rfl (if_congr Iff.rfl rfl (if_congr ?_ ?_ (if_congr hstands ?_ (if_congr ?_ rfl rfl))))
  · simp [imp_iff_not_or]
  · simp [and_assoc]
  · simp [modeResult, x, f]
  · simp [modeResult, x, f]
  · simp [f]

/-- A function of another owner is refused to any but the fabric manager and board management, and to them in assisted mode. -/
theorem cmdFuncModeSet_other_owner (ho : otherOwns v e)
    (h : pByte e.cmd 25 = 1 ∨ ¬(issClass e.cmd.est = 1 ∨ issClass e.cmd.est = 2)) :
    cmdFuncModeSet e v = conflict v e.id 0x04 := by
  have hboss : ¬bossReturns e := fun hb => h.elim (fun hm => by rw [hb.1] at hm; cases hm) (fun hn => hn hb.2)
  rw [cmdFuncModeSet_of_formed hformed]
  exact if_pos ⟨ho, hboss⟩

variable (howner : otherOwns v e → bossReturns e)
include howner

theorem cmdFuncModeSet_switch_pends (hp : (func v (pByte e.cmd 24)).pend.isSome = true) :
    cmdFuncModeSet e v = conflict v e.id 0x03 := by
  rw [cmdFuncModeSet_of_formed hformed]
  exact (if_neg fun h => h.2 (howner h.1)).trans (if_pos hp)

variable (hp : (func v (pByte e.cmd 24)).pend = none)
include hp

/-- An allowed command with no switch pending goes on to the mode. -/
theorem cmdFuncModeSet_of_allowed :
    let f := pByte e.cmd 24
    let x := func v f
    cmdFuncModeSet e v =
      if asksAgain v e then modeResult v e (setFunc v f { x with
        auto := pByte e.cmd 26 == 1, watchdog := pNum e.cmd 28 4,
        pend := if pByte e.cmd 26 = 1 then none
                else some { assist := true, auto := false, watchdog := pNum e.cmd 28 4, issuer := e.cmd.est } })
      else if modeStands v e then modeResult v e (if ownsNamed v e then setFunc v f { x with
        auto := pByte e.cmd 26 == 1, watchdog := pNum e.cmd 28 4, wdAt := v.now } else v)
      else if f = 7 ∧ v.hrv.replant = false then applySwitch (modePends v e) f else modePends v e := by
  rw [cmdFuncModeSet_of_formed hformed]
  exact (if_neg fun h => h.2 (howner h.1)).trans (if_neg (by simp [hp]))

theorem cmdFuncModeSet_again (ha : asksAgain v e) :
    cmdFuncModeSet e v = modeResult v e (setFunc v (pByte e.cmd 24) { func v (pByte e.cmd 24) with
      auto := pByte e.cmd 26 == 1, watchdog := pNum e.cmd 28 4,
      pend := if pByte e.cmd 26 = 1 then none
              else some { assist := true, auto := false, watchdog := pNum e.cmd 28 4, issuer := e.cmd.est } }) := by
  rw [cmdFuncModeSet_of_allowed hformed howner hp]
  exact if_pos ha

variable (ha : ¬asksAgain v e)
include ha

/-- Where the mode stands, its owner sets policy and watchdog; for another nothing changes. -/
theorem cmdFuncModeSet_stands (hs : modeStands v e) :
    cmdFuncModeSet e v = modeResult v e (if ownsNamed v e then setFunc v (pByte e.cmd 24) { func v (pByte e.cmd 24) with
      auto := pByte e.cmd 26 == 1, watchdog := pNum e.cmd 28 4, wdAt := v.now } else v) := by
  rw [cmdFuncModeSet_of_allowed hformed howner hp]
  exact (if_neg ha).trans (if_pos hs)

/-- A switch pends until the quiescent point, where REPLANT stands at once while no replant runs (Table 2.10). -/
theorem cmdFuncModeSet_switches (hs : ¬modeStands v e) :
    cmdFuncModeSet e v = if pByte e.cmd 24 = 7 ∧ v.hrv.replant = false then applySwitch (modePends v e) (pByte e.cmd 24)
      else modePends v e := by
  rw [cmdFuncModeSet_of_allowed hformed howner hp]
  exact (if_neg ha).trans (if_neg hs)

end

theorem cmdFuncModeQuery_all (hf : pByte e.cmd 24 = 0xFF) : cmdFuncModeQuery e v = endOk v e.id
    ((List.range 11).map (fun k => BitVec.ofNat 8 (stateByte v k)) ++ zeros 1 ++ le (permMask v) 2) :=
  if_pos (by simpa using hf)

theorem cmdFuncModeQuery_bad_function (hf : 10 < pByte e.cmd 24) (hall : pByte e.cmd 24 ≠ 0xFF) :
    cmdFuncModeQuery e v = badParam v e.id 24 := by
  simp [cmdFuncModeQuery, hf, hall]

theorem cmdFuncModeQuery_one (hf : pByte e.cmd 24 ≤ 10) :
    let x := func v (pByte e.cmd 24)
    cmdFuncModeQuery e v = endOk v e.id (le (stateByte v (pByte e.cmd 24)) 1 ++ zeros 1
      ++ le (if x.hasOwner then x.owner.toNat else 0) 2 ++ le x.watchdog 4) := by
  simp [cmdFuncModeQuery, Nat.not_lt.mpr hf, show pByte e.cmd 24 ≠ 255 by omega]

end

/-- Settles O60: each row by its rule above; the two commands by their checks in order, then by the mode of the function. -/
theorem functionsBusesAndConverters : Obligations.FunctionsBusesAndConverters := by
  refine ⟨fun f t s u hu => ⟨exec_quiescentPointSwitch hu f, exec_funcSwitchTimeout_nothing hu, fun p id => exec_funcSwitchTimeout hu⟩,
    fun x y t s u hu => ⟨exec_loadWindowEnd_nothing hu, exec_loadWindowEnd hu⟩,
    fun t s u hu => ⟨exec_loadLevelFall hu, exec_loadLevelFall_nothing hu⟩,
    fun t s u hu => ⟨exec_autoReturn_nothing hu, exec_autoReturn hu⟩,
    fun n t r d s u hu => ?_, fun n t s u hu => ?_, fun n t still s u hu => ?_, fun e t words ok s u hu => ?_, fun k t s u hu => ?_,
    fun k t uv s u hu => ?_, fun a w t k n c r s u hu hc hl hf => ?_, fun a w t n ok s u hu hl => ?_, fun c s v e h => ?_,
    fun c s v e h => ?_⟩
  · refine ⟨exec_twiTransactionDone_nothing hu, fun x hc hup hsp => ⟨exec_twiTransactionDone hu hc hup hsp,
      exec_twiTransactionDone hu hc hup hsp, exec_twiTransactionDone hu hc hup hsp, fun hpec => ?_, fun hpec => ?_⟩,
      exec_twiRetry_nothing hu, fun x hc => exec_twiRetry hu hc⟩
    · exact (exec_twiTransactionDone hu hc hup hsp).trans (congrArg _ (if_pos hpec))
    · exact (exec_twiTransactionDone hu hc hup hsp).trans (congrArg _ (if_neg hpec))
  · refine ⟨fun h => (exec_bus_of_not_live hu true h).1, exec_arbitrationLost_counts hu, fun x hlive hc hsp => ⟨fun hfew => ?_,
      fun hmany => ?_⟩⟩
    · exact (exec_arbitrationLost hu hlive hc hsp).trans (congrArg _ (if_pos hfew))
    · exact (exec_arbitrationLost hu hlive hc hsp).trans (congrArg _ (if_neg (Nat.not_lt.mpr hmany)))
  · refine ⟨exec_clockLowTimeout_nothing hu, fun hlow hstill => ?_, fun hlow hstill => ?_, fun h => (exec_bus_of_not_live hu still h).2,
      fun hlive hstill => ?_, fun hlive hstill => ?_⟩
    · exact (exec_clockLowTimeout hu hlow.1 hlow.2).trans (congrArg _ (if_pos hstill))
    · exact (exec_clockLowTimeout hu hlow.1 hlow.2).trans (congrArg _ (if_neg (Bool.not_eq_true _ ▸ hstill)))
    · rw [hstill, exec_busClear_fails hu hlive]
    · rw [hstill, exec_busClear hu hlive]
  · refine ⟨exec_pmbusPoll_nothing hu words ok, fun hdue hok => ?_, fun hdue hok => ?_⟩
    · exact (exec_pmbusPoll hu words ok hdue).trans (congrArg _ (if_neg (Bool.not_eq_true _ ▸ hok)))
    · exact (exec_pmbusPoll hu words ok hdue).trans (congrArg _ (if_pos hok))
  · refine ⟨exec_adcTimerTrigger_nothing hu, fun hdue hskip => ?_, fun hdue hbusy hheld => ?_⟩
    · exact (exec_adcTimerTrigger hu hdue).trans (congrArg _ (if_pos (by simpa using hskip)))
    · refine (exec_adcTimerTrigger hu hdue).trans (congrArg _ (if_neg ?_))
      rw [hbusy, hheld]
      decide
  · exact ⟨exec_adcConversionDone_nothing hu, exec_adcConversionDone_stops hu, fun e h hs => exec_adcConversionDone_goes_on hu h hs,
      exec_adcConversionDone_ends hu⟩
  · have hrow : ∀ {y}, adcCtrlWritten (storeWord u r a.off w (heldBits u c n)) k
        (putBits w 31 1 (cfg (storeWord u r a.off w (heldBits u c n)) c 31 1)) = y →
        directWrite a w true (tick s t) = landed a true w y := fun hy =>
      directWrite_of_lands hu hl ((regWrite_adcCtrl w true hc hl hf).trans hy)
    obtain ⟨hbegins, hrests⟩ := adcCtrlWritten_stored k c w (storeWord_now u r a.off w (heldBits u c n))
    exact ⟨fun hb => ⟨congrArg _ (hrow (hbegins hb)), congrArg _ (hrow (hbegins hb))⟩,
      fun hb => ⟨congrArg _ (hrow (hrests hb)), congrArg _ (hrow (hrests hb))⟩⟩
  · refine ⟨fun hn => ?_, fun hfree hok => ?_, fun hfree hok => ?_⟩
    · exact congrArg _ (directWrite_of_lands hu hl ((regWrite_twiStatus w ok hl).trans (unfence_nothing ok hn)))
    · exact congrArg _ (directWrite_of_lands hu hl ((regWrite_twiStatus w ok hl).trans ((unfence_checks ok hfree).trans (if_pos hok))))
    · exact congrArg _ (directWrite_of_lands hu hl ((regWrite_twiStatus w ok hl).trans
        ((unfence_checks ok hfree).trans (if_neg (Bool.not_eq_true _ ▸ hok)))))
  · rw [exec_funcModeSet h]
    refine ⟨fun hf => congrArg _ (cmdFuncModeSet_bad_function hf), fun hf hm => congrArg _ (cmdFuncModeSet_bad_mode hf hm),
      fun hf hm hp => congrArg _ (cmdFuncModeSet_bad_policy hf hm hp),
      fun hf hm hp hw => congrArg _ (cmdFuncModeSet_bad_watchdog hf hm hp hw),
      fun hformed ho hb => congrArg _ (cmdFuncModeSet_other_owner hformed ho hb),
      fun hformed ho hp => congrArg _ (cmdFuncModeSet_switch_pends hformed ho hp),
      fun ⟨hformed, ho, hp⟩ ha => congrArg _ (cmdFuncModeSet_again hformed ho hp ha),
      fun ⟨hformed, ho, hp⟩ ha hs hmine => ?_, fun ⟨hformed, ho, hp⟩ ha hs hmine => ?_, fun ⟨hformed, ho, hp⟩ ha hs => ⟨fun h7 hr => ?_,
        fun hn => ?_⟩⟩
    · rw [cmdFuncModeSet_stands hformed ho hp ha hs]
      exact congrArg (fun w => Host.Outcome.next (modeResult v e w)) (if_pos hmine)
    · rw [cmdFuncModeSet_stands hformed ho hp ha hs]
      exact congrArg (fun w => Host.Outcome.next (modeResult v e w)) (if_neg hmine)
    · rw [cmdFuncModeSet_switches hformed ho hp ha hs]
      exact congrArg _ (if_pos ⟨h7, hr⟩)
    · rw [cmdFuncModeSet_switches hformed ho hp ha hs]
      exact congrArg _ (if_neg fun h => hn.elim (fun h7 => h7 h.1) (fun hr => Bool.false_ne_true (h.2.symm.trans hr)))
  · rw [exec_funcModeQuery h]
    exact ⟨fun hf => congrArg _ (cmdFuncModeQuery_all hf), fun hf hall => congrArg _ (cmdFuncModeQuery_bad_function hf hall),
      fun hf => congrArg _ (cmdFuncModeQuery_one hf)⟩

end Sys2Proof.Machine

/-! The bytes of host memory (R69, R102): what a read gives after a write of several bytes, and what an applied write changes
(R91, R93). -/

namespace Sys2Proof.Machine

open Sys2Proof

/-! ### Reads after writes -/

/-- Each address of the bytes written reads its byte, every other one as before. -/
theorem mread_mwriteN {m : List Host.Cell} (h : Memory.wf m = true) (a : Nat) (l : List Byte) (x : Nat) :
    mread (mwriteN m a l) x = if a ≤ x ∧ x < a + l.length then l.getD (x - a) 0#8 else mread m x := by
  induction l generalizing m a with
  | nil => rw [if_neg (by simp only [List.length_nil]; omega), mwriteN]
  | cons b r ih =>
    rw [mwriteN, ih (memWf_mwrite a b h), mread_mwrite h, List.length_cons]
    by_cases hx : x = a
    · subst hx
      rw [if_neg (by omega), if_pos rfl, if_pos (by omega), Nat.sub_self, List.getD_cons_zero]
    · have hin : a + 1 ≤ x ∧ x < a + 1 + r.length ↔ a ≤ x ∧ x < a + (r.length + 1) := by omega
      rw [if_neg hx, ← List.getD_cons_succ (x := b), if_congr hin rfl rfl]
      split
      · rw [show x - (a + 1) + 1 = x - a by omega]
      · rfl

/-- The same with byte enables: bit `i` enables byte `i`. -/
theorem mread_mwriteEn {m : List Host.Cell} (h : Memory.wf m = true) (a : Nat) (l : List Byte) (en x : Nat) :
    mread (mwriteEn m a l en) x
      = if a ≤ x ∧ x < a + l.length ∧ en.testBit (x - a) = true then l.getD (x - a) 0#8 else mread m x := by
  induction l generalizing m a en with
  | nil => rw [if_neg (by simp only [List.length_nil]; omega), mwriteEn]
  | cons b r ih =>
    have hw : Memory.wf (if en % 2 = 1 then mwrite m a b else m) = true := by
      split
      · exact memWf_mwrite a b h
      · exact h
    have hfirst : mread (if en % 2 = 1 then mwrite m a b else m) x = if x = a ∧ en % 2 = 1 then b else mread m x := by
      by_cases hen : en % 2 = 1
      · simp only [hen, if_true, and_true, mread_mwrite h]
      · simp only [hen, if_false, and_false]
    rw [mwriteEn, ih hw, hfirst, List.length_cons]
    by_cases hx : x = a
    · subst hx
      rw [if_neg (by omega), Nat.sub_self, List.getD_cons_zero]
      simp [Nat.testBit_zero]
    · obtain hlow | hhigh := Nat.lt_or_gt_of_ne hx
      · rw [if_neg (by omega), if_neg (fun e => hx e.1), if_neg (by omega)]
      · obtain ⟨k, rfl⟩ := Nat.exists_eq_add_of_lt hhigh
        have hk : a + k + 1 - (a + 1) = k := by omega
        have hk1 : a + k + 1 - a = k + 1 := by omega
        have hin : a + 1 ≤ a + k + 1 ∧ a + k + 1 < a + 1 + r.length ↔ a ≤ a + k + 1 ∧ a + k + 1 < a + (r.length + 1) := by omega
        rw [hk, hk1, Nat.testBit_succ, List.getD_cons_succ, if_neg (fun e : _ ∧ _ => hx e.1)]
        simp only [← and_assoc, hin]

/-- Unlisted addresses read as the default, listed ones as before. -/
theorem mread_filter (p : Nat → Bool) (m : List Host.Cell) (x : Nat) :
    mread (m.filter (fun c => p c.1)) x = if p x = true then mread m x else memDefault := by
  induction m with
  | nil => simp [mread]
  | cons c r ih =>
    obtain ⟨j, b⟩ := c
    by_cases hj : j = x
    · subst hj
      by_cases hp : p j = true
      · simp [hp, mread]
      · simp [hp, ih]
    · by_cases hp : p j = true
      · simp only [List.filter_cons, hp, if_true, mread, if_neg hj, ih]
      · simp [hp, mread, if_neg hj, ih]

/-- A cleared range reads as zero. -/
theorem mread_mclear (m : List Host.Cell) (a k x : Nat) :
    mread (mclear m a k) x = if a ≤ x ∧ x < a + k then 0#8 else mread m x := by
  rw [mclear, mread_filter (fun j => !(a ≤ j && j < a + k))]
  by_cases h : a ≤ x ∧ x < a + k
  · simp [h, memDefault]
  · have : ¬(decide (a ≤ x) && decide (x < a + k)) = true := by simpa using h
    simp [h, this]

/-- Settles O9, from the reads after each of the three operations. -/
theorem hostMemoryReadAfterWrite : Obligations.HostMemoryReadAfterWrite :=
  ⟨fun _ a l h => ⟨memWf_mwriteN a l h, mread_mwriteN h a l⟩, fun _ a en l h => ⟨memWf_mwriteEn a l en h, mread_mwriteEn h a l en⟩,
    fun m a k h => ⟨memWf_mclear a k h, mread_mclear m a k⟩, fun _ => rfl⟩

/-! ### A line of memory -/

theorem mem_sins (l : List Nat) (k j : Nat) : j ∈ sins l k ↔ j = k ∨ j ∈ l := by
  induction l with
  | nil => simp [sins]
  | cons i r ih =>
    simp only [sins]
    split
    · simp
    · split
      · rename_i _ h
        simp [h]
      · simp only [List.mem_cons, ih]
        exact or_left_comm

theorem not_mem_sdel (l : List Nat) (k : Nat) : k ∉ sdel l k := by
  simp [sdel]

theorem getD_mreadN (m : List Host.Cell) (a : Nat) {k i : Nat} (h : i < k) : (mreadN m a k).getD i 0#8 = mread m (a + i) := by
  induction k generalizing a i with
  | zero => exact absurd h (Nat.not_lt_zero i)
  | succ k ih =>
    cases i with
    | zero => rfl
    | succ i => rw [mreadN, List.getD_cons_succ, ih (a + 1) (Nat.lt_of_succ_lt_succ h), Nat.add_right_comm, Nat.add_assoc]

/-- The bytes of a merge: the new ones where enabled, the old ones elsewhere. -/
theorem getD_mergeBytes (old new : List Byte) (en : Nat) {i : Nat} (h : i < 64) :
    (mergeBytes old new en).getD i 0#8 = if en.testBit i then new.getD i 0#8 else old.getD i 0#8 := by
  simp [mergeBytes, List.getD_eq_getElem?_getD, h]

/-- The bytes a line is stored as. -/
def storedBytes (d : List Byte) (pois : Bool) : List Byte := if pois then zeros 64 else padTo d 64

theorem length_storedBytes (d : List Byte) (pois : Bool) : (storedBytes d pois).length = 64 := by
  cases pois
  · exact length_padTo d 64
  · exact List.length_replicate

/-- A stored line: its cells and its poison, whatever its granule's entry becomes. -/
theorem storeLine_mem (s : State) (l : Nat) (d : List Byte) (pois : Bool) :
    (storeLine s l d pois).mem.cells = mwriteN s.mem.cells (64 * l) (storedBytes d pois)
      ∧ (storeLine s l d pois).mem.poison = if pois then sins s.mem.poison l else sdel s.mem.poison l := by
  simp only [storeLine]
  split <;> exact ⟨rfl, rfl⟩

/-- A write to a line whose old content is not uncorrectable stores the merged line. -/
theorem applyLine_mem {s : State} {n l : Nat} {data : List Byte} {en : BitVec 64} {pois : Bool}
    (hue : s.mem.ueLines.contains l = false) :
    let v := mergeLine (lineBytes s l, poisoned s l) data en pois
    (applyLine s n l data en pois).mem.cells = mwriteN s.mem.cells (64 * l) (storedBytes v.1 v.2)
      ∧ (applyLine s n l data en pois).mem.poison = if v.2 then sins s.mem.poison l else sdel s.mem.poison l := by
  have hw : ∀ d p, writeLine s l d p = storeLine s l d p := fun d p => if_neg (by rw [hue]; exact Bool.false_ne_true)
  have happly : (applyLine s n l data en pois).mem
      = (storeLine s l (mergeLine (lineBytes s l, poisoned s l) data en pois).1
          (mergeLine (lineBytes s l, poisoned s l) data en pois).2).mem := by
    rw [applyLine, hue, Bool.or_false, hw]
    rfl
  rw [happly]
  exact storeLine_mem s l _ _

/-- Settles O39: an applied write stores the merge of the line's bytes and the enabled ones, or the line as poisoned. -/
theorem appliedWriteChangesItsLineOnly : Obligations.AppliedWriteChangesItsLineOnly := by
  intro s n l data en pois hwf hue hlen w
  obtain ⟨hcells, hpoison⟩ := applyLine_mem (n := n) (data := data) (en := en) (pois := pois) hue
  have hread := fun x => mread_mwriteN hwf (64 * l)
    (storedBytes (mergeLine (lineBytes s l, poisoned s l) data en pois).1 (mergeLine (lineBytes s l, poisoned s l) data en pois).2) x
  simp only [length_storedBytes] at hread
  refine ⟨?_, fun b hb => ?_, fun hp hfull => ?_, fun hp => ?_⟩
  · rw [hcells]
    exact memWf_mwriteN _ _ hwf
  · rw [hcells, hread, if_neg (by omega)]
  · have hmerge : mergeLine (lineBytes s l, poisoned s l) data en pois = (mergeBytes (lineBytes s l) data en.toNat, false) := by
      rcases hfull with h | h <;> simp [mergeLine, hp, h]
    rw [hmerge] at hcells hpoison hread
    refine ⟨?_, fun k hk => ?_⟩
    · have hout : l ∉ w.mem.poison := by
        rw [hpoison]
        exact not_mem_sdel s.mem.poison l
      simpa [poisoned] using hout
    · rw [hcells, hread, if_pos (by omega), Nat.add_sub_cancel_left]
      calc (storedBytes (mergeBytes (lineBytes s l) data en.toNat) false).getD k 0#8
          = if en.toNat.testBit k then data.getD k 0#8 else (lineBytes s l).getD k 0#8 :=
            (getD_padTo hk).trans (getD_mergeBytes _ _ _ hk)
        _ = _ := by rw [lineBytes, getD_mreadN _ _ hk, BitVec.testBit_toNat]
  · have hmerge : (mergeLine (lineBytes s l, poisoned s l) data en pois).2 = true := by
      rcases hp with h | ⟨h, he⟩
      · simp [mergeLine, h]
      · simp [mergeLine, h, he]
    have hin : l ∈ w.mem.poison := by
      rw [hpoison, hmerge]
      exact (mem_sins s.mem.poison l l).mpr (.inl rfl)
    simpa [poisoned] using hin

end Sys2Proof.Machine

/-! The mailbox of a logical device (R78–R80, R93, R94, R100), the fabric-manager API (R72, R74), the SPDM responder and IDE_KM
(R98, R99). -/

namespace Sys2Proof.Machine

open Sys2Proof

/-! ### What is set is kept (R94, R100) -/

/-- Where the mailbox is, a row of effect `f` sends what `f` answers. -/
theorem mboxRun_answers {m : MboxReq} {t : Nat} {s u w : State} {f : State → State × Nat × List Byte} {code : Nat}
    {l : List Byte} (hu : u = tick s t) (h : mboxHere u m = true) (hf : f u = (w, code, l)) :
    (Host.Outcome.next (mboxRun m t f s) : Host.Outcome State Fault Refusal) = .next (emit w (.mbox m.port m.issuer code l)) := by
  rw [mboxRun_of_here f hu h, hf]

@[simp] theorem mboxOf_setMbox_same (s : State) (m : MboxReq) (x : Mbox) : mboxOf (setMbox s m x) m = x := by
  simp [mboxOf, setMbox, tgetD]

/-- Settles O31: each Set keeps what it carries where its length is right, and each Get reads what is kept. -/
theorem mailboxKeepsWhatIsSet : Obligations.MailboxKeepsWhatIsSet := by
  intro m t s u hu h
  refine ⟨mboxRun_answers hu h rfl, fun hl => mboxRun_answers hu h (if_pos (by simpa using hl)),
    fun h4 h5 => mboxRun_answers hu h (if_neg (by simp [h4, h5])), fun hz => ?_, fun hz => ?_,
    fun hl => mboxRun_answers hu h (if_pos (by simpa using hl)), fun hl => mboxRun_answers hu h (if_neg (by simpa using hl)),
    mboxRun_answers hu h rfl, mboxRun_answers hu h rfl, fun hl => mboxRun_answers hu h (if_pos (by simpa using hl)),
    fun hl => mboxRun_answers hu h (if_neg (by simpa using hl)), mboxRun_answers hu h rfl, fun b hb => ?_,
    fun hl => mboxRun_answers hu h (if_neg (by simpa using hl)), mboxOf_setMbox_same u m _⟩
  · have htime : mboxTime u m = 0 := if_pos (by simpa using hz)
    exact mboxRun_answers hu h (by rw [htime]; rfl)
  · have htime : mboxTime u m = ((mboxOf u m).timestamp.toNat + 1000 * (u.now - (mboxOf u m).tsSetAt)) % 2 ^ 64 :=
      if_neg (by simpa using hz)
    exact mboxRun_answers hu h (by rw [htime]; rfl)
  · exact mboxRun_answers hu h (by simp [hb, mbOk])

/-! ### Event records (R100) -/

section
variable {m : MboxReq} {u : State}

theorem getEvents_bad_length (hl : m.input.length ≠ 1) : getEvents m u = mbErr u 0x16 := if_pos (by simpa using hl)

theorem getEvents_bad_log (hl : m.input.length = 1) (hlg : 4 < rd m.input 0 1) : getEvents m u = mbErr u 2 := by
  simp [getEvents, hl, hlg]

theorem getEvents_of_log (hl : m.input.length = 1) (hlg : rd m.input 0 1 ≤ 4) :
    let logged := (mboxOf u m).events.filter (fun e => e.log == rd m.input 0 1)
    getEvents m u = mbOk (drew u)
      (overlay (overlay (zeros 32) 0 [if 511 < logged.length then 2#8 else 0#8]) 20 (le (logged.take 511).length 2)
        ++ (logged.take 511).flatMap (eventBytes u)) :=
  (if_neg (by simpa using hl)).trans (if_neg (Nat.not_lt.mpr hlg))

theorem clearEvents_bad_length
    (hl : m.input.length < 6 ∨ (rd m.input 1 1 % 2 = 0 ∧ m.input.length ≠ 6 + 2 * rd m.input 2 1)) :
    clearEvents m u = mbErr u 0x16 := if_pos (by simpa using hl)

section
variable (hlen : 6 ≤ m.input.length) (hform : rd m.input 1 1 % 2 = 0 → m.input.length = 6 + 2 * rd m.input 2 1)
include hlen hform

/-- An input of a right length passes the first check. -/
theorem clearEvents_formed :
    ¬(decide (m.input.length < 6) || (rd m.input 1 1 % 2 == 0 && m.input.length != 6 + 2 * rd m.input 2 1)) = true := by
  simpa [Nat.not_lt.mpr hlen] using hform

theorem clearEvents_bad_log (hlg : 4 < rd m.input 0 1) : clearEvents m u = mbErr u 2 := by
  rw [clearEvents, if_neg (clearEvents_formed hlen hform), if_pos hlg]

variable (hlg : rd m.input 0 1 ≤ 4)
include hlg

theorem clearEvents_all (hall : rd m.input 1 1 % 2 = 1) : clearEvents m u
    = mbOk (setMbox u m { mboxOf u m with events := (mboxOf u m).events.filter (fun e => e.log != rd m.input 0 1) }) [] := by
  rw [clearEvents, if_neg (clearEvents_formed hlen hform), if_neg (Nat.not_lt.mpr hlg), if_pos (by simpa using hall)]

/-- Handles must be those of the oldest records of the log. -/
theorem clearEvents_of_handles (hsome : rd m.input 1 1 % 2 = 0) :
    let lg := rd m.input 0 1
    let n := rd m.input 2 1
    let hs := (List.range n).map (fun i => rd m.input (6 + 2 * i) 2)
    let old := ((eventsIn (mboxOf u m) lg).take n).map (·.handle)
    clearEvents m u = if hs.all old.contains && old.all hs.contains && old.length == n then
        mbOk (setMbox u m { mboxOf u m with
          events := (mboxOf u m).events.filter (fun e => !(e.log == lg && hs.contains e.handle)) }) []
      else mbErr u 0x0E := by
  rw [clearEvents, if_neg (clearEvents_formed hlen hform), if_neg (Nat.not_lt.mpr hlg), if_neg (by simp [hsome])]

end

/-! ### Poison (R93, R94) -/

theorem getPoison_bad_length (hl : m.input.length ≠ 16) : getPoison m u = mbErr u 0x16 := if_pos (by simpa using hl)

theorem getPoison_of_length (hl : m.input.length = 16) :
    let lo := rd m.input 0 8
    let hi := lo + 64 * rd m.input 8 8
    let all := poisonOf u m.issuer
    let l := (all.take 4096).filter (fun e => lo < e.1 + 64 * e.2 && e.1 < hi)
    getPoison m u = mbOk u (overlay (overlay (zeros 32) 0 [if 4096 < all.length then 2#8 else 0#8])
      10 (le l.length 2) ++ l.flatMap (fun e => le e.1 8 ++ le e.2 4 ++ zeros 4)) :=
  if_neg (by simpa using hl)

/-- The write that a poison command makes for its host: its line, every byte enabled. -/
def poisonWrite (m : MboxReq) (data : List Byte) (poison : Bool) : MemReq :=
  { port := m.port, issuer := m.issuer, dpa := rd m.input 0 8, data := data, enables := BitVec.ofNat 64 (2 ^ 64 - 1),
    poison := poison }

theorem mboxWrite_not_writable {data : List Byte} {poison : Bool} {k : Nat}
    (hk : classify u (poisonWrite m data poison) false = .error k) : mboxWrite m data poison u = mbErr u 0x0F := by
  rw [poisonWrite] at hk
  rw [mboxWrite, hk]

theorem mboxWrite_writable {data : List Byte} {poison : Bool} {x : Nat × Allot}
    (hx : classify u (poisonWrite m data poison) false = .ok x) : mboxWrite m data poison u
      = mbOk (tryWrite (numbered u) { n := u.drp.nextWrite, req := poisonWrite m data poison, since := u.now, gone := true }) [] := by
  rw [poisonWrite] at hx
  rw [mboxWrite, hx, poisonWrite]

end

/-- Settles O32: each row by its lemmas above; the two poison commands are one write of the device. -/
theorem eventRecordsAndPoison : Obligations.EventRecordsAndPoison := by
  intro m t s u hu h say lg logged
  refine ⟨fun hl => mboxRun_answers hu h (getEvents_bad_length hl), fun hl hlg => mboxRun_answers hu h (getEvents_bad_log hl hlg),
    fun hl hlg => mboxRun_answers hu h (getEvents_of_log hl hlg), fun hl => mboxRun_answers hu h (clearEvents_bad_length hl),
    fun hlen hform => ⟨fun hlg => mboxRun_answers hu h (clearEvents_bad_log hlen hform hlg),
      fun hlg hall => mboxRun_answers hu h (clearEvents_all hlen hform hlg hall), fun hlg hsome => ?_⟩,
    fun hl => mboxRun_answers hu h (getPoison_bad_length hl), fun hl => mboxRun_answers hu h (getPoison_of_length hl),
    fun hl => mboxRun_answers hu h (if_neg (by simpa using hl)), fun hl => mboxRun_answers hu h (if_neg (by simpa using hl)),
    fun k hl hk => ?_, fun x hl hx => ?_, fun k hl hk => ?_, fun x hl hx => ?_⟩
  · have hclear := clearEvents_of_handles (u := u) hlen hform hlg hsome
    exact ⟨fun hold => mboxRun_answers hu h (hclear.trans (if_pos hold)),
      fun hold => mboxRun_answers hu h (hclear.trans (if_neg (Bool.eq_false_iff.mp hold)))⟩
  · exact mboxRun_answers hu h ((if_pos (by simpa using hl)).trans (mboxWrite_not_writable hk))
  · exact mboxRun_answers hu h ((if_pos (by simpa using hl)).trans (mboxWrite_writable hx))
  · exact mboxRun_answers hu h ((if_pos (by simpa using hl)).trans (mboxWrite_not_writable hk))
  · exact mboxRun_answers hu h ((if_pos (by simpa using hl)).trans (mboxWrite_writable hx))

/-! ### Dynamic capacity (R78–R80) -/

section
variable {m : MboxReq} {u : State}

theorem getDcConfig_bad_length (hl : m.input.length ≠ 2) : getDcConfig m u = mbErr u 0x16 := if_pos (by simpa using hl)

theorem getDcConfig_bad_start (hl : m.input.length = 2) (hs : rd m.input 1 1 ≠ 0) : getDcConfig m u = mbErr u 2 := by
  simp [getDcConfig, hl, hs]

/-- One region is reported where any is asked for. -/
theorem getDcConfig_of_start (hl : m.input.length = 2) (hs : rd m.input 1 1 = 0) :
    let free := padTo (Config.cxlResponse 0x4800 m.input u.draws) 64
    (rd m.input 0 1 = 0 → getDcConfig m u = mbOk (drew u) ([1#8, 0#8] ++ zeros 6 ++ slice free 8 16))
      ∧ (0 < rd m.input 0 1 → getDcConfig m u = mbOk (drew u) ([1#8, 1#8] ++ zeros 6
          ++ (le 0 8 ++ le 0x40000 8 ++ le 0x400000000000 8 ++ le 0x10000000 8 ++ slice free 0 8) ++ slice free 8 16)) := by
  refine ⟨fun h0 => ?_, fun h1 => ?_⟩
  · simp [getDcConfig, hl, hs, h0, le]
  · have hn : min 1 (rd m.input 0 1) = 1 := Nat.min_eq_left h1
    simp [getDcConfig, hl, hs, hn, le]

theorem getDcExtents_bad_length (hl : m.input.length ≠ 8) : getDcExtents m u = mbErr u 0x16 := if_pos (by simpa using hl)

theorem getDcExtents_of_length (hl : m.input.length = 8) :
    let all := acceptedOf u m.issuer
    let l := (all.drop (rd m.input 4 4)).take (min (rd m.input 0 4) 1638)
    getDcExtents m u = mbOk (drew u) (le l.length 4 ++ le all.length 4
      ++ padTo (Config.cxlResponse 0x4801 m.input u.draws) 4 ++ zeros 4
      ++ l.flatMap (fun e => le e.1 8 ++ le e.2.1 8 ++ e.2.2 ++ zeros 8)) :=
  if_neg (by simpa using hl)

theorem dc_bad_list (hl : dcList m.input = none) : addDc m u = mbErr u 0x16 ∧ releaseDc m u = mbErr u 0x16 := by
  simp [addDc, releaseDc, hl]

end

/-- Settles O33: each row by its lemmas above; the two lists are taken whole or not at all. -/
theorem dynamicCapacityCommands : Obligations.DynamicCapacityCommands := by
  intro m t s u hu h say
  refine ⟨fun hl => mboxRun_answers hu h (getDcConfig_bad_length hl), fun hl hs => mboxRun_answers hu h (getDcConfig_bad_start hl hs),
    fun hl hs => ⟨fun h0 => mboxRun_answers hu h ((getDcConfig_of_start hl hs).1 h0),
      fun h1 => mboxRun_answers hu h ((getDcConfig_of_start hl hs).2 h1)⟩,
    fun hl => mboxRun_answers hu h (getDcExtents_bad_length hl), fun hl => mboxRun_answers hu h (getDcExtents_of_length hl),
    fun hl => ⟨mboxRun_answers hu h (dc_bad_list hl).1, mboxRun_answers hu h (dc_bad_list hl).2⟩,
    fun l hl => ?_⟩
  intro named offered holds take give
  have hadd : addDc m u = if offered = true then mbOk take [] else mbErr u 0x0F := by
    rw [addDc, hl] <;> rfl
  have hrelease : releaseDc m u = if holds = true then mbOk (judgeRelease give) [] else mbErr u 0x0F := by
    rw [releaseDc, hl] <;> rfl
  exact ⟨fun ho => mboxRun_answers hu h (hadd.trans (if_pos ho)),
    fun ho => mboxRun_answers hu h (hadd.trans (if_neg (Bool.eq_false_iff.mp ho))),
    fun ho => mboxRun_answers hu h (hrelease.trans (if_pos ho)),
    fun ho => mboxRun_answers hu h (hrelease.trans (if_neg (Bool.eq_false_iff.mp ho)))⟩

/-! ### The fabric-manager API (R72, R74) -/

/-- On the fabric-manager-owned logical device a row of effect `f` sends what `f` answers. -/
theorem fmRun_answers {m : MboxReq} {t : Nat} {s u w : State} {f : State → State × Nat × List Byte} {code : Nat}
    {l : List Byte} (hu : u = tick s t) (h : mboxHere u m = true) (hi : m.issuer = 0x1000 + m.port) (hf : f u = (w, code, l)) :
    (Host.Outcome.next (fmRun m t f s) : Host.Outcome State Fault Refusal) = .next (emit w (.mbox m.port m.issuer code l)) :=
  mboxRun_answers hu h ((if_pos (beq_iff_eq.mpr hi)).trans hf)

section
variable {m : MboxReq} {u : State}

/-- The count of logical devices: sixteen in multi-logical-device mode. -/
theorem ldCount_eq : ldCount u m = if (port u m.port).mode = 1 then 16 else 1 := by
  simp only [ldCount, beq_iff_eq]

theorem ldGet_bad_length (l : List Byte) (hl : m.input.length ≠ 2) : ldGet u m l = mbErr u 0x16 := if_pos (by simpa using hl)

theorem ldGet_beyond (l : List Byte) (hl : m.input.length = 2) (hn : ldCount u m < rd m.input 1 1 + rd m.input 0 1) :
    ldGet u m l = mbErr u 2 := by
  simp [ldGet, hl, hn]

theorem ldGet_within (l : List Byte) (hl : m.input.length = 2) (hn : rd m.input 1 1 + rd m.input 0 1 ≤ ldCount u m) :
    ldGet u m l = mbOk u (m.input ++ slice (padTo l 16) (rd m.input 1 1) (rd m.input 0 1)) := by
  simp [ldGet, hl, Nat.not_lt.mpr hn]

theorem ldSet_bad_length (l : List Byte) (hl : m.input.length ≠ 2 + rd m.input 0 1) : ldSet u m l = .error 0x16 :=
  if_pos (by simpa using hl)

theorem ldSet_beyond (l : List Byte) (hl : m.input.length = 2 + rd m.input 0 1)
    (hn : ldCount u m < rd m.input 1 1 + rd m.input 0 1) : ldSet u m l = .error 2 := by
  rw [ldSet, if_neg (by simpa using hl), if_pos hn]

theorem ldSet_within (l : List Byte) (hl : m.input.length = 2 + rd m.input 0 1)
    (hn : rd m.input 1 1 + rd m.input 0 1 ≤ ldCount u m) :
    ldSet u m l = .ok (overlay (padTo l 16) (rd m.input 1 1) (m.input.drop 2)) := by
  rw [ldSet, if_neg (by simpa using hl), if_neg (Nat.not_lt.mpr hn)]

variable {t : Nat} {s : State} (hu : u = tick s t) (h : mboxHere u m = true) (hi : m.issuer = 0x1000 + m.port)
include hu h hi

/-- Both Sets of one byte for each logical device where the bytes are not taken. -/
theorem exec_setQos_refused {e : Nat} (hset : ∀ l, ldSet u m l = .error e) :
    exec (.setQosAllocatedBandwidth m t) s = .next (emit u (.mbox m.port m.issuer e []))
      ∧ exec (.setQosBandwidthLimit m t) s = .next (emit u (.mbox m.port m.issuer e [])) :=
  ⟨fmRun_answers hu h hi (by rw [hset]; rfl), fmRun_answers hu h hi (by rw [hset]; rfl)⟩

end

/-- Settles O34: each row by its checks in order, on the count of logical devices of the port's mode. -/
theorem fabricManagerCommands : Obligations.FabricManagerCommands := by
  intro m t s u hu h hi say n p
  have hn : ldCount u m = n := ldCount_eq
  refine ⟨?_, fun hl => fmRun_answers hu h hi (if_pos (by simpa using hl)), fun hl hr => ?_, fun hl hr => ?_,
    fun hl => fmRun_answers hu h hi (if_pos (by simpa using hl)), fun hl hr => ?_, fun hl hr hz => ?_,
    fmRun_answers hu h hi rfl, fun hl => fmRun_answers hu h hi (if_pos (by simpa using hl)),
    fun hl => fmRun_answers hu h hi (if_neg (by simpa using hl)), fmRun_answers hu h hi rfl,
    fun hl => ⟨fmRun_answers hu h hi (ldGet_bad_length _ hl), fmRun_answers hu h hi (ldGet_bad_length _ hl)⟩,
    fun hl hr => ⟨fmRun_answers hu h hi (ldGet_beyond _ hl (hn ▸ hr)), fmRun_answers hu h hi (ldGet_beyond _ hl (hn ▸ hr))⟩,
    fun hl hr => ⟨fmRun_answers hu h hi (ldGet_within _ hl (hn ▸ hr)), fmRun_answers hu h hi (ldGet_within _ hl (hn ▸ hr))⟩,
    fun hl => exec_setQos_refused hu h hi (fun l => ldSet_bad_length l hl),
    fun hl hr => exec_setQos_refused hu h hi (fun l => ldSet_beyond l hl (hn ▸ hr)),
    fun hl hr => ⟨fmRun_answers hu h hi ?_, fmRun_answers hu h hi ?_⟩⟩
  · exact fmRun_answers hu h hi (by rw [hn]; rfl)
  · exact fmRun_answers hu h hi ((if_neg (by simpa using hl)).trans (if_pos (hn ▸ hr)))
  · exact fmRun_answers hu h hi (((if_neg (by simpa using hl)).trans (if_neg (hn ▸ Nat.not_le.mpr hr))).trans (by rw [hn]; rfl))
  · exact fmRun_answers hu h hi ((if_neg (by simpa using hl)).trans (if_pos (by simpa [hn] using hr)))
  · exact fmRun_answers hu h hi ((if_neg (by simpa using hl)).trans (if_neg (by simpa [hn, hz] using hr)))
  · rw [ldSet_within _ hl (hn ▸ hr)]
    rfl
  · rw [ldSet_within _ hl (hn ▸ hr)]
    rfl

/-! ### SPDM and IDE_KM (R98, R99) -/

section
variable {n code t : Nat} {data : List Byte} {ok : SpdmState → Bool} {f : SpdmState → SpdmState}
  {body : State → List Byte → List Byte} {s u : State} (hu : u = tick s t)
include hu

theorem spdmRun_of_down (hl : (port u n).link ≠ 2) : spdmRun n code t data ok f body s = u := by
  simp [spdmRun, ← hu, hl]

/-- A request whose step has been reached is answered by its response. -/
theorem spdmRun_in_order (hl : (port u n).link = 2) (hok : ok (port u n).spdm = true) : spdmRun n code t data ok f body s
    = emit (drew (setPort u n { port u n with spdm := f (port u n).spdm }))
        (.doe n ([0x12#8, BitVec.ofNat 8 (code - 0x80)] ++ body u (Config.spdmResponse code data u.draws))) := by
  simp [spdmRun, ← hu, hl, hok, le]

/-- A request out of order is answered with ERROR UnexpectedRequest. -/
theorem spdmRun_out_of_order (hl : (port u n).link = 2) (hok : ok (port u n).spdm = false) :
    spdmRun n code t data ok f body s = emit u (.doe n [0x12#8, 0x7F#8, 0x04#8, 0x00#8]) := by
  simp [spdmRun, ← hu, hl, hok]

/-- What an SPDM row does, from its step, its change of the responder and its body: down, in order and out of order. -/
theorem spdmRun_cases : ((port u n).link ≠ 2 → (Host.Outcome.next (spdmRun n code t data ok f body s) :
        Host.Outcome State Fault Refusal) = .next u)
    ∧ ((port u n).link = 2 → ok (port u n).spdm = true → (Host.Outcome.next (spdmRun n code t data ok f body s) :
        Host.Outcome State Fault Refusal) = .next (emit (drew (setPort u n { port u n with spdm := f (port u n).spdm }))
          (.doe n ([0x12#8, BitVec.ofNat 8 (code - 0x80)] ++ body u (Config.spdmResponse code data u.draws)))))
    ∧ ((port u n).link = 2 → ok (port u n).spdm = false → (Host.Outcome.next (spdmRun n code t data ok f body s) :
        Host.Outcome State Fault Refusal) = .next (emit u (.doe n [0x12#8, 0x7F#8, 0x04#8, 0x00#8]))) :=
  ⟨fun hl => congrArg _ (spdmRun_of_down hu hl), fun hl hok => congrArg _ (spdmRun_in_order hu hl hok),
    fun hl hok => congrArg _ (spdmRun_out_of_order hu hl hok)⟩

theorem exec_ideKm_nothing (h : (port u n).link ≠ 2 ∨ (port u n).spdm.session = false) :
    exec (.ideKm n data t) s = .next u := by
  subst hu
  exact congrArg Host.Outcome.next (if_pos (by simpa using h))

theorem exec_ideKm (hl : (port u n).link = 2) (hs : (port u n).spdm.session = true) : exec (.ideKm n data t) s
    = .next (emit (drew (setPort u n (ideKm (port u n) data))) (.doe n (Config.spdmResponse 0xFE data u.draws))) := by
  subst hu
  exact congrArg Host.Outcome.next (if_neg (by simp [hl, hs]))

end

/-! What an IDE_KM message does, by its object. -/

section
variable {p : Port} {data : List Byte}

theorem ideKm_program (h : rd data 1 1 = 2) : ideKm p data = { p with ideKeys := { p.ideKeys with programmed := data.drop 2 } } := by
  simp only [ideKm, h]

theorem ideKm_go_nothing (h : rd data 1 1 = 4) (hk : p.ideKeys.programmed = []) : ideKm p data = p := by
  simp only [ideKm, h, hk]
  rfl

theorem ideKm_go (h : rd data 1 1 = 4) (hk : p.ideKeys.programmed ≠ []) : ideKm p data
    = { p with ide := 1, ideKeys := { programmed := [], inUse := p.ideKeys.programmed, running := true } } := by
  simp only [ideKm, h]
  exact if_neg (by simpa using hk)

theorem ideKm_stop (h : rd data 1 1 = 5) :
    ideKm p data = { p with ide := if p.ide = 2 then 2 else 0, ideKeys := { p.ideKeys with running := false } } := by
  simp only [ideKm, h, beq_iff_eq]

theorem ideKm_other (h2 : rd data 1 1 ≠ 2) (h4 : rd data 1 1 ≠ 4) (h5 : rd data 1 1 ≠ 5) : ideKm p data = p := by
  unfold ideKm
  split
  · exact absurd ‹_› h2
  · exact absurd ‹_› h4
  · exact absurd ‹_› h5
  · rfl

end

/-- Settles O36: each of the eleven requests is `spdmRun` of its step, its change and its body. -/
theorem spdmStepsAndIdeKeys : Obligations.SpdmStepsAndIdeKeys := by
  refine ⟨fun n data ok t s u hu => ⟨?_, exec_ideKm_nothing hu, exec_ideKm hu⟩,
    fun p data => ⟨ideKm_program, ideKm_go_nothing, ideKm_go, ideKm_stop, ideKm_other⟩⟩
  iterate 11 refine List.forall_mem_cons.mpr ⟨spdmRun_cases hu, ?_⟩
  exact List.forall_mem_nil _

end Sys2Proof.Machine

/-! Allotments (R76–R81, R101–R106): the extents a new entry takes, the five ALLOT_* commands and the end of a release wait. -/

namespace Sys2Proof.Machine

open Sys2Proof

/-! ### Extents (R76, R112, R238) -/

/-- An extent fits where it is in range, no entry or exchange has it, and none of its region is of the other kind. -/
theorem extentFits_iff {s : State} {mirrored : Bool} {e : Nat} : extentFits s mirrored e = true ↔
    e < s.alt.total ∧ ∀ p ∈ promised s, ∀ y ∈ p.2.extents, y ≠ e ∧ (y / 4 = e / 4 → p.2.mirrored = mirrored) := by
  simp [extentFits]

/-- The extents taken are the first of those that fit. -/
theorem pickExtents_some {s : State} {mirrored : Bool} {n : Nat} {xs : List Nat} (h : pickExtents s mirrored n = some xs) :
    xs = ((List.range s.alt.total).filter (extentFits s mirrored)).take n ∧ xs.length = n := by
  simp only [pickExtents, Option.ite_none_right_eq_some, Option.some.injEq, beq_iff_eq] at h
  obtain ⟨hlen, rfl⟩ := h
  exact ⟨rfl, hlen⟩

theorem fits_of_mem_pickExtents {s : State} {mirrored : Bool} {n : Nat} {xs : List Nat} (h : pickExtents s mirrored n = some xs) :
    ∀ x ∈ xs, extentFits s mirrored x = true := by
  intro x hx
  rw [(pickExtents_some h).1] at hx
  exact (List.mem_filter.mp (List.mem_of_mem_take hx)).2

/-- In a rising list the first entries lie below every later one. -/
theorem lt_of_mem_take_of_not_mem_take {l : List Nat} (hl : l.Pairwise (· < ·)) {n x y : Nat} (hx : x ∈ l.take n) (hy : y ∈ l)
    (hn : y ∉ l.take n) : x < y := by
  rw [← List.take_append_drop n l, List.pairwise_append] at hl
  rw [← List.take_append_drop n l, List.mem_append] at hy
  exact hl.2.2 x hx y (hy.resolve_left hn)

/-- The extents taken are as many as asked for, distinct, free for their kind, and the lowest that fit. -/
theorem pickExtents_lowest {s : State} {mirrored : Bool} {n : Nat} {xs : List Nat} (h : pickExtents s mirrored n = some xs) :
    xs.length = n ∧ xs.Nodup ∧ (∀ x ∈ xs, x < s.alt.total)
      ∧ (∀ x ∈ xs, ∀ p ∈ promised s, ∀ y ∈ p.2.extents, y ≠ x ∧ (y / 4 = x / 4 → p.2.mirrored = mirrored))
      ∧ (∀ y, extentFits s mirrored y = true → y ∉ xs → ∀ x ∈ xs, x < y) := by
  obtain ⟨hxs, hlen⟩ := pickExtents_some h
  have hfits := fun x hx => extentFits_iff.mp (fits_of_mem_pickExtents h x hx)
  refine ⟨hlen, ?_, fun x hx => (hfits x hx).1, fun x hx => (hfits x hx).2, fun y hy hn x hx => ?_⟩
  · rw [hxs]
    exact (List.nodup_range.filter _).sublist (List.take_sublist _ _)
  · rw [hxs] at hn hx
    exact lt_of_mem_take_of_not_mem_take (List.pairwise_lt_range.filter _) hx
      (List.mem_filter.mpr ⟨List.mem_range.mpr (extentFits_iff.mp hy).1, hy⟩) hn

/-! ### ALLOT_CREATE (R102) -/

theorem exec_allotCreate {c : TrellisCmd} {s v : State} {f : InFlight} (h : started 0x0100 c s = some (v, f)) :
    exec (.allotCreate c) s = .next (cmdAllotCreate f v) :=
  congrArg _ (submit_of_started cmdAllotCreate h)

/-- The most extents an allotment may have (R76). -/
def maxExtentsOf (v : State) : Nat := if isBig v then 65536 else 32768

/-- Kind, home and sizes in their ranges. -/
def createFormed (f : InFlight) (v : State) : Prop :=
  pByte f.cmd 24 ≤ 1 ∧ pByte f.cmd 25 ≤ pByte f.cmd 24 ∧ 0 < pNum f.cmd 28 4 ∧ pNum f.cmd 28 4 ≤ pNum f.cmd 32 4
    ∧ pNum f.cmd 32 4 ≤ maxExtentsOf v

/-- The twin is wanting: a MIRRORED allotment out of step, or a LOCAL one of a pair without a session. -/
def twinWanting (f : InFlight) (v : State) : Prop :=
  (pByte f.cmd 24 = 1 ∧ inStep v = false) ∨ (pByte f.cmd 24 = 0 ∧ v.exl.paired = true ∧ v.exl.session = false)

/-- The entry ALLOT_CREATE makes with extents `xs` and bindings `bs`. -/
def createdEntry (f : InFlight) (xs : List Nat) (bs : List Binding) : Allot :=
  { mirrored := pByte f.cmd 24 == 1, homeTwin := pByte f.cmd 25 == 1, serving := pByte f.cmd 25 == 0,
    maxExtents := pNum f.cmd 32 4, extents := xs, bindings := bs }

section
variable {f : InFlight} {v : State}

theorem cmdAllotCreate_bad_kind (hk : 1 < pByte f.cmd 24) : cmdAllotCreate f v = badParam v f.id 24 := if_pos hk

/-- HOME names the twin only where the allotment is MIRRORED. -/
theorem createHome_iff (hk : pByte f.cmd 24 ≤ 1) :
    (decide (1 < pByte f.cmd 25) || (pByte f.cmd 25 == 1 && !(pByte f.cmd 24 == 1))) = true ↔ pByte f.cmd 24 < pByte f.cmd 25 := by
  simp only [Bool.or_eq_true, decide_eq_true_eq, Bool.and_eq_true, beq_iff_eq, Bool.not_eq_true', beq_eq_false_iff_ne]
  omega

section
variable (hk : pByte f.cmd 24 ≤ 1)
include hk

theorem cmdAllotCreate_bad_home (hh : pByte f.cmd 24 < pByte f.cmd 25) : cmdAllotCreate f v = badParam v f.id 25 := by
  simp only [cmdAllotCreate, if_neg (Nat.not_lt.mpr hk), if_pos ((createHome_iff hk).mpr hh)]

variable (hh : pByte f.cmd 25 ≤ pByte f.cmd 24)
include hh

theorem cmdAllotCreate_bad_extents (hn : pNum f.cmd 28 4 = 0 ∨ pNum f.cmd 32 4 < pNum f.cmd 28 4) :
    cmdAllotCreate f v = badParam v f.id 28 := by
  have hbad : (pNum f.cmd 28 4 == 0 || decide (pNum f.cmd 32 4 < pNum f.cmd 28 4)) = true := by simpa using hn
  simp only [cmdAllotCreate, if_neg (Nat.not_lt.mpr hk), if_neg (mt (createHome_iff hk).mp (Nat.not_lt.mpr hh)), if_pos hbad]

theorem cmdAllotCreate_bad_maxExtents (hn : 0 < pNum f.cmd 28 4) (hm : pNum f.cmd 28 4 ≤ pNum f.cmd 32 4)
    (hl : maxExtentsOf v < pNum f.cmd 32 4) : cmdAllotCreate f v = badParam v f.id 32 := by
  have hok : ¬(pNum f.cmd 28 4 == 0 || decide (pNum f.cmd 32 4 < pNum f.cmd 28 4)) = true := by
    simpa [Nat.pos_iff_ne_zero.mp hn] using hm
  rw [maxExtentsOf] at hl
  simp only [cmdAllotCreate, if_neg (Nat.not_lt.mpr hk), if_neg (mt (createHome_iff hk).mp (Nat.not_lt.mpr hh)), if_neg hok, if_pos hl]

end

section
variable (hform : createFormed f v)
include hform

theorem cmdAllotCreate_bad_payload (hb : bindEntries (payIn f.cmd) = none) : cmdAllotCreate f v = badParam v f.id 0x40 := by
  obtain ⟨hk, hh, hn, hm, hl⟩ := hform
  have hok : ¬(pNum f.cmd 28 4 == 0 || decide (pNum f.cmd 32 4 < pNum f.cmd 28 4)) = true := by
    simpa [Nat.pos_iff_ne_zero.mp hn] using hm
  rw [maxExtentsOf] at hl
  simp only [cmdAllotCreate, if_neg (Nat.not_lt.mpr hk), if_neg (mt (createHome_iff hk).mp (Nat.not_lt.mpr hh)), if_neg hok,
    if_neg (Nat.not_lt.mpr hl), hb]

section
variable {es : List (Nat × Bool)} (hb : bindEntries (payIn f.cmd) = some es)
include hb

/-- With parameters and entries in their form the rest of the checks stand. -/
theorem cmdAllotCreate_of_formed : cmdAllotCreate f v
    = if txPending v f.cmd.allot then conflict v f.id 0x11
      else (allotOf v f.cmd.allot).elim
        (if pByte f.cmd 24 == 1 && !inStep v then conflict v f.id 0x13
          else if !(pByte f.cmd 24 == 1) && v.exl.paired && !v.exl.session then conflict v f.id 0x13
          else if keyGen v f.cmd.allot == 0xFFFFFFFF then endWith v f.id 0x0C 0
          else ((pickExtents v (pByte f.cmd 24 == 1) (pNum f.cmd 28 4)).bind fun xs =>
              (addBindings v (pNum f.cmd 32 4) [] es).map fun bs =>
                if pByte f.cmd 24 == 1 then startTx v .entry f.cmd.allot (createdEntry f xs bs) (some f.id) false 0
                else if v.exl.paired then startTx v .reserve f.cmd.allot (createdEntry f xs bs) (some f.id) false 0
                else endAllot (applyEntry v f.cmd.allot (createdEntry f xs bs) false) f.id 0 0).getD (endWith v f.id 0x0C 0))
        (fun a => conflict v f.id (if a.reservation then 0x15 else if a.st == .deleting then 0x11 else 0x10)) := by
  obtain ⟨hk, hh, hn, hm, hl⟩ := hform
  have hok : ¬(pNum f.cmd 28 4 == 0 || decide (pNum f.cmd 32 4 < pNum f.cmd 28 4)) = true := by
    simpa [Nat.pos_iff_ne_zero.mp hn] using hm
  rw [maxExtentsOf] at hl
  simp only [cmdAllotCreate, if_neg (Nat.not_lt.mpr hk), if_neg (mt (createHome_iff hk).mp (Nat.not_lt.mpr hh)), if_neg hok,
    if_neg (Nat.not_lt.mpr hl), hb]
  cases allotOf v f.cmd.allot with
  | some a => rfl
  | none =>
    cases pickExtents v (pByte f.cmd 24 == 1) (pNum f.cmd 28 4) with
    | none => rfl
    | some xs => cases addBindings v (pNum f.cmd 32 4) [] es <;> rfl

theorem cmdAllotCreate_tx_pending (hp : txPending v f.cmd.allot = true) : cmdAllotCreate f v = conflict v f.id 0x11 := by
  rw [cmdAllotCreate_of_formed hform hb, if_pos hp]

variable (hp : txPending v f.cmd.allot = false)
include hp

theorem cmdAllotCreate_in_use {a : Allot} (ha : allotOf v f.cmd.allot = some a) : cmdAllotCreate f v
    = conflict v f.id (if a.reservation then 0x15 else if a.st = .deleting then 0x11 else 0x10) := by
  simp [cmdAllotCreate_of_formed hform hb, hp, ha]

variable (ha : allotOf v f.cmd.allot = none)
include ha

theorem cmdAllotCreate_twin_wanting (ht : twinWanting f v) : cmdAllotCreate f v = conflict v f.id 0x13 := by
  obtain ⟨hk, hs⟩ | ⟨hk, hpair, hs⟩ := ht
  · simp [cmdAllotCreate_of_formed hform hb, hp, ha, hk, hs]
  · simp [cmdAllotCreate_of_formed hform hb, hp, ha, hk, hpair, hs]

variable (ht : ¬twinWanting f v) (hg : keyGen v f.cmd.allot ≠ 0xFFFFFFFF)
include ht hg

/-- Where the twin is there and the ID may be used again, extents and windows decide. -/
theorem cmdAllotCreate_of_twin : cmdAllotCreate f v
    = ((pickExtents v (pByte f.cmd 24 == 1) (pNum f.cmd 28 4)).bind fun xs =>
        (addBindings v (pNum f.cmd 32 4) [] es).map fun bs =>
          if pByte f.cmd 24 == 1 then startTx v .entry f.cmd.allot (createdEntry f xs bs) (some f.id) false 0
          else if v.exl.paired then startTx v .reserve f.cmd.allot (createdEntry f xs bs) (some f.id) false 0
          else endAllot (applyEntry v f.cmd.allot (createdEntry f xs bs) false) f.id 0 0).getD (endWith v f.id 0x0C 0) := by
  have hkind : pByte f.cmd 24 = 0 ∨ pByte f.cmd 24 = 1 := by have := hform.1; omega
  obtain ⟨hmirror, hlocal⟩ := not_or.mp ht
  have h1 : ¬(pByte f.cmd 24 == 1 && !inStep v) = true := by simpa using hmirror
  have h2 : ¬(!(pByte f.cmd 24 == 1) && v.exl.paired && !v.exl.session) = true := by
    rcases hkind with hk | hk
    · simpa [hk] using hlocal
    · simp [hk]
  have h3 : ¬(keyGen v f.cmd.allot == 0xFFFFFFFF) = true := by simpa using hg
  rw [cmdAllotCreate_of_formed hform hb, hp, ha]
  simp only [Bool.false_eq_true, if_false, Option.elim_none, if_neg h1, if_neg h2, if_neg h3]

theorem cmdAllotCreate_no_space (h : pickExtents v (pByte f.cmd 24 == 1) (pNum f.cmd 28 4) = none
    ∨ addBindings v (pNum f.cmd 32 4) [] es = none) : cmdAllotCreate f v = endWith v f.id 0x0C 0 := by
  rw [cmdAllotCreate_of_twin hform hb hp ha ht hg]
  rcases h with h | h
  · simp [h]
  · cases pickExtents v (pByte f.cmd 24 == 1) (pNum f.cmd 28 4) <;> simp [h]

/-- With extents and windows to be had the entry is made: with the twin, reserved there, or alone. -/
theorem cmdAllotCreate_makes {xs : List Nat} {bs : List Binding}
    (hx : pickExtents v (pByte f.cmd 24 == 1) (pNum f.cmd 28 4) = some xs) (hbs : addBindings v (pNum f.cmd 32 4) [] es = some bs) :
    cmdAllotCreate f v
      = if pByte f.cmd 24 == 1 then startTx v .entry f.cmd.allot (createdEntry f xs bs) (some f.id) false 0
        else if v.exl.paired then startTx v .reserve f.cmd.allot (createdEntry f xs bs) (some f.id) false 0
        else endAllot (applyEntry v f.cmd.allot (createdEntry f xs bs) false) f.id 0 0 := by
  rw [cmdAllotCreate_of_twin hform hb hp ha ht hg, hx, hbs]
  rfl

end

end

end

/-- Settles O22: the checks in their order, then the three ways an entry is made, with the lowest extents that fit. -/
theorem allotCreateMakesOrRefuses : Obligations.AllotCreateMakesOrRefuses := by
  refine ⟨fun c s v f h => ?_, fun s mirrored n xs hx => pickExtents_lowest hx⟩
  rw [exec_allotCreate h]
  refine ⟨fun hk => congrArg _ (cmdAllotCreate_bad_kind hk), fun hk hh => congrArg _ (cmdAllotCreate_bad_home hk (by omega)),
    fun hk hh => ⟨fun hn => congrArg _ (cmdAllotCreate_bad_extents hk hh hn),
      fun hn hm hl => congrArg _ (cmdAllotCreate_bad_maxExtents hk hh hn hm hl),
      fun hn hm hl => ⟨fun hb => congrArg _ (cmdAllotCreate_bad_payload ⟨hk, hh, hn, hm, hl⟩ hb), fun es hb hp => ?_⟩⟩,
    fun hk hh hn hm hl hb hp => ?_⟩
  · have hform : createFormed f v := ⟨hk, hh, hn, hm, hl⟩
    refine ⟨fun a ha => congrArg _ (cmdAllotCreate_in_use hform hb hp ha),
      fun ha => ⟨fun ht => congrArg _ (cmdAllotCreate_twin_wanting hform hb hp ha ht), fun hmirror hlocal hg => ?_⟩⟩
    have ht : ¬twinWanting f v := by
      rintro (⟨h1, hs⟩ | ⟨h0, hpair, hs⟩)
      · exact Bool.false_ne_true (hs.symm.trans (hmirror h1))
      · exact Bool.false_ne_true (hs.symm.trans (hlocal h0 hpair))
    refine ⟨fun hno => congrArg _ (cmdAllotCreate_no_space hform hb hp ha ht hg hno), fun xs bs hx hbs => ?_⟩
    rw [cmdAllotCreate_makes hform hb hp ha ht hg hx hbs]
    exact ⟨fun h1 => congrArg _ (if_pos (beq_iff_eq.mpr h1)),
      fun h0 hpair => congrArg _ ((if_neg (by simp [h0])).trans (if_pos hpair)),
      fun h0 hpair => congrArg _ ((if_neg (by simp [h0])).trans (if_neg (Bool.eq_false_iff.mp hpair)))⟩
  · obtain ⟨es, hes⟩ := Option.ne_none_iff_exists'.mp hb
    exact congrArg _ (cmdAllotCreate_tx_pending ⟨hk, hh, hn, hm, hl⟩ hes hp)

end Sys2Proof.Machine

/-! ALLOT_RESIZE, ALLOT_DELETE, ALLOT_BIND and ALLOT_QUERY (R103–R106), and the end of a release wait (R103, R105). -/

namespace Sys2Proof.Machine

open Sys2Proof

/-! ### Why an entry may not be changed now (R101) -/

section
variable {s : State} {a : Allot} {id : Nat}

theorem allotBusy_of_reservation (h : a.reservation = true) (stale : Bool) : allotBusy s a id stale = some (0x0E, 0x15) := by
  simp [allotBusy, h]

theorem allotBusy_of_busy (hr : a.reservation = false) (h : a.st = .deleting ∨ a.busy ≠ none ∨ txPending s id = true)
    (stale : Bool) : allotBusy s a id stale = some (0x0E, 0x11) := by
  have hbusy : (a.st == .deleting || a.busy.isSome || txPending s id) = true := by
    simpa [or_assoc, Option.ne_none_iff_isSome] using h
  rw [allotBusy, hr, hbusy]
  rfl

theorem allotBusy_of_free (hr : a.reservation = false) (hd : a.st ≠ .deleting) (hb : a.busy = none) (hp : txPending s id = false)
    (stale : Bool) : allotBusy s a id stale = if stale && a.st == .stale then some (0x09, 0) else none := by
  simp [allotBusy, hr, hd, hb, hp]

end

/-! ### ALLOT_RESIZE (R103) -/

theorem exec_allotResize {c : TrellisCmd} {s v : State} {f : InFlight} (h : started 0x0101 c s = some (v, f)) :
    exec (.allotResize c) s = .next (cmdAllotResize f v) :=
  congrArg _ (submit_of_started cmdAllotResize h)

/-- The size and the wait that ALLOT_RESIZE takes. -/
def resizeFormed (f : InFlight) (a : Allot) : Prop :=
  0 < pNum f.cmd 28 4 ∧ pNum f.cmd 28 4 ≤ a.maxExtents ∧ pNum f.cmd 32 4 ≤ 60000
    ∧ (pNum f.cmd 28 4 < a.extents.length → 0 < pNum f.cmd 32 4)

/-- The entry after a growth by extents `xs`: a new tag where the size changes. -/
def grownEntry (f : InFlight) (a : Allot) (xs : List Nat) : Allot := { a with
  extents := a.extents ++ xs,
  tags := if a.extents.length < pNum f.cmd 28 4 then
    (a.extents.length, if f.cmd.payLen == 16 then payIn f.cmd else padTo (le f.cmd.allot 2) 16) :: a.tags else a.tags }

/-- The entry cut to the size asked for. -/
def cutEntry (f : InFlight) (a : Allot) : Allot := { a with
  extents := a.extents.take (pNum f.cmd 28 4), tags := a.tags.filter (fun p => p.1 < pNum f.cmd 28 4) }

/-- A growth commits with the lowest extents that fit. -/
def resizeGrows (f : InFlight) (v : State) (a : Allot) : State :=
  match pickExtents v a.mirrored (pNum f.cmd 28 4 - a.extents.length) with
  | some xs => commitEntry v f.cmd.allot (grownEntry f a xs) .entry f.id false 0
  | none => endWith v f.id 0x0C 0

/-- A shrink commits where no host holds a removed extent, and else waits for releases. -/
def resizeShrinks (f : InFlight) (v : State) (a : Allot) : State :=
  if releasedFrom a (pNum f.cmd 28 4) then commitEntry v f.cmd.allot (cutEntry f a) .entry f.id false 0
  else
    let w := a.bindings.foldl (fun w b => postDc w 1 f.cmd.allot a b (b.accepted.filter (fun k => pNum f.cmd 28 4 ≤ k))) v
    modAllot (setJob w f.id (.shrink f.cmd.allot (pNum f.cmd 28 4) (w.now + 1000 * pNum f.cmd 32 4))) f.cmd.allot
      (fun a => { a with busy := some f.id })

section
variable {f : InFlight} {v : State}

theorem cmdAllotResize_unknown (ha : allotOf v f.cmd.allot = none) : cmdAllotResize f v = badParam v f.id 8 := by
  simp only [cmdAllotResize, ha]

variable {a : Allot} (ha : allotOf v f.cmd.allot = some a)
include ha

theorem cmdAllotResize_busy {st d : Nat} (hb : allotBusy v a f.cmd.allot true = some (st, d)) :
    cmdAllotResize f v = endWith v f.id st d := by
  simp only [cmdAllotResize, ha, hb]

variable (hb : allotBusy v a f.cmd.allot true = none)
include hb

theorem cmdAllotResize_bad_size (hn : pNum f.cmd 28 4 = 0 ∨ a.maxExtents < pNum f.cmd 28 4) :
    cmdAllotResize f v = badParam v f.id 28 := by
  simp only [cmdAllotResize, ha, hb]
  exact if_pos (by simpa using hn)

theorem cmdAllotResize_bad_wait (hn : 0 < pNum f.cmd 28 4) (hm : pNum f.cmd 28 4 ≤ a.maxExtents)
    (hw : 60000 < pNum f.cmd 32 4 ∨ (pNum f.cmd 28 4 < a.extents.length ∧ pNum f.cmd 32 4 = 0)) :
    cmdAllotResize f v = badParam v f.id 32 := by
  have hsize : ¬(pNum f.cmd 28 4 == 0 || decide (a.maxExtents < pNum f.cmd 28 4)) = true := by
    simpa [Nat.pos_iff_ne_zero.mp hn] using hm
  simp only [cmdAllotResize, ha, hb, if_neg hsize]
  exact if_pos (by simpa using hw)

variable (hform : resizeFormed f a)
include hform

/-- With size and wait in their ranges: the payload, the entry's state, then growth or shrink. -/
theorem cmdAllotResize_of_formed : cmdAllotResize f v
    = if f.cmd.payLen != 0 && f.cmd.payLen != 16 then badParam v f.id 0x40
      else if a.st == .dataLost then conflict v f.id 0x14
      else if a.mirrored && !inStep v then conflict v f.id 0x13
      else if a.extents.length ≤ pNum f.cmd 28 4 then resizeGrows f v a else resizeShrinks f v a := by
  obtain ⟨hn, hm, hw, hwait⟩ := hform
  have hsize : ¬(pNum f.cmd 28 4 == 0 || decide (a.maxExtents < pNum f.cmd 28 4)) = true := by
    simpa [Nat.pos_iff_ne_zero.mp hn] using hm
  have htime : ¬(decide (60000 < pNum f.cmd 32 4) || (decide (pNum f.cmd 28 4 < a.extents.length) && pNum f.cmd 32 4 == 0)) = true := by
    simpa [Nat.not_lt.mpr hw, Nat.pos_iff_ne_zero] using hwait
  simp only [cmdAllotResize, ha, hb, if_neg hsize, if_neg htime]
  rfl

theorem cmdAllotResize_bad_payload (h0 : f.cmd.payLen ≠ 0) (h16 : f.cmd.payLen ≠ 16) :
    cmdAllotResize f v = badParam v f.id 0x40 := by
  rw [cmdAllotResize_of_formed ha hb hform, if_pos (by simp [h0, h16])]

variable (hpay : f.cmd.payLen = 0 ∨ f.cmd.payLen = 16)
include hpay

theorem cmdAllotResize_data_lost (hl : a.st = .dataLost) : cmdAllotResize f v = conflict v f.id 0x14 := by
  rw [cmdAllotResize_of_formed ha hb hform, if_neg (by rcases hpay with h | h <;> simp [h]), if_pos (by simp [hl])]

variable (hl : a.st ≠ .dataLost)
include hl

theorem cmdAllotResize_out_of_step (hm : a.mirrored = true) (hs : inStep v = false) : cmdAllotResize f v = conflict v f.id 0x13 := by
  rw [cmdAllotResize_of_formed ha hb hform, if_neg (by rcases hpay with h | h <;> simp [h]), if_neg (by simp [hl]),
    if_pos (by simp [hm, hs])]

theorem cmdAllotResize_resizes (hs : a.mirrored = true → inStep v = true) : cmdAllotResize f v
    = if a.extents.length ≤ pNum f.cmd 28 4 then resizeGrows f v a else resizeShrinks f v a := by
  rw [cmdAllotResize_of_formed ha hb hform, if_neg (by rcases hpay with h | h <;> simp [h]), if_neg (by simp [hl]),
    if_neg (by simpa using hs)]

end

/-! ### ALLOT_DELETE (R104) -/

theorem exec_allotDelete {c : TrellisCmd} {s v : State} {f : InFlight} (h : started 0x0102 c s = some (v, f)) :
    exec (.allotDelete c) s = .next (cmdAllotDelete f v) :=
  congrArg _ (submit_of_started cmdAllotDelete h)

section
variable {f : InFlight} {v : State}

theorem cmdAllotDelete_unknown (ha : allotOf v f.cmd.allot = none) : cmdAllotDelete f v = badParam v f.id 8 := by
  simp only [cmdAllotDelete, ha]

variable {a : Allot} (ha : allotOf v f.cmd.allot = some a)
include ha

theorem cmdAllotDelete_bad_force (hf : 1 < pByte f.cmd 24) : cmdAllotDelete f v = badParam v f.id 24 := by
  simp only [cmdAllotDelete, ha, if_pos hf]

variable (hf : pByte f.cmd 24 ≤ 1)
include hf

theorem cmdAllotDelete_busy {st d : Nat} (hb : allotBusy v a f.cmd.allot false = some (st, d)) :
    cmdAllotDelete f v = endWith v f.id st d := by
  simp only [cmdAllotDelete, ha, if_neg (Nat.not_lt.mpr hf), hb]

variable (hb : allotBusy v a f.cmd.allot false = none)
include hb

/-- A free entry: bound without FORCE, out of step, MIRRORED, LOCAL. -/
theorem cmdAllotDelete_of_free : cmdAllotDelete f v
    = if pByte f.cmd 24 == 0 && !a.bindings.isEmpty then conflict v f.id 0x12
      else if a.mirrored && !inStep v then conflict v f.id 0x13
      else if a.mirrored then startTx v .delete f.cmd.allot a (some f.id) true 0
      else modAllot (setJob (enterDeleting v f.cmd.allot) f.id .table) f.cmd.allot (fun a => { a with busy := some f.id }) := by
  simp only [cmdAllotDelete, ha, if_neg (Nat.not_lt.mpr hf), hb]

theorem cmdAllotDelete_bound (h0 : pByte f.cmd 24 = 0) (hbound : a.bindings ≠ []) : cmdAllotDelete f v = conflict v f.id 0x12 := by
  rw [cmdAllotDelete_of_free ha hf hb, if_pos (by simp [h0, hbound])]

variable (hfree : pByte f.cmd 24 = 1 ∨ a.bindings = [])
include hfree

theorem cmdAllotDelete_out_of_step (hm : a.mirrored = true) (hs : inStep v = false) : cmdAllotDelete f v = conflict v f.id 0x13 := by
  rw [cmdAllotDelete_of_free ha hf hb, if_neg (by rcases hfree with h | h <;> simp [h]), if_pos (by simp [hm, hs])]

theorem cmdAllotDelete_mirrored (hm : a.mirrored = true) (hs : inStep v = true) :
    cmdAllotDelete f v = startTx v .delete f.cmd.allot a (some f.id) true 0 := by
  rw [cmdAllotDelete_of_free ha hf hb, if_neg (by rcases hfree with h | h <;> simp [h]), if_neg (by simp [hs]), if_pos hm]

theorem cmdAllotDelete_local (hm : a.mirrored = false) : cmdAllotDelete f v
    = modAllot (setJob (enterDeleting v f.cmd.allot) f.id .table) f.cmd.allot (fun a => { a with busy := some f.id }) := by
  rw [cmdAllotDelete_of_free ha hf hb, if_neg (by rcases hfree with h | h <;> simp [h]), if_neg (by simp [hm]), if_neg (by simp [hm])]

end

/-- Settles O23: the checks of each command in their order, then growth or shrink, and a delete with the twin or alone. -/
theorem allotResizeAndDelete : Obligations.AllotResizeAndDelete := by
  refine ⟨fun c s v f h => ?_, fun c s v f h => ?_, fun s a id => ⟨fun hr => ?_, fun hr hb => ?_, fun hr hd hb hp => ?_⟩⟩
  · rw [exec_allotResize h]
    refine ⟨fun ha => congrArg _ (cmdAllotResize_unknown ha), fun a ha => ⟨fun st d hb => congrArg _ (cmdAllotResize_busy ha hb),
      fun hb => ⟨fun hn => congrArg _ (cmdAllotResize_bad_size ha hb hn),
        fun hn hm hw => congrArg _ (cmdAllotResize_bad_wait ha hb hn hm hw), fun hn hm hw hwait => ?_⟩⟩⟩
    have hform : resizeFormed f a := ⟨hn, hm, hw, hwait⟩
    refine ⟨fun h0 h16 => congrArg _ (cmdAllotResize_bad_payload ha hb hform h0 h16),
      fun hpay => ⟨fun hl => congrArg _ (cmdAllotResize_data_lost ha hb hform hpay hl),
        fun hl hmir hs => congrArg _ (cmdAllotResize_out_of_step ha hb hform hpay hl hmir hs), fun hl hs => ?_⟩⟩
    rw [cmdAllotResize_resizes ha hb hform hpay hl hs]
    refine ⟨fun hle => ?_, fun hlt => ?_⟩
    · rw [if_pos hle]
      refine ⟨fun hx => ?_, fun xs hx => ?_⟩
      · simp only [resizeGrows, hx]
      · simp only [resizeGrows, hx, grownEntry, beq_iff_eq]
    · rw [if_neg (Nat.not_le.mpr hlt)]
      exact ⟨fun hr => congrArg _ (if_pos hr), fun hr => congrArg _ (if_neg (Bool.eq_false_iff.mp hr))⟩
  · rw [exec_allotDelete h]
    exact ⟨fun ha => congrArg _ (cmdAllotDelete_unknown ha), fun a ha => ⟨fun hf => congrArg _ (cmdAllotDelete_bad_force ha hf),
      fun st d hf hb => congrArg _ (cmdAllotDelete_busy ha hf hb),
      fun hf hb => ⟨fun h0 hbound => congrArg _ (cmdAllotDelete_bound ha hf hb h0 hbound),
        fun hfree => ⟨fun hm hs => congrArg _ (cmdAllotDelete_out_of_step ha hf hb hfree hm hs),
          fun hm hs => congrArg _ (cmdAllotDelete_mirrored ha hf hb hfree hm hs),
          fun hm => congrArg _ (cmdAllotDelete_local ha hf hb hfree hm)⟩⟩⟩⟩
  · exact ⟨allotBusy_of_reservation hr false, allotBusy_of_reservation hr true⟩
  · exact ⟨allotBusy_of_busy hr hb false, allotBusy_of_busy hr hb true⟩
  · refine ⟨allotBusy_of_free hr hd hb hp false, (allotBusy_of_free hr hd hb hp true).trans ?_⟩
    simp only [Bool.true_and, beq_iff_eq]

/-! ### ALLOT_BIND (R105) -/

theorem exec_allotBind {c : TrellisCmd} {s v : State} {f : InFlight} (h : started 0x0103 c s = some (v, f)) :
    exec (.allotBind c) s = .next (cmdAllotBind f v) :=
  congrArg _ (submit_of_started cmdAllotBind h)

/-- Action, wait and payload length in their ranges. -/
def bindFormed (f : InFlight) : Prop :=
  pByte f.cmd 24 ≤ 3 ∧ (pByte f.cmd 24 = 1 → 0 < pNum f.cmd 28 4 ∧ pNum f.cmd 28 4 ≤ 60000)
    ∧ (pByte f.cmd 24 = 3 → f.cmd.payLen = 0)

/-- The listed bindings of hosts that hold extents. -/
def heldBindings (a : Allot) (ids : List Nat) : List Binding :=
  a.bindings.filter (fun b => ids.contains b.issuer.toNat && !b.accepted.isEmpty)

section
variable {f : InFlight} {v : State}

theorem cmdAllotBind_unknown (ha : allotOf v f.cmd.allot = none) : cmdAllotBind f v = badParam v f.id 8 := by
  simp only [cmdAllotBind, ha]

variable {a : Allot} (ha : allotOf v f.cmd.allot = some a)
include ha

theorem cmdAllotBind_bad_action (h : 3 < pByte f.cmd 24) : cmdAllotBind f v = badParam v f.id 24 := by
  simp only [cmdAllotBind, ha, if_pos h]

theorem cmdAllotBind_bad_wait (h1 : pByte f.cmd 24 = 1) (hw : pNum f.cmd 28 4 = 0 ∨ 60000 < pNum f.cmd 28 4) :
    cmdAllotBind f v = badParam v f.id 28 := by
  simp only [cmdAllotBind, ha, h1]
  exact (if_neg (by decide)).trans (if_pos (by simpa using hw))

theorem cmdAllotBind_needless_payload (h3 : pByte f.cmd 24 = 3) (hp : f.cmd.payLen ≠ 0) :
    cmdAllotBind f v = badParam v f.id 0x40 := by
  simp only [cmdAllotBind, ha, h3]
  exact (if_neg (by decide)).trans ((if_neg (by simp)).trans (if_pos (by simpa using hp)))

section
variable {es : List (Nat × Bool)} (he : bindEntries (payIn f.cmd) = some es) (hb : allotBusy v a f.cmd.allot true = none)
include he hb

/-- Action 0 adds or changes the listed bindings. -/
theorem cmdAllotBind_add (h0 : pByte f.cmd 24 = 0) :
    (addBindings v a.maxExtents a.bindings es = none → cmdAllotBind f v = endWith v f.id 0x0C 0)
      ∧ (∀ bs, addBindings v a.maxExtents a.bindings es = some bs →
          cmdAllotBind f v = commitEntry v f.cmd.allot { a with bindings := bs } .bind f.id false 0) := by
  refine ⟨fun h => ?_, fun bs h => ?_⟩
  · simp [cmdAllotBind, ha, h0, he, hb, h]
  · simp [cmdAllotBind, ha, h0, he, hb, h]

/-- Action 2 removes the listed bindings by force. -/
theorem cmdAllotBind_force (h2 : pByte f.cmd 24 = 2) : cmdAllotBind f v
    = commitEntry v f.cmd.allot { a with bindings := a.bindings.filter (fun b => !(es.map (·.1)).contains b.issuer.toNat) }
        .bind f.id true 0 := by
  simp [cmdAllotBind, ha, h2, he, hb]

end

variable (hform : bindFormed f)
include hform

theorem cmdAllotBind_bad_entries (he : bindEntries (payIn f.cmd) = none) : cmdAllotBind f v = badParam v f.id 0x40 := by
  obtain ⟨hact, hwait, hpay⟩ := hform
  have hw : ¬(pByte f.cmd 24 == 1 && (pNum f.cmd 28 4 == 0 || decide (60000 < pNum f.cmd 28 4))) = true := by
    simpa [Nat.pos_iff_ne_zero] using hwait
  simp only [cmdAllotBind, ha, if_neg (Nat.not_lt.mpr hact), if_neg hw, he]
  rw [if_neg (by simpa using hpay)]

variable {es : List (Nat × Bool)} (he : bindEntries (payIn f.cmd) = some es)
include he

theorem cmdAllotBind_busy {st d : Nat} (hb : allotBusy v a f.cmd.allot true = some (st, d)) :
    cmdAllotBind f v = endWith v f.id st d := by
  obtain ⟨hact, hwait, hpay⟩ := hform
  have hw : ¬(pByte f.cmd 24 == 1 && (pNum f.cmd 28 4 == 0 || decide (60000 < pNum f.cmd 28 4))) = true := by
    simpa [Nat.pos_iff_ne_zero] using hwait
  simp only [cmdAllotBind, ha, if_neg (Nat.not_lt.mpr hact), if_neg hw, he, hb]
  rw [if_neg (by simpa using hpay)]

variable (hb : allotBusy v a f.cmd.allot true = none)
include hb

/-- Action 1 removes the listed bindings, and waits for the hosts that hold extents. -/
theorem cmdAllotBind_remove (h1 : pByte f.cmd 24 = 1) : cmdAllotBind f v
    = if heldBindings a (es.map (·.1)) = [] then commitEntry v f.cmd.allot (unbindEntry a (es.map (·.1))) .bind f.id false 0
      else
        let w := (heldBindings a (es.map (·.1))).foldl (fun w b => postDc w 1 f.cmd.allot a b b.accepted) v
        modAllot (setJob w f.id (.unbind f.cmd.allot (es.map (·.1)) (w.now + 1000 * pNum f.cmd 28 4))) f.cmd.allot
          (fun a => { a with busy := some f.id }) := by
  obtain ⟨hlow, hhigh⟩ := hform.2.1 h1
  simp [cmdAllotBind, ha, h1, he, hb, Nat.pos_iff_ne_zero.mp hlow, Nat.not_lt.mpr hhigh, heldBindings]

/-- Action 3 clears DATA_LOST and the list of lost granules. -/
theorem cmdAllotBind_clear (h3 : pByte f.cmd 24 = 3) : cmdAllotBind f v
    = endAllot (if a.st = .dataLost then setAllot v f.cmd.allot { a with
        lost := [], st := if v.hrv.replant && unrestored v a then .replanting else .ready } else v) f.id 0 0 := by
  simp [cmdAllotBind, ha, h3, he, hb, hform.2.2 h3]

end

/-! ### ALLOT_QUERY (R106) -/

theorem exec_allotQuery {c : TrellisCmd} {s v : State} {f : InFlight} (h : started 0x0104 c s = some (v, f)) :
    exec (.allotQuery c) s = .next (cmdAllotQuery f v) :=
  congrArg _ (submit_of_started cmdAllotQuery h)

/-- The bindings an issuer sees: a host its own alone. -/
def seenBindings (f : InFlight) (a : Allot) : List Binding :=
  a.bindings.filter (fun b => issClass f.cmd.est != 0 || b.issuer.toNat == f.cmd.est)

theorem seenBindings_eq (f : InFlight) (a : Allot) : (if issClass f.cmd.est == 0 then
    a.bindings.filter (fun b => b.issuer.toNat == f.cmd.est) else a.bindings) = seenBindings f a := by
  by_cases h : issClass f.cmd.est = 0
  · simp [seenBindings, h]
  · rw [if_neg (by simpa using h), seenBindings, List.filter_eq_self.mpr (fun b _ => by simp [h])]

section
variable {f : InFlight} {v : State}

theorem cmdAllotQuery_unknown (ha : allotOf v f.cmd.allot = none) : cmdAllotQuery f v = badParam v f.id 8 := by
  simp only [cmdAllotQuery, ha]

variable {a : Allot} (ha : allotOf v f.cmd.allot = some a)
include ha

theorem cmdAllotQuery_bad_payload (hp : f.cmd.payLen % 16 ≠ 0) : cmdAllotQuery f v = badParam v f.id 0x40 := by
  simp only [cmdAllotQuery, ha]
  exact if_pos (by simpa using hp)

variable (hp : f.cmd.payLen % 16 = 0)
include hp

theorem cmdAllotQuery_busy (hd : a.st ≠ .deleting) (hb : a.busy ≠ none ∨ txPending v f.cmd.allot = true) :
    cmdAllotQuery f v = conflict v f.id 0x11 := by
  have hbusy : (a.st != .deleting && (a.busy.isSome || txPending v f.cmd.allot)) = true := by
    simpa [hd, Option.ne_none_iff_isSome] using hb
  simp [cmdAllotQuery, ha, hp, hbusy]

theorem cmdAllotQuery_answers (hfree : a.st = .deleting ∨ (a.busy = none ∧ txPending v f.cmd.allot = false))
    (hr : a.reservation = false) :
    let shown := (((seenBindings f a).drop (pNum f.cmd 24 4)).take (pNum f.cmd 28 4)).take (f.cmd.payLen / 16)
    cmdAllotQuery f v = endOut v f.id (infoBytes a.st.code a (v.hrv.replant && unrestored v a))
      (padTo (shown.flatMap (fun b => le b.issuer.toNat 2 ++ le (b2n b.rw) 1 ++ le (b2n (!b.accepted.isEmpty)) 1 ++ zeros 4
        ++ le b.dpa 8)) f.cmd.payLen) := by
  intro shown
  have hok : ¬(f.cmd.payLen % 16 != 0) = true := by simpa using hp
  have hnot : ¬(a.st != .deleting && (a.busy.isSome || txPending v f.cmd.allot)) = true := by
    rcases hfree with h | ⟨hb, ht⟩
    · simp [h]
    · simp [hb, ht]
  simp only [cmdAllotQuery, ha, if_neg hok, if_neg hnot, hr, seenBindings_eq, Bool.false_eq_true, if_false, shown]

end

/-! ### The end of a release wait (R103, R105) -/

section
variable {id t al dl : Nat} {s u : State} (hu : u = tick s t)
include hu

section
variable {n : Nat} (hj : jobOf u id = .shrink al n dl)
include hj

theorem exec_releaseWaitExpiry_shrink_early (hn : u.now < dl) : exec (.releaseWaitExpiry id t) s = .next u := by
  show execReleaseWaitExpiry id t s = _
  simp only [execReleaseWaitExpiry, ← hu, hj, if_pos hn]

theorem exec_releaseWaitExpiry_shrink_unknown (hn : dl ≤ u.now) (ha : allotOf u al = none) :
    exec (.releaseWaitExpiry id t) s = .next (endAllot u id 0x0D 0) := by
  show execReleaseWaitExpiry id t s = _
  simp only [execReleaseWaitExpiry, ← hu, hj, if_neg (Nat.not_lt.mpr hn), ha]

theorem exec_releaseWaitExpiry_shrink {a : Allot} (hn : dl ≤ u.now) (ha : allotOf u al = some a) :
    exec (.releaseWaitExpiry id t) s = .next (endShrink u id al a 0x0D 0) := by
  show execReleaseWaitExpiry id t s = _
  simp only [execReleaseWaitExpiry, ← hu, hj, if_neg (Nat.not_lt.mpr hn), ha]

end

section
variable {is : List Nat} (hj : jobOf u id = .unbind al is dl)
include hj

theorem exec_releaseWaitExpiry_unbind_early (hn : u.now < dl) : exec (.releaseWaitExpiry id t) s = .next u := by
  show execReleaseWaitExpiry id t s = _
  simp only [execReleaseWaitExpiry, ← hu, hj, if_pos hn]

theorem exec_releaseWaitExpiry_unbind_unknown (hn : dl ≤ u.now) (ha : allotOf u al = none) :
    exec (.releaseWaitExpiry id t) s = .next (endAllot u id 0x0D 0) := by
  show execReleaseWaitExpiry id t s = _
  simp only [execReleaseWaitExpiry, ← hu, hj, if_neg (Nat.not_lt.mpr hn), ha]

/-- What is released goes, what is not stays bound. -/
theorem exec_releaseWaitExpiry_unbind {a : Allot} (hn : dl ≤ u.now) (ha : allotOf u al = some a) :
    let b := { unbindEntry a is with bindings := (unbindEntry a is).bindings.map (fun x => { x with released := [] }) }
    exec (.releaseWaitExpiry id t) s = .next (if b.bindings.length = a.bindings.length then
      endAllot (setAllot u al b) id 0x0D 0 else commitEntry u al b .bind id false 0x0D) := by
  intro b
  show execReleaseWaitExpiry id t s = _
  simp only [execReleaseWaitExpiry, ← hu, hj, if_neg (Nat.not_lt.mpr hn), ha, beq_iff_eq]
  rfl

end

end

/-- Settles O24: ALLOT_BIND by its action, ALLOT_QUERY by its checks, and the release wait by what waits. -/
theorem allotBindQueryAndReleaseWait : Obligations.AllotBindQueryAndReleaseWait := by
  refine ⟨fun c s v f h => ?_, fun c s v f h => ?_, fun id t al dl s u hu => ⟨fun n hj => ?_, fun is hj => ?_⟩⟩
  · rw [exec_allotBind h]
    refine ⟨fun ha => congrArg _ (cmdAllotBind_unknown ha), fun a ha => ⟨fun hact => congrArg _ (cmdAllotBind_bad_action ha hact),
      fun h1 hw => congrArg _ (cmdAllotBind_bad_wait ha h1 hw), fun h3 hp => congrArg _ (cmdAllotBind_needless_payload ha h3 hp),
      fun hact hwait hpay => ?_⟩⟩
    have hform : bindFormed f := ⟨hact, hwait, hpay⟩
    refine ⟨fun he => congrArg _ (cmdAllotBind_bad_entries ha hform he), fun es st d he hb => congrArg _ (cmdAllotBind_busy ha hform he hb),
      fun es he hb => ⟨fun h0 => ⟨fun hno => congrArg _ ((cmdAllotBind_add ha he hb h0).1 hno),
          fun bs hbs => congrArg _ ((cmdAllotBind_add ha he hb h0).2 bs hbs)⟩, fun h1 => ?_,
        fun h2 => congrArg _ (cmdAllotBind_force ha he hb h2), fun h3 hl => ?_, fun h3 hl => ?_⟩⟩
    · rw [cmdAllotBind_remove ha hform he hb h1]
      exact ⟨fun hheld => congrArg _ (if_pos hheld), fun hheld => congrArg _ (if_neg hheld)⟩
    · rw [cmdAllotBind_clear ha hform he hb h3, if_neg hl]
    · rw [cmdAllotBind_clear ha hform he hb h3, if_pos hl]
  · rw [exec_allotQuery h]
    exact ⟨fun ha => congrArg _ (cmdAllotQuery_unknown ha), fun a ha => ⟨fun hp => congrArg _ (cmdAllotQuery_bad_payload ha hp),
      fun hp hd hb => congrArg _ (cmdAllotQuery_busy ha hp hd hb),
      fun hp hfree hr => congrArg _ (cmdAllotQuery_answers ha hp hfree hr)⟩⟩
  · exact ⟨exec_releaseWaitExpiry_shrink_early hu hj, exec_releaseWaitExpiry_shrink_unknown hu hj,
      fun a hn ha => exec_releaseWaitExpiry_shrink hu hj hn ha⟩
  · refine ⟨exec_releaseWaitExpiry_unbind_early hu hj, exec_releaseWaitExpiry_unbind_unknown hu hj, fun a hn ha => ?_⟩
    rw [exec_releaseWaitExpiry_unbind hu hj hn ha]
    exact ⟨fun hlen => congrArg _ (if_pos hlen), fun hlen => congrArg _ (if_neg hlen)⟩

end Sys2Proof.Machine

/-! The CXL.mem path of the ports (R72–R96, Table 3.3): reads, writes and held writes. -/

namespace Sys2Proof.Machine

open Sys2Proof

/-! ### Requests that cannot be served (R72, R80, R82) -/

section
variable {s : State} {r : MemReq}

@[simp] theorem hostOf_port (s : State) (r : MemReq) : (hostOf s r).port = r.port := rfl

theorem hostOf_single (h : (port s r.port).mode = 0) : (hostOf s r).issuer = 16 * r.port := by
  simp only [hostOf, h]

theorem hostOf_multi (h : (port s r.port).mode = 1) : (hostOf s r).issuer = 16 * r.port + r.issuer % 16 := by
  simp only [hostOf, h]

theorem hostOf_gFam (h : 1 < (port s r.port).mode) : (hostOf s r).issuer = r.issuer % 4096 := by
  unfold hostOf
  split
  · rename_i h0
    omega
  · rename_i h1
    omega
  · rfl

variable {read : Bool}

theorem classify_insecure (h : (port s r.port).ide = 2) : classify s r read = .error 1 := if_pos (by simp [h])

variable (hi : (port s r.port).ide ≠ 2)
include hi

theorem classify_unresolved (h : resolve s r.issuer r.dpa = none) :
    classify s r read = .error (if wasWithdrawn s r then 6 else 2) := by
  simp [classify, hi, h]

variable {id : Nat} {a : Allot} {b : Binding} {l : Nat} (h : resolve s r.issuer r.dpa = some (id, a, b, l))
include h

theorem classify_deleting (ha : a.st = .deleting) : classify s r read = .error 6 := by
  simp [classify, hi, h, ha]

theorem classify_stale (ha : a.st = .stale) : classify s r read = .error 4 := by
  simp [classify, hi, h, ha]

variable (hd : a.st ≠ .deleting) (hs : a.st ≠ .stale)
include hd hs

theorem classify_not_serving (ha : a.serving = false) : classify s r read = .error 2 := by
  simp [classify, hi, h, hd, hs, ha]

variable (ha : a.serving = true)
include ha

theorem classify_read_only (hr : read = false) (hb : b.rw = false) : classify s r read = .error 3 := by
  simp [classify, hi, h, hd, hs, ha, hr, hb]

theorem classify_served (hb : read = true ∨ b.rw = true) : classify s r read = .ok (l, a) := by
  rcases hb with hb | hb <;> simp [classify, hi, h, hd, hs, ha, hb]

end

/-! ### Reads (R18, R83, R93, R186) -/

section
variable {r : MemReq} {x : LineIn} {t : Nat} {s u : State} (hu : u = tick s t)
include hu

theorem exec_cxlMemRead_nothing (h : (port u r.port).link ≠ 2 ∨ u.ldg.closed = true) :
    exec (.cxlMemRead r x t) s = .next u := by
  show execCxlMemRead r x t s = _
  simp only [execCxlMemRead, ← hu]
  exact congrArg _ (if_pos (by simpa using h))

theorem exec_cxlMemRead (hl : (port u r.port).link = 2) (hc : u.ldg.closed = false) : exec (.cxlMemRead r x t) s
    = .next (creditKept u (serveRead (noteRequest (noteFill u (hostOf u r) x)) (hostOf u r) x) (some r.port)) := by
  show execCxlMemRead r x t s = _
  simp only [execCxlMemRead, ← hu]
  exact congrArg _ (if_neg (by simp [hl, hc]))

end

section
variable {v : State} {q : MemReq} {x : LineIn}

theorem serveRead_dropped {k : Nat} (hk : classify v q true = .error k) :
    serveRead v q x = dropRequest v q.port q.issuer k true := by
  simp only [serveRead, hk]

/-- A read that is served, with its number, its line and what the line holds. -/
def servedRead (v : State) (q : MemReq) (l : Nat) (x : LineIn) : HeldWrite :=
  { n := v.drp.nextWrite, req := q, since := v.now, read := true, line := l, x := x }

/-- A read of a line that is served answers it once its granule is ready. -/
theorem serveRead_served {l : Nat} {a : Allot} (hx : classify v q true = .ok (l, a)) : serveRead v q x
    = let g := granReady (numbered v) (lineGran l) x.badCrc
      if g.2 then readServed g.1 (servedRead v q l x) else waitFetch g.1 (lineGran l) (servedRead v q l x) := by
  simp only [serveRead, hx]
  rfl

end

section
variable {s : State} {h : HeldWrite}

/-- Noting a response leaves what says whether a port's link carries one. -/
theorem linkCarries_noteLoad (s : State) (p issuer d : Nat) : linkCarries (noteLoad s p issuer d) p = linkCarries s p := by
  have hlink : (tgetD (noteLoad s p issuer d).cxl.ports p {}).link = (tgetD s.cxl.ports p {}).link := by
    rw [noteLoad, tgetD, tget_tset_same, Option.getD_some]
    by_cases hd : (decide ((tgetD s.cxl.ports p {}).devload ≤ d) || decide ((tgetD s.cxl.ports p {}).devAt + 1000 < s.now)) = true
    · simp only [if_pos hd]
    · simp only [if_neg hd]
  rw [linkCarries, hlink]
  rfl

/-- The line of a read lies in a lost region of its allotment. -/
def lostLine (s : State) (h : HeldWrite) : Bool :=
  ((granAllot s (lineGran h.line)).bind (allotOf s)).elim false (fun a => a.lost.contains (lineRegion h.line))

/-- DevLoad of the answer to a read. -/
def answerLoad (s : State) (h : HeldWrite) : Nat :=
  devLoad s h.req.port h.req.issuer (some h.line)
    (((granAllot s (lineGran h.line)).bind (allotOf s)).elim false (fun a => a.mirrored))

/-- A read that is answered is counted, and its DevLoad noted. -/
def answerNoted (s : State) (h : HeldWrite) : State :=
  noteLoad { s with ist := { s.ist with secRd := s.ist.secRd + 64 } } h.req.port h.req.issuer (answerLoad s h)

/-- What an answer sends: nothing where none is awaited or carried, else poison or the line's bytes. -/
theorem answerRead_eq : answerRead s h
    = if h.gone || !linkCarries (answerNoted s h) h.req.port then answerNoted s h
      else if (readLine s h.line).2 || lostLine s h then
        emit (answerNoted s h) (.memPoison h.req.port h.req.issuer (answerLoad s h))
      else emit (answerNoted s h) (.memData h.req.port h.req.issuer (readLine s h.line).1 (answerLoad s h)) := by
  unfold answerRead answerNoted answerLoad lostLine
  cases (granAllot s (lineGran h.line)).bind (allotOf s) <;> rfl

theorem answerRead_mem : (answerRead s h).mem = s.mem := by
  rw [answerRead_eq]
  split
  · rfl
  · split <;> rfl

section
variable (hg : h.gone = false) (hc : linkCarries s h.req.port = true)
include hg hc

/-- The answer is awaited and carried. -/
theorem answer_goes : ¬(h.gone || !linkCarries (answerNoted s h) h.req.port) = true := by
  have hnoted : linkCarries (answerNoted s h) h.req.port = true := (linkCarries_noteLoad _ _ _ _).trans hc
  simp [hg, hnoted]

theorem answerRead_poison (hp : (readLine s h.line).2 = true) :
    ∃ d, (answerRead s h).out.head? = some (.memPoison h.req.port h.req.issuer d) := by
  rw [answerRead_eq, if_neg (answer_goes hg hc), if_pos (by rw [hp, Bool.true_or])]
  exact ⟨_, rfl⟩

theorem answerRead_data (hp : (readLine s h.line).2 = false)
    (hlost : ∀ a, (granAllot s (lineGran h.line)).bind (allotOf s) = some a → a.lost.contains (lineRegion h.line) = false) :
    ∃ d, (answerRead s h).out.head? = some (.memData h.req.port h.req.issuer (readLine s h.line).1 d) := by
  have hkept : lostLine s h = false := by
    rw [lostLine]
    cases ha : (granAllot s (lineGran h.line)).bind (allotOf s) with
    | none => rfl
    | some a => exact hlost a ha
  rw [answerRead_eq, if_neg (answer_goes hg hc), if_neg (by simp [hp, hkept])]
  exact ⟨_, rfl⟩

end

end

/-- Settles O37: a read is dropped by its class, or answered or made to wait by its granule. -/
theorem memoryReadsAnswerWaitOrDrop : Obligations.MemoryReadsAnswerWaitOrDrop := by
  refine ⟨fun r x t s u hu => ⟨exec_cxlMemRead_nothing hu, fun hl hc => ?_⟩,
    fun s r => ⟨rfl, rfl, hostOf_single, hostOf_multi, hostOf_gFam⟩,
    fun s r read => ⟨classify_insecure, classify_unresolved, fun id a b l hi h => ⟨classify_deleting hi h, classify_stale hi h,
      fun hd hs => ⟨classify_not_serving hi h hd hs, classify_read_only hi h hd hs, classify_served hi h hd hs⟩⟩⟩,
    fun s h => ⟨answerRead_mem, fun hg hc => ⟨answerRead_poison hg hc, answerRead_data hg hc⟩⟩⟩
  rw [exec_cxlMemRead hu hl hc]
  refine ⟨fun k hk => ?_, fun l a hx => ?_⟩
  · rw [serveRead_dropped hk]
    rfl
  · rw [serveRead_served hx]
    exact ⟨fun hg => by rw [if_pos hg]; rfl, fun hg => by rw [if_neg (Bool.eq_false_iff.mp hg)]; rfl⟩

/-! ### Writes (R82, R96, R144, R252) -/

section
variable {r : MemReq} {x : LineIn} {t : Nat} {s u : State} (hu : u = tick s t)
include hu

theorem exec_cxlMemWrite_nothing (h : (port u r.port).link ≠ 2 ∨ u.ldg.closed = true) :
    exec (.cxlMemWrite r x t) s = .next u := by
  show execCxlMemWrite r x t s = _
  simp only [execCxlMemWrite, ← hu]
  exact congrArg _ (if_pos (by simpa using h))

theorem exec_cxlMemWrite (hl : (port u r.port).link = 2) (hc : u.ldg.closed = false) : exec (.cxlMemWrite r x t) s
    = .next (creditKept u (tryWrite (numbered (noteRequest (noteFill u (hostOf u r) x)))
        { n := u.drp.nextWrite, req := hostOf u r, since := u.now, x := x }) (some r.port)) := by
  show execCxlMemWrite r x t s = _
  simp only [execCxlMemWrite, ← hu]
  exact congrArg _ (if_neg (by simp [hl, hc]))

end

section
variable {v : State} {h : HeldWrite}

theorem tryWrite_refused {k : Nat} (hk : classify v h.req false = .error k) :
    tryWrite v h = writeLeft (dropRequest v h.req.port h.req.issuer k false) h.req.port h.n := by
  simp only [tryWrite, hk]

variable {l : Nat} {a : Allot} (hx : classify v h.req false = .ok (l, a))
include hx

theorem tryWrite_held_by_gate (hg : gateAdmits v (lineGran l) = false) :
    tryWrite v h = holdWrite v { h with line := l, gate := true } := by
  simp [tryWrite, hx, hg]

variable (hg : gateAdmits v (lineGran l) = true)
include hg

theorem tryWrite_held (hb : v.drp.held.any (fun k => k.line == l && k.req.issuer == h.req.issuer) = true
    ∨ (a.mirrored = true ∧ mirrorOn v = true ∧ twinAdmits v l = false)) :
    tryWrite v h = holdWrite v { h with line := l, gate := false } := by
  have hwait : (v.drp.held.any (fun k => k.line == l && k.req.issuer == h.req.issuer)
      || (a.mirrored && mirrorOn v && !twinAdmits v l)) = true := by
    rw [Bool.or_eq_true]
    exact hb.imp_right fun ⟨hm, hon, ht⟩ => by simp [hm, hon, ht]
  simp only [tryWrite, hx, hg, hwait]
  rfl

theorem tryWrite_placed (hb : v.drp.held.any (fun k => k.line == l && k.req.issuer == h.req.issuer) = false)
    (ht : a.mirrored = true → mirrorOn v = true → twinAdmits v l = true) :
    tryWrite v h = placeWrite v { h with line := l, gate := false } ((granAllot v (lineGran l)).getD 0) a := by
  have htwin : (a.mirrored && mirrorOn v && !twinAdmits v l) = false := by
    cases hm : a.mirrored <;> cases hon : mirrorOn v <;> simp_all
  simp only [tryWrite, hx, hg, hb, htwin]
  rfl

end

/-! ### Held writes (R96) -/

section
variable {n t : Nat} {s u : State} (hu : u = tick s t)
include hu

theorem exec_heldWriteDiscard_of_none (h : u.drp.held.find? (fun h => h.n == n) = none) :
    exec (.heldWriteDiscard n t) s = .next u := by
  show execHeldWriteDiscard n t s = _
  simp only [execHeldWriteDiscard, ← hu, h]

variable {h : HeldWrite} (hf : u.drp.held.find? (fun h => h.n == n) = some h)
include hf

theorem exec_heldWriteDiscard_early (hn : u.now < h.since + holdMax u h.req.port) : exec (.heldWriteDiscard n t) s = .next u := by
  show execHeldWriteDiscard n t s = _
  simp only [execHeldWriteDiscard, ← hu, hf, if_pos hn]

/-- The write leaves with those of its requester that wait behind it for its line. -/
theorem exec_heldWriteDiscard (hn : h.since + holdMax u h.req.port ≤ u.now) :
    let gone := fun (k : HeldWrite) => h.n ≤ k.n && k.line == h.line && k.req.issuer == h.req.issuer
    exec (.heldWriteDiscard n t) s = .next (creditKept u ((u.drp.held.filter gone).foldl
      (fun w k => writeLeft (dropRequest w k.req.port k.req.issuer 5 false) k.req.port k.n)
      { u with drp := { u.drp with held := u.drp.held.filter (fun k => !gone k) } }) none) := by
  show execHeldWriteDiscard n t s = _
  simp only [execHeldWriteDiscard, ← hu, hf, if_neg (Nat.not_lt.mpr hn)]

end

/-- A table whose values are changed by their keys. -/
theorem tget_map_value {α β : Type} (f : Nat → α → β) (t : Tbl α) (k : Nat) :
    tget (t.map (fun p => (p.1, f p.1 p.2))) k = (tget t k).map (f k) := by
  induction t with
  | nil => rfl
  | cons p r ih =>
    obtain ⟨j, v⟩ := p
    by_cases hj : j = k
    · subst hj
      simp [tget]
    · simp only [List.map_cons, tget, if_neg hj, ih]

/-- Settles O38: a write is refused, held or placed by the checks of `tryWrite`; a discard looks at the write it names. -/
theorem memoryWritesArePlacedHeldOrDropped : Obligations.MemoryWritesArePlacedHeldOrDropped := by
  refine ⟨fun r x t s u hu => ⟨exec_cxlMemWrite_nothing hu, fun hl hc => ?_⟩,
    fun n t s u hu => ⟨exec_heldWriteDiscard_of_none hu, fun h hf => ⟨exec_heldWriteDiscard_early hu hf, exec_heldWriteDiscard hu hf⟩⟩,
    fun s h => ⟨rfl, rfl, rfl, rfl⟩, fun b s p n x hx => ?_⟩
  · rw [exec_cxlMemWrite hu hl hc]
    refine ⟨fun k hk => ?_, fun l a hx => ⟨fun hg => ?_, fun hg hb => ?_, fun hb hg ht => ?_⟩⟩
    · rw [tryWrite_refused hk]
      rfl
    · rw [tryWrite_held_by_gate hx hg]
    · rw [tryWrite_held hx hg hb]
    · rw [tryWrite_placed hx hg hb ht]
  · have hkept := tget_map_value (fun k (q : Port) => { q with
      credit := if heldOn s k == 0 then 0 else q.credit + b2n (p == some k) - (heldOn b k - heldOn s k) }) s.cxl.ports n
    rw [hx] at hkept
    refine hkept.trans ?_
    simp only [Option.map_some, beq_iff_eq, b2n]

end Sys2Proof.Machine

/-! What happens to a port (R70–R72, R79, R91, R92, R99, R167, R439): its link, global persistent flush, IDE failures and PERST#. -/

namespace Sys2Proof.Machine

open Sys2Proof

/-! ### What the capture of a Corrected fault leaves alone (R376, R379) -/

/-- What every step of a fold leaves alone, the fold leaves alone. -/
theorem foldl_keeps {α β γ : Type} {f : α → β → α} (g : α → γ) (hf : ∀ x b, g (f x b) = g x) (l : List β) (x : α) :
    g (l.foldl f x) = g x := by
  induction l generalizing x with
  | nil => rfl
  | cons b r ih => exact (ih (f x b)).trans (hf x b)

/-- Host memory, the ledger and the writes on their way into it. -/
def stored (s : State) : Mem × Ldg × Drp := (s.mem, s.ldg, s.drp)

theorem stored_nvmStart (s : State) (o : NvmOp) : stored (nvmStart s o) = stored s := by
  have hop : ∀ (s : State) (b : Nat) (o : Option NvmOp), stored (setBankOp s b o) = stored s := fun s b o => by
    unfold setBankOp
    split <;> rfl
  have hsusp : ∀ (s : State) (b : Nat) (o : Option NvmOp), stored (setBankSusp s b o) = stored s := fun s b o => by
    unfold setBankSusp
    split <;> rfl
  unfold nvmStart
  split
  · rfl
  · split
    · exact hop _ _ _
    · split
      · exact (hop _ _ _).trans (hsusp _ _ _)
      · rfl

theorem stored_nvmPost (s : State) (o : NvmOp) : stored (nvmPost s o) = stored s := by
  unfold nvmPost
  simp only
  split
  · rfl
  · split
    · exact stored_nvmStart s o
    · split
      · refine (stored_nvmStart _ o).trans ?_
        split
        · rfl
        · exact stored_nvmStart s _
      · exact stored_nvmStart _ o

theorem stored_logPlace (s : State) (sev : Nat) : stored (logPlace s sev).1 = stored s := by
  unfold logPlace
  split
  · rfl
  · split
    · rfl
    · split
      · rfl
      · split
        · exact stored_nvmPost _ _
        · rfl

theorem stored_logWrite (s : State) (code sev : Nat) (b : EvBin) (part : Option (Nat × List HistEnt)) :
    stored (logWrite s code sev b part).1 = stored s := by
  have hplace := stored_logPlace s sev
  unfold logWrite
  split
  · rename_i w k n h
    rw [h] at hplace
    exact (stored_nvmPost w _).trans hplace
  · rename_i w n h
    rw [h] at hplace
    exact hplace

theorem stored_notifyFault (s : State) (code detail : Nat) : stored (notifyFault s code detail) = stored s := by
  unfold notifyFault postAll
  split
  · split <;> rfl
  · rfl

theorem stored_binEvent (s : State) (code detail flags : Nat) : stored (binEvent s code detail flags) = stored s := by
  unfold binEvent
  simp only
  split <;> rfl

theorem stored_logEvent (s : State) (code detail flags : Nat) : stored (logEvent s code detail flags) = stored s := by
  unfold logEvent
  split
  · rfl
  · split
    · have hwrite := stored_logWrite s code (evSeverity s code) (binOne s (evByLow s code) detail flags) none
      split
      · rename_i w h
        rw [h] at hwrite
        split
        · exact hwrite
        · exact (stored_notifyFault w code detail).trans hwrite
      · rename_i w h
        rw [h] at hwrite
        exact hwrite
    · exact stored_binEvent s code detail flags

theorem stored_forward (s : State) (n : Nat) (holds : Bool) : stored (forward s n holds) = stored s := by
  have hside : ∀ (s : State) (cold : Bool) (x : D2dSide), stored (setSide s cold x) = stored s := fun s cold x => by
    cases cold <;> rfl
  unfold forward sendFrame
  split
  · simp only
    split
    · rfl
    · split
      · exact hside _ _ _
      · exact hside _ _ _
  · rfl

/-- A Corrected fault is recorded and told, and no reaction touches memory, the ledger or a write. -/
theorem stored_raise {n : Nat} (hn : reactRank n = 0) (s : State) (detail : Nat) : stored (raise s n detail) = stored s := by
  unfold raise raiseAs
  split
  · rfl
  · simp only [hn]
    split
    · exact (stored_binEvent _ _ _ _).trans (stored_forward _ _ _)
    · rw [if_neg (by decide), takeSnapshot, hn, if_pos (by simp)]
      exact (stored_logEvent _ _ _ _).trans (stored_forward _ _ _)

/-- CXL_DROP of a port is a Corrected fault (Table 14.2). -/
theorem reactRank_cxlDrop {n : Nat} (hn : n < 4) : reactRank (0x020 + 2 * n) = 0 :=
  (by decide : ∀ n < 4, reactRank (0x020 + 2 * n) = 0) n hn

theorem stored_dropRequest {n : Nat} (hn : n < 4) (s : State) (issuer reason : Nat) (read : Bool) :
    stored (dropRequest s n issuer reason read) = stored s := by
  have hdrop : stored (cxlDrop s n reason) = stored s := by
    refine (stored_raise (reactRank_cxlDrop hn) _ reason).trans ?_
    split <;> rfl
  unfold dropRequest
  simp only
  split <;> exact hdrop

/-! ### Ports -/

@[simp] theorem port_setPort_same (s : State) (n : Nat) (x : Port) : port (setPort s n x) n = x := by
  simp [port, setPort, tgetD]

theorem port_setPort_other (s : State) {n k : Nat} (x : Port) (h : k ≠ n) : port (setPort s n x) k = port s k := by
  rw [port, setPort, tgetD, tget_tset_other _ _ h]
  rfl

/-- What stands as before where only the harvest's own fields may have changed. -/
theorem ite_hrv_keeps (c : Prop) [Decidable c] (s : State) (h : Hrv) :
    (if c then { s with hrv := h } else s).cxl = s.cxl ∧ (if c then { s with hrv := h } else s).mem = s.mem
      ∧ (if c then { s with hrv := h } else s).ldg = s.ldg ∧ (if c then { s with hrv := h } else s).out = s.out
      ∧ (if c then { s with hrv := h } else s).drp.held = s.drp.held
      ∧ (if c then { s with hrv := h } else s).exl.withheld = s.exl.withheld := by
  split <;> exact ⟨rfl, rfl, rfl, rfl, rfl, rfl⟩

/-- What a link that falls leaves: the port as new but for an insecure stream, its held writes gone, its completions unsent. -/
theorem linkFalls_of_up {s : State} {n : Nat} (h : (port s n).link = 2) : ∃ w, linkFalls s n = emit w (.linkDown n)
    ∧ w.cxl = (setPort s n { port s n with
        link := if cfg s (regAt rCxlCfg n) 31 1 == 1 then 1 else 3, ide := if (port s n).ide == 2 then 2 else 0,
        spdm := {}, ideKeys := {}, gpf := false, gpfSet := [], credit := 0 }).cxl
    ∧ w.mem = s.mem ∧ w.ldg = s.ldg ∧ w.out = s.out
    ∧ w.drp.held = s.drp.held.filter (fun h => h.req.port != n)
    ∧ w.exl.withheld = s.exl.withheld.filter (fun w => !(w.port == n)) := by
  have hup : ¬((port s n).link != 2) = true := by simp [h]
  exact ⟨_, if_neg hup, ite_hrv_keeps _ _ _⟩

/-- Where the link is up, what falls with it. -/
theorem linkFalls_fields {s : State} {n : Nat} (h : (port s n).link = 2) :
    (port (linkFalls s n) n).link = (if cfg s (regAt rCxlCfg n) 31 1 = 1 then 1 else 3)
      ∧ (port (linkFalls s n) n).ide = (if (port s n).ide = 2 then 2 else 0) ∧ (port (linkFalls s n) n).spdm = {}
      ∧ (linkFalls s n).mem = s.mem ∧ (linkFalls s n).ldg = s.ldg ∧ (linkFalls s n).out = .linkDown n :: s.out
      ∧ (∀ h ∈ (linkFalls s n).drp.held, h.req.port ≠ n) ∧ (∀ w ∈ (linkFalls s n).exl.withheld, w.port ≠ n) := by
  obtain ⟨w, hw, hcxl, hmem, hldg, hout, hheld, hwithheld⟩ := linkFalls_of_up h
  have hport : port (linkFalls s n) n = { port s n with
      link := if cfg s (regAt rCxlCfg n) 31 1 == 1 then 1 else 3, ide := if (port s n).ide == 2 then 2 else 0,
      spdm := {}, ideKeys := {}, gpf := false, gpfSet := [], credit := 0 } := by
    rw [hw, port, emit_cxl, hcxl]
    exact port_setPort_same s n _
  rw [hport, hw, emit_mem, emit_ldg, emit_out, emit_drp, emit_exl, hmem, hldg, hout, hheld, hwithheld]
  refine ⟨?_, ?_, rfl, rfl, rfl, rfl, ?_, ?_⟩
  · simp only [beq_iff_eq]
  · simp only [beq_iff_eq]
  · simp
  · simp

section
variable {n t : Nat} {s u : State} (hu : u = tick s t)
include hu

theorem exec_cxlLinkDown : exec (.cxlLinkDown n t) s = .next (linkFalls u n) := by
  subst hu
  rfl

theorem exec_cxlLinkDown_nothing (h : (port u n).link ≠ 2) : exec (.cxlLinkDown n t) s = .next u := by
  rw [exec_cxlLinkDown hu, linkFalls, if_pos (by simpa using h)]

/-! ### Global persistent flush (R92) -/

theorem exec_gpf_nothing (h : (port u n).link ≠ 2 ∨ u.ldg.closed = true) :
    exec (.gpfPhase1 n t) s = .next u ∧ exec (.gpfPhase2 n t) s = .next u := by
  have hno : ¬((port u n).link == 2 && !u.ldg.closed) = true := by rcases h with h | h <;> simp [h]
  subst hu
  exact ⟨congrArg Host.Outcome.next (if_neg hno), congrArg Host.Outcome.next (if_neg hno)⟩

theorem exec_gpf (hl : (port u n).link = 2) (hc : u.ldg.closed = false) :
    exec (.gpfPhase1 n t) s = .next (emit u (.gpf n 1))
      ∧ exec (.gpfPhase2 n t) s
        = .next (judgeGpf (setPort u n { port u n with gpf := true, gpfSet := openWrites u n, gpfAt := u.now }) n) := by
  have hup : ((port u n).link == 2 && !u.ldg.closed) = true := by simp [hl, hc]
  subst hu
  exact ⟨congrArg Host.Outcome.next (if_pos hup), congrArg Host.Outcome.next (if_pos hup)⟩

theorem exec_gpfDeadline_nothing (h : (port u n).gpf = false ∨ u.now < (port u n).gpfAt + gpfDuration u n) :
    exec (.gpfDeadline n t) s = .next u := by
  have hearly : (!(port u n).gpf || decide (u.now < (port u n).gpfAt + gpfDuration u n)) = true := by simpa using h
  subst hu
  exact congrArg Host.Outcome.next (if_pos hearly)

/-- The writes left are discarded, with memory and ledger as they were, and the flush answers. -/
theorem exec_gpfDeadline (hn : n < 4) (hg : (port u n).gpf = true) (hdue : (port u n).gpfAt + gpfDuration u n ≤ u.now) :
    ∃ w, exec (.gpfDeadline n t) s = .next (retryHeld (judgeGpf (setPort w n { port w n with gpfSet := [] }) n))
      ∧ stored w = (u.mem, u.ldg, { u.drp with
          held := u.drp.held.filter (fun h => !(h.req.port == n && (port u n).gpfSet.contains h.n)) }) := by
  have hover : ¬(!(port u n).gpf || decide (u.now < (port u n).gpfAt + gpfDuration u n)) = true := by simp [hg, hdue]
  subst hu
  exact ⟨_, congrArg Host.Outcome.next (if_neg hover),
    foldl_keeps stored (fun x (b : Nat × Nat) => stored_dropRequest hn x b.2 7 false) _ _⟩

end

/-- A flush that waits for no write answers. -/
theorem judgeGpf_answers {s : State} {n : Nat} (hg : (port s n).gpf = true) (he : (port s n).gpfSet = []) :
    Out.gpf n 2 ∈ (judgeGpf s n).out := by
  have hdone : ((port s n).gpf && (port s n).gpfSet.isEmpty) = true := by simp [hg, he]
  rw [judgeGpf]
  exact (congrArg (fun w : State => Out.gpf n 2 ∈ w.out) (if_pos hdone)).mpr List.mem_cons_self

/-! ### IDE (R99) -/

section
variable {n t : Nat} {reqs : List (Nat × Bool)} {s u : State} (hu : u = tick s t)
include hu

theorem exec_ideIntegrityFailure_nothing (h : (port u n).link ≠ 2 ∨ (port u n).ide = 0) :
    exec (.ideIntegrityFailure n reqs t) s = .next u := by
  subst hu
  exact congrArg Host.Outcome.next (if_pos (by simpa using h))

theorem exec_ideIntegrityFailure (hl : (port u n).link = 2) (hi : (port u n).ide ≠ 0) :
    exec (.ideIntegrityFailure n reqs t) s = .next (raiseOpen (reqs.foldl (fun w r => dropRequest w n r.1 1 r.2)
      (setPort u n { port u n with
        ide := 2, ideKeys := { (port u n).ideKeys with programmed := [], running := false } })) (0x021 + 2 * n)) := by
  subst hu
  exact congrArg Host.Outcome.next (if_neg (by simp [hl, hi]))

end

/-! ### A link that comes up (R69–R72, R79) -/

/-- The ports and host memory. -/
def portsAndMemory (s : State) : Tbl Port × Mem := (s.cxl.ports, s.mem)

theorem portsAndMemory_postDc (s : State) (ty id : Nat) (a : Allot) (b : Binding) (ks : List Nat) :
    portsAndMemory (postDc s ty id a b ks) = portsAndMemory s := by
  unfold postDc
  refine foldl_keeps portsAndMemory (fun _ _ => ?_) _ s
  rfl

theorem portsAndMemory_modBinding (s : State) (id issuer : Nat) (f : Binding → Binding) :
    portsAndMemory (modBinding s id issuer f) = portsAndMemory s := by
  unfold modBinding modAllot
  split <;> rfl

theorem portsAndMemory_offerTo (s : State) (id : Nat) (issuer : BitVec 16) :
    portsAndMemory (offerTo s id issuer) = portsAndMemory s := by
  unfold offerTo
  split
  · rfl
  · split
    · rfl
    · split
      · rfl
      · exact (portsAndMemory_postDc _ _ _ _ _ _).trans (portsAndMemory_modBinding _ _ _ _)

/-- An offer to a host changes no port and no byte of memory. -/
theorem portsAndMemory_offerRest (s : State) (id : Nat) (issuer : BitVec 16) :
    portsAndMemory (offerRest s id issuer) = portsAndMemory s := by
  unfold offerRest
  split
  · rfl
  · split
    · rfl
    · split
      · exact portsAndMemory_offerTo s id issuer
      · split
        · rfl
        · exact (portsAndMemory_postDc _ _ _ _ _ _).trans (portsAndMemory_modBinding _ _ _ _)

/-- A port exists, is powered and may train. -/
def portMayTrain (u : State) (n : Nat) : Prop :=
  n < nPorts u ∧ u.pin.padOn = true ∧ logicOn u = true ∧ u.dev.state ≠ .harvesting ∧ (port u n).perst = false
    ∧ (port u n).link ≠ 2

theorem portMayTrain_iff {u : State} {n : Nat} : portMayTrain u n ↔ ¬(decide (nPorts u ≤ n) || !u.pin.padOn || !logicOn u
    || u.dev.state == .harvesting || (port u n).perst || (port u n).link == 2) = true := by
  simp [portMayTrain, and_assoc]

section
variable {n width speed t : Nat} {flit : Bool} {s u : State} (hu : u = tick s t)
include hu

theorem exec_cxlLinkUp_nothing (h : ¬portMayTrain u n) : exec (.cxlLinkUp n width speed flit t) s = .next u := by
  subst hu
  exact congrArg Host.Outcome.next (if_pos (not_not.mp (mt portMayTrain_iff.mpr h)))

section
variable (hmay : portMayTrain u n)
include hmay

theorem exec_cxlLinkUp_disabled (he : cfg u (regAt rCxlCfg n) 31 1 = 0) :
    exec (.cxlLinkUp n width speed flit t) s = .next (setPort u n { port u n with link := 3 }) := by
  show execCxlLinkUp n width speed flit t s = _
  simp only [execCxlLinkUp, ← hu, if_neg (portMayTrain_iff.mp hmay), he]
  rfl

variable (he : cfg u (regAt rCxlCfg n) 31 1 ≠ 0)
include he

/-- An enabled port is in training with an error code until mode, flits, speed and width agree. -/
theorem exec_cxlLinkUp_enabled : ∃ v,
    exec (.cxlLinkUp n width speed flit t) s = .next
      (if n ≠ 0 ∧ cfgCode u n 26 ≠ modeOfAll u then setPort u n { port u n with link := 1, err := 1 }
        else if flit = false then setPort u n { port u n with link := 1, err := 3 }
        else if 1 < speed then setPort u n { port u n with link := 1, err := 0 }
        else if 2 < max (cfgCode u n 24) width then setPort u n { port u n with link := 1, err := 2 }
        else v)
      ∧ portsAndMemory v = portsAndMemory (setPort u n { port u n with
          link := 2, err := 0, mode := cfgCode u n 26, width := max (cfgCode u n 24) width,
          speed := min 1 (max speed (cfg u (regAt rCxlCfg n) 23 1)) }) := by
  have hon : ¬(cfg u (regAt rCxlCfg n) 31 1 == 0) = true := by simpa using he
  show ∃ v, execCxlLinkUp n width speed flit t s = _ ∧ _
  simp only [execCxlLinkUp, ← hu, if_neg (portMayTrain_iff.mp hmay), if_neg hon, Bool.and_eq_true, bne_iff_ne, Bool.not_eq_true']
  refine ⟨_, rfl, ?_⟩
  refine foldl_keeps portsAndMemory (fun x p => foldl_keeps portsAndMemory (fun y b => ?_) _ x) _ _
  split
  · exact portsAndMemory_offerRest _ _ _
  · rfl

end

end

/-! ### PERST# (R439) -/

section
variable {n t : Nat} {s u : State} (hu : u = tick s t)
include hu

theorem exec_perstN_nothing {low : Bool} (h : nPorts u ≤ n ∨ u.pin.padOn = false) : exec (.perstN n low t) s = .next u := by
  subst hu
  exact congrArg Host.Outcome.next (if_pos (by simpa using h))

theorem exec_perstN (hn : n < nPorts u) (hp : u.pin.padOn = true) :
    exec (.perstN n false t) s = .next (setPort u n { port u n with perst := false })
      ∧ exec (.perstN n true t) s = .next (setPort (linkFalls u n) n { port (linkFalls u n) n with perst := true }) := by
  have hthere : ¬(decide (nPorts u ≤ n) || !u.pin.padOn) = true := by simp [hn, hp]
  subst hu
  exact ⟨congrArg Host.Outcome.next (if_neg hthere), congrArg Host.Outcome.next (if_neg hthere)⟩

end

/-- Settles O40: each event by its rule above. -/
theorem portEvents : Obligations.PortEvents := by
  refine ⟨fun n t s u hu => ⟨exec_cxlLinkDown_nothing hu, exec_gpf_nothing hu, fun _ => exec_cxlLinkDown hu, exec_gpf hu,
      fun h => exec_gpfDeadline_nothing hu (h.imp_right fun h => ?_), fun hn hg hdue => ?_, fun s => judgeGpf_answers⟩,
    fun n reqs t s u hu => ⟨exec_ideIntegrityFailure_nothing hu, exec_ideIntegrityFailure hu⟩,
    fun n width speed flit t s u hu => ?_, fun n low t s u hu => ⟨exec_perstN_nothing hu, exec_perstN hu⟩,
    fun s n => linkFalls_fields⟩
  · rw [gpfDuration, holdMax]
    omega
  · obtain ⟨w, hw, hstored⟩ := exec_gpfDeadline hu hn hg (by rw [gpfDuration, holdMax]; omega)
    simp only [stored, Prod.mk.injEq] at hstored
    obtain ⟨hmem, hldg, hdrp⟩ := hstored
    exact ⟨w, hw, by rw [hmem], hldg, by rw [hdrp]⟩
  · refine ⟨exec_cxlLinkUp_nothing hu, exec_cxlLinkUp_disabled hu, fun hmay he => ?_⟩
    obtain ⟨v, hv, hkept⟩ := exec_cxlLinkUp_enabled (width := width) (speed := speed) (flit := flit) hu hmay he
    rw [hv]
    have hmode : n = 0 ∨ cfgCode u n 26 = modeOfAll u → ¬(n ≠ 0 ∧ cfgCode u n 26 ≠ modeOfAll u) := by tauto
    refine ⟨fun h0 hm => congrArg _ (if_pos ⟨h0, hm⟩), fun hm hf => ?_, fun hm hf hs => ?_, fun hm hf hs hw => ?_,
      fun hm hf hs hw => ⟨v, ?_, ?_⟩⟩
    · rw [if_neg (hmode hm), if_pos hf]
    · rw [if_neg (hmode hm), if_neg (by simp [hf]), if_pos hs]
    · rw [if_neg (hmode hm), if_neg (by simp [hf]), if_neg (Nat.not_lt.mpr hs), if_pos hw]
    · rw [if_neg (hmode hm), if_neg (by simp [hf]), if_neg (Nat.not_lt.mpr hs), if_neg (Nat.not_lt.mpr hw)]
    · simp only [portsAndMemory, Prod.mk.injEq] at hkept
      obtain ⟨hports, hmem⟩ := hkept
      have hport : ∀ k, port v k = port (setPort u n _) k := fun k => congrArg (fun p => tgetD p k ({} : Port)) hports
      rw [hport n, port_setPort_same]
      exact ⟨rfl, rfl, rfl, rfl, hmem, fun k hk => (hport k).trans (port_setPort_other u _ hk)⟩

end Sys2Proof.Machine

/-! The DRAM channels in service (R113, R116, R120–R125, R129, R134): urgent requests, refresh, retraining passes, delays written
by a host, self-refresh, patrol scrub and rebuilt tallies. -/

namespace Sys2Proof.Machine

open Sys2Proof

/-! ### Channels -/

@[simp] theorem ddr_setDdr_same (s : State) (c : Nat) (x : Ddr) : ddr (setDdr s c x) c = x := by
  simp [ddr, setDdr, tgetD]

theorem ddr_setDdr_other (s : State) {c k : Nat} (x : Ddr) (h : k ≠ c) : ddr (setDdr s c x) k = ddr s k := by
  rw [ddr, setDdr, tgetD, tget_tset_other _ _ h]
  rfl

/-- The one request of the given number is marked, in either queue (R113). -/
theorem exec_requestUrgent {c n t : Nat} {s u : State} (hu : u = tick s t) :
    exec (.requestUrgent c n t) s = .next (setDdr u c { ddr u c with
      rdq := (ddr u c).rdq.map (fun q => if q.n == n then { q with urgent := true } else q),
      wrq := (ddr u c).wrq.map (fun q => if q.n == n then { q with urgent := true } else q) }) := by
  subst hu
  rfl

/-! ### Refresh (R116) -/

section
variable {x : Ddr} {rank : Nat}

/-- With requests queued, one pulled in covers the interval, four may be postponed, and the fifth is issued. -/
theorem refreshTurn_queued (hq : rankQueued x rank = true) : refreshTurn x rank =
    if 0 < tgetD x.pulledIn rank 0 then { x with pulledIn := tset x.pulledIn rank (tgetD x.pulledIn rank 0 - 1) }
    else if tgetD x.postponed rank 0 < 4 then { x with postponed := tset x.postponed rank (tgetD x.postponed rank 0 + 1) }
    else refreshRank x rank (!x.sameBank) :=
  if_pos hq

/-- With none queued the refresh is issued, and a second one makes up a postponed one or is pulled in, up to four. -/
theorem refreshTurn_idle (hq : rankQueued x rank = false) : refreshTurn x rank =
    let made := refreshRank x rank (!x.sameBank)
    if 0 < tgetD x.postponed rank 0 then
      { refreshRank made rank (!x.sameBank) with postponed := tset x.postponed rank (tgetD x.postponed rank 0 - 1) }
    else if tgetD x.pulledIn rank 0 < 4 then
      { refreshRank made rank (!x.sameBank) with pulledIn := tset x.pulledIn rank (tgetD x.pulledIn rank 0 + 1) }
    else made :=
  if_neg (by simp [hq])

end

/-- The interval since the last refresh of a rank has not elapsed (R116). -/
def RefreshEarly (x : Ddr) (rank now : Nat) : Prop :=
  ∃ f, tget x.refAt rank = some f ∧ 1000 * (now + 1) < 1000 * f + refreshNs x

/-- The probes a refresh carries: those of lanes of its rank that the pass has not probed yet (R120). -/
def probesDue (x : Ddr) (rank : Nat) (probe : List LaneProbe) : List LaneProbe :=
  probe.filter (fun p => p.lane / 8 % 8 == rank && (allLanes x).contains p.lane && !x.probed.contains p.lane)

/-- The probes in turn, each lane once. -/
def probeLanes (s : State) (c : Nat) (l : List LaneProbe) : State :=
  l.foldl (fun v p => if (ddr v c).probed.contains p.lane then v else probeLane v c p) s

/-- The pass is over: its time and the module temperatures of it are kept (R120). -/
def passEnded (s : State) (c : Nat) : State :=
  setDdr s c { ddr s c with retraining := false, probed := [], lastPass := s.now, passTemps := (ddr s c).temps }

section
variable {c rank t : Nat} {hot : Bool} {probe : List LaneProbe} {s u : State} (hu : u = tick s t)
include hu

/-- No refresh on a channel that does not run, nor before the interval has elapsed. -/
theorem exec_refreshDue_nothing (h : (ddr u c).st ≠ 2 ∨ RefreshEarly (ddr u c) rank u.now) :
    exec (.refreshDue c rank hot probe t) s = .next u := by
  subst hu
  refine congrArg Host.Outcome.next (if_pos ?_)
  generalize tick s t = u at h
  rcases h with hst | ⟨f, hf, hlt⟩
  · simp [hst]
  · simp [hf, hlt]

/-- An elapsed interval: a step of the pass where one is due, else the rank's turn. -/
theorem exec_refreshDue_elapsed (hst : (ddr u c).st = 2) (hdue : ¬RefreshEarly (ddr u c) rank u.now) :
    exec (.refreshDue c rank hot probe t) s = .next (
      let y := { ddr u c with hot := hot, refAt := tset (ddr u c).refAt rank u.now }
      let w := probeLanes (setDdr u c (refreshRank y rank true)) c (probesDue (ddr u c) rank probe)
      if (ddr u c).retraining && mayRetrain u c && !(probesDue (ddr u c) rank probe).isEmpty then
        if (allLanes (ddr u c)).all (ddr w c).probed.contains then passEnded w c else w
      else setDdr u c (refreshTurn y rank)) := by
  subst hu
  refine congrArg Host.Outcome.next (if_neg ?_)
  generalize tick s t = u at hst hdue
  cases hlast : tget (ddr u c).refAt rank with
  | none => simp [hst]
  | some f => simpa [hst, hlast, RefreshEarly] using hdue

/-- With no step of a pass due the rank takes its turn. -/
theorem exec_refreshDue_turn (hst : (ddr u c).st = 2) (hdue : ¬RefreshEarly (ddr u c) rank u.now)
    (hno : (ddr u c).retraining = false ∨ mayRetrain u c = false ∨ probesDue (ddr u c) rank probe = []) :
    exec (.refreshDue c rank hot probe t) s = .next (setDdr u c
      (refreshTurn { ddr u c with hot := hot, refAt := tset (ddr u c).refAt rank u.now } rank)) := by
  rw [exec_refreshDue_elapsed hu hst hdue]
  refine congrArg Host.Outcome.next (if_neg ?_)
  rcases hno with h | h | h <;> simp [h]

/-- A step of the pass that leaves lanes, and one that probes the last. -/
theorem exec_refreshDue_probes (hst : (ddr u c).st = 2) (hdue : ¬RefreshEarly (ddr u c) rank u.now)
    (hr : (ddr u c).retraining = true) (hm : mayRetrain u c = true)
    (hsome : probesDue (ddr u c) rank probe ≠ []) :
    let y := { ddr u c with hot := hot, refAt := tset (ddr u c).refAt rank u.now }
    let w := probeLanes (setDdr u c (refreshRank y rank true)) c (probesDue (ddr u c) rank probe)
    ((allLanes (ddr u c)).all (ddr w c).probed.contains = false → exec (.refreshDue c rank hot probe t) s = .next w)
    ∧ ((allLanes (ddr u c)).all (ddr w c).probed.contains = true →
        exec (.refreshDue c rank hot probe t) s = .next (passEnded w c)) := by
  intro y w
  have hstep : exec (.refreshDue c rank hot probe t) s =
      .next (if (allLanes (ddr u c)).all (ddr w c).probed.contains then passEnded w c else w) := by
    rw [exec_refreshDue_elapsed hu hst hdue]
    exact congrArg Host.Outcome.next (if_pos (by simp [hr, hm, hsome]))
  rw [hstep]
  exact ⟨fun h => congrArg Host.Outcome.next (if_neg (by rw [h]; decide)), fun h => congrArg Host.Outcome.next (if_pos h)⟩

end

/-! ### The starts of a pass (R120, R121) -/

section
variable {c t : Nat} {temps : List Nat} {s u : State} (hu : u = tick s t)
include hu

theorem exec_retrainDue_early (h : u.now < (ddr u c).lastPass + 900000000) : exec (.retrainDue c t) s = .next u := by
  subst hu
  exact congrArg Host.Outcome.next (if_neg (Nat.not_le.mpr h))

theorem exec_retrainDue (h : (ddr u c).lastPass + 900000000 ≤ u.now) : exec (.retrainDue c t) s = .next (startPass u c) := by
  subst hu
  exact congrArg Host.Outcome.next (if_pos h)

/-- No sensors are read without modules, without a reading of each, over a bus that is down or within a second of the last. -/
theorem exec_dimmTempPoll_nothing (h : (ddr u c).dimms = 0 ∨ temps.length < (ddr u c).dimms ∨ twiUp u 3 = false ∨
    ∃ f, (ddr u c).polledAt = some f ∧ u.now < f + 1000000) : exec (.dimmTempPoll c temps t) s = .next u := by
  subst hu
  refine congrArg Host.Outcome.next (if_pos ?_)
  generalize tick s t = u at h
  rcases h with h | h | h | ⟨f, hf, hlt⟩
  · simp [h]
  · simp [h]
  · simp [h]
  · simp [hf, hlt]

/-- The readings are taken, and one that has moved by 10 from the last pass's starts a pass. -/
theorem exec_dimmTempPoll (hd : (ddr u c).dimms ≠ 0) (hl : (ddr u c).dimms ≤ temps.length) (hup : twiUp u 3 = true)
    (hdue : ∀ f, (ddr u c).polledAt = some f → f + 1000000 ≤ u.now) :
    exec (.dimmTempPoll c temps t) s = .next (
      let l := (temps.take (ddr u c).dimms).map (· % 256)
      let w := setDdr u c { ddr u c with polledAt := some u.now, temps := l, temp := l.foldl max 0 }
      if (l.zip (ddr u c).passTemps).any (fun p => 10 ≤ max p.1 p.2 - min p.1 p.2) then startPass w c else w) := by
  subst hu
  refine congrArg Host.Outcome.next (if_neg ?_)
  generalize tick s t = u at hd hl hup hdue
  cases hlast : (ddr u c).polledAt with
  | none => simp [hd, hl, hup]
  | some f => simpa [hd, hl, hup] using hdue f hlast

end

/-! ### Self-refresh (R123, R125) -/

/-- Channels awake or on their way. -/
def awakeChannels (s : State) : Nat := (s.ddrs.ch.filter (fun p => p.2.st == 2 || p.2.st == 4)).length

/-- The plan or an issued stripe is about to read channel `c` (R125). -/
def readsSoon (s : State) (c : Nat) : Bool :=
  match s.hrv.run with
  | some r => (r.plan.take 1024).any (fun g => granChan s g == c)
      || r.issued.any (fun k => k.grans.any (fun p => granChan s p.1 == c && !k.read.contains p.1))
  | none => false

/-- A channel that drains rests once both its queues are empty, its delays saved. -/
theorem restStep_entering {x : Ddr} (hst : x.st = 4) (hl : x.leaving = false) : restStep x =
    if x.rdq = [] ∧ x.wrq = [] then { x with st := 3, openRows := [], drain := [], saved := x.lanes } else x := by
  simp [restStep, hst, hl]

section
variable {c t : Nat} {s u : State} (hu : u = tick s t)
include hu

theorem exec_selfRefreshEntry_nothing (h : u.dev.state ≠ .harvesting ∨ (ddr u c).st ≠ 2) :
    exec (.selfRefreshEntry c t) s = .next u := by
  subst hu
  exact congrArg Host.Outcome.next (if_pos (by simpa using h))

/-- In HARVESTING a running channel begins to drain; one with empty queues rests at once. -/
theorem exec_selfRefreshEntry (hh : u.dev.state = .harvesting) (hst : (ddr u c).st = 2) :
    exec (.selfRefreshEntry c t) s = .next (stripesRead (setDdr u c
      (if (ddr u c).rdq = [] ∧ (ddr u c).wrq = [] then
        { ddr u c with st := 3, leaving := false, retraining := false, openRows := [], drain := [], saved := (ddr u c).lanes }
      else { ddr u c with st := 4, leaving := false, retraining := false })) c) := by
  rw [← restStep_entering (x := { ddr u c with st := 4, leaving := false, retraining := false }) rfl rfl]
  subst hu
  exact congrArg Host.Outcome.next (if_neg (by simpa [hst] using hh))

/-- The exit waits for the harvest to need the channel and for room under the limit. -/
theorem exec_selfRefreshExit_eq : exec (.selfRefreshExit c t) s = .next (
    if u.dev.state != .harvesting || (ddr u c).st != 3 || awakeLimit u ≤ awakeChannels u || !readsSoon u c then u
    else setDdr u c { ddr u c with st := 4, leaving := true }) := by
  subst hu
  rfl

theorem exec_selfRefreshExit_nothing (h : u.dev.state ≠ .harvesting ∨ (ddr u c).st ≠ 3 ∨ awakeLimit u ≤ awakeChannels u ∨
    readsSoon u c = false) : exec (.selfRefreshExit c t) s = .next u := by
  rw [exec_selfRefreshExit_eq hu, if_pos]
  simpa [or_assoc] using h

theorem exec_selfRefreshExit (hh : u.dev.state = .harvesting) (hst : (ddr u c).st = 3) (hawake : awakeChannels u < awakeLimit u)
    (hsoon : readsSoon u c = true) :
    exec (.selfRefreshExit c t) s = .next (setDdr u c { ddr u c with st := 4, leaving := true }) := by
  rw [exec_selfRefreshExit_eq hu, if_neg]
  simp [hh, hst, hawake, hsoon]

end

/-! ### Delays written by a host (R122) -/

/-- Sets a lane of a channel. -/
def setLane (s : State) (c lane : Nat) (l : Lane) : State := setDdr s c { ddr s c with lanes := tset (ddr s c).lanes lane l }

section
variable {c lane t r w : Nat} {ok : Bool} {s u : State} (hu : u = tick s t)
include hu

/-- During a pass, or with no value pending, nothing is applied. -/
theorem exec_hostDelayApply_nothing (h : (ddr u c).retraining = true ∨ (tgetD (ddr u c).lanes lane {}).pending = none) :
    exec (.hostDelayApply c lane ok t) s = .next u := by
  subst hu
  by_cases hr : (ddr (tick s t) c).retraining = true
  · exact congrArg Host.Outcome.next (if_pos hr)
  · refine congrArg Host.Outcome.next ((if_neg hr).trans ?_)
    simp only [h.resolve_left hr]

/-- The pending value goes: in hardware mode dropped, else taken over where its test passed and rejected where it failed. -/
theorem exec_hostDelayApply (hr : (ddr u c).retraining = false)
    (hp : (tgetD (ddr u c).lanes lane {}).pending = some (r, w)) :
    exec (.hostDelayApply c lane ok t) s = .next (setLane u c lane (
      let l := tgetD (ddr u c).lanes lane {}
      if !assisted u 5 then { l with pending := none }
      else if ok then { l with pending := none, rd := r, wr := w, hostSet := true }
      else { l with pending := none, rejected := true })) := by
  subst hu
  refine congrArg Host.Outcome.next ((if_neg (by simp [hr])).trans ?_)
  simp only [hp]
  rfl

end

/-! ### Patrol scrub (R129) -/

theorem scrubNext_mem (s : State) (c : Nat) : (scrubNext s c).mem = s.mem := rfl

theorem scrubNext_flt (s : State) (c : Nat) : (scrubNext s c).flt = s.flt := rfl

/-- No chunk is out, and the pass stands at the next granule, or at the first after the last. -/
theorem ddr_scrubNext_same (s : State) (c : Nat) : (ddr (scrubNext s c) c).scrubCut = none ∧
    (ddr (scrubNext s c) c).scrubAt = if chanGranules s c ≤ (ddr s c).scrubAt + 1 then 0 else (ddr s c).scrubAt + 1 := by
  simp [scrubNext]

theorem ddr_scrubNext_other (s : State) {c k : Nat} (h : k ≠ c) : ddr (scrubNext s c) k = ddr s k :=
  (ddr_setDdr_other _ _ h).trans (ddr_setDdr_other _ _ h)

/-- The corrections and uncorrectable lines of a chunk, in the granule of channel `c` the pass stands at (R127–R129). -/
def scrubFound (s : State) (c : Nat) (ces : List (Nat × Nat)) (ues : List Nat) : State :=
  let here := fun (l : Nat) => lineChan s l == c && localGran s l == (ddr s c).scrubAt
  internalUes ((ces.filter (fun p => here p.1)).foldl (fun w p => corrected w p.1 p.2) s) (ues.filter here)

section
variable {c n t : Nat} {ces : List (Nat × Nat)} {ues : List Nat} {s u : State} (hu : u = tick s t)
include hu

theorem exec_scrubChunk_nothing (h : (ddr u c).scrubCut = none ∨ serving u = false ∨ (ddr u c).st ≠ 2 ∨
    ∃ n, (ddr u c).scrubCut = some n ∧ cuttingOut u (fun x => x.n == n) = true) :
    exec (.scrubChunk c ces ues t) s = .next u := by
  subst hu
  refine congrArg Host.Outcome.next ?_
  cases hcut : (ddr (tick s t) c).scrubCut with
  | none => rfl
  | some n =>
    refine if_pos ?_
    rcases h with h | h | h | ⟨m, hm, hout⟩
    · simp [hcut] at h
    · simp [h]
    · simp [h]
    · obtain rfl : n = m := Option.some.inj (hcut.symm.trans hm)
      simp [hout]

/-- A chunk whose cutting has ended: what it found is noted, and the pass goes on. -/
theorem exec_scrubChunk (hcut : (ddr u c).scrubCut = some n) (hs : serving u = true) (hst : (ddr u c).st = 2)
    (hout : cuttingOut u (fun x => x.n == n) = false) :
    exec (.scrubChunk c ces ues t) s = .next (scrubNext (scrubFound u c ces ues) c) := by
  subst hu
  refine congrArg Host.Outcome.next ?_
  simp only [hcut]
  exact if_neg (by simp [hs, hst, hout])

end

/-! ### Rebuilt tallies (R134) -/

section
variable {c t g : Nat} {ues : List Nat} {s u : State} (hu : u = tick s t)
include hu

theorem exec_tallyRebuildDone_nothing (h : (ddr u c).rebuild = none) : exec (.tallyRebuildDone c ues t) s = .next u := by
  subst hu
  refine congrArg Host.Outcome.next ?_
  simp only [h]

/-- The rebuilt granule's tally is set and counted, the channel turns to the next, and the waiting writes go. -/
theorem exec_tallyRebuildDone (h : (ddr u c).rebuild = some g) :
    let v := internalUes u (ues.filter (fun l => lineGran l == g))
    let w := setCrc v g (granCrcOf v g)
    let w := { w with mem := { w.mem with rebuildWaits := sdel w.mem.rebuildWaits g } }
    exec (.tallyRebuildDone c ues t) s = .next (releaseRebuilt (raiseOpen (bump (setDdr w c { ddr w c with
      rebuild := w.mem.rebuildWaits.find? (fun h => granChan w h == c) }) (regAt rDdrTally c) 0 16 1) (0x045 + 8 * c))) := by
  subst hu
  refine congrArg Host.Outcome.next ?_
  simp only [h]

end

/-- Settles O41: each event by its rule above. -/
theorem dramChannelEvents : Obligations.DramChannelEvents := by
  refine ⟨fun c n t s u hu => exec_requestUrgent hu,
    fun c rank t hot probe s u hu => ⟨exec_refreshDue_nothing hu, fun hst hdue =>
      ⟨exec_refreshDue_turn hu hst hdue, exec_refreshDue_probes hu hst hdue⟩⟩,
    fun x rank => ?_, fun c t temps s u hu => ⟨exec_retrainDue_early hu, exec_retrainDue hu, exec_dimmTempPoll_nothing hu,
      exec_dimmTempPoll hu, exec_selfRefreshEntry_nothing hu, fun hh hst => ⟨fun hempty => ?_, fun hfull => ?_⟩,
      exec_selfRefreshExit_nothing hu, exec_selfRefreshExit hu⟩,
    fun c lane t ok s u hu => ⟨exec_hostDelayApply_nothing hu, fun r w hr hp => ⟨fun hm => ?_, fun hm => ?_, fun hm => ?_⟩⟩,
    fun c t ces ues s u hu => ⟨exec_scrubChunk_nothing hu, fun n hcut hs hst hout =>
      ⟨_, exec_scrubChunk hu hcut hs hst hout, scrubNext_mem _ c, scrubNext_flt _ c, (ddr_scrubNext_same _ c).1,
        (ddr_scrubNext_same _ c).2, fun k => ddr_scrubNext_other _⟩⟩,
    fun c t ues s u hu => ⟨exec_tallyRebuildDone_nothing hu, fun g => exec_tallyRebuildDone hu⟩⟩
  · refine ⟨fun hq ha => ?_, fun hq ha hp => ?_, fun hq ha hp => ?_, fun hq hp => ?_, fun hq hp ha => ?_, fun hq hp ha => ?_⟩
    · rw [refreshTurn_queued hq, if_pos ha]
    · rw [refreshTurn_queued hq, if_neg (Nat.not_lt.mpr ha.le), if_pos hp]
    · rw [refreshTurn_queued hq, if_neg (Nat.not_lt.mpr ha.le), if_neg (Nat.not_lt.mpr hp)]
    · exact (refreshTurn_idle hq).trans (if_pos hp)
    · exact (refreshTurn_idle hq).trans ((if_neg (Nat.not_lt.mpr hp.le)).trans (if_pos ha))
    · exact (refreshTurn_idle hq).trans ((if_neg (Nat.not_lt.mpr hp.le)).trans (if_neg (Nat.not_lt.mpr ha)))
  · rw [exec_selfRefreshEntry hu hh hst, if_pos hempty]
  · rw [exec_selfRefreshEntry hu hh hst, if_neg hfull]
  all_goals
    rw [exec_hostDelayApply hu hr hp, hm]
    rfl

end Sys2Proof.Machine

/-! The exposure limit (R140–R143): what the limit formula gives, how far one setting moves the limit, and the gauge frame that
sets it. -/

namespace Sys2Proof.Machine

open Sys2Proof

/-! ### The formula and one setting of the limit -/

/-- The formula's value between EXP_MIN and EXP_MAX, in granules, before the harvest region bounds it (R140, R141). -/
def limitBeforeCap (s : State) : Nat := min (max (65536 * rawNum s / rawDen s) (65536 * expMin s)) (65536 * expMax s)

/-- The setting with the formula's value `p`, the greatest rise and the energy as plain data: a check that unfolds the formula
itself has the kernel count to 65,536 in unary. -/
def limitTaken (s : State) (p : Nat × Nat) (step energy : Nat) : State := { s with drp := { s.drp with
  limit := if s.drp.limitSet then min p.1 (s.drp.limit + step) else p.1, limitSet := true, limitCause := p.2, eAvail := energy } }

theorem setLimit_eq (s : State) : setLimit s = limitTaken s (limitFormula s) (limitStep s) (eAvailUj s / 1000000) := rfl

theorem limitTaken_limitCause (s : State) (p : Nat × Nat) (step energy : Nat) :
    (limitTaken s p step energy).drp.limitCause = p.2 := rfl

theorem limitTaken_frame (s : State) (p : Nat × Nat) (step energy : Nat) : limitTaken s p step energy = { s with
    drp := { s.drp with
      limit := (limitTaken s p step energy).drp.limit, limitSet := true,
      limitCause := (limitTaken s p step energy).drp.limitCause, eAvail := (limitTaken s p step energy).drp.eAvail } } := rfl

section
variable {s : State}

theorem limitFormula_capped (h : s.drp.harvestCap < limitBeforeCap s) : limitFormula s = (s.drp.harvestCap, 3) := if_pos h

theorem limitFormula_not_capped (h : limitBeforeCap s ≤ s.drp.harvestCap) : (limitFormula s).1 = limitBeforeCap s :=
  congrArg Prod.fst (if_neg (Nat.not_lt.mpr h))

theorem limitFormula_le_harvestCap : (limitFormula s).1 ≤ s.drp.harvestCap := by
  rcases Nat.lt_or_ge s.drp.harvestCap (limitBeforeCap s) with h | h
  · rw [limitFormula_capped h]
  · rwa [limitFormula_not_capped h]

/-- The cause shown is the formula's (log entry 114). -/
theorem setLimit_limitCause : (setLimit s).drp.limitCause = (limitFormula s).2 := by
  rw [setLimit_eq, limitTaken_limitCause]

/-- Nothing but the limit, its cause and the energy shown changes. -/
theorem setLimit_frame : setLimit s = { s with drp := { s.drp with
    limit := (setLimit s).drp.limit, limitSet := true, limitCause := (setLimit s).drp.limitCause,
    eAvail := (setLimit s).drp.eAvail } } := by
  rw [setLimit_eq]
  exact limitTaken_frame s _ _ _

/-- The first limit is taken in full. -/
theorem setLimit_first (h : s.drp.limitSet = false) : (setLimit s).drp.limit = (limitFormula s).1 :=
  if_neg (Bool.eq_false_iff.mp h)

/-- A later one rises by no more than the step. -/
theorem setLimit_later (h : s.drp.limitSet = true) :
    (setLimit s).drp.limit = min (limitFormula s).1 (s.drp.limit + limitStep s) := if_pos h

theorem setLimit_le_formula : (setLimit s).drp.limit ≤ (limitFormula s).1 := by
  cases h : s.drp.limitSet with
  | false => exact (setLimit_first h).le
  | true => exact (setLimit_later h).trans_le (Nat.min_le_left _ _)

theorem setLimit_rise_le (h : s.drp.limitSet = true) : (setLimit s).drp.limit ≤ s.drp.limit + limitStep s :=
  (setLimit_later h).trans_le (Nat.min_le_right _ _)

/-- A formula at or below the limit is taken at once. -/
theorem setLimit_falls (h : s.drp.limitSet = true) (hle : (limitFormula s).1 ≤ s.drp.limit) :
    (setLimit s).drp.limit = (limitFormula s).1 :=
  (setLimit_later h).trans (Nat.min_eq_left (Nat.le_add_right_of_le hle))

end

/-! ### GAUGE_UPDATE_FRAME (R143) -/

/-- The gauge frame has arrived: the learned energies are taken. -/
def energiesTaken (u : State) : State := { u with
  d2d := { u.d2d with gaugeDue := false },
  drp := { u.drp with eFixed := u.gau.learned.eFixed, eByte := u.gau.learned.eByte, eLearned := u.gau.learned.eLearned } }

section
variable {t : Nat} {s u : State} (hu : u = tick s t)
include hu

theorem exec_gaugeUpdateFrame_nothing (h : u.d2d.gaugeDue = false ∨ u.d2d.up = false) :
    exec (.gaugeUpdateFrame t) s = .next u := by
  subst hu
  exact congrArg Host.Outcome.next (if_pos (by simpa using h))

/-- `serving` looks at the device state alone, which the frame leaves as it is. -/
theorem exec_gaugeUpdateFrame (hg : u.d2d.gaugeDue = true) (hup : u.d2d.up = true) : exec (.gaugeUpdateFrame t) s
    = .next (if serving u then evalStage (judgeExcess (judgeFloor (setLimit (energiesTaken u)))) else energiesTaken u) := by
  subst hu
  refine congrArg Host.Outcome.next (if_neg ?_)
  generalize tick s t = u at hg hup
  simp [hg, hup]

end

/-- Settles O26: the frame's three cases, then one setting of the limit against the formula, the step and the harvest region. -/
theorem limitRisesSlowlyAndFallsAtOnce : Obligations.LimitRisesSlowlyAndFallsAtOnce := by
  refine ⟨fun t s u hu => ⟨exec_gaugeUpdateFrame_nothing hu, fun hg hup => ?_⟩, fun s => ⟨setLimit_le_formula,
    setLimit_le_formula.trans limitFormula_le_harvestCap, setLimit_rise_le, setLimit_falls, setLimit_first,
    fun hcap => ?_, setLimit_frame⟩⟩
  · rw [exec_gaugeUpdateFrame hu hg hup]
    exact ⟨fun hs => congrArg _ (if_neg (Bool.eq_false_iff.mp hs)), fun hs => congrArg _ (if_pos hs)⟩
  · have hformula := limitFormula_capped hcap
    exact ⟨setLimit_limitCause.trans (congrArg Prod.snd hformula), congrArg Prod.fst hformula⟩

end Sys2Proof.Machine

/-! The clocks of the drip (R149–R157, R219): rounds, commits, the recency sweep, hint lifetimes, the wear bucket and the
endurance forecast. -/

namespace Sys2Proof.Machine

open Sys2Proof

/-! ### DRIP_ROUND (R152, R159, R228) -/

/-- The bandwidth a round may use, MB/s: none below 2 free superblocks (R228). -/
def roundBw (free : Nat) (s : State) : Nat := if freeSb s < 2 then 0 else min 0xFFFF free

/-- A round has begun: the policy loaded since the last one is in force, and the granules of flushes have their cuttings. -/
def roundBegun (free : Nat) (u : State) : State :=
  flushWork { takePolicy u with ftl := { (takePolicy u).ftl with freeBw := roundBw free (takePolicy u) } }

/-- The ripe granules a round issues: in cursor order, as far as bandwidth, wear allowance and in-flight table reach. -/
def roundPicks (w : State) (bw : Nat) : List Nat :=
  ((roundOrder w).filter (ripe w)).take
    (min (min (bw * 1000) ((wearAllowance w).getD (bw * 1000)) / 16384) (65536 - inFlightTable w))

/-- The cuttings of a round's granules. -/
def roundIssues (w : State) (picks : List Nat) : State := picks.foldl (fun x g => issueDrip x g .drip) w

section
variable {free t : Nat} {s u : State} (hu : u = tick s t)
include hu

theorem exec_dripRound_not_serving (hs : serving u = false) : exec (.dripRound free t) s = .next u := by
  subst hu
  exact congrArg Host.Outcome.next (if_pos (by rw [hs, Bool.not_false]))

/-- While hosts are served the cursor moves to the last granule picked, or stays. -/
theorem exec_dripRound (hs : serving u = true) : exec (.dripRound free t) s = .next (feed (
    let picks := roundPicks (roundBegun free u) (roundBw free (takePolicy u))
    let x := roundIssues (roundBegun free u) picks
    match picks.getLast? with
    | some g => { x with drp := { x.drp with cursor := granRegion g } }
    | none => x)) := by
  subst hu
  exact congrArg Host.Outcome.next (if_neg (by rw [hs, Bool.not_true]; exact Bool.false_ne_true))

theorem exec_dripRound_idle (hs : serving u = true)
    (hp : roundPicks (roundBegun free u) (roundBw free (takePolicy u)) = []) :
    exec (.dripRound free t) s = .next (feed (roundBegun free u)) := by
  rw [exec_dripRound hu hs, hp]
  rfl

theorem exec_dripRound_issues {g : Nat} (hs : serving u = true)
    (hg : (roundPicks (roundBegun free u) (roundBw free (takePolicy u))).getLast? = some g) :
    let x := roundIssues (roundBegun free u) (roundPicks (roundBegun free u) (roundBw free (takePolicy u)))
    exec (.dripRound free t) s = .next (feed { x with drp := { x.drp with cursor := granRegion g } }) := by
  rw [exec_dripRound hu hs]
  simp only [hg]

end

/-! ### DRIP_COMMIT (R219, R254) -/

/-- The commit of granule `g`, from `u` to `w`, is one the twin is told of: a MIRRORED granule became CLEAN in a session. -/
def twinHears (u w : State) (g : Nat) : Bool :=
  (tget u.drp.gran g).isSome && (tget w.drp.gran g).isNone
    && (match (granAllot w g).bind (allotOf w) with | some a => a.mirrored | none => false) && w.exl.session

section
variable {g t : Nat} {s u : State} (hu : u = tick s t)
include hu

theorem exec_dripCommit_nothing (h : u.ldg.closed = true ∨ committable u g = none) :
    exec (.dripCommit g t) s = .next u := by
  subst hu
  refine congrArg Host.Outcome.next ?_
  rcases h with hc | hn
  · exact if_pos hc
  · simp only [hn, ite_self]

/-- A copy that waits commits, and what waited for it goes on. -/
theorem exec_dripCommit {p : Prog} (hc : u.ldg.closed = false) (hp : committable u g = some p) :
    let w := commitDrip u p
    exec (.dripCommit g t) s = .next (feed (drainSubs (retryHeld (judgeSave (judgeFlushes (saveWork (flushWork
      (if twinHears u w g then sendLow w 0x04 [1, g] else w)))))))) := by
  subst hu
  refine congrArg Host.Outcome.next ?_
  simp only [hc, hp, Bool.false_eq_true, if_false]
  rfl

end

/-! ### Sweeps (R149, R154) -/

section
variable {t : Nat} {s u : State} (hu : u = tick s t)
include hu

theorem exec_recencySweep : exec (.recencySweep t) s = .next { u with drp := { u.drp with
    recency := u.drp.recency.filter (fun p => (stampNow u + 65535 - p.2) % 65535 ≤ 40000) } } := by
  subst hu
  rfl

theorem exec_hintExpiry : exec (.hintExpiry t) s = .next { u with drp := { u.drp with
    hints := u.drp.hints.filter (fun h => u.now < h.loadedAt + 1000 * h.lifeMs) } } := by
  subst hu
  rfl

end

/-! ### The wear governor (R155–R157) -/

section
variable {s : State}

theorem judgeBucket_overdrawn (hb : s.drp.bucket < 0) (ho : s.drp.overdrawn = false) :
    judgeBucket s = raiseLive (drew { s with drp := { s.drp with overdrawn := true } }) 0x14A (drawn s % 2 ^ 32) :=
  if_pos (by simp [hb, ho])

theorem judgeBucket_recovered (hb : 0 ≤ s.drp.bucket) (ho : s.drp.overdrawn = true) :
    judgeBucket s = clearLive { s with drp := { s.drp with overdrawn := false } } 0x14A :=
  (if_neg (by simp [ho])).trans (if_pos (by simp [hb, ho]))

/-- The flag already says what the bucket says. -/
theorem judgeBucket_settled (h : s.drp.bucket < 0 ↔ s.drp.overdrawn = true) : judgeBucket s = s := by
  refine (if_neg ?_).trans (if_neg ?_)
  · simpa using h.mp
  · simpa using fun hb => Bool.eq_false_iff.mpr (mt h.mpr (Int.not_lt.mpr hb))

end

section
variable {t : Nat} {s u : State} (hu : u = tick s t)
include hu

theorem exec_wearBucketGain_off (h : logicOn u = false) : exec (.wearBucketGain t) s = .next u := by
  subst hu
  exact congrArg Host.Outcome.next (if_pos (by rw [h, Bool.not_false]))

theorem exec_wearBucketGain (h : logicOn u = true) : exec (.wearBucketGain t) s = .next (judgeBucket { u with drp := { u.drp with
    bucket := min (u.drp.bucket + (rWear u : Int)) (bucketCap u : Int),
    rate := min 0xFFFF (u.drp.committed / 1000000), committed := 0 } }) := by
  subst hu
  exact congrArg Host.Outcome.next (if_neg (by rw [h, Bool.not_true]; exact Bool.false_ne_true))

theorem exec_enduranceForecast_nothing (h : u.drp.origin = none ∨ loopDue u true 1 60000000 600000000 = false) :
    exec (.enduranceForecast t) s = .next u := by
  subst hu
  refine congrArg Host.Outcome.next ?_
  rcases h with ho | hd
  · simp only [ho]
  · cases ho : (tick s t).drp.origin with
    | none => rfl
    | some o => simp only [hd]

end

/-- The samples of the last 30 days, the present one first (R157). -/
def forecastDays (v : State) : List (Nat × Nat) :=
  (opSecs v, v.drp.spent) :: v.drp.days.filter (fun p => opSecs v ≤ p.1 + 2592000)

/-- The bytes the rest of the service life takes at the mean rate of the samples, for an origin `o` (R157). -/
def forecastNeed (v : State) (o : Nat) : Nat := meanRate v (forecastDays v) * (631152000 - (opSecs v - o))

/-- The samples and their rate are kept. -/
def forecastKept (v : State) : State :=
  { v with drp := { v.drp with days := forecastDays v, r30 := meanRate v (forecastDays v) } }

@[simp] theorem loopRan_drp (s : State) (k : Nat) : (loopRan s k).drp = s.drp := rfl
@[simp] theorem forecastKept_ahead (v : State) : (forecastKept v).drp.ahead = v.drp.ahead := rfl
@[simp] theorem forecastKept_bTotal (v : State) : (forecastKept v).drp.bTotal = v.drp.bTotal := rfl
@[simp] theorem forecastKept_spent (v : State) : (forecastKept v).drp.spent = v.drp.spent := rfl

section
variable {t o : Nat} {s u : State} (hu : u = tick s t) (ho : u.drp.origin = some o)
  (hd : loopDue u true 1 60000000 600000000 = true)
include hu ho hd

theorem exec_enduranceForecast : exec (.enduranceForecast t) s = .next (
    let v := loopRan u 1
    let w := forecastKept v
    if !w.drp.ahead && decide (w.drp.bTotal < w.drp.spent + forecastNeed v o) then
      raiseLiveOpen { w with drp := { w.drp with ahead := true } } 0x14B
    else if w.drp.ahead && decide (100 * forecastNeed v o < 95 * (w.drp.bTotal - w.drp.spent)) then
      clearLive { w with drp := { w.drp with ahead := false } } 0x14B
    else w) := by
  subst hu
  refine congrArg Host.Outcome.next ?_
  simp only [ho, hd]
  rfl

/-- Not ahead so far, and the forecast passes the endurance. -/
theorem exec_enduranceForecast_raises (ha : u.drp.ahead = false)
    (hn : u.drp.bTotal < u.drp.spent + forecastNeed (loopRan u 1) o) :
    let w := forecastKept (loopRan u 1)
    exec (.enduranceForecast t) s = .next (raiseLiveOpen { w with drp := { w.drp with ahead := true } } 0x14B) := by
  rw [exec_enduranceForecast hu ho hd]
  exact congrArg _ (if_pos (by simp [ha, hn]))

/-- Ahead so far, and the forecast falls below 95% of what is left. -/
theorem exec_enduranceForecast_clears (ha : u.drp.ahead = true)
    (hn : 100 * forecastNeed (loopRan u 1) o < 95 * (u.drp.bTotal - u.drp.spent)) :
    let w := forecastKept (loopRan u 1)
    exec (.enduranceForecast t) s = .next (clearLive { w with drp := { w.drp with ahead := false } } 0x14B) := by
  rw [exec_enduranceForecast hu ho hd]
  exact congrArg _ ((if_neg (by simp [ha])).trans (if_pos (by simp [ha, hn])))

/-- Neither threshold is passed. -/
theorem exec_enduranceForecast_keeps
    (hahead : u.drp.ahead = true → 95 * (u.drp.bTotal - u.drp.spent) ≤ 100 * forecastNeed (loopRan u 1) o)
    (hnot : u.drp.ahead = false → u.drp.spent + forecastNeed (loopRan u 1) o ≤ u.drp.bTotal) :
    exec (.enduranceForecast t) s = .next (forecastKept (loopRan u 1)) := by
  rw [exec_enduranceForecast hu ho hd]
  refine congrArg _ ((if_neg ?_).trans (if_neg ?_))
  · rw [Bool.and_eq_true, Bool.not_eq_true', decide_eq_true_eq, not_and, Nat.not_lt]
    exact hnot
  · rw [Bool.and_eq_true, decide_eq_true_eq, not_and, Nat.not_lt]
    exact hahead

end

/-- Settles O28: each clock by its rules above. -/
theorem dripClocks : Obligations.DripClocks := by
  exact ⟨fun free t s u hu => ⟨exec_dripRound_not_serving hu, fun hs =>
      ⟨exec_dripRound_idle hu hs, fun g => exec_dripRound_issues hu hs⟩⟩,
    fun g t s u hu => ⟨exec_dripCommit_nothing hu, fun p => exec_dripCommit hu⟩,
    fun t s u hu => ⟨exec_recencySweep hu, exec_hintExpiry hu, exec_wearBucketGain_off hu, exec_wearBucketGain hu,
      exec_enduranceForecast_nothing hu, fun o ho hd => ⟨exec_enduranceForecast_raises hu ho hd,
        exec_enduranceForecast_clears hu ho hd, exec_enduranceForecast_keeps hu ho hd⟩⟩,
    fun s => ⟨judgeBucket_overdrawn, judgeBucket_recovered, judgeBucket_settled⟩⟩

end Sys2Proof.Machine

/-! The commands of the drip (R154, R158–R160): EXPOSURE_QUERY, DRIP_POLICY_SET, FLUSH_RANGE and its timeout. -/

namespace Sys2Proof.Machine

open Sys2Proof

/-! ### EXPOSURE_QUERY (R158) -/

theorem exec_exposureQuery {c : TrellisCmd} {s v : State} {f : InFlight} (h : started 0x0200 c s = some (v, f)) :
    exec (.exposureQuery c) s = .next (cmdExposureQuery f v) :=
  congrArg _ (submit_of_started cmdExposureQuery h)

section
variable {f : InFlight} {v : State}

theorem cmdExposureQuery_refused {st d : Nat} (hid : f.cmd.allot ≠ 0xFFFF) (hb : allotBad v f.cmd.allot = some (st, d)) :
    cmdExposureQuery f v = endWith v f.id st d := by
  simp [cmdExposureQuery, hid, hb]

/-- With no allotment named, or one that may be, the drip's figures are returned. -/
theorem cmdExposureQuery_answers (h : f.cmd.allot = 0xFFFF ∨ allotBad v f.cmd.allot = none) : cmdExposureQuery f v
    = endOk v f.id (le (exposure v) 4 ++ le v.drp.limit 4 ++ le v.drp.stage 1 ++ le (admission v) 1
      ++ le (b2n v.drp.excess + fld (b2n v.drp.floorOn) 1 1 + fld (b2n v.drp.ahead) 2 1 + fld (b2n v.drp.twinBound) 3 1
        + fld (b2n v.drp.overdrawn) 4 1) 1
      ++ le v.drp.limitCause 1
      ++ le (if f.cmd.allot = 0xFFFF then 0xFFFFFFFF
        else (v.drp.gran.filter (fun p => granAllot v p.1 == some f.cmd.allot)).length) 4) := by
  rcases h with hid | hb
  · simp [cmdExposureQuery, hid]
  · simp [cmdExposureQuery, hb]

end

/-! ### DRIP_POLICY_SET (R159) -/

theorem exec_dripPolicySet {c : TrellisCmd} {s v : State} {f : InFlight} (h : started 0x0201 c s = some (v, f)) :
    exec (.dripPolicySet c) s = .next (cmdDripPolicySet f v) :=
  congrArg _ (submit_of_started cmdDripPolicySet h)

/-- A policy waits for the next round (R159). -/
def policyLoaded (v : State) (q : Policy) : State := { v with drp := { v.drp with nextPolicy := some q } }

section
variable {f : InFlight} {v : State}

theorem cmdDripPolicySet_bad_action (h : 1 < pByte f.cmd 24) : cmdDripPolicySet f v = badParam v f.id 24 := by
  have h0 : pByte f.cmd 24 ≠ 0 := by omega
  have h1 : pByte f.cmd 24 ≠ 1 := by omega
  simp [cmdDripPolicySet, h0, h1]

/-! Action 0: a policy image. -/

section
variable (h0 : pByte f.cmd 24 = 0)
include h0

theorem cmdDripPolicySet_from_host (hc : issClass f.cmd.est = 0) : cmdDripPolicySet f v = endWith v f.id 0x05 0x02 := by
  simp [cmdDripPolicySet, h0, hc]

variable (hc : issClass f.cmd.est ≠ 0)
include hc

theorem cmdDripPolicySet_bad_container (hok : containerOk v 0x14 (payIn f.cmd) = false) :
    cmdDripPolicySet f v = endWith v f.id 0x0B 0 := by
  simp [cmdDripPolicySet, h0, hc, hok]

/-- A good container: its policy is refused out of range, else loaded and saved with parameter pair 4. -/
theorem cmdDripPolicySet_image {pr m x y : Nat} {l : List (Nat × Nat)} (hok : containerOk v 0x14 (payIn f.cmd) = true)
    (hp : Config.policyImage (container (payIn f.cmd)).body = (pr, m, x, y, l)) : cmdDripPolicySet f v
    = if policyOk (pr, m, x, y, l) then
        let version := (container (payIn f.cmd)).version
        endOk (pairWrite (policyLoaded v
          { priority := pr, urgent := m, thr1 := x, thr2 := y, curve := l, version := version }) 4) f.id (le version 4)
      else badParam v f.id 0x40 := by
  cases hpol : policyOk (pr, m, x, y, l) <;> simp [cmdDripPolicySet, policyLoaded, h0, hc, hok, hp, hpol]

end

/-! Action 1: ripeness hints of the owner. -/

section
variable (h1 : pByte f.cmd 24 = 1)
include h1

theorem cmdDripPolicySet_not_owner (ho : owns v f.cmd.est 0 = false) : cmdDripPolicySet f v = endWith v f.id 0x05 0x05 := by
  simp [cmdDripPolicySet, h1, ho]

variable (ho : owns v f.cmd.est 0 = true)
include ho

theorem cmdDripPolicySet_bad_allotment {st d : Nat} (hb : allotBad v f.cmd.allot = some (st, d)) :
    cmdDripPolicySet f v = endWith v f.id st d := by
  simp [cmdDripPolicySet, h1, ho, hb]

variable {a : Allot} (hb : allotBad v f.cmd.allot = none) (ha : tget v.alt.tab f.cmd.allot = some a)
include hb ha

theorem cmdDripPolicySet_bad_hints (hl : (payIn f.cmd).length % 16 ≠ 0 ∨
    (entries16 (payIn f.cmd)).all (hintOk (16384 * a.extents.length)) = false) : cmdDripPolicySet f v = badParam v f.id 0x40 := by
  have hbad : ((payIn f.cmd).length % 16 != 0 || !(entries16 (payIn f.cmd)).all (hintOk (16384 * a.extents.length))) = true := by
    rcases hl with hl | hl <;> simp [hl]
  simp only [cmdDripPolicySet, h1, ho, hb, ha, hbad]
  rfl

/-- Entries in their form are applied in turn; the result may hold 4,096 hints. -/
theorem cmdDripPolicySet_hints (hlen : (payIn f.cmd).length % 16 = 0)
    (hall : (entries16 (payIn f.cmd)).all (hintOk (16384 * a.extents.length)) = true) :
    let l := (entries16 (payIn f.cmd)).foldl (hintEntry v.now f.cmd.allot) v.drp.hints
    cmdDripPolicySet f v = if 4096 < l.length then endWith v f.id 0x0C 0
      else endOk (assistInput { v with drp := { v.drp with hints := l } } 0) f.id (le l.length 4) := by
  have hok : ((payIn f.cmd).length % 16 != 0 || !(entries16 (payIn f.cmd)).all (hintOk (16384 * a.extents.length))) = false := by
    rw [hlen, hall]
    rfl
  simp only [cmdDripPolicySet, h1, ho, hb, ha, hok]
  rfl

end

end

/-! ### FLUSH_RANGE (R160) -/

theorem exec_flushRange {c : TrellisCmd} {s v : State} {f : InFlight} (h : started 0x0202 c s = some (v, f)) :
    exec (.flushRange c) s = .next (cmdFlushRange f v) :=
  congrArg _ (submit_of_started cmdFlushRange h)

/-- Bytes of an allotment. -/
def allotBytes (a : Allot) : Nat := 2 ^ 28 * a.extents.length

/-- The range lies in the allotment. -/
def rangeFormed (f : InFlight) (a : Allot) : Prop :=
  pNum f.cmd 24 8 < allotBytes a ∧ 0 < pNum f.cmd 32 8 ∧ pNum f.cmd 24 8 + pNum f.cmd 32 8 ≤ allotBytes a

/-- The runs of host granules that a FLUSH message names each (log entry 50). -/
def flushRuns (f : InFlight) (a : Allot) : List (Nat × Nat) :=
  granRuns ((rangeGrans a (pNum f.cmd 24 8) (pNum f.cmd 32 8)).foldl sins [])

/-- The command's time in µs: 60 s where it names none. -/
def flushTime (f : InFlight) : Nat := 1000 * (if pNum f.cmd 44 4 = 0 then 60000 else pNum f.cmd 44 4)

/-- The flush of the range starts in state `w`: with the twin, or without it though it was asked for. -/
def flushStarted (f : InFlight) (a : Allot) (w : State) (twin alone : Bool) : State :=
  feed (judgeFlushes (flushWork (setJob w f.id (.flush { newFlush w (rangeGrans a (pNum f.cmd 24 8) (pNum f.cmd 32 8)) with
    deadline := w.now + flushTime f, alone := alone, twin := twin, owed := (flushRuns f a).length }))))

section
variable {f : InFlight} {v : State}

theorem cmdFlushRange_refused {st d : Nat} (hb : allotBad v f.cmd.allot = some (st, d)) :
    cmdFlushRange f v = endWith v f.id st d := by
  simp only [cmdFlushRange, hb]

variable {a : Allot} (hb : allotBad v f.cmd.allot = none) (ha : allotOf v f.cmd.allot = some a)
include hb ha

theorem cmdFlushRange_bad_offset (h : allotBytes a ≤ pNum f.cmd 24 8) : cmdFlushRange f v = badParam v f.id 24 := by
  simp only [cmdFlushRange, hb, ha]
  exact if_pos h

theorem cmdFlushRange_bad_length (ho : pNum f.cmd 24 8 < allotBytes a)
    (h : pNum f.cmd 32 8 = 0 ∨ allotBytes a < pNum f.cmd 24 8 + pNum f.cmd 32 8) : cmdFlushRange f v = badParam v f.id 32 := by
  simp only [cmdFlushRange, hb, ha]
  exact (if_neg (Nat.not_le.mpr ho)).trans (if_pos (by simpa [allotBytes] using h))

variable (hr : rangeFormed f a)
include hr

/-- With a range in the allotment the twin's parameter and the timeout are checked, and the flush starts. -/
theorem cmdFlushRange_of_range : cmdFlushRange f v
    = if 1 < pByte f.cmd 40 then badParam v f.id 40
      else if 600000 < pNum f.cmd 44 4 then badParam v f.id 44
      else
        let both := pByte f.cmd 40 == 1 && a.mirrored
        let twin := both && inStep v
        flushStarted f a (if twin then (flushRuns f a).foldl (fun w r => sendLow w 0x13 [f.id, r.1, r.2]) v else v) twin
          (both && !twin) := by
  obtain ⟨hoff, hlen, hend⟩ := hr
  simp only [cmdFlushRange, hb, ha, beq_iff_eq]
  exact (if_neg (Nat.not_le.mpr hoff)).trans
    (if_neg (by simpa [Nat.pos_iff_ne_zero.mp hlen, allotBytes] using hend))

theorem cmdFlushRange_bad_twin (h : 1 < pByte f.cmd 40) : cmdFlushRange f v = badParam v f.id 40 := by
  rw [cmdFlushRange_of_range hb ha hr, if_pos h]

variable (ht : pByte f.cmd 40 ≤ 1)
include ht

theorem cmdFlushRange_bad_timeout (h : 600000 < pNum f.cmd 44 4) : cmdFlushRange f v = badParam v f.id 44 := by
  rw [cmdFlushRange_of_range hb ha hr, if_neg (Nat.not_lt.mpr ht), if_pos h]

variable (hms : pNum f.cmd 44 4 ≤ 600000)
include hms

theorem cmdFlushRange_here (h : pByte f.cmd 40 = 0 ∨ a.mirrored = false) :
    cmdFlushRange f v = flushStarted f a v false false := by
  rw [cmdFlushRange_of_range hb ha hr, if_neg (Nat.not_lt.mpr ht), if_neg (Nat.not_lt.mpr hms)]
  rcases h with h | h <;> simp [h]

theorem cmdFlushRange_alone (h1 : pByte f.cmd 40 = 1) (hm : a.mirrored = true) (hs : inStep v = false) :
    cmdFlushRange f v = flushStarted f a v false true := by
  rw [cmdFlushRange_of_range hb ha hr, if_neg (Nat.not_lt.mpr ht), if_neg (Nat.not_lt.mpr hms)]
  simp [h1, hm, hs]

theorem cmdFlushRange_with_twin (h1 : pByte f.cmd 40 = 1) (hm : a.mirrored = true) (hs : inStep v = true) : cmdFlushRange f v
    = flushStarted f a ((flushRuns f a).foldl (fun w r => sendLow w 0x13 [f.id, r.1, r.2]) v) true false := by
  rw [cmdFlushRange_of_range hb ha hr, if_neg (Nat.not_lt.mpr ht), if_neg (Nat.not_lt.mpr hms)]
  simp [h1, hm, hs]

end

/-! ### FLUSH_RANGE_TIMEOUT (R160) -/

section
variable {id t : Nat} {s u : State} {f : InFlight} {j : FlushJob} (hu : u = tick s t) (hf : inflight u id = some f)
  (hj : f.job = .flush j)
include hu hf hj

theorem exec_flushRangeTimeout_early (h : u.now < j.deadline) : exec (.flushRangeTimeout id t) s = .next u := by
  subst hu
  refine congrArg Host.Outcome.next ?_
  simp only [hf, hj]
  exact if_neg (Nat.not_le.mpr h)

theorem exec_flushRangeTimeout (h : j.deadline ≤ u.now) :
    exec (.flushRangeTimeout id t) s = .next (endFlush u f j 0x0D) := by
  subst hu
  refine congrArg Host.Outcome.next ?_
  simp only [hf, hj]
  exact if_pos h

end

/-- Settles O25: each command by its checks in their order, the timeout by the flush's deadline. -/
theorem dripCommands : Obligations.DripCommands := by
  refine ⟨fun c s v f h => ?_, fun c s v f h => ?_, fun c s v f h => ?_, fun id t s u f j hu hf hj =>
    ⟨exec_flushRangeTimeout_early hu hf hj, exec_flushRangeTimeout hu hf hj⟩⟩
  · rw [exec_exposureQuery h]
    exact ⟨fun st d hid hb => congrArg _ (cmdExposureQuery_refused hid hb),
      fun hid => congrArg _ (cmdExposureQuery_answers hid)⟩
  · rw [exec_dripPolicySet h]
    refine ⟨fun hact => congrArg _ (cmdDripPolicySet_bad_action hact),
      fun h0 hc => congrArg _ (cmdDripPolicySet_from_host h0 hc),
      fun h0 hc hok => congrArg _ (cmdDripPolicySet_bad_container h0 hc hok), fun pr m x y l h0 hc hok hp => ?_,
      fun h1 ho => congrArg _ (cmdDripPolicySet_not_owner h1 ho),
      fun st d h1 ho hb => congrArg _ (cmdDripPolicySet_bad_allotment h1 ho hb),
      fun a h1 ho hb ha => ⟨fun hl => congrArg _ (cmdDripPolicySet_bad_hints h1 ho hb ha hl), fun hlen hall => ?_⟩⟩
    · rw [cmdDripPolicySet_image h0 hc hok hp]
      exact ⟨fun hpol => congrArg _ (if_neg (Bool.eq_false_iff.mp hpol)), fun hpol => congrArg _ (if_pos hpol)⟩
    · rw [cmdDripPolicySet_hints h1 ho hb ha hlen hall]
      exact ⟨fun hfull => congrArg _ (if_pos hfull), fun hroom => congrArg _ (if_neg (Nat.not_lt.mpr hroom))⟩
  · rw [exec_flushRange h]
    refine ⟨fun st d hb => congrArg _ (cmdFlushRange_refused hb), fun a hb ha =>
      ⟨fun ho => congrArg _ (cmdFlushRange_bad_offset hb ha ho), fun ho hl => congrArg _ (cmdFlushRange_bad_length hb ha ho hl),
        fun hoff hlen hend => ?_⟩⟩
    have hr : rangeFormed f a := ⟨hoff, hlen, hend⟩
    exact ⟨fun ht => congrArg _ (cmdFlushRange_bad_twin hb ha hr ht),
      fun ht hms => congrArg _ (cmdFlushRange_bad_timeout hb ha hr ht hms),
      fun ht hms => ⟨fun hhere => congrArg _ (cmdFlushRange_here hb ha hr ht hms hhere),
        fun h1 hm hs => congrArg _ (cmdFlushRange_alone hb ha hr ht hms h1 hm hs),
        fun h1 hm hs => congrArg _ (cmdFlushRange_with_twin hb ha hr ht hms h1 hm hs)⟩⟩

end Sys2Proof.Machine

/-! The messages of the twin link (R242, R246, R248, R252–R261, R270): each joins the integrity group of its sublink, and acts at
the MAC flit that verifies the group. -/

namespace Sys2Proof.Machine

open Sys2Proof

/-! ### Integrity groups (R246) -/

/-- In a session a flit's record or message joins the group of its sublink. -/
theorem next_arriveFlit_held {s w : State} {f : FlitIn} {i : LinkItem} (h : takeSeq s (flitTyp i) f = (w, true))
    (hs : w.exl.session = true) : (.next (arriveFlit s f i) : Host.Outcome State Fault Refusal)
      = .next (modSub w f.sub (fun y => { y with group := y.group ++ [i] })) := by
  simp only [arriveFlit, h, hs, Bool.not_true, Bool.false_eq_true, if_false, if_true]

/-- The MAC flit of a verified group runs its items in order, while the sublink is UP and the session open. -/
theorem exec_macFlit_verified {s w : State} {f : FlitIn} {t : Nat} (h : takeSeq (tick s t) 3 f = (w, true))
    (hs : w.exl.session = true) : exec (.macFlit f true t) s = .next ((subl w f.sub).group.foldl
      (fun v i => if (subl v f.sub).st == 6 && v.exl.session then onItem v f.sub i else v)
      (ack (modSub w f.sub (fun y => { y with group := [] })) f.sub)) := by
  show execMacFlit f true t s = _
  simp only [execMacFlit, h, hs, Bool.not_true, Bool.or_self, Bool.false_eq_true, if_false]

/-- A group of one item runs that item. -/
theorem exec_macFlit_single {s w v : State} {f : FlitIn} {i : LinkItem} {t : Nat} (h : takeSeq (tick s t) 3 f = (w, true))
    (hs : w.exl.session = true) (hg : (subl w f.sub).group = [i])
    (hv : v = ack (modSub w f.sub (fun y => { y with group := [] })) f.sub) (hup : (subl v f.sub).st = 6)
    (hsv : v.exl.session = true) : exec (.macFlit f true t) s = .next (onItem v f.sub i) := by
  rw [exec_macFlit_verified h hs, hg, ← hv]
  exact congrArg _ (if_pos (by simp [hup, hsv]))

section
variable {s : State} {k : Nat}

/-! ### Records and their acceptance (R242, R252, R253) -/

section
variable {r : MirRec}

theorem onRecord_after_cut (h : s.ldg.closed = true) : onRecord s k r = s := if_pos h

variable (ho : s.ldg.closed = false)
include ho

theorem onRecord_refused (h : (subl s k).granted = 0 ∨ recordInside s r = false) : onRecord s k r = protocolError s :=
  (if_neg (Bool.eq_false_iff.mp ho)).trans (if_pos (by simpa using h))

/-- A record within its credit and its allotments is counted, queued, answered with ACCEPT, and applied in order. -/
theorem onRecord_taken (hg : (subl s k).granted ≠ 0) (hr : recordInside s r = true) :
    let v := modSub s k (fun x => { x with accepted := x.accepted + 1, granted := x.granted - 1, waiting := x.waiting ++ [r] })
    let w := sendMsg { v with exl := { v.exl with rxBytes := (v.exl.rxBytes + 250) % 2 ^ 64 } } k 0x01 [k, (subl v k).accepted]
    onRecord s k r = judgeTake (capture (judgeHeld (drainSub w k (subl w k).waiting.length))) :=
  (if_neg (Bool.eq_false_iff.mp ho)).trans (if_neg (by simp [hg, hr]))

end

section
variable {n : Nat}

theorem onAccept_never_sent (h : nSub s ≤ k ∨ (subl s k).sent < n) : onAccept s k n = protocolError s :=
  if_pos (by simpa using h)

theorem onRehome_never_sent (h : nSub s ≤ k ∨ (subl s k).sent < n) : onRehome s k n = protocolError s :=
  if_pos (by simpa using h)

theorem onCredit_no_sublink (h : nSub s ≤ k) : onCredit s k n = protocolError s := if_pos h

theorem onCredit_added (h : k < nSub s) :
    let v := modSub s k (fun x => { x with credit := x.credit + n, first := true })
    onCredit s k n = retryHeld (rehomePump v (v.exl.subs.foldl (fun m p => m + p.2.unacc.length) 0)) :=
  if_neg (Nat.not_le.mpr h)

variable (hk : k < nSub s) (hn : n ≤ (subl s k).sent)
include hk hn

/-- The records through `n` are accepted: they leave the buffer, and the writes sent as them may complete. -/
theorem onAccept_sent :
    let v := modSub s k (fun x => { x with acked := max x.acked n, unacc := x.unacc.filter (fun r => n < r.serial) })
    onAccept s k n = completeReady { v with exl := { v.exl with withheld := v.exl.withheld.map (fun w => match w.sent with
      | some (i, m) => if i == k && m ≤ n then { w with accepted := true } else w
      | none => w) } } :=
  if_neg (by simp [hk, hn])

/-- The lost sublink's records after `n` are sent again. -/
theorem onRehome_sent :
    let v := modSub (onAccept s k n) k
      (fun x => { x with rehome := true, sent := n, credit := 0, pSent := x.pSent.filter (· ≤ n) })
    onRehome s k n = retryHeld (rehomePump v (subl v k).unacc.length) :=
  if_neg (by simp [hk, hn])

end

/-! ### Room, granules, epochs, comparisons and flushes (R254, R257, R258, R270) -/

theorem onClean_bad {gs : List Nat} (h : gs = [] ∨ 60 < gs.length) : onClean s gs = protocolError s :=
  if_pos (by simpa using h)

theorem onClean_clears {gs : List Nat} (hne : gs ≠ []) (hlen : gs.length ≤ 60) :
    onClean s gs = { s with exl := { s.exl with twinDirty := gs.foldl sdel s.exl.twinDirty } } :=
  if_neg (by simp [hne, hlen])

/-- The records with P = 1 that the peer has not seen, counted as an integer, as the model counts them. -/
theorem foldl_pSent_cast (l : List (Nat × Sublink)) :
    l.foldl (fun (m : Int) p => m + p.2.pSent.length) 0 = (l.foldl (fun m p => m + p.2.pSent.length) 0 : Nat) :=
  List.foldl_hom Nat.cast (fun m p => (Nat.cast_add m p.2.pSent.length).symm)

/-- ROOM leaves the peer's room less the records with P = 1 that it had not seen, and its stage. -/
theorem onRoom_eq {room : Int} {st : Nat} {th : List Nat} :
    let subs := s.exl.subs.map (fun (p : Nat × Sublink) =>
      (p.1, { p.2 with pSent := p.2.pSent.filter (fun m => th.getD p.1 0 < m) }))
    onRoom s room st th = retryHeld { s with
      exl := { s.exl with
        subs := subs, room := room - (subs.foldl (fun m p => m + p.2.pSent.length) 0 : Nat), peerStage := st },
      drp := { s.drp with twinBound := st == 4 } } := by
  intro subs
  rw [← foldl_pSent_cast]
  rfl

theorem onEpoch_leader {e : Nat} (h : leads s = true) : onEpoch s e = s := if_pos h

theorem onEpoch_follower {e : Nat} (h : leads s = false) :
    onEpoch s e = { s with exl := { s.exl with follow := (s.exl.epoch : Int) - (e : Int) } } :=
  if_neg (Bool.eq_false_iff.mp h)

theorem onCrcBlock_bad {g : Nat} {l : List Nat} (h : l = [] ∨ 30 < l.length) : onCrcBlock s g l = protocolError s :=
  if_pos (by simpa using h)

/-- The granules that differ here, of an allotment this unit is the source of, are queued for resync. -/
theorem onCrcBlock_queues {g : Nat} {l : List Nat} (hne : l ≠ []) (hlen : l.length ≤ 30) :
    let gs := ((List.range l.length).map (g + ·)).filter (fun x =>
      l.getD (x - g) 0 != granCrc s x && (match granAllot s x with | some id => sourceOf s id == 1 | none => false))
    onCrcBlock s g l = resyncPump { s with exl := { s.exl with resyncQ := gs.foldl sins s.exl.resyncQ } }
      (gs.foldl sins s.exl.resyncQ).length :=
  if_neg (by simp [hne, hlen])

section
variable {e r n : Nat}

theorem onCompare_bad (h : n = 0 ∨ 64 < n) : onCompare s e r n = protocolError s := if_pos (by simpa using h)

variable (hpos : 0 < n) (hlen : n ≤ 64)
include hpos hlen

theorem onCompare_known_or_past (h : s.exl.compares.any (fun c => c.epoch == e) = true ∨ e ≤ s.exl.epoch) :
    onCompare s e r n = s :=
  (if_neg (by simp [Nat.pos_iff_ne_zero.mp hpos, hlen])).trans
    (if_pos (Bool.or_eq_true _ _ ▸ h.imp_right (decide_eq_true ·)))

theorem onCompare_announced (hnew : s.exl.compares.any (fun c => c.epoch == e) = false) (he : s.exl.epoch < e) :
    onCompare s e r n
      = { s with exl := { s.exl with compares := s.exl.compares ++ [{ epoch := e, first := r, count := n }] } } :=
  (if_neg (by simp [Nat.pos_iff_ne_zero.mp hpos, hlen])).trans (if_neg (by rw [hnew]; simpa using he))

end

theorem onFlush_after_cut {tag g n : Nat} (h : s.ldg.closed = true) : onFlush s tag g n = s := if_pos h

theorem onFlush_starts {tag g n : Nat} (h : s.ldg.closed = false) :
    let gs := ((List.range n).map (g + ·)).filter (fun x => (granAllot s x).isSome)
    onFlush s tag g n
      = judgeFlushes (flushWork { s with exl := { s.exl with flushes := s.exl.flushes ++ [(tag, newFlush s gs)] } }) :=
  if_neg (Bool.eq_false_iff.mp h)

theorem onFlushed_counts {tag st : Nat} {j : FlushJob} (h : jobOf s tag = .flush j) :
    onFlushed s tag st = judgeFlushes (setJob s tag
      (.flush { j with owed := j.owed - 1, twin := decide (1 < j.owed), peer := worse j.peer st })) := by
  simp only [onFlushed, h]

/-! ### The peer's cut (R255) -/

theorem peerCut_after_cut {n : Nat} (h : s.ldg.closed = true) : peerCut s k n = s := if_pos h

theorem peerCut_noted {n : Nat} (h : s.ldg.closed = false) :
    let v := modSub s k (fun x => { x with through := some n })
    peerCut s k n
      = retryHeld (judgeTake (judgeService (releaseWithheld { v with exl := { v.exl with peerHarvest := true } }))) :=
  if_neg (Bool.eq_false_iff.mp h)

theorem onItem_harvest_no_sublink {c j n : Nat} (h : nSub s ≤ j) : onItem s k (.harvest c j n) = protocolError s := if_pos h

theorem onItem_harvest {c j n : Nat} (h : j < nSub s) : onItem s k (.harvest c j n) = peerCut s j n :=
  if_neg (Nat.not_le.mpr h)

/-! ### Keys (R248) -/

theorem onRekey_running {id : Nat} (h : s.exl.rekey ≠ none) : onRekey s id = s := if_pos (Option.isSome_iff_ne_none.mpr h)

theorem onRekey_taken {id : Nat} (h : s.exl.rekey = none) : onRekey s id
    = switchKeys { s with exl := { s.exl with rekey := some (id, s.now), sessNext := max s.exl.sessNext (id + 1) } } id :=
  if_neg (by simp [h])

/-! ### TABLE, COMMIT and STATE (R256) -/

theorem onTable_bad {m : TableMsg} (h : 1 < m.part ∨ (m.part = 1 ∧ 58 < m.extents.length)) : onTable s m = protocolError s :=
  if_pos (by simpa using h)

theorem onTable_draft {m : TableMsg} (h : m.part = 0 ∨ (m.part = 1 ∧ m.extents.length ≤ 58)) :
    onTable s m = { s with exl := { s.exl with drafts := s.exl.drafts ++ [m] } } := by
  have hok : ¬(1 < m.part ∨ (m.part = 1 ∧ 58 < m.extents.length)) := by omega
  exact if_neg (by simpa using hok)

theorem onCommit_unknown_phase {id p e st : Nat} (h : 3 < p) : onCommit s id p e st = protocolError s := if_pos h

theorem onCommit_prepare {id p e st : Nat} (h : p = 0) : onCommit s id p e st = onPrepare s id e := by
  subst h
  rfl

/-- Phase abort ends this unit's open exchange of that ID. -/
theorem onCommit_abort {id p e st : Nat} {x : TableTx} (hp : p = 3)
    (h : s.exl.txs.find? (fun t => t.mine && t.id == id && t.phase < 2) = some x) :
    onCommit s id p e st = abortTx s x (if st == 0 then 0x0E else st) := by
  subst hp
  simp only [onCommit, h]
  rfl

theorem onItem_state_long {l : List (Nat × Nat × Nat)} (h : 22 < l.length) : onItem s k (.state l) = protocolError s := if_pos h

theorem onItem_state {l : List (Nat × Nat × Nat)} (h : l.length ≤ 22) : onItem s k (.state l) = onState s l :=
  if_neg (Nat.not_lt.mpr h)

end

/-- Settles O47: every row holds its item in the group, and each item of a verified group acts by its rule above. -/
theorem linkMessagesAct : Obligations.LinkMessagesAct := by
  refine fun s k => ⟨fun f i a b c d l q r m t w hs => ⟨fun h => ?_, fun h => ?_⟩,
    fun f i t w v h hs hg hv hup hsv => exec_macFlit_single h hs hg hv hup hsv, rfl,
    fun r => ⟨onRecord_after_cut, onRecord_refused, onRecord_taken⟩,
    fun j n => ⟨fun h => ⟨onAccept_never_sent h, onRehome_never_sent h⟩, onAccept_sent, onRehome_sent⟩,
    fun j n => ⟨onCredit_no_sublink, onCredit_added⟩, fun room st adm th => ?_, fun gs => ⟨onClean_bad, onClean_clears⟩,
    fun e ns => ⟨onEpoch_leader, onEpoch_follower⟩, fun e => rfl, fun e r v => rfl,
    fun g l => ⟨onCrcBlock_bad, onCrcBlock_queues⟩, fun c j n => ⟨onItem_harvest_no_sublink, fun hj hc => ?_, fun hj hc => ?_⟩,
    fun n => rfl, fun id => ⟨onRekey_running, onRekey_taken⟩, fun id => rfl, fun m => ⟨onTable_bad, onTable_draft⟩,
    fun id p e st => ⟨onCommit_unknown_phase, onCommit_prepare, fun x => onCommit_abort⟩,
    fun tag g n => ⟨onFlush_after_cut, onFlush_starts⟩, fun tag st j => onFlushed_counts,
    fun l => ⟨onItem_state_long, onItem_state⟩,
    fun e r n => ⟨onCompare_bad, onCompare_known_or_past, onCompare_announced⟩⟩
  · exact next_arriveFlit_held (i := .record _) h hs
  · have held := fun (x : LinkItem) (hx : flitTyp x = 2) => next_arriveFlit_held (i := x) (hx ▸ h) hs
    exact ⟨held (.accept a b) rfl, held (.credit a b) rfl, held (.room i a b l) rfl, held (.clean l) rfl, held (.epoch a b) rfl,
      held (.cutMark a) rfl, held (.tally a b c) rfl, held (.crcBlock a l) rfl, held (.harvest a b c) rfl, held (.harvestDone a) rfl,
      held (.rehome a b) rfl, held (.rekey a) rfl, held (.keySwitch a) rfl, held (.table m) rfl, held (.commit a b c d) rfl,
      held (.flush a b c) rfl, held (.flushed a b) rfl, held (.state q) rfl, held (.compare a b c) rfl⟩
  · exact onRoom_eq
  · exact (onItem_harvest hj).trans (peerCut_after_cut hc)
  · exact (onItem_harvest hj).trans (peerCut_noted hc)

end Sys2Proof.Machine

/-! Harvest and replant (R169–R176, R186–R192, R197–R199): the two loads and FULL_SAVE, the ends of priority fetches and of
cuttings, the end of a harvest stripe, and the seal. -/

namespace Sys2Proof.Machine

open Sys2Proof

/-! ### HARVEST_PLAN_LOAD (R197) -/

theorem exec_harvestPlanLoad {c : TrellisCmd} {s v : State} {f : InFlight} (h : started 0x0203 c s = some (v, f)) :
    exec (.harvestPlanLoad c) s = .next (cmdHarvestPlanLoad f v) :=
  congrArg _ (submit_of_started cmdHarvestPlanLoad h)

/-- A payload that is no plan: an incomplete entry, too many, or one out of its range. -/
def planBad (b : List Byte) : Prop :=
  b.length % 4 ≠ 0 ∨ 4096 < (entries4 b).length
    ∨ (entries4 b).any (fun e => 0x0FFF < rd e 0 2 || 7 < rd e 2 1 || rd e 3 1 != 0) = true

section
variable {f : InFlight} {v : State}

theorem cmdHarvestPlanLoad_bad_action (h : 1 < pByte f.cmd 24) : cmdHarvestPlanLoad f v = badParam v f.id 24 := by
  unfold cmdHarvestPlanLoad
  split
  · omega
  · omega
  · rfl

theorem cmdHarvestPlanLoad_bad_plan (h0 : pByte f.cmd 24 = 0) (hb : planBad (payIn f.cmd)) :
    cmdHarvestPlanLoad f v = badParam v f.id 0x40 := by
  simp only [cmdHarvestPlanLoad, h0]
  exact if_pos (by simpa [planBad, or_assoc] using hb)

theorem cmdHarvestPlanLoad_loads (h0 : pByte f.cmd 24 = 0) (hb : ¬planBad (payIn f.cmd)) :
    let p := (entries4 (payIn f.cmd)).foldl (fun m e => tset m (rd e 0 2) (rd e 2 1)) []
    cmdHarvestPlanLoad f v = endOk (pairWrite { v with hrv := { v.hrv with plan := p } } 5) f.id (le p.length 4) := by
  simp only [cmdHarvestPlanLoad, h0]
  exact if_neg (by simpa [planBad, or_assoc] using hb)

theorem cmdHarvestPlanLoad_clear_bad (h1 : pByte f.cmd 24 = 1) (hb : payIn f.cmd ≠ []) :
    cmdHarvestPlanLoad f v = badParam v f.id 0x40 := by
  simp only [cmdHarvestPlanLoad, h1]
  exact if_pos (by simpa using hb)

theorem cmdHarvestPlanLoad_clears (h1 : pByte f.cmd 24 = 1) (hb : payIn f.cmd = []) :
    cmdHarvestPlanLoad f v = endOk (pairWrite { v with hrv := { v.hrv with plan := [] } } 5) f.id (le 0 4) := by
  simp only [cmdHarvestPlanLoad, h1]
  exact if_neg (by simp [hb])

end

/-! ### REPLANT_ORDER_LOAD (R199) -/

theorem exec_replantOrderLoad {c : TrellisCmd} {s v : State} {f : InFlight} (h : started 0x0205 c s = some (v, f)) :
    exec (.replantOrderLoad c) s = .next (cmdReplantOrderLoad f v) :=
  congrArg _ (submit_of_started cmdReplantOrderLoad h)

/-- A payload that is no standing order. -/
def orderBad (b : List Byte) : Prop :=
  b.length % 4 ≠ 0 ∨ 4096 < (entries4 b).length
    ∨ (entries4 b).any (fun e => 0x0FFF < rd e 0 2 || rd e 3 1 != 0) = true

/-- A payload that is no list of ranges of allotments. -/
def rangesBad (v : State) (b : List Byte) : Prop :=
  b.length % 16 ≠ 0 ∨ 1024 < (entries16 b).length ∨ (entries16 b).all (rangeOk v) = false

section
variable {f : InFlight} {v : State}

theorem cmdReplantOrderLoad_bad_action (h : 1 < pByte f.cmd 24) : cmdReplantOrderLoad f v = badParam v f.id 24 := by
  simp only [cmdReplantOrderLoad]
  split
  · omega
  · omega
  · rfl

/-! Action 0: the standing order. -/

section
variable (h0 : pByte f.cmd 24 = 0)
include h0

theorem cmdReplantOrderLoad_from_host (hc : issClass f.cmd.est = 0) :
    cmdReplantOrderLoad f v = endWith v f.id 0x05 0x02 := by
  simp only [cmdReplantOrderLoad, h0]
  exact if_pos (by simpa using hc)

variable (hc : issClass f.cmd.est ≠ 0)
include hc

theorem cmdReplantOrderLoad_bad_order (hb : orderBad (payIn f.cmd)) :
    cmdReplantOrderLoad f v = badParam v f.id 0x40 := by
  simp only [cmdReplantOrderLoad, h0]
  exact (if_neg (by simpa using hc)).trans (if_pos (by simpa [orderBad, or_assoc] using hb))

theorem cmdReplantOrderLoad_loads (hb : ¬orderBad (payIn f.cmd)) :
    let o := (entries4 (payIn f.cmd)).foldl (fun m e => tset m (rd e 0 2) (rd e 2 1)) []
    cmdReplantOrderLoad f v = endOk (pairWrite { v with hrv := { v.hrv with order := o } } 5) f.id (le o.length 4) := by
  simp only [cmdReplantOrderLoad, h0]
  exact (if_neg (by simpa using hc)).trans (if_neg (by simpa [orderBad, or_assoc] using hb))

end

/-! Action 1: ranges of the owner, ahead of the standing order. -/

section
variable (h1 : pByte f.cmd 24 = 1)
include h1

theorem cmdReplantOrderLoad_not_owner (ho : owns v f.cmd.est 7 = false) :
    cmdReplantOrderLoad f v = endWith v f.id 0x05 0x05 := by
  simp only [cmdReplantOrderLoad, h1, ho]
  rfl

variable (ho : owns v f.cmd.est 7 = true)
include ho

theorem cmdReplantOrderLoad_no_replant (hr : v.hrv.replant = false) : cmdReplantOrderLoad f v = conflict v f.id 0x10 := by
  simp only [cmdReplantOrderLoad, h1, ho, hr]
  rfl

variable (hr : v.hrv.replant = true)
include hr

theorem cmdReplantOrderLoad_bad_ranges (hb : rangesBad v (payIn f.cmd)) :
    cmdReplantOrderLoad f v = badParam v f.id 0x40 := by
  simp only [cmdReplantOrderLoad, h1, ho, hr, Bool.not_true, Bool.false_eq_true, if_false]
  exact if_pos (by simpa [rangesBad, or_assoc] using hb)

/-- Good ranges follow those that still name a granule to restore, where 4,096 hold them all. -/
theorem cmdReplantOrderLoad_ranges (hb : ¬rangesBad v (payIn f.cmd)) :
    let left := v.hrv.ranges.filter (rangeLeft v)
    let es := entries16 (payIn f.cmd)
    let w := { v with hrv := { v.hrv with ranges := left ++ es.map (fun e => (rd e 0 2, rd e 4 4, rd e 8 4)) } }
    cmdReplantOrderLoad f v = if 4096 < left.length + es.length then endWith v f.id 0x0C 0
      else endOk (assistInput w 7) f.id (le w.hrv.ranges.length 4) := by
  simp only [cmdReplantOrderLoad, h1, ho, hr, Bool.not_true, Bool.false_eq_true, if_false]
  exact if_neg (by simpa [rangesBad, or_assoc] using hb)

end

end

/-! ### FULL_SAVE (R198) -/

theorem exec_fullSave {c : TrellisCmd} {s v : State} {f : InFlight} (h : started 0x0204 c s = some (v, f)) :
    exec (.fullSave c) s = .next (cmdFullSave f v) :=
  congrArg _ (submit_of_started cmdFullSave h)

section
variable {f : InFlight} {v : State}

theorem cmdFullSave_not_serving (hs : v.dev.state ≠ .serving) (hd : v.dev.state ≠ .degraded) :
    cmdFullSave f v = conflict v f.id (0x02 + fld v.dev.state.code 8 8) :=
  if_pos (by simp [hs, hd])

variable (hs : v.dev.state = .serving ∨ v.dev.state = .degraded)
include hs

/-- While the unit serves, a save that runs and the room decide. -/
theorem cmdFullSave_of_serving : cmdFullSave f v
    = if v.hrv.save.isSome then conflict v f.id 0x10
      else if saveRoom v < (saveSet v).length then endWith v f.id 0x0C 0
      else feed (judgeSave (saveWork (setJob (startSave v false) f.id .fullSave))) :=
  if_neg (by rcases hs with hs | hs <;> simp [hs])

theorem cmdFullSave_running (h : v.hrv.save ≠ none) : cmdFullSave f v = conflict v f.id 0x10 := by
  rw [cmdFullSave_of_serving hs, if_pos (Option.isSome_iff_ne_none.mpr h)]

theorem cmdFullSave_no_room (h : v.hrv.save = none) (hroom : saveRoom v < (saveSet v).length) :
    cmdFullSave f v = endWith v f.id 0x0C 0 := by
  rw [cmdFullSave_of_serving hs, if_neg (by simp [h]), if_pos hroom]

theorem cmdFullSave_starts (h : v.hrv.save = none) (hroom : (saveSet v).length ≤ saveRoom v) :
    cmdFullSave f v = feed (judgeSave (saveWork (setJob (startSave v false) f.id .fullSave))) := by
  rw [cmdFullSave_of_serving hs, if_neg (by simp [h]), if_neg (Nat.not_lt.mpr hroom)]

end

/-! ### PRIORITY_FETCH_DONE (R186, R188, R189) -/

section
variable {g t : Nat} {r : FlashRead} {s u : State} (hu : u = tick s t)
include hu

theorem exec_priorityFetchDone_not_running (h : u.hrv.fetches.find? (fun f => f.gran == g && f.running) = none) :
    exec (.priorityFetchDone g r t) s = .next u := by
  subst hu
  refine congrArg Host.Outcome.next ?_
  simp only [h]

variable {f : Fetch} (hf : u.hrv.fetches.find? (fun f => f.gran == g && f.running) = some f)
include hf

theorem exec_priorityFetchDone_cutting (h : cuttingOut u (fun c => c.typ == 3 && c.b == g && c.c == 1) = true) :
    exec (.priorityFetchDone g r t) s = .next u := by
  subst hu
  refine congrArg Host.Outcome.next ?_
  simp only [hf]
  exact if_pos h

theorem exec_priorityFetchDone_ends (h : cuttingOut u (fun c => c.typ == 3 && c.b == g && c.c == 1) = false) :
    exec (.priorityFetchDone g r t) s = .next (fetchEnds (restoreGran u g r) f) := by
  subst hu
  refine congrArg Host.Outcome.next ?_
  simp only [hf]
  exact if_neg (Bool.eq_false_iff.mp h)

end

/-! ### REPLANT_STRIPE_DONE (R187, R188, R192) -/

/-- The granules of a cutting of the background restore come from their copies, those of a running priority fetch left out. -/
def restoreCut (bad : List (Nat × FlashRead)) (gs : List Nat) (v : State) : State :=
  gs.foldl (fun w g =>
    if w.hrv.fetches.any (fun f => f.gran == g) then w
    else restoreGran w g (((bad.find? (fun p => p.1 == g)).map (·.2)).getD {})) v

section
variable {k t : Nat} {bad : List (Nat × FlashRead)} {mism : List Nat} {s u : State} (hu : u = tick s t)
include hu

theorem exec_replantStripeDone_no_cutting (h : u.hrv.cuts[k]? = none) :
    exec (.replantStripeDone k bad mism t) s = .next u := by
  subst hu
  refine congrArg Host.Outcome.next ?_
  simp only [h]

variable {n : Nat} {cut : List Nat} (hcut : u.hrv.cuts[k]? = some (n, cut))
include hcut

theorem exec_replantStripeDone_waits (h : u.hrv.replant = false ∨ serving u = false ∨ cuttingOut u (fun c => c.n == n) = true
    ∨ (u.hrv.warm = false ∧ behindFetch u cut = true)) : exec (.replantStripeDone k bad mism t) s = .next u := by
  subst hu
  refine congrArg Host.Outcome.next ?_
  simp only [hcut]
  exact if_pos (by simpa [or_assoc] using h)

/-- A cutting that is done leaves the outstanding ones, and its granules still to do are verified or restored. -/
theorem exec_replantStripeDone_ends (hrep : u.hrv.replant = true) (hserv : serving u = true)
    (hdone : cuttingOut u (fun c => c.n == n) = false) (hfree : u.hrv.warm = true ∨ behindFetch u cut = false) :
    let v := { u with hrv := { u.hrv with cuts := u.hrv.cuts.filter (fun p => p.1 != n) } }
    let gs := cut.filter v.hrv.todo.contains
    exec (.replantStripeDone k bad mism t) s = .next (replantWork (if u.hrv.warm then gs.foldl (fun w g => verifyGran w g mism) v
      else drainSubs (restoreCut bad gs v))) := by
  subst hu
  refine congrArg Host.Outcome.next ?_
  generalize tick s t = u at hcut hrep hserv hdone hfree ⊢
  simp only [hcut]
  exact if_neg (by simpa [hrep, hserv, hdone, or_iff_not_imp_left] using hfree)

end

/-! ### WARM_VERIFY_END (R192) -/

section
variable {t : Nat} {chans : List Nat} {s u : State} (hu : u = tick s t)
include hu

theorem exec_warmVerifyEnd_nothing (h : u.hrv.warm = false ∨ u.hrv.replant = false ∨ u.hrv.todo ≠ []) :
    exec (.warmVerifyEnd chans t) s = .next u := by
  subst hu
  exact congrArg Host.Outcome.next (if_pos (by simpa [or_assoc] using h))

theorem exec_warmVerifyEnd (hw : u.hrv.warm = true) (hr : u.hrv.replant = true) (ht : u.hrv.todo = []) :
    exec (.warmVerifyEnd chans t) s = .next (restoreComplete
      (chans.foldl (fun w c => if (popChannels w).contains c then raiseOpen w (0x045 + 8 * c) else w) u)) := by
  subst hu
  refine congrArg Host.Outcome.next ?_
  generalize tick s t = u at hw hr ht ⊢
  exact if_neg (by simp [hw, hr, ht])

end

/-! ### HARVEST_STRIPE_DONE (R173, R176) -/

@[simp] theorem setSide_hrv (s : State) (cold : Bool) (x : D2dSide) : (setSide s cold x).hrv = s.hrv := by
  cases cold <;> rfl

@[simp] theorem sendFrame_hrv (s : State) (cold : Bool) (typ payload : Nat) : (sendFrame s cold typ payload).hrv = s.hrv := by
  simp only [sendFrame]
  split
  · rfl
  · split
    · exact setSide_hrv ..
    · exact setSide_hrv ..

/-- The report of the sealed boundary leaves the harvest's own state. -/
@[simp] theorem sendBound_hrv (s : State) (b : Nat) : (sendBound s b).hrv = s.hrv := by simp [sendBound]

/-- A page of stripe `st` was not programmed: its target's program failed, or refused a page that was not erased. -/
def pageLost (v : State) (st : HStripe) (failed : List Nat) (a : Nat) : Bool :=
  (failed.contains (faTgt a) && (members v st.sb).contains (faTgt a)) || st.refused.contains (faTgt a)

/-- Failures count for the targets of the superblock alone, and a refused target counts once. -/
theorem pageLost_eq (v : State) (st : HStripe) (failed : List Nat) :
    (fun a => (failed.filter (fun tk => !st.refused.contains tk && (members v st.sb).contains tk)).contains (faTgt a)
      || st.refused.contains (faTgt a)) = pageLost v st failed := by
  funext a
  rw [pageLost, Bool.eq_iff_iff]
  simp only [Bool.or_eq_true, Bool.and_eq_true, List.mem_filter, Bool.not_eq_true', List.contains_eq_mem,
    decide_eq_false_iff_not, decide_eq_true_eq]
  tauto

/-- Granules of a data stripe that are to be saved again. -/
def stripeBack (st : HStripe) (lost : Nat → Bool) : List Nat :=
  if st.header.isSome then [] else (st.grans.filter (fun p => lost p.2)).map (·.1)

/-- The run with stripe `n` ended, its tiers as in state `s`. -/
def stripeEnded (s : State) (r : HarvestRun) (n : Nat) (st : HStripe) (lost : Nat → Bool) : HarvestRun :=
  { r with
    issued := r.issued.filter (fun x => x.n != n)
    plan := (stripeBack st lost).foldl (fun l g => requeue s l g) r.plan
    again := sunion r.again (stripeBack st lost)
    bound := (advanceBound r.bound (sins r.sealedOut n) (r.next + 1)).1
    sealedOut := (advanceBound r.bound (sins r.sealedOut n) (r.next + 1)).2
    saved := if st.header.isSome then r.saved
      else r.saved ++ (st.grans.filter (fun p => !lost p.2)).map (fun p => (p.1, n)) }

section
variable {s : State} {r : HarvestRun} {n : Nat} {st : HStripe} {lost : Nat → Bool}

/-- The end of a header stripe saves no granule and queues none. -/
theorem stripeEnded_header (h : st.header ≠ none) :
    (stripeEnded s r n st lost).saved = r.saved ∧ (stripeEnded s r n st lost).plan = r.plan := by
  simp [stripeEnded, stripeBack, Option.isSome_iff_ne_none.mpr h]

/-- A data stripe saves the granules whose page was programmed, and the others are to be saved again. -/
theorem stripeEnded_data (h : st.header = none) :
    (stripeEnded s r n st lost).saved = r.saved ++ (st.grans.filter (fun p => !lost p.2)).map (fun p => (p.1, n))
      ∧ (stripeEnded s r n st lost).again = sunion r.again ((st.grans.filter (fun p => lost p.2)).map (·.1)) := by
  simp [stripeEnded, stripeBack, h]

end

/-- The programs of stripe `st` have ended: blocks that failed or refused leave, and the other pages hold their content. -/
def stripePlaced (v : State) (r : HarvestRun) (st : HStripe) (failed : List Nat) : State :=
  stripePages (st.refused.foldl (fun w tk => stripeFailed w st.sb tk true)
    ((failed.filter (fun tk => !st.refused.contains tk && (members v st.sb).contains tk)).foldl
      (fun w tk => stripeFailed w st.sb tk false) v)) r st (st.grans.filter (fun p => !pageLost v st failed p.2))

/-- The state in which the harvest goes on after stripe `n`; a sealed boundary that moved is reported (R173). -/
def afterStripe (v : State) (r : HarvestRun) (n : Nat) (st : HStripe) (failed : List Nat) : State :=
  let x := stripePlaced v r st failed
  let r' := stripeEnded x r n st (pageLost v st failed)
  let y := setRun x r' r.phase
  if r'.bound != r.bound then sendBound y (r'.bound.getD 0) else y

/-- The run goes on with the stripe ended, in the phase it was in. -/
theorem afterStripe_run (v : State) (r : HarvestRun) (n : Nat) (st : HStripe) (failed : List Nat) :
    (afterStripe v r n st failed).hrv.run
        = some { stripeEnded (stripePlaced v r st failed) r n st (pageLost v st failed) with phase := r.phase }
      ∧ (afterStripe v r n st failed).hrv.phase = r.phase := by
  simp only [afterStripe]
  split
  · simp [setRun]
  · simp [setRun]

section
variable {n t : Nat} {failed ues : List Nat} {s u : State} (hu : u = tick s t)
include hu

theorem exec_harvestStripeDone_no_run (h : u.dev.state ≠ .harvesting ∨ u.hrv.run = none) :
    exec (.harvestStripeDone n failed ues t) s = .next u := by
  subst hu
  refine congrArg Host.Outcome.next ?_
  generalize tick s t = u at h ⊢
  split
  · rename_i hst hrun
    simp [hst, hrun] at h
  · rfl

variable {r : HarvestRun} (hst : u.dev.state = .harvesting) (hrun : u.hrv.run = some r)
include hst hrun

theorem exec_harvestStripeDone_not_issued (h : r.issued.find? (fun x => x.n == n) = none) :
    exec (.harvestStripeDone n failed ues t) s = .next u := by
  subst hu
  refine congrArg Host.Outcome.next ?_
  simp only [hst, hrun, h]

variable {st : HStripe} (hfind : r.issued.find? (fun x => x.n == n) = some st)
include hfind

theorem exec_harvestStripeDone_reading (h : stripeReading u n = true ∨ stripeRead u st = false) :
    exec (.harvestStripeDone n failed ues t) s = .next u := by
  subst hu
  refine congrArg Host.Outcome.next ?_
  simp only [hst, hrun, hfind]
  exact if_pos (by simpa using h)

/-- A stripe whose reads are done ends in the run, and the harvest goes on. -/
theorem exec_harvestStripeDone_ends (hdone : stripeReading u n = false) (hread : stripeRead u st = true) :
    let v := internalUes u (ues.filter (fun l => st.header.isNone && st.grans.any (fun p => p.1 == lineGran l)))
    exec (.harvestStripeDone n failed ues t) s = .next (harvestAdvance (afterStripe v r n st failed)) := by
  intro v
  subst hu
  refine congrArg Host.Outcome.next ?_
  simp only [hst, hrun, hfind]
  refine (if_neg (by simp [hdone, hread])).trans ?_
  rw [afterStripe, stripePlaced, ← pageLost_eq]
  rfl

end

/-! ### The seal (R162, R167, R169, R179, R180) -/

section
variable {t : Nat} {bad : List Nat} {s u : State} (hu : u = tick s t)
include hu

theorem exec_sealWritten_no_run (h : u.dev.state ≠ .harvesting ∨ u.hrv.run = none) :
    exec (.sealWritten bad t) s = .next u := by
  subst hu
  refine congrArg Host.Outcome.next ?_
  generalize tick s t = u at h ⊢
  split
  · rename_i hst hrun
    simp [hst, hrun] at h
  · rfl

variable {r : HarvestRun} (hst : u.dev.state = .harvesting) (hrun : u.hrv.run = some r)
include hst hrun

theorem exec_sealWritten_early (h : r.phase ≠ 4) : exec (.sealWritten bad t) s = .next u := by
  subst hu
  refine congrArg Host.Outcome.next ?_
  simp only [hst, hrun]
  exact if_pos (by simpa using h)

theorem exec_sealWritten (h : r.phase = 4) :
    let v := bad.foldl sealFailed (wear { u with hrv := { u.hrv with lastGranules := r.saved.length } } (2 + bad.length) true)
    let w := setRun (placeSeal v { harvestSeal r with regs := hrvRegs v } r.metaAddr) r 5
    let x := notice { w with hrv := { w.hrv with
      dest := destination w r.cause, inputGoodAtSeal := inputGood w, short := decide (0 < r.unsaved), imageDrip := true } } 1 true
    let y := sendEvery x 0x0A [sealSeq x]
    exec (.sealWritten bad t) s = .next (if 0 < r.unsaved then raiseOpen y 0x151 else y) := by
  subst hu
  refine congrArg Host.Outcome.next ?_
  simp only [hst, hrun]
  exact if_neg (by simp [h])

end

/-- A placed seal is the newest of at most four, with the next sequence number, and closes the run. -/
theorem placeSeal_hrv (s : State) (a : Seal) (addr : Option Nat) :
    (placeSeal s a addr).hrv.seals.length ≤ 4 ∧ (placeSeal s a addr).hrv.runOpen = false ∧ (placeSeal s a addr).hrv.loss = none
      ∧ ∀ x, (placeSeal s a addr).hrv.seals.head? = some x →
          x.seq = sealSeq s + 1 ∧ x.unsaved = a.unsaved ∧ x.granules = a.granules ∧ x.metaAddr = addr.getD (drawn s) := by
  refine ⟨List.length_take_le _ _, rfl, rfl, fun x hx => ?_⟩
  obtain rfl := Option.some.inj hx
  exact ⟨rfl, rfl, rfl, rfl⟩

/-- Settles O29: each command by its checks in order, and each end of a fetch, a cutting, a stripe or the seal by its rule above. -/
theorem harvestAndReplantRuns : Obligations.HarvestAndReplantRuns := by
  refine ⟨fun c s v f h => ?_, fun c s v f h => ?_, fun c s v f h => ?_, fun g r t s u hu => ?_, fun k bad mism t s u hu => ?_,
    fun chans t s u hu => ⟨exec_warmVerifyEnd_nothing hu, exec_warmVerifyEnd hu⟩, fun n failed ues t s u hu => ?_,
    fun bad t s u hu => ?_, placeSeal_hrv⟩
  · rw [exec_harvestPlanLoad h]
    exact ⟨fun ha => congrArg _ (cmdHarvestPlanLoad_bad_action ha), fun h0 hb => congrArg _ (cmdHarvestPlanLoad_bad_plan h0 hb),
      fun h0 hb => congrArg _ (cmdHarvestPlanLoad_loads h0 hb), fun h1 hb => congrArg _ (cmdHarvestPlanLoad_clear_bad h1 hb),
      fun h1 hb => congrArg _ (cmdHarvestPlanLoad_clears h1 hb)⟩
  · rw [exec_replantOrderLoad h]
    refine ⟨fun ha => congrArg _ (cmdReplantOrderLoad_bad_action ha),
      fun h0 hc => congrArg _ (cmdReplantOrderLoad_from_host h0 hc),
      fun h0 hc hb => congrArg _ (cmdReplantOrderLoad_bad_order h0 hc hb),
      fun h0 hc hb => congrArg _ (cmdReplantOrderLoad_loads h0 hc hb),
      fun h1 ho => congrArg _ (cmdReplantOrderLoad_not_owner h1 ho),
      fun h1 ho hr => congrArg _ (cmdReplantOrderLoad_no_replant h1 ho hr),
      fun h1 ho hr hb => congrArg _ (cmdReplantOrderLoad_bad_ranges h1 ho hr hb), fun h1 ho hr hb => ?_⟩
    rw [cmdReplantOrderLoad_ranges h1 ho hr hb]
    exact ⟨fun hfull => congrArg _ (if_pos hfull), fun hroom => congrArg _ (if_neg (Nat.not_lt.mpr hroom))⟩
  · rw [exec_fullSave h]
    exact ⟨fun hs hd => congrArg _ (cmdFullSave_not_serving hs hd), fun hs =>
      ⟨fun hrun => congrArg _ (cmdFullSave_running hs hrun), fun hno hroom => congrArg _ (cmdFullSave_no_room hs hno hroom),
        fun hno hroom => congrArg _ (cmdFullSave_starts hs hno hroom)⟩⟩
  · exact ⟨exec_priorityFetchDone_not_running hu, fun f hf =>
      ⟨exec_priorityFetchDone_cutting hu hf, exec_priorityFetchDone_ends hu hf⟩⟩
  · refine ⟨exec_replantStripeDone_no_cutting hu, fun n cut hcut => ⟨exec_replantStripeDone_waits hu hcut,
      fun hrep hserv hdone => ⟨fun hw => ?_, fun hw hfree => ?_⟩⟩⟩
    · exact (exec_replantStripeDone_ends hu hcut hrep hserv hdone (.inl hw)).trans
        (congrArg (fun w => Host.Outcome.next (replantWork w)) (if_pos hw))
    · exact (exec_replantStripeDone_ends hu hcut hrep hserv hdone (.inr hfree)).trans
        (congrArg (fun w => Host.Outcome.next (replantWork w)) (if_neg (Bool.eq_false_iff.mp hw)))
  · refine ⟨exec_harvestStripeDone_no_run hu, fun r hst hrun => ⟨exec_harvestStripeDone_not_issued hu hst hrun, fun st hfind =>
      ⟨exec_harvestStripeDone_reading hu hst hrun hfind, fun hdone hread => ?_⟩⟩⟩
    obtain ⟨hr', hphase⟩ := afterStripe_run _ r n st failed
    exact ⟨_, _, exec_harvestStripeDone_ends hu hst hrun hfind hdone hread, hr', hphase, rfl, stripeEnded_header,
      stripeEnded_data⟩
  · exact ⟨exec_sealWritten_no_run hu, fun r hst hrun => ⟨exec_sealWritten_early hu hst hrun, exec_sealWritten hu hst hrun⟩⟩

end Sys2Proof.Machine

/-! The flash back-end (R201–R233, 07_flash_backend.md): polls and retraining of targets, programs, erases, reads, moves, patrols,
the clocks of the map and the choice of a victim. -/

namespace Sys2Proof.Machine

open Sys2Proof

/-! ### What the capture of a fault leaves of the flash back-end (R376, R379) -/

@[simp] theorem setBankOp_ftl (s : State) (b : Nat) (o : Option NvmOp) : (setBankOp s b o).ftl = s.ftl := by
  unfold setBankOp
  split <;> rfl

@[simp] theorem setBankSusp_ftl (s : State) (b : Nat) (o : Option NvmOp) : (setBankSusp s b o).ftl = s.ftl := by
  unfold setBankSusp
  split <;> rfl

@[simp] theorem nvmStart_ftl (s : State) (o : NvmOp) : (nvmStart s o).ftl = s.ftl := by
  unfold nvmStart
  split_ifs <;> simp

@[simp] theorem nvmPost_ftl (s : State) (o : NvmOp) : (nvmPost s o).ftl = s.ftl := by
  unfold nvmPost
  simp only
  split_ifs <;> simp

@[simp] theorem logPlace_ftl (s : State) (sev : Nat) : (logPlace s sev).1.ftl = s.ftl := by
  unfold logPlace
  split
  · rfl
  · split
    · rfl
    · split
      · rfl
      · split
        · exact nvmPost_ftl _ _
        · rfl

@[simp] theorem logWrite_ftl (s : State) (code sev : Nat) (b : EvBin) (part : Option (Nat × List HistEnt)) :
    (logWrite s code sev b part).1.ftl = s.ftl := by
  have hplace := logPlace_ftl s sev
  unfold logWrite
  split
  · rename_i w k n h
    rw [h] at hplace
    exact (nvmPost_ftl w _).trans hplace
  · rename_i w n h
    rw [h] at hplace
    exact hplace

@[simp] theorem notifyFault_ftl (s : State) (code detail : Nat) : (notifyFault s code detail).ftl = s.ftl := by
  unfold notifyFault postAll
  split_ifs <;> rfl

@[simp] theorem binEvent_ftl (s : State) (code detail flags : Nat) : (binEvent s code detail flags).ftl = s.ftl := by
  unfold binEvent
  simp only
  split <;> rfl

@[simp] theorem logEvent_ftl (s : State) (code detail flags : Nat) : (logEvent s code detail flags).ftl = s.ftl := by
  unfold logEvent
  split
  · rfl
  · split
    · have hwrite := logWrite_ftl s code (evSeverity s code) (binOne s (evByLow s code) detail flags) none
      split <;> rename_i w h <;> rw [h] at hwrite
      · split
        · exact hwrite
        · exact (notifyFault_ftl w code detail).trans hwrite
      · exact hwrite
    · exact binEvent_ftl s code detail flags

@[simp] theorem setSide_ftl (s : State) (cold : Bool) (x : D2dSide) : (setSide s cold x).ftl = s.ftl := by
  cases cold <;> rfl

@[simp] theorem forward_ftl (s : State) (n : Nat) (holds : Bool) : (forward s n holds).ftl = s.ftl := by
  unfold forward sendFrame sendNow
  simp only
  split_ifs <;> simp

/-- A projection of the state that the capture of a Corrected fault leaves alone. -/
def flashMem (s : State) : Ftl × Mem := (s.ftl, s.mem)

theorem flashMem_logEvent (s : State) (code detail flags : Nat) : flashMem (logEvent s code detail flags) = flashMem s :=
  Prod.ext (logEvent_ftl s code detail flags) (congrArg Prod.fst (stored_logEvent s code detail flags))

theorem flashMem_binEvent (s : State) (code detail flags : Nat) : flashMem (binEvent s code detail flags) = flashMem s :=
  Prod.ext (binEvent_ftl s code detail flags) (congrArg Prod.fst (stored_binEvent s code detail flags))

theorem flashMem_forward (s : State) (n : Nat) (holds : Bool) : flashMem (forward s n holds) = flashMem s :=
  Prod.ext (forward_ftl s n holds) (congrArg Prod.fst (stored_forward s n holds))

/-- A Corrected fault whose condition persists is recorded and told; no reaction touches the flash or memory. -/
theorem flashMem_raiseLive {n : Nat} (hn : reactRank n = 0) (s : State) (detail : Nat) :
    flashMem (raiseLive s n detail) = flashMem s := by
  unfold raiseLive raiseAs
  split
  · rfl
  · simp only [hn]
    split
    · exact (flashMem_binEvent _ _ _ _).trans (flashMem_forward _ _ _)
    · rw [if_neg (by decide), takeSnapshot, hn, if_pos (by simp)]
      exact (flashMem_logEvent _ _ _ _).trans (flashMem_forward _ _ _)

theorem flashMem_clearLive (s : State) (n : Nat) : flashMem (clearLive s n) = flashMem s := by
  unfold clearLive
  split
  · exact flashMem_forward _ _ _
  · rfl

/-- WEAR_OVERDRAWN is a Corrected fault (Table 14.2). -/
theorem flashMem_judgeBucket (s : State) : flashMem (judgeBucket s) = flashMem s := by
  unfold judgeBucket
  split
  · exact flashMem_raiseLive (by decide) _ _
  · split
    · exact flashMem_clearLive _ _
    · rfl

theorem flashMem_wear (s : State) (n : Nat) (pslc : Bool) : flashMem (wear s n pslc) = flashMem s := flashMem_judgeBucket _

/-! ### What the journal leaves alone (R218, R220) -/

/-- The map, host memory and the time of the last rotation. -/
def mapMem (s : State) : Tbl MapEnt × Mem × Nat := (s.ftl.map, s.mem, s.ftl.rotatedAt)

theorem mapMem_wear (s : State) (n : Nat) (pslc : Bool) : mapMem (wear s n pslc) = mapMem s :=
  congrArg (fun x : Ftl × Mem => (x.1.map, x.2, x.1.rotatedAt)) (flashMem_wear s n pslc)

theorem mapMem_putMeta (s : State) (kind idx commit : Nat) (l : List Byte) : mapMem (putMeta s kind idx commit l) = mapMem s := by
  unfold putMeta
  split
  · exact mapMem_wear s 1 true
  · exact mapMem_wear _ 1 true

theorem mapMem_writeSeg (s : State) (seg : Nat) : mapMem (writeSeg s seg) = mapMem s :=
  mapMem_putMeta _ _ _ _ _

theorem mapMem_trimJournal (s : State) (fuel : Nat) : mapMem (trimJournal s fuel) = mapMem s := by
  induction fuel generalizing s with
  | zero => rfl
  | succ fuel ih =>
    unfold trimJournal
    split
    · rfl
    · split
      · exact (ih _).trans (mapMem_writeSeg s _)
      · rfl

theorem mapMem_programJournal (s : State) : mapMem (programJournal s) = mapMem s := by
  unfold programJournal
  split
  · rfl
  · exact (mapMem_trimJournal _ _).trans (mapMem_putMeta _ _ _ _ _)

theorem mapMem_journal (s : State) (typ subject value : Nat) : mapMem (journal s typ subject value) = mapMem s := by
  unfold journal
  simp only
  split
  · exact mapMem_programJournal _
  · rfl

theorem mapMem_setRole (s : State) (k : Nat) (r : BlockRole) : mapMem (setRole s k r) = mapMem s :=
  foldl_keeps mapMem (fun w _ => mapMem_journal w 3 _ _) (members s k) _

/-! ### Targets (R201, R233) -/

/-- Target `k` set to `x`. -/
def setTarget (s : State) (k : Nat) (x : Target) : State :=
  { s with ftl := { s.ftl with targets := tset s.ftl.targets k x } }

section
variable {s u : State} {t k : Nat} {x : Target} (hu : u = tick s t)
include hu

theorem exec_targetStatusPoll_of_absent {ok : Bool} (h : tget u.ftl.targets k = none) :
    exec (.targetStatusPoll k ok t) s = .next u := by
  show execTargetStatusPoll k ok t s = _
  simp only [execTargetStatusPoll, ← hu, h]

theorem exec_targetStatusPoll_of_failed {ok : Bool} (h : tget u.ftl.targets k = some x) (hf : x.failed = true) :
    exec (.targetStatusPoll k ok t) s = .next u := by
  show execTargetStatusPoll k ok t s = _
  simp only [execTargetStatusPoll, ← hu, h, hf, if_true]

/-- A poll that is answered ends the count of polls missed in a row. -/
theorem exec_targetStatusPoll_answered (h : tget u.ftl.targets k = some x) (hf : x.failed = false) :
    exec (.targetStatusPoll k true t) s = .next (setTarget u k { x with polls := 0 }) := by
  show execTargetStatusPoll k true t s = _
  simp only [execTargetStatusPoll, ← hu, h, hf]
  rfl

/-- The third poll missed in a row fails the target. -/
theorem exec_targetStatusPoll_missed (h : tget u.ftl.targets k = some x) (hf : x.failed = false) :
    exec (.targetStatusPoll k false t) s = .next (if 2 ≤ x.polls then failTarget (setTarget u k { x with polls := x.polls + 1 }) k
      else setTarget u k { x with polls := x.polls + 1 }) := by
  show execTargetStatusPoll k false t s = _
  simp only [execTargetStatusPoll, ← hu, h, hf, Bool.false_eq_true, if_false, Nat.reduceLeDiff, setTarget]

theorem exec_flashDqRetrain_of_absent {temp : Int} (h : tget u.ftl.targets k = none) :
    exec (.flashDqRetrain k temp t) s = .next u := by
  show execFlashDqRetrain k temp t s = _
  simp only [execFlashDqRetrain, ← hu, h]

/-- The temperature is kept; a target in service that has moved by 10 °C is trained at it. -/
theorem exec_flashDqRetrain {temp : Int} (h : tget u.ftl.targets k = some x) :
    exec (.flashDqRetrain k temp t) s = .next (setTarget u k (if x.failed || (temp - x.trainTemp).natAbs < 10
      then { x with temp := temp } else { x with temp := temp, trainTemp := temp })) := by
  show execFlashDqRetrain k temp t s = _
  simp only [execFlashDqRetrain, ← hu, h, setTarget]

/-! ### Programs and journal pages (R212–R215, R218) -/

theorem exec_flashProgramDone_ignored {ws : List (Nat × Nat)} {ok : Bool}
    (h : u.dev.state = .harvesting ∨ logicOn u = false ∨ ws.any (fun w => engineHeld u (faChan w.2)) = true) :
    exec (.flashProgramDone ws ok t) s = .next u := by
  subst hu
  exact congrArg Host.Outcome.next (if_pos (by simpa only [Bool.or_eq_true, beq_iff_eq, Bool.not_eq_true', or_assoc] using h))

theorem exec_flashProgramDone {ws : List (Nat × Nat)} {ok : Bool} (hd : u.dev.state ≠ .harvesting) (hon : logicOn u = true)
    (he : ws.any (fun w => engineHeld u (faChan w.2)) = false) :
    exec (.flashProgramDone ws ok t) s = .next (programPages u ws ok) := by
  subst hu
  exact congrArg Host.Outcome.next (if_neg (by
    simp only [Bool.or_eq_true, beq_iff_eq, hd, hon, he, Bool.not_true, Bool.false_eq_true, or_self, not_false_eq_true]))

/-- Once a granule has waited 10 ms for its page, filler pages may complete its wordline, at most 11. -/
theorem exec_wordlineFillTimeout {n : Nat} : exec (.wordlineFillTimeout n t) s
    = .next (if u.ftl.progs.any (fun p => p.addr.isNone && decide (p.since + 10000 ≤ u.now)) then
        { u with ftl := { u.ftl with fill := max u.ftl.fill (min n 11) } } else u) := by
  subst hu
  rfl

theorem exec_journalPageTimeout_ignored {bad : Bool} (h : u.dev.state = .harvesting ∨ logicOn u = false ∨ u.ftl.jbuf = []
      ∨ (∃ a, u.ftl.jbufAt = some a ∧ u.now < a + 200) ∨ u.ftl.jbufAt = none) :
    exec (.journalPageTimeout bad t) s = .next u := by
  have hearly : ((∃ a, u.ftl.jbufAt = some a ∧ u.now < a + 200) ∨ u.ftl.jbufAt = none)
      → u.now < u.ftl.jbufAt.getD u.now + 200 := by
    rintro (⟨a, ha, hlt⟩ | hnone)
    · rwa [ha, Option.getD_some]
    · rw [hnone, Option.getD_none]
      omega
  subst hu
  refine congrArg Host.Outcome.next (if_pos ?_)
  simp only [Bool.or_eq_true, beq_iff_eq, Bool.not_eq_true', List.isEmpty_iff, decide_eq_true_eq, or_assoc]
  exact h.imp_right (Or.imp_right (Or.imp_right hearly))

/-- The page is programmed from 200 µs after its first record on, again where its first program failed. -/
theorem exec_journalPageTimeout {bad : Bool} {a : Nat} (hd : u.dev.state ≠ .harvesting) (hon : logicOn u = true)
    (hj : u.ftl.jbuf ≠ []) (ha : u.ftl.jbufAt = some a) (hdue : a + 200 ≤ u.now) :
    exec (.journalPageTimeout bad t) s = .next (programJournal (if bad then metaFailed u else u)) := by
  subst hu
  refine congrArg Host.Outcome.next (if_neg ?_)
  simp only [Bool.or_eq_true, beq_iff_eq, Bool.not_eq_true', List.isEmpty_iff, decide_eq_true_eq, hd, hon, hj, ha,
    Option.getD_some, Nat.not_lt.mpr hdue, Bool.true_eq_false, or_self, not_false_eq_true]

end

/-! ### A program of one unit (R212–R214) -/

/-- The pages of the unit that the program of granule `g` at `a` takes. -/
def unitPages (s : State) (g a : Nat) : List Nat :=
  programUnit s a (((s.ftl.progs.find? (fun p => p.gran == g && p.addr.isNone)).map (·.why)).getD .drip)

/-- The pages of the unit of the first granule that no granule of `ws` takes: filler pages. -/
def fillPages (s : State) (g a : Nat) (ws : List (Nat × Nat)) : List Nat :=
  (unitPages s g a).filter (fun x => !ws.any (fun w => w.2 == x))

/-- A block with a page that was to be erased and is not: the fault, and its live copies leave it (R212). -/
def unitNotErased (s : State) (a : Nat) : State :=
  let w := bump (raiseOpen s (0x0C1 + 4 * faChan a)) (regAt rFceErr (faChan a)) 8 8 1
  moveAll (setBlock w (blkKey a) { block w (blkKey a) with cleared := true, queued := true }) (fun x => blkKey x == blkKey a)

/-- The pages of the granules and the filler pages of a unit are programmed (R214). -/
def unitPlaced (s : State) (ws : List (Nat × Nat)) (fill : List Nat) : State :=
  let w := fill.foldl fillerDone (ws.foldl (fun w p => pageDone w p.1 p.2) s)
  { w with ftl := { w.ftl with fill := if fill.isEmpty then w.ftl.fill else 0 } }

section
variable {s : State} {ws r : List (Nat × Nat)} {g a : Nat} {ok : Bool}

theorem programPages_of_no_work (h : programWork s ws = []) : programPages s ws ok = s := by
  simp only [programPages, h]

variable (h : programWork s ws = (g, a) :: r)
include h

theorem programPages_waits (hf : s.ftl.fill < (fillPages s g a ((g, a) :: r)).length) : programPages s ws ok = s := by
  simp only [programPages, h]
  exact if_pos hf

theorem programPages_not_erased (hf : (fillPages s g a ((g, a) :: r)).length ≤ s.ftl.fill)
    (he : (unitPages s g a).all (pageErased s) = false) :
    programPages s ws ok = ((g, a) :: r).foldl (fun w p => flashProgFail w p.1) (unitNotErased s a) := by
  simp only [programPages, h]
  exact (if_neg (Nat.not_lt.mpr hf)).trans (if_pos (congrArg not he))

theorem programPages_placed (hf : (fillPages s g a ((g, a) :: r)).length ≤ s.ftl.fill)
    (he : (unitPages s g a).all (pageErased s) = true) (hok : ok = true) :
    programPages s ws ok = (let w := unitPlaced s ((g, a) :: r) (fillPages s g a ((g, a) :: r))
      takePages w (sbOf w a) (unitPages s g a).length) := by
  have hall : ¬(!(unitPages s g a).all (pageErased s)) = true := by rw [he]; exact Bool.false_ne_true
  subst hok
  simp only [programPages, h]
  exact (if_neg (Nat.not_lt.mpr hf)).trans ((if_neg hall).trans (if_neg Bool.false_ne_true))

end

/-! ### Erases (R208, R211–R213, R231) -/

/-- What the erase of a whole superblock rests on: nothing live in it, and its place in the pools. -/
theorem mayErase_facts {s : State} {k : Nat} (h : mayErase s k = true) : tget s.ftl.sbs k ≠ none ∧ liveOf s k = []
    ∧ ((sb s k).role = .tlcFree ∨ (sb s k).role = .harvest ∨ (sb s k).role = .metadata)
    ∧ ((sb s k).role ≠ .metadata → (sb s k).clean = false) := by
  simp only [mayErase, Bool.and_eq_true, List.isEmpty_iff] at h
  obtain ⟨⟨hpresent, hlive⟩, hrole⟩ := h
  refine ⟨Option.isSome_iff_ne_none.mp hpresent, hlive, ?_⟩
  split at hrole <;> rename_i hr
  · exact ⟨.inl hr, fun _ => by simpa using hrole⟩
  · exact ⟨.inr (.inl hr), fun _ => by simpa using hrole⟩
  · exact ⟨.inr (.inr hr), fun hne => absurd hr hne⟩
  · exact absurd hrole Bool.false_ne_true

@[simp] theorem sb_setSb_same (s : State) (k : Nat) (x : Sb) : sb (setSb s k x) k = x := by
  simp [sb, setSb, tgetD]

/-- A superblock has members on all targets but those it lacks. -/
theorem members_setSb {s : State} {k : Nat} {x : Sb} (h : x.missing = (sb s k).missing) :
    members (setSb s k x) k = members s k := by
  simp only [members, sb_setSb_same, h]
  rfl

section
variable {s u : State} {t k : Nat} {failed : List Nat} (hu : u = tick s t)
include hu

theorem exec_flashEraseDone_ignored
    (h : mayErase u k = false ∨ (members u k).any (fun tk => engineHeld u (tk / 16)) = true) :
    exec (.flashEraseDone k none failed t) s = .next u := by
  subst hu
  exact congrArg Host.Outcome.next (if_pos (by simpa only [Bool.or_eq_true, Bool.not_eq_true'] using h))

/-- A superblock is erased member by member, and harvest_cap reported. -/
theorem exec_flashEraseDone {x : Sb} (hm : mayErase u k = true)
    (he : (members u k).any (fun tk => engineHeld u (tk / 16)) = false)
    (hx : x = { sb u k with clean := true, used := 0, erases := min 65535 ((sb u k).erases + 1) }) :
    exec (.flashEraseDone k none failed t) s
      = .next (reportCap ((members u k).foldl (fun w tk => memberErased w k failed tk) (setSb u k x))) := by
  have hmembers : members (setSb u k x) k = members u k := members_setSb (by rw [hx])
  show execFlashEraseDone k none failed t s = _
  simp only [execFlashEraseDone, ← hu, hm, he, ← hx, hmembers, Bool.not_true, Bool.or_false, Bool.false_eq_true, if_false]

theorem exec_flashEraseDone_block {tk : Nat} : exec (.flashEraseDone k (some tk) failed t) s
    = .next (if mayEraseBlock u (tk * 8192 + memberBlock u tk k) && !engineHeld u (tk / 16)
        then reportCap (memberErased u k failed tk) else u) := by
  subst hu
  rfl

end

theorem memberErased_failed {s : State} {k tk : Nat} {failed : List Nat} (h : failed.contains tk = true) :
    memberErased s k failed tk = retireBlock (bump s (regAt rFceErr (tk / 16)) 16 8 1) (tk * 8192 + memberBlock s tk k) :=
  if_pos h

/-- A block retires at its 65,535th erase. -/
theorem memberErased_erased {s : State} {k tk b : Nat} {failed : List Nat} (hb : b = tk * 8192 + memberBlock s tk k)
    (h : failed.contains tk = false) : memberErased s k failed tk
      = if (block (blockErased s b) b).erases == 65535 then retireBlock (blockErased s b) b else blockErased s b := by
  subst hb
  exact if_neg (ne_of_eq_of_ne h Bool.false_ne_true)

/-! ### Reads and the patrol (R208, R209, R229) -/

/-- A move that waits for a page and reads the copy at `a` from flash. -/
def readsCopy (a : Nat) : Prog → Bool := fun p => p.why == .move && p.addr.isNone && !p.dram && p.src.addr == a

/-- FLASH_UE with the place of the page at `a` (R209). -/
def raiseUe (s : State) (a : Nat) : State := raise s (0x0C0 + 4 * faChan a) (ueDetail a)

/-- A programmed page whose channel's engine is not held passes the guard of a read. -/
theorem not_read_held {s : State} {a : Nat} (hp : tget s.ftl.pages a ≠ none) (he : engineHeld s (faChan a) = false) :
    ((tget s.ftl.pages a).isNone || engineHeld s (faChan a)) = false := by
  rw [he, Bool.or_false]
  exact Option.isNone_eq_false_iff.mpr (Option.isSome_iff_ne_none.mpr hp)

section
variable {s u : State} {t a : Nat} {r : FlashRead} (hu : u = tick s t)
include hu

theorem exec_flashReadDone_ignored (h : tget u.ftl.pages a = none ∨ engineHeld u (faChan a) = true) :
    exec (.flashReadDone a r t) s = .next u := by
  subst hu
  exact congrArg Host.Outcome.next (if_pos (by simpa only [Bool.or_eq_true, Option.isNone_iff_eq_none] using h))

theorem exec_patrolSchedule_ignored (h : serving u = false ∨ tget u.ftl.pages a = none ∨ loopsRun u true = false) :
    exec (.patrolSchedule a r t) s = .next u := by
  subst hu
  exact congrArg Host.Outcome.next (if_pos (by
    simpa only [Bool.or_eq_true, Bool.not_eq_true', Option.isNone_iff_eq_none, or_assoc] using h))

variable {v : State} (hv : v = judgeDisturb (countRead u a r.effort (readAt u a r)) a)
include hv

/-- What a patrol read shows sorts its block: retired, refreshed or left. -/
theorem exec_patrolSchedule (hs : serving u = true) (hp : tget u.ftl.pages a ≠ none) (hl : loopsRun u true = true) :
    exec (.patrolSchedule a r t) s = .next (
      if readFailed (readAt u a r) then retireBlock (raiseUe v a) (blkKey a)
      else if (block v (blkKey a)).sticky == 15 then retireBlock v (blkKey a)
      else if 2 ≤ r.effort || 3 ≤ (block v (blkKey a)).sticky || tooOld v a then refreshBlock v (blkKey a)
      else v) := by
  subst hu hv
  exact congrArg Host.Outcome.next (if_neg (by
    simp only [Bool.or_eq_true, Bool.not_eq_true', Option.isNone_iff_eq_none, hs, hp, hl, Bool.true_eq_false, or_self,
      not_false_eq_true]))

variable (hp : tget u.ftl.pages a ≠ none) (he : engineHeld u (faChan a) = false)
include hp he

/-- A read that decodes gives the moves that wait for the copy their data. -/
theorem exec_flashReadDone_decoded (hf : readFailed (readAt u a r) = false) :
    exec (.flashReadDone a r t) s = .next { v with ftl := { v.ftl with
      progs := v.ftl.progs.map (fun p => if readsCopy a p then { p with readOk := true } else p) } } := by
  show execFlashReadDone a r t s = _
  simp only [execFlashReadDone, ← hu, not_read_held hp he, hf, ← hv, readsCopy,
    Bool.not_false, Bool.false_eq_true, if_true, if_false]
  rfl

/-- An uncorrectable copy that no move reads retires its block. -/
theorem exec_flashReadDone_retires (hf : readFailed (readAt u a r) = true)
    (hc : (raiseUe v a).ftl.progs.find? (readsCopy a) = none) :
    exec (.flashReadDone a r t) s = .next (retireBlock (raiseUe v a) (blkKey a)) := by
  delta raiseUe readsCopy at hc
  show execFlashReadDone a r t s = _
  simp only [execFlashReadDone, ← hu, not_read_held hp he, hf, ← hv, hc, raiseUe,
    Bool.not_true, Bool.false_eq_true, if_false]

/-- An uncorrectable copy that a move reads leaves its granule without data: its entry becomes KIND 3, its moves are withdrawn. -/
theorem exec_flashReadDone_poisons {w x : State} {p : Prog} (hf : readFailed (readAt u a r) = true) (hw : w = raiseUe v a)
    (hc : w.ftl.progs.find? (readsCopy a) = some p) (hx : x = changeMap w p.gran { mapEnt w p.gran with kind := 3 }) :
    exec (.flashReadDone a r t) s = .next (afterMove { x with ftl := { x.ftl with
      progs := x.ftl.progs.filter (fun q => !(q.gran == p.gran && q.why == .move)) } } a) := by
  delta raiseUe at hw
  delta readsCopy at hc
  show execFlashReadDone a r t s = _
  simp only [execFlashReadDone, ← hu, not_read_held hp he, hf, ← hv, ← hw, hc, ← hx,
    Bool.not_true, Bool.false_eq_true, if_false]

end

/-- A block that does not retire refreshes: its live copies move, and it is queued for its erase. -/
theorem refreshBlock_of_ne {s : State} {b : Nat} (h : (block s b).sticky ≠ 15) : refreshBlock s b
    = moveAll (setBlock s b { block s b with queued := true }) (fun a => blkKey a == b) :=
  if_neg (by simpa only [beq_iff_eq] using h)

/-! ### Moves commit (R227) -/

/-- The moves of granule `g` whose record is written are done with. -/
def moveTaken (s : State) (g : Nat) : State :=
  { s with ftl := { s.ftl with progs := s.ftl.progs.filter (fun q => !(q.gran == g && q.why == .move && q.seq.isSome)) } }

/-- A record of the entry of granule `g` that stands follows that of a discarded move (log entry 118). -/
def entryStands (s : State) (g : Nat) : State := journal (moveTaken s g) 1 g (entryCode (mapEnt s g))

section
variable {s u : State} {t g : Nat} (hu : u = tick s t)
include hu

theorem exec_moveCommit_nothing (h : u.ftl.progs.find? (fun p => p.gran == g && p.why == .move && p.seq.isSome) = none) :
    exec (.moveCommit g t) s = .next u := by
  show execMoveCommit g t s = _
  simp only [execMoveCommit, ← hu, h]

/-- A move takes effect where the map still names its source and its granule was not written meanwhile. -/
theorem exec_moveCommit {p : Prog} (h : u.ftl.progs.find? (fun p => p.gran == g && p.why == .move && p.seq.isSome) = some p) :
    exec (.moveCommit g t) s = .next (
      if mapEnt u g != p.src then entryStands u g
      else if p.dram && !p.moving then issueMove (entryStands u g) g
      else afterMove (setMap (moveTaken u g) g {
        kind := if (sb u (sbOf u (p.addr.getD 0))).role == .folding then 2 else 1,
        gen := p.page.gen % 256, addr := p.addr.getD 0 }) p.src.addr) := by
  show execMoveCommit g t s = _
  simp only [execMoveCommit, ← hu, h]
  rfl

end

/-! ### The clocks of the back-end (R220, R223, R228, R229) -/

/-- The exchange of roles for one harvest superblock, with the least worn erased TLC free one (R229). -/
def rotateOne (s : State) (h : Nat) : State :=
  if !(sb s h).clean || (sb s h).used != 0 then s
  else match ((sbsOf s .tlcFree).filter (fun k => (sb s k).clean && (sb s k).missing.isEmpty)).foldl
      (fun b k => match b with | none => some k | some j => if (sb s k).erases < (sb s j).erases then some k else some j) none with
    | some k => if (sb s k).erases < (sb s h).erases then setRole (setRole s k .harvest) h .tlcFree else s
    | none => s

/-- The rotation of the harvest region (R229). -/
def rotated (s : State) : State :=
  let v := { s with ftl := { s.ftl with rotatedAt := opSecs s } }
  reportCap ((sbsOf v .harvest).foldl rotateOne v)

theorem mapMem_rotateOne (s : State) (h : Nat) : mapMem (rotateOne s h) = mapMem s := by
  unfold rotateOne
  split
  · rfl
  · split
    · split
      · exact (mapMem_setRole _ _ _).trans (mapMem_setRole _ _ _)
      · rfl
    · rfl

theorem mapMem_rotated (s : State) : mapMem (rotated s) = (s.ftl.map, s.mem, opSecs s) :=
  foldl_keeps mapMem mapMem_rotateOne _ _

/-- Garbage collection runs: from GC_LOW free superblocks down, until 8 more are free (R228). -/
def gcRuns (s : State) : Bool := if s.ftl.gc then decide (freeSb s < gcLow s + 8) else decide (freeSb s < gcLow s)

/-- The victim choice is due. -/
def gcDue (s : State) : Bool := loopDue s true 2 10000 (if 2 * freeSb s < gcLow s then 10000 else 100000)

/-- Garbage collection is judged, and its loop has run if it was due. -/
def gcJudged (s : State) : State :=
  let v := { s with ftl := { s.ftl with gc := gcRuns s } }
  if gcDue s then loopRan v 2 else v

/-- A victim is taken where collection runs without one; one without live copies is freed at once (R228). -/
def gcTakes (s : State) (run due : Bool) : State :=
  if run && s.ftl.victim.isNone && (due || bothDown s) then (match gcVictim s with
    | some k =>
      let x := { s with ftl := { s.ftl with victim := some k } }
      if (liveOf x k).isEmpty then freeSuper x k else x
    | none => s) else s

/-- Collection, levelling and the moves that are due (R228, R229). -/
def gcWork (s : State) : State :=
  let w := gcTakes (gcJudged s) (gcRuns s) (gcDue s)
  moveWork (if gcDue s then levelWear w else w)

/-- Without a free superblock, the drips that wait for a page end without a commit. -/
def noSpace (s : State) : State :=
  ((s.ftl.progs.filter (fun p => p.addr.isNone && (p.why == .drip || p.why == .flush))).map (fun p => (p.gran, p.n))).foldl
    (fun z p => dripFail z p.1 p.2) (raiseOpen s 0x141)

section
variable {s u : State} {t : Nat} (hu : u = tick s t)
include hu

theorem exec_gcVictimChoice_off (h : serving u = false) : exec (.gcVictimChoice t) s = .next u := by
  subst hu
  exact congrArg Host.Outcome.next (if_pos (congrArg not h))

theorem exec_gcVictimChoice (h : serving u = true) : exec (.gcVictimChoice t) s
    = .next (if freeSb (gcWork u) == 0 && !(gcWork u).ftl.sbs.isEmpty then noSpace (gcWork u) else gcWork u) := by
  subst hu
  exact congrArg Host.Outcome.next (if_neg (ne_of_eq_of_ne (congrArg not h) Bool.false_ne_true))

theorem exec_harvestRotation_ignored (h : serving u = false ∨ opSecs u < u.ftl.rotatedAt + 2592000) :
    exec (.harvestRotation t) s = .next u := by
  subst hu
  exact congrArg Host.Outcome.next (if_pos (by simpa only [Bool.or_eq_true, Bool.not_eq_true', decide_eq_true_eq] using h))

theorem exec_harvestRotation (h : serving u = true) (hdue : u.ftl.rotatedAt + 2592000 ≤ opSecs u) :
    exec (.harvestRotation t) s = .next (rotated u) := by
  subst hu
  exact congrArg Host.Outcome.next (if_neg (by
    simp only [Bool.or_eq_true, Bool.not_eq_true', decide_eq_true_eq, h, Nat.not_lt.mpr hdue, Bool.true_eq_false, or_self,
      not_false_eq_true]))

theorem exec_harvestRegionSizing_ignored
    (h : serving u = false ∨ u.ftl.sbs = [] ∨ loopDue u false 5 1000000 10000000 = false) :
    exec (.harvestRegionSizing t) s = .next u := by
  subst hu
  exact congrArg Host.Outcome.next (if_pos (by
    simpa only [Bool.or_eq_true, Bool.not_eq_true', List.isEmpty_iff, or_assoc] using h))

theorem exec_harvestRegionSizing (h : serving u = true) (hsbs : u.ftl.sbs ≠ [])
    (hdue : loopDue u false 5 1000000 10000000 = true) :
    exec (.harvestRegionSizing t) s = .next (sizeRegion (loopRan u 5)) := by
  subst hu
  exact congrArg Host.Outcome.next (if_neg (by
    simp only [Bool.or_eq_true, Bool.not_eq_true', List.isEmpty_iff, h, hsbs, hdue, Bool.true_eq_false, or_self,
      not_false_eq_true]))

theorem exec_checkpointWrite_ignored {seg : Nat} {bad : Bool} (h : serving u = false ∨ oldestSeg u ≠ some seg) :
    exec (.checkpointWrite seg bad t) s = .next u := by
  subst hu
  exact congrArg Host.Outcome.next (if_pos (by simpa only [Bool.or_eq_true, Bool.not_eq_true', bne_iff_ne] using h))

/-- The segment of the oldest record that no segment holds is rewritten. -/
theorem exec_checkpointWrite {seg : Nat} {bad : Bool} (h : serving u = true) (hseg : oldestSeg u = some seg) :
    exec (.checkpointWrite seg bad t) s = .next (writeSeg (if bad then metaFailed u else u) seg) := by
  subst hu
  exact congrArg Host.Outcome.next (if_neg (by
    simp only [Bool.or_eq_true, Bool.not_eq_true', bne_iff_ne, h, hseg, ne_eq, not_true_eq_false, Bool.true_eq_false,
      or_self, not_false_eq_true]))

end

/-! ### The obligation -/

/-- Settles O44: each row by its rule above. -/
theorem flashEvents : Obligations.FlashEvents := by
  refine ⟨fun tgt t ok temp s u hu => ?_, fun ws ok bad n t s u hu => ?_, fun s ws ok => ?_, fun k t failed s u hu => ?_,
    fun a t r s u hu => ?_, fun g t s u hu => ?_, fun seg t bad s u hu => ?_⟩
  · refine ⟨fun hnone => ⟨exec_targetStatusPoll_of_absent hu hnone, exec_flashDqRetrain_of_absent hu hnone⟩, fun x hx =>
      ⟨fun hf => ⟨exec_targetStatusPoll_of_failed hu hx hf, ?_⟩, fun hf => ⟨exec_targetStatusPoll_answered hu hx hf,
        ⟨fun hfew => ?_, fun hthird => ?_⟩, fun hnear => ?_, fun hfar => ?_⟩⟩⟩
    · rw [exec_flashDqRetrain hu hx, if_pos (by rw [hf, Bool.true_or])]
      rfl
    · rw [exec_targetStatusPoll_missed hu hx hf, if_neg (Nat.not_le.mpr hfew)]
      rfl
    · rw [exec_targetStatusPoll_missed hu hx hf, if_pos hthird]
      rfl
    · rw [exec_flashDqRetrain hu hx, if_pos (by rw [decide_eq_true hnear, Bool.or_true])]
      rfl
    · rw [exec_flashDqRetrain hu hx, if_neg (by rw [hf, decide_eq_false (Nat.not_lt.mpr hfar)]; exact Bool.false_ne_true)]
      rfl
  · refine ⟨exec_flashProgramDone_ignored hu, exec_flashProgramDone hu, fun hnone => ?_, fun hsome => ?_,
      exec_journalPageTimeout_ignored hu, fun a hd hon hj ha hdue =>
        ⟨exec_journalPageTimeout hu hd hon hj ha hdue, exec_journalPageTimeout hu hd hon hj ha hdue⟩⟩
    · rw [exec_wordlineFillTimeout hu, if_neg (Bool.eq_false_iff.mp hnone)]
    · rw [exec_wordlineFillTimeout hu, if_pos hsome]
  · refine ⟨programPages_of_no_work, fun g a r h =>
      ⟨programPages_waits h, programPages_not_erased h, fun hf he hok => (programPages_placed h hf he hok).trans ?_⟩⟩
    simp only [unitPlaced, List.isEmpty_iff]
    rfl
  · refine ⟨exec_flashEraseDone_ignored hu, fun hm he => exec_flashEraseDone hu hm he rfl, mayErase_facts, fun tk h => ?_,
      fun tk hm he => ?_, fun tk => ⟨memberErased_failed, fun hok hfew => ?_, fun hok hmany => ?_⟩⟩
    · rw [exec_flashEraseDone_block hu, if_neg]
      rcases h with hm | he
      · rw [hm, Bool.false_and]
        exact Bool.false_ne_true
      · rw [he, Bool.not_true, Bool.and_false]
        exact Bool.false_ne_true
    · rw [exec_flashEraseDone_block hu, if_pos (by rw [hm, he]; rfl)]
    · rw [memberErased_erased rfl hok, if_neg (mt beq_iff_eq.mp hfew)]
    · rw [memberErased_erased rfl hok, if_pos (beq_iff_eq.mpr hmany)]
  · refine ⟨exec_flashReadDone_ignored hu, exec_flashReadDone_decoded hu rfl,
      fun hp he hfailed => ⟨exec_flashReadDone_retires hu rfl hp he hfailed,
        fun p hc => exec_flashReadDone_poisons hu rfl hp he hfailed rfl hc rfl⟩,
      exec_patrolSchedule_ignored hu, fun hs hp hl => ?_⟩
    · rw [exec_patrolSchedule hu rfl hs hp hl]
      refine ⟨fun hfailed => ?_, fun hread hworst => ?_, fun hread hbetter hworn => ?_, fun hread heffort hsticky hyoung => ?_⟩
      · rw [if_pos hfailed]
        rfl
      · rw [if_neg (Bool.eq_false_iff.mp hread), if_pos (beq_iff_eq.mpr hworst)]
      · rw [if_neg (Bool.eq_false_iff.mp hread), if_neg (mt beq_iff_eq.mp hbetter),
          if_pos (by simpa only [Bool.or_eq_true, decide_eq_true_eq, or_assoc] using hworn), refreshBlock_of_ne hbetter]
      · rw [if_neg (Bool.eq_false_iff.mp hread), if_neg (mt beq_iff_eq.mp (Nat.ne_of_lt (hsticky.trans (by decide)))), if_neg]
        rw [Bool.or_eq_true, Bool.or_eq_true, decide_eq_true_eq, decide_eq_true_eq, not_or, not_or]
        exact ⟨⟨Nat.not_le.mpr heffort, Nat.not_le.mpr hsticky⟩, Bool.eq_false_iff.mp hyoung⟩
  · refine ⟨exec_moveCommit_nothing hu, fun p hp => ?_⟩
    rw [exec_moveCommit hu hp]
    refine ⟨fun hmoved => ?_, fun hstays hdram hwritten => ?_, fun hstays hclean => ?_⟩
    · rw [if_pos (bne_iff_ne.mpr hmoved)]
      rfl
    · rw [if_neg (by rw [hstays, bne_self_eq_false]; exact Bool.false_ne_true), if_pos (by rw [hdram, hwritten]; rfl)]
      rfl
    · rw [if_neg (by rw [hstays, bne_self_eq_false]; exact Bool.false_ne_true), if_neg]
      · simp only [beq_iff_eq]
        rfl
      · rcases hclean with hflash | hkept
        · rw [hflash, Bool.false_and]
          exact Bool.false_ne_true
        · rw [hkept, Bool.not_true, Bool.and_false]
          exact Bool.false_ne_true
  · refine ⟨fun hoff => ⟨exec_gcVictimChoice_off hu hoff, exec_harvestRotation_ignored hu (.inl hoff),
        exec_harvestRegionSizing_ignored hu (.inl hoff), exec_checkpointWrite_ignored hu (.inl hoff)⟩,
      fun hearly => exec_harvestRotation_ignored hu (.inr hearly), fun h => exec_harvestRegionSizing_ignored hu (.inr h),
      exec_harvestRegionSizing hu, fun hs hdue => ⟨rotated u, exec_harvestRotation hu hs hdue, ?_⟩,
      fun h => exec_checkpointWrite_ignored hu (.inr h),
      fun hs hseg => ⟨exec_checkpointWrite hu hs hseg, exec_checkpointWrite hu hs hseg⟩, fun hs => ?_⟩
    · have hrot := mapMem_rotated u
      simp only [mapMem, Prod.mk.injEq] at hrot
      obtain ⟨hmap, hmem, hat⟩ := hrot
      exact ⟨hat, hmap, hmem⟩
    · rw [exec_gcVictimChoice hu hs]
      refine ⟨fun hroom => congrArg Host.Outcome.next (if_neg ?_), fun hfull hsbs => congrArg Host.Outcome.next (if_pos ?_)⟩
      · simp only [Bool.and_eq_true, beq_iff_eq, Bool.not_eq_true', List.isEmpty_eq_false_iff]
        exact fun hfull => hroom.elim (absurd hfull.1) (absurd · hfull.2)
      · simp only [Bool.and_eq_true, beq_iff_eq, Bool.not_eq_true', List.isEmpty_eq_false_iff]
        exact ⟨hfull, hsbs⟩

end Sys2Proof.Machine

/-! The sublinks of the twin link (R241, R242, R247, R252, log entries 13 and 54): each stage of training, what AUTH opens or joins,
bounds, holds and losses. -/

namespace Sys2Proof.Machine

open Sys2Proof

/-! ### A sublink's state moves on (R241) -/

section
variable {s : State} {k a b : Nat}

theorem advanceSub_moves (h : (subl s k).st = a) (hk : k < nSub s) : advanceSub s k a b
    = judgeLink (modSub s k (fun x => { x with st := b, stAt := s.now, goodAt := s.now })) :=
  if_pos (by simp [h, hk])

theorem advanceSub_stays (h : ¬ (subl s k).st = a ∨ nSub s ≤ k) : advanceSub s k a b = s :=
  if_neg (by simpa [Decidable.imp_iff_not_or] using h)

end

/-- The markers lock where the eight lanes name each lane of one of the four peer sublinks. -/
theorem lanesLock_iff (lanes : List (Nat × Nat × Bool)) : lanesLock lanes = true
    ↔ lanes.length = 8 ∧ (∀ p ∈ lanes, p.1 = (lanes.headD (0, 0, false)).1 ∧ p.1 < 4) ∧ ∀ i < 8, ∃ p ∈ lanes, p.2.1 = i := by
  simp only [lanesLock, Bool.and_eq_true, beq_iff_eq, List.all_eq_true, List.any_eq_true, decide_eq_true_eq, List.mem_range,
    and_assoc]

/-- The HELLO of this unit with the next nonce (R247, Table 8.7). -/
def ownHello (s : State) : HelloMsg :=
  { serial := Config.serial.toNat, group := Config.groupId.toNat, part := s.fus.part, major := myMajor s,
    sessNext := s.exl.sessNext, nonce := padTo (Config.helloNonce (drawn s)) 16 }

section
variable {s : State} {k : Nat}

theorem sendHello_in_session (h : s.exl.session = true) : sendHello s k = s := if_pos h

theorem sendHello_sends (h : s.exl.session = false) : sendHello s k
    = sendMsg { drew s with exl := { s.exl with mine := ownHello s, proved := false } } k 0x10
        ((helloBytes (ownHello s)).map (·.toNat)) :=
  if_neg (Bool.eq_false_iff.mp h)

end

/-! ### The stages (R239, R241) -/

section
variable {k t : Nat} {s u : State} (hu : u = tick s t)
include hu

theorem exec_sublinkSignalDetect : exec (.sublinkSignalDetect k t) s = .next (advanceSub (startTrainings u) k 1 2) := by
  subst hu
  rfl

theorem exec_sublinkEqDone : exec (.sublinkEqDone k t) s = .next (advanceSub u k 2 3) := by
  subst hu
  rfl

section
variable {lanes : List (Nat × Nat × Bool)}

theorem exec_sublinkAlignLock : exec (.sublinkAlignLock k lanes t) s
    = .next (if (subl u k).st != 3 || nSub u ≤ k || !lanesLock lanes then u else advanceSub (modSub u k (fun x =>
        { x with order := lanes.map (·.2), peerSub := (lanes.headD (0, 0, false)).1 })) k 3 4) := by
  subst hu
  rfl

theorem exec_sublinkAlignLock_locks (h : (subl u k).st = 3) (hk : k < nSub u) (hl : lanesLock lanes = true) :
    let w := modSub u k (fun x => { x with order := lanes.map (·.2), peerSub := (lanes.headD (0, 0, false)).1 })
    exec (.sublinkAlignLock k lanes t) s
      = .next (judgeLink (modSub w k (fun x => { x with st := 4, stAt := w.now, goodAt := w.now }))) := by
  rw [exec_sublinkAlignLock hu, if_neg (by simp [h, hk, hl])]
  exact congrArg _ (advanceSub_moves (by rw [subl_modSub_same]; exact h) hk)

theorem exec_sublinkAlignLock_nothing (h : ¬ (subl u k).st = 3 ∨ nSub u ≤ k ∨ ¬ lanesLock lanes = true) :
    exec (.sublinkAlignLock k lanes t) s = .next u := by
  rw [exec_sublinkAlignLock hu, if_pos (by simpa [or_assoc] using h)]

end

theorem exec_sublinkSyncDone : exec (.sublinkSyncDone k t) s
    = .next (if (subl u k).st == 4 && k < nSub u then sendHello (advanceSub u k 4 5) k else u) := by
  subst hu
  rfl

theorem exec_sublinkSyncDone_nothing (h : ¬ (subl u k).st = 4 ∨ nSub u ≤ k) : exec (.sublinkSyncDone k t) s = .next u := by
  rw [exec_sublinkSyncDone hu, if_neg (by simpa [Decidable.imp_iff_not_or] using h)]

/-- A sublink that enters AUTH sends HELLO where no session is open. -/
theorem exec_sublinkSyncDone_enters (h : (subl u k).st = 4) (hk : k < nSub u) : exec (.sublinkSyncDone k t) s
    = .next (sendHello (judgeLink (modSub u k (fun x => { x with st := 5, stAt := u.now, goodAt := u.now }))) k) := by
  rw [exec_sublinkSyncDone hu, if_pos (by simp [h, hk]), advanceSub_moves h hk]

/-! ### AUTH (R247, R252) -/

section
variable {pe : Nat}

/-- The state after the offset of the peer's epoch is noted (R258). -/
def followed (u : State) (pe : Nat) : State := { u with exl := { u.exl with follow := (u.exl.epoch : Int) - (pe : Int) } }

/-- A sublink as it joins an open session: its counters and credit at zero, under the key this unit sends with (R247, R248). -/
def joining (u : State) (k : Nat) : State := modSub u k (fun y => { y with
  credit := 0, granted := 0, given := false, rxNewKey := false, txCount := 0, rxCount := 0, txKey := keyNow u })

theorem exec_sublinkAuthDone : exec (.sublinkAuthDone k pe t) s = .next (
    if (subl u k).st != 5 || nSub u ≤ k then u
    else if u.exl.session then grantCredits (advanceSub (joining u k) k 5 6)
    else match u.exl.hello with
      | none => followed u pe
      | some m =>
        if !u.exl.paired || u.exl.pairWait.isSome then advanceSub (followed u pe) k 5 6
        else if helloError (followed u pe) m == 0 && u.exl.proved then openSession (advanceSub (followed u pe) k 5 6)
        else { followed u pe with exl := { (followed u pe).exl with
          err := if helloError (followed u pe) m == 0 then 4 else helloError (followed u pe) m } }) := by
  subst hu
  rfl

theorem exec_sublinkAuthDone_nothing (h : ¬ (subl u k).st = 5 ∨ nSub u ≤ k) : exec (.sublinkAuthDone k pe t) s = .next u := by
  rw [exec_sublinkAuthDone hu, if_pos (by simpa using h)]

variable (h : (subl u k).st = 5) (hk : k < nSub u)
include h hk

theorem exec_sublinkAuthDone_joins (hs : u.exl.session = true) :
    exec (.sublinkAuthDone k pe t) s = .next (grantCredits (advanceSub (joining u k) k 5 6)) := by
  rw [exec_sublinkAuthDone hu, if_neg (by simp [h, hk]), if_pos hs]

variable (hs : u.exl.session = false)
include hs

theorem exec_sublinkAuthDone_without_hello (hm : u.exl.hello = none) :
    exec (.sublinkAuthDone k pe t) s = .next (followed u pe) := by
  rw [exec_sublinkAuthDone hu, if_neg (by simp [h, hk]), if_neg (Bool.eq_false_iff.mp hs), hm]

variable {m : HelloMsg} (hm : u.exl.hello = some m)
include hm

/-- Without a session: what AUTH does once the peer's HELLO `m` is known. -/
theorem exec_sublinkAuthDone_of_hello : exec (.sublinkAuthDone k pe t) s = .next (
    if !u.exl.paired || u.exl.pairWait.isSome then advanceSub (followed u pe) k 5 6
    else if helloError (followed u pe) m == 0 && u.exl.proved then openSession (advanceSub (followed u pe) k 5 6)
    else { followed u pe with exl := { (followed u pe).exl with
      err := if helloError (followed u pe) m == 0 then 4 else helloError (followed u pe) m } }) := by
  rw [exec_sublinkAuthDone hu, if_neg (by simp [h, hk]), if_neg (Bool.eq_false_iff.mp hs), hm]

theorem exec_sublinkAuthDone_unpaired (hp : u.exl.paired = false ∨ u.exl.pairWait.isSome = true) :
    exec (.sublinkAuthDone k pe t) s = .next (advanceSub (followed u pe) k 5 6) := by
  rw [exec_sublinkAuthDone_of_hello hu h hk hs hm, if_pos (by simpa using hp)]

variable (hp : u.exl.paired = true) (hw : u.exl.pairWait = none)
include hp hw

theorem exec_sublinkAuthDone_opens (he : helloError (followed u pe) m = 0) (hv : u.exl.proved = true) :
    exec (.sublinkAuthDone k pe t) s = .next (openSession (advanceSub (followed u pe) k 5 6)) := by
  rw [exec_sublinkAuthDone_of_hello hu h hk hs hm, if_neg (by simp [hp, hw]), if_pos (by simp [he, hv])]

theorem exec_sublinkAuthDone_unproved (he : helloError (followed u pe) m = 0) (hv : u.exl.proved = false) :
    exec (.sublinkAuthDone k pe t) s = .next { followed u pe with exl := { (followed u pe).exl with err := 4 } } := by
  rw [exec_sublinkAuthDone_of_hello hu h hk hs hm, if_neg (by simp [hp, hw]), if_neg (by simp [hv]), if_pos (by simp [he])]

theorem exec_sublinkAuthDone_refused (he : helloError (followed u pe) m ≠ 0) : exec (.sublinkAuthDone k pe t) s
    = .next { followed u pe with exl := { (followed u pe).exl with err := helloError (followed u pe) m } } := by
  rw [exec_sublinkAuthDone_of_hello hu h hk hs hm, if_neg (by simp [hp, hw]), if_neg (by simp [he]), if_neg (by simp [he])]

end

/-! ### Bounds, holds and losses (R241, R242) -/

/-- A paired peer that proved nothing, with no other error noted, gives ERR_CODE 0x04 as AUTH passes its bound. -/
def provedNothing (u : State) : Prop :=
  u.exl.paired = true ∧ u.exl.session = false ∧ u.exl.proved = false ∧ u.exl.hello.isSome = true ∧ u.exl.err = 0

theorem exec_sublinkStateTimeout : exec (.sublinkStateTimeout k t) s = .next (
    if (subl u k).st < 2 || 5 < (subl u k).st || nSub u ≤ k || u.now < (subl u k).stAt + stateBound (subl u k).st
        || ((subl u k).st == 5 && u.exl.err == 5) then u
    else downSub (if (subl u k).st == 5 && u.exl.paired && !u.exl.session && !u.exl.proved && u.exl.hello.isSome && u.exl.err == 0 then
      { u with exl := { u.exl with err := 4 } } else u) k) := by
  subst hu
  rfl

theorem exec_sublinkStateTimeout_nothing (h : (subl u k).st < 2 ∨ 5 < (subl u k).st ∨ nSub u ≤ k
      ∨ u.now < (subl u k).stAt + stateBound (subl u k).st ∨ ((subl u k).st = 5 ∧ u.exl.err = 5)) :
    exec (.sublinkStateTimeout k t) s = .next u := by
  rw [exec_sublinkStateTimeout hu, if_pos (by simpa [or_assoc] using h)]

section
variable (hk : k < nSub u) (hd : (subl u k).stAt + stateBound (subl u k).st ≤ u.now)
include hk hd

theorem exec_sublinkStateTimeout_training (h2 : 2 ≤ (subl u k).st) (h5 : (subl u k).st < 5) :
    exec (.sublinkStateTimeout k t) s = .next (downSub u k) := by
  have hne : (subl u k).st ≠ 5 := h5.ne
  rw [exec_sublinkStateTimeout hu, if_neg (by simp [Nat.lt_of_succ_le h2, h5.le, hne, hk, hd]), if_neg (by simp [hne])]

variable (h : (subl u k).st = 5) (he : u.exl.err ≠ 5)
include h he

theorem exec_sublinkStateTimeout_auth : exec (.sublinkStateTimeout k t) s = .next (downSub
    (if (subl u k).st == 5 && u.exl.paired && !u.exl.session && !u.exl.proved && u.exl.hello.isSome && u.exl.err == 0 then
      { u with exl := { u.exl with err := 4 } } else u) k) := by
  rw [h] at hd
  rw [exec_sublinkStateTimeout hu, if_neg (by simp [h, he, hk, hd])]

theorem exec_sublinkStateTimeout_unproved (hp : provedNothing u) :
    exec (.sublinkStateTimeout k t) s = .next (downSub { u with exl := { u.exl with err := 4 } } k) := by
  obtain ⟨hpair, hs, hv, hm, he0⟩ := hp
  rw [exec_sublinkStateTimeout_auth hu hk hd h he, if_pos (by simp [h, hpair, hs, hv, hm, he0])]

theorem exec_sublinkStateTimeout_else (hp : u.exl.paired = false ∨ u.exl.session = true ∨ u.exl.proved = true
      ∨ u.exl.hello = none ∨ u.exl.err ≠ 0) : exec (.sublinkStateTimeout k t) s = .next (downSub u k) := by
  rw [exec_sublinkStateTimeout_auth hu hk hd h he, if_neg]
  rcases hp with hp | hp | hp | hp | hp <;> simp [hp]

end

theorem exec_sublinkRetrainStart : exec (.sublinkRetrainStart k t) s = .next (
    if (subl u k).st == 0 && (subl u k).waitRetrain && decide ((subl u k).stAt + 100000 ≤ u.now) then
      (if mayTrain u k then trainSub u k else modSub u k (fun x => { x with waitRetrain := false })) else u) := by
  subst hu
  rfl

theorem exec_sublinkRetrainStart_nothing (h : (subl u k).st ≠ 0 ∨ (subl u k).waitRetrain = false ∨ u.now < (subl u k).stAt + 100000) :
    exec (.sublinkRetrainStart k t) s = .next u := by
  rw [exec_sublinkRetrainStart hu, if_neg]
  rcases h with h | h | h <;> simp [h]

section
variable (h : (subl u k).st = 0) (hw : (subl u k).waitRetrain = true) (hd : (subl u k).stAt + 100000 ≤ u.now)
include h hw hd

theorem exec_sublinkRetrainStart_trains (hm : mayTrain u k = true) :
    exec (.sublinkRetrainStart k t) s = .next (trainSub u k) := by
  rw [exec_sublinkRetrainStart hu, if_pos (by simp [h, hw, hd]), if_pos hm]

theorem exec_sublinkRetrainStart_may_not (hm : mayTrain u k = false) :
    exec (.sublinkRetrainStart k t) s = .next (modSub u k (fun y => { y with waitRetrain := false })) := by
  rw [exec_sublinkRetrainStart hu, if_pos (by simp [h, hw, hd]), if_neg (Bool.eq_false_iff.mp hm)]

end

theorem exec_sublinkHoldEnd : exec (.sublinkHoldEnd k t) s = .next (
    if (subl u k).st == 7 && decide ((subl u k).stAt + 10000000 ≤ u.now) then
      judgeLink (modSub u k (fun x => { x with st := 0, stAt := u.now, waitRetrain := false })) else u) := by
  subst hu
  rfl

theorem exec_sublinkHoldEnd_nothing (h : (subl u k).st ≠ 7 ∨ u.now < (subl u k).stAt + 10000000) :
    exec (.sublinkHoldEnd k t) s = .next u := by
  rw [exec_sublinkHoldEnd hu, if_neg]
  rcases h with h | h <;> simp [h]

theorem exec_sublinkHoldEnd_ends (h : (subl u k).st = 7) (hd : (subl u k).stAt + 10000000 ≤ u.now) : exec (.sublinkHoldEnd k t) s
    = .next (judgeLink (modSub u k (fun y => { y with st := 0, stAt := u.now, waitRetrain := false }))) := by
  rw [exec_sublinkHoldEnd hu, if_pos (by simp [h, hd])]

theorem exec_sublinkLost : exec (.sublinkLost k t) s = .next (
    if (subl u k).st != 6 || u.now < (subl u k).goodAt + 4 then u else loseSub (raiseOpen u (0x160 + k)) k) := by
  subst hu
  rfl

theorem exec_sublinkLost_nothing (h : (subl u k).st ≠ 6 ∨ u.now < (subl u k).goodAt + 4) :
    exec (.sublinkLost k t) s = .next u := by
  rw [exec_sublinkLost hu, if_pos (by simpa using h)]

theorem exec_sublinkLost_loses (h : (subl u k).st = 6) (hd : (subl u k).goodAt + 4 ≤ u.now) :
    exec (.sublinkLost k t) s = .next (loseSub (raiseOpen u (0x160 + k)) k) := by
  rw [exec_sublinkLost hu, if_neg (by simp [h, hd])]

end

/-- Settles O45: each row by its rules above. -/
theorem sublinksTrainAndAreLost : Obligations.SublinksTrainAndAreLost := by
  refine fun k pe t s u hu => ⟨fun h hk => ?_, fun h => ?_, fun h hk => ?_, fun h => ?_, fun lanes => ⟨fun h hk hl => ?_, fun h => ?_⟩,
    exec_sublinkSyncDone_nothing hu, fun h hk => ⟨fun hs => ?_, fun hs => ?_⟩, exec_sublinkAuthDone_nothing hu,
    exec_sublinkAuthDone_joins hu, fun h hk hs => ⟨exec_sublinkAuthDone_without_hello hu h hk hs, fun m hm =>
      ⟨exec_sublinkAuthDone_unpaired hu h hk hs hm, fun hp hw => ⟨exec_sublinkAuthDone_opens hu h hk hs hm hp hw,
        exec_sublinkAuthDone_unproved hu h hk hs hm hp hw, exec_sublinkAuthDone_refused hu h hk hs hm hp hw⟩⟩⟩,
    ⟨exec_sublinkStateTimeout_nothing hu, fun h2 h5 hk hd => exec_sublinkStateTimeout_training hu hk hd h2 h5,
      fun h hk hd he => ⟨exec_sublinkStateTimeout_unproved hu hk hd h he, exec_sublinkStateTimeout_else hu hk hd h he⟩⟩,
    exec_sublinkRetrainStart_nothing hu, fun h hw hd => ⟨exec_sublinkRetrainStart_trains hu h hw hd,
      exec_sublinkRetrainStart_may_not hu h hw hd⟩,
    exec_sublinkHoldEnd_nothing hu, exec_sublinkHoldEnd_ends hu, exec_sublinkLost_nothing hu, exec_sublinkLost_loses hu⟩
  · rw [exec_sublinkSignalDetect hu, advanceSub_moves h hk]
  · rw [exec_sublinkSignalDetect hu, advanceSub_stays h]
  · rw [exec_sublinkEqDone hu, advanceSub_moves h hk]
  · rw [exec_sublinkEqDone hu, advanceSub_stays h]
  · exact exec_sublinkAlignLock_locks hu h hk ((lanesLock_iff lanes).mpr hl)
  · exact exec_sublinkAlignLock_nothing hu (by rwa [lanesLock_iff])
  · exact (exec_sublinkSyncDone_enters hu h hk).trans (congrArg _ (sendHello_in_session hs))
  · exact (exec_sublinkSyncDone_enters hu h hk).trans (congrArg _ (sendHello_sends hs))

end Sys2Proof.Machine

/-! The flits of the twin link (R242–R249, log entry 13): their bytes and CRC, their order and replay, and the integrity groups
that their messages join. -/

namespace Sys2Proof.Machine

open Sys2Proof

/-! ### Sequenced flits (R243–R245) -/

theorem flitGood_iff {typ : Nat} {f : FlitIn} :
    flitGood typ f = true ↔ f.crc = BitVec.ofNat 32 (crc32 (flitHead typ f.seq f.body)) := beq_iff_eq

/-- Counting corrected symbols leaves alone what the order of flits turns on. -/
theorem subl_countFec_order (s : State) (k n : Nat) : (subl (countFec s k n) k).expect = (subl s k).expect
    ∧ (subl (countFec s k n) k).good = (subl s k).good ∧ (subl (countFec s k n) k).skipping = (subl s k).skipping := by
  rw [countFec, subl_modSub_same]
  split <;> exact ⟨rfl, rfl, rfl⟩

/-- Sequenced flits are taken on sublink `k`: it is in AUTH or UP, on a configured unit. -/
def takesFlits (s : State) (k : Nat) : Prop := k < nSub s ∧ ((subl s k).st = 5 ∨ (subl s k).st = 6) ∧ logicOn s = true

/-- A flit with a good CRC has arrived on a sublink (R242). -/
def heard (s : State) (f : FlitIn) : State := modSub (countFec s f.sub f.fec) f.sub (fun x => { x with goodAt := s.now })

/-- The flit expected has arrived on a sublink (R245). -/
def flitTaken (s : State) (f : FlitIn) : State := modSub (heard s f) f.sub
  (fun x => { x with expect := (x.expect + 1) % 4096, rxCount := x.rxCount + 1, good := x.good + 1, skipping := false })

/-- A flit with a good CRC leaves alone what the order of flits turns on. -/
theorem subl_heard_order (s : State) (f : FlitIn) : (subl (heard s f) f.sub).expect = (subl s f.sub).expect
    ∧ (subl (heard s f) f.sub).good = (subl s f.sub).good ∧ (subl (heard s f) f.sub).skipping = (subl s f.sub).skipping := by
  rw [heard, subl_modSub_same]
  exact subl_countFec_order s f.sub f.fec

theorem subl_flitTaken_good (s : State) (f : FlitIn) : (subl (flitTaken s f) f.sub).good = (subl s f.sub).good + 1 := by
  obtain ⟨-, hgood, -⟩ := subl_heard_order s f
  rw [flitTaken, subl_modSub_same, hgood]

section
variable {s : State} {typ : Nat} {f : FlitIn}

theorem takeSeq_closed (h : ¬ takesFlits s f.sub) : takeSeq s typ f = (s, false) := by
  refine if_pos ?_
  by_contra hopen
  exact h (by simpa [takesFlits, and_assoc, or_iff_not_imp_left] using hopen)

variable (h : takesFlits s f.sub)
include h

/-- A flit on a sublink that takes flits: its CRC, then its place in the order. -/
theorem takeSeq_open : takeSeq s typ f =
    if !flitGood typ f then (nak (countFec s f.sub f.fec) f.sub, false)
    else if f.seq == (subl s f.sub).expect then (if 64 ≤ (subl s f.sub).good + 1 then ack (flitTaken s f) f.sub else flitTaken s f, true)
    else if (subl s f.sub).skipping || ((subl s f.sub).expect + 4096 - f.seq % 4096) % 4096 ≤ 2048 then (heard s f, false)
    else (nak (heard s f) f.sub, false) := by
  obtain ⟨hk, hst, hl⟩ := h
  obtain ⟨hexpect, -, hskip⟩ := subl_countFec_order s f.sub f.fec
  rw [← subl_flitTaken_good, ← hexpect, ← hskip]
  exact if_neg (by rcases hst with hst | hst <;> simp [hk, hst, hl])

theorem takeSeq_bad_crc (hg : flitGood typ f = false) : takeSeq s typ f = (nak (countFec s f.sub f.fec) f.sub, false) := by
  rw [takeSeq_open h, if_pos (by rw [hg]; rfl)]

variable (hg : flitGood typ f = true)
include hg

theorem takeSeq_expected (hs : f.seq = (subl s f.sub).expect) :
    takeSeq s typ f = (if 64 ≤ (subl s f.sub).good + 1 then ack (flitTaken s f) f.sub else flitTaken s f, true) := by
  rw [takeSeq_open h, if_neg (by rw [hg]; exact Bool.false_ne_true), if_pos (beq_iff_eq.mpr hs)]

variable (hs : f.seq ≠ (subl s f.sub).expect)
include hs

/-- A flit out of order is a duplicate or a gap. -/
theorem takeSeq_unexpected : takeSeq s typ f =
    if (subl s f.sub).skipping || ((subl s f.sub).expect + 4096 - f.seq % 4096) % 4096 ≤ 2048 then (heard s f, false)
    else (nak (heard s f) f.sub, false) := by
  rw [takeSeq_open h, if_neg (by rw [hg]; exact Bool.false_ne_true), if_neg (mt beq_iff_eq.mp hs)]

theorem takeSeq_duplicate
    (hd : (subl s f.sub).skipping = true ∨ ((subl s f.sub).expect + 4096 - f.seq % 4096) % 4096 ≤ 2048) :
    takeSeq s typ f = (heard s f, false) := by
  rw [takeSeq_unexpected h hg hs, if_pos (by simpa using hd)]

theorem takeSeq_gap (hsk : (subl s f.sub).skipping = false)
    (hd : 2048 < ((subl s f.sub).expect + 4096 - f.seq % 4096) % 4096) :
    takeSeq s typ f = (nak (heard s f) f.sub, false) := by
  rw [takeSeq_unexpected h hg hs, if_neg (by simpa [hsk] using hd)]

end

/-! ### Messages that arrive (R246, R249) -/

section
variable {s w : State} {f : FlitIn} {i : LinkItem}

theorem arriveFlit_not_taken (h : takeSeq s (flitTyp i) f = (w, false)) : arriveFlit s f i = w := by
  simp only [arriveFlit, h, Bool.not_false, if_true]

theorem arriveFlit_without_session (h : takeSeq s (flitTyp i) f = (w, true)) (hs : w.exl.session = false) :
    arriveFlit s f i = bareItem w f.sub i := by
  simp only [arriveFlit, h, hs, Bool.not_true, Bool.false_eq_true, if_false]

/-- Without a session only SPDM acts. -/
theorem bareItem_of_not_spdm {k : Nat} (h : ∀ g z, i ≠ .spdm g z) : bareItem s k i = s := by
  unfold bareItem
  split
  case h_1 => exact absurd rfl (h _ _)
  case h_2 => rfl

end

/-- A row whose flit carries an item that groups hold. -/
def Carries (row : FlitIn → Nat → Instr) (i : LinkItem) : Prop :=
  ∀ (f : FlitIn) (t : Nat) (s : State), exec (row f t) s = .next (arriveFlit (tick s t) f i)

section
variable {row : FlitIn → Nat → Instr} {i : LinkItem} (hr : Carries row i) {s w : State} {f : FlitIn} {t : Nat}
include hr

theorem Carries.not_taken (h : takeSeq (tick s t) (flitTyp i) f = (w, false)) : exec (row f t) s = .next w :=
  (hr f t s).trans (congrArg _ (arriveFlit_not_taken h))

variable (h : takeSeq (tick s t) (flitTyp i) f = (w, true))
include h

theorem Carries.held (hs : w.exl.session = true) :
    exec (row f t) s = .next (modSub w f.sub (fun x => { x with group := x.group ++ [i] })) :=
  (hr f t s).trans (next_arriveFlit_held h hs)

theorem Carries.bare (hs : w.exl.session = false) : exec (row f t) s = .next (bareItem w f.sub i) :=
  (hr f t s).trans (congrArg _ (arriveFlit_without_session h hs))

end

section
variable {s w : State} {f : FlitIn} {t : Nat} {ok : Bool}

section
variable {y : List Byte} (h : takeSeq (tick s t) 2 f = (w, ok))
include h

theorem exec_hello {m : HelloMsg} :
    exec (.hello f m t) s = .next (if ok && !w.exl.session then onHello w f.sub m else w) := by
  show execHello f m t s = _
  simp only [execHello, h]

theorem exec_proof : exec (.proof f y t) s = .next (if ok then onProof w y else w) := by
  show execProof f y t s = _
  simp only [execProof, h]

theorem exec_hello_nothing {m : HelloMsg} (ho : ok = false ∨ w.exl.session = true) : exec (.hello f m t) s = .next w := by
  rw [exec_hello h, if_neg]
  rcases ho with ho | ho <;> simp [ho]

theorem exec_hello_heard {m : HelloMsg} (ho : ok = true) (hs : w.exl.session = false) :
    exec (.hello f m t) s = .next (onHello w f.sub m) := by
  rw [exec_hello h, if_pos (by simp [ho, hs])]

end

section
variable (h : takeSeq (tick s t) 3 f = (w, ok))
include h

theorem exec_macFlit_nothing {good : Bool} (ho : ok = false ∨ w.exl.session = false) : exec (.macFlit f good t) s = .next w := by
  show execMacFlit f good t s = _
  simp only [execMacFlit, h]
  exact congrArg _ (if_pos (by simpa using ho))

theorem exec_macFlit_bad_tag (ho : ok = true) (hs : w.exl.session = true) :
    exec (.macFlit f false t) s = .next (authFail w f.sub) := by
  show execMacFlit f false t s = _
  simp only [execMacFlit, h, ho, hs, Bool.not_true, Bool.or_self, Bool.false_eq_true, if_false, Bool.not_false, if_true]

end

end

/-! ### Acknowledgement and replay (R242, R245) -/

/-- Flits sent out change no sublink. -/
theorem foldl_emit_exl {α : Type} (g : α → Out) (l : List α) (s : State) :
    (l.foldl (fun v x => emit v (g x)) s).exl = s.exl := by
  induction l generalizing s with
  | nil => rfl
  | cons x l ih => exact ih _

/-- The flits of sublink `k`'s replay buffer have gone out once more. -/
def resent (s : State) (k : Nat) : State := (subl s k).replay.foldl (fun v f => emit v (.flit k f.2))
  (modSub (bump s rExlReplay 0 16 (subl s k).replay.length) k (fun x => { x with replays := x.replays + 1, ackAt := s.now }))

theorem subl_resent_replays (s : State) (k : Nat) : (subl (resent s k) k).replays = (subl s k).replays + 1 := by
  have hexl : subl (resent s k) k = subl (modSub (bump s rExlReplay 0 16 (subl s k).replay.length) k
      (fun x => { x with replays := x.replays + 1, ackAt := s.now })) k :=
    congrArg (fun e : Exl => tgetD e.subs k {}) (foldl_emit_exl (fun f : Nat × List Byte => .flit k f.2) _ _)
  rw [hexl, subl_modSub_same]
  rfl

/-- The eighth replay without progress loses the sublink. -/
theorem resendSub_eq (s : State) (k : Nat) : resendSub s k
    = if 8 ≤ (subl s k).replays + 1 then loseSub (raiseOpen (resent s k) (0x160 + k)) k else resent s k := by
  rw [← subl_resent_replays]
  rfl

theorem resendSub_goes_on {s : State} {k : Nat} (h : (subl s k).replays < 7) : resendSub s k = resent s k := by
  rw [resendSub_eq, if_neg (by omega)]

theorem resendSub_loses {s : State} {k : Nat} (h : 7 ≤ (subl s k).replays) :
    resendSub s k = loseSub (raiseOpen (resent s k) (0x160 + k)) k := by
  rw [resendSub_eq, if_pos (by omega)]

section
variable {k seq t : Nat} {s u : State} (hu : u = tick s t)
include hu

theorem exec_flitCrcFailure : exec (.flitCrcFailure k t) s
    = .next (if nSub u ≤ k || !((subl u k).st == 5 || (subl u k).st == 6) then u else nak u k) := by
  subst hu
  rfl

theorem exec_flitCrcFailure_nothing (h : nSub u ≤ k ∨ ¬ ((subl u k).st = 5 ∨ (subl u k).st = 6)) :
    exec (.flitCrcFailure k t) s = .next u := by
  rw [exec_flitCrcFailure hu, if_pos (by simpa using h)]

theorem exec_flitCrcFailure_nak (hk : k < nSub u) (h : (subl u k).st = 5 ∨ (subl u k).st = 6) :
    exec (.flitCrcFailure k t) s = .next (nak u k) := by
  rw [exec_flitCrcFailure hu, if_neg (by rcases h with h | h <;> simp [hk, h])]

theorem exec_linkAck : exec (.linkAck k seq t) s = .next (if !inReplay u k seq then u
    else pumpFlits (modSub u k (fun x => { x with replay := (ackedTo x.replay seq).drop 1, replays := 0, ackAt := u.now })) k
      (subl u k).txq.length) := by
  subst hu
  rfl

theorem exec_linkAck_unknown (h : inReplay u k seq = false) : exec (.linkAck k seq t) s = .next u := by
  rw [exec_linkAck hu, if_pos (by rw [h]; rfl)]

theorem exec_linkAck_frees (h : inReplay u k seq = true) : exec (.linkAck k seq t) s = .next (pumpFlits
    (modSub u k (fun x => { x with replay := (ackedTo x.replay seq).drop 1, replays := 0, ackAt := u.now })) k
      (subl u k).txq.length) := by
  rw [exec_linkAck hu, if_neg (by rw [h]; exact Bool.false_ne_true)]

/-- The replay buffer after a NAK that names `seq`; a NAK that frees nothing counts as no progress. -/
def nakked (u : State) (k seq : Nat) : State :=
  let l := ackedTo (subl u k).replay seq
  modSub (bump u rExlReplay 16 16 1) k
    (fun x => { x with replay := l, replays := if l.length == x.replay.length then x.replays else 0 })

theorem exec_linkNak : exec (.linkNak k seq t) s = .next (if nSub u ≤ k then u
    else if !inReplay u k seq then bump u rExlReplay 16 16 1
    else pumpFlits (resendSub (nakked u k seq) k) k (subl (resendSub (nakked u k seq) k) k).txq.length) := by
  subst hu
  rfl

theorem exec_linkNak_no_sublink (hk : nSub u ≤ k) : exec (.linkNak k seq t) s = .next u := by
  rw [exec_linkNak hu, if_pos hk]

theorem exec_linkNak_unknown (hk : k < nSub u) (h : inReplay u k seq = false) :
    exec (.linkNak k seq t) s = .next (bump u rExlReplay 16 16 1) := by
  rw [exec_linkNak hu, if_neg (Nat.not_le.mpr hk), if_pos (by rw [h]; rfl)]

theorem exec_linkNak_resends (hk : k < nSub u) (h : inReplay u k seq = true) : exec (.linkNak k seq t) s
    = .next (pumpFlits (resendSub (nakked u k seq) k) k (subl (resendSub (nakked u k seq) k) k).txq.length) := by
  rw [exec_linkNak hu, if_neg (Nat.not_le.mpr hk), if_neg (by rw [h]; exact Bool.false_ne_true)]

theorem exec_replayTimeout : exec (.replayTimeout k t) s
    = .next (if (subl u k).replay.isEmpty || nSub u ≤ k || u.now < (subl u k).ackAt + 5 then u else resendSub u k) := by
  subst hu
  rfl

theorem exec_replayTimeout_nothing (h : (subl u k).replay = [] ∨ nSub u ≤ k ∨ u.now < (subl u k).ackAt + 5) :
    exec (.replayTimeout k t) s = .next u := by
  rw [exec_replayTimeout hu, if_pos (by simpa [or_assoc] using h)]

theorem exec_replayTimeout_resends (h : (subl u k).replay ≠ []) (hk : k < nSub u) (hd : (subl u k).ackAt + 5 ≤ u.now) :
    exec (.replayTimeout k t) s = .next (resendSub u k) := by
  rw [exec_replayTimeout hu, if_neg (by simp [h, hk, hd])]

end

/-- Settles O46: the flit's bytes, its place in the order, what each message row carries, and the replay buffer. -/
theorem flitsAreReplayedAndGroupsVerified : Obligations.FlitsAreReplayedAndGroupsVerified := by
  refine ⟨fun typ seq body f => ⟨rfl, flitGood_iff⟩, fun s typ f => ⟨takeSeq_closed, takeSeq_bad_crc, fun h hg hs hn => ?_,
      fun h hg hs hn => ?_, fun h hg hs => ⟨takeSeq_duplicate h hg hs, takeSeq_gap h hg hs⟩⟩, ?_,
    fun k seq t s u hu => ⟨exec_flitCrcFailure_nothing hu, exec_flitCrcFailure_nak hu, exec_linkAck_unknown hu,
      exec_linkAck_frees hu, exec_linkNak_no_sublink hu, fun hk => ⟨exec_linkNak_unknown hu hk, exec_linkNak_resends hu hk⟩,
      exec_replayTimeout_nothing hu, exec_replayTimeout_resends hu⟩,
    fun s k => ⟨resendSub_goes_on, resendSub_loses⟩⟩
  · rw [takeSeq_expected h hg hs, if_neg (by omega)]
    rfl
  · rw [takeSeq_expected h hg hs, if_pos (by omega)]
    rfl
  · intro r a b c d i l q y m h rec_ held f t s w ok
    have rows : ∀ p ∈ held, Carries p.1 p.2 := by
      simp only [held, List.forall_mem_cons, List.not_mem_nil, false_imp_iff, implies_true, and_true]
      and_intros <;> exact fun _ _ _ => rfl
    have spdm : Carries (fun f t => .spdm f a y t) (.spdm a y) := fun _ _ _ => rfl
    refine ⟨fun p hp ht => ⟨fun ho => (rows p hp).not_taken (ho ▸ ht), fun ho => (rows p hp).held (ho ▸ ht), fun ho hs hn => ?_⟩,
      fun ht => ⟨fun ho => spdm.bare (ho ▸ ht), exec_hello_nothing ht, exec_hello_heard ht, fun ho => ?_, fun ho => ?_⟩,
      fun ht => ⟨fun _ => exec_macFlit_nothing ht, fun ho hs =>
        ⟨exec_macFlit_bad_tag ht ho hs, exec_macFlit_verified (ho ▸ ht) hs⟩⟩⟩
    · rw [(rows p hp).bare (ho ▸ ht) hs, bareItem_of_not_spdm hn]
    · rw [exec_proof ht, ho]
      rfl
    · rw [exec_proof ht, ho]
      rfl

end Sys2Proof.Machine

/-! The keys of the twin link and the pairing (R235–R237, R246, R248, R254, log entries 13 and 37): ROOM, rekeys, an exhausted key,
PAIR, its timeout and UNPAIR. -/

namespace Sys2Proof.Machine

open Sys2Proof

/-! ### ROOM (R254) -/

section
variable {s : State}

theorem sendRoom_nothing (h : s.exl.session = false ∨ s.ldg.closed = true) : sendRoom s = s :=
  if_pos (by simpa using h)

theorem sendRoom_sends (hs : s.exl.session = true) (hc : s.ldg.closed = false) : sendRoom s = sendEvery
    { s with exl := { s.exl with roomSent := some (gateLimit s, s.drp.stage, admission s), roomAt := s.now } } 0x03
    ([twos ((gateLimit s : Int) - (exposure s : Int)) 32, s.drp.stage, admission s]
      ++ (List.range 4).map (fun k => (subl s k).accepted)) :=
  if_neg (by simp [hs, hc])

end

section
variable {t : Nat} {s u : State} (hu : u = tick s t)
include hu

theorem exec_roomPeriod : exec (.roomPeriod t) s = .next (if u.now < u.exl.roomAt + 100 then u else sendRoom u) := by
  subst hu
  rfl

theorem exec_roomPeriod_nothing (h : u.exl.session = false ∨ u.ldg.closed = true ∨ u.now < u.exl.roomAt + 100) :
    exec (.roomPeriod t) s = .next u := by
  rw [exec_roomPeriod hu]
  by_cases hd : u.now < u.exl.roomAt + 100
  · rw [if_pos hd]
  · rw [if_neg hd, sendRoom_nothing (h.imp_right (·.resolve_right hd))]

theorem exec_roomPeriod_sends (hs : u.exl.session = true) (hc : u.ldg.closed = false) (hd : u.exl.roomAt + 100 ≤ u.now) :
    exec (.roomPeriod t) s = .next (sendEvery
      { u with exl := { u.exl with roomSent := some (gateLimit u, u.drp.stage, admission u), roomAt := u.now } } 0x03
      ([twos ((gateLimit u : Int) - (exposure u : Int)) 32, u.drp.stage, admission u]
        ++ (List.range 4).map (fun k => (subl u k).accepted))) := by
  rw [exec_roomPeriod hu, if_neg (Nat.not_lt.mpr hd), sendRoom_sends hs hc]

end

/-! ### Rekeys and exhausted keys (R246, R248) -/

/-- What calls for new keys: a failed tag, 24 hours, or 2^40 flits under one key. -/
def wantsRekey (u : State) : Prop := u.exl.mustRekey = true ∨ u.exl.sessionAt + 86400000000 ≤ u.now
  ∨ ∃ p ∈ u.exl.subs, 2 ^ 40 ≤ p.2.txCount ∨ 2 ^ 40 ≤ p.2.rxCount

/-- A rekey was dropped within the last second. -/
def rekeyFailedLately (u : State) : Prop := ∃ f, u.exl.rekeyFailAt = some f ∧ u.now < f + 1000000

/-- A rekey is due here and now. -/
def rekeyIsDue (u : State) : Bool :=
  (u.exl.mustRekey || decide (u.exl.sessionAt + 86400000000 ≤ u.now)
      || u.exl.subs.any (fun p => decide (2 ^ 40 ≤ p.2.txCount) || decide (2 ^ 40 ≤ p.2.rxCount)))
    && leads u && u.exl.rekeyFailAt.all (fun f => decide (f + 1000000 ≤ u.now))

/-- A rekey starts where one is wanted, this unit leads, and none was dropped within the last second. -/
theorem rekeyIsDue_iff {u : State} : rekeyIsDue u = true ↔ wantsRekey u ∧ leads u = true ∧ ¬ rekeyFailedLately u := by
  simp only [rekeyIsDue, wantsRekey, rekeyFailedLately, Bool.and_eq_true, Bool.or_eq_true, decide_eq_true_eq, List.any_eq_true,
    Option.all_eq_true, and_assoc, or_assoc, not_exists, not_and, Nat.not_lt]

section
variable {t : Nat} {s u : State} (hu : u = tick s t)
include hu

theorem exec_rekeyDue : exec (.rekeyDue t) s = .next (if rekeyIsDue u then startRekey u else u) := by
  subst hu
  rfl

theorem exec_rekeyDue_nothing (h : ¬ wantsRekey u ∨ leads u = false ∨ rekeyFailedLately u) :
    exec (.rekeyDue t) s = .next u := by
  rw [exec_rekeyDue hu, if_neg]
  rw [rekeyIsDue_iff]
  rintro ⟨hwants, hleads, hlate⟩
  exact h.elim (· hwants) (Or.elim · (Bool.eq_false_iff.mp · hleads) hlate)

theorem exec_rekeyDue_starts (hw : wantsRekey u) (hl : leads u = true) (hf : ¬ rekeyFailedLately u) :
    exec (.rekeyDue t) s = .next (startRekey u) := by
  rw [exec_rekeyDue hu, if_pos (rekeyIsDue_iff.mpr ⟨hw, hl, hf⟩)]

/-- A rekey not complete in 100 ms is dropped and counted. -/
theorem exec_rekeyTimeout : exec (.rekeyTimeout t) s = .next (
    if !u.exl.rekey.any (fun r => decide (r.2 + 100000 ≤ u.now)) then u
    else bump { u with exl := { u.exl with
      rekey := none, rekeyFailAt := some u.now, subs := u.exl.subs.map (fun p => (p.1, { p.2 with rxNewKey := false })) } }
      rExlKey 16 16 1) := by
  subst hu
  rfl

theorem exec_rekeyTimeout_nothing (h : ∀ r, u.exl.rekey = some r → u.now < r.2 + 100000) :
    exec (.rekeyTimeout t) s = .next u := by
  rw [exec_rekeyTimeout hu, if_pos]
  rw [Bool.not_eq_true', Option.any_eq_false]
  exact fun r hr => decide_eq_false (Nat.not_le.mpr (h r hr))

theorem exec_rekeyTimeout_drops {r : Nat × Nat} (hr : u.exl.rekey = some r) (hd : r.2 + 100000 ≤ u.now) :
    exec (.rekeyTimeout t) s = .next (bump { u with exl := { u.exl with
      rekey := none, rekeyFailAt := some u.now, subs := u.exl.subs.map (fun p => (p.1, { p.2 with rxNewKey := false })) } }
      rExlKey 16 16 1) := by
  rw [exec_rekeyTimeout hu, if_neg (by simp [hr, hd])]

section
variable {k : Nat}

/-- The link stops hard with ERR_CODE 0x06 and EXL_KEY_EXHAUSTED. -/
def keyExhausted (u : State) : State :=
  let w := linkDown { raiseOpen u 0x165 with exl := { (raiseOpen u 0x165).exl with err := 6 } }
  { w with exl := { w.exl with link := 4 } }

theorem exec_exlKeyExhausted : exec (.exlKeyExhausted k t) s = .next (
    if nSub u ≤ k || !u.exl.session || ((subl u k).txCount < 2 ^ 48 && (subl u k).rxCount < 2 ^ 48) then u
    else keyExhausted u) := by
  subst hu
  rfl

theorem exec_exlKeyExhausted_nothing
    (h : nSub u ≤ k ∨ u.exl.session = false ∨ ((subl u k).txCount < 2 ^ 48 ∧ (subl u k).rxCount < 2 ^ 48)) :
    exec (.exlKeyExhausted k t) s = .next u := by
  rw [exec_exlKeyExhausted hu, if_pos (by simpa [or_assoc] using h)]

theorem exec_exlKeyExhausted_stops (hk : k < nSub u) (hs : u.exl.session = true)
    (h : 2 ^ 48 ≤ (subl u k).txCount ∨ 2 ^ 48 ≤ (subl u k).rxCount) :
    exec (.exlKeyExhausted k t) s = .next (keyExhausted u) := by
  rw [exec_exlKeyExhausted hu, if_neg]
  simpa [hk, hs, imp_iff_not_or] using h

end

/-! ### The end of PAIR's wait (R236) -/

theorem exec_pairTimeout : exec (.pairTimeout t) s = .next (match u.exl.pairWait with
    | some p => if p.deadline ≤ u.now then endPair u 0x0D 0 else u
    | none => u) := by
  subst hu
  rfl

theorem exec_pairTimeout_nothing (h : u.exl.pairWait = none) : exec (.pairTimeout t) s = .next u := by
  rw [exec_pairTimeout hu, h]

section
variable {p : PairJob} (hp : u.exl.pairWait = some p)
include hp

theorem exec_pairTimeout_early (hd : u.now < p.deadline) : exec (.pairTimeout t) s = .next u := by
  rw [exec_pairTimeout hu, hp]
  exact congrArg _ (if_neg (Nat.not_le.mpr hd))

theorem exec_pairTimeout_ends (hd : p.deadline ≤ u.now) : exec (.pairTimeout t) s
    = .next (endWith { u with exl := { u.exl with pairWait := none } } p.cmd 0x0D 0) := by
  have hend : endPair u 0x0D 0 = endWith { u with exl := { u.exl with pairWait := none } } p.cmd 0x0D 0 := by
    simp only [endPair, hp]
    rfl
  rw [exec_pairTimeout hu, hp]
  exact congrArg _ ((if_pos hd).trans hend)

end

end

section
variable {s : State}

theorem startRekey_nothing (h : s.exl.session = false ∨ s.exl.rekey ≠ none ∨ 2 ^ 32 ≤ s.exl.sessNext) : startRekey s = s :=
  if_pos (by simpa [or_assoc, Option.ne_none_iff_isSome] using h)

theorem startRekey_starts (hs : s.exl.session = true) (hr : s.exl.rekey = none) (hn : s.exl.sessNext < 2 ^ 32) :
    let w := { s with exl := { s.exl with rekey := some (s.exl.sessNext, s.now), sessNext := s.exl.sessNext + 1 } }
    startRekey s = switchKeys (sendLow (if s.nvm.store.sessNext ≤ s.exl.sessNext then pairWrite w 1 else w) 0x0C [s.exl.sessNext])
      s.exl.sessNext :=
  if_neg (by simpa [hs, hr] using hn)

end

/-! ### PAIR (R235, R236) -/

theorem exec_pair {c : TrellisCmd} {s v : State} {f : InFlight} (h : started 0x0300 c s = some (v, f)) :
    exec (.pair c) s = .next (cmdPair f v) :=
  congrArg _ (submit_of_started cmdPair h)

/-- The wait PAIR asks for, in ms; 0 names a minute. -/
def pairMs (f : InFlight) : Nat := if pNum f.cmd 36 4 = 0 then 60000 else pNum f.cmd 36 4

/-- The wait of a PAIR: its peer's serial, its digest and its deadline. -/
def pairJob (f : InFlight) (v : State) : PairJob :=
  { cmd := f.id, deadline := v.now + 1000 * pairMs f, serial := pNum f.cmd 24 8, digest := payIn f.cmd, replace := pByte f.cmd 32 == 1 }

/-- The states PAIR may pair from (Table 8.1). -/
def mayPair (f : InFlight) (v : State) : Prop :=
  v.exl.paired = false ∨ v.exl.peerRec = pNum f.cmd 24 8 ∨ (pByte f.cmd 32 = 1 ∧ v.exl.session = false)

section
variable {f : InFlight} {v : State}

theorem pairStateOk_iff : pairStateOk v (pairJob f v) = true ↔ mayPair f v := by
  simp [pairStateOk, pairJob, mayPair, or_assoc]

theorem pairMs_le (h : pNum f.cmd 36 4 ≤ 600000) : pairMs f ≤ 600000 := by
  unfold pairMs
  split <;> omega

theorem cmdPair_eq : cmdPair f v = if 1 < pByte f.cmd 32 then badParam v f.id 32
    else if 600000 < pairMs f then badParam v f.id 36
    else if f.cmd.payLen != 48 then badParam v f.id 0x40
    else if v.exl.pairWait.isSome || !pairStateOk v (pairJob f v) then conflict v f.id 0x14
    else
      let w := setJob v f.id (.pair (pairJob f v).deadline)
      beginPair (judgePairHello { w with exl := { w.exl with pairWait := some (pairJob f v), spdmIn := [] } }) := by
  simp only [cmdPair, pairJob, pairMs, beq_iff_eq]
  rfl

theorem cmdPair_bad_replace (h : 1 < pByte f.cmd 32) : cmdPair f v = badParam v f.id 32 := by
  rw [cmdPair_eq, if_pos h]

variable (hr : pByte f.cmd 32 ≤ 1)
include hr

theorem cmdPair_bad_time (h : 600000 < pNum f.cmd 36 4) : cmdPair f v = badParam v f.id 36 := by
  have hne : pNum f.cmd 36 4 ≠ 0 := by omega
  rw [cmdPair_eq, if_neg (Nat.not_lt.mpr hr), if_pos (by rwa [pairMs, if_neg hne])]

variable (ht : pNum f.cmd 36 4 ≤ 600000)
include ht

theorem cmdPair_bad_payload (h : f.cmd.payLen ≠ 48) : cmdPair f v = badParam v f.id 0x40 := by
  rw [cmdPair_eq, if_neg (Nat.not_lt.mpr hr), if_neg (Nat.not_lt.mpr (pairMs_le ht)), if_pos (by simpa using h)]

variable (hl : f.cmd.payLen = 48)
include hl

theorem cmdPair_wrong_state (h : v.exl.pairWait ≠ none ∨ ¬ mayPair f v) : cmdPair f v = conflict v f.id 0x14 := by
  rw [← pairStateOk_iff] at h
  rw [cmdPair_eq, if_neg (Nat.not_lt.mpr hr), if_neg (Nat.not_lt.mpr (pairMs_le ht)), if_neg (by simp [hl]),
    if_pos (by simpa [Option.ne_none_iff_isSome] using h)]

theorem cmdPair_waits (hw : v.exl.pairWait = none) (h : mayPair f v) :
    let w := setJob v f.id (.pair (pairJob f v).deadline)
    cmdPair f v
      = beginPair (judgePairHello { w with exl := { w.exl with pairWait := some (pairJob f v), spdmIn := [] } }) := by
  rw [← pairStateOk_iff] at h
  rw [cmdPair_eq, if_neg (Nat.not_lt.mpr hr), if_neg (Nat.not_lt.mpr (pairMs_le ht)), if_neg (by simp [hl]),
    if_neg (by simp [hw, h])]

end

/-! ### UNPAIR (R237) -/

theorem exec_unpair {c : TrellisCmd} {s v : State} {f : InFlight} (h : started 0x0301 c s = some (v, f)) :
    exec (.unpair c) s = .next (cmdUnpair f v) :=
  congrArg _ (submit_of_started cmdUnpair h)

/-- The MIRRORED allotments served here, which an UNPAIR keeps. -/
def unpairKeeps (v : State) : List Nat :=
  (mirroredIds v).filter (fun i => match allotOf v i with | some a => a.serving | none => false)

/-- The others, which it deletes. -/
def unpairDeletes (v : State) : List Nat := (mirroredIds v).filter (fun i => !(unpairKeeps v).contains i)

/-- What is under way with the twin has ended, and the MIRRORED allotments are kept or deleted. -/
def partedAllots (v : State) : State :=
  let w := (v.exl.txs.filter (fun x => x.mine)).foldl (fun s x => abortTx s x 0) v
  let w := w.exl.compares.foldl (fun s c => abandonCompare s c.epoch) w
  let w := (unpairKeeps v).foldl (fun s i => modAllot s i (fun a => { a with mirrored := false, homeTwin := false, peerDirty := false })) w
  (unpairDeletes v).foldl enterDeleting w

/-- The pairing is cleared, here and in the record. -/
def unpaired (v : State) : State :=
  let w := partedAllots v
  pairWrite { w with
    alt := { w.alt with tab := w.alt.tab.filter (fun p => !p.2.reservation), owedFree := [] },
    exl := { w.exl with
      paired := false, peerRec := 0, secret := 0, reserved := [], session := false, txs := [], peerState := [], resyncOn := false,
      resyncQ := [], matched := [], flushes := [], peerHarvest := false, twinDirty := [], room := 0, lossAt := none, claim := false,
      rekey := none, hello := none, link := if v.exl.session then 0 else w.exl.link,
      subs := if v.exl.session then w.exl.subs.map (fun p => (p.1, ({ trains := p.2.trains, waitRetrain := true } : Sublink)))
        else w.exl.subs } } 1

section
variable {f : InFlight} {v : State}

theorem cmdUnpair_eq : cmdUnpair f v = if 1 < pByte f.cmd 24 then badParam v f.id 24
    else if !v.exl.paired then conflict v f.id 0x14
    else if pByte f.cmd 24 == 0 && !(mirroredIds v).isEmpty then conflict v f.id 0x12
    else retryHeld (judgeService (endOk (releaseWithheld (judgeCompares (unpaired v))) f.id
      (le (unpairKeeps v).length 4 ++ le (unpairDeletes v).length 4))) := rfl

theorem cmdUnpair_bad_force (h : 1 < pByte f.cmd 24) : cmdUnpair f v = badParam v f.id 24 := by
  rw [cmdUnpair_eq, if_pos h]

theorem cmdUnpair_not_paired (h : pByte f.cmd 24 ≤ 1) (hp : v.exl.paired = false) : cmdUnpair f v = conflict v f.id 0x14 := by
  rw [cmdUnpair_eq, if_neg (Nat.not_lt.mpr h), if_pos (by rw [hp]; rfl)]

theorem cmdUnpair_mirrored (h : pByte f.cmd 24 = 0) (hp : v.exl.paired = true) (hm : mirroredIds v ≠ []) :
    cmdUnpair f v = conflict v f.id 0x12 := by
  rw [cmdUnpair_eq, if_neg (by omega), if_neg (by simp [hp]), if_pos (by simp [h, hm])]

theorem cmdUnpair_parts (hp : v.exl.paired = true) (h : pByte f.cmd 24 = 1 ∨ (pByte f.cmd 24 = 0 ∧ mirroredIds v = [])) :
    cmdUnpair f v = retryHeld (judgeService (endOk (releaseWithheld (judgeCompares (unpaired v))) f.id
      (le (unpairKeeps v).length 4 ++ le (unpairDeletes v).length 4))) := by
  rw [cmdUnpair_eq, if_neg (by omega), if_neg (by simp [hp]), if_neg]
  rcases h with h | ⟨h, hm⟩
  · simp [h]
  · simp [hm]

end

/-- Settles O48: ROOM and the keys by their rows, then PAIR and UNPAIR case by case. -/
theorem linkKeysAndPairing : Obligations.LinkKeysAndPairing := by
  refine ⟨fun k t s u hu => ⟨exec_roomPeriod_nothing hu, exec_roomPeriod_sends hu, ⟨exec_rekeyDue_nothing hu,
      exec_rekeyDue_starts hu⟩, exec_rekeyTimeout_nothing hu, fun r => exec_rekeyTimeout_drops hu, exec_exlKeyExhausted_nothing hu,
      exec_exlKeyExhausted_stops hu, exec_pairTimeout_nothing hu,
      fun p hp => ⟨exec_pairTimeout_early hu hp, exec_pairTimeout_ends hu hp⟩⟩,
    fun s => ⟨startRekey_nothing, startRekey_starts⟩, fun c s v f hst => ?_, fun c s v f hst => ?_⟩
  · rw [exec_pair hst]
    exact ⟨fun h => congrArg _ (cmdPair_bad_replace h), fun hr ht => congrArg _ (cmdPair_bad_time hr ht),
      fun hr ht hl => congrArg _ (cmdPair_bad_payload hr ht hl), fun hr ht hl h => congrArg _ (cmdPair_wrong_state hr ht hl h),
      fun hr ht hl hw h => congrArg _ (cmdPair_waits hr ht hl hw h)⟩
  · rw [exec_unpair hst]
    exact ⟨fun h => congrArg _ (cmdUnpair_bad_force h), fun h hp => congrArg _ (cmdUnpair_not_paired h hp),
      fun h hp hm => congrArg _ (cmdUnpair_mirrored h hp hm), fun hp h => congrArg _ (cmdUnpair_parts hp h)⟩

end Sys2Proof.Machine

/-! The commands of the twin (R260–R271, log entries 50, 56 and 86): TALLY_COMPARE, RESYNC and FAILOVER. -/

namespace Sys2Proof.Machine

open Sys2Proof

/-! ### TALLY_COMPARE (R260, R262) -/

theorem exec_tallyCompare {c : TrellisCmd} {s v : State} {f : InFlight} (h : started 0x0304 c s = some (v, f)) :
    exec (.tallyCompare c) s = .next (cmdTallyCompare f v) :=
  congrArg _ (submit_of_started cmdTallyCompare h)

/-- The epoch a TALLY_COMPARE names; 0 names the next. -/
def compareEpoch (f : InFlight) (v : State) : Nat := if pNum f.cmd 32 8 = 0 then nextEpoch v else pNum f.cmd 32 8

section
variable {f : InFlight} {v : State}

theorem cmdTallyCompare_eq : cmdTallyCompare f v
    = if pNum f.cmd 28 2 == 0 || 64 < pNum f.cmd 28 2 then badParam v f.id 28
      else if f.cmd.payLen < 24 * pNum f.cmd 28 2 then badParam v f.id 0x40
      else if f.cmd.allot != 0xFFFF && (allotOf v f.cmd.allot).isNone then badParam v f.id 8
      else if !v.exl.session || v.exl.peerHarvest || v.ldg.closed then conflict v f.id 0x13
      else if compareEpoch f v < v.exl.epoch + 4 then badParam v f.id 32
      else if v.exl.compares.any (fun d => d.epoch == compareEpoch f v) then conflict v f.id 0x13
      else setJob (announce v (compareEpoch f v) (pNum f.cmd 24 4) (pNum f.cmd 28 2) (some f.id)) f.id
        (.compare (compareEpoch f v)) := by
  have hepoch : (if pNum f.cmd 32 8 == 0 then nextEpoch v else pNum f.cmd 32 8) = compareEpoch f v := by
    simp only [beq_iff_eq, compareEpoch]
  rw [← hepoch]
  rfl

theorem cmdTallyCompare_bad_count (h : pNum f.cmd 28 2 = 0 ∨ 64 < pNum f.cmd 28 2) : cmdTallyCompare f v = badParam v f.id 28 := by
  rw [cmdTallyCompare_eq, if_pos (by simpa using h)]

section
variable (hn : 0 < pNum f.cmd 28 2) (hm : pNum f.cmd 28 2 ≤ 64)
include hn hm

theorem cmdTallyCompare_of_count : cmdTallyCompare f v
    = if f.cmd.payLen < 24 * pNum f.cmd 28 2 then badParam v f.id 0x40
      else if f.cmd.allot != 0xFFFF && (allotOf v f.cmd.allot).isNone then badParam v f.id 8
      else if !v.exl.session || v.exl.peerHarvest || v.ldg.closed then conflict v f.id 0x13
      else if compareEpoch f v < v.exl.epoch + 4 then badParam v f.id 32
      else if v.exl.compares.any (fun d => d.epoch == compareEpoch f v) then conflict v f.id 0x13
      else setJob (announce v (compareEpoch f v) (pNum f.cmd 24 4) (pNum f.cmd 28 2) (some f.id)) f.id
        (.compare (compareEpoch f v)) := by
  rw [cmdTallyCompare_eq, if_neg (by simp [Nat.pos_iff_ne_zero.mp hn, hm])]

theorem cmdTallyCompare_short_payload (h : f.cmd.payLen < 24 * pNum f.cmd 28 2) :
    cmdTallyCompare f v = badParam v f.id 0x40 := by
  rw [cmdTallyCompare_of_count hn hm, if_pos h]

variable (hl : 24 * pNum f.cmd 28 2 ≤ f.cmd.payLen)
include hl

theorem cmdTallyCompare_unknown (h : f.cmd.allot ≠ 0xFFFF) (ha : allotOf v f.cmd.allot = none) :
    cmdTallyCompare f v = badParam v f.id 8 := by
  rw [cmdTallyCompare_of_count hn hm, if_neg (Nat.not_lt.mpr hl), if_pos (by simp [h, ha])]

variable (ha : f.cmd.allot = 0xFFFF ∨ (allotOf v f.cmd.allot).isSome = true)
include ha

/-- With a count, a payload and an allotment it takes: the session, then the epoch. -/
theorem cmdTallyCompare_of_formed : cmdTallyCompare f v
    = if !v.exl.session || v.exl.peerHarvest || v.ldg.closed then conflict v f.id 0x13
      else if compareEpoch f v < v.exl.epoch + 4 then badParam v f.id 32
      else if v.exl.compares.any (fun d => d.epoch == compareEpoch f v) then conflict v f.id 0x13
      else setJob (announce v (compareEpoch f v) (pNum f.cmd 24 4) (pNum f.cmd 28 2) (some f.id)) f.id
        (.compare (compareEpoch f v)) := by
  rw [cmdTallyCompare_of_count hn hm, if_neg (Nat.not_lt.mpr hl), if_neg]
  rcases ha with ha | ha
  · simp [ha]
  · simp [← Option.not_isSome, ha]

theorem cmdTallyCompare_no_session (h : v.exl.session = false ∨ v.exl.peerHarvest = true ∨ v.ldg.closed = true) :
    cmdTallyCompare f v = conflict v f.id 0x13 := by
  rw [cmdTallyCompare_of_formed hn hm hl ha, if_pos (by simpa [or_assoc] using h)]

variable (hs : v.exl.session = true) (hp : v.exl.peerHarvest = false) (hc : v.ldg.closed = false)
include hs hp hc

theorem cmdTallyCompare_of_session : cmdTallyCompare f v
    = if compareEpoch f v < v.exl.epoch + 4 then badParam v f.id 32
      else if v.exl.compares.any (fun d => d.epoch == compareEpoch f v) then conflict v f.id 0x13
      else setJob (announce v (compareEpoch f v) (pNum f.cmd 24 4) (pNum f.cmd 28 2) (some f.id)) f.id
        (.compare (compareEpoch f v)) := by
  rw [cmdTallyCompare_of_formed hn hm hl ha, if_neg (by simp [hs, hp, hc])]

theorem cmdTallyCompare_early_epoch (he : compareEpoch f v < v.exl.epoch + 4) : cmdTallyCompare f v = badParam v f.id 32 := by
  rw [cmdTallyCompare_of_session hn hm hl ha hs hp hc, if_pos he]

variable (he : v.exl.epoch + 4 ≤ compareEpoch f v)
include he

theorem cmdTallyCompare_known_epoch (h : v.exl.compares.any (fun d => d.epoch == compareEpoch f v) = true) :
    cmdTallyCompare f v = conflict v f.id 0x13 := by
  rw [cmdTallyCompare_of_session hn hm hl ha hs hp hc, if_neg (Nat.not_lt.mpr he), if_pos h]

theorem cmdTallyCompare_announces (h : v.exl.compares.any (fun d => d.epoch == compareEpoch f v) = false) : cmdTallyCompare f v
    = setJob (announce v (compareEpoch f v) (pNum f.cmd 24 4) (pNum f.cmd 28 2) (some f.id)) f.id (.compare (compareEpoch f v)) := by
  rw [cmdTallyCompare_of_session hn hm hl ha hs hp hc, if_neg (Nat.not_lt.mpr he), if_neg (Bool.eq_false_iff.mp h)]

end

end

/-! ### RESYNC (R270, R271) -/

theorem exec_resync {c : TrellisCmd} {s v : State} {f : InFlight} (h : started 0x0303 c s = some (v, f)) :
    exec (.resync c) s = .next (cmdResync f v) :=
  congrArg _ (submit_of_started cmdResync h)

/-- The resync goes at the whole payload rate. -/
theorem paceResync_free {s : State} (hon : s.exl.resyncOn = true) (hp : s.exl.resyncPaused = false) (hh : s.exl.resyncHost = none) :
    paceResync s false
      = { s with exl := { s.exl with resyncRate := payloadRate s, resyncFrom := s.now, resyncSent := 0 } } := by
  simp only [paceResync, hon, hp, hh, Bool.not_false, Bool.and_self, Bool.false_eq_true, if_true, if_false]

theorem paceResync_paused {s : State} (hp : s.exl.resyncPaused = true) (busy : Bool) : paceResync s busy
    = { s with exl := { s.exl with resyncRate := 0, resyncFrom := s.now, resyncSent := 0 } } := by
  simp only [paceResync, hp, Bool.not_true, Bool.and_false, Bool.false_eq_true, if_false]

/-- RESYNC ends with what is left, what is copied and the rate. -/
def resyncEnds (f : InFlight) (w : State) : State := endOk w f.id (resyncResult w)

section
variable {f : InFlight} {v : State}

theorem cmdResync_bad_action (h : 3 < pByte f.cmd 24) : cmdResync f v = badParam v f.id 24 := by
  obtain ⟨n, hn⟩ : ∃ n, pByte f.cmd 24 = n + 4 := ⟨pByte f.cmd 24 - 4, by omega⟩
  simp only [cmdResync, hn]

/-! Action 0: the resync goes on. -/

section
variable (h : pByte f.cmd 24 = 0)
include h

theorem cmdResync_resume : cmdResync f v = if !v.exl.session then conflict v f.id 0x13
    else if !v.exl.resyncOn then conflict v f.id 0x16
    else resyncEnds f (paceResync { v with exl := { v.exl with resyncPaused := false, resyncHost := none } } false) := by
  simp only [cmdResync, h]
  rfl

theorem cmdResync_resume_no_session (hs : v.exl.session = false) : cmdResync f v = conflict v f.id 0x13 := by
  rw [cmdResync_resume h, if_pos (by rw [hs]; rfl)]

variable (hs : v.exl.session = true)
include hs

theorem cmdResync_resume_off (ho : v.exl.resyncOn = false) : cmdResync f v = conflict v f.id 0x16 := by
  rw [cmdResync_resume h, if_neg (by simp [hs]), if_pos (by rw [ho]; rfl)]

theorem cmdResync_resumes (ho : v.exl.resyncOn = true) : cmdResync f v = resyncEnds f { v with exl := { v.exl with
    resyncPaused := false, resyncHost := none, resyncRate := payloadRate v, resyncFrom := v.now, resyncSent := 0 } } := by
  rw [cmdResync_resume h, if_neg (by simp [hs]), if_neg (by simp [ho])]
  exact congrArg _ (paceResync_free ho rfl rfl)

end

/-! Action 1: the owner of function 9 sets the rate. -/

section
variable (h : pByte f.cmd 24 = 1)
include h

theorem cmdResync_rate : cmdResync f v = if !owns v f.cmd.est 9 then endWith v f.id 0x05 0x05
    else resyncEnds f (paceResync (assistInput
      { v with exl := { v.exl with resyncHost := some (clamp 100 400000 (pNum f.cmd 28 4)) } } 9) false) := by
  simp only [cmdResync, h]
  rfl

theorem cmdResync_rate_not_owner (ho : owns v f.cmd.est 9 = false) : cmdResync f v = endWith v f.id 0x05 0x05 := by
  rw [cmdResync_rate h, if_pos (by rw [ho]; rfl)]

theorem cmdResync_sets_rate (ho : owns v f.cmd.est 9 = true) : cmdResync f v = resyncEnds f (paceResync (assistInput
    { v with exl := { v.exl with resyncHost := some (clamp 100 400000 (pNum f.cmd 28 4)) } } 9) false) := by
  rw [cmdResync_rate h, if_neg (by simp [ho])]

end

/-! Action 2: the resync pauses. -/

section
variable (h : pByte f.cmd 24 = 2)
include h

theorem cmdResync_pause : cmdResync f v = if issClass f.cmd.est == 0 then endWith v f.id 0x05 0x02
    else resyncEnds f (paceResync { v with exl := { v.exl with resyncPaused := true, pausedAt := v.now } } false) := by
  simp only [cmdResync, h]
  rfl

theorem cmdResync_pause_from_host (hc : issClass f.cmd.est = 0) : cmdResync f v = endWith v f.id 0x05 0x02 := by
  rw [cmdResync_pause h, if_pos (beq_iff_eq.mpr hc)]

theorem cmdResync_pauses (hc : issClass f.cmd.est ≠ 0) : cmdResync f v = resyncEnds f { v with exl := { v.exl with
    resyncPaused := true, pausedAt := v.now, resyncRate := 0, resyncFrom := v.now, resyncSent := 0 } } := by
  rw [cmdResync_pause h, if_neg (mt beq_iff_eq.mp hc)]
  exact congrArg _ (paceResync_paused rfl false)

end

/-! Action 3: the data of a stale copy here is picked. -/

/-- The copy here is picked: it leaves STALE, is served, and is the source of the resync. -/
def pickedHere (v : State) (id : Nat) : State :=
  sendState (setResyncSource (offerAllot (modAllot (exitStale { v with
    allotx := { v.allotx with mgen := tset v.allotx.mgen id (mgenOf v id + 1), servedAt := tset v.allotx.servedAt id true } } id)
    id (fun a => { a with serving := true })) id) id 1) [id]

section
variable (h : pByte f.cmd 24 = 3)
include h

theorem cmdResync_pick_unknown (ha : allotOf v f.cmd.allot = none) : cmdResync f v = badParam v f.id 8 := by
  simp only [cmdResync, h, ha]

variable {a : Allot} (ha : allotOf v f.cmd.allot = some a)
include ha

theorem cmdResync_pick : cmdResync f v = if a.st == .deleting then conflict v f.id 0x11
    else if !v.exl.session then conflict v f.id 0x13
    else if !a.mirrored || a.st != .stale || sourceOf v f.cmd.allot != 0 || (tgetD v.exl.peerState f.cmd.allot {}).inStep then
      conflict v f.id 0x16
    else resyncEnds f (pickedHere v f.cmd.allot) := by
  simp only [cmdResync, h, ha]
  rfl

theorem cmdResync_pick_deleting (hd : a.st = .deleting) : cmdResync f v = conflict v f.id 0x11 := by
  rw [cmdResync_pick h ha, if_pos (beq_iff_eq.mpr hd)]

theorem cmdResync_pick_no_session (hd : a.st ≠ .deleting) (hs : v.exl.session = false) :
    cmdResync f v = conflict v f.id 0x13 := by
  rw [cmdResync_pick h ha, if_neg (mt beq_iff_eq.mp hd), if_pos (by rw [hs]; rfl)]

variable (hs : v.exl.session = true)
include hs

theorem cmdResync_pick_refused (hd : a.st ≠ .deleting) (hr : a.mirrored = false ∨ a.st ≠ .stale ∨ sourceOf v f.cmd.allot ≠ 0
      ∨ (tgetD v.exl.peerState f.cmd.allot {}).inStep = true) : cmdResync f v = conflict v f.id 0x16 := by
  rw [cmdResync_pick h ha, if_neg (mt beq_iff_eq.mp hd), if_neg (by simp [hs]), if_pos (by simpa [or_assoc] using hr)]

theorem cmdResync_picks (hm : a.mirrored = true) (hst : a.st = .stale) (h0 : sourceOf v f.cmd.allot = 0)
    (hp : (tgetD v.exl.peerState f.cmd.allot {}).inStep = false) :
    cmdResync f v = resyncEnds f (pickedHere v f.cmd.allot) := by
  rw [cmdResync_pick h ha, if_neg (by rw [hst]; decide), if_neg (by simp [hs]), if_neg (by simp [hm, hst, h0, hp])]

end

end

/-! ### FAILOVER (R265, R268) -/

theorem exec_failover {c : TrellisCmd} {s v : State} {f : InFlight} (h : started 0x0302 c s = some (v, f)) :
    exec (.failover c) s = .next (cmdFailover f v) :=
  congrArg _ (submit_of_started cmdFailover h)

/-- FAILOVER names one allotment, which satisfies `p`. -/
def namesOne (v : State) (id : Nat) (p : Allot → Bool) : Bool :=
  id != 0xFFFF && (match allotOf v id with | some a => p a | none => false)

/-- FAILOVER names one allotment, and none that is MIRRORED. -/
def namesNoMirrored (v : State) (id : Nat) : Bool :=
  id != 0xFFFF && (match allotOf v id with | some a => !a.mirrored | none => true)

/-- No heartbeat record arrived within the takeover time. -/
def peerQuiet (v : State) : Bool := match v.exl.hbPeerAt with | some u => decide (u + takeoverUs v ≤ v.now) | none => true

/-- FAILOVER ends with the count of the allotments changed and a generation. -/
def failoverEnds (f : InFlight) (w : State) (ids : List Nat) : State := endOk w f.id (failoverResult w f.cmd.allot ids)

/-- The allotments a take-over changes; with FORCE, stale copies too. -/
def takeable (f : InFlight) (v : State) : List Nat :=
  named v f.cmd.allot (fun a => !a.serving && (pByte f.cmd 25 == 1 || a.st != .stale))

/-- Action 0: take over on a lost link. -/
def failoverTakes (f : InFlight) (v : State) : State :=
  if !((subsUp v).isEmpty && !v.exl.session) || (f.cmd.allot != 0xFFFF && (takeable f v).isEmpty && staleHere v f.cmd.allot) then
    conflict v f.id 0x15
  else if !(pByte f.cmd 25 == 1) && !(v.exl.peerFenced || (peerQuiet v && !v.exl.ackClaim)) then conflict v f.id 0x15
  else failoverEnds f (retryHeld (takeOver v (takeable f v))) (takeable f v)

/-- The tick of a hand-over; 0 names the tick a hundred ahead. -/
def handoverEpoch (f : InFlight) (v : State) : Nat := if pNum f.cmd 32 8 = 0 then v.exl.epoch + 100 else pNum f.cmd 32 8

/-- The allotments a hand-over changes: served here, with no change that waits for the twin. -/
def handable (f : InFlight) (v : State) : List Nat :=
  (named v f.cmd.allot (fun a => a.serving)).filter (fun i => !txPending v i)

/-- The exchange that hands over allotment `i` at tick `e` begins. -/
def handOverOne (f : InFlight) (e : Nat) (s : State) (i : Nat) : State :=
  match allotOf s i with
  | none => s
  | some a =>
    let s := startTx s .handover i { a with serving := false } none false 0
    { s with exl := { s.exl with
      handovers := s.exl.handovers ++ [(i, e, f.id)],
      txs := s.exl.txs.map (fun t => if t.mine && t.allot == i then { t with epoch := e, cmd := some f.id } else t) } }

/-- Action 1: hand over in step. -/
def failoverHandsOver (f : InFlight) (v : State) : State :=
  if !inStep v then conflict v f.id 0x13
  else if handoverEpoch f v < v.exl.epoch + 2 then badParam v f.id 32
  else if (handable f v).isEmpty then failoverEnds f v []
  else (handable f v).foldl (handOverOne f (handoverEpoch f v)) (setJob v f.id (.handover (handoverEpoch f v) 0 0))

/-- Action 2: acknowledge the peer's claim. -/
def failoverAcks (f : InFlight) (v : State) : State :=
  if !v.exl.peerClaim || v.exl.tookOver then conflict v f.id 0x15
  else
    let ids := named v f.cmd.allot (fun a => !a.serving && a.st != .stale)
    failoverEnds f (ackPeer v ids) ids

/-- Action 3: release what is served here. -/
def failoverReleases (f : InFlight) (v : State) : State :=
  let ids := named v f.cmd.allot (fun a => a.serving)
  failoverEnds f (retryHeld (judgeService (fenceAllots v ids))) ids

/-- What FAILOVER does once its operands pass. -/
def failoverActs (f : InFlight) (v : State) : State :=
  match pByte f.cmd 24 with
  | 0 => failoverTakes f v
  | 1 => failoverHandsOver f v
  | 2 => failoverAcks f v
  | _ => failoverReleases f v

/-- FAILOVER may name `id`: all allotments, or a MIRRORED one that is neither a reservation nor DELETING. -/
def mayFailOver (v : State) (id : Nat) : Prop :=
  id = 0xFFFF ∨ ∃ a, allotOf v id = some a ∧ a.mirrored = true ∧ a.reservation = false ∧ a.st ≠ .deleting

section
variable {f : InFlight} {v : State} {id : Nat}

theorem peerQuiet_iff : peerQuiet v = true ↔ ∀ u, v.exl.hbPeerAt = some u → u + takeoverUs v ≤ v.now := by
  unfold peerQuiet
  cases v.exl.hbPeerAt with
  | none => simp
  | some u => simp

theorem namesOne_iff {p : Allot → Bool} : namesOne v id p = true ↔ id ≠ 0xFFFF ∧ ∃ a, allotOf v id = some a ∧ p a = true := by
  unfold namesOne
  cases allotOf v id with
  | none => simp
  | some a => simp

theorem namesNoMirrored_iff :
    namesNoMirrored v id = true ↔ id ≠ 0xFFFF ∧ ∀ a, allotOf v id = some a → a.mirrored = false := by
  unfold namesNoMirrored
  cases allotOf v id with
  | none => simp
  | some a => simp

theorem failoverEnds_eq (w : State) (ids : List Nat) : failoverEnds f w ids = endOk w f.id (le ids.length 4
    ++ le (if f.cmd.allot = 0xFFFF then (ids.map (mgenOf w)).foldl max 0 else mgenOf w f.cmd.allot) 8) := by
  simp only [failoverEnds, failoverResult, beq_iff_eq]

theorem cmdFailover_eq : cmdFailover f v = if 3 < pByte f.cmd 24 then badParam v f.id 24
    else if 1 < pByte f.cmd 25 then badParam v f.id 25
    else if namesOne v f.cmd.allot (fun a => a.reservation) then conflict v f.id 0x15
    else if namesOne v f.cmd.allot (fun a => a.st == .deleting) then conflict v f.id 0x11
    else if namesNoMirrored v f.cmd.allot then badParam v f.id 8
    else failoverActs f v := by
  have hepoch : (if pNum f.cmd 32 8 == 0 then v.exl.epoch + 100 else pNum f.cmd 32 8) = handoverEpoch f v := by
    simp only [beq_iff_eq, handoverEpoch]
  unfold failoverActs failoverHandsOver
  rw [← hepoch]
  rfl

theorem cmdFailover_bad_action (h : 3 < pByte f.cmd 24) : cmdFailover f v = badParam v f.id 24 := by
  rw [cmdFailover_eq, if_pos h]

section
variable (ha : pByte f.cmd 24 ≤ 3)
include ha

theorem cmdFailover_bad_force (h : 1 < pByte f.cmd 25) : cmdFailover f v = badParam v f.id 25 := by
  rw [cmdFailover_eq, if_neg (Nat.not_lt.mpr ha), if_pos h]

variable (hf : pByte f.cmd 25 ≤ 1)
include hf

/-- With action and FORCE in their ranges: the allotment named, then the action. -/
theorem cmdFailover_of_ranges : cmdFailover f v
    = if namesOne v f.cmd.allot (fun a => a.reservation) then conflict v f.id 0x15
      else if namesOne v f.cmd.allot (fun a => a.st == .deleting) then conflict v f.id 0x11
      else if namesNoMirrored v f.cmd.allot then badParam v f.id 8
      else failoverActs f v := by
  rw [cmdFailover_eq, if_neg (Nat.not_lt.mpr ha), if_neg (Nat.not_lt.mpr hf)]

theorem cmdFailover_reservation (h : f.cmd.allot ≠ 0xFFFF ∧ ∃ a, allotOf v f.cmd.allot = some a ∧ a.reservation = true) :
    cmdFailover f v = conflict v f.id 0x15 := by
  rw [cmdFailover_of_ranges ha hf, if_pos (namesOne_iff.mpr h)]

theorem cmdFailover_deleting
    (h : f.cmd.allot ≠ 0xFFFF ∧ ∃ a, allotOf v f.cmd.allot = some a ∧ a.reservation = false ∧ a.st = .deleting) :
    cmdFailover f v = conflict v f.id 0x11 := by
  obtain ⟨hid, a, hsome, hr, hd⟩ := h
  rw [cmdFailover_of_ranges ha hf, if_neg (by simp [namesOne, hsome, hr]), if_pos (by simp [namesOne, hid, hsome, hd])]

theorem cmdFailover_not_mirrored
    (hheld : ¬ (f.cmd.allot ≠ 0xFFFF ∧ ∃ a, allotOf v f.cmd.allot = some a ∧ a.reservation = true))
    (hgoing : ¬ (f.cmd.allot ≠ 0xFFFF ∧ ∃ a, allotOf v f.cmd.allot = some a ∧ a.reservation = false ∧ a.st = .deleting))
    (hvalid : ¬ mayFailOver v f.cmd.allot) : cmdFailover f v = badParam v f.id 8 := by
  obtain ⟨hid, hmirror⟩ := not_or.mp hvalid
  have hfree : ∀ a, allotOf v f.cmd.allot = some a → a.reservation = false := fun a hsome =>
    Bool.eq_false_iff.mpr fun hr => hheld ⟨hid, a, hsome, hr⟩
  have hstays : ∀ a, allotOf v f.cmd.allot = some a → a.st ≠ .deleting := fun a hsome hd =>
    hgoing ⟨hid, a, hsome, hfree a hsome, hd⟩
  rw [cmdFailover_of_ranges ha hf, if_neg (mt namesOne_iff.mp hheld), if_neg, if_pos]
  · exact namesNoMirrored_iff.mpr ⟨hid, fun a hsome =>
      Bool.eq_false_iff.mpr fun hm => hmirror ⟨a, hsome, hm, hfree a hsome, hstays a hsome⟩⟩
  · rw [namesOne_iff]
    rintro ⟨-, a, hsome, hd⟩
    exact hstays a hsome (beq_iff_eq.mp hd)

theorem cmdFailover_acts (h : mayFailOver v f.cmd.allot) : cmdFailover f v = failoverActs f v := by
  rw [cmdFailover_of_ranges ha hf]
  rcases h with hid | ⟨a, hsome, hm, hr, hd⟩
  · simp [namesOne, namesNoMirrored, hid]
  · simp [namesOne, namesNoMirrored, hsome, hm, hr, hd]

end

/-! Action 0: take over on a lost link. -/

section
variable (h : pByte f.cmd 24 = 0)
include h

theorem failoverActs_takes : failoverActs f v = failoverTakes f v := by
  simp only [failoverActs, h]

theorem failoverActs_not_lost (hl : subsUp v ≠ [] ∨ v.exl.session = true
      ∨ (f.cmd.allot ≠ 0xFFFF ∧ takeable f v = [] ∧ staleHere v f.cmd.allot = true)) :
    failoverActs f v = conflict v f.id 0x15 := by
  rw [failoverActs_takes h]
  refine if_pos ?_
  rcases hl with hl | hl | ⟨hid, hnone, hstale⟩
  · simp [hl]
  · simp [hl]
  · simp [hid, hnone, hstale]

variable (hup : subsUp v = []) (hs : v.exl.session = false)
  (hl : f.cmd.allot = 0xFFFF ∨ takeable f v ≠ [] ∨ staleHere v f.cmd.allot = false)
include hup hs hl

/-- On a lost link the take-over wants FORCE, a fenced peer, or a quiet one whose claim is not acknowledged. -/
theorem failoverActs_lost : failoverActs f v
    = if !(pByte f.cmd 25 == 1) && !(v.exl.peerFenced || (peerQuiet v && !v.exl.ackClaim)) then conflict v f.id 0x15
      else failoverEnds f (retryHeld (takeOver v (takeable f v))) (takeable f v) := by
  rw [failoverActs_takes h]
  refine if_neg ?_
  rcases hl with hid | hsome | hfresh
  · simp [hup, hs, hid]
  · simp [hup, hs, hsome]
  · simp [hup, hs, hfresh]

theorem failoverActs_peer_alive (hf : (pByte f.cmd 25 == 1) = false) (hp : v.exl.peerFenced = false)
    (hq : ¬ (∀ u, v.exl.hbPeerAt = some u → u + takeoverUs v ≤ v.now) ∨ v.exl.ackClaim = true) :
    failoverActs f v = conflict v f.id 0x15 := by
  rw [← peerQuiet_iff] at hq
  rw [failoverActs_lost h hup hs hl, if_pos]
  rcases hq with hq | hq <;> simp [hf, hp, hq]

theorem failoverActs_takes_over (hq : (pByte f.cmd 25 == 1) = true ∨ v.exl.peerFenced = true
      ∨ ((∀ u, v.exl.hbPeerAt = some u → u + takeoverUs v ≤ v.now) ∧ v.exl.ackClaim = false)) :
    failoverActs f v = failoverEnds f (retryHeld (takeOver v (takeable f v))) (takeable f v) := by
  rw [← peerQuiet_iff] at hq
  rw [failoverActs_lost h hup hs hl, if_neg]
  rcases hq with hq | hq | ⟨hq, hack⟩
  · simp [hq]
  · simp [hq]
  · simp [hq, hack]

end

/-! Action 1: hand over in step. -/

section
variable (h : pByte f.cmd 24 = 1)
include h

theorem failoverActs_hands_over : failoverActs f v = failoverHandsOver f v := by
  simp only [failoverActs, h]

theorem failoverActs_out_of_step (hs : inStep v = false) : failoverActs f v = conflict v f.id 0x13 := by
  rw [failoverActs_hands_over h, failoverHandsOver, if_pos (by rw [hs]; rfl)]

variable (hs : inStep v = true)
include hs

theorem failoverActs_early_epoch (he : handoverEpoch f v < v.exl.epoch + 2) : failoverActs f v = badParam v f.id 32 := by
  rw [failoverActs_hands_over h, failoverHandsOver, if_neg (by simp [hs]), if_pos he]

variable (he : v.exl.epoch + 2 ≤ handoverEpoch f v)
include he

theorem failoverActs_nothing_to_hand_over (hn : handable f v = []) : failoverActs f v = failoverEnds f v [] := by
  rw [failoverActs_hands_over h, failoverHandsOver, if_neg (by simp [hs]), if_neg (Nat.not_lt.mpr he), if_pos (by rw [hn]; rfl)]

theorem failoverActs_announces_handover (hn : handable f v ≠ []) : failoverActs f v
    = (handable f v).foldl (handOverOne f (handoverEpoch f v)) (setJob v f.id (.handover (handoverEpoch f v) 0 0)) := by
  rw [failoverActs_hands_over h, failoverHandsOver, if_neg (by simp [hs]), if_neg (Nat.not_lt.mpr he), if_neg (by simp [hn])]

end

/-! Action 2: acknowledge the peer's claim. -/

section
variable (h : pByte f.cmd 24 = 2)
include h

theorem failoverActs_acks : failoverActs f v = failoverAcks f v := by
  simp only [failoverActs, h]

theorem failoverActs_no_claim (hc : v.exl.peerClaim = false ∨ v.exl.tookOver = true) :
    failoverActs f v = conflict v f.id 0x15 := by
  rw [failoverActs_acks h, failoverAcks, if_pos (by simpa using hc)]

theorem failoverActs_acknowledges (hc : v.exl.peerClaim = true) (ht : v.exl.tookOver = false) :
    let ids := named v f.cmd.allot (fun a => !a.serving && a.st != .stale)
    failoverActs f v = failoverEnds f (ackPeer v ids) ids := by
  rw [failoverActs_acks h, failoverAcks, if_neg (by simp [hc, ht])]

end

/-! Action 3: release what is served here. -/

theorem failoverActs_releases (h : pByte f.cmd 24 = 3) : failoverActs f v = failoverReleases f v := by
  simp only [failoverActs, h]

end

/-- Settles O49: the three commands, clause by clause. -/
theorem twinCommands : Obligations.TwinCommands := by
  refine ⟨fun c s v f hst => ?_, fun c s v f hst => ?_, fun c s v f hst => ?_⟩
  · rw [exec_tallyCompare hst]
    exact ⟨fun h => congrArg _ (cmdTallyCompare_bad_count h), fun hn hm h => congrArg _ (cmdTallyCompare_short_payload hn hm h),
      fun hn hm hl => ⟨fun h ha => congrArg _ (cmdTallyCompare_unknown hn hm hl h ha),
        fun ha => ⟨fun h => congrArg _ (cmdTallyCompare_no_session hn hm hl ha h),
          fun hs hp hc => ⟨fun he => congrArg _ (cmdTallyCompare_early_epoch hn hm hl ha hs hp hc he),
            fun he h => congrArg _ (cmdTallyCompare_known_epoch hn hm hl ha hs hp hc he h),
            fun he h => congrArg _ (cmdTallyCompare_announces hn hm hl ha hs hp hc he h)⟩⟩⟩⟩
  · rw [exec_resync hst]
    exact ⟨fun h => congrArg _ (cmdResync_bad_action h), fun h hs => congrArg _ (cmdResync_resume_no_session h hs),
      fun h hs ho => congrArg _ (cmdResync_resume_off h hs ho), fun h hs ho => congrArg _ (cmdResync_resumes h hs ho),
      fun h ho => congrArg _ (cmdResync_rate_not_owner h ho), fun h ho => congrArg _ (cmdResync_sets_rate h ho),
      fun h hc => congrArg _ (cmdResync_pause_from_host h hc), fun h hc => congrArg _ (cmdResync_pauses h hc),
      fun h ha => congrArg _ (cmdResync_pick_unknown h ha),
      fun a h ha => ⟨fun hd => congrArg _ (cmdResync_pick_deleting h ha hd),
        fun hd hs => congrArg _ (cmdResync_pick_no_session h ha hd hs),
        fun hd hs hr => congrArg _ (cmdResync_pick_refused h ha hs hd hr),
        fun hs hm hst h0 hp => congrArg _ (cmdResync_picks h ha hs hm hst h0 hp)⟩⟩
  · simp only [← failoverEnds_eq, exec_failover hst]
    refine ⟨fun h => congrArg _ (cmdFailover_bad_action h), fun ha h => congrArg _ (cmdFailover_bad_force ha h),
      fun ha hf h => congrArg _ (cmdFailover_reservation ha hf h), fun ha hf h => congrArg _ (cmdFailover_deleting ha hf h),
      fun ha hf hheld hgoing hvalid => congrArg _ (cmdFailover_not_mirrored ha hf hheld hgoing hvalid),
      fun ⟨ha, hf, hv⟩ h => ?_, fun ⟨ha, hf, hv⟩ h => ?_, fun ⟨ha, hf, hv⟩ h => ?_, fun ⟨ha, hf, hv⟩ h => ?_⟩
    all_goals rw [cmdFailover_acts ha hf hv]
    · exact ⟨fun hl => congrArg _ (failoverActs_not_lost h hl), fun hup hs hl =>
        ⟨fun hforce hp hq => congrArg _ (failoverActs_peer_alive h hup hs hl hforce hp hq),
          fun hq => congrArg _ (failoverActs_takes_over h hup hs hl hq)⟩⟩
    · exact ⟨fun hs => congrArg _ (failoverActs_out_of_step h hs), fun hs he => congrArg _ (failoverActs_early_epoch h hs he),
        fun hs he hn => congrArg _ (failoverActs_nothing_to_hand_over h hs he hn),
        fun hs he hn => congrArg _ (failoverActs_announces_handover h hs he hn)⟩
    · exact ⟨fun hc => congrArg _ (failoverActs_no_claim h hc), fun hc ht => congrArg _ (failoverActs_acknowledges h hc ht)⟩
    · exact congrArg _ (failoverActs_releases h)

end Sys2Proof.Machine

/-! The timers of the twin (R255, R258–R260, R264–R266, R270, R271, log entry 58): heartbeats and failover, the pair epoch,
comparisons and the pace of a resync. -/

namespace Sys2Proof.Machine

open Sys2Proof

/-! ### Heartbeat records that arrive (R264) -/

/-- Board management has written word 3 of a record. -/
def hbWord3Set (u : State) (v : Nat) : State :=
  { u with exl := { u.exl with hbIn := u.exl.hbIn.take 3 ++ [BitVec.ofNat 32 v] } }

/-- Words 0 to 2 of the record written. -/
def hbWords (w : State) : List Nat := (w.exl.hbIn.take 3).map (·.toNat)

/-- A record of sequence `n` is later than the last one taken. -/
def hbLater (w : State) (n : Nat) : Bool :=
  match w.exl.hbPeerAt with | some _ => decide (w.exl.hbPeerSeq < n) | none => true

/-- The peer's record is noted. -/
def hbNoted (w : State) : State :=
  let b := hbWords w
  { w with exl := { w.exl with
    hbPeerSeq := b.getD 0 0, hbPeerAt := some w.now, hbEcho := bits (b.getD 2 0) 0 16, peerFenced := bit (b.getD 2 0) 20,
    peerClaim := bit (b.getD 2 0) 23, peerSince := w.exl.peerSince || w.exl.lossAt.isSome } }

section
variable {w : State} {n : Nat}

theorem hbLater_iff : hbLater w n = true ↔ w.exl.hbPeerAt = none ∨ w.exl.hbPeerSeq < n := by
  unfold hbLater
  cases w.exl.hbPeerAt with
  | none => simp
  | some a => simp

theorem takeHeartbeat_eq : takeHeartbeat w n
    = if !w.exl.paired || hbTag w (hbWords w) != n || !hbLater w ((hbWords w).getD 0 0) then w
      else decideOnRecord (hbNoted w) ((hbWords w).getD 2 0) := rfl

theorem takeHeartbeat_refused (h : w.exl.paired = false ∨ hbTag w (hbWords w) ≠ n
      ∨ ¬ (w.exl.hbPeerAt = none ∨ w.exl.hbPeerSeq < (hbWords w).getD 0 0)) : takeHeartbeat w n = w := by
  rw [← hbLater_iff] at h
  rw [takeHeartbeat_eq, if_pos (by simpa [or_assoc] using h)]

theorem takeHeartbeat_taken (hp : w.exl.paired = true) (ht : hbTag w (hbWords w) = n)
    (hl : w.exl.hbPeerAt = none ∨ w.exl.hbPeerSeq < (hbWords w).getD 0 0) :
    takeHeartbeat w n = decideOnRecord (hbNoted w) ((hbWords w).getD 2 0) := by
  rw [← hbLater_iff] at hl
  rw [takeHeartbeat_eq, if_neg (by rw [hl]; simp [hp, ht])]

end

section
variable {a : RegAcc} {v t : Nat} {s u : State} (hu : u = tick s t)
include hu

theorem exec_heartbeatRecordIn : exec (.heartbeatRecordIn a v t) s = .next (if !logicOn u then u
    else if !(viaMctp a.path && issClass a.issuer == 2) then regFault u rExlHbIn3
    else takeHeartbeat (hbWord3Set u v) (v % 2 ^ 32)) := by
  subst hu
  rfl

theorem exec_heartbeatRecordIn_off (hl : logicOn u = false) : exec (.heartbeatRecordIn a v t) s = .next u := by
  rw [exec_heartbeatRecordIn hu, if_pos (by rw [hl]; rfl)]

variable (hl : logicOn u = true)
include hl

theorem exec_heartbeatRecordIn_other_writer (h : (∀ n, a.path ≠ .mctp n) ∨ issClass a.issuer ≠ 2) :
    exec (.heartbeatRecordIn a v t) s = .next (regFault u rExlHbIn3) := by
  have hvia : viaMctp a.path = true → ∃ n, a.path = .mctp n := by
    cases a.path <;> simp [viaMctp]
  rw [exec_heartbeatRecordIn hu, if_neg (by simp [hl]), if_pos]
  rw [Bool.not_eq_true', Bool.and_eq_false_iff, beq_eq_false_iff_ne]
  exact h.imp_left fun hpath => Bool.eq_false_iff.mpr fun hmctp => (hvia hmctp).elim hpath

theorem exec_heartbeatRecordIn_board {n : Nat} (hpath : a.path = .mctp n) (hi : issClass a.issuer = 2) :
    exec (.heartbeatRecordIn a v t) s = .next (takeHeartbeat (hbWord3Set u v) (v % 2 ^ 32)) := by
  rw [exec_heartbeatRecordIn hu, if_neg (by simp [hl]), if_neg (by simp [hpath, hi, viaMctp])]

end

/-! ### Heartbeats published (R264) -/

/-- Words 0 to 2 of the next record of this unit. -/
def hbNext (u : State) : List Nat :=
  [(u.exl.hbSeq + 1) % 2 ^ 32, u.exl.epoch % 2 ^ 32,
    fld (b2n u.exl.claim) 23 1 + fld (b2n u.exl.ackClaim) 22 1 + fld (b2n u.exl.tookOver) 21 1 + fld (b2n u.exl.fenced) 20 1
      + fld (b2n (!(subsUp u).isEmpty)) 19 1 + fld u.exl.hbPeerSeq 0 16]

/-- The next record with its tag is published. -/
def hbPublished (u : State) : State :=
  let w := (hbNext u ++ [hbTag u (hbNext u)]).map (BitVec.ofNat 32)
  emit { u with exl := { u.exl with hbSeq := (u.exl.hbSeq + 1) % 2 ^ 32, hbOut := w, hbAt := some u.now } } (.heartbeat w)

section
variable {t : Nat} {s u : State} (hu : u = tick s t)
include hu

theorem exec_heartbeatPublish : exec (.heartbeatPublish t) s = .next (
    if !hbEn u || !u.exl.paired || !logicOn u || u.exl.hbAt.any (fun a => decide (u.now < a + hbPeriod u)) then u
    else hbPublished u) := by
  subst hu
  rfl

theorem exec_heartbeatPublish_off (hl : logicOn u = false) : exec (.heartbeatPublish t) s = .next u := by
  rw [exec_heartbeatPublish hu, if_pos (by simp [hl])]

theorem exec_heartbeatPublish_nothing
    (h : hbEn u = false ∨ u.exl.paired = false ∨ ∃ a, u.exl.hbAt = some a ∧ u.now < a + hbPeriod u) :
    exec (.heartbeatPublish t) s = .next u := by
  rw [exec_heartbeatPublish hu, if_pos]
  rcases h with h | h | ⟨a, ha, hd⟩
  · simp [h]
  · simp [h]
  · simp [ha, hd]

theorem exec_heartbeatPublish_publishes (he : hbEn u = true) (hp : u.exl.paired = true) (hl : logicOn u = true)
    (hd : ∀ a, u.exl.hbAt = some a → a + hbPeriod u ≤ u.now) : exec (.heartbeatPublish t) s = .next (hbPublished u) := by
  have hdue : u.exl.hbAt.any (fun a => decide (u.now < a + hbPeriod u)) = false := by
    rw [Option.any_eq_false]
    exact fun a ha => decide_eq_false (Nat.not_lt.mpr (hd a ha))
  rw [exec_heartbeatPublish hu, if_neg (by simp [he, hp, hl, hdue])]

/-! ### Claims and take-overs on a lost link (R265, R266) -/

theorem exec_claimTimeout : exec (.claimTimeout t) s = .next (match u.exl.lossAt with
    | some x => if failoverOn u && failoverHw u && x + claimUs u ≤ u.now && !u.exl.claimAcked && u.exl.peerSince && !u.exl.tookOver then
        fenceAllots u (servedHere u) else u
    | none => u) := by
  subst hu
  rfl

theorem exec_takeoverTimeout : exec (.takeoverTimeout t) s = .next (match u.exl.lossAt with
    | some x => if failoverOn u && failoverHw u && x + takeoverUs u ≤ u.now && !u.exl.peerSince && !u.exl.ackClaim then
        takeOver u (peerReady u) else u
    | none => u) := by
  subst hu
  rfl

theorem exec_claimTimeout_no_loss (h : u.exl.lossAt = none) : exec (.claimTimeout t) s = .next u := by
  rw [exec_claimTimeout hu, h]

theorem exec_takeoverTimeout_no_loss (h : u.exl.lossAt = none) : exec (.takeoverTimeout t) s = .next u := by
  rw [exec_takeoverTimeout hu, h]

section
variable {x : Nat} (hx : u.exl.lossAt = some x)
include hx

theorem exec_claimTimeout_fences (hon : failoverOn u = true) (hw : failoverHw u = true) (hd : x + claimUs u ≤ u.now)
    (ha : u.exl.claimAcked = false) (hp : u.exl.peerSince = true) (ht : u.exl.tookOver = false) :
    exec (.claimTimeout t) s = .next (fenceAllots u (servedHere u)) := by
  rw [exec_claimTimeout hu, hx]
  exact congrArg _ (if_pos (by simp [hon, hw, hd, ha, hp, ht]))

theorem exec_claimTimeout_nothing (h : failoverOn u = false ∨ failoverHw u = false ∨ u.now < x + claimUs u
      ∨ u.exl.claimAcked = true ∨ u.exl.peerSince = false ∨ u.exl.tookOver = true) : exec (.claimTimeout t) s = .next u := by
  rw [exec_claimTimeout hu, hx]
  refine congrArg _ (if_neg ?_)
  rcases h with h | h | h | h | h | h <;> simp [h]

theorem exec_takeoverTimeout_takes (hon : failoverOn u = true) (hw : failoverHw u = true) (hd : x + takeoverUs u ≤ u.now)
    (hp : u.exl.peerSince = false) (ha : u.exl.ackClaim = false) :
    exec (.takeoverTimeout t) s = .next (takeOver u (peerReady u)) := by
  rw [exec_takeoverTimeout hu, hx]
  exact congrArg _ (if_pos (by simp [hon, hw, hd, hp, ha]))

theorem exec_takeoverTimeout_nothing (h : failoverOn u = false ∨ failoverHw u = false ∨ u.now < x + takeoverUs u
      ∨ u.exl.peerSince = true ∨ u.exl.ackClaim = true) : exec (.takeoverTimeout t) s = .next u := by
  rw [exec_takeoverTimeout hu, hx]
  refine congrArg _ (if_neg ?_)
  rcases h with h | h | h | h | h <;> simp [h]

end

/-! ### The pair epoch (R258) -/

/-- The epoch has advanced, modulo 2^64. -/
def epochAdvanced (u : State) : State :=
  { u with exl := { u.exl with epoch := (u.exl.epoch + 1) % 2 ^ 64, epochAt := u.now } }

/-- The tick's cut marks, commits, hand-overs and activations take effect, and the resync goes on. -/
def epochTicked (u : State) : State :=
  let w := epochAdvanced u
  let w := capture (markCompares (if u.exl.session && leads u then sendLow w 0x05 [w.exl.epoch, 0] else w))
  let w := (w.exl.txs.filter (fun x => x.phase == 2 && x.epoch ≤ w.exl.epoch)).foldl applyAt w
  resyncAnnounce (activationTick (retryHeld (judgeService w)))

theorem exec_pairEpochTick : exec (.pairEpochTick t) s
    = .next (if !logicOn u || u.now < u.exl.epochAt + 999 then u else epochTicked u) := by
  subst hu
  rfl

theorem exec_pairEpochTick_off (hl : logicOn u = false) : exec (.pairEpochTick t) s = .next u := by
  rw [exec_pairEpochTick hu, if_pos (by simp [hl])]

theorem exec_pairEpochTick_early (hd : u.now < u.exl.epochAt + 999) : exec (.pairEpochTick t) s = .next u := by
  rw [exec_pairEpochTick hu, if_pos (by simp [hd])]

theorem exec_pairEpochTick_ticks (hl : logicOn u = true) (hd : u.exl.epochAt + 999 ≤ u.now) :
    exec (.pairEpochTick t) s = .next (epochTicked u) := by
  rw [exec_pairEpochTick hu, if_neg (by simp [hl, hd])]

/-! ### Comparisons (R260, R261) -/

section
variable {e : Nat}

/-- A marked comparison of tick `e` whose 50 µs have passed. -/
def lateCompare (u : State) (e : Nat) : Option Compare :=
  u.exl.compares.find? (fun c => c.epoch == e && c.marked && decide (c.tickAt + 50 ≤ u.now))

/-- The open regions of the comparisons of tick `e` end as not comparable. -/
def closeCompares (w : State) (e : Nat) : State := judgeCompares { w with exl := { w.exl with
  compares := w.exl.compares.map (fun (d : Compare) => if d.epoch == e then
    { d with result := (List.range d.count).foldl (fun m i =>
      if (compareResult d (d.first + i)).isSome then m else tset m (d.first + i) 2) d.result } else d) } }

theorem exec_compareCaptureTimeout : exec (.compareCaptureTimeout e t) s = .next (match lateCompare u e with
    | none => u
    | some c => closeCompares (if c.done then u else abandonCompare u e) e) := by
  subst hu
  rfl

theorem exec_compareCaptureTimeout_nothing (h : lateCompare u e = none) : exec (.compareCaptureTimeout e t) s = .next u := by
  rw [exec_compareCaptureTimeout hu, h]

section
variable {c : Compare} (hc : lateCompare u e = some c)
include hc

theorem exec_compareCaptureTimeout_done (hd : c.done = true) :
    exec (.compareCaptureTimeout e t) s = .next (closeCompares u e) := by
  rw [exec_compareCaptureTimeout hu, hc]
  simp only [hd, if_true]

theorem exec_compareCaptureTimeout_open (hd : c.done = false) :
    exec (.compareCaptureTimeout e t) s = .next (closeCompares (abandonCompare u e) e) := by
  rw [exec_compareCaptureTimeout hu, hc]
  simp only [hd, Bool.false_eq_true, if_false]

end

end

/-- The mirror regions that hold a MIRRORED extent. -/
def mirroredRegions (u : State) : List Nat :=
  (((u.alt.tab.filter (fun p => p.2.mirrored)).flatMap (fun p => regionsOf p.2)).foldl sins []).filter (mirrorRegion u)

/-- The comparison of the regions of the next 64 from `r` on is announced. -/
def announceFrom (u : State) (r : Nat) : State :=
  let last := ((mirroredRegions u).filter (fun x => r ≤ x && x < r + 64)).foldl max r
  announce (loopRan { u with exl := { u.exl with cursor := last + 1 } } 4) (nextEpoch u) r (last + 1 - r) none

theorem exec_compareSchedule : exec (.compareSchedule t) s = .next (
    if !inStep u || !leads u || !loopDue u true 4 1000000 10000000 then u
    else match ((mirroredRegions u).filter (u.exl.cursor ≤ ·) ++ mirroredRegions u).head? with
      | none => u
      | some r => announceFrom u r) := by
  subst hu
  rfl

theorem exec_compareSchedule_nothing
    (h : inStep u = false ∨ leads u = false ∨ loopDue u true 4 1000000 10000000 = false ∨ mirroredRegions u = []) :
    exec (.compareSchedule t) s = .next u := by
  rw [exec_compareSchedule hu]
  rcases h with h | h | h | h
  · rw [if_pos (by simp [h])]
  · rw [if_pos (by simp [h])]
  · rw [if_pos (by simp [h])]
  · rw [h]
    exact congrArg _ (ite_self u)

theorem exec_compareSchedule_announces {r : Nat} (hs : inStep u = true) (hl : leads u = true)
    (hd : loopDue u true 4 1000000 10000000 = true)
    (hr : ((mirroredRegions u).filter (u.exl.cursor ≤ ·) ++ mirroredRegions u).head? = some r) :
    exec (.compareSchedule t) s = .next (announceFrom u r) := by
  rw [exec_compareSchedule hu, if_neg (by simp [hs, hl, hd]), hr]

/-! ### The pace of a resync (R270, R271) -/

section
variable {busy : Bool}

theorem exec_resyncPacing : exec (.resyncPacing busy t) s = .next (if bothDown u then paceResync u true
    else if loopDue u false 6 1000 10000 then paceResync (loopRan u 6) busy else u) := by
  subst hu
  rfl

theorem exec_resyncPacing_down (h : bothDown u = true) : exec (.resyncPacing busy t) s = .next (paceResync u true) := by
  rw [exec_resyncPacing hu, if_pos h]

variable (h : bothDown u = false)
include h

theorem exec_resyncPacing_due (hd : loopDue u false 6 1000 10000 = true) :
    exec (.resyncPacing busy t) s = .next (paceResync (loopRan u 6) busy) := by
  rw [exec_resyncPacing hu, if_neg (Bool.eq_false_iff.mp h), if_pos hd]

theorem exec_resyncPacing_nothing (hd : loopDue u false 6 1000 10000 = false) : exec (.resyncPacing busy t) s = .next u := by
  rw [exec_resyncPacing hu, if_neg (Bool.eq_false_iff.mp h), if_neg (Bool.eq_false_iff.mp hd)]

end

theorem exec_resyncPauseEnd : exec (.resyncPauseEnd t) s = .next (
    if !u.exl.resyncPaused || u.now < u.exl.pausedAt + 1800000000 then u
    else paceResync { u with exl := { u.exl with resyncPaused := false } } false) := by
  subst hu
  rfl

theorem exec_resyncPauseEnd_nothing (h : u.exl.resyncPaused = false ∨ u.now < u.exl.pausedAt + 1800000000) :
    exec (.resyncPauseEnd t) s = .next u := by
  rw [exec_resyncPauseEnd hu, if_pos (by simpa using h)]

theorem exec_resyncPauseEnd_ends (hp : u.exl.resyncPaused = true) (hd : u.exl.pausedAt + 1800000000 ≤ u.now) :
    exec (.resyncPauseEnd t) s = .next (paceResync { u with exl := { u.exl with resyncPaused := false } } false) := by
  rw [exec_resyncPauseEnd hu, if_neg (by simp [hp, hd])]

end

/-- Settles O50: each timer by its rules above. -/
theorem twinTimers : Obligations.TwinTimers := by
  refine fun a v e busy t s u hu => ⟨fun hl => ⟨exec_heartbeatRecordIn_off hu hl, exec_heartbeatPublish_off hu hl,
      exec_pairEpochTick_off hu hl⟩, exec_heartbeatRecordIn_other_writer hu, fun n hl hpath hi => ⟨fun h => ?_, fun hp ht hf => ?_⟩,
    exec_heartbeatPublish_nothing hu, exec_heartbeatPublish_publishes hu,
    fun h => ⟨exec_claimTimeout_no_loss hu h, exec_takeoverTimeout_no_loss hu h⟩,
    fun x hx => ⟨exec_claimTimeout_fences hu hx, exec_claimTimeout_nothing hu hx, exec_takeoverTimeout_takes hu hx,
      exec_takeoverTimeout_nothing hu hx⟩,
    exec_pairEpochTick_early hu, exec_pairEpochTick_ticks hu,
    ⟨exec_compareCaptureTimeout_nothing hu, fun c => exec_compareCaptureTimeout_done hu,
      fun c => exec_compareCaptureTimeout_open hu⟩,
    ⟨exec_compareSchedule_nothing hu, fun r => exec_compareSchedule_announces hu⟩,
    ⟨exec_resyncPacing_down hu, exec_resyncPacing_due hu, exec_resyncPacing_nothing hu, exec_resyncPauseEnd_nothing hu,
      exec_resyncPauseEnd_ends hu⟩⟩
  · exact (exec_heartbeatRecordIn_board hu hl hpath hi).trans (congrArg _ (takeHeartbeat_refused h))
  · exact (exec_heartbeatRecordIn_board hu hl hpath hi).trans (congrArg _ (takeHeartbeat_taken hp ht hf))

end Sys2Proof.Machine

/-! The commands of the pack, the gauge and the rail tables (R294, R300, R309–R311, R317, R320, R321, R404): PACK_INFO,
GAUGE_READ, GAUGE_RAW and RAIL_TABLE_LOAD. -/

namespace Sys2Proof.Machine

open Sys2Proof

/-! ### PACK_INFO (R294, R309, R310, R317) -/

theorem exec_packInfo {c : TrellisCmd} {s v : State} {f : InFlight} (h : started 0x0400 c s = some (v, f)) :
    exec (.packInfo c) s = .next (cmdPackInfo f v) :=
  congrArg _ (submit_of_started cmdPackInfo h)

/-- The pack as PACK_INFO's result tells it. -/
def packResult (v : State) : List Byte :=
  le (((packId v).map (·.serial)).getD 0) 8 ++ le (packTable v) 1 ++ le (packCells v) 1
    ++ le (b2n v.gau.usable + 2 * b2n (packId v).isSome + 4 * b2n (protRead v) + 8 * b2n v.gau.swapped) 1
    ++ le (min 255 (packAge v / 31557600)) 1 ++ le (qLearn v / 1000) 4

section
variable {f : InFlight} {v : State}

theorem cmdPackInfo_eq : cmdPackInfo f v = if f.cmd.payLen != 0 && f.cmd.payLen < 64 then badParam v f.id 0x40
    else endOut v f.id (packResult v) (if f.cmd.payLen == 0 then [] else learnedBytes { v.gau.learned with qmC := qLearn v }) :=
  rfl

theorem cmdPackInfo_short_payload (h0 : 0 < f.cmd.payLen) (h : f.cmd.payLen < 64) : cmdPackInfo f v = badParam v f.id 0x40 := by
  rw [cmdPackInfo_eq, if_pos (by simp [Nat.pos_iff_ne_zero.mp h0, h])]

theorem cmdPackInfo_no_payload (h : f.cmd.payLen = 0) : cmdPackInfo f v = endOut v f.id (packResult v) [] := by
  rw [cmdPackInfo_eq, if_neg (by simp [h]), if_pos (beq_iff_eq.mpr h)]

theorem cmdPackInfo_record (h : 64 ≤ f.cmd.payLen) :
    cmdPackInfo f v = endOut v f.id (packResult v) (learnedBytes { v.gau.learned with qmC := qLearn v }) := by
  have h0 : f.cmd.payLen ≠ 0 := by omega
  rw [cmdPackInfo_eq, if_neg (by simp [h]), if_neg (by simpa using h0)]

end

/-! ### GAUGE_READ and GAUGE_RAW (R317) -/

theorem exec_gaugeRead {c : TrellisCmd} {s v : State} {f : InFlight} (h : started 0x0401 c s = some (v, f)) :
    exec (.gaugeRead c) s = .next (cmdGaugeRead f v) :=
  congrArg _ (submit_of_started cmdGaugeRead h)

theorem exec_gaugeRaw {c : TrellisCmd} {s v : State} {f : InFlight} (h : started 0x0402 c s = some (v, f)) :
    exec (.gaugeRaw c) s = .next (cmdGaugeRaw f v) :=
  congrArg _ (submit_of_started cmdGaugeRaw h)

/-- GAUGE_RAW ends with the bursts that the ring still holds from FROM_SEQ on, as many as the payload has room for. -/
def gaugeRawEnds (f : InFlight) (v : State) : State :=
  let oldest := v.gau.ringSeq - v.gau.ring.length
  let start := min v.gau.ringSeq (max (pNum f.cmd 24 4) oldest)
  let k := min (f.cmd.payLen / 16) (v.gau.ringSeq - start)
  endOut v f.id (le k 4 ++ le (start + k) 4 ++ le (oldest - pNum f.cmd 24 4) 4 ++ zeros 4)
    (((v.gau.ring.reverse.drop (start - oldest)).take k).flatMap burstBytes)

section
variable {f : InFlight} {v : State}

theorem cmdGaugeRead_shown (h : v.gau.shown ≠ []) : cmdGaugeRead f v = endOk v f.id v.gau.shown := by
  rw [cmdGaugeRead, if_neg (by simpa using h)]

/-- Before the first update the values are read as they stand. -/
theorem cmdGaugeRead_live (h : v.gau.shown = []) : cmdGaugeRead f v = endOk v f.id (gaugeBytes v) := by
  rw [cmdGaugeRead, if_pos (by simp [h])]

theorem cmdGaugeRaw_eq : cmdGaugeRaw f v
    = if f.cmd.payLen < 16 || f.cmd.payLen % 16 != 0 then badParam v f.id 0x40 else gaugeRawEnds f v := rfl

theorem cmdGaugeRaw_bad_length (h : f.cmd.payLen < 16 ∨ f.cmd.payLen % 16 ≠ 0) : cmdGaugeRaw f v = badParam v f.id 0x40 := by
  rw [cmdGaugeRaw_eq, if_pos (by simpa using h)]

theorem cmdGaugeRaw_reads (h : 16 ≤ f.cmd.payLen) (hm : f.cmd.payLen % 16 = 0) : cmdGaugeRaw f v = gaugeRawEnds f v := by
  rw [cmdGaugeRaw_eq, if_neg (by simp [h, hm])]

end

/-! ### RAIL_TABLE_LOAD (R300, R320, R321, R404) -/

theorem exec_railTableLoad {c : TrellisCmd} {s v : State} {f : InFlight} (h : started 0x0501 c s = some (v, f)) :
    exec (.railTableLoad c) s = .next (cmdRailTableLoad f v) :=
  congrArg _ (submit_of_started cmdRailTableLoad h)

/-- The version of the rail table in force, as RAIL_TABLE_LOAD answers it: that of the table the next WAKING takes, if one
waits. -/
def tableVersion (w : State) : List Byte :=
  le (match w.psq.nextTable with | some t => t.version | none => w.psq.table.version) 2

/-- An image with a bad body: BAD_PARAM with a detail, and the version. -/
def badImage (v : State) (id detail : Nat) : State :=
  finish v id { status := 0x04, detail := detail, result := tableVersion v }

/-- The tables and curves of an OCV image taken into the gauge and kept in pair 3. -/
def ocvTaken (v : State) (body : List Byte) : State :=
  pairWrite { v with gau := { v.gau with
    ocv := (Config.ocvTables body).map (fun t => { number := t.1, points := t.2 }),
    kTempCurve := (Config.ocvCurves body).1, kAgeCurve := (Config.ocvCurves body).2 } } 3

/-- RAIL_TABLE_LOAD of the body of a good rail container. -/
def railBodyLoad (f : InFlight) (body : List Byte) (v : State) : State :=
  if !railHeaderOk body then badImage v f.id 0x40
  else match firstBad body with
    | some n => badImage v f.id (0x40 + fld n 16 16)
    | none => endOk (loadRailTable v (railTableOf body)) f.id (tableVersion (loadRailTable v (railTableOf body)))

section
variable {f : InFlight} {v : State} {b : List Byte}

theorem ocvLoad_eq : ocvLoad f b v = if !containerOk v 0x11 b then endWith v f.id 0x0B 0
    else if !ocvOk (Config.ocvTables (container b).body) (Config.ocvCurves (container b).body) then badImage v f.id 0x40
    else endOk (ocvTaken v (container b).body) f.id (tableVersion v) := rfl

theorem ocvLoad_bad_container (h : containerOk v 0x11 b = false) : ocvLoad f b v = endWith v f.id 0x0B 0 := by
  rw [ocvLoad_eq, if_pos (by rw [h]; rfl)]

theorem ocvLoad_bad_body (h : containerOk v 0x11 b = true)
    (ho : ocvOk (Config.ocvTables (container b).body) (Config.ocvCurves (container b).body) = false) :
    ocvLoad f b v = badImage v f.id 0x40 := by
  rw [ocvLoad_eq, if_neg (by simp [h]), if_pos (by rw [ho]; rfl)]

theorem ocvLoad_takes (h : containerOk v 0x11 b = true)
    (ho : ocvOk (Config.ocvTables (container b).body) (Config.ocvCurves (container b).body) = true) :
    ocvLoad f b v = endOk (ocvTaken v (container b).body) f.id (tableVersion v) := by
  rw [ocvLoad_eq, if_neg (by simp [h]), if_neg (by simp [ho])]

theorem cmdRailTableLoad_eq : cmdRailTableLoad f v
    = if (container (payIn f.cmd)).typ == 0x11 then ocvLoad f (payIn f.cmd) v
      else if !containerOk v 0x10 (payIn f.cmd) then endWith v f.id 0x0B 0
      else railBodyLoad f (container (payIn f.cmd)).body v := by rfl

theorem cmdRailTableLoad_ocv (h : (container (payIn f.cmd)).typ = 0x11) :
    cmdRailTableLoad f v = ocvLoad f (payIn f.cmd) v := by
  rw [cmdRailTableLoad_eq, if_pos (beq_iff_eq.mpr h)]

theorem cmdRailTableLoad_rail_bad_container (ht : (container (payIn f.cmd)).typ ≠ 0x11)
    (h : containerOk v 0x10 (payIn f.cmd) = false) : cmdRailTableLoad f v = endWith v f.id 0x0B 0 := by
  rw [cmdRailTableLoad_eq, if_neg (by simpa using ht), if_pos (by rw [h]; rfl)]

theorem cmdRailTableLoad_rail (ht : (container (payIn f.cmd)).typ ≠ 0x11) (h : containerOk v 0x10 (payIn f.cmd) = true) :
    cmdRailTableLoad f v = railBodyLoad f (container (payIn f.cmd)).body v := by
  rw [cmdRailTableLoad_eq, if_neg (by simpa using ht), if_neg (by simp [h])]

theorem railBodyLoad_bad_header (h : railHeaderOk b = false) : railBodyLoad f b v = badImage v f.id 0x40 := by
  rw [railBodyLoad, if_pos (by rw [h]; rfl)]

theorem railBodyLoad_bad_slot {n : Nat} (h : railHeaderOk b = true) (hb : firstBad b = some n) :
    railBodyLoad f b v = badImage v f.id (0x40 + fld n 16 16) := by
  rw [railBodyLoad, if_neg (by simp [h]), hb]

theorem railBodyLoad_takes (h : railHeaderOk b = true) (hb : firstBad b = none) : railBodyLoad f b v
    = endOk (loadRailTable v (railTableOf b)) f.id (tableVersion (loadRailTable v (railTableOf b))) := by
  rw [railBodyLoad, if_neg (by simp [h]), hb]

end

/-- Settles O52: each command by its checks in order; RAIL_TABLE_LOAD by the type of its container first. -/
theorem gaugeCommands : Obligations.GaugeCommands := by
  refine ⟨fun c s v f hst => ?_, fun c s v f hst => ?_, fun c s v f hst => ?_,
    fun c s v f hst => ⟨fun ht => ?_, fun ht => ?_⟩⟩
  · rw [exec_packInfo hst]
    exact ⟨fun h0 h => congrArg _ (cmdPackInfo_short_payload h0 h), fun h => congrArg _ (cmdPackInfo_no_payload h),
      fun h => congrArg _ (cmdPackInfo_record h)⟩
  · rw [exec_gaugeRead hst]
    exact ⟨fun h => congrArg _ (cmdGaugeRead_shown h), fun h => congrArg _ (cmdGaugeRead_live h)⟩
  · rw [exec_gaugeRaw hst]
    exact ⟨fun h => congrArg _ (cmdGaugeRaw_bad_length h), fun h hm => congrArg _ (cmdGaugeRaw_reads h hm)⟩
  · rw [exec_railTableLoad hst, cmdRailTableLoad_ocv ht]
    exact ⟨fun h => congrArg _ (ocvLoad_bad_container h), fun h ho => congrArg _ (ocvLoad_bad_body h ho),
      fun h ho => congrArg _ (ocvLoad_takes h ho)⟩
  · rw [exec_railTableLoad hst]
    refine ⟨fun h => congrArg _ (cmdRailTableLoad_rail_bad_container ht h), fun h hh => ?_, fun n h hh hb => ?_,
      fun h hh hb => ?_⟩
    all_goals rw [cmdRailTableLoad_rail ht h]
    · exact congrArg _ (railBodyLoad_bad_header hh)
    · exact congrArg _ (railBodyLoad_bad_slot hh hb)
    · exact congrArg _ (railBodyLoad_takes hh hb)

end Sys2Proof.Machine

/-! Rehearsals (R310, R312–R314, R317, R432, log entries 62, 63 and 67): REHEARSAL_RUN, the start of one that is due, the ends of
its phases and its time limit. -/

namespace Sys2Proof.Machine

open Sys2Proof

/-! ### REHEARSAL_RUN (R317) -/

theorem exec_rehearsalRun {c : TrellisCmd} {s v : State} {f : InFlight} (h : started 0x0403 c s = some (v, f)) :
    exec (.rehearsalRun c) s = .next (cmdRehearsalRun f v) :=
  congrArg _ (submit_of_started cmdRehearsalRun h)

section
variable {f : InFlight} {v : State}

theorem cmdRehearsalRun_refused {st d : Nat} (h : rehRefusal v = some (st, d)) :
    cmdRehearsalRun f v = endWith v f.id st d := by
  rw [cmdRehearsalRun, h]

theorem cmdRehearsalRun_starts (h : rehRefusal v = none) :
    cmdRehearsalRun f v = startRehearsal (setJob v f.id .rehearsal) false (bit (pByte f.cmd 24) 0) (some f.id) := by
  rw [cmdRehearsalRun, h]

end

/-! ### A rehearsal that is due (R310, R432) -/

/-- A rehearsal that is due is noted, and a new day starts the count of its retries anew. -/
def rehNoted (u : State) : State :=
  { u with ist := { u.ist with
    dueAt := some (u.ist.dueAt.getD u.now), retryDay := opSecs u / 86400,
    retries := if u.ist.retryDay == opSecs u / 86400 then u.ist.retries else 0 } }

/-- A due rehearsal may start now: as a retry, in the quiet hour, or a day late. -/
def rehHour (w : State) : Prop :=
  match w.ist.retryAt with
  | some x => x ≤ w.now ∧ w.ist.retries ≤ 3
  | none => quietHour w = some (opSecs w / 3600 % 24) ∨ w.ist.dueAt.getD w.now + 86400000000 ≤ w.now

/-- `rehHour` as REHEARSAL_DUE computes it. -/
def rehHourB (w : State) : Bool :=
  match w.ist.retryAt with
  | some x => decide (x ≤ w.now) && decide (w.ist.retries ≤ 3)
  | none => quietHour w == some (opSecs w / 3600 % 24) || decide (w.ist.dueAt.getD w.now + 86400000000 ≤ w.now)

theorem rehHourB_iff (w : State) : rehHourB w = true ↔ rehHour w := by
  unfold rehHourB rehHour
  cases w.ist.retryAt with
  | none => simp
  | some x => simp

section
variable {t : Nat} {s u : State} (hu : u = tick s t)
include hu

theorem exec_rehearsalDue : exec (.rehearsalDue t) s = .next (
    if !rehIsDue u then { u with ist := { u.ist with dueAt := none } }
    else if (rehNoted u).ist.pausedTill.isNone && rehHourB (rehNoted u) && (rehRefusal (rehNoted u)).isNone then
      startRehearsal { rehNoted u with ist := { (rehNoted u).ist with retryAt := none } } true false none
    else rehNoted u) := by
  subst hu
  rfl

theorem exec_rehearsalDue_not_due (h : rehIsDue u = false) :
    exec (.rehearsalDue t) s = .next { u with ist := { u.ist with dueAt := none } } := by
  rw [exec_rehearsalDue hu, if_pos (by rw [h]; rfl)]

variable (hd : rehIsDue u = true)
include hd

theorem exec_rehearsalDue_starts (hp : (rehNoted u).ist.pausedTill = none) (hh : rehHour (rehNoted u))
    (hr : rehRefusal (rehNoted u) = none) : exec (.rehearsalDue t) s
      = .next (startRehearsal { rehNoted u with ist := { (rehNoted u).ist with retryAt := none } } true false none) := by
  rw [exec_rehearsalDue hu, if_neg (by simp [hd]), if_pos (by simp [hp, (rehHourB_iff _).mpr hh, hr])]

theorem exec_rehearsalDue_waits
    (h : (rehNoted u).ist.pausedTill ≠ none ∨ ¬ rehHour (rehNoted u) ∨ rehRefusal (rehNoted u) ≠ none) :
    exec (.rehearsalDue t) s = .next (rehNoted u) := by
  rw [exec_rehearsalDue hu, if_neg (by simp [hd]), if_neg]
  simp only [Bool.and_eq_true, Option.isNone_iff_eq_none, rehHourB_iff]
  tauto

end

/-! ### The phases (R312–R314) -/

/-- The wear of a phase that programs the borrowed superblocks. -/
def rehWorn (u : State) (r : Rehearsal) (moved : Nat) : State :=
  if r.phase == 1 || r.phase == 2 then wear u (moved / 16384) true else u

/-- The phase after that of `r` starts, with nothing summed yet. -/
def rehNext (v : State) (r : Rehearsal) : Rehearsal :=
  { r with phase := r.phase + 1, phaseAt := v.now, energy := 0, charge := 0, first := none }

/-- The rehearsal under way is now `x`. -/
def rehGoes (v : State) (x : Rehearsal) : State := { v with gau := { v.gau with reh := some x } }

/-- The next phase starts, with the floor component of the one that ends. -/
def rehFloors (v : State) (r : Rehearsal) (moved : Nat) : State :=
  rehGoes v { rehNext v r with floors := r.floors ++ [rehComponent v r moved] }

/-- The phase under way ends after `us` µs and records its figure. -/
def rehPhaseEnds (v : State) (r : Rehearsal) (moved us : Nat) : State :=
  match r.phase with
  | 0 => rehGoes v { rehNext v r with p0 := (r.energy / (us * 1000000000 : Nat)).toNat }
  | 1 => rehGoes v { rehNext v r with
      eByte := (r.energy * 2 ^ 30 / (moved * 10 ^ 15 : Nat)).toNat, ih := r.charge / (us * 1000 : Nat) }
  | 2 => rehFloors v r moved
  | 3 => rehFloors v r moved
  | 4 => rehHandBack (rehFloors v r moved) r
  | _ => rehComplete v r

section
variable {v : State} {r : Rehearsal} {moved us : Nat}

theorem rehPhaseEnds_baseline (h : r.phase = 0) : rehPhaseEnds v r moved us
    = rehGoes v { rehNext v r with p0 := (r.energy / (us * 1000000000 : Nat)).toNat } := by
  simp only [rehPhaseEnds, h]

theorem rehPhaseEnds_cut (h : r.phase = 1) : rehPhaseEnds v r moved us = rehGoes v { rehNext v r with
    eByte := (r.energy * 2 ^ 30 / (moved * 10 ^ 15 : Nat)).toNat, ih := r.charge / (us * 1000 : Nat) } := by
  simp only [rehPhaseEnds, h]

theorem rehPhaseEnds_floor (h : r.phase = 2 ∨ r.phase = 3) : rehPhaseEnds v r moved us = rehFloors v r moved := by
  rcases h with h | h
  · simp only [rehPhaseEnds, h]
  · simp only [rehPhaseEnds, h]

theorem rehPhaseEnds_hand_back (h : r.phase = 4) : rehPhaseEnds v r moved us = rehHandBack (rehFloors v r moved) r := by
  simp only [rehPhaseEnds, h]

theorem rehPhaseEnds_complete (h : 5 ≤ r.phase) : rehPhaseEnds v r moved us = rehComplete v r := by
  obtain ⟨n, hn⟩ := Nat.exists_eq_add_of_le' h
  simp only [rehPhaseEnds, hn]

end

section
variable {moved t : Nat} {s u : State} (hu : u = tick s t)
include hu

theorem exec_rehearsalPhaseEnd : exec (.rehearsalPhaseEnd moved t) s = .next (match u.gau.reh with
    | none => u
    | some r => if !phaseOver u r || (r.phase == 5 && !u.psq.good.contains (srcSlot u)) then u
      else rehPhaseEnds (rehWorn u r moved) r moved (u.now - r.phaseAt)) := by
  subst hu
  rfl

theorem exec_rehearsalTimeLimit : exec (.rehearsalTimeLimit t) s = .next (match u.gau.reh with
    | none => u
    | some r => if r.phase < 5 && decide (r.since + 2000000 ≤ u.now) then rehAbort u 5 else u) := by
  subst hu
  rfl

theorem exec_rehearsalPhaseEnd_none (h : u.gau.reh = none) : exec (.rehearsalPhaseEnd moved t) s = .next u := by
  rw [exec_rehearsalPhaseEnd hu, h]

theorem exec_rehearsalTimeLimit_none (h : u.gau.reh = none) : exec (.rehearsalTimeLimit t) s = .next u := by
  rw [exec_rehearsalTimeLimit hu, h]

variable {r : Rehearsal} (hr : u.gau.reh = some r)
include hr

theorem exec_rehearsalTimeLimit_aborts (hp : r.phase < 5) (hl : r.since + 2000000 ≤ u.now) :
    exec (.rehearsalTimeLimit t) s = .next (rehAbort u 5) := by
  simp only [exec_rehearsalTimeLimit hu, hr]
  rw [if_pos (by simp [hp, hl])]

theorem exec_rehearsalTimeLimit_nothing (h : 5 ≤ r.phase ∨ u.now < r.since + 2000000) :
    exec (.rehearsalTimeLimit t) s = .next u := by
  simp only [exec_rehearsalTimeLimit hu, hr]
  rw [if_neg]
  simp only [Bool.and_eq_true, decide_eq_true_eq]
  omega

theorem exec_rehearsalPhaseEnd_nothing
    (h : phaseOver u r = false ∨ (r.phase = 5 ∧ u.psq.good.contains (srcSlot u) = false)) :
    exec (.rehearsalPhaseEnd moved t) s = .next u := by
  simp only [exec_rehearsalPhaseEnd hu, hr]
  rw [if_pos (by simpa using h)]

theorem exec_rehearsalPhaseEnd_ends (ho : phaseOver u r = true) (hg : r.phase = 5 → u.psq.good.contains (srcSlot u) = true) :
    exec (.rehearsalPhaseEnd moved t) s = .next (rehPhaseEnds (rehWorn u r moved) r moved (u.now - r.phaseAt)) := by
  simp only [exec_rehearsalPhaseEnd hu, hr]
  rw [if_neg (by simpa [ho] using hg)]

end

end Sys2Proof.Machine

/-! The commands of the background test (R431, R432, R434, R435, R50, log entry 68): TEST_SCHEDULE and TEST_RESULT. -/

namespace Sys2Proof.Machine

open Sys2Proof

/-! ### TEST_SCHEDULE (R434) -/

theorem exec_testSchedule {c : TrellisCmd} {s v : State} {f : InFlight} (h : started 0x0A00 c s = some (v, f)) :
    exec (.testSchedule c) s = .next (cmdTestSchedule f v) :=
  congrArg _ (submit_of_started cmdTestSchedule h)

/-- ITEM is one that ACTION takes: an item of Table 16.2 or all of them, and the rehearsal neither to run nor with a period. -/
def ItemNamed (f : InFlight) : Prop :=
  (pByte f.cmd 25 ≤ 6 ∨ pByte f.cmd 25 = 0xFF) ∧ (pByte f.cmd 24 < 2 → pByte f.cmd 25 ≠ 6)

/-- TEST_SCHEDULE starts the named items as its own run. -/
def itemsStart (f : InFlight) (v : State) : State :=
  (itemsOf (pByte f.cmd 25)).foldl (fun s n => setItem s n { istItem s n with units := [], now := some f.id, nowFail := none })
    (setJob v f.id (.weed (pByte f.cmd 25)))

/-- The named items have the period HOURS. -/
def itemsPeriod (f : InFlight) (v : State) : State :=
  (itemsOf (pByte f.cmd 25)).foldl (fun s n => setItem s n { istItem s n with period := pNum f.cmd 28 4 }) v

/-- The pause of the background test, until a time or over. -/
def pauseSet (v : State) (till : Option Nat) : State := { v with ist := { v.ist with pausedTill := till } }

/-- TEST_SCHEDULE with ACTION and ITEM in range: run, set a period, pause, end the pause. -/
def scheduleActs (f : InFlight) (v : State) : State :=
  match pByte f.cmd 24 with
  | 0 => if (itemsOf (pByte f.cmd 25)).any (fun n => (istItem v n).now.isSome) then conflict v f.id 0x10 else itemsStart f v
  | 1 => if pNum f.cmd 28 4 < 1 || 24 < pNum f.cmd 28 4 then badParam v f.id 28
    else endOk (saveConfig (itemsPeriod f v)) f.id []
  | 2 => if pNum f.cmd 32 4 < 1 || 1440 < pNum f.cmd 32 4 then badParam v f.id 32
    else endOk (pauseSet v (some (v.now + pNum f.cmd 32 4 * 60000000))) f.id []
  | _ => endOk (pauseSet v none) f.id []

section
variable {f : InFlight} {v : State}

theorem cmdTestSchedule_eq : cmdTestSchedule f v
    = if 3 < pByte f.cmd 24 then badParam v f.id 24
      else if (6 < pByte f.cmd 25 && pByte f.cmd 25 != 0xFF) || (pByte f.cmd 24 < 2 && pByte f.cmd 25 == 6) then badParam v f.id 25
      else scheduleActs f v := by rfl

theorem cmdTestSchedule_bad_action (h : 3 < pByte f.cmd 24) : cmdTestSchedule f v = badParam v f.id 24 := by
  rw [cmdTestSchedule_eq, if_pos h]

/-- The test that refuses ITEM is the negation of `ItemNamed`. -/
theorem item_refused_iff (f : InFlight) : ((6 < pByte f.cmd 25 && pByte f.cmd 25 != 0xFF)
    || (pByte f.cmd 24 < 2 && pByte f.cmd 25 == 6)) = true ↔ ¬ ItemNamed f := by
  simp only [ItemNamed, Bool.or_eq_true, Bool.and_eq_true, decide_eq_true_eq, bne_iff_ne, beq_iff_eq]
  omega

theorem cmdTestSchedule_bad_item (ha : pByte f.cmd 24 ≤ 3) (h : ¬ ItemNamed f) : cmdTestSchedule f v = badParam v f.id 25 := by
  rw [cmdTestSchedule_eq, if_neg (Nat.not_lt.mpr ha), if_pos ((item_refused_iff f).mpr h)]

section
variable (h : ItemNamed f)
include h

theorem cmdTestSchedule_acts (ha : pByte f.cmd 24 ≤ 3) : cmdTestSchedule f v = scheduleActs f v := by
  rw [cmdTestSchedule_eq, if_neg (Nat.not_lt.mpr ha), if_neg (mt (item_refused_iff f).mp (not_not_intro h))]

theorem cmdTestSchedule_run (ha : pByte f.cmd 24 = 0) : cmdTestSchedule f v
    = if (itemsOf (pByte f.cmd 25)).any (fun n => (istItem v n).now.isSome) then conflict v f.id 0x10 else itemsStart f v := by
  simp only [cmdTestSchedule_acts h (ha.trans_le (by decide)), scheduleActs, ha]

theorem cmdTestSchedule_period (ha : pByte f.cmd 24 = 1) : cmdTestSchedule f v
    = if pNum f.cmd 28 4 < 1 || 24 < pNum f.cmd 28 4 then badParam v f.id 28
      else endOk (saveConfig (itemsPeriod f v)) f.id [] := by
  simp only [cmdTestSchedule_acts h (ha.trans_le (by decide)), scheduleActs, ha]

theorem cmdTestSchedule_pause (ha : pByte f.cmd 24 = 2) : cmdTestSchedule f v
    = if pNum f.cmd 32 4 < 1 || 1440 < pNum f.cmd 32 4 then badParam v f.id 32
      else endOk (pauseSet v (some (v.now + pNum f.cmd 32 4 * 60000000))) f.id [] := by
  simp only [cmdTestSchedule_acts h (ha.trans_le (by decide)), scheduleActs, ha]

theorem cmdTestSchedule_ends_pause (ha : pByte f.cmd 24 = 3) : cmdTestSchedule f v = endOk (pauseSet v none) f.id [] := by
  simp only [cmdTestSchedule_acts h (ha.trans_le (by decide)), scheduleActs, ha]

theorem cmdTestSchedule_running (ha : pByte f.cmd 24 = 0)
    (hn : (itemsOf (pByte f.cmd 25)).any (fun n => (istItem v n).now.isSome) = true) :
    cmdTestSchedule f v = conflict v f.id 0x10 := by
  rw [cmdTestSchedule_run h ha, if_pos hn]

theorem cmdTestSchedule_starts (ha : pByte f.cmd 24 = 0)
    (hn : (itemsOf (pByte f.cmd 25)).any (fun n => (istItem v n).now.isSome) = false) : cmdTestSchedule f v = itemsStart f v := by
  rw [cmdTestSchedule_run h ha, if_neg (Bool.eq_false_iff.mp hn)]

theorem cmdTestSchedule_bad_period (ha : pByte f.cmd 24 = 1) (hh : pNum f.cmd 28 4 < 1 ∨ 24 < pNum f.cmd 28 4) :
    cmdTestSchedule f v = badParam v f.id 28 := by
  rw [cmdTestSchedule_period h ha, if_pos (by simpa using hh)]

theorem cmdTestSchedule_sets_period (ha : pByte f.cmd 24 = 1) (h1 : 1 ≤ pNum f.cmd 28 4) (h24 : pNum f.cmd 28 4 ≤ 24) :
    cmdTestSchedule f v = endOk (saveConfig (itemsPeriod f v)) f.id [] := by
  rw [cmdTestSchedule_period h ha, if_neg (by simp [h24, Nat.pos_iff_ne_zero.mp h1])]

theorem cmdTestSchedule_bad_pause (ha : pByte f.cmd 24 = 2) (hm : pNum f.cmd 32 4 < 1 ∨ 1440 < pNum f.cmd 32 4) :
    cmdTestSchedule f v = badParam v f.id 32 := by
  rw [cmdTestSchedule_pause h ha, if_pos (by simpa using hm)]

theorem cmdTestSchedule_pauses (ha : pByte f.cmd 24 = 2) (h1 : 1 ≤ pNum f.cmd 32 4) (hm : pNum f.cmd 32 4 ≤ 1440) :
    cmdTestSchedule f v = endOk (pauseSet v (some (v.now + pNum f.cmd 32 4 * 60000000))) f.id [] := by
  rw [cmdTestSchedule_pause h ha, if_neg (by simp [hm, Nat.pos_iff_ne_zero.mp h1])]

end

end

/-! ### TEST_RESULT (R435, R50) -/

theorem exec_testResult {c : TrellisCmd} {s v : State} {f : InFlight} (h : started 0x0A01 c s = some (v, f)) :
    exec (.testResult c) s = .next (cmdTestResult f v) :=
  congrArg _ (submit_of_started cmdTestResult h)

/-- TEST_RESULT ends with the counts of an item. -/
def itemCountsEnd (f : InFlight) (v : State) (n : Nat) : State :=
  endOk v f.id (le (istItem v n).passed 4 ++ le (istItem v n).failed 4 ++ le (itemAge v n) 2
    ++ le (b2n (istItem v n).late + fld (b2n v.ist.pausedTill.isSome) 1 1) 1 ++ zeros 1
    ++ le ((istItem v n).lastFail.getD 0xFFFFFFFF) 4)

/-- A read of the raw ring by the owner of function 6 is an input of that function. -/
def rawReader (f : InFlight) (v : State) : State := if owns v f.cmd.est 6 then assistInput v 6 else v

/-- TEST_RESULT of a KIND in range. -/
def resultRead (f : InFlight) (v : State) : State :=
  if pByte f.cmd 25 == 0 then
    if 6 < pByte f.cmd 24 then badParam v f.id 24 else itemCountsEnd f v (pByte f.cmd 24)
  else if f.cmd.payLen < 64 || f.cmd.payLen % 64 != 0 then badParam v f.id 0x40
  else if pByte f.cmd 25 == 1 then ringOut f v.ist.sums v.ist.sumSeq v
  else ringOut f (rawReader f v).ist.raw (rawReader f v).ist.rawSeq (rawReader f v)

section
variable {f : InFlight} {v : State}

theorem cmdTestResult_eq : cmdTestResult f v
    = if pByte f.cmd 25 == 2 && issClass f.cmd.est == 0 && !owns v f.cmd.est 6 then endWith v f.id 0x05 0x05
      else if 2 < pByte f.cmd 25 then badParam v f.id 25
      else resultRead f v := by rfl

theorem cmdTestResult_not_owner (hk : pByte f.cmd 25 = 2) (hc : issClass f.cmd.est = 0) (ho : owns v f.cmd.est 6 = false) :
    cmdTestResult f v = endWith v f.id 0x05 0x05 := by
  rw [cmdTestResult_eq, if_pos (by simp [hk, hc, ho])]

theorem cmdTestResult_bad_kind (h : 2 < pByte f.cmd 25) : cmdTestResult f v = badParam v f.id 25 := by
  have hk : pByte f.cmd 25 ≠ 2 := by omega
  rw [cmdTestResult_eq, if_neg (by simp [hk]), if_pos h]

/-- Every issuer reads the counts and the summaries. -/
theorem cmdTestResult_open (hk : pByte f.cmd 25 < 2) : cmdTestResult f v = resultRead f v := by
  rw [cmdTestResult_eq, if_neg (by simp [hk.ne]), if_neg (Nat.not_lt.mpr hk.le)]

/-- The raw ring is read by an issuer that is no host, or owns function 6. -/
theorem cmdTestResult_raw (hk : pByte f.cmd 25 = 2) (hr : issClass f.cmd.est ≠ 0 ∨ owns v f.cmd.est 6 = true) :
    cmdTestResult f v = resultRead f v := by
  rw [cmdTestResult_eq, if_neg, if_neg (Nat.not_lt.mpr hk.le)]
  rcases hr with hr | hr
  · simp [hr]
  · simp [hr]

theorem resultRead_bad_item (hk : pByte f.cmd 25 = 0) (h : 6 < pByte f.cmd 24) : resultRead f v = badParam v f.id 24 := by
  rw [resultRead, if_pos (beq_iff_eq.mpr hk), if_pos h]

theorem resultRead_counts (hk : pByte f.cmd 25 = 0) (h : pByte f.cmd 24 ≤ 6) :
    resultRead f v = itemCountsEnd f v (pByte f.cmd 24) := by
  rw [resultRead, if_pos (beq_iff_eq.mpr hk), if_neg (Nat.not_lt.mpr h)]

theorem resultRead_bad_length (hk : pByte f.cmd 25 ≠ 0) (h : f.cmd.payLen < 64 ∨ f.cmd.payLen % 64 ≠ 0) :
    resultRead f v = badParam v f.id 0x40 := by
  rw [resultRead, if_neg (by simpa using hk), if_pos (by simpa using h)]

section
variable (hl : 64 ≤ f.cmd.payLen) (hm : f.cmd.payLen % 64 = 0)
include hl hm

theorem resultRead_sums (hk : pByte f.cmd 25 = 1) : resultRead f v = ringOut f v.ist.sums v.ist.sumSeq v := by
  rw [resultRead, if_neg (by simp [hk]), if_neg (by simp [hl, hm]), if_pos (beq_iff_eq.mpr hk)]

theorem resultRead_raw (hk : pByte f.cmd 25 = 2) :
    resultRead f v = ringOut f (rawReader f v).ist.raw (rawReader f v).ist.rawSeq (rawReader f v) := by
  rw [resultRead, if_neg (by simp [hk]), if_neg (by simp [hl, hm]), if_neg (by simp [hk])]

end

end

/-- Settles O54: REHEARSAL_RUN by its refusal, the due rehearsal by its hour, the end of a phase by the phase, TEST_SCHEDULE by its
action and TEST_RESULT by its kind. -/
theorem rehearsalsAndTests : Obligations.RehearsalsAndTests := by
  refine ⟨fun c s v f hst => ?_, fun moved t s u hu => ⟨exec_rehearsalDue_not_due hu,
      fun hd => ⟨exec_rehearsalDue_starts hu hd, exec_rehearsalDue_waits hu hd⟩,
      fun h => ⟨exec_rehearsalPhaseEnd_none hu h, exec_rehearsalTimeLimit_none hu h⟩,
      fun r hr => ⟨exec_rehearsalTimeLimit_aborts hu hr, exec_rehearsalTimeLimit_nothing hu hr,
        exec_rehearsalPhaseEnd_nothing hu hr, fun ho hg => ?_⟩⟩, fun c s v f hst => ?_, fun c s v f hst => ?_⟩
  · rw [exec_rehearsalRun hst]
    exact ⟨fun st d h => congrArg _ (cmdRehearsalRun_refused h), fun h => congrArg _ (cmdRehearsalRun_starts h)⟩
  · rw [exec_rehearsalPhaseEnd_ends hu hr ho hg]
    exact ⟨fun h => congrArg _ (rehPhaseEnds_baseline h), fun h => congrArg _ (rehPhaseEnds_cut h),
      fun h => congrArg _ (rehPhaseEnds_floor h), fun h => congrArg _ (rehPhaseEnds_hand_back h),
      fun h => congrArg _ (rehPhaseEnds_complete h)⟩
  · rw [exec_testSchedule hst]
    exact ⟨fun h => congrArg _ (cmdTestSchedule_bad_action h), fun ha h => congrArg _ (cmdTestSchedule_bad_item ha h),
      fun h ha hn => congrArg _ (cmdTestSchedule_running h ha hn), fun h ha hn => congrArg _ (cmdTestSchedule_starts h ha hn),
      fun h ha hh => congrArg _ (cmdTestSchedule_bad_period h ha hh),
      fun h ha h1 h24 => congrArg _ (cmdTestSchedule_sets_period h ha h1 h24),
      fun h ha hm => congrArg _ (cmdTestSchedule_bad_pause h ha hm),
      fun h ha h1 hm => congrArg _ (cmdTestSchedule_pauses h ha h1 hm),
      fun h ha => congrArg _ (cmdTestSchedule_ends_pause h ha)⟩
  · rw [exec_testResult hst]
    exact ⟨fun h => congrArg _ (cmdTestResult_bad_kind h), fun hk hc ho => congrArg _ (cmdTestResult_not_owner hk hc ho),
      fun hk h => congrArg _ ((cmdTestResult_open (by omega)).trans (resultRead_bad_item hk h)),
      fun hk h => congrArg _ ((cmdTestResult_open (by omega)).trans (resultRead_counts hk h)),
      fun hk h => congrArg _ ((cmdTestResult_open (by omega)).trans (resultRead_bad_length (by omega) h)),
      fun hk hl hm => congrArg _ ((cmdTestResult_open (by omega)).trans (resultRead_sums hl hm hk)),
      fun hk hr => ⟨fun h => congrArg _ ((cmdTestResult_raw hk hr).trans (resultRead_bad_length (by omega) h)),
        fun hl hm => congrArg _ ((cmdTestResult_raw hk hr).trans (resultRead_raw hl hm hk))⟩⟩

end Sys2Proof.Machine

/-! The rail events of the sequencer (R322, R323, R325–R327, R332, R334, R338, R191): slots enabled, come good, ramp out and go
off, rail faults and scans, the held record, and the slave sequencers. -/

namespace Sys2Proof.Machine

open Sys2Proof

/-! ### Which slot may be enabled (R322, R332) -/

theorem lateSlot_iff {s : State} {n : Nat} :
    lateSlot s n = true ↔ (railSlot s n).cls = 3 ∧ (s.dev.state = .training ∨ serving s = true) := by
  simp [lateSlot]

/-- The domain switch under way, an on switch, may step slot `n`. -/
def switchSteps (s : State) (n : Nat) : Bool :=
  match s.psq.sw with | some w => w.on && mayStep s w n | none => false

theorem switchSteps_iff {s : State} {n : Nat} :
    switchSteps s n = true ↔ ∃ w, s.psq.sw = some w ∧ w.on = true ∧ mayStep s w n = true := by
  cases h : s.psq.sw <;> simp [switchSteps, h]

/-- Slot `n` is enabled: it may be, and a start, its late turn or a switch asks for it. -/
def enables (s : State) (n : Nat) : Bool :=
  mayEnable s n && (s.dev.state == .railsUp || lateSlot s n || switchSteps s n)

theorem enables_iff {s : State} {n : Nat} : enables s n = true ↔ mayEnable s n = true ∧ (s.dev.state = .railsUp
    ∨ ((railSlot s n).cls = 3 ∧ (s.dev.state = .training ∨ serving s = true))
    ∨ ∃ w, s.psq.sw = some w ∧ w.on = true ∧ mayStep s w n = true) := by
  simp [enables, lateSlot_iff, switchSteps_iff, or_assoc]

/-! ### A slot that comes good (R322) -/

/-- No domain switch is under way, and every slot of domain `d` is good. -/
def WholeDomain (v : State) (d : Nat) : Prop :=
  v.psq.sw = none ∧ d ≠ 0 ∧ (domainSlots v d).all (fun m => v.psq.good.contains m) = true

/-- A domain all of whose slots are good without a switch is on. -/
def domainNoted (v : State) (d : Nat) : State :=
  if v.psq.sw.isNone && d != 0 && (domainSlots v d).all (fun m => v.psq.good.contains m) then setDomain v d 1 else v

theorem domainNoted_of_whole {v : State} {d : Nat} (h : WholeDomain v d) : domainNoted v d = setDomain v d 1 :=
  if_pos (by obtain ⟨hsw, hd, hall⟩ := h; rw [hsw, hall]; simpa using hd)

theorem domainNoted_of_not_whole {v : State} {d : Nat} (h : ¬ WholeDomain v d) : domainNoted v d = v :=
  if_neg fun hc => h (by simpa only [WholeDomain, Bool.and_eq_true, Option.isNone_iff_eq_none, bne_iff_ne, and_assoc] using hc)

/-- The start or the domain switch goes on. -/
def powerUpStep (v : State) : State := if v.dev.state == .railsUp then railsStep v else switchStep v

theorem powerUpStep_of_railsUp {v : State} (h : v.dev.state = .railsUp) : powerUpStep v = railsStep v :=
  if_pos (beq_iff_eq.mpr h)

theorem powerUpStep_of_other {v : State} (h : v.dev.state ≠ .railsUp) : powerUpStep v = switchStep v :=
  if_neg (by simpa using h)

/-! ### A slot that ramps out (R322, R332) -/

/-- The on switch of slot `n`'s domain that is under way, if one is. -/
def switchingOn (s : State) (n : Nat) : Option DomSw :=
  s.psq.sw.filter (fun w => w.on && (railSlot s n).domain == w.domain)

/-- Slot `n` has not become good in its ramp time: its switch fails, it is a fault of the start, or the device harvests. -/
def rampsOut (s : State) (n : Nat) : State :=
  match switchingOn s n with
  | some w => domainFail s w
  | none =>
    if s.dev.state == .railsUp || lateSlot s n then
      raiseCause (noteFault s 3 n (tgetD s.psq.codes n 0) true) 0x188 .fatal
    else if serving s && (railSlot s n).domain == 0 then notice (enterHarvesting s .powerFail []) 0 false
    else s

section
variable {s : State} {n : Nat}

theorem switchingOn_iff {w : DomSw} :
    switchingOn s n = some w ↔ s.psq.sw = some w ∧ w.on = true ∧ (railSlot s n).domain = w.domain := by
  simp [switchingOn, Option.filter_eq_some_iff]

theorem rampsOut_of_switching {w : DomSw} (h : switchingOn s n = some w) : rampsOut s n = domainFail s w := by
  simp only [rampsOut, h]

variable (hsw : switchingOn s n = none)
include hsw

theorem rampsOut_of_start (h : s.dev.state = .railsUp ∨ lateSlot s n = true) :
    rampsOut s n = raiseCause (noteFault s 3 n (tgetD s.psq.codes n 0) true) 0x188 .fatal := by
  simp only [rampsOut, hsw]
  exact if_pos (by simpa using h)

theorem rampsOut_of_serving (hl : lateSlot s n = false) (hs : serving s = true) (hd : (railSlot s n).domain = 0) :
    rampsOut s n = notice (enterHarvesting s .powerFail []) 0 false := by
  have hr : s.dev.state ≠ .railsUp := by rcases serving_iff.mp hs with h | h | h <;> simp [h]
  simp only [rampsOut, hsw]
  rw [if_neg (by simp [hr, hl]), if_pos (by simp [hs, hd])]

theorem rampsOut_nothing (hl : lateSlot s n = false) (hr : s.dev.state ≠ .railsUp)
    (h : serving s = false ∨ (railSlot s n).domain ≠ 0) : rampsOut s n = s := by
  simp only [rampsOut, hsw]
  rw [if_neg (by simp [hr, hl]), if_neg (by rcases h with h | h <;> simp [h])]

end

/-! ### Scans and the held record (R191, R325) -/

section
variable {s : State} {n code : Nat}

theorem heldExcursion_psq : (heldExcursion s n).psq = s.psq := by
  unfold heldExcursion
  split <;> rfl

theorem heldExcursion_nothing (h : s.dev.state ≠ .held ∨ n = 0 ∨ (railSlot s n).hold = false) : heldExcursion s n = s :=
  if_neg (by rcases h with h | h | h <;> simp [h])

theorem heldExcursion_noted (hst : s.dev.state = .held) (hn : n ≠ 0) (hh : (railSlot s n).hold = true) :
    heldExcursion s n
      = { s with hrv := { s.hrv with heldRec := s.hrv.heldRec.map (fun r => heldKept { r with excursion := true }) } } :=
  if_pos (by simp [hst, hn, hh])

theorem outside_iff : outside s n code = true
    ↔ (railSlot s n).cls ≠ 0 ∧ (code < (railSlot s n).uv ∨ (railSlot s n).ov < code) := by
  simp [outside]

/-- A code inside the slot's limits is kept and ends its time outside. -/
theorem scanSlot_inside (hcode : code ≤ 1023) (h : outside s n code = false) :
    (scanSlot s n code).psq.outside = sdel s.psq.outside n ∧ (scanSlot s n code).psq.codes = tset s.psq.codes n code := by
  have hhit : scanFaults s n code s.now = false := by simp [scanFaults, h]
  simp [scanSlot, hhit, h, Nat.min_eq_left hcode]

/-- A scanned slot outside its limits for its glitch time faults, with its code kept. -/
theorem scanSlot_faults (hout : outside s n code = true) (hscan : scanned s n = true)
    (hdue : tgetD s.psq.outSince n s.now + (railSlot s n).glitch ≤ s.now) :
    ∃ w, scanSlot s n code = railFault w n (if (railSlot s n).ov < code then 2 else 1) (min code 1023)
      ∧ w.psq.outside = sins s.psq.outside n ∧ w.psq.codes = tset s.psq.codes n (min code 1023) := by
  have hhit : scanFaults s n code s.now = true := by simp [scanFaults, hout, hscan, hdue]
  refine ⟨_, if_pos hhit, ?_, ?_⟩
  · rw [heldExcursion_psq]
    exact if_pos hout
  · rw [heldExcursion_psq]

end

/-- A scan pass takes the code of each slot in turn. -/
def scanCodes (u : State) (codes : List Nat) : State :=
  (List.range 24).foldl (fun s m => match codes[m]? with | some c => scanSlot s m c | none => s) u

/-! ### Slave sequencers (R334) -/

/-- The answer of a slave, kept; the slave is no longer lost. -/
def slaveAnswered (u : State) (slave word : Nat) : State :=
  { u with psq := { u.psq with
    slaveFails := tdel u.psq.slaveFails slave, slaveLost := sdel u.psq.slaveLost slave,
    slaveStatus := tset u.psq.slaveStatus slave (word % 65536) } }

/-- The alarms of a slave's answer fault its running slots. -/
def slaveAlarms (v : State) (slave word : Nat) : State :=
  ((slaveSlots v slave).filter (fun m => bits word 8 8 &&& (railSlot v m).slaveCh != 0)).foldl
    (fun s m => railFault s m 4 (tgetD s.psq.codes m 0)) v

/-- The failed polls of a slave, with the one that fails now. -/
def pollsFailed (u : State) (slave : Nat) : Nat := tgetD u.psq.slaveFails slave 0 + 1

/-- A failed poll of a slave is counted, up to three. -/
def pollCounted (u : State) (slave : Nat) : State :=
  { u with psq := { u.psq with slaveFails := tset u.psq.slaveFails slave (min (pollsFailed u slave) 3) } }

/-- A slave is lost (R334). -/
def slaveGone (v : State) (slave : Nat) : State :=
  raiseOpen { v with psq := { v.psq with slaveLost := sins v.psq.slaveLost slave } } 0x18C

/-! ### The rows -/

section
variable {s u : State} {n t : Nat} (hu : u = tick s t)
include hu

theorem exec_slotEnable : exec (.slotEnable n t) s = .next (if enables u n then enableSlot u n else u) := by
  show execSlotEnable n t s = _
  simp only [execSlotEnable, ← hu, enables]
  by_cases hmay : mayEnable u n = true
  · by_cases hturn : (u.dev.state == .railsUp || lateSlot u n) = true
    · simp [hmay, hturn]
    · cases hsw : u.psq.sw <;> simp [hmay, hturn, switchSteps, hsw]
  · simp [hmay]

theorem exec_slotEnable_enables (h : enables u n = true) : exec (.slotEnable n t) s = .next (enableSlot u n) := by
  rw [exec_slotEnable hu, if_pos h]

theorem exec_slotEnable_nothing (h : ¬ enables u n = true) : exec (.slotEnable n t) s = .next u := by
  rw [exec_slotEnable hu, if_neg h]

theorem exec_slotGood : exec (.slotGood n t) s = .next (
    if !u.psq.on.contains n || u.psq.good.contains n || u.now < tgetD u.psq.onAt n 0 + (railSlot u n).glitch then u
    else powerUpStep (domainNoted (markGood u n) (railSlot u n).domain)) := by
  subst hu
  rfl

theorem exec_railRamp : exec (.railRamp n t) s = .next (
    if !u.psq.on.contains n || u.psq.good.contains n || u.now < tgetD u.psq.onAt n 0 + 10 * (railSlot u n).ramp then u
    else rampsOut u n) := by
  subst hu
  rfl

theorem exec_slotGood_not_ramping (h : u.psq.on.contains n = false ∨ u.psq.good.contains n = true) :
    exec (.slotGood n t) s = .next u := by
  rw [exec_slotGood hu, if_pos (by rcases h with h | h <;> simp [h, -List.contains_eq_mem])]

theorem exec_railRamp_not_ramping (h : u.psq.on.contains n = false ∨ u.psq.good.contains n = true) :
    exec (.railRamp n t) s = .next u := by
  rw [exec_railRamp hu, if_pos (by rcases h with h | h <;> simp [h, -List.contains_eq_mem])]

theorem exec_slotGood_early (h : u.now < tgetD u.psq.onAt n 0 + (railSlot u n).glitch) : exec (.slotGood n t) s = .next u := by
  rw [exec_slotGood hu, if_pos (by simp [h])]

theorem exec_railRamp_early (h : u.now < tgetD u.psq.onAt n 0 + 10 * (railSlot u n).ramp) :
    exec (.railRamp n t) s = .next u := by
  rw [exec_railRamp hu, if_pos (by simp [h])]

section
variable (hon : u.psq.on.contains n = true) (hgood : u.psq.good.contains n = false)
include hon hgood

theorem exec_slotGood_goes_on (hdue : tgetD u.psq.onAt n 0 + (railSlot u n).glitch ≤ u.now) :
    exec (.slotGood n t) s = .next (powerUpStep (domainNoted (markGood u n) (railSlot u n).domain)) := by
  rw [exec_slotGood hu, if_neg (by simp [hon, hgood, hdue, -List.contains_eq_mem])]

theorem exec_railRamp_ramps_out (hdue : tgetD u.psq.onAt n 0 + 10 * (railSlot u n).ramp ≤ u.now) :
    exec (.railRamp n t) s = .next (rampsOut u n) := by
  rw [exec_railRamp hu, if_neg (by simp [hon, hgood, hdue, -List.contains_eq_mem])]

end

theorem exec_slotDisable : exec (.slotDisable n t) s = .next (
    if u.psq.off.isEmpty && nextOff u == some n && decide (u.psq.lastOffAt + (railSlot u n).delay ≤ u.now) then
      afterOff (disableSlot u n) else u) := by
  subst hu
  rfl

theorem exec_slotDisable_disables (hoff : u.psq.off = []) (hn : nextOff u = some n)
    (hdue : u.psq.lastOffAt + (railSlot u n).delay ≤ u.now) :
    exec (.slotDisable n t) s = .next (afterOff (disableSlot u n)) := by
  rw [exec_slotDisable hu, if_pos (by simp [hoff, hn, hdue])]

theorem exec_slotDisable_nothing
    (h : u.psq.off ≠ [] ∨ nextOff u ≠ some n ∨ u.now < u.psq.lastOffAt + (railSlot u n).delay) :
    exec (.slotDisable n t) s = .next u := by
  rw [exec_slotDisable hu, if_neg (by rcases h with h | h | h <;> simp [h])]

theorem exec_slotOff : exec (.slotOff n t) s
    = .next (if u.psq.off.contains n then afterOff (slotIsOff u n) else u) := by
  subst hu
  rfl

theorem exec_railSlowOff : exec (.railSlowOff n t) s = .next (
    if u.psq.off.contains n && decide (tgetD u.psq.disAt n 0 + 10 * (railSlot u n).ramp ≤ u.now) then
      afterOff (raiseOpen (slotIsOff u n) 0x18A) else u) := by
  subst hu
  rfl

theorem exec_slotOff_nothing (h : u.psq.off.contains n = false) : exec (.slotOff n t) s = .next u := by
  rw [exec_slotOff hu, h, if_neg Bool.false_ne_true]

theorem exec_railSlowOff_nothing
    (h : u.psq.off.contains n = false ∨ ¬ tgetD u.psq.disAt n 0 + 10 * (railSlot u n).ramp ≤ u.now) :
    exec (.railSlowOff n t) s = .next u := by
  rw [exec_railSlowOff hu, if_neg (by rcases h with h | h <;> simp [h, -List.contains_eq_mem])]

theorem exec_slotOff_goes_on (h : u.psq.off.contains n = true) :
    exec (.slotOff n t) s = .next (afterOff (slotIsOff u n)) := by
  rw [exec_slotOff hu, if_pos h]

theorem exec_railSlowOff_raises (h : u.psq.off.contains n = true)
    (hslow : tgetD u.psq.disAt n 0 + 10 * (railSlot u n).ramp ≤ u.now) :
    exec (.railSlowOff n t) s = .next (afterOff (raiseOpen (slotIsOff u n) 0x18A)) := by
  rw [exec_railSlowOff hu, if_pos (by simp [h, hslow, -List.contains_eq_mem])]

section
variable {ok : Bool} {code : Nat}

theorem exec_railFault : exec (.railFault n ok code t) s
    = .next (if outranked u 1 then u else railFault (noteWon u 1) n (if ok then 2 else 1) code) := by
  subst hu
  rfl

theorem exec_railFault_outranked (h : outranked u 1 = true) : exec (.railFault n ok code t) s = .next u := by
  rw [exec_railFault hu, if_pos h]

theorem exec_railFault_acts (h : outranked u 1 = false) :
    exec (.railFault n ok code t) s = .next (railFault (noteWon u 1) n (if ok then 2 else 1) code) := by
  rw [exec_railFault hu, if_neg (Bool.eq_false_iff.mp h)]

end

section
variable {codes : List Nat}

theorem exec_railScanPass : exec (.railScanPass codes t) s
    = .next (if u.dev.state == .off || u.psq.collapse then u else scanCodes u codes) := by
  subst hu
  rfl

theorem exec_railScanPass_nothing (h : u.dev.state = .off ∨ u.psq.collapse = true) :
    exec (.railScanPass codes t) s = .next u := by
  rw [exec_railScanPass hu, if_pos (by simpa using h)]

theorem exec_railScanPass_scans (hst : u.dev.state ≠ .off) (hcol : u.psq.collapse = false) :
    exec (.railScanPass codes t) s = .next (scanCodes u codes) := by
  rw [exec_railScanPass hu, if_neg (by simp [hst, hcol])]

end

theorem exec_heldRailExcursion : exec (.heldRailExcursion n t) s = .next (heldExcursion u n) := by
  subst hu
  rfl

theorem exec_drstSeen : exec (.drstSeen n t) s = .next (if u.dev.state == .held then { u with hrv := { u.hrv with
    heldRec := u.hrv.heldRec.map (fun r => if bit r.channels n then heldKept { r with drst := true } else r) } } else u) := by
  subst hu
  rfl

theorem exec_drstSeen_nothing (h : u.dev.state ≠ .held) : exec (.drstSeen n t) s = .next u := by
  rw [exec_drstSeen hu, if_neg (by simpa using h)]

theorem exec_drstSeen_notes (h : u.dev.state = .held) : exec (.drstSeen n t) s = .next { u with hrv := { u.hrv with
    heldRec := u.hrv.heldRec.map (fun r => if bit r.channels n then heldKept { r with drst := true } else r) } } := by
  rw [exec_drstSeen hu, if_pos (beq_iff_eq.mpr h)]

section
variable {slave word : Nat} {ok : Bool}

theorem exec_slaveStatusPoll : exec (.slaveStatusPoll slave word ok t) s = .next (
    if (slaveSlots u slave).isEmpty || u.psq.collapse || u.dev.state == .off then u
    else if ok && twiUp u 2 then slaveAlarms (slaveAnswered u slave word) slave word
    else if pollsFailed u slave == 3 then slaveGone (pollCounted u slave) slave else pollCounted u slave) := by
  subst hu
  rfl

theorem exec_slaveStatusPoll_nothing (h : slaveSlots u slave = [] ∨ u.psq.collapse = true ∨ u.dev.state = .off) :
    exec (.slaveStatusPoll slave word ok t) s = .next u := by
  rw [exec_slaveStatusPoll hu, if_pos (by simpa [or_assoc] using h)]

section
variable (hsl : slaveSlots u slave ≠ []) (hcol : u.psq.collapse = false) (hst : u.dev.state ≠ .off)
include hsl hcol hst

theorem exec_slaveStatusPoll_answered (hok : ok = true) (hup : twiUp u 2 = true) :
    exec (.slaveStatusPoll slave word ok t) s = .next (slaveAlarms (slaveAnswered u slave word) slave word) := by
  rw [exec_slaveStatusPoll hu, if_neg (by simp [hsl, hcol, hst]), if_pos (by simp [hok, hup])]

variable (hfail : ok = false ∨ twiUp u 2 = false)
include hfail

theorem exec_slaveStatusPoll_failed : exec (.slaveStatusPoll slave word ok t) s
    = .next (if pollsFailed u slave == 3 then slaveGone (pollCounted u slave) slave else pollCounted u slave) := by
  rw [exec_slaveStatusPoll hu, if_neg (by simp [hsl, hcol, hst]), if_neg (by rcases hfail with h | h <;> simp [h])]

theorem exec_slaveStatusPoll_counts (hk : pollsFailed u slave ≠ 3) :
    exec (.slaveStatusPoll slave word ok t) s = .next (pollCounted u slave) := by
  rw [exec_slaveStatusPoll_failed hu hsl hcol hst hfail, if_neg (by simpa using hk)]

theorem exec_slaveStatusPoll_loses (hk : pollsFailed u slave = 3) :
    exec (.slaveStatusPoll slave word ok t) s = .next (slaveGone (pollCounted u slave) slave) := by
  rw [exec_slaveStatusPoll_failed hu hsl hcol hst hfail, if_pos (beq_iff_eq.mpr hk)]

end

end

end

/-! ### SLAVE_SEQ_CMD (R338) -/

theorem exec_slaveSeqCmd {c : TrellisCmd} {s v : State} {f : InFlight} (h : started 0x0502 c s = some (v, f)) :
    exec (.slaveSeqCmd c) s = .next (cmdSlaveSeqCmd f v) :=
  congrArg _ (submit_of_started cmdSlaveSeqCmd h)

/-- The two-wire address of the slave that SLAVE_SEQ_CMD names. -/
def slaveAddr (f : InFlight) (v : State) : Nat := v.psq.table.slaves.getD (pByte f.cmd 24) 0

/-- SLAVE_SEQ_CMD goes out on bus 2 and waits for its end. -/
def slaveCommanded (f : InFlight) (v : State) : State :=
  twiPost (setJob v f.id (.slave (pByte f.cmd 25))) 2 {
    agent := 1, addr := slaveAddr f v, code := pByte f.cmd 25,
    data := if pByte f.cmd 25 ≤ 0xD1 then le (pByte f.cmd 26) 1 else [], cmd := some f.id, slot := pByte f.cmd 24 }

section
variable {f : InFlight} {v : State}

theorem cmdSlaveSeqCmd_eq : cmdSlaveSeqCmd f v = if 7 < pByte f.cmd 24 || slaveAddr f v == 0 then badParam v f.id 24
    else if pByte f.cmd 25 < 0xD0 || 0xD3 < pByte f.cmd 25 then badParam v f.id 25
    else if pByte f.cmd 25 ≤ 0xD1 && !(owns v f.cmd.est 3 && v.psq.sw.isSome) then endWith v f.id 0x05 0x05
    else slaveCommanded f v := rfl

theorem cmdSlaveSeqCmd_bad_slave (h : 7 < pByte f.cmd 24 ∨ slaveAddr f v = 0) : cmdSlaveSeqCmd f v = badParam v f.id 24 := by
  rw [cmdSlaveSeqCmd_eq, if_pos (by simpa using h)]

variable (hk : pByte f.cmd 24 ≤ 7) (ha : slaveAddr f v ≠ 0)
include hk ha

theorem cmdSlaveSeqCmd_bad_code (h : pByte f.cmd 25 < 0xD0 ∨ 0xD3 < pByte f.cmd 25) :
    cmdSlaveSeqCmd f v = badParam v f.id 25 := by
  rw [cmdSlaveSeqCmd_eq, if_neg (by simp [hk, ha]), if_pos (by simpa using h)]

variable (hlow : 0xD0 ≤ pByte f.cmd 25)
include hlow

/-- A step of a slot is the owner's, in a domain switch. -/
theorem cmdSlaveSeqCmd_not_owner (hstep : pByte f.cmd 25 ≤ 0xD1) (h : owns v f.cmd.est 3 = false ∨ v.psq.sw = none) :
    cmdSlaveSeqCmd f v = endWith v f.id 0x05 0x05 := by
  have hhigh : pByte f.cmd 25 ≤ 0xD3 := hstep.trans (by decide)
  rw [cmdSlaveSeqCmd_eq, if_neg (by simp [hk, ha]), if_neg (by simp [hlow, hhigh]),
    if_pos (by rcases h with h | h <;> simp [hstep, h])]

theorem cmdSlaveSeqCmd_sends (hhigh : pByte f.cmd 25 ≤ 0xD3)
    (h : 0xD2 ≤ pByte f.cmd 25 ∨ (owns v f.cmd.est 3 = true ∧ v.psq.sw.isSome = true)) :
    cmdSlaveSeqCmd f v = slaveCommanded f v := by
  rw [cmdSlaveSeqCmd_eq, if_neg (by simp [hk, ha]), if_neg (by simp [hlow, hhigh]), if_neg]
  rcases h with h | ⟨ho, hs⟩
  · simp [show ¬ pByte f.cmd 25 ≤ 0xD1 by omega]
  · simp [ho, hs]

end

/-! ### The obligation -/

/-- Settles O56: each row by its rule above; a slot that comes good by whether it completes its domain, one that ramps out by
the switch under way. -/
theorem railEvents : Obligations.RailEvents := by
  refine ⟨fun n code slave word t ok codes s u hu => ⟨fun h => exec_slotEnable_enables hu (enables_iff.mpr h),
      fun h => exec_slotEnable_nothing hu (mt enables_iff.mp h),
      fun h => ⟨exec_slotGood_not_ramping hu h, exec_railRamp_not_ramping hu h⟩,
      exec_slotGood_early hu, exec_railRamp_early hu, fun hon hgood hdue => ?_, fun hon hgood hdue => ?_,
      exec_slotDisable_disables hu, exec_slotDisable_nothing hu,
      fun h => ⟨exec_slotOff_nothing hu h, exec_railSlowOff_nothing hu (.inl h)⟩,
      fun h => ⟨exec_slotOff_goes_on hu h, exec_railSlowOff_raises hu h, fun hslow => exec_railSlowOff_nothing hu (.inr hslow)⟩,
      exec_railFault_outranked hu, exec_railFault_acts hu, exec_railScanPass_nothing hu, exec_railScanPass_scans hu,
      fun h => ?_, fun hst hn hh => ?_, exec_drstSeen_nothing hu, exec_drstSeen_notes hu, fun r => rfl,
      exec_slaveStatusPoll_nothing hu, fun hsl hcol hst => ⟨exec_slaveStatusPoll_answered hu hsl hcol hst,
        fun hfail => ⟨exec_slaveStatusPoll_counts hu hsl hcol hst hfail, exec_slaveStatusPoll_loses hu hsl hcol hst hfail⟩⟩⟩,
    fun s n code hcode hcls huv hov => scanSlot_inside hcode (Bool.eq_false_iff.mpr (mt outside_iff.mp (by omega))),
    fun s n code hcls hout => scanSlot_faults (outside_iff.mpr ⟨hcls, hout⟩), fun c s v f hst => ?_⟩
  · rw [exec_slotGood_goes_on hu hon hgood hdue]
    refine ⟨fun h => congrArg _ ?_, fun h hst => congrArg _ ?_, fun h hst => congrArg _ ?_⟩
    · exact congrArg powerUpStep (domainNoted_of_not_whole (v := markGood u n) h)
    · exact (congrArg powerUpStep (domainNoted_of_whole (v := markGood u n) h)).trans (powerUpStep_of_railsUp hst)
    · exact (congrArg powerUpStep (domainNoted_of_whole (v := markGood u n) h)).trans (powerUpStep_of_other hst)
  · rw [exec_railRamp_ramps_out hu hon hgood hdue]
    refine ⟨fun w hsw hw hd => congrArg _ (rampsOut_of_switching (switchingOn_iff.mpr ⟨hsw, hw, hd⟩)), fun hno => ?_⟩
    have hsw : switchingOn u n = none := Option.eq_none_iff_forall_ne_some.mpr fun w hw => hno ⟨w, switchingOn_iff.mp hw⟩
    refine ⟨fun h => congrArg _ (rampsOut_of_start hsw (h.imp_right lateSlot_iff.mpr)), fun hl hs hd => congrArg _ ?_,
      fun hl hr h => congrArg _ ?_⟩
    · exact rampsOut_of_serving hsw (Bool.eq_false_iff.mpr (mt lateSlot_iff.mp hl)) hs hd
    · exact rampsOut_nothing hsw (Bool.eq_false_iff.mpr (mt lateSlot_iff.mp hl)) hr h
  · rw [exec_heldRailExcursion hu, heldExcursion_nothing h]
  · rw [exec_heldRailExcursion hu, heldExcursion_noted hst hn hh]
  · rw [exec_slaveSeqCmd hst]
    exact ⟨fun h => congrArg _ (cmdSlaveSeqCmd_bad_slave h), fun hk ha h => congrArg _ (cmdSlaveSeqCmd_bad_code hk ha h),
      fun hk ha hlow hstep h => congrArg _ (cmdSlaveSeqCmd_not_owner hk ha hlow hstep h),
      fun hk ha hlow hhigh h => congrArg _ (cmdSlaveSeqCmd_sends hk ha hlow hhigh h)⟩

end Sys2Proof.Machine

/-! What every step keeps (R102, R421, R423, log entries 1, 9, 20, 29 and 30), and that every command answers a next state. -/

namespace Sys2Proof.Machine

open Sys2Proof

/-! ### The step on an empty queue -/

theorem servingWork_kept {z : State} (s : State) (hK : Kept z s) :
    Kept z (if serving s then judgeRelease (deleteAdvance s) else s) :=
  Kept.ite (judgeRelease_kept _ (deleteAdvance_kept _ hK)) hK

theorem selfWork_kept {z : State} (s : State) (hK : Kept z s) : Kept z (selfWork s) := by
  have hdata := issueAll_kept _ (harvestAdvance_kept s hK)
  have hflash := scrubWork_kept _ (moveWork_kept _ (judgeSave_kept _ (saveWork_kept _ (flushWork_kept _ hdata))))
  have hhost := completeReady_kept _ (releaseHeld_kept _ (drainSubs_kept _ (retryHeld_kept _ (feed_kept _ hflash))))
  have htwin := grantCredits_kept _ (startTrainings_kept _ (replantWork_kept _ (servingWork_kept _ hhost)))
  exact judgeFlushes_kept _ (judgeCompares_kept _ (activationCheck_kept _ (resyncPump_kept _ _
    (roomIfChanged_kept _ (rehomePump_kept _ _ htwin)))))

theorem idle_kept {z : State} (s : State) (hK : Kept z s) : Kept z (idle s) := by
  have h := nvmKick_kept _ 1 (nvmKick_kept _ 0 (startReady_kept s hK))
  exact startWeeding_kept _ (Kept.ite (selfWork_kept _ h) h)

/-! ### The commands -/

/-- Each command is kept by the lemma of its meaning (Laws/Kept*.lean). -/
theorem exec_kept {z w : State} (i : Instr) (s : State) (hK : Kept z s) (hnext : exec i s = .next w) : Kept z w := by
  cases i with
  | echo c => exact execEcho_kept c s hK hnext
  | identify c => exact execIdentify_kept c s hK hnext
  | regRead c => exact execRegRead_kept c s hK hnext
  | regWrite c => exact execRegWrite_kept c s hK hnext
  | regReadMulti c => exact execRegReadMulti_kept c s hK hnext
  | allotCreate c => exact execAllotCreate_kept c s hK hnext
  | allotResize c => exact execAllotResize_kept c s hK hnext
  | allotDelete c => exact execAllotDelete_kept c s hK hnext
  | allotBind c => exact execAllotBind_kept c s hK hnext
  | allotQuery c => exact execAllotQuery_kept c s hK hnext
  | exposureQuery c => exact execExposureQuery_kept c s hK hnext
  | dripPolicySet c => exact execDripPolicySet_kept c s hK hnext
  | flushRange c => exact execFlushRange_kept c s hK hnext
  | harvestPlanLoad c => exact execHarvestPlanLoad_kept c s hK hnext
  | fullSave c => exact execFullSave_kept c s hK hnext
  | replantOrderLoad c => exact execReplantOrderLoad_kept c s hK hnext
  | pair c => exact execPair_kept c s hK hnext
  | unpair c => exact execUnpair_kept c s hK hnext
  | failover c => exact execFailover_kept c s hK hnext
  | resync c => exact execResync_kept c s hK hnext
  | tallyCompare c => exact execTallyCompare_kept c s hK hnext
  | packInfo c => exact execPackInfo_kept c s hK hnext
  | gaugeRead c => exact execGaugeRead_kept c s hK hnext
  | gaugeRaw c => exact execGaugeRaw_kept c s hK hnext
  | rehearsalRun c => exact execRehearsalRun_kept c s hK hnext
  | powerStateReq c => exact execPowerStateReq_kept c s hK hnext
  | railTableLoad c => exact execRailTableLoad_kept c s hK hnext
  | slaveSeqCmd c => exact execSlaveSeqCmd_kept c s hK hnext
  | faultStatus c => exact execFaultStatus_kept c s hK hnext
  | faultClear c => exact execFaultClear_kept c s hK hnext
  | faultInject c => exact execFaultInject_kept c s hK hnext
  | logCursorSet c => exact execLogCursorSet_kept c s hK hnext
  | logReadWindow c => exact execLogReadWindow_kept c s hK hnext
  | logClear c => exact execLogClear_kept c s hK hnext
  | fwStageBegin c => exact execFwStageBegin_kept c s hK hnext
  | fwStageData c => exact execFwStageData_kept c s hK hnext
  | fwStageEnd c => exact execFwStageEnd_kept c s hK hnext
  | fwActivateAt c => exact execFwActivateAt_kept c s hK hnext
  | fwConfirm c => exact execFwConfirm_kept c s hK hnext
  | keyLabelSet c => exact execKeyLabelSet_kept c s hK hnext
  | recordSeal c => exact execRecordSeal_kept c s hK hnext
  | recordOpen c => exact execRecordOpen_kept c s hK hnext
  | aesBlock c => exact execAesBlock_kept c s hK hnext
  | testSchedule c => exact execTestSchedule_kept c s hK hnext
  | testResult c => exact execTestResult_kept c s hK hnext
  | funcModeSet c => exact execFuncModeSet_kept c s hK hnext
  | funcModeQuery c => exact execFuncModeQuery_kept c s hK hnext
  | lateStatusFetch c => exact execLateStatusFetch_kept c s hK hnext
  | mailboxTrellisPacket op m t => exact execMailboxTrellisPacket_kept op m t s hK hnext
  | mailboxIdentify m t => exact execMailboxIdentify_kept m t s hK hnext
  | backgroundOperationStatus m t => exact execBackgroundOperationStatus_kept m t s hK hnext
  | getEventRecords m t => exact execGetEventRecords_kept m t s hK hnext
  | clearEventRecords m t => exact execClearEventRecords_kept m t s hK hnext
  | getEventInterruptPolicy m t => exact execGetEventInterruptPolicy_kept m t s hK hnext
  | setEventInterruptPolicy m t => exact execSetEventInterruptPolicy_kept m t s hK hnext
  | getTimestamp m t => exact execGetTimestamp_kept m t s hK hnext
  | setTimestamp m t => exact execSetTimestamp_kept m t s hK hnext
  | getSupportedLogs m t => exact execGetSupportedLogs_kept m t s hK hnext
  | getLog m t => exact execGetLog_kept m t s hK hnext
  | identifyMemoryDevice m t => exact execIdentifyMemoryDevice_kept m t s hK hnext
  | getHealthInfo m t => exact execGetHealthInfo_kept m t s hK hnext
  | getAlertConfiguration m t => exact execGetAlertConfiguration_kept m t s hK hnext
  | setAlertConfiguration m t => exact execSetAlertConfiguration_kept m t s hK hnext
  | getShutdownState m t => exact execGetShutdownState_kept m t s hK hnext
  | setShutdownState m t => exact execSetShutdownState_kept m t s hK hnext
  | getPoisonList m t => exact execGetPoisonList_kept m t s hK hnext
  | injectPoison m t => exact execInjectPoison_kept m t s hK hnext
  | clearPoison m t => exact execClearPoison_kept m t s hK hnext
  | getDynamicCapacityConfiguration m t => exact execGetDynamicCapacityConfiguration_kept m t s hK hnext
  | getDynamicCapacityExtentList m t => exact execGetDynamicCapacityExtentList_kept m t s hK hnext
  | addDynamicCapacityResponse m t => exact execAddDynamicCapacityResponse_kept m t s hK hnext
  | releaseDynamicCapacity m t => exact execReleaseDynamicCapacity_kept m t s hK hnext
  | getLdInfo m t => exact execGetLdInfo_kept m t s hK hnext
  | getLdAllocations m t => exact execGetLdAllocations_kept m t s hK hnext
  | setLdAllocations m t => exact execSetLdAllocations_kept m t s hK hnext
  | getQosControl m t => exact execGetQosControl_kept m t s hK hnext
  | setQosControl m t => exact execSetQosControl_kept m t s hK hnext
  | getQosStatus m t => exact execGetQosStatus_kept m t s hK hnext
  | getQosAllocatedBandwidth m t => exact execGetQosAllocatedBandwidth_kept m t s hK hnext
  | setQosAllocatedBandwidth m t => exact execSetQosAllocatedBandwidth_kept m t s hK hnext
  | getQosBandwidthLimit m t => exact execGetQosBandwidthLimit_kept m t s hK hnext
  | setQosBandwidthLimit m t => exact execSetQosBandwidthLimit_kept m t s hK hnext
  | setEndpointId h eid t => exact execSetEndpointId_kept h eid t s hK hnext
  | getEndpointId h t => exact execGetEndpointId_kept h t s hK hnext
  | getMctpVersionSupport h typ t => exact execGetMctpVersionSupport_kept h typ t s hK hnext
  | getMessageTypeSupport h t => exact execGetMessageTypeSupport_kept h t s hK hnext
  | mctpTrellisMessage h data t => exact execMctpTrellisMessage_kept h data t s hK hnext
  | getVersion n data t => exact execGetVersion_kept n data t s hK hnext
  | getCapabilities n data t => exact execGetCapabilities_kept n data t s hK hnext
  | negotiateAlgorithms n data t => exact execNegotiateAlgorithms_kept n data t s hK hnext
  | getDigests n data t => exact execGetDigests_kept n data t s hK hnext
  | getCertificate n data t => exact execGetCertificate_kept n data t s hK hnext
  | challenge n data t => exact execChallenge_kept n data t s hK hnext
  | getMeasurements n data t => exact execGetMeasurements_kept n data t s hK hnext
  | keyExchange n data t => exact execKeyExchange_kept n data t s hK hnext
  | finish n data ok t => exact execFinish_kept n data ok t s hK hnext
  | endSession n data t => exact execEndSession_kept n data t s hK hnext
  | keyUpdate n data t => exact execKeyUpdate_kept n data t s hK hnext
  | ideKm n data t => exact execIdeKm_kept n data t s hK hnext
  | qpEnable a v t => exact execQpEnable_kept a v t s hK hnext
  | qpDisable a v t => exact execQpDisable_kept a v t s hK hnext
  | sqTailDoorbell a v t => exact execSqTailDoorbell_kept a v t s hK hnext
  | cqHeadDoorbell a v t => exact execCqHeadDoorbell_kept a v t s hK hnext
  | qpFetch entry payload ok payOk t => exact execQpFetch_kept entry payload ok payOk t s hK hnext
  | qpReplyWrite n ok t => exact execQpReplyWrite_kept n ok t s hK hnext
  | lowWordRead a t => exact execLowWordRead_kept a t s hK hnext
  | highWordWrite a v t => exact execHighWordWrite_kept a v t s hK hnext
  | rcRegisterRead a t => exact execRcRegisterRead_kept a t s hK hnext
  | adcQueueRead a t => exact execAdcQueueRead_kept a t s hK hnext
  | registerWrite a v t => exact execRegisterWrite_kept a v t s hK hnext
  | coldFrameBridgeAccess t => exact execColdFrameBridgeAccess_kept t s hK hnext
  | ddrLaneDelay a v t => exact execDdrLaneDelay_kept a v t s hK hnext
  | hostDelayApply c lane ok t => exact execHostDelayApply_kept c lane ok t s hK hnext
  | ddrScrubHostRate a v t => exact execDdrScrubHostRate_kept a v t s hK hnext
  | ftlStream a v t => exact execFtlStream_kept a v t s hK hnext
  | ftlWearHost a v t => exact execFtlWearHost_kept a v t s hK hnext
  | gauHostSoc a v t => exact execGauHostSoc_kept a v t s hK hnext
  | psqHostStep a v t => exact execPsqHostStep_kept a v t s hK hnext
  | heartbeatRecordIn a v t => exact execHeartbeatRecordIn_kept a v t s hK hnext
  | adcStart a v t => exact execAdcStart_kept a v t s hK hnext
  | adcStop a v t => exact execAdcStop_kept a v t s hK hnext
  | twiUnfence a v ok t => exact execTwiUnfence_kept a v ok t s hK hnext
  | rdpRaise a v t => exact execRdpRaise_kept a v t s hK hnext
  | rdpLower a v t => exact execRdpLower_kept a v t s hK hnext
  | fuseAdvanceSecured a v t => exact execFuseAdvanceSecured_kept a v t s hK hnext
  | fuseAdvanceRetired a v t => exact execFuseAdvanceRetired_kept a v t s hK hnext
  | fuseSetHaDeny a v t => exact execFuseSetHaDeny_kept a v t s hK hnext
  | fuseRaiseRdpFloor a v t => exact execFuseRaiseRdpFloor_kept a v t s hK hnext
  | fuseSetDebugLock a v t => exact execFuseSetDebugLock_kept a v t s hK hnext
  | fuseRaiseSvn a v t => exact execFuseRaiseSvn_kept a v t s hK hnext
  | fuseRevokeKey a v t => exact execFuseRevokeKey_kept a v t s hK hnext
  | vaonPresent x t => exact execVaonPresent_kept x t s hK hnext
  | strapSample test xbyp t => exact execStrapSample_kept test xbyp t s hK hnext
  | vaonAbsent t => exact execVaonAbsent_kept t s hK hnext
  | vaonLow t => exact execVaonLow_kept t s hK hnext
  | vaonReset t => exact execVaonReset_kept t s hK hnext
  | brownOut t => exact execBrownOut_kept t s hK hnext
  | inputGood t => exact execInputGood_kept t s hK hnext
  | powerFail under overV pin t => exact execPowerFail_kept under overV pin t s hK hnext
  | pfGlitch us t => exact execPfGlitch_kept us t s hK hnext
  | powerFailNotice ns t => exact execPowerFailNotice_kept ns t s hK hnext
  | harvestDoneNotice t => exact execHarvestDoneNotice_kept t s hK hnext
  | fatalNotice n detail t => exact execFatalNotice_kept n detail t s hK hnext
  | startChecks temp ecc ue t => exact execStartChecks_kept temp ecc ue t s hK hnext
  | coldTempRecheck temp ecc ue t => exact execColdTempRecheck_kept temp ecc ue t s hK hnext
  | slotEnable n t => exact execSlotEnable_kept n t s hK hnext
  | slotGood n t => exact execSlotGood_kept n t s hK hnext
  | railRamp n t => exact execRailRamp_kept n t s hK hnext
  | slotDisable n t => exact execSlotDisable_kept n t s hK hnext
  | slotOff n t => exact execSlotOff_kept n t s hK hnext
  | railSlowOff n t => exact execRailSlowOff_kept n t s hK hnext
  | railFault n overV code t => exact execRailFault_kept n overV code t s hK hnext
  | railScanPass codes t => exact execRailScanPass_kept codes t s hK hnext
  | heldRailExcursion n t => exact execHeldRailExcursion_kept n t s hK hnext
  | drstSeen c t => exact execDrstSeen_kept c t s hK hnext
  | pwrbtnPress t => exact execPwrbtnPress_kept t s hK hnext
  | shortPress t => exact execShortPress_kept t s hK hnext
  | longPress t => exact execLongPress_kept t s hK hnext
  | mrNAssert t => exact execMrNAssert_kept t s hK hnext
  | mrNRelease t => exact execMrNRelease_kept t s hK hnext
  | powerCycle t => exact execPowerCycle_kept t s hK hnext
  | holdTimeReached t => exact execHoldTimeReached_kept t s hK hnext
  | orderlyOffSeal t => exact execOrderlyOffSeal_kept t s hK hnext
  | orderlyOffPowerDown t => exact execOrderlyOffPowerDown_kept t s hK hnext
  | offAbandoned t => exact execOffAbandoned_kept t s hK hnext
  | thermalHigh temp t => exact execThermalHigh_kept temp t s hK hnext
  | thermalTrip temp t => exact execThermalTrip_kept temp t s hK hnext
  | xtalFail t => exact execXtalFail_kept t s hK hnext
  | trainingStepComplete x t => exact execTrainingStepComplete_kept x t s hK hnext
  | cxlLinkUp n width speed flit t => exact execCxlLinkUp_kept n width speed flit t s hK hnext
  | cxlLinkDown n t => exact execCxlLinkDown_kept n t s hK hnext
  | perstN n low t => exact execPerstN_kept n low t s hK hnext
  | cxlMemRead r x t => exact execCxlMemRead_kept r x t s hK hnext
  | cxlMemWrite r x t => exact execCxlMemWrite_kept r x t s hK hnext
  | heldWriteDiscard n t => exact execHeldWriteDiscard_kept n t s hK hnext
  | gpfPhase1 n t => exact execGpfPhase1_kept n t s hK hnext
  | gpfPhase2 n t => exact execGpfPhase2_kept n t s hK hnext
  | gpfDeadline n t => exact execGpfDeadline_kept n t s hK hnext
  | ideIntegrityFailure n reqs t => exact execIdeIntegrityFailure_kept n reqs t s hK hnext
  | priorityFetchDone g r t => exact execPriorityFetchDone_kept g r t s hK hnext
  | replantStripeDone k bad mism t => exact execReplantStripeDone_kept k bad mism t s hK hnext
  | warmVerifyEnd chans t => exact execWarmVerifyEnd_kept chans t s hK hnext
  | harvestStripeDone n failed ues t => exact execHarvestStripeDone_kept n failed ues t s hK hnext
  | sealWritten bad t => exact execSealWritten_kept bad t s hK hnext
  | selfRefreshEntry c t => exact execSelfRefreshEntry_kept c t s hK hnext
  | selfRefreshExit c t => exact execSelfRefreshExit_kept c t s hK hnext
  | refreshDue c rank hot probe t => exact execRefreshDue_kept c rank hot probe t s hK hnext
  | requestUrgent c n t => exact execRequestUrgent_kept c n t s hK hnext
  | retrainDue c t => exact execRetrainDue_kept c t s hK hnext
  | dimmTempPoll c temps t => exact execDimmTempPoll_kept c temps t s hK hnext
  | scrubChunk c ces ues t => exact execScrubChunk_kept c ces ues t s hK hnext
  | tallyRebuildDone c ues t => exact execTallyRebuildDone_kept c ues t s hK hnext
  | gaugeUpdateFrame t => exact execGaugeUpdateFrame_kept t s hK hnext
  | stageEval t => exact execStageEval_kept t s hK hnext
  | dripRound free t => exact execDripRound_kept free t s hK hnext
  | dripCommit g t => exact execDripCommit_kept g t s hK hnext
  | moveCommit g t => exact execMoveCommit_kept g t s hK hnext
  | recencySweep t => exact execRecencySweep_kept t s hK hnext
  | hintExpiry t => exact execHintExpiry_kept t s hK hnext
  | wearBucketGain t => exact execWearBucketGain_kept t s hK hnext
  | enduranceForecast t => exact execEnduranceForecast_kept t s hK hnext
  | journalPageTimeout bad t => exact execJournalPageTimeout_kept bad t s hK hnext
  | wordlineFillTimeout n t => exact execWordlineFillTimeout_kept n t s hK hnext
  | checkpointWrite seg bad t => exact execCheckpointWrite_kept seg bad t s hK hnext
  | flashProgramDone ws ok t => exact execFlashProgramDone_kept ws ok t s hK hnext
  | flashEraseDone k only failed t => exact execFlashEraseDone_kept k only failed t s hK hnext
  | flashReadDone a r t => exact execFlashReadDone_kept a r t s hK hnext
  | flashDqRetrain tgt temp t => exact execFlashDqRetrain_kept tgt temp t s hK hnext
  | targetStatusPoll tgt ok t => exact execTargetStatusPoll_kept tgt ok t s hK hnext
  | gcVictimChoice t => exact execGcVictimChoice_kept t s hK hnext
  | patrolSchedule a r t => exact execPatrolSchedule_kept a r t s hK hnext
  | harvestRotation t => exact execHarvestRotation_kept t s hK hnext
  | harvestRegionSizing t => exact execHarvestRegionSizing_kept t s hK hnext
  | d2dAck cold t => exact execD2dAck_kept cold t s hK hnext
  | d2dNak cold t => exact execD2dNak_kept cold t s hK hnext
  | registerRequest t => exact execRegisterRequest_kept t s hK hnext
  | registerData cold t => exact execRegisterData_kept cold t s hK hnext
  | eventFrame t => exact execEventFrame_kept t s hK hnext
  | summaryUpdate t => exact execSummaryUpdate_kept t s hK hnext
  | d2dFrameError cold w t => exact execD2dFrameError_kept cold w t s hK hnext
  | d2dResendTimeout cold t => exact execD2dResendTimeout_kept cold t s hK hnext
  | d2dRetrain t => exact execD2dRetrain_kept t s hK hnext
  | d2dRetrainDone t => exact execD2dRetrainDone_kept t s hK hnext
  | faultReport n detail missed holds t => exact execFaultReport_kept n detail missed holds t s hK hnext
  | brokenPath p t => exact execBrokenPath_kept p t s hK hnext
  | polledSourceCheck n detail fault t => exact execPolledSourceCheck_kept n detail fault t s hK hnext
  | logRatePeriod code t => exact execLogRatePeriod_kept code t s hK hnext
  | nvmProgramDone bank ok t => exact execNvmProgramDone_kept bank ok t s hK hnext
  | nvmEraseDone bank t => exact execNvmEraseDone_kept bank t s hK hnext
  | nvmEraseResume bank t => exact execNvmEraseResume_kept bank t s hK hnext
  | nonceBlockReserve t => exact execNonceBlockReserve_kept t s hK hnext
  | mpLockstep b t => exact execMpLockstep_kept b t s hK hnext
  | mpPairBooted k t => exact execMpPairBooted_kept k t s hK hnext
  | loadWindowEnd busyA busyB t => exact execLoadWindowEnd_kept busyA busyB t s hK hnext
  | loadLevelFall t => exact execLoadLevelFall_kept t s hK hnext
  | autoReturn t => exact execAutoReturn_kept t s hK hnext
  | quiescentPointSwitch f t => exact execQuiescentPointSwitch_kept f t s hK hnext
  | funcSwitchTimeout f t => exact execFuncSwitchTimeout_kept f t s hK hnext
  | haWatchdog f t => exact execHaWatchdog_kept f t s hK hnext
  | bedClockStop b t => exact execBedClockStop_kept b t s hK hnext
  | bedWake t => exact execBedWake_kept t s hK hnext
  | cuttingDone n ues t => exact execCuttingDone_kept n ues t s hK hnext
  | tineFenced n t => exact execTineFenced_kept n t s hK hnext
  | sublinkSignalDetect k t => exact execSublinkSignalDetect_kept k t s hK hnext
  | sublinkEqDone k t => exact execSublinkEqDone_kept k t s hK hnext
  | sublinkAlignLock k lanes t => exact execSublinkAlignLock_kept k lanes t s hK hnext
  | sublinkSyncDone k t => exact execSublinkSyncDone_kept k t s hK hnext
  | sublinkAuthDone k peerEpoch t => exact execSublinkAuthDone_kept k peerEpoch t s hK hnext
  | sublinkStateTimeout k t => exact execSublinkStateTimeout_kept k t s hK hnext
  | sublinkRetrainStart k t => exact execSublinkRetrainStart_kept k t s hK hnext
  | sublinkHoldEnd k t => exact execSublinkHoldEnd_kept k t s hK hnext
  | sublinkLost n t => exact execSublinkLost_kept n t s hK hnext
  | flitCrcFailure k t => exact execFlitCrcFailure_kept k t s hK hnext
  | linkAck k seq t => exact execLinkAck_kept k seq t s hK hnext
  | linkNak k seq t => exact execLinkNak_kept k seq t s hK hnext
  | replayTimeout k t => exact execReplayTimeout_kept k t s hK hnext
  | macFlit f ok t => exact execMacFlit_kept f ok t s hK hnext
  | record f r t => exact execRecord_kept f r t s hK hnext
  | accept f sub through t => exact execAccept_kept f sub through t s hK hnext
  | credit f sub n t => exact execCredit_kept f sub n t s hK hnext
  | room f room stage adm through t => exact execRoom_kept f room stage adm through t s hK hnext
  | clean f gs t => exact execClean_kept f gs t s hK hnext
  | epoch f e ns t => exact execEpoch_kept f e ns t s hK hnext
  | cutMark f e t => exact execCutMark_kept f e t s hK hnext
  | tally f e region tally t => exact execTally_kept f e region tally t s hK hnext
  | crcBlock f first crcs t => exact execCrcBlock_kept f first crcs t s hK hnext
  | harvest f cause sub through t => exact execHarvest_kept f cause sub through t s hK hnext
  | harvestDone f seq t => exact execHarvestDone_kept f seq t s hK hnext
  | rehome f sub through t => exact execRehome_kept f sub through t s hK hnext
  | rekey f id t => exact execRekey_kept f id t s hK hnext
  | keySwitch f id t => exact execKeySwitch_kept f id t s hK hnext
  | table f m t => exact execTable_kept f m t s hK hnext
  | commit f id phase epoch status t => exact execCommit_kept f id phase epoch status t s hK hnext
  | hello f m t => exact execHello_kept f m t s hK hnext
  | proof f mac t => exact execProof_kept f mac t s hK hnext
  | spdm f flags data t => exact execSpdm_kept f flags data t s hK hnext
  | flush f tag first count t => exact execFlush_kept f tag first count t s hK hnext
  | flushed f tag status t => exact execFlushed_kept f tag status t s hK hnext
  | state f l t => exact execState_kept f l t s hK hnext
  | compare f e first count t => exact execCompare_kept f e first count t s hK hnext
  | roomPeriod t => exact execRoomPeriod_kept t s hK hnext
  | pairEpochTick t => exact execPairEpochTick_kept t s hK hnext
  | compareCaptureTimeout e t => exact execCompareCaptureTimeout_kept e t s hK hnext
  | compareSchedule t => exact execCompareSchedule_kept t s hK hnext
  | resyncPacing busy t => exact execResyncPacing_kept busy t s hK hnext
  | rekeyDue t => exact execRekeyDue_kept t s hK hnext
  | rekeyTimeout t => exact execRekeyTimeout_kept t s hK hnext
  | exlKeyExhausted k t => exact execExlKeyExhausted_kept k t s hK hnext
  | heartbeatPublish t => exact execHeartbeatPublish_kept t s hK hnext
  | claimTimeout t => exact execClaimTimeout_kept t s hK hnext
  | takeoverTimeout t => exact execTakeoverTimeout_kept t s hK hnext
  | pairTimeout t => exact execPairTimeout_kept t s hK hnext
  | flushRangeTimeout id t => exact execFlushRangeTimeout_kept id t s hK hnext
  | releaseWaitExpiry id t => exact execReleaseWaitExpiry_kept id t s hK hnext
  | fwConfirmTimeout t => exact execFwConfirmTimeout_kept t s hK hnext
  | gaugeBurst xtal t => exact execGaugeBurst_kept xtal t s hK hnext
  | currentComparatorTrip t => exact execCurrentComparatorTrip_kept t s hK hnext
  | gaugeBurstDone vsns isns ts t => exact execGaugeBurstDone_kept vsns isns ts t s hK hnext
  | gaugeUpdate t => exact execGaugeUpdate_kept t s hK hnext
  | restPoint t => exact execRestPoint_kept t s hK hnext
  | packIdRead data ok t => exact execPackIdRead_kept data ok t s hK hnext
  | protectorRead word ok t => exact execProtectorRead_kept word ok t s hK hnext
  | rehearsalDue t => exact execRehearsalDue_kept t s hK hnext
  | rehearsalPhaseEnd moved t => exact execRehearsalPhaseEnd_kept moved t s hK hnext
  | rehearsalTimeLimit t => exact execRehearsalTimeLimit_kept t s hK hnext
  | slaveStatusPoll slave word ok t => exact execSlaveStatusPoll_kept slave word ok t s hK hnext
  | pmbusPoll e words ok t => exact execPmbusPoll_kept e words ok t s hK hnext
  | twiTransactionDone n r data t => exact execTwiTransactionDone_kept n r data t s hK hnext
  | twiRetry n t => exact execTwiRetry_kept n t s hK hnext
  | arbitrationLost n t => exact execArbitrationLost_kept n t s hK hnext
  | clockLowTimeout n still t => exact execClockLowTimeout_kept n still t s hK hnext
  | busClear n ok t => exact execBusClear_kept n ok t s hK hnext
  | adcTimerTrigger k t => exact execAdcTimerTrigger_kept k t s hK hnext
  | adcConversionDone k uv t => exact execAdcConversionDone_kept k uv t s hK hnext
  | logicBist n pass t => exact execLogicBist_kept n pass t s hK hnext
  | flashEngineLoopback n pass t => exact execFlashEngineLoopback_kept n pass t s hK hnext
  | converterReference k low high t => exact execConverterReference_kept k low high t s hK hnext
  | comparatorTrip n pass t => exact execComparatorTrip_kept n pass t s hK hnext
  | faultPathInjection n ran det path t => exact execFaultPathInjection_kept n ran det path t s hK hnext
  | cipherKnownAnswer n pass t => exact execCipherKnownAnswer_kept n pass t s hK hnext
  | istCoverage n t => exact execIstCoverage_kept n t s hK hnext
  | weedingPauseEnd t => exact execWeedingPauseEnd_kept t s hK hnext
  | telemetrySample t => exact execTelemetrySample_kept t s hK hnext
  | telemetrySummary t => exact execTelemetrySummary_kept t s hK hnext
  | resyncPauseEnd t => exact execResyncPauseEnd_kept t s hK hnext
  | configRecordSave t => exact execConfigRecordSave_kept t s hK hnext
  | failedBoot t => exact execFailedBoot_kept t s hK hnext
  | bedReloadDone k t => exact execBedReloadDone_kept k t s hK hnext
  | vaonRecovery t => exact execVaonRecovery_kept t s hK hnext
  | domainSwitchTimeout t => exact execDomainSwitchTimeout_kept t s hK hnext
  | injectionTimeout n t => exact execInjectionTimeout_kept n t s hK hnext

/-- A step keeps, beside the command it takes, what every command keeps. -/
theorem step_kept {s w : State} (h : step s = .next w) : Kept { s with pending := s.pending.tail } w := by
  unfold step at h
  split at h
  case h_1 c rest hp =>
    rw [hp]
    exact exec_kept c _ (Kept.refl _) h
  case h_2 hp =>
    rw [hp, List.tail_nil, ← hp]
    exact Kept.of_next h (idle_kept s (Kept.refl s))

/-- The queue's rest is well formed where the queue is. -/
theorem queueWf_tail {s : State} (h : s.queueWf = true) : s.pending.tail.all Instr.wf = true :=
  List.all_eq_true.mpr fun c hc => List.all_eq_true.mp h c (List.mem_of_mem_tail hc)

/-- What is kept from a sound state with its first command taken is sound. -/
theorem sound_of_kept {s w : State} (hK : Kept { s with pending := s.pending.tail } w) (h : s.sound = true) : w.sound = true := by
  obtain ⟨hmem, hqueue⟩ := Bool.and_eq_true_iff.mp h
  have hq : w.pending = s.pending.tail := hK.queue
  exact Bool.and_eq_true_iff.mpr ⟨hK.form hmem, (congrArg (List.all · Instr.wf) hq).trans (queueWf_tail hqueue)⟩

/-- Settles O3: a step takes the first command and keeps what its meaning keeps, or on an empty queue what the block's own work
keeps; soundness follows from the memory's form and the queue's rest. -/
theorem everyStepKeepsTheInvariant : Obligations.EveryStepKeepsTheInvariant :=
  fun _ _ h => ⟨step_kept h, sound_of_kept (step_kept h)⟩

/-- Every meaning is a next state, by its outermost form. -/
theorem exec_next (i : Instr) (s : State) : ∃ w, exec i s = .next w := by
  cases i <;> exact ⟨_, rfl⟩

theorem step_next (s : State) : ∃ w, step s = .next w := by
  unfold step
  split
  case h_1 c rest _ => exact exec_next c _
  case h_2 => exact ⟨_, rfl⟩

/-- Settles O2: every command by the form of its meaning, and a step is a command or the block's own work. -/
theorem noCommandStops : Obligations.NoCommandStops := ⟨exec_next, step_next⟩

end Sys2Proof.Machine

/-! Direct reads and direct writes of plain registers (R4, R361, R474–R476, R479, R480, R9), and the packet error check of the
two-wire ports (R363). -/

namespace Sys2Proof.Machine

open Sys2Proof

/-! ### The packet error check (R363) -/

/-- One bit of the check stays in a byte, and only zero gives zero: the polynomial is odd. -/
theorem pecBit_lt_and_eq_zero_iff : ∀ x < 256, crcBitF 8 0x07 x < 256 ∧ (crcBitF 8 0x07 x = 0 ↔ x = 0) := by decide +kernel

theorem pecBits_lt_and_eq_zero_iff (n : Nat) {x : Nat} (hx : x < 256) :
    Nat.repeat (crcBitF 8 0x07) n x < 256 ∧ (Nat.repeat (crcBitF 8 0x07) n x = 0 ↔ x = 0) := by
  induction n with
  | zero => exact ⟨hx, Iff.rfl⟩
  | succ n ih =>
    obtain ⟨hlt, hzero⟩ := ih
    obtain ⟨hlt', hzero'⟩ := pecBit_lt_and_eq_zero_iff _ hlt
    exact ⟨hlt', hzero'.trans hzero⟩

theorem pec_append_one (l : List Byte) (b : Byte) :
    pec (l ++ [b]) = Nat.repeat (crcBitF 8 0x07) 8 (pec l ^^^ b.toNat) := by
  simp [pec, crcF, crcByteF]

theorem pec_lt (l : List Byte) : pec l < 256 := by
  induction l using List.reverseRecOn with
  | nil => decide
  | append_singleton l b ih =>
    rw [pec_append_one]
    exact (pecBits_lt_and_eq_zero_iff 8 (Nat.xor_lt_two_pow (n := 8) ih b.isLt)).1

/-- Settles O10: the last byte enters the register by an exclusive or, and eight bits of the check give zero from zero alone. -/
theorem packetErrorCheckResidue : Obligations.PacketErrorCheckResidue := by
  refine fun l => ⟨pec_lt l, fun b => ?_⟩
  calc pec (l ++ [b]) = 0 ↔ pec l ^^^ b.toNat = 0 := by
        rw [pec_append_one]
        exact (pecBits_lt_and_eq_zero_iff 8 (Nat.xor_lt_two_pow (n := 8) (pec_lt l) b.isLt)).2
    _ ↔ pec l = b.toNat := Nat.xor_eq_zero_iff
    _ ↔ b = BitVec.ofNat 8 (pec l) := by
        rw [← BitVec.toNat_inj, BitVec.toNat_ofNat, Nat.mod_eq_of_lt (pec_lt l), eq_comm]

/-! ### Direct reads (R474, R475, R480) -/

section
variable {s : State} {a : RegAcc}

theorem directRead_unreachable (hr : reachable s a = false) : directRead a s = s := by simp [directRead, hr]

section
variable (hr : reachable s a = true) (hm : malformed a = false)
include hr hm

theorem directRead_hidden (hf : a.full = false) (hh : hidden a.off = true) :
    directRead a s = emit s (.regData a.path 0) := by
  simp [directRead, hr, hm, hf, hh]

/-- A read of a block that the issuer may read, by whether it crosses the cold-frame bridge. -/
theorem directRead_open (ho : a.full = true ∨ hidden a.off = false) :
    directRead a s = if bridged a = true then
        if bridgeFree s = true then bridgeTake (regRead s a.path a.off).1 a false (regRead s a.path a.off).2 none else s
      else emit (regRead s a.path a.off).1 (.regData a.path (regRead s a.path a.off).2) := by
  have hopen : (!a.full && hidden a.off) = false := by rcases ho with h | h <;> simp [h]
  cases hb : bridgeFree s <;> simp [directRead, hr, hm, hopen, hb]

end

end

/-- An offset without a register, outside the log window, reads as zero (R4, R474). -/
theorem regRead_absent {s : State} {off : Nat} (p : Path) (hf : regFind s off = none)
    (hw : off < rLogWindow ∨ rLogWindow + 0x1000 ≤ off) : regRead s p off = (s, 0) := by
  have hout : ¬((rLogWindow ≤ off && off < rLogWindow + 0x1000) = true) := by
    simp only [Bool.and_eq_true, decide_eq_true_eq]
    omega
  simp only [regRead, regValue, hf, if_neg hout]

theorem regRead_adcQueue {s : State} {off i : Nat} {r : RegD} (p : Path) (hf : regFind s off = some (r, i, false))
    (ha : r.addr = rAdcQueue) : regRead s p off = adcPop s := by
  simp [regRead, hf, ha]

/-- The word of a result of the converters: VALID, CONV, INPUT and CODE stand in their fields (R361). -/
theorem adcPop_fields {s : State} {x : AdcRes} {q : List AdcRes} (hq : s.adc.queue = x :: q) :
    bit (adcPop s).2 31 = true ∧ bits (adcPop s).2 0 14 = x.code % 2 ^ 14 ∧ bits (adcPop s).2 23 6 = x.input % 64
      ∧ bits (adcPop s).2 29 1 = x.conv % 2 := by
  simp only [adcPop, hq, bit, bits, fld, Nat.shiftLeft_eq, Nat.shiftRight_eq_div_pow, Nat.testBit_eq_decide_div_mod_eq,
    decide_eq_true_eq]
  omega

/-- Settles O12: each read row is one direct read, by its checks in order; an offset without a register and the result queue by
what a read of them gives. -/
theorem directReadsAnswerTheRegister : Obligations.DirectReadsAnswerTheRegister := by
  refine ⟨?_, fun s p off hf hw => regRead_absent p hf hw, fun s p i r off hf ha => ?_⟩
  · rintro row hrow a t s _ rfl
    rw [exec_directReads hrow]
    refine ⟨fun hr => congrArg _ (directRead_unreachable hr), fun hr hm => ⟨fun hf hh => congrArg _ (directRead_hidden hr hm hf hh),
      fun ho => ?_⟩⟩
    rw [directRead_open hr hm ho]
    exact ⟨fun hb => congrArg _ (if_neg (by simp [hb])), fun hb hfree => congrArg _ ((if_pos hb).trans (if_pos hfree)),
      fun hb hfree => congrArg _ ((if_pos hb).trans (if_neg (by simp [hfree])))⟩
  · rw [regRead_adcQueue p hf ha]
    exact ⟨fun hq => by rw [adcPop, hq], fun x q hq => ⟨by rw [adcPop, hq], adcPop_fields hq⟩⟩

/-! ### The stored words (R476) -/

/-- A stored word, and its reset value, depend on the register file and the part alone. -/
theorem regStored_congr {s s' : State} (b : Nat) (hregs : s'.regs = s.regs) (hfus : s'.fus = s.fus) :
    regStored s' b = regStored s b := by
  have hreset : regReset s' b = regReset s b := by rw [regReset, regReset, isBig, isBig, hfus]
  rw [regStored, regStored, hregs, hreset]

theorem testBit_ones {k : Nat} (hk : k < 32) : Nat.testBit 0xFFFFFFFF k = true := by
  simpa [hk] using Nat.testBit_two_pow_sub_one 32 k

/-- The state with the RC fields of a word cleared. -/
def rcCleared (s : State) (r : RegD) (a : Nat) : State :=
  if regStored s a &&& accMask r (fun x => x == .rc) = 0 then s
  else setReg s a (regStored s a &&& (0xFFFFFFFF ^^^ accMask r (fun x => x == .rc)))

/-- What a read clears beside the stored word stands outside the register file. -/
theorem regStored_clearRc (s : State) (p : Path) (r : RegD) (i a b : Nat) :
    regStored (clearRc s p r i a) b = regStored (rcCleared s r a) b := by
  have hcleared : (if regStored s a &&& accMask r (fun x => x == .rc) == 0 then s
      else setReg s a (regStored s a &&& (0xFFFFFFFF ^^^ accMask r (fun x => x == .rc)))) = rcCleared s r a := by
    simp only [rcCleared, beq_iff_eq]
  unfold clearRc
  dsimp only
  rw [hcleared]
  split
  · exact regStored_congr b rfl rfl
  · split
    · split
      · rfl
      · exact regStored_congr b rfl rfl
    · split
      · split
        · exact regStored_congr b rfl rfl
        · rfl
      · rfl

theorem testBit_rcCleared (s : State) (r : RegD) (a : Nat) {k : Nat} (hk : k < 32) :
    (regStored (rcCleared s r a) a).testBit k
      = if (accMask r (fun x => x == .rc)).testBit k then false else (regStored s a).testBit k := by
  unfold rcCleared
  split
  · rename_i hzero
    have hbit := congrArg (Nat.testBit · k) hzero
    simp only [Nat.testBit_and, Nat.zero_testBit, Bool.and_eq_false_imp] at hbit
    split
    · rename_i hm
      exact Bool.eq_false_iff.mpr fun hs => by simp [hbit hs] at hm
    · rfl
  · rw [regStored_setReg_same, Nat.testBit_mod_two_pow, Nat.testBit_and, Nat.testBit_xor, testBit_ones hk]
    cases (accMask r (fun x => x == .rc)).testBit k <;> simp [hk]

theorem regStored_rcCleared_other (s : State) (r : RegD) {a b : Nat} (h : b ≠ a) :
    regStored (rcCleared s r a) b = regStored s b := by
  unfold rcCleared
  split
  · rfl
  · exact regStored_setReg_other s _ h

/-- Settles O16: the read of a 32-bit register other than the result queue is its value and `clearRc`, which changes no stored
word but by `rcCleared`. -/
theorem readClearsOnlyReadClearFields : Obligations.ReadClearsOnlyReadClearFields := by
  intro s p i off r hf hw ha
  have hread : regRead s p off = (clearRc s p r i off, regValue s p off) := by simp [regRead, hf, hw, ha]
  rw [hread]
  refine ⟨rfl, fun k hk => ?_, fun b hb => ?_⟩
  · rw [regStored_clearRc, testBit_rcCleared s r off hk]
  · rw [regStored_clearRc, regStored_rcCleared_other s r hb]

/-! ### A word stored by a write (R476, R479) -/

/-- The bits of a register that a write stores: its RW and RWS fields but for those held. -/
def storedMask (r : RegD) (drop : Nat) : Nat := accMask r (fun x => x == .rw || x == .rws) &&& (0xFFFFFFFF ^^^ drop)

/-- The state with the written bits of a word stored. -/
def wordStored (s : State) (r : RegD) (a v drop : Nat) : State :=
  setReg s a ((regStored s a &&& (0xFFFFFFFF ^^^ storedMask r drop)) ||| (v &&& storedMask r drop))

section
variable {s : State} {r : RegD} {a v drop : Nat}

theorem storeWord_nothing (h : storedMask r drop = 0) : storeWord s r a v drop = s :=
  if_pos (beq_iff_eq.mpr h)

theorem storeWord_stores (h : storedMask r drop ≠ 0) : storeWord s r a v drop
    = if keptMask a = 0 then wordStored s r a v drop
      else { wordStored s r a v drop with nvm := { s.nvm with confPending := sins s.nvm.confPending a } } := by
  simp only [← beq_iff_eq (a := keptMask a)]
  exact if_neg (mt beq_iff_eq.mp h)

/-- Storing a word changes the register file as `wordStored` does. -/
theorem regStored_storeWord (h : storedMask r drop ≠ 0) (b : Nat) :
    regStored (storeWord s r a v drop) b = regStored (wordStored s r a v drop) b := by
  rw [storeWord_stores h]
  split
  · rfl
  · exact regStored_congr b rfl rfl

theorem testBit_storeWord {k : Nat} (hk : k < 32) : (regStored (storeWord s r a v drop) a).testBit k
    = if (storedMask r drop).testBit k then v.testBit k else (regStored s a).testBit k := by
  by_cases h : storedMask r drop = 0
  · rw [storeWord_nothing h, h, Nat.zero_testBit]
    rfl
  · rw [regStored_storeWord h, wordStored, regStored_setReg_same, Nat.testBit_mod_two_pow, Nat.testBit_or, Nat.testBit_and,
      Nat.testBit_and, Nat.testBit_xor, testBit_ones hk]
    cases (storedMask r drop).testBit k <;> simp [hk]

theorem regStored_storeWord_other {b : Nat} (hb : b ≠ a) : regStored (storeWord s r a v drop) b = regStored s b := by
  by_cases h : storedMask r drop = 0
  · rw [storeWord_nothing h]
  · rw [regStored_storeWord h, wordStored, regStored_setReg_other s _ hb]

theorem storeWord_pending (h : storedMask r drop ≠ 0) (hk : keptMask a ≠ 0) : a ∈ (storeWord s r a v drop).nvm.confPending := by
  rw [storeWord_stores h, if_neg hk]
  exact (mem_sins _ _ _).mpr (.inl rfl)

end

/-! ### Direct writes (R475, R480) -/

section
variable {s : State} {a : RegAcc} (v : Nat) (ok : Bool)

theorem directWrite_unreachable (hr : reachable s a = false) : directWrite a v ok s = s := by simp [directWrite, hr]

section
variable (hr : reachable s a = true) (hm : malformed a = false)
include hr hm

/-- A host function writes doorbells alone. -/
theorem directWrite_host (hf : a.full = false) (ht : (regCanon a.off).1 ≠ rTrlQpSqTailDb)
    (hh : (regCanon a.off).1 ≠ rTrlQpCqHeadDb) : directWrite a v ok s = regFault s a.off := by
  simp [directWrite, hr, hm, hf, ht, hh]

theorem directWrite_waits (hf : a.full = true) (hb : bridged a = true) (hfree : bridgeFree s = false) :
    directWrite a v ok s = s := by
  simp [directWrite, hr, hm, hf, hb, hfree]

theorem directWrite_absent (hf : a.full = true) (hb : bridged a = false) (hnone : regFind s a.off = none) :
    directWrite a v ok s = s := by
  simp [directWrite, hr, hm, hf, hb, regWrite_absent v ok hnone]

end

/-- A selector is no doorbell. -/
theorem isSel_not_doorbell {c : Nat} (h : isSel c = true) : c ≠ rTrlQpSqTailDb ∧ c ≠ rTrlQpCqHeadDb :=
  ⟨by rintro rfl; exact absurd h (by decide), by rintro rfl; exact absurd h (by decide)⟩

/-- A write of a selector sets the selection of its own path (R9). -/
theorem regWrite_sel {c i : Nat} {r : RegD} (hl : lands s a = some (c, i, false)) (hf : regFind s a.off = some (r, i, false))
    (hsel : isSel c = true) : regWrite s a v ok = { s with paths := { s.paths with
      sels := tset s.paths.sels (pathReg a.path a.off) (BitVec.ofNat 32 (v &&& accMask r (fun x => x == .rw))) } } := by
  obtain ⟨r', hf', hc, -⟩ := lands_some hl
  obtain rfl : r' = r := congrArg Prod.fst (Option.some.inj (hf'.symm.trans hf))
  obtain ⟨htail, hhead⟩ := isSel_not_doorbell hsel
  simp [regWrite, hf, hc, htail, hhead, hsel]

/-- A write of a plain register stores its word and has no other effect. -/
theorem regWrite_plain {c i : Nat} {r : RegD} (hl : lands s a = some (c, i, false)) (hf : regFind s a.off = some (r, i, false))
    (hp : plainReg c = true) : regWrite s a v ok = storeWord s r a.off v (heldBits s c i) := by
  obtain ⟨r', hf', hc, -⟩ := lands_some hl
  obtain rfl : r' = r := congrArg Prod.fst (Option.some.inj (hf'.symm.trans hf))
  obtain ⟨hmem, -, hcanon, -⟩ := regFind_some hf
  have hoff : (regCanon a.off).1 = c := (hcanon rfl).symm.trans hc
  have htail : c ≠ rTrlQpSqTailDb := by rintro rfl; exact absurd hp (by decide)
  have hhead : c ≠ rTrlQpCqHeadDb := by rintro rfl; exact absurd hp (by decide)
  simp only [plainReg, Bool.and_eq_true, Bool.not_eq_true', bne_iff_ne] at hp
  obtain ⟨⟨⟨⟨⟨⟨⟨⟨⟨⟨⟨⟨⟨⟨⟨⟨⟨⟨hsel, hqp⟩, hwide⟩, hfuse⟩, hrdp⟩, hhb⟩, htwi⟩, hflt⟩, hseq⟩, hfo⟩, hexl⟩, hadc0⟩, hadc1⟩, hlane⟩,
    hscrub⟩, hstream⟩, hwear⟩, hsoc⟩, hstep⟩ := hp
  have hnarrow : r'.wide = false := by
    simpa [hc] using List.any_eq_false.mp hwide r' hmem
  simp [regWrite, hf, hc, htail, hhead, hsel, hnarrow, hqp, hfuse, hrdp, hhb, htwi, hflt, hseq, regFunction, hoff, hlane, hscrub,
    hstream, hwear, hsoc, hstep, hfo, afterStore, hadc0, hadc1, hexl]

end

/-- Settles O15: each write row is one direct write, by its checks in order; one that lands on a selector or a plain register by
what the register does, and a stored word bit by bit. -/
theorem registerWriteSetsWritableFields : Obligations.RegisterWriteSetsWritableFields := by
  refine ⟨?_, fun a v t i c r s u hu hl hf hsel => ?_, fun a v t i c r s u hu hl hf hp => ?_, fun s r off v drop _ _ => ?_⟩
  · rintro row hrow a v t s _ rfl
    obtain ⟨ok, he⟩ := exec_directWrites hrow a v t s
    rw [he]
    exact ⟨fun hr => congrArg _ (directWrite_unreachable v ok hr),
      fun hr hm hf ht hh => congrArg _ (directWrite_host v ok hr hm hf ht hh),
      fun hr hm hf hb hfree => congrArg _ (directWrite_waits v ok hr hm hf hb hfree),
      fun hr hm hf hb hnone => congrArg _ (directWrite_absent v ok hr hm hf hb hnone)⟩
  · exact congrArg _ (directWrite_of_lands hu hl (regWrite_sel v true hl hf hsel))
  · exact congrArg _ (directWrite_of_lands hu hl (regWrite_plain v true hl hf hp))
  · exact ⟨fun k hk => testBit_storeWord hk, fun b hb => regStored_storeWord_other hb, storeWord_pending⟩

end Sys2Proof.Machine

/-! The fault collector's events and commands and those of the event recorder (R373–R375, R377, R381, R385, R391–R396, log entries
19, 38 and 89). -/

namespace Sys2Proof.Machine

open Sys2Proof

/-! ### Reports of checkers (R373, R374, R381) -/

theorem exec_brokenPath (p : PairRef) (t : Nat) (s : State) : exec (.brokenPath p t) s = execBrokenPath p t s := rfl

section
variable {s u : State} {t : Nat} (hu : u = tick s t)
include hu

section
variable {n detail missed : Nat} {holds : Bool}

theorem exec_faultReport_ignored (h : (source u n).polled = true ∨ (sources u).contains n = false) :
    exec (.faultReport n detail missed holds t) s = .next u := by
  subst hu
  exact congrArg _ (if_pos (by rcases h with h | h <;> simp only [h, Bool.not_false, Bool.true_or, Bool.or_true]))

section
variable (hp : (source u n).polled = false) (hs : (sources u).contains n = true)
include hp hs

/-- A report that is taken, by the injection of its source. -/
theorem exec_faultReport_taken : exec (.faultReport n detail missed holds t) s
    = .next (match (source u n).inject with
      | some j => if j.path then raiseAs u n detail holds .fatal else injectedCheck u n detail missed holds j
      | none => raiseAs u n detail holds .fatal) := by
  subst hu
  exact congrArg _ (if_neg (by simp only [hp, hs, Bool.not_true, Bool.or_false, Bool.false_eq_true, not_false_eq_true]))

/-- Without an injection, or under a path test, a report is a detection. -/
theorem exec_faultReport_raises (hj : ∀ j, (source u n).inject = some j → j.path = true) :
    exec (.faultReport n detail missed holds t) s = .next (raiseAs u n detail holds .fatal) := by
  rw [exec_faultReport_taken hu hp hs]
  cases h : (source u n).inject with
  | none => rfl
  | some j => exact congrArg _ (if_pos (hj j h))

theorem exec_faultReport_checks {j : Inject} (hj : (source u n).inject = some j) (hpath : j.path = false) :
    exec (.faultReport n detail missed holds t) s = .next (injectedCheck u n detail missed holds j) := by
  rw [exec_faultReport_taken hu hp hs, hj]
  exact congrArg _ (if_neg (by simp [hpath]))

end

end

/-! ### Broken paths (R374) -/

section
variable {n : Nat}

/-- The path test of a source detects its broken path. -/
theorem exec_brokenPath_tested {j : Inject} (hj : (source u n).inject = some j) (hpath : j.path = true) :
    exec (.brokenPath (.source n) t) s = .next (endInject (captureInjected u 0x1F0 n) n { j with detected := 1 }) := by
  subst hu
  simp only [exec_brokenPath, execBrokenPath, hj, hpath, if_true]

section
variable (hno : ∀ j, (source u n).inject = some j → j.path = false)
include hno

theorem exec_brokenPath_nothing
    (h : (source u n).polled = true ∨ ((source u n).inject = none ∧ (sources u).contains n = false)) :
    exec (.brokenPath (.source n) t) s = .next u := by
  subst hu
  cases hj : (source (tick s t) n).inject with
  | none =>
    have hg : ((source (tick s t) n).polled || !(sources (tick s t)).contains n) = true := by
      rcases h with h | ⟨-, h⟩ <;> simp only [h, Bool.not_false, Bool.true_or, Bool.or_true]
    simp only [exec_brokenPath, execBrokenPath, hj, hg, if_true]
  | some j =>
    have hp : (source (tick s t) n).polled = true := by
      rcases h with h | ⟨h, -⟩
      · exact h
      · cases hj.symm.trans h
    simp only [exec_brokenPath, execBrokenPath, hj, hno j hj, hp, Bool.false_eq_true, if_false, if_true]

theorem exec_brokenPath_polls
    (h : ¬((source u n).polled = true ∨ ((source u n).inject = none ∧ (sources u).contains n = false))) :
    exec (.brokenPath (.source n) t) s = .next (raise (setSource u n { source u n with polled := true }) 0x1F0 n) := by
  subst hu
  rw [not_or, Bool.not_eq_true] at h
  obtain ⟨hp, hs⟩ := h
  cases hj : (source (tick s t) n).inject with
  | none =>
    have hg : ((source (tick s t) n).polled || !(sources (tick s t)).contains n) = false := by
      rw [hp, (Bool.not_eq_false _).mp (not_and.mp hs hj)]
      rfl
    simp only [exec_brokenPath, execBrokenPath, hj, hg, Bool.false_eq_true, if_false]
  | some j => simp only [exec_brokenPath, execBrokenPath, hj, hno j hj, hp, Bool.false_eq_true, if_false]

end

end

section
variable {k : Nat}

theorem exec_brokenWire_nothing (h : 2 < k ∨ u.flt.brokenWires.contains k = true) :
    exec (.brokenPath (.wire k) t) s = .next u := by
  subst hu
  exact congrArg _ (if_pos (by simpa only [Bool.or_eq_true, decide_eq_true_eq] using h))

theorem exec_brokenWire_noted (hk : k ≤ 2) (h : u.flt.brokenWires.contains k = false) : exec (.brokenPath (.wire k) t) s
    = .next (raiseOpen { u with flt := { u.flt with brokenWires := sins u.flt.brokenWires k } } 0x001) := by
  subst hu
  exact congrArg _ (if_neg (by rw [h]; simpa using hk))

theorem exec_brokenRail_nothing (h : 23 < k ∨ u.psq.scanSlots.contains k = true) :
    exec (.brokenPath (.rail k) t) s = .next u := by
  subst hu
  exact congrArg _ (if_pos (by simpa only [Bool.or_eq_true, decide_eq_true_eq] using h))

theorem exec_brokenRail_noted (hk : k ≤ 23) (h : u.psq.scanSlots.contains k = false) : exec (.brokenPath (.rail k) t) s
    = .next (raise { u with psq := { u.psq with scanSlots := sins u.psq.scanSlots k } } 0x1F0 0x189) := by
  subst hu
  exact congrArg _ (if_neg (by rw [h]; simpa using hk))

end

/-! ### Polls and the rate of records (R374, R385) -/

section
variable {n detail : Nat} {fault : Bool}

theorem exec_polledSourceCheck_not_polled (hp : (source u n).polled = false) :
    exec (.polledSourceCheck n detail fault t) s = .next u := by
  subst hu
  exact congrArg _ (if_pos (by simp [hp]))

section
variable (hp : (source u n).polled = true)
include hp

theorem exec_polledSourceCheck_clears : exec (.polledSourceCheck n detail false t) s = .next (clearLive u n) := by
  subst hu
  exact congrArg _ ((if_neg (by simp [hp])).trans (if_pos rfl))

theorem exec_polledSourceCheck_raises : exec (.polledSourceCheck n detail true t) s
    = .next (if (source u n).live then u else raiseAs u n detail true .fatal) := by
  subst hu
  exact congrArg _ ((if_neg (by simp [hp])).trans (if_neg (by decide)))

end

theorem exec_logRatePeriod_waits (h : logReady u = false ∨ ∃ y, tget u.log.lastRec n = some y ∧ u.now < y + evRate u n) :
    exec (.logRatePeriod n t) s = .next u := by
  subst hu
  refine congrArg _ (if_neg ?_)
  rcases h with h | ⟨y, hy, h⟩
  · simp [h]
  · simp only [hy, decide_eq_false (Nat.not_le.mpr h), Bool.and_false, Bool.false_eq_true, not_false_eq_true]

theorem exec_logRatePeriod_records (hr : logReady u = true)
    (h : ∀ y, tget u.log.lastRec n = some y → y + evRate u n ≤ u.now) :
    exec (.logRatePeriod n t) s = .next (flushBin u n) := by
  subst hu
  refine congrArg _ (if_pos ?_)
  cases hy : tget (tick s t).log.lastRec n with
  | none => simp [hr]
  | some y => simp only [hr, h y hy, decide_true, Bool.and_self]

end

end

/-! ### FAULT_STATUS, FAULT_CLEAR and FAULT_INJECT (R392–R394) -/

section
variable {c : TrellisCmd} {s v : State} {f : InFlight}

theorem exec_faultStatus (h : started 0x0600 c s = some (v, f)) : exec (.faultStatus c) s = .next (cmdFaultStatus f v) :=
  congrArg _ (submit_of_started cmdFaultStatus h)

theorem exec_faultClear (h : started 0x0601 c s = some (v, f)) : exec (.faultClear c) s = .next (cmdFaultClear f v) :=
  congrArg _ (submit_of_started cmdFaultClear h)

theorem exec_faultInject (h : started 0x0602 c s = some (v, f)) : exec (.faultInject c) s = .next (cmdFaultInject f v) :=
  congrArg Host.Outcome.next (submit_of_started cmdFaultInject h)

end

section
variable {f : InFlight} {v : State}

/-- FAULT_STATUS ends with its figures, the rows asked for and the snapshot where asked for. -/
def faultStatusEnds (f : InFlight) (v : State) : State :=
  endOut v f.id (le (v.flt.latched.getD 0xFFFF) 2 ++ le ((firstError v).getD 0xFFFF) 2
      ++ le (v.flt.src.filter (fun p => p.2.sticky)).length 4 ++ le (liveCount v) 4
      ++ le (b2n v.flt.latched.isSome + fld (b2n v.flt.snapshot.isSome) 1 1 + fld (b2n (v.flt.src.any (fun p => p.2.polled))) 2 1) 1)
    ((List.range (pNum f.cmd 26 2)).flatMap (fun i => le (pNum f.cmd 24 2 + i) 2
        ++ le (fltSrcWord v (pNum f.cmd 24 2 + i) / 2 ^ 24) 1 ++ zeros 1 ++ le (source v (pNum f.cmd 24 2 + i)).count 4)
      ++ match v.flt.snapshot with
        | some l => if bit (pByte f.cmd 28) 0 then padTo (l.flatMap histBytes) 512 else []
        | none => [])

theorem cmdFaultStatus_eq : cmdFaultStatus f v
    = if 0x1FF < pNum f.cmd 24 2 then badParam v f.id 24
      else if pNum f.cmd 26 2 = 0 || 512 < pNum f.cmd 26 2 || 0x200 < pNum f.cmd 24 2 + pNum f.cmd 26 2 then badParam v f.id 26
      else if f.cmd.payLen < 8 * pNum f.cmd 26 2 + (if bit (pByte f.cmd 28) 0 then 512 else 0) then badParam v f.id 0x40
      else faultStatusEnds f v := by rfl

theorem cmdFaultStatus_bad_first (h : 0x1FF < pNum f.cmd 24 2) : cmdFaultStatus f v = badParam v f.id 24 := by
  rw [cmdFaultStatus_eq, if_pos h]

section
variable (ha : pNum f.cmd 24 2 ≤ 0x1FF)
include ha

theorem cmdFaultStatus_bad_count (h : pNum f.cmd 26 2 = 0 ∨ 512 < pNum f.cmd 26 2 ∨ 0x200 < pNum f.cmd 24 2 + pNum f.cmd 26 2) :
    cmdFaultStatus f v = badParam v f.id 26 := by
  rw [cmdFaultStatus_eq, if_neg (Nat.not_lt.mpr ha), if_pos (by simpa [or_assoc] using h)]

/-- A range of sources inside Table 14.2, by the room for its rows. -/
theorem cmdFaultStatus_range (hn : 0 < pNum f.cmd 26 2) (hend : pNum f.cmd 24 2 + pNum f.cmd 26 2 ≤ 0x200) :
    cmdFaultStatus f v
      = if f.cmd.payLen < 8 * pNum f.cmd 26 2 + (if bit (pByte f.cmd 28) 0 then 512 else 0) then badParam v f.id 0x40
        else faultStatusEnds f v := by
  have h512 : pNum f.cmd 26 2 ≤ 512 := by omega
  rw [cmdFaultStatus_eq, if_neg (Nat.not_lt.mpr ha), if_neg (by simp [hn.ne', h512, hend])]

end

/-- SOURCE of FAULT_CLEAR names a source number this unit has, one without a checker, or all of them (R393). -/
def Clearable (f : InFlight) (v : State) : Prop :=
  (pNum f.cmd 24 2 ≤ 0x1FF ∨ pNum f.cmd 24 2 = 0xFFFF)
    ∧ ¬((srcKind (pNum f.cmd 24 2)).isSome = true ∧ (sources v).contains (pNum f.cmd 24 2) = false)

/-- What FAULT_CLEAR of a source clears: what is sticky or counted, but the latched source. -/
def clearedSources (f : InFlight) (v : State) : List Nat :=
  (v.flt.src.filter (fun p => (pNum f.cmd 24 2 == 0xFFFF || p.1 == pNum f.cmd 24 2) && v.flt.latched != some p.1
    && (p.2.sticky || p.2.count != 0))).map (·.1)

theorem cmdFaultClear_eq : cmdFaultClear f v
    = if (0x1FF < pNum f.cmd 24 2 && pNum f.cmd 24 2 != 0xFFFF) || absentSource v (pNum f.cmd 24 2) then badParam v f.id 24
      else if 1 < pByte f.cmd 26 then badParam v f.id 26
      else if pByte f.cmd 26 == 1 then endOk { v with flt := { v.flt with snapshot := none } } f.id (le 0 4)
      else if v.flt.latched == some (pNum f.cmd 24 2) then conflict v f.id 0x10
      else endOk ((clearedSources f v).foldl clearSource v) f.id (le (clearedSources f v).length 4) := by rfl

/-- The test that refuses SOURCE is the negation of `Clearable`. -/
theorem source_refused_iff : ((0x1FF < pNum f.cmd 24 2 && pNum f.cmd 24 2 != 0xFFFF) || absentSource v (pNum f.cmd 24 2)) = true
    ↔ ¬Clearable f v := by
  simp only [Clearable, absentSource, not_and_or, not_not, Bool.or_eq_true, Bool.and_eq_true, Bool.not_eq_true',
    decide_eq_true_eq, bne_iff_ne, not_or, not_le, ne_eq]

theorem cmdFaultClear_bad_source (h : ¬Clearable f v) : cmdFaultClear f v = badParam v f.id 24 := by
  rw [cmdFaultClear_eq, if_pos (source_refused_iff.mpr h)]

section
variable (h : Clearable f v)
include h

theorem cmdFaultClear_bad_action (ha : 1 < pByte f.cmd 26) : cmdFaultClear f v = badParam v f.id 26 := by
  rw [cmdFaultClear_eq, if_neg (mt source_refused_iff.mp (not_not_intro h)), if_pos ha]

theorem cmdFaultClear_releases (ha : pByte f.cmd 26 = 1) :
    cmdFaultClear f v = endOk { v with flt := { v.flt with snapshot := none } } f.id (le 0 4) := by
  rw [cmdFaultClear_eq, if_neg (mt source_refused_iff.mp (not_not_intro h)), if_neg (by simp [ha]), if_pos (by simp [ha])]

theorem cmdFaultClear_latched (ha : pByte f.cmd 26 = 0) (hl : v.flt.latched = some (pNum f.cmd 24 2)) :
    cmdFaultClear f v = conflict v f.id 0x10 := by
  rw [cmdFaultClear_eq, if_neg (mt source_refused_iff.mp (not_not_intro h)), if_neg (by simp [ha]), if_neg (by simp [ha]),
    if_pos (by simp [hl])]

theorem cmdFaultClear_clears (ha : pByte f.cmd 26 = 0) (hl : v.flt.latched ≠ some (pNum f.cmd 24 2)) :
    cmdFaultClear f v = endOk ((clearedSources f v).foldl clearSource v) f.id (le (clearedSources f v).length 4) := by
  rw [cmdFaultClear_eq, if_neg (mt source_refused_iff.mp (not_not_intro h)), if_neg (by simp [ha]), if_neg (by simp [ha]),
    if_neg (by simp [hl])]

end

/-- FAULT_INJECT arms its source for a second. -/
def armed (f : InFlight) (v : State) : State :=
  let n := pNum f.cmd 24 2
  let k := if pByte f.cmd 26 = 1 then 1 else pByte f.cmd 28
  setJob (setSource v n { source v n with
    inject := some { live := bit (pByte f.cmd 27) 0, path := pByte f.cmd 26 == 1, checks := k, left := k, cmd := some f.id } })
    f.id (.inject n (v.now + 1000000))

/-- FAULT_INJECT with its operands in range: barred, armed already, or armed. -/
def injectActs (f : InFlight) (v : State) : State :=
  if bit (pByte f.cmd 27) 0 && 2 ≤ reactRank (pNum f.cmd 24 2) && 2 ≤ lifecycle v then conflict v f.id 0x10
  else if (source v (pNum f.cmd 24 2)).inject.isSome then conflict v f.id 0x11
  else armed f v

theorem cmdFaultInject_eq : cmdFaultInject f v
    = if !(sources v).contains (pNum f.cmd 24 2) then badParam v f.id 24
      else if 1 < pByte f.cmd 26 then badParam v f.id 26
      else if 1 < pByte f.cmd 27 then badParam v f.id 27
      else if pByte f.cmd 26 == 0 && pByte f.cmd 28 == 0 then badParam v f.id 28
      else injectActs f v := by
  simp only [cmdFaultInject, injectActs, armed, beq_iff_eq]

theorem cmdFaultInject_bad_source (h : (sources v).contains (pNum f.cmd 24 2) = false) :
    cmdFaultInject f v = badParam v f.id 24 := by
  rw [cmdFaultInject_eq, h]
  rfl

section
variable (hs : (sources v).contains (pNum f.cmd 24 2) = true)
include hs

theorem cmdFaultInject_bad_mode (h : 1 < pByte f.cmd 26) : cmdFaultInject f v = badParam v f.id 26 := by
  rw [cmdFaultInject_eq, hs, if_neg (by decide), if_pos h]

theorem cmdFaultInject_bad_flags (hm : pByte f.cmd 26 ≤ 1) (h : 1 < pByte f.cmd 27) :
    cmdFaultInject f v = badParam v f.id 27 := by
  rw [cmdFaultInject_eq, hs, if_neg (by decide), if_neg (Nat.not_lt.mpr hm), if_pos h]

theorem cmdFaultInject_bad_checks (hm : pByte f.cmd 26 = 0) (hl : pByte f.cmd 27 ≤ 1) (h : pByte f.cmd 28 = 0) :
    cmdFaultInject f v = badParam v f.id 28 := by
  rw [cmdFaultInject_eq, hs, if_neg (by decide), if_neg (by simp [hm]), if_neg (Nat.not_lt.mpr hl), if_pos (by simp [hm, h])]

theorem cmdFaultInject_formed (hm : pByte f.cmd 26 ≤ 1) (hl : pByte f.cmd 27 ≤ 1) (hk : pByte f.cmd 26 = 0 → pByte f.cmd 28 ≠ 0) :
    cmdFaultInject f v = injectActs f v := by
  rw [cmdFaultInject_eq, hs, if_neg (by decide), if_neg (Nat.not_lt.mpr hm), if_neg (Nat.not_lt.mpr hl), if_neg (by simpa using hk)]

end

section
variable {n : Nat} (hn : pNum f.cmd 24 2 = n)
include hn

theorem injectActs_barred (h : bit (pByte f.cmd 27) 0 = true ∧ 2 ≤ reactRank n ∧ 2 ≤ lifecycle v) :
    injectActs f v = conflict v f.id 0x10 := by
  subst hn
  exact if_pos (by simpa [and_assoc] using h)

section
variable (h : ¬(bit (pByte f.cmd 27) 0 = true ∧ 2 ≤ reactRank n ∧ 2 ≤ lifecycle v))
include h

theorem injectActs_open : injectActs f v = if (source v n).inject.isSome then conflict v f.id 0x11 else armed f v := by
  subst hn
  exact if_neg (by simpa [and_assoc] using h)

theorem injectActs_pending (hj : (source v n).inject.isSome = true) : injectActs f v = conflict v f.id 0x11 := by
  rw [injectActs_open hn h, if_pos hj]

theorem injectActs_arms (hj : (source v n).inject = none) : injectActs f v = armed f v := by
  rw [injectActs_open hn h, hj]
  rfl

end

end

end

/-! ### The commands of the event log (R391, R395, R396) -/

section
variable {c : TrellisCmd} {s v : State} {f : InFlight}

theorem exec_logCursorSet (h : started 0x0700 c s = some (v, f)) : exec (.logCursorSet c) s = .next (cmdLogCursorSet f v) :=
  congrArg _ (submit_of_started cmdLogCursorSet h)

theorem exec_logReadWindow (h : started 0x0701 c s = some (v, f)) : exec (.logReadWindow c) s = .next (cmdLogReadWindow f v) :=
  congrArg _ (submit_of_started cmdLogReadWindow h)

theorem exec_logClear (h : started 0x0702 c s = some (v, f)) : exec (.logClear c) s = .next (cmdLogClear f v) :=
  congrArg _ (submit_of_started cmdLogClear h)

end

section
variable {f : InFlight} {v : State}

/-- The filter that LOG_CURSOR_SET gives its path. -/
def filterSet (f : InFlight) : LogFilter :=
  { minSev := pByte f.cmd 25, code := if pNum f.cmd 26 2 == 0xFFFF then none else some (pNum f.cmd 26 2) }

theorem filterSet_eq : filterSet f
    = { minSev := pByte f.cmd 25, code := if pNum f.cmd 26 2 = 0xFFFF then none else some (pNum f.cmd 26 2) } := by
  simp only [filterSet, beq_iff_eq]

/-- LOG_CURSOR_SET sets its path's filter and cursor, and ends with the cursor and the records from there. -/
def cursorSetEnds (f : InFlight) (v : State) (cur : Nat) : State :=
  let p := carrierPath f.cmd.carrier
  let w := setCursor { v with paths := { v.paths with filters := tset v.paths.filters (pathKey p) (filterSet f) } } p cur
  endOk w f.id (le (cur % 2 ^ 48) 8 ++ le (logView w (cur % 2 ^ 48) (filterSet f)).length 4)

/-- The cursor of a mode: the oldest record, the newest, the one named, the one after it. -/
def cursorOfMode (f : InFlight) (v : State) : Nat :=
  match pByte f.cmd 24 with
  | 0 => (v.log.recs.head?.map (·.seq)).getD (v.log.seq + 1)
  | 1 => (v.log.recs.getLast?.map (·.seq)).getD (v.log.seq + 1)
  | 2 => pNum f.cmd 32 8 % 2 ^ 48
  | _ => pNum f.cmd 32 8 % 2 ^ 48 + 1

theorem cmdLogCursorSet_bad_mode (h : 3 < pByte f.cmd 24) : cmdLogCursorSet f v = badParam v f.id 24 := if_pos h

theorem cmdLogCursorSet_sets (h : pByte f.cmd 24 ≤ 3) : cmdLogCursorSet f v = cursorSetEnds f v (cursorOfMode f v) :=
  if_neg (Nat.not_lt.mpr h)

/-- LOG_READ_WINDOW ends with the records of its window, how many were skipped and the next number. -/
def windowRead (f : InFlight) (v : State) : State :=
  let p := carrierPath f.cmd.carrier
  let all := logView v (cursorOf v p) (filterOf v p)
  let l := all.take (f.cmd.payLen / 256)
  let hi := (l.getLast?.map (·.seq)).getD v.log.seq
  let w := if bit (pByte f.cmd 24) 0 && !l.isEmpty then moveCursor v p (hi + 1) else v
  endOut w f.id (le l.length 4 ++ le (skipped v p (cursorOf v p) hi) 4
    ++ le (((all.drop l.length).head?.map (·.seq)).getD (v.log.seq + 1)) 8) (padTo (l.flatMap recBytes) f.cmd.payLen)

theorem cmdLogReadWindow_bad_length (h : f.cmd.payLen % 256 ≠ 0 ∨ f.cmd.payLen < 256 ∨ 4096 < f.cmd.payLen) :
    cmdLogReadWindow f v = badParam v f.id 0x40 :=
  if_pos (by simpa [or_assoc] using h)

theorem cmdLogReadWindow_reads (hm : f.cmd.payLen % 256 = 0) (hl : 256 ≤ f.cmd.payLen) (hh : f.cmd.payLen ≤ 4096) :
    cmdLogReadWindow f v = windowRead f v :=
  if_neg (by simp [hm, hl, hh])

theorem cmdLogClear_joins (h : v.log.clearing.isSome = true) : cmdLogClear f v = setJob v f.id .logClear := if_pos h

theorem cmdLogClear_erases (h : v.log.clearing = none) : cmdLogClear f v = (List.range 128).foldl (fun s k =>
    nvmPost s { agent := 6, erase := true, addr := logSectorAddr k, what := .logSector k })
    (setJob { v with log := { v.log with clearing := some f.id, erased := 0 } } f.id .logClear) :=
  if_neg (by simp [h])

end

/-- Settles O57: each event by what its source or wire shows, each command by its checks in order and then its effect. -/
theorem collectorCommands : Obligations.CollectorCommands := by
  refine ⟨fun n detail missed k t holds fault s u hu => ⟨exec_faultReport_ignored hu,
      fun hp hs => ⟨fun h => exec_faultReport_raises hu hp hs fun j hj => (nomatch h.symm.trans hj),
        fun j h hpath => exec_faultReport_raises hu hp hs fun k hk => Option.some.inj (h.symm.trans hk) ▸ hpath,
        fun j hj => exec_faultReport_checks hu hp hs hj⟩,
      fun j hj => exec_brokenPath_tested hu hj, fun hno => ⟨exec_brokenPath_nothing hu hno, exec_brokenPath_polls hu hno⟩,
      exec_brokenWire_nothing hu, exec_brokenWire_noted hu, exec_brokenRail_nothing hu, exec_brokenRail_noted hu,
      exec_polledSourceCheck_not_polled hu,
      fun hp => ⟨exec_polledSourceCheck_clears hu hp, exec_polledSourceCheck_raises hu hp⟩,
      exec_logRatePeriod_waits hu, exec_logRatePeriod_records hu⟩,
    fun c s v f hst => ?_, fun c s v f hst => ?_, fun c s v f hst => ?_, fun c s v f hst => ?_, fun c s v f hst => ?_,
    fun c s v f hst => ?_⟩
  · rw [exec_faultStatus hst]
    exact ⟨fun h => congrArg _ (cmdFaultStatus_bad_first h), fun ha h => congrArg _ (cmdFaultStatus_bad_count ha h),
      fun ha hn hend h => congrArg _ ((cmdFaultStatus_range ha hn hend).trans (if_pos h)),
      fun ha hn hend h => congrArg _ ((cmdFaultStatus_range ha hn hend).trans (if_neg (Nat.not_lt.mpr h)))⟩
  · rw [exec_faultClear hst]
    exact ⟨fun h => congrArg _ (cmdFaultClear_bad_source h), fun h ha => congrArg _ (cmdFaultClear_bad_action h ha),
      fun h ha => congrArg _ (cmdFaultClear_releases h ha), fun h ha hl => congrArg _ (cmdFaultClear_latched h ha hl),
      fun h ha hl => congrArg _ (cmdFaultClear_clears h ha hl)⟩
  · rw [exec_faultInject hst]
    exact ⟨fun h => congrArg _ (cmdFaultInject_bad_source h), fun hs h => congrArg _ (cmdFaultInject_bad_mode hs h),
      fun hs hm h => congrArg _ (cmdFaultInject_bad_flags hs hm h),
      fun hs hm hl h => congrArg _ (cmdFaultInject_bad_checks hs hm hl h),
      fun ⟨hs, hm, hl, hk⟩ hb => congrArg _ ((cmdFaultInject_formed hs hm hl hk).trans (injectActs_barred rfl hb)),
      fun ⟨hs, hm, hl, hk⟩ hb hj => congrArg _ ((cmdFaultInject_formed hs hm hl hk).trans (injectActs_pending rfl hb hj)),
      fun ⟨hs, hm, hl, hk⟩ hb hj => congrArg _ ((cmdFaultInject_formed hs hm hl hk).trans (injectActs_arms rfl hb hj))⟩
  · rw [exec_logCursorSet hst]
    refine ⟨fun h => congrArg _ (cmdLogCursorSet_bad_mode h), fun h => ?_, fun h => ?_, fun h => ?_, fun h => ?_⟩ <;>
      exact congrArg _ ((cmdLogCursorSet_sets (by omega)).trans (by rw [cursorSetEnds, filterSet_eq, cursorOfMode, h]; rfl))
  · rw [exec_logReadWindow hst]
    exact ⟨fun h => congrArg _ (cmdLogReadWindow_bad_length h),
      fun hm hl hh => congrArg _ (cmdLogReadWindow_reads hm hl hh)⟩
  · rw [exec_logClear hst]
    exact ⟨fun h => congrArg _ (cmdLogClear_joins h), fun h => congrArg _ (cmdLogClear_erases h)⟩

end Sys2Proof.Machine

/-! The units of the weeding pass, its coverage and its pause, and telemetry (R426–R429, R433, R434, R381, R394, log entries 21, 62
and 70). -/

namespace Sys2Proof.Machine

open Sys2Proof

/-! ### Units of the pass (R427, R428, Table 16.2) -/

theorem exec_comparatorTrip (n : Nat) (p : Bool) (t : Nat) (s : State) : exec (.comparatorTrip n p t) s = execComparatorTrip n p t s := rfl

theorem exec_weedingPauseEnd (t : Nat) (s : State) : exec (.weedingPauseEnd t) s = execWeedingPauseEnd t s := rfl

section
variable {s u : State} {t n : Nat} (hu : u = tick s t)
include hu

/-! #### Tines -/

theorem exec_logicBist_nothing {p : Bool} (h : unitEnds u 0 n = false) : exec (.logicBist n p t) s = .next u := by
  subst hu
  exact congrArg _ (if_pos (by simp [h]))

section
variable (h : unitEnds u 0 n = true)
include h

/-- The scan test of a tine fences it where it finds a mismatch. -/
theorem exec_logicBist_tested (p : Bool) : let v := unitDone u 0 n n p
    exec (.logicBist n p t) s = .next (if p then feed v else feed (leaveBed (judgeTines (raise
      { v with tin := { v.tin with fenced := sins v.tin.fenced n } } 0x009 n)) (n / 8))) := by
  subst hu
  exact congrArg _ (if_neg (by simp [h]))

theorem exec_logicBist_passes : exec (.logicBist n true t) s = .next (feed (unitDone u 0 n n true)) := by
  rw [exec_logicBist_tested hu h, if_pos rfl]

theorem exec_logicBist_fences : let v := unitDone u 0 n n false
    exec (.logicBist n false t) s = .next (feed (leaveBed (judgeTines (raise
      { v with tin := { v.tin with fenced := sins v.tin.fenced n } } 0x009 n)) (n / 8))) := by
  rw [exec_logicBist_tested hu h, if_neg Bool.false_ne_true]

end

/-! #### Flash engines -/

/-- A failed run of an engine's four codewords counts on from the runs that failed before it; one without a mismatch ends the
count. -/
def loopFailed (v : State) (n : Nat) (bad : Bool) : Nat := if bad then tgetD v.ist.loopFails n 0 + 1 else 0

/-- The run of engine `n` is over, with `m` runs failed in a row. -/
def loopRunOver (v : State) (n m : Nat) : State :=
  { v with ist := { v.ist with loopRun := tdel v.ist.loopRun n, loopFails := tset v.ist.loopFails n m } }

section
variable {p : Bool}

theorem exec_loopback_nothing (h : unitEnds u 1 (4 * n + (tgetD u.ist.loopRun n (0, false)).1) = false) :
    exec (.flashEngineLoopback n p t) s = .next u := by
  subst hu
  exact congrArg _ (if_pos ((Bool.not_eq_true' _).mpr h))

section
variable (h : unitEnds u 1 (4 * n + (tgetD u.ist.loopRun n (0, false)).1) = true)
include h

theorem exec_loopback_goes_on (hr : (tgetD u.ist.loopRun n (0, false)).1 < 3) :
    let r := tgetD u.ist.loopRun n (0, false)
    let v := unitDone u 1 (4 * n + r.1) n p
    exec (.flashEngineLoopback n p t) s
      = .next { v with ist := { v.ist with loopRun := tset v.ist.loopRun n (r.1 + 1, r.2 || !p) } } := by
  subst hu
  exact congrArg _ ((if_neg (by rw [h]; decide)).trans (if_pos hr))

theorem exec_loopback_ends (hr : 3 ≤ (tgetD u.ist.loopRun n (0, false)).1) :
    let r := tgetD u.ist.loopRun n (0, false)
    let v := unitDone u 1 (4 * n + r.1) n p
    let m := loopFailed v n (r.2 || !p)
    exec (.flashEngineLoopback n p t) s
      = .next (if 2 ≤ m then failChannel (raiseOpen (loopRunOver v n m) 0x1C8) n else loopRunOver v n m) := by
  subst hu
  exact congrArg _ ((if_neg (by rw [h]; decide)).trans (if_neg (Nat.not_lt.mpr hr)))

end

end

/-! #### Converters -/

/-- A code of a converter within 0.5% of its reference. -/
def nearRef (v c : Nat) : Prop := 200 * ((v : Int) - c).natAbs ≤ c

section
variable {low high : Nat}

theorem exec_converterReference_nothing (h : unitEnds u 2 n = false) :
    exec (.converterReference n low high t) s = .next u := by
  subst hu
  exact congrArg _ (if_pos (by simp [h]))

section
variable (h : unitEnds u 2 n = true)
include h

theorem exec_converterReference_passes (hl : nearRef low 4096) (hh : nearRef high 8192) :
    exec (.converterReference n low high t) s = .next (unitDone u 2 n n true) := by
  subst hu
  have hpass : (decide (200 * ((low : Int) - (4096 : Nat)).natAbs ≤ 4096)
      && decide (200 * ((high : Int) - (8192 : Nat)).natAbs ≤ 8192)) = true :=
    Bool.and_eq_true_iff.mpr ⟨decide_eq_true hl, decide_eq_true hh⟩
  refine congrArg _ ((if_neg (by simp [h])).trans ?_)
  rw [hpass]
  rfl

theorem exec_converterReference_fails (hno : ¬nearRef low 4096 ∨ ¬nearRef high 8192) :
    let w := unitDone u 2 n n false
    exec (.converterReference n low high t) s = .next (setAdc (raiseOpen w 0x1C9) n { adcOf w n with failed := true }) := by
  subst hu
  have hfail : (decide (200 * ((low : Int) - (4096 : Nat)).natAbs ≤ 4096)
      && decide (200 * ((high : Int) - (8192 : Nat)).natAbs ≤ 8192)) = false :=
    Bool.and_eq_false_iff.mpr (hno.imp decide_eq_false decide_eq_false)
  refine congrArg _ ((if_neg (by simp [h])).trans ?_)
  rw [hfail]
  rfl

end

end

/-! #### Comparators -/

theorem exec_comparatorTrip_nothing {p : Bool} (h : unitEnds u 3 n = false) : exec (.comparatorTrip n p t) s = .next u := by
  subst hu
  exact congrArg _ (if_pos (by simp [h]))

section
variable (h : unitEnds u 3 n = true)
include h

/-- A comparator that was tested, under the slot it watches: number 24 is the second one of slot 0. -/
theorem exec_comparatorTrip_tested (p : Bool) : let slot := if n = 24 then 0 else n
    let w := unitDone u 3 n slot p
    exec (.comparatorTrip n p t) s
      = .next (if p then w else raiseOpen { w with psq := { w.psq with scanSlots := sins w.psq.scanSlots slot } } 0x1CA) := by
  subst hu
  simp only [exec_comparatorTrip, execComparatorTrip, h, Bool.not_true, Bool.false_eq_true, if_false, beq_iff_eq]

end

/-! #### Fault paths (R381, R394) -/

/-- What the collector captures of an injection: the checker's detection, then the path test's. -/
def injectionCaptured (v : State) (n : Nat) (d a : Bool) : State :=
  let w := if d then captureInjected (drew v) n (drawn v % 2 ^ 32) else v
  if a then captureInjected w 0x1F0 n else w

theorem exec_pathInjection_nothing {ran d a : Bool} (h : unitEnds u 4 n = false) :
    exec (.faultPathInjection n ran d a t) s = .next u := by
  subst hu
  exact congrArg _ (if_pos (by simp [h]))

section
variable (h : unitEnds u 4 n = true)
include h

theorem exec_pathInjection_not_run {d a : Bool} :
    exec (.faultPathInjection n false d a t) s = .next { u with ist := { u.ist with step := none } } := by
  subst hu
  exact congrArg _ ((if_neg (by simp [h])).trans (if_pos rfl))

/-- An injection that ran: the source is untrusted unless both detections came through. -/
theorem exec_pathInjection_ran (d a : Bool) : let w := unitDone (injectionCaptured u n d a) 4 n n (d && a)
    exec (.faultPathInjection n true d a t) s
      = .next (if d && a then w else raise (setSource w n { source w n with untrusted := true }) 0x1CB n) := by
  subst hu
  exact congrArg _ ((if_neg (by simp [h])).trans (if_neg (by decide)))

theorem exec_pathInjection_passes {v : State} (hv : injectionCaptured u n true true = v) :
    exec (.faultPathInjection n true true true t) s = .next (unitDone v 4 n n true) := by
  rw [exec_pathInjection_ran hu h, hv, Bool.and_self, if_pos rfl]

theorem exec_pathInjection_fails {v : State} {d a : Bool} (hda : (d && a) = false) (hv : injectionCaptured u n d a = v) :
    let w := unitDone v 4 n n false
    exec (.faultPathInjection n true d a t) s = .next (raise (setSource w n { source w n with untrusted := true }) 0x1CB n) := by
  rw [exec_pathInjection_ran hu h, hv, hda, if_neg Bool.false_ne_true]

end

/-! #### Cipher and key derivation -/

theorem exec_knownAnswer_nothing {p : Bool} (h : unitEnds u 5 n = false) : exec (.cipherKnownAnswer n p t) s = .next u := by
  subst hu
  exact congrArg _ (if_pos (by simp [h]))

theorem exec_knownAnswer_tested (h : unitEnds u 5 n = true) (p : Bool) : exec (.cipherKnownAnswer n p t) s
    = .next (if p then unitDone u 5 n n p else raiseOpen (unitDone u 5 n n p) 0x1CC) := by
  subst hu
  exact congrArg _ (if_neg (by simp [h]))

/-! ### Coverage and pause (R427, R434) -/

/-- The run-now command of item `n` is in flight and the item's period has passed since it began. -/
def runOverdue (v : State) (n id : Nat) (f : InFlight) : Prop :=
  (istItem v n).now = some id ∧ inflight v id = some f ∧ f.since + itemPeriod v n * 3600000000 ≤ v.now

/-- The command whose run is overdue. -/
def overdueRun (v : State) (n : Nat) : Option Nat :=
  match (istItem v n).now with
  | some id => match inflight v id with
    | some f => if f.since + itemPeriod v n * 3600000000 ≤ v.now then some id else none
    | none => none
  | none => none

/-- The overdue run of command `id` ends with TIMEOUT. -/
def runTimedOut (v : State) (id : Nat) : State :=
  endWith { v with ist := { v.ist with
    items := v.ist.items.map (fun p => (p.1, if p.2.now == some id then { p.2 with now := none, nowFail := none } else p.2)) } }
    id 0x0D 0

/-- The overdue run of item `n` is ended, where there is one. -/
def overdueEnded (v : State) (n : Nat) : State :=
  match overdueRun v n with
  | some id => runTimedOut v id
  | none => v

/-- Item `n` is late once its period has passed since its last coverage; the first late item raises COVERAGE. -/
def coverageJudged (v : State) (n : Nat) : State :=
  if (istItem v n).late || opSecs v < (istItem v n).covered + itemPeriod v n * 3600 then v
  else
    let w := setItem v n { istItem v n with late := true }
    if (source w 0x1CD).live then w else raiseLiveOpen w 0x1CD

omit hu in
theorem overdueRun_of_runOverdue {v : State} {id : Nat} {f : InFlight} (h : runOverdue v n id f) : overdueRun v n = some id := by
  obtain ⟨hnow, hfl, hdue⟩ := h
  simp only [overdueRun, hnow, hfl, if_pos hdue]

omit hu in
theorem overdueRun_none {v : State} (h : ¬∃ id f, runOverdue v n id f) : overdueRun v n = none := by
  cases hnow : (istItem v n).now with
  | none => simp only [overdueRun, hnow]
  | some id =>
    cases hfl : inflight v id with
    | none => simp only [overdueRun, hnow, hfl]
    | some f => simp only [overdueRun, hnow, hfl, if_neg fun hdue => h ⟨id, f, hnow, hfl, hdue⟩]

theorem exec_istCoverage_nothing (h : logicOn u = false ∨ 6 < n) : exec (.istCoverage n t) s = .next u := by
  subst hu
  exact congrArg _ (if_pos (by rcases h with h | h <;> simp [h]))

section
variable (hon : logicOn u = true) (hn : n ≤ 6)
include hon hn

theorem exec_istCoverage_judges : exec (.istCoverage n t) s
    = .next (coverageJudged (overdueEnded u n) n) := by
  subst hu
  exact congrArg _ (if_neg (by simp [hon, hn]))

theorem exec_istCoverage_in_time (h : ¬∃ id f, runOverdue u n id f) : exec (.istCoverage n t) s = .next (coverageJudged u n) := by
  rw [exec_istCoverage_judges hu hon hn, overdueEnded, overdueRun_none h]

theorem exec_istCoverage_overdue {id : Nat} {f : InFlight} (h : runOverdue u n id f) :
    exec (.istCoverage n t) s = .next (coverageJudged (runTimedOut u id) n) := by
  rw [exec_istCoverage_judges hu hon hn, overdueEnded, overdueRun_of_runOverdue h]

end

theorem exec_weedingPauseEnd_nothing (h : ∀ x, u.ist.pausedTill = some x → u.now < x) :
    exec (.weedingPauseEnd t) s = .next u := by
  subst hu
  simp only [exec_weedingPauseEnd, execWeedingPauseEnd]
  cases hx : (tick s t).ist.pausedTill with
  | none => rfl
  | some x => exact congrArg _ (if_neg (Nat.not_le.mpr (h x hx)))

theorem exec_weedingPauseEnd_ends {x : Nat} (hx : u.ist.pausedTill = some x) (h : x ≤ u.now) :
    exec (.weedingPauseEnd t) s = .next { u with ist := { u.ist with pausedTill := none } } := by
  subst hu
  simp only [exec_weedingPauseEnd, execWeedingPauseEnd, hx]
  exact congrArg _ (if_pos h)

/-! ### Telemetry (R433) -/

/-- A sample enters the raw ring of an hour, and the counts of its second start again. -/
def sampled (v : State) : State :=
  { v with
    ist := { v.ist with
      sampledAt := some v.now, raw := ({ seq := v.ist.rawSeq, bytes := sampleBytes v } :: v.ist.raw).take 3600,
      rawSeq := v.ist.rawSeq + 1, hours := countHour v, txLast := v.exl.txBytes, secCe := 0, secRetry := 0, secRd := 0, secWr := 0 },
    hrv := { v.hrv with fetchCount := 0, fetchMax := 0 } }

theorem exec_telemetrySample : exec (.telemetrySample t) s = .next
    (if !logicOn u || u.ist.sampledAt.any (fun a => decide (u.now < a + 1000000)) then u else sampled u) := by
  subst hu
  rfl

theorem exec_telemetrySample_off (h : logicOn u = false) : exec (.telemetrySample t) s = .next u := by
  rw [exec_telemetrySample hu, if_pos (by simp [h])]

theorem exec_telemetrySample_early (h : ∃ a, u.ist.sampledAt = some a ∧ u.now < a + 1000000) :
    exec (.telemetrySample t) s = .next u := by
  obtain ⟨a, ha, hnow⟩ := h
  rw [exec_telemetrySample hu, ha, Option.any_some, decide_eq_true hnow, Bool.or_true, if_pos rfl]

theorem exec_telemetrySample_samples (hon : logicOn u = true) (h : ∀ a, u.ist.sampledAt = some a → a + 1000000 ≤ u.now) :
    exec (.telemetrySample t) s = .next (sampled u) := by
  have hany : u.ist.sampledAt.any (fun a => decide (u.now < a + 1000000)) = false := by
    cases ha : u.ist.sampledAt with
    | none => rfl
    | some a =>
      rw [Option.any_some]
      exact decide_eq_false (Nat.not_lt.mpr (h a ha))
  rw [exec_telemetrySample hu, hon, hany, if_neg (by decide)]

theorem exec_telemetrySummary_off (h : logicOn u = false) : exec (.telemetrySummary t) s = .next u := by
  subst hu
  exact congrArg _ (if_pos (by simp [h]))

section
variable (hon : logicOn u = true)
include hon

theorem exec_telemetrySummary_skips (h : assisted u 6 = true ∨ bothDown u = true) :
    exec (.telemetrySummary t) s = .next { u with ist := { u.ist with sumFrom := u.ist.rawSeq } } := by
  subst hu
  exact congrArg _ ((if_neg (by simp [hon])).trans (if_pos (Bool.or_eq_true_iff.mpr h)))

section
variable (ha : assisted u 6 = false) (hd : bothDown u = false)
include ha hd

theorem exec_telemetrySummary_no_loops (hl : loopsRun u true = false) : exec (.telemetrySummary t) s = .next u := by
  subst hu
  exact congrArg _ ((if_neg (by simp [hon])).trans ((if_neg (by simp [ha, hd])).trans (if_pos (by simp [hl]))))

/-- A summary is due, but ten at a time at the floor rate. -/
theorem exec_telemetrySummary_by_rate (hl : loopsRun u true = true) : exec (.telemetrySummary t) s
    = .next (if floorRate u && decide (u.ist.rawSeq < u.ist.sumFrom + 600) then u else buildSums u 60) := by
  subst hu
  exact congrArg _ ((if_neg (by simp [hon])).trans ((if_neg (by simp [ha, hd])).trans (if_neg (by simp [hl]))))

theorem exec_telemetrySummary_waits (hl : loopsRun u true = true) (hf : floorRate u = true)
    (h : u.ist.rawSeq < u.ist.sumFrom + 600) : exec (.telemetrySummary t) s = .next u := by
  rw [exec_telemetrySummary_by_rate hu hon ha hd hl, hf, decide_eq_true h, Bool.and_self, if_pos rfl]

theorem exec_telemetrySummary_builds (hl : loopsRun u true = true) (h : floorRate u = false ∨ u.ist.sumFrom + 600 ≤ u.ist.rawSeq) :
    exec (.telemetrySummary t) s = .next (buildSums u 60) := by
  rw [exec_telemetrySummary_by_rate hu hon ha hd hl, if_neg]
  rcases h with h | h <;> simp [h]

end

end

end

/-- Settles O53: each unit by whether it ends and how, coverage by the overdue run and the period, the pause by its time and
telemetry by the second and the rate. -/
theorem weedingAndTelemetry : Obligations.WeedingAndTelemetry := by
  refine ⟨fun n low high t p d a s u hu => ⟨exec_logicBist_nothing hu, exec_logicBist_passes hu, exec_logicBist_fences hu,
      ⟨exec_loopback_nothing hu, fun h => exec_loopback_goes_on hu h, fun h => exec_loopback_ends hu h⟩,
      ⟨exec_converterReference_nothing hu, exec_converterReference_passes hu, exec_converterReference_fails hu⟩,
      ⟨exec_comparatorTrip_nothing hu, fun h => exec_comparatorTrip_tested hu h true,
        fun h => exec_comparatorTrip_tested hu h false⟩,
      exec_pathInjection_nothing hu, fun h => ⟨exec_pathInjection_not_run hu h, exec_pathInjection_passes hu h rfl,
        exec_pathInjection_fails hu h rfl rfl, exec_pathInjection_fails hu h rfl rfl, exec_pathInjection_fails hu h rfl rfl⟩,
      exec_knownAnswer_nothing hu, fun h => ⟨exec_knownAnswer_tested hu h true, exec_knownAnswer_tested hu h false⟩⟩,
    fun n t s u hu => ⟨exec_istCoverage_nothing hu,
      fun hon hn => ⟨exec_istCoverage_in_time hu hon hn, fun id f h => exec_istCoverage_overdue hu hon hn h⟩,
      exec_weedingPauseEnd_nothing hu, fun x hx h => exec_weedingPauseEnd_ends hu hx h,
      fun h => ⟨exec_telemetrySample_off hu h, exec_telemetrySummary_off hu h⟩, exec_telemetrySample_early hu,
      exec_telemetrySample_samples hu, fun hon => ⟨exec_telemetrySummary_skips hu hon, exec_telemetrySummary_no_loops hu hon,
        fun ha hd hl => ⟨exec_telemetrySummary_waits hu hon ha hd hl, exec_telemetrySummary_builds hu hon ha hd hl⟩⟩⟩⟩

end Sys2Proof.Machine

/-! Key labels, records and AES blocks (R414–R419, log entry 39), nonce blocks (R354, R414), fuses (R422, R423, log entry 40),
readout protection (R350, R351) and the ends of embedded-flash operations (R340–R346, log entry 42). -/

namespace Sys2Proof.Machine

open Sys2Proof

/-! ### KEY_LABEL_SET (R416) -/

section
variable {c : TrellisCmd} {s v : State} {f : InFlight}

theorem exec_keyLabelSet (h : started 0x0900 c s = some (v, f)) : exec (.keyLabelSet c) s = .next (cmdKeyLabelSet f v) :=
  congrArg _ (submit_of_started cmdKeyLabelSet h)

theorem exec_recordSeal (h : started 0x0901 c s = some (v, f)) : exec (.recordSeal c) s = .next (cmdRecordSeal f v) :=
  congrArg _ (submit_of_started cmdRecordSeal h)

theorem exec_recordOpen (h : started 0x0902 c s = some (v, f)) : exec (.recordOpen c) s = .next (cmdRecordOpen f v) :=
  congrArg _ (submit_of_started cmdRecordOpen h)

theorem exec_aesBlock (h : started 0x0903 c s = some (v, f)) : exec (.aesBlock c) s = .next (cmdAesBlock f v) :=
  congrArg _ (submit_of_started cmdAesBlock h)

end

section
variable {f : InFlight} {v : State}

theorem cmdKeyLabelSet_not_owner (h : owns v f.cmd.est 10 = false) : cmdKeyLabelSet f v = endWith v f.id 0x05 0x05 :=
  if_pos (by rw [h]; rfl)

section
variable (ho : owns v f.cmd.est 10 = true)
include ho

theorem cmdKeyLabelSet_bad_slot (h : 7 < pByte f.cmd 24) : cmdKeyLabelSet f v = badParam v f.id 24 :=
  (if_neg (by rw [ho]; decide)).trans (if_pos h)

section
variable (hn : pByte f.cmd 24 ≤ 7)
include hn

theorem cmdKeyLabelSet_bad_name (h : f.cmd.payLen ≠ 32 ∨ reservedName (payIn f.cmd) = true) :
    cmdKeyLabelSet f v = badParam v f.id 0x40 :=
  (if_neg (by rw [ho]; decide)).trans ((if_neg (Nat.not_lt.mpr hn)).trans (if_pos (by simpa using h)))

theorem cmdKeyLabelSet_saves (hl : f.cmd.payLen = 32) (hr : reservedName (payIn f.cmd) = false) :
    cmdKeyLabelSet f v = endOk (pairWrite (assistInput { v with
      krc := { v.krc with labels := tset v.krc.labels (pByte f.cmd 24) (payIn f.cmd) } } 10) 5) f.id [] :=
  (if_neg (by rw [ho]; decide)).trans ((if_neg (Nat.not_lt.mpr hn)).trans (if_neg (by simp [hl, hr])))

end

end

/-! ### RECORD_SEAL and RECORD_OPEN (R414, R415, R417, R418) -/

/-- A record command names a slot of Table 15.5 and has room for its AAD and tag. -/
def RecordFormed (c : TrellisCmd) : Prop :=
  pByte c 24 ≤ 7 ∧ 16 ≤ c.payLen ∧ c.payLen ≤ 65536 ∧ pNum c 28 4 + 16 ≤ c.payLen

section
variable {c : TrellisCmd}

theorem recordBad_slot (h : 7 < pByte c 24) : recordBad c = some 24 := if_pos h

theorem recordBad_length (hs : pByte c 24 ≤ 7) (h : c.payLen < 16 ∨ 65536 < c.payLen) : recordBad c = some 0x40 :=
  (if_neg (Nat.not_lt.mpr hs)).trans (if_pos (by simpa using h))

theorem recordBad_aad (hs : pByte c 24 ≤ 7) (h16 : 16 ≤ c.payLen) (hmax : c.payLen ≤ 65536) (h : c.payLen < pNum c 28 4 + 16) :
    recordBad c = some 28 :=
  (if_neg (Nat.not_lt.mpr hs)).trans ((if_neg (by simp [h16, hmax])).trans (if_pos h))

theorem recordBad_none (h : RecordFormed c) : recordBad c = none := by
  obtain ⟨hs, h16, hmax, haad⟩ := h
  exact (if_neg (Nat.not_lt.mpr hs)).trans ((if_neg (by simp [h16, hmax])).trans (if_neg (Nat.not_lt.mpr haad)))

end

theorem cmdRecordSeal_bad {i : Nat} (h : recordBad f.cmd = some i) : cmdRecordSeal f v = badParam v f.id i := by
  rw [cmdRecordSeal, h]

theorem cmdRecordOpen_bad {i : Nat} (h : recordBad f.cmd = some i) : cmdRecordOpen f v = badParam v f.id i := by
  rw [cmdRecordOpen, h]

section
variable (hf : RecordFormed f.cmd)
include hf

/-- With the root key retired the status is a free value (R422, log entry 39). -/
theorem cmdRecordSeal_retired (hr : v.krc.rootRefused = true) :
    cmdRecordSeal f v = endWith (drew v) f.id (drawn v % 256) 0 := by
  rw [cmdRecordSeal, recordBad_none hf]
  exact if_pos hr

theorem cmdRecordSeal_goes_on (hr : v.krc.rootRefused = false) : cmdRecordSeal f v = sealOrWait f v := by
  rw [cmdRecordSeal, recordBad_none hf]
  exact if_neg (by simp [hr])

theorem cmdRecordOpen_retired (hr : v.krc.rootRefused = true) :
    cmdRecordOpen f v = endWith (drew v) f.id (drawn v % 256) 0 := by
  rw [cmdRecordOpen, recordBad_none hf]
  exact if_pos hr

end

/-- The nonce counter has reached its limit. -/
theorem nonceSpent_iff : nonceSpent v = true ↔ 2 ^ 64 - 2 ^ 16 ≤ v.krc.nonceNext := decide_eq_true_iff

theorem sealOrWait_spent (h : 2 ^ 64 - 2 ^ 16 ≤ v.krc.nonceNext) :
    sealOrWait f v = endWith (raiseOpen v 0x1C6) f.id 0x0C 0 :=
  if_pos (nonceSpent_iff.mpr h)

section
variable (h : v.krc.nonceNext < 2 ^ 64 - 2 ^ 16)
include h

theorem nonceSpent_eq_false : nonceSpent v = false := Bool.eq_false_iff.mpr (mt nonceSpent_iff.mp (Nat.not_le.mpr h))

theorem sealOrWait_seals (hs : v.krc.nonceNext < v.krc.nonceSafe) : sealOrWait f v = sealNow f v := by
  have hready : nonceReady v = true := by rw [nonceReady, decide_eq_true hs, nonceSpent_eq_false h]; rfl
  rw [sealOrWait, nonceSpent_eq_false h, if_neg (by decide), if_pos hready]

theorem sealOrWait_waits (hs : v.krc.nonceSafe ≤ v.krc.nonceNext) :
    sealOrWait f v = setJob { v with krc := { v.krc with waiting := v.krc.waiting ++ [f.id] } } f.id .nonce := by
  have hready : nonceReady v = false := by rw [nonceReady, decide_eq_false (Nat.not_lt.mpr hs), Bool.false_and]
  rw [sealOrWait, nonceSpent_eq_false h, if_neg (by decide), hready, if_neg (by decide)]

end

/-- The ciphertext of a RECORD_OPEN. -/
def recordCt (c : TrellisCmd) : List Nat := nats (slice (payIn c) (pNum c 28 4) (c.payLen - 16 - pNum c 28 4))

/-- The tag that the slot key gives a RECORD_OPEN. -/
def recordTag (v : State) (c : TrellisCmd) : List Nat :=
  gcmTag (nats (slotKey v (pByte c 24))) (recordIv (pByte c 24) (pNum c 32 8)) (nats ((payIn c).take (pNum c 28 4))) (recordCt c)

/-- What a RECORD_OPEN writes back: the AAD, the computed plaintext and 16 zero bytes (R418). -/
def recordOpened (v : State) (c : TrellisCmd) : List Byte :=
  (payIn c).take (pNum c 28 4)
    ++ bytes (gctr (nats (slotKey v (pByte c 24))) (recordIv (pByte c 24) (pNum c 32 8)) (recordCt c)) ++ zeros 16

section
variable (hf : RecordFormed f.cmd) (hr : v.krc.rootRefused = false)
include hf hr

theorem cmdRecordOpen_opens : cmdRecordOpen f v
    = finish v f.id { status := if recordTag v f.cmd == nats ((payIn f.cmd).drop (f.cmd.payLen - 16)) then 0 else 0x0B,
                      output := recordOpened v f.cmd } := by
  rw [cmdRecordOpen, recordBad_none hf]
  exact if_neg (by simp [hr])

theorem cmdRecordOpen_good (h : recordTag v f.cmd = nats ((payIn f.cmd).drop (f.cmd.payLen - 16))) :
    cmdRecordOpen f v = endOut v f.id [] (recordOpened v f.cmd) := by
  rw [cmdRecordOpen_opens hf hr, if_pos (beq_iff_eq.mpr h)]
  rfl

theorem cmdRecordOpen_auth_fail (h : ¬recordTag v f.cmd = nats ((payIn f.cmd).drop (f.cmd.payLen - 16))) :
    cmdRecordOpen f v = finish v f.id { status := 0x0B, output := recordOpened v f.cmd } := by
  rw [cmdRecordOpen_opens hf hr, if_neg (mt beq_iff_eq.mp h)]

end

/-! ### AES_BLOCK (R419) -/

theorem cmdAesBlock_bad_op (h : 1 < pByte f.cmd 24) : cmdAesBlock f v = badParam v f.id 24 := if_pos h

section
variable (ho : pByte f.cmd 24 ≤ 1)
include ho

theorem cmdAesBlock_bad_slot (h : 7 < pByte f.cmd 25) : cmdAesBlock f v = badParam v f.id 25 :=
  (if_neg (Nat.not_lt.mpr ho)).trans (if_pos h)

section
variable (hs : pByte f.cmd 25 ≤ 7)
include hs

theorem cmdAesBlock_retired (hr : v.krc.rootRefused = true) :
    cmdAesBlock f v = endWith (drew v) f.id (drawn v % 256) 0 :=
  (if_neg (Nat.not_lt.mpr ho)).trans ((if_neg (Nat.not_lt.mpr hs)).trans (if_pos hr))

/-- One block under the slot key, encrypted by operation 0 and decrypted by operation 1. -/
theorem cmdAesBlock_answers (hr : v.krc.rootRefused = false) :
    let k := nats (slotKey v (pByte f.cmd 25))
    let blk := nats (padTo (slice f.cmd.params 16 16) 16)
    cmdAesBlock f v = endOk v f.id (bytes (if pByte f.cmd 24 == 0 then aesEnc k blk else aesDec k blk)) :=
  (if_neg (Nat.not_lt.mpr ho)).trans ((if_neg (Nat.not_lt.mpr hs)).trans (if_neg (by simp [hr])))

end

end

end

/-! ### NONCE_BLOCK_RESERVE (R354, R414) -/

section
variable {s u : State} {t : Nat} (hu : u = tick s t)
include hu

/-- A block was reserved less than a minute ago. -/
def reservedEarly (v : State) : Bool :=
  match v.krc.nonceAt with
  | some x => decide (v.now < x + 60000000)
  | none => false

omit hu in
theorem reservedEarly_iff {v : State} : reservedEarly v = true ↔ ∃ x, v.krc.nonceAt = some x ∧ v.now < x + 60000000 := by
  cases h : v.krc.nonceAt <;> simp [reservedEarly, h]

theorem exec_nonceReserve : exec (.nonceBlockReserve t) s = .next (if u.dev.state == .off then u
    else if nonceSpent u then serveWaiting u.krc.waiting { u with krc := { u.krc with waiting := [] } }
    else if u.krc.nonceNext < u.krc.nonceSafe then u
    else if reservedEarly u then u
    else reserveNonces u) := by
  subst hu
  rfl

theorem exec_nonceReserve_nothing (h : u.dev.state = .off ∨ (¬2 ^ 64 - 2 ^ 16 ≤ u.krc.nonceNext
    ∧ (u.krc.nonceNext < u.krc.nonceSafe ∨ ∃ x, u.krc.nonceAt = some x ∧ u.now < x + 60000000))) :
    exec (.nonceBlockReserve t) s = .next u := by
  rw [exec_nonceReserve hu]
  by_cases hoff : u.dev.state = .off
  · rw [if_pos (beq_iff_eq.mpr hoff)]
  obtain ⟨hspent, h⟩ := h.resolve_left hoff
  rw [if_neg (mt beq_iff_eq.mp hoff), if_neg (mt nonceSpent_iff.mp hspent)]
  by_cases hsafe : u.krc.nonceNext < u.krc.nonceSafe
  · rw [if_pos hsafe]
  · rw [if_neg hsafe, if_pos (reservedEarly_iff.mpr (h.resolve_left hsafe))]

section
variable (hon : u.dev.state ≠ .off)
include hon

theorem exec_nonceReserve_spent (h : 2 ^ 64 - 2 ^ 16 ≤ u.krc.nonceNext) : exec (.nonceBlockReserve t) s
    = .next (serveWaiting u.krc.waiting { u with krc := { u.krc with waiting := [] } }) := by
  rw [exec_nonceReserve hu, if_neg (mt beq_iff_eq.mp hon), if_pos (nonceSpent_iff.mpr h)]

theorem exec_nonceReserve_reserves (h : ¬2 ^ 64 - 2 ^ 16 ≤ u.krc.nonceNext) (hs : u.krc.nonceSafe ≤ u.krc.nonceNext)
    (he : ¬∃ x, u.krc.nonceAt = some x ∧ u.now < x + 60000000) : exec (.nonceBlockReserve t) s = .next (reserveNonces u) := by
  rw [exec_nonceReserve hu, if_neg (mt beq_iff_eq.mp hon), if_neg (mt nonceSpent_iff.mp h), if_neg (Nat.not_lt.mpr hs),
    if_neg (mt reservedEarly_iff.mp he)]

end

end

/-! ### Fuses (R422, R423) -/

theorem viaMctp_iff (p : Path) : viaMctp p = true ↔ ∃ n, p = .mctp n := by
  cases p <;> simp [viaMctp]

/-- The access comes from board management over MCTP. -/
def FromBoard (a : RegAcc) : Prop := (∃ n, a.path = .mctp n) ∧ issClass a.issuer = 2

theorem fromBoard_iff (a : RegAcc) : (viaMctp a.path && issClass a.issuer == 2) = true ↔ FromBoard a := by
  rw [Bool.and_eq_true, viaMctp_iff, beq_iff_eq, FromBoard]

/-- The rows that write FWU_FUSE_CMD. -/
def fuseRows : List (RegAcc → Nat → Nat → Instr) := [.fuseAdvanceSecured, .fuseAdvanceRetired, .fuseSetHaDeny, .fuseRaiseRdpFloor,
  .fuseSetDebugLock, .fuseRaiseSvn, .fuseRevokeKey]

theorem exec_fuseRows {row : RegAcc → Nat → Nat → Instr} (hrow : row ∈ fuseRows) (a : RegAcc) (v t : Nat) (s : State) :
    ∃ op, exec (row a v t) s = .next (fuseCmd a v op t s) := by
  simp only [fuseRows, List.mem_cons, List.not_mem_nil, or_false] at hrow
  obtain rfl | rfl | rfl | rfl | rfl | rfl | rfl := hrow <;> exact ⟨_, rfl⟩

/-- What a fuse operation leaves: the fuses it burns, or the status that refuses it. -/
def burnt (u : State) : Except Nat Fus → State
  | .error e => { u with fwu := { u.fwu with fuseResult := e } }
  | .ok y => { u with fus := y, fwu := { u.fwu with fuseResult := 0 },
                      krc := { u.krc with rootRefused := u.krc.rootRefused || y.lifecycle.getLsbD 2 } }

section
variable {s u : State} {a : RegAcc} {v t op : Nat} (hu : u = tick s t)
include hu

theorem fuseCmd_off (h : u.dev.state = .off) : fuseCmd a v op t s = u := by
  subst hu
  exact if_pos (beq_iff_eq.mpr h)

section
variable (hon : u.dev.state ≠ .off)
include hon

theorem fuseCmd_other_path (h : ¬FromBoard a) : fuseCmd a v op t s = raise u 0x003 rFwuFuseCmd := by
  subst hu
  have hpath : (viaMctp a.path && issClass a.issuer == 2) = false := Bool.eq_false_iff.mpr (mt (fromBoard_iff a).mp h)
  exact (if_neg (mt beq_iff_eq.mp hon)).trans (if_pos (by rw [hpath]; rfl))

section
variable (hb : FromBoard a)
include hb

theorem fuseCmd_no_key (h : bits v 16 16 ≠ 0xC3A5) : fuseCmd a v op t s = u := by
  subst hu
  exact (if_neg (mt beq_iff_eq.mp hon)).trans ((if_neg (by rw [(fromBoard_iff a).mpr hb]; decide)).trans (if_pos (bne_iff_ne.mpr h)))

theorem fuseCmd_burns (h : bits v 16 16 = 0xC3A5) : fuseCmd a v op t s = burnt u (burn u op (bits v 0 12)) := by
  subst hu
  refine (if_neg (mt beq_iff_eq.mp hon)).trans ((if_neg (by rw [(fromBoard_iff a).mpr hb]; decide)).trans
    ((if_neg (by rw [h]; decide)).trans ?_))
  cases burn (tick s t) op (bits v 0 12) <;> rfl

end

end

end

section
variable {u : State} {arg : Nat}

/-! #### The rows of Table 15.7 -/

section
variable (h : arg ≠ 0)
include h

theorem burn_secured_bad : burn u 1 arg = .error 0x04 := if_pos (bne_iff_ne.mpr h)

theorem burn_retired_bad : burn u 2 arg = .error 0x04 := if_pos (bne_iff_ne.mpr h)

theorem burn_debugLock_bad : burn u 5 arg = .error 0x04 := if_pos (bne_iff_ne.mpr h)

end

section
variable (h : arg = 0)
include h

theorem burn_secured : burn u 1 arg = if u.fus.lifecycle.getLsbD 1 then .error 0x0E
    else .ok { u.fus with lifecycle := u.fus.lifecycle ||| 2#4, debugLock := true, rdpFloor := u.fus.rdpFloor ||| 1#2 } :=
  if_neg (by simp [h])

theorem burn_retired : burn u 2 arg = if u.fus.lifecycle.getLsbD 2 then .error 0x0E
    else .ok { u.fus with lifecycle := u.fus.lifecycle ||| 4#4 } :=
  if_neg (by simp [h])

theorem burn_debugLock : burn u 5 arg = if u.fus.debugLock then .error 0x0E else .ok { u.fus with debugLock := true } :=
  if_neg (by simp [h])

end

theorem burn_haDeny : burn u 3 arg = if 0x7FF < arg then .error 0x04
    else if u.fus.haDeny ||| BitVec.ofNat 11 arg = u.fus.haDeny then .error 0x0E
    else .ok { u.fus with haDeny := u.fus.haDeny ||| BitVec.ofNat 11 arg } := by
  simp only [burn, beq_iff_eq]

theorem burn_rdpFloor : burn u 4 arg = if 2 < arg then .error 0x04
    else if arg ≤ rdpFloor u then .error 0x0E
    else .ok { u.fus with rdpFloor := u.fus.rdpFloor ||| (if arg = 1 then 1#2 else 3#2) } := by
  simp only [burn, beq_iff_eq]

theorem burn_svn_bad (h : 64 < arg) : burn u 6 arg = .error 0x04 := if_pos h

section
variable (hmax : arg ≤ 64)
include hmax

theorem burn_svn_reached (h : arg ≤ u.fus.svn) : burn u 6 arg = .error 0x0E :=
  (if_neg (Nat.not_lt.mpr hmax)).trans (if_pos h)

section
variable (hlow : u.fus.svn < arg)
include hlow

theorem burn_svn_refused (h : activeSlot u = none ∨ ∃ y, activeSlot u = some y ∧ y.svn < arg) : burn u 6 arg = .error 0x05 := by
  refine (if_neg (Nat.not_lt.mpr hmax)).trans ((if_neg (Nat.not_le.mpr hlow)).trans ?_)
  obtain h | ⟨y, h, hy⟩ := h
  · rw [h]
  · rw [h]
    exact if_pos hy

theorem burn_svn {y : FwSlot} (h : activeSlot u = some y) (hy : arg ≤ y.svn) : burn u 6 arg = .ok { u.fus with svn := arg } := by
  refine (if_neg (Nat.not_lt.mpr hmax)).trans ((if_neg (Nat.not_le.mpr hlow)).trans ?_)
  rw [h]
  exact if_neg (Nat.not_lt.mpr hy)

end

end

theorem burn_revoke_bad (h : 1 < arg) : burn u 7 arg = .error 0x04 := if_pos h

section
variable (hmax : arg ≤ 1)
include hmax

theorem burn_revoke_done (h : u.fus.keyRevoke.getLsbD arg = true) : burn u 7 arg = .error 0x0E :=
  (if_neg (Nat.not_lt.mpr hmax)).trans (if_pos h)

omit hmax in
/-- The active slot's image is signed with key `arg`. -/
theorem activeKey_iff : (match activeSlot u with | some y => y.key == arg | none => false) = true
    ↔ ∃ y, activeSlot u = some y ∧ y.key = arg := by
  cases activeSlot u <;> simp

theorem burn_revoke_refused (hno : u.fus.keyRevoke.getLsbD arg = false)
    (h : u.fus.keyRevoke ≠ 0#2 ∨ ∃ y, activeSlot u = some y ∧ y.key = arg) : burn u 7 arg = .error 0x05 := by
  refine (if_neg (Nat.not_lt.mpr hmax)).trans ((if_neg (by simp [hno])).trans ?_)
  by_cases hk : u.fus.keyRevoke = 0#2
  · exact (if_neg (by simp [hk])).trans (if_pos (activeKey_iff.mpr (h.resolve_left (not_not_intro hk))))
  · exact if_pos (bne_iff_ne.mpr hk)

theorem burn_revoke (hk : u.fus.keyRevoke = 0#2) (h : ∀ y, activeSlot u = some y → y.key ≠ arg) :
    burn u 7 arg = .ok { u.fus with keyRevoke := u.fus.keyRevoke ||| BitVec.ofNat 2 (2 ^ arg) } :=
  (if_neg (Nat.not_lt.mpr hmax)).trans ((if_neg (by simp [hk])).trans ((if_neg (by simp [hk])).trans
    (if_neg (mt activeKey_iff.mp fun ⟨y, hy, he⟩ => h y hy he))))

end

end

/-! ### Readout protection (R350, R351) -/

/-- The write raises the level: it has the key, and comes with full access at level 0. -/
def RdpRaises (u : State) (a : RegAcc) (v : Nat) : Prop :=
  bits v 16 16 = 0x5A5A ∧ v % 4 = 1 ∧ rdpLevel u = 0 ∧ a.full = true

/-- The write lowers the level: it has the key, no fuse forbids it, and it comes from board management in SHELF or LATCHED. -/
def RdpLowers (u : State) (a : RegAcc) (v : Nat) : Prop :=
  bits v 16 16 = 0x5A5A ∧ v % 4 = 0 ∧ rdpLevel u = 1 ∧ rdpFloor u = 0 ∧ (u.dev.state = .shelf ∨ u.dev.state = .latched)
    ∧ (∃ n, a.path = .mctp n) ∧ issClass a.issuer = 2

section
variable {u : State} {a : RegAcc} {v : Nat}

theorem rdpRaises_iff : (bits v 16 16 == 0x5A5A && v % 4 == 1 && rdpLevel u == 0 && a.full) = true ↔ RdpRaises u a v := by
  simp only [RdpRaises, Bool.and_eq_true, beq_iff_eq, and_assoc]

/-- The device is at rest. -/
theorem calm_iff : (match u.dev.state with | .shelf | .latched => true | _ => false) = true
    ↔ u.dev.state = .shelf ∨ u.dev.state = .latched := by
  cases u.dev.state <;> simp

theorem rdpLowers_iff : (bits v 16 16 == 0x5A5A && v % 4 == 0 && rdpLevel u == 1 && rdpFloor u == 0
    && (match u.dev.state with | .shelf | .latched => true | _ => false) && viaMctp a.path && issClass a.issuer == 2) = true
      ↔ RdpLowers u a v := by
  simp only [RdpLowers, Bool.and_eq_true, beq_iff_eq, and_assoc, calm_iff, viaMctp_iff]

theorem rdpWrite_raises (h : RdpRaises u a v) : rdpWrite a v u = optionWrite u { u.nvm.shadow with rdp := 1 } :=
  if_pos (rdpRaises_iff.mpr h)

theorem rdpWrite_lowers (h : RdpLowers u a v) : rdpWrite a v u
    = lowerErase (optionSet u { u.nvm.shadow with nonceFloor := u.krc.nonceEnd + 2 ^ 24, erasePending := true }) := by
  have hno : ¬RdpRaises u a v := fun hr => by
    have h1 := hr.2.1
    have h0 := h.2.1
    omega
  exact (if_neg (mt rdpRaises_iff.mp hno)).trans (if_pos (rdpLowers_iff.mpr h))

theorem rdpWrite_refused (hr : ¬RdpRaises u a v) (hl : ¬RdpLowers u a v) : rdpWrite a v u = logEvent u 0x20A (v % 4) 0 :=
  (if_neg (mt rdpRaises_iff.mp hr)).trans (if_neg (mt rdpLowers_iff.mp hl))

end

section
variable {s u : State} {a : RegAcc} {v t : Nat} (hu : u = tick s t)
include hu

/-- Both rows are one write of NVM_RDP, without effect in OFF. -/
theorem exec_rdp_off (h : u.dev.state = .off) : exec (.rdpRaise a v t) s = .next u ∧ exec (.rdpLower a v t) s = .next u := by
  subst hu
  exact ⟨congrArg _ (if_pos (beq_iff_eq.mpr h)), congrArg _ (if_pos (beq_iff_eq.mpr h))⟩

theorem exec_rdp_writes (h : u.dev.state ≠ .off) :
    exec (.rdpRaise a v t) s = .next (rdpWrite a v u) ∧ exec (.rdpLower a v t) s = .next (rdpWrite a v u) := by
  subst hu
  exact ⟨congrArg _ (if_neg (mt beq_iff_eq.mp h)), congrArg _ (if_neg (mt beq_iff_eq.mp h))⟩

end

/-! ### The ends of embedded-flash operations (R340, R341, R344–R346) -/

theorem exec_nvmProgramDone (bank : Nat) (ok : Bool) (t : Nat) (s : State) : exec (.nvmProgramDone bank ok t) s = execNvmProgramDone bank ok t s := rfl

theorem exec_nvmEraseDone (bank t : Nat) (s : State) : exec (.nvmEraseDone bank t) s = execNvmEraseDone bank t s := rfl

theorem exec_nvmEraseResume (bank t : Nat) (s : State) : exec (.nvmEraseResume bank t) s = execNvmEraseResume bank t s := rfl

section
variable {s u : State} {bank t : Nat} {ok : Bool} (hu : u = tick s t)
include hu

theorem exec_nvmDone_idle (h : bankOp u (bank % 2) = none) :
    exec (.nvmProgramDone bank ok t) s = .next u ∧ exec (.nvmEraseDone bank t) s = .next u := by
  subst hu
  exact ⟨by simp only [exec_nvmProgramDone, execNvmProgramDone, h], by simp only [exec_nvmEraseDone, execNvmEraseDone, h]⟩

section
variable {o : NvmOp} (ho : bankOp u (bank % 2) = some o)
include ho

theorem exec_nvmDone_erase (he : o.erase = true) : exec (.nvmProgramDone bank ok t) s = .next u
    ∧ exec (.nvmEraseDone bank t) s
      = .next (nvmKick (eraseEnd (sectorBlank (setBankOp u (bank % 2) none) o) o) (bank % 2)) := by
  subst hu
  exact ⟨by simp only [exec_nvmProgramDone, execNvmProgramDone, ho, he, if_true], by simp only [exec_nvmEraseDone, execNvmEraseDone, ho, he, if_true]⟩

theorem exec_nvmDone_program (he : o.erase = false) :
    let w := if ok then programOk (setBankOp u (bank % 2) none) o else programFail (setBankOp u (bank % 2) none) o
    exec (.nvmEraseDone bank t) s = .next u
    ∧ exec (.nvmProgramDone bank ok t) s
      = .next (nvmKick { w with log := { w.log with writing := recordOps w } } (bank % 2)) := by
  subst hu
  exact ⟨by simp only [exec_nvmEraseDone, execNvmEraseDone, ho, he, Bool.false_eq_true, if_false],
    by simp only [exec_nvmProgramDone, execNvmProgramDone, ho, he, Bool.false_eq_true, if_false]⟩

end

/-- The bank is free and no program of it may run. -/
def BankIdle (u : State) (b : Nat) : Prop :=
  bankOp u b = none ∧ u.nvm.queue.any (fun o => nvmBank o == b && canRun u o) = false

omit hu in
theorem bankBusy_iff (v : State) (b : Nat) : ((bankOp v b).isSome || v.nvm.queue.any (fun o => nvmBank o == b && canRun v o)) = true
    ↔ ¬BankIdle v b := by
  rw [BankIdle, ← Option.not_isSome_iff_eq_none, Bool.not_eq_true, ← Bool.or_eq_false_iff, Bool.not_eq_false]

theorem exec_nvmEraseResume_nothing (h : bankSusp u (bank % 2) = none ∨ ¬BankIdle u (bank % 2)) :
    exec (.nvmEraseResume bank t) s = .next u := by
  subst hu
  cases hs : bankSusp (tick s t) (bank % 2) with
  | none => simp only [exec_nvmEraseResume, execNvmEraseResume, hs]
  | some e =>
    have hbusy := (bankBusy_iff _ _).mpr (h.resolve_left (by simp [hs]))
    simp only [exec_nvmEraseResume, execNvmEraseResume, hs]
    exact congrArg _ (if_pos hbusy)

theorem exec_nvmEraseResume_resumes {e : NvmOp} (hs : bankSusp u (bank % 2) = some e) (h : BankIdle u (bank % 2)) :
    let w := setBankOp (setBankSusp u (bank % 2) none) (bank % 2) (some e)
    exec (.nvmEraseResume bank t) s = .next { w with nvm := { w.nvm with resumed := tset w.nvm.resumed (bank % 2) w.now } } := by
  subst hu
  simp only [exec_nvmEraseResume, execNvmEraseResume, hs]
  exact congrArg _ (if_neg (mt (bankBusy_iff _ _).mp (not_not_intro h)))

end

/-! ### The obligation -/

section
variable {s u : State} {a : RegAcc} {v t op : Nat} {i : Instr} (hu : u = tick s t)
  (hgo : u.dev.state ≠ .off ∧ FromBoard a ∧ bits v 16 16 = 0xC3A5) (he : exec i s = .next (fuseCmd a v op t s))
include hu hgo he

/-- A fuse row on a word of board management with its key. -/
theorem exec_fuse {r : Except Nat Fus} (hr : burn u op (bits v 0 12) = r) : exec i s = .next (burnt u r) := by
  obtain ⟨hon, hb, hkey⟩ := hgo
  rw [he, fuseCmd_burns hu hon hb hkey, hr]

/-- The same where a test of the fuses decides. -/
theorem exec_fuse_ite {c : Prop} [Decidable c] {x y : Except Nat Fus} (hr : burn u op (bits v 0 12) = if c then x else y) :
    exec i s = if c then .next (burnt u x) else .next (burnt u y) :=
  (exec_fuse hu hgo he hr).trans (apply_ite (fun r => Host.Outcome.next (burnt u r)) c x y)

/-- The same where two tests decide. -/
theorem exec_fuse_ite_ite {c d : Prop} [Decidable c] [Decidable d] {x y z : Except Nat Fus}
    (hr : burn u op (bits v 0 12) = if c then x else if d then y else z) :
    exec i s = if c then .next (burnt u x) else if d then .next (burnt u y) else .next (burnt u z) := by
  rw [exec_fuse_ite hu hgo he hr, apply_ite (fun r => Host.Outcome.next (burnt u r)) d y z]

end

/-- Settles O58: the record commands by their form, the root key and the nonces; the fuse rows by what `burn` answers; readout
protection by the two writes that change it; a bank by the operation it runs. -/
theorem keysFusesAndFlashOperations : Obligations.KeysFusesAndFlashOperations := by
  refine ⟨fun c s v f hst => ?_, fun c s v f hst => ?_, fun c s v f hst => ?_, fun c s v f hst => ?_,
    fun t s u hu => ⟨exec_nonceReserve_nothing hu, exec_nonceReserve_spent hu, exec_nonceReserve_reserves hu⟩,
    fun a v t s u hu => ⟨fun row hrow => ?_, fun hgo => ?_⟩, fun a v t s u hu => ⟨exec_rdp_off hu, fun hon hup => ?_,
      fun hon hdown => ?_, fun hon hup hdown => ?_⟩,
    fun bank t ok s u hu => ⟨exec_nvmDone_idle hu, fun o ho => exec_nvmDone_erase hu ho, fun o ho => exec_nvmDone_program hu ho,
      exec_nvmEraseResume_nothing hu, fun e => exec_nvmEraseResume_resumes hu⟩⟩
  · rw [exec_keyLabelSet hst]
    exact ⟨fun h => congrArg _ (cmdKeyLabelSet_not_owner h), fun ho h => congrArg _ (cmdKeyLabelSet_bad_slot ho h),
      fun ho hn h => congrArg _ (cmdKeyLabelSet_bad_name ho hn h),
      fun ho hn hl hr => congrArg _ (cmdKeyLabelSet_saves ho hn hl hr)⟩
  · rw [exec_recordSeal hst]
    exact ⟨fun h => congrArg _ (cmdRecordSeal_bad (recordBad_slot h)),
      fun hs h => congrArg _ (cmdRecordSeal_bad (recordBad_length hs h)),
      fun hs h16 hmax h => congrArg _ (cmdRecordSeal_bad (recordBad_aad hs h16 hmax h)),
      fun hf hr => congrArg _ (cmdRecordSeal_retired hf hr),
      fun hf hr h => congrArg _ ((cmdRecordSeal_goes_on hf hr).trans (sealOrWait_spent h)),
      fun hf hr h hs => congrArg _ ((cmdRecordSeal_goes_on hf hr).trans (sealOrWait_seals h hs)),
      fun hf hr h hs => congrArg _ ((cmdRecordSeal_goes_on hf hr).trans (sealOrWait_waits h hs))⟩
  · rw [exec_recordOpen hst]
    exact ⟨fun h => congrArg _ (cmdRecordOpen_bad (recordBad_slot h)),
      fun hs h => congrArg _ (cmdRecordOpen_bad (recordBad_length hs h)),
      fun hs h16 hmax h => congrArg _ (cmdRecordOpen_bad (recordBad_aad hs h16 hmax h)),
      fun hf hr => congrArg _ (cmdRecordOpen_retired hf hr), fun hf hr h => congrArg _ (cmdRecordOpen_good hf hr h),
      fun hf hr h => congrArg _ (cmdRecordOpen_auth_fail hf hr h)⟩
  · rw [exec_aesBlock hst]
    refine ⟨fun h => congrArg _ (cmdAesBlock_bad_op h), fun ho h => congrArg _ (cmdAesBlock_bad_slot ho h),
      fun ho hs hr => congrArg _ (cmdAesBlock_retired ho hs hr), fun ho hs hr => ?_, fun ho hs hr => ?_⟩
    · rw [cmdAesBlock_answers (by omega) hs hr, ho]
      rfl
    · rw [cmdAesBlock_answers (by omega) hs hr, ho]
      rfl
  · obtain ⟨op, he⟩ := exec_fuseRows (show row ∈ fuseRows from hrow) a v t s
    rw [he]
    exact ⟨fun h => congrArg _ (fuseCmd_off hu h), fun hon h => congrArg _ (fuseCmd_other_path hu hon h),
      fun hon hb h => congrArg _ (fuseCmd_no_key hu hon hb h)⟩
  · exact ⟨fun h => ⟨exec_fuse hu hgo rfl (burn_secured_bad h), exec_fuse hu hgo rfl (burn_retired_bad h),
        exec_fuse hu hgo rfl (burn_debugLock_bad h)⟩, fun h => exec_fuse_ite hu hgo rfl (burn_secured h),
      fun h => exec_fuse_ite hu hgo rfl (burn_retired h), fun h => exec_fuse_ite hu hgo rfl (burn_debugLock h),
      exec_fuse_ite_ite hu hgo rfl burn_haDeny, exec_fuse_ite_ite hu hgo rfl burn_rdpFloor,
      fun h => exec_fuse hu hgo rfl (burn_svn_bad h), fun hmax h => exec_fuse hu hgo rfl (burn_svn_reached hmax h),
      fun hmax hlow h => exec_fuse hu hgo rfl (burn_svn_refused hmax hlow h),
      fun y hmax hlow h hy => exec_fuse hu hgo rfl (burn_svn hmax hlow h hy),
      fun h => exec_fuse hu hgo rfl (burn_revoke_bad h), fun hmax h => exec_fuse hu hgo rfl (burn_revoke_done hmax h),
      fun hmax hno h => exec_fuse hu hgo rfl (burn_revoke_refused hmax hno h),
      fun hmax hk h => exec_fuse hu hgo rfl (burn_revoke hmax hk h)⟩
  · obtain ⟨hr, -⟩ := exec_rdp_writes (a := a) (v := v) hu hon
    rw [hr, rdpWrite_raises hup]
  · obtain ⟨-, hl⟩ := exec_rdp_writes (a := a) (v := v) hu hon
    rw [hl, rdpWrite_lowers hdown]
  · rw [← rdpWrite_refused hup hdown]
    exact exec_rdp_writes hu hon

end Sys2Proof.Machine
